-- ==== Sys2Proof/Word.lean ====
section
/-! DEFINITION. The word types of the module. -/

namespace Sys2Proof

/-- A byte of memory, of scratchpad or of a record. -/
abbrev Byte := BitVec 8
/-- A 32-bit register, instruction word or vector lane. -/
abbrev Word := BitVec 32
/-- A 64-bit scalar register or scratchpad word. -/
abbrev DWord := BitVec 64

end Sys2Proof
end

