-- ==== Sys2Proof/Syntax.lean ====
section
/-! DEFINITION. The commands: one constructor per row of the opcode table, with its operands. -/

namespace Sys2Proof

/-- What the energy meters gave since the period began, input-referred, in nJ (R314, R315, R317): the energy of each use of an engine or
core, in their order in the state; of engines while no dispatch held them; fill activity of HINTs, by CTX; work for the overhead account,
by category; DRAM, mesh and base-die energy of each tower (base die of W0 with the W0 meter); each port; the module input. -/
structure Meters where
  uses : List Nat
  idle : Nat
  hints : List (Nat × Nat)
  work : List Nat
  dram : List Nat
  mesh : List Nat
  base : List Nat
  ports : List Nat
  input : Nat
  deriving DecidableEq, Repr

/-- What an SPDM or IDE_KM exchange comes to (R346): negotiation with or without the one algorithm suite, a secured session opened or
closed, the measurement block of log entry `i`, the keys of a stream set and the stream Secure, a stream stopped. -/
inductive Spdm where
  | negotiate (offered : Bool)
  | certificate
  | establish
  | close
  | measurement (i : Nat)
  | ideStart (stream : Fin 5)
  | ideStop (stream : Fin 5)
  deriving DecidableEq, Repr

/-- Who makes an access: the service core, or the host with a memory request that arrives in an IDE stream or in none (R272). -/
inductive By where
  | svc
  | host (stream : Option (Fin 5))
  deriving DecidableEq, Repr
/-- The host makes it. -/
def By.isHost : By → Bool
  | .svc => false
  | .host _ => true


/-- A tile, and the scratchpad words that port A of an exchange bank of it writes in the same tc (R109). -/
structure TilePorts where
  tile : Fin 128
  portA : List Nat
  deriving DecidableEq, Repr
/-- What a packet for an engine carries: the bytes that the service core asks for, or data to write (R75, R106). -/
structure Cargo where
  read : Nat
  data : List Byte
  deriving DecidableEq, Repr
/-- What the way of a packet through the mesh depends on: the lanes that it passes to or from a base die (R17), whether the previous tower's
bridge has more free credits than the next tower's, its message, and whether it is the last packet of that (R81). -/
structure Way where
  lane : Fin 8
  downFree : Bool
  msg : Nat
  last : Bool
  deriving DecidableEq, Repr
/-- A packet under way and one of its buffers, by position. -/
structure FlitAt where
  packet : Nat
  buf : Nat
  deriving DecidableEq, Repr
/-- What a retraining window shows: which of its 4 delay steps pass, and RDLAT (R422). -/
structure Window where
  pass : BitVec 4
  rdlat : Fin 4
  deriving DecidableEq, Repr
/-- A host request for a function, in an IDE stream or in none (R272). -/
structure HostReq where
  fn : Fin 257
  stream : Option (Fin 5)
  deriving DecidableEq, Repr
/-- A read of host memory that is over: its address, and whether it returned data. -/
structure ReadAt where
  addr : Nat
  ok : Bool
  deriving DecidableEq, Repr
/-- A place in BAR4, reached in an IDE stream or in none (R267, R272). -/
structure Bar4 where
  off : Nat
  stream : Option (Fin 5)
  deriving DecidableEq, Repr
/-- The last 16 tc of an engine: edges swallowed in them, and whether the array was frozen (R276, R279). -/
structure Edges where
  swallowed : Fin 16
  frozen : Bool
  deriving DecidableEq, Repr
/-- A Gust discharge: the bank sources current or sinks it, mV beyond the set point, 0.0625 A, ns (R282). -/
structure Gust where
  source : Bool
  mv : Nat
  amps : Nat
  ns : Nat
  deriving DecidableEq, Repr
/-- The voltage of a tile stands so many mV below its set point (R283). -/
structure Sag where
  tile : Fin 128
  mv : Nat
  deriving DecidableEq, Repr

/-- What a host read of the module was for: a descriptor that waits for it, the boot image, the request of a mailbox. -/
inductive HostRead where
  | descr (qp idx : Nat)
  | boot
  | mbx (m : Fin 2)
  deriving DecidableEq, Repr


/-- A command, named after its row; the rows that have operands stand first. Operands: `t` a tile, `c` a core of its slice, `w` an instruction word, `src` who makes
a write, `st` the IDE stream of a host request; measured quantities and arbitration outcomes are operands too. -/
inductive Instr where
  /-- SALU (R60). -/
  | salu (t : Fin 128) (w : Word)
  /-- SADDI (R60). -/
  | saddi (t : Fin 128) (w : Word)
  /-- SLUI (R60). -/
  | slui (t : Fin 128) (w : Word)
  /-- SLD (R60). -/
  | sld (t : Fin 128) (w : Word)
  /-- SST (R60). -/
  | sst (t : Fin 128) (w : Word)
  /-- BR (R60). -/
  | br (t : Fin 128) (w : Word)
  /-- JAL (R60). -/
  | jal (t : Fin 128) (w : Word)
  /-- TRET (R61). -/
  | tret (t : Fin 128) (w : Word)
  /-- BRK (R60). -/
  | brk (t : Fin 128) (w : Word)
  /-- MXS (R29). -/
  | mxs (t : Fin 128) (w w1 w2 w3 : Word)
  /-- MXW (R30). -/
  | mxw (t : Fin 128) (w : Word)
  /-- MXW_RELEASE (R29). -/
  | mxwRelease (t : Fin 128)
  /-- VOP (R97). -/
  | vop (t : Fin 128) (w : Word)
  /-- VLD (R60). -/
  | vld (t : Fin 128) (w : Word)
  /-- VST (R60). -/
  | vst (t : Fin 128) (w : Word)
  /-- DMAQ (R63). -/
  | dmaq (t : Fin 128) (w : Word)
  /-- DMAW (R60). -/
  | dmaw (t : Fin 128) (w : Word)
  /-- TGET (R68). -/
  | tget (t : Fin 128) (w : Word)
  /-- TDONE (R69). -/
  | tdone (t : Fin 128) (w : Word)
  /-- TBAR (R464). -/
  | tbar (t : Fin 128) (w : Word)
  /-- RDX (R72). -/
  | rdx (t : Fin 128) (w : Word)
  /-- HALT (R60). -/
  | halt (t : Fin 128) (w : Word)
  /-- SYS (R60). -/
  | sys (t : Fin 128) (w : Word)
  /-- MATRIX_DATA_TRAP (R61). -/
  | matrixDataTrap (t : Fin 128)
  /-- ICACHE_INV (R58). -/
  | icacheInv (t : Fin 128)
  /-- ARRAY_STEP (R33). -/
  | arrayStep (t : Fin 128) (lane : List (Fin 18)) (others : List (Fin 18 × Fin 32))
  /-- SHADOW_LOAD_COMPLETE (R38). -/
  | shadowLoadComplete (t : Fin 128)
  /-- ARRAY_FREEZE_LIMIT (R45). -/
  | arrayFreezeLimit (t : Fin 128)
  /-- CLR_CNT (R57). -/
  | clrCnt (t : Fin 128)
  /-- MXA_FED_LO_READ (R57). -/
  | mxaFedLoRead (t : Fin 128)
  /-- DMA_DESCRIPTOR_START (R63). -/
  | dmaDescriptorStart (t : Fin 128) (ch : Fin 8)
  /-- DMA_READ_RESPONSE (R63). -/
  | dmaReadResponse (t : Fin 128) (ch : Fin 8) (pos row : Nat) (portA : List Nat)
  /-- RESTART (R64). -/
  | restart (t : Fin 128) (chans : Byte)
  /-- DISPATCH (R251). -/
  | dispatch (qp idx : Nat)
  /-- STRICT_RELEASE (R360). -/
  | strictRelease (d : Nat)
  /-- TASKLET_QUEUE_REFILL (R66). -/
  | taskletQueueRefill (t : Fin 128)
  /-- STEAL_REQUEST (R71). -/
  | stealRequest (thief victim : Fin 128)
  /-- STEAL_REPLY (R71). -/
  | stealReply (thief victim : Fin 128)
  /-- ENGINE_FENCE (R77). -/
  | engineFence (t : Fin 128)
  /-- FENCE_COMPLETE (R77). -/
  | fenceComplete (t : Fin 128)
  /-- FENCE_TIMEOUT (R77). -/
  | fenceTimeout (t : Fin 128)
  /-- ENGINE_PACKET (R75). -/
  | enginePacket (t : Fin 128) (src : Fin 129) (ch : Fin 8) (addr : Nat) (cargo : Cargo) (portA : List Nat)
  /-- ENGINE_WAKE (R310). -/
  | engineWake (t : TilePorts)
  /-- MESH_PACKET_INJECT (R80). -/
  | meshPacketInject (src dst : Fin 132) (vc : Fin 4) (flits : Nat) (strict : Bool) (way : Way)
  /-- MESH_PACKET_HOP (R78). -/
  | meshPacketHop (k : FlitAt)
  /-- MESH_LINK_ERROR (R388). -/
  | meshLinkError (t : Fin 128) (dir : Fin 5)
  /-- SPM_OWNER_WRITE (R111). -/
  | spmOwnerWrite (t : Fin 128) (src : By) (hi : Bool) (v : Word)
  /-- HANDOVER_COMPLETE (R111). -/
  | handoverComplete (t : Fin 128) (bank : Fin 16)
  /-- SPM_SECURE_WRITE (R114). -/
  | spmSecureWrite (t : Fin 128) (src : By) (v : Word)
  /-- WIPE_COMPLETE (R113). -/
  | wipeComplete (t : Fin 128) (bank : Fin 16)
  /-- SPM_PATROL_READ (R117). -/
  | spmPatrolRead (t : Fin 128) (bank : Fin 16) (line : Fin 512)
  /-- SPM_CORRECTED_WRITEBACK (R116). -/
  | spmCorrectedWriteback (t : Fin 128) (word : Fin 1048576)
  /-- SPM_DMACOLL_CLR (R109). -/
  | spmDmacollClr (t : Fin 128) (chans : Byte)
  /-- VCH_REQUEST (R122). -/
  | vchRequest (t : Fin 128) (off : Word) (write : Bool) (src : Fin 8) (len : Nat) (data : List Byte)
  /-- VCH_READ_DATA (R460). -/
  | vchReadData (t : Fin 128) (k : Nat) (ondie : BitVec 16)
  /-- PAGE_TIMEOUT (R123). -/
  | pageTimeout (t : Fin 128) (bank : Fin 64)
  /-- REFRESH_DUE (R128). -/
  | refreshDue (t : Fin 128) (bank : Fin 64) (postpone : Bool)
  /-- MARGIN_CHECK (R126). -/
  | marginCheck (t : Fin 128) (layer : Fin 16) (fails : Bool)
  /-- RETRAIN_WINDOW (R422). -/
  | retrainWindow (t : Fin 128) (layer : Fin 16) (ending : Bool) (result : Window)
  /-- SCRUB_READ (R137). -/
  | scrubRead (t : Fin 128) (ondie : BitVec 16)
  /-- BUCKET_LEAK (R138). -/
  | bucketLeak (t : Fin 128)
  /-- CAND_ACK (R139). -/
  | candAck (t : Fin 128)
  /-- REMAP_INSTALL (R141). -/
  | remapInstall (t : Fin 128) (n : Fin 32) (v : Word)
  /-- REMAP_COPY (R141). -/
  | remapCopy (t : Fin 128) (n : Fin 32) (v : Word)
  /-- REMAP_COPY_DONE (R141). -/
  | remapCopyDone (t : Fin 128) (n : Fin 32)
  /-- VCH_REF_CLR (R130). -/
  | vchRefClr (t : Fin 128)
  /-- BSC_PROGRAM_LOAD (R151). -/
  | bscProgramLoad (t : Fin 128) (src : By)
  /-- BSC_LOAD_DONE (R151). -/
  | bscLoadDone (t : Fin 128)
  /-- BSC_GO (R152). -/
  | bscGo (t : Fin 128) (c : Fin 64) (src : By)
  /-- BSC_STOP (R155). -/
  | bscStop (t : Fin 128) (c : Fin 64) (src : By)
  /-- BSC_RING_POLL (R153). -/
  | bscRingPoll (t : Fin 128)
  /-- BSC_RING_RECORD (R153). -/
  | bscRingRecord (t : TilePorts)
  /-- BSC_TOKEN_GRANT (R156). -/
  | bscTokenGrant (t : Fin 128) (c : Fin 64)
  /-- BSC_LEASE_BEGIN (R158). -/
  | bscLeaseBegin (t : Fin 128) (c : Fin 64)
  /-- BSC_CORE_START (R157). -/
  | bscCoreStart (t : Fin 128) (c : Fin 64)
  /-- BSC_ALU (R146). -/
  | bscAlu (t : Fin 128) (c : Fin 64)
  /-- BSC_ADDI (R146). -/
  | bscAddi (t : Fin 128) (c : Fin 64)
  /-- BSC_SHI (R146). -/
  | bscShi (t : Fin 128) (c : Fin 64)
  /-- BSC_BR (R146). -/
  | bscBr (t : Fin 128) (c : Fin 64)
  /-- LDC (R146). -/
  | ldc (t : Fin 128) (c : Fin 64)
  /-- STC (R146). -/
  | stc (t : Fin 128) (c : Fin 64)
  /-- BSC_SYS (R146). -/
  | bscSys (t : Fin 128) (c : Fin 64)
  /-- ROPEN (R146). -/
  | ropen (t : Fin 128) (c : Fin 64) (bc : Nat)
  /-- RCLOSE (R146). -/
  | rclose (t : Fin 128) (c : Fin 64) (bc : Nat)
  /-- RLD (R165). -/
  | rld (t : Fin 128) (c : Fin 64) (ondie : BitVec 16)
  /-- RST (R164). -/
  | rst (t : Fin 128) (c : Fin 64)
  /-- EXP (R147). -/
  | exp (t : Fin 128) (c : Fin 64)
  /-- IMP (R147). -/
  | imp (t : Fin 128) (c : Fin 64)
  /-- YLD (R159). -/
  | yld (t : Fin 128) (c : Fin 64)
  /-- BSC_HALT (R155). -/
  | bscHalt (t : Fin 128) (c : Fin 64) (bc : Nat)
  /-- BSC_EXP_WRITE (R147). -/
  | bscExpWrite (t : Fin 128) (c : Fin 64) (portA : Bool)
  /-- BSC_IMP_DATA (R147). -/
  | bscImpData (t : Fin 128) (c : Fin 64) (reg : Fin 16)
  /-- BSC_PAUSE (R160). -/
  | bscPause (t : Fin 128) (c : Fin 64) (why : Fin 3)
  /-- BSC_RESUME (R162). -/
  | bscResume (t : Fin 128) (c : Fin 64)
  /-- BSC_LEASE_LIMIT (R159). -/
  | bscLeaseLimit (t : Fin 128) (c : Fin 64)
  /-- BSC_RUN_LIMIT (R167). -/
  | bscRunLimit (t : Fin 128) (c : Fin 64)
  /-- SEQ_OPEN (R181). -/
  | seqOpen (qp idx : Nat)
  /-- SEQ_STEP_BEGIN (R184). -/
  | seqStepBegin (qp idx : Nat)
  /-- SEQ_STEP_END (R185). -/
  | seqStepEnd (qp idx : Nat)
  /-- SEQ_CLOSE (R186). -/
  | seqClose (qp idx : Nat)
  /-- PAGE_ZERO_DONE (R177). -/
  | pageZeroDone (p : Nat)
  /-- KV_SWAP_OUT (R197). -/
  | kvSwapOut (qp idx : Nat)
  /-- SWAP_PAGE_WRITE_DONE (R197). -/
  | swapPageWriteDone (ctx : Nat)
  /-- KV_SWAP_IN (R199). -/
  | kvSwapIn (qp idx : Nat)
  /-- SWAP_PAGE_READ_DONE (R199). -/
  | swapPageReadDone (ctx : Nat) (data : List Byte)
  /-- PREFIX_PIN (R195). -/
  | prefixPin (qp idx : Nat)
  /-- PORT_ENABLE (R213). -/
  | portEnable (p : Fin 8)
  /-- PORT_DISABLE (R213). -/
  | portDisable (p : Fin 8)
  /-- TRAIN_ATTEMPT_SUCCESS (R213). -/
  | trainAttemptSuccess (p : Fin 8)
  /-- TRAIN_ATTEMPT_TIMEOUT (R211). -/
  | trainAttemptTimeout (p : Fin 8)
  /-- LINK_LOSS (R213). -/
  | linkLoss (p : Fin 8)
  /-- FEC_LIMIT (R213). -/
  | fecLimit (p : Fin 8) (ce ue : Nat)
  /-- RETRAIN_RETRY (R213). -/
  | retrainRetry (p : Fin 8)
  /-- PORT_RETRAIN (R213). -/
  | portRetrain (p : Fin 8)
  /-- PORT_UNFENCE (R213). -/
  | portUnfence (p : Fin 8)
  /-- VRX_RUN (R225). -/
  | vrxRun (v : Bool)
  /-- FRAME_RX (R214). -/
  | frameRx (p : Fin 8) (ok : Bool) (bytes : List Byte)
  /-- WRITE (R221). -/
  | vrxWrite (peer msn : Nat)
  /-- READ_REQ (R221). -/
  | readReq (peer msn : Nat)
  /-- READ_RSP (R221). -/
  | readRsp (peer msn : Nat)
  /-- FETCH_ADD (R221). -/
  | fetchAdd (peer msn : Nat)
  /-- FETCH_RSP (R221). -/
  | fetchRsp (peer msn : Nat)
  /-- TOK_DISPATCH (R231). -/
  | tokDispatch (peer msn : Nat) (slot : Nat)
  /-- TOK_NACK (R231). -/
  | tokNack (peer msn : Nat)
  /-- CREDIT (R224). -/
  | creditMsg (peer msn : Nat) (grant : Bool)
  /-- ACK (R217). -/
  | vrxAck (peer : Nat)
  /-- OPEN (R217). -/
  | vrxOpen (peer : Nat)
  /-- OPEN_ACK (R217). -/
  | openAck (peer : Nat)
  /-- GEN (R229). -/
  | genMsg (peer msn : Nat)
  /-- GEN_MARK (R232). -/
  | genMark (peer msn : Nat)
  /-- KEYX_HELLO (R356). -/
  | keyxHello (peer msn : Nat)
  /-- KEYX_QUOTE (R356). -/
  | keyxQuote (peer msn : Nat)
  /-- KEYX_ENCAP (R356). -/
  | keyxEncap (peer msn : Nat)
  /-- KEYX_KEY (R356). -/
  | keyxKey (peer msn : Nat)
  /-- KEYX_KEY_ACK (R356). -/
  | keyxKeyAck (peer msn : Nat)
  /-- TIME (R236). -/
  | vrxTime (peer msn : Nat)
  /-- LSTEP_DIGEST (R369). -/
  | lstepDigest (peer msn : Nat)
  /-- FW_CHUNK (R418). -/
  | fwChunk (peer msn : Nat)
  /-- FW_REQ (R419). -/
  | fwReq (peer msn : Nat)
  /-- FW_ACTIVATION_MARK (R420). -/
  | fwActivationMark (peer msn : Nat)
  /-- ACK_TIMER (R217). -/
  | ackTimer (peer : Nat)
  /-- RETRANSMIT_TIMEOUT (R217). -/
  | retransmitTimeout (peer psn : Nat)
  /-- PEER_REOPEN (R218). -/
  | peerReopen (peer : Nat)
  /-- CREDIT_GRANT_EXPIRY (R224). -/
  | creditGrantExpiry (peer : Nat) (mine : Bool)
  /-- NO_KEY_TIMEOUT (R235). -/
  | noKeyTimeout (peer : Nat)
  /-- FXR_RING_POLL (R222). -/
  | fxrRingPoll (t : Fin 128)
  /-- SEND_MESSAGE (R222). -/
  | sendMessage (t : Fin 128) (k : Nat)
  /-- TOKEN_RECORD_WRITE (R226). -/
  | tokenRecordWrite (expert : Fin 65536)
  /-- PEER_REMOVE_DONE (R233). -/
  | peerRemoveDone (peer : Nat)
  /-- FAB_REKEY (R234). -/
  | fabRekey (p : Fin 8)
  /-- OLD_KEY_EXPIRY (R234). -/
  | oldKeyExpiry (peer : Nat) (port : Fin 8) (idx : Fin 2)
  /-- EXPERT_MAP (R229). -/
  | expertMap (qp idx : Nat)
  /-- NUDGE (R248). -/
  | nudge (r : HostReq)
  /-- SUMMARY_READ_DONE (R246). -/
  | summaryReadDone (f : Fin 257) (r : ReadAt) (sum : Nat)
  /-- DOORBELL_READ_DONE (R242). -/
  | doorbellReadDone (qp : Nat) (r : ReadAt) (prod cons : Word)
  /-- DESCRIPTOR_FETCH_DONE (R249). -/
  | descriptorFetchDone (qp : Nat) (r : ReadAt) (bytes : List Byte)
  /-- COALESCE_TIMEOUT (R259). -/
  | coalesceTimeout (qp : Nat)
  /-- COPY (R253). -/
  | copyRows (qp idx : Nat) (portA : List Nat)
  /-- FENCE_QUEUE (R254). -/
  | fenceQueue (qp idx : Nat)
  /-- FENCE_FUNCTION (R254). -/
  | fenceFunction (qp idx : Nat)
  /-- FENCE_VALUE (R254). -/
  | fenceValue (qp idx : Nat)
  /-- FENCE_VALUE_POLL (R254). -/
  | fenceValuePoll (qp idx : Nat)
  /-- FENCE_VALUE_TIMEOUT (R254). -/
  | fenceValueTimeout (qp idx : Nat)
  /-- HINT (R290). -/
  | hintCmd (qp idx : Nat)
  /-- RECEIPT_FETCH (R330). -/
  | receiptFetch (qp idx : Nat)
  /-- ATTEST_QUOTE (R345). -/
  | attestQuote (qp idx : Nat)
  /-- ATTEST_LOG (R345). -/
  | attestLog (qp idx : Nat)
  /-- ATTEST_MANIFEST (R345). -/
  | attestManifest (qp idx : Nat)
  /-- FW_STAGE_CHUNK (R410). -/
  | fwStageChunk (qp idx : Nat)
  /-- FW_STAGE_ACTIVATE (R411). -/
  | fwStageActivate (qp idx : Nat)
  /-- FW_STAGE_ABORT (R410). -/
  | fwStageAbort (qp idx : Nat)
  /-- QP_ENABLE (R261). -/
  | qpEnable (f : Fin 257) (w : Word)
  /-- QP_DISABLE (R260). -/
  | qpDisable (f : Fin 257) (w : Word)
  /-- CMD_FQ_WRITE (R239). -/
  | cmdFqWrite (f : Fin 257) (w : Word)
  /-- LINK_UP (R264). -/
  | linkUp (speed width : Nat) (flit : Bool)
  /-- FUNCTION_LEVEL_RESET (R270). -/
  | functionLevelReset (f : Fin 257)
  /-- CONFIG_REQUEST (R270). -/
  | configRequest (f : Fin 257) (off : Nat) (w : Option Word)
  /-- BAR4_READ (R267). -/
  | bar4Read (at_ : Bar4) (n : Nat)
  /-- BAR4_WRITE (R267). -/
  | bar4Write (at_ : Bar4) (data : List Byte)
  /-- PCI_DBG_WRITE (R267). -/
  | pciDbgWrite (w : Word) (src : By)
  /-- IDE_STREAM_FAIL (R272). -/
  | ideStreamFail (k : Fin 5)
  /-- D_STATE_CHANGE (R273). -/
  | dStateChange (f : Fin 257) (d3 : Bool)
  /-- GOVERNOR_SAMPLE (R276). -/
  | governorSample (t : Fin 128) (cur demand : Byte) (edges : Edges) (code : Byte)
  /-- OPERATING_POINT_CHANGE (R277). -/
  | operatingPointChange (t : Fin 128)
  /-- GUST_DISCHARGE (R282). -/
  | gustDischarge (t : Fin 128) (g : Gust)
  /-- DROOP_SLOWDOWN (R283). -/
  | droopSlowdown (d : Sag)
  /-- DROOP_END (R283). -/
  | droopEnd (d : Sag)
  /-- VMIN_CLEAR (R284). -/
  | vminClear (t : Fin 128)
  /-- ENGINE_UNDERVOLTAGE (R285). -/
  | engineUndervoltage (t : Fin 128)
  /-- RAIL_OVERCURRENT (R274). -/
  | railOvercurrent (above : Bool)
  /-- DOMAIN_OVERLOAD (R275). -/
  | domainOverload (group : Fin 6) (above : Bool)
  /-- CAP_STEP (R288). -/
  | capStep (avg other : Nat) (demand cost heavy light : List Nat)
  /-- PEAK_CLAMP (R287). -/
  | peakClamp (w : Nat) (long : Bool)
  /-- PEAK_CLAMP_END (R287). -/
  | peakClampEnd (w : Nat)
  /-- PHASE_END (R289). -/
  | phaseEnd (k : Nat)
  /-- HINT_PHASE_BEGIN (R290). -/
  | hintPhaseBegin (k : Nat)
  /-- RESERVATION_END (R290). -/
  | reservationEnd (k : Nat)
  /-- DOMAIN_SWITCH_ON (R293). -/
  | domainSwitchOn (t : Fin 128) (rail : Nat)
  /-- FORCED_SWITCH_ON (R294). -/
  | forcedSwitchOn (t : Fin 128)
  /-- SENSOR_SAMPLE (R296). -/
  | sensorSample (w : Fin 4) (sensor : Fin 138) (v : Option Int) (pred : Int)
  /-- THM_MODEL_UPDATE (R299). -/
  | thmModelUpdate (w : Fin 4) (es fs : List Int)
  /-- COOLANT_SHUTDOWN (R309). -/
  | coolantShutdown (m : Meters) (k : Nat)
  /-- CLR_SUSPECT (R301). -/
  | clrSuspect (w : Fin 4)
  /-- LULL1_ENTRY (R310). -/
  | lull1Entry (t : Fin 128)
  /-- LULL2_ENTRY (R310). -/
  | lull2Entry (t : Fin 128)
  /-- SENTRY_ENTRY (R311). -/
  | sentryEntry (sums prods : List (Nat × Nat))
  /-- SENTRY_SAMPLE (R311). -/
  | sentrySample (sums prods : List (Nat × Nat))
  /-- METER_FAIL (R316). -/
  | meterFail (id : Fin 142)
  /-- PERIOD_END (R322). -/
  | periodEnd (m : Meters)
  /-- RECEIPT_WAIT_EXPIRY (R329). -/
  | receiptWaitExpiry (qp idx : Nat)
  /-- BATCH_SIGN (R327). -/
  | batchSign (b : Nat)
  /-- ENR_RUN (R336). -/
  | enrRun (v : Bool)
  /-- ENR_RELEASE (R332). -/
  | enrRelease (lo : Word)
  /-- TAMPER (R357). -/
  | tamper (src : Fin 4)
  /-- SPDM_MESSAGE (R346). -/
  | spdmMessage (msg : Spdm)
  /-- LOCKSTEP_ENABLE (R366). -/
  | lockstepEnable (v : Bool)
  /-- DIGEST_DONE (R367). -/
  | digestDone (num : Nat)
  /-- LOCKSTEP_TIMEOUT (R369). -/
  | lockstepTimeout (num : Nat)
  /-- STAGE_0 (R372). -/
  | stage0 (good : Bool) (bad : List (Fin 72))
  /-- STAGE_1 (R263). -/
  | stage1 (bad : List (Fin 16))
  /-- STAGE_3 (R372). -/
  | stage3 (temp : Int) (islands : List (Fin 148)) (domains : List (Fin 128)) (other : Bool)
  /-- STAGE_4 (R125). -/
  | stage4 (all : BitVec 64 × BitVec 64 × Fin 4) (full : List (Fin 2048 × BitVec 64 × BitVec 64 × Fin 4))
  /-- STAGE_5 (R372). -/
  | stage5 (repairs : List (Fin 4096 × Word)) (bad : List (Fin 128 × Fin 64 × Fin 16384))
  /-- STAGE_6 (R372). -/
  | stage6 (failed : List (Fin 128))
  /-- STAGE_7 (R372). -/
  | stage7 (failed : List (Fin 128 × Fin 4))
  /-- MIN_PORTS_WRITE (R379). -/
  | minPortsWrite (v : Fin 16)
  /-- MICROCODE_ENGINE_LOAD (R413). -/
  | microcodeEngineLoad (t : Fin 128) (ok : Bool)
  /-- RESET_REQUEST (R381). -/
  | resetRequest (w : Word)
  /-- RAISE_SEND (R390). -/
  | raiseSend (u : Fin 136)
  /-- CONDITION_RERAISE (R389). -/
  | conditionReraise (src : Nat)
  /-- QUIET_EXPIRY (R396). -/
  | quietExpiry (src : Nat)
  /-- TRAP_ACK (R394). -/
  | trapAck (src : By)
  /-- EDY_RELEASE (R404). -/
  | edyRelease (key : BitVec 16)
  /-- SQC_WRITE (R426). -/
  | sqcWrite (f : Fin 257) (off : Nat) (w : Word)
  /-- BIT_ALIAS_WRITE (R428). -/
  | bitAliasWrite (word : Fin 524288) (v : Bool) (src : By)
  /-- PARITY_CHECK (R429). -/
  | parityCheck (f : Fin 257) (off : Nat)
  /-- STG_COMMIT (R434). -/
  | stgCommit (k : Fin 133) (w : Word)
  /-- STG_DISCARD (R436). -/
  | stgDiscard (k : Fin 133) (w : Word)
  /-- STAGED_APPLY (R435). -/
  | stagedApply (k : Fin 133) (block : Fin 8)
  /-- BAR0_BAD_ACCESS (R424). -/
  | bar0BadAccess (write : Bool)
  /-- REGISTER_WRITE (R431). -/
  | registerWrite (f : Fin 257) (off : Nat) (w : Word) (src : By)
  /-- PWR_EN_FALL (R447). -/
  | pwrEnFall (m : Meters) (k : Nat)
  /-- SLOT_RETURN (R224). -/
  | slotReturn (expert : Fin 65536)
  /-- HOST_READ_COMPLETION (R258). -/
  | hostReadCompletion (r : HostRead) (ok : Bool) (data : List Byte) (portA : List Nat)
  /-- LOG_READ (R405). -/
  | logRead (index : Word) (count : Byte)
  /-- LOG_RELEASE (R404). -/
  | logRelease (key : BitVec 16)
  /-- FAULT_READ (R405). -/
  | faultRead (src : BitVec 16)
  /-- CAP_SET (R405). -/
  | capSet (w : BitVec 16)
  /-- KVM_RUN (R209). -/
  | kvmRun
  /-- KVM_STOP (R209). -/
  | kvmStop
  /-- KVM_INIT_DONE (R209). -/
  | kvmInitDone
  /-- CMD_POLL_TICK (R247). -/
  | cmdPollTick
  /-- IDLE_INTERVAL (R247). -/
  | idleInterval
  /-- PERST_ASSERT (R270). -/
  | perstAssert
  /-- PERST_DEASSERT (R270). -/
  | perstDeassert
  /-- LINK_DOWN (R271). -/
  | linkDown
  /-- VF_ENABLE_CLEAR (R268). -/
  | vfEnableClear
  /-- THERMAL_CAP_RISE (R304). -/
  | thermalCapRise
  /-- COOLANT_CAP_UPDATE (R308). -/
  | coolantCapUpdate
  /-- FLOW_COUNT (R307). -/
  | flowCount
  /-- FLOW_PULSE (R449). -/
  | flowPulse
  /-- COOLANT_LOSS_TIMEOUT (R309). -/
  | coolantLossTimeout
  /-- COOLANT_DRAIN (R309). -/
  | coolantDrain
  /-- FLOW_RESTORED (R446). -/
  | flowRestored
  /-- THERM_ALERT_RELEASE (R312). -/
  | thermAlertRelease
  /-- LEDGER_FLUSH (R320). -/
  | ledgerFlush
  /-- RECEIPT_TAKE (R326). -/
  | receiptTake
  /-- BATCH_CLOSE (R326). -/
  | batchClose
  /-- RECONCILE (R334). -/
  | reconcile
  /-- LC_CHANGE (R341). -/
  | lcChange
  /-- SVN_COMMIT (R342). -/
  | svnCommit
  /-- CONF_SET (R347). -/
  | confSet
  /-- PROG_LOAD (R349). -/
  | progLoad
  /-- SESSION_OPEN (R350). -/
  | sessionOpen
  /-- SESSION_CLOSE (R351). -/
  | sessionClose
  /-- QUOTE (R440). -/
  | mbxQuote
  /-- INFO (R441). -/
  | mbxInfo
  /-- MANIFEST (R441). -/
  | mbxManifest
  /-- CAL_READ (R441). -/
  | calRead
  /-- DIV_CLEAR (R370). -/
  | divClear
  /-- STAGE_2 (R408). -/
  | stage2
  /-- STAGE_8 (R379). -/
  | stage8
  /-- STAGE_9 (R372). -/
  | stage9
  /-- CLR_SAVED (R378). -/
  | clrSaved
  /-- BOOT_LOAD_GO (R408). -/
  | bootLoadGo
  /-- BOOT_TIMEOUT (R408). -/
  | bootTimeout
  /-- SERVICE_HANDOVER_READY (R412). -/
  | serviceHandoverReady
  /-- FW_REPAIR_GAP (R419). -/
  | fwRepairGap
  /-- FW_MARK_REQUEST (R420). -/
  | fwMarkRequest
  /-- RESET_WORK_DONE (R382). -/
  | resetWorkDone
  /-- RESET_WORK_TIMEOUT (R382). -/
  | resetWorkTimeout
  /-- RESET_BOUNDARY_EMPTY (R382). -/
  | resetBoundaryEmpty
  /-- RESET_DEADLINE (R382). -/
  | resetDeadline
  /-- RESET_SCOPE_READY (R382). -/
  | resetScopeReady
  /-- MODULE_RESET (R386). -/
  | moduleReset
  /-- FAULT_RAISE (R392). -/
  | faultRaise
  /-- TRAP_TIMEOUT (R394). -/
  | trapTimeout
  /-- PIN_CLR (R395). -/
  | pinClr
  /-- LOG_INFO (R405). -/
  | logInfo
  /-- GLB_TIME_LO_READ (R438). -/
  | glbTimeLoRead
  /-- INPUT_POWER_UP (R443). -/
  | inputPowerUp
  /-- INPUT_BELOW_38V (R444). -/
  | inputBelow38v
  /-- INPUT_OVERVOLTAGE (R443). -/
  | inputOvervoltage
  /-- INPUT_RECONNECT (R443). -/
  | inputReconnect
  /-- PWR_EN_RISE (R445). -/
  | pwrEnRise
  /-- HANDOVER_READY_TIMEOUT (R412). -/
  | handoverReadyTimeout
  /-- SYNC_INTERVAL (R236). -/
  | syncInterval
  deriving DecidableEq, Repr

end Sys2Proof
end

