-- ==== Sys2Proof/Decode.lean ====
section
/-! DEFINITION. The commands have no encoding: no row of the opcode table gives bits. -/

namespace Sys2Proof

/-- The command that a word spells by the table's bits: none, since no row gives any. -/
def decodeTableWord (_nbits _w : Nat) : Option Instr := none

end Sys2Proof
end

