-- ==== Sys2Proof/Machine/Bits.lean ====
section
/-! DEFINITION. Bit fields, signed readings, byte order and the sorted sparse map that State is made of. -/

namespace Sys2Proof.Machine

/-- Bits [hi:lo] of a number. -/
def bits (n hi lo : Nat) : Nat := (n / 2 ^ lo) % 2 ^ (hi + 1 - lo)
/-- Bit `i` of a number. -/
def bitOf (n i : Nat) : Bool := (n / 2 ^ i) % 2 == 1
/-- `n` with bits [hi:lo] replaced by the low bits of `v`. -/
def setBits (n hi lo v : Nat) : Nat :=
  n - 2 ^ lo * bits n hi lo + 2 ^ lo * (v % 2 ^ (hi + 1 - lo))
/-- `n` with bit `i` set. -/
def setBit (n i : Nat) : Nat := n ||| 2 ^ i
/-- `n` with bit `i` cleared. -/
def clrBit (n i : Nat) : Nat := if bitOf n i then n - 2 ^ i else n
/-- A `w`-bit pattern read as a two's-complement number. -/
def signed (w v : Nat) : Int := if v % 2 ^ w < 2 ^ (w - 1) then (v % 2 ^ w : Nat) else (v % 2 ^ w : Nat) - (2 ^ w : Nat)
/-- An integer wrapped to `w` bits. -/
def wrap (w : Nat) (i : Int) : Nat := (i % (2 ^ w : Nat)).toNat
/-- 1 for true. -/
def b2n (b : Bool) : Nat := if b then 1 else 0
/-- Ceiling division. -/
def cdiv (a b : Nat) : Nat := (a + b - 1) / b
/-- The indices of the bits that are 1 among the low `n` bits, ascending. -/
def bitList (v n : Nat) : List Nat := (List.range n).filter (fun i => bitOf v i)

/-- Little-endian value of a list of bytes (R86). -/
def leNat : List Byte → Nat
  | [] => 0
  | b :: bs => b.toNat + 256 * leNat bs
/-- The `n` little-endian bytes of a value. -/
def leBytes : Nat → Nat → List Byte
  | 0, _ => []
  | n + 1, v => BitVec.ofNat 8 v :: leBytes n (v / 256)
/-- Big-endian bytes. -/
def beBytes (n v : Nat) : List Byte := (leBytes n v).reverse
/-- The little-endian number in bytes [i, i+n) of a record. -/
def leAt (bs : List Byte) (i n : Nat) : Nat := leNat ((bs.drop i).take n)
/-- Whether every byte of [i, i+n) is 0. -/
def zeroAt (bs : List Byte) (i n : Nat) : Bool := ((bs.drop i).take n).all (· == 0)
/-- `bs` cut or padded with zero bytes to length `n`. -/
def padTo (n : Nat) (bs : List Byte) : List Byte := (bs ++ List.replicate (n - bs.length) 0).take n
/-- The bytes of an ASCII string. -/
def ascii (s : String) : List Byte := s.toList.map (fun c => BitVec.ofNat 8 c.toNat)
/-- Zero bytes. -/
def zeros (n : Nat) : List Byte := List.replicate n 0

/-- A sparse map: keys strictly rising. -/
abbrev SMap (α : Type) := List (Nat × α)

/-- The entry at a key. -/
def SMap.find {α : Type} : SMap α → Nat → Option α
  | [], _ => none
  | (k', a) :: m, k => if k = k' then some a else if k < k' then none else SMap.find m k
/-- The entry at a key, or a default. -/
def SMap.get {α : Type} (m : SMap α) (k : Nat) (d : α) : α := (SMap.find m k).getD d
/-- Set the entry at a key. -/
def SMap.put {α : Type} : SMap α → Nat → α → SMap α
  | [], k, a => [(k, a)]
  | (k', a') :: m, k, a =>
    if k = k' then (k, a) :: m
    else if k < k' then (k, a) :: (k', a') :: m
    else (k', a') :: SMap.put m k a
/-- Remove the entry at a key. -/
def SMap.del {α : Type} : SMap α → Nat → SMap α
  | [], _ => []
  | (k', a') :: m, k =>
    if k = k' then m else if k < k' then (k', a') :: m else (k', a') :: SMap.del m k
/-- Set the entry at a key, keeping no entry that equals the default. -/
def SMap.set {α : Type} [DecidableEq α] (m : SMap α) (k : Nat) (a d : α) : SMap α :=
  if a = d then SMap.del m k else SMap.put m k a
/-- Remove every entry whose key satisfies `p`. -/
def SMap.drop {α : Type} (m : SMap α) (p : Nat → Bool) : SMap α := m.filter (fun e => !p e.1)
/-- Keys rise strictly from above `lo`. -/
def SMap.sortedFrom {α : Type} : Option Nat → SMap α → Bool
  | _, [] => true
  | none, (k, _) :: m => SMap.sortedFrom (some k) m
  | some lo, (k, _) :: m => decide (lo < k) && SMap.sortedFrom (some k) m

end Sys2Proof.Machine
end

