-- ==== Sys2Proof/Machine/Regs.lean ====
section
/-! DEFINITION. The register file of R423: every register of the offset tables, the fields of its map (access type of
R10, Apply class of R11, reset value), and the offsets. -/

namespace Sys2Proof.Machine

/-- The registers of the module, named as their maps name them; a numbered family is one constructor with an index. -/
inductive Reg where
  | GLB_IDENT | GLB_FEATURES | GLB_SERIAL_LO | GLB_SERIAL_HI | GLB_DISMAP | GLB_FUSEMAP | GLB_TIME_LO | GLB_TIME_HI 
  | GLB_STAT | GLB_PAR_ADDR | GLB_SQC_LAST | GLB_FROZEN_LAST | MBX_CTL | MBX_STAT | MBX_RESULT | MBX_RLEN | MBX_REQ_LO 
  | MBX_REQ_HI | MBX_REQ_LEN | MBX_RSP_LO | MBX_RSP_HI | MBX_RSP_LEN | MBX_ARG | MBX_STATE | MBX_CFG | CMD_FINFO 
  | CMD_STAT | CMD_SUM_LO | CMD_SUM_HI | CMD_QPSEL | CMD_QP_SQ_LO | CMD_QP_SQ_HI | CMD_QP_CQ_LO | CMD_QP_CQ_HI 
  | CMD_QP_DB_LO | CMD_QP_DB_HI | CMD_QP_CFG | CMD_QP_COAL | CMD_QP_STATE | CMD_POLL | CMD_FQ | CMD_FDA | PCI_LINK 
  | PCI_STAT | PCI_CFG | PCI_CNT | PCI_DBG | BOOT_STAT | BOOT_CFG | BOOT_CTL | BOOT_REP | RST_CTL | RST_STAT | RST_STATE 
  | RST_DL0 | RST_DL1 | RST_CNT | RST_LAST | PWR_CAP | PWR_SBCAP | PWR_CFG | PWR_STAT | PWR_AVG | PWR_PROF_SEL 
  | PWR_PROF_DATA | PWR_CLAMPS | SEC_LC | SEC_STAT | SEC_CONF | SEC_TAMPER | SEC_MR | SEC_PROG_LO | SEC_PROG_HI 
  | SEC_PROG_LEN | SEC_OWIN_LO | SEC_OWIN_HI | SEC_OWIN_LEN | SEC_LOGN | SEC_LCNONCE_LO | SEC_LCNONCE_HI | ENR_CTL 
  | ENR_CFG | ENR_STAT | ENR_RCTX | ENR_ACC_LO | ENR_ACC_HI | ENR_QUEUE_LO | ENR_QUEUE_HI | ENR_STORE_LO | ENR_STORE_HI 
  | ENR_STORE_CFG | ENR_QLEN | ENR_BATCH_LO | ENR_BATCH_HI | ENR_REL_LO | ENR_REL_HI | ENR_RESID | ENR_UNSEALED 
  | ENR_CFG2 | FWB_ADDR_LO | FWB_ADDR_HI | FWB_LEN | FWB_CTL | FWB_STAT | FWS_CFG | FWS_STAGE_LO | FWS_STAT | FWS_STATE 
  | FWS_IGEN | FWS_RUN | FWS_CLEVEL | FWS_UCFG | FWS_UPROG | FWS_STAGE_HI | FWS_CNT | KVM_CTL | KVM_STAT | KVM_CFG 
  | KVM_SEQ_LO | KVM_SEQ_HI | KVM_META_LO | KVM_META_HI | KVM_PLACE_LO | KVM_PLACE_HI | KVM_POOL_OFF | KVM_SWAP_LO 
  | KVM_SWAP_HI | KVM_SWAP_SLOTS | KVM_FREE | KVM_CTXS | KVM_PREEMPTS | KVM_UE_CTX | PFX_CFG | PFX_NODE_LO | PFX_NODE_HI 
  | PFX_HIT | PFX_MISS | PFX_EVICT | PFX_SKIP | KVM_POOL | LCK_CTL | LCK_CFG | LCK_TMO | LCK_STAT | LCK_LIST_LO 
  | LCK_LIST_HI | LCK_NUM | LCK_DIVCNT | LCK_DIV_NUM | LCK_DIV_LOC | LCK_DIV_PT | LCK_RGN_BASE_LO | LCK_RGN_BASE_HI 
  | LCK_RGN_LEN | LCK_RGN_STRIDE | FAB_CFG | FAB_CTL | FAB_STAT | FAB_STATE | FAB_FEC_CE | FAB_FEC_UE | VRX_CTL 
  | VRX_CFG | VRX_STAT | VRX_IP | VRX_PEER_LO | VRX_PEER_HI | VRX_CFG2 | VRX_RXPOOL_LO | VRX_RXPOOL_HI | VRX_RXPOOL 
  | VRX_CRED | VRX_RETX | VRX_DROP | VRX_AUTH_FAIL | VRX_TDC | VRX_WIN_LO | VRX_WIN_HI | EXH_BASE_LO | EXH_BASE_HI 
  | EXH_DRAINED | TSY_CFG | TSY_STAT | TSY_OFFSET | WPW_CFG | WPW_SEQ | WPW_STAT | WPW_SEQCNT | WPW_DMAX | THM_CFG 
  | THM_DIS | THM_STAT | THM_CTL | THM_SEL | THM_SDATA | THM_NSEL | THM_NDATA | COOL_CFG | COOL_CFG2 | COOL_STAT 
  | COOL_FLOW | COOL_TEMP | COOL_RTH | COOL_TCAP | LUL_CFG | LUL_STATE | LUL_WAKES | FLT_CFG | FLT_STAT | FLT_CTL 
  | FLT_LOST | FLT_TACK | FLT_TQ | FLT_ISEL | FLT_IDATA | FLT_IDATA2 | FLT_ACTIVE | FLT_RXN | EDY_CFG | EDY_STAT 
  | EDY_CTL | EDY_HEAD | EDY_FREEZE | EDY_MISSED | EDY_STATE | TSEQ_CTL | TSEQ_STAT | TSEQ_TRAP | TSEQ_TPC | TSEQ_TVEC 
  | TSEQ_PBASE_LO | TSEQ_PBASE_HI | TSEQ_DMA | VEC_STAT | SPM_OWN0 | SPM_OWN1 | SPM_SECURE | SPM_HOSTATE | SPM_CFG 
  | SPM_STAT | SPM_COLL | SPM_COLL_LAST | SPM_CE_CNT | SPM_UE_LAST | SPM_DMACOLL | MXA_CFG | MXA_STAT | MXA_STATE 
  | MXA_CTL | MXA_FED_LO | MXA_FED_HI | MXA_DROPPED | MXA_SKIPGRP | MXA_FRZ_DRY | MXA_FRZ_BACK | MXA_BUBBLE | TSK_CFG 
  | TSK_QLEN | TSK_TDC | TSK_ORPHAN | MESH_CFG | MESH_STAT | MESH_LAT_MAX | MESH_SLOT | VCH_CFG | VCH_STAT | VCH_REF 
  | VCH_SCRUB | VCH_BUCKET | VCH_CE_CNT | VCH_UE_LO | VCH_UE_HI | VCH_CAND | VCH_TRAIN_L | VCH_REMAP | BSC_CFG 
  | BSC_STAT | BSC_RING | BSC_RCONS | BSC_DONE0 | BSC_DONE1 | BSC_ERRCNT | BSC_PSRC | BSC_PMASK0 | BSC_PMASK1 | BSC_PCTL 
  | KVS_CFG | KVS_HIT | KVS_FILL | FXR_BASE_LO | FXR_BASE_HI | FXR_CFG | TPW_CFG | TPW_TRIP | TPW_STAT | TPW_VMIN 
  | TPW_VMIN_T_LO | TPW_VMIN_T_HI | TPW_I | TPW_PSTATE | TPW_SWALLOW | TPW_DROOP | TPW_GUST | DET_CFG | DET_GID 
  | DET_CYC_LO | DET_CYC_HI | DET_CAUSE | STG_CTL | STG_STAT | STG_STATE | STG_RSN | BSC_CTRL_LO | BSC_CTRL_HI 
  | BSC_CSTAT_LO | BSC_CSTAT_HI | BSC_CYCLES_LO | BSC_CYCLES_HI | BSC_STALLS_LO | BSC_STALLS_HI | BSC_PAUSES_REF 
  | BSC_PAUSES_LEASE | BSC_XCOLL | BSC_CTX | BSC_DATA_LO | BSC_DATA_HI 
  deriving DecidableEq, Repr

/-- Access types of R10. -/
inductive Acc where | ro | rw | w1 | sqc
  deriving DecidableEq, Repr

/-- Apply classes of R11. -/
inductive Apply where | none | live | staged | frozen
  deriving DecidableEq, Repr

/-- A register field: bits [hi:lo], access, Apply class, reset value. -/
structure Field where
  reg : Reg
  hi : Nat
  lo : Nat
  acc : Acc
  app : Apply
  rst : Nat
  deriving DecidableEq, Repr

/-! The fields, each named REGISTER_FIELD as in its map. -/

namespace F
def GLB_IDENT_STEPPING : Field := ⟨.GLB_IDENT, 7, 0, .ro, .none, 161⟩
def GLB_IDENT_GRADE : Field := ⟨.GLB_IDENT, 15, 8, .ro, .none, 0⟩
def GLB_IDENT_PART : Field := ⟨.GLB_IDENT, 31, 16, .ro, .none, 16640⟩
def GLB_FEATURES_PORTS : Field := ⟨.GLB_FEATURES, 1, 0, .ro, .none, 0⟩
def GLB_FEATURES_WIDEATT : Field := ⟨.GLB_FEATURES, 2, 2, .ro, .none, 0⟩
def GLB_FEATURES_BSC : Field := ⟨.GLB_FEATURES, 3, 3, .ro, .none, 0⟩
def GLB_FEATURES_CONF : Field := ⟨.GLB_FEATURES, 4, 4, .ro, .none, 0⟩
def GLB_SERIAL_LO_SERIAL : Field := ⟨.GLB_SERIAL_LO, 31, 0, .ro, .none, 0⟩
def GLB_SERIAL_HI_SERIAL : Field := ⟨.GLB_SERIAL_HI, 31, 0, .ro, .none, 0⟩
def GLB_DISMAP_MAP : Field := ⟨.GLB_DISMAP, 31, 0, .ro, .none, 0⟩
def GLB_FUSEMAP_MAP : Field := ⟨.GLB_FUSEMAP, 31, 0, .ro, .none, 0⟩
def GLB_TIME_LO_TIME : Field := ⟨.GLB_TIME_LO, 31, 0, .ro, .none, 0⟩
def GLB_TIME_HI_TIME : Field := ⟨.GLB_TIME_HI, 31, 0, .ro, .none, 0⟩
def GLB_STAT_SEQ : Field := ⟨.GLB_STAT, 31, 16, .sqc, .none, 0⟩
def GLB_STAT_CFG_PARITY : Field := ⟨.GLB_STAT, 0, 0, .sqc, .none, 0⟩
def GLB_STAT_SQC_STALE : Field := ⟨.GLB_STAT, 1, 1, .sqc, .none, 0⟩
def GLB_STAT_FROZEN_WR : Field := ⟨.GLB_STAT, 2, 2, .sqc, .none, 0⟩
def GLB_STAT_ACC_ERR : Field := ⟨.GLB_STAT, 3, 3, .sqc, .none, 0⟩
def GLB_PAR_ADDR_OFFSET : Field := ⟨.GLB_PAR_ADDR, 25, 0, .ro, .none, 0⟩
def GLB_PAR_ADDR_VALID : Field := ⟨.GLB_PAR_ADDR, 31, 31, .ro, .none, 0⟩
def GLB_SQC_LAST_OFFSET : Field := ⟨.GLB_SQC_LAST, 25, 0, .ro, .none, 0⟩
def GLB_FROZEN_LAST_OFFSET : Field := ⟨.GLB_FROZEN_LAST, 25, 0, .ro, .none, 0⟩
def MBX_CTL_CMD : Field := ⟨.MBX_CTL, 15, 0, .rw, .frozen, 0⟩
def MBX_CTL_GO : Field := ⟨.MBX_CTL, 31, 31, .w1, .live, 0⟩
def MBX_STAT_SEQ : Field := ⟨.MBX_STAT, 31, 16, .sqc, .none, 0⟩
def MBX_STAT_DONE : Field := ⟨.MBX_STAT, 0, 0, .sqc, .none, 0⟩
def MBX_STAT_BUSY_GO : Field := ⟨.MBX_STAT, 1, 1, .sqc, .none, 0⟩
def MBX_STAT_FROZEN_WR : Field := ⟨.MBX_STAT, 2, 2, .sqc, .none, 0⟩
def MBX_RESULT_STATUS : Field := ⟨.MBX_RESULT, 15, 0, .ro, .none, 0⟩
def MBX_RLEN_RLEN : Field := ⟨.MBX_RLEN, 31, 0, .ro, .none, 0⟩
def MBX_REQ_LO_ADDR : Field := ⟨.MBX_REQ_LO, 31, 0, .rw, .frozen, 0⟩
def MBX_REQ_HI_ADDR : Field := ⟨.MBX_REQ_HI, 31, 0, .rw, .frozen, 0⟩
def MBX_REQ_LEN_LEN : Field := ⟨.MBX_REQ_LEN, 23, 0, .rw, .frozen, 0⟩
def MBX_RSP_LO_ADDR : Field := ⟨.MBX_RSP_LO, 31, 0, .rw, .frozen, 0⟩
def MBX_RSP_HI_ADDR : Field := ⟨.MBX_RSP_HI, 31, 0, .rw, .frozen, 0⟩
def MBX_RSP_LEN_LEN : Field := ⟨.MBX_RSP_LEN, 23, 0, .rw, .frozen, 0⟩
def MBX_ARG_ARG : Field := ⟨.MBX_ARG, 31, 0, .rw, .frozen, 0⟩
def MBX_STATE_BUSY : Field := ⟨.MBX_STATE, 0, 0, .ro, .none, 0⟩
def MBX_CFG_VEC : Field := ⟨.MBX_CFG, 9, 0, .rw, .live, 0⟩
def MBX_CFG_IRQ : Field := ⟨.MBX_CFG, 16, 16, .rw, .live, 0⟩
def CMD_FINFO_QBASE : Field := ⟨.CMD_FINFO, 13, 0, .ro, .none, 0⟩
def CMD_FINFO_QCNT : Field := ⟨.CMD_FINFO, 28, 14, .ro, .none, 0⟩
def CMD_STAT_SEQ : Field := ⟨.CMD_STAT, 31, 16, .sqc, .none, 0⟩
def CMD_STAT_QP_ERR : Field := ⟨.CMD_STAT, 0, 0, .sqc, .none, 0⟩
def CMD_STAT_CFG_ERR : Field := ⟨.CMD_STAT, 1, 1, .sqc, .none, 0⟩
def CMD_STAT_FROZEN_WR : Field := ⟨.CMD_STAT, 2, 2, .sqc, .none, 0⟩
def CMD_STAT_HOST_ERR : Field := ⟨.CMD_STAT, 3, 3, .sqc, .none, 0⟩
def CMD_SUM_LO_ADDR : Field := ⟨.CMD_SUM_LO, 31, 6, .rw, .frozen, 0⟩
def CMD_SUM_HI_ADDR_HI : Field := ⟨.CMD_SUM_HI, 31, 0, .rw, .frozen, 0⟩
def CMD_QPSEL_QP : Field := ⟨.CMD_QPSEL, 13, 0, .rw, .live, 0⟩
def CMD_QP_SQ_LO_ADDR : Field := ⟨.CMD_QP_SQ_LO, 31, 12, .rw, .frozen, 0⟩
def CMD_QP_SQ_HI_ADDR_HI : Field := ⟨.CMD_QP_SQ_HI, 31, 0, .rw, .frozen, 0⟩
def CMD_QP_CQ_LO_ADDR : Field := ⟨.CMD_QP_CQ_LO, 31, 12, .rw, .frozen, 0⟩
def CMD_QP_CQ_HI_ADDR_HI : Field := ⟨.CMD_QP_CQ_HI, 31, 0, .rw, .frozen, 0⟩
def CMD_QP_DB_LO_ADDR : Field := ⟨.CMD_QP_DB_LO, 31, 4, .rw, .frozen, 0⟩
def CMD_QP_DB_HI_ADDR_HI : Field := ⟨.CMD_QP_DB_HI, 31, 0, .rw, .frozen, 0⟩
def CMD_QP_CFG_EN : Field := ⟨.CMD_QP_CFG, 0, 0, .rw, .live, 0⟩
def CMD_QP_CFG_SQ_LOG2 : Field := ⟨.CMD_QP_CFG, 5, 1, .rw, .frozen, 8⟩
def CMD_QP_CFG_CQ_LOG2 : Field := ⟨.CMD_QP_CFG, 10, 6, .rw, .frozen, 8⟩
def CMD_QP_CFG_PRIO : Field := ⟨.CMD_QP_CFG, 12, 11, .rw, .frozen, 2⟩
def CMD_QP_CFG_VEC : Field := ⟨.CMD_QP_CFG, 23, 13, .rw, .frozen, 0⟩
def CMD_QP_CFG_IRQ : Field := ⟨.CMD_QP_CFG, 25, 24, .rw, .frozen, 1⟩
def CMD_QP_COAL_COUNT : Field := ⟨.CMD_QP_COAL, 7, 0, .rw, .live, 16⟩
def CMD_QP_COAL_TIME : Field := ⟨.CMD_QP_COAL, 23, 8, .rw, .live, 20⟩
def CMD_QP_STATE_STATE : Field := ⟨.CMD_QP_STATE, 1, 0, .ro, .none, 0⟩
def CMD_QP_STATE_ERR : Field := ⟨.CMD_QP_STATE, 7, 4, .ro, .none, 0⟩
def CMD_QP_STATE_INFLIGHT : Field := ⟨.CMD_QP_STATE, 28, 16, .ro, .none, 0⟩
def CMD_POLL_ACT_NS : Field := ⟨.CMD_POLL, 11, 0, .rw, .live, 500⟩
def CMD_POLL_IDLE_US : Field := ⟨.CMD_POLL, 19, 12, .rw, .live, 20⟩
def CMD_POLL_IDLE_AFTER : Field := ⟨.CMD_POLL, 31, 20, .rw, .live, 100⟩
def CMD_FQ_QBASE : Field := ⟨.CMD_FQ, 13, 0, .rw, .frozen, 0⟩
def CMD_FQ_QCNT : Field := ⟨.CMD_FQ, 28, 14, .rw, .frozen, 0⟩
def CMD_FDA_SL_FIRST : Field := ⟨.CMD_FDA, 6, 0, .rw, .frozen, 0⟩
def CMD_FDA_SL_CNT : Field := ⟨.CMD_FDA, 15, 8, .rw, .frozen, 0⟩
def CMD_FDA_PRIV : Field := ⟨.CMD_FDA, 16, 16, .rw, .frozen, 0⟩
def PCI_LINK_SPEED : Field := ⟨.PCI_LINK, 2, 0, .ro, .none, 0⟩
def PCI_LINK_WIDTH : Field := ⟨.PCI_LINK, 7, 3, .ro, .none, 0⟩
def PCI_LINK_FLIT : Field := ⟨.PCI_LINK, 8, 8, .ro, .none, 0⟩
def PCI_LINK_IDE_SECURE : Field := ⟨.PCI_LINK, 9, 9, .ro, .none, 0⟩
def PCI_STAT_SEQ : Field := ⟨.PCI_STAT, 31, 16, .sqc, .none, 0⟩
def PCI_STAT_DEGRADED : Field := ⟨.PCI_STAT, 0, 0, .sqc, .none, 0⟩
def PCI_STAT_DOWN : Field := ⟨.PCI_STAT, 1, 1, .sqc, .none, 0⟩
def PCI_STAT_IDE_WAIT : Field := ⟨.PCI_STAT, 2, 2, .sqc, .none, 0⟩
def PCI_STAT_IDE_FAIL : Field := ⟨.PCI_STAT, 3, 3, .sqc, .none, 0⟩
def PCI_STAT_DBG_UE : Field := ⟨.PCI_STAT, 4, 4, .sqc, .none, 0⟩
def PCI_CFG_EXP_SPEED : Field := ⟨.PCI_CFG, 2, 0, .rw, .live, 6⟩
def PCI_CFG_EXP_WIDTH : Field := ⟨.PCI_CFG, 7, 3, .rw, .live, 16⟩
def PCI_CFG_PERST_KEEP : Field := ⟨.PCI_CFG, 8, 8, .rw, .live, 0⟩
def PCI_CFG_IDE_REQ : Field := ⟨.PCI_CFG, 9, 9, .rw, .live, 0⟩
def PCI_CNT_DOWN : Field := ⟨.PCI_CNT, 15, 0, .ro, .none, 0⟩
def PCI_CNT_RETRAIN : Field := ⟨.PCI_CNT, 31, 16, .ro, .none, 0⟩
def PCI_DBG_WIN : Field := ⟨.PCI_DBG, 5, 0, .rw, .live, 0⟩
def BOOT_STAT_STAGE : Field := ⟨.BOOT_STAT, 3, 0, .ro, .none, 0⟩
def BOOT_STAT_READY : Field := ⟨.BOOT_STAT, 4, 4, .ro, .none, 0⟩
def BOOT_STAT_FAST : Field := ⟨.BOOT_STAT, 5, 5, .ro, .none, 0⟩
def BOOT_STAT_FAIL : Field := ⟨.BOOT_STAT, 6, 6, .ro, .none, 0⟩
def BOOT_STAT_DEGRADED : Field := ⟨.BOOT_STAT, 7, 7, .ro, .none, 0⟩
def BOOT_STAT_BAND : Field := ⟨.BOOT_STAT, 9, 8, .ro, .none, 0⟩
def BOOT_CFG_MIN_PORTS : Field := ⟨.BOOT_CFG, 3, 0, .rw, .live, 6⟩
def BOOT_CFG_MIN_TILES : Field := ⟨.BOOT_CFG, 15, 8, .rw, .live, 0⟩
def BOOT_CFG_FULL_TEST : Field := ⟨.BOOT_CFG, 16, 16, .rw, .live, 0⟩
def BOOT_CFG_SAVE_EN : Field := ⟨.BOOT_CFG, 17, 17, .rw, .live, 1⟩
def BOOT_CTL_CLR_SAVED : Field := ⟨.BOOT_CTL, 0, 0, .w1, .live, 0⟩
def BOOT_REP_REP : Field := ⟨.BOOT_REP, 31, 0, .ro, .none, 0⟩
def RST_CTL_SCOPE : Field := ⟨.RST_CTL, 2, 0, .rw, .live, 0⟩
def RST_CTL_TARGET : Field := ⟨.RST_CTL, 14, 8, .rw, .live, 0⟩
def RST_CTL_MODE : Field := ⟨.RST_CTL, 16, 16, .rw, .live, 0⟩
def RST_CTL_GO : Field := ⟨.RST_CTL, 31, 31, .w1, .live, 0⟩
def RST_STAT_SEQ : Field := ⟨.RST_STAT, 31, 16, .sqc, .none, 0⟩
def RST_STAT_DONE : Field := ⟨.RST_STAT, 0, 0, .sqc, .none, 0⟩
def RST_STAT_FALLBACK : Field := ⟨.RST_STAT, 1, 1, .sqc, .none, 0⟩
def RST_STAT_BUSY : Field := ⟨.RST_STAT, 2, 2, .sqc, .none, 0⟩
def RST_STAT_REFUSED : Field := ⟨.RST_STAT, 3, 3, .sqc, .none, 0⟩
def RST_STAT_FORCED : Field := ⟨.RST_STAT, 4, 4, .sqc, .none, 0⟩
def RST_STAT_ABSORBED : Field := ⟨.RST_STAT, 5, 5, .sqc, .none, 0⟩
def RST_STATE_PHASE : Field := ⟨.RST_STATE, 2, 0, .ro, .none, 0⟩
def RST_STATE_SCOPE : Field := ⟨.RST_STATE, 6, 4, .ro, .none, 0⟩
def RST_STATE_TARGET : Field := ⟨.RST_STATE, 14, 8, .ro, .none, 0⟩
def RST_STATE_QLEN : Field := ⟨.RST_STATE, 18, 16, .ro, .none, 0⟩
def RST_DL0_TILE_US : Field := ⟨.RST_DL0, 15, 0, .rw, .live, 100⟩
def RST_DL0_ROW_US : Field := ⟨.RST_DL0, 31, 16, .rw, .live, 200⟩
def RST_DL1_TOWER_US : Field := ⟨.RST_DL1, 11, 0, .rw, .live, 2000⟩
def RST_DL1_PATH_US : Field := ⟨.RST_DL1, 23, 12, .rw, .live, 1000⟩
def RST_DL1_WORK_MS : Field := ⟨.RST_DL1, 31, 24, .rw, .live, 100⟩
def RST_CNT_PARTIAL : Field := ⟨.RST_CNT, 15, 0, .ro, .none, 0⟩
def RST_CNT_PATH : Field := ⟨.RST_CNT, 31, 16, .ro, .none, 0⟩
def RST_LAST_TIME : Field := ⟨.RST_LAST, 31, 0, .ro, .none, 0⟩
def PWR_CAP_CAP_W : Field := ⟨.PWR_CAP, 10, 0, .rw, .live, 1200⟩
def PWR_CAP_PEAK_W : Field := ⟨.PWR_CAP, 26, 16, .rw, .live, 1450⟩
def PWR_SBCAP_SB_CAP : Field := ⟨.PWR_SBCAP, 10, 0, .ro, .none, 1200⟩
def PWR_CFG_MARGIN_W : Field := ⟨.PWR_CFG, 5, 0, .rw, .live, 20⟩
def PWR_CFG_LEARN_EN : Field := ⟨.PWR_CFG, 8, 8, .rw, .live, 1⟩
def PWR_STAT_SEQ : Field := ⟨.PWR_STAT, 31, 16, .sqc, .none, 0⟩
def PWR_STAT_CAP_HIT : Field := ⟨.PWR_STAT, 0, 0, .sqc, .none, 0⟩
def PWR_STAT_PEAK_CLAMP : Field := ⟨.PWR_STAT, 1, 1, .sqc, .none, 0⟩
def PWR_STAT_HINT_SHORT : Field := ⟨.PWR_STAT, 2, 2, .sqc, .none, 0⟩
def PWR_STAT_HINT_LATE : Field := ⟨.PWR_STAT, 3, 3, .sqc, .none, 0⟩
def PWR_AVG_AVG_W : Field := ⟨.PWR_AVG, 10, 0, .ro, .none, 0⟩
def PWR_AVG_EFF_W : Field := ⟨.PWR_AVG, 26, 16, .ro, .none, 1200⟩
def PWR_AVG_SRC : Field := ⟨.PWR_AVG, 29, 28, .ro, .none, 0⟩
def PWR_PROF_SEL_PROFILE : Field := ⟨.PWR_PROF_SEL, 7, 0, .rw, .live, 0⟩
def PWR_PROF_DATA_IPK : Field := ⟨.PWR_PROF_DATA, 7, 0, .rw, .live, 0⟩
def PWR_PROF_DATA_DUR : Field := ⟨.PWR_PROF_DATA, 23, 8, .rw, .live, 0⟩
def PWR_PROF_DATA_USES : Field := ⟨.PWR_PROF_DATA, 30, 24, .ro, .none, 0⟩
def PWR_PROF_DATA_VALID : Field := ⟨.PWR_PROF_DATA, 31, 31, .rw, .live, 0⟩
def PWR_CLAMPS_CLAMPS : Field := ⟨.PWR_CLAMPS, 31, 0, .ro, .none, 0⟩
def SEC_LC_STATE : Field := ⟨.SEC_LC, 1, 0, .ro, .none, 0⟩
def SEC_LC_KEY_EPOCH : Field := ⟨.SEC_LC, 13, 8, .ro, .none, 0⟩
def SEC_LC_TAMPERS : Field := ⟨.SEC_LC, 19, 16, .ro, .none, 0⟩
def SEC_LC_SVN : Field := ⟨.SEC_LC, 29, 24, .ro, .none, 0⟩
def SEC_STAT_SEQ : Field := ⟨.SEC_STAT, 31, 16, .sqc, .none, 0⟩
def SEC_STAT_TAMPER : Field := ⟨.SEC_STAT, 0, 0, .sqc, .none, 0⟩
def SEC_STAT_FW_REJ : Field := ⟨.SEC_STAT, 1, 1, .sqc, .none, 0⟩
def SEC_STAT_SESS_FAIL : Field := ⟨.SEC_STAT, 2, 2, .sqc, .none, 0⟩
def SEC_STAT_PEER_REJ : Field := ⟨.SEC_STAT, 3, 3, .sqc, .none, 0⟩
def SEC_STAT_CONF_DENY : Field := ⟨.SEC_STAT, 4, 4, .sqc, .none, 0⟩
def SEC_STAT_ID_BAD : Field := ⟨.SEC_STAT, 5, 5, .sqc, .none, 0⟩
def SEC_STAT_FROZEN_WR : Field := ⟨.SEC_STAT, 6, 6, .sqc, .none, 0⟩
def SEC_CONF_ACTIVE : Field := ⟨.SEC_CONF, 0, 0, .ro, .none, 0⟩
def SEC_CONF_NEXT : Field := ⟨.SEC_CONF, 1, 1, .ro, .none, 0⟩
def SEC_CONF_IDE_REQ : Field := ⟨.SEC_CONF, 2, 2, .ro, .none, 0⟩
def SEC_CONF_SESSIONS : Field := ⟨.SEC_CONF, 27, 16, .ro, .none, 0⟩
def SEC_TAMPER_SRC : Field := ⟨.SEC_TAMPER, 3, 0, .ro, .none, 0⟩
def SEC_MR_MR : Field := ⟨.SEC_MR, 31, 0, .ro, .none, 0⟩
def SEC_PROG_LO_BASE : Field := ⟨.SEC_PROG_LO, 31, 20, .rw, .frozen, 0⟩
def SEC_PROG_HI_BASE_HI : Field := ⟨.SEC_PROG_HI, 6, 0, .rw, .frozen, 0⟩
def SEC_PROG_LEN_LEN : Field := ⟨.SEC_PROG_LEN, 15, 0, .rw, .frozen, 0⟩
def SEC_OWIN_LO_BASE : Field := ⟨.SEC_OWIN_LO, 31, 20, .rw, .frozen, 0⟩
def SEC_OWIN_HI_BASE_HI : Field := ⟨.SEC_OWIN_HI, 6, 0, .rw, .frozen, 0⟩
def SEC_OWIN_LEN_LEN : Field := ⟨.SEC_OWIN_LEN, 15, 0, .rw, .frozen, 0⟩
def SEC_LOGN_LOGN : Field := ⟨.SEC_LOGN, 10, 0, .ro, .none, 0⟩
def SEC_LCNONCE_LO_NONCE : Field := ⟨.SEC_LCNONCE_LO, 31, 0, .ro, .none, 0⟩
def SEC_LCNONCE_HI_NONCE : Field := ⟨.SEC_LCNONCE_HI, 31, 0, .ro, .none, 0⟩
def ENR_CTL_RUN : Field := ⟨.ENR_CTL, 0, 0, .rw, .live, 0⟩
def ENR_CFG_PERIOD_US : Field := ⟨.ENR_CFG, 9, 0, .rw, .frozen, 100⟩
def ENR_CFG_WAIT_US : Field := ⟨.ENR_CFG, 19, 10, .rw, .live, 200⟩
def ENR_CFG_RFLUSH_MS : Field := ⟨.ENR_CFG, 23, 20, .rw, .live, 1⟩
def ENR_CFG_BATCH_MS : Field := ⟨.ENR_CFG, 29, 24, .rw, .frozen, 10⟩
def ENR_STAT_SEQ : Field := ⟨.ENR_STAT, 31, 16, .sqc, .none, 0⟩
def ENR_STAT_RECON : Field := ⟨.ENR_STAT, 0, 0, .sqc, .none, 0⟩
def ENR_STAT_METER : Field := ⟨.ENR_STAT, 1, 1, .sqc, .none, 0⟩
def ENR_STAT_PENDING : Field := ⟨.ENR_STAT, 2, 2, .sqc, .none, 0⟩
def ENR_STAT_QFULL : Field := ⟨.ENR_STAT, 3, 3, .sqc, .none, 0⟩
def ENR_STAT_SEAL_SHORT : Field := ⟨.ENR_STAT, 4, 4, .sqc, .none, 0⟩
def ENR_STAT_CFG_ERR : Field := ⟨.ENR_STAT, 5, 5, .sqc, .none, 0⟩
def ENR_STAT_FROZEN_WR : Field := ⟨.ENR_STAT, 6, 6, .sqc, .none, 0⟩
def ENR_RCTX_CTX : Field := ⟨.ENR_RCTX, 19, 0, .rw, .frozen, 0⟩
def ENR_RCTX_EN : Field := ⟨.ENR_RCTX, 31, 31, .rw, .frozen, 0⟩
def ENR_ACC_LO_BASE : Field := ⟨.ENR_ACC_LO, 31, 26, .rw, .frozen, 0⟩
def ENR_ACC_HI_BASE_HI : Field := ⟨.ENR_ACC_HI, 6, 0, .rw, .frozen, 0⟩
def ENR_QUEUE_LO_BASE : Field := ⟨.ENR_QUEUE_LO, 31, 27, .rw, .frozen, 0⟩
def ENR_QUEUE_HI_BASE_HI : Field := ⟨.ENR_QUEUE_HI, 6, 0, .rw, .frozen, 0⟩
def ENR_STORE_LO_BASE : Field := ⟨.ENR_STORE_LO, 31, 24, .rw, .frozen, 0⟩
def ENR_STORE_HI_BASE_HI : Field := ⟨.ENR_STORE_HI, 6, 0, .rw, .frozen, 0⟩
def ENR_STORE_CFG_LOG2 : Field := ⟨.ENR_STORE_CFG, 4, 0, .rw, .frozen, 20⟩
def ENR_QLEN_QLEN : Field := ⟨.ENR_QLEN, 20, 0, .ro, .none, 0⟩
def ENR_BATCH_LO_BATCH : Field := ⟨.ENR_BATCH_LO, 31, 0, .ro, .none, 0⟩
def ENR_BATCH_HI_BATCH : Field := ⟨.ENR_BATCH_HI, 15, 0, .ro, .none, 0⟩
def ENR_REL_LO_REL : Field := ⟨.ENR_REL_LO, 31, 0, .rw, .live, 0⟩
def ENR_REL_HI_REL : Field := ⟨.ENR_REL_HI, 15, 0, .rw, .live, 0⟩
def ENR_RESID_RESID : Field := ⟨.ENR_RESID, 31, 0, .ro, .none, 0⟩
def ENR_UNSEALED_COUNT : Field := ⟨.ENR_UNSEALED, 20, 0, .ro, .none, 0⟩
def ENR_CFG2_RLIM_PPM : Field := ⟨.ENR_CFG2, 15, 0, .rw, .live, 5000⟩
def FWB_ADDR_LO_ADDR : Field := ⟨.FWB_ADDR_LO, 31, 12, .rw, .live, 0⟩
def FWB_ADDR_HI_ADDR_HI : Field := ⟨.FWB_ADDR_HI, 31, 0, .rw, .live, 0⟩
def FWB_LEN_LEN : Field := ⟨.FWB_LEN, 26, 0, .rw, .live, 0⟩
def FWB_CTL_GO : Field := ⟨.FWB_CTL, 0, 0, .w1, .live, 0⟩
def FWB_STAT_STATE : Field := ⟨.FWB_STAT, 2, 0, .ro, .none, 0⟩
def FWB_STAT_CAUSE : Field := ⟨.FWB_STAT, 15, 8, .ro, .none, 0⟩
def FWS_CFG_FANOUT : Field := ⟨.FWS_CFG, 2, 0, .rw, .live, 4⟩
def FWS_CFG_GAP_MS : Field := ⟨.FWS_CFG, 15, 8, .rw, .live, 20⟩
def FWS_CFG_RATE : Field := ⟨.FWS_CFG, 27, 16, .rw, .live, 100⟩
def FWS_CFG_BCAST_EN : Field := ⟨.FWS_CFG, 31, 31, .rw, .live, 0⟩
def FWS_STAGE_LO_BASE : Field := ⟨.FWS_STAGE_LO, 31, 27, .rw, .frozen, 0⟩
def FWS_STAT_SEQ : Field := ⟨.FWS_STAT, 31, 16, .sqc, .none, 0⟩
def FWS_STAT_DONE : Field := ⟨.FWS_STAT, 0, 0, .sqc, .none, 0⟩
def FWS_STAT_REJ : Field := ⟨.FWS_STAT, 1, 1, .sqc, .none, 0⟩
def FWS_STAT_MIXED : Field := ⟨.FWS_STAT, 2, 2, .sqc, .none, 0⟩
def FWS_STAT_REPAIR : Field := ⟨.FWS_STAT, 3, 3, .sqc, .none, 0⟩
def FWS_STAT_INCOMPLETE : Field := ⟨.FWS_STAT, 4, 4, .sqc, .none, 0⟩
def FWS_STAT_BAD_CHUNK : Field := ⟨.FWS_STAT, 5, 5, .sqc, .none, 0⟩
def FWS_STAT_SUPERSEDED : Field := ⟨.FWS_STAT, 6, 6, .sqc, .none, 0⟩
def FWS_STAT_FROZEN_WR : Field := ⟨.FWS_STAT, 7, 7, .sqc, .none, 0⟩
def FWS_STATE_STATE : Field := ⟨.FWS_STATE, 2, 0, .ro, .none, 0⟩
def FWS_STATE_KIND : Field := ⟨.FWS_STATE, 6, 4, .ro, .none, 0⟩
def FWS_STATE_BCAST : Field := ⟨.FWS_STATE, 7, 7, .ro, .none, 0⟩
def FWS_STATE_CAUSE : Field := ⟨.FWS_STATE, 15, 8, .ro, .none, 0⟩
def FWS_STATE_HAVE : Field := ⟨.FWS_STATE, 26, 16, .ro, .none, 0⟩
def FWS_IGEN_IGEN : Field := ⟨.FWS_IGEN, 31, 0, .ro, .none, 0⟩
def FWS_RUN_IGEN : Field := ⟨.FWS_RUN, 31, 0, .ro, .none, 0⟩
def FWS_CLEVEL_CLEVEL : Field := ⟨.FWS_CLEVEL, 15, 0, .ro, .none, 0⟩
def FWS_CLEVEL_CMIN : Field := ⟨.FWS_CLEVEL, 31, 16, .ro, .none, 0⟩
def FWS_UCFG_PAR : Field := ⟨.FWS_UCFG, 3, 0, .rw, .live, 8⟩
def FWS_UPROG_DONE : Field := ⟨.FWS_UPROG, 7, 0, .ro, .none, 0⟩
def FWS_STAGE_HI_BASE_HI : Field := ⟨.FWS_STAGE_HI, 6, 0, .rw, .frozen, 0⟩
def FWS_CNT_BAD : Field := ⟨.FWS_CNT, 15, 0, .ro, .none, 0⟩
def FWS_CNT_REPAIRED : Field := ⟨.FWS_CNT, 31, 16, .ro, .none, 0⟩
def KVM_CTL_RUN : Field := ⟨.KVM_CTL, 0, 0, .rw, .live, 0⟩
def KVM_CTL_READY : Field := ⟨.KVM_CTL, 1, 1, .ro, .none, 0⟩
def KVM_STAT_SEQ : Field := ⟨.KVM_STAT, 31, 16, .sqc, .none, 0⟩
def KVM_STAT_CFG_ERR : Field := ⟨.KVM_STAT, 0, 0, .sqc, .none, 0⟩
def KVM_STAT_FROZEN_WR : Field := ⟨.KVM_STAT, 1, 1, .sqc, .none, 0⟩
def KVM_STAT_NO_KV : Field := ⟨.KVM_STAT, 2, 2, .sqc, .none, 0⟩
def KVM_STAT_PREEMPT : Field := ⟨.KVM_STAT, 3, 3, .sqc, .none, 0⟩
def KVM_STAT_SWAP_AUTH : Field := ⟨.KVM_STAT, 4, 4, .sqc, .none, 0⟩
def KVM_STAT_UE : Field := ⟨.KVM_STAT, 5, 5, .sqc, .none, 0⟩
def KVM_CFG_PREEMPT_EN : Field := ⟨.KVM_CFG, 0, 0, .rw, .live, 1⟩
def KVM_CFG_ZERO_ALL : Field := ⟨.KVM_CFG, 1, 1, .rw, .live, 0⟩
def KVM_SEQ_LO_BASE : Field := ⟨.KVM_SEQ_LO, 31, 20, .rw, .frozen, 0⟩
def KVM_SEQ_HI_BASE_HI : Field := ⟨.KVM_SEQ_HI, 6, 0, .rw, .frozen, 0⟩
def KVM_SEQ_HI_CTX_LOG2 : Field := ⟨.KVM_SEQ_HI, 12, 8, .rw, .frozen, 20⟩
def KVM_META_LO_BASE : Field := ⟨.KVM_META_LO, 31, 20, .rw, .frozen, 0⟩
def KVM_META_HI_BASE_HI : Field := ⟨.KVM_META_HI, 6, 0, .rw, .frozen, 0⟩
def KVM_PLACE_LO_BASE : Field := ⟨.KVM_PLACE_LO, 31, 12, .rw, .frozen, 0⟩
def KVM_PLACE_HI_BASE_HI : Field := ⟨.KVM_PLACE_HI, 6, 0, .rw, .frozen, 0⟩
def KVM_POOL_OFF_OFF : Field := ⟨.KVM_POOL_OFF, 16, 0, .rw, .frozen, 0⟩
def KVM_SWAP_LO_ADDR : Field := ⟨.KVM_SWAP_LO, 31, 12, .rw, .frozen, 0⟩
def KVM_SWAP_HI_ADDR_HI : Field := ⟨.KVM_SWAP_HI, 31, 0, .rw, .frozen, 0⟩
def KVM_SWAP_SLOTS_SLOTS : Field := ⟨.KVM_SWAP_SLOTS, 24, 0, .rw, .frozen, 0⟩
def KVM_FREE_FREE : Field := ⟨.KVM_FREE, 24, 0, .ro, .none, 0⟩
def KVM_CTXS_OPEN : Field := ⟨.KVM_CTXS, 20, 0, .ro, .none, 0⟩
def KVM_PREEMPTS_PREEMPTS : Field := ⟨.KVM_PREEMPTS, 31, 0, .ro, .none, 0⟩
def KVM_UE_CTX_CTX : Field := ⟨.KVM_UE_CTX, 19, 0, .ro, .none, 0⟩
def KVM_UE_CTX_VALID : Field := ⟨.KVM_UE_CTX, 31, 31, .ro, .none, 0⟩
def PFX_CFG_EN : Field := ⟨.PFX_CFG, 0, 0, .rw, .frozen, 0⟩
def PFX_CFG_NODE_LOG2 : Field := ⟨.PFX_CFG, 5, 1, .rw, .frozen, 22⟩
def PFX_NODE_LO_BASE : Field := ⟨.PFX_NODE_LO, 31, 16, .rw, .frozen, 0⟩
def PFX_NODE_HI_BASE_HI : Field := ⟨.PFX_NODE_HI, 6, 0, .rw, .frozen, 0⟩
def PFX_HIT_HIT : Field := ⟨.PFX_HIT, 31, 0, .ro, .none, 0⟩
def PFX_MISS_MISS : Field := ⟨.PFX_MISS, 31, 0, .ro, .none, 0⟩
def PFX_EVICT_EVICT : Field := ⟨.PFX_EVICT, 31, 0, .ro, .none, 0⟩
def PFX_SKIP_SKIP : Field := ⟨.PFX_SKIP, 31, 0, .ro, .none, 0⟩
def KVM_POOL_PAGES : Field := ⟨.KVM_POOL, 17, 0, .rw, .frozen, 0⟩
def LCK_CTL_EN : Field := ⟨.LCK_CTL, 0, 0, .rw, .live, 0⟩
def LCK_CFG_PEER : Field := ⟨.LCK_CFG, 13, 0, .rw, .frozen, 0⟩
def LCK_CFG_QP : Field := ⟨.LCK_CFG, 27, 14, .rw, .frozen, 0⟩
def LCK_TMO_MS : Field := ⟨.LCK_TMO, 15, 0, .rw, .live, 100⟩
def LCK_STAT_SEQ : Field := ⟨.LCK_STAT, 31, 16, .sqc, .none, 0⟩
def LCK_STAT_DIVERGE : Field := ⟨.LCK_STAT, 0, 0, .sqc, .none, 0⟩
def LCK_STAT_FROZEN_WR : Field := ⟨.LCK_STAT, 1, 1, .sqc, .none, 0⟩
def LCK_LIST_LO_BASE : Field := ⟨.LCK_LIST_LO, 31, 12, .rw, .frozen, 0⟩
def LCK_LIST_HI_BASE_HI : Field := ⟨.LCK_LIST_HI, 6, 0, .rw, .frozen, 0⟩
def LCK_NUM_NUM : Field := ⟨.LCK_NUM, 31, 0, .ro, .none, 0⟩
def LCK_DIVCNT_COUNT : Field := ⟨.LCK_DIVCNT, 31, 0, .ro, .none, 0⟩
def LCK_DIV_NUM_NUM : Field := ⟨.LCK_DIV_NUM, 31, 0, .ro, .none, 0⟩
def LCK_DIV_LOC_TASK : Field := ⟨.LCK_DIV_LOC, 23, 0, .ro, .none, 0⟩
def LCK_DIV_LOC_TILE : Field := ⟨.LCK_DIV_LOC, 30, 24, .ro, .none, 0⟩
def LCK_DIV_LOC_VALID : Field := ⟨.LCK_DIV_LOC, 31, 31, .ro, .none, 0⟩
def LCK_DIV_PT_PTILE : Field := ⟨.LCK_DIV_PT, 6, 0, .ro, .none, 0⟩
def LCK_DIV_PT_CAUSE : Field := ⟨.LCK_DIV_PT, 11, 8, .ro, .none, 0⟩
def LCK_DIV_PT_CLR : Field := ⟨.LCK_DIV_PT, 31, 31, .w1, .live, 0⟩
def LCK_RGN_BASE_LO_BASE : Field := ⟨.LCK_RGN_BASE_LO, 31, 0, .rw, .staged, 0⟩
def LCK_RGN_BASE_HI_BASE : Field := ⟨.LCK_RGN_BASE_HI, 6, 0, .rw, .staged, 0⟩
def LCK_RGN_LEN_LEN : Field := ⟨.LCK_RGN_LEN, 23, 0, .rw, .staged, 0⟩
def LCK_RGN_STRIDE_STRIDE : Field := ⟨.LCK_RGN_STRIDE, 31, 0, .rw, .staged, 0⟩
def FAB_CFG_EN : Field := ⟨.FAB_CFG, 0, 0, .rw, .live, 0⟩
def FAB_CFG_MEDIA : Field := ⟨.FAB_CFG, 1, 1, .rw, .frozen, 0⟩
def FAB_CFG_MAXW : Field := ⟨.FAB_CFG, 3, 2, .rw, .frozen, 0⟩
def FAB_CFG_RETRY : Field := ⟨.FAB_CFG, 7, 4, .rw, .live, 3⟩
def FAB_CFG_TTMO : Field := ⟨.FAB_CFG, 15, 8, .rw, .live, 125⟩
def FAB_CFG_FEC_LIM : Field := ⟨.FAB_CFG, 23, 16, .rw, .live, 16⟩
def FAB_CFG_KEY_LIFE : Field := ⟨.FAB_CFG, 31, 24, .rw, .live, 24⟩
def FAB_CTL_RETRAIN : Field := ⟨.FAB_CTL, 0, 0, .w1, .live, 0⟩
def FAB_CTL_UNFENCE : Field := ⟨.FAB_CTL, 1, 1, .w1, .live, 0⟩
def FAB_STAT_SEQ : Field := ⟨.FAB_STAT, 31, 16, .sqc, .none, 0⟩
def FAB_STAT_UP : Field := ⟨.FAB_STAT, 0, 0, .sqc, .none, 0⟩
def FAB_STAT_DEGRADED : Field := ⟨.FAB_STAT, 1, 1, .sqc, .none, 0⟩
def FAB_STAT_DOWN : Field := ⟨.FAB_STAT, 2, 2, .sqc, .none, 0⟩
def FAB_STAT_FENCED : Field := ⟨.FAB_STAT, 3, 3, .sqc, .none, 0⟩
def FAB_STAT_REKEYED : Field := ⟨.FAB_STAT, 4, 4, .sqc, .none, 0⟩
def FAB_STATE_STATE : Field := ⟨.FAB_STATE, 2, 0, .ro, .none, 0⟩
def FAB_STATE_WIDTH : Field := ⟨.FAB_STATE, 4, 3, .ro, .none, 0⟩
def FAB_STATE_LANES : Field := ⟨.FAB_STATE, 8, 5, .ro, .none, 0⟩
def FAB_STATE_KEYED : Field := ⟨.FAB_STATE, 9, 9, .ro, .none, 0⟩
def FAB_STATE_KEY : Field := ⟨.FAB_STATE, 10, 10, .ro, .none, 0⟩
def FAB_FEC_CE_CE : Field := ⟨.FAB_FEC_CE, 31, 0, .ro, .none, 0⟩
def FAB_FEC_UE_UE : Field := ⟨.FAB_FEC_UE, 31, 0, .ro, .none, 0⟩
def VRX_CTL_RUN : Field := ⟨.VRX_CTL, 0, 0, .rw, .live, 0⟩
def VRX_CFG_SELF : Field := ⟨.VRX_CFG, 13, 0, .rw, .frozen, 0⟩
def VRX_CFG_MAXPAY : Field := ⟨.VRX_CFG, 15, 14, .rw, .frozen, 3⟩
def VRX_CFG_UDP_PORT : Field := ⟨.VRX_CFG, 31, 16, .rw, .frozen, 47012⟩
def VRX_STAT_SEQ : Field := ⟨.VRX_STAT, 31, 16, .sqc, .none, 0⟩
def VRX_STAT_PEER_FAIL : Field := ⟨.VRX_STAT, 0, 0, .sqc, .none, 0⟩
def VRX_STAT_NOCRED : Field := ⟨.VRX_STAT, 1, 1, .sqc, .none, 0⟩
def VRX_STAT_ACCESS : Field := ⟨.VRX_STAT, 2, 2, .sqc, .none, 0⟩
def VRX_STAT_DRAINED : Field := ⟨.VRX_STAT, 3, 3, .sqc, .none, 0⟩
def VRX_STAT_CFG_ERR : Field := ⟨.VRX_STAT, 4, 4, .sqc, .none, 0⟩
def VRX_STAT_FROZEN_WR : Field := ⟨.VRX_STAT, 5, 5, .sqc, .none, 0⟩
def VRX_IP_PREFIX : Field := ⟨.VRX_IP, 31, 0, .rw, .frozen, 0⟩
def VRX_PEER_LO_BASE : Field := ⟨.VRX_PEER_LO, 31, 20, .rw, .frozen, 0⟩
def VRX_PEER_HI_BASE_HI : Field := ⟨.VRX_PEER_HI, 6, 0, .rw, .frozen, 0⟩
def VRX_CFG2_RTO : Field := ⟨.VRX_CFG2, 7, 0, .rw, .live, 25⟩
def VRX_CFG2_RETRY : Field := ⟨.VRX_CFG2, 11, 8, .rw, .live, 8⟩
def VRX_CFG2_DUPTHR : Field := ⟨.VRX_CFG2, 15, 12, .rw, .live, 8⟩
def VRX_CFG2_ENTROPY : Field := ⟨.VRX_CFG2, 19, 16, .rw, .live, 4⟩
def VRX_RXPOOL_LO_BASE : Field := ⟨.VRX_RXPOOL_LO, 31, 20, .rw, .frozen, 0⟩
def VRX_RXPOOL_HI_BASE_HI : Field := ⟨.VRX_RXPOOL_HI, 6, 0, .rw, .frozen, 0⟩
def VRX_RXPOOL_SLOTS : Field := ⟨.VRX_RXPOOL, 19, 0, .rw, .frozen, 0⟩
def VRX_RXPOOL_SLOT_LOG2 : Field := ⟨.VRX_RXPOOL, 21, 20, .rw, .frozen, 2⟩
def VRX_CRED_FREE : Field := ⟨.VRX_CRED, 3, 0, .rw, .frozen, 1⟩
def VRX_CRED_GRANT_MAX : Field := ⟨.VRX_CRED, 11, 4, .rw, .live, 16⟩
def VRX_CRED_INFLIGHT : Field := ⟨.VRX_CRED, 23, 12, .rw, .live, 128⟩
def VRX_RETX_COUNT : Field := ⟨.VRX_RETX, 31, 0, .ro, .none, 0⟩
def VRX_DROP_COUNT : Field := ⟨.VRX_DROP, 31, 0, .ro, .none, 0⟩
def VRX_AUTH_FAIL_COUNT : Field := ⟨.VRX_AUTH_FAIL, 31, 0, .ro, .none, 0⟩
def VRX_TDC_COUNT : Field := ⟨.VRX_TDC, 31, 0, .ro, .none, 0⟩
def VRX_WIN_LO_BASE : Field := ⟨.VRX_WIN_LO, 31, 20, .rw, .live, 0⟩
def VRX_WIN_LO_SIZE_LOG2 : Field := ⟨.VRX_WIN_LO, 5, 0, .rw, .live, 0⟩
def VRX_WIN_LO_PERM : Field := ⟨.VRX_WIN_LO, 8, 6, .rw, .live, 0⟩
def VRX_WIN_HI_BASE_HI : Field := ⟨.VRX_WIN_HI, 6, 0, .rw, .live, 0⟩
def EXH_BASE_LO_BASE : Field := ⟨.EXH_BASE_LO, 31, 21, .rw, .frozen, 0⟩
def EXH_BASE_HI_BASE_HI : Field := ⟨.EXH_BASE_HI, 6, 0, .rw, .frozen, 0⟩
def EXH_DRAINED_SLOT : Field := ⟨.EXH_DRAINED, 15, 0, .ro, .none, 0⟩
def EXH_DRAINED_VALID : Field := ⟨.EXH_DRAINED, 31, 31, .ro, .none, 0⟩
def TSY_CFG_DOMAIN : Field := ⟨.TSY_CFG, 7, 0, .rw, .frozen, 0⟩
def TSY_CFG_GM : Field := ⟨.TSY_CFG, 8, 8, .rw, .frozen, 0⟩
def TSY_CFG_LOG_INT : Field := ⟨.TSY_CFG, 15, 12, .rw, .frozen, 10⟩
def TSY_STAT_LOCKED : Field := ⟨.TSY_STAT, 0, 0, .ro, .none, 0⟩
def TSY_OFFSET_OFFSET : Field := ⟨.TSY_OFFSET, 31, 0, .ro, .none, 0⟩
def WPW_CFG_SLOPE : Field := ⟨.WPW_CFG, 6, 0, .rw, .live, 60⟩
def WPW_CFG_SEQ_PAR : Field := ⟨.WPW_CFG, 10, 8, .rw, .live, 4⟩
def WPW_CFG_SEQ_THR : Field := ⟨.WPW_CFG, 22, 16, .rw, .live, 90⟩
def WPW_SEQ_WAIT_MAX : Field := ⟨.WPW_SEQ, 15, 0, .rw, .live, 50⟩
def WPW_STAT_SEQ : Field := ⟨.WPW_STAT, 31, 16, .sqc, .none, 0⟩
def WPW_STAT_SLOPE_HOLD : Field := ⟨.WPW_STAT, 0, 0, .sqc, .none, 0⟩
def WPW_STAT_SEQ_FORCE : Field := ⟨.WPW_STAT, 1, 1, .sqc, .none, 0⟩
def WPW_SEQCNT_DELAYED : Field := ⟨.WPW_SEQCNT, 15, 0, .ro, .none, 0⟩
def WPW_SEQCNT_FORCED : Field := ⟨.WPW_SEQCNT, 31, 16, .ro, .none, 0⟩
def WPW_DMAX_DMAX : Field := ⟨.WPW_DMAX, 15, 0, .ro, .none, 0⟩
def THM_CFG_GUARD : Field := ⟨.THM_CFG, 3, 0, .rw, .live, 5⟩
def THM_CFG_MARGIN : Field := ⟨.THM_CFG, 7, 4, .rw, .live, 3⟩
def THM_CFG_DIV : Field := ⟨.THM_CFG, 11, 8, .rw, .live, 5⟩
def THM_CFG_HYST : Field := ⟨.THM_CFG, 15, 12, .rw, .live, 3⟩
def THM_CFG_ALERT_OFS : Field := ⟨.THM_CFG, 19, 16, .rw, .live, 5⟩
def THM_CFG_STEP : Field := ⟨.THM_CFG, 23, 20, .rw, .live, 5⟩
def THM_DIS_WARN : Field := ⟨.THM_DIS, 3, 0, .rw, .staged, 4⟩
def THM_DIS_FAULT : Field := ⟨.THM_DIS, 7, 4, .rw, .staged, 10⟩
def THM_STAT_SEQ : Field := ⟨.THM_STAT, 31, 16, .sqc, .none, 0⟩
def THM_STAT_DISAGREE : Field := ⟨.THM_STAT, 0, 0, .sqc, .none, 0⟩
def THM_STAT_SUSPECT : Field := ⟨.THM_STAT, 1, 1, .sqc, .none, 0⟩
def THM_STAT_MODEL_LOW : Field := ⟨.THM_STAT, 2, 2, .sqc, .none, 0⟩
def THM_STAT_OVER : Field := ⟨.THM_STAT, 3, 3, .sqc, .none, 0⟩
def THM_STAT_CRIT : Field := ⟨.THM_STAT, 4, 4, .sqc, .none, 0⟩
def THM_CTL_CLR_SUSPECT : Field := ⟨.THM_CTL, 0, 0, .w1, .live, 0⟩
def THM_SEL_SENSOR : Field := ⟨.THM_SEL, 7, 0, .rw, .live, 0⟩
def THM_SDATA_READING : Field := ⟨.THM_SDATA, 11, 0, .ro, .none, 0⟩
def THM_SDATA_EST : Field := ⟨.THM_SDATA, 23, 12, .ro, .none, 0⟩
def THM_SDATA_TRUST : Field := ⟨.THM_SDATA, 25, 24, .ro, .none, 0⟩
def THM_NSEL_NODE : Field := ⟨.THM_NSEL, 9, 0, .rw, .live, 0⟩
def THM_NDATA_G : Field := ⟨.THM_NDATA, 11, 0, .ro, .none, 0⟩
def THM_NDATA_F : Field := ⟨.THM_NDATA, 23, 12, .ro, .none, 0⟩
def THM_NDATA_LEVEL : Field := ⟨.THM_NDATA, 26, 24, .ro, .none, 0⟩
def COOL_CFG_ML_PP : Field := ⟨.COOL_CFG, 7, 0, .rw, .live, 10⟩
def COOL_CFG_FLOW_MIN : Field := ⟨.COOL_CFG, 19, 8, .rw, .live, 150⟩
def COOL_CFG_LOSS_MS : Field := ⟨.COOL_CFG, 27, 20, .rw, .live, 20⟩
def COOL_CFG2_DRAIN_MS : Field := ⟨.COOL_CFG2, 15, 0, .rw, .live, 50⟩
def COOL_CFG2_RISE : Field := ⟨.COOL_CFG2, 23, 16, .rw, .live, 16⟩
def COOL_STAT_SEQ : Field := ⟨.COOL_STAT, 31, 16, .sqc, .none, 0⟩
def COOL_STAT_FLOW_LOW : Field := ⟨.COOL_STAT, 0, 0, .sqc, .none, 0⟩
def COOL_STAT_LOSS : Field := ⟨.COOL_STAT, 1, 1, .sqc, .none, 0⟩
def COOL_FLOW_FLOW : Field := ⟨.COOL_FLOW, 15, 0, .ro, .none, 0⟩
def COOL_TEMP_INLET : Field := ⟨.COOL_TEMP, 11, 0, .ro, .none, 0⟩
def COOL_TEMP_OUTLET : Field := ⟨.COOL_TEMP, 27, 16, .ro, .none, 0⟩
def COOL_RTH_RTH : Field := ⟨.COOL_RTH, 15, 0, .ro, .none, 0⟩
def COOL_TCAP_TCAP_W : Field := ⟨.COOL_TCAP, 10, 0, .ro, .none, 1200⟩
def COOL_TCAP_STATE : Field := ⟨.COOL_TCAP, 14, 12, .ro, .none, 0⟩
def LUL_CFG_L1_US : Field := ⟨.LUL_CFG, 7, 0, .rw, .live, 20⟩
def LUL_CFG_L2_MS : Field := ⟨.LUL_CFG, 15, 8, .rw, .live, 5⟩
def LUL_CFG_SEN_MS : Field := ⟨.LUL_CFG, 23, 16, .rw, .live, 50⟩
def LUL_CFG_SEN_EN : Field := ⟨.LUL_CFG, 24, 24, .rw, .live, 1⟩
def LUL_STATE_SENTRY : Field := ⟨.LUL_STATE, 0, 0, .ro, .none, 0⟩
def LUL_STATE_N_L2 : Field := ⟨.LUL_STATE, 15, 8, .ro, .none, 0⟩
def LUL_STATE_N_L1 : Field := ⟨.LUL_STATE, 23, 16, .ro, .none, 0⟩
def LUL_WAKES_WAKES : Field := ⟨.LUL_WAKES, 31, 0, .ro, .none, 0⟩
def FLT_CFG_VEC : Field := ⟨.FLT_CFG, 9, 0, .rw, .live, 0⟩
def FLT_CFG_PIN_LATCH : Field := ⟨.FLT_CFG, 11, 11, .rw, .live, 0⟩
def FLT_CFG_TRAP_TMO : Field := ⟨.FLT_CFG, 23, 16, .rw, .live, 100⟩
def FLT_STAT_SEQ : Field := ⟨.FLT_STAT, 31, 16, .sqc, .none, 0⟩
def FLT_STAT_RAISED : Field := ⟨.FLT_STAT, 0, 0, .sqc, .none, 0⟩
def FLT_STAT_LOST : Field := ⟨.FLT_STAT, 1, 1, .sqc, .none, 0⟩
def FLT_STAT_TRAPQ_FULL : Field := ⟨.FLT_STAT, 2, 2, .sqc, .none, 0⟩
def FLT_STAT_ESCALATED : Field := ⟨.FLT_STAT, 3, 3, .sqc, .none, 0⟩
def FLT_CTL_PIN_CLR : Field := ⟨.FLT_CTL, 0, 0, .w1, .live, 0⟩
def FLT_LOST_LOST : Field := ⟨.FLT_LOST, 31, 0, .ro, .none, 0⟩
def FLT_TACK_ACK : Field := ⟨.FLT_TACK, 0, 0, .w1, .live, 0⟩
def FLT_TQ_SRC : Field := ⟨.FLT_TQ, 15, 0, .ro, .none, 0⟩
def FLT_TQ_VALID : Field := ⟨.FLT_TQ, 16, 16, .ro, .none, 0⟩
def FLT_TQ_QLEN : Field := ⟨.FLT_TQ, 24, 20, .ro, .none, 0⟩
def FLT_ISEL_SRC : Field := ⟨.FLT_ISEL, 15, 0, .rw, .live, 0⟩
def FLT_IDATA_RECOV : Field := ⟨.FLT_IDATA, 15, 0, .ro, .none, 0⟩
def FLT_IDATA2_OCC : Field := ⟨.FLT_IDATA2, 15, 0, .ro, .none, 0⟩
def FLT_IDATA2_FAULT : Field := ⟨.FLT_IDATA2, 16, 16, .ro, .none, 0⟩
def FLT_ACTIVE_COUNT : Field := ⟨.FLT_ACTIVE, 15, 0, .ro, .none, 0⟩
def FLT_RXN_INT : Field := ⟨.FLT_RXN, 0, 0, .rw, .live, 0⟩
def FLT_RXN_TRAP : Field := ⟨.FLT_RXN, 1, 1, .rw, .live, 0⟩
def FLT_RXN_BLOCK_RESET : Field := ⟨.FLT_RXN, 2, 2, .rw, .live, 0⟩
def FLT_RXN_CHIP_RESET : Field := ⟨.FLT_RXN, 3, 3, .rw, .live, 0⟩
def FLT_RXN_PIN : Field := ⟨.FLT_RXN, 4, 4, .rw, .live, 0⟩
def FLT_RXN_ESC : Field := ⟨.FLT_RXN, 5, 5, .rw, .live, 0⟩
def FLT_RXN_QUIET : Field := ⟨.FLT_RXN, 15, 8, .rw, .live, 10⟩
def EDY_CFG_PROT : Field := ⟨.EDY_CFG, 11, 0, .rw, .live, 3072⟩
def EDY_STAT_SEQ : Field := ⟨.EDY_STAT, 31, 16, .sqc, .none, 0⟩
def EDY_STAT_FROZE : Field := ⟨.EDY_STAT, 0, 0, .sqc, .none, 0⟩
def EDY_STAT_REL_BAD : Field := ⟨.EDY_STAT, 1, 1, .sqc, .none, 0⟩
def EDY_STAT_MISSED : Field := ⟨.EDY_STAT, 2, 2, .sqc, .none, 0⟩
def EDY_STAT_UE : Field := ⟨.EDY_STAT, 3, 3, .sqc, .none, 0⟩
def EDY_CTL_KEY : Field := ⟨.EDY_CTL, 15, 0, .rw, .live, 0⟩
def EDY_CTL_RELEASE : Field := ⟨.EDY_CTL, 31, 31, .w1, .live, 0⟩
def EDY_HEAD_INDEX : Field := ⟨.EDY_HEAD, 31, 0, .ro, .none, 0⟩
def EDY_FREEZE_INDEX : Field := ⟨.EDY_FREEZE, 31, 0, .ro, .none, 0⟩
def EDY_MISSED_MISSED : Field := ⟨.EDY_MISSED, 15, 0, .ro, .none, 0⟩
def EDY_STATE_FROZEN : Field := ⟨.EDY_STATE, 0, 0, .ro, .none, 0⟩
def TSEQ_CTL_FENCE : Field := ⟨.TSEQ_CTL, 0, 0, .w1, .live, 0⟩
def TSEQ_CTL_ICACHE_INV : Field := ⟨.TSEQ_CTL, 1, 1, .w1, .live, 0⟩
def TSEQ_STAT_SEQ : Field := ⟨.TSEQ_STAT, 31, 16, .sqc, .none, 0⟩
def TSEQ_STAT_TRAP : Field := ⟨.TSEQ_STAT, 0, 0, .sqc, .none, 0⟩
def TSEQ_STAT_FENCED : Field := ⟨.TSEQ_STAT, 1, 1, .sqc, .none, 0⟩
def TSEQ_STAT_DMA_ERR : Field := ⟨.TSEQ_STAT, 2, 2, .sqc, .none, 0⟩
def TSEQ_TRAP_CAUSE : Field := ⟨.TSEQ_TRAP, 7, 0, .ro, .none, 0⟩
def TSEQ_TRAP_HANDLED : Field := ⟨.TSEQ_TRAP, 8, 8, .ro, .none, 0⟩
def TSEQ_TRAP_ASYNC : Field := ⟨.TSEQ_TRAP, 9, 9, .ro, .none, 0⟩
def TSEQ_TPC_TPC : Field := ⟨.TSEQ_TPC, 31, 0, .ro, .none, 0⟩
def TSEQ_TVEC_TVEC : Field := ⟨.TSEQ_TVEC, 31, 0, .rw, .frozen, 0⟩
def TSEQ_PBASE_LO_PBASE : Field := ⟨.TSEQ_PBASE_LO, 31, 0, .rw, .frozen, 0⟩
def TSEQ_PBASE_HI_PBASE : Field := ⟨.TSEQ_PBASE_HI, 7, 0, .rw, .frozen, 0⟩
def TSEQ_DMA_HALTED : Field := ⟨.TSEQ_DMA, 7, 0, .ro, .none, 0⟩
def TSEQ_DMA_RESTART : Field := ⟨.TSEQ_DMA, 15, 8, .w1, .live, 0⟩
def VEC_STAT_SEQ : Field := ⟨.VEC_STAT, 31, 16, .sqc, .none, 0⟩
def VEC_STAT_SAT_HIT : Field := ⟨.VEC_STAT, 0, 0, .sqc, .none, 0⟩
def VEC_STAT_INV : Field := ⟨.VEC_STAT, 1, 1, .sqc, .none, 0⟩
def SPM_OWN0_OWNER0 : Field := ⟨.SPM_OWN0, 2, 0, .rw, .live, 1⟩
def SPM_OWN0_OWNER1 : Field := ⟨.SPM_OWN0, 6, 4, .rw, .live, 1⟩
def SPM_OWN0_OWNER2 : Field := ⟨.SPM_OWN0, 10, 8, .rw, .live, 1⟩
def SPM_OWN0_OWNER3 : Field := ⟨.SPM_OWN0, 14, 12, .rw, .live, 1⟩
def SPM_OWN0_OWNER4 : Field := ⟨.SPM_OWN0, 18, 16, .rw, .live, 1⟩
def SPM_OWN0_OWNER5 : Field := ⟨.SPM_OWN0, 22, 20, .rw, .live, 1⟩
def SPM_OWN0_OWNER6 : Field := ⟨.SPM_OWN0, 26, 24, .rw, .live, 1⟩
def SPM_OWN0_OWNER7 : Field := ⟨.SPM_OWN0, 30, 28, .rw, .live, 1⟩
def SPM_OWN1_OWNER8 : Field := ⟨.SPM_OWN1, 2, 0, .rw, .live, 1⟩
def SPM_OWN1_OWNER9 : Field := ⟨.SPM_OWN1, 6, 4, .rw, .live, 1⟩
def SPM_OWN1_OWNER10 : Field := ⟨.SPM_OWN1, 10, 8, .rw, .live, 1⟩
def SPM_OWN1_OWNER11 : Field := ⟨.SPM_OWN1, 14, 12, .rw, .live, 1⟩
def SPM_OWN1_OWNER12 : Field := ⟨.SPM_OWN1, 18, 16, .rw, .live, 1⟩
def SPM_OWN1_OWNER13 : Field := ⟨.SPM_OWN1, 22, 20, .rw, .live, 1⟩
def SPM_OWN1_OWNER14 : Field := ⟨.SPM_OWN1, 26, 24, .rw, .live, 1⟩
def SPM_OWN1_OWNER15 : Field := ⟨.SPM_OWN1, 30, 28, .rw, .live, 1⟩
def SPM_SECURE_SECURE : Field := ⟨.SPM_SECURE, 15, 0, .rw, .live, 0⟩
def SPM_HOSTATE_BUSY : Field := ⟨.SPM_HOSTATE, 15, 0, .ro, .none, 0⟩
def SPM_CFG_STARVE : Field := ⟨.SPM_CFG, 3, 0, .rw, .live, 8⟩
def SPM_CFG_PATROL_EN : Field := ⟨.SPM_CFG, 4, 4, .rw, .live, 1⟩
def SPM_STAT_SEQ : Field := ⟨.SPM_STAT, 31, 16, .sqc, .none, 0⟩
def SPM_STAT_COLLIDE : Field := ⟨.SPM_STAT, 0, 0, .sqc, .none, 0⟩
def SPM_STAT_OWN_VIOL : Field := ⟨.SPM_STAT, 1, 1, .sqc, .none, 0⟩
def SPM_STAT_CE : Field := ⟨.SPM_STAT, 2, 2, .sqc, .none, 0⟩
def SPM_STAT_UE : Field := ⟨.SPM_STAT, 3, 3, .sqc, .none, 0⟩
def SPM_STAT_DENIED : Field := ⟨.SPM_STAT, 4, 4, .sqc, .none, 0⟩
def SPM_STAT_WIPED : Field := ⟨.SPM_STAT, 5, 5, .sqc, .none, 0⟩
def SPM_COLL_COLL : Field := ⟨.SPM_COLL, 31, 0, .ro, .none, 0⟩
def SPM_COLL_LAST_OFFSET : Field := ⟨.SPM_COLL_LAST, 22, 0, .ro, .none, 0⟩
def SPM_COLL_LAST_CLASS : Field := ⟨.SPM_COLL_LAST, 26, 24, .ro, .none, 0⟩
def SPM_CE_CNT_CE_CNT : Field := ⟨.SPM_CE_CNT, 31, 0, .ro, .none, 0⟩
def SPM_UE_LAST_OFFSET : Field := ⟨.SPM_UE_LAST, 22, 0, .ro, .none, 0⟩
def SPM_UE_LAST_VALID : Field := ⟨.SPM_UE_LAST, 31, 31, .ro, .none, 0⟩
def SPM_DMACOLL_CH : Field := ⟨.SPM_DMACOLL, 7, 0, .ro, .none, 0⟩
def SPM_DMACOLL_CLR : Field := ⟨.SPM_DMACOLL, 15, 8, .w1, .live, 0⟩
def MXA_CFG_FRZ_LIM : Field := ⟨.MXA_CFG, 4, 0, .rw, .live, 20⟩
def MXA_CFG_GATE_UNUSED : Field := ⟨.MXA_CFG, 8, 8, .rw, .live, 1⟩
def MXA_STAT_SEQ : Field := ⟨.MXA_STAT, 31, 16, .sqc, .none, 0⟩
def MXA_STAT_ILLEGAL : Field := ⟨.MXA_STAT, 0, 0, .sqc, .none, 0⟩
def MXA_STAT_SRC_UE : Field := ⟨.MXA_STAT, 1, 1, .sqc, .none, 0⟩
def MXA_STAT_DST_UE : Field := ⟨.MXA_STAT, 2, 2, .sqc, .none, 0⟩
def MXA_STAT_OWN : Field := ⟨.MXA_STAT, 3, 3, .sqc, .none, 0⟩
def MXA_STAT_STALL : Field := ⟨.MXA_STAT, 4, 4, .sqc, .none, 0⟩
def MXA_STAT_SAT_HIT : Field := ⟨.MXA_STAT, 5, 5, .sqc, .none, 0⟩
def MXA_STAT_ABORT : Field := ⟨.MXA_STAT, 6, 6, .sqc, .none, 0⟩
def MXA_STATE_BUSY : Field := ⟨.MXA_STATE, 0, 0, .ro, .none, 0⟩
def MXA_STATE_QDEPTH : Field := ⟨.MXA_STATE, 3, 1, .ro, .none, 0⟩
def MXA_STATE_MODE : Field := ⟨.MXA_STATE, 5, 4, .ro, .none, 0⟩
def MXA_STATE_FROZEN : Field := ⟨.MXA_STATE, 6, 6, .ro, .none, 0⟩
def MXA_STATE_SHADOW_VALID : Field := ⟨.MXA_STATE, 7, 7, .ro, .none, 0⟩
def MXA_STATE_ROWS_LEFT : Field := ⟨.MXA_STATE, 31, 8, .ro, .none, 0⟩
def MXA_CTL_CLR_CNT : Field := ⟨.MXA_CTL, 0, 0, .w1, .live, 0⟩
def MXA_FED_LO_FED : Field := ⟨.MXA_FED_LO, 31, 0, .ro, .none, 0⟩
def MXA_FED_HI_FED : Field := ⟨.MXA_FED_HI, 31, 0, .ro, .none, 0⟩
def MXA_DROPPED_DROPPED : Field := ⟨.MXA_DROPPED, 31, 0, .ro, .none, 0⟩
def MXA_SKIPGRP_SKIPGRP : Field := ⟨.MXA_SKIPGRP, 31, 0, .ro, .none, 0⟩
def MXA_FRZ_DRY_FRZ_DRY : Field := ⟨.MXA_FRZ_DRY, 31, 0, .ro, .none, 0⟩
def MXA_FRZ_BACK_FRZ_BACK : Field := ⟨.MXA_FRZ_BACK, 31, 0, .ro, .none, 0⟩
def MXA_BUBBLE_BUBBLE : Field := ⟨.MXA_BUBBLE, 31, 0, .ro, .none, 0⟩
def TSK_CFG_STEAL_EN : Field := ⟨.TSK_CFG, 0, 0, .rw, .staged, 1⟩
def TSK_CFG_STEAL_DMAX : Field := ⟨.TSK_CFG, 7, 4, .rw, .staged, 6⟩
def TSK_QLEN_QLEN : Field := ⟨.TSK_QLEN, 10, 0, .ro, .none, 0⟩
def TSK_TDC_TDC : Field := ⟨.TSK_TDC, 31, 0, .ro, .none, 0⟩
def TSK_ORPHAN_ORPHAN : Field := ⟨.TSK_ORPHAN, 15, 0, .ro, .none, 0⟩
def MESH_CFG_SLOT_EN : Field := ⟨.MESH_CFG, 0, 0, .rw, .staged, 0⟩
def MESH_CFG_FRAME : Field := ⟨.MESH_CFG, 8, 1, .rw, .staged, 63⟩
def MESH_CFG_OPP_ADAPT : Field := ⟨.MESH_CFG, 9, 9, .rw, .staged, 0⟩
def MESH_CFG_STARVE : Field := ⟨.MESH_CFG, 14, 10, .rw, .live, 16⟩
def MESH_CFG_TMO : Field := ⟨.MESH_CFG, 30, 15, .rw, .live, 65535⟩
def MESH_STAT_SEQ : Field := ⟨.MESH_STAT, 31, 16, .sqc, .none, 0⟩
def MESH_STAT_SLOT_VIOL : Field := ⟨.MESH_STAT, 0, 0, .sqc, .none, 0⟩
def MESH_STAT_LINK_ERR : Field := ⟨.MESH_STAT, 1, 1, .sqc, .none, 0⟩
def MESH_LAT_MAX_LAT_MAX : Field := ⟨.MESH_LAT_MAX, 15, 0, .ro, .none, 0⟩
def MESH_SLOT_PORTS0 : Field := ⟨.MESH_SLOT, 4, 0, .rw, .staged, 0⟩
def MESH_SLOT_PORTS1 : Field := ⟨.MESH_SLOT, 12, 8, .rw, .staged, 0⟩
def MESH_SLOT_PORTS2 : Field := ⟨.MESH_SLOT, 20, 16, .rw, .staged, 0⟩
def MESH_SLOT_PORTS3 : Field := ⟨.MESH_SLOT, 28, 24, .rw, .staged, 0⟩
def VCH_CFG_CMODE : Field := ⟨.VCH_CFG, 0, 0, .rw, .live, 1⟩
def VCH_CFG_SCRUB_EN : Field := ⟨.VCH_CFG, 1, 1, .rw, .live, 1⟩
def VCH_CFG_PAGE_TMO : Field := ⟨.VCH_CFG, 9, 2, .rw, .live, 32⟩
def VCH_CFG_CAND_THR : Field := ⟨.VCH_CFG, 12, 10, .rw, .live, 4⟩
def VCH_CFG_MARGIN_EN : Field := ⟨.VCH_CFG, 13, 13, .rw, .live, 1⟩
def VCH_STAT_SEQ : Field := ⟨.VCH_STAT, 31, 16, .sqc, .none, 0⟩
def VCH_STAT_CE : Field := ⟨.VCH_STAT, 0, 0, .sqc, .none, 0⟩
def VCH_STAT_UE : Field := ⟨.VCH_STAT, 1, 1, .sqc, .none, 0⟩
def VCH_STAT_BKT_OVF : Field := ⟨.VCH_STAT, 2, 2, .sqc, .none, 0⟩
def VCH_STAT_CAND : Field := ⟨.VCH_STAT, 3, 3, .sqc, .none, 0⟩
def VCH_STAT_CAND_LOST : Field := ⟨.VCH_STAT, 4, 4, .sqc, .none, 0⟩
def VCH_STAT_REMAP_ERR : Field := ⟨.VCH_STAT, 5, 5, .sqc, .none, 0⟩
def VCH_STAT_REMAP_DONE : Field := ⟨.VCH_STAT, 6, 6, .sqc, .none, 0⟩
def VCH_STAT_MARGIN : Field := ⟨.VCH_STAT, 7, 7, .sqc, .none, 0⟩
def VCH_STAT_TRAIN_FAIL : Field := ⟨.VCH_STAT, 8, 8, .sqc, .none, 0⟩
def VCH_REF_FAST : Field := ⟨.VCH_REF, 15, 0, .ro, .none, 0⟩
def VCH_REF_OWED_MAX : Field := ⟨.VCH_REF, 18, 16, .ro, .none, 0⟩
def VCH_REF_CLR : Field := ⟨.VCH_REF, 19, 19, .w1, .live, 0⟩
def VCH_SCRUB_INT : Field := ⟨.VCH_SCRUB, 15, 0, .rw, .live, 214⟩
def VCH_BUCKET_LEVEL : Field := ⟨.VCH_BUCKET, 6, 0, .ro, .none, 0⟩
def VCH_BUCKET_DEPTH : Field := ⟨.VCH_BUCKET, 14, 8, .rw, .live, 64⟩
def VCH_BUCKET_LEAK : Field := ⟨.VCH_BUCKET, 23, 16, .rw, .live, 10⟩
def VCH_CE_CNT_CE_CNT : Field := ⟨.VCH_CE_CNT, 31, 0, .ro, .none, 0⟩
def VCH_UE_LO_DA_LO : Field := ⟨.VCH_UE_LO, 31, 0, .ro, .none, 0⟩
def VCH_UE_HI_DA_HI : Field := ⟨.VCH_UE_HI, 6, 0, .ro, .none, 0⟩
def VCH_UE_HI_SRC : Field := ⟨.VCH_UE_HI, 10, 8, .ro, .none, 0⟩
def VCH_UE_HI_VALID : Field := ⟨.VCH_UE_HI, 31, 31, .ro, .none, 0⟩
def VCH_CAND_ROW : Field := ⟨.VCH_CAND, 13, 0, .ro, .none, 0⟩
def VCH_CAND_BANK : Field := ⟨.VCH_CAND, 15, 14, .ro, .none, 0⟩
def VCH_CAND_LAYER : Field := ⟨.VCH_CAND, 19, 16, .ro, .none, 0⟩
def VCH_CAND_UE : Field := ⟨.VCH_CAND, 20, 20, .ro, .none, 0⟩
def VCH_CAND_ACK : Field := ⟨.VCH_CAND, 30, 30, .w1, .live, 0⟩
def VCH_CAND_VALID : Field := ⟨.VCH_CAND, 31, 31, .ro, .none, 0⟩
def VCH_TRAIN_L_LAUNCH : Field := ⟨.VCH_TRAIN_L, 5, 0, .rw, .frozen, 32⟩
def VCH_TRAIN_L_CAPTURE : Field := ⟨.VCH_TRAIN_L, 13, 8, .rw, .frozen, 32⟩
def VCH_TRAIN_L_RDLAT : Field := ⟨.VCH_TRAIN_L, 17, 16, .rw, .frozen, 0⟩
def VCH_TRAIN_L_WIN_W : Field := ⟨.VCH_TRAIN_L, 24, 18, .ro, .none, 0⟩
def VCH_TRAIN_L_WIN_R : Field := ⟨.VCH_TRAIN_L, 31, 25, .ro, .none, 0⟩
def VCH_REMAP_ROW : Field := ⟨.VCH_REMAP, 13, 0, .rw, .live, 0⟩
def VCH_REMAP_BANK : Field := ⟨.VCH_REMAP, 15, 14, .rw, .live, 0⟩
def VCH_REMAP_LAYER : Field := ⟨.VCH_REMAP, 19, 16, .rw, .live, 0⟩
def VCH_REMAP_SPARE : Field := ⟨.VCH_REMAP, 22, 20, .rw, .live, 0⟩
def VCH_REMAP_STATE : Field := ⟨.VCH_REMAP, 25, 24, .rw, .live, 0⟩
def BSC_CFG_LEASE_MAX : Field := ⟨.BSC_CFG, 11, 0, .rw, .live, 1536⟩
def BSC_CFG_RUN_LIM : Field := ⟨.BSC_CFG, 16, 12, .rw, .live, 24⟩
def BSC_STAT_SEQ : Field := ⟨.BSC_STAT, 31, 16, .sqc, .none, 0⟩
def BSC_STAT_ERR : Field := ⟨.BSC_STAT, 0, 0, .sqc, .none, 0⟩
def BSC_STAT_BUSY_GO : Field := ⟨.BSC_STAT, 1, 1, .sqc, .none, 0⟩
def BSC_STAT_CA_DENY : Field := ⟨.BSC_STAT, 2, 2, .sqc, .none, 0⟩
def BSC_STAT_LOAD_DENY : Field := ⟨.BSC_STAT, 3, 3, .sqc, .none, 0⟩
def BSC_STAT_UNSUP : Field := ⟨.BSC_STAT, 4, 4, .sqc, .none, 0⟩
def BSC_STAT_DONE_LOST : Field := ⟨.BSC_STAT, 5, 5, .sqc, .none, 0⟩
def BSC_STAT_LOAD_DONE : Field := ⟨.BSC_STAT, 6, 6, .sqc, .none, 0⟩
def BSC_STAT_BAD_RECORD : Field := ⟨.BSC_STAT, 7, 7, .sqc, .none, 0⟩
def BSC_RING_BASE : Field := ⟨.BSC_RING, 8, 0, .rw, .staged, 0⟩
def BSC_RING_LOG2 : Field := ⟨.BSC_RING, 12, 9, .rw, .staged, 4⟩
def BSC_RING_BANK : Field := ⟨.BSC_RING, 13, 13, .rw, .staged, 1⟩
def BSC_RING_EN : Field := ⟨.BSC_RING, 14, 14, .rw, .staged, 0⟩
def BSC_RCONS_CONS : Field := ⟨.BSC_RCONS, 15, 0, .ro, .none, 0⟩
def BSC_DONE0_DONE : Field := ⟨.BSC_DONE0, 31, 0, .ro, .none, 0⟩
def BSC_DONE1_DONE : Field := ⟨.BSC_DONE1, 31, 0, .ro, .none, 0⟩
def BSC_ERRCNT_ERRCNT : Field := ⟨.BSC_ERRCNT, 15, 0, .ro, .none, 0⟩
def BSC_PSRC_OFFSET : Field := ⟨.BSC_PSRC, 31, 12, .rw, .live, 0⟩
def BSC_PMASK0_MASK : Field := ⟨.BSC_PMASK0, 31, 0, .rw, .live, 0⟩
def BSC_PMASK1_MASK : Field := ⟨.BSC_PMASK1, 31, 0, .rw, .live, 0⟩
def BSC_PCTL_GO : Field := ⟨.BSC_PCTL, 0, 0, .w1, .live, 0⟩
def BSC_PCTL_BUSY : Field := ⟨.BSC_PCTL, 8, 8, .ro, .none, 0⟩
def BSC_PCTL_FAIL : Field := ⟨.BSC_PCTL, 9, 9, .ro, .none, 0⟩
def KVS_CFG_EN : Field := ⟨.KVS_CFG, 0, 0, .rw, .live, 1⟩
def KVS_HIT_HIT : Field := ⟨.KVS_HIT, 31, 0, .ro, .none, 0⟩
def KVS_FILL_FILL : Field := ⟨.KVS_FILL, 31, 0, .ro, .none, 0⟩
def FXR_BASE_LO_BASE : Field := ⟨.FXR_BASE_LO, 31, 12, .rw, .staged, 0⟩
def FXR_BASE_HI_BASE_HI : Field := ⟨.FXR_BASE_HI, 6, 0, .rw, .staged, 0⟩
def FXR_CFG_LOG2 : Field := ⟨.FXR_CFG, 3, 0, .rw, .staged, 6⟩
def FXR_CFG_EN : Field := ⟨.FXR_CFG, 4, 4, .rw, .staged, 0⟩
def TPW_CFG_SLOPE : Field := ⟨.TPW_CFG, 4, 0, .rw, .live, 16⟩
def TPW_CFG_LIMIT : Field := ⟨.TPW_CFG, 13, 8, .rw, .live, 36⟩
def TPW_CFG_FILL_STRICT : Field := ⟨.TPW_CFG, 23, 16, .rw, .live, 96⟩
def TPW_TRIP_GUST_TRIP : Field := ⟨.TPW_TRIP, 5, 0, .rw, .staged, 20⟩
def TPW_TRIP_DROOP_TRIP : Field := ⟨.TPW_TRIP, 13, 8, .rw, .staged, 50⟩
def TPW_STAT_SEQ : Field := ⟨.TPW_STAT, 31, 16, .sqc, .none, 0⟩
def TPW_STAT_DROOP : Field := ⟨.TPW_STAT, 0, 0, .sqc, .none, 0⟩
def TPW_STAT_UV : Field := ⟨.TPW_STAT, 1, 1, .sqc, .none, 0⟩
def TPW_STAT_STRICT_MARK : Field := ⟨.TPW_STAT, 2, 2, .sqc, .none, 0⟩
def TPW_VMIN_CODE : Field := ⟨.TPW_VMIN, 7, 0, .ro, .none, 255⟩
def TPW_VMIN_CLR : Field := ⟨.TPW_VMIN, 31, 31, .w1, .live, 0⟩
def TPW_VMIN_T_LO_TIME : Field := ⟨.TPW_VMIN_T_LO, 31, 0, .ro, .none, 0⟩
def TPW_VMIN_T_HI_TIME : Field := ⟨.TPW_VMIN_T_HI, 31, 0, .ro, .none, 0⟩
def TPW_I_I_NOW : Field := ⟨.TPW_I, 7, 0, .ro, .none, 0⟩
def TPW_I_ILIM : Field := ⟨.TPW_I, 15, 8, .ro, .none, 144⟩
def TPW_PSTATE_CEIL : Field := ⟨.TPW_PSTATE, 2, 0, .rw, .live, 0⟩
def TPW_PSTATE_CUR : Field := ⟨.TPW_PSTATE, 6, 4, .ro, .none, 0⟩
def TPW_SWALLOW_COUNT : Field := ⟨.TPW_SWALLOW, 31, 0, .ro, .none, 0⟩
def TPW_DROOP_COUNT : Field := ⟨.TPW_DROOP, 31, 0, .ro, .none, 0⟩
def TPW_GUST_COUNT : Field := ⟨.TPW_GUST, 31, 0, .ro, .none, 0⟩
def DET_CFG_ALIGN : Field := ⟨.DET_CFG, 0, 0, .rw, .live, 1⟩
def DET_GID_GID : Field := ⟨.DET_GID, 15, 0, .ro, .none, 0⟩
def DET_CYC_LO_CYC : Field := ⟨.DET_CYC_LO, 31, 0, .ro, .none, 0⟩
def DET_CYC_HI_CYC : Field := ⟨.DET_CYC_HI, 31, 0, .ro, .none, 0⟩
def DET_CAUSE_CAUSE : Field := ⟨.DET_CAUSE, 6, 0, .ro, .none, 0⟩
def STG_CTL_BLOCK : Field := ⟨.STG_CTL, 2, 0, .rw, .live, 0⟩
def STG_CTL_VIEW : Field := ⟨.STG_CTL, 8, 8, .rw, .live, 0⟩
def STG_CTL_DISCARD : Field := ⟨.STG_CTL, 30, 30, .w1, .live, 0⟩
def STG_CTL_COMMIT : Field := ⟨.STG_CTL, 31, 31, .w1, .live, 0⟩
def STG_STAT_SEQ : Field := ⟨.STG_STAT, 31, 16, .sqc, .none, 0⟩
def STG_STAT_APPLIED : Field := ⟨.STG_STAT, 4, 0, .sqc, .none, 0⟩
def STG_STAT_REFUSED : Field := ⟨.STG_STAT, 12, 8, .sqc, .none, 0⟩
def STG_STATE_WAITING : Field := ⟨.STG_STATE, 4, 0, .ro, .none, 0⟩
def STG_STATE_DIFF : Field := ⟨.STG_STATE, 12, 8, .ro, .none, 0⟩
def STG_RSN_CODE : Field := ⟨.STG_RSN, 7, 0, .ro, .none, 0⟩
def STG_RSN_BLOCK : Field := ⟨.STG_RSN, 10, 8, .ro, .none, 0⟩
def STG_RSN_DETAIL : Field := ⟨.STG_RSN, 23, 16, .ro, .none, 0⟩
def STG_RSN_VALID : Field := ⟨.STG_RSN, 31, 31, .ro, .none, 0⟩
def BSC_CTRL_LO_ENTRY : Field := ⟨.BSC_CTRL_LO, 9, 0, .rw, .live, 0⟩
def BSC_CTRL_LO_GO : Field := ⟨.BSC_CTRL_LO, 16, 16, .w1, .live, 0⟩
def BSC_CTRL_LO_STOP : Field := ⟨.BSC_CTRL_LO, 17, 17, .w1, .live, 0⟩
def BSC_CTRL_HI_TAG : Field := ⟨.BSC_CTRL_HI, 31, 0, .rw, .live, 0⟩
def BSC_CSTAT_LO_STATE : Field := ⟨.BSC_CSTAT_LO, 2, 0, .ro, .none, 0⟩
def BSC_CSTAT_LO_CODE : Field := ⟨.BSC_CSTAT_LO, 15, 8, .ro, .none, 0⟩
def BSC_CSTAT_LO_ERR_PC : Field := ⟨.BSC_CSTAT_LO, 25, 16, .ro, .none, 0⟩
def BSC_CSTAT_HI_EXIT : Field := ⟨.BSC_CSTAT_HI, 15, 0, .ro, .none, 0⟩
def BSC_CYCLES_LO_COUNT : Field := ⟨.BSC_CYCLES_LO, 31, 0, .ro, .none, 0⟩
def BSC_CYCLES_HI_COUNT : Field := ⟨.BSC_CYCLES_HI, 31, 0, .ro, .none, 0⟩
def BSC_STALLS_LO_COUNT : Field := ⟨.BSC_STALLS_LO, 31, 0, .ro, .none, 0⟩
def BSC_STALLS_HI_COUNT : Field := ⟨.BSC_STALLS_HI, 31, 0, .ro, .none, 0⟩
def BSC_PAUSES_REF_REF : Field := ⟨.BSC_PAUSES_REF, 31, 0, .ro, .none, 0⟩
def BSC_PAUSES_LEASE_LEASE : Field := ⟨.BSC_PAUSES_LEASE, 31, 0, .ro, .none, 0⟩
def BSC_XCOLL_XCOLL : Field := ⟨.BSC_XCOLL, 31, 0, .ro, .none, 0⟩
def BSC_CTX_CTX : Field := ⟨.BSC_CTX, 19, 0, .rw, .live, 0⟩
def BSC_DATA_LO_DATA : Field := ⟨.BSC_DATA_LO, 31, 0, .rw, .live, 0⟩
def BSC_DATA_HI_DATA : Field := ⟨.BSC_DATA_HI, 31, 0, .rw, .live, 0⟩
end F

/-- The fields of each register; bits outside them are reserved and read 0. -/
def Reg.fields : Reg → List Field
  | .GLB_IDENT => [F.GLB_IDENT_STEPPING, F.GLB_IDENT_GRADE, F.GLB_IDENT_PART]
  | .GLB_FEATURES => [F.GLB_FEATURES_PORTS, F.GLB_FEATURES_WIDEATT, F.GLB_FEATURES_BSC, F.GLB_FEATURES_CONF]
  | .GLB_SERIAL_LO => [F.GLB_SERIAL_LO_SERIAL]
  | .GLB_SERIAL_HI => [F.GLB_SERIAL_HI_SERIAL]
  | .GLB_DISMAP => [F.GLB_DISMAP_MAP]
  | .GLB_FUSEMAP => [F.GLB_FUSEMAP_MAP]
  | .GLB_TIME_LO => [F.GLB_TIME_LO_TIME]
  | .GLB_TIME_HI => [F.GLB_TIME_HI_TIME]
  | .GLB_STAT => [F.GLB_STAT_SEQ, F.GLB_STAT_CFG_PARITY, F.GLB_STAT_SQC_STALE, F.GLB_STAT_FROZEN_WR, F.GLB_STAT_ACC_ERR]
  | .GLB_PAR_ADDR => [F.GLB_PAR_ADDR_OFFSET, F.GLB_PAR_ADDR_VALID]
  | .GLB_SQC_LAST => [F.GLB_SQC_LAST_OFFSET]
  | .GLB_FROZEN_LAST => [F.GLB_FROZEN_LAST_OFFSET]
  | .MBX_CTL => [F.MBX_CTL_CMD, F.MBX_CTL_GO]
  | .MBX_STAT => [F.MBX_STAT_SEQ, F.MBX_STAT_DONE, F.MBX_STAT_BUSY_GO, F.MBX_STAT_FROZEN_WR]
  | .MBX_RESULT => [F.MBX_RESULT_STATUS]
  | .MBX_RLEN => [F.MBX_RLEN_RLEN]
  | .MBX_REQ_LO => [F.MBX_REQ_LO_ADDR]
  | .MBX_REQ_HI => [F.MBX_REQ_HI_ADDR]
  | .MBX_REQ_LEN => [F.MBX_REQ_LEN_LEN]
  | .MBX_RSP_LO => [F.MBX_RSP_LO_ADDR]
  | .MBX_RSP_HI => [F.MBX_RSP_HI_ADDR]
  | .MBX_RSP_LEN => [F.MBX_RSP_LEN_LEN]
  | .MBX_ARG => [F.MBX_ARG_ARG]
  | .MBX_STATE => [F.MBX_STATE_BUSY]
  | .MBX_CFG => [F.MBX_CFG_VEC, F.MBX_CFG_IRQ]
  | .CMD_FINFO => [F.CMD_FINFO_QBASE, F.CMD_FINFO_QCNT]
  | .CMD_STAT => [F.CMD_STAT_SEQ, F.CMD_STAT_QP_ERR, F.CMD_STAT_CFG_ERR, F.CMD_STAT_FROZEN_WR, F.CMD_STAT_HOST_ERR]
  | .CMD_SUM_LO => [F.CMD_SUM_LO_ADDR]
  | .CMD_SUM_HI => [F.CMD_SUM_HI_ADDR_HI]
  | .CMD_QPSEL => [F.CMD_QPSEL_QP]
  | .CMD_QP_SQ_LO => [F.CMD_QP_SQ_LO_ADDR]
  | .CMD_QP_SQ_HI => [F.CMD_QP_SQ_HI_ADDR_HI]
  | .CMD_QP_CQ_LO => [F.CMD_QP_CQ_LO_ADDR]
  | .CMD_QP_CQ_HI => [F.CMD_QP_CQ_HI_ADDR_HI]
  | .CMD_QP_DB_LO => [F.CMD_QP_DB_LO_ADDR]
  | .CMD_QP_DB_HI => [F.CMD_QP_DB_HI_ADDR_HI]
  | .CMD_QP_CFG => [F.CMD_QP_CFG_EN, F.CMD_QP_CFG_SQ_LOG2, F.CMD_QP_CFG_CQ_LOG2, F.CMD_QP_CFG_PRIO, F.CMD_QP_CFG_VEC, F.CMD_QP_CFG_IRQ]
  | .CMD_QP_COAL => [F.CMD_QP_COAL_COUNT, F.CMD_QP_COAL_TIME]
  | .CMD_QP_STATE => [F.CMD_QP_STATE_STATE, F.CMD_QP_STATE_ERR, F.CMD_QP_STATE_INFLIGHT]
  | .CMD_POLL => [F.CMD_POLL_ACT_NS, F.CMD_POLL_IDLE_US, F.CMD_POLL_IDLE_AFTER]
  | .CMD_FQ => [F.CMD_FQ_QBASE, F.CMD_FQ_QCNT]
  | .CMD_FDA => [F.CMD_FDA_SL_FIRST, F.CMD_FDA_SL_CNT, F.CMD_FDA_PRIV]
  | .PCI_LINK => [F.PCI_LINK_SPEED, F.PCI_LINK_WIDTH, F.PCI_LINK_FLIT, F.PCI_LINK_IDE_SECURE]
  | .PCI_STAT => [F.PCI_STAT_SEQ, F.PCI_STAT_DEGRADED, F.PCI_STAT_DOWN, F.PCI_STAT_IDE_WAIT, F.PCI_STAT_IDE_FAIL, F.PCI_STAT_DBG_UE]
  | .PCI_CFG => [F.PCI_CFG_EXP_SPEED, F.PCI_CFG_EXP_WIDTH, F.PCI_CFG_PERST_KEEP, F.PCI_CFG_IDE_REQ]
  | .PCI_CNT => [F.PCI_CNT_DOWN, F.PCI_CNT_RETRAIN]
  | .PCI_DBG => [F.PCI_DBG_WIN]
  | .BOOT_STAT => [F.BOOT_STAT_STAGE, F.BOOT_STAT_READY, F.BOOT_STAT_FAST, F.BOOT_STAT_FAIL, F.BOOT_STAT_DEGRADED, F.BOOT_STAT_BAND]
  | .BOOT_CFG => [F.BOOT_CFG_MIN_PORTS, F.BOOT_CFG_MIN_TILES, F.BOOT_CFG_FULL_TEST, F.BOOT_CFG_SAVE_EN]
  | .BOOT_CTL => [F.BOOT_CTL_CLR_SAVED]
  | .BOOT_REP => [F.BOOT_REP_REP]
  | .RST_CTL => [F.RST_CTL_SCOPE, F.RST_CTL_TARGET, F.RST_CTL_MODE, F.RST_CTL_GO]
  | .RST_STAT => [F.RST_STAT_SEQ, F.RST_STAT_DONE, F.RST_STAT_FALLBACK, F.RST_STAT_BUSY, F.RST_STAT_REFUSED, F.RST_STAT_FORCED, F.RST_STAT_ABSORBED]
  | .RST_STATE => [F.RST_STATE_PHASE, F.RST_STATE_SCOPE, F.RST_STATE_TARGET, F.RST_STATE_QLEN]
  | .RST_DL0 => [F.RST_DL0_TILE_US, F.RST_DL0_ROW_US]
  | .RST_DL1 => [F.RST_DL1_TOWER_US, F.RST_DL1_PATH_US, F.RST_DL1_WORK_MS]
  | .RST_CNT => [F.RST_CNT_PARTIAL, F.RST_CNT_PATH]
  | .RST_LAST => [F.RST_LAST_TIME]
  | .PWR_CAP => [F.PWR_CAP_CAP_W, F.PWR_CAP_PEAK_W]
  | .PWR_SBCAP => [F.PWR_SBCAP_SB_CAP]
  | .PWR_CFG => [F.PWR_CFG_MARGIN_W, F.PWR_CFG_LEARN_EN]
  | .PWR_STAT => [F.PWR_STAT_SEQ, F.PWR_STAT_CAP_HIT, F.PWR_STAT_PEAK_CLAMP, F.PWR_STAT_HINT_SHORT, F.PWR_STAT_HINT_LATE]
  | .PWR_AVG => [F.PWR_AVG_AVG_W, F.PWR_AVG_EFF_W, F.PWR_AVG_SRC]
  | .PWR_PROF_SEL => [F.PWR_PROF_SEL_PROFILE]
  | .PWR_PROF_DATA => [F.PWR_PROF_DATA_IPK, F.PWR_PROF_DATA_DUR, F.PWR_PROF_DATA_USES, F.PWR_PROF_DATA_VALID]
  | .PWR_CLAMPS => [F.PWR_CLAMPS_CLAMPS]
  | .SEC_LC => [F.SEC_LC_STATE, F.SEC_LC_KEY_EPOCH, F.SEC_LC_TAMPERS, F.SEC_LC_SVN]
  | .SEC_STAT => [F.SEC_STAT_SEQ, F.SEC_STAT_TAMPER, F.SEC_STAT_FW_REJ, F.SEC_STAT_SESS_FAIL, F.SEC_STAT_PEER_REJ, F.SEC_STAT_CONF_DENY, F.SEC_STAT_ID_BAD, F.SEC_STAT_FROZEN_WR]
  | .SEC_CONF => [F.SEC_CONF_ACTIVE, F.SEC_CONF_NEXT, F.SEC_CONF_IDE_REQ, F.SEC_CONF_SESSIONS]
  | .SEC_TAMPER => [F.SEC_TAMPER_SRC]
  | .SEC_MR => [F.SEC_MR_MR]
  | .SEC_PROG_LO => [F.SEC_PROG_LO_BASE]
  | .SEC_PROG_HI => [F.SEC_PROG_HI_BASE_HI]
  | .SEC_PROG_LEN => [F.SEC_PROG_LEN_LEN]
  | .SEC_OWIN_LO => [F.SEC_OWIN_LO_BASE]
  | .SEC_OWIN_HI => [F.SEC_OWIN_HI_BASE_HI]
  | .SEC_OWIN_LEN => [F.SEC_OWIN_LEN_LEN]
  | .SEC_LOGN => [F.SEC_LOGN_LOGN]
  | .SEC_LCNONCE_LO => [F.SEC_LCNONCE_LO_NONCE]
  | .SEC_LCNONCE_HI => [F.SEC_LCNONCE_HI_NONCE]
  | .ENR_CTL => [F.ENR_CTL_RUN]
  | .ENR_CFG => [F.ENR_CFG_PERIOD_US, F.ENR_CFG_WAIT_US, F.ENR_CFG_RFLUSH_MS, F.ENR_CFG_BATCH_MS]
  | .ENR_STAT => [F.ENR_STAT_SEQ, F.ENR_STAT_RECON, F.ENR_STAT_METER, F.ENR_STAT_PENDING, F.ENR_STAT_QFULL, F.ENR_STAT_SEAL_SHORT, F.ENR_STAT_CFG_ERR, F.ENR_STAT_FROZEN_WR]
  | .ENR_RCTX => [F.ENR_RCTX_CTX, F.ENR_RCTX_EN]
  | .ENR_ACC_LO => [F.ENR_ACC_LO_BASE]
  | .ENR_ACC_HI => [F.ENR_ACC_HI_BASE_HI]
  | .ENR_QUEUE_LO => [F.ENR_QUEUE_LO_BASE]
  | .ENR_QUEUE_HI => [F.ENR_QUEUE_HI_BASE_HI]
  | .ENR_STORE_LO => [F.ENR_STORE_LO_BASE]
  | .ENR_STORE_HI => [F.ENR_STORE_HI_BASE_HI]
  | .ENR_STORE_CFG => [F.ENR_STORE_CFG_LOG2]
  | .ENR_QLEN => [F.ENR_QLEN_QLEN]
  | .ENR_BATCH_LO => [F.ENR_BATCH_LO_BATCH]
  | .ENR_BATCH_HI => [F.ENR_BATCH_HI_BATCH]
  | .ENR_REL_LO => [F.ENR_REL_LO_REL]
  | .ENR_REL_HI => [F.ENR_REL_HI_REL]
  | .ENR_RESID => [F.ENR_RESID_RESID]
  | .ENR_UNSEALED => [F.ENR_UNSEALED_COUNT]
  | .ENR_CFG2 => [F.ENR_CFG2_RLIM_PPM]
  | .FWB_ADDR_LO => [F.FWB_ADDR_LO_ADDR]
  | .FWB_ADDR_HI => [F.FWB_ADDR_HI_ADDR_HI]
  | .FWB_LEN => [F.FWB_LEN_LEN]
  | .FWB_CTL => [F.FWB_CTL_GO]
  | .FWB_STAT => [F.FWB_STAT_STATE, F.FWB_STAT_CAUSE]
  | .FWS_CFG => [F.FWS_CFG_FANOUT, F.FWS_CFG_GAP_MS, F.FWS_CFG_RATE, F.FWS_CFG_BCAST_EN]
  | .FWS_STAGE_LO => [F.FWS_STAGE_LO_BASE]
  | .FWS_STAT => [F.FWS_STAT_SEQ, F.FWS_STAT_DONE, F.FWS_STAT_REJ, F.FWS_STAT_MIXED, F.FWS_STAT_REPAIR, F.FWS_STAT_INCOMPLETE, F.FWS_STAT_BAD_CHUNK, F.FWS_STAT_SUPERSEDED, F.FWS_STAT_FROZEN_WR]
  | .FWS_STATE => [F.FWS_STATE_STATE, F.FWS_STATE_KIND, F.FWS_STATE_BCAST, F.FWS_STATE_CAUSE, F.FWS_STATE_HAVE]
  | .FWS_IGEN => [F.FWS_IGEN_IGEN]
  | .FWS_RUN => [F.FWS_RUN_IGEN]
  | .FWS_CLEVEL => [F.FWS_CLEVEL_CLEVEL, F.FWS_CLEVEL_CMIN]
  | .FWS_UCFG => [F.FWS_UCFG_PAR]
  | .FWS_UPROG => [F.FWS_UPROG_DONE]
  | .FWS_STAGE_HI => [F.FWS_STAGE_HI_BASE_HI]
  | .FWS_CNT => [F.FWS_CNT_BAD, F.FWS_CNT_REPAIRED]
  | .KVM_CTL => [F.KVM_CTL_RUN, F.KVM_CTL_READY]
  | .KVM_STAT => [F.KVM_STAT_SEQ, F.KVM_STAT_CFG_ERR, F.KVM_STAT_FROZEN_WR, F.KVM_STAT_NO_KV, F.KVM_STAT_PREEMPT, F.KVM_STAT_SWAP_AUTH, F.KVM_STAT_UE]
  | .KVM_CFG => [F.KVM_CFG_PREEMPT_EN, F.KVM_CFG_ZERO_ALL]
  | .KVM_SEQ_LO => [F.KVM_SEQ_LO_BASE]
  | .KVM_SEQ_HI => [F.KVM_SEQ_HI_BASE_HI, F.KVM_SEQ_HI_CTX_LOG2]
  | .KVM_META_LO => [F.KVM_META_LO_BASE]
  | .KVM_META_HI => [F.KVM_META_HI_BASE_HI]
  | .KVM_PLACE_LO => [F.KVM_PLACE_LO_BASE]
  | .KVM_PLACE_HI => [F.KVM_PLACE_HI_BASE_HI]
  | .KVM_POOL_OFF => [F.KVM_POOL_OFF_OFF]
  | .KVM_SWAP_LO => [F.KVM_SWAP_LO_ADDR]
  | .KVM_SWAP_HI => [F.KVM_SWAP_HI_ADDR_HI]
  | .KVM_SWAP_SLOTS => [F.KVM_SWAP_SLOTS_SLOTS]
  | .KVM_FREE => [F.KVM_FREE_FREE]
  | .KVM_CTXS => [F.KVM_CTXS_OPEN]
  | .KVM_PREEMPTS => [F.KVM_PREEMPTS_PREEMPTS]
  | .KVM_UE_CTX => [F.KVM_UE_CTX_CTX, F.KVM_UE_CTX_VALID]
  | .PFX_CFG => [F.PFX_CFG_EN, F.PFX_CFG_NODE_LOG2]
  | .PFX_NODE_LO => [F.PFX_NODE_LO_BASE]
  | .PFX_NODE_HI => [F.PFX_NODE_HI_BASE_HI]
  | .PFX_HIT => [F.PFX_HIT_HIT]
  | .PFX_MISS => [F.PFX_MISS_MISS]
  | .PFX_EVICT => [F.PFX_EVICT_EVICT]
  | .PFX_SKIP => [F.PFX_SKIP_SKIP]
  | .KVM_POOL => [F.KVM_POOL_PAGES]
  | .LCK_CTL => [F.LCK_CTL_EN]
  | .LCK_CFG => [F.LCK_CFG_PEER, F.LCK_CFG_QP]
  | .LCK_TMO => [F.LCK_TMO_MS]
  | .LCK_STAT => [F.LCK_STAT_SEQ, F.LCK_STAT_DIVERGE, F.LCK_STAT_FROZEN_WR]
  | .LCK_LIST_LO => [F.LCK_LIST_LO_BASE]
  | .LCK_LIST_HI => [F.LCK_LIST_HI_BASE_HI]
  | .LCK_NUM => [F.LCK_NUM_NUM]
  | .LCK_DIVCNT => [F.LCK_DIVCNT_COUNT]
  | .LCK_DIV_NUM => [F.LCK_DIV_NUM_NUM]
  | .LCK_DIV_LOC => [F.LCK_DIV_LOC_TASK, F.LCK_DIV_LOC_TILE, F.LCK_DIV_LOC_VALID]
  | .LCK_DIV_PT => [F.LCK_DIV_PT_PTILE, F.LCK_DIV_PT_CAUSE, F.LCK_DIV_PT_CLR]
  | .LCK_RGN_BASE_LO => [F.LCK_RGN_BASE_LO_BASE]
  | .LCK_RGN_BASE_HI => [F.LCK_RGN_BASE_HI_BASE]
  | .LCK_RGN_LEN => [F.LCK_RGN_LEN_LEN]
  | .LCK_RGN_STRIDE => [F.LCK_RGN_STRIDE_STRIDE]
  | .FAB_CFG => [F.FAB_CFG_EN, F.FAB_CFG_MEDIA, F.FAB_CFG_MAXW, F.FAB_CFG_RETRY, F.FAB_CFG_TTMO, F.FAB_CFG_FEC_LIM, F.FAB_CFG_KEY_LIFE]
  | .FAB_CTL => [F.FAB_CTL_RETRAIN, F.FAB_CTL_UNFENCE]
  | .FAB_STAT => [F.FAB_STAT_SEQ, F.FAB_STAT_UP, F.FAB_STAT_DEGRADED, F.FAB_STAT_DOWN, F.FAB_STAT_FENCED, F.FAB_STAT_REKEYED]
  | .FAB_STATE => [F.FAB_STATE_STATE, F.FAB_STATE_WIDTH, F.FAB_STATE_LANES, F.FAB_STATE_KEYED, F.FAB_STATE_KEY]
  | .FAB_FEC_CE => [F.FAB_FEC_CE_CE]
  | .FAB_FEC_UE => [F.FAB_FEC_UE_UE]
  | .VRX_CTL => [F.VRX_CTL_RUN]
  | .VRX_CFG => [F.VRX_CFG_SELF, F.VRX_CFG_MAXPAY, F.VRX_CFG_UDP_PORT]
  | .VRX_STAT => [F.VRX_STAT_SEQ, F.VRX_STAT_PEER_FAIL, F.VRX_STAT_NOCRED, F.VRX_STAT_ACCESS, F.VRX_STAT_DRAINED, F.VRX_STAT_CFG_ERR, F.VRX_STAT_FROZEN_WR]
  | .VRX_IP => [F.VRX_IP_PREFIX]
  | .VRX_PEER_LO => [F.VRX_PEER_LO_BASE]
  | .VRX_PEER_HI => [F.VRX_PEER_HI_BASE_HI]
  | .VRX_CFG2 => [F.VRX_CFG2_RTO, F.VRX_CFG2_RETRY, F.VRX_CFG2_DUPTHR, F.VRX_CFG2_ENTROPY]
  | .VRX_RXPOOL_LO => [F.VRX_RXPOOL_LO_BASE]
  | .VRX_RXPOOL_HI => [F.VRX_RXPOOL_HI_BASE_HI]
  | .VRX_RXPOOL => [F.VRX_RXPOOL_SLOTS, F.VRX_RXPOOL_SLOT_LOG2]
  | .VRX_CRED => [F.VRX_CRED_FREE, F.VRX_CRED_GRANT_MAX, F.VRX_CRED_INFLIGHT]
  | .VRX_RETX => [F.VRX_RETX_COUNT]
  | .VRX_DROP => [F.VRX_DROP_COUNT]
  | .VRX_AUTH_FAIL => [F.VRX_AUTH_FAIL_COUNT]
  | .VRX_TDC => [F.VRX_TDC_COUNT]
  | .VRX_WIN_LO => [F.VRX_WIN_LO_BASE, F.VRX_WIN_LO_SIZE_LOG2, F.VRX_WIN_LO_PERM]
  | .VRX_WIN_HI => [F.VRX_WIN_HI_BASE_HI]
  | .EXH_BASE_LO => [F.EXH_BASE_LO_BASE]
  | .EXH_BASE_HI => [F.EXH_BASE_HI_BASE_HI]
  | .EXH_DRAINED => [F.EXH_DRAINED_SLOT, F.EXH_DRAINED_VALID]
  | .TSY_CFG => [F.TSY_CFG_DOMAIN, F.TSY_CFG_GM, F.TSY_CFG_LOG_INT]
  | .TSY_STAT => [F.TSY_STAT_LOCKED]
  | .TSY_OFFSET => [F.TSY_OFFSET_OFFSET]
  | .WPW_CFG => [F.WPW_CFG_SLOPE, F.WPW_CFG_SEQ_PAR, F.WPW_CFG_SEQ_THR]
  | .WPW_SEQ => [F.WPW_SEQ_WAIT_MAX]
  | .WPW_STAT => [F.WPW_STAT_SEQ, F.WPW_STAT_SLOPE_HOLD, F.WPW_STAT_SEQ_FORCE]
  | .WPW_SEQCNT => [F.WPW_SEQCNT_DELAYED, F.WPW_SEQCNT_FORCED]
  | .WPW_DMAX => [F.WPW_DMAX_DMAX]
  | .THM_CFG => [F.THM_CFG_GUARD, F.THM_CFG_MARGIN, F.THM_CFG_DIV, F.THM_CFG_HYST, F.THM_CFG_ALERT_OFS, F.THM_CFG_STEP]
  | .THM_DIS => [F.THM_DIS_WARN, F.THM_DIS_FAULT]
  | .THM_STAT => [F.THM_STAT_SEQ, F.THM_STAT_DISAGREE, F.THM_STAT_SUSPECT, F.THM_STAT_MODEL_LOW, F.THM_STAT_OVER, F.THM_STAT_CRIT]
  | .THM_CTL => [F.THM_CTL_CLR_SUSPECT]
  | .THM_SEL => [F.THM_SEL_SENSOR]
  | .THM_SDATA => [F.THM_SDATA_READING, F.THM_SDATA_EST, F.THM_SDATA_TRUST]
  | .THM_NSEL => [F.THM_NSEL_NODE]
  | .THM_NDATA => [F.THM_NDATA_G, F.THM_NDATA_F, F.THM_NDATA_LEVEL]
  | .COOL_CFG => [F.COOL_CFG_ML_PP, F.COOL_CFG_FLOW_MIN, F.COOL_CFG_LOSS_MS]
  | .COOL_CFG2 => [F.COOL_CFG2_DRAIN_MS, F.COOL_CFG2_RISE]
  | .COOL_STAT => [F.COOL_STAT_SEQ, F.COOL_STAT_FLOW_LOW, F.COOL_STAT_LOSS]
  | .COOL_FLOW => [F.COOL_FLOW_FLOW]
  | .COOL_TEMP => [F.COOL_TEMP_INLET, F.COOL_TEMP_OUTLET]
  | .COOL_RTH => [F.COOL_RTH_RTH]
  | .COOL_TCAP => [F.COOL_TCAP_TCAP_W, F.COOL_TCAP_STATE]
  | .LUL_CFG => [F.LUL_CFG_L1_US, F.LUL_CFG_L2_MS, F.LUL_CFG_SEN_MS, F.LUL_CFG_SEN_EN]
  | .LUL_STATE => [F.LUL_STATE_SENTRY, F.LUL_STATE_N_L2, F.LUL_STATE_N_L1]
  | .LUL_WAKES => [F.LUL_WAKES_WAKES]
  | .FLT_CFG => [F.FLT_CFG_VEC, F.FLT_CFG_PIN_LATCH, F.FLT_CFG_TRAP_TMO]
  | .FLT_STAT => [F.FLT_STAT_SEQ, F.FLT_STAT_RAISED, F.FLT_STAT_LOST, F.FLT_STAT_TRAPQ_FULL, F.FLT_STAT_ESCALATED]
  | .FLT_CTL => [F.FLT_CTL_PIN_CLR]
  | .FLT_LOST => [F.FLT_LOST_LOST]
  | .FLT_TACK => [F.FLT_TACK_ACK]
  | .FLT_TQ => [F.FLT_TQ_SRC, F.FLT_TQ_VALID, F.FLT_TQ_QLEN]
  | .FLT_ISEL => [F.FLT_ISEL_SRC]
  | .FLT_IDATA => [F.FLT_IDATA_RECOV]
  | .FLT_IDATA2 => [F.FLT_IDATA2_OCC, F.FLT_IDATA2_FAULT]
  | .FLT_ACTIVE => [F.FLT_ACTIVE_COUNT]
  | .FLT_RXN => [F.FLT_RXN_INT, F.FLT_RXN_TRAP, F.FLT_RXN_BLOCK_RESET, F.FLT_RXN_CHIP_RESET, F.FLT_RXN_PIN, F.FLT_RXN_ESC, F.FLT_RXN_QUIET]
  | .EDY_CFG => [F.EDY_CFG_PROT]
  | .EDY_STAT => [F.EDY_STAT_SEQ, F.EDY_STAT_FROZE, F.EDY_STAT_REL_BAD, F.EDY_STAT_MISSED, F.EDY_STAT_UE]
  | .EDY_CTL => [F.EDY_CTL_KEY, F.EDY_CTL_RELEASE]
  | .EDY_HEAD => [F.EDY_HEAD_INDEX]
  | .EDY_FREEZE => [F.EDY_FREEZE_INDEX]
  | .EDY_MISSED => [F.EDY_MISSED_MISSED]
  | .EDY_STATE => [F.EDY_STATE_FROZEN]
  | .TSEQ_CTL => [F.TSEQ_CTL_FENCE, F.TSEQ_CTL_ICACHE_INV]
  | .TSEQ_STAT => [F.TSEQ_STAT_SEQ, F.TSEQ_STAT_TRAP, F.TSEQ_STAT_FENCED, F.TSEQ_STAT_DMA_ERR]
  | .TSEQ_TRAP => [F.TSEQ_TRAP_CAUSE, F.TSEQ_TRAP_HANDLED, F.TSEQ_TRAP_ASYNC]
  | .TSEQ_TPC => [F.TSEQ_TPC_TPC]
  | .TSEQ_TVEC => [F.TSEQ_TVEC_TVEC]
  | .TSEQ_PBASE_LO => [F.TSEQ_PBASE_LO_PBASE]
  | .TSEQ_PBASE_HI => [F.TSEQ_PBASE_HI_PBASE]
  | .TSEQ_DMA => [F.TSEQ_DMA_HALTED, F.TSEQ_DMA_RESTART]
  | .VEC_STAT => [F.VEC_STAT_SEQ, F.VEC_STAT_SAT_HIT, F.VEC_STAT_INV]
  | .SPM_OWN0 => [F.SPM_OWN0_OWNER0, F.SPM_OWN0_OWNER1, F.SPM_OWN0_OWNER2, F.SPM_OWN0_OWNER3, F.SPM_OWN0_OWNER4, F.SPM_OWN0_OWNER5, F.SPM_OWN0_OWNER6, F.SPM_OWN0_OWNER7]
  | .SPM_OWN1 => [F.SPM_OWN1_OWNER8, F.SPM_OWN1_OWNER9, F.SPM_OWN1_OWNER10, F.SPM_OWN1_OWNER11, F.SPM_OWN1_OWNER12, F.SPM_OWN1_OWNER13, F.SPM_OWN1_OWNER14, F.SPM_OWN1_OWNER15]
  | .SPM_SECURE => [F.SPM_SECURE_SECURE]
  | .SPM_HOSTATE => [F.SPM_HOSTATE_BUSY]
  | .SPM_CFG => [F.SPM_CFG_STARVE, F.SPM_CFG_PATROL_EN]
  | .SPM_STAT => [F.SPM_STAT_SEQ, F.SPM_STAT_COLLIDE, F.SPM_STAT_OWN_VIOL, F.SPM_STAT_CE, F.SPM_STAT_UE, F.SPM_STAT_DENIED, F.SPM_STAT_WIPED]
  | .SPM_COLL => [F.SPM_COLL_COLL]
  | .SPM_COLL_LAST => [F.SPM_COLL_LAST_OFFSET, F.SPM_COLL_LAST_CLASS]
  | .SPM_CE_CNT => [F.SPM_CE_CNT_CE_CNT]
  | .SPM_UE_LAST => [F.SPM_UE_LAST_OFFSET, F.SPM_UE_LAST_VALID]
  | .SPM_DMACOLL => [F.SPM_DMACOLL_CH, F.SPM_DMACOLL_CLR]
  | .MXA_CFG => [F.MXA_CFG_FRZ_LIM, F.MXA_CFG_GATE_UNUSED]
  | .MXA_STAT => [F.MXA_STAT_SEQ, F.MXA_STAT_ILLEGAL, F.MXA_STAT_SRC_UE, F.MXA_STAT_DST_UE, F.MXA_STAT_OWN, F.MXA_STAT_STALL, F.MXA_STAT_SAT_HIT, F.MXA_STAT_ABORT]
  | .MXA_STATE => [F.MXA_STATE_BUSY, F.MXA_STATE_QDEPTH, F.MXA_STATE_MODE, F.MXA_STATE_FROZEN, F.MXA_STATE_SHADOW_VALID, F.MXA_STATE_ROWS_LEFT]
  | .MXA_CTL => [F.MXA_CTL_CLR_CNT]
  | .MXA_FED_LO => [F.MXA_FED_LO_FED]
  | .MXA_FED_HI => [F.MXA_FED_HI_FED]
  | .MXA_DROPPED => [F.MXA_DROPPED_DROPPED]
  | .MXA_SKIPGRP => [F.MXA_SKIPGRP_SKIPGRP]
  | .MXA_FRZ_DRY => [F.MXA_FRZ_DRY_FRZ_DRY]
  | .MXA_FRZ_BACK => [F.MXA_FRZ_BACK_FRZ_BACK]
  | .MXA_BUBBLE => [F.MXA_BUBBLE_BUBBLE]
  | .TSK_CFG => [F.TSK_CFG_STEAL_EN, F.TSK_CFG_STEAL_DMAX]
  | .TSK_QLEN => [F.TSK_QLEN_QLEN]
  | .TSK_TDC => [F.TSK_TDC_TDC]
  | .TSK_ORPHAN => [F.TSK_ORPHAN_ORPHAN]
  | .MESH_CFG => [F.MESH_CFG_SLOT_EN, F.MESH_CFG_FRAME, F.MESH_CFG_OPP_ADAPT, F.MESH_CFG_STARVE, F.MESH_CFG_TMO]
  | .MESH_STAT => [F.MESH_STAT_SEQ, F.MESH_STAT_SLOT_VIOL, F.MESH_STAT_LINK_ERR]
  | .MESH_LAT_MAX => [F.MESH_LAT_MAX_LAT_MAX]
  | .MESH_SLOT => [F.MESH_SLOT_PORTS0, F.MESH_SLOT_PORTS1, F.MESH_SLOT_PORTS2, F.MESH_SLOT_PORTS3]
  | .VCH_CFG => [F.VCH_CFG_CMODE, F.VCH_CFG_SCRUB_EN, F.VCH_CFG_PAGE_TMO, F.VCH_CFG_CAND_THR, F.VCH_CFG_MARGIN_EN]
  | .VCH_STAT => [F.VCH_STAT_SEQ, F.VCH_STAT_CE, F.VCH_STAT_UE, F.VCH_STAT_BKT_OVF, F.VCH_STAT_CAND, F.VCH_STAT_CAND_LOST, F.VCH_STAT_REMAP_ERR, F.VCH_STAT_REMAP_DONE, F.VCH_STAT_MARGIN, F.VCH_STAT_TRAIN_FAIL]
  | .VCH_REF => [F.VCH_REF_FAST, F.VCH_REF_OWED_MAX, F.VCH_REF_CLR]
  | .VCH_SCRUB => [F.VCH_SCRUB_INT]
  | .VCH_BUCKET => [F.VCH_BUCKET_LEVEL, F.VCH_BUCKET_DEPTH, F.VCH_BUCKET_LEAK]
  | .VCH_CE_CNT => [F.VCH_CE_CNT_CE_CNT]
  | .VCH_UE_LO => [F.VCH_UE_LO_DA_LO]
  | .VCH_UE_HI => [F.VCH_UE_HI_DA_HI, F.VCH_UE_HI_SRC, F.VCH_UE_HI_VALID]
  | .VCH_CAND => [F.VCH_CAND_ROW, F.VCH_CAND_BANK, F.VCH_CAND_LAYER, F.VCH_CAND_UE, F.VCH_CAND_ACK, F.VCH_CAND_VALID]
  | .VCH_TRAIN_L => [F.VCH_TRAIN_L_LAUNCH, F.VCH_TRAIN_L_CAPTURE, F.VCH_TRAIN_L_RDLAT, F.VCH_TRAIN_L_WIN_W, F.VCH_TRAIN_L_WIN_R]
  | .VCH_REMAP => [F.VCH_REMAP_ROW, F.VCH_REMAP_BANK, F.VCH_REMAP_LAYER, F.VCH_REMAP_SPARE, F.VCH_REMAP_STATE]
  | .BSC_CFG => [F.BSC_CFG_LEASE_MAX, F.BSC_CFG_RUN_LIM]
  | .BSC_STAT => [F.BSC_STAT_SEQ, F.BSC_STAT_ERR, F.BSC_STAT_BUSY_GO, F.BSC_STAT_CA_DENY, F.BSC_STAT_LOAD_DENY, F.BSC_STAT_UNSUP, F.BSC_STAT_DONE_LOST, F.BSC_STAT_LOAD_DONE, F.BSC_STAT_BAD_RECORD]
  | .BSC_RING => [F.BSC_RING_BASE, F.BSC_RING_LOG2, F.BSC_RING_BANK, F.BSC_RING_EN]
  | .BSC_RCONS => [F.BSC_RCONS_CONS]
  | .BSC_DONE0 => [F.BSC_DONE0_DONE]
  | .BSC_DONE1 => [F.BSC_DONE1_DONE]
  | .BSC_ERRCNT => [F.BSC_ERRCNT_ERRCNT]
  | .BSC_PSRC => [F.BSC_PSRC_OFFSET]
  | .BSC_PMASK0 => [F.BSC_PMASK0_MASK]
  | .BSC_PMASK1 => [F.BSC_PMASK1_MASK]
  | .BSC_PCTL => [F.BSC_PCTL_GO, F.BSC_PCTL_BUSY, F.BSC_PCTL_FAIL]
  | .KVS_CFG => [F.KVS_CFG_EN]
  | .KVS_HIT => [F.KVS_HIT_HIT]
  | .KVS_FILL => [F.KVS_FILL_FILL]
  | .FXR_BASE_LO => [F.FXR_BASE_LO_BASE]
  | .FXR_BASE_HI => [F.FXR_BASE_HI_BASE_HI]
  | .FXR_CFG => [F.FXR_CFG_LOG2, F.FXR_CFG_EN]
  | .TPW_CFG => [F.TPW_CFG_SLOPE, F.TPW_CFG_LIMIT, F.TPW_CFG_FILL_STRICT]
  | .TPW_TRIP => [F.TPW_TRIP_GUST_TRIP, F.TPW_TRIP_DROOP_TRIP]
  | .TPW_STAT => [F.TPW_STAT_SEQ, F.TPW_STAT_DROOP, F.TPW_STAT_UV, F.TPW_STAT_STRICT_MARK]
  | .TPW_VMIN => [F.TPW_VMIN_CODE, F.TPW_VMIN_CLR]
  | .TPW_VMIN_T_LO => [F.TPW_VMIN_T_LO_TIME]
  | .TPW_VMIN_T_HI => [F.TPW_VMIN_T_HI_TIME]
  | .TPW_I => [F.TPW_I_I_NOW, F.TPW_I_ILIM]
  | .TPW_PSTATE => [F.TPW_PSTATE_CEIL, F.TPW_PSTATE_CUR]
  | .TPW_SWALLOW => [F.TPW_SWALLOW_COUNT]
  | .TPW_DROOP => [F.TPW_DROOP_COUNT]
  | .TPW_GUST => [F.TPW_GUST_COUNT]
  | .DET_CFG => [F.DET_CFG_ALIGN]
  | .DET_GID => [F.DET_GID_GID]
  | .DET_CYC_LO => [F.DET_CYC_LO_CYC]
  | .DET_CYC_HI => [F.DET_CYC_HI_CYC]
  | .DET_CAUSE => [F.DET_CAUSE_CAUSE]
  | .STG_CTL => [F.STG_CTL_BLOCK, F.STG_CTL_VIEW, F.STG_CTL_DISCARD, F.STG_CTL_COMMIT]
  | .STG_STAT => [F.STG_STAT_SEQ, F.STG_STAT_APPLIED, F.STG_STAT_REFUSED]
  | .STG_STATE => [F.STG_STATE_WAITING, F.STG_STATE_DIFF]
  | .STG_RSN => [F.STG_RSN_CODE, F.STG_RSN_BLOCK, F.STG_RSN_DETAIL, F.STG_RSN_VALID]
  | .BSC_CTRL_LO => [F.BSC_CTRL_LO_ENTRY, F.BSC_CTRL_LO_GO, F.BSC_CTRL_LO_STOP]
  | .BSC_CTRL_HI => [F.BSC_CTRL_HI_TAG]
  | .BSC_CSTAT_LO => [F.BSC_CSTAT_LO_STATE, F.BSC_CSTAT_LO_CODE, F.BSC_CSTAT_LO_ERR_PC]
  | .BSC_CSTAT_HI => [F.BSC_CSTAT_HI_EXIT]
  | .BSC_CYCLES_LO => [F.BSC_CYCLES_LO_COUNT]
  | .BSC_CYCLES_HI => [F.BSC_CYCLES_HI_COUNT]
  | .BSC_STALLS_LO => [F.BSC_STALLS_LO_COUNT]
  | .BSC_STALLS_HI => [F.BSC_STALLS_HI_COUNT]
  | .BSC_PAUSES_REF => [F.BSC_PAUSES_REF_REF]
  | .BSC_PAUSES_LEASE => [F.BSC_PAUSES_LEASE_LEASE]
  | .BSC_XCOLL => [F.BSC_XCOLL_XCOLL]
  | .BSC_CTX => [F.BSC_CTX_CTX]
  | .BSC_DATA_LO => [F.BSC_DATA_LO_DATA]
  | .BSC_DATA_HI => [F.BSC_DATA_HI_DATA]

/-- Windows of R423. The index of a register counts (window number) × count + n: a tile for the engine and stop
windows, a tower, a port, a mailbox, a function, a global queue pair, or tile × 64 + core. -/
inductive Win where | glb | mbx | cmd | qp | cmd0 | pci | boot | pwr | sec | enr | fw | kvm | lck | fab | vrx | tower | tower0 | flt | eng | stop | stg | core
  deriving DecidableEq, Repr

/-- Window, byte offset within it, how many of the family it holds, and their stride. -/
structure Place where
  win : Win
  off : Nat
  cnt : Nat
  stride : Nat
  deriving DecidableEq, Repr

def Reg.place : Reg → Place
  | .GLB_IDENT => ⟨.glb, 0x0, 1, 4⟩
  | .GLB_FEATURES => ⟨.glb, 0x4, 1, 4⟩
  | .GLB_SERIAL_LO => ⟨.glb, 0x8, 1, 4⟩
  | .GLB_SERIAL_HI => ⟨.glb, 0xc, 1, 4⟩
  | .GLB_DISMAP => ⟨.glb, 0x10, 4, 4⟩
  | .GLB_FUSEMAP => ⟨.glb, 0x20, 4, 4⟩
  | .GLB_TIME_LO => ⟨.glb, 0x30, 1, 4⟩
  | .GLB_TIME_HI => ⟨.glb, 0x34, 1, 4⟩
  | .GLB_STAT => ⟨.glb, 0x38, 1, 4⟩
  | .GLB_PAR_ADDR => ⟨.glb, 0x3c, 1, 4⟩
  | .GLB_SQC_LAST => ⟨.glb, 0x40, 1, 4⟩
  | .GLB_FROZEN_LAST => ⟨.glb, 0x44, 1, 4⟩
  | .MBX_CTL => ⟨.mbx, 0x0, 1, 4⟩
  | .MBX_STAT => ⟨.mbx, 0x4, 1, 4⟩
  | .MBX_RESULT => ⟨.mbx, 0x8, 1, 4⟩
  | .MBX_RLEN => ⟨.mbx, 0xc, 1, 4⟩
  | .MBX_REQ_LO => ⟨.mbx, 0x10, 1, 4⟩
  | .MBX_REQ_HI => ⟨.mbx, 0x14, 1, 4⟩
  | .MBX_REQ_LEN => ⟨.mbx, 0x18, 1, 4⟩
  | .MBX_RSP_LO => ⟨.mbx, 0x1c, 1, 4⟩
  | .MBX_RSP_HI => ⟨.mbx, 0x20, 1, 4⟩
  | .MBX_RSP_LEN => ⟨.mbx, 0x24, 1, 4⟩
  | .MBX_ARG => ⟨.mbx, 0x28, 8, 4⟩
  | .MBX_STATE => ⟨.mbx, 0x48, 1, 4⟩
  | .MBX_CFG => ⟨.mbx, 0x4c, 1, 4⟩
  | .CMD_FINFO => ⟨.cmd, 0x0, 1, 4⟩
  | .CMD_STAT => ⟨.cmd, 0x4, 1, 4⟩
  | .CMD_SUM_LO => ⟨.cmd, 0x8, 1, 4⟩
  | .CMD_SUM_HI => ⟨.cmd, 0xc, 1, 4⟩
  | .CMD_QPSEL => ⟨.cmd, 0x10, 1, 4⟩
  | .CMD_QP_SQ_LO => ⟨.qp, 0x14, 1, 4⟩
  | .CMD_QP_SQ_HI => ⟨.qp, 0x18, 1, 4⟩
  | .CMD_QP_CQ_LO => ⟨.qp, 0x1c, 1, 4⟩
  | .CMD_QP_CQ_HI => ⟨.qp, 0x20, 1, 4⟩
  | .CMD_QP_DB_LO => ⟨.qp, 0x24, 1, 4⟩
  | .CMD_QP_DB_HI => ⟨.qp, 0x28, 1, 4⟩
  | .CMD_QP_CFG => ⟨.qp, 0x2c, 1, 4⟩
  | .CMD_QP_COAL => ⟨.qp, 0x30, 1, 4⟩
  | .CMD_QP_STATE => ⟨.qp, 0x34, 1, 4⟩
  | .CMD_POLL => ⟨.cmd0, 0x100, 1, 4⟩
  | .CMD_FQ => ⟨.cmd0, 0x400, 257, 4⟩
  | .CMD_FDA => ⟨.cmd0, 0xc00, 257, 4⟩
  | .PCI_LINK => ⟨.pci, 0x0, 1, 4⟩
  | .PCI_STAT => ⟨.pci, 0x4, 1, 4⟩
  | .PCI_CFG => ⟨.pci, 0x8, 1, 4⟩
  | .PCI_CNT => ⟨.pci, 0xc, 1, 4⟩
  | .PCI_DBG => ⟨.pci, 0x10, 1, 4⟩
  | .BOOT_STAT => ⟨.boot, 0x0, 1, 4⟩
  | .BOOT_CFG => ⟨.boot, 0x4, 1, 4⟩
  | .BOOT_CTL => ⟨.boot, 0x8, 1, 4⟩
  | .BOOT_REP => ⟨.boot, 0x40, 80, 4⟩
  | .RST_CTL => ⟨.boot, 0x200, 1, 4⟩
  | .RST_STAT => ⟨.boot, 0x204, 1, 4⟩
  | .RST_STATE => ⟨.boot, 0x208, 1, 4⟩
  | .RST_DL0 => ⟨.boot, 0x20c, 1, 4⟩
  | .RST_DL1 => ⟨.boot, 0x210, 1, 4⟩
  | .RST_CNT => ⟨.boot, 0x214, 1, 4⟩
  | .RST_LAST => ⟨.boot, 0x218, 1, 4⟩
  | .PWR_CAP => ⟨.pwr, 0x0, 1, 4⟩
  | .PWR_SBCAP => ⟨.pwr, 0x4, 1, 4⟩
  | .PWR_CFG => ⟨.pwr, 0x8, 1, 4⟩
  | .PWR_STAT => ⟨.pwr, 0xc, 1, 4⟩
  | .PWR_AVG => ⟨.pwr, 0x10, 1, 4⟩
  | .PWR_PROF_SEL => ⟨.pwr, 0x14, 1, 4⟩
  | .PWR_PROF_DATA => ⟨.pwr, 0x18, 1, 4⟩
  | .PWR_CLAMPS => ⟨.pwr, 0x1c, 1, 4⟩
  | .SEC_LC => ⟨.sec, 0x0, 1, 4⟩
  | .SEC_STAT => ⟨.sec, 0x4, 1, 4⟩
  | .SEC_CONF => ⟨.sec, 0x8, 1, 4⟩
  | .SEC_TAMPER => ⟨.sec, 0xc, 1, 4⟩
  | .SEC_MR => ⟨.sec, 0x10, 8, 4⟩
  | .SEC_PROG_LO => ⟨.sec, 0x30, 1, 4⟩
  | .SEC_PROG_HI => ⟨.sec, 0x34, 1, 4⟩
  | .SEC_PROG_LEN => ⟨.sec, 0x38, 1, 4⟩
  | .SEC_OWIN_LO => ⟨.sec, 0x3c, 1, 4⟩
  | .SEC_OWIN_HI => ⟨.sec, 0x40, 1, 4⟩
  | .SEC_OWIN_LEN => ⟨.sec, 0x44, 1, 4⟩
  | .SEC_LOGN => ⟨.sec, 0x48, 1, 4⟩
  | .SEC_LCNONCE_LO => ⟨.sec, 0x4c, 1, 4⟩
  | .SEC_LCNONCE_HI => ⟨.sec, 0x50, 1, 4⟩
  | .ENR_CTL => ⟨.enr, 0x0, 1, 4⟩
  | .ENR_CFG => ⟨.enr, 0x4, 1, 4⟩
  | .ENR_STAT => ⟨.enr, 0x8, 1, 4⟩
  | .ENR_RCTX => ⟨.enr, 0xc, 1, 4⟩
  | .ENR_ACC_LO => ⟨.enr, 0x10, 1, 4⟩
  | .ENR_ACC_HI => ⟨.enr, 0x14, 1, 4⟩
  | .ENR_QUEUE_LO => ⟨.enr, 0x18, 1, 4⟩
  | .ENR_QUEUE_HI => ⟨.enr, 0x1c, 1, 4⟩
  | .ENR_STORE_LO => ⟨.enr, 0x20, 1, 4⟩
  | .ENR_STORE_HI => ⟨.enr, 0x24, 1, 4⟩
  | .ENR_STORE_CFG => ⟨.enr, 0x28, 1, 4⟩
  | .ENR_QLEN => ⟨.enr, 0x2c, 1, 4⟩
  | .ENR_BATCH_LO => ⟨.enr, 0x30, 1, 4⟩
  | .ENR_BATCH_HI => ⟨.enr, 0x34, 1, 4⟩
  | .ENR_REL_LO => ⟨.enr, 0x38, 1, 4⟩
  | .ENR_REL_HI => ⟨.enr, 0x3c, 1, 4⟩
  | .ENR_RESID => ⟨.enr, 0x40, 1, 4⟩
  | .ENR_UNSEALED => ⟨.enr, 0x44, 1, 4⟩
  | .ENR_CFG2 => ⟨.enr, 0x48, 1, 4⟩
  | .FWB_ADDR_LO => ⟨.fw, 0x0, 1, 4⟩
  | .FWB_ADDR_HI => ⟨.fw, 0x4, 1, 4⟩
  | .FWB_LEN => ⟨.fw, 0x8, 1, 4⟩
  | .FWB_CTL => ⟨.fw, 0xc, 1, 4⟩
  | .FWB_STAT => ⟨.fw, 0x10, 1, 4⟩
  | .FWS_CFG => ⟨.fw, 0x100, 1, 4⟩
  | .FWS_STAGE_LO => ⟨.fw, 0x104, 1, 4⟩
  | .FWS_STAT => ⟨.fw, 0x108, 1, 4⟩
  | .FWS_STATE => ⟨.fw, 0x10c, 1, 4⟩
  | .FWS_IGEN => ⟨.fw, 0x110, 1, 4⟩
  | .FWS_RUN => ⟨.fw, 0x114, 1, 4⟩
  | .FWS_CLEVEL => ⟨.fw, 0x118, 1, 4⟩
  | .FWS_UCFG => ⟨.fw, 0x11c, 1, 4⟩
  | .FWS_UPROG => ⟨.fw, 0x120, 1, 4⟩
  | .FWS_STAGE_HI => ⟨.fw, 0x124, 1, 4⟩
  | .FWS_CNT => ⟨.fw, 0x128, 1, 4⟩
  | .KVM_CTL => ⟨.kvm, 0x0, 1, 4⟩
  | .KVM_STAT => ⟨.kvm, 0x4, 1, 4⟩
  | .KVM_CFG => ⟨.kvm, 0x8, 1, 4⟩
  | .KVM_SEQ_LO => ⟨.kvm, 0xc, 1, 4⟩
  | .KVM_SEQ_HI => ⟨.kvm, 0x10, 1, 4⟩
  | .KVM_META_LO => ⟨.kvm, 0x14, 1, 4⟩
  | .KVM_META_HI => ⟨.kvm, 0x18, 1, 4⟩
  | .KVM_PLACE_LO => ⟨.kvm, 0x1c, 1, 4⟩
  | .KVM_PLACE_HI => ⟨.kvm, 0x20, 1, 4⟩
  | .KVM_POOL_OFF => ⟨.kvm, 0x24, 1, 4⟩
  | .KVM_SWAP_LO => ⟨.kvm, 0x28, 1, 4⟩
  | .KVM_SWAP_HI => ⟨.kvm, 0x2c, 1, 4⟩
  | .KVM_SWAP_SLOTS => ⟨.kvm, 0x30, 1, 4⟩
  | .KVM_FREE => ⟨.kvm, 0x34, 1, 4⟩
  | .KVM_CTXS => ⟨.kvm, 0x38, 1, 4⟩
  | .KVM_PREEMPTS => ⟨.kvm, 0x3c, 1, 4⟩
  | .KVM_UE_CTX => ⟨.kvm, 0x40, 1, 4⟩
  | .PFX_CFG => ⟨.kvm, 0x80, 1, 4⟩
  | .PFX_NODE_LO => ⟨.kvm, 0x84, 1, 4⟩
  | .PFX_NODE_HI => ⟨.kvm, 0x88, 1, 4⟩
  | .PFX_HIT => ⟨.kvm, 0x8c, 1, 4⟩
  | .PFX_MISS => ⟨.kvm, 0x90, 1, 4⟩
  | .PFX_EVICT => ⟨.kvm, 0x94, 1, 4⟩
  | .PFX_SKIP => ⟨.kvm, 0x98, 1, 4⟩
  | .KVM_POOL => ⟨.kvm, 0x200, 128, 4⟩
  | .LCK_CTL => ⟨.lck, 0x700, 1, 4⟩
  | .LCK_CFG => ⟨.lck, 0x704, 1, 4⟩
  | .LCK_TMO => ⟨.lck, 0x708, 1, 4⟩
  | .LCK_STAT => ⟨.lck, 0x70c, 1, 4⟩
  | .LCK_LIST_LO => ⟨.lck, 0x710, 1, 4⟩
  | .LCK_LIST_HI => ⟨.lck, 0x714, 1, 4⟩
  | .LCK_NUM => ⟨.lck, 0x718, 1, 4⟩
  | .LCK_DIVCNT => ⟨.lck, 0x71c, 1, 4⟩
  | .LCK_DIV_NUM => ⟨.lck, 0x720, 1, 4⟩
  | .LCK_DIV_LOC => ⟨.lck, 0x724, 1, 4⟩
  | .LCK_DIV_PT => ⟨.lck, 0x728, 1, 4⟩
  | .LCK_RGN_BASE_LO => ⟨.lck, 0x740, 16, 16⟩
  | .LCK_RGN_BASE_HI => ⟨.lck, 0x744, 16, 16⟩
  | .LCK_RGN_LEN => ⟨.lck, 0x748, 16, 16⟩
  | .LCK_RGN_STRIDE => ⟨.lck, 0x74c, 16, 16⟩
  | .FAB_CFG => ⟨.fab, 0x0, 1, 4⟩
  | .FAB_CTL => ⟨.fab, 0x4, 1, 4⟩
  | .FAB_STAT => ⟨.fab, 0x8, 1, 4⟩
  | .FAB_STATE => ⟨.fab, 0xc, 1, 4⟩
  | .FAB_FEC_CE => ⟨.fab, 0x10, 1, 4⟩
  | .FAB_FEC_UE => ⟨.fab, 0x14, 1, 4⟩
  | .VRX_CTL => ⟨.vrx, 0x400, 1, 4⟩
  | .VRX_CFG => ⟨.vrx, 0x404, 1, 4⟩
  | .VRX_STAT => ⟨.vrx, 0x408, 1, 4⟩
  | .VRX_IP => ⟨.vrx, 0x40c, 4, 4⟩
  | .VRX_PEER_LO => ⟨.vrx, 0x41c, 1, 4⟩
  | .VRX_PEER_HI => ⟨.vrx, 0x420, 1, 4⟩
  | .VRX_CFG2 => ⟨.vrx, 0x424, 1, 4⟩
  | .VRX_RXPOOL_LO => ⟨.vrx, 0x428, 1, 4⟩
  | .VRX_RXPOOL_HI => ⟨.vrx, 0x42c, 1, 4⟩
  | .VRX_RXPOOL => ⟨.vrx, 0x430, 1, 4⟩
  | .VRX_CRED => ⟨.vrx, 0x434, 1, 4⟩
  | .VRX_RETX => ⟨.vrx, 0x438, 1, 4⟩
  | .VRX_DROP => ⟨.vrx, 0x43c, 1, 4⟩
  | .VRX_AUTH_FAIL => ⟨.vrx, 0x440, 1, 4⟩
  | .VRX_TDC => ⟨.vrx, 0x444, 1, 4⟩
  | .VRX_WIN_LO => ⟨.vrx, 0x480, 16, 8⟩
  | .VRX_WIN_HI => ⟨.vrx, 0x484, 16, 8⟩
  | .EXH_BASE_LO => ⟨.vrx, 0x500, 1, 4⟩
  | .EXH_BASE_HI => ⟨.vrx, 0x504, 1, 4⟩
  | .EXH_DRAINED => ⟨.vrx, 0x508, 1, 4⟩
  | .TSY_CFG => ⟨.vrx, 0x580, 1, 4⟩
  | .TSY_STAT => ⟨.vrx, 0x584, 1, 4⟩
  | .TSY_OFFSET => ⟨.vrx, 0x588, 1, 4⟩
  | .WPW_CFG => ⟨.tower, 0x0, 1, 4⟩
  | .WPW_SEQ => ⟨.tower, 0x4, 1, 4⟩
  | .WPW_STAT => ⟨.tower, 0x8, 1, 4⟩
  | .WPW_SEQCNT => ⟨.tower, 0xc, 1, 4⟩
  | .WPW_DMAX => ⟨.tower, 0x10, 1, 4⟩
  | .THM_CFG => ⟨.tower, 0x100, 1, 4⟩
  | .THM_DIS => ⟨.tower, 0x104, 1, 4⟩
  | .THM_STAT => ⟨.tower, 0x108, 1, 4⟩
  | .THM_CTL => ⟨.tower, 0x10c, 1, 4⟩
  | .THM_SEL => ⟨.tower, 0x110, 1, 4⟩
  | .THM_SDATA => ⟨.tower, 0x114, 1, 4⟩
  | .THM_NSEL => ⟨.tower, 0x118, 1, 4⟩
  | .THM_NDATA => ⟨.tower, 0x11c, 1, 4⟩
  | .COOL_CFG => ⟨.tower0, 0x180, 1, 4⟩
  | .COOL_CFG2 => ⟨.tower0, 0x184, 1, 4⟩
  | .COOL_STAT => ⟨.tower0, 0x188, 1, 4⟩
  | .COOL_FLOW => ⟨.tower0, 0x18c, 1, 4⟩
  | .COOL_TEMP => ⟨.tower0, 0x190, 1, 4⟩
  | .COOL_RTH => ⟨.tower0, 0x194, 1, 4⟩
  | .COOL_TCAP => ⟨.tower0, 0x198, 1, 4⟩
  | .LUL_CFG => ⟨.tower0, 0x1c0, 1, 4⟩
  | .LUL_STATE => ⟨.tower0, 0x1c4, 1, 4⟩
  | .LUL_WAKES => ⟨.tower0, 0x1c8, 1, 4⟩
  | .FLT_CFG => ⟨.flt, 0x0, 1, 4⟩
  | .FLT_STAT => ⟨.flt, 0x4, 1, 4⟩
  | .FLT_CTL => ⟨.flt, 0x8, 1, 4⟩
  | .FLT_LOST => ⟨.flt, 0xc, 1, 4⟩
  | .FLT_TACK => ⟨.flt, 0x10, 1, 4⟩
  | .FLT_TQ => ⟨.flt, 0x14, 1, 4⟩
  | .FLT_ISEL => ⟨.flt, 0x18, 1, 4⟩
  | .FLT_IDATA => ⟨.flt, 0x1c, 1, 4⟩
  | .FLT_IDATA2 => ⟨.flt, 0x20, 1, 4⟩
  | .FLT_ACTIVE => ⟨.flt, 0x24, 1, 4⟩
  | .FLT_RXN => ⟨.flt, 0x200, 128, 4⟩
  | .EDY_CFG => ⟨.flt, 0x800, 1, 4⟩
  | .EDY_STAT => ⟨.flt, 0x804, 1, 4⟩
  | .EDY_CTL => ⟨.flt, 0x808, 1, 4⟩
  | .EDY_HEAD => ⟨.flt, 0x80c, 1, 4⟩
  | .EDY_FREEZE => ⟨.flt, 0x810, 1, 4⟩
  | .EDY_MISSED => ⟨.flt, 0x814, 1, 4⟩
  | .EDY_STATE => ⟨.flt, 0x818, 1, 4⟩
  | .TSEQ_CTL => ⟨.eng, 0x0, 1, 4⟩
  | .TSEQ_STAT => ⟨.eng, 0x4, 1, 4⟩
  | .TSEQ_TRAP => ⟨.eng, 0x8, 1, 4⟩
  | .TSEQ_TPC => ⟨.eng, 0xc, 1, 4⟩
  | .TSEQ_TVEC => ⟨.eng, 0x10, 1, 4⟩
  | .TSEQ_PBASE_LO => ⟨.eng, 0x14, 1, 4⟩
  | .TSEQ_PBASE_HI => ⟨.eng, 0x18, 1, 4⟩
  | .TSEQ_DMA => ⟨.eng, 0x1c, 1, 4⟩
  | .VEC_STAT => ⟨.eng, 0x20, 1, 4⟩
  | .SPM_OWN0 => ⟨.eng, 0x40, 1, 4⟩
  | .SPM_OWN1 => ⟨.eng, 0x44, 1, 4⟩
  | .SPM_SECURE => ⟨.eng, 0x48, 1, 4⟩
  | .SPM_HOSTATE => ⟨.eng, 0x4c, 1, 4⟩
  | .SPM_CFG => ⟨.eng, 0x50, 1, 4⟩
  | .SPM_STAT => ⟨.eng, 0x54, 1, 4⟩
  | .SPM_COLL => ⟨.eng, 0x58, 1, 4⟩
  | .SPM_COLL_LAST => ⟨.eng, 0x5c, 1, 4⟩
  | .SPM_CE_CNT => ⟨.eng, 0x60, 1, 4⟩
  | .SPM_UE_LAST => ⟨.eng, 0x64, 1, 4⟩
  | .SPM_DMACOLL => ⟨.eng, 0x68, 1, 4⟩
  | .MXA_CFG => ⟨.eng, 0x100, 1, 4⟩
  | .MXA_STAT => ⟨.eng, 0x104, 1, 4⟩
  | .MXA_STATE => ⟨.eng, 0x108, 1, 4⟩
  | .MXA_CTL => ⟨.eng, 0x10c, 1, 4⟩
  | .MXA_FED_LO => ⟨.eng, 0x110, 1, 4⟩
  | .MXA_FED_HI => ⟨.eng, 0x114, 1, 4⟩
  | .MXA_DROPPED => ⟨.eng, 0x118, 1, 4⟩
  | .MXA_SKIPGRP => ⟨.eng, 0x11c, 1, 4⟩
  | .MXA_FRZ_DRY => ⟨.eng, 0x120, 1, 4⟩
  | .MXA_FRZ_BACK => ⟨.eng, 0x124, 1, 4⟩
  | .MXA_BUBBLE => ⟨.eng, 0x128, 1, 4⟩
  | .TSK_CFG => ⟨.stop, 0x0, 1, 4⟩
  | .TSK_QLEN => ⟨.stop, 0x4, 1, 4⟩
  | .TSK_TDC => ⟨.stop, 0x8, 1, 4⟩
  | .TSK_ORPHAN => ⟨.stop, 0xc, 1, 4⟩
  | .MESH_CFG => ⟨.stop, 0x80, 1, 4⟩
  | .MESH_STAT => ⟨.stop, 0x84, 1, 4⟩
  | .MESH_LAT_MAX => ⟨.stop, 0x88, 1, 4⟩
  | .MESH_SLOT => ⟨.stop, 0x100, 64, 4⟩
  | .VCH_CFG => ⟨.stop, 0x200, 1, 4⟩
  | .VCH_STAT => ⟨.stop, 0x204, 1, 4⟩
  | .VCH_REF => ⟨.stop, 0x208, 1, 4⟩
  | .VCH_SCRUB => ⟨.stop, 0x20c, 1, 4⟩
  | .VCH_BUCKET => ⟨.stop, 0x210, 1, 4⟩
  | .VCH_CE_CNT => ⟨.stop, 0x214, 1, 4⟩
  | .VCH_UE_LO => ⟨.stop, 0x218, 1, 4⟩
  | .VCH_UE_HI => ⟨.stop, 0x21c, 1, 4⟩
  | .VCH_CAND => ⟨.stop, 0x220, 1, 4⟩
  | .VCH_TRAIN_L => ⟨.stop, 0x240, 16, 4⟩
  | .VCH_REMAP => ⟨.stop, 0x280, 32, 4⟩
  | .BSC_CFG => ⟨.stop, 0x300, 1, 4⟩
  | .BSC_STAT => ⟨.stop, 0x304, 1, 4⟩
  | .BSC_RING => ⟨.stop, 0x308, 1, 4⟩
  | .BSC_RCONS => ⟨.stop, 0x30c, 1, 4⟩
  | .BSC_DONE0 => ⟨.stop, 0x310, 1, 4⟩
  | .BSC_DONE1 => ⟨.stop, 0x314, 1, 4⟩
  | .BSC_ERRCNT => ⟨.stop, 0x318, 1, 4⟩
  | .BSC_PSRC => ⟨.stop, 0x31c, 1, 4⟩
  | .BSC_PMASK0 => ⟨.stop, 0x320, 1, 4⟩
  | .BSC_PMASK1 => ⟨.stop, 0x324, 1, 4⟩
  | .BSC_PCTL => ⟨.stop, 0x328, 1, 4⟩
  | .KVS_CFG => ⟨.stop, 0x400, 1, 4⟩
  | .KVS_HIT => ⟨.stop, 0x404, 1, 4⟩
  | .KVS_FILL => ⟨.stop, 0x408, 1, 4⟩
  | .FXR_BASE_LO => ⟨.stop, 0x500, 1, 4⟩
  | .FXR_BASE_HI => ⟨.stop, 0x504, 1, 4⟩
  | .FXR_CFG => ⟨.stop, 0x508, 1, 4⟩
  | .TPW_CFG => ⟨.stop, 0x600, 1, 4⟩
  | .TPW_TRIP => ⟨.stop, 0x604, 1, 4⟩
  | .TPW_STAT => ⟨.stop, 0x608, 1, 4⟩
  | .TPW_VMIN => ⟨.stop, 0x60c, 1, 4⟩
  | .TPW_VMIN_T_LO => ⟨.stop, 0x610, 1, 4⟩
  | .TPW_VMIN_T_HI => ⟨.stop, 0x614, 1, 4⟩
  | .TPW_I => ⟨.stop, 0x618, 1, 4⟩
  | .TPW_PSTATE => ⟨.stop, 0x61c, 1, 4⟩
  | .TPW_SWALLOW => ⟨.stop, 0x620, 1, 4⟩
  | .TPW_DROOP => ⟨.stop, 0x624, 1, 4⟩
  | .TPW_GUST => ⟨.stop, 0x628, 1, 4⟩
  | .DET_CFG => ⟨.stop, 0x700, 1, 4⟩
  | .DET_GID => ⟨.stop, 0x704, 1, 4⟩
  | .DET_CYC_LO => ⟨.stop, 0x708, 1, 4⟩
  | .DET_CYC_HI => ⟨.stop, 0x70c, 1, 4⟩
  | .DET_CAUSE => ⟨.stop, 0x710, 1, 4⟩
  | .STG_CTL => ⟨.stg, 0x0, 1, 4⟩
  | .STG_STAT => ⟨.stg, 0x4, 1, 4⟩
  | .STG_STATE => ⟨.stg, 0x8, 1, 4⟩
  | .STG_RSN => ⟨.stg, 0xc, 1, 4⟩
  | .BSC_CTRL_LO => ⟨.core, 0x0, 1, 4⟩
  | .BSC_CTRL_HI => ⟨.core, 0x4, 1, 4⟩
  | .BSC_CSTAT_LO => ⟨.core, 0x8, 1, 4⟩
  | .BSC_CSTAT_HI => ⟨.core, 0xc, 1, 4⟩
  | .BSC_CYCLES_LO => ⟨.core, 0x10, 1, 4⟩
  | .BSC_CYCLES_HI => ⟨.core, 0x14, 1, 4⟩
  | .BSC_STALLS_LO => ⟨.core, 0x18, 1, 4⟩
  | .BSC_STALLS_HI => ⟨.core, 0x1c, 1, 4⟩
  | .BSC_PAUSES_REF => ⟨.core, 0x20, 1, 4⟩
  | .BSC_PAUSES_LEASE => ⟨.core, 0x24, 1, 4⟩
  | .BSC_XCOLL => ⟨.core, 0x28, 1, 4⟩
  | .BSC_CTX => ⟨.core, 0x30, 1, 4⟩
  | .BSC_DATA_LO => ⟨.core, 0x40, 56, 8⟩
  | .BSC_DATA_HI => ⟨.core, 0x44, 56, 8⟩

/-- Every register. -/
def Reg.all : List Reg := [
  .GLB_IDENT, .GLB_FEATURES, .GLB_SERIAL_LO, .GLB_SERIAL_HI, .GLB_DISMAP, .GLB_FUSEMAP, .GLB_TIME_LO, .GLB_TIME_HI, .GLB_STAT,
  .GLB_PAR_ADDR, .GLB_SQC_LAST, .GLB_FROZEN_LAST, .MBX_CTL, .MBX_STAT, .MBX_RESULT, .MBX_RLEN, .MBX_REQ_LO, .MBX_REQ_HI,
  .MBX_REQ_LEN, .MBX_RSP_LO, .MBX_RSP_HI, .MBX_RSP_LEN, .MBX_ARG, .MBX_STATE, .MBX_CFG, .CMD_FINFO, .CMD_STAT,
  .CMD_SUM_LO, .CMD_SUM_HI, .CMD_QPSEL, .CMD_QP_SQ_LO, .CMD_QP_SQ_HI, .CMD_QP_CQ_LO, .CMD_QP_CQ_HI, .CMD_QP_DB_LO, .CMD_QP_DB_HI,
  .CMD_QP_CFG, .CMD_QP_COAL, .CMD_QP_STATE, .CMD_POLL, .CMD_FQ, .CMD_FDA, .PCI_LINK, .PCI_STAT, .PCI_CFG,
  .PCI_CNT, .PCI_DBG, .BOOT_STAT, .BOOT_CFG, .BOOT_CTL, .BOOT_REP, .RST_CTL, .RST_STAT, .RST_STATE,
  .RST_DL0, .RST_DL1, .RST_CNT, .RST_LAST, .PWR_CAP, .PWR_SBCAP, .PWR_CFG, .PWR_STAT, .PWR_AVG,
  .PWR_PROF_SEL, .PWR_PROF_DATA, .PWR_CLAMPS, .SEC_LC, .SEC_STAT, .SEC_CONF, .SEC_TAMPER, .SEC_MR, .SEC_PROG_LO,
  .SEC_PROG_HI, .SEC_PROG_LEN, .SEC_OWIN_LO, .SEC_OWIN_HI, .SEC_OWIN_LEN, .SEC_LOGN, .SEC_LCNONCE_LO, .SEC_LCNONCE_HI, .ENR_CTL,
  .ENR_CFG, .ENR_STAT, .ENR_RCTX, .ENR_ACC_LO, .ENR_ACC_HI, .ENR_QUEUE_LO, .ENR_QUEUE_HI, .ENR_STORE_LO, .ENR_STORE_HI,
  .ENR_STORE_CFG, .ENR_QLEN, .ENR_BATCH_LO, .ENR_BATCH_HI, .ENR_REL_LO, .ENR_REL_HI, .ENR_RESID, .ENR_UNSEALED, .ENR_CFG2,
  .FWB_ADDR_LO, .FWB_ADDR_HI, .FWB_LEN, .FWB_CTL, .FWB_STAT, .FWS_CFG, .FWS_STAGE_LO, .FWS_STAT, .FWS_STATE,
  .FWS_IGEN, .FWS_RUN, .FWS_CLEVEL, .FWS_UCFG, .FWS_UPROG, .FWS_STAGE_HI, .FWS_CNT, .KVM_CTL, .KVM_STAT,
  .KVM_CFG, .KVM_SEQ_LO, .KVM_SEQ_HI, .KVM_META_LO, .KVM_META_HI, .KVM_PLACE_LO, .KVM_PLACE_HI, .KVM_POOL_OFF, .KVM_SWAP_LO,
  .KVM_SWAP_HI, .KVM_SWAP_SLOTS, .KVM_FREE, .KVM_CTXS, .KVM_PREEMPTS, .KVM_UE_CTX, .PFX_CFG, .PFX_NODE_LO, .PFX_NODE_HI,
  .PFX_HIT, .PFX_MISS, .PFX_EVICT, .PFX_SKIP, .KVM_POOL, .LCK_CTL, .LCK_CFG, .LCK_TMO, .LCK_STAT,
  .LCK_LIST_LO, .LCK_LIST_HI, .LCK_NUM, .LCK_DIVCNT, .LCK_DIV_NUM, .LCK_DIV_LOC, .LCK_DIV_PT, .LCK_RGN_BASE_LO, .LCK_RGN_BASE_HI,
  .LCK_RGN_LEN, .LCK_RGN_STRIDE, .FAB_CFG, .FAB_CTL, .FAB_STAT, .FAB_STATE, .FAB_FEC_CE, .FAB_FEC_UE, .VRX_CTL,
  .VRX_CFG, .VRX_STAT, .VRX_IP, .VRX_PEER_LO, .VRX_PEER_HI, .VRX_CFG2, .VRX_RXPOOL_LO, .VRX_RXPOOL_HI, .VRX_RXPOOL,
  .VRX_CRED, .VRX_RETX, .VRX_DROP, .VRX_AUTH_FAIL, .VRX_TDC, .VRX_WIN_LO, .VRX_WIN_HI, .EXH_BASE_LO, .EXH_BASE_HI,
  .EXH_DRAINED, .TSY_CFG, .TSY_STAT, .TSY_OFFSET, .WPW_CFG, .WPW_SEQ, .WPW_STAT, .WPW_SEQCNT, .WPW_DMAX,
  .THM_CFG, .THM_DIS, .THM_STAT, .THM_CTL, .THM_SEL, .THM_SDATA, .THM_NSEL, .THM_NDATA, .COOL_CFG,
  .COOL_CFG2, .COOL_STAT, .COOL_FLOW, .COOL_TEMP, .COOL_RTH, .COOL_TCAP, .LUL_CFG, .LUL_STATE, .LUL_WAKES,
  .FLT_CFG, .FLT_STAT, .FLT_CTL, .FLT_LOST, .FLT_TACK, .FLT_TQ, .FLT_ISEL, .FLT_IDATA, .FLT_IDATA2,
  .FLT_ACTIVE, .FLT_RXN, .EDY_CFG, .EDY_STAT, .EDY_CTL, .EDY_HEAD, .EDY_FREEZE, .EDY_MISSED, .EDY_STATE,
  .TSEQ_CTL, .TSEQ_STAT, .TSEQ_TRAP, .TSEQ_TPC, .TSEQ_TVEC, .TSEQ_PBASE_LO, .TSEQ_PBASE_HI, .TSEQ_DMA, .VEC_STAT,
  .SPM_OWN0, .SPM_OWN1, .SPM_SECURE, .SPM_HOSTATE, .SPM_CFG, .SPM_STAT, .SPM_COLL, .SPM_COLL_LAST, .SPM_CE_CNT,
  .SPM_UE_LAST, .SPM_DMACOLL, .MXA_CFG, .MXA_STAT, .MXA_STATE, .MXA_CTL, .MXA_FED_LO, .MXA_FED_HI, .MXA_DROPPED,
  .MXA_SKIPGRP, .MXA_FRZ_DRY, .MXA_FRZ_BACK, .MXA_BUBBLE, .TSK_CFG, .TSK_QLEN, .TSK_TDC, .TSK_ORPHAN, .MESH_CFG,
  .MESH_STAT, .MESH_LAT_MAX, .MESH_SLOT, .VCH_CFG, .VCH_STAT, .VCH_REF, .VCH_SCRUB, .VCH_BUCKET, .VCH_CE_CNT,
  .VCH_UE_LO, .VCH_UE_HI, .VCH_CAND, .VCH_TRAIN_L, .VCH_REMAP, .BSC_CFG, .BSC_STAT, .BSC_RING, .BSC_RCONS,
  .BSC_DONE0, .BSC_DONE1, .BSC_ERRCNT, .BSC_PSRC, .BSC_PMASK0, .BSC_PMASK1, .BSC_PCTL, .KVS_CFG, .KVS_HIT,
  .KVS_FILL, .FXR_BASE_LO, .FXR_BASE_HI, .FXR_CFG, .TPW_CFG, .TPW_TRIP, .TPW_STAT, .TPW_VMIN, .TPW_VMIN_T_LO,
  .TPW_VMIN_T_HI, .TPW_I, .TPW_PSTATE, .TPW_SWALLOW, .TPW_DROOP, .TPW_GUST, .DET_CFG, .DET_GID, .DET_CYC_LO,
  .DET_CYC_HI, .DET_CAUSE, .STG_CTL, .STG_STAT, .STG_STATE, .STG_RSN, .BSC_CTRL_LO, .BSC_CTRL_HI, .BSC_CSTAT_LO,
  .BSC_CSTAT_HI, .BSC_CYCLES_LO, .BSC_CYCLES_HI, .BSC_STALLS_LO, .BSC_STALLS_HI, .BSC_PAUSES_REF, .BSC_PAUSES_LEASE, .BSC_XCOLL, .BSC_CTX,
  .BSC_DATA_LO, .BSC_DATA_HI]

end Sys2Proof.Machine
end

