-- ==== Sys2Proof/Machine/StateTile.lean ====
section
/-! DEFINITION. Plain data of the tile engine, its matrix array and its stop (chapters 2 to 6). -/

namespace Sys2Proof.Machine

/-- An exact value: NaN, an infinity or ±m·2^e (R84). -/
inductive FV where
  | nan
  | inf (neg : Bool)
  | fin (neg : Bool) (m : Nat) (e : Int)
  deriving DecidableEq, Repr

/-- The MXS fields of R30's table, with the scalar registers it names as they stood when it issued. -/
structure Mxs where
  mode : Nat
  af : Nat
  bf : Nat
  sat : Bool
  acc : Bool
  qa : Nat
  mask : Nat
  keep : Bool
  zf : Bool
  odf : Nat
  qop : Nat
  tag : Nat
  rows : Nat
  src : Nat
  dch : Nat
  fold : Nat
  kb : Nat
  nb : Nat
  sbase : Nat
  bbase : Nat
  dbase : Nat
  sstride : Nat
  dstride : Nat
  mA : Nat
  mB : Nat
  deriving DecidableEq, Repr

/-- A pass in the array queue: its next row, whether its block is in the shadow registers, whether its front has entered. -/
structure Pass where
  op : Mxs
  id : Nat
  row : Nat
  loaded : Bool
  started : Bool
  deriving DecidableEq, Repr

/-- A stationary block with the settings R31 records of the MXS that loaded it. -/
structure Block where
  mode : Nat
  fold : Nat
  kbm : Nat
  nbm : Nat
  fmt : Nat
  dat : List (List FV)
  deriving DecidableEq, Repr

/-- What the drain does with a row (R46 to R48). -/
inductive OutAct where | write | zero | drop
  deriving DecidableEq, Repr

/-- A result row between the cells and the drain buffer: tc left, destination and exact results. -/
structure OutRow where
  op : Mxs
  pass : Nat
  last : Bool
  left : Nat
  addr : Nat
  act : OutAct
  res : List FV
  deriving DecidableEq, Repr

/-- A row in the drain buffer: tc left before its write, and the line accesses that it still needs: 2 × line for a read, 2 × line + 1
for a write (R35). -/
structure BufRow where
  row : OutRow
  wait : Nat
  need : List Nat
  deriving DecidableEq, Repr

/-- The matrix array of one tile (chapter 2). -/
structure Arr where
  queue : List Pass
  active : Option Block
  shadow : Option Block
  flight : List OutRow
  buf : List BufRow
  /-- Settings of the block that the last MXS with KEEP = 0 since the last discard loads: mode, fold, KB_M1, NB_M1, format. -/
  held : Option (List Nat)
  osAcc : List (List FV)
  /-- West and north rows of the K-block being fed in OS mode (R461), by row. -/
  osWest : SMap (List Byte)
  osNorth : SMap (List Byte)
  osPend : Option (Mxs × Nat)
  lane : Nat
  frozenFor : Nat
  frozenNow : Bool
  stalled : Bool
  nextId : Nat
  /-- Lines granted for the rows and the mask byte of the step that is due: place of the requester in R104, line. -/
  got : List (Nat × Nat)
  deriving DecidableEq, Repr

def Arr.empty : Arr := ⟨[], none, none, [], [], none, [], [], [], none, 0, 0, false, false, 0, []⟩

/-- A DMA descriptor of R63, decoded. -/
structure DmaDesc where
  sspace : Nat
  stile : Nat
  saddr : Nat
  dspace : Nat
  dtile : Nat
  daddr : Nat
  rowLen : Nat
  tag : Nat
  mode : Nat
  rows : Nat
  sstride : Int
  dstride : Int
  bad : Bool
  deriving DecidableEq, Repr

/-- The error that a channel halted with (R64, R65, R75, R107, R118, R142, R384). -/
inductive ChanErr where
  | address | mismatch | leftover | ownership | spmOwner | engineOff | engineFenced | dramUe | spmUe | pathReset
  deriving DecidableEq, Repr

/-- A descriptor in a channel queue: the TGET epoch it was issued in, rows moved (all below `low`, and `extra`), the stream
rows delivered and not yet taken, how many were taken, and the row that ends the descriptor, with its error. -/
structure DmaRun where
  d : DmaDesc
  epoch : Nat
  started : Bool
  low : Nat
  extra : List Nat
  rows : SMap (List Byte)
  taken : Nat
  ueRow : Option (Nat × ChanErr)
  deriving DecidableEq, Repr

/-- A DMA channel: its queue and the error completion that it halted with. -/
structure Chan where
  queue : List DmaRun
  err : Option ChanErr
  deriving DecidableEq, Repr

def Chan.empty : Chan := ⟨[], none⟩

/-- A tasklet table entry with its index (R66). -/
structure Task where
  idx : Nat
  home : Nat
  pinned : Bool
  rerun : Bool
  args : List Byte
  disp : Nat
  deriving DecidableEq, Repr

/-- Engine power states of R75. -/
inductive Power where | fusedOff | off | lull2 | lull1 | on
  deriving DecidableEq, Repr

/-- A steal walk of R70: the stops left to try, the one asked, its reply, and the mesh cycle in which it was asked. -/
structure Steal where
  left : List Nat
  asked : Option Nat
  reply : Option (Option Task)
  sent : Nat
  deriving DecidableEq, Repr

/-- One tile engine. -/
structure Eng where
  power : Power
  fenced : Bool
  inReset : Bool
  pc : Nat
  sreg : SMap DWord
  vreg : SMap Word
  inHandler : Bool
  trapMxs : Bool
  active : Bool
  disp : Option Nat
  task : Option Task
  epoch : Nat
  /-- The latest epoch in which a descriptor that a channel halted on was issued (R60, R69). -/
  haltEpoch : Option Nat
  /-- The first pass number of the current tasklet (R69). -/
  mark : Nat
  stall : Option Word
  waitTask : Option Task
  noTask : Bool
  atBarrier : Bool
  steal : Option Steal
  /-- The instruction cache by set: up to four lines with their numbers, latest filled first (R58). -/
  lines : SMap (List (Nat × List Byte))
  chans : SMap Chan
  arr : Arr
  pendMx : Bool
  fence : Option Nat
  /-- Scratchpad banks in hand-over with the outgoing class (R111), banks in wipe (R113), corrected words that wait for their write-back (R116). -/
  hand : SMap Nat
  wiping : List Nat
  wback : List Nat
  /-- SECURE bits that clear when their bank's wipe ends (R114). -/
  unsecure : List Nat
  /-- A packet has asked the clock-gated engine to wake (R75). -/
  wake : Bool
  /-- The latched upper half of the fed count (R57) and the count itself. -/
  fed : Nat
  /-- Scratchpad ports (R104, R105): tc that a requester has waited by 32 × port + requester, the DMA channel served last by port. -/
  portWait : SMap Nat
  portLast : SMap Nat
  /-- The part of a dispatch has ended with its passes still in the array: the first pass number that is not one of them (R49). -/
  behind : Option Nat
  deriving DecidableEq, Repr

def Eng.off : Eng :=
  { power := .off, fenced := false, inReset := false, pc := 0, sreg := [], vreg := [], inHandler := false, trapMxs := false, active := false
    disp := none, task := none, epoch := 0, haltEpoch := none, mark := 0, stall := none, waitTask := none, noTask := false, atBarrier := false
    steal := none, lines := [], chans := [], arr := Arr.empty, pendMx := false, fence := none, hand := [], wiping := [], wback := [], unsecure := [], wake := false, fed := 0
    portWait := [], portLast := [], behind := none }

/-- A packet held in the engine ingress buffer of R75: its sender (128 for the service core), address in scratchpad, the bytes that it
reads, or data, and the banks that have been handed over since the stop accepted it (R111). -/
structure Held where
  from_ : Nat
  chan : Nat
  addr : Nat
  read : Nat
  data : List Byte
  granted : List Nat
  deriving DecidableEq, Repr

/-- One stop: tasklet queue (R66), table position, TSK_TDC at the dispatch's start, ingress buffer (R75); open row, last request, owed
refreshes, last refresh and next refresh of each bank (mc), correction tracker (row, count; latest first), next patrol atom and the ns of
the last patrol read and of the last leak (R123 to R139); last ACT of each layer (mc, R157), the producer index read from the launch ring
(R153), the mesh cycle of the last VC0 injection (R78), those of the last data slots (R303); the wide-attention staging buffer (R206), most recently used first: page frame
number and its valid atoms. -/
structure Stop where
  queue : List Task
  scan : Nat
  tdc0 : Nat
  ingress : List Held
  rowOf : SMap Nat
  lastUse : SMap Nat
  owed : SMap Nat
  lastRef : SMap Nat
  nextRef : SMap Nat
  track : List (Nat × Nat)
  scrub : Nat
  scrubAt : Nat
  leakAt : Nat
  acts : SMap Nat
  /-- The sweep under way in a layer: windows done, passing steps by bit (64 capture, then 64 launch), ns of the last window (R422). -/
  sweep : SMap (Nat × Nat × Nat)
  ringProd : Nat
  lastVc0 : Option Nat
  slotUse : List Nat
  /-- Mesh cycle of the last queue operation (R67), of the last flit granted at each output port (R78), and the direction chosen for each
  adaptive message that is not complete (R81). -/
  lastOp : Option Nat
  portUse : SMap Nat
  routes : SMap Nat
  stage : List (Nat × SMap (List Byte))
  deriving DecidableEq, Repr

def Stop.empty : Stop :=
  { queue := [], scan := 0, tdc0 := 0, ingress := [], rowOf := [], lastUse := [], owed := [], lastRef := [], nextRef := [], track := [], scrub := 0
    scrubAt := 0, leakAt := 0, acts := [], sweep := [], ringProd := 0, lastVc0 := none, slotUse := [], lastOp := none, portUse := [], routes := [], stage := [] }

/-- The flits of a packet in one input buffer: the stop, the input port (5 local, 6 express lanes), the buffer class (R81), the mesh
cycles in which its flits arrived, oldest first, and whether its first flit has left. -/
structure Seg where
  at_ : Nat
  inp : Nat
  cls : Nat
  arr : List Nat
  begun : Bool
  deriving DecidableEq, Repr

/-- A mesh packet under way: virtual channel, source and destination (a tile's stop, or 128 + tower for a base die), the stops where it
enters and leaves the mesh, strictness, the direction taken round the ring of towers (1 up, 3 down), the mesh cycle of its injection,
its flits, those not yet in the first buffer, those that have left the mesh, and its buffers, nearest to the destination first. -/
structure Packet where
  vc : Nat
  src : Nat
  dst : Nat
  start : Nat
  stop_ : Nat
  strict : Bool
  via : Nat
  born : Nat
  flits : Nat
  rest : Nat
  out : Nat
  segs : List Seg
  deriving DecidableEq, Repr

/-- Who is charged (R317, R318): one context, or the items of a step set. -/
structure Charge where
  items : List (Nat × Nat)
  set : Bool
  deriving DecidableEq, Repr
/-- A single context. -/
def Charge.one (c : Nat) : Charge := ⟨[(c, 1)], false⟩

/-- A running or finished dispatch (R463): the descriptor it came from, its group, the status it will complete with. -/
structure Disp where
  qp : Nat
  didx : Nat
  ctx : Nat
  group : Nat
  mode : Nat
  gid : Nat
  ttab : Nat
  ntask : Nat
  commits : Nat
  stopped : Bool
  status : Option (Nat × Nat × Nat × Nat)
  /-- Mesh cycle and tile of the event that gave the status (R463), and HOME of each entry as first read (R462). -/
  statusAt : Nat × Nat
  homes : List Nat
  done : Nat
  running : Bool
  released : Bool
  cause : Nat
  fabTdc : Nat
  startMc : Nat
  num : Option Nat
  charge : Charge
  deriving DecidableEq, Repr

end Sys2Proof.Machine
end

