-- ==== Sys2Proof/Machine/Floats.lean ====
section
/-! DEFINITION. Number formats and their arithmetic (chapter 4): exact values, decoding, rounding, the conversions of the drain and
of QA. -/

namespace Sys2Proof.Machine

/-! ### Exact values -/

def FV.zero : FV := .fin false 0 0
def FV.neg : FV → FV
  | .nan => .nan
  | .inf n => .inf (!n)
  | .fin n m e => .fin (!n) m e
def FV.isNeg : FV → Bool
  | .nan => false
  | .inf n => n
  | .fin n _ _ => n
def FV.isZero : FV → Bool
  | .fin _ m _ => m == 0
  | _ => false

/-- ±m as an integer. -/
def sgn (n : Bool) (m : Nat) : Int := if n then -(m : Int) else m

/-- Exact product under R92. -/
def FV.mul : FV → FV → FV
  | .nan, _ => .nan
  | _, .nan => .nan
  | .inf a, .inf b => .inf (a != b)
  | .inf a, .fin b m _ => if m = 0 then .nan else .inf (a != b)
  | .fin a m _, .inf b => if m = 0 then .nan else .inf (a != b)
  | .fin a m e, .fin b k f => .fin (a != b) (m * k) (e + f)

/-- Exact sum under R90 and R92: two zeros of opposite sign give +0, an exact cancellation gives +0. -/
def FV.add : FV → FV → FV
  | .nan, _ => .nan
  | _, .nan => .nan
  | .inf a, .inf b => if a = b then .inf a else .nan
  | .inf a, _ => .inf a
  | _, .inf b => .inf b
  | .fin a m e, .fin b k f =>
    let g := min e f
    let i := sgn a (m * 2 ^ (e - g).toNat) + sgn b (k * 2 ^ (f - g).toNat)
    if i = 0 then .fin (a && b) 0 0 else .fin (decide (i < 0)) i.natAbs g

/-- Exact order of finite values and infinities; NaN compares false. -/
def FV.lt : FV → FV → Bool
  | .nan, _ => false
  | _, .nan => false
  | .inf a, .inf b => a && !b
  | .inf a, _ => a
  | _, .inf b => !b
  | .fin a m e, .fin b k f =>
    let g := min e f
    decide (sgn a (m * 2 ^ (e - g).toNat) < sgn b (k * 2 ^ (f - g).toNat))
/-- Scale by 2^k. -/
def FV.scale (v : FV) (k : Int) : FV :=
  match v with
  | .fin n m e => .fin n m (e + k)
  | w => w

/-! ### Formats (R84) -/

/-- How a format spells infinities and NaNs: IEEE, FP8 E4M3 (no infinity, one NaN), or neither. -/
inductive Special where | ieee | e4m3 | neither
  deriving DecidableEq, Repr
/-- A floating-point format: exponent bits, mantissa bits, bias. -/
structure Fmt where
  eb : Nat
  mb : Nat
  bias : Nat
  sp : Special
  deriving DecidableEq, Repr
def fmtFP32 : Fmt := ⟨8, 23, 127, .ieee⟩
def fmtBF16 : Fmt := ⟨8, 7, 127, .ieee⟩
def fmtFP16 : Fmt := ⟨5, 10, 15, .ieee⟩
def fmtE4M3 : Fmt := ⟨4, 3, 7, .e4m3⟩
def fmtE5M2 : Fmt := ⟨5, 2, 15, .ieee⟩
def fmtE2M3 : Fmt := ⟨2, 3, 1, .neither⟩
def fmtE3M2 : Fmt := ⟨3, 2, 3, .neither⟩
def fmtE2M1 : Fmt := ⟨2, 1, 1, .neither⟩

def Fmt.width (f : Fmt) : Nat := 1 + f.eb + f.mb
/-- Exponent of the smallest subnormal. -/
def Fmt.emin (f : Fmt) : Int := 1 - (f.bias : Int) - f.mb
/-- The largest finite code without its sign. -/
def Fmt.maxCode (f : Fmt) : Nat :=
  match f.sp with
  | .ieee => (2 ^ f.eb - 1) * 2 ^ f.mb - 1
  | .e4m3 => 2 ^ (f.eb + f.mb) - 2
  | .neither => 2 ^ (f.eb + f.mb) - 1
/-- The canonical quiet NaN (R92). -/
def Fmt.nanCode (f : Fmt) : Nat :=
  match f.sp with
  | .ieee => (2 ^ f.eb - 1) * 2 ^ f.mb + 2 ^ (f.mb - 1)
  | _ => 2 ^ (f.eb + f.mb) - 1
/-- The magnitude of a finite code. -/
def Fmt.mag (f : Fmt) (c : Nat) : Nat × Int :=
  let ef := c / 2 ^ f.mb
  let mf := c % 2 ^ f.mb
  if ef = 0 then (mf, f.emin) else (2 ^ f.mb + mf, f.emin + (ef - 1 : Nat))
/-- The value of a code (R84). -/
def Fmt.decode (f : Fmt) (c : Nat) : FV :=
  let neg := bitOf c (f.eb + f.mb)
  let b := c % 2 ^ (f.eb + f.mb)
  match f.sp with
  | .ieee =>
    if b / 2 ^ f.mb = 2 ^ f.eb - 1 then (if b % 2 ^ f.mb = 0 then .inf neg else .nan)
    else .fin neg (f.mag b).1 (f.mag b).2
  | .e4m3 => if b = 2 ^ (f.eb + f.mb) - 1 then .nan else .fin neg (f.mag b).1 (f.mag b).2
  | .neither => .fin neg (f.mag b).1 (f.mag b).2

/-- m·2^e rounded to a multiple of 2^q, to nearest, ties to even. -/
def rne (m : Nat) (e q : Int) : Nat :=
  if q ≤ e then m * 2 ^ (e - q).toNat
  else
    let d := (q - e).toNat
    let lo := m / 2 ^ d
    let r := m % 2 ^ d
    if 2 * r < 2 ^ d then lo else if 2 * r > 2 ^ d then lo + 1 else lo + lo % 2

/-- The magnitude m·2^e reaches the overflow threshold of R93: the largest finite value plus half the spacing above it. -/
def Fmt.overflows (f : Fmt) (m : Nat) (e : Int) : Bool :=
  let x := f.mag f.maxCode
  let g := min e (x.2 - 1)
  decide ((2 * x.1 + 1) * 2 ^ (x.2 - 1 - g).toNat ≤ m * 2 ^ (e - g).toNat)

/-- Round a finite magnitude below the overflow threshold to its code, without the sign. -/
def Fmt.roundMag (f : Fmt) (m : Nat) (e : Int) : Nat :=
  if m = 0 then 0
  else
    let q := max f.emin (e + (Nat.log2 m : Int) - f.mb)
    let r := rne m e q
    min (r + (q - f.emin).toNat * 2 ^ f.mb) f.maxCode

/-- The conversion of R93 and R94: the code, and whether SAT_HIT is set. `fromInside` marks an infinity that FP32 cells made
(R90), which sets nothing without SAT. -/
def Fmt.convert (f : Fmt) (sat : Bool) (v : FV) : Nat × Bool :=
  let sgnBit (n : Bool) := b2n n * 2 ^ (f.eb + f.mb)
  match v with
  | .nan => (f.nanCode, false)
  | .inf n =>
    if sat then (f.maxCode + sgnBit n, true)
    else match f.sp with
      | .ieee => ((2 ^ f.eb - 1) * 2 ^ f.mb + sgnBit n, false)
      | .e4m3 => (f.nanCode, false)
      | .neither => (f.maxCode + sgnBit n, false)
  | .fin n m e =>
    if f.overflows m e then
      if sat then (f.maxCode + sgnBit n, true)
      else match f.sp with
        | .ieee => ((2 ^ f.eb - 1) * 2 ^ f.mb + sgnBit n, true)
        | .e4m3 => (f.nanCode, true)
        | .neither => (f.maxCode + sgnBit n, true)
    else (f.roundMag m e + sgnBit n, false)

/-- Round to FP32 inside the cells and vector lanes: overflow gives infinity (R90). -/
def FV.toF32 (v : FV) : FV := fmtFP32.decode (fmtFP32.convert false v).1
/-- FP32 bits of a value. -/
def FV.bits32 (v : FV) : Nat := (fmtFP32.convert false v).1
/-- The value of FP32 bits. -/
def f32 (b : Nat) : FV := fmtFP32.decode b

/-! ### MX blocks and QA (R85, R95) -/

/-- An element of an MX block: NaN under a scale of 0xFF, else 2^(s − 127) times the element (R85). -/
def mxValue (f : Fmt) (scale code : Nat) : FV :=
  if scale = 255 then .nan else (f.decode code).scale ((scale : Int) - 127)

/-- The exponent of a format's largest finite value, as R95 uses it. -/
def emax (f : Fmt) : Int := if f = fmtE4M3 then 8 else 2

/-- floor(log2 of a magnitude). -/
def floorLog2 (m : Nat) (e : Int) : Int := e + (Nat.log2 m : Int)

/-- QA on one 32-element block (R95, R96): the values that the elements of the converted block stand for. -/
def qaBlock (f : Fmt) (xs : List FV) : List FV :=
  if xs.any (fun x => match x with | .fin _ _ _ => false | _ => true) then xs.map (fun _ => .nan)
  else
    let amaxLog := xs.foldl (fun (a : Option Int) x => match x with
      | .fin _ m e => if m = 0 then a else match a with
        | none => some (floorLog2 m e)
        | some b => some (max b (floorLog2 m e))
      | _ => a) none
    match amaxLog with
    | none => xs
    | some l =>
      let x := max (-127) (min 127 (l - emax f))
      xs.map (fun v => (f.decode (f.convert true (v.scale (-x))).1).scale x)

/-! ### Packed elements (R86) -/

/-- Element i of a packed run of w-bit elements. -/
def packedAt (bs : List Byte) (w i : Nat) : Nat :=
  let n := leNat ((bs.drop (w * i / 8)).take ((w + 7) / 8 + 1))
  (n / 2 ^ (w * i % 8)) % 2 ^ w
/-- Pack w-bit codes into bytes. -/
def packCodes (w : Nat) (cs : List Nat) : List Byte :=
  leBytes ((w * cs.length + 7) / 8) (cs.zipIdx.foldl (fun a p => a + p.1 * 2 ^ (w * p.2)) 0)

end Sys2Proof.Machine
end

