-- ==== Sys2Proof/Config.lean ====
section
/-! DEFINITION. What one part fixes in its fuses and flash, and the values the spec leaves open.

The `opaque` constants have no body that Lean can evaluate: a statement that holds for the model holds for every value of
them.  The fused and flashed values are those of one part of grade /128 with every optional function, the part that the
spec's own examples use (DESIGN CHOICE, log entry 3). -/

namespace Sys2Proof.Config

/-- A fresh free value of `w` bits; the argument is the model's own counter `State.free` (log entry 11). -/
opaque freeValue : (w : Nat) → Nat → BitVec w

/-- Which of the results that R99 admits a transcendental returns; the same for the same bits on every part (R100). Arguments:
VOP operation, operand bits (log entry 10). -/
opaque transIndex : Nat → Nat → Nat

/-- ML-DSA-65 and ML-DSA-87 signing: parameter set, private key, message. The spec names ML-DSA, ML-KEM and X.509 and leaves them to their
own standards (log entry 9). -/
opaque mldsaSign : Nat → List Byte → List Byte → List Byte
/-- ML-DSA verification: parameter set, public key, message, signature. -/
opaque mldsaVerify : Nat → List Byte → List Byte → List Byte → Bool
/-- ML-DSA public key of a private key. -/
opaque mldsaPub : Nat → List Byte → List Byte
/-- ML-KEM-768 encapsulation key of a seed. -/
opaque mlkemPub : List Byte → List Byte
/-- Whether an X.509 certificate chains to Kingetrix's root and certifies a key. -/
opaque certOk : List Byte → List Byte → Bool
/-- The fused unique device secret, the certificate of the root key, the digest of the boot ROM, what the test wrote into the identity
record of each die (R337: LOT, WAFER, DIE_X, DIE_Y, TESTREV and TESTDATE, 17 bytes), and the public keys of Kingetrix: provisioning,
return, firmware slots 0 and 1. -/
opaque uds : BitVec 256
opaque rkCert : List Byte
opaque romDigest : BitVec 256
opaque dieFuse : Nat → BitVec 136
opaque provisionKey : List Byte
opaque returnKey : List Byte
/-- Public key of a firmware key slot, digest that the boot ROM holds for the slot, and whether the slot's revoke fuse is blown (R342). -/
opaque fwKey : Nat → List Byte
opaque keySlot : Nat → BitVec 256
opaque revoked : Nat → Bool
/-- The recovery image that the module flash holds at first (R408). -/
opaque recImage : List Byte
/-- The low 31 bits of the number that a request for an activation mark carries where a request for a chunk names it (R420): the
spec states no form for that request (log entry 26). -/
opaque markReq : BitVec 31
/-- ML-KEM encapsulation with the randomness drawn: shared secret and ciphertext. -/
opaque mlkemEncap : List Byte → Nat → List Byte × List Byte
/-- ML-KEM decapsulation. -/
opaque mlkemDecap : List Byte → List Byte → List Byte

/-- The contents of HSTATE, which R179 calls internal to the KV manager: a function of the chain and the tokens of the block in
progress (log entry 9). -/
opaque hstate : Nat → List Nat → BitVec 320
/-- The rank by which the first start of the KV manager orders each free list; the spec states no order (log entry 14). -/
opaque poolRank : Nat → Nat

/-- N of grade /N (R1), the optional functions of `GLB_FEATURES` (R5), the fused-off tiles. -/
def grade : Nat := 128
def featPorts : Nat := 3
def featWideAtt : Nat := 1
def featBsc : Nat := 1
def featConf : Nat := 1
def serialLo : Nat := 1
def serialHi : Nat := 0
/-- Bit t: tile t is fused off (R4). -/
def fuseMap : Nat := 0
/-- The security version of the boot image's first measurement and the calibration table of the module flash. -/
opaque calTable : List Byte
/-- Fused lifecycle state, key epoch, tamper count and security version of `SEC_LC`. -/
def lcState : Nat := 2
def lcKeyEpoch : Nat := 1
def lcTampers : Nat := 0
def lcSvn : Nat := 0
/-- The owner key of the fused epoch (R340). -/
opaque ownerKey : List Byte
/-- The nonce of `SEC_LCNONCE`, drawn at random at each start. -/
opaque lcNonce : BitVec 64

end Sys2Proof.Config
end

