-- ==== Sys2Proof/Machine/StateBlk.lean ====
section
/-! DEFINITION. Plain data of the KV manager, energy metering and the fabric (chapters 8, 9 and 14). -/

namespace Sys2Proof.Machine

/-! ### The KV manager (chapter 8) -/

/-- An entry of the prefix directory: hash, namespace, block index, node number (R191). -/
structure DirEntry where
  hash : Nat
  ns : Nat
  block : Nat
  node : Nat
  deriving DecidableEq, Repr

/-- A swap transfer of a context (R197, R199): the descriptor that waits for it; what is left, as (PTE index, PFN) for a
swap-out and (PTE index, slot) for a swap-in; pages moved; the pages placed for a swap-in, one for each entry of `todo`; the
slot that a swap-out is writing; the PTE indices restored so far; the status with which the descriptor is to complete. -/
structure Swap where
  desc : Option (Nat × Nat)
  todo : List (Nat × Nat)
  moved : Nat
  placed : List Nat
  slot : Option Nat
  restored : List Nat
  st : Nat
  deriving DecidableEq, Repr

/-- The KV manager beside its registers and its tables in device memory: first start made, initialisation under way, KV manager
descriptors in the order fetched (R172), free lists by slice (head first, mirrored in NEXT), pages being zeroed, pages whose
last holder had CONF = 1 (R177), contexts not FREE, swap-outs and swap-ins by context, KV_SWAP_INs that found the pool short, SEQ_CLOSEs that
wait for their context's transfers (R186),
prefix directory by set (latest used first), session of each CONF context, tokens of the block in progress behind HSTATE, nodes
that a context's step is building (node, block), latest BEGIN of each queue pair (context, N) (R318), contexts closed in the
current period (R323), swap transfers held since the link was lost (R271). -/
structure Kv where
  inited : Bool
  initing : Bool
  order : List (Nat × Nat)
  free : SMap (List Nat)
  zeroing : List Nat
  confPages : List Nat
  ctxs : List Nat
  outs : SMap Swap
  ins : SMap Swap
  short : List (Nat × Nat)
  closeWait : List (Nat × Nat)
  dir : SMap (List DirEntry)
  sid : SMap Nat
  toks : SMap (List Nat)
  nodes : SMap (List (Nat × Nat))
  steps : SMap (List (Nat × Nat))
  closed : List Nat
  held : Bool
  deriving DecidableEq, Repr

def Kv.empty : Kv := ⟨false, false, [], [], [], [], [], [], [], [], [], [], [], [], [], [], [], false⟩

/-! ### Energy metering and receipts (chapter 14) -/

/-- The time during which an engine (its tile), a bank-side core (128 + 64·tile + core) or the array of a tile behind an ended part
(8320 + tile, R49) worked for a charge (R317, R321). -/
structure Use where
  unit : Nat
  charge : Charge
  start : Nat
  stop_ : Option Nat
  deriving DecidableEq, Repr

/-- A SEQ_CLOSE of the current period: descriptor, context, GEN, REQ_ID, START, END, CONF (R325), and bytes 88–119 of its record. -/
structure Closing where
  qp : Nat
  didx : Nat
  ctx : Nat
  gen : Nat
  req : Nat
  start : Nat
  stop_ : Nat
  conf : Bool
  meas : List Byte
  deriving DecidableEq, Repr

/-- A SEQ_CLOSE whose record waits in the leaf queue: its place in the count of records queued, descriptor index, FLAGS, TAG, and
whether its completion has gone out with PENDING (R329), and the end of its period. -/
structure Waiter where
  seq : Nat
  qp : Nat
  didx : Nat
  flags : Nat
  tag : List Byte
  posted : Bool
  at_ : Nat
  deriving DecidableEq, Repr

/-- A remote ledger entry: ORIGIN, OCTX, the six categories in nJ, earliest and latest release, ESTIMATED (R320), bytes 88–119 of its record
at the latest release. -/
structure Ledger where
  origin : Nat
  octx : Nat
  nj : List Nat
  first : Nat
  last : Nat
  est : Bool
  meas : List Byte
  deriving DecidableEq, Repr

/-- Metering beside its registers and tables: SEQ_CLOSEs of the period, records waiting for a position, records ever queued
and ever taken, reconcile queue (R333), ledger (most recently used first), slots released in the period (ORIGIN, OCTX, VLEN,
time, bytes 88–119 of a record at that time), open batch number, its leaves, open time, previous header's hash, CHAIN_START due, flash ceiling (R328), leaves ever
stored, closed batches kept (number to first leaf and count), batches to sign, last closed batch, RECEIPT_FETCHes that wait,
failed meters (R316), sums of the current second in nJ (INPUT, ATTRIBUTED, REMOTE, IDLE, OVERHEAD) and its start; uses of
engines and cores since the period began, its start, and the time of the last ledger flush. -/
structure Enr where
  closing : List Closing
  wait : List Waiter
  queued : Nat
  taken : Nat
  recQ : List (List Byte)
  ledger : List Ledger
  rel : List (Nat × Nat × Nat × Nat × List Byte)
  batch : Nat
  count : Nat
  opened : Nat
  prev : List Byte
  chain : Bool
  ceiling : Nat
  stored : Nat
  batches : SMap (Nat × Nat)
  toSign : List Nat
  fetches : List (Nat × Nat)
  failed : List Nat
  sums : List Nat
  secStart : Nat
  use : List Use
  pStart : Nat
  flushed : Nat
  deriving DecidableEq, Repr

/-! ### Fabric ports and Varrax (chapter 9) -/

/-- A send descriptor of R222, how often its record has met a TOK_NACK, and the dispatch whose program posted it (R237). -/
structure Send where
  op : Nat
  flags : Nat
  dest : Nat
  len : Nat
  src : Nat
  arg0 : Nat
  arg1 : Nat
  sda : Nat
  tag : Nat
  bad : Bool
  tries : Nat
  disp : Option Nat
  deriving DecidableEq, Repr

/-- Who posted a message: a tile's send ring, the part of a WRITE that a lost source word cut (with its tile and dispatch), an EXPERT_MAP, or a
unit of the module that needs no word of its end. -/
inductive Owner where
  | ring (tile : Nat) (send : Send)
  | cut (tile : Nat) (disp : Option Nat)
  | map (qp idx : Nat)
  | plain
  deriving DecidableEq, Repr

/-- A message to a peer: MSN, OP, FENCE, TAG, ARG0, ARG1, MSG_LEN, payload, payload bytes sent, first packet sent, whether a reply
is awaited. -/
structure TxMsg where
  msn : Nat
  op : Nat
  fence : Bool
  tag : Nat
  arg0 : Nat
  arg1 : Nat
  len : Nat
  data : List Byte
  sent : Nat
  started : Bool
  reply : Bool
  owner : Owner
  deriving DecidableEq, Repr

/-- A packet sent and not acknowledged: PSN, its message, payload offset and length, LAST, times sent, port last used, place
in the order of sending, and packets sent after it that are acknowledged. -/
structure TxPkt where
  psn : Nat
  msn : Nat
  off : Nat
  len : Nat
  last : Bool
  sends : Nat
  port : Nat
  ord : Nat
  later : Nat
  deriving DecidableEq, Repr

/-- A message arriving: its header fields, the payload parts received, the payload's end once LAST has come, the PSN of its last
packet, the device time of its latest packet, and whether a TOK_DISPATCH uses standing credit. -/
structure RxMsg where
  msn : Nat
  op : Nat
  fence : Bool
  port : Nat
  sport : Nat
  tag : Nat
  arg0 : Nat
  arg1 : Nat
  len : Nat
  parts : SMap (List Byte)
  ends : Option Nat
  lastPsn : Option Nat
  at_ : Nat
  standing : Bool
  deriving DecidableEq, Repr

/-- The connection with a peer (R217), its credits (R224) and its handshake (R356). Connection 0 closed, 1 OPEN sent, 2 open;
OPENs sent; next PSN, MSN and place in the order of sending; messages and packets out; lowest PSN not received and those
received above it; messages in; control packets; lowest MSN without effect and those above it with effect; MSNs whose refusing reply is
out (with its MSN); packets since an acknowledgement, an effect not yet reported, the lowest MSN that the peer has not reported as
effected; PMASK as last received; round robin; packets sent;
receive keys (port, index, key); keys of ours that it holds (port, index); failed tags (port, time); standing credit used,
grants held, request out; as a receiver, standing credit used and grants not yet filled; nonces, quote and shared secrets. -/
structure Peer where
  conn : Nat
  opens : Nat
  nextPsn : Nat
  nextMsn : Nat
  nextOrd : Nat
  tx : List TxMsg
  unacked : List TxPkt
  rxBase : Nat
  rxGot : List Nat
  rx : List RxMsg
  ctl : List RxMsg
  rxDone : Nat
  rxOut : List Nat
  hold : List (Nat × Nat)
  ackDue : Nat
  effDue : Bool
  effTo : Nat
  pmask : Option Nat
  rr : Nat
  packets : Nat
  keys : List (Nat × Nat × List Byte)
  holds : List (Nat × Nat)
  fails : List (Nat × Nat)
  stUsed : Nat
  grants : List Nat
  asked : Bool
  rxUsed : Nat
  rxGrants : List Nat
  nonce : List Byte
  pnonce : List Byte
  quote : Option (List Byte)
  ssOwn : List Byte
  ssPeer : List Byte
  deriving DecidableEq, Repr

def Peer.empty : Peer :=
  ⟨0, 0, 0, 0, 0, [], [], 0, [], [], [], 0, [], [], 0, false, 0, none, 0, 0, [], [], [], 0, [], false, 0, [], [], [], none, [], []⟩

/-- A fabric port beside its registers: the training attempt under way (none between retrains), failed retrains, packet counter,
transmit keys by index, the key index being distributed and the peers that have not acknowledged it. -/
structure Port where
  attempt : Option Nat
  fails : Nat
  pctr : Nat
  keys : SMap (List Byte)
  newKey : Option Nat
  waitKey : List Nat
  deriving DecidableEq, Repr

def Port.empty : Port := ⟨none, 0, 0, [], none, []⟩

/-- A filled receive slot (R224, R226): sending peer, standing credit, expert, its place in the ring once its record is written,
ORIGIN, RANK, HANDLE, GEN, OCTX and VLEN of the record. -/
structure RxSlot where
  peer : Nat
  standing : Bool
  expert : Nat
  idx : Option Nat
  origin : Nat
  rank : Nat
  handle : Nat
  gen : Nat
  octx : Nat
  vlen : Nat
  deriving DecidableEq, Repr

/-- An EXPERT_MAP whose broadcast is out: descriptor, slot, peers still to answer, acknowledged, failed (R229). -/
structure MapWait where
  qp : Nat
  idx : Nat
  slot : Nat
  todo : List Nat
  acked : Nat
  failed : Nat
  deriving DecidableEq, Repr

/-- The fabric beside its registers and tables: ports, peers, send descriptors taken from each tile's ring, consumer index of each
ring, filled slots, slots whose record waits (arrival order), peers that asked for credit and how much, EXPERT_MAPs waiting,
drains by expert slot (peers needed, peers counted), spray position; grandmaster, PTP times t1, t2, t3, the correction of the last Sync,
the last offsets, the correction still to slew. -/
structure Fab where
  ports : SMap Port
  peers : SMap Peer
  sends : SMap (List Send)
  cons : SMap Nat
  slots : SMap RxSlot
  waiting : List Nat
  asks : List (Nat × Nat)
  maps : List MapWait
  drains : SMap (List Nat × List Nat)
  wrr : Nat
  gm : Option Nat
  t1 : Nat
  t2 : Nat
  t3 : Nat
  syncCorr : Int
  offsets : List Int
  owed : Int
  deriving DecidableEq, Repr

def Fab.empty : Fab := ⟨[], [], [], [], [], [], [], [], [], 0, none, 0, 0, 0, 0, [], 0⟩

/-! ### Power, thermal, board, start-up and partial reset (chapters 12, 13, 17 and 21) -/

/-- A HINT reservation (R290): profile, context charged, group, device time at which its phase begins, DUR in µs, current granted to
each tile in 0.0625 A (none once the reservation has ended), whether the phase has begun, the largest current measured since
(R289). -/
structure Resv where
  prof : Nat
  ctx : Nat
  group : Nat
  begins : Nat
  dur : Nat
  grant : SMap Nat
  begun : Bool
  peak : Nat
  deriving DecidableEq, Repr

/-- Power delivery beside its registers: reservations in the order recorded, switch-on requests with the device time of each,
domains switched on whose engine has not woken, requests whose neighbours are held down (R294), droop slowdowns, start of the peak clamp, ceilings of the cap
controller, engines whose current rises, the budget of the last step in mW and the input mW of 0.0625 A on each engine, the current that each
governor shapes in 0.25 mA with the device time of its sample (R279), and what each Gust buffer has spent of its reserve in 0.0625 nC (R282). -/
structure Pwr where
  resv : List Resv
  waitOn : SMap Nat
  domOn : List Nat
  asked : List Nat
  slow : List Nat
  clamp : Option Nat
  capCeil : SMap Nat
  rising : List Nat
  budget : Nat
  cost : SMap Nat
  gov : SMap (Nat × Nat)
  spent : SMap Nat
  deriving DecidableEq, Repr

def Pwr.empty : Pwr := ⟨[], [], [], [], [], none, [], [], 0, [], [], []⟩

/-- The thermal controllers beside their registers; sensors by tower × 136 + index (544 the outlet thermistor), nodes by tower × 576
+ index: samples of the last ms (latest first), updates in a row at which a sensor read low (R301), pairs that differed by more
than FAULT, update count of each tower, update at which a node was last raised, updates in a row at which it stood low (R303)
and a layer was cool (R306, tower × 16 + layer), watts escalated (R304), the coolant cap (R308), the cap of a coolant loss and
its clamp (R309), device time of entry to DRAIN, THERMAL_OFF reached, pulses counted, device times of the last pulse and of the
first of an unbroken run, towers with a G near its alert threshold and the device times from which others have had none; recorded
summaries and producers of Sentry (R311). -/
structure Thm where
  samples : SMap (List Int)
  low : SMap Nat
  pairBad : List Nat
  updates : SMap Nat
  raised : SMap Nat
  cool : SMap Nat
  layCool : SMap Nat
  esc : Nat
  coolCap : Nat
  lossCap : Option Nat
  lossClamp : Bool
  drainAt : Nat
  off : Bool
  pulses : Nat
  lastPulse : Nat
  flowFrom : Option Nat
  hot : List Nat
  calm : SMap Nat
  senSum : SMap Nat
  senProd : SMap Nat
  deriving DecidableEq, Repr

def Thm.empty : Thm := ⟨[], [], [], [], [], [], [], 0, 1200, none, false, 0, false, 0, 0, none, [], [], [], []⟩

/-- The board: input voltage present, disconnected after an overvoltage, PWR_EN, the converters run, PWR_GOOD released, ERR_N and
THERM_ALERT asserted, the cap that the sideband responder holds (R286), whether a PERST# waits for the coolant sequence (R448)
and a fall of PWR_EN for a sequence under way (R447). -/
structure Board where
  input : Bool
  cut : Bool
  pwrEn : Bool
  on : Bool
  pwrGood : Bool
  errN : Bool
  thermAlert : Bool
  sbCap : Nat
  perstWaits : Bool
  deriving DecidableEq, Repr

/-- A saved-settings set (R377): its key (serial, MANIFEST_HASH, firmware measurement) and the trained values of stage 4 by
`VCH_TRAIN_L` index. -/
structure Saved where
  key : List Byte
  train : SMap Word
  deriving DecidableEq, Repr

/-- Start-up: device time at which the stage in progress began, runs of each stage since module reset, FULL_TEST as the module
reset found it, saved sets by band, remap entries in flash, recovery image in flash is valid, last cause of a rejected boot
image and its key slot, flow has been present since this start; the calibration table and the recovery image in flash when they
are not those of `Config`. -/
structure Boot where
  began : Nat
  attempts : SMap Nat
  fullTest : Bool
  saved : SMap Saved
  remaps : SMap Word
  slot : Nat
  flowOk : Bool
  cal : Option (List Byte)
  recImg : Option (List Byte)
  deriving DecidableEq, Repr

/-- A reset request (R381): scope, target, the fault source it comes from. -/
structure RstReq where
  scope : Nat
  target : Nat
  src : Option Nat
  deriving DecidableEq, Repr

/-- The running partial reset beside `RST_STATE`: ABSORB mode, its source, device times of request, of entry to WORK and to EMPTY,
engines fenced by the time limit; waiting requests; a module reset that has been taken and not yet begun, and whether the record
that ordered it froze the Eddy log (R395). -/
structure Rst where
  absorb : Bool
  src : Option Nat
  reqAt : Nat
  workAt : Nat
  emptyAt : Nat
  forced : Bool
  queue : List RstReq
  modDue : Bool
  froze : Bool
  deriving DecidableEq, Repr

def Rst.empty : Rst := ⟨false, none, 0, 0, 0, false, [], false, false⟩

end Sys2Proof.Machine
end

