-- ==== Sys2Proof/Machine/StateCore.lean ====
section
/-! DEFINITION. Plain data of the bank-side cores, the command rings, the fault controller, the Eddy log and what the module
sends out (chapters 7, 10, 11, 18). -/

namespace Sys2Proof.Machine

/-- Why a core is paused (R155). -/
inductive PauseWhy where | refresh | lease | copy
  deriving DecidableEq, Repr

/-- One bank-side core (R144): registers, program counter, program store, words whose parity bit is wrong, open row, IMPs under
way (register, exchange word, PC), export queue (word, data, whether it is a done word); the done word of a ring launch, the strict dispatch that launched
it, whether the present wait was counted (R157); token (R156), the causes for which it is to pause or has paused (R160), the charge of the
dispatch whose ring record launched it (R318), the mesh cycle in which the core entered WAIT or PAUSE, and the one since which the
instruction at the PC waits (R147). The state itself is `BSC_CSTAT.STATE`; the lease stands in `Gate.lent`. -/
structure Core where
  breg : SMap DWord
  pc : Nat
  store : SMap Word
  badPar : List Nat
  row : Option Nat
  pendImp : List (Nat × Nat × Nat)
  expq : List (Nat × DWord × Bool)
  doneOff : Option Nat
  strict : Option Nat
  waited : Bool
  token : Bool
  pause : List PauseWhy
  since : Nat
  waitFrom : Option Nat
  charge : Option Charge
  deriving DecidableEq, Repr

def Core.empty : Core :=
  { breg := [], pc := 0, store := [], badPar := [], row := none, pendImp := [], expq := [], doneOff := none, strict := none, waited := false
    token := false, pause := [], since := 0, waitFrom := none, charge := none }

/-- A fetched descriptor (R249): its index, which is the submission index below 2^32 and the queue pair's generation above; 128 bytes; whether
it has started, and what its type still holds: descriptors waited for (FENCE), the stage of a host read (COPY, FENCE VALUE,
FW_STAGE), the last value read (FENCE VALUE), and the device time at which it started. -/
structure Descr where
  idx : Nat
  bytes : List Byte
  started : Bool
  await : List (Nat × Nat)
  prog : Nat
  last : Nat
  since : Nat
  deriving DecidableEq, Repr

/-- A queue pair beside its registers: indices of R241, entries reserved under R244, fetched descriptors, records since the
last message of mode 2 and the device time of the first of them, and its generation: an enable, an FLR and the loss of the link each
begin a new one, and host writes, records and messages of descriptors of an earlier one are discarded (R260, R271). -/
structure Qp where
  sqProd : Nat
  sqCons : Nat
  cqProd : Nat
  cqCons : Nat
  reserved : Nat
  ring : List Descr
  coal : Nat
  coalAt : Nat
  gen : Nat
  deriving DecidableEq, Repr

def Qp.empty : Qp := ⟨0, 0, 0, 0, 0, [], 0, 0, 0⟩

/-- Which poll reads are outstanding (R246): a function's summary, or a queue pair's doorbell. -/
inductive PollRead where
  | summary (f : Nat)
  | doorbell (qp : Nat)
  deriving DecidableEq, Repr

/-- The command engine: queue pairs, outstanding poll reads, idle polling, device times of the last poll and of the last descriptor
fetched (R247), the queue pair that each priority last fetched from, and the waiting DISPATCHes in the order in which they reached the
heads of their queue pairs (R251). -/
structure Cmd where
  qps : SMap Qp
  polls : List PollRead
  idle : Bool
  lastPoll : Nat
  lastFetch : Nat
  lastPrio : SMap Nat
  waitDisp : List (Nat × Nat)
  deriving DecidableEq, Repr

def Cmd.empty : Cmd := ⟨[], [], false, 0, 0, [], []⟩

/-- A raise of R390: source, LOC and ARG and CODE of its record, how many were merged into it, whether it was caused by an access of the service
core (R397), and the mesh cycle in which its collector sent it. -/
structure Raise where
  src : Nat
  loc : Nat
  arg : Nat
  code : Nat
  merged : Nat
  svc : Bool
  sent : Nat
  deriving DecidableEq, Repr

/-- A source instance of R396; `last` is the device time of its last raise that was acted on. -/
structure Src where
  fault : Bool
  occ : Nat
  recov : Nat
  pin : Bool
  brIdle : Bool
  last : Nat
  deriving DecidableEq, Repr

/-- The fault controller: unit collectors and raising units by unit number (R390), raises that have arrived, source states,
the trap queue, ERR_N's latch and freeze hold, whether a module reset is still clearing the controller, the conditions that hold; the
device times of the last raise of each condition's source and of the delivery of the trap, the mesh cycle of each collector's last raise. -/
structure Flt where
  coll : SMap (List Raise)
  unitWait : SMap (List Raise)
  arrive : List Raise
  srcs : SMap Src
  trapQ : List Nat
  latch : Bool
  hold : Bool
  clearing : Bool
  conds : List Nat
  condAt : SMap Nat
  trapAt : Nat
  sentAt : SMap Nat
  deriving DecidableEq, Repr

/-- The Eddy log (R398): the records of the ring by slot, the slots with an uncorrectable word, the protected range. -/
structure Edy where
  recs : SMap (List Byte)
  bad : List Nat
  protLo : Nat
  protHi : Nat
  deriving DecidableEq, Repr

/-- A request that the module has for the host: a memory write, or an MSI-X message (function, vector). -/
inductive HostOut where
  | write (addr : Nat) (bs : List Byte)
  | msix (f vec : Nat)
  deriving DecidableEq, Repr

/-- The PCIe port beside its registers: PERST# asserted, functions in D3hot, SR-IOV's VF Enable and NumVFs, functions with MSI-X
Enable, functions with Function Mask, written words of the MSI-X tables by function × 4096 + word, pending vectors (R269), written words of
the configuration spaces by function × 4096 + offset, whether the boot ROM has finished stage 1 (R270), the IDE streams in state Secure, requests that wait for one (R272), and the host's address ranges
[lo, hi) at which a module write fails (R258, log entry 82). -/
structure Pcie where
  perst : Bool
  d3 : List Nat
  vfEnable : Bool
  numVFs : Nat
  msixEn : List Nat
  fmask : List Nat
  table : SMap Word
  pba : List (Nat × Nat)
  cfg : SMap Word
  ready : Bool
  ide : List Nat
  outq : List HostOut
  hostBad : List (Nat × Nat)
  deriving DecidableEq, Repr

/-- An untagged Ethernet II frame with IPv6, Next Header 17, given to a port (R214): source and destination address, UDP source and
destination port, UDP checksum, and the bytes from the Varrax header on. MAC addresses, flow label and hop limit are not modelled
(log entry 20). -/
structure Frame where
  port : Nat
  srcIp : Nat
  dstIp : Nat
  udpSrc : Nat
  udpDst : Nat
  check : Nat
  bytes : List Byte
  deriving DecidableEq, Repr

/-- What the module sends out: MSI-X messages (function, vector), the last data returned to a reader, the last sideband
response, packets given to the ports, whether the last access ended in an error, whether it was answered with Request Retry Status, whether a word of
it was dropped under R109. -/
structure Outs where
  msix : List (Nat × Nat)
  rdata : Nat
  rbytes : List Byte
  sideband : List Byte
  frames : List Frame
  busErr : Bool
  retry : Bool
  collided : Bool
  deriving DecidableEq, Repr

end Sys2Proof.Machine
end

