-- ==== Sys2Proof/Machine/StateGate.lean ====
section
/-! DEFINITION. What the stops hold requests for: leases, layers held for training, rows being copied, accepted reads, quiet bank groups,
and the commands that wait (R122, R126, R141, R157 to R159). -/

namespace Sys2Proof.Machine

/-- What waits for a bank: a command, or the sequencer of a tile. -/
inductive Who where
  | cmd (c : Instr)
  | tile (t : Nat)
  deriving DecidableEq, Repr

/-- A request that a stop holds: its bank (64 × tile + bank), who asks, and the mesh cycle in which the stop accepted it (R158, R159). -/
structure Wait where
  bank : Nat
  who : Who
  since : Nat
  deriving DecidableEq, Repr

/-- A request that the stop accepted and whose read data is on its way (R122, R460). -/
structure VReq where
  da : Nat
  len : Nat
  src : Nat
  deriving DecidableEq, Repr

/-- Banks lent to their cores (64 × tile + bank), layers held for training (16 × tile + layer), rows being copied (bank × 2^14 + row),
accepted reads, the mesh cycle of the last core start in each bank group (16 × tile + layer), the held requests, oldest first, and those
that a lease pause serves. The last three fields stand while a command runs: who asks, the tiles in scheduled-slot mode, and the banks that
hold it. -/
structure Gate where
  lent : List Nat
  layers : List Nat
  rows : List Nat
  reqs : List VReq
  quiet : SMap Nat
  held : List Wait
  serve : List (Nat × Who)
  who : Option Who
  slots : List Nat
  blk : List Nat
  deriving DecidableEq, Repr

/-- Nothing is held. -/
def Gate.clear : Gate := ⟨[], [], [], [], [], [], [], none, [], []⟩

end Sys2Proof.Machine
end

