-- ==== Sys2Proof/Machine/StateSys.lean ====
section
/-! DEFINITION. Plain data of the security block, the firmware service and lock-step (chapters 15, 16, 19). -/

namespace Sys2Proof.Machine

/-- A client session of R350: its id, function, keys, last accepted inbound SEQNO and next outbound one. -/
structure Session where
  sid : Nat
  fn : Nat
  kin : List Byte
  kout : List Byte
  inSeq : Option Nat
  outSeq : Nat
  deriving DecidableEq, Repr

/-- The security block beside its registers: key store zeroed (R357), the zeroing flag of R348, the boot secret BS, the
measurement log and MR (R343), the firmware measurement, sessions, approved images (R349), whether a PROG_LOAD has completed,
owner keys by epoch (R340), the root-key disable fuse, whether a requester has agreed on the algorithms and whether an SPDM session is
secured (R346); mailboxes whose request is
being read and those whose host access or responder waits (R439), IDE_REQ after the next module reset (R347), the lifecycle change
whose wipes are not complete (target, owner key) (R341). -/
structure Sec where
  zeroed : Bool
  zeroFlag : Bool
  bs : Nat
  log : List (List Byte)
  mr : List Byte
  fwMeas : List Byte
  svn : Nat
  sessions : List Session
  approved : List Nat
  progLoaded : Bool
  owner : SMap (List Byte)
  rkOff : Bool
  algOk : Bool
  spdm : Bool
  mbxRead : List Nat
  mbxWait : List Nat
  ideNext : Bool
  lcWait : Option (Nat × List Byte)
  deriving DecidableEq, Repr

/-- What firmware staging holds beside its registers (chapter 19): chunks held, NCHUNK once known, the activation's descriptor,
engines withdrawn and loaded, microcode set per engine, calibration consumers still to switch, whether the recovery image runs
and is valid, the hand-over in progress, the broadcast's root, mark, requests (chunk, peers tried); the device times at which the new
firmware started, a chunk last arrived and a mark was last asked for. -/
structure Fw where
  have_ : List Nat
  nchunk : Option Nat
  act : Option (Nat × Nat)
  bcastAct : Bool
  withdrawn : List Nat
  ucode : SMap Nat
  calWait : List Nat
  recovery : Bool
  recValid : Bool
  handover : Bool
  heldTraps : Bool
  root : Option Nat
  mark : Option Nat
  asked : SMap Nat
  sent : List (Nat × Nat)
  phash : List Byte
  svn : Nat
  running : Bool
  startAt : Nat
  chunkAt : Nat
  markAt : Nat
  deriving DecidableEq, Repr

/-- A dispatch whose digest is due, or the summary formed of one (R367, R369): number, mode, marked, tasklets, cycles; then
digest, UE and entries. -/
structure Summ where
  num : Nat
  mode : Nat
  marked : Bool
  ntask : Nat
  cycles : Nat
  ue : Bool
  digest : List Byte
  entries : List (List Byte)
  deriving DecidableEq, Repr

/-- Lock-step beside its registers: running; ended dispatches whose digest or summary is due (with their `disps` key while they have
not completed); which tile took each tasklet, as (`disps` key, tasklet, tile); own summaries not yet compared, or whose
partner's list is awaited; partner summaries held for them; the partner's firmware measurement once received. -/
structure Lck where
  live : Bool
  due : List (Option Nat × Summ)
  took : List (Nat × Nat × Nat)
  own : List Summ
  peer : List Summ
  peerFw : Option (List Byte)
  deriving DecidableEq, Repr

end Sys2Proof.Machine
end

