-- ==== Sys2Proof/Machine/State.lean ====
section
/-! DEFINITION. State as plain data, its reset value, and the reasons a step can stop. -/

namespace Sys2Proof.Machine

/-- Clocks: mesh cycles since the count of R80 was started, device time in ns (R8), and the model's own counter that picks
free values (log entry 11). -/
structure Clk where
  mc : Nat
  ns : Nat
  free : Nat
  deriving DecidableEq, Repr

/-- The state of the module. -/
structure State where
  pending : List Instr
  clk : Clk
  /-- Registers, pending copies of Staged fields included, by `Reg.key`; absent means the reset value. -/
  regs : SMap Word
  /-- Active copies of the registers that hold Staged fields. -/
  act : SMap Word
  /-- Captured sets that wait for their quiet point (R434), by STG window × 8 + block. -/
  wset : SMap (List (Nat × Word))
  /-- Registers whose hidden parity does not match (R429). -/
  parBad : List Nat
  /-- Device memory by place: a DA, or 2^39 and above for a spare row. -/
  mem : List Host.Cell
  /-- Syndrome of each stored word that is not a good code word (R133), by place / 8. -/
  synd : SMap Nat
  /-- The 128-bit units of each stored atom that the on-die code corrects when it is read (R132), by place / 256. -/
  soft : SMap Nat
  /-- Scratchpad bytes and the flipped bits of each word of its (72,64) code, by tile × 2^23 + offset. -/
  spm : SMap Byte
  spmErr : SMap Nat
  /-- Host memory bytes that the module wrote. -/
  host : SMap Byte
  tiles : SMap Eng
  stops : SMap Stop
  gate : Gate
  cores : SMap Core
  /-- Tokens released lately: tower × 16 + layer, and the mesh cycle (R156). -/
  tokRel : List (Nat × Nat)
  disps : SMap Disp
  nextDisp : Nat
  packets : List Packet
  cmd : Cmd
  pcie : Pcie
  flt : Flt
  edy : Edy
  sec : Sec
  fw : Fw
  lck : Lck
  kv : Kv
  enr : Enr
  fab : Fab
  pwr : Pwr
  thm : Thm
  brd : Board
  boot : Boot
  rst : Rst
  outs : Outs
  deriving DecidableEq, Repr

/-- No rule of the spec stops the module on an access of this model: the type is closed with the one reason that an address
lies in no place of the module. Nothing raises it today; safe. -/
inductive Fault where
  /-- Raised by no meaning; kept so that a stop would have a name. Safe: the model stops where the module goes on. -/
  | noPlace (da : Nat)
  deriving DecidableEq, Repr

/-- Refusals. -/
inductive Refusal where
  /-- Raised by the arm of a command whose meaning is not written. Safe. -/
  | notModelled (mnemonic : String)
  deriving DecidableEq, Repr

/-- A closed bucket of the energy tables at the start. -/
def Enr.empty : Enr := ⟨[], [], 0, 0, [], [], [], 0, 0, 0, [], false, 1048576, 0, [], [], [], [], [0, 0, 0, 0, 0], 0, [], 0, 0⟩
/-- The fault controller with nothing raised. -/
def Flt.empty : Flt := ⟨[], [], [], [], [], false, false, false, [], [], 0, []⟩
/-- The security block after a module reset, before stage 0. -/
def Sec.empty : Sec := ⟨false, false, 0, [], List.replicate 32 0, List.replicate 32 0, 0, [], [], false, [], false, false, false, [], [], false, none⟩
def Fw.empty : Fw := ⟨[], none, none, false, [], [], [], false, true, false, false, none, none, [], [], [], 0, false, 0, 0, 0⟩
def Lck.empty : Lck := ⟨false, [], [], [], [], none⟩
def Pcie.empty : Pcie := ⟨false, [], false, 0, [], [], [], [], [], false, [], [], []⟩

/-- The engines of a part after reset: fused-off tiles, every other engine off. -/
def tilesReset : SMap Eng :=
  ((List.range 128).filter (fun t => bitOf Config.fuseMap t)).map (fun t => (t, { Eng.off with power := .fusedOff }))

/-- The module right after a module reset with its input powered and PWR_EN high, before stage 0 (log entry 1): registers at their
reset values, engines off, memory with nothing listed, the retained domain as its power-up leaves it. -/
def State.reset : State :=
  { pending := [], clk := ⟨0, 0, 0⟩, regs := [], act := [], wset := [], parBad := [], mem := [], synd := [], soft := [], spm := [], spmErr := []
    host := [], tiles := tilesReset, stops := [], gate := Gate.clear, cores := [], tokRel := [], disps := [], nextDisp := 0, packets := []
    cmd := Cmd.empty, pcie := Pcie.empty, flt := Flt.empty, edy := ⟨[], [], 0, 0⟩, sec := Sec.empty
    fw := Fw.empty, lck := Lck.empty, kv := Kv.empty, enr := Enr.empty, fab := Fab.empty, pwr := Pwr.empty, thm := Thm.empty
    brd := ⟨true, false, true, true, false, false, false, 1200, false⟩
    boot := ⟨0, [], false, [], [], 0, false, none, none⟩, rst := Rst.empty
    outs := ⟨[], 0, [], [], [], false, false, false⟩ }

end Sys2Proof.Machine
end

