-- ==== Sys2Proof/Machine/Ops.lean ====
section
/-! DEFINITION. The named operations over registers, status bits, raises, the Eddy log, device memory and host memory that every
meaning shares. -/

namespace Sys2Proof.Machine

/-- The outcome of a command. -/
abbrev Out := Host.Outcome State Fault Refusal

/-! ### Registers -/

/-- The key of register `r`, index `i`. -/
def Reg.key (r : Reg) (i : Nat) : Nat := r.ctorIdx + 512 * i

/-- Reset reaction bits of R388 by source type: INT 1, TRAP 2, BLOCK_RESET 4, CHIP_RESET 8, PIN 16. -/
def rxnReset : Nat → Nat
  | 0x01 => 1 | 0x02 => 1 | 0x03 => 5 | 0x10 => 1 | 0x11 => 1 | 0x12 => 2 | 0x13 => 2 | 0x14 => 1 | 0x15 => 1
  | 0x20 => 17 | 0x21 => 1 | 0x22 => 1 | 0x23 => 17 | 0x24 => 19 | 0x25 => 1 | 0x30 => 1 | 0x31 => 3 | 0x40 => 17
  | 0x41 => 1 | 0x42 => 17 | 0x43 => 1 | 0x44 => 3 | 0x45 => 1 | 0x46 => 3 | 0x47 => 1 | 0x48 => 1 | 0x49 => 1
  | 0x4A => 1 | 0x4B => 1 | 0x4C => 19 | 0x4D => 1 | 0x4E => 3 | 0x4F => 24 | 0x50 => 1
  | _ => 0

/-- The source types of R388. -/
def srcTypes : List Nat := [0x01, 0x02, 0x03, 0x10, 0x11, 0x12, 0x13, 0x14, 0x15, 0x20, 0x21, 0x22, 0x23, 0x24, 0x25, 0x30, 0x31,
  0x40, 0x41, 0x42, 0x43, 0x44, 0x45, 0x46, 0x47, 0x48, 0x49, 0x4A, 0x4B, 0x4C, 0x4D, 0x4E, 0x4F, 0x50]

/-- The reset value of a register from its map; fused and flashed fields from Config (log entry 3), the table of R388 for
`FLT_RXN`, N − 8 for `BOOT_CFG.MIN_TILES`. -/
def Reg.rst (r : Reg) (i : Nat) : Nat :=
  let base := r.fields.foldl (fun a f => a + 2 ^ f.lo * f.rst) 0
  match r with
  | .CMD_FQ => if i = 0 then 16384 * 2 ^ 14 else 0
  | .FLT_RXN => if srcTypes.contains i then base + rxnReset i else 0
  | .GLB_IDENT => base + 2 ^ 8 * Config.grade
  | .GLB_FEATURES => Config.featPorts + Config.featWideAtt * 4 + Config.featBsc * 8 + 16 * Config.featConf
  | .GLB_SERIAL_LO => Config.serialLo
  | .GLB_SERIAL_HI => Config.serialHi
  | .GLB_DISMAP => bits Config.fuseMap (32 * i + 31) (32 * i)
  | .GLB_FUSEMAP => bits Config.fuseMap (32 * i + 31) (32 * i)
  | .BOOT_CFG => setBits base F.BOOT_CFG_MIN_TILES.hi F.BOOT_CFG_MIN_TILES.lo (Config.grade - 8)
  | .SEC_LC => 2 ^ F.SEC_LC_STATE.lo * Config.lcState + 2 ^ F.SEC_LC_KEY_EPOCH.lo * Config.lcKeyEpoch
      + 2 ^ F.SEC_LC_TAMPERS.lo * Config.lcTampers + 2 ^ F.SEC_LC_SVN.lo * Config.lcSvn
  | .SEC_LCNONCE_LO => Config.lcNonce.toNat % 2 ^ 32
  | .SEC_LCNONCE_HI => Config.lcNonce.toNat / 2 ^ 32
  | _ => base

/-- The word a register holds (the pending copy of its Staged fields). -/
def State.rget (s : State) (r : Reg) (i : Nat) : Word :=
  (SMap.find s.regs (r.key i)).getD (BitVec.ofNat 32 (r.rst i))
/-- The word of the active copies of a register's Staged fields. -/
def State.aget (s : State) (r : Reg) (i : Nat) : Word :=
  (SMap.find s.act (r.key i)).getD (BitVec.ofNat 32 (r.rst i))
/-- Set a register. -/
def State.rput (s : State) (r : Reg) (i : Nat) (w : Word) : State := { s with regs := SMap.put s.regs (r.key i) w }
/-- Set the active copy of a register. -/
def State.aput (s : State) (r : Reg) (i : Nat) (w : Word) : State := { s with act := SMap.put s.act (r.key i) w }
/-- The value of a field as the block uses it: the active copy of a Staged field, the register otherwise. -/
def State.fget (s : State) (f : Field) (i : Nat) : Nat :=
  if f.app = .staged then bits (s.aget f.reg i).toNat f.hi f.lo else bits (s.rget f.reg i).toNat f.hi f.lo
/-- A one-bit field is 1. -/
def State.flag (s : State) (f : Field) (i : Nat) : Bool := s.fget f i == 1
/-- Set a field. -/
def State.fput (s : State) (f : Field) (i : Nat) (v : Nat) : State :=
  s.rput f.reg i (BitVec.ofNat 32 (setBits (s.rget f.reg i).toNat f.hi f.lo v))
/-- Width of a field. -/
def Field.width (f : Field) : Nat := f.hi + 1 - f.lo
/-- Add to a counter field, wrapping at its width. -/
def State.fadd (s : State) (f : Field) (i n : Nat) : State := s.fput f i ((s.fget f i + n) % 2 ^ f.width)
/-- Add to a counter field, saturating at its largest value. -/
def State.fsat (s : State) (f : Field) (i n : Nat) : State := s.fput f i (min (s.fget f i + n) (2 ^ f.width - 1))
/-- A 64-bit value in two registers. -/
def State.get64 (s : State) (lo hi : Reg) (i : Nat) : Nat := (s.rget lo i).toNat + 2 ^ 32 * (s.rget hi i).toNat
def State.put64 (s : State) (lo hi : Reg) (i v : Nat) : State :=
  (s.rput lo i (BitVec.ofNat 32 v)).rput hi i (BitVec.ofNat 32 (v / 2 ^ 32))

/-- An event of a status register: its bit is set and SEQ advances (R426). -/
def State.event (s : State) (f : Field) (i : Nat) : State :=
  let w := (s.rget f.reg i).toNat
  s.rput f.reg i (BitVec.ofNat 32 (setBits (setBit w f.lo) 31 16 ((bits w 31 16 + 1) % 65536)))
/-- An event that sets bit `b` above the field's lowest (R434, R435). -/
def State.eventBit (s : State) (f : Field) (i b : Nat) : State := s.event { f with lo := f.lo + b } i

/-- The BAR0 offset of a register (R423); function windows of virtual functions and selected registers at their own window. -/
def regOffset (r : Reg) (i : Nat) : Nat :=
  let p := r.place
  let n := i % p.cnt
  let o := i / p.cnt
  let at_ := p.off + p.stride * n
  match p.win with
  | .glb => at_ | .mbx => 0x1000 + 0x100 * o + at_ | .cmd => 0x2000 + at_ | .qp => 0x2000 + at_
  | .cmd0 => 0x2000 + at_ | .pci => 0x4000 + at_ | .boot => 0x5000 + at_ | .pwr => 0x6000 + at_ | .sec => 0x7000 + at_
  | .enr => 0x8000 + at_ | .fw => 0x9000 + at_ | .kvm => 0xA000 + at_ | .lck => 0xB000 + at_
  | .fab => 0x40000 + 0x1000 * (o / 2) + 0x100 * (o % 2) + at_ | .vrx => 0x40000 + at_
  | .tower => 0x50000 + 0x1000 * (if r = .THM_SDATA then o / 136 else if r = .THM_NDATA then o / 576 else o) + at_
  | .tower0 => 0x50000 + at_ | .flt => 0x60000 + at_
  | .eng => 0x100000 + 0x1000 * o + at_
  | .stop => 0x800000 + 0x10000 * o + at_
  | .stg => if o < 128 then 0x800000 + 0x10000 * o + 0x7F0 + at_
      else if o < 132 then 0x50000 + 0x1000 * (o - 128) + 0xFF0 + at_ else 0xBFF0 + at_
  | .core => 0x800000 + 0x10000 * (o / 64) + 0x8000 + 512 * (o % 64) + at_

/-! ### Records of the machine -/

def State.eng (s : State) (t : Nat) : Eng := SMap.get s.tiles t Eng.off
def State.setEng (s : State) (t : Nat) (e : Eng) : State := { s with tiles := SMap.put s.tiles t e }
def State.stop (s : State) (t : Nat) : Stop := SMap.get s.stops t Stop.empty
def State.setStop (s : State) (t : Nat) (p : Stop) : State := { s with stops := SMap.put s.stops t p }
def State.core (s : State) (t c : Nat) : Core := SMap.get s.cores (64 * t + c) Core.empty
def State.setCore (s : State) (t c : Nat) (k : Core) : State := { s with cores := SMap.put s.cores (64 * t + c) k }
def State.disp (s : State) (d : Nat) : Option Disp := SMap.find s.disps d
def State.setDisp (s : State) (d : Nat) (x : Disp) : State := { s with disps := SMap.put s.disps d x }
def State.qp (s : State) (q : Nat) : Qp := SMap.get s.cmd.qps q Qp.empty
def State.setQp (s : State) (q : Nat) (x : Qp) : State := { s with cmd := { s.cmd with qps := SMap.put s.cmd.qps q x } }
/-- The stop of a tile lies in tower t / 32 (R7). -/
def towerOf (t : Nat) : Nat := t / 32

/-- A free value of `w` bits (log entry 11), and the state with the counter advanced. -/
def State.free (s : State) (w : Nat) : Nat × State :=
  ((Config.freeValue w s.clk.free).toNat, { s with clk := { s.clk with free := s.clk.free + 1 } })

/-! ### The Eddy log (R398 to R402) -/

/-- Bytes of a record of R399 without INDEX. -/
structure LogRec where
  time : Nat
  kind : Nat
  rxn : Nat
  src : Nat
  detail : List Byte
  deriving DecidableEq, Repr

/-- Whether slot `slot` holds a protected record (R402): the records between the protected bounds. -/
def State.slotProtected (s : State) (idx : Nat) : Bool :=
  s.flag F.EDY_STATE_FROZEN 0 && decide (s.edy.protLo ≤ idx - 4096 ∧ idx - 4096 < s.edy.protHi ∧ 4096 ≤ idx)

/-- Write one record, freezing the log when it qualifies (R401), or count it as missed while its slot is protected (R402). -/
def State.logWrite (s : State) (r : LogRec) (freezes : Bool) : State :=
  let idx := s.fget F.EDY_HEAD_INDEX 0
  if s.slotProtected idx then (s.fsat F.EDY_MISSED_MISSED 0 1).event F.EDY_STAT_MISSED 0
  else
    let rxn := if freezes then setBit r.rxn 6 else r.rxn
    let bytes := leBytes 8 r.time ++ leBytes 4 idx ++ leBytes 1 r.kind ++ leBytes 1 rxn ++ leBytes 2 r.src ++ padTo 16 r.detail
    let s1 := { s with edy := { s.edy with recs := SMap.put s.edy.recs (idx % 4096) bytes
                                           bad := s.edy.bad.filter (· ≠ idx % 4096) } }
    let s2 := s1.fput F.EDY_HEAD_INDEX 0 ((idx + 1) % 2 ^ 32)
    if freezes && !s.flag F.EDY_STATE_FROZEN 0 then
      let p := s.fget F.EDY_CFG_PROT 0
      let s3 := { s2 with edy := { s2.edy with protLo := idx + 1 - p, protHi := idx + 1 } }
      ((s3.fput F.EDY_STATE_FROZEN 0 1).fput F.EDY_FREEZE_INDEX 0 idx).event F.EDY_STAT_FROZE 0
    else s2

/-- An EVENT record of R399. -/
def State.logEvent (s : State) (code : Nat) (rest : List Byte) : State :=
  s.logWrite ⟨s.clk.ns, 7, 0, 0, leBytes 2 code ++ rest⟩ (code == 1 || code == 3 || code == 4)

/-! ### Raises (R387 to R390) -/

/-- The unit whose collector takes a source: stops 0–127, tower controllers 128–131, base dies 132–135. -/
def srcUnit (src : Nat) : Nat :=
  let ty := src / 512
  let inst := src % 512
  if ty < 0x20 then inst
  else if ty = 0x20 then 128 + inst % 4
  else if ty < 0x30 then 128 + inst
  else if ty < 0x40 then 132 + inst / 2
  else 132

/-- A locating code of R376 that fits the source: its tile, port or tower (DEDUCED, log entry 12). -/
def srcLoc (ty inst : Nat) : Nat :=
  if ty < 0x10 then 1 * 2 ^ 27 + inst
  else if ty < 0x20 then 1 * 2 ^ 27 + inst
  else if ty < 0x30 then 2 * 2 ^ 27 + inst
  else if ty < 0x40 then 4 * 2 ^ 27 + inst
  else 0

/-- A source whose cause is a condition (R389). -/
def srcCond (ty : Nat) : Bool := ty == 0x20 || ty == 0x23 || ty == 0x24 || ty == 0x30 || ty == 0x40 || ty == 0x41
/-- A raise of source type `ty`, instance `inst`: merged into a waiting raise of the same source, put in the collector, or kept
by the raising unit while all 8 places are taken (R390). -/
def State.raiseAs (s₀ : State) (ty inst loc arg code : Nat) (svc : Bool) : State :=
  let src := 512 * ty + inst
  let s : State := if srcCond ty then { s₀ with flt := { s₀.flt with condAt := SMap.put s₀.flt.condAt src s₀.clk.ns } } else s₀
  let u := srcUnit src
  let coll := SMap.get s.flt.coll u []
  let wait := SMap.get s.flt.unitWait u []
  let bump (l : List Raise) := l.map (fun r => if r.src = src then { r with merged := r.merged + 1 } else r)
  if coll.any (·.src == src) then { s with flt := { s.flt with coll := SMap.put s.flt.coll u (bump coll) } }
  else if wait.any (·.src == src) then { s with flt := { s.flt with unitWait := SMap.put s.flt.unitWait u (bump wait) } }
  else
    let r : Raise := ⟨src, loc, arg, code, 1, svc, 0⟩
    if coll.length < 8 then { s with flt := { s.flt with coll := SMap.put s.flt.coll u (coll ++ [r]) } }
    else { s with flt := { s.flt with unitWait := SMap.put s.flt.unitWait u (wait ++ [r]) } }
/-- A raise with the locating code of its source. -/
def State.raise (s : State) (ty inst arg code : Nat) : State := s.raiseAs ty inst (srcLoc ty inst) arg code false

/-! ### Messages and host memory -/

/-- The PCIe link is up: `PCI_LINK.SPEED` is not 0. -/
def State.linkUp (s : State) : Bool := s.fget F.PCI_LINK_SPEED 0 != 0
/-- The module may issue a memory request: the link is up, and an IDE stream is Secure while IDE is required (R272). -/
def State.hostOpen (s : State) : Bool := s.linkUp && (!s.flag F.PCI_CFG_IDE_REQ 0 || s.flag F.PCI_LINK_IDE_SECURE 0)

/-- The Mask bit of a vector in the function's MSI-X table; 1 until software writes it (log entry 33). -/
def State.vecMasked (s : State) (f vec : Nat) : Bool :=
  ((SMap.find s.pcie.table (4096 * f + 4 * vec + 3)).map (fun w => bitOf w.toNat 0)).getD true
/-- An MSI-X message of function `f`: sent, or held pending while the function or the vector masks it (R269). -/
def State.msiSend (s : State) (f vec : Nat) : State :=
  if s.pcie.msixEn.contains f && !s.pcie.fmask.contains f && !s.vecMasked f vec then
    { s with outs := { s.outs with msix := s.outs.msix ++ [(f, vec)] } }
  else if s.pcie.pba.contains (f, vec) then s
  else { s with pcie := { s.pcie with pba := s.pcie.pba ++ [(f, vec)] } }
/-- Bytes [addr, addr + n) of host memory at which a write of the module fails. -/
def State.hostFails (s : State) (addr n : Nat) : Bool := s.pcie.hostBad.any (fun r => decide (addr < r.2 ∧ r.1 < addr + n))
/-- Bytes put into host memory, unless the host refuses them. -/
def State.hostPut (s : State) (addr : Nat) (bs : List Byte) : State :=
  if s.hostFails addr bs.length then s else { s with host := (bs.zipIdx).foldl (fun h p => SMap.put h (addr + p.2) p.1) s.host }
/-- A request that waits for an IDE stream in state Secure (R272). -/
def State.outWait (s : State) (o : HostOut) : State :=
  let s1 := s.event F.PCI_STAT_IDE_WAIT 0
  { s1 with pcie := { s1.pcie with outq := s1.pcie.outq ++ [o] } }
/-- The module's requests leave in their order; those that wait for IDE keep it, and none leaves while the link is down (R252, R271). -/
def State.msi (s : State) (f vec : Nat) : State :=
  if s.hostOpen then s.msiSend f vec else if s.linkUp then s.outWait (.msix f vec) else s
def State.hostWrite (s : State) (addr : Nat) (bs : List Byte) : State :=
  if s.hostOpen then s.hostPut addr bs else if s.linkUp then s.outWait (.write addr bs) else s
/-- Requests that waited leave. -/
def State.hostFlush (s : State) : State :=
  if s.hostOpen then
    s.pcie.outq.foldl (fun a o => match o with
      | .write addr bs => a.hostPut addr bs
      | .msix f vec => a.msiSend f vec) { s with pcie := { s.pcie with outq := [] } }
  else s
/-- A write of host memory for function `f`; one that fails sets `CMD_STAT.HOST_ERR`. -/
def State.hostWriteFor (s : State) (f addr : Nat) (bs : List Byte) : State :=
  if s.linkUp && s.hostFails addr bs.length then s.event F.CMD_STAT_HOST_ERR f else s.hostWrite addr bs

/-! ### Requests from the host -/

/-- A request that R385 holds: the base die of W0 is in a partial reset. -/
def State.hostHeld (s : State) : Bool :=
  s.fget F.RST_STATE_PHASE 0 != 0 && s.fget F.RST_STATE_SCOPE 0 == 3 && s.fget F.RST_STATE_TARGET 0 == 0
/-- The function exists: the physical one, or a virtual one that SR-IOV has enabled (R268). -/
def State.funcLive (s : State) (f : Nat) : Bool := f == 0 || s.pcie.vfEnable && decide (f ≤ s.pcie.numVFs)
/-- Memory requests of a function's BARs that arrive in IDE stream `st`, or in none, are served: the link is up, the stream is Secure where
IDE is required, stage 1 is over, the function exists and is in D0 (R268, R272, R273, R374). -/
def State.memOpen (s : State) (f : Nat) (st : Option (Fin 5)) : Bool :=
  s.linkUp && (!s.flag F.PCI_CFG_IDE_REQ 0 || st.any (fun k => s.pcie.ide.contains k.val)) && s.pcie.ready && s.funcLive f && !s.pcie.d3.contains f
/-- A request is completed with an error. -/
def State.unsupported (s : State) : State := { s with outs := { s.outs with busErr := true, retry := false } }
/-- A request is completed. -/
def State.served (s : State) : State := { s with outs := { s.outs with busErr := false, retry := false } }
/-- An access of function `f`'s window by a sender: one of the host is turned away, or held, where the port does not serve it. -/
def State.viaPort (s : State) (f : Nat) (src : By) (k : State) : State :=
  match src with
  | .svc => k
  | .host st => if !s.memOpen f st then s.unsupported else if s.hostHeld then s else k

/-! ### What the part has -/

/-- A 32-bit read result returned to the reader. -/
def State.answer (s : State) (v : Nat) : State := { s with outs := { s.outs with rdata := v } }

/-- The tower that a tower reset has closed: its boundary is emptying or it is in reset (R384). -/
def State.resetTower (s : State) : Option Nat :=
  if 2 ≤ s.fget F.RST_STATE_PHASE 0 ∧ s.fget F.RST_STATE_SCOPE 0 = 2 then some (s.fget F.RST_STATE_TARGET 0 % 4) else none
/-- Bytes [da, da + n) meet a slice of the closed tower. -/
def State.towerShut (s : State) (da n : Nat) : Bool :=
  s.resetTower.any (fun w => decide (da / 2 ^ 37 ≤ w ∧ w ≤ (da + n - 1) / 2 ^ 37))

/-- Bit t of the disabled-unit map (R4). -/
def State.disabled (s : State) (t : Nat) : Bool := bitOf (s.rget .GLB_DISMAP (t / 32)).toNat (t % 32)
/-- Bit t of the fused map. -/
def State.fusedOff (s : State) (t : Nat) : Bool := bitOf (s.rget .GLB_FUSEMAP (t / 32)).toNat (t % 32)
/-- Add a unit to the disabled-unit map. -/
def State.disable (s : State) (t : Nat) : State :=
  s.rput .GLB_DISMAP (t / 32) (BitVec.ofNat 32 (setBit (s.rget .GLB_DISMAP (t / 32)).toNat (t % 32)))
/-- A port that the part has and may enable (R4, R5). -/
def State.portThere (s : State) (p : Nat) : Bool :=
  match s.fget F.GLB_FEATURES_PORTS 0 with | 3 => true | 2 => decide (p < 6) | _ => false
/-- A port that is absent from all discovery: its register window holds no register (R4). -/
def State.portAbsent (s : State) (p : Nat) : Bool := s.fget F.GLB_FEATURES_PORTS 0 == 2 && decide (6 ≤ p)
/-- Confidential mode is active (R347). -/
def State.conf (s : State) : Bool := s.fget F.SEC_CONF_ACTIVE 0 == 1

end Sys2Proof.Machine
end

