-- ==== Sys2Proof/Machine/Flags.lean ====
section
/-! DEFINITION. Every status computation of the arithmetic units: the lane results of VOP with SAT_HIT and INV (R97 to R101), the
transcendentals within the bounds of R99, and the clearing of status registers (R426, R427). -/

namespace Sys2Proof.Machine

/-! ### Clearing a status register -/

/-- A write to a status register (R426): every event bit clears when [31:16] is the current SEQ; otherwise nothing changes in it,
and the stale write is recorded. -/
def State.sqcWrite (s : State) (r : Reg) (i : Nat) (v : Word) : State :=
  let w := (s.rget r i).toNat
  if bits v.toNat 31 16 = bits w 31 16 then s.rput r i (BitVec.ofNat 32 (setBits w 15 0 0))
  else (s.fput F.GLB_SQC_LAST_OFFSET 0 (regOffset r i)).event F.GLB_STAT_SQC_STALE 0

/-! ### Transcendentals (R99) -/

/-- Fixed-point scale of the enclosures. -/
def fxOne : Nat := 2 ^ 320
/-- Partial sums of e^x for x = X / 2^320 ≥ 0: the next term and the sum, each rounded down. -/
def expSum : Nat → Nat → Nat → Nat → Nat → Nat
  | 0, _, _, _, acc => acc
  | fuel + 1, x, k, term, acc => expSum fuel x (k + 1) (term * x / (fxOne * (k + 1))) (acc + term)
/-- Lower and upper bounds of e^±|x| · 2^320 for |x| ≤ 104. -/
def expEnclosure (neg : Bool) (m : Nat) (e : Int) : Nat × Nat :=
  let x := if 0 ≤ e then m * 2 ^ e.toNat * fxOne else m * fxOne / 2 ^ (-e).toNat
  let lo := expSum 600 x 0 fxOne 0
  let hi := lo + 602
  if neg then (fxOne * fxOne / hi, fxOne * fxOne / lo + 1) else (lo, hi)

/-- FP32 codes within three steps of a code. -/
def nearCodes (c : Nat) : List Nat :=
  ((List.range 7).map (fun k => (c : Int) + k - 3)).filterMap (fun k => if 0 ≤ k ∧ k ≤ (fmtFP32.maxCode : Int) then some k.toNat else none)
/-- Exponent of an ulp at a magnitude, −149 in the subnormal range. -/
def ulpExp (m : Nat) (e : Int) : Int := max (-149) (floorLog2 m e - 23)
/-- a·2^e ≤ b·2^f. -/
def magLe (a : Nat) (e : Int) (b : Nat) (f : Int) : Bool :=
  let g := min e f
  decide (a * 2 ^ (e - g).toNat ≤ b * 2 ^ (f - g).toNat)
/-- Among the admitted codes, the one that the part returns (R100, log entry 10). -/
def pickCode (op x : Nat) (cs : List Nat) (dflt : Nat) : Nat :=
  if cs = [] then dflt else cs.getD (Config.transIndex op x % cs.length) dflt

/-- FP32 codes within 2 ulp of e^±m·2^e. -/
def expCodes (neg : Bool) (m : Nat) (e : Int) : List Nat × Nat :=
  let b := expEnclosure neg m e
  let r0 := fmtFP32.roundMag b.1 (-320)
  let u := ulpExp b.1 (-320)
  ((nearCodes r0).filter (fun c =>
      let y := fmtFP32.mag c
      -- y ≤ hi + 2u and lo ≤ y + 2u
      magLe (y.1 * 2 ^ (y.2 + 149).toNat) (-149) (b.2 + 2 ^ (u + 321).toNat) (-320)
      && magLe b.1 (-320) (y.1 * 2 ^ (y.2 + 149).toNat + 2 ^ (u + 150).toNat) (-149)), r0)
/-- FP32 codes within 1 ulp of 1/(m·2^e). -/
def recipCodes (m : Nat) (e : Int) : List Nat × Nat :=
  let k := 200 + Nat.log2 m
  let v := 2 ^ k / m
  let r0 := fmtFP32.roundMag v (-e - k)
  let u := ulpExp v (-e - k)
  ((nearCodes r0).filter (fun c =>
      let y := fmtFP32.mag c
      -- |y·x − 1| ≤ 2^u·x with x = m·2^e
      magLe (y.1 * m) (y.2 + e) (2 ^ (600 : Nat) + m * 2 ^ (u + e + 600).toNat) (-600)
      && magLe (2 ^ (600 : Nat)) (-600) (y.1 * m * 2 ^ (y.2 + e + 600).toNat + m * 2 ^ (u + e + 600).toNat) (-600)), r0)
/-- FP32 codes within 2 ulp of 1/√(m·2^e). -/
def rsqrtCodes (m : Nat) (e : Int) : List Nat × Nat :=
  -- 1/√x = √(2^(2k) / x) / 2^k, with x = m·2^e and 2k + ... even
  let v := Nat.sqrt (2 ^ ((600 : Int) - e).toNat / m)
  let r0 := fmtFP32.roundMag v (-300)
  let u := ulpExp v (-300)
  ((nearCodes r0).filter (fun c =>
      let y := fmtFP32.mag c
      -- with z = y·2^149 and w = 2·2^u·2^149: (z − w)²·x ≤ 2^298 and 2^298 ≤ (z + w)²·x
      let z := y.1 * 2 ^ (y.2 + 149).toNat
      let w := 2 ^ (u + 150).toNat
      magLe ((z - w) * (z - w) * m) e 1 298 && magLe 1 298 ((z + w) * (z + w) * m) e), r0)

/-! ### Lane results of VOP -/

/-- The result of one lane before its destination rounding: an exact value, a value already chosen as an FP32 code, or a finite
result that overflowed to infinity. -/
inductive LaneRes where
  | exact (v : FV)
  | code (c : Nat)
  | overflow (neg : Bool)
  deriving DecidableEq, Repr

/-- e^x, 1/x and 1/√x with the special inputs of R99. -/
def laneTrans (op : Nat) (x : FV) : LaneRes :=
  match op, x with
  | _, .nan => .exact .nan
  | 0x08, .inf n => .exact (if n then FV.zero else .inf false)
  | 0x08, .fin n m e =>
    if m = 0 then .exact (.fin false 1 0)
    else if !n && magLe (887228 * 1) 0 (m * 10000) e && !(magLe (m * 10000) e 887228 0) then .overflow false
    else if n && !(magLe (m * 10000) e 1039721 0) then .exact FV.zero
    else let r := expCodes n m e; .code (pickCode op (x.bits32) r.1 r.2)
  | 0x09, .inf n => .exact (.fin n 0 0)
  | 0x09, .fin n m e =>
    if m = 0 then .exact (.inf n)
    else if fmtFP32.overflows (2 ^ 200 / m) (-e - 200) then .overflow n
    else let r := recipCodes m e; .code (pickCode op (x.bits32) r.1 r.2 + b2n n * 2 ^ 31)
  | _, .inf n => .exact (if n then .nan else FV.zero)
  | _, .fin n m e =>
    if m = 0 then .exact (.inf n)
    else if n then .exact .nan
    else let r := rsqrtCodes m e; .code (pickCode op (x.bits32) r.1 r.2)

/-- −0 orders below +0 (R98). -/
def fvLess (a b : FV) : Bool := FV.lt a b || (a.isZero && b.isZero && a.isNeg && !b.isNeg)
def fvMin (a b : FV) : FV :=
  match a, b with
  | .nan, _ => .nan
  | _, .nan => .nan
  | _, _ => if fvLess b a then b else a
def fvMax (a b : FV) : FV :=
  match a, b with
  | .nan, _ => .nan
  | _, .nan => .nan
  | _, _ => if fvLess a b then b else a

/-- The operations of R97's table; none for a code it does not list. -/
def laneOp (op : Nat) (a b d : FV) : Option LaneRes :=
  match op with
  | 0x00 => some (.exact (FV.add a b))
  | 0x01 => some (.exact (FV.add a b.neg))
  | 0x02 => some (.exact (FV.mul a b))
  | 0x03 => some (.exact (fvMin a b))
  | 0x04 => some (.exact (fvMax a b))
  | 0x08 => some (laneTrans 0x08 a)
  | 0x09 => some (laneTrans 0x09 a)
  | 0x0A => some (laneTrans 0x0A a)
  | 0x10 => some (.exact a)
  | 0x11 => some (.exact a)
  | 0x20 => some (.exact (FV.add (FV.mul a b) d))
  | 0x21 => some (.exact (FV.add (FV.mul a b) d.neg))
  | 0x22 => some (.exact (FV.add (FV.mul a b).neg d))
  | _ => none
/-- Which operands an operation reads: VA always, VB, VD. -/
def opReadsB (op : Nat) : Bool := decide (op ≤ 4) || decide (0x20 ≤ op)
def opReadsD (op : Nat) : Bool := decide (0x20 ≤ op)
/-- The destination format of an operation. -/
def opFmt (op : Nat) : Fmt := if op = 0x10 then fmtBF16 else if op = 0x11 then fmtFP16 else fmtFP32

/-- One lane: result bits, SAT_HIT, INV (R98, R101). -/
def laneResult (op : Nat) (sat : Bool) (a b d : FV) : Option (Nat × Bool × Bool) :=
  (laneOp op a b d).map (fun r =>
    let f := opFmt op
    let sign (n : Bool) := b2n n * 2 ^ (f.eb + f.mb)
    match r with
    | .code c => (c, false, false)
    | .overflow n => if sat then (f.maxCode + sign n, true, false) else ((2 ^ f.eb - 1) * 2 ^ f.mb + sign n, true, false)
    | .exact v =>
      let c := f.convert sat v
      let inv := v = .nan && a ≠ .nan && (!opReadsB op || b ≠ .nan) && (!opReadsD op || d ≠ .nan)
      (c.1, c.2, inv))

end Sys2Proof.Machine
end

