-- ==== Sys2Proof/Machine/Mem.lean ====
section
/-! DEFINITION. Device memory with its end-to-end code (R119 to R142) and the scratchpad with its (72,64) code (R102, R106 to
R118): the reads and writes that every requester shares. -/

namespace Sys2Proof.Machine

/-! ### The end-to-end code (R133, R134) -/

/-- Number of 1 bits of a byte. -/
def weight8 (v : Nat) : Nat := (bitList v 8).length
/-- The 8-bit values whose weight satisfies `p`, ascending. -/
def codeValues (p : Nat → Bool) : List Nat := (List.range 256).filter (fun v => p (weight8 v))
/-- Columns of the data matrix: the 56 values of weight 3, then the first 8 of weight 5. -/
def dataCols : List Nat := codeValues (· == 3) ++ (codeValues (· == 5)).take 8
/-- Columns of the address matrix: the values of even weight above 0, one for each of DA[38:3]. -/
def addrCols : List Nat := (codeValues (fun w => w % 2 == 0 && decide (0 < w))).take 36
/-- XOR of the columns whose bit is 1. -/
def xorCols (cols : List Nat) (v : Nat) : Nat := (cols.zipIdx).foldl (fun a p => if bitOf v p.2 then a ^^^ p.1 else a) 0
/-- The 8 check bits of a word at a DA (R133). -/
def e2eCode (data da : Nat) : Nat := xorCols dataCols data ^^^ xorCols addrCols (da / 8)

/-- What R134 does with a syndrome. -/
inductive Check where
  | good
  | fixData (bit : Nat)
  | fixCheck
  | bad
  deriving DecidableEq, Repr
def checkSyndrome (sy : Nat) : Check :=
  if sy = 0 then .good
  else match dataCols.findIdx? (· == sy) with
    | some i => .fixData i
    | none => if (List.range 8).any (fun c => 2 ^ c == sy) then .fixCheck else .bad

/-! ### Placing a DA (R120, R140) -/

/-- Bank group fields of an offset. -/
def offBank (off : Nat) : Nat := bits off 9 8
def offLayer (off : Nat) : Nat := bits off 13 10
def offCol (off : Nat) : Nat := bits off 17 14
def offRow (off : Nat) : Nat := bits off 31 18
/-- Bank number 4 × (layer − 1) + bank of R128. -/
def offBank64 (off : Nat) : Nat := 4 * offLayer off + offBank off
/-- The row an offset lies in, as a number: bank64 × 2^14 + row. -/
def offRowKey (off : Nat) : Nat := 2 ^ 14 * offBank64 off + offRow off

/-- The remap entry of stop `t` in state `st` that names the row of `off`. -/
def State.remapOf (s : State) (t off st : Nat) : Option Nat :=
  (List.range 32).find? (fun n =>
    let w := (s.rget .VCH_REMAP (32 * t + n)).toNat
    decide (bits w 25 24 = st ∧ bits w 13 0 = offRow off ∧ bits w 15 14 = offBank off ∧ bits w 19 16 = offLayer off))
/-- Where the atom that holds a DA is stored: its own address, or its place in the spare row of an ACTIVE entry. -/
def State.atomPlace (s : State) (da : Nat) : Nat :=
  let t := da / 2 ^ 32
  let off := da % 2 ^ 32
  match s.remapOf t off 2 with
  | none => da - da % 256
  | some n => 2 ^ 39 + (256 * (16 * ((64 * t + offBank64 off) * 8 + bits (s.rget .VCH_REMAP (32 * t + n)).toNat 22 20) + offCol off))

/-! ### Bytes -/

/-- What a byte of device memory that nothing has written reads as: 0, with a good code (log entry 4). -/
def memDefault : Byte := 0
/-- The stored byte at a place. -/
def Memory.get (m : List Host.Cell) (a : Nat) : Byte := SMap.get m a memDefault
/-- Store a byte at a place, keeping the canonical form. -/
def Memory.set (m : List Host.Cell) (a : Nat) (b : Byte) : List Host.Cell := SMap.set m a b memDefault
/-- Store consecutive bytes. -/
def Memory.setBytes : List Host.Cell → Nat → List Byte → List Host.Cell
  | m, _, [] => m
  | m, a, b :: bs => Memory.setBytes (Memory.set m a b) (a + 1) bs
/-- Read consecutive bytes. -/
def Memory.getBytes (m : List Host.Cell) (a n : Nat) : List Byte := (List.range n).map (fun i => Memory.get m (a + i))
/-- The canonical form: addresses strictly rising, no entry equal to the default. -/
def Memory.wf (m : List Host.Cell) : Bool := SMap.sortedFrom none m && m.all (fun c => c.2 != memDefault)

/-- The on-die code of the 128-bit unit at a place is formed anew (R132, R135). -/
def softClear (m : SMap Nat) (pl : Nat) : SMap Nat := SMap.set m (pl / 256) (clrBit (SMap.get m (pl / 256) 0) (pl % 256 / 16)) 0
/-- Write one whole word at a place with a good code. -/
def State.putWord (s : State) (pl : Nat) (bs : List Byte) : State :=
  { s with mem := Memory.setBytes s.mem pl bs, synd := SMap.del s.synd (pl / 8), soft := softClear s.soft pl }
/-- Write one whole word at a place, poisoned (R134). -/
def State.putPoison (s : State) (pl : Nat) (bs : List Byte) : State :=
  { s with mem := Memory.setBytes s.mem pl bs, synd := SMap.put s.synd (pl / 8) 0xFF, soft := softClear s.soft pl }

/-- One word as R134 sees it: the corrected bytes, and the verdict. -/
def State.wordLook (s : State) (pl : Nat) : List Byte × Check :=
  let raw := Memory.getBytes s.mem pl 8
  match checkSyndrome (SMap.get s.synd (pl / 8) 0) with
  | .fixData i => (leBytes 8 (leNat raw ^^^ 2 ^ i), .fixData i)
  | v => (raw, v)
/-- The 32 words of the atom at a place. -/
def State.atomLook (s : State) (pl : Nat) : List (List Byte × Check) := (List.range 32).map (fun i => s.wordLook (pl + 8 * i))

/-! ### Corrections, the bucket, the tracker and candidates (R136 to R139, R142) -/

/-- One counted event of the leaky bucket (R138). -/
def State.bucketAdd (s : State) (t : Nat) : State :=
  let l := s.fget F.VCH_BUCKET_LEVEL t
  if s.fget F.VCH_BUCKET_DEPTH t < l + 1 then
    ((s.event F.VCH_STAT_BKT_OVF t).raise 0x11 t 0 0).fput F.VCH_BUCKET_LEVEL t 0
  else s.fput F.VCH_BUCKET_LEVEL t (l + 1)

/-- A row becomes a remap candidate: loaded, or lost while one is held; it leaves the tracker (R139). -/
def State.candidate (s : State) (t key : Nat) (ue : Bool) : State :=
  let p := s.stop t
  let s1 := s.setStop t { p with track := p.track.filter (·.1 ≠ key) }
  if s1.flag F.VCH_CAND_VALID t then s1.event F.VCH_STAT_CAND_LOST t
  else
    let bank64 := key / 2 ^ 14
    let w := key % 2 ^ 14 + 2 ^ 14 * (bank64 % 4) + 2 ^ 16 * (bank64 / 4) + 2 ^ 20 * b2n ue + 2 ^ 31
    ((s1.rput .VCH_CAND t (BitVec.ofNat 32 w)).event F.VCH_STAT_CAND t).raiseAs 0x12 t
      (3 * 2 ^ 27 + 2 ^ 13 * (key % 2 ^ 14) + 2 ^ 11 * (bank64 % 4) + 2 ^ 7 * (bank64 / 4) + t) 0 0 false

/-- A correction in a row (R139). -/
def State.trackAdd (s : State) (t key : Nat) : State :=
  let p := s.stop t
  let n := ((p.track.find? (·.1 == key)).map (·.2)).getD 0 + 1
  if s.fget F.VCH_CFG_CAND_THR t ≤ n then s.candidate t key false
  else s.setStop t { p with track := ((key, n) :: p.track.filter (·.1 ≠ key)).take 16 }

/-- A corrected read of the slice: counted in CE_CNT, the bucket and the tracker (R138, R139). -/
def State.countCorrection (s : State) (t key : Nat) : State :=
  (((s.fadd F.VCH_CE_CNT_CE_CNT t 1).event F.VCH_STAT_CE t).bucketAdd t).trackAdd t key

/-- An uncorrectable word: recorded, raised, its row a candidate (R142). -/
def State.recordUe (s : State) (t da src : Nat) : State :=
  let s1 := (s.rput .VCH_UE_LO t (BitVec.ofNat 32 da)).rput .VCH_UE_HI t
    (BitVec.ofNat 32 (da / 2 ^ 32 % 128 + 2 ^ 8 * src + 2 ^ 31))
  let off := da % 2 ^ 32
  ((s1.event F.VCH_STAT_UE t).raiseAs 0x10 t
    (3 * 2 ^ 27 + 2 ^ 13 * offRow off + 2 ^ 11 * offBank off + 2 ^ 7 * offLayer off + t) da 0 false).candidate t (offRowKey off) true

/-- SERVICE mode (R136). -/
def State.service (s : State) (t : Nat) : Bool := s.fget F.VCH_CFG_CMODE t == 0

/-- Write a corrected atom back, re-encoded (R136). -/
def State.writeBack (s : State) (pl : Nat) (ws : List (List Byte × Check)) : State :=
  (ws.zipIdx).foldl (fun a p => match p.1.2 with
    | .fixData _ => a.putWord (pl + 8 * p.2) p.1.1
    | .fixCheck => a.putWord (pl + 8 * p.2) p.1.1
    | _ => a) { s with soft := SMap.del s.soft (pl / 256) }

/-- Whether a verdict is a correction. -/
def Check.fixed : Check → Bool
  | .fixData _ => true
  | .fixCheck => true
  | _ => false

/-- A read of one atom by the stop: every word checked, corrections, on-die ones among them, counted and written back, uncorrectable words
recorded with class `src` (R132, R134, R136, R138, R460). Class 16 + u stands for the DMA of tile u: 1 in its own slice, 2 elsewhere.
Returns the 32 words. -/
def State.atomRead (s : State) (da src₀ : Nat) (ondie : Nat) : State × List (List Byte × Check) :=
  let t := da / 2 ^ 32
  let src := if 16 ≤ src₀ then (if t = src₀ - 16 then 1 else 2) else src₀
  let base := da - da % 256
  let pl := s.atomPlace da
  let ws := s.atomLook pl
  let fixed := ws.any (·.2.fixed) || decide (ondie ≠ 0) || decide (SMap.get s.soft (pl / 256) 0 ≠ 0)
  let s1 := if fixed then s.countCorrection t (offRowKey (da % 2 ^ 32)) else s
  let s2 := if fixed && s.service t && (src ≠ 7 || ws.all (·.2 ≠ .bad)) then s1.writeBack pl ws else s1
  let s3 := (ws.zipIdx).foldl (fun a p => if p.1.2 = .bad then a.recordUe t (base + 8 * p.2) src else a) s2
  (s3, ws)

/-- Bytes [lo, lo+n) of an atom, and the DA of the first uncorrectable word among them. -/
def atomPart (ws : List (List Byte × Check)) (base lo n : Nat) : List Byte × Option Nat :=
  ((ws.flatMap (·.1)).drop lo |>.take n,
   ((List.range 32).find? (fun i => (ws[i]?.map (·.2)) = some .bad && decide (8 * i < lo + n ∧ lo < 8 * i + 8))).map (base + 8 * ·))

/-! ### What the stop holds a request for (R122, R126, R131, R141, R157, R158) -/

/-- tREFI of a bank of stop `t` in mc (R128). -/
def State.tRefi (s : State) (t b : Nat) : Nat := if bitOf (s.fget F.VCH_REF_FAST t) (b / 4) then 2925 else 5850
/-- The mesh cycle in which a bank's next refresh falls due: floor(k × T / 64) mc into the interval (R128). -/
def State.refDue (s : State) (t b : Nat) : Nat := SMap.get (s.stop t).nextRef b (b * s.tRefi t b / 64)
/-- The first due time of bank `b` after a mesh cycle, at the normal rate. -/
def refGrid (b mc : Nat) : Nat := let o := b * 5850 / 64
  if mc < o then o else o + ((mc - o) / 5850 + 1) * 5850
/-- What R131 holds back ahead of a refresh, and until tRFCpb after it: an ACT in the 63 mc before it, a write whose tWR would delay the
PRE that stands 21 mc before it, and anything after that PRE. -/
def State.refHold (s : State) (t b : Nat) (act write : Bool) : Bool :=
  let d := s.refDue t b
  let m := s.clk.mc
  (SMap.find (s.stop t).lastRef b).any (fun r => decide (m < r + 90)) || decide (d ≤ m + 21) || (act && decide (d ≤ m + 63))
    || (write && decide (d < m + 50))
/-- A request for the row of offset `off` needs an ACT. -/
def State.needAct (s : State) (t off : Nat) : Bool := SMap.find (s.stop t).rowOf (offBank64 off) != some (offRow off)
/-- The stop may not serve a request for offset `off` of its slice now: its bank is lent and the lease pause does not serve it, its layer
is held for training, its row is being copied, an older request for the bank is held, its ACT would fall into the quiet time of a core's
start, or ahead of a refresh in scheduled-slot mode; or its tower is closed for a reset (R384). -/
def State.bankHeld (s : State) (t off : Nat) (write : Bool) : Bool :=
  let g := s.gate
  let b := offBank64 off
  let key := 64 * t + b
  let act := s.needAct t off
  s.resetTower == some (t / 32) || (g.lent.contains key && !g.serve.any (fun x => x.1 == key && some x.2 == g.who))
    || g.layers.contains (16 * t + offLayer off) || g.rows.contains (2 ^ 20 * t + offRowKey off)
    || (g.held.takeWhile (fun w => some w.who != g.who)).any (fun w => w.bank == key)
    || (act && (SMap.find g.quiet (16 * t + offLayer off)).any (fun m => decide (s.clk.mc < m + 8)))
    || (g.slots.contains t && s.refHold t b act write)
/-- A request opens its row, with an ACT unless the row is open, and counts as the bank's last (R123, R157). -/
def State.openRow (s : State) (t off : Nat) : State :=
  let p := s.stop t
  let b := offBank64 off
  let p1 := { p with lastUse := SMap.put p.lastUse b s.clk.mc }
  s.setStop t (if s.needAct t off then
    { p1 with rowOf := SMap.put p.rowOf b (offRow off), acts := SMap.put p.acts (b / 4) s.clk.mc } else p1)
/-- The bank of an offset holds the command that runs now; what no command asks for is not held (log entry 79). -/
def State.block (s : State) (t off : Nat) : State :=
  if s.gate.who.isNone then s.openRow t off else { s with gate := { s.gate with blk := s.gate.blk ++ [64 * t + offBank64 off] } }
/-- The stop meets a request for the atom of a DA: held, behind an accepted read of the same atom too (R122), or served from the row. -/
def State.note (s : State) (da : Nat) (write : Bool) : State :=
  let t := da / 2 ^ 32
  let off := da % 2 ^ 32
  if s.bankHeld t off write || s.gate.reqs.any (fun r => r.da / 256 == da / 256) then s.block t off else s.openRow t off

/-- The tiles whose stop is in scheduled-slot mode. -/
def State.slotTiles (s : State) : List Nat := (List.range 128).filter (fun t => s.flag F.MESH_CFG_SLOT_EN t)
/-- What reads or writes device memory for `w`: it takes effect when no bank holds it, and then is no longer held; else it waits as a whole,
held since the mesh cycle in which the stop first met it, and is to be sent again (R158, R159, log entry 79). None when it is held. -/
def State.settleFor {α : Type} (s : State) (w : Who) (k : State → State × α) : State × Option α :=
  let r := k { s with gate := { s.gate with who := some w, slots := s.slotTiles, blk := [] } }
  let g := r.1.gate
  if g.blk.isEmpty then
    ({ r.1 with gate := { g with who := s.gate.who, slots := s.gate.slots, blk := s.gate.blk
                                 held := g.held.filter (·.who ≠ w), serve := g.serve.filter (·.2 ≠ w) } }, some r.2)
  else
    let new := g.blk.eraseDups.filter (fun b => !s.gate.held.any (fun x => x.bank == b && x.who == w))
    ({ s with gate := { s.gate with held := s.gate.held ++ new.map (fun b => ⟨b, w, s.clk.mc⟩) } }, none)
/-- A command that reads or writes device memory. -/
def State.settle (s : State) (c : Instr) (k : State → State) : State := (s.settleFor (.cmd c) (fun s => (k s, ()))).1
/-- What a tile asks for: its instructions and the rows of its channels. -/
def Who.ofTile (t : Nat) : Who → Bool
  | .tile u => u == t
  | .cmd (.dmaReadResponse u _ _ _ _) => u.val == t
  | _ => false
/-- The requests of a tile that is fenced or reset are no longer held (R77). -/
def State.forget (s : State) (t : Nat) : State :=
  { s with gate := { s.gate with held := s.gate.held.filter (fun w => !w.who.ofTile t), serve := s.gate.serve.filter (fun w => !w.2.ofTile t) } }

/-! ### Reads and writes -/

/-- Read `k` bytes of one atom: none of them, and the DA of the bad word, when the bytes meet an uncorrectable one (R460). -/
def State.atomBytes (s : State) (da k src : Nat) : State × List Byte × Option Nat :=
  let r := (s.note da false).atomRead da src 0
  let part := atomPart r.2 (da - da % 256) (da % 256) k
  (r.1, if part.2.isSome then [] else part.1, part.2)
/-- Read [da, da+n) atom by atom, stopping after the first atom whose requested bytes meet an uncorrectable word: bytes before
it, and its DA. Fuel is the number of atoms. -/
def State.daReadGo : Nat → State → Nat → Nat → Nat → State × List Byte × Option Nat
  | 0, s, _, _, _ => (s, [], none)
  | fuel + 1, s, da, n, src =>
    if n = 0 then (s, [], none)
    else
      let k := min n (256 - da % 256)
      let r := s.atomBytes da k src
      if r.2.2.isSome then r
      else
        let q := State.daReadGo fuel r.1 (da + k) (n - k) src
        (q.1, r.2.1 ++ q.2.1, q.2.2)
/-- Read device memory with requester class `src` of `VCH_UE_HI`. -/
def State.daRead (s : State) (da n src : Nat) : State × List Byte × Option Nat := State.daReadGo ((da + n) / 256 + 1 - da / 256) s da n src

/-- Write bytes that lie in one word: whole, or merged under R135 (class 6). Second result: the word was uncorrectable. -/
def State.wordWrite (s : State) (da : Nat) (bs : List Byte) : State × Bool :=
  let s := s.note da true
  if bs.length = 8 then (s.putWord (s.atomPlace da + da % 256) bs, false)
  else
    let r := s.atomRead da 6 0
    let w := da - da % 8
    match r.2[(w % 256) / 8]? with
    | some (old, v) =>
      if v = .bad then (r.1, true)
      else
        let lo := da % 8
        (r.1.putWord (r.1.atomPlace w + w % 256) (old.take lo ++ bs ++ old.drop (lo + bs.length)), false)
    | none => (r.1, false)

/-- Write [da, da+n) word by word, up to a word refused under R135: its DA; nothing after it is written (R142). -/
def State.daWriteGo : Nat → State → Nat → List Byte → State × Option Nat
  | 0, s, _, _ => (s, none)
  | fuel + 1, s, da, bs =>
    if bs = [] then (s, none)
    else
      let k := min bs.length (8 - da % 8)
      let r := s.wordWrite da (bs.take k)
      if r.2 then (r.1, some (da - da % 8)) else State.daWriteGo fuel r.1 (da + k) (bs.drop k)
/-- Write device memory. -/
def State.daWrite (s : State) (da : Nat) (bs : List Byte) : State × Option Nat := State.daWriteGo ((da + bs.length) / 8 + 1 - da / 8) s da bs

/-- DA[39] is 0 and every byte of [da, da+n) lies in the module's slices (R9). -/
def daOk (da n : Nat) : Bool := decide (da + n ≤ 2 ^ 39)

/-! ### Scratchpad ownership (R106 to R108, R111, R113) -/

/-- Owner classes of R106. -/
inductive OwnClass where | none | prog | remote | svc | bsx
  deriving DecidableEq, Repr
def OwnClass.code : OwnClass → Nat
  | .none => 0 | .prog => 1 | .remote => 2 | .svc => 3 | .bsx => 4

/-- The OWNER field of a bank. -/
def State.owner (s : State) (t b : Nat) : Nat :=
  if b < 8 then bits (s.rget .SPM_OWN0 t).toNat (4 * b + 2) (4 * b)
  else bits (s.rget .SPM_OWN1 t).toNat (4 * (b - 8) + 2) (4 * (b - 8))
/-- Set the OWNER field of a bank. -/
def State.setOwner (s : State) (t b v : Nat) : State :=
  if b < 8 then s.rput .SPM_OWN0 t (BitVec.ofNat 32 (setBits (s.rget .SPM_OWN0 t).toNat (4 * b + 2) (4 * b) v))
  else s.rput .SPM_OWN1 t (BitVec.ofNat 32 (setBits (s.rget .SPM_OWN1 t).toNat (4 * (b - 8) + 2) (4 * (b - 8)) v))

/-- What a bank answers a requester: served, refused under R107, or held until a wipe ends (R113). -/
inductive Grant where | yes | refused | wait
  deriving DecidableEq, Repr

/-- The answer of bank `b` to a class; the exchange banks serve PROG through port A whatever OWNER holds (R108). -/
def State.bankGrant (s : State) (t b : Nat) (c : OwnClass) : Grant :=
  let e := s.eng t
  if e.wiping.contains b then .wait
  else if b < 2 && c = .prog then .yes
  else if (SMap.find e.hand b).isSome then .refused
  else if s.owner t b = c.code then .yes else .refused
/-- The banks that [off, off+n) touches. -/
def banksOf (off n : Nat) : List Nat :=
  (List.range 16).filter (fun b => decide (off < 2 ^ 19 * (b + 1) ∧ 2 ^ 19 * b < off + n))
/-- The answer to an access of [off, off+n). -/
def State.spmGrant (s : State) (t off n : Nat) (c : OwnClass) : Grant :=
  let g := (banksOf off n).map (fun b => s.bankGrant t b c)
  if g.contains .refused then .refused else if g.contains .wait then .wait else .yes

/-! ### Port arbitration (R104, R105) -/

/-- Place of a requester in the order of R104: 0 west feeder, 1 north feeder, 2 drain, 3 load lane, 4 mask read, 5 vector, 6 scalar,
8 + n channel n of the tile, in round-robin order from the one after `last`, 16 + k the stop-side requester accepted k-th. -/
def portPlace (last r : Nat) : Nat := if 8 ≤ r ∧ r < 16 then 8 + (r - 8 + 7 - last % 8) % 8 else r
def portFirst (last : Nat) (l : List Nat) : Option Nat :=
  l.foldl (fun a r => match a with
    | none => some r
    | some b => if portPlace last r < portPlace last b then some r else some b) none
/-- The requester that a port serves in a tc: one that has waited `starve` tc before the others, the first of R104 among equals. -/
def portServe (starve last : Nat) (waited : Nat → Nat) (l : List Nat) : Option Nat :=
  let old := l.filter (fun r => decide (starve ≤ waited r))
  portFirst last (if old = [] then l else old)
/-- One tc of the ports of a tile: `wants` says which requester wants which port; the pairs served, and every other one waits. -/
def Eng.portTc (e : Eng) (starve : Nat) (wants : List (Nat × Nat)) : Eng × List (Nat × Nat) :=
  let waited (p r : Nat) : Nat := SMap.get e.portWait (32 * p + r) 0
  let served := (wants.map (·.1)).eraseDups.filterMap (fun p =>
    (portServe starve (SMap.get e.portLast p 7) (waited p) ((wants.filter (·.1 == p)).map (·.2))).map (fun r => (p, r)))
  ({ e with
      portWait := (wants.filter (fun w => !served.contains w)).foldl (fun m w => SMap.put m (32 * w.1 + w.2) (waited w.1 w.2 + 1)) []
      portLast := (served.filter (fun w => decide (8 ≤ w.2 ∧ w.2 < 16))).foldl (fun m w => SMap.put m w.1 (w.2 - 8)) e.portLast }, served)

/-! ### Scratchpad words (R116, R118) -/

/-- Key of a scratchpad byte. -/
def spmKey (t off : Nat) : Nat := 2 ^ 23 * t + off
/-- Number of flipped bits of a word. -/
def flips (m : Nat) : Nat := (bitList m 72).length
def State.spmRaw (s : State) (t off n : Nat) : List Byte := (List.range n).map (fun i => SMap.get s.spm (spmKey t off + i) 0)

/-- An uncorrectable scratchpad word: recorded, flagged and raised (R118). -/
def State.spmUe (s : State) (t off : Nat) : State :=
  ((s.rput .SPM_UE_LAST t (BitVec.ofNat 32 (off + 2 ^ 31))).event F.SPM_STAT_UE t).raise 0x02 t off 0
/-- A corrected scratchpad word: counted, its write-back owed in SERVICE mode (R116). -/
def State.spmCe (s : State) (t w : Nat) : State :=
  let s1 := (s.fadd F.SPM_CE_CNT_CE_CNT t 1).event F.SPM_STAT_CE t
  let s2 := s1.bucketAdd t
  if s.service t then
    let e := s2.eng t
    s2.setEng t { e with wback := if e.wback.contains w then e.wback else e.wback ++ [w] }
  else s2

/-- Read the 8-byte word at offset `off` (a multiple of 8): its bytes, or none when it reads uncorrectable. Three or more flips
may be reported, corrected to another value, or read as good data: which, and what value, is free (R118). -/
def State.spmWord (s : State) (t off : Nat) : State × Option (List Byte) :=
  let m := SMap.get s.spmErr (spmKey t off / 8) 0
  let d := s.spmRaw t off 8
  if m = 0 then (s, some d)
  else if flips m = 1 then (s.spmCe t (off / 8), some d)
  else if flips m = 2 then (s.spmUe t off, none)
  else
    let a := s.free 2
    let b := a.2.free 64
    if a.1 = 0 then (b.2.spmUe t off, none)
    else if a.1 = 1 then (b.2.spmCe t (off / 8), some (leBytes 8 b.1))
    else (b.2, some (leBytes 8 b.1))

/-- Read [off, off+n): bytes, or none when any word of it reads uncorrectable. -/
def State.spmReadGo : Nat → State → Nat → Nat → Nat → State × Option (List Byte)
  | 0, s, _, _, _ => (s, some [])
  | fuel + 1, s, t, off, n =>
    if n = 0 then (s, some [])
    else
      let k := min n (8 - off % 8)
      let r := s.spmWord t (off - off % 8)
      let q := State.spmReadGo fuel r.1 t (off + k) (n - k)
      match r.2, q.2 with
      | some d, some rest => (q.1, some ((d.drop (off % 8)).take k ++ rest))
      | _, _ => (q.1, none)
def State.spmRead (s : State) (t off n : Nat) : State × Option (List Byte) := State.spmReadGo ((off + n) / 8 + 1 - off / 8) s t off n

/-- Store bytes of a scratchpad word with a good code. -/
def State.spmPut (s : State) (t off : Nat) (bs : List Byte) : State :=
  { s with spm := (bs.zipIdx).foldl (fun m p => SMap.set m (spmKey t off + p.2) p.1 0) s.spm
           spmErr := SMap.del s.spmErr (spmKey t off / 8) }

/-- Write [off, off+n), word by word, leaving out the words of `skip`; a part of a word whose stored copy is uncorrectable is
refused (R118). Second result: some word was refused. -/
def State.spmWriteGo : Nat → State → Nat → Nat → List Byte → List Nat → Bool → State × Bool
  | 0, s, _, _, _, _, bad => (s, bad)
  | fuel + 1, s, t, off, bs, skip, bad =>
    if bs = [] then (s, bad)
    else
      let k := min bs.length (8 - off % 8)
      let w := off - off % 8
      let rest := bs.drop k
      if skip.contains w then State.spmWriteGo fuel s t (off + k) rest skip bad
      else if k = 8 then State.spmWriteGo fuel (s.spmPut t off (bs.take k)) t (off + k) rest skip bad
      else
        let r := s.spmWord t w
        match r.2 with
        | none => State.spmWriteGo fuel r.1 t (off + k) rest skip true
        | some d =>
          let d' := d.take (off % 8) ++ bs.take k ++ d.drop (off % 8 + k)
          State.spmWriteGo fuel (r.1.spmPut t w d') t (off + k) rest skip bad
def State.spmWrite (s : State) (t off : Nat) (bs : List Byte) : State × Bool :=
  State.spmWriteGo ((off + bs.length) / 8 + 1 - off / 8) s t off bs [] false

/-- Count and record a word of port B dropped for port A (R109). -/
def State.spmDrop (s : State) (t cls w : Nat) : State :=
  ((s.fadd F.SPM_COLL_COLL t 1).rput .SPM_COLL_LAST t (BitVec.ofNat 32 (w + 2 ^ 24 * cls))).event F.SPM_STAT_COLLIDE t
/-- A write through port B of an exchange bank while port A writes the words `portA` in the same tc: those words are dropped
whole (R109). Results: uncorrectable, and collided. -/
def State.spmWriteB (s : State) (t off : Nat) (bs : List Byte) (cls : Nat) (portA : List Nat) : State × Bool × Bool :=
  let covered := (List.range (bs.length / 8 + 2)).map (fun i => off - off % 8 + 8 * i)
  let dropped := covered.filter (fun w => portA.contains w && decide (w < off + bs.length))
  let s1 := dropped.foldl (fun a w => a.spmDrop t cls w) s
  let r := State.spmWriteGo ((off + bs.length) / 8 + 1 - off / 8) s1 t off bs dropped false
  (r.1, r.2, !dropped.isEmpty)

/-- A refused access (R107). -/
def State.spmViol (s : State) (t : Nat) : State := s.event F.SPM_STAT_OWN_VIOL t

end Sys2Proof.Machine
end

