-- ==== Sys2Proof/Machine/CmdOps.lean ====
section
/-! DEFINITION. Queue pairs, descriptors and completions as every descriptor's meaning uses them (R239 to R261). -/

namespace Sys2Proof.Machine

/-! ### Descriptor fields (R253) -/

def Descr.type (d : Descr) : Nat := leAt d.bytes 0 1
def Descr.flags (d : Descr) : Nat := leAt d.bytes 1 1
def Descr.barrier (d : Descr) : Bool := bitOf d.flags 0
def Descr.quiet (d : Descr) : Bool := bitOf d.flags 1
def Descr.irq (d : Descr) : Bool := bitOf d.flags 2
def Descr.ctx (d : Descr) : Nat := leAt d.bytes 4 4
def Descr.tag (d : Descr) : List Byte := (d.bytes.drop 8).take 8
/-- An unsigned field of `n` bytes at byte `i`. -/
def Descr.u (d : Descr) (i n : Nat) : Nat := leAt d.bytes i n
/-- A signed 32-bit field. -/
def Descr.i32 (d : Descr) (i : Nat) : Int := signed 32 (leAt d.bytes i 4)

/-- Status codes of R258. -/
def stOK : Nat := 0
def stBAD_TYPE : Nat := 1
def stBAD_DESC : Nat := 2
def stADDR : Nat := 3
def stADDR_RANGE : Nat := 4
def stFUNC_DENIED : Nat := 5
def stUNSUP : Nat := 6
def stABORTED : Nat := 7
def stHOST_ACCESS : Nat := 8
def stCONF_DENIED : Nat := 9
def stTASKLET_TRAP : Nat := 0x101
def stBAD_HOME : Nat := 0x102
def stENGINE_FENCED : Nat := 0x103
def stBAD_GROUP : Nat := 0x104
def stDRAM_UE : Nat := 0x105
def stSPM_OWNER : Nat := 0x106
def stPATH_RESET : Nat := 0x107
def stBAD_CTX : Nat := 0x201
def stNO_CTX : Nat := 0x202
def stBAD_SHAPE : Nat := 0x203
def stSTATE : Nat := 0x204
def stSWAP_AUTH : Nat := 0x205
def stCTX_FAILED : Nat := 0x206
def stKV_UE : Nat := 0x207
def stNO_SWAP : Nat := 0x208
def stSTALE_GEN : Nat := 0x301
def stFENCE_TMO : Nat := 0x401
def stLEAF_UNKNOWN : Nat := 0x402
def stBUF_SMALL : Nat := 0x403
def stFW_HASH : Nat := 0x404
def stFW_STATE : Nat := 0x405
def stUNSIGNED : Nat := 0x406

/-! ### Requests outstanding at the host (R262) -/

/-- Host reads outstanding beside those of swap slots: poll reads, descriptors, mailboxes, the boot image. -/
def State.readsOut (s : State) : Nat :=
  min 4 s.cmd.polls.length + (s.cmd.qps.map (fun e => (e.2.ring.filter (fun d => d.started && d.prog == 1)).length)).sum + s.sec.mbxRead.length
/-- A command may read host memory: the link serves it, and fewer than 1,024 reads are outstanding, those of swap slots counted. -/
def State.mayRead (s : State) : Bool := s.hostOpen && decide (s.readsOut + s.kv.ins.length < 1024)
/-- The slot read of a swap-in is outstanding. -/
def State.slotAsked (s : State) (c : Nat) : Bool :=
  s.hostOpen && ((s.kv.ins.map (·.1)).take (1024 - s.readsOut)).contains c

/-! ### Queue pairs -/

/-- The function that owns a global queue pair (R239). -/
def State.qpFunc (s : State) (q : Nat) : Option Nat :=
  (List.range 257).find? (fun f => let b := s.fget F.CMD_FQ_QBASE f; decide (b ≤ q ∧ q < b + s.fget F.CMD_FQ_QCNT f))
/-- States of R260. -/
def qpDISABLED : Nat := 0
def qpACTIVE : Nat := 1
def qpDRAINING : Nat := 2
def qpERROR : Nat := 3
def State.qpState (s : State) (q : Nat) : Nat := s.fget F.CMD_QP_STATE_STATE q
/-- The descriptor of a queue pair with this index. -/
def Qp.find (x : Qp) (idx : Nat) : Option Descr := x.ring.find? (·.idx == idx)
/-- The descriptors of the current generation, in ring order. -/
def Qp.live (x : Qp) : List Descr := x.ring.filter (fun d => d.idx / 2 ^ 32 == x.gen)
def State.descr (s : State) (q idx : Nat) : Option Descr := (s.qp q).find idx
/-- The descriptor is of an earlier generation: its host writes, records and messages are discarded (R260, R271). -/
def State.descrDead (s : State) (q idx : Nat) : Bool := idx / 2 ^ 32 != (s.qp q).gen
/-- Replace a descriptor. -/
def State.setDescr (s : State) (q : Nat) (d : Descr) : State :=
  let x := s.qp q
  s.setQp q { x with ring := x.ring.map (fun e => if e.idx = d.idx then d else e) }
/-- A host write that a descriptor makes. -/
def State.descrWrite (s : State) (q idx addr : Nat) (bs : List Byte) : State :=
  if s.descrDead q idx then s else s.hostWriteFor ((s.qpFunc q).getD 0) addr bs
/-- Entries of the completion ring, and those still free: consumed ones and reserved ones counted (R244). -/
def State.cqSize (s : State) (q : Nat) : Nat := 2 ^ s.fget F.CMD_QP_CFG_CQ_LOG2 q
def State.cqRoom (s : State) (q : Nat) : Nat :=
  let x := s.qp q
  s.cqSize q - (x.reserved + (x.cqProd + 2 ^ 32 - x.cqCons) % 2 ^ 32)
/-- The address of the descriptor of a submission index, and of the record of a completion index (R241). -/
def State.sqSlot (s : State) (q i : Nat) : Nat :=
  s.get64 .CMD_QP_SQ_LO .CMD_QP_SQ_HI q + 128 * (i % 2 ^ s.fget F.CMD_QP_CFG_SQ_LOG2 q)
def State.cqSlot (s : State) (q i : Nat) : Nat := s.get64 .CMD_QP_CQ_LO .CMD_QP_CQ_HI q + 32 * (i % s.cqSize q)

/-- The DISPATCH at the head of an ACTIVE queue pair: the first descriptor that has not started. -/
def State.headDisp (s : State) (q : Nat) : Option Nat :=
  if s.qpState q = qpACTIVE then (((s.qp q).live.find? (fun d => !d.started)).filter (fun d => leAt d.bytes 0 1 == 1)).map (·.idx) else none
/-- The waiting DISPATCHes follow a change of a queue pair's ring (R251). -/
def State.headSync (s : State) (q : Nat) : State :=
  let h := s.headDisp q
  let l := s.cmd.waitDisp.filter (fun x => x.1 ≠ q || h == some x.2)
  { s with cmd := { s.cmd with waitDisp := match h with
    | some i => if l.contains (q, i) then l else l ++ [(q, i)]
    | none => l } }

/-- Move a queue pair to ERROR with a code: CMD_QP raised, nothing more starts (R260). -/
def State.qpError (s : State) (q code : Nat) : State :=
  let f := (s.qpFunc q).getD 0
  ((((s.fput F.CMD_QP_STATE_STATE q qpERROR).fput F.CMD_QP_STATE_ERR q code).event F.CMD_STAT_QP_ERR f).raise 0x45 f q 0).headSync q
/-- ERR of a failed completion write: no further record is written (R260). -/
def qeWRITE : Nat := 4
def State.qpMute (s : State) (q : Nat) : Bool := s.fget F.CMD_QP_STATE_ERR q == qeWRITE

/-- DRAINING ends when the last started descriptor has completed (R260). -/
def State.drainCheck (s : State) (q : Nat) : State :=
  if s.qpState q = qpDRAINING && (s.qp q).live.isEmpty then s.fput F.CMD_QP_STATE_STATE q qpDISABLED else s

/-- The MSI-X message that a record causes (R259). -/
def State.completeIrq (s : State) (q : Nat) (urgent : Bool) : State :=
  let f := (s.qpFunc q).getD 0
  let mode := s.fget F.CMD_QP_CFG_IRQ q
  let vec := s.fget F.CMD_QP_CFG_VEC q
  let x := s.qp q
  if mode = 0 then s
  else if mode = 1 || urgent || decide (s.fget F.CMD_QP_COAL_COUNT q ≤ x.coal + 1) then (s.setQp q { x with coal := 0 }).msi f vec
  else s.setQp q { x with coal := x.coal + 1, coalAt := if x.coal = 0 then s.clk.ns else x.coalAt }

/-- Write one completion record (R243, R252, R256); a write that fails moves the queue pair to ERROR (R260). -/
def State.writeRecord (s : State) (q didx status type cflags : Nat) (tag result : List Byte) (irq : Bool) : State :=
  let x := s.qp q
  let f := (s.qpFunc q).getD 0
  if s.descrDead q didx || s.qpMute q then s
  else if s.linkUp && s.hostFails (s.cqSlot q x.cqProd) 32 then
    let s1 := s.event F.CMD_STAT_HOST_ERR f
    if s.qpState q = qpACTIVE || s.qpState q = qpDRAINING then s1.qpError q qeWRITE else s1
  else
    let phase := 1 - (x.cqProd / s.cqSize q) % 2
    let rec_ := leBytes 4 didx ++ leBytes 2 status ++ leBytes 1 type ++ leBytes 1 (cflags + phase) ++ padTo 8 tag ++ padTo 16 result
    let s1 := (s.hostWrite (s.cqSlot q x.cqProd) rec_).setQp q { x with cqProd := (x.cqProd + 1) % 2 ^ 32 }
    s1.completeIrq q (irq || decide (status ≠ 0))

/-- Entries that a descriptor reserves (R244). -/
def Descr.entries (d : Descr) : Nat := if d.type = 0x12 then 2 else 1
/-- A descriptor completes: its record is written (not when QUIET and OK), its reserved entries are released but for `keep`, it
leaves the queue pair (R244, R252, R253). -/
def State.completeKeep (s : State) (q : Nat) (d : Descr) (status cflags keep : Nat) (result : List Byte) : State :=
  let s0 := if status = stCONF_DENIED then s.event F.SEC_STAT_CONF_DENY 0 else s
  let s1 := if d.quiet && status = 0 then s0 else s0.writeRecord q d.idx status d.type cflags d.tag result d.irq
  let x := s1.qp q
  let s2 := s1.setQp q { x with ring := x.ring.filter (·.idx ≠ d.idx)
                                reserved := x.reserved - (if d.started && !s1.descrDead q d.idx then d.entries - keep else 0) }
  let s3 := s2.fput F.CMD_QP_STATE_INFLIGHT q (s2.qp q).ring.length
  (s3.headSync q).drainCheck q
def State.complete (s : State) (q : Nat) (d : Descr) (status : Nat) (result : List Byte) : State :=
  s.completeKeep q d status 0 0 result

/-- The order and room conditions under which a descriptor may start (R244, R250, R254): its queue pair is ACTIVE, every earlier
one has started, no earlier FENCE is unfinished, all earlier ones have completed when it carries BARRIER (or its queue pair
is in lock-step after a numbered dispatch, R368), and the entries reserved and not consumed stay below the ring's size. -/
def State.mayStart (s : State) (q : Nat) (d : Descr) : Bool :=
  let earlier := (s.qp q).live.takeWhile (·.idx ≠ d.idx)
  let lock := s.lck.live && s.fget F.LCK_CFG_QP 0 == q
  s.qpState q == qpACTIVE && !d.started && earlier.all (fun e => e.started && e.type ≠ 0x30)
    && (!d.barrier || earlier.isEmpty) && !(lock && earlier.any (fun e => e.type == 1))
    && decide (d.entries < s.cqRoom q)

/-- The module leaves Sentry (R311). -/
def State.sentryExit (s : State) : State :=
  if s.flag F.LUL_STATE_SENTRY 0 then
    let s1 := { s with thm := { s.thm with senSum := [], senProd := [] } }
    (s1.fput F.LUL_STATE_SENTRY 0 0).fadd F.LUL_WAKES_WAKES 0 1
  else s

/-- RESULT of a descriptor that completes before it has done anything (R256). -/
def Descr.noResult (d : Descr) : List Byte :=
  if d.type = 0x01 then leBytes 4 0 ++ leBytes 3 0xFFFFFF else if d.type = 0x42 then leBytes 4 (d.u 20 4) else []
/-- Descriptors that have not started complete ABORTED in ring order, each as its record finds room (R244, R260, log entry 83). -/
def State.abortGo : Nat → State → Nat → State
  | 0, s, _ => s
  | k + 1, s, q =>
    match (s.qp q).live.find? (fun d => !d.started) with
    | none => s
    | some d => if s.cqRoom q ≤ 1 && !s.qpMute q then s else State.abortGo k (s.complete q d stABORTED d.noResult) q
/-- Go on with the drain of a queue pair. -/
def State.qpDrainGo (s : State) (q : Nat) : State :=
  if s.qpState q = qpDRAINING then (State.abortGo (s.qp q).ring.length s q).drainCheck q else s
/-- EN = 0, or an order to drain (R260): descriptors that have not started complete ABORTED; nothing more starts. -/
def State.qpDrain (s : State) (q : Nat) : State :=
  if s.qpState q = qpACTIVE || s.qpState q = qpERROR then
    (((s.fput F.CMD_QP_CFG_EN q 0).fput F.CMD_QP_STATE_STATE q qpDRAINING).headSync q).qpDrainGo q
  else s
/-- A Function Level Reset or the loss of the link disables a queue pair: started descriptors run on, their host writes, completions
and interrupts are discarded (R260, R271). -/
def State.qpKill (s : State) (q : Nat) : State :=
  let x := s.qp q
  let s1 := s.setQp q { x with ring := x.ring.filter (·.started), gen := x.gen + 1, reserved := 0, coal := 0 }
  let s2 := (s1.fput F.CMD_QP_CFG_EN q 0).fput F.CMD_QP_STATE_STATE q qpDISABLED
  (s2.fput F.CMD_QP_STATE_INFLIGHT q (s2.qp q).ring.length).headSync q
/-- Queue pairs that have ever been enabled, by global number. -/
def State.qpKeys (s : State) : List Nat := s.cmd.qps.map (·.1)

/-- Mark a descriptor started and reserve its completion entries (R244). -/
def State.markStarted (s : State) (q : Nat) (d : Descr) : State :=
  let s1 := s.setDescr q { d with started := true, since := s.clk.ns }
  let x := s1.qp q
  (s1.setQp q { x with reserved := x.reserved + d.entries }).headSync q

/-- Whether a function may issue a type (R253). -/
def State.typeAllowed (s : State) (f type : Nat) : Bool :=
  if type = 0x20 then f == 0 || s.flag F.CMD_FDA_PRIV f
  else if type = 0x42 then f == 0
  else true
/-- The known types. -/
def knownTypes : List Nat := [0x01, 0x02, 0x10, 0x11, 0x12, 0x13, 0x14, 0x15, 0x20, 0x30, 0x31, 0x40, 0x41, 0x42]

/-- A DA lies in the slices that function `f` may name (R240). -/
def State.daAllowed (s : State) (f da : Nat) : Bool :=
  f == 0 || (let a := s.fget F.CMD_FDA_SL_FIRST f; decide (a ≤ da / 2 ^ 32 ∧ da / 2 ^ 32 < a + s.fget F.CMD_FDA_SL_CNT f))

/-- The verdict on a named DA: ADDR, ADDR_RANGE or fine, for `n` bytes from it. -/
def State.daVerdict (s : State) (f da n : Nat) : Option Nat :=
  if !daOk da n then some stADDR
  else if !(s.daAllowed f da && s.daAllowed f (da + n - 1)) then some stADDR_RANGE
  else none

/-- Header checks of R240 and R253 that every type shares; `body` says whether the body's reserved bytes are 0. -/
def State.headVerdict (s : State) (q : Nat) (d : Descr) (body ctxZero : Bool) : Option Nat :=
  let f := (s.qpFunc q).getD 0
  if !knownTypes.contains d.type then some stBAD_TYPE
  else if !s.typeAllowed f d.type then some stFUNC_DENIED
  else if bits d.flags 7 3 ≠ 0 || !zeroAt d.bytes 2 2 || bits d.ctx 31 20 ≠ 0 || (ctxZero && d.ctx ≠ 0) || !body then some stBAD_DESC
  else none

/-- The bytes of a descriptor outside the listed ranges are 0 (R253): `used` holds (first byte, length). -/
def bodyZero (d : Descr) (used : List (Nat × Nat)) : Bool :=
  (d.bytes.zipIdx).all (fun p => p.1 == 0 || decide (p.2 < 16) || used.any (fun r => decide (r.1 ≤ p.2 ∧ p.2 < r.1 + r.2)))

/-- The shape of a descriptor command: nothing happens unless the descriptor is there and may start; one of a type that R253 does
not know completes with BAD_TYPE whichever row starts it. -/
def State.withDescr (s : State) (q idx : Nat) (types : List Nat) (k : State → Descr → State) : State :=
  match s.descr q idx with
  | none => s
  | some d =>
    if !s.mayStart q d then s
    else if types.contains d.type then k (s.markStarted q d) { d with started := true, since := s.clk.ns }
    else if knownTypes.contains d.type then s
    else (s.markStarted q d).complete q { d with started := true, since := s.clk.ns } stBAD_TYPE []

end Sys2Proof.Machine
end

