-- ==== Sys2Proof/Machine/Operands.lean ====
section
/-! DEFINITION. The instruction formats of the tile sequencer (R60) and of the bank-side core (R146), and the operand accesses. -/

namespace Sys2Proof.Machine

/-! ### Tile formats -/

/-- OPC [31:26] of every format. -/
def wOpc (w : Word) : Nat := bits w.toNat 31 26
/-- S and I: D [25:21], A [20:16]; S: B [15:11], FN [10:0]; I: IMM16 [15:0], signed. -/
def sD (w : Word) : Nat := bits w.toNat 25 21
def sA (w : Word) : Nat := bits w.toNat 20 16
def sB (w : Word) : Nat := bits w.toNat 15 11
def sFN (w : Word) : Nat := bits w.toNat 10 0
def iIMM (w : Word) : Int := signed 16 (bits w.toNat 15 0)
/-- J: COND [25:23], A [22:18], B [17:13], OFF13 [12:0], signed words. -/
def jCOND (w : Word) : Nat := bits w.toNat 25 23
def jA (w : Word) : Nat := bits w.toNat 22 18
def jB (w : Word) : Nat := bits w.toNat 17 13
def jOFF (w : Word) : Int := signed 13 (bits w.toNat 12 0)
/-- V: VD [25:20], VA [19:14], VB [13:8], FN [7:0]. -/
def vD (w : Word) : Nat := bits w.toNat 25 20
def vA (w : Word) : Nat := bits w.toNat 19 14
def vB (w : Word) : Nat := bits w.toNat 13 8
def vFN (w : Word) : Nat := bits w.toNat 7 0
/-- VM: VD [25:20], A [19:15], IMM15 [14:0], signed, in KiB. -/
def mA (w : Word) : Nat := bits w.toNat 19 15
def mIMM (w : Word) : Int := signed 15 (bits w.toNat 14 0)
/-- X: FN [25:23], A [22:18], B [17:13], C [12:8], TAG [7:4], reserved [3:0]. -/
def xFN (w : Word) : Nat := bits w.toNat 25 23
def xA (w : Word) : Nat := bits w.toNat 22 18
def xB (w : Word) : Nat := bits w.toNat 17 13
def xC (w : Word) : Nat := bits w.toNat 12 8
def xTAG (w : Word) : Nat := bits w.toNat 7 4
def xRsv (w : Word) : Nat := bits w.toNat 3 0

/-- Scalar register. -/
def Eng.s (e : Eng) (i : Nat) : DWord := SMap.get e.sreg i 0
def Eng.setS (e : Eng) (i : Nat) (v : DWord) : Eng := { e with sreg := SMap.put e.sreg i v }
/-- Lane `l` of vector register `v`. -/
def Eng.lane (e : Eng) (v l : Nat) : Word := SMap.get e.vreg (256 * v + l) 0
/-- Write all 256 lanes of a vector register. -/
def Eng.setV (e : Eng) (v : Nat) (f : Nat → Word) : Eng :=
  { e with vreg := (List.range 256).foldl (fun m l => SMap.put m (256 * v + l) (f l)) e.vreg }
/-- A channel of the engine. -/
def Eng.chan (e : Eng) (c : Nat) : Chan := SMap.get e.chans c Chan.empty
def Eng.setChan (e : Eng) (c : Nat) (x : Chan) : Eng := { e with chans := SMap.put e.chans c x }

/-- The address S(A) + IMM of a scratchpad access, as an exact integer of the 64-bit sum. -/
def spAddr (base : DWord) (imm : Int) : Nat := wrap 64 (base.toNat + imm)

/-- The DMA descriptor of R63 in 32 bytes; `bad` is R64's check of everything that needs no row address. -/
def decodeDma (b : List Byte) : DmaDesc :=
  let q0 := leAt b 0 8
  let q1 := leAt b 8 8
  let d2 := leAt b 16 4
  let d3 := leAt b 20 4
  let mode := bits d2 29 28
  let sspace := bits q0 63 62
  let dspace := bits q1 63 62
  let rsv (q : Nat) := bits q 61 55 ≠ 0 || bits q 47 40 ≠ 0
  { sspace := sspace, stile := bits q0 54 48, saddr := if sspace = 0 then bits q0 39 0 else bits q0 22 0
    dspace := dspace, dtile := bits q1 54 48, daddr := if dspace = 0 then bits q1 39 0 else bits q1 22 0
    rowLen := bits d2 19 0, tag := bits d2 27 24, mode := mode, rows := bits d3 23 0 + 1
    sstride := signed 32 (leAt b 24 4), dstride := signed 32 (leAt b 28 4)
    bad := sspace == 3 || decide (1 < mode) || rsv q0 || bits d2 23 20 ≠ 0 || bits d2 31 30 ≠ 0 || bits d3 31 24 ≠ 0
      || bits d2 19 0 == 0 || (sspace == 0 && bitOf q0 39)
      || rsv q1 || (mode == 0 && (dspace == 3 || (dspace == 0 && bitOf q1 39))) }

/-- The MXS of R29 with the scalar registers it names. -/
def decodeMxs (e : Eng) (w0 w1 w2 w3 : Word) : Mxs :=
  let a := w0.toNat
  let b := w1.toNat
  let c := w2.toNat
  let d := w3.toNat
  let ss := (e.s (bits d 31 27)).toNat
  let sm := bits d 26 22
  let mask := bits a 11 10
  { mode := bits a 25 24, af := bits a 23 20, bf := bits a 19 16, sat := bitOf a 15, acc := bitOf a 14, qa := bits a 13 12
    mask := mask, keep := bitOf a 9, zf := bitOf a 8, odf := bits a 7 5, qop := bits a 4 4, tag := bits a 3 0
    rows := bits b 31 8 + 1, src := bits b 7 7, dch := bits b 6 4, fold := bits b 3 2
    kb := bits c 31 25 + 1, nb := bits c 24 19 + 1
    sbase := (e.s (bits c 18 14)).toNat, bbase := (e.s (bits c 13 9)).toNat, dbase := (e.s (bits c 8 4)).toNat
    sstride := bits ss 15 0, dstride := bits ss 31 16
    mA := (e.s sm).toNat, mB := if sm = 31 then 0 else (e.s (sm + 1)).toNat }

/-! ### Bank-side formats (R146) -/

def kOPC (w : Word) : Nat := bits w.toNat 31 26
def kD (w : Word) : Nat := bits w.toNat 25 22
def kA (w : Word) : Nat := bits w.toNat 21 18
def kB (w : Word) : Nat := bits w.toNat 17 14
def kFN (w : Word) : Nat := bits w.toNat 13 0
def kIMM (w : Word) : Int := signed 18 (bits w.toNat 17 0)
def kUIMM (w : Word) : Nat := bits w.toNat 17 0
def kOFF (w : Word) : Int := signed 14 (bits w.toNat 13 0)

end Sys2Proof.Machine
end

