-- ==== Sys2Proof/Machine/DispOps.lean ====
section
/-! DEFINITION. What engines and dispatches share: array discard, traps, the end of a tasklet in error, the stop of a group and the
completion of a dispatch (R55, R61, R62, R74, R361, R363, R463, R464). -/

namespace Sys2Proof.Machine

/-- The tiles of a group, ascending. -/
def groupTiles (g : Nat) : List Nat := bitList g 128
/-- The leader stop: the lowest-numbered tile of the group (R69). -/
def groupLeader (g : Nat) : Nat := (groupTiles g).headD 0
/-- A strict dispatch (R358). -/
def Disp.strict (d : Disp) : Bool := d.mode == 2

/-- The running dispatch of a tile. -/
def State.tileDisp (s : State) (t : Nat) : Option (Nat × Disp) :=
  match (s.eng t).disp with
  | none => none
  | some k => (s.disp k).map (fun d => (k, d))

/-- Set a bit of the leader's DET_CAUSE for a strict dispatch (R362). -/
def State.detCause (s : State) (k b : Nat) : State :=
  match s.disp k with
  | none => s
  | some d =>
    let c := setBit d.cause b
    (s.setDisp k { d with cause := c }).fput F.DET_CAUSE_CAUSE (groupLeader d.group) c
/-- An event of R362 that touches tile `t`: counted in `TSK_TDC` and reported when the tile runs a strict dispatch. -/
def State.strictEvent (s : State) (t b : Nat) : State :=
  match s.tileDisp t with
  | some (k, d) => if d.strict && d.running then (s.fadd F.TSK_TDC_TDC t 1).detCause k b else s
  | none => s

/-- The first event that ends a dispatch in error gives its status; of two in one mesh cycle, the one at the lower tile `t` (R463). -/
def State.reportAt (s : State) (t k status tile idx cause : Nat) : State :=
  match s.disp k with
  | none => s
  | some d =>
    if d.status.isNone || (d.statusAt.1 == s.clk.mc && decide (t < d.statusAt.2)) then
      s.setDisp k { d with status := some (status, tile, idx, cause), statusAt := (s.clk.mc, t) }
    else s
/-- An event at the tile that it names. -/
def State.report (s : State) (k status tile idx cause : Nat) : State := s.reportAt tile k status tile idx cause
/-- The group stops taking tasklets (R464). -/
def State.stopGroup (s : State) (k : Nat) : State :=
  match s.disp k with
  | none => s
  | some d => s.setDisp k { d with stopped := true }

/-- The TDC of a completion: the counts of the group's stops since the dispatch started and the fabric counts (R74, R237); a dispatch
that waits for its digest keeps it in `fabTdc`. -/
def State.dispTdc (s : State) (d : Disp) : Nat :=
  if !d.running then d.fabTdc
  else ((groupTiles d.group).foldl (fun a t => a + (s.fget F.TSK_TDC_TDC t + 2 ^ 32 - (s.stop t).tdc0) % 2 ^ 32) 0 + d.fabTdc) % 2 ^ 32
/-- A strict dispatch is marked (R363). -/
def State.dispMarked (s : State) (d : Disp) : Bool :=
  d.strict && (decide (s.dispTdc d ≠ 0) || bitOf d.cause 5 || bitOf d.cause 6)

/-- RESULT of a DISPATCH completion (R256). -/
def State.dispResult (s : State) (d : Disp) : List Byte :=
  match d.status with
  | none => leBytes 4 (s.dispTdc d) ++ leBytes 3 0xFFFFFF ++ leBytes 1 0 ++ leBytes 1 0
  | some (_, tile, idx, cause) => leBytes 4 (s.dispTdc d) ++ leBytes 3 idx ++ leBytes 1 tile ++ leBytes 1 cause
/-- Write the completion of a dispatch and free its tiles. -/
def State.dispFinish (s : State) (k : Nat) : State :=
  match s.disp k with
  | none => s
  | some d =>
    let st := (d.status.map (·.1)).getD stOK
    let s1 := match s.descr d.qp d.didx with
      | none => s
      | some x => s.completeKeep d.qp x st (b2n (s.dispMarked d) * 8) 0 (s.dispResult d)
    { s1 with disps := SMap.del s1.disps k }

/-- A fenced tile of the group whose queue still holds entries, with the lowest index among them. -/
def State.fencedEntries (s : State) (d : Disp) : Option (Nat × Nat) :=
  (groupTiles d.group).findSome? (fun t =>
    let q := (s.stop t).queue
    if (s.eng t).fenced && !q.isEmpty then some (t, q.foldl (fun m x => min m x.idx) 0xFFFFFF) else none)
/-- R464: entries of a fenced tile that no thief may take, and no other tile has found an entry: the group stops, and the dispatch
reports ENGINE_FENCED naming that tile and its lowest index (R76). -/
def State.fenceStuck (s : State) (k : Nat) : State :=
  match s.disp k with
  | none => s
  | some d =>
    let live := (groupTiles d.group).filter (fun t => !(s.eng t).fenced && !bitOf d.done t)
    let barred := d.strict || live.all (fun t => !s.flag F.TSK_CFG_STEAL_EN t)
    match s.fencedEntries d with
    | none => s
    | some (t, idx) =>
      if d.running && !d.stopped && barred && live.all (fun t => (s.eng t).noTask) then
        (s.report k stENGINE_FENCED t idx 0).stopGroup k
      else s

/-- Every tile of the group has executed HALT, has ended in an unhandled trap, or is fenced (R464): the dispatch completes. A
dispatch that lock-step numbers completes only after its digest (R368). A strict dispatch leaves its cycle count with the
leader (R361). -/
def State.dispCheck (s : State) (k : Nat) : State :=
  match s.disp k with
  | none => s
  | some d =>
    if d.running && (groupTiles d.group).all (fun t => bitOf d.done t || (s.eng t).fenced) then
      let ld := groupLeader d.group
      let s0 := match s.fencedEntries d with
        | some (t, idx) => s.report k stENGINE_FENCED t idx 0
        | none => s
      let s1 := if d.strict then
          ((s0.fput F.DET_GID_GID ld d.gid).put64 .DET_CYC_LO .DET_CYC_HI ld (s.clk.mc - d.startMc)).fput F.DET_CAUSE_CAUSE ld d.cause
        else s0
      let s2 := (groupTiles d.group).foldl (fun a t =>
        let e := a.eng t
        let p := a.stop t
        (a.setEng t { e with disp := none, active := false, task := none, stall := none, noTask := false, steal := none
                             atBarrier := false, waitTask := none }).setStop t { p with queue := [], scan := 0 }) s1
      match s2.disp k with
      | none => s2
      | some d' =>
        let s3 := s2.setDisp k { d' with running := false, fabTdc := s2.dispTdc d' }
        match d'.num with
        | none => s3.dispFinish k
        | some n =>
          let m : Summ := ⟨n, d'.mode, s2.dispMarked d', d'.ntask, if d'.strict then s.clk.mc - d'.startMc else 0, false, [], []⟩
          let s4 : State := { s3 with lck := { s3.lck with due := s3.lck.due ++ [(if d'.mode = 0 then none else some k, m)] } }
          if d'.mode = 0 then s4.dispFinish k else s4
    else s

/-- The engine may issue: powered, not fenced, not in reset, running a released dispatch. -/
def Eng.mayIssue (e : Eng) : Bool := e.power == .on && !e.fenced && e.fence.isNone && !e.inReset && e.active

/-- Work of a unit for a charge begins; an open one of the unit ends (R317, R321). -/
def State.useClose (s : State) (u : Nat) : State :=
  { s with enr := { s.enr with use := s.enr.use.map (fun x =>
      if x.unit = u && x.stop_.isNone then { x with stop_ := some s.clk.ns } else x) } }
def State.useOpen (s : State) (u : Nat) (c : Charge) : State :=
  let s1 := s.useClose u
  { s1 with enr := { s1.enr with use := s1.enr.use ++ [⟨u, c, s.clk.ns, none⟩] } }
/-- The engine may issue for its dispatch from now on. -/
def State.useTile (s : State) (t : Nat) : State :=
  match s.tileDisp t with
  | some (_, d) => if (s.eng t).mayIssue then s.useOpen t d.charge else s
  | none => s

/-- Passes that have not yet written or dropped their last row. -/
def Arr.passIds (a : Arr) : List Nat :=
  a.queue.map (·.id) ++ a.flight.map (·.pass) ++ a.buf.map (·.row.pass) ++ (a.osPend.map (fun p => [p.2])).getD []
/-- The unit of the array of a tile, where passes outlive the part of the dispatch that issued them (R49). -/
def arrUnit (t : Nat) : Nat := 8320 + t
/-- The passes that a part left in the array are charged to its dispatch until the last of them has left (R49). -/
def State.arrSettled (s : State) (t : Nat) : State :=
  let e := s.eng t
  match e.behind with
  | none => s
  | some n => if e.arr.passIds.any (fun i => decide (i < n)) then s else (s.setEng t { e with behind := none }).useClose (arrUnit t)

/-- The tile's part of the dispatch ends: HALT, or an unhandled trap. -/
def State.partDone (s : State) (t : Nat) : State :=
  let e := s.eng t
  let s1 := (s.setEng t { e with active := false, task := none, stall := none }).useClose t
  match e.disp with
  | none => s1
  | some k => match s1.disp k with
    | none => s1
    | some d =>
      let s2 := if e.arr.passIds = [] then s1
        else (s1.setEng t { s1.eng t with behind := some e.arr.nextId }).useOpen (arrUnit t) d.charge
      (s2.setDisp k { d with done := setBit d.done t }).dispCheck k

/-- An unhandled trap ends the tasklet in error, stops the group, and reports TASKLET_TRAP (R62). -/
def State.unhandled (s : State) (t cause : Nat) : State :=
  let e := s.eng t
  match e.disp with
  | none => s.partDone t
  | some k =>
    let idx := (e.task.map (·.idx)).getD 0xFFFFFF
    ((s.report k stTASKLET_TRAP t idx cause).stopGroup k).partDone t

/-- A trap (R61): cause, TPC, status, then the handler, or unhandled when there is none or one is already running. -/
def State.trap (s : State) (t cause pc : Nat) (async : Bool) : State :=
  let e := s.eng t
  let vec := s.fget F.TSEQ_TVEC_TVEC t / 4 * 4
  let handled := vec ≠ 0 && !e.inHandler
  let s1 := ((s.rput .TSEQ_TRAP t (BitVec.ofNat 32 (cause + 2 ^ 8 * b2n handled + 2 ^ 9 * b2n async))).rput .TSEQ_TPC t
    (BitVec.ofNat 32 pc)).event F.TSEQ_STAT_TRAP t
  if handled then s1.setEng t { e with pc := vec, inHandler := true, trapMxs := false, stall := none, pendMx := e.pendMx && !async }
  else (s1.setEng t { e with stall := none, pendMx := e.pendMx && !async }).unhandled t cause

/-- An array discard (R55): every row in flight and every queued MXS is abandoned, the stationary registers become invalid. -/
def Eng.discard (e : Eng) : Eng :=
  { e with arr := { e.arr with queue := [], active := none, shadow := none, flight := [], buf := [], held := none, osAcc := [], osWest := [], osNorth := [], osPend := none
                               lane := 0, frozenFor := 0, frozenNow := false, stalled := false, got := [] } }
/-- A discard by fence, reset or power-off sets ABORT (R56). -/
def State.abortArray (s : State) (t : Nat) : State := ((s.setEng t (s.eng t).discard).arrSettled t).event F.MXA_STAT_ABORT t

/-- The context charged for a tile's work: that of its dispatch. -/
def State.tileCtx (s : State) (t : Nat) : Nat := ((s.tileDisp t).map (·.2.ctx)).getD 0

/-- The instruction traps with a cause at its own PC. -/
def State.trapHere (s : State) (t cause : Nat) : State := s.trap t cause (s.eng t).pc false
/-- A trap at an instruction names its first word; TRET resumes past all four words of an MXS (R60, R61). -/
def State.trapIns (s : State) (t opc cause : Nat) : State :=
  let s1 := s.trapHere t cause
  let e := s1.eng t
  s1.setEng t { e with trapMxs := opc == 0x18 && e.inHandler && s1.flag F.TSEQ_TRAP_HANDLED t }

/-! ### Instruction fetch (R58) -/

/-- What a fetch gives: a line or a word, an uncorrectable one, an address beyond the slices, or nothing yet. -/
inductive Fetched (α : Type) where
  | word (w : α)
  | ue
  | address
  | wait
  deriving DecidableEq, Repr
/-- Line `line` (of 128 bytes) of device memory through the instruction cache of 128 sets of four ways. A full set loses the line filled
earliest (log entry 76). -/
def State.icLine (s : State) (t line : Nat) : State × Fetched (List Byte) :=
  match (SMap.get (s.eng t).lines (line % 128) []).find? (·.1 == line) with
  | some x => (s, .word x.2)
  | none =>
    let q := s.settleFor (.tile t) (fun s => s.daRead (128 * line) 128 0)
    match q.2 with
    | none => (q.1, .wait)
    | some (_, some _) => (q.1, .ue)
    | some (bs, none) =>
      let e := q.1.eng t
      let set := ((line, bs) :: SMap.get e.lines (line % 128) []).take 4
      (q.1.setEng t { e with lines := SMap.put e.lines (line % 128) set }, .word bs)
/-- The instruction word at an offset of the program image. -/
def State.fetchWord (s : State) (t pc : Nat) : State × Fetched Word :=
  let da := s.get64 .TSEQ_PBASE_LO .TSEQ_PBASE_HI t + pc
  if !daOk da 4 then (s, .address)
  else
    let a := s.icLine t (da / 128)
    match a.2 with
    | .ue => (a.1, .ue)
    | .address => (a.1, .address)
    | .wait => (a.1, .wait)
    | .word l0 =>
      if da % 128 ≤ 124 then (a.1, .word (BitVec.ofNat 32 (leAt l0 (da % 128) 4)))
      else
        let b := a.1.icLine t (da / 128 + 1)
        match b.2 with
        | .ue => (b.1, .ue)
        | .address => (b.1, .address)
        | .wait => (b.1, .wait)
        | .word l1 => (b.1, .word (BitVec.ofNat 32 (leAt (l0 ++ l1) (da % 128) 4)))

/-- Shape of every tile instruction: a pending matrix-data trap is taken first (R61); a fetch beyond the slices traps with cause 5 (R9), an
uncorrectable one with cause 3; a word that carries another opcode is undefined and traps with cause 1; otherwise the meaning runs with
the line in the instruction cache (R58). A tile that may not issue does nothing, nor does a word that is not the one at its PC, nor one whose
line the stop holds back. -/
def State.issueWith (s : State) (t : Nat) (w : Word) (opc : Nat) (k : State → State) : State :=
  let e := s.eng t
  if !e.mayIssue then s
  else if e.pendMx then s.trap t 0x02 e.pc true
  else
    let f := s.fetchWord t e.pc
    match f.2 with
    | .address => f.1.trapIns t opc 0x05
    | .ue => f.1.trapIns t opc 0x03
    | .wait => f.1
    | .word x => if x ≠ w then f.1 else if wOpc w ≠ opc then f.1.trapHere t 0x01 else k f.1
/-- The words that follow an instruction's first: all there, a trap cause, or another word at their place. -/
inductive Follow where
  | all
  | trap (cause : Nat)
  | other
  deriving DecidableEq, Repr
def State.followWords : List Word → Nat → State → Nat → State × Follow
  | [], _, s, _ => (s, .all)
  | w :: ws, off, s, t =>
    let f := s.fetchWord t (((s.eng t).pc + off) % 2 ^ 32)
    match f.2 with
    | .address => (f.1, .trap 0x05)
    | .ue => (f.1, .trap 0x03)
    | .wait => (f.1, .other)
    | .word x => if x ≠ w then (f.1, .other) else State.followWords ws (off + 4) f.1 t

/-- The instruction is complete: the PC moves past `n` words. -/
def State.advance (s : State) (t n : Nat) : State :=
  let e := s.eng t
  s.setEng t { e with pc := (e.pc + 4 * n) % 2 ^ 32, stall := none }
/-- The instruction cannot complete yet: the sequencer stalls at it (R29, R63, R68, R69). -/
def State.stallAt (s : State) (t : Nat) (w : Word) : State :=
  let e := s.eng t
  s.setEng t { e with stall := some w }
/-- Write S(d) and move past the instruction. -/
def State.retireS (s : State) (t d : Nat) (v : Nat) : State :=
  (s.setEng t ((s.eng t).setS d (BitVec.ofNat 64 v))).advance t 1
end Sys2Proof.Machine
end

