-- ==== Sys2Proof/Machine/TileScalar.lean ====
section
/-! DEFINITION. Scalar, branch and vector instructions of the tile sequencer (R60, R61, R97). -/

namespace Sys2Proof.Machine

/-! ### Scalar arithmetic -/

/-- The SALU operations FN 0–15 of R60 on 64-bit values. -/
def saluOp (fn : Nat) (a b : DWord) : Option DWord :=
  let sh := b.toNat % 64
  match fn with
  | 0 => some (a + b)
  | 1 => some (a - b)
  | 2 => some (a &&& b)
  | 3 => some (a ||| b)
  | 4 => some (a ^^^ b)
  | 5 => some (a <<< sh)
  | 6 => some (a >>> sh)
  | 7 => some (a.sshiftRight sh)
  | 8 => some (a * b)
  | 9 => some (BitVec.ofNat 64 (a.toNat * b.toNat / 2 ^ 64))
  | 10 => some (if a.toInt < b.toInt then a else b)
  | 11 => some (if a.toInt < b.toInt then b else a)
  | 12 => some (if a.toInt < b.toInt then 1 else 0)
  | 13 => some (if a.toNat < b.toNat then 1 else 0)
  | 14 => some (if a = b then 1 else 0)
  | 15 => some (BitVec.ofNat 64 (bitList a.toNat 64).length)
  | _ => none

/-- SALU: S(D) = S(A) op S(B); an undefined FN traps (R60). -/
def execSalu (t : Fin 128) (w : Word) (s : State) : Out :=
  .next (s.issueWith t w 0x00 fun s =>
    let e := s.eng t
    match saluOp (sFN w) (e.s (sA w)) (e.s (sB w)) with
    | none => s.trapHere t 0x01
    | some v => s.retireS t (sD w) v.toNat)

/-- SADDI: S(D) = S(A) + IMM16. -/
def execSaddi (t : Fin 128) (w : Word) (s : State) : Out :=
  .next (s.issueWith t w 0x01 fun s =>
    s.retireS t (sD w) (((s.eng t).s (sA w)) + BitVec.ofInt 64 (iIMM w)).toNat)

/-- SLUI: S(D) = IMM16 × 2^16, sign-extended; A must be 0. -/
def execSlui (t : Fin 128) (w : Word) (s : State) : Out :=
  .next (s.issueWith t w 0x02 fun s =>
    if sA w ≠ 0 then s.trapHere t 0x01 else s.retireS t (sD w) (BitVec.ofInt 64 (65536 * iIMM w)).toNat)

/-! ### Scratchpad accesses of the sequencer (R60, R61, R104, R107, R118) -/

/-- A read of [addr, addr+n) as class PROG: address trap 5, ownership trap 6, data trap 4; it waits while a bank wipes. -/
def State.progRead (s : State) (t : Nat) (w : Word) (addr n : Nat) (k : State → List Byte → State) : State :=
  if 2 ^ 23 < addr + n then s.trapHere t 0x05
  else match s.spmGrant t addr n .prog with
    | .refused => (s.spmViol t).trapHere t 0x06
    | .wait => s.stallAt t w
    | .yes => let r := s.spmRead t addr n
      match r.2 with
      | none => r.1.trapHere t 0x04
      | some d => k r.1 d
/-- A write of class PROG with the same traps; a part of an uncorrectable word is refused with trap 4 (R118). -/
def State.progWrite (s : State) (t : Nat) (w : Word) (addr : Nat) (bs : List Byte) (k : State → State) : State :=
  if 2 ^ 23 < addr + bs.length then s.trapHere t 0x05
  else match s.spmGrant t addr bs.length .prog with
    | .refused => (s.spmViol t).trapHere t 0x06
    | .wait => s.stallAt t w
    | .yes => let r := s.spmWrite t addr bs
      if r.2 then r.1.trapHere t 0x04 else k r.1

/-- SLD: S(D) = the 64-bit word at S(A) + IMM16. -/
def execSld (t : Fin 128) (w : Word) (s : State) : Out :=
  .next (s.issueWith t w 0x03 fun s =>
    let a := spAddr ((s.eng t).s (sA w)) (iIMM w)
    if a % 8 ≠ 0 then s.trapHere t 0x05
    else s.progRead t w a 8 fun s d => s.retireS t (sD w) (leNat d))
/-- SST: the 64-bit word at S(A) + IMM16 = S(D). -/
def execSst (t : Fin 128) (w : Word) (s : State) : Out :=
  .next (s.issueWith t w 0x04 fun s =>
    let e := s.eng t
    let a := spAddr (e.s (sA w)) (iIMM w)
    if a % 8 ≠ 0 then s.trapHere t 0x05
    else s.progWrite t w a (leBytes 8 (e.s (sD w)).toNat) fun s => s.advance t 1)

/-! ### Branches, jumps, traps -/

/-- COND 0–5 of BR; none for an undefined condition. -/
def brCond (c : Nat) (a b : DWord) : Option Bool :=
  match c with
  | 0 => some (a == b)
  | 1 => some (a != b)
  | 2 => some (decide (a.toInt < b.toInt))
  | 3 => some (decide (b.toInt ≤ a.toInt))
  | 4 => some (decide (a.toNat < b.toNat))
  | 5 => some (decide (b.toNat ≤ a.toNat))
  | _ => none

/-- BR: PC += 4 × OFF13 when COND holds. -/
def execBr (t : Fin 128) (w : Word) (s : State) : Out :=
  .next (s.issueWith t w 0x10 fun s =>
    let e := s.eng t
    match brCond (jCOND w) (e.s (jA w)) (e.s (jB w)) with
    | none => s.trapHere t 0x01
    | some true => s.setEng t { e with pc := wrap 32 (e.pc + 4 * jOFF w), stall := none }
    | some false => s.advance t 1)
/-- JAL: S(B) = PC + 4; PC = S(A) + 4 × OFF13; a misaligned target traps and changes neither. -/
def execJal (t : Fin 128) (w : Word) (s : State) : Out :=
  .next (s.issueWith t w 0x11 fun s =>
    let e := s.eng t
    let target := wrap 64 (((e.s (jA w)).toNat : Int) + 4 * jOFF w)
    if jCOND w ≠ 0 then s.trapHere t 0x01
    else if target % 4 ≠ 0 then s.trapHere t 0x05
    else
      let e1 := e.setS (jB w) (BitVec.ofNat 64 ((e.pc + 4) % 2 ^ 32))
      s.setEng t { e1 with pc := target % 2 ^ 32, stall := none })
/-- TRET: return from the handler, to TPC after an asynchronous trap, else past the trapping instruction (R60, R61). -/
def execTret (t : Fin 128) (w : Word) (s : State) : Out :=
  .next (s.issueWith t w 0x12 fun s =>
    let e := s.eng t
    let tpc := s.fget F.TSEQ_TPC_TPC t
    if !e.inHandler then s.trapHere t 0x01
    else
      let step := if s.flag F.TSEQ_TRAP_ASYNC t then 0 else if e.trapMxs then 16 else 4
      s.setEng t { e with pc := (tpc + step) % 2 ^ 32, inHandler := false, trapMxs := false, stall := none })
/-- BRK: breakpoint trap. -/
def execBrk (t : Fin 128) (w : Word) (s : State) : Out :=
  .next (s.issueWith t w 0x13 fun s => s.trapHere t 0x08)

/-- MATRIX_DATA_TRAP: taken at the first boundary after the array finds the error (R61). -/
def execMatrixDataTrap (t : Fin 128) (s : State) : Out :=
  let e := s.eng t
  .next (if e.mayIssue && e.pendMx then s.trap t 0x02 e.pc true else s)

/-- SYS: S(C) = device time, tile index, group id or tasklet index; FN 4–7 trap. -/
def execSys (t : Fin 128) (w : Word) (s : State) : Out :=
  .next (s.issueWith t w 0x39 fun s =>
    let e := s.eng t
    if xRsv w ≠ 0 then s.trapHere t 0x01
    else match xFN w with
      | 0 => s.retireS t (xC w) s.clk.ns
      | 1 => s.retireS t (xC w) t.val
      | 2 => s.retireS t (xC w) (((s.tileDisp t).map (·.2.gid)).getD 0)
      | 3 => s.retireS t (xC w) ((e.task.map (·.idx)).getD (2 ^ 64 - 1))
      | _ => s.trapHere t 0x01)

/-- ICACHE_INV: a write of 1 to `TSEQ_CTL.ICACHE_INV` invalidates the whole cache (R58). -/
def execIcacheInv (t : Fin 128) (s : State) : Out :=
  .next (s.setEng t { s.eng t with lines := [] })

/-! ### Vector instructions -/

/-- A lane as VOP reads it: FP32, or BF16 in the low half (R97). -/
def laneIn (bf : Bool) (v : Word) : FV := if bf then fmtBF16.decode (v.toNat % 65536) else f32 v.toNat

/-- VOP: the operation on all 256 lanes; SAT_HIT and INV set when any lane sets them (R97 to R101). -/
def execVop (t : Fin 128) (w : Word) (s : State) : Out :=
  .next (s.issueWith t w 0x20 fun s =>
    let e := s.eng t
    let fn := vFN w
    let op := fn % 64
    let bf := bitOf fn 6
    let lane (l : Nat) := laneResult op (bitOf fn 7) (laneIn bf (e.lane (vA w) l)) (laneIn bf (e.lane (vB w) l))
      (f32 (e.lane (vD w) l).toNat)
    match lane 0 with
    | none => s.trapHere t 0x01
    | some _ =>
      let rs := (List.range 256).map lane
      let hit := rs.any (fun r => (r.map (·.2.1)).getD false)
      let inv := rs.any (fun r => (r.map (·.2.2)).getD false)
      let s1 := s.setEng t (e.setV (vD w) (fun l => BitVec.ofNat 32 (((lane l).map (·.1)).getD 0)))
      let s2 := if hit then s1.event F.VEC_STAT_SAT_HIT t else s1
      let s3 := if inv then s2.event F.VEC_STAT_INV t else s2
      s3.advance t 1)
/-- VLD: VD = 1 KiB at S(A) + 1,024 × IMM15. -/
def execVld (t : Fin 128) (w : Word) (s : State) : Out :=
  .next (s.issueWith t w 0x21 fun s =>
    s.progRead t w (spAddr ((s.eng t).s (mA w)) (1024 * mIMM w)) 1024 fun s d =>
      (s.setEng t ((s.eng t).setV (vD w) (fun l => BitVec.ofNat 32 (leAt d (4 * l) 4)))).advance t 1)
/-- VST: 1 KiB at S(A) + 1,024 × IMM15 = VD. -/
def execVst (t : Fin 128) (w : Word) (s : State) : Out :=
  .next (s.issueWith t w 0x22 fun s =>
    let e := s.eng t
    s.progWrite t w (spAddr (e.s (mA w)) (1024 * mIMM w))
      ((List.range 256).flatMap (fun l => leBytes 4 (e.lane (vD w) l).toNat)) fun s => s.advance t 1)

end Sys2Proof.Machine
end

