-- ==== Sys2Proof/Machine/TileDma.lean ====
section
/-! DEFINITION. DMA channels (R63 to R65, R75, R107 to R109, R142), the staging buffer (R206), and the index-ordered reduction RDX
(R72, R205). -/

namespace Sys2Proof.Machine

/-! ### Channels -/

def State.chanHalted (s : State) (t ch : Nat) : Bool := bitOf (s.rget .TSEQ_DMA t).toNat ch
/-- A channel halts with an error completion (R64): its HALTED bit, DMA_ERR, the error, and the epoch of the descriptor. -/
def State.haltChan (s : State) (t ch epoch : Nat) (err : ChanErr) : State :=
  let s1 := (s.rput .TSEQ_DMA t (BitVec.ofNat 32 (setBit (s.rget .TSEQ_DMA t).toNat ch))).event F.TSEQ_STAT_DMA_ERR t
  let e := s1.eng t
  s1.setEng t ({ e with haltEpoch := some (max epoch (e.haltEpoch.getD 0)) }.setChan ch { e.chan ch with err := some err })

/-- Rows from 0 whose bytes [base + r·stride, + len) all lie in [0, limit). -/
def goodRows (base : Nat) (stride : Int) (len rows limit : Nat) : Nat :=
  if limit < base + len then 0
  else if stride = 0 then rows
  else if 0 < stride then min rows ((limit - len - base) / stride.toNat + 1)
  else min rows (base / (-stride).toNat + 1)
/-- Limit of a space: DA[39] = 0, or a scratchpad's 8 MiB. -/
def spaceLimit (sp : Nat) : Nat := if sp = 0 then 2 ^ 39 else 2 ^ 23
/-- The first row of a descriptor that R64 refuses; `rows` when none. -/
def DmaDesc.good (d : DmaDesc) : Nat :=
  if d.bad then 0
  else
  let a := goodRows d.saddr d.sstride d.rowLen d.rows (spaceLimit d.sspace)
  if d.mode = 0 then min a (goodRows d.daddr d.dstride d.rowLen d.rows (spaceLimit d.dspace)) else a
def DmaDesc.srcRow (d : DmaDesc) (r : Nat) : Nat := ((d.saddr : Int) + r * d.sstride).toNat
def DmaDesc.dstRow (d : DmaDesc) (r : Nat) : Nat := ((d.daddr : Int) + r * d.dstride).toNat

/-- DMAQ: reads the descriptor at S(A) as a scalar load and enqueues it on channel FN (R60, R63, R64). -/
def execDmaq (t : Fin 128) (w : Word) (s : State) : Out :=
  .next (s.issueWith t w 0x30 fun s =>
    let e := s.eng t
    let ch := xFN w
    if xRsv w ≠ 0 then s.trapHere t 0x01
    else if s.chanHalted t ch then s.trapHere t 0x07
    else if 16 ≤ (e.chan ch).queue.length then s.stallAt t w
    else s.progRead t w (e.s (xA w)).toNat 32 fun s d =>
      let e := s.eng t
      let c := e.chan ch
      (s.setEng t (e.setChan ch { c with queue := c.queue ++ [⟨decodeDma d, e.epoch, false, 0, [], [], 0, none⟩] })).advance t 1)

/-- DMAW: waits until every earlier descriptor of channel FN with tag TAG has completed; traps on a halted channel. -/
def execDmaw (t : Fin 128) (w : Word) (s : State) : Out :=
  .next (s.issueWith t w 0x31 fun s =>
    let ch := xFN w
    if xRsv w ≠ 0 then s.trapHere t 0x01
    else if s.chanHalted t ch then s.trapHere t 0x07
    else if ((s.eng t).chan ch).queue.any (fun r => r.d.tag == xTAG w) then s.stallAt t w
    else s.advance t 1)

/-- A channel can work: its engine is powered, neither fenced nor in reset, and the channel is not halted. -/
def State.chanLive (s : State) (t ch : Nat) : Bool :=
  let e := s.eng t
  e.power == .on && !e.fenced && e.fence.isNone && !e.inReset && !s.chanHalted t ch

/-- Completed descriptors leave the head of a channel queue: copies with every row written, streams with every row taken. -/
def popDone : List DmaRun → List DmaRun
  | [] => []
  | r :: rs => if r.started && (if r.d.mode = 0 then r.low == r.d.rows else r.taken == r.d.rows) then popDone rs else r :: rs
/-- Set the queue of a channel. -/
def State.setQueue (s : State) (t ch : Nat) (q : List DmaRun) : State :=
  let e := s.eng t
  s.setEng t (e.setChan ch { e.chan ch with queue := q })
/-- The row at which a descriptor ends in error, and the error: a bad descriptor or row address (R64), or a row that met one. -/
def DmaRun.ends (x : DmaRun) : Option (Nat × ChanErr) :=
  match x.ueRow with
  | some u => some u
  | none => if x.d.good < x.d.rows then some (x.d.good, .address) else none
/-- The head of a channel queue is at its end in error: the channel halts. An uncorrectable atom and a bad row address of a stream take
effect when the array reaches the row (R54, R64, R142). -/
def State.chanSettle (s : State) (t ch : Nat) : State :=
  match ((s.eng t).chan ch).queue with
  | [] => s
  | r :: _ => match r.ends with
    | some (u, err) => if r.started && r.low = u && (r.d.mode = 0 || r.d.bad || (err ≠ .address && err ≠ .dramUe)) then s.haltChan t ch r.epoch err else s
    | none => s

/-- DMA_DESCRIPTOR_START: the next descriptor starts; a bad one waits for those before it and then halts the channel before it moves any
data (R63, R64, log entry 77). A descriptor behind a stream descriptor waits until all its rows are taken (R65). -/
def execDmaDescriptorStart (t : Fin 128) (ch : Fin 8) (s : State) : Out :=
  .next (
    let q := ((s.eng t).chan ch).queue
    if !s.chanLive t ch then s
    else match q.findIdx? (fun r => !r.started) with
      | none => s
      | some i => match q[i]? with
        | none => s
        | some r =>
          if (q.take i).any (fun x => x.d.mode == 1) || (r.d.bad && i ≠ 0) then s
          else
            let g := r.d.good
            let r1 := { r with started := true, ueRow := if r.d.mode = 1 && g < r.d.rows then some (g, .address) else none }
            (s.setQueue t ch (q.set i r1)).chanSettle t ch)

/-! ### The staging buffer of a wide-attention tile (R206) -/

/-- The pool page of slice da / 2^32 that holds a DA (R174). -/
def State.inPool (s : State) (da : Nat) : Bool :=
  let p := da % 2 ^ 32 / 2 ^ 15
  let o := s.fget F.KVM_POOL_OFF_OFF 0
  decide (o ≤ p ∧ p < o + s.fget F.KVM_POOL_PAGES (da / 2 ^ 32))
def State.stagingOn (s : State) (t : Nat) : Bool :=
  t % 8 == 0 && s.flag F.GLB_FEATURES_WIDEATT 0 && s.flag F.KVS_CFG_EN t
/-- Put an atom into the buffer: its page becomes the most recently used of 32. -/
def stageFill (st : List (Nat × SMap (List Byte))) (pfn a : Nat) (bs : List Byte) : List (Nat × SMap (List Byte)) :=
  let old := ((st.find? (·.1 == pfn)).map (·.2)).getD []
  ((pfn, SMap.put old a bs) :: st.filter (·.1 ≠ pfn)).take 32
/-- Bytes [da, da + n) of one atom for the tile's own DMA: from the buffer, or fetched and filled. An atom with an uncorrectable word is not
put into the buffer; the read fails when a byte it asked for lies in one (R460). -/
def State.stageAtom (s : State) (t da n : Nat) : State × List Byte × Option Nat :=
  let base := da - da % 256
  let pfn := da / 2 ^ 15
  let a := da % 2 ^ 15 / 256
  let st := (s.stop t).stage
  match (st.find? (·.1 == pfn)).bind (fun e => SMap.find e.2 a) with
  | some bs => ((s.fadd F.KVS_HIT_HIT t 1).setStop t { s.stop t with stage := stageFill st pfn a bs }, (bs.drop (da % 256)).take n, none)
  | none =>
    let r := (s.note base false).atomRead base (16 + t) 0
    let all := atomPart r.2 base 0 256
    let p := atomPart r.2 base (da % 256) n
    if all.2.isSome then (r.1, p.1, p.2)
    else
      let s1 := r.1.fadd F.KVS_FILL_FILL t 1
      (s1.setStop t { s1.stop t with stage := stageFill (s1.stop t).stage pfn a all.1 }, p.1, none)
/-- Read [da, da+n) for the DMA of tile `t`, through the buffer where it applies. -/
def State.dmaReadGo : Nat → State → Nat → Nat → Nat → State × List Byte × Option Nat
  | 0, s, _, _, _ => (s, [], none)
  | fuel + 1, s, t, da, n =>
    if n = 0 then (s, [], none)
    else
      let k := min n (256 - da % 256)
      let r := if s.stagingOn t && s.inPool da then s.stageAtom t da k else s.daRead da k (16 + t)
      match r.2.2 with
      | some b => (r.1, [], some b)
      | none =>
        let q := State.dmaReadGo fuel r.1 t (da + k) (n - k)
        (q.1, r.2.1 ++ q.2.1, q.2.2)
/-- A write by the tile's own DMA updates staged atoms (R206). -/
def State.stageUpdate (s : State) (t da : Nat) (bs : List Byte) : State :=
  if !s.stagingOn t then s
  else
    let upd (base : Nat) (old : List Byte) :=
      (old.zipIdx).map (fun p => if da ≤ base + p.2 ∧ base + p.2 < da + bs.length then bs.getD (base + p.2 - da) p.1 else p.1)
    let st := (s.stop t).stage.map (fun e => (e.1, e.2.map (fun a => (a.1, upd (2 ^ 15 * e.1 + 256 * a.1) a.2))))
    s.setStop t { s.stop t with stage := st }

/-! ### Moving a row -/

/-- The result of a row access: done, an error that halts the channel, or not yet (a bank wipes, or the target engine wakes). -/
inductive RowRes where
  | ok
  | error (e : ChanErr)
  | wait
  deriving DecidableEq, Repr

/-- What the target engine's stop answers a packet for its engine (R75). -/
inductive Admit where | deliver | hold | refuse
  deriving DecidableEq, Repr
def State.admission (s : State) (u : Nat) : Admit :=
  let e := s.eng u
  match e.power with
  | .fusedOff => .refuse
  | .lull2 => .refuse
  | .off => .refuse
  | .lull1 => if e.fenced || e.inReset then .refuse else .hold
  | .on => if e.fenced || e.fence.isSome || e.inReset then .refuse else .deliver

/-- The status of a refused packet: the engine is off, or fenced, fused off or in reset (R75). -/
def State.refusal (s : State) (u : Nat) : ChanErr :=
  match (s.eng u).power with
  | .off => .engineOff
  | .lull2 => .engineOff
  | _ => .engineFenced
/-- Segments of [off, off + n) bank by bank: offset and length. -/
def bankSegs : Nat → Nat → Nat → List (Nat × Nat)
  | 0, _, _ => []
  | fuel + 1, off, n =>
    if n = 0 then []
    else
      let k := min n (2 ^ 19 * (off / 2 ^ 19 + 1) - off)
      (off, k) :: bankSegs fuel (off + k) (n - k)
/-- Read the segments of a scratchpad row: the bytes before a bank that the class does not own, or before an uncorrectable segment, and
what stopped the row (R107, R118). -/
def State.segsRead (s : State) (u : Nat) (c : OwnClass) : List (Nat × Nat) → List Byte → State × List Byte × RowRes
  | [], acc => (s, acc, .ok)
  | (off, k) :: rest, acc =>
    if s.bankGrant u (off / 2 ^ 19) c ≠ .yes then
      (s.spmViol u, acc, .error (if c = .prog then .ownership else .spmOwner))
    else
      let q := s.spmRead u off k
      match q.2 with
      | none => (q.1, acc, .error .spmUe)
      | some bs => State.segsRead q.1 u c rest (acc ++ bs)
/-- A bank of [off, off + n) is wiping: the access waits (R113). -/
def State.wipeWait (s : State) (u off n : Nat) : Bool := (banksOf off n).any (fun b => (s.eng u).wiping.contains b)

/-- Read a source row: bytes read before any error, and the verdict. A row in a tower whose reset has closed it ends with PATH_RESET
(R384). -/
def State.rowRead (s : State) (t : Nat) (d : DmaDesc) (r : Nat) : State × List Byte × RowRes :=
  let a := d.srcRow r
  if d.sspace = 0 && s.towerShut a d.rowLen then (s, [], .error .pathReset)
  else if d.sspace = 0 then
    let q := State.dmaReadGo ((a + d.rowLen) / 256 + 1 - a / 256) s t a d.rowLen
    (q.1, q.2.1, if q.2.2.isSome then .error .dramUe else .ok)
  else
    let own := d.sspace = 1
    let u := if own then t else d.stile
    match (if own then Admit.deliver else s.admission u) with
    | .refuse => (s, [], .error (s.refusal u))
    | .hold => (s.setEng u { s.eng u with wake := true }, [], .wait)
    | .deliver =>
      if s.wipeWait u a d.rowLen then (s, [], .wait)
      else State.segsRead s u (if own then .prog else .remote) (bankSegs 4 a d.rowLen) []

/-- Who writes into a scratchpad through its stop or its own channels (R106, R107, R109). -/
inductive Sender where
  | own (ch : Nat)
  | remote (t ch : Nat)
  | copy
  | svc
  deriving DecidableEq, Repr
def Sender.cls : Sender → OwnClass
  | .own _ => .prog | .remote .. => .remote | .copy => .remote | .svc => .svc
/-- A word of the sender was dropped: its channel's bit of `SPM_DMACOLL`, or the status of the service core's bus response (R109). -/
def State.collided (s : State) (u : Nat) : Sender → State
  | .own ch => s.rput .SPM_DMACOLL u (BitVec.ofNat 32 (setBit (s.rget .SPM_DMACOLL u).toNat ch))
  | .remote t ch => s.rput .SPM_DMACOLL t (BitVec.ofNat 32 (setBit (s.rget .SPM_DMACOLL t).toNat ch))
  | .copy => s
  | .svc => { s with outs := { s.outs with collided := true } }
/-- Write one segment that lies in one bank, through port B where R108 says so (R109). -/
def State.segWrite (s : State) (u : Nat) (x : Sender) (off : Nat) (bs : List Byte) (portA : List Nat) : State × Bool :=
  let b := off / 2 ^ 19
  if b < 2 && (x.cls != .prog || s.owner u b == 1) then
    let q := s.spmWriteB u off bs x.cls.code portA
    (if q.2.2 then q.1.collided u x else q.1, q.2.1)
  else s.spmWrite u off bs
/-- Write a row bank by bank: the part before a bank that the class does not own stays written (R107). The banks of `pass` admit the
row whatever their owner is now: the stop accepted it before their hand-over (R111). -/
def State.segsWrite (pass : List Nat) : List (Nat × Nat) → State → Nat → Sender → List Byte → List Nat → State × RowRes
  | [], s, _, _, _, _ => (s, .ok)
  | (off, k) :: rest, s, u, x, bs, portA =>
    if !pass.contains (off / 2 ^ 19) && s.bankGrant u (off / 2 ^ 19) x.cls ≠ .yes then
      (s.spmViol u, .error (if x.cls = .prog then .ownership else .spmOwner))
    else
      let q := s.segWrite u x off (bs.take k) portA
      if q.2 then (q.1, .error .spmUe) else State.segsWrite pass rest q.1 u x (bs.drop k) portA

/-- Write a destination row, port A writing the words `portA` of an exchange bank in the same tc (R75, R107 to R109). -/
def State.rowWrite (s : State) (t ch : Nat) (d : DmaDesc) (r : Nat) (bs : List Byte) (portA : List Nat) : State × RowRes :=
  let a := d.dstRow r
  if d.dspace = 0 && s.towerShut a bs.length then (s, .error .pathReset)
  else if d.dspace = 0 then
    let q := s.daWrite a bs
    (q.1.stageUpdate t a (bs.take (match q.2 with
      | none => bs.length
      | some w => w - a)), if q.2.isSome then .error .dramUe else .ok)
  else
    let own := d.dspace = 1
    let u := if own then t else d.dtile
    match (if own then Admit.deliver else s.admission u) with
    | .refuse => (s, .error (s.refusal u))
    | .hold => (s.setEng u { s.eng u with wake := true }, .wait)
    | .deliver =>
      if s.wipeWait u a bs.length then (s, .wait)
      else State.segsWrite [] (bankSegs 4 a bs.length) s u (if own then .own ch else .remote t ch) bs portA

/-- Record that row `r` of a run is written: rows below `low` and the extras above it. -/
def DmaRun.rowDone (x : DmaRun) (r : Nat) : DmaRun :=
  let rec bump (fuel low : Nat) (ex : List Nat) : Nat × List Nat :=
    match fuel with
    | 0 => (low, ex)
    | f + 1 => if ex.contains low then bump f (low + 1) (ex.filter (· ≠ low)) else (low, ex)
  if r = x.low then
    let b := bump x.extra.length (x.low + 1) x.extra
    { x with low := b.1, extra := b.2 }
  else { x with extra := x.extra ++ [r] }

/-- Atoms that a source row touches; a scratchpad row counts its 256-byte parts. -/
def DmaDesc.rowAtoms (d : DmaDesc) (r : Nat) : Nat := (d.srcRow r + d.rowLen - 1) / 256 + 1 - d.srcRow r / 256
/-- The rows of a run below `upto` that have not moved; none when there are more than could be in flight at once. -/
def DmaRun.openRows (x : DmaRun) (upto : Nat) : Option (List Nat) :=
  if 512 < upto - x.low then none
  else some (((List.range (upto - x.low)).map (x.low + ·)).filter (fun r => !x.extra.contains r))
/-- The rows of a channel that a row of the run at position `pos` overtakes. -/
def overtaken : List DmaRun → Nat → Nat → Option (List (DmaDesc × Nat))
  | [], _, _ => some []
  | x :: _, 0, row => (x.openRows row).map (fun l => l.map (fun r => (x.d, r)))
  | x :: xs, pos + 1, row =>
    match x.openRows (if x.d.mode = 1 then x.low else x.d.rows), overtaken xs pos row with
    | some l, some m => some (l.map (fun r => (x.d, r)) ++ m)
    | _, _ => none
/-- Every word of [a, a + n) of device memory reads without an uncorrectable error. -/
def State.daClean (s : State) (a n : Nat) : Bool :=
  (List.range ((a + n + 7) / 8 - a / 8)).all (fun i =>
    let w := 8 * (a / 8 + i)
    checkSyndrome (SMap.get s.synd ((s.atomPlace w + w % 256) / 8) 0) ≠ .bad)
/-- A source row will read without an error: a row that reads in error lets none behind it move (R64, R142). -/
def State.rowClean (s : State) (t : Nat) (d : DmaDesc) (r : Nat) : Bool :=
  let a := d.srcRow r
  decide (r < d.good) &&
  (if d.sspace = 0 then s.daClean a d.rowLen
   else
     let u := if d.sspace = 1 then t else d.stile
     (banksOf a d.rowLen).all (fun b => s.bankGrant u b (if d.sspace = 1 then .prog else .remote) = .yes) &&
     (d.sspace = 1 || s.admission u = .deliver) &&
     (List.range ((a + d.rowLen + 7) / 8 - a / 8)).all (fun i => decide (flips (SMap.get s.spmErr (spmKey u 0 / 8 + a / 8 + i) 0) ≤ 1)))

/-- Row `row` of the run at `pos` may move: at most 256 atoms, 64 KiB, are in flight in the channel, and of the rows it overtakes none
reads in error; stream rows arrive in order, and at most 64 KiB of them wait for the array (R63, R64, R142). -/
def State.mayMove (s : State) (t ch pos row : Nat) : Bool :=
  let q := ((s.eng t).chan ch).queue
  match q[pos]?, overtaken q pos row with
  | some x, some l =>
    x.started && !x.d.bad && decide (row < x.d.good) && !(decide (row < x.low) || x.extra.contains row)
      && x.ends.all (fun u => decide (row < u.1)) && !(q.take pos).any (fun y => y.ends.isSome)
      && (l.isEmpty || (decide (((l.map (fun y => y.1.rowAtoms y.2)).sum + x.d.rowAtoms row ≤ 256)
            ∧ (l.map (fun y => y.1.rowLen)).sum + x.d.rowLen ≤ 65536) && l.all (fun y => s.rowClean t y.1 y.2)))
      && (x.d.mode = 0 || (row == x.low && (x.rows.isEmpty || decide ((x.rows.length + 1) * x.d.rowLen ≤ 65536))))
  | _, _ => false

/-- DMA_READ_RESPONSE: row `row` of the descriptor at queue position `pos` returns and is written, or delivered as a stream row. A row in
error ends its descriptor there: the channel halts once every row before it has moved (R64, R142); the error of a stream row takes
effect when the array reaches it (R54). -/
def execDmaReadResponse (t : Fin 128) (ch : Fin 8) (pos row : Nat) (portA : List Nat) (s : State) : Out :=
  .next (s.settle (.dmaReadResponse t ch pos row portA) fun s =>
    if !s.chanLive t ch || !s.mayMove t ch pos row then s
    else match ((s.eng t).chan ch).queue[pos]? with
      | none => s
      | some x =>
        let upd (s : State) (y : DmaRun) : State :=
          (s.setQueue t ch (popDone (((s.eng t).chan ch).queue.set pos y))).chanSettle t ch
        let q := s.rowRead t x.d row
        match q.2.2 with
        | .wait => q.1
        | .error err =>
          let s1 := if x.d.mode = 1 || q.2.1 = [] then q.1
            else (q.1.rowWrite t ch { x.d with rowLen := q.2.1.length } row q.2.1 portA).1
          upd s1 { x with ueRow := some (row, err) }
        | .ok =>
          if x.d.mode = 1 then upd q.1 { x with low := row + 1, rows := SMap.put x.rows row q.2.1 }
          else
            let p := q.1.rowWrite t ch x.d row q.2.1 portA
            match p.2 with
            | .wait => p.1
            | .error err => p.1.haltChan t ch x.epoch err
            | .ok => upd p.1 (x.rowDone row))

/-- RESTART: each channel whose bit is 1 discards its queue and restarts (R64). -/
def execRestart (t : Fin 128) (chans : Byte) (s : State) : Out :=
  .next ((bitList chans.toNat 8).foldl (fun a n =>
    let e := a.eng t
    (a.setEng t (e.setChan n Chan.empty)).rput .TSEQ_DMA t (BitVec.ofNat 32 (clrBit (a.rget .TSEQ_DMA t).toNat n))) s)

/-! ### RDX (R72, R205) -/

/-- INT32 add modulo 2^32, FP32 add, FP32 maximum on one word. -/
def rdxWord (fn a b : Nat) : Nat :=
  match fn with
  | 0 => (FV.add (f32 a) (f32 b)).bits32
  | 1 => (a + b) % 2 ^ 32
  | _ => (fvMax (f32 a) (f32 b)).bits32
/-- Combine two slots of 4-byte words. -/
def rdxSlots (fn : Nat) (a b : List Byte) : List Byte :=
  (List.range (a.length / 4)).flatMap (fun i => leBytes 4 (rdxWord fn (leAt a (4 * i) 4) (leAt b (4 * i) 4)))

/-- 2·atanh(y)·2^320 for y = n/d, rounded down, and an upper bound: ln s for s = (d + n)/(d − n). -/
def atanhSum : Nat → Nat → Nat → Nat → Nat → Nat
  | 0, _, _, _, acc => acc
  | fuel + 1, y2, k, pw, acc => atanhSum fuel y2 (k + 2) (pw * y2 / fxOne) (acc + pw / k)
def lnEnclosure (m : Nat) (e : Int) : Nat × Nat :=
  -- s = m·2^e in [1, 2]; y = (s − 1)/(s + 1)
  let sN := if 0 ≤ e then m * 2 ^ e.toNat * fxOne else m * fxOne / 2 ^ (-e).toNat
  let y := (sN - fxOne) * fxOne / (sN + fxOne)
  let r := 2 * atanhSum 120 (y * y / fxOne) 1 y 0
  (r, r + 1000)
/-- FP32 codes within 1 ulp of ln(m·2^e). -/
def lnCodes (m : Nat) (e : Int) : List Nat × Nat :=
  let b := lnEnclosure m e
  let r0 := fmtFP32.roundMag b.1 (-320)
  let u := if b.1 = 0 then -149 else ulpExp b.1 (-320)
  ((nearCodes r0).filter (fun c =>
      let y := fmtFP32.mag c
      let z := y.1 * 2 ^ (y.2 + 149).toNat
      magLe z (-149) (b.2 + 2 ^ (u + 320).toNat) (-320) && magLe b.1 (-320) (z + 2 ^ (u + 149).toNat) (-149)), r0)
/-- ln of a sum of two weights (R205): within 1 ulp; NaN stays NaN. -/
def lnBits (x : Nat) : Nat :=
  match f32 x with
  | .nan => fmtFP32.nanCode
  | .inf _ => 0x7F800000
  | .fin _ m e => let r := lnCodes m e; pickCode 0x40 x r.1 r.2

/-- One VOP lane on FP32 bits, without SAT. -/
def vop32 (op a b d : Nat) : Nat := ((laneResult op false (f32 a) (f32 b) (f32 d)).map (·.1)).getD 0

/-- A record of R204 is empty. -/
def lseEmpty (r : List Byte) : Bool := bitOf (leAt r 4 4) 0 || leAt r 0 4 == 0xFF800000
/-- The empty record as RDX writes it. -/
def lseEmptyRec (d : Nat) : List Byte := leBytes 4 0xFF800000 ++ leBytes 4 1 ++ zeros (4 * d)
/-- The pair combine of R205. -/
def lseCombine (a b : List Byte) : List Byte :=
  if lseEmpty b then a
  else if lseEmpty a then b
  else
    let la := leAt a 0 4
    let lb := leAt b 0 4
    let m := vop32 0x04 la lb 0
    let wa := vop32 0x08 (vop32 0x01 la m 0) 0 0
    let wb := vop32 0x08 (vop32 0x01 lb m 0) 0 0
    let sm := vop32 0x00 wa wb 0
    let r := vop32 0x09 sm 0 0
    let o (i : Nat) := vop32 0x02 (vop32 0x20 (leAt b (8 + 4 * i) 4) wb (vop32 0x02 (leAt a (8 + 4 * i) 4) wa 0)) r 0
    leBytes 4 (vop32 0x00 m (lnBits sm) 0) ++ leBytes 4 0 ++ (List.range ((a.length - 8) / 4)).flatMap (fun i => leBytes 4 (o i))

/-- Read and combine the slots in ascending index; a trap ends the instruction. -/
def State.rdxGo : Nat → State → Nat → Word → Nat → Nat → Nat → List Byte → (State → List Byte → State) → State
  | 0, s, _, _, _, _, _, acc, k => k s acc
  | n + 1, s, t, w, fn, addr, len, acc, k =>
    s.progRead t w addr len fun s d =>
      State.rdxGo n s t w fn (addr + len) len (if fn = 3 then lseCombine acc d else rdxSlots fn acc d) k

/-- RDX: combines `count` slots in ascending index into one slot at S(C) (R72). -/
def execRdx (t : Fin 128) (w : Word) (s : State) : Out :=
  .next (s.issueWith t w 0x37 fun s =>
    let e := s.eng t
    let fn := xFN w
    let b := (e.s (xB w)).toNat
    let count := bits b 23 0
    let len := bits b 55 32
    let d := (len - 8) / 4
    if xRsv w ≠ 0 || 3 < fn || count = 0 || len = 0 || (fn < 3 && len % 4 ≠ 0)
        || (fn = 3 && !(decide (len = 8 + 4 * d ∧ 1 ≤ d ∧ d ≤ 256))) then s.trapHere t 0x01
    else
      let a := (e.s (xA w)).toNat
      s.progRead t w a len fun s d0 =>
        State.rdxGo (count - 1) s t w fn (a + len) len d0 fun s acc =>
          let out := if fn = 3 && lseEmpty acc then lseEmptyRec d else acc
          s.progWrite t w (e.s (xC w)).toNat out fun s => s.advance t 1)

end Sys2Proof.Machine
end

