-- ==== Sys2Proof/Machine/ArrayMath.lean ====
section
/-! DEFINITION. Formats, pairing classes, legality, operand layouts and arithmetic of the matrix array (R26 to R35, R46 to R53, R83
to R96, R461). -/

namespace Sys2Proof.Machine

/-! ### Format codes -/

/-- The element format of an AF or BF code; none for INT8 and reserved codes. -/
def codeFmt : Nat → Option Fmt
  | 0x0 => some fmtE4M3 | 0x1 => some fmtE5M2 | 0x2 => some fmtE4M3 | 0x3 => some fmtE5M2 | 0x4 => some fmtE2M3
  | 0x5 => some fmtE3M2 | 0x6 => some fmtE2M1 | 0x8 => some fmtBF16 | 0x9 => some fmtFP16
  | _ => none
def codeMX (c : Nat) : Bool := decide (2 ≤ c ∧ c ≤ 6)
def codeReserved (c : Nat) : Bool := c == 7 || decide (0xB ≤ c)
def codeWidth (c : Nat) : Nat := if c = 0xA then 8 else ((codeFmt c).map (·.width)).getD 0
/-- The value of an element code without its block scale; INT8 as an exact integer. -/
def codeValue (c v : Nat) : FV :=
  match codeFmt c with
  | some f => f.decode v
  | none => .fin (decide (signed 8 v < 0)) (signed 8 v).natAbs 0
/-- The MX format that QA gives (R95). -/
def qaCode (qa : Nat) : Nat := if qa = 1 then 0x2 else 0x6
/-- AF and BF as the pass uses them, after QA (R32). -/
def Mxs.af' (o : Mxs) : Nat := if o.qa ≠ 0 && o.qop = 0 then qaCode o.qa else o.af
def Mxs.bf' (o : Mxs) : Nat := if o.qa ≠ 0 && o.qop = 1 then qaCode o.qa else o.bf

/-- Pairing classes of R26. -/
inductive PClass where | Q | E | H
  deriving DecidableEq, Repr
def Mxs.cls (o : Mxs) : PClass :=
  let a := o.af'
  let b := o.bf'
  let wide (c : Nat) := c == 8 || c == 9
  let mid (c : Nat) := c == 0 || c == 1 || c == 2 || c == 3 || c == 0xA
  if wide a || wide b then .H else if mid a || mid b then .E else .Q
/-- tc per array step, largest Kb, latency from entry to drain buffer (R26, R27). -/
def PClass.tc : PClass → Nat
  | .H => 2
  | _ => 1
def PClass.kmax : PClass → Nat
  | .Q => 128
  | _ => 64
def PClass.latency : PClass → Nat
  | .H => 257
  | _ => 130
/-- K steps that a cell takes per array step. -/
def PClass.kper : PClass → Nat
  | .Q => 2
  | _ => 1
/-- Rows fed per step (R34). -/
def Mxs.f (o : Mxs) : Nat := 2 ^ o.fold
/-- Settings that R31 records of a block. -/
def Mxs.settings (o : Mxs) : List Nat := [o.mode, o.fold, o.kb - 1, o.nb - 1, o.bf']

/-- The illegal cases of R31; `held` is the block recorded since the last discard. A reserved ODF is illegal as well (DEDUCED, log
entry 13). -/
def Mxs.illegal (o : Mxs) (held : Option (List Nat)) (smIsLast : Bool) : Bool :=
  let os := o.mode == 1
  let kx := if o.cls = .Q then 2 * o.rows else o.rows
  let mx := codeMX o.af' || codeMX o.bf'
  o.mode == 3 || codeReserved o.af || codeReserved o.bf
  || ((o.af == 0xA) != (o.bf == 0xA)) || ((o.af == 0xA) != (o.odf == 5)) || decide (6 ≤ o.odf)
  || (!os && decide (o.cls.kmax < o.kb)) || (os && decide (64 < o.kb))
  || (!os && mx && o.kb % 32 ≠ 0) || (os && mx && kx % 32 ≠ 0)
  || o.qa == 3 || (o.qa ≠ 0 && (if o.qop = 0 then o.af else o.bf) ≠ 8)
  || (os && o.mask ≠ 0) || o.mask == 3 || (o.mask == 2 && smIsLast)
  || (os && o.fold ≠ 0) || (!os && decide (64 / o.f < o.nb))
  || (o.keep && held ≠ some o.settings)

/-! ### Layouts (R86 to R88, R461) -/

/-- Bytes of a stream row in memory: elements, then scales of an MX format. -/
def Mxs.westLen (o : Mxs) : Nat :=
  if o.mode = 1 then (o.kb * o.cls.kper * codeWidth o.af + 7) / 8 + (if codeMX o.af then o.kb else 0)
  else (o.kb * codeWidth o.af + 7) / 8 + (if codeMX o.af then o.kb / 32 else 0)
def Mxs.northLen (o : Mxs) : Nat := (o.nb * o.cls.kper * codeWidth o.bf + 7) / 8 + (if codeMX o.bf then o.nb else 0)
/-- Destination element width and row length. -/
def odfFmt : Nat → Option Fmt
  | 0 => some fmtFP32 | 1 => some fmtBF16 | 2 => some fmtFP16 | 3 => some fmtE4M3 | 4 => some fmtE5M2
  | _ => none
def odfWidth (o : Nat) : Nat := if o = 5 then 32 else ((odfFmt o).map (·.width)).getD 32
def Mxs.destLen (o : Mxs) : Nat := (o.nb * odfWidth o.odf + 7) / 8
/-- Result rows of a pass: its stream rows, or Mb in OS. -/
def Mxs.destRows (o : Mxs) : Nat := if o.mode = 1 then o.kb else o.rows

/-- Apply QA along lists of 32 (R32). -/
def qaAlong (qa : Nat) (xs : List FV) : List FV :=
  let f := if qa = 1 then fmtE4M3 else fmtE2M1
  let rec go : Nat → List FV → List FV
    | 0, _ => []
    | n + 1, l => qaBlock f (l.take 32) ++ go n (l.drop 32)
  go (cdiv xs.length 32) xs

/-- The Kb values of a WS or IS stream row. -/
def Mxs.rowVals (o : Mxs) (bs : List Byte) : List FV :=
  let w := codeWidth o.af
  let eb := (o.kb * w + 7) / 8
  let el (i : Nat) := packedAt bs w i
  let vs := (List.range o.kb).map (fun i =>
    if codeMX o.af then mxValue ((codeFmt o.af).getD fmtE4M3) (bs.getD (eb + i / 32) 0).toNat (el i) else codeValue o.af (el i))
  if o.qa ≠ 0 && o.qop = 0 then qaAlong o.qa vs else vs

/-- The stationary block of a WS or IS pass from its bytes: Kb rows of Nb elements, each row on a byte boundary, then the scale
field (R88). -/
def Mxs.blockLen (o : Mxs) : Nat :=
  o.kb * ((o.nb * codeWidth o.bf + 7) / 8) + (if codeMX o.bf then o.kb / 32 * o.nb else 0)
def Mxs.blockVals (o : Mxs) (bs : List Byte) : List (List FV) :=
  let w := codeWidth o.bf
  let rl := (o.nb * w + 7) / 8
  let sc := o.kb * rl
  let at_ (k n : Nat) : FV :=
    let el := packedAt (bs.drop (k * rl) |>.take rl) w n
    if codeMX o.bf then mxValue ((codeFmt o.bf).getD fmtE4M3) (bs.getD (sc + k / 32 * o.nb + n) 0).toNat el else codeValue o.bf el
  if o.qa ≠ 0 && o.qop = 1 then
    let cols := (List.range o.nb).map (fun n => qaAlong o.qa ((List.range o.kb).map (fun k => at_ k n)))
    (List.range o.kb).map (fun k => cols.map (fun c => c.getD k FV.zero))
  else (List.range o.kb).map (fun k => (List.range o.nb).map (fun n => at_ k n))

/-- Rows of an OS pass that share one 32-element K-block. -/
def Mxs.osBlk (o : Mxs) : Nat := 32 / o.cls.kper
/-- The values of OS row `r` on one side (`count` of m or n; code `c`; `qa` when that side is converted): for each m, its k
steps. `row` gives the bytes of the rows of the K-block. -/
def Mxs.osVals (o : Mxs) (c count : Nat) (conv : Bool) (row : Nat → List Byte) (r : Nat) : List (List FV) :=
  let kp := o.cls.kper
  let w := codeWidth c
  let r0 := r / o.osBlk * o.osBlk
  let eb := (count * kp * w + 7) / 8
  let raw (q m j : Nat) : Nat := packedAt (row q) w (m * kp + j)
  (List.range count).map (fun m =>
    if conv then
      let ks := (List.range o.osBlk).flatMap (fun q => (List.range kp).map (fun j => codeValue c (raw (r0 + q) m j)))
      let vs := qaAlong o.qa ks
      (List.range kp).map (fun j => vs.getD ((r - r0) * kp + j) FV.zero)
    else (List.range kp).map (fun j =>
      if codeMX c then mxValue ((codeFmt c).getD fmtE4M3) ((row r0).getD (eb + m) 0).toNat (raw r m j) else codeValue c (raw r m j)))

/-! ### Arithmetic of the cells (R51, R89 to R91) -/

/-- One cell step: products exact, in class Q their pair sum exact, one rounding to FP32; INT8 exact. -/
def cellStep (int : Bool) (acc : FV) (ps : List FV) : FV :=
  let p := match ps with
    | [] => FV.zero
    | x :: xs => xs.foldl FV.add x
  if int then FV.add acc p else (FV.add acc p).toF32
/-- Group a list of products by the K elements of one cell step. -/
def chunk (n : Nat) (xs : List FV) : List (List FV) :=
  let rec go : Nat → List FV → List (List FV)
    | 0, _ => []
    | k + 1, l => if l = [] then [] else l.take n :: go k (l.drop n)
  go xs.length xs
/-- The dot product of a stream row and a stationary column, in ascending k from +0. -/
def dot (cls : PClass) (int : Bool) (a b : List FV) : FV :=
  (chunk cls.kper ((a.zip b).map (fun p => FV.mul p.1 p.2))).foldl (cellStep int) FV.zero
/-- The results of one stream row against a block. -/
def rowResults (o : Mxs) (dat : List (List FV)) (a : List FV) : List FV :=
  (List.range o.nb).map (fun n => dot o.cls (o.af == 0xA) a (dat.map (fun row => row.getD n FV.zero)))
/-- The accumulators after one OS row. -/
def osAccumulate (o : Mxs) (acc : List (List FV)) (west north : List (List FV)) : List (List FV) :=
  (west.zipIdx).map (fun wm => (north.zipIdx).map (fun nn =>
    cellStep (o.af == 0xA) (((acc.getD wm.2 []).getD nn.2) FV.zero) ((wm.1.zip nn.1).map (fun p => FV.mul p.1 p.2))))

/-! ### The drain (R35, R48, R53, R91, R93, R94) -/

/-- The integer of an exact INT32 value. -/
def fvInt : FV → Int
  | .fin n m e => sgn n (m * 2 ^ e.toNat)
  | _ => 0
/-- One destination element: code, and SAT_HIT. -/
def drainElem (o : Mxs) (old : Option Nat) (v : FV) : Nat × Bool :=
  match odfFmt o.odf with
  | some f => f.convert o.sat (match old with
      | some c => FV.add v (f.decode c)
      | none => v)
  | none =>
    let x := fvInt v + (match old with
      | some c => signed 32 c
      | none => 0)
    if o.sat && decide (x < -2 ^ 31) then (2 ^ 31, true)
    else if o.sat && decide (2 ^ 31 - 1 < x) then (2 ^ 31 - 1, true)
    else (wrap 32 x, false)
/-- A destination row: bytes and whether any element saturated or overflowed. -/
def drainRow (o : Mxs) (old : Option (List Byte)) (vs : List FV) : List Byte × Bool :=
  let w := odfWidth o.odf
  let rs := (vs.zipIdx).map (fun p => drainElem o (old.map (fun b => packedAt b w p.2)) p.1)
  (packCodes w (rs.map (·.1)), rs.any (·.2))

end Sys2Proof.Machine
end

