-- ==== Sys2Proof/Machine/Array.lean ====
section
/-! DEFINITION. The matrix array of a tile engine: MXS and MXW, the steps of the array, shadow loads, freezes, the drain (chapter 2).

A row is followed from the cells to the scratchpad as one record that carries its results and the tc left to the drain buffer;
the cell-by-cell position of R33 shows nowhere else. -/

namespace Sys2Proof.Machine

def State.arr (s : State) (t : Nat) : Arr := (s.eng t).arr
def State.setArr (s : State) (t : Nat) (a : Arr) : State := s.setEng t { s.eng t with arr := a }

/-! ### MXS and MXW -/

/-- Tags of the passes that have not yet written or dropped their last row (R29). -/
def Arr.openTags (a : Arr) : List Nat :=
  a.queue.map (·.op.tag) ++ a.flight.map (·.op.tag) ++ a.buf.map (·.row.op.tag) ++ (a.osPend.map (fun p => [p.1.tag])).getD []

/-- MXS: enqueues a pass; it stalls while the queue is full and traps on the cases of R31. -/
def execMxs (t : Fin 128) (w w1 w2 w3 : Word) (s : State) : Out :=
  .next (s.issueWith t w 0x18 fun s =>
    let f := State.followWords [w1, w2, w3] 4 s t
    match f.2 with
    | .other => f.1
    | .trap c => f.1.trapIns t 0x18 c
    | .all =>
      let s := f.1
      let e := s.eng t
      let o := decodeMxs e w w1 w2 w3
      if o.illegal e.arr.held (bits w3.toNat 26 22 == 31) then (s.event F.MXA_STAT_ILLEGAL t).trapIns t 0x18 0x01
      else if bits w1.toNat 1 0 ≠ 0 || bits w2.toNat 3 0 ≠ 0 || bits w3.toNat 21 0 ≠ 0 then s.trapIns t 0x18 0x01
      else if 4 ≤ e.arr.queue.length then s.stallAt t w
      else
        let a := e.arr
        let p : Pass := ⟨o, a.nextId, 0, o.keep || o.mode == 1, false⟩
        let held := if o.keep || o.mode = 1 then a.held else some o.settings
        (s.setArr t { a with queue := a.queue ++ [p], nextId := a.nextId + 1, held := held }).advance t 4)

/-- MXW waits for the passes of its TAG, or for all (R30). -/
def mxwWaits (w : Word) (a : Arr) : Bool :=
  if bitOf w.toNat 25 then !a.openTags.isEmpty else a.openTags.contains (bits w.toNat 3 0)
/-- MXW: completes when nothing it waits for is queued or in the array, and stalls otherwise. -/
def execMxw (t : Fin 128) (w : Word) (s : State) : Out :=
  .next (s.issueWith t w 0x19 fun s =>
    if bits w.toNat 24 4 ≠ 0 then (s.event F.MXA_STAT_ILLEGAL t).trapHere t 0x01
    else if mxwWaits w (s.arr t) then s.stallAt t w else s.advance t 1)
/-- MXW_RELEASE: a stalled MXW completes once the last awaited pass has written or dropped its last row. -/
def execMxwRelease (t : Fin 128) (s : State) : Out :=
  .next (
    let e := s.eng t
    match e.stall with
    | none => s
    | some w => if e.mayIssue && !e.pendMx && wOpc w = 0x19 && !mxwWaits w e.arr then s.advance t 1 else s)

/-! ### Errors (R54, R55) -/

/-- The array ends the pass in error: the status bit, a discard, and a matrix-data trap at the next boundary. -/
def State.passError (s : State) (t : Nat) (f : Field) : State :=
  let s1 := s.event f t
  (s1.setEng t { (s1.eng t).discard with pendMx := true }).arrSettled t

/-! ### Array reads of the scratchpad (R36, R54, R104) -/

/-- An address lies in a destination row of a pass. -/
def Mxs.destHas (o : Mxs) (a : Nat) : Bool :=
  let d := a - o.dbase
  decide (o.dbase ≤ a) &&
    (if o.dstride = 0 then decide (d < o.destLen)
     else let r := min (o.destRows - 1) (d / o.dstride)
          decide (d < r * o.dstride + o.destLen))
/-- The passes whose destinations an array read must not overlap (R36). -/
def Arr.ops (a : Arr) : List Mxs :=
  a.queue.map (·.op) ++ a.flight.map (·.op) ++ a.buf.map (·.row.op) ++ (a.osPend.map (fun p => [p.1])).getD []
/-- Values read from an overlap with a destination are undefined: each such byte is a free value (R36). -/
def State.blurGo (ops : List Mxs) : List (Byte × Nat) → State → State × List Byte
  | [], s => (s, [])
  | (b, a) :: rest, s =>
    if ops.any (·.destHas a) then
      let f := s.free 8
      let q := State.blurGo ops rest f.2
      (q.1, BitVec.ofNat 8 f.1 :: q.2)
    else
      let q := State.blurGo ops rest s
      (q.1, b :: q.2)

/-- The outcome of an array access. -/
inductive ArrRead where
  | ok (bs : List Byte)
  | ue
  | own
  | late
  deriving DecidableEq, Repr

/-- Read [addr, addr+n) for a feeder, the load lane or the mask read. -/
def State.arrRead (s : State) (t addr n : Nat) : State × ArrRead :=
  if 2 ^ 23 < addr + n then (s, .own)
  else match s.spmGrant t addr n .prog with
    | .refused => (s.spmViol t, .own)
    | .wait => (s, .late)
    | .yes =>
      let r := s.spmRead t addr n
      match r.2 with
      | none => (r.1, .ue)
      | some bs =>
        let q := State.blurGo (s.arr t).ops (bs.zipIdx.map (fun p => (p.1, addr + p.2))) r.1
        (q.1, .ok q.2)

/-! ### Shadow loads (R38, R39, R50) -/

/-- The pass whose block the load lane may load: the first without one, behind passes whose fronts have entered. -/
def Arr.loading (a : Arr) : Option Nat :=
  match a.queue.findIdx? (fun p => !p.started) with
  | none => none
  | some i => match a.queue[i]? with
    | none => none
    | some p => if p.loaded then none else some i

/-- SHADOW_LOAD_COMPLETE: the last element enters the lane; the shadow registers hold the block. -/
def execShadowLoadComplete (t : Fin 128) (s : State) : Out :=
  .next (
    let a := s.arr t
    match a.loading with
    | none => s
    | some i => match a.queue[i]? with
      | none => s
      | some p =>
        let q := s.arrRead t p.op.bbase p.op.blockLen
        match q.2 with
        | .late => q.1
        | .ue => q.1.passError t F.MXA_STAT_SRC_UE
        | .own => q.1.passError t F.MXA_STAT_OWN
        | .ok bs =>
          let b : Block := ⟨p.op.mode, p.op.fold, p.op.kb - 1, p.op.nb - 1, p.op.bf', p.op.blockVals bs⟩
          let a1 := q.1.arr t
          q.1.setArr t { a1 with shadow := some b, queue := a1.queue.set i { p with loaded := true } })

/-! ### The drain -/

/-- The lines that [addr, addr + n) touches. -/
def linesOf (addr n : Nat) : List Nat := (List.range ((addr + n - 1) / 1024 + 1 - addr / 1024)).map (fun i => addr / 1024 + i)
/-- The line accesses of a row's destination: each line once, or a read and then a write of it (R35, R103). -/
def lineNeeds (addr n : Nat) (twice : Bool) : List Nat :=
  (linesOf addr n).flatMap (fun l => if twice then [2 * l, 2 * l + 1] else [2 * l + 1])
/-- The bank of a line access. -/
def needBank (x : Nat) : Nat := x / 2 / 512
/-- Grant line accesses in order, one of each served bank per tc; parts of one line share a grant. A bank that refuses the array takes no
grant: the write meets the refusal. -/
def grantLines (served refused : List Nat) : List Nat → List (Nat × Nat) → List Nat × List (Nat × Nat)
  | [], used => ([], used)
  | x :: rest, used =>
    if refused.contains (needBank x) then grantLines served refused rest used
    else
      let hit := match used.find? (·.1 == needBank x) with
        | none => served.contains (needBank x)
        | some u => u.2 == x
      if hit then grantLines served refused rest ((needBank x, x) :: used)
      else
        let g := grantLines served refused rest used
        (x :: g.1, g.2)

/-- Write one result row whole, or not at all: an error discards the array (R54, R55). -/
def State.drainWrite (s : State) (t : Nat) (r : OutRow) : State :=
  let n := r.op.destLen
  if r.act = .drop then s
  else if 2 ^ 23 < r.addr + n then s.passError t F.MXA_STAT_OWN
  else if s.spmGrant t r.addr n .prog ≠ .yes then (s.spmViol t).passError t F.MXA_STAT_OWN
  else
    let acc := r.op.acc && r.act = .write
    let old := if acc then s.spmRead t r.addr n else (s, some [])
    match old.2 with
    | none => old.1.passError t F.MXA_STAT_DST_UE
    | some d =>
      let x := if r.act = .zero then (zeros n, false) else drainRow r.op (if acc then some d else none) r.res
      let q := old.1.spmWrite t r.addr x.1
      if q.2 then ({ q.1 with spm := old.1.spm, spmErr := old.1.spmErr } : State).passError t F.MXA_STAT_DST_UE
      else if x.2 then q.1.event F.MXA_STAT_SAT_HIT t else q.1

/-- One tc of the drain buffer: waits run down, line accesses are granted oldest row first, and rows with none left are written. -/
def drainGo (served refused : List Nat) : List BufRow → List (Nat × Nat) → List BufRow × List OutRow
  | [], _ => ([], [])
  | b :: bs, used =>
    if 1 < b.wait then
      let q := drainGo served refused bs used
      ({ b with wait := b.wait - 1 } :: q.1, q.2)
    else
      let g := grantLines served refused b.need used
      let q := drainGo served refused bs g.2
      if g.1 = [] then (q.1, b.row :: q.2) else ({ b with wait := 0, need := g.1 } :: q.1, q.2)
def State.drainTick (s : State) (t : Nat) (served : List Nat) : State :=
  let a := s.arr t
  let refused := (List.range 16).filter (fun b => s.bankGrant t b .prog = .refused)
  let q := drainGo served refused a.buf []
  q.2.foldl (fun acc r =>
    if (acc.eng t).pendMx then acc
    else if acc.spmGrant t r.addr r.op.destLen .prog = .wait then
      let b := acc.arr t
      acc.setArr t { b with buf := b.buf ++ [⟨r, 0, lineNeeds r.addr r.op.destLen (r.op.acc && r.act = .write)⟩] }
    else acc.drainWrite t r) (s.setArr t { a with buf := q.1 })

/-- A row enters the drain buffer: two tc to its write, and the line accesses of its destination. -/
def OutRow.buffered (r : OutRow) : BufRow :=
  ⟨r, 2, if r.act = .drop then [] else lineNeeds r.addr r.op.destLen (r.op.acc && r.act = .write)⟩
/-- Move time on by `tc` for the rows on their way; the rows that arrive enter the drain buffer. -/
def Arr.advanceRows (a : Arr) (tc : Nat) : Arr :=
  let due := a.flight.filter (fun r => decide (r.left ≤ tc))
  let rest := (a.flight.filter (fun r => decide (tc < r.left))).map (fun r => { r with left := r.left - tc })
  { a with flight := rest, lane := a.lane - tc, buf := a.buf ++ due.map OutRow.buffered }
/-- Rows that enter the buffer in a step of `tc`, and entries taken by rows whose write is late (log entry 13). A dropped row takes no
entry (log entry 74). -/
def Arr.dueRows (a : Arr) (tc : Nat) : Nat := (a.flight.filter (fun r => decide (r.left ≤ tc) && r.act ≠ .drop)).length
def Arr.lateRows (a : Arr) : Nat := (a.buf.filter (fun b => b.wait == 0)).length
/-- The drain is backed up in a step of `tc` (R43). -/
def Arr.backedUp (a : Arr) (tc : Nat) : Bool := decide (8 < a.dueRows tc + a.lateRows)
/-- More zero rows are due in one step than the buffer has entries: the first of them enter when it is free, the others stay due
(log entry 74). -/
def Arr.squeeze (a : Arr) (tc : Nat) : Arr :=
  if a.dueRows tc ≤ 8 || a.lateRows ≠ 0 then a
  else
    let go := ((a.flight.zipIdx).filter (fun p => decide (p.1.left ≤ tc) && p.1.act ≠ .drop)).take 8
    { a with flight := (a.flight.zipIdx.filter (fun p => !go.any (fun g => g.2 == p.2))).map (·.1)
             buf := a.buf ++ go.map (fun g => g.1.buffered) }

/-! ### Stream rows (R43, R65) -/

/-- What a DMA stream channel gives the feeder. -/
inductive StreamRow where
  | row (bs : List Byte)
  | dry
  | error
  deriving DecidableEq, Repr

/-- Take the next row from a stream channel for a pass whose rows are `len` bytes: dry while the head is a copy descriptor, absent or
late; an error when the channel is halted, the row size differs (the channel halts), or the row read uncorrectable. -/
def State.takeRow (s : State) (t ch len : Nat) : State × StreamRow :=
  if s.chanHalted t ch then (s, .error)
  else
    let e := s.eng t
    let c := e.chan ch
    match c.queue with
    | [] => (s, .dry)
    | r :: rest =>
      if r.d.mode ≠ 1 || !r.started then (s, .dry)
      else if r.d.rowLen ≠ len then (s.haltChan t ch r.epoch .mismatch, .error)
      else match SMap.find r.rows r.taken with
        | some bs =>
          let r' := { r with rows := SMap.del r.rows r.taken, taken := r.taken + 1 }
          (s.setEng t (e.setChan ch { c with queue := popDone (r' :: rest) }), .row bs)
        | none => match r.ueRow with
          | some (u, err) => if u = r.taken then (s.haltChan t ch r.epoch err, .error) else (s, .dry)
          | none => (s, .dry)

/-- A row of the west stream of a pass. -/
inductive Fed where
  | row (bs : List Byte)
  | dry
  | fail (f : Field)
  deriving DecidableEq, Repr
def State.westRow (s : State) (t : Nat) (o : Mxs) (r : Nat) : State × Fed :=
  if o.src = 1 then
    let q := s.takeRow t o.dch o.westLen
    match q.2 with
    | .row bs => (q.1, .row bs)
    | .dry => (q.1, .dry)
    | .error => (q.1, .fail F.MXA_STAT_SRC_UE)
  else
    let q := s.arrRead t (o.sbase + r * o.sstride) o.westLen
    match q.2 with
    | .ok bs => (q.1, .row bs)
    | .late => (q.1, .dry)
    | .ue => (q.1, .fail F.MXA_STAT_SRC_UE)
    | .own => (q.1, .fail F.MXA_STAT_OWN)

/-- Rows r, r+1, … (n of them) of the west stream: all, or what stopped it. Nothing is taken when the step is dry. -/
def State.westRows : Nat → State → Nat → Mxs → Nat → List (List Byte) → State × (List (List Byte) ⊕ Fed)
  | 0, s, _, _, _, acc => (s, .inl acc.reverse)
  | n + 1, s, t, o, r, acc =>
    let q := s.westRow t o r
    match q.2 with
    | .row bs => State.westRows n q.1 t o (r + 1) (bs :: acc)
    | f => (q.1, .inr f)

/-! ### Masks (R46 to R48) -/

/-- The live bits of group g: MASK = 0 all, 1 the bitmap byte, 2 the range. -/
def State.groupMask (s : State) (t : Nat) (o : Mxs) (g : Nat) : State × (Nat ⊕ Fed) :=
  if o.mask = 0 then (s, .inl 255)
  else if o.mask = 2 then
    let lo := o.mA % 2 ^ 24
    let hi := o.mB % 2 ^ 24
    (s, .inl (((List.range 8).filter (fun i => decide (lo ≤ 8 * g + i ∧ 8 * g + i < hi))).foldl (fun a i => a + 2 ^ i) 0))
  else
    let q := s.arrRead t (o.mA + g) 1
    match q.2 with
    | .ok bs => (q.1, .inl (leNat bs))
    | .late => (q.1, .inr .dry)
    | .ue => (q.1, .inr (.fail F.MXA_STAT_SRC_UE))
    | .own => (q.1, .inr (.fail F.MXA_STAT_OWN))

/-! ### One step (R33 to R50) -/

def Mxs.latencyLeft (o : Mxs) : Nat := o.cls.latency - (o.cls.tc - 1)
/-- The record of result row r of a WS or IS pass that has `left` tc to the drain buffer. -/
def Mxs.outRow (o : Mxs) (id r left : Nat) (act : OutAct) (res : List FV) : OutRow :=
  ⟨o, id, r + 1 == o.rows, left, o.dbase + r * o.dstride, act, res⟩

/-- Update the head pass. -/
def Arr.setHead (a : Arr) (p : Pass) : Arr :=
  { a with queue := match a.queue with
      | [] => []
      | _ :: ps => p :: ps }
/-- A pass has fed or skipped its last row: it leaves the queue; an OS pass leaves its accumulators for the next front. -/
def Arr.endIfDone (a : Arr) (p : Pass) : Arr :=
  if p.row < p.op.rows then a.setHead p
  else { a with queue := a.queue.drop 1, osPend := if p.op.mode = 1 then some (p.op, p.id) else a.osPend }

/-- Skip the fully masked groups at the head of a pass: no step, `MXA_SKIPGRP` counts each, and with ZF = 1 their rows are written
as zeros, due with the row that feeds next (R46, R48). Returns the live bits of the group that feeds next. -/
def State.skipGroups : Nat → State → Nat → Pass → State × Pass × (Nat ⊕ Fed)
  | 0, s, _, p => (s, p, .inl 255)
  | fuel + 1, s, t, p =>
    if p.op.rows ≤ p.row || p.op.mode = 1 || p.row % 8 ≠ 0 then
      let q := s.groupMask t p.op (p.row / 8)
      if p.op.rows ≤ p.row || p.op.mode = 1 then (s, p, .inl 255) else (q.1, p, q.2)
    else
      let q := s.groupMask t p.op (p.row / 8)
      let n := min 8 (p.op.rows - p.row)
      match q.2 with
      | .inr f => (q.1, p, .inr f)
      | .inl m =>
        if m % 2 ^ n ≠ 0 then (q.1, p, .inl m)
        else
          let w := if p.op.src = 1 then State.westRows n q.1 t p.op p.row [] else (q.1, .inl [])
          match w.2 with
          | .inr .dry => (q.1, p, .inr .dry)
          | .inr f => (w.1, p, .inr f)
          | .inl _ =>
            let s1 := w.1.fadd F.MXA_SKIPGRP_SKIPGRP t 1
            let a := s1.arr t
            let zs := if p.op.zf then (List.range n).map (fun i => p.op.outRow p.id (p.row + i) (p.op.latencyLeft + p.op.cls.tc) .zero []) else []
            State.skipGroups fuel (s1.setArr t { a with flight := a.flight ++ zs }) t
              { p with row := p.row + n }

/-- The front of a pass that enters in a step of `tc` (R37, R40, R50): the shadow block becomes active, accumulators of an OS pass move
to the drain registers, which the lane empties in 64 tc. -/
def Arr.front (a : Arr) (p : Option Pass) (tc : Nat) : Arr :=
  let a1 := match a.osPend with
    | none => a
    | some (o, id) =>
      let rows := (a.osAcc.zipIdx).map (fun q =>
        (⟨o, id, q.2 == 0, 193 - q.2 - (tc - 1), o.dbase + q.2 * o.dstride, .write, q.1⟩ : OutRow))
      { a with flight := a.flight ++ rows.reverse, osAcc := [], osPend := none, lane := 64 - tc }
  match p with
  | none => a1
  | some p => if p.op.mode = 1 then { a1 with osWest := [], osNorth := [] }
    else if a1.shadow.isSome then { a1 with active := a1.shadow, shadow := none } else a1
/-- Whether a pass has a front when it starts: KEEP = 0, or a block left in the shadow registers (R50). -/
def Arr.hasFront (a : Arr) (p : Pass) : Bool := !p.op.keep || a.shadow.isSome

/-- A frozen step: counters, the freeze run of R45. -/
def State.freeze (s : State) (t tc : Nat) (f : Field) : State :=
  let s1 := s.fadd f t tc
  let a := s1.arr t
  s1.setArr t { a with frozenNow := true, frozenFor := a.frozenFor + tc }
/-- A step that is not frozen. -/
def State.thaw (s : State) (t : Nat) : State :=
  let a := s.arr t
  s.setArr t { a with frozenNow := false, frozenFor := 0, stalled := false, got := [] }

/-- Feed one WS or IS step: rows p.row to p.row + F − 1 of one group. -/
def State.feedRows (s : State) (t : Nat) (p : Pass) (m tc : Nat) : State :=
  let o := p.op
  let n := min (min o.f (8 - p.row % 8)) (o.rows - p.row)
  let q := State.westRows n s t o p.row []
  match q.2 with
  | .inr .dry => s.freeze t tc F.MXA_FRZ_DRY_FRZ_DRY
  | .inr (.fail f) => q.1.passError t f
  | .inr (.row _) => s
  | .inl rows =>
    let a0 := (q.1.arr t).advanceRows tc
    let a1 := if !p.started && a0.hasFront p then a0.front (some p) tc else a0
    let dat := (a1.active.map (·.dat)).getD []
    let outs := (rows.zipIdx).map (fun x =>
      let r := p.row + x.2
      let live := bitOf m (r % 8)
      o.outRow p.id r o.latencyLeft (if live then .write else if o.zf then .zero else .drop) (if live then rowResults o dat (o.rowVals x.1) else []))
    let dropped := (outs.filter (fun r => r.act ≠ .write)).length
    let p1 := { p with row := p.row + n, started := true }
    let s1 := q.1.setArr t ({ a1 with flight := a1.flight ++ outs }.endIfDone p1)
    let s2 := s1.setEng t { s1.eng t with fed := (s1.eng t).fed + n }
    ((s2.rput .MXA_FED_LO t (BitVec.ofNat 32 ((s2.eng t).fed))).fadd F.MXA_DROPPED_DROPPED t dropped).thaw t

/-- Feed one OS step. The rows of a converted K-block are gathered before its first row is fed (R461). -/
def State.feedOs (s : State) (t : Nat) (p : Pass) (tc : Nat) : State :=
  let o := p.op
  let conv := o.qa ≠ 0
  let need := if conv && p.row % o.osBlk = 0 then min o.osBlk (o.rows - p.row) else if conv then 0 else 1
  let north (i : Nat) : Nat := o.bbase + (p.row + i) * o.sstride
  let ns := (List.range need).foldl (fun (x : State × List ArrRead) i =>
    let q := x.1.arrRead t (north i) o.northLen
    (q.1, x.2 ++ [q.2])) (s, [])
  let q := State.westRows need ns.1 t o p.row []
  let nBad : Option ArrRead := ns.2.findSome? (fun r => match r with
    | .ok _ => none
    | x => some x)
  match nBad, q.2 with
  | some .late, _ => s.freeze t tc F.MXA_FRZ_DRY_FRZ_DRY
  | some .own, _ => ns.1.passError t F.MXA_STAT_OWN
  | some _, _ => ns.1.passError t F.MXA_STAT_SRC_UE
  | none, .inr .dry => s.freeze t tc F.MXA_FRZ_DRY_FRZ_DRY
  | none, .inr (.fail f) => q.1.passError t f
  | none, .inr (.row _) => s
  | none, .inl rows =>
    let a0 := (q.1.arr t).advanceRows tc
    let a1 := if p.started then a0 else { a0.front (some p) tc with osAcc := [] }
    let keepBlk (m : SMap (List Byte)) := if p.row % o.osBlk = 0 then [] else m
    let put (m : SMap (List Byte)) (rs : List (List Byte)) := (rs.zipIdx).foldl (fun m x => SMap.put m (p.row + x.2) x.1) m
    let w := put (keepBlk a1.osWest) rows
    let nb := put (keepBlk a1.osNorth) (ns.2.filterMap (fun r => match r with
      | .ok bs => some bs
      | _ => none))
    let west := o.osVals o.af o.kb (conv && o.qop == 0) (fun r => SMap.get w r []) p.row
    let nth := o.osVals o.bf o.nb (conv && o.qop == 1) (fun r => SMap.get nb r []) p.row
    let a2 := { a1 with osAcc := osAccumulate o a1.osAcc west nth, osWest := w, osNorth := nb }
    let s1 := q.1.setArr t (a2.endIfDone { p with row := p.row + 1, started := true })
    let s2 := s1.setEng t { s1.eng t with fed := (s1.eng t).fed + 1 }
    (s2.rput .MXA_FED_LO t (BitVec.ofNat 32 ((s2.eng t).fed))).thaw t

/-- The array takes a step in which no row enters: rows move on, an OS pass that no front follows drains by an empty front (R40), and
the step counts as one empty step while a shadow load completes (R39). -/
def State.emptyStep (s : State) (t tc : Nat) (bubble : Bool) : State :=
  let a := (s.arr t).advanceRows tc
  let a1 := if a.osPend.isSome && a.queue.all (fun p => !a.hasFront p) then a.front none tc else a
  let s1 := (s.setArr t a1).thaw t
  if bubble then s1.fadd F.MXA_BUBBLE_BUBBLE t 1 else s1
/-- A backed-up step: the array freezes, and rows enter the buffer only where no step could ever take them all. -/
def State.backFreeze (s : State) (t tc : Nat) : State :=
  (s.setArr t ((s.arr t).squeeze tc)).freeze t tc F.MXA_FRZ_BACK_FRZ_BACK
/-- An OS front meets a full drain register: the array freezes while the drain lane runs down (R41, log entry 74). -/
def State.laneFreeze (s : State) (t tc : Nat) : State :=
  let s1 := s.freeze t tc F.MXA_FRZ_BACK_FRZ_BACK
  s1.setArr t { s1.arr t with lane := (s1.arr t).lane - tc }

/-- tc of the step that is due: of the pass that feeds, or of the rows on their way. -/
def Arr.stepTc (a : Arr) : Nat :=
  match a.queue.head?, a.flight.head?, a.osPend with
  | some p, _, _ => p.op.cls.tc
  | none, some r, _ => r.op.cls.tc
  | none, none, some o => o.1.cls.tc
  | none, none, none => 1
/-- Passes whose remaining rows are all masked end without a step of their own (R46, R50). -/
def State.dropMasked : Nat → State → Nat → State
  | 0, s, _ => s
  | n + 1, s, t =>
    match (s.arr t).queue with
    | [] => s
    | p :: _ =>
      if !p.loaded || p.op.mask = 0 then s
      else
        let k := State.skipGroups (p.op.rows / 8 + 1) s t p
        if p.op.rows ≤ k.2.1.row then State.dropMasked n (k.1.setArr t ((k.1.arr t).endIfDone k.2.1)) t else s

/-! ### Ports (R103 to R105) -/

/-- Rows that the next step of a pass feeds: F rows of one group, or the rows of a K-block that QA converts (R34, R461). -/
def Pass.stepRows (p : Pass) : Nat :=
  let o := p.op
  if o.mode ≠ 1 then min (min o.f (8 - p.row % 8)) (o.rows - p.row)
  else if o.qa = 0 then 1
  else if p.row % o.osBlk = 0 then min o.osBlk (o.rows - p.row) else 0
/-- The line accesses of the step that is due and that no grant has served: (bank, place of the requester in R104, line). The feeders read
a row in the tc in which it may enter; a mask byte is read with the first row of its group (log entry 75). -/
def State.feedNeeds (s : State) (t : Nat) : List (Nat × Nat × Nat) :=
  let a := s.arr t
  match a.queue with
  | [] => []
  | p :: _ =>
    if !p.loaded then []
    else
      let k := State.skipGroups (p.op.rows / 8 + 1) s t p
      let p1 := k.2.1
      let o := p.op
      let rows (base len : Nat) : List Nat := (List.range p1.stepRows).flatMap (fun i => linesOf (base + (p1.row + i) * o.sstride) len)
      let mask := if o.mask = 1 && p.row % 8 = 0 then [(4, (o.mA + p.row / 8) / 1024)] else []
      let feed := match k.2.2 with
        | .inr _ => []
        | .inl _ => if o.rows ≤ p1.row then [] else
            (if o.src = 0 then (rows o.sbase o.westLen).map (fun l => (0, l)) else [])
              ++ (if o.mode = 1 then (rows o.bbase o.northLen).map (fun l => (1, l)) else [])
      ((mask ++ feed).filter (fun x => !a.got.contains x && decide (x.2 < 8192) && s.bankGrant t (x.2 / 512) .prog ≠ .refused)).map
        (fun x => (x.2 / 512, x.1, x.2))
/-- One line of each requester at each bank. -/
def firstLines : List (Nat × Nat × Nat) → List (Nat × Nat × Nat)
  | [] => []
  | x :: xs => x :: (firstLines xs).filter (fun y => y.1 ≠ x.1 || y.2.1 ≠ x.2.1)
/-- The banks that the drain wants in a tc: of the rows whose two tc are over. -/
def Arr.drainBanks (a : Arr) : List Nat := ((a.buf.filter (fun b => decide (b.wait ≤ 1))).flatMap (fun b => b.need.map needBank)).eraseDups
/-- Requesters of places 6 to 9 of R104, with their ports, that a command names. -/
def otherWants (l : List (Fin 18 × Fin 32)) : List (Nat × Nat) :=
  (l.filter (fun x => decide (5 ≤ x.2.val))).map (fun x => (x.1.val, x.2.val))
/-- One tc of the ports: the lines that the feeders and the mask read gain, and the drain's writes. -/
def State.portTick (s : State) (t : Nat) (others : List (Nat × Nat)) : State :=
  let open_ (b : Nat) : Bool := s.bankGrant t b .prog = .yes
  let fw := (firstLines (s.feedNeeds t)).filter (fun x => open_ x.1)
  let db := (s.arr t).drainBanks.filter open_
  let r := (s.eng t).portTc (s.fget F.SPM_CFG_STARVE t) (fw.map (fun x => (x.1, x.2.1)) ++ db.map (fun b => (b, 2)) ++ others)
  let a := r.1.arr
  let won := (fw.filter (fun x => r.2.contains (x.1, x.2.1))).map (·.2)
  (s.setEng t { r.1 with arr := { a with got := a.got ++ won } }).drainTick t ((r.2.filter (·.2 == 2)).map (·.1))
def State.portTicks : Nat → State → Nat → List (Nat × Nat) → State
  | 0, s, _, _ => s
  | n + 1, s, t, others => State.portTicks n (s.portTick t others) t others

/-- One step after the skipped groups are known. -/
def State.stepBody (s : State) (t : Nat) : State :=
  let a := s.arr t
  let idle := a.flight.isEmpty && a.osPend.isNone
  match a.queue with
  | [] =>
    let tc := a.stepTc
    if idle then s.thaw t
    else if a.backedUp tc then s.backFreeze t tc
    else if a.osPend.isSome && decide (0 < a.lane) then s.laneFreeze t tc
    else s.emptyStep t tc false
  | p :: _ =>
    let tc := p.op.cls.tc
    let unread := s.feedNeeds t
    if !p.loaded then
      -- the front waits for the shadow load (R39)
      if idle then s.thaw t
      else if a.backedUp tc then s.backFreeze t tc
      else s.emptyStep t tc true
    else if unread.any (fun x => x.2.1 == 4) then s.freeze t tc F.MXA_FRZ_DRY_FRZ_DRY
    else
      let k := State.skipGroups (p.op.rows / 8 + 1) s t p
      let s1 := k.1
      let p1 := k.2.1
      match k.2.2 with
      | .inr (.fail f) => s1.passError t f
      | .inr _ => (s1.setArr t ((s1.arr t).setHead p1)).freeze t tc F.MXA_FRZ_DRY_FRZ_DRY
      | .inl m =>
        let s2 := s1.setArr t ((s1.arr t).setHead p1)
        let a2 := s2.arr t
        if a2.backedUp tc then s2.backFreeze t tc
        else if !p1.started && a2.osPend.isSome && decide (0 < a2.lane) && a2.hasFront p1 then s2.laneFreeze t tc
        else if unread ≠ [] then s2.freeze t tc F.MXA_FRZ_DRY_FRZ_DRY
        else if p.op.mode = 1 then s2.feedOs t p1 tc
        else s2.feedRows t p1 m tc

/-- ARRAY_STEP: in each tc of the step the ports serve the array, its load lane at the ports `lane`, and the `others` (port, requester)
that want them, and the drain buffer writes what it was granted; then the array advances as one or freezes (R42, R43, R104, R105). Ports 0
to 15 are the banks' (port A of an exchange bank), 16 and 17 port B of banks 0 and 1; requester 5 is vector, 6 scalar, 8 + n channel n,
16 + k the k-th stop-side requester. -/
def execArrayStep (t : Fin 128) (lane : List (Fin 18)) (others : List (Fin 18 × Fin 32)) (s : State) : Out :=
  .next (
    let e := s.eng t
    if e.power ≠ .on || e.inReset || e.pendMx then s
    else
      let s0 := State.dropMasked 4 s t
      let s1 := State.portTicks (s0.arr t).stepTc s0 t (lane.map (fun p => (p.val, 3)) ++ otherWants others)
      (if (s1.eng t).pendMx then s1 else s1.stepBody t).arrSettled t)

/-- ARRAY_FREEZE_LIMIT: 2^FRZ_LIM consecutive frozen tc set STALL and raise MXA_STALL; the array stays frozen (R45). -/
def execArrayFreezeLimit (t : Fin 128) (s : State) : Out :=
  .next (
    let a := s.arr t
    if 2 ^ s.fget F.MXA_CFG_FRZ_LIM t ≤ a.frozenFor && !a.stalled then
      ((s.setArr t { a with stalled := true }).event F.MXA_STAT_STALL t).raise 0x01 t 0 0
    else s)

/-- CLR_CNT: every MXA counter counts from zero (R57). -/
def State.clearCounters (s : State) (t : Nat) : State :=
  let s1 := s.setEng t { s.eng t with fed := 0 }
  [Reg.MXA_FED_LO, .MXA_FED_HI, .MXA_DROPPED, .MXA_SKIPGRP, .MXA_FRZ_DRY, .MXA_FRZ_BACK, .MXA_BUBBLE].foldl
    (fun a r => a.rput r t 0) s1
def execClrCnt (t : Fin 128) (s : State) : Out := .next (s.clearCounters t)
/-- MXA_FED_LO_READ: returns the low half and latches the upper half for MXA_FED_HI (R57). -/
def execMxaFedLoRead (t : Fin 128) (s : State) : Out :=
  let n := (s.eng t).fed
  .next ((s.rput .MXA_FED_HI t (BitVec.ofNat 32 (n / 2 ^ 32))).answer (n % 2 ^ 32))

end Sys2Proof.Machine
end

