-- ==== Sys2Proof/Machine/CmdEng.lean ====
section
/-! DEFINITION. The command engine: polls, doorbells, fetches, interrupts in mode 2, queue pair states (R239 to R249, R259 to R261). -/

namespace Sys2Proof.Machine

/-! ### Polling (R245 to R248) -/

/-- The queue pairs that are ACTIVE. -/
def State.activeQps (s : State) : List Nat := s.qpKeys.filter (fun q => s.qpState q == qpACTIVE)
/-- A draining queue pair whose ABORTED records wait for room (log entry 83). -/
def State.drainWaits (s : State) (q : Nat) : Bool := s.qpState q == qpDRAINING && (s.qp q).live.any (fun d => !d.started)
def State.drainQps (s : State) : List Nat := s.qpKeys.filter s.drainWaits
/-- Functions with a queue pair to poll, in the order of those queue pairs. -/
def State.pollFuncs (s : State) : List Nat := ((s.activeQps ++ s.drainQps).filterMap s.qpFunc).eraseDups
/-- The host address and the length of a poll read: a function's summary part (R245), a doorbell word (R241). -/
def State.pollSpan (s : State) : PollRead → Nat × Nat
  | .summary f => (64 * s.fget F.CMD_SUM_LO_ADDR f + 2 ^ 32 * s.fget F.CMD_SUM_HI_ADDR_HI f, 8 * cdiv (s.fget F.CMD_FQ_QCNT f) 64)
  | .doorbell q => (s.get64 .CMD_QP_DB_LO .CMD_QP_DB_HI q, 16)
/-- The poll interval in ns (R247). -/
def State.pollNs (s : State) : Nat := if s.cmd.idle then 1000 * s.fget F.CMD_POLL_IDLE_US 0 else s.fget F.CMD_POLL_ACT_NS 0
/-- Ask for a poll read; one already wanted is joined. -/
def State.wantRead (s : State) (r : PollRead) : State :=
  if s.cmd.polls.contains r then s else { s with cmd := { s.cmd with polls := s.cmd.polls ++ [r] } }
/-- The module reads summaries: it is ready, memory requests may leave, it is not in Sentry (R272, R311, R374). -/
def State.mayPoll (s : State) : Bool := s.flag F.BOOT_STAT_READY 0 && s.hostOpen && !s.flag F.LUL_STATE_SENTRY 0
/-- An access of host memory waits for IDE (R272). -/
def State.ideWait (s : State) : State := if s.linkUp && !s.hostOpen then s.event F.PCI_STAT_IDE_WAIT 0 else s

/-- CMD_POLL_TICK: the interval has passed, and the summary part of every function with an enabled queue pair that is not in D3hot is
read (R246, R247, R273). -/
def execCmdPollTick (s : State) : Out :=
  .next (if s.clk.ns < s.cmd.lastPoll + s.pollNs then s
    else if s.mayPoll then
      (s.pollFuncs.filter (fun f => !s.pcie.d3.contains f)).foldl (fun a f => a.wantRead (.summary f))
        { s with cmd := { s.cmd with lastPoll := s.clk.ns } }
    else if s.flag F.BOOT_STAT_READY 0 && s.pollFuncs ≠ [] then s.ideWait else s)
/-- IDLE_INTERVAL: no descriptor for IDLE_AFTER µs (R247). -/
def execIdleInterval (s : State) : Out :=
  .next (if s.clk.ns < s.cmd.lastFetch + 1000 * s.fget F.CMD_POLL_IDLE_AFTER 0 then s else { s with cmd := { s.cmd with idle := true } })
/-- NUDGE: a write of BAR2 wakes Sentry, returns to the active interval and polls the function (R248). -/
def execNudge (r : HostReq) (s : State) : Out :=
  .next (s.viaPort r.fn (.host r.stream) (
      let s1 := s.served.sentryExit
      let s2 : State := { s1 with cmd := { s1.cmd with idle := false } }
      if s2.mayPoll && s2.pollFuncs.contains r.fn.val then s2.wantRead (.summary r.fn) else s2))

/-- The poll read is one of the four outstanding ones. -/
def State.pollOut (s : State) (r : PollRead) : Bool := (s.cmd.polls.take 4).contains r
/-- It has returned. -/
def State.pollDone (s : State) (r : PollRead) : State := { s with cmd := { s.cmd with polls := s.cmd.polls.filter (· ≠ r) } }
/-- SUMMARY_READ_DONE: the doorbells of enabled queue pairs whose bit is 1, or whose completion ring is full, are read (R246).
`sum` is the summary part read, as a little-endian number. -/
def execSummaryReadDone (f : Fin 257) (r : ReadAt) (sum : Nat) (s : State) : Out :=
  .next (if !s.pollOut (.summary f) || r.addr ≠ (s.pollSpan (.summary f)).1 then s
    else
      let s1 := s.pollDone (.summary f)
      if !r.ok then s1.event F.CMD_STAT_HOST_ERR f
      else
        let b := s1.fget F.CMD_FQ_QBASE f
        (s1.qpKeys.filter (fun q => s1.qpFunc q = some f.val && (s1.drainWaits q
            || s1.qpState q == qpACTIVE && (bitOf sum (q - b) || decide (s1.cqRoom q ≤ 1))))).foldl (fun a q => a.wantRead (.doorbell q)) s1)
/-- DOORBELL_READ_DONE: the indices are taken; too many descriptors waiting, or a failed read, is an error (R242, R260). `prod` and `cons`
stand in the doorbell word read. -/
def execDoorbellReadDone (qp : Nat) (r : ReadAt) (prod cons : Word) (s : State) : Out :=
  .next (if !s.pollOut (.doorbell qp) || r.addr ≠ (s.pollSpan (.doorbell qp)).1 then s
    else
      let s1 := s.pollDone (.doorbell qp)
      if s1.drainWaits qp then
        (if r.ok then (s1.setQp qp { s1.qp qp with cqCons := cons.toNat }).qpDrainGo qp else s1.event F.CMD_STAT_HOST_ERR ((s1.qpFunc qp).getD 0))
      else if s1.qpState qp ≠ qpACTIVE then s1
      else if !r.ok then (s1.event F.CMD_STAT_HOST_ERR ((s1.qpFunc qp).getD 0)).qpError qp 3
      else
        let x := s1.qp qp
        let s2 := s1.setQp qp { x with sqProd := prod.toNat, cqCons := cons.toNat }
        if 2 ^ s2.fget F.CMD_QP_CFG_SQ_LOG2 qp < (prod.toNat + 2 ^ 32 - x.sqCons) % 2 ^ 32 then s2.qpError qp 1 else s2)

/-! ### Fetch (R242, R249) -/

/-- Descriptors of a queue pair that wait to be read. -/
def State.waiting (s : State) (q : Nat) : Nat := let x := s.qp q
  (x.sqProd + 2 ^ 32 - x.sqCons) % 2 ^ 32
/-- The queue pair whose turn it is: the lowest PRIO with descriptors waiting, in round robin (R249). -/
def State.fetchTurn (s : State) : Option Nat :=
  let l := s.activeQps.filter (fun q => decide (0 < s.waiting q))
  match (List.range 4).find? (fun p => l.any (fun q => s.fget F.CMD_QP_CFG_PRIO q == p)) with
  | none => none
  | some p =>
    let m := l.filter (fun q => s.fget F.CMD_QP_CFG_PRIO q == p)
    let last := SMap.find s.cmd.lastPrio p
    match m.find? (fun q => last.any (fun x => decide (x < q))) with
    | some q => some q
    | none => m.head?
/-- Descriptors fetched and not completed. -/
def State.fetched (s : State) : Nat := (s.cmd.qps.map (fun e => e.2.ring.length)).sum
def kvTypesF : List Nat := [0x10, 0x11, 0x12, 0x13, 0x14, 0x15]
/-- Take one fetched descriptor. -/
def State.takeDescr (s : State) (q : Nat) (bs : List Byte) : State :=
  let x := s.qp q
  let d : Descr := ⟨2 ^ 32 * x.gen + x.sqCons, padTo 128 bs, false, [], 0, 0, 0⟩
  let s1 := (s.setQp q { x with sqCons := (x.sqCons + 1) % 2 ^ 32, ring := x.ring ++ [d] }).headSync q
  if kvTypesF.contains d.type then
    { s1 with kv := { s1.kv with order := s1.kv.order.filter (fun w => (s1.descr w.1 w.2).isSome) ++ [(q, d.idx)] } }
  else s1
/-- Cut a byte list into descriptors. -/
def cut128 : Nat → List Byte → List (List Byte)
  | 0, _ => []
  | n + 1, b => b.take 128 :: cut128 n (b.drop 128)
/-- DESCRIPTOR_FETCH_DONE: up to 8 consecutive descriptors of the queue pair whose turn it is arrive, SQ_CONS is written, polling
is active again; a failed read is an error of the ring. The read begins at the slot of the first; the ring goes round (R241). -/
def execDescriptorFetchDone (qp : Nat) (r : ReadAt) (bytes : List Byte) (s : State) : Out :=
  .next (
    let n := bytes.length / 128
    if !s.mayPoll || s.fetchTurn ≠ some qp || 4096 ≤ s.fetched || r.addr ≠ s.sqSlot qp (s.qp qp).sqCons then s
    else if !r.ok then (s.event F.CMD_STAT_HOST_ERR ((s.qpFunc qp).getD 0)).qpError qp 2
    else if n = 0 || 8 < n || s.waiting qp < n || 4096 < s.fetched + n then s
    else
      let s1 := (cut128 n bytes).foldl (fun a b => a.takeDescr qp b) s
      let x := s1.qp qp
      let s2 := s1.hostWriteFor ((s1.qpFunc qp).getD 0) (s1.get64 .CMD_QP_DB_LO .CMD_QP_DB_HI qp + 8) (leBytes 4 x.sqCons)
      let s3 := s2.fput F.CMD_QP_STATE_INFLIGHT qp x.ring.length
      { s3 with cmd := { s3.cmd with idle := false, lastFetch := s3.clk.ns, lastPrio := SMap.put s3.cmd.lastPrio (s3.fget F.CMD_QP_CFG_PRIO qp) qp } })

/-- COALESCE_TIMEOUT: `CMD_QP_COAL.TIME` µs after the first record of a group (R259). -/
def execCoalesceTimeout (qp : Nat) (s : State) : Out :=
  .next (let x := s.qp qp
    if s.fget F.CMD_QP_CFG_IRQ qp = 2 && decide (0 < x.coal ∧ x.coalAt + 1000 * s.fget F.CMD_QP_COAL_TIME qp ≤ s.clk.ns) then
      (s.setQp qp { x with coal := 0 }).msi ((s.qpFunc qp).getD 0) (s.fget F.CMD_QP_CFG_VEC qp)
    else s)

/-! ### Queue pair states and ranges (R239, R260, R261, R268, R269) -/

/-- Entries of a function's MSI-X table (R269). -/
def msixSize (f : Nat) : Nat := if f = 0 then 1024 else 4
/-- The global queue pair that a function has selected. -/
def State.selQp (s : State) (f : Nat) : Nat := s.fget F.CMD_FQ_QBASE f + s.fget F.CMD_QPSEL_QP f
/-- The stored form of a CMD_QP_CFG write: IRQ 3 reads back as 2. -/
def cfgWord (w : Nat) (en : Nat) : Word :=
  let v := w % 2 ^ 26
  BitVec.ofNat 32 (setBits (if bits v 25 24 = 3 then setBits v 25 24 2 else v) 0 0 en)
/-- A write that would change a Frozen field of a block that runs (R431). -/
def State.cmdFrozen (s : State) (f : Nat) (r : Reg) (i : Nat) : State :=
  (s.event F.CMD_STAT_FROZEN_WR f).rput .GLB_FROZEN_LAST 0 (BitVec.ofNat 32 (regOffset r i))
def State.cfgFrozen (s : State) (f q : Nat) (w : Word) : State :=
  if (cfgWord w.toNat 0).toNat = (cfgWord (s.rget .CMD_QP_CFG q).toNat 0).toNat then s else s.cmdFrozen f .CMD_QP_CFG q
/-- R261: why an enable is refused. -/
def State.enableRefused (s : State) (f q : Nat) : Bool :=
  let a := s.fget F.CMD_QP_CFG_SQ_LOG2 q
  let b := s.fget F.CMD_QP_CFG_CQ_LOG2 q
  decide (a < 4 ∨ 16 < a ∨ b < 4 ∨ 16 < b)
    || decide (msixSize f ≤ s.fget F.CMD_QP_CFG_VEC q)
    || (s.fget F.CMD_SUM_LO_ADDR f == 0 && s.fget F.CMD_SUM_HI_ADDR_HI f == 0)

/-- QP_ENABLE: a write of CMD_QP_CFG with EN = 1 by function `f`. The Frozen fields of the same write count. -/
def execQpEnable (f : Fin 257) (w : Word) (s : State) : Out :=
  .next (
    let q := s.selQp f
    if !s.funcLive f || s.fget F.BOOT_STAT_STAGE 0 < 2 then s
    else if s.fget F.CMD_FQ_QCNT f ≤ s.fget F.CMD_QPSEL_QP f then s.event F.CMD_STAT_CFG_ERR f
    else if s.qpState q ≠ qpDISABLED then s.cfgFrozen f q w
    else
      let s1 := s.rput .CMD_QP_CFG q (cfgWord w.toNat 0)
      if s1.enableRefused f q then s1.event F.CMD_STAT_CFG_ERR f
      else
        let x := s1.qp q
        let s2 := (s1.setQp q { Qp.empty with ring := x.ring, gen := x.gen + 1 }).hostWriteFor f
          (s1.get64 .CMD_QP_DB_LO .CMD_QP_DB_HI q + 8) (leBytes 4 0)
        (((s2.fput F.CMD_QP_CFG_EN q 1).rput .CMD_QP_STATE q 0).fput F.CMD_QP_STATE_STATE q qpACTIVE).fput
          F.CMD_QP_STATE_INFLIGHT q x.ring.length)
/-- QP_DISABLE: a write of CMD_QP_CFG with EN = 0. -/
def execQpDisable (f : Fin 257) (w : Word) (s : State) : Out :=
  .next (
    let q := s.selQp f
    if !s.funcLive f || s.fget F.BOOT_STAT_STAGE 0 < 2 || s.fget F.CMD_FQ_QCNT f ≤ s.fget F.CMD_QPSEL_QP f then s
    else if s.qpState q = qpDISABLED then s.rput .CMD_QP_CFG q (cfgWord w.toNat 0)
    else (s.cfgFrozen f q w).qpDrain q)
/-- Every queue pair of a range is DISABLED. -/
def State.rangeIdle (s : State) (b n : Nat) : Bool :=
  s.qpKeys.all (fun q => !(decide (b ≤ q ∧ q < b + n)) || s.qpState q == qpDISABLED)
/-- CMD_FQ_WRITE: a new range for function `f`, ignored while a queue pair of either range is enabled, or when it overlaps another
function's or runs past the last queue pair. -/
def execCmdFqWrite (f : Fin 257) (w : Word) (s : State) : Out :=
  .next (
    let v := w.toNat % 2 ^ 29
    let b := bits v 13 0
    let n := bits v 28 14
    let meets (g : Nat) : Bool :=
      let c := s.fget F.CMD_FQ_QBASE g
      decide (b < c + s.fget F.CMD_FQ_QCNT g ∧ c < b + n ∧ 0 < n ∧ 0 < s.fget F.CMD_FQ_QCNT g)
    if v = (s.rget .CMD_FQ f).toNat then s
    else if !s.rangeIdle (s.fget F.CMD_FQ_QBASE f) (s.fget F.CMD_FQ_QCNT f) || !s.rangeIdle b n then s.cmdFrozen 0 .CMD_FQ f
    else if ((List.range 257).filter (· ≠ f.val)).any meets || 16384 < b + n then s.event F.CMD_STAT_CFG_ERR 0
    else s.rput .CMD_FQ f (BitVec.ofNat 32 v))

end Sys2Proof.Machine
end

