-- ==== Sys2Proof/Machine/Tasks.lean ====
section
/-! DEFINITION. Dispatches, tasklet queues and work stealing: DISPATCH, STRICT_RELEASE, TASKLET_QUEUE_REFILL, TGET, TDONE, TBAR,
HALT, STEAL_REQUEST, STEAL_REPLY (R66 to R74, R251, R358 to R361, R462 to R464). -/

namespace Sys2Proof.Machine

/-! ### Mesh distance (R23, R70, R81) -/

def tileX (t : Nat) : Nat := t % 8
def tileY (t : Nat) : Nat := t / 8 % 4
def absDiff (a b : Nat) : Nat := (a - b) + (b - a)
/-- Router hops from `a` to `b` on the fixed route, each bridge crossing counted as 3 (R70). -/
def meshDist (a b : Nat) : Nat :=
  let dx := absDiff (tileX a) (tileX b)
  let up := 3 - tileY a + 3
  let down := tileY a + 3
  match (towerOf b + 4 - towerOf a) % 4 with
  | 0 => dx + absDiff (tileY a) (tileY b)
  | 1 => up + dx + tileY b
  | 3 => down + dx + (3 - tileY b)
  | _ => if tileX a < 4 then up + 6 + dx + tileY b else down + 6 + dx + (3 - tileY b)
/-- Insert by distance, keeping ascending index among equals. -/
def insertByDist (t u : Nat) : List Nat → List Nat
  | [] => [u]
  | v :: vs => if meshDist t u < meshDist t v then u :: v :: vs else v :: insertByDist t u vs
/-- The stops that a thief tries, in order (R70). -/
def State.victims (s : State) (t : Nat) (d : Disp) : List Nat :=
  ((groupTiles d.group).filter (fun u => u ≠ t && decide (meshDist t u ≤ s.fget F.TSK_CFG_STEAL_DMAX t))).foldl
    (fun l u => insertByDist t u l) []

/-! ### The tasklet table (R66, R462) -/

/-- What an entry of the table reads as: HOME tile (none when its word is uncorrectable), reserved fields clear, the entry. -/
structure Entry where
  home : Option Nat
  rsvOk : Bool
  ue : Bool
  task : Task
  deriving DecidableEq, Repr

/-- Read entry `k` of the table at `ttab` with requester class 4 (R462). -/
def State.entryRead (s : State) (ttab k dnum : Nat) : State × Entry :=
  let r := s.daRead (ttab + 32 * k) 8 4
  let q := r.1.daRead (ttab + 32 * k + 8) 24 4
  let b := r.2.1
  (q.1, { home := if r.2.2.isSome then none else some (leAt b 0 2 % 128)
          rsvOk := leAt b 0 2 / 128 == 0 && leAt b 2 2 / 4 == 0 && leAt b 4 4 == 0
          ue := r.2.2.isSome || q.2.2.isSome
          task := ⟨k, leAt b 0 2 % 128, bitOf (leAt b 2 2) 0, bitOf (leAt b 2 2) 1, q.2.1, dnum⟩ })

/-- R462: every entry is read and checked; the homes of all, or the first failing entry, its status and the tile named: its HOME, a free
value when the word that holds HOME is uncorrectable. -/
def State.tableCheck : Nat → State → Nat → Nat → List Nat → Nat → List Nat → State × (List Nat ⊕ (Nat × Nat × Nat))
  | 0, s, _, _, _, _, homes => (s, .inl homes.reverse)
  | n + 1, s, ttab, k, tiles, dnum, homes =>
    let r := s.entryRead ttab k dnum
    let e := r.2
    let bad := if e.home.any (fun h => !tiles.contains h) then some stBAD_HOME
      else if e.home.isSome && !e.rsvOk then some stBAD_DESC
      else if e.ue then some stDRAM_UE else none
    match bad, e.home with
    | some st, some h => (r.1, .inr (st, k, h))
    | some st, none => let f := r.1.free 7
      (f.2, .inr (st, k, f.1))
    | none, h => State.tableCheck n r.1 ttab (k + 1) tiles dnum (h.getD 0 :: homes)

/-- Load entries whose HOME is `t` until the queue holds 1,024 or the table ends; an entry that now reads uncorrectable stops the group,
and the completion names the HOME it had at the first check (R66, R462, R464). -/
def State.fillQueue : Nat → State → Nat → Nat → Disp → State
  | 0, s, _, _, _ => s
  | n + 1, s, t, k, d =>
    let p := s.stop t
    if 1024 ≤ p.queue.length || d.ntask ≤ p.scan then s
    else
      let r := s.entryRead d.ttab p.scan k
      let p1 := r.1.stop t
      let s1 := r.1.setStop t { p1 with scan := p.scan + 1 }
      if r.2.ue then (s1.reportAt t k stDRAM_UE (d.homes.getD p.scan 0) p.scan 0).stopGroup k
      else if r.2.home = some t then
        State.fillQueue n (s1.setStop t { s1.stop t with queue := p1.queue ++ [r.2.task] }) t k d
      else State.fillQueue n s1 t k d

/-- TASKLET_QUEUE_REFILL: the stop refills its queue from the table as entries leave (R66, R462). -/
def execTaskletQueueRefill (t : Fin 128) (s : State) : Out :=
  .next (s.settle (.taskletQueueRefill t) fun s => match s.tileDisp t with
    | none => s
    | some (k, d) => if d.running && !d.stopped then (s.fillQueue (d.ntask - (s.stop t).scan) t k d).dispCheck k else s)

/-! ### Starting a dispatch -/

/-- The base that a pair of registers holds. -/
def State.kvBase (s : State) (lo : Reg) (hi : Reg) (mask : Nat) : Nat :=
  2 ^ mask * ((s.rget lo 0).toNat / 2 ^ mask) + 2 ^ 32 * ((s.rget hi 0).toNat % 128)
/-- The sequence table entry of a context (R179). -/
def State.seqDa (s : State) (c : Nat) : Nat := s.kvBase .KVM_SEQ_LO .KVM_SEQ_HI 20 + 128 * c
/-- The context is in STEP. -/
def State.inStep (s : State) (c : Nat) : Bool :=
  let da := s.seqDa c
  leAt (s.wordLook (s.atomPlace da + da % 256)).1 0 1 % 16 == 2
/-- The charge of a dispatch: its CTX, the step set of its queue pair, or the overhead account (R317, R318). -/
def State.chargeOf (s : State) (q ctx : Nat) : Charge :=
  let l := (SMap.get s.kv.steps q []).filter (fun x => s.inStep x.1)
  if ctx ≠ 0 then .one ctx else if l = [] then .one 0 else ⟨l, true⟩

/-- The engine lies in the scope of a running partial reset (R382). -/
def State.inRstScope (s : State) (t : Nat) : Bool :=
  let tg := s.fget F.RST_STATE_TARGET 0
  s.fget F.RST_STATE_PHASE 0 != 0 &&
    (match s.fget F.RST_STATE_SCOPE 0 with
     | 0 => tg == t
     | 1 => tg == t / 8
     | 2 => tg == towerOf t
     | _ => false)
/-- No DISPATCH starts on the tile now: it runs another, a reset holds it, or its microcode is being replaced (R251, R382, R413). -/
def State.tileBusy (s : State) (t : Nat) : Bool :=
  (s.eng t).disp.isSome || s.inRstScope t || s.fw.withdrawn.contains t

/-- The verdict on a DISPATCH before its tasklet table is read (R240, R253, R349). -/
def State.dispVerdict (s : State) (q : Nat) (d : Descr) : Option Nat :=
  let f := (s.qpFunc q).getD 0
  let prog := d.u 32 8
  let nt := d.u 48 4
  match s.headVerdict q d (bodyZero d [(16, 37), (54, 6)]) false with
  | some e => some e
  | none =>
    if 3 ≤ d.u 52 1 || nt = 0 || 2 ^ 24 < nt then some stBAD_DESC
    else match s.daVerdict f prog 4, s.daVerdict f (d.u 40 8) (32 * nt) with
    | some e, _ => some e
    | none, some e => some e
    | none, none =>
      if s.conf && !s.sec.approved.contains prog then some stCONF_DENIED
      else if groupTiles (d.u 16 16) = [] || (groupTiles (d.u 16 16)).any s.disabled then some stBAD_GROUP
      else none

/-- An engine whose domain is off asks the tower's sequencer to switch it on (R293). -/
def State.wantOn (s : State) (t : Nat) : State :=
  let p := (s.eng t).power
  if (p = .lull2 ∨ p = .off) ∧ !s.pwr.domOn.contains t ∧ (SMap.find s.pwr.waitOn t).isNone then
    { s with pwr := { s.pwr with waitOn := SMap.put s.pwr.waitOn t s.clk.ns } }
  else s
/-- Prepare one tile: program, trap handler, an empty instruction cache, its own queue; the engine issues when the dispatch is
released and the engine is awake (R253, R310). -/
def State.tileStart (s : State) (t k : Nat) (d : Disp) (prog tvec : Nat) : State :=
  let s1 := (((s.rput .TSEQ_PBASE_LO t (BitVec.ofNat 32 prog)).rput .TSEQ_PBASE_HI t (BitVec.ofNat 32 (prog / 2 ^ 32))).rput
    .TSEQ_TVEC t (BitVec.ofNat 32 (tvec / 4 * 4)))
  let e := s1.eng t
  let s2 := s1.setEng t { e with disp := some k, pc := 0, inHandler := false, trapMxs := false, task := none, epoch := e.epoch + 1
                                 mark := e.arr.nextId, stall := none, noTask := false, steal := none, lines := []
                                 active := d.released, wake := e.wake || e.power != .on }
  let p := s2.stop t
  let s3 := (s2.wantOn t).useTile t
  (s3.setStop t { p with queue := [], scan := 0, tdc0 := s3.fget F.TSK_TDC_TDC t, stage := [] }).fillQueue d.ntask t k d

/-- Start the dispatch of a descriptor whose checks passed (R251, R359, R366, R462). -/
def State.dispStart (s : State) (q : Nat) (x : Descr) : State :=
  let g := x.u 16 16
  let tiles := groupTiles g
  let mode := x.u 52 1
  let c := s.tableCheck (x.u 48 4) (x.u 40 8) 0 tiles s.nextDisp []
  match c.2 with
  | .inr (st, idx, home) =>
    c.1.complete q x st (leBytes 4 0 ++ leBytes 3 idx ++ leBytes 1 home ++ leBytes 1 0)
  | .inl homes =>
    let s0 := c.1
    let k := s0.nextDisp
    let lock := s0.lck.live && s0.fget F.LCK_CFG_QP 0 == q
    let num := if lock then some (s0.fget F.LCK_NUM_NUM 0) else none
    let noSlot := mode == 2 && tiles.any (fun t => !s0.flag F.MESH_CFG_SLOT_EN t)
    let d : Disp := { qp := q, didx := x.idx, ctx := x.ctx, group := g, mode := mode, gid := x.u 54 2, ttab := x.u 40 8
                      ntask := x.u 48 4, commits := 0, stopped := false, status := none, statusAt := (0, 0), homes := homes, done := 0, running := true
                      released := mode != 2, cause := if noSlot then 32 else 0, fabTdc := 0, startMc := s0.clk.mc, num := num, charge := s0.chargeOf q x.ctx }
    let s1 := { (s0.setDisp k d) with nextDisp := k + 1 }
    let s2 := if lock then s1.fadd F.LCK_NUM_NUM 0 1 else s1
    let s3 := if mode = 2 then s2.fput F.DET_CAUSE_CAUSE (groupLeader g) d.cause else s2
    tiles.foldl (fun a t => a.tileStart t k d (x.u 32 8) (x.u 56 4)) s3

/-- DISPATCH: the descriptor waits, ends at once with a status, or starts on its group; one that names a fenced engine of a running reset
waits for the reset's end (R251, R382). -/
def execDispatch (qp idx : Nat) (s : State) : Out :=
  .next (s.settle (.dispatch qp idx) fun s => match s.descr qp idx with
    | none => s
    | some d =>
      if d.type ≠ 1 then s.withDescr qp idx [1] (fun s _ => s)
      else if !s.mayStart qp d then s
      else
        let d1 : Descr := { d with started := true, since := s.clk.ns }
        match s.dispVerdict qp d with
        | some e => if e = stBAD_GROUP && (groupTiles (d.u 16 16)).any s.inRstScope then s
          else (s.markStarted qp d).complete qp d1 e d.noResult
        | none =>
          let g := d.u 16 16
          let earlier := (s.cmd.waitDisp.takeWhile (· ≠ (qp, idx))).any (fun w =>
            ((s.descr w.1 w.2).map (fun x => decide (x.u 16 16 &&& g ≠ 0))).getD false)
          if earlier || (groupTiles g).any s.tileBusy then s else (s.markStarted qp d).dispStart qp d1)

/-- The fill level of a tile in 0.0625 A: the IPK of the group's phase profile when it is valid, `TPW_CFG.FILL_STRICT` otherwise
(R281). -/
def State.fillLevel (s : State) (t : Nat) : Nat :=
  let g := ((s.tileDisp t).map (·.2.group)).getD (2 ^ t)
  match s.pwr.resv.reverse.find? (fun r => r.begun && decide (r.group &&& g = g)) with
  | some r => if s.flag F.PWR_PROF_DATA_VALID r.prof then s.fget F.PWR_PROF_DATA_IPK r.prof else s.fget F.TPW_CFG_FILL_STRICT t
  | none => s.fget F.TPW_CFG_FILL_STRICT t

/-- The alignment of R360 in mesh cycles. -/
def State.alignMc (s : State) (ld : Nat) : Nat := Nat.lcm 5850 (s.fget F.MESH_CFG_FRAME ld + 1)

/-- STRICT_RELEASE: every tile at its fill level and the mesh count aligned, the leader releases the first issue on every tile in
this mesh cycle (R360). -/
def execStrictRelease (d : Nat) (s : State) : Out :=
  .next (match s.disp d with
    | none => s
    | some x =>
      let tiles := groupTiles x.group
      let ld := groupLeader x.group
      let ready := tiles.all (fun t => (s.eng t).power == .on && decide (s.fillLevel t ≤ s.fget F.TPW_I_I_NOW t))
      let aligned := !s.flag F.DET_CFG_ALIGN ld || s.clk.mc % s.alignMc ld == 0
      if !(x.running && x.strict && !x.released && ready && aligned) then s
      else
        let p0 := s.fget F.TPW_PSTATE_CUR ld
        let s1 := s.setDisp d { x with released := true, startMc := s.clk.mc }
        let s2 := if tiles.all (fun t => s.fget F.TPW_PSTATE_CUR t = p0) then s1 else s1.detCause d 6
        tiles.foldl (fun a t => let e := a.eng t
          if e.fenced || e.fence.isSome || bitOf x.done t then a else (a.setEng t { e with active := true }).useTile t) s2)

/-! ### TGET and steals -/

/-- TGET hands the tasklet to the program: arguments, index, a new epoch (R68, R69). -/
def State.deliverTask (s : State) (t : Nat) (w : Word) (x : Task) : State :=
  let e := s.eng t
  let a := (e.s (xA w)).toNat
  let took := match s.tileDisp t with
    | some (k, d) => if d.num.isSome then s.lck.took ++ [(k, x.idx, t)] else s.lck.took
    | none => s.lck.took
  let s0 := { s with lck := { s.lck with took := took } }
  let s1 := s0.setEng t { e with task := some x, epoch := e.epoch + 1, mark := e.arr.nextId, noTask := false, steal := none }
  let r := s1.spmWrite t a x.args
  if r.2 then r.1.trapHere t 0x04 else r.1.retireS t (xC w) x.idx

/-- TGET finds no tasklet: all ones (R68, R464). -/
def State.noTasklet (s : State) (t : Nat) (w : Word) : State :=
  let e := s.eng t
  let s1 := (s.setEng t { e with task := none, epoch := e.epoch + 1, mark := e.arr.nextId, noTask := true, steal := none }).retireS t (xC w)
    (2 ^ 64 - 1)
  match e.disp with
  | none => s1
  | some k => s1.fenceStuck k

/-- TGET (R68). -/
def execTget (t : Fin 128) (w : Word) (s : State) : Out :=
  .next (s.issueWith t w 0x34 fun s =>
    let e := s.eng t
    let a := (e.s (xA w)).toNat
    if xRsv w ≠ 0 then s.trapHere t 0x01
    else if 2 ^ 23 < a + 24 then s.trapHere t 0x05
    else match s.spmGrant t a 24 .prog with
    | .refused => (s.spmViol t).trapHere t 0x06
    | .wait => s.stallAt t w
    | .yes => match s.tileDisp t with
      | none => s.noTasklet t w
      | some (_, d) =>
        if e.steal.isSome then s.stallAt t w
        else if d.stopped || s.fw.withdrawn.contains t then s.noTasklet t w
        else
          let p := s.stop t
          match p.queue with
          | x :: rest =>
            if p.lastOp = some s.clk.mc then s.stallAt t w
            else (s.setStop t { p with queue := rest, lastOp := some s.clk.mc }).deliverTask t w x
          | [] =>
            if p.scan < d.ntask then s.stallAt t w
            else
              let vs := if s.flag F.TSK_CFG_STEAL_EN t && !d.strict then s.victims t d else []
              match vs with
              | [] => s.noTasklet t w
              | v :: rest => (s.setEng t { e with steal := some ⟨rest, some v, none, s.clk.mc⟩ }).stallAt t w)

/-- The TGET that waits at a tile, if it stalls at one. -/
def Eng.tgetStall (e : Eng) : Option Word :=
  match e.stall with
  | some w => if wOpc w = 0x34 && e.mayIssue && !e.pendMx then some w else none
  | none => none
/-- The mesh cycle in which the request of a thief reaches the stop it asked, without contention (R71, log entry 78). -/
def Steal.arrives (st : Steal) (thief : Nat) : Nat := st.sent + 3 * meshDist thief (st.asked.getD thief)
/-- The stop `victim` serves the request of `thief` now: one queue operation in a mesh cycle, the owner's waiting TGET first, and of requests
that arrive in one mesh cycle the lowest thief's (R67, R71). -/
def State.stealTurn (s : State) (thief victim : Nat) (st : Steal) : Bool :=
  let p := s.stop victim
  let e := s.eng victim
  p.lastOp ≠ some s.clk.mc && !(e.tgetStall.isSome && e.steal.isNone && !p.queue.isEmpty) &&
  (List.range thief).all (fun u => match (s.eng u).steal with
    | some x => !(x.asked == some victim && x.reply.isNone && x.arrives u == st.arrives thief)
    | none => true)
/-- STEAL_REQUEST: the asked stop returns its tail entry, unless it is pinned or the queue is empty (R71). -/
def execStealRequest (thief victim : Fin 128) (s : State) : Out :=
  .next (let e := s.eng thief
    match e.steal with
    | none => s
    | some st =>
      if st.asked ≠ some victim.val || st.reply.isSome || !s.stealTurn thief victim st then s
      else
        let p := s.stop victim
        let give := match p.queue.getLast? with
          | some x => if x.pinned then none else some x
          | none => none
        let s1 := s.setStop victim { p with lastOp := some s.clk.mc, queue := if give.isSome then p.queue.dropLast else p.queue }
        s1.setEng thief { e with steal := some { st with reply := some give } })

/-- STEAL_REPLY: an entry runs at the thief, waits in its queue when its engine can no longer take it, or is discarded when the
group has stopped; an empty reply moves the walk on, and TGET answers all ones after the last stop (R68, R71, R464). -/
def execStealReply (thief victim : Fin 128) (s : State) : Out :=
  .next (let e := s.eng thief
    match e.steal with
    | none => s
    | some st => match st.reply with
      | none => s
      | some give =>
        if st.asked ≠ some victim.val then s
        else
          let clear := s.setEng thief { e with steal := none }
          let live := (s.tileDisp thief).any (fun d => d.2.running && !d.2.stopped)
          let finish (a : State) : State := match e.tgetStall with
            | some w => a.noTasklet thief w
            | none => a
          match give with
          | none => match st.left with
            | v :: rest => if live && !e.fenced && e.fence.isNone then s.setEng thief { e with steal := some ⟨rest, some v, none, s.clk.mc⟩ } else finish clear
            | [] => finish clear
          | some x =>
            if !live then finish clear
            else
              let s1 := clear.fadd F.TSK_TDC_TDC thief 1
              match e.tgetStall with
              | some w => s1.deliverTask thief w x
              | none => let p := s1.stop thief
                s1.setStop thief { p with queue := p.queue ++ [x] })

/-! ### TDONE, TBAR, HALT -/

/-- Rows of stream channel `ch` that queued passes will still take (R65). -/
def Arr.rowsWanted (a : Arr) (ch : Nat) : Nat :=
  a.queue.foldl (fun n p => n + if p.op.src = 1 ∧ p.op.dch = ch then p.op.rows - p.row else 0) 0
/-- The first stream descriptor of a queue with rows that no MXS will take, enqueued in `epoch` or at any time (none). -/
def leftover (epoch : Nat) : List DmaRun → Nat → Option DmaRun
  | [], _ => none
  | r :: rs, want =>
    if r.d.mode = 1 then
      let rem := r.d.rows - r.taken
      if want < rem && r.epoch = epoch then some r else leftover epoch rs (want - rem)
    else leftover epoch rs want
/-- A channel has halted on a descriptor of the current epoch, restarted since or not (R60, R69). -/
def State.haltedNow (s : State) (t : Nat) : Bool := (s.eng t).haltEpoch == some (s.eng t).epoch
/-- R65 at TDONE and HALT: leftover stream rows end their descriptor in error; the result says that a channel had some. -/
def State.streamCheck (s : State) (t : Nat) : State × Bool :=
  (List.range 8).foldl (fun (x : State × Bool) ch =>
    let e := x.1.eng t
    let c := e.chan ch
    if x.1.chanHalted t ch then x
    else match leftover e.epoch c.queue (e.arr.rowsWanted ch) with
      | none => x
      | some r => ((x.1.setEng t (e.setChan ch { c with queue := c.queue.filter (· ≠ r) })).haltChan t ch r.epoch .leftover, true)) (s, false)
/-- Work of the tile that has not completed: since the current TGET, or all of it (R60, R69). -/
def State.workLeft (s : State) (t : Nat) (all : Bool) : Bool :=
  let e := s.eng t
  (List.range 8).any (fun ch => !s.chanHalted t ch && (e.chan ch).queue.any (fun r => all || r.epoch == e.epoch))
    || e.arr.passIds.any (fun i => all || decide (e.mark ≤ i))

/-- The shared checks of TDONE and HALT, then `k`. -/
def State.endCheck (s : State) (t : Nat) (w : Word) (all : Bool) (k : State → State) : State :=
  if s.haltedNow t then s.trapHere t 0x07
  else
    let q := s.streamCheck t
    if q.2 then q.1.trapHere t 0x09
    else if s.workLeft t all then s.stallAt t w
    else k s

/-- TDONE: commits the current tasklet once its work has completed (R69). -/
def execTdone (t : Fin 128) (w : Word) (s : State) : Out :=
  .next (s.issueWith t w 0x35 fun s =>
    if xRsv w ≠ 0 then s.trapHere t 0x01
    else if (s.eng t).task.isNone then s.advance t 1
    else s.endCheck t w false fun s =>
      let s1 := match s.tileDisp t with
        | some (k, d) => s.setDisp k { d with commits := d.commits + 1 }
        | none => s
      (s1.setEng t { s1.eng t with task := none }).advance t 1)

/-- TBAR: completes when every tasklet has committed, or the group has stopped and no tile of it holds one (R464). -/
def execTbar (t : Fin 128) (w : Word) (s : State) : Out :=
  .next (s.issueWith t w 0x36 fun s =>
    if xRsv w ≠ 0 then s.trapHere t 0x01
    else
      let done := match s.tileDisp t with
        | none => true
        | some (_, d) => d.commits == d.ntask || d.stopped && (groupTiles d.group).all (fun u => (s.eng u).task.isNone)
      if done then s.advance t 1 else s.stallAt t w)

/-- HALT: ends the tile's part of the dispatch after all of its work (R60, R464). -/
def execHalt (t : Fin 128) (w : Word) (s : State) : Out :=
  .next (s.issueWith t w 0x38 fun s =>
    if xRsv w ≠ 0 then s.trapHere t 0x01
    else s.endCheck t w true fun s => (s.advance t 1).partDone t)

end Sys2Proof.Machine
end

