-- ==== Sys2Proof/Machine/FenceMesh.lean ====
section
/-! DEFINITION. Fences (R76, R77), packets for an engine (R75), and the mesh (R78 to R82, R384). -/

namespace Sys2Proof.Machine

/-! ### Fences -/

/-- Steps 1 and 2 of R77: the sequencer stops, the array is discarded, channels issue nothing more; the staging buffer of a
wide-attention tile is invalidated (R207). -/
def State.fenceStart (s : State) (t : Nat) : State :=
  let e := s.eng t
  if e.fenced || e.fence.isSome || e.power = .fusedOff then s
  else
    let s1 := s.abortArray t
    let s2 := s1.setEng t { s1.eng t with fence := some s.clk.mc, stall := none }
    s2.setStop t { s2.stop t with stage := [] }
/-- ENGINE_FENCE: a write of 1 to `TSEQ_CTL.FENCE`. -/
def execEngineFence (t : Fin 128) (s : State) : Out := .next (s.fenceStart t)

/-- R76 for the tasklet that a fenced engine holds. -/
def State.orphan (s : State) (t : Nat) : State :=
  let e := s.eng t
  match e.task, s.tileDisp t with
  | some x, some (k, d) =>
    let s1 := s.setEng t { e with task := none }
    if x.rerun && !d.strict then
      let p := s1.stop t
      ((s1.setStop t { p with queue := p.queue ++ [x] }).fadd F.TSK_TDC_TDC t 1).fadd F.TSK_ORPHAN_ORPHAN t 1
    else (s1.report k stENGINE_FENCED t x.idx 0).stopGroup k
  | _, _ => s
/-- Step 4 of R77: unanswered requests are forgotten, R76 is applied, the engine is fenced and stands in the map of R4. -/
def State.fenceEnd (s : State) (t : Nat) : State :=
  let e := s.eng t
  let s1 := s.setEng t { e with fence := none, fenced := true, active := false, chans := [], stall := none, pendMx := false }
  let s2 := ((((s1.forget t).useClose t).disable t).event F.TSEQ_STAT_FENCED t).orphan t
  match e.disp with
  | none => s2
  | some k => (s2.fenceStuck k).dispCheck k
/-- Fence an engine at once, start and end (R381 and the coolant and power sequences). -/
def State.fenceNow (s : State) (t : Nat) : State :=
  let e := s.eng t
  if e.fenced || e.power = .fusedOff then s else (s.fenceStart t).fenceEnd t
/-- FENCE_COMPLETE: the last response has returned. -/
def execFenceComplete (t : Fin 128) (s : State) : Out :=
  .next (if (s.eng t).fence.isSome then s.fenceEnd t else s)
/-- FENCE_TIMEOUT: `MESH_CFG.TMO` mc after step 1. -/
def execFenceTimeout (t : Fin 128) (s : State) : Out :=
  .next (match (s.eng t).fence with
    | some m => if m + s.fget F.MESH_CFG_TMO t ≤ s.clk.mc then s.fenceEnd t else s
    | none => s)

/-! ### Packets addressed to an engine (R75) -/

/-- The sender's channel halts with the error of the completion that a refused or failed packet returns; the service core, sender 128,
gets a bus error (R75, R107, R118). -/
def State.senderError (s : State) (src ch : Nat) (err : ChanErr) : State :=
  if src = 128 then { s with outs := { s.outs with busErr := true, rbytes := [] } }
  else s.haltChan src ch ((((s.eng src).chan ch).queue.head?.map (·.epoch)).getD (s.eng src).epoch) err
/-- Deliver a packet: its data is written as class REMOTE or SVC, or the bytes that the service core asks for are read; the banks of `pass`
admit it whatever their owner (R106 to R109, R111). -/
def State.packetWrite (s : State) (t : Nat) (h : Held) (portA : List Nat) : State :=
  let svc := h.from_ = 128
  let s := if svc then { s with outs := { s.outs with busErr := false, collided := false, rbytes := [] } } else s
  if 2 ^ 23 < h.addr + h.data.length || svc && decide (2 ^ 23 < h.addr + h.read) then s.senderError h.from_ h.chan .address
  else if svc && decide (h.read ≠ 0) then
    let r := State.segsRead s t .svc (bankSegs 17 h.addr h.read) []
    match r.2.2 with
    | .error e => r.1.senderError h.from_ h.chan e
    | _ => { r.1 with outs := { r.1.outs with rbytes := r.2.1 } }
  else
    let r := State.segsWrite h.granted (bankSegs 17 h.addr h.data.length) s t (if svc then .svc else .remote h.from_ h.chan) h.data portA
    match r.2 with
    | .error e => r.1.senderError h.from_ h.chan e
    | _ => r.1
/-- The bytes of the scratchpad that a packet asks for. -/
def Held.len (h : Held) : Nat := max h.data.length (if h.from_ = 128 then h.read else 0)
/-- ENGINE_PACKET: from another tile's channel, or the service core (sender 128): delivered, held for a clock-gated engine, or refused, by
engine state. A packet for a wiping bank waits (R75, R113). -/
def execEnginePacket (t : Fin 128) (src : Fin 129) (ch : Fin 8) (addr : Nat) (cargo : Cargo) (portA : List Nat) (s : State) : Out :=
  .next (let h : Held := ⟨src, ch, addr, cargo.read, cargo.data, []⟩
    match s.admission t with
    | .refuse => s.senderError src ch (s.refusal t)
    | .hold =>
      let p := s.stop t
      if 16 ≤ p.ingress.length then s
      else (s.setStop t { p with ingress := p.ingress ++ [h] }).setEng t { s.eng t with wake := true }
    | .deliver => if s.wipeWait t addr h.len then s else s.packetWrite t h portA)
/-- The held packets of a woken engine are delivered in order, up to one whose bank is wiping. -/
def State.ingressGo (portA : List Nat) : List Held → State → Nat → State
  | [], s, _ => s
  | h :: rest, s, t =>
    if s.admission t ≠ .deliver || s.wipeWait t h.addr h.len then s
    else
      let s1 := s.setStop t { s.stop t with ingress := rest }
      State.ingressGo portA rest (s1.packetWrite t h portA) t
def State.ingressDrain (s : State) (t : Nat) (portA : List Nat) : State := State.ingressGo portA (s.stop t).ingress s t

/-! ### Routes -/

/-- The tower being reset, if one is (R384). -/
def State.towerInReset (s : State) : Option Nat :=
  if s.fget F.RST_STATE_PHASE 0 ≠ 0 ∧ s.fget F.RST_STATE_SCOPE 0 = 2 then some (s.fget F.RST_STATE_TARGET 0 % 4) else none
/-- The ring direction between opposite towers that column fixes (R81). -/
def fixedVia (src : Nat) : Nat := if tileX src < 4 then 1 else 3
/-- Output port and next stop on the way from `a` to `dst`: 0 N, 1 S, 2 E, 3 W, 4 bridge (R78, R80). -/
def meshStep (a dst via : Nat) : Nat × Nat :=
  let diff := (towerOf dst + 4 - towerOf a) % 4
  let dir := if diff = 2 then via else diff
  if diff = 0 then
    if tileX a < tileX dst then (2, a + 1)
    else if tileX dst < tileX a then (3, a - 1)
    else if tileY a < tileY dst then (1, a + 8)
    else (0, a - 8)
  else if dir = 1 then
    if tileY a < 3 then (1, a + 8) else (4, 32 * ((towerOf a + 1) % 4) + tileX a)
  else
    if 0 < tileY a then (0, a - 8) else (4, 32 * ((towerOf a + 3) % 4) + 24 + tileX a)
/-- PORTS of a stop's slot (R80). -/
def State.slotPorts (s : State) (t n : Nat) : Nat :=
  bits (s.aget .MESH_SLOT (64 * t + n / 4)).toNat (8 * (n % 4) + 4) (8 * (n % 4))
/-- The slot of this mesh cycle reserves an output port of a stop for strict packets (R80). -/
def State.slotHeld (s : State) (t port : Nat) : Bool := bitOf (s.slotPorts t (s.clk.mc % (s.fget F.MESH_CFG_FRAME t + 1))) port
/-- Buffer depth per input in flits (R78). -/
def vcDepth : Nat → Nat
  | 0 => 4 | 1 => 8 | 2 => 8 | _ => 36

/-- The stop of columns 3 and 4 at which lane group `k` of the express lanes of tower `w` ends (R17). -/
def laneStop (w k : Nat) : Nat := 32 * w + 8 * (k / 2) + 3 + k % 2
/-- The stop at which a packet from or to endpoint `e` enters or leaves the mesh: a tile's own, or the end of the lanes of a base die. -/
def meshEnd (e lane : Nat) : Nat := if e < 128 then e else laneStop (e - 128) lane

/-- MESH_PACKET_INJECT: the stop picks the route and, in scheduled-slot mode, the slot. `src` and `dst` from 128 on are base dies, whose
packets pass the express lanes at `way.lane` (R17). An adaptive choice holds for every packet of message `way.msg` (R81). -/
def execMeshPacketInject (src dst : Fin 132) (vc : Fin 4) (flits : Nat) (strict : Bool) (way : Way) (s : State) : Out :=
  .next (
    let t := meshEnd src way.lane
    let u := meshEnd dst way.lane
    let p := s.stop t
    let opp := (towerOf u + 4 - towerOf t) % 4 == 2
    let adapt := opp && !strict && s.flag F.MESH_CFG_OPP_ADAPT t
    let known := SMap.find p.routes way.msg
    let want := if adapt then known.getD (if way.downFree then 3 else 1) else fixedVia t
    let shut := s.towerInReset
    let turned := opp && shut == some ((towerOf t + want) % 4)
    let via := if turned then 4 - want else want
    let port := (meshStep t u via).1
    let slots := s.flag F.MESH_CFG_SLOT_EN t
    let mine := s.slotHeld t port
    if (shut == some (towerOf u) && towerOf u ≠ towerOf t) then s
    else if vc.val = 0 && decide (src.val < 128) && p.lastVc0.any (fun m => decide (s.clk.mc < m + 4)) then s
    else if slots && strict && !mine then s
    else if slots && strict && SMap.find p.portUse port == some s.clk.mc then (s.event F.MESH_STAT_SLOT_VIOL t).strictEvent t 0
    else
      let s1 := if adapt && known.isNone then s.fadd F.TSK_TDC_TDC t 1 else s
      let s2 := if strict && turned then s1.fadd F.TSK_TDC_TDC t 1 else s1
      let p2 := s2.stop t
      let s3 := s2.setStop t { p2 with
        lastVc0 := if vc.val = 0 && decide (src.val < 128) then some s.clk.mc else p2.lastVc0
        routes := if !adapt then p2.routes else if way.last then SMap.del p2.routes way.msg else SMap.put p2.routes way.msg want
        portUse := if slots && strict then SMap.put p2.portUse port s.clk.mc else p2.portUse }
      if t = u then s3
      else
        let n := min flits (vcDepth vc)
        { s3 with packets := s3.packets ++ [⟨vc, src, dst, t, u, strict, via, s.clk.mc, flits, flits - n, 0,
            [⟨t, if src.val < 128 then 5 else 6, 0, List.replicate n s.clk.mc, false⟩]⟩] })

/-! ### Flits (R78 to R82) -/

/-- Output port and next stop of the flits of packet `p` in a buffer. -/
def Packet.step (p : Packet) (g : Seg) : Nat × Nat := meshStep g.at_ p.stop_ p.via
/-- The mesh cycle from which the oldest flit of a buffer may stand in the next one: 3 mc for a hop, 6 for a bridge (R78, R80). -/
def Packet.ready (p : Packet) (g : Seg) : Option Nat := g.arr.head?.map (fun m => m + (if (p.step g).1 = 4 then 6 else 3))
/-- The buffer class after the hop: crossing BR3 in either direction changes it. -/
def Packet.nextCls (p : Packet) (g : Seg) : Nat :=
  let n := (p.step g).2
  if (p.step g).1 = 4 && (towerOf g.at_ = 3 && towerOf n = 0 || towerOf g.at_ = 0 && towerOf n = 3) then 1 - g.cls else g.cls
/-- The input port at which a flit that left through an output port arrives. -/
def inputOf : Nat → Nat
  | 0 => 1 | 1 => 0 | 2 => 3 | 3 => 2 | n => n
/-- Flits in a buffer. -/
def State.bufUsed (s : State) (at_ inp vc cls : Nat) : Nat :=
  (s.packets.map (fun q => if q.vc = vc then
    ((q.segs.filter (fun g => g.at_ = at_ && g.inp = inp && g.cls = cls)).map (·.arr.length)).sum else 0)).sum
/-- The oldest flit of buffer `i` of packet `k` can move now: it has arrived, it is first in its buffer (R82), no other packet holds its
virtual channel of the output port, the next buffer has room, and the slot is not reserved for strict packets (R80). -/
def State.flitCan (s : State) (k i : Nat) : Bool :=
  match s.packets[k]? with
  | none => false
  | some p => match p.segs[i]? with
    | none => false
    | some g =>
      let st := p.step g
      let others := (s.packets.zipIdx).filter (fun q => q.2 ≠ k && q.1.vc = p.vc)
      (p.ready g).any (fun m => decide (m ≤ s.clk.mc)) &&
      others.all (fun q => q.1.segs.all (fun h =>
        !(h.at_ = g.at_ && h.inp = g.inp && h.cls = g.cls && (match h.arr.head?, g.arr.head? with
            | some a, some b => decide (a < b) || (a == b && decide (q.2 < k))
            | _, _ => false)) &&
        !(h.at_ = g.at_ && h.begun && (q.1.step h).1 = st.1 && q.1.nextCls h = p.nextCls g))) &&
      (st.2 = p.stop_ || decide (s.bufUsed st.2 (inputOf st.1) p.vc (p.nextCls g) < vcDepth p.vc)) &&
      (p.strict || !(s.flag F.MESH_CFG_SLOT_EN g.at_ && s.slotHeld g.at_ st.1))
/-- The output port grants that flit over the others that can move: one flit in each mesh cycle, a strict packet's first, then a virtual
channel that has waited STARVE mc, then the lowest (R78, R80). -/
def State.flitGrant (s : State) (k i : Nat) : Bool :=
  match s.packets[k]? with
  | none => false
  | some p => match p.segs[i]? with
    | none => false
    | some g =>
      let port := (p.step g).1
      let rivals := (s.packets.zipIdx).flatMap (fun q => (q.1.segs.zipIdx).filterMap (fun h =>
        if !(q.2 == k && h.2 == i) && h.1.at_ = g.at_ && (q.1.step h.1).1 = port && s.flitCan q.2 h.2 then some (q.1, h.1) else none))
      let starved (q : Packet) (h : Seg) : Bool := (q.ready h).any (fun m => decide (m + s.fget F.MESH_CFG_STARVE g.at_ ≤ s.clk.mc))
      let rank (q : Packet) (h : Seg) : Nat := if q.strict && s.flag F.MESH_CFG_SLOT_EN g.at_ then 0 else (if starved q h then 1 else 5) + q.vc
      s.flitCan k i && SMap.find (s.stop g.at_).portUse port ≠ some s.clk.mc &&
        rivals.all (fun r => decide (rank p g ≤ rank r.1 r.2))
/-- The packet after the oldest flit of buffer `i` has moved at mesh cycle `mc`. -/
def Packet.moved (p : Packet) (i mc : Nat) : Packet :=
  match p.segs[i]? with
  | none => p
  | some g =>
    let st := p.step g
    let source := i + 1 == p.segs.length && decide (0 < p.rest)
    let g1 : Seg := { g with arr := g.arr.drop 1 ++ (if source then [mc] else []), begun := true }
    let segs1 := p.segs.set i g1
    let segs2 := if st.2 = p.stop_ then segs1
      else match i with
        | 0 => (⟨st.2, inputOf st.1, p.nextCls g, [mc], false⟩ : Seg) :: segs1
        | j + 1 => segs1.modify j (fun h => { h with arr := h.arr ++ [mc] })
    let rest := if source then p.rest - 1 else p.rest
    { p with rest := rest, out := if st.2 = p.stop_ then p.out + 1 else p.out
             segs := if rest = 0 && (segs2.getLast?.map (·.arr)) == some [] then segs2.dropLast else segs2 }

/-- MESH_PACKET_HOP: the oldest flit of a packet in one of its buffers moves one hop or across a bridge, under priority and credits; at the
packet's last stop it leaves the mesh, and with the last flit the packet is delivered and a VC0 latency is recorded. -/
def execMeshPacketHop (k : FlitAt) (s : State) : Out :=
  .next (match s.packets[k.packet]? with
    | none => s
    | some p => match p.segs[k.buf]? with
      | none => s
      | some g =>
        if !s.flitGrant k.packet k.buf then s
        else
          let a := s.stop g.at_
          let s1 := s.setStop g.at_ { a with portUse := SMap.put a.portUse (p.step g).1 s.clk.mc }
          let q := p.moved k.buf s.clk.mc
          if q.out < p.flits then { s1 with packets := s1.packets.set k.packet q }
          else
            let s2 := { s1 with packets := s1.packets.eraseIdx k.packet }
            let lat := min (s.clk.mc - p.born) 65535
            if p.vc = 0 && s.fget F.MESH_LAT_MAX_LAT_MAX p.stop_ < lat then s2.fput F.MESH_LAT_MAX_LAT_MAX p.stop_ lat else s2)

/-- MESH_LINK_ERROR (R388). -/
def execMeshLinkError (t : Fin 128) (_dir : Fin 5) (s : State) : Out :=
  .next ((s.event F.MESH_STAT_LINK_ERR t).raise 0x15 t 0 0)

end Sys2Proof.Machine
end

