-- ==== Sys2Proof/Machine/Crypto.lean ====
section
/-! DEFINITION. The algorithms that the spec names and that their standards fix on bytes: SipHash-2-4 (R190), SHA3-256 and KMAC256 (R339),
AES-256-GCM (R198, R234, R339, R352). -/

namespace Sys2Proof.Machine

/-- Whole blocks of `n` bytes of a message, and what is left. -/
def blocksOf : Nat → Nat → List Byte → List (List Byte)
  | 0, _, _ => []
  | k + 1, n, m => if m = [] then [] else m.take n :: blocksOf k n (m.drop n)

/-! ### SipHash-2-4 -/

/-- One SipRound on (v0, v1, v2, v3). -/
def sipRound (v : DWord × DWord × DWord × DWord) : DWord × DWord × DWord × DWord :=
  let (v0, v1, v2, v3) := v
  let a0 := v0 + v1
  let a1 := v1.rotateLeft 13 ^^^ a0
  let b2 := v2 + v3
  let b3 := v3.rotateLeft 16 ^^^ b2
  let c0 := a0.rotateLeft 32 + b3
  let d2 := b2 + a1
  (c0, a1.rotateLeft 17 ^^^ d2, d2.rotateLeft 32, b3.rotateLeft 21 ^^^ c0)
/-- The 64-bit words of a message: little-endian, the last one with the length in its top byte. -/
def sipWords (m : List Byte) : List DWord :=
  ((List.range (m.length / 8)).map (fun i => BitVec.ofNat 64 (leAt m (8 * i) 8)))
    ++ [BitVec.ofNat 64 (leNat (m.drop (m.length / 8 * 8)) + 2 ^ 56 * (m.length % 256))]
/-- SipHash-2-4 of a message under a 16-byte key. -/
def siphash (key m : List Byte) : DWord :=
  let k0 := BitVec.ofNat 64 (leAt key 0 8)
  let k1 := BitVec.ofNat 64 (leAt key 8 8)
  let v := (sipWords m).foldl (fun (v : DWord × DWord × DWord × DWord) w =>
      let r := sipRound (sipRound (v.1, v.2.1, v.2.2.1, v.2.2.2 ^^^ w))
      (r.1 ^^^ w, r.2.1, r.2.2.1, r.2.2.2))
    (k0 ^^^ 0x736f6d6570736575, k1 ^^^ 0x646f72616e646f6d, k0 ^^^ 0x6c7967656e657261, k1 ^^^ 0x7465646279746573)
  let r := sipRound (sipRound (sipRound (sipRound (v.1, v.2.1, v.2.2.1 ^^^ 0xff, v.2.2.2))))
  r.1 ^^^ r.2.1 ^^^ r.2.2.1 ^^^ r.2.2.2

/-! ### Keccak -/

/-- Rotation of lane (x, y), 5·y + x. -/
def keccakRot : List Nat := [0, 1, 62, 28, 27, 36, 44, 6, 55, 20, 3, 10, 43, 25, 39, 41, 45, 15, 21, 8, 18, 2, 61, 56, 14]
/-- Round constants: bit 2^j − 1 of constant i is bit j + 7·i of the sequence of the linear feedback register. -/
def keccakLfsr : Nat → Nat
  | 0 => 1
  | n + 1 => let r := 2 * keccakLfsr n
    if 256 ≤ r then (r - 256) ^^^ 0x71 else r
def keccakRc (i : Nat) : DWord :=
  BitVec.ofNat 64 (((List.range 7).map (fun j => if bitOf (keccakLfsr (j + 7 * i)) 0 then 2 ^ (2 ^ j - 1) else 0)).sum)
/-- One round of Keccak-f[1600] on 25 lanes. -/
def keccakRound (a : List DWord) (i : Nat) : List DWord :=
  let at_ (l : List DWord) (k : Nat) : DWord := l.getD k 0
  let c := (List.range 5).map (fun x => at_ a x ^^^ at_ a (x + 5) ^^^ at_ a (x + 10) ^^^ at_ a (x + 15) ^^^ at_ a (x + 20))
  let d := (List.range 5).map (fun x => at_ c ((x + 4) % 5) ^^^ (at_ c ((x + 1) % 5)).rotateLeft 1)
  let t := (List.range 25).map (fun k => (at_ a k ^^^ at_ d (k % 5)).rotateLeft (keccakRot.getD k 0))
  -- lane (x, y) of the next array comes from lane ((x + 3·y) mod 5, x)
  let b := (List.range 25).map (fun k => at_ t (5 * (k % 5) + (k % 5 + 3 * (k / 5)) % 5))
  let e := (List.range 25).map (fun k => at_ b k ^^^ (~~~ at_ b (k / 5 * 5 + (k + 1) % 5) &&& at_ b (k / 5 * 5 + (k + 2) % 5)))
  (at_ e 0 ^^^ keccakRc i) :: e.drop 1
def keccakF (a : List DWord) : List DWord := (List.range 24).foldl keccakRound a
/-- The sponge of rate 136 bytes with a domain suffix: the first `n` bytes, n ≤ 136 for one block. -/
def keccakSponge (m : List Byte) (suffix : Byte) (n : Nat) : List Byte :=
  let p := m ++ [suffix]
  let q := padTo ((p.length + 135) / 136 * 136) p
  let z := q.take (q.length - 1) ++ [(q.getLast?.getD 0) ||| 0x80]
  let absorbed := (blocksOf (z.length / 136) 136 z).foldl (fun a b =>
    keccakF ((a.zipIdx).map (fun x => if x.2 < 17 then x.1 ^^^ BitVec.ofNat 64 (leAt b (8 * x.2) 8) else x.1))) (List.replicate 25 0)
  let out (a : List DWord) : List Byte := (a.take 17).flatMap (fun w => leBytes 8 w.toNat)
  (((List.range ((n + 135) / 136)).foldl (fun (x : List Byte × List DWord) _ => (x.1 ++ out x.2, keccakF x.2)) ([], absorbed)).1).take n
/-- SHA3-256. -/
def sha3 (m : List Byte) : List Byte := keccakSponge m 0x06 32
/-- Big-endian bytes of a number, at least one. -/
def beMin (v : Nat) : List Byte := (leBytes (if v < 2 ^ 8 then 1 else if v < 2 ^ 16 then 2 else if v < 2 ^ 24 then 3 else 8) v).reverse
def leftEncode (v : Nat) : List Byte := leBytes 1 (beMin v).length ++ beMin v
def rightEncode (v : Nat) : List Byte := beMin v ++ leBytes 1 (beMin v).length
def encodeString (s : List Byte) : List Byte := leftEncode (8 * s.length) ++ s
def bytepad (m : List Byte) : List Byte := let z := leftEncode 136 ++ m
  padTo ((z.length + 135) / 136 * 136) z
/-- KMAC256 with a key, a message, an output of `n` bytes and no customization string. -/
def kmac (key m : List Byte) (n : Nat) : List Byte :=
  keccakSponge (bytepad (encodeString (ascii "KMAC") ++ encodeString []) ++ bytepad (encodeString key) ++ m ++ rightEncode (8 * n)) 0x04 n

/-! ### AES-256 -/

/-- Product in GF(2^8) modulo x^8 + x^4 + x^3 + x + 1. -/
def gfMul (a b : Nat) : Nat :=
  ((List.range 8).foldl (fun (x : Nat × Nat) i =>
    (if bitOf b i then x.1 ^^^ x.2 else x.1, if 128 ≤ x.2 then (2 * x.2 - 256) ^^^ 0x1B else 2 * x.2)) (0, a)).1
/-- The inverse, a^254; 0 for 0. -/
def gfInv (a : Nat) : Nat :=
  let sq (x : Nat) := gfMul x x
  let a2 := sq a
  let a3 := gfMul a2 a
  let a12 := sq (sq a3)
  let a15 := gfMul a12 a3
  let a240 := sq (sq (sq (sq a15)))
  gfMul (gfMul a240 a12) a2
/-- The S-box. -/
def aesSub (a : Byte) : Byte :=
  let x := gfInv a.toNat
  let r (n : Nat) := (x * 2 ^ n) % 256 ||| x / 2 ^ (8 - n)
  BitVec.ofNat 8 (x ^^^ r 1 ^^^ r 2 ^^^ r 3 ^^^ r 4 ^^^ 0x63)
def xorBytes (a b : List Byte) : List Byte := List.zipWith (· ^^^ ·) a b
/-- The 60 words of the key schedule, latest first. -/
def aesWords (key : List Byte) : Nat → List (List Byte)
  | 0 => ((List.range 8).map (fun i => (key.drop (4 * i)).take 4)).reverse
  | n + 1 =>
    let l := aesWords key n
    let i := n + 8
    let t := l.headD []
    let u := if i % 8 = 0 then
        let s := (t.drop 1 ++ t.take 1).map aesSub
        xorBytes s [BitVec.ofNat 8 ((List.range (i / 8 - 1)).foldl (fun x _ => gfMul x 2) 1), 0, 0, 0]
      else if i % 8 = 4 then t.map aesSub else t
    xorBytes (l.getD 7 []) u :: l
/-- The 15 round keys. -/
def aesKeys (key : List Byte) : List (List Byte) :=
  let w := (aesWords key 52).reverse
  (List.range 15).map (fun r => ((w.drop (4 * r)).take 4).flatten)
def aesShift (s : List Byte) : List Byte := (List.range 16).map (fun k => s.getD ((k % 4) + 4 * ((k / 4 + k % 4) % 4)) 0)
def aesMix (s : List Byte) : List Byte :=
  (List.range 16).map (fun k =>
    let c (i : Nat) : Nat := (s.getD (k / 4 * 4 + (k + i) % 4) 0).toNat
    BitVec.ofNat 8 (gfMul (c 0) 2 ^^^ gfMul (c 1) 3 ^^^ c 2 ^^^ c 3))
/-- One block. -/
def aesBlock (ks : List (List Byte)) (b : List Byte) : List Byte :=
  let s := (List.range 13).foldl (fun x r => xorBytes (aesMix (aesShift (x.map aesSub))) (ks.getD (r + 1) [])) (xorBytes b (ks.headD []))
  xorBytes (aesShift (s.map aesSub)) (ks.getD 14 [])

/-! ### GCM -/

/-- A block as a number, its first byte highest. -/
def beNat (b : List Byte) : Nat := leNat b.reverse
/-- Product in GF(2^128), bit 0 of a block its highest. -/
def ghashMul (x y : Nat) : Nat :=
  ((List.range 128).foldl (fun (a : Nat × Nat) i =>
    (if bitOf x (127 - i) then a.1 ^^^ a.2 else a.1, if bitOf a.2 0 then (a.2 / 2) ^^^ (0xE1 * 2 ^ 120) else a.2 / 2)) (0, y)).1
/-- Blocks of 16 bytes, the last padded with zeros. -/
def gcmBlocks (m : List Byte) : List (List Byte) := (blocksOf (m.length / 16 + 1) 16 m).map (padTo 16)
/-- Counter mode from counter block `j`. -/
def gcmCtr (ks : List (List Byte)) (iv : List Byte) (m : List Byte) : List Byte :=
  ((blocksOf (m.length / 16 + 1) 16 m).zipIdx).flatMap (fun x => xorBytes x.1 (aesBlock ks (iv ++ beBytes 4 (x.2 + 2))))
/-- The tag of a ciphertext and its associated data. -/
def gcmTag (ks : List (List Byte)) (iv ct aad : List Byte) : List Byte :=
  let h := beNat (aesBlock ks (zeros 16))
  let l := beBytes 8 (8 * aad.length) ++ beBytes 8 (8 * ct.length)
  let y := (gcmBlocks aad ++ gcmBlocks ct ++ [l]).foldl (fun y b => ghashMul (y ^^^ beNat b) h) 0
  xorBytes (beBytes 16 y) (aesBlock ks (iv ++ beBytes 4 1))
/-- AES-256-GCM encryption with a 12-byte nonce: ciphertext followed by the 16-byte tag. -/
def gcmSeal (key iv pt aad : List Byte) : List Byte :=
  let ks := aesKeys key
  let ct := gcmCtr ks iv pt
  ct ++ gcmTag ks iv ct aad
/-- Decryption of ciphertext and tag; none when the tag fails. -/
def gcmUnseal (key iv sealed aad : List Byte) : Option (List Byte) :=
  let ks := aesKeys key
  let ct := sealed.take (sealed.length - 16)
  if 16 ≤ sealed.length && gcmTag ks iv ct aad == sealed.drop (sealed.length - 16) then some (gcmCtr ks iv ct) else none

end Sys2Proof.Machine
end

