-- ==== Sys2Proof/Machine/KvOps.lean ====
section
/-! DEFINITION. The KV manager's operations on the sequence table, page tables, page pool, prefix nodes and swap slots (R171 to
R199, R208). -/

namespace Sys2Proof.Machine

/-! ### Places of the tables -/

def State.metaDa (s : State) (pfn : Nat) : Nat := s.kvBase .KVM_META_LO .KVM_META_HI 20 + 8 * pfn
/-- The 8-byte word of the bitmap that holds swap slot `n` (R175). -/
def State.slotDa (s : State) (n : Nat) : Nat := 2 ^ 27 + n / 64 * 8 + s.kvBase .KVM_META_LO .KVM_META_HI 20
def State.placeDa (s : State) (i : Nat) : Nat := s.kvBase .KVM_PLACE_LO .KVM_PLACE_HI 12 + i
def State.nodeDa (s : State) (n : Nat) : Nat := s.kvBase .PFX_NODE_LO .PFX_NODE_HI 16 + 64 * n
/-- Replace `n` bytes at byte `i` of a record. -/
def putAt (b : List Byte) (i n v : Nat) : List Byte := b.take i ++ leBytes n v ++ b.drop (i + n)

/-! ### Reading and errors (R208) -/

/-- The word whose loss ends an operation: a sequence table entry, a root, middle page or leaf of a context, a page metadata
word; with the DA and length read. -/
inductive KvErr where
  | entry (c da n : Nat)
  | table (c da n : Nat)
  | page (pfn da n : Nat)
  deriving DecidableEq, Repr

/-- A read by the KV manager; an uncorrectable word sets `KVM_STAT.UE` and raises KVM_UE. -/
def State.kvRead (s : State) (da n : Nat) : State × Option (List Byte) :=
  let r := s.daRead da n 4
  match r.2.2 with
  | none => (r.1, some r.2.1)
  | some _ => ((r.1.event F.KVM_STAT_UE 0).raise 0x46 0 0 0, none)

/-- An operation under way: the state it has made so far, and the word whose loss ends it. -/
structure Job where
  st : State
  err : Option KvErr

def Job.map (j : Job) (f : State → State) : Job := if j.err.isSome then j else { j with st := f j.st }
def Job.read (j : Job) (da n : Nat) (e : KvErr) : Job × List Byte :=
  if j.err.isSome then (j, zeros n)
  else match j.st.kvRead da n with
    | (s, some b) => ({ j with st := s }, b)
    | (s, none) => (⟨s, some e⟩, zeros n)
def Job.write (j : Job) (da : Nat) (bs : List Byte) : Job := j.map (fun s => (s.daWrite da bs).1)

/-- The context becomes FAILED: bits [3:0] of its STATE (R187). -/
def State.failCtx (s : State) (c : Nat) : State :=
  match s.kvRead (s.seqDa c) 8 with
  | (s1, some b) => (s1.daWrite (s1.seqDa c) (putAt b 0 1 (16 * (leAt b 0 1 / 16) + 6))).1
  | (s1, none) => (s1.daWrite (s1.seqDa c) (putAt (zeros 8) 0 1 6)).1
/-- An uncorrectable sequence table entry: rewritten FAILED with every other field 0, its index recorded (R208). -/
def State.entryLost (s : State) (c : Nat) : State :=
  let s1 := ((s.daWrite (s.seqDa c) (putAt (zeros 128) 0 1 6)).1).rput .KVM_UE_CTX 0 (BitVec.ofNat 32 (c + 2 ^ 31))
  if s1.kv.ctxs.contains c then s1 else { s1 with kv := { s1.kv with ctxs := s1.kv.ctxs ++ [c] } }
/-- An uncorrectable metadata word: the page is quarantined with REF = 0 (R208). -/
def State.pageLost (s : State) (pfn : Nat) : State :=
  let t := pfn / 2 ^ 17
  let s1 := (s.daWrite (s.metaDa pfn) (leBytes 8 (5 * 2 ^ 21))).1
  { s1 with kv := { s1.kv with free := SMap.put s1.kv.free t ((SMap.get s1.kv.free t []).filter (· ≠ pfn))
                               zeroing := s1.kv.zeroing.filter (· ≠ pfn) } }

/-- What an operation ends with: its effects, or only those of the lost word, and the status it takes then. The lost word is read
before anything else of the operation (log entry 15). -/
def Job.finish (j : Job) (s0 : State) : State × Option Nat :=
  match j.err with
  | none => (j.st, none)
  | some (.entry c da n) => ((s0.kvRead da n).1.entryLost c, some stCTX_FAILED)
  | some (.table c da n) => ((s0.kvRead da n).1.failCtx c, some stCTX_FAILED)
  | some (.page p da n) => ((s0.kvRead da n).1.pageLost p, some stKV_UE)

/-! ### Sequence table entries (R179) -/

def eState (b : List Byte) : Nat := leAt b 0 1 % 16
def eFlags (b : List Byte) : Nat := leAt b 1 1
def ePrio (b : List Byte) : Nat := leAt b 2 1
def eL (b : List Byte) : Nat := leAt b 3 1 + 1
def eH (b : List Byte) : Nat := leAt b 4 1 + 1
def eD (b : List Byte) : Nat := leAt b 5 1 + 1
def eLH (b : List Byte) : Nat := eL b * eH b
def eNs (b : List Byte) : Nat := leAt b 6 2
def eLen (b : List Byte) : Nat := leAt b 8 4 % 2 ^ 20
def eW (b : List Byte) : Nat := leAt b 12 4 % 2 ^ 20
def eRoot (b : List Byte) : Nat := leAt b 16 8
def ePriv (b : List Byte) : Nat := leAt b 24 4
def eFunc (b : List Byte) : Nat := leAt b 32 4 % 512
def eGen (b : List Byte) : Nat := leAt b 36 4
def eLast (b : List Byte) : Nat := leAt b 40 8
def eStep (b : List Byte) : Nat := leAt b 48 4 % 2 ^ 16
def eSwaps (b : List Byte) : Nat := leAt b 48 4 / 2 ^ 16
def eSwpd (b : List Byte) : Nat := leAt b 52 4
def eChain (b : List Byte) : Nat := leAt b 64 8
def eShape (b : List Byte) : Nat := leAt b 3 3
/-- States of R187. -/
def cFREE : Nat := 0
def cOPEN : Nat := 1
def cSTEP : Nat := 2
def cSWAPOUT : Nat := 3
def cSWAPPED : Nat := 4
def cSWAPIN : Nat := 5
def cFAILED : Nat := 6
/-- PTEs that a context of this entry can hold: those of blocks up to LEN + STEP_N (R180). -/
def eSlots (b : List Byte) : Nat := cdiv (eLen b + eStep b) 32 * eLH b

def Job.entry (j : Job) (c : Nat) : Job × List Byte := j.read (j.st.seqDa c) 128 (.entry c (j.st.seqDa c) 128)
def Job.putEntry (j : Job) (c : Nat) (b : List Byte) : Job := j.write (j.st.seqDa c) b
def State.ctxCount (s : State) : Nat := 2 ^ s.fget F.KVM_SEQ_HI_CTX_LOG2 0

/-! ### The page pool (R174 to R177) -/

def State.freeList (s : State) (t : Nat) : List Nat := SMap.get s.kv.free t []
def State.freePages (s : State) : Nat := (s.kv.free.map (fun e => e.2.length)).foldl (· + ·) 0
/-- The slice that gives a KV page: the named one, else the others by mesh distance (R176). -/
def State.kvSlice (s : State) (t : Nat) : Nat :=
  let order := ((List.range 128).filter (· ≠ t)).foldl (fun l u => insertByDist t u l) []
  ((t :: order).find? (fun u => s.freeList u != [])).getD t
/-- The slice with the most free pages (R176). -/
def State.tableSlice (s : State) : Nat :=
  ((List.range 128).foldl (fun (a : Nat × Nat) t => let n := (s.freeList t).length; if a.2 < n then (t, n) else a) (0, 0)).1
/-- The slice that the placement table names for layer l and head h; a byte that reads uncorrectable names any (log entry 16). -/
def State.placeOf (s : State) (i : Nat) : State × Nat :=
  match s.kvRead (s.placeDa (i % 4096)) 1 with
  | (s1, some b) => (s1, leNat b % 128)
  | (s1, none) => let f := s1.free 7
    (f.2, f.1)

def metaState (w : Nat) : Nat := bits w 23 21
def metaRef (w : Nat) : Nat := bits w 20 0
def Job.pageWord (j : Job) (pfn : Nat) : Job × Nat :=
  let r := j.read (j.st.metaDa pfn) 8 (.page pfn (j.st.metaDa pfn) 8)
  (r.1, leNat r.2)
def Job.putPage (j : Job) (pfn w : Nat) : Job := j.write (j.st.metaDa pfn) (leBytes 8 w)
/-- Take the head of a slice's free list with REF = 1 and a state (R176). -/
def Job.pop (j : Job) (t st : Nat) : Job × Nat :=
  match j.st.freeList t with
  | [] => (j, 0)
  | p :: rest =>
    let r := j.pageWord p
    ((r.1.putPage p (setBits (setBits r.2 20 0 1) 23 21 st)).map
      (fun s => { s with kv := { s.kv with free := SMap.put s.kv.free t rest, confPages := s.kv.confPages.filter (· ≠ p) } }), p)
/-- A page joins the head of its free list (R177); NEXT of a list's last page is any (log entry 16). -/
def State.joinFree (s : State) (p : Nat) : State :=
  let t := p / 2 ^ 17
  let f := match s.freeList t with
    | [] => s.free 24
    | q :: _ => (q, s)
  let s1 := (f.2.daWrite (f.2.metaDa p) (leBytes 8 (2 ^ 24 * f.1))).1
  { s1 with kv := { s1.kv with free := SMap.put s1.kv.free t (p :: s1.freeList t) } }
/-- A page is freed, zeroed first where R177 says so. -/
def Job.freePage (j : Job) (p : Nat) : Job :=
  if j.st.flag F.KVM_CFG_ZERO_ALL 0 || j.st.kv.confPages.contains p then
    (j.putPage p 0).map (fun s => { s with kv := { s.kv with zeroing := s.kv.zeroing ++ [p] } })
  else j.map (fun s => s.joinFree p)
/-- Add 1 to a page's REF. -/
def Job.refUp (j : Job) (p : Nat) : Job :=
  let r := j.pageWord p
  r.1.putPage p (setBits r.2 20 0 (metaRef r.2 + 1))
/-- Lower a page's REF by 1 for a holder; at 0 it is freed. A quarantined page is skipped (R177, R208). `conf` is the CONF bit
of the context that drops it, none for a node. -/
def Job.refDown (j : Job) (p : Nat) (conf : Option Bool) : Job :=
  let r := j.pageWord p
  if metaState r.2 = 5 || metaRef r.2 = 0 then r.1
  else
    let j1 := match conf with
      | none => r.1
      | some c => r.1.map (fun s => { s with kv := { s.kv with
          confPages := if c then p :: s.kv.confPages.filter (· ≠ p) else s.kv.confPages.filter (· ≠ p) } })
    if metaRef r.2 = 1 then j1.freePage p else j1.putPage p (setBits r.2 20 0 (metaRef r.2 - 1))

/-! ### Page tables (R180) -/

def Job.ptr (j : Job) (c da : Nat) : Job × Nat :=
  let r := j.read da 8 (.table c da 8)
  (r.1, leNat r.2)
/-- The leaf that holds PTE `e`, 0 when there is none. -/
def Job.leafOf (j : Job) (c root e : Nat) : Job × Nat :=
  let m := j.ptr c (root + 8 * (e / 2 ^ 25))
  if m.2 = 0 then m else m.1.ptr c (m.2 + 8 * (e / 2 ^ 13 % 4096))
def Job.pte (j : Job) (c root e : Nat) : Job × Nat :=
  let l := j.leafOf c root e
  if l.2 = 0 then l
  else
    let da := l.2 + 4 * (e % 8192)
    let r := l.1.read da 4 (.table c da 4)
    (r.1, leNat r.2)
def pteValid (v : Nat) : Bool := bitOf v 24
def pteSwap (v : Nat) : Bool := bitOf v 25
def ptePfn (v : Nat) : Nat := v % 2 ^ 24
/-- A table page: taken from the fullest slice and written whole with zeros, so that its pointers read 0 (log entry 17). -/
def Job.newTable (j : Job) : Job × Nat :=
  let r := j.pop j.st.tableSlice 3
  (r.1.write (2 ^ 15 * r.2) (zeros 32768), 2 ^ 15 * r.2)
/-- Give PTE `e` its middle page and leaf. -/
def Job.ensure (j : Job) (c root e : Nat) : Job :=
  let mda := root + 8 * (e / 2 ^ 25)
  let m := j.ptr c mda
  let m' := if m.2 = 0 then (let n := m.1.newTable; (n.1.write mda (leBytes 8 n.2), n.2)) else m
  let lda := m'.2 + 8 * (e / 2 ^ 13 % 4096)
  let l := m'.1.ptr c lda
  if l.2 = 0 then (let n := l.1.newTable; n.1.write lda (leBytes 8 n.2)) else l.1
def Job.setPte (j : Job) (c root e v : Nat) : Job :=
  let l := (j.ensure c root e).leafOf c root e
  let da := l.2 + 4 * (e % 8192)
  let w := da - da % 8
  let r := l.1.read w 8 (.table c w 8)
  r.1.write w (putAt r.2 (da % 8) 4 v)
/-- Table pages that PTEs `es` of a context lack: leaves, and middle pages. -/
def Job.tablesNeeded (j : Job) (c root : Nat) (es : List Nat) : Job × Nat :=
  let leaves := (es.map (· / 2 ^ 13)).eraseDups
  let r := leaves.foldl (fun (a : Job × Nat × List Nat) k =>
    let m := a.1.ptr c (root + 8 * (k / 4096))
    if m.2 = 0 then (m.1, a.2.1 + 1, if a.2.2.contains (k / 4096) then a.2.2 else a.2.2 ++ [k / 4096])
    else
      let l := m.1.ptr c (m.2 + 8 * (k % 4096))
      (l.1, a.2.1 + b2n (l.2 = 0), a.2.2)) (j, 0, [])
  (r.1, r.2.1 + r.2.2.length)

/-! ### The fields that follow page sharing: PRIV, SHRD, SWPD, `KVM_FREE`, `KVM_CTXS` -/

/-- The stored value of 8 bytes, as the KV manager holds it, without an access. -/
def State.peek8 (s : State) (da : Nat) : Nat := leNat (s.wordLook (s.atomPlace da + da % 256)).1
def State.peekPte (s : State) (root e : Nat) : Nat :=
  let m := s.peek8 (root + 8 * (e / 2 ^ 25))
  if m = 0 then 0
  else
    let l := s.peek8 (m + 8 * (e / 2 ^ 13 % 4096))
    if l = 0 then 0 else s.peek8 (l + 4 * (e % 8192) / 8 * 8) / 2 ^ (32 * (e % 2)) % 2 ^ 32
/-- Set a word of the KV manager's tables, leaving one that is unchanged or reads uncorrectable. -/
def State.syncWord (s : State) (da v : Nat) : State :=
  let pl := s.atomPlace da + da % 256
  let w := s.wordLook pl
  if w.2 = .bad || leNat w.1 = v then s else s.putWord pl (leBytes 8 v)
def State.syncCtx (s : State) (c : Nat) : State :=
  let a := s.seqDa c
  let b := (List.range 16).flatMap (fun i => leBytes 8 (s.peek8 (a + 8 * i)))
  if eState b = cFREE || eState b = cFAILED then s
  else
    let ptes := (List.range (eSlots b)).map (s.peekPte (eRoot b))
    let held := ptes.filter pteValid
    let priv := (held.filter (fun v => metaRef (s.peek8 (s.metaDa (ptePfn v))) = 1)).length
    let swpd := (ptes.filter pteSwap).length
    (s.syncWord (a + 24) (priv + 2 ^ 32 * (held.length - priv))).syncWord (a + 48) (leAt b 48 4 + 2 ^ 32 * swpd)
/-- The end of an operation: counters and registers follow. -/
def State.kvSync (s : State) : State :=
  let s1 := s.kv.ctxs.foldl (fun a c => a.syncCtx c) s
  (s1.fput F.KVM_FREE_FREE 0 s1.freePages).fput F.KVM_CTXS_OPEN 0 s1.kv.ctxs.length

/-! ### Prefix nodes (R190 to R195) -/

/-- The 16-byte key of a namespace and session; no key exists after a tamper event, and any value stands for it then (R344,
R357, log entry 16). -/
def State.nsKey (s : State) (ns sid : Nat) : State × List Byte :=
  if s.sec.zeroed then (let f := s.free 128; (f.2, leBytes 16 f.1))
  else (s, (kmac (leBytes 32 s.sec.bs) (ascii "KGX-NS" ++ leBytes 2 ns ++ leBytes 4 sid) 32).take 16)
/-- The hash of a block after chain `h` (R190). -/
def blockHash (key : List Byte) (h : Nat) (toks : List Nat) : Nat :=
  (siphash key (leBytes 8 h ++ toks.flatMap (leBytes 4))).toNat
/-- Fold tokens into the chain: hashes of the blocks completed, then chain and tokens left over. -/
def foldTokens (key : List Byte) : List Nat → Nat → List Nat → List Nat → List Nat × Nat × List Nat
  | [], h, acc, out => (out, h, acc)
  | t :: ts, h, acc, out =>
    let acc' := acc ++ [t]
    if acc'.length = 32 then (let h' := blockHash key h acc'; foldTokens key ts h' [] (out ++ [h']))
    else foldTokens key ts h acc' out
/-- Little-endian 32-bit words of a byte list. -/
def words4 : Nat → List Byte → List Nat
  | 0, _ => []
  | n + 1, b => leAt b 0 4 :: words4 n (b.drop 4)

def State.bucketOf (s : State) (h : Nat) : Nat :=
  let l := s.fget F.PFX_CFG_NODE_LOG2 0
  16 * (bits h (l + 7) 12)
/-- Read node `n`; one that reads uncorrectable is rewritten EMPTY and counts as a miss (R208). -/
def State.nodeRead (s : State) (n : Nat) : State × List Byte :=
  match s.kvRead (s.nodeDa n) 64 with
  | (s1, some b) => (s1, b)
  | (s1, none) => ((s1.daWrite (s1.nodeDa n) (zeros 64)).1, zeros 64)
def nodeIs (b : List Byte) (h ns blk shape : Nat) : Bool :=
  leAt b 0 8 == h && leAt b 8 2 == ns && leAt b 12 4 == blk && leAt b 17 3 == shape && leAt b 16 1 != 0
/-- The directory takes an entry as the latest used of its 16 ways (R191). -/
def State.dirUse (s : State) (e : DirEntry) : State :=
  let k := e.hash % 4096
  { s with kv := { s.kv with dir := SMap.put s.kv.dir k ((e :: (SMap.get s.kv.dir k []).filter (· ≠ e)).take 16) } }
def State.dirDrop (s : State) (h n : Nat) : State :=
  let k := h % 4096
  { s with kv := { s.kv with dir := SMap.put s.kv.dir k ((SMap.get s.kv.dir k []).filter (fun e => e.node ≠ n)) } }
/-- Read a list of nodes. -/
def State.nodesRead (s : State) : List Nat → State × List (Nat × List Byte)
  | [] => (s, [])
  | n :: ns =>
    let r := s.nodeRead n
    let q := State.nodesRead r.1 ns
    (q.1, (n, r.2) :: q.2)
/-- The node of a block in any state: through the directory, else from its bucket. -/
def State.findNode (s : State) (h ns blk shape : Nat) : State × Option (Nat × List Byte) :=
  let hit := (SMap.get s.kv.dir (h % 4096) []).filter (fun e => e.hash == h && e.ns == ns && e.block == blk)
  let r := s.nodesRead (hit.map (·.node))
  match r.2.find? (fun e => nodeIs e.2 h ns blk shape) with
  | some e => (r.1, some e)
  | none =>
    let q := r.1.nodesRead ((List.range 16).map (r.1.bucketOf h + ·))
    (q.1, q.2.find? (fun e => nodeIs e.2 h ns blk shape))
def nodeReady (b : List Byte) : Bool := leAt b 16 1 == 2
/-- The row of a node: one PFN for each layer and head; none where its page reads uncorrectable. -/
def State.rowPfns (s : State) (b : List Byte) (lh : Nat) : State × Option (List Nat) :=
  match s.kvRead (2 ^ 15 * leAt b 28 4) (4 * lh) with
  | (s1, some r) => (s1, some (words4 lh r))
  | (s1, none) => (s1, none)
/-- Evict a node: its pages lose one holder, its row page is freed, it becomes EMPTY (R194). -/
def Job.evict (j : Job) (n : Nat) (b : List Byte) (lh : Nat) : Job :=
  let r := j.st.rowPfns b lh
  let j1 : Job := if j.err.isSome then j else { j with st := r.1 }
  let j2 := (r.2.getD []).foldl (fun a p => a.refDown p none) j1
  ((j2.refDown (leAt b 28 4) none).write (j2.st.nodeDa n) (zeros 64)).map
    (fun s => (s.fadd F.PFX_EVICT_EVICT 0 1).dirDrop (leAt b 0 8) n)

/-! ### Swap (R196 to R199) -/

/-- The bitmap word of slot `n` as its read gives it; one that reads uncorrectable holds any value from then on (log entry 16). -/
def State.slotTook (s : State) (n : Nat) (w : Option (List Byte)) : State × Nat :=
  match w with
  | some b => (s, leNat b)
  | none => let f := s.free 64; ((f.2.daWrite (f.2.slotDa n) (leBytes 8 f.1)).1, f.1)
def State.slotWord (s : State) (n : Nat) : State × Nat :=
  let r := s.kvRead (s.slotDa n) 8
  r.1.slotTook n r.2
/-- The lowest slot of word `k` that is free and below `n`. -/
def slotPick (w k n : Nat) : Option Nat := ((List.range 64).find? (fun i => !bitOf w i && decide (64 * k + i < n))).map (64 * k + ·)
/-- The lowest free swap slot below `KVM_SWAP_SLOTS`, from word `k` on. -/
def State.slotFind : Nat → State → Nat → State × Option Nat
  | 0, s, _ => (s, none)
  | fuel + 1, s, k =>
    let n := s.fget F.KVM_SWAP_SLOTS_SLOTS 0
    if n ≤ 64 * k then (s, none)
    else
      let r := s.slotWord (64 * k)
      if (slotPick r.2 k n).isSome then (r.1, slotPick r.2 k n) else State.slotFind fuel r.1 (k + 1)
def State.slotSet (s : State) (n : Nat) (v : Bool) : State :=
  let r := s.slotWord n
  (r.1.daWrite (r.1.slotDa n) (leBytes 8 (if v then setBit r.2 (n % 64) else clrBit r.2 (n % 64)))).1

/-- The key of (c, GEN); any value after a tamper event (R344, log entry 16). -/
def State.swapKey (s : State) (c gen : Nat) : State × List Byte :=
  if s.sec.zeroed then (let f := s.free 256; (f.2, leBytes 32 f.1))
  else (s, kmac (leBytes 32 s.sec.bs) (ascii "KGX-SWAP" ++ leBytes 4 c ++ leBytes 4 gen) 32)
/-- Header bytes 0 to 15 of a slot (R198). -/
def slotHead (c e gen swaps d : Nat) : List Byte := leBytes 4 c ++ leBytes 4 e ++ leBytes 4 gen ++ leBytes 2 swaps ++ leBytes 2 (d - 1)
/-- The IV of R198, most significant bit first. -/
def slotIv (c e gen swaps : Nat) : List Byte := beBytes 12 (2 ^ 28 * (2 ^ 20 * (2 ^ 16 * gen + swaps) + c) + e)
/-- Read the 128 × D bytes that a page gives to a slot: K then V vectors in position order. -/
def State.vectorsRead : Nat → State → Nat → Nat → State × Option (List Byte)
  | 0, s, _, _ => (s, some [])
  | k + 1, s, da, d =>
    let r := s.kvRead da (2 * d)
    match r.2 with
    | none => (r.1, none)
    | some b =>
      let q := State.vectorsRead k r.1 (da + 512) d
      (q.1, q.2.map (b ++ ·))
def State.vectorsWrite : Nat → State → Nat → Nat → List Byte → State
  | 0, s, _, _, _ => s
  | k + 1, s, da, d, bs => State.vectorsWrite k (s.daWrite da (bs.take (2 * d))).1 (da + 512) d (bs.drop (2 * d))
def State.slotAddr (s : State) (n : Nat) : Nat :=
  4096 * ((s.rget .KVM_SWAP_LO 0).toNat / 4096) + 2 ^ 32 * (s.rget .KVM_SWAP_HI 0).toNat + 32832 * n

def State.setOut (s : State) (c : Nat) (x : Option Swap) : State :=
  { s with kv := { s.kv with outs := match x with | some v => SMap.put s.kv.outs c v | none => SMap.del s.kv.outs c } }
def State.setIn (s : State) (c : Nat) (x : Option Swap) : State :=
  { s with kv := { s.kv with ins := match x with | some v => SMap.put s.kv.ins c v | none => SMap.del s.kv.ins c } }

/-- Rewrite STATE of an entry. -/
def Job.setState (j : Job) (c v : Nat) : Job :=
  let r := j.entry c
  r.1.putEntry c (putAt r.2 0 1 (16 * (leAt r.2 0 1 / 16) + v))
/-- Complete a KV manager descriptor. -/
def State.kvComplete (s : State) (qi : Nat × Nat) (st : Nat) (res : List Byte) : State :=
  match s.descr qi.1 qi.2 with
  | none => s
  | some d => s.complete qi.1 d st res

/-- RESULT of a swap descriptor: pages moved, and SWPD as the entry now holds it (R256). -/
def State.swapResult (s : State) (c moved : Nat) : List Byte := leBytes 4 moved ++ leBytes 4 (s.peek8 (s.seqDa c + 48) / 2 ^ 32)
/-- A swap-out is over: a context still in SWAPOUT enters SWAPPED, one that a lost word made FAILED stays so, and KV_SWAP_OUT completes
(R187, R197). -/
def State.outEnds (s : State) (c : Nat) (x : Swap) (st : Nat) : State :=
  let r := (Job.mk s none).entry c
  let s1 := if r.1.err.isNone && eState r.2 = cSWAPOUT then ((r.1.setState c cSWAPPED).finish s).1 else (r.1.finish s).1
  let s2 := (s1.setOut c none).kvSync
  match x.desc with
  | none => s2
  | some qi => s2.kvComplete qi st (s2.swapResult c x.moved)
/-- Go on with a swap-out: the next page's slot is taken, its contents encrypted and written; or, with nothing left or no slot
free, it ends. A page whose source reads uncorrectable stays (R197, R208). While swap transfers are held the slot is taken and
its write waits (R271). -/
def State.outNext : Nat → State → Nat → State
  | 0, s, _ => s
  | fuel + 1, s, c =>
    match SMap.find s.kv.outs c with
    | none => s
    | some x =>
      match x.todo with
      | [] => s.outEnds c x x.st
      | (e, p) :: rest =>
        let f := match x.slot with
          | some n => (s, some n)
          | none => s.slotFind 262145 0
        match f.2 with
        | none => f.1.outEnds c x x.st
        | some n =>
          let r := (Job.mk f.1 none).entry c
          let b := r.2
          if r.1.err.isSome then ((r.1.finish f.1).1.slotSet n false).outEnds c x stCTX_FAILED
          else
            let k := r.1.st.vectorsRead 32 (2 ^ 15 * p) (eD b)
            let v := k.1.vectorsRead 32 (2 ^ 15 * p + 16384) (eD b)
            match k.2, v.2 with
            | some kb, some vb =>
              let key := v.1.swapKey c (eGen b)
              let h := slotHead c e (eGen b) (eSwaps b) (eD b)
              let sealed := gcmSeal key.2 (slotIv c e (eGen b) (eSwaps b)) (kb ++ vb) h
              let s1 := (key.1.slotSet n true).setOut c (some { x with slot := some n })
              if s1.kv.held || !s1.linkUp then s1
              else s1.hostWrite (s1.slotAddr n) (h ++ sealed.drop (sealed.length - 16) ++ zeros 32 ++ sealed.take (sealed.length - 16))
            | _, _ => State.outNext fuel ((v.1.slotSet n false).setOut c (some { x with todo := rest, slot := none })) c
/-- `KVM_SWAP` has been written after a loss of the link: held transfers go on, each slot that was being written is written again (R271). -/
def State.swapResume (s : State) : State :=
  if s.kv.held then
    (s.kv.outs.filter (fun e => e.2.slot.isSome)).foldl (fun a e => a.outNext (e.2.todo.length + 1) e.1) { s with kv := { s.kv with held := false } }
  else s

/-- Start a swap-out of an OPEN context: SWAPS + 1, SWAPOUT, the valid PTEs whose page has REF = 1 in ascending index (R197).
The second result is the status that a lost word gives. -/
def State.outStart (s : State) (c : Nat) (desc : Option (Nat × Nat)) : State × Option Nat :=
  let r := (Job.mk s none).entry c
  let b := r.2
  let l := (List.range (eSlots b)).foldl (fun (a : Job × List (Nat × Nat)) e =>
    let v := a.1.pte c (eRoot b) e
    if !pteValid v.2 then (v.1, a.2)
    else
      let w := v.1.pageWord (ptePfn v.2)
      (w.1, if metaRef w.2 = 1 then a.2 ++ [(e, ptePfn v.2)] else a.2)) (r.1, [])
  let j := l.1.putEntry c (putAt (putAt b 0 1 (16 * (leAt b 0 1 / 16) + cSWAPOUT)) 50 2 (eSwaps b + 1))
  let f := j.finish s
  if f.2.isSome then f
  else ((f.1.setOut c (some ⟨desc, l.2, 0, [], none, [], stOK⟩)).outNext (l.2.length + 1) c, none)

/-- Eligible victims in the order of R196: ascending PRIO, LAST, index. `named` are the contexts of the SEQ_STEP list. -/
def State.eligible (s : State) (named : List Nat) : State × List (Nat × Nat × Nat × Nat) :=
  s.kv.ctxs.foldl (fun (a : State × List (Nat × Nat × Nat × Nat)) c =>
    match a.1.kvRead (a.1.seqDa c) 128 with
    | (s1, none) => (s1.entryLost c, a.2)
    | (s1, some b) =>
      if eState b = cOPEN && !bitOf (eFlags b) 2 && decide (eSwaps b < 65535) && decide (0 < ePriv b) && !named.contains c then
        (s1, a.2 ++ [(ePrio b, eLast b, c, ePriv b)])
      else (s1, a.2)) (s, [])
def victimLe (a b : Nat × Nat × Nat × Nat) : Bool :=
  decide (a.1 < b.1) || (a.1 == b.1 && (decide (a.2.1 < b.2.1) || (a.2.1 == b.2.1 && decide (a.2.2.1 ≤ b.2.2.1))))
def victimInsert (x : Nat × Nat × Nat × Nat) : List (Nat × Nat × Nat × Nat) → List (Nat × Nat × Nat × Nat)
  | [] => [x]
  | y :: l => if victimLe x y then x :: y :: l else y :: victimInsert x l
/-- The pool is `short` pages short: NO_KV is set and victims are started until they cover it (R196). -/
def State.preempt (s : State) (short : Nat) (named : List Nat) : State :=
  let s0 := s.event F.KVM_STAT_NO_KV 0
  if !s0.flag F.KVM_CFG_PREEMPT_EN 0 || s0.fget F.KVM_SWAP_SLOTS_SLOTS 0 = 0 then s0
  else
    let e := s0.eligible named
    ((e.2.foldl (fun l x => victimInsert x l) []).foldl (fun (a : State × Nat) x =>
      if short ≤ a.2 then a
      else
        let r := a.1.outStart x.2.2.1 none
        if r.2.isSome then (r.1, a.2)
        else ((r.1.fadd F.KVM_PREEMPTS_PREEMPTS 0 1).event F.KVM_STAT_PREEMPT 0, a.2 + x.2.2.2)) (e.1, 0)).1

/-- A swap-in reaches its end: a context still in SWAPIN becomes OPEN, or FAILED, one that a lost word made FAILED stays so; every
KV_SWAP_IN of the context completes (R187, R199). -/
def State.inEnds (s : State) (c : Nat) (x : Swap) (st : Nat) : State :=
  let r := (Job.mk s none).entry c
  let s1 := if r.1.err.isNone && eState r.2 = cSWAPIN then ((r.1.setState c (if st = stOK then cOPEN else cFAILED)).finish s).1 else (r.1.finish s).1
  let s2 := (s1.setIn c none).kvSync
  let waiting := s2.kv.short.filter (fun qi => ((s2.descr qi.1 qi.2).map (·.ctx)) == some c)
  let s3 := { s2 with kv := { s2.kv with short := s2.kv.short.filter (fun qi => !waiting.contains qi) } }
  (x.desc.toList ++ waiting).foldl (fun a qi => a.kvComplete qi st (s2.swapResult c x.moved)) s3

/-- Start a swap-in when the pool holds a page for every SWAP PTE, which are placed at once; else act under R196 (R199). The second
result: started, and the status that a lost word gives. -/
def State.inStart (s : State) (c : Nat) (desc : Option (Nat × Nat)) (named : List Nat) : State × Bool × Option Nat :=
  let r := (Job.mk s none).entry c
  let b := r.2
  let l := (List.range (eSlots b)).foldl (fun (a : Job × List (Nat × Nat)) e =>
    let v := a.1.pte c (eRoot b) e
    (v.1, if pteSwap v.2 then a.2 ++ [(e, ptePfn v.2)] else a.2)) (r.1, [])
  let f := l.1.finish s
  if f.2.isSome then (f.1, false, f.2)
  else if f.1.freePages < l.2.length then (f.1.preempt (l.2.length - f.1.freePages) named, false, none)
  else
    let p := l.2.foldl (fun (a : Job × List Nat) eslot =>
      let pl := a.1.st.placeOf (eslot.1 % eLH b)
      let full := decide (eslot.1 / eLH b < eLen b / 32)
      let q := (a.1.map (fun _ => pl.1)).pop (pl.1.kvSlice pl.2) (if full then 2 else 1)
      (q.1, a.2 ++ [q.2])) (l.1, [])
    let j := p.1.putEntry c (putAt b 0 1 (16 * (leAt b 0 1 / 16) + cSWAPIN))
    let g := j.finish s
    if g.2.isSome then (g.1, false, g.2)
    else
      let x : Swap := ⟨desc, l.2, 0, p.2, none, [], stOK⟩
      (if l.2 = [] then g.1.inEnds c x stOK else g.1.setIn c (some x), true, none)

end Sys2Proof.Machine
end

