-- ==== Sys2Proof/Machine/SealOps.lean ====
section
/-! DEFINITION. Sealed data of client sessions (R352 to R354). -/

namespace Sys2Proof.Machine

/-- The IV of R352: DIR and SEQNO. -/
def sealIv (dir seq : Nat) : List Byte := leBytes 4 dir ++ leBytes 8 seq
/-- The associated data of a header: bytes 0 to 15 and 32 to 63. -/
def sealAad (h : List Byte) : List Byte := h.take 16 ++ (h.drop 32).take 32

/-- Replace a session. -/
def State.setSession (s : State) (x : Session) : State :=
  { s with sec := { s.sec with sessions := s.sec.sessions.map (fun y => if y.sid = x.sid then x else y) } }
def State.session (s : State) (sid : Nat) : Option Session := s.sec.sessions.find? (·.sid == sid)
/-- A session or a sealed datum failed authentication (R350, R353). -/
def State.authFail (s : State) : State := (s.event F.SEC_STAT_SESS_FAIL 0).raise 0x4A 0 0 0

/-- Open inbound sealed data: header and ciphertext of `len` bytes for session `sid`; the plaintext, the SEQNO taken as the
session's last. -/
def State.unseal (s : State) (h ct : List Byte) (len sid : Nat) : State × Option (List Byte) :=
  match s.session sid with
  | none => (s, none)
  | some x =>
    let seq := leAt h 8 8
    let fresh := match x.inSeq with | none => true | some l => decide (l < seq)
    if leAt h 0 4 ≠ sid || leAt h 4 4 ≠ 0 || leAt h 36 4 ≠ len || !fresh then (s, none)
    else match gcmUnseal x.kin (sealIv 0 seq) (ct ++ (h.drop 16).take 16) (sealAad h) with
      | none => (s, none)
      | some pt => (s.setSession { x with inSeq := some seq }, some pt)

/-- Open the sealed blob at `da` in place (R353): status when it fails, every byte written zeroed. -/
def State.openBlob (s : State) (da len sid : Nat) : State × Option Nat :=
  let r := s.daRead da (64 + len) 4
  match r.2.2 with
  | some _ => (r.1, some stDRAM_UE)
  | none =>
    let u := r.1.unseal (r.2.1.take 64) (r.2.1.drop 64) len sid
    match u.2 with
    | some pt => let w := u.1.daWrite (da + 64) pt
      (w.1, w.2.map (fun _ => stDRAM_UE))
    | none => (((u.1.daWrite (da + 64) (zeros len)).1).authFail, some stCONF_DENIED)

/-- Seal outbound data of a context under its session: header and ciphertext; the next SEQNO (R352, R354). -/
def State.sealOut (s : State) (sid ctx : Nat) (pt : List Byte) : State × List Byte :=
  match s.session sid with
  | none => (s, [])
  | some x =>
    let h0 := leBytes 4 sid ++ leBytes 4 1 ++ leBytes 8 x.outSeq ++ zeros 16 ++ leBytes 4 ctx ++ leBytes 4 pt.length ++ zeros 24
    let ct := gcmSeal x.kout (sealIv 1 x.outSeq) pt (sealAad h0)
    let tag := ct.drop (ct.length - 16)
    (s.setSession { x with outSeq := x.outSeq + 1 }, h0.take 16 ++ tag ++ h0.drop 32 ++ ct.take (ct.length - 16))

end Sys2Proof.Machine
end

