-- ==== Sys2Proof/Machine/SecOps.lean ====
section
/-! DEFINITION. Identity, derived keys, the measurement log, quotes and the stack manifest (R337 to R345). -/

namespace Sys2Proof.Machine

/-- SHA3-256 as 32 bytes. -/
def sha (l : List Byte) : List Byte := sha3 l

/-! ### Identity (R338, R339) -/

/-- The module serial. -/
def State.serial (s : State) : List Byte := leBytes 8 (s.get64 .GLB_SERIAL_LO .GLB_SERIAL_HI 0) ++ ascii "KBN-4100"
/-- The 32-byte identity record of the die at position `i % 18` of tower `i / 18`: TYPE 0 for the base die, 2 for the compute die, 1
for a DRAM layer; WAFER is 1 to 25; POS is the layer index (R12, R337). -/
def dieRecord (i : Nat) : List Byte :=
  let b := leBytes 17 (Config.dieFuse i).toNat
  let pos := i % 18
  b.take 8 ++ leBytes 1 ((b.getD 8 0).toNat % 25 + 1) ++ leBytes 1 (if pos = 0 then 0 else if pos = 17 then 2 else 1)
    ++ (b.drop 9).take 2 ++ leBytes 1 pos ++ leBytes 1 (i / 18) ++ (b.drop 11).take 6 ++ zeros 12
def dieRecords : List Byte := (List.range 72).flatMap dieRecord
/-- Four map registers as 16 bytes. -/
def State.map16 (s : State) (r : Reg) : List Byte := (List.range 4).flatMap (fun i => leBytes 4 (s.rget r i).toNat)
def State.manifestHash (s : State) : List Byte := sha (dieRecords ++ s.map16 .GLB_FUSEMAP)
/-- The stack manifest of R338, 2,384 bytes. -/
def State.manifest (s : State) : List Byte :=
  ascii "KGXMANF1" ++ s.serial ++ s.manifestHash ++ leBytes 1 Config.grade ++ leBytes 1 0xA1 ++ zeros 2
    ++ leBytes 4 (s.rget .GLB_FEATURES 0).toNat ++ dieRecords ++ s.map16 .GLB_DISMAP

/-- Bytes 88 to 119 of a receipt record: the disabled-unit map and the firmware measurement at this moment (R324). -/
def State.stamp (s : State) : List Byte := (sha (s.map16 .GLB_DISMAP)).take 16 ++ padTo 16 s.sec.fwMeas

/-! ### Keys (R344) -/

/-- Lifecycle states of R340. -/
def State.lcState (s : State) : Nat := s.fget F.SEC_LC_STATE 0
def lcBLANK : Nat := 0
def lcPROVISIONED : Nat := 1
def lcDEPLOYED : Nat := 2
def lcRETURNED : Nat := 3
def State.keyEpoch (s : State) : Nat := s.fget F.SEC_LC_KEY_EPOCH 0
def udsBytes : List Byte := leBytes 32 Config.uds.toNat
/-- The key store holds keys: no tamper event since the module reset (R357), and no lifecycle change on its way (R341). -/
def State.keysLive (s : State) : Bool := !s.sec.zeroed && s.sec.lcWait.isNone
/-- Seeds of the long-lived keys; none in a state in which the key does not exist. -/
def State.rkSeed (s : State) : Option (List Byte) :=
  if s.keysLive && (s.lcState == lcPROVISIONED || s.lcState == lcDEPLOYED) && !s.sec.rkOff then
    some (kmac udsBytes (ascii "KGX-ROOT") 32) else none
def State.ikSeed (s : State) : Option (List Byte) :=
  if s.keysLive && (s.lcState == lcPROVISIONED || s.lcState == lcDEPLOYED) then
    some (kmac udsBytes (ascii "KGX-IDK" ++ leBytes 1 s.lcState ++ leBytes 4 s.keyEpoch) 32) else none
def State.rcptSeed (s : State) : Option (List Byte) :=
  if s.keysLive && s.lcState == lcDEPLOYED then
    some (kmac udsBytes (ascii "KGX-RCPT" ++ leBytes 4 s.keyEpoch) 32) else none
def State.skemSeed (s : State) : Option (List Byte) :=
  if s.keysLive && s.lcState == lcDEPLOYED then
    some (kmac (leBytes 32 s.sec.bs) (ascii "KGX-SKEM") 32) else none

/-! ### The measurement log (R343) -/

/-- Append an entry: TYPE, SVN, DIGEST, information bytes. The log holds 1,024 entries. -/
def State.logFullSec (s : State) : Bool := decide (1024 ≤ s.sec.log.length)
def State.setMr (s : State) (mr : List Byte) : State :=
  (List.range 8).foldl (fun a i => a.rput .SEC_MR i (BitVec.ofNat 32 (leAt mr (4 * i) 4))) { s with sec := { s.sec with mr := mr } }
def State.measure (s : State) (type svn : Nat) (digest info : List Byte) : State :=
  if s.logFullSec then s
  else
    let e := leBytes 2 s.sec.log.length ++ leBytes 1 type ++ zeros 1 ++ leBytes 4 svn ++ leBytes 8 s.clk.ns ++ padTo 32 digest ++ padTo 16 info
    let s1 := s.setMr (sha (s.sec.mr ++ e))
    let s2 : State := { s1 with sec := { s1.sec with log := s1.sec.log ++ [e]
                                                     fwMeas := if type = 1 then padTo 32 digest else s1.sec.fwMeas } }
    s2.fput F.SEC_LOGN_LOGN 0 s2.sec.log.length

/-! ### Quotes (R345) -/

/-- The public identity key, the root key and its signature over the identity key (R345). -/
def State.identity (s : State) (ik : List Byte) : List Byte × List Byte × List Byte :=
  let ikPub := padTo 1952 (Config.mldsaPub 65 ik)
  let cert := sha (ascii "KGX-IKCERT" ++ s.serial ++ leBytes 1 s.lcState ++ leBytes 4 s.keyEpoch ++ ikPub)
  (ikPub, padTo 1952 ((s.rkSeed.map (Config.mldsaPub 65)).getD []), padTo 3309 ((s.rkSeed.map (fun k => Config.mldsaSign 65 k cert)).getD []))
/-- The quote for a 32-byte nonce; none while no identity key exists. -/
def State.quote (s : State) (nonce : List Byte) : Option (List Byte) :=
  match s.ikSeed with
  | none => none
  | some ik =>
    let body := ascii "KGXQUOT1" ++ s.serial ++ padTo 32 nonce ++ leBytes 8 s.clk.ns ++ leBytes 1 s.lcState
      ++ leBytes 1 (s.fget F.SEC_CONF_ACTIVE 0 + 2 * s.fget F.SEC_CONF_IDE_REQ 0) ++ leBytes 1 (s.fget F.SEC_LC_TAMPERS 0) ++ zeros 1
      ++ leBytes 4 s.keyEpoch ++ padTo 32 s.sec.mr ++ padTo 32 s.sec.fwMeas ++ s.manifestHash ++ s.map16 .GLB_DISMAP
      ++ leBytes 4 s.sec.log.length ++ leBytes 4 Config.rkCert.length ++ zeros 64
    let id := s.identity ik
    let rcpt := padTo 1952 ((s.rcptSeed.map (Config.mldsaPub 65)).getD [])
    let skem := padTo 1184 ((s.skemSeed.map Config.mlkemPub).getD [])
    let a := body ++ id.1 ++ rcpt ++ skem
    some (a ++ padTo 3309 (Config.mldsaSign 65 ik a) ++ zeros 3 ++ id.2.1 ++ id.2.2 ++ zeros 3 ++ Config.rkCert)
/-- The chain of slot 0, from the Kingetrix certificate through the root key to the identity key; its SPDM form is open (log entry 90). -/
def State.certChain (s : State) : List Byte := match s.ikSeed with
  | none => []
  | some ik => let id := s.identity ik
    Config.rkCert ++ id.2.1 ++ id.2.2 ++ id.1

/-- A peer's quote as R356 accepts it: it verifies for the nonce that was sent, its state is DEPLOYED, and in confidential mode
its firmware and mode match. -/
def State.quoteAccepted (s : State) (q nonce : List Byte) : Bool :=
  let ser := (q.drop 8).take 16
  let st := leAt q 64 1
  let ikPub := (q.drop 256).take 1952
  let rkPub := (q.drop 8656).take 1952
  Config.certOk ((q.drop 13920).take (leAt q 188 4)) rkPub
    && Config.mldsaVerify 65 rkPub (sha (ascii "KGX-IKCERT" ++ ser ++ leBytes 1 st ++ (q.drop 68).take 4 ++ ikPub)) ((q.drop 10608).take 3309)
    && Config.mldsaVerify 65 ikPub (q.take 5344) ((q.drop 5344).take 3309)
    && (q.drop 24).take 32 == padTo 32 nonce && st == lcDEPLOYED
    && (!s.conf || (bitOf (leAt q 65 1) 0 && (q.drop 104).take 32 == padTo 32 s.sec.fwMeas))

/-- Close the client sessions that satisfy `p`. -/
def State.closeSessions (s : State) (p : Session → Bool) : State :=
  let s1 : State := { s with sec := { s.sec with sessions := s.sec.sessions.filter (fun x => !p x) } }
  s1.fput F.SEC_CONF_SESSIONS 0 s1.sec.sessions.length

end Sys2Proof.Machine
end

