-- ==== Sys2Proof/Machine/Kv.lean ====
section
/-! DEFINITION. The KV manager's commands (R171 to R199, R209). -/

namespace Sys2Proof.Machine

/-! ### When a descriptor of the KV manager starts (R171, R172, R209, R333) -/

def kvTypes : List Nat := [0x10, 0x11, 0x12, 0x13, 0x14, 0x15]
/-- The leaf queue has no room: 1,048,576 records, those of the SEQ_CLOSEs of the period counted (R333). -/
def State.leafFull (s : State) : Bool :=
  s.flag F.ENR_CTL_RUN 0 && decide (1048576 ≤ s.fget F.ENR_QLEN_QLEN 0 + s.enr.closing.length)
/-- Transfers of a context are under way (R186). -/
def State.swapping (s : State) (c : Nat) : Bool := SMap.find s.kv.outs c != none || SMap.find s.kv.ins c != none
/-- A SEQ_CLOSE waits for room in the leaf queue (R333). -/
def State.closeWaits (s : State) (d : Descr) : Bool := d.type == 0x12 && s.leafFull
/-- The KV manager starts operations (R209). -/
def State.kvRuns (s : State) : Bool := s.flag F.KVM_CTL_RUN 0 && s.flag F.KVM_CTL_READY 0
/-- Free to start but for the order among queue pairs: no earlier DISPATCH of its queue pair is unfinished. -/
def State.kvEligible (s : State) (q : Nat) (d : Descr) : Bool :=
  s.mayStart q d && ((s.qp q).live.takeWhile (·.idx ≠ d.idx)).all (fun e => e.type ≠ 1)
/-- The KV manager runs, and no descriptor of another queue pair that was fetched earlier could start (R172, log entry 18). -/
def State.kvMay (s : State) (q : Nat) (d : Descr) : Bool :=
  s.kvEligible q d && s.kvRuns
    && (s.kv.order.takeWhile (· ≠ (q, d.idx))).all (fun w => w.1 == q
      || match s.descr w.1 w.2 with
        | none => true
        | some x => x.started || !s.kvEligible w.1 x || s.closeWaits x)
/-- The shape of a KV manager descriptor command; `ok` selects the row among those of one type. -/
def State.withKv (s : State) (q idx type : Nat) (ok : Descr → Bool) (k : State → Descr → State) : State :=
  match s.descr q idx with
  | none => s
  | some d =>
    if kvTypes.contains d.type && (!s.kvMay q d || !ok d) then s else s.withDescr q idx [type] k

/-! ### SEQ_OPEN (R181, R192, R351, R353) -/

/-- Whether a session of function `f` is open. -/
def State.sessionOf (s : State) (sid f : Nat) : Bool := s.sec.sessions.any (fun x => x.sid == sid && x.fn == f)
/-- The lowest context that is FREE and was not closed in this period (R181, R323). -/
def State.lowestFree (s : State) : Option Nat :=
  ((List.range (s.kv.ctxs.length + s.kv.closed.length + 1)).find?
    (fun c => !s.kv.ctxs.contains c && !s.kv.closed.contains c)).filter (fun c => decide (c < s.ctxCount))
/-- The blocks of a prompt that match, in turn: node, its bytes, hash, row; then whether a lookup ended the match (R192). -/
def State.matchGo : Nat → State → List Byte → Nat → Nat → Nat → Nat → Nat → List Nat → List (Nat × List Byte × Nat × List Nat) →
    State × List (Nat × List Byte × Nat × List Nat) × Bool
  | 0, s, _, _, _, _, _, _, _, out => (s, out, false)
  | fuel + 1, s, key, h, b, ns, shape, lh, toks, out =>
    let h' := blockHash key h (toks.take 32)
    let f := s.findNode h' ns b shape
    match f.2 with
    | none => (f.1, out, true)
    | some (n, nb) =>
      if !nodeReady nb then (f.1, out, true)
      else
        let r := f.1.rowPfns nb lh
        match r.2 with
        | none => ((r.1.daWrite (r.1.nodeDa n) (zeros 64)).1, out, true)
        | some ps => State.matchGo fuel r.1 key h' (b + 1) ns shape lh (toks.drop 32) (out ++ [(n, nb, h', ps)])

/-- The child or new context's table: root, shared PTEs with their REFs raised. -/
def Job.share (j : Job) (c : Nat) (es : List (Nat × Nat)) : Job × Nat :=
  let r := j.newTable
  (es.foldl (fun a x => (a.setPte c r.2 x.1 (x.2 + 2 ^ 24)).refUp x.2) r.1, r.2)
/-- Table pages that PTEs `es` of a new context need: its root, middle pages and leaves. -/
def freshTables (es : List Nat) : Nat := 1 + (es.map (· / 2 ^ 25)).eraseDups.length + (es.map (· / 2 ^ 13)).eraseDups.length

/-- The parts of a SEQ_OPEN that the descriptor gives. -/
def Descr.openLH (d : Descr) : Nat := (d.u 20 1 + 1) * (d.u 21 1 + 1)
/-- Write the entry of a newly opened context (R179, R181, R325). LAST has no step end to hold yet: any value (log entry 16). -/
def Job.openEntry (j : Job) (c : Nat) (d : Descr) (f len root parent chain : Nat) (toks : List Nat) : Job :=
  let r := j.entry c
  let l := r.1.st.free 64
  let b := leBytes 1 cOPEN ++ leBytes 1 (d.u 23 1) ++ leBytes 1 (d.u 24 1) ++ leBytes 3 (d.u 20 3) ++ leBytes 2 (d.u 26 2)
    ++ leBytes 4 len ++ leBytes 4 (d.u 28 4) ++ leBytes 8 root ++ zeros 8 ++ leBytes 4 f ++ leBytes 4 (eGen r.2 + 1)
    ++ leBytes 8 l.1 ++ zeros 8 ++ leBytes 4 parent ++ zeros 4 ++ leBytes 8 chain ++ leBytes 40 (Config.hstate chain toks).toNat
    ++ leBytes 8 l.2.clk.ns ++ zeros 8
  ((r.1.map (fun _ => l.2)).putEntry c b).map (fun s =>
    let s1 := { s with kv := { s.kv with ctxs := s.kv.ctxs ++ [c], toks := SMap.put s.kv.toks c toks } }
    if s1.flag F.ENR_CTL_RUN 0 then (s1.daWrite (s1.kvBase .ENR_ACC_LO .ENR_ACC_HI 26 + 64 * c) (zeros 64)).1 else s1)

/-- SEQ_OPEN after its checks: with a parent, or with the tokens of a prompt. -/
def State.openFork (s : State) (c p f : Nat) (d : Descr) : State × Nat × List Byte :=
  let r := (Job.mk s none).entry p
  let b := r.2
  let ptes := (List.range (eSlots b)).foldl (fun (a : Job × List (Nat × Nat)) e =>
    let v := a.1.pte p (eRoot b) e
    (v.1, if pteValid v.2 then a.2 ++ [(e, ptePfn v.2)] else a.2)) (r.1, [])
  if ptes.1.err.isNone && decide (s.freePages < freshTables (ptes.2.map (·.1))) then (s, stNO_CTX, [])
  else
    let t := ptes.1.share c ptes.2
    let j := t.1.openEntry c d f (eLen b) t.2 p (eChain b) (SMap.get s.kv.toks p [])
    let e := j.finish s
    match e.2 with
    | some st => (e.1, st, [])
    | none => (e.1, stOK, leBytes 4 c ++ leBytes 4 (eLen b))
def State.openPrompt (s : State) (c f : Nat) (d : Descr) (toks : List Nat) : State × Nat × List Byte :=
  let ns := d.u 26 2
  let sid := if bitOf (d.u 23 1) 1 then d.u 48 4 else 0
  let k := s.nsKey ns sid
  let blocks := (d.u 32 4 - 1) / 32
  let m := if s.flag F.PFX_CFG_EN 0 then State.matchGo blocks k.1 k.2 0 0 ns (d.u 20 3) d.openLH toks [] else (k.1, [], false)
  let s1 := (m.1.fadd F.PFX_HIT_HIT 0 m.2.1.length).fadd F.PFX_MISS_MISS 0 (b2n m.2.2)
  let es := (m.2.1.flatMap (fun x => x.2.2.2)).zipIdx.map (fun x => (x.2, x.1))
  if s1.freePages < freshTables (es.map (·.1)) then (s1, stNO_CTX, [])
  else
    let t := (Job.mk s1 none).share c es
    let j := m.2.1.foldl (fun (a : Job) x =>
      (a.write (a.st.nodeDa x.1) (putAt x.2.1 32 8 a.st.clk.ns)).map
        (fun s => s.dirUse ⟨x.2.2.1, ns, leAt x.2.1 12 4, x.1⟩)) t.1
    let chain := ((m.2.1.getLast?).map (fun x => x.2.2.1)).getD 0
    let g := (j.openEntry c d f (32 * m.2.1.length) t.2 0xFFFFFFFF chain []).finish s1
    match g.2 with
    | some st => (g.1, st, [])
    | none =>
      let s2 := if sid = 0 then g.1 else { g.1 with kv := { g.1.kv with sid := SMap.put g.1.kv.sid c sid } }
      (s2, stOK, leBytes 4 c ++ leBytes 4 (32 * m.2.1.length))

/-- Checks on the parent of a fork: status, or none when it may be forked (R181, R182, R187). -/
def State.forkVerdict (s : State) (p f : Nat) (d : Descr) : State × Option Nat :=
  if s.ctxCount ≤ p then (s, some stBAD_CTX)
  else match s.kvRead (s.seqDa p) 128 with
    | (s1, none) => (s1.entryLost p, some stCTX_FAILED)
    | (s1, some b) =>
      if eState b = cFREE || eFunc b ≠ f then (s1, some stBAD_CTX)
      else if eState b = cFAILED then (s1, some stCTX_FAILED)
      else if eState b ≠ cOPEN then (s1, some stSTATE)
      else if eShape b ≠ d.u 20 3 then (s1, some stBAD_SHAPE)
      else (s1, none)

/-- SEQ_OPEN (R181): status and RESULT. -/
def State.seqOpen (s : State) (q : Nat) (d : Descr) : State × Nat × List Byte :=
  let f := (s.qpFunc q).getD 0
  let conf := bitOf (d.u 23 1) 1
  let parent := d.u 16 4
  let fork := parent ≠ 0xFFFFFFFF
  let p := d.u 32 4
  let body := bodyZero d [(16, 9), (26, 10), (40, 12)] && bits (d.u 23 1) 7 3 = 0 && d.u 28 4 < 2 ^ 20 && p < 2 ^ 20
    && (!fork || p = 0) && (conf || d.u 48 4 = 0)
  match s.headVerdict q d body true with
  | some e => (s, e, [])
  | none =>
    if 8192 < d.openLH then (s, stBAD_SHAPE, [])
    else if conf && !(s.conf && s.sessionOf (d.u 48 4) f) then (s, stCONF_DENIED, [])
    else
      let v := if fork then s.forkVerdict parent f d else (s, none)
      match v.2 with
      | some e => (v.1, e, [])
      | none =>
        let n := if p = 0 || fork then 0 else 4 * p + (if conf then 64 else 0)
        match if n = 0 then none else v.1.daVerdict f (d.u 40 8) n with
        | some e => (v.1, e, [])
        | none =>
          match v.1.lowestFree with
          | none => (v.1, stNO_CTX, [])
          | some c =>
            if fork then
              let r := v.1.openFork c parent f d
              if conf && r.2.1 = stOK then ({ r.1 with kv := { r.1.kv with sid := SMap.put r.1.kv.sid c (d.u 48 4) } }, r.2) else r
            else
              let o := if conf && n ≠ 0 then v.1.openBlob (d.u 40 8) (4 * p) (d.u 48 4) else (v.1, none)
              match o.2 with
              | some e => (o.1, e, [])
              | none =>
                let t := o.1.daRead (d.u 40 8 + (if conf then 64 else 0)) (4 * p) 4
                match t.2.2 with
                | some _ => (t.1, stDRAM_UE, [])
                | none => t.1.openPrompt c f d (words4 p t.2.1)

/-- SEQ_OPEN. -/
def execSeqOpen (qp idx : Nat) (s : State) : Out :=
  .next (s.settle (.seqOpen qp idx) fun s => s.withKv qp idx 0x10 (fun _ => true) (fun s d =>
    let r := s.seqOpen qp d
    r.1.kvSync.complete qp d r.2.1 r.2.2))

/-! ### SEQ_STEP (R183 to R185, R193, R201) -/

def blkLo (i w : Nat) : Nat := if w = 0 then 0 else (i + 1 - w) / 32
def blkHi (i : Nat) : Nat := i / 32 + 1
/-- An entry of the output record. -/
def stepEntry (c st p0 n : Nat) (b : List Byte) : List Byte :=
  leBytes 4 (c + 2 ^ 24 * st) ++ leBytes 4 p0 ++ leBytes 2 n ++ zeros 2 ++ leBytes 4 (eW b) ++ leBytes 8 (eRoot b)
    ++ leBytes 4 (blkLo p0 (eW b)) ++ leBytes 4 (blkHi (p0 + n - 1))
/-- An entry whose status is not OK: W and ROOT of the context `b` that the item names; the fields of a step that did not happen, and all of
them where it names none, hold any value (log entry 16). -/
def State.failEntry (s : State) (c st : Nat) (b : Option (List Byte)) : State × List Byte :=
  let f := s.free 48
  let g := f.2.free 64
  let h := g.2.free 96
  let own := match b with
    | some b => leBytes 4 (eW b) ++ leBytes 8 (eRoot b)
    | none => leBytes 12 h.1
  (h.2, leBytes 4 (c + 2 ^ 24 * st) ++ leBytes 6 f.1 ++ zeros 2 ++ own ++ leBytes 8 g.1)
/-- Entry status of a descriptor status. -/
def entryStatus (st : Nat) : Nat := if st = stKV_UE then 7 else if st = stCTX_FAILED then 6 else if st = stBAD_CTX then 5 else 3
/-- The entry of the sequence table that an item names, or its status with the entry of a context that it may name (R182, R187). -/
def State.itemEntry (s : State) (c f : Nat) : State × Except (Nat × Option (List Byte)) (List Byte) :=
  if s.ctxCount ≤ c then (s, .error (5, none))
  else match s.kvRead (s.seqDa c) 128 with
    | (s1, none) => (s1.entryLost c, .error (6, some (zeros 128)))
    | (s1, some b) =>
      if eState b = cFREE || eFunc b ≠ f then (s1, .error (5, none))
      else if eState b = cFAILED then (s1, .error (6, some b))
      else (s1, .ok b)

/-- The node that R193 reserves for each completed block that has none: (hash, block, node, bytes of a victim). -/
def State.planNodes (s : State) (ns shape : Nat) : List (Nat × Nat) → List (Nat × Nat × Nat × List Byte) → Nat →
    State × List (Nat × Nat × Nat × List Byte) × Nat
  | [], out, skip => (s, out, skip)
  | (h, b) :: rest, out, skip =>
    let f := s.findNode h ns b shape
    match f.2 with
    | some _ => State.planNodes f.1 ns shape rest out skip
    | none =>
      let q := f.1.nodesRead ((List.range 16).map (f.1.bucketOf h + ·))
      let open_ := q.2.filter (fun e => !out.any (fun o => o.2.2.1 == e.1))
      match open_.find? (fun e => leAt e.2 16 1 == 0) with
      | some e => State.planNodes q.1 ns shape rest (out ++ [(h, b, e.1, [])]) skip
      | none =>
        let cand := open_.filter (fun e => nodeReady e.2 && leAt e.2 20 4 == 0)
        match cand.find? (fun e => cand.all (fun x => decide (leAt e.2 32 8 ≤ leAt x.2 32 8))) with
        | some e => State.planNodes q.1 ns shape rest (out ++ [(h, b, e.1, e.2)]) skip
        | none => State.planNodes q.1 ns shape rest out (skip + 1)

/-- Copy a page; the copy of a word that reads uncorrectable is written poisoned (R184, R208). -/
def State.copyPage (s : State) (src dst : Nat) : State :=
  (List.range 4096).foldl (fun a i =>
    let r := a.kvRead (2 ^ 15 * src + 8 * i) 8
    match r.2 with
    | some b => (r.1.daWrite (2 ^ 15 * dst + 8 * i) b).1
    | none => r.1.putPoison (r.1.atomPlace (2 ^ 15 * dst + 8 * i) + 8 * (i % 32)) (zeros 8)) s

/-- Allocate a KV page for PTE `e` from the slice of its layer and head. -/
def Job.kvPage (j : Job) (e lh st : Nat) : Job × Nat :=
  let pl := j.st.placeOf (e % lh)
  (j.map (fun _ => pl.1)).pop (pl.1.kvSlice pl.2) st

/-- A page for entry `e` of a context, with the tables that it needs (R184). -/
def Job.newPage (a : Job) (c root lh e : Nat) : Job :=
  let p := (a.ensure c root e).kvPage e lh 1
  p.1.setPte c root e (p.2 + 2 ^ 24)
/-- A page of entry `e` that shares its contents with page `old` no longer: a copy takes its place (R184). -/
def Job.ownPage (a : Job) (c root lh e old : Nat) (conf : Bool) : Job :=
  let p := a.kvPage e lh 1
  ((p.1.map (fun s => s.copyPage old p.2)).setPte c root e (p.2 + 2 ^ 24)).refDown old (some conf)
/-- A node of the prefix directory in the slot that the plan names, whose row is evicted first (R193, R194): hash, block, slot, what the slot
holds. -/
def Job.newNode (a : Job) (c lh : Nat) (b : List Byte) (x : Nat × Nat × Nat × List Byte) : Job :=
  let a1 := if x.2.2.2 = [] then a else a.evict x.2.2.1 x.2.2.2 lh
  let r := a1.pop a1.st.tableSlice 4
  let l := r.1.st.free 64
  let nb := leBytes 8 x.1 ++ leBytes 2 (eNs b) ++ zeros 2 ++ leBytes 4 x.2.1 ++ leBytes 1 1 ++ leBytes 3 (eShape b)
    ++ zeros 4 ++ leBytes 4 c ++ leBytes 4 r.2 ++ leBytes 8 l.1 ++ zeros 24
  ((r.1.map (fun _ => l.2)).write (l.2.nodeDa x.2.2.1) nb).map (fun s =>
    { s with kv := { s.kv with nodes := SMap.put s.kv.nodes c (SMap.get s.kv.nodes c [] ++ [(x.2.2.1, x.2.1)]) } })
/-- A BEGIN entry for an OPEN context within the length limit (R184): entry status, output entry. -/
def State.beginOpen (s : State) (c n : Nat) (b : List Byte) (toks named : List Nat) : State × Nat × List Byte :=
  let lh := eLH b
  let root := eRoot b
  let len := eLen b
  let b0 := len / 32
  let b1 := (len + n - 1) / 32
  let key := s.nsKey (eNs b) (SMap.get s.kv.sid c 0)
  let fold := foldTokens key.2 toks (eChain b) (SMap.get s.kv.toks c []) []
  let share := bitOf (eFlags b) 0 && key.1.flag F.PFX_CFG_EN 0
  let plan := if share then key.1.planNodes (eNs b) (eShape b) (fold.1.zipIdx.map (fun x => (x.1, b0 + x.2))) [] 0
    else (key.1, [], 0)
  let s1 := plan.1
  let es := (List.range ((b1 + 1 - b0) * lh)).map (b0 * lh + ·)
  let cnt := es.foldl (fun (a : Job × List Nat × List (Nat × Nat)) e =>
    let v := a.1.pte c root e
    if !pteValid v.2 then (v.1, a.2.1 ++ [e], a.2.2)
    else
      let w := v.1.pageWord (ptePfn v.2)
      (w.1, a.2.1, if e / lh = b0 && decide (1 < metaRef w.2) then a.2.2 ++ [(e, ptePfn v.2)] else a.2.2))
    (Job.mk s1 none, [], [])
  let tabs := cnt.1.tablesNeeded c root cnt.2.1
  let need := cnt.2.1.length + cnt.2.2.length + tabs.2 + plan.2.1.length
  let bad (x : State × Option Nat) (st : Nat) : State × Nat × List Byte :=
    let f := x.1.failEntry c (entryStatus st) (some b)
    (f.1, entryStatus st, f.2)
  match tabs.1.err with
  | some _ => let x := tabs.1.finish s1
    bad x (x.2.getD stKV_UE)
  | none =>
    let s2 := tabs.1.st
    if s2.freePages < need then
      let f := (s2.preempt (need - s2.freePages) named).failEntry c 1 (some b)
      (f.1, 1, f.2)
    else
      let j1 := cnt.2.1.foldl (fun (a : Job) e => a.newPage c root lh e) (Job.mk s2 none)
      let j2 := cnt.2.2.foldl (fun (a : Job) x => a.ownPage c root lh x.1 x.2 (bitOf (eFlags b) 1)) j1
      let j3 := plan.2.1.foldl (fun (a : Job) x => a.newNode c lh b x) j2
      let b' := putAt (putAt (putAt (putAt b 48 2 n) 64 8 fold.2.1) 72 40 (Config.hstate fold.2.1 fold.2.2).toNat)
        0 1 (16 * (leAt b 0 1 / 16) + cSTEP)
      let j4 := (j3.putEntry c b').map (fun s =>
        { s.fadd F.PFX_SKIP_SKIP 0 plan.2.2 with kv := { s.kv with toks := SMap.put s.kv.toks c fold.2.2 } })
      let x := j4.finish s2
      match x.2 with
      | some st => bad x st
      | none => (x.1, 0, stepEntry c 0 len n b)

/-- One BEGIN item (R184, R187). -/
def State.beginItem (s : State) (f c n tokDa : Nat) (named : List Nat) : State × Nat × List Byte :=
  let fail_ (s : State) (st : Nat) (b : Option (List Byte)) : State × Nat × List Byte := let r := s.failEntry c st b; (r.1, st, r.2)
  match s.itemEntry c f with
  | (s1, .error e) => fail_ s1 e.1 e.2
  | (s1, .ok b) =>
    let fail (s : State) (st : Nat) : State × Nat × List Byte := fail_ s st (some b)
    if eState b = cSWAPPED then fail (s1.inStart c none named).1 2
    else if eState b = cSWAPOUT || eState b = cSWAPIN then fail s1 2
    else if eState b ≠ cOPEN then fail s1 3
    else if 1048575 < eLen b + n then fail s1 4
    else
      let t := s1.daRead tokDa (4 * n) 4
      match t.2.2 with
      | some _ => fail t.1 7
      | none => t.1.beginOpen c n b (words4 n t.2.1) named

/-- One END item (R185): the step commits, its completed blocks become FULL, its pending nodes READY with their rows filled. -/
def State.endItem (s : State) (f c : Nat) : State × Nat × List Byte :=
  let fail_ (s : State) (st : Nat) (b : Option (List Byte)) : State × Nat × List Byte := let r := s.failEntry c st b; (r.1, st, r.2)
  match s.itemEntry c f with
  | (s1, .error e) => fail_ s1 e.1 e.2
  | (s1, .ok b) =>
    let fail (s : State) (st : Nat) : State × Nat × List Byte := fail_ s st (some b)
    if eState b ≠ cSTEP then fail s1 3
    else
      let lh := eLH b
      let len := eLen b
      let len' := len + eStep b
      let es := (List.range ((len' / 32 - len / 32) * lh)).map (len / 32 * lh + ·)
      let j1 := es.foldl (fun (a : Job) e =>
        let v := a.pte c (eRoot b) e
        let w := v.1.pageWord (ptePfn v.2)
        if pteValid v.2 && metaState w.2 ≠ 5 then w.1.putPage (ptePfn v.2) (setBits w.2 23 21 2) else v.1) (Job.mk s1 none)
      let j2 := (SMap.get s1.kv.nodes c []).foldl (fun (a : Job) x =>
        let nr := a.st.nodeRead x.1
        if leAt nr.2 16 1 ≠ 1 then a.map (fun _ => nr.1)
        else
          let row := leAt nr.2 28 4
          let ps := (List.range lh).foldl (fun (r : Job × List Nat) i =>
            let v := r.1.pte c (eRoot b) (x.2 * lh + i)
            (v.1.refUp (ptePfn v.2), r.2 ++ [ptePfn v.2])) (a.map (fun _ => nr.1), [])
          ((ps.1.write (2 ^ 15 * row) (ps.2.flatMap (leBytes 4))).write (ps.1.st.nodeDa x.1) (putAt nr.2 16 1 2)).map
            (fun s => s.dirUse ⟨leAt nr.2 0 8, leAt nr.2 8 2, x.2, x.1⟩)) j1
      let b' := putAt (putAt (putAt (putAt b 8 4 len') 48 2 0) 40 8 s1.clk.ns) 0 1 (16 * (leAt b 0 1 / 16) + cOPEN)
      let j3 := (j2.putEntry c b').map (fun s => { s with kv := { s.kv with nodes := SMap.del s.kv.nodes c } })
      let x := j3.finish s1
      match x.2 with
      | some st => fail x.1 (entryStatus st)
      | none => (x.1, 0, stepEntry c 0 len (eStep b) b)

/-- The items of a list: (context, N). -/
def stepItems (n : Nat) (bs : List Byte) : List (Nat × Nat) :=
  (List.range n).map (fun i => let v := leAt bs (8 * i) 8; (bits v 19 0, bits v 35 20))
/-- Process the items in list order, each as one operation (R183): output entries, failures, OK items. -/
def State.stepGo : State → Bool → Nat → List Nat → Nat → List (Nat × Nat) → List Byte → Nat → List (Nat × Nat) →
    State × List Byte × Nat × List (Nat × Nat)
  | s, _, _, _, _, [], out, bad, ok => (s, out, bad, ok)
  | s, isBegin, f, named, tok, (c, n) :: rest, out, bad, ok =>
    let r := if isBegin then s.beginItem f c n tok named else s.endItem f c
    State.stepGo r.1.kvSync isBegin f named (tok + 4 * n) rest (out ++ r.2.2) (bad + b2n (r.2.1 ≠ 0))
      (if r.2.1 = 0 then ok ++ [(c, n)] else ok)

/-- SEQ_STEP (R183). -/
def State.seqStep (s : State) (q : Nat) (d : Descr) : State :=
  let f := (s.qpFunc q).getD 0
  let op := d.u 16 1
  let cnt := d.u 20 4
  let body := bodyZero d [(16, 1), (20, 28)] && op ≤ 1 && 1 ≤ cnt && cnt ≤ 256 && (op = 0 || d.u 32 8 = 0)
  match s.headVerdict q d body true with
  | some e => s.complete q d e []
  | none =>
    match (s.daVerdict f (d.u 24 8) (8 * cnt)).or (s.daVerdict f (d.u 40 8) (64 + 32 * cnt)) with
    | some e => s.complete q d e []
    | none =>
      let l := s.daRead (d.u 24 8) (8 * cnt) 4
      match l.2.2 with
      | some _ => l.1.complete q d stDRAM_UE []
      | none =>
        let items := stepItems cnt l.2.1
        let raw := (List.range cnt).map (fun i => leAt l.2.1 (8 * i) 8)
        let okItems := raw.all (fun v => v < 2 ^ 36) && items.all (fun x => if op = 0 then 1 ≤ x.2 else x.2 = 0)
        let total := 4 * (items.map (·.2)).foldl (· + ·) 0
        if !okItems then l.1.complete q d stBAD_DESC []
        else match if op = 0 then l.1.daVerdict f (d.u 32 8) total else none with
          | some e => l.1.complete q d e []
          | none =>
            let r := State.stepGo l.1 (op = 0) f (items.map (·.1)) (d.u 32 8) items [] 0 []
            let head := leBytes 4 cnt ++ leBytes 4 r.2.2.1 ++ leBytes 8 r.1.clk.ns ++ zeros 48
            let s1 := (r.1.daWrite (d.u 40 8) (head ++ r.2.1)).1
            let s2 := if op = 0 then { s1 with kv := { s1.kv with steps := SMap.put s1.kv.steps q r.2.2.2 } } else s1
            s2.complete q d stOK (leBytes 4 r.2.2.1)

/-- SEQ_STEP with OP BEGIN; a reserved OP is refused by either row. -/
def execSeqStepBegin (qp idx : Nat) (s : State) : Out :=
  .next (s.settle (.seqStepBegin qp idx) fun s => s.withKv qp idx 0x11 (fun d => d.u 16 1 ≠ 1) (fun s d => s.seqStep qp d))
/-- SEQ_STEP with OP END. -/
def execSeqStepEnd (qp idx : Nat) (s : State) : Out :=
  .next (s.settle (.seqStepEnd qp idx) fun s => s.withKv qp idx 0x11 (fun d => d.u 16 1 ≠ 0) (fun s d => s.seqStep qp d))

/-! ### SEQ_CLOSE (R186, R323 to R329) -/

/-- Read a PTE or pointer at close: an unreadable word names nothing (R208). -/
def Job.closeWord (j : Job) (da n : Nat) : Job × Nat :=
  if j.err.isSome then (j, 0)
  else match j.st.kvRead da n with
    | (s1, some b) => ({ j with st := s1 }, leNat b)
    | (s1, none) => ({ j with st := s1 }, 0)
/-- Release what PTE `e` names. -/
def Job.closePte (j : Job) (root e : Nat) (conf : Bool) : Job :=
  let m := j.closeWord (root + 8 * (e / 2 ^ 25)) 8
  if m.2 = 0 then m.1
  else
    let l := m.1.closeWord (m.2 + 8 * (e / 2 ^ 13 % 4096)) 8
    if l.2 = 0 then l.1
    else
      let v := l.1.closeWord (l.2 + 4 * (e % 8192)) 4
      if pteValid v.2 then v.1.refDown (ptePfn v.2) (some conf)
      else if pteSwap v.2 then v.1.map (fun s => s.slotSet (ptePfn v.2) false)
      else v.1
/-- Free a table page. -/
def Job.closePage (j : Job) (da : Nat) (conf : Bool) : Job := if da = 0 then j else j.refDown (da / 2 ^ 15) (some conf)
/-- Free the leaves and middle pages below a root, then the root. -/
def Job.closeTables (j : Job) (root n : Nat) (conf : Bool) : Job :=
  let leaves := cdiv n 8192
  let j1 := (List.range leaves).foldl (fun a k =>
    let m := a.closeWord (root + 8 * (k / 4096)) 8
    if m.2 = 0 then m.1 else (let l := m.1.closeWord (m.2 + 8 * (k % 4096)) 8; l.1.closePage l.2 conf)) j
  let j2 := (List.range (cdiv leaves 4096)).foldl (fun a k => let m := a.closeWord (root + 8 * k) 8; m.1.closePage m.2 conf) j1
  j2.closePage root conf

/-- Free a context (R186): pending nodes are deleted, pages and slots released, tables freed, the entry set FREE. -/
def Job.closeCtx (j : Job) (c : Nat) (b : List Byte) : Job :=
  let conf := bitOf (eFlags b) 1
  let j1 := (SMap.get j.st.kv.nodes c []).foldl (fun (a : Job) x =>
    let nr := a.st.nodeRead x.1
    let a1 := a.map (fun _ => nr.1)
    if leAt nr.2 16 1 ≠ 1 then a1 else (a1.refDown (leAt nr.2 28 4) none).write (nr.1.nodeDa x.1) (zeros 64)) j
  let n := eSlots b
  let j2 := if eRoot b = 0 then j1 else ((List.range n).foldl (fun a e => a.closePte (eRoot b) e conf) j1).closeTables (eRoot b) n conf
  (j2.putEntry c (putAt b 0 1 (16 * (leAt b 0 1 / 16)))).map (fun s =>
    { s with kv := { s.kv with ctxs := s.kv.ctxs.filter (· ≠ c), nodes := SMap.del s.kv.nodes c, toks := SMap.del s.kv.toks c
                               sid := SMap.del s.kv.sid c
                               closed := if s.flag F.ENR_CTL_RUN 0 then s.kv.closed ++ [c] else s.kv.closed } })

/-- A SEQ_CLOSE that has started acts, or waits on while its context's transfers run; no other operation waits behind it (R186). A page
metadata word that reads uncorrectable ends it with KV_UE, and the context stays as it was (R208, log entry 85). -/
def State.closeGo (s : State) (qp idx : Nat) (d : Descr) : State :=
  let f := (s.qpFunc qp).getD 0
  if s.ctxCount ≤ d.ctx then s.complete qp d stBAD_CTX []
  else match s.kvRead (s.seqDa d.ctx) 128 with
    | (s1, none) => (s1.entryLost d.ctx).kvSync.complete qp d stCTX_FAILED []
    | (s1, some b) =>
      if eState b = cFREE || eFunc b ≠ f then s1.complete qp d stBAD_CTX []
      else if s1.swapping d.ctx then { s1 with kv := { s1.kv with closeWait := s1.kv.closeWait ++ [(qp, idx)] } }
      else
        let r := (Job.closeCtx (Job.mk s1 none) d.ctx b).finish s1
        let s2 := r.1.kvSync
        match r.2 with
        | some e => s2.complete qp d e []
        | none =>
          if !s2.flag F.ENR_CTL_RUN 0 || d.ctx = 0 then s2.complete qp d stOK []
          else { s2 with enr := { s2.enr with closing := s2.enr.closing ++
            [⟨qp, idx, d.ctx, eGen b, d.u 16 8, leAt b 112 8, s2.clk.ns, bitOf (eFlags b) 1, s2.stamp⟩] } }
/-- SEQ_CLOSE: the context is freed; its receipt is queued at the period's end and completes it, except for context 0 and while
metering is stopped (R319, R329). -/
def execSeqClose (qp idx : Nat) (s : State) : Out :=
  .next (s.settle (.seqClose qp idx) fun s => match s.descr qp idx with
    | none => s
    | some d0 =>
      if s.kv.closeWait.contains (qp, idx) then
        (if s.swapping d0.ctx || s.leafFull || !s.kvRuns then s
         else ({ s with kv := { s.kv with closeWait := s.kv.closeWait.filter (· ≠ (qp, idx)) } } : State).closeGo qp idx d0)
      else
        let s0 := if d0.type = 0x12 && s.kvMay qp d0 && s.leafFull then s.event F.ENR_STAT_QFULL 0 else s
        s0.withKv qp idx 0x12 (fun d => !s0.closeWaits d) (fun s d =>
          match s.headVerdict qp d (bodyZero d [(16, 8)]) false with
          | some e => s.complete qp d e []
          | none => s.closeGo qp idx d))

/-! ### Zeroing and swap -/

/-- PAGE_ZERO_DONE: the page's zeros are written and it joins its free list (R177). -/
def execPageZeroDone (p : Nat) (s : State) : Out :=
  .next (s.settle (.pageZeroDone p) fun s => if s.kv.zeroing.contains p && s.kvRuns then
      let s1 := (s.daWrite (2 ^ 15 * p) (zeros 32768)).1
      (({ s1 with kv := { s1.kv with zeroing := s1.kv.zeroing.filter (· ≠ p), confPages := s1.kv.confPages.filter (· ≠ p) } }
        : State).joinFree p).kvSync
    else s)

/-- The checks that KV_SWAP_OUT and KV_SWAP_IN share: the entry, or a status (R182, R187, R258). -/
def State.swapEntry (s : State) (q : Nat) (d : Descr) : State × Except Nat (List Byte) :=
  match s.headVerdict q d (bodyZero d []) false with
  | some e => (s, .error e)
  | none =>
    let f := (s.qpFunc q).getD 0
    if s.ctxCount ≤ d.ctx then (s, .error stBAD_CTX)
    else match s.kvRead (s.seqDa d.ctx) 128 with
      | (s1, none) => (s1.entryLost d.ctx, .error stCTX_FAILED)
      | (s1, some b) =>
        if eState b = cFREE || eFunc b ≠ f then (s1, .error stBAD_CTX)
        else if eState b = cFAILED then (s1, .error stCTX_FAILED)
        else if s1.fget F.KVM_SWAP_SLOTS_SLOTS 0 = 0 then (s1, .error stNO_SWAP)
        else (s1, .ok b)

/-- KV_SWAP_OUT (R197). -/
def execKvSwapOut (qp idx : Nat) (s : State) : Out :=
  .next (s.settle (.kvSwapOut qp idx) fun s => s.withKv qp idx 0x13 (fun _ => true) (fun s d =>
    match s.swapEntry qp d with
    | (s1, .error e) => s1.kvSync.complete qp d e []
    | (s1, .ok b) =>
      if eState b ≠ cOPEN || eSwaps b = 65535 then s1.complete qp d stSTATE (s1.swapResult d.ctx 0)
      else
        let r := s1.outStart d.ctx (some (qp, idx))
        match r.2 with
        | some e => r.1.kvSync.complete qp d e (r.1.swapResult d.ctx 0)
        | none => r.1.kvSync))

/-- SWAP_PAGE_WRITE_DONE: the slot's host write has completed; the PTE names the slot, the page is freed, the next page starts
(R197). A lost table word ends the transfer with the context FAILED, a lost metadata word gives KV_SWAP_OUT the status KV_UE; the
slot is free again in both cases (R208, log entry 85). -/
def execSwapPageWriteDone (c : Nat) (s : State) : Out :=
  .next (s.settle (.swapPageWriteDone c) fun s => if s.kv.held || !s.hostOpen || !s.kvRuns then s else match SMap.find s.kv.outs c with
    | none => s
    | some x =>
      match x.slot, x.todo with
      | some n, (e, p) :: rest =>
        let r := (Job.mk s none).entry c
        let f := ((r.1.setPte c (eRoot r.2) e (n + 2 ^ 25)).refDown p (some (bitOf (eFlags r.2) 1))).finish s
        let x' : Swap := { x with slot := none, todo := rest }
        match f.2 with
        | none => ((f.1.setOut c (some { x' with moved := x.moved + 1 })).outNext (rest.length + 1) c).kvSync
        | some st =>
          let s1 := f.1.slotSet n false
          if st = stKV_UE then ((s1.setOut c (some { x' with st := st })).outNext (rest.length + 1) c).kvSync
          else s1.outEnds c x' st
      | _, _ => s)

/-- KV_SWAP_IN (R199); one that found the pool short stays and is tried again by the same command. -/
def execKvSwapIn (qp idx : Nat) (s : State) : Out :=
  let attempt (s : State) (d : Descr) : State :=
    match s.swapEntry qp d with
    | (s1, .error e) => s1.kvSync.complete qp d e []
    | (s1, .ok b) =>
      if eState b ≠ cSWAPPED then s1.complete qp d stSTATE (s1.swapResult d.ctx 0)
      else
        let r := s1.inStart d.ctx (some (qp, idx)) []
        match r.2.2 with
        | some e => r.1.kvSync.complete qp d e (r.1.swapResult d.ctx 0)
        | none =>
          if r.2.1 then r.1.kvSync
          else { r.1.kvSync with kv := { r.1.kvSync.kv with short := r.1.kv.short ++ [(qp, idx)] } }
  .next (s.settle (.kvSwapIn qp idx) fun s => if s.kv.short.contains (qp, idx) then
      match s.descr qp idx with
      | none => s
      | some d =>
        if s.swapping d.ctx || !s.kvRuns then s
        else attempt { s with kv := { s.kv with short := s.kv.short.filter (· ≠ (qp, idx)) } } d
    else s.withKv qp idx 0x14 (fun _ => true) attempt)

/-- Give up a swap-in whose slot does not match: pages restored so far and pages placed are freed, SWAP_AUTH is set, the context is
FAILED (R199). -/
def State.inFails (s : State) (c : Nat) (x : Swap) : State :=
  let r := (Job.mk s none).entry c
  let conf := some (bitOf (eFlags r.2) 1)
  let j1 := x.restored.foldl (fun (a : Job) e =>
    let v := a.pte c (eRoot r.2) e
    (v.1.setPte c (eRoot r.2) e 0).refDown (ptePfn v.2) conf) r.1
  let j2 := x.placed.foldl (fun (a : Job) p => a.refDown p conf) j1
  let f := j2.finish s
  (f.1.event F.KVM_STAT_SWAP_AUTH 0).inEnds c x stSWAP_AUTH
/-- A lost table word ends a swap-in: pages placed and not yet named by a PTE are freed (R208). -/
def State.inLost (s : State) (c : Nat) (x : Swap) (conf : Bool) (st : Nat) : State :=
  (x.placed.foldl (fun (a : State) p => ((Job.mk a none).refDown p (some conf)).finish a |>.1) s).inEnds c x st

/-- SWAP_PAGE_READ_DONE: the slot's bytes are checked, decrypted and written, the PTE made valid, the slot freed (R199). A lost sequence
table entry or table word ends it with the context FAILED (R208). -/
def execSwapPageReadDone (c : Nat) (data : List Byte) (s : State) : Out :=
  .next (s.settle (.swapPageReadDone c data) fun s => if s.kv.held || !s.slotAsked c || !s.kvRuns then s else match SMap.find s.kv.ins c with
    | none => s
    | some x =>
      match x.todo, x.placed with
      | (e, n) :: rest, p :: ps =>
        let r := (Job.mk s none).entry c
        let b := r.2
        let h := slotHead c e (eGen b) (eSwaps b) (eD b)
        let key := r.1.st.swapKey c (eGen b)
        let ct := (data.drop 64).take (128 * eD b)
        if r.1.err.isSome then (let g := r.1.finish s; g.1.inEnds c x (g.2.getD stCTX_FAILED))
        else match if data.take 16 = h then gcmUnseal key.2 (slotIv c e (eGen b) (eSwaps b)) (ct ++ (data.drop 16).take 16) h else none with
        | some pt =>
          let s1 := (key.1.vectorsWrite 32 (2 ^ 15 * p) (eD b) (pt.take (64 * eD b))).vectorsWrite 32 (2 ^ 15 * p + 16384) (eD b)
            (pt.drop (64 * eD b))
          let f := ((Job.mk s1 none).setPte c (eRoot b) e (p + 2 ^ 24)).finish s1
          match f.2 with
          | some st => f.1.inLost c x (bitOf (eFlags b) 1) st
          | none =>
            let s2 := f.1.slotSet n false
            let x' : Swap := { x with todo := rest, placed := ps, moved := x.moved + 1, restored := x.restored ++ [e] }
            if rest = [] then s2.inEnds c x' stOK else (s2.setIn c (some x')).kvSync
        | none => key.1.inFails c x
      | _, _ => s)

/-! ### PREFIX_PIN (R195) -/

/-- Walk the READY nodes of a prefix, adding to or subtracting from PINS: the number found. -/
def State.pinGo : Nat → State → List Byte → Nat → Nat → Nat → Nat → Bool → List Nat → Nat → State × Nat
  | 0, s, _, _, _, _, _, _, _, n => (s, n)
  | fuel + 1, s, key, h, b, ns, shape, pin, toks, n =>
    let h' := blockHash key h (toks.take 32)
    let f := s.findNode h' ns b shape
    match f.2 with
    | none => (f.1, n)
    | some (k, nb) =>
      if !nodeReady nb then (f.1, n)
      else
        let v := leAt nb 20 4
        let s1 := (f.1.daWrite (f.1.nodeDa k) (putAt nb 20 4 (if pin then v + 1 else v - 1))).1
        State.pinGo fuel (s1.dirUse ⟨h', ns, b, k⟩) key h' (b + 1) ns shape pin (toks.drop 32) (n + 1)

/-- PREFIX_PIN. -/
def execPrefixPin (qp idx : Nat) (s : State) : Out :=
  .next (s.settle (.prefixPin qp idx) fun s => s.withKv qp idx 0x15 (fun _ => true) (fun s d =>
    let f := (s.qpFunc qp).getD 0
    let p := d.u 24 4
    match s.headVerdict qp d (bodyZero d [(16, 6), (24, 4), (32, 8)] && d.u 16 1 ≤ 1 && p < 2 ^ 20) true with
    | some e => s.complete qp d e []
    | none =>
      match if p = 0 then none else s.daVerdict f (d.u 32 8) (4 * p) with
      | some e => s.complete qp d e []
      | none =>
        let t := s.daRead (d.u 32 8) (4 * p) 4
        match t.2.2 with
        | some _ => t.1.complete qp d stDRAM_UE []
        | none =>
          let k := t.1.nsKey (d.u 20 2) 0
          let r := if k.1.flag F.PFX_CFG_EN 0 then
              State.pinGo (p / 32) k.1 k.2 0 0 (d.u 20 2) (d.u 17 3) (d.u 16 1 = 0) (words4 p t.2.1) 0
            else (k.1, 0)
          r.1.kvSync.complete qp d stOK (leBytes 4 r.2)))

/-! ### Start and stop (R209) -/

/-- The ranges [lo, hi) of the KV manager's tables. -/
def State.kvTables (s : State) : List (Nat × Nat) :=
  let r (a n : Nat) : Nat × Nat := (a, a + n)
  [r (s.seqDa 0) (128 * s.ctxCount), r (s.metaDa 0) (130 * 2 ^ 20), r (s.placeDa 0) 4096,
   r (s.nodeDa 0) (64 * 2 ^ s.fget F.PFX_CFG_NODE_LOG2 0)]
/-- The pool of each slice as a range. -/
def State.kvPools (s : State) : List (Nat × Nat) :=
  (List.range 128).map (fun t =>
    let a := 2 ^ 32 * t + 2 ^ 15 * s.fget F.KVM_POOL_OFF_OFF 0
    (a, a + 2 ^ 15 * s.fget F.KVM_POOL_PAGES t))
def rangesMeet (a b : Nat × Nat) : Bool := decide (a.1 < b.2 ∧ b.1 < a.2)
/-- No two of a list overlap. -/
def noOverlap : List (Nat × Nat) → Bool
  | [] => true
  | r :: rs => rs.all (fun x => !rangesMeet r x) && noOverlap rs
/-- The check of R209. -/
def State.kvConfigOk (s : State) : Bool :=
  let c := s.fget F.KVM_SEQ_HI_CTX_LOG2 0
  let n := s.fget F.PFX_CFG_NODE_LOG2 0
  s.kvTables.all (fun r => decide (r.2 ≤ 2 ^ 39)) && noOverlap s.kvTables
    && (List.range 128).all (fun t => decide (s.fget F.KVM_POOL_OFF_OFF 0 + s.fget F.KVM_POOL_PAGES t ≤ 131072))
    && s.kvTables.all (fun r => s.kvPools.all (fun p => p.1 == p.2 || !rangesMeet r p))
    && decide (10 ≤ c ∧ c ≤ 20 ∧ 8 ≤ n ∧ n ≤ 22)

/-- KVM_RUN: a write of `KVM_CTL.RUN` = 1. -/
def execKvmRun (s : State) : Out :=
  .next (if s.flag F.KVM_CTL_RUN 0 then s
    else if !s.kvConfigOk then s.event F.KVM_STAT_CFG_ERR 0
    else
      let s1 := s.fput F.KVM_CTL_RUN 0 1
      if s1.kv.inited then s1 else { s1 with kv := { s1.kv with inited := true, initing := true } })
/-- KVM_STOP: a write of `KVM_CTL.RUN` = 0; every context's state is kept. -/
def execKvmStop (s : State) : Out := .next (s.fput F.KVM_CTL_RUN 0 0)

/-- The pool pages of a slice in the order of its first free list, which the spec leaves open. -/
def State.poolOrder (s : State) (t : Nat) : List Nat :=
  let a := 2 ^ 17 * t + s.fget F.KVM_POOL_OFF_OFF 0
  ((List.range (s.fget F.KVM_POOL_PAGES t)).map (a + ·)).mergeSort (fun x y => decide (Config.poolRank x ≤ Config.poolRank y))
/-- Build the free list of a slice, last page first. -/
def State.buildList (s : State) (t : Nat) : State := (s.poolOrder t).foldr (fun p a => a.joinFree p) s
/-- KVM_INIT_DONE: every context FREE, the free lists built, the bitmap and the node table cleared, READY reads 1. -/
def execKvmInitDone (s : State) : Out :=
  .next (s.settle (.kvmInitDone) fun s => if !s.kv.initing then s
    else
      let s1 := (List.range s.ctxCount).foldl (fun a c => (a.daWrite (a.seqDa c) (zeros 8)).1) s
      let s2 : State := { s1 with kv := { Kv.empty with inited := true, order := s1.kv.order } }
      let s3 := (List.range 128).foldl (fun a t => a.buildList t) s2
      let s4 := (s3.daWrite (s3.slotDa 0) (zeros (2 ^ 21))).1
      let s5 := (s4.daWrite (s4.nodeDa 0) (zeros (64 * 2 ^ s4.fget F.PFX_CFG_NODE_LOG2 0))).1
      (s5.fput F.KVM_CTL_READY 0 1).kvSync)

end Sys2Proof.Machine
end

