-- ==== Sys2Proof/Machine/Copy.lean ====
section
/-! DEFINITION. COPY (R240, R253, R349, R352 to R354, R383 to R385). -/

namespace Sys2Proof.Machine

/-- A COPY body; `live` says whether it writes host memory: one that an FLR or the loss of the link has overtaken does not. -/
structure CopyD where
  live : Bool
  ss : Nat
  ds : Nat
  st : Nat
  dt : Nat
  len : Nat
  sa : Nat
  da : Nat
  rows : Nat
  sstr : Int
  dstr : Int
  deriving DecidableEq, Repr
def Descr.copy (d : Descr) : CopyD :=
  ⟨true, d.u 16 1, d.u 17 1, d.u 18 1, d.u 19 1, d.u 20 4, d.u 24 8, d.u 32 8, d.u 40 4 + 1, d.i32 44, d.i32 48⟩
/-- Address of row `r`. -/
def rowAddr (base : Nat) (stride : Int) (r : Nat) : Int := (base : Int) + stride * (r : Int)
/-- The lowest and the highest row address. -/
def rowEnds (base : Nat) (stride : Int) (rows : Nat) : Int × Int :=
  let z := rowAddr base stride (rows - 1)
  (min (base : Int) z, max (base : Int) z)

/-- The verdict on one end of a COPY: address errors of its space, then the slices of R240. -/
def State.copyEnd (s : State) (f space tile base len : Nat) (stride : Int) (rows : Nat) : Option Nat :=
  let e := rowEnds base stride rows
  if space = 0 then
    if e.1 < 0 || (2 ^ 39 : Int) < e.2 + len then some stADDR
    else if !(s.daAllowed f e.1.toNat && s.daAllowed f (e.2.toNat + len - 1)) then some stADDR_RANGE
    else none
  else if space = 2 then if 127 < tile || e.1 < 0 || (2 ^ 23 : Int) < e.2 + len then some stADDR else none
  else none

/-! ### Confidential mode (R349, R353, R354) -/

/-- A context with CONF = 1 that is not FREE; its session. -/
def State.confCtx (s : State) (c : Nat) : Bool := s.kv.ctxs.contains c && bitOf (s.peek8 (s.seqDa c) / 256) 1
def State.ctxSid (s : State) (c : Nat) : Nat := SMap.get s.kv.sid c 0
/-- The program region and the output window. -/
def State.progRegion (s : State) : Nat × Nat :=
  let b := s.kvBase .SEC_PROG_LO .SEC_PROG_HI 20
  (b, b + 2 ^ 20 * s.fget F.SEC_PROG_LEN_LEN 0)
def State.outWindow (s : State) : Nat × Nat :=
  let b := s.kvBase .SEC_OWIN_LO .SEC_OWIN_HI 20
  (b, b + 2 ^ 20 * s.fget F.SEC_OWIN_LEN_LEN 0)
/-- Tables named by an ENR, EXH, VRX or FXR base register. -/
def State.otherTables (s : State) : List (Nat × Nat) :=
  let r (a n : Nat) : Nat × Nat := (a, a + n)
  [r (s.kvBase .ENR_ACC_LO .ENR_ACC_HI 26) (2 ^ 26), r (s.kvBase .ENR_QUEUE_LO .ENR_QUEUE_HI 27) (2 ^ 27),
   r (s.kvBase .ENR_STORE_LO .ENR_STORE_HI 24) (128 * 2 ^ s.fget F.ENR_STORE_CFG_LOG2 0 + 4096 * 4096),
   r (s.kvBase .EXH_BASE_LO .EXH_BASE_HI 21) (2 ^ 21), r (s.kvBase .VRX_PEER_LO .VRX_PEER_HI 20) (2 ^ 20),
   r (s.get64 .VRX_RXPOOL_LO .VRX_RXPOOL_HI 0) (2 ^ (13 + s.fget F.VRX_RXPOOL_SLOT_LOG2 0) * s.fget F.VRX_RXPOOL_SLOTS 0)]
  ++ (List.range 128).map (fun t => r ((s.aget .FXR_BASE_LO t).toNat + 2 ^ 32 * (s.aget .FXR_BASE_HI t).toNat) (64 + 64 * 2 ^ s.fget F.FXR_CFG_LOG2 t))
/-- Some row of a destination lies in a place that R349 protects. -/
def State.copyProtected (s : State) (c : CopyD) : Bool :=
  let areas := s.kvTables ++ s.kvPools.filter (fun p => p.1 != p.2) ++ s.otherTables ++ [s.progRegion, s.outWindow]
  (List.range c.rows).any (fun r => let a := (rowAddr c.da c.dstr r).toNat
    areas.any (fun x => rangesMeet (a, a + c.len) x))
/-- Every output record that a sealed COPY covers carries its context and GEN (R354). -/
def State.sealable (s : State) (c : CopyD) (ctx : Nat) : Bool :=
  let w := s.outWindow
  s.confCtx ctx && c.rows == 1 && c.sa % 4096 == 0 && c.len % 4096 == 0 && decide (w.1 ≤ c.sa ∧ c.sa + c.len ≤ w.2)
    && (List.range (c.len / 4096)).all (fun i =>
      s.peek8 (c.sa + 4096 * i) == ctx + 2 ^ 32 * (s.peek8 (s.seqDa ctx + 32) / 2 ^ 32))
/-- A COPY that confidential mode refuses. -/
def State.copyDenied (s : State) (c : CopyD) (ctx : Nat) : Bool :=
  s.conf && (c.ds == 0 && s.copyProtected c || c.ss == 0 && c.ds == 0 || c.ss == 2 && c.ds == 1
    || c.ss == 0 && c.ds == 1 && !s.sealable c ctx
    || c.ss == 1 && c.ds == 0 && s.confCtx ctx && (c.rows != 1 || decide (c.len < 64)))

/-! ### The checks before a COPY starts -/

def State.copyVerdict (s : State) (q : Nat) (d : Descr) : Option Nat :=
  let f := (s.qpFunc q).getD 0
  let c := d.copy
  match s.headVerdict q d (bodyZero d [(16, 36)]) false with
  | some e => some e
  | none =>
    if 2 < c.ss || 2 < c.ds || c.len = 0 || 2 ^ 20 ≤ c.len || 2 ^ 24 < c.rows then some stBAD_DESC
    else match s.copyEnd f c.ss c.st c.sa c.len c.sstr c.rows, s.copyEnd f c.ds c.dt c.da c.len c.dstr c.rows with
      | some e, _ => some e
      | none, some e => some e
      | none, none => if s.copyDenied c d.ctx then some stCONF_DENIED else none

/-- The base-die reset of W0 that absorbs host transfers (R385). -/
def State.hostAbsorbed (s : State) : Bool :=
  s.fget F.RST_STATE_PHASE 0 != 0 && s.fget F.RST_STATE_SCOPE 0 == 3 && s.fget F.RST_STATE_TARGET 0 == 0 && s.rst.absorb
/-- One end names the tower. -/
def endInTower (w space tile base len : Nat) (stride : Int) (rows : Nat) : Bool :=
  if space = 2 then towerOf tile == w
  else space == 0 && (List.range rows).any (fun r =>
    let a := (rowAddr base stride r).toNat
    decide (a / 2 ^ 37 ≤ w ∧ w ≤ (a + len - 1) / 2 ^ 37))
/-- What a scratchpad end answers before the rows move: the engine's state (R75, R383), and banks that are wiping (R113). -/
inductive EndRes where | ok | wait | wake | fail (st : Nat)
  deriving DecidableEq, Repr
def State.endGrant (s : State) (tile base len : Nat) (stride : Int) (rows : Nat) : EndRes :=
  match s.admission tile with
  | .refuse => .fail stENGINE_FENCED
  | .hold => .wake
  | .deliver => if (List.range rows).any (fun r => s.wipeWait tile (rowAddr base stride r).toNat len) then .wait else .ok
def State.copyGrant (s : State) (c : CopyD) : EndRes :=
  let a := if c.ss = 2 then s.endGrant c.st c.sa c.len c.sstr c.rows else .ok
  let b := if c.ds = 2 then s.endGrant c.dt c.da c.len c.dstr c.rows else .ok
  match a, b with
  | .fail e, _ => .fail e
  | _, .fail e => .fail e
  | .ok, .ok => .ok
  | .wake, _ => .wake
  | _, .wake => .wake
  | _, _ => .wait
/-- A clock-gated engine at either end is asked to wake. -/
def State.wakeEnds (s : State) (c : CopyD) : State :=
  let w (a : State) (space tile : Nat) : State :=
    if space = 2 && (a.eng tile).power == .lull1 then a.setEng tile { a.eng tile with wake := true } else a
  w (w s c.ss c.st) c.ds c.dt

/-! ### Moving the rows -/

/-- The status and the atom with which a row access of a scratchpad ends a COPY (R107, R118, R256). -/
def rowFail : RowRes → Option (Nat × Nat)
  | .error .spmOwner => some (stSPM_OWNER, 0)
  | .error _ => some (stDRAM_UE, 0)
  | _ => none
/-- Read one row: its bytes before what stopped it, and that. -/
def State.copyRead (s : State) (c : CopyD) (r : Nat) : State × List Byte × Option (Nat × Nat) :=
  let a := (rowAddr c.sa c.sstr r).toNat
  if c.ss = 0 then let q := s.daRead a c.len 3
    (q.1, q.2.1, q.2.2.map (fun x => (stDRAM_UE, x - x % 256)))
  else let q := State.segsRead s c.st .remote (bankSegs 17 a c.len) []
    (q.1, q.2.1, rowFail q.2.2)
/-- Write one row; the word that it could not merge into, or the bank that refused it (R107, R135). -/
def State.copyWrite (s : State) (c : CopyD) (r : Nat) (bs : List Byte) (portA : List Nat) : State × Option (Nat × Nat) :=
  let a := (rowAddr c.da c.dstr r).toNat
  if c.ds = 0 then let q := s.daWrite a bs
    (q.1, q.2.map (fun x => (stDRAM_UE, x - x % 256)))
  else if c.ds = 1 then
    (if c.live then s.hostWrite ((rowAddr c.da c.dstr r) % (2 ^ 64 : Int)).toNat bs else s, none)
  else let q := State.segsWrite [] (bankSegs 17 a bs.length) s c.dt .copy bs portA
    (q.1, rowFail q.2)
/-- Move rows in order until one fails: bytes written, and what stopped it. -/
def State.copyGo : Nat → State → CopyD → Nat → Nat → List Nat → State × Nat × Option (Nat × Nat)
  | 0, s, _, _, n, _ => (s, n, none)
  | k + 1, s, c, r, n, portA =>
    let x := s.copyRead c r
    let y := x.1.copyWrite c r x.2.1 portA
    match x.2.2, y.2 with
    | some e, none => (y.1, n + x.2.1.length, some e)
    | _, some e => (y.1, n, some e)
    | none, none => State.copyGo k y.1 c (r + 1) (n + x.2.1.length) portA
/-- Rows of host data into their destination. -/
def State.copyIn : Nat → State → CopyD → Nat → Nat → List Byte → List Nat → State × Nat × Option (Nat × Nat)
  | 0, s, _, _, n, _, _ => (s, n, none)
  | k + 1, s, c, r, n, bs, portA =>
    let y := s.copyWrite c r (bs.take c.len) portA
    match y.2 with
    | some e => (y.1, n, some e)
    | none => State.copyIn k y.1 c (r + 1) (n + c.len) (bs.drop c.len) portA
/-- RESULT of a COPY. -/
def copyResult (n : Nat) (da : Option Nat) : List Byte := leBytes 8 n ++ leBytes 8 (da.getD 0)
/-- The end of a COPY. -/
def State.copyEnds (s : State) (q : Nat) (d : Descr) (r : Nat × Option (Nat × Nat)) : State :=
  s.complete q d ((r.2.map (·.1)).getD stOK) (copyResult r.1 (r.2.map (·.2)))

/-- A sealed COPY of the output window (R354): header and ciphertext at DADDR; an uncorrectable source writes nothing. -/
def State.copySeal (s : State) (q : Nat) (d : Descr) : State :=
  let c := d.copy
  let r := s.daRead c.sa c.len 3
  match r.2.2 with
  | some da => r.1.copyEnds q d (0, some (stDRAM_UE, da - da % 256))
  | none =>
    let o := r.1.sealOut (r.1.ctxSid d.ctx) d.ctx r.2.1
    (o.1.descrWrite q d.idx c.da o.2).copyEnds q d (o.2.length, none)
/-- Host data of a COPY whose CTX names a context with CONF = 1 (R353). -/
def State.copyOpen (s : State) (q : Nat) (d : Descr) (bs : List Byte) : State :=
  let c := d.copy
  let r := s.unseal (bs.take 64) (bs.drop 64) (c.len - 64) (s.ctxSid d.ctx)
  match r.2 with
  | some pt => let w := r.1.daWrite c.da pt
    w.1.copyEnds q d (if w.2.isSome then 0 else pt.length, w.2.map (fun x => (stDRAM_UE, x - x % 256)))
  | none => (((r.1.daWrite c.da (zeros (c.len - 64))).1).authFail).complete q d stCONF_DENIED (copyResult 0 none)

/-- COPY: moves its rows, or waits for host memory with a read that HOST_READ_COMPLETION ends. `portA` are the scratchpad words
that port A of an exchange bank writes in the same tc (R109). -/
def execCopyRows (qp idx : Nat) (portA : List Nat) (s : State) : Out :=
  .next (s.settle (.copyRows qp idx portA) fun s => match s.descr qp idx with
    | none => s
    | some d =>
      if d.type ≠ 2 || !s.mayStart qp d then s.withDescr qp idx [] (fun s _ => s)
      else
        let c := d.copy
        let go := s.markStarted qp d
        let d1 : Descr := { d with started := true, since := s.clk.ns }
        match s.copyVerdict qp d with
        | some e => go.complete qp d1 e (copyResult 0 none)
        | none =>
          let shut := s.resetTower.any (fun w => endInTower w c.ss c.st c.sa c.len c.sstr c.rows
            || endInTower w c.ds c.dt c.da c.len c.dstr c.rows)
          let host := c.ss == 1 || c.ds == 1
          if shut then go.complete qp d1 stPATH_RESET (copyResult 0 none)
          else if host && s.hostAbsorbed then (go.event F.RST_STAT_ABSORBED 0).complete qp d1 stPATH_RESET (copyResult 0 none)
          else if host && !s.hostOpen then s.ideWait
          else match s.copyGrant c with
            | .fail e => go.complete qp d1 e (copyResult 0 none)
            | .wait => s
            | .wake => s.wakeEnds c
            | .ok =>
              if c.ss = 1 && !s.mayRead then s
              else if c.ss = 1 then go.setDescr qp { d1 with prog := 1 }
              else if s.conf && c.ss == 0 && c.ds == 1 then go.copySeal qp d1
              else
                let r := State.copyGo c.rows go c 0 0 portA
                r.1.copyEnds qp d1 r.2)

/-- The host read of a COPY returns, or fails (R258, R271, R385). -/
def State.copyReturn (s : State) (qp idx : Nat) (ok : Bool) (data : List Byte) (portA : List Nat) : State :=
  match s.descr qp idx with
  | none => s
  | some d =>
    let c : CopyD := { d.copy with live := !s.descrDead qp idx }
    if d.type ≠ 2 || !d.started || d.prog ≠ 1 then s
    else if s.hostAbsorbed then (s.event F.RST_STAT_ABSORBED 0).complete qp d stPATH_RESET (copyResult 0 none)
    else if !ok then (s.event F.CMD_STAT_HOST_ERR ((s.qpFunc qp).getD 0)).complete qp d stHOST_ACCESS (copyResult 0 none)
    else if data.length ≠ c.rows * c.len then s
    else if c.ds = 1 then
      let r := State.copyIn c.rows s c 0 0 data portA
      r.1.copyEnds qp d r.2
    else if c.ds = 2 then
      match s.copyGrant { c with ss := 1 } with
      | .fail e => s.complete qp d e (copyResult 0 none)
      | .wait => s
      | .wake => s.wakeEnds c
      | .ok => let r := State.copyIn c.rows s c 0 0 data portA
        r.1.copyEnds qp d r.2
    else if s.resetTower.any (fun w => endInTower w c.ds c.dt c.da c.len c.dstr c.rows) then s.complete qp d stPATH_RESET (copyResult 0 none)
    else if s.conf && s.confCtx d.ctx then s.copyOpen qp d data
    else
      let r := State.copyIn c.rows s c 0 0 data portA
      r.1.copyEnds qp d r.2

end Sys2Proof.Machine
end

