-- ==== Sys2Proof/Machine/FabOps.lean ====
section
/-! DEFINITION. The Varrax transport's shared operations: ports, packets, connections, messages, credit, the expert home table
(R213 to R238), the ranks and repair requests of a broadcast (R417, R419), and the record of a divergence (R370). -/

namespace Sys2Proof.Machine

/-! ### Divergence (R370) -/

/-- Causes of `LCK_DIV_PT.CAUSE`. -/
def dvDIGEST : Nat := 0
def dvMODE : Nat := 1
def dvNTASK : Nat := 2
def dvTIMEOUT : Nat := 3
def dvPEER : Nat := 4
def dvFW : Nat := 5
def dvUE : Nat := 6
/-- Record a divergence, or count it while a record is held. -/
def State.diverge (s : State) (num cause task tile ptile : Nat) : State :=
  if s.flag F.LCK_DIV_LOC_VALID 0 then s.fadd F.LCK_DIVCNT_COUNT 0 1
  else
    (((((s.fput F.LCK_DIV_NUM_NUM 0 num).rput .LCK_DIV_LOC 0 (BitVec.ofNat 32 (task + 2 ^ 24 * tile + 2 ^ 31))).fput
      F.LCK_DIV_PT_PTILE 0 ptile).fput F.LCK_DIV_PT_CAUSE 0 cause).event F.LCK_STAT_DIVERGE 0).raise 0x4D 0 num cause

/-! ### Records -/

def State.port (s : State) (p : Nat) : Port := SMap.get s.fab.ports p Port.empty
def State.setPort (s : State) (p : Nat) (x : Port) : State := { s with fab := { s.fab with ports := SMap.put s.fab.ports p x } }
def State.peer (s : State) (i : Nat) : Peer := SMap.get s.fab.peers i Peer.empty
def State.setPeer (s : State) (i : Nat) (x : Peer) : State := { s with fab := { s.fab with peers := SMap.put s.fab.peers i x } }
def State.self (s : State) : Nat := s.fget F.VRX_CFG_SELF 0

/-! ### Port states (R213) -/

def fpOFF : Nat := 0
def fpTRAIN : Nat := 1
def fpUP : Nat := 2
def fpDEGRADED : Nat := 3
def fpRETRAIN : Nat := 4
def fpFENCED : Nat := 5
def State.portState (s : State) (p : Nat) : Nat := s.fget F.FAB_STATE_STATE p
def State.portLive (s : State) (p : Nat) : Bool := s.portState p == fpUP || s.portState p == fpDEGRADED
/-- In the spray set: up and keyed. -/
def State.sprays (s : State) (p : Nat) : Bool := s.portLive p && s.flag F.FAB_STATE_KEYED p
def State.pmask (s : State) : Nat := (List.range 8).foldl (fun a p => if s.sprays p then a + 2 ^ p else a) 0
/-- The weight of a port in the spray (R219). -/
def State.portWeight (s : State) (p : Nat) : Nat := match s.fget F.FAB_STATE_WIDTH p with | 0 => 4 | 1 => 2 | _ => 1

def State.setPortState (s : State) (p v : Nat) : State := s.fput F.FAB_STATE_STATE p v
/-- A port stops carrying data: not keyed, no key being distributed, no lanes in use. -/
def State.portDark (s : State) (p : Nat) : State :=
  (((s.fput F.FAB_STATE_KEYED p 0).fput F.FAB_STATE_LANES p 0).fput F.FAB_STATE_WIDTH p 0).setPort p
    { s.port p with newKey := none, waitKey := [], attempt := none }

/-- A port is OFF: DOWN when it carried data (R213). -/
def State.portOff (s : State) (p : Nat) : State :=
  ((if s.portLive p then s.event F.FAB_STAT_DOWN p else s).portDark p).setPortState p fpOFF

/-! ### The peer table (R217, R233) -/

/-- Peer states; the table's layout is the model's (log entry 19): bytes 0 to 15 the prefix, byte 16 the state. -/
def psFREE : Nat := 0
def psVALID : Nat := 1
def psREMOVING : Nat := 2
def psUNREACH : Nat := 3
def State.peerDa (s : State) (i : Nat) : Nat := s.kvBase .VRX_PEER_LO .VRX_PEER_HI 20 + 64 * i
/-- A word of [da, da + 8n) is uncorrectable. -/
def State.lostAt (s : State) (da n : Nat) : Bool :=
  (List.range n).any (fun k => (s.wordLook (s.atomPlace (da + 8 * k) + (da + 8 * k) % 256)).2 == .bad)
/-- Set a peer's state; an entry with an uncorrectable word stays as it is until host software rewrites it (R238). -/
def State.setPeerState (s : State) (i v : Nat) : State :=
  let r := s.daRead (s.peerDa i) 24 4
  if r.2.2.isSome then r.1 else (r.1.daWrite (s.peerDa i + 16) (putAt ((padTo 24 r.2.1).drop 16) 0 1 v)).1
/-- The state of a peer's entry; an uncorrectable word marks it UNREACH (R238). -/
def State.peerState (s : State) (i : Nat) : State × Nat :=
  if i = s.self then (s, psVALID)
  else
    let r := s.daRead (s.peerDa i) 24 4
    match r.2.2 with
    | none => (r.1, leAt r.2.1 16 1 % 4)
    | some _ => (r.1, psUNREACH)
/-- A peer's state as the table's words give it. -/
def State.peerPeek (s : State) (i : Nat) : Nat :=
  if s.lostAt (s.peerDa i) 3 then psUNREACH else s.peek8 (s.peerDa i + 16) % 4
/-- The peers whose entry says VALID, in ascending id. -/
def State.validPeers (s : State) : List Nat := (List.range 16384).filter (fun i => i != s.self && s.peerPeek i == psVALID)
/-- A peer's prefix, its bytes 0 to 15 as one number. -/
def State.peerPrefix (s : State) (i : Nat) : Nat := s.peek8 (s.peerDa i) + 2 ^ 64 * s.peek8 (s.peerDa i + 8)
/-- The module's own prefix. -/
def State.ownPrefix (s : State) : Nat :=
  (List.range 4).foldl (fun a n => a + 2 ^ (32 * n) * (s.rget .VRX_IP n).toNat) 0
/-- The address of a port: the low three bits are its number (R214). -/
def portAddr (pre p : Nat) : Nat := pre / 8 * 8 + p

/-! ### Packets (R214, R215, R219, R234) -/

/-- OP codes of R216. -/
def opWRITE : Nat := 0x01
def opREAD_REQ : Nat := 0x02
def opREAD_RSP : Nat := 0x03
def opFETCH_ADD : Nat := 0x04
def opFETCH_RSP : Nat := 0x05
def opTOK : Nat := 0x08
def opNACK : Nat := 0x09
def opCREDIT : Nat := 0x10
def opACK : Nat := 0x11
def opOPEN : Nat := 0x12
def opKEYX : Nat := 0x13
def opGEN : Nat := 0x18
def opMARK : Nat := 0x19
def opFW : Nat := 0x20
def opLSTEP : Nat := 0x28
def opTIME : Nat := 0x30
def vrxOps : List Nat := [0x01, 0x02, 0x03, 0x04, 0x05, 0x08, 0x09, 0x10, 0x11, 0x12, 0x13, 0x18, 0x19, 0x20, 0x28, 0x30]
/-- OPs that an unkeyed port carries (R235). -/
def opUnkeyed (op : Nat) : Bool := op == opOPEN || op == opKEYX
/-- OPs outside the PSN sequence (log entry 21). -/
def opControl (op : Nat) : Bool := op == opACK || op == opOPEN

/-- Difference of two 32-bit counts. -/
def dist32 (a b : Nat) : Nat := (a + 2 ^ 32 - b % 2 ^ 32) % 2 ^ 32
/-- SACK: bit i says that PSN ACK_PSN + 1 + i has been received. -/
def Peer.sack (x : Peer) : Nat :=
  (List.range 128).foldl (fun v i => if x.rxGot.contains ((x.rxBase + 1 + i) % 2 ^ 32) then v + 2 ^ i else v) 0
/-- Messages whose end waits for their effect at the receiver, since a refusal answers them (R221, R229, R231). -/
def opEffect (op : Nat) : Bool := op == opWRITE || op == opTOK || op == opGEN
/-- The lowest MSN without effect, or whose refusing reply the peer has not acknowledged: an ACK carries it in its MSN field (log
entry 21). -/
def Peer.effAck (x : Peer) : Nat := x.hold.foldl (fun a h => if dist32 h.1 a < 2 ^ 31 then a else h.1) x.rxDone

/-- The key index of a port in use. -/
def State.keyIdx (s : State) (p : Nat) : Nat := s.fget F.FAB_STATE_KEY p
/-- The port is keyed and the peer holds its key: everything that it sends there has ENC = 1 (R235). -/
def State.keyedFor (s : State) (i p : Nat) : Bool := s.flag F.FAB_STATE_KEYED p && (s.peer i).holds.contains (p, s.keyIdx p)
/-- The ports that may carry a packet of `op` to peer `i`: live and keyed for it, while the peer has a keyed port; OPEN and KEYX take a
port that is not keyed for the peer where no other is live (R213, R235). -/
def State.portsFor (s : State) (i op : Nat) : List Nat :=
  let live := (List.range 8).filter s.portLive
  let keyed := live.filter (s.keyedFor i)
  if opUnkeyed op then (if keyed = [] then live else keyed) else if (s.peer i).pmask = some 0 then [] else keyed
/-- The next port in the weighted spray. -/
def State.spray (s : State) (ps : List Nat) : State × Option Nat :=
  let l := ps.flatMap (fun p => List.replicate (s.portWeight p) p)
  match l[s.fab.wrr % l.length]? with
  | none => (s, none)
  | some p => ({ s with fab := { s.fab with wrr := s.fab.wrr + 1 } }, some p)
/-- The peer's port to which a packet goes: round robin over its PMASK; any port before it has sent one (log entry 16). -/
def State.dportOf (s : State) (i : Nat) : State × Nat :=
  let x := s.peer i
  let l := bitList (x.pmask.getD 0) 8
  match l[x.rr % l.length]? with
  | some p => (s.setPeer i { x with rr := x.rr + 1 }, p)
  | none => let f := s.free 3
    (f.2, f.1)

/-- The IV of R234, most significant bit first. -/
def linkIv (src sport key pctr : Nat) : List Byte := beBytes 12 (2 ^ 64 * ((2 ^ 14 * ((src * 8 + sport) * 2 + key))) + pctr)

/-- The 16-bit ones' complement sum of big-endian words. -/
def onesSum (b : List Byte) : Nat :=
  ((List.range ((b.length + 1) / 2)).foldl (fun a i => a + leNat ((padTo 2 ((b.drop (2 * i)).take 2)).reverse)) 0)
/-- The UDP checksum over pseudo-header, UDP header and packet (R214; log entry 20). -/
def udpCheck (src dst sp dp : Nat) (b : List Byte) : Nat :=
  let n := b.length + 8
  let v := onesSum (beBytes 16 src ++ beBytes 16 dst ++ beBytes 4 n ++ beBytes 4 17 ++ beBytes 2 sp ++ beBytes 2 dp ++ beBytes 2 n ++ zeros 2 ++ b)
  let c := 65535 - (if v = 0 then 0 else (v - 1) % 65535 + 1)
  if c = 0 then 65535 else c
/-- The MAC's timestamp at the start of frame: Sync carries it as its origin time (R236). -/
def stampAt (ns : Nat) (b : List Byte) : List Byte := b.take 34 ++ beBytes 6 (ns / 1000000000) ++ beBytes 4 (ns % 1000000000) ++ b.drop 44

/-- Send one packet on a port: header, encryption once the port is keyed for this peer, packet counters. The MAC stamps a Sync and notes
the time of a Delay_Req. -/
def State.sendPacket (s : State) (i p op psn msn off mlen tag arg0 arg1 : Nat) (fence last : Bool) (payload : List Byte) : State :=
  let d := s.dportOf i
  let s1 := d.1
  let x := s1.peer i
  let q := s1.port p
  let enc := s1.keyedFor i p
  let key := s1.keyIdx p
  let pay := if op = opTIME && arg0 % 16 = 0 then stampAt s1.clk.ns payload else payload
  let h := leBytes 1 (16 + key * 8 + b2n enc * 4 + b2n fence * 2 + b2n last) ++ leBytes 1 op ++ leBytes 2 s1.self ++ leBytes 2 i
    ++ leBytes 1 p ++ leBytes 1 s1.pmask ++ leBytes 4 psn ++ leBytes 4 x.rxBase ++ leBytes 16 x.sack ++ leBytes 4 msn ++ leBytes 4 off
    ++ leBytes 4 mlen ++ leBytes 4 tag ++ leBytes 8 arg0 ++ leBytes 8 arg1 ++ leBytes 8 q.pctr
  let body := if enc then gcmSeal (SMap.get q.keys key []) (linkIv s1.self p key q.pctr) pay h else pay
  let src := portAddr s1.ownPrefix p
  let dst := portAddr (s1.peerPrefix i) d.2
  let dp := s1.fget F.VRX_CFG_UDP_PORT 0
  let sp := (dp + x.packets % 2 ^ s1.fget F.VRX_CFG2_ENTROPY 0) % 2 ^ 16
  let fr : Frame := ⟨p, src, dst, sp, dp, udpCheck src dst sp dp (h ++ body), h ++ body⟩
  let s2 : State := { (s1.setPort p { q with pctr := q.pctr + 1 }) with
    outs := { s1.outs with frames := s1.outs.frames ++ [fr] }
    fab := { (s1.setPort p { q with pctr := q.pctr + 1 }).fab with t3 := if op = opTIME && arg0 % 16 = 1 then s1.clk.ns else s1.fab.t3 } }
  s2.setPeer i { x with packets := x.packets + 1, ackDue := 0, effDue := x.effDue && op != opACK }
/-- Send a control packet (ACK, OPEN or OPEN_ACK), which carries no payload; an ACK reports effects. -/
def State.sendControl (s : State) (i op arg0 : Nat) : State :=
  let c := s.spray (s.portsFor i op)
  match c.2 with
  | none => c.1
  | some p => c.1.sendPacket i p op (s.peer i).nextPsn (if op = opACK then (s.peer i).effAck else 0) 0 0 0 arg0 0 false true []

/-- Largest payload of a packet. -/
def State.maxPay (s : State) : Nat := 2 ^ (10 + s.fget F.VRX_CFG_MAXPAY 0)

/-- The message to send from next: the first with payload left, or not yet begun, that some port may carry. -/
def State.nextMsg (s : State) (i : Nat) : Option TxMsg :=
  (s.peer i).tx.find? (fun m => (!m.started || decide (m.sent < m.data.length)) && !(s.portsFor i m.op).isEmpty)
/-- Send packets while fewer than 128 are unacknowledged (R217). -/
def State.pumpGo : Nat → State → Nat → State
  | 0, s, _ => s
  | fuel + 1, s, i =>
    let x := s.peer i
    if x.conn ≠ 2 || 128 ≤ x.unacked.length then s
    else match s.nextMsg i with
      | none => s
      | some m =>
        let c := s.spray (s.portsFor i m.op)
        match c.2 with
        | none => s
        | some p =>
          let k := min s.maxPay (m.data.length - m.sent)
          let last := decide (m.data.length ≤ m.sent + k) && (m.data.isEmpty || m.data.length == m.len)
          let pk : TxPkt := ⟨x.nextPsn, m.msn, m.sent, k, last, 1, p, x.nextOrd, 0⟩
          let m' := { m with sent := m.sent + k, started := true }
          let s1 := c.1.setPeer i { c.1.peer i with nextPsn := (x.nextPsn + 1) % 2 ^ 32, nextOrd := x.nextOrd + 1
                                                    tx := x.tx.map (fun y => if y.msn = m.msn then m' else y), unacked := x.unacked ++ [pk] }
          State.pumpGo fuel (s1.sendPacket i p m.op pk.psn m.msn pk.off m.len m.tag m.arg0 m.arg1 m.fence last
            ((m.data.drop m.sent).take k)) i
def State.pump (s : State) (i : Nat) : State := s.pumpGo 128 i

/-! ### The end of a message (R218, R223, R229) -/

/-- Statuses of R223. -/
def vsOK : Nat := 0
def vsUNREACH : Nat := 1
def vsREMOVED : Nat := 2
def vsACCESS : Nat := 3
def vsNO_HOME : Nat := 4
def vsLOCAL_UE : Nat := 5
def vsREMOTE_UE : Nat := 6
def vsNO_KEY : Nat := 7
def vsBAD_DESC : Nat := 8

/-- The status word of a send descriptor. -/
def State.statusWord (s : State) (x : Send) (status old : Nat) : State :=
  if bitOf x.flags 1 && daOk x.sda 16 then (s.daWrite x.sda (leBytes 4 x.tag ++ leBytes 1 status ++ zeros 3 ++ leBytes 8 old)).1 else s
/-- A GEN message to peer `i` has been acknowledged or has failed; the last one completes its EXPERT_MAP (R229). -/
def State.mapAnswer (s : State) (qp idx i : Nat) (ok : Bool) : State :=
  match s.fab.maps.find? (fun m => m.qp == qp && m.idx == idx) with
  | none => s
  | some m =>
    let m' : MapWait := { m with todo := m.todo.filter (· ≠ i), acked := m.acked + b2n ok, failed := m.failed + b2n (!ok) }
    if m'.todo ≠ [] then { s with fab := { s.fab with maps := s.fab.maps.map (fun y => if y.qp = qp && y.idx = idx then m' else y) } }
    else
      let s1 : State := { s with fab := { s.fab with maps := s.fab.maps.filter (fun y => !(y.qp == qp && y.idx == idx)) } }
      let gen := s1.peek8 (s1.kvBase .EXH_BASE_LO .EXH_BASE_HI 21 + 32 * m.slot) % 2 ^ 16
      s1.kvComplete (qp, idx) stOK (leBytes 2 gen ++ leBytes 2 m'.acked ++ leBytes 2 m'.failed)
/-- What its poster sees when a message ends. -/
def State.ownerEnd (s : State) (i : Nat) (o : Owner) (status old : Nat) : State :=
  match o with
  | .ring _ x => s.statusWord x status old
  | .map qp idx => s.mapAnswer qp idx i (status == vsOK)
  | .cut _ _ => s
  | .plain => s
/-- A message ends: it leaves the connection, and effects whose reply it was can be reported. -/
def State.msgEnd (s : State) (i : Nat) (m : TxMsg) (status old : Nat) : State :=
  let x := s.peer i
  (s.setPeer i { x with tx := x.tx.filter (·.msn ≠ m.msn), unacked := x.unacked.filter (·.msn ≠ m.msn)
                        hold := x.hold.filter (·.2 ≠ m.msn), effDue := x.effDue || x.hold.any (·.2 == m.msn) }).ownerEnd i m.owner status old

/-! ### Posting a message -/

/-- Take one slot from the first grant that has one. -/
def takeGrant : List Nat → List Nat
  | [] => []
  | 0 :: l => takeGrant l
  | (n + 1) :: l => if n = 0 then l else n :: l

/-- A message that reaches its receiver: the module's own messages to itself arrive at once. -/
def TxMsg.arrive (m : TxMsg) (now : Nat) (standing : Bool) : RxMsg :=
  ⟨m.msn, m.op, m.fence, 0, 0, m.tag, m.arg0, m.arg1, m.len, [(0, m.data)], some m.data.length, none, now, standing⟩
/-- Post a message to a peer: queued on its connection, which opens on the first one; ended at once when the peer is not VALID. -/
def State.post (s : State) (i op : Nat) (fence : Bool) (tag arg0 arg1 len : Nat) (data : List Byte) (reply : Bool) (o : Owner) : State :=
  let v := s.peerState i
  let s1 := v.1
  let x := s1.peer i
  let m : TxMsg := ⟨x.nextMsn, op, fence, tag, arg0, arg1, len, data, 0, false, reply, o⟩
  if i = s1.self then
    let std := decide (x.rxUsed < s1.fget F.VRX_CRED_FREE 0)
    let y := { x with nextMsn := (x.nextMsn + 1) % 2 ^ 32, rx := x.rx ++ [m.arrive s1.clk.ns std]
                      rxUsed := x.rxUsed + b2n (op == opTOK && std)
                      rxGrants := if op = opTOK && !std then takeGrant x.rxGrants else x.rxGrants
                      tx := x.tx ++ [{ m with started := true, sent := data.length }] }
    s1.setPeer i y
  else if v.2 = psUNREACH then s1.ownerEnd i o vsUNREACH 0
  else if v.2 ≠ psVALID then s1.ownerEnd i o vsREMOVED 0
  else
    let s2 := s1.setPeer i { x with nextMsn := (x.nextMsn + 1) % 2 ^ 32, tx := x.tx ++ [m] }
    if x.conn = 0 then (s2.setPeer i { s2.peer i with conn := 1, opens := 1 }).sendControl i opOPEN 0 else s2.pump i

/-! ### The expert home table (R228, R229, R232, R238) -/

def State.exhDa (s : State) (e : Nat) : Nat := s.kvBase .EXH_BASE_LO .EXH_BASE_HI 21 + 32 * e
/-- Read an entry; an uncorrectable word makes the slot ABSENT and raises EXH_UE. -/
def State.exhRead (s : State) (e : Nat) : State × List Byte :=
  let r := s.daRead (s.exhDa e) 32 4
  match r.2.2 with
  | none => (r.1, r.2.1)
  | some _ => (r.1.raise 0x47 0 e 0, zeros 32)
/-- An uncorrectable word stands in the entry until an EXPERT_MAP rewrites it (R238). -/
def State.exhLost (s : State) (e : Nat) : Bool := s.lostAt (s.exhDa e) 4
def xGen (b : List Byte) : Nat := leAt b 0 2
def xLive (b : List Byte) : Bool := leAt b 2 1 == 1
def xNrep (b : List Byte) : Nat := leAt b 3 1 % 4
def xHome (b : List Byte) (i : Nat) : Nat := leAt b (4 + 2 * i) 2 % 2 ^ 14
/-- The homes that an entry names. -/
def xHomes (b : List Byte) : List Nat := if xLive b then (List.range (xNrep b + 1)).map (xHome b) else []
def xHosted (b : List Byte) : Bool := bitOf (leAt b 16 1) 0
def xDraining (b : List Byte) : Bool := bitOf (leAt b 16 1) 1
def xRing (b : List Byte) : Nat := leAt b 24 8
def xLog2 (b : List Byte) : Nat := leAt b 17 1
/-- Generation `a` is newer than `b` (R229). -/
def newer (a b : Nat) : Bool := let d := (a + 65536 - b % 65536) % 65536
  decide (1 ≤ d ∧ d ≤ 32767)
/-- Apply a global part when it is newer; a home that it removes gets a GEN_MARK (R229, R232). Second result: applied. -/
def State.exhApply (s : State) (e : Nat) (g : List Byte) : State × Bool :=
  let r := s.exhRead e
  if s.exhLost e || !newer (xGen g) (xGen r.2) then (r.1, false)
  else
    let s1 := (r.1.daWrite (r.1.exhDa e) (padTo 16 g)).1
    let gone := ((xHomes r.2).filter (fun h => !(xHomes (padTo 32 g)).contains h && h != s1.self)).eraseDups
    (gone.foldl (fun a h => a.post h opMARK true 0 (e + 2 ^ 16 * xGen g) 0 0 [] false .plain) s1, true)
/-- A drain ends when every peer that was VALID at DGEN is counted (R232). -/
def State.drainCheckExp (s : State) (e : Nat) : State :=
  match SMap.find s.fab.drains e with
  | none => s
  | some (need, got) =>
    let r := s.exhRead e
    if s.exhLost e then r.1 else
    let s1 := (r.1.daWrite (r.1.exhDa e + 16) (putAt (r.2.drop 16 |>.take 8) 4 4 got.length)).1
    if need.all got.contains then
      let s2 := (s1.daWrite (s1.exhDa e + 16) (putAt (putAt (r.2.drop 16 |>.take 8) 4 4 got.length) 0 1 (leAt r.2 16 1 / 4 * 4))).1
      let s3 : State := { s2 with fab := { s2.fab with drains := SMap.del s2.fab.drains e } }
      (s3.rput .EXH_DRAINED 0 (BitVec.ofNat 32 (e + 2 ^ 31))).event F.VRX_STAT_DRAINED 0
    else s1
/-- Count a peer as marked for the drain of slot `e`. -/
def State.drainCount (s : State) (e i : Nat) : State :=
  match SMap.find s.fab.drains e with
  | none => s
  | some (need, got) =>
    if got.contains i || !need.contains i then s
    else ({ s with fab := { s.fab with drains := SMap.put s.fab.drains e (need, got ++ [i]) } } : State).drainCheckExp e
/-- A peer that failed or was removed counts as marked in every drain. -/
def State.drainAll (s : State) (i : Nat) : State := (s.fab.drains.map (·.1)).foldl (fun a e => a.drainCount e i) s

/-! ### Keys (R234, R356) -/

/-- The peer has acknowledged port `p`'s new key, or has failed: when none is left the port switches to it. -/
def State.keyAnswer (s : State) (p i : Nat) : State :=
  let q := s.port p
  match q.newKey with
  | none => s
  | some k =>
    let w := q.waitKey.filter (· ≠ i)
    if w ≠ [] then s.setPort p { q with waitKey := w }
    else
      let was := s.flag F.FAB_STATE_KEYED p
      let s1 := (s.setPort p { q with waitKey := [], newKey := none, pctr := 0 }).fput F.FAB_STATE_KEY p k
      let s2 := if !s1.portLive p then s1 else if was then s1.event F.FAB_STAT_REKEYED p else s1.fput F.FAB_STATE_KEYED p 1
      (s2.fab.peers.map (·.1)).foldl (fun a j => a.pump j) s2
/-- The link key of two modules (R356). -/
def State.linkKey (s : State) (i : Nat) : Option (List Byte) :=
  let x := s.peer i
  match x.quote with
  | none => none
  | some q =>
    if x.ssOwn = [] || x.ssPeer = [] then none
    else
      let mine := s.serial
      let his := (q.drop 8).take 16
      some (if s.self < i then kmac (x.ssOwn ++ x.ssPeer) (ascii "KGX-LINK" ++ mine ++ his) 32
        else kmac (x.ssPeer ++ x.ssOwn) (ascii "KGX-LINK" ++ his ++ mine) 32)
/-- Send KEYX step 4 for port `p`'s key `k`: port, index and key sealed under LK; the nonce travels in front (log entry 9). -/
def State.sendKey (s : State) (i p k : Nat) : State :=
  match s.linkKey i with
  | none => s
  | some lk =>
    let f := s.free 96
    let iv := leBytes 12 f.1
    let pt := leBytes 1 p ++ leBytes 1 k ++ padTo 32 (SMap.get (f.2.port p).keys k [])
    let d := iv ++ gcmSeal lk iv pt []
    f.2.post i opKEYX false 0 4 0 d.length d false .plain
/-- Begin the handshake with a peer: HELLO with a fresh nonce. -/
def State.sendHello (s : State) (i : Nat) : State :=
  let f := s.free 256
  let n := leBytes 32 f.1
  (f.2.setPeer i { f.2.peer i with nonce := n }).post i opKEYX false 0 1 0 32 n false .plain
/-- Make a new key for a port under index `k`, which no peer holds yet, and send it to every VALID peer; with none, the port switches at once. -/
def State.newKey (s : State) (p k : Nat) : State :=
  let f := s.free 256
  let w := f.2.validPeers
  let q := f.2.port p
  let s0 := f.2.setPort p { q with keys := SMap.put q.keys k (leBytes 32 f.1), newKey := some k, waitKey := w }
  let s1 : State := { s0 with fab := { s0.fab with peers := s0.fab.peers.map (fun x => (x.1, { x.2 with holds := x.2.holds.filter (· ≠ (p, k)) })) } }
  if w = [] then s1.keyAnswer p 16384
  else w.foldl (fun a i => if (a.linkKey i).isSome then a.sendKey i p k else if (a.peer i).nonce = [] then a.sendHello i else a) s1

/-! ### Broadcast of images: ranks and repair requests (R417, R419) -/

/-- The ids that have a rank, in rank order: the module, and peers that are VALID or have become UNREACH (log entry 25). -/
def State.ranks (s : State) : List Nat :=
  let root := s.fw.root.getD s.self
  let ids := (List.range 16384).filter (fun i => i == s.self || (let v := s.peerPeek i; v == psVALID || v == psUNREACH))
  ids.filter (fun i => decide (root ≤ i)) ++ ids.filter (fun i => decide (i < root))
def State.fanout (s : State) : Nat := max 1 (s.fget F.FWS_CFG_FANOUT 0)
/-- The children of rank `i`. -/
def State.childrenOf (s : State) (r : List Nat) (i : Nat) : List Nat := (r.drop (s.fanout * i + 1)).take s.fanout
def State.fwRank (s : State) (r : List Nat) : Nat := r.findIdx (· == s.self)
def State.fwChildren (s : State) : List Nat := let r := s.ranks
  s.childrenOf r (s.fwRank r)
def State.fwParent (s : State) : Option Nat := let r := s.ranks
  if s.fwRank r = 0 then none else r[(s.fwRank r - 1) / s.fanout]?
/-- The order in which a module asks: its parent, its siblings in ascending rank, the root. -/
def State.fwOrder (s : State) : List Nat :=
  let r := s.ranks
  (s.fwParent.map (fun p => ((p :: s.childrenOf r ((s.fwRank r - 1) / s.fanout) ++ r.take 1).filter (· ≠ s.self)).eraseDups)).getD []
/-- The `k`-th peer of the order, counted round it twice. -/
def State.fwPeer (s : State) (k : Nat) : Option Nat :=
  let o := s.fwOrder
  if k < 2 * o.length then o[k % o.length]? else none
/-- Ask the `k`-th peer of the order for chunk `n`, passing over those that are not VALID; after the last one the chunk is given up. -/
def State.fwAsk : Nat → State → Nat → Nat → State
  | 0, s, _, _ => s
  | fuel + 1, s, n, k =>
    let s1 : State := { s with fw := { s.fw with asked := SMap.put s.fw.asked n k } }
    if (s.fwPeer k).isNone then s1.event F.FWS_STAT_INCOMPLETE 0
    else
      let p := (s.fwPeer k).getD 0
      let v := s1.peerState p
      if v.2 = psVALID then v.1.post p opFW false 0 (n + 2 ^ 62) (s.fget F.FWS_IGEN_IGEN 0) 0 [] false .plain
      else State.fwAsk fuel v.1 n (k + 1)
def State.fwAskFrom (s : State) (n k : Nat) : State := s.fwAsk (2 * s.fwOrder.length + 1) n k
/-- Requests that wait for peer `i` go to the next peer. -/
def State.fwMoveOn (s : State) (i : Nat) : State :=
  let o := s.fwOrder
  (s.fw.asked.filter (fun e => decide (e.2 < 2 * o.length) && o[e.2 % o.length]? == some i)).foldl (fun a e => a.fwAskFrom e.1 (e.2 + 1)) s

/-! ### A connection fails (R218) -/

/-- A connection begins again: PSNs and MSNs from 0, and the credit accounts anew (log entry 86). -/
def Peer.restart (x : Peer) : Peer :=
  { x with nextPsn := 0, unacked := [], rxBase := 0, rxGot := [], rx := [], rxDone := 0, rxOut := [], hold := [], ackDue := 0
           effDue := false, effTo := 0, stUsed := 0, grants := [], asked := false, rxUsed := 0, rxGrants := [] }
/-- The slots that a peer's earlier records fill count for the pool, and what it asked for is dropped. -/
def State.accountsAnew (s : State) (i : Nat) : State :=
  { s with fab := { s.fab with slots := s.fab.slots.map (fun e => if e.2.peer = i then (e.1, { e.2 with standing := false }) else e)
                               asks := s.fab.asks.filter (·.1 ≠ i) } }
/-- Every message ends PEER_UNREACH, a peer that is not being removed becomes UNREACH (R233), drains and key waits count it. -/
def State.connFail (s : State) (i : Nat) : State :=
  let x := s.peer i
  let v := ((s.setPeer i { x.restart with conn := 0, opens := 0, tx := [], nextMsn := 0 }).accountsAnew i).peerState i
  let s1 := if v.2 = psVALID then v.1.setPeerState i psUNREACH else v.1
  let s2 := x.tx.foldl (fun a m => a.ownerEnd i m.owner vsUNREACH 0) s1
  let s3 := ((s2.event F.VRX_STAT_PEER_FAIL 0).raise 0x48 0 i 0).drainAll i
  let s4 := ((List.range 8).foldl (fun a p => a.keyAnswer p i) s3).fwMoveOn i
  if s4.flag F.LCK_CTL_EN 0 && s4.lck.live && s4.fget F.LCK_CFG_PEER 0 == i then
    let s5 := s4.diverge (s4.fget F.LCK_NUM_NUM 0) dvPEER 0xFFFFFF 0 0
    { s5 with lck := { s5.lck with live := false } }
  else s4

/-! ### Acknowledgement and retransmission (R217) -/

/-- A retransmission or a resend counts in VRX_TDC and in the dispatch that posted the message (R237): in the `TSK_TDC` of the tile, with its
cause, when that is strict (R362). -/
def State.vrxTdc (s : State) (o : Owner) : State :=
  let s1 := s.fadd F.VRX_TDC_COUNT 0 1
  match (match o with | .ring t x => x.disp.map (t, ·) | .cut t d => d.map (t, ·) | _ => none) with
  | some (t, k) => match s1.disp k with
    | some d => if d.strict && d.running then (s1.fadd F.TSK_TDC_TDC t 1).detCause k 4 else s1.setDisp k { d with fabTdc := d.fabTdc + 1 }
    | none => s1
  | none => s1
/-- Send a packet again on the next port, or fail the connection when it has been sent RETRY + 1 times. -/
def State.retransmit (s : State) (i psn : Nat) : State :=
  let x := s.peer i
  match x.unacked.find? (·.psn == psn) with
  | none => s
  | some pk =>
    if s.fget F.VRX_CFG2_RETRY 0 + 1 ≤ pk.sends then s.connFail i
    else match x.tx.find? (·.msn == pk.msn) with
      | none => s
      | some m =>
        let c := s.spray (s.portsFor i m.op)
        match c.2 with
        | none => s
        | some p =>
          let pk' : TxPkt := { pk with sends := pk.sends + 1, port := p, ord := x.nextOrd, later := 0 }
          let s1 := c.1.setPeer i { c.1.peer i with nextOrd := x.nextOrd + 1
                                                    unacked := x.unacked.map (fun y => if y.psn = psn then pk' else y) }
          ((s1.fadd F.VRX_RETX_COUNT 0 1).vrxTdc m.owner).sendPacket i p m.op psn m.msn pk.off m.len m.tag m.arg0 m.arg1 m.fence pk.last
            ((m.data.drop pk.off).take pk.len)
/-- A reply to a message of this TAG has arrived and has not taken effect. -/
def Peer.replyPending (x : Peer) (m : TxMsg) : Bool :=
  x.rx.any (fun r => r.tag == m.tag && (r.op == opNACK || r.op == opREAD_RSP || r.op == opFETCH_RSP))
/-- The peer has reported the message's effect. -/
def Peer.reported (x : Peer) (msn : Nat) : Bool := let d := dist32 x.effTo msn
  decide (1 ≤ d ∧ d < 2 ^ 31)
/-- End the messages whose packets are all acknowledged and that await no reply and no effect. -/
def State.endAcked (s : State) (i : Nat) : State :=
  let x := s.peer i
  (x.tx.filter (fun m => m.started && decide (m.data.length ≤ m.sent) && !m.reply && !x.unacked.any (·.msn == m.msn)
    && !x.replyPending m && (if i = s.self then !x.rx.any (·.msn == m.msn) else !opEffect m.op || x.reported m.msn))).foldl (fun a m => a.msgEnd i m vsOK 0) s
/-- The acknowledgement fields of a packet. -/
def State.ackApply (s : State) (i ackPsn sack : Nat) : State :=
  let x := s.peer i
  let hit (p : Nat) : Bool := decide (1 ≤ dist32 ackPsn p ∧ dist32 ackPsn p < 2 ^ 31)
    || (let k := dist32 p (ackPsn + 1); decide (k < 128) && bitOf sack k)
  let got := x.unacked.filter (fun p => hit p.psn)
  let left := (x.unacked.filter (fun p => !hit p.psn)).map (fun p => { p with later := p.later + (got.filter (fun g => decide (p.ord < g.ord))).length })
  let s1 := (s.setPeer i { x with unacked := left }).endAcked i
  let s2 := (left.filter (fun p => decide (s.fget F.VRX_CFG2_DUPTHR 0 ≤ p.later))).foldl (fun a p => a.retransmit i p.psn) s1
  s2.pump i

/-! ### Credit (R224, R225) -/

/-- Slots granted and not yet filled, and pool slots beyond the standing credit of every id that neither a grant nor a filled
granted slot holds. -/
def State.granted (s : State) : Nat := (s.fab.peers.map (fun e => (e.2.rxGrants.foldl (· + ·) 0))).foldl (· + ·) 0
def State.poolRest (s : State) : Nat :=
  s.fget F.VRX_RXPOOL_SLOTS 0 - 16384 * s.fget F.VRX_CRED_FREE 0 - s.granted - (s.fab.slots.filter (fun e => !e.2.standing)).length
/-- Grant slots in round-robin order of the peers that asked. -/
def State.grantGo : Nat → State → State
  | 0, s => s
  | fuel + 1, s =>
    match s.fab.asks with
    | [] => s
    | (i, want) :: rest =>
      let n := min (min want (s.fget F.VRX_CRED_GRANT_MAX 0)) (min (s.fget F.VRX_CRED_INFLIGHT 0 - s.granted) s.poolRest)
      if n = 0 then s
      else
        let x := s.peer i
        let s1 : State := { s with fab := { s.fab with asks := if n < want then rest ++ [(i, want - n)] else rest } }
        State.grantGo fuel ((s1.setPeer i { x with rxGrants := x.rxGrants ++ [n] }).post i opCREDIT false 1 n 0 0 [] false .plain)
def State.grantPump (s : State) : State := s.grantGo 256
/-- Credit that the module holds at a peer. -/
def State.creditAt (s : State) (i : Nat) : Nat :=
  let x := s.peer i
  s.fget F.VRX_CRED_FREE 0 - x.stUsed + x.grants.foldl (· + ·) 0
def State.useCredit (s : State) (i : Nat) : State :=
  let x := s.peer i
  if x.stUsed < s.fget F.VRX_CRED_FREE 0 then s.setPeer i { x with stUsed := x.stUsed + 1 }
  else s.setPeer i { x with grants := takeGrant x.grants }
/-- A slot is free again: standing credit goes back to its sender with CREDIT, a granted slot to the pool. -/
def State.slotBack (s : State) (i : Nat) (standing : Bool) : State :=
  let x := s.peer i
  (if standing then (s.setPeer i { x with rxUsed := x.rxUsed - 1 }).post i opCREDIT false 0 1 0 0 [] false .plain else s).grantPump

end Sys2Proof.Machine
end

