-- ==== Sys2Proof/Machine/Varrax.lean ====
section
/-! DEFINITION. Varrax messages and send rings (R214 to R227, R230, R231, R234 to R237, R356). -/

namespace Sys2Proof.Machine

/-- VRX_RUN: a write of `VRX_CTL.RUN`; a start is refused while SLOTS < INFLIGHT + 16,384 × FREE (R225). -/
def execVrxRun (v : Bool) (s : State) : Out :=
  .next (if !v then s.fput F.VRX_CTL_RUN 0 0
    else if s.fget F.VRX_RXPOOL_SLOTS 0 < s.fget F.VRX_CRED_INFLIGHT 0 + 16384 * s.fget F.VRX_CRED_FREE 0 then
      s.event F.VRX_STAT_CFG_ERR 0
    else s.fput F.VRX_CTL_RUN 0 1)

/-! ### A frame arrives (R214 to R217, R234, R235) -/

/-- A dropped frame. -/
def State.vrxDrop (s : State) : State := s.fadd F.VRX_DROP_COUNT 0 1
/-- A failed tag: counted, and the 16th of one peer port within 1 ms raises VRX_AUTH. -/
def State.tagFail (s : State) (p src sport : Nat) : State :=
  let s1 := s.fadd F.VRX_AUTH_FAIL_COUNT 0 1
  let x := s1.peer src
  let near := (x.fails.filter (fun f => decide (s1.clk.ns < f.2 + 1000000))) ++ [(sport, s1.clk.ns)]
  let s2 := s1.setPeer src { x with fails := near }
  if (near.filter (·.1 == sport)).length = 16 then s2.raise 0x31 p src sport else s2
/-- The header is one that R215 and R216 allow, sent to this module. -/
def State.headOk (s : State) (b : List Byte) : Bool :=
  decide (72 ≤ b.length) && leAt b 0 1 / 16 == 1 && vrxOps.contains (leAt b 1 1) && decide (leAt b 2 2 < 2 ^ 14) && leAt b 4 2 == s.self
    && decide (leAt b 6 1 < 8) && decide (leAt b 36 4 < 2 ^ 24) && decide (leAt b 40 4 < 2 ^ 24)
/-- Take a packet's place in its message. -/
def State.rxPacket (s : State) (src p : Nat) (b pay : List Byte) : State :=
  let x := s.peer src
  let op := leAt b 1 1
  let fl := leAt b 0 1
  let psn := leAt b 8 4
  let msn := leAt b 32 4
  let off := leAt b 36 4
  let seen := decide (2 ^ 31 ≤ dist32 psn x.rxBase) || x.rxGot.contains psn
  if seen then s.setPeer src { x with ackDue := x.ackDue + 1 }
  else
    let old := x.rx.find? (·.msn == msn)
    let std := decide (x.rxUsed < s.fget F.VRX_CRED_FREE 0)
    let hasCredit := std || x.rxGrants.any (fun g => decide (0 < g))
    if op = opTOK && old.isNone && !hasCredit then s.event F.VRX_STAT_NOCRED 0
    else
      let m0 : RxMsg := old.getD ⟨msn, op, bitOf fl 1, p, leAt b 6 1 % 8, leAt b 44 4, leAt b 48 8, leAt b 56 8, leAt b 40 4, [], none, none, 0, std⟩
      let last := bitOf fl 0
      let m : RxMsg := { m0 with parts := SMap.put m0.parts off pay, ends := if last then some (off + pay.length) else m0.ends
                                 lastPsn := if last then some psn else m0.lastPsn, at_ := s.clk.ns }
      let got := (psn :: x.rxGot)
      let n := ((List.range 257).find? (fun i => !got.contains ((x.rxBase + i) % 2 ^ 32))).getD 0
      let base := (x.rxBase + n) % 2 ^ 32
      let newTok := op = opTOK && old.isNone
      s.setPeer src { x with rx := if old.isNone then x.rx ++ [m] else x.rx.map (fun y => if y.msn = msn then m else y)
                             rxBase := base, rxGot := got.filter (fun q => decide (dist32 q base < 2 ^ 31)), ackDue := x.ackDue + 1
                             rxUsed := x.rxUsed + b2n (newTok && std), rxGrants := if newTok && !std then takeGrant x.rxGrants else x.rxGrants }

/-- FRAME_RX: `ok` says that FCS and UDP checksum are good and the UDP port is the module's. An unencrypted packet is dropped when it is
no OPEN or KEYX, or when its port is keyed: the peer counts it in its spray set and the module holds its key (R235). A numbered packet
belongs to no connection while none has been opened. -/
def execFrameRx (p : Fin 8) (ok : Bool) (b : List Byte) (s : State) : Out :=
  .next (if !s.portLive p || !s.flag F.VRX_CTL_RUN 0 then s
    else if !ok || !s.headOk b then s.vrxDrop
    else
      let src := leAt b 2 2
      let op := leAt b 1 1
      let fl := leAt b 0 1
      let sport := leAt b 6 1
      let keyed := s.flag F.FAB_STATE_KEYED p
      let enc := bitOf fl 2
      let x := s.peer src
      let st := s.peerState src
      if src = s.self || st.2 = psFREE || st.2 = psREMOVING then st.1
      else if !opUnkeyed op && (!keyed || !enc) then st.1
      else if !enc && bitOf (leAt b 7 1) sport && x.keys.any (·.1 == sport) then st.1
      else if x.conn = 0 && !opControl op then st.1
      else
        let body := b.drop 72
        let plain := if !enc then some body
          else match x.keys.find? (fun k => k.1 == sport && k.2.1 == b2n (bitOf fl 3)) with
            | none => none
            | some k => gcmUnseal k.2.2 (linkIv src sport (b2n (bitOf fl 3)) (leAt b 64 8)) body (b.take 72)
        match plain with
        | none => st.1.tagFail p src sport
        | some pay =>
          let s0 := if op = opTIME || op = opACK then st.1 else st.1.sentryExit
          let s1 := s0.setPeer src { x with pmask := some (leAt b 7 1) }
          if opControl op then
            let m : RxMsg := ⟨leAt b 32 4, op, false, p, sport, leAt b 16 16, leAt b 48 8, leAt b 12 4, 0, [], none, none, s1.clk.ns, enc⟩
            s1.setPeer src { s1.peer src with ctl := (s1.peer src).ctl ++ [m] }
          else
            let s2 := s1.rxPacket src p b pay
            s2.ackApply src (leAt b 12 4) (leAt b 16 16))

/-! ### Messages take effect (R220) -/

/-- Every byte of the message has come. -/
def RxMsg.complete (m : RxMsg) : Bool := match m.ends with
  | none => false
  | some e => decide ((m.parts.map (fun x => x.2.length)).foldl (· + ·) 0 = e)
def RxMsg.data (m : RxMsg) : List Byte := m.parts.flatMap (·.2)
/-- The order of R220: a FENCE message after every earlier one, and nothing before an earlier FENCE message. -/
def Peer.mayEffect (x : Peer) (m : RxMsg) : Bool :=
  let earlier := (List.range (dist32 m.msn x.rxDone)).map (fun i => (x.rxDone + i) % 2 ^ 32)
  let open_ := earlier.filter (fun n => !x.rxOut.contains n)
  m.complete && (if m.fence then open_.isEmpty else open_.all (fun n => x.rx.any (fun y => y.msn == n && !y.fence)))
/-- A message has taken effect. -/
def Peer.effected (x : Peer) (m : RxMsg) : Peer :=
  let out := m.msn :: x.rxOut
  let n := ((List.range (out.length + 1)).find? (fun i => !out.contains ((x.rxDone + i) % 2 ^ 32))).getD 0
  let d := (x.rxDone + n) % 2 ^ 32
  { x with rx := x.rx.filter (·.msn ≠ m.msn), rxDone := d, rxOut := out.filter (fun q => decide (dist32 q d < 2 ^ 31))
           effDue := x.effDue || opEffect m.op }
/-- The shape of a message command: nothing happens unless the message is complete and may take effect. -/
def State.withRx (s : State) (i msn : Nat) (ops : Nat → Nat → Bool) (k : State → RxMsg → State) : State :=
  let x := s.peer i
  match x.rx.find? (fun m => m.msn == msn && ops m.op m.arg0 && x.mayEffect m) with
  | none => s
  | some m =>
    let s1 := k (s.setPeer i (x.effected m)) m
    if i = s.self then s1.endAcked i else s1
def isOp (n : Nat) : Nat → Nat → Bool := fun op _ => op == n

/-- The range lies in one window whose permission bit is set (R221): 0 READ, 1 WRITE, 2 FETCH_ADD. -/
def State.winOk (s : State) (da n perm : Nat) : Bool :=
  (List.range 16).any (fun w =>
    let lg := s.fget F.VRX_WIN_LO_SIZE_LOG2 w
    let base := 2 ^ 20 * s.fget F.VRX_WIN_LO_BASE w + 2 ^ 32 * s.fget F.VRX_WIN_HI_BASE_HI w
    let b := 2 ^ lg * (base / 2 ^ lg)
    decide (20 ≤ lg ∧ lg ≤ 38 ∧ b ≤ da ∧ da + n ≤ b + 2 ^ lg) && bitOf (s.fget F.VRX_WIN_LO_PERM w) perm)
/-- The effect of a message is not reported before the reply that is posted next has been acknowledged (log entry 21). -/
def State.holdFor (s : State) (i : Nat) (m : RxMsg) : State :=
  let x := s.peer i
  if opEffect m.op then s.setPeer i { x with hold := x.hold ++ [(m.msn, x.nextMsn)] } else s
/-- Refuse or fail a request: the reply carries the status. WRITE has no reply of its own, and a READ_RSP without data carries its
status (log entry 22). -/
def State.replyStatus (s : State) (i : Nat) (m : RxMsg) (status : Nat) : State :=
  (s.holdFor i m).post i (if m.op = opFETCH_ADD then opFETCH_RSP else opREAD_RSP) false m.tag (if m.op = opREAD_REQ then m.arg1 else 0) status
    0 [] false .plain
def State.access (s : State) (i : Nat) (m : RxMsg) : State := (s.event F.VRX_STAT_ACCESS 0).replyStatus i m vsACCESS
/-- A read of device memory by a fabric engine; R142 gives it no requester class, and any stands for it (log entry 16). -/
def State.fabRead (s : State) (da n : Nat) : State × List Byte × Option Nat :=
  let f := s.free 3
  f.2.daRead da n f.1

/-- WRITE: the bytes, then one added to the counter that ARG1 names (R220, R221). -/
def execVrxWrite (peer msn : Nat) (s : State) : Out :=
  .next (s.settle (.vrxWrite peer msn) fun s => s.withRx peer msn (isOp opWRITE) (fun s m =>
    let d := m.data
    if !s.winOk m.arg0 d.length 1 || (m.arg1 ≠ 0 && !(s.winOk m.arg1 8 1)) then s.access peer m
    else
      let w := s.daWrite m.arg0 d
      if w.2.isSome then w.1.replyStatus peer m vsREMOTE_UE
      else if m.arg1 = 0 then w.1
      else
        let c := w.1.fabRead m.arg1 8
        match c.2.2 with
        | some _ => c.1.replyStatus peer m vsREMOTE_UE
        | none => (c.1.daWrite m.arg1 (leBytes 8 (leNat c.2.1 + 1))).1))
/-- READ_REQ: answered with READ_RSP. -/
def execReadReq (peer msn : Nat) (s : State) : Out :=
  .next (s.settle (.readReq peer msn) fun s => s.withRx peer msn (isOp opREAD_REQ) (fun s m =>
    if !s.winOk m.arg0 m.len 0 then s.access peer m
    else
      let r := s.fabRead m.arg0 m.len
      match r.2.2 with
      | some _ => r.1.replyStatus peer m vsREMOTE_UE
      | none => r.1.post peer opREAD_RSP false m.tag m.arg1 vsOK m.len r.2.1 false .plain))
/-- FETCH_ADD: an atomic add to an 8-byte-aligned word, answered with the old value. -/
def execFetchAdd (peer msn : Nat) (s : State) : Out :=
  .next (s.settle (.fetchAdd peer msn) fun s => s.withRx peer msn (isOp opFETCH_ADD) (fun s m =>
    if !s.winOk m.arg0 8 2 || m.arg0 % 8 ≠ 0 then s.access peer m
    else
      let r := s.fabRead m.arg0 8
      match r.2.2 with
      | some _ => r.1.replyStatus peer m vsREMOTE_UE
      | none =>
        ((r.1.daWrite m.arg0 (leBytes 8 (leNat r.2.1 + m.arg1))).1).post peer opFETCH_RSP false m.tag (leNat r.2.1) vsOK 0 [] false .plain))
/-- The message that a reply answers: the oldest of its TAG. -/
def State.answered (s : State) (i tag : Nat) (ops : List Nat) : Option TxMsg :=
  (s.peer i).tx.find? (fun m => m.tag == tag && ops.contains m.op)
/-- READ_RSP: the bytes are written where the requester asked, and its message ends. -/
def execReadRsp (peer msn : Nat) (s : State) : Out :=
  .next (s.settle (.readRsp peer msn) fun s => s.withRx peer msn (isOp opREAD_RSP) (fun s m =>
    let w := if m.arg1 = vsOK && daOk m.arg0 m.data.length then s.daWrite m.arg0 m.data else (s, none)
    match w.1.answered peer m.tag (if m.arg1 = vsOK then [opREAD_REQ] else [opREAD_REQ, opWRITE]) with
    | none => w.1.endAcked peer
    | some t => (w.1.msgEnd peer t (if w.2.isSome then vsLOCAL_UE else m.arg1) 0).endAcked peer))
/-- FETCH_RSP: the old value reaches the requester's status word. -/
def execFetchRsp (peer msn : Nat) (s : State) : Out :=
  .next (s.settle (.fetchRsp peer msn) fun s => s.withRx peer msn (isOp opFETCH_RSP) (fun s m =>
    match s.answered peer m.tag [opFETCH_ADD] with
    | none => s
    | some t => (s.msgEnd peer t m.arg1 m.arg0).endAcked peer))

/-! ### Token records (R224, R226, R230, R231) -/

def State.slotDaVrx (s : State) (n : Nat) : Nat :=
  s.kvBase .VRX_RXPOOL_LO .VRX_RXPOOL_HI 20 + 2 ^ (13 + s.fget F.VRX_RXPOOL_SLOT_LOG2 0) * n
/-- Write the first waiting record of an expert when its ring has room (R226). Ring words are 8 bytes (log entry 23). -/
def State.recordWrite (s : State) (e : Nat) : State :=
  match s.fab.waiting.find? (fun n => ((SMap.find s.fab.slots n).map (·.expert)) == some e) with
  | none => s
  | some n =>
    match SMap.find s.fab.slots n with
    | none => s
    | some x =>
      let r := s.exhRead e
      let ring := xRing r.2
      let p := r.1.daRead ring 16 4
      let prod := leAt p.2.1 0 4
      let cons := leAt p.2.1 8 4
      if s.exhLost e then r.1
      else if p.2.2.isSome || 2 ^ xLog2 r.2 ≤ dist32 prod cons then p.1
      else
        let rec_ := leBytes 8 (p.1.slotDaVrx n) ++ leBytes 2 x.origin ++ leBytes 1 x.rank ++ zeros 1 ++ leBytes 4 x.handle ++ leBytes 2 x.gen
          ++ zeros 2 ++ leBytes 4 x.octx ++ zeros 8
        let s1 := (p.1.daWrite (ring + 64 + 32 * (prod % 2 ^ xLog2 r.2)) rec_).1
        let s2 := (s1.daWrite ring (leBytes 8 ((prod + 1) % 2 ^ 32))).1
        { s2 with fab := { s2.fab with waiting := s2.fab.waiting.filter (· ≠ n), slots := SMap.put s2.fab.slots n { x with idx := some prod } } }
/-- TOK_DISPATCH: accepted into the expert's ring through pool slot `slot`, or discarded with a TOK_NACK (R231). -/
def execTokDispatch (peer msn slot : Nat) (s : State) : Out :=
  .next (s.settle (.tokDispatch peer msn slot) fun s => if (SMap.find s.fab.slots slot).isSome || s.fget F.VRX_RXPOOL_SLOTS 0 ≤ slot then s
    else s.withRx peer msn (isOp opTOK) (fun s m =>
      let e := m.arg0 % 2 ^ 16
      let r := s.exhRead e
      let d := m.data
      if xHosted r.2 then
        let x : RxSlot := ⟨peer, m.standing, e, none, leAt d 4 2 % 2 ^ 14, leAt d 6 1, leAt d 32 4, leAt d 2 2, leAt d 12 4, leAt d 36 4⟩
        let s1 := (r.1.daWrite (r.1.slotDaVrx slot) d).1
        let s2 : State := { s1 with fab := { s1.fab with slots := SMap.put s1.fab.slots slot x, waiting := s1.fab.waiting ++ [slot] } }
        s2.recordWrite e
      else
        ((r.1.holdFor peer m).post peer opNACK false m.tag (e + 2 ^ 16 * xGen r.2) (leAt r.2 0 8) 16 (r.2.take 16) false .plain).slotBack peer m.standing))
/-- TOK_NACK: the global part is applied; the record is sent again against a new credit, or ends NO_HOME at the third (R231). -/
def execTokNack (peer msn : Nat) (s : State) : Out :=
  .next (s.settle (.tokNack peer msn) fun s => s.withRx peer msn (isOp opNACK) (fun s m =>
    let a := (s.exhApply (m.arg0 % 2 ^ 16) m.data).1
    match (a.peer peer).tx.find? (fun t => t.tag == m.tag && t.op == opTOK && t.arg0 % 2 ^ 16 == m.arg0 % 2 ^ 16) with
    | none => a.endAcked peer
    | some t =>
      match t.owner with
      | .ring tile x =>
        if 3 ≤ x.tries + 1 then (a.msgEnd peer t vsNO_HOME 0).endAcked peer
        else
          let a1 := a.msgEnd peer { t with owner := .plain } vsOK 0
          let a2 : State := { a1 with fab := { a1.fab with
            sends := SMap.put a1.fab.sends tile ({ x with tries := x.tries + 1 } :: SMap.get a1.fab.sends tile []) } }
          a2.endAcked peer
      | _ => a.endAcked peer))
/-- TOKEN_RECORD_WRITE: a waiting record of the expert is written when its ring has room. -/
def execTokenRecordWrite (e : Fin 65536) (s : State) : Out := .next (s.settle (.tokenRecordWrite e) fun s => s.recordWrite e)
/-- SLOT_RETURN: the ring's consumer index has passed records; their slots go back, and count as released (R224, R320). -/
def execSlotReturn (e : Fin 65536) (s : State) : Out :=
  .next (s.settle (.slotReturn e) fun s =>
    let r := s.exhRead e
    let p := r.1.daRead (xRing r.2 + 8) 8 4
    let cons := leAt p.2.1 0 4
    if s.exhLost e then r.1
    else if p.2.2.isSome then p.1
    else
      let done := p.1.fab.slots.filter (fun x => x.2.expert == e.val && (x.2.idx.map (fun k => decide (1 ≤ dist32 cons k ∧ dist32 cons k < 2 ^ 31))).getD false)
      done.foldl (fun a x =>
        let a1 : State := { a with fab := { a.fab with slots := SMap.del a.fab.slots x.1 }
                                   enr := { a.enr with rel := a.enr.rel ++ [(x.2.origin, x.2.octx, x.2.vlen, a.clk.ns, a.stamp)] } }
        a1.slotBack x.2.peer x.2.standing) p.1)

/-! ### Credit and connection control (R217, R218, R224) -/

/-- CREDIT: `grant` says whether the peer grants slots or asks for them, which the message's bits leave open (log entry 22). A grant
that answers no request is standing credit that comes back. -/
def execCreditMsg (peer msn : Nat) (grant : Bool) (s : State) : Out :=
  .next (s.settle (.creditMsg peer msn grant) fun s => s.withRx peer msn (isOp opCREDIT) (fun s m =>
    let n := m.arg0 % 2 ^ 16
    let x := s.peer peer
    if !grant then ({ s with fab := { s.fab with asks := s.fab.asks ++ [(peer, n)] } } : State).grantPump
    else if m.tag = 1 then s.setPeer peer { x with grants := x.grants ++ [n], asked := false }
    else s.setPeer peer { x with stUsed := x.stUsed - n }))
/-- CREDIT_GRANT_EXPIRY: 1 ms unused, the oldest grant returns to the pool; the sender drops it likewise (`mine`). -/
def execCreditGrantExpiry (peer : Nat) (mine : Bool) (s : State) : Out :=
  let x := s.peer peer
  .next (if mine then s.setPeer peer { x with grants := x.grants.drop 1 }
    else (s.setPeer peer { x with rxGrants := x.rxGrants.drop 1 }).grantPump)
/-- The first control packet of a kind. -/
def State.takeCtl (s : State) (i op arg : Nat) (k : State → RxMsg → State) : State :=
  let x := s.peer i
  match x.ctl.find? (fun m => m.op == op && (op == opACK || m.arg0 % 2 == arg)) with
  | none => s
  | some m => k (s.setPeer i { x with ctl := x.ctl.erase m }) m
/-- ACK: its MSN field reports the peer's effects (log entry 21). -/
def execVrxAck (peer : Nat) (s : State) : Out :=
  .next (s.takeCtl peer opACK 0 (fun s m =>
    let x := s.peer peer
    (s.setPeer peer { x with effTo := if x.reported m.msn || dist32 m.msn x.effTo ≥ 2 ^ 31 then x.effTo else m.msn }).ackApply peer m.arg1 m.tag))
/-- ACK_TIMER: 2 µs or 16 packets without an acknowledgement, or an effect to report. -/
def execAckTimer (peer : Nat) (s : State) : Out :=
  .next (if 0 < (s.peer peer).ackDue || (s.peer peer).effDue then s.sendControl peer opACK 0 else s)
/-- A connection with new PSNs: messages not acknowledged are sent again from the start. -/
def Peer.fresh (x : Peer) : Peer :=
  let tx := (x.tx.zipIdx).map (fun m => { m.1 with msn := m.2, sent := 0, started := false })
  { x.restart with nextMsn := tx.length, tx := tx }
/-- The connection is open: what has come since the OPEN stays (R217). -/
def Peer.opened (x : Peer) : Peer := { x with conn := 2, opens := 0 }
/-- Nothing has been received on an open connection and nothing of it acknowledged. -/
def Peer.untouched (x : Peer) : Bool :=
  x.conn == 2 && x.rxBase == 0 && x.rxGot.isEmpty && x.rx.isEmpty && x.unacked.length == x.nextPsn
/-- Distribute the keys of every live port to a peer, or begin the handshake that comes first (R234, R356). -/
def State.sendKeys (s : State) (i : Nat) : State :=
  if (s.linkKey i).isSome then
    (List.range 8).foldl (fun a p =>
      let k := ((a.port p).newKey).getD (a.keyIdx p)
      if a.portLive p && (SMap.find (a.port p).keys k).isSome && !(a.peer i).holds.contains (p, k) then a.sendKey i p k else a) s
  else if (s.peer i).nonce = [] then s.sendHello i else s
/-- An UNREACH peer that answers is VALID again, but for an entry that host software must rewrite (R218, R238). -/
def State.revive (s : State) (i : Nat) : State × Bool :=
  let v := s.peerState i
  let a := (if v.2 = psUNREACH then v.1.setPeerState i psVALID else v.1).peerState i
  (a.1, a.2 == psVALID)
/-- OPEN: the connection opens with new PSNs, an UNREACH peer is VALID again, OPEN_ACK answers. A second OPEN of a connection that is
untouched is answered again; where both sides have sent OPEN, what has come since stays. An unencrypted OPEN from a peer that holds keys
of ours says that it has lost them: the handshake begins anew (log entry 22). -/
def execVrxOpen (peer : Nat) (s : State) : Out :=
  .next (s.takeCtl peer opOPEN 0 (fun s m =>
    let v := s.revive peer
    let y := v.1.peer peer
    let x := if !m.standing && y.holds ≠ [] then { y with holds := [], nonce := [], quote := none, ssOwn := [], ssPeer := [] } else y
    if !v.2 then v.1
    else
      let s2 := if x.conn = 1 || x.untouched then v.1.setPeer peer x.opened else (v.1.setPeer peer x.fresh.opened).accountsAnew peer
      ((s2.sendControl peer opOPEN 1).sendKeys peer).pump peer))
/-- OPEN_ACK. -/
def execOpenAck (peer : Nat) (s : State) : Out :=
  .next (s.takeCtl peer opOPEN 1 (fun s _ =>
    let x := s.peer peer
    let v := s.revive peer
    if x.conn ≠ 1 then s
    else if !v.2 then v.1
    else ((v.1.setPeer peer (v.1.peer peer).opened).sendKeys peer).pump peer))
/-- RETRANSMIT_TIMEOUT: RTO µs since PSN `psn` was sent, or since the OPEN of a connection that is not open yet. -/
def execRetransmitTimeout (peer psn : Nat) (s : State) : Out :=
  let x := s.peer peer
  .next (if x.conn = 1 then
      if s.fget F.VRX_CFG2_RETRY 0 + 1 ≤ x.opens then s.connFail peer
      else (s.setPeer peer { x with opens := x.opens + 1 }).sendControl peer opOPEN 0
    else s.retransmit peer psn)
/-- PEER_REOPEN: OPEN to an UNREACH peer every 10 ms. -/
def execPeerReopen (peer : Nat) (s : State) : Out :=
  let v := s.peerState peer
  .next (if v.2 = psUNREACH then
      ((v.1.setPeer peer { (v.1.peer peer).fresh with conn := 1, opens := 1 }).accountsAnew peer).sendControl peer opOPEN 0
    else v.1)
/-- NO_KEY_TIMEOUT: messages that no keyed port can carry end NO_KEY (R235). -/
def execNoKeyTimeout (peer : Nat) (s : State) : Out :=
  .next (if (s.portsFor peer opWRITE).isEmpty then
      ((s.peer peer).tx.filter (fun m => !m.started && !opUnkeyed m.op)).foldl (fun a m => a.msgEnd peer m vsNO_KEY 0) s
    else s)
/-- PEER_REMOVE_DONE: a REMOVING peer without a message left becomes FREE; its drains count it as marked (R232, R233). -/
def execPeerRemoveDone (peer : Nat) (s : State) : Out :=
  let v := s.peerState peer
  .next (if v.2 = psREMOVING && (v.1.peer peer).tx.isEmpty then
      let s1 := (((v.1.setPeer peer Peer.empty).accountsAnew peer).setPeerState peer psFREE).drainAll peer
      ((List.range 8).foldl (fun a p => a.keyAnswer p peer) s1).fwMoveOn peer
    else v.1)

/-! ### The expert home table's messages (R229, R232) -/

/-- GEN: a global part that is applied when newer; the transport acknowledges it. -/
def execGenMsg (peer msn : Nat) (s : State) : Out :=
  .next (s.settle (.genMsg peer msn) fun s => s.withRx peer msn (isOp opGEN) (fun s m => (s.exhApply (m.arg0 % 2 ^ 16) m.data).1))
/-- GEN_MARK: counted by a draining home for DGEN or newer, once a peer. -/
def execGenMark (peer msn : Nat) (s : State) : Out :=
  .next (s.settle (.genMark peer msn) fun s => s.withRx peer msn (isOp opMARK) (fun s m =>
    let e := m.arg0 % 2 ^ 16
    let r := s.exhRead e
    let g := m.arg0 / 2 ^ 16 % 2 ^ 16
    if xDraining r.2 && (g == leAt r.2 18 2 || newer g (leAt r.2 18 2)) then r.1.drainCount e peer else r.1))

/-- EXPERT_MAP: the global part when newer, the local part as given, the drain of R232, and the broadcast of R229. -/
def execExpertMap (qp idx : Nat) (s : State) : Out :=
  .next (s.settle (.expertMap qp idx) fun s => s.withDescr qp idx [0x20] (fun s d =>
    let f := (s.qpFunc qp).getD 0
    let fl := d.u 18 1
    let glb := bitOf fl 2
    let lcl := bitOf fl 3
    let g := (d.bytes.drop 20).take 16
    let l := (d.bytes.drop 36).take 16
    let e := d.u 16 2
    let nrep := leAt g 3 1 % 4
    let home (i : Nat) : Nat := leAt g (4 + 2 * i) 2
    let reserved := leAt g 3 1 < 4 && zeroAt g 12 4 && (List.range 4).all (fun i => decide (home i < 2 ^ 14)) && leAt l 0 1 < 4
    let gOk := leAt g 2 1 ≤ 1 && (List.range 4).all (fun i => decide (i ≤ nrep) || home i == 0)
    let lOk := !bitOf (leAt l 0 1) 0 || (4 ≤ leAt l 1 1 && leAt l 1 1 ≤ 16)
    match s.headVerdict qp d (bodyZero d [(16, 3), (20, 32)] && fl < 16 && reserved && (!glb || gOk) && (!lcl || lOk)) false with
    | some st => s.complete qp d st []
    | none =>
      let lv := if lcl && bitOf (leAt l 0 1) 0 then s.daVerdict f (leAt l 8 8) (64 + 32 * 2 ^ leAt l 1 1) else none
      match lv with
      | some st => s.complete qp d st []
      | none =>
        let lost := s.exhLost e
        let r := s.exhRead e
        if glb && !lost && !newer (xGen g) (xGen r.2) then
          r.1.complete qp d stSTALE_GEN (leBytes 2 (xGen r.2))
        else
          let s0 := if lost then (r.1.daWrite (r.1.exhDa e) (zeros 32)).1 else r.1
          let s1 := if glb then (if lost then (s0.daWrite (s0.exhDa e) g).1 else (s0.exhApply e g).1) else s0
          let old := r.2
          let loc := if lcl then leBytes 1 (leAt l 0 1) ++ leBytes 1 (leAt l 1 1) ++ (old.drop 18).take 6
              ++ (l.drop 8).take 8
            else (old.drop 16).take 16
          let leaves := glb && xHosted old && !xDraining old && !(xHomes (padTo 32 g)).contains s1.self
          let loc' := if !leaves then loc
            else if bitOf fl 1 then leBytes 1 3 ++ (loc.drop 1).take 1 ++ leBytes 2 (xGen g) ++ zeros 4 ++ loc.drop 8
            else leBytes 1 0 ++ loc.drop 1
          let w := (s1.daWrite (s1.exhDa e + 16) loc').1
          let s2 : State := if lcl && !xDraining (zeros 16 ++ loc') then { w with fab := { w.fab with drains := SMap.del w.fab.drains e } } else w
          let s3 := if leaves && bitOf fl 1 then
              ({ s2 with fab := { s2.fab with drains := SMap.put s2.fab.drains e (s2.validPeers, []) } } : State).drainCheckExp e
            else s2
          let gen := if glb then xGen g else xGen old
          let ps := if glb && bitOf fl 0 then s3.validPeers else []
          if ps = [] then s3.complete qp d stOK (leBytes 2 gen)
          else
            let s4 : State := { s3 with fab := { s3.fab with maps := s3.fab.maps ++ [⟨qp, idx, e, ps, 0, 0⟩] } }
            ps.foldl (fun a i => a.post i opGEN false 0 e 0 16 g false (.map qp idx)) s4))

/-! ### Send rings (R222, R223, R230) -/

def State.fxrBase (s : State) (t : Nat) : Nat := 4096 * s.fget F.FXR_BASE_LO_BASE t + 2 ^ 32 * s.fget F.FXR_BASE_HI_BASE_HI t
/-- Decode a send descriptor of a program of dispatch `disp`; the status for a local DA with bit 39 set is BAD_DESC (R9, log entry 87). -/
def decodeSend (disp : Option Nat) (b : List Byte) : Send :=
  let op := leAt b 0 1
  let fl := leAt b 1 1
  let len := leAt b 4 4
  let ops : List Nat := [opWRITE, opREAD_REQ, opFETCH_ADD, opTOK]
  let ok := ops.contains op && decide (fl < 8) && (!bitOf fl 2 || op == opWRITE) && (op == opTOK || decide (leAt b 2 2 < 2 ^ 14))
    && decide (1 ≤ len ∧ len < 2 ^ 24) && zeroAt b 44 20 && (op == opREAD_REQ || op == opFETCH_ADD || daOk (leAt b 8 8) len)
    && (op != opREAD_REQ || daOk (leAt b 24 8) len) && (!bitOf fl 1 || daOk (leAt b 32 8) 16)
  ⟨op, fl, leAt b 2 2 % 2 ^ 14, len, leAt b 8 8, leAt b 16 8, leAt b 24 8, leAt b 32 8, leAt b 40 4, !ok, 0, disp⟩
/-- Take descriptors while fewer than 64 wait. -/
def State.ringTake : Nat → State → Nat → Nat → State
  | 0, s, _, _ => s
  | fuel + 1, s, t, prod =>
    let cons := SMap.get s.fab.cons t 0
    let l := SMap.get s.fab.sends t []
    if prod = cons || 64 ≤ l.length then s
    else
      let r := s.daRead (s.fxrBase t + 64 + 64 * (cons % 2 ^ s.fget F.FXR_CFG_LOG2 t)) 64 4
      let x := decodeSend ((s.tileDisp t).map (·.1)) (if r.2.2.isSome then zeros 64 else r.2.1)
      let next := (cons + 1) % 2 ^ 32
      let s1 : State := { r.1 with fab := { r.1.fab with cons := SMap.put r.1.fab.cons t next, sends := SMap.put r.1.fab.sends t (l ++ [x]) } }
      State.ringTake fuel (s1.daWrite (s1.fxrBase t + 8) (leBytes 8 next)).1 t prod
/-- A base-die reset has closed the fabric engine of the tile's tower to new descriptors (R385). -/
def State.pathShut (s : State) (t : Nat) : Bool :=
  s.fget F.RST_STATE_PHASE 0 != 0 && s.fget F.RST_STATE_SCOPE 0 == 3 && s.fget F.RST_STATE_TARGET 0 == towerOf t
/-- FXR_RING_POLL: the fabric engine reads the producer word and takes descriptors in ring order. -/
def execFxrRingPoll (t : Fin 128) (s : State) : Out :=
  .next (s.settle (.fxrRingPoll t) fun s => if !s.flag F.FXR_CFG_EN t || !s.flag F.VRX_CTL_RUN 0 || s.pathShut t then s
    else
      let r := s.daRead (s.fxrBase t) 8 4
      if r.2.2.isSome then r.1 else r.1.ringTake 64 t (leAt r.2.1 0 4))

/-- The home that R230 chooses for a record, or none while the slot is ABSENT; with the entry's GEN and the record's bytes. -/
def State.tokRoute (s : State) (x : Send) : State × Option (Nat × Nat) × List Byte × Bool :=
  let r := s.exhRead (x.arg0 % 2 ^ 16)
  let d := r.1.fabRead x.src x.len
  let rec_ := d.2.1
  let home := xHome r.2 ((leAt rec_ 32 4 + leAt rec_ 4 2 % 2 ^ 14) % (xNrep r.2 + 1))
  (d.1, if xLive r.2 then some (home, xGen r.2) else none, putAt rec_ 2 2 (xGen r.2), d.2.2.isSome)
/-- A record that a slot holds: its credit is asked for (R224). -/
def State.tokFits (s : State) (x : Send) : Bool := x.op == opTOK && !x.bad && decide (x.len ≤ 2 ^ (13 + s.fget F.VRX_RXPOOL_SLOT_LOG2 0))
/-- The descriptor waits for credit: its record has a home that takes messages, and none of its slots is the module's (R222, R224). -/
def State.waitsCredit (s : State) (x : Send) : Bool :=
  s.tokFits x && (let r := s.tokRoute x
    match r.2.1 with
    | none => false
    | some (home, _) => !r.2.2.2 && (r.1.peerState home).2 == psVALID && r.1.creditAt home == 0)
/-- SEND_MESSAGE: the `k`-th waiting descriptor of tile `t` starts its message once order and credit allow (R222, R224). -/
def execSendMessage (t : Fin 128) (k : Nat) (s : State) : Out :=
  .next (s.settle (.sendMessage t k) fun s =>
    let l := SMap.get s.fab.sends t []
    match if s.pathShut t then none else l[k]? with
    | none => s
    | some x =>
      if (l.take k).any (fun y => !s.waitsCredit y) || (0 < k && bitOf x.flags 0) then s
      else
        let take (a : State) : State := { a with fab := { a.fab with sends := SMap.put a.fab.sends t ((SMap.get a.fab.sends t []).eraseIdx k) } }
        let o : Owner := .ring t x
        if x.bad || (x.op = opTOK && !s.tokFits x) then (take s).statusWord x vsBAD_DESC 0
        else if x.op = opTOK then
          let r := s.tokRoute x
          match r.2.1 with
          | none => (take r.1).statusWord x vsNO_HOME 0
          | some (home, gen) =>
            let v := r.1.peerState home
            if r.2.2.2 then (take r.1).statusWord x vsLOCAL_UE 0
            else if v.2 ≠ psVALID then (take v.1).statusWord x (if v.2 = psUNREACH then vsUNREACH else vsREMOVED) 0
            else if r.1.creditAt home = 0 then
              let p := r.1.peer home
              if p.asked then r.1
              else
                let want := (l.filter s.tokFits).length
                (r.1.setPeer home { p with asked := true }).post home opCREDIT false 1 want 0 0 [] false .plain
            else
              let s1 := (take r.1).useCredit home
              let s2 := if 0 < x.tries then s1.vrxTdc o else s1
              s2.post home opTOK (bitOf x.flags 0) x.tag (x.arg0 % 2 ^ 16 + 2 ^ 16 * gen) 0 x.len r.2.2.1 false o
        else if x.op = opWRITE then
          let d := s.fabRead x.src x.len
          let arg1 := if bitOf x.flags 2 then x.arg1 else 0
          if d.2.2.isSome then
            let s1 := if d.2.1 = [] then take d.1
              else (take d.1).post x.dest opWRITE (bitOf x.flags 0) x.tag x.arg0 arg1 x.len d.2.1 false (.cut t x.disp)
            s1.statusWord x vsLOCAL_UE 0
          else (take d.1).post x.dest opWRITE (bitOf x.flags 0) x.tag x.arg0 arg1 x.len d.2.1 false o
        else (take s).post x.dest x.op (bitOf x.flags 0) x.tag x.arg0 x.arg1 x.len [] true o)

/-! ### The handshake (R356) -/

def isKeyx (step : Nat) : Nat → Nat → Bool := fun op a => op == opKEYX && a == step
/-- KEYX_HELLO: the peer's nonce; answered with a quote for it. After a finished handshake it says that the peer begins anew. -/
def execKeyxHello (peer msn : Nat) (s : State) : Out :=
  .next (s.withRx peer msn (isKeyx 1) (fun s m =>
    let x := s.peer peer
    let s1 := s.setPeer peer (if (s.linkKey peer).isSome then { x with pnonce := m.data, nonce := [], quote := none, ssOwn := [], ssPeer := [], holds := [] }
      else { x with pnonce := m.data })
    let s2 := if (s1.peer peer).nonce = [] then s1.sendHello peer else s1
    match s2.quote m.data with
    | none => s2
    | some q => s2.post peer opKEYX false 0 2 0 q.length q false .plain))
/-- KEYX_QUOTE: verified or rejected; an accepted peer gets an encapsulation to its SKEM. -/
def execKeyxQuote (peer msn : Nat) (s : State) : Out :=
  .next (s.withRx peer msn (isKeyx 2) (fun s m =>
    let q := m.data
    if !s.quoteAccepted q (s.peer peer).nonce then (s.event F.SEC_STAT_PEER_REJ 0).raise 0x4B 0 peer 0
    else
      let f := s.free 256
      let c := Config.mlkemEncap ((q.drop 4160).take 1184) f.1
      let s1 := f.2.setPeer peer { f.2.peer peer with quote := some q, ssOwn := c.1 }
      (s1.post peer opKEYX false 0 3 0 c.2.length c.2 false .plain).sendKeys peer))
/-- KEYX_ENCAP: the peer's secret, opened with SKEM; keys follow once the link key exists. -/
def execKeyxEncap (peer msn : Nat) (s : State) : Out :=
  .next (s.withRx peer msn (isKeyx 3) (fun s m =>
    match s.skemSeed with
    | none => s
    | some sk => (s.setPeer peer { s.peer peer with ssPeer := Config.mlkemDecap sk m.data }).sendKeys peer))
/-- KEYX_KEY: a peer port's transmit key, opened under LK and acknowledged. -/
def execKeyxKey (peer msn : Nat) (s : State) : Out :=
  .next (s.withRx peer msn (isKeyx 4) (fun s m =>
    match s.linkKey peer with
    | none => s
    | some lk =>
      match gcmUnseal lk (m.data.take 12) (m.data.drop 12) [] with
      | none => s
      | some pt =>
        let p := leAt pt 0 1
        let k := leAt pt 1 1
        let x := s.peer peer
        (s.setPeer peer { x with keys := (p, k, (pt.drop 2).take 32) :: x.keys.filter (fun y => !(y.1 == p && y.2.1 == k)) }).post peer opKEYX
          false 0 5 0 2 (leBytes 1 p ++ leBytes 1 k) false .plain))
/-- KEYX_KEY_ACK: the peer holds the key; keying or a key switch goes on. -/
def execKeyxKeyAck (peer msn : Nat) (s : State) : Out :=
  .next (s.withRx peer msn (isKeyx 5) (fun s m =>
    let p := leAt m.data 0 1 % 8
    let k := leAt m.data 1 1 % 2
    let x := s.peer peer
    let s1 := s.setPeer peer { x with holds := (p, k) :: x.holds.filter (· ≠ (p, k)) }
    (if (s1.port p).newKey = some k then s1.keyAnswer p peer else s1).pump peer))

/-! ### Time (R236) -/

/-- A timestamp of a PTP message in ns: seconds and nanoseconds, big-endian, at byte 34; and its correction field. -/
def ptpTime (b : List Byte) : Nat :=
  1000000000 * leNat ((b.drop 34).take 6).reverse + leNat ((b.drop 40).take 4).reverse
def ptpCorr (b : List Byte) : Int := signed 64 (leNat ((b.drop 8).take 8).reverse) / 65536
/-- A PTP message of the module's domain with a correction field (log entry 24). -/
def State.ptpMsg (s : State) (ty t : Nat) (corr : List Byte) : List Byte :=
  leBytes 1 ty ++ leBytes 1 2 ++ beBytes 2 44 ++ leBytes 1 (s.fget F.TSY_CFG_DOMAIN 0) ++ zeros 3 ++ padTo 8 corr ++ zeros 18 ++ beBytes 6 (t / 1000000000) ++ beBytes 4 (t % 1000000000)
/-- A measured offset from the grandmaster: shown, LOCKED while the last 16 lie within ±20 ns; a positive correction steps before
stage 9, everything else is slewed. -/
def State.timeOffset (s : State) (off : Int) : State :=
  let l := (off :: s.fab.offsets).take 16
  let s1 := ((s.fput F.TSY_OFFSET_OFFSET 0 (wrap 32 off)).fput F.TSY_STAT_LOCKED 0
    (b2n (l.length == 16 && l.all (fun o => decide (-20 ≤ o ∧ o ≤ 20)))))
  if s1.fget F.BOOT_STAT_STAGE 0 < 9 && decide (off < 0) then
    { s1 with clk := { s1.clk with ns := s1.clk.ns + off.natAbs }, fab := { s1.fab with offsets := l, owed := 0 } }
  else { s1 with fab := { s1.fab with offsets := l, owed := -off } }
/-- TIME: a PTP message is timestamped and processed: Sync and Follow_Up give t1 and t2, Delay_Req is answered by the grandmaster with its
correction, Delay_Resp closes the measurement. -/
def execVrxTime (peer msn : Nat) (s : State) : Out :=
  .next (s.withRx peer msn (isOp opTIME) (fun s m =>
    let b := m.data
    let ty := m.arg0 % 16
    let gm := s.flag F.TSY_CFG_GM 0
    if leAt b 4 1 ≠ s.fget F.TSY_CFG_DOMAIN 0 then s
    else if ty = 0 && !gm then
      { s with fab := { s.fab with gm := some peer, t1 := (ptpTime b + ptpCorr b).toNat, t2 := m.at_, syncCorr := ptpCorr b } }
    else if ty = 8 && !gm && s.fab.gm == some peer then
      { s with fab := { s.fab with t1 := (ptpTime b + ptpCorr b + s.fab.syncCorr).toNat } }
    else if ty = 1 && gm then
      let d := s.ptpMsg 9 m.at_ ((b.drop 8).take 8)
      s.post peer opTIME false 0 9 0 d.length d false .plain
    else if ty = 9 && !gm && s.fab.gm == some peer then
      let t4 : Int := ptpTime b - ptpCorr b
      s.timeOffset ((((s.fab.t2 : Int) - s.fab.t1) - (t4 - s.fab.t3)) / 2)
    else s))
/-- SYNC_INTERVAL: the grandmaster sends Sync to every VALID peer, an ordinary clock sends Delay_Req to its grandmaster; both are stamped
as they leave (`State.sendPacket`). -/
def execSyncInterval (s : State) : Out :=
  .next (if s.flag F.TSY_CFG_GM 0 then
      let d := s.ptpMsg 0 0 []
      s.validPeers.foldl (fun a i => a.post i opTIME false 0 0 0 d.length d false .plain) s
    else match s.fab.gm with
      | none => s
      | some i =>
        let d := s.ptpMsg 1 0 []
        s.post i opTIME false 0 1 0 d.length d false .plain)

end Sys2Proof.Machine
end

