-- ==== Sys2Proof/Machine/FwOps.lean ====
section
/-! DEFINITION. Images, staging and activation as firmware commands share them (R406, R407, R410 to R415, R417, R418, R420). -/

namespace Sys2Proof.Machine

/-! ### Images (R406, R407) -/

/-- An image in two parts. -/
structure Image where
  hdr : List Byte
  pay : List Byte
  deriving DecidableEq, Repr

def Image.kind (i : Image) : Nat := leAt i.hdr 8 1
def Image.slot (i : Image) : Nat := leAt i.hdr 9 1
def Image.svn (i : Image) : Nat := leAt i.hdr 10 1
def Image.igen (i : Image) : Nat := leAt i.hdr 12 4
def Image.len (i : Image) : Nat := leAt i.hdr 16 4
def Image.clevel (i : Image) : Nat := leAt i.hdr 24 2
def Image.cmin (i : Image) : Nat := leAt i.hdr 26 2
def Image.phash (i : Image) : List Byte := (i.hdr.drop 32).take 32
/-- The image in a run of bytes. -/
def imageOf (b : List Byte) : Image := let h := padTo 4096 b
  ⟨h, (b.drop 4096).take (leAt h 16 4)⟩
def Image.bytes (i : Image) : List Byte := i.hdr ++ i.pay
/-- Generation `a` is newer than `b`. -/
def newerGen (a b : Nat) : Bool := let d := dist32 a b
  decide (1 ≤ d ∧ d < 2 ^ 31)
/-- MAGIC, KIND and the reserved fields. -/
def Image.formOk (i : Image) : Bool :=
  i.hdr.take 8 == ascii "KGXFWIM1" && decide (i.kind < 4) && zeroAt i.hdr 11 1 && zeroAt i.hdr 28 4 && zeroAt i.hdr 3373 723
/-- The signature of R342. -/
def Image.signed (i : Image) : Bool :=
  Config.mldsaVerify 65 (Config.fwKey i.slot) (sha (i.hdr.take 64 ++ zeros 3309 ++ i.hdr.drop 3373 ++ i.pay)) ((i.hdr.drop 64).take 3309)
/-- The check of R407 for a place that takes `kinds`: 0, or the first cause that holds. -/
def State.imageCause (s : State) (i : Image) (kinds : List Nat) : Nat :=
  if !i.formOk then 1
  else if 1 < i.slot || sha3 (Config.fwKey i.slot) != beBytes 32 (Config.keySlot i.slot).toNat then 2
  else if Config.revoked i.slot then 3
  else if i.svn < s.fget F.SEC_LC_SVN 0 then 4
  else if !i.signed then 5
  else if i.phash != sha i.pay then 6
  else if s.fget F.FWS_CLEVEL_CLEVEL 0 < i.cmin || !kinds.contains i.kind then 7
  else 0

/-! ### The staging area (R410) -/

def fwIDLE : Nat := 0
def fwSTAGING : Nat := 1
def fwCOMPLETE : Nat := 2
def fwACTIVATING : Nat := 3
def State.fwState (s : State) : Nat := s.fget F.FWS_STATE_STATE 0
def State.fwIgen (s : State) : Nat := s.fget F.FWS_IGEN_IGEN 0
/-- An image is staged. -/
def State.fwStaged (s : State) : Bool := s.fwState != fwIDLE
/-- Chunk `n` lies where the image, stored whole, has it (log entry 27). -/
def State.chunkDa (s : State) (n : Nat) : Nat :=
  s.kvBase .FWS_STAGE_LO .FWS_STAGE_HI 27 + (if n = 0 then 0 else 4096 + 65536 * (n - 1))
def State.stagedLen (s : State) : Nat := s.peek8 (s.chunkDa 0 + 16) % 2 ^ 32
/-- The length of chunk `n` as far as it is known. -/
def State.chunkLenOk (s : State) (n len : Nat) (head : Bool) : Bool :=
  if n = 0 then len == 4096
  else if head then len == min 65536 (s.stagedLen - 65536 * (n - 1))
  else decide (1 ≤ len ∧ len ≤ 65536 ∧ n ≤ 1024)
/-- The cases of R410 in which a chunk is refused. -/
def State.chunkRefused (s : State) (n len igen : Nat) : Bool :=
  let same := s.fwStaged && s.fwIgen == igen
  let head := same && s.fw.have_.contains 0
  !newerGen igen (s.fget F.FWS_RUN_IGEN 0) || s.fwStaged && newerGen s.fwIgen igen
    || head && s.fw.nchunk.any (fun c => decide (c ≤ n)) || !s.chunkLenOk n len head
/-- Discard the staged image. -/
def State.fwDiscard (s : State) : State :=
  let s1 : State := { s with fw := { s.fw with have_ := [], nchunk := none, root := none, asked := [], sent := [] } }
  s1.rput .FWS_STATE 0 (BitVec.ofNat 32 (2 ^ 8 * s1.fget F.FWS_STATE_CAUSE 0))
/-- A chunk arrives now (R419). -/
def State.chunkCame (s : State) : State := { s with fw := { s.fw with chunkAt := s.clk.ns } }
/-- GAP_MS in ns. -/
def State.gapNs (s : State) : Nat := 10 ^ 6 * max 1 (s.fget F.FWS_CFG_GAP_MS 0)
/-- Store a good chunk. -/
def State.fwStore (s : State) (n igen : Nat) (data : List Byte) (nchunk : Option Nat) (root : Option Nat) (bcast : Bool) : State :=
  let fresh := !s.fwStaged || newerGen igen s.fwIgen
  let s1 := if s.fwStaged && fresh then s.event F.FWS_STAT_SUPERSEDED 0 else s
  let s2 := if fresh then
      let a := s1.fwDiscard
      (({ a with fw := { a.fw with root := root } } : State).fput F.FWS_IGEN_IGEN 0 igen).fput F.FWS_STATE_BCAST 0 (b2n bcast)
    else s1
  let s3 := (s2.daWrite (s2.chunkDa n) data).1
  let nc := if n = 0 then some (leAt data 20 4) else match s3.fw.nchunk with
    | some c => some c
    | none => nchunk
  let held := (if s3.fw.have_.contains n then s3.fw.have_ else n :: s3.fw.have_).filter (fun k => nc.all (fun c => decide (k < c)))
  let s4 : State := { s3 with fw := { s3.fw with have_ := held, nchunk := nc } }
  let s5 := (if n = 0 then s4.fput F.FWS_STATE_KIND 0 (leAt data 8 1) else s4).fput F.FWS_STATE_HAVE 0 held.length
  s5.fput F.FWS_STATE_STATE 0 (if nc = some held.length then fwCOMPLETE else fwSTAGING)

/-! ### Broadcast messages (R417, R418) -/

/-- A chunk message: the 64-byte chunk header and the data. -/
def State.chunkMsg (s : State) (data : List Byte) : List Byte :=
  sha data ++ leBytes 4 (s.fw.nchunk.getD 0) ++ leBytes 1 (s.fget F.FWS_STATE_KIND 0) ++ zeros 3 ++ leBytes 4 data.length
    ++ leBytes 2 (s.fw.root.getD s.self) ++ zeros 18 ++ data
def State.sendChunk (s : State) (i n : Nat) (data : List Byte) : State :=
  let d := s.chunkMsg data
  let s1 := if data = [] then s else { s with fw := { s.fw with sent := (i, n) :: s.fw.sent } }
  s1.post i opFW false 0 n s.fwIgen d.length d false .plain
/-- Forward a chunk to the children that do not hold it. -/
def State.fwForward (s : State) (n : Nat) (data : List Byte) : State :=
  if !s.flag F.FWS_CFG_BCAST_EN 0 then s
  else (s.fwChildren.filter (fun c => !s.fw.sent.contains (c, n))).foldl (fun a c => a.sendChunk c n data) s
/-- Send the activation mark. -/
def State.sendMark (s : State) (i : Nat) : State := s.post i opFW false 0 (2 ^ 63) (s.fget F.FWS_RUN_IGEN 0) 0 [] false .plain

/-! ### Activation (R411 to R415, R420) -/

/-- The activation has ended: its descriptor completes, and the mark goes to the children. -/
def State.fwDone (s : State) : State :=
  let s1 := (s.event F.FWS_STAT_DONE 0).fput F.FWS_STATE_STATE 0 fwIDLE
  let s2 : State := { s1 with fw := { s1.fw with act := none, bcastAct := false, withdrawn := [] } }
  let s3 := match s.fw.act with
    | none => s2
    | some (q, i) => match s2.descr q i with
      | none => s2
      | some d => s2.complete q d stOK d.noResult
  if s3.flag F.FWS_CFG_BCAST_EN 0 then s3.fwChildren.foldl (fun a c => a.sendMark c) s3 else s3
/-- A consumer takes the new calibration table: 0 the meters and coefficients, 1 + w the model of tower w, 5 + t engine t. The last
one ends the activation (R415). -/
def State.calTook (s : State) (code : Nat) : State :=
  if !s.fw.calWait.contains code then s
  else
    let s1 : State := { s with fw := { s.fw with calWait := s.fw.calWait.filter (· ≠ code) } }
    if s1.fw.calWait ≠ [] then s1
    else (s1.measure 4 s1.fw.svn (sha (s1.boot.cal.getD Config.calTable)) []).fwDone
/-- Engines enabled in the map of R4. -/
def State.enabledTiles (s : State) : List Nat := (List.range 128).filter (fun t => !s.disabled t)
/-- The microcode set that an engine holds, by IGEN. -/
def State.ucodeOf (s : State) (t : Nat) : Nat := SMap.get s.fw.ucode t 0
/-- Enabled engines hold different sets (R414). -/
def State.ucodeMixed (s : State) : Bool :=
  let l := s.enabledTiles.map s.ucodeOf
  l.any (fun a => a != l.headD 0)
/-- Withdraw the next engines, or end the activation of a microcode set when every engine has been loaded or fenced (R413). -/
def State.ucodeNext (s : State) : State :=
  let rest := s.enabledTiles.filter (fun t => s.ucodeOf t ≠ s.fwIgen)
  if rest = [] then
    (({ s with fw := { s.fw with withdrawn := [] } } : State).measure 2 s.fw.svn s.fw.phash []).fwDone
  else { s with fw := { s.fw with withdrawn := rest.take (max 1 (s.fget F.FWS_UCFG_PAR 0)) } }
/-- The staged image as it stands in memory; whether every word of it was good. -/
def State.stagedImage (s : State) : State × Image × Bool :=
  let r := s.fabRead (s.chunkDa 0) 4096
  let n := leAt r.2.1 16 4
  let p := r.1.fabRead (s.chunkDa 1) (min n (2 ^ 26))
  (p.1, ⟨padTo 4096 r.2.1, p.2.1⟩, r.2.2.isNone && p.2.2.isNone)
/-- Steps 1 to 4 of a hand-over: the trap in progress ends, commands and trap actions wait, the new image is measured and starts (R412). -/
def State.handOver (s : State) (i : Image) : State :=
  let s0 : State := { s with fw := { s.fw with handover := true, heldTraps := true, startAt := s.clk.ns }, sec := { s.sec with svn := i.svn } }
  let s1 := (s0.fput F.FLT_TQ_VALID 0 0).fput F.FLT_TQ_SRC 0 0
  (s1.measure 1 i.svn (sha i.bytes) []).rput .FWS_CLEVEL 0 (BitVec.ofNat 32 (i.clevel + 2 ^ 16 * i.cmin))
/-- Check the staged image and apply it; false when it is rejected. -/
def State.fwActivate (s : State) (act : Option (Nat × Nat)) (bcast : Bool) : State × Bool :=
  let r := s.stagedImage
  let i := r.2.1
  let c0 := r.1.imageCause i (if s.fw.recovery then [3] else [0, 1, 2, 3])
  let c := if c0 = 0 && !r.2.2 then 6 else c0
  if c ≠ 0 then ((r.1.fput F.FWS_STATE_CAUSE 0 c).event F.FWS_STAT_REJ 0, false)
  else
    let s1 : State := { r.1 with fw := { r.1.fw with act := act, bcastAct := bcast, mark := none, phash := i.phash, svn := i.svn } }
    let s2 := (s1.fput F.FWS_RUN_IGEN 0 s1.fwIgen).fput F.FWS_STATE_STATE 0 fwACTIVATING
    (match i.kind with
     | 0 => s2.handOver i
     | 1 => (s2.fput F.FWS_UPROG_DONE 0 0).ucodeNext
     | 2 => { s2 with boot := { s2.boot with cal := some i.pay }
                      fw := { s2.fw with calWait := [0, 1, 2, 3, 4] ++ s2.enabledTiles.map (5 + ·) } }
     | _ => ({ s2 with boot := { s2.boot with recImg := some i.bytes }, fw := { s2.fw with recValid := true } } : State).fwDone, true)
/-- A complete, checked image whose mark is held activates (R420). -/
def State.fwTryMark (s : State) : State :=
  if s.flag F.FWS_CFG_BCAST_EN 0 && s.fwState == fwCOMPLETE && s.fw.mark == some s.fwIgen then (s.fwActivate none true).1 else s

end Sys2Proof.Machine
end

