-- ==== Sys2Proof/Machine/Spm.lean ====
section
/-! DEFINITION. Scratchpad banks: hand-over, wipes, patrol and write-back (R106 to R117). -/

namespace Sys2Proof.Machine

/-- Set or clear bit `b` of `SPM_HOSTATE` to match hand-over and wipe. -/
def State.hostate (s : State) (t b : Nat) : State :=
  let e := s.eng t
  let w := (s.rget .SPM_HOSTATE t).toNat
  s.rput .SPM_HOSTATE t (BitVec.ofNat 32 (if (SMap.find e.hand b).isSome || e.wiping.contains b then setBit w b else clrBit w b))
/-- The SECURE bit of a bank. -/
def State.secureBank (s : State) (t b : Nat) : Bool := bitOf (s.rget .SPM_SECURE t).toNat b

/-- One OWNER field of a write (R106, R111, R112). -/
def State.ownerWrite (s : State) (t b v : Nat) (host : Bool) : State :=
  if 5 ≤ v then s.event F.SPM_STAT_DENIED t
  else if s.owner t b = v then s
  else if host && s.conf && s.secureBank t b then s.event F.SPM_STAT_DENIED t
  else
    let old := s.owner t b
    let s1 := s.setOwner t b v
    let e := s1.eng t
    let p := s1.stop t
    let mark (h : Held) : Held :=
      if old = (if h.from_ = 128 then OwnClass.svc else OwnClass.remote).code && !h.granted.contains b then { h with granted := b :: h.granted } else h
    if (SMap.find e.hand b).isSome then s1
    else ((s1.setStop t { p with ingress := p.ingress.map mark }).setEng t { e with hand := SMap.put e.hand b old }).hostate t b
/-- SPM_OWNER_WRITE: a write of `SPM_OWN0` or `SPM_OWN1`. -/
def execSpmOwnerWrite (t : Fin 128) (src : By) (hi : Bool) (v : Word) (s : State) : Out :=
  .next (s.viaPort 0 src ((List.range 8).foldl (fun a i =>
    a.ownerWrite t (if hi then 8 + i else i) (bits v.toNat (4 * i + 2) (4 * i)) src.isHost) s))

/-- An access of the outgoing class that the stop accepted before the hand-over is still under way: a held packet, or words of the bank-side
exchange (R111). -/
def State.handBusy (s : State) (t b out : Nat) : Bool :=
  (s.stop t).ingress.any (fun h => h.granted.contains b && (banksOf h.addr (max h.data.length h.read)).contains b)
    || (out == 4 && s.fget F.BSC_RING_BANK t == b
        && (List.range 64).any (fun c => let k := s.core t c; !k.expq.isEmpty || !k.pendImp.isEmpty))
/-- HANDOVER_COMPLETE: the last access of the outgoing class has completed; the new class is admitted (R111). -/
def execHandoverComplete (t : Fin 128) (bank : Fin 16) (s : State) : Out :=
  .next (let e := s.eng t
    match SMap.find e.hand bank with
    | none => s
    | some out => if s.handBusy t bank out then s else (s.setEng t { e with hand := SMap.del e.hand bank }).hostate t bank)

/-- Every byte and check bit of a bank becomes zero and valid. -/
def State.zeroBank (s : State) (t b : Nat) : State :=
  let lo := spmKey t (2 ^ 19 * b)
  { s with spm := SMap.drop s.spm (fun k => decide (lo ≤ k ∧ k < lo + 2 ^ 19))
           spmErr := SMap.drop s.spmErr (fun k => decide (lo / 8 ≤ k ∧ k < lo / 8 + 2 ^ 16)) }
/-- A wipe begins (R113). The bank of a power-gated engine loses its contents at once, and its wipe ends at the next wake; one that is off
holds nothing, and is wiped whole at power-up (R114, R115). -/
def State.wipeStart (s : State) (t b : Nat) : State :=
  let e := s.eng t
  if e.power = .off ∨ e.power = .fusedOff then s.zeroBank t b
  else
    let s1 := (s.setEng t { e with wiping := if e.wiping.contains b then e.wiping else e.wiping ++ [b] }).hostate t b
    if e.power = .lull2 then s1.zeroBank t b else s1
/-- A wipe ends: zeros, WIPED, a SECURE bit that waited for it clears (R113, R114). -/
def State.wipeEnd (s : State) (t b : Nat) : State :=
  let e := s.eng t
  let s1 := ((s.zeroBank t b).setEng t { e with wiping := e.wiping.filter (· ≠ b), unsecure := e.unsecure.filter (· ≠ b)
                                                wback := e.wback.filter (fun w => decide (w / 2 ^ 16 ≠ b)) }).hostate t b
  let s2 := if e.unsecure.contains b then s1.rput .SPM_SECURE t (BitVec.ofNat 32 (clrBit (s1.rget .SPM_SECURE t).toNat b)) else s1
  s2.event F.SPM_STAT_WIPED t

/-- SPM_SECURE_WRITE: set bits at once, clear bits after a wipe, which invalidates the staging buffer (R112, R114, R207). -/
def execSpmSecureWrite (t : Fin 128) (src : By) (v : Word) (s : State) : Out :=
  .next (s.viaPort 0 src (if src.isHost && s.conf then s.event F.SPM_STAT_DENIED t
    else (List.range 16).foldl (fun a b =>
      let e := a.eng t
      if bitOf v.toNat b then
        (a.setEng t { e with unsecure := e.unsecure.filter (· ≠ b) }).rput .SPM_SECURE t
          (BitVec.ofNat 32 (setBit (a.rget .SPM_SECURE t).toNat b))
      else if a.secureBank t b && !e.unsecure.contains b then
        ((a.setEng t { e with unsecure := e.unsecure ++ [b] }).setStop t { a.stop t with stage := [] }).wipeStart t b
      else a) s))

/-- SPM_PATROL_READ: the 128 words of one line (R117). -/
def execSpmPatrolRead (t : Fin 128) (bank : Fin 16) (line : Fin 512) (s : State) : Out :=
  .next (let e := s.eng t
    if s.flag F.SPM_CFG_PATROL_EN t && !e.wiping.contains bank.val && (e.power == .on || e.power == .lull1) then
      (List.range 128).foldl (fun a i => (a.spmWord t (2 ^ 19 * bank.val + 1024 * line.val + 8 * i)).1) s
    else s)

/-- SPM_CORRECTED_WRITEBACK: the corrected word replaces the stored one; a wrong correction of three or more flips stores a value
that the spec leaves open (R116, R118). -/
def execSpmCorrectedWriteback (t : Fin 128) (word : Fin 1048576) (s : State) : Out :=
  .next (let e := s.eng t
    if !e.wback.contains word.val then s
    else
      let s1 := s.setEng t { e with wback := e.wback.filter (· ≠ word.val) }
      let k := spmKey t (8 * word.val) / 8
      let m := SMap.get s.spmErr k 0
      if flips m ≤ 1 then { s1 with spmErr := SMap.del s1.spmErr k }
      else
        let f := s1.free 64
        f.2.spmPut t (8 * word.val) (leBytes 8 f.1))

/-- SPM_DMACOLL_CLR (R109). -/
def execSpmDmacollClr (t : Fin 128) (chans : Byte) (s : State) : Out :=
  .next (s.rput .SPM_DMACOLL t (BitVec.ofNat 32 ((bitList chans.toNat 8).foldl clrBit (s.rget .SPM_DMACOLL t).toNat)))

end Sys2Proof.Machine
end

