-- ==== Sys2Proof/Machine/MbxOps.lean ====
section
/-! DEFINITION. The two mailboxes and the commands they run (R340, R341, R347, R349, R350, R439 to R441). -/

namespace Sys2Proof.Machine

/-- Status codes of the mailboxes. -/
def mbOK : Nat := 0
def mbBAD_CMD : Nat := 1
def mbSTATE : Nat := 2
def mbBUSY : Nat := 3
def mbDENIED : Nat := 4
def mbAUTH : Nat := 5
def mbLOG_FULL : Nat := 6
def mbBUF_SMALL : Nat := 7
def mbHOST_ACCESS : Nat := 8
def mbRANGE : Nat := 9

def State.mbxArg (s : State) (m n : Nat) : Nat := (s.rget .MBX_ARG (8 * m + n)).toNat
def State.mbxBusy (s : State) (m : Nat) : Bool := s.flag F.MBX_STATE_BUSY m
def State.rspLen (s : State) (m : Nat) : Nat := s.fget F.MBX_RSP_LEN_LEN m
/-- Step 4 of R439: a command ends with a status and a response. -/
def State.mbxEnd (s : State) (m status : Nat) (resp : List Byte) : State :=
  let small := status = mbOK && decide (s.rspLen m < resp.length)
  let n := if status = mbOK then resp.length else 0
  let s1 := if status = mbOK && !small then s.hostWrite (s.get64 .MBX_RSP_LO .MBX_RSP_HI m) resp else s
  let s2 := ((s1.fput F.MBX_RESULT_STATUS m (if small then mbBUF_SMALL else status)).rput .MBX_RLEN m (BitVec.ofNat 32 n)).fput
    F.MBX_STATE_BUSY m 0
  let s3 := s2.event F.MBX_STAT_DONE m
  if s3.flag F.MBX_CFG_IRQ m then s3.msi 0 (s3.fget F.MBX_CFG_VEC m) else s3

/-! ### Lifecycle (R340, R341, R114) -/

/-- Every secure bank is wiped and owned by no class; staging buffers are invalidated. -/
def State.wipeSecure (s : State) : State :=
  (List.range 128).foldl (fun a t =>
    let a1 := (List.range 16).foldl (fun a b => if a.secureBank t b then (a.setOwner t b 0).wipeStart t b else a) a
    a1.setStop t { a1.stop t with stage := [] }) s
/-- No engine still wipes a secure bank; a power-gated one does until it wakes (R114). -/
def State.wiped (s : State) : Bool := (List.range 128).all (fun t => (s.eng t).wiping.all (fun b => !s.secureBank t b))
/-- Steps 4 to 6 of R341, once the wipes are complete. -/
def State.lcTry (s : State) : State :=
  match s.sec.lcWait with
  | none => s
  | some (target, key) =>
    if !s.wiped then s
    else
      let deploy := s.lcState = lcPROVISIONED && target = lcDEPLOYED
      let s1 := if deploy then s.fadd F.SEC_LC_KEY_EPOCH 0 1 else s
      let s2 : State := { s1 with sec := { s1.sec with lcWait := none
                                                       owner := if deploy then SMap.put s1.sec.owner s1.keyEpoch key else s1.sec.owner
                                                       rkOff := s1.sec.rkOff || target == lcRETURNED } }
      (s2.fput F.SEC_LC_STATE 0 target).mbxEnd 1 mbOK []
/-- The owner public key of the current epoch (log entry 31). -/
def State.ownerOf (s : State) : Option (List Byte) :=
  match SMap.find s.sec.owner s.keyEpoch with
  | some k => some k
  | none => if s.keyEpoch = Config.lcKeyEpoch then some Config.ownerKey else none
/-- LC_CHANGE with its request. -/
def State.lcChange (s : State) (req : List Byte) : State :=
  let b := padTo 5268 req
  let cur := s.lcState
  let target := leAt b 0 1
  let sig := (b.drop 4).take 3309
  let msg := sha (ascii "KGX-LC" ++ s.serial ++ leBytes 1 cur ++ leBytes 1 target ++ leBytes 4 s.keyEpoch
    ++ leBytes 8 (s.get64 .SEC_LCNONCE_LO .SEC_LCNONCE_HI 0))
  let good (k : Option (List Byte)) : Bool := k.any (fun k => Config.mldsaVerify 65 k msg sig)
  let verdict : Nat :=
    if s.flag F.KVM_CTL_RUN 0 || s.disps.any (fun d => d.2.running) then mbBUSY
    else if cur = lcBLANK ∧ target = lcPROVISIONED then (if good (some Config.provisionKey) then mbOK else mbAUTH)
    else if cur = lcPROVISIONED ∧ target = lcDEPLOYED then (if 63 ≤ s.keyEpoch then mbSTATE else mbOK)
    else if cur = lcDEPLOYED ∧ target = lcPROVISIONED then (if good s.ownerOf then mbOK else mbAUTH)
    else if (cur = lcPROVISIONED ∨ cur = lcDEPLOYED) ∧ target = lcRETURNED then
      (if good (some Config.returnKey) || good s.ownerOf then mbOK else mbAUTH)
    else mbSTATE
  let f := s.free 64
  let s1 := f.2.put64 .SEC_LCNONCE_LO .SEC_LCNONCE_HI 0 f.1
  if verdict ≠ mbOK then s1.mbxEnd 1 verdict []
  else
    let s2 := (s1.closeSessions (fun _ => true)).wipeSecure
    ({ s2 with sec := { s2.sec with lcWait := some (target, (b.drop 3313).take 1952) } } : State).lcTry

/-! ### Programs and sessions (R349, R350) -/

/-- Where PROG_LOAD places its image, and its verdict before the image is read. -/
def State.progDa (s : State) : Nat := s.progRegion.1 + 4096 * s.mbxArg 1 0
def State.progVerdict (s : State) (n : Nat) : Nat :=
  if 2 ^ 20 < n || s.progRegion.2 < s.progDa + n then mbRANGE else if s.logFullSec then mbLOG_FULL else mbOK
def State.progLoad (s : State) (img : List Byte) : State :=
  let v := s.progVerdict img.length
  if v ≠ mbOK then s.mbxEnd 1 v []
  else
    let da := s.progDa
    let s1 := ((s.daWrite da img).1).measure 3 0 (sha img) (leBytes 8 da)
    ({ s1 with sec := { s1.sec with approved := s1.sec.approved ++ [da], progLoaded := true } } : State).mbxEnd 1 mbOK []
/-- The lowest free SID. -/
def State.freeSid (s : State) : Option Nat := ((List.range 4095).map (· + 1)).find? (fun i => (s.session i).isNone)
/-- SESSION_OPEN with its request; refused on a part without confidential mode (R4). The mailbox belongs to function 0, so every session is bound to it. A response buffer that is too
small opens nothing; with every SID in use the command completes BUSY (log entry 32). -/
def State.sessionOpen (s : State) (req : List Byte) : State :=
  let b := padTo 1156 req
  let nc := (b.drop 1088).take 32
  if !s.flag F.GLB_FEATURES_CONF 0 then s.mbxEnd 1 mbDENIED []
  else match s.skemSeed with
  | none => s.mbxEnd 1 mbSTATE []
  | some seed =>
    let ss := Config.mlkemDecap seed (b.take 1088)
    if (b.drop 1120).take 32 ≠ kmac ss (ascii "KGX-CONF-C" ++ nc) 32 then (s.authFail).mbxEnd 1 mbAUTH []
    else match s.freeSid with
      | none => s.mbxEnd 1 mbBUSY []
      | some sid =>
        let id := leBytes 4 sid
        let resp := id ++ padTo 32 (kmac ss (ascii "KGX-CONF-M" ++ nc ++ id) 32)
        if s.rspLen 1 < 36 then s.mbxEnd 1 mbOK resp
        else
          let x : Session := ⟨sid, 0, kmac ss (ascii "KGX-SESS-IN" ++ nc ++ id) 32, kmac ss (ascii "KGX-SESS-OUT" ++ nc ++ id) 32, none, 0⟩
          let s1 : State := { s with sec := { s.sec with sessions := s.sec.sessions ++ [x] } }
          (s1.fput F.SEC_CONF_SESSIONS 0 s1.sec.sessions.length).mbxEnd 1 mbOK resp
/-- SESSION_CLOSE; a SID that names no session completes STATE (log entry 32). -/
def State.sessionClose (s : State) (sid : Nat) : State :=
  if (s.session sid).isNone then s.mbxEnd 1 mbSTATE []
  else if s.kv.sid.any (fun e => e.2 == sid) then s.mbxEnd 1 mbBUSY []
  else (s.closeSessions (fun x => x.sid = sid)).mbxEnd 1 mbOK []

/-! ### Running a command (R439 to R441) -/

/-- Act on a command whose request, if it has one, is at hand. -/
def State.mbxAct (s : State) (m code : Nat) (req : List Byte) : State :=
  if m = 0 then match code with
    | 1 => s.mbxEnd 0 mbOK (leBytes 4 (s.rget .FWS_RUN 0).toNat ++ leBytes 4 (s.rget .FWS_CLEVEL 0).toNat ++ leBytes 1 (s.fget F.SEC_LC_SVN 0)
        ++ leBytes 1 (b2n s.fw.recovery) ++ leBytes 1 (s.fget F.BOOT_STAT_STAGE 0) ++ zeros 5)
    | 2 => s.mbxEnd 0 mbOK s.manifest
    | 3 => s.mbxEnd 0 mbOK (s.boot.cal.getD Config.calTable)
    | _ => s.mbxEnd 0 mbBAD_CMD []
  else match code with
    | 1 => s.lcChange req
    | 2 => (s.fput F.SEC_LC_SVN 0 (max (s.fget F.SEC_LC_SVN 0) s.sec.svn)).mbxEnd 1 mbOK []
    | 3 =>
      if !s.flag F.GLB_FEATURES_CONF 0 || s.lcState ≠ lcDEPLOYED then s.mbxEnd 1 mbDENIED []
      else
        let a := s.mbxArg 1 0
        (({ s with sec := { s.sec with ideNext := bitOf a 1 } } : State).fput F.SEC_CONF_NEXT 0 (a % 2)).mbxEnd 1 mbOK []
    | 4 => s.progLoad req
    | 5 => s.sessionOpen req
    | 6 => s.sessionClose (s.mbxArg 1 0)
    | 7 => match s.quote ((List.range 8).flatMap (fun i => leBytes 4 (s.mbxArg 1 i))) with
      | none => s.mbxEnd 1 mbSTATE []
      | some q => s.mbxEnd 1 mbOK q
    | _ => s.mbxEnd 1 mbBAD_CMD []
/-- The command has a request in host memory; it writes a response there. -/
def mbxReads (m code : Nat) : Bool := m == 1 && (code == 1 || code == 4 || code == 5)
def mbxWrites (m code : Nat) : Bool := if m = 0 then 1 ≤ code && code ≤ 3 else code == 5 || code == 7
/-- A command that has been taken goes on: it waits for its responder or for IDE, reads its request, or acts. -/
def State.mbxStart (s : State) (m : Nat) : State :=
  let code := s.fget F.MBX_CTL_CMD m
  let wait (s : State) : State := { s with sec := { s.sec with mbxWait := s.sec.mbxWait ++ [m] } }
  if m = 0 && !s.fw.running && !s.fw.recovery then wait s
  else if m = 0 && s.fw.handover then s.mbxEnd 0 mbBUSY []
  else if (mbxReads m code || mbxWrites m code) && s.linkUp && !s.hostOpen then wait (s.event F.PCI_STAT_IDE_WAIT 0)
  else if mbxReads m code then
    let v := if code = 4 then s.progVerdict (s.fget F.MBX_REQ_LEN_LEN m) else mbOK
    if v ≠ mbOK then s.mbxEnd m v [] else { s with sec := { s.sec with mbxRead := s.sec.mbxRead ++ [m] } }
  else s.mbxAct m code []
/-- A write of `MBX_CTL` with GO = 1. -/
def State.mbxGo (s : State) (m code : Nat) : State :=
  if s.mbxBusy m then s.event F.MBX_STAT_BUSY_GO m
  else ((s.fput F.MBX_CTL_CMD m code).fput F.MBX_STATE_BUSY m 1).mbxStart m
/-- Mailboxes that waited go on. -/
def State.mbxResume (s : State) : State :=
  s.sec.mbxWait.foldl (fun a m => a.mbxStart m) { s with sec := { s.sec with mbxWait := [] } }
/-- Host memory has opened: requests that waited leave, and mailboxes that waited go on. -/
def State.hostOpened (s : State) : State := s.hostFlush.mbxResume
/-- The request of a mailbox has been read, or its read has failed. -/
def State.mbxReturn (s : State) (m : Nat) (ok : Bool) (data : List Byte) : State :=
  if !s.sec.mbxRead.contains m then s
  else
    let s1 : State := { s with sec := { s.sec with mbxRead := s.sec.mbxRead.filter (· ≠ m) } }
    if !ok then s1.mbxEnd m mbHOST_ACCESS []
    else if data.length ≠ s1.fget F.MBX_REQ_LEN_LEN m then s
    else s1.mbxAct m (s1.fget F.MBX_CTL_CMD m) data

/-- The contexts of the sessions that satisfy `p` become FAILED (R351, R357). -/
def State.failSessions (s : State) (p : Nat → Bool) : State :=
  (s.kv.sid.filter (fun e => p e.2)).foldl (fun a e => a.failCtx e.1) s

end Sys2Proof.Machine
end

