-- ==== Sys2Proof/Machine/EnrOps.lean ====
section
/-! DEFINITION. Energy periods, accumulators, the ledger, the leaf queue, batches and the seal (R314 to R335). -/

namespace Sys2Proof.Machine

/-! ### Splitting (R318, R320, R322) -/

/-- Insert before the first entry that does not come earlier. -/
def insertBy {α : Type} (le : α → α → Bool) (x : α) : List α → List α
  | [] => [x]
  | y :: ys => if le x y then x :: y :: ys else y :: insertBy le x ys
def sortBy {α : Type} (le : α → α → Bool) (l : List α) : List α := l.foldr (insertBy le) []
/-- Floor shares of `e` by weight, the remainder 1 nJ at a time in list order. -/
def shares {α : Type} (e : Nat) (l : List (α × Nat)) : List (α × Nat) :=
  let tot := (l.map (·.2)).sum
  let fl := l.map (fun x => (x.1, e * x.2 / tot))
  let rem := e - (fl.map (·.2)).sum
  (fl.zipIdx).map (fun p => (p.1.1, p.1.2 + b2n (decide (p.2 < rem))))
/-- The place of a charge among those of equal active time: context index, the overhead account before step sets, then the lowest
context of the set (log entry 30). -/
def Charge.rank (c : Charge) : Nat × Nat :=
  let lo := (c.items.map (·.1)).foldl min 0xFFFFF
  if c.set then (1, lo) else if lo = 0 then (0, 0) else (2, lo)
def rankLe (a b : Nat × Nat) : Bool := decide (a.1 < b.1) || (a.1 == b.1 && decide (a.2 ≤ b.2))
/-- Charges in descending active time (R322). -/
def byActive (l : List (Charge × Nat)) : List (Charge × Nat) :=
  sortBy (fun a b => decide (b.2 < a.2) || (a.2 == b.2 && rankLe a.1.rank b.1.rank)) (l.filter (fun x => decide (0 < x.2)))

/-- Energy that falls to a context: category 0 ENGINE, 1 BSC, 2 DRAM, 3 MESH, 4 FABRIC, 5 BASE; nJ; estimated. -/
structure Accr where
  ctx : Nat
  cat : Nat
  nj : Nat
  est : Bool
  deriving DecidableEq, Repr
/-- Split among the contexts of a charge by N. -/
def Charge.split (c : Charge) (cat e : Nat) (est : Bool) : List Accr :=
  (shares e (sortBy (fun a b => decide (b.2 < a.2) || (a.2 == b.2 && decide (a.1 ≤ b.1))) c.items)).map (fun x => ⟨x.1, cat, x.2, est⟩)
/-- Split a pool; what no charge was active for is idle. -/
def splitPool (cat e : Nat) (est : Bool) (act : List (Charge × Nat)) : List Accr × Nat :=
  let l := byActive act
  if l = [] then ([], e) else ((shares e l).flatMap (fun x => x.1.split cat x.2 est), 0)

/-- ns of a use inside the period that ends at `now`. -/
def Use.time (u : Use) (pStart now : Nat) : Nat := (u.stop_.getD now) - max u.start pStart
/-- The tower of a use's unit. -/
def Use.tower (u : Use) : Nat :=
  if u.unit < 128 then towerOf u.unit else if u.unit < 8320 then towerOf ((u.unit - 128) / 64) else towerOf (u.unit - 8320)
/-- A use of a tile engine or of its array, as against a bank-side core's. -/
def Use.engine (u : Use) : Bool := decide (u.unit < 128) || decide (8320 ≤ u.unit)
/-- The meter of an engine's use. -/
def Use.meter (u : Use) : Nat := if u.unit < 128 then u.unit else u.unit - 8320
/-- Active times in 1/64 ns of the charges of some uses, while their engine held the dispatch or their core the launch (R321). -/
def activeTimes (l : List Use) (pStart now : Nat) : List (Charge × Nat) :=
  (l.filter (fun u => decide (u.unit < 8320))).foldl (fun m u =>
    let v := u.time pStart now * (if u.engine then 64 else 1)
    if m.any (fun x => decide (x.1 = u.charge)) then m.map (fun x => if x.1 = u.charge then (x.1, x.2 + v) else x)
    else m ++ [(u.charge, v)]) []

/-! ### Accumulators and records (R324, R325) -/

def State.accDa (s : State) (c : Nat) : Nat := s.kvBase .ENR_ACC_LO .ENR_ACC_HI 26 + 64 * c
/-- The six categories and the flag of a context; an uncorrectable accumulator holds any values (log entry 16). -/
def State.accRead (s : State) (c : Nat) : State × List Nat × Bool :=
  let r := s.daRead (s.accDa c) 64 4
  match r.2.2 with
  | none => (r.1, (List.range 6).map (fun i => leAt r.2.1 (8 * i) 8), bitOf (leAt r.2.1 48 1) 0)
  | some _ =>
    let f := r.1.free 385
    (f.2, (List.range 6).map (fun i => bits f.1 (64 * i + 63) (64 * i)), bitOf f.1 384)
def State.accWrite (s : State) (c : Nat) (l : List Nat) (est : Bool) : State :=
  (s.daWrite (s.accDa c) (l.flatMap (leBytes 8) ++ leBytes 1 (b2n est) ++ zeros 15)).1
/-- Add accruals of one context. -/
def State.accAdd (s : State) (c : Nat) (l : List Accr) : State :=
  let r := s.accRead c
  r.1.accWrite c ((r.2.1.zipIdx).map (fun p => p.1 + ((l.filter (fun a => a.cat = p.2)).map (·.nj)).sum))
    (r.2.2 || l.any (fun a => a.est && decide (0 < a.nj)))
/-- nJ rounded to the nearest µJ, ties to even. -/
def microJ (n : Nat) : Nat :=
  let q := n / 1000
  let r := n % 1000
  if r < 500 then q else if 500 < r then q + 1 else q + q % 2
/-- F0 to F6 of a REQUEST or REMOTE record. -/
def sixF (l : List Nat) : List Nat := let m := l.map microJ; m ++ [m.sum]
/-- The 128 bytes of a record (R324). -/
def receipt (ctx kind gen req start stop : Nat) (fs : List Nat) (meas : List Byte) (origin rflags : Nat) : List Byte :=
  leBytes 4 (ctx % 2 ^ 20 + 2 ^ 20 * kind) ++ leBytes 4 gen ++ leBytes 8 req ++ leBytes 8 start ++ leBytes 8 stop
    ++ padTo 56 (fs.flatMap (leBytes 8)) ++ padTo 32 meas ++ leBytes 2 origin ++ leBytes 2 rflags ++ zeros 4

/-! ### The leaf queue and the ledger (R320, R333) -/

/-- Records that the leaf queue still has to keep a place for: those in it and those of the period's SEQ_CLOSEs. -/
def State.leafRoom (s : State) : Bool := decide (s.enr.queued - s.enr.taken + s.enr.closing.length < 1048576)
def State.qlen (s : State) : State := s.fput F.ENR_QLEN_QLEN 0 (s.enr.queued - s.enr.taken)
/-- Queue one record. -/
def State.enqueue (s : State) (rec_ : List Byte) : State :=
  let s1 := (s.daWrite (s.kvBase .ENR_QUEUE_LO .ENR_QUEUE_HI 27 + 128 * (s.enr.queued % 2 ^ 20)) rec_).1
  ({ s1 with enr := { s1.enr with queued := s1.enr.queued + 1 } } : State).qlen
/-- The REMOTE leaf of a ledger entry. -/
def Ledger.leaf (x : Ledger) : List Byte :=
  receipt x.octx 1 0 0 x.first x.last (sixF x.nj) x.meas x.origin (b2n x.est)
def Ledger.empty (x : Ledger) : Bool := x.nj.all (· == 0)
/-- Write one entry as a leaf and clear it, or keep it while the queue is full. -/
def State.ledgerOut (s : State) (x : Ledger) : State :=
  if x.empty || !s.leafRoom then s
  else
    let s1 := s.enqueue x.leaf
    { s1 with enr := { s1.enr with ledger := s1.enr.ledger.filter (fun y => y.origin ≠ x.origin || y.octx ≠ x.octx) } }
/-- Add a share to the entry of (ORIGIN, OCTX), which becomes the one used latest; a new pair in a full ledger displaces the one used
least recently. -/
def State.ledgerAdd (s : State) (origin octx time : Nat) (nj : List Nat) (est : Bool) (meas : List Byte) : State :=
  let same (y : Ledger) : Bool := y.origin == origin && y.octx == octx
  match s.enr.ledger.find? same with
  | some y =>
    let z : Ledger := { y with nj := (y.nj.zip nj).map (fun p => p.1 + p.2), first := min y.first time, last := max y.last time
                               est := y.est || est, meas := if y.last ≤ time then meas else y.meas }
    { s with enr := { s.enr with ledger := z :: s.enr.ledger.filter (fun w => !same w) } }
  | none =>
    let s1 := if 4096 ≤ s.enr.ledger.length then
        match s.enr.ledger.getLast? with
        | some y => if y.empty then { s with enr := { s.enr with ledger := s.enr.ledger.dropLast } } else s.ledgerOut y
        | none => s
      else s
    { s1 with enr := { s1.enr with ledger := ⟨origin, octx, nj, time, time, est, meas⟩ :: s1.enr.ledger } }

/-! ### The end of a period (R320 to R325) -/

/-- Meters by number: engines 0–127, towers 128–131, ports 132–139, W0 140, input 141. -/
def State.meterBad (s : State) (i : Nat) : Bool := s.enr.failed.contains i
/-- A context that is FREE at the period's end, the ones closed in it apart (R323, R325). -/
def State.freeCtx (s : State) (c : Nat) : Bool := !s.kv.ctxs.contains c && !s.enr.closing.any (fun x => x.ctx == c)
/-- The accruals of the period and the idle energy. -/
def State.accruals (s : State) (m : Meters) : List Accr × Nat :=
  let p := s.enr.pStart
  let now := s.clk.ns
  let us := s.enr.use
  let nj (l : List Nat) (i : Nat) : Nat := (l[i]?).getD 0
  let own := (us.zipIdx).flatMap (fun u => u.1.charge.split (if u.1.engine then 0 else 1) (nj m.uses u.2)
    (u.1.engine && s.meterBad u.1.meter))
  let cores (w : Nat) : Nat := (((us.zipIdx).filter (fun u => !u.1.engine && u.1.tower == w)).map (fun u => nj m.uses u.2)).sum
  let act (w : Nat) : List (Charge × Nat) := activeTimes (us.filter (fun u => u.tower == w)) p now
  let all := activeTimes us p now
  let pools := (List.range 4).map (fun w => splitPool 2 (nj m.dram w - cores w) (s.meterBad (128 + w)) (act w))
    ++ (List.range 4).map (fun w => splitPool 3 (nj m.mesh w) (s.meterBad (128 + w)) (act w))
    ++ (List.range 4).map (fun w => splitPool 5 (nj m.base w) (s.meterBad (128 + w) || w == 0 && s.meterBad 140) (if w = 0 then all else act w))
    ++ (List.range 8).map (fun i => splitPool 4 (nj m.ports i) (s.meterBad (132 + i)) all)
  let work := (List.range 6).map (fun i => (⟨0, i, nj m.work i, false⟩ : Accr))
  (own ++ m.hints.map (fun h => ⟨h.1, 0, h.2, false⟩) ++ work ++ pools.flatMap (·.1), m.idle + (pools.map (·.2)).sum)
/-- Share the remote account's accrual among the slots released (R320). -/
def State.remoteSplit (s : State) : State :=
  let c := s.fget F.ENR_RCTX_CTX 0
  let rel := s.enr.rel
  if !s.flag F.ENR_RCTX_EN 0 || (rel.map (fun r => r.2.2.1)).sum = 0 then s
  else
    let a := s.accRead c
    let order := sortBy (fun x y => decide (y.2.2.1 < x.2.2.1) || (x.2.2.1 == y.2.2.1 && decide (x.2.1 ≤ y.2.1))) rel
    let parts := a.2.1.map (fun e => (shares e (order.map (fun r => (r, r.2.2.1)))).map (·.2))
    (order.zipIdx).foldl (fun s r =>
      let nj := parts.map (fun l => (l[r.2]?).getD 0)
      if r.1.1 = s.fget F.VRX_CFG_SELF 0 then
        let o := if s.freeCtx r.1.2.1 then 0 else r.1.2.1
        s.accAdd o ((nj.zipIdx).map (fun p => ⟨o, p.2, p.1, a.2.2⟩))
      else s.ledgerAdd r.1.1 r.1.2.1 r.1.2.2.2.1 nj a.2.2 r.1.2.2.2.2) (a.1.accWrite c (List.replicate 6 0) false)
/-- The REQUEST record of a context closed in the period. -/
def State.closeRecord (s : State) (x : Closing) : State :=
  let a := s.accRead x.ctx
  let q := a.1.enr.queued
  let d := (a.1.descr x.qp x.didx).map (fun d => (d.flags, d.tag))
  let s1 := a.1.enqueue (receipt x.ctx 0 x.gen x.req x.start x.stop_ (sixF a.2.1) x.meas (s.fget F.VRX_CFG_SELF 0) (b2n a.2.2 + 2 * b2n x.conf))
  match d with
  | none => s1
  | some d => { s1 with enr := { s1.enr with wait := s1.enr.wait ++ [⟨q, x.qp, x.didx, d.1, d.2, false, s.clk.ns⟩] } }
/-- The period ends: accruals, the remote account, records in context order. -/
def State.periodEnd (s : State) (m : Meters) : State :=
  let a := s.accruals m
  let rc := s.fget F.ENR_RCTX_CTX 0
  let remote (c : Nat) : Bool := s.flag F.ENR_RCTX_EN 0 && c == rc
  let l := a.1.map (fun x => if s.freeCtx x.ctx then { x with ctx := 0 } else x)
  let ctxs := (l.map (·.ctx)).eraseDups
  let s1 := ctxs.foldl (fun s c => s.accAdd c (l.filter (fun x => x.ctx = c))) s
  let nj (p : Nat → Bool) : Nat := ((l.filter (fun x => p x.ctx)).map (·.nj)).sum
  let add := [m.input, nj (fun c => c ≠ 0 && !remote c), nj (fun c => c ≠ 0 && remote c), a.2, nj (· == 0)]
  let s2 : State := { s1 with enr := { s1.enr with sums := (s1.enr.sums.zip add).map (fun p => p.1 + p.2) } }
  let s3 := s2.remoteSplit
  let cl := sortBy (fun x y => decide (x.ctx ≤ y.ctx)) s3.enr.closing
  let s4 := cl.foldl (fun s x => s.closeRecord x) { s3 with enr := { s3.enr with closing := [] } }
  { s4 with kv := { s4.kv with closed := [] }
            enr := { s4.enr with use := s4.enr.use.filter (·.stop_.isNone), pStart := s4.clk.ns
                                 rel := [] } }

/-! ### Reconciliation (R334) -/

/-- Queue the RECONCILE leaf of the second that ends at `stop`. How the residual in millionths is rounded, and what it is when INPUT is
0, is open (log entry 16). -/
def State.reconcile (s : State) (stop : Nat) : State :=
  let f := s.enr.sums.map microJ
  let g (i : Nat) : Int := ((f[i]?).getD 0 : Nat)
  let res := g 0 - g 1 - g 2 - g 3 - g 4
  let hi := decide ((s.fget F.ENR_CFG2_RLIM_PPM 0 : Int) * g 0 < 1000000 * res.natAbs)
  let rec_ := receipt 0 2 0 0 s.enr.secStart stop (f ++ [wrap 64 res, 0]) s.stamp (s.fget F.VRX_CFG_SELF 0)
    (b2n (!s.enr.failed.isEmpty) + 4 * b2n hi)
  let r := s.free 32
  let ppm : Nat := if g 0 = 0 then r.1
    else
      let q := Int.fdiv (1000000 * res) (g 0)
      let v := if q * g 0 = 1000000 * res then q else q + (r.1 % 2 : Nat)
      if -(2 ^ 31) ≤ v ∧ v < 2 ^ 31 then wrap 32 v else r.1
  let s1 := ({ r.2 with enr := { r.2.enr with recQ := r.2.enr.recQ ++ [rec_], sums := [0, 0, 0, 0, 0], secStart := stop } } : State).fput
    F.ENR_RESID_RESID 0 ppm
  if hi then (s1.event F.ENR_STAT_RECON 0).raise 0x49 0 0 0 else s1

/-! ### The tree, batches and the store (R326 to R332) -/

/-- The hash of an empty subtree of a depth. -/
def emptyHash : Nat → List Byte
  | 0 => sha [2]
  | n + 1 => sha (1 :: emptyHash n ++ emptyHash n)
/-- The root of a tree of depth `n` over leaf hashes. -/
def treeRoot : Nat → List (List Byte) → List Byte
  | n, [] => emptyHash n
  | 0, h :: _ => h
  | n + 1, l => sha (1 :: treeRoot n (l.take (2 ^ n)) ++ treeRoot n (l.drop (2 ^ n)))
/-- The siblings of a position, from the leaf level upward. -/
def treePath : Nat → List (List Byte) → Nat → List (List Byte)
  | 0, _, _ => []
  | n + 1, l, pos =>
    if pos < 2 ^ n then treePath n (l.take (2 ^ n)) pos ++ [treeRoot n (l.drop (2 ^ n))]
    else treePath n (l.drop (2 ^ n)) (pos - 2 ^ n) ++ [treeRoot n (l.take (2 ^ n))]
def leafHash (r : List Byte) : List Byte := sha (0 :: r)

def State.storeDa (s : State) : Nat := s.kvBase .ENR_STORE_LO .ENR_STORE_HI 24
def State.ringLog (s : State) : Nat := s.fget F.ENR_STORE_CFG_LOG2 0
def State.leafDa (s : State) (k : Nat) : Nat := s.storeDa + 128 * (k % 2 ^ s.ringLog)
def State.batchDa (s : State) (b : Nat) : Nat := s.storeDa + 128 * 2 ^ s.ringLog + 4096 * (b % 4096)
/-- A record of the store or queue; an uncorrectable one holds any bytes (log entry 16). -/
def State.recordRead (s : State) (da : Nat) : State × List Byte :=
  let r := s.daRead da 128 4
  match r.2.2 with
  | none => (r.1, r.2.1)
  | some _ => let f := r.1.free 1024; (f.2, leBytes 128 f.1)
/-- Leaves `first` to `first + n`, read from the store. -/
def State.leaves (s : State) (first n : Nat) : State × List (List Byte) :=
  (List.range n).foldl (fun (x : State × List (List Byte)) i => let r := x.1.recordRead (x.1.leafDa (first + i)); (r.1, x.2 ++ [r.2])) (s, [])
/-- The store has room for a leaf: its ring, and the batch entries (R332). -/
def State.storeRoom (s : State) : Bool :=
  decide ((s.enr.batches.map (fun b => b.2.2)).sum + s.enr.count < 2 ^ s.ringLog ∧ s.enr.batches.length < 4096)

/-- Write a completion that carries a leaf index, or the late record (R257, R329). -/
def State.leafDone (s : State) (w : Waiter) (leaf : Nat) : State :=
  let s1 : State := { s with enr := { s.enr with wait := s.enr.wait.filter (fun x => x.seq ≠ w.seq) } }
  if w.posted then
    let s2 := if bitOf w.flags 1 then s1 else s1.writeRecord w.qp w.didx stOK 0x12 4 w.tag (leBytes 8 leaf) (bitOf w.flags 2)
    if s2.descrDead w.qp w.didx then s2 else s2.setQp w.qp { s2.qp w.qp with reserved := (s2.qp w.qp).reserved - 1 }
  else match s1.descr w.qp w.didx with
    | none => s1
    | some d => s1.complete w.qp d stOK (leBytes 8 leaf)

/-- WAIT_US have passed since the end of the record's period: its SEQ_CLOSE completes PENDING (R329). -/
def State.closeLate (s : State) (w : Waiter) : State :=
  match s.descr w.qp w.didx with
  | some d =>
    if w.posted || s.clk.ns < w.at_ + 1000 * s.fget F.ENR_CFG_WAIT_US 0 then s
    else
      let s1 : State := { s with enr := { s.enr with wait := s.enr.wait.map (fun x => if x.seq = w.seq then { x with posted := true } else x) } }
      (s1.event F.ENR_STAT_PENDING 0).completeKeep w.qp d stOK 2 1 []
  | none => s
/-- A record gets the next position of the current batch. -/
def State.place (s : State) (rec_ : List Byte) : State × Nat :=
  let e := s.enr
  let s1 := (s.daWrite (s.leafDa e.stored) rec_).1
  ({ s1 with enr := { s1.enr with count := e.count + 1, stored := e.stored + 1
                                  ceiling := if e.ceiling ≤ e.batch then e.batch + 2 ^ 20 else e.ceiling } }, 65536 * e.batch + e.count)
/-- The receipt stage takes one record (R326). -/
def State.receiptTake (s : State) : State :=
  if !s.storeRoom || decide (65536 ≤ s.enr.count) then s
  else match s.enr.recQ with
    | r :: rest => (({ s with enr := { s.enr with recQ := rest } } : State).place r).1
    | [] =>
      if s.enr.queued ≤ s.enr.taken then s
      else
        let k := s.enr.taken
        let s := ((s.enr.wait.find? (fun w => w.seq = k)).map s.closeLate).getD s
        let r := s.recordRead (s.kvBase .ENR_QUEUE_LO .ENR_QUEUE_HI 27 + 128 * (k % 2 ^ 20))
        let p := (({ r.1 with enr := { r.1.enr with taken := k + 1 } } : State).qlen).place r.2
        match p.1.enr.wait.find? (fun w => w.seq = k) with
        | some w => p.1.leafDone w p.2
        | none => p.1

/-! ### RECEIPT_FETCH (R330 to R332) -/

def Descr.leaf (d : Descr) : Nat := d.u 16 8
/-- Answer a fetch whose batch is closed and kept: the proof, or its status. -/
def State.fetchNow (s : State) (q : Nat) (d : Descr) (first n : Nat) : State :=
  let b := d.leaf / 65536
  let pos := d.leaf % 65536
  let h := s.daRead (s.batchDa b) (128 + 3312) 4
  let l := h.1.leaves first n
  match h.2.2 with
  | some _ => h.1.complete q d stDRAM_UE []
  | none =>
    let unsig := bitOf (leAt h.2.1 120 1) 1
    let out := (l.2[pos]?).getD [] ++ h.2.1.take 128 ++ (treePath 16 (l.2.map leafHash) pos).flatten
      ++ padTo 3309 (if unsig then [] else h.2.1.drop 128) ++ zeros 3
    (l.1.descrWrite q d.idx (d.u 24 8) (padTo 4080 out)).complete q d (if unsig then stUNSIGNED else stOK) (leBytes 4 4080)
/-- Move a fetch on: done, unknown, or still waiting for a signature. -/
def State.fetchTry (s : State) (q : Nat) (d : Descr) : State :=
  let b := d.leaf / 65536
  let here := (q, d.idx)
  let gone (s : State) : State := { s with enr := { s.enr with fetches := s.enr.fetches.filter (· ≠ here) } }
  match SMap.find s.enr.batches b with
  | some (first, n) =>
    if n ≤ d.leaf % 65536 then (gone s).complete q d stLEAF_UNKNOWN []
    else if s.enr.toSign.contains b then s
    else (gone s).fetchNow q d first n
  | none => if b = s.enr.batch && decide (d.leaf % 65536 < s.enr.count) then s else (gone s).complete q d stLEAF_UNKNOWN []
/-- Every waiting fetch is tried again. -/
def State.fetchAll (s : State) : State :=
  s.enr.fetches.foldl (fun a x => match a.descr x.1 x.2 with
    | some d => a.fetchTry x.1 d
    | none => { a with enr := { a.enr with fetches := a.enr.fetches.filter (· ≠ x) } }) s

/-! ### Closing and signing (R326 to R328, R331) -/

/-- Close the current batch. -/
def State.batchClose (s : State) : State :=
  let e := s.enr
  let l := s.leaves (e.stored - e.count) e.count
  let s1 := l.1
  let unsig := s1.rcptSeed.isNone
  let h := ascii "KGXRCPT1" ++ s1.serial ++ leBytes 8 e.batch ++ leBytes 4 e.count ++ leBytes 4 s1.keyEpoch ++ leBytes 8 e.opened
    ++ leBytes 8 s1.clk.ns ++ treeRoot 16 (l.2.map leafHash) ++ padTo 32 (if e.chain then [] else e.prev)
    ++ leBytes 1 (b2n e.chain + 2 * b2n unsig) ++ zeros 7
  let s2 := (s1.daWrite (s1.batchDa e.batch) (h ++ zeros 3312)).1
  ({ s2 with enr := { s2.enr with batch := e.batch + 1, count := 0, opened := s2.clk.ns, prev := sha h, chain := false
                                  batches := SMap.put s2.enr.batches e.batch (e.stored - e.count, e.count)
                                  toSign := if unsig then s2.enr.toSign else s2.enr.toSign ++ [e.batch] } } : State).fetchAll
/-- The security block signs a closed batch (R327). -/
def State.batchSign (s : State) (b : Nat) : State :=
  match s.rcptSeed with
  | none => s
  | some key =>
    if !s.enr.toSign.contains b then s
    else
      let h := s.daRead (s.batchDa b) 128 4
      let s1 := (h.1.daWrite (h.1.batchDa b + 128) (padTo 3309 (Config.mldsaSign 65 key h.2.1))).1
      let s2 : State := { s1 with enr := { s1.enr with toSign := s1.enr.toSign.filter (· ≠ b) } }
      ((s2.rput .ENR_BATCH_LO 0 (BitVec.ofNat 32 b)).fput F.ENR_BATCH_HI_BATCH 0 (b / 2 ^ 32)).fetchAll

/-- Step 4 of R335: `k` records are taken in the 100 ms, batches close and are signed. -/
def State.sealGo : Nat → State → State
  | 0, s => s
  | k + 1, s =>
    let s1 := s.receiptTake
    let s2 := if s1.enr.count = 65536 then (let b := s1.enr.batch; s1.batchClose.batchSign b) else s1
    sealGo k s2
/-- The receipt tree is sealed (R335); `k` is how many records the 100 ms allow. -/
def State.seal (s : State) (m : Meters) (k : Nat) : State :=
  let s1 := if s.flag F.ENR_CTL_RUN 0 then (let p := s.periodEnd m; p.reconcile p.clk.ns) else s
  let s2 := State.sealGo (min k (s1.enr.recQ.length + (s1.enr.queued - s1.enr.taken))) s1
  let s3 := if s2.enr.count = 0 then s2 else (let b := s2.enr.batch; s2.batchClose.batchSign b)
  let s4 := s3.enr.toSign.foldl (fun a b => a.batchSign b) s3
  let n := s4.enr.recQ.length + (s4.enr.queued - s4.enr.taken)
  let s5 := s4.fput F.ENR_UNSEALED_COUNT 0 n
  if n = 0 then s5
  else
    let r := s5.recordRead (s5.kvBase .ENR_QUEUE_LO .ENR_QUEUE_HI 27 + 128 * (s5.enr.taken % 2 ^ 20))
    let first := match s5.enr.recQ with
      | x :: _ => x
      | [] => r.2
    (r.1.event F.ENR_STAT_SEAL_SHORT 0).logEvent 0x0002 (zeros 2 ++ leBytes 4 (leAt first 0 4 % 2 ^ 20))

end Sys2Proof.Machine
end

