-- ==== Sys2Proof/Machine/PwrOps.lean ====
section
/-! DEFINITION. What power, thermal, reset and board commands share: the effective cap, ERR_N, engine domains, throttle events
(R75, R115, R278, R286, R293, R310, R389, R395). -/

namespace Sys2Proof.Machine

/-! ### Caps (R286, R304, R309) -/

/-- Show the effective cap and the limit that sets it; which of equal limits is shown is open (log entry 16). -/
def State.capShow (s : State) : State :=
  let l := [s.fget F.PWR_CAP_CAP_W 0, s.fget F.PWR_SBCAP_SB_CAP 0, s.fget F.COOL_TCAP_TCAP_W 0]
  let e := l.foldl min (l.headD 0)
  let c := (List.range 3).filter (fun i => l[i]? == some e)
  let s1 := s.fput F.PWR_AVG_EFF_W 0 e
  if c.contains (s1.fget F.PWR_AVG_SRC 0) then s1
  else match c with
    | [i] => s1.fput F.PWR_AVG_SRC 0 i
    | _ => let f := s1.free 2
      f.2.fput F.PWR_AVG_SRC 0 (c.getD (f.1 % c.length) 0)
def State.effCap (s : State) : Nat := s.fget F.PWR_AVG_EFF_W 0
/-- The thermal cap: the coolant cap less the escalations, and the cap of a coolant loss. -/
def State.thermalCap (s : State) : Nat :=
  let a := s.thm.coolCap - s.thm.esc
  match s.thm.lossCap with
  | none => a
  | some b => min a b
def State.tcapShow (s : State) : State := (s.fput F.COOL_TCAP_TCAP_W 0 s.thermalCap).capShow
/-- State of the coolant sequence: 0 NORMAL, 1 CLAMP, 2 DRAIN, 3 SHUTDOWN. -/
def State.coolState (s : State) : Nat := s.fget F.COOL_TCAP_STATE 0

/-! ### ERR_N and conditions (R389, R395) -/

/-- A cause of ERR_N holds. -/
def State.errCause (s : State) : Bool :=
  s.flt.srcs.any (fun x => x.2.fault && x.2.pin) || s.coolState == 3 || s.thm.off || s.flt.latch || s.flt.hold
/-- Drive ERR_N, setting the latch when it is asserted while PIN_LATCH is 1. -/
def State.errRefresh (s : State) : State :=
  let c := s.errCause
  { s with brd := { s.brd with errN := c }, flt := { s.flt with latch := s.flt.latch || c && s.flag F.FLT_CFG_PIN_LATCH 0 } }
/-- A condition begins or ends; its source is raised again while it holds. -/
def State.cond (s : State) (ty inst : Nat) (on : Bool) : State :=
  let src := 512 * ty + inst
  { s with flt := { s.flt with conds := if !on then s.flt.conds.filter (· ≠ src)
                                        else if s.flt.conds.contains src then s.flt.conds else s.flt.conds ++ [src] } }
def State.condOn (s : State) (ty inst : Nat) : Bool := s.flt.conds.contains (512 * ty + inst)

/-! ### Throttle events (R278, R362) -/

/-- `n` throttle events on tile `t`: they count when it runs a strict dispatch. -/
def State.throttle (s : State) (t n : Nat) : State :=
  if (s.tileDisp t).any (fun d => d.2.strict && d.2.running) then
    (List.range n).foldl (fun a _ => (a.strictEvent t 1).event F.TPW_STAT_STRICT_MARK t) s
  else s

/-! ### Engine domains (R75, R115, R310) -/

/-- The counts of `LUL_STATE`. -/
def State.lulCount (s : State) : State :=
  let n (p : Power) := ((List.range 128).filter (fun t => (s.eng t).power == p)).length
  (s.fput F.LUL_STATE_N_L1 0 (n .lull1)).fput F.LUL_STATE_N_L2 0 (n .lull2)
/-- An engine without power: its registers are as after reset (log entry 29); a bank in hand-over or in wipe stays so. -/
def Eng.gated (e : Eng) (p : Power) : Eng :=
  { Eng.off with power := p, fenced := e.fenced, inReset := e.inReset, epoch := e.epoch + 1, hand := e.hand, wiping := e.wiping
                 unsecure := e.unsecure, disp := e.disp, active := e.active, wake := e.wake, fed := e.fed }
/-- Switch an engine's domain off; its scratchpad is lost (R115). -/
def State.engineOff (s : State) (t : Nat) : State :=
  let e := s.eng t
  if e.power = .fusedOff ∨ e.power = .off then s
  else
    let s1 := if e.power = .lull2 then s else s.abortArray t
    let s2 := (List.range 16).foldl (fun a b => a.zeroBank t b) s1
    { s2.setEng t ((s2.eng t).gated .off) with pwr := { s2.pwr with waitOn := SMap.del s2.pwr.waitOn t, domOn := s2.pwr.domOn.filter (· ≠ t) } }
/-- A powered engine begins to run: a wipe of every bank begins when its contents were lost, a wipe that waited for power ends, and
held packets are delivered. -/
def State.engineOn (s : State) (t : Nat) (portA : List Nat) : State :=
  let e := s.eng t
  let lost := e.power = .off
  let s1 := s.setEng t { e with power := .on, wake := false }
  let s2 := if lost then (List.range 16).foldl (fun a b => a.wipeStart t b) s1
    else e.wiping.foldl (fun a b => if e.power = .lull2 then a.wipeEnd t b else a) s1
  (({ s2 with pwr := { s2.pwr with domOn := s2.pwr.domOn.filter (· ≠ t) } } : State).useTile t).ingressDrain t portA

end Sys2Proof.Machine
end

