-- ==== Sys2Proof/Machine/ModOps.lean ====
section
/-! DEFINITION. Registers back to reset, and the module reset (R384, R386, R24). -/

namespace Sys2Proof.Machine

/-! ### Registers back to reset -/

/-- The registers that satisfy `p` return to their reset values, active copies and parity included. -/
def State.regsReset (s : State) (p : Reg → Nat → Bool) : State :=
  let out (k : Nat) : Bool := match Reg.all[k % 512]? with
    | some r => p r (k / 512)
    | none => false
  { s with regs := SMap.drop s.regs out, act := SMap.drop s.act out, parBad := s.parBad.filter (fun k => !out k) }
/-- The tile whose engine window holds the register. -/
def regEngine (r : Reg) (i : Nat) : Option Nat := if r.place.win = .eng then some (i / r.place.cnt) else none
/-- The tile whose stop window holds the register. -/
def regStop (r : Reg) (i : Nat) : Option Nat :=
  match r.place.win with
  | .stop => some (i / r.place.cnt)
  | .core => some (i / r.place.cnt / 64)
  | .stg => if i / r.place.cnt < 128 then some (i / r.place.cnt) else none
  | _ => none

/-! ### The module reset (R386) -/

/-- Registers that a module reset keeps: those of the retained domain and of fuses and flash. -/
def regKept (r : Reg) : Bool :=
  ([.EDY_HEAD, .EDY_FREEZE, .EDY_MISSED, .EDY_STATE, .ENR_UNSEALED, .SEC_LC] : List Reg).contains r
/-- Every block outside the retained domain returns to its reset state; the module is before stage 0. Device memory keeps its bytes
(log entry 35). -/
def State.moduleReset (s : State) : State :=
  let z := State.reset
  let next := s.fget F.SEC_CONF_NEXT 0
  let full := s.flag F.BOOT_CFG_FULL_TEST 0
  let s1 := s.regsReset (fun r _ => !regKept r)
  let n := s.free 64
  let s2 : State := { s1 with
    clk := n.2.clk, wset := [], spm := [], spmErr := [], tiles := tilesReset, stops := [], gate := Gate.clear, cores := [], tokRel := [], disps := [], nextDisp := 0, packets := []
    cmd := z.cmd, pcie := { Pcie.empty with perst := s.pcie.perst, hostBad := s.pcie.hostBad }
    flt := { Flt.empty with clearing := true, hold := s.flt.hold || (s.brd.errN && s.rst.froze) }
    sec := { Sec.empty with zeroFlag := s.sec.zeroFlag || s.conf, owner := s.sec.owner, rkOff := s.sec.rkOff, ideNext := s.sec.ideNext }
    fw := { Fw.empty with recValid := s.fw.recValid }, lck := Lck.empty, kv := Kv.empty
    enr := { Enr.empty with batch := s.enr.batch, prev := s.enr.prev, chain := s.enr.chain, ceiling := s.enr.ceiling }
    fab := Fab.empty, pwr := Pwr.empty, thm := Thm.empty, brd := { s.brd with thermAlert := false, perstWaits := false }
    boot := { z.boot with fullTest := full, saved := s.boot.saved, remaps := s.boot.remaps, cal := s.boot.cal, recImg := s.boot.recImg }
    rst := Rst.empty }
  (((s2.fput F.SEC_CONF_NEXT 0 next).put64 .SEC_LCNONCE_LO .SEC_LCNONCE_HI 0 n.1).errRefresh)

end Sys2Proof.Machine
end

