-- ==== Sys2Proof/Machine/ThmOps.lean ====
section
/-! DEFINITION. Sensors, the thermal model and the coolant sequence as the thermal commands share them (R296 to R312). Temperatures are
integers in 0.125 °C. -/

namespace Sys2Proof.Machine

/-! ### Nodes and sensors (R296, R299, R302) -/

def nodeLayer (n : Nat) : Nat := n / 32
def nodeSite (n : Nat) : Nat := n % 32
/-- The sensors of a node. -/
def nodeSensors (n : Nat) : List Nat :=
  let s := nodeSite n
  let l := nodeLayer n
  let at_ (sites : List Nat) : Option Nat := sites.findIdx? (· == s)
  if l = 17 then [2 * s, 2 * s + 1]
  else if l = 0 then match at_ [3, 4, 27, 28] with
    | some p => [128 + 2 * p, 129 + 2 * p]
    | none => []
  else match at_ [10, 13, 18, 21] with
    | some j => [64 + 4 * (l - 1) + j]
    | none => []
/-- Limit of a unit: 95 °C for DRAM, 105 °C otherwise. -/
def nodeLimit (n : Nat) : Int := if nodeLayer n = 0 ∨ nodeLayer n = 17 then 840 else 760
/-- A field of `THM_CFG` in 0.125 °C. -/
def State.thmDeg (s : State) (f : Field) (w : Nat) : Int := (8 * s.fget f w : Nat)
def State.throttleAt (s : State) (w n : Nat) : Int := nodeLimit n - s.thmDeg F.THM_CFG_GUARD w
def State.alertAt (s : State) (w n : Nat) : Int := nodeLimit n - s.thmDeg F.THM_CFG_ALERT_OFS w

/-- A sensor of a tower: reading, and TRUST 0 trusted, 1 SUSPECT, 2 FAILED. -/
def State.reading (s : State) (w i : Nat) : Int := signed 12 (s.fget F.THM_SDATA_READING (136 * w + i))
def State.trust (s : State) (w i : Nat) : Nat := s.fget F.THM_SDATA_TRUST (136 * w + i)
/-- A sensor becomes SUSPECT or FAILED: recorded, and THM_SENSOR raised. -/
def State.distrust (s : State) (w : Nat) (l : List Nat) (v : Nat) : State :=
  ((l.foldl (fun a i => a.fput F.THM_SDATA_TRUST (136 * w + i) v) s).event F.THM_STAT_SUSPECT w).raise 0x21 w 0 0
def State.nodeG (s : State) (w n : Nat) : Int := signed 12 (s.fget F.THM_NDATA_G (576 * w + n))
def State.nodeF (s : State) (w n : Nat) : Int := signed 12 (s.fget F.THM_NDATA_F (576 * w + n))
def State.level (s : State) (w n : Nat) : Nat := s.fget F.THM_NDATA_LEVEL (576 * w + n)
/-- The thermal ceiling of a tile: the largest level of the L17 and DRAM nodes of its site (R303). -/
def State.thmCeil (s : State) (t : Nat) : Nat :=
  ((List.range 17).map (fun l => s.level (towerOf t) (32 * (l + 1) + t % 32))).foldl max 0

/-! ### The coolant sequence (R309) -/

/-- THERM_ALERT. -/
def State.alert (s : State) : State := { s with brd := { s.brd with thermAlert := true } }
/-- Coolant loss is detected. -/
def State.lossDetected (s : State) : State :=
  if s.coolState ≠ 0 || s.thm.off then s
  else
    let s1 : State := { s with thm := { s.thm with lossCap := some (30 * s.effCap / 100), lossClamp := true } }
    ((((s1.fput F.COOL_TCAP_STATE 0 1).event F.COOL_STAT_LOSS 0).cond 0x42 0 true).raise 0x42 0 0 0).alert.tcapShow
/-- Some G stands at its unit's limit. -/
def State.anyOver (s : State) : Bool := (List.range 4).any (fun w => s.condOn 0x23 w)
/-- Every engine domain and fabric port off, then the mesh, DRAM and base-die domains, which lose their contents. -/
def State.domainsOff (s : State) : State :=
  let s1 := (List.range 128).foldl (fun a t => a.engineOff t) s
  let s2 := (List.range 8).foldl (fun a p => a.portOff p) s1
  { s2 with mem := [], synd := [], soft := [] }
/-- The module without its converters, in standby: everything outside the retained domain is as after a reset (R447). -/
def State.standby (s : State) : State :=
  let s1 := s.moduleReset
  let s2 : State := { s1 with mem := [], synd := [], soft := [], flt := { s1.flt with clearing := false }, thm := { s1.thm with off := s.thm.off }
                              brd := { s1.brd with on := false, pwrGood := false } }
  s2.errRefresh
/-- The SHUTDOWN row of R309, in its order; the retained domain stays. A PERST# or a fall of PWR_EN that waited for the sequence
acts now (R448). -/
def State.shutdown (s : State) (m : Meters) (k : Nat) : State :=
  let s1 := (List.range 128).foldl (fun a t => a.fenceNow t) s
  let s2 := (s1.fput F.COOL_TCAP_STATE 0 3).alert
  let s3 := (s2.logEvent 0x0001 []).errRefresh
  let s4 := (s3.seal m k).domainsOff
  let s5 := ({ s4 with thm := { s4.thm with off := true } } : State).errRefresh
  if !s5.brd.pwrEn then s5.standby
  else if s5.brd.perstWaits then { s5 with rst := { s5.rst with modDue := true }, brd := { s5.brd with perstWaits := false } } else s5

/-! ### The model update (R298 to R306, R312) -/

/-- Pairs: warnings, faults. -/
def State.pairStep (s : State) (w n : Nat) : State :=
  match nodeSensors n with
  | [a, b] =>
    let d := (s.reading w a - s.reading w b).natAbs
    if s.trust w a ≠ 0 || s.trust w b ≠ 0 || d ≤ 8 * s.fget F.THM_DIS_WARN w then s
    else
      let s1 := (s.event F.THM_STAT_DISAGREE w).raise 0x22 w 0 0
      if d ≤ 8 * s.fget F.THM_DIS_FAULT w then s1
      else ({ s1 with thm := { s1.thm with pairBad := s1.thm.pairBad ++ [576 * w + n] } } : State).distrust w [a, b] 1
  | _ => s
/-- A trusted sensor against its node's estimate (R301). -/
def State.divStep (s : State) (w : Nat) (e : Int) (i : Nat) : State :=
  let k := 136 * w + i
  let r := s.reading w i
  let div := s.thmDeg F.THM_CFG_DIV w
  let c := if r < e - div then SMap.get s.thm.low k 0 + 1 else 0
  if s.trust w i ≠ 0 then s
  else
    let s1 := if e + div < r then s.event F.THM_STAT_MODEL_LOW w else s
    let s2 : State := { s1 with thm := { s1.thm with low := SMap.set s1.thm.low k c 0 } }
    if 10 ≤ c then ({ s2 with thm := { s2.thm with low := SMap.del s2.thm.low k } } : State).distrust w [i] 1 else s2
/-- The governing temperature of a node (R298, R300). -/
def State.govern (s : State) (w n : Nat) (e : Int) : Int :=
  let l := nodeSensors n
  let good := (l.filter (fun i => s.trust w i = 0)).map (s.reading w)
  match good with
  | x :: xs => max e (xs.foldl max x)
  | [] =>
    let g := e + s.thmDeg F.THM_CFG_MARGIN w
    if s.thm.pairBad.contains (576 * w + n) then (l.map (s.reading w)).foldl max g else g
/-- Show G and F of a node. -/
def State.nodeStep (s : State) (w n : Nat) (e f : Int) : State :=
  let g := s.govern w n e
  (s.fput F.THM_NDATA_G (576 * w + n) (wrap 12 g)).fput F.THM_NDATA_F (576 * w + n) (wrap 12 (f + max 0 (g - e)))
/-- An escalation lowers the thermal cap by 25 W (R304). -/
def State.escalate (s : State) : State := { s with thm := { s.thm with esc := min s.thm.coolCap (s.thm.esc + 25) } }
/-- The node whose F exceeds its threshold by the most, the lowest of equal ones. -/
def State.hottest (s : State) (w : Nat) : Option Nat :=
  let over_ (n : Nat) : Int := s.nodeF w n - s.throttleAt w n
  (List.range 576).foldl (fun (b : Option Nat) n => if over_ n ≤ 0 || b.any (fun m => decide (over_ n ≤ over_ m)) then b else some n) none
/-- Raise a node's level by one, or escalate at the last one. -/
def State.raiseNode (s : State) (w upd n : Nat) : State :=
  let key := 576 * w + n
  let lv := s.level w n
  if lv = 7 then s.escalate
  else if (SMap.find s.thm.raised key).any (fun u => decide (upd < u + max 1 (s.fget F.THM_CFG_STEP w))) then s
  else
    let s1 := ({ s with thm := { s.thm with raised := SMap.put s.thm.raised key upd } } : State).fput F.THM_NDATA_LEVEL key (lv + 1)
    if nodeLayer n = 0 then s1.escalate else s1
/-- The node whose F exceeds its threshold by the most is raised, or escalates (R303, R304). -/
def State.raiseStep (s : State) (w upd : Nat) : State := ((s.hottest w).map (s.raiseNode w upd)).getD s
/-- Cool nodes fall by one level (R303). -/
def State.fallStep (s : State) (w n : Nat) : State :=
  let key := 576 * w + n
  let c := SMap.get s.thm.cool key 0
  let cool := decide (s.nodeF w n ≤ s.throttleAt w n - s.thmDeg F.THM_CFG_HYST w)
  let s1 : State := { s with thm := { s.thm with cool := SMap.set s.thm.cool key (if cool then min 10 (c + 1) else 0) 0 } }
  if cool && c = 10 then s1.fput F.THM_NDATA_LEVEL key (s1.level w n - 1) else s1
/-- Limits (R305). -/
def State.limitStep (s : State) (w : Nat) : State :=
  let hit (d : Int) := (List.range 576).filter (fun n => decide (nodeLimit n + d ≤ s.nodeG w n))
  let o := !(hit 0).isEmpty
  let c := hit 40
  let s1 := if o && !s.condOn 0x23 w then (s.event F.THM_STAT_OVER w).raise 0x23 w 0 0 else s
  let s2 := if !c.isEmpty && !s.condOn 0x24 w then (s1.event F.THM_STAT_CRIT w).raise 0x24 w 0 0 else s1
  let s3 := c.foldl (fun a n => a.fput F.THM_NDATA_LEVEL (576 * w + n) 7) ((s2.cond 0x23 w o).cond 0x24 w (!c.isEmpty))
  if c.isEmpty then s3 else { s3 with thm := { s3.thm with esc := max s3.thm.esc (s3.thm.coolCap - 600) } }
/-- After a change of rate each bank of the layer falls due one new tREFI after its last refresh, at once when that has passed; `was` is
the state before the change (R129). -/
def State.reDue (s was : State) (t l : Nat) : State :=
  let p := s.stop t
  s.setStop t { p with nextRef := (List.range 4).foldl (fun m x =>
    let b := 4 * (l - 1) + x
    let last := (SMap.find p.lastRef b).getD (was.refDue t b - was.tRefi t b)
    SMap.put m b (max (last + s.tRefi t b) s.clk.mc)) p.nextRef }
/-- The refresh rate of a layer (R129, R131, R306). -/
def State.layerStep (s : State) (w l : Nat) : State :=
  let t0 := (List.range 32).map (fun x => 32 * l + x)
  let top := (t0.map (fun n => max (s.nodeG w n) (s.nodeF w n))).foldl max (-2048)
  let key := 16 * w + (l - 1)
  let c := if top ≤ 656 then min 10 (SMap.get s.thm.layCool key 0 + 1) else 0
  let s1 : State := { s with thm := { s.thm with layCool := SMap.set s.thm.layCool key c 0 } }
  let fast := bitOf (s.fget F.VCH_REF_FAST (32 * w)) (l - 1)
  let now := if 680 < top then true else if c = 10 then false else fast
  if now = fast then s1
  else (List.range 32).foldl (fun a x =>
    let t := 32 * w + x
    let v := a.fget F.VCH_REF_FAST t
    let a1 := (a.fput F.VCH_REF_FAST t (if now then setBit v (l - 1) else clrBit v (l - 1))).reDue a t l
    if !a1.flag F.MESH_CFG_SLOT_EN t then a1
    else
      let a2 := a1.fadd F.TSK_TDC_TDC t 1
      match a2.tileDisp t with
      | some (k, d) => if d.strict && d.running then a2.detCause k 2 else a2
      | none => a2) s1
/-- THERM_ALERT and the record of how near the tower stands to its alert thresholds (R312). -/
def State.alertStep (s : State) (w : Nat) : State :=
  let any (d : Int) := (List.range 576).any (fun n => decide (s.alertAt w n - d ≤ s.nodeG w n))
  let near := (List.range 576).any (fun n => decide (s.alertAt w n - s.thmDeg F.THM_CFG_HYST w < s.nodeG w n))
  let s1 : State := { s with thm := { s.thm with
    hot := if near then (if s.thm.hot.contains w then s.thm.hot else s.thm.hot ++ [w]) else s.thm.hot.filter (· ≠ w)
    calm := if near then SMap.del s.thm.calm w else if (SMap.find s.thm.calm w).isSome then s.thm.calm else SMap.put s.thm.calm w s.clk.ns } }
  if any 0 || s1.thm.esc ≠ 0 || s1.coolState ≠ 0 then s1.alert else s1
/-- An update of a tower's model with the estimates and the model's forecasts of its 576 nodes. -/
def State.modelUpdate (s : State) (w : Nat) (es fs : List Int) : State :=
  let e (n : Nat) : Int := es.getD n 0
  let upd := SMap.get s.thm.updates w 0 + 1
  let s0 : State := { s with thm := { s.thm with updates := SMap.put s.thm.updates w upd } }
  let before := (List.range 32).map (fun x => s0.thmCeil (32 * w + x))
  let nodes := List.range 576
  let s1 := nodes.foldl (fun a n => (nodeSensors n).foldl (fun a i => a.fput F.THM_SDATA_EST (136 * w + i) (wrap 12 (e n))) a) s0
  let s2 := nodes.foldl (fun a n => a.pairStep w n) s1
  let s3 := nodes.foldl (fun a n => (nodeSensors n).foldl (fun a i => a.divStep w (e n) i) a) s2
  let s4 := nodes.foldl (fun a n => a.nodeStep w n (e n) (fs.getD n 0)) s3
  let s5 := s4.raiseStep w upd
  let s6 := nodes.foldl (fun a n => a.fallStep w n) s5
  let s7 := s6.limitStep w
  let s8 := (List.range 16).foldl (fun a l => a.layerStep w (l + 1)) s7
  let s9 := (s8.alertStep w).tcapShow
  (List.range 32).foldl (fun a x => if before[x]? = some (a.thmCeil (32 * w + x)) then a else a.throttle (32 * w + x) 1) s9

end Sys2Proof.Machine
end

