-- ==== Sys2Proof/Machine/BankOps.lean ====
section
/-! DEFINITION. Banks, leases and the ends of launches, as the vertical channel and the bank-side cores share them (R123, R144 to
R170). -/

namespace Sys2Proof.Machine

/-- Index of core (t, c) in the registers of the command areas. -/
def coreIdx (t c : Nat) : Nat := 64 * t + c
def State.cstate (s : State) (t c : Nat) : Nat := s.fget F.BSC_CSTAT_LO_STATE (coreIdx t c)
def csIDLE : Nat := 0
def csWAIT : Nat := 1
def csRUN : Nat := 2
def csPAUSE : Nat := 3
def csDONE : Nat := 4
def csERROR : Nat := 5
/-- WAIT, RUN or PAUSE. -/
def State.coreBusy (s : State) (t c : Nat) : Bool := let x := s.cstate t c; x == csWAIT || x == csRUN || x == csPAUSE
/-- Set the state of a core; its bit of `BSC_DONE` follows (R154). -/
def State.setCState (s : State) (t c v : Nat) : State :=
  let s1 := s.fput F.BSC_CSTAT_LO_STATE (coreIdx t c) v
  let r := if c < 32 then Reg.BSC_DONE0 else Reg.BSC_DONE1
  let w := (s1.rget r t).toNat
  s1.rput r t (BitVec.ofNat 32 (if v = csDONE ∨ v = csERROR then setBit w (c % 32) else clrBit w (c % 32)))
/-- A 64-bit counter of the command area grows. -/
def State.addCount (s : State) (lo hi : Reg) (i n : Nat) : State := s.put64 lo hi i (s.get64 lo hi i + n)
/-- bc of 2 mc since a mesh cycle. -/
def State.bcSince (s : State) (m : Nat) : Nat := (s.clk.mc - m) / 2
/-- Time in WAIT or PAUSE ends now: `BSC_STALLS` counts it. -/
def State.endStall (s : State) (t c : Nat) : State :=
  s.addCount .BSC_STALLS_LO .BSC_STALLS_HI (coreIdx t c) (s.bcSince (s.core t c).since)
/-- The instruction at the PC waits from now on (R147). -/
def State.coreWaits (s : State) (t c : Nat) : State :=
  let k := s.core t c
  if k.waitFrom.isSome then s else s.setCore t c { k with waitFrom := some s.clk.mc }
/-- Its wait ends: `BSC_CYCLES` counts it, and the `n` bc that the instruction takes (R150). -/
def State.coreRan (s : State) (t c n : Nat) : State :=
  let k := s.core t c
  (s.setCore t c { k with waitFrom := none }).addCount .BSC_CYCLES_LO .BSC_CYCLES_HI (coreIdx t c) (n + (k.waitFrom.map s.bcSince).getD 0)
/-- `BSC_CYCLES` and `BSC_STALLS` at this moment, the wait under way included (R149, R150). -/
def State.cyclesNow (s : State) (t c : Nat) : Nat :=
  (s.get64 .BSC_CYCLES_LO .BSC_CYCLES_HI (coreIdx t c) + ((s.core t c).waitFrom.map s.bcSince).getD 0) % 2 ^ 64
def State.stallsNow (s : State) (t c : Nat) : Nat :=
  (s.get64 .BSC_STALLS_LO .BSC_STALLS_HI (coreIdx t c)
    + (if s.cstate t c == csWAIT || s.cstate t c == csPAUSE then s.bcSince (s.core t c).since else 0)) % 2 ^ 64

/-- The layer (0–15) of core or bank `c`. -/
def layerOf (c : Nat) : Nat := c / 4
/-- No ACT in the layer's bank group in the last 8 mc (R157). -/
def Stop.actFree (p : Stop) (layer mc : Nat) : Bool := (SMap.find p.acts layer).all (fun m => decide (m + 8 ≤ mc))
/-- No core started or resumed in the layer's bank group in the last 8 mc (R157). -/
def State.mayAct (s : State) (t layer : Nat) : Bool := (SMap.find s.gate.quiet (16 * t + layer)).all (fun m => decide (m + 8 ≤ s.clk.mc))
/-- Record an ACT of bank `b`. -/
def State.actNow (s : State) (t b : Nat) : State :=
  let p := s.stop t
  s.setStop t { p with acts := SMap.put p.acts (layerOf b) s.clk.mc }
/-- The bank is lent to its core (R158). -/
def State.bankLent (s : State) (t b : Nat) : Bool := s.gate.lent.contains (64 * t + b)
/-- Requests for the bank wait (R130, R159). -/
def State.bankAsked (s : State) (t b : Nat) : Bool :=
  s.gate.held.any (fun w => w.bank == 64 * t + b) || s.gate.reqs.any (fun r => r.da / 2 ^ 32 == t && offBank64 (r.da % 2 ^ 32) == b)
/-- A row of the bank is being copied (R141). -/
def State.bankCopied (s : State) (t b : Nat) : Bool := s.gate.rows.any (fun r => r / 2 ^ 14 == 64 * t + b)

/-! ### The exchange path (R147, R154, R168) -/

def State.exBank (s : State) (t : Nat) : Nat := s.fget F.BSC_RING_BANK t
/-- Offset of an exchange word in the scratchpad. -/
def State.exOff (s : State) (t w : Nat) : Nat := 2 ^ 19 * s.exBank t + 8 * w
/-- The engine's scratchpad has power. -/
def Eng.spmOn (e : Eng) : Bool := e.power == .on || e.power == .lull1
/-- The exchange bank is owned by BSX and no hand-over holds it back. -/
def State.exOwned (s : State) (t : Nat) : Bool := s.owner t (s.exBank t) == 4 && (SMap.find (s.eng t).hand (s.exBank t)).isNone
/-- The exchange bank is wiping: the access waits (R113). -/
def State.exWiping (s : State) (t : Nat) : Bool := (s.eng t).wiping.contains (s.exBank t)
/-- The 64 bits of a done word (R154). -/
def doneBits (c code exit tag : Nat) : Nat := exit + 2 ^ 16 * code + 2 ^ 24 * c + 2 ^ 32 * tag
/-- A done word, or DONE_LOST: it joins the export queue of its core, behind every EXP of the launch (R154). -/
def State.doneWord (s : State) (t c off code exit tag : Nat) : State :=
  if s.exOwned t && (s.eng t).spmOn then
    let k := s.core t c
    s.setCore t c { k with expq := k.expq ++ [(off, BitVec.ofNat 64 (doneBits c code exit tag), true)] }
  else s.event F.BSC_STAT_DONE_LOST t

/-! ### Launch and end (R152, R155, R167) -/

/-- The lease of a bank ends (R158). -/
def State.unlend (s : State) (t c : Nat) : State :=
  { s with gate := { s.gate with lent := s.gate.lent.filter (· ≠ 64 * t + c), serve := s.gate.serve.filter (fun x => x.1 ≠ 64 * t + c) } }
/-- A launch begins: counters cleared, WAIT. Words of the launch before it that are still to be written stay queued. -/
def State.launch (s : State) (t c : Nat) (doneOff strict : Option Nat) (charge : Option Charge) : State :=
  let i := coreIdx t c
  let s1 := ((((s.put64 .BSC_CYCLES_LO .BSC_CYCLES_HI i 0).put64 .BSC_STALLS_LO .BSC_STALLS_HI i 0).rput .BSC_PAUSES_REF i 0).rput
    .BSC_PAUSES_LEASE i 0).rput .BSC_XCOLL i 0
  let k := s1.core t c
  (s1.setCore t c { k with doneOff := doneOff, strict := strict, waited := false, token := false, pause := [], since := s.clk.mc, waitFrom := none
                           row := none, pendImp := [], charge := charge }).setCState t c csWAIT
/-- A launch ends with an end code: row, lease and token, the command area, the done word behind the exports (R154, R155, R167). -/
def State.endLaunch (s : State) (t c code exit pc : Nat) : State :=
  let i := coreIdx t c
  let s0 := if s.cstate t c = csRUN then s.coreRan t c 0 else s.endStall t c
  let k := s0.core t c
  let s2 := (s0.setCore t c { k with row := none, pendImp := [], token := false, pause := [], doneOff := none }).unlend t c
  let s3 := if k.token then { (s2.useClose (128 + i)) with tokRel := (16 * towerOf t + layerOf c, s.clk.mc) :: s2.tokRel.filter (fun r => decide (s.clk.mc < r.2 + 44)) } else s2
  let s4 := (s3.fput F.BSC_CSTAT_LO_CODE i code).fput F.BSC_CSTAT_HI_EXIT i exit
  let s5 := if code = 0 then s4.setCState t c csDONE
    else ((((s4.fput F.BSC_CSTAT_LO_ERR_PC i (pc % 1024)).setCState t c csERROR).event F.BSC_STAT_ERR t).fadd F.BSC_ERRCNT_ERRCNT t 1).raise
      0x14 t (coreIdx t c) code
  match k.doneOff with
  | none => s5
  | some off => s5.doneWord t c off code exit (s5.rget .BSC_CTRL_HI i).toNat
/-- A launch ends in error at its PC. -/
def State.bscErr (s : State) (t c code : Nat) : State := s.endLaunch t c code 0 (s.core t c).pc

/-- A wait under R156 or R157 of a core that a strict dispatch launched counts once (R157, R362). -/
def State.strictWait (s : State) (t c : Nat) : State :=
  let k := s.core t c
  match k.strict with
  | none => s
  | some d => if k.waited then s
    else ((s.setCore t c { k with waited := true }).fadd F.TSK_TDC_TDC t 1).detCause d 3

/-- A pause notice reaches a core that runs or is paused (R160, R163). -/
def State.notice (s : State) (t c : Nat) (w : PauseWhy) : State :=
  let k := s.core t c
  if (s.cstate t c == csRUN || s.cstate t c == csPAUSE) && !k.pause.contains w then s.setCore t c { k with pause := k.pause ++ [w] } else s

end Sys2Proof.Machine
end

