-- ==== Sys2Proof/Machine/Vch.lean ====
section
/-! DEFINITION. The vertical channel of a stop: requests, refresh, margin checks, patrol, the bucket, remaps (R120 to R142, R460). -/

namespace Sys2Proof.Machine

/-- VCH_REQUEST: the stop accepts a write, which takes effect, or a read, whose data comes with VCH_READ_DATA. A request that it may
not serve yet is held (R122, R135, R158). -/
def execVchRequest (t : Fin 128) (off : Word) (write : Bool) (src : Fin 8) (len : Nat) (data : List Byte) (s : State) : Out :=
  .next (s.settle (.vchRequest t off write src len data) fun s =>
    let o := off.toNat
    let da := 2 ^ 32 * t.val + o
    if write then
      let q := s.daWrite da data
      { q.1 with outs := { q.1.outs with busErr := q.2.isSome } }
    else if s.bankHeld t o false then s.block t o
    else
      let s1 := s.openRow t o
      { s1 with gate := { s1.gate with reqs := s1.gate.reqs ++ [⟨da, len, src⟩] } })

/-- The data slots that the stop may serve in 8 mc: fewer where a DRAM node of its site is throttled (R303). -/
def State.dataSlots (s : State) (t : Nat) : Nat :=
  max 2 (8 - ((List.range 16).map (fun l => s.fget F.THM_NDATA_LEVEL (576 * towerOf t + 32 * (l + 1) + t % 32))).foldl max 0)
/-- A data slot is free in this mesh cycle. -/
def State.slotFree (s : State) (t : Nat) : Bool :=
  decide (((s.stop t).slotUse.filter (fun m => decide (s.clk.mc < m + 8))).length < s.dataSlots t)
/-- VCH_READ_DATA: the atom of accepted read `k` arrives in a data slot; `ondie` are the status flags of R121. Reads of one atom complete
in order (R122). -/
def execVchReadData (t : Fin 128) (k : Nat) (ondie : BitVec 16) (s : State) : Out :=
  .next (let l := s.gate.reqs
    match l[k]? with
    | none => s
    | some r =>
      if r.da / 2 ^ 32 ≠ t.val || (l.take k).any (fun q => q.da / 256 = r.da / 256) || !s.slotFree t then s
      else
        let p := s.stop t
        let q := (({ s with gate := { s.gate with reqs := l.eraseIdx k } } : State).setStop t
          { p with slotUse := (s.clk.mc :: p.slotUse).take 8 }).atomRead r.da r.src ondie.toNat
        let part := atomPart q.2 (r.da - r.da % 256) (r.da % 256) r.len
        { q.1 with outs := { q.1.outs with rbytes := if part.2.isSome then [] else part.1, busErr := part.2.isSome } })

/-- PAGE_TIMEOUT: PAGE_TMO mc have passed with no request to the bank; its open row closes (R123). -/
def execPageTimeout (t : Fin 128) (bank : Fin 64) (s : State) : Out :=
  .next (let p := s.stop t
    if s.bankLent t bank || s.bankAsked t bank || decide (s.clk.mc < SMap.get p.lastUse bank 0 + s.fget F.VCH_CFG_PAGE_TMO t) then s
    else s.setStop t { p with rowOf := SMap.del p.rowOf bank })

/-- The REFs that a bank owes, or the one that is due, are issued one tRFCpb apart: its row is closed and nothing is owed (R130). -/
def State.refNow (s : State) (t b : Nat) : State :=
  let p := s.stop t
  let n := SMap.get p.owed b 0
  s.setStop t { p with rowOf := SMap.del p.rowOf b, owed := SMap.del p.owed b
                       lastRef := SMap.put p.lastRef b (s.clk.mc + 90 * (n - 1)) }
/-- The next refresh of a bank falls due one tREFI later (R128). -/
def State.refNext (s : State) (t b : Nat) : State :=
  let p := s.stop t
  s.setStop t { p with nextRef := SMap.put p.nextRef b (s.refDue t b + s.tRefi t b) }
/-- A due refresh is postponed; a bank that owes 4 issues them (R130). -/
def State.refOwe (s : State) (t b : Nat) : State :=
  let p := s.stop t
  let n := SMap.get p.owed b 0 + 1
  let s1 := (s.setStop t { p with owed := SMap.put p.owed b n }).fput F.VCH_REF_OWED_MAX t (max n (s.fget F.VCH_REF_OWED_MAX t))
  if 4 ≤ n then s1.refNow t b else s1
/-- REFRESH_DUE: a refresh is issued, or postponed outside scheduled-slot mode while requests for the bank wait. A leased bank's core is
sent a pause notice, in scheduled-slot mode 96 mc ahead; the refresh of a core that is not running is issued (R128, R130, R131, R160,
R161). -/
def execRefreshDue (t : Fin 128) (bank : Fin 64) (postpone : Bool) (s : State) : Out :=
  .next (
    let slot := s.flag F.MESH_CFG_SLOT_EN t
    let d := s.refDue t bank
    let runs := s.bankLent t bank && s.cstate t bank == csRUN
    if slot && runs && decide (d ≤ s.clk.mc + 96) then s.notice t bank .refresh
    else if s.clk.mc < d then s
    else
      let s1 := s.refNext t bank
      if runs then if (s.core t bank).pause.contains .refresh then s1.refOwe t bank else s1.notice t bank .refresh
      else if s.bankLent t bank then
        let k := s1.core t bank
        (s1.setCore t bank { k with pause := k.pause.filter (· ≠ .refresh) }).refNow t bank
      else if slot || !postpone || !s.bankAsked t bank then s1.refNow t bank
      else s1.refOwe t bank)

/-- The locating code of a DRAM layer (R376). -/
def layerLoc (t layer : Nat) : Nat := 9 * 2 ^ 27 + 2 ^ 7 * layer + t
/-- MARGIN_CHECK: a failure sets MARGIN and raises VCH_MARGIN for the layer (R126). -/
def execMarginCheck (t : Fin 128) (layer : Fin 16) (fails : Bool) (s : State) : Out :=
  .next (if s.flag F.VCH_CFG_MARGIN_EN t && fails then
      (s.event F.VCH_STAT_MARGIN t).raiseAs 0x13 t (layerLoc t layer) layer.val 0 false
    else s)

/-- The widest run of passing steps of a sweep of 64, the first of equal ones: its first step and its width (R125). -/
def widestRun (m : Nat) : Nat × Nat :=
  let r := (List.range 64).foldl (fun (a : (Nat × Nat) × (Nat × Nat)) i =>
    let cur := if bitOf m i then (if a.2.2 = 0 then (i, 1) else (a.2.1, a.2.2 + 1)) else (0, 0)
    (if a.1.2 < cur.2 then cur else a.1, cur)) ((0, 0), (0, 0))
  r.1
/-- The middle step of a run (R125, log entry 80). -/
def runCentre (r : Nat × Nat) : Nat := r.1 + (r.2 - 1) / 2
/-- A layer is set from the passing steps of its capture and launch sweeps and its measured RDLAT, or keeps the old values when a run is
shorter than 12 steps (R125, R422). Second result: it trained. -/
def State.trainLayer (s : State) (t layer capture launch rdlat : Nat) : State × Bool :=
  let i := 16 * t + layer
  let c := widestRun capture
  let l := widestRun launch
  let s1 := (s.fput F.VCH_TRAIN_L_WIN_W i l.2).fput F.VCH_TRAIN_L_WIN_R i c.2
  if l.2 < 12 ∨ c.2 < 12 then (s1.event F.VCH_STAT_TRAIN_FAIL t, false)
  else (((s1.fput F.VCH_TRAIN_L_LAUNCH i (runCentre l)).fput F.VCH_TRAIN_L_CAPTURE i (runCentre c)).fput F.VCH_TRAIN_L_RDLAT i rdlat, true)
/-- RETRAIN_WINDOW: a window begins, at least 1 ms after the one before it, and holds the layer; or it ends with what its 4 delay steps
showed, and releases it. The last of the 32 windows of a sweep writes the values found (R126, R422). -/
def execRetrainWindow (t : Fin 128) (layer : Fin 16) (ending : Bool) (result : Window) (s : State) : Out :=
  .next (let p := s.stop t
    let key := 16 * t.val + layer.val
    let old := SMap.find p.sweep layer
    if !ending then
      if s.gate.layers.contains key || old.any (fun x => decide (s.clk.ns < x.2.2 + 1000000)) then s
      else
        let w := old.getD (0, 0, 0)
        ({ s with gate := { s.gate with layers := s.gate.layers ++ [key] } } : State).setStop t
          { p with sweep := SMap.put p.sweep layer (w.1, w.2.1, s.clk.ns) }
    else if !s.gate.layers.contains key then s
    else
      let s1 : State := { s with gate := { s.gate with layers := s.gate.layers.filter (· ≠ key) } }
      let w := old.getD (0, 0, 0)
      let m := w.2.1 + 2 ^ (4 * w.1) * result.pass.toNat
      if w.1 < 31 then s1.setStop t { p with sweep := SMap.put p.sweep layer (w.1 + 1, m, w.2.2) }
      else ((s1.setStop t { p with sweep := SMap.del p.sweep layer }).trainLayer t layer (m % 2 ^ 64) (m / 2 ^ 64) result.rdlat).1)

/-- SCRUB_READ: the patrol read of the next atom, ascending, every INT µs, when no request waits; it leaves no row open that it opened
(R137, R158). -/
def execScrubRead (t : Fin 128) (ondie : BitVec 16) (s : State) : Out :=
  .next (let p := s.stop t
    let off := 256 * p.scrub
    let asked := s.gate.held.any (fun w => w.bank / 64 == t.val) || s.gate.reqs.any (fun r => r.da / 2 ^ 32 == t.val)
    if !s.flag F.VCH_CFG_SCRUB_EN t || asked || decide (s.clk.ns < p.scrubAt + 1000 * s.fget F.VCH_SCRUB_INT t)
        || ({ s with gate := { s.gate with slots := s.slotTiles } } : State).bankHeld t off false then s
    else
      let s1 := if s.needAct t off then s.actNow t (offBank64 off) else s
      let p1 := s1.stop t
      ((s1.setStop t { p1 with scrub := (p.scrub + 1) % 2 ^ 24, scrubAt := s.clk.ns
                               rowOf := if s.needAct t off then SMap.del p1.rowOf (offBank64 off) else p1.rowOf }).atomRead
        (2 ^ 32 * t.val + off) 7 ondie.toNat).1)

/-- BUCKET_LEAK: every LEAK ms (R138). -/
def execBucketLeak (t : Fin 128) (s : State) : Out :=
  .next (let p := s.stop t
    if s.clk.ns < p.leakAt + 1000000 * s.fget F.VCH_BUCKET_LEAK t then s
    else (s.setStop t { p with leakAt := s.clk.ns }).fput F.VCH_BUCKET_LEVEL t (s.fget F.VCH_BUCKET_LEVEL t - 1))
/-- CAND_ACK (R139). -/
def execCandAck (t : Fin 128) (s : State) : Out := .next (s.fput F.VCH_CAND_VALID t 0)
/-- VCH_REF_CLR (R130). -/
def execVchRefClr (t : Fin 128) (s : State) : Out := .next (s.fput F.VCH_REF_OWED_MAX t 0)

/-! ### Row remapping (R140, R141) -/

/-- Row key (bank64 × 2^14 + row), bank and spare row of a remap word. -/
def remapKey (v : Nat) : Nat := 2 ^ 14 * (4 * bits v 19 16 + bits v 15 14) + bits v 13 0
def remapBank (v : Nat) : Nat := 4 * bits v 19 16 + bits v 15 14
def remapSpare (v : Nat) : Nat := bits v 22 20
def remapState (v : Nat) : Nat := bits v 25 24
/-- The assigned bits of a remap word. -/
def remapMask (v : Nat) : Nat := setBits (setBits v 31 26 0) 23 23 0
/-- R140: the write is refused. -/
def State.remapRefused (s : State) (t n v : Nat) : Bool :=
  let old := (s.rget .VCH_REMAP (32 * t + n)).toNat
  let others := ((List.range 32).filter (· ≠ n)).map (fun i => (s.rget .VCH_REMAP (32 * t + i)).toNat)
  let used := others.filter (fun w => remapState w = 1 || remapState w = 2)
  remapState v = 3 || remapState old ≠ 0 ||
  (remapState v ≠ 0 && (used.any (fun w => remapKey w = remapKey v)
    || used.any (fun w => remapBank w = remapBank v && remapSpare w = remapSpare v)
    || decide (8 ≤ (used.filter (fun w => remapBank w = remapBank v)).length)))
/-- A write to a remap entry that R140 lets through, with state STATE. -/
def State.remapWrite (s : State) (t n v : Nat) (k : State → State) : State :=
  if remapMask v = (s.rget .VCH_REMAP (32 * t + n)).toNat then s
  else if s.remapRefused t n v then s.event F.VCH_STAT_REMAP_ERR t
  else k (s.rput .VCH_REMAP (32 * t + n) (BitVec.ofNat 32 (remapMask v)))

/-- An ACTIVE entry is saved in module flash (R140). -/
def State.remapSave (s : State) (t n : Nat) : State :=
  { s with boot := { s.boot with remaps := SMap.put s.boot.remaps (32 * t + n) (s.rget .VCH_REMAP (32 * t + n)) } }
/-- REMAP_INSTALL: an EMPTY entry becomes ACTIVE at once; no data moves (R141). -/
def execRemapInstall (t : Fin 128) (n : Fin 32) (v : Word) (s : State) : Out :=
  .next (if remapState v.toNat ≠ 2 then s else s.remapWrite t n v.toNat fun s => s.remapSave t n)
/-- REMAP_COPY: the row is held; a core that has its bank pauses (R141, R163). -/
def execRemapCopy (t : Fin 128) (n : Fin 32) (v : Word) (s : State) : Out :=
  .next (if remapState v.toNat ≠ 1 then s else s.remapWrite t n v.toNat fun s =>
    let s1 : State := { s with gate := { s.gate with rows := s.gate.rows ++ [2 ^ 20 * t.val + remapKey v.toNat] } }
    if s.bankLent t (remapBank v.toNat) then s1.notice t (remapBank v.toNat) .copy else s1)
/-- Copy one atom of a row to its spare row: corrected words with fresh codes, uncorrectable ones poisoned (R141). -/
def State.copyAtom (s : State) (t v col : Nat) : State :=
  let b := remapBank v
  let off := 2 ^ 18 * bits v 13 0 + 2 ^ 14 * col + 2 ^ 10 * (b / 4) + 2 ^ 8 * (b % 4)
  let r := s.atomRead (2 ^ 32 * t + off) 7 0
  let dst := 2 ^ 39 + (256 * (16 * ((64 * t + b) * 8 + remapSpare v) + col))
  (r.2.zipIdx).foldl (fun a w => if w.1.2 = .bad then a.putPoison (dst + 8 * w.2) w.1.1 else a.putWord (dst + 8 * w.2) w.1.1) r.1
/-- REMAP_COPY_DONE: accesses accepted before the write are complete and no core runs in the bank; the 16 atoms stand in the spare row, the
entry is ACTIVE, the held accesses go on (R141). The copy opens its rows and leaves none open. -/
def execRemapCopyDone (t : Fin 128) (n : Fin 32) (s : State) : Out :=
  .next (let v := (s.rget .VCH_REMAP (32 * t.val + n)).toNat
    let b := remapBank v
    let key := 2 ^ 20 * t.val + remapKey v
    if remapState v ≠ 1 || (s.bankLent t b && s.cstate t b == csRUN)
        || s.gate.reqs.any (fun r => 2 ^ 20 * (r.da / 2 ^ 32) + offRowKey (r.da % 2 ^ 32) == key) || !s.mayAct t (layerOf b) then s
    else
      let s1 := (List.range 16).foldl (fun a c => a.copyAtom t v c) (s.actNow t b)
      let s2 := ((s1.fput F.VCH_REMAP_STATE (32 * t.val + n) 2).event F.VCH_STAT_REMAP_DONE t).remapSave t n
      let p := s2.stop t
      ({ s2 with gate := { s2.gate with rows := s2.gate.rows.filter (· ≠ key) } } : State).setStop t { p with rowOf := SMap.del p.rowOf b })

end Sys2Proof.Machine
end

