-- ==== Sys2Proof/Machine/BootOps.lean ====
section
/-! DEFINITION. Stage reports, locating codes, readiness and the boot image, as start-up, the ports and PCIe share them (R372, R375, R376,
R379, R408). -/

namespace Sys2Proof.Machine

/-! ### Locating codes (R376) -/

def locTile (t : Nat) : Nat := 1 * 2 ^ 27 + t
def locDie (w p : Nat) : Nat := 2 * 2 ^ 27 + w + 2 ^ 4 * p
/-- A row of bank `bank64` (4 × layer + bank) of slice `t`. -/
def locRow (t bank64 row : Nat) : Nat := 3 * 2 ^ 27 + t + 2 ^ 7 * (bank64 / 4) + 2 ^ 11 * (bank64 % 4) + 2 ^ 13 * row
def locPort (p lanes : Nat) : Nat := 4 * 2 ^ 27 + p + 2 ^ 4 * lanes
def locLane (lane speed : Nat) : Nat := 5 * 2 ^ 27 + lane + 2 ^ 4 * speed
def locLink (t kind : Nat) : Nat := 6 * 2 ^ 27 + t + 2 ^ 8 * kind
def locIsland (i : Nat) : Nat := 7 * 2 ^ 27 + i
def locImage (slot cause : Nat) : Nat := 8 * 2 ^ 27 + slot % 2 + cause * 2

/-! ### Stages and reports (R372, R375) -/

/-- RESULT of a report. -/
def resPASS : Nat := 0
def resDEGRADE : Nat := 1
def resFAIL : Nat := 2
def State.stage (s : State) : Nat := s.fget F.BOOT_STAT_STAGE 0
/-- Stage `n` is in progress: the module is powered, no reset is due, the sequence has not stopped, the module is not ready. -/
def State.inStage (s : State) (n : Nat) : Bool :=
  s.stage == n && s.brd.on && !s.rst.modDue && !s.flag F.BOOT_STAT_FAIL 0 && !s.flag F.BOOT_STAT_READY 0
/-- Store 32 bytes of a report. -/
def State.putReport (s : State) (n : Nat) (b : List Byte) : State :=
  (List.range 8).foldl (fun a i => a.rput .BOOT_REP (8 * n + i) (BitVec.ofNat 32 (leAt b (4 * i) 4))) s
/-- Write the report of a stage, copy it to the Eddy log, and write one record more for each further fault. -/
def State.bootReport (s : State) (n res : Nat) (locs : List Nat) (detail : Nat) : State :=
  let k := SMap.get s.boot.attempts n 0 + 1
  let s0 : State := { s with boot := { s.boot with attempts := SMap.put s.boot.attempts n k } }
  let fast := s.flag F.BOOT_STAT_FAST 0 && decide (3 ≤ n)
  let head (loc : Nat) : List Byte :=
    leBytes 1 n ++ leBytes 1 (res + 4 * b2n fast) ++ leBytes 1 k ++ leBytes 1 (min 255 locs.length) ++ leBytes 4 loc ++ leBytes 4 detail ++ zeros 4
  let s1 := s0.putReport n (head (locs.headD 0) ++ leBytes 8 s.boot.began ++ leBytes 8 s.clk.ns)
  let s2 := (locs.headD 0 :: locs.drop 1).foldl (fun a l => a.logWrite ⟨s.clk.ns, 4, 0, 0, head l⟩ false) s1
  if res = resDEGRADE then s2.fput F.BOOT_STAT_DEGRADED 0 1 else s2
/-- The stage after `n` begins. -/
def State.stageNext (s : State) (n : Nat) : State :=
  ({ s with boot := { s.boot with began := s.clk.ns } } : State).fput F.BOOT_STAT_STAGE 0 (n + 1)
/-- A stage ends with its report: the next begins, or the sequence stops; stages 1, 2 and 8 wait instead. -/
def State.stageEnd (s : State) (n res : Nat) (locs : List Nat) (detail : Nat) : State :=
  let s1 := s.bootReport n res locs detail
  if res ≠ resFAIL then s1.stageNext n
  else if n = 1 ∨ n = 2 ∨ n = 8 then s1 else s1.fput F.BOOT_STAT_FAIL 0 1

/-! ### Readiness (R212, R379) -/

def State.portsOn (s : State) : List Nat := (List.range 8).filter (fun p => s.flag F.FAB_CFG_EN p && s.portThere p)
/-- Evaluate stage 8 and report it. -/
def State.ready8 (s : State) : State :=
  let on := s.portsOn
  let up := (on.filter s.portLive).length
  let bad := on.filter (fun p => s.portState p ≠ fpUP)
  let locs := bad.map (fun p => locPort p (if s.portLive p then 15 - s.fget F.FAB_STATE_LANES p else 15))
  let res := if up < s.fget F.BOOT_CFG_MIN_PORTS 0 then resFAIL else if bad = [] then resPASS else resDEGRADE
  s.stageEnd 8 res locs up
/-- Stage 8 has been evaluated and waits. -/
def State.waits8 (s : State) : Bool := s.inStage 8 && decide (0 < SMap.get s.boot.attempts 8 0)
/-- A port changed its state from that of `old`: a module that waits at stage 8 evaluates its readiness again. -/
def State.portsMoved (s old : State) : State :=
  if s.waits8 && (List.range 8).any (fun p => s.portState p ≠ old.portState p) then s.ready8 else s

/-! ### The boot image (R407, R408) -/

def fbWAIT : Nat := 0
def fbLOADING : Nat := 1
def fbACCEPTED : Nat := 3
def fbRECOVERY : Nat := 4
/-- The state in which the boot ROM waits for a GO. -/
def State.fbIdle (s : State) : Nat := if s.fw.recovery then fbRECOVERY else fbWAIT
/-- An image was rejected for a cause: recorded, and stage 2 reports fail. -/
def State.bootReject (s : State) (slot cause : Nat) : State :=
  let s1 := ((s.fput F.FWB_STAT_STATE 0 s.fbIdle).fput F.FWB_STAT_CAUSE 0 cause).event F.SEC_STAT_FW_REJ 0
  ({ s1 with boot := { s1.boot with slot := slot } } : State).bootReport 2 resFAIL [locImage slot cause] 0
/-- The boot image has been read, or its read has failed. -/
def State.bootReturn (s : State) (ok : Bool) (data : List Byte) : State :=
  if s.fget F.FWB_STAT_STATE 0 ≠ fbLOADING then s
  else if !ok then s.fput F.FWB_STAT_STATE 0 s.fbIdle
  else if data.length ≠ s.fget F.FWB_LEN_LEN 0 then s
  else
    let i := imageOf data
    let c := s.imageCause i [0]
    if c ≠ 0 then s.bootReject i.slot c
    else
      let s1 : State := { s with fw := { s.fw with running := true, recovery := false }, sec := { s.sec with svn := i.svn } }
      let s2 := (s1.measure 1 i.svn (sha i.bytes) []).fput F.FWB_STAT_STATE 0 fbACCEPTED
      ((s2.fput F.FWS_RUN_IGEN 0 i.igen).rput .FWS_CLEVEL 0 (BitVec.ofNat 32 (i.clevel + 2 ^ 16 * i.cmin))).mbxResume

end Sys2Proof.Machine
end

