-- ==== Sys2Proof/Machine/Ports.lean ====
section
/-! DEFINITION. The fabric ports (R210 to R213, R234). A change of a port's state lets a module that waits at stage 8 evaluate its
readiness again (R379). -/

namespace Sys2Proof.Machine

/-- The attempts of R211 for a widest width: (width code, lanes). -/
def attempts (maxw : Nat) : List (Nat × Nat) :=
  ([(0, 0xF), (1, 0x3), (1, 0xC), (2, 1), (2, 2), (2, 4), (2, 8)] : List (Nat × Nat)).filter (fun a => decide (maxw ≤ a.1))
/-- Enter TRAIN or RETRAIN: the first attempt starts. -/
def State.trainFrom (s : State) (p v : Nat) : State := (s.setPortState p v).setPort p { s.port p with attempt := some 0 }
/-- PORT_ENABLE: a write of `FAB_CFG.EN` = 1; a port that the part does not have is never enabled (R4, R5). -/
def execPortEnable (p : Fin 8) (s : State) : Out :=
  let s1 := s.fput F.FAB_CFG_EN p 1
  .next (if !s.portThere p then s else (if s1.portState p = fpOFF then s1.trainFrom p fpTRAIN else s1).portsMoved s)
/-- PORT_DISABLE: a write of `FAB_CFG.EN` = 0 turns the port OFF from any state. -/
def execPortDisable (p : Fin 8) (s : State) : Out :=
  .next (((s.fput F.FAB_CFG_EN p 0).portOff p).portsMoved s)

/-- TRAIN_ATTEMPT_SUCCESS: UP at MAXW, DEGRADED below it; the key exchange starts (R213). -/
def execTrainAttemptSuccess (p : Fin 8) (s : State) : Out :=
  .next (State.portsMoved (if s.portState p ≠ fpTRAIN && s.portState p ≠ fpRETRAIN then s
    else match (s.port p).attempt with
      | none => s
      | some k =>
        match (attempts (s.fget F.FAB_CFG_MAXW p))[k]? with
        | none => s
        | some (w, lanes) =>
          let full := w == s.fget F.FAB_CFG_MAXW p
          let s1 := ((s.setPortState p (if full then fpUP else fpDEGRADED)).fput F.FAB_STATE_WIDTH p w).fput F.FAB_STATE_LANES p lanes
          let s2 := s1.event F.FAB_STAT_UP p
          let s3 := if full then s2 else s2.event F.FAB_STAT_DEGRADED p
          (s3.setPort p { s3.port p with attempt := none, fails := 0 }).newKey p 0) s)

/-- Fence a port: it drives no lanes (R212). -/
def State.portFence (s : State) (p : Nat) (raises : Bool) : State :=
  let s1 := ((s.portDark p).setPortState p fpFENCED).event F.FAB_STAT_FENCED p
  if raises then s1.raise 0x30 p 0 0 else s1
/-- TRAIN_ATTEMPT_TIMEOUT: the next attempt, or none is left: TRAIN fences the port, RETRAIN counts a failed retrain and fences
it at RETRY (R211, R213). -/
def execTrainAttemptTimeout (p : Fin 8) (s : State) : Out :=
  .next (State.portsMoved (match (s.port p).attempt with
    | none => s
    | some k =>
      let q := s.port p
      if k + 1 < (attempts (s.fget F.FAB_CFG_MAXW p)).length then s.setPort p { q with attempt := some (k + 1) }
      else if s.portState p = fpTRAIN then s.portFence p true
      else if s.portState p = fpRETRAIN then
        if s.fget F.FAB_CFG_RETRY p ≤ q.fails + 1 then s.portFence p false
        else s.setPort p { q with attempt := none, fails := q.fails + 1 }
      else s) s)
/-- RETRAIN_RETRY: 100 ms after a failed retrain the next one starts. -/
def execRetrainRetry (p : Fin 8) (s : State) : Out :=
  .next (if s.portState p = fpRETRAIN && (s.port p).attempt.isNone then s.setPort p { s.port p with attempt := some 0 } else s)

/-- A live port goes down: it leaves the spray set, DOWN, FAB_PORT, RETRAIN. -/
def State.portDown (s : State) (p : Nat) : State :=
  if !s.portLive p then s
  else
    let s1 := ((s.portDark p).event F.FAB_STAT_DOWN p).raise 0x30 p 0 0
    s1.trainFrom p fpRETRAIN
/-- LINK_LOSS. -/
def execLinkLoss (p : Fin 8) (s : State) : Out := .next ((s.portDown p).portsMoved s)
/-- FEC_LIMIT: the codewords of one ms are counted, and a port above FEC_LIM goes down. -/
def execFecLimit (p : Fin 8) (ce ue : Nat) (s : State) : Out :=
  let s1 := (s.fadd F.FAB_FEC_CE_CE p ce).fadd F.FAB_FEC_UE_UE p ue
  .next ((if s1.fget F.FAB_CFG_FEC_LIM p < ue then s1.portDown p else s1).portsMoved s)
/-- PORT_RETRAIN: a write of `FAB_CTL.RETRAIN`. -/
def execPortRetrain (p : Fin 8) (s : State) : Out :=
  .next (if s.portLive p then (((s.portDark p).event F.FAB_STAT_DOWN p).trainFrom p fpRETRAIN).portsMoved s else s)
/-- PORT_UNFENCE: a write of `FAB_CTL.UNFENCE` clears the retrain count and trains. -/
def execPortUnfence (p : Fin 8) (s : State) : Out :=
  .next (if s.portState p = fpFENCED then ((s.setPort p { s.port p with fails := 0 }).trainFrom p fpTRAIN).portsMoved s else s)
/-- FAB_REKEY: PCTR has reached 2^40 or the key's life is over: a new key under the other index is distributed (R234). -/
def execFabRekey (p : Fin 8) (s : State) : Out :=
  .next (if s.sprays p && (s.port p).newKey.isNone then s.newKey p (1 - s.keyIdx p) else s)
/-- OLD_KEY_EXPIRY: 1 ms after the first packet under a peer port's new key, the old one is dropped. -/
def execOldKeyExpiry (peer : Nat) (port : Fin 8) (idx : Fin 2) (s : State) : Out :=
  let x := s.peer peer
  .next (if x.keys.any (fun k => k.1 == port.val && k.2.1 == 1 - idx.val) then
      s.setPeer peer { x with keys := x.keys.filter (fun k => !(k.1 == port.val && k.2.1 == idx.val)) }
    else s)

end Sys2Proof.Machine
end

