-- ==== Sys2Proof/Machine/RstOps.lean ====
section
/-! DEFINITION. Partial resets and the module reset as RST_CTL, fault reactions, deadlines and pins share them (R380 to R386, R396). -/

namespace Sys2Proof.Machine

/-! ### Sources of faults (R396) -/

def State.src (s : State) (k : Nat) : Src := SMap.get s.flt.srcs k ⟨false, 0, 0, false, false, 0⟩
/-- Keep the state of a source and show it. -/
def State.setSrc (s : State) (k : Nat) (x : Src) : State :=
  let s1 : State := { s with flt := { s.flt with srcs := SMap.put s.flt.srcs k x } }
  let s2 := ((s1.fput F.FLT_IDATA_RECOV k x.recov).fput F.FLT_IDATA2_OCC k x.occ).fput F.FLT_IDATA2_FAULT k (b2n x.fault)
  s2.fput F.FLT_ACTIVE_COUNT 0 (s2.flt.srcs.filter (fun e => e.2.fault)).length

/-! ### Scopes (R380) -/

def rsTILE : Nat := 0
def rsROW : Nat := 1
def rsTOWER : Nat := 2
def rsPATH : Nat := 3
/-- The engines of a scope. -/
def scopeTiles (scope target : Nat) : List Nat :=
  (List.range 128).filter (fun t => match scope with | 0 => t == target | 1 => t / 8 == target | 2 => towerOf t == target | _ => false)
/-- Scope `a` with its target contains the target of scope `b`. -/
def scopeHolds (a ta b tb : Nat) : Bool :=
  if a = rsPATH ∨ b = rsPATH then a == b && ta == tb
  else decide (b ≤ a) && !(scopeTiles b tb).isEmpty && (scopeTiles b tb).all (fun t => (scopeTiles a ta).contains t)
/-- The low bits of TARGET that a scope uses (log entry 34). -/
def scopeTarget (scope t : Nat) : Nat := match scope with | 0 => t % 128 | 1 => t % 16 | _ => t % 4

def phIDLE : Nat := 0
def phWORK : Nat := 1
def phEMPTY : Nat := 2
def phRESET : Nat := 3
def State.phase (s : State) : Nat := s.fget F.RST_STATE_PHASE 0
def State.rstScope (s : State) : Nat := s.fget F.RST_STATE_SCOPE 0
def State.rstTarget (s : State) : Nat := s.fget F.RST_STATE_TARGET 0
/-- The engines of the running reset. -/
def State.rstTiles (s : State) : List Nat := scopeTiles s.rstScope s.rstTarget

/-- A module reset is due; `froze`: the record that orders it froze the log. -/
def State.modWant (s : State) (froze : Bool) : State :=
  { s with rst := { s.rst with modDue := true, froze := s.rst.froze || froze } }
/-- Write a record that freezes the log and order a module reset. -/
def State.modWantRec (s : State) (k : State → State) : State :=
  let s1 := k s
  s1.modWant (!s.flag F.EDY_STATE_FROZEN 0 && s1.flag F.EDY_STATE_FROZEN 0)

/-- EMPTY is entered: packets for the engines of the scope are refused from now on (R383). -/
def State.rstEmpty (s : State) : State :=
  let s1 := (s.fput F.RST_STATE_PHASE 0 phEMPTY)
  s1.rstTiles.foldl (fun a t => a.setEng t { a.eng t with inReset := true })
    { s1 with rst := { s1.rst with emptyAt := if s.phase = phEMPTY then s1.rst.emptyAt else s1.clk.ns } }
/-- The two ports of a base die leave the spray set and receive no more. -/
def State.pathClose (s : State) (w : Nat) : State :=
  [2 * w, 2 * w + 1].foldl (fun a p => if a.portState p = fpOFF || a.portState p = fpFENCED then a
    else (a.portDark p).setPortState p fpTRAIN) s
/-- A reset takes the engine: at once when it absorbs. -/
def State.rstAbsorb (s : State) : State :=
  if s.rst.absorb && (s.phase == phWORK || s.phase == phEMPTY) then (s.rstTiles.foldl (fun a t => a.fenceNow t) s).rstEmpty else s
/-- A request is accepted: the boundary closes. -/
def State.rstAccept (s : State) (scope target : Nat) (absorb : Bool) (src : Option Nat) : State :=
  let s1 := ((s.fput F.RST_STATE_PHASE 0 phWORK).fput F.RST_STATE_SCOPE 0 scope).fput F.RST_STATE_TARGET 0 target
  let s2 : State := { s1 with rst := { s1.rst with absorb := absorb, src := src, reqAt := s.clk.ns, workAt := s.clk.ns, forced := false } }
  (if scope = rsPATH then s2.pathClose target else s2).rstAbsorb
/-! ### Resetting a scope (R382 to R385) -/

/-- An engine is reset: its scratchpad, owners and secure bits stay (R115); the discard of its array shows in ABORT (R56). -/
def State.engineReset (s : State) (t : Nat) : State :=
  let s0 := s.abortArray t
  let e := s0.eng t
  let s1 := s0.regsReset (fun r i => regEngine r i == some t && !([.SPM_OWN0, .SPM_OWN1, .SPM_SECURE, .SPM_HOSTATE] : List Reg).contains r)
  let s2 := s1.setEng t { Eng.off with power := e.power, fenced := e.fenced, inReset := true, epoch := e.epoch + 1, hand := e.hand
                                       wiping := e.wiping, unsecure := e.unsecure, wake := e.wake }
  ((s2.forget t).setStop t { s2.stop t with stage := [] }).event F.MXA_STAT_ABORT t
/-- A compute die is reset: every engine, every stop and its registers but training and remap entries, every core (R384). -/
def State.towerReset (s : State) (w : Nat) : State :=
  let tiles := scopeTiles rsTOWER w
  let cores := (List.range 8192).filter (fun k => towerOf (k / 64) = w)
  let s1 := cores.foldl (fun a k => if a.coreBusy (k / 64) (k % 64) then a.bscErr (k / 64) (k % 64) 0x0B else a) s
  let s2 := tiles.foldl (fun a t => a.engineReset t) s1
  let s3 := s2.regsReset (fun r i => (regStop r i).any (fun t => towerOf t == w) && r != .VCH_TRAIN_L && r != .VCH_REMAP)
  let fresh : Stop := { Stop.empty with
    lastRef := (List.range 64).map (fun b => (b, s.clk.mc)), nextRef := (List.range 64).map (fun b => (b, refGrid b s.clk.mc))
    scrubAt := s.clk.ns, leakAt := s.clk.ns }
  let g := s3.gate
  { s3 with stops := tiles.foldl (fun m t => SMap.put m t fresh) s3.stops
            cores := SMap.drop s3.cores (fun k => towerOf (k / 64) == w)
            tokRel := s3.tokRel.filter (fun x => x.1 / 16 ≠ w)
            gate := { g with lent := g.lent.filter (fun k => towerOf (k / 64) ≠ w), layers := g.layers.filter (fun k => towerOf (k / 16) ≠ w)
                             rows := g.rows.filter (fun k => towerOf (k / 2 ^ 20) ≠ w), reqs := g.reqs.filter (fun r => towerOf (r.da / 2 ^ 32) ≠ w)
                             quiet := SMap.drop g.quiet (fun k => towerOf (k / 16) == w), held := g.held.filter (fun x => towerOf (x.bank / 64) ≠ w)
                             serve := g.serve.filter (fun x => towerOf (x.1 / 64) ≠ w) }
            wset := SMap.drop s3.wset (fun k => decide (k / 8 < 128) && towerOf (k / 8) == w)
            packets := s3.packets.filter (fun p => p.segs.all (fun g => towerOf g.at_ ≠ w) && towerOf p.stop_ ≠ w) }
/-- The scope of the running reset is reset. -/
def State.scopeReset (s : State) : State :=
  let s1 := match s.rstScope with
    | 2 => s.towerReset s.rstTarget
    | 3 => s
    | _ => s.rstTiles.foldl (fun a t => a.engineReset t) s
  s1.fput F.RST_STATE_PHASE 0 phRESET
/-- A request takes over the running reset at its phase; in RESET the wider scope is reset (log entry 91). -/
def State.rstTake (s : State) (scope target : Nat) (absorb : Bool) (src : Option Nat) : State :=
  let s1 := (s.fput F.RST_STATE_SCOPE 0 scope).fput F.RST_STATE_TARGET 0 target
  let s2 : State := { s1 with rst := { s1.rst with absorb := absorb, src := src } }
  if s2.phase = phEMPTY then s2.rstEmpty.rstAbsorb else if s2.phase = phRESET then s2.scopeReset else s2.rstAbsorb
/-- A request for a reset from `RST_CTL`, or from the reaction to source `src` (R381). -/
def State.rstRequest (s : State) (scope target : Nat) (absorb : Bool) (src : Option Nat) : State :=
  if 4 ≤ scope then s.modWant false
  else if !s.flag F.BOOT_STAT_READY 0 then s.event F.RST_STAT_REFUSED 0
  else if s.phase = phIDLE then s.rstAccept scope target absorb src
  else if scopeHolds scope target s.rstScope s.rstTarget then s.rstTake scope target absorb src
  else if scopeHolds s.rstScope s.rstTarget scope target then s
  else if src.isNone then s.event F.RST_STAT_BUSY 0
  else if s.rst.queue.length < 4 then
    ({ s with rst := { s.rst with queue := s.rst.queue ++ [⟨scope, target, src⟩] } } : State).fput F.RST_STATE_QLEN 0 (s.rst.queue.length + 1)
  else s.modWantRec (fun s => s.logEvent 3 [])
/-- The deadline of the running reset in µs. -/
def State.rstDeadline (s : State) : Nat :=
  max 1 (match s.rstScope with
    | 0 => s.fget F.RST_DL0_TILE_US 0
    | 1 => s.fget F.RST_DL0_ROW_US 0
    | 2 => s.fget F.RST_DL1_TOWER_US 0
    | _ => s.fget F.RST_DL1_PATH_US 0)
/-- The RESET record of the running reset (R399). -/
def State.rstRecord (s : State) (fallback : Bool) : State :=
  let us := (s.clk.ns - s.rst.reqAt) / 1000
  s.logWrite ⟨s.clk.ns, 5, 0, s.rst.src.getD 0, leBytes 1 s.rstScope ++ leBytes 1 s.rstTarget
    ++ leBytes 1 (b2n s.rst.absorb + 2 * b2n fallback + 4 * b2n s.rst.forced) ++ zeros 1 ++ leBytes 4 us⟩ fallback
/-- The scope is ready: its engines and ports come back, the reset is counted and recorded, and the next queued request begins. -/
def State.rstFinish (s : State) : State :=
  let w := s.rstTarget
  let s1 := s.rstTiles.foldl (fun a t => a.setEng t { a.eng t with inReset := false }) s
  let s2 := if s.rstScope = rsTOWER then s.rstTiles.foldl (fun a t => a.fput F.VCH_CFG_CMODE t 0) s1
    else if s.rstScope = rsPATH then
      [2 * w, 2 * w + 1].foldl (fun a p => if a.portState p = fpTRAIN then a.trainFrom p fpTRAIN else a) s1
    else s1
  let s3 := (s2.fadd (if s.rstScope = rsPATH then F.RST_CNT_PATH else F.RST_CNT_PARTIAL) 0 1).event F.RST_STAT_DONE 0
  let s4 := (s3.rput .RST_LAST 0 (BitVec.ofNat 32 ((s.clk.ns - s.rst.reqAt) / 1000))).rstRecord false
  let s5 := match s.rst.src with
    | some k => s4.setSrc k { s4.src k with brIdle := true }
    | none => s4
  let s6 := s5.fput F.RST_STATE_PHASE 0 phIDLE
  match s6.rst.queue with
  | [] => s6
  | q :: rest =>
    let s7 := ({ s6 with rst := { s6.rst with queue := rest } } : State).fput F.RST_STATE_QLEN 0 rest.length
    s7.rstAccept q.scope q.target true q.src

end Sys2Proof.Machine
end

