-- ==== Sys2Proof/Machine/Board.lean ====
section
/-! DEFINITION. The 54 V input and PWR_EN (R24, R328, R443 to R448). -/

namespace Sys2Proof.Machine

/-- Registers whose values lie in fuses or module flash. -/
def regFused (r : Reg) : Bool := r == .SEC_LC
/-- The converters start: the module stands before stage 0. -/
def State.powerOn (s : State) : State :=
  let s1 : State := { s with thm := { s.thm with off := false } }
  let s2 := s1.moduleReset
  { s2 with flt := { s2.flt with clearing := false }, brd := { s2.brd with on := true, pwrGood := false } }
/-- INPUT_POWER_UP: standby; the retained domain starts, and the batch counter takes the ceiling recorded in flash (R328). A PWR_EN that is
high starts the converters (R449). -/
def execInputPowerUp (s : State) : Out :=
  .next (if s.brd.input || s.brd.cut then s
    else
      let e := s.enr
      let s1 : State := { s with brd := { s.brd with input := true }
                                 enr := { e with batch := e.ceiling, ceiling := e.ceiling + 2 ^ 20, prev := [], chain := true } }
      if s1.brd.pwrEn then s1.powerOn else s1)
/-- The module stops at once; only fuses and module flash keep what they hold (R444). -/
def State.powerLost (s : State) : State :=
  let z := State.reset
  let next := s.fget F.SEC_CONF_NEXT 0
  let s1 := s.regsReset (fun r _ => !regFused r)
  let s2 : State := { z with
    pending := s.pending, clk := { z.clk with free := s.clk.free }, regs := s1.regs, host := s.host
    pcie := { Pcie.empty with perst := s.pcie.perst, hostBad := s.pcie.hostBad }
    sec := { Sec.empty with owner := s.sec.owner, rkOff := s.sec.rkOff, ideNext := s.sec.ideNext }
    fw := { Fw.empty with recValid := s.fw.recValid }
    enr := { Enr.empty with ceiling := s.enr.ceiling }
    brd := { z.brd with input := false, cut := s.brd.cut, pwrEn := s.brd.pwrEn, on := false }
    boot := { z.boot with saved := s.boot.saved, remaps := s.boot.remaps, cal := s.boot.cal, recImg := s.boot.recImg }
    outs := s.outs }
  s2.fput F.SEC_CONF_NEXT 0 next
/-- INPUT_BELOW_38V. -/
def execInputBelow38v (s : State) : Out := .next (if s.brd.input then s.powerLost else s)
/-- INPUT_OVERVOLTAGE: the hot-swap controller disconnects the input; to the module it is a fall below 38 V. -/
def execInputOvervoltage (s : State) : Out :=
  .next (let s1 := if s.brd.input then s.powerLost else s
    { s1 with brd := { s1.brd with cut := true } })
/-- INPUT_RECONNECT. -/
def execInputReconnect (s : State) : Out := .next { s with brd := { s.brd with cut := false } }
/-- PWR_EN_RISE. -/
def execPwrEnRise (s : State) : Out :=
  .next (if s.brd.pwrEn then s
    else
      let s1 : State := { s with brd := { s.brd with pwrEn := true } }
      if s1.brd.input && !s1.brd.on then s1.powerOn else s1)
/-- PWR_EN_FALL: the module drains, fences, seals (`k` records in the time allowed) and powers down to standby. A coolant sequence under
way runs to its end instead; a partial reset is abandoned, and nothing drains (R447, R448). -/
def execPwrEnFall (m : Meters) (k : Nat) (s : State) : Out :=
  .next (
    let s1 : State := { s with brd := { s.brd with pwrEn := false } }
    if !s.brd.pwrEn || !s.brd.on then s1
    else if s1.thm.off then s1.standby
    else if s1.coolState ≠ 0 then s1
    else
      let s2 : State := if s1.phase = phIDLE then s1.qpKeys.foldl (fun a q => a.qpDrain q) s1
        else ({ s1 with rst := Rst.empty } : State).rput .RST_STATE 0 0
      let s3 := (List.range 128).foldl (fun a t => a.fenceNow t) s2
      (s3.seal m k).domainsOff.standby)

end Sys2Proof.Machine
end

