-- ==== Sys2Proof/Machine/Boot.lean ====
section
/-! DEFINITION. Start-up: stages 0 to 9, readiness, saved settings and the boot load (R347, R348, R372 to R379, R408). What a stage
finds on its units is an operand of its command (log entry 8). -/

namespace Sys2Proof.Machine

/-! ### Stages 0 to 2 -/

/-- A report that reads "not run" (R375, R446). -/
def State.notRun (s : State) (n : Nat) : State := s.putReport n (leBytes 1 n ++ leBytes 1 3 ++ zeros 30)
/-- STAGE_0: `good` says that power-good was reached in 100 ms, `bad` names the dies (18 × tower + position) whose record fails its
parity. Device time starts, the boot secret is drawn, the boot ROM is measured. -/
def execStage0 (good : Bool) (bad : List (Fin 72)) (s : State) : Out :=
  .next (if !s.inStage 0 then s
    else
      let f := s.free 256
      let s1 : State := { f.2 with clk := { f.2.clk with ns := 0 }, flt := { f.2.flt with clearing := false }
                                   boot := { f.2.boot with began := 0 }, sec := { f.2.sec with bs := f.1 }
                                   brd := { f.2.brd with pwrGood := f.2.brd.pwrGood || good } }
      let s2 := (List.range 9).foldl (fun a i => a.notRun (i + 1)) s1
      let s3 := s2.measure 0 0 (leBytes 32 Config.romDigest.toNat) []
      let s4 := if bad = [] then s3 else s3.event F.SEC_STAT_ID_BAD 0
      s4.stageEnd 0 (if good && bad.isEmpty then resPASS else resFAIL) (bad.map (fun d => locDie (d / 18) (d % 18))) 0)

/-- The security configuration as a TYPE 6 entry measures it. -/
def State.secConfig (s : State) : List Byte :=
  ([.SEC_CONF, .SEC_PROG_LO, .SEC_PROG_HI, .SEC_PROG_LEN, .SEC_OWIN_LO, .SEC_OWIN_HI, .SEC_OWIN_LEN] : List Reg).flatMap
    (fun r => leBytes 4 (s.rget r 0).toNat)
/-- STAGE_1: the link has trained (lanes `bad` have not), or has not within 1 s of PERST# deassertion. Confidential mode and IDE_REQ are
read, the manifest is formed; configuration requests are answered from now on. -/
def execStage1 (bad : List (Fin 16)) (s : State) : Out :=
  .next (if !s.inStage 1 || s.pcie.perst then s
    else
      let link := (s.rget .PCI_LINK 0).toNat
      let locs := bad.map (fun l => locLane l (s.fget F.PCI_LINK_SPEED 0))
      if !s.linkUp then s.stageEnd 1 resFAIL locs link
      else
        let on := s.fget F.SEC_CONF_NEXT 0
        let s1 := (s.fput F.SEC_CONF_ACTIVE 0 on).fput F.SEC_CONF_IDE_REQ 0 (b2n s.sec.ideNext)
        let s2 := if on = 1 then s1.fput F.PCI_CFG_IDE_REQ 0 (b2n s.sec.ideNext) else s1
        let s3 := (s2.measure 5 0 s2.manifestHash []).measure 6 0 (sha s2.secConfig) []
        let full := s.fget F.PCI_LINK_SPEED 0 = 6 ∧ s.fget F.PCI_LINK_WIDTH 0 = 16 ∧ s.fget F.PCI_LINK_FLIT 0 = 1
        ({ s3 with pcie := { s3.pcie with ready := true } } : State).stageEnd 1 (if full then resPASS else resDEGRADE) locs link)

/-- STAGE_2 ends once an image has been accepted. -/
def execStage2 (s : State) : Out := .next (if s.inStage 2 && s.fw.running then s.stageEnd 2 resPASS [] 0 else s)
/-- BOOT_LOAD_GO: a write of 1 to `FWB_CTL.GO`, taken while the boot ROM or the recovery image waits for an image. -/
def execBootLoadGo (s : State) : Out :=
  .next (if !s.inStage 2 || s.fw.running || s.fget F.FWB_STAT_STATE 0 = fbLOADING || !s.linkUp then s
    else if !s.hostOpen then s.event F.PCI_STAT_IDE_WAIT 0
    else s.fput F.FWB_STAT_STATE 0 fbLOADING)
/-- BOOT_TIMEOUT: no GO within 10 s of the end of stage 1. The recovery image runs with cause 8, or fails its check with cause 9. -/
def execBootTimeout (s : State) : Out :=
  .next (if !s.inStage 2 || s.fw.running || s.fw.recovery || s.fget F.FWB_STAT_STATE 0 ≠ fbWAIT || decide (0 < SMap.get s.boot.attempts 2 0)
      || decide (s.clk.ns < s.boot.began + 10 ^ 10) then s
    else
      let i := imageOf (s.boot.recImg.getD Config.recImage)
      if s.fw.recValid && s.imageCause i [3] = 0 then
        let s1 : State := { s with fw := { s.fw with recovery := true } }
        (((s1.fput F.FWB_STAT_STATE 0 fbRECOVERY).fput F.FWB_STAT_CAUSE 0 8).bootReport 2 resFAIL [locImage s.boot.slot 8] 0).mbxResume
      else (s.fput F.FWB_STAT_CAUSE 0 9).bootReport 2 resFAIL [locImage i.slot 9] 0)

/-! ### Stages 3 to 7 -/

/-- The key of a saved-settings set (R377). -/
def State.savedKey (s : State) : List Byte := s.serial ++ s.manifestHash ++ s.sec.fwMeas
/-- Band of a temperature in 0.125 °C. -/
def bandOf (t : Int) : Nat := if t < 200 then 0 else if t < 360 then 1 else if t < 520 then 2 else 3
/-- The set of the current band, when its key matches and the module reset did not ask for a full test (R378). -/
def State.savedSet (s : State) : Option Saved :=
  if s.boot.fullTest then none
  else (SMap.find s.boot.saved (s.fget F.BOOT_STAT_BAND 0)).filter (fun x => x.key == s.savedKey)
/-- STAGE_3: `temp` is the highest base-die sensor in 0.125 °C; `islands` and `domains` failed (a domain is its engine), or a domain of
another kind did. It waits for flow (R446); every other engine domain is switched on, its banks wiped. -/
def execStage3 (temp : Int) (islands : List (Fin 148)) (domains : List (Fin 128)) (other : Bool) (s : State) : Out :=
  .next (if !s.inStage 3 || !s.boot.flowOk then s
    else
      let s0 := (s.fput F.BOOT_STAT_BAND 0 (bandOf temp)).fput F.PWR_SBCAP_SB_CAP 0 s.brd.sbCap
      let s1 := ((s0.fput F.BOOT_STAT_FAST 0 (b2n s0.savedSet.isSome)).capShow).measure 4 0 (sha (s0.boot.cal.getD Config.calTable)) []
      let lost := (List.range 128).filter (fun t => !s.disabled t && (islands.any (fun i => i.val == t) || domains.any (fun d => d.val == t)))
      let hard := other || islands.any (fun i => decide (128 ≤ i.val))
      let locs := (islands.filter (fun i => decide (128 ≤ i.val) || lost.contains i.val)).map (fun i => locIsland i)
        ++ (lost.filter (fun t => !islands.any (fun i => i.val == t))).map locTile
      let s2 := lost.foldl (fun a t => a.fenceNow t) s1
      let s3 := if hard then s2 else (s2.enabledTiles).foldl (fun a t => a.engineOn t []) s2
      s3.stageEnd 3 (if hard then resFAIL else if lost = [] then resPASS else resDEGRADE) locs 0)

/-- STAGE_4: the sweeps of a layer show its passing capture steps, its passing launch steps and its RDLAT; layers of `full` (16 × tile +
layer) show their own, the others `all`; a layer outside `full` whose saved setting passes its check keeps it (R125, R378). -/
def execStage4 (all : BitVec 64 × BitVec 64 × Fin 4) (full : List (Fin 2048 × BitVec 64 × BitVec 64 × Fin 4)) (s : State) : Out :=
  .next (if !s.inStage 4 then s
    else
      let r := (List.range 2048).foldl (fun (a : State × List Nat) i =>
        let own := full.find? (fun x => x.1.val == i)
        match own, s.savedSet.bind (fun x => SMap.find x.train i) with
        | none, some w => (a.1.rput .VCH_TRAIN_L i w, a.2)
        | _, _ =>
          let m := (own.map (·.2)).getD all
          let t := a.1.trainLayer (i / 16) (i % 16) m.1.toNat m.2.1.toNat m.2.2
          (t.1, if t.2 then a.2 else a.2 ++ [layerLoc (i / 16) (i % 16)])) (s, [])
      r.1.stageEnd 4 (if r.2 = [] then resPASS else resFAIL) r.2 0)

/-- STAGE_5: remap entries are restored; `repairs` are new ones (entry 32 × tile + n, its word with STATE = ACTIVE), `bad` the rows
(slice, bank, row) for which no spare row serves. A full test leaves nothing that was stored before; so does zeroing (R348). -/
def execStage5 (repairs : List (Fin 4096 × Word)) (bad : List (Fin 128 × Fin 64 × Fin 16384)) (s : State) : Out :=
  .next (if !s.inStage 5 then s
    else
      let s0 := s.boot.remaps.foldl (fun a e => a.rput .VCH_REMAP e.1 e.2) s
      let keep := s.savedSet.isSome && !s.sec.zeroFlag
      let s1 : State := if keep then s0 else { s0 with mem := [], synd := [], soft := [], sec := { s0.sec with zeroFlag := false } }
      let r := repairs.foldl (fun (a : State × List Nat × List Nat) x =>
        let t := x.1.val / 32
        let v := setBits x.2.toNat 25 24 2
        let loc := locRow t (remapBank v) (bits v 13 0)
        if a.1.remapRefused t (x.1.val % 32) v then (a.1.event F.VCH_STAT_REMAP_ERR t, a.2.1, a.2.2 ++ [loc])
        else ((a.1.rput .VCH_REMAP x.1.val (BitVec.ofNat 32 (remapMask v))).remapSave t (x.1.val % 32), a.2.1 ++ [loc], a.2.2)) (s1, [], [])
      let fails := r.2.2 ++ bad.map (fun b => locRow b.1 b.2.1 b.2.2)
      let res := if fails ≠ [] then resFAIL else if r.2.1 = [] then resPASS else resDEGRADE
      r.1.stageEnd 5 res (fails ++ r.2.1) r.2.1.length)

/-- STAGE_6: the engines that fail their self-test are fenced (R373). -/
def execStage6 (failed : List (Fin 128)) (s : State) : Out :=
  .next (if !s.inStage 6 then s
    else
      let bad := s.enabledTiles.filter (fun t => failed.any (fun f => f.val == t))
      let s1 := bad.foldl (fun a t => a.fenceNow t) s
      let n := s1.enabledTiles.length
      let res := if n = s.fget F.GLB_IDENT_GRADE 0 then resPASS else if s.fget F.BOOT_CFG_MIN_TILES 0 ≤ n then resDEGRADE else resFAIL
      s1.stageEnd 6 res (bad.map locTile) n)

/-- A link of a compute die, as (tile, kind) of R376: east, south, to the next tower from row Y3, or the express lanes of a stop of columns
3 and 4 (R15 to R17). -/
def linkThere (t kind : Nat) : Bool :=
  match kind with | 0 => decide (tileX t < 7) | 1 => decide (tileY t < 3) | 2 => decide (tileY t = 3) | _ => tileX t == 3 || tileX t == 4
/-- The count of R80 starts at 0; times kept in mesh cycles start with it. -/
def State.countFromZero (s : State) : State :=
  { s with clk := { s.clk with mc := 0 }, tokRel := [], flt := { s.flt with sentAt := [] }, gate := { s.gate with quiet := [], held := [], serve := [] }
           stops := s.stops.map (fun e => (e.1, { e.2 with lastUse := [], lastRef := [], nextRef := [], acts := [], lastVc0 := none, slotUse := [], lastOp := none
                                                           portUse := [] }))
           cores := s.cores.map (fun e => (e.1, { e.2 with since := 0, waitFrom := none })) }
/-- STAGE_7: `failed` are the links that did not train, as (tile, kind) of R376. The mesh cycle count starts at 0 (R80). -/
def execStage7 (failed : List (Fin 128 × Fin 4)) (s : State) : Out :=
  .next (if !s.inStage 7 then s
    else
      let locs := (failed.filter (fun x => linkThere x.1 x.2)).map (fun x => locLink x.1 x.2)
      if locs ≠ [] then s.stageEnd 7 resFAIL locs 0
      else s.countFromZero.stageEnd 7 resPASS [] 0)

/-! ### Stages 8 and 9 -/

/-- STAGE_8: the enabled ports train; once none of them is in TRAIN, readiness is evaluated (R212, R379). -/
def execStage8 (s : State) : Out :=
  .next (if !s.inStage 8 || s.waits8 then s
    else
      let s1 := (s.portsOn.filter (fun p => s.portState p = fpOFF)).foldl (fun a p =>
        (a.fput F.FAB_STATE_STATE p fpTRAIN).setPort p { a.port p with attempt := some 0 }) s
      if s1.portsOn.any (fun p => s1.portState p == fpTRAIN) then s1 else s1.ready8)
/-- MIN_PORTS_WRITE: a write of `BOOT_CFG.MIN_PORTS`; a module that waits at stage 8 evaluates its readiness again. -/
def execMinPortsWrite (v : Fin 16) (s : State) : Out :=
  .next (let s1 := s.fput F.BOOT_CFG_MIN_PORTS 0 v
    if s1.waits8 then s1.ready8 else s1)
/-- STAGE_9: every stop goes to SERVICE, the settings are saved, the module is ready. -/
def execStage9 (s : State) : Out :=
  .next (if !s.inStage 9 then s
    else
      let s1 := (List.range 128).foldl (fun a t => a.fput F.VCH_CFG_CMODE t 0) s
      let set : Saved := ⟨s1.savedKey, (List.range 2048).map (fun i => (i, s1.rget .VCH_TRAIN_L i))⟩
      let s2 : State := if s1.flag F.BOOT_CFG_SAVE_EN 0 then
          { s1 with boot := { s1.boot with saved := SMap.put s1.boot.saved (s1.fget F.BOOT_STAT_BAND 0) set } } else s1
      (s2.bootReport 9 resPASS [] 0).fput F.BOOT_STAT_READY 0 1)
/-- CLR_SAVED: a write of 1 to `BOOT_CTL.CLR_SAVED` erases every saved set. -/
def execClrSaved (s : State) : Out := .next { s with boot := { s.boot with saved := [] } }

end Sys2Proof.Machine
end

