-- ==== Sys2Proof/Machine/Bsc.lean ====
section
/-! DEFINITION. Bank-side cores: program loads, launches, instructions, pauses and ends (R144 to R170). -/

namespace Sys2Proof.Machine

/-! ### Program loads -/

/-- A host write that confidential mode ignores (R149). -/
def State.hostDenied (s : State) (host : Bool) : Bool := host && s.conf
/-- The cores that `BSC_PMASK0` and `BSC_PMASK1` select. -/
def State.progMask (s : State) (t : Nat) : List Nat := bitList ((s.rget .BSC_PMASK0 t).toNat + 2 ^ 32 * (s.rget .BSC_PMASK1 t).toNat) 64
/-- BSC_PROGRAM_LOAD: the image goes into the stores of the selected cores, or the load is refused whole (R151). -/
def execBscProgramLoad (t : Fin 128) (src : By) (s : State) : Out :=
  .next (s.settle (.bscProgramLoad t src) fun s => s.viaPort 0 src (
    if s.hostDenied src.isHost then s.event F.BSC_STAT_CA_DENY t
    else if (s.progMask t).any (s.coreBusy t) then s.event F.BSC_STAT_LOAD_DENY t
    else
      let r := s.daRead (2 ^ 32 * t.val + 4096 * s.fget F.BSC_PSRC_OFFSET t) 4096 5
      if r.2.2.isSome then r.1.fput F.BSC_PCTL_FAIL t 1
      else
        let img := r.2.1
        let store := (List.range 1024).map (fun i => (i, BitVec.ofNat 32 (leAt img (4 * i) 4)))
        ((s.progMask t).foldl (fun a c => a.setCore t c { a.core t c with store := store, badPar := [] }) r.1
          |>.fput F.BSC_PCTL_FAIL t 0).fput F.BSC_PCTL_BUSY t 1))
/-- BSC_LOAD_DONE (R151). -/
def execBscLoadDone (t : Fin 128) (s : State) : Out :=
  .next (if s.flag F.BSC_PCTL_BUSY t then (s.fput F.BSC_PCTL_BUSY t 0).event F.BSC_STAT_LOAD_DONE t else s)

/-! ### Launch, stop, ring -/

/-- BSC_GO (R152). -/
def execBscGo (t : Fin 128) (c : Fin 64) (src : By) (s : State) : Out :=
  .next (s.viaPort 0 src (
    if s.hostDenied src.isHost then s.event F.BSC_STAT_CA_DENY t
    else if !s.flag F.GLB_FEATURES_BSC 0 then s.event F.BSC_STAT_UNSUP t
    else if s.coreBusy t c then s.event F.BSC_STAT_BUSY_GO t
    else s.launch t c none none none))
/-- BSC_STOP: the launch ends with ABORT (R155, R167). -/
def execBscStop (t : Fin 128) (c : Fin 64) (src : By) (s : State) : Out :=
  .next (s.viaPort 0 src (
    if s.hostDenied src.isHost then s.event F.BSC_STAT_CA_DENY t
    else if s.coreBusy t c then s.bscErr t c 0x0B else s))

/-- The ring is read: enabled, its bank owned by BSX and powered (R153). -/
def State.ringOn (s : State) (t : Nat) : Bool := s.flag F.BSC_RING_EN t && s.exOwned t && (s.eng t).spmOn
/-- Byte offset of the ring in the scratchpad. -/
def State.ringBase (s : State) (t : Nat) : Nat := 2 ^ 19 * s.exBank t + 1024 * s.fget F.BSC_RING_BASE t
/-- BSC_RING_POLL: the producer word is read through port B (R153). -/
def execBscRingPoll (t : Fin 128) (s : State) : Out :=
  .next (if !s.ringOn t || s.exWiping t then s
    else
      let r := s.spmRead t (s.ringBase t) 8
      match r.2 with
      | none => r.1
      | some bs => r.1.setStop t { r.1.stop t with ringProd := leNat bs % 65536 })

/-- The stop moves past a record: `BSC_RCONS` and, through port B, the consumer word of the ring (R109, R153). -/
def State.ringNext (s : State) (t : Nat) (portA : List Nat) : State :=
  let n := (s.fget F.BSC_RCONS_CONS t + 1) % 65536
  ((s.fput F.BSC_RCONS_CONS t n).spmWriteB t (s.ringBase t + 8) (leBytes 8 n) 4 portA).1
/-- BSC_RING_RECORD: one launch record is taken, stays at the head, or is rejected (R153). -/
def execBscRingRecord (tp : TilePorts) (s : State) : Out :=
  let t := tp.tile
  let portA := tp.portA
  .next (
    let cons := s.fget F.BSC_RCONS_CONS t
    if !s.ringOn t || s.exWiping t || (s.stop t).ringProd = cons then s
    else
      let r := s.spmRead t (s.ringBase t + 64 + 64 * (cons % 2 ^ s.fget F.BSC_RING_LOG2 t)) 64
      match r.2 with
      | none => r.1
      | some b =>
        let target := leAt b 0 2
        let c := 4 * bits target 3 0 + bits target 5 4
        let tag := leAt b 8 4
        let off := leAt b 6 2
        let argn := leAt b 4 2
        let bad := target / 64 ≠ 0 || leAt b 2 2 / 1024 ≠ 0 || 7 ≤ argn || leAt b 12 4 ≠ 0
        if bad then ((r.1.doneWord t c off 0x0D 0 tag).event F.BSC_STAT_BAD_RECORD t).ringNext t portA
        else if !s.flag F.GLB_FEATURES_BSC 0 then ((r.1.doneWord t c off 0x0C 0 tag).event F.BSC_STAT_UNSUP t).ringNext t portA
        else if s.coreBusy t c then r.1
        else
          let i := coreIdx t c
          let s1 := ((r.1.fput F.BSC_CTRL_LO_ENTRY i (leAt b 2 2)).rput .BSC_CTRL_HI i (BitVec.ofNat 32 tag)).rput .BSC_CTX i
            (BitVec.ofNat 32 (r.1.tileCtx t))
          let s2 := (List.range argn).foldl (fun a n => a.put64 .BSC_DATA_LO .BSC_DATA_HI (56 * i + n) (leAt b (16 + 8 * n) 8)) s1
          let strict := (s2.tileDisp t).bind (fun d => if d.2.strict && d.2.running then some d.1 else none)
          (s2.launch t c (some off) strict ((s2.tileDisp t).map (·.2.charge))).ringNext t portA)

/-- Cores of a tower's layer that hold a token, and tokens released less than 22 bc ago (R156). -/
def State.tokensTaken (s : State) (tower layer : Nat) : Nat :=
  (s.cores.filter (fun e => e.2.token && towerOf (e.1 / 64) = tower && layerOf (e.1 % 64) = layer)).length
    + (s.tokRel.filter (fun r => r.1 = 16 * tower + layer && decide (s.clk.mc < r.2 + 44))).length
/-- Requests are granted oldest first, then in ascending tile index, then bank (R156). -/
def State.tokenFirst (s : State) (t c : Nat) : Bool :=
  let me := (s.core t c).since
  s.cores.all (fun e =>
    let u := e.1 / 64
    let b := e.1 % 64
    !(towerOf u = towerOf t && layerOf b = layerOf c && s.cstate u b = csWAIT && !e.2.token)
      || decide (me < e.2.since) || (e.2.since = me && decide (64 * t + c ≤ e.1)))
/-- BSC_TOKEN_GRANT (R156). -/
def execBscTokenGrant (t : Fin 128) (c : Fin 64) (s : State) : Out :=
  .next (let k := s.core t c
    if s.cstate t c ≠ csWAIT || k.token then s
    else if s.tokensTaken (towerOf t) (layerOf c) < 8 && s.tokenFirst t c then
      (s.setCore t c { k with token := true, waited := false }).useOpen (128 + coreIdx t c) (k.charge.getD (.one (s.fget F.BSC_CTX_CTX (coreIdx t c))))
    else s.strictWait t c)
/-- BSC_LEASE_BEGIN: the requests of the bank that the stop accepted earlier are complete, its row closes, the bank is lent (R155, R158). -/
def execBscLeaseBegin (t : Fin 128) (c : Fin 64) (s : State) : Out :=
  .next (if s.cstate t c ≠ csWAIT || !(s.core t c).token || s.bankLent t c || s.bankAsked t c then s
    else
      let p := s.stop t
      let s1 : State := { s with gate := { s.gate with lent := s.gate.lent ++ [64 * t.val + c.val] } }
      s1.setStop t { p with rowOf := SMap.del p.rowOf c })
/-- The start or resumption of a core keeps other ACTs of its bank group away for 8 mc (R157). -/
def State.quietNow (s : State) (t c : Nat) : State :=
  { s with gate := { s.gate with quiet := SMap.put s.gate.quiet (16 * t + layerOf c) s.clk.mc } }
/-- BSC_CORE_START: registers cleared, PC = ENTRY, RUN, once activate spacing is met and no row of the bank is being copied (R141, R144,
R155, R157). -/
def execBscCoreStart (t : Fin 128) (c : Fin 64) (s : State) : Out :=
  .next (if s.cstate t c ≠ csWAIT || !s.bankLent t c || s.bankCopied t c then s
    else if !(s.stop t).actFree (layerOf c) s.clk.mc then s.strictWait t c
    else
      let s1 := (s.endStall t c).quietNow t c
      (s1.setCore t c { s1.core t c with breg := [], pc := s.fget F.BSC_CTRL_LO_ENTRY (coreIdx t c), row := none, pause := [], waited := false
                                         waitFrom := none }).setCState t c csRUN)

/-! ### Instructions (R146, R147) -/

def Core.b (k : Core) (i : Nat) : DWord := SMap.get k.breg i 0
/-- Opcodes of R146. -/
def coreOpcodes : List Nat := [0x00, 0x01, 0x02, 0x03, 0x04, 0x05, 0x06, 0x08, 0x09, 0x0A, 0x0B, 0x10, 0x11, 0x18, 0x1F]
/-- The instruction at the PC issues if the core runs and no notice holds it: fetch errors end the launch, and a word of another
defined opcode belongs to another command. -/
def State.bscIssue (s : State) (t c opc : Nat) (k : State → Word → State) : State :=
  let x := s.core t c
  if s.cstate t c ≠ csRUN || !x.pause.isEmpty then s
  else if 1024 ≤ x.pc then s.bscErr t c 0x02
  else if x.badPar.contains x.pc then s.bscErr t c 0x03
  else
    let w := SMap.get x.store x.pc 0
    if kOPC w = opc then k s w
    else if coreOpcodes.contains (kOPC w) then s
    else s.bscErr t c 0x01
/-- A register still waits for IMP data. -/
def State.regPending (s : State) (t c r : Nat) : Bool := (s.core t c).pendImp.any (·.1 == r)
/-- The instruction waits while a register it names is pending (R147). -/
def State.whenReady (s : State) (t c : Nat) (rs : List Nat) (k : State) : State := if rs.any (s.regPending t c) then s.coreWaits t c else k
/-- The instruction is complete after `n` bc; the next one stands at `pc`. -/
def State.bscJump (s : State) (t c n pc : Nat) : State :=
  let s1 := s.coreRan t c n
  s1.setCore t c { s1.core t c with pc := pc }
/-- The instruction is complete after `n` bc. -/
def State.bscRetire (s : State) (t c n : Nat) : State := s.bscJump t c n ((s.core t c).pc + 1)
/-- Write B(d) and complete. -/
def State.bscSet (s : State) (t c d : Nat) (v : DWord) (n : Nat) : State :=
  let x := s.core t c
  (s.setCore t c { x with breg := SMap.put x.breg d v }).bscRetire t c n

/-- The ALU operations FN 0–16. -/
def bscAluOp (fn : Nat) (a b : DWord) : Option DWord :=
  let sh := b.toNat % 64
  match fn with
  | 0 => some (a + b)
  | 1 => some (a - b)
  | 2 => some (a &&& b)
  | 3 => some (a ||| b)
  | 4 => some (a ^^^ b)
  | 5 => some (a <<< sh)
  | 6 => some (a >>> sh)
  | 7 => some (a.sshiftRight sh)
  | 8 => some (a * b)
  | 9 => some (if a.toInt < b.toInt then a else b)
  | 10 => some (if a.toInt < b.toInt then b else a)
  | 11 => some (if a.toNat < b.toNat then a else b)
  | 12 => some (if a.toNat < b.toNat then b else a)
  | 13 => some (if a.toInt < b.toInt then 1 else 0)
  | 14 => some (if a.toNat < b.toNat then 1 else 0)
  | 15 => some (if a = b then 1 else 0)
  | 16 => some (BitVec.ofNat 64 (((List.range 4).map (fun i =>
      if b.toNat % 65536 < bits a.toNat (16 * i + 15) (16 * i) then 2 ^ i else 0)).sum))
  | _ => none

/-- BSC_ALU. -/
def execBscAlu (t : Fin 128) (c : Fin 64) (s : State) : Out :=
  .next (s.bscIssue t c 0x00 fun s w =>
    let x := s.core t c
    match bscAluOp (kFN w) (x.b (kA w)) (x.b (kB w)) with
    | none => s.bscErr t c 0x01
    | some v => s.whenReady t c [kA w, kB w, kD w] (s.bscSet t c (kD w) v (if kFN w = 8 then 2 else 1)))
/-- BSC_ADDI. -/
def execBscAddi (t : Fin 128) (c : Fin 64) (s : State) : Out :=
  .next (s.bscIssue t c 0x01 fun s w =>
    s.whenReady t c [kA w, kD w] (s.bscSet t c (kD w) ((s.core t c).b (kA w) + BitVec.ofInt 64 (kIMM w)) 1))
/-- BSC_SHI. -/
def execBscShi (t : Fin 128) (c : Fin 64) (s : State) : Out :=
  .next (s.bscIssue t c 0x02 fun s w =>
    if kA w ≠ 0 then s.bscErr t c 0x01
    else s.whenReady t c [kD w] (s.bscSet t c (kD w) (((s.core t c).b (kD w) <<< 18) ||| BitVec.ofNat 64 (kUIMM w)) 1))
/-- COND 0–6 of BR. -/
def bscCond (cond : Nat) (a b : DWord) : Option Bool :=
  match cond with
  | 0 => some (a == b)
  | 1 => some (a != b)
  | 2 => some (decide (a.toInt < b.toInt))
  | 3 => some (decide (b.toInt ≤ a.toInt))
  | 4 => some (decide (a.toNat < b.toNat))
  | 5 => some (decide (b.toNat ≤ a.toNat))
  | 6 => some true
  | _ => none
/-- BSC_BR: 2 bc taken, 1 not; COND lies in bits [25:22]. -/
def execBscBr (t : Fin 128) (c : Fin 64) (s : State) : Out :=
  .next (s.bscIssue t c 0x03 fun s w =>
    let x := s.core t c
    match bscCond (kD w) (x.b (kA w)) (x.b (kB w)) with
    | none => s.bscErr t c 0x01
    | some false => s.whenReady t c [kA w, kB w] (s.bscRetire t c 1)
    | some true => s.whenReady t c [kA w, kB w] (s.bscJump t c 2 (wrap 14 (x.pc + kOFF w))))

/-- Word `w` of a command area (R148, R150). -/
def State.caGet (s : State) (t c w : Nat) : Nat :=
  let i := coreIdx t c
  match w with
  | 0 => s.get64 .BSC_CTRL_LO .BSC_CTRL_HI i
  | 1 => s.get64 .BSC_CSTAT_LO .BSC_CSTAT_HI i
  | 2 => s.cyclesNow t c
  | 3 => s.stallsNow t c
  | 4 => s.get64 .BSC_PAUSES_REF .BSC_PAUSES_LEASE i
  | 5 => (s.rget .BSC_XCOLL i).toNat
  | 6 => (s.rget .BSC_CTX i).toNat
  | 7 => 0
  | _ => s.get64 .BSC_DATA_LO .BSC_DATA_HI (56 * i + (w - 8))
/-- LDC. -/
def execLdc (t : Fin 128) (c : Fin 64) (s : State) : Out :=
  .next (s.bscIssue t c 0x04 fun s w =>
    if kA w ≠ 0 then s.bscErr t c 0x01
    else if 64 ≤ kUIMM w then s.bscErr t c 0x05
    else s.whenReady t c [kD w] (s.bscSet t c (kD w) (BitVec.ofNat 64 (s.caGet t c (kUIMM w))) 1))
/-- STC. -/
def execStc (t : Fin 128) (c : Fin 64) (s : State) : Out :=
  .next (s.bscIssue t c 0x05 fun s w =>
    if kA w ≠ 0 then s.bscErr t c 0x01
    else if 64 ≤ kUIMM w || kUIMM w < 8 then s.bscErr t c 0x05
    else s.whenReady t c [kD w]
      ((s.put64 .BSC_DATA_LO .BSC_DATA_HI (56 * coreIdx t c + (kUIMM w - 8)) ((s.core t c).b (kD w)).toNat).bscRetire t c 1))
/-- BSC_SYS. -/
def execBscSys (t : Fin 128) (c : Fin 64) (s : State) : Out :=
  .next (s.bscIssue t c 0x06 fun s w =>
    if kA w ≠ 0 then s.bscErr t c 0x01
    else match kUIMM w with
      | 0 => s.whenReady t c [kD w] (s.bscSet t c (kD w) (BitVec.ofNat 64 (s.caGet t c 2)) 1)
      | 1 => s.whenReady t c [kD w] (s.bscSet t c (kD w) (BitVec.ofNat 64 (64 * t.val + c.val)) 1)
      | _ => s.bscErr t c 0x01)

/-- B(A) + IMM18 as an exact integer of the signed 64-bit sum. -/
def rowArg (k : Core) (w : Word) : Int := (k.b (kA w)).toInt + kIMM w
/-- ROPEN: opens a row of the core's bank in `bc` bc; a quiet bank group, or a copy of the row, makes it wait (R141, R146, R157). -/
def execRopen (t : Fin 128) (c : Fin 64) (bc : Nat) (s : State) : Out :=
  .next (s.bscIssue t c 0x08 fun s w =>
    let k := s.core t c
    let r := rowArg k w
    s.whenReady t c [kA w] (
      if k.row.isSome then s.bscErr t c 0x04
      else if r < 0 ∨ 16383 < r then s.bscErr t c 0x05
      else if !s.mayAct t (layerOf c) || s.gate.rows.contains (2 ^ 14 * (64 * t.val + c.val) + r.toNat) then s.coreWaits t c
      else ((s.actNow t c).setCore t c { k with row := some r.toNat }).bscRetire t c bc))
/-- RCLOSE. -/
def execRclose (t : Fin 128) (c : Fin 64) (bc : Nat) (s : State) : Out :=
  .next (s.bscIssue t c 0x09 fun s _ =>
    let k := s.core t c
    if k.row.isNone then s.bscErr t c 0x04 else (s.setCore t c { k with row := none }).bscRetire t c bc)

/-- The DA of word `w` of row `r` of core (t, c) (R145). -/
def coreDa (t c r w : Nat) : Nat :=
  2 ^ 32 * t + 2 ^ 18 * r + 2 ^ 14 * (w / 32) + 2 ^ 10 * (c / 4) + 2 ^ 8 * (c % 4) + (w % 32) * 8
/-- A row-buffer instruction: the row, the word, its DA and place. -/
def State.rowAccess (s : State) (t c : Nat) (w : Word) (k : Nat → Nat → State) : State :=
  let x := s.core t c
  let a := rowArg x w
  s.whenReady t c [kA w, kD w] (
    match x.row with
    | none => s.bscErr t c 0x04
    | some r =>
      if a < 0 ∨ 511 < a then s.bscErr t c 0x05
      else let da := coreDa t c r a.toNat
        k da (s.atomPlace da + da % 256))
/-- RLD: both checks, correction counted and, in SERVICE mode, written back; an uncorrectable word ends the launch (R132, R165, R166). -/
def execRld (t : Fin 128) (c : Fin 64) (ondie : BitVec 16) (s : State) : Out :=
  .next (s.bscIssue t c 0x0A fun s w => s.rowAccess t c w fun da pl =>
    let q := s.wordLook pl
    if q.2 = .bad then (s.recordUe t da 5).bscErr t c 0x06
    else
      let fixed := q.2.fixed || decide (ondie.toNat ≠ 0) || bitOf (SMap.get s.soft (pl / 256) 0) (pl % 256 / 16)
      let s1 := if fixed then s.countCorrection t (offRowKey (da % 2 ^ 32)) else s
      let s2 := if fixed && s.service t then s1.putWord pl q.1 else s1
      s2.bscSet t c (kD w) (BitVec.ofNat 64 (leNat q.1)) 2)
/-- RST: the whole word with the check bits of R133 (R164). -/
def execRst (t : Fin 128) (c : Fin 64) (s : State) : Out :=
  .next (s.bscIssue t c 0x0B fun s w => s.rowAccess t c w fun _ pl =>
    (s.putWord pl (leBytes 8 ((s.core t c).b (kD w)).toNat)).bscRetire t c 2)

/-- The checks of EXP and IMP (R147, R167). -/
def State.exchange (s : State) (t c : Nat) (w : Word) (k : Nat → State) : State :=
  let a := ((s.core t c).b (kA w)).toNat
  if kB w ≠ 0 || kFN w ≠ 0 then s.bscErr t c 0x01
  else s.whenReady t c [kA w, kD w] (
    if 65536 ≤ a then s.bscErr t c 0x05
    else if !(s.eng t).spmOn then s.bscErr t c 0x09
    else if !s.exOwned t then (s.spmViol t).bscErr t c 0x07
    else k a)
/-- EXP: posted into the 8-deep queue; a full queue makes it wait. -/
def execExp (t : Fin 128) (c : Fin 64) (s : State) : Out :=
  .next (s.bscIssue t c 0x10 fun s w => s.exchange t c w fun a =>
    let k := s.core t c
    if 8 ≤ k.expq.length then s.coreWaits t c else (s.setCore t c { k with expq := k.expq ++ [(a, k.b (kD w), false)] }).bscRetire t c 1)
/-- IMP: the read is under way and its register pending. -/
def execImp (t : Fin 128) (c : Fin 64) (s : State) : Out :=
  .next (s.bscIssue t c 0x11 fun s w => s.exchange t c w fun a =>
    let k := s.core t c
    (s.setCore t c { k with pendImp := k.pendImp ++ [(kD w, a, k.pc)] }).bscRetire t c 1)
/-- BSC_EXP_WRITE: the oldest queued EXP, or the done word behind the EXPs of its launch, is written through port B, or dropped where port A
writes the same word; a done word that finds the engine without power is lost (R109, R147, R154, R168). -/
def execBscExpWrite (t : Fin 128) (c : Fin 64) (portA : Bool) (s : State) : Out :=
  .next (let k := s.core t c
    match k.expq with
    | [] => s
    | (w, v, isDone) :: rest =>
      if s.exWiping t then s
      else
        let s1 := s.setCore t c { k with expq := rest }
        let off := s.exOff t w
        if !(s.eng t).spmOn then (if isDone then s1.event F.BSC_STAT_DONE_LOST t else s1)
        else if portA then
          let s2 := s1.spmDrop t 4 off
          if isDone then s2 else s2.fadd F.BSC_XCOLL_XCOLL (coreIdx t c) 1
        else s1.spmPut t off (leBytes 8 v.toNat))
/-- BSC_IMP_DATA: the word returns into its pending register, after every earlier EXP to it; an uncorrectable word ends the
launch (R147, R167). -/
def execBscImpData (t : Fin 128) (c : Fin 64) (reg : Fin 16) (s : State) : Out :=
  .next (let k := s.core t c
    match k.pendImp.find? (·.1 == reg.val) with
    | none => s
    | some x =>
      if k.expq.any (·.1 == x.2.1) || s.exWiping t then s
      else
        let r := s.spmRead t (s.exOff t x.2.1) 8
        let k1 := { k with pendImp := k.pendImp.erase x }
        match r.2 with
        | none => (r.1.setCore t c k1).endLaunch t c 0x08 0 x.2.2
        | some bs => r.1.setCore t c { k1 with breg := SMap.put k1.breg reg (BitVec.ofNat 64 (leNat bs)) })
/-- YLD: pauses the core when requests for the bank wait (R159). -/
def execYld (t : Fin 128) (c : Fin 64) (s : State) : Out :=
  .next (s.bscIssue t c 0x18 fun s w =>
    if bits w.toNat 25 0 ≠ 0 then s.bscErr t c 0x01
    else
      let s1 := s.bscRetire t c 1
      if s.gate.held.any (fun x => x.bank == 64 * t.val + c.val) then s1.notice t c .lease else s1)
/-- BSC_HALT: the launch ends with exit code B(A)[15:0] (R155). -/
def execBscHalt (t : Fin 128) (c : Fin 64) (bc : Nat) (s : State) : Out :=
  .next (s.bscIssue t c 0x1F fun s w =>
    s.whenReady t c [kA w] ((s.bscRetire t c bc).endLaunch t c 0 (((s.core t c).b (kA w)).toNat % 65536) 0))

/-! ### Pauses and limits (R159 to R163, R167) -/

/-- The causes of `BSC_PAUSE`. -/
def pauseOf : Fin 3 → PauseWhy
  | 0 => .refresh
  | 1 => .lease
  | 2 => .copy
/-- BSC_PAUSE: the core stops at its boundary for every notice it has, and its row is closed. Outside scheduled-slot mode the refresh is
issued; a lease pause serves the requests held now (R159, R160, R161, log entry 81). -/
def execBscPause (t : Fin 128) (c : Fin 64) (why : Fin 3) (s : State) : Out :=
  .next (let k := s.core t c
    let i := coreIdx t c
    let key := 64 * t.val + c.val
    if s.cstate t c ≠ csRUN || !k.pause.contains (pauseOf why) then s
    else
      let slot := s.flag F.MESH_CFG_SLOT_EN t
      let s0 := s.coreRan t c 0
      let s1 := (s0.setCore t c { s0.core t c with since := s.clk.mc, pause := k.pause.filter (fun w => slot && w == .refresh) }).setCState t c csPAUSE
      let s2 := if k.pause.contains .refresh then s1.fadd F.BSC_PAUSES_REF_REF i 1 else s1
      let s3 := if k.pause.contains .refresh && !slot then s2.refNow t c else s2
      if k.pause.contains .lease then
        let s4 := s3.fadd F.BSC_PAUSES_LEASE_LEASE i 1
        { s4 with gate := { s4.gate with serve := s4.gate.serve ++ (s4.gate.held.filter (·.bank == key)).map (fun w => (key, w.who)) } }
      else s3)
/-- BSC_RESUME: the refreshes have been issued, tRFCpb has passed since the last, the requests that the pause serves and the copies are
complete, and activate spacing is met; an open row is reopened (R155, R157, R159, R162). -/
def execBscResume (t : Fin 128) (c : Fin 64) (s : State) : Out :=
  .next (let k := s.core t c
    let p := s.stop t
    let busy := k.pause.contains .refresh || s.gate.serve.any (fun x => x.1 == 64 * t.val + c.val) || s.bankCopied t c
      || s.gate.reqs.any (fun r => r.da / 2 ^ 32 == t.val && offBank64 (r.da % 2 ^ 32) == c.val)
      || (SMap.find p.lastRef c).any (fun m => decide (s.clk.mc < m + 90))
    if s.cstate t c ≠ csPAUSE || busy then s
    else if !p.actFree (layerOf c) s.clk.mc || (k.row.isSome && !s.mayAct t (layerOf c)) then s.strictWait t c
    else
      let s1 := (s.endStall t c).quietNow t c
      let s2 := if k.row.isSome then s1.actNow t c else s1
      let p2 := s2.stop t
      ((s2.setStop t { p2 with rowOf := SMap.del p2.rowOf c }).setCore t c { s2.core t c with pause := [], since := s.clk.mc, waited := false }).setCState
        t c csRUN)
/-- BSC_LEASE_LIMIT: a held request has waited LEASE_MAX mc for the lent bank (R159). -/
def execBscLeaseLimit (t : Fin 128) (c : Fin 64) (s : State) : Out :=
  .next (if s.bankLent t c && s.gate.held.any (fun w => w.bank == 64 * t.val + c.val && decide (w.since + s.fget F.BSC_CFG_LEASE_MAX t ≤ s.clk.mc)) then
      s.notice t c .lease else s)
/-- BSC_RUN_LIMIT (R167). -/
def execBscRunLimit (t : Fin 128) (c : Fin 64) (s : State) : Out :=
  .next (if s.cstate t c = csRUN && decide (2 ^ s.fget F.BSC_CFG_RUN_LIM t ≤ s.cyclesNow t c) then
      s.bscErr t c 0x0A else s)

end Sys2Proof.Machine
end

