-- ==== Sys2Proof/Machine/Energy.lean ====
section
/-! DEFINITION. Energy metering and receipts (R314 to R336). -/

namespace Sys2Proof.Machine

/-- METER_FAIL: meter `id` fails until module reset; its tower controller raises ENR_METER (R316). -/
def execMeterFail (id : Fin 142) (s : State) : Out :=
  .next (if s.meterBad id then s
    else
      let w := if id.val < 128 then towerOf id else if id.val < 132 then id.val - 128 else if id.val < 140 then (id.val - 132) / 2 else 0
      (({ s with enr := { s.enr with failed := s.enr.failed ++ [id.val] } } : State).event F.ENR_STAT_METER 0).raise 0x25 w 0 0)
/-- PERIOD_END: a period boundary of device time has passed (R321). New meter coefficients take effect at a boundary (R415). -/
def execPeriodEnd (m : Meters) (s : State) : Out :=
  .next (s.settle (.periodEnd m) fun s => let p := 1000 * s.fget F.ENR_CFG_PERIOD_US 0
    if s.clk.ns / p = s.enr.pStart / p then s
    else if s.flag F.ENR_CTL_RUN 0 then (s.periodEnd m).calTook 0
    else ({ s with kv := { s.kv with closed := [] }
                   enr := { s.enr with use := s.enr.use.filter (·.stop_.isNone), pStart := s.clk.ns } } : State).calTook 0)
/-- LEDGER_FLUSH: RFLUSH_MS after the last one, non-zero entries leave the ledger, the one used least recently first (R320). -/
def execLedgerFlush (s : State) : Out :=
  .next (s.settle (.ledgerFlush) fun s => if s.flag F.ENR_CTL_RUN 0 && decide (s.enr.flushed + max 1 (s.fget F.ENR_CFG_RFLUSH_MS 0) * 1000000 ≤ s.clk.ns) then
      let s1 : State := { s with enr := { s.enr with flushed := s.clk.ns } }
      s1.enr.ledger.reverse.foldl (fun a x => a.ledgerOut x) s1
    else s)
/-- RECEIPT_TAKE (R326, R329). -/
def execReceiptTake (s : State) : Out := .next (s.settle (.receiptTake) fun s => if s.flag F.ENR_CTL_RUN 0 then s.receiptTake else s)
/-- RECEIPT_WAIT_EXPIRY: WAIT_US after the end of its period a SEQ_CLOSE without a leaf position completes PENDING (R329). -/
def execReceiptWaitExpiry (qp idx : Nat) (s : State) : Out :=
  .next (((s.enr.wait.find? (fun w => w.qp == qp && w.didx == idx && !w.posted)).map s.closeLate).getD s)
/-- BATCH_CLOSE: BATCH_MS after the previous close, or at the 65,536th leaf; not an empty batch (R326). -/
def execBatchClose (s : State) : Out :=
  .next (s.settle (.batchClose) fun s => if s.flag F.ENR_CTL_RUN 0 && s.enr.count ≠ 0 && (s.enr.count == 65536
      || decide (s.enr.opened + 1000000 * s.fget F.ENR_CFG_BATCH_MS 0 ≤ s.clk.ns)) then s.batchClose
    else s)
/-- BATCH_SIGN: a batch signed is the last signed one; fetches that waited for it complete (R327, R330, R331). -/
def execBatchSign (b : Nat) (s : State) : Out := .next (s.settle (.batchSign b) fun s => s.batchSign b)
/-- RECONCILE: a second of device time has ended and the reconcile queue has a place (R333, R334). -/
def execReconcile (s : State) : Out :=
  .next (let now := s.clk.ns / 1000000000
    if s.flag F.ENR_CTL_RUN 0 && s.enr.secStart / 1000000000 ≠ now && decide (s.enr.recQ.length < 64) then s.reconcile (1000000000 * now)
    else s)
/-- The tables of metering as ranges. -/
def State.enrTables (s : State) : List (Nat × Nat) :=
  let r (a n : Nat) : Nat × Nat := (a, a + n)
  [r (s.accDa 0) (2 ^ 26), r (s.kvBase .ENR_QUEUE_LO .ENR_QUEUE_HI 27) (2 ^ 27), r s.storeDa (128 * 2 ^ s.ringLog + 4096 * 4096)]
/-- The check of R336. The base fields hold no bit that would misalign a table. -/
def State.enrConfigOk (s : State) : Bool :=
  let t := s.enrTables
  t.all (fun x => decide (x.2 ≤ 2 ^ 39) && s.kvTables.all (fun y => !rangesMeet x y)) && noOverlap t
    && !(s.flag F.ENR_RCTX_EN 0 && s.fget F.ENR_RCTX_CTX 0 == 0)
/-- ENR_RUN: a write of `ENR_CTL.RUN` (R336). -/
def execEnrRun (v : Bool) (s : State) : Out :=
  .next (if !v then s.fput F.ENR_CTL_RUN 0 0
    else if s.flag F.ENR_CTL_RUN 0 then s
    else if !s.enrConfigOk then s.event F.ENR_STAT_CFG_ERR 0
    else
      let now := s.clk.ns
      ({ s with enr := { s.enr with use := s.enr.use.filter (·.stop_.isNone), pStart := now, secStart := now, flushed := now
                                    opened := if s.enr.count = 0 then now else s.enr.opened } } : State).fput F.ENR_CTL_RUN 0 1)
/-- ENR_RELEASE: a write of `ENR_REL_LO` releases every closed batch up to REL and its leaves (R332). -/
def execEnrRelease (lo : Word) (s : State) : Out :=
  .next (s.settle (.enrRelease lo) fun s => let s1 := s.rput .ENR_REL_LO 0 lo
    let rel := lo.toNat + 2 ^ 32 * s1.fget F.ENR_REL_HI_REL 0
    ({ s1 with enr := { s1.enr with batches := s1.enr.batches.drop (fun b => decide (b ≤ rel))
                                    toSign := s1.enr.toSign.filter (fun b => decide (rel < b)) } } : State).fetchAll)
/-- RECEIPT_FETCH (R255, R330). -/
def execReceiptFetch (qp idx : Nat) (s : State) : Out :=
  .next (s.settle (.receiptFetch qp idx) fun s => if (s.descr qp idx).any (fun d => d.type == 0x40 && s.mayStart qp d && s.linkUp && !s.hostOpen) then s.ideWait
    else s.withDescr qp idx [0x40] (fun s d =>
    match s.headVerdict qp d (bodyZero d [(16, 20)]) false with
    | some e => s.complete qp d e []
    | none =>
      if d.u 32 4 < 4080 then s.complete qp d stBUF_SMALL (leBytes 4 4080)
      else ({ s with enr := { s.enr with fetches := s.enr.fetches ++ [(qp, idx)] } } : State).fetchTry qp d))

end Sys2Proof.Machine
end

