-- ==== Sys2Proof/Machine/FltOps.lean ====
section
/-! DEFINITION. The fault controller: reactions, traps, nesting, recovery, the release of the log (R390 to R397, R404). -/

namespace Sys2Proof.Machine

/-! ### Traps (R394) -/

def State.trapBusy (s : State) : Bool := s.flag F.FLT_TQ_VALID 0
def State.trapShow (s : State) : State := s.fput F.FLT_TQ_QLEN 0 s.flt.trapQ.length
/-- Deliver the next trap when none is being handled; during a hand-over traps wait (R412). -/
def State.trapNext (s : State) : State :=
  if s.trapBusy || s.fw.heldTraps then s
  else match s.flt.trapQ with
    | [] => s
    | k :: rest => ((({ s with flt := { s.flt with trapQ := rest, trapAt := s.clk.ns } } : State).fput F.FLT_TQ_SRC 0 k).fput F.FLT_TQ_VALID 0 1).trapShow
/-- A trap action finds no place. -/
def State.trapFull (s : State) : Bool := (s.trapBusy || s.fw.heldTraps) && decide (16 ≤ s.flt.trapQ.length)
/-- Queue a source for the service core. -/
def State.trapPut (s : State) (k : Nat) : State :=
  if s.trapFull then (s.fadd F.FLT_LOST_LOST 0 1).event F.FLT_STAT_TRAPQ_FULL 0
  else ({ s with flt := { s.flt with trapQ := s.flt.trapQ ++ [k] } } : State).trapShow.trapNext
/-- The current trap ends. -/
def State.trapEnd (s : State) : State :=
  if s.trapBusy then ((s.fput F.FLT_TQ_VALID 0 0).fput F.FLT_TQ_SRC 0 0).trapNext else s

/-! ### Taking a raise (R391 to R397) -/

/-- Reset scope and target of a source (R388, R393). -/
def blockScope (src : Nat) : Option (Nat × Nat) :=
  let ty := src / 512
  let i := src % 512
  if ty = 1 ∨ ty = 2 ∨ ty = 3 then some (rsTILE, i)
  else if ty = 0x15 then some (rsTOWER, i / 32)
  else if ty = 0x30 ∨ ty = 0x31 then some (rsPATH, i / 2)
  else none
/-- The source's unit lies in the scope of a running partial reset. -/
def State.inRunning (s : State) (src : Nat) : Bool :=
  let ty := src / 512
  let i := src % 512
  s.phase != phIDLE && (if ty < 0x10 then s.rstTiles.contains i
    else if ty < 0x20 then s.rstScope == rsTOWER && towerOf i == s.rstTarget
    else if 0x30 ≤ ty && ty < 0x40 then s.rstScope == rsPATH && i / 2 == s.rstTarget
    else false)
/-- The raise is nested (R397). -/
def State.nested (s : State) (r : Raise) : Bool :=
  let ty := r.src / 512
  ty != 0x4F && (ty == 0x50 || (s.rst.src.isSome && s.inRunning r.src) || (r.svc && s.trapBusy && (ty == 0x02 || ty == 0x4E)))
/-- DETAIL of a RAISE record. -/
def Raise.detail (r : Raise) : List Byte := leBytes 4 r.loc ++ leBytes 8 r.arg ++ zeros 2 ++ leBytes 2 r.code
/-- The actions of R392 for a source that enters fault state. -/
def State.react (s : State) (r : Raise) : State :=
  let ty := r.src / 512
  let int := s.flag F.FLT_RXN_INT ty
  let trap := s.flag F.FLT_RXN_TRAP ty
  let block := s.flag F.FLT_RXN_BLOCK_RESET ty && (blockScope r.src).isSome
  let chip := s.flag F.FLT_RXN_CHIP_RESET ty
  let pin := s.flag F.FLT_RXN_PIN ty
  let lost := trap && s.trapFull
  let rxn := b2n int + 2 * b2n trap + 4 * b2n block + 8 * b2n chip + 16 * b2n pin + 32 * b2n lost
  let s1 := s.logWrite ⟨s.clk.ns, 1, rxn, r.src, r.detail⟩ chip
  let froze := !s.flag F.EDY_STATE_FROZEN 0 && s1.flag F.EDY_STATE_FROZEN 0
  let x := s1.src r.src
  let s2 := (s1.setSrc r.src { x with fault := true, occ := min 65535 r.merged, pin := pin, brIdle := false, last := s1.clk.ns }).errRefresh
  let s3 := if int then (s2.event F.FLT_STAT_RAISED 0).msi 0 (s2.fget F.FLT_CFG_VEC 0) else s2
  let s4 := if trap then s3.trapPut r.src else s3
  let s5 := match if block then blockScope r.src else none with
    | some (sc, tg) => s4.rstRequest sc tg true (some r.src)
    | none => s4
  if chip then s5.modWant froze else s5
/-- The fault controller takes a raise. -/
def State.takeRaise (s : State) (r : Raise) : State :=
  let s0 := s.sentryExit
  if s0.nested r then
    ((s0.fadd F.FLT_LOST_LOST 0 1).event F.FLT_STAT_LOST 0).logWrite ⟨s0.clk.ns, 3, 0, r.src, r.detail⟩ false
  else
    let x := s0.src r.src
    if !x.fault then s0.react r
    else
      let s1 := s0.setSrc r.src { x with occ := min 65535 (x.occ + r.merged), last := s0.clk.ns }
      if s1.flag F.FLT_RXN_ESC (r.src / 512) && x.brIdle then
        (s1.event F.FLT_STAT_ESCALATED 0).modWantRec (fun s => s.logEvent 4 [])
      else s1

/-- The condition that a source stands for holds (R389). -/
def State.condHolds (s : State) (src : Nat) : Bool :=
  s.flt.conds.contains src || (src / 512 == 0x30 && decide (src % 512 < 8) && s.portState (src % 512) == fpFENCED)

/-! ### The log's release (R404) -/

/-- A release with a key: done, or refused for a wrong key or a log that is not frozen. -/
def State.logRelease (s : State) (key : Nat) : State :=
  if s.flag F.EDY_STATE_FROZEN 0 && key % 65536 = s.fget F.EDY_FREEZE_INDEX 0 % 65536 then
    let idx := s.fget F.EDY_FREEZE_INDEX 0
    let n := s.fget F.EDY_MISSED_MISSED 0
    let s1 : State := { s with edy := { s.edy with protLo := 0, protHi := 0 }, flt := { s.flt with hold := false } }
    let s2 := ((s1.fput F.EDY_STATE_FROZEN 0 0).fput F.EDY_MISSED_MISSED 0 0).errRefresh
    s2.logWrite ⟨s2.clk.ns, 8, 0, 0, leBytes 4 idx ++ leBytes 2 n⟩ false
  else s.event F.EDY_STAT_REL_BAD 0

end Sys2Proof.Machine
end

