-- ==== Sys2Proof/Machine/Faults.lean ====
section
/-! DEFINITION. Fault collection, traps, the Eddy log's release and the sideband port (R389 to R405). -/

namespace Sys2Proof.Machine

/-- A raise arrives: after those of earlier mesh cycles, and by ascending SRC among those of its own (R390). -/
def arriveAt (l : List Raise) (r : Raise) : List Raise :=
  l.filter (fun x => x.sent != r.sent || decide (x.src ≤ r.src)) ++ [r] ++ l.filter (fun x => x.sent == r.sent && decide (r.src < x.src))
/-- RAISE_SEND: the collector of unit `u` (0–127 stops, 128–131 tower controllers, 132–135 base dies) sends its first raise, at most one
every 4 mc; the waiting raise of lowest SRC takes the place (R390). -/
def execRaiseSend (u : Fin 136) (s : State) : Out :=
  .next (match SMap.get s.flt.coll u [] with
    | [] => s
    | r :: rest =>
      let wait := SMap.get s.flt.unitWait u []
      let low := wait.foldl (fun m x => min m x.src) 65536
      let enter := wait.filter (·.src = low)
      if (SMap.find s.flt.sentAt u).any (fun m => decide (s.clk.mc < m + 4)) then s
      else { s with flt := { s.flt with
        coll := SMap.put s.flt.coll u (rest ++ enter), unitWait := SMap.put s.flt.unitWait u (wait.filter (·.src ≠ low))
        arrive := arriveAt s.flt.arrive { r with sent := s.clk.mc }, sentAt := SMap.put s.flt.sentAt u s.clk.mc } })
/-- FAULT_RAISE: the fault controller takes the next raise. -/
def execFaultRaise (s : State) : Out :=
  .next (match s.flt.arrive with
    | [] => s
    | r :: rest => ({ s with flt := { s.flt with arrive := rest } } : State).takeRaise r)
/-- CONDITION_RERAISE: 10 ms later the condition still holds (R389). -/
def execConditionReraise (src : Nat) (s : State) : Out :=
  .next (if s.condHolds src && decide (SMap.get s.flt.condAt src 0 + 10 ^ 7 ≤ s.clk.ns) then s.raise (src / 512) (src % 512) 0 0 else s)
/-- QUIET_EXPIRY: QUIET × 10 ms without a raise that was acted on (R396). -/
def execQuietExpiry (src : Nat) (s : State) : Out :=
  .next (let x := s.src src
    if !x.fault || s.condHolds src || decide (s.clk.ns < x.last + 10 ^ 7 * max 1 (s.fget F.FLT_RXN_QUIET (src / 512))) then s
    else
      let y : Src := { x with fault := false, recov := min 65535 (x.recov + 1) }
      ((s.setSrc src y).errRefresh).logWrite ⟨s.clk.ns, 2, 0, src, zeros 12 ++ leBytes 2 y.occ ++ leBytes 2 y.recov⟩ false)

/-- TRAP_ACK: a write of 1 to `FLT_TACK.ACK`; a host's is ignored. -/
def execTrapAck (src : By) (s : State) : Out := .next (if src.isHost then s else s.trapEnd)
/-- TRAP_TIMEOUT: TRAP_TMO ms without an end of the trap. -/
def execTrapTimeout (s : State) : Out := 
  .next (if s.trapBusy && decide (s.flt.trapAt + 10 ^ 6 * max 1 (s.fget F.FLT_CFG_TRAP_TMO 0) ≤ s.clk.ns) then (s.raise 0x4F 0 0 0).trapEnd else s)
/-- PIN_CLR: a write of 1 to `FLT_CTL.PIN_CLR` clears the latch; while a cause holds and PIN_LATCH is 1 it is set again (R395). -/
def execPinClr (s : State) : Out := .next ({ s with flt := { s.flt with latch := false } } : State).errRefresh
/-- EDY_RELEASE: a write of `EDY_CTL` with RELEASE = 1 and its KEY. -/
def execEdyRelease (key : BitVec 16) (s : State) : Out := .next (s.logRelease key.toNat)

/-! ### The sideband port (R405); the forms of its responses are the model's (log entry 36) -/

/-- A sideband command is answered from the retained domain while it has power. -/
def State.sideband (s : State) (busy : Bool) (k : State → State) : State :=
  if !s.brd.input then s
  else if busy && s.flt.clearing then { s with outs := { s.outs with sideband := leBytes 1 4 } }
  else k s.sentryExit
def State.respond (s : State) (b : List Byte) : State := { s with outs := { s.outs with sideband := b } }
/-- LOG_INFO. -/
def execLogInfo (s : State) : Out :=
  .next (s.sideband true fun s => s.respond (leBytes 1 0 ++ ([.EDY_HEAD, .EDY_FREEZE, .EDY_STATE, .EDY_MISSED, .FLT_LOST] : List Reg).flatMap
    (fun r => leBytes 4 (s.rget r 0).toNat)))
/-- A record as the port returns it; a slot with an uncorrectable word reads KIND = 0xFF (R398). -/
def State.logRecord (s : State) (i : Nat) : State × List Byte :=
  let b := padTo 32 (SMap.get s.edy.recs (i % 4096) [])
  if s.edy.bad.contains (i % 4096) then (s.event F.EDY_STAT_UE 0, b.take 12 ++ [0xFF] ++ b.drop 13) else (s, b)
/-- LOG_READ: `count` records from INDEX `index`. -/
def execLogRead (index : Word) (count : Byte) (s : State) : Out :=
  .next (s.sideband true fun s =>
    let head := s.fget F.EDY_HEAD_INDEX 0
    let n := count.toNat
    let i := index.toNat
    if n = 0 || 8 < n || head < i + n || i < head - 4096 then s.respond (leBytes 1 1)
    else
      let r := (List.range n).foldl (fun (a : State × List Byte) j => let q := a.1.logRecord (i + j)
        (q.1, a.2 ++ q.2)) (s, [])
      r.1.respond (leBytes 1 0 ++ r.2))
/-- LOG_RELEASE. -/
def execLogRelease (key : BitVec 16) (s : State) : Out :=
  .next (s.sideband true fun s =>
    let st := if !s.flag F.EDY_STATE_FROZEN 0 then 3 else if key.toNat = s.fget F.EDY_FREEZE_INDEX 0 % 65536 then 0 else 2
    (s.logRelease key.toNat).respond (leBytes 1 st))
/-- FAULT_READ. -/
def execFaultRead (src : BitVec 16) (s : State) : Out :=
  .next (s.sideband true fun s =>
    if !srcTypes.contains (src.toNat / 512) then s.respond (leBytes 1 1)
    else
      let x := s.src src.toNat
      s.respond (leBytes 1 0 ++ leBytes 1 (b2n x.fault) ++ leBytes 2 x.occ ++ leBytes 2 x.recov))
/-- CAP_SET: held in the retained domain; `PWR_SBCAP` takes it from stage 3 on (R286, R405). -/
def execCapSet (w : BitVec 16) (s : State) : Out :=
  .next (s.sideband false fun s =>
    let v := min 1200 (max 300 w.toNat)
    let s1 : State := { s with brd := { s.brd with sbCap := v } }
    let s2 := if s1.brd.on && decide (4 ≤ s1.stage) then (s1.fput F.PWR_SBCAP_SB_CAP 0 v).capShow else s1
    s2.respond (leBytes 1 0 ++ leBytes 2 v))

end Sys2Proof.Machine
end

