-- ==== Sys2Proof/Machine/Fences.lean ====
section
/-! DEFINITION. FENCE of each scope (R254). -/

namespace Sys2Proof.Machine

def Descr.scope (d : Descr) : Nat := d.u 16 1
/-- The verdict on a FENCE. -/
def State.fenceVerdict (s : State) (q : Nat) (d : Descr) : Option Nat :=
  match s.headVerdict q d (bodyZero d [(16, 2), (24, 20)]) false with
  | some e => some e
  | none =>
    if 2 < d.scope || (d.scope == 2 && (decide (1 < d.u 17 1) || d.u 24 8 % 8 != 0)) then some stBAD_DESC
    else if d.scope = 2 && d.u 17 1 = 0 then s.daVerdict ((s.qpFunc q).getD 0) (d.u 24 8) 8
    else none
/-- Start a FENCE of one scope, or look again at one that has started; a reserved SCOPE is refused by whichever row starts it. -/
def State.withFence (s : State) (q idx scope : Nat) (start again : State → Descr → State) : State :=
  match s.descr q idx with
  | none => s
  | some d =>
    if d.type ≠ 0x30 then s.withDescr q idx [] (fun s _ => s)
    else if d.started then (if d.scope = scope then again s d else s)
    else if !s.mayStart q d || (d.scope != scope && decide (d.scope ≤ 2)) then s
    else
      let d1 : Descr := { d with started := true, since := s.clk.ns }
      let s1 := s.markStarted q d
      match s.fenceVerdict q d with
      | some e => s1.complete q d1 e []
      | none => start s1 d1

/-- Every earlier descriptor of the queue pair has completed. -/
def State.queueFence (q : Nat) (s : State) (d : Descr) : State :=
  if ((s.qp q).live.takeWhile (·.idx ≠ d.idx)).isEmpty then s.complete q d stOK [] else s
/-- FENCE_QUEUE. -/
def execFenceQueue (qp idx : Nat) (s : State) : Out :=
  .next (s.withFence qp idx 0 (State.queueFence qp) (State.queueFence qp))

/-- The descriptors that a FUNCTION fence awaits: those fetched from the function's queue pairs, without itself and those that it
holds back. -/
def State.fenceAwaits (s : State) (q : Nat) (d : Descr) : List (Nat × Nat) :=
  (s.qpKeys.filter (fun p => s.qpFunc p == s.qpFunc q)).flatMap (fun p =>
    let r := (s.qp p).ring
    ((if p = q then r.takeWhile (·.idx ≠ d.idx) else r).map (fun e => (p, e.idx))))
/-- The awaited descriptors have completed. -/
def State.functionFence (q : Nat) (s : State) (d : Descr) : State :=
  let l := d.await.filter (fun w => (s.descr w.1 w.2).isSome)
  if l = [] then s.complete q d stOK [] else s.setDescr q { d with await := l }
/-- FENCE_FUNCTION. -/
def execFenceFunction (qp idx : Nat) (s : State) : Out :=
  .next (s.withFence qp idx 1 (fun s d => State.functionFence qp s { d with await := s.fenceAwaits qp d }) (State.functionFence qp))

/-- FENCE_VALUE: the word is watched from now. -/
def execFenceValue (qp idx : Nat) (s : State) : Out := .next (s.withFence qp idx 2 (fun s _ => s) (fun s _ => s))
/-- The watched word has been read. -/
def State.fenceRead (s : State) (q : Nat) (d : Descr) (v : Nat) : State :=
  if d.u 32 8 ≤ v then s.complete q d stOK (leBytes 8 v) else s.setDescr q { d with last := v, prog := 0 }
/-- FENCE_VALUE_POLL: the 1 µs read; one of host memory waits for its data. -/
def execFenceValuePoll (qp idx : Nat) (s : State) : Out :=
  .next (s.settle (.fenceValuePoll qp idx) fun s => match s.descr qp idx with
    | none => s
    | some d =>
      if d.type ≠ 0x30 || !d.started || d.scope ≠ 2 then s
      else if d.u 17 1 = 1 then
        if !s.hostOpen then s.ideWait else if s.mayRead then s.setDescr qp { d with prog := 1 } else s
      else
        let r := s.daRead (d.u 24 8) 8 3
        match r.2.2 with
        | some _ => r.1.complete qp d stDRAM_UE (leBytes 8 d.last)
        | none => r.1.fenceRead qp d (leNat r.2.1))
/-- The host read of a watched word returns or fails (R258). -/
def State.fenceReturn (s : State) (qp idx : Nat) (ok : Bool) (data : List Byte) : State :=
  match s.descr qp idx with
  | none => s
  | some d =>
    if d.type ≠ 0x30 || !d.started || d.scope ≠ 2 || d.prog ≠ 1 then s
    else if !ok then (s.event F.CMD_STAT_HOST_ERR ((s.qpFunc qp).getD 0)).complete qp d stHOST_ACCESS (leBytes 8 d.last)
    else s.fenceRead qp d (leAt data 0 8)
/-- FENCE_VALUE_TIMEOUT: TMO µs have passed. -/
def execFenceValueTimeout (qp idx : Nat) (s : State) : Out :=
  .next (match s.descr qp idx with
    | none => s
    | some d =>
      if d.type ≠ 0x30 || !d.started || d.scope ≠ 2 || d.u 40 4 = 0 || s.clk.ns < d.since + 1000 * d.u 40 4 then s
      else s.complete qp d stFENCE_TMO (leBytes 8 d.last))

end Sys2Proof.Machine
end

