-- ==== Sys2Proof/Machine/Firmware.lean ====
section
/-! DEFINITION. Firmware in service: FW_STAGE, hand-over, microcode and the broadcast (R409 to R415, R417 to R421). -/

namespace Sys2Proof.Machine

/-! ### FW_STAGE (R253, R410, R411) -/

def Descr.op (d : Descr) : Nat := d.u 16 1
def Descr.chunk (d : Descr) : Nat := d.u 20 4
def Descr.clen (d : Descr) : Nat := d.u 24 4
def Descr.igen (d : Descr) : Nat := d.u 28 4
/-- Start a FW_STAGE of one OP; a reserved OP is refused by whichever row starts it. While an activation runs the staged image stays
as it is, and the command waits (log entry 28). -/
def State.withStage (s : State) (q idx op : Nat) (k : State → Descr → State) : State :=
  match s.descr q idx with
  | none => s
  | some d =>
    if d.type ≠ 0x42 then s.withDescr q idx [] (fun s _ => s)
    else if !s.mayStart q d || (d.op != op && decide (d.op ≤ 2)) then s
    else
      let d1 : Descr := { d with started := true, since := s.clk.ns }
      match s.headVerdict q d (bodyZero d [(16, 1), (20, 52)]) false with
      | some e => (s.markStarted q d).complete q d1 e d.noResult
      | none =>
        if 2 < d.op then (s.markStarted q d).complete q d1 stBAD_DESC d.noResult
        else if s.fwState = fwACTIVATING then s
        else k s d1
/-- FW_STAGE_CHUNK: refused by the rules of generations, or read from host memory. -/
def execFwStageChunk (qp idx : Nat) (s : State) : Out :=
  .next (s.withStage qp idx 0 (fun s d =>
    if s.chunkRefused d.chunk d.clen d.igen then (s.markStarted qp d).complete qp d stFW_STATE d.noResult
    else if !s.hostOpen then s.ideWait
    else if !s.mayRead then s
    else (s.markStarted qp d).setDescr qp { d with prog := 1 }))
/-- The chunk's data has come, or its read has failed (R258). -/
def State.stageReturn (s : State) (qp idx : Nat) (ok : Bool) (data : List Byte) : State :=
  match s.descr qp idx with
  | none => s
  | some d =>
    if d.type ≠ 0x42 || !d.started || d.prog ≠ 1 || s.fwState = fwACTIVATING then s
    else if !ok then (s.event F.CMD_STAT_HOST_ERR ((s.qpFunc qp).getD 0)).complete qp d stHOST_ACCESS d.noResult
    else if data.length ≠ d.clen then s
    else if s.chunkRefused d.chunk d.clen d.igen then s.complete qp d stFW_STATE d.noResult
    else if sha data ≠ (d.bytes.drop 40).take 32 then s.complete qp d stFW_HASH d.noResult
    else
      let s1 := s.chunkCame.fwStore d.chunk d.igen data none (if s.flag F.FWS_CFG_BCAST_EN 0 then some s.self else none) false
      ((s1.fwForward d.chunk data).complete qp d stOK d.noResult).fwTryMark
/-- FW_STAGE_ACTIVATE: the image staged from a broadcast activates only with its mark (R420). -/
def execFwStageActivate (qp idx : Nat) (s : State) : Out :=
  .next (s.settle (.fwStageActivate qp idx) fun s => s.withStage qp idx 1 (fun s d =>
    let s1 := s.markStarted qp d
    let bcast := s.flag F.FWS_STATE_BCAST 0
    if s.fwState ≠ fwCOMPLETE || s.fwIgen ≠ d.igen || (bcast && s.fw.mark != some s.fwIgen) then s1.complete qp d stFW_STATE d.noResult
    else
      let r := s1.fwActivate (some (qp, d.idx)) bcast
      if r.2 then r.1 else r.1.complete qp d stFW_HASH d.noResult))
/-- FW_STAGE_ABORT: the staged image is discarded. -/
def execFwStageAbort (qp idx : Nat) (s : State) : Out :=
  .next (s.withStage qp idx 2 (fun s d => ((s.markStarted qp d).fwDiscard).complete qp d stOK d.noResult))

/-! ### Hand-over and microcode (R412 to R414) -/

/-- SERVICE_HANDOVER_READY: the new firmware reports ready; held traps go on. -/
def execServiceHandoverReady (s : State) : Out :=
  .next (if s.fw.handover then (({ s with fw := { s.fw with handover := false, heldTraps := false } } : State).trapNext).fwDone else s)
/-- HANDOVER_READY_TIMEOUT: 20 ms after step 4; SVC_WDT is raised. -/
def execHandoverReadyTimeout (s : State) : Out :=
  .next (if s.fw.handover && decide (s.fw.startAt + 20000000 ≤ s.clk.ns) then s.raise 0x4F 0 0 0 else s)
/-- MICROCODE_ENGINE_LOAD: a withdrawn engine that holds no dispatch takes the set; a failed check fences it. -/
def execMicrocodeEngineLoad (t : Fin 128) (ok : Bool) (s : State) : Out :=
  .next (let e := s.eng t
    if s.fwState ≠ fwACTIVATING || !s.fw.withdrawn.contains t.val then s
    else if s.disabled t then s.ucodeNext
    else if e.disp.isSome || s.fget F.FWS_STATE_KIND 0 ≠ 1 then s
    else if !ok then (s.fenceNow t).ucodeNext
    else
      let s1 : State := { s with fw := { s.fw with ucode := SMap.put s.fw.ucode t s.fwIgen } }
      let s2 := s1.fadd F.FWS_UPROG_DONE 0 1
      (if s2.ucodeMixed then s2.event F.FWS_STAT_MIXED 0 else s2).ucodeNext)

/-! ### The broadcast (R417 to R420) -/

/-- The kind of an FW message. -/
def isFw (k : Nat) : Nat → Nat → Bool := fun op a => op == opFW && a / 2 ^ 62 == k
/-- FW_CHUNK: stored when its data matches its hash and R410's rules take it, and forwarded; an empty answer moves the request on. -/
def execFwChunk (peer msn : Nat) (s : State) : Out :=
  .next (s.settle (.fwChunk peer msn) fun s => if s.fwState = fwACTIVATING && (s.peer peer).rx.any (fun m => m.msn == msn && isFw 0 m.op m.arg0) then s
    else s.withRx peer msn (isFw 0) (fun s m =>
      let n := m.arg0 % 2 ^ 32
      let igen := m.arg1 % 2 ^ 32
      let h := m.data.take 64
      let d := m.data.drop 64
      if !s.flag F.FWS_CFG_BCAST_EN 0 then s
      else if leAt h 40 4 = 0 then
        (match SMap.find s.fw.asked n with
         | some k => if igen = s.fwIgen && s.fwOrder[k % s.fwOrder.length]? = some peer then s.fwAskFrom n (k + 1) else s
         | none => s)
      else if d.length ≠ leAt h 40 4 || sha d ≠ h.take 32 then (s.chunkCame.fadd F.FWS_CNT_BAD 0 1).event F.FWS_STAT_BAD_CHUNK 0
      else if s.chunkRefused n d.length igen then s
      else
        let fixed := igen == s.fwIgen && (SMap.find s.fw.asked n).isSome
        let s1 := s.chunkCame.fwStore n igen d (some (leAt h 32 4)) (some (leAt h 44 2)) true
        let s2 : State := { s1 with fw := { s1.fw with asked := SMap.del s1.fw.asked n, sent := (peer, n) :: s1.fw.sent } }
        let s3 := if s2.fw.have_.contains 0 then s2 else s2.fput F.FWS_STATE_KIND 0 (leAt h 36 1)
        let s4 := if fixed then (s3.fadd F.FWS_CNT_REPAIRED 0 1).event F.FWS_STAT_REPAIR 0 else s3
        (s4.fwForward n d).fwTryMark))
/-- FW_REQ: answered with the chunk, or with an empty chunk; a request for the mark is answered when that image has been
activated. -/
def execFwReq (peer msn : Nat) (s : State) : Out :=
  .next (s.settle (.fwReq peer msn) fun s => s.withRx peer msn (isFw 1) (fun s m =>
    let n := m.arg0 % 2 ^ 32
    let igen := m.arg1 % 2 ^ 32
    if !s.flag F.FWS_CFG_BCAST_EN 0 then s
    else if n = 2 ^ 31 + Config.markReq.toNat then
      if s.fget F.FWS_RUN_IGEN 0 = igen && s.fwState ≠ fwACTIVATING then s.sendMark peer else s
    else if igen = s.fwIgen && s.fw.have_.contains n then
      let r := s.fabRead (s.chunkDa n) (if n = 0 then 4096 else min 65536 (s.stagedLen - 65536 * (n - 1)))
      r.1.sendChunk peer n (if r.2.2.isNone then r.2.1 else [])
    else s.sendChunk peer n []))
/-- FW_ACTIVATION_MARK: a mark that is newer than the running generation is held, and lets its image activate. -/
def execFwActivationMark (peer msn : Nat) (s : State) : Out :=
  .next (s.settle (.fwActivationMark peer msn) fun s => s.withRx peer msn (isFw 2) (fun s m =>
    let igen := m.arg1 % 2 ^ 32
    if !s.flag F.FWS_CFG_BCAST_EN 0 || !newerGen igen (s.fget F.FWS_RUN_IGEN 0) then s
    else ({ s with fw := { s.fw with mark := some igen } } : State).fwTryMark))
/-- FW_REPAIR_GAP: no chunk for GAP_MS; missing chunks are requested in ascending number, at most 8 at a time (R419). -/
def execFwRepairGap (s : State) : Out :=
  .next (let top := match s.fw.nchunk with
      | some c => min c 1025
      | none => s.fw.have_.foldl max 0
    let o := s.fwOrder
    let busy := (s.fw.asked.filter (fun e => decide (e.2 < 2 * o.length))).length
    let miss := (List.range top).filter (fun n => !s.fw.have_.contains n && (SMap.find s.fw.asked n).isNone)
    if !s.flag F.FWS_CFG_BCAST_EN 0 || s.fwState ≠ fwSTAGING || decide (s.clk.ns < s.fw.chunkAt + s.gapNs) then s
    else (miss.take (8 - busy)).foldl (fun a n => a.fwAskFrom n 0) s)
/-- FW_MARK_REQUEST: every GAP_MS a module with a complete image and an unreachable parent asks for the mark (R420). -/
def execFwMarkRequest (s : State) : Out :=
  .next (match s.fwParent with
    | none => s
    | some p =>
      let v := s.peerState p
      if !s.flag F.FWS_CFG_BCAST_EN 0 || s.fwState ≠ fwCOMPLETE || v.2 ≠ psUNREACH || decide (s.clk.ns < s.fw.markAt + s.gapNs) then s
      else match s.fwOrder.find? (fun i => (s.peerState i).2 = psVALID) with
        | none => s
        | some i => ({ s with fw := { s.fw with markAt := s.clk.ns } } : State).post i opFW false 0 (2 ^ 62 + 2 ^ 31 + Config.markReq.toNat) s.fwIgen 0 [] false
            .plain)

end Sys2Proof.Machine
end

