-- ==== Sys2Proof/Machine/Lockstep.lean ====
section
/-! DEFINITION. Lock-step of two modules: numbering, digests, summaries, comparison, divergences (R366 to R371). -/

namespace Sys2Proof.Machine

/-! ### Digests (R367) -/

/-- The regions of R367 by index: base DA, LEN, STRIDE. -/
def State.lckRegions (s : State) : List (Nat × Nat × Nat) :=
  (List.range 16).map (fun n =>
    (s.fget F.LCK_RGN_BASE_LO_BASE n + 2 ^ 32 * s.fget F.LCK_RGN_BASE_HI_BASE n, s.fget F.LCK_RGN_LEN_LEN n, s.fget F.LCK_RGN_STRIDE_STRIDE n))
/-- One part as it is hashed: zeros, and UE, when a word of it is uncorrectable. The spec gives a part beyond the module's memory no
contents: free bytes (log entry 16). -/
def State.lckPart (s : State) (da n : Nat) : State × List Byte × Bool :=
  if daOk da n then
    let r := s.fabRead da n
    (r.1, if r.2.2.isSome then zeros n else r.2.1, r.2.2.isSome)
  else
    let f := s.free (8 * n)
    (f.2, leBytes n f.1, false)
/-- Several parts in order, joined. -/
def State.lckParts (s : State) (l : List (Nat × Nat)) : State × List Byte × Bool :=
  l.foldl (fun a p => let r := a.1.lckPart p.1 p.2
    (r.1, a.2.1 ++ r.2.1, a.2.2 || r.2.2)) (s, [], false)
/-- Base of the digest list. -/
def State.lckList (s : State) : Nat := s.kvBase .LCK_LIST_LO .LCK_LIST_HI 20
/-- The tile whose TGET took tasklet `k` of dispatch `key`, latest first. -/
def State.lckTook (s : State) (key k : Nat) : Nat :=
  ((s.lck.took.reverse.find? (fun e => e.1 == key && e.2.1 == k)).map (·.2.2)).getD 0
/-- The entry of tasklet `k`, written to the list. -/
def State.lckEntry (s : State) (key k : Nat) : State × List Byte :=
  let parts := (s.lckRegions.filter (fun r => decide (r.2.1 ≠ 0 ∧ r.2.2 ≠ 0))).map (fun r => (r.1 + k * r.2.2, r.2.1))
  let r := s.lckParts parts
  let e := sha (leBytes 4 k ++ r.2.1) ++ leBytes 1 (s.lckTook key k) ++ leBytes 1 (b2n r.2.2) ++ zeros 6
  let da := s.lckList + 40 * k
  (if daOk da 40 then (r.1.daWrite da e).1 else r.1, e)
/-- The digest of a dispatch. -/
def State.lckDigest (s : State) (key : Nat) (m : Summ) : State × Summ :=
  let t := (List.range m.ntask).foldl (fun a k => let r := a.1.lckEntry key k
    (r.1, a.2 ++ [r.2])) (s, [])
  let w := t.1.lckParts ((s.lckRegions.filter (fun r => decide (r.2.1 ≠ 0 ∧ r.2.2 = 0))).map (fun r => (r.1, r.2.1)))
  let ue := w.2.2 || t.2.any (fun e => decide (leAt e 33 1 % 2 = 1))
  (w.1, { m with digest := sha (t.2.flatMap (fun e => e.take 32) ++ w.2.1), entries := t.2, ue := ue })

/-! ### Summaries (R369) -/

def Summ.bytes (m : Summ) : List Byte :=
  padTo 32 m.digest ++ leBytes 1 m.mode ++ leBytes 1 (b2n m.marked + 2 * b2n m.ue) ++ zeros 2 ++ leBytes 4 m.ntask ++ leBytes 8 m.cycles ++ zeros 16
/-- Cut a byte list into entries. -/
def cut40 : Nat → List Byte → List (List Byte)
  | 0, _ => []
  | n + 1, b => b.take 40 :: cut40 n (b.drop 40)
/-- A summary, with the entries that follow it, read from a message. -/
def summOf (num : Nat) (b : List Byte) : Summ :=
  { num := num, mode := leAt b 32 1, marked := bitOf (leAt b 33 1) 0, ntask := leAt b 36 4, cycles := leAt b 40 8
    ue := bitOf (leAt b 33 1) 1, digest := b.take 32, entries := cut40 ((b.length - 64) / 40) (b.drop 64) }
def State.lckPeer (s : State) : Nat := s.fget F.LCK_CFG_PEER 0
/-- Send LSTEP_DIGEST. -/
def State.lckSend (s : State) (num : Nat) (b : List Byte) : State := s.post s.lckPeer opLSTEP false 0 num 0 b.length b false .plain
/-- The number is settled: its summaries are dropped. -/
def State.lckDrop (s : State) (num : Nat) : State :=
  { s with lck := { s.lck with own := s.lck.own.filter (·.num ≠ num), peer := s.lck.peer.filter (·.num ≠ num) } }
/-- The partner's list has come: the first entries whose D_k differ name the tasklet. -/
def State.lckLocate (s : State) (a b : Summ) : State :=
  let cause := if a.ue || b.ue then dvUE else dvDIGEST
  let s1 := s.lckDrop a.num
  match ((a.entries.zip b.entries).zipIdx).find? (fun p => p.1.1.take 32 != p.1.2.take 32) with
  | none => s1.diverge a.num cause 0xFFFFFF 0 0
  | some p => s1.diverge a.num cause p.2 (leAt p.1.1 32 1 % 128) (leAt p.1.2 32 1 % 128)
/-- Compare the two summaries of a number. Two that differ send the list; a difference of the digests waits for the partner's. -/
def State.lckCompare (s : State) (a b : Summ) : State :=
  if a.mode = 0 ∧ b.mode = 0 then s.lckDrop a.num
  else if a.mode = b.mode ∧ a.ntask = b.ntask ∧ a.digest = b.digest then s.lckDrop a.num
  else
    let s1 := s.lckSend a.num (a.bytes ++ (a.entries.take 419428).flatten)
    if a.mode ≠ b.mode then (s1.lckDrop a.num).diverge a.num dvMODE 0xFFFFFF 0 0
    else if a.ntask ≠ b.ntask then (s1.lckDrop a.num).diverge a.num dvNTASK 0xFFFFFF 0 0
    else if b.entries ≠ [] then s1.lckLocate a b
    else { s1 with lck := { s1.lck with peer := s1.lck.peer.filter (·.num ≠ b.num) ++ [b] } }
/-- The partner's firmware measurement differs from the module's. -/
def State.lckFw (s : State) : State :=
  match s.lck.peerFw with
  | none => s
  | some h => if h = padTo 32 s.sec.fwMeas then s else s.diverge (s.fget F.LCK_NUM_NUM 0) dvFW 0xFFFFFF 0 0
/-- A number that the module has not settled. -/
def State.lckOpen (s : State) (num : Nat) : Bool :=
  decide (dist32 num (s.fget F.LCK_NUM_NUM 0) < 2 ^ 31) || s.disps.any (fun d => d.2.num == some num) || s.lck.due.any (fun d => d.2.num == num)

/-- LSTEP_DIGEST from the partner: its firmware measurement, a summary, or a summary with entries. The measurement is kept when the
module is not running lock-step yet. -/
def execLstepDigest (peer msn : Nat) (s : State) : Out :=
  .next (s.settle (.lstepDigest peer msn) fun s => s.withRx peer msn (isOp opLSTEP) fun s m =>
    let b := m.data
    if peer ≠ s.lckPeer then s
    else if m.arg0 = 2 ^ 64 - 1 then
      let s1 : State := { s with lck := { s.lck with peerFw := some (padTo 32 b) } }
      if s1.lck.live then s1.lckFw else s1
    else if !s.lck.live || b.length < 64 then s
    else
      let n := m.arg0 % 2 ^ 32
      let x := summOf n b
      match s.lck.own.find? (·.num == n) with
      | none => if s.lckOpen n && !s.lck.peer.any (·.num == n) then { s with lck := { s.lck with peer := s.lck.peer ++ [x] } } else s
      | some a => if s.lck.peer.any (·.num == n) then (if x.entries = [] then s else s.lckLocate a x) else s.lckCompare a x)

/-- LOCKSTEP_ENABLE: a write of `LCK_CTL.EN`; a 1 restarts numbering and sends the firmware measurement (R366). -/
def execLockstepEnable (v : Bool) (s : State) : Out :=
  .next (
    let s1 := s.fput F.LCK_CTL_EN 0 (b2n v)
    let s2 : State := { s1 with lck := { s1.lck with live := v, own := [], peer := [] } }
    if !v then s2
    else ((s2.fput F.LCK_NUM_NUM 0 0).lckSend (2 ^ 64 - 1) (padTo 32 s2.sec.fwMeas)).lckFw)

/-- DIGEST_DONE: the digest of the dispatch numbered `num` is formed, the dispatch completes, its summary is sent and compared with
one that came early (R367, R368, R369). A free dispatch has completed already; its summary follows here with digest 0. -/
def execDigestDone (num : Nat) (s : State) : Out :=
  .next (s.settle (.digestDone num) fun s => match s.lck.due.find? (fun d => d.2.num == num) with
    | none => s
    | some d =>
      let s1 : State := { s with lck := { s.lck with due := s.lck.due.filter (· ≠ d) } }
      let r : State × Summ := match d.1 with
        | none => (s1, { d.2 with digest := zeros 32 })
        | some k =>
          let g := s1.lckDigest k d.2
          (({ g.1 with lck := { g.1.lck with took := g.1.lck.took.filter (·.1 ≠ k) } } : State).dispFinish k, g.2)
      let s2 := r.1
      let m := r.2
      if !s2.lck.live then s2
      else
        let s3 := (({ s2 with lck := { s2.lck with own := s2.lck.own ++ [m] } } : State).lckSend num m.bytes)
        match s3.lck.peer.find? (·.num == num) with
        | none => s3
        | some b => ({ s3 with lck := { s3.lck with peer := s3.lck.peer.filter (·.num ≠ num) } } : State).lckCompare m b)

/-- LOCKSTEP_TIMEOUT: `LCK_TMO.MS` ms without the partner's summary (R369). -/
def execLockstepTimeout (num : Nat) (s : State) : Out :=
  .next (if s.lck.live && s.lck.own.any (·.num == num) && !s.lck.peer.any (·.num == num) then
      (s.lckDrop num).diverge num dvTIMEOUT 0xFFFFFF 0 0
    else s)

/-- DIV_CLEAR: a write of 1 to `LCK_DIV_PT.CLR` clears the record (R370). -/
def execDivClear (s : State) : Out :=
  .next (((s.rput .LCK_DIV_NUM 0 0).rput .LCK_DIV_LOC 0 0).rput .LCK_DIV_PT 0 0)

end Sys2Proof.Machine
end

