-- ==== Sys2Proof/Machine/Security.lean ====
section
/-! DEFINITION. The security block and the mailboxes: lifecycle, quotes, programs, sessions, SPDM, tamper (R337 to R357, R440, R441). -/

namespace Sys2Proof.Machine

/-- WIPE_COMPLETE: a wipe of a bank ends; the banks of an unpowered engine end theirs when it wakes. A lifecycle change waits for the
last one (R113, R114, R341). -/
def execWipeComplete (t : Fin 128) (bank : Fin 16) (s : State) : Out :=
  .next (let e := s.eng t
    if e.wiping.contains bank.val && (e.power == .on || e.power == .lull1) then ((s.wipeEnd t bank).ingressDrain t []).lcTry else s)

/-! ### Mailbox commands (R440, R441) -/

/-- LC_CHANGE. -/
def execLcChange (s : State) : Out := .next (s.mbxGo 1 0x01)
/-- SVN_COMMIT: the fused SVN rises to the running image's. -/
def execSvnCommit (s : State) : Out := .next (s.mbxGo 1 0x02)
/-- CONF_SET. -/
def execConfSet (s : State) : Out := .next (s.mbxGo 1 0x03)
/-- PROG_LOAD. -/
def execProgLoad (s : State) : Out := .next (s.settle (.progLoad) fun s => s.mbxGo 1 0x04)
/-- SESSION_OPEN. -/
def execSessionOpen (s : State) : Out := .next (s.mbxGo 1 0x05)
/-- SESSION_CLOSE. -/
def execSessionClose (s : State) : Out := .next (s.mbxGo 1 0x06)
/-- QUOTE. -/
def execMbxQuote (s : State) : Out := .next (s.mbxGo 1 0x07)
/-- INFO. -/
def execMbxInfo (s : State) : Out := .next (s.mbxGo 0 0x01)
/-- MANIFEST. -/
def execMbxManifest (s : State) : Out := .next (s.mbxGo 0 0x02)
/-- CAL_READ. -/
def execCalRead (s : State) : Out := .next (s.mbxGo 0 0x03)

/-! ### ATTEST (R253, R255, R345) -/

def Descr.attKind (d : Descr) : Nat := d.u 60 1
/-- An ATTEST of one KIND; a reserved KIND is refused by whichever row starts it. It waits while host memory is closed. -/
def State.withAttest (s : State) (q idx kind : Nat) (out : State → Descr → Option (List Byte)) : State :=
  match s.descr q idx with
  | none => s
  | some d =>
    if d.type ≠ 0x41 then s.withDescr q idx [] (fun s _ => s)
    else if !s.mayStart q d || (d.attKind != kind && decide (d.attKind ≤ 2)) then s
    else
      let d1 : Descr := { d with started := true, since := s.clk.ns }
      match s.headVerdict q d (bodyZero d [(16, 45)]) false with
      | some e => (s.markStarted q d).complete q d1 e []
      | none =>
        if 2 < d.attKind then (s.markStarted q d).complete q d1 stBAD_DESC []
        else if !s.hostOpen then s.ideWait
        else
          let s1 := s.markStarted q d
          match if s.lcState = lcRETURNED || s.sec.zeroed then none else out s d with
          | none => s1.complete q d1 stSTATE []
          | some b =>
            if d.u 56 4 < b.length then s1.complete q d1 stBUF_SMALL (leBytes 4 b.length)
            else (s1.descrWrite q d.idx (d.u 48 8) b).complete q d1 stOK (leBytes 4 b.length)
/-- ATTEST_QUOTE. -/
def execAttestQuote (qp idx : Nat) (s : State) : Out :=
  .next (s.withAttest qp idx 0 (fun s d => s.quote ((d.bytes.drop 16).take 32)))
/-- ATTEST_LOG. -/
def execAttestLog (qp idx : Nat) (s : State) : Out := .next (s.withAttest qp idx 1 (fun s _ => some s.sec.log.flatten))
/-- ATTEST_MANIFEST. -/
def execAttestManifest (qp idx : Nat) (s : State) : Out := .next (s.withAttest qp idx 2 (fun s _ => some s.manifest))

/-! ### SPDM and IDE keys (R272, R346) -/

def State.setIde (s : State) (l : List Nat) : State :=
  ({ s with pcie := { s.pcie with ide := l } } : State).fput F.PCI_LINK_IDE_SECURE 0 (b2n (!l.isEmpty))
/-- SPDM_MESSAGE: what a DOE exchange does; the bytes that answer it. IDE_KM is accepted only inside a secured session. -/
def execSpdmMessage (msg : Spdm) (s : State) : Out :=
  .next (if !s.linkUp || !s.pcie.ready then s
    else
      let say (s : State) (b : List Byte) : State := { s with outs := { s.outs with rbytes := b } }
      match msg with
      | .negotiate offered => say { s with sec := { s.sec with algOk := offered } } [if offered then 1 else 0]
      | .certificate => say s s.certChain
      | .establish => if s.ikSeed.isSome && s.sec.algOk then say { s with sec := { s.sec with spdm := true } } [1] else say s [0]
      | .close => say { s with sec := { s.sec with spdm := false } } [1]
      | .measurement i => say s (if 254 ≤ i then [] else (s.sec.log[i]?).getD [])
      | .ideStart k => if s.sec.spdm then say ((s.setIde (if s.pcie.ide.contains k.val then s.pcie.ide else s.pcie.ide ++ [k.val])).hostOpened) [1] else say s [0]
      | .ideStop k => if s.sec.spdm then say (s.setIde (s.pcie.ide.filter (· ≠ k.val))) [1] else say s [0])

/-! ### Tamper (R357) -/

/-- TAMPER: 0 shield, 1 voltage, 2 clock, 3 temperature. -/
def execTamper (src : Fin 4) (s : State) : Out :=
  .next (
    let s1 : State := { s with sec := { s.sec with zeroed := true } }
    let s2 := ((s1.failSessions (fun _ => true)).closeSessions (fun _ => true)).wipeSecure
    let s3 := s2.fsat F.SEC_LC_TAMPERS 0 1
    ((s3.fput F.SEC_TAMPER_SRC 0 (setBit (s3.fget F.SEC_TAMPER_SRC 0) src)).event F.SEC_STAT_TAMPER 0).raise 0x4C 0 0 0)

end Sys2Proof.Machine
end

