-- ==== Sys2Proof/Machine/PciOps.lean ====
section
/-! DEFINITION. The PCIe port as its commands, register writes and the board share it (R263 to R273, R385). Where the spec names a capability
and its offset, the words inside it lie as the PCI Express specification lays them out (log entry 37). -/

namespace Sys2Proof.Machine

/-! ### Functions -/

/-- The configuration of the functions that satisfy `p` returns to its reset values. -/
def State.cfgReset (s : State) (p : Nat → Bool) : State :=
  let c := s.pcie
  { s with pcie := { c with d3 := c.d3.filter (fun f => !p f), msixEn := c.msixEn.filter (fun f => !p f), fmask := c.fmask.filter (fun f => !p f)
                            table := SMap.drop c.table (fun k => p (k / 4096)), pba := c.pba.filter (fun x => !p x.1)
                            cfg := SMap.drop c.cfg (fun k => p (k / 4096)) } }
/-- The queue pairs of the functions that satisfy `p` are disabled at once. -/
def State.killQps (s : State) (p : Nat → Bool) : State :=
  (s.qpKeys.filter (fun q => (s.qpFunc q).any p)).foldl (fun a q => a.qpKill q) s
/-- A Function Level Reset of the functions that satisfy `p` (R260, R270, R351). -/
def State.flr (s : State) (p : Nat → Bool) : State :=
  let own (x : Session) : Bool := p x.fn
  let s1 := ((s.killQps p).failSessions (fun sid => s.sec.sessions.any (fun x => x.sid == sid && own x))).closeSessions own
  s1.cfgReset p
/-- VF Enable = 0: every virtual function is reset. -/
def State.vfClear (s : State) : State :=
  if s.pcie.vfEnable then
    let s1 := s.flr (fun f => decide (f ≠ 0))
    { s1 with pcie := { s1.pcie with vfEnable := false } }
  else s
/-- A Function Level Reset of function `f`; that of the physical function clears VF Enable first. -/
def State.flrFunc (s : State) (f : Nat) : State :=
  if f = 0 then
    let s1 := s.vfClear.flr (· == 0)
    { s1 with pcie := { s1.pcie with numVFs := 0 } }
  else if s.funcLive f then s.flr (· == f) else s

/-! ### MSI-X (R269) -/

/-- Pending messages whose function and vector are no longer masked are sent. -/
def State.msixFlush (s : State) : State :=
  let go (x : Nat × Nat) : Bool := s.hostOpen && s.pcie.msixEn.contains x.1 && !s.pcie.fmask.contains x.1 && !s.vecMasked x.1 x.2
  { s with pcie := { s.pcie with pba := s.pcie.pba.filter (fun x => !go x) }, outs := { s.outs with msix := s.outs.msix ++ s.pcie.pba.filter go } }
/-- Set or clear a function in a list. -/
def listed (l : List Nat) (f : Nat) (on : Bool) : List Nat := if on then (if l.contains f then l else l ++ [f]) else l.filter (· ≠ f)
/-- MSI-X Enable and Function Mask. -/
def State.msixControl (s : State) (f : Nat) (en mask : Bool) : State :=
  ({ s with pcie := { s.pcie with msixEn := listed s.pcie.msixEn f en, fmask := listed s.pcie.fmask f mask } } : State).msixFlush
/-- A write of a word of a function's MSI-X table. -/
def State.msixWrite (s : State) (f word : Nat) (w : Word) : State :=
  if 4 * msixSize f ≤ word then s
  else
    let v := if word % 4 = 3 then w.toNat % 2 else if word % 4 = 0 then w.toNat - w.toNat % 4 else w.toNat
    ({ s with pcie := { s.pcie with table := SMap.put s.pcie.table (4096 * f + word) (BitVec.ofNat 32 v) } } : State).msixFlush

/-! ### Loss of the link (R271) -/

/-- What PCIe loses by any reset of the port: every function's configuration, IDE streams, the secured session, the link. -/
def State.portReset (s : State) : State :=
  let s1 := s.cfgReset (fun _ => true)
  ({ s1 with pcie := { s1.pcie with vfEnable := false, numVFs := 0, ide := [], outq := [] }, sec := { s1.sec with algOk := false, spdm := false } } : State).rput .PCI_LINK 0 0
/-- The waiting host read of a descriptor returns or fails; a FENCE or FW_STAGE that a base-die reset of W0 absorbs completes with
PATH_RESET (R385). -/
def State.descrReturn (s : State) (qp idx : Nat) (ok : Bool) (data : List Byte) (portA : List Nat) : State :=
  match s.descr qp idx with
  | none => s
  | some d =>
    if d.type = 2 then s.copyReturn qp idx ok data portA
    else if d.type ≠ 0x30 && d.type ≠ 0x42 then s
    else if s.hostAbsorbed && d.started && d.prog == 1 then
      (s.event F.RST_STAT_ABSORBED 0).complete qp d stPATH_RESET (if d.type = 0x30 then leBytes 8 d.last else [])
    else if d.type = 0x30 then s.fenceReturn qp idx ok data
    else s.stageReturn qp idx ok data
/-- The outstanding slot reads fail: a KV_SWAP_IN ends with HOST_ACCESS, and its transfer goes on once `KVM_SWAP` has been written again
(R271, log entry 84). -/
def State.slotsFail (s : State) : State :=
  s.kv.ins.foldl (fun a e => match e.2.desc with
    | some qi => (a.setIn e.1 (some { e.2 with desc := none })).kvComplete qi stHOST_ACCESS (leBytes 4 e.2.moved)
    | none => a) s
/-- Every outstanding host read fails. -/
def State.readsFail (s : State) : State :=
  let l := s.qpKeys.flatMap (fun q => (s.qp q).ring.map (fun d => (q, d.idx)))
  let s1 := l.foldl (fun a x => a.descrReturn x.1 x.2 false [] []) s
  let s2 := s1.bootReturn false []
  let s3 := (s2.mbxReturn 0 false []).mbxReturn 1 false []
  { s3.slotsFail with cmd := { s3.slotsFail.cmd with polls := [] } }
/-- The link is lost: counted and recorded; queue pairs are disabled, outstanding reads fail, swap transfers are held. -/
def State.linkLost (s : State) : State :=
  if !s.linkUp then s.portReset
  else
    let old := (s.rget .PCI_LINK 0).toNat
    let s1 := (s.killQps (fun _ => true)).portReset
    let s2 := ((s1.fadd F.PCI_CNT_DOWN 0 1).event F.PCI_STAT_DOWN 0).logWrite ⟨s.clk.ns, 6, 0, 0, leBytes 4 old ++ zeros 12⟩ false
    let s3 := s2.readsFail
    { s3 with kv := { s3.kv with held := true } }

/-! ### The debug window (R267) -/

/-- Host writes of `PCI_DBG` are ignored in confidential mode. -/
def State.dbgWrite (s : State) (w : Word) (host : Bool) : State :=
  if host && s.conf then s else s.fput F.PCI_DBG_WIN 0 (bits w.toNat 5 0)
def State.bar4Da (s : State) (off : Nat) : Nat := 2 ^ 33 * s.fget F.PCI_DBG_WIN 0 + off

/-! ### Configuration space (R262, R265, R266, R268) -/

/-- Size of a BAR of the physical function as its power of two, and whether it is prefetchable; none where it has size 0. -/
def State.barSize (s : State) (bar : Nat) : Option (Nat × Bool) :=
  match bar with
  | 0 => some (26, false)
  | 2 => some (12, false)
  | 4 => if s.conf then none else some (33, true)
  | _ => none
/-- A BAR word as it reads. -/
def State.barWord (s : State) (off : Nat) : Nat :=
  let n := (off - 0x10) / 4
  match s.barSize (n - n % 2) with
  | none => 0
  | some (lg, pre) =>
    let w := (SMap.get s.pcie.cfg off 0).toNat
    if n % 2 = 0 then (if lg < 32 then w - w % 2 ^ lg else 0) + 4 + 8 * b2n pre
    else if lg < 32 then w else w - w % 2 ^ (lg - 32)
/-- A BAR of the virtual functions as the SR-IOV capability shows it: 64-bit, not prefetchable, the VF BAR0 of 64 KiB and the VF BAR2 of
4 KiB (R266). -/
def State.vfBarWord (s : State) (off : Nat) : Nat :=
  let n := (off - 0x184) / 4
  let lg := if n < 2 then 16 else 12
  let w := (SMap.get s.pcie.cfg off 0).toNat
  if 4 ≤ n then 0 else if n % 2 = 0 then w - w % 2 ^ lg + 4 else w
/-- The header of an extended capability: its identifier and the offset of the next; its version is free. -/
def extHead (id next : Nat) : Nat × Nat := (id + 2 ^ 20 * next, 0xFFF0FFFF)
/-- The extended capabilities of the physical function, and those that a virtual function presents: offset, identifier, next (R265). -/
def extCaps (f : Nat) : List (Nat × Nat × Nat) :=
  if f = 0 then
    [(0x100, 0x01, 0x148), (0x148, 0x03, 0x158), (0x158, 0x0E, 0x160), (0x160, 0x10, 0x1A0), (0x1A0, 0x19, 0x1C0), (0x1C0, 0x25, 0x1D0),
     (0x1D0, 0x26, 0x200), (0x200, 0x2A, 0x230), (0x230, 0x31, 0x260), (0x260, 0x27, 0x280), (0x280, 0x2E, 0x2A0), (0x2A0, 0x30, 0x400),
     (0x400, 0x0B, 0)]
  else [(0x100, 0x01, 0x158), (0x158, 0x0E, 0x280), (0x280, 0x2E, 0)]
/-- The words of the configuration space that the spec gives, with a mask of the bits it gives; none where it does not say what the word
reads. -/
def State.cfgWord (s : State) (f off : Nat) : Option (Nat × Nat) :=
  let all (v : Nat) : Option (Nat × Nat) := some (v, 2 ^ 32 - 1)
  let put (dflt : Nat) : Nat := ((SMap.find s.pcie.cfg (4096 * f + off)).map (·.toNat)).getD dflt
  match (extCaps f).find? (fun c => c.1 == off) with
  | some c => some (extHead c.2.1 c.2.2)
  | none =>
  if off = 0x00 then all (0x6B47 + 2 ^ 16 * (if f = 0 then 0x4100 else 0x4101))
  else if off = 0x04 then some (2 ^ 20, 2 ^ 20)
  else if off = 0x08 then all (0xA1 + 0x120000 * 2 ^ 8)
  else if 0x10 ≤ off && off < 0x28 then all (if f = 0 then s.barWord off else 0)
  else if off = 0x34 then some (if f = 0 then 0x40 else 0x50, 0xFF)
  else if off = 0x3C then some (0, 0xFF00)
  else if off = 0x40 && f = 0 then some (0x5001, 0x0600FFFF)
  else if off = 0x44 && f = 0 then all (8 + (if s.pcie.d3.contains f then 3 else 0))
  else if off = 0x50 then some (0x9010, 0x00F0FFFF)
  else if off = 0x54 then some (2 ^ 28 + 0x22, 0x1000003F)
  else if off = 0x58 then some ((put 0x2000) &&& 0x70E0, 0xF0E0)
  else if off = 0x5C then some (6 + 16 * 16 + 2 ^ 10 * 2, 0xFFF)
  else if off = 0x60 then some (2 ^ 16 * s.fget F.PCI_LINK_SPEED 0 + 2 ^ 20 * s.fget F.PCI_LINK_WIDTH 0, 0x03FF0000)
  else if off = 0x74 then some (0x00030000, 0x002F0BC0)
  else if off = 0x7C then some (0x7E, 0xFE)
  else if off = 0x90 then
    all (0x11 + 2 ^ 16 * (msixSize f - 1) + 2 ^ 30 * b2n (s.pcie.fmask.contains f) + 2 ^ 31 * b2n (s.pcie.msixEn.contains f))
  else if off = 0x94 then all (if f = 0 then 0x03000000 else 0x8000)
  else if off = 0x98 then all (if f = 0 then 0x03004000 else 0x8040)
  else if f ≠ 0 then none
  else if off = 0x14C then all (s.rget .GLB_SERIAL_LO 0).toNat
  else if off = 0x150 then all (s.rget .GLB_SERIAL_HI 0).toNat
  else if off = 0x168 then some (b2n s.pcie.vfEnable, 1)
  else if off = 0x16C then all (256 + 256 * 2 ^ 16)
  else if off = 0x170 then some (s.pcie.numVFs, 0xFFFF)
  else if off = 0x174 then all (1 + 2 ^ 16)
  else if off = 0x178 then some (0x4101 * 2 ^ 16, 0xFFFF0000)
  else if 0x184 ≤ off && off < 0x19C then all (s.vfBarWord off)
  else if off = 0x2A4 then some (0x43 + 2 ^ 16 * 3, 0x01FFE043)
  else if off = 0x408 then all (regOffset .GLB_IDENT 0)
  else none
/-- A word of the configuration space is read; bits that the spec does not give read as free values. -/
def State.cfgRead (s : State) (f off : Nat) : State :=
  match s.cfgWord f off with
  | some (v, m) =>
    if m = 2 ^ 32 - 1 then s.answer v
    else let r := s.free 32
      r.2.answer (v ||| (r.1 &&& (2 ^ 32 - 1 - m)))
  | none => let r := s.free 32
    r.2.answer r.1
/-- A function enters D3hot or returns to D0 (R273). -/
def State.dState (s : State) (f : Nat) (d3 : Bool) : State := { s with pcie := { s.pcie with d3 := listed s.pcie.d3 f d3 } }
/-- A word of the configuration space is written. -/
def State.cfgWrite (s : State) (f off : Nat) (w : Word) : State :=
  let v := w.toNat
  let s1 : State := { s with pcie := { s.pcie with cfg := SMap.put s.pcie.cfg (4096 * f + off) w } }
  if off = 0x44 && f = 0 then (if v % 4 = 3 then s.dState f true else if v % 4 = 0 then s.dState f false else s)
  else if off = 0x58 then (if bitOf v 15 then s1.flrFunc f else s1)
  else if off = 0x90 then s.msixControl f (bitOf v 31) (bitOf v 30)
  else if f = 0 && off = 0x168 then (if bitOf v 0 then { s1 with pcie := { s1.pcie with vfEnable := true } } else s1.vfClear)
  else if f = 0 && off = 0x170 then
    (if s.pcie.vfEnable || decide (256 < v % 65536) then s else { s with pcie := { s.pcie with numVFs := v % 65536 } })
  else s1

end Sys2Proof.Machine
end

