-- ==== Sys2Proof/Machine/Pcie.lean ====
section
/-! DEFINITION. PCIe: resets, the link, functions, configuration requests, the debug window, IDE (R263 to R273, R448), and the
completion of the module's host reads (R258). -/

namespace Sys2Proof.Machine

/-- PERST_ASSERT: the port is reset, and with PERST_KEEP = 0 the module, after a coolant sequence that has begun (R270, R448). -/
def execPerstAssert (s : State) : Out :=
  .next (if !s.brd.pwrEn || s.pcie.perst then s
    else
      let s1 : State := { s with pcie := { s.pcie with perst := true } }
      if s.flag F.PCI_CFG_PERST_KEEP 0 then s1.linkLost
      else
        let s2 := s1.portReset
        if s2.coolState ≠ 0 && !s2.thm.off then { s2 with brd := { s2.brd with perstWaits := true } } else s2.modWant false)
/-- PERST_DEASSERT: training may begin. -/
def execPerstDeassert (s : State) : Out := .next { s with pcie := { s.pcie with perst := false } }
/-- LINK_DOWN: a hot reset, or DL_Down. -/
def execLinkDown (s : State) : Out := .next (if s.linkUp then s.linkLost else s)
/-- LINK_UP: the link comes up, at training or after a retrain; a rate below the expected one is recorded and raised (R264). At 64.0 GT/s it
runs in FLIT mode (R262). -/
def execLinkUp (speed width : Nat) (flit : Bool) (s : State) : Out :=
  .next (if s.pcie.perst || !s.brd.on || s.rst.modDue || s.stage < 1 || (speed = 6 && !flit) then s
    else
      let old := (s.rget .PCI_LINK 0).toNat
      let s1 := ((s.fput F.PCI_LINK_SPEED 0 speed).fput F.PCI_LINK_WIDTH 0 width).fput F.PCI_LINK_FLIT 0 (b2n flit)
      let new := (s1.rget .PCI_LINK 0).toNat
      let s2 := if s.linkUp && (s.fget F.PCI_LINK_SPEED 0 != speed || s.fget F.PCI_LINK_WIDTH 0 != width) then
          s1.fadd F.PCI_CNT_RETRAIN 0 1 else s1
      let low := decide (speed < s.fget F.PCI_CFG_EXP_SPEED 0 ∨ width < s.fget F.PCI_CFG_EXP_WIDTH 0)
      let s3 := if low then ((s2.event F.PCI_STAT_DEGRADED 0).raise 0x43 0 0 0).logWrite
          ⟨s.clk.ns, 6, 0, 0, leBytes 4 old ++ leBytes 4 new ++ zeros 8⟩ false else s2
      s3.hostOpened)
/-- FUNCTION_LEVEL_RESET. -/
def execFunctionLevelReset (f : Fin 257) (s : State) : Out := .next (s.flrFunc f)
/-- VF_ENABLE_CLEAR. -/
def execVfEnableClear (s : State) : Out := .next s.vfClear
/-- CONFIG_REQUEST: word `off` of function `f` is read, or written with `w`. -/
def execConfigRequest (f : Fin 257) (off : Nat) (w : Option Word) (s : State) : Out :=
  .next (if !s.linkUp || s.pcie.perst then s.unsupported
    else if !s.pcie.ready then { s with outs := { s.outs with busErr := false, retry := true } }
    else if !s.funcLive f then s.unsupported
    else match w with
      | none => s.served.cfgRead f off
      | some w => s.served.cfgWrite f off w)

/-- BAR4_READ: `n` bytes of the window; all ones when a word of them is uncorrectable.
The window has size 0 in confidential mode. -/
def execBar4Read (at_ : Bar4) (n : Nat) (s : State) : Out :=
  let off := at_.off
  .next (s.settle (.bar4Read at_ n) fun s => s.viaPort 0 (.host at_.stream) (if s.conf || 2 ^ 33 < off + n then s.unsupported
    else
      let give (s : State) (b : List Byte) : State := { s.served with outs := { s.served.outs with rbytes := b } }
      if s.stage < 6 then give s (zeros n)
      else if s.towerShut (s.bar4Da off) n then s.unsupported
      else
        let r := s.daRead (s.bar4Da off) n 3
        match r.2.2 with
        | some _ => give (r.1.event F.PCI_STAT_DBG_UE 0) (List.replicate n 0xFF)
        | none => give r.1 r.2.1))
/-- BAR4_WRITE. -/
def execBar4Write (at_ : Bar4) (data : List Byte) (s : State) : Out :=
  let off := at_.off
  .next (s.settle (.bar4Write at_ data) fun s => s.viaPort 0 (.host at_.stream) (if s.conf || 2 ^ 33 < off + data.length then s.unsupported
    else if s.stage < 6 then s.served
    else if s.towerShut (s.bar4Da off) data.length then s.unsupported
    else
      let r := s.daWrite (s.bar4Da off) data
      if r.2.isSome then r.1.served.event F.PCI_STAT_DBG_UE 0 else r.1.served))
/-- PCI_DBG_WRITE. -/
def execPciDbgWrite (w : Word) (src : By) (s : State) : Out := .next (s.viaPort 0 src (s.dbgWrite w src.isHost))
/-- IDE_STREAM_FAIL. -/
def execIdeStreamFail (k : Fin 5) (s : State) : Out :=
  .next (if !s.pcie.ide.contains k.val then s
    else (((s.setIde (s.pcie.ide.filter (· ≠ k.val))).event F.PCI_STAT_IDE_FAIL 0).raise 0x44 0 k 0).linkLost)
/-- D_STATE_CHANGE. -/
def execDStateChange (f : Fin 257) (d3 : Bool) (s : State) : Out := .next (if s.funcLive f then s.dState f d3 else s)

/-- HOST_READ_COMPLETION: a host read returns its data, or fails; `portA` as for COPY. -/
def execHostReadCompletion (r : HostRead) (ok : Bool) (data : List Byte) (portA : List Nat) (s : State) : Out :=
  .next (s.settle (.hostReadCompletion r ok data portA) fun s => match r with
    | .descr qp idx => s.descrReturn qp idx ok data portA
    | .boot => s.bootReturn ok data
    | .mbx m => s.mbxReturn m ok data)

end Sys2Proof.Machine
end

