-- ==== Sys2Proof/Machine/Power.lean ====
section
/-! DEFINITION. Power delivery: HINT, the governors, droop, the cap controller and the power-up sequencer (R274 to R294). -/

namespace Sys2Proof.Machine

/-! ### Reservations (R289 to R291) -/

/-- The current limit of a tile in 0.0625 A. -/
def State.limit16 (s : State) (t : Nat) : Nat := 4 * s.fget F.TPW_CFG_LIMIT t
/-- A phase ends: the profile learns from the largest current measured. The learned length is open (log entry 16). -/
def State.phaseEnd (s : State) (r : Resv) : State :=
  let s1 : State := { s with pwr := { s.pwr with resv := s.pwr.resv.filter (· ≠ r) } }
  if !s.flag F.PWR_CFG_LEARN_EN 0 then s1
  else
    let ipk := s.fget F.PWR_PROF_DATA_IPK r.prof
    let new := if s.flag F.PWR_PROF_DATA_VALID r.prof then ((ipk : Int) - ((ipk : Int) - r.peak) / 8).toNat else r.peak
    let f := s1.free 16
    ((f.2.fput F.PWR_PROF_DATA_IPK r.prof new).fput F.PWR_PROF_DATA_VALID r.prof 1).fput F.PWR_PROF_DATA_DUR r.prof f.1
/-- mW of input that a current at tile `t` costs. -/
def State.costOf (s : State) (t i : Nat) : Nat := SMap.get s.pwr.cost t 0 * i
/-- Tiles of running strict dispatches. -/
def State.strictTiles (s : State) : List Nat :=
  (List.range 128).filter (fun t => (s.tileDisp t).any (fun d => d.2.strict && d.2.running))
/-- The budget that strict fill levels and recorded reservations leave. -/
def State.budgetLeft (s : State) : Nat :=
  s.pwr.budget - (s.strictTiles.map (fun t => s.costOf t (s.fillLevel t))).sum
    - (s.pwr.resv.map (fun r => (r.grant.map (fun g => s.costOf g.1 g.2)).sum)).sum
/-- Water-filling of a slope: the share of each cap when `w` is divided equally, no share above its cap (R280). -/
def slopeShares : Nat → Rat → List (Nat × Rat) → SMap Rat
  | 0, _, _ => []
  | _ + 1, _, [] => []
  | n + 1, w, l =>
    let even := w / (l.length : Rat)
    let low := l.filter (fun x => decide (x.2 ≤ even))
    if low.isEmpty then l.map (fun x => (x.1, even))
    else low.map (fun x => (x.1, x.2)) ++ slopeShares n (w - (low.map (·.2)).sum) (l.filter (fun x => decide (even < x.2)))
/-- The time in µs at which the last of these engines has risen by its need, shares passing on as engines finish; engines that rise
for other reasons keep taking theirs. -/
def rampTime : Nat → Rat → List (Nat × Rat) → List (Nat × Rat × Rat) → Rat
  | 0, _, _, _ => 0
  | n + 1, w, others, l =>
    let l := l.filter (fun x => decide (0 < x.2.1))
    if l.isEmpty then 0
    else
      let sh := slopeShares (l.length + others.length + 1) w (l.map (fun x => (x.1, x.2.2)) ++ others)
      let rate (t : Nat) : Rat := ((sh.find? (fun x => x.1 == t)).map (·.2)).getD 1
      let times := l.map (fun x => x.2.1 / rate x.1)
      let dt := times.foldl min (times.headD 0)
      dt + rampTime n w others (l.map (fun x => (x.1, x.2.1 - dt * rate x.1, x.2.2)))
/-- The ramp time of the tiles of a tower to the currents granted, in µs. -/
def State.towerRamp (s : State) (w : Nat) (grant : SMap Nat) : Rat :=
  let cap (t : Nat) : Rat := ((4 * s.fget F.TPW_CFG_SLOPE t : Nat) : Rat)
  let mine := grant.filter (fun g => towerOf g.1 = w && decide (s.fget F.TPW_I_I_NOW g.1 < g.2))
  let others := s.pwr.rising.filter (fun t => towerOf t = w && !mine.any (fun g => g.1 == t))
  rampTime (mine.length + 1) ((16 * s.fget F.WPW_CFG_SLOPE w : Nat) : Rat) (others.map (fun t => (t, cap t)))
    (mine.map (fun g => (g.1, ((g.2 - s.fget F.TPW_I_I_NOW g.1 : Nat) : Rat), cap g.1)))
/-- HINT: recorded, and complete (R255, R290, R291). -/
def execHintCmd (qp idx : Nat) (s : State) : Out :=
  .next (s.withDescr qp idx [0x31] (fun s d =>
    match s.headVerdict qp d (bodyZero d [(16, 2), (20, 8), (32, 16)]) false with
    | some e => s.complete qp d e []
    | none =>
      let prof := d.u 16 1
      if 1 < d.u 17 1 then s.complete qp d stBAD_DESC []
      else if d.u 17 1 = 1 then ((s.pwr.resv.filter (fun r => r.prof == prof && r.begun)).foldl (fun a r => a.phaseEnd r) s).complete qp d stOK []
      else
        let s1 := s.fsat F.PWR_PROF_DATA_USES prof 1
        let valid := s1.flag F.PWR_PROF_DATA_VALID prof
        let want := (groupTiles (d.u 32 16)).map (fun t => (t, if valid then s1.fget F.PWR_PROF_DATA_IPK prof else s1.limit16 t))
        let cost := (want.map (fun g => s1.costOf g.1 g.2)).sum
        let left := s1.budgetLeft
        let short := decide (left < cost)
        let unit := (want.map (fun g => SMap.get s1.pwr.cost g.1 0)).sum
        let grant := if short then want.map (fun g => (g.1, min g.2 (left / max 1 unit))) else want
        let late := (List.range 4).any (fun w => decide (((d.u 20 4 : Nat) : Rat) < 1000 * s1.towerRamp w grant))
        let r : Resv := ⟨prof, d.ctx, d.u 32 16, s1.clk.ns + d.u 20 4, d.u 24 4, grant, false, 0⟩
        let s2 : State := { s1 with pwr := { s1.pwr with resv := s1.pwr.resv ++ [r] } }
        let s3 := if short then s2.event F.PWR_STAT_HINT_SHORT 0 else s2
        (if late then s3.event F.PWR_STAT_HINT_LATE 0 else s3).complete qp d stOK []))
/-- HINT_PHASE_BEGIN: LEAD has passed. -/
def execHintPhaseBegin (k : Nat) (s : State) : Out :=
  .next (match s.pwr.resv[k]? with
    | none => s
    | some r =>
      if r.begun || s.clk.ns < r.begins then s
      else { s with pwr := { s.pwr with resv := s.pwr.resv.set k { r with begun := true, peak := 0 } } })
/-- PHASE_END: DUR µs after the phase began; the profile's DUR when it is valid, the HINT's otherwise. -/
def execPhaseEnd (k : Nat) (s : State) : Out :=
  .next (match s.pwr.resv[k]? with
    | none => s
    | some r =>
      let dur := if s.flag F.PWR_PROF_DATA_VALID r.prof then s.fget F.PWR_PROF_DATA_DUR r.prof else r.dur
      if !r.begun || s.clk.ns < r.begins + 1000 * dur then s else s.phaseEnd r)
/-- RESERVATION_END: 100 µs after the HINT's DUR has passed. -/
def execReservationEnd (k : Nat) (s : State) : Out :=
  .next (match s.pwr.resv[k]? with
    | none => s
    | some r =>
      if s.clk.ns < r.begins + 1000 * (r.dur + 100) then s
      else { s with pwr := { s.pwr with resv := s.pwr.resv.set k { r with grant := [] } } })

/-! ### Governors (R276 to R285) -/

/-- Edges in 16 that a slowdown makes the governor swallow. -/
def State.forcedSwallow (s : State) (t : Nat) : Nat :=
  if s.thm.lossClamp then 11 else if s.pwr.clamp.isSome || s.pwr.slow.contains t then 8 else 0
/-- The slope that a rising engine has in 0.25 A/µs, 0.25 mA in each ns: its own, or its share of the tower's (R279, R280). -/
def State.slopeOf (s : State) (t : Nat) : Rat :=
  let own (u : Nat) : Rat := ((s.fget F.TPW_CFG_SLOPE u : Nat) : Rat)
  let tower := s.pwr.rising.filter (fun u => towerOf u = towerOf t)
  ((slopeShares (tower.length + 1) ((4 * s.fget F.WPW_CFG_SLOPE (towerOf t) : Nat) : Rat) (tower.map (fun u => (u, own u)))).find?
    (fun x => x.1 == t)).elim (own t) (·.2)
/-- The current in 0.25 mA that fill activity gives tile `t`: the fill level of a strict dispatch until the tile's part ends (R281), and
what reaches each reservation's current as its phase begins (R290). -/
def State.fillTarget (s : State) (t : Nat) : Nat :=
  let strict := match s.tileDisp t with
    | some (_, d) => if d.strict && d.running && !bitOf d.done t then 250 * s.fillLevel t else 0
    | none => 0
  let ahead := (s.pwr.resv.filter (fun r => !r.begun)).map (fun r =>
    250 * SMap.get r.grant t 0 - s.fget F.TPW_CFG_SLOPE t * (r.begins - s.clk.ns))
  ahead.foldl max strict
/-- GOVERNOR_SAMPLE: current, demand in 0.0625 A, the last 16 tc, lowest voltage sample in 5 mV. The governor keeps the current below LIMIT and ILIM, lets it rise by no more than its slope, and fills when it would fall
faster than that or stand below the fill level; a freeze is not shaped (R276, R279 to R281). The Gust buffer recharges (R282). -/
def execGovernorSample (t : Fin 128) (cur demand : Byte) (edges : Edges) (code : Byte) (s : State) : Out :=
  .next (
    let on := (s.eng t).power == .on
    let lim := min (s.limit16 t) (s.fget F.TPW_I_ILIM t)
    let g := SMap.get s.pwr.gov t (250 * s.fget F.TPW_I_I_NOW t, s.clk.ns)
    let dt := s.clk.ns - g.2
    let want := max (250 * demand.toNat) (s.fillTarget t)
    let s0 : State := { s with pwr := { s.pwr with
      rising := if on && decide (g.1 < want) then (if s.pwr.rising.contains t.val then s.pwr.rising else s.pwr.rising ++ [t.val])
        else s.pwr.rising.filter (· ≠ t.val) } }
    let slope := s0.slopeOf t
    let hi := g.1 + ((dt : Rat) * slope).floor.toNat
    let lo := g.1 - dt * s.fget F.TPW_CFG_SLOPE t
    let draw := 250 * (if edges.frozen then demand.toNat else cur.toNat)
    let ref := min (250 * lim) (if on then max (max (min draw hi) lo) (min (s.fillTarget t) hi) else draw)
    let i := if on && edges.frozen then min cur.toNat (ref / 250) else ref / 250
    let forced := s.forcedSwallow t
    let k := if !on then 0 else if lim < demand.toNat || hi < 250 * demand.toNat then max edges.swallowed.val forced else forced
    let s1 := s0.fput F.TPW_I_I_NOW t i
    let back := min 32 (s.limit16 t - i) * dt
    let s2 : State := { s1 with pwr := { s1.pwr with
      gov := SMap.put s1.pwr.gov t (ref, s.clk.ns)
      spent := SMap.set s1.pwr.spent t (SMap.get s1.pwr.spent t 0 - back) 0
      resv := s1.pwr.resv.map (fun r => if r.begun && bitOf r.group t then { r with peak := max r.peak i } else r) } }
    let held := on && decide (slope < ((s.fget F.TPW_CFG_SLOPE t : Nat) : Rat)) && decide (hi < want)
    let s3 := if held then s2.event F.WPW_STAT_SLOPE_HOLD (towerOf t) else s2
    let s4 := (s3.fadd F.TPW_SWALLOW_COUNT t k).throttle t k
    if code.toNat < s4.fget F.TPW_VMIN_CODE t then (s4.fput F.TPW_VMIN_CODE t code.toNat).put64 .TPW_VMIN_T_LO .TPW_VMIN_T_HI t s4.clk.ns else s4)
/-- OPERATING_POINT_CHANGE: the highest point under the three ceilings; an engine without a dispatch takes new regulator trims. -/
def execOperatingPointChange (t : Fin 128) (s : State) : Out :=
  .next (
    let p := max (max (s.fget F.TPW_PSTATE_CEIL t) (s.thmCeil t)) (SMap.get s.pwr.capCeil t 0)
    let s1 := if p = s.fget F.TPW_PSTATE_CUR t then s else (s.fput F.TPW_PSTATE_CUR t p).throttle t 1
    if (s1.eng t).disp.isNone then s1.calTook (5 + t) else s1)
/-- The reserve of a Gust buffer, 8 µC, in 0.0625 nC. -/
def gustReserve : Nat := 128000
/-- GUST_DISCHARGE: the voltage stands `g.mv` beyond the set point; beyond GUST_TRIP the buffer sources (or sinks) `g.amps` of 0.0625 A, at
most 40 A, for `g.ns`, until its reserve is spent (or the bank is full). -/
def execGustDischarge (t : Fin 128) (g : Gust) (s : State) : Out :=
  let spent := SMap.get s.pwr.spent t 0
  let q := min g.amps 640 * g.ns
  .next (if g.mv ≤ s.fget F.TPW_TRIP_GUST_TRIP t then s
    else if !g.source then { s with pwr := { s.pwr with spent := SMap.set s.pwr.spent t (spent - q) 0 } }
    else if gustReserve ≤ spent then s
    else ({ s with pwr := { s.pwr with spent := SMap.set s.pwr.spent t (min gustReserve (spent + q)) 0 } } : State).fadd F.TPW_GUST_COUNT t 1)
/-- DROOP_SLOWDOWN: the voltage stands `d.mv` below the set point. -/
def execDroopSlowdown (d : Sag) (s : State) : Out :=
  let t := d.tile
  .next (if d.mv ≤ s.fget F.TPW_TRIP_DROOP_TRIP t || s.pwr.slow.contains t.val || (s.eng t).power != .on then s
    else (((({ s with pwr := { s.pwr with slow := s.pwr.slow ++ [t.val] } } : State).fadd F.TPW_DROOP_COUNT t 1).event F.TPW_STAT_DROOP t).throttle t 1))
/-- DROOP_END: `d.mv` is the most by which the voltage has stood below the set point in the last 256 tc. -/
def execDroopEnd (d : Sag) (s : State) : Out :=
  .next (if s.fget F.TPW_TRIP_GUST_TRIP d.tile ≤ d.mv then s else { s with pwr := { s.pwr with slow := s.pwr.slow.filter (· ≠ d.tile.val) } })
/-- VMIN_CLEAR. -/
def execVminClear (t : Fin 128) (s : State) : Out := .next (s.fput F.TPW_VMIN_CODE t 255)
/-- ENGINE_UNDERVOLTAGE. -/
def execEngineUndervoltage (t : Fin 128) (s : State) : Out := .next ((s.event F.TPW_STAT_UV t).raise 0x03 t 0 0)
/-- RAIL_OVERCURRENT: the load has exceeded 680 A for 10 µs, or (`above` false) no longer does. -/
def execRailOvercurrent (above : Bool) (s : State) : Out :=
  .next (let s1 := s.cond 0x40 0 above
    if above then s1.raise 0x40 0 0 0 else s1)
/-- DOMAIN_OVERLOAD: a domain group has exceeded its limit for 10 µs, or no longer does. -/
def execDomainOverload (i : Fin 6) (above : Bool) (s : State) : Out :=
  .next (let s1 := s.cond 0x20 i above
    if above then s1.raise 0x20 i 0 0 else s1)

/-! ### The cap controller (R287, R288) -/

/-- The engines of the same die next to tile `t`. -/
def adjacentTiles (t : Nat) : List Nat :=
  (if 0 < tileX t then [t - 1] else []) ++ (if tileX t < 7 then [t + 1] else [])
    ++ (if 0 < tileY t then [t - 8] else []) ++ (if tileY t < 3 then [t + 8] else [])
/-- SEQ_THR percent of a tile's limit, in 0.0625 A. -/
def State.seqLevel (s : State) (w t : Nat) : Nat := s.fget F.WPW_CFG_SEQ_THR w * s.limit16 t / 100
/-- Strict fill levels and reservations cut evenly to what is left: currents by tile, and what then remains. -/
def State.grantLevel (s : State) (left : Nat) (g : SMap Nat) : SMap Nat × Nat :=
  let cost := (g.map (fun x => s.costOf x.1 x.2)).sum
  if cost ≤ left then (g, left - cost) else (g.map (fun x => (x.1, x.2 * left / cost)), 0)
/-- CAP_STEP: average input power in W, measured input of the other loads in mW, each engine's demand over the last 100 µs in
0.0625 A and cost in mW of 0.0625 A, engines that swallowed more than half, and fewer than 1 in 8, of their edges for 1 ms. -/
def execCapStep (avg other : Nat) (demand cost heavy light : List Nat) (s : State) : Out :=
  .next (
    let dem (t : Nat) := demand.getD t 0
    let cst (t : Nat) := max 1 (cost.getD t 1)
    let s0 := (s.fput F.PWR_AVG_AVG_W 0 avg).capShow
    let budget := 1000 * s0.effCap - other - 1000 * s0.fget F.PWR_CFG_MARGIN_W 0
    let s1 : State := { s0 with pwr := { s0.pwr with budget := budget, cost := (List.range 128).map (fun t => (t, cst t)) }
                                thm := { s0.thm with lossClamp := s0.thm.lossClamp && decide (s0.effCap < avg) } }
    let fills := s1.grantLevel budget (s1.strictTiles.map (fun t => (t, s1.fillLevel t)))
    let res := (s1.pwr.resv.filter (·.begun)).foldl (fun (a : List (SMap Nat) × Nat) r =>
      let g := s1.grantLevel a.2 r.grant
      (a.1 ++ [g.1], g.2)) ([fills.1], fills.2)
    let given (t : Nat) := (res.1.map (fun g => SMap.get g t 0)).sum
    let total := ((List.range 128).map (fun t => dem t * cst t)).sum
    let held (t : Nat) : Option Nat := (s1.pwr.asked.filter (fun u => (adjacentTiles u).contains t)).head?
    let s2 := (List.range 128).foldl (fun a t =>
      let f := if total = 0 then a.free 8 else (0, a)
      let share := if total = 0 then f.1 % (res.2 / (128 * cst t) + 1) else res.2 * dem t / total
      let i := min (given t + share) (a.limit16 t)
      let i := match held t with
        | some _ => min i (a.seqLevel (towerOf t) t)
        | none => i
      f.2.fput F.TPW_I_ILIM t i) s1
    let hit := (List.range 128).any (fun t => decide (s2.fget F.TPW_I_ILIM t < dem t))
    let s3 := if hit then s2.event F.PWR_STAT_CAP_HIT 0 else s2
    let ceil (t : Nat) := SMap.get s3.pwr.capCeil t 0
    let c1 := heavy.foldl (fun m t => SMap.set m t (min 7 (ceil t + 1)) 0) s3.pwr.capCeil
    let c2 := light.foldl (fun m t => if heavy.contains t then m else SMap.set m t (ceil t - 1) 0) c1
    { s3 with pwr := { s3.pwr with capCeil := c2 } })
/-- PEAK_CLAMP: input power in W, and whether it has stayed above the effective cap for 50 µs. -/
def execPeakClamp (w : Nat) (long : Bool) (s : State) : Out :=
  .next (if s.pwr.clamp.isSome || !(decide (s.fget F.PWR_CAP_PEAK_W 0 < w + 50) || (long && decide (s.effCap < w))) then s
    else ((({ s with pwr := { s.pwr with clamp := some s.clk.ns } } : State).fadd F.PWR_CLAMPS_CLAMPS 0 1).event F.PWR_STAT_PEAK_CLAMP 0))
/-- PEAK_CLAMP_END. -/
def execPeakClampEnd (w : Nat) (s : State) : Out :=
  .next (match s.pwr.clamp with
    | none => s
    | some a => if a + 10000 ≤ s.clk.ns && decide (w < s.effCap) then { s with pwr := { s.pwr with clamp := none } } else s)

/-! ### The power-up sequencer (R293, R294) -/

/-- The neighbours of a domain that asks allow it to switch on. -/
def State.quietNear (s : State) (t : Nat) : Bool :=
  (adjacentTiles t).all (fun u => decide (100 * s.fget F.TPW_I_I_NOW u ≤ s.fget F.WPW_CFG_SEQ_THR (towerOf t) * s.limit16 u))
/-- DOMAIN_SWITCH_ON: `rail` is the package rail's current in A. -/
def execDomainSwitchOn (t : Fin 128) (rail : Nat) (s : State) : Out :=
  .next (match SMap.find s.pwr.waitOn t with
    | none => s
    | some at_ =>
      let w := towerOf t
      let earlier := s.pwr.waitOn.any (fun e => decide (e.1 < t.val) && towerOf e.1 == w && s.quietNear e.1)
      let busy := (s.pwr.domOn.filter (fun u => towerOf u = w)).length
      if s.thm.off || earlier || !s.quietNear t || 680 * s.fget F.WPW_CFG_SEQ_THR w < 100 * rail || max 1 (s.fget F.WPW_CFG_SEQ_PAR w) ≤ busy then s
      else
        let forced := s.pwr.asked.contains t.val
        let late := s.clk.ns - at_
        let s1 : State := { s with pwr := { s.pwr with waitOn := SMap.del s.pwr.waitOn t, domOn := s.pwr.domOn ++ [t.val]
                                                       asked := s.pwr.asked.filter (· ≠ t.val) } }
        let s2 := if late = 0 then s1
          else (s1.fadd F.WPW_SEQCNT_DELAYED w 1).fput F.WPW_DMAX_DMAX w (max (s1.fget F.WPW_DMAX_DMAX w) (min 65535 (late / 1000)))
        if forced then (s2.fadd F.WPW_SEQCNT_FORCED w 1).event F.WPW_STAT_SEQ_FORCE w else s2)
/-- FORCED_SWITCH_ON: the request has waited WAIT_MAX µs; adjacent domains above the threshold have their ILIM lowered to it. -/
def execForcedSwitchOn (t : Fin 128) (s : State) : Out :=
  .next (match SMap.find s.pwr.waitOn t with
    | none => s
    | some at_ =>
      let w := towerOf t
      let loud := (adjacentTiles t).filter (fun u => decide (s.fget F.WPW_CFG_SEQ_THR w * s.limit16 u < 100 * s.fget F.TPW_I_I_NOW u))
      if s.clk.ns < at_ + 1000 * s.fget F.WPW_SEQ_WAIT_MAX w || s.pwr.asked.contains t.val || loud = [] then s
      else
        let s1 : State := { s with pwr := { s.pwr with asked := s.pwr.asked ++ [t.val] } }
        loud.foldl (fun a u => a.fput F.TPW_I_ILIM u (min (a.fget F.TPW_I_ILIM u) (a.seqLevel w u))) s1)

/-- ENGINE_WAKE: a clock-gated engine that was asked to wake, or one whose domain has been switched on, runs again; a lifecycle change that
waited for its wipes goes on (R75, R114, R310). -/
def execEngineWake (t : TilePorts) (s : State) : Out :=
  .next (let e := s.eng t.tile
    let on := s.pwr.domOn.contains t.tile.val
    match e.power with
    | .lull1 => if e.wake then ((s.engineOn t.tile t.portA).lulCount).lcTry else s
    | .lull2 => if on then ((s.engineOn t.tile t.portA).lulCount).lcTry else s
    | .off => if on then ((s.engineOn t.tile t.portA).lulCount).lcTry else s
    | _ => s)

end Sys2Proof.Machine
end

