-- ==== Sys2Proof/Machine/Reset.lean ====
section
/-! DEFINITION. Partial resets and the module reset (R381 to R386). -/

namespace Sys2Proof.Machine

/-- RESET_REQUEST: a write of `RST_CTL` with GO = 1, which takes SCOPE, TARGET and MODE from the same write. -/
def execResetRequest (w : Word) (s : State) : Out :=
  .next (
    let v := w.toNat
    let scope := min 4 (bits v 2 0)
    let s1 := ((s.fput F.RST_CTL_SCOPE 0 scope).fput F.RST_CTL_TARGET 0 (bits v 14 8)).fput F.RST_CTL_MODE 0 (bits v 16 16)
    s1.rstRequest scope (scopeTarget scope (bits v 14 8)) (bitOf v 16) none)
/-- Every engine of the running reset holds no dispatch. -/
def State.rstIdle (s : State) : Bool := s.rstTiles.all (fun t => (s.eng t).disp.isNone)
/-- RESET_WORK_DONE. -/
def execResetWorkDone (s : State) : Out :=
  .next (if s.phase = phWORK && !s.rst.absorb && s.rstIdle then s.rstEmpty else s)
/-- RESET_WORK_TIMEOUT: WORK_MS has passed; each engine that still holds a dispatch is fenced. -/
def execResetWorkTimeout (s : State) : Out :=
  .next (if s.phase = phWORK && !s.rst.absorb && decide (s.rst.workAt + 1000000 * max 1 (s.fget F.RST_DL1_WORK_MS 0) ≤ s.clk.ns) then
      let s1 := (s.rstTiles.filter (fun t => (s.eng t).disp.isSome)).foldl (fun a t => a.fenceNow t) s
      (({ s1 with rst := { s1.rst with forced := true } } : State).event F.RST_STAT_FORCED 0).rstEmpty
    else s)
/-- A message that a fabric engine of tower `w` has started (R385). -/
def Owner.inTower (w : Nat) : Owner → Bool
  | .ring t _ => towerOf t == w
  | .cut t _ => towerOf t == w
  | _ => false
/-- What the state shows to be in flight across the boundary of the running reset: dispatches of its engines; packets in or for a tower;
messages that a base die's fabric engine completes in DRAIN mode. -/
def State.crossing (s : State) : Bool :=
  let w := s.rstTarget
  s.rstTiles.any (fun t => (s.eng t).disp.isSome && !(s.eng t).fenced)
    || (s.rstScope == rsTOWER && s.packets.any (fun p => towerOf p.stop_ == w || p.segs.any (fun g => towerOf g.at_ == w)))
    || (s.rstScope == rsPATH && !s.rst.absorb && s.fab.peers.any (fun e => e.2.tx.any (fun m => m.started && m.owner.inTower w)))
/-- RESET_BOUNDARY_EMPTY: nothing is in flight across the boundary; the scope is reset. -/
def execResetBoundaryEmpty (s : State) : Out := .next (if s.phase = phEMPTY && !s.crossing then s.scopeReset else s)
/-- RESET_DEADLINE: the deadline has passed in EMPTY, so a module reset follows. -/
def execResetDeadline (s : State) : Out :=
  .next (if s.phase = phEMPTY && decide (s.rst.emptyAt + 1000 * s.rstDeadline ≤ s.clk.ns) then
      (s.event F.RST_STAT_FALLBACK 0).modWantRec (fun s => s.rstRecord true)
    else s)
/-- RESET_SCOPE_READY. -/
def execResetScopeReady (s : State) : Out := .next (if s.phase = phRESET then s.rstFinish else s)
/-- MODULE_RESET: a module reset that is due takes place. -/
def execModuleReset (s : State) : Out := .next (if s.rst.modDue then s.moduleReset else s)

end Sys2Proof.Machine
end

