-- ==== Sys2Proof/Machine/Thermal.lean ====
section
/-! DEFINITION. Thermal sensing, the forecast, coolant and the idle states (R296 to R312). -/

namespace Sys2Proof.Machine

/-- SENSOR_SAMPLE: sensor 0–135 of a tower, 136 the outlet and 137 the inlet thermistor; the sample, none when it does not arrive; the
rise over the last ms that the model predicts for the same node. How the mean is rounded is open (log entry 16). -/
def execSensorSample (w : Fin 4) (i : Fin 138) (v : Option Int) (pred : Int) (s : State) : Out :=
  .next (
    let die := decide (i.val < 136)
    let key := if die then 136 * w.val + i.val else 544 + (i.val - 136)
    if die && s.trust w i = 2 then s
    else match v with
    | none => if die then s.distrust w [i.val] 2 else s
    | some x =>
      if x < -320 ∨ 1200 < x then (if die then s.distrust w [i.val] 2 else s)
      else
        let l := (x :: SMap.get s.thm.samples key []).take 101
        let s1 : State := { s with thm := { s.thm with samples := SMap.put s.thm.samples key l } }
        let ten := l.take 10
        let q := Int.fdiv ten.sum ten.length
        let f := s1.free 1
        let mean := if q * ten.length = ten.sum then q else q + (f.1 : Nat)
        let s2 := if die then f.2.fput F.THM_SDATA_READING key (wrap 12 mean)
          else f.2.fput (if i.val = 136 then F.COOL_TEMP_OUTLET else F.COOL_TEMP_INLET) 0 (wrap 12 x)
        let watched := i.val = 136 || (die && s2.trust w i = 0)
        match l[100]? with
        | some old =>
          let rise := x - old
          if watched && decide ((s2.fget F.COOL_CFG2_RISE 0 : Int) < rise ∧ 2 * pred < rise) then s2.lossDetected else s2
        | none => s2)
/-- THM_MODEL_UPDATE; the tower takes a new calibration table at an update (R415). -/
def execThmModelUpdate (w : Fin 4) (es fs : List Int) (s : State) : Out := .next ((s.modelUpdate w es fs).calTook (1 + w))
/-- THERMAL_CAP_RISE (R304). -/
def execThermalCapRise (s : State) : Out :=
  .next (
    let held := (List.range 4).any (fun w => (List.range 576).any (fun n =>
      (s.level w n == 7 && decide (s.throttleAt w n < s.nodeF w n)) || (decide (n < 32) && s.level w n ≠ 0)))
    if held then s else ({ s with thm := { s.thm with esc := s.thm.esc - 25 } } : State).tcapShow)
/-- COOLANT_CAP_UPDATE. How the resistance is rounded, and what it and the target are when no power flows or no node is warmer than
the inlet, is open (log entry 16). -/
def execCoolantCapUpdate (s : State) : Out :=
  .next (
    let gs := (List.range 4).flatMap (fun w => (List.range 32).map (fun x => s.nodeG w (544 + x)))
    let tin := signed 12 (s.fget F.COOL_TEMP_INLET 0)
    let dt := gs.foldl max (gs.headD 0) - tin
    let p := s.fget F.PWR_AVG_AVG_W 0
    let f := s.free 32
    let bad := p = 0 || decide (dt ≤ 0)
    let r := 1250 * dt.toNat
    let rth := if bad then f.1 else (let q := r / p; let v := if r % p = 0 then q else q + f.1 % 2; if v < 65536 then v else f.1)
    let num := (840 - s.thmDeg F.THM_CFG_GUARD 0 - tin) * (p : Int)
    let target := if bad then 300 + f.1 % 901 else max 300 (min 1200 (Int.fdiv (2 * num + dt) (2 * dt)).toNat)
    let c := f.2.thm.coolCap
    let c' := if target < c then max target (c - 10) else min target (c + 5)
    (({ f.2 with thm := { f.2.thm with coolCap := c' } } : State).fput F.COOL_RTH_RTH 0 rth).tcapShow)
/-- FLOW_COUNT: 100 ms of pulses. A flow above the register's range is open (log entry 16). -/
def execFlowCount (s : State) : Out :=
  .next (
    let flow := s.thm.pulses * s.fget F.COOL_CFG_ML_PP 0 * 6
    let f := s.free 16
    let s1 := ({ f.2 with thm := { f.2.thm with pulses := 0 } } : State).fput F.COOL_FLOW_FLOW 0 (if flow < 65536 then flow else f.1)
    let low := decide (flow < s1.fget F.COOL_CFG_FLOW_MIN 0)
    let s2 := s1.cond 0x41 0 low
    if low then (s2.event F.COOL_STAT_FLOW_LOW 0).raise 0x41 0 0 0 else s2)
/-- The longest gap between pulses that is no loss, in ns. -/
def State.lossGap (s : State) : Nat := max 5 (s.fget F.COOL_CFG_LOSS_MS 0) * 1000000
/-- FLOW_PULSE. -/
def execFlowPulse (s : State) : Out :=
  .next { s with thm := { s.thm with
    pulses := s.thm.pulses + 1, lastPulse := s.clk.ns
    flowFrom := match s.thm.flowFrom with
      | some a => if s.clk.ns < s.thm.lastPulse + s.lossGap then some a else some s.clk.ns
      | none => some s.clk.ns } }
/-- COOLANT_LOSS_TIMEOUT: no pulse for LOSS_MS. -/
def execCoolantLossTimeout (s : State) : Out :=
  .next (if s.thm.lastPulse + s.lossGap ≤ s.clk.ns then s.lossDetected else s)
/-- COOLANT_DRAIN: the 1 ms average is within the cap, so every queue pair drains. -/
def execCoolantDrain (s : State) : Out :=
  .next (if s.coolState = 1 && decide (s.fget F.PWR_AVG_AVG_W 0 ≤ s.effCap) then
      let s1 := s.qpKeys.foldl (fun a q => a.qpDrain q) s
      ({ s1 with thm := { s1.thm with drainAt := s1.clk.ns, lossClamp := false } } : State).fput F.COOL_TCAP_STATE 0 2
    else s)
/-- COOLANT_SHUTDOWN: the drain is over or out of time, or a G stands at its limit; `k` records are taken while the tree is sealed. -/
def execCoolantShutdown (m : Meters) (k : Nat) (s : State) : Out :=
  .next (
    let done := s.qpKeys.all (fun q => (s.qp q).ring.all (fun d => !d.started))
    let late := decide (s.thm.drainAt + 1000000 * s.fget F.COOL_CFG2_DRAIN_MS 0 ≤ s.clk.ns)
    if (s.coolState == 2 && (done || late)) || ((s.coolState == 1 || s.coolState == 2) && s.anyOver) then s.shutdown m k else s)
/-- FLOW_RESTORED: flow pulses have been present for 1 s. -/
def execFlowRestored (s : State) : Out :=
  .next (if s.thm.flowFrom.any (fun a => decide (a + 1000000000 ≤ s.clk.ns)) && decide (s.clk.ns < s.thm.lastPulse + s.lossGap) then
      { s with boot := { s.boot with flowOk := true } }
    else s)
/-- CLR_SUSPECT: a write of 1 to `THM_CTL.CLR_SUSPECT`. -/
def execClrSuspect (w : Fin 4) (s : State) : Out :=
  .next (
    let s1 := (List.range 136).foldl (fun a i => if a.trust w i = 1 then a.fput F.THM_SDATA_TRUST (136 * w.val + i) 0 else a) s
    { s1 with thm := { s1.thm with pairBad := s1.thm.pairBad.filter (fun k => k / 576 ≠ w.val)
                                   low := s1.thm.low.drop (fun k => k / 136 == w.val) } })
/-- THERM_ALERT_RELEASE (R312). -/
def execThermAlertRelease (s : State) : Out :=
  .next (if s.thm.hot = [] && (List.range 4).all (fun w => decide (SMap.get s.thm.calm w 0 + 10000000 ≤ s.clk.ns)) && s.thm.esc == 0
      && s.coolState == 0 && !s.thm.off then { s with brd := { s.brd with thermAlert := false } }
    else s)

/-! ### Idle states (R310, R311) -/

/-- No dispatch holds the engine and no packet addressed to it waits. -/
def State.engineIdle (s : State) (t : Nat) : Bool :=
  (s.eng t).disp.isNone && (s.stop t).ingress.isEmpty && (s.eng t).fence.isNone && !s.inRstScope t && !s.fw.withdrawn.contains t
/-- LULL1_ENTRY: the engine has been idle for L1_US. -/
def execLull1Entry (t : Fin 128) (s : State) : Out :=
  .next (let e := s.eng t
    if e.power == .on && s.engineIdle t && !e.wake then (s.setEng t { e with power := .lull1 }).lulCount else s)
/-- LULL2_ENTRY: the engine has been idle for L2_MS. -/
def execLull2Entry (t : Fin 128) (s : State) : Out :=
  .next (let e := s.eng t
    if (e.power == .on || e.power == .lull1) && s.engineIdle t && !e.wake then
      let s1 := s.abortArray t
      let s2 := (s1.eng t).wiping.foldl (fun a b => a.zeroBank t b) s1
      (s2.setEng t ((s2.eng t).gated .lull2)).lulCount
    else s)
/-- The module is idle. -/
def State.moduleIdle (s : State) : Bool :=
  (List.range 128).all s.engineIdle && s.cmd.qps.all (fun q => q.2.ring.isEmpty) && s.kv.outs.isEmpty && s.kv.ins.isEmpty && !s.kv.initing
    && s.fab.peers.all (fun x => x.2.rx.all (fun m => m.op == opTIME)) && s.kv.zeroing.isEmpty && s.cores.all (fun c => !s.coreBusy (c.1 / 64) (c.1 % 64))
/-- SENTRY_ENTRY: the summary parts read and the SQ_PROD of the queue pairs whose bit is set. -/
def execSentryEntry (sums prods : List (Nat × Nat)) (s : State) : Out :=
  .next (
    let n := (sums.map (fun x => (bitList x.2 16384).length)).sum
    if s.flag F.LUL_STATE_SENTRY 0 || !s.flag F.LUL_CFG_SEN_EN 0 || !s.moduleIdle || decide (64 < n) then s
    else
      let m (l : List (Nat × Nat)) : SMap Nat := l.foldl (fun m x => SMap.put m x.1 x.2) []
      let s1 := (List.range 128).foldl (fun a t => a.engineOff t) { s with thm := { s.thm with senSum := m sums, senProd := m prods } }
      (s1.fput F.LUL_STATE_SENTRY 0 1).lulCount)
/-- SENTRY_SAMPLE: the values that the sampler has read; a recorded one that differs ends Sentry. -/
def execSentrySample (sums prods : List (Nat × Nat)) (s : State) : Out :=
  .next (
    let differs (m : SMap Nat) (l : List (Nat × Nat)) : Bool := l.any (fun x => (SMap.find m x.1).any (· ≠ x.2))
    if s.flag F.LUL_STATE_SENTRY 0 && (differs s.thm.senSum sums || differs s.thm.senProd prods) then s.sentryExit else s)

end Sys2Proof.Machine
end

