-- ==== Sys2Proof/Machine/RegOps.lean ====
section
/-! DEFINITION. Register conventions: windows, field classes, read-back rules, stopped states, staged sets (R10, R11, R374, R423 to R437, R439
and the field tables of every chapter). -/

namespace Sys2Proof.Machine

/-! ### Windows (R423) -/

/-- The register of a window at a byte offset, with its number within the family. -/
def regIn (w : Win) (at_ : Nat) : Option (Reg × Nat) :=
  Reg.all.findSome? (fun r =>
    let p := r.place
    let n := (at_ - p.off) / p.stride
    if p.win = w ∧ p.off ≤ at_ ∧ n < p.cnt ∧ p.off + p.stride * n = at_ then some (r, n) else none)
/-- The registers of function `f`'s command window: its own, those of the queue pair that it selects, and the shared ones of function 0. -/
def State.cmdReg (s : State) (f at_ : Nat) : Option (Reg × Nat) :=
  match regIn .cmd at_ with
  | some (r, _) => some (r, f)
  | none => match regIn .qp at_ with
    | some (r, _) => if s.fget F.CMD_FQ_QCNT f ≤ s.fget F.CMD_QPSEL_QP f then none else some (r, s.selQp f)
    | none => if f = 0 then regIn .cmd0 at_ else none
/-- The index of a register of window number `o`; the selected element for those that a selector register shows. -/
def State.regIdx (s : State) (o : Nat) (x : Reg × Nat) : Reg × Nat :=
  match x.1 with
  | .PWR_PROF_DATA => (x.1, s.fget F.PWR_PROF_SEL_PROFILE 0)
  | .THM_SDATA => (x.1, 136 * o + s.fget F.THM_SEL_SENSOR o)
  | .THM_NDATA => (x.1, 576 * o + s.fget F.THM_NSEL_NODE o)
  | .FLT_IDATA => (x.1, s.fget F.FLT_ISEL_SRC 0)
  | .FLT_IDATA2 => (x.1, s.fget F.FLT_ISEL_SRC 0)
  | r => (r, o * r.place.cnt + x.2)
/-- The register at an offset of BAR0 of function `f`. -/
def State.regAt (s : State) (f off : Nat) : Option (Reg × Nat) :=
  let lo := off % 0x1000
  let one (w : Win) (o at_ : Nat) : Option (Reg × Nat) := (regIn w at_).map (s.regIdx o)
  let orElse (a b : Option (Reg × Nat)) : Option (Reg × Nat) := if a.isSome then a else b
  if f ≠ 0 then (if off < 0x2000 then s.cmdReg f off else none)
  else if off < 0x1000 then one .glb 0 lo
  else if off < 0x2000 then (if lo < 0x200 then one .mbx (lo / 0x100) (lo % 0x100) else none)
  else if off < 0x4000 then s.cmdReg 0 (off - 0x2000)
  else if off < 0x5000 then one .pci 0 lo
  else if off < 0x6000 then one .boot 0 lo
  else if off < 0x7000 then one .pwr 0 lo
  else if off < 0x8000 then one .sec 0 lo
  else if off < 0x9000 then one .enr 0 lo
  else if off < 0xA000 then one .fw 0 lo
  else if off < 0xB000 then one .kvm 0 lo
  else if off < 0xC000 then (if 0xFF0 ≤ lo then one .stg 132 (lo - 0xFF0) else one .lck 0 lo)
  else if off < 0x40000 then none
  else if off < 0x44000 then
    let w := off / 0x1000 - 0x40
    if lo < 0x200 then (if s.portAbsent (2 * w + lo / 0x100) then none else one .fab (2 * w + lo / 0x100) (lo % 0x100)) else if w = 0 then one .vrx 0 lo else none
  else if off < 0x50000 then none
  else if off < 0x54000 then
    let w := off / 0x1000 - 0x50
    if 0xFF0 ≤ lo then one .stg (128 + w) (lo - 0xFF0) else orElse (one .tower w lo) (if w = 0 then one .tower0 0 lo else none)
  else if off < 0x60000 then none
  else if off < 0x80000 then one .flt 0 (off - 0x60000)
  else if off < 0x100000 then none
  else if off < 0x180000 then
    let t := off / 0x1000 - 0x100
    if s.fusedOff t then none else one .eng t lo
  else if off < 0x800000 then none
  else if off < 0x1000000 then
    let t := (off - 0x800000) / 0x10000
    let o := off % 0x10000
    if 0x8000 ≤ o then one .core (64 * t + (o - 0x8000) / 512) (o % 512)
    else if 0x7F0 ≤ o && o < 0x800 then one .stg t (o - 0x7F0)
    else one .stop t o
  else none

/-- The block behind a register has been started: the W0 base die at stage 0, every other die at stage 3 (R374). -/
def State.regStarted (s : State) (r : Reg) (i : Nat) : Bool :=
  s.brd.on && (match r.place.win with
    | .eng => decide (4 ≤ s.stage)
    | .stop => decide (4 ≤ s.stage)
    | .core => decide (4 ≤ s.stage)
    | .tower => decide (i / r.place.cnt = 0) || decide (4 ≤ s.stage)
    | .stg => decide (132 ≤ i) || decide (i / r.place.cnt = 128) || decide (4 ≤ s.stage)
    | .fab => decide (i < 2) || decide (4 ≤ s.stage)
    | _ => true)
/-- The register lies in a tower that a tower reset has closed (R384). -/
def State.regShut (s : State) (r : Reg) (i : Nat) : Bool :=
  s.resetTower.any (fun w => (regStop r i).any (fun t => towerOf t == w) || (regEngine r i).any (fun t => towerOf t == w))

/-! ### Read-back rules of the field tables -/

/-- Fields whose written value is held within bounds: register, lowest bit, smallest and largest value. -/
def clamps : List (Reg × Nat × Nat × Nat) :=
  [(.MESH_CFG, 10, 4, 31), (.SPM_CFG, 0, 1, 15), (.VCH_CFG, 10, 1, 7), (.VCH_SCRUB, 0, 1, 65535), (.BSC_CFG, 0, 1, 4095), (.BSC_CFG, 12, 10, 31),
   (.FAB_CFG, 2, 0, 2), (.FAB_CFG, 8, 1, 255), (.FAB_CFG, 24, 1, 255), (.VRX_CFG2, 0, 1, 255), (.VRX_RXPOOL, 20, 0, 2), (.CMD_QP_CFG, 24, 0, 2),
   (.CMD_QP_COAL, 0, 1, 255), (.CMD_QP_COAL, 8, 1, 65535), (.CMD_POLL, 0, 100, 4095), (.CMD_POLL, 12, 1, 255), (.CMD_POLL, 20, 1, 4095)] ++
  [(.PCI_CFG, 3, 1, 31), (.PWR_CAP, 0, 300, 1200), (.TPW_CFG, 8, 0, 36), (.WPW_CFG, 8, 1, 7), (.THM_CFG, 20, 1, 15), (.COOL_CFG, 20, 5, 255),
   (.LUL_CFG, 0, 1, 255), (.ENR_CFG, 20, 1, 15), (.LCK_TMO, 0, 1, 65535), (.BOOT_CFG, 8, 0, Config.grade), (.RST_CTL, 0, 0, 4), (.RST_DL0, 0, 1, 65535),
   (.RST_DL0, 16, 1, 65535), (.RST_DL1, 0, 1, 4095), (.RST_DL1, 12, 1, 4095), (.RST_DL1, 24, 1, 255), (.FLT_CFG, 16, 1, 255), (.FLT_RXN, 8, 1, 255),
   (.EDY_CFG, 0, 0, 4032), (.EDY_CTL, 0, 0, 0), (.FWS_CFG, 0, 1, 7), (.FWS_CFG, 8, 1, 255), (.FWS_CFG, 16, 1, 4095), (.FWS_UCFG, 0, 1, 15)]
/-- The value that a field holds after a write of `v`. -/
def fieldRule (r : Reg) (i : Nat) (f : Field) (v : Nat) : Nat :=
  if r = .TSEQ_TVEC then v - v % 4
  else if r = .FLT_RXN && (f.lo == 2) && (blockScope (512 * i)).isNone then 0
  else match clamps.find? (fun c => c.1 == r && c.2.1 == f.lo) with
    | some c => min c.2.2.2 (max c.2.2.1 v)
    | none => v

/-! ### Stopped states and Frozen writes (R431, R432) -/

/-- The queue pairs of function `f` are all DISABLED. -/
def State.funcStopped (s : State) (f : Nat) : Bool := s.rangeIdle (s.fget F.CMD_FQ_QBASE f) (s.fget F.CMD_FQ_QCNT f)
/-- The block of a register stands in the stopped state that governs its Frozen fields. -/
def State.regStopped (s : State) (r : Reg) (i : Nat) : Bool :=
  match r.place.win with
  | .eng => (s.eng i).disp.isNone || (s.eng i).fenced || (s.eng i).inReset
  | .stop => if r = .VCH_TRAIN_L then s.gate.layers.contains i else true
  | .kvm => !s.flag F.KVM_CTL_RUN 0
  | .fab => !s.flag F.FAB_CFG_EN i
  | .vrx => !s.flag F.VRX_CTL_RUN 0
  | .cmd => s.funcStopped i
  | .qp => s.qpState i == qpDISABLED
  | .cmd0 => s.funcStopped i
  | .enr => !s.flag F.ENR_CTL_RUN 0
  | .sec => !s.sec.progLoaded
  | .lck => !s.flag F.LCK_CTL_EN 0
  | .fw => s.fwState == fwIDLE
  | .mbx => !s.mbxBusy (i / r.place.cnt)
  | _ => true
/-- A Frozen write that was ignored is flagged by the block, or by GLB, and its offset recorded; `f` is the function whose window it used. -/
def State.frozenFlag (s : State) (f : Nat) (r : Reg) (i : Nat) : State :=
  let s1 := match r.place.win with
    | .kvm => s.event F.KVM_STAT_FROZEN_WR 0
    | .fab => s.event F.VRX_STAT_FROZEN_WR 0
    | .vrx => s.event F.VRX_STAT_FROZEN_WR 0
    | .cmd => s.event F.CMD_STAT_FROZEN_WR f
    | .qp => s.event F.CMD_STAT_FROZEN_WR f
    | .cmd0 => s.event F.CMD_STAT_FROZEN_WR f
    | .enr => s.event F.ENR_STAT_FROZEN_WR 0
    | .sec => s.event F.SEC_STAT_FROZEN_WR 0
    | .lck => s.event F.LCK_STAT_FROZEN_WR 0
    | .fw => s.event F.FWS_STAT_FROZEN_WR 0
    | .mbx => s.event F.MBX_STAT_FROZEN_WR (i / r.place.cnt)
    | _ => s.event F.GLB_STAT_FROZEN_WR 0
  s1.rput .GLB_FROZEN_LAST 0 (BitVec.ofNat 32 (regOffset r i))

/-! ### Staged sets (R433 to R437) -/

/-- The registers of block `b` in STG window `k`: stops 0 to 127, tower controllers 128 to 131, the LCK window 132. -/
def stgRegs (k b : Nat) : List (Reg × Nat) :=
  if k < 128 then match b with
    | 0 => [(.TSK_CFG, k)]
    | 1 => (.MESH_CFG, k) :: (List.range 64).map (fun n => (.MESH_SLOT, 64 * k + n))
    | 2 => [(.BSC_RING, k)]
    | 3 => [(.FXR_BASE_LO, k), (.FXR_BASE_HI, k), (.FXR_CFG, k)]
    | 4 => [(.TPW_TRIP, k)]
    | _ => []
  else if b ≠ 0 then []
  else if k < 132 then [(.THM_DIS, k - 128)]
  else (List.range 16).flatMap (fun n => [(.LCK_RGN_BASE_LO, n), (.LCK_RGN_BASE_HI, n), (.LCK_RGN_LEN, n), (.LCK_RGN_STRIDE, n)])
/-- The Staged bits of a register word. -/
def stagedBits (r : Reg) (w : Nat) : Nat :=
  r.fields.foldl (fun a f => if f.app = .staged then setBits a f.hi f.lo (bits w f.hi f.lo) else a) 0
/-- The pending set differs from the active set. -/
def State.stgDiff (s : State) (k b : Nat) : Bool :=
  (stgRegs k b).any (fun x => stagedBits x.1 (s.rget x.1 x.2).toNat != stagedBits x.1 (s.aget x.1 x.2).toNat)
/-- Show `STG_STATE` of a window. -/
def State.stgShow (s : State) (k : Nat) : State :=
  let w := (List.range 5).foldl (fun a b => a + 2 ^ b * b2n ((SMap.find s.wset (8 * k + b)).isSome) + 2 ^ (8 + b) * b2n (s.stgDiff k b)) 0
  s.rput .STG_STATE k (BitVec.ofNat 32 w)
/-- The window and block whose staged set holds a register. -/
def stgHome (r : Reg) (i : Nat) : Option Nat :=
  if !(r.fields.any (fun f => f.app = .staged)) then none
  else match r.place.win with
    | .stop => some (i / r.place.cnt)
    | .tower => some (128 + i)
    | _ => some 132
/-- Ports that a slot of the schedule reserves. -/
def slotPorts (w : Nat → Nat) (n : Nat) : Nat := let v := w (n / 4)
  bits v (8 * (n % 4) + 4) (8 * (n % 4))
/-- The declared pairs of R437 in a captured set `g`: reason and detail of the first that fails. -/
def stgPairs (k b : Nat) (g : Reg → Nat → Nat) : Option (Nat × Nat) :=
  if 132 ≤ k then
    ((List.range 16).find? (fun n => decide (g .LCK_RGN_STRIDE n ≠ 0 ∧ g .LCK_RGN_STRIDE n < bits (g .LCK_RGN_LEN n) 23 0))).map (fun n => (0x60, n))
  else if 128 ≤ k then (let v := g .THM_DIS (k - 128)
    if bits v 7 4 ≤ bits v 3 0 then some (0x50, 0) else none)
  else match b with
    | 1 =>
      let c := g .MESH_CFG k
      let ports (n : Nat) : Nat := slotPorts (fun j => g .MESH_SLOT (64 * k + j)) n
      let frame := bits c 8 1
      let on := bitOf c 0
      let late := if on then (List.range 256).find? (fun n => decide (frame < n) && ports n != 0) else none
      let full := if on then (List.range 5).find? (fun p => (List.range (frame + 1)).all (fun n => bitOf (ports n) p)) else none
      let bridge := if tileY k = 0 ∨ tileY k = 3 then none else (List.range 256).find? (fun n => bitOf (ports n) 4)
      (match late, full, bridge with
       | some n, _, _ => some (0x30, n)
       | none, some p, _ => some (0x31, p)
       | none, none, some n => some (0x32, n)
       | none, none, none => none)
    | 2 =>
      let v := g .BSC_RING k
      let lg := bits v 12 9
      if lg < 4 ∨ 10 < lg ∨ 524288 < 1024 * bits v 8 0 + 64 + 64 * 2 ^ lg then some (0x10, 0) else none
    | 3 =>
      let lg := bits (g .FXR_CFG k) 3 0
      let a := 4096 * bits (g .FXR_BASE_LO k) 31 12 + 2 ^ 32 * bits (g .FXR_BASE_HI k) 6 0
      if lg < 4 ∨ 14 < lg ∨ a / 2 ^ 32 ≠ (a + 63 + 64 * 2 ^ lg) / 2 ^ 32 then some (0x20, 0) else none
    | 4 =>
      let v := g .TPW_TRIP k
      let gust := bits v 5 0
      let droop := bits v 13 8
      if droop < gust + 10 ∨ gust < 5 ∨ droop < 15 then some (0x40, 0) else none
    | _ => none
/-- Why a commit of a block is refused: no such block, a parity mismatch, a declared pair. -/
def State.stgVerdict (s : State) (k b : Nat) : Option (Nat × Nat) :=
  let l := stgRegs k b
  if l = [] then some (0x02, 0)
  else if l.any (fun x => s.parBad.contains (x.1.key x.2)) then some (0x01, 0)
  else stgPairs k b (fun r i => (s.rget r i).toNat)
/-- COMMIT (R434, R436). -/
def State.stgCommit (s : State) (k b : Nat) : State :=
  match s.stgVerdict k b with
  | some (code, detail) =>
    (s.rput .STG_RSN k (BitVec.ofNat 32 (code + 2 ^ 8 * b + 2 ^ 16 * (detail % 256) + 2 ^ 31))).eventBit F.STG_STAT_REFUSED k b
  | none =>
    let set := (stgRegs k b).map (fun x => (x.1.key x.2, s.rget x.1 x.2))
    ({ s with wset := SMap.put s.wset (8 * k + b) set } : State).stgShow k
/-- DISCARD (R436). -/
def State.stgDiscard (s : State) (k b : Nat) : State := ({ s with wset := SMap.del s.wset (8 * k + b) } : State).stgShow k
/-- A write of `STG_CTL`. -/
def State.stgCtl (s : State) (k : Nat) (w : Word) : State :=
  let b := bits w.toNat 2 0
  let s1 := (s.fput F.STG_CTL_BLOCK k b).fput F.STG_CTL_VIEW k (bits w.toNat 8 8)
  let s2 := if bitOf w.toNat 30 then s1.stgDiscard k b else s1
  if bitOf w.toNat 31 then s2.stgCommit k b else s2
/-- The quiet point of a block. -/
def State.stgQuiet (s : State) (k b : Nat) : Bool :=
  if 132 ≤ k then s.lck.due.isEmpty && s.disps.all (fun d => d.2.num.isNone)
  else if 128 ≤ k then true
  else match b with
    | 0 => s.disps.all (fun d => !d.2.running || !bitOf d.2.group k)
    | 1 => s.disps.all (fun d => !d.2.running || !bitOf d.2.group k)
    | 2 => !s.flag F.BSC_RING_EN k || (s.stop k).ringProd == s.fget F.BSC_RCONS_CONS k
    | 3 => !s.flag F.FXR_CFG_EN k
        || ((SMap.get s.fab.sends k []).isEmpty && s.peek8 (s.fxrBase k) % 2 ^ 32 == SMap.get s.fab.cons k 0)
    | _ => (s.tileDisp k).all (fun d => !d.2.running)
/-- A waiting set becomes the active set at the block's quiet point (R435). -/
def State.stgApply (s : State) (k b : Nat) : State :=
  match SMap.find s.wset (8 * k + b) with
  | none => s
  | some set =>
    if !s.stgQuiet k b then s
    else
      let s1 : State := { s with wset := SMap.del s.wset (8 * k + b), act := set.foldl (fun m x => SMap.put m x.1 x.2) s.act }
      (s1.stgShow k).eventBit F.STG_STAT_APPLIED k b

end Sys2Proof.Machine
end

