-- ==== Sys2Proof/Machine/Registers.lean ====
section
/-! DEFINITION. Register writes and the commands of the register conventions (R112, R149, R424 to R438). -/

namespace Sys2Proof.Machine

/-- The state that a meaning answers. -/
def Out.then_ (o : Out) (s : State) : State := match o with
  | .next t => t
  | _ => s

/-! ### Writes -/

/-- Each field of a register takes its part of `w` by its own class (R431). The hidden parity is made anew (R429, R430). -/
def State.fieldWrite (s : State) (f : Nat) (r : Reg) (i : Nat) (w : Word) : State :=
  let old := (s.rget r i).toNat
  let stop := s.regStopped r i
  let val (x : Field) : Nat := fieldRule r i x (bits w.toNat x.hi x.lo)
  let new := r.fields.foldl (fun a x => if x.acc = .rw && (stop || x.app != .frozen) then setBits a x.hi x.lo (val x) else a) old
  let s1 : State := { s.rput r i (BitVec.ofNat 32 new) with parBad := s.parBad.filter (· ≠ r.key i) }
  let s2 := match stgHome r i with
    | some k => s1.stgShow k
    | none => s1
  if !stop && r.fields.any (fun x => x.acc = .rw && x.app = .frozen && val x != bits old x.hi x.lo) then s2.frozenFlag f r i else s2
/-- A write that a core's area refuses (R149). -/
def State.areaDenied (s : State) (i : Nat) : State := s.event F.BSC_STAT_CA_DENY (i / 64)
/-- Bits of the base that lie below a window's size read as 0. -/
def State.winMask (s : State) (n : Nat) : State :=
  let lg := s.fget F.VRX_WIN_LO_SIZE_LOG2 n
  let lo := (s.rget .VRX_WIN_LO n).toNat
  let base := 2 ^ lg * ((2 ^ 20 * bits lo 31 20 + 2 ^ 32 * s.fget F.VRX_WIN_HI_BASE_HI n) / 2 ^ lg)
  (s.rput .VRX_WIN_LO n (BitVec.ofNat 32 (base % 2 ^ 32 + lo % 2 ^ 20))).fput F.VRX_WIN_HI_BASE_HI n (base / 2 ^ 32)

/-- A write of register `r` through the window of function `f`: `w` is the word that results from the bits written, `a` the bits written as 1,
which the W1 bits act on. Registers whose writes are rows of their own act as those rows. -/
def State.writeReg (s : State) (f : Nat) (r : Reg) (i : Nat) (w a : Word) (src : By) : State :=
  let host := src.isHost
  let v := w.toNat
  let on (b : Nat) : Bool := bitOf a.toNat b
  let fields (s : State) : State := s.fieldWrite f r i w
  let t : Fin 128 := Fin.ofNat 128 i
  let p : Fin 8 := Fin.ofNat 8 i
  let fn : Fin 257 := Fin.ofNat 257 f
  match r with
  | .MBX_CTL =>
    let m := i / r.place.cnt
    let s1 := fields s
    if on 31 then s1.mbxGo m (if s.mbxBusy m then s.fget F.MBX_CTL_CMD m else bits v 15 0) else s1
  | .CMD_QPSEL => if s.fget F.CMD_FQ_QCNT f ≤ bits v 13 0 then s.event F.CMD_STAT_CFG_ERR f else fields s
  | .CMD_QP_CFG => if bitOf v 0 then (execQpEnable fn w s).then_ s else (execQpDisable fn w s).then_ s
  | .CMD_FQ => (execCmdFqWrite (Fin.ofNat 257 i) w s).then_ s
  | .PCI_CFG =>
    let s1 := s.fieldWrite f r i (if host && s.conf then BitVec.ofNat 32 (setBits v 9 9 (s.fget F.PCI_CFG_IDE_REQ 0)) else w)
    if s1.hostOpen && !s.hostOpen then s1.hostOpened else s1
  | .PCI_DBG => s.dbgWrite w host
  | .BOOT_CFG => (execMinPortsWrite (Fin.ofNat 16 (bits v 3 0)) (fields s)).then_ s
  | .BOOT_CTL => if on 0 then (execClrSaved s).then_ s else s
  | .RST_CTL => if on 31 then (execResetRequest w (fields s)).then_ s else fields s
  | .PWR_CAP => (fields s).capShow
  | .ENR_CTL => (execEnrRun (bitOf v 0) s).then_ s
  | .ENR_REL_LO => (execEnrRelease w s).then_ s
  | .FWB_CTL => if on 0 then (execBootLoadGo s).then_ s else s
  | .KVM_CTL => if bitOf v 0 then (execKvmRun s).then_ s else (execKvmStop s).then_ s
  | .KVM_SWAP_LO =>
    let s1 := fields s
    if s1.linkUp && (s1.rget r i).toNat / 4096 = v / 4096 then s1.swapResume else s1
  | .KVM_SWAP_HI =>
    let s1 := fields s
    if s1.linkUp && s1.rget r i = w then s1.swapResume else s1
  | .LCK_CTL => (execLockstepEnable (bitOf v 0) s).then_ s
  | .LCK_DIV_PT => if on 31 then (execDivClear s).then_ s else s
  | .FAB_CFG =>
    let was := s.flag F.FAB_CFG_EN i
    let s1 := (fields s).fput F.FAB_CFG_EN i (b2n was)
    if bitOf v 0 = was then s1 else if bitOf v 0 then (execPortEnable p s1).then_ s else (execPortDisable p s1).then_ s
  | .FAB_CTL =>
    let s1 := if on 0 then (execPortRetrain p s).then_ s else s
    if on 1 then (execPortUnfence p s1).then_ s1 else s1
  | .VRX_CTL => (execVrxRun (bitOf v 0) s).then_ s
  | .VRX_WIN_LO => (fields s).winMask i
  | .VRX_WIN_HI => (fields s).winMask i
  | .THM_CTL => if on 0 then (execClrSuspect (Fin.ofNat 4 i) s).then_ s else s
  | .FLT_CFG => (fields s).errRefresh
  | .FLT_CTL => if on 0 then (execPinClr s).then_ s else s
  | .FLT_TACK => if on 0 then (execTrapAck src s).then_ s else s
  | .FLT_RXN => if srcTypes.contains i then fields s else s
  | .EDY_CTL => if on 31 then (execEdyRelease (BitVec.ofNat 16 v) s).then_ s else s
  | .TSEQ_CTL =>
    let s1 := if on 1 then (execIcacheInv t s).then_ s else s
    if on 0 then (execEngineFence t s1).then_ s1 else s1
  | .TSEQ_DMA => (execRestart t (BitVec.ofNat 8 (bits a.toNat 15 8)) s).then_ s
  | .SPM_OWN0 => (execSpmOwnerWrite t src false w s).then_ s
  | .SPM_OWN1 => (execSpmOwnerWrite t src true w s).then_ s
  | .SPM_SECURE => (execSpmSecureWrite t src w s).then_ s
  | .SPM_DMACOLL => (execSpmDmacollClr t (BitVec.ofNat 8 (bits a.toNat 15 8)) s).then_ s
  | .MXA_CTL => if on 0 then (execClrCnt t s).then_ s else s
  | .VCH_REF => if on 19 then (execVchRefClr t s).then_ s else s
  | .VCH_CAND => if on 30 then (execCandAck t s).then_ s else s
  | .VCH_REMAP =>
    let n : Fin 32 := Fin.ofNat 32 (i % 32)
    let u : Fin 128 := Fin.ofNat 128 (i / 32)
    if remapState v = 2 then (execRemapInstall u n w s).then_ s
    else if remapState v = 1 then (execRemapCopy u n w s).then_ s
    else s.remapWrite (i / 32) (i % 32) v id
  | .BSC_PSRC => if s.hostDenied host then s.event F.BSC_STAT_CA_DENY i else fields s
  | .BSC_PMASK0 => if s.hostDenied host then s.event F.BSC_STAT_CA_DENY i else fields s
  | .BSC_PMASK1 => if s.hostDenied host then s.event F.BSC_STAT_CA_DENY i else fields s
  | .BSC_PCTL => if s.hostDenied host then s.event F.BSC_STAT_CA_DENY i else if on 0 then (execBscProgramLoad t src s).then_ s else s
  | .BSC_CTRL_LO =>
    let u : Fin 128 := Fin.ofNat 128 (i / 64)
    let c : Fin 64 := Fin.ofNat 64 (i % 64)
    if s.hostDenied host then s.areaDenied i
    else
      let s1 := if s.coreBusy u c then s.areaDenied i else fields s
      let s2 := if on 16 then (execBscGo u c src s1).then_ s1 else s1
      if on 17 then (execBscStop u c src s2).then_ s2 else s2
  | .BSC_CTRL_HI => if s.hostDenied host || s.coreBusy (i / 64) (i % 64) then s.areaDenied i else fields s
  | .BSC_CTX => if s.hostDenied host || s.coreBusy (i / 64) (i % 64) then s.areaDenied i else fields s
  | .BSC_DATA_LO => if s.hostDenied host || s.coreBusy (i / 56 / 64) (i / 56 % 64) then s.areaDenied (i / 56) else fields s
  | .BSC_DATA_HI => if s.hostDenied host || s.coreBusy (i / 56 / 64) (i / 56 % 64) then s.areaDenied (i / 56) else fields s
  | .TPW_VMIN => if on 31 then (execVminClear t s).then_ s else s
  | .STG_CTL => s.stgCtl i w
  | _ => fields s

/-! ### Status registers (R426, R427) -/

/-- The register is a status register. -/
def Reg.isStatus (r : Reg) : Bool := r.fields.any (fun f => f.acc = .sqc)
/-- SQC_WRITE. -/
def execSqcWrite (f : Fin 257) (off : Nat) (w : Word) (s : State) : Out :=
  .next (match s.regAt f off with
    | none => s
    | some (r, i) => if !r.isStatus || !s.regStarted r i || s.regShut r i then s else s.sqcWrite r i w)

/-! ### The bit-alias window (R428) -/

/-- The core in whose command area an offset of BAR0 lies, when confidential mode ignores the host's writes of it (R149). -/
def State.areaRefused (s : State) (off : Nat) (src : By) : Option Nat :=
  if s.hostDenied src.isHost && 0x800000 ≤ off && off < 0x1000000 && 0x8000 ≤ off % 0x10000 then
    some (64 * ((off - 0x800000) / 0x10000) + (off % 0x10000 - 0x8000) / 512) else none

/-- One bit of the register at `off` is written. -/
def State.aliasWrite (s : State) (off b : Nat) (v : Bool) (src : By) : State :=
  match s.areaRefused off src, s.regAt 0 off with
  | some c, _ => s.areaDenied c
  | none, none => s
  | none, some (r, i) =>
    match r.fields.find? (fun x => decide (x.lo ≤ b ∧ b ≤ x.hi)) with
    | none => s
    | some x =>
      if !s.regStarted r i || s.regShut r i || x.acc = .ro then s
      else if x.acc = .sqc then s.event F.GLB_STAT_SQC_STALE 0
      else if x.acc = .w1 && !v then s
      else
        let old := (s.rget r i).toNat
        let bit := BitVec.ofNat 32 (if v then 2 ^ b else 0)
        s.writeReg 0 r i (BitVec.ofNat 32 (if v then setBit old b else clrBit old b)) bit src
/-- BIT_ALIAS_WRITE: word `word` of the window, at BAR0 0x0100_0000 + 4 × word. -/
def execBitAliasWrite (word : Fin 524288) (v : Bool) (src : By) (s : State) : Out :=
  .next (s.viaPort 0 src (s.aliasWrite (word.val / 32 * 4) (word.val % 32) v src))

/-! ### REGISTER_WRITE (R423, R424, R431) -/

/-- REGISTER_WRITE: the word at offset `off` of BAR0 of function `f`. A host's write must pass the PCIe port. -/
def execRegisterWrite (f : Fin 257) (off : Nat) (w : Word) (src : By) (s : State) : Out :=
  .next (s.settle (.registerWrite f off w src) fun s => s.viaPort f src (
    if off % 4 ≠ 0 then s.event F.GLB_STAT_ACC_ERR 0
    else if f.val = 0 && 0x1000000 ≤ off && off < 0x1200000 then s.aliasWrite ((off - 0x1000000) / 128 * 4) ((off - 0x1000000) / 4 % 32) (bitOf w.toNat 0) src
    else if f.val = 0 && 0x3000000 ≤ off && off < 0x3004000 then s.msixWrite 0 ((off - 0x3000000) / 4) w
    else if f.val ≠ 0 && 0x8000 ≤ off && off < 0x8040 then s.msixWrite f ((off - 0x8000) / 4) w
    else match if f.val = 0 then s.areaRefused off src else none, s.regAt f off with
      | some c, _ => s.areaDenied c
      | none, none => s
      | none, some (r, i) =>
        if !s.regStarted r i then s
        else if s.regShut r i then s.unsupported
        else if r.isStatus then s.sqcWrite r i w
        else s.writeReg f r i w w src))

/-! ### Parity, staged sets, device time, bad accesses -/

/-- PARITY_CHECK: the register at offset `off` of function `f`'s BAR0 holds an RW field and fails its hidden parity (R429, R430). -/
def execParityCheck (f : Fin 257) (off : Nat) (s : State) : Out :=
  .next (match s.regAt f off with
    | none => s
    | some (r, i) =>
      if !(r.fields.any (fun x => x.acc = .rw)) || !s.regStarted r i then s
      else
        let s1 : State := { s with parBad := if s.parBad.contains (r.key i) then s.parBad else s.parBad ++ [r.key i] }
        ((s1.event F.GLB_STAT_CFG_PARITY 0).rput .GLB_PAR_ADDR 0 (BitVec.ofNat 32 (off % 2 ^ 26 + 2 ^ 31))).raise 0x4E 0 off 0)
/-- STG_COMMIT: a write of `STG_CTL` of window `k` with COMMIT = 1 (R434). -/
def execStgCommit (k : Fin 133) (w : Word) (s : State) : Out :=
  .next (if s.regStarted .STG_CTL k && !s.regShut .STG_CTL k then s.stgCtl k (BitVec.ofNat 32 (setBit w.toNat 31)) else s)
/-- STG_DISCARD: a write of `STG_CTL` with DISCARD = 1 (R436). -/
def execStgDiscard (k : Fin 133) (w : Word) (s : State) : Out :=
  .next (if s.regStarted .STG_CTL k && !s.regShut .STG_CTL k then s.stgCtl k (BitVec.ofNat 32 (setBit w.toNat 30)) else s)
/-- STAGED_APPLY (R435). -/
def execStagedApply (k : Fin 133) (block : Fin 8) (s : State) : Out := .next (s.stgApply k block)
/-- GLB_TIME_LO_READ (R438). -/
def execGlbTimeLoRead (s : State) : Out :=
  .next ((s.rput .GLB_TIME_HI 0 (BitVec.ofNat 32 (s.clk.ns / 2 ^ 32))).answer (s.clk.ns % 2 ^ 32))
/-- BAR0_BAD_ACCESS: a read returns 0, a write changes nothing (R424). -/
def execBar0BadAccess (write : Bool) (s : State) : Out :=
  .next (let s1 := s.event F.GLB_STAT_ACC_ERR 0
    if write then s1 else s1.answer 0)

end Sys2Proof.Machine
end

