-- ==== Sys2Proof/Machine/Dispatch.lean ====
section
/-! DEFINITION. One arm per command: its meaning, called directly. -/

namespace Sys2Proof.Machine

/-- The effect of a command on everything but the queue. -/
def exec (i : Instr) (s : State) : Host.Outcome State Fault Refusal :=
  match i with
  | .salu t w => Sys2Proof.Machine.execSalu t w s
  | .saddi t w => Sys2Proof.Machine.execSaddi t w s
  | .slui t w => Sys2Proof.Machine.execSlui t w s
  | .sld t w => Sys2Proof.Machine.execSld t w s
  | .sst t w => Sys2Proof.Machine.execSst t w s
  | .br t w => Sys2Proof.Machine.execBr t w s
  | .jal t w => Sys2Proof.Machine.execJal t w s
  | .tret t w => Sys2Proof.Machine.execTret t w s
  | .brk t w => Sys2Proof.Machine.execBrk t w s
  | .mxs t w w1 w2 w3 => Sys2Proof.Machine.execMxs t w w1 w2 w3 s
  | .mxw t w => Sys2Proof.Machine.execMxw t w s
  | .mxwRelease t => Sys2Proof.Machine.execMxwRelease t s
  | .vop t w => Sys2Proof.Machine.execVop t w s
  | .vld t w => Sys2Proof.Machine.execVld t w s
  | .vst t w => Sys2Proof.Machine.execVst t w s
  | .dmaq t w => Sys2Proof.Machine.execDmaq t w s
  | .dmaw t w => Sys2Proof.Machine.execDmaw t w s
  | .tget t w => Sys2Proof.Machine.execTget t w s
  | .tdone t w => Sys2Proof.Machine.execTdone t w s
  | .tbar t w => Sys2Proof.Machine.execTbar t w s
  | .rdx t w => Sys2Proof.Machine.execRdx t w s
  | .halt t w => Sys2Proof.Machine.execHalt t w s
  | .sys t w => Sys2Proof.Machine.execSys t w s
  | .matrixDataTrap t => Sys2Proof.Machine.execMatrixDataTrap t s
  | .icacheInv t => Sys2Proof.Machine.execIcacheInv t s
  | .arrayStep t lane others => Sys2Proof.Machine.execArrayStep t lane others s
  | .shadowLoadComplete t => Sys2Proof.Machine.execShadowLoadComplete t s
  | .arrayFreezeLimit t => Sys2Proof.Machine.execArrayFreezeLimit t s
  | .clrCnt t => Sys2Proof.Machine.execClrCnt t s
  | .mxaFedLoRead t => Sys2Proof.Machine.execMxaFedLoRead t s
  | .dmaDescriptorStart t ch => Sys2Proof.Machine.execDmaDescriptorStart t ch s
  | .dmaReadResponse t ch pos row portA => Sys2Proof.Machine.execDmaReadResponse t ch pos row portA s
  | .restart t chans => Sys2Proof.Machine.execRestart t chans s
  | .dispatch qp idx => Sys2Proof.Machine.execDispatch qp idx s
  | .strictRelease d => Sys2Proof.Machine.execStrictRelease d s
  | .taskletQueueRefill t => Sys2Proof.Machine.execTaskletQueueRefill t s
  | .stealRequest thief victim => Sys2Proof.Machine.execStealRequest thief victim s
  | .stealReply thief victim => Sys2Proof.Machine.execStealReply thief victim s
  | .engineFence t => Sys2Proof.Machine.execEngineFence t s
  | .fenceComplete t => Sys2Proof.Machine.execFenceComplete t s
  | .fenceTimeout t => Sys2Proof.Machine.execFenceTimeout t s
  | .enginePacket t src ch addr cargo portA => Sys2Proof.Machine.execEnginePacket t src ch addr cargo portA s
  | .engineWake t => Sys2Proof.Machine.execEngineWake t s
  | .meshPacketInject src dst vc flits strict way => Sys2Proof.Machine.execMeshPacketInject src dst vc flits strict way s
  | .meshPacketHop k => Sys2Proof.Machine.execMeshPacketHop k s
  | .meshLinkError t dir => Sys2Proof.Machine.execMeshLinkError t dir s
  | .spmOwnerWrite t src hi v => Sys2Proof.Machine.execSpmOwnerWrite t src hi v s
  | .handoverComplete t bank => Sys2Proof.Machine.execHandoverComplete t bank s
  | .spmSecureWrite t src v => Sys2Proof.Machine.execSpmSecureWrite t src v s
  | .wipeComplete t bank => Sys2Proof.Machine.execWipeComplete t bank s
  | .spmPatrolRead t bank line => Sys2Proof.Machine.execSpmPatrolRead t bank line s
  | .spmCorrectedWriteback t word => Sys2Proof.Machine.execSpmCorrectedWriteback t word s
  | .spmDmacollClr t chans => Sys2Proof.Machine.execSpmDmacollClr t chans s
  | .vchRequest t off write src len data => Sys2Proof.Machine.execVchRequest t off write src len data s
  | .vchReadData t k ondie => Sys2Proof.Machine.execVchReadData t k ondie s
  | .pageTimeout t bank => Sys2Proof.Machine.execPageTimeout t bank s
  | .refreshDue t bank postpone => Sys2Proof.Machine.execRefreshDue t bank postpone s
  | .marginCheck t layer fails => Sys2Proof.Machine.execMarginCheck t layer fails s
  | .retrainWindow t layer ending result => Sys2Proof.Machine.execRetrainWindow t layer ending result s
  | .scrubRead t ondie => Sys2Proof.Machine.execScrubRead t ondie s
  | .bucketLeak t => Sys2Proof.Machine.execBucketLeak t s
  | .candAck t => Sys2Proof.Machine.execCandAck t s
  | .remapInstall t n v => Sys2Proof.Machine.execRemapInstall t n v s
  | .remapCopy t n v => Sys2Proof.Machine.execRemapCopy t n v s
  | .remapCopyDone t n => Sys2Proof.Machine.execRemapCopyDone t n s
  | .vchRefClr t => Sys2Proof.Machine.execVchRefClr t s
  | .bscProgramLoad t src => Sys2Proof.Machine.execBscProgramLoad t src s
  | .bscLoadDone t => Sys2Proof.Machine.execBscLoadDone t s
  | .bscGo t c src => Sys2Proof.Machine.execBscGo t c src s
  | .bscStop t c src => Sys2Proof.Machine.execBscStop t c src s
  | .bscRingPoll t => Sys2Proof.Machine.execBscRingPoll t s
  | .bscRingRecord t => Sys2Proof.Machine.execBscRingRecord t s
  | .bscTokenGrant t c => Sys2Proof.Machine.execBscTokenGrant t c s
  | .bscLeaseBegin t c => Sys2Proof.Machine.execBscLeaseBegin t c s
  | .bscCoreStart t c => Sys2Proof.Machine.execBscCoreStart t c s
  | .bscAlu t c => Sys2Proof.Machine.execBscAlu t c s
  | .bscAddi t c => Sys2Proof.Machine.execBscAddi t c s
  | .bscShi t c => Sys2Proof.Machine.execBscShi t c s
  | .bscBr t c => Sys2Proof.Machine.execBscBr t c s
  | .ldc t c => Sys2Proof.Machine.execLdc t c s
  | .stc t c => Sys2Proof.Machine.execStc t c s
  | .bscSys t c => Sys2Proof.Machine.execBscSys t c s
  | .ropen t c bc => Sys2Proof.Machine.execRopen t c bc s
  | .rclose t c bc => Sys2Proof.Machine.execRclose t c bc s
  | .rld t c ondie => Sys2Proof.Machine.execRld t c ondie s
  | .rst t c => Sys2Proof.Machine.execRst t c s
  | .exp t c => Sys2Proof.Machine.execExp t c s
  | .imp t c => Sys2Proof.Machine.execImp t c s
  | .yld t c => Sys2Proof.Machine.execYld t c s
  | .bscHalt t c bc => Sys2Proof.Machine.execBscHalt t c bc s
  | .bscExpWrite t c portA => Sys2Proof.Machine.execBscExpWrite t c portA s
  | .bscImpData t c reg => Sys2Proof.Machine.execBscImpData t c reg s
  | .bscPause t c why => Sys2Proof.Machine.execBscPause t c why s
  | .bscResume t c => Sys2Proof.Machine.execBscResume t c s
  | .bscLeaseLimit t c => Sys2Proof.Machine.execBscLeaseLimit t c s
  | .bscRunLimit t c => Sys2Proof.Machine.execBscRunLimit t c s
  | .seqOpen qp idx => Sys2Proof.Machine.execSeqOpen qp idx s
  | .seqStepBegin qp idx => Sys2Proof.Machine.execSeqStepBegin qp idx s
  | .seqStepEnd qp idx => Sys2Proof.Machine.execSeqStepEnd qp idx s
  | .seqClose qp idx => Sys2Proof.Machine.execSeqClose qp idx s
  | .pageZeroDone p => Sys2Proof.Machine.execPageZeroDone p s
  | .kvSwapOut qp idx => Sys2Proof.Machine.execKvSwapOut qp idx s
  | .swapPageWriteDone ctx => Sys2Proof.Machine.execSwapPageWriteDone ctx s
  | .kvSwapIn qp idx => Sys2Proof.Machine.execKvSwapIn qp idx s
  | .swapPageReadDone ctx data => Sys2Proof.Machine.execSwapPageReadDone ctx data s
  | .prefixPin qp idx => Sys2Proof.Machine.execPrefixPin qp idx s
  | .kvmRun => Sys2Proof.Machine.execKvmRun s
  | .kvmStop => Sys2Proof.Machine.execKvmStop s
  | .kvmInitDone => Sys2Proof.Machine.execKvmInitDone s
  | .portEnable p => Sys2Proof.Machine.execPortEnable p s
  | .portDisable p => Sys2Proof.Machine.execPortDisable p s
  | .trainAttemptSuccess p => Sys2Proof.Machine.execTrainAttemptSuccess p s
  | .trainAttemptTimeout p => Sys2Proof.Machine.execTrainAttemptTimeout p s
  | .linkLoss p => Sys2Proof.Machine.execLinkLoss p s
  | .fecLimit p ce ue => Sys2Proof.Machine.execFecLimit p ce ue s
  | .retrainRetry p => Sys2Proof.Machine.execRetrainRetry p s
  | .portRetrain p => Sys2Proof.Machine.execPortRetrain p s
  | .portUnfence p => Sys2Proof.Machine.execPortUnfence p s
  | .vrxRun v => Sys2Proof.Machine.execVrxRun v s
  | .frameRx p ok bytes => Sys2Proof.Machine.execFrameRx p ok bytes s
  | .vrxWrite peer msn => Sys2Proof.Machine.execVrxWrite peer msn s
  | .readReq peer msn => Sys2Proof.Machine.execReadReq peer msn s
  | .readRsp peer msn => Sys2Proof.Machine.execReadRsp peer msn s
  | .fetchAdd peer msn => Sys2Proof.Machine.execFetchAdd peer msn s
  | .fetchRsp peer msn => Sys2Proof.Machine.execFetchRsp peer msn s
  | .tokDispatch peer msn slot => Sys2Proof.Machine.execTokDispatch peer msn slot s
  | .tokNack peer msn => Sys2Proof.Machine.execTokNack peer msn s
  | .creditMsg peer msn grant => Sys2Proof.Machine.execCreditMsg peer msn grant s
  | .vrxAck peer => Sys2Proof.Machine.execVrxAck peer s
  | .vrxOpen peer => Sys2Proof.Machine.execVrxOpen peer s
  | .openAck peer => Sys2Proof.Machine.execOpenAck peer s
  | .genMsg peer msn => Sys2Proof.Machine.execGenMsg peer msn s
  | .genMark peer msn => Sys2Proof.Machine.execGenMark peer msn s
  | .keyxHello peer msn => Sys2Proof.Machine.execKeyxHello peer msn s
  | .keyxQuote peer msn => Sys2Proof.Machine.execKeyxQuote peer msn s
  | .keyxEncap peer msn => Sys2Proof.Machine.execKeyxEncap peer msn s
  | .keyxKey peer msn => Sys2Proof.Machine.execKeyxKey peer msn s
  | .keyxKeyAck peer msn => Sys2Proof.Machine.execKeyxKeyAck peer msn s
  | .vrxTime peer msn => Sys2Proof.Machine.execVrxTime peer msn s
  | .lstepDigest peer msn => Sys2Proof.Machine.execLstepDigest peer msn s
  | .fwChunk peer msn => Sys2Proof.Machine.execFwChunk peer msn s
  | .fwReq peer msn => Sys2Proof.Machine.execFwReq peer msn s
  | .fwActivationMark peer msn => Sys2Proof.Machine.execFwActivationMark peer msn s
  | .ackTimer peer => Sys2Proof.Machine.execAckTimer peer s
  | .retransmitTimeout peer psn => Sys2Proof.Machine.execRetransmitTimeout peer psn s
  | .peerReopen peer => Sys2Proof.Machine.execPeerReopen peer s
  | .creditGrantExpiry peer mine => Sys2Proof.Machine.execCreditGrantExpiry peer mine s
  | .noKeyTimeout peer => Sys2Proof.Machine.execNoKeyTimeout peer s
  | .fxrRingPoll t => Sys2Proof.Machine.execFxrRingPoll t s
  | .sendMessage t k => Sys2Proof.Machine.execSendMessage t k s
  | .tokenRecordWrite expert => Sys2Proof.Machine.execTokenRecordWrite expert s
  | .peerRemoveDone peer => Sys2Proof.Machine.execPeerRemoveDone peer s
  | .fabRekey p => Sys2Proof.Machine.execFabRekey p s
  | .oldKeyExpiry peer port idx => Sys2Proof.Machine.execOldKeyExpiry peer port idx s
  | .expertMap qp idx => Sys2Proof.Machine.execExpertMap qp idx s
  | .cmdPollTick => Sys2Proof.Machine.execCmdPollTick s
  | .idleInterval => Sys2Proof.Machine.execIdleInterval s
  | .nudge r => Sys2Proof.Machine.execNudge r s
  | .summaryReadDone f r sum => Sys2Proof.Machine.execSummaryReadDone f r sum s
  | .doorbellReadDone qp r prod cons => Sys2Proof.Machine.execDoorbellReadDone qp r prod cons s
  | .descriptorFetchDone qp r bytes => Sys2Proof.Machine.execDescriptorFetchDone qp r bytes s
  | .coalesceTimeout qp => Sys2Proof.Machine.execCoalesceTimeout qp s
  | .copyRows qp idx portA => Sys2Proof.Machine.execCopyRows qp idx portA s
  | .fenceQueue qp idx => Sys2Proof.Machine.execFenceQueue qp idx s
  | .fenceFunction qp idx => Sys2Proof.Machine.execFenceFunction qp idx s
  | .fenceValue qp idx => Sys2Proof.Machine.execFenceValue qp idx s
  | .fenceValuePoll qp idx => Sys2Proof.Machine.execFenceValuePoll qp idx s
  | .fenceValueTimeout qp idx => Sys2Proof.Machine.execFenceValueTimeout qp idx s
  | .hintCmd qp idx => Sys2Proof.Machine.execHintCmd qp idx s
  | .receiptFetch qp idx => Sys2Proof.Machine.execReceiptFetch qp idx s
  | .attestQuote qp idx => Sys2Proof.Machine.execAttestQuote qp idx s
  | .attestLog qp idx => Sys2Proof.Machine.execAttestLog qp idx s
  | .attestManifest qp idx => Sys2Proof.Machine.execAttestManifest qp idx s
  | .fwStageChunk qp idx => Sys2Proof.Machine.execFwStageChunk qp idx s
  | .fwStageActivate qp idx => Sys2Proof.Machine.execFwStageActivate qp idx s
  | .fwStageAbort qp idx => Sys2Proof.Machine.execFwStageAbort qp idx s
  | .qpEnable f w => Sys2Proof.Machine.execQpEnable f w s
  | .qpDisable f w => Sys2Proof.Machine.execQpDisable f w s
  | .cmdFqWrite f w => Sys2Proof.Machine.execCmdFqWrite f w s
  | .perstAssert => Sys2Proof.Machine.execPerstAssert s
  | .perstDeassert => Sys2Proof.Machine.execPerstDeassert s
  | .linkDown => Sys2Proof.Machine.execLinkDown s
  | .linkUp speed width flit => Sys2Proof.Machine.execLinkUp speed width flit s
  | .functionLevelReset f => Sys2Proof.Machine.execFunctionLevelReset f s
  | .vfEnableClear => Sys2Proof.Machine.execVfEnableClear s
  | .configRequest f off w => Sys2Proof.Machine.execConfigRequest f off w s
  | .bar4Read at_ n => Sys2Proof.Machine.execBar4Read at_ n s
  | .bar4Write at_ data => Sys2Proof.Machine.execBar4Write at_ data s
  | .pciDbgWrite w src => Sys2Proof.Machine.execPciDbgWrite w src s
  | .ideStreamFail k => Sys2Proof.Machine.execIdeStreamFail k s
  | .dStateChange f d3 => Sys2Proof.Machine.execDStateChange f d3 s
  | .governorSample t cur demand edges code => Sys2Proof.Machine.execGovernorSample t cur demand edges code s
  | .operatingPointChange t => Sys2Proof.Machine.execOperatingPointChange t s
  | .gustDischarge t g => Sys2Proof.Machine.execGustDischarge t g s
  | .droopSlowdown d => Sys2Proof.Machine.execDroopSlowdown d s
  | .droopEnd d => Sys2Proof.Machine.execDroopEnd d s
  | .vminClear t => Sys2Proof.Machine.execVminClear t s
  | .engineUndervoltage t => Sys2Proof.Machine.execEngineUndervoltage t s
  | .railOvercurrent above => Sys2Proof.Machine.execRailOvercurrent above s
  | .domainOverload group above => Sys2Proof.Machine.execDomainOverload group above s
  | .capStep avg other demand cost heavy light => Sys2Proof.Machine.execCapStep avg other demand cost heavy light s
  | .peakClamp w long => Sys2Proof.Machine.execPeakClamp w long s
  | .peakClampEnd w => Sys2Proof.Machine.execPeakClampEnd w s
  | .phaseEnd k => Sys2Proof.Machine.execPhaseEnd k s
  | .hintPhaseBegin k => Sys2Proof.Machine.execHintPhaseBegin k s
  | .reservationEnd k => Sys2Proof.Machine.execReservationEnd k s
  | .domainSwitchOn t rail => Sys2Proof.Machine.execDomainSwitchOn t rail s
  | .forcedSwitchOn t => Sys2Proof.Machine.execForcedSwitchOn t s
  | .sensorSample w sensor v pred => Sys2Proof.Machine.execSensorSample w sensor v pred s
  | .thmModelUpdate w es fs => Sys2Proof.Machine.execThmModelUpdate w es fs s
  | .thermalCapRise => Sys2Proof.Machine.execThermalCapRise s
  | .coolantCapUpdate => Sys2Proof.Machine.execCoolantCapUpdate s
  | .flowCount => Sys2Proof.Machine.execFlowCount s
  | .flowPulse => Sys2Proof.Machine.execFlowPulse s
  | .coolantLossTimeout => Sys2Proof.Machine.execCoolantLossTimeout s
  | .coolantDrain => Sys2Proof.Machine.execCoolantDrain s
  | .coolantShutdown m k => Sys2Proof.Machine.execCoolantShutdown m k s
  | .flowRestored => Sys2Proof.Machine.execFlowRestored s
  | .clrSuspect w => Sys2Proof.Machine.execClrSuspect w s
  | .thermAlertRelease => Sys2Proof.Machine.execThermAlertRelease s
  | .lull1Entry t => Sys2Proof.Machine.execLull1Entry t s
  | .lull2Entry t => Sys2Proof.Machine.execLull2Entry t s
  | .sentryEntry sums prods => Sys2Proof.Machine.execSentryEntry sums prods s
  | .sentrySample sums prods => Sys2Proof.Machine.execSentrySample sums prods s
  | .meterFail id => Sys2Proof.Machine.execMeterFail id s
  | .periodEnd m => Sys2Proof.Machine.execPeriodEnd m s
  | .ledgerFlush => Sys2Proof.Machine.execLedgerFlush s
  | .receiptTake => Sys2Proof.Machine.execReceiptTake s
  | .receiptWaitExpiry qp idx => Sys2Proof.Machine.execReceiptWaitExpiry qp idx s
  | .batchClose => Sys2Proof.Machine.execBatchClose s
  | .batchSign b => Sys2Proof.Machine.execBatchSign b s
  | .reconcile => Sys2Proof.Machine.execReconcile s
  | .enrRun v => Sys2Proof.Machine.execEnrRun v s
  | .enrRelease lo => Sys2Proof.Machine.execEnrRelease lo s
  | .lcChange => Sys2Proof.Machine.execLcChange s
  | .svnCommit => Sys2Proof.Machine.execSvnCommit s
  | .confSet => Sys2Proof.Machine.execConfSet s
  | .progLoad => Sys2Proof.Machine.execProgLoad s
  | .sessionOpen => Sys2Proof.Machine.execSessionOpen s
  | .sessionClose => Sys2Proof.Machine.execSessionClose s
  | .mbxQuote => Sys2Proof.Machine.execMbxQuote s
  | .mbxInfo => Sys2Proof.Machine.execMbxInfo s
  | .mbxManifest => Sys2Proof.Machine.execMbxManifest s
  | .calRead => Sys2Proof.Machine.execCalRead s
  | .tamper src => Sys2Proof.Machine.execTamper src s
  | .spdmMessage msg => Sys2Proof.Machine.execSpdmMessage msg s
  | .lockstepEnable v => Sys2Proof.Machine.execLockstepEnable v s
  | .digestDone num => Sys2Proof.Machine.execDigestDone num s
  | .lockstepTimeout num => Sys2Proof.Machine.execLockstepTimeout num s
  | .divClear => Sys2Proof.Machine.execDivClear s
  | .stage0 good bad => Sys2Proof.Machine.execStage0 good bad s
  | .stage1 bad => Sys2Proof.Machine.execStage1 bad s
  | .stage2 => Sys2Proof.Machine.execStage2 s
  | .stage3 temp islands domains other => Sys2Proof.Machine.execStage3 temp islands domains other s
  | .stage4 all full => Sys2Proof.Machine.execStage4 all full s
  | .stage5 repairs bad => Sys2Proof.Machine.execStage5 repairs bad s
  | .stage6 failed => Sys2Proof.Machine.execStage6 failed s
  | .stage7 failed => Sys2Proof.Machine.execStage7 failed s
  | .stage8 => Sys2Proof.Machine.execStage8 s
  | .stage9 => Sys2Proof.Machine.execStage9 s
  | .minPortsWrite v => Sys2Proof.Machine.execMinPortsWrite v s
  | .clrSaved => Sys2Proof.Machine.execClrSaved s
  | .bootLoadGo => Sys2Proof.Machine.execBootLoadGo s
  | .bootTimeout => Sys2Proof.Machine.execBootTimeout s
  | .serviceHandoverReady => Sys2Proof.Machine.execServiceHandoverReady s
  | .microcodeEngineLoad t ok => Sys2Proof.Machine.execMicrocodeEngineLoad t ok s
  | .fwRepairGap => Sys2Proof.Machine.execFwRepairGap s
  | .fwMarkRequest => Sys2Proof.Machine.execFwMarkRequest s
  | .resetRequest w => Sys2Proof.Machine.execResetRequest w s
  | .resetWorkDone => Sys2Proof.Machine.execResetWorkDone s
  | .resetWorkTimeout => Sys2Proof.Machine.execResetWorkTimeout s
  | .resetBoundaryEmpty => Sys2Proof.Machine.execResetBoundaryEmpty s
  | .resetDeadline => Sys2Proof.Machine.execResetDeadline s
  | .resetScopeReady => Sys2Proof.Machine.execResetScopeReady s
  | .moduleReset => Sys2Proof.Machine.execModuleReset s
  | .raiseSend u => Sys2Proof.Machine.execRaiseSend u s
  | .faultRaise => Sys2Proof.Machine.execFaultRaise s
  | .conditionReraise src => Sys2Proof.Machine.execConditionReraise src s
  | .quietExpiry src => Sys2Proof.Machine.execQuietExpiry src s
  | .trapAck src => Sys2Proof.Machine.execTrapAck src s
  | .trapTimeout => Sys2Proof.Machine.execTrapTimeout s
  | .pinClr => Sys2Proof.Machine.execPinClr s
  | .edyRelease key => Sys2Proof.Machine.execEdyRelease key s
  | .logInfo => Sys2Proof.Machine.execLogInfo s
  | .logRead index count => Sys2Proof.Machine.execLogRead index count s
  | .logRelease key => Sys2Proof.Machine.execLogRelease key s
  | .faultRead src => Sys2Proof.Machine.execFaultRead src s
  | .capSet w => Sys2Proof.Machine.execCapSet w s
  | .sqcWrite f off w => Sys2Proof.Machine.execSqcWrite f off w s
  | .bitAliasWrite word v src => Sys2Proof.Machine.execBitAliasWrite word v src s
  | .parityCheck f off => Sys2Proof.Machine.execParityCheck f off s
  | .stgCommit k w => Sys2Proof.Machine.execStgCommit k w s
  | .stgDiscard k w => Sys2Proof.Machine.execStgDiscard k w s
  | .stagedApply k block => Sys2Proof.Machine.execStagedApply k block s
  | .glbTimeLoRead => Sys2Proof.Machine.execGlbTimeLoRead s
  | .bar0BadAccess write => Sys2Proof.Machine.execBar0BadAccess write s
  | .registerWrite f off w src => Sys2Proof.Machine.execRegisterWrite f off w src s
  | .inputPowerUp => Sys2Proof.Machine.execInputPowerUp s
  | .inputBelow38v => Sys2Proof.Machine.execInputBelow38v s
  | .inputOvervoltage => Sys2Proof.Machine.execInputOvervoltage s
  | .inputReconnect => Sys2Proof.Machine.execInputReconnect s
  | .pwrEnRise => Sys2Proof.Machine.execPwrEnRise s
  | .pwrEnFall m k => Sys2Proof.Machine.execPwrEnFall m k s
  | .handoverReadyTimeout => Sys2Proof.Machine.execHandoverReadyTimeout s
  | .syncInterval => Sys2Proof.Machine.execSyncInterval s
  | .slotReturn expert => Sys2Proof.Machine.execSlotReturn expert s
  | .hostReadCompletion r ok data portA => Sys2Proof.Machine.execHostReadCompletion r ok data portA s

end Sys2Proof.Machine
end

