-- ==== Sys2Proof/Machine/Time.lean ====
section
/-! DEFINITION. The clocks at a tick (R8, R22, R236). -/

namespace Sys2Proof.Machine

/-- One mesh cycle of 2/3 ns: the count of R80 and device time advance, and a correction that the time sync owes is slewed by at most 1 ns in
5,000. A module without its converters keeps no time. -/
def State.tick (s : State) : State :=
  if !s.brd.on then s
  else
    let m := s.clk.mc + 1
    let d := m * 2 / 3 - s.clk.mc * 2 / 3
    let x := if m % 7500 ≠ 0 || s.fab.owed = 0 then 0 else if 0 < s.fab.owed then 1 else (-1 : Int)
    { s with clk := { s.clk with mc := m, ns := ((s.clk.ns + d : Nat) + x).toNat }, fab := { s.fab with owed := s.fab.owed - x } }

end Sys2Proof.Machine
end

