-- ==== Sys2Proof/WellFormed.lean ====
section
/-! DEFINITION. Which commands are well formed: operand words of the row's own opcode (or of an opcode the sequencer does
not know, which traps), operands inside the ranges that the spec gives them. -/

namespace Sys2Proof

open Sys2Proof.Machine

/-- The tile opcodes of R60. -/
def tileOpcodes : List Nat := [0, 1, 2, 3, 4, 0x10, 0x11, 0x12, 0x13, 0x18, 0x19, 0x20, 0x21, 0x22, 0x30, 0x31, 0x34, 0x35, 0x36, 0x37,
  0x38, 0x39]
/-- The word carries this opcode, or one that no row of R60 defines. -/
def opcOk (k : Nat) (w : Word) : Bool :=
  decide (bits w.toNat 31 26 = k) || !(tileOpcodes.contains (bits w.toNat 31 26))
/-- A global queue pair of R239. -/
def qpOk (q : Nat) : Bool := decide (q < 16384)
/-- A peer table index. -/
def peerOk (p : Nat) : Bool := decide (p < 16384)

/-- Well-formed commands. -/
def Instr.wf : Instr → Bool
  | .salu _ w => opcOk 0x0 w
  | .saddi _ w => opcOk 0x1 w
  | .slui _ w => opcOk 0x2 w
  | .sld _ w => opcOk 0x3 w
  | .sst _ w => opcOk 0x4 w
  | .br _ w => opcOk 0x10 w
  | .jal _ w => opcOk 0x11 w
  | .tret _ w => opcOk 0x12 w
  | .brk _ w => opcOk 0x13 w
  | .mxs _ w _ _ _ => opcOk 0x18 w
  | .mxw _ w => opcOk 0x19 w
  | .mxwRelease _ => true
  | .vop _ w => opcOk 0x20 w
  | .vld _ w => opcOk 0x21 w
  | .vst _ w => opcOk 0x22 w
  | .dmaq _ w => opcOk 0x30 w
  | .dmaw _ w => opcOk 0x31 w
  | .tget _ w => opcOk 0x34 w
  | .tdone _ w => opcOk 0x35 w
  | .tbar _ w => opcOk 0x36 w
  | .rdx _ w => opcOk 0x37 w
  | .halt _ w => opcOk 0x38 w
  | .sys _ w => opcOk 0x39 w
  | .matrixDataTrap _ => true
  | .icacheInv _ => true
  | .arrayStep _ _ _ => true
  | .shadowLoadComplete _ => true
  | .arrayFreezeLimit _ => true
  | .clrCnt _ => true
  | .mxaFedLoRead _ => true
  | .dmaDescriptorStart _ _ => true
  | .dmaReadResponse _ _ _ _ _ => true
  | .restart _ _ => true
  | .dispatch qp _ => qpOk qp
  | .strictRelease _ => true
  | .taskletQueueRefill _ => true
  | .stealRequest thief victim => decide (thief ≠ victim)
  | .stealReply thief victim => decide (thief ≠ victim)
  | .engineFence _ => true
  | .fenceComplete _ => true
  | .fenceTimeout _ => true
  | .enginePacket _ _ _ addr _ _ => decide (addr < 2 ^ 23)
  | .engineWake _ => true
  | .meshPacketInject src dst vc flits _ _ => decide (src ≠ dst ∧ 1 ≤ flits ∧ flits ≤ 33 ∧ (vc.val % 2 = 0 → flits = 1))
  | .meshPacketHop _ => true
  | .meshLinkError _ _ => true
  | .spmOwnerWrite _ _ _ _ => true
  | .handoverComplete _ _ => true
  | .spmSecureWrite _ _ _ => true
  | .wipeComplete _ _ => true
  | .spmPatrolRead _ _ _ => true
  | .spmCorrectedWriteback _ _ => true
  | .spmDmacollClr _ _ => true
  | .vchRequest _ off write _ len data => decide (1 ≤ len ∧ off.toNat % 256 + len ≤ 256 ∧ (write = true → data.length = len))
  | .vchReadData _ _ _ => true
  | .pageTimeout _ _ => true
  | .refreshDue _ _ _ => true
  | .marginCheck _ _ _ => true
  | .retrainWindow _ _ _ _ => true
  | .scrubRead _ _ => true
  | .bucketLeak _ => true
  | .candAck _ => true
  | .remapInstall _ _ v => decide (bits v.toNat 25 24 = 2)
  | .remapCopy _ _ v => decide (bits v.toNat 25 24 = 1)
  | .remapCopyDone _ _ => true
  | .vchRefClr _ => true
  | .bscProgramLoad _ _ => true
  | .bscLoadDone _ => true
  | .bscGo _ _ _ => true
  | .bscStop _ _ _ => true
  | .bscRingPoll _ => true
  | .bscRingRecord _ => true
  | .bscTokenGrant _ _ => true
  | .bscLeaseBegin _ _ => true
  | .bscCoreStart _ _ => true
  | .bscAlu _ _ => true
  | .bscAddi _ _ => true
  | .bscShi _ _ => true
  | .bscBr _ _ => true
  | .ldc _ _ => true
  | .stc _ _ => true
  | .bscSys _ _ => true
  | .ropen _ _ bc => decide (1 ≤ bc ∧ bc ≤ 11)
  | .rclose _ _ bc => decide (1 ≤ bc ∧ bc ≤ 12)
  | .rld _ _ _ => true
  | .rst _ _ => true
  | .exp _ _ => true
  | .imp _ _ => true
  | .yld _ _ => true
  | .bscHalt _ _ bc => decide (1 ≤ bc ∧ bc ≤ 13)
  | .bscExpWrite _ _ _ => true
  | .bscImpData _ _ _ => true
  | .bscPause _ _ _ => true
  | .bscResume _ _ => true
  | .bscLeaseLimit _ _ => true
  | .bscRunLimit _ _ => true
  | .seqOpen qp _ => qpOk qp
  | .seqStepBegin qp _ => qpOk qp
  | .seqStepEnd qp _ => qpOk qp
  | .seqClose qp _ => qpOk qp
  | .pageZeroDone p => decide (p < 2 ^ 24)
  | .kvSwapOut qp _ => qpOk qp
  | .swapPageWriteDone ctx => decide (ctx < 2 ^ 20)
  | .kvSwapIn qp _ => qpOk qp
  | .swapPageReadDone ctx _ => decide (ctx < 2 ^ 20)
  | .prefixPin qp _ => qpOk qp
  | .kvmRun => true
  | .kvmStop => true
  | .kvmInitDone => true
  | .portEnable _ => true
  | .portDisable _ => true
  | .trainAttemptSuccess _ => true
  | .trainAttemptTimeout _ => true
  | .linkLoss _ => true
  | .fecLimit _ _ _ => true
  | .retrainRetry _ => true
  | .portRetrain _ => true
  | .portUnfence _ => true
  | .vrxRun _ => true
  | .frameRx _ _ _ => true
  | .vrxWrite peer _ => peerOk peer
  | .readReq peer _ => peerOk peer
  | .readRsp peer _ => peerOk peer
  | .fetchAdd peer _ => peerOk peer
  | .fetchRsp peer _ => peerOk peer
  | .tokDispatch peer _ _ => peerOk peer
  | .tokNack peer _ => peerOk peer
  | .creditMsg peer _ _ => peerOk peer
  | .vrxAck peer => peerOk peer
  | .vrxOpen peer => peerOk peer
  | .openAck peer => peerOk peer
  | .genMsg peer _ => peerOk peer
  | .genMark peer _ => peerOk peer
  | .keyxHello peer _ => peerOk peer
  | .keyxQuote peer _ => peerOk peer
  | .keyxEncap peer _ => peerOk peer
  | .keyxKey peer _ => peerOk peer
  | .keyxKeyAck peer _ => peerOk peer
  | .vrxTime peer _ => peerOk peer
  | .lstepDigest peer _ => peerOk peer
  | .fwChunk peer _ => peerOk peer
  | .fwReq peer _ => peerOk peer
  | .fwActivationMark peer _ => peerOk peer
  | .ackTimer peer => peerOk peer
  | .retransmitTimeout peer _ => peerOk peer
  | .peerReopen peer => peerOk peer
  | .creditGrantExpiry peer _ => peerOk peer
  | .noKeyTimeout peer => peerOk peer
  | .fxrRingPoll _ => true
  | .sendMessage _ _ => true
  | .tokenRecordWrite _ => true
  | .peerRemoveDone peer => peerOk peer
  | .fabRekey _ => true
  | .oldKeyExpiry peer _ _ => peerOk peer
  | .expertMap qp _ => qpOk qp
  | .cmdPollTick => true
  | .idleInterval => true
  | .nudge _ => true
  | .summaryReadDone _ _ _ => true
  | .doorbellReadDone qp _ _ _ => qpOk qp
  | .descriptorFetchDone qp _ bytes => qpOk qp && decide (bytes.length % 128 = 0 ∧ bytes.length ≤ 1024)
  | .coalesceTimeout qp => qpOk qp
  | .copyRows qp _ _ => qpOk qp
  | .fenceQueue qp _ => qpOk qp
  | .fenceFunction qp _ => qpOk qp
  | .fenceValue qp _ => qpOk qp
  | .fenceValuePoll qp _ => qpOk qp
  | .fenceValueTimeout qp _ => qpOk qp
  | .hintCmd qp _ => qpOk qp
  | .receiptFetch qp _ => qpOk qp
  | .attestQuote qp _ => qpOk qp
  | .attestLog qp _ => qpOk qp
  | .attestManifest qp _ => qpOk qp
  | .fwStageChunk qp _ => qpOk qp
  | .fwStageActivate qp _ => qpOk qp
  | .fwStageAbort qp _ => qpOk qp
  | .qpEnable _ _ => true
  | .qpDisable _ _ => true
  | .cmdFqWrite _ _ => true
  | .perstAssert => true
  | .perstDeassert => true
  | .linkDown => true
  | .linkUp speed width flit => decide (1 ≤ speed ∧ speed ≤ 6) && [1, 2, 4, 8, 16].contains width && (flit || decide (speed < 6))
  | .functionLevelReset _ => true
  | .vfEnableClear => true
  | .configRequest _ off _ => decide (off < 4096 ∧ off % 4 = 0)
  | .bar4Read a n => decide (1 ≤ n ∧ n ≤ 4096 ∧ a.off + n ≤ 2 ^ 33)
  | .bar4Write a data => decide (1 ≤ data.length ∧ data.length ≤ 512 ∧ a.off + data.length ≤ 2 ^ 33)
  | .pciDbgWrite _ _ => true
  | .ideStreamFail _ => true
  | .dStateChange _ _ => true
  | .governorSample _ _ _ _ _ => true
  | .operatingPointChange _ => true
  | .gustDischarge _ _ => true
  | .droopSlowdown _ => true
  | .droopEnd _ => true
  | .vminClear _ => true
  | .engineUndervoltage _ => true
  | .railOvercurrent _ => true
  | .domainOverload _ _ => true
  | .capStep _ _ demand cost _ _ => decide (demand.length = 128 ∧ cost.length = 128) && cost.all (fun x => decide (0 < x))
  | .peakClamp _ _ => true
  | .peakClampEnd _ => true
  | .phaseEnd _ => true
  | .hintPhaseBegin _ => true
  | .reservationEnd _ => true
  | .domainSwitchOn _ _ => true
  | .forcedSwitchOn _ => true
  | .sensorSample _ _ _ _ => true
  | .thmModelUpdate _ es fs => decide (es.length = 576 ∧ fs.length = 576)
  | .thermalCapRise => true
  | .coolantCapUpdate => true
  | .flowCount => true
  | .flowPulse => true
  | .coolantLossTimeout => true
  | .coolantDrain => true
  | .coolantShutdown _ _ => true
  | .flowRestored => true
  | .clrSuspect _ => true
  | .thermAlertRelease => true
  | .lull1Entry _ => true
  | .lull2Entry _ => true
  | .sentryEntry _ _ => true
  | .sentrySample _ _ => true
  | .meterFail _ => true
  | .periodEnd _ => true
  | .ledgerFlush => true
  | .receiptTake => true
  | .receiptWaitExpiry qp _ => qpOk qp
  | .batchClose => true
  | .batchSign _ => true
  | .reconcile => true
  | .enrRun _ => true
  | .enrRelease _ => true
  | .lcChange => true
  | .svnCommit => true
  | .confSet => true
  | .progLoad => true
  | .sessionOpen => true
  | .sessionClose => true
  | .mbxQuote => true
  | .mbxInfo => true
  | .mbxManifest => true
  | .calRead => true
  | .tamper _ => true
  | .spdmMessage _ => true
  | .lockstepEnable _ => true
  | .digestDone _ => true
  | .lockstepTimeout _ => true
  | .divClear => true
  | .stage0 _ _ => true
  | .stage1 _ => true
  | .stage2 => true
  | .stage3 _ _ _ _ => true
  | .stage4 _ _ => true
  | .stage5 _ _ => true
  | .stage6 _ => true
  | .stage7 _ => true
  | .stage8 => true
  | .stage9 => true
  | .minPortsWrite _ => true
  | .clrSaved => true
  | .bootLoadGo => true
  | .bootTimeout => true
  | .serviceHandoverReady => true
  | .microcodeEngineLoad _ _ => true
  | .fwRepairGap => true
  | .fwMarkRequest => true
  | .resetRequest _ => true
  | .resetWorkDone => true
  | .resetWorkTimeout => true
  | .resetBoundaryEmpty => true
  | .resetDeadline => true
  | .resetScopeReady => true
  | .moduleReset => true
  | .raiseSend _ => true
  | .faultRaise => true
  | .conditionReraise src => decide (src < 65536)
  | .quietExpiry src => decide (src < 65536)
  | .trapAck _ => true
  | .trapTimeout => true
  | .pinClr => true
  | .edyRelease _ => true
  | .logInfo => true
  | .logRead _ _ => true
  | .logRelease _ => true
  | .faultRead _ => true
  | .capSet _ => true
  | .sqcWrite _ off _ => decide (off < 2 ^ 26 ∧ off % 4 = 0)
  | .bitAliasWrite _ _ _ => true
  | .parityCheck _ off => decide (off < 2 ^ 26 ∧ off % 4 = 0)
  | .stgCommit _ _ => true
  | .stgDiscard _ _ => true
  | .stagedApply _ _ => true
  | .glbTimeLoRead => true
  | .bar0BadAccess _ => true
  | .registerWrite _ off _ _ => decide (off < 2 ^ 26 ∧ off % 4 = 0)
  | .inputPowerUp => true
  | .inputBelow38v => true
  | .inputOvervoltage => true
  | .inputReconnect => true
  | .pwrEnRise => true
  | .pwrEnFall _ _ => true
  | .handoverReadyTimeout => true
  | .syncInterval => true
  | .slotReturn _ => true
  | .hostReadCompletion _ _ _ _ => true

end Sys2Proof
end

