-- ==== Sys2Proof/Laws/PerInstr.lean ====
section
/-! SUPPORT. Laws stated for each command: the 14-bit indices of a well-formed command. -/

namespace Sys2Proof.Laws

/-- The queue pair or the peer that a command names: an index of 14 bits in both tables (R216, R239). -/
def index14 : Instr → Option Nat
  | .salu _ _ => none
  | .saddi _ _ => none
  | .slui _ _ => none
  | .sld _ _ => none
  | .sst _ _ => none
  | .br _ _ => none
  | .jal _ _ => none
  | .tret _ _ => none
  | .brk _ _ => none
  | .mxs _ _ _ _ _ => none
  | .mxw _ _ => none
  | .mxwRelease _ => none
  | .vop _ _ => none
  | .vld _ _ => none
  | .vst _ _ => none
  | .dmaq _ _ => none
  | .dmaw _ _ => none
  | .tget _ _ => none
  | .tdone _ _ => none
  | .tbar _ _ => none
  | .rdx _ _ => none
  | .halt _ _ => none
  | .sys _ _ => none
  | .matrixDataTrap _ => none
  | .icacheInv _ => none
  | .arrayStep _ _ _ => none
  | .shadowLoadComplete _ => none
  | .arrayFreezeLimit _ => none
  | .clrCnt _ => none
  | .mxaFedLoRead _ => none
  | .dmaDescriptorStart _ _ => none
  | .dmaReadResponse _ _ _ _ _ => none
  | .restart _ _ => none
  | .dispatch qp _ => some qp
  | .strictRelease _ => none
  | .taskletQueueRefill _ => none
  | .stealRequest _ _ => none
  | .stealReply _ _ => none
  | .engineFence _ => none
  | .fenceComplete _ => none
  | .fenceTimeout _ => none
  | .enginePacket _ _ _ _ _ _ => none
  | .engineWake _ => none
  | .meshPacketInject _ _ _ _ _ _ => none
  | .meshPacketHop _ => none
  | .meshLinkError _ _ => none
  | .spmOwnerWrite _ _ _ _ => none
  | .handoverComplete _ _ => none
  | .spmSecureWrite _ _ _ => none
  | .wipeComplete _ _ => none
  | .spmPatrolRead _ _ _ => none
  | .spmCorrectedWriteback _ _ => none
  | .spmDmacollClr _ _ => none
  | .vchRequest _ _ _ _ _ _ => none
  | .vchReadData _ _ _ => none
  | .pageTimeout _ _ => none
  | .refreshDue _ _ _ => none
  | .marginCheck _ _ _ => none
  | .retrainWindow _ _ _ _ => none
  | .scrubRead _ _ => none
  | .bucketLeak _ => none
  | .candAck _ => none
  | .remapInstall _ _ _ => none
  | .remapCopy _ _ _ => none
  | .remapCopyDone _ _ => none
  | .vchRefClr _ => none
  | .bscProgramLoad _ _ => none
  | .bscLoadDone _ => none
  | .bscGo _ _ _ => none
  | .bscStop _ _ _ => none
  | .bscRingPoll _ => none
  | .bscRingRecord _ => none
  | .bscTokenGrant _ _ => none
  | .bscLeaseBegin _ _ => none
  | .bscCoreStart _ _ => none
  | .bscAlu _ _ => none
  | .bscAddi _ _ => none
  | .bscShi _ _ => none
  | .bscBr _ _ => none
  | .ldc _ _ => none
  | .stc _ _ => none
  | .bscSys _ _ => none
  | .ropen _ _ _ => none
  | .rclose _ _ _ => none
  | .rld _ _ _ => none
  | .rst _ _ => none
  | .exp _ _ => none
  | .imp _ _ => none
  | .yld _ _ => none
  | .bscHalt _ _ _ => none
  | .bscExpWrite _ _ _ => none
  | .bscImpData _ _ _ => none
  | .bscPause _ _ _ => none
  | .bscResume _ _ => none
  | .bscLeaseLimit _ _ => none
  | .bscRunLimit _ _ => none
  | .seqOpen qp _ => some qp
  | .seqStepBegin qp _ => some qp
  | .seqStepEnd qp _ => some qp
  | .seqClose qp _ => some qp
  | .pageZeroDone _ => none
  | .kvSwapOut qp _ => some qp
  | .swapPageWriteDone _ => none
  | .kvSwapIn qp _ => some qp
  | .swapPageReadDone _ _ => none
  | .prefixPin qp _ => some qp
  | .portEnable _ => none
  | .portDisable _ => none
  | .trainAttemptSuccess _ => none
  | .trainAttemptTimeout _ => none
  | .linkLoss _ => none
  | .fecLimit _ _ _ => none
  | .retrainRetry _ => none
  | .portRetrain _ => none
  | .portUnfence _ => none
  | .vrxRun _ => none
  | .frameRx _ _ _ => none
  | .vrxWrite peer _ => some peer
  | .readReq peer _ => some peer
  | .readRsp peer _ => some peer
  | .fetchAdd peer _ => some peer
  | .fetchRsp peer _ => some peer
  | .tokDispatch peer _ _ => some peer
  | .tokNack peer _ => some peer
  | .creditMsg peer _ _ => some peer
  | .vrxAck peer => some peer
  | .vrxOpen peer => some peer
  | .openAck peer => some peer
  | .genMsg peer _ => some peer
  | .genMark peer _ => some peer
  | .keyxHello peer _ => some peer
  | .keyxQuote peer _ => some peer
  | .keyxEncap peer _ => some peer
  | .keyxKey peer _ => some peer
  | .keyxKeyAck peer _ => some peer
  | .vrxTime peer _ => some peer
  | .lstepDigest peer _ => some peer
  | .fwChunk peer _ => some peer
  | .fwReq peer _ => some peer
  | .fwActivationMark peer _ => some peer
  | .ackTimer peer => some peer
  | .retransmitTimeout peer _ => some peer
  | .peerReopen peer => some peer
  | .creditGrantExpiry peer _ => some peer
  | .noKeyTimeout peer => some peer
  | .fxrRingPoll _ => none
  | .sendMessage _ _ => none
  | .tokenRecordWrite _ => none
  | .peerRemoveDone peer => some peer
  | .fabRekey _ => none
  | .oldKeyExpiry peer _ _ => some peer
  | .expertMap qp _ => some qp
  | .nudge _ => none
  | .summaryReadDone _ _ _ => none
  | .doorbellReadDone qp _ _ _ => some qp
  | .descriptorFetchDone qp _ _ => some qp
  | .coalesceTimeout qp => some qp
  | .copyRows qp _ _ => some qp
  | .fenceQueue qp _ => some qp
  | .fenceFunction qp _ => some qp
  | .fenceValue qp _ => some qp
  | .fenceValuePoll qp _ => some qp
  | .fenceValueTimeout qp _ => some qp
  | .hintCmd qp _ => some qp
  | .receiptFetch qp _ => some qp
  | .attestQuote qp _ => some qp
  | .attestLog qp _ => some qp
  | .attestManifest qp _ => some qp
  | .fwStageChunk qp _ => some qp
  | .fwStageActivate qp _ => some qp
  | .fwStageAbort qp _ => some qp
  | .qpEnable _ _ => none
  | .qpDisable _ _ => none
  | .cmdFqWrite _ _ => none
  | .linkUp _ _ _ => none
  | .functionLevelReset _ => none
  | .configRequest _ _ _ => none
  | .bar4Read _ _ => none
  | .bar4Write _ _ => none
  | .pciDbgWrite _ _ => none
  | .ideStreamFail _ => none
  | .dStateChange _ _ => none
  | .governorSample _ _ _ _ _ => none
  | .operatingPointChange _ => none
  | .gustDischarge _ _ => none
  | .droopSlowdown _ => none
  | .droopEnd _ => none
  | .vminClear _ => none
  | .engineUndervoltage _ => none
  | .railOvercurrent _ => none
  | .domainOverload _ _ => none
  | .capStep _ _ _ _ _ _ => none
  | .peakClamp _ _ => none
  | .peakClampEnd _ => none
  | .phaseEnd _ => none
  | .hintPhaseBegin _ => none
  | .reservationEnd _ => none
  | .domainSwitchOn _ _ => none
  | .forcedSwitchOn _ => none
  | .sensorSample _ _ _ _ => none
  | .thmModelUpdate _ _ _ => none
  | .coolantShutdown _ _ => none
  | .clrSuspect _ => none
  | .lull1Entry _ => none
  | .lull2Entry _ => none
  | .sentryEntry _ _ => none
  | .sentrySample _ _ => none
  | .meterFail _ => none
  | .periodEnd _ => none
  | .receiptWaitExpiry qp _ => some qp
  | .batchSign _ => none
  | .enrRun _ => none
  | .enrRelease _ => none
  | .tamper _ => none
  | .spdmMessage _ => none
  | .lockstepEnable _ => none
  | .digestDone _ => none
  | .lockstepTimeout _ => none
  | .stage0 _ _ => none
  | .stage1 _ => none
  | .stage3 _ _ _ _ => none
  | .stage4 _ _ => none
  | .stage5 _ _ => none
  | .stage6 _ => none
  | .stage7 _ => none
  | .minPortsWrite _ => none
  | .microcodeEngineLoad _ _ => none
  | .resetRequest _ => none
  | .raiseSend _ => none
  | .conditionReraise _ => none
  | .quietExpiry _ => none
  | .trapAck _ => none
  | .edyRelease _ => none
  | .sqcWrite _ _ _ => none
  | .bitAliasWrite _ _ _ => none
  | .parityCheck _ _ => none
  | .stgCommit _ _ => none
  | .stgDiscard _ _ => none
  | .stagedApply _ _ => none
  | .bar0BadAccess _ => none
  | .registerWrite _ _ _ _ => none
  | .pwrEnFall _ _ => none
  | .slotReturn _ => none
  | .hostReadCompletion _ _ _ _ => none
  | .logRead _ _ => none
  | .logRelease _ => none
  | .faultRead _ => none
  | .capSet _ => none
  | .kvmRun => none
  | .kvmStop => none
  | .kvmInitDone => none
  | .cmdPollTick => none
  | .idleInterval => none
  | .perstAssert => none
  | .perstDeassert => none
  | .linkDown => none
  | .vfEnableClear => none
  | .thermalCapRise => none
  | .coolantCapUpdate => none
  | .flowCount => none
  | .flowPulse => none
  | .coolantLossTimeout => none
  | .coolantDrain => none
  | .flowRestored => none
  | .thermAlertRelease => none
  | .ledgerFlush => none
  | .receiptTake => none
  | .batchClose => none
  | .reconcile => none
  | .lcChange => none
  | .svnCommit => none
  | .confSet => none
  | .progLoad => none
  | .sessionOpen => none
  | .sessionClose => none
  | .mbxQuote => none
  | .mbxInfo => none
  | .mbxManifest => none
  | .calRead => none
  | .divClear => none
  | .stage2 => none
  | .stage8 => none
  | .stage9 => none
  | .clrSaved => none
  | .bootLoadGo => none
  | .bootTimeout => none
  | .serviceHandoverReady => none
  | .fwRepairGap => none
  | .fwMarkRequest => none
  | .resetWorkDone => none
  | .resetWorkTimeout => none
  | .resetBoundaryEmpty => none
  | .resetDeadline => none
  | .resetScopeReady => none
  | .moduleReset => none
  | .faultRaise => none
  | .trapTimeout => none
  | .pinClr => none
  | .logInfo => none
  | .glbTimeLoRead => none
  | .inputPowerUp => none
  | .inputBelow38v => none
  | .inputOvervoltage => none
  | .inputReconnect => none
  | .pwrEnRise => none
  | .handoverReadyTimeout => none
  | .syncInterval => none

namespace OperandsOk

set_option Elab.async false

/-- A well-formed command names no queue pair and no peer beyond the 16,384 of each table. -/
def Statement (i : Instr) : Prop := i.wf = true → ∀ k, index14 i = some k → k < 16384

theorem salu (t : Fin 128) (w : Word) : Statement (.salu t w) := fun _ _ e => nomatch e
theorem saddi (t : Fin 128) (w : Word) : Statement (.saddi t w) := fun _ _ e => nomatch e
theorem slui (t : Fin 128) (w : Word) : Statement (.slui t w) := fun _ _ e => nomatch e
theorem sld (t : Fin 128) (w : Word) : Statement (.sld t w) := fun _ _ e => nomatch e
theorem sst (t : Fin 128) (w : Word) : Statement (.sst t w) := fun _ _ e => nomatch e
theorem br (t : Fin 128) (w : Word) : Statement (.br t w) := fun _ _ e => nomatch e
theorem jal (t : Fin 128) (w : Word) : Statement (.jal t w) := fun _ _ e => nomatch e
theorem tret (t : Fin 128) (w : Word) : Statement (.tret t w) := fun _ _ e => nomatch e
theorem brk (t : Fin 128) (w : Word) : Statement (.brk t w) := fun _ _ e => nomatch e
theorem mxs (t : Fin 128) (w w1 w2 w3 : Word) : Statement (.mxs t w w1 w2 w3) := fun _ _ e => nomatch e
theorem mxw (t : Fin 128) (w : Word) : Statement (.mxw t w) := fun _ _ e => nomatch e
theorem mxwRelease (t : Fin 128) : Statement (.mxwRelease t) := fun _ _ e => nomatch e
theorem vop (t : Fin 128) (w : Word) : Statement (.vop t w) := fun _ _ e => nomatch e
theorem vld (t : Fin 128) (w : Word) : Statement (.vld t w) := fun _ _ e => nomatch e
theorem vst (t : Fin 128) (w : Word) : Statement (.vst t w) := fun _ _ e => nomatch e
theorem dmaq (t : Fin 128) (w : Word) : Statement (.dmaq t w) := fun _ _ e => nomatch e
theorem dmaw (t : Fin 128) (w : Word) : Statement (.dmaw t w) := fun _ _ e => nomatch e
theorem tget (t : Fin 128) (w : Word) : Statement (.tget t w) := fun _ _ e => nomatch e
theorem tdone (t : Fin 128) (w : Word) : Statement (.tdone t w) := fun _ _ e => nomatch e
theorem tbar (t : Fin 128) (w : Word) : Statement (.tbar t w) := fun _ _ e => nomatch e
theorem rdx (t : Fin 128) (w : Word) : Statement (.rdx t w) := fun _ _ e => nomatch e
theorem halt (t : Fin 128) (w : Word) : Statement (.halt t w) := fun _ _ e => nomatch e
theorem sys (t : Fin 128) (w : Word) : Statement (.sys t w) := fun _ _ e => nomatch e
theorem matrixDataTrap (t : Fin 128) : Statement (.matrixDataTrap t) := fun _ _ e => nomatch e
theorem icacheInv (t : Fin 128) : Statement (.icacheInv t) := fun _ _ e => nomatch e
theorem arrayStep (t : Fin 128) (lane : List (Fin 18)) (others : List (Fin 18 × Fin 32)) : Statement (.arrayStep t lane others) := fun _ _ e => nomatch e
theorem shadowLoadComplete (t : Fin 128) : Statement (.shadowLoadComplete t) := fun _ _ e => nomatch e
theorem arrayFreezeLimit (t : Fin 128) : Statement (.arrayFreezeLimit t) := fun _ _ e => nomatch e
theorem clrCnt (t : Fin 128) : Statement (.clrCnt t) := fun _ _ e => nomatch e
theorem mxaFedLoRead (t : Fin 128) : Statement (.mxaFedLoRead t) := fun _ _ e => nomatch e
theorem dmaDescriptorStart (t : Fin 128) (ch : Fin 8) : Statement (.dmaDescriptorStart t ch) := fun _ _ e => nomatch e
theorem dmaReadResponse (t : Fin 128) (ch : Fin 8) (pos row : Nat) (portA : List Nat) : Statement (.dmaReadResponse t ch pos row portA) := fun _ _ e => nomatch e
theorem restart (t : Fin 128) (chans : Byte) : Statement (.restart t chans) := fun _ _ e => nomatch e
theorem dispatch (qp idx : Nat) : Statement (.dispatch qp idx) := by
  intro h k e
  simp_all [index14, Instr.wf, qpOk]
theorem strictRelease (d : Nat) : Statement (.strictRelease d) := fun _ _ e => nomatch e
theorem taskletQueueRefill (t : Fin 128) : Statement (.taskletQueueRefill t) := fun _ _ e => nomatch e
theorem stealRequest (thief victim : Fin 128) : Statement (.stealRequest thief victim) := fun _ _ e => nomatch e
theorem stealReply (thief victim : Fin 128) : Statement (.stealReply thief victim) := fun _ _ e => nomatch e
theorem engineFence (t : Fin 128) : Statement (.engineFence t) := fun _ _ e => nomatch e
theorem fenceComplete (t : Fin 128) : Statement (.fenceComplete t) := fun _ _ e => nomatch e
theorem fenceTimeout (t : Fin 128) : Statement (.fenceTimeout t) := fun _ _ e => nomatch e
theorem enginePacket (t : Fin 128) (src : Fin 129) (ch : Fin 8) (addr : Nat) (cargo : Cargo) (portA : List Nat) : Statement (.enginePacket t src ch addr cargo portA) := fun _ _ e => nomatch e
theorem engineWake (t : TilePorts) : Statement (.engineWake t) := fun _ _ e => nomatch e
theorem meshPacketInject (src dst : Fin 132) (vc : Fin 4) (flits : Nat) (strict : Bool) (way : Way) : Statement (.meshPacketInject src dst vc flits strict way) := fun _ _ e => nomatch e
theorem meshPacketHop (k : FlitAt) : Statement (.meshPacketHop k) := fun _ _ e => nomatch e
theorem meshLinkError (t : Fin 128) (dir : Fin 5) : Statement (.meshLinkError t dir) := fun _ _ e => nomatch e
theorem spmOwnerWrite (t : Fin 128) (src : By) (hi : Bool) (v : Word) : Statement (.spmOwnerWrite t src hi v) := fun _ _ e => nomatch e
theorem handoverComplete (t : Fin 128) (bank : Fin 16) : Statement (.handoverComplete t bank) := fun _ _ e => nomatch e
theorem spmSecureWrite (t : Fin 128) (src : By) (v : Word) : Statement (.spmSecureWrite t src v) := fun _ _ e => nomatch e
theorem wipeComplete (t : Fin 128) (bank : Fin 16) : Statement (.wipeComplete t bank) := fun _ _ e => nomatch e
theorem spmPatrolRead (t : Fin 128) (bank : Fin 16) (line : Fin 512) : Statement (.spmPatrolRead t bank line) := fun _ _ e => nomatch e
theorem spmCorrectedWriteback (t : Fin 128) (word : Fin 1048576) : Statement (.spmCorrectedWriteback t word) := fun _ _ e => nomatch e
theorem spmDmacollClr (t : Fin 128) (chans : Byte) : Statement (.spmDmacollClr t chans) := fun _ _ e => nomatch e
theorem vchRequest (t : Fin 128) (off : Word) (write : Bool) (src : Fin 8) (len : Nat) (data : List Byte) : Statement (.vchRequest t off write src len data) := fun _ _ e => nomatch e
theorem vchReadData (t : Fin 128) (k : Nat) (ondie : BitVec 16) : Statement (.vchReadData t k ondie) := fun _ _ e => nomatch e
theorem pageTimeout (t : Fin 128) (bank : Fin 64) : Statement (.pageTimeout t bank) := fun _ _ e => nomatch e
theorem refreshDue (t : Fin 128) (bank : Fin 64) (postpone : Bool) : Statement (.refreshDue t bank postpone) := fun _ _ e => nomatch e
theorem marginCheck (t : Fin 128) (layer : Fin 16) (fails : Bool) : Statement (.marginCheck t layer fails) := fun _ _ e => nomatch e
theorem retrainWindow (t : Fin 128) (layer : Fin 16) (ending : Bool) (result : Window) : Statement (.retrainWindow t layer ending result) := fun _ _ e => nomatch e
theorem scrubRead (t : Fin 128) (ondie : BitVec 16) : Statement (.scrubRead t ondie) := fun _ _ e => nomatch e
theorem bucketLeak (t : Fin 128) : Statement (.bucketLeak t) := fun _ _ e => nomatch e
theorem candAck (t : Fin 128) : Statement (.candAck t) := fun _ _ e => nomatch e
theorem remapInstall (t : Fin 128) (n : Fin 32) (v : Word) : Statement (.remapInstall t n v) := fun _ _ e => nomatch e
theorem remapCopy (t : Fin 128) (n : Fin 32) (v : Word) : Statement (.remapCopy t n v) := fun _ _ e => nomatch e
theorem remapCopyDone (t : Fin 128) (n : Fin 32) : Statement (.remapCopyDone t n) := fun _ _ e => nomatch e
theorem vchRefClr (t : Fin 128) : Statement (.vchRefClr t) := fun _ _ e => nomatch e
theorem bscProgramLoad (t : Fin 128) (src : By) : Statement (.bscProgramLoad t src) := fun _ _ e => nomatch e
theorem bscLoadDone (t : Fin 128) : Statement (.bscLoadDone t) := fun _ _ e => nomatch e
theorem bscGo (t : Fin 128) (c : Fin 64) (src : By) : Statement (.bscGo t c src) := fun _ _ e => nomatch e
theorem bscStop (t : Fin 128) (c : Fin 64) (src : By) : Statement (.bscStop t c src) := fun _ _ e => nomatch e
theorem bscRingPoll (t : Fin 128) : Statement (.bscRingPoll t) := fun _ _ e => nomatch e
theorem bscRingRecord (t : TilePorts) : Statement (.bscRingRecord t) := fun _ _ e => nomatch e
theorem bscTokenGrant (t : Fin 128) (c : Fin 64) : Statement (.bscTokenGrant t c) := fun _ _ e => nomatch e
theorem bscLeaseBegin (t : Fin 128) (c : Fin 64) : Statement (.bscLeaseBegin t c) := fun _ _ e => nomatch e
theorem bscCoreStart (t : Fin 128) (c : Fin 64) : Statement (.bscCoreStart t c) := fun _ _ e => nomatch e
theorem bscAlu (t : Fin 128) (c : Fin 64) : Statement (.bscAlu t c) := fun _ _ e => nomatch e
theorem bscAddi (t : Fin 128) (c : Fin 64) : Statement (.bscAddi t c) := fun _ _ e => nomatch e
theorem bscShi (t : Fin 128) (c : Fin 64) : Statement (.bscShi t c) := fun _ _ e => nomatch e
theorem bscBr (t : Fin 128) (c : Fin 64) : Statement (.bscBr t c) := fun _ _ e => nomatch e
theorem ldc (t : Fin 128) (c : Fin 64) : Statement (.ldc t c) := fun _ _ e => nomatch e
theorem stc (t : Fin 128) (c : Fin 64) : Statement (.stc t c) := fun _ _ e => nomatch e
theorem bscSys (t : Fin 128) (c : Fin 64) : Statement (.bscSys t c) := fun _ _ e => nomatch e
theorem ropen (t : Fin 128) (c : Fin 64) (bc : Nat) : Statement (.ropen t c bc) := fun _ _ e => nomatch e
theorem rclose (t : Fin 128) (c : Fin 64) (bc : Nat) : Statement (.rclose t c bc) := fun _ _ e => nomatch e
theorem rld (t : Fin 128) (c : Fin 64) (ondie : BitVec 16) : Statement (.rld t c ondie) := fun _ _ e => nomatch e
theorem rst (t : Fin 128) (c : Fin 64) : Statement (.rst t c) := fun _ _ e => nomatch e
theorem exp (t : Fin 128) (c : Fin 64) : Statement (.exp t c) := fun _ _ e => nomatch e
theorem imp (t : Fin 128) (c : Fin 64) : Statement (.imp t c) := fun _ _ e => nomatch e
theorem yld (t : Fin 128) (c : Fin 64) : Statement (.yld t c) := fun _ _ e => nomatch e
theorem bscHalt (t : Fin 128) (c : Fin 64) (bc : Nat) : Statement (.bscHalt t c bc) := fun _ _ e => nomatch e
theorem bscExpWrite (t : Fin 128) (c : Fin 64) (portA : Bool) : Statement (.bscExpWrite t c portA) := fun _ _ e => nomatch e
theorem bscImpData (t : Fin 128) (c : Fin 64) (reg : Fin 16) : Statement (.bscImpData t c reg) := fun _ _ e => nomatch e
theorem bscPause (t : Fin 128) (c : Fin 64) (why : Fin 3) : Statement (.bscPause t c why) := fun _ _ e => nomatch e
theorem bscResume (t : Fin 128) (c : Fin 64) : Statement (.bscResume t c) := fun _ _ e => nomatch e
theorem bscLeaseLimit (t : Fin 128) (c : Fin 64) : Statement (.bscLeaseLimit t c) := fun _ _ e => nomatch e
theorem bscRunLimit (t : Fin 128) (c : Fin 64) : Statement (.bscRunLimit t c) := fun _ _ e => nomatch e
theorem seqOpen (qp idx : Nat) : Statement (.seqOpen qp idx) := by
  intro h k e
  simp_all [index14, Instr.wf, qpOk]
theorem seqStepBegin (qp idx : Nat) : Statement (.seqStepBegin qp idx) := by
  intro h k e
  simp_all [index14, Instr.wf, qpOk]
theorem seqStepEnd (qp idx : Nat) : Statement (.seqStepEnd qp idx) := by
  intro h k e
  simp_all [index14, Instr.wf, qpOk]
theorem seqClose (qp idx : Nat) : Statement (.seqClose qp idx) := by
  intro h k e
  simp_all [index14, Instr.wf, qpOk]
theorem pageZeroDone (p : Nat) : Statement (.pageZeroDone p) := fun _ _ e => nomatch e
theorem kvSwapOut (qp idx : Nat) : Statement (.kvSwapOut qp idx) := by
  intro h k e
  simp_all [index14, Instr.wf, qpOk]
theorem swapPageWriteDone (ctx : Nat) : Statement (.swapPageWriteDone ctx) := fun _ _ e => nomatch e
theorem kvSwapIn (qp idx : Nat) : Statement (.kvSwapIn qp idx) := by
  intro h k e
  simp_all [index14, Instr.wf, qpOk]
theorem swapPageReadDone (ctx : Nat) (data : List Byte) : Statement (.swapPageReadDone ctx data) := fun _ _ e => nomatch e
theorem prefixPin (qp idx : Nat) : Statement (.prefixPin qp idx) := by
  intro h k e
  simp_all [index14, Instr.wf, qpOk]
theorem portEnable (p : Fin 8) : Statement (.portEnable p) := fun _ _ e => nomatch e
theorem portDisable (p : Fin 8) : Statement (.portDisable p) := fun _ _ e => nomatch e
theorem trainAttemptSuccess (p : Fin 8) : Statement (.trainAttemptSuccess p) := fun _ _ e => nomatch e
theorem trainAttemptTimeout (p : Fin 8) : Statement (.trainAttemptTimeout p) := fun _ _ e => nomatch e
theorem linkLoss (p : Fin 8) : Statement (.linkLoss p) := fun _ _ e => nomatch e
theorem fecLimit (p : Fin 8) (ce ue : Nat) : Statement (.fecLimit p ce ue) := fun _ _ e => nomatch e
theorem retrainRetry (p : Fin 8) : Statement (.retrainRetry p) := fun _ _ e => nomatch e
theorem portRetrain (p : Fin 8) : Statement (.portRetrain p) := fun _ _ e => nomatch e
theorem portUnfence (p : Fin 8) : Statement (.portUnfence p) := fun _ _ e => nomatch e
theorem vrxRun (v : Bool) : Statement (.vrxRun v) := fun _ _ e => nomatch e
theorem frameRx (p : Fin 8) (ok : Bool) (bytes : List Byte) : Statement (.frameRx p ok bytes) := fun _ _ e => nomatch e
theorem vrxWrite (peer msn : Nat) : Statement (.vrxWrite peer msn) := by
  intro h k e
  simp_all [index14, Instr.wf, peerOk]
theorem readReq (peer msn : Nat) : Statement (.readReq peer msn) := by
  intro h k e
  simp_all [index14, Instr.wf, peerOk]
theorem readRsp (peer msn : Nat) : Statement (.readRsp peer msn) := by
  intro h k e
  simp_all [index14, Instr.wf, peerOk]
theorem fetchAdd (peer msn : Nat) : Statement (.fetchAdd peer msn) := by
  intro h k e
  simp_all [index14, Instr.wf, peerOk]
theorem fetchRsp (peer msn : Nat) : Statement (.fetchRsp peer msn) := by
  intro h k e
  simp_all [index14, Instr.wf, peerOk]
theorem tokDispatch (peer msn : Nat) (slot : Nat) : Statement (.tokDispatch peer msn slot) := by
  intro h k e
  simp_all [index14, Instr.wf, peerOk]
theorem tokNack (peer msn : Nat) : Statement (.tokNack peer msn) := by
  intro h k e
  simp_all [index14, Instr.wf, peerOk]
theorem creditMsg (peer msn : Nat) (grant : Bool) : Statement (.creditMsg peer msn grant) := by
  intro h k e
  simp_all [index14, Instr.wf, peerOk]
theorem vrxAck (peer : Nat) : Statement (.vrxAck peer) := by
  intro h k e
  simp_all [index14, Instr.wf, peerOk]
theorem vrxOpen (peer : Nat) : Statement (.vrxOpen peer) := by
  intro h k e
  simp_all [index14, Instr.wf, peerOk]
theorem openAck (peer : Nat) : Statement (.openAck peer) := by
  intro h k e
  simp_all [index14, Instr.wf, peerOk]
theorem genMsg (peer msn : Nat) : Statement (.genMsg peer msn) := by
  intro h k e
  simp_all [index14, Instr.wf, peerOk]
theorem genMark (peer msn : Nat) : Statement (.genMark peer msn) := by
  intro h k e
  simp_all [index14, Instr.wf, peerOk]
theorem keyxHello (peer msn : Nat) : Statement (.keyxHello peer msn) := by
  intro h k e
  simp_all [index14, Instr.wf, peerOk]
theorem keyxQuote (peer msn : Nat) : Statement (.keyxQuote peer msn) := by
  intro h k e
  simp_all [index14, Instr.wf, peerOk]
theorem keyxEncap (peer msn : Nat) : Statement (.keyxEncap peer msn) := by
  intro h k e
  simp_all [index14, Instr.wf, peerOk]
theorem keyxKey (peer msn : Nat) : Statement (.keyxKey peer msn) := by
  intro h k e
  simp_all [index14, Instr.wf, peerOk]
theorem keyxKeyAck (peer msn : Nat) : Statement (.keyxKeyAck peer msn) := by
  intro h k e
  simp_all [index14, Instr.wf, peerOk]
theorem vrxTime (peer msn : Nat) : Statement (.vrxTime peer msn) := by
  intro h k e
  simp_all [index14, Instr.wf, peerOk]
theorem lstepDigest (peer msn : Nat) : Statement (.lstepDigest peer msn) := by
  intro h k e
  simp_all [index14, Instr.wf, peerOk]
theorem fwChunk (peer msn : Nat) : Statement (.fwChunk peer msn) := by
  intro h k e
  simp_all [index14, Instr.wf, peerOk]
theorem fwReq (peer msn : Nat) : Statement (.fwReq peer msn) := by
  intro h k e
  simp_all [index14, Instr.wf, peerOk]
theorem fwActivationMark (peer msn : Nat) : Statement (.fwActivationMark peer msn) := by
  intro h k e
  simp_all [index14, Instr.wf, peerOk]
theorem ackTimer (peer : Nat) : Statement (.ackTimer peer) := by
  intro h k e
  simp_all [index14, Instr.wf, peerOk]
theorem retransmitTimeout (peer psn : Nat) : Statement (.retransmitTimeout peer psn) := by
  intro h k e
  simp_all [index14, Instr.wf, peerOk]
theorem peerReopen (peer : Nat) : Statement (.peerReopen peer) := by
  intro h k e
  simp_all [index14, Instr.wf, peerOk]
theorem creditGrantExpiry (peer : Nat) (mine : Bool) : Statement (.creditGrantExpiry peer mine) := by
  intro h k e
  simp_all [index14, Instr.wf, peerOk]
theorem noKeyTimeout (peer : Nat) : Statement (.noKeyTimeout peer) := by
  intro h k e
  simp_all [index14, Instr.wf, peerOk]
theorem fxrRingPoll (t : Fin 128) : Statement (.fxrRingPoll t) := fun _ _ e => nomatch e
theorem sendMessage (t : Fin 128) (k : Nat) : Statement (.sendMessage t k) := fun _ _ e => nomatch e
theorem tokenRecordWrite (expert : Fin 65536) : Statement (.tokenRecordWrite expert) := fun _ _ e => nomatch e
theorem peerRemoveDone (peer : Nat) : Statement (.peerRemoveDone peer) := by
  intro h k e
  simp_all [index14, Instr.wf, peerOk]
theorem fabRekey (p : Fin 8) : Statement (.fabRekey p) := fun _ _ e => nomatch e
theorem oldKeyExpiry (peer : Nat) (port : Fin 8) (idx : Fin 2) : Statement (.oldKeyExpiry peer port idx) := by
  intro h k e
  simp_all [index14, Instr.wf, peerOk]
theorem expertMap (qp idx : Nat) : Statement (.expertMap qp idx) := by
  intro h k e
  simp_all [index14, Instr.wf, qpOk]
theorem nudge (r : HostReq) : Statement (.nudge r) := fun _ _ e => nomatch e
theorem summaryReadDone (f : Fin 257) (r : ReadAt) (sum : Nat) : Statement (.summaryReadDone f r sum) := fun _ _ e => nomatch e
theorem doorbellReadDone (qp : Nat) (r : ReadAt) (prod cons : Word) : Statement (.doorbellReadDone qp r prod cons) := by
  intro h k e
  simp_all [index14, Instr.wf, qpOk]
theorem descriptorFetchDone (qp : Nat) (r : ReadAt) (bytes : List Byte) : Statement (.descriptorFetchDone qp r bytes) := by
  intro h k e
  simp_all [index14, Instr.wf, qpOk]
theorem coalesceTimeout (qp : Nat) : Statement (.coalesceTimeout qp) := by
  intro h k e
  simp_all [index14, Instr.wf, qpOk]
theorem copyRows (qp idx : Nat) (portA : List Nat) : Statement (.copyRows qp idx portA) := by
  intro h k e
  simp_all [index14, Instr.wf, qpOk]
theorem fenceQueue (qp idx : Nat) : Statement (.fenceQueue qp idx) := by
  intro h k e
  simp_all [index14, Instr.wf, qpOk]
theorem fenceFunction (qp idx : Nat) : Statement (.fenceFunction qp idx) := by
  intro h k e
  simp_all [index14, Instr.wf, qpOk]
theorem fenceValue (qp idx : Nat) : Statement (.fenceValue qp idx) := by
  intro h k e
  simp_all [index14, Instr.wf, qpOk]
theorem fenceValuePoll (qp idx : Nat) : Statement (.fenceValuePoll qp idx) := by
  intro h k e
  simp_all [index14, Instr.wf, qpOk]
theorem fenceValueTimeout (qp idx : Nat) : Statement (.fenceValueTimeout qp idx) := by
  intro h k e
  simp_all [index14, Instr.wf, qpOk]
theorem hintCmd (qp idx : Nat) : Statement (.hintCmd qp idx) := by
  intro h k e
  simp_all [index14, Instr.wf, qpOk]
theorem receiptFetch (qp idx : Nat) : Statement (.receiptFetch qp idx) := by
  intro h k e
  simp_all [index14, Instr.wf, qpOk]
theorem attestQuote (qp idx : Nat) : Statement (.attestQuote qp idx) := by
  intro h k e
  simp_all [index14, Instr.wf, qpOk]
theorem attestLog (qp idx : Nat) : Statement (.attestLog qp idx) := by
  intro h k e
  simp_all [index14, Instr.wf, qpOk]
theorem attestManifest (qp idx : Nat) : Statement (.attestManifest qp idx) := by
  intro h k e
  simp_all [index14, Instr.wf, qpOk]
theorem fwStageChunk (qp idx : Nat) : Statement (.fwStageChunk qp idx) := by
  intro h k e
  simp_all [index14, Instr.wf, qpOk]
theorem fwStageActivate (qp idx : Nat) : Statement (.fwStageActivate qp idx) := by
  intro h k e
  simp_all [index14, Instr.wf, qpOk]
theorem fwStageAbort (qp idx : Nat) : Statement (.fwStageAbort qp idx) := by
  intro h k e
  simp_all [index14, Instr.wf, qpOk]
theorem qpEnable (f : Fin 257) (w : Word) : Statement (.qpEnable f w) := fun _ _ e => nomatch e
theorem qpDisable (f : Fin 257) (w : Word) : Statement (.qpDisable f w) := fun _ _ e => nomatch e
theorem cmdFqWrite (f : Fin 257) (w : Word) : Statement (.cmdFqWrite f w) := fun _ _ e => nomatch e
theorem linkUp (speed width : Nat) (flit : Bool) : Statement (.linkUp speed width flit) := fun _ _ e => nomatch e
theorem functionLevelReset (f : Fin 257) : Statement (.functionLevelReset f) := fun _ _ e => nomatch e
theorem configRequest (f : Fin 257) (off : Nat) (w : Option Word) : Statement (.configRequest f off w) := fun _ _ e => nomatch e
theorem bar4Read (at_ : Bar4) (n : Nat) : Statement (.bar4Read at_ n) := fun _ _ e => nomatch e
theorem bar4Write (at_ : Bar4) (data : List Byte) : Statement (.bar4Write at_ data) := fun _ _ e => nomatch e
theorem pciDbgWrite (w : Word) (src : By) : Statement (.pciDbgWrite w src) := fun _ _ e => nomatch e
theorem ideStreamFail (k : Fin 5) : Statement (.ideStreamFail k) := fun _ _ e => nomatch e
theorem dStateChange (f : Fin 257) (d3 : Bool) : Statement (.dStateChange f d3) := fun _ _ e => nomatch e
theorem governorSample (t : Fin 128) (cur demand : Byte) (edges : Edges) (code : Byte) : Statement (.governorSample t cur demand edges code) := fun _ _ e => nomatch e
theorem operatingPointChange (t : Fin 128) : Statement (.operatingPointChange t) := fun _ _ e => nomatch e
theorem gustDischarge (t : Fin 128) (g : Gust) : Statement (.gustDischarge t g) := fun _ _ e => nomatch e
theorem droopSlowdown (d : Sag) : Statement (.droopSlowdown d) := fun _ _ e => nomatch e
theorem droopEnd (d : Sag) : Statement (.droopEnd d) := fun _ _ e => nomatch e
theorem vminClear (t : Fin 128) : Statement (.vminClear t) := fun _ _ e => nomatch e
theorem engineUndervoltage (t : Fin 128) : Statement (.engineUndervoltage t) := fun _ _ e => nomatch e
theorem railOvercurrent (above : Bool) : Statement (.railOvercurrent above) := fun _ _ e => nomatch e
theorem domainOverload (group : Fin 6) (above : Bool) : Statement (.domainOverload group above) := fun _ _ e => nomatch e
theorem capStep (avg other : Nat) (demand cost heavy light : List Nat) : Statement (.capStep avg other demand cost heavy light) := fun _ _ e => nomatch e
theorem peakClamp (w : Nat) (long : Bool) : Statement (.peakClamp w long) := fun _ _ e => nomatch e
theorem peakClampEnd (w : Nat) : Statement (.peakClampEnd w) := fun _ _ e => nomatch e
theorem phaseEnd (k : Nat) : Statement (.phaseEnd k) := fun _ _ e => nomatch e
theorem hintPhaseBegin (k : Nat) : Statement (.hintPhaseBegin k) := fun _ _ e => nomatch e
theorem reservationEnd (k : Nat) : Statement (.reservationEnd k) := fun _ _ e => nomatch e
theorem domainSwitchOn (t : Fin 128) (rail : Nat) : Statement (.domainSwitchOn t rail) := fun _ _ e => nomatch e
theorem forcedSwitchOn (t : Fin 128) : Statement (.forcedSwitchOn t) := fun _ _ e => nomatch e
theorem sensorSample (w : Fin 4) (sensor : Fin 138) (v : Option Int) (pred : Int) : Statement (.sensorSample w sensor v pred) := fun _ _ e => nomatch e
theorem thmModelUpdate (w : Fin 4) (es fs : List Int) : Statement (.thmModelUpdate w es fs) := fun _ _ e => nomatch e
theorem coolantShutdown (m : Meters) (k : Nat) : Statement (.coolantShutdown m k) := fun _ _ e => nomatch e
theorem clrSuspect (w : Fin 4) : Statement (.clrSuspect w) := fun _ _ e => nomatch e
theorem lull1Entry (t : Fin 128) : Statement (.lull1Entry t) := fun _ _ e => nomatch e
theorem lull2Entry (t : Fin 128) : Statement (.lull2Entry t) := fun _ _ e => nomatch e
theorem sentryEntry (sums prods : List (Nat × Nat)) : Statement (.sentryEntry sums prods) := fun _ _ e => nomatch e
theorem sentrySample (sums prods : List (Nat × Nat)) : Statement (.sentrySample sums prods) := fun _ _ e => nomatch e
theorem meterFail (id : Fin 142) : Statement (.meterFail id) := fun _ _ e => nomatch e
theorem periodEnd (m : Meters) : Statement (.periodEnd m) := fun _ _ e => nomatch e
theorem receiptWaitExpiry (qp idx : Nat) : Statement (.receiptWaitExpiry qp idx) := by
  intro h k e
  simp_all [index14, Instr.wf, qpOk]
theorem batchSign (b : Nat) : Statement (.batchSign b) := fun _ _ e => nomatch e
theorem enrRun (v : Bool) : Statement (.enrRun v) := fun _ _ e => nomatch e
theorem enrRelease (lo : Word) : Statement (.enrRelease lo) := fun _ _ e => nomatch e
theorem tamper (src : Fin 4) : Statement (.tamper src) := fun _ _ e => nomatch e
theorem spdmMessage (msg : Spdm) : Statement (.spdmMessage msg) := fun _ _ e => nomatch e
theorem lockstepEnable (v : Bool) : Statement (.lockstepEnable v) := fun _ _ e => nomatch e
theorem digestDone (num : Nat) : Statement (.digestDone num) := fun _ _ e => nomatch e
theorem lockstepTimeout (num : Nat) : Statement (.lockstepTimeout num) := fun _ _ e => nomatch e
theorem stage0 (good : Bool) (bad : List (Fin 72)) : Statement (.stage0 good bad) := fun _ _ e => nomatch e
theorem stage1 (bad : List (Fin 16)) : Statement (.stage1 bad) := fun _ _ e => nomatch e
theorem stage3 (temp : Int) (islands : List (Fin 148)) (domains : List (Fin 128)) (other : Bool) : Statement (.stage3 temp islands domains other) := fun _ _ e => nomatch e
theorem stage4 (all : BitVec 64 × BitVec 64 × Fin 4) (full : List (Fin 2048 × BitVec 64 × BitVec 64 × Fin 4)) : Statement (.stage4 all full) := fun _ _ e => nomatch e
theorem stage5 (repairs : List (Fin 4096 × Word)) (bad : List (Fin 128 × Fin 64 × Fin 16384)) : Statement (.stage5 repairs bad) := fun _ _ e => nomatch e
theorem stage6 (failed : List (Fin 128)) : Statement (.stage6 failed) := fun _ _ e => nomatch e
theorem stage7 (failed : List (Fin 128 × Fin 4)) : Statement (.stage7 failed) := fun _ _ e => nomatch e
theorem minPortsWrite (v : Fin 16) : Statement (.minPortsWrite v) := fun _ _ e => nomatch e
theorem microcodeEngineLoad (t : Fin 128) (ok : Bool) : Statement (.microcodeEngineLoad t ok) := fun _ _ e => nomatch e
theorem resetRequest (w : Word) : Statement (.resetRequest w) := fun _ _ e => nomatch e
theorem raiseSend (u : Fin 136) : Statement (.raiseSend u) := fun _ _ e => nomatch e
theorem conditionReraise (src : Nat) : Statement (.conditionReraise src) := fun _ _ e => nomatch e
theorem quietExpiry (src : Nat) : Statement (.quietExpiry src) := fun _ _ e => nomatch e
theorem trapAck (src : By) : Statement (.trapAck src) := fun _ _ e => nomatch e
theorem edyRelease (key : BitVec 16) : Statement (.edyRelease key) := fun _ _ e => nomatch e
theorem sqcWrite (f : Fin 257) (off : Nat) (w : Word) : Statement (.sqcWrite f off w) := fun _ _ e => nomatch e
theorem bitAliasWrite (word : Fin 524288) (v : Bool) (src : By) : Statement (.bitAliasWrite word v src) := fun _ _ e => nomatch e
theorem parityCheck (f : Fin 257) (off : Nat) : Statement (.parityCheck f off) := fun _ _ e => nomatch e
theorem stgCommit (k : Fin 133) (w : Word) : Statement (.stgCommit k w) := fun _ _ e => nomatch e
theorem stgDiscard (k : Fin 133) (w : Word) : Statement (.stgDiscard k w) := fun _ _ e => nomatch e
theorem stagedApply (k : Fin 133) (block : Fin 8) : Statement (.stagedApply k block) := fun _ _ e => nomatch e
theorem bar0BadAccess (write : Bool) : Statement (.bar0BadAccess write) := fun _ _ e => nomatch e
theorem registerWrite (f : Fin 257) (off : Nat) (w : Word) (src : By) : Statement (.registerWrite f off w src) := fun _ _ e => nomatch e
theorem pwrEnFall (m : Meters) (k : Nat) : Statement (.pwrEnFall m k) := fun _ _ e => nomatch e
theorem slotReturn (expert : Fin 65536) : Statement (.slotReturn expert) := fun _ _ e => nomatch e
theorem hostReadCompletion (r : HostRead) (ok : Bool) (data : List Byte) (portA : List Nat) : Statement (.hostReadCompletion r ok data portA) := fun _ _ e => nomatch e
theorem logRead (index : Word) (count : Byte) : Statement (.logRead index count) := fun _ _ e => nomatch e
theorem logRelease (key : BitVec 16) : Statement (.logRelease key) := fun _ _ e => nomatch e
theorem faultRead (src : BitVec 16) : Statement (.faultRead src) := fun _ _ e => nomatch e
theorem capSet (w : BitVec 16) : Statement (.capSet w) := fun _ _ e => nomatch e
theorem kvmRun : Statement (.kvmRun) := fun _ _ e => nomatch e
theorem kvmStop : Statement (.kvmStop) := fun _ _ e => nomatch e
theorem kvmInitDone : Statement (.kvmInitDone) := fun _ _ e => nomatch e
theorem cmdPollTick : Statement (.cmdPollTick) := fun _ _ e => nomatch e
theorem idleInterval : Statement (.idleInterval) := fun _ _ e => nomatch e
theorem perstAssert : Statement (.perstAssert) := fun _ _ e => nomatch e
theorem perstDeassert : Statement (.perstDeassert) := fun _ _ e => nomatch e
theorem linkDown : Statement (.linkDown) := fun _ _ e => nomatch e
theorem vfEnableClear : Statement (.vfEnableClear) := fun _ _ e => nomatch e
theorem thermalCapRise : Statement (.thermalCapRise) := fun _ _ e => nomatch e
theorem coolantCapUpdate : Statement (.coolantCapUpdate) := fun _ _ e => nomatch e
theorem flowCount : Statement (.flowCount) := fun _ _ e => nomatch e
theorem flowPulse : Statement (.flowPulse) := fun _ _ e => nomatch e
theorem coolantLossTimeout : Statement (.coolantLossTimeout) := fun _ _ e => nomatch e
theorem coolantDrain : Statement (.coolantDrain) := fun _ _ e => nomatch e
theorem flowRestored : Statement (.flowRestored) := fun _ _ e => nomatch e
theorem thermAlertRelease : Statement (.thermAlertRelease) := fun _ _ e => nomatch e
theorem ledgerFlush : Statement (.ledgerFlush) := fun _ _ e => nomatch e
theorem receiptTake : Statement (.receiptTake) := fun _ _ e => nomatch e
theorem batchClose : Statement (.batchClose) := fun _ _ e => nomatch e
theorem reconcile : Statement (.reconcile) := fun _ _ e => nomatch e
theorem lcChange : Statement (.lcChange) := fun _ _ e => nomatch e
theorem svnCommit : Statement (.svnCommit) := fun _ _ e => nomatch e
theorem confSet : Statement (.confSet) := fun _ _ e => nomatch e
theorem progLoad : Statement (.progLoad) := fun _ _ e => nomatch e
theorem sessionOpen : Statement (.sessionOpen) := fun _ _ e => nomatch e
theorem sessionClose : Statement (.sessionClose) := fun _ _ e => nomatch e
theorem mbxQuote : Statement (.mbxQuote) := fun _ _ e => nomatch e
theorem mbxInfo : Statement (.mbxInfo) := fun _ _ e => nomatch e
theorem mbxManifest : Statement (.mbxManifest) := fun _ _ e => nomatch e
theorem calRead : Statement (.calRead) := fun _ _ e => nomatch e
theorem divClear : Statement (.divClear) := fun _ _ e => nomatch e
theorem stage2 : Statement (.stage2) := fun _ _ e => nomatch e
theorem stage8 : Statement (.stage8) := fun _ _ e => nomatch e
theorem stage9 : Statement (.stage9) := fun _ _ e => nomatch e
theorem clrSaved : Statement (.clrSaved) := fun _ _ e => nomatch e
theorem bootLoadGo : Statement (.bootLoadGo) := fun _ _ e => nomatch e
theorem bootTimeout : Statement (.bootTimeout) := fun _ _ e => nomatch e
theorem serviceHandoverReady : Statement (.serviceHandoverReady) := fun _ _ e => nomatch e
theorem fwRepairGap : Statement (.fwRepairGap) := fun _ _ e => nomatch e
theorem fwMarkRequest : Statement (.fwMarkRequest) := fun _ _ e => nomatch e
theorem resetWorkDone : Statement (.resetWorkDone) := fun _ _ e => nomatch e
theorem resetWorkTimeout : Statement (.resetWorkTimeout) := fun _ _ e => nomatch e
theorem resetBoundaryEmpty : Statement (.resetBoundaryEmpty) := fun _ _ e => nomatch e
theorem resetDeadline : Statement (.resetDeadline) := fun _ _ e => nomatch e
theorem resetScopeReady : Statement (.resetScopeReady) := fun _ _ e => nomatch e
theorem moduleReset : Statement (.moduleReset) := fun _ _ e => nomatch e
theorem faultRaise : Statement (.faultRaise) := fun _ _ e => nomatch e
theorem trapTimeout : Statement (.trapTimeout) := fun _ _ e => nomatch e
theorem pinClr : Statement (.pinClr) := fun _ _ e => nomatch e
theorem logInfo : Statement (.logInfo) := fun _ _ e => nomatch e
theorem glbTimeLoRead : Statement (.glbTimeLoRead) := fun _ _ e => nomatch e
theorem inputPowerUp : Statement (.inputPowerUp) := fun _ _ e => nomatch e
theorem inputBelow38v : Statement (.inputBelow38v) := fun _ _ e => nomatch e
theorem inputOvervoltage : Statement (.inputOvervoltage) := fun _ _ e => nomatch e
theorem inputReconnect : Statement (.inputReconnect) := fun _ _ e => nomatch e
theorem pwrEnRise : Statement (.pwrEnRise) := fun _ _ e => nomatch e
theorem handoverReadyTimeout : Statement (.handoverReadyTimeout) := fun _ _ e => nomatch e
theorem syncInterval : Statement (.syncInterval) := fun _ _ e => nomatch e

set_option Elab.async true

end OperandsOk

end Sys2Proof.Laws
end

