-- ==== Sys2Proof/Machine/Views.lean ====
section
/-! DEFINITION. What a read of a register returns (R10, R424, R433). Read-only registers that show state held elsewhere are computed here;
the reads that have an effect are rows of their own (R57, R438). -/

namespace Sys2Proof.Machine

/-- `MXA_STATE` of tile `t`. -/
def State.mxaState (s : State) (t : Nat) : Nat :=
  let a := s.arr t
  let busy := !a.queue.isEmpty || !a.flight.isEmpty || !a.buf.isEmpty || a.osPend.isSome
  let (mode, left) := match a.queue with
    | [] => (0, 0)
    | p :: _ => (p.op.mode, p.op.rows - p.row)
  b2n busy + 2 * a.queue.length + 16 * mode + 64 * b2n a.frozenNow + 128 * b2n a.shadow.isSome + 256 * left
/-- `STG_CTL` of the window shows the active copies of register `r` (R433). -/
def State.viewsActive (s : State) (r : Reg) (i : Nat) : Bool :=
  match stgHome r i with
  | none => false
  | some k => s.flag F.STG_CTL_VIEW k && (stgRegs k (s.fget F.STG_CTL_BLOCK k)).contains (r, i)
/-- What a read returns of field `f` of register `r`: 0 of a W1 field, the copy chosen by VIEW of a Staged one (R10, R433). -/
def State.fview (s : State) (r : Reg) (i : Nat) (f : Field) : Nat :=
  if f.acc = .w1 then 0
  else bits (if f.app = .staged && s.viewsActive r i then s.aget r i else s.rget r i).toNat f.hi f.lo
/-- The word that a read of register `r`, index `i`, returns; reserved bits read as 0 (R424). -/
def State.rview (s : State) (r : Reg) (i : Nat) : Word :=
  match r with
  | .MXA_STATE => BitVec.ofNat 32 (s.mxaState i)
  | .MXA_FED_LO => BitVec.ofNat 32 (s.eng i).fed
  | .TSK_QLEN => BitVec.ofNat 32 (s.stop i).queue.length
  | .CMD_FINFO => BitVec.ofNat 32 (s.fget F.CMD_FQ_QBASE i + 2 ^ 14 * s.fget F.CMD_FQ_QCNT i)
  | .GLB_TIME_LO => BitVec.ofNat 32 s.clk.ns
  | .BSC_CYCLES_LO => BitVec.ofNat 32 (s.cyclesNow (i / 64) (i % 64))
  | .BSC_CYCLES_HI => BitVec.ofNat 32 (s.cyclesNow (i / 64) (i % 64) / 2 ^ 32)
  | .BSC_STALLS_LO => BitVec.ofNat 32 (s.stallsNow (i / 64) (i % 64))
  | .BSC_STALLS_HI => BitVec.ofNat 32 (s.stallsNow (i / 64) (i % 64) / 2 ^ 32)
  | _ => BitVec.ofNat 32 (r.fields.foldl (fun a f => setBits a f.hi f.lo (s.fview r i f)) 0)
/-- What a read by a sender returns: the host reads no `BSC_DATA` in confidential mode (R149). -/
def State.readBy (s : State) (src : By) (r : Reg) (i : Nat) : Word :=
  if s.hostDenied src.isHost && (r = .BSC_DATA_LO || r = .BSC_DATA_HI) then 0 else s.rview r i
/-- A word of the MSI-X table of function `f`, and of its pending bits (R266, R269); a vector is masked until software writes its word. -/
def State.msixRead (s : State) (f word : Nat) : Word := SMap.get s.pcie.table (4096 * f + word) (if word % 4 = 3 then 1 else 0)
def State.pbaRead (s : State) (f word : Nat) : Word :=
  BitVec.ofNat 32 ((List.range 32).foldl (fun a b => a + 2 ^ b * b2n (s.pcie.pba.contains (f, 32 * word + b))) 0)
/-- A word of the Eddy log's ring at a byte offset of it (R400, R404). -/
def State.edyRead (s : State) (off : Nat) : Word := BitVec.ofNat 32 (leAt (s.logRecord (off / 32)).2 (off % 32) 4)
/-- The register word that a sender reads at an offset of BAR0 of function `f`: 0 where nothing lies there or nothing has started, all ones
in a tower under reset (R374, R384, R424). -/
def State.regRead (s : State) (f off : Nat) (src : By) : Word :=
  match s.regAt f off with
  | none => 0
  | some (r, i) => if !s.regStarted r i then 0 else if s.regShut r i then BitVec.allOnes 32 else s.readBy src r i
/-- What a read of the 4-byte word at an offset of BAR0 of function `f` returns, the bit-alias window, the log's ring and the MSI-X structures
among them (R423, R428). -/
def State.bar0Read (s : State) (f off : Nat) (src : By) : Word :=
  if f ≠ 0 then
    (if 0x8000 ≤ off ∧ off < 0x8040 then s.msixRead f ((off - 0x8000) / 4) else if off = 0x8040 then s.pbaRead f 0 else s.regRead f off src)
  else if 0x80000 ≤ off ∧ off < 0xA0000 then s.edyRead (off - 0x80000)
  else if 0x1000000 ≤ off ∧ off < 0x1200000 then
    let k := (off - 0x1000000) / 4
    BitVec.ofNat 32 (bits (s.regRead 0 (k / 32 * 4) src).toNat (k % 32) (k % 32))
  else if 0x3000000 ≤ off ∧ off < 0x3004000 then s.msixRead 0 ((off - 0x3000000) / 4)
  else if 0x3004000 ≤ off ∧ off < 0x3004080 then s.pbaRead 0 ((off - 0x3004000) / 4)
  else s.regRead 0 off src
/-- What a read of BAR2 returns (R248). -/
def bar2Read (_off : Nat) : Word := 0

end Sys2Proof.Machine
end

