-- ==== Sys2Proof/Machine/Writes.lean ====
section
/-! DEFINITION. What each command may write: the parts of the state besides the registers, and the registers. A command may write what
a rule of its row names, and what an event on the way writes (a corrected or an uncorrectable word, a trap, a completion, a raise). -/

namespace Sys2Proof.Machine

/-- The parts of the state other than the queue and the registers. -/
inductive Part where
  | clk | act | wset | parBad | mem | synd | soft | spm | spmErr | host | tiles | stops | gate | cores | tokRel | disps
  | nextDisp | packets | cmd | pcie | flt | edy | sec | fw | lck | kv | enr | fab | pwr | thm | brd | boot
  | rst | outs
  deriving DecidableEq, Repr

/-- A part is the same in two states. -/
def State.samePart (s u : State) : Part → Prop
  | .clk => u.clk = s.clk
  | .act => u.act = s.act
  | .wset => u.wset = s.wset
  | .parBad => u.parBad = s.parBad
  | .mem => u.mem = s.mem
  | .synd => u.synd = s.synd
  | .soft => u.soft = s.soft
  | .spm => u.spm = s.spm
  | .spmErr => u.spmErr = s.spmErr
  | .host => u.host = s.host
  | .tiles => u.tiles = s.tiles
  | .stops => u.stops = s.stops
  | .gate => u.gate = s.gate
  | .cores => u.cores = s.cores
  | .tokRel => u.tokRel = s.tokRel
  | .disps => u.disps = s.disps
  | .nextDisp => u.nextDisp = s.nextDisp
  | .packets => u.packets = s.packets
  | .cmd => u.cmd = s.cmd
  | .pcie => u.pcie = s.pcie
  | .flt => u.flt = s.flt
  | .edy => u.edy = s.edy
  | .sec => u.sec = s.sec
  | .fw => u.fw = s.fw
  | .lck => u.lck = s.lck
  | .kv => u.kv = s.kv
  | .enr => u.enr = s.enr
  | .fab => u.fab = s.fab
  | .pwr => u.pwr = s.pwr
  | .thm => u.thm = s.thm
  | .brd => u.brd = s.brd
  | .boot => u.boot = s.boot
  | .rst => u.rst = s.rst
  | .outs => u.outs = s.outs

/-! ### Groups -/

/-- What may change with device memory through the channels: bytes, words, channels, what the channels raise. -/
def memParts : List Part := [.mem, .synd, .stops, .flt]
/-- What may change with writes to host memory: completions, vectors, link packets. -/
def hostParts : List Part := [.cmd, .host, .pcie, .outs]
/-- What may change with scratchpads. -/
def spmParts : List Part := [.spm, .spmErr]
/-- What may change with a trap or an end of a dispatch. -/
def dispParts : List Part := [.disps, .enr, .lck, .tiles]
/-- What may change with an error or an end of a core's program. -/
def coreParts : List Part := [.cores, .enr, .tokRel]
/-- What may change with the event log. -/
def eventParts : List Part := [.edy, .boot]
/-- What may change with a channel that reads or writes device memory: corrections, errors, candidates. -/
def vchRegs : List Reg := [.VCH_BUCKET, .VCH_CAND, .VCH_CE_CNT, .VCH_STAT, .VCH_UE_LO, .VCH_UE_HI]
/-- What may change with the buckets of corrections in scratchpads. -/
def bucketRegs : List Reg := [.VCH_BUCKET, .VCH_STAT]
/-- What may change with scratchpad errors. -/
def spmRegs : List Reg := [.SPM_CE_CNT, .SPM_STAT, .SPM_UE_LAST]
/-- What may change with scratchpad collisions. -/
def collRegs : List Reg := [.SPM_COLL, .SPM_COLL_LAST]
/-- What may change with a completion record. -/
def cqRegs : List Reg := [.CMD_QP_STATE, .SEC_STAT]
/-- What may change with a trap. -/
def trapRegs : List Reg := [.TSEQ_STAT, .TSEQ_TPC, .TSEQ_TRAP]
/-- What may change with the end of a dispatch. -/
def detRegs : List Reg := [.DET_CAUSE, .DET_CYC_LO, .DET_CYC_HI, .DET_GID]
/-- What may change with the event log. -/
def edyRegs : List Reg := [.EDY_FREEZE, .EDY_HEAD, .EDY_MISSED, .EDY_STAT, .EDY_STATE]
/-- What may change with stages and their reports. -/
def bootRegs : List Reg := [.BOOT_REP, .BOOT_STAT]
/-- What may change with contexts, pages and errors of the KV manager. -/
def kvRegs : List Reg := [.KVM_CTXS, .KVM_FREE, .KVM_STAT, .KVM_UE_CTX]
/-- What may change with the state of a core, its counts and errors. -/
def coreRegs : List Reg := [.BSC_CSTAT_LO, .BSC_DONE0, .BSC_DONE1, .BSC_STAT, .BSC_STALLS_LO, .BSC_STALLS_HI, .BSC_CYCLES_LO, .BSC_CYCLES_HI]
/-- What may change with a mailbox command that completes. -/
def mbxRegs : List Reg := [.MBX_RESULT, .MBX_RLEN, .MBX_STATE, .MBX_STAT]
/-- What may change with a divergence. -/
def divRegs : List Reg := [.LCK_DIVCNT, .LCK_DIV_LOC, .LCK_DIV_NUM, .LCK_DIV_PT, .LCK_STAT]
/-- What may change with the measurement log. -/
def logRegs : List Reg := [.SEC_LOGN, .SEC_MR]
/-- What may change with the low-power state. -/
def lullRegs : List Reg := [.LUL_STATE, .LUL_WAKES]
/-- What may change with a port that goes down. -/
def linkRegs : List Reg := [.FAB_STATE, .FAB_STAT]
/-- What may change with firmware images. -/
def fwsRegs : List Reg := [.FWS_CLEVEL, .FWS_RUN, .FWS_STATE, .FWS_STAT, .FWS_UPROG]
/-- What may change with faults in the controller. -/
def faultRegs : List Reg := [.FLT_ACTIVE, .FLT_IDATA, .FLT_IDATA2]
/-- What may change with scratchpad owners. -/
def ownRegs : List Reg := [.SPM_HOSTATE, .SPM_OWN0, .SPM_OWN1]

/-! ### The commands -/

/-- The parts that a command may write. -/
def partsOf : Instr → List Part
  | .salu .. | .saddi .. | .slui .. | .br .. | .jal .. | .tret .. | .brk .. | .mxs .. | .mxw .. | .vop .. | .dmaw .. | .tdone ..
    | .tbar .. | .halt .. | .sys .. => memParts ++ hostParts ++ dispParts ++ [.soft, .gate]
  | .sld .. | .vld .. | .dmaq .. => memParts ++ hostParts ++ dispParts ++ [.clk, .soft, .gate]
  | .sst .. | .vst .. | .tget .. | .rdx .. => memParts ++ hostParts ++ spmParts ++ dispParts ++ [.clk, .soft, .gate]
  | .mxwRelease .. | .icacheInv .. | .clrCnt .. | .dmaDescriptorStart .. | .restart .. | .handoverComplete .. | .lull1Entry .. => [.tiles]
  | .matrixDataTrap .. => hostParts ++ dispParts ++ [.stops, .flt]
  | .arrayStep .. => spmParts ++ [.clk, .tiles, .flt, .enr]
  | .shadowLoadComplete .. => [.clk, .tiles, .flt, .enr]
  | .arrayFreezeLimit .. => [.tiles, .flt]
  | .mxaFedLoRead .. | .pciDbgWrite .. | .glbTimeLoRead | .bar0BadAccess .. => [.outs]
  | .dmaReadResponse .. => memParts ++ spmParts ++ [.clk, .soft, .tiles, .gate, .outs]
  | .dispatch .. => memParts ++ hostParts ++ [.clk, .soft, .tiles, .gate, .disps, .nextDisp, .enr, .pwr]
  | .strictRelease .. => [.tiles, .disps, .enr]
  | .taskletQueueRefill .. => memParts ++ hostParts ++ [.soft, .tiles, .gate, .disps, .lck]
  | .stealRequest .. => [.tiles, .stops]
  | .stealReply .. => hostParts ++ spmParts ++ dispParts ++ [.clk, .stops, .flt]
  | .engineFence .. => [.tiles, .stops, .enr]
  | .fenceComplete .. | .fenceTimeout .. => hostParts ++ dispParts ++ [.stops, .gate, .flt]
  | .enginePacket .. => spmParts ++ [.clk, .tiles, .stops, .flt, .outs]
  | .engineWake .. => spmParts ++ [.clk, .host, .tiles, .stops, .pcie, .flt, .sec, .enr, .pwr, .outs]
  | .meshPacketInject .. => [.stops, .disps, .packets]
  | .meshPacketHop .. => [.stops, .packets]
  | .meshLinkError .. | .marginCheck .. | .engineUndervoltage .. | .railOvercurrent .. | .domainOverload .. | .raiseSend ..
    | .conditionReraise .. | .trapAck .. | .trapTimeout | .handoverReadyTimeout => [.flt]
  | .spmOwnerWrite .. => [.tiles, .stops, .outs]
  | .spmSecureWrite .. => spmParts ++ [.tiles, .stops, .outs]
  | .wipeComplete .. => spmParts ++ [.clk, .host, .tiles, .stops, .pcie, .flt, .sec, .outs]
  | .spmPatrolRead .. => [.clk, .tiles, .flt]
  | .spmCorrectedWriteback .. => spmParts ++ [.clk, .tiles]
  | .spmDmacollClr .. | .candAck .. | .vchRefClr .. | .bscLoadDone .. | .kvmStop | .vrxRun .. | .cmdFqWrite .. | .vminClear ..
    | .divClear | .bootLoadGo | .sqcWrite .. => []
  | .vchRequest .. | .vchReadData .. | .bar4Read .. | .bar4Write .. => memParts ++ [.soft, .gate, .outs]
  | .pageTimeout .. | .bucketLeak .. => [.stops]
  | .refreshDue .. => [.stops, .cores]
  | .retrainWindow .. | .bscLeaseBegin .. => [.stops, .gate]
  | .scrubRead .. => memParts ++ [.soft, .gate]
  | .remapInstall .. | .flowRestored | .clrSaved => [.boot]
  | .remapCopy .. => [.gate, .cores]
  | .remapCopyDone .. => memParts ++ [.soft, .gate, .boot]
  | .bscProgramLoad .. => memParts ++ [.soft, .gate, .cores, .outs]
  | .bscGo .. => [.cores, .outs]
  | .bscStop .. => coreParts ++ [.gate, .flt, .outs]
  | .bscRingPoll .. => [.clk, .tiles, .stops, .flt]
  | .bscRingRecord .. => spmParts ++ [.clk, .tiles, .cores, .flt]
  | .bscTokenGrant .. => [.cores, .disps, .enr]
  | .bscCoreStart .. => [.gate, .cores, .disps]
  | .bscAlu .. | .bscAddi .. | .bscShi .. | .bscBr .. | .ldc .. | .stc .. | .bscSys .. | .rclose .. | .exp .. | .imp .. | .yld ..
    | .bscHalt .. | .bscRunLimit .. => coreParts ++ [.gate, .flt]
  | .ropen .. => coreParts ++ [.stops, .gate, .flt]
  | .rld .. => memParts ++ coreParts ++ [.soft, .gate]
  | .rst .. => coreParts ++ [.mem, .synd, .soft, .gate, .flt]
  | .bscExpWrite .. => spmParts ++ [.cores]
  | .bscImpData .. => coreParts ++ [.clk, .tiles, .gate, .flt]
  | .bscPause .. => [.stops, .gate, .cores]
  | .bscResume .. => [.stops, .gate, .cores, .disps]
  | .bscLeaseLimit .. => [.cores]
  | .seqOpen .. => memParts ++ hostParts ++ [.clk, .soft, .gate, .sec, .kv]
  | .seqStepBegin .. | .seqStepEnd .. | .kvSwapOut .. | .swapPageWriteDone .. | .kvSwapIn .. | .swapPageReadDone ..
    | .prefixPin .. => memParts ++ hostParts ++ [.clk, .soft, .gate, .kv]
  | .seqClose .. => memParts ++ hostParts ++ [.clk, .soft, .gate, .kv, .enr]
  | .pageZeroDone .. | .kvmInitDone => memParts ++ [.clk, .soft, .gate, .kv]
  | .kvmRun => [.kv]
  | .portEnable .. | .portDisable .. | .portRetrain .. | .portUnfence .. | .stage8 => eventParts ++ [.fab]
  | .trainAttemptSuccess .. => memParts ++ hostParts ++ eventParts ++ [.clk, .soft, .gate, .fab]
  | .trainAttemptTimeout .. | .linkLoss .. | .fecLimit .. => eventParts ++ [.flt, .fab]
  | .retrainRetry .. | .oldKeyExpiry .. => [.fab]
  | .frameRx .. => memParts ++ hostParts ++ [.clk, .soft, .gate, .disps, .fw, .lck, .fab, .thm]
  | .vrxWrite .. | .readReq .. | .fetchAdd .. | .tokDispatch .. | .tokNack .. | .creditMsg .. | .vrxOpen .. | .openAck ..
    | .genMsg .. | .keyxHello .. | .keyxQuote .. | .keyxEncap .. | .keyxKey .. | .keyxKeyAck .. | .vrxTime ..
    | .creditGrantExpiry .. | .fabRekey .. | .expertMap .. | .syncInterval => memParts ++ hostParts ++ [.clk, .soft, .gate, .fab]
  | .readRsp .. | .fetchRsp .. | .genMark .. | .noKeyTimeout .. => memParts ++ hostParts ++ [.soft, .gate, .fab]
  | .vrxAck .. | .retransmitTimeout .. => memParts ++ hostParts ++ [.clk, .soft, .gate, .disps, .fw, .lck, .fab]
  | .lstepDigest .. | .lockstepEnable .. => memParts ++ hostParts ++ [.clk, .soft, .gate, .lck, .fab]
  | .fwChunk .. | .fwActivationMark .. | .fwStageActivate .. => memParts ++ hostParts ++ [.clk, .soft, .gate, .sec, .fw, .fab, .boot]
  | .fwReq .. | .peerRemoveDone .. | .serviceHandoverReady | .fwRepairGap | .fwMarkRequest =>
    memParts ++ hostParts ++ [.clk, .soft, .gate, .fw, .fab]
  | .ackTimer .. => [.clk, .fab, .outs]
  | .peerReopen .. => memParts ++ [.clk, .soft, .gate, .fab, .outs]
  | .fxrRingPoll .. | .tokenRecordWrite .. => memParts ++ [.soft, .gate, .fab]
  | .sendMessage .. => memParts ++ hostParts ++ [.clk, .soft, .gate, .disps, .fab]
  | .cmdPollTick | .idleInterval | .summaryReadDone .. => [.cmd]
  | .nudge .. => [.cmd, .thm, .outs]
  | .doorbellReadDone .. | .fenceQueue .. | .fenceFunction .. | .fenceValue .. | .fenceValueTimeout .. | .attestQuote ..
    | .attestLog .. | .attestManifest .. | .fwStageChunk .. | .qpDisable .. => hostParts ++ [.flt]
  | .descriptorFetchDone .. => [.host, .cmd, .pcie, .flt, .kv]
  | .coalesceTimeout .. => [.cmd, .pcie, .outs]
  | .copyRows .. => memParts ++ hostParts ++ spmParts ++ [.clk, .soft, .tiles, .gate, .sec]
  | .fenceValuePoll .. => memParts ++ hostParts ++ [.soft, .gate]
  | .hintCmd .. => hostParts ++ [.clk, .flt, .pwr]
  | .receiptFetch .. | .receiptTake | .batchClose | .batchSign .. | .enrRelease .. => memParts ++ hostParts ++ [.clk, .soft, .gate, .enr]
  | .fwStageAbort .. => hostParts ++ [.flt, .fw]
  | .qpEnable .. => [.host, .cmd, .pcie]
  | .perstAssert => memParts ++ hostParts ++ spmParts ++ eventParts ++ [.clk, .soft, .tiles, .gate, .sec, .fw, .kv, .fab, .brd, .rst]
  | .perstDeassert | .dStateChange .. => [.pcie]
  | .linkDown | .ideStreamFail .. => memParts ++ hostParts ++ spmParts ++ eventParts ++ [.clk, .soft, .tiles, .gate, .sec, .fw, .kv, .fab]
  | .linkUp .. => memParts ++ spmParts ++ [.clk, .soft, .host, .tiles, .gate, .pcie, .edy, .sec, .outs]
  | .functionLevelReset .. | .vfEnableClear => memParts ++ [.soft, .gate, .cmd, .pcie, .sec]
  | .configRequest .. => memParts ++ [.clk, .soft, .gate, .cmd, .pcie, .sec, .outs]
  | .governorSample .. | .droopSlowdown .. => [.disps, .pwr]
  | .operatingPointChange .. => memParts ++ hostParts ++ [.clk, .soft, .gate, .disps, .sec, .fw, .fab]
  | .gustDischarge .. | .droopEnd .. | .peakClamp .. | .peakClampEnd .. | .hintPhaseBegin .. | .reservationEnd ..
    | .domainSwitchOn .. | .forcedSwitchOn .. => [.pwr]
  | .capStep .. => [.clk, .pwr, .thm]
  | .phaseEnd .. => [.clk, .pwr]
  | .sensorSample .. | .coolantLossTimeout => [.clk, .flt, .thm, .brd]
  | .thmModelUpdate .. => memParts ++ hostParts ++ [.clk, .soft, .gate, .disps, .sec, .fw, .fab, .thm, .brd]
  | .thermalCapRise | .coolantCapUpdate => [.clk, .thm]
  | .flowCount => [.clk, .flt, .thm]
  | .flowPulse | .clrSuspect .. | .sentrySample .. => [.thm]
  | .coolantDrain => hostParts ++ [.flt, .thm]
  | .coolantShutdown .. | .moduleReset | .inputPowerUp | .inputBelow38v | .inputOvervoltage | .pwrEnRise | .pwrEnFall .. =>
    memParts ++ hostParts ++ spmParts ++ dispParts ++ coreParts ++ eventParts ++ [.clk, .act, .wset, .parBad, .soft, .gate, .nextDisp,
      .packets, .sec, .fw, .kv, .fab, .pwr, .thm, .brd, .rst]
  | .thermAlertRelease | .inputReconnect => [.brd]
  | .lull2Entry .. => spmParts ++ [.tiles, .enr]
  | .sentryEntry .. => spmParts ++ [.tiles, .enr, .pwr, .thm]
  | .meterFail .. => [.flt, .enr]
  | .periodEnd .. => memParts ++ hostParts ++ [.clk, .soft, .gate, .sec, .fw, .kv, .enr, .fab]
  | .ledgerFlush => memParts ++ [.soft, .gate, .enr]
  | .receiptWaitExpiry .. => hostParts ++ [.flt, .enr]
  | .reconcile => [.clk, .flt, .enr]
  | .enrRun .. => [.enr]
  | .lcChange | .svnCommit | .confSet | .progLoad | .sessionOpen | .sessionClose | .mbxQuote | .mbxInfo | .mbxManifest | .calRead
    | .spdmMessage .. => memParts ++ spmParts ++ [.clk, .soft, .host, .tiles, .gate, .pcie, .sec, .outs]
  | .tamper .. => memParts ++ spmParts ++ [.soft, .tiles, .gate, .sec]
  | .digestDone .. => memParts ++ hostParts ++ [.clk, .soft, .gate, .disps, .lck, .fab]
  | .lockstepTimeout .. => [.flt, .lck]
  | .stage0 .. => eventParts ++ [.clk, .flt, .sec, .brd]
  | .stage1 .. => eventParts ++ [.pcie, .sec]
  | .stage2 | .stage4 .. | .stage9 | .minPortsWrite .. => eventParts
  | .stage3 .. => hostParts ++ spmParts ++ dispParts ++ eventParts ++ [.clk, .stops, .gate, .flt, .sec, .pwr]
  | .stage5 .. => eventParts ++ [.mem, .synd, .soft, .sec]
  | .stage6 .. => hostParts ++ dispParts ++ eventParts ++ [.stops, .gate, .flt]
  | .stage7 .. => eventParts ++ [.clk, .stops, .gate, .cores, .tokRel, .flt]
  | .bootTimeout => memParts ++ spmParts ++ eventParts ++ [.clk, .soft, .host, .tiles, .gate, .pcie, .sec, .fw, .outs]
  | .microcodeEngineLoad .. => memParts ++ hostParts ++ dispParts ++ [.clk, .soft, .gate, .sec, .fw, .fab]
  | .resetRequest .. => hostParts ++ dispParts ++ coreParts ++ [.act, .wset, .parBad, .stops, .gate, .packets, .flt, .edy, .fab, .rst]
  | .resetWorkDone => [.tiles, .rst]
  | .resetWorkTimeout => hostParts ++ dispParts ++ [.stops, .gate, .flt, .rst]
  | .resetBoundaryEmpty => coreParts ++ [.act, .wset, .parBad, .tiles, .stops, .gate, .packets, .flt]
  | .resetDeadline => [.edy, .rst]
  | .resetScopeReady => hostParts ++ dispParts ++ [.stops, .gate, .flt, .edy, .fab, .rst]
  | .faultRaise =>
    hostParts ++ dispParts ++ coreParts ++ [.act, .wset, .parBad, .stops, .gate, .packets, .flt, .edy, .fab, .thm, .brd, .rst]
  | .quietExpiry .. | .edyRelease .. => [.flt, .edy, .brd]
  | .pinClr => [.flt, .brd]
  | .logInfo | .logRead .. | .faultRead .. => [.thm, .outs]
  | .logRelease .. => [.flt, .edy, .thm, .brd, .outs]
  | .capSet .. => [.clk, .thm, .brd, .outs]
  | .bitAliasWrite .. | .registerWrite .. =>
    memParts ++ hostParts ++ spmParts ++ dispParts ++ coreParts ++ eventParts ++ [.clk, .act, .wset, .parBad, .soft, .gate, .packets,
      .sec, .kv, .fab, .thm, .brd, .rst]
  | .parityCheck .. => [.parBad, .flt]
  | .stgCommit .. | .stgDiscard .. => [.wset]
  | .stagedApply .. => [.act, .wset]
  | .slotReturn .. => memParts ++ hostParts ++ [.clk, .soft, .gate, .enr, .fab]
  | .hostReadCompletion .. => memParts ++ hostParts ++ spmParts ++ eventParts ++ [.clk, .soft, .tiles, .gate, .sec, .fw, .fab]

/-- The registers that a command may write. -/
def regsOf : Instr → List Reg
  | .salu .. | .saddi .. | .slui .. | .br .. | .jal .. | .tret .. | .brk .. | .dmaw .. | .tbar .. | .sys .. =>
    vchRegs ++ cqRegs ++ trapRegs ++ detRegs ++ [.CMD_STAT, .PCI_STAT]
  | .sld .. | .sst .. | .vld .. | .vst .. | .dmaq .. | .tget .. | .rdx .. =>
    vchRegs ++ spmRegs ++ cqRegs ++ trapRegs ++ detRegs ++ [.CMD_STAT, .PCI_STAT]
  | .mxs .. | .mxw .. => vchRegs ++ cqRegs ++ trapRegs ++ detRegs ++ [.CMD_STAT, .PCI_STAT, .MXA_STAT]
  | .mxwRelease .. | .icacheInv .. | .stealRequest .. | .spmCorrectedWriteback .. | .pageTimeout .. | .bscLeaseBegin ..
    | .bscLeaseLimit .. | .retrainRetry .. | .ackTimer .. | .oldKeyExpiry .. | .idleInterval | .perstDeassert | .dStateChange ..
    | .droopEnd .. | .railOvercurrent .. | .domainOverload .. | .peakClampEnd .. | .hintPhaseBegin .. | .reservationEnd ..
    | .flowPulse | .flowRestored | .thermAlertRelease | .clrSaved | .raiseSend .. | .conditionReraise .. | .pinClr
    | .inputReconnect | .handoverReadyTimeout => []
  | .vop .. => vchRegs ++ cqRegs ++ trapRegs ++ detRegs ++ [.CMD_STAT, .PCI_STAT, .VEC_STAT]
  | .tdone .. | .halt .. => vchRegs ++ cqRegs ++ trapRegs ++ detRegs ++ [.CMD_STAT, .PCI_STAT, .TSEQ_DMA]
  | .matrixDataTrap .. => cqRegs ++ trapRegs ++ detRegs ++ [.CMD_STAT, .PCI_STAT]
  | .arrayStep .. =>
    bucketRegs ++ spmRegs ++ [.TSEQ_STAT, .TSEQ_DMA, .MXA_STAT, .MXA_FED_LO, .MXA_DROPPED, .MXA_SKIPGRP, .MXA_FRZ_DRY, .MXA_FRZ_BACK,
      .MXA_BUBBLE]
  | .shadowLoadComplete .. => bucketRegs ++ spmRegs ++ [.MXA_STAT]
  | .arrayFreezeLimit .. | .engineFence .. => [.MXA_STAT]
  | .clrCnt .. => [.MXA_FED_LO, .MXA_FED_HI, .MXA_DROPPED, .MXA_SKIPGRP, .MXA_FRZ_DRY, .MXA_FRZ_BACK, .MXA_BUBBLE]
  | .mxaFedLoRead .. => [.MXA_FED_HI]
  | .dmaDescriptorStart .. => [.TSEQ_STAT, .TSEQ_DMA]
  | .dmaReadResponse .. => vchRegs ++ spmRegs ++ collRegs ++ [.TSEQ_STAT, .TSEQ_DMA, .SPM_DMACOLL, .KVS_HIT, .KVS_FILL]
  | .restart .. => [.TSEQ_DMA]
  | .dispatch .. => vchRegs ++ cqRegs ++ [.CMD_STAT, .PCI_STAT, .LCK_NUM, .TSEQ_TVEC, .TSEQ_PBASE_LO, .TSEQ_PBASE_HI, .DET_CAUSE]
  | .strictRelease .. => [.DET_CAUSE]
  | .taskletQueueRefill .. => vchRegs ++ cqRegs ++ detRegs ++ [.CMD_STAT, .PCI_STAT]
  | .stealReply .. => bucketRegs ++ spmRegs ++ cqRegs ++ trapRegs ++ detRegs ++ [.CMD_STAT, .PCI_STAT, .TSK_TDC]
  | .fenceComplete .. | .fenceTimeout .. => cqRegs ++ detRegs ++ [.GLB_DISMAP, .CMD_STAT, .PCI_STAT, .TSEQ_STAT, .TSK_TDC, .TSK_ORPHAN]
  | .enginePacket .. => bucketRegs ++ spmRegs ++ collRegs ++ [.TSEQ_STAT, .TSEQ_DMA, .SPM_DMACOLL]
  | .engineWake .. =>
    bucketRegs ++ spmRegs ++ collRegs ++ mbxRegs ++ [.PCI_STAT, .SEC_LC, .LUL_STATE, .TSEQ_STAT, .TSEQ_DMA, .SPM_SECURE, .SPM_HOSTATE,
      .SPM_DMACOLL]
  | .meshPacketInject .. => [.TSK_TDC, .MESH_STAT, .DET_CAUSE]
  | .meshPacketHop .. => [.MESH_LAT_MAX]
  | .meshLinkError .. => [.MESH_STAT]
  | .spmOwnerWrite .. => ownRegs ++ [.SPM_STAT]
  | .handoverComplete .. => [.SPM_HOSTATE]
  | .spmSecureWrite .. => [.SPM_SECURE, .SPM_HOSTATE, .SPM_STAT]
  | .wipeComplete .. =>
    bucketRegs ++ spmRegs ++ collRegs ++ mbxRegs ++ [.PCI_STAT, .SEC_LC, .TSEQ_STAT, .TSEQ_DMA, .SPM_SECURE, .SPM_HOSTATE, .SPM_DMACOLL]
  | .spmPatrolRead .. | .bscRingPoll .. => bucketRegs ++ spmRegs
  | .spmDmacollClr .. => [.SPM_DMACOLL]
  | .vchRequest .. | .vchReadData .. | .scrubRead .. | .peerReopen .. | .fxrRingPoll .. | .tokenRecordWrite .. => vchRegs
  | .refreshDue .. | .vchRefClr .. => [.VCH_REF]
  | .marginCheck .. => [.VCH_STAT]
  | .retrainWindow .. => [.VCH_STAT, .VCH_TRAIN_L]
  | .bucketLeak .. => [.VCH_BUCKET]
  | .candAck .. => [.VCH_CAND]
  | .remapInstall .. | .remapCopy .. => [.VCH_STAT, .VCH_REMAP]
  | .remapCopyDone .. => vchRegs ++ [.VCH_REMAP]
  | .bscProgramLoad .. => vchRegs ++ [.BSC_STAT, .BSC_PCTL]
  | .bscLoadDone .. => [.BSC_STAT, .BSC_PCTL]
  | .bscGo .. => coreRegs ++ [.BSC_PAUSES_REF, .BSC_PAUSES_LEASE, .BSC_XCOLL]
  | .bscStop .. | .bscAlu .. | .bscAddi .. | .bscShi .. | .bscBr .. | .ldc .. | .bscSys .. | .ropen .. | .rclose .. | .rst ..
    | .yld .. | .bscHalt .. | .bscRunLimit .. => coreRegs ++ [.BSC_ERRCNT, .BSC_CSTAT_HI]
  | .bscRingRecord .. =>
    bucketRegs ++ spmRegs ++ collRegs ++ coreRegs ++ [.BSC_RCONS, .BSC_CTRL_LO, .BSC_CTRL_HI, .BSC_PAUSES_REF, .BSC_PAUSES_LEASE,
      .BSC_XCOLL, .BSC_CTX, .BSC_DATA_LO, .BSC_DATA_HI]
  | .bscTokenGrant .. => [.TSK_TDC, .DET_CAUSE]
  | .bscCoreStart .. | .bscResume .. =>
    [.TSK_TDC, .BSC_DONE0, .BSC_DONE1, .DET_CAUSE, .BSC_CSTAT_LO, .BSC_CYCLES_LO, .BSC_CYCLES_HI, .BSC_STALLS_LO, .BSC_STALLS_HI]
  | .stc .. => coreRegs ++ [.BSC_ERRCNT, .BSC_CSTAT_HI, .BSC_DATA_LO, .BSC_DATA_HI]
  | .rld .. => vchRegs ++ coreRegs ++ [.BSC_ERRCNT, .BSC_CSTAT_HI]
  | .exp .. | .imp .. => coreRegs ++ [.SPM_STAT, .BSC_ERRCNT, .BSC_CSTAT_HI]
  | .bscExpWrite .. => collRegs ++ [.SPM_STAT, .BSC_STAT, .BSC_XCOLL]
  | .bscImpData .. => bucketRegs ++ spmRegs ++ coreRegs ++ [.BSC_ERRCNT, .BSC_CSTAT_HI]
  | .bscPause .. =>
    [.BSC_DONE0, .BSC_DONE1, .BSC_CSTAT_LO, .BSC_CYCLES_LO, .BSC_CYCLES_HI, .BSC_STALLS_LO, .BSC_STALLS_HI, .BSC_PAUSES_REF,
      .BSC_PAUSES_LEASE]
  | .seqOpen .. => vchRegs ++ cqRegs ++ kvRegs ++ [.CMD_STAT, .PCI_STAT, .PFX_HIT, .PFX_MISS]
  | .seqStepBegin .. | .seqStepEnd .. => vchRegs ++ cqRegs ++ kvRegs ++ [.CMD_STAT, .PCI_STAT, .KVM_PREEMPTS, .PFX_EVICT, .PFX_SKIP]
  | .seqClose .. => vchRegs ++ cqRegs ++ kvRegs ++ [.CMD_STAT, .PCI_STAT, .ENR_STAT]
  | .pageZeroDone .. => vchRegs ++ [.KVM_FREE, .KVM_CTXS]
  | .kvSwapOut .. | .swapPageWriteDone .. | .swapPageReadDone .. => vchRegs ++ cqRegs ++ kvRegs ++ [.CMD_STAT, .PCI_STAT]
  | .kvSwapIn .. => vchRegs ++ cqRegs ++ kvRegs ++ [.CMD_STAT, .PCI_STAT, .KVM_PREEMPTS]
  | .prefixPin .. => vchRegs ++ cqRegs ++ [.CMD_STAT, .PCI_STAT, .KVM_STAT, .KVM_FREE, .KVM_CTXS]
  | .kvmRun => [.KVM_CTL, .KVM_STAT]
  | .kvmStop => [.KVM_CTL]
  | .kvmInitDone => vchRegs ++ [.KVM_CTL, .KVM_FREE, .KVM_CTXS]
  | .portEnable .. => edyRegs ++ bootRegs ++ [.FAB_CFG, .FAB_STATE]
  | .portDisable .. => edyRegs ++ bootRegs ++ linkRegs ++ [.FAB_CFG]
  | .trainAttemptSuccess .. => vchRegs ++ cqRegs ++ edyRegs ++ bootRegs ++ linkRegs ++ [.CMD_STAT, .PCI_STAT]
  | .trainAttemptTimeout .. | .linkLoss .. | .portRetrain .. => edyRegs ++ bootRegs ++ linkRegs
  | .fecLimit .. => edyRegs ++ bootRegs ++ linkRegs ++ [.FAB_FEC_CE, .FAB_FEC_UE]
  | .portUnfence .. | .stage8 => edyRegs ++ bootRegs ++ [.FAB_STATE]
  | .vrxRun .. => [.VRX_CTL, .VRX_STAT]
  | .frameRx .. =>
    vchRegs ++ cqRegs ++ divRegs ++ lullRegs ++ linkRegs ++ [.CMD_STAT, .PCI_STAT, .FWS_STAT, .VRX_STAT, .VRX_RETX, .VRX_DROP,
      .VRX_AUTH_FAIL, .VRX_TDC, .EXH_DRAINED, .TSK_TDC, .DET_CAUSE]
  | .vrxWrite .. | .readReq .. | .fetchAdd .. => vchRegs ++ cqRegs ++ [.CMD_STAT, .PCI_STAT, .VRX_STAT]
  | .readRsp .. | .fetchRsp .. | .tokDispatch .. | .tokNack .. | .creditMsg .. | .vrxOpen .. | .openAck .. | .genMsg ..
    | .keyxHello .. | .keyxQuote .. | .keyxEncap .. | .keyxKey .. | .fwReq .. | .creditGrantExpiry .. | .noKeyTimeout ..
    | .fenceValuePoll .. | .receiptFetch .. | .batchClose | .fwMarkRequest | .syncInterval | .slotReturn .. =>
    vchRegs ++ cqRegs ++ [.CMD_STAT, .PCI_STAT]
  | .vrxAck .. | .retransmitTimeout .. =>
    vchRegs ++ cqRegs ++ divRegs ++ linkRegs ++ [.CMD_STAT, .PCI_STAT, .FWS_STAT, .VRX_STAT, .VRX_RETX, .VRX_TDC, .EXH_DRAINED,
      .TSK_TDC, .DET_CAUSE]
  | .genMark .. | .expertMap .. => vchRegs ++ cqRegs ++ [.CMD_STAT, .PCI_STAT, .VRX_STAT, .EXH_DRAINED]
  | .keyxKeyAck .. | .fabRekey .. => vchRegs ++ cqRegs ++ linkRegs ++ [.CMD_STAT, .PCI_STAT]
  | .vrxTime .. => vchRegs ++ cqRegs ++ [.CMD_STAT, .PCI_STAT, .TSY_STAT, .TSY_OFFSET]
  | .lstepDigest .. | .digestDone .. => vchRegs ++ cqRegs ++ divRegs ++ [.CMD_STAT, .PCI_STAT]
  | .fwChunk .. => vchRegs ++ cqRegs ++ logRegs ++ fwsRegs ++ [.CMD_STAT, .PCI_STAT, .FWS_IGEN, .FWS_CNT, .FLT_TQ]
  | .fwActivationMark .. | .fwStageActivate .. => vchRegs ++ cqRegs ++ logRegs ++ fwsRegs ++ [.CMD_STAT, .PCI_STAT, .FLT_TQ]
  | .sendMessage .. => vchRegs ++ cqRegs ++ [.CMD_STAT, .PCI_STAT, .VRX_TDC, .TSK_TDC, .DET_CAUSE]
  | .peerRemoveDone .. => vchRegs ++ cqRegs ++ linkRegs ++ [.CMD_STAT, .PCI_STAT, .FWS_STAT, .VRX_STAT, .EXH_DRAINED]
  | .cmdPollTick | .coalesceTimeout .. => [.PCI_STAT]
  | .nudge .. | .sentrySample .. | .logInfo | .faultRead .. => lullRegs
  | .summaryReadDone .. => [.CMD_STAT]
  | .doorbellReadDone .. | .fenceQueue .. | .fenceFunction .. | .fenceValue .. | .fenceValueTimeout .. | .attestQuote ..
    | .attestLog .. | .attestManifest .. | .fwStageChunk .. => cqRegs ++ [.CMD_STAT, .PCI_STAT]
  | .descriptorFetchDone .. => [.CMD_STAT, .CMD_QP_STATE, .PCI_STAT]
  | .copyRows .. => vchRegs ++ spmRegs ++ collRegs ++ cqRegs ++ [.CMD_STAT, .PCI_STAT, .RST_STAT, .SPM_DMACOLL]
  | .hintCmd .. => cqRegs ++ [.CMD_STAT, .PCI_STAT, .PWR_STAT, .PWR_PROF_DATA]
  | .fwStageAbort .. => cqRegs ++ [.CMD_STAT, .PCI_STAT, .FWS_STATE]
  | .qpEnable .. => [.GLB_FROZEN_LAST, .CMD_STAT, .CMD_QP_CFG, .CMD_QP_STATE, .PCI_STAT]
  | .qpDisable .. => cqRegs ++ [.GLB_FROZEN_LAST, .CMD_STAT, .CMD_QP_CFG, .PCI_STAT]
  | .cmdFqWrite .. => [.GLB_FROZEN_LAST, .CMD_STAT, .CMD_FQ]
  | .perstAssert | .linkDown | .ideStreamFail .. =>
    vchRegs ++ spmRegs ++ collRegs ++ cqRegs ++ edyRegs ++ bootRegs ++ mbxRegs ++ logRegs ++ fwsRegs ++ ownRegs ++ [.CMD_STAT,
      .CMD_QP_CFG, .PCI_LINK, .PCI_STAT, .PCI_CNT, .RST_STAT, .SEC_LC, .SEC_CONF, .SEC_LCNONCE_LO, .SEC_LCNONCE_HI, .FWB_STAT, .FWS_IGEN,
      .FLT_TQ, .SPM_DMACOLL]
  | .linkUp .. =>
    vchRegs ++ edyRegs ++ mbxRegs ++ logRegs ++ ownRegs ++ [.PCI_LINK, .PCI_STAT, .PCI_CNT, .SEC_LC, .SEC_STAT, .SEC_CONF,
      .SEC_LCNONCE_LO, .SEC_LCNONCE_HI]
  | .functionLevelReset .. | .vfEnableClear | .configRequest .. => vchRegs ++ [.CMD_QP_CFG, .CMD_QP_STATE, .SEC_CONF, .KVM_STAT]
  | .bar4Read .. | .bar4Write .. => vchRegs ++ [.PCI_STAT]
  | .pciDbgWrite .. => [.PCI_DBG]
  | .governorSample .. => [.WPW_STAT, .TSK_TDC, .TPW_STAT, .TPW_VMIN, .TPW_VMIN_T_LO, .TPW_VMIN_T_HI, .TPW_I, .TPW_SWALLOW, .DET_CAUSE]
  | .operatingPointChange .. =>
    vchRegs ++ cqRegs ++ logRegs ++ [.CMD_STAT, .PCI_STAT, .FWS_STAT, .FWS_STATE, .TSK_TDC, .TPW_STAT, .TPW_PSTATE, .DET_CAUSE]
  | .gustDischarge .. => [.TPW_GUST]
  | .droopSlowdown .. => [.TSK_TDC, .TPW_STAT, .TPW_DROOP, .DET_CAUSE]
  | .vminClear .. => [.TPW_VMIN]
  | .engineUndervoltage .. => [.TPW_STAT]
  | .capStep .. => [.PWR_STAT, .PWR_AVG, .TPW_I]
  | .peakClamp .. => [.PWR_STAT, .PWR_CLAMPS]
  | .phaseEnd .. => [.PWR_PROF_DATA]
  | .domainSwitchOn .. => [.WPW_STAT, .WPW_SEQCNT, .WPW_DMAX]
  | .forcedSwitchOn .. => [.TPW_I]
  | .sensorSample .. => [.PWR_AVG, .THM_STAT, .THM_SDATA, .COOL_STAT, .COOL_TEMP, .COOL_TCAP]
  | .thmModelUpdate .. =>
    vchRegs ++ cqRegs ++ logRegs ++ [.CMD_STAT, .PCI_STAT, .PWR_AVG, .FWS_STAT, .FWS_STATE, .THM_STAT, .THM_SDATA, .THM_NDATA,
      .COOL_TCAP, .TSK_TDC, .VCH_REF, .TPW_STAT, .DET_CAUSE]
  | .thermalCapRise => [.PWR_AVG, .COOL_TCAP]
  | .coolantCapUpdate => [.PWR_AVG, .COOL_RTH, .COOL_TCAP]
  | .flowCount => [.COOL_STAT, .COOL_FLOW]
  | .coolantLossTimeout => [.PWR_AVG, .COOL_STAT, .COOL_TCAP]
  | .coolantDrain => cqRegs ++ [.CMD_STAT, .CMD_QP_CFG, .PCI_STAT, .COOL_TCAP]
  | .coolantShutdown .. | .resetRequest .. | .resetBoundaryEmpty | .moduleReset | .faultRaise | .bitAliasWrite ..
    | .registerWrite .. | .inputPowerUp | .inputBelow38v | .inputOvervoltage | .pwrEnRise | .pwrEnFall .. => Reg.all
  | .clrSuspect .. => [.THM_SDATA]
  | .lull1Entry .. => [.LUL_STATE]
  | .lull2Entry .. | .sentryEntry .. => [.LUL_STATE, .MXA_STAT]
  | .meterFail .. => [.ENR_STAT]
  | .periodEnd .. => vchRegs ++ cqRegs ++ logRegs ++ [.CMD_STAT, .PCI_STAT, .ENR_QLEN, .FWS_STAT, .FWS_STATE]
  | .ledgerFlush => vchRegs ++ [.ENR_QLEN]
  | .receiptTake => vchRegs ++ cqRegs ++ [.CMD_STAT, .PCI_STAT, .ENR_STAT, .ENR_QLEN]
  | .receiptWaitExpiry .. => cqRegs ++ [.CMD_STAT, .PCI_STAT, .ENR_STAT]
  | .batchSign .. => vchRegs ++ cqRegs ++ [.CMD_STAT, .PCI_STAT, .ENR_BATCH_LO, .ENR_BATCH_HI]
  | .reconcile => [.ENR_STAT, .ENR_RESID]
  | .enrRun .. => [.ENR_CTL, .ENR_STAT]
  | .enrRelease .. => vchRegs ++ cqRegs ++ [.CMD_STAT, .PCI_STAT, .ENR_REL_LO]
  | .lcChange | .svnCommit | .confSet | .progLoad | .sessionOpen | .sessionClose | .mbxQuote | .mbxInfo | .mbxManifest | .calRead =>
    vchRegs ++ mbxRegs ++ logRegs ++ ownRegs ++ [.MBX_CTL, .PCI_STAT, .SEC_LC, .SEC_STAT, .SEC_CONF, .SEC_LCNONCE_LO, .SEC_LCNONCE_HI]
  | .tamper .. => vchRegs ++ ownRegs ++ [.SEC_LC, .SEC_STAT, .SEC_CONF, .SEC_TAMPER, .KVM_STAT]
  | .spdmMessage .. =>
    vchRegs ++ mbxRegs ++ logRegs ++ ownRegs ++ [.PCI_LINK, .PCI_STAT, .SEC_LC, .SEC_STAT, .SEC_CONF, .SEC_LCNONCE_LO, .SEC_LCNONCE_HI]
  | .lockstepEnable .. => vchRegs ++ cqRegs ++ divRegs ++ [.CMD_STAT, .PCI_STAT, .LCK_CTL, .LCK_NUM]
  | .lockstepTimeout .. => divRegs
  | .divClear => [.LCK_DIV_NUM, .LCK_DIV_LOC, .LCK_DIV_PT]
  | .stage0 .. => edyRegs ++ bootRegs ++ logRegs ++ [.SEC_STAT]
  | .stage1 .. => edyRegs ++ bootRegs ++ logRegs ++ [.PCI_CFG, .SEC_CONF]
  | .stage2 | .stage7 .. => edyRegs ++ bootRegs
  | .stage3 .. =>
    bucketRegs ++ spmRegs ++ collRegs ++ cqRegs ++ detRegs ++ edyRegs ++ bootRegs ++ logRegs ++ [.GLB_DISMAP, .CMD_STAT, .PCI_STAT,
      .PWR_SBCAP, .PWR_AVG, .TSEQ_STAT, .TSEQ_DMA, .SPM_SECURE, .SPM_HOSTATE, .SPM_DMACOLL, .MXA_STAT, .TSK_TDC, .TSK_ORPHAN]
  | .stage4 .. => edyRegs ++ bootRegs ++ [.VCH_STAT, .VCH_TRAIN_L]
  | .stage5 .. => edyRegs ++ bootRegs ++ [.VCH_STAT, .VCH_REMAP]
  | .stage6 .. =>
    cqRegs ++ detRegs ++ edyRegs ++ bootRegs ++ [.GLB_DISMAP, .CMD_STAT, .PCI_STAT, .TSEQ_STAT, .MXA_STAT, .TSK_TDC, .TSK_ORPHAN]
  | .stage9 => edyRegs ++ bootRegs ++ [.VCH_CFG]
  | .minPortsWrite .. => edyRegs ++ bootRegs ++ [.BOOT_CFG]
  | .bootLoadGo => [.PCI_STAT, .FWB_STAT]
  | .bootTimeout =>
    vchRegs ++ edyRegs ++ bootRegs ++ mbxRegs ++ logRegs ++ ownRegs ++ [.PCI_STAT, .SEC_LC, .SEC_STAT, .SEC_CONF, .SEC_LCNONCE_LO,
      .SEC_LCNONCE_HI, .FWB_STAT]
  | .serviceHandoverReady => vchRegs ++ cqRegs ++ [.CMD_STAT, .PCI_STAT, .FWS_STAT, .FWS_STATE, .FLT_TQ]
  | .microcodeEngineLoad .. =>
    vchRegs ++ cqRegs ++ detRegs ++ logRegs ++ [.GLB_DISMAP, .CMD_STAT, .PCI_STAT, .FWS_STAT, .FWS_STATE, .FWS_UPROG, .TSEQ_STAT,
      .MXA_STAT, .TSK_TDC, .TSK_ORPHAN]
  | .fwRepairGap => vchRegs ++ cqRegs ++ [.CMD_STAT, .PCI_STAT, .FWS_STAT]
  | .resetWorkDone => [.RST_STATE]
  | .resetWorkTimeout =>
    cqRegs ++ detRegs ++ [.GLB_DISMAP, .CMD_STAT, .PCI_STAT, .RST_STAT, .RST_STATE, .TSEQ_STAT, .MXA_STAT, .TSK_TDC, .TSK_ORPHAN]
  | .resetDeadline => edyRegs ++ [.RST_STAT]
  | .resetScopeReady =>
    cqRegs ++ detRegs ++ edyRegs ++ faultRegs ++ [.GLB_DISMAP, .CMD_STAT, .PCI_STAT, .RST_STAT, .RST_STATE, .RST_CNT, .RST_LAST,
      .FAB_STATE, .TSEQ_STAT, .MXA_STAT, .TSK_TDC, .TSK_ORPHAN, .VCH_CFG]
  | .quietExpiry .. => edyRegs ++ faultRegs
  | .trapAck .. | .trapTimeout => [.FLT_TQ]
  | .edyRelease .. => edyRegs
  | .logRead .. => lullRegs ++ [.EDY_STAT]
  | .logRelease .. => edyRegs ++ lullRegs
  | .capSet .. => lullRegs ++ [.PWR_SBCAP, .PWR_AVG]
  | .sqcWrite .. => Reg.all.filter Reg.isStatus ++ [.GLB_STAT, .GLB_SQC_LAST]
  | .parityCheck .. => [.GLB_STAT, .GLB_PAR_ADDR]
  | .stgCommit .. | .stgDiscard .. => [.STG_CTL, .STG_STAT, .STG_STATE, .STG_RSN]
  | .stagedApply .. => [.STG_STAT, .STG_STATE]
  | .glbTimeLoRead => [.GLB_TIME_HI]
  | .bar0BadAccess .. => [.GLB_STAT]
  | .hostReadCompletion .. =>
    vchRegs ++ spmRegs ++ collRegs ++ cqRegs ++ edyRegs ++ bootRegs ++ mbxRegs ++ logRegs ++ fwsRegs ++ ownRegs ++ [.CMD_STAT,
      .PCI_STAT, .RST_STAT, .SEC_LC, .SEC_CONF, .SEC_LCNONCE_LO, .SEC_LCNONCE_HI, .FWB_STAT, .FWS_IGEN, .FLT_TQ, .SPM_DMACOLL]

end Sys2Proof.Machine
end

