-- ==== Sys2Proof/Safety.lean ====
section
/-! DEFINITION. What counts as a safe state, and the conditions under which claims say that a command has its own effect. -/

namespace Sys2Proof.Machine

/-! ### Invariants -/

/-- Device memory is in its canonical form. -/
abbrev State.memOk (s : State) : Prop := Memory.wf s.mem = true

/-- What holds of the board: the sideband cap lies in its range, a disconnected input carries no voltage, the converters run only with
input power. -/
abbrev State.boardOk (s : State) : Prop :=
  300 ≤ s.brd.sbCap ∧ s.brd.sbCap ≤ 1200 ∧ (s.brd.cut = true → s.brd.input = false) ∧ (s.brd.on = true → s.brd.input = true)
/-- The registers that fuses fill hold what the fuses give (R1, R4, R339). -/
def State.idOk (s : State) : Prop :=
  ∀ r, r ∈ ([.GLB_IDENT, .GLB_FEATURES, .GLB_SERIAL_LO, .GLB_SERIAL_HI, .GLB_FUSEMAP] : List Reg) →
    ∀ i, s.rget r i = BitVec.ofNat 32 (r.rst i)

/-! ### When a command has its own effect -/

/-- Engine `t` issues the word `w` of opcode `opc`: it may issue, no matrix-data trap is pending, and `w` is what the fetch at its PC
gives (R58, R60, R61). -/
def State.issues (s : State) (t : Nat) (w : Word) (opc : Nat) : Bool :=
  (s.eng t).mayIssue && !(s.eng t).pendMx && (s.fetchWord t (s.eng t).pc).2 == .word w && wOpc w == opc
/-- The state once the line of the PC is in the instruction cache (R58). -/
def State.lineIn (s : State) (t : Nat) : State := (s.fetchWord t (s.eng t).pc).1
/-- The lines that hold the instruction word at the PC are in the instruction cache (R58). -/
def State.cached (s : State) (t : Nat) : Bool :=
  let da := s.get64 .TSEQ_PBASE_LO .TSEQ_PBASE_HI t + (s.eng t).pc
  let has (line : Nat) : Bool := (SMap.get (s.eng t).lines (line % 128) []).any (·.1 == line)
  has (da / 128) && (decide (da % 128 ≤ 124) || has (da / 128 + 1))
/-- No stop holds a request: nothing is lent, held for training, copied or being read, no tower is closed for a reset, and no stop is in
scheduled-slot mode (R126, R131, R141, R158, R384). -/
def State.gateOpen (s : State) : Prop := s.gate = Gate.clear ∧ s.resetTower = none ∧ s.slotTiles = []
/-- An access of function `f`'s window by a sender passes the port: the service core's does, the host's when the port serves it (R268, R272,
R374, R385). -/
def State.passes (s : State) (f : Nat) : By → Prop
  | .svc => True
  | .host st => s.memOpen f st = true ∧ s.hostHeld = false
/-- The engine past an instruction of `n` words. -/
def Eng.past (e : Eng) (n : Nat) : Eng := { e with pc := (e.pc + 4 * n) % 2 ^ 32, stall := none }

/-- The tile's program may read and write [a, a + n) of its scratchpad, and every word of it has a good code (R104, R107, R118). -/
def State.progOk (s : State) (t a n : Nat) : Bool :=
  decide (a + n ≤ 2 ^ 23) && s.spmGrant t a n .prog == .yes &&
  (List.range ((a + n + 7) / 8 - a / 8)).all (fun k => SMap.get s.spmErr (spmKey t 0 / 8 + a / 8 + k) 0 == 0)
/-- Every word of the atom stored at a place has a good code, and so has each of its units on the die (R132, R133). -/
def State.atomClean (s : State) (pl : Nat) : Bool :=
  (List.range 32).all (fun i => SMap.get s.synd (pl / 8 + i) 0 == 0) && SMap.get s.soft (pl / 256) 0 == 0
/-- Core (t, c) issues the word `w` of opcode `opc`: it runs, no pause notice holds it, its PC and the parity of its program word are
good, and none of the registers `rs` waits for IMP data (R144, R146, R147, R160). -/
def State.coreIssues (s : State) (t c opc : Nat) (w : Word) (rs : List Nat) : Bool :=
  let k := s.core t c
  s.cstate t c == csRUN && k.pause.isEmpty && decide (k.pc < 1024) && !k.badPar.contains k.pc && SMap.get k.store k.pc 0 == w &&
  kOPC w == opc && !rs.any (s.regPending t c)
/-- Descriptor `idx` of queue pair `q` is `d`, of a type, and may start (R250). -/
def State.starts (s : State) (q idx type : Nat) (d : Descr) : Prop := s.descr q idx = some d ∧ d.type = type ∧ s.mayStart q d = true
/-- The same for a descriptor of the KV manager (R172). -/
def State.kvStarts (s : State) (q idx type : Nat) (d : Descr) : Prop := s.descr q idx = some d ∧ d.type = type ∧ s.kvMay q d = true
/-- The descriptor once it has started. -/
def State.going (s : State) (d : Descr) : Descr := { d with started := true, since := s.clk.ns }
/-- The state in which a command that reads or writes device memory runs (R158, log entry 79). -/
def State.running (s : State) (c : Instr) : State := { s with gate := { s.gate with who := some (.cmd c), slots := s.slotTiles, blk := [] } }
/-- The scratchpads are in their canonical form. -/
abbrev State.spmOk (s : State) : Prop := SMap.sortedFrom none s.spm = true

/-- A message `m` of peer `i` with number `msn`, OP and step as `ops` says, is complete and may take effect (R220). -/
def State.arrives (s : State) (i msn : Nat) (ops : Nat → Nat → Bool) (m : RxMsg) : Prop :=
  (s.peer i).rx.find? (fun y => y.msn == msn && ops y.op y.arg0 && (s.peer i).mayEffect y) = some m
/-- The state once message `m` of peer `i` counts as having taken effect. -/
def State.took (s : State) (i : Nat) (m : RxMsg) : State := s.setPeer i ((s.peer i).effected m)
/-- A control packet `m` of peer `i` waits, and the state without it. -/
def State.control (s : State) (i op arg : Nat) (m : RxMsg) (u : State) : Prop :=
  (s.peer i).ctl.find? (fun y => y.op == op && (op == opACK || y.arg0 % 2 == arg)) = some m ∧
  u = s.setPeer i { s.peer i with ctl := (s.peer i).ctl.erase m }

/-! ### What a state keeps of another -/

/-- `u` holds the bytes `bs` at offset `a` of scratchpad `t`, and every other scratchpad byte as `s` does. -/
def State.storedAt (s u : State) (t a : Nat) (bs : List Byte) : Prop :=
  (∀ i, i < bs.length → u.spmRaw t (a + i) 1 = [bs.getD i 0]) ∧
  ∀ v o, v < 128 → o < 2 ^ 23 → (v ≠ t ∨ o < a ∨ a + bs.length ≤ o) → u.spmRaw v o 1 = s.spmRaw v o 1

/-- `u` is `s` with engine `t` standing at `e`. -/
def State.onlyEng (s u : State) (t : Nat) (e : Eng) : Prop :=
  u.eng t = e ∧ (∀ v, v ≠ t → u.eng v = s.eng v) ∧ { u with tiles := s.tiles } = s
/-- `u` is `s` with core (t, c) standing at `k`. -/
def State.onlyCore (s u : State) (t c : Nat) (k : Core) : Prop :=
  u.core t c = k ∧ (∀ v d, d < 64 → (v ≠ t ∨ d ≠ c) → u.core v d = s.core v d)
/-- Memory of `u` holds `bs` from place `a` on, and every other byte as `s` does. -/
def State.memStored (s u : State) (a : Nat) (bs : List Byte) : Prop :=
  (∀ i, i < bs.length → Memory.get u.mem (a + i) = bs.getD i 0) ∧
  ∀ p, p < a ∨ a + bs.length ≤ p → Memory.get u.mem p = Memory.get s.mem p
/-- A raise of source type `ty`, instance `i` stands in the unit's collector or waits for room in it (R390). -/
def State.raisedIn (s : State) (unit ty i : Nat) : Bool :=
  (SMap.get s.flt.coll unit [] ++ SMap.get s.flt.unitWait unit []).any (fun r => r.src == 512 * ty + i)
/-- Descriptor `d` of queue pair `q` has completed between `s` and `u` with a status, completion flags and RESULT: it has left the queue
pair, and its record stands at the next place of the completion ring in host memory, unless the link or the IDE stream is down, the
descriptor is of an earlier generation, a record of the queue pair has failed or this one fails, or the descriptor is QUIET and the status
OK (R243, R252, R253, R256, R260, R271, R272). -/
def State.completed (s u : State) (q : Nat) (d : Descr) (status cflags : Nat) (res : List Byte) : Prop :=
  u.descr q d.idx = none ∧
  let n := (s.qp q).cqProd
  let rec_ := leBytes 4 d.idx ++ leBytes 2 status ++ leBytes 1 d.type ++ leBytes 1 (cflags + (1 - n / s.cqSize q % 2)) ++ padTo 8 d.tag ++ padTo 16 res
  (s.hostOpen = true → s.descrDead q d.idx = false → s.qpMute q = false → s.hostFails (s.cqSlot q n) 32 = false →
    (d.quiet && status == 0) = false → ∀ i, i < 32 → SMap.find u.host (s.cqSlot q n + i) = some (rec_.getD i 0))
/-- Mailbox `m` has completed a command between `s` and `u` with a status and a response: BUSY is clear, DONE is recorded, the status and
the length stand in their registers, and a response that fits stands in host memory, unless the host refuses it (R439). -/
def State.mbxDone (s u : State) (m status : Nat) (resp : List Byte) : Prop :=
  u.mbxBusy m = false ∧ u.flag F.MBX_STAT_DONE m = true ∧
  u.fget F.MBX_RESULT_STATUS m = (if status = mbOK ∧ s.rspLen m < resp.length then mbBUF_SMALL else status) ∧
  u.rget .MBX_RLEN m = BitVec.ofNat 32 (if status = mbOK then resp.length else 0) ∧
  (status = mbOK → resp.length ≤ s.rspLen m → s.hostOpen = true → s.hostFails (s.get64 .MBX_RSP_LO .MBX_RSP_HI m) resp.length = false →
    ∀ i, i < resp.length → SMap.find u.host (s.get64 .MBX_RSP_LO .MBX_RSP_HI m + i) = resp[i]?)
/-- The FROZEN_WR bit that flags a Frozen write of register `r`, index `i`, through the window of function `f`: the block's own where it has
one (R431). -/
def frozenBit (f : Nat) (r : Reg) (i : Nat) : Field × Nat :=
  match r.place.win with
  | .kvm => (F.KVM_STAT_FROZEN_WR, 0)
  | .fab => (F.VRX_STAT_FROZEN_WR, 0)
  | .vrx => (F.VRX_STAT_FROZEN_WR, 0)
  | .cmd => (F.CMD_STAT_FROZEN_WR, f)
  | .qp => (F.CMD_STAT_FROZEN_WR, f)
  | .cmd0 => (F.CMD_STAT_FROZEN_WR, f)
  | .enr => (F.ENR_STAT_FROZEN_WR, 0)
  | .sec => (F.SEC_STAT_FROZEN_WR, 0)
  | .lck => (F.LCK_STAT_FROZEN_WR, 0)
  | .fw => (F.FWS_STAT_FROZEN_WR, 0)
  | .mbx => (F.MBX_STAT_FROZEN_WR, i / r.place.cnt)
  | _ => (F.GLB_STAT_FROZEN_WR, 0)
/-- Every register but those of `l` keeps its word at every index. -/
def State.sameRegs (s u : State) (l : List Reg) : Prop := ∀ r i, r ∉ l → u.rget r i = s.rget r i

end Sys2Proof.Machine
end

