-- ==== Sys2Proof/Certificates/Slice0/Obligations.lean ====
section
/-! DEFINITION. The statements for the provers: what the commands do, what they leave alone, and what every step keeps. -/

section Slice0Statements

open Sys2Proof Sys2Proof.Machine

/-! ### Tile sequencer -/

/-- R60: results of the scalar instructions, BR, JAL, TRET, SYS, and R58's invalidation; each changes its engine alone, once the line
that holds the instruction is in the cache. -/
def Obligations.ScalarResults : Prop :=
  ∀ (t : Fin 128) (w : Word) (s : State),
    let l := s.lineIn t
    let e := l.eng t
    (s.issues t w 0x00 = true → ∀ v, saluOp (sFN w) (e.s (sA w)) (e.s (sB w)) = some v →
      ∃ u, exec (.salu t w) s = .next u ∧ l.onlyEng u t ((e.setS (sD w) v).past 1)) ∧
    (s.issues t w 0x01 = true →
      ∃ u, exec (.saddi t w) s = .next u ∧ l.onlyEng u t ((e.setS (sD w) (e.s (sA w) + BitVec.ofInt 64 (iIMM w))).past 1)) ∧
    (s.issues t w 0x02 = true → sA w = 0 →
      ∃ u, exec (.slui t w) s = .next u ∧ l.onlyEng u t ((e.setS (sD w) (BitVec.ofInt 64 (65536 * iIMM w))).past 1)) ∧
    (s.issues t w 0x10 = true → ∀ b, brCond (jCOND w) (e.s (jA w)) (e.s (jB w)) = some b →
      ∃ u, exec (.br t w) s = .next u ∧
        l.onlyEng u t (if b then { e with pc := wrap 32 (e.pc + 4 * jOFF w), stall := none } else e.past 1)) ∧
    (s.issues t w 0x11 = true → jCOND w = 0 → ∀ a, a = wrap 64 ((e.s (jA w)).toNat + 4 * jOFF w) → a % 4 = 0 →
      ∃ u, exec (.jal t w) s = .next u ∧
        l.onlyEng u t { e.setS (jB w) (BitVec.ofNat 64 ((e.pc + 4) % 2 ^ 32)) with pc := a % 2 ^ 32, stall := none }) ∧
    (s.issues t w 0x12 = true → e.inHandler = true →
      ∃ u, exec (.tret t w) s = .next u ∧
        l.onlyEng u t { e with
          pc := (l.fget F.TSEQ_TPC_TPC t + if l.flag F.TSEQ_TRAP_ASYNC t then 0 else if e.trapMxs then 16 else 4) % 2 ^ 32
          inHandler := false, trapMxs := false, stall := none }) ∧
    (s.issues t w 0x39 = true → xRsv w = 0 → xFN w < 4 →
      ∃ u, exec (.sys t w) s = .next u ∧ l.onlyEng u t ((e.setS (xC w) (BitVec.ofNat 64 (
        if xFN w = 0 then l.clk.ns else if xFN w = 1 then t.val
        else if xFN w = 2 then ((l.tileDisp t).map (·.2.gid)).getD 0
        else (e.task.map (·.idx)).getD (2 ^ 64 - 1)))).past 1)) ∧
    (∃ u, exec (.icacheInv t) s = .next u ∧ s.onlyEng u t { s.eng t with lines := [] })

/-- R60: what the sixteen operations of SALU compute, as numbers. -/
def Obligations.SaluOperations : Prop :=
  ∀ a b : DWord,
    (∀ fn, 16 ≤ fn → saluOp fn a b = none) ∧
    ∃ f : Nat → DWord, (∀ fn, fn < 16 → saluOp fn a b = some (f fn)) ∧
      (f 0).toNat = (a.toNat + b.toNat) % 2 ^ 64 ∧
      (f 1).toNat = (a.toNat + 2 ^ 64 - b.toNat) % 2 ^ 64 ∧
      (∀ i, (f 2).getLsbD i = (a.getLsbD i && b.getLsbD i)) ∧
      (∀ i, (f 3).getLsbD i = (a.getLsbD i || b.getLsbD i)) ∧
      (∀ i, (f 4).getLsbD i = xor (a.getLsbD i) (b.getLsbD i)) ∧
      (f 5).toNat = a.toNat * 2 ^ (b.toNat % 64) % 2 ^ 64 ∧
      (f 6).toNat = a.toNat / 2 ^ (b.toNat % 64) ∧
      (f 7).toInt = a.toInt / 2 ^ (b.toNat % 64) ∧
      2 ^ 64 * (f 9).toNat + (f 8).toNat = a.toNat * b.toNat ∧
      (f 10).toInt = min a.toInt b.toInt ∧
      (f 11).toInt = max a.toInt b.toInt ∧
      (f 12).toNat = (if a.toInt < b.toInt then 1 else 0) ∧
      (f 13).toNat = (if a.toNat < b.toNat then 1 else 0) ∧
      (f 14).toNat = (if a = b then 1 else 0) ∧
      (f 15).toNat = ((List.range 64).filter (fun i => a.getLsbD i)).length

/-- R58, R61: BRK and the matrix-data trap enter the handler of an engine that has one and is not in it: the cause, the offset of the
instruction and the status bit are recorded, and the sequencer continues at `TSEQ_TVEC` with its low two bits ignored. Bringing the line
of the PC into the instruction cache changes no register of an engine but the cache itself, and of the rest only what a read of device
memory changes; a line that is cached already costs nothing. -/
def Obligations.TrapAndFetchResults : Prop :=
  (∀ (t : Fin 128) (w : Word) (s : State),
    let l := s.lineIn t
    let enters (s u : State) (cause : Nat) (async : Bool) : Prop :=
      u.fget F.TSEQ_TRAP_CAUSE t = cause ∧ u.flag F.TSEQ_TRAP_HANDLED t = true ∧ u.flag F.TSEQ_TRAP_ASYNC t = async ∧
      u.rget .TSEQ_TPC t = BitVec.ofNat 32 (s.eng t).pc ∧ u.flag F.TSEQ_STAT_TRAP t = true ∧
      u.eng t = { s.eng t with pc := s.fget F.TSEQ_TVEC_TVEC t / 4 * 4, inHandler := true, trapMxs := false, stall := none
                               pendMx := (s.eng t).pendMx && !async } ∧
      (∀ v, v ≠ t.val → u.eng v = s.eng v) ∧ s.sameRegs u [.TSEQ_TRAP, .TSEQ_TPC, .TSEQ_STAT] ∧
      { u with tiles := s.tiles, regs := s.regs } = s
    (s.issues t w 0x13 = true → 4 ≤ l.fget F.TSEQ_TVEC_TVEC t → (l.eng t).inHandler = false →
      ∃ u, exec (.brk t w) s = .next u ∧ enters l u 8 false) ∧
    ((s.eng t).mayIssue = true → (s.eng t).pendMx = true → 4 ≤ s.fget F.TSEQ_TVEC_TVEC t → (s.eng t).inHandler = false →
      ∃ u, exec (.matrixDataTrap t) s = .next u ∧ enters s u 2 true)) ∧
  (∀ (t : Nat) (s : State),
    let l := s.lineIn t
    { l.eng t with lines := (s.eng t).lines } = s.eng t ∧ (∀ v, v ≠ t → l.eng v = s.eng v) ∧
    s.sameRegs l [.VCH_BUCKET, .VCH_CAND, .VCH_CE_CNT, .VCH_STAT, .VCH_UE_LO, .VCH_UE_HI] ∧
    { l with regs := s.regs, mem := s.mem, synd := s.synd, soft := s.soft, tiles := s.tiles, stops := s.stops, gate := s.gate, flt := s.flt } = s ∧
    { l.gate with held := s.gate.held, serve := s.gate.serve } = s.gate ∧ (s.cached t = true → l = s))

/-- R60, R97 to R101, R104: vector instructions and scratchpad accesses on good words of banks that the program may use; a store
leaves every scratchpad byte outside the stored ones alone. -/
def Obligations.VectorAndScratchpadResults : Prop :=
  ∀ (t : Fin 128) (w : Word) (s : State),
    let l := s.lineIn t
    let e := l.eng t
    (s.issues t w 0x03 = true → ∀ a, a = spAddr (e.s (sA w)) (iIMM w) → a % 8 = 0 → l.progOk t a 8 = true →
      ∃ u, exec (.sld t w) s = .next u ∧ l.onlyEng u t ((e.setS (sD w) (BitVec.ofNat 64 (leNat (l.spmRaw t a 8)))).past 1)) ∧
    (s.issues t w 0x04 = true → l.spmOk → ∀ a, a = spAddr (e.s (sA w)) (iIMM w) → a % 8 = 0 → l.progOk t a 8 = true →
      ∃ u, exec (.sst t w) s = .next u ∧ l.storedAt u t a (leBytes 8 (e.s (sD w)).toNat) ∧ u.eng t = e.past 1 ∧
        (∀ v, v ≠ t.val → u.eng v = l.eng v) ∧ { u with tiles := l.tiles, spm := l.spm, spmErr := l.spmErr } = l) ∧
    (s.issues t w 0x20 = true →
      ∀ f : Nat → Option (Nat × Bool × Bool), (∀ i, f i = laneResult (vFN w % 64) (bitOf (vFN w) 7) (laneIn (bitOf (vFN w) 6) (e.lane (vA w) i))
        (laneIn (bitOf (vFN w) 6) (e.lane (vB w) i)) (f32 (e.lane (vD w) i).toNat)) → (f 0).isSome = true →
      ∃ u, exec (.vop t w) s = .next u ∧
        u.eng t = (e.setV (vD w) (fun i => BitVec.ofNat 32 (((f i).map (·.1)).getD 0))).past 1 ∧
        u.flag F.VEC_STAT_SAT_HIT t = (l.flag F.VEC_STAT_SAT_HIT t || (List.range 256).any (fun i => ((f i).map (·.2.1)).getD false)) ∧
        u.flag F.VEC_STAT_INV t = (l.flag F.VEC_STAT_INV t || (List.range 256).any (fun i => ((f i).map (·.2.2)).getD false)) ∧
        (∀ v, v ≠ t.val → u.eng v = l.eng v) ∧ l.sameRegs u [.VEC_STAT] ∧ { u with tiles := l.tiles, regs := l.regs } = l) ∧
    (s.issues t w 0x21 = true → ∀ a, a = spAddr (e.s (mA w)) (1024 * mIMM w) → l.progOk t a 1024 = true →
      ∃ u, exec (.vld t w) s = .next u ∧
        l.onlyEng u t ((e.setV (vD w) (fun i => BitVec.ofNat 32 (leNat (l.spmRaw t (a + 4 * i) 4)))).past 1)) ∧
    (s.issues t w 0x22 = true → l.spmOk → ∀ a, a = spAddr (e.s (mA w)) (1024 * mIMM w) → l.progOk t a 1024 = true →
      ∃ u, exec (.vst t w) s = .next u ∧
        l.storedAt u t a ((List.range 256).flatMap (fun i => leBytes 4 (e.lane (vD w) i).toNat)) ∧ u.eng t = e.past 1 ∧
        (∀ v, v ≠ t.val → u.eng v = l.eng v) ∧ { u with tiles := l.tiles, spm := l.spm, spmErr := l.spmErr } = l)


/-! ### DMA channels and the reduction -/

/-- R60, R63 to R65, R107: DMAQ enqueues, DMAW passes when nothing with its tag is left, a descriptor starts, RESTART empties its
channels. In a channel none of whose descriptors ends in error, a row of a stream from the tile's own scratchpad is delivered to the array's side, and
a row of a copy within the own scratchpad, outside the exchange banks, lands at its destination and nowhere else. -/
def Obligations.DmaResults : Prop :=
  (∀ (t : Fin 128) (s : State),
    (∀ w : Word,
      let l := s.lineIn t
      let e := l.eng t
      let c := e.chan (xFN w)
      (s.issues t w 0x30 = true → xRsv w = 0 → l.chanHalted t (xFN w) = false → c.queue.length < 16 →
        ∀ a, a = (e.s (xA w)).toNat → l.progOk t a 32 = true →
        ∃ u, exec (.dmaq t w) s = .next u ∧ l.onlyEng u t ((e.setChan (xFN w)
          { c with queue := c.queue ++ [⟨decodeDma (l.spmRaw t a 32), e.epoch, false, 0, [], [], 0, none⟩] }).past 1)) ∧
      (s.issues t w 0x31 = true → xRsv w = 0 → l.chanHalted t (xFN w) = false → c.queue.all (fun r => r.d.tag != xTAG w) = true →
        ∃ u, exec (.dmaw t w) s = .next u ∧ l.onlyEng u t (e.past 1))) ∧
    (∀ (ch : Fin 8) (i : Nat) (r : DmaRun),
      let e := s.eng t
      let c := e.chan ch
      s.chanLive t ch = true → (∀ x, x ∈ c.queue.take i → x.started = true ∧ x.d.mode ≠ 1 ∧ x.ends = none) → c.queue[i]? = some r →
      r.started = false → r.d.bad = false → r.d.good = r.d.rows →
      ∃ u, exec (.dmaDescriptorStart t ch) s = .next u ∧
        s.onlyEng u t (e.setChan ch { c with queue := c.queue.set i { r with started := true, ueRow := none } })) ∧
    (∀ chans : Byte, ∃ u, exec (.restart t chans) s = .next u ∧
      (∀ n : Nat, n < 8 → chans.getLsbD n = true → (u.eng t).chan n = Chan.empty ∧ u.chanHalted t n = false) ∧
      (∀ n : Nat, n < 8 → chans.getLsbD n = false → (u.eng t).chan n = (s.eng t).chan n ∧ u.chanHalted t n = s.chanHalted t n) ∧
      { u.eng t with chans := (s.eng t).chans } = s.eng t ∧ (∀ v, v ≠ t.val → u.eng v = s.eng v) ∧
      s.sameRegs u [.TSEQ_DMA] ∧ { u with tiles := s.tiles, regs := s.regs } = s)) ∧
  (∀ (t : Fin 128) (ch : Fin 8) (pos row : Nat) (portA : List Nat) (x : DmaRun) (s : State),
    let c := (s.eng t).chan ch
    let bs := s.spmRaw t (x.d.srcRow row) x.d.rowLen
    s.gate = Gate.clear → s.chanLive t ch = true → c.queue[pos]? = some x → s.mayMove t ch pos row = true → (∀ y, y ∈ c.queue → y.ends = none) →
    x.d.sspace = 1 → s.progOk t (x.d.srcRow row) x.d.rowLen = true →
    (x.d.mode = 1 → ∃ u, exec (.dmaReadResponse t ch pos row portA) s = .next u ∧
      s.onlyEng u t ((s.eng t).setChan ch
        { c with queue := popDone (c.queue.set pos { x with low := row + 1, rows := SMap.put x.rows row bs }) })) ∧
    (x.d.mode = 0 → x.d.dspace = 1 → s.spmOk → 2 ^ 20 ≤ x.d.dstRow row →
      s.progOk t (x.d.dstRow row) x.d.rowLen = true →
      ∃ u, exec (.dmaReadResponse t ch pos row portA) s = .next u ∧ s.storedAt u t (x.d.dstRow row) bs ∧
        u.eng t = (s.eng t).setChan ch { c with queue := popDone (c.queue.set pos (x.rowDone row)) } ∧
        (∀ v, v ≠ t.val → u.eng v = s.eng v) ∧ { u with tiles := s.tiles, spm := s.spm, spmErr := s.spmErr } = s))

/-- R72, R205: RDX combines its slots in ascending index and stores one slot at S(C). -/
def Obligations.RdxResult : Prop :=
  ∀ (t : Fin 128) (w : Word) (s : State),
    let l := s.lineIn t
    let e := l.eng t
    let fn := xFN w
    let b := (e.s (xB w)).toNat
    let count := bits b 23 0
    let len := bits b 55 32
    let a := (e.s (xA w)).toNat
    let d := (e.s (xC w)).toNat
    let slot (i : Nat) := l.spmRaw t (a + len * i) len
    let acc := (List.range (count - 1)).foldl
      (fun x i => if fn = 3 then lseCombine x (slot (i + 1)) else rdxSlots fn x (slot (i + 1))) (slot 0)
    s.issues t w 0x37 = true → xRsv w = 0 → 0 < count → 0 < len →
    (fn < 3 ∧ len % 4 = 0 ∨ fn = 3 ∧ len % 4 = 0 ∧ 12 ≤ len ∧ len ≤ 1032) →
    l.progOk t a (len * count) = true → l.progOk t d len = true → l.spmOk →
    ∃ u, exec (.rdx t w) s = .next u ∧
      l.storedAt u t d (if fn = 3 ∧ lseEmpty acc = true then leBytes 4 0xFF800000 ++ leBytes 4 1 ++ zeros (len - 8) else acc) ∧
      u.eng t = e.past 1 ∧ (∀ v, v ≠ t.val → u.eng v = l.eng v) ∧ { u with tiles := l.tiles, spm := l.spm, spmErr := l.spmErr } = l

/-! ### Matrix array -/

/-- R29 to R31, R45, R57: MXS queues a pass, MXW passes when its tag is free, a freeze run ends in STALL, the counters clear and read. -/
def Obligations.ArrayControlResults : Prop :=
  ∀ (t : Fin 128) (s : State),
    (∀ w w1 w2 w3 : Word,
      let f := State.followWords [w1, w2, w3] 4 (s.lineIn t) t
      let l := f.1
      let e := l.eng t
      let o := decodeMxs e w w1 w2 w3
      s.issues t w 0x18 = true → f.2 = .all →
      bits w1.toNat 1 0 = 0 → bits w2.toNat 3 0 = 0 → bits w3.toNat 21 0 = 0 →
      o.illegal e.arr.held (bits w3.toNat 26 22 == 31) = false → e.arr.queue.length < 4 →
      ∃ u, exec (.mxs t w w1 w2 w3) s = .next u ∧ l.onlyEng u t (({ e with arr := { e.arr with
        queue := e.arr.queue ++ [(⟨o, e.arr.nextId, 0, o.keep || o.mode == 1, false⟩ : Pass)], nextId := e.arr.nextId + 1
        held := if o.keep || o.mode = 1 then e.arr.held else some o.settings } }).past 4)) ∧
    (∀ w : Word,
      let l := s.lineIn t
      s.issues t w 0x19 = true → bits w.toNat 24 4 = 0 → mxwWaits w (l.eng t).arr = false →
      ∃ u, exec (.mxw t w) s = .next u ∧ l.onlyEng u t ((l.eng t).past 1)) ∧
    (∀ w : Word, (s.eng t).stall = some w → (s.eng t).mayIssue = true → (s.eng t).pendMx = false → wOpc w = 0x19 →
      mxwWaits w (s.eng t).arr = false →
      ∃ u, exec (.mxwRelease t) s = .next u ∧ s.onlyEng u t ((s.eng t).past 1)) ∧
    (2 ^ s.fget F.MXA_CFG_FRZ_LIM t ≤ (s.eng t).arr.frozenFor → (s.eng t).arr.stalled = false →
      ∃ u, exec (.arrayFreezeLimit t) s = .next u ∧ u.flag F.MXA_STAT_STALL t = true ∧
        u.eng t = { s.eng t with arr := { (s.eng t).arr with stalled := true } } ∧ (∀ v, v ≠ t.val → u.eng v = s.eng v) ∧
        u.raisedIn t 0x01 t = true ∧ s.sameRegs u [.MXA_STAT] ∧
        { u with tiles := s.tiles, regs := s.regs, flt := s.flt } = s) ∧
    (∃ u, exec (.clrCnt t) s = .next u ∧ u.eng t = { s.eng t with fed := 0 } ∧
      (∀ r, r ∈ [Reg.MXA_FED_LO, .MXA_FED_HI, .MXA_DROPPED, .MXA_SKIPGRP, .MXA_FRZ_DRY, .MXA_FRZ_BACK, .MXA_BUBBLE] → u.rget r t = 0) ∧
      (∀ v, v ≠ t.val → u.eng v = s.eng v) ∧
      s.sameRegs u [.MXA_FED_LO, .MXA_FED_HI, .MXA_DROPPED, .MXA_SKIPGRP, .MXA_FRZ_DRY, .MXA_FRZ_BACK, .MXA_BUBBLE] ∧
      { u with tiles := s.tiles, regs := s.regs } = s) ∧
    (∃ u, exec (.mxaFedLoRead t) s = .next u ∧ u.outs.rdata = (s.eng t).fed % 2 ^ 32 ∧
      u.rget .MXA_FED_HI t = BitVec.ofNat 32 ((s.eng t).fed / 2 ^ 32) ∧ s.sameRegs u [.MXA_FED_HI] ∧
      { u with regs := s.regs, outs := s.outs } = s)

/-- R33, R36 to R38, R46: a shadow load takes its block from the scratchpad, and a step whose lines the ports have granted feeds the next rows of an unmasked
pass whose front has entered: one result row each goes on its way, and the fed count grows by as many. -/
def Obligations.ArrayDataResults : Prop :=
  ∀ (t : Fin 128) (lane : List (Fin 18)) (others : List (Fin 18 × Fin 32)) (s : State),
    let e := s.eng t
    let free (a n : Nat) := s.progOk t a n && (List.range n).all (fun i => !e.arr.ops.any (·.destHas (a + i)))
    (∀ i p, e.arr.loading = some i → e.arr.queue[i]? = some p → free p.op.bbase p.op.blockLen = true →
      ∃ u, exec (.shadowLoadComplete t) s = .next u ∧ s.onlyEng u t { e with arr := { e.arr with
        shadow := some ⟨p.op.mode, p.op.fold, p.op.kb - 1, p.op.nb - 1, p.op.bf', p.op.blockVals (s.spmRaw t p.op.bbase p.op.blockLen)⟩
        queue := e.arr.queue.set i { p with loaded := true } } }) ∧
    (∀ p, e.power = .on → e.inReset = false → e.pendMx = false → e.arr.queue = [p] → e.arr.flight = [] → e.arr.buf = [] →
      e.arr.osPend = none → p.loaded = true → p.started = true → p.op.mode ≠ 1 → p.op.mask = 0 → p.op.src = 0 → p.row < p.op.rows →
      e.behind = none → s.feedNeeds t = [] →
      let n := min (min p.op.f (8 - p.row % 8)) (p.op.rows - p.row)
      let row (i : Nat) := s.spmRaw t (p.op.sbase + (p.row + i) * p.op.sstride) p.op.westLen
      (List.range n).all (fun i => free (p.op.sbase + (p.row + i) * p.op.sstride) p.op.westLen) = true →
      ∃ u, exec (.arrayStep t lane others) s = .next u ∧ (u.eng t).fed = e.fed + n ∧
        u.rget .MXA_FED_LO t = BitVec.ofNat 32 (e.fed + n) ∧
        (u.eng t).arr.queue = (if p.row + n < p.op.rows then [{ p with row := p.row + n }] else []) ∧
        (u.eng t).arr.flight = (List.range n).map (fun i => p.op.outRow p.id (p.row + i) p.op.latencyLeft .write
          (rowResults p.op ((e.arr.active.map (·.dat)).getD []) (p.op.rowVals (row i)))) ∧
        (u.eng t).sreg = e.sreg ∧ (u.eng t).vreg = e.vreg ∧ (u.eng t).pc = e.pc ∧ (∀ v, v ≠ t.val → u.eng v = s.eng v) ∧ s.sameRegs u [.MXA_FED_LO, .MXA_DROPPED] ∧
        { u with tiles := s.tiles, regs := s.regs } = s)


/-! ### Dispatches, tasklets and steals -/

/-- R68, R69, R464, R60: TGET with an entry in the own queue or with nothing to take, TDONE that commits, TBAR, and HALT as long as
another tile of the group still works. -/
def Obligations.TaskletInstructionResults : Prop :=
  ∀ (t : Fin 128) (w : Word) (s : State),
    let l := s.lineIn t
    let e := l.eng t
    let a := (e.s (xA w)).toNat
    let taken (x : Option Task) : Eng := { e with task := x, epoch := e.epoch + 1, mark := e.arr.nextId, noTask := x.isNone, steal := none }
    (s.issues t w 0x34 = true → xRsv w = 0 → l.progOk t a 24 = true → l.spmOk → e.steal = none → l.fw.withdrawn.contains t.val = false →
      ∀ k d, l.tileDisp t = some (k, d) → d.stopped = false → d.num = none →
      (∀ x rest, (l.stop t).queue = x :: rest → x.args.length = 24 → (l.stop t).lastOp ≠ some l.clk.mc →
        ∃ u, exec (.tget t w) s = .next u ∧ u.eng t = ((taken (some x)).setS (xC w) (BitVec.ofNat 64 x.idx)).past 1 ∧
          l.storedAt u t a x.args ∧ u.stop t = { l.stop t with queue := rest, lastOp := some l.clk.mc } ∧
          { u with tiles := l.tiles, stops := l.stops, spm := l.spm, spmErr := l.spmErr } = l) ∧
      ((l.stop t).queue = [] → d.ntask ≤ (l.stop t).scan → l.flag F.TSK_CFG_STEAL_EN t = false →
        ∃ u, exec (.tget t w) s = .next u ∧ u.eng t = ((taken none).setS (xC w) (BitVec.ofNat 64 (2 ^ 64 - 1))).past 1 ∧
          { u with tiles := l.tiles, disps := l.disps } = l)) ∧
    (s.issues t w 0x35 = true → xRsv w = 0 →
      (e.task = none → ∃ u, exec (.tdone t w) s = .next u ∧ l.onlyEng u t (e.past 1)) ∧
      (∀ k d, e.task.isSome = true → l.tileDisp t = some (k, d) → l.haltedNow t = false → (l.streamCheck t).2 = false →
        l.workLeft t false = false →
        ∃ u, exec (.tdone t w) s = .next u ∧ u.disp k = some { d with commits := d.commits + 1 } ∧
          u.eng t = ({ e with task := none }).past 1 ∧ { u with tiles := l.tiles, disps := l.disps } = l)) ∧
    (s.issues t w 0x36 = true → xRsv w = 0 →
      ∀ k d, l.tileDisp t = some (k, d) →
        (d.commits = d.ntask ∨ d.stopped = true ∧ ∀ v, v ∈ groupTiles d.group → (l.eng v).task = none) →
        ∃ u, exec (.tbar t w) s = .next u ∧ l.onlyEng u t (e.past 1)) ∧
    (s.issues t w 0x38 = true → xRsv w = 0 → l.haltedNow t = false → (l.streamCheck t).2 = false → l.workLeft t true = false →
      ∀ k d v, l.tileDisp t = some (k, d) → v ∈ groupTiles d.group → v ≠ t.val → bitOf d.done v = false → (l.eng v).fenced = false →
      ∃ u, exec (.halt t w) s = .next u ∧ u.disp k = some { d with done := setBit d.done t } ∧
        u.eng t = { e.past 1 with active := false, task := none } ∧ (∀ x, x ≠ t.val → u.eng x = l.eng x) ∧
        { u with tiles := l.tiles, disps := l.disps, enr := l.enr } = l)

/-- R69, R463, R464: the last tile's HALT ends its dispatch, and its tiles are free again. -/
def Obligations.LastHaltEndsDispatch : Prop :=
  ∀ (t : Fin 128) (w : Word) (s : State),
    let l := s.lineIn t
    s.issues t w 0x38 = true → xRsv w = 0 → l.haltedNow t = false → (l.streamCheck t).2 = false → l.workLeft t true = false →
    ∀ k d, l.tileDisp t = some (k, d) → t.val ∈ groupTiles d.group → d.running = true → d.num = none → SMap.sortedFrom none l.disps = true →
      (∀ v, v ∈ groupTiles d.group → v ≠ t.val → bitOf d.done v = true) → (∀ v, v ∈ groupTiles d.group → (l.eng v).fenced = false) →
      ∃ u, exec (.halt t w) s = .next u ∧ u.disp k = none ∧
        ∀ v, v ∈ groupTiles d.group → (u.eng v).disp = none ∧ (u.eng v).active = false ∧ (u.stop v).queue = []

/-- R67, R70, R71: at its turn a steal takes the victim's tail entry unless it is pinned, and the entry runs at the thief or joins its queue. -/
def Obligations.StealResults : Prop :=
  ∀ (thief victim : Fin 128) (s : State) (st : Steal), (s.eng thief).steal = some st → st.asked = some victim.val →
    (st.reply = none → s.stealTurn thief victim st = true → ∀ q x, (s.stop victim).queue = q ++ [x] →
      (x.pinned = false → ∃ u, exec (.stealRequest thief victim) s = .next u ∧ (u.stop victim) = { s.stop victim with queue := q, lastOp := some s.clk.mc } ∧
        u.eng thief = { s.eng thief with steal := some { st with reply := some (some x) } } ∧
        { u with tiles := s.tiles, stops := s.stops } = s) ∧
      (x.pinned = true → ∃ u, exec (.stealRequest thief victim) s = .next u ∧
        u.stop victim = { s.stop victim with lastOp := some s.clk.mc } ∧
        u.eng thief = { s.eng thief with steal := some { st with reply := some none } } ∧ { u with tiles := s.tiles, stops := s.stops } = s)) ∧
    (∀ x k d, st.reply = some (some x) → s.tileDisp thief = some (k, d) → d.running = true → d.stopped = false →
      (∀ w, (s.eng thief).tgetStall = some w → s.progOk thief ((s.eng thief).s (xA w)).toNat 24 = true → s.spmOk → x.args.length = 24 →
        ∃ u, exec (.stealReply thief victim) s = .next u ∧ (u.eng thief).task = some x ∧ (u.eng thief).steal = none ∧
          (u.eng thief).s (xC w) = BitVec.ofNat 64 x.idx ∧ s.storedAt u thief ((s.eng thief).s (xA w)).toNat x.args ∧
          u.fget F.TSK_TDC_TDC thief = (s.fget F.TSK_TDC_TDC thief + 1) % 2 ^ 32) ∧
      ((s.eng thief).tgetStall = none →
        ∃ u, exec (.stealReply thief victim) s = .next u ∧ (u.eng thief).steal = none ∧
          u.stop thief = { s.stop thief with queue := (s.stop thief).queue ++ [x] } ∧
          u.fget F.TSK_TDC_TDC thief = (s.fget F.TSK_TDC_TDC thief + 1) % 2 ^ 32))

/-- R66, R251, R253, R360: a DISPATCH that every check passes starts each tile of its group at program offset 0; a strict one issues
only once it is released; a queue refill takes the next entry of its tile. -/
def Obligations.DispatchResults : Prop :=
  ∀ (s : State), s.gateOpen →
    (∀ qp idx d, s.descr qp idx = some d → d.type = 1 → s.mayStart qp d = true → s.cmd.waitDisp = [] →
      (((s.dispVerdict qp d = none → (groupTiles (d.u 16 16)).any s.tileBusy = true →
        exec (.dispatch qp idx) s = .next s)) ∧
      (s.dispVerdict qp d = none → (groupTiles (d.u 16 16)).any s.tileBusy = false →
        ∀ homes, ((s.markStarted qp d).tableCheck (d.u 48 4) (d.u 40 8) 0 (groupTiles (d.u 16 16)) s.nextDisp []).2 = .inl homes →
        ∃ u, exec (.dispatch qp idx) s = .next u ∧ u.nextDisp = s.nextDisp + 1 ∧
          ∀ t, t ∈ groupTiles (d.u 16 16) → (u.eng t).disp = some s.nextDisp ∧ (u.eng t).pc = 0 ∧ (u.eng t).lines = [] ∧
            (u.eng t).task = none ∧ (u.eng t).active = (d.u 52 1 != 2) ∧
            u.rget .TSEQ_PBASE_LO t = BitVec.ofNat 32 (d.u 32 8) ∧ u.rget .TSEQ_TVEC t = BitVec.ofNat 32 (d.u 56 4 / 4 * 4)))) ∧
    (∀ k x, s.disp k = some x → x.running = true → x.strict = true → x.released = false →
      (∀ t, t ∈ groupTiles x.group → (s.eng t).power = .on ∧ s.fillLevel t ≤ s.fget F.TPW_I_I_NOW t) →
      (s.flag F.DET_CFG_ALIGN (groupLeader x.group) = true → s.clk.mc % s.alignMc (groupLeader x.group) = 0) →
      ∃ u, exec (.strictRelease k) s = .next u ∧ (∃ y, u.disp k = some y ∧ y.released = true ∧ y.startMc = s.clk.mc) ∧
        ∀ t, t ∈ groupTiles x.group → (s.eng t).fenced = false → (s.eng t).fence = none → bitOf x.done t = false →
          u.eng t = { s.eng t with active := true }) ∧
    (∀ (t : Fin 128) k d, s.tileDisp t = some (k, d) → d.running = true → d.stopped = false → (s.stop t).queue.length < 1024 →
      d.ntask = (s.stop t).scan + 1 → t.val ∈ groupTiles d.group → bitOf d.done t = false → (s.eng t).fenced = false →
      ∀ en, (s.entryRead d.ttab (s.stop t).scan k).2 = en → en.ue = false → en.home = some t.val →
      ∃ u, exec (.taskletQueueRefill t) s = .next u ∧ (u.stop t).queue = (s.stop t).queue ++ [en.task] ∧
        (u.stop t).scan = d.ntask)


/-! ### Fences and the mesh -/

/-- R55, R56, R76, R77: a fence discards the array and stops the sequencer at once; when the last response has returned, or at
`MESH_CFG.TMO`, the engine is fenced and its bit in the map of R4 is set. -/
def Obligations.FenceResults : Prop :=
  ∀ (t : Fin 128) (s : State),
    ((s.eng t).fenced = false → (s.eng t).fence = none → (s.eng t).power ≠ .fusedOff →
      ∃ u, exec (.engineFence t) s = .next u ∧ u.eng t = { (s.eng t).discard with behind := none, fence := some s.clk.mc, stall := none } ∧
        u.stop t = { s.stop t with stage := [] } ∧ u.flag F.MXA_STAT_ABORT t = true ∧ (∀ v, v ≠ t.val → u.eng v = s.eng v) ∧
        s.sameRegs u [.MXA_STAT] ∧ ((s.eng t).behind = none → u.enr = s.enr) ∧
        { u with tiles := s.tiles, stops := s.stops, regs := s.regs, enr := s.enr } = s) ∧
    (∀ m, (s.eng t).fence = some m → (s.eng t).task = none →
      (∃ u, exec (.fenceComplete t) s = .next u ∧ (u.eng t).fenced = true ∧ (u.eng t).fence = none ∧ (u.eng t).active = false ∧
        (u.eng t).chans = [] ∧ u.disabled t = true ∧ u.flag F.TSEQ_STAT_FENCED t = true) ∧
      (m + s.fget F.MESH_CFG_TMO t ≤ s.clk.mc → exec (.fenceTimeout t) s = exec (.fenceComplete t) s) ∧
      (s.clk.mc < m + s.fget F.MESH_CFG_TMO t → exec (.fenceTimeout t) s = .next s))

/-- R75, R76, R106 to R109: the tasklet of a fenced engine; what becomes of a packet for an engine: written as class REMOTE, or read for
the service core, held while the engine's clock is off, refused. -/
def Obligations.FencedAndPacketResults : Prop :=
  (∀ (t : Fin 128) (s : State) (m : Nat) (x : Task) (k : Nat) (d : Disp) (v : Nat),
    (s.eng t).fence = some m → (s.eng t).task = some x → s.tileDisp t = some (k, d) → d.running = true →
    v ∈ groupTiles d.group → v ≠ t.val → bitOf d.done v = false → (s.eng v).fenced = false →
    (x.rerun = true → d.strict = false →
      ∃ u, exec (.fenceComplete t) s = .next u ∧ (u.stop t).queue = (s.stop t).queue ++ [x] ∧ (u.eng t).task = none) ∧
    (x.rerun = false ∨ d.strict = true → d.status = none →
      ∃ u y, exec (.fenceComplete t) s = .next u ∧ u.disp k = some y ∧ y.stopped = true ∧
        y.status = some (stENGINE_FENCED, t.val, x.idx, 0))) ∧
  (∀ (t : Fin 128) (src : Fin 129) (ch : Fin 8) (addr read : Nat) (data : List Byte) (portA : List Nat) (s : State),
    let good (n : Nat) := (List.range ((addr + n + 7) / 8 - addr / 8)).all (fun k => SMap.get s.spmErr (spmKey t 0 / 8 + addr / 8 + k) 0 == 0)
    (src.val < 128 → s.admission t = .deliver → s.spmOk → 2 ^ 20 ≤ addr → addr + data.length ≤ 2 ^ 23 →
      s.spmGrant t addr data.length .remote = .yes → good data.length = true →
      ∃ u, exec (.enginePacket t src ch addr ⟨read, data⟩ portA) s = .next u ∧ s.storedAt u t addr data ∧
        { u with spm := s.spm, spmErr := s.spmErr } = s) ∧
    (src.val = 128 → read ≠ 0 → data = [] → s.admission t = .deliver → addr + read ≤ 2 ^ 23 → s.spmGrant t addr read .svc = .yes → good read = true →
      ∃ u, exec (.enginePacket t src ch addr ⟨read, data⟩ portA) s = .next u ∧ u.outs.rbytes = s.spmRaw t addr read ∧ u.outs.busErr = false ∧
        { u with outs := s.outs } = s) ∧
    (s.admission t = .hold → (s.stop t).ingress.length < 16 →
      ∃ u, exec (.enginePacket t src ch addr ⟨read, data⟩ portA) s = .next u ∧
        u.stop t = { s.stop t with ingress := (s.stop t).ingress ++ [⟨src, ch, addr, read, data, []⟩] } ∧
        u.eng t = { s.eng t with wake := true } ∧ { u with tiles := s.tiles, stops := s.stops } = s) ∧
    (src.val < 128 → s.admission t = .refuse →
      ∃ u, exec (.enginePacket t src ch addr ⟨read, data⟩ portA) s = .next u ∧ u.chanHalted src ch = true ∧
        ((u.eng src).chan ch).err = some (s.refusal t) ∧ u.flag F.TSEQ_STAT_DMA_ERR src = true ∧ s.sameRegs u [.TSEQ_DMA, .TSEQ_STAT] ∧
        { u with tiles := s.tiles, regs := s.regs } = s))

/-- R78 to R82: a packet on VC1 to VC3 within a tower enters the mesh at its stop; one of a single flit that is alone in the mesh moves one
hop north, south, east or west after 3 mc, or leaves at its destination; a link error is flagged and raised. -/
def Obligations.MeshResults : Prop :=
  ∀ (s : State),
    (∀ (src dst : Fin 132) (vc : Fin 4) (flits : Nat) (strict : Bool) (way : Way),
      src.val < 128 → dst.val < 128 → towerOf src = towerOf dst → vc.val ≠ 0 → s.flag F.MESH_CFG_SLOT_EN src = false →
      let n := min flits (vcDepth vc)
      ∃ u, exec (.meshPacketInject src dst vc flits strict way) s = .next u ∧
        u.packets = s.packets ++ (if src = dst then [] else [⟨vc, src, dst, src, dst, strict, fixedVia src, s.clk.mc, flits, flits - n, 0,
          [⟨src, 5, 0, List.replicate n s.clk.mc, false⟩]⟩]) ∧
        (∀ v, u.stop v = s.stop v) ∧ { u with packets := s.packets, stops := s.stops } = s) ∧
    (∀ p g m, s.packets = [p] → p.flits = 1 → p.rest = 0 → p.out = 0 → p.segs = [g] → g.arr = [m] → towerOf g.at_ = towerOf p.stop_ →
      g.at_ ≠ p.stop_ → m + 3 ≤ s.clk.mc → s.flag F.MESH_CFG_SLOT_EN g.at_ = false →
      let st := p.step g
      SMap.find (s.stop g.at_).portUse st.1 ≠ some s.clk.mc →
      ∃ u, exec (.meshPacketHop ⟨0, 0⟩) s = .next u ∧
        u.packets = (if st.2 = p.stop_ then [] else [{ p with segs := [⟨st.2, inputOf st.1, g.cls, [s.clk.mc], false⟩] }]) ∧
        (p.vc = 0 → st.2 = p.stop_ → u.fget F.MESH_LAT_MAX_LAT_MAX p.stop_
          = max (s.fget F.MESH_LAT_MAX_LAT_MAX p.stop_) (min (s.clk.mc - p.born) 65535)) ∧
        u.stop g.at_ = { s.stop g.at_ with portUse := SMap.put (s.stop g.at_).portUse st.1 s.clk.mc } ∧
        (∀ v, v ≠ g.at_ → u.stop v = s.stop v) ∧ s.sameRegs u [.MESH_LAT_MAX] ∧
        { u with packets := s.packets, regs := s.regs, stops := s.stops } = s) ∧
    (∀ (t : Fin 128) (dir : Fin 5), ∃ u, exec (.meshLinkError t dir) s = .next u ∧ u.flag F.MESH_STAT_LINK_ERR t = true ∧
      u.raisedIn t 0x15 t = true ∧ s.sameRegs u [.MESH_STAT] ∧
      { u with regs := s.regs, flt := s.flt } = s)

/-- R70, R78: dimension order: within a tower a packet first travels along its row, then along its column, and every hop brings it one
router nearer. -/
def Obligations.RouteIsShortest : Prop :=
  ∀ (a d via : Nat), a < 128 → d < 128 → towerOf a = towerOf d → a ≠ d →
    let n := (meshStep a d via).2
    n < 128 ∧ towerOf n = towerOf d ∧ meshDist n d + 1 = meshDist a d ∧ (tileX a ≠ tileX d → tileY n = tileY a)

/-! ### Scratchpad banks -/

/-- R106, R111 to R117: an owner change puts its bank in hand-over until the requests it admitted have ended; a SECURE bit is set at
once and cleared behind a wipe; a patrol read of good words changes nothing; a corrected word is written back; `SPM_DMACOLL` clears. -/
def Obligations.ScratchpadBankResults : Prop :=
  ∀ (t : Fin 128) (s : State),
    (∀ (src : By) (hi : Bool) (v : Word), s.passes 0 src → (src.isHost = true → s.conf = false) →
      ∃ u, exec (.spmOwnerWrite t src hi v) s = .next u ∧
        ∀ i, i < 8 →
          let b := if hi then 8 + i else i
          let n := bits v.toNat (4 * i + 2) (4 * i)
          (n < 5 → n ≠ s.owner t b → u.owner t b = n ∧ (SMap.find (u.eng t).hand b).isSome = true ∧ (SMap.find (s.eng t).hand b = none →
            SMap.find (u.eng t).hand b = some (s.owner t b) ∧ bitOf (u.rget .SPM_HOSTATE t).toNat b = true)) ∧
          (5 ≤ n → u.owner t b = s.owner t b ∧ u.flag F.SPM_STAT_DENIED t = true)) ∧
    (∀ (bank : Fin 16) (out : Nat), SMap.find (s.eng t).hand bank = some out → s.handBusy t bank out = false →
      SMap.sortedFrom none (s.eng t).hand = true →
      ∃ u, exec (.handoverComplete t bank) s = .next u ∧ SMap.find (u.eng t).hand bank = none ∧
        ((s.eng t).wiping.contains bank.val = false → bitOf (u.rget .SPM_HOSTATE t).toNat bank = false) ∧
        s.sameRegs u [.SPM_HOSTATE] ∧ { u with tiles := s.tiles, regs := s.regs } = s) ∧
    (∀ (src : By) (v : Word), s.passes 0 src → (src.isHost = true → s.conf = false) →
      ∃ u, exec (.spmSecureWrite t src v) s = .next u ∧
        ∀ b, b < 16 →
          (v.getLsbD b = true → u.secureBank t b = true ∧ (u.eng t).unsecure.contains b = false) ∧
          (v.getLsbD b = false → s.secureBank t b = true → (s.eng t).unsecure.contains b = false →
            u.secureBank t b = true ∧ (u.eng t).unsecure.contains b = true ∧ (u.stop t).stage = [] ∧
            ((s.eng t).power ≠ .off → (s.eng t).power ≠ .fusedOff → (u.eng t).wiping.contains b = true))) ∧
    (∀ (bank : Fin 16) (line : Fin 512), s.flag F.SPM_CFG_PATROL_EN t = true → (s.eng t).wiping.contains bank.val = false →
      (s.eng t).power = .on →
      ((∀ i, i < 128 → SMap.get s.spmErr ((spmKey t (2 ^ 19 * bank + 1024 * line)) / 8 + i) 0 = 0) →
        exec (.spmPatrolRead t bank line) s = .next s) ∧
      (∀ i, i < 128 → flips (SMap.get s.spmErr ((spmKey t (2 ^ 19 * bank + 1024 * line)) / 8 + i) 0) = 1 →
        (∀ j, j < 128 → j ≠ i → SMap.get s.spmErr ((spmKey t (2 ^ 19 * bank + 1024 * line)) / 8 + j) 0 = 0) →
        ∃ u, exec (.spmPatrolRead t bank line) s = .next u ∧ u.flag F.SPM_STAT_CE t = true ∧
          u.fget F.SPM_CE_CNT_CE_CNT t = (s.fget F.SPM_CE_CNT_CE_CNT t + 1) % 2 ^ F.SPM_CE_CNT_CE_CNT.width)) ∧
    (∀ word : Fin 1048576, (s.eng t).wback.contains word.val = true → flips (SMap.get s.spmErr (spmKey t (8 * word.val) / 8) 0) = 1 →
      SMap.sortedFrom none s.spmErr = true →
      ∃ u, exec (.spmCorrectedWriteback t word) s = .next u ∧ SMap.get u.spmErr (spmKey t (8 * word.val) / 8) 0 = 0 ∧
        (u.eng t).wback.contains word.val = false ∧ { u with tiles := s.tiles, spmErr := s.spmErr } = s) ∧
    (∀ chans : Byte, ∃ u, exec (.spmDmacollClr t chans) s = .next u ∧
      (∀ n, n < 8 → bitOf (u.rget .SPM_DMACOLL t).toNat n = (bitOf (s.rget .SPM_DMACOLL t).toNat n && !chans.getLsbD n)) ∧
      s.sameRegs u [.SPM_DMACOLL] ∧ { u with regs := s.regs } = s)


/-! ### The vertical channel and device memory -/

/-- R133, R134: a syndrome names the flipped data bit or a flipped check bit, and two flips of a word never look like one; nor does a word
that is read at a DA that differs in one bit from the DA it was written for. -/
def Obligations.CodeCorrectsOneFlip : Prop :=
  ∀ data da : Nat, data < 2 ^ 64 → da < 2 ^ 39 →
    (∀ i, i < 64 → checkSyndrome (e2eCode (data ^^^ 2 ^ i) da ^^^ e2eCode data da) = .fixData i) ∧
    (∀ c, c < 8 → checkSyndrome (2 ^ c) = .fixCheck) ∧
    (∀ i j, i < 64 → j < 64 → i ≠ j → checkSyndrome (e2eCode (data ^^^ 2 ^ i ^^^ 2 ^ j) da ^^^ e2eCode data da) = .bad) ∧
    (∀ i c, i < 64 → c < 8 → checkSyndrome (e2eCode (data ^^^ 2 ^ i) da ^^^ e2eCode data da ^^^ 2 ^ c) = .bad) ∧
    (∀ b, 3 ≤ b → b < 39 → checkSyndrome (e2eCode data (da ^^^ 2 ^ b) ^^^ e2eCode data da) = .bad)

/-- R122, R134, R135, R137: a write to one atom of good words stores its bytes at once and leaves every other byte of device memory alone; a
read is accepted and later returns the atom's bytes; the patrol read of a good atom only moves on. -/
def Obligations.MemoryRequestResults : Prop :=
  ∀ (t : Fin 128) (s : State),
    (∀ (off : Word) (write : Bool) (src : Fin 8) (len : Nat) (data : List Byte),
      let o := off.toNat
      let da := 2 ^ 32 * t.val + o
      let pl := s.atomPlace da
      s.gateOpen →
      (write = true → s.memOk → s.atomClean pl = true → o % 256 + data.length ≤ 256 →
        ∃ u, exec (.vchRequest t off write src len data) s = .next u ∧ s.memStored u (pl + da % 256) data ∧ u.outs.busErr = false ∧
          s.sameRegs u [] ∧ (∀ v, v ≠ t.val → u.stop v = s.stop v) ∧
          { u with mem := s.mem, synd := s.synd, soft := s.soft, stops := s.stops, outs := s.outs } = s) ∧
      (write = false →
        ∃ u, exec (.vchRequest t off write src len data) s = .next u ∧ u.gate = { s.gate with reqs := s.gate.reqs ++ [⟨da, len, src⟩] } ∧
          (∀ v, v ≠ t.val → u.stop v = s.stop v) ∧ SMap.find (u.stop t).rowOf (offBank64 o) = some (offRow o) ∧
          { u with gate := s.gate, stops := s.stops } = s)) ∧
    (∀ (k : Nat) (r : VReq),
      let pl := s.atomPlace r.da
      s.gate.reqs[k]? = some r → (s.gate.reqs.take k).any (fun q => q.da / 256 = r.da / 256) = false → r.da / 2 ^ 32 = t.val →
      s.slotFree t = true → r.da % 256 + r.len ≤ 256 → s.atomClean pl = true →
      ∃ u, exec (.vchReadData t k 0) s = .next u ∧ u.outs.rbytes = Memory.getBytes s.mem (pl + r.da % 256) r.len ∧ u.outs.busErr = false ∧
        u.gate = { s.gate with reqs := s.gate.reqs.eraseIdx k } ∧
        u.stop t = { s.stop t with slotUse := (s.clk.mc :: (s.stop t).slotUse).take 8 } ∧
        { u with stops := s.stops, outs := s.outs, gate := s.gate } = s) ∧
    (let p := s.stop t
      let off := 256 * p.scrub
      let b := offBank64 off
      s.flag F.VCH_CFG_SCRUB_EN t = true → s.gateOpen → p.scrubAt + 1000 * s.fget F.VCH_SCRUB_INT t ≤ s.clk.ns →
      s.atomClean (s.atomPlace (2 ^ 32 * t.val + off)) = true →
      ∃ u, exec (.scrubRead t 0) s = .next u ∧ u.stop t = { p with
          scrub := (p.scrub + 1) % 2 ^ 24, scrubAt := s.clk.ns, rowOf := if s.needAct t off then SMap.del p.rowOf b else p.rowOf
          acts := if s.needAct t off then SMap.put p.acts (layerOf b) s.clk.mc else p.acts } ∧
        { u with stops := s.stops } = s)

/-- R134, R138, R142, R460: what a read of an atom does with a word whose code is not good: a flipped data bit is put right and counted, and
an uncorrectable word is recorded with its DA and raised. -/
def Obligations.ReadChecksWords : Prop :=
  ∀ (t : Fin 128) (k : Nat) (s : State) (r : VReq) (i : Nat),
    let pl := s.atomPlace r.da
    s.gate.reqs[k]? = some r → (s.gate.reqs.take k).any (fun q => q.da / 256 = r.da / 256) = false → i < 32 → s.slotFree t = true →
    r.da / 2 ^ 32 = t.val → r.da % 256 = 8 * i → r.len = 8 → (∀ j, j < 32 → j ≠ i → SMap.get s.synd (pl / 8 + j) 0 = 0) →
    (∀ b, checkSyndrome (SMap.get s.synd (pl / 8 + i) 0) = .fixData b →
      ∃ u, exec (.vchReadData t k 0) s = .next u ∧
        u.outs.rbytes = leBytes 8 (leNat (Memory.getBytes s.mem (pl + 8 * i) 8) ^^^ 2 ^ b) ∧ u.outs.busErr = false ∧
        u.fget F.VCH_CE_CNT_CE_CNT t = (s.fget F.VCH_CE_CNT_CE_CNT t + 1) % 2 ^ 32 ∧ u.flag F.VCH_STAT_CE t = true) ∧
    (checkSyndrome (SMap.get s.synd (pl / 8 + i) 0) = .bad →
      ∃ u, exec (.vchReadData t k 0) s = .next u ∧ u.outs.busErr = true ∧ u.flag F.VCH_STAT_UE t = true ∧
        u.rget .VCH_UE_LO t = BitVec.ofNat 32 r.da ∧ u.flag F.VCH_UE_HI_VALID t = true ∧ u.fget F.VCH_UE_HI_DA_HI t = t.val ∧
        u.raisedIn t 0x10 t = true)

/-- R123, R125, R126, R128, R130, R138 to R141, R422: row, refresh, margin, training and correction bookkeeping of a stop. An EMPTY remap
entry is written ACTIVE, or as a copy that holds its row; when the copy is done, the spare row holds the row's 16 atoms, no other byte of
device memory has changed, and the entry is ACTIVE and saved. -/
def Obligations.ChannelUpkeepResults : Prop :=
  (∀ (t : Fin 128) (s : State),
    (∀ bank : Fin 64, s.bankLent t bank = false → s.bankAsked t bank = false →
      SMap.get (s.stop t).lastUse bank 0 + s.fget F.VCH_CFG_PAGE_TMO t ≤ s.clk.mc →
      ∃ u, exec (.pageTimeout t bank) s = .next u ∧ u.stop t = { s.stop t with rowOf := SMap.del (s.stop t).rowOf bank } ∧
        (∀ v, v ≠ t.val → u.stop v = s.stop v) ∧ { u with stops := s.stops } = s) ∧
    (∀ bank : Fin 64, s.bankLent t bank = false → s.flag F.MESH_CFG_SLOT_EN t = false → s.refDue t bank ≤ s.clk.mc →
      let p : Stop := { s.stop t with nextRef := SMap.put (s.stop t).nextRef bank (s.refDue t bank + s.tRefi t bank) }
      (∀ postpone, postpone = false ∨ s.bankAsked t bank = false →
        ∃ u, exec (.refreshDue t bank postpone) s = .next u ∧ u.stop t = { p with
            rowOf := SMap.del p.rowOf bank, owed := SMap.del p.owed bank
            lastRef := SMap.put p.lastRef bank (s.clk.mc + 90 * (SMap.get p.owed bank 0 - 1)) } ∧
          (∀ v, v ≠ t.val → u.stop v = s.stop v) ∧ { u with stops := s.stops } = s) ∧
      (∀ n, n = SMap.get p.owed bank 0 + 1 → n < 4 → s.bankAsked t bank = true →
        ∃ u, exec (.refreshDue t bank true) s = .next u ∧ u.stop t = { p with owed := SMap.put p.owed bank n } ∧
          u.fget F.VCH_REF_OWED_MAX t = max n (s.fget F.VCH_REF_OWED_MAX t) ∧ s.sameRegs u [.VCH_REF] ∧
          { u with stops := s.stops, regs := s.regs } = s)) ∧
    (∀ layer : Fin 16, s.flag F.VCH_CFG_MARGIN_EN t = true →
      ∃ u, exec (.marginCheck t layer true) s = .next u ∧ u.flag F.VCH_STAT_MARGIN t = true ∧ u.raisedIn t 0x13 t = true ∧
        s.sameRegs u [.VCH_STAT] ∧ { u with regs := s.regs, flt := s.flt } = s) ∧
    (∀ (layer : Fin 16) (pass : BitVec 4) (rdlat : Fin 4),
      let key := 16 * t.val + layer.val
      let w := (SMap.find (s.stop t).sweep layer).getD (0, 0, 0)
      let m := w.2.1 + 2 ^ (4 * w.1) * pass.toNat
      let capture := widestRun (m % 2 ^ 64)
      let launch := widestRun (m / 2 ^ 64)
      (s.gate.layers.contains key = false → w.2.2 + 1000000 ≤ s.clk.ns →
        ∃ u, exec (.retrainWindow t layer false ⟨pass, rdlat⟩) s = .next u ∧ u.gate = { s.gate with layers := s.gate.layers ++ [key] } ∧
          u.stop t = { s.stop t with sweep := SMap.put (s.stop t).sweep layer (w.1, w.2.1, s.clk.ns) } ∧
          { u with stops := s.stops, gate := s.gate } = s) ∧
      (s.gate.layers.contains key = true → w.1 < 31 →
        ∃ u, exec (.retrainWindow t layer true ⟨pass, rdlat⟩) s = .next u ∧
          u.gate = { s.gate with layers := s.gate.layers.filter (· ≠ key) } ∧
          u.stop t = { s.stop t with sweep := SMap.put (s.stop t).sweep layer (w.1 + 1, m, w.2.2) } ∧
          { u with stops := s.stops, gate := s.gate } = s) ∧
      (s.gate.layers.contains key = true → w.1 = 31 →
        ∃ u, exec (.retrainWindow t layer true ⟨pass, rdlat⟩) s = .next u ∧
          u.gate = { s.gate with layers := s.gate.layers.filter (· ≠ key) } ∧
          u.fget F.VCH_TRAIN_L_WIN_W key = launch.2 ∧ u.fget F.VCH_TRAIN_L_WIN_R key = capture.2 ∧
          (12 ≤ launch.2 → 12 ≤ capture.2 → u.fget F.VCH_TRAIN_L_LAUNCH key = runCentre launch ∧
            u.fget F.VCH_TRAIN_L_CAPTURE key = runCentre capture ∧ u.fget F.VCH_TRAIN_L_RDLAT key = rdlat) ∧
          (launch.2 < 12 ∨ capture.2 < 12 → u.flag F.VCH_STAT_TRAIN_FAIL t = true ∧
            u.fget F.VCH_TRAIN_L_LAUNCH key = s.fget F.VCH_TRAIN_L_LAUNCH key) ∧
          s.sameRegs u [.VCH_TRAIN_L, .VCH_STAT] ∧ { u with stops := s.stops, regs := s.regs, gate := s.gate } = s)) ∧
    ((s.stop t).leakAt + 1000000 * s.fget F.VCH_BUCKET_LEAK t ≤ s.clk.ns →
      ∃ u, exec (.bucketLeak t) s = .next u ∧ u.fget F.VCH_BUCKET_LEVEL t = s.fget F.VCH_BUCKET_LEVEL t - 1 ∧
        u.fget F.VCH_BUCKET_DEPTH t = s.fget F.VCH_BUCKET_DEPTH t ∧ u.stop t = { s.stop t with leakAt := s.clk.ns } ∧
        s.sameRegs u [.VCH_BUCKET] ∧ { u with regs := s.regs, stops := s.stops } = s) ∧
    (∃ u, exec (.candAck t) s = .next u ∧ u.flag F.VCH_CAND_VALID t = false ∧ s.sameRegs u [.VCH_CAND] ∧ { u with regs := s.regs } = s) ∧
    (∃ u, exec (.vchRefClr t) s = .next u ∧ u.fget F.VCH_REF_OWED_MAX t = 0 ∧ s.sameRegs u [.VCH_REF] ∧ { u with regs := s.regs } = s)) ∧
  (∀ (t : Fin 128) (n : Fin 32) (s : State),
    let i := 32 * t.val + n.val
    (∀ v : Word, remapState v.toNat = 2 → remapMask v.toNat ≠ (s.rget .VCH_REMAP i).toNat → s.remapRefused t n v.toNat = false →
      ∃ u, exec (.remapInstall t n v) s = .next u ∧ u.rget .VCH_REMAP i = BitVec.ofNat 32 (remapMask v.toNat) ∧
        SMap.find u.boot.remaps i = some (BitVec.ofNat 32 (remapMask v.toNat)) ∧ s.sameRegs u [.VCH_REMAP] ∧
        { u with regs := s.regs, boot := s.boot } = s) ∧
    (∀ v : Word, remapState v.toNat = 1 → remapMask v.toNat ≠ (s.rget .VCH_REMAP i).toNat → s.remapRefused t n v.toNat = false →
      ∃ u, exec (.remapCopy t n v) s = .next u ∧ u.rget .VCH_REMAP i = BitVec.ofNat 32 (remapMask v.toNat) ∧
        u.gate = { s.gate with rows := s.gate.rows ++ [2 ^ 20 * t.val + remapKey v.toNat] } ∧ s.sameRegs u [.VCH_REMAP] ∧
        { u with regs := s.regs, gate := s.gate, cores := s.cores } = s) ∧
    (∀ v, v = (s.rget .VCH_REMAP i).toNat → remapState v = 1 → s.bankLent t (remapBank v) = false → s.memOk →
      s.gate.reqs = [] → s.mayAct t (layerOf (remapBank v)) = true →
      let src (col : Nat) := s.atomPlace (2 ^ 32 * t.val + (2 ^ 18 * bits v 13 0 + 2 ^ 14 * col + 2 ^ 10 * (remapBank v / 4) + 2 ^ 8 * (remapBank v % 4)))
      let spare := 2 ^ 39 + 256 * (16 * ((64 * t.val + remapBank v) * 8 + remapSpare v))
      (∀ col, col < 16 → s.atomClean (src col) = true) →
      ∃ u, exec (.remapCopyDone t n) s = .next u ∧
        (∀ col j, col < 16 → j < 256 → Memory.get u.mem (spare + 256 * col + j) = Memory.get s.mem (src col + j)) ∧
        (∀ p, p < spare ∨ spare + 4096 ≤ p → Memory.get u.mem p = Memory.get s.mem p) ∧
        remapState (u.rget .VCH_REMAP i).toNat = 2 ∧ u.flag F.VCH_STAT_REMAP_DONE t = true ∧
        SMap.find u.boot.remaps i = some (u.rget .VCH_REMAP i) ∧ u.gate.rows.contains (2 ^ 20 * t.val + remapKey v) = false ∧
        s.sameRegs u [.VCH_REMAP, .VCH_STAT]))


/-! ### Bank-side cores -/

/-- R146, R147: what the instructions of a bank-side core leave in its registers and at its PC; each counts its bc, and those that it
waited, in `BSC_CYCLES`. -/
def Obligations.CoreInstructionResults : Prop :=
  ∀ (t : Fin 128) (c : Fin 64) (w : Word) (s : State),
    let k := s.core t c
    let i := coreIdx t c
    let past (u : State) (x : Core) (n : Nat) : Prop :=
      s.onlyCore u t c { x with waitFrom := none } ∧ u.get64 .BSC_CYCLES_LO .BSC_CYCLES_HI i = (s.cyclesNow t c + n) % 2 ^ 64 ∧
      s.sameRegs u [.BSC_CYCLES_LO, .BSC_CYCLES_HI] ∧ { u with cores := s.cores, regs := s.regs } = s
    let set (v : DWord) : Core := { k with breg := SMap.put k.breg (kD w) v, pc := k.pc + 1 }
    (s.coreIssues t c 0x00 w [kA w, kB w, kD w] = true → ∀ v, bscAluOp (kFN w) (k.b (kA w)) (k.b (kB w)) = some v →
      ∃ u, exec (.bscAlu t c) s = .next u ∧ past u (set v) (if kFN w = 8 then 2 else 1)) ∧
    (s.coreIssues t c 0x01 w [kA w, kD w] = true →
      ∃ u, exec (.bscAddi t c) s = .next u ∧ past u (set (k.b (kA w) + BitVec.ofInt 64 (kIMM w))) 1) ∧
    (s.coreIssues t c 0x02 w [kD w] = true → kA w = 0 →
      ∃ u, exec (.bscShi t c) s = .next u ∧ past u (set ((k.b (kD w) <<< 18) ||| BitVec.ofNat 64 (kUIMM w))) 1) ∧
    (s.coreIssues t c 0x03 w [kA w, kB w] = true → ∀ b, bscCond (kD w) (k.b (kA w)) (k.b (kB w)) = some b →
      ∃ u, exec (.bscBr t c) s = .next u ∧
        past u { k with pc := if b then wrap 14 (k.pc + kOFF w) else k.pc + 1 } (if b then 2 else 1)) ∧
    (s.coreIssues t c 0x04 w [kD w] = true → kA w = 0 → kUIMM w < 64 →
      ∃ u, exec (.ldc t c) s = .next u ∧ past u (set (BitVec.ofNat 64 (s.caGet t c (kUIMM w)))) 1) ∧
    (s.coreIssues t c 0x05 w [kD w] = true → kA w = 0 → 8 ≤ kUIMM w → kUIMM w < 64 →
      ∃ u, exec (.stc t c) s = .next u ∧ u.caGet t c (kUIMM w) = (k.b (kD w)).toNat ∧ s.onlyCore u t c { k with pc := k.pc + 1, waitFrom := none } ∧
        (∀ n, n < 56 → n ≠ kUIMM w - 8 → u.caGet t c (8 + n) = s.caGet t c (8 + n)) ∧
        s.sameRegs u [.BSC_CYCLES_LO, .BSC_CYCLES_HI, .BSC_DATA_LO, .BSC_DATA_HI] ∧ { u with cores := s.cores, regs := s.regs } = s) ∧
    (s.coreIssues t c 0x06 w [kD w] = true → kA w = 0 → kUIMM w < 2 →
      ∃ u, exec (.bscSys t c) s = .next u ∧
        past u (set (BitVec.ofNat 64 (if kUIMM w = 0 then s.cyclesNow t c else 64 * t.val + c.val))) 1) ∧
    (∀ bc, s.coreIssues t c 0x09 w [] = true → k.row.isSome = true →
      ∃ u, exec (.rclose t c bc) s = .next u ∧ past u { k with row := none, pc := k.pc + 1 } bc) ∧
    (s.coreIssues t c 0x10 w [kA w, kD w] = true → kB w = 0 → kFN w = 0 → (k.b (kA w)).toNat < 65536 → (s.eng t).spmOn = true →
      s.exOwned t = true → k.expq.length < 8 →
      ∃ u, exec (.exp t c) s = .next u ∧ past u { k with expq := k.expq ++ [((k.b (kA w)).toNat, k.b (kD w), false)], pc := k.pc + 1 } 1) ∧
    (s.coreIssues t c 0x11 w [kA w, kD w] = true → kB w = 0 → kFN w = 0 → (k.b (kA w)).toNat < 65536 → (s.eng t).spmOn = true →
      s.exOwned t = true →
      ∃ u, exec (.imp t c) s = .next u ∧
        past u { k with pendImp := k.pendImp ++ [(kD w, (k.b (kA w)).toNat, k.pc)], pc := k.pc + 1 } 1) ∧
    (s.coreIssues t c 0x18 w [] = true → bits w.toNat 25 0 = 0 →
      ∃ u, exec (.yld t c) s = .next u ∧ past u { k with
        pause := if s.gate.held.any (fun x => x.bank == 64 * t.val + c.val) then [.lease] else [], pc := k.pc + 1 } 1)

/-- R145 to R147, R164, R165, R168: ROPEN opens a row of the core's bank, RLD reads one word of it and RST writes one; a store leaves
every other byte of device memory alone. An exported word is stored in the exchange bank, an imported word comes back from it. -/
def Obligations.RowAndExchangeResults : Prop :=
  (∀ (t : Fin 128) (c : Fin 64) (w : Word) (s : State),
    let k := s.core t c
    let a := (k.b (kA w)).toInt + kIMM w
    (∀ bc, s.coreIssues t c 0x08 w [kA w] = true → k.row = none → 0 ≤ a → a ≤ 16383 → s.mayAct t (layerOf c) = true →
      s.gate.rows.contains (2 ^ 14 * (64 * t.val + c.val) + a.toNat) = false →
      ∃ u, exec (.ropen t c bc) s = .next u ∧ s.onlyCore u t c { k with row := some a.toNat, pc := k.pc + 1, waitFrom := none } ∧
        SMap.find (u.stop t).acts (layerOf c) = some s.clk.mc ∧ s.sameRegs u [.BSC_CYCLES_LO, .BSC_CYCLES_HI] ∧
        { u with cores := s.cores, stops := s.stops, regs := s.regs } = s) ∧
    (∀ r, k.row = some r → 0 ≤ a → a ≤ 511 →
      let da := coreDa t c r a.toNat
      let pl := s.atomPlace da + da % 256
      (s.coreIssues t c 0x0A w [kA w, kD w] = true → SMap.get s.synd (pl / 8) 0 = 0 →
        bitOf (SMap.get s.soft (pl / 256) 0) (pl % 256 / 16) = false →
        ∃ u, exec (.rld t c 0) s = .next u ∧
          s.onlyCore u t c { k with breg := SMap.put k.breg (kD w) (BitVec.ofNat 64 (leNat (Memory.getBytes s.mem pl 8))), pc := k.pc + 1,
                                     waitFrom := none } ∧
          s.sameRegs u [.BSC_CYCLES_LO, .BSC_CYCLES_HI] ∧ { u with cores := s.cores, regs := s.regs } = s) ∧
      (s.coreIssues t c 0x0B w [kA w, kD w] = true → s.memOk →
        ∃ u, exec (.rst t c) s = .next u ∧ s.memStored u pl (leBytes 8 (k.b (kD w)).toNat) ∧
          s.onlyCore u t c { k with pc := k.pc + 1, waitFrom := none } ∧ s.sameRegs u [.BSC_CYCLES_LO, .BSC_CYCLES_HI] ∧
          { u with cores := s.cores, regs := s.regs, mem := s.mem, synd := s.synd, soft := s.soft } = s))) ∧
  (∀ (t : Fin 128) (c : Fin 64) (s : State),
    let k := s.core t c
    (∀ x rest, k.expq = x :: rest → s.exWiping t = false → (s.eng t).spmOn = true → s.spmOk → x.1 < 65536 →
      ∃ u, exec (.bscExpWrite t c false) s = .next u ∧ s.storedAt u t (s.exOff t x.1) (leBytes 8 x.2.1.toNat) ∧
        s.onlyCore u t c { k with expq := rest } ∧ { u with cores := s.cores, spm := s.spm, spmErr := s.spmErr } = s) ∧
    (∀ (reg : Fin 16) x, k.pendImp.find? (·.1 == reg.val) = some x → k.expq.any (·.1 == x.2.1) = false → s.exWiping t = false →
      SMap.get s.spmErr (spmKey t (s.exOff t x.2.1) / 8) 0 = 0 →
      ∃ u, exec (.bscImpData t c reg) s = .next u ∧ s.onlyCore u t c { k with
          pendImp := k.pendImp.erase x, breg := SMap.put k.breg reg (BitVec.ofNat 64 (leNat (s.spmRaw t (s.exOff t x.2.1) 8))) } ∧
        { u with cores := s.cores } = s))

/-- R149, R151, R153 to R163, R167: program load, launch by a ring record, commands that the host may not give, token, lease and start; a launch ends with its code, by
HALT, by STOP or by the run limit; a notice pauses a core at its boundary and the core resumes. -/
def Obligations.LaunchResults : Prop :=
  (∀ (t : Fin 128) (s : State),
    (∀ (src : By) (img : List Byte), s.gateOpen → s.passes 0 src → s.hostDenied src.isHost = false → (s.progMask t).any (s.coreBusy t) = false →
      (s.daRead (2 ^ 32 * t.val + 4096 * s.fget F.BSC_PSRC_OFFSET t) 4096 5).2 = (img, none) →
      ∃ u, exec (.bscProgramLoad t src) s = .next u ∧ u.flag F.BSC_PCTL_BUSY t = true ∧ u.flag F.BSC_PCTL_FAIL t = false ∧
        (∀ c n, c ∈ s.progMask t → n < 1024 → SMap.get (u.core t c).store n 0 = BitVec.ofNat 32 (leAt img (4 * n) 4)) ∧
        (∀ c, c < 64 → c ∉ s.progMask t → u.core t c = s.core t c)) ∧
    (s.flag F.BSC_PCTL_BUSY t = true →
      ∃ u, exec (.bscLoadDone t) s = .next u ∧ u.flag F.BSC_PCTL_BUSY t = false ∧ u.flag F.BSC_STAT_LOAD_DONE t = true ∧
        s.sameRegs u [.BSC_PCTL, .BSC_STAT] ∧ { u with regs := s.regs } = s) ∧
    (∀ (c : Fin 64) (src : By), s.passes 0 src → s.hostDenied src.isHost = true →
      exec (.bscGo t c src) s = .next (s.event F.BSC_STAT_CA_DENY t) ∧
      exec (.bscStop t c src) s = .next (s.event F.BSC_STAT_CA_DENY t) ∧
      (s.gate = Gate.clear → exec (.bscProgramLoad t src) s = .next (s.event F.BSC_STAT_CA_DENY t))) ∧
    (s.ringOn t = true → s.exWiping t = false → SMap.get s.spmErr (spmKey t (s.ringBase t) / 8) 0 = 0 →
      ∃ u, exec (.bscRingPoll t) s = .next u ∧ u.stop t = { s.stop t with ringProd := leNat (s.spmRaw t (s.ringBase t) 2) } ∧
        { u with stops := s.stops } = s) ∧
    (∀ b portA,
      let cons := s.fget F.BSC_RCONS_CONS t
      let a := s.ringBase t + 64 + 64 * (cons % 2 ^ s.fget F.BSC_RING_LOG2 t)
      let c := 4 * bits (leAt b 0 2) 3 0 + bits (leAt b 0 2) 5 4
      b = s.spmRaw t a 64 → s.ringOn t = true → s.exWiping t = false → (s.stop t).ringProd ≠ cons →
      (List.range 8).all (fun k => SMap.get s.spmErr (spmKey t a / 8 + k) 0 == 0) = true →
      leAt b 0 2 < 64 → leAt b 2 2 < 1024 → leAt b 4 2 < 7 → leAt b 12 4 = 0 → s.flag F.GLB_FEATURES_BSC 0 = true → s.coreBusy t c = false →
      ∃ u, exec (.bscRingRecord ⟨t, portA⟩) s = .next u ∧ u.cstate t c = csWAIT ∧ (u.core t c).doneOff = some (leAt b 6 2) ∧
        u.fget F.BSC_CTRL_LO_ENTRY (coreIdx t c) = leAt b 2 2 ∧ (u.rget .BSC_CTRL_HI (coreIdx t c)).toNat = leAt b 8 4 ∧
        (∀ n, n < leAt b 4 2 → u.caGet t c (8 + n) = leAt b (16 + 8 * n) 8) ∧
        u.fget F.BSC_RCONS_CONS t = (cons + 1) % 65536) ∧
    (∀ c : Fin 64, s.cstate t c = csWAIT → (s.core t c).token = false → s.tokensTaken (towerOf t) (layerOf c) < 8 → s.tokenFirst t c = true →
      ∃ u, exec (.bscTokenGrant t c) s = .next u ∧ s.onlyCore u t c { s.core t c with token := true, waited := false } ∧
        { u with cores := s.cores, enr := s.enr } = s) ∧
    (∀ c : Fin 64, s.cstate t c = csWAIT → (s.core t c).token = true → s.bankLent t c = false → s.bankAsked t c = false →
      ∃ u, exec (.bscLeaseBegin t c) s = .next u ∧ u.gate = { s.gate with lent := s.gate.lent ++ [64 * t.val + c.val] } ∧
        u.stop t = { s.stop t with rowOf := SMap.del (s.stop t).rowOf c } ∧ { u with gate := s.gate, stops := s.stops } = s) ∧
    (∀ c : Fin 64, s.cstate t c = csWAIT → s.bankLent t c = true → s.bankCopied t c = false → (s.stop t).actFree (layerOf c) s.clk.mc = true →
      ∃ u, exec (.bscCoreStart t c) s = .next u ∧ u.cstate t c = csRUN ∧
        s.onlyCore u t c { s.core t c with breg := [], pc := s.fget F.BSC_CTRL_LO_ENTRY (coreIdx t c), row := none, pause := []
                                           waited := false, waitFrom := none } ∧
        SMap.find u.gate.quiet (16 * t + layerOf c) = some s.clk.mc)) ∧
  (∀ (t : Fin 128) (c : Fin 64) (s : State),
    let k := s.core t c
    let i := coreIdx t c
    let ended (u : State) (code exit : Nat) : Prop :=
      u.cstate t c = (if code = 0 then csDONE else csERROR) ∧ u.fget F.BSC_CSTAT_LO_CODE i = code ∧ u.fget F.BSC_CSTAT_HI_EXIT i = exit ∧
      bitOf (u.rget (if c.val < 32 then .BSC_DONE0 else .BSC_DONE1) t).toNat (c.val % 32) = true ∧
      (u.core t c).token = false ∧ u.bankLent t c = false ∧ (u.core t c).row = none ∧ (u.core t c).pendImp = [] ∧
      (∀ off, k.doneOff = some off → s.exOwned t = true → (s.eng t).spmOn = true → (u.core t c).expq = k.expq ++
        [(off, BitVec.ofNat 64 (doneBits c code exit (s.rget .BSC_CTRL_HI i).toNat), true)]) ∧
      (code ≠ 0 → u.fget F.BSC_CSTAT_LO_ERR_PC i = k.pc % 1024 ∧ u.flag F.BSC_STAT_ERR t = true)
    (∀ bc w, s.coreIssues t c 0x1F w [kA w] = true →
      ∃ u, exec (.bscHalt t c bc) s = .next u ∧ ended u 0 ((k.b (kA w)).toNat % 65536)) ∧
    (∀ src, s.passes 0 src → s.hostDenied src.isHost = false → s.coreBusy t c = true →
      ∃ u, exec (.bscStop t c src) s = .next u ∧ ended u 0x0B 0) ∧
    (s.cstate t c = csRUN → 2 ^ s.fget F.BSC_CFG_RUN_LIM t ≤ s.cyclesNow t c →
      ∃ u, exec (.bscRunLimit t c) s = .next u ∧ ended u 0x0A 0) ∧
    (∀ why, s.cstate t c = csRUN → k.pause.contains (pauseOf why) = true →
      ∃ u, exec (.bscPause t c why) s = .next u ∧ u.cstate t c = csPAUSE ∧ s.onlyCore u t c { k with
          since := s.clk.mc, waitFrom := none, pause := k.pause.filter (fun w => s.flag F.MESH_CFG_SLOT_EN t && w == .refresh) } ∧
        u.fget F.BSC_PAUSES_REF_REF i = (s.fget F.BSC_PAUSES_REF_REF i + if k.pause.contains .refresh then 1 else 0) % 2 ^ 32 ∧
        u.fget F.BSC_PAUSES_LEASE_LEASE i = (s.fget F.BSC_PAUSES_LEASE_LEASE i + if k.pause.contains .lease then 1 else 0) % 2 ^ 32) ∧
    (s.cstate t c = csPAUSE → k.pause.contains .refresh = false → s.gate.serve.any (fun x => x.1 == 64 * t.val + c.val) = false →
      s.bankCopied t c = false → s.gate.reqs.any (fun r => r.da / 2 ^ 32 == t.val && offBank64 (r.da % 2 ^ 32) == c.val) = false →
      (∀ m, SMap.find (s.stop t).lastRef c = some m → m + 90 ≤ s.clk.mc) →
      (s.stop t).actFree (layerOf c) s.clk.mc = true → (k.row.isSome = true → s.mayAct t (layerOf c) = true) →
      ∃ u, exec (.bscResume t c) s = .next u ∧ u.cstate t c = csRUN ∧
        s.onlyCore u t c { k with pause := [], since := s.clk.mc, waited := false }) ∧
    (∀ h, h ∈ s.gate.held → h.bank = 64 * t.val + c.val → h.since + s.fget F.BSC_CFG_LEASE_MAX t ≤ s.clk.mc → s.bankLent t c = true →
      k.pause = [] → s.cstate t c = csRUN →
      ∃ u, exec (.bscLeaseLimit t c) s = .next u ∧ s.onlyCore u t c { k with pause := [.lease] } ∧ { u with cores := s.cores } = s))



/-! ### The KV manager -/

/-- R181, R182, R186: SEQ_OPEN completes with a status and, when that is OK, names a context that was FREE; SEQ_CLOSE frees its context and
completes, or waits for its receipt while metering runs. -/
def Obligations.ContextResults : Prop :=
  ∀ (qp idx : Nat) (d : Descr) (s : State), s.gateOpen →
    (s.kvStarts qp idx 0x10 d →
      let r := ((s.running (.seqOpen qp idx)).markStarted qp d).seqOpen qp (s.going d)
      ∃ u, exec (.seqOpen qp idx) s = .next u ∧ s.completed u qp d r.2.1 0 r.2.2 ∧
        (r.2.1 = stOK → leAt r.2.2 0 4 ∈ u.kv.ctxs ∧ leAt r.2.2 0 4 ∉ s.kv.ctxs ∧ leAt r.2.2 0 4 < s.ctxCount)) ∧
    (let s1 := (s.running (.seqClose qp idx)).markStarted qp d
     s.kvStarts qp idx 0x12 d → s.leafFull = false → s.kv.closeWait.contains (qp, idx) = false → s.swapping d.ctx = false →
     s1.headVerdict qp (s.going d) (bodyZero (s.going d) [(16, 8)]) false = none → d.ctx < s.ctxCount →
     ∀ s2 b s3, s1.kvRead (s1.seqDa d.ctx) 128 = (s2, some b) → eState b ≠ cFREE → eFunc b = (s.qpFunc qp).getD 0 →
     (Job.closeCtx (Job.mk s2 none) d.ctx b).finish s2 = (s3, none) →
     ∃ u, exec (.seqClose qp idx) s = .next u ∧ d.ctx ∉ u.kv.ctxs ∧
       (s.flag F.ENR_CTL_RUN 0 = false ∨ d.ctx = 0 → s.completed u qp d stOK 0 []) ∧
       (s.flag F.ENR_CTL_RUN 0 = true → d.ctx ≠ 0 → ∃ x, u.enr.closing = s.enr.closing ++ [x] ∧ x.qp = qp ∧ x.didx = idx ∧ x.ctx = d.ctx ∧
         x.gen = eGen b ∧ x.req = d.u 16 8))

/-- R183, R184, R187, R208: a SEQ_STEP whose descriptor and list are good works through its items in list order, completes OK with the
number of entries that failed, and, at BEGIN, remembers the items begun. The entry status of a BEGIN item that cannot begin: 2 for a
swapped context, 3 outside OPEN, 4 past the length limit, 5 for a context of no one or of another function, 6 for a FAILED one; and of an
END item outside STEP. -/
def Obligations.StepResults : Prop :=
  (∀ (qp idx : Nat) (d : Descr) (s : State) (op : Nat), op = d.u 16 1 → op ≤ 1 → s.kvStarts qp idx 0x11 d → s.gateOpen →
    let c : Instr := if op = 0 then .seqStepBegin qp idx else .seqStepEnd qp idx
    let s1 := (s.running c).markStarted qp d
    let f := (s.qpFunc qp).getD 0
    let cnt := d.u 20 4
    s1.headVerdict qp (s.going d) (bodyZero (s.going d) [(16, 1), (20, 28)]) true = none → 1 ≤ cnt → cnt ≤ 256 → (op = 1 → d.u 32 8 = 0) →
    s1.daVerdict f (d.u 24 8) (8 * cnt) = none → s1.daVerdict f (d.u 40 8) (64 + 32 * cnt) = none →
    ∀ s2 bs, s1.daRead (d.u 24 8) (8 * cnt) 4 = (s2, bs, none) →
      let items := stepItems cnt bs
      (∀ i, i < cnt → leAt bs (8 * i) 8 < 2 ^ 36) → (∀ x, x ∈ items → if op = 0 then 1 ≤ x.2 else x.2 = 0) →
      (op = 0 → s2.daVerdict f (d.u 32 8) (4 * (items.map (·.2)).foldl (· + ·) 0) = none) →
      let r := State.stepGo s2 (op = 0) f (items.map (·.1)) (d.u 32 8) items [] 0 []
      (op = 0 → ∃ u, exec (.seqStepBegin qp idx) s = .next u ∧ r.1.completed u qp d stOK 0 (leBytes 4 r.2.2.1) ∧
        SMap.find u.kv.steps qp = some r.2.2.2) ∧
      (op = 1 → ∃ u, exec (.seqStepEnd qp idx) s = .next u ∧ r.1.completed u qp d stOK 0 (leBytes 4 r.2.2.1))) ∧
  (∀ (f c n tok : Nat) (named : List Nat) (s s1 : State) (b : List Byte),
    (s.ctxCount ≤ c → (s.beginItem f c n tok named).2.1 = 5 ∧ (s.endItem f c).2.1 = 5) ∧
    (c < s.ctxCount → s.kvRead (s.seqDa c) 128 = (s1, some b) →
      let st := (s.beginItem f c n tok named).2.1
      let en := (s.endItem f c).2.1
      (eState b = cFREE ∨ eFunc b ≠ f → st = 5 ∧ en = 5) ∧
      (eFunc b = f → eState b = cFAILED → st = 6 ∧ en = 6) ∧
      (eFunc b = f → eState b = cSWAPPED → st = 2 ∧ en = 3) ∧
      (eFunc b = f → eState b = cSWAPOUT ∨ eState b = cSWAPIN → st = 2 ∧ en = 3) ∧
      (eFunc b = f → eState b = cSTEP → st = 3) ∧
      (eFunc b = f → eState b = cOPEN → 2 ^ 20 ≤ eLen b + n → st = 4 ∧ en = 3)))

/-- R174 to R177, R195, R197, R199, R209: a zeroed page heads its free list; a swap of a context begins, moves its last page, and ends; a
slot that does not name its page, context and swap is refused; PREFIX_PIN completes with the number of nodes found. RUN with a good
configuration starts the KV manager, the first start builds every slice's free list, STOP keeps everything but RUN; a bad configuration
only sets CFG_ERR. Each of these commands (PAGE_ZERO_DONE, the swap commands, PREFIX_PIN, RUN, STOP, the end of the first start) answers a next
state under conditions on the state and the operands alone. -/
def Obligations.KvUpkeepResults : Prop :=
  (∀ (s : State), s.gateOpen →
    (∀ p, s.kv.zeroing.contains p = true → s.kvRuns = true →
      ∃ u, exec (.pageZeroDone p) s = .next u ∧ u.freeList (p / 2 ^ 17) = p :: s.freeList (p / 2 ^ 17) ∧ p ∉ u.kv.zeroing ∧ p ∉ u.kv.confPages) ∧
    (∀ qp idx d s2 b s3, s.kvStarts qp idx 0x13 d →
      ((s.running (.kvSwapOut qp idx)).markStarted qp d).swapEntry qp (s.going d) = (s2, .ok b) → eState b = cOPEN → eSwaps b ≠ 65535 →
      s2.outStart d.ctx (some (qp, idx)) = (s3, none) →
      exec (.kvSwapOut qp idx) s = .next { s3.kvSync with gate := s.gate } ∧
        ((SMap.find s3.kvSync.kv.outs d.ctx).isSome = true ∨ s3.kvSync.descr qp idx = none)) ∧
    (∀ qp idx d s2 b s3, s.kvStarts qp idx 0x14 d → s.kv.short.contains (qp, idx) = false →
      ((s.running (.kvSwapIn qp idx)).markStarted qp d).swapEntry qp (s.going d) = (s2, .ok b) → eState b = cSWAPPED →
      s2.inStart d.ctx (some (qp, idx)) [] = (s3, true, none) →
      exec (.kvSwapIn qp idx) s = .next { s3.kvSync with gate := s.gate } ∧
        ((SMap.find s3.kvSync.kv.ins d.ctx).isSome = true ∨ s3.kvSync.descr qp idx = none)) ∧
    (∀ c x n e p, s.kv.held = false → s.hostOpen = true → s.kvRuns = true → SMap.find s.kv.outs c = some x → x.slot = some n →
      x.todo = [(e, p)] → SMap.sortedFrom none s.kv.outs = true →
      ∃ u, exec (.swapPageWriteDone c) s = .next u ∧ SMap.find u.kv.outs c = none ∧
        ∀ qi, x.desc = some qi → (s.descr qi.1 qi.2).isSome = true → u.descr qi.1 qi.2 = none) ∧
    (∀ c data x e n rest p ps, s.kv.held = false → s.slotAsked c = true → s.kvRuns = true → SMap.find s.kv.ins c = some x →
      x.todo = (e, n) :: rest → x.placed = p :: ps → SMap.sortedFrom none s.kv.ins = true →
      let s1 := s.running (.swapPageReadDone c data)
      ∀ s2 b, s1.kvRead (s1.seqDa c) 128 = (s2, some b) →
      (data.take 16 ≠ slotHead c e (eGen b) (eSwaps b) (eD b) →
        ∃ u, exec (.swapPageReadDone c data) s = .next u ∧ SMap.find u.kv.ins c = none ∧ u.flag F.KVM_STAT_SWAP_AUTH 0 = true) ∧
      (data.take 16 = slotHead c e (eGen b) (eSwaps b) (eD b) → ∀ pt key s3,
        s2.swapKey c (eGen b) = (s3, key) →
        gcmUnseal key (slotIv c e (eGen b) (eSwaps b)) ((data.drop 64).take (128 * eD b) ++ (data.drop 16).take 16)
          (slotHead c e (eGen b) (eSwaps b) (eD b)) = some pt →
        ∀ s4 s5, s4 = State.vectorsWrite 32 (State.vectorsWrite 32 s3 (2 ^ 15 * p) (eD b) (pt.take (64 * eD b))) (2 ^ 15 * p + 16384) (eD b)
          (pt.drop (64 * eD b)) → ((Job.mk s4 none).setPte c (eRoot b) e (p + 2 ^ 24)).finish s4 = (s5, none) →
        ∃ u, exec (.swapPageReadDone c data) s = .next u ∧
          (rest = [] → SMap.find u.kv.ins c = none) ∧
          (rest ≠ [] → SMap.find u.kv.ins c = some { x with todo := rest, placed := ps, moved := x.moved + 1, restored := x.restored ++ [e] }))) ∧
    (∀ qp idx d, s.kvStarts qp idx 0x15 d →
      let s1 := (s.running (.prefixPin qp idx)).markStarted qp d
      let p := d.u 24 4
      s1.headVerdict qp (s.going d) (bodyZero (s.going d) [(16, 6), (24, 4), (32, 8)] && d.u 16 1 ≤ 1 && p < 2 ^ 20) true = none →
      (p ≠ 0 → s1.daVerdict ((s.qpFunc qp).getD 0) (d.u 32 8) (4 * p) = none) →
      ∀ s2 bs, s1.daRead (d.u 32 8) (4 * p) 4 = (s2, bs, none) →
      let k := s2.nsKey (d.u 20 2) 0
      let found := if k.1.flag F.PFX_CFG_EN 0 then
        (State.pinGo (p / 32) k.1 k.2 0 0 (d.u 20 2) (d.u 17 3) (d.u 16 1 = 0) (words4 p bs) 0).2 else 0
      ∃ u, exec (.prefixPin qp idx) s = .next u ∧ s.completed u qp d stOK 0 (leBytes 4 found))) ∧
  (∀ (s : State),
    (s.flag F.KVM_CTL_RUN 0 = false → s.kvConfigOk = true →
      ∃ u, exec .kvmRun s = .next u ∧ u.flag F.KVM_CTL_RUN 0 = true ∧ u.kv.inited = true ∧ u.kv.initing = (s.kv.initing || !s.kv.inited) ∧
        s.sameRegs u [.KVM_CTL] ∧ { u with regs := s.regs, kv := s.kv } = s) ∧
    (s.flag F.KVM_CTL_RUN 0 = false → s.kvConfigOk = false →
      ∃ u, exec .kvmRun s = .next u ∧ u.flag F.KVM_STAT_CFG_ERR 0 = true ∧ s.sameRegs u [.KVM_STAT] ∧ { u with regs := s.regs } = s) ∧
    (∃ u, exec .kvmStop s = .next u ∧ u.flag F.KVM_CTL_RUN 0 = false ∧ s.sameRegs u [.KVM_CTL] ∧ { u with regs := s.regs } = s) ∧
    (s.kv.initing = true → s.gateOpen → (∀ t, t < 128 → s.fget F.KVM_POOL_OFF_OFF 0 + s.fget F.KVM_POOL_PAGES t ≤ 131072) →
      ∃ u, exec .kvmInitDone s = .next u ∧ u.flag F.KVM_CTL_READY 0 = true ∧ u.kv.inited = true ∧ u.kv.initing = false ∧ u.kv.ctxs = [] ∧
        (∀ t, t < 128 → u.freeList t = s.poolOrder t) ∧ u.fget F.KVM_CTXS_OPEN 0 = 0))


/-! ### Fabric ports and Varrax -/

/-- R211 to R213, R234: the state that a port command leaves its port in, the lanes and keys that go with it, and the events that it
records; no command changes the state of another port. Each port command answers a next state under conditions on the state and the operands
alone. -/
def Obligations.PortResults : Prop :=
  ∀ (p : Fin 8) (s : State),
    let maxw := s.fget F.FAB_CFG_MAXW p
    let at_ (u : State) (v : Nat) (a : Option Nat) : Prop :=
      u.portState p = v ∧ (u.port p).attempt = a ∧ ∀ r, r ≠ p.val → u.portState r = s.portState r
    let dark (u : State) : Prop := u.flag F.FAB_STATE_KEYED p = false ∧ u.fget F.FAB_STATE_LANES p = 0 ∧ u.fget F.FAB_STATE_WIDTH p = 0 ∧
      (u.port p).newKey = none ∧ (u.port p).waitKey = []
    let down (u : State) : Prop := at_ u fpRETRAIN (some 0) ∧ dark u ∧ u.flag F.FAB_STAT_DOWN p = true
    let keys (u : State) (k : Nat) : Prop :=
      if s.validPeers = [] then u.flag F.FAB_STATE_KEYED p = true ∧ u.keyIdx p = k ∧ (u.port p).newKey = none
      else (u.port p).newKey = some k ∧ (u.port p).waitKey = s.validPeers
    (s.portThere p = true → ∃ u, exec (.portEnable p) s = .next u ∧ u.flag F.FAB_CFG_EN p = true ∧
      (if s.portState p = fpOFF then at_ u fpTRAIN (some 0) else at_ u (s.portState p) (s.port p).attempt)) ∧
    (∃ u, exec (.portDisable p) s = .next u ∧ u.flag F.FAB_CFG_EN p = false ∧ at_ u fpOFF none ∧ dark u ∧
      (s.portLive p = true → u.flag F.FAB_STAT_DOWN p = true)) ∧
    (s.portState p = fpTRAIN ∨ s.portState p = fpRETRAIN → ∀ k w lanes, (s.port p).attempt = some k → (attempts maxw)[k]? = some (w, lanes) →
      ∃ u, exec (.trainAttemptSuccess p) s = .next u ∧ at_ u (if w = maxw then fpUP else fpDEGRADED) none ∧
        u.fget F.FAB_STATE_WIDTH p = w ∧ u.fget F.FAB_STATE_LANES p = lanes ∧ (u.port p).fails = 0 ∧ u.flag F.FAB_STAT_UP p = true ∧
        (w ≠ maxw → u.flag F.FAB_STAT_DEGRADED p = true) ∧ keys u 0) ∧
    (∀ k, (s.port p).attempt = some k → ∃ u, exec (.trainAttemptTimeout p) s = .next u ∧
      (k + 1 < (attempts maxw).length → at_ u (s.portState p) (some (k + 1))) ∧
      ((attempts maxw).length ≤ k + 1 → s.portState p = fpTRAIN →
        at_ u fpFENCED none ∧ dark u ∧ u.flag F.FAB_STAT_FENCED p = true ∧ u.raisedIn (132 + p / 2) 0x30 p = true) ∧
      ((attempts maxw).length ≤ k + 1 → s.portState p = fpRETRAIN →
        if s.fget F.FAB_CFG_RETRY p ≤ (s.port p).fails + 1 then at_ u fpFENCED none ∧ dark u ∧ u.flag F.FAB_STAT_FENCED p = true
        else at_ u fpRETRAIN none ∧ (u.port p).fails = (s.port p).fails + 1)) ∧
    (s.portState p = fpRETRAIN → (s.port p).attempt = none → ∃ u, exec (.retrainRetry p) s = .next u ∧ at_ u fpRETRAIN (some 0)) ∧
    (s.portLive p = true → ∃ u, exec (.linkLoss p) s = .next u ∧ down u ∧ u.raisedIn (132 + p / 2) 0x30 p = true) ∧
    (∀ ce ue, ∃ u, exec (.fecLimit p ce ue) s = .next u ∧ u.fget F.FAB_FEC_CE_CE p = (s.fget F.FAB_FEC_CE_CE p + ce) % 2 ^ 32 ∧
      u.fget F.FAB_FEC_UE_UE p = (s.fget F.FAB_FEC_UE_UE p + ue) % 2 ^ 32 ∧
      if s.fget F.FAB_CFG_FEC_LIM p < ue ∧ s.portLive p = true then down u ∧ u.raisedIn (132 + p / 2) 0x30 p = true
      else at_ u (s.portState p) (s.port p).attempt) ∧
    (s.portLive p = true → ∃ u, exec (.portRetrain p) s = .next u ∧ down u) ∧
    (s.portState p = fpFENCED → ∃ u, exec (.portUnfence p) s = .next u ∧ at_ u fpTRAIN (some 0) ∧ (u.port p).fails = 0) ∧
    (s.sprays p = true → (s.port p).newKey = none → ∃ u, exec (.fabRekey p) s = .next u ∧ at_ u (s.portState p) (s.port p).attempt ∧
      keys u (1 - s.keyIdx p)) ∧
    (∀ peer (idx : Fin 2), (s.peer peer).keys.any (fun k => k.1 == p.val && k.2.1 == 1 - idx.val) = true →
      exec (.oldKeyExpiry peer p idx) s = .next (s.setPeer peer { s.peer peer with
        keys := (s.peer peer).keys.filter (fun k => !(k.1 == p.val && k.2.1 == idx.val)) }))


/-- R214 to R218, R224, R233, R235: what arrives on a port, connection control, timers and the peer table. -/
def Obligations.ConnectionResults : Prop :=
  ∀ (i : Nat) (s : State),
    (∀ v, ∃ u, exec (.vrxRun v) s = .next u ∧ s.sameRegs u [.VRX_CTL, .VRX_STAT] ∧ { u with regs := s.regs } = s ∧
      (v = false → u.flag F.VRX_CTL_RUN 0 = false) ∧
      (v = true → s.fget F.VRX_CRED_INFLIGHT 0 + 16384 * s.fget F.VRX_CRED_FREE 0 ≤ s.fget F.VRX_RXPOOL_SLOTS 0 → u.flag F.VRX_CTL_RUN 0 = true) ∧
      (v = true → s.fget F.VRX_RXPOOL_SLOTS 0 < s.fget F.VRX_CRED_INFLIGHT 0 + 16384 * s.fget F.VRX_CRED_FREE 0 →
        u.flag F.VRX_CTL_RUN 0 = s.flag F.VRX_CTL_RUN 0 ∧ u.flag F.VRX_STAT_CFG_ERR 0 = true)) ∧
    (∀ (p : Fin 8) (ok : Bool) (b : List Byte), s.portLive p = true → s.flag F.VRX_CTL_RUN 0 = true →
      let src := leAt b 2 2
      let op := leAt b 1 1
      let sport := leAt b 6 1
      let enc := bitOf (leAt b 0 1) 2
      let idx := b2n (bitOf (leAt b 0 1) 3)
      (ok = false ∨ s.headOk b = false → exec (.frameRx p ok b) s = .next (s.fadd F.VRX_DROP_COUNT 0 1)) ∧
      (ok = true → s.headOk b = true → ∀ s1 st, s.peerState src = (s1, st) →
        (src = s.self ∨ st = psFREE ∨ st = psREMOVING ∨ (opUnkeyed op = false ∧ (enc = false ∨ s.flag F.FAB_STATE_KEYED p = false)) →
          exec (.frameRx p ok b) s = .next s1) ∧
        (src ≠ s.self → st = psVALID ∨ st = psUNREACH → enc = true → s.flag F.FAB_STATE_KEYED p = true →
          (s.peer src).conn ≠ 0 ∨ opControl op = true →
          ∀ k, (s.peer src).keys.find? (fun k => k.1 == sport && k.2.1 == idx) = some k →
          let opened := gcmUnseal k.2.2 (linkIv src sport idx (leAt b 64 8)) (b.drop 72) (b.take 72)
          (opened = none → exec (.frameRx p ok b) s = .next (s1.tagFail p src sport)) ∧
          (∀ pay, opened = some pay → opControl op = false → op ≠ opTIME → s.flag F.LUL_STATE_SENTRY 0 = false →
            exec (.frameRx p ok b) s = .next (((s1.setPeer src { s.peer src with pmask := some (leAt b 7 1) }).rxPacket src p b pay).ackApply src
              (leAt b 12 4) (leAt b 16 16))) ∧
          (∀ pay, opened = some pay → opControl op = true → ∃ u m, exec (.frameRx p ok b) s = .next u ∧ (u.peer src).ctl = (s.peer src).ctl ++ [m] ∧
            m.op = op ∧ m.msn = leAt b 32 4 ∧ m.arg0 = leAt b 48 8 ∧ m.arg1 = leAt b 12 4 ∧ m.tag = leAt b 16 16 ∧
            (u.peer src).pmask = some (leAt b 7 1))))) ∧
    (∀ m u, s.control i opACK 0 m u → exec (.vrxAck i) s = .next ((u.setPeer i { u.peer i with
      effTo := if (u.peer i).reported m.msn ∨ 2 ^ 31 ≤ dist32 m.msn (u.peer i).effTo then (u.peer i).effTo else m.msn }).ackApply i m.arg1 m.tag)) ∧
    (0 < (s.peer i).ackDue ∨ (s.peer i).effDue = true → s.portsFor i opACK ≠ [] →
      ∃ u f, exec (.ackTimer i) s = .next u ∧ u.outs.frames = s.outs.frames ++ [f] ∧ (u.peer i).ackDue = 0 ∧ (u.peer i).effDue = false ∧
        u.regs = s.regs ∧ u.mem = s.mem) ∧
    (∀ m u, s.control i opOPEN 0 m u → ∀ v, u.revive i = (v, true) → ∃ t, exec (.vrxOpen i) s = .next t ∧ (t.peer i).conn = 2 ∧
      ((List.range 8).any s.portLive = true → s.outs.frames.length < t.outs.frames.length)) ∧
    (∀ m u, s.control i opOPEN 1 m u → (s.peer i).conn = 1 → ∀ v, u.revive i = (v, true) → ∃ t, exec (.openAck i) s = .next t ∧
      (t.peer i).conn = 2 ∧ (t.peer i).rxBase = (s.peer i).rxBase ∧ (t.peer i).rxGot = (s.peer i).rxGot) ∧
    (∀ psn, ((s.peer i).conn ≠ 1 → exec (.retransmitTimeout i psn) s = .next (s.retransmit i psn)) ∧
      ((s.peer i).conn = 1 → (s.peer i).opens ≤ s.fget F.VRX_CFG2_RETRY 0 →
        ∃ u, exec (.retransmitTimeout i psn) s = .next u ∧ (u.peer i).opens = (s.peer i).opens + 1 ∧
          (s.portsFor i opOPEN ≠ [] → u.outs.frames.length = s.outs.frames.length + 1)) ∧
      ((s.peer i).conn = 1 → s.fget F.VRX_CFG2_RETRY 0 < (s.peer i).opens → exec (.retransmitTimeout i psn) s = .next (s.connFail i))) ∧
    (∀ s1, s.peerState i = (s1, psUNREACH) → ∃ u, exec (.peerReopen i) s = .next u ∧ (u.peer i).conn = 1 ∧ (u.peer i).opens = 1) ∧
    (s.portsFor i opWRITE = [] → ∃ u, exec (.noKeyTimeout i) s = .next u ∧ ∀ m, m ∈ (u.peer i).tx → m.started = true ∨ opUnkeyed m.op = true) ∧
    (∀ s1, s.peerState i = (s1, psREMOVING) → (s.peer i).tx = [] → s.fw.asked = [] →
      ∃ u, exec (.peerRemoveDone i) s = .next u ∧ u.peer i = Peer.empty) ∧
    (exec (.creditGrantExpiry i true) s = .next (s.setPeer i { s.peer i with grants := (s.peer i).grants.drop 1 })) ∧
    (exec (.creditGrantExpiry i false) s = .next (s.setPeer i { s.peer i with rxGrants := (s.peer i).rxGrants.drop 1 }).grantPump)

/-- R220, R221, R224, R229, R232, R236: the effects of messages that arrive, from a peer or from the module itself. -/
def Obligations.MessageResults : Prop :=
  ∀ (i msn : Nat) (m : RxMsg) (s : State),
    let ended (x : State) : State := if i = s.self then x.endAcked i else x
    (s.gateOpen →
      let fin (x : State) : Out := .next { ended x with gate := s.gate }
      let r (c : Instr) : State := (s.running c).took i m
      (s.arrives i msn (isOp opWRITE) m → s.winOk m.arg0 m.data.length 1 = true →
        ∀ s1, (r (.vrxWrite i msn)).daWrite m.arg0 m.data = (s1, none) →
        (m.arg1 = 0 → exec (.vrxWrite i msn) s = fin s1) ∧
        (m.arg1 ≠ 0 → s.winOk m.arg1 8 1 = true → ∀ s2 bs, s1.fabRead m.arg1 8 = (s2, bs, none) →
          exec (.vrxWrite i msn) s = fin (s2.daWrite m.arg1 (leBytes 8 (leNat bs + 1))).1)) ∧
      (s.arrives i msn (isOp opREAD_REQ) m → s.winOk m.arg0 m.len 0 = true →
        ∀ s1 bs, (r (.readReq i msn)).fabRead m.arg0 m.len = (s1, bs, none) →
        exec (.readReq i msn) s = fin (s1.post i opREAD_RSP false m.tag m.arg1 vsOK m.len bs false .plain)) ∧
      (s.arrives i msn (isOp opFETCH_ADD) m → s.winOk m.arg0 8 2 = true → m.arg0 % 8 = 0 →
        ∀ s1 bs, (r (.fetchAdd i msn)).fabRead m.arg0 8 = (s1, bs, none) →
        exec (.fetchAdd i msn) s = fin (((s1.daWrite m.arg0 (leBytes 8 (leNat bs + m.arg1))).1).post i opFETCH_RSP false m.tag (leNat bs)
          vsOK 0 [] false .plain)) ∧
      (s.arrives i msn (isOp opREAD_RSP) m → m.arg1 = vsOK → daOk m.arg0 m.data.length = true →
        ∀ s1, (r (.readRsp i msn)).daWrite m.arg0 m.data = (s1, none) →
        ∀ t, s1.answered i m.tag [opREAD_REQ] = some t → exec (.readRsp i msn) s = fin ((s1.msgEnd i t vsOK 0).endAcked i)) ∧
      (s.arrives i msn (isOp opREAD_RSP) m → m.arg1 ≠ vsOK → ∀ t, (r (.readRsp i msn)).answered i m.tag [opREAD_REQ, opWRITE] = some t →
        exec (.readRsp i msn) s = fin (((r (.readRsp i msn)).msgEnd i t m.arg1 0).endAcked i)) ∧
      (s.arrives i msn (isOp opFETCH_RSP) m → ∀ t, (r (.fetchRsp i msn)).answered i m.tag [opFETCH_ADD] = some t →
        exec (.fetchRsp i msn) s = fin (((r (.fetchRsp i msn)).msgEnd i t m.arg1 m.arg0).endAcked i)) ∧
      (s.arrives i msn (isOp opCREDIT) m →
        (let q := r (.creditMsg i msn false)
         exec (.creditMsg i msn false) s = fin (({ q with fab := { q.fab with asks := q.fab.asks ++ [(i, m.arg0 % 2 ^ 16)] } } : State).grantPump)) ∧
        ∃ u, exec (.creditMsg i msn true) s = .next u ∧
          (m.tag = 1 → (u.peer i).grants = (s.peer i).grants ++ [m.arg0 % 2 ^ 16] ∧ (u.peer i).asked = false) ∧
          (m.tag ≠ 1 → (u.peer i).grants = (s.peer i).grants ∧ (u.peer i).stUsed = (s.peer i).stUsed - m.arg0 % 2 ^ 16)) ∧
      (s.arrives i msn (isOp opGEN) m → exec (.genMsg i msn) s = fin ((r (.genMsg i msn)).exhApply (m.arg0 % 2 ^ 16) m.data).1) ∧
      (s.arrives i msn (isOp opMARK) m → ∀ s1 b, (r (.genMark i msn)).exhRead (m.arg0 % 2 ^ 16) = (s1, b) →
        exec (.genMark i msn) s = fin (
          if xDraining b ∧ (m.arg0 / 2 ^ 16 % 2 ^ 16 = leAt b 18 2 ∨ newer (m.arg0 / 2 ^ 16 % 2 ^ 16) (leAt b 18 2) = true) then
            s1.drainCount (m.arg0 % 2 ^ 16) i else s1))) ∧
    (s.arrives i msn (isOp opTIME) m → leAt m.data 4 1 = s.fget F.TSY_CFG_DOMAIN 0 → ∃ u, exec (.vrxTime i msn) s = .next u ∧
      (m.arg0 % 16 = 0 → s.flag F.TSY_CFG_GM 0 = false →
        u.fab.gm = some i ∧ u.fab.t1 = (ptpTime m.data + ptpCorr m.data).toNat ∧ u.fab.t2 = m.at_ ∧ u.fab.syncCorr = ptpCorr m.data) ∧
      (m.arg0 % 16 = 8 → s.flag F.TSY_CFG_GM 0 = false → s.fab.gm = some i →
        u.fab.t1 = (ptpTime m.data + ptpCorr m.data + s.fab.syncCorr).toNat ∧ u.fab.t2 = s.fab.t2) ∧
      (m.arg0 % 16 = 1 → s.flag F.TSY_CFG_GM 0 = true →
        u = ended ((s.took i m).post i opTIME false 0 9 0 44 (s.ptpMsg 9 m.at_ ((m.data.drop 8).take 8)) false .plain)) ∧
      (m.arg0 % 16 = 9 → s.flag F.TSY_CFG_GM 0 = false → s.fab.gm = some i →
        let off : Int := (((s.fab.t2 : Int) - s.fab.t1) - ((ptpTime m.data - ptpCorr m.data) - s.fab.t3)) / 2
        let l := (off :: s.fab.offsets).take 16
        u.fget F.TSY_OFFSET_OFFSET 0 = wrap 32 off ∧ u.fab.offsets = l ∧
        (u.flag F.TSY_STAT_LOCKED 0 = true ↔ l.length = 16 ∧ ∀ o, o ∈ l → -20 ≤ o ∧ o ≤ 20) ∧
        (if s.fget F.BOOT_STAT_STAGE 0 < 9 ∧ off < 0 then u.clk.ns = s.clk.ns + off.natAbs ∧ u.fab.owed = 0
          else u.clk.ns = s.clk.ns ∧ u.fab.owed = -off))) ∧
    (s.flag F.TSY_CFG_GM 0 = false → ∀ g, s.fab.gm = some g →
      exec .syncInterval s = .next (s.post g opTIME false 0 1 0 44 (s.ptpMsg 1 0 []) false .plain)) ∧
    (s.flag F.TSY_CFG_GM 0 = true → exec .syncInterval s =
      .next (s.validPeers.foldl (fun a g => a.post g opTIME false 0 0 0 44 (s.ptpMsg 0 0 []) false .plain) s))

/-- R224, R226, R231, R320: a token record is accepted into a pool slot and written to its expert's ring, or refused with a TOK_NACK; a refused
record is sent again until its third refusal; consumed slots go back and count as released. -/
def Obligations.TokenResults : Prop :=
  ∀ (i msn : Nat) (m : RxMsg) (s : State), s.gateOpen →
    let ended (x : State) : State := if i = s.self then x.endAcked i else x
    let e := m.arg0 % 2 ^ 16
    (∀ slot, s.arrives i msn (isOp opTOK) m → SMap.find s.fab.slots slot = none → slot < s.fget F.VRX_RXPOOL_SLOTS 0 →
      ∀ s1 b, ((s.running (.tokDispatch i msn slot)).took i m).exhRead e = (s1, b) → ∃ u, exec (.tokDispatch i msn slot) s = .next u ∧
        (xHosted b = true → ∃ x, SMap.find u.fab.slots slot = some x ∧ x.peer = i ∧ x.standing = m.standing ∧ x.expert = e ∧
          x.origin = leAt m.data 4 2 % 2 ^ 14 ∧ x.rank = leAt m.data 6 1 ∧ x.handle = leAt m.data 32 4 ∧ x.gen = leAt m.data 2 2 ∧
          (x.idx = none → slot ∈ u.fab.waiting)) ∧
        (xHosted b = false → u.fab.slots = s.fab.slots ∧ (∀ s2, (s1.holdFor i m).peerState i = (s2, psVALID) →
          ∃ t, t ∈ (u.peer i).tx ∧ t.op = opNACK ∧ t.tag = m.tag ∧ t.data = b.take 16))) ∧
    (s.arrives i msn (isOp opNACK) m → ∀ a, a = (((s.running (.tokNack i msn)).took i m).exhApply e m.data).1 →
      ∀ t tile x, (a.peer i).tx.find? (fun t => t.tag == m.tag && t.op == opTOK && t.arg0 % 2 ^ 16 == e) = some t → t.owner = .ring tile x →
      ∃ u, exec (.tokNack i msn) s = .next u ∧ (∀ y, y ∈ (u.peer i).tx → y.msn ≠ t.msn) ∧
        (x.tries < 2 → (SMap.get u.fab.sends tile []).head? = some { x with tries := x.tries + 1 }) ∧
        (2 ≤ x.tries → u = { ended ((a.msgEnd i t vsNO_HOME 0).endAcked i) with gate := s.gate })) ∧
    (∀ (ex : Fin 65536) n x, s.fab.waiting.find? (fun k => ((SMap.find s.fab.slots k).map (·.expert)) == some ex.val) = some n →
      SMap.find s.fab.slots n = some x → s.exhLost ex = false → ∀ s1 b, (s.running (.tokenRecordWrite ex)).exhRead ex = (s1, b) →
      ∀ s2 pw, s1.daRead (xRing b) 16 4 = (s2, pw, none) →
      let prod := leAt pw 0 4
      dist32 prod (leAt pw 8 4) < 2 ^ xLog2 b → ∃ u, exec (.tokenRecordWrite ex) s = .next u ∧
        SMap.find u.fab.slots n = some { x with idx := some prod } ∧ n ∉ u.fab.waiting ∧
        { u with fab := s2.fab } = { (((s2.daWrite (xRing b + 64 + 32 * (prod % 2 ^ xLog2 b))
          (leBytes 8 (s2.slotDaVrx n) ++ leBytes 2 x.origin ++ leBytes 1 x.rank ++ zeros 1 ++ leBytes 4 x.handle ++ leBytes 2 x.gen ++ zeros 2
            ++ leBytes 4 x.octx ++ zeros 8)).1).daWrite (xRing b) (leBytes 8 ((prod + 1) % 2 ^ 32))).1 with fab := s2.fab, gate := s.gate }) ∧
    (∀ (ex : Fin 65536) s1 b, s.exhLost ex = false → (s.running (.slotReturn ex)).exhRead ex = (s1, b) →
      ∀ s2 cw, s1.daRead (xRing b + 8) 8 4 = (s2, cw, none) →
      SMap.sortedFrom none s.fab.slots = true → ∃ u, exec (.slotReturn ex) s = .next u ∧
        ∀ n x, SMap.find s.fab.slots n = some x →
          if x.expert = ex ∧ ∃ k, x.idx = some k ∧ 1 ≤ dist32 (leAt cw 0 4) k ∧ dist32 (leAt cw 0 4) k < 2 ^ 31 then
            SMap.find u.fab.slots n = none ∧ ∃ y, y ∈ u.enr.rel ∧ y.1 = x.origin ∧ y.2.1 = x.octx
          else SMap.find u.fab.slots n = some x)

/-- R9, R222, R223, R225, R229, R230, R232: send rings and EXPERT_MAP. That a descriptor with a local DA beyond the map completes BAD_DESC is
log entry 87. -/
def Obligations.SendResults : Prop :=
  ∀ (s : State), s.gateOpen →
    (∀ (t : Fin 128), s.flag F.FXR_CFG_EN t = true → s.flag F.VRX_CTL_RUN 0 = true → s.pathShut t = false →
      ∀ s1 w, (s.running (.fxrRingPoll t)).daRead (s.fxrBase t) 8 4 = (s1, w, none) →
      exec (.fxrRingPoll t) s = .next { s1.ringTake 64 t (leAt w 0 4) with gate := s.gate }) ∧
    (∀ (t : Fin 128) (k : Nat) (x : Send), s.pathShut t = false → (SMap.get s.fab.sends t [])[k]? = some x →
      let r := s.running (.sendMessage t k)
      ((SMap.get s.fab.sends t []).take k).all r.waitsCredit = true → (k = 0 ∨ bitOf x.flags 0 = false) →
      let fin (a : State) : Out := .next { a with gate := s.gate }
      let take (a : State) : State := { a with fab := { a.fab with sends := SMap.put a.fab.sends t ((SMap.get a.fab.sends t []).eraseIdx k) } }
      let fence := bitOf x.flags 0
      (x.bad = true → exec (.sendMessage t k) s = fin ((take r).statusWord x vsBAD_DESC 0)) ∧
      (x.bad = false → x.op = opWRITE → ∀ s1 bs, r.fabRead x.src x.len = (s1, bs, none) →
        exec (.sendMessage t k) s = fin ((take s1).post x.dest opWRITE fence x.tag x.arg0
          (if bitOf x.flags 2 then x.arg1 else 0) x.len bs false (.ring t x))) ∧
      (x.bad = false → x.op = opREAD_REQ ∨ x.op = opFETCH_ADD →
        exec (.sendMessage t k) s = fin ((take r).post x.dest x.op fence x.tag x.arg0 x.arg1 x.len [] true (.ring t x))) ∧
      (x.bad = false → x.op = opTOK → x.len ≤ 2 ^ (13 + s.fget F.VRX_RXPOOL_SLOT_LOG2 0) →
        (∀ s1 bs lost, r.tokRoute x = (s1, none, bs, lost) → exec (.sendMessage t k) s = fin ((take s1).statusWord x vsNO_HOME 0)) ∧
        (∀ s1 home gen bs, r.tokRoute x = (s1, some (home, gen), bs, false) → ∀ s2 st, s1.peerState home = (s2, st) →
          (st = psUNREACH → exec (.sendMessage t k) s = fin ((take s2).statusWord x vsUNREACH 0)) ∧
          (st = psVALID → s1.creditAt home = 0 → (s1.peer home).asked = false → exec (.sendMessage t k) s =
            fin ((s1.setPeer home { s1.peer home with asked := true }).post home opCREDIT false 1
              ((SMap.get s.fab.sends t []).filter r.tokFits).length 0 0 [] false .plain)) ∧
          (st = psVALID → 0 < s1.creditAt home →
            ∀ s3, s3 = (if 0 < x.tries then ((take s1).useCredit home).vrxTdc (.ring t x) else (take s1).useCredit home) →
            exec (.sendMessage t k) s = fin (s3.post home opTOK fence x.tag
              (x.arg0 % 2 ^ 16 + 2 ^ 16 * gen) 0 x.len bs false (.ring t x)))))) ∧
    (∀ qp idx d, s.starts qp idx 0x20 d →
      let s1 := (s.running (.expertMap qp idx)).markStarted qp d
      let fl := d.u 18 1
      let g := (d.bytes.drop 20).take 16
      let l := (d.bytes.drop 36).take 16
      fl < 16 → s1.headVerdict qp (s.going d) (bodyZero (s.going d) [(16, 3), (20, 32)]) false = none →
      (leAt g 3 1 < 4 ∧ zeroAt g 12 4 = true ∧ (∀ i, i < 4 → leAt g (4 + 2 * i) 2 < 2 ^ 14) ∧ leAt l 0 1 < 4) →
      (bitOf fl 2 = true → leAt g 2 1 ≤ 1 ∧ ∀ i, i < 4 → leAt g 3 1 < i → leAt g (4 + 2 * i) 2 = 0) →
      (bitOf fl 3 = true → bitOf (leAt l 0 1) 0 = true → 4 ≤ leAt l 1 1 ∧ leAt l 1 1 ≤ 16 ∧
        s1.daVerdict ((s.qpFunc qp).getD 0) (leAt l 8 8) (64 + 32 * 2 ^ leAt l 1 1) = none) →
      s.exhLost (d.u 16 2) = false → ∀ s2 old, s1.daRead (s1.exhDa (d.u 16 2)) 32 4 = (s2, old, none) →
      ∃ u, exec (.expertMap qp idx) s = .next u ∧
        (bitOf fl 2 = true → newer (xGen g) (xGen old) = false → s.completed u qp d stSTALE_GEN 0 (leBytes 2 (xGen old))) ∧
        (bitOf fl 2 = false → s.completed u qp d stOK 0 (leBytes 2 (xGen old))) ∧
        (bitOf fl 2 = true → newer (xGen g) (xGen old) = true → bitOf fl 0 = false → s.completed u qp d stOK 0 (leBytes 2 (xGen g))) ∧
        (bitOf fl 2 = true → newer (xGen g) (xGen old) = true → bitOf fl 0 = true →
          (∃ w, w ∈ u.fab.maps ∧ w.qp = qp ∧ w.idx = idx) ∨ ∃ res, s.completed u qp d stOK 0 res))

/-- R234, R356: the five messages of the handshake; a HELLO after a finished handshake begins a new one (log entry 22). -/
def Obligations.HandshakeResults : Prop :=
  ∀ (i msn : Nat) (m : RxMsg) (s : State),
    let r := s.took i m
    let fin (x : State) : Out := .next (if i = s.self then x.endAcked i else x)
    (s.arrives i msn (isKeyx 1) m → ∀ s1, s1 = r.setPeer i (if (r.linkKey i).isSome then
        { r.peer i with pnonce := m.data, nonce := [], quote := none, ssOwn := [], ssPeer := [], holds := [] }
        else { r.peer i with pnonce := m.data }) →
      ∀ s2, s2 = (if (s1.peer i).nonce = [] then s1.sendHello i else s1) →
      ∀ q, s2.quote m.data = some q → exec (.keyxHello i msn) s = fin (s2.post i opKEYX false 0 2 0 q.length q false .plain)) ∧
    (s.arrives i msn (isKeyx 2) m →
      let c := Config.mlkemEncap ((m.data.drop 4160).take 1184) (r.free 256).1
      let s1 := (r.free 256).2
      ∃ u, exec (.keyxQuote i msn) s = .next u ∧
        (r.quoteAccepted m.data (s.peer i).nonce = true → .next u = fin (((s1.setPeer i { s1.peer i with quote := some m.data, ssOwn := c.1 }).post i
          opKEYX false 0 3 0 c.2.length c.2 false .plain).sendKeys i)) ∧
        (r.quoteAccepted m.data (s.peer i).nonce = false → u.flag F.SEC_STAT_PEER_REJ 0 = true ∧ (i ≠ s.self → u.fab = r.fab))) ∧
    (s.arrives i msn (isKeyx 3) m → ∀ sk, r.skemSeed = some sk →
      exec (.keyxEncap i msn) s = fin ((r.setPeer i { r.peer i with ssPeer := Config.mlkemDecap sk m.data }).sendKeys i)) ∧
    (s.arrives i msn (isKeyx 4) m → ∀ lk pt, r.linkKey i = some lk → gcmUnseal lk (m.data.take 12) (m.data.drop 12) [] = some pt →
      let p := leAt pt 0 1
      let k := leAt pt 1 1
      exec (.keyxKey i msn) s = fin ((r.setPeer i { r.peer i with
        keys := (p, k, (pt.drop 2).take 32) :: (r.peer i).keys.filter (fun y => !(y.1 == p && y.2.1 == k)) }).post i opKEYX false 0 5 0 2
          (leBytes 1 p ++ leBytes 1 k) false .plain)) ∧
    (s.arrives i msn (isKeyx 5) m →
      let p := leAt m.data 0 1 % 8
      let k := leAt m.data 1 1 % 2
      ∃ u, exec (.keyxKeyAck i msn) s = .next u ∧ (p, k) ∈ (u.peer i).holds ∧
        ((r.port p).newKey = some k → (r.port p).waitKey = [i] → u.keyIdx p = k ∧ (u.port p).newKey = none ∧
          (r.portLive p = true → u.flag F.FAB_STATE_KEYED p = true)))

/-! ### Command queues, fences and COPY -/

/-- R239, R242 to R249, R259 to R261: polling, fetching, the interrupt of mode 2, and the states and ranges of queue pairs. -/
def Obligations.QueuePairResults : Prop :=
  ∀ (f : Fin 257) (q : Nat) (w : Word) (s : State),
    let toError (u : State) (code : Nat) : Prop := u.qpState q = qpERROR ∧ u.fget F.CMD_QP_STATE_ERR q = code
    (s.mayPoll = true → s.cmd.lastPoll + s.pollNs ≤ s.clk.ns → ∃ u, exec .cmdPollTick s = .next u ∧ { u with cmd := s.cmd } = s ∧
      { s.cmd with polls := u.cmd.polls, lastPoll := s.clk.ns } = u.cmd ∧
      (∀ r, r ∈ s.cmd.polls → r ∈ u.cmd.polls) ∧ ∀ g, g ∈ s.pollFuncs → g ∉ s.pcie.d3 → .summary g ∈ u.cmd.polls) ∧
    (s.cmd.lastFetch + 1000 * s.fget F.CMD_POLL_IDLE_AFTER 0 ≤ s.clk.ns →
      exec .idleInterval s = .next { s with cmd := { s.cmd with idle := true } }) ∧
    (∀ st, s.memOpen f st = true → s.hostHeld = false → ∃ u, exec (.nudge ⟨f, st⟩) s = .next u ∧ u.cmd.idle = false ∧
      u.flag F.LUL_STATE_SENTRY 0 = false ∧
      (s.hostOpen = true → s.flag F.BOOT_STAT_READY 0 = true → f.val ∈ s.pollFuncs → .summary f ∈ u.cmd.polls)) ∧
    (s.pollOut (.summary f) = true → ∀ a, a = (s.pollSpan (.summary f)).1 →
      ∀ sum, (∃ u, exec (.summaryReadDone f ⟨a, true⟩ sum) s = .next u ∧ .summary f.val ∉ u.cmd.polls ∧
        ∀ p, p ∈ s.activeQps → s.qpFunc p = some f.val → (bitOf sum (p - s.fget F.CMD_FQ_QBASE f) = true ∨ s.cqRoom p ≤ 1) →
          .doorbell p ∈ u.cmd.polls) ∧
      exec (.summaryReadDone f ⟨a, false⟩ sum) s = .next ((s.pollDone (.summary f)).event F.CMD_STAT_HOST_ERR f)) ∧
    (s.pollOut (.doorbell q) = true → s.qpState q = qpACTIVE → ∀ a, a = (s.pollSpan (.doorbell q)).1 → ∀ prod cons : Word,
      (∃ u, exec (.doorbellReadDone q ⟨a, true⟩ prod cons) s = .next u ∧ (u.qp q).sqProd = prod.toNat ∧ (u.qp q).cqCons = cons.toNat ∧
        .doorbell q ∉ u.cmd.polls ∧
        if 2 ^ s.fget F.CMD_QP_CFG_SQ_LOG2 q < (prod.toNat + 2 ^ 32 - (s.qp q).sqCons) % 2 ^ 32 then toError u 1 else u.qpState q = qpACTIVE) ∧
      ∃ u, exec (.doorbellReadDone q ⟨a, false⟩ prod cons) s = .next u ∧ toError u 3 ∧ .doorbell q ∉ u.cmd.polls) ∧
    (∀ bytes, s.mayPoll = true → s.fetchTurn = some q → ∀ a, a = s.sqSlot q (s.qp q).sqCons →
      let n := bytes.length / 128
      let old := (s.qp q).ring
      (1 ≤ n → n ≤ 8 → n ≤ s.waiting q → s.fetched + n ≤ 4096 → ∃ u, exec (.descriptorFetchDone q ⟨a, true⟩ bytes) s = .next u ∧
        u.cmd.idle = false ∧ u.cmd.lastFetch = s.clk.ns ∧ (u.qp q).sqCons = ((s.qp q).sqCons + n) % 2 ^ 32 ∧ (u.qp q).ring.take old.length = old ∧
        (u.qp q).ring.length = old.length + n ∧
        (∀ k, k < n → ∃ d, (u.qp q).ring[old.length + k]? = some d ∧ d.bytes = padTo 128 ((bytes.drop (128 * k)).take 128) ∧
          d.idx % 2 ^ 32 = ((s.qp q).sqCons + k) % 2 ^ 32 ∧ d.started = false) ∧
        (s.hostFails (s.get64 .CMD_QP_DB_LO .CMD_QP_DB_HI q + 8) 4 = false → ∀ i, i < 4 → SMap.find u.host (s.get64 .CMD_QP_DB_LO .CMD_QP_DB_HI q + 8 + i) = (leBytes 4 (u.qp q).sqCons)[i]?)) ∧
      (s.fetched < 4096 → ∃ u, exec (.descriptorFetchDone q ⟨a, false⟩ bytes) s = .next u ∧ toError u 2)) ∧
    (s.fget F.CMD_QP_CFG_IRQ q = 2 → 0 < (s.qp q).coal → (s.qp q).coalAt + 1000 * s.fget F.CMD_QP_COAL_TIME q ≤ s.clk.ns → exec (.coalesceTimeout q) s =
      .next ((s.setQp q { s.qp q with coal := 0 }).msi ((s.qpFunc q).getD 0) (s.fget F.CMD_QP_CFG_VEC q))) ∧
    (s.funcLive f = true → 2 ≤ s.fget F.BOOT_STAT_STAGE 0 → q = s.selQp f →
      (s.fget F.CMD_FQ_QCNT f ≤ s.fget F.CMD_QPSEL_QP f → exec (.qpEnable f w) s = .next (s.event F.CMD_STAT_CFG_ERR f)) ∧
      (s.fget F.CMD_QPSEL_QP f < s.fget F.CMD_FQ_QCNT f → s.qpState q = qpDISABLED → ∀ s1, s1 = s.rput .CMD_QP_CFG q (cfgWord w.toNat 0) →
        (s1.enableRefused f q = true → exec (.qpEnable f w) s = .next (s1.event F.CMD_STAT_CFG_ERR f)) ∧
        (s1.enableRefused f q = false → ∃ u, exec (.qpEnable f w) s = .next u ∧ u.qpState q = qpACTIVE ∧
          u.qp q = { Qp.empty with ring := (s.qp q).ring, gen := (s.qp q).gen + 1 } ∧
          u.rget .CMD_QP_CFG q = cfgWord w.toNat 1)) ∧
      (s.fget F.CMD_QPSEL_QP f < s.fget F.CMD_FQ_QCNT f →
        (s.qpState q = qpDISABLED → exec (.qpDisable f w) s = .next (s.rput .CMD_QP_CFG q (cfgWord w.toNat 0))) ∧
        (s.qpState q = qpACTIVE ∨ s.qpState q = qpERROR → ∃ u, exec (.qpDisable f w) s = .next u ∧ u.flag F.CMD_QP_CFG_EN q = false ∧
          u.qpState q ≠ qpACTIVE ∧
          (((s.qp q).ring.map (·.idx)).Nodup → s.pcie.hostBad = [] → ((s.qp q).live.filter (fun d => !d.started)).length < s.cqRoom q →
            (u.qp q).ring = (s.qp q).ring.filter (fun d => d.started || d.idx / 2 ^ 32 != (s.qp q).gen) ∧
            u.qpState q = if (s.qp q).live.any (·.started) then qpDRAINING else qpDISABLED)))) ∧
    (let v := w.toNat % 2 ^ 29
     let b := v % 2 ^ 14
     let n := v / 2 ^ 14
     v ≠ (s.rget .CMD_FQ f).toNat → s.rangeIdle (s.fget F.CMD_FQ_QBASE f) (s.fget F.CMD_FQ_QCNT f) = true → s.rangeIdle b n = true →
      b + n ≤ 16384 → (∀ g, g < 257 → g ≠ f.val → n = 0 ∨ s.fget F.CMD_FQ_QCNT g = 0 ∨ b + n ≤ s.fget F.CMD_FQ_QBASE g ∨ s.fget F.CMD_FQ_QBASE g + s.fget F.CMD_FQ_QCNT g ≤ b) →
      exec (.cmdFqWrite f w) s = .next (s.rput .CMD_FQ f (BitVec.ofNat 32 v)))

/-- R254: a FENCE of a good body starts, waits while something that it awaits is not complete, and completes; a watched word is read every µs
until it reaches the value, or the time is over. -/
def Obligations.FenceCommandResults : Prop :=
  ∀ (qp idx : Nat) (d : Descr) (s : State),
    let done (u : State) (e : Descr) (st : Nat) (res : List Byte) : Prop := s.completed u qp e st 0 res
    let earlier := (s.qp qp).live.takeWhile (·.idx ≠ idx)
    (s.starts qp idx 0x30 d → (s.markStarted qp d).fenceVerdict qp (s.going d) = none →
      (d.scope = 0 → ∃ u, exec (.fenceQueue qp idx) s = .next u ∧ (if earlier = [] then done u d stOK [] else u.descr qp idx = some (s.going d))) ∧
      (d.scope = 1 → ∃ u, exec (.fenceFunction qp idx) s = .next u ∧
        (if s.fenceAwaits qp d = [] then done u d stOK [] else u.descr qp idx = some { s.going d with await := s.fenceAwaits qp d })) ∧
      (d.scope = 2 → ∃ u, exec (.fenceValue qp idx) s = .next u ∧ u.descr qp idx = some (s.going d))) ∧
    (s.descr qp idx = some d → d.type = 0x30 → d.started = true →
      (d.scope = 0 → ∃ u, exec (.fenceQueue qp idx) s = .next u ∧ (if earlier = [] then done u d stOK [] else u = s)) ∧
      (d.scope = 1 → ∃ u, exec (.fenceFunction qp idx) s = .next u ∧
        let l := d.await.filter (fun w => (s.descr w.1 w.2).isSome)
        (if l = [] then done u d stOK [] else u.descr qp idx = some { d with await := l })) ∧
      (d.scope = 2 → d.u 17 1 = 0 → s.gateOpen → ∀ s1 bs, (s.running (.fenceValuePoll qp idx)).daRead (d.u 24 8) 8 3 = (s1, bs, none) →
        ∃ u, exec (.fenceValuePoll qp idx) s = .next u ∧
          (if d.u 32 8 ≤ leNat bs then done u d stOK (leBytes 8 (leNat bs)) else u.descr qp idx = some { d with last := leNat bs, prog := 0 })) ∧
      (d.scope = 2 → d.u 17 1 = 1 → s.gateOpen → s.mayRead = true →
        ∃ u, exec (.fenceValuePoll qp idx) s = .next u ∧ u.descr qp idx = some { d with prog := 1 }) ∧
      (d.scope = 2 → d.u 40 4 ≠ 0 → d.since + 1000 * d.u 40 4 ≤ s.clk.ns → ∃ u, exec (.fenceValueTimeout qp idx) s = .next u ∧ done u d stFENCE_TMO (leBytes 8 d.last)))

/-- R240, R253, R354: a COPY that passes its checks and whose ends are open moves its rows in order and completes with the number of bytes
written; one that reads host memory asks for it and waits. -/
def Obligations.CopyResults : Prop :=
  ∀ (qp idx : Nat) (portA : List Nat) (d : Descr) (s : State),
    let c := d.copy
    let s0 := s.running (.copyRows qp idx portA)
    s.gateOpen → s.starts qp idx 2 d → s0.copyVerdict qp d = none →
    (c.ss = 1 ∨ c.ds = 1 → s.hostOpen = true ∧ s.hostAbsorbed = false) → s0.copyGrant c = .ok →
    (c.ss = 1 → s.mayRead = true →
      ∃ u, exec (.copyRows qp idx portA) s = .next u ∧ u.descr qp idx = some { s.going d with prog := 1 } ∧ { u with cmd := s.cmd } = s) ∧
    (c.ss ≠ 1 → s.conf = true → c.ss = 0 → c.ds = 1 →
      exec (.copyRows qp idx portA) s = .next { (s0.markStarted qp d).copySeal qp (s.going d) with gate := s.gate }) ∧
    (c.ss ≠ 1 → ¬(s.conf = true ∧ c.ss = 0 ∧ c.ds = 1) →
      let r := State.copyGo c.rows (s0.markStarted qp d) c 0 0 portA
      ∃ u, exec (.copyRows qp idx portA) s = .next u ∧ u.mem = r.1.mem ∧ u.spm = r.1.spm ∧
        s.completed u qp d ((r.2.2.map (·.1)).getD stOK) 0 (copyResult r.2.1 (r.2.2.map (·.2))))

/-! ### Partial resets, the module reset, the board -/

/-- R24, R381 to R386: a reset request is accepted, takes over nothing, is refused or orders a module reset; the phases of a partial reset
follow each other, and its end is counted. A module reset that is due returns every register outside the retained domain, and every block,
to reset; device memory, the Eddy log and the retained registers stay. -/
def Obligations.ResetResults : Prop :=
  (∀ (s : State),
    (∀ w : Word,
      let scope := min 4 (bits w.toNat 2 0)
      let target := scopeTarget scope (bits w.toNat 14 8)
      let absorb := bitOf w.toNat 16
      ∃ u, exec (.resetRequest w) s = .next u ∧
        (scope = 4 → u.rst.modDue = true) ∧
        (scope < 4 → s.flag F.BOOT_STAT_READY 0 = false → u.flag F.RST_STAT_REFUSED 0 = true ∧ u.rst = s.rst ∧ u.phase = s.phase) ∧
        (scope < 4 → s.flag F.BOOT_STAT_READY 0 = true → s.phase = phIDLE →
          u.rstScope = scope ∧ u.rstTarget = target ∧ u.rst.absorb = absorb ∧ u.rst.reqAt = s.clk.ns ∧
          u.phase = (if absorb then phEMPTY else phWORK) ∧ (absorb = true → ∀ t, t ∈ scopeTiles scope target → (u.eng t).inReset = true) ∧
          (scope = rsPATH → ∀ p, p = 2 * target ∨ p = 2 * target + 1 → u.portLive p = false)) ∧
        (scope < 4 → s.flag F.BOOT_STAT_READY 0 = true → s.phase ≠ phIDLE → scopeHolds scope target s.rstScope s.rstTarget = false →
          scopeHolds s.rstScope s.rstTarget scope target = false → u.flag F.RST_STAT_BUSY 0 = true ∧ u.rst = s.rst ∧ u.phase = s.phase)) ∧
    (s.phase = phWORK → s.rst.absorb = false → s.rstIdle = true → ∃ u, exec .resetWorkDone s = .next u ∧ u.phase = phEMPTY ∧
      u.rst = { s.rst with emptyAt := s.clk.ns } ∧ ∀ t, t ∈ s.rstTiles → u.eng t = { s.eng t with inReset := true }) ∧
    (s.phase = phWORK → s.rst.absorb = false → s.rst.workAt + 1000000 * max 1 (s.fget F.RST_DL1_WORK_MS 0) ≤ s.clk.ns →
      ∃ u, exec .resetWorkTimeout s = .next u ∧ u.phase = phEMPTY ∧ u.rst = { s.rst with emptyAt := s.clk.ns, forced := true } ∧
        u.flag F.RST_STAT_FORCED 0 = true ∧ ∀ t, t ∈ s.rstTiles → (u.eng t).inReset = true) ∧
    (s.phase = phEMPTY → s.crossing = false →
      ∃ u, exec .resetBoundaryEmpty s = .next u ∧ u.phase = phRESET ∧ u.spm = s.spm ∧ u.mem = s.mem ∧
        (s.rstScope ≠ rsPATH → ∀ t, t ∈ s.rstTiles → (u.eng t).disp = none ∧ (u.eng t).pc = 0 ∧ (u.eng t).inReset = true ∧
          ∀ n, (u.eng t).s n = 0)) ∧
    (s.phase = phEMPTY → s.rst.emptyAt + 1000 * s.rstDeadline ≤ s.clk.ns →
      ∃ u, exec .resetDeadline s = .next u ∧ u.rst.modDue = true ∧ u.flag F.RST_STAT_FALLBACK 0 = true) ∧
    (s.phase = phRESET → ∃ u, exec .resetScopeReady s = .next u ∧ u.flag F.RST_STAT_DONE 0 = true ∧
      u.rget .RST_LAST 0 = BitVec.ofNat 32 ((s.clk.ns - s.rst.reqAt) / 1000) ∧
      (s.rstScope = rsPATH → u.fget F.RST_CNT_PATH 0 = (s.fget F.RST_CNT_PATH 0 + 1) % 2 ^ 16) ∧
      (s.rstScope ≠ rsPATH → u.fget F.RST_CNT_PARTIAL 0 = (s.fget F.RST_CNT_PARTIAL 0 + 1) % 2 ^ 16) ∧
      (s.rst.queue = [] → u.phase = phIDLE ∧ ∀ t, t ∈ s.rstTiles → (u.eng t).inReset = false) ∧
      ∀ q l, s.rst.queue = q :: l → u.rst.queue = l ∧ u.rst.absorb = true ∧ u.rst.src = q.src)) ∧
  (∀ (s : State), s.rst.modDue = true → ∃ u, exec .moduleReset s = .next u ∧
    (∀ r i, regKept r = false → r ∉ [.SEC_CONF, .SEC_LCNONCE_LO, .SEC_LCNONCE_HI] → u.rget r i = BitVec.ofNat 32 (r.rst i)) ∧
    (SMap.sortedFrom none s.regs = true → ∀ r i, regKept r = true → u.rget r i = s.rget r i) ∧
    u.mem = s.mem ∧ u.edy = s.edy ∧ u.spm = [] ∧ u.disps = [] ∧ u.cores = [] ∧ u.cmd = State.reset.cmd ∧ u.kv = Kv.empty ∧ u.fab = Fab.empty ∧
    u.rst = Rst.empty ∧ (s.conf = true → u.sec.zeroFlag = true) ∧ u.enr.batch = s.enr.batch ∧ u.brd.on = s.brd.on ∧ u.pending = s.pending)

/-- R24, R328, R443 to R449: the input and PWR_EN. -/
def Obligations.InputPowerResults : Prop :=
  ∀ (s : State),
    let fresh (u : State) (kept : Reg → Bool) : Prop :=
      ∀ r i, kept r = false → r ∉ [.SEC_CONF, .SEC_LCNONCE_LO, .SEC_LCNONCE_HI] → u.rget r i = BitVec.ofNat 32 (r.rst i)
    let lost (u : State) (cut : Bool) : Prop := fresh u regFused ∧ u.mem = [] ∧ u.brd.on = false ∧ u.brd.input = false ∧ u.brd.cut = cut ∧
      u.brd.pwrEn = s.brd.pwrEn ∧ u.sec.owner = s.sec.owner ∧ u.enr.ceiling = s.enr.ceiling ∧ u.boot.remaps = s.boot.remaps ∧ u.edy = State.reset.edy
    (s.brd.input = false → s.brd.cut = false → ∃ u, exec .inputPowerUp s = .next u ∧ u.brd.input = true ∧ u.enr.batch = s.enr.ceiling ∧
      u.enr.ceiling = s.enr.ceiling + 2 ^ 20 ∧ u.enr.chain = true ∧ (s.brd.pwrEn = true → u.brd.on = true ∧ fresh u regKept) ∧
      (s.brd.pwrEn = false → u.regs = s.regs ∧ u.brd.on = s.brd.on)) ∧
    (s.brd.input = true → ∃ u, exec .inputBelow38v s = .next u ∧ lost u s.brd.cut) ∧
    (s.brd.input = true → ∃ u, exec .inputOvervoltage s = .next u ∧ lost u true) ∧
    (∃ u, exec .inputReconnect s = .next u ∧ u = { s with brd := { s.brd with cut := false } }) ∧
    (s.brd.pwrEn = false → ∃ u, exec .pwrEnRise s = .next u ∧ u.brd.pwrEn = true ∧
      (if s.brd.input = true ∧ s.brd.on = false then u.brd.on = true ∧ fresh u regKept else u = { s with brd := { s.brd with pwrEn := true } })) ∧
    (∀ m k, s.brd.pwrEn = true → s.brd.on = true → ∃ u, exec (.pwrEnFall m k) s = .next u ∧ u.brd.pwrEn = false ∧
      (s.thm.off = false → s.coolState ≠ 0 → u = { s with brd := { s.brd with pwrEn := false } }) ∧
      (s.thm.off = true ∨ s.coolState = 0 → u.brd.on = false ∧ u.mem = [] ∧ fresh u regKept))

/-! ### PCIe, register conventions, faults and the log -/

/-- R263 to R273, R385, R407, R448: the port's resets, the link, functions, configuration requests, the debug window, IDE, host reads. -/
def Obligations.PcieResults : Prop :=
  ∀ (s : State),
    let linkGone (u : State) : Prop := u.linkUp = false ∧ u.pcie.vfEnable = false ∧ u.pcie.numVFs = 0 ∧ u.pcie.ide = [] ∧
      (s.linkUp = true → u.fget F.PCI_CNT_DOWN 0 = (s.fget F.PCI_CNT_DOWN 0 + 1) % 2 ^ 16 ∧ u.flag F.PCI_STAT_DOWN 0 = true ∧ u.kv.held = true ∧
        u.cmd.polls = [] ∧ ∀ q, q ∈ s.qpKeys → (s.qpFunc q).isSome = true → u.qpState q = qpDISABLED)
    (s.brd.pwrEn = true → s.pcie.perst = false → ∃ u, exec .perstAssert s = .next u ∧ u.pcie.perst = true ∧ u.linkUp = false ∧
      (s.flag F.PCI_CFG_PERST_KEEP 0 = true → linkGone u) ∧
      (s.flag F.PCI_CFG_PERST_KEEP 0 = false → if s.coolState ≠ 0 ∧ s.thm.off = false then u.brd.perstWaits = true else u.rst.modDue = true)) ∧
    (∃ u, exec .perstDeassert s = .next u ∧ u = { s with pcie := { s.pcie with perst := false } }) ∧
    (s.linkUp = true → ∃ u, exec .linkDown s = .next u ∧ linkGone u) ∧
    (∀ speed width flit, s.pcie.perst = false → s.brd.on = true → s.rst.modDue = false → 1 ≤ s.stage → speed < 8 → width < 32 →
      (speed = 6 → flit = true) →
      ∃ u, exec (.linkUp speed width flit) s = .next u ∧ u.fget F.PCI_LINK_SPEED 0 = speed ∧ u.fget F.PCI_LINK_WIDTH 0 = width ∧
        u.flag F.PCI_LINK_FLIT 0 = flit ∧
        (speed < s.fget F.PCI_CFG_EXP_SPEED 0 ∨ width < s.fget F.PCI_CFG_EXP_WIDTH 0 → u.flag F.PCI_STAT_DEGRADED 0 = true)) ∧
    (∀ f : Fin 257, s.funcLive f = true → ∃ u, exec (.functionLevelReset f) s = .next u ∧ f.val ∉ u.pcie.d3 ∧ f.val ∉ u.pcie.msixEn ∧
      (f.val = 0 → u.pcie.vfEnable = false ∧ u.pcie.numVFs = 0) ∧ ∀ q, q ∈ s.qpKeys → s.qpFunc q = some f.val → u.qpState q = qpDISABLED) ∧
    (s.pcie.vfEnable = true → ∃ u, exec .vfEnableClear s = .next u ∧ u.pcie.vfEnable = false ∧
      ∀ q f, q ∈ s.qpKeys → s.qpFunc q = some f → f ≠ 0 → u.qpState q = qpDISABLED) ∧
    (∀ (f : Fin 257) off, s.linkUp = true → s.pcie.perst = false →
      (s.pcie.ready = false → ∀ w, exec (.configRequest f off w) s = .next { s with outs := { s.outs with busErr := false, retry := true } }) ∧
      (s.pcie.ready = true → s.funcLive f = true →
        (∃ u, exec (.configRequest f off none) s = .next u ∧ u.outs.busErr = false ∧ { u with outs := s.outs, clk := s.clk } = s ∧
          ∀ v m, s.cfgWord f off = some (v, m) → u.outs.rdata &&& m = v &&& m) ∧
        ∀ w, exec (.configRequest f off (some w)) s = .next (s.served.cfgWrite f off w))) ∧
    (∀ st, s.gateOpen → s.memOpen 0 st = true → s.hostHeld = false → s.conf = false → 6 ≤ s.stage →
      (∀ off n, off + n ≤ 2 ^ 33 → ∀ s1 bs, (s.running (.bar4Read ⟨off, st⟩ n)).daRead (s.bar4Da off) n 3 = (s1, bs, none) →
        exec (.bar4Read ⟨off, st⟩ n) s =
          .next { s1 with outs := { s1.outs with busErr := false, retry := false, rbytes := bs }, gate := s.gate }) ∧
      (∀ off bs, off + bs.length ≤ 2 ^ 33 → ∀ s1, (s.running (.bar4Write ⟨off, st⟩ bs)).daWrite (s.bar4Da off) bs = (s1, none) →
        exec (.bar4Write ⟨off, st⟩ bs) s = .next { s1.served with gate := s.gate })) ∧
    (∀ w, exec (.pciDbgWrite w .svc) s = .next (s.fput F.PCI_DBG_WIN 0 (bits w.toNat 5 0)) ∧
      (∀ st, s.memOpen 0 st = true → s.hostHeld = false →
        exec (.pciDbgWrite w (.host st)) s = .next (if s.conf then s else s.fput F.PCI_DBG_WIN 0 (bits w.toNat 5 0)))) ∧
    (∀ k : Fin 5, k.val ∈ s.pcie.ide → ∃ u, exec (.ideStreamFail k) s = .next u ∧ linkGone u ∧ u.flag F.PCI_STAT_IDE_FAIL 0 = true) ∧
    (∀ (f : Fin 257) d3, s.funcLive f = true → ∃ u, exec (.dStateChange f d3) s = .next u ∧ (f.val ∈ u.pcie.d3 ↔ d3 = true) ∧
      (∀ g, g ≠ f.val → (g ∈ u.pcie.d3 ↔ g ∈ s.pcie.d3)) ∧ { u with pcie := s.pcie } = s) ∧
    (∀ qp idx d data portA, s.gateOpen → s.descr qp idx = some d → d.type = 2 → d.started = true → d.prog = 1 → s.hostAbsorbed = false →
      let c : CopyD := { d.copy with live := !s.descrDead qp idx }
      (∃ u, exec (.hostReadCompletion (.descr qp idx) false data portA) s = .next u ∧ s.completed u qp d stHOST_ACCESS 0 (copyResult 0 none)) ∧
      (data.length = c.rows * c.len → c.ds = 1 ∨ (c.ds = 0 ∧ s.conf = false) →
        let r := State.copyIn c.rows (s.running (.hostReadCompletion (.descr qp idx) true data portA)) c 0 0 data portA
        ∃ u, exec (.hostReadCompletion (.descr qp idx) true data portA) s = .next u ∧ u.mem = r.1.mem ∧
          s.completed u qp d ((r.2.2.map (·.1)).getD stOK) 0 (copyResult r.2.1 (r.2.2.map (·.2))))) ∧
    (∀ (m : Fin 2) data portA, s.gateOpen → m.val ∈ s.sec.mbxRead →
      let s1 (ok : Bool) : State :=
        { s.running (.hostReadCompletion (.mbx m) ok data portA) with sec := { s.sec with mbxRead := s.sec.mbxRead.filter (· ≠ m.val) } }
      exec (.hostReadCompletion (.mbx m) false data portA) s = .next { (s1 false).mbxEnd m mbHOST_ACCESS [] with gate := s.gate } ∧
      (data.length = s.fget F.MBX_REQ_LEN_LEN m →
        exec (.hostReadCompletion (.mbx m) true data portA) s = .next { (s1 true).mbxAct m (s.fget F.MBX_CTL_CMD m) data with gate := s.gate })) ∧
    (∀ data portA, s.gateOpen → s.fget F.FWB_STAT_STATE 0 = fbLOADING → data.length = s.fget F.FWB_LEN_LEN 0 →
      ∃ u, exec (.hostReadCompletion .boot true data portA) s = .next u ∧
        let c := s.imageCause (imageOf data) [0]
        (c = 0 → u.fget F.FWB_STAT_STATE 0 = fbACCEPTED ∧ u.fw.running = true ∧ u.sec.svn = (imageOf data).svn) ∧
        (c ≠ 0 → u.fget F.FWB_STAT_STATE 0 = s.fbIdle ∧ u.fget F.FWB_STAT_CAUSE 0 = c % 256 ∧ u.flag F.SEC_STAT_FW_REJ 0 = true))

/-- R424, R428, R430, R434 to R438: writes of registers that have been started, by whole words and by single bits; parity;
staged sets; the device time; accesses of no register. -/
def Obligations.RegisterCommandResults : Prop :=
  ∀ (f : Fin 257) (off : Nat) (w : Word) (r : Reg) (i : Nat) (s : State),
    (s.regAt f off = some (r, i) → s.regStarted r i = true →
      (s.regShut r i = false → r.isStatus = false → off % 4 = 0 → ∀ src, s.passes f src → (f.val = 0 → s.areaRefused off src = none) →
        let c : Instr := .registerWrite f off w src
        let u := (s.running c).writeReg f r i w w src
        s.gateOpen → u.gate.blk = [] → exec (.registerWrite f off w src) s = .next { u with gate := { u.gate with
          who := none, slots := [], blk := [], held := u.gate.held.filter (·.who ≠ .cmd c), serve := u.gate.serve.filter (·.2 ≠ .cmd c) } }) ∧
      (r.fields.any (fun x => x.acc = .rw) = true → ∃ u, exec (.parityCheck f off) s = .next u ∧ r.key i ∈ u.parBad ∧
        u.flag F.GLB_STAT_CFG_PARITY 0 = true ∧ u.rget .GLB_PAR_ADDR 0 = BitVec.ofNat 32 (off % 2 ^ 26 + 2 ^ 31))) ∧
    (∀ (word : Fin 524288) v x src, s.passes 0 src → s.areaRefused (word.val / 32 * 4) src = none → s.regAt 0 (word.val / 32 * 4) = some (r, i) → s.regStarted r i = true → s.regShut r i = false →
      r.fields.find? (fun y => decide (y.lo ≤ word.val % 32 ∧ word.val % 32 ≤ y.hi)) = some x → x.acc = .rw →
      exec (.bitAliasWrite word v src) s = .next (s.writeReg 0 r i
        (BitVec.ofNat 32 (if v then setBit (s.rget r i).toNat (word.val % 32) else clrBit (s.rget r i).toNat (word.val % 32)))
        (BitVec.ofNat 32 (if v then 2 ^ (word.val % 32) else 0)) src)) ∧
    (∀ k : Fin 133, s.regStarted .STG_CTL k = true → s.regShut .STG_CTL k = false →
      let b := bits w.toNat 2 0
      (bitOf w.toNat 30 = false → ∃ u, exec (.stgCommit k w) s = .next u ∧
        (s.stgVerdict k b = none → SMap.find u.wset (8 * k + b) = some ((stgRegs k b).map (fun x => (x.1.key x.2, s.rget x.1 x.2)))) ∧
        ∀ code detail, s.stgVerdict k b = some (code, detail) → u.wset = s.wset ∧
          u.rget .STG_RSN k = BitVec.ofNat 32 (code + 2 ^ 8 * b + 2 ^ 16 * (detail % 256) + 2 ^ 31) ∧
          bitOf (u.rget .STG_STAT k).toNat (8 + b) = true) ∧
      (bitOf w.toNat 31 = false → SMap.sortedFrom none s.wset = true → ∃ u, exec (.stgDiscard k w) s = .next u ∧
        SMap.find u.wset (8 * k + b) = none ∧ ∀ j, j ≠ 8 * k + b → SMap.find u.wset j = SMap.find s.wset j)) ∧
    (∀ (k : Fin 133) (b : Fin 8) set, SMap.find s.wset (8 * k + b) = some set → s.stgQuiet k b = true → SMap.sortedFrom none s.wset = true →
      ∃ u, exec (.stagedApply k b) s = .next u ∧ u.act = set.foldl (fun m x => SMap.put m x.1 x.2) s.act ∧ SMap.find u.wset (8 * k + b) = none ∧
        bitOf (u.rget .STG_STAT k).toNat b = true) ∧
    exec .glbTimeLoRead s = .next ((s.rput .GLB_TIME_HI 0 (BitVec.ofNat 32 (s.clk.ns / 2 ^ 32))).answer (s.clk.ns % 2 ^ 32)) ∧
    (∃ u, exec (.bar0BadAccess true) s = .next u ∧ u = s.event F.GLB_STAT_ACC_ERR 0) ∧
    (∃ u, exec (.bar0BadAccess false) s = .next u ∧ u.outs.rdata = 0 ∧ u.flag F.GLB_STAT_ACC_ERR 0 = true)

/-- R431: each field of a register takes its part of a write by its own class: an RW field takes its value (a Staged one in the pending
copy), but a Frozen field of a block that is not stopped keeps its own; other fields stay. Only a write that would change a Frozen field of
such a block is flagged, in the block's own bit or in `GLB_STAT`, and its offset is recorded; nothing else changes. -/
def Obligations.FieldWriteResult : Prop :=
  ∀ (f : Nat) (r : Reg) (i : Nat) (w : Word) (s : State),
    let u := s.fieldWrite f r i w
    let taken (x : Field) : Nat := fieldRule r i x (bits w.toNat x.hi x.lo) % 2 ^ (x.hi + 1 - x.lo)
    let frozenWrite : Prop := s.regStopped r i = false ∧
      ∃ x, x ∈ r.fields ∧ x.acc = .rw ∧ x.app = .frozen ∧ fieldRule r i x (bits w.toNat x.hi x.lo) ≠ bits (s.rget r i).toNat x.hi x.lo
    (∀ x, x ∈ r.fields → bits (u.rget r i).toNat x.hi x.lo =
      if x.acc = .rw ∧ (s.regStopped r i = true ∨ x.app ≠ .frozen) then taken x else bits (s.rget r i).toNat x.hi x.lo) ∧
    (frozenWrite → u.flag (frozenBit f r i).1 (frozenBit f r i).2 = true ∧ u.rget .GLB_FROZEN_LAST 0 = BitVec.ofNat 32 (regOffset r i) ∧
      s.sameRegs u [r, .STG_STATE, (frozenBit f r i).1.reg, .GLB_FROZEN_LAST]) ∧
    (¬ frozenWrite → s.sameRegs u [r, .STG_STATE]) ∧
    (∀ j, j ≠ i → u.rget r j = s.rget r j) ∧ { u with regs := s.regs, parBad := s.parBad } = s

/-- R286, R389 to R397, R402, R404, R405: raises, traps, the pin and the log's release; what the sideband port answers while it has power
and, but for CAP_SET, no module reset runs. -/
def Obligations.FaultAndSidebandResults : Prop :=
  (∀ (s : State),
    (∀ (u : Fin 136) r rest, SMap.get s.flt.coll u [] = r :: rest → (SMap.find s.flt.sentAt u).all (fun m => decide (m + 4 ≤ s.clk.mc)) = true →
      let wait := SMap.get s.flt.unitWait u []
      let sent : Raise := { r with sent := s.clk.mc }
      ∃ t, exec (.raiseSend u) s = .next t ∧ (∀ x, x ∈ t.flt.arrive ↔ x = sent ∨ x ∈ s.flt.arrive) ∧
        ((∀ x, x ∈ s.flt.arrive → x.sent ≠ s.clk.mc ∨ x.src ≤ r.src) → t.flt.arrive = s.flt.arrive ++ [sent]) ∧ (∀ x, x ∈ rest → x ∈ SMap.get t.flt.coll u []) ∧
        (∀ x, x ∈ wait → x.src < 65536 → ∃ y, y ∈ wait ∧ y ∈ SMap.get t.flt.coll u [] ∧ y.src ≤ x.src) ∧ { t with flt := s.flt } = s) ∧
    (∀ r rest, s.flt.arrive = r :: rest → ∃ u, exec .faultRaise s = .next u ∧ u.flt.arrive = rest ∧
      (s.nested r = true → u.fget F.FLT_LOST_LOST 0 = (s.fget F.FLT_LOST_LOST 0 + 1) % 2 ^ 32 ∧ u.flag F.FLT_STAT_LOST 0 = true ∧ u.flt.srcs = s.flt.srcs) ∧
      (s.nested r = false → (s.src r.src).fault = false → (u.src r.src).fault = true ∧ (u.src r.src).occ = min 65535 r.merged) ∧
      (s.nested r = false → (s.src r.src).fault = true → (u.src r.src).fault = true ∧ (u.src r.src).occ = min 65535 ((s.src r.src).occ + r.merged))) ∧
    (∀ src, s.condHolds src = true → SMap.get s.flt.condAt src 0 + 10 ^ 7 ≤ s.clk.ns → exec (.conditionReraise src) s = .next (s.raise (src / 512) (src % 512) 0 0)) ∧
    (∀ src, (s.src src).fault = true → s.condHolds src = false →
      (s.src src).last + 10 ^ 7 * max 1 (s.fget F.FLT_RXN_QUIET (src / 512)) ≤ s.clk.ns → ∃ u, exec (.quietExpiry src) s = .next u ∧ (u.src src).fault = false ∧
      (u.src src).recov = min 65535 ((s.src src).recov + 1)) ∧
    (s.trapBusy = true →
      (∃ u, exec (.trapAck .svc) s = .next u ∧
        (s.fw.heldTraps = true ∨ s.flt.trapQ = [] → u.trapBusy = false ∧ u.fget F.FLT_TQ_SRC 0 = 0 ∧ u.flt.trapQ = s.flt.trapQ) ∧
        ∀ k l, s.fw.heldTraps = false → s.flt.trapQ = k :: l → u.trapBusy = true ∧ u.fget F.FLT_TQ_SRC 0 = k % 65536 ∧ u.flt.trapQ = l) ∧
      (∀ st, exec (.trapAck (.host st)) s = .next s) ∧
      (s.flt.trapAt + 10 ^ 6 * max 1 (s.fget F.FLT_CFG_TRAP_TMO 0) ≤ s.clk.ns → exec .trapTimeout s = .next (s.raise 0x4F 0 0 0).trapEnd)) ∧
    (∃ u c, exec .pinClr s = .next u ∧ c = ({ s with flt := { s.flt with latch := false } } : State).errCause ∧ u.brd.errN = c ∧
      u.flt.latch = (c && s.flag F.FLT_CFG_PIN_LATCH 0)) ∧
    (∀ key : BitVec 16, ∃ u, exec (.edyRelease key) s = .next u ∧
      if s.flag F.EDY_STATE_FROZEN 0 = true ∧ key.toNat = s.fget F.EDY_FREEZE_INDEX 0 % 65536 then
        u.flag F.EDY_STATE_FROZEN 0 = false ∧ u.fget F.EDY_MISSED_MISSED 0 = 0 ∧ u.flt.hold = false
      else u = s.event F.EDY_STAT_REL_BAD 0)) ∧
  (∀ (s : State), s.brd.input = true →
    let r := s.sentryExit
    (s.flt.clearing = false →
      (∃ u, exec .logInfo s = .next u ∧ u = r.respond (leBytes 1 0 ++ leBytes 4 (s.rget .EDY_HEAD 0).toNat ++ leBytes 4 (s.rget .EDY_FREEZE 0).toNat
        ++ leBytes 4 (s.rget .EDY_STATE 0).toNat ++ leBytes 4 (s.rget .EDY_MISSED 0).toNat ++ leBytes 4 (s.rget .FLT_LOST 0).toNat)) ∧
      (∀ (i : Word) (n : Byte),
        (1 ≤ n.toNat → n.toNat ≤ 8 → i.toNat + n.toNat ≤ s.fget F.EDY_HEAD_INDEX 0 → s.fget F.EDY_HEAD_INDEX 0 ≤ i.toNat + 4096 →
          (∀ j, j < n.toNat → (i.toNat + j) % 4096 ∉ s.edy.bad) → exec (.logRead i n) s = .next (r.respond (leBytes 1 0 ++
            (List.range n.toNat).flatMap (fun j => padTo 32 (SMap.get s.edy.recs ((i.toNat + j) % 4096) []))))) ∧
        (n.toNat = 0 ∨ 8 < n.toNat ∨ s.fget F.EDY_HEAD_INDEX 0 < i.toNat + n.toNat ∨ i.toNat + 4096 < s.fget F.EDY_HEAD_INDEX 0 →
          exec (.logRead i n) s = .next (r.respond (leBytes 1 1)))) ∧
      (∀ key : BitVec 16, ∃ u, exec (.logRelease key) s = .next u ∧ { u with outs := r.outs } = r.logRelease key.toNat ∧
        u.outs.sideband = leBytes 1 (if s.flag F.EDY_STATE_FROZEN 0 = false then 3 else if key.toNat = s.fget F.EDY_FREEZE_INDEX 0 % 65536 then 0 else 2)) ∧
      (∀ src : BitVec 16, exec (.faultRead src) s = .next (r.respond (if srcTypes.contains (src.toNat / 512) then
        leBytes 1 0 ++ leBytes 1 (b2n (s.src src.toNat).fault) ++ leBytes 2 (s.src src.toNat).occ ++ leBytes 2 (s.src src.toNat).recov else leBytes 1 1)))) ∧
    (∀ w : BitVec 16, ∃ u, exec (.capSet w) s = .next u ∧ u.brd.sbCap = min 1200 (max 300 w.toNat) ∧
      u.outs.sideband = leBytes 1 0 ++ leBytes 2 (min 1200 (max 300 w.toNat)) ∧
      (s.brd.on = true → 4 ≤ s.stage → u.fget F.PWR_SBCAP_SB_CAP 0 = min 1200 (max 300 w.toNat))))


/-! ### Security and the mailboxes -/

/-- R339 to R341, R347, R349, R350, R439 to R441: each mailbox command, written while the mailbox is free and its responder and host
memory are there. A command with a request reads it first; what LC_CHANGE and PROG_LOAD do with their requests. -/
def Obligations.MailboxResults : Prop :=
  (∀ (s : State),
    (s.mbxBusy 1 = false → s.hostOpen = true →
      let reads (u : State) : Prop := u.mbxBusy 1 = true ∧ u.sec.mbxRead = s.sec.mbxRead ++ [1]
      (∃ u, exec .lcChange s = .next u ∧ reads u) ∧
      (∃ u, exec .progLoad s = .next u ∧
        let v := s.progVerdict (s.fget F.MBX_REQ_LEN_LEN 1)
        if v = mbOK then reads u else s.mbxDone u 1 v []) ∧
      (∃ u, exec .sessionOpen s = .next u ∧ reads u) ∧
      (∃ u, exec .mbxQuote s = .next u ∧
        match s.quote ((List.range 8).flatMap (fun i => leBytes 4 (s.mbxArg 1 i))) with
        | some q => s.mbxDone u 1 mbOK q
        | none => s.mbxDone u 1 mbSTATE [])) ∧
    (s.mbxBusy 1 = false →
      (∃ u, exec .svnCommit s = .next u ∧ s.mbxDone u 1 mbOK [] ∧ u.fget F.SEC_LC_SVN 0 = max (s.fget F.SEC_LC_SVN 0) s.sec.svn % 2 ^ 6) ∧
      (∃ u, exec .confSet s = .next u ∧
        if s.flag F.GLB_FEATURES_CONF 0 = true ∧ s.lcState = lcDEPLOYED then
          s.mbxDone u 1 mbOK [] ∧ u.fget F.SEC_CONF_NEXT 0 = s.mbxArg 1 0 % 2 ∧ u.sec.ideNext = bitOf (s.mbxArg 1 0) 1
        else s.mbxDone u 1 mbDENIED []) ∧
      (∃ u, exec .sessionClose s = .next u ∧
        let sid := s.mbxArg 1 0
        (s.session sid = none → s.mbxDone u 1 mbSTATE []) ∧
        ((s.session sid).isSome = true → s.kv.sid.any (fun e => e.2 == sid) = true → s.mbxDone u 1 mbBUSY [] ∧ u.sec.sessions = s.sec.sessions) ∧
        ((s.session sid).isSome = true → s.kv.sid.any (fun e => e.2 == sid) = false →
          s.mbxDone u 1 mbOK [] ∧ u.sec.sessions = s.sec.sessions.filter (fun x => x.sid ≠ sid)))) ∧
    (s.mbxBusy 0 = false → s.fw.running = true ∨ s.fw.recovery = true → s.fw.handover = false → s.hostOpen = true →
      (∃ u, exec .mbxInfo s = .next u ∧ s.mbxDone u 0 mbOK (leBytes 4 (s.rget .FWS_RUN 0).toNat ++ leBytes 4 (s.rget .FWS_CLEVEL 0).toNat
        ++ leBytes 1 (s.fget F.SEC_LC_SVN 0) ++ leBytes 1 (b2n s.fw.recovery) ++ leBytes 1 (s.fget F.BOOT_STAT_STAGE 0) ++ zeros 5)) ∧
      (∃ u, exec .mbxManifest s = .next u ∧ s.mbxDone u 0 mbOK s.manifest) ∧
      (∃ u, exec .calRead s = .next u ∧ s.mbxDone u 0 mbOK (s.boot.cal.getD Config.calTable)))) ∧
  (∀ (s : State) (req : List Byte),
    (let cur := s.lcState
     let target := leAt (padTo 5268 req) 0 1
     let idle := s.flag F.KVM_CTL_RUN 0 = false ∧ ∀ d, d ∈ s.disps → d.2.running = false
     let u := s.mbxAct 1 1 req
     (¬idle → s.mbxDone u 1 mbBUSY [] ∧ u.lcState = cur) ∧
     (idle → cur = lcPROVISIONED → target = lcDEPLOYED → 63 ≤ s.keyEpoch → s.mbxDone u 1 mbSTATE [] ∧ u.lcState = cur) ∧
     (idle → cur = lcPROVISIONED → target = lcDEPLOYED → s.keyEpoch < 63 → u.sec.sessions = [] ∧
       (u.sec.lcWait = none → s.mbxDone u 1 mbOK [] ∧ u.lcState = lcDEPLOYED ∧ u.keyEpoch = s.keyEpoch + 1) ∧
       (u.sec.lcWait ≠ none → u.lcState = cur ∧ u.mbxBusy 1 = s.mbxBusy 1)) ∧
     (idle → (cur = lcRETURNED ∨ (cur = lcBLANK ∧ target ≠ lcPROVISIONED)) → s.mbxDone u 1 mbSTATE [] ∧ u.lcState = cur)) ∧
    (let u := s.mbxAct 1 4 req
     s.progVerdict req.length = mbOK → u.mem = (s.daWrite s.progDa req).1.mem ∧ u.sec.approved = s.sec.approved ++ [s.progDa] ∧
       u.sec.progLoaded = true ∧ u.sec.log.length = s.sec.log.length + 1 ∧ s.mbxDone u 1 mbOK []))

/-- R113, R114, R255, R272, R341, R345, R346, R357: the end of a wipe, ATTEST, SPDM exchanges, tamper. -/
def Obligations.SecurityResults : Prop :=
  ∀ (s : State),
    (∀ (t : Fin 128) (b : Fin 16), b.val ∈ (s.eng t).wiping → (s.eng t).power = .on ∨ (s.eng t).power = .lull1 →
      let w := (s.wipeEnd t b).ingressDrain t []
      (s.sec.lcWait = none → ∃ u, exec (.wipeComplete t b) s = .next u ∧ b.val ∉ (u.eng t).wiping ∧ u.flag F.SPM_STAT_WIPED t = true ∧
        ((s.stop t).ingress = [] → ∀ o, 2 ^ 19 * b.val ≤ o → o < 2 ^ 19 * (b.val + 1) → u.spmRaw t o 1 = [0])) ∧
      (∀ target key, s.sec.lcWait = some (target, key) → w.wiped = true → ∃ u, exec (.wipeComplete t b) s = .next u ∧
        u.lcState = target % 4 ∧ u.sec.lcWait = none ∧ s.mbxDone u 1 mbOK [])) ∧
    (∀ (k : Fin 3) qp idx d, s.starts qp idx 0x41 d → d.attKind = k → s.headVerdict qp d (bodyZero d [(16, 45)]) false = none → s.hostOpen = true →
      let out : Option (List Byte) := if s.lcState = lcRETURNED ∨ s.sec.zeroed = true then none else match k.val with
        | 0 => s.quote ((d.bytes.drop 16).take 32)
        | 1 => some s.sec.log.flatten
        | _ => some s.manifest
      let answered (u : State) : Prop := match out with
        | none => s.completed u qp d stSTATE 0 []
        | some b => if d.u 56 4 < b.length then s.completed u qp d stBUF_SMALL 0 (leBytes 4 b.length)
          else s.completed u qp d stOK 0 (leBytes 4 b.length) ∧
            (d.quiet = true → s.descrDead qp idx = false → s.hostFails (d.u 48 8) b.length = false →
              ∀ i, i < b.length → SMap.find u.host (d.u 48 8 + i) = b[i]?)
      (k.val = 0 → ∃ u, exec (.attestQuote qp idx) s = .next u ∧ answered u) ∧
      (k.val = 1 → ∃ u, exec (.attestLog qp idx) s = .next u ∧ answered u) ∧
      (k.val = 2 → ∃ u, exec (.attestManifest qp idx) s = .next u ∧ answered u)) ∧
    (s.linkUp = true → s.pcie.ready = true →
      let say (u : State) (b : List Byte) : State := { u with outs := { u.outs with rbytes := b } }
      (∀ v, exec (.spdmMessage (.negotiate v)) s = .next (say { s with sec := { s.sec with algOk := v } } [if v then 1 else 0])) ∧
      exec (.spdmMessage .certificate) s = .next (say s s.certChain) ∧
      (∃ u, exec (.spdmMessage .establish) s = .next u ∧ u.outs.rbytes = [if s.ikSeed.isSome && s.sec.algOk then 1 else 0] ∧
        u.sec.spdm = (s.sec.spdm || (s.ikSeed.isSome && s.sec.algOk))) ∧
      exec (.spdmMessage .close) s = .next (say { s with sec := { s.sec with spdm := false } } [1]) ∧
      (∀ i, exec (.spdmMessage (.measurement i)) s = .next (say s (if 254 ≤ i then [] else (s.sec.log[i]?).getD []))) ∧
      (∀ k : Fin 5, s.sec.spdm = true →
        (∃ u, exec (.spdmMessage (.ideStart k)) s = .next u ∧ k.val ∈ u.pcie.ide ∧ u.flag F.PCI_LINK_IDE_SECURE 0 = true) ∧
        ∃ u, exec (.spdmMessage (.ideStop k)) s = .next u ∧ u.pcie.ide = s.pcie.ide.filter (· ≠ k.val) ∧
          u.flag F.PCI_LINK_IDE_SECURE 0 = !u.pcie.ide.isEmpty)) ∧
    (∀ src : Fin 4, ∃ u, exec (.tamper src) s = .next u ∧ u.sec.zeroed = true ∧ u.sec.sessions = [] ∧ u.flag F.SEC_STAT_TAMPER 0 = true ∧
      u.fget F.SEC_LC_TAMPERS 0 = min (s.fget F.SEC_LC_TAMPERS 0 + 1) 15 ∧ bitOf (u.fget F.SEC_TAMPER_SRC 0) src = true ∧
      (∀ q, u.quote q = none) ∧ ∀ t b, t < 128 → b < 16 → s.secureBank t b = true → u.owner t b = 0)

/-! ### Firmware, power, thermal, energy, lock-step, start-up -/

/-- R410 to R415, R417 to R421: FW_STAGE, hand-over, microcode and the messages of a broadcast. -/
def Obligations.FirmwareResults : Prop :=
  ∀ (s : State),
    (∀ qp idx d, s.starts qp idx 0x42 d → s.headVerdict qp d (bodyZero d [(16, 1), (20, 52)]) false = none → s.fwState ≠ fwACTIVATING →
      let s1 := (s.running (.fwStageActivate qp idx)).markStarted qp d
      let bcast := s.flag F.FWS_STATE_BCAST 0
      (d.op = 0 → (s.chunkRefused d.chunk d.clen d.igen = true →
          ∃ u, exec (.fwStageChunk qp idx) s = .next u ∧ s.completed u qp d stFW_STATE 0 d.noResult) ∧
        (s.chunkRefused d.chunk d.clen d.igen = false → s.hostOpen = true → s.mayRead = true →
          ∃ u, exec (.fwStageChunk qp idx) s = .next u ∧ u.descr qp idx = some { s.going d with prog := 1 })) ∧
      (d.op = 1 → s.gateOpen → ∃ u, exec (.fwStageActivate qp idx) s = .next u ∧
        if s.fwState = fwCOMPLETE ∧ s.fwIgen = d.igen ∧ (bcast = true → s.fw.mark = some s.fwIgen) then
          let r := s1.fwActivate (some (qp, d.idx)) bcast
          u = { (if r.2 then r.1 else r.1.complete qp (s.going d) stFW_HASH d.noResult) with gate := s.gate }
        else s.completed u qp d stFW_STATE 0 d.noResult) ∧
      (d.op = 2 → ∃ u, exec (.fwStageAbort qp idx) s = .next u ∧ s.completed u qp d stOK 0 d.noResult ∧ u.fwState = fwIDLE ∧ u.fw.have_ = [])) ∧
    (s.fw.handover = true → (∃ u, exec .serviceHandoverReady s = .next u ∧ u.fw.handover = false ∧ u.fw.heldTraps = false ∧ u.fwState = fwIDLE ∧
        u.flag F.FWS_STAT_DONE 0 = true) ∧
      (s.fw.startAt + 20000000 ≤ s.clk.ns → exec .handoverReadyTimeout s = .next (s.raise 0x4F 0 0 0))) ∧
    (∀ t : Fin 128, s.fwState = fwACTIVATING → t.val ∈ s.fw.withdrawn → s.disabled t = false →
      (s.eng t).disp = none → s.fget F.FWS_STATE_KIND 0 = 1 →
      (∃ u, exec (.microcodeEngineLoad t true) s = .next u ∧ u.ucodeOf t = s.fwIgen ∧
        u.fget F.FWS_UPROG_DONE 0 = (s.fget F.FWS_UPROG_DONE 0 + 1) % 2 ^ 8) ∧
      exec (.microcodeEngineLoad t false) s = .next (s.fenceNow t).ucodeNext) ∧
    (∀ i msn m, s.flag F.FWS_CFG_BCAST_EN 0 = true → s.gateOpen →
      let r (c : Instr) : State := (s.running c).took i m
      let fin (x : State) : Out := .next { (if i = s.self then x.endAcked i else x) with gate := s.gate }
      let n := m.arg0 % 2 ^ 32
      let igen := m.arg1 % 2 ^ 32
      let h := m.data.take 64
      let data := m.data.drop 64
      (s.arrives i msn (isFw 0) m → s.fwState ≠ fwACTIVATING → leAt h 40 4 ≠ 0 →
        (data.length ≠ leAt h 40 4 ∨ sha data ≠ h.take 32 →
          exec (.fwChunk i msn) s = fin (((r (.fwChunk i msn)).chunkCame.fadd F.FWS_CNT_BAD 0 1).event F.FWS_STAT_BAD_CHUNK 0)) ∧
        (data.length = leAt h 40 4 → sha data = h.take 32 →
          (s.chunkRefused n data.length igen = true → exec (.fwChunk i msn) s = fin (r (.fwChunk i msn))) ∧
          (s.chunkRefused n data.length igen = false → SMap.find s.fw.asked n = none →
            let a := (r (.fwChunk i msn)).chunkCame.fwStore n igen data (some (leAt h 32 4)) (some (leAt h 44 2)) true
            let b : State := { a with fw := { a.fw with asked := SMap.del a.fw.asked n, sent := (i, n) :: a.fw.sent } }
            exec (.fwChunk i msn) s = fin (((if b.fw.have_.contains 0 then b else b.fput F.FWS_STATE_KIND 0 (leAt h 36 1)).fwForward n data).fwTryMark)))) ∧
      (s.arrives i msn (isFw 1) m →
        (n ≠ 2 ^ 31 + Config.markReq.toNat → igen = s.fwIgen → n ∈ s.fw.have_ →
          ∀ s1 bs, (r (.fwReq i msn)).fabRead (s.chunkDa n) (if n = 0 then 4096 else min 65536 (s.stagedLen - 65536 * (n - 1))) = (s1, bs, none) →
          exec (.fwReq i msn) s = fin (s1.sendChunk i n bs)) ∧
        (n ≠ 2 ^ 31 + Config.markReq.toNat → igen ≠ s.fwIgen ∨ n ∉ s.fw.have_ → exec (.fwReq i msn) s = fin ((r (.fwReq i msn)).sendChunk i n [])) ∧
        (n = 2 ^ 31 + Config.markReq.toNat → exec (.fwReq i msn) s =
          fin (if s.fget F.FWS_RUN_IGEN 0 = igen ∧ s.fwState ≠ fwACTIVATING then (r (.fwReq i msn)).sendMark i else r (.fwReq i msn)))) ∧
      (s.arrives i msn (isFw 2) m → newerGen igen (s.fget F.FWS_RUN_IGEN 0) = true →
        exec (.fwActivationMark i msn) s =
          fin (({ r (.fwActivationMark i msn) with fw := { s.fw with mark := some igen } } : State).fwTryMark))) ∧
    (s.flag F.FWS_CFG_BCAST_EN 0 = true → s.fwState = fwSTAGING → ∀ c, s.fw.nchunk = some c → s.fw.asked = [] → s.fw.chunkAt + s.gapNs ≤ s.clk.ns →
      exec .fwRepairGap s = .next ((((List.range (min c 1025)).filter (fun n => n ∉ s.fw.have_)).take 8).foldl (fun a n => a.fwAskFrom n 0) s)) ∧
    (∀ p i s1, s.flag F.FWS_CFG_BCAST_EN 0 = true → s.fwState = fwCOMPLETE → s.fwParent = some p → s.peerState p = (s1, psUNREACH) →
      s.fwOrder.find? (fun j => (s.peerState j).2 = psVALID) = some i → s.fw.markAt + s.gapNs ≤ s.clk.ns → exec .fwMarkRequest s =
        .next (({ s with fw := { s.fw with markAt := s.clk.ns } } : State).post i opFW false 0 (2 ^ 62 + 2 ^ 31 + Config.markReq.toNat) s.fwIgen 0 [] false .plain))

/-- R275 to R294, R310: HINT and its reservations, the governors, droop, the cap controller, the power-up sequencer. -/
def Obligations.PowerResults : Prop :=
  ∀ (s : State),
    (∀ qp idx d, s.starts qp idx 0x31 d →
      (s.markStarted qp d).headVerdict qp (s.going d) (bodyZero (s.going d) [(16, 2), (20, 8), (32, 16)]) false = none →
      let prof := d.u 16 1
      (d.u 17 1 = 0 → ∃ u r, exec (.hintCmd qp idx) s = .next u ∧ s.completed u qp d stOK 0 [] ∧ u.pwr.resv = s.pwr.resv ++ [r] ∧
        r.prof = prof ∧ r.ctx = d.ctx ∧ r.group = d.u 32 16 ∧ r.begins = s.clk.ns + d.u 20 4 ∧ r.dur = d.u 24 4 ∧ r.begun = false ∧
        u.fget F.PWR_PROF_DATA_USES prof = min (s.fget F.PWR_PROF_DATA_USES prof + 1) 127 ∧
        let want := (groupTiles (d.u 32 16)).map (fun t => (t, if s.flag F.PWR_PROF_DATA_VALID prof then s.fget F.PWR_PROF_DATA_IPK prof else s.limit16 t))
        if (want.map (fun g => s.costOf g.1 g.2)).sum ≤ s.budgetLeft then r.grant = want else u.flag F.PWR_STAT_HINT_SHORT 0 = true) ∧
      (d.u 17 1 = 1 → ∃ u, exec (.hintCmd qp idx) s = .next u ∧ s.completed u qp d stOK 0 [] ∧
        ∀ r, r ∈ u.pwr.resv → r ∈ s.pwr.resv ∧ ¬(r.prof = prof ∧ r.begun = true)) ∧
      (1 < d.u 17 1 → ∃ u, exec (.hintCmd qp idx) s = .next u ∧ s.completed u qp d stBAD_DESC 0 [])) ∧
    (∀ k r, s.pwr.resv[k]? = some r →
      (r.begun = false → r.begins ≤ s.clk.ns → exec (.hintPhaseBegin k) s =
        .next { s with pwr := { s.pwr with resv := s.pwr.resv.set k { r with begun := true, peak := 0 } } }) ∧
      (r.begun = true → r.begins + 1000 * (if s.flag F.PWR_PROF_DATA_VALID r.prof then s.fget F.PWR_PROF_DATA_DUR r.prof else r.dur) ≤ s.clk.ns →
        ∃ u, exec (.phaseEnd k) s = .next u ∧ u.pwr.resv = s.pwr.resv.filter (· ≠ r) ∧
          (s.flag F.PWR_CFG_LEARN_EN 0 = true → u.flag F.PWR_PROF_DATA_VALID r.prof = true ∧
            u.fget F.PWR_PROF_DATA_IPK r.prof = (if s.flag F.PWR_PROF_DATA_VALID r.prof then
              ((s.fget F.PWR_PROF_DATA_IPK r.prof : Int) - ((s.fget F.PWR_PROF_DATA_IPK r.prof : Int) - r.peak) / 8).toNat else r.peak) % 256)) ∧
      (r.begins + 1000 * (r.dur + 100) ≤ s.clk.ns → exec (.reservationEnd k) s =
        .next { s with pwr := { s.pwr with resv := s.pwr.resv.set k { r with grant := [] } } })) ∧
    (∀ (t : Fin 128),
      (∀ (cur demand code : Byte) (n : Fin 16) (frozen : Bool),
        let on := (s.eng t).power = .on
        let lim := min (s.limit16 t) (s.fget F.TPW_I_ILIM t)
        let g := SMap.get s.pwr.gov t (250 * s.fget F.TPW_I_I_NOW t, s.clk.ns)
        let dt := s.clk.ns - g.2
        ∃ u, exec (.governorSample t cur demand ⟨n, frozen⟩ code) s = .next u ∧
          (let hi := g.1 + ((dt : Rat) * u.slopeOf t).floor.toNat
           let k := if ¬on then 0 else if lim < demand.toNat ∨ hi < 250 * demand.toNat then max n.val (s.forcedSwallow t) else s.forcedSwallow t
           u.fget F.TPW_SWALLOW_COUNT t = (s.fget F.TPW_SWALLOW_COUNT t + k) % 2 ^ 32 ∧
           (t.val ∈ u.pwr.rising ↔ on ∧ g.1 < max (250 * demand.toNat) (s.fillTarget t)) ∧
           (on → ∃ ref, SMap.find u.pwr.gov t = some (ref, s.clk.ns) ∧ ref ≤ 250 * lim ∧ ref ≤ hi ∧ ref ≤ g.1 + dt * s.fget F.TPW_CFG_SLOPE t ∧
             min (250 * lim) (g.1 - dt * s.fget F.TPW_CFG_SLOPE t) ≤ ref ∧ min (250 * lim) (min (s.fillTarget t) hi) ≤ ref ∧
             u.fget F.TPW_I_I_NOW t = (if frozen then min cur.toNat (ref / 250) else ref / 250)) ∧
           (on → u.slopeOf t < ((s.fget F.TPW_CFG_SLOPE t : Nat) : Rat) → hi < max (250 * demand.toNat) (s.fillTarget t) →
             u.flag F.WPW_STAT_SLOPE_HOLD (towerOf t) = true)) ∧
          (¬on → u.fget F.TPW_I_I_NOW t = min lim (if frozen then demand.toNat else cur.toNat)) ∧
          (SMap.sortedFrom none s.pwr.spent = true →
            SMap.get u.pwr.spent t 0 = SMap.get s.pwr.spent t 0 - min 32 (s.limit16 t - u.fget F.TPW_I_I_NOW t) * dt) ∧
          u.fget F.TPW_VMIN_CODE t = min (s.fget F.TPW_VMIN_CODE t) code.toNat ∧
          (code.toNat < s.fget F.TPW_VMIN_CODE t → u.get64 .TPW_VMIN_T_LO .TPW_VMIN_T_HI t = s.clk.ns % 2 ^ 64)) ∧
      (∀ p, p = max (max (s.fget F.TPW_PSTATE_CEIL t) (s.thmCeil t)) (SMap.get s.pwr.capCeil t 0) → p < 8 → ∃ u, exec (.operatingPointChange t) s = .next u ∧ u.fget F.TPW_PSTATE_CUR t = p) ∧
      (∀ (source : Bool) mv amps ns,
        let spent := SMap.get s.pwr.spent t 0
        let q := min amps 640 * ns
        (mv ≤ s.fget F.TPW_TRIP_GUST_TRIP t ∨ (source = true ∧ gustReserve ≤ spent) → exec (.gustDischarge t ⟨source, mv, amps, ns⟩) s = .next s) ∧
        (s.fget F.TPW_TRIP_GUST_TRIP t < mv → SMap.sortedFrom none s.pwr.spent = true → (source = true → spent < gustReserve) →
          ∃ u, exec (.gustDischarge t ⟨source, mv, amps, ns⟩) s = .next u ∧
            SMap.get u.pwr.spent t 0 = (if source then min gustReserve (spent + q) else spent - q) ∧
            u.fget F.TPW_GUST_COUNT t = (s.fget F.TPW_GUST_COUNT t + (if source then 1 else 0)) % 2 ^ 32)) ∧
      (∀ mv, s.fget F.TPW_TRIP_DROOP_TRIP t < mv → t.val ∉ s.pwr.slow → (s.eng t).power = .on → ∃ u, exec (.droopSlowdown ⟨t, mv⟩) s = .next u ∧ t.val ∈ u.pwr.slow ∧
        u.fget F.TPW_DROOP_COUNT t = (s.fget F.TPW_DROOP_COUNT t + 1) % 2 ^ 32 ∧ u.flag F.TPW_STAT_DROOP t = true) ∧
      (∀ mv, mv < s.fget F.TPW_TRIP_GUST_TRIP t → exec (.droopEnd ⟨t, mv⟩) s = .next { s with pwr := { s.pwr with slow := s.pwr.slow.filter (· ≠ t.val) } }) ∧
      exec (.vminClear t) s = .next (s.fput F.TPW_VMIN_CODE t 255) ∧
      (∃ u, exec (.engineUndervoltage t) s = .next u ∧ u.flag F.TPW_STAT_UV t = true ∧ u.raisedIn t 0x03 t = true)) ∧
    (∀ above, (∃ u, exec (.railOvercurrent above) s = .next u ∧ u.condOn 0x40 0 = above ∧ (above = true → u.raisedIn 132 0x40 0 = true)) ∧
      ∀ i : Fin 6, ∃ u, exec (.domainOverload i above) s = .next u ∧ u.condOn 0x20 i = above) ∧
    (∀ avg other demand cost heavy light, ∃ u, exec (.capStep avg other demand cost heavy light) s = .next u ∧
      u.fget F.PWR_AVG_AVG_W 0 = avg % 2 ^ 11 ∧ u.pwr.budget = 1000 * u.effCap - other - 1000 * s.fget F.PWR_CFG_MARGIN_W 0 ∧
      u.effCap = min (s.fget F.PWR_CAP_CAP_W 0) (min (s.fget F.PWR_SBCAP_SB_CAP 0) (s.fget F.COOL_TCAP_TCAP_W 0)) % 2 ^ 11 ∧
      ∀ t, t < 128 → u.fget F.TPW_I_ILIM t ≤ s.limit16 t) ∧
    (∀ w long, s.pwr.clamp = none → s.fget F.PWR_CAP_PEAK_W 0 < w + 50 ∨ (long = true ∧ s.effCap < w) → ∃ u, exec (.peakClamp w long) s = .next u ∧
      u.pwr.clamp = some s.clk.ns ∧ u.fget F.PWR_CLAMPS_CLAMPS 0 = (s.fget F.PWR_CLAMPS_CLAMPS 0 + 1) % 2 ^ 32 ∧ u.flag F.PWR_STAT_PEAK_CLAMP 0 = true) ∧
    (∀ w a, s.pwr.clamp = some a → a + 10000 ≤ s.clk.ns → w < s.effCap →
      exec (.peakClampEnd w) s = .next { s with pwr := { s.pwr with clamp := none } }) ∧
    (∀ (t : Fin 128) rail at_, SMap.find s.pwr.waitOn t = some at_ → s.thm.off = false → s.quietNear t = true →
      (∀ e, e ∈ s.pwr.waitOn → e.1 < t → towerOf e.1 = towerOf t → s.quietNear e.1 = false) →
      100 * rail ≤ 680 * s.fget F.WPW_CFG_SEQ_THR (towerOf t) →
      (s.pwr.domOn.filter (fun u => towerOf u = towerOf t)).length < max 1 (s.fget F.WPW_CFG_SEQ_PAR (towerOf t)) →
      ∃ u, exec (.domainSwitchOn t rail) s = .next u ∧ u.pwr.domOn = s.pwr.domOn ++ [t.val] ∧
        (SMap.sortedFrom none s.pwr.waitOn = true → SMap.find u.pwr.waitOn t = none) ∧
        (at_ < s.clk.ns → u.fget F.WPW_SEQCNT_DELAYED (towerOf t) = (s.fget F.WPW_SEQCNT_DELAYED (towerOf t) + 1) % 2 ^ 16)) ∧
    (∀ (t : Fin 128) at_, SMap.find s.pwr.waitOn t = some at_ → at_ + 1000 * s.fget F.WPW_SEQ_WAIT_MAX (towerOf t) ≤ s.clk.ns →
      t.val ∉ s.pwr.asked → s.quietNear t = false → ∃ u, exec (.forcedSwitchOn t) s = .next u ∧ t.val ∈ u.pwr.asked ∧
        ∀ a, a ∈ adjacentTiles t → s.fget F.WPW_CFG_SEQ_THR (towerOf t) * s.limit16 a < 100 * s.fget F.TPW_I_I_NOW a →
          u.fget F.TPW_I_ILIM a ≤ s.seqLevel (towerOf t) a) ∧
    (∀ (t : Fin 128) portA, ((s.eng t).power = .lull1 ∧ (s.eng t).wake = true) ∨
        (((s.eng t).power = .lull2 ∨ (s.eng t).power = .off) ∧ t.val ∈ s.pwr.domOn) →
      ∃ u, exec (.engineWake ⟨t, portA⟩) s = .next u ∧ (u.eng t).power = .on ∧ (u.eng t).wake = false ∧ t.val ∉ u.pwr.domOn)

/-- R296 to R312: sensors, the model's update, the caps, coolant, and the idle states. -/
def Obligations.ThermalResults : Prop :=
  ∀ (s : State),
    (∀ (w : Fin 4) (i : Fin 138) (pred : Int),
      let key := 136 * w.val + i.val
      (i.val < 136 → s.trust w i ≠ 2 →
        (∃ u, exec (.sensorSample w i none pred) s = .next u ∧ u.trust w i = 2 ∧ u.flag F.THM_STAT_SUSPECT w = true) ∧
        (∀ x : Int, x < -320 ∨ 1200 < x → ∃ u, exec (.sensorSample w i (some x) pred) s = .next u ∧ u.trust w i = 2) ∧
        (∀ x : Int, -320 ≤ x → x ≤ 1200 → ∃ u, exec (.sensorSample w i (some x) pred) s = .next u ∧ u.trust w i = s.trust w i ∧
          let l := ((x :: SMap.get s.thm.samples key []).take 101).take 10
          (u.fget F.THM_SDATA_READING key = wrap 12 (Int.fdiv l.sum l.length) ∨
            (¬ (l.length : Int) ∣ l.sum ∧ u.fget F.THM_SDATA_READING key = wrap 12 (Int.fdiv l.sum l.length + 1))))) ∧
      (∀ x : Int, -320 ≤ x → x ≤ 1200 → 136 ≤ i.val → ∃ u, exec (.sensorSample w i (some x) pred) s = .next u ∧
        (if i.val = 136 then u.fget F.COOL_TEMP_OUTLET 0 else u.fget F.COOL_TEMP_INLET 0) = wrap 12 x)) ∧
    (∀ (w : Fin 4) es fs, exec (.thmModelUpdate w es fs) s = .next ((s.modelUpdate w es fs).calTook (1 + w))) ∧
    ((∀ w n, w < 4 → n < 576 → ¬(s.level w n = 7 ∧ s.throttleAt w n < s.nodeF w n) ∧ (n < 32 → s.level w n = 0)) →
      ∃ u, exec .thermalCapRise s = .next u ∧ u.thm = { s.thm with esc := s.thm.esc - 25 } ∧ u.fget F.COOL_TCAP_TCAP_W 0 = u.thermalCap % 2 ^ 11) ∧
    (∃ u target, exec .coolantCapUpdate s = .next u ∧ 300 ≤ target ∧ target ≤ 1200 ∧
      (let gs := (List.range 4).flatMap (fun w => (List.range 32).map (fun x => s.nodeG w (544 + x)))
       let tin := signed 12 (s.fget F.COOL_TEMP_INLET 0)
       let dt := gs.foldl max (gs.headD 0) - tin
       0 < s.fget F.PWR_AVG_AVG_W 0 → 0 < dt → target = max 300 (min 1200
         (Int.fdiv (2 * ((840 - s.thmDeg F.THM_CFG_GUARD 0 - tin) * (s.fget F.PWR_AVG_AVG_W 0 : Int)) + dt) (2 * dt)).toNat)) ∧
      u.thm.coolCap = (if target < s.thm.coolCap then max target (s.thm.coolCap - 10) else min target (s.thm.coolCap + 5)) ∧
      u.fget F.COOL_TCAP_TCAP_W 0 = u.thermalCap % 2 ^ 11) ∧
    (∃ u, exec .flowCount s = .next u ∧ u.thm.pulses = 0 ∧
      let flow := s.thm.pulses * s.fget F.COOL_CFG_ML_PP 0 * 6
      (flow < 65536 → u.fget F.COOL_FLOW_FLOW 0 = flow) ∧ u.condOn 0x41 0 = decide (flow < s.fget F.COOL_CFG_FLOW_MIN 0) ∧
      (flow < s.fget F.COOL_CFG_FLOW_MIN 0 → u.flag F.COOL_STAT_FLOW_LOW 0 = true)) ∧
    (∃ u, exec .flowPulse s = .next u ∧ u.thm.pulses = s.thm.pulses + 1 ∧ u.thm.lastPulse = s.clk.ns ∧ u.thm.flowFrom.isSome = true ∧ { u with thm := s.thm } = s) ∧
    (s.thm.lastPulse + s.lossGap ≤ s.clk.ns → s.coolState = 0 → s.thm.off = false → ∃ u, exec .coolantLossTimeout s = .next u ∧ u.coolState = 1 ∧
      u.flag F.COOL_STAT_LOSS 0 = true ∧ u.condOn 0x42 0 = true ∧ u.thm.lossCap = some (30 * s.effCap / 100) ∧ u.thm.lossClamp = true ∧
      u.brd.thermAlert = true) ∧
    (s.coolState = 1 → s.fget F.PWR_AVG_AVG_W 0 ≤ s.effCap → ∃ u, exec .coolantDrain s = .next u ∧ u.coolState = 2 ∧ u.thm.drainAt = s.clk.ns ∧
      ∀ q, q ∈ s.qpKeys → u.qpState q ≠ qpACTIVE) ∧
    (∀ m k, (s.coolState = 2 ∧ ((∀ q, q ∈ s.qpKeys → (s.qp q).ring.all (fun d => !d.started) = true) ∨
          s.thm.drainAt + 1000000 * s.fget F.COOL_CFG2_DRAIN_MS 0 ≤ s.clk.ns)) ∨ ((s.coolState = 1 ∨ s.coolState = 2) ∧ s.anyOver = true) →
      ∃ u, exec (.coolantShutdown m k) s = .next u ∧ u.thm.off = true ∧ u.mem = [] ∧
        (s.brd.pwrEn = true → u.coolState = 3 ∧ u.brd.thermAlert = true ∧ ∀ t, t < 128 → (u.eng t).power = .off ∨ (u.eng t).power = .fusedOff)) ∧
    (∀ a, s.thm.flowFrom = some a → a + 1000000000 ≤ s.clk.ns → s.clk.ns < s.thm.lastPulse + s.lossGap →
      exec .flowRestored s = .next { s with boot := { s.boot with flowOk := true } }) ∧
    (∀ w : Fin 4, ∃ u, exec (.clrSuspect w) s = .next u ∧ ∀ i, i < 136 → u.trust w i = if s.trust w i = 1 then 0 else s.trust w i) ∧
    (s.thm.hot = [] → (∀ w, w < 4 → SMap.get s.thm.calm w 0 + 10000000 ≤ s.clk.ns) → s.thm.esc = 0 → s.coolState = 0 → s.thm.off = false →
      exec .thermAlertRelease s = .next { s with brd := { s.brd with thermAlert := false } }) ∧
    (∀ t : Fin 128, s.engineIdle t = true → (s.eng t).wake = false →
      ((s.eng t).power = .on → ∃ u, exec (.lull1Entry t) s = .next u ∧ u.eng t = { s.eng t with power := .lull1 } ∧
        (∀ v, v ≠ t.val → u.eng v = s.eng v) ∧ u.spm = s.spm) ∧
      ((s.eng t).power = .on ∨ (s.eng t).power = .lull1 → ∃ u, exec (.lull2Entry t) s = .next u ∧ (u.eng t).power = .lull2 ∧ (∀ n, (u.eng t).s n = 0) ∧
        (∀ v, v ≠ t.val → u.eng v = s.eng v) ∧ ((s.eng t).wiping = [] → u.spm = s.spm))) ∧
    (∀ sums prods, s.flag F.LUL_STATE_SENTRY 0 = false → s.flag F.LUL_CFG_SEN_EN 0 = true → s.moduleIdle = true →
      (sums.map (fun x => (bitList x.2 16384).length)).sum ≤ 64 → ∃ u, exec (.sentryEntry sums prods) s = .next u ∧ u.flag F.LUL_STATE_SENTRY 0 = true ∧
        ∀ t, t < 128 → (u.eng t).power = .off ∨ (u.eng t).power = .fusedOff) ∧
    (∀ q p v sums prods, s.flag F.LUL_STATE_SENTRY 0 = true → (q, p) ∈ prods → SMap.find s.thm.senProd q = some v → v ≠ p →
      exec (.sentrySample sums prods) s = .next s.sentryExit)

/-- R316, R320, R321, R326 to R336: meters, periods, the ledger, leaves, batches, reconciliation, start, release, and RECEIPT_FETCH. -/
def Obligations.EnergyResults : Prop :=
  ∀ (s : State),
    (∀ id : Fin 142, s.meterBad id = false → ∃ u, exec (.meterFail id) s = .next u ∧ u.enr = { s.enr with failed := s.enr.failed ++ [id.val] } ∧
      u.flag F.ENR_STAT_METER 0 = true) ∧
    (∀ m p, p = 1000 * s.fget F.ENR_CFG_PERIOD_US 0 → s.gateOpen →
      s.clk.ns / p ≠ s.enr.pStart / p → ∃ u, exec (.periodEnd m) s = .next u ∧ u.enr.pStart = s.clk.ns ∧ (∀ x, x ∈ u.enr.use → x.stop_ = none) ∧
        u.kv.closed = [] ∧ (s.flag F.ENR_CTL_RUN 0 = true → u.enr.closing = [] ∧ u = { ((s.running (.periodEnd m)).periodEnd m).calTook 0 with gate := s.gate })) ∧
    (s.flag F.ENR_CTL_RUN 0 = true → s.gateOpen → s.enr.flushed + max 1 (s.fget F.ENR_CFG_RFLUSH_MS 0) * 1000000 ≤ s.clk.ns →
      ∃ u, exec .ledgerFlush s = .next u ∧ u.enr.flushed = s.clk.ns ∧
        u = { (s.enr.ledger.reverse.foldl (fun a x => a.ledgerOut x)
          { s.running .ledgerFlush with enr := { s.enr with flushed := s.clk.ns } } : State) with gate := s.gate }) ∧
    (s.flag F.ENR_CTL_RUN 0 = true → s.storeRoom = true → s.enr.count < 65536 → s.gateOpen →
      (∀ r l, s.enr.recQ = r :: l → ∃ u, exec .receiptTake s = .next u ∧ u.enr.recQ = l ∧ u.enr.count = s.enr.count + 1 ∧
        u.enr.stored = s.enr.stored + 1 ∧ u.mem = ((s.running .receiptTake).daWrite (s.leafDa s.enr.stored) r).1.mem) ∧
      (s.enr.recQ = [] → s.enr.taken < s.enr.queued → ∃ u, exec .receiptTake s = .next u ∧ u.enr.taken = s.enr.taken + 1 ∧
        u.enr.count = s.enr.count + 1 ∧ u.enr.stored = s.enr.stored + 1)) ∧
    (∀ qp idx w d, s.enr.wait.find? (fun w => w.qp == qp && w.didx == idx && !w.posted) = some w → s.descr qp idx = some d →
      w.at_ + 1000 * s.fget F.ENR_CFG_WAIT_US 0 ≤ s.clk.ns → ∃ u, exec (.receiptWaitExpiry qp idx) s = .next u ∧
        s.completed u qp d stOK 2 [] ∧ u.flag F.ENR_STAT_PENDING 0 = true) ∧
    (s.flag F.ENR_CTL_RUN 0 = true → s.gateOpen → s.enr.count ≠ 0 → s.enr.count = 65536 ∨ s.enr.opened + 1000000 * s.fget F.ENR_CFG_BATCH_MS 0 ≤ s.clk.ns →
      ∃ u, exec .batchClose s = .next u ∧ u.enr.batch = s.enr.batch + 1 ∧ u.enr.count = 0 ∧ u.enr.chain = false ∧
        SMap.find u.enr.batches s.enr.batch = some (s.enr.stored - s.enr.count, s.enr.count)) ∧
    (∀ b key, s.gateOpen → s.rcptSeed = some key → b ∈ s.enr.toSign → ∃ u, exec (.batchSign b) s = .next u ∧ b ∉ u.enr.toSign ∧
      u.rget .ENR_BATCH_LO 0 = BitVec.ofNat 32 b) ∧
    (s.flag F.ENR_CTL_RUN 0 = true → s.enr.secStart / 1000000000 ≠ s.clk.ns / 1000000000 → s.enr.recQ.length < 64 →
      ∃ u, exec .reconcile s = .next u ∧ u.enr.recQ.length = s.enr.recQ.length + 1 ∧ u.enr.sums = [0, 0, 0, 0, 0] ∧
        u.enr.secStart = 1000000000 * (s.clk.ns / 1000000000)) ∧
    (exec (.enrRun false) s = .next (s.fput F.ENR_CTL_RUN 0 0) ∧
      (s.flag F.ENR_CTL_RUN 0 = false → s.enrConfigOk = true → ∃ u, exec (.enrRun true) s = .next u ∧ u.flag F.ENR_CTL_RUN 0 = true ∧
        u.enr.pStart = s.clk.ns ∧ u.enr.secStart = s.clk.ns ∧ (s.enr.count = 0 → u.enr.opened = s.clk.ns)) ∧
      (s.flag F.ENR_CTL_RUN 0 = false → s.enrConfigOk = false → exec (.enrRun true) s = .next (s.event F.ENR_STAT_CFG_ERR 0))) ∧
    (∀ lo : Word, s.gateOpen → let rel := lo.toNat + 2 ^ 32 * s.fget F.ENR_REL_HI_REL 0
      ∃ u, exec (.enrRelease lo) s = .next u ∧ u.rget .ENR_REL_LO 0 = lo ∧ u.enr.batches = s.enr.batches.filter (fun e => decide (rel < e.1)) ∧
        u.enr.toSign = s.enr.toSign.filter (fun b => decide (rel < b))) ∧
    (∀ qp idx d, s.gateOpen → s.hostOpen = true → s.starts qp idx 0x40 d →
      let s1 := (s.running (.receiptFetch qp idx)).markStarted qp d
      s1.headVerdict qp (s.going d) (bodyZero (s.going d) [(16, 20)]) false = none → ∃ u, exec (.receiptFetch qp idx) s = .next u ∧
        let b := d.leaf / 65536
        let pos := d.leaf % 65536
        (d.u 32 4 < 4080 → s.completed u qp d stBUF_SMALL 0 (leBytes 4 4080)) ∧
        (4080 ≤ d.u 32 4 →
          (SMap.find s.enr.batches b = none → ¬(b = s.enr.batch ∧ pos < s.enr.count) → s.completed u qp d stLEAF_UNKNOWN 0 []) ∧
          (SMap.find s.enr.batches b = none → b = s.enr.batch → pos < s.enr.count → (qp, idx) ∈ u.enr.fetches ∧ u.descr qp idx = some (s.going d)) ∧
          ∀ first n, SMap.find s.enr.batches b = some (first, n) →
            (n ≤ pos → s.completed u qp d stLEAF_UNKNOWN 0 []) ∧
            (pos < n → b ∈ s.enr.toSign → (qp, idx) ∈ u.enr.fetches ∧ u.descr qp idx = some (s.going d)) ∧
            (pos < n → b ∉ s.enr.toSign →
              let s2 : State := { s1 with enr := { s1.enr with fetches := (s1.enr.fetches ++ [(qp, idx)]).filter (· ≠ (qp, idx)) } }
              ∀ h, (s2.daRead (s2.batchDa b) 3440 4).2 = (h, none) →
              s.completed u qp d (if bitOf (leAt h 120 1) 1 then stUNSIGNED else stOK) 0 (leBytes 4 4080))))

/-- R366 to R370: the partner's messages, enabling, the end of a digest, a summary that does not come, a record cleared. -/
def Obligations.LockstepResults : Prop :=
  ∀ (s : State),
    (∀ i msn m, s.gateOpen → s.arrives i msn (isOp opLSTEP) m → i = s.lckPeer →
      let r := (s.running (.lstepDigest i msn)).took i m
      let fin (x : State) : Out := .next { (if i = s.self then x.endAcked i else x) with gate := s.gate }
      (m.arg0 = 2 ^ 64 - 1 → ∃ u, exec (.lstepDigest i msn) s = .next u ∧ u.lck.peerFw = some (padTo 32 m.data)) ∧
      (m.arg0 ≠ 2 ^ 64 - 1 → s.lck.live = true → 64 ≤ m.data.length →
        let n := m.arg0 % 2 ^ 32
        let x := summOf n m.data
        let held := s.lck.peer.any (fun y => y.num == n)
        (s.lck.own.find? (fun y => y.num == n) = none → s.lckOpen n = true → held = false →
          exec (.lstepDigest i msn) s = fin { r with lck := { r.lck with peer := r.lck.peer ++ [x] } }) ∧
        ∀ a, s.lck.own.find? (fun y => y.num == n) = some a →
          (held = false → exec (.lstepDigest i msn) s = fin (r.lckCompare a x)) ∧
          (held = true → x.entries ≠ [] → exec (.lstepDigest i msn) s = fin (r.lckLocate a x)))) ∧
    (∀ v, ∃ u, exec (.lockstepEnable v) s = .next u ∧ u.flag F.LCK_CTL_EN 0 = v ∧ u.lck.live = v ∧ u.lck.own = [] ∧ u.lck.peer = [] ∧
      (v = true → u.fget F.LCK_NUM_NUM 0 = 0)) ∧
    (∀ num d, s.gateOpen → s.lck.due.find? (fun d => d.2.num == num) = some d → ∃ u, exec (.digestDone num) s = .next u ∧ d ∉ u.lck.due ∧
      (d.1 = none → s.lck.live = true → s.lck.peer.any (fun y => y.num == num) = false →
        u.lck.own = s.lck.own ++ [{ d.2 with digest := zeros 32 }])) ∧
    (∀ num, s.lck.live = true → s.lck.own.any (fun y => y.num == num) = true → s.lck.peer.any (fun y => y.num == num) = false →
      ∃ u, exec (.lockstepTimeout num) s = .next u ∧ u.lck.own = s.lck.own.filter (fun y => y.num ≠ num) ∧
        if s.flag F.LCK_DIV_LOC_VALID 0 then u.fget F.LCK_DIVCNT_COUNT 0 = (s.fget F.LCK_DIVCNT_COUNT 0 + 1) % 2 ^ 32
        else u.fget F.LCK_DIV_NUM_NUM 0 = num % 2 ^ 32 ∧ u.fget F.LCK_DIV_PT_CAUSE 0 = dvTIMEOUT ∧ u.flag F.LCK_DIV_LOC_VALID 0 = true ∧
          u.flag F.LCK_STAT_DIVERGE 0 = true) ∧
    exec .divClear s = .next (((s.rput .LCK_DIV_NUM 0 0).rput .LCK_DIV_LOC 0 0).rput .LCK_DIV_PT 0 0)

/-- R347, R348, R372 to R379, R408, R446: how each stage of start-up ends, the boot load, and what lets a waiting module go on. -/
def Obligations.BootResults : Prop :=
  ∀ (s : State),
    let stops (u : State) (n : Nat) : Prop := u.stage = n ∧ u.flag F.BOOT_STAT_FAIL 0 = true
    (∀ good bad, s.inStage 0 = true → ∃ u, exec (.stage0 good bad) s = .next u ∧ u.clk.ns = 0 ∧ u.flt.clearing = false ∧
      (if good = true ∧ bad = [] then u.stage = 1 ∧ u.flag F.BOOT_STAT_FAIL 0 = false else stops u 0) ∧
      (bad ≠ [] → u.flag F.SEC_STAT_ID_BAD 0 = true)) ∧
    (∀ bad, s.inStage 1 = true → s.pcie.perst = false → ∃ u, exec (.stage1 bad) s = .next u ∧
      (s.linkUp = true → u.stage = 2 ∧ u.pcie.ready = true ∧ u.conf = s.flag F.SEC_CONF_NEXT 0 ∧ u.flag F.SEC_CONF_IDE_REQ 0 = s.sec.ideNext) ∧
      (s.linkUp = false → u.stage = 1 ∧ u.pcie = s.pcie ∧ u.flag F.BOOT_STAT_FAIL 0 = false)) ∧
    (s.inStage 2 = true → s.fw.running = true → ∃ u, exec .stage2 s = .next u ∧ u.stage = 3) ∧
    (s.inStage 2 = true → s.fw.running = false → s.fget F.FWB_STAT_STATE 0 ≠ fbLOADING → s.linkUp = true → s.hostOpen = true →
      exec .bootLoadGo s = .next (s.fput F.FWB_STAT_STATE 0 fbLOADING)) ∧
    (s.inStage 2 = true → s.fw.running = false → s.fw.recovery = false → s.fget F.FWB_STAT_STATE 0 = fbWAIT → SMap.get s.boot.attempts 2 0 = 0 →
      s.boot.began + 10 ^ 10 ≤ s.clk.ns →
      ∃ u, exec .bootTimeout s = .next u ∧
        if s.fw.recValid = true ∧ s.imageCause (imageOf (s.boot.recImg.getD Config.recImage)) [3] = 0 then
          u.fw.recovery = true ∧ u.fget F.FWB_STAT_STATE 0 = fbRECOVERY ∧ u.fget F.FWB_STAT_CAUSE 0 = 8
        else u.fw.recovery = false ∧ u.fget F.FWB_STAT_STATE 0 = fbWAIT ∧ u.fget F.FWB_STAT_CAUSE 0 = 9) ∧
    (∀ temp islands domains other, s.inStage 3 = true → s.boot.flowOk = true → ∃ u, exec (.stage3 temp islands domains other) s = .next u ∧
      u.fget F.BOOT_STAT_BAND 0 = bandOf temp ∧
      if other = true ∨ ∃ i, i ∈ islands ∧ 128 ≤ i.val then stops u 3
      else u.stage = 4 ∧ ∀ t, t ∈ u.enabledTiles → (u.eng t).power = .on) ∧
    (∀ all full, s.inStage 4 = true →
      let r := (List.range 2048).foldl (fun (a : State × List Nat) i =>
        match full.find? (fun x => x.1.val == i), s.savedSet.bind (fun x => SMap.find x.train i) with
        | none, some w => (a.1.rput .VCH_TRAIN_L i w, a.2)
        | own, _ =>
          let m := (own.map (·.2)).getD all
          let t := a.1.trainLayer (i / 16) (i % 16) m.1.toNat m.2.1.toNat m.2.2
          (t.1, if t.2 then a.2 else a.2 ++ [layerLoc (i / 16) (i % 16)])) (s, [])
      ∃ u, exec (.stage4 all full) s = .next u ∧ (∀ i, i < 2048 → u.rget .VCH_TRAIN_L i = r.1.rget .VCH_TRAIN_L i) ∧
        if r.2 = [] then u.stage = 5 else stops u 4) ∧
    (∀ repairs bad, s.inStage 5 = true → ∃ u, exec (.stage5 repairs bad) s = .next u ∧
      (if s.savedSet.isSome = true ∧ s.sec.zeroFlag = false then u.mem = s.mem else u.mem = [] ∧ u.sec.zeroFlag = false) ∧
      (bad ≠ [] → stops u 5) ∧ (bad = [] → repairs = [] → u.stage = 6)) ∧
    (∀ failed, s.inStage 6 = true → ∃ u, exec (.stage6 failed) s = .next u ∧
      (∀ t, t ∈ failed → s.disabled t = false → (s.eng t).power ≠ .fusedOff → (u.eng t).fenced = true) ∧
      let n := u.enabledTiles.length
      if n = s.fget F.GLB_IDENT_GRADE 0 ∨ s.fget F.BOOT_CFG_MIN_TILES 0 ≤ n then u.stage = 7 else stops u 6) ∧
    (∀ failed, s.inStage 7 = true → ∃ u, exec (.stage7 failed) s = .next u ∧
      if failed.filter (fun x => linkThere x.1 x.2) = [] then u.stage = 8 ∧ u.clk.mc = 0 else stops u 7) ∧
    (s.inStage 8 = true → s.waits8 = false → ∃ u, exec .stage8 s = .next u ∧
      (∀ p, p ∈ s.portsOn → s.portState p = fpOFF → u.portState p = fpTRAIN ∧ (u.port p).attempt = some 0) ∧
      ((∀ p, p ∈ s.portsOn → s.portState p ≠ fpOFF ∧ s.portState p ≠ fpTRAIN) → s.fget F.BOOT_CFG_MIN_PORTS 0 ≤ (s.portsOn.filter s.portLive).length → u.stage = 9)) ∧
    (∀ v : Fin 16, ∃ u, exec (.minPortsWrite v) s = .next u ∧ u.fget F.BOOT_CFG_MIN_PORTS 0 = v.val ∧
      (s.waits8 = true → v.val ≤ (s.portsOn.filter s.portLive).length → u.stage = 9) ∧ (s.waits8 = false → u.stage = s.stage)) ∧
    (s.inStage 9 = true → ∃ u, exec .stage9 s = .next u ∧ u.flag F.BOOT_STAT_READY 0 = true ∧ (∀ t, t < 128 → u.fget F.VCH_CFG_CMODE t = 0) ∧
      (s.flag F.BOOT_CFG_SAVE_EN 0 = true → ∃ x, SMap.find u.boot.saved (s.fget F.BOOT_STAT_BAND 0) = some x ∧ x.key = s.savedKey)) ∧
    exec .clrSaved s = .next { s with boot := { s.boot with saved := [] } }

/-! ### Stated rules -/

/-- R426: in every status register an event sets its bit and adds one to SEQ, even when the bit is set; a write with the current SEQ clears
every event bit; a write with another changes nothing in the register, sets `GLB_STAT.SQC_STALE` and records the offset; bits 15:0 of a write
are ignored. -/
def Obligations.SequenceStatus : Prop :=
  (∀ (r : Reg) (i : Nat) (s : State) (x : Field), r.isStatus = true → x ∈ r.fields → x.lo < 16 →
    let old := (s.rget r i).toNat
    let new := ((s.event x i).rget r i).toNat
    bits new 31 16 = (bits old 31 16 + 1) % 2 ^ 16 ∧ bitOf new x.lo = true ∧ (∀ b, b < 16 → b ≠ x.lo → bitOf new b = bitOf old b)) ∧
  ∀ (f : Fin 257) (off : Nat) (w : Word) (r : Reg) (i : Nat) (s : State),
    s.regAt f off = some (r, i) → r.isStatus = true → s.regStarted r i = true → s.regShut r i = false →
    (bits w.toNat 31 16 = bits (s.rget r i).toNat 31 16 → ∃ u, exec (.sqcWrite f off w) s = .next u ∧
      bits (u.rget r i).toNat 31 16 = bits (s.rget r i).toNat 31 16 ∧ bits (u.rget r i).toNat 15 0 = 0 ∧ s.sameRegs u [r] ∧
      (∀ j, j ≠ i → u.rget r j = s.rget r j) ∧ { u with regs := s.regs } = s) ∧
    (bits w.toNat 31 16 ≠ bits (s.rget r i).toNat 31 16 → ∃ u, exec (.sqcWrite f off w) s = .next u ∧
      u.flag F.GLB_STAT_SQC_STALE 0 = true ∧ u.fget F.GLB_SQC_LAST_OFFSET 0 = regOffset r i % 2 ^ 26 ∧ (r ≠ .GLB_STAT → u.rget r i = s.rget r i) ∧
      s.sameRegs u [.GLB_STAT, .GLB_SQC_LAST] ∧ { u with regs := s.regs } = s) ∧
    ∀ v : Word, bits v.toNat 31 16 = bits w.toNat 31 16 → exec (.sqcWrite f off v) s = exec (.sqcWrite f off w) s

/-- R152: a GO launches a core that is IDLE, DONE or ERROR, whose counters it clears; in any other state it is ignored and flagged, and so
is any GO on a part without bank-side cores. (The write is one that reaches the core.) -/
def Obligations.GoResults : Prop :=
  ∀ (t : Fin 128) (c : Fin 64) (src : By) (s : State), s.passes 0 src → s.hostDenied src.isHost = false →
    let i := coreIdx t c
    (s.flag F.GLB_FEATURES_BSC 0 = true → s.coreBusy t c = false → ∃ u, exec (.bscGo t c src) s = .next u ∧ u.cstate t c = csWAIT ∧
      u.get64 .BSC_CYCLES_LO .BSC_CYCLES_HI i = 0 ∧ u.get64 .BSC_STALLS_LO .BSC_STALLS_HI i = 0 ∧ u.rget .BSC_PAUSES_REF i = 0 ∧
      u.rget .BSC_PAUSES_LEASE i = 0 ∧ u.rget .BSC_XCOLL i = 0 ∧ (u.core t c).token = false ∧ (u.core t c).row = none ∧ u.gate = s.gate ∧
      (u.core t c).since = s.clk.mc ∧ (∀ v d, d < 64 → v ≠ t.val ∨ d ≠ c.val → u.core v d = s.core v d)) ∧
    (s.flag F.GLB_FEATURES_BSC 0 = true → s.coreBusy t c = true → exec (.bscGo t c src) s = .next (s.event F.BSC_STAT_BUSY_GO t)) ∧
    (s.flag F.GLB_FEATURES_BSC 0 = false → exec (.bscGo t c src) s = .next (s.event F.BSC_STAT_UNSUP t))

/-! ### The step, reset, invariants and frames -/

/-- A step takes the command at the front of the queue and does what it does, with the rest of the queue waiting. -/
def Obligations.StepTakesFront : Prop :=
  ∀ (c : Instr) (rest : List Instr) (s : State), s.pending = c :: rest → step s = exec c { s with pending := rest }

/-- Reset: nothing waits, memory and scratchpads list nothing, the invariants below hold, and the fields named here have the reset values
that the field tables give them; engines are off, queue pairs DISABLED, cores IDLE, ports OFF. Which point of start-up this state is, and what
memory reads as that nothing has written, are the model's choices (log entries 1 and 4). -/
def Obligations.ResetState : Prop :=
  State.reset.pending = [] ∧ State.reset.gateOpen ∧ State.reset.memOk ∧ State.reset.spmOk ∧ State.reset.boardOk ∧ State.reset.idOk ∧
  (∀ p, Memory.get State.reset.mem p = 0) ∧
  State.reset.fget F.MXA_CFG_FRZ_LIM 5 = 20 ∧ State.reset.fget F.VCH_SCRUB_INT 127 = 214 ∧ State.reset.fget F.THM_CFG_MARGIN 0 = 3 ∧
  State.reset.fget F.THM_CFG_GUARD 0 = 5 ∧ State.reset.fget F.THM_CFG_ALERT_OFS 0 = 5 ∧ State.reset.fget F.EDY_CFG_PROT 0 = 3072 ∧
  State.reset.fget F.CMD_QP_STATE_STATE 100 = qpDISABLED ∧ State.reset.cstate 3 7 = csIDLE ∧ State.reset.portState 7 = fpOFF ∧
  State.reset.fget F.BOOT_STAT_STAGE 0 = 0 ∧ State.reset.flag F.BOOT_STAT_READY 0 = false ∧ State.reset.phase = phIDLE ∧
  (∀ t, t < 128 → (State.reset.eng t).power = (if bitOf Config.fuseMap t then .fusedOff else .off))

/-- Every step keeps device memory, and the scratchpads, in their canonical form. -/
def Obligations.StepKeepsForms : Prop :=
  ∀ s u : State, s.memOk → s.spmOk → step s = .next u → u.memOk ∧ u.spmOk

/-- R286, R443, R449: every step keeps what the board guarantees: the sideband cap lies in its range, a disconnected input carries no
voltage, the converters run only with input power. -/
def Obligations.StepKeepsBoard : Prop :=
  ∀ s u : State, s.boardOk → step s = .next u → u.boardOk

/-- R1, R4, R339: no command changes what the fuses give the part: identity, features, serial number and fuse map. -/
def Obligations.StepKeepsIdentity : Prop :=
  ∀ s u : State, s.idOk → step s = .next u → u.idOk

/-- Every command completes in every state, and leaves the queue alone. -/
def Obligations.CommandsComplete : Prop :=
  ∀ (c : Instr) (s : State), ∃ u, exec c s = .next u ∧ u.pending = s.pending

/-- Frame: a command leaves every part of the state alone but those that `partsOf` gives it. -/
def Obligations.CommandsKeepParts : Prop :=
  ∀ (c : Instr) (s u : State) (p : Part), exec c s = .next u → p ∉ partsOf c → s.samePart u p

/-- Frame: a command leaves every register alone but those that `regsOf` gives it. -/
def Obligations.CommandsKeepRegisters : Prop :=
  ∀ (c : Instr) (s u : State), exec c s = .next u → s.sameRegs u (regsOf c)

end Slice0Statements
end

