-- ==== Sys2Proof/Laws/Mem.lean ====
section
/-! SUPPORT. The sorted maps and device memory: reads after writes, and the canonical form that every operation keeps. -/

namespace Sys2Proof.Machine

/-! ### Sorted maps -/

theorem SMap.sortedFrom_mono {α : Type} {lo lo' : Nat} (h : lo ≤ lo') : ∀ {m : SMap α},
    SMap.sortedFrom (some lo') m = true → SMap.sortedFrom (some lo) m = true
  | [], _ => rfl
  | (k, a) :: m, hm => by
    simp only [SMap.sortedFrom, Bool.and_eq_true, decide_eq_true_eq] at hm ⊢
    exact ⟨by omega, hm.2⟩
theorem SMap.sortedFrom_none {α : Type} {lo : Nat} : ∀ {m : SMap α}, SMap.sortedFrom (some lo) m = true → SMap.sortedFrom none m = true
  | [], _ => rfl
  | (k, a) :: m, hm => by
    simp only [SMap.sortedFrom, Bool.and_eq_true] at hm ⊢
    exact hm.2
theorem SMap.find_of_lt {α : Type} {lo k : Nat} (h : k ≤ lo) : ∀ {m : SMap α}, SMap.sortedFrom (some lo) m = true → SMap.find m k = none
  | [], _ => rfl
  | (k', a) :: m, hm => by
    simp only [SMap.sortedFrom, Bool.and_eq_true, decide_eq_true_eq] at hm
    simp only [SMap.find]
    rw [if_neg (by omega), if_pos (by omega)]

/-- A read after a write of the same key. -/
theorem SMap.find_put_same {α : Type} (k : Nat) (a : α) : ∀ m : SMap α, SMap.find (SMap.put m k a) k = some a
  | [] => by simp [SMap.put, SMap.find]
  | (k', a') :: m => by
    simp only [SMap.put]
    split
    · simp [SMap.find]
    · split
      · simp [SMap.find]
      · simp only [SMap.find]
        rw [if_neg ‹_›, if_neg ‹_›]
        exact SMap.find_put_same k a m
/-- A read after a write of another key. -/
theorem SMap.find_put_other {α : Type} {k j : Nat} (a : α) (h : j ≠ k) : ∀ m : SMap α,
    SMap.find (SMap.put m k a) j = SMap.find m j
  | [] => by simp [SMap.put, SMap.find, h]
  | (k', a') :: m => by
    simp only [SMap.put]
    split
    · subst_vars
      simp only [SMap.find]
      rw [if_neg h]
      split <;> rfl
    · split
      · simp only [SMap.find]
        rw [if_neg h]
        split
        · rw [if_neg (by omega), if_pos (by omega)]
        · rfl
      · simp only [SMap.find]
        split
        · rfl
        · split
          · rfl
          · exact SMap.find_put_other a h m
theorem SMap.find_del_same {α : Type} (k : Nat) : ∀ m : SMap α, SMap.sortedFrom none m = true → SMap.find (SMap.del m k) k = none
  | [], _ => rfl
  | (k', a') :: m, hm => by
    simp only [SMap.sortedFrom] at hm
    simp only [SMap.del]
    split
    · exact SMap.find_of_lt (by omega) hm
    · split
      · simp only [SMap.find]
        rw [if_neg ‹_›, if_pos ‹_›]
      · simp only [SMap.find]
        rw [if_neg ‹_›, if_neg ‹_›]
        exact SMap.find_del_same k m (SMap.sortedFrom_none hm)
theorem SMap.find_del_other {α : Type} {k j : Nat} (h : j ≠ k) : ∀ m : SMap α, SMap.sortedFrom none m = true →
    SMap.find (SMap.del m k) j = SMap.find m j
  | [], _ => rfl
  | (k', a') :: m, hm => by
    simp only [SMap.sortedFrom] at hm
    simp only [SMap.del]
    split
    · subst_vars
      simp only [SMap.find]
      rw [if_neg h]
      split
      · exact SMap.find_of_lt (by omega) hm
      · rfl
    · split
      · rfl
      · simp only [SMap.find]
        split
        · rfl
        · split
          · rfl
          · exact SMap.find_del_other h m (SMap.sortedFrom_none hm)

theorem SMap.sortedFrom_put {α : Type} (k : Nat) (a : α) : ∀ (lo : Nat) (m : SMap α), lo < k → SMap.sortedFrom (some lo) m = true →
    SMap.sortedFrom (some lo) (SMap.put m k a) = true
  | lo, [], h, _ => by simp [SMap.put, SMap.sortedFrom, h]
  | lo, (k', a') :: m, h, hm => by
    simp only [SMap.sortedFrom, Bool.and_eq_true, decide_eq_true_eq] at hm
    simp only [SMap.put]
    split
    · subst_vars
      simp [SMap.sortedFrom, h, hm.2]
    · split
      · simp [SMap.sortedFrom, hm.2, *]
      · simp only [SMap.sortedFrom, Bool.and_eq_true, decide_eq_true_eq]
        exact ⟨hm.1, SMap.sortedFrom_put k a k' m (by omega) hm.2⟩
theorem SMap.sorted_put {α : Type} (k : Nat) (a : α) : ∀ m : SMap α, SMap.sortedFrom none m = true → SMap.sortedFrom none (SMap.put m k a) = true
  | [], _ => rfl
  | (k', a') :: m, hm => by
    simp only [SMap.sortedFrom] at hm
    simp only [SMap.put]
    split
    · subst_vars
      exact hm
    · split
      · simp only [SMap.sortedFrom, Bool.and_eq_true, decide_eq_true_eq]
        exact ⟨by omega, hm⟩
      · simp only [SMap.sortedFrom]
        exact SMap.sortedFrom_put k a k' m (by omega) hm
theorem SMap.sortedFrom_del {α : Type} (k : Nat) : ∀ (lo : Nat) (m : SMap α), SMap.sortedFrom (some lo) m = true →
    SMap.sortedFrom (some lo) (SMap.del m k) = true
  | _, [], _ => rfl
  | lo, (k', a') :: m, hm => by
    simp only [SMap.sortedFrom, Bool.and_eq_true, decide_eq_true_eq] at hm
    simp only [SMap.del]
    split
    · exact SMap.sortedFrom_mono (by omega) hm.2
    · split
      · simp [SMap.sortedFrom, hm.1, hm.2]
      · simp only [SMap.sortedFrom, Bool.and_eq_true, decide_eq_true_eq]
        exact ⟨hm.1, SMap.sortedFrom_del k k' m hm.2⟩
theorem SMap.sorted_del {α : Type} (k : Nat) : ∀ m : SMap α, SMap.sortedFrom none m = true → SMap.sortedFrom none (SMap.del m k) = true
  | [], _ => rfl
  | (k', a') :: m, hm => by
    simp only [SMap.sortedFrom] at hm
    simp only [SMap.del]
    split
    · exact SMap.sortedFrom_none hm
    · split
      · exact hm
      · exact SMap.sortedFrom_del k k' m hm
theorem SMap.sorted_set {α : Type} [DecidableEq α] (k : Nat) (a d : α) (m : SMap α) (h : SMap.sortedFrom none m = true) :
    SMap.sortedFrom none (SMap.set m k a d) = true := by
  unfold SMap.set
  split
  · exact SMap.sorted_del k m h
  · exact SMap.sorted_put k a m h
theorem SMap.get_set_same {α : Type} [DecidableEq α] (k : Nat) (a d : α) (m : SMap α) (h : SMap.sortedFrom none m = true) :
    SMap.get (SMap.set m k a d) k d = a := by
  unfold SMap.set SMap.get
  split
  · rw [SMap.find_del_same k m h]; simp [*]
  · rw [SMap.find_put_same]; rfl
theorem SMap.get_set_other {α : Type} [DecidableEq α] {k j : Nat} (a d : α) (hj : j ≠ k) (m : SMap α) (h : SMap.sortedFrom none m = true) :
    SMap.get (SMap.set m k a d) j d = SMap.get m j d := by
  unfold SMap.set SMap.get
  split
  · rw [SMap.find_del_other hj m h]
  · rw [SMap.find_put_other a hj m]
theorem SMap.all_put {α : Type} (p : Nat × α → Bool) (k : Nat) (a : α) (hp : p (k, a) = true) : ∀ m : SMap α, m.all p = true →
    (SMap.put m k a).all p = true
  | [], _ => by simp [SMap.put, hp]
  | (k', a') :: m, hm => by
    simp only [List.all_cons, Bool.and_eq_true] at hm
    simp only [SMap.put]
    split
    · simp [hp, hm.2]
    · split
      · simp [hp, hm.1, hm.2]
      · simp [hm.1, SMap.all_put p k a hp m hm.2]
theorem SMap.all_del {α : Type} (p : Nat × α → Bool) (k : Nat) : ∀ m : SMap α, m.all p = true → (SMap.del m k).all p = true
  | [], _ => rfl
  | (k', a') :: m, hm => by
    simp only [List.all_cons, Bool.and_eq_true] at hm
    simp only [SMap.del]
    split
    · exact hm.2
    · split
      · simp [hm.1, hm.2]
      · simp [hm.1, SMap.all_del p k m hm.2]

/-! ### Device memory -/

theorem Memory.wf_nil : Memory.wf [] = true := rfl
/-- A stored byte keeps the canonical form. -/
theorem Memory.wf_set (m : List Host.Cell) (a : Nat) (b : Byte) (h : Memory.wf m = true) : Memory.wf (Memory.set m a b) = true := by
  unfold Memory.wf at *
  rw [Bool.and_eq_true] at *
  refine ⟨SMap.sorted_set a b memDefault m h.1, ?_⟩
  unfold Memory.set SMap.set
  split
  · exact SMap.all_del _ a m h.2
  · exact SMap.all_put _ a b (by simp [*]) m h.2
/-- Stored bytes keep the canonical form. -/
theorem Memory.wf_setBytes : ∀ (bs : List Byte) (m : List Host.Cell) (a : Nat), Memory.wf m = true → Memory.wf (Memory.setBytes m a bs) = true
  | [], _, _, h => h
  | b :: bs, m, a, h => Memory.wf_setBytes bs _ (a + 1) (Memory.wf_set m a b h)
/-- A byte reads as it was stored. -/
theorem Memory.get_set_same (m : List Host.Cell) (a : Nat) (b : Byte) (h : Memory.wf m = true) : Memory.get (Memory.set m a b) a = b :=
  SMap.get_set_same a b memDefault m (by unfold Memory.wf at h; rw [Bool.and_eq_true] at h; exact h.1)
/-- Every other byte is left alone. -/
theorem Memory.get_set_other (m : List Host.Cell) {a j : Nat} (b : Byte) (hj : j ≠ a) (h : Memory.wf m = true) :
    Memory.get (Memory.set m a b) j = Memory.get m j :=
  SMap.get_set_other b memDefault hj m (by unfold Memory.wf at h; rw [Bool.and_eq_true] at h; exact h.1)
/-- Bytes outside a stored run are left alone. -/
theorem Memory.get_setBytes_other : ∀ (bs : List Byte) (m : List Host.Cell) (a j : Nat), (j < a ∨ a + bs.length ≤ j) → Memory.wf m = true →
    Memory.get (Memory.setBytes m a bs) j = Memory.get m j
  | [], _, _, _, _, _ => rfl
  | b :: bs, m, a, j, hj, h => by
    simp only [List.length_cons] at hj
    simp only [Memory.setBytes]
    rw [Memory.get_setBytes_other bs _ (a + 1) j (by omega) (Memory.wf_set m a b h)]
    exact Memory.get_set_other m b (by omega) h

/-- Every memory operation keeps the canonical form: a stored word, a poisoned word, the write-back of an atom, the power-off of memory. -/
theorem State.putWord_wf (s : State) (pl : Nat) (bs : List Byte) (h : Memory.wf s.mem = true) : Memory.wf (s.putWord pl bs).mem = true :=
  Memory.wf_setBytes bs s.mem pl h
theorem State.putPoison_wf (s : State) (pl : Nat) (bs : List Byte) (h : Memory.wf s.mem = true) : Memory.wf (s.putPoison pl bs).mem = true :=
  Memory.wf_setBytes bs s.mem pl h
theorem State.foldl_wf {α : Type} (f : State → α → State) (hf : ∀ s a, Memory.wf s.mem = true → Memory.wf (f s a).mem = true) :
    ∀ (l : List α) (s : State), Memory.wf s.mem = true → Memory.wf (l.foldl f s).mem = true
  | [], _, h => h
  | a :: l, s, h => State.foldl_wf f hf l (f s a) (hf s a h)
theorem State.writeBack_wf (s : State) (pl : Nat) (ws : List (List Byte × Check)) (h : Memory.wf s.mem = true) :
    Memory.wf (s.writeBack pl ws).mem = true := by
  unfold State.writeBack
  refine State.foldl_wf _ (fun s p hs => ?_) _ _ h
  split
  · exact State.putWord_wf _ _ _ hs
  · exact State.putWord_wf _ _ _ hs
  · exact hs

end Sys2Proof.Machine
end

