-- ==== Sys2Proof/Laws/State.lean ====
section
/-! SUPPORT. Reads after writes of the registers, fields and records, and what each update leaves alone. -/

namespace Sys2Proof.Machine

/-! ### Registers -/

/-- Register numbers of the model fit below 512, so that `Reg.key` keeps register and index apart. -/
theorem Reg.ctorIdx_lt (r : Reg) : r.ctorIdx < 512 := by cases r <;> decide
theorem Reg.ctorIdx_inj {r q : Reg} (h : r.ctorIdx = q.ctorIdx) : r = q := by
  have hr : Reg.ofNat r.ctorIdx = r := Reg.ofNat_ctorIdx r
  have hq : Reg.ofNat q.ctorIdx = q := Reg.ofNat_ctorIdx q
  rw [← hr, ← hq, h]
@[simp] theorem Reg.key_inj {r q : Reg} {i j : Nat} : r.key i = q.key j ↔ r = q ∧ i = j := by
  constructor
  · intro h
    have h1 := Reg.ctorIdx_lt r
    have h2 := Reg.ctorIdx_lt q
    unfold Reg.key at h
    exact ⟨Reg.ctorIdx_inj (by omega), by omega⟩
  · rintro ⟨rfl, rfl⟩
    rfl
@[simp] theorem State.rget_rput_same (s : State) (r : Reg) (i : Nat) (w : Word) : (s.rput r i w).rget r i = w := by
  simp [State.rget, State.rput, SMap.find_put_same]
theorem State.rget_rput_other (s : State) {r q : Reg} {i j : Nat} (w : Word) (h : ¬ (q = r ∧ j = i)) :
    (s.rput r i w).rget q j = s.rget q j := by
  unfold State.rget State.rput
  rw [SMap.find_put_other w (by rw [ne_eq, Reg.key_inj]; exact h)]
/-- A read after a write of any register. -/
theorem State.rget_rput (s : State) (r q : Reg) (i j : Nat) (w : Word) :
    (s.rput r i w).rget q j = if q = r ∧ j = i then w else s.rget q j := by
  split
  · rename_i h
    rw [h.1, h.2, State.rget_rput_same]
  · exact State.rget_rput_other s w ‹_›

/-! ### Fields -/

theorem bits_lt (n hi lo : Nat) : bits n hi lo < 2 ^ (hi + 1 - lo) := Nat.mod_lt _ (Nat.two_pow_pos _)
theorem bits_testBit (n hi lo k : Nat) : (bits n hi lo).testBit k = (decide (k < hi + 1 - lo) && n.testBit (lo + k)) := by
  simp [bits, Nat.testBit_mod_two_pow, Nat.testBit_div_two_pow, Nat.add_comm]
/-- The bits of a word with a field replaced. -/
theorem setBits_testBit (n hi lo v k : Nat) (h : lo ≤ hi) :
    (setBits n hi lo v).testBit k = if lo ≤ k ∧ k ≤ hi then v.testBit (k - lo) else n.testBit k := by
  have hs : setBits n hi lo v = (n / 2 ^ (hi + 1)) * 2 ^ (hi + 1) + ((v % 2 ^ (hi + 1 - lo)) * 2 ^ lo + n % 2 ^ lo) := by
    unfold setBits bits
    rw [Nat.mul_comm (2 ^ lo) (n / 2 ^ lo % _), Nat.mul_comm (2 ^ lo) (v % _)]
    have e1 : 2 ^ (hi + 1) = 2 ^ lo * 2 ^ (hi + 1 - lo) := by rw [← Nat.pow_add]; congr 1; omega
    have e2 : n / 2 ^ lo = 2 ^ (hi + 1 - lo) * (n / 2 ^ lo / 2 ^ (hi + 1 - lo)) + n / 2 ^ lo % 2 ^ (hi + 1 - lo) := (Nat.div_add_mod _ _).symm
    have e3 : n = 2 ^ lo * (n / 2 ^ lo) + n % 2 ^ lo := (Nat.div_add_mod _ _).symm
    have e4 : n / 2 ^ lo / 2 ^ (hi + 1 - lo) = n / 2 ^ (hi + 1) := by rw [Nat.div_div_eq_div_mul, ← e1]
    rw [e4] at e2
    generalize n / 2 ^ lo % 2 ^ (hi + 1 - lo) = m at *
    generalize n / 2 ^ lo = q at *
    generalize n / 2 ^ (hi + 1) = p at *
    generalize n % 2 ^ lo = l at *
    generalize v % 2 ^ (hi + 1 - lo) = x at *
    rw [e1]
    generalize 2 ^ lo = a at *
    generalize 2 ^ (hi + 1 - lo) = b at *
    subst e2
    have e5 : n = p * (a * b) + m * a + l := by rw [e3]; ring
    have e6 : n - m * a = p * (a * b) + l := by omega
    rw [e6]
    ring
  have hl : n % 2 ^ lo < 2 ^ lo := Nat.mod_lt _ (Nat.two_pow_pos _)
  have hv : v % 2 ^ (hi + 1 - lo) < 2 ^ (hi + 1 - lo) := Nat.mod_lt _ (Nat.two_pow_pos _)
  have hm : v % 2 ^ (hi + 1 - lo) * 2 ^ lo + n % 2 ^ lo < 2 ^ (hi + 1) := by
    have e1 : 2 ^ (hi + 1) = 2 ^ (hi + 1 - lo) * 2 ^ lo := by rw [← Nat.pow_add]; congr 1; omega
    rw [e1]
    calc v % 2 ^ (hi + 1 - lo) * 2 ^ lo + n % 2 ^ lo < v % 2 ^ (hi + 1 - lo) * 2 ^ lo + 2 ^ lo := by omega
      _ = (v % 2 ^ (hi + 1 - lo) + 1) * 2 ^ lo := by ring
      _ ≤ _ := Nat.mul_le_mul_right _ (by omega)
  rw [hs, Nat.mul_comm, Nat.testBit_two_pow_mul_add _ hm, Nat.mul_comm (v % _), Nat.testBit_two_pow_mul_add _ hl]
  simp only [Nat.testBit_mod_two_pow, Nat.testBit_div_two_pow]
  by_cases h1 : k < hi + 1
  · rw [if_pos h1]
    by_cases h2 : k < lo
    · rw [if_pos h2, if_neg (by omega)]
      simp [h2]
    · rw [if_neg h2, if_pos (by omega)]
      have : k - lo < hi + 1 - lo := by omega
      simp [this]
  · rw [if_neg h1, if_neg (by omega)]
    congr 1
    omega
theorem setBits_lt (n hi lo v : Nat) (h : lo ≤ hi) (hh : hi < 32) (hn : n < 2 ^ 32) : setBits n hi lo v < 2 ^ 32 := by
  apply Nat.lt_pow_two_of_testBit
  intro k hk
  rw [setBits_testBit n hi lo v k h, if_neg (by omega)]
  exact Nat.testBit_lt_two_pow (Nat.lt_of_lt_of_le hn (Nat.pow_le_pow_right (by omega) hk))
/-- A replaced field reads as it was set. -/
theorem bits_setBits_same (n hi lo v : Nat) (h : lo ≤ hi) : bits (setBits n hi lo v) hi lo = v % 2 ^ (hi + 1 - lo) := by
  apply Nat.eq_of_testBit_eq
  intro k
  rw [bits_testBit, setBits_testBit _ _ _ _ _ h, Nat.testBit_mod_two_pow]
  by_cases hk : k < hi + 1 - lo
  · rw [if_pos (by omega)]
    simp
  · simp [hk]
/-- Every other field is left alone. -/
theorem bits_setBits_other (n hi lo v hi' lo' : Nat) (h : lo ≤ hi) (hd : hi' < lo ∨ hi < lo') :
    bits (setBits n hi lo v) hi' lo' = bits n hi' lo' := by
  apply Nat.eq_of_testBit_eq
  intro k
  rw [bits_testBit, bits_testBit, setBits_testBit _ _ _ _ _ h]
  by_cases hk : k < hi' + 1 - lo'
  · rw [if_neg (by omega)]
  · simp [hk]
/-- A field that is not Staged reads as it was set. -/
theorem State.fget_fput_same (s : State) (f : Field) (i v : Nat) (h : f.lo ≤ f.hi) (hh : f.hi < 32) (ha : f.app ≠ .staged) :
    (s.fput f i v).fget f i = v % 2 ^ f.width := by
  unfold State.fget State.fput
  rw [if_neg ha, State.rget_rput_same, BitVec.toNat_ofNat, Nat.mod_eq_of_lt (setBits_lt _ _ _ _ h hh (BitVec.isLt _)), bits_setBits_same _ _ _ _ h]
  rfl
/-- Fields of other registers, other indices and other bits of the same register are left alone, and so is every active copy. -/
theorem State.fget_fput_other (s : State) (f g : Field) (i j v : Nat) (h : f.lo ≤ f.hi) (hh : f.hi < 32)
    (hd : g.app = .staged ∨ g.reg ≠ f.reg ∨ j ≠ i ∨ g.hi < f.lo ∨ f.hi < g.lo) : (s.fput f i v).fget g j = s.fget g j := by
  unfold State.fget
  split
  · rfl
  · unfold State.fput
    rw [State.rget_rput]
    split
    · rename_i ha hb
      rw [BitVec.toNat_ofNat, Nat.mod_eq_of_lt (setBits_lt _ _ _ _ h hh (BitVec.isLt _)), bits_setBits_other _ _ _ _ _ _ h, hb.1, hb.2]
      rcases hd with hd | hd | hd | hd
      · exact absurd hd ha
      · exact absurd hb.1 hd
      · exact absurd hb.2 hd
      · exact hd
    · rfl
/-- A field after a write of a register: the bits written, or the field as it was. -/
theorem State.fget_rput (s : State) (r : Reg) (g : Field) (i j : Nat) (w : Word) (ha : g.app ≠ .staged) :
    (s.rput r i w).fget g j = if g.reg = r ∧ j = i then bits w.toNat g.hi g.lo else s.fget g j := by
  unfold State.fget
  rw [if_neg ha, if_neg ha, State.rget_rput]
  split <;> rfl
theorem State.rget_fput_other (s : State) (f : Field) (i v : Nat) {q : Reg} {j : Nat} (h : ¬ (q = f.reg ∧ j = i)) :
    (s.fput f i v).rget q j = s.rget q j := State.rget_rput_other s _ h
theorem State.rget_event_other (s : State) (f : Field) (i : Nat) {q : Reg} {j : Nat} (h : ¬ (q = f.reg ∧ j = i)) :
    (s.event f i).rget q j = s.rget q j := State.rget_rput_other s _ h
/-- An event leaves the fields of every other register alone. -/
theorem State.fget_event_other (s : State) (f g : Field) (i j : Nat) (h : ¬ (g.reg = f.reg ∧ j = i)) : (s.event f i).fget g j = s.fget g j := by
  unfold State.fget
  split
  · rfl
  · rw [State.rget_event_other s f i h]
/-- An event sets its status bit and advances SEQ. -/
theorem State.fget_event_same (s : State) (f : Field) (i : Nat) (h : f.lo < 16) (hf : f.hi = f.lo) (ha : f.app ≠ .staged) :
    (s.event f i).fget f i = 1 := by
  unfold State.fget State.event
  rw [if_neg ha, State.rget_rput_same, BitVec.toNat_ofNat]
  have h2 : setBit (s.rget f.reg i).toNat f.lo < 2 ^ 32 := by
    unfold setBit
    exact Nat.or_lt_two_pow (BitVec.isLt _) (Nat.pow_lt_pow_right (by omega) (by omega))
  rw [Nat.mod_eq_of_lt (setBits_lt _ _ _ _ (by omega) (by omega) h2), hf, bits_setBits_other _ _ _ _ _ _ (by omega) (Or.inl h)]
  apply Nat.eq_of_testBit_eq
  intro k
  rw [bits_testBit]
  rcases k with _ | k
  · simp [setBit]
  · have : Nat.testBit 1 (k + 1) = false := Nat.testBit_one_eq_true_iff_self_eq_zero .. |> fun h => by
      cases hb : Nat.testBit 1 (k + 1)
      · rfl
      · exact absurd (h.mp hb) (by omega)
    simp [this]
theorem State.fget_event_seq (s : State) (f g : Field) (i : Nat) (h : f.lo < 16) (hr : g.reg = f.reg) (hg : g.hi = 31 ∧ g.lo = 16)
    (ha : g.app ≠ .staged) : (s.event f i).fget g i = (s.fget g i + 1) % 65536 := by
  unfold State.fget State.event
  rw [if_neg ha, if_neg ha, hr, State.rget_rput_same, BitVec.toNat_ofNat, hg.1, hg.2]
  have h2 : setBit (s.rget f.reg i).toNat f.lo < 2 ^ 32 := by
    unfold setBit
    exact Nat.or_lt_two_pow (BitVec.isLt _) (Nat.pow_lt_pow_right (by omega) (by omega))
  rw [Nat.mod_eq_of_lt (setBits_lt _ _ _ _ (by omega) (by omega) h2), bits_setBits_same _ _ _ _ (by omega)]
  simp

/-! ### Records -/

@[simp] theorem State.eng_setEng_same (s : State) (t : Nat) (e : Eng) : (s.setEng t e).eng t = e := by
  simp [State.eng, State.setEng, SMap.get, SMap.find_put_same]
theorem State.eng_setEng_other (s : State) {t u : Nat} (e : Eng) (h : u ≠ t) : (s.setEng t e).eng u = s.eng u := by
  simp [State.eng, State.setEng, SMap.get, SMap.find_put_other e h]
@[simp] theorem State.stop_setStop_same (s : State) (t : Nat) (p : Stop) : (s.setStop t p).stop t = p := by
  simp [State.stop, State.setStop, SMap.get, SMap.find_put_same]
theorem State.stop_setStop_other (s : State) {t u : Nat} (p : Stop) (h : u ≠ t) : (s.setStop t p).stop u = s.stop u := by
  simp [State.stop, State.setStop, SMap.get, SMap.find_put_other p h]
@[simp] theorem State.core_setCore_same (s : State) (t c : Nat) (k : Core) : (s.setCore t c k).core t c = k := by
  simp [State.core, State.setCore, SMap.get, SMap.find_put_same]
theorem State.core_setCore_other (s : State) {t c u d : Nat} (k : Core) (h : 64 * u + d ≠ 64 * t + c) :
    (s.setCore t c k).core u d = s.core u d := by
  simp [State.core, State.setCore, SMap.get, SMap.find_put_other k h]
@[simp] theorem State.disp_setDisp_same (s : State) (d : Nat) (x : Disp) : (s.setDisp d x).disp d = some x := by
  simp [State.disp, State.setDisp, SMap.find_put_same]
@[simp] theorem State.qp_setQp_same (s : State) (q : Nat) (x : Qp) : (s.setQp q x).qp q = x := by
  simp [State.qp, State.setQp, SMap.get, SMap.find_put_same]
theorem State.qp_setQp_other (s : State) {q r : Nat} (x : Qp) (h : r ≠ q) : (s.setQp q x).qp r = s.qp r := by
  simp [State.qp, State.setQp, SMap.get, SMap.find_put_other x h]

/-! ### Frames of the updates -/

/-! `State.rput` changes `regs` alone. -/
@[simp] theorem State.rput_pending (s : State) (r : Reg) (i : Nat) (w : Word) : (s.rput r i w).pending = s.pending := rfl
@[simp] theorem State.rput_clk (s : State) (r : Reg) (i : Nat) (w : Word) : (s.rput r i w).clk = s.clk := rfl
@[simp] theorem State.rput_act (s : State) (r : Reg) (i : Nat) (w : Word) : (s.rput r i w).act = s.act := rfl
@[simp] theorem State.rput_wset (s : State) (r : Reg) (i : Nat) (w : Word) : (s.rput r i w).wset = s.wset := rfl
@[simp] theorem State.rput_parBad (s : State) (r : Reg) (i : Nat) (w : Word) : (s.rput r i w).parBad = s.parBad := rfl
@[simp] theorem State.rput_mem (s : State) (r : Reg) (i : Nat) (w : Word) : (s.rput r i w).mem = s.mem := rfl
@[simp] theorem State.rput_synd (s : State) (r : Reg) (i : Nat) (w : Word) : (s.rput r i w).synd = s.synd := rfl
@[simp] theorem State.rput_soft (s : State) (r : Reg) (i : Nat) (w : Word) : (s.rput r i w).soft = s.soft := rfl
@[simp] theorem State.rput_spm (s : State) (r : Reg) (i : Nat) (w : Word) : (s.rput r i w).spm = s.spm := rfl
@[simp] theorem State.rput_spmErr (s : State) (r : Reg) (i : Nat) (w : Word) : (s.rput r i w).spmErr = s.spmErr := rfl
@[simp] theorem State.rput_host (s : State) (r : Reg) (i : Nat) (w : Word) : (s.rput r i w).host = s.host := rfl
@[simp] theorem State.rput_tiles (s : State) (r : Reg) (i : Nat) (w : Word) : (s.rput r i w).tiles = s.tiles := rfl
@[simp] theorem State.rput_stops (s : State) (r : Reg) (i : Nat) (w : Word) : (s.rput r i w).stops = s.stops := rfl
@[simp] theorem State.rput_gate (s : State) (r : Reg) (i : Nat) (w : Word) : (s.rput r i w).gate = s.gate := rfl
@[simp] theorem State.rput_cores (s : State) (r : Reg) (i : Nat) (w : Word) : (s.rput r i w).cores = s.cores := rfl
@[simp] theorem State.rput_tokRel (s : State) (r : Reg) (i : Nat) (w : Word) : (s.rput r i w).tokRel = s.tokRel := rfl
@[simp] theorem State.rput_disps (s : State) (r : Reg) (i : Nat) (w : Word) : (s.rput r i w).disps = s.disps := rfl
@[simp] theorem State.rput_nextDisp (s : State) (r : Reg) (i : Nat) (w : Word) : (s.rput r i w).nextDisp = s.nextDisp := rfl
@[simp] theorem State.rput_packets (s : State) (r : Reg) (i : Nat) (w : Word) : (s.rput r i w).packets = s.packets := rfl
@[simp] theorem State.rput_cmd (s : State) (r : Reg) (i : Nat) (w : Word) : (s.rput r i w).cmd = s.cmd := rfl
@[simp] theorem State.rput_pcie (s : State) (r : Reg) (i : Nat) (w : Word) : (s.rput r i w).pcie = s.pcie := rfl
@[simp] theorem State.rput_flt (s : State) (r : Reg) (i : Nat) (w : Word) : (s.rput r i w).flt = s.flt := rfl
@[simp] theorem State.rput_edy (s : State) (r : Reg) (i : Nat) (w : Word) : (s.rput r i w).edy = s.edy := rfl
@[simp] theorem State.rput_sec (s : State) (r : Reg) (i : Nat) (w : Word) : (s.rput r i w).sec = s.sec := rfl
@[simp] theorem State.rput_fw (s : State) (r : Reg) (i : Nat) (w : Word) : (s.rput r i w).fw = s.fw := rfl
@[simp] theorem State.rput_lck (s : State) (r : Reg) (i : Nat) (w : Word) : (s.rput r i w).lck = s.lck := rfl
@[simp] theorem State.rput_kv (s : State) (r : Reg) (i : Nat) (w : Word) : (s.rput r i w).kv = s.kv := rfl
@[simp] theorem State.rput_enr (s : State) (r : Reg) (i : Nat) (w : Word) : (s.rput r i w).enr = s.enr := rfl
@[simp] theorem State.rput_fab (s : State) (r : Reg) (i : Nat) (w : Word) : (s.rput r i w).fab = s.fab := rfl
@[simp] theorem State.rput_pwr (s : State) (r : Reg) (i : Nat) (w : Word) : (s.rput r i w).pwr = s.pwr := rfl
@[simp] theorem State.rput_thm (s : State) (r : Reg) (i : Nat) (w : Word) : (s.rput r i w).thm = s.thm := rfl
@[simp] theorem State.rput_brd (s : State) (r : Reg) (i : Nat) (w : Word) : (s.rput r i w).brd = s.brd := rfl
@[simp] theorem State.rput_boot (s : State) (r : Reg) (i : Nat) (w : Word) : (s.rput r i w).boot = s.boot := rfl
@[simp] theorem State.rput_rst (s : State) (r : Reg) (i : Nat) (w : Word) : (s.rput r i w).rst = s.rst := rfl
@[simp] theorem State.rput_outs (s : State) (r : Reg) (i : Nat) (w : Word) : (s.rput r i w).outs = s.outs := rfl

/-! `State.aput` changes `act` alone. -/
@[simp] theorem State.aput_pending (s : State) (r : Reg) (i : Nat) (w : Word) : (s.aput r i w).pending = s.pending := rfl
@[simp] theorem State.aput_clk (s : State) (r : Reg) (i : Nat) (w : Word) : (s.aput r i w).clk = s.clk := rfl
@[simp] theorem State.aput_regs (s : State) (r : Reg) (i : Nat) (w : Word) : (s.aput r i w).regs = s.regs := rfl
@[simp] theorem State.aput_wset (s : State) (r : Reg) (i : Nat) (w : Word) : (s.aput r i w).wset = s.wset := rfl
@[simp] theorem State.aput_parBad (s : State) (r : Reg) (i : Nat) (w : Word) : (s.aput r i w).parBad = s.parBad := rfl
@[simp] theorem State.aput_mem (s : State) (r : Reg) (i : Nat) (w : Word) : (s.aput r i w).mem = s.mem := rfl
@[simp] theorem State.aput_synd (s : State) (r : Reg) (i : Nat) (w : Word) : (s.aput r i w).synd = s.synd := rfl
@[simp] theorem State.aput_soft (s : State) (r : Reg) (i : Nat) (w : Word) : (s.aput r i w).soft = s.soft := rfl
@[simp] theorem State.aput_spm (s : State) (r : Reg) (i : Nat) (w : Word) : (s.aput r i w).spm = s.spm := rfl
@[simp] theorem State.aput_spmErr (s : State) (r : Reg) (i : Nat) (w : Word) : (s.aput r i w).spmErr = s.spmErr := rfl
@[simp] theorem State.aput_host (s : State) (r : Reg) (i : Nat) (w : Word) : (s.aput r i w).host = s.host := rfl
@[simp] theorem State.aput_tiles (s : State) (r : Reg) (i : Nat) (w : Word) : (s.aput r i w).tiles = s.tiles := rfl
@[simp] theorem State.aput_stops (s : State) (r : Reg) (i : Nat) (w : Word) : (s.aput r i w).stops = s.stops := rfl
@[simp] theorem State.aput_gate (s : State) (r : Reg) (i : Nat) (w : Word) : (s.aput r i w).gate = s.gate := rfl
@[simp] theorem State.aput_cores (s : State) (r : Reg) (i : Nat) (w : Word) : (s.aput r i w).cores = s.cores := rfl
@[simp] theorem State.aput_tokRel (s : State) (r : Reg) (i : Nat) (w : Word) : (s.aput r i w).tokRel = s.tokRel := rfl
@[simp] theorem State.aput_disps (s : State) (r : Reg) (i : Nat) (w : Word) : (s.aput r i w).disps = s.disps := rfl
@[simp] theorem State.aput_nextDisp (s : State) (r : Reg) (i : Nat) (w : Word) : (s.aput r i w).nextDisp = s.nextDisp := rfl
@[simp] theorem State.aput_packets (s : State) (r : Reg) (i : Nat) (w : Word) : (s.aput r i w).packets = s.packets := rfl
@[simp] theorem State.aput_cmd (s : State) (r : Reg) (i : Nat) (w : Word) : (s.aput r i w).cmd = s.cmd := rfl
@[simp] theorem State.aput_pcie (s : State) (r : Reg) (i : Nat) (w : Word) : (s.aput r i w).pcie = s.pcie := rfl
@[simp] theorem State.aput_flt (s : State) (r : Reg) (i : Nat) (w : Word) : (s.aput r i w).flt = s.flt := rfl
@[simp] theorem State.aput_edy (s : State) (r : Reg) (i : Nat) (w : Word) : (s.aput r i w).edy = s.edy := rfl
@[simp] theorem State.aput_sec (s : State) (r : Reg) (i : Nat) (w : Word) : (s.aput r i w).sec = s.sec := rfl
@[simp] theorem State.aput_fw (s : State) (r : Reg) (i : Nat) (w : Word) : (s.aput r i w).fw = s.fw := rfl
@[simp] theorem State.aput_lck (s : State) (r : Reg) (i : Nat) (w : Word) : (s.aput r i w).lck = s.lck := rfl
@[simp] theorem State.aput_kv (s : State) (r : Reg) (i : Nat) (w : Word) : (s.aput r i w).kv = s.kv := rfl
@[simp] theorem State.aput_enr (s : State) (r : Reg) (i : Nat) (w : Word) : (s.aput r i w).enr = s.enr := rfl
@[simp] theorem State.aput_fab (s : State) (r : Reg) (i : Nat) (w : Word) : (s.aput r i w).fab = s.fab := rfl
@[simp] theorem State.aput_pwr (s : State) (r : Reg) (i : Nat) (w : Word) : (s.aput r i w).pwr = s.pwr := rfl
@[simp] theorem State.aput_thm (s : State) (r : Reg) (i : Nat) (w : Word) : (s.aput r i w).thm = s.thm := rfl
@[simp] theorem State.aput_brd (s : State) (r : Reg) (i : Nat) (w : Word) : (s.aput r i w).brd = s.brd := rfl
@[simp] theorem State.aput_boot (s : State) (r : Reg) (i : Nat) (w : Word) : (s.aput r i w).boot = s.boot := rfl
@[simp] theorem State.aput_rst (s : State) (r : Reg) (i : Nat) (w : Word) : (s.aput r i w).rst = s.rst := rfl
@[simp] theorem State.aput_outs (s : State) (r : Reg) (i : Nat) (w : Word) : (s.aput r i w).outs = s.outs := rfl

/-! `State.fput` changes `regs` alone. -/
@[simp] theorem State.fput_pending (s : State) (f : Field) (i v : Nat) : (s.fput f i v).pending = s.pending := rfl
@[simp] theorem State.fput_clk (s : State) (f : Field) (i v : Nat) : (s.fput f i v).clk = s.clk := rfl
@[simp] theorem State.fput_act (s : State) (f : Field) (i v : Nat) : (s.fput f i v).act = s.act := rfl
@[simp] theorem State.fput_wset (s : State) (f : Field) (i v : Nat) : (s.fput f i v).wset = s.wset := rfl
@[simp] theorem State.fput_parBad (s : State) (f : Field) (i v : Nat) : (s.fput f i v).parBad = s.parBad := rfl
@[simp] theorem State.fput_mem (s : State) (f : Field) (i v : Nat) : (s.fput f i v).mem = s.mem := rfl
@[simp] theorem State.fput_synd (s : State) (f : Field) (i v : Nat) : (s.fput f i v).synd = s.synd := rfl
@[simp] theorem State.fput_soft (s : State) (f : Field) (i v : Nat) : (s.fput f i v).soft = s.soft := rfl
@[simp] theorem State.fput_spm (s : State) (f : Field) (i v : Nat) : (s.fput f i v).spm = s.spm := rfl
@[simp] theorem State.fput_spmErr (s : State) (f : Field) (i v : Nat) : (s.fput f i v).spmErr = s.spmErr := rfl
@[simp] theorem State.fput_host (s : State) (f : Field) (i v : Nat) : (s.fput f i v).host = s.host := rfl
@[simp] theorem State.fput_tiles (s : State) (f : Field) (i v : Nat) : (s.fput f i v).tiles = s.tiles := rfl
@[simp] theorem State.fput_stops (s : State) (f : Field) (i v : Nat) : (s.fput f i v).stops = s.stops := rfl
@[simp] theorem State.fput_gate (s : State) (f : Field) (i v : Nat) : (s.fput f i v).gate = s.gate := rfl
@[simp] theorem State.fput_cores (s : State) (f : Field) (i v : Nat) : (s.fput f i v).cores = s.cores := rfl
@[simp] theorem State.fput_tokRel (s : State) (f : Field) (i v : Nat) : (s.fput f i v).tokRel = s.tokRel := rfl
@[simp] theorem State.fput_disps (s : State) (f : Field) (i v : Nat) : (s.fput f i v).disps = s.disps := rfl
@[simp] theorem State.fput_nextDisp (s : State) (f : Field) (i v : Nat) : (s.fput f i v).nextDisp = s.nextDisp := rfl
@[simp] theorem State.fput_packets (s : State) (f : Field) (i v : Nat) : (s.fput f i v).packets = s.packets := rfl
@[simp] theorem State.fput_cmd (s : State) (f : Field) (i v : Nat) : (s.fput f i v).cmd = s.cmd := rfl
@[simp] theorem State.fput_pcie (s : State) (f : Field) (i v : Nat) : (s.fput f i v).pcie = s.pcie := rfl
@[simp] theorem State.fput_flt (s : State) (f : Field) (i v : Nat) : (s.fput f i v).flt = s.flt := rfl
@[simp] theorem State.fput_edy (s : State) (f : Field) (i v : Nat) : (s.fput f i v).edy = s.edy := rfl
@[simp] theorem State.fput_sec (s : State) (f : Field) (i v : Nat) : (s.fput f i v).sec = s.sec := rfl
@[simp] theorem State.fput_fw (s : State) (f : Field) (i v : Nat) : (s.fput f i v).fw = s.fw := rfl
@[simp] theorem State.fput_lck (s : State) (f : Field) (i v : Nat) : (s.fput f i v).lck = s.lck := rfl
@[simp] theorem State.fput_kv (s : State) (f : Field) (i v : Nat) : (s.fput f i v).kv = s.kv := rfl
@[simp] theorem State.fput_enr (s : State) (f : Field) (i v : Nat) : (s.fput f i v).enr = s.enr := rfl
@[simp] theorem State.fput_fab (s : State) (f : Field) (i v : Nat) : (s.fput f i v).fab = s.fab := rfl
@[simp] theorem State.fput_pwr (s : State) (f : Field) (i v : Nat) : (s.fput f i v).pwr = s.pwr := rfl
@[simp] theorem State.fput_thm (s : State) (f : Field) (i v : Nat) : (s.fput f i v).thm = s.thm := rfl
@[simp] theorem State.fput_brd (s : State) (f : Field) (i v : Nat) : (s.fput f i v).brd = s.brd := rfl
@[simp] theorem State.fput_boot (s : State) (f : Field) (i v : Nat) : (s.fput f i v).boot = s.boot := rfl
@[simp] theorem State.fput_rst (s : State) (f : Field) (i v : Nat) : (s.fput f i v).rst = s.rst := rfl
@[simp] theorem State.fput_outs (s : State) (f : Field) (i v : Nat) : (s.fput f i v).outs = s.outs := rfl

/-! `State.event` changes `regs` alone. -/
@[simp] theorem State.event_pending (s : State) (f : Field) (i : Nat) : (s.event f i).pending = s.pending := rfl
@[simp] theorem State.event_clk (s : State) (f : Field) (i : Nat) : (s.event f i).clk = s.clk := rfl
@[simp] theorem State.event_act (s : State) (f : Field) (i : Nat) : (s.event f i).act = s.act := rfl
@[simp] theorem State.event_wset (s : State) (f : Field) (i : Nat) : (s.event f i).wset = s.wset := rfl
@[simp] theorem State.event_parBad (s : State) (f : Field) (i : Nat) : (s.event f i).parBad = s.parBad := rfl
@[simp] theorem State.event_mem (s : State) (f : Field) (i : Nat) : (s.event f i).mem = s.mem := rfl
@[simp] theorem State.event_synd (s : State) (f : Field) (i : Nat) : (s.event f i).synd = s.synd := rfl
@[simp] theorem State.event_soft (s : State) (f : Field) (i : Nat) : (s.event f i).soft = s.soft := rfl
@[simp] theorem State.event_spm (s : State) (f : Field) (i : Nat) : (s.event f i).spm = s.spm := rfl
@[simp] theorem State.event_spmErr (s : State) (f : Field) (i : Nat) : (s.event f i).spmErr = s.spmErr := rfl
@[simp] theorem State.event_host (s : State) (f : Field) (i : Nat) : (s.event f i).host = s.host := rfl
@[simp] theorem State.event_tiles (s : State) (f : Field) (i : Nat) : (s.event f i).tiles = s.tiles := rfl
@[simp] theorem State.event_stops (s : State) (f : Field) (i : Nat) : (s.event f i).stops = s.stops := rfl
@[simp] theorem State.event_gate (s : State) (f : Field) (i : Nat) : (s.event f i).gate = s.gate := rfl
@[simp] theorem State.event_cores (s : State) (f : Field) (i : Nat) : (s.event f i).cores = s.cores := rfl
@[simp] theorem State.event_tokRel (s : State) (f : Field) (i : Nat) : (s.event f i).tokRel = s.tokRel := rfl
@[simp] theorem State.event_disps (s : State) (f : Field) (i : Nat) : (s.event f i).disps = s.disps := rfl
@[simp] theorem State.event_nextDisp (s : State) (f : Field) (i : Nat) : (s.event f i).nextDisp = s.nextDisp := rfl
@[simp] theorem State.event_packets (s : State) (f : Field) (i : Nat) : (s.event f i).packets = s.packets := rfl
@[simp] theorem State.event_cmd (s : State) (f : Field) (i : Nat) : (s.event f i).cmd = s.cmd := rfl
@[simp] theorem State.event_pcie (s : State) (f : Field) (i : Nat) : (s.event f i).pcie = s.pcie := rfl
@[simp] theorem State.event_flt (s : State) (f : Field) (i : Nat) : (s.event f i).flt = s.flt := rfl
@[simp] theorem State.event_edy (s : State) (f : Field) (i : Nat) : (s.event f i).edy = s.edy := rfl
@[simp] theorem State.event_sec (s : State) (f : Field) (i : Nat) : (s.event f i).sec = s.sec := rfl
@[simp] theorem State.event_fw (s : State) (f : Field) (i : Nat) : (s.event f i).fw = s.fw := rfl
@[simp] theorem State.event_lck (s : State) (f : Field) (i : Nat) : (s.event f i).lck = s.lck := rfl
@[simp] theorem State.event_kv (s : State) (f : Field) (i : Nat) : (s.event f i).kv = s.kv := rfl
@[simp] theorem State.event_enr (s : State) (f : Field) (i : Nat) : (s.event f i).enr = s.enr := rfl
@[simp] theorem State.event_fab (s : State) (f : Field) (i : Nat) : (s.event f i).fab = s.fab := rfl
@[simp] theorem State.event_pwr (s : State) (f : Field) (i : Nat) : (s.event f i).pwr = s.pwr := rfl
@[simp] theorem State.event_thm (s : State) (f : Field) (i : Nat) : (s.event f i).thm = s.thm := rfl
@[simp] theorem State.event_brd (s : State) (f : Field) (i : Nat) : (s.event f i).brd = s.brd := rfl
@[simp] theorem State.event_boot (s : State) (f : Field) (i : Nat) : (s.event f i).boot = s.boot := rfl
@[simp] theorem State.event_rst (s : State) (f : Field) (i : Nat) : (s.event f i).rst = s.rst := rfl
@[simp] theorem State.event_outs (s : State) (f : Field) (i : Nat) : (s.event f i).outs = s.outs := rfl

/-! `State.put64` changes `regs` alone. -/
@[simp] theorem State.put64_pending (s : State) (lo hi : Reg) (i v : Nat) : (s.put64 lo hi i v).pending = s.pending := rfl
@[simp] theorem State.put64_clk (s : State) (lo hi : Reg) (i v : Nat) : (s.put64 lo hi i v).clk = s.clk := rfl
@[simp] theorem State.put64_act (s : State) (lo hi : Reg) (i v : Nat) : (s.put64 lo hi i v).act = s.act := rfl
@[simp] theorem State.put64_wset (s : State) (lo hi : Reg) (i v : Nat) : (s.put64 lo hi i v).wset = s.wset := rfl
@[simp] theorem State.put64_parBad (s : State) (lo hi : Reg) (i v : Nat) : (s.put64 lo hi i v).parBad = s.parBad := rfl
@[simp] theorem State.put64_mem (s : State) (lo hi : Reg) (i v : Nat) : (s.put64 lo hi i v).mem = s.mem := rfl
@[simp] theorem State.put64_synd (s : State) (lo hi : Reg) (i v : Nat) : (s.put64 lo hi i v).synd = s.synd := rfl
@[simp] theorem State.put64_soft (s : State) (lo hi : Reg) (i v : Nat) : (s.put64 lo hi i v).soft = s.soft := rfl
@[simp] theorem State.put64_spm (s : State) (lo hi : Reg) (i v : Nat) : (s.put64 lo hi i v).spm = s.spm := rfl
@[simp] theorem State.put64_spmErr (s : State) (lo hi : Reg) (i v : Nat) : (s.put64 lo hi i v).spmErr = s.spmErr := rfl
@[simp] theorem State.put64_host (s : State) (lo hi : Reg) (i v : Nat) : (s.put64 lo hi i v).host = s.host := rfl
@[simp] theorem State.put64_tiles (s : State) (lo hi : Reg) (i v : Nat) : (s.put64 lo hi i v).tiles = s.tiles := rfl
@[simp] theorem State.put64_stops (s : State) (lo hi : Reg) (i v : Nat) : (s.put64 lo hi i v).stops = s.stops := rfl
@[simp] theorem State.put64_gate (s : State) (lo hi : Reg) (i v : Nat) : (s.put64 lo hi i v).gate = s.gate := rfl
@[simp] theorem State.put64_cores (s : State) (lo hi : Reg) (i v : Nat) : (s.put64 lo hi i v).cores = s.cores := rfl
@[simp] theorem State.put64_tokRel (s : State) (lo hi : Reg) (i v : Nat) : (s.put64 lo hi i v).tokRel = s.tokRel := rfl
@[simp] theorem State.put64_disps (s : State) (lo hi : Reg) (i v : Nat) : (s.put64 lo hi i v).disps = s.disps := rfl
@[simp] theorem State.put64_nextDisp (s : State) (lo hi : Reg) (i v : Nat) : (s.put64 lo hi i v).nextDisp = s.nextDisp := rfl
@[simp] theorem State.put64_packets (s : State) (lo hi : Reg) (i v : Nat) : (s.put64 lo hi i v).packets = s.packets := rfl
@[simp] theorem State.put64_cmd (s : State) (lo hi : Reg) (i v : Nat) : (s.put64 lo hi i v).cmd = s.cmd := rfl
@[simp] theorem State.put64_pcie (s : State) (lo hi : Reg) (i v : Nat) : (s.put64 lo hi i v).pcie = s.pcie := rfl
@[simp] theorem State.put64_flt (s : State) (lo hi : Reg) (i v : Nat) : (s.put64 lo hi i v).flt = s.flt := rfl
@[simp] theorem State.put64_edy (s : State) (lo hi : Reg) (i v : Nat) : (s.put64 lo hi i v).edy = s.edy := rfl
@[simp] theorem State.put64_sec (s : State) (lo hi : Reg) (i v : Nat) : (s.put64 lo hi i v).sec = s.sec := rfl
@[simp] theorem State.put64_fw (s : State) (lo hi : Reg) (i v : Nat) : (s.put64 lo hi i v).fw = s.fw := rfl
@[simp] theorem State.put64_lck (s : State) (lo hi : Reg) (i v : Nat) : (s.put64 lo hi i v).lck = s.lck := rfl
@[simp] theorem State.put64_kv (s : State) (lo hi : Reg) (i v : Nat) : (s.put64 lo hi i v).kv = s.kv := rfl
@[simp] theorem State.put64_enr (s : State) (lo hi : Reg) (i v : Nat) : (s.put64 lo hi i v).enr = s.enr := rfl
@[simp] theorem State.put64_fab (s : State) (lo hi : Reg) (i v : Nat) : (s.put64 lo hi i v).fab = s.fab := rfl
@[simp] theorem State.put64_pwr (s : State) (lo hi : Reg) (i v : Nat) : (s.put64 lo hi i v).pwr = s.pwr := rfl
@[simp] theorem State.put64_thm (s : State) (lo hi : Reg) (i v : Nat) : (s.put64 lo hi i v).thm = s.thm := rfl
@[simp] theorem State.put64_brd (s : State) (lo hi : Reg) (i v : Nat) : (s.put64 lo hi i v).brd = s.brd := rfl
@[simp] theorem State.put64_boot (s : State) (lo hi : Reg) (i v : Nat) : (s.put64 lo hi i v).boot = s.boot := rfl
@[simp] theorem State.put64_rst (s : State) (lo hi : Reg) (i v : Nat) : (s.put64 lo hi i v).rst = s.rst := rfl
@[simp] theorem State.put64_outs (s : State) (lo hi : Reg) (i v : Nat) : (s.put64 lo hi i v).outs = s.outs := rfl

/-! `State.setEng` changes `tiles` alone. -/
@[simp] theorem State.setEng_pending (s : State) (t : Nat) (e : Eng) : (s.setEng t e).pending = s.pending := rfl
@[simp] theorem State.setEng_clk (s : State) (t : Nat) (e : Eng) : (s.setEng t e).clk = s.clk := rfl
@[simp] theorem State.setEng_regs (s : State) (t : Nat) (e : Eng) : (s.setEng t e).regs = s.regs := rfl
@[simp] theorem State.setEng_act (s : State) (t : Nat) (e : Eng) : (s.setEng t e).act = s.act := rfl
@[simp] theorem State.setEng_wset (s : State) (t : Nat) (e : Eng) : (s.setEng t e).wset = s.wset := rfl
@[simp] theorem State.setEng_parBad (s : State) (t : Nat) (e : Eng) : (s.setEng t e).parBad = s.parBad := rfl
@[simp] theorem State.setEng_mem (s : State) (t : Nat) (e : Eng) : (s.setEng t e).mem = s.mem := rfl
@[simp] theorem State.setEng_synd (s : State) (t : Nat) (e : Eng) : (s.setEng t e).synd = s.synd := rfl
@[simp] theorem State.setEng_soft (s : State) (t : Nat) (e : Eng) : (s.setEng t e).soft = s.soft := rfl
@[simp] theorem State.setEng_spm (s : State) (t : Nat) (e : Eng) : (s.setEng t e).spm = s.spm := rfl
@[simp] theorem State.setEng_spmErr (s : State) (t : Nat) (e : Eng) : (s.setEng t e).spmErr = s.spmErr := rfl
@[simp] theorem State.setEng_host (s : State) (t : Nat) (e : Eng) : (s.setEng t e).host = s.host := rfl
@[simp] theorem State.setEng_stops (s : State) (t : Nat) (e : Eng) : (s.setEng t e).stops = s.stops := rfl
@[simp] theorem State.setEng_gate (s : State) (t : Nat) (e : Eng) : (s.setEng t e).gate = s.gate := rfl
@[simp] theorem State.setEng_cores (s : State) (t : Nat) (e : Eng) : (s.setEng t e).cores = s.cores := rfl
@[simp] theorem State.setEng_tokRel (s : State) (t : Nat) (e : Eng) : (s.setEng t e).tokRel = s.tokRel := rfl
@[simp] theorem State.setEng_disps (s : State) (t : Nat) (e : Eng) : (s.setEng t e).disps = s.disps := rfl
@[simp] theorem State.setEng_nextDisp (s : State) (t : Nat) (e : Eng) : (s.setEng t e).nextDisp = s.nextDisp := rfl
@[simp] theorem State.setEng_packets (s : State) (t : Nat) (e : Eng) : (s.setEng t e).packets = s.packets := rfl
@[simp] theorem State.setEng_cmd (s : State) (t : Nat) (e : Eng) : (s.setEng t e).cmd = s.cmd := rfl
@[simp] theorem State.setEng_pcie (s : State) (t : Nat) (e : Eng) : (s.setEng t e).pcie = s.pcie := rfl
@[simp] theorem State.setEng_flt (s : State) (t : Nat) (e : Eng) : (s.setEng t e).flt = s.flt := rfl
@[simp] theorem State.setEng_edy (s : State) (t : Nat) (e : Eng) : (s.setEng t e).edy = s.edy := rfl
@[simp] theorem State.setEng_sec (s : State) (t : Nat) (e : Eng) : (s.setEng t e).sec = s.sec := rfl
@[simp] theorem State.setEng_fw (s : State) (t : Nat) (e : Eng) : (s.setEng t e).fw = s.fw := rfl
@[simp] theorem State.setEng_lck (s : State) (t : Nat) (e : Eng) : (s.setEng t e).lck = s.lck := rfl
@[simp] theorem State.setEng_kv (s : State) (t : Nat) (e : Eng) : (s.setEng t e).kv = s.kv := rfl
@[simp] theorem State.setEng_enr (s : State) (t : Nat) (e : Eng) : (s.setEng t e).enr = s.enr := rfl
@[simp] theorem State.setEng_fab (s : State) (t : Nat) (e : Eng) : (s.setEng t e).fab = s.fab := rfl
@[simp] theorem State.setEng_pwr (s : State) (t : Nat) (e : Eng) : (s.setEng t e).pwr = s.pwr := rfl
@[simp] theorem State.setEng_thm (s : State) (t : Nat) (e : Eng) : (s.setEng t e).thm = s.thm := rfl
@[simp] theorem State.setEng_brd (s : State) (t : Nat) (e : Eng) : (s.setEng t e).brd = s.brd := rfl
@[simp] theorem State.setEng_boot (s : State) (t : Nat) (e : Eng) : (s.setEng t e).boot = s.boot := rfl
@[simp] theorem State.setEng_rst (s : State) (t : Nat) (e : Eng) : (s.setEng t e).rst = s.rst := rfl
@[simp] theorem State.setEng_outs (s : State) (t : Nat) (e : Eng) : (s.setEng t e).outs = s.outs := rfl

/-! `State.setStop` changes `stops` alone. -/
@[simp] theorem State.setStop_pending (s : State) (t : Nat) (p : Stop) : (s.setStop t p).pending = s.pending := rfl
@[simp] theorem State.setStop_clk (s : State) (t : Nat) (p : Stop) : (s.setStop t p).clk = s.clk := rfl
@[simp] theorem State.setStop_regs (s : State) (t : Nat) (p : Stop) : (s.setStop t p).regs = s.regs := rfl
@[simp] theorem State.setStop_act (s : State) (t : Nat) (p : Stop) : (s.setStop t p).act = s.act := rfl
@[simp] theorem State.setStop_wset (s : State) (t : Nat) (p : Stop) : (s.setStop t p).wset = s.wset := rfl
@[simp] theorem State.setStop_parBad (s : State) (t : Nat) (p : Stop) : (s.setStop t p).parBad = s.parBad := rfl
@[simp] theorem State.setStop_mem (s : State) (t : Nat) (p : Stop) : (s.setStop t p).mem = s.mem := rfl
@[simp] theorem State.setStop_synd (s : State) (t : Nat) (p : Stop) : (s.setStop t p).synd = s.synd := rfl
@[simp] theorem State.setStop_soft (s : State) (t : Nat) (p : Stop) : (s.setStop t p).soft = s.soft := rfl
@[simp] theorem State.setStop_spm (s : State) (t : Nat) (p : Stop) : (s.setStop t p).spm = s.spm := rfl
@[simp] theorem State.setStop_spmErr (s : State) (t : Nat) (p : Stop) : (s.setStop t p).spmErr = s.spmErr := rfl
@[simp] theorem State.setStop_host (s : State) (t : Nat) (p : Stop) : (s.setStop t p).host = s.host := rfl
@[simp] theorem State.setStop_tiles (s : State) (t : Nat) (p : Stop) : (s.setStop t p).tiles = s.tiles := rfl
@[simp] theorem State.setStop_gate (s : State) (t : Nat) (p : Stop) : (s.setStop t p).gate = s.gate := rfl
@[simp] theorem State.setStop_cores (s : State) (t : Nat) (p : Stop) : (s.setStop t p).cores = s.cores := rfl
@[simp] theorem State.setStop_tokRel (s : State) (t : Nat) (p : Stop) : (s.setStop t p).tokRel = s.tokRel := rfl
@[simp] theorem State.setStop_disps (s : State) (t : Nat) (p : Stop) : (s.setStop t p).disps = s.disps := rfl
@[simp] theorem State.setStop_nextDisp (s : State) (t : Nat) (p : Stop) : (s.setStop t p).nextDisp = s.nextDisp := rfl
@[simp] theorem State.setStop_packets (s : State) (t : Nat) (p : Stop) : (s.setStop t p).packets = s.packets := rfl
@[simp] theorem State.setStop_cmd (s : State) (t : Nat) (p : Stop) : (s.setStop t p).cmd = s.cmd := rfl
@[simp] theorem State.setStop_pcie (s : State) (t : Nat) (p : Stop) : (s.setStop t p).pcie = s.pcie := rfl
@[simp] theorem State.setStop_flt (s : State) (t : Nat) (p : Stop) : (s.setStop t p).flt = s.flt := rfl
@[simp] theorem State.setStop_edy (s : State) (t : Nat) (p : Stop) : (s.setStop t p).edy = s.edy := rfl
@[simp] theorem State.setStop_sec (s : State) (t : Nat) (p : Stop) : (s.setStop t p).sec = s.sec := rfl
@[simp] theorem State.setStop_fw (s : State) (t : Nat) (p : Stop) : (s.setStop t p).fw = s.fw := rfl
@[simp] theorem State.setStop_lck (s : State) (t : Nat) (p : Stop) : (s.setStop t p).lck = s.lck := rfl
@[simp] theorem State.setStop_kv (s : State) (t : Nat) (p : Stop) : (s.setStop t p).kv = s.kv := rfl
@[simp] theorem State.setStop_enr (s : State) (t : Nat) (p : Stop) : (s.setStop t p).enr = s.enr := rfl
@[simp] theorem State.setStop_fab (s : State) (t : Nat) (p : Stop) : (s.setStop t p).fab = s.fab := rfl
@[simp] theorem State.setStop_pwr (s : State) (t : Nat) (p : Stop) : (s.setStop t p).pwr = s.pwr := rfl
@[simp] theorem State.setStop_thm (s : State) (t : Nat) (p : Stop) : (s.setStop t p).thm = s.thm := rfl
@[simp] theorem State.setStop_brd (s : State) (t : Nat) (p : Stop) : (s.setStop t p).brd = s.brd := rfl
@[simp] theorem State.setStop_boot (s : State) (t : Nat) (p : Stop) : (s.setStop t p).boot = s.boot := rfl
@[simp] theorem State.setStop_rst (s : State) (t : Nat) (p : Stop) : (s.setStop t p).rst = s.rst := rfl
@[simp] theorem State.setStop_outs (s : State) (t : Nat) (p : Stop) : (s.setStop t p).outs = s.outs := rfl

/-! `State.setCore` changes `cores` alone. -/
@[simp] theorem State.setCore_pending (s : State) (t c : Nat) (k : Core) : (s.setCore t c k).pending = s.pending := rfl
@[simp] theorem State.setCore_clk (s : State) (t c : Nat) (k : Core) : (s.setCore t c k).clk = s.clk := rfl
@[simp] theorem State.setCore_regs (s : State) (t c : Nat) (k : Core) : (s.setCore t c k).regs = s.regs := rfl
@[simp] theorem State.setCore_act (s : State) (t c : Nat) (k : Core) : (s.setCore t c k).act = s.act := rfl
@[simp] theorem State.setCore_wset (s : State) (t c : Nat) (k : Core) : (s.setCore t c k).wset = s.wset := rfl
@[simp] theorem State.setCore_parBad (s : State) (t c : Nat) (k : Core) : (s.setCore t c k).parBad = s.parBad := rfl
@[simp] theorem State.setCore_mem (s : State) (t c : Nat) (k : Core) : (s.setCore t c k).mem = s.mem := rfl
@[simp] theorem State.setCore_synd (s : State) (t c : Nat) (k : Core) : (s.setCore t c k).synd = s.synd := rfl
@[simp] theorem State.setCore_soft (s : State) (t c : Nat) (k : Core) : (s.setCore t c k).soft = s.soft := rfl
@[simp] theorem State.setCore_spm (s : State) (t c : Nat) (k : Core) : (s.setCore t c k).spm = s.spm := rfl
@[simp] theorem State.setCore_spmErr (s : State) (t c : Nat) (k : Core) : (s.setCore t c k).spmErr = s.spmErr := rfl
@[simp] theorem State.setCore_host (s : State) (t c : Nat) (k : Core) : (s.setCore t c k).host = s.host := rfl
@[simp] theorem State.setCore_tiles (s : State) (t c : Nat) (k : Core) : (s.setCore t c k).tiles = s.tiles := rfl
@[simp] theorem State.setCore_stops (s : State) (t c : Nat) (k : Core) : (s.setCore t c k).stops = s.stops := rfl
@[simp] theorem State.setCore_gate (s : State) (t c : Nat) (k : Core) : (s.setCore t c k).gate = s.gate := rfl
@[simp] theorem State.setCore_tokRel (s : State) (t c : Nat) (k : Core) : (s.setCore t c k).tokRel = s.tokRel := rfl
@[simp] theorem State.setCore_disps (s : State) (t c : Nat) (k : Core) : (s.setCore t c k).disps = s.disps := rfl
@[simp] theorem State.setCore_nextDisp (s : State) (t c : Nat) (k : Core) : (s.setCore t c k).nextDisp = s.nextDisp := rfl
@[simp] theorem State.setCore_packets (s : State) (t c : Nat) (k : Core) : (s.setCore t c k).packets = s.packets := rfl
@[simp] theorem State.setCore_cmd (s : State) (t c : Nat) (k : Core) : (s.setCore t c k).cmd = s.cmd := rfl
@[simp] theorem State.setCore_pcie (s : State) (t c : Nat) (k : Core) : (s.setCore t c k).pcie = s.pcie := rfl
@[simp] theorem State.setCore_flt (s : State) (t c : Nat) (k : Core) : (s.setCore t c k).flt = s.flt := rfl
@[simp] theorem State.setCore_edy (s : State) (t c : Nat) (k : Core) : (s.setCore t c k).edy = s.edy := rfl
@[simp] theorem State.setCore_sec (s : State) (t c : Nat) (k : Core) : (s.setCore t c k).sec = s.sec := rfl
@[simp] theorem State.setCore_fw (s : State) (t c : Nat) (k : Core) : (s.setCore t c k).fw = s.fw := rfl
@[simp] theorem State.setCore_lck (s : State) (t c : Nat) (k : Core) : (s.setCore t c k).lck = s.lck := rfl
@[simp] theorem State.setCore_kv (s : State) (t c : Nat) (k : Core) : (s.setCore t c k).kv = s.kv := rfl
@[simp] theorem State.setCore_enr (s : State) (t c : Nat) (k : Core) : (s.setCore t c k).enr = s.enr := rfl
@[simp] theorem State.setCore_fab (s : State) (t c : Nat) (k : Core) : (s.setCore t c k).fab = s.fab := rfl
@[simp] theorem State.setCore_pwr (s : State) (t c : Nat) (k : Core) : (s.setCore t c k).pwr = s.pwr := rfl
@[simp] theorem State.setCore_thm (s : State) (t c : Nat) (k : Core) : (s.setCore t c k).thm = s.thm := rfl
@[simp] theorem State.setCore_brd (s : State) (t c : Nat) (k : Core) : (s.setCore t c k).brd = s.brd := rfl
@[simp] theorem State.setCore_boot (s : State) (t c : Nat) (k : Core) : (s.setCore t c k).boot = s.boot := rfl
@[simp] theorem State.setCore_rst (s : State) (t c : Nat) (k : Core) : (s.setCore t c k).rst = s.rst := rfl
@[simp] theorem State.setCore_outs (s : State) (t c : Nat) (k : Core) : (s.setCore t c k).outs = s.outs := rfl

/-! `State.setDisp` changes `disps` alone. -/
@[simp] theorem State.setDisp_pending (s : State) (d : Nat) (x : Disp) : (s.setDisp d x).pending = s.pending := rfl
@[simp] theorem State.setDisp_clk (s : State) (d : Nat) (x : Disp) : (s.setDisp d x).clk = s.clk := rfl
@[simp] theorem State.setDisp_regs (s : State) (d : Nat) (x : Disp) : (s.setDisp d x).regs = s.regs := rfl
@[simp] theorem State.setDisp_act (s : State) (d : Nat) (x : Disp) : (s.setDisp d x).act = s.act := rfl
@[simp] theorem State.setDisp_wset (s : State) (d : Nat) (x : Disp) : (s.setDisp d x).wset = s.wset := rfl
@[simp] theorem State.setDisp_parBad (s : State) (d : Nat) (x : Disp) : (s.setDisp d x).parBad = s.parBad := rfl
@[simp] theorem State.setDisp_mem (s : State) (d : Nat) (x : Disp) : (s.setDisp d x).mem = s.mem := rfl
@[simp] theorem State.setDisp_synd (s : State) (d : Nat) (x : Disp) : (s.setDisp d x).synd = s.synd := rfl
@[simp] theorem State.setDisp_soft (s : State) (d : Nat) (x : Disp) : (s.setDisp d x).soft = s.soft := rfl
@[simp] theorem State.setDisp_spm (s : State) (d : Nat) (x : Disp) : (s.setDisp d x).spm = s.spm := rfl
@[simp] theorem State.setDisp_spmErr (s : State) (d : Nat) (x : Disp) : (s.setDisp d x).spmErr = s.spmErr := rfl
@[simp] theorem State.setDisp_host (s : State) (d : Nat) (x : Disp) : (s.setDisp d x).host = s.host := rfl
@[simp] theorem State.setDisp_tiles (s : State) (d : Nat) (x : Disp) : (s.setDisp d x).tiles = s.tiles := rfl
@[simp] theorem State.setDisp_stops (s : State) (d : Nat) (x : Disp) : (s.setDisp d x).stops = s.stops := rfl
@[simp] theorem State.setDisp_gate (s : State) (d : Nat) (x : Disp) : (s.setDisp d x).gate = s.gate := rfl
@[simp] theorem State.setDisp_cores (s : State) (d : Nat) (x : Disp) : (s.setDisp d x).cores = s.cores := rfl
@[simp] theorem State.setDisp_tokRel (s : State) (d : Nat) (x : Disp) : (s.setDisp d x).tokRel = s.tokRel := rfl
@[simp] theorem State.setDisp_nextDisp (s : State) (d : Nat) (x : Disp) : (s.setDisp d x).nextDisp = s.nextDisp := rfl
@[simp] theorem State.setDisp_packets (s : State) (d : Nat) (x : Disp) : (s.setDisp d x).packets = s.packets := rfl
@[simp] theorem State.setDisp_cmd (s : State) (d : Nat) (x : Disp) : (s.setDisp d x).cmd = s.cmd := rfl
@[simp] theorem State.setDisp_pcie (s : State) (d : Nat) (x : Disp) : (s.setDisp d x).pcie = s.pcie := rfl
@[simp] theorem State.setDisp_flt (s : State) (d : Nat) (x : Disp) : (s.setDisp d x).flt = s.flt := rfl
@[simp] theorem State.setDisp_edy (s : State) (d : Nat) (x : Disp) : (s.setDisp d x).edy = s.edy := rfl
@[simp] theorem State.setDisp_sec (s : State) (d : Nat) (x : Disp) : (s.setDisp d x).sec = s.sec := rfl
@[simp] theorem State.setDisp_fw (s : State) (d : Nat) (x : Disp) : (s.setDisp d x).fw = s.fw := rfl
@[simp] theorem State.setDisp_lck (s : State) (d : Nat) (x : Disp) : (s.setDisp d x).lck = s.lck := rfl
@[simp] theorem State.setDisp_kv (s : State) (d : Nat) (x : Disp) : (s.setDisp d x).kv = s.kv := rfl
@[simp] theorem State.setDisp_enr (s : State) (d : Nat) (x : Disp) : (s.setDisp d x).enr = s.enr := rfl
@[simp] theorem State.setDisp_fab (s : State) (d : Nat) (x : Disp) : (s.setDisp d x).fab = s.fab := rfl
@[simp] theorem State.setDisp_pwr (s : State) (d : Nat) (x : Disp) : (s.setDisp d x).pwr = s.pwr := rfl
@[simp] theorem State.setDisp_thm (s : State) (d : Nat) (x : Disp) : (s.setDisp d x).thm = s.thm := rfl
@[simp] theorem State.setDisp_brd (s : State) (d : Nat) (x : Disp) : (s.setDisp d x).brd = s.brd := rfl
@[simp] theorem State.setDisp_boot (s : State) (d : Nat) (x : Disp) : (s.setDisp d x).boot = s.boot := rfl
@[simp] theorem State.setDisp_rst (s : State) (d : Nat) (x : Disp) : (s.setDisp d x).rst = s.rst := rfl
@[simp] theorem State.setDisp_outs (s : State) (d : Nat) (x : Disp) : (s.setDisp d x).outs = s.outs := rfl

/-! `State.setQp` changes `cmd` alone. -/
@[simp] theorem State.setQp_pending (s : State) (q : Nat) (x : Qp) : (s.setQp q x).pending = s.pending := rfl
@[simp] theorem State.setQp_clk (s : State) (q : Nat) (x : Qp) : (s.setQp q x).clk = s.clk := rfl
@[simp] theorem State.setQp_regs (s : State) (q : Nat) (x : Qp) : (s.setQp q x).regs = s.regs := rfl
@[simp] theorem State.setQp_act (s : State) (q : Nat) (x : Qp) : (s.setQp q x).act = s.act := rfl
@[simp] theorem State.setQp_wset (s : State) (q : Nat) (x : Qp) : (s.setQp q x).wset = s.wset := rfl
@[simp] theorem State.setQp_parBad (s : State) (q : Nat) (x : Qp) : (s.setQp q x).parBad = s.parBad := rfl
@[simp] theorem State.setQp_mem (s : State) (q : Nat) (x : Qp) : (s.setQp q x).mem = s.mem := rfl
@[simp] theorem State.setQp_synd (s : State) (q : Nat) (x : Qp) : (s.setQp q x).synd = s.synd := rfl
@[simp] theorem State.setQp_soft (s : State) (q : Nat) (x : Qp) : (s.setQp q x).soft = s.soft := rfl
@[simp] theorem State.setQp_spm (s : State) (q : Nat) (x : Qp) : (s.setQp q x).spm = s.spm := rfl
@[simp] theorem State.setQp_spmErr (s : State) (q : Nat) (x : Qp) : (s.setQp q x).spmErr = s.spmErr := rfl
@[simp] theorem State.setQp_host (s : State) (q : Nat) (x : Qp) : (s.setQp q x).host = s.host := rfl
@[simp] theorem State.setQp_tiles (s : State) (q : Nat) (x : Qp) : (s.setQp q x).tiles = s.tiles := rfl
@[simp] theorem State.setQp_stops (s : State) (q : Nat) (x : Qp) : (s.setQp q x).stops = s.stops := rfl
@[simp] theorem State.setQp_gate (s : State) (q : Nat) (x : Qp) : (s.setQp q x).gate = s.gate := rfl
@[simp] theorem State.setQp_cores (s : State) (q : Nat) (x : Qp) : (s.setQp q x).cores = s.cores := rfl
@[simp] theorem State.setQp_tokRel (s : State) (q : Nat) (x : Qp) : (s.setQp q x).tokRel = s.tokRel := rfl
@[simp] theorem State.setQp_disps (s : State) (q : Nat) (x : Qp) : (s.setQp q x).disps = s.disps := rfl
@[simp] theorem State.setQp_nextDisp (s : State) (q : Nat) (x : Qp) : (s.setQp q x).nextDisp = s.nextDisp := rfl
@[simp] theorem State.setQp_packets (s : State) (q : Nat) (x : Qp) : (s.setQp q x).packets = s.packets := rfl
@[simp] theorem State.setQp_pcie (s : State) (q : Nat) (x : Qp) : (s.setQp q x).pcie = s.pcie := rfl
@[simp] theorem State.setQp_flt (s : State) (q : Nat) (x : Qp) : (s.setQp q x).flt = s.flt := rfl
@[simp] theorem State.setQp_edy (s : State) (q : Nat) (x : Qp) : (s.setQp q x).edy = s.edy := rfl
@[simp] theorem State.setQp_sec (s : State) (q : Nat) (x : Qp) : (s.setQp q x).sec = s.sec := rfl
@[simp] theorem State.setQp_fw (s : State) (q : Nat) (x : Qp) : (s.setQp q x).fw = s.fw := rfl
@[simp] theorem State.setQp_lck (s : State) (q : Nat) (x : Qp) : (s.setQp q x).lck = s.lck := rfl
@[simp] theorem State.setQp_kv (s : State) (q : Nat) (x : Qp) : (s.setQp q x).kv = s.kv := rfl
@[simp] theorem State.setQp_enr (s : State) (q : Nat) (x : Qp) : (s.setQp q x).enr = s.enr := rfl
@[simp] theorem State.setQp_fab (s : State) (q : Nat) (x : Qp) : (s.setQp q x).fab = s.fab := rfl
@[simp] theorem State.setQp_pwr (s : State) (q : Nat) (x : Qp) : (s.setQp q x).pwr = s.pwr := rfl
@[simp] theorem State.setQp_thm (s : State) (q : Nat) (x : Qp) : (s.setQp q x).thm = s.thm := rfl
@[simp] theorem State.setQp_brd (s : State) (q : Nat) (x : Qp) : (s.setQp q x).brd = s.brd := rfl
@[simp] theorem State.setQp_boot (s : State) (q : Nat) (x : Qp) : (s.setQp q x).boot = s.boot := rfl
@[simp] theorem State.setQp_rst (s : State) (q : Nat) (x : Qp) : (s.setQp q x).rst = s.rst := rfl
@[simp] theorem State.setQp_outs (s : State) (q : Nat) (x : Qp) : (s.setQp q x).outs = s.outs := rfl

/-! `State.answer` changes `outs` alone. -/
@[simp] theorem State.answer_pending (s : State) (v : Nat) : (s.answer v).pending = s.pending := rfl
@[simp] theorem State.answer_clk (s : State) (v : Nat) : (s.answer v).clk = s.clk := rfl
@[simp] theorem State.answer_regs (s : State) (v : Nat) : (s.answer v).regs = s.regs := rfl
@[simp] theorem State.answer_act (s : State) (v : Nat) : (s.answer v).act = s.act := rfl
@[simp] theorem State.answer_wset (s : State) (v : Nat) : (s.answer v).wset = s.wset := rfl
@[simp] theorem State.answer_parBad (s : State) (v : Nat) : (s.answer v).parBad = s.parBad := rfl
@[simp] theorem State.answer_mem (s : State) (v : Nat) : (s.answer v).mem = s.mem := rfl
@[simp] theorem State.answer_synd (s : State) (v : Nat) : (s.answer v).synd = s.synd := rfl
@[simp] theorem State.answer_soft (s : State) (v : Nat) : (s.answer v).soft = s.soft := rfl
@[simp] theorem State.answer_spm (s : State) (v : Nat) : (s.answer v).spm = s.spm := rfl
@[simp] theorem State.answer_spmErr (s : State) (v : Nat) : (s.answer v).spmErr = s.spmErr := rfl
@[simp] theorem State.answer_host (s : State) (v : Nat) : (s.answer v).host = s.host := rfl
@[simp] theorem State.answer_tiles (s : State) (v : Nat) : (s.answer v).tiles = s.tiles := rfl
@[simp] theorem State.answer_stops (s : State) (v : Nat) : (s.answer v).stops = s.stops := rfl
@[simp] theorem State.answer_gate (s : State) (v : Nat) : (s.answer v).gate = s.gate := rfl
@[simp] theorem State.answer_cores (s : State) (v : Nat) : (s.answer v).cores = s.cores := rfl
@[simp] theorem State.answer_tokRel (s : State) (v : Nat) : (s.answer v).tokRel = s.tokRel := rfl
@[simp] theorem State.answer_disps (s : State) (v : Nat) : (s.answer v).disps = s.disps := rfl
@[simp] theorem State.answer_nextDisp (s : State) (v : Nat) : (s.answer v).nextDisp = s.nextDisp := rfl
@[simp] theorem State.answer_packets (s : State) (v : Nat) : (s.answer v).packets = s.packets := rfl
@[simp] theorem State.answer_cmd (s : State) (v : Nat) : (s.answer v).cmd = s.cmd := rfl
@[simp] theorem State.answer_pcie (s : State) (v : Nat) : (s.answer v).pcie = s.pcie := rfl
@[simp] theorem State.answer_flt (s : State) (v : Nat) : (s.answer v).flt = s.flt := rfl
@[simp] theorem State.answer_edy (s : State) (v : Nat) : (s.answer v).edy = s.edy := rfl
@[simp] theorem State.answer_sec (s : State) (v : Nat) : (s.answer v).sec = s.sec := rfl
@[simp] theorem State.answer_fw (s : State) (v : Nat) : (s.answer v).fw = s.fw := rfl
@[simp] theorem State.answer_lck (s : State) (v : Nat) : (s.answer v).lck = s.lck := rfl
@[simp] theorem State.answer_kv (s : State) (v : Nat) : (s.answer v).kv = s.kv := rfl
@[simp] theorem State.answer_enr (s : State) (v : Nat) : (s.answer v).enr = s.enr := rfl
@[simp] theorem State.answer_fab (s : State) (v : Nat) : (s.answer v).fab = s.fab := rfl
@[simp] theorem State.answer_pwr (s : State) (v : Nat) : (s.answer v).pwr = s.pwr := rfl
@[simp] theorem State.answer_thm (s : State) (v : Nat) : (s.answer v).thm = s.thm := rfl
@[simp] theorem State.answer_brd (s : State) (v : Nat) : (s.answer v).brd = s.brd := rfl
@[simp] theorem State.answer_boot (s : State) (v : Nat) : (s.answer v).boot = s.boot := rfl
@[simp] theorem State.answer_rst (s : State) (v : Nat) : (s.answer v).rst = s.rst := rfl

/-! The counters, status bits and shorthands written through these. -/
@[simp] theorem State.fadd_eq (s : State) (f : Field) (i n : Nat) : s.fadd f i n = s.fput f i ((s.fget f i + n) % 2 ^ f.width) := rfl
@[simp] theorem State.fsat_eq (s : State) (f : Field) (i n : Nat) : s.fsat f i n = s.fput f i (min (s.fget f i + n) (2 ^ f.width - 1)) := rfl
@[simp] theorem State.eventBit_eq (s : State) (f : Field) (i b : Nat) : s.eventBit f i b = s.event { f with lo := f.lo + b } i := rfl
@[simp] theorem State.disable_eq (s : State) (t : Nat) : s.disable t =
    s.rput .GLB_DISMAP (t / 32) (BitVec.ofNat 32 (setBit (s.rget .GLB_DISMAP (t / 32)).toNat (t % 32))) := rfl
@[simp] theorem State.free_pending (s : State) (w : Nat) : (s.free w).2.pending = s.pending := rfl
@[simp] theorem State.free_regs (s : State) (w : Nat) : (s.free w).2.regs = s.regs := rfl
@[simp] theorem State.free_act (s : State) (w : Nat) : (s.free w).2.act = s.act := rfl
@[simp] theorem State.free_wset (s : State) (w : Nat) : (s.free w).2.wset = s.wset := rfl
@[simp] theorem State.free_parBad (s : State) (w : Nat) : (s.free w).2.parBad = s.parBad := rfl
@[simp] theorem State.free_mem (s : State) (w : Nat) : (s.free w).2.mem = s.mem := rfl
@[simp] theorem State.free_synd (s : State) (w : Nat) : (s.free w).2.synd = s.synd := rfl
@[simp] theorem State.free_soft (s : State) (w : Nat) : (s.free w).2.soft = s.soft := rfl
@[simp] theorem State.free_spm (s : State) (w : Nat) : (s.free w).2.spm = s.spm := rfl
@[simp] theorem State.free_spmErr (s : State) (w : Nat) : (s.free w).2.spmErr = s.spmErr := rfl
@[simp] theorem State.free_host (s : State) (w : Nat) : (s.free w).2.host = s.host := rfl
@[simp] theorem State.free_tiles (s : State) (w : Nat) : (s.free w).2.tiles = s.tiles := rfl
@[simp] theorem State.free_stops (s : State) (w : Nat) : (s.free w).2.stops = s.stops := rfl
@[simp] theorem State.free_gate (s : State) (w : Nat) : (s.free w).2.gate = s.gate := rfl
@[simp] theorem State.free_cores (s : State) (w : Nat) : (s.free w).2.cores = s.cores := rfl
@[simp] theorem State.free_tokRel (s : State) (w : Nat) : (s.free w).2.tokRel = s.tokRel := rfl
@[simp] theorem State.free_disps (s : State) (w : Nat) : (s.free w).2.disps = s.disps := rfl
@[simp] theorem State.free_nextDisp (s : State) (w : Nat) : (s.free w).2.nextDisp = s.nextDisp := rfl
@[simp] theorem State.free_packets (s : State) (w : Nat) : (s.free w).2.packets = s.packets := rfl
@[simp] theorem State.free_cmd (s : State) (w : Nat) : (s.free w).2.cmd = s.cmd := rfl
@[simp] theorem State.free_pcie (s : State) (w : Nat) : (s.free w).2.pcie = s.pcie := rfl
@[simp] theorem State.free_flt (s : State) (w : Nat) : (s.free w).2.flt = s.flt := rfl
@[simp] theorem State.free_edy (s : State) (w : Nat) : (s.free w).2.edy = s.edy := rfl
@[simp] theorem State.free_sec (s : State) (w : Nat) : (s.free w).2.sec = s.sec := rfl
@[simp] theorem State.free_fw (s : State) (w : Nat) : (s.free w).2.fw = s.fw := rfl
@[simp] theorem State.free_lck (s : State) (w : Nat) : (s.free w).2.lck = s.lck := rfl
@[simp] theorem State.free_kv (s : State) (w : Nat) : (s.free w).2.kv = s.kv := rfl
@[simp] theorem State.free_enr (s : State) (w : Nat) : (s.free w).2.enr = s.enr := rfl
@[simp] theorem State.free_fab (s : State) (w : Nat) : (s.free w).2.fab = s.fab := rfl
@[simp] theorem State.free_pwr (s : State) (w : Nat) : (s.free w).2.pwr = s.pwr := rfl
@[simp] theorem State.free_thm (s : State) (w : Nat) : (s.free w).2.thm = s.thm := rfl
@[simp] theorem State.free_brd (s : State) (w : Nat) : (s.free w).2.brd = s.brd := rfl
@[simp] theorem State.free_boot (s : State) (w : Nat) : (s.free w).2.boot = s.boot := rfl
@[simp] theorem State.free_rst (s : State) (w : Nat) : (s.free w).2.rst = s.rst := rfl
@[simp] theorem State.free_outs (s : State) (w : Nat) : (s.free w).2.outs = s.outs := rfl

/-! Reads of registers and records through writes of other state. -/
@[simp] theorem State.aget_rput (s : State) (r : Reg) (i : Nat) (w : Word) (a : Reg) (j : Nat) : (s.rput r i w).aget a j = s.aget a j := rfl
@[simp] theorem State.eng_rput (s : State) (r : Reg) (i : Nat) (w : Word) (j : Nat) : (s.rput r i w).eng j = s.eng j := rfl
@[simp] theorem State.stop_rput (s : State) (r : Reg) (i : Nat) (w : Word) (j : Nat) : (s.rput r i w).stop j = s.stop j := rfl
@[simp] theorem State.core_rput (s : State) (r : Reg) (i : Nat) (w : Word) (j k' : Nat) : (s.rput r i w).core j k' = s.core j k' := rfl
@[simp] theorem State.disp_rput (s : State) (r : Reg) (i : Nat) (w : Word) (j : Nat) : (s.rput r i w).disp j = s.disp j := rfl
@[simp] theorem State.qp_rput (s : State) (r : Reg) (i : Nat) (w : Word) (j : Nat) : (s.rput r i w).qp j = s.qp j := rfl
@[simp] theorem State.rget_aput (s : State) (r : Reg) (i : Nat) (w : Word) (a : Reg) (j : Nat) : (s.aput r i w).rget a j = s.rget a j := rfl
@[simp] theorem State.eng_aput (s : State) (r : Reg) (i : Nat) (w : Word) (j : Nat) : (s.aput r i w).eng j = s.eng j := rfl
@[simp] theorem State.stop_aput (s : State) (r : Reg) (i : Nat) (w : Word) (j : Nat) : (s.aput r i w).stop j = s.stop j := rfl
@[simp] theorem State.core_aput (s : State) (r : Reg) (i : Nat) (w : Word) (j k' : Nat) : (s.aput r i w).core j k' = s.core j k' := rfl
@[simp] theorem State.disp_aput (s : State) (r : Reg) (i : Nat) (w : Word) (j : Nat) : (s.aput r i w).disp j = s.disp j := rfl
@[simp] theorem State.qp_aput (s : State) (r : Reg) (i : Nat) (w : Word) (j : Nat) : (s.aput r i w).qp j = s.qp j := rfl
@[simp] theorem State.aget_fput (s : State) (f : Field) (i v : Nat) (a : Reg) (j : Nat) : (s.fput f i v).aget a j = s.aget a j := rfl
@[simp] theorem State.eng_fput (s : State) (f : Field) (i v : Nat) (j : Nat) : (s.fput f i v).eng j = s.eng j := rfl
@[simp] theorem State.stop_fput (s : State) (f : Field) (i v : Nat) (j : Nat) : (s.fput f i v).stop j = s.stop j := rfl
@[simp] theorem State.core_fput (s : State) (f : Field) (i v : Nat) (j k' : Nat) : (s.fput f i v).core j k' = s.core j k' := rfl
@[simp] theorem State.disp_fput (s : State) (f : Field) (i v : Nat) (j : Nat) : (s.fput f i v).disp j = s.disp j := rfl
@[simp] theorem State.qp_fput (s : State) (f : Field) (i v : Nat) (j : Nat) : (s.fput f i v).qp j = s.qp j := rfl
@[simp] theorem State.aget_event (s : State) (f : Field) (i : Nat) (a : Reg) (j : Nat) : (s.event f i).aget a j = s.aget a j := rfl
@[simp] theorem State.eng_event (s : State) (f : Field) (i : Nat) (j : Nat) : (s.event f i).eng j = s.eng j := rfl
@[simp] theorem State.stop_event (s : State) (f : Field) (i : Nat) (j : Nat) : (s.event f i).stop j = s.stop j := rfl
@[simp] theorem State.core_event (s : State) (f : Field) (i : Nat) (j k' : Nat) : (s.event f i).core j k' = s.core j k' := rfl
@[simp] theorem State.disp_event (s : State) (f : Field) (i : Nat) (j : Nat) : (s.event f i).disp j = s.disp j := rfl
@[simp] theorem State.qp_event (s : State) (f : Field) (i : Nat) (j : Nat) : (s.event f i).qp j = s.qp j := rfl
@[simp] theorem State.rget_setEng (s : State) (t : Nat) (e : Eng) (a : Reg) (j : Nat) : (s.setEng t e).rget a j = s.rget a j := rfl
@[simp] theorem State.aget_setEng (s : State) (t : Nat) (e : Eng) (a : Reg) (j : Nat) : (s.setEng t e).aget a j = s.aget a j := rfl
@[simp] theorem State.fget_setEng (s : State) (t : Nat) (e : Eng) (g : Field) (j : Nat) : (s.setEng t e).fget g j = s.fget g j := rfl
@[simp] theorem State.stop_setEng (s : State) (t : Nat) (e : Eng) (j : Nat) : (s.setEng t e).stop j = s.stop j := rfl
@[simp] theorem State.core_setEng (s : State) (t : Nat) (e : Eng) (j k' : Nat) : (s.setEng t e).core j k' = s.core j k' := rfl
@[simp] theorem State.disp_setEng (s : State) (t : Nat) (e : Eng) (j : Nat) : (s.setEng t e).disp j = s.disp j := rfl
@[simp] theorem State.qp_setEng (s : State) (t : Nat) (e : Eng) (j : Nat) : (s.setEng t e).qp j = s.qp j := rfl
@[simp] theorem State.rget_setStop (s : State) (t : Nat) (p : Stop) (a : Reg) (j : Nat) : (s.setStop t p).rget a j = s.rget a j := rfl
@[simp] theorem State.aget_setStop (s : State) (t : Nat) (p : Stop) (a : Reg) (j : Nat) : (s.setStop t p).aget a j = s.aget a j := rfl
@[simp] theorem State.fget_setStop (s : State) (t : Nat) (p : Stop) (g : Field) (j : Nat) : (s.setStop t p).fget g j = s.fget g j := rfl
@[simp] theorem State.eng_setStop (s : State) (t : Nat) (p : Stop) (j : Nat) : (s.setStop t p).eng j = s.eng j := rfl
@[simp] theorem State.core_setStop (s : State) (t : Nat) (p : Stop) (j k' : Nat) : (s.setStop t p).core j k' = s.core j k' := rfl
@[simp] theorem State.disp_setStop (s : State) (t : Nat) (p : Stop) (j : Nat) : (s.setStop t p).disp j = s.disp j := rfl
@[simp] theorem State.qp_setStop (s : State) (t : Nat) (p : Stop) (j : Nat) : (s.setStop t p).qp j = s.qp j := rfl
@[simp] theorem State.rget_setCore (s : State) (t c : Nat) (k : Core) (a : Reg) (j : Nat) : (s.setCore t c k).rget a j = s.rget a j := rfl
@[simp] theorem State.aget_setCore (s : State) (t c : Nat) (k : Core) (a : Reg) (j : Nat) : (s.setCore t c k).aget a j = s.aget a j := rfl
@[simp] theorem State.fget_setCore (s : State) (t c : Nat) (k : Core) (g : Field) (j : Nat) : (s.setCore t c k).fget g j = s.fget g j := rfl
@[simp] theorem State.eng_setCore (s : State) (t c : Nat) (k : Core) (j : Nat) : (s.setCore t c k).eng j = s.eng j := rfl
@[simp] theorem State.stop_setCore (s : State) (t c : Nat) (k : Core) (j : Nat) : (s.setCore t c k).stop j = s.stop j := rfl
@[simp] theorem State.disp_setCore (s : State) (t c : Nat) (k : Core) (j : Nat) : (s.setCore t c k).disp j = s.disp j := rfl
@[simp] theorem State.qp_setCore (s : State) (t c : Nat) (k : Core) (j : Nat) : (s.setCore t c k).qp j = s.qp j := rfl
@[simp] theorem State.rget_setDisp (s : State) (d : Nat) (x : Disp) (a : Reg) (j : Nat) : (s.setDisp d x).rget a j = s.rget a j := rfl
@[simp] theorem State.aget_setDisp (s : State) (d : Nat) (x : Disp) (a : Reg) (j : Nat) : (s.setDisp d x).aget a j = s.aget a j := rfl
@[simp] theorem State.fget_setDisp (s : State) (d : Nat) (x : Disp) (g : Field) (j : Nat) : (s.setDisp d x).fget g j = s.fget g j := rfl
@[simp] theorem State.eng_setDisp (s : State) (d : Nat) (x : Disp) (j : Nat) : (s.setDisp d x).eng j = s.eng j := rfl
@[simp] theorem State.stop_setDisp (s : State) (d : Nat) (x : Disp) (j : Nat) : (s.setDisp d x).stop j = s.stop j := rfl
@[simp] theorem State.core_setDisp (s : State) (d : Nat) (x : Disp) (j k' : Nat) : (s.setDisp d x).core j k' = s.core j k' := rfl
@[simp] theorem State.qp_setDisp (s : State) (d : Nat) (x : Disp) (j : Nat) : (s.setDisp d x).qp j = s.qp j := rfl
@[simp] theorem State.rget_setQp (s : State) (q : Nat) (x : Qp) (a : Reg) (j : Nat) : (s.setQp q x).rget a j = s.rget a j := rfl
@[simp] theorem State.aget_setQp (s : State) (q : Nat) (x : Qp) (a : Reg) (j : Nat) : (s.setQp q x).aget a j = s.aget a j := rfl
@[simp] theorem State.fget_setQp (s : State) (q : Nat) (x : Qp) (g : Field) (j : Nat) : (s.setQp q x).fget g j = s.fget g j := rfl
@[simp] theorem State.eng_setQp (s : State) (q : Nat) (x : Qp) (j : Nat) : (s.setQp q x).eng j = s.eng j := rfl
@[simp] theorem State.stop_setQp (s : State) (q : Nat) (x : Qp) (j : Nat) : (s.setQp q x).stop j = s.stop j := rfl
@[simp] theorem State.core_setQp (s : State) (q : Nat) (x : Qp) (j k' : Nat) : (s.setQp q x).core j k' = s.core j k' := rfl
@[simp] theorem State.disp_setQp (s : State) (q : Nat) (x : Qp) (j : Nat) : (s.setQp q x).disp j = s.disp j := rfl
@[simp] theorem State.rget_answer (s : State) (v : Nat) (a : Reg) (j : Nat) : (s.answer v).rget a j = s.rget a j := rfl
@[simp] theorem State.aget_answer (s : State) (v : Nat) (a : Reg) (j : Nat) : (s.answer v).aget a j = s.aget a j := rfl
@[simp] theorem State.fget_answer (s : State) (v : Nat) (g : Field) (j : Nat) : (s.answer v).fget g j = s.fget g j := rfl
@[simp] theorem State.eng_answer (s : State) (v : Nat) (j : Nat) : (s.answer v).eng j = s.eng j := rfl
@[simp] theorem State.stop_answer (s : State) (v : Nat) (j : Nat) : (s.answer v).stop j = s.stop j := rfl
@[simp] theorem State.core_answer (s : State) (v : Nat) (j k' : Nat) : (s.answer v).core j k' = s.core j k' := rfl
@[simp] theorem State.disp_answer (s : State) (v : Nat) (j : Nat) : (s.answer v).disp j = s.disp j := rfl
@[simp] theorem State.qp_answer (s : State) (v : Nat) (j : Nat) : (s.answer v).qp j = s.qp j := rfl

end Sys2Proof.Machine
end

