-- ==== Sys2Proof/Laws/Keeps.lean ====
section
/-! SUPPORT. What each shared operation of the machine leaves alone, said once.

`Ign.f φ` says that the view `φ` of a state does not look at the component `f`; the lemma `State.op_keeps` says that every view that
looks at none of the components that the operation may write is the same after it. With `φ` a field, a register read or a byte of
memory, this is the operation's frame. -/

set_option linter.all false

namespace Sys2Proof.Machine
variable {β : Type}

/-! ### Views that ignore a component -/

abbrev Ign.pending (φ : State → β) : Prop := ∀ s x, φ { s with pending := x } = φ s
abbrev Ign.clk (φ : State → β) : Prop := ∀ s x, φ { s with clk := x } = φ s
abbrev Ign.regs (φ : State → β) : Prop := ∀ s x, φ { s with regs := x } = φ s
abbrev Ign.act (φ : State → β) : Prop := ∀ s x, φ { s with act := x } = φ s
abbrev Ign.wset (φ : State → β) : Prop := ∀ s x, φ { s with wset := x } = φ s
abbrev Ign.parBad (φ : State → β) : Prop := ∀ s x, φ { s with parBad := x } = φ s
abbrev Ign.mem (φ : State → β) : Prop := ∀ s x, φ { s with mem := x } = φ s
abbrev Ign.synd (φ : State → β) : Prop := ∀ s x, φ { s with synd := x } = φ s
abbrev Ign.soft (φ : State → β) : Prop := ∀ s x, φ { s with soft := x } = φ s
abbrev Ign.spm (φ : State → β) : Prop := ∀ s x, φ { s with spm := x } = φ s
abbrev Ign.spmErr (φ : State → β) : Prop := ∀ s x, φ { s with spmErr := x } = φ s
abbrev Ign.host (φ : State → β) : Prop := ∀ s x, φ { s with host := x } = φ s
abbrev Ign.tiles (φ : State → β) : Prop := ∀ s x, φ { s with tiles := x } = φ s
abbrev Ign.stops (φ : State → β) : Prop := ∀ s x, φ { s with stops := x } = φ s
abbrev Ign.gate (φ : State → β) : Prop := ∀ s x, φ { s with gate := x } = φ s
abbrev Ign.cores (φ : State → β) : Prop := ∀ s x, φ { s with cores := x } = φ s
abbrev Ign.tokRel (φ : State → β) : Prop := ∀ s x, φ { s with tokRel := x } = φ s
abbrev Ign.disps (φ : State → β) : Prop := ∀ s x, φ { s with disps := x } = φ s
abbrev Ign.nextDisp (φ : State → β) : Prop := ∀ s x, φ { s with nextDisp := x } = φ s
abbrev Ign.packets (φ : State → β) : Prop := ∀ s x, φ { s with packets := x } = φ s
abbrev Ign.cmd (φ : State → β) : Prop := ∀ s x, φ { s with cmd := x } = φ s
abbrev Ign.pcie (φ : State → β) : Prop := ∀ s x, φ { s with pcie := x } = φ s
abbrev Ign.flt (φ : State → β) : Prop := ∀ s x, φ { s with flt := x } = φ s
abbrev Ign.edy (φ : State → β) : Prop := ∀ s x, φ { s with edy := x } = φ s
abbrev Ign.sec (φ : State → β) : Prop := ∀ s x, φ { s with sec := x } = φ s
abbrev Ign.fw (φ : State → β) : Prop := ∀ s x, φ { s with fw := x } = φ s
abbrev Ign.lck (φ : State → β) : Prop := ∀ s x, φ { s with lck := x } = φ s
abbrev Ign.kv (φ : State → β) : Prop := ∀ s x, φ { s with kv := x } = φ s
abbrev Ign.enr (φ : State → β) : Prop := ∀ s x, φ { s with enr := x } = φ s
abbrev Ign.fab (φ : State → β) : Prop := ∀ s x, φ { s with fab := x } = φ s
abbrev Ign.pwr (φ : State → β) : Prop := ∀ s x, φ { s with pwr := x } = φ s
abbrev Ign.thm (φ : State → β) : Prop := ∀ s x, φ { s with thm := x } = φ s
abbrev Ign.brd (φ : State → β) : Prop := ∀ s x, φ { s with brd := x } = φ s
abbrev Ign.boot (φ : State → β) : Prop := ∀ s x, φ { s with boot := x } = φ s
abbrev Ign.rst (φ : State → β) : Prop := ∀ s x, φ { s with rst := x } = φ s
abbrev Ign.outs (φ : State → β) : Prop := ∀ s x, φ { s with outs := x } = φ s

/-! ### Several components at once, conditionals and folds -/

theorem ign_flt_edy {φ : State → β} (hflt : Ign.flt φ) (hedy : Ign.edy φ) (s : State) (x0) (x1) : φ { s with flt := x0, edy := x1 } = φ s := (hflt { s with edy := x1 } x0).trans (hedy s x1)
theorem ign_sec_fw {φ : State → β} (hsec : Ign.sec φ) (hfw : Ign.fw φ) (s : State) (x0) (x1) : φ { s with sec := x0, fw := x1 } = φ s := (hsec { s with fw := x1 } x0).trans (hfw s x1)
theorem ign_pcie_outs {φ : State → β} (hpcie : Ign.pcie φ) (houts : Ign.outs φ) (s : State) (x0) (x1) : φ { s with pcie := x0, outs := x1 } = φ s := (hpcie { s with outs := x1 } x0).trans (houts s x1)
theorem ign_flt_brd {φ : State → β} (hflt : Ign.flt φ) (hbrd : Ign.brd φ) (s : State) (x0) (x1) : φ { s with flt := x0, brd := x1 } = φ s := (hflt { s with brd := x1 } x0).trans (hbrd s x1)
theorem ign_spm_spmErr {φ : State → β} (hspm : Ign.spm φ) (hspmErr : Ign.spmErr φ) (s : State) (x0) (x1) : φ { s with spm := x0, spmErr := x1 } = φ s := (hspm { s with spmErr := x1 } x0).trans (hspmErr s x1)
theorem ign_clk_fab {φ : State → β} (hclk : Ign.clk φ) (hfab : Ign.fab φ) (s : State) (x0) (x1) : φ { s with clk := x0, fab := x1 } = φ s := (hclk { s with fab := x1 } x0).trans (hfab s x1)
theorem ign_pcie_sec {φ : State → β} (hpcie : Ign.pcie φ) (hsec : Ign.sec φ) (s : State) (x0) (x1) : φ { s with pcie := x0, sec := x1 } = φ s := (hpcie { s with sec := x1 } x0).trans (hsec s x1)
theorem ign_fw_boot {φ : State → β} (hfw : Ign.fw φ) (hboot : Ign.boot φ) (s : State) (x0) (x1) : φ { s with fw := x0, boot := x1 } = φ s := (hfw { s with boot := x1 } x0).trans (hboot s x1)
theorem ign_act_wset {φ : State → β} (hact : Ign.act φ) (hwset : Ign.wset φ) (s : State) (x0) (x1) : φ { s with act := x0, wset := x1 } = φ s := (hact { s with wset := x1 } x0).trans (hwset s x1)
theorem ign_kv_enr {φ : State → β} (hkv : Ign.kv φ) (henr : Ign.enr φ) (s : State) (x0) (x1) : φ { s with kv := x0, enr := x1 } = φ s := (hkv { s with enr := x1 } x0).trans (henr s x1)
theorem ign_fab_outs {φ : State → β} (hfab : Ign.fab φ) (houts : Ign.outs φ) (s : State) (x0) (x1) : φ { s with fab := x0, outs := x1 } = φ s := (hfab { s with outs := x1 } x0).trans (houts s x1)
theorem ign_regs_act {φ : State → β} (hregs : Ign.regs φ) (hact : Ign.act φ) (s : State) (x0) (x1) : φ { s with regs := x0, act := x1 } = φ s := (hregs { s with act := x1 } x0).trans (hact s x1)
theorem ign_regs_parBad {φ : State → β} (hregs : Ign.regs φ) (hparBad : Ign.parBad φ) (s : State) (x0) (x1) : φ { s with regs := x0, parBad := x1 } = φ s := (hregs { s with parBad := x1 } x0).trans (hparBad s x1)
theorem ign_act_parBad {φ : State → β} (hact : Ign.act φ) (hparBad : Ign.parBad φ) (s : State) (x0) (x1) : φ { s with act := x0, parBad := x1 } = φ s := (hact { s with parBad := x1 } x0).trans (hparBad s x1)
theorem ign_regs_act_parBad {φ : State → β} (hregs : Ign.regs φ) (hact : Ign.act φ) (hparBad : Ign.parBad φ) (s : State) (x0) (x1) (x2) : φ { s with regs := x0, act := x1, parBad := x2 } = φ s := (hregs { s with act := x1, parBad := x2 } x0).trans (ign_act_parBad hact hparBad s x1 x2)
theorem ign_mem_synd {φ : State → β} (hmem : Ign.mem φ) (hsynd : Ign.synd φ) (s : State) (x0) (x1) : φ { s with mem := x0, synd := x1 } = φ s := (hmem { s with synd := x1 } x0).trans (hsynd s x1)
theorem ign_mem_soft {φ : State → β} (hmem : Ign.mem φ) (hsoft : Ign.soft φ) (s : State) (x0) (x1) : φ { s with mem := x0, soft := x1 } = φ s := (hmem { s with soft := x1 } x0).trans (hsoft s x1)
theorem ign_synd_soft {φ : State → β} (hsynd : Ign.synd φ) (hsoft : Ign.soft φ) (s : State) (x0) (x1) : φ { s with synd := x0, soft := x1 } = φ s := (hsynd { s with soft := x1 } x0).trans (hsoft s x1)
theorem ign_mem_synd_soft {φ : State → β} (hmem : Ign.mem φ) (hsynd : Ign.synd φ) (hsoft : Ign.soft φ) (s : State) (x0) (x1) (x2) : φ { s with mem := x0, synd := x1, soft := x2 } = φ s := (hmem { s with synd := x1, soft := x2 } x0).trans (ign_synd_soft hsynd hsoft s x1 x2)
theorem ign_stops_gate {φ : State → β} (hstops : Ign.stops φ) (hgate : Ign.gate φ) (s : State) (x0) (x1) : φ { s with stops := x0, gate := x1 } = φ s := (hstops { s with gate := x1 } x0).trans (hgate s x1)
theorem ign_stops_cores {φ : State → β} (hstops : Ign.stops φ) (hcores : Ign.cores φ) (s : State) (x0) (x1) : φ { s with stops := x0, cores := x1 } = φ s := (hstops { s with cores := x1 } x0).trans (hcores s x1)
theorem ign_stops_tokRel {φ : State → β} (hstops : Ign.stops φ) (htokRel : Ign.tokRel φ) (s : State) (x0) (x1) : φ { s with stops := x0, tokRel := x1 } = φ s := (hstops { s with tokRel := x1 } x0).trans (htokRel s x1)
theorem ign_gate_cores {φ : State → β} (hgate : Ign.gate φ) (hcores : Ign.cores φ) (s : State) (x0) (x1) : φ { s with gate := x0, cores := x1 } = φ s := (hgate { s with cores := x1 } x0).trans (hcores s x1)
theorem ign_gate_tokRel {φ : State → β} (hgate : Ign.gate φ) (htokRel : Ign.tokRel φ) (s : State) (x0) (x1) : φ { s with gate := x0, tokRel := x1 } = φ s := (hgate { s with tokRel := x1 } x0).trans (htokRel s x1)
theorem ign_cores_tokRel {φ : State → β} (hcores : Ign.cores φ) (htokRel : Ign.tokRel φ) (s : State) (x0) (x1) : φ { s with cores := x0, tokRel := x1 } = φ s := (hcores { s with tokRel := x1 } x0).trans (htokRel s x1)
theorem ign_stops_gate_cores {φ : State → β} (hstops : Ign.stops φ) (hgate : Ign.gate φ) (hcores : Ign.cores φ) (s : State) (x0) (x1) (x2) : φ { s with stops := x0, gate := x1, cores := x2 } = φ s := (hstops { s with gate := x1, cores := x2 } x0).trans (ign_gate_cores hgate hcores s x1 x2)
theorem ign_stops_gate_tokRel {φ : State → β} (hstops : Ign.stops φ) (hgate : Ign.gate φ) (htokRel : Ign.tokRel φ) (s : State) (x0) (x1) (x2) : φ { s with stops := x0, gate := x1, tokRel := x2 } = φ s := (hstops { s with gate := x1, tokRel := x2 } x0).trans (ign_gate_tokRel hgate htokRel s x1 x2)
theorem ign_stops_cores_tokRel {φ : State → β} (hstops : Ign.stops φ) (hcores : Ign.cores φ) (htokRel : Ign.tokRel φ) (s : State) (x0) (x1) (x2) : φ { s with stops := x0, cores := x1, tokRel := x2 } = φ s := (hstops { s with cores := x1, tokRel := x2 } x0).trans (ign_cores_tokRel hcores htokRel s x1 x2)
theorem ign_gate_cores_tokRel {φ : State → β} (hgate : Ign.gate φ) (hcores : Ign.cores φ) (htokRel : Ign.tokRel φ) (s : State) (x0) (x1) (x2) : φ { s with gate := x0, cores := x1, tokRel := x2 } = φ s := (hgate { s with cores := x1, tokRel := x2 } x0).trans (ign_cores_tokRel hcores htokRel s x1 x2)
theorem ign_stops_gate_cores_tokRel {φ : State → β} (hstops : Ign.stops φ) (hgate : Ign.gate φ) (hcores : Ign.cores φ) (htokRel : Ign.tokRel φ) (s : State) (x0) (x1) (x2) (x3) : φ { s with stops := x0, gate := x1, cores := x2, tokRel := x3 } = φ s := (hstops { s with gate := x1, cores := x2, tokRel := x3 } x0).trans (ign_gate_cores_tokRel hgate hcores htokRel s x1 x2 x3)
theorem ign_wset_stops {φ : State → β} (hwset : Ign.wset φ) (hstops : Ign.stops φ) (s : State) (x0) (x1) : φ { s with wset := x0, stops := x1 } = φ s := (hwset { s with stops := x1 } x0).trans (hstops s x1)
theorem ign_wset_gate {φ : State → β} (hwset : Ign.wset φ) (hgate : Ign.gate φ) (s : State) (x0) (x1) : φ { s with wset := x0, gate := x1 } = φ s := (hwset { s with gate := x1 } x0).trans (hgate s x1)
theorem ign_wset_cores {φ : State → β} (hwset : Ign.wset φ) (hcores : Ign.cores φ) (s : State) (x0) (x1) : φ { s with wset := x0, cores := x1 } = φ s := (hwset { s with cores := x1 } x0).trans (hcores s x1)
theorem ign_wset_tokRel {φ : State → β} (hwset : Ign.wset φ) (htokRel : Ign.tokRel φ) (s : State) (x0) (x1) : φ { s with wset := x0, tokRel := x1 } = φ s := (hwset { s with tokRel := x1 } x0).trans (htokRel s x1)
theorem ign_wset_packets {φ : State → β} (hwset : Ign.wset φ) (hpackets : Ign.packets φ) (s : State) (x0) (x1) : φ { s with wset := x0, packets := x1 } = φ s := (hwset { s with packets := x1 } x0).trans (hpackets s x1)
theorem ign_stops_packets {φ : State → β} (hstops : Ign.stops φ) (hpackets : Ign.packets φ) (s : State) (x0) (x1) : φ { s with stops := x0, packets := x1 } = φ s := (hstops { s with packets := x1 } x0).trans (hpackets s x1)
theorem ign_gate_packets {φ : State → β} (hgate : Ign.gate φ) (hpackets : Ign.packets φ) (s : State) (x0) (x1) : φ { s with gate := x0, packets := x1 } = φ s := (hgate { s with packets := x1 } x0).trans (hpackets s x1)
theorem ign_cores_packets {φ : State → β} (hcores : Ign.cores φ) (hpackets : Ign.packets φ) (s : State) (x0) (x1) : φ { s with cores := x0, packets := x1 } = φ s := (hcores { s with packets := x1 } x0).trans (hpackets s x1)
theorem ign_tokRel_packets {φ : State → β} (htokRel : Ign.tokRel φ) (hpackets : Ign.packets φ) (s : State) (x0) (x1) : φ { s with tokRel := x0, packets := x1 } = φ s := (htokRel { s with packets := x1 } x0).trans (hpackets s x1)
theorem ign_wset_stops_gate {φ : State → β} (hwset : Ign.wset φ) (hstops : Ign.stops φ) (hgate : Ign.gate φ) (s : State) (x0) (x1) (x2) : φ { s with wset := x0, stops := x1, gate := x2 } = φ s := (hwset { s with stops := x1, gate := x2 } x0).trans (ign_stops_gate hstops hgate s x1 x2)
theorem ign_wset_stops_cores {φ : State → β} (hwset : Ign.wset φ) (hstops : Ign.stops φ) (hcores : Ign.cores φ) (s : State) (x0) (x1) (x2) : φ { s with wset := x0, stops := x1, cores := x2 } = φ s := (hwset { s with stops := x1, cores := x2 } x0).trans (ign_stops_cores hstops hcores s x1 x2)
theorem ign_wset_stops_tokRel {φ : State → β} (hwset : Ign.wset φ) (hstops : Ign.stops φ) (htokRel : Ign.tokRel φ) (s : State) (x0) (x1) (x2) : φ { s with wset := x0, stops := x1, tokRel := x2 } = φ s := (hwset { s with stops := x1, tokRel := x2 } x0).trans (ign_stops_tokRel hstops htokRel s x1 x2)
theorem ign_wset_stops_packets {φ : State → β} (hwset : Ign.wset φ) (hstops : Ign.stops φ) (hpackets : Ign.packets φ) (s : State) (x0) (x1) (x2) : φ { s with wset := x0, stops := x1, packets := x2 } = φ s := (hwset { s with stops := x1, packets := x2 } x0).trans (ign_stops_packets hstops hpackets s x1 x2)
theorem ign_wset_gate_cores {φ : State → β} (hwset : Ign.wset φ) (hgate : Ign.gate φ) (hcores : Ign.cores φ) (s : State) (x0) (x1) (x2) : φ { s with wset := x0, gate := x1, cores := x2 } = φ s := (hwset { s with gate := x1, cores := x2 } x0).trans (ign_gate_cores hgate hcores s x1 x2)
theorem ign_wset_gate_tokRel {φ : State → β} (hwset : Ign.wset φ) (hgate : Ign.gate φ) (htokRel : Ign.tokRel φ) (s : State) (x0) (x1) (x2) : φ { s with wset := x0, gate := x1, tokRel := x2 } = φ s := (hwset { s with gate := x1, tokRel := x2 } x0).trans (ign_gate_tokRel hgate htokRel s x1 x2)
theorem ign_wset_gate_packets {φ : State → β} (hwset : Ign.wset φ) (hgate : Ign.gate φ) (hpackets : Ign.packets φ) (s : State) (x0) (x1) (x2) : φ { s with wset := x0, gate := x1, packets := x2 } = φ s := (hwset { s with gate := x1, packets := x2 } x0).trans (ign_gate_packets hgate hpackets s x1 x2)
theorem ign_wset_cores_tokRel {φ : State → β} (hwset : Ign.wset φ) (hcores : Ign.cores φ) (htokRel : Ign.tokRel φ) (s : State) (x0) (x1) (x2) : φ { s with wset := x0, cores := x1, tokRel := x2 } = φ s := (hwset { s with cores := x1, tokRel := x2 } x0).trans (ign_cores_tokRel hcores htokRel s x1 x2)
theorem ign_wset_cores_packets {φ : State → β} (hwset : Ign.wset φ) (hcores : Ign.cores φ) (hpackets : Ign.packets φ) (s : State) (x0) (x1) (x2) : φ { s with wset := x0, cores := x1, packets := x2 } = φ s := (hwset { s with cores := x1, packets := x2 } x0).trans (ign_cores_packets hcores hpackets s x1 x2)
theorem ign_wset_tokRel_packets {φ : State → β} (hwset : Ign.wset φ) (htokRel : Ign.tokRel φ) (hpackets : Ign.packets φ) (s : State) (x0) (x1) (x2) : φ { s with wset := x0, tokRel := x1, packets := x2 } = φ s := (hwset { s with tokRel := x1, packets := x2 } x0).trans (ign_tokRel_packets htokRel hpackets s x1 x2)
theorem ign_stops_gate_packets {φ : State → β} (hstops : Ign.stops φ) (hgate : Ign.gate φ) (hpackets : Ign.packets φ) (s : State) (x0) (x1) (x2) : φ { s with stops := x0, gate := x1, packets := x2 } = φ s := (hstops { s with gate := x1, packets := x2 } x0).trans (ign_gate_packets hgate hpackets s x1 x2)
theorem ign_stops_cores_packets {φ : State → β} (hstops : Ign.stops φ) (hcores : Ign.cores φ) (hpackets : Ign.packets φ) (s : State) (x0) (x1) (x2) : φ { s with stops := x0, cores := x1, packets := x2 } = φ s := (hstops { s with cores := x1, packets := x2 } x0).trans (ign_cores_packets hcores hpackets s x1 x2)
theorem ign_stops_tokRel_packets {φ : State → β} (hstops : Ign.stops φ) (htokRel : Ign.tokRel φ) (hpackets : Ign.packets φ) (s : State) (x0) (x1) (x2) : φ { s with stops := x0, tokRel := x1, packets := x2 } = φ s := (hstops { s with tokRel := x1, packets := x2 } x0).trans (ign_tokRel_packets htokRel hpackets s x1 x2)
theorem ign_gate_cores_packets {φ : State → β} (hgate : Ign.gate φ) (hcores : Ign.cores φ) (hpackets : Ign.packets φ) (s : State) (x0) (x1) (x2) : φ { s with gate := x0, cores := x1, packets := x2 } = φ s := (hgate { s with cores := x1, packets := x2 } x0).trans (ign_cores_packets hcores hpackets s x1 x2)
theorem ign_gate_tokRel_packets {φ : State → β} (hgate : Ign.gate φ) (htokRel : Ign.tokRel φ) (hpackets : Ign.packets φ) (s : State) (x0) (x1) (x2) : φ { s with gate := x0, tokRel := x1, packets := x2 } = φ s := (hgate { s with tokRel := x1, packets := x2 } x0).trans (ign_tokRel_packets htokRel hpackets s x1 x2)
theorem ign_cores_tokRel_packets {φ : State → β} (hcores : Ign.cores φ) (htokRel : Ign.tokRel φ) (hpackets : Ign.packets φ) (s : State) (x0) (x1) (x2) : φ { s with cores := x0, tokRel := x1, packets := x2 } = φ s := (hcores { s with tokRel := x1, packets := x2 } x0).trans (ign_tokRel_packets htokRel hpackets s x1 x2)
theorem ign_wset_stops_gate_cores {φ : State → β} (hwset : Ign.wset φ) (hstops : Ign.stops φ) (hgate : Ign.gate φ) (hcores : Ign.cores φ) (s : State) (x0) (x1) (x2) (x3) : φ { s with wset := x0, stops := x1, gate := x2, cores := x3 } = φ s := (hwset { s with stops := x1, gate := x2, cores := x3 } x0).trans (ign_stops_gate_cores hstops hgate hcores s x1 x2 x3)
theorem ign_wset_stops_gate_tokRel {φ : State → β} (hwset : Ign.wset φ) (hstops : Ign.stops φ) (hgate : Ign.gate φ) (htokRel : Ign.tokRel φ) (s : State) (x0) (x1) (x2) (x3) : φ { s with wset := x0, stops := x1, gate := x2, tokRel := x3 } = φ s := (hwset { s with stops := x1, gate := x2, tokRel := x3 } x0).trans (ign_stops_gate_tokRel hstops hgate htokRel s x1 x2 x3)
theorem ign_wset_stops_gate_packets {φ : State → β} (hwset : Ign.wset φ) (hstops : Ign.stops φ) (hgate : Ign.gate φ) (hpackets : Ign.packets φ) (s : State) (x0) (x1) (x2) (x3) : φ { s with wset := x0, stops := x1, gate := x2, packets := x3 } = φ s := (hwset { s with stops := x1, gate := x2, packets := x3 } x0).trans (ign_stops_gate_packets hstops hgate hpackets s x1 x2 x3)
theorem ign_wset_stops_cores_tokRel {φ : State → β} (hwset : Ign.wset φ) (hstops : Ign.stops φ) (hcores : Ign.cores φ) (htokRel : Ign.tokRel φ) (s : State) (x0) (x1) (x2) (x3) : φ { s with wset := x0, stops := x1, cores := x2, tokRel := x3 } = φ s := (hwset { s with stops := x1, cores := x2, tokRel := x3 } x0).trans (ign_stops_cores_tokRel hstops hcores htokRel s x1 x2 x3)
theorem ign_wset_stops_cores_packets {φ : State → β} (hwset : Ign.wset φ) (hstops : Ign.stops φ) (hcores : Ign.cores φ) (hpackets : Ign.packets φ) (s : State) (x0) (x1) (x2) (x3) : φ { s with wset := x0, stops := x1, cores := x2, packets := x3 } = φ s := (hwset { s with stops := x1, cores := x2, packets := x3 } x0).trans (ign_stops_cores_packets hstops hcores hpackets s x1 x2 x3)
theorem ign_wset_stops_tokRel_packets {φ : State → β} (hwset : Ign.wset φ) (hstops : Ign.stops φ) (htokRel : Ign.tokRel φ) (hpackets : Ign.packets φ) (s : State) (x0) (x1) (x2) (x3) : φ { s with wset := x0, stops := x1, tokRel := x2, packets := x3 } = φ s := (hwset { s with stops := x1, tokRel := x2, packets := x3 } x0).trans (ign_stops_tokRel_packets hstops htokRel hpackets s x1 x2 x3)
theorem ign_wset_gate_cores_tokRel {φ : State → β} (hwset : Ign.wset φ) (hgate : Ign.gate φ) (hcores : Ign.cores φ) (htokRel : Ign.tokRel φ) (s : State) (x0) (x1) (x2) (x3) : φ { s with wset := x0, gate := x1, cores := x2, tokRel := x3 } = φ s := (hwset { s with gate := x1, cores := x2, tokRel := x3 } x0).trans (ign_gate_cores_tokRel hgate hcores htokRel s x1 x2 x3)
theorem ign_wset_gate_cores_packets {φ : State → β} (hwset : Ign.wset φ) (hgate : Ign.gate φ) (hcores : Ign.cores φ) (hpackets : Ign.packets φ) (s : State) (x0) (x1) (x2) (x3) : φ { s with wset := x0, gate := x1, cores := x2, packets := x3 } = φ s := (hwset { s with gate := x1, cores := x2, packets := x3 } x0).trans (ign_gate_cores_packets hgate hcores hpackets s x1 x2 x3)
theorem ign_wset_gate_tokRel_packets {φ : State → β} (hwset : Ign.wset φ) (hgate : Ign.gate φ) (htokRel : Ign.tokRel φ) (hpackets : Ign.packets φ) (s : State) (x0) (x1) (x2) (x3) : φ { s with wset := x0, gate := x1, tokRel := x2, packets := x3 } = φ s := (hwset { s with gate := x1, tokRel := x2, packets := x3 } x0).trans (ign_gate_tokRel_packets hgate htokRel hpackets s x1 x2 x3)
theorem ign_wset_cores_tokRel_packets {φ : State → β} (hwset : Ign.wset φ) (hcores : Ign.cores φ) (htokRel : Ign.tokRel φ) (hpackets : Ign.packets φ) (s : State) (x0) (x1) (x2) (x3) : φ { s with wset := x0, cores := x1, tokRel := x2, packets := x3 } = φ s := (hwset { s with cores := x1, tokRel := x2, packets := x3 } x0).trans (ign_cores_tokRel_packets hcores htokRel hpackets s x1 x2 x3)
theorem ign_stops_gate_cores_packets {φ : State → β} (hstops : Ign.stops φ) (hgate : Ign.gate φ) (hcores : Ign.cores φ) (hpackets : Ign.packets φ) (s : State) (x0) (x1) (x2) (x3) : φ { s with stops := x0, gate := x1, cores := x2, packets := x3 } = φ s := (hstops { s with gate := x1, cores := x2, packets := x3 } x0).trans (ign_gate_cores_packets hgate hcores hpackets s x1 x2 x3)
theorem ign_stops_gate_tokRel_packets {φ : State → β} (hstops : Ign.stops φ) (hgate : Ign.gate φ) (htokRel : Ign.tokRel φ) (hpackets : Ign.packets φ) (s : State) (x0) (x1) (x2) (x3) : φ { s with stops := x0, gate := x1, tokRel := x2, packets := x3 } = φ s := (hstops { s with gate := x1, tokRel := x2, packets := x3 } x0).trans (ign_gate_tokRel_packets hgate htokRel hpackets s x1 x2 x3)
theorem ign_stops_cores_tokRel_packets {φ : State → β} (hstops : Ign.stops φ) (hcores : Ign.cores φ) (htokRel : Ign.tokRel φ) (hpackets : Ign.packets φ) (s : State) (x0) (x1) (x2) (x3) : φ { s with stops := x0, cores := x1, tokRel := x2, packets := x3 } = φ s := (hstops { s with cores := x1, tokRel := x2, packets := x3 } x0).trans (ign_cores_tokRel_packets hcores htokRel hpackets s x1 x2 x3)
theorem ign_gate_cores_tokRel_packets {φ : State → β} (hgate : Ign.gate φ) (hcores : Ign.cores φ) (htokRel : Ign.tokRel φ) (hpackets : Ign.packets φ) (s : State) (x0) (x1) (x2) (x3) : φ { s with gate := x0, cores := x1, tokRel := x2, packets := x3 } = φ s := (hgate { s with cores := x1, tokRel := x2, packets := x3 } x0).trans (ign_cores_tokRel_packets hcores htokRel hpackets s x1 x2 x3)
theorem ign_wset_stops_gate_cores_tokRel {φ : State → β} (hwset : Ign.wset φ) (hstops : Ign.stops φ) (hgate : Ign.gate φ) (hcores : Ign.cores φ) (htokRel : Ign.tokRel φ) (s : State) (x0) (x1) (x2) (x3) (x4) : φ { s with wset := x0, stops := x1, gate := x2, cores := x3, tokRel := x4 } = φ s := (hwset { s with stops := x1, gate := x2, cores := x3, tokRel := x4 } x0).trans (ign_stops_gate_cores_tokRel hstops hgate hcores htokRel s x1 x2 x3 x4)
theorem ign_wset_stops_gate_cores_packets {φ : State → β} (hwset : Ign.wset φ) (hstops : Ign.stops φ) (hgate : Ign.gate φ) (hcores : Ign.cores φ) (hpackets : Ign.packets φ) (s : State) (x0) (x1) (x2) (x3) (x4) : φ { s with wset := x0, stops := x1, gate := x2, cores := x3, packets := x4 } = φ s := (hwset { s with stops := x1, gate := x2, cores := x3, packets := x4 } x0).trans (ign_stops_gate_cores_packets hstops hgate hcores hpackets s x1 x2 x3 x4)
theorem ign_wset_stops_gate_tokRel_packets {φ : State → β} (hwset : Ign.wset φ) (hstops : Ign.stops φ) (hgate : Ign.gate φ) (htokRel : Ign.tokRel φ) (hpackets : Ign.packets φ) (s : State) (x0) (x1) (x2) (x3) (x4) : φ { s with wset := x0, stops := x1, gate := x2, tokRel := x3, packets := x4 } = φ s := (hwset { s with stops := x1, gate := x2, tokRel := x3, packets := x4 } x0).trans (ign_stops_gate_tokRel_packets hstops hgate htokRel hpackets s x1 x2 x3 x4)
theorem ign_wset_stops_cores_tokRel_packets {φ : State → β} (hwset : Ign.wset φ) (hstops : Ign.stops φ) (hcores : Ign.cores φ) (htokRel : Ign.tokRel φ) (hpackets : Ign.packets φ) (s : State) (x0) (x1) (x2) (x3) (x4) : φ { s with wset := x0, stops := x1, cores := x2, tokRel := x3, packets := x4 } = φ s := (hwset { s with stops := x1, cores := x2, tokRel := x3, packets := x4 } x0).trans (ign_stops_cores_tokRel_packets hstops hcores htokRel hpackets s x1 x2 x3 x4)
theorem ign_wset_gate_cores_tokRel_packets {φ : State → β} (hwset : Ign.wset φ) (hgate : Ign.gate φ) (hcores : Ign.cores φ) (htokRel : Ign.tokRel φ) (hpackets : Ign.packets φ) (s : State) (x0) (x1) (x2) (x3) (x4) : φ { s with wset := x0, gate := x1, cores := x2, tokRel := x3, packets := x4 } = φ s := (hwset { s with gate := x1, cores := x2, tokRel := x3, packets := x4 } x0).trans (ign_gate_cores_tokRel_packets hgate hcores htokRel hpackets s x1 x2 x3 x4)
theorem ign_stops_gate_cores_tokRel_packets {φ : State → β} (hstops : Ign.stops φ) (hgate : Ign.gate φ) (hcores : Ign.cores φ) (htokRel : Ign.tokRel φ) (hpackets : Ign.packets φ) (s : State) (x0) (x1) (x2) (x3) (x4) : φ { s with stops := x0, gate := x1, cores := x2, tokRel := x3, packets := x4 } = φ s := (hstops { s with gate := x1, cores := x2, tokRel := x3, packets := x4 } x0).trans (ign_gate_cores_tokRel_packets hgate hcores htokRel hpackets s x1 x2 x3 x4)
theorem of_fst {γ : Type} {φ : State → β} {p : State × γ} {a : State} {c : γ} {b : β} (h : p = (a, c)) (e : φ p.1 = b) : φ a = b := by subst h; exact e
theorem ite_keeps (φ : State → β) (c : Prop) [Decidable c] (a b : State) : φ (if c then a else b) = if c then φ a else φ b := apply_ite φ c a b
theorem foldl_keeps {α : Type} (φ : State → β) (g : State → α → State) (s : State) (l : List α) (h : ∀ s a, φ (g s a) = φ s) : φ (l.foldl g s) = φ s := by
  induction l generalizing s with
  | nil => rfl
  | cons a l ih => rw [List.foldl_cons, ih, h]
theorem foldlPair_keeps {α γ : Type} (φ : State → β) (g : State × γ → α → State × γ) (s : State × γ) (l : List α) (h : ∀ s a, φ (g s a).1 = φ s.1) : φ (l.foldl g s).1 = φ s.1 := by
  induction l generalizing s with
  | nil => rfl
  | cons a l ih => rw [List.foldl_cons, ih, h]
theorem foldlJob_keeps {α : Type} (φ : State → β) (g : Job → α → Job) (s : Job) (l : List α) (h : ∀ s a, φ (g s a).st = φ s.st) : φ (l.foldl g s).st = φ s.st := by
  induction l generalizing s with
  | nil => rfl
  | cons a l ih => rw [List.foldl_cons, ih, h]
theorem foldlJobPair_keeps {α γ : Type} (φ : State → β) (g : Job × γ → α → Job × γ) (s : Job × γ) (l : List α) (h : ∀ s a, φ (g s a).1.st = φ s.1.st) : φ (l.foldl g s).1.st = φ s.1.st := by
  induction l generalizing s with
  | nil => rfl
  | cons a l ih => rw [List.foldl_cons, ih, h]
theorem foldr_keeps {α : Type} (φ : State → β) (g : α → State → State) (s : State) (l : List α) (h : ∀ a s, φ (g a s) = φ s) : φ (l.foldr g s) = φ s := by
  induction l with
  | nil => rfl
  | cons a l ih => rw [List.foldr_cons, h, ih]
theorem ite_st (c : Prop) [Decidable c] (a b : Job) : (if c then a else b).st = if c then a.st else b.st := apply_ite Job.st c a b
theorem ite_fst {α γ : Type} (c : Prop) [Decidable c] (a b : α × γ) : (if c then a else b).1 = if c then a.1 else b.1 := apply_ite Prod.fst c a b
theorem State.setDisp_keeps {φ : State → β} (hdisps : Ign.disps φ) (s : State) (d : Nat) (x : Disp) : φ (State.setDisp s d x) = φ s := hdisps _ _
theorem State.fput_keeps {φ : State → β} (hregs : Ign.regs φ) (s : State) (f : Field) (i : Nat) (v : Nat) : φ (State.fput s f i v) = φ s := hregs _ _
theorem State.eventBit_keeps {φ : State → β} (hregs : Ign.regs φ) (s : State) (f : Field) (i : Nat) (b : Nat) : φ (State.eventBit s f i b) = φ s := hregs _ _
theorem State.fadd_keeps {φ : State → β} (hregs : Ign.regs φ) (s : State) (f : Field) (i : Nat) (n : Nat) : φ (State.fadd s f i n) = φ s := hregs _ _
theorem State.free_keeps {φ : State → β} (hclk : Ign.clk φ) (s : State) (w : Nat) : φ (State.free s w).2 = φ s := hclk _ _
theorem State.setQp_keeps {φ : State → β} (hcmd : Ign.cmd φ) (s : State) (q : Nat) (x : Qp) : φ (State.setQp s q x) = φ s := hcmd _ _
theorem State.setStop_keeps {φ : State → β} (hstops : Ign.stops φ) (s : State) (t : Nat) (p : Stop) : φ (State.setStop s t p) = φ s := hstops _ _
theorem State.event_keeps {φ : State → β} (hregs : Ign.regs φ) (s : State) (f : Field) (i : Nat) : φ (State.event s f i) = φ s := hregs _ _
theorem State.fsat_keeps {φ : State → β} (hregs : Ign.regs φ) (s : State) (f : Field) (i : Nat) (n : Nat) : φ (State.fsat s f i n) = φ s := hregs _ _
theorem State.disable_keeps {φ : State → β} (hregs : Ign.regs φ) (s : State) (t : Nat) : φ (State.disable s t) = φ s := hregs _ _
theorem State.put64_keeps {φ : State → β} (hregs : Ign.regs φ) (s : State) (lo : Reg) (hi : Reg) (i : Nat) (v : Nat) : φ (State.put64 s lo hi i v) = φ s := (hregs _ _).trans (hregs _ _)
theorem State.setCore_keeps {φ : State → β} (hcores : Ign.cores φ) (s : State) (t : Nat) (c : Nat) (k : Core) : φ (State.setCore s t c k) = φ s := hcores _ _
theorem State.setEng_keeps {φ : State → β} (htiles : Ign.tiles φ) (s : State) (t : Nat) (e : Eng) : φ (State.setEng s t e) = φ s := htiles _ _
theorem State.rput_keeps {φ : State → β} (hregs : Ign.regs φ) (s : State) (r : Reg) (i : Nat) (w : Word) : φ (State.rput s r i w) = φ s := hregs _ _
theorem State.answer_keeps {φ : State → β} (houts : Ign.outs φ) (s : State) (v : Nat) : φ (State.answer s v) = φ s := houts _ _

/-! ### The operations -/

theorem State.sentryExit_keeps {φ : State → β} (hregs : Ign.regs φ) (hthm : Ign.thm φ) (s : State) : φ (State.sentryExit s) = φ s := by
  unfold State.sentryExit
  try dsimp only
  (repeat' split) <;> first | (simp only [State.fadd_keeps hregs, State.fput_keeps hregs, hregs, hthm, ite_keeps φ, foldl_keeps φ, foldlPair_keeps φ, foldlJob_keeps φ, foldlJobPair_keeps φ, foldr_keeps φ, ite_st, ite_fst, ite_self, implies_true]; done) | rfl
theorem State.logWrite_keeps {φ : State → β} (hregs : Ign.regs φ) (hedy : Ign.edy φ) (s : State) (r : LogRec) (freezes : Bool) : φ (State.logWrite s r freezes) = φ s := by
  unfold State.logWrite
  try dsimp only
  (repeat' split) <;> first | (simp only [State.event_keeps hregs, State.fput_keeps hregs, State.fsat_keeps hregs, hregs, hedy, ite_keeps φ, foldl_keeps φ, foldlPair_keeps φ, foldlJob_keeps φ, foldlJobPair_keeps φ, foldr_keeps φ, ite_st, ite_fst, ite_self, implies_true]; done) | rfl
theorem State.errRefresh_keeps {φ : State → β} (hflt : Ign.flt φ) (hbrd : Ign.brd φ) (s : State) : φ (State.errRefresh s) = φ s := by
  unfold State.errRefresh
  try dsimp only
  (repeat' split) <;> first | (simp only [hflt, hbrd, ign_flt_brd hflt hbrd, ite_keeps φ, foldl_keeps φ, foldlPair_keeps φ, foldlJob_keeps φ, foldlJobPair_keeps φ, foldr_keeps φ, ite_st, ite_fst, ite_self, implies_true]; done) | rfl
theorem State.setSrc_keeps {φ : State → β} (hregs : Ign.regs φ) (hflt : Ign.flt φ) (s : State) (k : Nat) (x : Src) : φ (State.setSrc s k x) = φ s := by
  unfold State.setSrc
  try dsimp only
  (repeat' split) <;> first | (simp only [State.fput_keeps hregs, hregs, hflt, ite_keeps φ, foldl_keeps φ, foldlPair_keeps φ, foldlJob_keeps φ, foldlJobPair_keeps φ, foldr_keeps φ, ite_st, ite_fst, ite_self, implies_true]; done) | rfl
theorem State.msiSend_keeps {φ : State → β} (hpcie : Ign.pcie φ) (houts : Ign.outs φ) (s : State) (f : Nat) (vec : Nat) : φ (State.msiSend s f vec) = φ s := by
  unfold State.msiSend
  try dsimp only
  (repeat' split) <;> first | (simp only [hpcie, houts, ign_pcie_outs hpcie houts, ite_keeps φ, foldl_keeps φ, foldlPair_keeps φ, foldlJob_keeps φ, foldlJobPair_keeps φ, foldr_keeps φ, ite_st, ite_fst, ite_self, implies_true]; done) | rfl
theorem State.outWait_keeps {φ : State → β} (hregs : Ign.regs φ) (hpcie : Ign.pcie φ) (s : State) (o : HostOut) : φ (State.outWait s o) = φ s := by
  unfold State.outWait
  try dsimp only
  (repeat' split) <;> first | (simp only [State.event_keeps hregs, hregs, hpcie, ite_keeps φ, foldl_keeps φ, foldlPair_keeps φ, foldlJob_keeps φ, foldlJobPair_keeps φ, foldr_keeps φ, ite_st, ite_fst, ite_self, implies_true]; done) | rfl
theorem State.msi_keeps {φ : State → β} (hregs : Ign.regs φ) (hpcie : Ign.pcie φ) (houts : Ign.outs φ) (s : State) (f : Nat) (vec : Nat) : φ (State.msi s f vec) = φ s := by
  unfold State.msi
  try dsimp only
  (repeat' split) <;> first | (simp only [State.msiSend_keeps hpcie houts, State.outWait_keeps hregs hpcie, hregs, hpcie, houts, ite_keeps φ, foldl_keeps φ, foldlPair_keeps φ, foldlJob_keeps φ, foldlJobPair_keeps φ, foldr_keeps φ, ite_st, ite_fst, ite_self, implies_true]; done) | rfl
theorem State.trapShow_keeps {φ : State → β} (hregs : Ign.regs φ) (s : State) : φ (State.trapShow s) = φ s := by
  unfold State.trapShow
  try dsimp only
  (repeat' split) <;> first | (simp only [State.fput_keeps hregs, hregs, ite_keeps φ, foldl_keeps φ, foldlPair_keeps φ, foldlJob_keeps φ, foldlJobPair_keeps φ, foldr_keeps φ, ite_st, ite_fst, ite_self, implies_true]; done) | rfl
theorem State.trapNext_keeps {φ : State → β} (hregs : Ign.regs φ) (hflt : Ign.flt φ) (s : State) : φ (State.trapNext s) = φ s := by
  unfold State.trapNext
  try dsimp only
  (repeat' split) <;> first | (simp only [State.fput_keeps hregs, State.trapShow_keeps hregs, hregs, hflt, ite_keeps φ, foldl_keeps φ, foldlPair_keeps φ, foldlJob_keeps φ, foldlJobPair_keeps φ, foldr_keeps φ, ite_st, ite_fst, ite_self, implies_true]; done) | rfl
theorem State.trapPut_keeps {φ : State → β} (hregs : Ign.regs φ) (hflt : Ign.flt φ) (s : State) (k : Nat) : φ (State.trapPut s k) = φ s := by
  unfold State.trapPut
  try dsimp only
  (repeat' split) <;> first | (simp only [State.event_keeps hregs, State.fadd_keeps hregs, State.trapNext_keeps hregs hflt, State.trapShow_keeps hregs, hregs, hflt, ite_keeps φ, foldl_keeps φ, foldlPair_keeps φ, foldlJob_keeps φ, foldlJobPair_keeps φ, foldr_keeps φ, ite_st, ite_fst, ite_self, implies_true]; done) | rfl
theorem State.modWant_keeps {φ : State → β} (hrst : Ign.rst φ) (s : State) (froze : Bool) : φ (State.modWant s froze) = φ s := by
  unfold State.modWant
  try dsimp only
  (repeat' split) <;> first | (simp only [hrst, ite_keeps φ, foldl_keeps φ, foldlPair_keeps φ, foldlJob_keeps φ, foldlJobPair_keeps φ, foldr_keeps φ, ite_st, ite_fst, ite_self, implies_true]; done) | rfl
theorem State.rstEmpty_keeps {φ : State → β} (hregs : Ign.regs φ) (htiles : Ign.tiles φ) (hrst : Ign.rst φ) (s : State) : φ (State.rstEmpty s) = φ s := by
  unfold State.rstEmpty
  try dsimp only
  (repeat' split) <;> first | (simp only [State.fput_keeps hregs, State.setEng_keeps htiles, hregs, htiles, hrst, ite_keeps φ, foldl_keeps φ, foldlPair_keeps φ, foldlJob_keeps φ, foldlJobPair_keeps φ, foldr_keeps φ, ite_st, ite_fst, ite_self, implies_true]; done) | rfl
theorem State.stopGroup_keeps {φ : State → β} (hdisps : Ign.disps φ) (s : State) (k : Nat) : φ (State.stopGroup s k) = φ s := by
  unfold State.stopGroup
  try dsimp only
  (repeat' split) <;> first | (simp only [State.setDisp_keeps hdisps, hdisps, ite_keeps φ, foldl_keeps φ, foldlPair_keeps φ, foldlJob_keeps φ, foldlJobPair_keeps φ, foldr_keeps φ, ite_st, ite_fst, ite_self, implies_true]; done) | rfl
theorem State.reportAt_keeps {φ : State → β} (hdisps : Ign.disps φ) (s : State) (t : Nat) (k : Nat) (status : Nat) (tile : Nat) (idx : Nat) (cause : Nat) : φ (State.reportAt s t k status tile idx cause) = φ s := by
  unfold State.reportAt
  try dsimp only
  (repeat' split) <;> first | (simp only [State.setDisp_keeps hdisps, hdisps, ite_keeps φ, foldl_keeps φ, foldlPair_keeps φ, foldlJob_keeps φ, foldlJobPair_keeps φ, foldr_keeps φ, ite_st, ite_fst, ite_self, implies_true]; done) | rfl
theorem State.report_keeps {φ : State → β} (hdisps : Ign.disps φ) (s : State) (k : Nat) (status : Nat) (tile : Nat) (idx : Nat) (cause : Nat) : φ (State.report s k status tile idx cause) = φ s := by
  unfold State.report
  try dsimp only
  (repeat' split) <;> first | (simp only [State.reportAt_keeps hdisps, hdisps, ite_keeps φ, foldl_keeps φ, foldlPair_keeps φ, foldlJob_keeps φ, foldlJobPair_keeps φ, foldr_keeps φ, ite_st, ite_fst, ite_self, implies_true]; done) | rfl
theorem State.orphan_keeps {φ : State → β} (hregs : Ign.regs φ) (htiles : Ign.tiles φ) (hstops : Ign.stops φ) (hdisps : Ign.disps φ) (s : State) (t : Nat) : φ (State.orphan s t) = φ s := by
  unfold State.orphan
  try dsimp only
  (repeat' split) <;> first | (simp only [State.fadd_keeps hregs, State.report_keeps hdisps, State.setEng_keeps htiles, State.setStop_keeps hstops, State.stopGroup_keeps hdisps, hregs, htiles, hstops, hdisps, ite_keeps φ, foldl_keeps φ, foldlPair_keeps φ, foldlJob_keeps φ, foldlJobPair_keeps φ, foldr_keeps φ, ite_st, ite_fst, ite_self, implies_true]; done) | rfl
theorem State.useClose_keeps {φ : State → β} (henr : Ign.enr φ) (s : State) (u : Nat) : φ (State.useClose s u) = φ s := by
  unfold State.useClose
  try dsimp only
  (repeat' split) <;> first | (simp only [henr, ite_keeps φ, foldl_keeps φ, foldlPair_keeps φ, foldlJob_keeps φ, foldlJobPair_keeps φ, foldr_keeps φ, ite_st, ite_fst, ite_self, implies_true]; done) | rfl
theorem State.forget_keeps {φ : State → β} (hgate : Ign.gate φ) (s : State) (t : Nat) : φ (State.forget s t) = φ s := by
  unfold State.forget
  try dsimp only
  (repeat' split) <;> first | (simp only [hgate, ite_keeps φ, foldl_keeps φ, foldlPair_keeps φ, foldlJob_keeps φ, foldlJobPair_keeps φ, foldr_keeps φ, ite_st, ite_fst, ite_self, implies_true]; done) | rfl
theorem State.headSync_keeps {φ : State → β} (hcmd : Ign.cmd φ) (s : State) (q : Nat) : φ (State.headSync s q) = φ s := by
  unfold State.headSync
  try dsimp only
  (repeat' split) <;> first | (simp only [hcmd, ite_keeps φ, foldl_keeps φ, foldlPair_keeps φ, foldlJob_keeps φ, foldlJobPair_keeps φ, foldr_keeps φ, ite_st, ite_fst, ite_self, implies_true]; done) | rfl
theorem State.raiseAs_keeps {φ : State → β} (hflt : Ign.flt φ) (s₀ : State) (ty : Nat) (inst : Nat) (loc : Nat) (arg : Nat) (code : Nat) (svc : Bool) : φ (State.raiseAs s₀ ty inst loc arg code svc) = φ s₀ := by
  unfold State.raiseAs
  try dsimp only
  (repeat' split) <;> first | (simp only [hflt, ite_keeps φ, foldl_keeps φ, foldlPair_keeps φ, foldlJob_keeps φ, foldlJobPair_keeps φ, foldr_keeps φ, ite_st, ite_fst, ite_self, implies_true]; done) | rfl
theorem State.raise_keeps {φ : State → β} (hflt : Ign.flt φ) (s : State) (ty : Nat) (inst : Nat) (arg : Nat) (code : Nat) : φ (State.raise s ty inst arg code) = φ s := by
  unfold State.raise
  try dsimp only
  (repeat' split) <;> first | (simp only [State.raiseAs_keeps hflt, hflt, ite_keeps φ, foldl_keeps φ, foldlPair_keeps φ, foldlJob_keeps φ, foldlJobPair_keeps φ, foldr_keeps φ, ite_st, ite_fst, ite_self, implies_true]; done) | rfl
theorem State.qpError_keeps {φ : State → β} (hregs : Ign.regs φ) (hcmd : Ign.cmd φ) (hflt : Ign.flt φ) (s : State) (q : Nat) (code : Nat) : φ (State.qpError s q code) = φ s := by
  unfold State.qpError
  try dsimp only
  (repeat' split) <;> first | (simp only [State.event_keeps hregs, State.fput_keeps hregs, State.headSync_keeps hcmd, State.raise_keeps hflt, hregs, hcmd, hflt, ite_keeps φ, foldl_keeps φ, foldlPair_keeps φ, foldlJob_keeps φ, foldlJobPair_keeps φ, foldr_keeps φ, ite_st, ite_fst, ite_self, implies_true]; done) | rfl
theorem State.hostPut_keeps {φ : State → β} (hhost : Ign.host φ) (s : State) (addr : Nat) (bs : List Byte) : φ (State.hostPut s addr bs) = φ s := by
  unfold State.hostPut
  try dsimp only
  (repeat' split) <;> first | (simp only [hhost, ite_keeps φ, foldl_keeps φ, foldlPair_keeps φ, foldlJob_keeps φ, foldlJobPair_keeps φ, foldr_keeps φ, ite_st, ite_fst, ite_self, implies_true]; done) | rfl
theorem State.hostWrite_keeps {φ : State → β} (hregs : Ign.regs φ) (hhost : Ign.host φ) (hpcie : Ign.pcie φ) (s : State) (addr : Nat) (bs : List Byte) : φ (State.hostWrite s addr bs) = φ s := by
  unfold State.hostWrite
  try dsimp only
  (repeat' split) <;> first | (simp only [State.hostPut_keeps hhost, State.outWait_keeps hregs hpcie, hregs, hhost, hpcie, ite_keeps φ, foldl_keeps φ, foldlPair_keeps φ, foldlJob_keeps φ, foldlJobPair_keeps φ, foldr_keeps φ, ite_st, ite_fst, ite_self, implies_true]; done) | rfl
theorem State.completeIrq_keeps {φ : State → β} (hregs : Ign.regs φ) (hcmd : Ign.cmd φ) (hpcie : Ign.pcie φ) (houts : Ign.outs φ) (s : State) (q : Nat) (urgent : Bool) : φ (State.completeIrq s q urgent) = φ s := by
  unfold State.completeIrq
  try dsimp only
  (repeat' split) <;> first | (simp only [State.msi_keeps hregs hpcie houts, State.setQp_keeps hcmd, hregs, hcmd, hpcie, houts, ite_keeps φ, foldl_keeps φ, foldlPair_keeps φ, foldlJob_keeps φ, foldlJobPair_keeps φ, foldr_keeps φ, ite_st, ite_fst, ite_self, implies_true]; done) | rfl
theorem State.writeRecord_keeps {φ : State → β} (hregs : Ign.regs φ) (hhost : Ign.host φ) (hcmd : Ign.cmd φ) (hpcie : Ign.pcie φ) (hflt : Ign.flt φ) (houts : Ign.outs φ) (s : State) (q : Nat) (didx : Nat) (status : Nat) (type : Nat) (cflags : Nat) (tag : List Byte) (result : List Byte) (irq : Bool) : φ (State.writeRecord s q didx status type cflags tag result irq) = φ s := by
  unfold State.writeRecord
  try dsimp only
  (repeat' split) <;> first | (simp only [State.completeIrq_keeps hregs hcmd hpcie houts, State.event_keeps hregs, State.hostWrite_keeps hregs hhost hpcie, State.qpError_keeps hregs hcmd hflt, State.setQp_keeps hcmd, hregs, hhost, hcmd, hpcie, hflt, houts, ite_keeps φ, foldl_keeps φ, foldlPair_keeps φ, foldlJob_keeps φ, foldlJobPair_keeps φ, foldr_keeps φ, ite_st, ite_fst, ite_self, implies_true]; done) | rfl
theorem State.drainCheck_keeps {φ : State → β} (hregs : Ign.regs φ) (s : State) (q : Nat) : φ (State.drainCheck s q) = φ s := by
  unfold State.drainCheck
  try dsimp only
  (repeat' split) <;> first | (simp only [State.fput_keeps hregs, hregs, ite_keeps φ, foldl_keeps φ, foldlPair_keeps φ, foldlJob_keeps φ, foldlJobPair_keeps φ, foldr_keeps φ, ite_st, ite_fst, ite_self, implies_true]; done) | rfl
theorem State.completeKeep_keeps {φ : State → β} (hregs : Ign.regs φ) (hhost : Ign.host φ) (hcmd : Ign.cmd φ) (hpcie : Ign.pcie φ) (hflt : Ign.flt φ) (houts : Ign.outs φ) (s : State) (q : Nat) (d : Descr) (status : Nat) (cflags : Nat) (keep : Nat) (result : List Byte) : φ (State.completeKeep s q d status cflags keep result) = φ s := by
  unfold State.completeKeep
  try dsimp only
  (repeat' split) <;> first | (simp only [State.drainCheck_keeps hregs, State.event_keeps hregs, State.fput_keeps hregs, State.headSync_keeps hcmd, State.setQp_keeps hcmd, State.writeRecord_keeps hregs hhost hcmd hpcie hflt houts, hregs, hhost, hcmd, hpcie, hflt, houts, ite_keeps φ, foldl_keeps φ, foldlPair_keeps φ, foldlJob_keeps φ, foldlJobPair_keeps φ, foldr_keeps φ, ite_st, ite_fst, ite_self, implies_true]; done) | rfl
theorem State.dispFinish_keeps {φ : State → β} (hregs : Ign.regs φ) (hhost : Ign.host φ) (hdisps : Ign.disps φ) (hcmd : Ign.cmd φ) (hpcie : Ign.pcie φ) (hflt : Ign.flt φ) (houts : Ign.outs φ) (s : State) (k : Nat) : φ (State.dispFinish s k) = φ s := by
  unfold State.dispFinish
  try dsimp only
  (repeat' split) <;> first | (simp only [State.completeKeep_keeps hregs hhost hcmd hpcie hflt houts, hregs, hhost, hdisps, hcmd, hpcie, hflt, houts, ite_keeps φ, foldl_keeps φ, foldlPair_keeps φ, foldlJob_keeps φ, foldlJobPair_keeps φ, foldr_keeps φ, ite_st, ite_fst, ite_self, implies_true]; done) | rfl
theorem State.dispCheck_keeps {φ : State → β} (hregs : Ign.regs φ) (hhost : Ign.host φ) (htiles : Ign.tiles φ) (hstops : Ign.stops φ) (hdisps : Ign.disps φ) (hcmd : Ign.cmd φ) (hpcie : Ign.pcie φ) (hflt : Ign.flt φ) (hlck : Ign.lck φ) (houts : Ign.outs φ) (s : State) (k : Nat) : φ (State.dispCheck s k) = φ s := by
  unfold State.dispCheck
  try dsimp only
  (repeat' split) <;> first | (simp only [State.dispFinish_keeps hregs hhost hdisps hcmd hpcie hflt houts, State.fput_keeps hregs, State.put64_keeps hregs, State.report_keeps hdisps, State.setDisp_keeps hdisps, State.setEng_keeps htiles, State.setStop_keeps hstops, hregs, hhost, htiles, hstops, hdisps, hcmd, hpcie, hflt, hlck, houts, ite_keeps φ, foldl_keeps φ, foldlPair_keeps φ, foldlJob_keeps φ, foldlJobPair_keeps φ, foldr_keeps φ, ite_st, ite_fst, ite_self, implies_true]; done) | rfl
theorem State.fenceStuck_keeps {φ : State → β} (hdisps : Ign.disps φ) (s : State) (k : Nat) : φ (State.fenceStuck s k) = φ s := by
  unfold State.fenceStuck
  try dsimp only
  (repeat' split) <;> first | (simp only [State.report_keeps hdisps, State.stopGroup_keeps hdisps, hdisps, ite_keeps φ, foldl_keeps φ, foldlPair_keeps φ, foldlJob_keeps φ, foldlJobPair_keeps φ, foldr_keeps φ, ite_st, ite_fst, ite_self, implies_true]; done) | rfl
theorem State.fenceEnd_keeps {φ : State → β} (hregs : Ign.regs φ) (hhost : Ign.host φ) (htiles : Ign.tiles φ) (hstops : Ign.stops φ) (hgate : Ign.gate φ) (hdisps : Ign.disps φ) (hcmd : Ign.cmd φ) (hpcie : Ign.pcie φ) (hflt : Ign.flt φ) (hlck : Ign.lck φ) (henr : Ign.enr φ) (houts : Ign.outs φ) (s : State) (t : Nat) : φ (State.fenceEnd s t) = φ s := by
  unfold State.fenceEnd
  try dsimp only
  (repeat' split) <;> first | (simp only [State.disable_keeps hregs, State.dispCheck_keeps hregs hhost htiles hstops hdisps hcmd hpcie hflt hlck houts, State.event_keeps hregs, State.fenceStuck_keeps hdisps, State.forget_keeps hgate, State.orphan_keeps hregs htiles hstops hdisps, State.setEng_keeps htiles, State.useClose_keeps henr, hregs, hhost, htiles, hstops, hgate, hdisps, hcmd, hpcie, hflt, hlck, henr, houts, ite_keeps φ, foldl_keeps φ, foldlPair_keeps φ, foldlJob_keeps φ, foldlJobPair_keeps φ, foldr_keeps φ, ite_st, ite_fst, ite_self, implies_true]; done) | rfl
theorem State.arrSettled_keeps {φ : State → β} (htiles : Ign.tiles φ) (henr : Ign.enr φ) (s : State) (t : Nat) : φ (State.arrSettled s t) = φ s := by
  unfold State.arrSettled
  try dsimp only
  (repeat' split) <;> first | (simp only [State.setEng_keeps htiles, State.useClose_keeps henr, htiles, henr, ite_keeps φ, foldl_keeps φ, foldlPair_keeps φ, foldlJob_keeps φ, foldlJobPair_keeps φ, foldr_keeps φ, ite_st, ite_fst, ite_self, implies_true]; done) | rfl
theorem State.abortArray_keeps {φ : State → β} (hregs : Ign.regs φ) (htiles : Ign.tiles φ) (henr : Ign.enr φ) (s : State) (t : Nat) : φ (State.abortArray s t) = φ s := by
  unfold State.abortArray
  try dsimp only
  (repeat' split) <;> first | (simp only [State.arrSettled_keeps htiles henr, State.event_keeps hregs, State.setEng_keeps htiles, hregs, htiles, henr, ite_keeps φ, foldl_keeps φ, foldlPair_keeps φ, foldlJob_keeps φ, foldlJobPair_keeps φ, foldr_keeps φ, ite_st, ite_fst, ite_self, implies_true]; done) | rfl
theorem State.fenceStart_keeps {φ : State → β} (hregs : Ign.regs φ) (htiles : Ign.tiles φ) (hstops : Ign.stops φ) (henr : Ign.enr φ) (s : State) (t : Nat) : φ (State.fenceStart s t) = φ s := by
  unfold State.fenceStart
  try dsimp only
  (repeat' split) <;> first | (simp only [State.abortArray_keeps hregs htiles henr, State.setEng_keeps htiles, State.setStop_keeps hstops, hregs, htiles, hstops, henr, ite_keeps φ, foldl_keeps φ, foldlPair_keeps φ, foldlJob_keeps φ, foldlJobPair_keeps φ, foldr_keeps φ, ite_st, ite_fst, ite_self, implies_true]; done) | rfl
theorem State.fenceNow_keeps {φ : State → β} (hregs : Ign.regs φ) (hhost : Ign.host φ) (htiles : Ign.tiles φ) (hstops : Ign.stops φ) (hgate : Ign.gate φ) (hdisps : Ign.disps φ) (hcmd : Ign.cmd φ) (hpcie : Ign.pcie φ) (hflt : Ign.flt φ) (hlck : Ign.lck φ) (henr : Ign.enr φ) (houts : Ign.outs φ) (s : State) (t : Nat) : φ (State.fenceNow s t) = φ s := by
  unfold State.fenceNow
  try dsimp only
  (repeat' split) <;> first | (simp only [State.fenceEnd_keeps hregs hhost htiles hstops hgate hdisps hcmd hpcie hflt hlck henr houts, State.fenceStart_keeps hregs htiles hstops henr, hregs, hhost, htiles, hstops, hgate, hdisps, hcmd, hpcie, hflt, hlck, henr, houts, ite_keeps φ, foldl_keeps φ, foldlPair_keeps φ, foldlJob_keeps φ, foldlJobPair_keeps φ, foldr_keeps φ, ite_st, ite_fst, ite_self, implies_true]; done) | rfl
theorem State.rstAbsorb_keeps {φ : State → β} (hregs : Ign.regs φ) (hhost : Ign.host φ) (htiles : Ign.tiles φ) (hstops : Ign.stops φ) (hgate : Ign.gate φ) (hdisps : Ign.disps φ) (hcmd : Ign.cmd φ) (hpcie : Ign.pcie φ) (hflt : Ign.flt φ) (hlck : Ign.lck φ) (henr : Ign.enr φ) (hrst : Ign.rst φ) (houts : Ign.outs φ) (s : State) : φ (State.rstAbsorb s) = φ s := by
  unfold State.rstAbsorb
  try dsimp only
  (repeat' split) <;> first | (simp only [State.fenceNow_keeps hregs hhost htiles hstops hgate hdisps hcmd hpcie hflt hlck henr houts, State.rstEmpty_keeps hregs htiles hrst, hregs, hhost, htiles, hstops, hgate, hdisps, hcmd, hpcie, hflt, hlck, henr, hrst, houts, ite_keeps φ, foldl_keeps φ, foldlPair_keeps φ, foldlJob_keeps φ, foldlJobPair_keeps φ, foldr_keeps φ, ite_st, ite_fst, ite_self, implies_true]; done) | rfl
theorem State.setPortState_keeps {φ : State → β} (hregs : Ign.regs φ) (s : State) (p : Nat) (v : Nat) : φ (State.setPortState s p v) = φ s := by
  unfold State.setPortState
  try dsimp only
  (repeat' split) <;> first | (simp only [State.fput_keeps hregs, hregs, ite_keeps φ, foldl_keeps φ, foldlPair_keeps φ, foldlJob_keeps φ, foldlJobPair_keeps φ, foldr_keeps φ, ite_st, ite_fst, ite_self, implies_true]; done) | rfl
theorem State.setPort_keeps {φ : State → β} (hfab : Ign.fab φ) (s : State) (p : Nat) (x : Port) : φ (State.setPort s p x) = φ s := by
  unfold State.setPort
  try dsimp only
  (repeat' split) <;> first | (simp only [hfab, ite_keeps φ, foldl_keeps φ, foldlPair_keeps φ, foldlJob_keeps φ, foldlJobPair_keeps φ, foldr_keeps φ, ite_st, ite_fst, ite_self, implies_true]; done) | rfl
theorem State.portDark_keeps {φ : State → β} (hregs : Ign.regs φ) (hfab : Ign.fab φ) (s : State) (p : Nat) : φ (State.portDark s p) = φ s := by
  unfold State.portDark
  try dsimp only
  (repeat' split) <;> first | (simp only [State.fput_keeps hregs, State.setPort_keeps hfab, hregs, hfab, ite_keeps φ, foldl_keeps φ, foldlPair_keeps φ, foldlJob_keeps φ, foldlJobPair_keeps φ, foldr_keeps φ, ite_st, ite_fst, ite_self, implies_true]; done) | rfl
theorem State.pathClose_keeps {φ : State → β} (hregs : Ign.regs φ) (hfab : Ign.fab φ) (s : State) (w : Nat) : φ (State.pathClose s w) = φ s := by
  unfold State.pathClose
  try dsimp only
  (repeat' split) <;> first | (simp only [State.portDark_keeps hregs hfab, State.setPortState_keeps hregs, hregs, hfab, ite_keeps φ, foldl_keeps φ, foldlPair_keeps φ, foldlJob_keeps φ, foldlJobPair_keeps φ, foldr_keeps φ, ite_st, ite_fst, ite_self, implies_true]; done) | rfl
theorem State.rstAccept_keeps {φ : State → β} (hregs : Ign.regs φ) (hhost : Ign.host φ) (htiles : Ign.tiles φ) (hstops : Ign.stops φ) (hgate : Ign.gate φ) (hdisps : Ign.disps φ) (hcmd : Ign.cmd φ) (hpcie : Ign.pcie φ) (hflt : Ign.flt φ) (hlck : Ign.lck φ) (henr : Ign.enr φ) (hfab : Ign.fab φ) (hrst : Ign.rst φ) (houts : Ign.outs φ) (s : State) (scope : Nat) (target : Nat) (absorb : Bool) (src : Option Nat) : φ (State.rstAccept s scope target absorb src) = φ s := by
  unfold State.rstAccept
  try dsimp only
  (repeat' split) <;> first | (simp only [State.fput_keeps hregs, State.pathClose_keeps hregs hfab, State.rstAbsorb_keeps hregs hhost htiles hstops hgate hdisps hcmd hpcie hflt hlck henr hrst houts, hregs, hhost, htiles, hstops, hgate, hdisps, hcmd, hpcie, hflt, hlck, henr, hfab, hrst, houts, ite_keeps φ, foldl_keeps φ, foldlPair_keeps φ, foldlJob_keeps φ, foldlJobPair_keeps φ, foldr_keeps φ, ite_st, ite_fst, ite_self, implies_true]; done) | rfl
theorem State.addCount_keeps {φ : State → β} (hregs : Ign.regs φ) (s : State) (lo : Reg) (hi : Reg) (i : Nat) (n : Nat) : φ (State.addCount s lo hi i n) = φ s := by
  unfold State.addCount
  try dsimp only
  (repeat' split) <;> first | (simp only [State.put64_keeps hregs, hregs, ite_keeps φ, foldl_keeps φ, foldlPair_keeps φ, foldlJob_keeps φ, foldlJobPair_keeps φ, foldr_keeps φ, ite_st, ite_fst, ite_self, implies_true]; done) | rfl
theorem State.coreRan_keeps {φ : State → β} (hregs : Ign.regs φ) (hcores : Ign.cores φ) (s : State) (t : Nat) (c : Nat) (n : Nat) : φ (State.coreRan s t c n) = φ s := by
  unfold State.coreRan
  try dsimp only
  (repeat' split) <;> first | (simp only [State.addCount_keeps hregs, State.setCore_keeps hcores, hregs, hcores, ite_keeps φ, foldl_keeps φ, foldlPair_keeps φ, foldlJob_keeps φ, foldlJobPair_keeps φ, foldr_keeps φ, ite_st, ite_fst, ite_self, implies_true]; done) | rfl
theorem State.endStall_keeps {φ : State → β} (hregs : Ign.regs φ) (s : State) (t : Nat) (c : Nat) : φ (State.endStall s t c) = φ s := by
  unfold State.endStall
  try dsimp only
  (repeat' split) <;> first | (simp only [State.addCount_keeps hregs, hregs, ite_keeps φ, foldl_keeps φ, foldlPair_keeps φ, foldlJob_keeps φ, foldlJobPair_keeps φ, foldr_keeps φ, ite_st, ite_fst, ite_self, implies_true]; done) | rfl
theorem State.unlend_keeps {φ : State → β} (hgate : Ign.gate φ) (s : State) (t : Nat) (c : Nat) : φ (State.unlend s t c) = φ s := by
  unfold State.unlend
  try dsimp only
  (repeat' split) <;> first | (simp only [hgate, ite_keeps φ, foldl_keeps φ, foldlPair_keeps φ, foldlJob_keeps φ, foldlJobPair_keeps φ, foldr_keeps φ, ite_st, ite_fst, ite_self, implies_true]; done) | rfl
theorem State.setCState_keeps {φ : State → β} (hregs : Ign.regs φ) (s : State) (t : Nat) (c : Nat) (v : Nat) : φ (State.setCState s t c v) = φ s := by
  unfold State.setCState
  try dsimp only
  (repeat' split) <;> first | (simp only [State.fput_keeps hregs, State.rput_keeps hregs, hregs, ite_keeps φ, foldl_keeps φ, foldlPair_keeps φ, foldlJob_keeps φ, foldlJobPair_keeps φ, foldr_keeps φ, ite_st, ite_fst, ite_self, implies_true]; done) | rfl
theorem State.doneWord_keeps {φ : State → β} (hregs : Ign.regs φ) (hcores : Ign.cores φ) (s : State) (t : Nat) (c : Nat) (off : Nat) (code : Nat) (exit : Nat) (tag : Nat) : φ (State.doneWord s t c off code exit tag) = φ s := by
  unfold State.doneWord
  try dsimp only
  (repeat' split) <;> first | (simp only [State.event_keeps hregs, State.setCore_keeps hcores, hregs, hcores, ite_keeps φ, foldl_keeps φ, foldlPair_keeps φ, foldlJob_keeps φ, foldlJobPair_keeps φ, foldr_keeps φ, ite_st, ite_fst, ite_self, implies_true]; done) | rfl
theorem State.endLaunch_keeps {φ : State → β} (hregs : Ign.regs φ) (hgate : Ign.gate φ) (hcores : Ign.cores φ) (htokRel : Ign.tokRel φ) (hflt : Ign.flt φ) (henr : Ign.enr φ) (s : State) (t : Nat) (c : Nat) (code : Nat) (exit : Nat) (pc : Nat) : φ (State.endLaunch s t c code exit pc) = φ s := by
  unfold State.endLaunch
  try dsimp only
  (repeat' split) <;> first | (simp only [State.coreRan_keeps hregs hcores, State.doneWord_keeps hregs hcores, State.endStall_keeps hregs, State.event_keeps hregs, State.fadd_keeps hregs, State.fput_keeps hregs, State.raise_keeps hflt, State.setCState_keeps hregs, State.setCore_keeps hcores, State.unlend_keeps hgate, State.useClose_keeps henr, hregs, hgate, hcores, htokRel, hflt, henr, ite_keeps φ, foldl_keeps φ, foldlPair_keeps φ, foldlJob_keeps φ, foldlJobPair_keeps φ, foldr_keeps φ, ite_st, ite_fst, ite_self, implies_true]; done) | rfl
theorem State.bscErr_keeps {φ : State → β} (hregs : Ign.regs φ) (hgate : Ign.gate φ) (hcores : Ign.cores φ) (htokRel : Ign.tokRel φ) (hflt : Ign.flt φ) (henr : Ign.enr φ) (s : State) (t : Nat) (c : Nat) (code : Nat) : φ (State.bscErr s t c code) = φ s := by
  unfold State.bscErr
  try dsimp only
  (repeat' split) <;> first | (simp only [State.endLaunch_keeps hregs hgate hcores htokRel hflt henr, hregs, hgate, hcores, htokRel, hflt, henr, ite_keeps φ, foldl_keeps φ, foldlPair_keeps φ, foldlJob_keeps φ, foldlJobPair_keeps φ, foldr_keeps φ, ite_st, ite_fst, ite_self, implies_true]; done) | rfl
theorem State.regsReset_keeps {φ : State → β} (hregs : Ign.regs φ) (hact : Ign.act φ) (hparBad : Ign.parBad φ) (s : State) (p : Reg → Nat → Bool) : φ (State.regsReset s p) = φ s := by
  unfold State.regsReset
  try dsimp only
  (repeat' split) <;> first | (simp only [hregs, hact, hparBad, ign_regs_act hregs hact, ign_regs_parBad hregs hparBad, ign_act_parBad hact hparBad, ign_regs_act_parBad hregs hact hparBad, ite_keeps φ, foldl_keeps φ, foldlPair_keeps φ, foldlJob_keeps φ, foldlJobPair_keeps φ, foldr_keeps φ, ite_st, ite_fst, ite_self, implies_true]; done) | rfl
theorem State.engineReset_keeps {φ : State → β} (hregs : Ign.regs φ) (hact : Ign.act φ) (hparBad : Ign.parBad φ) (htiles : Ign.tiles φ) (hstops : Ign.stops φ) (hgate : Ign.gate φ) (henr : Ign.enr φ) (s : State) (t : Nat) : φ (State.engineReset s t) = φ s := by
  unfold State.engineReset
  try dsimp only
  (repeat' split) <;> first | (simp only [State.abortArray_keeps hregs htiles henr, State.event_keeps hregs, State.forget_keeps hgate, State.regsReset_keeps hregs hact hparBad, State.setEng_keeps htiles, State.setStop_keeps hstops, hregs, hact, hparBad, htiles, hstops, hgate, henr, ite_keeps φ, foldl_keeps φ, foldlPair_keeps φ, foldlJob_keeps φ, foldlJobPair_keeps φ, foldr_keeps φ, ite_st, ite_fst, ite_self, implies_true]; done) | rfl
theorem State.towerReset_keeps {φ : State → β} (hregs : Ign.regs φ) (hact : Ign.act φ) (hwset : Ign.wset φ) (hparBad : Ign.parBad φ) (htiles : Ign.tiles φ) (hstops : Ign.stops φ) (hgate : Ign.gate φ) (hcores : Ign.cores φ) (htokRel : Ign.tokRel φ) (hpackets : Ign.packets φ) (hflt : Ign.flt φ) (henr : Ign.enr φ) (s : State) (w : Nat) : φ (State.towerReset s w) = φ s := by
  have h : ∀ (s : State) a b c d e f, φ { s with wset := a, stops := b, gate := c, cores := d, tokRel := e, packets := f } = φ s := fun s a b c d e f =>
    (hwset { s with stops := b, gate := c, cores := d, tokRel := e, packets := f } a).trans
      ((hstops { s with gate := c, cores := d, tokRel := e, packets := f } b).trans
        ((hgate { s with cores := d, tokRel := e, packets := f } c).trans
          ((hcores { s with tokRel := e, packets := f } d).trans ((htokRel { s with packets := f } e).trans (hpackets s f)))))
  unfold State.towerReset
  exact (h _ _ _ _ _ _ _).trans (by simp only [State.bscErr_keeps hregs hgate hcores htokRel hflt henr, State.engineReset_keeps hregs hact hparBad htiles hstops hgate henr, State.regsReset_keeps hregs hact hparBad, hregs, hact, hwset, hparBad, htiles, hstops, hgate, hcores, htokRel, hpackets, hflt, henr, ign_stops_gate hstops hgate, ign_stops_cores hstops hcores, ign_stops_tokRel hstops htokRel, ign_gate_cores hgate hcores, ign_gate_tokRel hgate htokRel, ign_cores_tokRel hcores htokRel, ign_stops_gate_cores hstops hgate hcores, ign_stops_gate_tokRel hstops hgate htokRel, ign_stops_cores_tokRel hstops hcores htokRel, ign_gate_cores_tokRel hgate hcores htokRel, ign_stops_gate_cores_tokRel hstops hgate hcores htokRel, ign_wset_stops hwset hstops, ign_wset_gate hwset hgate, ign_wset_cores hwset hcores, ign_wset_tokRel hwset htokRel, ign_wset_packets hwset hpackets, ign_stops_packets hstops hpackets, ign_gate_packets hgate hpackets, ign_cores_packets hcores hpackets, ign_tokRel_packets htokRel hpackets, ign_wset_stops_gate hwset hstops hgate, ign_wset_stops_cores hwset hstops hcores, ign_wset_stops_tokRel hwset hstops htokRel, ign_wset_stops_packets hwset hstops hpackets, ign_wset_gate_cores hwset hgate hcores, ign_wset_gate_tokRel hwset hgate htokRel, ign_wset_gate_packets hwset hgate hpackets, ign_wset_cores_tokRel hwset hcores htokRel, ign_wset_cores_packets hwset hcores hpackets, ign_wset_tokRel_packets hwset htokRel hpackets, ign_stops_gate_packets hstops hgate hpackets, ign_stops_cores_packets hstops hcores hpackets, ign_stops_tokRel_packets hstops htokRel hpackets, ign_gate_cores_packets hgate hcores hpackets, ign_gate_tokRel_packets hgate htokRel hpackets, ign_cores_tokRel_packets hcores htokRel hpackets, ign_wset_stops_gate_cores hwset hstops hgate hcores, ign_wset_stops_gate_tokRel hwset hstops hgate htokRel, ign_wset_stops_gate_packets hwset hstops hgate hpackets, ign_wset_stops_cores_tokRel hwset hstops hcores htokRel, ign_wset_stops_cores_packets hwset hstops hcores hpackets, ign_wset_stops_tokRel_packets hwset hstops htokRel hpackets, ign_wset_gate_cores_tokRel hwset hgate hcores htokRel, ign_wset_gate_cores_packets hwset hgate hcores hpackets, ign_wset_gate_tokRel_packets hwset hgate htokRel hpackets, ign_wset_cores_tokRel_packets hwset hcores htokRel hpackets, ign_stops_gate_cores_packets hstops hgate hcores hpackets, ign_stops_gate_tokRel_packets hstops hgate htokRel hpackets, ign_stops_cores_tokRel_packets hstops hcores htokRel hpackets, ign_gate_cores_tokRel_packets hgate hcores htokRel hpackets, ign_wset_stops_gate_cores_tokRel hwset hstops hgate hcores htokRel, ign_wset_stops_gate_cores_packets hwset hstops hgate hcores hpackets, ign_wset_stops_gate_tokRel_packets hwset hstops hgate htokRel hpackets, ign_wset_stops_cores_tokRel_packets hwset hstops hcores htokRel hpackets, ign_wset_gate_cores_tokRel_packets hwset hgate hcores htokRel hpackets, ign_stops_gate_cores_tokRel_packets hstops hgate hcores htokRel hpackets, ite_keeps φ, foldl_keeps φ, foldlPair_keeps φ, foldlJob_keeps φ, foldlJobPair_keeps φ, foldr_keeps φ, ite_st, ite_fst, ite_self, implies_true])
theorem State.scopeReset_keeps {φ : State → β} (hregs : Ign.regs φ) (hact : Ign.act φ) (hwset : Ign.wset φ) (hparBad : Ign.parBad φ) (htiles : Ign.tiles φ) (hstops : Ign.stops φ) (hgate : Ign.gate φ) (hcores : Ign.cores φ) (htokRel : Ign.tokRel φ) (hpackets : Ign.packets φ) (hflt : Ign.flt φ) (henr : Ign.enr φ) (s : State) : φ (State.scopeReset s) = φ s := by
  unfold State.scopeReset
  try dsimp only
  (repeat' split) <;> first | (simp only [State.engineReset_keeps hregs hact hparBad htiles hstops hgate henr, State.fput_keeps hregs, State.towerReset_keeps hregs hact hwset hparBad htiles hstops hgate hcores htokRel hpackets hflt henr, hregs, hact, hwset, hparBad, htiles, hstops, hgate, hcores, htokRel, hpackets, hflt, henr, ite_keeps φ, foldl_keeps φ, foldlPair_keeps φ, foldlJob_keeps φ, foldlJobPair_keeps φ, foldr_keeps φ, ite_st, ite_fst, ite_self, implies_true]; done) | rfl
theorem State.rstTake_keeps {φ : State → β} (hregs : Ign.regs φ) (hact : Ign.act φ) (hwset : Ign.wset φ) (hparBad : Ign.parBad φ) (hhost : Ign.host φ) (htiles : Ign.tiles φ) (hstops : Ign.stops φ) (hgate : Ign.gate φ) (hcores : Ign.cores φ) (htokRel : Ign.tokRel φ) (hdisps : Ign.disps φ) (hpackets : Ign.packets φ) (hcmd : Ign.cmd φ) (hpcie : Ign.pcie φ) (hflt : Ign.flt φ) (hlck : Ign.lck φ) (henr : Ign.enr φ) (hrst : Ign.rst φ) (houts : Ign.outs φ) (s : State) (scope : Nat) (target : Nat) (absorb : Bool) (src : Option Nat) : φ (State.rstTake s scope target absorb src) = φ s := by
  unfold State.rstTake
  try dsimp only
  (repeat' split) <;> first | (simp only [State.fput_keeps hregs, State.rstAbsorb_keeps hregs hhost htiles hstops hgate hdisps hcmd hpcie hflt hlck henr hrst houts, State.rstEmpty_keeps hregs htiles hrst, State.scopeReset_keeps hregs hact hwset hparBad htiles hstops hgate hcores htokRel hpackets hflt henr, hregs, hact, hwset, hparBad, hhost, htiles, hstops, hgate, hcores, htokRel, hdisps, hpackets, hcmd, hpcie, hflt, hlck, henr, hrst, houts, ite_keeps φ, foldl_keeps φ, foldlPair_keeps φ, foldlJob_keeps φ, foldlJobPair_keeps φ, foldr_keeps φ, ite_st, ite_fst, ite_self, implies_true]; done) | rfl
theorem State.modWantRec_keeps {φ : State → β} (hrst : Ign.rst φ) (s : State) (k : State → State) (hkk : ∀ s0, φ (k s0) = φ s0) : φ (State.modWantRec s k) = φ s := by
  unfold State.modWantRec
  try dsimp only
  (repeat' split) <;> first | (simp only [State.modWant_keeps hrst, hrst, ite_keeps φ, foldl_keeps φ, foldlPair_keeps φ, foldlJob_keeps φ, foldlJobPair_keeps φ, foldr_keeps φ, ite_st, ite_fst, ite_self, implies_true, hkk]; done) | rfl
theorem State.logEvent_keeps {φ : State → β} (hregs : Ign.regs φ) (hedy : Ign.edy φ) (s : State) (code : Nat) (rest : List Byte) : φ (State.logEvent s code rest) = φ s := by
  unfold State.logEvent
  try dsimp only
  (repeat' split) <;> first | (simp only [State.logWrite_keeps hregs hedy, hregs, hedy, ite_keeps φ, foldl_keeps φ, foldlPair_keeps φ, foldlJob_keeps φ, foldlJobPair_keeps φ, foldr_keeps φ, ite_st, ite_fst, ite_self, implies_true]; done) | rfl
theorem State.rstRequest_keeps {φ : State → β} (hregs : Ign.regs φ) (hact : Ign.act φ) (hwset : Ign.wset φ) (hparBad : Ign.parBad φ) (hhost : Ign.host φ) (htiles : Ign.tiles φ) (hstops : Ign.stops φ) (hgate : Ign.gate φ) (hcores : Ign.cores φ) (htokRel : Ign.tokRel φ) (hdisps : Ign.disps φ) (hpackets : Ign.packets φ) (hcmd : Ign.cmd φ) (hpcie : Ign.pcie φ) (hflt : Ign.flt φ) (hedy : Ign.edy φ) (hlck : Ign.lck φ) (henr : Ign.enr φ) (hfab : Ign.fab φ) (hrst : Ign.rst φ) (houts : Ign.outs φ) (s : State) (scope : Nat) (target : Nat) (absorb : Bool) (src : Option Nat) : φ (State.rstRequest s scope target absorb src) = φ s := by
  unfold State.rstRequest
  try dsimp only
  (repeat' split) <;> first | (simp only [State.event_keeps hregs, State.fput_keeps hregs, State.logEvent_keeps hregs hedy, State.modWant_keeps hrst, State.modWantRec_keeps hrst, State.rstAccept_keeps hregs hhost htiles hstops hgate hdisps hcmd hpcie hflt hlck henr hfab hrst houts, State.rstTake_keeps hregs hact hwset hparBad hhost htiles hstops hgate hcores htokRel hdisps hpackets hcmd hpcie hflt hlck henr hrst houts, hregs, hact, hwset, hparBad, hhost, htiles, hstops, hgate, hcores, htokRel, hdisps, hpackets, hcmd, hpcie, hflt, hedy, hlck, henr, hfab, hrst, houts, ite_keeps φ, foldl_keeps φ, foldlPair_keeps φ, foldlJob_keeps φ, foldlJobPair_keeps φ, foldr_keeps φ, ite_st, ite_fst, ite_self, implies_true]; done) | rfl
theorem State.react_keeps {φ : State → β} (hregs : Ign.regs φ) (hact : Ign.act φ) (hwset : Ign.wset φ) (hparBad : Ign.parBad φ) (hhost : Ign.host φ) (htiles : Ign.tiles φ) (hstops : Ign.stops φ) (hgate : Ign.gate φ) (hcores : Ign.cores φ) (htokRel : Ign.tokRel φ) (hdisps : Ign.disps φ) (hpackets : Ign.packets φ) (hcmd : Ign.cmd φ) (hpcie : Ign.pcie φ) (hflt : Ign.flt φ) (hedy : Ign.edy φ) (hlck : Ign.lck φ) (henr : Ign.enr φ) (hfab : Ign.fab φ) (hbrd : Ign.brd φ) (hrst : Ign.rst φ) (houts : Ign.outs φ) (s : State) (r : Raise) : φ (State.react s r) = φ s := by
  unfold State.react
  try dsimp only
  (repeat' split) <;> first | (simp only [State.errRefresh_keeps hflt hbrd, State.event_keeps hregs, State.logWrite_keeps hregs hedy, State.modWant_keeps hrst, State.msi_keeps hregs hpcie houts, State.rstRequest_keeps hregs hact hwset hparBad hhost htiles hstops hgate hcores htokRel hdisps hpackets hcmd hpcie hflt hedy hlck henr hfab hrst houts, State.setSrc_keeps hregs hflt, State.trapPut_keeps hregs hflt, hregs, hact, hwset, hparBad, hhost, htiles, hstops, hgate, hcores, htokRel, hdisps, hpackets, hcmd, hpcie, hflt, hedy, hlck, henr, hfab, hbrd, hrst, houts, ite_keeps φ, foldl_keeps φ, foldlPair_keeps φ, foldlJob_keeps φ, foldlJobPair_keeps φ, foldr_keeps φ, ite_st, ite_fst, ite_self, implies_true]; done) | rfl
theorem State.takeRaise_keeps {φ : State → β} (hregs : Ign.regs φ) (hact : Ign.act φ) (hwset : Ign.wset φ) (hparBad : Ign.parBad φ) (hhost : Ign.host φ) (htiles : Ign.tiles φ) (hstops : Ign.stops φ) (hgate : Ign.gate φ) (hcores : Ign.cores φ) (htokRel : Ign.tokRel φ) (hdisps : Ign.disps φ) (hpackets : Ign.packets φ) (hcmd : Ign.cmd φ) (hpcie : Ign.pcie φ) (hflt : Ign.flt φ) (hedy : Ign.edy φ) (hlck : Ign.lck φ) (henr : Ign.enr φ) (hfab : Ign.fab φ) (hthm : Ign.thm φ) (hbrd : Ign.brd φ) (hrst : Ign.rst φ) (houts : Ign.outs φ) (s : State) (r : Raise) : φ (State.takeRaise s r) = φ s := by
  unfold State.takeRaise
  try dsimp only
  (repeat' split) <;> first | (simp only [State.event_keeps hregs, State.fadd_keeps hregs, State.logEvent_keeps hregs hedy, State.logWrite_keeps hregs hedy, State.modWantRec_keeps hrst, State.react_keeps hregs hact hwset hparBad hhost htiles hstops hgate hcores htokRel hdisps hpackets hcmd hpcie hflt hedy hlck henr hfab hbrd hrst houts, State.sentryExit_keeps hregs hthm, State.setSrc_keeps hregs hflt, hregs, hact, hwset, hparBad, hhost, htiles, hstops, hgate, hcores, htokRel, hdisps, hpackets, hcmd, hpcie, hflt, hedy, hlck, henr, hfab, hthm, hbrd, hrst, houts, ite_keeps φ, foldl_keeps φ, foldlPair_keeps φ, foldlJob_keeps φ, foldlJobPair_keeps φ, foldr_keeps φ, ite_st, ite_fst, ite_self, implies_true]; done) | rfl
theorem State.openRow_keeps {φ : State → β} (hstops : Ign.stops φ) (s : State) (t : Nat) (off : Nat) : φ (State.openRow s t off) = φ s := by
  unfold State.openRow
  try dsimp only
  (repeat' split) <;> first | (simp only [State.setStop_keeps hstops, hstops, ite_keeps φ, foldl_keeps φ, foldlPair_keeps φ, foldlJob_keeps φ, foldlJobPair_keeps φ, foldr_keeps φ, ite_st, ite_fst, ite_self, implies_true]; done) | rfl
theorem State.block_keeps {φ : State → β} (hstops : Ign.stops φ) (hgate : Ign.gate φ) (s : State) (t : Nat) (off : Nat) : φ (State.block s t off) = φ s := by
  unfold State.block
  try dsimp only
  (repeat' split) <;> first | (simp only [State.openRow_keeps hstops, hstops, hgate, ite_keeps φ, foldl_keeps φ, foldlPair_keeps φ, foldlJob_keeps φ, foldlJobPair_keeps φ, foldr_keeps φ, ite_st, ite_fst, ite_self, implies_true]; done) | rfl
theorem State.note_keeps {φ : State → β} (hstops : Ign.stops φ) (hgate : Ign.gate φ) (s : State) (da : Nat) (write : Bool) : φ (State.note s da write) = φ s := by
  unfold State.note
  try dsimp only
  (repeat' split) <;> first | (simp only [State.block_keeps hstops hgate, State.openRow_keeps hstops, hstops, hgate, ite_keeps φ, foldl_keeps φ, foldlPair_keeps φ, foldlJob_keeps φ, foldlJobPair_keeps φ, foldr_keeps φ, ite_st, ite_fst, ite_self, implies_true]; done) | rfl
theorem State.putWord_keeps {φ : State → β} (hmem : Ign.mem φ) (hsynd : Ign.synd φ) (hsoft : Ign.soft φ) (s : State) (pl : Nat) (bs : List Byte) : φ (State.putWord s pl bs) = φ s := by
  unfold State.putWord
  try dsimp only
  (repeat' split) <;> first | (simp only [hmem, hsynd, hsoft, ign_mem_synd hmem hsynd, ign_mem_soft hmem hsoft, ign_synd_soft hsynd hsoft, ign_mem_synd_soft hmem hsynd hsoft, ite_keeps φ, foldl_keeps φ, foldlPair_keeps φ, foldlJob_keeps φ, foldlJobPair_keeps φ, foldr_keeps φ, ite_st, ite_fst, ite_self, implies_true]; done) | rfl
theorem State.candidate_keeps {φ : State → β} (hregs : Ign.regs φ) (hstops : Ign.stops φ) (hflt : Ign.flt φ) (s : State) (t : Nat) (key : Nat) (ue : Bool) : φ (State.candidate s t key ue) = φ s := by
  unfold State.candidate
  try dsimp only
  (repeat' split) <;> first | (simp only [State.event_keeps hregs, State.raiseAs_keeps hflt, State.rput_keeps hregs, State.setStop_keeps hstops, hregs, hstops, hflt, ite_keeps φ, foldl_keeps φ, foldlPair_keeps φ, foldlJob_keeps φ, foldlJobPair_keeps φ, foldr_keeps φ, ite_st, ite_fst, ite_self, implies_true]; done) | rfl
theorem State.trackAdd_keeps {φ : State → β} (hregs : Ign.regs φ) (hstops : Ign.stops φ) (hflt : Ign.flt φ) (s : State) (t : Nat) (key : Nat) : φ (State.trackAdd s t key) = φ s := by
  unfold State.trackAdd
  try dsimp only
  (repeat' split) <;> first | (simp only [State.candidate_keeps hregs hstops hflt, State.setStop_keeps hstops, hregs, hstops, hflt, ite_keeps φ, foldl_keeps φ, foldlPair_keeps φ, foldlJob_keeps φ, foldlJobPair_keeps φ, foldr_keeps φ, ite_st, ite_fst, ite_self, implies_true]; done) | rfl
theorem State.bucketAdd_keeps {φ : State → β} (hregs : Ign.regs φ) (hflt : Ign.flt φ) (s : State) (t : Nat) : φ (State.bucketAdd s t) = φ s := by
  unfold State.bucketAdd
  try dsimp only
  (repeat' split) <;> first | (simp only [State.event_keeps hregs, State.fput_keeps hregs, State.raise_keeps hflt, hregs, hflt, ite_keeps φ, foldl_keeps φ, foldlPair_keeps φ, foldlJob_keeps φ, foldlJobPair_keeps φ, foldr_keeps φ, ite_st, ite_fst, ite_self, implies_true]; done) | rfl
theorem State.countCorrection_keeps {φ : State → β} (hregs : Ign.regs φ) (hstops : Ign.stops φ) (hflt : Ign.flt φ) (s : State) (t : Nat) (key : Nat) : φ (State.countCorrection s t key) = φ s := by
  unfold State.countCorrection
  try dsimp only
  (repeat' split) <;> first | (simp only [State.bucketAdd_keeps hregs hflt, State.event_keeps hregs, State.fadd_keeps hregs, State.trackAdd_keeps hregs hstops hflt, hregs, hstops, hflt, ite_keeps φ, foldl_keeps φ, foldlPair_keeps φ, foldlJob_keeps φ, foldlJobPair_keeps φ, foldr_keeps φ, ite_st, ite_fst, ite_self, implies_true]; done) | rfl
theorem State.writeBack_keeps {φ : State → β} (hmem : Ign.mem φ) (hsynd : Ign.synd φ) (hsoft : Ign.soft φ) (s : State) (pl : Nat) (ws : List (List Byte × Check)) : φ (State.writeBack s pl ws) = φ s := by
  unfold State.writeBack
  refine (foldl_keeps φ _ _ _ (fun a p => ?_)).trans (hsoft _ _)
  split <;> first | rfl | simp only [State.putWord_keeps hmem hsynd hsoft, hmem, hsynd, hsoft, ite_keeps φ, foldl_keeps φ, foldlPair_keeps φ, foldlJob_keeps φ, foldlJobPair_keeps φ, foldr_keeps φ, ite_st, ite_fst, ite_self, implies_true]
theorem State.recordUe_keeps {φ : State → β} (hregs : Ign.regs φ) (hstops : Ign.stops φ) (hflt : Ign.flt φ) (s : State) (t : Nat) (da : Nat) (src : Nat) : φ (State.recordUe s t da src) = φ s := by
  unfold State.recordUe
  try dsimp only
  (repeat' split) <;> first | (simp only [State.candidate_keeps hregs hstops hflt, State.event_keeps hregs, State.raiseAs_keeps hflt, State.rput_keeps hregs, hregs, hstops, hflt, ite_keeps φ, foldl_keeps φ, foldlPair_keeps φ, foldlJob_keeps φ, foldlJobPair_keeps φ, foldr_keeps φ, ite_st, ite_fst, ite_self, implies_true]; done) | rfl
theorem State.atomRead_keeps {φ : State → β} (hregs : Ign.regs φ) (hmem : Ign.mem φ) (hsynd : Ign.synd φ) (hsoft : Ign.soft φ) (hstops : Ign.stops φ) (hflt : Ign.flt φ) (s : State) (da : Nat) (src₀ : Nat) (ondie : Nat) : φ (State.atomRead s da src₀ ondie).1 = φ s := by
  unfold State.atomRead
  try dsimp only
  (repeat' split) <;> first | (simp only [State.countCorrection_keeps hregs hstops hflt, State.recordUe_keeps hregs hstops hflt, State.writeBack_keeps hmem hsynd hsoft, hregs, hmem, hsynd, hsoft, hstops, hflt, ite_keeps φ, foldl_keeps φ, foldlPair_keeps φ, foldlJob_keeps φ, foldlJobPair_keeps φ, foldr_keeps φ, ite_st, ite_fst, ite_self, implies_true]; done) | rfl
theorem State.wordWrite_keeps {φ : State → β} (hregs : Ign.regs φ) (hmem : Ign.mem φ) (hsynd : Ign.synd φ) (hsoft : Ign.soft φ) (hstops : Ign.stops φ) (hgate : Ign.gate φ) (hflt : Ign.flt φ) (s : State) (da : Nat) (bs : List Byte) : φ (State.wordWrite s da bs).1 = φ s := by
  unfold State.wordWrite
  try dsimp only
  (repeat' split) <;> first | (simp only [State.atomRead_keeps hregs hmem hsynd hsoft hstops hflt, State.note_keeps hstops hgate, State.putWord_keeps hmem hsynd hsoft, hregs, hmem, hsynd, hsoft, hstops, hgate, hflt, ite_keeps φ, foldl_keeps φ, foldlPair_keeps φ, foldlJob_keeps φ, foldlJobPair_keeps φ, foldr_keeps φ, ite_st, ite_fst, ite_self, implies_true]; done) | rfl
theorem State.daWriteGo_keeps {φ : State → β} (hregs : Ign.regs φ) (hmem : Ign.mem φ) (hsynd : Ign.synd φ) (hsoft : Ign.soft φ) (hstops : Ign.stops φ) (hgate : Ign.gate φ) (hflt : Ign.flt φ) (x0 : Nat) (x1 : State) (x2 : Nat) (x3 : List Byte) : φ (State.daWriteGo x0 x1 x2 x3).1 = φ x1 := by
  fun_induction State.daWriteGo x0 x1 x2 x3 <;> first
    | (simp_all +zetaDelta only [State.wordWrite_keeps hregs hmem hsynd hsoft hstops hgate hflt, hregs, hmem, hsynd, hsoft, hstops, hgate, hflt, ite_keeps φ, foldl_keeps φ, foldlPair_keeps φ, foldlJob_keeps φ, foldlJobPair_keeps φ, foldr_keeps φ, ite_st, ite_fst, ite_self, implies_true]; done)
    | (simp +zetaDelta only [State.wordWrite_keeps hregs hmem hsynd hsoft hstops hgate hflt, hregs, hmem, hsynd, hsoft, hstops, hgate, hflt, ite_keeps φ, foldl_keeps φ, foldlPair_keeps φ, foldlJob_keeps φ, foldlJobPair_keeps φ, foldr_keeps φ, ite_st, ite_fst, ite_self, implies_true]; done)
    | (simp +zetaDelta only [State.wordWrite_keeps hregs hmem hsynd hsoft hstops hgate hflt, hregs, hmem, hsynd, hsoft, hstops, hgate, hflt, ite_keeps φ, foldl_keeps φ, foldlPair_keeps φ, foldlJob_keeps φ, foldlJobPair_keeps φ, foldr_keeps φ, ite_st, ite_fst, ite_self, implies_true]; split <;> simp_all +zetaDelta only [State.wordWrite_keeps hregs hmem hsynd hsoft hstops hgate hflt, hregs, hmem, hsynd, hsoft, hstops, hgate, hflt, ite_keeps φ, foldl_keeps φ, foldlPair_keeps φ, foldlJob_keeps φ, foldlJobPair_keeps φ, foldr_keeps φ, ite_st, ite_fst, ite_self, implies_true]; done)
    | (simp_all +zetaDelta [State.wordWrite_keeps hregs hmem hsynd hsoft hstops hgate hflt, hregs, hmem, hsynd, hsoft, hstops, hgate, hflt, ite_keeps φ, foldl_keeps φ, foldlPair_keeps φ, foldlJob_keeps φ, foldlJobPair_keeps φ, foldr_keeps φ, ite_st, ite_fst, ite_self, implies_true]; done)
theorem State.daWrite_keeps {φ : State → β} (hregs : Ign.regs φ) (hmem : Ign.mem φ) (hsynd : Ign.synd φ) (hsoft : Ign.soft φ) (hstops : Ign.stops φ) (hgate : Ign.gate φ) (hflt : Ign.flt φ) (s : State) (da : Nat) (bs : List Byte) : φ (State.daWrite s da bs).1 = φ s := by
  unfold State.daWrite
  try dsimp only
  (repeat' split) <;> first | (simp only [State.daWriteGo_keeps hregs hmem hsynd hsoft hstops hgate hflt, hregs, hmem, hsynd, hsoft, hstops, hgate, hflt, ite_keeps φ, foldl_keeps φ, foldlPair_keeps φ, foldlJob_keeps φ, foldlJobPair_keeps φ, foldr_keeps φ, ite_st, ite_fst, ite_self, implies_true]; done) | rfl
theorem State.qlen_keeps {φ : State → β} (hregs : Ign.regs φ) (s : State) : φ (State.qlen s) = φ s := by
  unfold State.qlen
  try dsimp only
  (repeat' split) <;> first | (simp only [State.fput_keeps hregs, hregs, ite_keeps φ, foldl_keeps φ, foldlPair_keeps φ, foldlJob_keeps φ, foldlJobPair_keeps φ, foldr_keeps φ, ite_st, ite_fst, ite_self, implies_true]; done) | rfl
theorem State.enqueue_keeps {φ : State → β} (hregs : Ign.regs φ) (hmem : Ign.mem φ) (hsynd : Ign.synd φ) (hsoft : Ign.soft φ) (hstops : Ign.stops φ) (hgate : Ign.gate φ) (hflt : Ign.flt φ) (henr : Ign.enr φ) (s : State) (rec_ : List Byte) : φ (State.enqueue s rec_) = φ s := by
  unfold State.enqueue
  try dsimp only
  (repeat' split) <;> first | (simp only [State.daWrite_keeps hregs hmem hsynd hsoft hstops hgate hflt, State.qlen_keeps hregs, hregs, hmem, hsynd, hsoft, hstops, hgate, hflt, henr, ite_keeps φ, foldl_keeps φ, foldlPair_keeps φ, foldlJob_keeps φ, foldlJobPair_keeps φ, foldr_keeps φ, ite_st, ite_fst, ite_self, implies_true]; done) | rfl
theorem State.detCause_keeps {φ : State → β} (hregs : Ign.regs φ) (hdisps : Ign.disps φ) (s : State) (k : Nat) (b : Nat) : φ (State.detCause s k b) = φ s := by
  unfold State.detCause
  try dsimp only
  (repeat' split) <;> first | (simp only [State.fput_keeps hregs, State.setDisp_keeps hdisps, hregs, hdisps, ite_keeps φ, foldl_keeps φ, foldlPair_keeps φ, foldlJob_keeps φ, foldlJobPair_keeps φ, foldr_keeps φ, ite_st, ite_fst, ite_self, implies_true]; done) | rfl
theorem State.strictWait_keeps {φ : State → β} (hregs : Ign.regs φ) (hcores : Ign.cores φ) (hdisps : Ign.disps φ) (s : State) (t : Nat) (c : Nat) : φ (State.strictWait s t c) = φ s := by
  unfold State.strictWait
  try dsimp only
  (repeat' split) <;> first | (simp only [State.detCause_keeps hregs hdisps, State.fadd_keeps hregs, State.setCore_keeps hcores, hregs, hcores, hdisps, ite_keeps φ, foldl_keeps φ, foldlPair_keeps φ, foldlJob_keeps φ, foldlJobPair_keeps φ, foldr_keeps φ, ite_st, ite_fst, ite_self, implies_true]; done) | rfl
theorem State.dState_keeps {φ : State → β} (hpcie : Ign.pcie φ) (s : State) (f : Nat) (d3 : Bool) : φ (State.dState s f d3) = φ s := by
  unfold State.dState
  try dsimp only
  (repeat' split) <;> first | (simp only [hpcie, ite_keeps φ, foldl_keeps φ, foldlPair_keeps φ, foldlJob_keeps φ, foldlJobPair_keeps φ, foldr_keeps φ, ite_st, ite_fst, ite_self, implies_true]; done) | rfl
theorem State.closeSessions_keeps {φ : State → β} (hregs : Ign.regs φ) (hsec : Ign.sec φ) (s : State) (p : Session → Bool) : φ (State.closeSessions s p) = φ s := by
  unfold State.closeSessions
  try dsimp only
  (repeat' split) <;> first | (simp only [State.fput_keeps hregs, hregs, hsec, ite_keeps φ, foldl_keeps φ, foldlPair_keeps φ, foldlJob_keeps φ, foldlJobPair_keeps φ, foldr_keeps φ, ite_st, ite_fst, ite_self, implies_true]; done) | rfl
theorem State.atomBytes_keeps {φ : State → β} (hregs : Ign.regs φ) (hmem : Ign.mem φ) (hsynd : Ign.synd φ) (hsoft : Ign.soft φ) (hstops : Ign.stops φ) (hgate : Ign.gate φ) (hflt : Ign.flt φ) (s : State) (da : Nat) (k : Nat) (src : Nat) : φ (State.atomBytes s da k src).1 = φ s := by
  unfold State.atomBytes
  try dsimp only
  (repeat' split) <;> first | (simp only [State.atomRead_keeps hregs hmem hsynd hsoft hstops hflt, State.note_keeps hstops hgate, hregs, hmem, hsynd, hsoft, hstops, hgate, hflt, ite_keeps φ, foldl_keeps φ, foldlPair_keeps φ, foldlJob_keeps φ, foldlJobPair_keeps φ, foldr_keeps φ, ite_st, ite_fst, ite_self, implies_true]; done) | rfl
theorem State.daReadGo_keeps {φ : State → β} (hregs : Ign.regs φ) (hmem : Ign.mem φ) (hsynd : Ign.synd φ) (hsoft : Ign.soft φ) (hstops : Ign.stops φ) (hgate : Ign.gate φ) (hflt : Ign.flt φ) (x0 : Nat) (x1 : State) (x2 : Nat) (x3 : Nat) (x4 : Nat) : φ (State.daReadGo x0 x1 x2 x3 x4).1 = φ x1 := by
  fun_induction State.daReadGo x0 x1 x2 x3 x4
  · rfl
  · rfl
  · exact State.atomBytes_keeps hregs hmem hsynd hsoft hstops hgate hflt _ _ _ _
  · rename_i ih
    exact ih.trans (State.atomBytes_keeps hregs hmem hsynd hsoft hstops hgate hflt _ _ _ _)
theorem State.daRead_keeps {φ : State → β} (hregs : Ign.regs φ) (hmem : Ign.mem φ) (hsynd : Ign.synd φ) (hsoft : Ign.soft φ) (hstops : Ign.stops φ) (hgate : Ign.gate φ) (hflt : Ign.flt φ) (s : State) (da : Nat) (n : Nat) (src : Nat) : φ (State.daRead s da n src).1 = φ s := by
  unfold State.daRead
  try dsimp only
  (repeat' split) <;> first | (simp only [State.daReadGo_keeps hregs hmem hsynd hsoft hstops hgate hflt, hregs, hmem, hsynd, hsoft, hstops, hgate, hflt, ite_keeps φ, foldl_keeps φ, foldlPair_keeps φ, foldlJob_keeps φ, foldlJobPair_keeps φ, foldr_keeps φ, ite_st, ite_fst, ite_self, implies_true]; done) | rfl
theorem State.kvRead_keeps {φ : State → β} (hregs : Ign.regs φ) (hmem : Ign.mem φ) (hsynd : Ign.synd φ) (hsoft : Ign.soft φ) (hstops : Ign.stops φ) (hgate : Ign.gate φ) (hflt : Ign.flt φ) (s : State) (da : Nat) (n : Nat) : φ (State.kvRead s da n).1 = φ s := by
  unfold State.kvRead
  try dsimp only
  (repeat' split) <;> first | (simp only [State.daRead_keeps hregs hmem hsynd hsoft hstops hgate hflt, State.event_keeps hregs, State.raise_keeps hflt, hregs, hmem, hsynd, hsoft, hstops, hgate, hflt, ite_keeps φ, foldl_keeps φ, foldlPair_keeps φ, foldlJob_keeps φ, foldlJobPair_keeps φ, foldr_keeps φ, ite_st, ite_fst, ite_self, implies_true]; done) | rfl
theorem State.failCtx_keeps {φ : State → β} (hregs : Ign.regs φ) (hmem : Ign.mem φ) (hsynd : Ign.synd φ) (hsoft : Ign.soft φ) (hstops : Ign.stops φ) (hgate : Ign.gate φ) (hflt : Ign.flt φ) (s : State) (c : Nat) : φ (State.failCtx s c) = φ s := by
  unfold State.failCtx
  try dsimp only
  (repeat' split) <;> (try dsimp only) <;> first
    | (simp only [State.daWrite_keeps hregs hmem hsynd hsoft hstops hgate hflt, State.kvRead_keeps hregs hmem hsynd hsoft hstops hgate hflt, hregs, hmem, hsynd, hsoft, hstops, hgate, hflt, ite_keeps φ, foldl_keeps φ, foldlPair_keeps φ, foldlJob_keeps φ, foldlJobPair_keeps φ, foldr_keeps φ, ite_st, ite_fst, ite_self, implies_true]; done)
    | rfl
    | exact of_fst (by assumption) (by simp only [State.daWrite_keeps hregs hmem hsynd hsoft hstops hgate hflt, State.kvRead_keeps hregs hmem hsynd hsoft hstops hgate hflt, hregs, hmem, hsynd, hsoft, hstops, hgate, hflt, ite_keeps φ, foldl_keeps φ, foldlPair_keeps φ, foldlJob_keeps φ, foldlJobPair_keeps φ, foldr_keeps φ, ite_st, ite_fst, ite_self, implies_true])
    | (simp only [State.daWrite_keeps hregs hmem hsynd hsoft hstops hgate hflt, State.kvRead_keeps hregs hmem hsynd hsoft hstops hgate hflt, hregs, hmem, hsynd, hsoft, hstops, hgate, hflt, ite_keeps φ, foldl_keeps φ, foldlPair_keeps φ, foldlJob_keeps φ, foldlJobPair_keeps φ, foldr_keeps φ, ite_st, ite_fst, ite_self, implies_true]; exact of_fst (by assumption) (by simp only [State.daWrite_keeps hregs hmem hsynd hsoft hstops hgate hflt, State.kvRead_keeps hregs hmem hsynd hsoft hstops hgate hflt, hregs, hmem, hsynd, hsoft, hstops, hgate, hflt, ite_keeps φ, foldl_keeps φ, foldlPair_keeps φ, foldlJob_keeps φ, foldlJobPair_keeps φ, foldr_keeps φ, ite_st, ite_fst, ite_self, implies_true]))
theorem State.failSessions_keeps {φ : State → β} (hregs : Ign.regs φ) (hmem : Ign.mem φ) (hsynd : Ign.synd φ) (hsoft : Ign.soft φ) (hstops : Ign.stops φ) (hgate : Ign.gate φ) (hflt : Ign.flt φ) (s : State) (p : Nat → Bool) : φ (State.failSessions s p) = φ s := by
  unfold State.failSessions
  try dsimp only
  (repeat' split) <;> first | (simp only [State.failCtx_keeps hregs hmem hsynd hsoft hstops hgate hflt, hregs, hmem, hsynd, hsoft, hstops, hgate, hflt, ite_keeps φ, foldl_keeps φ, foldlPair_keeps φ, foldlJob_keeps φ, foldlJobPair_keeps φ, foldr_keeps φ, ite_st, ite_fst, ite_self, implies_true]; done) | rfl
theorem State.qpKill_keeps {φ : State → β} (hregs : Ign.regs φ) (hcmd : Ign.cmd φ) (s : State) (q : Nat) : φ (State.qpKill s q) = φ s := by
  unfold State.qpKill
  try dsimp only
  (repeat' split) <;> first | (simp only [State.fput_keeps hregs, State.headSync_keeps hcmd, State.setQp_keeps hcmd, hregs, hcmd, ite_keeps φ, foldl_keeps φ, foldlPair_keeps φ, foldlJob_keeps φ, foldlJobPair_keeps φ, foldr_keeps φ, ite_st, ite_fst, ite_self, implies_true]; done) | rfl
theorem State.killQps_keeps {φ : State → β} (hregs : Ign.regs φ) (hcmd : Ign.cmd φ) (s : State) (p : Nat → Bool) : φ (State.killQps s p) = φ s := by
  unfold State.killQps
  try dsimp only
  (repeat' split) <;> first | (simp only [State.qpKill_keeps hregs hcmd, hregs, hcmd, ite_keeps φ, foldl_keeps φ, foldlPair_keeps φ, foldlJob_keeps φ, foldlJobPair_keeps φ, foldr_keeps φ, ite_st, ite_fst, ite_self, implies_true]; done) | rfl
theorem State.cfgReset_keeps {φ : State → β} (hpcie : Ign.pcie φ) (s : State) (p : Nat → Bool) : φ (State.cfgReset s p) = φ s := by
  unfold State.cfgReset
  try dsimp only
  (repeat' split) <;> first | (simp only [hpcie, ite_keeps φ, foldl_keeps φ, foldlPair_keeps φ, foldlJob_keeps φ, foldlJobPair_keeps φ, foldr_keeps φ, ite_st, ite_fst, ite_self, implies_true]; done) | rfl
theorem State.flr_keeps {φ : State → β} (hregs : Ign.regs φ) (hmem : Ign.mem φ) (hsynd : Ign.synd φ) (hsoft : Ign.soft φ) (hstops : Ign.stops φ) (hgate : Ign.gate φ) (hcmd : Ign.cmd φ) (hpcie : Ign.pcie φ) (hflt : Ign.flt φ) (hsec : Ign.sec φ) (s : State) (p : Nat → Bool) : φ (State.flr s p) = φ s := by
  unfold State.flr
  try dsimp only
  (repeat' split) <;> first | (simp only [State.cfgReset_keeps hpcie, State.closeSessions_keeps hregs hsec, State.failSessions_keeps hregs hmem hsynd hsoft hstops hgate hflt, State.killQps_keeps hregs hcmd, hregs, hmem, hsynd, hsoft, hstops, hgate, hcmd, hpcie, hflt, hsec, ite_keeps φ, foldl_keeps φ, foldlPair_keeps φ, foldlJob_keeps φ, foldlJobPair_keeps φ, foldr_keeps φ, ite_st, ite_fst, ite_self, implies_true]; done) | rfl
theorem State.vfClear_keeps {φ : State → β} (hregs : Ign.regs φ) (hmem : Ign.mem φ) (hsynd : Ign.synd φ) (hsoft : Ign.soft φ) (hstops : Ign.stops φ) (hgate : Ign.gate φ) (hcmd : Ign.cmd φ) (hpcie : Ign.pcie φ) (hflt : Ign.flt φ) (hsec : Ign.sec φ) (s : State) : φ (State.vfClear s) = φ s := by
  unfold State.vfClear
  try dsimp only
  (repeat' split) <;> first | (simp only [State.flr_keeps hregs hmem hsynd hsoft hstops hgate hcmd hpcie hflt hsec, hregs, hmem, hsynd, hsoft, hstops, hgate, hcmd, hpcie, hflt, hsec, ite_keeps φ, foldl_keeps φ, foldlPair_keeps φ, foldlJob_keeps φ, foldlJobPair_keeps φ, foldr_keeps φ, ite_st, ite_fst, ite_self, implies_true]; done) | rfl
theorem State.flrFunc_keeps {φ : State → β} (hregs : Ign.regs φ) (hmem : Ign.mem φ) (hsynd : Ign.synd φ) (hsoft : Ign.soft φ) (hstops : Ign.stops φ) (hgate : Ign.gate φ) (hcmd : Ign.cmd φ) (hpcie : Ign.pcie φ) (hflt : Ign.flt φ) (hsec : Ign.sec φ) (s : State) (f : Nat) : φ (State.flrFunc s f) = φ s := by
  unfold State.flrFunc
  try dsimp only
  (repeat' split) <;> first | (simp only [State.flr_keeps hregs hmem hsynd hsoft hstops hgate hcmd hpcie hflt hsec, State.vfClear_keeps hregs hmem hsynd hsoft hstops hgate hcmd hpcie hflt hsec, hregs, hmem, hsynd, hsoft, hstops, hgate, hcmd, hpcie, hflt, hsec, ite_keeps φ, foldl_keeps φ, foldlPair_keeps φ, foldlJob_keeps φ, foldlJobPair_keeps φ, foldr_keeps φ, ite_st, ite_fst, ite_self, implies_true]; done) | rfl
theorem State.msixFlush_keeps {φ : State → β} (hpcie : Ign.pcie φ) (houts : Ign.outs φ) (s : State) : φ (State.msixFlush s) = φ s := by
  unfold State.msixFlush
  try dsimp only
  (repeat' split) <;> first | (simp only [hpcie, houts, ign_pcie_outs hpcie houts, ite_keeps φ, foldl_keeps φ, foldlPair_keeps φ, foldlJob_keeps φ, foldlJobPair_keeps φ, foldr_keeps φ, ite_st, ite_fst, ite_self, implies_true]; done) | rfl
theorem State.msixControl_keeps {φ : State → β} (hpcie : Ign.pcie φ) (houts : Ign.outs φ) (s : State) (f : Nat) (en : Bool) (mask : Bool) : φ (State.msixControl s f en mask) = φ s := by
  unfold State.msixControl
  try dsimp only
  (repeat' split) <;> first | (simp only [State.msixFlush_keeps hpcie houts, hpcie, houts, ite_keeps φ, foldl_keeps φ, foldlPair_keeps φ, foldlJob_keeps φ, foldlJobPair_keeps φ, foldr_keeps φ, ite_st, ite_fst, ite_self, implies_true]; done) | rfl
theorem State.cfgWrite_keeps {φ : State → β} (hregs : Ign.regs φ) (hmem : Ign.mem φ) (hsynd : Ign.synd φ) (hsoft : Ign.soft φ) (hstops : Ign.stops φ) (hgate : Ign.gate φ) (hcmd : Ign.cmd φ) (hpcie : Ign.pcie φ) (hflt : Ign.flt φ) (hsec : Ign.sec φ) (houts : Ign.outs φ) (s : State) (f : Nat) (off : Nat) (w : Word) : φ (State.cfgWrite s f off w) = φ s := by
  unfold State.cfgWrite
  try dsimp only
  (repeat' split) <;> first | (simp only [State.dState_keeps hpcie, State.flrFunc_keeps hregs hmem hsynd hsoft hstops hgate hcmd hpcie hflt hsec, State.msixControl_keeps hpcie houts, State.vfClear_keeps hregs hmem hsynd hsoft hstops hgate hcmd hpcie hflt hsec, hregs, hmem, hsynd, hsoft, hstops, hgate, hcmd, hpcie, hflt, hsec, houts, ite_keeps φ, foldl_keeps φ, foldlPair_keeps φ, foldlJob_keeps φ, foldlJobPair_keeps φ, foldr_keeps φ, ite_st, ite_fst, ite_self, implies_true]; done) | rfl
theorem State.spmViol_keeps {φ : State → β} (hregs : Ign.regs φ) (s : State) (t : Nat) : φ (State.spmViol s t) = φ s := by
  unfold State.spmViol
  try dsimp only
  (repeat' split) <;> first | (simp only [State.event_keeps hregs, hregs, ite_keeps φ, foldl_keeps φ, foldlPair_keeps φ, foldlJob_keeps φ, foldlJobPair_keeps φ, foldr_keeps φ, ite_st, ite_fst, ite_self, implies_true]; done) | rfl
theorem State.spmDrop_keeps {φ : State → β} (hregs : Ign.regs φ) (s : State) (t : Nat) (cls : Nat) (w : Nat) : φ (State.spmDrop s t cls w) = φ s := by
  unfold State.spmDrop
  try dsimp only
  (repeat' split) <;> first | (simp only [State.event_keeps hregs, State.fadd_keeps hregs, State.rput_keeps hregs, hregs, ite_keeps φ, foldl_keeps φ, foldlPair_keeps φ, foldlJob_keeps φ, foldlJobPair_keeps φ, foldr_keeps φ, ite_st, ite_fst, ite_self, implies_true]; done) | rfl
theorem State.spmPut_keeps {φ : State → β} (hspm : Ign.spm φ) (hspmErr : Ign.spmErr φ) (s : State) (t : Nat) (off : Nat) (bs : List Byte) : φ (State.spmPut s t off bs) = φ s := by
  unfold State.spmPut
  try dsimp only
  (repeat' split) <;> first | (simp only [hspm, hspmErr, ign_spm_spmErr hspm hspmErr, ite_keeps φ, foldl_keeps φ, foldlPair_keeps φ, foldlJob_keeps φ, foldlJobPair_keeps φ, foldr_keeps φ, ite_st, ite_fst, ite_self, implies_true]; done) | rfl
theorem State.spmCe_keeps {φ : State → β} (hregs : Ign.regs φ) (htiles : Ign.tiles φ) (hflt : Ign.flt φ) (s : State) (t : Nat) (w : Nat) : φ (State.spmCe s t w) = φ s := by
  unfold State.spmCe
  try dsimp only
  (repeat' split) <;> first | (simp only [State.bucketAdd_keeps hregs hflt, State.event_keeps hregs, State.fadd_keeps hregs, State.setEng_keeps htiles, hregs, htiles, hflt, ite_keeps φ, foldl_keeps φ, foldlPair_keeps φ, foldlJob_keeps φ, foldlJobPair_keeps φ, foldr_keeps φ, ite_st, ite_fst, ite_self, implies_true]; done) | rfl
theorem State.spmUe_keeps {φ : State → β} (hregs : Ign.regs φ) (hflt : Ign.flt φ) (s : State) (t : Nat) (off : Nat) : φ (State.spmUe s t off) = φ s := by
  unfold State.spmUe
  try dsimp only
  (repeat' split) <;> first | (simp only [State.event_keeps hregs, State.raise_keeps hflt, State.rput_keeps hregs, hregs, hflt, ite_keeps φ, foldl_keeps φ, foldlPair_keeps φ, foldlJob_keeps φ, foldlJobPair_keeps φ, foldr_keeps φ, ite_st, ite_fst, ite_self, implies_true]; done) | rfl
theorem State.spmWord_keeps {φ : State → β} (hclk : Ign.clk φ) (hregs : Ign.regs φ) (htiles : Ign.tiles φ) (hflt : Ign.flt φ) (s : State) (t : Nat) (off : Nat) : φ (State.spmWord s t off).1 = φ s := by
  unfold State.spmWord
  try dsimp only
  (repeat' split) <;> first | (simp only [State.free_keeps hclk, State.spmCe_keeps hregs htiles hflt, State.spmUe_keeps hregs hflt, hclk, hregs, htiles, hflt, ite_keeps φ, foldl_keeps φ, foldlPair_keeps φ, foldlJob_keeps φ, foldlJobPair_keeps φ, foldr_keeps φ, ite_st, ite_fst, ite_self, implies_true]; done) | rfl
theorem State.spmWriteGo_keeps {φ : State → β} (hclk : Ign.clk φ) (hregs : Ign.regs φ) (hspm : Ign.spm φ) (hspmErr : Ign.spmErr φ) (htiles : Ign.tiles φ) (hflt : Ign.flt φ) (x0 : Nat) (x1 : State) (x2 : Nat) (x3 : Nat) (x4 : List Byte) (x5 : List Nat) (x6 : Bool) : φ (State.spmWriteGo x0 x1 x2 x3 x4 x5 x6).1 = φ x1 := by
  fun_induction State.spmWriteGo x0 x1 x2 x3 x4 x5 x6 <;> first
    | (simp_all +zetaDelta only [State.spmPut_keeps hspm hspmErr, State.spmWord_keeps hclk hregs htiles hflt, hclk, hregs, hspm, hspmErr, htiles, hflt, ite_keeps φ, foldl_keeps φ, foldlPair_keeps φ, foldlJob_keeps φ, foldlJobPair_keeps φ, foldr_keeps φ, ite_st, ite_fst, ite_self, implies_true]; done)
    | (simp +zetaDelta only [State.spmPut_keeps hspm hspmErr, State.spmWord_keeps hclk hregs htiles hflt, hclk, hregs, hspm, hspmErr, htiles, hflt, ite_keeps φ, foldl_keeps φ, foldlPair_keeps φ, foldlJob_keeps φ, foldlJobPair_keeps φ, foldr_keeps φ, ite_st, ite_fst, ite_self, implies_true]; done)
    | (simp +zetaDelta only [State.spmPut_keeps hspm hspmErr, State.spmWord_keeps hclk hregs htiles hflt, hclk, hregs, hspm, hspmErr, htiles, hflt, ite_keeps φ, foldl_keeps φ, foldlPair_keeps φ, foldlJob_keeps φ, foldlJobPair_keeps φ, foldr_keeps φ, ite_st, ite_fst, ite_self, implies_true]; split <;> simp_all +zetaDelta only [State.spmPut_keeps hspm hspmErr, State.spmWord_keeps hclk hregs htiles hflt, hclk, hregs, hspm, hspmErr, htiles, hflt, ite_keeps φ, foldl_keeps φ, foldlPair_keeps φ, foldlJob_keeps φ, foldlJobPair_keeps φ, foldr_keeps φ, ite_st, ite_fst, ite_self, implies_true]; done)
    | (simp_all +zetaDelta [State.spmPut_keeps hspm hspmErr, State.spmWord_keeps hclk hregs htiles hflt, hclk, hregs, hspm, hspmErr, htiles, hflt, ite_keeps φ, foldl_keeps φ, foldlPair_keeps φ, foldlJob_keeps φ, foldlJobPair_keeps φ, foldr_keeps φ, ite_st, ite_fst, ite_self, implies_true]; done)
theorem State.spmWriteB_keeps {φ : State → β} (hclk : Ign.clk φ) (hregs : Ign.regs φ) (hspm : Ign.spm φ) (hspmErr : Ign.spmErr φ) (htiles : Ign.tiles φ) (hflt : Ign.flt φ) (s : State) (t : Nat) (off : Nat) (bs : List Byte) (cls : Nat) (portA : List Nat) : φ (State.spmWriteB s t off bs cls portA).1 = φ s := by
  unfold State.spmWriteB
  try dsimp only
  (repeat' split) <;> first | (simp only [State.spmDrop_keeps hregs, State.spmWriteGo_keeps hclk hregs hspm hspmErr htiles hflt, hclk, hregs, hspm, hspmErr, htiles, hflt, ite_keeps φ, foldl_keeps φ, foldlPair_keeps φ, foldlJob_keeps φ, foldlJobPair_keeps φ, foldr_keeps φ, ite_st, ite_fst, ite_self, implies_true]; done) | rfl
theorem State.collided_keeps {φ : State → β} (hregs : Ign.regs φ) (houts : Ign.outs φ) (s : State) (u : Nat) (x2 : Sender) : φ (State.collided s u x2) = φ s := by
  unfold State.collided
  try dsimp only
  (repeat' split) <;> first | (simp only [State.rput_keeps hregs, hregs, houts, ite_keeps φ, foldl_keeps φ, foldlPair_keeps φ, foldlJob_keeps φ, foldlJobPair_keeps φ, foldr_keeps φ, ite_st, ite_fst, ite_self, implies_true]; done) | rfl
theorem State.spmWrite_keeps {φ : State → β} (hclk : Ign.clk φ) (hregs : Ign.regs φ) (hspm : Ign.spm φ) (hspmErr : Ign.spmErr φ) (htiles : Ign.tiles φ) (hflt : Ign.flt φ) (s : State) (t : Nat) (off : Nat) (bs : List Byte) : φ (State.spmWrite s t off bs).1 = φ s := by
  unfold State.spmWrite
  try dsimp only
  (repeat' split) <;> first | (simp only [State.spmWriteGo_keeps hclk hregs hspm hspmErr htiles hflt, hclk, hregs, hspm, hspmErr, htiles, hflt, ite_keeps φ, foldl_keeps φ, foldlPair_keeps φ, foldlJob_keeps φ, foldlJobPair_keeps φ, foldr_keeps φ, ite_st, ite_fst, ite_self, implies_true]; done) | rfl
theorem State.segWrite_keeps {φ : State → β} (hclk : Ign.clk φ) (hregs : Ign.regs φ) (hspm : Ign.spm φ) (hspmErr : Ign.spmErr φ) (htiles : Ign.tiles φ) (hflt : Ign.flt φ) (houts : Ign.outs φ) (s : State) (u : Nat) (x : Sender) (off : Nat) (bs : List Byte) (portA : List Nat) : φ (State.segWrite s u x off bs portA).1 = φ s := by
  unfold State.segWrite
  try dsimp only
  (repeat' split) <;> first | (simp only [State.collided_keeps hregs houts, State.spmWrite_keeps hclk hregs hspm hspmErr htiles hflt, State.spmWriteB_keeps hclk hregs hspm hspmErr htiles hflt, hclk, hregs, hspm, hspmErr, htiles, hflt, houts, ite_keeps φ, foldl_keeps φ, foldlPair_keeps φ, foldlJob_keeps φ, foldlJobPair_keeps φ, foldr_keeps φ, ite_st, ite_fst, ite_self, implies_true]; done) | rfl
theorem State.segsWrite_keeps {φ : State → β} (hclk : Ign.clk φ) (hregs : Ign.regs φ) (hspm : Ign.spm φ) (hspmErr : Ign.spmErr φ) (htiles : Ign.tiles φ) (hflt : Ign.flt φ) (houts : Ign.outs φ) (pass : List Nat) (x1 : List (Nat × Nat)) (x2 : State) (x3 : Nat) (x4 : Sender) (x5 : List Byte) (x6 : List Nat) : φ (State.segsWrite pass x1 x2 x3 x4 x5 x6).1 = φ x2 := by
  fun_induction State.segsWrite pass x1 x2 x3 x4 x5 x6 <;> first
    | (simp_all +zetaDelta only [State.segWrite_keeps hclk hregs hspm hspmErr htiles hflt houts, State.spmViol_keeps hregs, hclk, hregs, hspm, hspmErr, htiles, hflt, houts, ite_keeps φ, foldl_keeps φ, foldlPair_keeps φ, foldlJob_keeps φ, foldlJobPair_keeps φ, foldr_keeps φ, ite_st, ite_fst, ite_self, implies_true]; done)
    | (simp +zetaDelta only [State.segWrite_keeps hclk hregs hspm hspmErr htiles hflt houts, State.spmViol_keeps hregs, hclk, hregs, hspm, hspmErr, htiles, hflt, houts, ite_keeps φ, foldl_keeps φ, foldlPair_keeps φ, foldlJob_keeps φ, foldlJobPair_keeps φ, foldr_keeps φ, ite_st, ite_fst, ite_self, implies_true]; done)
    | (simp +zetaDelta only [State.segWrite_keeps hclk hregs hspm hspmErr htiles hflt houts, State.spmViol_keeps hregs, hclk, hregs, hspm, hspmErr, htiles, hflt, houts, ite_keeps φ, foldl_keeps φ, foldlPair_keeps φ, foldlJob_keeps φ, foldlJobPair_keeps φ, foldr_keeps φ, ite_st, ite_fst, ite_self, implies_true]; split <;> simp_all +zetaDelta only [State.segWrite_keeps hclk hregs hspm hspmErr htiles hflt houts, State.spmViol_keeps hregs, hclk, hregs, hspm, hspmErr, htiles, hflt, houts, ite_keeps φ, foldl_keeps φ, foldlPair_keeps φ, foldlJob_keeps φ, foldlJobPair_keeps φ, foldr_keeps φ, ite_st, ite_fst, ite_self, implies_true]; done)
    | (simp_all +zetaDelta [State.segWrite_keeps hclk hregs hspm hspmErr htiles hflt houts, State.spmViol_keeps hregs, hclk, hregs, hspm, hspmErr, htiles, hflt, houts, ite_keeps φ, foldl_keeps φ, foldlPair_keeps φ, foldlJob_keeps φ, foldlJobPair_keeps φ, foldr_keeps φ, ite_st, ite_fst, ite_self, implies_true]; done)
theorem State.escalate_keeps {φ : State → β} (hthm : Ign.thm φ) (s : State) : φ (State.escalate s) = φ s := by
  unfold State.escalate
  try dsimp only
  (repeat' split) <;> first | (simp only [hthm, ite_keeps φ, foldl_keeps φ, foldlPair_keeps φ, foldlJob_keeps φ, foldlJobPair_keeps φ, foldr_keeps φ, ite_st, ite_fst, ite_self, implies_true]; done) | rfl
theorem State.entryLost_keeps {φ : State → β} (hregs : Ign.regs φ) (hmem : Ign.mem φ) (hsynd : Ign.synd φ) (hsoft : Ign.soft φ) (hstops : Ign.stops φ) (hgate : Ign.gate φ) (hflt : Ign.flt φ) (hkv : Ign.kv φ) (s : State) (c : Nat) : φ (State.entryLost s c) = φ s := by
  unfold State.entryLost
  try dsimp only
  (repeat' split) <;> first | (simp only [State.daWrite_keeps hregs hmem hsynd hsoft hstops hgate hflt, State.rput_keeps hregs, hregs, hmem, hsynd, hsoft, hstops, hgate, hflt, hkv, ite_keeps φ, foldl_keeps φ, foldlPair_keeps φ, foldlJob_keeps φ, foldlJobPair_keeps φ, foldr_keeps φ, ite_st, ite_fst, ite_self, implies_true]; done) | rfl
theorem State.itemEntry_keeps {φ : State → β} (hregs : Ign.regs φ) (hmem : Ign.mem φ) (hsynd : Ign.synd φ) (hsoft : Ign.soft φ) (hstops : Ign.stops φ) (hgate : Ign.gate φ) (hflt : Ign.flt φ) (hkv : Ign.kv φ) (s : State) (c : Nat) (f : Nat) : φ (State.itemEntry s c f).1 = φ s := by
  unfold State.itemEntry
  try dsimp only
  (repeat' split) <;> (try dsimp only) <;> first
    | (simp only [State.entryLost_keeps hregs hmem hsynd hsoft hstops hgate hflt hkv, State.kvRead_keeps hregs hmem hsynd hsoft hstops hgate hflt, hregs, hmem, hsynd, hsoft, hstops, hgate, hflt, hkv, ite_keeps φ, foldl_keeps φ, foldlPair_keeps φ, foldlJob_keeps φ, foldlJobPair_keeps φ, foldr_keeps φ, ite_st, ite_fst, ite_self, implies_true]; done)
    | rfl
    | exact of_fst (by assumption) (by simp only [State.entryLost_keeps hregs hmem hsynd hsoft hstops hgate hflt hkv, State.kvRead_keeps hregs hmem hsynd hsoft hstops hgate hflt, hregs, hmem, hsynd, hsoft, hstops, hgate, hflt, hkv, ite_keeps φ, foldl_keeps φ, foldlPair_keeps φ, foldlJob_keeps φ, foldlJobPair_keeps φ, foldr_keeps φ, ite_st, ite_fst, ite_self, implies_true])
    | (simp only [State.entryLost_keeps hregs hmem hsynd hsoft hstops hgate hflt hkv, State.kvRead_keeps hregs hmem hsynd hsoft hstops hgate hflt, hregs, hmem, hsynd, hsoft, hstops, hgate, hflt, hkv, ite_keeps φ, foldl_keeps φ, foldlPair_keeps φ, foldlJob_keeps φ, foldlJobPair_keeps φ, foldr_keeps φ, ite_st, ite_fst, ite_self, implies_true]; exact of_fst (by assumption) (by simp only [State.entryLost_keeps hregs hmem hsynd hsoft hstops hgate hflt hkv, State.kvRead_keeps hregs hmem hsynd hsoft hstops hgate hflt, hregs, hmem, hsynd, hsoft, hstops, hgate, hflt, hkv, ite_keeps φ, foldl_keeps φ, foldlPair_keeps φ, foldlJob_keeps φ, foldlJobPair_keeps φ, foldr_keeps φ, ite_st, ite_fst, ite_self, implies_true]))
theorem State.fabRead_keeps {φ : State → β} (hclk : Ign.clk φ) (hregs : Ign.regs φ) (hmem : Ign.mem φ) (hsynd : Ign.synd φ) (hsoft : Ign.soft φ) (hstops : Ign.stops φ) (hgate : Ign.gate φ) (hflt : Ign.flt φ) (s : State) (da : Nat) (n : Nat) : φ (State.fabRead s da n).1 = φ s := by
  unfold State.fabRead
  try dsimp only
  (repeat' split) <;> first | (simp only [State.daRead_keeps hregs hmem hsynd hsoft hstops hgate hflt, State.free_keeps hclk, hclk, hregs, hmem, hsynd, hsoft, hstops, hgate, hflt, ite_keeps φ, foldl_keeps φ, foldlPair_keeps φ, foldlJob_keeps φ, foldlJobPair_keeps φ, foldr_keeps φ, ite_st, ite_fst, ite_self, implies_true]; done) | rfl
theorem State.stagedImage_keeps {φ : State → β} (hclk : Ign.clk φ) (hregs : Ign.regs φ) (hmem : Ign.mem φ) (hsynd : Ign.synd φ) (hsoft : Ign.soft φ) (hstops : Ign.stops φ) (hgate : Ign.gate φ) (hflt : Ign.flt φ) (s : State) : φ (State.stagedImage s).1 = φ s := by
  unfold State.stagedImage
  try dsimp only
  (repeat' split) <;> first | (simp only [State.fabRead_keeps hclk hregs hmem hsynd hsoft hstops hgate hflt, hclk, hregs, hmem, hsynd, hsoft, hstops, hgate, hflt, ite_keeps φ, foldl_keeps φ, foldlPair_keeps φ, foldlJob_keeps φ, foldlJobPair_keeps φ, foldr_keeps φ, ite_st, ite_fst, ite_self, implies_true]; done) | rfl
theorem State.setMr_keeps {φ : State → β} (hregs : Ign.regs φ) (hsec : Ign.sec φ) (s : State) (mr : List Byte) : φ (State.setMr s mr) = φ s := by
  unfold State.setMr
  try dsimp only
  (repeat' split) <;> first | (simp only [State.rput_keeps hregs, hregs, hsec, ite_keeps φ, foldl_keeps φ, foldlPair_keeps φ, foldlJob_keeps φ, foldlJobPair_keeps φ, foldr_keeps φ, ite_st, ite_fst, ite_self, implies_true]; done) | rfl
theorem State.measure_keeps {φ : State → β} (hregs : Ign.regs φ) (hsec : Ign.sec φ) (s : State) (type : Nat) (svn : Nat) (digest : List Byte) (info : List Byte) : φ (State.measure s type svn digest info) = φ s := by
  unfold State.measure
  try dsimp only
  (repeat' split) <;> first | (simp only [State.fput_keeps hregs, State.setMr_keeps hregs hsec, hregs, hsec, ite_keeps φ, foldl_keeps φ, foldlPair_keeps φ, foldlJob_keeps φ, foldlJobPair_keeps φ, foldr_keeps φ, ite_st, ite_fst, ite_self, implies_true]; done) | rfl
theorem State.handOver_keeps {φ : State → β} (hregs : Ign.regs φ) (hsec : Ign.sec φ) (hfw : Ign.fw φ) (s : State) (i : Image) : φ (State.handOver s i) = φ s := by
  unfold State.handOver
  try dsimp only
  (repeat' split) <;> first | (simp only [State.fput_keeps hregs, State.measure_keeps hregs hsec, State.rput_keeps hregs, hregs, hsec, hfw, ign_sec_fw hsec hfw, ite_keeps φ, foldl_keeps φ, foldlPair_keeps φ, foldlJob_keeps φ, foldlJobPair_keeps φ, foldr_keeps φ, ite_st, ite_fst, ite_self, implies_true]; done) | rfl
theorem State.complete_keeps {φ : State → β} (hregs : Ign.regs φ) (hhost : Ign.host φ) (hcmd : Ign.cmd φ) (hpcie : Ign.pcie φ) (hflt : Ign.flt φ) (houts : Ign.outs φ) (s : State) (q : Nat) (d : Descr) (status : Nat) (result : List Byte) : φ (State.complete s q d status result) = φ s := by
  unfold State.complete
  try dsimp only
  (repeat' split) <;> first | (simp only [State.completeKeep_keeps hregs hhost hcmd hpcie hflt houts, hregs, hhost, hcmd, hpcie, hflt, houts, ite_keeps φ, foldl_keeps φ, foldlPair_keeps φ, foldlJob_keeps φ, foldlJobPair_keeps φ, foldr_keeps φ, ite_st, ite_fst, ite_self, implies_true]; done) | rfl
theorem State.peerState_keeps {φ : State → β} (hregs : Ign.regs φ) (hmem : Ign.mem φ) (hsynd : Ign.synd φ) (hsoft : Ign.soft φ) (hstops : Ign.stops φ) (hgate : Ign.gate φ) (hflt : Ign.flt φ) (s : State) (i : Nat) : φ (State.peerState s i).1 = φ s := by
  unfold State.peerState
  try dsimp only
  (repeat' split) <;> first | (simp only [State.daRead_keeps hregs hmem hsynd hsoft hstops hgate hflt, hregs, hmem, hsynd, hsoft, hstops, hgate, hflt, ite_keeps φ, foldl_keeps φ, foldlPair_keeps φ, foldlJob_keeps φ, foldlJobPair_keeps φ, foldr_keeps φ, ite_st, ite_fst, ite_self, implies_true]; done) | rfl
theorem State.setPeer_keeps {φ : State → β} (hfab : Ign.fab φ) (s : State) (i : Nat) (x : Peer) : φ (State.setPeer s i x) = φ s := by
  unfold State.setPeer
  try dsimp only
  (repeat' split) <;> first | (simp only [hfab, ite_keeps φ, foldl_keeps φ, foldlPair_keeps φ, foldlJob_keeps φ, foldlJobPair_keeps φ, foldr_keeps φ, ite_st, ite_fst, ite_self, implies_true]; done) | rfl
theorem State.statusWord_keeps {φ : State → β} (hregs : Ign.regs φ) (hmem : Ign.mem φ) (hsynd : Ign.synd φ) (hsoft : Ign.soft φ) (hstops : Ign.stops φ) (hgate : Ign.gate φ) (hflt : Ign.flt φ) (s : State) (x : Send) (status : Nat) (old : Nat) : φ (State.statusWord s x status old) = φ s := by
  unfold State.statusWord
  try dsimp only
  (repeat' split) <;> first | (simp only [State.daWrite_keeps hregs hmem hsynd hsoft hstops hgate hflt, hregs, hmem, hsynd, hsoft, hstops, hgate, hflt, ite_keeps φ, foldl_keeps φ, foldlPair_keeps φ, foldlJob_keeps φ, foldlJobPair_keeps φ, foldr_keeps φ, ite_st, ite_fst, ite_self, implies_true]; done) | rfl
theorem State.kvComplete_keeps {φ : State → β} (hregs : Ign.regs φ) (hhost : Ign.host φ) (hcmd : Ign.cmd φ) (hpcie : Ign.pcie φ) (hflt : Ign.flt φ) (houts : Ign.outs φ) (s : State) (qi : Nat × Nat) (st : Nat) (res : List Byte) : φ (State.kvComplete s qi st res) = φ s := by
  unfold State.kvComplete
  try dsimp only
  (repeat' split) <;> first | (simp only [State.complete_keeps hregs hhost hcmd hpcie hflt houts, hregs, hhost, hcmd, hpcie, hflt, houts, ite_keeps φ, foldl_keeps φ, foldlPair_keeps φ, foldlJob_keeps φ, foldlJobPair_keeps φ, foldr_keeps φ, ite_st, ite_fst, ite_self, implies_true]; done) | rfl
theorem State.mapAnswer_keeps {φ : State → β} (hregs : Ign.regs φ) (hhost : Ign.host φ) (hcmd : Ign.cmd φ) (hpcie : Ign.pcie φ) (hflt : Ign.flt φ) (hfab : Ign.fab φ) (houts : Ign.outs φ) (s : State) (qp : Nat) (idx : Nat) (i : Nat) (ok : Bool) : φ (State.mapAnswer s qp idx i ok) = φ s := by
  unfold State.mapAnswer
  try dsimp only
  (repeat' split) <;> first | (simp only [State.kvComplete_keeps hregs hhost hcmd hpcie hflt houts, hregs, hhost, hcmd, hpcie, hflt, hfab, houts, ite_keeps φ, foldl_keeps φ, foldlPair_keeps φ, foldlJob_keeps φ, foldlJobPair_keeps φ, foldr_keeps φ, ite_st, ite_fst, ite_self, implies_true]; done) | rfl
theorem State.ownerEnd_keeps {φ : State → β} (hregs : Ign.regs φ) (hmem : Ign.mem φ) (hsynd : Ign.synd φ) (hsoft : Ign.soft φ) (hhost : Ign.host φ) (hstops : Ign.stops φ) (hgate : Ign.gate φ) (hcmd : Ign.cmd φ) (hpcie : Ign.pcie φ) (hflt : Ign.flt φ) (hfab : Ign.fab φ) (houts : Ign.outs φ) (s : State) (i : Nat) (o : Owner) (status : Nat) (old : Nat) : φ (State.ownerEnd s i o status old) = φ s := by
  unfold State.ownerEnd
  try dsimp only
  (repeat' split) <;> first | (simp only [State.mapAnswer_keeps hregs hhost hcmd hpcie hflt hfab houts, State.statusWord_keeps hregs hmem hsynd hsoft hstops hgate hflt, hregs, hmem, hsynd, hsoft, hhost, hstops, hgate, hcmd, hpcie, hflt, hfab, houts, ite_keeps φ, foldl_keeps φ, foldlPair_keeps φ, foldlJob_keeps φ, foldlJobPair_keeps φ, foldr_keeps φ, ite_st, ite_fst, ite_self, implies_true]; done) | rfl
theorem State.spray_keeps {φ : State → β} (hfab : Ign.fab φ) (s : State) (ps : List Nat) : φ (State.spray s ps).1 = φ s := by
  unfold State.spray
  try dsimp only
  (repeat' split) <;> first | (simp only [hfab, ite_keeps φ, foldl_keeps φ, foldlPair_keeps φ, foldlJob_keeps φ, foldlJobPair_keeps φ, foldr_keeps φ, ite_st, ite_fst, ite_self, implies_true]; done) | rfl
theorem State.dportOf_keeps {φ : State → β} (hclk : Ign.clk φ) (hfab : Ign.fab φ) (s : State) (i : Nat) : φ (State.dportOf s i).1 = φ s := by
  unfold State.dportOf
  try dsimp only
  (repeat' split) <;> first | (simp only [State.free_keeps hclk, State.setPeer_keeps hfab, hclk, hfab, ite_keeps φ, foldl_keeps φ, foldlPair_keeps φ, foldlJob_keeps φ, foldlJobPair_keeps φ, foldr_keeps φ, ite_st, ite_fst, ite_self, implies_true]; done) | rfl
theorem State.sendPacket_keeps {φ : State → β} (hclk : Ign.clk φ) (hfab : Ign.fab φ) (houts : Ign.outs φ) (s : State) (i : Nat) (p : Nat) (op : Nat) (psn : Nat) (msn : Nat) (off : Nat) (mlen : Nat) (tag : Nat) (arg0 : Nat) (arg1 : Nat) (fence : Bool) (last : Bool) (payload : List Byte) : φ (State.sendPacket s i p op psn msn off mlen tag arg0 arg1 fence last payload) = φ s := by
  unfold State.sendPacket
  try dsimp only
  (repeat' split) <;> first | (simp only [State.dportOf_keeps hclk hfab, State.setPeer_keeps hfab, State.setPort_keeps hfab, hclk, hfab, houts, ign_fab_outs hfab houts, ite_keeps φ, foldl_keeps φ, foldlPair_keeps φ, foldlJob_keeps φ, foldlJobPair_keeps φ, foldr_keeps φ, ite_st, ite_fst, ite_self, implies_true]; done) | rfl
theorem State.sendControl_keeps {φ : State → β} (hclk : Ign.clk φ) (hfab : Ign.fab φ) (houts : Ign.outs φ) (s : State) (i : Nat) (op : Nat) (arg0 : Nat) : φ (State.sendControl s i op arg0) = φ s := by
  unfold State.sendControl
  try dsimp only
  (repeat' split) <;> first | (simp only [State.sendPacket_keeps hclk hfab houts, State.spray_keeps hfab, hclk, hfab, houts, ite_keeps φ, foldl_keeps φ, foldlPair_keeps φ, foldlJob_keeps φ, foldlJobPair_keeps φ, foldr_keeps φ, ite_st, ite_fst, ite_self, implies_true]; done) | rfl
theorem State.pumpGo_keeps {φ : State → β} (hclk : Ign.clk φ) (hfab : Ign.fab φ) (houts : Ign.outs φ) (x0 : Nat) (x1 : State) (x2 : Nat) : φ (State.pumpGo x0 x1 x2) = φ x1 := by
  fun_induction State.pumpGo x0 x1 x2 <;> first
    | (simp_all +zetaDelta only [State.sendPacket_keeps hclk hfab houts, State.setPeer_keeps hfab, State.spray_keeps hfab, hclk, hfab, houts, ite_keeps φ, foldl_keeps φ, foldlPair_keeps φ, foldlJob_keeps φ, foldlJobPair_keeps φ, foldr_keeps φ, ite_st, ite_fst, ite_self, implies_true]; done)
    | (simp +zetaDelta only [State.sendPacket_keeps hclk hfab houts, State.setPeer_keeps hfab, State.spray_keeps hfab, hclk, hfab, houts, ite_keeps φ, foldl_keeps φ, foldlPair_keeps φ, foldlJob_keeps φ, foldlJobPair_keeps φ, foldr_keeps φ, ite_st, ite_fst, ite_self, implies_true]; done)
    | (simp +zetaDelta only [State.sendPacket_keeps hclk hfab houts, State.setPeer_keeps hfab, State.spray_keeps hfab, hclk, hfab, houts, ite_keeps φ, foldl_keeps φ, foldlPair_keeps φ, foldlJob_keeps φ, foldlJobPair_keeps φ, foldr_keeps φ, ite_st, ite_fst, ite_self, implies_true]; split <;> simp_all +zetaDelta only [State.sendPacket_keeps hclk hfab houts, State.setPeer_keeps hfab, State.spray_keeps hfab, hclk, hfab, houts, ite_keeps φ, foldl_keeps φ, foldlPair_keeps φ, foldlJob_keeps φ, foldlJobPair_keeps φ, foldr_keeps φ, ite_st, ite_fst, ite_self, implies_true]; done)
    | (simp_all +zetaDelta [State.sendPacket_keeps hclk hfab houts, State.setPeer_keeps hfab, State.spray_keeps hfab, hclk, hfab, houts, ite_keeps φ, foldl_keeps φ, foldlPair_keeps φ, foldlJob_keeps φ, foldlJobPair_keeps φ, foldr_keeps φ, ite_st, ite_fst, ite_self, implies_true]; done)
theorem State.pump_keeps {φ : State → β} (hclk : Ign.clk φ) (hfab : Ign.fab φ) (houts : Ign.outs φ) (s : State) (i : Nat) : φ (State.pump s i) = φ s := by
  unfold State.pump
  try dsimp only
  (repeat' split) <;> first | (simp only [State.pumpGo_keeps hclk hfab houts, hclk, hfab, houts, ite_keeps φ, foldl_keeps φ, foldlPair_keeps φ, foldlJob_keeps φ, foldlJobPair_keeps φ, foldr_keeps φ, ite_st, ite_fst, ite_self, implies_true]; done) | rfl
theorem State.post_keeps {φ : State → β} (hclk : Ign.clk φ) (hregs : Ign.regs φ) (hmem : Ign.mem φ) (hsynd : Ign.synd φ) (hsoft : Ign.soft φ) (hhost : Ign.host φ) (hstops : Ign.stops φ) (hgate : Ign.gate φ) (hcmd : Ign.cmd φ) (hpcie : Ign.pcie φ) (hflt : Ign.flt φ) (hfab : Ign.fab φ) (houts : Ign.outs φ) (s : State) (i : Nat) (op : Nat) (fence : Bool) (tag : Nat) (arg0 : Nat) (arg1 : Nat) (len : Nat) (data : List Byte) (reply : Bool) (o : Owner) : φ (State.post s i op fence tag arg0 arg1 len data reply o) = φ s := by
  unfold State.post
  try dsimp only
  (repeat' split) <;> first | (simp only [State.ownerEnd_keeps hregs hmem hsynd hsoft hhost hstops hgate hcmd hpcie hflt hfab houts, State.peerState_keeps hregs hmem hsynd hsoft hstops hgate hflt, State.pump_keeps hclk hfab houts, State.sendControl_keeps hclk hfab houts, State.setPeer_keeps hfab, hclk, hregs, hmem, hsynd, hsoft, hhost, hstops, hgate, hcmd, hpcie, hflt, hfab, houts, ite_keeps φ, foldl_keeps φ, foldlPair_keeps φ, foldlJob_keeps φ, foldlJobPair_keeps φ, foldr_keeps φ, ite_st, ite_fst, ite_self, implies_true]; done) | rfl
theorem State.sendMark_keeps {φ : State → β} (hclk : Ign.clk φ) (hregs : Ign.regs φ) (hmem : Ign.mem φ) (hsynd : Ign.synd φ) (hsoft : Ign.soft φ) (hhost : Ign.host φ) (hstops : Ign.stops φ) (hgate : Ign.gate φ) (hcmd : Ign.cmd φ) (hpcie : Ign.pcie φ) (hflt : Ign.flt φ) (hfab : Ign.fab φ) (houts : Ign.outs φ) (s : State) (i : Nat) : φ (State.sendMark s i) = φ s := by
  unfold State.sendMark
  try dsimp only
  (repeat' split) <;> first | (simp only [State.post_keeps hclk hregs hmem hsynd hsoft hhost hstops hgate hcmd hpcie hflt hfab houts, hclk, hregs, hmem, hsynd, hsoft, hhost, hstops, hgate, hcmd, hpcie, hflt, hfab, houts, ite_keeps φ, foldl_keeps φ, foldlPair_keeps φ, foldlJob_keeps φ, foldlJobPair_keeps φ, foldr_keeps φ, ite_st, ite_fst, ite_self, implies_true]; done) | rfl
theorem State.fwDone_keeps {φ : State → β} (hclk : Ign.clk φ) (hregs : Ign.regs φ) (hmem : Ign.mem φ) (hsynd : Ign.synd φ) (hsoft : Ign.soft φ) (hhost : Ign.host φ) (hstops : Ign.stops φ) (hgate : Ign.gate φ) (hcmd : Ign.cmd φ) (hpcie : Ign.pcie φ) (hflt : Ign.flt φ) (hfw : Ign.fw φ) (hfab : Ign.fab φ) (houts : Ign.outs φ) (s : State) : φ (State.fwDone s) = φ s := by
  unfold State.fwDone
  try dsimp only
  (repeat' split) <;> first | (simp only [State.complete_keeps hregs hhost hcmd hpcie hflt houts, State.event_keeps hregs, State.fput_keeps hregs, State.sendMark_keeps hclk hregs hmem hsynd hsoft hhost hstops hgate hcmd hpcie hflt hfab houts, hclk, hregs, hmem, hsynd, hsoft, hhost, hstops, hgate, hcmd, hpcie, hflt, hfw, hfab, houts, ite_keeps φ, foldl_keeps φ, foldlPair_keeps φ, foldlJob_keeps φ, foldlJobPair_keeps φ, foldr_keeps φ, ite_st, ite_fst, ite_self, implies_true]; done) | rfl
theorem State.ucodeNext_keeps {φ : State → β} (hclk : Ign.clk φ) (hregs : Ign.regs φ) (hmem : Ign.mem φ) (hsynd : Ign.synd φ) (hsoft : Ign.soft φ) (hhost : Ign.host φ) (hstops : Ign.stops φ) (hgate : Ign.gate φ) (hcmd : Ign.cmd φ) (hpcie : Ign.pcie φ) (hflt : Ign.flt φ) (hsec : Ign.sec φ) (hfw : Ign.fw φ) (hfab : Ign.fab φ) (houts : Ign.outs φ) (s : State) : φ (State.ucodeNext s) = φ s := by
  unfold State.ucodeNext
  try dsimp only
  (repeat' split) <;> first | (simp only [State.fwDone_keeps hclk hregs hmem hsynd hsoft hhost hstops hgate hcmd hpcie hflt hfw hfab houts, State.measure_keeps hregs hsec, hclk, hregs, hmem, hsynd, hsoft, hhost, hstops, hgate, hcmd, hpcie, hflt, hsec, hfw, hfab, houts, ite_keeps φ, foldl_keeps φ, foldlPair_keeps φ, foldlJob_keeps φ, foldlJobPair_keeps φ, foldr_keeps φ, ite_st, ite_fst, ite_self, implies_true]; done) | rfl
theorem State.fwActivate_keeps {φ : State → β} (hclk : Ign.clk φ) (hregs : Ign.regs φ) (hmem : Ign.mem φ) (hsynd : Ign.synd φ) (hsoft : Ign.soft φ) (hhost : Ign.host φ) (hstops : Ign.stops φ) (hgate : Ign.gate φ) (hcmd : Ign.cmd φ) (hpcie : Ign.pcie φ) (hflt : Ign.flt φ) (hsec : Ign.sec φ) (hfw : Ign.fw φ) (hfab : Ign.fab φ) (hboot : Ign.boot φ) (houts : Ign.outs φ) (s : State) (act : Option (Nat × Nat)) (bcast : Bool) : φ (State.fwActivate s act bcast).1 = φ s := by
  unfold State.fwActivate
  try dsimp only
  (repeat' split) <;> first | (simp only [State.event_keeps hregs, State.fput_keeps hregs, State.fwDone_keeps hclk hregs hmem hsynd hsoft hhost hstops hgate hcmd hpcie hflt hfw hfab houts, State.handOver_keeps hregs hsec hfw, State.stagedImage_keeps hclk hregs hmem hsynd hsoft hstops hgate hflt, State.ucodeNext_keeps hclk hregs hmem hsynd hsoft hhost hstops hgate hcmd hpcie hflt hsec hfw hfab houts, hclk, hregs, hmem, hsynd, hsoft, hhost, hstops, hgate, hcmd, hpcie, hflt, hsec, hfw, hfab, hboot, houts, ign_fw_boot hfw hboot, ite_keeps φ, foldl_keeps φ, foldlPair_keeps φ, foldlJob_keeps φ, foldlJobPair_keeps φ, foldr_keeps φ, ite_st, ite_fst, ite_self, implies_true]; done) | rfl
theorem State.fwTryMark_keeps {φ : State → β} (hclk : Ign.clk φ) (hregs : Ign.regs φ) (hmem : Ign.mem φ) (hsynd : Ign.synd φ) (hsoft : Ign.soft φ) (hhost : Ign.host φ) (hstops : Ign.stops φ) (hgate : Ign.gate φ) (hcmd : Ign.cmd φ) (hpcie : Ign.pcie φ) (hflt : Ign.flt φ) (hsec : Ign.sec φ) (hfw : Ign.fw φ) (hfab : Ign.fab φ) (hboot : Ign.boot φ) (houts : Ign.outs φ) (s : State) : φ (State.fwTryMark s) = φ s := by
  unfold State.fwTryMark
  try dsimp only
  (repeat' split) <;> first | (simp only [State.fwActivate_keeps hclk hregs hmem hsynd hsoft hhost hstops hgate hcmd hpcie hflt hsec hfw hfab hboot houts, hclk, hregs, hmem, hsynd, hsoft, hhost, hstops, hgate, hcmd, hpcie, hflt, hsec, hfw, hfab, hboot, houts, ite_keeps φ, foldl_keeps φ, foldlPair_keeps φ, foldlJob_keeps φ, foldlJobPair_keeps φ, foldr_keeps φ, ite_st, ite_fst, ite_self, implies_true]; done) | rfl
theorem State.wantRead_keeps {φ : State → β} (hcmd : Ign.cmd φ) (s : State) (r : PollRead) : φ (State.wantRead s r) = φ s := by
  unfold State.wantRead
  try dsimp only
  (repeat' split) <;> first | (simp only [hcmd, ite_keeps φ, foldl_keeps φ, foldlPair_keeps φ, foldlJob_keeps φ, foldlJobPair_keeps φ, foldr_keeps φ, ite_st, ite_fst, ite_self, implies_true]; done) | rfl
theorem State.abortGo_keeps {φ : State → β} (hregs : Ign.regs φ) (hhost : Ign.host φ) (hcmd : Ign.cmd φ) (hpcie : Ign.pcie φ) (hflt : Ign.flt φ) (houts : Ign.outs φ) (x0 : Nat) (x1 : State) (x2 : Nat) : φ (State.abortGo x0 x1 x2) = φ x1 := by
  fun_induction State.abortGo x0 x1 x2 <;> first
    | (simp_all +zetaDelta only [State.complete_keeps hregs hhost hcmd hpcie hflt houts, hregs, hhost, hcmd, hpcie, hflt, houts, ite_keeps φ, foldl_keeps φ, foldlPair_keeps φ, foldlJob_keeps φ, foldlJobPair_keeps φ, foldr_keeps φ, ite_st, ite_fst, ite_self, implies_true]; done)
    | (simp +zetaDelta only [State.complete_keeps hregs hhost hcmd hpcie hflt houts, hregs, hhost, hcmd, hpcie, hflt, houts, ite_keeps φ, foldl_keeps φ, foldlPair_keeps φ, foldlJob_keeps φ, foldlJobPair_keeps φ, foldr_keeps φ, ite_st, ite_fst, ite_self, implies_true]; done)
    | (simp +zetaDelta only [State.complete_keeps hregs hhost hcmd hpcie hflt houts, hregs, hhost, hcmd, hpcie, hflt, houts, ite_keeps φ, foldl_keeps φ, foldlPair_keeps φ, foldlJob_keeps φ, foldlJobPair_keeps φ, foldr_keeps φ, ite_st, ite_fst, ite_self, implies_true]; split <;> simp_all +zetaDelta only [State.complete_keeps hregs hhost hcmd hpcie hflt houts, hregs, hhost, hcmd, hpcie, hflt, houts, ite_keeps φ, foldl_keeps φ, foldlPair_keeps φ, foldlJob_keeps φ, foldlJobPair_keeps φ, foldr_keeps φ, ite_st, ite_fst, ite_self, implies_true]; done)
    | (simp_all +zetaDelta [State.complete_keeps hregs hhost hcmd hpcie hflt houts, hregs, hhost, hcmd, hpcie, hflt, houts, ite_keeps φ, foldl_keeps φ, foldlPair_keeps φ, foldlJob_keeps φ, foldlJobPair_keeps φ, foldr_keeps φ, ite_st, ite_fst, ite_self, implies_true]; done)
theorem Job.read_keeps {φ : State → β} (hregs : Ign.regs φ) (hmem : Ign.mem φ) (hsynd : Ign.synd φ) (hsoft : Ign.soft φ) (hstops : Ign.stops φ) (hgate : Ign.gate φ) (hflt : Ign.flt φ) (j : Job) (da : Nat) (n : Nat) (e : KvErr) : φ (Job.read j da n e).1.st = φ j.st := by
  unfold Job.read
  try dsimp only
  (repeat' split) <;> (try dsimp only) <;> first
    | (simp only [State.kvRead_keeps hregs hmem hsynd hsoft hstops hgate hflt, hregs, hmem, hsynd, hsoft, hstops, hgate, hflt, ite_keeps φ, foldl_keeps φ, foldlPair_keeps φ, foldlJob_keeps φ, foldlJobPair_keeps φ, foldr_keeps φ, ite_st, ite_fst, ite_self, implies_true]; done)
    | rfl
    | exact of_fst (by assumption) (by simp only [State.kvRead_keeps hregs hmem hsynd hsoft hstops hgate hflt, hregs, hmem, hsynd, hsoft, hstops, hgate, hflt, ite_keeps φ, foldl_keeps φ, foldlPair_keeps φ, foldlJob_keeps φ, foldlJobPair_keeps φ, foldr_keeps φ, ite_st, ite_fst, ite_self, implies_true])
    | (simp only [State.kvRead_keeps hregs hmem hsynd hsoft hstops hgate hflt, hregs, hmem, hsynd, hsoft, hstops, hgate, hflt, ite_keeps φ, foldl_keeps φ, foldlPair_keeps φ, foldlJob_keeps φ, foldlJobPair_keeps φ, foldr_keeps φ, ite_st, ite_fst, ite_self, implies_true]; exact of_fst (by assumption) (by simp only [State.kvRead_keeps hregs hmem hsynd hsoft hstops hgate hflt, hregs, hmem, hsynd, hsoft, hstops, hgate, hflt, ite_keeps φ, foldl_keeps φ, foldlPair_keeps φ, foldlJob_keeps φ, foldlJobPair_keeps φ, foldr_keeps φ, ite_st, ite_fst, ite_self, implies_true]))
theorem Job.ptr_keeps {φ : State → β} (hregs : Ign.regs φ) (hmem : Ign.mem φ) (hsynd : Ign.synd φ) (hsoft : Ign.soft φ) (hstops : Ign.stops φ) (hgate : Ign.gate φ) (hflt : Ign.flt φ) (j : Job) (c : Nat) (da : Nat) : φ (Job.ptr j c da).1.st = φ j.st := by
  unfold Job.ptr
  try dsimp only
  (repeat' split) <;> first | (simp only [Job.read_keeps hregs hmem hsynd hsoft hstops hgate hflt, hregs, hmem, hsynd, hsoft, hstops, hgate, hflt, ite_keeps φ, foldl_keeps φ, foldlPair_keeps φ, foldlJob_keeps φ, foldlJobPair_keeps φ, foldr_keeps φ, ite_st, ite_fst, ite_self, implies_true]; done) | rfl
theorem Job.tablesNeeded_keeps {φ : State → β} (hregs : Ign.regs φ) (hmem : Ign.mem φ) (hsynd : Ign.synd φ) (hsoft : Ign.soft φ) (hstops : Ign.stops φ) (hgate : Ign.gate φ) (hflt : Ign.flt φ) (j : Job) (c : Nat) (root : Nat) (es : List Nat) : φ (Job.tablesNeeded j c root es).1.st = φ j.st := by
  unfold Job.tablesNeeded
  try dsimp only
  (repeat' split) <;> first | (simp only [Job.ptr_keeps hregs hmem hsynd hsoft hstops hgate hflt, hregs, hmem, hsynd, hsoft, hstops, hgate, hflt, ite_keeps φ, foldl_keeps φ, foldlPair_keeps φ, foldlJob_keeps φ, foldlJobPair_keeps φ, foldr_keeps φ, ite_st, ite_fst, ite_self, implies_true]; done) | rfl
theorem Job.entry_keeps {φ : State → β} (hregs : Ign.regs φ) (hmem : Ign.mem φ) (hsynd : Ign.synd φ) (hsoft : Ign.soft φ) (hstops : Ign.stops φ) (hgate : Ign.gate φ) (hflt : Ign.flt φ) (j : Job) (c : Nat) : φ (Job.entry j c).1.st = φ j.st := by
  unfold Job.entry
  try dsimp only
  (repeat' split) <;> first | (simp only [Job.read_keeps hregs hmem hsynd hsoft hstops hgate hflt, hregs, hmem, hsynd, hsoft, hstops, hgate, hflt, ite_keeps φ, foldl_keeps φ, foldlPair_keeps φ, foldlJob_keeps φ, foldlJobPair_keeps φ, foldr_keeps φ, ite_st, ite_fst, ite_self, implies_true]; done) | rfl
theorem Job.leafOf_keeps {φ : State → β} (hregs : Ign.regs φ) (hmem : Ign.mem φ) (hsynd : Ign.synd φ) (hsoft : Ign.soft φ) (hstops : Ign.stops φ) (hgate : Ign.gate φ) (hflt : Ign.flt φ) (j : Job) (c : Nat) (root : Nat) (e : Nat) : φ (Job.leafOf j c root e).1.st = φ j.st := by
  unfold Job.leafOf
  try dsimp only
  (repeat' split) <;> first | (simp only [Job.ptr_keeps hregs hmem hsynd hsoft hstops hgate hflt, hregs, hmem, hsynd, hsoft, hstops, hgate, hflt, ite_keeps φ, foldl_keeps φ, foldlPair_keeps φ, foldlJob_keeps φ, foldlJobPair_keeps φ, foldr_keeps φ, ite_st, ite_fst, ite_self, implies_true]; done) | rfl
theorem Job.pte_keeps {φ : State → β} (hregs : Ign.regs φ) (hmem : Ign.mem φ) (hsynd : Ign.synd φ) (hsoft : Ign.soft φ) (hstops : Ign.stops φ) (hgate : Ign.gate φ) (hflt : Ign.flt φ) (j : Job) (c : Nat) (root : Nat) (e : Nat) : φ (Job.pte j c root e).1.st = φ j.st := by
  unfold Job.pte
  try dsimp only
  (repeat' split) <;> first | (simp only [Job.leafOf_keeps hregs hmem hsynd hsoft hstops hgate hflt, Job.read_keeps hregs hmem hsynd hsoft hstops hgate hflt, hregs, hmem, hsynd, hsoft, hstops, hgate, hflt, ite_keeps φ, foldl_keeps φ, foldlPair_keeps φ, foldlJob_keeps φ, foldlJobPair_keeps φ, foldr_keeps φ, ite_st, ite_fst, ite_self, implies_true]; done) | rfl
theorem Job.pageWord_keeps {φ : State → β} (hregs : Ign.regs φ) (hmem : Ign.mem φ) (hsynd : Ign.synd φ) (hsoft : Ign.soft φ) (hstops : Ign.stops φ) (hgate : Ign.gate φ) (hflt : Ign.flt φ) (j : Job) (pfn : Nat) : φ (Job.pageWord j pfn).1.st = φ j.st := by
  unfold Job.pageWord
  try dsimp only
  (repeat' split) <;> first | (simp only [Job.read_keeps hregs hmem hsynd hsoft hstops hgate hflt, hregs, hmem, hsynd, hsoft, hstops, hgate, hflt, ite_keeps φ, foldl_keeps φ, foldlPair_keeps φ, foldlJob_keeps φ, foldlJobPair_keeps φ, foldr_keeps φ, ite_st, ite_fst, ite_self, implies_true]; done) | rfl
theorem Job.map_keeps {φ : State → β}  (j : Job) (f : State → State) (hkf : φ (f j.st) = φ j.st) : φ (Job.map j f).st = φ j.st := by
  unfold Job.map
  try dsimp only
  (repeat' split) <;> first | (simp only [ite_keeps φ, foldl_keeps φ, foldlPair_keeps φ, foldlJob_keeps φ, foldlJobPair_keeps φ, foldr_keeps φ, ite_st, ite_fst, ite_self, implies_true, hkf]; done) | rfl
theorem Job.write_keeps {φ : State → β} (hregs : Ign.regs φ) (hmem : Ign.mem φ) (hsynd : Ign.synd φ) (hsoft : Ign.soft φ) (hstops : Ign.stops φ) (hgate : Ign.gate φ) (hflt : Ign.flt φ) (j : Job) (da : Nat) (bs : List Byte) : φ (Job.write j da bs).st = φ j.st := by
  unfold Job.write
  try dsimp only
  (repeat' split) <;> first | (simp only [Job.map_keeps , State.daWrite_keeps hregs hmem hsynd hsoft hstops hgate hflt, hregs, hmem, hsynd, hsoft, hstops, hgate, hflt, ite_keeps φ, foldl_keeps φ, foldlPair_keeps φ, foldlJob_keeps φ, foldlJobPair_keeps φ, foldr_keeps φ, ite_st, ite_fst, ite_self, implies_true]; done) | rfl
theorem Job.putPage_keeps {φ : State → β} (hregs : Ign.regs φ) (hmem : Ign.mem φ) (hsynd : Ign.synd φ) (hsoft : Ign.soft φ) (hstops : Ign.stops φ) (hgate : Ign.gate φ) (hflt : Ign.flt φ) (j : Job) (pfn : Nat) (w : Nat) : φ (Job.putPage j pfn w).st = φ j.st := by
  unfold Job.putPage
  try dsimp only
  (repeat' split) <;> first | (simp only [Job.write_keeps hregs hmem hsynd hsoft hstops hgate hflt, hregs, hmem, hsynd, hsoft, hstops, hgate, hflt, ite_keeps φ, foldl_keeps φ, foldlPair_keeps φ, foldlJob_keeps φ, foldlJobPair_keeps φ, foldr_keeps φ, ite_st, ite_fst, ite_self, implies_true]; done) | rfl
theorem State.joinFree_keeps {φ : State → β} (hclk : Ign.clk φ) (hregs : Ign.regs φ) (hmem : Ign.mem φ) (hsynd : Ign.synd φ) (hsoft : Ign.soft φ) (hstops : Ign.stops φ) (hgate : Ign.gate φ) (hflt : Ign.flt φ) (hkv : Ign.kv φ) (s : State) (p : Nat) : φ (State.joinFree s p) = φ s := by
  unfold State.joinFree
  try dsimp only
  (repeat' split) <;> first | (simp only [State.daWrite_keeps hregs hmem hsynd hsoft hstops hgate hflt, State.free_keeps hclk, hclk, hregs, hmem, hsynd, hsoft, hstops, hgate, hflt, hkv, ite_keeps φ, foldl_keeps φ, foldlPair_keeps φ, foldlJob_keeps φ, foldlJobPair_keeps φ, foldr_keeps φ, ite_st, ite_fst, ite_self, implies_true]; done) | rfl
theorem Job.freePage_keeps {φ : State → β} (hclk : Ign.clk φ) (hregs : Ign.regs φ) (hmem : Ign.mem φ) (hsynd : Ign.synd φ) (hsoft : Ign.soft φ) (hstops : Ign.stops φ) (hgate : Ign.gate φ) (hflt : Ign.flt φ) (hkv : Ign.kv φ) (j : Job) (p : Nat) : φ (Job.freePage j p).st = φ j.st := by
  unfold Job.freePage
  try dsimp only
  (repeat' split) <;> first | (simp only [Job.map_keeps , Job.putPage_keeps hregs hmem hsynd hsoft hstops hgate hflt, State.joinFree_keeps hclk hregs hmem hsynd hsoft hstops hgate hflt hkv, hclk, hregs, hmem, hsynd, hsoft, hstops, hgate, hflt, hkv, ite_keeps φ, foldl_keeps φ, foldlPair_keeps φ, foldlJob_keeps φ, foldlJobPair_keeps φ, foldr_keeps φ, ite_st, ite_fst, ite_self, implies_true]; done) | rfl
theorem Job.refDown_keeps {φ : State → β} (hclk : Ign.clk φ) (hregs : Ign.regs φ) (hmem : Ign.mem φ) (hsynd : Ign.synd φ) (hsoft : Ign.soft φ) (hstops : Ign.stops φ) (hgate : Ign.gate φ) (hflt : Ign.flt φ) (hkv : Ign.kv φ) (j : Job) (p : Nat) (conf : Option Bool) : φ (Job.refDown j p conf).st = φ j.st := by
  unfold Job.refDown
  try dsimp only
  (repeat' split) <;> first | (simp only [Job.freePage_keeps hclk hregs hmem hsynd hsoft hstops hgate hflt hkv, Job.map_keeps , Job.pageWord_keeps hregs hmem hsynd hsoft hstops hgate hflt, Job.putPage_keeps hregs hmem hsynd hsoft hstops hgate hflt, hclk, hregs, hmem, hsynd, hsoft, hstops, hgate, hflt, hkv, ite_keeps φ, foldl_keeps φ, foldlPair_keeps φ, foldlJob_keeps φ, foldlJobPair_keeps φ, foldr_keeps φ, ite_st, ite_fst, ite_self, implies_true]; done) | rfl
theorem Job.pop_keeps {φ : State → β} (hregs : Ign.regs φ) (hmem : Ign.mem φ) (hsynd : Ign.synd φ) (hsoft : Ign.soft φ) (hstops : Ign.stops φ) (hgate : Ign.gate φ) (hflt : Ign.flt φ) (hkv : Ign.kv φ) (j : Job) (t : Nat) (st : Nat) : φ (Job.pop j t st).1.st = φ j.st := by
  unfold Job.pop
  try dsimp only
  (repeat' split) <;> first | (simp only [Job.map_keeps , Job.pageWord_keeps hregs hmem hsynd hsoft hstops hgate hflt, Job.putPage_keeps hregs hmem hsynd hsoft hstops hgate hflt, hregs, hmem, hsynd, hsoft, hstops, hgate, hflt, hkv, ite_keeps φ, foldl_keeps φ, foldlPair_keeps φ, foldlJob_keeps φ, foldlJobPair_keeps φ, foldr_keeps φ, ite_st, ite_fst, ite_self, implies_true]; done) | rfl
theorem Job.newTable_keeps {φ : State → β} (hregs : Ign.regs φ) (hmem : Ign.mem φ) (hsynd : Ign.synd φ) (hsoft : Ign.soft φ) (hstops : Ign.stops φ) (hgate : Ign.gate φ) (hflt : Ign.flt φ) (hkv : Ign.kv φ) (j : Job) : φ (Job.newTable j).1.st = φ j.st := by
  unfold Job.newTable
  try dsimp only
  (repeat' split) <;> first | (simp only [Job.pop_keeps hregs hmem hsynd hsoft hstops hgate hflt hkv, Job.write_keeps hregs hmem hsynd hsoft hstops hgate hflt, hregs, hmem, hsynd, hsoft, hstops, hgate, hflt, hkv, ite_keeps φ, foldl_keeps φ, foldlPair_keeps φ, foldlJob_keeps φ, foldlJobPair_keeps φ, foldr_keeps φ, ite_st, ite_fst, ite_self, implies_true]; done) | rfl
theorem Job.ensure_keeps {φ : State → β} (hregs : Ign.regs φ) (hmem : Ign.mem φ) (hsynd : Ign.synd φ) (hsoft : Ign.soft φ) (hstops : Ign.stops φ) (hgate : Ign.gate φ) (hflt : Ign.flt φ) (hkv : Ign.kv φ) (j : Job) (c : Nat) (root : Nat) (e : Nat) : φ (Job.ensure j c root e).st = φ j.st := by
  unfold Job.ensure
  try dsimp only
  (repeat' split) <;> first | (simp only [Job.newTable_keeps hregs hmem hsynd hsoft hstops hgate hflt hkv, Job.ptr_keeps hregs hmem hsynd hsoft hstops hgate hflt, Job.write_keeps hregs hmem hsynd hsoft hstops hgate hflt, hregs, hmem, hsynd, hsoft, hstops, hgate, hflt, hkv, ite_keeps φ, foldl_keeps φ, foldlPair_keeps φ, foldlJob_keeps φ, foldlJobPair_keeps φ, foldr_keeps φ, ite_st, ite_fst, ite_self, implies_true]; done) | rfl
theorem Job.setPte_keeps {φ : State → β} (hregs : Ign.regs φ) (hmem : Ign.mem φ) (hsynd : Ign.synd φ) (hsoft : Ign.soft φ) (hstops : Ign.stops φ) (hgate : Ign.gate φ) (hflt : Ign.flt φ) (hkv : Ign.kv φ) (j : Job) (c : Nat) (root : Nat) (e : Nat) (v : Nat) : φ (Job.setPte j c root e v).st = φ j.st := by
  unfold Job.setPte
  try dsimp only
  (repeat' split) <;> first | (simp only [Job.ensure_keeps hregs hmem hsynd hsoft hstops hgate hflt hkv, Job.leafOf_keeps hregs hmem hsynd hsoft hstops hgate hflt, Job.read_keeps hregs hmem hsynd hsoft hstops hgate hflt, Job.write_keeps hregs hmem hsynd hsoft hstops hgate hflt, hregs, hmem, hsynd, hsoft, hstops, hgate, hflt, hkv, ite_keeps φ, foldl_keeps φ, foldlPair_keeps φ, foldlJob_keeps φ, foldlJobPair_keeps φ, foldr_keeps φ, ite_st, ite_fst, ite_self, implies_true]; done) | rfl
theorem State.pageLost_keeps {φ : State → β} (hregs : Ign.regs φ) (hmem : Ign.mem φ) (hsynd : Ign.synd φ) (hsoft : Ign.soft φ) (hstops : Ign.stops φ) (hgate : Ign.gate φ) (hflt : Ign.flt φ) (hkv : Ign.kv φ) (s : State) (pfn : Nat) : φ (State.pageLost s pfn) = φ s := by
  unfold State.pageLost
  try dsimp only
  (repeat' split) <;> first | (simp only [State.daWrite_keeps hregs hmem hsynd hsoft hstops hgate hflt, hregs, hmem, hsynd, hsoft, hstops, hgate, hflt, hkv, ite_keeps φ, foldl_keeps φ, foldlPair_keeps φ, foldlJob_keeps φ, foldlJobPair_keeps φ, foldr_keeps φ, ite_st, ite_fst, ite_self, implies_true]; done) | rfl
theorem Job.finish_keeps {φ : State → β} (hregs : Ign.regs φ) (hmem : Ign.mem φ) (hsynd : Ign.synd φ) (hsoft : Ign.soft φ) (hstops : Ign.stops φ) (hgate : Ign.gate φ) (hflt : Ign.flt φ) (hkv : Ign.kv φ) (j : Job) (s0 : State) (hkk : φ j.st = φ s0) : φ (Job.finish j s0).1 = φ s0 := by
  unfold Job.finish
  split
  · exact hkk
  all_goals simp only [State.entryLost_keeps hregs hmem hsynd hsoft hstops hgate hflt hkv, State.failCtx_keeps hregs hmem hsynd hsoft hstops hgate hflt, State.kvRead_keeps hregs hmem hsynd hsoft hstops hgate hflt, State.pageLost_keeps hregs hmem hsynd hsoft hstops hgate hflt hkv, hregs, hmem, hsynd, hsoft, hstops, hgate, hflt, hkv, ite_keeps φ, foldl_keeps φ, foldlPair_keeps φ, foldlJob_keeps φ, foldlJobPair_keeps φ, foldr_keeps φ, ite_st, ite_fst, ite_self, implies_true, hkk]
theorem Job.putEntry_keeps {φ : State → β} (hregs : Ign.regs φ) (hmem : Ign.mem φ) (hsynd : Ign.synd φ) (hsoft : Ign.soft φ) (hstops : Ign.stops φ) (hgate : Ign.gate φ) (hflt : Ign.flt φ) (j : Job) (c : Nat) (b : List Byte) : φ (Job.putEntry j c b).st = φ j.st := by
  unfold Job.putEntry
  try dsimp only
  (repeat' split) <;> first | (simp only [Job.write_keeps hregs hmem hsynd hsoft hstops hgate hflt, hregs, hmem, hsynd, hsoft, hstops, hgate, hflt, ite_keeps φ, foldl_keeps φ, foldlPair_keeps φ, foldlJob_keeps φ, foldlJobPair_keeps φ, foldr_keeps φ, ite_st, ite_fst, ite_self, implies_true]; done) | rfl
theorem Job.setState_keeps {φ : State → β} (hregs : Ign.regs φ) (hmem : Ign.mem φ) (hsynd : Ign.synd φ) (hsoft : Ign.soft φ) (hstops : Ign.stops φ) (hgate : Ign.gate φ) (hflt : Ign.flt φ) (j : Job) (c : Nat) (v : Nat) : φ (Job.setState j c v).st = φ j.st := by
  unfold Job.setState
  try dsimp only
  (repeat' split) <;> first | (simp only [Job.entry_keeps hregs hmem hsynd hsoft hstops hgate hflt, Job.putEntry_keeps hregs hmem hsynd hsoft hstops hgate hflt, hregs, hmem, hsynd, hsoft, hstops, hgate, hflt, ite_keeps φ, foldl_keeps φ, foldlPair_keeps φ, foldlJob_keeps φ, foldlJobPair_keeps φ, foldr_keeps φ, ite_st, ite_fst, ite_self, implies_true]; done) | rfl
theorem State.syncWord_keeps {φ : State → β} (hmem : Ign.mem φ) (hsynd : Ign.synd φ) (hsoft : Ign.soft φ) (s : State) (da : Nat) (v : Nat) : φ (State.syncWord s da v) = φ s := by
  unfold State.syncWord
  try dsimp only
  (repeat' split) <;> first | (simp only [State.putWord_keeps hmem hsynd hsoft, hmem, hsynd, hsoft, ite_keeps φ, foldl_keeps φ, foldlPair_keeps φ, foldlJob_keeps φ, foldlJobPair_keeps φ, foldr_keeps φ, ite_st, ite_fst, ite_self, implies_true]; done) | rfl
theorem State.syncCtx_keeps {φ : State → β} (hmem : Ign.mem φ) (hsynd : Ign.synd φ) (hsoft : Ign.soft φ) (s : State) (c : Nat) : φ (State.syncCtx s c) = φ s := by
  unfold State.syncCtx
  try dsimp only
  (repeat' split) <;> first | (simp only [State.syncWord_keeps hmem hsynd hsoft, hmem, hsynd, hsoft, ite_keeps φ, foldl_keeps φ, foldlPair_keeps φ, foldlJob_keeps φ, foldlJobPair_keeps φ, foldr_keeps φ, ite_st, ite_fst, ite_self, implies_true]; done) | rfl
theorem State.kvSync_keeps {φ : State → β} (hregs : Ign.regs φ) (hmem : Ign.mem φ) (hsynd : Ign.synd φ) (hsoft : Ign.soft φ) (s : State) : φ (State.kvSync s) = φ s := by
  unfold State.kvSync
  try dsimp only
  (repeat' split) <;> first | (simp only [State.fput_keeps hregs, State.syncCtx_keeps hmem hsynd hsoft, hregs, hmem, hsynd, hsoft, ite_keeps φ, foldl_keeps φ, foldlPair_keeps φ, foldlJob_keeps φ, foldlJobPair_keeps φ, foldr_keeps φ, ite_st, ite_fst, ite_self, implies_true]; done) | rfl
theorem State.setIn_keeps {φ : State → β} (hkv : Ign.kv φ) (s : State) (c : Nat) (x : Option Swap) : φ (State.setIn s c x) = φ s := by
  unfold State.setIn
  try dsimp only
  (repeat' split) <;> first | (simp only [hkv, ite_keeps φ, foldl_keeps φ, foldlPair_keeps φ, foldlJob_keeps φ, foldlJobPair_keeps φ, foldr_keeps φ, ite_st, ite_fst, ite_self, implies_true]; done) | rfl
theorem State.inEnds_keeps {φ : State → β} (hregs : Ign.regs φ) (hmem : Ign.mem φ) (hsynd : Ign.synd φ) (hsoft : Ign.soft φ) (hhost : Ign.host φ) (hstops : Ign.stops φ) (hgate : Ign.gate φ) (hcmd : Ign.cmd φ) (hpcie : Ign.pcie φ) (hflt : Ign.flt φ) (hkv : Ign.kv φ) (houts : Ign.outs φ) (s : State) (c : Nat) (x : Swap) (st : Nat) : φ (State.inEnds s c x st) = φ s := by
  unfold State.inEnds
  try dsimp only
  (repeat' split) <;> first | (simp only [Job.entry_keeps hregs hmem hsynd hsoft hstops hgate hflt, Job.finish_keeps hregs hmem hsynd hsoft hstops hgate hflt hkv, Job.setState_keeps hregs hmem hsynd hsoft hstops hgate hflt, State.kvComplete_keeps hregs hhost hcmd hpcie hflt houts, State.kvSync_keeps hregs hmem hsynd hsoft, State.setIn_keeps hkv, hregs, hmem, hsynd, hsoft, hhost, hstops, hgate, hcmd, hpcie, hflt, hkv, houts, ite_keeps φ, foldl_keeps φ, foldlPair_keeps φ, foldlJob_keeps φ, foldlJobPair_keeps φ, foldr_keeps φ, ite_st, ite_fst, ite_self, implies_true]; done) | rfl
theorem State.inFails_keeps {φ : State → β} (hclk : Ign.clk φ) (hregs : Ign.regs φ) (hmem : Ign.mem φ) (hsynd : Ign.synd φ) (hsoft : Ign.soft φ) (hhost : Ign.host φ) (hstops : Ign.stops φ) (hgate : Ign.gate φ) (hcmd : Ign.cmd φ) (hpcie : Ign.pcie φ) (hflt : Ign.flt φ) (hkv : Ign.kv φ) (houts : Ign.outs φ) (s : State) (c : Nat) (x : Swap) : φ (State.inFails s c x) = φ s := by
  unfold State.inFails
  try dsimp only
  (repeat' split) <;> first | (simp only [Job.entry_keeps hregs hmem hsynd hsoft hstops hgate hflt, Job.finish_keeps hregs hmem hsynd hsoft hstops hgate hflt hkv, Job.pte_keeps hregs hmem hsynd hsoft hstops hgate hflt, Job.refDown_keeps hclk hregs hmem hsynd hsoft hstops hgate hflt hkv, Job.setPte_keeps hregs hmem hsynd hsoft hstops hgate hflt hkv, State.event_keeps hregs, State.inEnds_keeps hregs hmem hsynd hsoft hhost hstops hgate hcmd hpcie hflt hkv houts, hclk, hregs, hmem, hsynd, hsoft, hhost, hstops, hgate, hcmd, hpcie, hflt, hkv, houts, ite_keeps φ, foldl_keeps φ, foldlPair_keeps φ, foldlJob_keeps φ, foldlJobPair_keeps φ, foldr_keeps φ, ite_st, ite_fst, ite_self, implies_true]; done) | rfl
theorem State.forkVerdict_keeps {φ : State → β} (hregs : Ign.regs φ) (hmem : Ign.mem φ) (hsynd : Ign.synd φ) (hsoft : Ign.soft φ) (hstops : Ign.stops φ) (hgate : Ign.gate φ) (hflt : Ign.flt φ) (hkv : Ign.kv φ) (s : State) (p : Nat) (f : Nat) (d : Descr) : φ (State.forkVerdict s p f d).1 = φ s := by
  unfold State.forkVerdict
  try dsimp only
  (repeat' split) <;> (try dsimp only) <;> first
    | (simp only [State.entryLost_keeps hregs hmem hsynd hsoft hstops hgate hflt hkv, State.kvRead_keeps hregs hmem hsynd hsoft hstops hgate hflt, hregs, hmem, hsynd, hsoft, hstops, hgate, hflt, hkv, ite_keeps φ, foldl_keeps φ, foldlPair_keeps φ, foldlJob_keeps φ, foldlJobPair_keeps φ, foldr_keeps φ, ite_st, ite_fst, ite_self, implies_true]; done)
    | rfl
    | exact of_fst (by assumption) (by simp only [State.entryLost_keeps hregs hmem hsynd hsoft hstops hgate hflt hkv, State.kvRead_keeps hregs hmem hsynd hsoft hstops hgate hflt, hregs, hmem, hsynd, hsoft, hstops, hgate, hflt, hkv, ite_keeps φ, foldl_keeps φ, foldlPair_keeps φ, foldlJob_keeps φ, foldlJobPair_keeps φ, foldr_keeps φ, ite_st, ite_fst, ite_self, implies_true])
    | (simp only [State.entryLost_keeps hregs hmem hsynd hsoft hstops hgate hflt hkv, State.kvRead_keeps hregs hmem hsynd hsoft hstops hgate hflt, hregs, hmem, hsynd, hsoft, hstops, hgate, hflt, hkv, ite_keeps φ, foldl_keeps φ, foldlPair_keeps φ, foldlJob_keeps φ, foldlJobPair_keeps φ, foldr_keeps φ, ite_st, ite_fst, ite_self, implies_true]; exact of_fst (by assumption) (by simp only [State.entryLost_keeps hregs hmem hsynd hsoft hstops hgate hflt hkv, State.kvRead_keeps hregs hmem hsynd hsoft hstops hgate hflt, hregs, hmem, hsynd, hsoft, hstops, hgate, hflt, hkv, ite_keeps φ, foldl_keeps φ, foldlPair_keeps φ, foldlJob_keeps φ, foldlJobPair_keeps φ, foldr_keeps φ, ite_st, ite_fst, ite_self, implies_true]))
theorem Job.refUp_keeps {φ : State → β} (hregs : Ign.regs φ) (hmem : Ign.mem φ) (hsynd : Ign.synd φ) (hsoft : Ign.soft φ) (hstops : Ign.stops φ) (hgate : Ign.gate φ) (hflt : Ign.flt φ) (j : Job) (p : Nat) : φ (Job.refUp j p).st = φ j.st := by
  unfold Job.refUp
  try dsimp only
  (repeat' split) <;> first | (simp only [Job.pageWord_keeps hregs hmem hsynd hsoft hstops hgate hflt, Job.putPage_keeps hregs hmem hsynd hsoft hstops hgate hflt, hregs, hmem, hsynd, hsoft, hstops, hgate, hflt, ite_keeps φ, foldl_keeps φ, foldlPair_keeps φ, foldlJob_keeps φ, foldlJobPair_keeps φ, foldr_keeps φ, ite_st, ite_fst, ite_self, implies_true]; done) | rfl
theorem Job.share_keeps {φ : State → β} (hregs : Ign.regs φ) (hmem : Ign.mem φ) (hsynd : Ign.synd φ) (hsoft : Ign.soft φ) (hstops : Ign.stops φ) (hgate : Ign.gate φ) (hflt : Ign.flt φ) (hkv : Ign.kv φ) (j : Job) (c : Nat) (es : List (Nat × Nat)) : φ (Job.share j c es).1.st = φ j.st := by
  unfold Job.share
  try dsimp only
  (repeat' split) <;> first | (simp only [Job.newTable_keeps hregs hmem hsynd hsoft hstops hgate hflt hkv, Job.refUp_keeps hregs hmem hsynd hsoft hstops hgate hflt, Job.setPte_keeps hregs hmem hsynd hsoft hstops hgate hflt hkv, hregs, hmem, hsynd, hsoft, hstops, hgate, hflt, hkv, ite_keeps φ, foldl_keeps φ, foldlPair_keeps φ, foldlJob_keeps φ, foldlJobPair_keeps φ, foldr_keeps φ, ite_st, ite_fst, ite_self, implies_true]; done) | rfl
theorem Job.openEntry_keeps {φ : State → β} (hclk : Ign.clk φ) (hregs : Ign.regs φ) (hmem : Ign.mem φ) (hsynd : Ign.synd φ) (hsoft : Ign.soft φ) (hstops : Ign.stops φ) (hgate : Ign.gate φ) (hflt : Ign.flt φ) (hkv : Ign.kv φ) (j : Job) (c : Nat) (d : Descr) (f : Nat) (len : Nat) (root : Nat) (parent : Nat) (chain : Nat) (toks : List Nat) : φ (Job.openEntry j c d f len root parent chain toks).st = φ j.st := by
  unfold Job.openEntry
  try dsimp only
  (repeat' split) <;> first | (simp only [Job.entry_keeps hregs hmem hsynd hsoft hstops hgate hflt, Job.map_keeps , Job.putEntry_keeps hregs hmem hsynd hsoft hstops hgate hflt, State.daWrite_keeps hregs hmem hsynd hsoft hstops hgate hflt, State.free_keeps hclk, hclk, hregs, hmem, hsynd, hsoft, hstops, hgate, hflt, hkv, ite_keeps φ, foldl_keeps φ, foldlPair_keeps φ, foldlJob_keeps φ, foldlJobPair_keeps φ, foldr_keeps φ, ite_st, ite_fst, ite_self, implies_true]; done) | rfl
theorem State.openFork_keeps {φ : State → β} (hclk : Ign.clk φ) (hregs : Ign.regs φ) (hmem : Ign.mem φ) (hsynd : Ign.synd φ) (hsoft : Ign.soft φ) (hstops : Ign.stops φ) (hgate : Ign.gate φ) (hflt : Ign.flt φ) (hkv : Ign.kv φ) (s : State) (c : Nat) (p : Nat) (f : Nat) (d : Descr) : φ (State.openFork s c p f d).1 = φ s := by
  unfold State.openFork
  try dsimp only
  (repeat' split) <;> first | (simp only [Job.entry_keeps hregs hmem hsynd hsoft hstops hgate hflt, Job.finish_keeps hregs hmem hsynd hsoft hstops hgate hflt hkv, Job.openEntry_keeps hclk hregs hmem hsynd hsoft hstops hgate hflt hkv, Job.pte_keeps hregs hmem hsynd hsoft hstops hgate hflt, Job.share_keeps hregs hmem hsynd hsoft hstops hgate hflt hkv, hclk, hregs, hmem, hsynd, hsoft, hstops, hgate, hflt, hkv, ite_keeps φ, foldl_keeps φ, foldlPair_keeps φ, foldlJob_keeps φ, foldlJobPair_keeps φ, foldr_keeps φ, ite_st, ite_fst, ite_self, implies_true]; done) | rfl
theorem State.setSession_keeps {φ : State → β} (hsec : Ign.sec φ) (s : State) (x : Session) : φ (State.setSession s x) = φ s := by
  unfold State.setSession
  try dsimp only
  (repeat' split) <;> first | (simp only [hsec, ite_keeps φ, foldl_keeps φ, foldlPair_keeps φ, foldlJob_keeps φ, foldlJobPair_keeps φ, foldr_keeps φ, ite_st, ite_fst, ite_self, implies_true]; done) | rfl
theorem State.unseal_keeps {φ : State → β} (hsec : Ign.sec φ) (s : State) (h : List Byte) (ct : List Byte) (len : Nat) (sid : Nat) : φ (State.unseal s h ct len sid).1 = φ s := by
  unfold State.unseal
  try dsimp only
  (repeat' split) <;> first | (simp only [State.setSession_keeps hsec, hsec, ite_keeps φ, foldl_keeps φ, foldlPair_keeps φ, foldlJob_keeps φ, foldlJobPair_keeps φ, foldr_keeps φ, ite_st, ite_fst, ite_self, implies_true]; done) | rfl
theorem State.authFail_keeps {φ : State → β} (hregs : Ign.regs φ) (hflt : Ign.flt φ) (s : State) : φ (State.authFail s) = φ s := by
  unfold State.authFail
  try dsimp only
  (repeat' split) <;> first | (simp only [State.event_keeps hregs, State.raise_keeps hflt, hregs, hflt, ite_keeps φ, foldl_keeps φ, foldlPair_keeps φ, foldlJob_keeps φ, foldlJobPair_keeps φ, foldr_keeps φ, ite_st, ite_fst, ite_self, implies_true]; done) | rfl
theorem State.openBlob_keeps {φ : State → β} (hregs : Ign.regs φ) (hmem : Ign.mem φ) (hsynd : Ign.synd φ) (hsoft : Ign.soft φ) (hstops : Ign.stops φ) (hgate : Ign.gate φ) (hflt : Ign.flt φ) (hsec : Ign.sec φ) (s : State) (da : Nat) (len : Nat) (sid : Nat) : φ (State.openBlob s da len sid).1 = φ s := by
  unfold State.openBlob
  try dsimp only
  (repeat' split) <;> first | (simp only [State.authFail_keeps hregs hflt, State.daRead_keeps hregs hmem hsynd hsoft hstops hgate hflt, State.daWrite_keeps hregs hmem hsynd hsoft hstops hgate hflt, State.unseal_keeps hsec, hregs, hmem, hsynd, hsoft, hstops, hgate, hflt, hsec, ite_keeps φ, foldl_keeps φ, foldlPair_keeps φ, foldlJob_keeps φ, foldlJobPair_keeps φ, foldr_keeps φ, ite_st, ite_fst, ite_self, implies_true]; done) | rfl
theorem State.nsKey_keeps {φ : State → β} (hclk : Ign.clk φ) (s : State) (ns : Nat) (sid : Nat) : φ (State.nsKey s ns sid).1 = φ s := by
  unfold State.nsKey
  try dsimp only
  (repeat' split) <;> first | (simp only [State.free_keeps hclk, hclk, ite_keeps φ, foldl_keeps φ, foldlPair_keeps φ, foldlJob_keeps φ, foldlJobPair_keeps φ, foldr_keeps φ, ite_st, ite_fst, ite_self, implies_true]; done) | rfl
theorem State.nodeRead_keeps {φ : State → β} (hregs : Ign.regs φ) (hmem : Ign.mem φ) (hsynd : Ign.synd φ) (hsoft : Ign.soft φ) (hstops : Ign.stops φ) (hgate : Ign.gate φ) (hflt : Ign.flt φ) (s : State) (n : Nat) : φ (State.nodeRead s n).1 = φ s := by
  unfold State.nodeRead
  try dsimp only
  (repeat' split) <;> (try dsimp only) <;> first
    | (simp only [State.daWrite_keeps hregs hmem hsynd hsoft hstops hgate hflt, State.kvRead_keeps hregs hmem hsynd hsoft hstops hgate hflt, hregs, hmem, hsynd, hsoft, hstops, hgate, hflt, ite_keeps φ, foldl_keeps φ, foldlPair_keeps φ, foldlJob_keeps φ, foldlJobPair_keeps φ, foldr_keeps φ, ite_st, ite_fst, ite_self, implies_true]; done)
    | rfl
    | exact of_fst (by assumption) (by simp only [State.daWrite_keeps hregs hmem hsynd hsoft hstops hgate hflt, State.kvRead_keeps hregs hmem hsynd hsoft hstops hgate hflt, hregs, hmem, hsynd, hsoft, hstops, hgate, hflt, ite_keeps φ, foldl_keeps φ, foldlPair_keeps φ, foldlJob_keeps φ, foldlJobPair_keeps φ, foldr_keeps φ, ite_st, ite_fst, ite_self, implies_true])
    | (simp only [State.daWrite_keeps hregs hmem hsynd hsoft hstops hgate hflt, State.kvRead_keeps hregs hmem hsynd hsoft hstops hgate hflt, hregs, hmem, hsynd, hsoft, hstops, hgate, hflt, ite_keeps φ, foldl_keeps φ, foldlPair_keeps φ, foldlJob_keeps φ, foldlJobPair_keeps φ, foldr_keeps φ, ite_st, ite_fst, ite_self, implies_true]; exact of_fst (by assumption) (by simp only [State.daWrite_keeps hregs hmem hsynd hsoft hstops hgate hflt, State.kvRead_keeps hregs hmem hsynd hsoft hstops hgate hflt, hregs, hmem, hsynd, hsoft, hstops, hgate, hflt, ite_keeps φ, foldl_keeps φ, foldlPair_keeps φ, foldlJob_keeps φ, foldlJobPair_keeps φ, foldr_keeps φ, ite_st, ite_fst, ite_self, implies_true]))
theorem State.nodesRead_keeps {φ : State → β} (hregs : Ign.regs φ) (hmem : Ign.mem φ) (hsynd : Ign.synd φ) (hsoft : Ign.soft φ) (hstops : Ign.stops φ) (hgate : Ign.gate φ) (hflt : Ign.flt φ) (s : State) (x1 : List Nat) : φ (State.nodesRead s x1).1 = φ s := by
  fun_induction State.nodesRead s x1 <;> first
    | (simp_all +zetaDelta only [State.nodeRead_keeps hregs hmem hsynd hsoft hstops hgate hflt, hregs, hmem, hsynd, hsoft, hstops, hgate, hflt, ite_keeps φ, foldl_keeps φ, foldlPair_keeps φ, foldlJob_keeps φ, foldlJobPair_keeps φ, foldr_keeps φ, ite_st, ite_fst, ite_self, implies_true]; done)
    | (simp +zetaDelta only [State.nodeRead_keeps hregs hmem hsynd hsoft hstops hgate hflt, hregs, hmem, hsynd, hsoft, hstops, hgate, hflt, ite_keeps φ, foldl_keeps φ, foldlPair_keeps φ, foldlJob_keeps φ, foldlJobPair_keeps φ, foldr_keeps φ, ite_st, ite_fst, ite_self, implies_true]; done)
    | (simp +zetaDelta only [State.nodeRead_keeps hregs hmem hsynd hsoft hstops hgate hflt, hregs, hmem, hsynd, hsoft, hstops, hgate, hflt, ite_keeps φ, foldl_keeps φ, foldlPair_keeps φ, foldlJob_keeps φ, foldlJobPair_keeps φ, foldr_keeps φ, ite_st, ite_fst, ite_self, implies_true]; split <;> simp_all +zetaDelta only [State.nodeRead_keeps hregs hmem hsynd hsoft hstops hgate hflt, hregs, hmem, hsynd, hsoft, hstops, hgate, hflt, ite_keeps φ, foldl_keeps φ, foldlPair_keeps φ, foldlJob_keeps φ, foldlJobPair_keeps φ, foldr_keeps φ, ite_st, ite_fst, ite_self, implies_true]; done)
    | (simp_all +zetaDelta [State.nodeRead_keeps hregs hmem hsynd hsoft hstops hgate hflt, hregs, hmem, hsynd, hsoft, hstops, hgate, hflt, ite_keeps φ, foldl_keeps φ, foldlPair_keeps φ, foldlJob_keeps φ, foldlJobPair_keeps φ, foldr_keeps φ, ite_st, ite_fst, ite_self, implies_true]; done)
theorem State.findNode_keeps {φ : State → β} (hregs : Ign.regs φ) (hmem : Ign.mem φ) (hsynd : Ign.synd φ) (hsoft : Ign.soft φ) (hstops : Ign.stops φ) (hgate : Ign.gate φ) (hflt : Ign.flt φ) (s : State) (h : Nat) (ns : Nat) (blk : Nat) (shape : Nat) : φ (State.findNode s h ns blk shape).1 = φ s := by
  unfold State.findNode
  try dsimp only
  (repeat' split) <;> first | (simp only [State.nodesRead_keeps hregs hmem hsynd hsoft hstops hgate hflt, hregs, hmem, hsynd, hsoft, hstops, hgate, hflt, ite_keeps φ, foldl_keeps φ, foldlPair_keeps φ, foldlJob_keeps φ, foldlJobPair_keeps φ, foldr_keeps φ, ite_st, ite_fst, ite_self, implies_true]; done) | rfl
theorem State.rowPfns_keeps {φ : State → β} (hregs : Ign.regs φ) (hmem : Ign.mem φ) (hsynd : Ign.synd φ) (hsoft : Ign.soft φ) (hstops : Ign.stops φ) (hgate : Ign.gate φ) (hflt : Ign.flt φ) (s : State) (b : List Byte) (lh : Nat) : φ (State.rowPfns s b lh).1 = φ s := by
  unfold State.rowPfns
  try dsimp only
  (repeat' split) <;> (try dsimp only) <;> first
    | (simp only [State.kvRead_keeps hregs hmem hsynd hsoft hstops hgate hflt, hregs, hmem, hsynd, hsoft, hstops, hgate, hflt, ite_keeps φ, foldl_keeps φ, foldlPair_keeps φ, foldlJob_keeps φ, foldlJobPair_keeps φ, foldr_keeps φ, ite_st, ite_fst, ite_self, implies_true]; done)
    | rfl
    | exact of_fst (by assumption) (by simp only [State.kvRead_keeps hregs hmem hsynd hsoft hstops hgate hflt, hregs, hmem, hsynd, hsoft, hstops, hgate, hflt, ite_keeps φ, foldl_keeps φ, foldlPair_keeps φ, foldlJob_keeps φ, foldlJobPair_keeps φ, foldr_keeps φ, ite_st, ite_fst, ite_self, implies_true])
    | (simp only [State.kvRead_keeps hregs hmem hsynd hsoft hstops hgate hflt, hregs, hmem, hsynd, hsoft, hstops, hgate, hflt, ite_keeps φ, foldl_keeps φ, foldlPair_keeps φ, foldlJob_keeps φ, foldlJobPair_keeps φ, foldr_keeps φ, ite_st, ite_fst, ite_self, implies_true]; exact of_fst (by assumption) (by simp only [State.kvRead_keeps hregs hmem hsynd hsoft hstops hgate hflt, hregs, hmem, hsynd, hsoft, hstops, hgate, hflt, ite_keeps φ, foldl_keeps φ, foldlPair_keeps φ, foldlJob_keeps φ, foldlJobPair_keeps φ, foldr_keeps φ, ite_st, ite_fst, ite_self, implies_true]))
theorem State.matchGo_keeps {φ : State → β} (hregs : Ign.regs φ) (hmem : Ign.mem φ) (hsynd : Ign.synd φ) (hsoft : Ign.soft φ) (hstops : Ign.stops φ) (hgate : Ign.gate φ) (hflt : Ign.flt φ) (x0 : Nat) (x1 : State) (x2 : List Byte) (x3 : Nat) (x4 : Nat) (x5 : Nat) (x6 : Nat) (x7 : Nat) (x8 : List Nat) (x9 : List (Nat × List Byte × Nat × List Nat)) : φ (State.matchGo x0 x1 x2 x3 x4 x5 x6 x7 x8 x9).1 = φ x1 := by
  fun_induction State.matchGo x0 x1 x2 x3 x4 x5 x6 x7 x8 x9 <;> first
    | (simp_all +zetaDelta only [State.daWrite_keeps hregs hmem hsynd hsoft hstops hgate hflt, State.findNode_keeps hregs hmem hsynd hsoft hstops hgate hflt, State.rowPfns_keeps hregs hmem hsynd hsoft hstops hgate hflt, hregs, hmem, hsynd, hsoft, hstops, hgate, hflt, ite_keeps φ, foldl_keeps φ, foldlPair_keeps φ, foldlJob_keeps φ, foldlJobPair_keeps φ, foldr_keeps φ, ite_st, ite_fst, ite_self, implies_true]; done)
    | (simp +zetaDelta only [State.daWrite_keeps hregs hmem hsynd hsoft hstops hgate hflt, State.findNode_keeps hregs hmem hsynd hsoft hstops hgate hflt, State.rowPfns_keeps hregs hmem hsynd hsoft hstops hgate hflt, hregs, hmem, hsynd, hsoft, hstops, hgate, hflt, ite_keeps φ, foldl_keeps φ, foldlPair_keeps φ, foldlJob_keeps φ, foldlJobPair_keeps φ, foldr_keeps φ, ite_st, ite_fst, ite_self, implies_true]; done)
    | (simp +zetaDelta only [State.daWrite_keeps hregs hmem hsynd hsoft hstops hgate hflt, State.findNode_keeps hregs hmem hsynd hsoft hstops hgate hflt, State.rowPfns_keeps hregs hmem hsynd hsoft hstops hgate hflt, hregs, hmem, hsynd, hsoft, hstops, hgate, hflt, ite_keeps φ, foldl_keeps φ, foldlPair_keeps φ, foldlJob_keeps φ, foldlJobPair_keeps φ, foldr_keeps φ, ite_st, ite_fst, ite_self, implies_true]; split <;> simp_all +zetaDelta only [State.daWrite_keeps hregs hmem hsynd hsoft hstops hgate hflt, State.findNode_keeps hregs hmem hsynd hsoft hstops hgate hflt, State.rowPfns_keeps hregs hmem hsynd hsoft hstops hgate hflt, hregs, hmem, hsynd, hsoft, hstops, hgate, hflt, ite_keeps φ, foldl_keeps φ, foldlPair_keeps φ, foldlJob_keeps φ, foldlJobPair_keeps φ, foldr_keeps φ, ite_st, ite_fst, ite_self, implies_true]; done)
    | (simp_all +zetaDelta [State.daWrite_keeps hregs hmem hsynd hsoft hstops hgate hflt, State.findNode_keeps hregs hmem hsynd hsoft hstops hgate hflt, State.rowPfns_keeps hregs hmem hsynd hsoft hstops hgate hflt, hregs, hmem, hsynd, hsoft, hstops, hgate, hflt, ite_keeps φ, foldl_keeps φ, foldlPair_keeps φ, foldlJob_keeps φ, foldlJobPair_keeps φ, foldr_keeps φ, ite_st, ite_fst, ite_self, implies_true]; done)
theorem State.dirUse_keeps {φ : State → β} (hkv : Ign.kv φ) (s : State) (e : DirEntry) : φ (State.dirUse s e) = φ s := by
  unfold State.dirUse
  try dsimp only
  (repeat' split) <;> first | (simp only [hkv, ite_keeps φ, foldl_keeps φ, foldlPair_keeps φ, foldlJob_keeps φ, foldlJobPair_keeps φ, foldr_keeps φ, ite_st, ite_fst, ite_self, implies_true]; done) | rfl
theorem State.openPrompt_keeps {φ : State → β} (hclk : Ign.clk φ) (hregs : Ign.regs φ) (hmem : Ign.mem φ) (hsynd : Ign.synd φ) (hsoft : Ign.soft φ) (hstops : Ign.stops φ) (hgate : Ign.gate φ) (hflt : Ign.flt φ) (hkv : Ign.kv φ) (s : State) (c : Nat) (f : Nat) (d : Descr) (toks : List Nat) : φ (State.openPrompt s c f d toks).1 = φ s := by
  unfold State.openPrompt
  try dsimp only
  (repeat' split) <;> first
    | (simp only [Job.finish_keeps hregs hmem hsynd hsoft hstops hgate hflt hkv, Job.map_keeps , Job.openEntry_keeps hclk hregs hmem hsynd hsoft hstops hgate hflt hkv, Job.share_keeps hregs hmem hsynd hsoft hstops hgate hflt hkv, Job.write_keeps hregs hmem hsynd hsoft hstops hgate hflt, State.dirUse_keeps hkv, State.fadd_keeps hregs, State.matchGo_keeps hregs hmem hsynd hsoft hstops hgate hflt, State.nsKey_keeps hclk, hclk, hregs, hmem, hsynd, hsoft, hstops, hgate, hflt, hkv, ite_keeps φ, foldl_keeps φ, foldlPair_keeps φ, foldlJob_keeps φ, foldlJobPair_keeps φ, foldr_keeps φ, ite_st, ite_fst, ite_self, implies_true]; done)
    | (simp only [Job.finish_keeps hregs hmem hsynd hsoft hstops hgate hflt hkv, Job.map_keeps , Job.openEntry_keeps hclk hregs hmem hsynd hsoft hstops hgate hflt hkv, Job.share_keeps hregs hmem hsynd hsoft hstops hgate hflt hkv, Job.write_keeps hregs hmem hsynd hsoft hstops hgate hflt, State.dirUse_keeps hkv, State.fadd_keeps hregs, State.matchGo_keeps hregs hmem hsynd hsoft hstops hgate hflt, State.nsKey_keeps hclk, hclk, hregs, hmem, hsynd, hsoft, hstops, hgate, hflt, hkv, ite_keeps φ, foldl_keeps φ, foldlPair_keeps φ, foldlJob_keeps φ, foldlJobPair_keeps φ, foldr_keeps φ, ite_st, ite_fst, ite_self, implies_true]; exact of_fst (by assumption) (by simp only [Job.finish_keeps hregs hmem hsynd hsoft hstops hgate hflt hkv, Job.map_keeps , Job.openEntry_keeps hclk hregs hmem hsynd hsoft hstops hgate hflt hkv, Job.share_keeps hregs hmem hsynd hsoft hstops hgate hflt hkv, Job.write_keeps hregs hmem hsynd hsoft hstops hgate hflt, State.dirUse_keeps hkv, State.fadd_keeps hregs, State.matchGo_keeps hregs hmem hsynd hsoft hstops hgate hflt, State.nsKey_keeps hclk, hclk, hregs, hmem, hsynd, hsoft, hstops, hgate, hflt, hkv, ite_keeps φ, foldl_keeps φ, foldlPair_keeps φ, foldlJob_keeps φ, foldlJobPair_keeps φ, foldr_keeps φ, ite_st, ite_fst, ite_self, implies_true]))
    | exact (Job.finish_keeps hregs hmem hsynd hsoft hstops hgate hflt hkv _ _ (by simp only [Job.finish_keeps hregs hmem hsynd hsoft hstops hgate hflt hkv, Job.map_keeps , Job.openEntry_keeps hclk hregs hmem hsynd hsoft hstops hgate hflt hkv, Job.share_keeps hregs hmem hsynd hsoft hstops hgate hflt hkv, Job.write_keeps hregs hmem hsynd hsoft hstops hgate hflt, State.dirUse_keeps hkv, State.fadd_keeps hregs, State.matchGo_keeps hregs hmem hsynd hsoft hstops hgate hflt, State.nsKey_keeps hclk, hclk, hregs, hmem, hsynd, hsoft, hstops, hgate, hflt, hkv, ite_keeps φ, foldl_keeps φ, foldlPair_keeps φ, foldlJob_keeps φ, foldlJobPair_keeps φ, foldr_keeps φ, ite_st, ite_fst, ite_self, implies_true])).trans (by first | rfl | simp only [Job.finish_keeps hregs hmem hsynd hsoft hstops hgate hflt hkv, Job.map_keeps , Job.openEntry_keeps hclk hregs hmem hsynd hsoft hstops hgate hflt hkv, Job.share_keeps hregs hmem hsynd hsoft hstops hgate hflt hkv, Job.write_keeps hregs hmem hsynd hsoft hstops hgate hflt, State.dirUse_keeps hkv, State.fadd_keeps hregs, State.matchGo_keeps hregs hmem hsynd hsoft hstops hgate hflt, State.nsKey_keeps hclk, hclk, hregs, hmem, hsynd, hsoft, hstops, hgate, hflt, hkv, ite_keeps φ, foldl_keeps φ, foldlPair_keeps φ, foldlJob_keeps φ, foldlJobPair_keeps φ, foldr_keeps φ, ite_st, ite_fst, ite_self, implies_true])
    | exact (Job.finish_keeps hregs hmem hsynd hsoft hstops hgate hflt hkv _ _ (by simp only [Job.finish_keeps hregs hmem hsynd hsoft hstops hgate hflt hkv, Job.map_keeps , Job.openEntry_keeps hclk hregs hmem hsynd hsoft hstops hgate hflt hkv, Job.share_keeps hregs hmem hsynd hsoft hstops hgate hflt hkv, Job.write_keeps hregs hmem hsynd hsoft hstops hgate hflt, State.dirUse_keeps hkv, State.fadd_keeps hregs, State.matchGo_keeps hregs hmem hsynd hsoft hstops hgate hflt, State.nsKey_keeps hclk, hclk, hregs, hmem, hsynd, hsoft, hstops, hgate, hflt, hkv, ite_keeps φ, foldl_keeps φ, foldlPair_keeps φ, foldlJob_keeps φ, foldlJobPair_keeps φ, foldr_keeps φ, ite_st, ite_fst, ite_self, implies_true])).trans (of_fst (by assumption) (by simp only [Job.finish_keeps hregs hmem hsynd hsoft hstops hgate hflt hkv, Job.map_keeps , Job.openEntry_keeps hclk hregs hmem hsynd hsoft hstops hgate hflt hkv, Job.share_keeps hregs hmem hsynd hsoft hstops hgate hflt hkv, Job.write_keeps hregs hmem hsynd hsoft hstops hgate hflt, State.dirUse_keeps hkv, State.fadd_keeps hregs, State.matchGo_keeps hregs hmem hsynd hsoft hstops hgate hflt, State.nsKey_keeps hclk, hclk, hregs, hmem, hsynd, hsoft, hstops, hgate, hflt, hkv, ite_keeps φ, foldl_keeps φ, foldlPair_keeps φ, foldlJob_keeps φ, foldlJobPair_keeps φ, foldr_keeps φ, ite_st, ite_fst, ite_self, implies_true]))
    | (simp only [Job.finish_keeps hregs hmem hsynd hsoft hstops hgate hflt hkv, Job.map_keeps , Job.openEntry_keeps hclk hregs hmem hsynd hsoft hstops hgate hflt hkv, Job.share_keeps hregs hmem hsynd hsoft hstops hgate hflt hkv, Job.write_keeps hregs hmem hsynd hsoft hstops hgate hflt, State.dirUse_keeps hkv, State.fadd_keeps hregs, State.matchGo_keeps hregs hmem hsynd hsoft hstops hgate hflt, State.nsKey_keeps hclk, hclk, hregs, hmem, hsynd, hsoft, hstops, hgate, hflt, hkv, ite_keeps φ, foldl_keeps φ, foldlPair_keeps φ, foldlJob_keeps φ, foldlJobPair_keeps φ, foldr_keeps φ, ite_st, ite_fst, ite_self, implies_true]; exact (Job.finish_keeps hregs hmem hsynd hsoft hstops hgate hflt hkv _ _ (by simp only [Job.finish_keeps hregs hmem hsynd hsoft hstops hgate hflt hkv, Job.map_keeps , Job.openEntry_keeps hclk hregs hmem hsynd hsoft hstops hgate hflt hkv, Job.share_keeps hregs hmem hsynd hsoft hstops hgate hflt hkv, Job.write_keeps hregs hmem hsynd hsoft hstops hgate hflt, State.dirUse_keeps hkv, State.fadd_keeps hregs, State.matchGo_keeps hregs hmem hsynd hsoft hstops hgate hflt, State.nsKey_keeps hclk, hclk, hregs, hmem, hsynd, hsoft, hstops, hgate, hflt, hkv, ite_keeps φ, foldl_keeps φ, foldlPair_keeps φ, foldlJob_keeps φ, foldlJobPair_keeps φ, foldr_keeps φ, ite_st, ite_fst, ite_self, implies_true])).trans (by first | rfl | simp only [Job.finish_keeps hregs hmem hsynd hsoft hstops hgate hflt hkv, Job.map_keeps , Job.openEntry_keeps hclk hregs hmem hsynd hsoft hstops hgate hflt hkv, Job.share_keeps hregs hmem hsynd hsoft hstops hgate hflt hkv, Job.write_keeps hregs hmem hsynd hsoft hstops hgate hflt, State.dirUse_keeps hkv, State.fadd_keeps hregs, State.matchGo_keeps hregs hmem hsynd hsoft hstops hgate hflt, State.nsKey_keeps hclk, hclk, hregs, hmem, hsynd, hsoft, hstops, hgate, hflt, hkv, ite_keeps φ, foldl_keeps φ, foldlPair_keeps φ, foldlJob_keeps φ, foldlJobPair_keeps φ, foldr_keeps φ, ite_st, ite_fst, ite_self, implies_true]))
    | (simp only [Job.finish_keeps hregs hmem hsynd hsoft hstops hgate hflt hkv, Job.map_keeps , Job.openEntry_keeps hclk hregs hmem hsynd hsoft hstops hgate hflt hkv, Job.share_keeps hregs hmem hsynd hsoft hstops hgate hflt hkv, Job.write_keeps hregs hmem hsynd hsoft hstops hgate hflt, State.dirUse_keeps hkv, State.fadd_keeps hregs, State.matchGo_keeps hregs hmem hsynd hsoft hstops hgate hflt, State.nsKey_keeps hclk, hclk, hregs, hmem, hsynd, hsoft, hstops, hgate, hflt, hkv, ite_keeps φ, foldl_keeps φ, foldlPair_keeps φ, foldlJob_keeps φ, foldlJobPair_keeps φ, foldr_keeps φ, ite_st, ite_fst, ite_self, implies_true]; exact (Job.finish_keeps hregs hmem hsynd hsoft hstops hgate hflt hkv _ _ (by simp only [Job.finish_keeps hregs hmem hsynd hsoft hstops hgate hflt hkv, Job.map_keeps , Job.openEntry_keeps hclk hregs hmem hsynd hsoft hstops hgate hflt hkv, Job.share_keeps hregs hmem hsynd hsoft hstops hgate hflt hkv, Job.write_keeps hregs hmem hsynd hsoft hstops hgate hflt, State.dirUse_keeps hkv, State.fadd_keeps hregs, State.matchGo_keeps hregs hmem hsynd hsoft hstops hgate hflt, State.nsKey_keeps hclk, hclk, hregs, hmem, hsynd, hsoft, hstops, hgate, hflt, hkv, ite_keeps φ, foldl_keeps φ, foldlPair_keeps φ, foldlJob_keeps φ, foldlJobPair_keeps φ, foldr_keeps φ, ite_st, ite_fst, ite_self, implies_true])).trans (of_fst (by assumption) (by simp only [Job.finish_keeps hregs hmem hsynd hsoft hstops hgate hflt hkv, Job.map_keeps , Job.openEntry_keeps hclk hregs hmem hsynd hsoft hstops hgate hflt hkv, Job.share_keeps hregs hmem hsynd hsoft hstops hgate hflt hkv, Job.write_keeps hregs hmem hsynd hsoft hstops hgate hflt, State.dirUse_keeps hkv, State.fadd_keeps hregs, State.matchGo_keeps hregs hmem hsynd hsoft hstops hgate hflt, State.nsKey_keeps hclk, hclk, hregs, hmem, hsynd, hsoft, hstops, hgate, hflt, hkv, ite_keeps φ, foldl_keeps φ, foldlPair_keeps φ, foldlJob_keeps φ, foldlJobPair_keeps φ, foldr_keeps φ, ite_st, ite_fst, ite_self, implies_true])))
theorem State.seqOpen_keeps {φ : State → β} (hclk : Ign.clk φ) (hregs : Ign.regs φ) (hmem : Ign.mem φ) (hsynd : Ign.synd φ) (hsoft : Ign.soft φ) (hstops : Ign.stops φ) (hgate : Ign.gate φ) (hflt : Ign.flt φ) (hsec : Ign.sec φ) (hkv : Ign.kv φ) (s : State) (q : Nat) (d : Descr) : φ (State.seqOpen s q d).1 = φ s := by
  unfold State.seqOpen
  try dsimp only
  (repeat' split) <;> first | (simp only [State.daRead_keeps hregs hmem hsynd hsoft hstops hgate hflt, State.forkVerdict_keeps hregs hmem hsynd hsoft hstops hgate hflt hkv, State.openBlob_keeps hregs hmem hsynd hsoft hstops hgate hflt hsec, State.openFork_keeps hclk hregs hmem hsynd hsoft hstops hgate hflt hkv, State.openPrompt_keeps hclk hregs hmem hsynd hsoft hstops hgate hflt hkv, hclk, hregs, hmem, hsynd, hsoft, hstops, hgate, hflt, hsec, hkv, ite_keeps φ, foldl_keeps φ, foldlPair_keeps φ, foldlJob_keeps φ, foldlJobPair_keeps φ, foldr_keeps φ, ite_st, ite_fst, ite_self, implies_true]; done) | rfl
theorem State.bscJump_keeps {φ : State → β} (hregs : Ign.regs φ) (hcores : Ign.cores φ) (s : State) (t : Nat) (c : Nat) (n : Nat) (pc : Nat) : φ (State.bscJump s t c n pc) = φ s := by
  unfold State.bscJump
  try dsimp only
  (repeat' split) <;> first | (simp only [State.coreRan_keeps hregs hcores, State.setCore_keeps hcores, hregs, hcores, ite_keeps φ, foldl_keeps φ, foldlPair_keeps φ, foldlJob_keeps φ, foldlJobPair_keeps φ, foldr_keeps φ, ite_st, ite_fst, ite_self, implies_true]; done) | rfl
theorem State.spmReadGo_keeps {φ : State → β} (hclk : Ign.clk φ) (hregs : Ign.regs φ) (htiles : Ign.tiles φ) (hflt : Ign.flt φ) (x0 : Nat) (x1 : State) (x2 : Nat) (x3 : Nat) (x4 : Nat) : φ (State.spmReadGo x0 x1 x2 x3 x4).1 = φ x1 := by
  fun_induction State.spmReadGo x0 x1 x2 x3 x4 <;> first
    | (simp_all +zetaDelta only [State.spmWord_keeps hclk hregs htiles hflt, hclk, hregs, htiles, hflt, ite_keeps φ, foldl_keeps φ, foldlPair_keeps φ, foldlJob_keeps φ, foldlJobPair_keeps φ, foldr_keeps φ, ite_st, ite_fst, ite_self, implies_true]; done)
    | (simp +zetaDelta only [State.spmWord_keeps hclk hregs htiles hflt, hclk, hregs, htiles, hflt, ite_keeps φ, foldl_keeps φ, foldlPair_keeps φ, foldlJob_keeps φ, foldlJobPair_keeps φ, foldr_keeps φ, ite_st, ite_fst, ite_self, implies_true]; done)
    | (simp +zetaDelta only [State.spmWord_keeps hclk hregs htiles hflt, hclk, hregs, htiles, hflt, ite_keeps φ, foldl_keeps φ, foldlPair_keeps φ, foldlJob_keeps φ, foldlJobPair_keeps φ, foldr_keeps φ, ite_st, ite_fst, ite_self, implies_true]; split <;> simp_all +zetaDelta only [State.spmWord_keeps hclk hregs htiles hflt, hclk, hregs, htiles, hflt, ite_keeps φ, foldl_keeps φ, foldlPair_keeps φ, foldlJob_keeps φ, foldlJobPair_keeps φ, foldr_keeps φ, ite_st, ite_fst, ite_self, implies_true]; done)
    | (simp_all +zetaDelta [State.spmWord_keeps hclk hregs htiles hflt, hclk, hregs, htiles, hflt, ite_keeps φ, foldl_keeps φ, foldlPair_keeps φ, foldlJob_keeps φ, foldlJobPair_keeps φ, foldr_keeps φ, ite_st, ite_fst, ite_self, implies_true]; done)
theorem State.spmRead_keeps {φ : State → β} (hclk : Ign.clk φ) (hregs : Ign.regs φ) (htiles : Ign.tiles φ) (hflt : Ign.flt φ) (s : State) (t : Nat) (off : Nat) (n : Nat) : φ (State.spmRead s t off n).1 = φ s := by
  unfold State.spmRead
  try dsimp only
  (repeat' split) <;> first | (simp only [State.spmReadGo_keeps hclk hregs htiles hflt, hclk, hregs, htiles, hflt, ite_keeps φ, foldl_keeps φ, foldlPair_keeps φ, foldlJob_keeps φ, foldlJobPair_keeps φ, foldr_keeps φ, ite_st, ite_fst, ite_self, implies_true]; done) | rfl
theorem State.blurGo_keeps {φ : State → β} (hclk : Ign.clk φ) (ops : List Mxs) (x1 : List (Byte × Nat)) (x2 : State) : φ (State.blurGo ops x1 x2).1 = φ x2 := by
  fun_induction State.blurGo ops x1 x2 <;> first
    | (simp_all +zetaDelta only [State.free_keeps hclk, hclk, ite_keeps φ, foldl_keeps φ, foldlPair_keeps φ, foldlJob_keeps φ, foldlJobPair_keeps φ, foldr_keeps φ, ite_st, ite_fst, ite_self, implies_true]; done)
    | (simp +zetaDelta only [State.free_keeps hclk, hclk, ite_keeps φ, foldl_keeps φ, foldlPair_keeps φ, foldlJob_keeps φ, foldlJobPair_keeps φ, foldr_keeps φ, ite_st, ite_fst, ite_self, implies_true]; done)
    | (simp +zetaDelta only [State.free_keeps hclk, hclk, ite_keeps φ, foldl_keeps φ, foldlPair_keeps φ, foldlJob_keeps φ, foldlJobPair_keeps φ, foldr_keeps φ, ite_st, ite_fst, ite_self, implies_true]; split <;> simp_all +zetaDelta only [State.free_keeps hclk, hclk, ite_keeps φ, foldl_keeps φ, foldlPair_keeps φ, foldlJob_keeps φ, foldlJobPair_keeps φ, foldr_keeps φ, ite_st, ite_fst, ite_self, implies_true]; done)
    | (simp_all +zetaDelta [State.free_keeps hclk, hclk, ite_keeps φ, foldl_keeps φ, foldlPair_keeps φ, foldlJob_keeps φ, foldlJobPair_keeps φ, foldr_keeps φ, ite_st, ite_fst, ite_self, implies_true]; done)
theorem State.arrRead_keeps {φ : State → β} (hclk : Ign.clk φ) (hregs : Ign.regs φ) (htiles : Ign.tiles φ) (hflt : Ign.flt φ) (s : State) (t : Nat) (addr : Nat) (n : Nat) : φ (State.arrRead s t addr n).1 = φ s := by
  unfold State.arrRead
  try dsimp only
  (repeat' split) <;> first | (simp only [State.blurGo_keeps hclk, State.spmRead_keeps hclk hregs htiles hflt, State.spmViol_keeps hregs, hclk, hregs, htiles, hflt, ite_keeps φ, foldl_keeps φ, foldlPair_keeps φ, foldlJob_keeps φ, foldlJobPair_keeps φ, foldr_keeps φ, ite_st, ite_fst, ite_self, implies_true]; done) | rfl
theorem State.groupMask_keeps {φ : State → β} (hclk : Ign.clk φ) (hregs : Ign.regs φ) (htiles : Ign.tiles φ) (hflt : Ign.flt φ) (s : State) (t : Nat) (o : Mxs) (g : Nat) : φ (State.groupMask s t o g).1 = φ s := by
  unfold State.groupMask
  try dsimp only
  (repeat' split) <;> first | (simp only [State.arrRead_keeps hclk hregs htiles hflt, hclk, hregs, htiles, hflt, ite_keeps φ, foldl_keeps φ, foldlPair_keeps φ, foldlJob_keeps φ, foldlJobPair_keeps φ, foldr_keeps φ, ite_st, ite_fst, ite_self, implies_true]; done) | rfl
theorem State.haltChan_keeps {φ : State → β} (hregs : Ign.regs φ) (htiles : Ign.tiles φ) (s : State) (t : Nat) (ch : Nat) (epoch : Nat) (err : ChanErr) : φ (State.haltChan s t ch epoch err) = φ s := by
  unfold State.haltChan
  try dsimp only
  (repeat' split) <;> first | (simp only [State.event_keeps hregs, State.rput_keeps hregs, State.setEng_keeps htiles, hregs, htiles, ite_keeps φ, foldl_keeps φ, foldlPair_keeps φ, foldlJob_keeps φ, foldlJobPair_keeps φ, foldr_keeps φ, ite_st, ite_fst, ite_self, implies_true]; done) | rfl
theorem State.takeRow_keeps {φ : State → β} (hregs : Ign.regs φ) (htiles : Ign.tiles φ) (s : State) (t : Nat) (ch : Nat) (len : Nat) : φ (State.takeRow s t ch len).1 = φ s := by
  unfold State.takeRow
  try dsimp only
  (repeat' split) <;> first | (simp only [State.haltChan_keeps hregs htiles, State.setEng_keeps htiles, hregs, htiles, ite_keeps φ, foldl_keeps φ, foldlPair_keeps φ, foldlJob_keeps φ, foldlJobPair_keeps φ, foldr_keeps φ, ite_st, ite_fst, ite_self, implies_true]; done) | rfl
theorem State.westRow_keeps {φ : State → β} (hclk : Ign.clk φ) (hregs : Ign.regs φ) (htiles : Ign.tiles φ) (hflt : Ign.flt φ) (s : State) (t : Nat) (o : Mxs) (r : Nat) : φ (State.westRow s t o r).1 = φ s := by
  unfold State.westRow
  try dsimp only
  (repeat' split) <;> first | (simp only [State.arrRead_keeps hclk hregs htiles hflt, State.takeRow_keeps hregs htiles, hclk, hregs, htiles, hflt, ite_keeps φ, foldl_keeps φ, foldlPair_keeps φ, foldlJob_keeps φ, foldlJobPair_keeps φ, foldr_keeps φ, ite_st, ite_fst, ite_self, implies_true]; done) | rfl
theorem State.westRows_keeps {φ : State → β} (hclk : Ign.clk φ) (hregs : Ign.regs φ) (htiles : Ign.tiles φ) (hflt : Ign.flt φ) (x0 : Nat) (x1 : State) (x2 : Nat) (x3 : Mxs) (x4 : Nat) (x5 : List (List Byte)) : φ (State.westRows x0 x1 x2 x3 x4 x5).1 = φ x1 := by
  fun_induction State.westRows x0 x1 x2 x3 x4 x5 <;> first
    | (simp_all +zetaDelta only [State.westRow_keeps hclk hregs htiles hflt, hclk, hregs, htiles, hflt, ite_keeps φ, foldl_keeps φ, foldlPair_keeps φ, foldlJob_keeps φ, foldlJobPair_keeps φ, foldr_keeps φ, ite_st, ite_fst, ite_self, implies_true]; done)
    | (simp +zetaDelta only [State.westRow_keeps hclk hregs htiles hflt, hclk, hregs, htiles, hflt, ite_keeps φ, foldl_keeps φ, foldlPair_keeps φ, foldlJob_keeps φ, foldlJobPair_keeps φ, foldr_keeps φ, ite_st, ite_fst, ite_self, implies_true]; done)
    | (simp +zetaDelta only [State.westRow_keeps hclk hregs htiles hflt, hclk, hregs, htiles, hflt, ite_keeps φ, foldl_keeps φ, foldlPair_keeps φ, foldlJob_keeps φ, foldlJobPair_keeps φ, foldr_keeps φ, ite_st, ite_fst, ite_self, implies_true]; split <;> simp_all +zetaDelta only [State.westRow_keeps hclk hregs htiles hflt, hclk, hregs, htiles, hflt, ite_keeps φ, foldl_keeps φ, foldlPair_keeps φ, foldlJob_keeps φ, foldlJobPair_keeps φ, foldr_keeps φ, ite_st, ite_fst, ite_self, implies_true]; done)
    | (simp_all +zetaDelta [State.westRow_keeps hclk hregs htiles hflt, hclk, hregs, htiles, hflt, ite_keeps φ, foldl_keeps φ, foldlPair_keeps φ, foldlJob_keeps φ, foldlJobPair_keeps φ, foldr_keeps φ, ite_st, ite_fst, ite_self, implies_true]; done)
theorem State.setArr_keeps {φ : State → β} (htiles : Ign.tiles φ) (s : State) (t : Nat) (a : Arr) : φ (State.setArr s t a) = φ s := by
  unfold State.setArr
  try dsimp only
  (repeat' split) <;> first | (simp only [State.setEng_keeps htiles, htiles, ite_keeps φ, foldl_keeps φ, foldlPair_keeps φ, foldlJob_keeps φ, foldlJobPair_keeps φ, foldr_keeps φ, ite_st, ite_fst, ite_self, implies_true]; done) | rfl
theorem State.skipGroups_keeps {φ : State → β} (hclk : Ign.clk φ) (hregs : Ign.regs φ) (htiles : Ign.tiles φ) (hflt : Ign.flt φ) (x0 : Nat) (x1 : State) (x2 : Nat) (x3 : Pass) : φ (State.skipGroups x0 x1 x2 x3).1 = φ x1 := by
  fun_induction State.skipGroups x0 x1 x2 x3 <;> first
    | (simp_all +zetaDelta only [State.fadd_keeps hregs, State.groupMask_keeps hclk hregs htiles hflt, State.setArr_keeps htiles, State.westRows_keeps hclk hregs htiles hflt, hclk, hregs, htiles, hflt, ite_keeps φ, foldl_keeps φ, foldlPair_keeps φ, foldlJob_keeps φ, foldlJobPair_keeps φ, foldr_keeps φ, ite_st, ite_fst, ite_self, implies_true]; done)
    | (simp +zetaDelta only [State.fadd_keeps hregs, State.groupMask_keeps hclk hregs htiles hflt, State.setArr_keeps htiles, State.westRows_keeps hclk hregs htiles hflt, hclk, hregs, htiles, hflt, ite_keeps φ, foldl_keeps φ, foldlPair_keeps φ, foldlJob_keeps φ, foldlJobPair_keeps φ, foldr_keeps φ, ite_st, ite_fst, ite_self, implies_true]; done)
    | (simp +zetaDelta only [State.fadd_keeps hregs, State.groupMask_keeps hclk hregs htiles hflt, State.setArr_keeps htiles, State.westRows_keeps hclk hregs htiles hflt, hclk, hregs, htiles, hflt, ite_keeps φ, foldl_keeps φ, foldlPair_keeps φ, foldlJob_keeps φ, foldlJobPair_keeps φ, foldr_keeps φ, ite_st, ite_fst, ite_self, implies_true]; split <;> simp_all +zetaDelta only [State.fadd_keeps hregs, State.groupMask_keeps hclk hregs htiles hflt, State.setArr_keeps htiles, State.westRows_keeps hclk hregs htiles hflt, hclk, hregs, htiles, hflt, ite_keeps φ, foldl_keeps φ, foldlPair_keeps φ, foldlJob_keeps φ, foldlJobPair_keeps φ, foldr_keeps φ, ite_st, ite_fst, ite_self, implies_true]; done)
    | (simp_all +zetaDelta [State.fadd_keeps hregs, State.groupMask_keeps hclk hregs htiles hflt, State.setArr_keeps htiles, State.westRows_keeps hclk hregs htiles hflt, hclk, hregs, htiles, hflt, ite_keeps φ, foldl_keeps φ, foldlPair_keeps φ, foldlJob_keeps φ, foldlJobPair_keeps φ, foldr_keeps φ, ite_st, ite_fst, ite_self, implies_true]; done)
theorem State.passError_keeps {φ : State → β} (hregs : Ign.regs φ) (htiles : Ign.tiles φ) (henr : Ign.enr φ) (s : State) (t : Nat) (f : Field) : φ (State.passError s t f) = φ s := by
  unfold State.passError
  try dsimp only
  (repeat' split) <;> first | (simp only [State.arrSettled_keeps htiles henr, State.event_keeps hregs, State.setEng_keeps htiles, hregs, htiles, henr, ite_keeps φ, foldl_keeps φ, foldlPair_keeps φ, foldlJob_keeps φ, foldlJobPair_keeps φ, foldr_keeps φ, ite_st, ite_fst, ite_self, implies_true]; done) | rfl
theorem State.drainWrite_keeps {φ : State → β} (hclk : Ign.clk φ) (hregs : Ign.regs φ) (hspm : Ign.spm φ) (hspmErr : Ign.spmErr φ) (htiles : Ign.tiles φ) (hflt : Ign.flt φ) (henr : Ign.enr φ) (s : State) (t : Nat) (r : OutRow) : φ (State.drainWrite s t r) = φ s := by
  have hu : ∀ (a : State) x y, φ { a with spm := x, spmErr := y } = φ a := fun a x y => (hspm { a with spmErr := y } x).trans (hspmErr a y)
  unfold State.drainWrite
  dsimp only
  (repeat' split) <;> simp only [hu, State.event_keeps hregs, State.passError_keeps hregs htiles henr, State.spmRead_keeps hclk hregs htiles hflt, State.spmViol_keeps hregs, State.spmWrite_keeps hclk hregs hspm hspmErr htiles hflt, hclk, hregs, hspm, hspmErr, htiles, hflt, henr, ite_keeps φ, foldl_keeps φ, foldlPair_keeps φ, foldlJob_keeps φ, foldlJobPair_keeps φ, foldr_keeps φ, ite_st, ite_fst, ite_self, implies_true]
theorem State.drainTick_keeps {φ : State → β} (hclk : Ign.clk φ) (hregs : Ign.regs φ) (hspm : Ign.spm φ) (hspmErr : Ign.spmErr φ) (htiles : Ign.tiles φ) (hflt : Ign.flt φ) (henr : Ign.enr φ) (s : State) (t : Nat) (served : List Nat) : φ (State.drainTick s t served) = φ s := by
  unfold State.drainTick
  try dsimp only
  (repeat' split) <;> first | (simp only [State.drainWrite_keeps hclk hregs hspm hspmErr htiles hflt henr, State.setArr_keeps htiles, hclk, hregs, hspm, hspmErr, htiles, hflt, henr, ite_keeps φ, foldl_keeps φ, foldlPair_keeps φ, foldlJob_keeps φ, foldlJobPair_keeps φ, foldr_keeps φ, ite_st, ite_fst, ite_self, implies_true]; done) | rfl
theorem State.portTick_keeps {φ : State → β} (hclk : Ign.clk φ) (hregs : Ign.regs φ) (hspm : Ign.spm φ) (hspmErr : Ign.spmErr φ) (htiles : Ign.tiles φ) (hflt : Ign.flt φ) (henr : Ign.enr φ) (s : State) (t : Nat) (others : List (Nat × Nat)) : φ (State.portTick s t others) = φ s := by
  unfold State.portTick
  try dsimp only
  (repeat' split) <;> first | (simp only [State.drainTick_keeps hclk hregs hspm hspmErr htiles hflt henr, State.setEng_keeps htiles, hclk, hregs, hspm, hspmErr, htiles, hflt, henr, ite_keeps φ, foldl_keeps φ, foldlPair_keeps φ, foldlJob_keeps φ, foldlJobPair_keeps φ, foldr_keeps φ, ite_st, ite_fst, ite_self, implies_true]; done) | rfl
theorem State.swapKey_keeps {φ : State → β} (hclk : Ign.clk φ) (s : State) (c : Nat) (gen : Nat) : φ (State.swapKey s c gen).1 = φ s := by
  unfold State.swapKey
  try dsimp only
  (repeat' split) <;> first | (simp only [State.free_keeps hclk, hclk, ite_keeps φ, foldl_keeps φ, foldlPair_keeps φ, foldlJob_keeps φ, foldlJobPair_keeps φ, foldr_keeps φ, ite_st, ite_fst, ite_self, implies_true]; done) | rfl
theorem State.alert_keeps {φ : State → β} (hbrd : Ign.brd φ) (s : State) : φ (State.alert s) = φ s := by
  unfold State.alert
  try dsimp only
  (repeat' split) <;> first | (simp only [hbrd, ite_keeps φ, foldl_keeps φ, foldlPair_keeps φ, foldlJob_keeps φ, foldlJobPair_keeps φ, foldr_keeps φ, ite_st, ite_fst, ite_self, implies_true]; done) | rfl
theorem State.zeroBank_keeps {φ : State → β} (hspm : Ign.spm φ) (hspmErr : Ign.spmErr φ) (s : State) (t : Nat) (b : Nat) : φ (State.zeroBank s t b) = φ s := by
  unfold State.zeroBank
  try dsimp only
  (repeat' split) <;> first | (simp only [hspm, hspmErr, ign_spm_spmErr hspm hspmErr, ite_keeps φ, foldl_keeps φ, foldlPair_keeps φ, foldlJob_keeps φ, foldlJobPair_keeps φ, foldr_keeps φ, ite_st, ite_fst, ite_self, implies_true]; done) | rfl
theorem State.engineOff_keeps {φ : State → β} (hregs : Ign.regs φ) (hspm : Ign.spm φ) (hspmErr : Ign.spmErr φ) (htiles : Ign.tiles φ) (henr : Ign.enr φ) (hpwr : Ign.pwr φ) (s : State) (t : Nat) : φ (State.engineOff s t) = φ s := by
  unfold State.engineOff
  try dsimp only
  (repeat' split) <;> first | (simp only [State.abortArray_keeps hregs htiles henr, State.setEng_keeps htiles, State.zeroBank_keeps hspm hspmErr, hregs, hspm, hspmErr, htiles, henr, hpwr, ite_keeps φ, foldl_keeps φ, foldlPair_keeps φ, foldlJob_keeps φ, foldlJobPair_keeps φ, foldr_keeps φ, ite_st, ite_fst, ite_self, implies_true]; done) | rfl
theorem State.portOff_keeps {φ : State → β} (hregs : Ign.regs φ) (hfab : Ign.fab φ) (s : State) (p : Nat) : φ (State.portOff s p) = φ s := by
  unfold State.portOff
  try dsimp only
  (repeat' split) <;> first | (simp only [State.event_keeps hregs, State.portDark_keeps hregs hfab, State.setPortState_keeps hregs, hregs, hfab, ite_keeps φ, foldl_keeps φ, foldlPair_keeps φ, foldlJob_keeps φ, foldlJobPair_keeps φ, foldr_keeps φ, ite_st, ite_fst, ite_self, implies_true]; done) | rfl
theorem State.domainsOff_keeps {φ : State → β} (hregs : Ign.regs φ) (hmem : Ign.mem φ) (hsynd : Ign.synd φ) (hsoft : Ign.soft φ) (hspm : Ign.spm φ) (hspmErr : Ign.spmErr φ) (htiles : Ign.tiles φ) (henr : Ign.enr φ) (hfab : Ign.fab φ) (hpwr : Ign.pwr φ) (s : State) : φ (State.domainsOff s) = φ s := by
  unfold State.domainsOff
  try dsimp only
  (repeat' split) <;> first | (simp only [State.engineOff_keeps hregs hspm hspmErr htiles henr hpwr, State.portOff_keeps hregs hfab, hregs, hmem, hsynd, hsoft, hspm, hspmErr, htiles, henr, hfab, hpwr, ign_mem_synd hmem hsynd, ign_mem_soft hmem hsoft, ign_synd_soft hsynd hsoft, ign_mem_synd_soft hmem hsynd hsoft, ite_keeps φ, foldl_keeps φ, foldlPair_keeps φ, foldlJob_keeps φ, foldlJobPair_keeps φ, foldr_keeps φ, ite_st, ite_fst, ite_self, implies_true]; done) | rfl
theorem State.accRead_keeps {φ : State → β} (hclk : Ign.clk φ) (hregs : Ign.regs φ) (hmem : Ign.mem φ) (hsynd : Ign.synd φ) (hsoft : Ign.soft φ) (hstops : Ign.stops φ) (hgate : Ign.gate φ) (hflt : Ign.flt φ) (s : State) (c : Nat) : φ (State.accRead s c).1 = φ s := by
  unfold State.accRead
  try dsimp only
  (repeat' split) <;> first | (simp only [State.daRead_keeps hregs hmem hsynd hsoft hstops hgate hflt, State.free_keeps hclk, hclk, hregs, hmem, hsynd, hsoft, hstops, hgate, hflt, ite_keeps φ, foldl_keeps φ, foldlPair_keeps φ, foldlJob_keeps φ, foldlJobPair_keeps φ, foldr_keeps φ, ite_st, ite_fst, ite_self, implies_true]; done) | rfl
theorem State.accWrite_keeps {φ : State → β} (hregs : Ign.regs φ) (hmem : Ign.mem φ) (hsynd : Ign.synd φ) (hsoft : Ign.soft φ) (hstops : Ign.stops φ) (hgate : Ign.gate φ) (hflt : Ign.flt φ) (s : State) (c : Nat) (l : List Nat) (est : Bool) : φ (State.accWrite s c l est) = φ s := by
  unfold State.accWrite
  try dsimp only
  (repeat' split) <;> first | (simp only [State.daWrite_keeps hregs hmem hsynd hsoft hstops hgate hflt, hregs, hmem, hsynd, hsoft, hstops, hgate, hflt, ite_keeps φ, foldl_keeps φ, foldlPair_keeps φ, foldlJob_keeps φ, foldlJobPair_keeps φ, foldr_keeps φ, ite_st, ite_fst, ite_self, implies_true]; done) | rfl
theorem State.accAdd_keeps {φ : State → β} (hclk : Ign.clk φ) (hregs : Ign.regs φ) (hmem : Ign.mem φ) (hsynd : Ign.synd φ) (hsoft : Ign.soft φ) (hstops : Ign.stops φ) (hgate : Ign.gate φ) (hflt : Ign.flt φ) (s : State) (c : Nat) (l : List Accr) : φ (State.accAdd s c l) = φ s := by
  unfold State.accAdd
  try dsimp only
  (repeat' split) <;> first | (simp only [State.accRead_keeps hclk hregs hmem hsynd hsoft hstops hgate hflt, State.accWrite_keeps hregs hmem hsynd hsoft hstops hgate hflt, hclk, hregs, hmem, hsynd, hsoft, hstops, hgate, hflt, ite_keeps φ, foldl_keeps φ, foldlPair_keeps φ, foldlJob_keeps φ, foldlJobPair_keeps φ, foldr_keeps φ, ite_st, ite_fst, ite_self, implies_true]; done) | rfl
theorem State.ledgerOut_keeps {φ : State → β} (hregs : Ign.regs φ) (hmem : Ign.mem φ) (hsynd : Ign.synd φ) (hsoft : Ign.soft φ) (hstops : Ign.stops φ) (hgate : Ign.gate φ) (hflt : Ign.flt φ) (henr : Ign.enr φ) (s : State) (x : Ledger) : φ (State.ledgerOut s x) = φ s := by
  unfold State.ledgerOut
  try dsimp only
  (repeat' split) <;> first | (simp only [State.enqueue_keeps hregs hmem hsynd hsoft hstops hgate hflt henr, hregs, hmem, hsynd, hsoft, hstops, hgate, hflt, henr, ite_keeps φ, foldl_keeps φ, foldlPair_keeps φ, foldlJob_keeps φ, foldlJobPair_keeps φ, foldr_keeps φ, ite_st, ite_fst, ite_self, implies_true]; done) | rfl
theorem State.ledgerAdd_keeps {φ : State → β} (hregs : Ign.regs φ) (hmem : Ign.mem φ) (hsynd : Ign.synd φ) (hsoft : Ign.soft φ) (hstops : Ign.stops φ) (hgate : Ign.gate φ) (hflt : Ign.flt φ) (henr : Ign.enr φ) (s : State) (origin : Nat) (octx : Nat) (time : Nat) (nj : List Nat) (est : Bool) (meas : List Byte) : φ (State.ledgerAdd s origin octx time nj est meas) = φ s := by
  unfold State.ledgerAdd
  try dsimp only
  (repeat' split) <;> first | (simp only [State.ledgerOut_keeps hregs hmem hsynd hsoft hstops hgate hflt henr, hregs, hmem, hsynd, hsoft, hstops, hgate, hflt, henr, ite_keeps φ, foldl_keeps φ, foldlPair_keeps φ, foldlJob_keeps φ, foldlJobPair_keeps φ, foldr_keeps φ, ite_st, ite_fst, ite_self, implies_true]; done) | rfl
theorem State.remoteSplit_keeps {φ : State → β} (hclk : Ign.clk φ) (hregs : Ign.regs φ) (hmem : Ign.mem φ) (hsynd : Ign.synd φ) (hsoft : Ign.soft φ) (hstops : Ign.stops φ) (hgate : Ign.gate φ) (hflt : Ign.flt φ) (henr : Ign.enr φ) (s : State) : φ (State.remoteSplit s) = φ s := by
  unfold State.remoteSplit
  try dsimp only
  (repeat' split) <;> first | (simp only [State.accAdd_keeps hclk hregs hmem hsynd hsoft hstops hgate hflt, State.accRead_keeps hclk hregs hmem hsynd hsoft hstops hgate hflt, State.accWrite_keeps hregs hmem hsynd hsoft hstops hgate hflt, State.ledgerAdd_keeps hregs hmem hsynd hsoft hstops hgate hflt henr, hclk, hregs, hmem, hsynd, hsoft, hstops, hgate, hflt, henr, ite_keeps φ, foldl_keeps φ, foldlPair_keeps φ, foldlJob_keeps φ, foldlJobPair_keeps φ, foldr_keeps φ, ite_st, ite_fst, ite_self, implies_true]; done) | rfl
theorem State.closeRecord_keeps {φ : State → β} (hclk : Ign.clk φ) (hregs : Ign.regs φ) (hmem : Ign.mem φ) (hsynd : Ign.synd φ) (hsoft : Ign.soft φ) (hstops : Ign.stops φ) (hgate : Ign.gate φ) (hflt : Ign.flt φ) (henr : Ign.enr φ) (s : State) (x : Closing) : φ (State.closeRecord s x) = φ s := by
  unfold State.closeRecord
  try dsimp only
  (repeat' split) <;> first | (simp only [State.accRead_keeps hclk hregs hmem hsynd hsoft hstops hgate hflt, State.enqueue_keeps hregs hmem hsynd hsoft hstops hgate hflt henr, hclk, hregs, hmem, hsynd, hsoft, hstops, hgate, hflt, henr, ite_keeps φ, foldl_keeps φ, foldlPair_keeps φ, foldlJob_keeps φ, foldlJobPair_keeps φ, foldr_keeps φ, ite_st, ite_fst, ite_self, implies_true]; done) | rfl
theorem State.periodEnd_keeps {φ : State → β} (hclk : Ign.clk φ) (hregs : Ign.regs φ) (hmem : Ign.mem φ) (hsynd : Ign.synd φ) (hsoft : Ign.soft φ) (hstops : Ign.stops φ) (hgate : Ign.gate φ) (hflt : Ign.flt φ) (hkv : Ign.kv φ) (henr : Ign.enr φ) (s : State) (m : Meters) : φ (State.periodEnd s m) = φ s := by
  unfold State.periodEnd
  try dsimp only
  (repeat' split) <;> first | (simp only [State.accAdd_keeps hclk hregs hmem hsynd hsoft hstops hgate hflt, State.closeRecord_keeps hclk hregs hmem hsynd hsoft hstops hgate hflt henr, State.remoteSplit_keeps hclk hregs hmem hsynd hsoft hstops hgate hflt henr, hclk, hregs, hmem, hsynd, hsoft, hstops, hgate, hflt, hkv, henr, ign_kv_enr hkv henr, ite_keeps φ, foldl_keeps φ, foldlPair_keeps φ, foldlJob_keeps φ, foldlJobPair_keeps φ, foldr_keeps φ, ite_st, ite_fst, ite_self, implies_true]; done) | rfl
theorem State.reconcile_keeps {φ : State → β} (hclk : Ign.clk φ) (hregs : Ign.regs φ) (hflt : Ign.flt φ) (henr : Ign.enr φ) (s : State) (stop : Nat) : φ (State.reconcile s stop) = φ s := by
  unfold State.reconcile
  try dsimp only
  (repeat' split) <;> first | (simp only [State.event_keeps hregs, State.fput_keeps hregs, State.free_keeps hclk, State.raise_keeps hflt, hclk, hregs, hflt, henr, ite_keeps φ, foldl_keeps φ, foldlPair_keeps φ, foldlJob_keeps φ, foldlJobPair_keeps φ, foldr_keeps φ, ite_st, ite_fst, ite_self, implies_true]; done) | rfl
theorem State.place_keeps {φ : State → β} (hregs : Ign.regs φ) (hmem : Ign.mem φ) (hsynd : Ign.synd φ) (hsoft : Ign.soft φ) (hstops : Ign.stops φ) (hgate : Ign.gate φ) (hflt : Ign.flt φ) (henr : Ign.enr φ) (s : State) (rec_ : List Byte) : φ (State.place s rec_).1 = φ s := by
  unfold State.place
  try dsimp only
  (repeat' split) <;> first | (simp only [State.daWrite_keeps hregs hmem hsynd hsoft hstops hgate hflt, hregs, hmem, hsynd, hsoft, hstops, hgate, hflt, henr, ite_keeps φ, foldl_keeps φ, foldlPair_keeps φ, foldlJob_keeps φ, foldlJobPair_keeps φ, foldr_keeps φ, ite_st, ite_fst, ite_self, implies_true]; done) | rfl
theorem State.closeLate_keeps {φ : State → β} (hregs : Ign.regs φ) (hhost : Ign.host φ) (hcmd : Ign.cmd φ) (hpcie : Ign.pcie φ) (hflt : Ign.flt φ) (henr : Ign.enr φ) (houts : Ign.outs φ) (s : State) (w : Waiter) : φ (State.closeLate s w) = φ s := by
  unfold State.closeLate
  try dsimp only
  (repeat' split) <;> first | (simp only [State.completeKeep_keeps hregs hhost hcmd hpcie hflt houts, State.event_keeps hregs, hregs, hhost, hcmd, hpcie, hflt, henr, houts, ite_keeps φ, foldl_keeps φ, foldlPair_keeps φ, foldlJob_keeps φ, foldlJobPair_keeps φ, foldr_keeps φ, ite_st, ite_fst, ite_self, implies_true]; done) | rfl
theorem State.recordRead_keeps {φ : State → β} (hclk : Ign.clk φ) (hregs : Ign.regs φ) (hmem : Ign.mem φ) (hsynd : Ign.synd φ) (hsoft : Ign.soft φ) (hstops : Ign.stops φ) (hgate : Ign.gate φ) (hflt : Ign.flt φ) (s : State) (da : Nat) : φ (State.recordRead s da).1 = φ s := by
  unfold State.recordRead
  try dsimp only
  (repeat' split) <;> first | (simp only [State.daRead_keeps hregs hmem hsynd hsoft hstops hgate hflt, State.free_keeps hclk, hclk, hregs, hmem, hsynd, hsoft, hstops, hgate, hflt, ite_keeps φ, foldl_keeps φ, foldlPair_keeps φ, foldlJob_keeps φ, foldlJobPair_keeps φ, foldr_keeps φ, ite_st, ite_fst, ite_self, implies_true]; done) | rfl
theorem State.leafDone_keeps {φ : State → β} (hregs : Ign.regs φ) (hhost : Ign.host φ) (hcmd : Ign.cmd φ) (hpcie : Ign.pcie φ) (hflt : Ign.flt φ) (henr : Ign.enr φ) (houts : Ign.outs φ) (s : State) (w : Waiter) (leaf : Nat) : φ (State.leafDone s w leaf) = φ s := by
  unfold State.leafDone
  try dsimp only
  (repeat' split) <;> first | (simp only [State.complete_keeps hregs hhost hcmd hpcie hflt houts, State.setQp_keeps hcmd, State.writeRecord_keeps hregs hhost hcmd hpcie hflt houts, hregs, hhost, hcmd, hpcie, hflt, henr, houts, ite_keeps φ, foldl_keeps φ, foldlPair_keeps φ, foldlJob_keeps φ, foldlJobPair_keeps φ, foldr_keeps φ, ite_st, ite_fst, ite_self, implies_true]; done) | rfl
theorem State.receiptTake_keeps {φ : State → β} (hclk : Ign.clk φ) (hregs : Ign.regs φ) (hmem : Ign.mem φ) (hsynd : Ign.synd φ) (hsoft : Ign.soft φ) (hhost : Ign.host φ) (hstops : Ign.stops φ) (hgate : Ign.gate φ) (hcmd : Ign.cmd φ) (hpcie : Ign.pcie φ) (hflt : Ign.flt φ) (henr : Ign.enr φ) (houts : Ign.outs φ) (s : State) : φ (State.receiptTake s) = φ s := by
  have hc : ∀ o : Option Waiter, φ ((Option.map s.closeLate o).getD s) = φ s := fun o => by
    cases o
    · rfl
    · simp only [Option.map_some, Option.getD_some, State.closeLate_keeps hregs hhost hcmd hpcie hflt henr houts, State.leafDone_keeps hregs hhost hcmd hpcie hflt henr houts, State.place_keeps hregs hmem hsynd hsoft hstops hgate hflt henr, State.qlen_keeps hregs, State.recordRead_keeps hclk hregs hmem hsynd hsoft hstops hgate hflt, hclk, hregs, hmem, hsynd, hsoft, hhost, hstops, hgate, hcmd, hpcie, hflt, henr, houts, ite_keeps φ, foldl_keeps φ, foldlPair_keeps φ, foldlJob_keeps φ, foldlJobPair_keeps φ, foldr_keeps φ, ite_st, ite_fst, ite_self, implies_true]
  unfold State.receiptTake
  dsimp only
  (repeat' split) <;> simp only [hc, State.closeLate_keeps hregs hhost hcmd hpcie hflt henr houts, State.leafDone_keeps hregs hhost hcmd hpcie hflt henr houts, State.place_keeps hregs hmem hsynd hsoft hstops hgate hflt henr, State.qlen_keeps hregs, State.recordRead_keeps hclk hregs hmem hsynd hsoft hstops hgate hflt, hclk, hregs, hmem, hsynd, hsoft, hhost, hstops, hgate, hcmd, hpcie, hflt, henr, houts, ite_keeps φ, foldl_keeps φ, foldlPair_keeps φ, foldlJob_keeps φ, foldlJobPair_keeps φ, foldr_keeps φ, ite_st, ite_fst, ite_self, implies_true]
theorem State.leaves_keeps {φ : State → β} (hclk : Ign.clk φ) (hregs : Ign.regs φ) (hmem : Ign.mem φ) (hsynd : Ign.synd φ) (hsoft : Ign.soft φ) (hstops : Ign.stops φ) (hgate : Ign.gate φ) (hflt : Ign.flt φ) (s : State) (first : Nat) (n : Nat) : φ (State.leaves s first n).1 = φ s := by
  unfold State.leaves
  try dsimp only
  (repeat' split) <;> first | (simp only [State.recordRead_keeps hclk hregs hmem hsynd hsoft hstops hgate hflt, hclk, hregs, hmem, hsynd, hsoft, hstops, hgate, hflt, ite_keeps φ, foldl_keeps φ, foldlPair_keeps φ, foldlJob_keeps φ, foldlJobPair_keeps φ, foldr_keeps φ, ite_st, ite_fst, ite_self, implies_true]; done) | rfl
theorem State.hostWriteFor_keeps {φ : State → β} (hregs : Ign.regs φ) (hhost : Ign.host φ) (hpcie : Ign.pcie φ) (s : State) (f : Nat) (addr : Nat) (bs : List Byte) : φ (State.hostWriteFor s f addr bs) = φ s := by
  unfold State.hostWriteFor
  try dsimp only
  (repeat' split) <;> first | (simp only [State.event_keeps hregs, State.hostWrite_keeps hregs hhost hpcie, hregs, hhost, hpcie, ite_keeps φ, foldl_keeps φ, foldlPair_keeps φ, foldlJob_keeps φ, foldlJobPair_keeps φ, foldr_keeps φ, ite_st, ite_fst, ite_self, implies_true]; done) | rfl
theorem State.descrWrite_keeps {φ : State → β} (hregs : Ign.regs φ) (hhost : Ign.host φ) (hpcie : Ign.pcie φ) (s : State) (q : Nat) (idx : Nat) (addr : Nat) (bs : List Byte) : φ (State.descrWrite s q idx addr bs) = φ s := by
  unfold State.descrWrite
  try dsimp only
  (repeat' split) <;> first | (simp only [State.hostWriteFor_keeps hregs hhost hpcie, hregs, hhost, hpcie, ite_keeps φ, foldl_keeps φ, foldlPair_keeps φ, foldlJob_keeps φ, foldlJobPair_keeps φ, foldr_keeps φ, ite_st, ite_fst, ite_self, implies_true]; done) | rfl
theorem State.fetchNow_keeps {φ : State → β} (hclk : Ign.clk φ) (hregs : Ign.regs φ) (hmem : Ign.mem φ) (hsynd : Ign.synd φ) (hsoft : Ign.soft φ) (hhost : Ign.host φ) (hstops : Ign.stops φ) (hgate : Ign.gate φ) (hcmd : Ign.cmd φ) (hpcie : Ign.pcie φ) (hflt : Ign.flt φ) (houts : Ign.outs φ) (s : State) (q : Nat) (d : Descr) (first : Nat) (n : Nat) : φ (State.fetchNow s q d first n) = φ s := by
  unfold State.fetchNow
  try dsimp only
  (repeat' split) <;> first | (simp only [State.complete_keeps hregs hhost hcmd hpcie hflt houts, State.daRead_keeps hregs hmem hsynd hsoft hstops hgate hflt, State.descrWrite_keeps hregs hhost hpcie, State.leaves_keeps hclk hregs hmem hsynd hsoft hstops hgate hflt, hclk, hregs, hmem, hsynd, hsoft, hhost, hstops, hgate, hcmd, hpcie, hflt, houts, ite_keeps φ, foldl_keeps φ, foldlPair_keeps φ, foldlJob_keeps φ, foldlJobPair_keeps φ, foldr_keeps φ, ite_st, ite_fst, ite_self, implies_true]; done) | rfl
theorem State.fetchTry_keeps {φ : State → β} (hclk : Ign.clk φ) (hregs : Ign.regs φ) (hmem : Ign.mem φ) (hsynd : Ign.synd φ) (hsoft : Ign.soft φ) (hhost : Ign.host φ) (hstops : Ign.stops φ) (hgate : Ign.gate φ) (hcmd : Ign.cmd φ) (hpcie : Ign.pcie φ) (hflt : Ign.flt φ) (henr : Ign.enr φ) (houts : Ign.outs φ) (s : State) (q : Nat) (d : Descr) : φ (State.fetchTry s q d) = φ s := by
  unfold State.fetchTry
  try dsimp only
  (repeat' split) <;> first | (simp only [State.complete_keeps hregs hhost hcmd hpcie hflt houts, State.fetchNow_keeps hclk hregs hmem hsynd hsoft hhost hstops hgate hcmd hpcie hflt houts, hclk, hregs, hmem, hsynd, hsoft, hhost, hstops, hgate, hcmd, hpcie, hflt, henr, houts, ite_keeps φ, foldl_keeps φ, foldlPair_keeps φ, foldlJob_keeps φ, foldlJobPair_keeps φ, foldr_keeps φ, ite_st, ite_fst, ite_self, implies_true]; done) | rfl
theorem State.fetchAll_keeps {φ : State → β} (hclk : Ign.clk φ) (hregs : Ign.regs φ) (hmem : Ign.mem φ) (hsynd : Ign.synd φ) (hsoft : Ign.soft φ) (hhost : Ign.host φ) (hstops : Ign.stops φ) (hgate : Ign.gate φ) (hcmd : Ign.cmd φ) (hpcie : Ign.pcie φ) (hflt : Ign.flt φ) (henr : Ign.enr φ) (houts : Ign.outs φ) (s : State) : φ (State.fetchAll s) = φ s := by
  unfold State.fetchAll
  try dsimp only
  refine foldl_keeps φ _ _ _ (fun s a => ?_)
  try dsimp only
  (repeat' split) <;> (try dsimp only) <;> first
    | (simp only [State.fetchTry_keeps hclk hregs hmem hsynd hsoft hhost hstops hgate hcmd hpcie hflt henr houts, hclk, hregs, hmem, hsynd, hsoft, hhost, hstops, hgate, hcmd, hpcie, hflt, henr, houts, ite_keeps φ, foldl_keeps φ, foldlPair_keeps φ, foldlJob_keeps φ, foldlJobPair_keeps φ, foldr_keeps φ, ite_st, ite_fst, ite_self, implies_true]; done)
    | rfl
    | exact of_fst (by assumption) (by simp only [State.fetchTry_keeps hclk hregs hmem hsynd hsoft hhost hstops hgate hcmd hpcie hflt henr houts, hclk, hregs, hmem, hsynd, hsoft, hhost, hstops, hgate, hcmd, hpcie, hflt, henr, houts, ite_keeps φ, foldl_keeps φ, foldlPair_keeps φ, foldlJob_keeps φ, foldlJobPair_keeps φ, foldr_keeps φ, ite_st, ite_fst, ite_self, implies_true])
    | (simp only [State.fetchTry_keeps hclk hregs hmem hsynd hsoft hhost hstops hgate hcmd hpcie hflt henr houts, hclk, hregs, hmem, hsynd, hsoft, hhost, hstops, hgate, hcmd, hpcie, hflt, henr, houts, ite_keeps φ, foldl_keeps φ, foldlPair_keeps φ, foldlJob_keeps φ, foldlJobPair_keeps φ, foldr_keeps φ, ite_st, ite_fst, ite_self, implies_true]; exact of_fst (by assumption) (by simp only [State.fetchTry_keeps hclk hregs hmem hsynd hsoft hhost hstops hgate hcmd hpcie hflt henr houts, hclk, hregs, hmem, hsynd, hsoft, hhost, hstops, hgate, hcmd, hpcie, hflt, henr, houts, ite_keeps φ, foldl_keeps φ, foldlPair_keeps φ, foldlJob_keeps φ, foldlJobPair_keeps φ, foldr_keeps φ, ite_st, ite_fst, ite_self, implies_true]))
theorem State.batchSign_keeps {φ : State → β} (hclk : Ign.clk φ) (hregs : Ign.regs φ) (hmem : Ign.mem φ) (hsynd : Ign.synd φ) (hsoft : Ign.soft φ) (hhost : Ign.host φ) (hstops : Ign.stops φ) (hgate : Ign.gate φ) (hcmd : Ign.cmd φ) (hpcie : Ign.pcie φ) (hflt : Ign.flt φ) (henr : Ign.enr φ) (houts : Ign.outs φ) (s : State) (b : Nat) : φ (State.batchSign s b) = φ s := by
  unfold State.batchSign
  try dsimp only
  (repeat' split) <;> first | (simp only [State.daRead_keeps hregs hmem hsynd hsoft hstops hgate hflt, State.daWrite_keeps hregs hmem hsynd hsoft hstops hgate hflt, State.fetchAll_keeps hclk hregs hmem hsynd hsoft hhost hstops hgate hcmd hpcie hflt henr houts, State.fput_keeps hregs, State.rput_keeps hregs, hclk, hregs, hmem, hsynd, hsoft, hhost, hstops, hgate, hcmd, hpcie, hflt, henr, houts, ite_keeps φ, foldl_keeps φ, foldlPair_keeps φ, foldlJob_keeps φ, foldlJobPair_keeps φ, foldr_keeps φ, ite_st, ite_fst, ite_self, implies_true]; done) | rfl
theorem State.batchClose_keeps {φ : State → β} (hclk : Ign.clk φ) (hregs : Ign.regs φ) (hmem : Ign.mem φ) (hsynd : Ign.synd φ) (hsoft : Ign.soft φ) (hhost : Ign.host φ) (hstops : Ign.stops φ) (hgate : Ign.gate φ) (hcmd : Ign.cmd φ) (hpcie : Ign.pcie φ) (hflt : Ign.flt φ) (henr : Ign.enr φ) (houts : Ign.outs φ) (s : State) : φ (State.batchClose s) = φ s := by
  unfold State.batchClose
  try dsimp only
  (repeat' split) <;> first | (simp only [State.daWrite_keeps hregs hmem hsynd hsoft hstops hgate hflt, State.fetchAll_keeps hclk hregs hmem hsynd hsoft hhost hstops hgate hcmd hpcie hflt henr houts, State.leaves_keeps hclk hregs hmem hsynd hsoft hstops hgate hflt, hclk, hregs, hmem, hsynd, hsoft, hhost, hstops, hgate, hcmd, hpcie, hflt, henr, houts, ite_keeps φ, foldl_keeps φ, foldlPair_keeps φ, foldlJob_keeps φ, foldlJobPair_keeps φ, foldr_keeps φ, ite_st, ite_fst, ite_self, implies_true]; done) | rfl
theorem State.sealGo_keeps {φ : State → β} (hclk : Ign.clk φ) (hregs : Ign.regs φ) (hmem : Ign.mem φ) (hsynd : Ign.synd φ) (hsoft : Ign.soft φ) (hhost : Ign.host φ) (hstops : Ign.stops φ) (hgate : Ign.gate φ) (hcmd : Ign.cmd φ) (hpcie : Ign.pcie φ) (hflt : Ign.flt φ) (henr : Ign.enr φ) (houts : Ign.outs φ) (x0 : Nat) (x1 : State) : φ (State.sealGo x0 x1) = φ x1 := by
  fun_induction State.sealGo x0 x1 <;> first
    | (simp_all +zetaDelta only [State.batchClose_keeps hclk hregs hmem hsynd hsoft hhost hstops hgate hcmd hpcie hflt henr houts, State.batchSign_keeps hclk hregs hmem hsynd hsoft hhost hstops hgate hcmd hpcie hflt henr houts, State.receiptTake_keeps hclk hregs hmem hsynd hsoft hhost hstops hgate hcmd hpcie hflt henr houts, hclk, hregs, hmem, hsynd, hsoft, hhost, hstops, hgate, hcmd, hpcie, hflt, henr, houts, ite_keeps φ, foldl_keeps φ, foldlPair_keeps φ, foldlJob_keeps φ, foldlJobPair_keeps φ, foldr_keeps φ, ite_st, ite_fst, ite_self, implies_true]; done)
    | (simp +zetaDelta only [State.batchClose_keeps hclk hregs hmem hsynd hsoft hhost hstops hgate hcmd hpcie hflt henr houts, State.batchSign_keeps hclk hregs hmem hsynd hsoft hhost hstops hgate hcmd hpcie hflt henr houts, State.receiptTake_keeps hclk hregs hmem hsynd hsoft hhost hstops hgate hcmd hpcie hflt henr houts, hclk, hregs, hmem, hsynd, hsoft, hhost, hstops, hgate, hcmd, hpcie, hflt, henr, houts, ite_keeps φ, foldl_keeps φ, foldlPair_keeps φ, foldlJob_keeps φ, foldlJobPair_keeps φ, foldr_keeps φ, ite_st, ite_fst, ite_self, implies_true]; done)
    | (simp +zetaDelta only [State.batchClose_keeps hclk hregs hmem hsynd hsoft hhost hstops hgate hcmd hpcie hflt henr houts, State.batchSign_keeps hclk hregs hmem hsynd hsoft hhost hstops hgate hcmd hpcie hflt henr houts, State.receiptTake_keeps hclk hregs hmem hsynd hsoft hhost hstops hgate hcmd hpcie hflt henr houts, hclk, hregs, hmem, hsynd, hsoft, hhost, hstops, hgate, hcmd, hpcie, hflt, henr, houts, ite_keeps φ, foldl_keeps φ, foldlPair_keeps φ, foldlJob_keeps φ, foldlJobPair_keeps φ, foldr_keeps φ, ite_st, ite_fst, ite_self, implies_true]; split <;> simp_all +zetaDelta only [State.batchClose_keeps hclk hregs hmem hsynd hsoft hhost hstops hgate hcmd hpcie hflt henr houts, State.batchSign_keeps hclk hregs hmem hsynd hsoft hhost hstops hgate hcmd hpcie hflt henr houts, State.receiptTake_keeps hclk hregs hmem hsynd hsoft hhost hstops hgate hcmd hpcie hflt henr houts, hclk, hregs, hmem, hsynd, hsoft, hhost, hstops, hgate, hcmd, hpcie, hflt, henr, houts, ite_keeps φ, foldl_keeps φ, foldlPair_keeps φ, foldlJob_keeps φ, foldlJobPair_keeps φ, foldr_keeps φ, ite_st, ite_fst, ite_self, implies_true]; done)
    | (simp_all +zetaDelta [State.batchClose_keeps hclk hregs hmem hsynd hsoft hhost hstops hgate hcmd hpcie hflt henr houts, State.batchSign_keeps hclk hregs hmem hsynd hsoft hhost hstops hgate hcmd hpcie hflt henr houts, State.receiptTake_keeps hclk hregs hmem hsynd hsoft hhost hstops hgate hcmd hpcie hflt henr houts, hclk, hregs, hmem, hsynd, hsoft, hhost, hstops, hgate, hcmd, hpcie, hflt, henr, houts, ite_keeps φ, foldl_keeps φ, foldlPair_keeps φ, foldlJob_keeps φ, foldlJobPair_keeps φ, foldr_keeps φ, ite_st, ite_fst, ite_self, implies_true]; done)
theorem State.seal_keeps {φ : State → β} (hclk : Ign.clk φ) (hregs : Ign.regs φ) (hmem : Ign.mem φ) (hsynd : Ign.synd φ) (hsoft : Ign.soft φ) (hhost : Ign.host φ) (hstops : Ign.stops φ) (hgate : Ign.gate φ) (hcmd : Ign.cmd φ) (hpcie : Ign.pcie φ) (hflt : Ign.flt φ) (hedy : Ign.edy φ) (hkv : Ign.kv φ) (henr : Ign.enr φ) (houts : Ign.outs φ) (s : State) (m : Meters) (k : Nat) : φ (State.seal s m k) = φ s := by
  unfold State.seal
  try dsimp only
  (repeat' split) <;> first | (simp only [State.batchClose_keeps hclk hregs hmem hsynd hsoft hhost hstops hgate hcmd hpcie hflt henr houts, State.batchSign_keeps hclk hregs hmem hsynd hsoft hhost hstops hgate hcmd hpcie hflt henr houts, State.event_keeps hregs, State.fput_keeps hregs, State.logEvent_keeps hregs hedy, State.periodEnd_keeps hclk hregs hmem hsynd hsoft hstops hgate hflt hkv henr, State.reconcile_keeps hclk hregs hflt henr, State.recordRead_keeps hclk hregs hmem hsynd hsoft hstops hgate hflt, State.sealGo_keeps hclk hregs hmem hsynd hsoft hhost hstops hgate hcmd hpcie hflt henr houts, hclk, hregs, hmem, hsynd, hsoft, hhost, hstops, hgate, hcmd, hpcie, hflt, hedy, hkv, henr, houts, ite_keeps φ, foldl_keeps φ, foldlPair_keeps φ, foldlJob_keeps φ, foldlJobPair_keeps φ, foldr_keeps φ, ite_st, ite_fst, ite_self, implies_true]; done) | rfl
theorem State.lckDrop_keeps {φ : State → β} (hlck : Ign.lck φ) (s : State) (num : Nat) : φ (State.lckDrop s num) = φ s := by
  unfold State.lckDrop
  try dsimp only
  (repeat' split) <;> first | (simp only [hlck, ite_keeps φ, foldl_keeps φ, foldlPair_keeps φ, foldlJob_keeps φ, foldlJobPair_keeps φ, foldr_keeps φ, ite_st, ite_fst, ite_self, implies_true]; done) | rfl
theorem State.remapWrite_keeps {φ : State → β} (hregs : Ign.regs φ) (s : State) (t : Nat) (n : Nat) (v : Nat) (k : State → State) (hkk : ∀ s0, φ (k s0) = φ s0) : φ (State.remapWrite s t n v k) = φ s := by
  unfold State.remapWrite
  try dsimp only
  (repeat' split) <;> first | (simp only [State.event_keeps hregs, State.rput_keeps hregs, hregs, ite_keeps φ, foldl_keeps φ, foldlPair_keeps φ, foldlJob_keeps φ, foldlJobPair_keeps φ, foldr_keeps φ, ite_st, ite_fst, ite_self, implies_true, hkk]; done) | rfl
theorem State.quietNow_keeps {φ : State → β} (hgate : Ign.gate φ) (s : State) (t : Nat) (c : Nat) : φ (State.quietNow s t c) = φ s := by
  unfold State.quietNow
  try dsimp only
  (repeat' split) <;> first | (simp only [hgate, ite_keeps φ, foldl_keeps φ, foldlPair_keeps φ, foldlJob_keeps φ, foldlJobPair_keeps φ, foldr_keeps φ, ite_st, ite_fst, ite_self, implies_true]; done) | rfl
theorem State.setOut_keeps {φ : State → β} (hkv : Ign.kv φ) (s : State) (c : Nat) (x : Option Swap) : φ (State.setOut s c x) = φ s := by
  unfold State.setOut
  try dsimp only
  (repeat' split) <;> first | (simp only [hkv, ite_keeps φ, foldl_keeps φ, foldlPair_keeps φ, foldlJob_keeps φ, foldlJobPair_keeps φ, foldr_keeps φ, ite_st, ite_fst, ite_self, implies_true]; done) | rfl
theorem State.outEnds_keeps {φ : State → β} (hregs : Ign.regs φ) (hmem : Ign.mem φ) (hsynd : Ign.synd φ) (hsoft : Ign.soft φ) (hhost : Ign.host φ) (hstops : Ign.stops φ) (hgate : Ign.gate φ) (hcmd : Ign.cmd φ) (hpcie : Ign.pcie φ) (hflt : Ign.flt φ) (hkv : Ign.kv φ) (houts : Ign.outs φ) (s : State) (c : Nat) (x : Swap) (st : Nat) : φ (State.outEnds s c x st) = φ s := by
  unfold State.outEnds
  try dsimp only
  (repeat' split) <;> first | (simp only [Job.entry_keeps hregs hmem hsynd hsoft hstops hgate hflt, Job.finish_keeps hregs hmem hsynd hsoft hstops hgate hflt hkv, Job.setState_keeps hregs hmem hsynd hsoft hstops hgate hflt, State.kvComplete_keeps hregs hhost hcmd hpcie hflt houts, State.kvSync_keeps hregs hmem hsynd hsoft, State.setOut_keeps hkv, hregs, hmem, hsynd, hsoft, hhost, hstops, hgate, hcmd, hpcie, hflt, hkv, houts, ite_keeps φ, foldl_keeps φ, foldlPair_keeps φ, foldlJob_keeps φ, foldlJobPair_keeps φ, foldr_keeps φ, ite_st, ite_fst, ite_self, implies_true]; done) | rfl
theorem State.slotTook_keeps {φ : State → β} (hclk : Ign.clk φ) (hregs : Ign.regs φ) (hmem : Ign.mem φ) (hsynd : Ign.synd φ) (hsoft : Ign.soft φ) (hstops : Ign.stops φ) (hgate : Ign.gate φ) (hflt : Ign.flt φ) (s : State) (n : Nat) (w : Option (List Byte)) : φ (State.slotTook s n w).1 = φ s := by
  unfold State.slotTook
  split <;> simp only [State.daWrite_keeps hregs hmem hsynd hsoft hstops hgate hflt, State.free_keeps hclk, hclk, hregs, hmem, hsynd, hsoft, hstops, hgate, hflt, ite_keeps φ, foldl_keeps φ, foldlPair_keeps φ, foldlJob_keeps φ, foldlJobPair_keeps φ, foldr_keeps φ, ite_st, ite_fst, ite_self, implies_true]
theorem State.slotWord_keeps {φ : State → β} (hclk : Ign.clk φ) (hregs : Ign.regs φ) (hmem : Ign.mem φ) (hsynd : Ign.synd φ) (hsoft : Ign.soft φ) (hstops : Ign.stops φ) (hgate : Ign.gate φ) (hflt : Ign.flt φ) (s : State) (n : Nat) : φ (State.slotWord s n).1 = φ s := by
  unfold State.slotWord
  try dsimp only
  (repeat' split) <;> first | (simp only [State.kvRead_keeps hregs hmem hsynd hsoft hstops hgate hflt, State.slotTook_keeps hclk hregs hmem hsynd hsoft hstops hgate hflt, hclk, hregs, hmem, hsynd, hsoft, hstops, hgate, hflt, ite_keeps φ, foldl_keeps φ, foldlPair_keeps φ, foldlJob_keeps φ, foldlJobPair_keeps φ, foldr_keeps φ, ite_st, ite_fst, ite_self, implies_true]; done) | rfl
theorem State.slotFind_keeps {φ : State → β} (hclk : Ign.clk φ) (hregs : Ign.regs φ) (hmem : Ign.mem φ) (hsynd : Ign.synd φ) (hsoft : Ign.soft φ) (hstops : Ign.stops φ) (hgate : Ign.gate φ) (hflt : Ign.flt φ) (x0 : Nat) (x1 : State) (x2 : Nat) : φ (State.slotFind x0 x1 x2).1 = φ x1 := by
  fun_induction State.slotFind x0 x1 x2
  · rfl
  · rfl
  · simp +zetaDelta only [State.slotWord_keeps hclk hregs hmem hsynd hsoft hstops hgate hflt, hclk, hregs, hmem, hsynd, hsoft, hstops, hgate, hflt, ite_keeps φ, foldl_keeps φ, foldlPair_keeps φ, foldlJob_keeps φ, foldlJobPair_keeps φ, foldr_keeps φ, ite_st, ite_fst, ite_self, implies_true]
  · rename_i ih
    refine ih.trans ?_
    simp +zetaDelta only [State.slotWord_keeps hclk hregs hmem hsynd hsoft hstops hgate hflt, hclk, hregs, hmem, hsynd, hsoft, hstops, hgate, hflt, ite_keeps φ, foldl_keeps φ, foldlPair_keeps φ, foldlJob_keeps φ, foldlJobPair_keeps φ, foldr_keeps φ, ite_st, ite_fst, ite_self, implies_true]
theorem State.slotSet_keeps {φ : State → β} (hclk : Ign.clk φ) (hregs : Ign.regs φ) (hmem : Ign.mem φ) (hsynd : Ign.synd φ) (hsoft : Ign.soft φ) (hstops : Ign.stops φ) (hgate : Ign.gate φ) (hflt : Ign.flt φ) (s : State) (n : Nat) (v : Bool) : φ (State.slotSet s n v) = φ s := by
  unfold State.slotSet
  try dsimp only
  (repeat' split) <;> first | (simp only [State.daWrite_keeps hregs hmem hsynd hsoft hstops hgate hflt, State.slotWord_keeps hclk hregs hmem hsynd hsoft hstops hgate hflt, hclk, hregs, hmem, hsynd, hsoft, hstops, hgate, hflt, ite_keeps φ, foldl_keeps φ, foldlPair_keeps φ, foldlJob_keeps φ, foldlJobPair_keeps φ, foldr_keeps φ, ite_st, ite_fst, ite_self, implies_true]; done) | rfl
theorem State.vectorsRead_keeps {φ : State → β} (hregs : Ign.regs φ) (hmem : Ign.mem φ) (hsynd : Ign.synd φ) (hsoft : Ign.soft φ) (hstops : Ign.stops φ) (hgate : Ign.gate φ) (hflt : Ign.flt φ) (x0 : Nat) (x1 : State) (x2 : Nat) (x3 : Nat) : φ (State.vectorsRead x0 x1 x2 x3).1 = φ x1 := by
  fun_induction State.vectorsRead x0 x1 x2 x3 <;> first
    | (simp_all +zetaDelta only [State.kvRead_keeps hregs hmem hsynd hsoft hstops hgate hflt, hregs, hmem, hsynd, hsoft, hstops, hgate, hflt, ite_keeps φ, foldl_keeps φ, foldlPair_keeps φ, foldlJob_keeps φ, foldlJobPair_keeps φ, foldr_keeps φ, ite_st, ite_fst, ite_self, implies_true]; done)
    | (simp +zetaDelta only [State.kvRead_keeps hregs hmem hsynd hsoft hstops hgate hflt, hregs, hmem, hsynd, hsoft, hstops, hgate, hflt, ite_keeps φ, foldl_keeps φ, foldlPair_keeps φ, foldlJob_keeps φ, foldlJobPair_keeps φ, foldr_keeps φ, ite_st, ite_fst, ite_self, implies_true]; done)
    | (simp +zetaDelta only [State.kvRead_keeps hregs hmem hsynd hsoft hstops hgate hflt, hregs, hmem, hsynd, hsoft, hstops, hgate, hflt, ite_keeps φ, foldl_keeps φ, foldlPair_keeps φ, foldlJob_keeps φ, foldlJobPair_keeps φ, foldr_keeps φ, ite_st, ite_fst, ite_self, implies_true]; split <;> simp_all +zetaDelta only [State.kvRead_keeps hregs hmem hsynd hsoft hstops hgate hflt, hregs, hmem, hsynd, hsoft, hstops, hgate, hflt, ite_keeps φ, foldl_keeps φ, foldlPair_keeps φ, foldlJob_keeps φ, foldlJobPair_keeps φ, foldr_keeps φ, ite_st, ite_fst, ite_self, implies_true]; done)
    | (simp_all +zetaDelta [State.kvRead_keeps hregs hmem hsynd hsoft hstops hgate hflt, hregs, hmem, hsynd, hsoft, hstops, hgate, hflt, ite_keeps φ, foldl_keeps φ, foldlPair_keeps φ, foldlJob_keeps φ, foldlJobPair_keeps φ, foldr_keeps φ, ite_st, ite_fst, ite_self, implies_true]; done)
theorem State.outNext_keeps {φ : State → β} (hclk : Ign.clk φ) (hregs : Ign.regs φ) (hmem : Ign.mem φ) (hsynd : Ign.synd φ) (hsoft : Ign.soft φ) (hhost : Ign.host φ) (hstops : Ign.stops φ) (hgate : Ign.gate φ) (hcmd : Ign.cmd φ) (hpcie : Ign.pcie φ) (hflt : Ign.flt φ) (hkv : Ign.kv φ) (houts : Ign.outs φ) (x0 : Nat) (x1 : State) (x2 : Nat) : φ (State.outNext x0 x1 x2) = φ x1 := by
  fun_induction State.outNext x0 x1 x2 <;> first
    | (simp_all +zetaDelta only [Job.entry_keeps hregs hmem hsynd hsoft hstops hgate hflt, Job.finish_keeps hregs hmem hsynd hsoft hstops hgate hflt hkv, State.hostWrite_keeps hregs hhost hpcie, State.outEnds_keeps hregs hmem hsynd hsoft hhost hstops hgate hcmd hpcie hflt hkv houts, State.setOut_keeps hkv, State.slotFind_keeps hclk hregs hmem hsynd hsoft hstops hgate hflt, State.slotSet_keeps hclk hregs hmem hsynd hsoft hstops hgate hflt, State.swapKey_keeps hclk, State.vectorsRead_keeps hregs hmem hsynd hsoft hstops hgate hflt, hclk, hregs, hmem, hsynd, hsoft, hhost, hstops, hgate, hcmd, hpcie, hflt, hkv, houts, ite_keeps φ, foldl_keeps φ, foldlPair_keeps φ, foldlJob_keeps φ, foldlJobPair_keeps φ, foldr_keeps φ, ite_st, ite_fst, ite_self, implies_true]; done)
    | (simp +zetaDelta only [Job.entry_keeps hregs hmem hsynd hsoft hstops hgate hflt, Job.finish_keeps hregs hmem hsynd hsoft hstops hgate hflt hkv, State.hostWrite_keeps hregs hhost hpcie, State.outEnds_keeps hregs hmem hsynd hsoft hhost hstops hgate hcmd hpcie hflt hkv houts, State.setOut_keeps hkv, State.slotFind_keeps hclk hregs hmem hsynd hsoft hstops hgate hflt, State.slotSet_keeps hclk hregs hmem hsynd hsoft hstops hgate hflt, State.swapKey_keeps hclk, State.vectorsRead_keeps hregs hmem hsynd hsoft hstops hgate hflt, hclk, hregs, hmem, hsynd, hsoft, hhost, hstops, hgate, hcmd, hpcie, hflt, hkv, houts, ite_keeps φ, foldl_keeps φ, foldlPair_keeps φ, foldlJob_keeps φ, foldlJobPair_keeps φ, foldr_keeps φ, ite_st, ite_fst, ite_self, implies_true]; done)
    | (simp +zetaDelta only [Job.entry_keeps hregs hmem hsynd hsoft hstops hgate hflt, Job.finish_keeps hregs hmem hsynd hsoft hstops hgate hflt hkv, State.hostWrite_keeps hregs hhost hpcie, State.outEnds_keeps hregs hmem hsynd hsoft hhost hstops hgate hcmd hpcie hflt hkv houts, State.setOut_keeps hkv, State.slotFind_keeps hclk hregs hmem hsynd hsoft hstops hgate hflt, State.slotSet_keeps hclk hregs hmem hsynd hsoft hstops hgate hflt, State.swapKey_keeps hclk, State.vectorsRead_keeps hregs hmem hsynd hsoft hstops hgate hflt, hclk, hregs, hmem, hsynd, hsoft, hhost, hstops, hgate, hcmd, hpcie, hflt, hkv, houts, ite_keeps φ, foldl_keeps φ, foldlPair_keeps φ, foldlJob_keeps φ, foldlJobPair_keeps φ, foldr_keeps φ, ite_st, ite_fst, ite_self, implies_true]; split <;> simp_all +zetaDelta only [Job.entry_keeps hregs hmem hsynd hsoft hstops hgate hflt, Job.finish_keeps hregs hmem hsynd hsoft hstops hgate hflt hkv, State.hostWrite_keeps hregs hhost hpcie, State.outEnds_keeps hregs hmem hsynd hsoft hhost hstops hgate hcmd hpcie hflt hkv houts, State.setOut_keeps hkv, State.slotFind_keeps hclk hregs hmem hsynd hsoft hstops hgate hflt, State.slotSet_keeps hclk hregs hmem hsynd hsoft hstops hgate hflt, State.swapKey_keeps hclk, State.vectorsRead_keeps hregs hmem hsynd hsoft hstops hgate hflt, hclk, hregs, hmem, hsynd, hsoft, hhost, hstops, hgate, hcmd, hpcie, hflt, hkv, houts, ite_keeps φ, foldl_keeps φ, foldlPair_keeps φ, foldlJob_keeps φ, foldlJobPair_keeps φ, foldr_keeps φ, ite_st, ite_fst, ite_self, implies_true]; done)
    | (simp_all +zetaDelta [Job.entry_keeps hregs hmem hsynd hsoft hstops hgate hflt, Job.finish_keeps hregs hmem hsynd hsoft hstops hgate hflt hkv, State.hostWrite_keeps hregs hhost hpcie, State.outEnds_keeps hregs hmem hsynd hsoft hhost hstops hgate hcmd hpcie hflt hkv houts, State.setOut_keeps hkv, State.slotFind_keeps hclk hregs hmem hsynd hsoft hstops hgate hflt, State.slotSet_keeps hclk hregs hmem hsynd hsoft hstops hgate hflt, State.swapKey_keeps hclk, State.vectorsRead_keeps hregs hmem hsynd hsoft hstops hgate hflt, hclk, hregs, hmem, hsynd, hsoft, hhost, hstops, hgate, hcmd, hpcie, hflt, hkv, houts, ite_keeps φ, foldl_keeps φ, foldlPair_keeps φ, foldlJob_keeps φ, foldlJobPair_keeps φ, foldr_keeps φ, ite_st, ite_fst, ite_self, implies_true]; done)
theorem State.swapResume_keeps {φ : State → β} (hclk : Ign.clk φ) (hregs : Ign.regs φ) (hmem : Ign.mem φ) (hsynd : Ign.synd φ) (hsoft : Ign.soft φ) (hhost : Ign.host φ) (hstops : Ign.stops φ) (hgate : Ign.gate φ) (hcmd : Ign.cmd φ) (hpcie : Ign.pcie φ) (hflt : Ign.flt φ) (hkv : Ign.kv φ) (houts : Ign.outs φ) (s : State) : φ (State.swapResume s) = φ s := by
  unfold State.swapResume
  try dsimp only
  (repeat' split) <;> first | (simp only [State.outNext_keeps hclk hregs hmem hsynd hsoft hhost hstops hgate hcmd hpcie hflt hkv houts, hclk, hregs, hmem, hsynd, hsoft, hhost, hstops, hgate, hcmd, hpcie, hflt, hkv, houts, ite_keeps φ, foldl_keeps φ, foldlPair_keeps φ, foldlJob_keeps φ, foldlJobPair_keeps φ, foldr_keeps φ, ite_st, ite_fst, ite_self, implies_true]; done) | rfl
theorem State.countFromZero_keeps {φ : State → β} (hclk : Ign.clk φ) (hstops : Ign.stops φ) (hgate : Ign.gate φ) (hcores : Ign.cores φ) (htokRel : Ign.tokRel φ) (hflt : Ign.flt φ) (s : State) : φ (State.countFromZero s) = φ s := by
  have h : ∀ (s : State) a b c d e f, φ { s with clk := a, stops := b, gate := c, cores := d, tokRel := e, flt := f } = φ s := fun s a b c d e f =>
    (hclk { s with stops := b, gate := c, cores := d, tokRel := e, flt := f } a).trans
      ((hstops { s with gate := c, cores := d, tokRel := e, flt := f } b).trans
        ((hgate { s with cores := d, tokRel := e, flt := f } c).trans
          ((hcores { s with tokRel := e, flt := f } d).trans ((htokRel { s with flt := f } e).trans (hflt s f)))))
  exact h s _ _ _ _ _ _
theorem State.advance_keeps {φ : State → β} (htiles : Ign.tiles φ) (s : State) (t : Nat) (n : Nat) : φ (State.advance s t n) = φ s := by
  unfold State.advance
  try dsimp only
  (repeat' split) <;> first | (simp only [State.setEng_keeps htiles, htiles, ite_keeps φ, foldl_keeps φ, foldlPair_keeps φ, foldlJob_keeps φ, foldlJobPair_keeps φ, foldr_keeps φ, ite_st, ite_fst, ite_self, implies_true]; done) | rfl
theorem State.retireS_keeps {φ : State → β} (htiles : Ign.tiles φ) (s : State) (t : Nat) (d : Nat) (v : Nat) : φ (State.retireS s t d v) = φ s := by
  unfold State.retireS
  try dsimp only
  (repeat' split) <;> first | (simp only [State.advance_keeps htiles, State.setEng_keeps htiles, htiles, ite_keeps φ, foldl_keeps φ, foldlPair_keeps φ, foldlJob_keeps φ, foldlJobPair_keeps φ, foldr_keeps φ, ite_st, ite_fst, ite_self, implies_true]; done) | rfl
theorem State.noTasklet_keeps {φ : State → β} (htiles : Ign.tiles φ) (hdisps : Ign.disps φ) (s : State) (t : Nat) (w : Word) : φ (State.noTasklet s t w) = φ s := by
  unfold State.noTasklet
  try dsimp only
  (repeat' split) <;> first | (simp only [State.fenceStuck_keeps hdisps, State.retireS_keeps htiles, State.setEng_keeps htiles, htiles, hdisps, ite_keeps φ, foldl_keeps φ, foldlPair_keeps φ, foldlJob_keeps φ, foldlJobPair_keeps φ, foldr_keeps φ, ite_st, ite_fst, ite_self, implies_true]; done) | rfl
theorem State.setDescr_keeps {φ : State → β} (hcmd : Ign.cmd φ) (s : State) (q : Nat) (d : Descr) : φ (State.setDescr s q d) = φ s := by
  unfold State.setDescr
  try dsimp only
  (repeat' split) <;> first | (simp only [State.setQp_keeps hcmd, hcmd, ite_keeps φ, foldl_keeps φ, foldlPair_keeps φ, foldlJob_keeps φ, foldlJobPair_keeps φ, foldr_keeps φ, ite_st, ite_fst, ite_self, implies_true]; done) | rfl
theorem State.fenceRead_keeps {φ : State → β} (hregs : Ign.regs φ) (hhost : Ign.host φ) (hcmd : Ign.cmd φ) (hpcie : Ign.pcie φ) (hflt : Ign.flt φ) (houts : Ign.outs φ) (s : State) (q : Nat) (d : Descr) (v : Nat) : φ (State.fenceRead s q d v) = φ s := by
  unfold State.fenceRead
  try dsimp only
  (repeat' split) <;> first | (simp only [State.complete_keeps hregs hhost hcmd hpcie hflt houts, State.setDescr_keeps hcmd, hregs, hhost, hcmd, hpcie, hflt, houts, ite_keeps φ, foldl_keeps φ, foldlPair_keeps φ, foldlJob_keeps φ, foldlJobPair_keeps φ, foldr_keeps φ, ite_st, ite_fst, ite_self, implies_true]; done) | rfl
theorem State.placeOf_keeps {φ : State → β} (hclk : Ign.clk φ) (hregs : Ign.regs φ) (hmem : Ign.mem φ) (hsynd : Ign.synd φ) (hsoft : Ign.soft φ) (hstops : Ign.stops φ) (hgate : Ign.gate φ) (hflt : Ign.flt φ) (s : State) (i : Nat) : φ (State.placeOf s i).1 = φ s := by
  unfold State.placeOf
  try dsimp only
  (repeat' split) <;> (try dsimp only) <;> first
    | (simp only [State.free_keeps hclk, State.kvRead_keeps hregs hmem hsynd hsoft hstops hgate hflt, hclk, hregs, hmem, hsynd, hsoft, hstops, hgate, hflt, ite_keeps φ, foldl_keeps φ, foldlPair_keeps φ, foldlJob_keeps φ, foldlJobPair_keeps φ, foldr_keeps φ, ite_st, ite_fst, ite_self, implies_true]; done)
    | rfl
    | exact of_fst (by assumption) (by simp only [State.free_keeps hclk, State.kvRead_keeps hregs hmem hsynd hsoft hstops hgate hflt, hclk, hregs, hmem, hsynd, hsoft, hstops, hgate, hflt, ite_keeps φ, foldl_keeps φ, foldlPair_keeps φ, foldlJob_keeps φ, foldlJobPair_keeps φ, foldr_keeps φ, ite_st, ite_fst, ite_self, implies_true])
    | (simp only [State.free_keeps hclk, State.kvRead_keeps hregs hmem hsynd hsoft hstops hgate hflt, hclk, hregs, hmem, hsynd, hsoft, hstops, hgate, hflt, ite_keeps φ, foldl_keeps φ, foldlPair_keeps φ, foldlJob_keeps φ, foldlJobPair_keeps φ, foldr_keeps φ, ite_st, ite_fst, ite_self, implies_true]; exact of_fst (by assumption) (by simp only [State.free_keeps hclk, State.kvRead_keeps hregs hmem hsynd hsoft hstops hgate hflt, hclk, hregs, hmem, hsynd, hsoft, hstops, hgate, hflt, ite_keeps φ, foldl_keeps φ, foldlPair_keeps φ, foldlJob_keeps φ, foldlJobPair_keeps φ, foldr_keeps φ, ite_st, ite_fst, ite_self, implies_true]))
theorem Job.kvPage_keeps {φ : State → β} (hclk : Ign.clk φ) (hregs : Ign.regs φ) (hmem : Ign.mem φ) (hsynd : Ign.synd φ) (hsoft : Ign.soft φ) (hstops : Ign.stops φ) (hgate : Ign.gate φ) (hflt : Ign.flt φ) (hkv : Ign.kv φ) (j : Job) (e : Nat) (lh : Nat) (st : Nat) : φ (Job.kvPage j e lh st).1.st = φ j.st := by
  unfold Job.kvPage
  try dsimp only
  (repeat' split) <;> first | (simp only [Job.map_keeps , Job.pop_keeps hregs hmem hsynd hsoft hstops hgate hflt hkv, State.placeOf_keeps hclk hregs hmem hsynd hsoft hstops hgate hflt, hclk, hregs, hmem, hsynd, hsoft, hstops, hgate, hflt, hkv, ite_keeps φ, foldl_keeps φ, foldlPair_keeps φ, foldlJob_keeps φ, foldlJobPair_keeps φ, foldr_keeps φ, ite_st, ite_fst, ite_self, implies_true]; done) | rfl
theorem State.putPoison_keeps {φ : State → β} (hmem : Ign.mem φ) (hsynd : Ign.synd φ) (hsoft : Ign.soft φ) (s : State) (pl : Nat) (bs : List Byte) : φ (State.putPoison s pl bs) = φ s := by
  unfold State.putPoison
  try dsimp only
  (repeat' split) <;> first | (simp only [hmem, hsynd, hsoft, ign_mem_synd hmem hsynd, ign_mem_soft hmem hsoft, ign_synd_soft hsynd hsoft, ign_mem_synd_soft hmem hsynd hsoft, ite_keeps φ, foldl_keeps φ, foldlPair_keeps φ, foldlJob_keeps φ, foldlJobPair_keeps φ, foldr_keeps φ, ite_st, ite_fst, ite_self, implies_true]; done) | rfl
theorem State.copyPage_keeps {φ : State → β} (hregs : Ign.regs φ) (hmem : Ign.mem φ) (hsynd : Ign.synd φ) (hsoft : Ign.soft φ) (hstops : Ign.stops φ) (hgate : Ign.gate φ) (hflt : Ign.flt φ) (s : State) (src : Nat) (dst : Nat) : φ (State.copyPage s src dst) = φ s := by
  unfold State.copyPage
  try dsimp only
  refine foldl_keeps φ _ _ _ (fun s a => ?_)
  try dsimp only
  (repeat' split) <;> (try dsimp only) <;> first
    | (simp only [State.daWrite_keeps hregs hmem hsynd hsoft hstops hgate hflt, State.kvRead_keeps hregs hmem hsynd hsoft hstops hgate hflt, State.putPoison_keeps hmem hsynd hsoft, hregs, hmem, hsynd, hsoft, hstops, hgate, hflt, ite_keeps φ, foldl_keeps φ, foldlPair_keeps φ, foldlJob_keeps φ, foldlJobPair_keeps φ, foldr_keeps φ, ite_st, ite_fst, ite_self, implies_true]; done)
    | rfl
    | exact of_fst (by assumption) (by simp only [State.daWrite_keeps hregs hmem hsynd hsoft hstops hgate hflt, State.kvRead_keeps hregs hmem hsynd hsoft hstops hgate hflt, State.putPoison_keeps hmem hsynd hsoft, hregs, hmem, hsynd, hsoft, hstops, hgate, hflt, ite_keeps φ, foldl_keeps φ, foldlPair_keeps φ, foldlJob_keeps φ, foldlJobPair_keeps φ, foldr_keeps φ, ite_st, ite_fst, ite_self, implies_true])
    | (simp only [State.daWrite_keeps hregs hmem hsynd hsoft hstops hgate hflt, State.kvRead_keeps hregs hmem hsynd hsoft hstops hgate hflt, State.putPoison_keeps hmem hsynd hsoft, hregs, hmem, hsynd, hsoft, hstops, hgate, hflt, ite_keeps φ, foldl_keeps φ, foldlPair_keeps φ, foldlJob_keeps φ, foldlJobPair_keeps φ, foldr_keeps φ, ite_st, ite_fst, ite_self, implies_true]; exact of_fst (by assumption) (by simp only [State.daWrite_keeps hregs hmem hsynd hsoft hstops hgate hflt, State.kvRead_keeps hregs hmem hsynd hsoft hstops hgate hflt, State.putPoison_keeps hmem hsynd hsoft, hregs, hmem, hsynd, hsoft, hstops, hgate, hflt, ite_keeps φ, foldl_keeps φ, foldlPair_keeps φ, foldlJob_keeps φ, foldlJobPair_keeps φ, foldr_keeps φ, ite_st, ite_fst, ite_self, implies_true]))
theorem Job.ownPage_keeps {φ : State → β} (hclk : Ign.clk φ) (hregs : Ign.regs φ) (hmem : Ign.mem φ) (hsynd : Ign.synd φ) (hsoft : Ign.soft φ) (hstops : Ign.stops φ) (hgate : Ign.gate φ) (hflt : Ign.flt φ) (hkv : Ign.kv φ) (a : Job) (c : Nat) (root : Nat) (lh : Nat) (e : Nat) (old : Nat) (conf : Bool) : φ (Job.ownPage a c root lh e old conf).st = φ a.st := by
  unfold Job.ownPage
  try dsimp only
  (repeat' split) <;> first | (simp only [Job.kvPage_keeps hclk hregs hmem hsynd hsoft hstops hgate hflt hkv, Job.map_keeps , Job.refDown_keeps hclk hregs hmem hsynd hsoft hstops hgate hflt hkv, Job.setPte_keeps hregs hmem hsynd hsoft hstops hgate hflt hkv, State.copyPage_keeps hregs hmem hsynd hsoft hstops hgate hflt, hclk, hregs, hmem, hsynd, hsoft, hstops, hgate, hflt, hkv, ite_keeps φ, foldl_keeps φ, foldlPair_keeps φ, foldlJob_keeps φ, foldlJobPair_keeps φ, foldr_keeps φ, ite_st, ite_fst, ite_self, implies_true]; done) | rfl
theorem State.setPeerState_keeps {φ : State → β} (hregs : Ign.regs φ) (hmem : Ign.mem φ) (hsynd : Ign.synd φ) (hsoft : Ign.soft φ) (hstops : Ign.stops φ) (hgate : Ign.gate φ) (hflt : Ign.flt φ) (s : State) (i : Nat) (v : Nat) : φ (State.setPeerState s i v) = φ s := by
  unfold State.setPeerState
  try dsimp only
  (repeat' split) <;> first | (simp only [State.daRead_keeps hregs hmem hsynd hsoft hstops hgate hflt, State.daWrite_keeps hregs hmem hsynd hsoft hstops hgate hflt, hregs, hmem, hsynd, hsoft, hstops, hgate, hflt, ite_keeps φ, foldl_keeps φ, foldlPair_keeps φ, foldlJob_keeps φ, foldlJobPair_keeps φ, foldr_keeps φ, ite_st, ite_fst, ite_self, implies_true]; done) | rfl
theorem State.revive_keeps {φ : State → β} (hregs : Ign.regs φ) (hmem : Ign.mem φ) (hsynd : Ign.synd φ) (hsoft : Ign.soft φ) (hstops : Ign.stops φ) (hgate : Ign.gate φ) (hflt : Ign.flt φ) (s : State) (i : Nat) : φ (State.revive s i).1 = φ s := by
  unfold State.revive
  try dsimp only
  (repeat' split) <;> first | (simp only [State.peerState_keeps hregs hmem hsynd hsoft hstops hgate hflt, State.setPeerState_keeps hregs hmem hsynd hsoft hstops hgate hflt, hregs, hmem, hsynd, hsoft, hstops, hgate, hflt, ite_keeps φ, foldl_keeps φ, foldlPair_keeps φ, foldlJob_keeps φ, foldlJobPair_keeps φ, foldr_keeps φ, ite_st, ite_fst, ite_self, implies_true]; done) | rfl
theorem State.fwAsk_keeps {φ : State → β} (hclk : Ign.clk φ) (hregs : Ign.regs φ) (hmem : Ign.mem φ) (hsynd : Ign.synd φ) (hsoft : Ign.soft φ) (hhost : Ign.host φ) (hstops : Ign.stops φ) (hgate : Ign.gate φ) (hcmd : Ign.cmd φ) (hpcie : Ign.pcie φ) (hflt : Ign.flt φ) (hfw : Ign.fw φ) (hfab : Ign.fab φ) (houts : Ign.outs φ) (x0 : Nat) (x1 : State) (x2 : Nat) (x3 : Nat) : φ (State.fwAsk x0 x1 x2 x3) = φ x1 := by
  fun_induction State.fwAsk x0 x1 x2 x3
  · rfl
  · simp +zetaDelta only [State.event_keeps hregs, State.peerState_keeps hregs hmem hsynd hsoft hstops hgate hflt, State.post_keeps hclk hregs hmem hsynd hsoft hhost hstops hgate hcmd hpcie hflt hfab houts, hclk, hregs, hmem, hsynd, hsoft, hhost, hstops, hgate, hcmd, hpcie, hflt, hfw, hfab, houts, ite_keeps φ, foldl_keeps φ, foldlPair_keeps φ, foldlJob_keeps φ, foldlJobPair_keeps φ, foldr_keeps φ, ite_st, ite_fst, ite_self, implies_true]
  · simp +zetaDelta only [State.event_keeps hregs, State.peerState_keeps hregs hmem hsynd hsoft hstops hgate hflt, State.post_keeps hclk hregs hmem hsynd hsoft hhost hstops hgate hcmd hpcie hflt hfab houts, hclk, hregs, hmem, hsynd, hsoft, hhost, hstops, hgate, hcmd, hpcie, hflt, hfw, hfab, houts, ite_keeps φ, foldl_keeps φ, foldlPair_keeps φ, foldlJob_keeps φ, foldlJobPair_keeps φ, foldr_keeps φ, ite_st, ite_fst, ite_self, implies_true]
  · rename_i ih
    refine ih.trans ?_
    simp +zetaDelta only [State.event_keeps hregs, State.peerState_keeps hregs hmem hsynd hsoft hstops hgate hflt, State.post_keeps hclk hregs hmem hsynd hsoft hhost hstops hgate hcmd hpcie hflt hfab houts, hclk, hregs, hmem, hsynd, hsoft, hhost, hstops, hgate, hcmd, hpcie, hflt, hfw, hfab, houts, ite_keeps φ, foldl_keeps φ, foldlPair_keeps φ, foldlJob_keeps φ, foldlJobPair_keeps φ, foldr_keeps φ, ite_st, ite_fst, ite_self, implies_true]
theorem State.fwAskFrom_keeps {φ : State → β} (hclk : Ign.clk φ) (hregs : Ign.regs φ) (hmem : Ign.mem φ) (hsynd : Ign.synd φ) (hsoft : Ign.soft φ) (hhost : Ign.host φ) (hstops : Ign.stops φ) (hgate : Ign.gate φ) (hcmd : Ign.cmd φ) (hpcie : Ign.pcie φ) (hflt : Ign.flt φ) (hfw : Ign.fw φ) (hfab : Ign.fab φ) (houts : Ign.outs φ) (s : State) (n : Nat) (k : Nat) : φ (State.fwAskFrom s n k) = φ s := by
  unfold State.fwAskFrom
  try dsimp only
  (repeat' split) <;> first | (simp only [State.fwAsk_keeps hclk hregs hmem hsynd hsoft hhost hstops hgate hcmd hpcie hflt hfw hfab houts, hclk, hregs, hmem, hsynd, hsoft, hhost, hstops, hgate, hcmd, hpcie, hflt, hfw, hfab, houts, ite_keeps φ, foldl_keeps φ, foldlPair_keeps φ, foldlJob_keeps φ, foldlJobPair_keeps φ, foldr_keeps φ, ite_st, ite_fst, ite_self, implies_true]; done) | rfl
theorem State.putReport_keeps {φ : State → β} (hregs : Ign.regs φ) (s : State) (n : Nat) (b : List Byte) : φ (State.putReport s n b) = φ s := by
  unfold State.putReport
  try dsimp only
  (repeat' split) <;> first | (simp only [State.rput_keeps hregs, hregs, ite_keeps φ, foldl_keeps φ, foldlPair_keeps φ, foldlJob_keeps φ, foldlJobPair_keeps φ, foldr_keeps φ, ite_st, ite_fst, ite_self, implies_true]; done) | rfl
theorem State.bootReport_keeps {φ : State → β} (hregs : Ign.regs φ) (hedy : Ign.edy φ) (hboot : Ign.boot φ) (s : State) (n : Nat) (res : Nat) (locs : List Nat) (detail : Nat) : φ (State.bootReport s n res locs detail) = φ s := by
  unfold State.bootReport
  try dsimp only
  (repeat' split) <;> first | (simp only [State.fput_keeps hregs, State.logWrite_keeps hregs hedy, State.putReport_keeps hregs, hregs, hedy, hboot, ite_keeps φ, foldl_keeps φ, foldlPair_keeps φ, foldlJob_keeps φ, foldlJobPair_keeps φ, foldr_keeps φ, ite_st, ite_fst, ite_self, implies_true]; done) | rfl
theorem State.bootReject_keeps {φ : State → β} (hregs : Ign.regs φ) (hedy : Ign.edy φ) (hboot : Ign.boot φ) (s : State) (slot : Nat) (cause : Nat) : φ (State.bootReject s slot cause) = φ s := by
  unfold State.bootReject
  try dsimp only
  (repeat' split) <;> first | (simp only [State.bootReport_keeps hregs hedy hboot, State.event_keeps hregs, State.fput_keeps hregs, hregs, hedy, hboot, ite_keeps φ, foldl_keeps φ, foldlPair_keeps φ, foldlJob_keeps φ, foldlJobPair_keeps φ, foldr_keeps φ, ite_st, ite_fst, ite_self, implies_true]; done) | rfl
theorem State.thaw_keeps {φ : State → β} (htiles : Ign.tiles φ) (s : State) (t : Nat) : φ (State.thaw s t) = φ s := by
  unfold State.thaw
  try dsimp only
  (repeat' split) <;> first | (simp only [State.setArr_keeps htiles, htiles, ite_keeps φ, foldl_keeps φ, foldlPair_keeps φ, foldlJob_keeps φ, foldlJobPair_keeps φ, foldr_keeps φ, ite_st, ite_fst, ite_self, implies_true]; done) | rfl
theorem State.emptyStep_keeps {φ : State → β} (hregs : Ign.regs φ) (htiles : Ign.tiles φ) (s : State) (t : Nat) (tc : Nat) (bubble : Bool) : φ (State.emptyStep s t tc bubble) = φ s := by
  unfold State.emptyStep
  try dsimp only
  (repeat' split) <;> first | (simp only [State.fadd_keeps hregs, State.setArr_keeps htiles, State.thaw_keeps htiles, hregs, htiles, ite_keeps φ, foldl_keeps φ, foldlPair_keeps φ, foldlJob_keeps φ, foldlJobPair_keeps φ, foldr_keeps φ, ite_st, ite_fst, ite_self, implies_true]; done) | rfl
theorem State.useOpen_keeps {φ : State → β} (henr : Ign.enr φ) (s : State) (u : Nat) (c : Charge) : φ (State.useOpen s u c) = φ s := by
  unfold State.useOpen
  try dsimp only
  (repeat' split) <;> first | (simp only [State.useClose_keeps henr, henr, ite_keeps φ, foldl_keeps φ, foldlPair_keeps φ, foldlJob_keeps φ, foldlJobPair_keeps φ, foldr_keeps φ, ite_st, ite_fst, ite_self, implies_true]; done) | rfl
theorem State.partDone_keeps {φ : State → β} (hregs : Ign.regs φ) (hhost : Ign.host φ) (htiles : Ign.tiles φ) (hstops : Ign.stops φ) (hdisps : Ign.disps φ) (hcmd : Ign.cmd φ) (hpcie : Ign.pcie φ) (hflt : Ign.flt φ) (hlck : Ign.lck φ) (henr : Ign.enr φ) (houts : Ign.outs φ) (s : State) (t : Nat) : φ (State.partDone s t) = φ s := by
  unfold State.partDone
  try dsimp only
  (repeat' split) <;> first | (simp only [State.dispCheck_keeps hregs hhost htiles hstops hdisps hcmd hpcie hflt hlck houts, State.setDisp_keeps hdisps, State.setEng_keeps htiles, State.useClose_keeps henr, State.useOpen_keeps henr, hregs, hhost, htiles, hstops, hdisps, hcmd, hpcie, hflt, hlck, henr, houts, ite_keeps φ, foldl_keeps φ, foldlPair_keeps φ, foldlJob_keeps φ, foldlJobPair_keeps φ, foldr_keeps φ, ite_st, ite_fst, ite_self, implies_true]; done) | rfl
theorem State.unhandled_keeps {φ : State → β} (hregs : Ign.regs φ) (hhost : Ign.host φ) (htiles : Ign.tiles φ) (hstops : Ign.stops φ) (hdisps : Ign.disps φ) (hcmd : Ign.cmd φ) (hpcie : Ign.pcie φ) (hflt : Ign.flt φ) (hlck : Ign.lck φ) (henr : Ign.enr φ) (houts : Ign.outs φ) (s : State) (t : Nat) (cause : Nat) : φ (State.unhandled s t cause) = φ s := by
  unfold State.unhandled
  try dsimp only
  (repeat' split) <;> first | (simp only [State.partDone_keeps hregs hhost htiles hstops hdisps hcmd hpcie hflt hlck henr houts, State.report_keeps hdisps, State.stopGroup_keeps hdisps, hregs, hhost, htiles, hstops, hdisps, hcmd, hpcie, hflt, hlck, henr, houts, ite_keeps φ, foldl_keeps φ, foldlPair_keeps φ, foldlJob_keeps φ, foldlJobPair_keeps φ, foldr_keeps φ, ite_st, ite_fst, ite_self, implies_true]; done) | rfl
theorem State.trap_keeps {φ : State → β} (hregs : Ign.regs φ) (hhost : Ign.host φ) (htiles : Ign.tiles φ) (hstops : Ign.stops φ) (hdisps : Ign.disps φ) (hcmd : Ign.cmd φ) (hpcie : Ign.pcie φ) (hflt : Ign.flt φ) (hlck : Ign.lck φ) (henr : Ign.enr φ) (houts : Ign.outs φ) (s : State) (t : Nat) (cause : Nat) (pc : Nat) (async : Bool) : φ (State.trap s t cause pc async) = φ s := by
  unfold State.trap
  try dsimp only
  (repeat' split) <;> first | (simp only [State.event_keeps hregs, State.rput_keeps hregs, State.setEng_keeps htiles, State.unhandled_keeps hregs hhost htiles hstops hdisps hcmd hpcie hflt hlck henr houts, hregs, hhost, htiles, hstops, hdisps, hcmd, hpcie, hflt, hlck, henr, houts, ite_keeps φ, foldl_keeps φ, foldlPair_keeps φ, foldlJob_keeps φ, foldlJobPair_keeps φ, foldr_keeps φ, ite_st, ite_fst, ite_self, implies_true]; done) | rfl
theorem State.trapHere_keeps {φ : State → β} (hregs : Ign.regs φ) (hhost : Ign.host φ) (htiles : Ign.tiles φ) (hstops : Ign.stops φ) (hdisps : Ign.disps φ) (hcmd : Ign.cmd φ) (hpcie : Ign.pcie φ) (hflt : Ign.flt φ) (hlck : Ign.lck φ) (henr : Ign.enr φ) (houts : Ign.outs φ) (s : State) (t : Nat) (cause : Nat) : φ (State.trapHere s t cause) = φ s := by
  unfold State.trapHere
  try dsimp only
  (repeat' split) <;> first | (simp only [State.trap_keeps hregs hhost htiles hstops hdisps hcmd hpcie hflt hlck henr houts, hregs, hhost, htiles, hstops, hdisps, hcmd, hpcie, hflt, hlck, henr, houts, ite_keeps φ, foldl_keeps φ, foldlPair_keeps φ, foldlJob_keeps φ, foldlJobPair_keeps φ, foldr_keeps φ, ite_st, ite_fst, ite_self, implies_true]; done) | rfl
theorem State.deliverTask_keeps {φ : State → β} (hclk : Ign.clk φ) (hregs : Ign.regs φ) (hspm : Ign.spm φ) (hspmErr : Ign.spmErr φ) (hhost : Ign.host φ) (htiles : Ign.tiles φ) (hstops : Ign.stops φ) (hdisps : Ign.disps φ) (hcmd : Ign.cmd φ) (hpcie : Ign.pcie φ) (hflt : Ign.flt φ) (hlck : Ign.lck φ) (henr : Ign.enr φ) (houts : Ign.outs φ) (s : State) (t : Nat) (w : Word) (x : Task) : φ (State.deliverTask s t w x) = φ s := by
  unfold State.deliverTask
  try dsimp only
  (repeat' split) <;> first | (simp only [State.retireS_keeps htiles, State.setEng_keeps htiles, State.spmWrite_keeps hclk hregs hspm hspmErr htiles hflt, State.trapHere_keeps hregs hhost htiles hstops hdisps hcmd hpcie hflt hlck henr houts, hclk, hregs, hspm, hspmErr, hhost, htiles, hstops, hdisps, hcmd, hpcie, hflt, hlck, henr, houts, ite_keeps φ, foldl_keeps φ, foldlPair_keeps φ, foldlJob_keeps φ, foldlJobPair_keeps φ, foldr_keeps φ, ite_st, ite_fst, ite_self, implies_true]; done) | rfl
theorem State.mbxEnd_keeps {φ : State → β} (hregs : Ign.regs φ) (hhost : Ign.host φ) (hpcie : Ign.pcie φ) (houts : Ign.outs φ) (s : State) (m : Nat) (status : Nat) (resp : List Byte) : φ (State.mbxEnd s m status resp) = φ s := by
  unfold State.mbxEnd
  try dsimp only
  (repeat' split) <;> first | (simp only [State.event_keeps hregs, State.fput_keeps hregs, State.hostWrite_keeps hregs hhost hpcie, State.msi_keeps hregs hpcie houts, State.rput_keeps hregs, hregs, hhost, hpcie, houts, ite_keeps φ, foldl_keeps φ, foldlPair_keeps φ, foldlJob_keeps φ, foldlJobPair_keeps φ, foldr_keeps φ, ite_st, ite_fst, ite_self, implies_true]; done) | rfl
theorem State.hostate_keeps {φ : State → β} (hregs : Ign.regs φ) (s : State) (t : Nat) (b : Nat) : φ (State.hostate s t b) = φ s := by
  unfold State.hostate
  try dsimp only
  (repeat' split) <;> first | (simp only [State.rput_keeps hregs, hregs, ite_keeps φ, foldl_keeps φ, foldlPair_keeps φ, foldlJob_keeps φ, foldlJobPair_keeps φ, foldr_keeps φ, ite_st, ite_fst, ite_self, implies_true]; done) | rfl
theorem State.wipeStart_keeps {φ : State → β} (hregs : Ign.regs φ) (hspm : Ign.spm φ) (hspmErr : Ign.spmErr φ) (htiles : Ign.tiles φ) (s : State) (t : Nat) (b : Nat) : φ (State.wipeStart s t b) = φ s := by
  unfold State.wipeStart
  try dsimp only
  (repeat' split) <;> first | (simp only [State.hostate_keeps hregs, State.setEng_keeps htiles, State.zeroBank_keeps hspm hspmErr, hregs, hspm, hspmErr, htiles, ite_keeps φ, foldl_keeps φ, foldlPair_keeps φ, foldlJob_keeps φ, foldlJobPair_keeps φ, foldr_keeps φ, ite_st, ite_fst, ite_self, implies_true]; done) | rfl
theorem State.setOwner_keeps {φ : State → β} (hregs : Ign.regs φ) (s : State) (t : Nat) (b : Nat) (v : Nat) : φ (State.setOwner s t b v) = φ s := by
  unfold State.setOwner
  try dsimp only
  (repeat' split) <;> first | (simp only [State.rput_keeps hregs, hregs, ite_keeps φ, foldl_keeps φ, foldlPair_keeps φ, foldlJob_keeps φ, foldlJobPair_keeps φ, foldr_keeps φ, ite_st, ite_fst, ite_self, implies_true]; done) | rfl
theorem State.wipeSecure_keeps {φ : State → β} (hregs : Ign.regs φ) (hspm : Ign.spm φ) (hspmErr : Ign.spmErr φ) (htiles : Ign.tiles φ) (hstops : Ign.stops φ) (s : State) : φ (State.wipeSecure s) = φ s := by
  unfold State.wipeSecure
  try dsimp only
  (repeat' split) <;> first | (simp only [State.setOwner_keeps hregs, State.setStop_keeps hstops, State.wipeStart_keeps hregs hspm hspmErr htiles, hregs, hspm, hspmErr, htiles, hstops, ite_keeps φ, foldl_keeps φ, foldlPair_keeps φ, foldlJob_keeps φ, foldlJobPair_keeps φ, foldr_keeps φ, ite_st, ite_fst, ite_self, implies_true]; done) | rfl
theorem State.lcTry_keeps {φ : State → β} (hregs : Ign.regs φ) (hhost : Ign.host φ) (hpcie : Ign.pcie φ) (hsec : Ign.sec φ) (houts : Ign.outs φ) (s : State) : φ (State.lcTry s) = φ s := by
  unfold State.lcTry
  try dsimp only
  (repeat' split) <;> first | (simp only [State.fadd_keeps hregs, State.fput_keeps hregs, State.mbxEnd_keeps hregs hhost hpcie houts, hregs, hhost, hpcie, hsec, houts, ite_keeps φ, foldl_keeps φ, foldlPair_keeps φ, foldlJob_keeps φ, foldlJobPair_keeps φ, foldr_keeps φ, ite_st, ite_fst, ite_self, implies_true]; done) | rfl
theorem State.lcChange_keeps {φ : State → β} (hclk : Ign.clk φ) (hregs : Ign.regs φ) (hspm : Ign.spm φ) (hspmErr : Ign.spmErr φ) (hhost : Ign.host φ) (htiles : Ign.tiles φ) (hstops : Ign.stops φ) (hpcie : Ign.pcie φ) (hsec : Ign.sec φ) (houts : Ign.outs φ) (s : State) (req : List Byte) : φ (State.lcChange s req) = φ s := by
  unfold State.lcChange
  try dsimp only
  (repeat' split) <;> first | (simp only [State.closeSessions_keeps hregs hsec, State.free_keeps hclk, State.lcTry_keeps hregs hhost hpcie hsec houts, State.mbxEnd_keeps hregs hhost hpcie houts, State.put64_keeps hregs, State.wipeSecure_keeps hregs hspm hspmErr htiles hstops, hclk, hregs, hspm, hspmErr, hhost, htiles, hstops, hpcie, hsec, houts, ite_keeps φ, foldl_keeps φ, foldlPair_keeps φ, foldlJob_keeps φ, foldlJobPair_keeps φ, foldr_keeps φ, ite_st, ite_fst, ite_self, implies_true]; done) | rfl
theorem State.progLoad_keeps {φ : State → β} (hregs : Ign.regs φ) (hmem : Ign.mem φ) (hsynd : Ign.synd φ) (hsoft : Ign.soft φ) (hhost : Ign.host φ) (hstops : Ign.stops φ) (hgate : Ign.gate φ) (hpcie : Ign.pcie φ) (hflt : Ign.flt φ) (hsec : Ign.sec φ) (houts : Ign.outs φ) (s : State) (img : List Byte) : φ (State.progLoad s img) = φ s := by
  unfold State.progLoad
  try dsimp only
  (repeat' split) <;> first | (simp only [State.daWrite_keeps hregs hmem hsynd hsoft hstops hgate hflt, State.mbxEnd_keeps hregs hhost hpcie houts, State.measure_keeps hregs hsec, hregs, hmem, hsynd, hsoft, hhost, hstops, hgate, hpcie, hflt, hsec, houts, ite_keeps φ, foldl_keeps φ, foldlPair_keeps φ, foldlJob_keeps φ, foldlJobPair_keeps φ, foldr_keeps φ, ite_st, ite_fst, ite_self, implies_true]; done) | rfl
theorem State.sessionOpen_keeps {φ : State → β} (hregs : Ign.regs φ) (hhost : Ign.host φ) (hpcie : Ign.pcie φ) (hflt : Ign.flt φ) (hsec : Ign.sec φ) (houts : Ign.outs φ) (s : State) (req : List Byte) : φ (State.sessionOpen s req) = φ s := by
  unfold State.sessionOpen
  try dsimp only
  (repeat' split) <;> first | (simp only [State.authFail_keeps hregs hflt, State.fput_keeps hregs, State.mbxEnd_keeps hregs hhost hpcie houts, hregs, hhost, hpcie, hflt, hsec, houts, ite_keeps φ, foldl_keeps φ, foldlPair_keeps φ, foldlJob_keeps φ, foldlJobPair_keeps φ, foldr_keeps φ, ite_st, ite_fst, ite_self, implies_true]; done) | rfl
theorem State.sessionClose_keeps {φ : State → β} (hregs : Ign.regs φ) (hhost : Ign.host φ) (hpcie : Ign.pcie φ) (hsec : Ign.sec φ) (houts : Ign.outs φ) (s : State) (sid : Nat) : φ (State.sessionClose s sid) = φ s := by
  unfold State.sessionClose
  try dsimp only
  (repeat' split) <;> first | (simp only [State.closeSessions_keeps hregs hsec, State.mbxEnd_keeps hregs hhost hpcie houts, hregs, hhost, hpcie, hsec, houts, ite_keeps φ, foldl_keeps φ, foldlPair_keeps φ, foldlJob_keeps φ, foldlJobPair_keeps φ, foldr_keeps φ, ite_st, ite_fst, ite_self, implies_true]; done) | rfl
theorem State.mbxAct_keeps {φ : State → β} (hclk : Ign.clk φ) (hregs : Ign.regs φ) (hmem : Ign.mem φ) (hsynd : Ign.synd φ) (hsoft : Ign.soft φ) (hspm : Ign.spm φ) (hspmErr : Ign.spmErr φ) (hhost : Ign.host φ) (htiles : Ign.tiles φ) (hstops : Ign.stops φ) (hgate : Ign.gate φ) (hpcie : Ign.pcie φ) (hflt : Ign.flt φ) (hsec : Ign.sec φ) (houts : Ign.outs φ) (s : State) (m : Nat) (code : Nat) (req : List Byte) : φ (State.mbxAct s m code req) = φ s := by
  unfold State.mbxAct
  try dsimp only
  (repeat' split) <;> first | (simp only [State.fput_keeps hregs, State.lcChange_keeps hclk hregs hspm hspmErr hhost htiles hstops hpcie hsec houts, State.mbxEnd_keeps hregs hhost hpcie houts, State.progLoad_keeps hregs hmem hsynd hsoft hhost hstops hgate hpcie hflt hsec houts, State.sessionClose_keeps hregs hhost hpcie hsec houts, State.sessionOpen_keeps hregs hhost hpcie hflt hsec houts, hclk, hregs, hmem, hsynd, hsoft, hspm, hspmErr, hhost, htiles, hstops, hgate, hpcie, hflt, hsec, houts, ite_keeps φ, foldl_keeps φ, foldlPair_keeps φ, foldlJob_keeps φ, foldlJobPair_keeps φ, foldr_keeps φ, ite_st, ite_fst, ite_self, implies_true]; done) | rfl
theorem State.settleFor_keeps {φ : State → β} (hgate : Ign.gate φ) {α : Type} (s : State) (w : Who) (k : State → State × α) (hkk : ∀ s0, φ (k s0).1 = φ s0) : φ (State.settleFor s w k).1 = φ s := by
  unfold State.settleFor
  try dsimp only
  (repeat' split) <;> first | (simp only [hgate, ite_keeps φ, foldl_keeps φ, foldlPair_keeps φ, foldlJob_keeps φ, foldlJobPair_keeps φ, foldr_keeps φ, ite_st, ite_fst, ite_self, implies_true, hkk]; done) | rfl
theorem State.icLine_keeps {φ : State → β} (hregs : Ign.regs φ) (hmem : Ign.mem φ) (hsynd : Ign.synd φ) (hsoft : Ign.soft φ) (htiles : Ign.tiles φ) (hstops : Ign.stops φ) (hgate : Ign.gate φ) (hflt : Ign.flt φ) (s : State) (t : Nat) (line : Nat) : φ (State.icLine s t line).1 = φ s := by
  unfold State.icLine
  try dsimp only
  (repeat' split) <;> first | (simp only [State.daRead_keeps hregs hmem hsynd hsoft hstops hgate hflt, State.setEng_keeps htiles, State.settleFor_keeps hgate, hregs, hmem, hsynd, hsoft, htiles, hstops, hgate, hflt, ite_keeps φ, foldl_keeps φ, foldlPair_keeps φ, foldlJob_keeps φ, foldlJobPair_keeps φ, foldr_keeps φ, ite_st, ite_fst, ite_self, implies_true]; done) | rfl
theorem State.fetchWord_keeps {φ : State → β} (hregs : Ign.regs φ) (hmem : Ign.mem φ) (hsynd : Ign.synd φ) (hsoft : Ign.soft φ) (htiles : Ign.tiles φ) (hstops : Ign.stops φ) (hgate : Ign.gate φ) (hflt : Ign.flt φ) (s : State) (t : Nat) (pc : Nat) : φ (State.fetchWord s t pc).1 = φ s := by
  unfold State.fetchWord
  try dsimp only
  (repeat' split) <;> first | (simp only [State.icLine_keeps hregs hmem hsynd hsoft htiles hstops hgate hflt, hregs, hmem, hsynd, hsoft, htiles, hstops, hgate, hflt, ite_keeps φ, foldl_keeps φ, foldlPair_keeps φ, foldlJob_keeps φ, foldlJobPair_keeps φ, foldr_keeps φ, ite_st, ite_fst, ite_self, implies_true]; done) | rfl
theorem State.portTicks_keeps {φ : State → β} (hclk : Ign.clk φ) (hregs : Ign.regs φ) (hspm : Ign.spm φ) (hspmErr : Ign.spmErr φ) (htiles : Ign.tiles φ) (hflt : Ign.flt φ) (henr : Ign.enr φ) (x0 : Nat) (x1 : State) (x2 : Nat) (x3 : List (Nat × Nat)) : φ (State.portTicks x0 x1 x2 x3) = φ x1 := by
  fun_induction State.portTicks x0 x1 x2 x3 <;> first
    | (simp_all +zetaDelta only [State.portTick_keeps hclk hregs hspm hspmErr htiles hflt henr, hclk, hregs, hspm, hspmErr, htiles, hflt, henr, ite_keeps φ, foldl_keeps φ, foldlPair_keeps φ, foldlJob_keeps φ, foldlJobPair_keeps φ, foldr_keeps φ, ite_st, ite_fst, ite_self, implies_true]; done)
    | (simp +zetaDelta only [State.portTick_keeps hclk hregs hspm hspmErr htiles hflt henr, hclk, hregs, hspm, hspmErr, htiles, hflt, henr, ite_keeps φ, foldl_keeps φ, foldlPair_keeps φ, foldlJob_keeps φ, foldlJobPair_keeps φ, foldr_keeps φ, ite_st, ite_fst, ite_self, implies_true]; done)
    | (simp +zetaDelta only [State.portTick_keeps hclk hregs hspm hspmErr htiles hflt henr, hclk, hregs, hspm, hspmErr, htiles, hflt, henr, ite_keeps φ, foldl_keeps φ, foldlPair_keeps φ, foldlJob_keeps φ, foldlJobPair_keeps φ, foldr_keeps φ, ite_st, ite_fst, ite_self, implies_true]; split <;> simp_all +zetaDelta only [State.portTick_keeps hclk hregs hspm hspmErr htiles hflt henr, hclk, hregs, hspm, hspmErr, htiles, hflt, henr, ite_keeps φ, foldl_keeps φ, foldlPair_keeps φ, foldlJob_keeps φ, foldlJobPair_keeps φ, foldr_keeps φ, ite_st, ite_fst, ite_self, implies_true]; done)
    | (simp_all +zetaDelta [State.portTick_keeps hclk hregs hspm hspmErr htiles hflt henr, hclk, hregs, hspm, hspmErr, htiles, hflt, henr, ite_keeps φ, foldl_keeps φ, foldlPair_keeps φ, foldlJob_keeps φ, foldlJobPair_keeps φ, foldr_keeps φ, ite_st, ite_fst, ite_self, implies_true]; done)
theorem State.grantGo_keeps {φ : State → β} (hclk : Ign.clk φ) (hregs : Ign.regs φ) (hmem : Ign.mem φ) (hsynd : Ign.synd φ) (hsoft : Ign.soft φ) (hhost : Ign.host φ) (hstops : Ign.stops φ) (hgate : Ign.gate φ) (hcmd : Ign.cmd φ) (hpcie : Ign.pcie φ) (hflt : Ign.flt φ) (hfab : Ign.fab φ) (houts : Ign.outs φ) (x0 : Nat) (x1 : State) : φ (State.grantGo x0 x1) = φ x1 := by
  fun_induction State.grantGo x0 x1 <;> first
    | (simp_all +zetaDelta only [State.post_keeps hclk hregs hmem hsynd hsoft hhost hstops hgate hcmd hpcie hflt hfab houts, State.setPeer_keeps hfab, hclk, hregs, hmem, hsynd, hsoft, hhost, hstops, hgate, hcmd, hpcie, hflt, hfab, houts, ite_keeps φ, foldl_keeps φ, foldlPair_keeps φ, foldlJob_keeps φ, foldlJobPair_keeps φ, foldr_keeps φ, ite_st, ite_fst, ite_self, implies_true]; done)
    | (simp +zetaDelta only [State.post_keeps hclk hregs hmem hsynd hsoft hhost hstops hgate hcmd hpcie hflt hfab houts, State.setPeer_keeps hfab, hclk, hregs, hmem, hsynd, hsoft, hhost, hstops, hgate, hcmd, hpcie, hflt, hfab, houts, ite_keeps φ, foldl_keeps φ, foldlPair_keeps φ, foldlJob_keeps φ, foldlJobPair_keeps φ, foldr_keeps φ, ite_st, ite_fst, ite_self, implies_true]; done)
    | (simp +zetaDelta only [State.post_keeps hclk hregs hmem hsynd hsoft hhost hstops hgate hcmd hpcie hflt hfab houts, State.setPeer_keeps hfab, hclk, hregs, hmem, hsynd, hsoft, hhost, hstops, hgate, hcmd, hpcie, hflt, hfab, houts, ite_keeps φ, foldl_keeps φ, foldlPair_keeps φ, foldlJob_keeps φ, foldlJobPair_keeps φ, foldr_keeps φ, ite_st, ite_fst, ite_self, implies_true]; split <;> simp_all +zetaDelta only [State.post_keeps hclk hregs hmem hsynd hsoft hhost hstops hgate hcmd hpcie hflt hfab houts, State.setPeer_keeps hfab, hclk, hregs, hmem, hsynd, hsoft, hhost, hstops, hgate, hcmd, hpcie, hflt, hfab, houts, ite_keeps φ, foldl_keeps φ, foldlPair_keeps φ, foldlJob_keeps φ, foldlJobPair_keeps φ, foldr_keeps φ, ite_st, ite_fst, ite_self, implies_true]; done)
    | (simp_all +zetaDelta [State.post_keeps hclk hregs hmem hsynd hsoft hhost hstops hgate hcmd hpcie hflt hfab houts, State.setPeer_keeps hfab, hclk, hregs, hmem, hsynd, hsoft, hhost, hstops, hgate, hcmd, hpcie, hflt, hfab, houts, ite_keeps φ, foldl_keeps φ, foldlPair_keeps φ, foldlJob_keeps φ, foldlJobPair_keeps φ, foldr_keeps φ, ite_st, ite_fst, ite_self, implies_true]; done)
theorem State.segsRead_keeps {φ : State → β} (hclk : Ign.clk φ) (hregs : Ign.regs φ) (htiles : Ign.tiles φ) (hflt : Ign.flt φ) (s : State) (u : Nat) (c : OwnClass) (x3 : List (Nat × Nat)) (x4 : List Byte) : φ (State.segsRead s u c x3 x4).1 = φ s := by
  fun_induction State.segsRead s u c x3 x4 <;> first
    | (simp_all +zetaDelta only [State.spmRead_keeps hclk hregs htiles hflt, State.spmViol_keeps hregs, hclk, hregs, htiles, hflt, ite_keeps φ, foldl_keeps φ, foldlPair_keeps φ, foldlJob_keeps φ, foldlJobPair_keeps φ, foldr_keeps φ, ite_st, ite_fst, ite_self, implies_true]; done)
    | (simp +zetaDelta only [State.spmRead_keeps hclk hregs htiles hflt, State.spmViol_keeps hregs, hclk, hregs, htiles, hflt, ite_keeps φ, foldl_keeps φ, foldlPair_keeps φ, foldlJob_keeps φ, foldlJobPair_keeps φ, foldr_keeps φ, ite_st, ite_fst, ite_self, implies_true]; done)
    | (simp +zetaDelta only [State.spmRead_keeps hclk hregs htiles hflt, State.spmViol_keeps hregs, hclk, hregs, htiles, hflt, ite_keeps φ, foldl_keeps φ, foldlPair_keeps φ, foldlJob_keeps φ, foldlJobPair_keeps φ, foldr_keeps φ, ite_st, ite_fst, ite_self, implies_true]; split <;> simp_all +zetaDelta only [State.spmRead_keeps hclk hregs htiles hflt, State.spmViol_keeps hregs, hclk, hregs, htiles, hflt, ite_keeps φ, foldl_keeps φ, foldlPair_keeps φ, foldlJob_keeps φ, foldlJobPair_keeps φ, foldr_keeps φ, ite_st, ite_fst, ite_self, implies_true]; done)
    | (simp_all +zetaDelta [State.spmRead_keeps hclk hregs htiles hflt, State.spmViol_keeps hregs, hclk, hregs, htiles, hflt, ite_keeps φ, foldl_keeps φ, foldlPair_keeps φ, foldlJob_keeps φ, foldlJobPair_keeps φ, foldr_keeps φ, ite_st, ite_fst, ite_self, implies_true]; done)
theorem State.copyRead_keeps {φ : State → β} (hclk : Ign.clk φ) (hregs : Ign.regs φ) (hmem : Ign.mem φ) (hsynd : Ign.synd φ) (hsoft : Ign.soft φ) (htiles : Ign.tiles φ) (hstops : Ign.stops φ) (hgate : Ign.gate φ) (hflt : Ign.flt φ) (s : State) (c : CopyD) (r : Nat) : φ (State.copyRead s c r).1 = φ s := by
  unfold State.copyRead
  try dsimp only
  (repeat' split) <;> first | (simp only [State.daRead_keeps hregs hmem hsynd hsoft hstops hgate hflt, State.segsRead_keeps hclk hregs htiles hflt, hclk, hregs, hmem, hsynd, hsoft, htiles, hstops, hgate, hflt, ite_keeps φ, foldl_keeps φ, foldlPair_keeps φ, foldlJob_keeps φ, foldlJobPair_keeps φ, foldr_keeps φ, ite_st, ite_fst, ite_self, implies_true]; done) | rfl
theorem State.fenceReturn_keeps {φ : State → β} (hregs : Ign.regs φ) (hhost : Ign.host φ) (hcmd : Ign.cmd φ) (hpcie : Ign.pcie φ) (hflt : Ign.flt φ) (houts : Ign.outs φ) (s : State) (qp : Nat) (idx : Nat) (ok : Bool) (data : List Byte) : φ (State.fenceReturn s qp idx ok data) = φ s := by
  unfold State.fenceReturn
  try dsimp only
  (repeat' split) <;> first | (simp only [State.complete_keeps hregs hhost hcmd hpcie hflt houts, State.event_keeps hregs, State.fenceRead_keeps hregs hhost hcmd hpcie hflt houts, hregs, hhost, hcmd, hpcie, hflt, houts, ite_keeps φ, foldl_keeps φ, foldlPair_keeps φ, foldlJob_keeps φ, foldlJobPair_keeps φ, foldr_keeps φ, ite_st, ite_fst, ite_self, implies_true]; done) | rfl
theorem Job.closePage_keeps {φ : State → β} (hclk : Ign.clk φ) (hregs : Ign.regs φ) (hmem : Ign.mem φ) (hsynd : Ign.synd φ) (hsoft : Ign.soft φ) (hstops : Ign.stops φ) (hgate : Ign.gate φ) (hflt : Ign.flt φ) (hkv : Ign.kv φ) (j : Job) (da : Nat) (conf : Bool) : φ (Job.closePage j da conf).st = φ j.st := by
  unfold Job.closePage
  try dsimp only
  (repeat' split) <;> first | (simp only [Job.refDown_keeps hclk hregs hmem hsynd hsoft hstops hgate hflt hkv, hclk, hregs, hmem, hsynd, hsoft, hstops, hgate, hflt, hkv, ite_keeps φ, foldl_keeps φ, foldlPair_keeps φ, foldlJob_keeps φ, foldlJobPair_keeps φ, foldr_keeps φ, ite_st, ite_fst, ite_self, implies_true]; done) | rfl
theorem State.entryRead_keeps {φ : State → β} (hregs : Ign.regs φ) (hmem : Ign.mem φ) (hsynd : Ign.synd φ) (hsoft : Ign.soft φ) (hstops : Ign.stops φ) (hgate : Ign.gate φ) (hflt : Ign.flt φ) (s : State) (ttab : Nat) (k : Nat) (dnum : Nat) : φ (State.entryRead s ttab k dnum).1 = φ s := by
  unfold State.entryRead
  try dsimp only
  (repeat' split) <;> first | (simp only [State.daRead_keeps hregs hmem hsynd hsoft hstops hgate hflt, hregs, hmem, hsynd, hsoft, hstops, hgate, hflt, ite_keeps φ, foldl_keeps φ, foldlPair_keeps φ, foldlJob_keeps φ, foldlJobPair_keeps φ, foldr_keeps φ, ite_st, ite_fst, ite_self, implies_true]; done) | rfl
theorem State.tableCheck_keeps {φ : State → β} (hclk : Ign.clk φ) (hregs : Ign.regs φ) (hmem : Ign.mem φ) (hsynd : Ign.synd φ) (hsoft : Ign.soft φ) (hstops : Ign.stops φ) (hgate : Ign.gate φ) (hflt : Ign.flt φ) (x0 : Nat) (x1 : State) (x2 : Nat) (x3 : Nat) (x4 : List Nat) (x5 : Nat) (x6 : List Nat) : φ (State.tableCheck x0 x1 x2 x3 x4 x5 x6).1 = φ x1 := by
  fun_induction State.tableCheck x0 x1 x2 x3 x4 x5 x6 <;> first
    | (simp_all +zetaDelta only [State.entryRead_keeps hregs hmem hsynd hsoft hstops hgate hflt, State.free_keeps hclk, hclk, hregs, hmem, hsynd, hsoft, hstops, hgate, hflt, ite_keeps φ, foldl_keeps φ, foldlPair_keeps φ, foldlJob_keeps φ, foldlJobPair_keeps φ, foldr_keeps φ, ite_st, ite_fst, ite_self, implies_true]; done)
    | (simp +zetaDelta only [State.entryRead_keeps hregs hmem hsynd hsoft hstops hgate hflt, State.free_keeps hclk, hclk, hregs, hmem, hsynd, hsoft, hstops, hgate, hflt, ite_keeps φ, foldl_keeps φ, foldlPair_keeps φ, foldlJob_keeps φ, foldlJobPair_keeps φ, foldr_keeps φ, ite_st, ite_fst, ite_self, implies_true]; done)
    | (simp +zetaDelta only [State.entryRead_keeps hregs hmem hsynd hsoft hstops hgate hflt, State.free_keeps hclk, hclk, hregs, hmem, hsynd, hsoft, hstops, hgate, hflt, ite_keeps φ, foldl_keeps φ, foldlPair_keeps φ, foldlJob_keeps φ, foldlJobPair_keeps φ, foldr_keeps φ, ite_st, ite_fst, ite_self, implies_true]; split <;> simp_all +zetaDelta only [State.entryRead_keeps hregs hmem hsynd hsoft hstops hgate hflt, State.free_keeps hclk, hclk, hregs, hmem, hsynd, hsoft, hstops, hgate, hflt, ite_keeps φ, foldl_keeps φ, foldlPair_keeps φ, foldlJob_keeps φ, foldlJobPair_keeps φ, foldr_keeps φ, ite_st, ite_fst, ite_self, implies_true]; done)
    | (simp_all +zetaDelta [State.entryRead_keeps hregs hmem hsynd hsoft hstops hgate hflt, State.free_keeps hclk, hclk, hregs, hmem, hsynd, hsoft, hstops, hgate, hflt, ite_keeps φ, foldl_keeps φ, foldlPair_keeps φ, foldlJob_keeps φ, foldlJobPair_keeps φ, foldr_keeps φ, ite_st, ite_fst, ite_self, implies_true]; done)
theorem State.dirDrop_keeps {φ : State → β} (hkv : Ign.kv φ) (s : State) (h : Nat) (n : Nat) : φ (State.dirDrop s h n) = φ s := by
  unfold State.dirDrop
  try dsimp only
  (repeat' split) <;> first | (simp only [hkv, ite_keeps φ, foldl_keeps φ, foldlPair_keeps φ, foldlJob_keeps φ, foldlJobPair_keeps φ, foldr_keeps φ, ite_st, ite_fst, ite_self, implies_true]; done) | rfl
theorem Job.evict_keeps {φ : State → β} (hclk : Ign.clk φ) (hregs : Ign.regs φ) (hmem : Ign.mem φ) (hsynd : Ign.synd φ) (hsoft : Ign.soft φ) (hstops : Ign.stops φ) (hgate : Ign.gate φ) (hflt : Ign.flt φ) (hkv : Ign.kv φ) (j : Job) (n : Nat) (b : List Byte) (lh : Nat) : φ (Job.evict j n b lh).st = φ j.st := by
  unfold Job.evict
  try dsimp only
  (repeat' split) <;> first | (simp only [Job.map_keeps , Job.refDown_keeps hclk hregs hmem hsynd hsoft hstops hgate hflt hkv, Job.write_keeps hregs hmem hsynd hsoft hstops hgate hflt, State.dirDrop_keeps hkv, State.fadd_keeps hregs, State.rowPfns_keeps hregs hmem hsynd hsoft hstops hgate hflt, hclk, hregs, hmem, hsynd, hsoft, hstops, hgate, hflt, hkv, ite_keeps φ, foldl_keeps φ, foldlPair_keeps φ, foldlJob_keeps φ, foldlJobPair_keeps φ, foldr_keeps φ, ite_st, ite_fst, ite_self, implies_true]; done) | rfl
theorem State.unsupported_keeps {φ : State → β} (houts : Ign.outs φ) (s : State) : φ (State.unsupported s) = φ s := by
  unfold State.unsupported
  try dsimp only
  (repeat' split) <;> first | (simp only [houts, ite_keeps φ, foldl_keeps φ, foldlPair_keeps φ, foldlJob_keeps φ, foldlJobPair_keeps φ, foldr_keeps φ, ite_st, ite_fst, ite_self, implies_true]; done) | rfl
theorem State.exhRead_keeps {φ : State → β} (hregs : Ign.regs φ) (hmem : Ign.mem φ) (hsynd : Ign.synd φ) (hsoft : Ign.soft φ) (hstops : Ign.stops φ) (hgate : Ign.gate φ) (hflt : Ign.flt φ) (s : State) (e : Nat) : φ (State.exhRead s e).1 = φ s := by
  unfold State.exhRead
  try dsimp only
  (repeat' split) <;> first | (simp only [State.daRead_keeps hregs hmem hsynd hsoft hstops hgate hflt, State.raise_keeps hflt, hregs, hmem, hsynd, hsoft, hstops, hgate, hflt, ite_keeps φ, foldl_keeps φ, foldlPair_keeps φ, foldlJob_keeps φ, foldlJobPair_keeps φ, foldr_keeps φ, ite_st, ite_fst, ite_self, implies_true]; done) | rfl
theorem State.recordWrite_keeps {φ : State → β} (hregs : Ign.regs φ) (hmem : Ign.mem φ) (hsynd : Ign.synd φ) (hsoft : Ign.soft φ) (hstops : Ign.stops φ) (hgate : Ign.gate φ) (hflt : Ign.flt φ) (hfab : Ign.fab φ) (s : State) (e : Nat) : φ (State.recordWrite s e) = φ s := by
  unfold State.recordWrite
  try dsimp only
  (repeat' split) <;> first | (simp only [State.daRead_keeps hregs hmem hsynd hsoft hstops hgate hflt, State.daWrite_keeps hregs hmem hsynd hsoft hstops hgate hflt, State.exhRead_keeps hregs hmem hsynd hsoft hstops hgate hflt, hregs, hmem, hsynd, hsoft, hstops, hgate, hflt, hfab, ite_keeps φ, foldl_keeps φ, foldlPair_keeps φ, foldlJob_keeps φ, foldlJobPair_keeps φ, foldr_keeps φ, ite_st, ite_fst, ite_self, implies_true]; done) | rfl
theorem State.diverge_keeps {φ : State → β} (hregs : Ign.regs φ) (hflt : Ign.flt φ) (s : State) (num : Nat) (cause : Nat) (task : Nat) (tile : Nat) (ptile : Nat) : φ (State.diverge s num cause task tile ptile) = φ s := by
  unfold State.diverge
  try dsimp only
  (repeat' split) <;> first | (simp only [State.event_keeps hregs, State.fadd_keeps hregs, State.fput_keeps hregs, State.raise_keeps hflt, State.rput_keeps hregs, hregs, hflt, ite_keeps φ, foldl_keeps φ, foldlPair_keeps φ, foldlJob_keeps φ, foldlJobPair_keeps φ, foldr_keeps φ, ite_st, ite_fst, ite_self, implies_true]; done) | rfl
theorem State.copyWrite_keeps {φ : State → β} (hclk : Ign.clk φ) (hregs : Ign.regs φ) (hmem : Ign.mem φ) (hsynd : Ign.synd φ) (hsoft : Ign.soft φ) (hspm : Ign.spm φ) (hspmErr : Ign.spmErr φ) (hhost : Ign.host φ) (htiles : Ign.tiles φ) (hstops : Ign.stops φ) (hgate : Ign.gate φ) (hpcie : Ign.pcie φ) (hflt : Ign.flt φ) (houts : Ign.outs φ) (s : State) (c : CopyD) (r : Nat) (bs : List Byte) (portA : List Nat) : φ (State.copyWrite s c r bs portA).1 = φ s := by
  unfold State.copyWrite
  try dsimp only
  (repeat' split) <;> first | (simp only [State.daWrite_keeps hregs hmem hsynd hsoft hstops hgate hflt, State.hostWrite_keeps hregs hhost hpcie, State.segsWrite_keeps hclk hregs hspm hspmErr htiles hflt houts, hclk, hregs, hmem, hsynd, hsoft, hspm, hspmErr, hhost, htiles, hstops, hgate, hpcie, hflt, houts, ite_keeps φ, foldl_keeps φ, foldlPair_keeps φ, foldlJob_keeps φ, foldlJobPair_keeps φ, foldr_keeps φ, ite_st, ite_fst, ite_self, implies_true]; done) | rfl
theorem State.copyIn_keeps {φ : State → β} (hclk : Ign.clk φ) (hregs : Ign.regs φ) (hmem : Ign.mem φ) (hsynd : Ign.synd φ) (hsoft : Ign.soft φ) (hspm : Ign.spm φ) (hspmErr : Ign.spmErr φ) (hhost : Ign.host φ) (htiles : Ign.tiles φ) (hstops : Ign.stops φ) (hgate : Ign.gate φ) (hpcie : Ign.pcie φ) (hflt : Ign.flt φ) (houts : Ign.outs φ) (x0 : Nat) (x1 : State) (x2 : CopyD) (x3 : Nat) (x4 : Nat) (x5 : List Byte) (x6 : List Nat) : φ (State.copyIn x0 x1 x2 x3 x4 x5 x6).1 = φ x1 := by
  fun_induction State.copyIn x0 x1 x2 x3 x4 x5 x6 <;> first
    | (simp_all +zetaDelta only [State.copyWrite_keeps hclk hregs hmem hsynd hsoft hspm hspmErr hhost htiles hstops hgate hpcie hflt houts, hclk, hregs, hmem, hsynd, hsoft, hspm, hspmErr, hhost, htiles, hstops, hgate, hpcie, hflt, houts, ite_keeps φ, foldl_keeps φ, foldlPair_keeps φ, foldlJob_keeps φ, foldlJobPair_keeps φ, foldr_keeps φ, ite_st, ite_fst, ite_self, implies_true]; done)
    | (simp +zetaDelta only [State.copyWrite_keeps hclk hregs hmem hsynd hsoft hspm hspmErr hhost htiles hstops hgate hpcie hflt houts, hclk, hregs, hmem, hsynd, hsoft, hspm, hspmErr, hhost, htiles, hstops, hgate, hpcie, hflt, houts, ite_keeps φ, foldl_keeps φ, foldlPair_keeps φ, foldlJob_keeps φ, foldlJobPair_keeps φ, foldr_keeps φ, ite_st, ite_fst, ite_self, implies_true]; done)
    | (simp +zetaDelta only [State.copyWrite_keeps hclk hregs hmem hsynd hsoft hspm hspmErr hhost htiles hstops hgate hpcie hflt houts, hclk, hregs, hmem, hsynd, hsoft, hspm, hspmErr, hhost, htiles, hstops, hgate, hpcie, hflt, houts, ite_keeps φ, foldl_keeps φ, foldlPair_keeps φ, foldlJob_keeps φ, foldlJobPair_keeps φ, foldr_keeps φ, ite_st, ite_fst, ite_self, implies_true]; split <;> simp_all +zetaDelta only [State.copyWrite_keeps hclk hregs hmem hsynd hsoft hspm hspmErr hhost htiles hstops hgate hpcie hflt houts, hclk, hregs, hmem, hsynd, hsoft, hspm, hspmErr, hhost, htiles, hstops, hgate, hpcie, hflt, houts, ite_keeps φ, foldl_keeps φ, foldlPair_keeps φ, foldlJob_keeps φ, foldlJobPair_keeps φ, foldr_keeps φ, ite_st, ite_fst, ite_self, implies_true]; done)
    | (simp_all +zetaDelta [State.copyWrite_keeps hclk hregs hmem hsynd hsoft hspm hspmErr hhost htiles hstops hgate hpcie hflt houts, hclk, hregs, hmem, hsynd, hsoft, hspm, hspmErr, hhost, htiles, hstops, hgate, hpcie, hflt, houts, ite_keeps φ, foldl_keeps φ, foldlPair_keeps φ, foldlJob_keeps φ, foldlJobPair_keeps φ, foldr_keeps φ, ite_st, ite_fst, ite_self, implies_true]; done)
theorem State.stageNext_keeps {φ : State → β} (hregs : Ign.regs φ) (hboot : Ign.boot φ) (s : State) (n : Nat) : φ (State.stageNext s n) = φ s := by
  unfold State.stageNext
  try dsimp only
  (repeat' split) <;> first | (simp only [State.fput_keeps hregs, hregs, hboot, ite_keeps φ, foldl_keeps φ, foldlPair_keeps φ, foldlJob_keeps φ, foldlJobPair_keeps φ, foldr_keeps φ, ite_st, ite_fst, ite_self, implies_true]; done) | rfl
theorem State.stageEnd_keeps {φ : State → β} (hregs : Ign.regs φ) (hedy : Ign.edy φ) (hboot : Ign.boot φ) (s : State) (n : Nat) (res : Nat) (locs : List Nat) (detail : Nat) : φ (State.stageEnd s n res locs detail) = φ s := by
  unfold State.stageEnd
  try dsimp only
  (repeat' split) <;> first | (simp only [State.bootReport_keeps hregs hedy hboot, State.fput_keeps hregs, State.stageNext_keeps hregs hboot, hregs, hedy, hboot, ite_keeps φ, foldl_keeps φ, foldlPair_keeps φ, foldlJob_keeps φ, foldlJobPair_keeps φ, foldr_keeps φ, ite_st, ite_fst, ite_self, implies_true]; done) | rfl
theorem State.keyAnswer_keeps {φ : State → β} (hclk : Ign.clk φ) (hregs : Ign.regs φ) (hfab : Ign.fab φ) (houts : Ign.outs φ) (s : State) (p : Nat) (i : Nat) : φ (State.keyAnswer s p i) = φ s := by
  unfold State.keyAnswer
  try dsimp only
  (repeat' split) <;> first | (simp only [State.event_keeps hregs, State.fput_keeps hregs, State.pump_keeps hclk hfab houts, State.setPort_keeps hfab, hclk, hregs, hfab, houts, ite_keeps φ, foldl_keeps φ, foldlPair_keeps φ, foldlJob_keeps φ, foldlJobPair_keeps φ, foldr_keeps φ, ite_st, ite_fst, ite_self, implies_true]; done) | rfl
theorem State.dbgWrite_keeps {φ : State → β} (hregs : Ign.regs φ) (s : State) (w : Word) (host : Bool) : φ (State.dbgWrite s w host) = φ s := by
  unfold State.dbgWrite
  try dsimp only
  (repeat' split) <;> first | (simp only [State.fput_keeps hregs, hregs, ite_keeps φ, foldl_keeps φ, foldlPair_keeps φ, foldlJob_keeps φ, foldlJobPair_keeps φ, foldr_keeps φ, ite_st, ite_fst, ite_self, implies_true]; done) | rfl
theorem State.useTile_keeps {φ : State → β} (henr : Ign.enr φ) (s : State) (t : Nat) : φ (State.useTile s t) = φ s := by
  unfold State.useTile
  try dsimp only
  (repeat' split) <;> first | (simp only [State.useOpen_keeps henr, henr, ite_keeps φ, foldl_keeps φ, foldlPair_keeps φ, foldlJob_keeps φ, foldlJobPair_keeps φ, foldr_keeps φ, ite_st, ite_fst, ite_self, implies_true]; done) | rfl
theorem State.wantOn_keeps {φ : State → β} (hpwr : Ign.pwr φ) (s : State) (t : Nat) : φ (State.wantOn s t) = φ s := by
  unfold State.wantOn
  try dsimp only
  (repeat' split) <;> first | (simp only [hpwr, ite_keeps φ, foldl_keeps φ, foldlPair_keeps φ, foldlJob_keeps φ, foldlJobPair_keeps φ, foldr_keeps φ, ite_st, ite_fst, ite_self, implies_true]; done) | rfl
theorem State.fillQueue_keeps {φ : State → β} (hregs : Ign.regs φ) (hmem : Ign.mem φ) (hsynd : Ign.synd φ) (hsoft : Ign.soft φ) (hstops : Ign.stops φ) (hgate : Ign.gate φ) (hdisps : Ign.disps φ) (hflt : Ign.flt φ) (x0 : Nat) (x1 : State) (x2 : Nat) (x3 : Nat) (x4 : Disp) : φ (State.fillQueue x0 x1 x2 x3 x4) = φ x1 := by
  fun_induction State.fillQueue x0 x1 x2 x3 x4 <;> first
    | (simp_all +zetaDelta only [State.entryRead_keeps hregs hmem hsynd hsoft hstops hgate hflt, State.reportAt_keeps hdisps, State.setStop_keeps hstops, State.stopGroup_keeps hdisps, hregs, hmem, hsynd, hsoft, hstops, hgate, hdisps, hflt, ite_keeps φ, foldl_keeps φ, foldlPair_keeps φ, foldlJob_keeps φ, foldlJobPair_keeps φ, foldr_keeps φ, ite_st, ite_fst, ite_self, implies_true]; done)
    | (simp +zetaDelta only [State.entryRead_keeps hregs hmem hsynd hsoft hstops hgate hflt, State.reportAt_keeps hdisps, State.setStop_keeps hstops, State.stopGroup_keeps hdisps, hregs, hmem, hsynd, hsoft, hstops, hgate, hdisps, hflt, ite_keeps φ, foldl_keeps φ, foldlPair_keeps φ, foldlJob_keeps φ, foldlJobPair_keeps φ, foldr_keeps φ, ite_st, ite_fst, ite_self, implies_true]; done)
    | (simp +zetaDelta only [State.entryRead_keeps hregs hmem hsynd hsoft hstops hgate hflt, State.reportAt_keeps hdisps, State.setStop_keeps hstops, State.stopGroup_keeps hdisps, hregs, hmem, hsynd, hsoft, hstops, hgate, hdisps, hflt, ite_keeps φ, foldl_keeps φ, foldlPair_keeps φ, foldlJob_keeps φ, foldlJobPair_keeps φ, foldr_keeps φ, ite_st, ite_fst, ite_self, implies_true]; split <;> simp_all +zetaDelta only [State.entryRead_keeps hregs hmem hsynd hsoft hstops hgate hflt, State.reportAt_keeps hdisps, State.setStop_keeps hstops, State.stopGroup_keeps hdisps, hregs, hmem, hsynd, hsoft, hstops, hgate, hdisps, hflt, ite_keeps φ, foldl_keeps φ, foldlPair_keeps φ, foldlJob_keeps φ, foldlJobPair_keeps φ, foldr_keeps φ, ite_st, ite_fst, ite_self, implies_true]; done)
    | (simp_all +zetaDelta [State.entryRead_keeps hregs hmem hsynd hsoft hstops hgate hflt, State.reportAt_keeps hdisps, State.setStop_keeps hstops, State.stopGroup_keeps hdisps, hregs, hmem, hsynd, hsoft, hstops, hgate, hdisps, hflt, ite_keeps φ, foldl_keeps φ, foldlPair_keeps φ, foldlJob_keeps φ, foldlJobPair_keeps φ, foldr_keeps φ, ite_st, ite_fst, ite_self, implies_true]; done)
theorem State.tileStart_keeps {φ : State → β} (hregs : Ign.regs φ) (hmem : Ign.mem φ) (hsynd : Ign.synd φ) (hsoft : Ign.soft φ) (htiles : Ign.tiles φ) (hstops : Ign.stops φ) (hgate : Ign.gate φ) (hdisps : Ign.disps φ) (hflt : Ign.flt φ) (henr : Ign.enr φ) (hpwr : Ign.pwr φ) (s : State) (t : Nat) (k : Nat) (d : Disp) (prog : Nat) (tvec : Nat) : φ (State.tileStart s t k d prog tvec) = φ s := by
  unfold State.tileStart
  try dsimp only
  (repeat' split) <;> first | (simp only [State.fillQueue_keeps hregs hmem hsynd hsoft hstops hgate hdisps hflt, State.rput_keeps hregs, State.setEng_keeps htiles, State.setStop_keeps hstops, State.useTile_keeps henr, State.wantOn_keeps hpwr, hregs, hmem, hsynd, hsoft, htiles, hstops, hgate, hdisps, hflt, henr, hpwr, ite_keeps φ, foldl_keeps φ, foldlPair_keeps φ, foldlJob_keeps φ, foldlJobPair_keeps φ, foldr_keeps φ, ite_st, ite_fst, ite_self, implies_true]; done) | rfl
theorem State.reDue_keeps {φ : State → β} (hstops : Ign.stops φ) (s : State) (was : State) (t : Nat) (l : Nat) : φ (State.reDue s was t l) = φ s := by
  unfold State.reDue
  try dsimp only
  (repeat' split) <;> first | (simp only [State.setStop_keeps hstops, hstops, ite_keeps φ, foldl_keeps φ, foldlPair_keeps φ, foldlJob_keeps φ, foldlJobPair_keeps φ, foldr_keeps φ, ite_st, ite_fst, ite_self, implies_true]; done) | rfl
theorem State.pollDone_keeps {φ : State → β} (hcmd : Ign.cmd φ) (s : State) (r : PollRead) : φ (State.pollDone s r) = φ s := by
  unfold State.pollDone
  try dsimp only
  (repeat' split) <;> first | (simp only [hcmd, ite_keeps φ, foldl_keeps φ, foldlPair_keeps φ, foldlJob_keeps φ, foldlJobPair_keeps φ, foldr_keeps φ, ite_st, ite_fst, ite_self, implies_true]; done) | rfl
theorem State.stallAt_keeps {φ : State → β} (htiles : Ign.tiles φ) (s : State) (t : Nat) (w : Word) : φ (State.stallAt s t w) = φ s := by
  unfold State.stallAt
  try dsimp only
  (repeat' split) <;> first | (simp only [State.setEng_keeps htiles, htiles, ite_keeps φ, foldl_keeps φ, foldlPair_keeps φ, foldlJob_keeps φ, foldlJobPair_keeps φ, foldr_keeps φ, ite_st, ite_fst, ite_self, implies_true]; done) | rfl
theorem State.progRead_keeps {φ : State → β} (hclk : Ign.clk φ) (hregs : Ign.regs φ) (hhost : Ign.host φ) (htiles : Ign.tiles φ) (hstops : Ign.stops φ) (hdisps : Ign.disps φ) (hcmd : Ign.cmd φ) (hpcie : Ign.pcie φ) (hflt : Ign.flt φ) (hlck : Ign.lck φ) (henr : Ign.enr φ) (houts : Ign.outs φ) (s : State) (t : Nat) (w : Word) (addr : Nat) (n : Nat) (k : State → List Byte → State) (hkk : ∀ s0 s1, φ (k s0 s1) = φ s0) : φ (State.progRead s t w addr n k) = φ s := by
  unfold State.progRead
  try dsimp only
  (repeat' split) <;> first | (simp only [State.spmRead_keeps hclk hregs htiles hflt, State.spmViol_keeps hregs, State.stallAt_keeps htiles, State.trapHere_keeps hregs hhost htiles hstops hdisps hcmd hpcie hflt hlck henr houts, hclk, hregs, hhost, htiles, hstops, hdisps, hcmd, hpcie, hflt, hlck, henr, houts, ite_keeps φ, foldl_keeps φ, foldlPair_keeps φ, foldlJob_keeps φ, foldlJobPair_keeps φ, foldr_keeps φ, ite_st, ite_fst, ite_self, implies_true, hkk]; done) | rfl
theorem State.copyEnds_keeps {φ : State → β} (hregs : Ign.regs φ) (hhost : Ign.host φ) (hcmd : Ign.cmd φ) (hpcie : Ign.pcie φ) (hflt : Ign.flt φ) (houts : Ign.outs φ) (s : State) (q : Nat) (d : Descr) (r : Nat × Option (Nat × Nat)) : φ (State.copyEnds s q d r) = φ s := by
  unfold State.copyEnds
  try dsimp only
  (repeat' split) <;> first | (simp only [State.complete_keeps hregs hhost hcmd hpcie hflt houts, hregs, hhost, hcmd, hpcie, hflt, houts, ite_keeps φ, foldl_keeps φ, foldlPair_keeps φ, foldlJob_keeps φ, foldlJobPair_keeps φ, foldr_keeps φ, ite_st, ite_fst, ite_self, implies_true]; done) | rfl
theorem State.copyOpen_keeps {φ : State → β} (hregs : Ign.regs φ) (hmem : Ign.mem φ) (hsynd : Ign.synd φ) (hsoft : Ign.soft φ) (hhost : Ign.host φ) (hstops : Ign.stops φ) (hgate : Ign.gate φ) (hcmd : Ign.cmd φ) (hpcie : Ign.pcie φ) (hflt : Ign.flt φ) (hsec : Ign.sec φ) (houts : Ign.outs φ) (s : State) (q : Nat) (d : Descr) (bs : List Byte) : φ (State.copyOpen s q d bs) = φ s := by
  unfold State.copyOpen
  try dsimp only
  (repeat' split) <;> first | (simp only [State.authFail_keeps hregs hflt, State.complete_keeps hregs hhost hcmd hpcie hflt houts, State.copyEnds_keeps hregs hhost hcmd hpcie hflt houts, State.daWrite_keeps hregs hmem hsynd hsoft hstops hgate hflt, State.unseal_keeps hsec, hregs, hmem, hsynd, hsoft, hhost, hstops, hgate, hcmd, hpcie, hflt, hsec, houts, ite_keeps φ, foldl_keeps φ, foldlPair_keeps φ, foldlJob_keeps φ, foldlJobPair_keeps φ, foldr_keeps φ, ite_st, ite_fst, ite_self, implies_true]; done) | rfl
theorem State.streamCheck_keeps {φ : State → β} (hregs : Ign.regs φ) (htiles : Ign.tiles φ) (s : State) (t : Nat) : φ (State.streamCheck s t).1 = φ s := by
  unfold State.streamCheck
  try dsimp only
  refine foldlPair_keeps φ _ (_, _) _ (fun s a => ?_)
  try dsimp only
  (repeat' split) <;> (try dsimp only) <;> first
    | (simp only [State.haltChan_keeps hregs htiles, State.setEng_keeps htiles, hregs, htiles, ite_keeps φ, foldl_keeps φ, foldlPair_keeps φ, foldlJob_keeps φ, foldlJobPair_keeps φ, foldr_keeps φ, ite_st, ite_fst, ite_self, implies_true]; done)
    | rfl
    | exact of_fst (by assumption) (by simp only [State.haltChan_keeps hregs htiles, State.setEng_keeps htiles, hregs, htiles, ite_keeps φ, foldl_keeps φ, foldlPair_keeps φ, foldlJob_keeps φ, foldlJobPair_keeps φ, foldr_keeps φ, ite_st, ite_fst, ite_self, implies_true])
    | (simp only [State.haltChan_keeps hregs htiles, State.setEng_keeps htiles, hregs, htiles, ite_keeps φ, foldl_keeps φ, foldlPair_keeps φ, foldlJob_keeps φ, foldlJobPair_keeps φ, foldr_keeps φ, ite_st, ite_fst, ite_self, implies_true]; exact of_fst (by assumption) (by simp only [State.haltChan_keeps hregs htiles, State.setEng_keeps htiles, hregs, htiles, ite_keeps φ, foldl_keeps φ, foldlPair_keeps φ, foldlJob_keeps φ, foldlJobPair_keeps φ, foldr_keeps φ, ite_st, ite_fst, ite_self, implies_true]))
theorem State.tick_keeps {φ : State → β} (hclk : Ign.clk φ) (hfab : Ign.fab φ) (s : State) : φ (State.tick s) = φ s := by
  unfold State.tick
  try dsimp only
  (repeat' split) <;> first | (simp only [hclk, hfab, ign_clk_fab hclk hfab, ite_keeps φ, foldl_keeps φ, foldlPair_keeps φ, foldlJob_keeps φ, foldlJobPair_keeps φ, foldr_keeps φ, ite_st, ite_fst, ite_self, implies_true]; done) | rfl
theorem State.raiseNode_keeps {φ : State → β} (hregs : Ign.regs φ) (hthm : Ign.thm φ) (s : State) (w : Nat) (upd : Nat) (n : Nat) : φ (State.raiseNode s w upd n) = φ s := by
  unfold State.raiseNode
  try dsimp only
  (repeat' split) <;> first | (simp only [State.escalate_keeps hthm, State.fput_keeps hregs, hregs, hthm, ite_keeps φ, foldl_keeps φ, foldlPair_keeps φ, foldlJob_keeps φ, foldlJobPair_keeps φ, foldr_keeps φ, ite_st, ite_fst, ite_self, implies_true]; done) | rfl
theorem State.stageUpdate_keeps {φ : State → β} (hstops : Ign.stops φ) (s : State) (t : Nat) (da : Nat) (bs : List Byte) : φ (State.stageUpdate s t da bs) = φ s := by
  unfold State.stageUpdate
  try dsimp only
  (repeat' split) <;> first | (simp only [State.setStop_keeps hstops, hstops, ite_keeps φ, foldl_keeps φ, foldlPair_keeps φ, foldlJob_keeps φ, foldlJobPair_keeps φ, foldr_keeps φ, ite_st, ite_fst, ite_self, implies_true]; done) | rfl
theorem State.rowWrite_keeps {φ : State → β} (hclk : Ign.clk φ) (hregs : Ign.regs φ) (hmem : Ign.mem φ) (hsynd : Ign.synd φ) (hsoft : Ign.soft φ) (hspm : Ign.spm φ) (hspmErr : Ign.spmErr φ) (htiles : Ign.tiles φ) (hstops : Ign.stops φ) (hgate : Ign.gate φ) (hflt : Ign.flt φ) (houts : Ign.outs φ) (s : State) (t : Nat) (ch : Nat) (d : DmaDesc) (r : Nat) (bs : List Byte) (portA : List Nat) : φ (State.rowWrite s t ch d r bs portA).1 = φ s := by
  unfold State.rowWrite
  try dsimp only
  (repeat' split) <;> first | (simp only [State.daWrite_keeps hregs hmem hsynd hsoft hstops hgate hflt, State.segsWrite_keeps hclk hregs hspm hspmErr htiles hflt houts, State.setEng_keeps htiles, State.stageUpdate_keeps hstops, hclk, hregs, hmem, hsynd, hsoft, hspm, hspmErr, htiles, hstops, hgate, hflt, houts, ite_keeps φ, foldl_keeps φ, foldlPair_keeps φ, foldlJob_keeps φ, foldlJobPair_keeps φ, foldr_keeps φ, ite_st, ite_fst, ite_self, implies_true]; done) | rfl
theorem State.freeze_keeps {φ : State → β} (hregs : Ign.regs φ) (htiles : Ign.tiles φ) (s : State) (t : Nat) (tc : Nat) (f : Field) : φ (State.freeze s t tc f) = φ s := by
  unfold State.freeze
  try dsimp only
  (repeat' split) <;> first | (simp only [State.fadd_keeps hregs, State.setArr_keeps htiles, hregs, htiles, ite_keeps φ, foldl_keeps φ, foldlPair_keeps φ, foldlJob_keeps φ, foldlJobPair_keeps φ, foldr_keeps φ, ite_st, ite_fst, ite_self, implies_true]; done) | rfl
theorem State.feedRows_keeps {φ : State → β} (hclk : Ign.clk φ) (hregs : Ign.regs φ) (htiles : Ign.tiles φ) (hflt : Ign.flt φ) (henr : Ign.enr φ) (s : State) (t : Nat) (p : Pass) (m : Nat) (tc : Nat) : φ (State.feedRows s t p m tc) = φ s := by
  unfold State.feedRows
  try dsimp only
  (repeat' split) <;> first | (simp only [State.fadd_keeps hregs, State.freeze_keeps hregs htiles, State.passError_keeps hregs htiles henr, State.rput_keeps hregs, State.setArr_keeps htiles, State.setEng_keeps htiles, State.thaw_keeps htiles, State.westRows_keeps hclk hregs htiles hflt, hclk, hregs, htiles, hflt, henr, ite_keeps φ, foldl_keeps φ, foldlPair_keeps φ, foldlJob_keeps φ, foldlJobPair_keeps φ, foldr_keeps φ, ite_st, ite_fst, ite_self, implies_true]; done) | rfl
theorem State.markStarted_keeps {φ : State → β} (hcmd : Ign.cmd φ) (s : State) (q : Nat) (d : Descr) : φ (State.markStarted s q d) = φ s := by
  unfold State.markStarted
  try dsimp only
  (repeat' split) <;> first | (simp only [State.headSync_keeps hcmd, State.setDescr_keeps hcmd, State.setQp_keeps hcmd, hcmd, ite_keeps φ, foldl_keeps φ, foldlPair_keeps φ, foldlJob_keeps φ, foldlJobPair_keeps φ, foldr_keeps φ, ite_st, ite_fst, ite_self, implies_true]; done) | rfl
theorem State.withDescr_keeps {φ : State → β} (hregs : Ign.regs φ) (hhost : Ign.host φ) (hcmd : Ign.cmd φ) (hpcie : Ign.pcie φ) (hflt : Ign.flt φ) (houts : Ign.outs φ) (s : State) (q : Nat) (idx : Nat) (types : List Nat) (k : State → Descr → State) (hkk : ∀ s0 s1, φ (k s0 s1) = φ s0) : φ (State.withDescr s q idx types k) = φ s := by
  unfold State.withDescr
  try dsimp only
  (repeat' split) <;> first | (simp only [State.complete_keeps hregs hhost hcmd hpcie hflt houts, State.markStarted_keeps hcmd, hregs, hhost, hcmd, hpcie, hflt, houts, ite_keeps φ, foldl_keeps φ, foldlPair_keeps φ, foldlJob_keeps φ, foldlJobPair_keeps φ, foldr_keeps φ, ite_st, ite_fst, ite_self, implies_true, hkk]; done) | rfl
theorem State.ideWait_keeps {φ : State → β} (hregs : Ign.regs φ) (s : State) : φ (State.ideWait s) = φ s := by
  unfold State.ideWait
  try dsimp only
  (repeat' split) <;> first | (simp only [State.event_keeps hregs, hregs, ite_keeps φ, foldl_keeps φ, foldlPair_keeps φ, foldlJob_keeps φ, foldlJobPair_keeps φ, foldr_keeps φ, ite_st, ite_fst, ite_self, implies_true]; done) | rfl
theorem State.withAttest_keeps {φ : State → β} (hregs : Ign.regs φ) (hhost : Ign.host φ) (hcmd : Ign.cmd φ) (hpcie : Ign.pcie φ) (hflt : Ign.flt φ) (houts : Ign.outs φ) (s : State) (q : Nat) (idx : Nat) (kind : Nat) (out : State → Descr → Option (List Byte)) : φ (State.withAttest s q idx kind out) = φ s := by
  unfold State.withAttest
  try dsimp only
  (repeat' split) <;> first | (simp only [State.complete_keeps hregs hhost hcmd hpcie hflt houts, State.descrWrite_keeps hregs hhost hpcie, State.ideWait_keeps hregs, State.markStarted_keeps hcmd, State.withDescr_keeps hregs hhost hcmd hpcie hflt houts, hregs, hhost, hcmd, hpcie, hflt, houts, ite_keeps φ, foldl_keeps φ, foldlPair_keeps φ, foldlJob_keeps φ, foldlJobPair_keeps φ, foldr_keeps φ, ite_st, ite_fst, ite_self, implies_true]; done) | rfl
theorem State.sendHello_keeps {φ : State → β} (hclk : Ign.clk φ) (hregs : Ign.regs φ) (hmem : Ign.mem φ) (hsynd : Ign.synd φ) (hsoft : Ign.soft φ) (hhost : Ign.host φ) (hstops : Ign.stops φ) (hgate : Ign.gate φ) (hcmd : Ign.cmd φ) (hpcie : Ign.pcie φ) (hflt : Ign.flt φ) (hfab : Ign.fab φ) (houts : Ign.outs φ) (s : State) (i : Nat) : φ (State.sendHello s i) = φ s := by
  unfold State.sendHello
  try dsimp only
  (repeat' split) <;> first | (simp only [State.free_keeps hclk, State.post_keeps hclk hregs hmem hsynd hsoft hhost hstops hgate hcmd hpcie hflt hfab houts, State.setPeer_keeps hfab, hclk, hregs, hmem, hsynd, hsoft, hhost, hstops, hgate, hcmd, hpcie, hflt, hfab, houts, ite_keeps φ, foldl_keeps φ, foldlPair_keeps φ, foldlJob_keeps φ, foldlJobPair_keeps φ, foldr_keeps φ, ite_st, ite_fst, ite_self, implies_true]; done) | rfl
theorem State.chunkCame_keeps {φ : State → β} (hfw : Ign.fw φ) (s : State) : φ (State.chunkCame s) = φ s := by
  unfold State.chunkCame
  try dsimp only
  (repeat' split) <;> first | (simp only [hfw, ite_keeps φ, foldl_keeps φ, foldlPair_keeps φ, foldlJob_keeps φ, foldlJobPair_keeps φ, foldr_keeps φ, ite_st, ite_fst, ite_self, implies_true]; done) | rfl
theorem State.sendKey_keeps {φ : State → β} (hclk : Ign.clk φ) (hregs : Ign.regs φ) (hmem : Ign.mem φ) (hsynd : Ign.synd φ) (hsoft : Ign.soft φ) (hhost : Ign.host φ) (hstops : Ign.stops φ) (hgate : Ign.gate φ) (hcmd : Ign.cmd φ) (hpcie : Ign.pcie φ) (hflt : Ign.flt φ) (hfab : Ign.fab φ) (houts : Ign.outs φ) (s : State) (i : Nat) (p : Nat) (k : Nat) : φ (State.sendKey s i p k) = φ s := by
  unfold State.sendKey
  try dsimp only
  (repeat' split) <;> first | (simp only [State.free_keeps hclk, State.post_keeps hclk hregs hmem hsynd hsoft hhost hstops hgate hcmd hpcie hflt hfab houts, hclk, hregs, hmem, hsynd, hsoft, hhost, hstops, hgate, hcmd, hpcie, hflt, hfab, houts, ite_keeps φ, foldl_keeps φ, foldlPair_keeps φ, foldlJob_keeps φ, foldlJobPair_keeps φ, foldr_keeps φ, ite_st, ite_fst, ite_self, implies_true]; done) | rfl
theorem State.sendKeys_keeps {φ : State → β} (hclk : Ign.clk φ) (hregs : Ign.regs φ) (hmem : Ign.mem φ) (hsynd : Ign.synd φ) (hsoft : Ign.soft φ) (hhost : Ign.host φ) (hstops : Ign.stops φ) (hgate : Ign.gate φ) (hcmd : Ign.cmd φ) (hpcie : Ign.pcie φ) (hflt : Ign.flt φ) (hfab : Ign.fab φ) (houts : Ign.outs φ) (s : State) (i : Nat) : φ (State.sendKeys s i) = φ s := by
  unfold State.sendKeys
  try dsimp only
  (repeat' split) <;> first | (simp only [State.sendHello_keeps hclk hregs hmem hsynd hsoft hhost hstops hgate hcmd hpcie hflt hfab houts, State.sendKey_keeps hclk hregs hmem hsynd hsoft hhost hstops hgate hcmd hpcie hflt hfab houts, hclk, hregs, hmem, hsynd, hsoft, hhost, hstops, hgate, hcmd, hpcie, hflt, hfab, houts, ite_keeps φ, foldl_keeps φ, foldlPair_keeps φ, foldlJob_keeps φ, foldlJobPair_keeps φ, foldr_keeps φ, ite_st, ite_fst, ite_self, implies_true]; done) | rfl
theorem State.trainFrom_keeps {φ : State → β} (hregs : Ign.regs φ) (hfab : Ign.fab φ) (s : State) (p : Nat) (v : Nat) : φ (State.trainFrom s p v) = φ s := by
  unfold State.trainFrom
  try dsimp only
  (repeat' split) <;> first | (simp only [State.setPort_keeps hfab, State.setPortState_keeps hregs, hregs, hfab, ite_keeps φ, foldl_keeps φ, foldlPair_keeps φ, foldlJob_keeps φ, foldlJobPair_keeps φ, foldr_keeps φ, ite_st, ite_fst, ite_self, implies_true]; done) | rfl
theorem State.rstRecord_keeps {φ : State → β} (hregs : Ign.regs φ) (hedy : Ign.edy φ) (s : State) (fallback : Bool) : φ (State.rstRecord s fallback) = φ s := by
  unfold State.rstRecord
  try dsimp only
  (repeat' split) <;> first | (simp only [State.logWrite_keeps hregs hedy, hregs, hedy, ite_keeps φ, foldl_keeps φ, foldlPair_keeps φ, foldlJob_keeps φ, foldlJobPair_keeps φ, foldr_keeps φ, ite_st, ite_fst, ite_self, implies_true]; done) | rfl
theorem State.rstFinish_keeps {φ : State → β} (hregs : Ign.regs φ) (hhost : Ign.host φ) (htiles : Ign.tiles φ) (hstops : Ign.stops φ) (hgate : Ign.gate φ) (hdisps : Ign.disps φ) (hcmd : Ign.cmd φ) (hpcie : Ign.pcie φ) (hflt : Ign.flt φ) (hedy : Ign.edy φ) (hlck : Ign.lck φ) (henr : Ign.enr φ) (hfab : Ign.fab φ) (hrst : Ign.rst φ) (houts : Ign.outs φ) (s : State) : φ (State.rstFinish s) = φ s := by
  unfold State.rstFinish
  try dsimp only
  (repeat' split) <;> first | (simp only [State.event_keeps hregs, State.fadd_keeps hregs, State.fput_keeps hregs, State.rput_keeps hregs, State.rstAccept_keeps hregs hhost htiles hstops hgate hdisps hcmd hpcie hflt hlck henr hfab hrst houts, State.rstRecord_keeps hregs hedy, State.setEng_keeps htiles, State.setSrc_keeps hregs hflt, State.trainFrom_keeps hregs hfab, hregs, hhost, htiles, hstops, hgate, hdisps, hcmd, hpcie, hflt, hedy, hlck, henr, hfab, hrst, houts, ite_keeps φ, foldl_keeps φ, foldlPair_keeps φ, foldlJob_keeps φ, foldlJobPair_keeps φ, foldr_keeps φ, ite_st, ite_fst, ite_self, implies_true]; done) | rfl
theorem State.sqcWrite_keeps {φ : State → β} (hregs : Ign.regs φ) (s : State) (r : Reg) (i : Nat) (v : Word) : φ (State.sqcWrite s r i v) = φ s := by
  unfold State.sqcWrite
  try dsimp only
  (repeat' split) <;> first | (simp only [State.event_keeps hregs, State.fput_keeps hregs, State.rput_keeps hregs, hregs, ite_keeps φ, foldl_keeps φ, foldlPair_keeps φ, foldlJob_keeps φ, foldlJobPair_keeps φ, foldr_keeps φ, ite_st, ite_fst, ite_self, implies_true]; done) | rfl
theorem State.newKey_keeps {φ : State → β} (hclk : Ign.clk φ) (hregs : Ign.regs φ) (hmem : Ign.mem φ) (hsynd : Ign.synd φ) (hsoft : Ign.soft φ) (hhost : Ign.host φ) (hstops : Ign.stops φ) (hgate : Ign.gate φ) (hcmd : Ign.cmd φ) (hpcie : Ign.pcie φ) (hflt : Ign.flt φ) (hfab : Ign.fab φ) (houts : Ign.outs φ) (s : State) (p : Nat) (k : Nat) : φ (State.newKey s p k) = φ s := by
  unfold State.newKey
  try dsimp only
  (repeat' split) <;> first | (simp only [State.free_keeps hclk, State.keyAnswer_keeps hclk hregs hfab houts, State.sendHello_keeps hclk hregs hmem hsynd hsoft hhost hstops hgate hcmd hpcie hflt hfab houts, State.sendKey_keeps hclk hregs hmem hsynd hsoft hhost hstops hgate hcmd hpcie hflt hfab houts, State.setPort_keeps hfab, hclk, hregs, hmem, hsynd, hsoft, hhost, hstops, hgate, hcmd, hpcie, hflt, hfab, houts, ite_keeps φ, foldl_keeps φ, foldlPair_keeps φ, foldlJob_keeps φ, foldlJobPair_keeps φ, foldr_keeps φ, ite_st, ite_fst, ite_self, implies_true]; done) | rfl
theorem State.progWrite_keeps {φ : State → β} (hclk : Ign.clk φ) (hregs : Ign.regs φ) (hspm : Ign.spm φ) (hspmErr : Ign.spmErr φ) (hhost : Ign.host φ) (htiles : Ign.tiles φ) (hstops : Ign.stops φ) (hdisps : Ign.disps φ) (hcmd : Ign.cmd φ) (hpcie : Ign.pcie φ) (hflt : Ign.flt φ) (hlck : Ign.lck φ) (henr : Ign.enr φ) (houts : Ign.outs φ) (s : State) (t : Nat) (w : Word) (addr : Nat) (bs : List Byte) (k : State → State) (hkk : ∀ s0, φ (k s0) = φ s0) : φ (State.progWrite s t w addr bs k) = φ s := by
  unfold State.progWrite
  try dsimp only
  (repeat' split) <;> first | (simp only [State.spmViol_keeps hregs, State.spmWrite_keeps hclk hregs hspm hspmErr htiles hflt, State.stallAt_keeps htiles, State.trapHere_keeps hregs hhost htiles hstops hdisps hcmd hpcie hflt hlck henr houts, hclk, hregs, hspm, hspmErr, hhost, htiles, hstops, hdisps, hcmd, hpcie, hflt, hlck, henr, houts, ite_keeps φ, foldl_keeps φ, foldlPair_keeps φ, foldlJob_keeps φ, foldlJobPair_keeps φ, foldr_keeps φ, ite_st, ite_fst, ite_self, implies_true, hkk]; done) | rfl
theorem State.areaDenied_keeps {φ : State → β} (hregs : Ign.regs φ) (s : State) (i : Nat) : φ (State.areaDenied s i) = φ s := by
  unfold State.areaDenied
  try dsimp only
  (repeat' split) <;> first | (simp only [State.event_keeps hregs, hregs, ite_keeps φ, foldl_keeps φ, foldlPair_keeps φ, foldlJob_keeps φ, foldlJobPair_keeps φ, foldr_keeps φ, ite_st, ite_fst, ite_self, implies_true]; done) | rfl
theorem State.capShow_keeps {φ : State → β} (hclk : Ign.clk φ) (hregs : Ign.regs φ) (s : State) : φ (State.capShow s) = φ s := by
  unfold State.capShow
  try dsimp only
  (repeat' split) <;> first | (simp only [State.fput_keeps hregs, State.free_keeps hclk, hclk, hregs, ite_keeps φ, foldl_keeps φ, foldlPair_keeps φ, foldlJob_keeps φ, foldlJobPair_keeps φ, foldr_keeps φ, ite_st, ite_fst, ite_self, implies_true]; done) | rfl
theorem State.tcapShow_keeps {φ : State → β} (hclk : Ign.clk φ) (hregs : Ign.regs φ) (s : State) : φ (State.tcapShow s) = φ s := by
  unfold State.tcapShow
  try dsimp only
  (repeat' split) <;> first | (simp only [State.capShow_keeps hclk hregs, State.fput_keeps hregs, hclk, hregs, ite_keeps φ, foldl_keeps φ, foldlPair_keeps φ, foldlJob_keeps φ, foldlJobPair_keeps φ, foldr_keeps φ, ite_st, ite_fst, ite_self, implies_true]; done) | rfl
theorem State.cmdFrozen_keeps {φ : State → β} (hregs : Ign.regs φ) (s : State) (f : Nat) (r : Reg) (i : Nat) : φ (State.cmdFrozen s f r i) = φ s := by
  unfold State.cmdFrozen
  try dsimp only
  (repeat' split) <;> first | (simp only [State.event_keeps hregs, State.rput_keeps hregs, hregs, ite_keeps φ, foldl_keeps φ, foldlPair_keeps φ, foldlJob_keeps φ, foldlJobPair_keeps φ, foldr_keeps φ, ite_st, ite_fst, ite_self, implies_true]; done) | rfl
theorem State.stgShow_keeps {φ : State → β} (hregs : Ign.regs φ) (s : State) (k : Nat) : φ (State.stgShow s k) = φ s := by
  unfold State.stgShow
  try dsimp only
  (repeat' split) <;> first | (simp only [State.rput_keeps hregs, hregs, ite_keeps φ, foldl_keeps φ, foldlPair_keeps φ, foldlJob_keeps φ, foldlJobPair_keeps φ, foldr_keeps φ, ite_st, ite_fst, ite_self, implies_true]; done) | rfl
theorem State.frozenFlag_keeps {φ : State → β} (hregs : Ign.regs φ) (s : State) (f : Nat) (r : Reg) (i : Nat) : φ (State.frozenFlag s f r i) = φ s := by
  unfold State.frozenFlag
  try dsimp only
  (repeat' split) <;> first | (simp only [State.event_keeps hregs, State.rput_keeps hregs, hregs, ite_keeps φ, foldl_keeps φ, foldlPair_keeps φ, foldlJob_keeps φ, foldlJobPair_keeps φ, foldr_keeps φ, ite_st, ite_fst, ite_self, implies_true]; done) | rfl
theorem State.fieldWrite_keeps {φ : State → β} (hregs : Ign.regs φ) (hparBad : Ign.parBad φ) (s : State) (f : Nat) (r : Reg) (i : Nat) (w : Word) : φ (State.fieldWrite s f r i w) = φ s := by
  unfold State.fieldWrite
  try dsimp only
  (repeat' split) <;> first | (simp only [State.frozenFlag_keeps hregs, State.rput_keeps hregs, State.stgShow_keeps hregs, hregs, hparBad, ite_keeps φ, foldl_keeps φ, foldlPair_keeps φ, foldlJob_keeps φ, foldlJobPair_keeps φ, foldr_keeps φ, ite_st, ite_fst, ite_self, implies_true]; done) | rfl
theorem State.mbxStart_keeps {φ : State → β} (hclk : Ign.clk φ) (hregs : Ign.regs φ) (hmem : Ign.mem φ) (hsynd : Ign.synd φ) (hsoft : Ign.soft φ) (hspm : Ign.spm φ) (hspmErr : Ign.spmErr φ) (hhost : Ign.host φ) (htiles : Ign.tiles φ) (hstops : Ign.stops φ) (hgate : Ign.gate φ) (hpcie : Ign.pcie φ) (hflt : Ign.flt φ) (hsec : Ign.sec φ) (houts : Ign.outs φ) (s : State) (m : Nat) : φ (State.mbxStart s m) = φ s := by
  unfold State.mbxStart
  try dsimp only
  (repeat' split) <;> first | (simp only [State.event_keeps hregs, State.mbxAct_keeps hclk hregs hmem hsynd hsoft hspm hspmErr hhost htiles hstops hgate hpcie hflt hsec houts, State.mbxEnd_keeps hregs hhost hpcie houts, hclk, hregs, hmem, hsynd, hsoft, hspm, hspmErr, hhost, htiles, hstops, hgate, hpcie, hflt, hsec, houts, ite_keeps φ, foldl_keeps φ, foldlPair_keeps φ, foldlJob_keeps φ, foldlJobPair_keeps φ, foldr_keeps φ, ite_st, ite_fst, ite_self, implies_true]; done) | rfl
theorem State.mbxGo_keeps {φ : State → β} (hclk : Ign.clk φ) (hregs : Ign.regs φ) (hmem : Ign.mem φ) (hsynd : Ign.synd φ) (hsoft : Ign.soft φ) (hspm : Ign.spm φ) (hspmErr : Ign.spmErr φ) (hhost : Ign.host φ) (htiles : Ign.tiles φ) (hstops : Ign.stops φ) (hgate : Ign.gate φ) (hpcie : Ign.pcie φ) (hflt : Ign.flt φ) (hsec : Ign.sec φ) (houts : Ign.outs φ) (s : State) (m : Nat) (code : Nat) : φ (State.mbxGo s m code) = φ s := by
  unfold State.mbxGo
  try dsimp only
  (repeat' split) <;> first | (simp only [State.event_keeps hregs, State.fput_keeps hregs, State.mbxStart_keeps hclk hregs hmem hsynd hsoft hspm hspmErr hhost htiles hstops hgate hpcie hflt hsec houts, hclk, hregs, hmem, hsynd, hsoft, hspm, hspmErr, hhost, htiles, hstops, hgate, hpcie, hflt, hsec, houts, ite_keeps φ, foldl_keeps φ, foldlPair_keeps φ, foldlJob_keeps φ, foldlJobPair_keeps φ, foldr_keeps φ, ite_st, ite_fst, ite_self, implies_true]; done) | rfl
theorem State.cfgFrozen_keeps {φ : State → β} (hregs : Ign.regs φ) (s : State) (f : Nat) (q : Nat) (w : Word) : φ (State.cfgFrozen s f q w) = φ s := by
  unfold State.cfgFrozen
  try dsimp only
  (repeat' split) <;> first | (simp only [State.cmdFrozen_keeps hregs, hregs, ite_keeps φ, foldl_keeps φ, foldlPair_keeps φ, foldlJob_keeps φ, foldlJobPair_keeps φ, foldr_keeps φ, ite_st, ite_fst, ite_self, implies_true]; done) | rfl
theorem State.qpDrainGo_keeps {φ : State → β} (hregs : Ign.regs φ) (hhost : Ign.host φ) (hcmd : Ign.cmd φ) (hpcie : Ign.pcie φ) (hflt : Ign.flt φ) (houts : Ign.outs φ) (s : State) (q : Nat) : φ (State.qpDrainGo s q) = φ s := by
  unfold State.qpDrainGo
  try dsimp only
  (repeat' split) <;> first | (simp only [State.abortGo_keeps hregs hhost hcmd hpcie hflt houts, State.drainCheck_keeps hregs, hregs, hhost, hcmd, hpcie, hflt, houts, ite_keeps φ, foldl_keeps φ, foldlPair_keeps φ, foldlJob_keeps φ, foldlJobPair_keeps φ, foldr_keeps φ, ite_st, ite_fst, ite_self, implies_true]; done) | rfl
theorem State.qpDrain_keeps {φ : State → β} (hregs : Ign.regs φ) (hhost : Ign.host φ) (hcmd : Ign.cmd φ) (hpcie : Ign.pcie φ) (hflt : Ign.flt φ) (houts : Ign.outs φ) (s : State) (q : Nat) : φ (State.qpDrain s q) = φ s := by
  unfold State.qpDrain
  try dsimp only
  (repeat' split) <;> first | (simp only [State.fput_keeps hregs, State.headSync_keeps hcmd, State.qpDrainGo_keeps hregs hhost hcmd hpcie hflt houts, hregs, hhost, hcmd, hpcie, hflt, houts, ite_keeps φ, foldl_keeps φ, foldlPair_keeps φ, foldlJob_keeps φ, foldlJobPair_keeps φ, foldr_keeps φ, ite_st, ite_fst, ite_self, implies_true]; done) | rfl
theorem State.mbxResume_keeps {φ : State → β} (hclk : Ign.clk φ) (hregs : Ign.regs φ) (hmem : Ign.mem φ) (hsynd : Ign.synd φ) (hsoft : Ign.soft φ) (hspm : Ign.spm φ) (hspmErr : Ign.spmErr φ) (hhost : Ign.host φ) (htiles : Ign.tiles φ) (hstops : Ign.stops φ) (hgate : Ign.gate φ) (hpcie : Ign.pcie φ) (hflt : Ign.flt φ) (hsec : Ign.sec φ) (houts : Ign.outs φ) (s : State) : φ (State.mbxResume s) = φ s := by
  unfold State.mbxResume
  try dsimp only
  (repeat' split) <;> first | (simp only [State.mbxStart_keeps hclk hregs hmem hsynd hsoft hspm hspmErr hhost htiles hstops hgate hpcie hflt hsec houts, hclk, hregs, hmem, hsynd, hsoft, hspm, hspmErr, hhost, htiles, hstops, hgate, hpcie, hflt, hsec, houts, ite_keeps φ, foldl_keeps φ, foldlPair_keeps φ, foldlJob_keeps φ, foldlJobPair_keeps φ, foldr_keeps φ, ite_st, ite_fst, ite_self, implies_true]; done) | rfl
theorem State.hostFlush_keeps {φ : State → β} (hhost : Ign.host φ) (hpcie : Ign.pcie φ) (houts : Ign.outs φ) (s : State) : φ (State.hostFlush s) = φ s := by
  unfold State.hostFlush
  split
  · refine (foldl_keeps φ _ _ _ (fun a o => ?_)).trans (hpcie _ _)
    split <;> simp only [State.hostPut_keeps hhost, State.msiSend_keeps hpcie houts, hhost, hpcie, houts, ite_keeps φ, foldl_keeps φ, foldlPair_keeps φ, foldlJob_keeps φ, foldlJobPair_keeps φ, foldr_keeps φ, ite_st, ite_fst, ite_self, implies_true]
  · rfl
theorem State.hostOpened_keeps {φ : State → β} (hclk : Ign.clk φ) (hregs : Ign.regs φ) (hmem : Ign.mem φ) (hsynd : Ign.synd φ) (hsoft : Ign.soft φ) (hspm : Ign.spm φ) (hspmErr : Ign.spmErr φ) (hhost : Ign.host φ) (htiles : Ign.tiles φ) (hstops : Ign.stops φ) (hgate : Ign.gate φ) (hpcie : Ign.pcie φ) (hflt : Ign.flt φ) (hsec : Ign.sec φ) (houts : Ign.outs φ) (s : State) : φ (State.hostOpened s) = φ s := by
  unfold State.hostOpened
  try dsimp only
  (repeat' split) <;> first | (simp only [State.hostFlush_keeps hhost hpcie houts, State.mbxResume_keeps hclk hregs hmem hsynd hsoft hspm hspmErr hhost htiles hstops hgate hpcie hflt hsec houts, hclk, hregs, hmem, hsynd, hsoft, hspm, hspmErr, hhost, htiles, hstops, hgate, hpcie, hflt, hsec, houts, ite_keeps φ, foldl_keeps φ, foldlPair_keeps φ, foldlJob_keeps φ, foldlJobPair_keeps φ, foldr_keeps φ, ite_st, ite_fst, ite_self, implies_true]; done) | rfl
theorem State.ready8_keeps {φ : State → β} (hregs : Ign.regs φ) (hedy : Ign.edy φ) (hboot : Ign.boot φ) (s : State) : φ (State.ready8 s) = φ s := by
  unfold State.ready8
  try dsimp only
  (repeat' split) <;> first | (simp only [State.stageEnd_keeps hregs hedy hboot, hregs, hedy, hboot, ite_keeps φ, foldl_keeps φ, foldlPair_keeps φ, foldlJob_keeps φ, foldlJobPair_keeps φ, foldr_keeps φ, ite_st, ite_fst, ite_self, implies_true]; done) | rfl
theorem State.settle_keeps {φ : State → β} (hgate : Ign.gate φ) (s : State) (c : Instr) (k : State → State) (hkk : ∀ s0, φ (k s0) = φ s0) : φ (State.settle s c k) = φ s := by
  unfold State.settle
  try dsimp only
  (repeat' split) <;> first | (simp only [State.settleFor_keeps hgate, hgate, ite_keeps φ, foldl_keeps φ, foldlPair_keeps φ, foldlJob_keeps φ, foldlJobPair_keeps φ, foldr_keeps φ, ite_st, ite_fst, ite_self, implies_true, hkk]; done) | rfl
theorem State.lckFw_keeps {φ : State → β} (hregs : Ign.regs φ) (hflt : Ign.flt φ) (s : State) : φ (State.lckFw s) = φ s := by
  unfold State.lckFw
  try dsimp only
  (repeat' split) <;> first | (simp only [State.diverge_keeps hregs hflt, hregs, hflt, ite_keeps φ, foldl_keeps φ, foldlPair_keeps φ, foldlJob_keeps φ, foldlJobPair_keeps φ, foldr_keeps φ, ite_st, ite_fst, ite_self, implies_true]; done) | rfl
theorem State.lckSend_keeps {φ : State → β} (hclk : Ign.clk φ) (hregs : Ign.regs φ) (hmem : Ign.mem φ) (hsynd : Ign.synd φ) (hsoft : Ign.soft φ) (hhost : Ign.host φ) (hstops : Ign.stops φ) (hgate : Ign.gate φ) (hcmd : Ign.cmd φ) (hpcie : Ign.pcie φ) (hflt : Ign.flt φ) (hfab : Ign.fab φ) (houts : Ign.outs φ) (s : State) (num : Nat) (b : List Byte) : φ (State.lckSend s num b) = φ s := by
  unfold State.lckSend
  try dsimp only
  (repeat' split) <;> first | (simp only [State.post_keeps hclk hregs hmem hsynd hsoft hhost hstops hgate hcmd hpcie hflt hfab houts, hclk, hregs, hmem, hsynd, hsoft, hhost, hstops, hgate, hcmd, hpcie, hflt, hfab, houts, ite_keeps φ, foldl_keeps φ, foldlPair_keeps φ, foldlJob_keeps φ, foldlJobPair_keeps φ, foldr_keeps φ, ite_st, ite_fst, ite_self, implies_true]; done) | rfl
theorem State.portsMoved_keeps {φ : State → β} (hregs : Ign.regs φ) (hedy : Ign.edy φ) (hboot : Ign.boot φ) (s : State) (old : State) : φ (State.portsMoved s old) = φ s := by
  unfold State.portsMoved
  try dsimp only
  (repeat' split) <;> first | (simp only [State.ready8_keeps hregs hedy hboot, hregs, hedy, hboot, ite_keeps φ, foldl_keeps φ, foldlPair_keeps φ, foldlJob_keeps φ, foldlJobPair_keeps φ, foldr_keeps φ, ite_st, ite_fst, ite_self, implies_true]; done) | rfl
theorem State.winMask_keeps {φ : State → β} (hregs : Ign.regs φ) (s : State) (n : Nat) : φ (State.winMask s n) = φ s := by
  unfold State.winMask
  try dsimp only
  (repeat' split) <;> first | (simp only [State.fput_keeps hregs, State.rput_keeps hregs, hregs, ite_keeps φ, foldl_keeps φ, foldlPair_keeps φ, foldlJob_keeps φ, foldlJobPair_keeps φ, foldr_keeps φ, ite_st, ite_fst, ite_self, implies_true]; done) | rfl
theorem State.trapEnd_keeps {φ : State → β} (hregs : Ign.regs φ) (hflt : Ign.flt φ) (s : State) : φ (State.trapEnd s) = φ s := by
  unfold State.trapEnd
  try dsimp only
  (repeat' split) <;> first | (simp only [State.fput_keeps hregs, State.trapNext_keeps hregs hflt, hregs, hflt, ite_keeps φ, foldl_keeps φ, foldlPair_keeps φ, foldlJob_keeps φ, foldlJobPair_keeps φ, foldr_keeps φ, ite_st, ite_fst, ite_self, implies_true]; done) | rfl
theorem State.logRelease_keeps {φ : State → β} (hregs : Ign.regs φ) (hflt : Ign.flt φ) (hedy : Ign.edy φ) (hbrd : Ign.brd φ) (s : State) (key : Nat) : φ (State.logRelease s key) = φ s := by
  unfold State.logRelease
  try dsimp only
  (repeat' split) <;> first | (simp only [State.errRefresh_keeps hflt hbrd, State.event_keeps hregs, State.fput_keeps hregs, State.logWrite_keeps hregs hedy, hregs, hflt, hedy, hbrd, ign_flt_edy hflt hedy, ite_keeps φ, foldl_keeps φ, foldlPair_keeps φ, foldlJob_keeps φ, foldlJobPair_keeps φ, foldr_keeps φ, ite_st, ite_fst, ite_self, implies_true]; done) | rfl
theorem State.viaPort_keeps {φ : State → β} (houts : Ign.outs φ) (s : State) (f : Nat) (src : By) (k : State) (hkk : φ k = φ s) : φ (State.viaPort s f src k) = φ s := by
  unfold State.viaPort
  (repeat' split) <;> first | exact hkk | rfl | simp only [State.unsupported_keeps houts, houts, ite_keeps φ, foldl_keeps φ, foldlPair_keeps φ, foldlJob_keeps φ, foldlJobPair_keeps φ, foldr_keeps φ, ite_st, ite_fst, ite_self, implies_true, hkk]
theorem State.ownerWrite_keeps {φ : State → β} (hregs : Ign.regs φ) (htiles : Ign.tiles φ) (hstops : Ign.stops φ) (s : State) (t : Nat) (b : Nat) (v : Nat) (host : Bool) : φ (State.ownerWrite s t b v host) = φ s := by
  unfold State.ownerWrite
  try dsimp only
  (repeat' split) <;> first | (simp only [State.event_keeps hregs, State.hostate_keeps hregs, State.setEng_keeps htiles, State.setOwner_keeps hregs, State.setStop_keeps hstops, hregs, htiles, hstops, ite_keeps φ, foldl_keeps φ, foldlPair_keeps φ, foldlJob_keeps φ, foldlJobPair_keeps φ, foldr_keeps φ, ite_st, ite_fst, ite_self, implies_true]; done) | rfl
theorem State.clearCounters_keeps {φ : State → β} (hregs : Ign.regs φ) (htiles : Ign.tiles φ) (s : State) (t : Nat) : φ (State.clearCounters s t) = φ s := by
  unfold State.clearCounters
  try dsimp only
  (repeat' split) <;> first | (simp only [State.rput_keeps hregs, State.setEng_keeps htiles, hregs, htiles, ite_keeps φ, foldl_keeps φ, foldlPair_keeps φ, foldlJob_keeps φ, foldlJobPair_keeps φ, foldr_keeps φ, ite_st, ite_fst, ite_self, implies_true]; done) | rfl
theorem State.remapSave_keeps {φ : State → β} (hboot : Ign.boot φ) (s : State) (t : Nat) (n : Nat) : φ (State.remapSave s t n) = φ s := by
  unfold State.remapSave
  try dsimp only
  (repeat' split) <;> first | (simp only [hboot, ite_keeps φ, foldl_keeps φ, foldlPair_keeps φ, foldlJob_keeps φ, foldlJobPair_keeps φ, foldr_keeps φ, ite_st, ite_fst, ite_self, implies_true]; done) | rfl
theorem State.notice_keeps {φ : State → β} (hcores : Ign.cores φ) (s : State) (t : Nat) (c : Nat) (w : PauseWhy) : φ (State.notice s t c w) = φ s := by
  unfold State.notice
  try dsimp only
  (repeat' split) <;> first | (simp only [State.setCore_keeps hcores, hcores, ite_keeps φ, foldl_keeps φ, foldlPair_keeps φ, foldlJob_keeps φ, foldlJobPair_keeps φ, foldr_keeps φ, ite_st, ite_fst, ite_self, implies_true]; done) | rfl
theorem State.launch_keeps {φ : State → β} (hregs : Ign.regs φ) (hcores : Ign.cores φ) (s : State) (t : Nat) (c : Nat) (doneOff : Option Nat) (strict : Option Nat) (charge : Option Charge) : φ (State.launch s t c doneOff strict charge) = φ s := by
  unfold State.launch
  try dsimp only
  (repeat' split) <;> first | (simp only [State.put64_keeps hregs, State.rput_keeps hregs, State.setCState_keeps hregs, State.setCore_keeps hcores, hregs, hcores, ite_keeps φ, foldl_keeps φ, foldlPair_keeps φ, foldlJob_keeps φ, foldlJobPair_keeps φ, foldr_keeps φ, ite_st, ite_fst, ite_self, implies_true]; done) | rfl
theorem State.stgDiscard_keeps {φ : State → β} (hregs : Ign.regs φ) (hwset : Ign.wset φ) (s : State) (k : Nat) (b : Nat) : φ (State.stgDiscard s k b) = φ s := by
  unfold State.stgDiscard
  try dsimp only
  (repeat' split) <;> first | (simp only [State.stgShow_keeps hregs, hregs, hwset, ite_keeps φ, foldl_keeps φ, foldlPair_keeps φ, foldlJob_keeps φ, foldlJobPair_keeps φ, foldr_keeps φ, ite_st, ite_fst, ite_self, implies_true]; done) | rfl
theorem State.stgCommit_keeps {φ : State → β} (hregs : Ign.regs φ) (hwset : Ign.wset φ) (s : State) (k : Nat) (b : Nat) : φ (State.stgCommit s k b) = φ s := by
  unfold State.stgCommit
  try dsimp only
  (repeat' split) <;> first | (simp only [State.eventBit_keeps hregs, State.rput_keeps hregs, State.stgShow_keeps hregs, hregs, hwset, ite_keeps φ, foldl_keeps φ, foldlPair_keeps φ, foldlJob_keeps φ, foldlJobPair_keeps φ, foldr_keeps φ, ite_st, ite_fst, ite_self, implies_true]; done) | rfl
theorem State.stgCtl_keeps {φ : State → β} (hregs : Ign.regs φ) (hwset : Ign.wset φ) (s : State) (k : Nat) (w : Word) : φ (State.stgCtl s k w) = φ s := by
  unfold State.stgCtl
  try dsimp only
  (repeat' split) <;> first | (simp only [State.fput_keeps hregs, State.stgCommit_keeps hregs hwset, State.stgDiscard_keeps hregs hwset, hregs, hwset, ite_keeps φ, foldl_keeps φ, foldlPair_keeps φ, foldlJob_keeps φ, foldlJobPair_keeps φ, foldr_keeps φ, ite_st, ite_fst, ite_self, implies_true]; done) | rfl
theorem State.accountsAnew_keeps {φ : State → β} (hfab : Ign.fab φ) (s : State) (i : Nat) : φ (State.accountsAnew s i) = φ s := by
  unfold State.accountsAnew
  try dsimp only
  (repeat' split) <;> first | (simp only [hfab, ite_keeps φ, foldl_keeps φ, foldlPair_keeps φ, foldlJob_keeps φ, foldlJobPair_keeps φ, foldr_keeps φ, ite_st, ite_fst, ite_self, implies_true]; done) | rfl
theorem State.drainCheckExp_keeps {φ : State → β} (hregs : Ign.regs φ) (hmem : Ign.mem φ) (hsynd : Ign.synd φ) (hsoft : Ign.soft φ) (hstops : Ign.stops φ) (hgate : Ign.gate φ) (hflt : Ign.flt φ) (hfab : Ign.fab φ) (s : State) (e : Nat) : φ (State.drainCheckExp s e) = φ s := by
  unfold State.drainCheckExp
  try dsimp only
  (repeat' split) <;> first | (simp only [State.daWrite_keeps hregs hmem hsynd hsoft hstops hgate hflt, State.event_keeps hregs, State.exhRead_keeps hregs hmem hsynd hsoft hstops hgate hflt, State.rput_keeps hregs, hregs, hmem, hsynd, hsoft, hstops, hgate, hflt, hfab, ite_keeps φ, foldl_keeps φ, foldlPair_keeps φ, foldlJob_keeps φ, foldlJobPair_keeps φ, foldr_keeps φ, ite_st, ite_fst, ite_self, implies_true]; done) | rfl
theorem State.drainCount_keeps {φ : State → β} (hregs : Ign.regs φ) (hmem : Ign.mem φ) (hsynd : Ign.synd φ) (hsoft : Ign.soft φ) (hstops : Ign.stops φ) (hgate : Ign.gate φ) (hflt : Ign.flt φ) (hfab : Ign.fab φ) (s : State) (e : Nat) (i : Nat) : φ (State.drainCount s e i) = φ s := by
  unfold State.drainCount
  try dsimp only
  (repeat' split) <;> first | (simp only [State.drainCheckExp_keeps hregs hmem hsynd hsoft hstops hgate hflt hfab, hregs, hmem, hsynd, hsoft, hstops, hgate, hflt, hfab, ite_keeps φ, foldl_keeps φ, foldlPair_keeps φ, foldlJob_keeps φ, foldlJobPair_keeps φ, foldr_keeps φ, ite_st, ite_fst, ite_self, implies_true]; done) | rfl
theorem State.drainAll_keeps {φ : State → β} (hregs : Ign.regs φ) (hmem : Ign.mem φ) (hsynd : Ign.synd φ) (hsoft : Ign.soft φ) (hstops : Ign.stops φ) (hgate : Ign.gate φ) (hflt : Ign.flt φ) (hfab : Ign.fab φ) (s : State) (i : Nat) : φ (State.drainAll s i) = φ s := by
  unfold State.drainAll
  try dsimp only
  (repeat' split) <;> first | (simp only [State.drainCount_keeps hregs hmem hsynd hsoft hstops hgate hflt hfab, hregs, hmem, hsynd, hsoft, hstops, hgate, hflt, hfab, ite_keeps φ, foldl_keeps φ, foldlPair_keeps φ, foldlJob_keeps φ, foldlJobPair_keeps φ, foldr_keeps φ, ite_st, ite_fst, ite_self, implies_true]; done) | rfl
theorem State.fwMoveOn_keeps {φ : State → β} (hclk : Ign.clk φ) (hregs : Ign.regs φ) (hmem : Ign.mem φ) (hsynd : Ign.synd φ) (hsoft : Ign.soft φ) (hhost : Ign.host φ) (hstops : Ign.stops φ) (hgate : Ign.gate φ) (hcmd : Ign.cmd φ) (hpcie : Ign.pcie φ) (hflt : Ign.flt φ) (hfw : Ign.fw φ) (hfab : Ign.fab φ) (houts : Ign.outs φ) (s : State) (i : Nat) : φ (State.fwMoveOn s i) = φ s := by
  unfold State.fwMoveOn
  try dsimp only
  (repeat' split) <;> first | (simp only [State.fwAskFrom_keeps hclk hregs hmem hsynd hsoft hhost hstops hgate hcmd hpcie hflt hfw hfab houts, hclk, hregs, hmem, hsynd, hsoft, hhost, hstops, hgate, hcmd, hpcie, hflt, hfw, hfab, houts, ite_keeps φ, foldl_keeps φ, foldlPair_keeps φ, foldlJob_keeps φ, foldlJobPair_keeps φ, foldr_keeps φ, ite_st, ite_fst, ite_self, implies_true]; done) | rfl
theorem State.connFail_keeps {φ : State → β} (hclk : Ign.clk φ) (hregs : Ign.regs φ) (hmem : Ign.mem φ) (hsynd : Ign.synd φ) (hsoft : Ign.soft φ) (hhost : Ign.host φ) (hstops : Ign.stops φ) (hgate : Ign.gate φ) (hcmd : Ign.cmd φ) (hpcie : Ign.pcie φ) (hflt : Ign.flt φ) (hfw : Ign.fw φ) (hlck : Ign.lck φ) (hfab : Ign.fab φ) (houts : Ign.outs φ) (s : State) (i : Nat) : φ (State.connFail s i) = φ s := by
  unfold State.connFail
  try dsimp only
  (repeat' split) <;> first | (simp only [State.accountsAnew_keeps hfab, State.diverge_keeps hregs hflt, State.drainAll_keeps hregs hmem hsynd hsoft hstops hgate hflt hfab, State.event_keeps hregs, State.fwMoveOn_keeps hclk hregs hmem hsynd hsoft hhost hstops hgate hcmd hpcie hflt hfw hfab houts, State.keyAnswer_keeps hclk hregs hfab houts, State.ownerEnd_keeps hregs hmem hsynd hsoft hhost hstops hgate hcmd hpcie hflt hfab houts, State.peerState_keeps hregs hmem hsynd hsoft hstops hgate hflt, State.raise_keeps hflt, State.setPeer_keeps hfab, State.setPeerState_keeps hregs hmem hsynd hsoft hstops hgate hflt, hclk, hregs, hmem, hsynd, hsoft, hhost, hstops, hgate, hcmd, hpcie, hflt, hfw, hlck, hfab, houts, ite_keeps φ, foldl_keeps φ, foldlPair_keeps φ, foldlJob_keeps φ, foldlJobPair_keeps φ, foldr_keeps φ, ite_st, ite_fst, ite_self, implies_true]; done) | rfl
theorem State.wakeEnds_keeps {φ : State → β} (htiles : Ign.tiles φ) (s : State) (c : CopyD) : φ (State.wakeEnds s c) = φ s := by
  unfold State.wakeEnds
  try dsimp only
  (repeat' split) <;> first | (simp only [State.setEng_keeps htiles, htiles, ite_keeps φ, foldl_keeps φ, foldlPair_keeps φ, foldlJob_keeps φ, foldlJobPair_keeps φ, foldr_keeps φ, ite_st, ite_fst, ite_self, implies_true]; done) | rfl
theorem State.planNodes_keeps {φ : State → β} (hregs : Ign.regs φ) (hmem : Ign.mem φ) (hsynd : Ign.synd φ) (hsoft : Ign.soft φ) (hstops : Ign.stops φ) (hgate : Ign.gate φ) (hflt : Ign.flt φ) (s : State) (ns : Nat) (shape : Nat) (x3 : List (Nat × Nat)) (x4 : List (Nat × Nat × Nat × List Byte)) (x5 : Nat) : φ (State.planNodes s ns shape x3 x4 x5).1 = φ s := by
  fun_induction State.planNodes s ns shape x3 x4 x5 <;> first
    | (simp_all +zetaDelta only [State.findNode_keeps hregs hmem hsynd hsoft hstops hgate hflt, State.nodesRead_keeps hregs hmem hsynd hsoft hstops hgate hflt, hregs, hmem, hsynd, hsoft, hstops, hgate, hflt, ite_keeps φ, foldl_keeps φ, foldlPair_keeps φ, foldlJob_keeps φ, foldlJobPair_keeps φ, foldr_keeps φ, ite_st, ite_fst, ite_self, implies_true]; done)
    | (simp +zetaDelta only [State.findNode_keeps hregs hmem hsynd hsoft hstops hgate hflt, State.nodesRead_keeps hregs hmem hsynd hsoft hstops hgate hflt, hregs, hmem, hsynd, hsoft, hstops, hgate, hflt, ite_keeps φ, foldl_keeps φ, foldlPair_keeps φ, foldlJob_keeps φ, foldlJobPair_keeps φ, foldr_keeps φ, ite_st, ite_fst, ite_self, implies_true]; done)
    | (simp +zetaDelta only [State.findNode_keeps hregs hmem hsynd hsoft hstops hgate hflt, State.nodesRead_keeps hregs hmem hsynd hsoft hstops hgate hflt, hregs, hmem, hsynd, hsoft, hstops, hgate, hflt, ite_keeps φ, foldl_keeps φ, foldlPair_keeps φ, foldlJob_keeps φ, foldlJobPair_keeps φ, foldr_keeps φ, ite_st, ite_fst, ite_self, implies_true]; split <;> simp_all +zetaDelta only [State.findNode_keeps hregs hmem hsynd hsoft hstops hgate hflt, State.nodesRead_keeps hregs hmem hsynd hsoft hstops hgate hflt, hregs, hmem, hsynd, hsoft, hstops, hgate, hflt, ite_keeps φ, foldl_keeps φ, foldlPair_keeps φ, foldlJob_keeps φ, foldlJobPair_keeps φ, foldr_keeps φ, ite_st, ite_fst, ite_self, implies_true]; done)
    | (simp_all +zetaDelta [State.findNode_keeps hregs hmem hsynd hsoft hstops hgate hflt, State.nodesRead_keeps hregs hmem hsynd hsoft hstops hgate hflt, hregs, hmem, hsynd, hsoft, hstops, hgate, hflt, ite_keeps φ, foldl_keeps φ, foldlPair_keeps φ, foldlJob_keeps φ, foldlJobPair_keeps φ, foldr_keeps φ, ite_st, ite_fst, ite_self, implies_true]; done)
theorem State.failEntry_keeps {φ : State → β} (hclk : Ign.clk φ) (s : State) (c : Nat) (st : Nat) (b : Option (List Byte)) : φ (State.failEntry s c st b).1 = φ s := by
  unfold State.failEntry
  try dsimp only
  (repeat' split) <;> first | (simp only [State.free_keeps hclk, hclk, ite_keeps φ, foldl_keeps φ, foldlPair_keeps φ, foldlJob_keeps φ, foldlJobPair_keeps φ, foldr_keeps φ, ite_st, ite_fst, ite_self, implies_true]; done) | rfl
theorem State.eligible_keeps {φ : State → β} (hregs : Ign.regs φ) (hmem : Ign.mem φ) (hsynd : Ign.synd φ) (hsoft : Ign.soft φ) (hstops : Ign.stops φ) (hgate : Ign.gate φ) (hflt : Ign.flt φ) (hkv : Ign.kv φ) (s : State) (named : List Nat) : φ (State.eligible s named).1 = φ s := by
  unfold State.eligible
  try dsimp only
  refine foldlPair_keeps φ _ (_, _) _ (fun s a => ?_)
  try dsimp only
  (repeat' split) <;> (try dsimp only) <;> first
    | (simp only [State.entryLost_keeps hregs hmem hsynd hsoft hstops hgate hflt hkv, State.kvRead_keeps hregs hmem hsynd hsoft hstops hgate hflt, hregs, hmem, hsynd, hsoft, hstops, hgate, hflt, hkv, ite_keeps φ, foldl_keeps φ, foldlPair_keeps φ, foldlJob_keeps φ, foldlJobPair_keeps φ, foldr_keeps φ, ite_st, ite_fst, ite_self, implies_true]; done)
    | rfl
    | exact of_fst (by assumption) (by simp only [State.entryLost_keeps hregs hmem hsynd hsoft hstops hgate hflt hkv, State.kvRead_keeps hregs hmem hsynd hsoft hstops hgate hflt, hregs, hmem, hsynd, hsoft, hstops, hgate, hflt, hkv, ite_keeps φ, foldl_keeps φ, foldlPair_keeps φ, foldlJob_keeps φ, foldlJobPair_keeps φ, foldr_keeps φ, ite_st, ite_fst, ite_self, implies_true])
    | (simp only [State.entryLost_keeps hregs hmem hsynd hsoft hstops hgate hflt hkv, State.kvRead_keeps hregs hmem hsynd hsoft hstops hgate hflt, hregs, hmem, hsynd, hsoft, hstops, hgate, hflt, hkv, ite_keeps φ, foldl_keeps φ, foldlPair_keeps φ, foldlJob_keeps φ, foldlJobPair_keeps φ, foldr_keeps φ, ite_st, ite_fst, ite_self, implies_true]; exact of_fst (by assumption) (by simp only [State.entryLost_keeps hregs hmem hsynd hsoft hstops hgate hflt hkv, State.kvRead_keeps hregs hmem hsynd hsoft hstops hgate hflt, hregs, hmem, hsynd, hsoft, hstops, hgate, hflt, hkv, ite_keeps φ, foldl_keeps φ, foldlPair_keeps φ, foldlJob_keeps φ, foldlJobPair_keeps φ, foldr_keeps φ, ite_st, ite_fst, ite_self, implies_true]))
theorem State.outStart_keeps {φ : State → β} (hclk : Ign.clk φ) (hregs : Ign.regs φ) (hmem : Ign.mem φ) (hsynd : Ign.synd φ) (hsoft : Ign.soft φ) (hhost : Ign.host φ) (hstops : Ign.stops φ) (hgate : Ign.gate φ) (hcmd : Ign.cmd φ) (hpcie : Ign.pcie φ) (hflt : Ign.flt φ) (hkv : Ign.kv φ) (houts : Ign.outs φ) (s : State) (c : Nat) (desc : Option (Nat × Nat)) : φ (State.outStart s c desc).1 = φ s := by
  unfold State.outStart
  try dsimp only
  (repeat' split) <;> first | (simp only [Job.entry_keeps hregs hmem hsynd hsoft hstops hgate hflt, Job.finish_keeps hregs hmem hsynd hsoft hstops hgate hflt hkv, Job.pageWord_keeps hregs hmem hsynd hsoft hstops hgate hflt, Job.pte_keeps hregs hmem hsynd hsoft hstops hgate hflt, Job.putEntry_keeps hregs hmem hsynd hsoft hstops hgate hflt, State.outNext_keeps hclk hregs hmem hsynd hsoft hhost hstops hgate hcmd hpcie hflt hkv houts, State.setOut_keeps hkv, hclk, hregs, hmem, hsynd, hsoft, hhost, hstops, hgate, hcmd, hpcie, hflt, hkv, houts, ite_keeps φ, foldl_keeps φ, foldlPair_keeps φ, foldlJob_keeps φ, foldlJobPair_keeps φ, foldr_keeps φ, ite_st, ite_fst, ite_self, implies_true]; done) | rfl
theorem State.preempt_keeps {φ : State → β} (hclk : Ign.clk φ) (hregs : Ign.regs φ) (hmem : Ign.mem φ) (hsynd : Ign.synd φ) (hsoft : Ign.soft φ) (hhost : Ign.host φ) (hstops : Ign.stops φ) (hgate : Ign.gate φ) (hcmd : Ign.cmd φ) (hpcie : Ign.pcie φ) (hflt : Ign.flt φ) (hkv : Ign.kv φ) (houts : Ign.outs φ) (s : State) (short : Nat) (named : List Nat) : φ (State.preempt s short named) = φ s := by
  unfold State.preempt
  try dsimp only
  (repeat' split) <;> first | (simp only [State.eligible_keeps hregs hmem hsynd hsoft hstops hgate hflt hkv, State.event_keeps hregs, State.fadd_keeps hregs, State.outStart_keeps hclk hregs hmem hsynd hsoft hhost hstops hgate hcmd hpcie hflt hkv houts, hclk, hregs, hmem, hsynd, hsoft, hhost, hstops, hgate, hcmd, hpcie, hflt, hkv, houts, ite_keeps φ, foldl_keeps φ, foldlPair_keeps φ, foldlJob_keeps φ, foldlJobPair_keeps φ, foldr_keeps φ, ite_st, ite_fst, ite_self, implies_true]; done) | rfl
theorem Job.newPage_keeps {φ : State → β} (hclk : Ign.clk φ) (hregs : Ign.regs φ) (hmem : Ign.mem φ) (hsynd : Ign.synd φ) (hsoft : Ign.soft φ) (hstops : Ign.stops φ) (hgate : Ign.gate φ) (hflt : Ign.flt φ) (hkv : Ign.kv φ) (a : Job) (c : Nat) (root : Nat) (lh : Nat) (e : Nat) : φ (Job.newPage a c root lh e).st = φ a.st := by
  unfold Job.newPage
  try dsimp only
  (repeat' split) <;> first | (simp only [Job.ensure_keeps hregs hmem hsynd hsoft hstops hgate hflt hkv, Job.kvPage_keeps hclk hregs hmem hsynd hsoft hstops hgate hflt hkv, Job.setPte_keeps hregs hmem hsynd hsoft hstops hgate hflt hkv, hclk, hregs, hmem, hsynd, hsoft, hstops, hgate, hflt, hkv, ite_keeps φ, foldl_keeps φ, foldlPair_keeps φ, foldlJob_keeps φ, foldlJobPair_keeps φ, foldr_keeps φ, ite_st, ite_fst, ite_self, implies_true]; done) | rfl
theorem Job.newNode_keeps {φ : State → β} (hclk : Ign.clk φ) (hregs : Ign.regs φ) (hmem : Ign.mem φ) (hsynd : Ign.synd φ) (hsoft : Ign.soft φ) (hstops : Ign.stops φ) (hgate : Ign.gate φ) (hflt : Ign.flt φ) (hkv : Ign.kv φ) (a : Job) (c : Nat) (lh : Nat) (b : List Byte) (x : Nat × Nat × Nat × List Byte) : φ (Job.newNode a c lh b x).st = φ a.st := by
  unfold Job.newNode
  try dsimp only
  (repeat' split) <;> first | (simp only [Job.evict_keeps hclk hregs hmem hsynd hsoft hstops hgate hflt hkv, Job.map_keeps , Job.pop_keeps hregs hmem hsynd hsoft hstops hgate hflt hkv, Job.write_keeps hregs hmem hsynd hsoft hstops hgate hflt, State.free_keeps hclk, hclk, hregs, hmem, hsynd, hsoft, hstops, hgate, hflt, hkv, ite_keeps φ, foldl_keeps φ, foldlPair_keeps φ, foldlJob_keeps φ, foldlJobPair_keeps φ, foldr_keeps φ, ite_st, ite_fst, ite_self, implies_true]; done) | rfl
theorem State.beginOpen_keeps {φ : State → β} (hclk : Ign.clk φ) (hregs : Ign.regs φ) (hmem : Ign.mem φ) (hsynd : Ign.synd φ) (hsoft : Ign.soft φ) (hhost : Ign.host φ) (hstops : Ign.stops φ) (hgate : Ign.gate φ) (hcmd : Ign.cmd φ) (hpcie : Ign.pcie φ) (hflt : Ign.flt φ) (hkv : Ign.kv φ) (houts : Ign.outs φ) (s : State) (c : Nat) (n : Nat) (b : List Byte) (toks : List Nat) (named : List Nat) : φ (State.beginOpen s c n b toks named).1 = φ s := by
  unfold State.beginOpen
  try dsimp only
  (repeat' split) <;> first
    | (simp only [Job.finish_keeps hregs hmem hsynd hsoft hstops hgate hflt hkv, Job.map_keeps , Job.newNode_keeps hclk hregs hmem hsynd hsoft hstops hgate hflt hkv, Job.newPage_keeps hclk hregs hmem hsynd hsoft hstops hgate hflt hkv, Job.ownPage_keeps hclk hregs hmem hsynd hsoft hstops hgate hflt hkv, Job.pageWord_keeps hregs hmem hsynd hsoft hstops hgate hflt, Job.pte_keeps hregs hmem hsynd hsoft hstops hgate hflt, Job.putEntry_keeps hregs hmem hsynd hsoft hstops hgate hflt, Job.tablesNeeded_keeps hregs hmem hsynd hsoft hstops hgate hflt, State.fadd_keeps hregs, State.failEntry_keeps hclk, State.nsKey_keeps hclk, State.planNodes_keeps hregs hmem hsynd hsoft hstops hgate hflt, State.preempt_keeps hclk hregs hmem hsynd hsoft hhost hstops hgate hcmd hpcie hflt hkv houts, hclk, hregs, hmem, hsynd, hsoft, hhost, hstops, hgate, hcmd, hpcie, hflt, hkv, houts, ite_keeps φ, foldl_keeps φ, foldlPair_keeps φ, foldlJob_keeps φ, foldlJobPair_keeps φ, foldr_keeps φ, ite_st, ite_fst, ite_self, implies_true]; done)
    | (simp only [Job.finish_keeps hregs hmem hsynd hsoft hstops hgate hflt hkv, Job.map_keeps , Job.newNode_keeps hclk hregs hmem hsynd hsoft hstops hgate hflt hkv, Job.newPage_keeps hclk hregs hmem hsynd hsoft hstops hgate hflt hkv, Job.ownPage_keeps hclk hregs hmem hsynd hsoft hstops hgate hflt hkv, Job.pageWord_keeps hregs hmem hsynd hsoft hstops hgate hflt, Job.pte_keeps hregs hmem hsynd hsoft hstops hgate hflt, Job.putEntry_keeps hregs hmem hsynd hsoft hstops hgate hflt, Job.tablesNeeded_keeps hregs hmem hsynd hsoft hstops hgate hflt, State.fadd_keeps hregs, State.failEntry_keeps hclk, State.nsKey_keeps hclk, State.planNodes_keeps hregs hmem hsynd hsoft hstops hgate hflt, State.preempt_keeps hclk hregs hmem hsynd hsoft hhost hstops hgate hcmd hpcie hflt hkv houts, hclk, hregs, hmem, hsynd, hsoft, hhost, hstops, hgate, hcmd, hpcie, hflt, hkv, houts, ite_keeps φ, foldl_keeps φ, foldlPair_keeps φ, foldlJob_keeps φ, foldlJobPair_keeps φ, foldr_keeps φ, ite_st, ite_fst, ite_self, implies_true]; exact of_fst (by assumption) (by simp only [Job.finish_keeps hregs hmem hsynd hsoft hstops hgate hflt hkv, Job.map_keeps , Job.newNode_keeps hclk hregs hmem hsynd hsoft hstops hgate hflt hkv, Job.newPage_keeps hclk hregs hmem hsynd hsoft hstops hgate hflt hkv, Job.ownPage_keeps hclk hregs hmem hsynd hsoft hstops hgate hflt hkv, Job.pageWord_keeps hregs hmem hsynd hsoft hstops hgate hflt, Job.pte_keeps hregs hmem hsynd hsoft hstops hgate hflt, Job.putEntry_keeps hregs hmem hsynd hsoft hstops hgate hflt, Job.tablesNeeded_keeps hregs hmem hsynd hsoft hstops hgate hflt, State.fadd_keeps hregs, State.failEntry_keeps hclk, State.nsKey_keeps hclk, State.planNodes_keeps hregs hmem hsynd hsoft hstops hgate hflt, State.preempt_keeps hclk hregs hmem hsynd hsoft hhost hstops hgate hcmd hpcie hflt hkv houts, hclk, hregs, hmem, hsynd, hsoft, hhost, hstops, hgate, hcmd, hpcie, hflt, hkv, houts, ite_keeps φ, foldl_keeps φ, foldlPair_keeps φ, foldlJob_keeps φ, foldlJobPair_keeps φ, foldr_keeps φ, ite_st, ite_fst, ite_self, implies_true]))
    | exact (Job.finish_keeps hregs hmem hsynd hsoft hstops hgate hflt hkv _ _ (by simp only [Job.finish_keeps hregs hmem hsynd hsoft hstops hgate hflt hkv, Job.map_keeps , Job.newNode_keeps hclk hregs hmem hsynd hsoft hstops hgate hflt hkv, Job.newPage_keeps hclk hregs hmem hsynd hsoft hstops hgate hflt hkv, Job.ownPage_keeps hclk hregs hmem hsynd hsoft hstops hgate hflt hkv, Job.pageWord_keeps hregs hmem hsynd hsoft hstops hgate hflt, Job.pte_keeps hregs hmem hsynd hsoft hstops hgate hflt, Job.putEntry_keeps hregs hmem hsynd hsoft hstops hgate hflt, Job.tablesNeeded_keeps hregs hmem hsynd hsoft hstops hgate hflt, State.fadd_keeps hregs, State.failEntry_keeps hclk, State.nsKey_keeps hclk, State.planNodes_keeps hregs hmem hsynd hsoft hstops hgate hflt, State.preempt_keeps hclk hregs hmem hsynd hsoft hhost hstops hgate hcmd hpcie hflt hkv houts, hclk, hregs, hmem, hsynd, hsoft, hhost, hstops, hgate, hcmd, hpcie, hflt, hkv, houts, ite_keeps φ, foldl_keeps φ, foldlPair_keeps φ, foldlJob_keeps φ, foldlJobPair_keeps φ, foldr_keeps φ, ite_st, ite_fst, ite_self, implies_true])).trans (by first | rfl | simp only [Job.finish_keeps hregs hmem hsynd hsoft hstops hgate hflt hkv, Job.map_keeps , Job.newNode_keeps hclk hregs hmem hsynd hsoft hstops hgate hflt hkv, Job.newPage_keeps hclk hregs hmem hsynd hsoft hstops hgate hflt hkv, Job.ownPage_keeps hclk hregs hmem hsynd hsoft hstops hgate hflt hkv, Job.pageWord_keeps hregs hmem hsynd hsoft hstops hgate hflt, Job.pte_keeps hregs hmem hsynd hsoft hstops hgate hflt, Job.putEntry_keeps hregs hmem hsynd hsoft hstops hgate hflt, Job.tablesNeeded_keeps hregs hmem hsynd hsoft hstops hgate hflt, State.fadd_keeps hregs, State.failEntry_keeps hclk, State.nsKey_keeps hclk, State.planNodes_keeps hregs hmem hsynd hsoft hstops hgate hflt, State.preempt_keeps hclk hregs hmem hsynd hsoft hhost hstops hgate hcmd hpcie hflt hkv houts, hclk, hregs, hmem, hsynd, hsoft, hhost, hstops, hgate, hcmd, hpcie, hflt, hkv, houts, ite_keeps φ, foldl_keeps φ, foldlPair_keeps φ, foldlJob_keeps φ, foldlJobPair_keeps φ, foldr_keeps φ, ite_st, ite_fst, ite_self, implies_true])
    | exact (Job.finish_keeps hregs hmem hsynd hsoft hstops hgate hflt hkv _ _ (by simp only [Job.finish_keeps hregs hmem hsynd hsoft hstops hgate hflt hkv, Job.map_keeps , Job.newNode_keeps hclk hregs hmem hsynd hsoft hstops hgate hflt hkv, Job.newPage_keeps hclk hregs hmem hsynd hsoft hstops hgate hflt hkv, Job.ownPage_keeps hclk hregs hmem hsynd hsoft hstops hgate hflt hkv, Job.pageWord_keeps hregs hmem hsynd hsoft hstops hgate hflt, Job.pte_keeps hregs hmem hsynd hsoft hstops hgate hflt, Job.putEntry_keeps hregs hmem hsynd hsoft hstops hgate hflt, Job.tablesNeeded_keeps hregs hmem hsynd hsoft hstops hgate hflt, State.fadd_keeps hregs, State.failEntry_keeps hclk, State.nsKey_keeps hclk, State.planNodes_keeps hregs hmem hsynd hsoft hstops hgate hflt, State.preempt_keeps hclk hregs hmem hsynd hsoft hhost hstops hgate hcmd hpcie hflt hkv houts, hclk, hregs, hmem, hsynd, hsoft, hhost, hstops, hgate, hcmd, hpcie, hflt, hkv, houts, ite_keeps φ, foldl_keeps φ, foldlPair_keeps φ, foldlJob_keeps φ, foldlJobPair_keeps φ, foldr_keeps φ, ite_st, ite_fst, ite_self, implies_true])).trans (of_fst (by assumption) (by simp only [Job.finish_keeps hregs hmem hsynd hsoft hstops hgate hflt hkv, Job.map_keeps , Job.newNode_keeps hclk hregs hmem hsynd hsoft hstops hgate hflt hkv, Job.newPage_keeps hclk hregs hmem hsynd hsoft hstops hgate hflt hkv, Job.ownPage_keeps hclk hregs hmem hsynd hsoft hstops hgate hflt hkv, Job.pageWord_keeps hregs hmem hsynd hsoft hstops hgate hflt, Job.pte_keeps hregs hmem hsynd hsoft hstops hgate hflt, Job.putEntry_keeps hregs hmem hsynd hsoft hstops hgate hflt, Job.tablesNeeded_keeps hregs hmem hsynd hsoft hstops hgate hflt, State.fadd_keeps hregs, State.failEntry_keeps hclk, State.nsKey_keeps hclk, State.planNodes_keeps hregs hmem hsynd hsoft hstops hgate hflt, State.preempt_keeps hclk hregs hmem hsynd hsoft hhost hstops hgate hcmd hpcie hflt hkv houts, hclk, hregs, hmem, hsynd, hsoft, hhost, hstops, hgate, hcmd, hpcie, hflt, hkv, houts, ite_keeps φ, foldl_keeps φ, foldlPair_keeps φ, foldlJob_keeps φ, foldlJobPair_keeps φ, foldr_keeps φ, ite_st, ite_fst, ite_self, implies_true]))
    | (simp only [Job.finish_keeps hregs hmem hsynd hsoft hstops hgate hflt hkv, Job.map_keeps , Job.newNode_keeps hclk hregs hmem hsynd hsoft hstops hgate hflt hkv, Job.newPage_keeps hclk hregs hmem hsynd hsoft hstops hgate hflt hkv, Job.ownPage_keeps hclk hregs hmem hsynd hsoft hstops hgate hflt hkv, Job.pageWord_keeps hregs hmem hsynd hsoft hstops hgate hflt, Job.pte_keeps hregs hmem hsynd hsoft hstops hgate hflt, Job.putEntry_keeps hregs hmem hsynd hsoft hstops hgate hflt, Job.tablesNeeded_keeps hregs hmem hsynd hsoft hstops hgate hflt, State.fadd_keeps hregs, State.failEntry_keeps hclk, State.nsKey_keeps hclk, State.planNodes_keeps hregs hmem hsynd hsoft hstops hgate hflt, State.preempt_keeps hclk hregs hmem hsynd hsoft hhost hstops hgate hcmd hpcie hflt hkv houts, hclk, hregs, hmem, hsynd, hsoft, hhost, hstops, hgate, hcmd, hpcie, hflt, hkv, houts, ite_keeps φ, foldl_keeps φ, foldlPair_keeps φ, foldlJob_keeps φ, foldlJobPair_keeps φ, foldr_keeps φ, ite_st, ite_fst, ite_self, implies_true]; exact (Job.finish_keeps hregs hmem hsynd hsoft hstops hgate hflt hkv _ _ (by simp only [Job.finish_keeps hregs hmem hsynd hsoft hstops hgate hflt hkv, Job.map_keeps , Job.newNode_keeps hclk hregs hmem hsynd hsoft hstops hgate hflt hkv, Job.newPage_keeps hclk hregs hmem hsynd hsoft hstops hgate hflt hkv, Job.ownPage_keeps hclk hregs hmem hsynd hsoft hstops hgate hflt hkv, Job.pageWord_keeps hregs hmem hsynd hsoft hstops hgate hflt, Job.pte_keeps hregs hmem hsynd hsoft hstops hgate hflt, Job.putEntry_keeps hregs hmem hsynd hsoft hstops hgate hflt, Job.tablesNeeded_keeps hregs hmem hsynd hsoft hstops hgate hflt, State.fadd_keeps hregs, State.failEntry_keeps hclk, State.nsKey_keeps hclk, State.planNodes_keeps hregs hmem hsynd hsoft hstops hgate hflt, State.preempt_keeps hclk hregs hmem hsynd hsoft hhost hstops hgate hcmd hpcie hflt hkv houts, hclk, hregs, hmem, hsynd, hsoft, hhost, hstops, hgate, hcmd, hpcie, hflt, hkv, houts, ite_keeps φ, foldl_keeps φ, foldlPair_keeps φ, foldlJob_keeps φ, foldlJobPair_keeps φ, foldr_keeps φ, ite_st, ite_fst, ite_self, implies_true])).trans (by first | rfl | simp only [Job.finish_keeps hregs hmem hsynd hsoft hstops hgate hflt hkv, Job.map_keeps , Job.newNode_keeps hclk hregs hmem hsynd hsoft hstops hgate hflt hkv, Job.newPage_keeps hclk hregs hmem hsynd hsoft hstops hgate hflt hkv, Job.ownPage_keeps hclk hregs hmem hsynd hsoft hstops hgate hflt hkv, Job.pageWord_keeps hregs hmem hsynd hsoft hstops hgate hflt, Job.pte_keeps hregs hmem hsynd hsoft hstops hgate hflt, Job.putEntry_keeps hregs hmem hsynd hsoft hstops hgate hflt, Job.tablesNeeded_keeps hregs hmem hsynd hsoft hstops hgate hflt, State.fadd_keeps hregs, State.failEntry_keeps hclk, State.nsKey_keeps hclk, State.planNodes_keeps hregs hmem hsynd hsoft hstops hgate hflt, State.preempt_keeps hclk hregs hmem hsynd hsoft hhost hstops hgate hcmd hpcie hflt hkv houts, hclk, hregs, hmem, hsynd, hsoft, hhost, hstops, hgate, hcmd, hpcie, hflt, hkv, houts, ite_keeps φ, foldl_keeps φ, foldlPair_keeps φ, foldlJob_keeps φ, foldlJobPair_keeps φ, foldr_keeps φ, ite_st, ite_fst, ite_self, implies_true]))
    | (simp only [Job.finish_keeps hregs hmem hsynd hsoft hstops hgate hflt hkv, Job.map_keeps , Job.newNode_keeps hclk hregs hmem hsynd hsoft hstops hgate hflt hkv, Job.newPage_keeps hclk hregs hmem hsynd hsoft hstops hgate hflt hkv, Job.ownPage_keeps hclk hregs hmem hsynd hsoft hstops hgate hflt hkv, Job.pageWord_keeps hregs hmem hsynd hsoft hstops hgate hflt, Job.pte_keeps hregs hmem hsynd hsoft hstops hgate hflt, Job.putEntry_keeps hregs hmem hsynd hsoft hstops hgate hflt, Job.tablesNeeded_keeps hregs hmem hsynd hsoft hstops hgate hflt, State.fadd_keeps hregs, State.failEntry_keeps hclk, State.nsKey_keeps hclk, State.planNodes_keeps hregs hmem hsynd hsoft hstops hgate hflt, State.preempt_keeps hclk hregs hmem hsynd hsoft hhost hstops hgate hcmd hpcie hflt hkv houts, hclk, hregs, hmem, hsynd, hsoft, hhost, hstops, hgate, hcmd, hpcie, hflt, hkv, houts, ite_keeps φ, foldl_keeps φ, foldlPair_keeps φ, foldlJob_keeps φ, foldlJobPair_keeps φ, foldr_keeps φ, ite_st, ite_fst, ite_self, implies_true]; exact (Job.finish_keeps hregs hmem hsynd hsoft hstops hgate hflt hkv _ _ (by simp only [Job.finish_keeps hregs hmem hsynd hsoft hstops hgate hflt hkv, Job.map_keeps , Job.newNode_keeps hclk hregs hmem hsynd hsoft hstops hgate hflt hkv, Job.newPage_keeps hclk hregs hmem hsynd hsoft hstops hgate hflt hkv, Job.ownPage_keeps hclk hregs hmem hsynd hsoft hstops hgate hflt hkv, Job.pageWord_keeps hregs hmem hsynd hsoft hstops hgate hflt, Job.pte_keeps hregs hmem hsynd hsoft hstops hgate hflt, Job.putEntry_keeps hregs hmem hsynd hsoft hstops hgate hflt, Job.tablesNeeded_keeps hregs hmem hsynd hsoft hstops hgate hflt, State.fadd_keeps hregs, State.failEntry_keeps hclk, State.nsKey_keeps hclk, State.planNodes_keeps hregs hmem hsynd hsoft hstops hgate hflt, State.preempt_keeps hclk hregs hmem hsynd hsoft hhost hstops hgate hcmd hpcie hflt hkv houts, hclk, hregs, hmem, hsynd, hsoft, hhost, hstops, hgate, hcmd, hpcie, hflt, hkv, houts, ite_keeps φ, foldl_keeps φ, foldlPair_keeps φ, foldlJob_keeps φ, foldlJobPair_keeps φ, foldr_keeps φ, ite_st, ite_fst, ite_self, implies_true])).trans (of_fst (by assumption) (by simp only [Job.finish_keeps hregs hmem hsynd hsoft hstops hgate hflt hkv, Job.map_keeps , Job.newNode_keeps hclk hregs hmem hsynd hsoft hstops hgate hflt hkv, Job.newPage_keeps hclk hregs hmem hsynd hsoft hstops hgate hflt hkv, Job.ownPage_keeps hclk hregs hmem hsynd hsoft hstops hgate hflt hkv, Job.pageWord_keeps hregs hmem hsynd hsoft hstops hgate hflt, Job.pte_keeps hregs hmem hsynd hsoft hstops hgate hflt, Job.putEntry_keeps hregs hmem hsynd hsoft hstops hgate hflt, Job.tablesNeeded_keeps hregs hmem hsynd hsoft hstops hgate hflt, State.fadd_keeps hregs, State.failEntry_keeps hclk, State.nsKey_keeps hclk, State.planNodes_keeps hregs hmem hsynd hsoft hstops hgate hflt, State.preempt_keeps hclk hregs hmem hsynd hsoft hhost hstops hgate hcmd hpcie hflt hkv houts, hclk, hregs, hmem, hsynd, hsoft, hhost, hstops, hgate, hcmd, hpcie, hflt, hkv, houts, ite_keeps φ, foldl_keeps φ, foldlPair_keeps φ, foldlJob_keeps φ, foldlJobPair_keeps φ, foldr_keeps φ, ite_st, ite_fst, ite_self, implies_true])))
theorem State.stageAtom_keeps {φ : State → β} (hregs : Ign.regs φ) (hmem : Ign.mem φ) (hsynd : Ign.synd φ) (hsoft : Ign.soft φ) (hstops : Ign.stops φ) (hgate : Ign.gate φ) (hflt : Ign.flt φ) (s : State) (t : Nat) (da : Nat) (n : Nat) : φ (State.stageAtom s t da n).1 = φ s := by
  unfold State.stageAtom
  try dsimp only
  (repeat' split) <;> first | (simp only [State.atomRead_keeps hregs hmem hsynd hsoft hstops hflt, State.fadd_keeps hregs, State.note_keeps hstops hgate, State.setStop_keeps hstops, hregs, hmem, hsynd, hsoft, hstops, hgate, hflt, ite_keeps φ, foldl_keeps φ, foldlPair_keeps φ, foldlJob_keeps φ, foldlJobPair_keeps φ, foldr_keeps φ, ite_st, ite_fst, ite_self, implies_true]; done) | rfl
theorem State.dmaReadGo_keeps {φ : State → β} (hregs : Ign.regs φ) (hmem : Ign.mem φ) (hsynd : Ign.synd φ) (hsoft : Ign.soft φ) (hstops : Ign.stops φ) (hgate : Ign.gate φ) (hflt : Ign.flt φ) (x0 : Nat) (x1 : State) (x2 : Nat) (x3 : Nat) (x4 : Nat) : φ (State.dmaReadGo x0 x1 x2 x3 x4).1 = φ x1 := by
  fun_induction State.dmaReadGo x0 x1 x2 x3 x4 <;> first
    | (simp_all +zetaDelta only [State.daRead_keeps hregs hmem hsynd hsoft hstops hgate hflt, State.stageAtom_keeps hregs hmem hsynd hsoft hstops hgate hflt, hregs, hmem, hsynd, hsoft, hstops, hgate, hflt, ite_keeps φ, foldl_keeps φ, foldlPair_keeps φ, foldlJob_keeps φ, foldlJobPair_keeps φ, foldr_keeps φ, ite_st, ite_fst, ite_self, implies_true]; done)
    | (simp +zetaDelta only [State.daRead_keeps hregs hmem hsynd hsoft hstops hgate hflt, State.stageAtom_keeps hregs hmem hsynd hsoft hstops hgate hflt, hregs, hmem, hsynd, hsoft, hstops, hgate, hflt, ite_keeps φ, foldl_keeps φ, foldlPair_keeps φ, foldlJob_keeps φ, foldlJobPair_keeps φ, foldr_keeps φ, ite_st, ite_fst, ite_self, implies_true]; done)
    | (simp +zetaDelta only [State.daRead_keeps hregs hmem hsynd hsoft hstops hgate hflt, State.stageAtom_keeps hregs hmem hsynd hsoft hstops hgate hflt, hregs, hmem, hsynd, hsoft, hstops, hgate, hflt, ite_keeps φ, foldl_keeps φ, foldlPair_keeps φ, foldlJob_keeps φ, foldlJobPair_keeps φ, foldr_keeps φ, ite_st, ite_fst, ite_self, implies_true]; split <;> simp_all +zetaDelta only [State.daRead_keeps hregs hmem hsynd hsoft hstops hgate hflt, State.stageAtom_keeps hregs hmem hsynd hsoft hstops hgate hflt, hregs, hmem, hsynd, hsoft, hstops, hgate, hflt, ite_keeps φ, foldl_keeps φ, foldlPair_keeps φ, foldlJob_keeps φ, foldlJobPair_keeps φ, foldr_keeps φ, ite_st, ite_fst, ite_self, implies_true]; done)
    | (simp_all +zetaDelta [State.daRead_keeps hregs hmem hsynd hsoft hstops hgate hflt, State.stageAtom_keeps hregs hmem hsynd hsoft hstops hgate hflt, hregs, hmem, hsynd, hsoft, hstops, hgate, hflt, ite_keeps φ, foldl_keeps φ, foldlPair_keeps φ, foldlJob_keeps φ, foldlJobPair_keeps φ, foldr_keeps φ, ite_st, ite_fst, ite_self, implies_true]; done)
theorem State.msgEnd_keeps {φ : State → β} (hregs : Ign.regs φ) (hmem : Ign.mem φ) (hsynd : Ign.synd φ) (hsoft : Ign.soft φ) (hhost : Ign.host φ) (hstops : Ign.stops φ) (hgate : Ign.gate φ) (hcmd : Ign.cmd φ) (hpcie : Ign.pcie φ) (hflt : Ign.flt φ) (hfab : Ign.fab φ) (houts : Ign.outs φ) (s : State) (i : Nat) (m : TxMsg) (status : Nat) (old : Nat) : φ (State.msgEnd s i m status old) = φ s := by
  unfold State.msgEnd
  try dsimp only
  (repeat' split) <;> first | (simp only [State.ownerEnd_keeps hregs hmem hsynd hsoft hhost hstops hgate hcmd hpcie hflt hfab houts, State.setPeer_keeps hfab, hregs, hmem, hsynd, hsoft, hhost, hstops, hgate, hcmd, hpcie, hflt, hfab, houts, ite_keeps φ, foldl_keeps φ, foldlPair_keeps φ, foldlJob_keeps φ, foldlJobPair_keeps φ, foldr_keeps φ, ite_st, ite_fst, ite_self, implies_true]; done) | rfl
theorem State.endAcked_keeps {φ : State → β} (hregs : Ign.regs φ) (hmem : Ign.mem φ) (hsynd : Ign.synd φ) (hsoft : Ign.soft φ) (hhost : Ign.host φ) (hstops : Ign.stops φ) (hgate : Ign.gate φ) (hcmd : Ign.cmd φ) (hpcie : Ign.pcie φ) (hflt : Ign.flt φ) (hfab : Ign.fab φ) (houts : Ign.outs φ) (s : State) (i : Nat) : φ (State.endAcked s i) = φ s := by
  unfold State.endAcked
  try dsimp only
  (repeat' split) <;> first | (simp only [State.msgEnd_keeps hregs hmem hsynd hsoft hhost hstops hgate hcmd hpcie hflt hfab houts, hregs, hmem, hsynd, hsoft, hhost, hstops, hgate, hcmd, hpcie, hflt, hfab, houts, ite_keeps φ, foldl_keeps φ, foldlPair_keeps φ, foldlJob_keeps φ, foldlJobPair_keeps φ, foldr_keeps φ, ite_st, ite_fst, ite_self, implies_true]; done) | rfl
theorem State.vrxTdc_keeps {φ : State → β} (hregs : Ign.regs φ) (hdisps : Ign.disps φ) (s : State) (o : Owner) : φ (State.vrxTdc s o) = φ s := by
  unfold State.vrxTdc
  try dsimp only
  (repeat' split) <;> first | (simp only [State.detCause_keeps hregs hdisps, State.fadd_keeps hregs, State.setDisp_keeps hdisps, hregs, hdisps, ite_keeps φ, foldl_keeps φ, foldlPair_keeps φ, foldlJob_keeps φ, foldlJobPair_keeps φ, foldr_keeps φ, ite_st, ite_fst, ite_self, implies_true]; done) | rfl
theorem State.retransmit_keeps {φ : State → β} (hclk : Ign.clk φ) (hregs : Ign.regs φ) (hmem : Ign.mem φ) (hsynd : Ign.synd φ) (hsoft : Ign.soft φ) (hhost : Ign.host φ) (hstops : Ign.stops φ) (hgate : Ign.gate φ) (hdisps : Ign.disps φ) (hcmd : Ign.cmd φ) (hpcie : Ign.pcie φ) (hflt : Ign.flt φ) (hfw : Ign.fw φ) (hlck : Ign.lck φ) (hfab : Ign.fab φ) (houts : Ign.outs φ) (s : State) (i : Nat) (psn : Nat) : φ (State.retransmit s i psn) = φ s := by
  unfold State.retransmit
  try dsimp only
  (repeat' split) <;> first | (simp only [State.connFail_keeps hclk hregs hmem hsynd hsoft hhost hstops hgate hcmd hpcie hflt hfw hlck hfab houts, State.fadd_keeps hregs, State.sendPacket_keeps hclk hfab houts, State.setPeer_keeps hfab, State.spray_keeps hfab, State.vrxTdc_keeps hregs hdisps, hclk, hregs, hmem, hsynd, hsoft, hhost, hstops, hgate, hdisps, hcmd, hpcie, hflt, hfw, hlck, hfab, houts, ite_keeps φ, foldl_keeps φ, foldlPair_keeps φ, foldlJob_keeps φ, foldlJobPair_keeps φ, foldr_keeps φ, ite_st, ite_fst, ite_self, implies_true]; done) | rfl
theorem State.ackApply_keeps {φ : State → β} (hclk : Ign.clk φ) (hregs : Ign.regs φ) (hmem : Ign.mem φ) (hsynd : Ign.synd φ) (hsoft : Ign.soft φ) (hhost : Ign.host φ) (hstops : Ign.stops φ) (hgate : Ign.gate φ) (hdisps : Ign.disps φ) (hcmd : Ign.cmd φ) (hpcie : Ign.pcie φ) (hflt : Ign.flt φ) (hfw : Ign.fw φ) (hlck : Ign.lck φ) (hfab : Ign.fab φ) (houts : Ign.outs φ) (s : State) (i : Nat) (ackPsn : Nat) (sack : Nat) : φ (State.ackApply s i ackPsn sack) = φ s := by
  unfold State.ackApply
  try dsimp only
  (repeat' split) <;> first | (simp only [State.endAcked_keeps hregs hmem hsynd hsoft hhost hstops hgate hcmd hpcie hflt hfab houts, State.pump_keeps hclk hfab houts, State.retransmit_keeps hclk hregs hmem hsynd hsoft hhost hstops hgate hdisps hcmd hpcie hflt hfw hlck hfab houts, State.setPeer_keeps hfab, hclk, hregs, hmem, hsynd, hsoft, hhost, hstops, hgate, hdisps, hcmd, hpcie, hflt, hfw, hlck, hfab, houts, ite_keeps φ, foldl_keeps φ, foldlPair_keeps φ, foldlJob_keeps φ, foldlJobPair_keeps φ, foldr_keeps φ, ite_st, ite_fst, ite_self, implies_true]; done) | rfl
theorem State.fwDiscard_keeps {φ : State → β} (hregs : Ign.regs φ) (hfw : Ign.fw φ) (s : State) : φ (State.fwDiscard s) = φ s := by
  unfold State.fwDiscard
  try dsimp only
  (repeat' split) <;> first | (simp only [State.rput_keeps hregs, hregs, hfw, ite_keeps φ, foldl_keeps φ, foldlPair_keeps φ, foldlJob_keeps φ, foldlJobPair_keeps φ, foldr_keeps φ, ite_st, ite_fst, ite_self, implies_true]; done) | rfl
theorem State.fwStore_keeps {φ : State → β} (hregs : Ign.regs φ) (hmem : Ign.mem φ) (hsynd : Ign.synd φ) (hsoft : Ign.soft φ) (hstops : Ign.stops φ) (hgate : Ign.gate φ) (hflt : Ign.flt φ) (hfw : Ign.fw φ) (s : State) (n : Nat) (igen : Nat) (data : List Byte) (nchunk : Option Nat) (root : Option Nat) (bcast : Bool) : φ (State.fwStore s n igen data nchunk root bcast) = φ s := by
  unfold State.fwStore
  try dsimp only
  (repeat' split) <;> first | (simp only [State.daWrite_keeps hregs hmem hsynd hsoft hstops hgate hflt, State.event_keeps hregs, State.fput_keeps hregs, State.fwDiscard_keeps hregs hfw, hregs, hmem, hsynd, hsoft, hstops, hgate, hflt, hfw, ite_keeps φ, foldl_keeps φ, foldlPair_keeps φ, foldlJob_keeps φ, foldlJobPair_keeps φ, foldr_keeps φ, ite_st, ite_fst, ite_self, implies_true]; done) | rfl
theorem State.sendChunk_keeps {φ : State → β} (hclk : Ign.clk φ) (hregs : Ign.regs φ) (hmem : Ign.mem φ) (hsynd : Ign.synd φ) (hsoft : Ign.soft φ) (hhost : Ign.host φ) (hstops : Ign.stops φ) (hgate : Ign.gate φ) (hcmd : Ign.cmd φ) (hpcie : Ign.pcie φ) (hflt : Ign.flt φ) (hfw : Ign.fw φ) (hfab : Ign.fab φ) (houts : Ign.outs φ) (s : State) (i : Nat) (n : Nat) (data : List Byte) : φ (State.sendChunk s i n data) = φ s := by
  unfold State.sendChunk
  try dsimp only
  (repeat' split) <;> first | (simp only [State.post_keeps hclk hregs hmem hsynd hsoft hhost hstops hgate hcmd hpcie hflt hfab houts, hclk, hregs, hmem, hsynd, hsoft, hhost, hstops, hgate, hcmd, hpcie, hflt, hfw, hfab, houts, ite_keeps φ, foldl_keeps φ, foldlPair_keeps φ, foldlJob_keeps φ, foldlJobPair_keeps φ, foldr_keeps φ, ite_st, ite_fst, ite_self, implies_true]; done) | rfl
theorem State.fwForward_keeps {φ : State → β} (hclk : Ign.clk φ) (hregs : Ign.regs φ) (hmem : Ign.mem φ) (hsynd : Ign.synd φ) (hsoft : Ign.soft φ) (hhost : Ign.host φ) (hstops : Ign.stops φ) (hgate : Ign.gate φ) (hcmd : Ign.cmd φ) (hpcie : Ign.pcie φ) (hflt : Ign.flt φ) (hfw : Ign.fw φ) (hfab : Ign.fab φ) (houts : Ign.outs φ) (s : State) (n : Nat) (data : List Byte) : φ (State.fwForward s n data) = φ s := by
  unfold State.fwForward
  try dsimp only
  (repeat' split) <;> first | (simp only [State.sendChunk_keeps hclk hregs hmem hsynd hsoft hhost hstops hgate hcmd hpcie hflt hfw hfab houts, hclk, hregs, hmem, hsynd, hsoft, hhost, hstops, hgate, hcmd, hpcie, hflt, hfw, hfab, houts, ite_keeps φ, foldl_keeps φ, foldlPair_keeps φ, foldlJob_keeps φ, foldlJobPair_keeps φ, foldr_keeps φ, ite_st, ite_fst, ite_self, implies_true]; done) | rfl
theorem State.stageReturn_keeps {φ : State → β} (hclk : Ign.clk φ) (hregs : Ign.regs φ) (hmem : Ign.mem φ) (hsynd : Ign.synd φ) (hsoft : Ign.soft φ) (hhost : Ign.host φ) (hstops : Ign.stops φ) (hgate : Ign.gate φ) (hcmd : Ign.cmd φ) (hpcie : Ign.pcie φ) (hflt : Ign.flt φ) (hsec : Ign.sec φ) (hfw : Ign.fw φ) (hfab : Ign.fab φ) (hboot : Ign.boot φ) (houts : Ign.outs φ) (s : State) (qp : Nat) (idx : Nat) (ok : Bool) (data : List Byte) : φ (State.stageReturn s qp idx ok data) = φ s := by
  unfold State.stageReturn
  try dsimp only
  (repeat' split) <;> first | (simp only [State.chunkCame_keeps hfw, State.complete_keeps hregs hhost hcmd hpcie hflt houts, State.event_keeps hregs, State.fwForward_keeps hclk hregs hmem hsynd hsoft hhost hstops hgate hcmd hpcie hflt hfw hfab houts, State.fwStore_keeps hregs hmem hsynd hsoft hstops hgate hflt hfw, State.fwTryMark_keeps hclk hregs hmem hsynd hsoft hhost hstops hgate hcmd hpcie hflt hsec hfw hfab hboot houts, hclk, hregs, hmem, hsynd, hsoft, hhost, hstops, hgate, hcmd, hpcie, hflt, hsec, hfw, hfab, hboot, houts, ite_keeps φ, foldl_keeps φ, foldlPair_keeps φ, foldlJob_keeps φ, foldlJobPair_keeps φ, foldr_keeps φ, ite_st, ite_fst, ite_self, implies_true]; done) | rfl
theorem State.withFence_keeps {φ : State → β} (hregs : Ign.regs φ) (hhost : Ign.host φ) (hcmd : Ign.cmd φ) (hpcie : Ign.pcie φ) (hflt : Ign.flt φ) (houts : Ign.outs φ) (s : State) (q : Nat) (idx : Nat) (scope : Nat) (start : State → Descr → State) (again : State → Descr → State) (hkstart : ∀ s0 s1, φ (start s0 s1) = φ s0) (hkagain : ∀ s0 s1, φ (again s0 s1) = φ s0) : φ (State.withFence s q idx scope start again) = φ s := by
  unfold State.withFence
  try dsimp only
  (repeat' split) <;> first | (simp only [State.complete_keeps hregs hhost hcmd hpcie hflt houts, State.markStarted_keeps hcmd, State.withDescr_keeps hregs hhost hcmd hpcie hflt houts, hregs, hhost, hcmd, hpcie, hflt, houts, ite_keeps φ, foldl_keeps φ, foldlPair_keeps φ, foldlJob_keeps φ, foldlJobPair_keeps φ, foldr_keeps φ, ite_st, ite_fst, ite_self, implies_true, hkstart, hkagain]; done) | rfl
theorem State.alertStep_keeps {φ : State → β} (hthm : Ign.thm φ) (hbrd : Ign.brd φ) (s : State) (w : Nat) : φ (State.alertStep s w) = φ s := by
  unfold State.alertStep
  try dsimp only
  (repeat' split) <;> first | (simp only [State.alert_keeps hbrd, hthm, hbrd, ite_keeps φ, foldl_keeps φ, foldlPair_keeps φ, foldlJob_keeps φ, foldlJobPair_keeps φ, foldr_keeps φ, ite_st, ite_fst, ite_self, implies_true]; done) | rfl
theorem State.holdFor_keeps {φ : State → β} (hfab : Ign.fab φ) (s : State) (i : Nat) (m : RxMsg) : φ (State.holdFor s i m) = φ s := by
  unfold State.holdFor
  try dsimp only
  (repeat' split) <;> first | (simp only [State.setPeer_keeps hfab, hfab, ite_keeps φ, foldl_keeps φ, foldlPair_keeps φ, foldlJob_keeps φ, foldlJobPair_keeps φ, foldr_keeps φ, ite_st, ite_fst, ite_self, implies_true]; done) | rfl
theorem State.mbxReturn_keeps {φ : State → β} (hclk : Ign.clk φ) (hregs : Ign.regs φ) (hmem : Ign.mem φ) (hsynd : Ign.synd φ) (hsoft : Ign.soft φ) (hspm : Ign.spm φ) (hspmErr : Ign.spmErr φ) (hhost : Ign.host φ) (htiles : Ign.tiles φ) (hstops : Ign.stops φ) (hgate : Ign.gate φ) (hpcie : Ign.pcie φ) (hflt : Ign.flt φ) (hsec : Ign.sec φ) (houts : Ign.outs φ) (s : State) (m : Nat) (ok : Bool) (data : List Byte) : φ (State.mbxReturn s m ok data) = φ s := by
  unfold State.mbxReturn
  try dsimp only
  (repeat' split) <;> first | (simp only [State.mbxAct_keeps hclk hregs hmem hsynd hsoft hspm hspmErr hhost htiles hstops hgate hpcie hflt hsec houts, State.mbxEnd_keeps hregs hhost hpcie houts, hclk, hregs, hmem, hsynd, hsoft, hspm, hspmErr, hhost, htiles, hstops, hgate, hpcie, hflt, hsec, houts, ite_keeps φ, foldl_keeps φ, foldlPair_keeps φ, foldlJob_keeps φ, foldlJobPair_keeps φ, foldr_keeps φ, ite_st, ite_fst, ite_self, implies_true]; done) | rfl
theorem State.portFence_keeps {φ : State → β} (hregs : Ign.regs φ) (hflt : Ign.flt φ) (hfab : Ign.fab φ) (s : State) (p : Nat) (raises : Bool) : φ (State.portFence s p raises) = φ s := by
  unfold State.portFence
  try dsimp only
  (repeat' split) <;> first | (simp only [State.event_keeps hregs, State.portDark_keeps hregs hfab, State.raise_keeps hflt, State.setPortState_keeps hregs, hregs, hflt, hfab, ite_keeps φ, foldl_keeps φ, foldlPair_keeps φ, foldlJob_keeps φ, foldlJobPair_keeps φ, foldr_keeps φ, ite_st, ite_fst, ite_self, implies_true]; done) | rfl
theorem State.inStart_keeps {φ : State → β} (hclk : Ign.clk φ) (hregs : Ign.regs φ) (hmem : Ign.mem φ) (hsynd : Ign.synd φ) (hsoft : Ign.soft φ) (hhost : Ign.host φ) (hstops : Ign.stops φ) (hgate : Ign.gate φ) (hcmd : Ign.cmd φ) (hpcie : Ign.pcie φ) (hflt : Ign.flt φ) (hkv : Ign.kv φ) (houts : Ign.outs φ) (s : State) (c : Nat) (desc : Option (Nat × Nat)) (named : List Nat) : φ (State.inStart s c desc named).1 = φ s := by
  unfold State.inStart
  try dsimp only
  (repeat' split) <;> first
    | (simp only [Job.entry_keeps hregs hmem hsynd hsoft hstops hgate hflt, Job.finish_keeps hregs hmem hsynd hsoft hstops hgate hflt hkv, Job.map_keeps , Job.pop_keeps hregs hmem hsynd hsoft hstops hgate hflt hkv, Job.pte_keeps hregs hmem hsynd hsoft hstops hgate hflt, Job.putEntry_keeps hregs hmem hsynd hsoft hstops hgate hflt, State.inEnds_keeps hregs hmem hsynd hsoft hhost hstops hgate hcmd hpcie hflt hkv houts, State.placeOf_keeps hclk hregs hmem hsynd hsoft hstops hgate hflt, State.preempt_keeps hclk hregs hmem hsynd hsoft hhost hstops hgate hcmd hpcie hflt hkv houts, State.setIn_keeps hkv, hclk, hregs, hmem, hsynd, hsoft, hhost, hstops, hgate, hcmd, hpcie, hflt, hkv, houts, ite_keeps φ, foldl_keeps φ, foldlPair_keeps φ, foldlJob_keeps φ, foldlJobPair_keeps φ, foldr_keeps φ, ite_st, ite_fst, ite_self, implies_true]; done)
    | (simp only [Job.entry_keeps hregs hmem hsynd hsoft hstops hgate hflt, Job.finish_keeps hregs hmem hsynd hsoft hstops hgate hflt hkv, Job.map_keeps , Job.pop_keeps hregs hmem hsynd hsoft hstops hgate hflt hkv, Job.pte_keeps hregs hmem hsynd hsoft hstops hgate hflt, Job.putEntry_keeps hregs hmem hsynd hsoft hstops hgate hflt, State.inEnds_keeps hregs hmem hsynd hsoft hhost hstops hgate hcmd hpcie hflt hkv houts, State.placeOf_keeps hclk hregs hmem hsynd hsoft hstops hgate hflt, State.preempt_keeps hclk hregs hmem hsynd hsoft hhost hstops hgate hcmd hpcie hflt hkv houts, State.setIn_keeps hkv, hclk, hregs, hmem, hsynd, hsoft, hhost, hstops, hgate, hcmd, hpcie, hflt, hkv, houts, ite_keeps φ, foldl_keeps φ, foldlPair_keeps φ, foldlJob_keeps φ, foldlJobPair_keeps φ, foldr_keeps φ, ite_st, ite_fst, ite_self, implies_true]; exact of_fst (by assumption) (by simp only [Job.entry_keeps hregs hmem hsynd hsoft hstops hgate hflt, Job.finish_keeps hregs hmem hsynd hsoft hstops hgate hflt hkv, Job.map_keeps , Job.pop_keeps hregs hmem hsynd hsoft hstops hgate hflt hkv, Job.pte_keeps hregs hmem hsynd hsoft hstops hgate hflt, Job.putEntry_keeps hregs hmem hsynd hsoft hstops hgate hflt, State.inEnds_keeps hregs hmem hsynd hsoft hhost hstops hgate hcmd hpcie hflt hkv houts, State.placeOf_keeps hclk hregs hmem hsynd hsoft hstops hgate hflt, State.preempt_keeps hclk hregs hmem hsynd hsoft hhost hstops hgate hcmd hpcie hflt hkv houts, State.setIn_keeps hkv, hclk, hregs, hmem, hsynd, hsoft, hhost, hstops, hgate, hcmd, hpcie, hflt, hkv, houts, ite_keeps φ, foldl_keeps φ, foldlPair_keeps φ, foldlJob_keeps φ, foldlJobPair_keeps φ, foldr_keeps φ, ite_st, ite_fst, ite_self, implies_true]))
    | exact (Job.finish_keeps hregs hmem hsynd hsoft hstops hgate hflt hkv _ _ (by simp only [Job.entry_keeps hregs hmem hsynd hsoft hstops hgate hflt, Job.finish_keeps hregs hmem hsynd hsoft hstops hgate hflt hkv, Job.map_keeps , Job.pop_keeps hregs hmem hsynd hsoft hstops hgate hflt hkv, Job.pte_keeps hregs hmem hsynd hsoft hstops hgate hflt, Job.putEntry_keeps hregs hmem hsynd hsoft hstops hgate hflt, State.inEnds_keeps hregs hmem hsynd hsoft hhost hstops hgate hcmd hpcie hflt hkv houts, State.placeOf_keeps hclk hregs hmem hsynd hsoft hstops hgate hflt, State.preempt_keeps hclk hregs hmem hsynd hsoft hhost hstops hgate hcmd hpcie hflt hkv houts, State.setIn_keeps hkv, hclk, hregs, hmem, hsynd, hsoft, hhost, hstops, hgate, hcmd, hpcie, hflt, hkv, houts, ite_keeps φ, foldl_keeps φ, foldlPair_keeps φ, foldlJob_keeps φ, foldlJobPair_keeps φ, foldr_keeps φ, ite_st, ite_fst, ite_self, implies_true])).trans (by first | rfl | simp only [Job.entry_keeps hregs hmem hsynd hsoft hstops hgate hflt, Job.finish_keeps hregs hmem hsynd hsoft hstops hgate hflt hkv, Job.map_keeps , Job.pop_keeps hregs hmem hsynd hsoft hstops hgate hflt hkv, Job.pte_keeps hregs hmem hsynd hsoft hstops hgate hflt, Job.putEntry_keeps hregs hmem hsynd hsoft hstops hgate hflt, State.inEnds_keeps hregs hmem hsynd hsoft hhost hstops hgate hcmd hpcie hflt hkv houts, State.placeOf_keeps hclk hregs hmem hsynd hsoft hstops hgate hflt, State.preempt_keeps hclk hregs hmem hsynd hsoft hhost hstops hgate hcmd hpcie hflt hkv houts, State.setIn_keeps hkv, hclk, hregs, hmem, hsynd, hsoft, hhost, hstops, hgate, hcmd, hpcie, hflt, hkv, houts, ite_keeps φ, foldl_keeps φ, foldlPair_keeps φ, foldlJob_keeps φ, foldlJobPair_keeps φ, foldr_keeps φ, ite_st, ite_fst, ite_self, implies_true])
    | exact (Job.finish_keeps hregs hmem hsynd hsoft hstops hgate hflt hkv _ _ (by simp only [Job.entry_keeps hregs hmem hsynd hsoft hstops hgate hflt, Job.finish_keeps hregs hmem hsynd hsoft hstops hgate hflt hkv, Job.map_keeps , Job.pop_keeps hregs hmem hsynd hsoft hstops hgate hflt hkv, Job.pte_keeps hregs hmem hsynd hsoft hstops hgate hflt, Job.putEntry_keeps hregs hmem hsynd hsoft hstops hgate hflt, State.inEnds_keeps hregs hmem hsynd hsoft hhost hstops hgate hcmd hpcie hflt hkv houts, State.placeOf_keeps hclk hregs hmem hsynd hsoft hstops hgate hflt, State.preempt_keeps hclk hregs hmem hsynd hsoft hhost hstops hgate hcmd hpcie hflt hkv houts, State.setIn_keeps hkv, hclk, hregs, hmem, hsynd, hsoft, hhost, hstops, hgate, hcmd, hpcie, hflt, hkv, houts, ite_keeps φ, foldl_keeps φ, foldlPair_keeps φ, foldlJob_keeps φ, foldlJobPair_keeps φ, foldr_keeps φ, ite_st, ite_fst, ite_self, implies_true])).trans (of_fst (by assumption) (by simp only [Job.entry_keeps hregs hmem hsynd hsoft hstops hgate hflt, Job.finish_keeps hregs hmem hsynd hsoft hstops hgate hflt hkv, Job.map_keeps , Job.pop_keeps hregs hmem hsynd hsoft hstops hgate hflt hkv, Job.pte_keeps hregs hmem hsynd hsoft hstops hgate hflt, Job.putEntry_keeps hregs hmem hsynd hsoft hstops hgate hflt, State.inEnds_keeps hregs hmem hsynd hsoft hhost hstops hgate hcmd hpcie hflt hkv houts, State.placeOf_keeps hclk hregs hmem hsynd hsoft hstops hgate hflt, State.preempt_keeps hclk hregs hmem hsynd hsoft hhost hstops hgate hcmd hpcie hflt hkv houts, State.setIn_keeps hkv, hclk, hregs, hmem, hsynd, hsoft, hhost, hstops, hgate, hcmd, hpcie, hflt, hkv, houts, ite_keeps φ, foldl_keeps φ, foldlPair_keeps φ, foldlJob_keeps φ, foldlJobPair_keeps φ, foldr_keeps φ, ite_st, ite_fst, ite_self, implies_true]))
    | (simp only [Job.entry_keeps hregs hmem hsynd hsoft hstops hgate hflt, Job.finish_keeps hregs hmem hsynd hsoft hstops hgate hflt hkv, Job.map_keeps , Job.pop_keeps hregs hmem hsynd hsoft hstops hgate hflt hkv, Job.pte_keeps hregs hmem hsynd hsoft hstops hgate hflt, Job.putEntry_keeps hregs hmem hsynd hsoft hstops hgate hflt, State.inEnds_keeps hregs hmem hsynd hsoft hhost hstops hgate hcmd hpcie hflt hkv houts, State.placeOf_keeps hclk hregs hmem hsynd hsoft hstops hgate hflt, State.preempt_keeps hclk hregs hmem hsynd hsoft hhost hstops hgate hcmd hpcie hflt hkv houts, State.setIn_keeps hkv, hclk, hregs, hmem, hsynd, hsoft, hhost, hstops, hgate, hcmd, hpcie, hflt, hkv, houts, ite_keeps φ, foldl_keeps φ, foldlPair_keeps φ, foldlJob_keeps φ, foldlJobPair_keeps φ, foldr_keeps φ, ite_st, ite_fst, ite_self, implies_true]; exact (Job.finish_keeps hregs hmem hsynd hsoft hstops hgate hflt hkv _ _ (by simp only [Job.entry_keeps hregs hmem hsynd hsoft hstops hgate hflt, Job.finish_keeps hregs hmem hsynd hsoft hstops hgate hflt hkv, Job.map_keeps , Job.pop_keeps hregs hmem hsynd hsoft hstops hgate hflt hkv, Job.pte_keeps hregs hmem hsynd hsoft hstops hgate hflt, Job.putEntry_keeps hregs hmem hsynd hsoft hstops hgate hflt, State.inEnds_keeps hregs hmem hsynd hsoft hhost hstops hgate hcmd hpcie hflt hkv houts, State.placeOf_keeps hclk hregs hmem hsynd hsoft hstops hgate hflt, State.preempt_keeps hclk hregs hmem hsynd hsoft hhost hstops hgate hcmd hpcie hflt hkv houts, State.setIn_keeps hkv, hclk, hregs, hmem, hsynd, hsoft, hhost, hstops, hgate, hcmd, hpcie, hflt, hkv, houts, ite_keeps φ, foldl_keeps φ, foldlPair_keeps φ, foldlJob_keeps φ, foldlJobPair_keeps φ, foldr_keeps φ, ite_st, ite_fst, ite_self, implies_true])).trans (by first | rfl | simp only [Job.entry_keeps hregs hmem hsynd hsoft hstops hgate hflt, Job.finish_keeps hregs hmem hsynd hsoft hstops hgate hflt hkv, Job.map_keeps , Job.pop_keeps hregs hmem hsynd hsoft hstops hgate hflt hkv, Job.pte_keeps hregs hmem hsynd hsoft hstops hgate hflt, Job.putEntry_keeps hregs hmem hsynd hsoft hstops hgate hflt, State.inEnds_keeps hregs hmem hsynd hsoft hhost hstops hgate hcmd hpcie hflt hkv houts, State.placeOf_keeps hclk hregs hmem hsynd hsoft hstops hgate hflt, State.preempt_keeps hclk hregs hmem hsynd hsoft hhost hstops hgate hcmd hpcie hflt hkv houts, State.setIn_keeps hkv, hclk, hregs, hmem, hsynd, hsoft, hhost, hstops, hgate, hcmd, hpcie, hflt, hkv, houts, ite_keeps φ, foldl_keeps φ, foldlPair_keeps φ, foldlJob_keeps φ, foldlJobPair_keeps φ, foldr_keeps φ, ite_st, ite_fst, ite_self, implies_true]))
    | (simp only [Job.entry_keeps hregs hmem hsynd hsoft hstops hgate hflt, Job.finish_keeps hregs hmem hsynd hsoft hstops hgate hflt hkv, Job.map_keeps , Job.pop_keeps hregs hmem hsynd hsoft hstops hgate hflt hkv, Job.pte_keeps hregs hmem hsynd hsoft hstops hgate hflt, Job.putEntry_keeps hregs hmem hsynd hsoft hstops hgate hflt, State.inEnds_keeps hregs hmem hsynd hsoft hhost hstops hgate hcmd hpcie hflt hkv houts, State.placeOf_keeps hclk hregs hmem hsynd hsoft hstops hgate hflt, State.preempt_keeps hclk hregs hmem hsynd hsoft hhost hstops hgate hcmd hpcie hflt hkv houts, State.setIn_keeps hkv, hclk, hregs, hmem, hsynd, hsoft, hhost, hstops, hgate, hcmd, hpcie, hflt, hkv, houts, ite_keeps φ, foldl_keeps φ, foldlPair_keeps φ, foldlJob_keeps φ, foldlJobPair_keeps φ, foldr_keeps φ, ite_st, ite_fst, ite_self, implies_true]; exact (Job.finish_keeps hregs hmem hsynd hsoft hstops hgate hflt hkv _ _ (by simp only [Job.entry_keeps hregs hmem hsynd hsoft hstops hgate hflt, Job.finish_keeps hregs hmem hsynd hsoft hstops hgate hflt hkv, Job.map_keeps , Job.pop_keeps hregs hmem hsynd hsoft hstops hgate hflt hkv, Job.pte_keeps hregs hmem hsynd hsoft hstops hgate hflt, Job.putEntry_keeps hregs hmem hsynd hsoft hstops hgate hflt, State.inEnds_keeps hregs hmem hsynd hsoft hhost hstops hgate hcmd hpcie hflt hkv houts, State.placeOf_keeps hclk hregs hmem hsynd hsoft hstops hgate hflt, State.preempt_keeps hclk hregs hmem hsynd hsoft hhost hstops hgate hcmd hpcie hflt hkv houts, State.setIn_keeps hkv, hclk, hregs, hmem, hsynd, hsoft, hhost, hstops, hgate, hcmd, hpcie, hflt, hkv, houts, ite_keeps φ, foldl_keeps φ, foldlPair_keeps φ, foldlJob_keeps φ, foldlJobPair_keeps φ, foldr_keeps φ, ite_st, ite_fst, ite_self, implies_true])).trans (of_fst (by assumption) (by simp only [Job.entry_keeps hregs hmem hsynd hsoft hstops hgate hflt, Job.finish_keeps hregs hmem hsynd hsoft hstops hgate hflt hkv, Job.map_keeps , Job.pop_keeps hregs hmem hsynd hsoft hstops hgate hflt hkv, Job.pte_keeps hregs hmem hsynd hsoft hstops hgate hflt, Job.putEntry_keeps hregs hmem hsynd hsoft hstops hgate hflt, State.inEnds_keeps hregs hmem hsynd hsoft hhost hstops hgate hcmd hpcie hflt hkv houts, State.placeOf_keeps hclk hregs hmem hsynd hsoft hstops hgate hflt, State.preempt_keeps hclk hregs hmem hsynd hsoft hhost hstops hgate hcmd hpcie hflt hkv houts, State.setIn_keeps hkv, hclk, hregs, hmem, hsynd, hsoft, hhost, hstops, hgate, hcmd, hpcie, hflt, hkv, houts, ite_keeps φ, foldl_keeps φ, foldlPair_keeps φ, foldlJob_keeps φ, foldlJobPair_keeps φ, foldr_keeps φ, ite_st, ite_fst, ite_self, implies_true])))
theorem State.beginItem_keeps {φ : State → β} (hclk : Ign.clk φ) (hregs : Ign.regs φ) (hmem : Ign.mem φ) (hsynd : Ign.synd φ) (hsoft : Ign.soft φ) (hhost : Ign.host φ) (hstops : Ign.stops φ) (hgate : Ign.gate φ) (hcmd : Ign.cmd φ) (hpcie : Ign.pcie φ) (hflt : Ign.flt φ) (hkv : Ign.kv φ) (houts : Ign.outs φ) (s : State) (f : Nat) (c : Nat) (n : Nat) (tokDa : Nat) (named : List Nat) : φ (State.beginItem s f c n tokDa named).1 = φ s := by
  unfold State.beginItem
  try dsimp only
  (repeat' split) <;> (try dsimp only) <;> first
    | (simp only [State.beginOpen_keeps hclk hregs hmem hsynd hsoft hhost hstops hgate hcmd hpcie hflt hkv houts, State.daRead_keeps hregs hmem hsynd hsoft hstops hgate hflt, State.failEntry_keeps hclk, State.inStart_keeps hclk hregs hmem hsynd hsoft hhost hstops hgate hcmd hpcie hflt hkv houts, State.itemEntry_keeps hregs hmem hsynd hsoft hstops hgate hflt hkv, hclk, hregs, hmem, hsynd, hsoft, hhost, hstops, hgate, hcmd, hpcie, hflt, hkv, houts, ite_keeps φ, foldl_keeps φ, foldlPair_keeps φ, foldlJob_keeps φ, foldlJobPair_keeps φ, foldr_keeps φ, ite_st, ite_fst, ite_self, implies_true]; done)
    | rfl
    | exact of_fst (by assumption) (by simp only [State.beginOpen_keeps hclk hregs hmem hsynd hsoft hhost hstops hgate hcmd hpcie hflt hkv houts, State.daRead_keeps hregs hmem hsynd hsoft hstops hgate hflt, State.failEntry_keeps hclk, State.inStart_keeps hclk hregs hmem hsynd hsoft hhost hstops hgate hcmd hpcie hflt hkv houts, State.itemEntry_keeps hregs hmem hsynd hsoft hstops hgate hflt hkv, hclk, hregs, hmem, hsynd, hsoft, hhost, hstops, hgate, hcmd, hpcie, hflt, hkv, houts, ite_keeps φ, foldl_keeps φ, foldlPair_keeps φ, foldlJob_keeps φ, foldlJobPair_keeps φ, foldr_keeps φ, ite_st, ite_fst, ite_self, implies_true])
    | (simp only [State.beginOpen_keeps hclk hregs hmem hsynd hsoft hhost hstops hgate hcmd hpcie hflt hkv houts, State.daRead_keeps hregs hmem hsynd hsoft hstops hgate hflt, State.failEntry_keeps hclk, State.inStart_keeps hclk hregs hmem hsynd hsoft hhost hstops hgate hcmd hpcie hflt hkv houts, State.itemEntry_keeps hregs hmem hsynd hsoft hstops hgate hflt hkv, hclk, hregs, hmem, hsynd, hsoft, hhost, hstops, hgate, hcmd, hpcie, hflt, hkv, houts, ite_keeps φ, foldl_keeps φ, foldlPair_keeps φ, foldlJob_keeps φ, foldlJobPair_keeps φ, foldr_keeps φ, ite_st, ite_fst, ite_self, implies_true]; exact of_fst (by assumption) (by simp only [State.beginOpen_keeps hclk hregs hmem hsynd hsoft hhost hstops hgate hcmd hpcie hflt hkv houts, State.daRead_keeps hregs hmem hsynd hsoft hstops hgate hflt, State.failEntry_keeps hclk, State.inStart_keeps hclk hregs hmem hsynd hsoft hhost hstops hgate hcmd hpcie hflt hkv houts, State.itemEntry_keeps hregs hmem hsynd hsoft hstops hgate hflt hkv, hclk, hregs, hmem, hsynd, hsoft, hhost, hstops, hgate, hcmd, hpcie, hflt, hkv, houts, ite_keeps φ, foldl_keeps φ, foldlPair_keeps φ, foldlJob_keeps φ, foldlJobPair_keeps φ, foldr_keeps φ, ite_st, ite_fst, ite_self, implies_true]))
theorem State.endItem_keeps {φ : State → β} (hclk : Ign.clk φ) (hregs : Ign.regs φ) (hmem : Ign.mem φ) (hsynd : Ign.synd φ) (hsoft : Ign.soft φ) (hstops : Ign.stops φ) (hgate : Ign.gate φ) (hflt : Ign.flt φ) (hkv : Ign.kv φ) (s : State) (f : Nat) (c : Nat) : φ (State.endItem s f c).1 = φ s := by
  unfold State.endItem
  try dsimp only
  (repeat' split) <;> first
    | (simp only [Job.finish_keeps hregs hmem hsynd hsoft hstops hgate hflt hkv, Job.map_keeps , Job.pageWord_keeps hregs hmem hsynd hsoft hstops hgate hflt, Job.pte_keeps hregs hmem hsynd hsoft hstops hgate hflt, Job.putEntry_keeps hregs hmem hsynd hsoft hstops hgate hflt, Job.putPage_keeps hregs hmem hsynd hsoft hstops hgate hflt, Job.refUp_keeps hregs hmem hsynd hsoft hstops hgate hflt, Job.write_keeps hregs hmem hsynd hsoft hstops hgate hflt, State.dirUse_keeps hkv, State.failEntry_keeps hclk, State.itemEntry_keeps hregs hmem hsynd hsoft hstops hgate hflt hkv, State.nodeRead_keeps hregs hmem hsynd hsoft hstops hgate hflt, hclk, hregs, hmem, hsynd, hsoft, hstops, hgate, hflt, hkv, ite_keeps φ, foldl_keeps φ, foldlPair_keeps φ, foldlJob_keeps φ, foldlJobPair_keeps φ, foldr_keeps φ, ite_st, ite_fst, ite_self, implies_true]; done)
    | (simp only [Job.finish_keeps hregs hmem hsynd hsoft hstops hgate hflt hkv, Job.map_keeps , Job.pageWord_keeps hregs hmem hsynd hsoft hstops hgate hflt, Job.pte_keeps hregs hmem hsynd hsoft hstops hgate hflt, Job.putEntry_keeps hregs hmem hsynd hsoft hstops hgate hflt, Job.putPage_keeps hregs hmem hsynd hsoft hstops hgate hflt, Job.refUp_keeps hregs hmem hsynd hsoft hstops hgate hflt, Job.write_keeps hregs hmem hsynd hsoft hstops hgate hflt, State.dirUse_keeps hkv, State.failEntry_keeps hclk, State.itemEntry_keeps hregs hmem hsynd hsoft hstops hgate hflt hkv, State.nodeRead_keeps hregs hmem hsynd hsoft hstops hgate hflt, hclk, hregs, hmem, hsynd, hsoft, hstops, hgate, hflt, hkv, ite_keeps φ, foldl_keeps φ, foldlPair_keeps φ, foldlJob_keeps φ, foldlJobPair_keeps φ, foldr_keeps φ, ite_st, ite_fst, ite_self, implies_true]; exact of_fst (by assumption) (by simp only [Job.finish_keeps hregs hmem hsynd hsoft hstops hgate hflt hkv, Job.map_keeps , Job.pageWord_keeps hregs hmem hsynd hsoft hstops hgate hflt, Job.pte_keeps hregs hmem hsynd hsoft hstops hgate hflt, Job.putEntry_keeps hregs hmem hsynd hsoft hstops hgate hflt, Job.putPage_keeps hregs hmem hsynd hsoft hstops hgate hflt, Job.refUp_keeps hregs hmem hsynd hsoft hstops hgate hflt, Job.write_keeps hregs hmem hsynd hsoft hstops hgate hflt, State.dirUse_keeps hkv, State.failEntry_keeps hclk, State.itemEntry_keeps hregs hmem hsynd hsoft hstops hgate hflt hkv, State.nodeRead_keeps hregs hmem hsynd hsoft hstops hgate hflt, hclk, hregs, hmem, hsynd, hsoft, hstops, hgate, hflt, hkv, ite_keeps φ, foldl_keeps φ, foldlPair_keeps φ, foldlJob_keeps φ, foldlJobPair_keeps φ, foldr_keeps φ, ite_st, ite_fst, ite_self, implies_true]))
    | exact (Job.finish_keeps hregs hmem hsynd hsoft hstops hgate hflt hkv _ _ (by simp only [Job.finish_keeps hregs hmem hsynd hsoft hstops hgate hflt hkv, Job.map_keeps , Job.pageWord_keeps hregs hmem hsynd hsoft hstops hgate hflt, Job.pte_keeps hregs hmem hsynd hsoft hstops hgate hflt, Job.putEntry_keeps hregs hmem hsynd hsoft hstops hgate hflt, Job.putPage_keeps hregs hmem hsynd hsoft hstops hgate hflt, Job.refUp_keeps hregs hmem hsynd hsoft hstops hgate hflt, Job.write_keeps hregs hmem hsynd hsoft hstops hgate hflt, State.dirUse_keeps hkv, State.failEntry_keeps hclk, State.itemEntry_keeps hregs hmem hsynd hsoft hstops hgate hflt hkv, State.nodeRead_keeps hregs hmem hsynd hsoft hstops hgate hflt, hclk, hregs, hmem, hsynd, hsoft, hstops, hgate, hflt, hkv, ite_keeps φ, foldl_keeps φ, foldlPair_keeps φ, foldlJob_keeps φ, foldlJobPair_keeps φ, foldr_keeps φ, ite_st, ite_fst, ite_self, implies_true])).trans (by first | rfl | simp only [Job.finish_keeps hregs hmem hsynd hsoft hstops hgate hflt hkv, Job.map_keeps , Job.pageWord_keeps hregs hmem hsynd hsoft hstops hgate hflt, Job.pte_keeps hregs hmem hsynd hsoft hstops hgate hflt, Job.putEntry_keeps hregs hmem hsynd hsoft hstops hgate hflt, Job.putPage_keeps hregs hmem hsynd hsoft hstops hgate hflt, Job.refUp_keeps hregs hmem hsynd hsoft hstops hgate hflt, Job.write_keeps hregs hmem hsynd hsoft hstops hgate hflt, State.dirUse_keeps hkv, State.failEntry_keeps hclk, State.itemEntry_keeps hregs hmem hsynd hsoft hstops hgate hflt hkv, State.nodeRead_keeps hregs hmem hsynd hsoft hstops hgate hflt, hclk, hregs, hmem, hsynd, hsoft, hstops, hgate, hflt, hkv, ite_keeps φ, foldl_keeps φ, foldlPair_keeps φ, foldlJob_keeps φ, foldlJobPair_keeps φ, foldr_keeps φ, ite_st, ite_fst, ite_self, implies_true])
    | exact (Job.finish_keeps hregs hmem hsynd hsoft hstops hgate hflt hkv _ _ (by simp only [Job.finish_keeps hregs hmem hsynd hsoft hstops hgate hflt hkv, Job.map_keeps , Job.pageWord_keeps hregs hmem hsynd hsoft hstops hgate hflt, Job.pte_keeps hregs hmem hsynd hsoft hstops hgate hflt, Job.putEntry_keeps hregs hmem hsynd hsoft hstops hgate hflt, Job.putPage_keeps hregs hmem hsynd hsoft hstops hgate hflt, Job.refUp_keeps hregs hmem hsynd hsoft hstops hgate hflt, Job.write_keeps hregs hmem hsynd hsoft hstops hgate hflt, State.dirUse_keeps hkv, State.failEntry_keeps hclk, State.itemEntry_keeps hregs hmem hsynd hsoft hstops hgate hflt hkv, State.nodeRead_keeps hregs hmem hsynd hsoft hstops hgate hflt, hclk, hregs, hmem, hsynd, hsoft, hstops, hgate, hflt, hkv, ite_keeps φ, foldl_keeps φ, foldlPair_keeps φ, foldlJob_keeps φ, foldlJobPair_keeps φ, foldr_keeps φ, ite_st, ite_fst, ite_self, implies_true])).trans (of_fst (by assumption) (by simp only [Job.finish_keeps hregs hmem hsynd hsoft hstops hgate hflt hkv, Job.map_keeps , Job.pageWord_keeps hregs hmem hsynd hsoft hstops hgate hflt, Job.pte_keeps hregs hmem hsynd hsoft hstops hgate hflt, Job.putEntry_keeps hregs hmem hsynd hsoft hstops hgate hflt, Job.putPage_keeps hregs hmem hsynd hsoft hstops hgate hflt, Job.refUp_keeps hregs hmem hsynd hsoft hstops hgate hflt, Job.write_keeps hregs hmem hsynd hsoft hstops hgate hflt, State.dirUse_keeps hkv, State.failEntry_keeps hclk, State.itemEntry_keeps hregs hmem hsynd hsoft hstops hgate hflt hkv, State.nodeRead_keeps hregs hmem hsynd hsoft hstops hgate hflt, hclk, hregs, hmem, hsynd, hsoft, hstops, hgate, hflt, hkv, ite_keeps φ, foldl_keeps φ, foldlPair_keeps φ, foldlJob_keeps φ, foldlJobPair_keeps φ, foldr_keeps φ, ite_st, ite_fst, ite_self, implies_true]))
    | (simp only [Job.finish_keeps hregs hmem hsynd hsoft hstops hgate hflt hkv, Job.map_keeps , Job.pageWord_keeps hregs hmem hsynd hsoft hstops hgate hflt, Job.pte_keeps hregs hmem hsynd hsoft hstops hgate hflt, Job.putEntry_keeps hregs hmem hsynd hsoft hstops hgate hflt, Job.putPage_keeps hregs hmem hsynd hsoft hstops hgate hflt, Job.refUp_keeps hregs hmem hsynd hsoft hstops hgate hflt, Job.write_keeps hregs hmem hsynd hsoft hstops hgate hflt, State.dirUse_keeps hkv, State.failEntry_keeps hclk, State.itemEntry_keeps hregs hmem hsynd hsoft hstops hgate hflt hkv, State.nodeRead_keeps hregs hmem hsynd hsoft hstops hgate hflt, hclk, hregs, hmem, hsynd, hsoft, hstops, hgate, hflt, hkv, ite_keeps φ, foldl_keeps φ, foldlPair_keeps φ, foldlJob_keeps φ, foldlJobPair_keeps φ, foldr_keeps φ, ite_st, ite_fst, ite_self, implies_true]; exact (Job.finish_keeps hregs hmem hsynd hsoft hstops hgate hflt hkv _ _ (by simp only [Job.finish_keeps hregs hmem hsynd hsoft hstops hgate hflt hkv, Job.map_keeps , Job.pageWord_keeps hregs hmem hsynd hsoft hstops hgate hflt, Job.pte_keeps hregs hmem hsynd hsoft hstops hgate hflt, Job.putEntry_keeps hregs hmem hsynd hsoft hstops hgate hflt, Job.putPage_keeps hregs hmem hsynd hsoft hstops hgate hflt, Job.refUp_keeps hregs hmem hsynd hsoft hstops hgate hflt, Job.write_keeps hregs hmem hsynd hsoft hstops hgate hflt, State.dirUse_keeps hkv, State.failEntry_keeps hclk, State.itemEntry_keeps hregs hmem hsynd hsoft hstops hgate hflt hkv, State.nodeRead_keeps hregs hmem hsynd hsoft hstops hgate hflt, hclk, hregs, hmem, hsynd, hsoft, hstops, hgate, hflt, hkv, ite_keeps φ, foldl_keeps φ, foldlPair_keeps φ, foldlJob_keeps φ, foldlJobPair_keeps φ, foldr_keeps φ, ite_st, ite_fst, ite_self, implies_true])).trans (by first | rfl | simp only [Job.finish_keeps hregs hmem hsynd hsoft hstops hgate hflt hkv, Job.map_keeps , Job.pageWord_keeps hregs hmem hsynd hsoft hstops hgate hflt, Job.pte_keeps hregs hmem hsynd hsoft hstops hgate hflt, Job.putEntry_keeps hregs hmem hsynd hsoft hstops hgate hflt, Job.putPage_keeps hregs hmem hsynd hsoft hstops hgate hflt, Job.refUp_keeps hregs hmem hsynd hsoft hstops hgate hflt, Job.write_keeps hregs hmem hsynd hsoft hstops hgate hflt, State.dirUse_keeps hkv, State.failEntry_keeps hclk, State.itemEntry_keeps hregs hmem hsynd hsoft hstops hgate hflt hkv, State.nodeRead_keeps hregs hmem hsynd hsoft hstops hgate hflt, hclk, hregs, hmem, hsynd, hsoft, hstops, hgate, hflt, hkv, ite_keeps φ, foldl_keeps φ, foldlPair_keeps φ, foldlJob_keeps φ, foldlJobPair_keeps φ, foldr_keeps φ, ite_st, ite_fst, ite_self, implies_true]))
    | (simp only [Job.finish_keeps hregs hmem hsynd hsoft hstops hgate hflt hkv, Job.map_keeps , Job.pageWord_keeps hregs hmem hsynd hsoft hstops hgate hflt, Job.pte_keeps hregs hmem hsynd hsoft hstops hgate hflt, Job.putEntry_keeps hregs hmem hsynd hsoft hstops hgate hflt, Job.putPage_keeps hregs hmem hsynd hsoft hstops hgate hflt, Job.refUp_keeps hregs hmem hsynd hsoft hstops hgate hflt, Job.write_keeps hregs hmem hsynd hsoft hstops hgate hflt, State.dirUse_keeps hkv, State.failEntry_keeps hclk, State.itemEntry_keeps hregs hmem hsynd hsoft hstops hgate hflt hkv, State.nodeRead_keeps hregs hmem hsynd hsoft hstops hgate hflt, hclk, hregs, hmem, hsynd, hsoft, hstops, hgate, hflt, hkv, ite_keeps φ, foldl_keeps φ, foldlPair_keeps φ, foldlJob_keeps φ, foldlJobPair_keeps φ, foldr_keeps φ, ite_st, ite_fst, ite_self, implies_true]; exact (Job.finish_keeps hregs hmem hsynd hsoft hstops hgate hflt hkv _ _ (by simp only [Job.finish_keeps hregs hmem hsynd hsoft hstops hgate hflt hkv, Job.map_keeps , Job.pageWord_keeps hregs hmem hsynd hsoft hstops hgate hflt, Job.pte_keeps hregs hmem hsynd hsoft hstops hgate hflt, Job.putEntry_keeps hregs hmem hsynd hsoft hstops hgate hflt, Job.putPage_keeps hregs hmem hsynd hsoft hstops hgate hflt, Job.refUp_keeps hregs hmem hsynd hsoft hstops hgate hflt, Job.write_keeps hregs hmem hsynd hsoft hstops hgate hflt, State.dirUse_keeps hkv, State.failEntry_keeps hclk, State.itemEntry_keeps hregs hmem hsynd hsoft hstops hgate hflt hkv, State.nodeRead_keeps hregs hmem hsynd hsoft hstops hgate hflt, hclk, hregs, hmem, hsynd, hsoft, hstops, hgate, hflt, hkv, ite_keeps φ, foldl_keeps φ, foldlPair_keeps φ, foldlJob_keeps φ, foldlJobPair_keeps φ, foldr_keeps φ, ite_st, ite_fst, ite_self, implies_true])).trans (of_fst (by assumption) (by simp only [Job.finish_keeps hregs hmem hsynd hsoft hstops hgate hflt hkv, Job.map_keeps , Job.pageWord_keeps hregs hmem hsynd hsoft hstops hgate hflt, Job.pte_keeps hregs hmem hsynd hsoft hstops hgate hflt, Job.putEntry_keeps hregs hmem hsynd hsoft hstops hgate hflt, Job.putPage_keeps hregs hmem hsynd hsoft hstops hgate hflt, Job.refUp_keeps hregs hmem hsynd hsoft hstops hgate hflt, Job.write_keeps hregs hmem hsynd hsoft hstops hgate hflt, State.dirUse_keeps hkv, State.failEntry_keeps hclk, State.itemEntry_keeps hregs hmem hsynd hsoft hstops hgate hflt hkv, State.nodeRead_keeps hregs hmem hsynd hsoft hstops hgate hflt, hclk, hregs, hmem, hsynd, hsoft, hstops, hgate, hflt, hkv, ite_keeps φ, foldl_keeps φ, foldlPair_keeps φ, foldlJob_keeps φ, foldlJobPair_keeps φ, foldr_keeps φ, ite_st, ite_fst, ite_self, implies_true])))
theorem State.stepGo_keeps {φ : State → β} (hclk : Ign.clk φ) (hregs : Ign.regs φ) (hmem : Ign.mem φ) (hsynd : Ign.synd φ) (hsoft : Ign.soft φ) (hhost : Ign.host φ) (hstops : Ign.stops φ) (hgate : Ign.gate φ) (hcmd : Ign.cmd φ) (hpcie : Ign.pcie φ) (hflt : Ign.flt φ) (hkv : Ign.kv φ) (houts : Ign.outs φ) (x0 : State) (x1 : Bool) (x2 : Nat) (x3 : List Nat) (x4 : Nat) (x5 : List (Nat × Nat)) (x6 : List Byte) (x7 : Nat) (x8 : List (Nat × Nat)) : φ (State.stepGo x0 x1 x2 x3 x4 x5 x6 x7 x8).1 = φ x0 := by
  fun_induction State.stepGo x0 x1 x2 x3 x4 x5 x6 x7 x8 <;> first
    | (simp_all +zetaDelta only [State.beginItem_keeps hclk hregs hmem hsynd hsoft hhost hstops hgate hcmd hpcie hflt hkv houts, State.endItem_keeps hclk hregs hmem hsynd hsoft hstops hgate hflt hkv, State.kvSync_keeps hregs hmem hsynd hsoft, hclk, hregs, hmem, hsynd, hsoft, hhost, hstops, hgate, hcmd, hpcie, hflt, hkv, houts, ite_keeps φ, foldl_keeps φ, foldlPair_keeps φ, foldlJob_keeps φ, foldlJobPair_keeps φ, foldr_keeps φ, ite_st, ite_fst, ite_self, implies_true]; done)
    | (simp +zetaDelta only [State.beginItem_keeps hclk hregs hmem hsynd hsoft hhost hstops hgate hcmd hpcie hflt hkv houts, State.endItem_keeps hclk hregs hmem hsynd hsoft hstops hgate hflt hkv, State.kvSync_keeps hregs hmem hsynd hsoft, hclk, hregs, hmem, hsynd, hsoft, hhost, hstops, hgate, hcmd, hpcie, hflt, hkv, houts, ite_keeps φ, foldl_keeps φ, foldlPair_keeps φ, foldlJob_keeps φ, foldlJobPair_keeps φ, foldr_keeps φ, ite_st, ite_fst, ite_self, implies_true]; done)
    | (simp +zetaDelta only [State.beginItem_keeps hclk hregs hmem hsynd hsoft hhost hstops hgate hcmd hpcie hflt hkv houts, State.endItem_keeps hclk hregs hmem hsynd hsoft hstops hgate hflt hkv, State.kvSync_keeps hregs hmem hsynd hsoft, hclk, hregs, hmem, hsynd, hsoft, hhost, hstops, hgate, hcmd, hpcie, hflt, hkv, houts, ite_keeps φ, foldl_keeps φ, foldlPair_keeps φ, foldlJob_keeps φ, foldlJobPair_keeps φ, foldr_keeps φ, ite_st, ite_fst, ite_self, implies_true]; split <;> simp_all +zetaDelta only [State.beginItem_keeps hclk hregs hmem hsynd hsoft hhost hstops hgate hcmd hpcie hflt hkv houts, State.endItem_keeps hclk hregs hmem hsynd hsoft hstops hgate hflt hkv, State.kvSync_keeps hregs hmem hsynd hsoft, hclk, hregs, hmem, hsynd, hsoft, hhost, hstops, hgate, hcmd, hpcie, hflt, hkv, houts, ite_keeps φ, foldl_keeps φ, foldlPair_keeps φ, foldlJob_keeps φ, foldlJobPair_keeps φ, foldr_keeps φ, ite_st, ite_fst, ite_self, implies_true]; done)
    | (simp_all +zetaDelta [State.beginItem_keeps hclk hregs hmem hsynd hsoft hhost hstops hgate hcmd hpcie hflt hkv houts, State.endItem_keeps hclk hregs hmem hsynd hsoft hstops hgate hflt hkv, State.kvSync_keeps hregs hmem hsynd hsoft, hclk, hregs, hmem, hsynd, hsoft, hhost, hstops, hgate, hcmd, hpcie, hflt, hkv, houts, ite_keeps φ, foldl_keeps φ, foldlPair_keeps φ, foldlJob_keeps φ, foldlJobPair_keeps φ, foldr_keeps φ, ite_st, ite_fst, ite_self, implies_true]; done)
theorem State.seqStep_keeps {φ : State → β} (hclk : Ign.clk φ) (hregs : Ign.regs φ) (hmem : Ign.mem φ) (hsynd : Ign.synd φ) (hsoft : Ign.soft φ) (hhost : Ign.host φ) (hstops : Ign.stops φ) (hgate : Ign.gate φ) (hcmd : Ign.cmd φ) (hpcie : Ign.pcie φ) (hflt : Ign.flt φ) (hkv : Ign.kv φ) (houts : Ign.outs φ) (s : State) (q : Nat) (d : Descr) : φ (State.seqStep s q d) = φ s := by
  unfold State.seqStep
  try dsimp only
  (repeat' split) <;> first | (simp only [State.complete_keeps hregs hhost hcmd hpcie hflt houts, State.daRead_keeps hregs hmem hsynd hsoft hstops hgate hflt, State.daWrite_keeps hregs hmem hsynd hsoft hstops hgate hflt, State.stepGo_keeps hclk hregs hmem hsynd hsoft hhost hstops hgate hcmd hpcie hflt hkv houts, hclk, hregs, hmem, hsynd, hsoft, hhost, hstops, hgate, hcmd, hpcie, hflt, hkv, houts, ite_keeps φ, foldl_keeps φ, foldlPair_keeps φ, foldlJob_keeps φ, foldlJobPair_keeps φ, foldr_keeps φ, ite_st, ite_fst, ite_self, implies_true]; done) | rfl
theorem State.copyAtom_keeps {φ : State → β} (hregs : Ign.regs φ) (hmem : Ign.mem φ) (hsynd : Ign.synd φ) (hsoft : Ign.soft φ) (hstops : Ign.stops φ) (hflt : Ign.flt φ) (s : State) (t : Nat) (v : Nat) (col : Nat) : φ (State.copyAtom s t v col) = φ s := by
  unfold State.copyAtom
  try dsimp only
  (repeat' split) <;> first | (simp only [State.atomRead_keeps hregs hmem hsynd hsoft hstops hflt, State.putPoison_keeps hmem hsynd hsoft, State.putWord_keeps hmem hsynd hsoft, hregs, hmem, hsynd, hsoft, hstops, hflt, ite_keeps φ, foldl_keeps φ, foldlPair_keeps φ, foldlJob_keeps φ, foldlJobPair_keeps φ, foldr_keeps φ, ite_st, ite_fst, ite_self, implies_true]; done) | rfl
theorem State.bscRetire_keeps {φ : State → β} (hregs : Ign.regs φ) (hcores : Ign.cores φ) (s : State) (t : Nat) (c : Nat) (n : Nat) : φ (State.bscRetire s t c n) = φ s := by
  unfold State.bscRetire
  try dsimp only
  (repeat' split) <;> first | (simp only [State.bscJump_keeps hregs hcores, hregs, hcores, ite_keeps φ, foldl_keeps φ, foldlPair_keeps φ, foldlJob_keeps φ, foldlJobPair_keeps φ, foldr_keeps φ, ite_st, ite_fst, ite_self, implies_true]; done) | rfl
theorem State.distrust_keeps {φ : State → β} (hregs : Ign.regs φ) (hflt : Ign.flt φ) (s : State) (w : Nat) (l : List Nat) (v : Nat) : φ (State.distrust s w l v) = φ s := by
  unfold State.distrust
  try dsimp only
  (repeat' split) <;> first | (simp only [State.event_keeps hregs, State.fput_keeps hregs, State.raise_keeps hflt, hregs, hflt, ite_keeps φ, foldl_keeps φ, foldlPair_keeps φ, foldlJob_keeps φ, foldlJobPair_keeps φ, foldr_keeps φ, ite_st, ite_fst, ite_self, implies_true]; done) | rfl
theorem State.divStep_keeps {φ : State → β} (hregs : Ign.regs φ) (hflt : Ign.flt φ) (hthm : Ign.thm φ) (s : State) (w : Nat) (e : Int) (i : Nat) : φ (State.divStep s w e i) = φ s := by
  unfold State.divStep
  try dsimp only
  (repeat' split) <;> first | (simp only [State.distrust_keeps hregs hflt, State.event_keeps hregs, hregs, hflt, hthm, ite_keeps φ, foldl_keeps φ, foldlPair_keeps φ, foldlJob_keeps φ, foldlJobPair_keeps φ, foldr_keeps φ, ite_st, ite_fst, ite_self, implies_true]; done) | rfl
theorem State.pairStep_keeps {φ : State → β} (hregs : Ign.regs φ) (hflt : Ign.flt φ) (hthm : Ign.thm φ) (s : State) (w : Nat) (n : Nat) : φ (State.pairStep s w n) = φ s := by
  unfold State.pairStep
  try dsimp only
  (repeat' split) <;> first | (simp only [State.distrust_keeps hregs hflt, State.event_keeps hregs, State.raise_keeps hflt, hregs, hflt, hthm, ite_keeps φ, foldl_keeps φ, foldlPair_keeps φ, foldlJob_keeps φ, foldlJobPair_keeps φ, foldr_keeps φ, ite_st, ite_fst, ite_self, implies_true]; done) | rfl
theorem State.nodeStep_keeps {φ : State → β} (hregs : Ign.regs φ) (s : State) (w : Nat) (n : Nat) (e : Int) (f : Int) : φ (State.nodeStep s w n e f) = φ s := by
  unfold State.nodeStep
  try dsimp only
  (repeat' split) <;> first | (simp only [State.fput_keeps hregs, hregs, ite_keeps φ, foldl_keeps φ, foldlPair_keeps φ, foldlJob_keeps φ, foldlJobPair_keeps φ, foldr_keeps φ, ite_st, ite_fst, ite_self, implies_true]; done) | rfl
theorem State.raiseStep_keeps {φ : State → β} (hregs : Ign.regs φ) (hthm : Ign.thm φ) (s : State) (w : Nat) (upd : Nat) : φ (State.raiseStep s w upd) = φ s := by
  unfold State.raiseStep
  cases State.hottest s w
  · rfl
  · simp only [Option.map_some, Option.getD_some, State.raiseNode_keeps hregs hthm, hregs, hthm, ite_keeps φ, foldl_keeps φ, foldlPair_keeps φ, foldlJob_keeps φ, foldlJobPair_keeps φ, foldr_keeps φ, ite_st, ite_fst, ite_self, implies_true]
theorem State.fallStep_keeps {φ : State → β} (hregs : Ign.regs φ) (hthm : Ign.thm φ) (s : State) (w : Nat) (n : Nat) : φ (State.fallStep s w n) = φ s := by
  unfold State.fallStep
  try dsimp only
  (repeat' split) <;> first | (simp only [State.fput_keeps hregs, hregs, hthm, ite_keeps φ, foldl_keeps φ, foldlPair_keeps φ, foldlJob_keeps φ, foldlJobPair_keeps φ, foldr_keeps φ, ite_st, ite_fst, ite_self, implies_true]; done) | rfl
theorem State.cond_keeps {φ : State → β} (hflt : Ign.flt φ) (s : State) (ty : Nat) (inst : Nat) (on : Bool) : φ (State.cond s ty inst on) = φ s := by
  unfold State.cond
  try dsimp only
  (repeat' split) <;> first | (simp only [hflt, ite_keeps φ, foldl_keeps φ, foldlPair_keeps φ, foldlJob_keeps φ, foldlJobPair_keeps φ, foldr_keeps φ, ite_st, ite_fst, ite_self, implies_true]; done) | rfl
theorem State.limitStep_keeps {φ : State → β} (hregs : Ign.regs φ) (hflt : Ign.flt φ) (hthm : Ign.thm φ) (s : State) (w : Nat) : φ (State.limitStep s w) = φ s := by
  unfold State.limitStep
  try dsimp only
  (repeat' split) <;> first | (simp only [State.cond_keeps hflt, State.event_keeps hregs, State.fput_keeps hregs, State.raise_keeps hflt, hregs, hflt, hthm, ite_keeps φ, foldl_keeps φ, foldlPair_keeps φ, foldlJob_keeps φ, foldlJobPair_keeps φ, foldr_keeps φ, ite_st, ite_fst, ite_self, implies_true]; done) | rfl
theorem State.layerStep_keeps {φ : State → β} (hregs : Ign.regs φ) (hstops : Ign.stops φ) (hdisps : Ign.disps φ) (hthm : Ign.thm φ) (s : State) (w : Nat) (l : Nat) : φ (State.layerStep s w l) = φ s := by
  have h1 : ∀ x, φ { s with thm := x } = φ s := hthm s
  unfold State.layerStep
  dsimp only
  (repeat' split) <;> first
    | exact h1 _
    | (refine (foldl_keeps φ _ _ _ (fun a x => ?_)).trans (h1 _)
       (repeat' split) <;> simp only [State.detCause_keeps hregs hdisps, State.fadd_keeps hregs, State.fput_keeps hregs, State.reDue_keeps hstops, hregs, hstops, hdisps, hthm, ite_keeps φ, foldl_keeps φ, foldlPair_keeps φ, foldlJob_keeps φ, foldlJobPair_keeps φ, foldr_keeps φ, ite_st, ite_fst, ite_self, implies_true])
theorem State.strictEvent_keeps {φ : State → β} (hregs : Ign.regs φ) (hdisps : Ign.disps φ) (s : State) (t : Nat) (b : Nat) : φ (State.strictEvent s t b) = φ s := by
  unfold State.strictEvent
  try dsimp only
  (repeat' split) <;> first | (simp only [State.detCause_keeps hregs hdisps, State.fadd_keeps hregs, hregs, hdisps, ite_keeps φ, foldl_keeps φ, foldlPair_keeps φ, foldlJob_keeps φ, foldlJobPair_keeps φ, foldr_keeps φ, ite_st, ite_fst, ite_self, implies_true]; done) | rfl
theorem State.throttle_keeps {φ : State → β} (hregs : Ign.regs φ) (hdisps : Ign.disps φ) (s : State) (t : Nat) (n : Nat) : φ (State.throttle s t n) = φ s := by
  unfold State.throttle
  try dsimp only
  (repeat' split) <;> first | (simp only [State.event_keeps hregs, State.strictEvent_keeps hregs hdisps, hregs, hdisps, ite_keeps φ, foldl_keeps φ, foldlPair_keeps φ, foldlJob_keeps φ, foldlJobPair_keeps φ, foldr_keeps φ, ite_st, ite_fst, ite_self, implies_true]; done) | rfl
theorem State.modelUpdate_keeps {φ : State → β} (hclk : Ign.clk φ) (hregs : Ign.regs φ) (hstops : Ign.stops φ) (hdisps : Ign.disps φ) (hflt : Ign.flt φ) (hthm : Ign.thm φ) (hbrd : Ign.brd φ) (s : State) (w : Nat) (es : List Int) (fs : List Int) : φ (State.modelUpdate s w es fs) = φ s := by
  unfold State.modelUpdate
  try dsimp only
  (repeat' split) <;> first | (simp only [State.alertStep_keeps hthm hbrd, State.divStep_keeps hregs hflt hthm, State.fallStep_keeps hregs hthm, State.fput_keeps hregs, State.layerStep_keeps hregs hstops hdisps hthm, State.limitStep_keeps hregs hflt hthm, State.nodeStep_keeps hregs, State.pairStep_keeps hregs hflt hthm, State.raiseStep_keeps hregs hthm, State.tcapShow_keeps hclk hregs, State.throttle_keeps hregs hdisps, hclk, hregs, hstops, hdisps, hflt, hthm, hbrd, ite_keeps φ, foldl_keeps φ, foldlPair_keeps φ, foldlJob_keeps φ, foldlJobPair_keeps φ, foldr_keeps φ, ite_st, ite_fst, ite_self, implies_true]; done) | rfl
theorem State.portDown_keeps {φ : State → β} (hregs : Ign.regs φ) (hflt : Ign.flt φ) (hfab : Ign.fab φ) (s : State) (p : Nat) : φ (State.portDown s p) = φ s := by
  unfold State.portDown
  try dsimp only
  (repeat' split) <;> first | (simp only [State.event_keeps hregs, State.portDark_keeps hregs hfab, State.raise_keeps hflt, State.trainFrom_keeps hregs hfab, hregs, hflt, hfab, ite_keeps φ, foldl_keeps φ, foldlPair_keeps φ, foldlJob_keeps φ, foldlJobPair_keeps φ, foldr_keeps φ, ite_st, ite_fst, ite_self, implies_true]; done) | rfl
theorem State.copyReturn_keeps {φ : State → β} (hclk : Ign.clk φ) (hregs : Ign.regs φ) (hmem : Ign.mem φ) (hsynd : Ign.synd φ) (hsoft : Ign.soft φ) (hspm : Ign.spm φ) (hspmErr : Ign.spmErr φ) (hhost : Ign.host φ) (htiles : Ign.tiles φ) (hstops : Ign.stops φ) (hgate : Ign.gate φ) (hcmd : Ign.cmd φ) (hpcie : Ign.pcie φ) (hflt : Ign.flt φ) (hsec : Ign.sec φ) (houts : Ign.outs φ) (s : State) (qp : Nat) (idx : Nat) (ok : Bool) (data : List Byte) (portA : List Nat) : φ (State.copyReturn s qp idx ok data portA) = φ s := by
  unfold State.copyReturn
  try dsimp only
  (repeat' split) <;> first | (simp only [State.complete_keeps hregs hhost hcmd hpcie hflt houts, State.copyEnds_keeps hregs hhost hcmd hpcie hflt houts, State.copyIn_keeps hclk hregs hmem hsynd hsoft hspm hspmErr hhost htiles hstops hgate hpcie hflt houts, State.copyOpen_keeps hregs hmem hsynd hsoft hhost hstops hgate hcmd hpcie hflt hsec houts, State.event_keeps hregs, State.wakeEnds_keeps htiles, hclk, hregs, hmem, hsynd, hsoft, hspm, hspmErr, hhost, htiles, hstops, hgate, hcmd, hpcie, hflt, hsec, houts, ite_keeps φ, foldl_keeps φ, foldlPair_keeps φ, foldlJob_keeps φ, foldlJobPair_keeps φ, foldr_keeps φ, ite_st, ite_fst, ite_self, implies_true]; done) | rfl
theorem State.descrReturn_keeps {φ : State → β} (hclk : Ign.clk φ) (hregs : Ign.regs φ) (hmem : Ign.mem φ) (hsynd : Ign.synd φ) (hsoft : Ign.soft φ) (hspm : Ign.spm φ) (hspmErr : Ign.spmErr φ) (hhost : Ign.host φ) (htiles : Ign.tiles φ) (hstops : Ign.stops φ) (hgate : Ign.gate φ) (hcmd : Ign.cmd φ) (hpcie : Ign.pcie φ) (hflt : Ign.flt φ) (hsec : Ign.sec φ) (hfw : Ign.fw φ) (hfab : Ign.fab φ) (hboot : Ign.boot φ) (houts : Ign.outs φ) (s : State) (qp : Nat) (idx : Nat) (ok : Bool) (data : List Byte) (portA : List Nat) : φ (State.descrReturn s qp idx ok data portA) = φ s := by
  unfold State.descrReturn
  try dsimp only
  (repeat' split) <;> first | (simp only [State.complete_keeps hregs hhost hcmd hpcie hflt houts, State.copyReturn_keeps hclk hregs hmem hsynd hsoft hspm hspmErr hhost htiles hstops hgate hcmd hpcie hflt hsec houts, State.event_keeps hregs, State.fenceReturn_keeps hregs hhost hcmd hpcie hflt houts, State.stageReturn_keeps hclk hregs hmem hsynd hsoft hhost hstops hgate hcmd hpcie hflt hsec hfw hfab hboot houts, hclk, hregs, hmem, hsynd, hsoft, hspm, hspmErr, hhost, htiles, hstops, hgate, hcmd, hpcie, hflt, hsec, hfw, hfab, hboot, houts, ite_keeps φ, foldl_keeps φ, foldlPair_keeps φ, foldlJob_keeps φ, foldlJobPair_keeps φ, foldr_keeps φ, ite_st, ite_fst, ite_self, implies_true]; done) | rfl
theorem State.bootReturn_keeps {φ : State → β} (hclk : Ign.clk φ) (hregs : Ign.regs φ) (hmem : Ign.mem φ) (hsynd : Ign.synd φ) (hsoft : Ign.soft φ) (hspm : Ign.spm φ) (hspmErr : Ign.spmErr φ) (hhost : Ign.host φ) (htiles : Ign.tiles φ) (hstops : Ign.stops φ) (hgate : Ign.gate φ) (hpcie : Ign.pcie φ) (hflt : Ign.flt φ) (hedy : Ign.edy φ) (hsec : Ign.sec φ) (hfw : Ign.fw φ) (hboot : Ign.boot φ) (houts : Ign.outs φ) (s : State) (ok : Bool) (data : List Byte) : φ (State.bootReturn s ok data) = φ s := by
  unfold State.bootReturn
  try dsimp only
  (repeat' split) <;> first | (simp only [State.bootReject_keeps hregs hedy hboot, State.fput_keeps hregs, State.mbxResume_keeps hclk hregs hmem hsynd hsoft hspm hspmErr hhost htiles hstops hgate hpcie hflt hsec houts, State.measure_keeps hregs hsec, State.rput_keeps hregs, hclk, hregs, hmem, hsynd, hsoft, hspm, hspmErr, hhost, htiles, hstops, hgate, hpcie, hflt, hedy, hsec, hfw, hboot, houts, ign_sec_fw hsec hfw, ite_keeps φ, foldl_keeps φ, foldlPair_keeps φ, foldlJob_keeps φ, foldlJobPair_keeps φ, foldr_keeps φ, ite_st, ite_fst, ite_self, implies_true]; done) | rfl
theorem State.slotsFail_keeps {φ : State → β} (hregs : Ign.regs φ) (hhost : Ign.host φ) (hcmd : Ign.cmd φ) (hpcie : Ign.pcie φ) (hflt : Ign.flt φ) (hkv : Ign.kv φ) (houts : Ign.outs φ) (s : State) : φ (State.slotsFail s) = φ s := by
  unfold State.slotsFail
  try dsimp only
  refine foldl_keeps φ _ _ _ (fun s a => ?_)
  try dsimp only
  (repeat' split) <;> (try dsimp only) <;> first
    | (simp only [State.kvComplete_keeps hregs hhost hcmd hpcie hflt houts, State.setIn_keeps hkv, hregs, hhost, hcmd, hpcie, hflt, hkv, houts, ite_keeps φ, foldl_keeps φ, foldlPair_keeps φ, foldlJob_keeps φ, foldlJobPair_keeps φ, foldr_keeps φ, ite_st, ite_fst, ite_self, implies_true]; done)
    | rfl
    | exact of_fst (by assumption) (by simp only [State.kvComplete_keeps hregs hhost hcmd hpcie hflt houts, State.setIn_keeps hkv, hregs, hhost, hcmd, hpcie, hflt, hkv, houts, ite_keeps φ, foldl_keeps φ, foldlPair_keeps φ, foldlJob_keeps φ, foldlJobPair_keeps φ, foldr_keeps φ, ite_st, ite_fst, ite_self, implies_true])
    | (simp only [State.kvComplete_keeps hregs hhost hcmd hpcie hflt houts, State.setIn_keeps hkv, hregs, hhost, hcmd, hpcie, hflt, hkv, houts, ite_keeps φ, foldl_keeps φ, foldlPair_keeps φ, foldlJob_keeps φ, foldlJobPair_keeps φ, foldr_keeps φ, ite_st, ite_fst, ite_self, implies_true]; exact of_fst (by assumption) (by simp only [State.kvComplete_keeps hregs hhost hcmd hpcie hflt houts, State.setIn_keeps hkv, hregs, hhost, hcmd, hpcie, hflt, hkv, houts, ite_keeps φ, foldl_keeps φ, foldlPair_keeps φ, foldlJob_keeps φ, foldlJobPair_keeps φ, foldr_keeps φ, ite_st, ite_fst, ite_self, implies_true]))
theorem State.readsFail_keeps {φ : State → β} (hclk : Ign.clk φ) (hregs : Ign.regs φ) (hmem : Ign.mem φ) (hsynd : Ign.synd φ) (hsoft : Ign.soft φ) (hspm : Ign.spm φ) (hspmErr : Ign.spmErr φ) (hhost : Ign.host φ) (htiles : Ign.tiles φ) (hstops : Ign.stops φ) (hgate : Ign.gate φ) (hcmd : Ign.cmd φ) (hpcie : Ign.pcie φ) (hflt : Ign.flt φ) (hedy : Ign.edy φ) (hsec : Ign.sec φ) (hfw : Ign.fw φ) (hkv : Ign.kv φ) (hfab : Ign.fab φ) (hboot : Ign.boot φ) (houts : Ign.outs φ) (s : State) : φ (State.readsFail s) = φ s := by
  unfold State.readsFail
  try dsimp only
  (repeat' split) <;> first | (simp only [State.bootReturn_keeps hclk hregs hmem hsynd hsoft hspm hspmErr hhost htiles hstops hgate hpcie hflt hedy hsec hfw hboot houts, State.descrReturn_keeps hclk hregs hmem hsynd hsoft hspm hspmErr hhost htiles hstops hgate hcmd hpcie hflt hsec hfw hfab hboot houts, State.mbxReturn_keeps hclk hregs hmem hsynd hsoft hspm hspmErr hhost htiles hstops hgate hpcie hflt hsec houts, State.slotsFail_keeps hregs hhost hcmd hpcie hflt hkv houts, hclk, hregs, hmem, hsynd, hsoft, hspm, hspmErr, hhost, htiles, hstops, hgate, hcmd, hpcie, hflt, hedy, hsec, hfw, hkv, hfab, hboot, houts, ite_keeps φ, foldl_keeps φ, foldlPair_keeps φ, foldlJob_keeps φ, foldlJobPair_keeps φ, foldr_keeps φ, ite_st, ite_fst, ite_self, implies_true]; done) | rfl
theorem State.msixWrite_keeps {φ : State → β} (hpcie : Ign.pcie φ) (houts : Ign.outs φ) (s : State) (f : Nat) (word : Nat) (w : Word) : φ (State.msixWrite s f word w) = φ s := by
  unfold State.msixWrite
  try dsimp only
  (repeat' split) <;> first | (simp only [State.msixFlush_keeps hpcie houts, hpcie, houts, ite_keeps φ, foldl_keeps φ, foldlPair_keeps φ, foldlJob_keeps φ, foldlJobPair_keeps φ, foldr_keeps φ, ite_st, ite_fst, ite_self, implies_true]; done) | rfl
theorem State.lckLocate_keeps {φ : State → β} (hregs : Ign.regs φ) (hflt : Ign.flt φ) (hlck : Ign.lck φ) (s : State) (a : Summ) (b : Summ) : φ (State.lckLocate s a b) = φ s := by
  unfold State.lckLocate
  try dsimp only
  (repeat' split) <;> first | (simp only [State.diverge_keeps hregs hflt, State.lckDrop_keeps hlck, hregs, hflt, hlck, ite_keeps φ, foldl_keeps φ, foldlPair_keeps φ, foldlJob_keeps φ, foldlJobPair_keeps φ, foldr_keeps φ, ite_st, ite_fst, ite_self, implies_true]; done) | rfl
theorem State.lckCompare_keeps {φ : State → β} (hclk : Ign.clk φ) (hregs : Ign.regs φ) (hmem : Ign.mem φ) (hsynd : Ign.synd φ) (hsoft : Ign.soft φ) (hhost : Ign.host φ) (hstops : Ign.stops φ) (hgate : Ign.gate φ) (hcmd : Ign.cmd φ) (hpcie : Ign.pcie φ) (hflt : Ign.flt φ) (hlck : Ign.lck φ) (hfab : Ign.fab φ) (houts : Ign.outs φ) (s : State) (a : Summ) (b : Summ) : φ (State.lckCompare s a b) = φ s := by
  unfold State.lckCompare
  try dsimp only
  (repeat' split) <;> first | (simp only [State.diverge_keeps hregs hflt, State.lckDrop_keeps hlck, State.lckLocate_keeps hregs hflt hlck, State.lckSend_keeps hclk hregs hmem hsynd hsoft hhost hstops hgate hcmd hpcie hflt hfab houts, hclk, hregs, hmem, hsynd, hsoft, hhost, hstops, hgate, hcmd, hpcie, hflt, hlck, hfab, houts, ite_keeps φ, foldl_keeps φ, foldlPair_keeps φ, foldlJob_keeps φ, foldlJobPair_keeps φ, foldr_keeps φ, ite_st, ite_fst, ite_self, implies_true]; done) | rfl
theorem State.setIde_keeps {φ : State → β} (hregs : Ign.regs φ) (hpcie : Ign.pcie φ) (s : State) (l : List Nat) : φ (State.setIde s l) = φ s := by
  unfold State.setIde
  try dsimp only
  (repeat' split) <;> first | (simp only [State.fput_keeps hregs, hregs, hpcie, ite_keeps φ, foldl_keeps φ, foldlPair_keeps φ, foldlJob_keeps φ, foldlJobPair_keeps φ, foldr_keeps φ, ite_st, ite_fst, ite_self, implies_true]; done) | rfl
theorem State.refNow_keeps {φ : State → β} (hstops : Ign.stops φ) (s : State) (t : Nat) (b : Nat) : φ (State.refNow s t b) = φ s := by
  unfold State.refNow
  try dsimp only
  (repeat' split) <;> first | (simp only [State.setStop_keeps hstops, hstops, ite_keeps φ, foldl_keeps φ, foldlPair_keeps φ, foldlJob_keeps φ, foldlJobPair_keeps φ, foldr_keeps φ, ite_st, ite_fst, ite_self, implies_true]; done) | rfl
theorem State.refOwe_keeps {φ : State → β} (hregs : Ign.regs φ) (hstops : Ign.stops φ) (s : State) (t : Nat) (b : Nat) : φ (State.refOwe s t b) = φ s := by
  unfold State.refOwe
  try dsimp only
  (repeat' split) <;> first | (simp only [State.fput_keeps hregs, State.refNow_keeps hstops, State.setStop_keeps hstops, hregs, hstops, ite_keeps φ, foldl_keeps φ, foldlPair_keeps φ, foldlJob_keeps φ, foldlJobPair_keeps φ, foldr_keeps φ, ite_st, ite_fst, ite_self, implies_true]; done) | rfl
theorem State.takeCtl_keeps {φ : State → β} (hfab : Ign.fab φ) (s : State) (i : Nat) (op : Nat) (arg : Nat) (k : State → RxMsg → State) (hkk : ∀ s0 s1, φ (k s0 s1) = φ s0) : φ (State.takeCtl s i op arg k) = φ s := by
  unfold State.takeCtl
  try dsimp only
  (repeat' split) <;> first | (simp only [State.setPeer_keeps hfab, hfab, ite_keeps φ, foldl_keeps φ, foldlPair_keeps φ, foldlJob_keeps φ, foldlJobPair_keeps φ, foldr_keeps φ, ite_st, ite_fst, ite_self, implies_true, hkk]; done) | rfl
theorem State.lulCount_keeps {φ : State → β} (hregs : Ign.regs φ) (s : State) : φ (State.lulCount s) = φ s := by
  unfold State.lulCount
  try dsimp only
  (repeat' split) <;> first | (simp only [State.fput_keeps hregs, hregs, ite_keeps φ, foldl_keeps φ, foldlPair_keeps φ, foldlJob_keeps φ, foldlJobPair_keeps φ, foldr_keeps φ, ite_st, ite_fst, ite_self, implies_true]; done) | rfl
theorem State.notRun_keeps {φ : State → β} (hregs : Ign.regs φ) (s : State) (n : Nat) : φ (State.notRun s n) = φ s := by
  unfold State.notRun
  try dsimp only
  (repeat' split) <;> first | (simp only [State.putReport_keeps hregs, hregs, ite_keeps φ, foldl_keeps φ, foldlPair_keeps φ, foldlJob_keeps φ, foldlJobPair_keeps φ, foldr_keeps φ, ite_st, ite_fst, ite_self, implies_true]; done) | rfl
theorem State.lckPart_keeps {φ : State → β} (hclk : Ign.clk φ) (hregs : Ign.regs φ) (hmem : Ign.mem φ) (hsynd : Ign.synd φ) (hsoft : Ign.soft φ) (hstops : Ign.stops φ) (hgate : Ign.gate φ) (hflt : Ign.flt φ) (s : State) (da : Nat) (n : Nat) : φ (State.lckPart s da n).1 = φ s := by
  unfold State.lckPart
  try dsimp only
  (repeat' split) <;> first | (simp only [State.fabRead_keeps hclk hregs hmem hsynd hsoft hstops hgate hflt, State.free_keeps hclk, hclk, hregs, hmem, hsynd, hsoft, hstops, hgate, hflt, ite_keeps φ, foldl_keeps φ, foldlPair_keeps φ, foldlJob_keeps φ, foldlJobPair_keeps φ, foldr_keeps φ, ite_st, ite_fst, ite_self, implies_true]; done) | rfl
theorem State.lckParts_keeps {φ : State → β} (hclk : Ign.clk φ) (hregs : Ign.regs φ) (hmem : Ign.mem φ) (hsynd : Ign.synd φ) (hsoft : Ign.soft φ) (hstops : Ign.stops φ) (hgate : Ign.gate φ) (hflt : Ign.flt φ) (s : State) (l : List (Nat × Nat)) : φ (State.lckParts s l).1 = φ s := by
  unfold State.lckParts
  try dsimp only
  (repeat' split) <;> first | (simp only [State.lckPart_keeps hclk hregs hmem hsynd hsoft hstops hgate hflt, hclk, hregs, hmem, hsynd, hsoft, hstops, hgate, hflt, ite_keeps φ, foldl_keeps φ, foldlPair_keeps φ, foldlJob_keeps φ, foldlJobPair_keeps φ, foldr_keeps φ, ite_st, ite_fst, ite_self, implies_true]; done) | rfl
theorem State.lckEntry_keeps {φ : State → β} (hclk : Ign.clk φ) (hregs : Ign.regs φ) (hmem : Ign.mem φ) (hsynd : Ign.synd φ) (hsoft : Ign.soft φ) (hstops : Ign.stops φ) (hgate : Ign.gate φ) (hflt : Ign.flt φ) (s : State) (key : Nat) (k : Nat) : φ (State.lckEntry s key k).1 = φ s := by
  unfold State.lckEntry
  try dsimp only
  (repeat' split) <;> first | (simp only [State.daWrite_keeps hregs hmem hsynd hsoft hstops hgate hflt, State.lckParts_keeps hclk hregs hmem hsynd hsoft hstops hgate hflt, hclk, hregs, hmem, hsynd, hsoft, hstops, hgate, hflt, ite_keeps φ, foldl_keeps φ, foldlPair_keeps φ, foldlJob_keeps φ, foldlJobPair_keeps φ, foldr_keeps φ, ite_st, ite_fst, ite_self, implies_true]; done) | rfl
theorem State.lckDigest_keeps {φ : State → β} (hclk : Ign.clk φ) (hregs : Ign.regs φ) (hmem : Ign.mem φ) (hsynd : Ign.synd φ) (hsoft : Ign.soft φ) (hstops : Ign.stops φ) (hgate : Ign.gate φ) (hflt : Ign.flt φ) (s : State) (key : Nat) (m : Summ) : φ (State.lckDigest s key m).1 = φ s := by
  unfold State.lckDigest
  try dsimp only
  (repeat' split) <;> first | (simp only [State.lckEntry_keeps hclk hregs hmem hsynd hsoft hstops hgate hflt, State.lckParts_keeps hclk hregs hmem hsynd hsoft hstops hgate hflt, hclk, hregs, hmem, hsynd, hsoft, hstops, hgate, hflt, ite_keeps φ, foldl_keeps φ, foldlPair_keeps φ, foldlJob_keeps φ, foldlJobPair_keeps φ, foldr_keeps φ, ite_st, ite_fst, ite_self, implies_true]; done) | rfl
theorem State.logRecord_keeps {φ : State → β} (hregs : Ign.regs φ) (s : State) (i : Nat) : φ (State.logRecord s i).1 = φ s := by
  unfold State.logRecord
  try dsimp only
  (repeat' split) <;> first | (simp only [State.event_keeps hregs, hregs, ite_keeps φ, foldl_keeps φ, foldlPair_keeps φ, foldlJob_keeps φ, foldlJobPair_keeps φ, foldr_keeps φ, ite_st, ite_fst, ite_self, implies_true]; done) | rfl
theorem State.backFreeze_keeps {φ : State → β} (hregs : Ign.regs φ) (htiles : Ign.tiles φ) (s : State) (t : Nat) (tc : Nat) : φ (State.backFreeze s t tc) = φ s := by
  unfold State.backFreeze
  try dsimp only
  (repeat' split) <;> first | (simp only [State.freeze_keeps hregs htiles, State.setArr_keeps htiles, hregs, htiles, ite_keeps φ, foldl_keeps φ, foldlPair_keeps φ, foldlJob_keeps φ, foldlJobPair_keeps φ, foldr_keeps φ, ite_st, ite_fst, ite_self, implies_true]; done) | rfl
theorem State.coreWaits_keeps {φ : State → β} (hcores : Ign.cores φ) (s : State) (t : Nat) (c : Nat) : φ (State.coreWaits s t c) = φ s := by
  unfold State.coreWaits
  try dsimp only
  (repeat' split) <;> first | (simp only [State.setCore_keeps hcores, hcores, ite_keeps φ, foldl_keeps φ, foldlPair_keeps φ, foldlJob_keeps φ, foldlJobPair_keeps φ, foldr_keeps φ, ite_st, ite_fst, ite_self, implies_true]; done) | rfl
theorem State.rowAccess_keeps {φ : State → β} (hregs : Ign.regs φ) (hgate : Ign.gate φ) (hcores : Ign.cores φ) (htokRel : Ign.tokRel φ) (hflt : Ign.flt φ) (henr : Ign.enr φ) (s : State) (t : Nat) (c : Nat) (w : Word) (k : Nat → Nat → State) (hkk : ∀ s0 s1, φ (k s0 s1) = φ s) : φ (State.rowAccess s t c w k) = φ s := by
  have hw := fun s => State.coreWaits_keeps (φ := φ) hcores s t c
  unfold State.rowAccess State.whenReady
  dsimp only
  (repeat' split) <;> first | rfl | exact hkk _ _ | simp only [hw, State.bscErr_keeps hregs hgate hcores htokRel hflt henr, hregs, hgate, hcores, htokRel, hflt, henr, ite_keeps φ, foldl_keeps φ, foldlPair_keeps φ, foldlJob_keeps φ, foldlJobPair_keeps φ, foldr_keeps φ, ite_st, ite_fst, ite_self, implies_true, hkk]
theorem Job.closeWord_keeps {φ : State → β} (hregs : Ign.regs φ) (hmem : Ign.mem φ) (hsynd : Ign.synd φ) (hsoft : Ign.soft φ) (hstops : Ign.stops φ) (hgate : Ign.gate φ) (hflt : Ign.flt φ) (j : Job) (da : Nat) (n : Nat) : φ (Job.closeWord j da n).1.st = φ j.st := by
  unfold Job.closeWord
  try dsimp only
  (repeat' split) <;> (try dsimp only) <;> first
    | (simp only [State.kvRead_keeps hregs hmem hsynd hsoft hstops hgate hflt, hregs, hmem, hsynd, hsoft, hstops, hgate, hflt, ite_keeps φ, foldl_keeps φ, foldlPair_keeps φ, foldlJob_keeps φ, foldlJobPair_keeps φ, foldr_keeps φ, ite_st, ite_fst, ite_self, implies_true]; done)
    | rfl
    | exact of_fst (by assumption) (by simp only [State.kvRead_keeps hregs hmem hsynd hsoft hstops hgate hflt, hregs, hmem, hsynd, hsoft, hstops, hgate, hflt, ite_keeps φ, foldl_keeps φ, foldlPair_keeps φ, foldlJob_keeps φ, foldlJobPair_keeps φ, foldr_keeps φ, ite_st, ite_fst, ite_self, implies_true])
    | (simp only [State.kvRead_keeps hregs hmem hsynd hsoft hstops hgate hflt, hregs, hmem, hsynd, hsoft, hstops, hgate, hflt, ite_keeps φ, foldl_keeps φ, foldlPair_keeps φ, foldlJob_keeps φ, foldlJobPair_keeps φ, foldr_keeps φ, ite_st, ite_fst, ite_self, implies_true]; exact of_fst (by assumption) (by simp only [State.kvRead_keeps hregs hmem hsynd hsoft hstops hgate hflt, hregs, hmem, hsynd, hsoft, hstops, hgate, hflt, ite_keeps φ, foldl_keeps φ, foldlPair_keeps φ, foldlJob_keeps φ, foldlJobPair_keeps φ, foldr_keeps φ, ite_st, ite_fst, ite_self, implies_true]))
theorem Job.closePte_keeps {φ : State → β} (hclk : Ign.clk φ) (hregs : Ign.regs φ) (hmem : Ign.mem φ) (hsynd : Ign.synd φ) (hsoft : Ign.soft φ) (hstops : Ign.stops φ) (hgate : Ign.gate φ) (hflt : Ign.flt φ) (hkv : Ign.kv φ) (j : Job) (root : Nat) (e : Nat) (conf : Bool) : φ (Job.closePte j root e conf).st = φ j.st := by
  unfold Job.closePte
  try dsimp only
  (repeat' split) <;> first | (simp only [Job.closeWord_keeps hregs hmem hsynd hsoft hstops hgate hflt, Job.map_keeps , Job.refDown_keeps hclk hregs hmem hsynd hsoft hstops hgate hflt hkv, State.slotSet_keeps hclk hregs hmem hsynd hsoft hstops hgate hflt, hclk, hregs, hmem, hsynd, hsoft, hstops, hgate, hflt, hkv, ite_keeps φ, foldl_keeps φ, foldlPair_keeps φ, foldlJob_keeps φ, foldlJobPair_keeps φ, foldr_keeps φ, ite_st, ite_fst, ite_self, implies_true]; done) | rfl
theorem State.withKv_keeps {φ : State → β} (hregs : Ign.regs φ) (hhost : Ign.host φ) (hcmd : Ign.cmd φ) (hpcie : Ign.pcie φ) (hflt : Ign.flt φ) (houts : Ign.outs φ) (s : State) (q : Nat) (idx : Nat) (type : Nat) (ok : Descr → Bool) (k : State → Descr → State) (hkk : ∀ s0 s1, φ (k s0 s1) = φ s0) : φ (State.withKv s q idx type ok k) = φ s := by
  unfold State.withKv
  try dsimp only
  (repeat' split) <;> first | (simp only [State.withDescr_keeps hregs hhost hcmd hpcie hflt houts, hregs, hhost, hcmd, hpcie, hflt, houts, ite_keeps φ, foldl_keeps φ, foldlPair_keeps φ, foldlJob_keeps φ, foldlJobPair_keeps φ, foldr_keeps φ, ite_st, ite_fst, ite_self, implies_true, hkk]; done) | rfl
theorem State.wipeEnd_keeps {φ : State → β} (hregs : Ign.regs φ) (hspm : Ign.spm φ) (hspmErr : Ign.spmErr φ) (htiles : Ign.tiles φ) (s : State) (t : Nat) (b : Nat) : φ (State.wipeEnd s t b) = φ s := by
  unfold State.wipeEnd
  try dsimp only
  (repeat' split) <;> first | (simp only [State.event_keeps hregs, State.hostate_keeps hregs, State.rput_keeps hregs, State.setEng_keeps htiles, State.zeroBank_keeps hspm hspmErr, hregs, hspm, hspmErr, htiles, ite_keeps φ, foldl_keeps φ, foldlPair_keeps φ, foldlJob_keeps φ, foldlJobPair_keeps φ, foldr_keeps φ, ite_st, ite_fst, ite_self, implies_true]; done) | rfl
theorem State.feedOs_keeps {φ : State → β} (hclk : Ign.clk φ) (hregs : Ign.regs φ) (htiles : Ign.tiles φ) (hflt : Ign.flt φ) (henr : Ign.enr φ) (s : State) (t : Nat) (p : Pass) (tc : Nat) : φ (State.feedOs s t p tc) = φ s := by
  unfold State.feedOs
  try dsimp only
  (repeat' split) <;> first | (simp only [State.arrRead_keeps hclk hregs htiles hflt, State.freeze_keeps hregs htiles, State.passError_keeps hregs htiles henr, State.rput_keeps hregs, State.setArr_keeps htiles, State.setEng_keeps htiles, State.thaw_keeps htiles, State.westRows_keeps hclk hregs htiles hflt, hclk, hregs, htiles, hflt, henr, ite_keeps φ, foldl_keeps φ, foldlPair_keeps φ, foldlJob_keeps φ, foldlJobPair_keeps φ, foldr_keeps φ, ite_st, ite_fst, ite_self, implies_true]; done) | rfl
theorem State.withRx_keeps {φ : State → β} (hregs : Ign.regs φ) (hmem : Ign.mem φ) (hsynd : Ign.synd φ) (hsoft : Ign.soft φ) (hhost : Ign.host φ) (hstops : Ign.stops φ) (hgate : Ign.gate φ) (hcmd : Ign.cmd φ) (hpcie : Ign.pcie φ) (hflt : Ign.flt φ) (hfab : Ign.fab φ) (houts : Ign.outs φ) (s : State) (i : Nat) (msn : Nat) (ops : Nat → Nat → Bool) (k : State → RxMsg → State) (hkk : ∀ s0 s1, φ (k s0 s1) = φ s0) : φ (State.withRx s i msn ops k) = φ s := by
  unfold State.withRx
  try dsimp only
  (repeat' split) <;> first | (simp only [State.endAcked_keeps hregs hmem hsynd hsoft hhost hstops hgate hcmd hpcie hflt hfab houts, State.setPeer_keeps hfab, hregs, hmem, hsynd, hsoft, hhost, hstops, hgate, hcmd, hpcie, hflt, hfab, houts, ite_keeps φ, foldl_keeps φ, foldlPair_keeps φ, foldlJob_keeps φ, foldlJobPair_keeps φ, foldr_keeps φ, ite_st, ite_fst, ite_self, implies_true, hkk]; done) | rfl
theorem State.functionFence_keeps {φ : State → β} (hregs : Ign.regs φ) (hhost : Ign.host φ) (hcmd : Ign.cmd φ) (hpcie : Ign.pcie φ) (hflt : Ign.flt φ) (houts : Ign.outs φ) (q : Nat) (s : State) (d : Descr) : φ (State.functionFence q s d) = φ s := by
  unfold State.functionFence
  try dsimp only
  (repeat' split) <;> first | (simp only [State.complete_keeps hregs hhost hcmd hpcie hflt houts, State.setDescr_keeps hcmd, hregs, hhost, hcmd, hpcie, hflt, houts, ite_keeps φ, foldl_keeps φ, foldlPair_keeps φ, foldlJob_keeps φ, foldlJobPair_keeps φ, foldr_keeps φ, ite_st, ite_fst, ite_self, implies_true]; done) | rfl
theorem State.senderError_keeps {φ : State → β} (hregs : Ign.regs φ) (htiles : Ign.tiles φ) (houts : Ign.outs φ) (s : State) (src : Nat) (ch : Nat) (err : ChanErr) : φ (State.senderError s src ch err) = φ s := by
  unfold State.senderError
  try dsimp only
  (repeat' split) <;> first | (simp only [State.haltChan_keeps hregs htiles, hregs, htiles, houts, ite_keeps φ, foldl_keeps φ, foldlPair_keeps φ, foldlJob_keeps φ, foldlJobPair_keeps φ, foldr_keeps φ, ite_st, ite_fst, ite_self, implies_true]; done) | rfl
theorem State.packetWrite_keeps {φ : State → β} (hclk : Ign.clk φ) (hregs : Ign.regs φ) (hspm : Ign.spm φ) (hspmErr : Ign.spmErr φ) (htiles : Ign.tiles φ) (hflt : Ign.flt φ) (houts : Ign.outs φ) (s : State) (t : Nat) (h : Held) (portA : List Nat) : φ (State.packetWrite s t h portA) = φ s := by
  unfold State.packetWrite
  try dsimp only
  (repeat' split) <;> first | (simp only [State.segsRead_keeps hclk hregs htiles hflt, State.segsWrite_keeps hclk hregs hspm hspmErr htiles hflt houts, State.senderError_keeps hregs htiles houts, hclk, hregs, hspm, hspmErr, htiles, hflt, houts, ite_keeps φ, foldl_keeps φ, foldlPair_keeps φ, foldlJob_keeps φ, foldlJobPair_keeps φ, foldr_keeps φ, ite_st, ite_fst, ite_self, implies_true]; done) | rfl
theorem State.ingressGo_keeps {φ : State → β} (hclk : Ign.clk φ) (hregs : Ign.regs φ) (hspm : Ign.spm φ) (hspmErr : Ign.spmErr φ) (htiles : Ign.tiles φ) (hstops : Ign.stops φ) (hflt : Ign.flt φ) (houts : Ign.outs φ) (portA : List Nat) (x1 : List Held) (x2 : State) (x3 : Nat) : φ (State.ingressGo portA x1 x2 x3) = φ x2 := by
  fun_induction State.ingressGo portA x1 x2 x3 <;> first
    | (simp_all +zetaDelta only [State.packetWrite_keeps hclk hregs hspm hspmErr htiles hflt houts, State.setStop_keeps hstops, hclk, hregs, hspm, hspmErr, htiles, hstops, hflt, houts, ite_keeps φ, foldl_keeps φ, foldlPair_keeps φ, foldlJob_keeps φ, foldlJobPair_keeps φ, foldr_keeps φ, ite_st, ite_fst, ite_self, implies_true]; done)
    | (simp +zetaDelta only [State.packetWrite_keeps hclk hregs hspm hspmErr htiles hflt houts, State.setStop_keeps hstops, hclk, hregs, hspm, hspmErr, htiles, hstops, hflt, houts, ite_keeps φ, foldl_keeps φ, foldlPair_keeps φ, foldlJob_keeps φ, foldlJobPair_keeps φ, foldr_keeps φ, ite_st, ite_fst, ite_self, implies_true]; done)
    | (simp +zetaDelta only [State.packetWrite_keeps hclk hregs hspm hspmErr htiles hflt houts, State.setStop_keeps hstops, hclk, hregs, hspm, hspmErr, htiles, hstops, hflt, houts, ite_keeps φ, foldl_keeps φ, foldlPair_keeps φ, foldlJob_keeps φ, foldlJobPair_keeps φ, foldr_keeps φ, ite_st, ite_fst, ite_self, implies_true]; split <;> simp_all +zetaDelta only [State.packetWrite_keeps hclk hregs hspm hspmErr htiles hflt houts, State.setStop_keeps hstops, hclk, hregs, hspm, hspmErr, htiles, hstops, hflt, houts, ite_keeps φ, foldl_keeps φ, foldlPair_keeps φ, foldlJob_keeps φ, foldlJobPair_keeps φ, foldr_keeps φ, ite_st, ite_fst, ite_self, implies_true]; done)
    | (simp_all +zetaDelta [State.packetWrite_keeps hclk hregs hspm hspmErr htiles hflt houts, State.setStop_keeps hstops, hclk, hregs, hspm, hspmErr, htiles, hstops, hflt, houts, ite_keeps φ, foldl_keeps φ, foldlPair_keeps φ, foldlJob_keeps φ, foldlJobPair_keeps φ, foldr_keeps φ, ite_st, ite_fst, ite_self, implies_true]; done)
theorem State.ingressDrain_keeps {φ : State → β} (hclk : Ign.clk φ) (hregs : Ign.regs φ) (hspm : Ign.spm φ) (hspmErr : Ign.spmErr φ) (htiles : Ign.tiles φ) (hstops : Ign.stops φ) (hflt : Ign.flt φ) (houts : Ign.outs φ) (s : State) (t : Nat) (portA : List Nat) : φ (State.ingressDrain s t portA) = φ s := by
  unfold State.ingressDrain
  try dsimp only
  (repeat' split) <;> first | (simp only [State.ingressGo_keeps hclk hregs hspm hspmErr htiles hstops hflt houts, hclk, hregs, hspm, hspmErr, htiles, hstops, hflt, houts, ite_keeps φ, foldl_keeps φ, foldlPair_keeps φ, foldlJob_keeps φ, foldlJobPair_keeps φ, foldr_keeps φ, ite_st, ite_fst, ite_self, implies_true]; done) | rfl
theorem State.swapEntry_keeps {φ : State → β} (hregs : Ign.regs φ) (hmem : Ign.mem φ) (hsynd : Ign.synd φ) (hsoft : Ign.soft φ) (hstops : Ign.stops φ) (hgate : Ign.gate φ) (hflt : Ign.flt φ) (hkv : Ign.kv φ) (s : State) (q : Nat) (d : Descr) : φ (State.swapEntry s q d).1 = φ s := by
  unfold State.swapEntry
  try dsimp only
  (repeat' split) <;> (try dsimp only) <;> first
    | (simp only [State.entryLost_keeps hregs hmem hsynd hsoft hstops hgate hflt hkv, State.kvRead_keeps hregs hmem hsynd hsoft hstops hgate hflt, hregs, hmem, hsynd, hsoft, hstops, hgate, hflt, hkv, ite_keeps φ, foldl_keeps φ, foldlPair_keeps φ, foldlJob_keeps φ, foldlJobPair_keeps φ, foldr_keeps φ, ite_st, ite_fst, ite_self, implies_true]; done)
    | rfl
    | exact of_fst (by assumption) (by simp only [State.entryLost_keeps hregs hmem hsynd hsoft hstops hgate hflt hkv, State.kvRead_keeps hregs hmem hsynd hsoft hstops hgate hflt, hregs, hmem, hsynd, hsoft, hstops, hgate, hflt, hkv, ite_keeps φ, foldl_keeps φ, foldlPair_keeps φ, foldlJob_keeps φ, foldlJobPair_keeps φ, foldr_keeps φ, ite_st, ite_fst, ite_self, implies_true])
    | (simp only [State.entryLost_keeps hregs hmem hsynd hsoft hstops hgate hflt hkv, State.kvRead_keeps hregs hmem hsynd hsoft hstops hgate hflt, hregs, hmem, hsynd, hsoft, hstops, hgate, hflt, hkv, ite_keeps φ, foldl_keeps φ, foldlPair_keeps φ, foldlJob_keeps φ, foldlJobPair_keeps φ, foldr_keeps φ, ite_st, ite_fst, ite_self, implies_true]; exact of_fst (by assumption) (by simp only [State.entryLost_keeps hregs hmem hsynd hsoft hstops hgate hflt hkv, State.kvRead_keeps hregs hmem hsynd hsoft hstops hgate hflt, hregs, hmem, hsynd, hsoft, hstops, hgate, hflt, hkv, ite_keeps φ, foldl_keeps φ, foldlPair_keeps φ, foldlJob_keeps φ, foldlJobPair_keeps φ, foldr_keeps φ, ite_st, ite_fst, ite_self, implies_true]))
theorem State.trapIns_keeps {φ : State → β} (hregs : Ign.regs φ) (hhost : Ign.host φ) (htiles : Ign.tiles φ) (hstops : Ign.stops φ) (hdisps : Ign.disps φ) (hcmd : Ign.cmd φ) (hpcie : Ign.pcie φ) (hflt : Ign.flt φ) (hlck : Ign.lck φ) (henr : Ign.enr φ) (houts : Ign.outs φ) (s : State) (t : Nat) (opc : Nat) (cause : Nat) : φ (State.trapIns s t opc cause) = φ s := by
  unfold State.trapIns
  try dsimp only
  (repeat' split) <;> first | (simp only [State.setEng_keeps htiles, State.trapHere_keeps hregs hhost htiles hstops hdisps hcmd hpcie hflt hlck henr houts, hregs, hhost, htiles, hstops, hdisps, hcmd, hpcie, hflt, hlck, henr, houts, ite_keeps φ, foldl_keeps φ, foldlPair_keeps φ, foldlJob_keeps φ, foldlJobPair_keeps φ, foldr_keeps φ, ite_st, ite_fst, ite_self, implies_true]; done) | rfl
theorem State.portReset_keeps {φ : State → β} (hregs : Ign.regs φ) (hpcie : Ign.pcie φ) (hsec : Ign.sec φ) (s : State) : φ (State.portReset s) = φ s := by
  unfold State.portReset
  try dsimp only
  (repeat' split) <;> first | (simp only [State.cfgReset_keeps hpcie, State.rput_keeps hregs, hregs, hpcie, hsec, ign_pcie_sec hpcie hsec, ite_keeps φ, foldl_keeps φ, foldlPair_keeps φ, foldlJob_keeps φ, foldlJobPair_keeps φ, foldr_keeps φ, ite_st, ite_fst, ite_self, implies_true]; done) | rfl
theorem State.stgApply_keeps {φ : State → β} (hregs : Ign.regs φ) (hact : Ign.act φ) (hwset : Ign.wset φ) (s : State) (k : Nat) (b : Nat) : φ (State.stgApply s k b) = φ s := by
  unfold State.stgApply
  try dsimp only
  (repeat' split) <;> first | (simp only [State.eventBit_keeps hregs, State.stgShow_keeps hregs, hregs, hact, hwset, ign_act_wset hact hwset, ite_keeps φ, foldl_keeps φ, foldlPair_keeps φ, foldlJob_keeps φ, foldlJobPair_keeps φ, foldr_keeps φ, ite_st, ite_fst, ite_self, implies_true]; done) | rfl
theorem State.dropMasked_keeps {φ : State → β} (hclk : Ign.clk φ) (hregs : Ign.regs φ) (htiles : Ign.tiles φ) (hflt : Ign.flt φ) (x0 : Nat) (x1 : State) (x2 : Nat) : φ (State.dropMasked x0 x1 x2) = φ x1 := by
  fun_induction State.dropMasked x0 x1 x2 <;> first
    | (simp_all +zetaDelta only [State.setArr_keeps htiles, State.skipGroups_keeps hclk hregs htiles hflt, hclk, hregs, htiles, hflt, ite_keeps φ, foldl_keeps φ, foldlPair_keeps φ, foldlJob_keeps φ, foldlJobPair_keeps φ, foldr_keeps φ, ite_st, ite_fst, ite_self, implies_true]; done)
    | (simp +zetaDelta only [State.setArr_keeps htiles, State.skipGroups_keeps hclk hregs htiles hflt, hclk, hregs, htiles, hflt, ite_keeps φ, foldl_keeps φ, foldlPair_keeps φ, foldlJob_keeps φ, foldlJobPair_keeps φ, foldr_keeps φ, ite_st, ite_fst, ite_self, implies_true]; done)
    | (simp +zetaDelta only [State.setArr_keeps htiles, State.skipGroups_keeps hclk hregs htiles hflt, hclk, hregs, htiles, hflt, ite_keeps φ, foldl_keeps φ, foldlPair_keeps φ, foldlJob_keeps φ, foldlJobPair_keeps φ, foldr_keeps φ, ite_st, ite_fst, ite_self, implies_true]; split <;> simp_all +zetaDelta only [State.setArr_keeps htiles, State.skipGroups_keeps hclk hregs htiles hflt, hclk, hregs, htiles, hflt, ite_keeps φ, foldl_keeps φ, foldlPair_keeps φ, foldlJob_keeps φ, foldlJobPair_keeps φ, foldr_keeps φ, ite_st, ite_fst, ite_self, implies_true]; done)
    | (simp_all +zetaDelta [State.setArr_keeps htiles, State.skipGroups_keeps hclk hregs htiles hflt, hclk, hregs, htiles, hflt, ite_keeps φ, foldl_keeps φ, foldlPair_keeps φ, foldlJob_keeps φ, foldlJobPair_keeps φ, foldr_keeps φ, ite_st, ite_fst, ite_self, implies_true]; done)
theorem State.cfgRead_keeps {φ : State → β} (hclk : Ign.clk φ) (houts : Ign.outs φ) (s : State) (f : Nat) (off : Nat) : φ (State.cfgRead s f off) = φ s := by
  unfold State.cfgRead
  try dsimp only
  (repeat' split) <;> first | (simp only [State.answer_keeps houts, State.free_keeps hclk, hclk, houts, ite_keeps φ, foldl_keeps φ, foldlPair_keeps φ, foldlJob_keeps φ, foldlJobPair_keeps φ, foldr_keeps φ, ite_st, ite_fst, ite_self, implies_true]; done) | rfl
theorem State.pinGo_keeps {φ : State → β} (hregs : Ign.regs φ) (hmem : Ign.mem φ) (hsynd : Ign.synd φ) (hsoft : Ign.soft φ) (hstops : Ign.stops φ) (hgate : Ign.gate φ) (hflt : Ign.flt φ) (hkv : Ign.kv φ) (x0 : Nat) (x1 : State) (x2 : List Byte) (x3 : Nat) (x4 : Nat) (x5 : Nat) (x6 : Nat) (x7 : Bool) (x8 : List Nat) (x9 : Nat) : φ (State.pinGo x0 x1 x2 x3 x4 x5 x6 x7 x8 x9).1 = φ x1 := by
  fun_induction State.pinGo x0 x1 x2 x3 x4 x5 x6 x7 x8 x9 <;> first
    | (simp_all +zetaDelta only [State.daWrite_keeps hregs hmem hsynd hsoft hstops hgate hflt, State.dirUse_keeps hkv, State.findNode_keeps hregs hmem hsynd hsoft hstops hgate hflt, hregs, hmem, hsynd, hsoft, hstops, hgate, hflt, hkv, ite_keeps φ, foldl_keeps φ, foldlPair_keeps φ, foldlJob_keeps φ, foldlJobPair_keeps φ, foldr_keeps φ, ite_st, ite_fst, ite_self, implies_true]; done)
    | (simp +zetaDelta only [State.daWrite_keeps hregs hmem hsynd hsoft hstops hgate hflt, State.dirUse_keeps hkv, State.findNode_keeps hregs hmem hsynd hsoft hstops hgate hflt, hregs, hmem, hsynd, hsoft, hstops, hgate, hflt, hkv, ite_keeps φ, foldl_keeps φ, foldlPair_keeps φ, foldlJob_keeps φ, foldlJobPair_keeps φ, foldr_keeps φ, ite_st, ite_fst, ite_self, implies_true]; done)
    | (simp +zetaDelta only [State.daWrite_keeps hregs hmem hsynd hsoft hstops hgate hflt, State.dirUse_keeps hkv, State.findNode_keeps hregs hmem hsynd hsoft hstops hgate hflt, hregs, hmem, hsynd, hsoft, hstops, hgate, hflt, hkv, ite_keeps φ, foldl_keeps φ, foldlPair_keeps φ, foldlJob_keeps φ, foldlJobPair_keeps φ, foldr_keeps φ, ite_st, ite_fst, ite_self, implies_true]; split <;> simp_all +zetaDelta only [State.daWrite_keeps hregs hmem hsynd hsoft hstops hgate hflt, State.dirUse_keeps hkv, State.findNode_keeps hregs hmem hsynd hsoft hstops hgate hflt, hregs, hmem, hsynd, hsoft, hstops, hgate, hflt, hkv, ite_keeps φ, foldl_keeps φ, foldlPair_keeps φ, foldlJob_keeps φ, foldlJobPair_keeps φ, foldr_keeps φ, ite_st, ite_fst, ite_self, implies_true]; done)
    | (simp_all +zetaDelta [State.daWrite_keeps hregs hmem hsynd hsoft hstops hgate hflt, State.dirUse_keeps hkv, State.findNode_keeps hregs hmem hsynd hsoft hstops hgate hflt, hregs, hmem, hsynd, hsoft, hstops, hgate, hflt, hkv, ite_keeps φ, foldl_keeps φ, foldlPair_keeps φ, foldlJob_keeps φ, foldlJobPair_keeps φ, foldr_keeps φ, ite_st, ite_fst, ite_self, implies_true]; done)
theorem State.followWords_keeps {φ : State → β} (hregs : Ign.regs φ) (hmem : Ign.mem φ) (hsynd : Ign.synd φ) (hsoft : Ign.soft φ) (htiles : Ign.tiles φ) (hstops : Ign.stops φ) (hgate : Ign.gate φ) (hflt : Ign.flt φ) (x0 : List Word) (x1 : Nat) (x2 : State) (x3 : Nat) : φ (State.followWords x0 x1 x2 x3).1 = φ x2 := by
  fun_induction State.followWords x0 x1 x2 x3 <;> first
    | (simp_all +zetaDelta only [State.fetchWord_keeps hregs hmem hsynd hsoft htiles hstops hgate hflt, hregs, hmem, hsynd, hsoft, htiles, hstops, hgate, hflt, ite_keeps φ, foldl_keeps φ, foldlPair_keeps φ, foldlJob_keeps φ, foldlJobPair_keeps φ, foldr_keeps φ, ite_st, ite_fst, ite_self, implies_true]; done)
    | (simp +zetaDelta only [State.fetchWord_keeps hregs hmem hsynd hsoft htiles hstops hgate hflt, hregs, hmem, hsynd, hsoft, htiles, hstops, hgate, hflt, ite_keeps φ, foldl_keeps φ, foldlPair_keeps φ, foldlJob_keeps φ, foldlJobPair_keeps φ, foldr_keeps φ, ite_st, ite_fst, ite_self, implies_true]; done)
    | (simp +zetaDelta only [State.fetchWord_keeps hregs hmem hsynd hsoft htiles hstops hgate hflt, hregs, hmem, hsynd, hsoft, htiles, hstops, hgate, hflt, ite_keeps φ, foldl_keeps φ, foldlPair_keeps φ, foldlJob_keeps φ, foldlJobPair_keeps φ, foldr_keeps φ, ite_st, ite_fst, ite_self, implies_true]; split <;> simp_all +zetaDelta only [State.fetchWord_keeps hregs hmem hsynd hsoft htiles hstops hgate hflt, hregs, hmem, hsynd, hsoft, htiles, hstops, hgate, hflt, ite_keeps φ, foldl_keeps φ, foldlPair_keeps φ, foldlJob_keeps φ, foldlJobPair_keeps φ, foldr_keeps φ, ite_st, ite_fst, ite_self, implies_true]; done)
    | (simp_all +zetaDelta [State.fetchWord_keeps hregs hmem hsynd hsoft htiles hstops hgate hflt, hregs, hmem, hsynd, hsoft, htiles, hstops, hgate, hflt, ite_keeps φ, foldl_keeps φ, foldlPair_keeps φ, foldlJob_keeps φ, foldlJobPair_keeps φ, foldr_keeps φ, ite_st, ite_fst, ite_self, implies_true]; done)
theorem State.bscSet_keeps {φ : State → β} (hregs : Ign.regs φ) (hcores : Ign.cores φ) (s : State) (t : Nat) (c : Nat) (d : Nat) (v : DWord) (n : Nat) : φ (State.bscSet s t c d v n) = φ s := by
  unfold State.bscSet
  try dsimp only
  (repeat' split) <;> first | (simp only [State.bscRetire_keeps hregs hcores, State.setCore_keeps hcores, hregs, hcores, ite_keeps φ, foldl_keeps φ, foldlPair_keeps φ, foldlJob_keeps φ, foldlJobPair_keeps φ, foldr_keeps φ, ite_st, ite_fst, ite_self, implies_true]; done) | rfl
theorem State.issueWith_keeps {φ : State → β} (hregs : Ign.regs φ) (hmem : Ign.mem φ) (hsynd : Ign.synd φ) (hsoft : Ign.soft φ) (hhost : Ign.host φ) (htiles : Ign.tiles φ) (hstops : Ign.stops φ) (hgate : Ign.gate φ) (hdisps : Ign.disps φ) (hcmd : Ign.cmd φ) (hpcie : Ign.pcie φ) (hflt : Ign.flt φ) (hlck : Ign.lck φ) (henr : Ign.enr φ) (houts : Ign.outs φ) (s : State) (t : Nat) (w : Word) (opc : Nat) (k : State → State) (hkk : ∀ s0, φ (k s0) = φ s0) : φ (State.issueWith s t w opc k) = φ s := by
  unfold State.issueWith
  try dsimp only
  (repeat' split) <;> first | (simp only [State.fetchWord_keeps hregs hmem hsynd hsoft htiles hstops hgate hflt, State.trap_keeps hregs hhost htiles hstops hdisps hcmd hpcie hflt hlck henr houts, State.trapHere_keeps hregs hhost htiles hstops hdisps hcmd hpcie hflt hlck henr houts, State.trapIns_keeps hregs hhost htiles hstops hdisps hcmd hpcie hflt hlck henr houts, hregs, hmem, hsynd, hsoft, hhost, htiles, hstops, hgate, hdisps, hcmd, hpcie, hflt, hlck, henr, houts, ite_keeps φ, foldl_keeps φ, foldlPair_keeps φ, foldlJob_keeps φ, foldlJobPair_keeps φ, foldr_keeps φ, ite_st, ite_fst, ite_self, implies_true, hkk]; done) | rfl
theorem State.withStage_keeps {φ : State → β} (hregs : Ign.regs φ) (hhost : Ign.host φ) (hcmd : Ign.cmd φ) (hpcie : Ign.pcie φ) (hflt : Ign.flt φ) (houts : Ign.outs φ) (s : State) (q : Nat) (idx : Nat) (op : Nat) (k : State → Descr → State) (hkk : ∀ s0 s1, φ (k s0 s1) = φ s0) : φ (State.withStage s q idx op k) = φ s := by
  unfold State.withStage
  try dsimp only
  (repeat' split) <;> first | (simp only [State.complete_keeps hregs hhost hcmd hpcie hflt houts, State.markStarted_keeps hcmd, State.withDescr_keeps hregs hhost hcmd hpcie hflt houts, hregs, hhost, hcmd, hpcie, hflt, houts, ite_keeps φ, foldl_keeps φ, foldlPair_keeps φ, foldlJob_keeps φ, foldlJobPair_keeps φ, foldr_keeps φ, ite_st, ite_fst, ite_self, implies_true, hkk]; done) | rfl
theorem Job.closeTables_keeps {φ : State → β} (hclk : Ign.clk φ) (hregs : Ign.regs φ) (hmem : Ign.mem φ) (hsynd : Ign.synd φ) (hsoft : Ign.soft φ) (hstops : Ign.stops φ) (hgate : Ign.gate φ) (hflt : Ign.flt φ) (hkv : Ign.kv φ) (j : Job) (root : Nat) (n : Nat) (conf : Bool) : φ (Job.closeTables j root n conf).st = φ j.st := by
  unfold Job.closeTables
  try dsimp only
  (repeat' split) <;> first | (simp only [Job.closePage_keeps hclk hregs hmem hsynd hsoft hstops hgate hflt hkv, Job.closeWord_keeps hregs hmem hsynd hsoft hstops hgate hflt, hclk, hregs, hmem, hsynd, hsoft, hstops, hgate, hflt, hkv, ite_keeps φ, foldl_keeps φ, foldlPair_keeps φ, foldlJob_keeps φ, foldlJobPair_keeps φ, foldr_keeps φ, ite_st, ite_fst, ite_self, implies_true]; done) | rfl
theorem State.timeOffset_keeps {φ : State → β} (hclk : Ign.clk φ) (hregs : Ign.regs φ) (hfab : Ign.fab φ) (s : State) (off : Int) : φ (State.timeOffset s off) = φ s := by
  unfold State.timeOffset
  try dsimp only
  (repeat' split) <;> first | (simp only [State.fput_keeps hregs, hclk, hregs, hfab, ign_clk_fab hclk hfab, ite_keeps φ, foldl_keeps φ, foldlPair_keeps φ, foldlJob_keeps φ, foldlJobPair_keeps φ, foldr_keeps φ, ite_st, ite_fst, ite_self, implies_true]; done) | rfl
theorem State.calTook_keeps {φ : State → β} (hclk : Ign.clk φ) (hregs : Ign.regs φ) (hmem : Ign.mem φ) (hsynd : Ign.synd φ) (hsoft : Ign.soft φ) (hhost : Ign.host φ) (hstops : Ign.stops φ) (hgate : Ign.gate φ) (hcmd : Ign.cmd φ) (hpcie : Ign.pcie φ) (hflt : Ign.flt φ) (hsec : Ign.sec φ) (hfw : Ign.fw φ) (hfab : Ign.fab φ) (houts : Ign.outs φ) (s : State) (code : Nat) : φ (State.calTook s code) = φ s := by
  unfold State.calTook
  try dsimp only
  (repeat' split) <;> first | (simp only [State.fwDone_keeps hclk hregs hmem hsynd hsoft hhost hstops hgate hcmd hpcie hflt hfw hfab houts, State.measure_keeps hregs hsec, hclk, hregs, hmem, hsynd, hsoft, hhost, hstops, hgate, hcmd, hpcie, hflt, hsec, hfw, hfab, houts, ite_keeps φ, foldl_keeps φ, foldlPair_keeps φ, foldlJob_keeps φ, foldlJobPair_keeps φ, foldr_keeps φ, ite_st, ite_fst, ite_self, implies_true]; done) | rfl
theorem Job.closeCtx_keeps {φ : State → β} (hclk : Ign.clk φ) (hregs : Ign.regs φ) (hmem : Ign.mem φ) (hsynd : Ign.synd φ) (hsoft : Ign.soft φ) (hstops : Ign.stops φ) (hgate : Ign.gate φ) (hflt : Ign.flt φ) (hkv : Ign.kv φ) (j : Job) (c : Nat) (b : List Byte) : φ (Job.closeCtx j c b).st = φ j.st := by
  unfold Job.closeCtx
  try dsimp only
  (repeat' split) <;> first | (simp only [Job.closePte_keeps hclk hregs hmem hsynd hsoft hstops hgate hflt hkv, Job.closeTables_keeps hclk hregs hmem hsynd hsoft hstops hgate hflt hkv, Job.map_keeps , Job.putEntry_keeps hregs hmem hsynd hsoft hstops hgate hflt, Job.refDown_keeps hclk hregs hmem hsynd hsoft hstops hgate hflt hkv, Job.write_keeps hregs hmem hsynd hsoft hstops hgate hflt, State.nodeRead_keeps hregs hmem hsynd hsoft hstops hgate hflt, hclk, hregs, hmem, hsynd, hsoft, hstops, hgate, hflt, hkv, ite_keeps φ, foldl_keeps φ, foldlPair_keeps φ, foldlJob_keeps φ, foldlJobPair_keeps φ, foldr_keeps φ, ite_st, ite_fst, ite_self, implies_true]; done) | rfl
theorem State.ringNext_keeps {φ : State → β} (hclk : Ign.clk φ) (hregs : Ign.regs φ) (hspm : Ign.spm φ) (hspmErr : Ign.spmErr φ) (htiles : Ign.tiles φ) (hflt : Ign.flt φ) (s : State) (t : Nat) (portA : List Nat) : φ (State.ringNext s t portA) = φ s := by
  unfold State.ringNext
  try dsimp only
  (repeat' split) <;> first | (simp only [State.fput_keeps hregs, State.spmWriteB_keeps hclk hregs hspm hspmErr htiles hflt, hclk, hregs, hspm, hspmErr, htiles, hflt, ite_keeps φ, foldl_keeps φ, foldlPair_keeps φ, foldlJob_keeps φ, foldlJobPair_keeps φ, foldr_keeps φ, ite_st, ite_fst, ite_self, implies_true]; done) | rfl
theorem State.inLost_keeps {φ : State → β} (hclk : Ign.clk φ) (hregs : Ign.regs φ) (hmem : Ign.mem φ) (hsynd : Ign.synd φ) (hsoft : Ign.soft φ) (hhost : Ign.host φ) (hstops : Ign.stops φ) (hgate : Ign.gate φ) (hcmd : Ign.cmd φ) (hpcie : Ign.pcie φ) (hflt : Ign.flt φ) (hkv : Ign.kv φ) (houts : Ign.outs φ) (s : State) (c : Nat) (x : Swap) (conf : Bool) (st : Nat) : φ (State.inLost s c x conf st) = φ s := by
  unfold State.inLost
  try dsimp only
  (repeat' split) <;> first | (simp only [Job.finish_keeps hregs hmem hsynd hsoft hstops hgate hflt hkv, Job.refDown_keeps hclk hregs hmem hsynd hsoft hstops hgate hflt hkv, State.inEnds_keeps hregs hmem hsynd hsoft hhost hstops hgate hcmd hpcie hflt hkv houts, hclk, hregs, hmem, hsynd, hsoft, hhost, hstops, hgate, hcmd, hpcie, hflt, hkv, houts, ite_keeps φ, foldl_keeps φ, foldlPair_keeps φ, foldlJob_keeps φ, foldlJobPair_keeps φ, foldr_keeps φ, ite_st, ite_fst, ite_self, implies_true]; done) | rfl
theorem State.grantPump_keeps {φ : State → β} (hclk : Ign.clk φ) (hregs : Ign.regs φ) (hmem : Ign.mem φ) (hsynd : Ign.synd φ) (hsoft : Ign.soft φ) (hhost : Ign.host φ) (hstops : Ign.stops φ) (hgate : Ign.gate φ) (hcmd : Ign.cmd φ) (hpcie : Ign.pcie φ) (hflt : Ign.flt φ) (hfab : Ign.fab φ) (houts : Ign.outs φ) (s : State) : φ (State.grantPump s) = φ s := by
  unfold State.grantPump
  try dsimp only
  (repeat' split) <;> first | (simp only [State.grantGo_keeps hclk hregs hmem hsynd hsoft hhost hstops hgate hcmd hpcie hflt hfab houts, hclk, hregs, hmem, hsynd, hsoft, hhost, hstops, hgate, hcmd, hpcie, hflt, hfab, houts, ite_keeps φ, foldl_keeps φ, foldlPair_keeps φ, foldlJob_keeps φ, foldlJobPair_keeps φ, foldr_keeps φ, ite_st, ite_fst, ite_self, implies_true]; done) | rfl
theorem State.slotBack_keeps {φ : State → β} (hclk : Ign.clk φ) (hregs : Ign.regs φ) (hmem : Ign.mem φ) (hsynd : Ign.synd φ) (hsoft : Ign.soft φ) (hhost : Ign.host φ) (hstops : Ign.stops φ) (hgate : Ign.gate φ) (hcmd : Ign.cmd φ) (hpcie : Ign.pcie φ) (hflt : Ign.flt φ) (hfab : Ign.fab φ) (houts : Ign.outs φ) (s : State) (i : Nat) (standing : Bool) : φ (State.slotBack s i standing) = φ s := by
  unfold State.slotBack
  try dsimp only
  (repeat' split) <;> first | (simp only [State.grantPump_keeps hclk hregs hmem hsynd hsoft hhost hstops hgate hcmd hpcie hflt hfab houts, State.post_keeps hclk hregs hmem hsynd hsoft hhost hstops hgate hcmd hpcie hflt hfab houts, State.setPeer_keeps hfab, hclk, hregs, hmem, hsynd, hsoft, hhost, hstops, hgate, hcmd, hpcie, hflt, hfab, houts, ite_keeps φ, foldl_keeps φ, foldlPair_keeps φ, foldlJob_keeps φ, foldlJobPair_keeps φ, foldr_keeps φ, ite_st, ite_fst, ite_self, implies_true]; done) | rfl
theorem State.sealOut_keeps {φ : State → β} (hsec : Ign.sec φ) (s : State) (sid : Nat) (ctx : Nat) (pt : List Byte) : φ (State.sealOut s sid ctx pt).1 = φ s := by
  unfold State.sealOut
  try dsimp only
  (repeat' split) <;> first | (simp only [State.setSession_keeps hsec, hsec, ite_keeps φ, foldl_keeps φ, foldlPair_keeps φ, foldlJob_keeps φ, foldlJobPair_keeps φ, foldr_keeps φ, ite_st, ite_fst, ite_self, implies_true]; done) | rfl
theorem State.copySeal_keeps {φ : State → β} (hregs : Ign.regs φ) (hmem : Ign.mem φ) (hsynd : Ign.synd φ) (hsoft : Ign.soft φ) (hhost : Ign.host φ) (hstops : Ign.stops φ) (hgate : Ign.gate φ) (hcmd : Ign.cmd φ) (hpcie : Ign.pcie φ) (hflt : Ign.flt φ) (hsec : Ign.sec φ) (houts : Ign.outs φ) (s : State) (q : Nat) (d : Descr) : φ (State.copySeal s q d) = φ s := by
  unfold State.copySeal
  try dsimp only
  (repeat' split) <;> first | (simp only [State.copyEnds_keeps hregs hhost hcmd hpcie hflt houts, State.daRead_keeps hregs hmem hsynd hsoft hstops hgate hflt, State.descrWrite_keeps hregs hhost hpcie, State.sealOut_keeps hsec, hregs, hmem, hsynd, hsoft, hhost, hstops, hgate, hcmd, hpcie, hflt, hsec, houts, ite_keeps φ, foldl_keeps φ, foldlPair_keeps φ, foldlJob_keeps φ, foldlJobPair_keeps φ, foldr_keeps φ, ite_st, ite_fst, ite_self, implies_true]; done) | rfl
theorem State.bscIssue_keeps {φ : State → β} (hregs : Ign.regs φ) (hgate : Ign.gate φ) (hcores : Ign.cores φ) (htokRel : Ign.tokRel φ) (hflt : Ign.flt φ) (henr : Ign.enr φ) (s : State) (t : Nat) (c : Nat) (opc : Nat) (k : State → Word → State) (hkk : ∀ s0 s1, φ (k s0 s1) = φ s0) : φ (State.bscIssue s t c opc k) = φ s := by
  unfold State.bscIssue
  try dsimp only
  (repeat' split) <;> first | (simp only [State.bscErr_keeps hregs hgate hcores htokRel hflt henr, hregs, hgate, hcores, htokRel, hflt, henr, ite_keeps φ, foldl_keeps φ, foldlPair_keeps φ, foldlJob_keeps φ, foldlJobPair_keeps φ, foldr_keeps φ, ite_st, ite_fst, ite_self, implies_true, hkk]; done) | rfl
theorem State.setQueue_keeps {φ : State → β} (htiles : Ign.tiles φ) (s : State) (t : Nat) (ch : Nat) (q : List DmaRun) : φ (State.setQueue s t ch q) = φ s := by
  unfold State.setQueue
  try dsimp only
  (repeat' split) <;> first | (simp only [State.setEng_keeps htiles, htiles, ite_keeps φ, foldl_keeps φ, foldlPair_keeps φ, foldlJob_keeps φ, foldlJobPair_keeps φ, foldr_keeps φ, ite_st, ite_fst, ite_self, implies_true]; done) | rfl
theorem State.laneFreeze_keeps {φ : State → β} (hregs : Ign.regs φ) (htiles : Ign.tiles φ) (s : State) (t : Nat) (tc : Nat) : φ (State.laneFreeze s t tc) = φ s := by
  unfold State.laneFreeze
  try dsimp only
  (repeat' split) <;> first | (simp only [State.freeze_keeps hregs htiles, State.setArr_keeps htiles, hregs, htiles, ite_keeps φ, foldl_keeps φ, foldlPair_keeps φ, foldlJob_keeps φ, foldlJobPair_keeps φ, foldr_keeps φ, ite_st, ite_fst, ite_self, implies_true]; done) | rfl
theorem State.phaseEnd_keeps {φ : State → β} (hclk : Ign.clk φ) (hregs : Ign.regs φ) (hpwr : Ign.pwr φ) (s : State) (r : Resv) : φ (State.phaseEnd s r) = φ s := by
  unfold State.phaseEnd
  try dsimp only
  (repeat' split) <;> first | (simp only [State.fput_keeps hregs, State.free_keeps hclk, hclk, hregs, hpwr, ite_keeps φ, foldl_keeps φ, foldlPair_keeps φ, foldlJob_keeps φ, foldlJobPair_keeps φ, foldr_keeps φ, ite_st, ite_fst, ite_self, implies_true]; done) | rfl
theorem State.respond_keeps {φ : State → β} (houts : Ign.outs φ) (s : State) (b : List Byte) : φ (State.respond s b) = φ s := by
  unfold State.respond
  try dsimp only
  (repeat' split) <;> first | (simp only [houts, ite_keeps φ, foldl_keeps φ, foldlPair_keeps φ, foldlJob_keeps φ, foldlJobPair_keeps φ, foldr_keeps φ, ite_st, ite_fst, ite_self, implies_true]; done) | rfl
theorem State.linkLost_keeps {φ : State → β} (hclk : Ign.clk φ) (hregs : Ign.regs φ) (hmem : Ign.mem φ) (hsynd : Ign.synd φ) (hsoft : Ign.soft φ) (hspm : Ign.spm φ) (hspmErr : Ign.spmErr φ) (hhost : Ign.host φ) (htiles : Ign.tiles φ) (hstops : Ign.stops φ) (hgate : Ign.gate φ) (hcmd : Ign.cmd φ) (hpcie : Ign.pcie φ) (hflt : Ign.flt φ) (hedy : Ign.edy φ) (hsec : Ign.sec φ) (hfw : Ign.fw φ) (hkv : Ign.kv φ) (hfab : Ign.fab φ) (hboot : Ign.boot φ) (houts : Ign.outs φ) (s : State) : φ (State.linkLost s) = φ s := by
  unfold State.linkLost
  try dsimp only
  (repeat' split) <;> first | (simp only [State.event_keeps hregs, State.fadd_keeps hregs, State.killQps_keeps hregs hcmd, State.logWrite_keeps hregs hedy, State.portReset_keeps hregs hpcie hsec, State.readsFail_keeps hclk hregs hmem hsynd hsoft hspm hspmErr hhost htiles hstops hgate hcmd hpcie hflt hedy hsec hfw hkv hfab hboot houts, hclk, hregs, hmem, hsynd, hsoft, hspm, hspmErr, hhost, htiles, hstops, hgate, hcmd, hpcie, hflt, hedy, hsec, hfw, hkv, hfab, hboot, houts, ite_keeps φ, foldl_keeps φ, foldlPair_keeps φ, foldlJob_keeps φ, foldlJobPair_keeps φ, foldr_keeps φ, ite_st, ite_fst, ite_self, implies_true]; done) | rfl
theorem State.closeGo_keeps {φ : State → β} (hclk : Ign.clk φ) (hregs : Ign.regs φ) (hmem : Ign.mem φ) (hsynd : Ign.synd φ) (hsoft : Ign.soft φ) (hhost : Ign.host φ) (hstops : Ign.stops φ) (hgate : Ign.gate φ) (hcmd : Ign.cmd φ) (hpcie : Ign.pcie φ) (hflt : Ign.flt φ) (hkv : Ign.kv φ) (henr : Ign.enr φ) (houts : Ign.outs φ) (s : State) (qp : Nat) (idx : Nat) (d : Descr) : φ (State.closeGo s qp idx d) = φ s := by
  unfold State.closeGo
  try dsimp only
  (repeat' split) <;> (try dsimp only) <;> first
    | (simp only [Job.closeCtx_keeps hclk hregs hmem hsynd hsoft hstops hgate hflt hkv, Job.finish_keeps hregs hmem hsynd hsoft hstops hgate hflt hkv, State.complete_keeps hregs hhost hcmd hpcie hflt houts, State.entryLost_keeps hregs hmem hsynd hsoft hstops hgate hflt hkv, State.kvRead_keeps hregs hmem hsynd hsoft hstops hgate hflt, State.kvSync_keeps hregs hmem hsynd hsoft, hclk, hregs, hmem, hsynd, hsoft, hhost, hstops, hgate, hcmd, hpcie, hflt, hkv, henr, houts, ign_kv_enr hkv henr, ite_keeps φ, foldl_keeps φ, foldlPair_keeps φ, foldlJob_keeps φ, foldlJobPair_keeps φ, foldr_keeps φ, ite_st, ite_fst, ite_self, implies_true]; done)
    | rfl
    | exact of_fst (by assumption) (by simp only [Job.closeCtx_keeps hclk hregs hmem hsynd hsoft hstops hgate hflt hkv, Job.finish_keeps hregs hmem hsynd hsoft hstops hgate hflt hkv, State.complete_keeps hregs hhost hcmd hpcie hflt houts, State.entryLost_keeps hregs hmem hsynd hsoft hstops hgate hflt hkv, State.kvRead_keeps hregs hmem hsynd hsoft hstops hgate hflt, State.kvSync_keeps hregs hmem hsynd hsoft, hclk, hregs, hmem, hsynd, hsoft, hhost, hstops, hgate, hcmd, hpcie, hflt, hkv, henr, houts, ign_kv_enr hkv henr, ite_keeps φ, foldl_keeps φ, foldlPair_keeps φ, foldlJob_keeps φ, foldlJobPair_keeps φ, foldr_keeps φ, ite_st, ite_fst, ite_self, implies_true])
    | (simp only [Job.closeCtx_keeps hclk hregs hmem hsynd hsoft hstops hgate hflt hkv, Job.finish_keeps hregs hmem hsynd hsoft hstops hgate hflt hkv, State.complete_keeps hregs hhost hcmd hpcie hflt houts, State.entryLost_keeps hregs hmem hsynd hsoft hstops hgate hflt hkv, State.kvRead_keeps hregs hmem hsynd hsoft hstops hgate hflt, State.kvSync_keeps hregs hmem hsynd hsoft, hclk, hregs, hmem, hsynd, hsoft, hhost, hstops, hgate, hcmd, hpcie, hflt, hkv, henr, houts, ign_kv_enr hkv henr, ite_keeps φ, foldl_keeps φ, foldlPair_keeps φ, foldlJob_keeps φ, foldlJobPair_keeps φ, foldr_keeps φ, ite_st, ite_fst, ite_self, implies_true]; exact of_fst (by assumption) (by simp only [Job.closeCtx_keeps hclk hregs hmem hsynd hsoft hstops hgate hflt hkv, Job.finish_keeps hregs hmem hsynd hsoft hstops hgate hflt hkv, State.complete_keeps hregs hhost hcmd hpcie hflt houts, State.entryLost_keeps hregs hmem hsynd hsoft hstops hgate hflt hkv, State.kvRead_keeps hregs hmem hsynd hsoft hstops hgate hflt, State.kvSync_keeps hregs hmem hsynd hsoft, hclk, hregs, hmem, hsynd, hsoft, hhost, hstops, hgate, hcmd, hpcie, hflt, hkv, henr, houts, ign_kv_enr hkv henr, ite_keeps φ, foldl_keeps φ, foldlPair_keeps φ, foldlJob_keeps φ, foldlJobPair_keeps φ, foldr_keeps φ, ite_st, ite_fst, ite_self, implies_true]))
theorem State.vectorsWrite_keeps {φ : State → β} (hregs : Ign.regs φ) (hmem : Ign.mem φ) (hsynd : Ign.synd φ) (hsoft : Ign.soft φ) (hstops : Ign.stops φ) (hgate : Ign.gate φ) (hflt : Ign.flt φ) (x0 : Nat) (x1 : State) (x2 : Nat) (x3 : Nat) (x4 : List Byte) : φ (State.vectorsWrite x0 x1 x2 x3 x4) = φ x1 := by
  fun_induction State.vectorsWrite x0 x1 x2 x3 x4 <;> first
    | (simp_all +zetaDelta only [State.daWrite_keeps hregs hmem hsynd hsoft hstops hgate hflt, hregs, hmem, hsynd, hsoft, hstops, hgate, hflt, ite_keeps φ, foldl_keeps φ, foldlPair_keeps φ, foldlJob_keeps φ, foldlJobPair_keeps φ, foldr_keeps φ, ite_st, ite_fst, ite_self, implies_true]; done)
    | (simp +zetaDelta only [State.daWrite_keeps hregs hmem hsynd hsoft hstops hgate hflt, hregs, hmem, hsynd, hsoft, hstops, hgate, hflt, ite_keeps φ, foldl_keeps φ, foldlPair_keeps φ, foldlJob_keeps φ, foldlJobPair_keeps φ, foldr_keeps φ, ite_st, ite_fst, ite_self, implies_true]; done)
    | (simp +zetaDelta only [State.daWrite_keeps hregs hmem hsynd hsoft hstops hgate hflt, hregs, hmem, hsynd, hsoft, hstops, hgate, hflt, ite_keeps φ, foldl_keeps φ, foldlPair_keeps φ, foldlJob_keeps φ, foldlJobPair_keeps φ, foldr_keeps φ, ite_st, ite_fst, ite_self, implies_true]; split <;> simp_all +zetaDelta only [State.daWrite_keeps hregs hmem hsynd hsoft hstops hgate hflt, hregs, hmem, hsynd, hsoft, hstops, hgate, hflt, ite_keeps φ, foldl_keeps φ, foldlPair_keeps φ, foldlJob_keeps φ, foldlJobPair_keeps φ, foldr_keeps φ, ite_st, ite_fst, ite_self, implies_true]; done)
    | (simp_all +zetaDelta [State.daWrite_keeps hregs hmem hsynd hsoft hstops hgate hflt, hregs, hmem, hsynd, hsoft, hstops, hgate, hflt, ite_keeps φ, foldl_keeps φ, foldlPair_keeps φ, foldlJob_keeps φ, foldlJobPair_keeps φ, foldr_keeps φ, ite_st, ite_fst, ite_self, implies_true]; done)
theorem State.queueFence_keeps {φ : State → β} (hregs : Ign.regs φ) (hhost : Ign.host φ) (hcmd : Ign.cmd φ) (hpcie : Ign.pcie φ) (hflt : Ign.flt φ) (houts : Ign.outs φ) (q : Nat) (s : State) (d : Descr) : φ (State.queueFence q s d) = φ s := by
  unfold State.queueFence
  try dsimp only
  (repeat' split) <;> first | (simp only [State.complete_keeps hregs hhost hcmd hpcie hflt houts, hregs, hhost, hcmd, hpcie, hflt, houts, ite_keeps φ, foldl_keeps φ, foldlPair_keeps φ, foldlJob_keeps φ, foldlJobPair_keeps φ, foldr_keeps φ, ite_st, ite_fst, ite_self, implies_true]; done) | rfl
theorem State.replyStatus_keeps {φ : State → β} (hclk : Ign.clk φ) (hregs : Ign.regs φ) (hmem : Ign.mem φ) (hsynd : Ign.synd φ) (hsoft : Ign.soft φ) (hhost : Ign.host φ) (hstops : Ign.stops φ) (hgate : Ign.gate φ) (hcmd : Ign.cmd φ) (hpcie : Ign.pcie φ) (hflt : Ign.flt φ) (hfab : Ign.fab φ) (houts : Ign.outs φ) (s : State) (i : Nat) (m : RxMsg) (status : Nat) : φ (State.replyStatus s i m status) = φ s := by
  unfold State.replyStatus
  try dsimp only
  (repeat' split) <;> first | (simp only [State.holdFor_keeps hfab, State.post_keeps hclk hregs hmem hsynd hsoft hhost hstops hgate hcmd hpcie hflt hfab houts, hclk, hregs, hmem, hsynd, hsoft, hhost, hstops, hgate, hcmd, hpcie, hflt, hfab, houts, ite_keeps φ, foldl_keeps φ, foldlPair_keeps φ, foldlJob_keeps φ, foldlJobPair_keeps φ, foldr_keeps φ, ite_st, ite_fst, ite_self, implies_true]; done) | rfl
theorem State.rowRead_keeps {φ : State → β} (hclk : Ign.clk φ) (hregs : Ign.regs φ) (hmem : Ign.mem φ) (hsynd : Ign.synd φ) (hsoft : Ign.soft φ) (htiles : Ign.tiles φ) (hstops : Ign.stops φ) (hgate : Ign.gate φ) (hflt : Ign.flt φ) (s : State) (t : Nat) (d : DmaDesc) (r : Nat) : φ (State.rowRead s t d r).1 = φ s := by
  unfold State.rowRead
  try dsimp only
  (repeat' split) <;> first | (simp only [State.dmaReadGo_keeps hregs hmem hsynd hsoft hstops hgate hflt, State.segsRead_keeps hclk hregs htiles hflt, State.setEng_keeps htiles, hclk, hregs, hmem, hsynd, hsoft, htiles, hstops, hgate, hflt, ite_keeps φ, foldl_keeps φ, foldlPair_keeps φ, foldlJob_keeps φ, foldlJobPair_keeps φ, foldr_keeps φ, ite_st, ite_fst, ite_self, implies_true]; done) | rfl
theorem State.refNext_keeps {φ : State → β} (hstops : Ign.stops φ) (s : State) (t : Nat) (b : Nat) : φ (State.refNext s t b) = φ s := by
  unfold State.refNext
  try dsimp only
  (repeat' split) <;> first | (simp only [State.setStop_keeps hstops, hstops, ite_keeps φ, foldl_keeps φ, foldlPair_keeps φ, foldlJob_keeps φ, foldlJobPair_keeps φ, foldr_keeps φ, ite_st, ite_fst, ite_self, implies_true]; done) | rfl
theorem State.lossDetected_keeps {φ : State → β} (hclk : Ign.clk φ) (hregs : Ign.regs φ) (hflt : Ign.flt φ) (hthm : Ign.thm φ) (hbrd : Ign.brd φ) (s : State) : φ (State.lossDetected s) = φ s := by
  unfold State.lossDetected
  try dsimp only
  (repeat' split) <;> first | (simp only [State.alert_keeps hbrd, State.cond_keeps hflt, State.event_keeps hregs, State.fput_keeps hregs, State.raise_keeps hflt, State.tcapShow_keeps hclk hregs, hclk, hregs, hflt, hthm, hbrd, ite_keeps φ, foldl_keeps φ, foldlPair_keeps φ, foldlJob_keeps φ, foldlJobPair_keeps φ, foldr_keeps φ, ite_st, ite_fst, ite_self, implies_true]; done) | rfl
theorem State.copyGo_keeps {φ : State → β} (hclk : Ign.clk φ) (hregs : Ign.regs φ) (hmem : Ign.mem φ) (hsynd : Ign.synd φ) (hsoft : Ign.soft φ) (hspm : Ign.spm φ) (hspmErr : Ign.spmErr φ) (hhost : Ign.host φ) (htiles : Ign.tiles φ) (hstops : Ign.stops φ) (hgate : Ign.gate φ) (hpcie : Ign.pcie φ) (hflt : Ign.flt φ) (houts : Ign.outs φ) (x0 : Nat) (x1 : State) (x2 : CopyD) (x3 : Nat) (x4 : Nat) (x5 : List Nat) : φ (State.copyGo x0 x1 x2 x3 x4 x5).1 = φ x1 := by
  fun_induction State.copyGo x0 x1 x2 x3 x4 x5 <;> first
    | (simp_all +zetaDelta only [State.copyRead_keeps hclk hregs hmem hsynd hsoft htiles hstops hgate hflt, State.copyWrite_keeps hclk hregs hmem hsynd hsoft hspm hspmErr hhost htiles hstops hgate hpcie hflt houts, hclk, hregs, hmem, hsynd, hsoft, hspm, hspmErr, hhost, htiles, hstops, hgate, hpcie, hflt, houts, ite_keeps φ, foldl_keeps φ, foldlPair_keeps φ, foldlJob_keeps φ, foldlJobPair_keeps φ, foldr_keeps φ, ite_st, ite_fst, ite_self, implies_true]; done)
    | (simp +zetaDelta only [State.copyRead_keeps hclk hregs hmem hsynd hsoft htiles hstops hgate hflt, State.copyWrite_keeps hclk hregs hmem hsynd hsoft hspm hspmErr hhost htiles hstops hgate hpcie hflt houts, hclk, hregs, hmem, hsynd, hsoft, hspm, hspmErr, hhost, htiles, hstops, hgate, hpcie, hflt, houts, ite_keeps φ, foldl_keeps φ, foldlPair_keeps φ, foldlJob_keeps φ, foldlJobPair_keeps φ, foldr_keeps φ, ite_st, ite_fst, ite_self, implies_true]; done)
    | (simp +zetaDelta only [State.copyRead_keeps hclk hregs hmem hsynd hsoft htiles hstops hgate hflt, State.copyWrite_keeps hclk hregs hmem hsynd hsoft hspm hspmErr hhost htiles hstops hgate hpcie hflt houts, hclk, hregs, hmem, hsynd, hsoft, hspm, hspmErr, hhost, htiles, hstops, hgate, hpcie, hflt, houts, ite_keeps φ, foldl_keeps φ, foldlPair_keeps φ, foldlJob_keeps φ, foldlJobPair_keeps φ, foldr_keeps φ, ite_st, ite_fst, ite_self, implies_true]; split <;> simp_all +zetaDelta only [State.copyRead_keeps hclk hregs hmem hsynd hsoft htiles hstops hgate hflt, State.copyWrite_keeps hclk hregs hmem hsynd hsoft hspm hspmErr hhost htiles hstops hgate hpcie hflt houts, hclk, hregs, hmem, hsynd, hsoft, hspm, hspmErr, hhost, htiles, hstops, hgate, hpcie, hflt, houts, ite_keeps φ, foldl_keeps φ, foldlPair_keeps φ, foldlJob_keeps φ, foldlJobPair_keeps φ, foldr_keeps φ, ite_st, ite_fst, ite_self, implies_true]; done)
    | (simp_all +zetaDelta [State.copyRead_keeps hclk hregs hmem hsynd hsoft htiles hstops hgate hflt, State.copyWrite_keeps hclk hregs hmem hsynd hsoft hspm hspmErr hhost htiles hstops hgate hpcie hflt houts, hclk, hregs, hmem, hsynd, hsoft, hspm, hspmErr, hhost, htiles, hstops, hgate, hpcie, hflt, houts, ite_keeps φ, foldl_keeps φ, foldlPair_keeps φ, foldlJob_keeps φ, foldlJobPair_keeps φ, foldr_keeps φ, ite_st, ite_fst, ite_self, implies_true]; done)
theorem State.tagFail_keeps {φ : State → β} (hregs : Ign.regs φ) (hflt : Ign.flt φ) (hfab : Ign.fab φ) (s : State) (p : Nat) (src : Nat) (sport : Nat) : φ (State.tagFail s p src sport) = φ s := by
  unfold State.tagFail
  try dsimp only
  (repeat' split) <;> first | (simp only [State.fadd_keeps hregs, State.raise_keeps hflt, State.setPeer_keeps hfab, hregs, hflt, hfab, ite_keeps φ, foldl_keeps φ, foldlPair_keeps φ, foldlJob_keeps φ, foldlJobPair_keeps φ, foldr_keeps φ, ite_st, ite_fst, ite_self, implies_true]; done) | rfl
theorem State.tokRoute_keeps {φ : State → β} (hclk : Ign.clk φ) (hregs : Ign.regs φ) (hmem : Ign.mem φ) (hsynd : Ign.synd φ) (hsoft : Ign.soft φ) (hstops : Ign.stops φ) (hgate : Ign.gate φ) (hflt : Ign.flt φ) (s : State) (x : Send) : φ (State.tokRoute s x).1 = φ s := by
  unfold State.tokRoute
  try dsimp only
  (repeat' split) <;> first | (simp only [State.exhRead_keeps hregs hmem hsynd hsoft hstops hgate hflt, State.fabRead_keeps hclk hregs hmem hsynd hsoft hstops hgate hflt, hclk, hregs, hmem, hsynd, hsoft, hstops, hgate, hflt, ite_keeps φ, foldl_keeps φ, foldlPair_keeps φ, foldlJob_keeps φ, foldlJobPair_keeps φ, foldr_keeps φ, ite_st, ite_fst, ite_self, implies_true]; done) | rfl
theorem State.useCredit_keeps {φ : State → β} (hfab : Ign.fab φ) (s : State) (i : Nat) : φ (State.useCredit s i) = φ s := by
  unfold State.useCredit
  try dsimp only
  (repeat' split) <;> first | (simp only [State.setPeer_keeps hfab, hfab, ite_keeps φ, foldl_keeps φ, foldlPair_keeps φ, foldlJob_keeps φ, foldlJobPair_keeps φ, foldr_keeps φ, ite_st, ite_fst, ite_self, implies_true]; done) | rfl
theorem State.rdxGo_keeps {φ : State → β} (hclk : Ign.clk φ) (hregs : Ign.regs φ) (hhost : Ign.host φ) (htiles : Ign.tiles φ) (hstops : Ign.stops φ) (hdisps : Ign.disps φ) (hcmd : Ign.cmd φ) (hpcie : Ign.pcie φ) (hflt : Ign.flt φ) (hlck : Ign.lck φ) (henr : Ign.enr φ) (houts : Ign.outs φ) (x0 : Nat) (x1 : State) (x2 : Nat) (x3 : Word) (x4 : Nat) (x5 : Nat) (x6 : Nat) (x7 : List Byte) (x8 : State → List Byte → State) (hkx8 : ∀ s0 s1, φ (x8 s0 s1) = φ s0) : φ (State.rdxGo x0 x1 x2 x3 x4 x5 x6 x7 x8) = φ x1 := by
  fun_induction State.rdxGo x0 x1 x2 x3 x4 x5 x6 x7 x8 <;> first
    | (simp_all +zetaDelta only [State.progRead_keeps hclk hregs hhost htiles hstops hdisps hcmd hpcie hflt hlck henr houts, hclk, hregs, hhost, htiles, hstops, hdisps, hcmd, hpcie, hflt, hlck, henr, houts, ite_keeps φ, foldl_keeps φ, foldlPair_keeps φ, foldlJob_keeps φ, foldlJobPair_keeps φ, foldr_keeps φ, ite_st, ite_fst, ite_self, implies_true, hkx8]; done)
    | (simp +zetaDelta only [State.progRead_keeps hclk hregs hhost htiles hstops hdisps hcmd hpcie hflt hlck henr houts, hclk, hregs, hhost, htiles, hstops, hdisps, hcmd, hpcie, hflt, hlck, henr, houts, ite_keeps φ, foldl_keeps φ, foldlPair_keeps φ, foldlJob_keeps φ, foldlJobPair_keeps φ, foldr_keeps φ, ite_st, ite_fst, ite_self, implies_true, hkx8]; done)
    | (simp +zetaDelta only [State.progRead_keeps hclk hregs hhost htiles hstops hdisps hcmd hpcie hflt hlck henr houts, hclk, hregs, hhost, htiles, hstops, hdisps, hcmd, hpcie, hflt, hlck, henr, houts, ite_keeps φ, foldl_keeps φ, foldlPair_keeps φ, foldlJob_keeps φ, foldlJobPair_keeps φ, foldr_keeps φ, ite_st, ite_fst, ite_self, implies_true, hkx8]; split <;> simp_all +zetaDelta only [State.progRead_keeps hclk hregs hhost htiles hstops hdisps hcmd hpcie hflt hlck henr houts, hclk, hregs, hhost, htiles, hstops, hdisps, hcmd, hpcie, hflt, hlck, henr, houts, ite_keeps φ, foldl_keeps φ, foldlPair_keeps φ, foldlJob_keeps φ, foldlJobPair_keeps φ, foldr_keeps φ, ite_st, ite_fst, ite_self, implies_true, hkx8]; done)
    | (simp_all +zetaDelta [State.progRead_keeps hclk hregs hhost htiles hstops hdisps hcmd hpcie hflt hlck henr houts, hclk, hregs, hhost, htiles, hstops, hdisps, hcmd, hpcie, hflt, hlck, henr, houts, ite_keeps φ, foldl_keeps φ, foldlPair_keeps φ, foldlJob_keeps φ, foldlJobPair_keeps φ, foldr_keeps φ, ite_st, ite_fst, ite_self, implies_true, hkx8]; done)
theorem State.rxPacket_keeps {φ : State → β} (hregs : Ign.regs φ) (hfab : Ign.fab φ) (s : State) (src : Nat) (p : Nat) (b : List Byte) (pay : List Byte) : φ (State.rxPacket s src p b pay) = φ s := by
  unfold State.rxPacket
  try dsimp only
  (repeat' split) <;> first | (simp only [State.event_keeps hregs, State.setPeer_keeps hfab, hregs, hfab, ite_keeps φ, foldl_keeps φ, foldlPair_keeps φ, foldlJob_keeps φ, foldlJobPair_keeps φ, foldr_keeps φ, ite_st, ite_fst, ite_self, implies_true]; done) | rfl
theorem State.ringTake_keeps {φ : State → β} (hregs : Ign.regs φ) (hmem : Ign.mem φ) (hsynd : Ign.synd φ) (hsoft : Ign.soft φ) (hstops : Ign.stops φ) (hgate : Ign.gate φ) (hflt : Ign.flt φ) (hfab : Ign.fab φ) (x0 : Nat) (x1 : State) (x2 : Nat) (x3 : Nat) : φ (State.ringTake x0 x1 x2 x3) = φ x1 := by
  fun_induction State.ringTake x0 x1 x2 x3 <;> first
    | (simp_all +zetaDelta only [State.daRead_keeps hregs hmem hsynd hsoft hstops hgate hflt, State.daWrite_keeps hregs hmem hsynd hsoft hstops hgate hflt, hregs, hmem, hsynd, hsoft, hstops, hgate, hflt, hfab, ite_keeps φ, foldl_keeps φ, foldlPair_keeps φ, foldlJob_keeps φ, foldlJobPair_keeps φ, foldr_keeps φ, ite_st, ite_fst, ite_self, implies_true]; done)
    | (simp +zetaDelta only [State.daRead_keeps hregs hmem hsynd hsoft hstops hgate hflt, State.daWrite_keeps hregs hmem hsynd hsoft hstops hgate hflt, hregs, hmem, hsynd, hsoft, hstops, hgate, hflt, hfab, ite_keeps φ, foldl_keeps φ, foldlPair_keeps φ, foldlJob_keeps φ, foldlJobPair_keeps φ, foldr_keeps φ, ite_st, ite_fst, ite_self, implies_true]; done)
    | (simp +zetaDelta only [State.daRead_keeps hregs hmem hsynd hsoft hstops hgate hflt, State.daWrite_keeps hregs hmem hsynd hsoft hstops hgate hflt, hregs, hmem, hsynd, hsoft, hstops, hgate, hflt, hfab, ite_keeps φ, foldl_keeps φ, foldlPair_keeps φ, foldlJob_keeps φ, foldlJobPair_keeps φ, foldr_keeps φ, ite_st, ite_fst, ite_self, implies_true]; split <;> simp_all +zetaDelta only [State.daRead_keeps hregs hmem hsynd hsoft hstops hgate hflt, State.daWrite_keeps hregs hmem hsynd hsoft hstops hgate hflt, hregs, hmem, hsynd, hsoft, hstops, hgate, hflt, hfab, ite_keeps φ, foldl_keeps φ, foldlPair_keeps φ, foldlJob_keeps φ, foldlJobPair_keeps φ, foldr_keeps φ, ite_st, ite_fst, ite_self, implies_true]; done)
    | (simp_all +zetaDelta [State.daRead_keeps hregs hmem hsynd hsoft hstops hgate hflt, State.daWrite_keeps hregs hmem hsynd hsoft hstops hgate hflt, hregs, hmem, hsynd, hsoft, hstops, hgate, hflt, hfab, ite_keeps φ, foldl_keeps φ, foldlPair_keeps φ, foldlJob_keeps φ, foldlJobPair_keeps φ, foldr_keeps φ, ite_st, ite_fst, ite_self, implies_true]; done)
theorem State.access_keeps {φ : State → β} (hclk : Ign.clk φ) (hregs : Ign.regs φ) (hmem : Ign.mem φ) (hsynd : Ign.synd φ) (hsoft : Ign.soft φ) (hhost : Ign.host φ) (hstops : Ign.stops φ) (hgate : Ign.gate φ) (hcmd : Ign.cmd φ) (hpcie : Ign.pcie φ) (hflt : Ign.flt φ) (hfab : Ign.fab φ) (houts : Ign.outs φ) (s : State) (i : Nat) (m : RxMsg) : φ (State.access s i m) = φ s := by
  unfold State.access
  try dsimp only
  (repeat' split) <;> first | (simp only [State.event_keeps hregs, State.replyStatus_keeps hclk hregs hmem hsynd hsoft hhost hstops hgate hcmd hpcie hflt hfab houts, hclk, hregs, hmem, hsynd, hsoft, hhost, hstops, hgate, hcmd, hpcie, hflt, hfab, houts, ite_keeps φ, foldl_keeps φ, foldlPair_keeps φ, foldlJob_keeps φ, foldlJobPair_keeps φ, foldr_keeps φ, ite_st, ite_fst, ite_self, implies_true]; done) | rfl
theorem State.buildList_keeps {φ : State → β} (hclk : Ign.clk φ) (hregs : Ign.regs φ) (hmem : Ign.mem φ) (hsynd : Ign.synd φ) (hsoft : Ign.soft φ) (hstops : Ign.stops φ) (hgate : Ign.gate φ) (hflt : Ign.flt φ) (hkv : Ign.kv φ) (s : State) (t : Nat) : φ (State.buildList s t) = φ s := by
  unfold State.buildList
  try dsimp only
  (repeat' split) <;> first | (simp only [State.joinFree_keeps hclk hregs hmem hsynd hsoft hstops hgate hflt hkv, hclk, hregs, hmem, hsynd, hsoft, hstops, hgate, hflt, hkv, ite_keeps φ, foldl_keeps φ, foldlPair_keeps φ, foldlJob_keeps φ, foldlJobPair_keeps φ, foldr_keeps φ, ite_st, ite_fst, ite_self, implies_true]; done) | rfl
theorem State.engineOn_keeps {φ : State → β} (hclk : Ign.clk φ) (hregs : Ign.regs φ) (hspm : Ign.spm φ) (hspmErr : Ign.spmErr φ) (htiles : Ign.tiles φ) (hstops : Ign.stops φ) (hflt : Ign.flt φ) (henr : Ign.enr φ) (hpwr : Ign.pwr φ) (houts : Ign.outs φ) (s : State) (t : Nat) (portA : List Nat) : φ (State.engineOn s t portA) = φ s := by
  unfold State.engineOn
  try dsimp only
  (repeat' split) <;> first | (simp only [State.ingressDrain_keeps hclk hregs hspm hspmErr htiles hstops hflt houts, State.setEng_keeps htiles, State.useTile_keeps henr, State.wipeEnd_keeps hregs hspm hspmErr htiles, State.wipeStart_keeps hregs hspm hspmErr htiles, hclk, hregs, hspm, hspmErr, htiles, hstops, hflt, henr, hpwr, houts, ite_keeps φ, foldl_keeps φ, foldlPair_keeps φ, foldlJob_keeps φ, foldlJobPair_keeps φ, foldr_keeps φ, ite_st, ite_fst, ite_self, implies_true]; done) | rfl
theorem State.dispStart_keeps {φ : State → β} (hclk : Ign.clk φ) (hregs : Ign.regs φ) (hmem : Ign.mem φ) (hsynd : Ign.synd φ) (hsoft : Ign.soft φ) (hhost : Ign.host φ) (htiles : Ign.tiles φ) (hstops : Ign.stops φ) (hgate : Ign.gate φ) (hdisps : Ign.disps φ) (hnextDisp : Ign.nextDisp φ) (hcmd : Ign.cmd φ) (hpcie : Ign.pcie φ) (hflt : Ign.flt φ) (henr : Ign.enr φ) (hpwr : Ign.pwr φ) (houts : Ign.outs φ) (s : State) (q : Nat) (x : Descr) : φ (State.dispStart s q x) = φ s := by
  unfold State.dispStart
  try dsimp only
  (repeat' split) <;> first | (simp only [State.complete_keeps hregs hhost hcmd hpcie hflt houts, State.fadd_keeps hregs, State.fput_keeps hregs, State.setDisp_keeps hdisps, State.tableCheck_keeps hclk hregs hmem hsynd hsoft hstops hgate hflt, State.tileStart_keeps hregs hmem hsynd hsoft htiles hstops hgate hdisps hflt henr hpwr, hclk, hregs, hmem, hsynd, hsoft, hhost, htiles, hstops, hgate, hdisps, hnextDisp, hcmd, hpcie, hflt, henr, hpwr, houts, ite_keeps φ, foldl_keeps φ, foldlPair_keeps φ, foldlJob_keeps φ, foldlJobPair_keeps φ, foldr_keeps φ, ite_st, ite_fst, ite_self, implies_true]; done) | rfl
theorem State.stepBody_keeps {φ : State → β} (hclk : Ign.clk φ) (hregs : Ign.regs φ) (htiles : Ign.tiles φ) (hflt : Ign.flt φ) (henr : Ign.enr φ) (s : State) (t : Nat) : φ (State.stepBody s t) = φ s := by
  unfold State.stepBody
  try dsimp only
  (repeat' split) <;> first | (simp only [State.backFreeze_keeps hregs htiles, State.emptyStep_keeps hregs htiles, State.feedOs_keeps hclk hregs htiles hflt henr, State.feedRows_keeps hclk hregs htiles hflt henr, State.freeze_keeps hregs htiles, State.laneFreeze_keeps hregs htiles, State.passError_keeps hregs htiles henr, State.setArr_keeps htiles, State.skipGroups_keeps hclk hregs htiles hflt, State.thaw_keeps htiles, hclk, hregs, htiles, hflt, henr, ite_keeps φ, foldl_keeps φ, foldlPair_keeps φ, foldlJob_keeps φ, foldlJobPair_keeps φ, foldr_keeps φ, ite_st, ite_fst, ite_self, implies_true]; done) | rfl
theorem State.actNow_keeps {φ : State → β} (hstops : Ign.stops φ) (s : State) (t : Nat) (b : Nat) : φ (State.actNow s t b) = φ s := by
  unfold State.actNow
  try dsimp only
  (repeat' split) <;> first | (simp only [State.setStop_keeps hstops, hstops, ite_keeps φ, foldl_keeps φ, foldlPair_keeps φ, foldlJob_keeps φ, foldlJobPair_keeps φ, foldr_keeps φ, ite_st, ite_fst, ite_self, implies_true]; done) | rfl
theorem State.withFetchWord_keeps {φ : State → β} (hpending : Ign.pending φ) (s : State) (nbits : Nat) (w : Nat) : φ (State.withFetchWord s nbits w) = φ s := by
  unfold State.withFetchWord
  try dsimp only
  (repeat' split) <;> first | (simp only [hpending, ite_keeps φ, foldl_keeps φ, foldlPair_keeps φ, foldlJob_keeps φ, foldlJobPair_keeps φ, foldr_keeps φ, ite_st, ite_fst, ite_self, implies_true]; done) | rfl
theorem State.exchange_keeps {φ : State → β} (hregs : Ign.regs φ) (hgate : Ign.gate φ) (hcores : Ign.cores φ) (htokRel : Ign.tokRel φ) (hflt : Ign.flt φ) (henr : Ign.enr φ) (s : State) (t : Nat) (c : Nat) (w : Word) (k : Nat → State) (hkk : ∀ s0, φ (k s0) = φ s) : φ (State.exchange s t c w k) = φ s := by
  have hw := fun s => State.coreWaits_keeps (φ := φ) hcores s t c
  unfold State.exchange State.whenReady
  dsimp only
  (repeat' split) <;> first | rfl | exact hkk _ | simp only [hw, State.bscErr_keeps hregs hgate hcores htokRel hflt henr, State.spmViol_keeps hregs, hregs, hgate, hcores, htokRel, hflt, henr, ite_keeps φ, foldl_keeps φ, foldlPair_keeps φ, foldlJob_keeps φ, foldlJobPair_keeps φ, foldr_keeps φ, ite_st, ite_fst, ite_self, implies_true, hkk]
theorem State.endCheck_keeps {φ : State → β} (hregs : Ign.regs φ) (hhost : Ign.host φ) (htiles : Ign.tiles φ) (hstops : Ign.stops φ) (hdisps : Ign.disps φ) (hcmd : Ign.cmd φ) (hpcie : Ign.pcie φ) (hflt : Ign.flt φ) (hlck : Ign.lck φ) (henr : Ign.enr φ) (houts : Ign.outs φ) (s : State) (t : Nat) (w : Word) (all : Bool) (k : State → State) (hkk : ∀ s0, φ (k s0) = φ s0) : φ (State.endCheck s t w all k) = φ s := by
  unfold State.endCheck
  try dsimp only
  (repeat' split) <;> first | (simp only [State.stallAt_keeps htiles, State.streamCheck_keeps hregs htiles, State.trapHere_keeps hregs hhost htiles hstops hdisps hcmd hpcie hflt hlck henr houts, hregs, hhost, htiles, hstops, hdisps, hcmd, hpcie, hflt, hlck, henr, houts, ite_keeps φ, foldl_keeps φ, foldlPair_keeps φ, foldlJob_keeps φ, foldlJobPair_keeps φ, foldr_keeps φ, ite_st, ite_fst, ite_self, implies_true, hkk]; done) | rfl
theorem State.takeDescr_keeps {φ : State → β} (hcmd : Ign.cmd φ) (hkv : Ign.kv φ) (s : State) (q : Nat) (bs : List Byte) : φ (State.takeDescr s q bs) = φ s := by
  unfold State.takeDescr
  try dsimp only
  (repeat' split) <;> first | (simp only [State.headSync_keeps hcmd, State.setQp_keeps hcmd, hcmd, hkv, ite_keeps φ, foldl_keeps φ, foldlPair_keeps φ, foldlJob_keeps φ, foldlJobPair_keeps φ, foldr_keeps φ, ite_st, ite_fst, ite_self, implies_true]; done) | rfl
theorem State.vrxDrop_keeps {φ : State → β} (hregs : Ign.regs φ) (s : State) : φ (State.vrxDrop s) = φ s := by
  unfold State.vrxDrop
  try dsimp only
  (repeat' split) <;> first | (simp only [State.fadd_keeps hregs, hregs, ite_keeps φ, foldl_keeps φ, foldlPair_keeps φ, foldlJob_keeps φ, foldlJobPair_keeps φ, foldr_keeps φ, ite_st, ite_fst, ite_self, implies_true]; done) | rfl
theorem State.sideband_keeps {φ : State → β} (hregs : Ign.regs φ) (hthm : Ign.thm φ) (houts : Ign.outs φ) (s : State) (busy : Bool) (k : State → State) (hkk : ∀ s0, φ (k s0) = φ s0) : φ (State.sideband s busy k) = φ s := by
  unfold State.sideband
  try dsimp only
  (repeat' split) <;> first | (simp only [State.sentryExit_keeps hregs hthm, hregs, hthm, houts, ite_keeps φ, foldl_keeps φ, foldlPair_keeps φ, foldlJob_keeps φ, foldlJobPair_keeps φ, foldr_keeps φ, ite_st, ite_fst, ite_self, implies_true, hkk]; done) | rfl
theorem State.chanSettle_keeps {φ : State → β} (hregs : Ign.regs φ) (htiles : Ign.tiles φ) (s : State) (t : Nat) (ch : Nat) : φ (State.chanSettle s t ch) = φ s := by
  unfold State.chanSettle
  try dsimp only
  (repeat' split) <;> first | (simp only [State.haltChan_keeps hregs htiles, hregs, htiles, ite_keeps φ, foldl_keeps φ, foldlPair_keeps φ, foldlJob_keeps φ, foldlJobPair_keeps φ, foldr_keeps φ, ite_st, ite_fst, ite_self, implies_true]; done) | rfl
theorem State.trainLayer_keeps {φ : State → β} (hregs : Ign.regs φ) (s : State) (t : Nat) (layer : Nat) (capture : Nat) (launch : Nat) (rdlat : Nat) : φ (State.trainLayer s t layer capture launch rdlat).1 = φ s := by
  unfold State.trainLayer
  try dsimp only
  (repeat' split) <;> first | (simp only [State.event_keeps hregs, State.fput_keeps hregs, hregs, ite_keeps φ, foldl_keeps φ, foldlPair_keeps φ, foldlJob_keeps φ, foldlJobPair_keeps φ, foldr_keeps φ, ite_st, ite_fst, ite_self, implies_true]; done) | rfl
theorem State.served_keeps {φ : State → β} (houts : Ign.outs φ) (s : State) : φ (State.served s) = φ s := by
  unfold State.served
  try dsimp only
  (repeat' split) <;> first | (simp only [houts, ite_keeps φ, foldl_keeps φ, foldlPair_keeps φ, foldlJob_keeps φ, foldlJobPair_keeps φ, foldr_keeps φ, ite_st, ite_fst, ite_self, implies_true]; done) | rfl
theorem State.exhApply_keeps {φ : State → β} (hclk : Ign.clk φ) (hregs : Ign.regs φ) (hmem : Ign.mem φ) (hsynd : Ign.synd φ) (hsoft : Ign.soft φ) (hhost : Ign.host φ) (hstops : Ign.stops φ) (hgate : Ign.gate φ) (hcmd : Ign.cmd φ) (hpcie : Ign.pcie φ) (hflt : Ign.flt φ) (hfab : Ign.fab φ) (houts : Ign.outs φ) (s : State) (e : Nat) (g : List Byte) : φ (State.exhApply s e g).1 = φ s := by
  unfold State.exhApply
  try dsimp only
  (repeat' split) <;> first | (simp only [State.daWrite_keeps hregs hmem hsynd hsoft hstops hgate hflt, State.exhRead_keeps hregs hmem hsynd hsoft hstops hgate hflt, State.post_keeps hclk hregs hmem hsynd hsoft hhost hstops hgate hcmd hpcie hflt hfab houts, hclk, hregs, hmem, hsynd, hsoft, hhost, hstops, hgate, hcmd, hpcie, hflt, hfab, houts, ite_keeps φ, foldl_keeps φ, foldlPair_keeps φ, foldlJob_keeps φ, foldlJobPair_keeps φ, foldr_keeps φ, ite_st, ite_fst, ite_self, implies_true]; done) | rfl

end Sys2Proof.Machine
end

