-- ==== Sys2Proof/Laws/MemForm.lean ====
section
/-! SUPPORT. Every shared operation that writes device memory keeps its canonical form. -/

set_option linter.all false

namespace Sys2Proof.Machine
theorem ite_wf (c : Prop) [Decidable c] (a b : State) : (Memory.wf (if c then a else b).mem = true) = if c then Memory.wf a.mem = true else Memory.wf b.mem = true := by split <;> rfl
theorem foldl_wf {α : Type} (g : State → α → State) (s : State) (l : List α) (h0 : Memory.wf s.mem = true) (h : ∀ s a, Memory.wf s.mem = true → Memory.wf (g s a).mem = true) : Memory.wf (l.foldl g s).mem = true := by
  induction l generalizing s with
  | nil => exact h0
  | cons a l ih => exact ih _ (h s a h0)
theorem foldlPair_wf {α γ : Type} (g : State × γ → α → State × γ) (s : State × γ) (l : List α) (h0 : Memory.wf s.1.mem = true) (h : ∀ s a, Memory.wf s.1.mem = true → Memory.wf (g s a).1.mem = true) : Memory.wf (l.foldl g s).1.mem = true := by
  induction l generalizing s with
  | nil => exact h0
  | cons a l ih => exact ih _ (h s a h0)
theorem foldlJob_wf {α : Type} (g : Job → α → Job) (s : Job) (l : List α) (h0 : Memory.wf s.st.mem = true) (h : ∀ s a, Memory.wf s.st.mem = true → Memory.wf (g s a).st.mem = true) : Memory.wf (l.foldl g s).st.mem = true := by
  induction l generalizing s with
  | nil => exact h0
  | cons a l ih => exact ih _ (h s a h0)
theorem foldlJobPair_wf {α γ : Type} (g : Job × γ → α → Job × γ) (s : Job × γ) (l : List α) (h0 : Memory.wf s.1.st.mem = true) (h : ∀ s a, Memory.wf s.1.st.mem = true → Memory.wf (g s a).1.st.mem = true) : Memory.wf (l.foldl g s).1.st.mem = true := by
  induction l generalizing s with
  | nil => exact h0
  | cons a l ih => exact ih _ (h s a h0)
theorem foldr_wf {α : Type} (g : α → State → State) (s : State) (l : List α) (h0 : Memory.wf s.mem = true) (h : ∀ a s, Memory.wf s.mem = true → Memory.wf (g a s).mem = true) : Memory.wf (l.foldr g s).mem = true := by
  induction l with
  | nil => exact h0
  | cons a l ih => exact h _ _ ih
theorem of_fst_wf {γ : Type} {p : State × γ} {a : State} {c : γ} (h : p = (a, c)) (e : Memory.wf p.1.mem = true) : Memory.wf a.mem = true := by subst h; exact e
theorem Job.map_wf (j : Job) (f : State → State) (h : Memory.wf j.st.mem = true) (hf : Memory.wf (f j.st).mem = true) : Memory.wf (j.map f).st.mem = true := by
  unfold Job.map
  split
  · exact h
  · exact hf
theorem State.atomRead_wf (s : State) (da : Nat) (src₀ : Nat) (ondie : Nat) (h : Memory.wf s.mem = true) : Memory.wf (State.atomRead s da src₀ ondie).1.mem = true := by
  unfold State.atomRead
  try dsimp only
  (repeat' split) <;> (try dsimp only) <;> first
    | rfl
    | (simp +contextual only [State.countCorrection_keeps (φ := State.mem) (fun _ _ => rfl) (fun _ _ => rfl) (fun _ _ => rfl), State.recordUe_keeps (φ := State.mem) (fun _ _ => rfl) (fun _ _ => rfl) (fun _ _ => rfl), State.writeBack_wf, ite_wf, foldl_wf, foldlPair_wf, foldlJob_wf, foldlJobPair_wf, foldr_wf, ite_st, ite_fst, ite_self, implies_true, h]; done)
    | assumption
    | exact of_fst_wf (by assumption) (by simp only [State.countCorrection_keeps (φ := State.mem) (fun _ _ => rfl) (fun _ _ => rfl) (fun _ _ => rfl), State.recordUe_keeps (φ := State.mem) (fun _ _ => rfl) (fun _ _ => rfl) (fun _ _ => rfl), State.writeBack_wf, ite_wf, foldl_wf, foldlPair_wf, foldlJob_wf, foldlJobPair_wf, foldr_wf, ite_st, ite_fst, ite_self, implies_true, h])
    | (have hwf : Memory.wf _ = true := of_fst_wf (by assumption) (by simp only [State.countCorrection_keeps (φ := State.mem) (fun _ _ => rfl) (fun _ _ => rfl) (fun _ _ => rfl), State.recordUe_keeps (φ := State.mem) (fun _ _ => rfl) (fun _ _ => rfl) (fun _ _ => rfl), State.writeBack_wf, ite_wf, foldl_wf, foldlPair_wf, foldlJob_wf, foldlJobPair_wf, foldr_wf, ite_st, ite_fst, ite_self, implies_true, h])
       simp only [State.countCorrection_keeps (φ := State.mem) (fun _ _ => rfl) (fun _ _ => rfl) (fun _ _ => rfl), State.recordUe_keeps (φ := State.mem) (fun _ _ => rfl) (fun _ _ => rfl) (fun _ _ => rfl), State.writeBack_wf, ite_wf, foldl_wf, foldlPair_wf, foldlJob_wf, foldlJobPair_wf, foldr_wf, ite_st, ite_fst, ite_self, implies_true, h, hwf])
theorem State.wordWrite_wf (s : State) (da : Nat) (bs : List Byte) (h : Memory.wf s.mem = true) : Memory.wf (State.wordWrite s da bs).1.mem = true := by
  unfold State.wordWrite
  try dsimp only
  (repeat' split) <;> (try dsimp only) <;> first
    | rfl
    | (simp +contextual only [State.atomRead_wf, State.note_keeps (φ := State.mem) (fun _ _ => rfl) (fun _ _ => rfl), State.putWord_wf, ite_wf, foldl_wf, foldlPair_wf, foldlJob_wf, foldlJobPair_wf, foldr_wf, ite_st, ite_fst, ite_self, implies_true, h]; done)
    | assumption
    | exact of_fst_wf (by assumption) (by simp only [State.atomRead_wf, State.note_keeps (φ := State.mem) (fun _ _ => rfl) (fun _ _ => rfl), State.putWord_wf, ite_wf, foldl_wf, foldlPair_wf, foldlJob_wf, foldlJobPair_wf, foldr_wf, ite_st, ite_fst, ite_self, implies_true, h])
    | (have hwf : Memory.wf _ = true := of_fst_wf (by assumption) (by simp only [State.atomRead_wf, State.note_keeps (φ := State.mem) (fun _ _ => rfl) (fun _ _ => rfl), State.putWord_wf, ite_wf, foldl_wf, foldlPair_wf, foldlJob_wf, foldlJobPair_wf, foldr_wf, ite_st, ite_fst, ite_self, implies_true, h])
       simp only [State.atomRead_wf, State.note_keeps (φ := State.mem) (fun _ _ => rfl) (fun _ _ => rfl), State.putWord_wf, ite_wf, foldl_wf, foldlPair_wf, foldlJob_wf, foldlJobPair_wf, foldr_wf, ite_st, ite_fst, ite_self, implies_true, h, hwf])
theorem State.daWriteGo_wf (x0 : Nat) (x1 : State) (x2 : Nat) (x3 : List Byte) (h : Memory.wf x1.mem = true) : Memory.wf (State.daWriteGo x0 x1 x2 x3).1.mem = true := by
  fun_induction State.daWriteGo x0 x1 x2 x3 <;> first
    | (simp_all +zetaDelta only [State.wordWrite_wf, ite_wf, foldl_wf, foldlPair_wf, foldlJob_wf, foldlJobPair_wf, foldr_wf, ite_st, ite_fst, ite_self, implies_true, h]; done)
    | (simp +zetaDelta only [State.wordWrite_wf, ite_wf, foldl_wf, foldlPair_wf, foldlJob_wf, foldlJobPair_wf, foldr_wf, ite_st, ite_fst, ite_self, implies_true, h]; done)
    | (simp +zetaDelta only [State.wordWrite_wf, ite_wf, foldl_wf, foldlPair_wf, foldlJob_wf, foldlJobPair_wf, foldr_wf, ite_st, ite_fst, ite_self, implies_true, h]; split <;> simp_all +zetaDelta only [State.wordWrite_wf, ite_wf, foldl_wf, foldlPair_wf, foldlJob_wf, foldlJobPair_wf, foldr_wf, ite_st, ite_fst, ite_self, implies_true, h]; done)
    | (simp_all +zetaDelta [State.wordWrite_wf, ite_wf, foldl_wf, foldlPair_wf, foldlJob_wf, foldlJobPair_wf, foldr_wf, ite_st, ite_fst, ite_self, implies_true, h]; done)
theorem State.daWrite_wf (s : State) (da : Nat) (bs : List Byte) (h : Memory.wf s.mem = true) : Memory.wf (State.daWrite s da bs).1.mem = true := by
  unfold State.daWrite
  try dsimp only
  (repeat' split) <;> (try dsimp only) <;> first
    | rfl
    | (simp +contextual only [State.daWriteGo_wf, ite_wf, foldl_wf, foldlPair_wf, foldlJob_wf, foldlJobPair_wf, foldr_wf, ite_st, ite_fst, ite_self, implies_true, h]; done)
    | assumption
    | exact of_fst_wf (by assumption) (by simp only [State.daWriteGo_wf, ite_wf, foldl_wf, foldlPair_wf, foldlJob_wf, foldlJobPair_wf, foldr_wf, ite_st, ite_fst, ite_self, implies_true, h])
    | (have hwf : Memory.wf _ = true := of_fst_wf (by assumption) (by simp only [State.daWriteGo_wf, ite_wf, foldl_wf, foldlPair_wf, foldlJob_wf, foldlJobPair_wf, foldr_wf, ite_st, ite_fst, ite_self, implies_true, h])
       simp only [State.daWriteGo_wf, ite_wf, foldl_wf, foldlPair_wf, foldlJob_wf, foldlJobPair_wf, foldr_wf, ite_st, ite_fst, ite_self, implies_true, h, hwf])
theorem State.enqueue_wf (s : State) (rec_ : List Byte) (h : Memory.wf s.mem = true) : Memory.wf (State.enqueue s rec_).mem = true := by
  unfold State.enqueue
  try dsimp only
  (repeat' split) <;> (try dsimp only) <;> first
    | rfl
    | (simp +contextual only [State.daWrite_wf, State.qlen_keeps (φ := State.mem) (fun _ _ => rfl), ite_wf, foldl_wf, foldlPair_wf, foldlJob_wf, foldlJobPair_wf, foldr_wf, ite_st, ite_fst, ite_self, implies_true, h]; done)
    | assumption
    | exact of_fst_wf (by assumption) (by simp only [State.daWrite_wf, State.qlen_keeps (φ := State.mem) (fun _ _ => rfl), ite_wf, foldl_wf, foldlPair_wf, foldlJob_wf, foldlJobPair_wf, foldr_wf, ite_st, ite_fst, ite_self, implies_true, h])
    | (have hwf : Memory.wf _ = true := of_fst_wf (by assumption) (by simp only [State.daWrite_wf, State.qlen_keeps (φ := State.mem) (fun _ _ => rfl), ite_wf, foldl_wf, foldlPair_wf, foldlJob_wf, foldlJobPair_wf, foldr_wf, ite_st, ite_fst, ite_self, implies_true, h])
       simp only [State.daWrite_wf, State.qlen_keeps (φ := State.mem) (fun _ _ => rfl), ite_wf, foldl_wf, foldlPair_wf, foldlJob_wf, foldlJobPair_wf, foldr_wf, ite_st, ite_fst, ite_self, implies_true, h, hwf])
theorem State.atomBytes_wf (s : State) (da : Nat) (k : Nat) (src : Nat) (h : Memory.wf s.mem = true) : Memory.wf (State.atomBytes s da k src).1.mem = true := by
  unfold State.atomBytes
  try dsimp only
  (repeat' split) <;> (try dsimp only) <;> first
    | rfl
    | (simp +contextual only [State.atomRead_wf, State.note_keeps (φ := State.mem) (fun _ _ => rfl) (fun _ _ => rfl), ite_wf, foldl_wf, foldlPair_wf, foldlJob_wf, foldlJobPair_wf, foldr_wf, ite_st, ite_fst, ite_self, implies_true, h]; done)
    | assumption
    | exact of_fst_wf (by assumption) (by simp only [State.atomRead_wf, State.note_keeps (φ := State.mem) (fun _ _ => rfl) (fun _ _ => rfl), ite_wf, foldl_wf, foldlPair_wf, foldlJob_wf, foldlJobPair_wf, foldr_wf, ite_st, ite_fst, ite_self, implies_true, h])
    | (have hwf : Memory.wf _ = true := of_fst_wf (by assumption) (by simp only [State.atomRead_wf, State.note_keeps (φ := State.mem) (fun _ _ => rfl) (fun _ _ => rfl), ite_wf, foldl_wf, foldlPair_wf, foldlJob_wf, foldlJobPair_wf, foldr_wf, ite_st, ite_fst, ite_self, implies_true, h])
       simp only [State.atomRead_wf, State.note_keeps (φ := State.mem) (fun _ _ => rfl) (fun _ _ => rfl), ite_wf, foldl_wf, foldlPair_wf, foldlJob_wf, foldlJobPair_wf, foldr_wf, ite_st, ite_fst, ite_self, implies_true, h, hwf])
theorem State.daReadGo_wf (x0 : Nat) (x1 : State) (x2 : Nat) (x3 : Nat) (x4 : Nat) (h : Memory.wf x1.mem = true) : Memory.wf (State.daReadGo x0 x1 x2 x3 x4).1.mem = true := by
  fun_induction State.daReadGo x0 x1 x2 x3 x4 <;> first
    | (simp_all +zetaDelta only [State.atomBytes_wf, ite_wf, foldl_wf, foldlPair_wf, foldlJob_wf, foldlJobPair_wf, foldr_wf, ite_st, ite_fst, ite_self, implies_true, h]; done)
    | (simp +zetaDelta only [State.atomBytes_wf, ite_wf, foldl_wf, foldlPair_wf, foldlJob_wf, foldlJobPair_wf, foldr_wf, ite_st, ite_fst, ite_self, implies_true, h]; done)
    | (simp +zetaDelta only [State.atomBytes_wf, ite_wf, foldl_wf, foldlPair_wf, foldlJob_wf, foldlJobPair_wf, foldr_wf, ite_st, ite_fst, ite_self, implies_true, h]; split <;> simp_all +zetaDelta only [State.atomBytes_wf, ite_wf, foldl_wf, foldlPair_wf, foldlJob_wf, foldlJobPair_wf, foldr_wf, ite_st, ite_fst, ite_self, implies_true, h]; done)
    | (simp_all +zetaDelta [State.atomBytes_wf, ite_wf, foldl_wf, foldlPair_wf, foldlJob_wf, foldlJobPair_wf, foldr_wf, ite_st, ite_fst, ite_self, implies_true, h]; done)
theorem State.daRead_wf (s : State) (da : Nat) (n : Nat) (src : Nat) (h : Memory.wf s.mem = true) : Memory.wf (State.daRead s da n src).1.mem = true := by
  unfold State.daRead
  try dsimp only
  (repeat' split) <;> (try dsimp only) <;> first
    | rfl
    | (simp +contextual only [State.daReadGo_wf, ite_wf, foldl_wf, foldlPair_wf, foldlJob_wf, foldlJobPair_wf, foldr_wf, ite_st, ite_fst, ite_self, implies_true, h]; done)
    | assumption
    | exact of_fst_wf (by assumption) (by simp only [State.daReadGo_wf, ite_wf, foldl_wf, foldlPair_wf, foldlJob_wf, foldlJobPair_wf, foldr_wf, ite_st, ite_fst, ite_self, implies_true, h])
    | (have hwf : Memory.wf _ = true := of_fst_wf (by assumption) (by simp only [State.daReadGo_wf, ite_wf, foldl_wf, foldlPair_wf, foldlJob_wf, foldlJobPair_wf, foldr_wf, ite_st, ite_fst, ite_self, implies_true, h])
       simp only [State.daReadGo_wf, ite_wf, foldl_wf, foldlPair_wf, foldlJob_wf, foldlJobPair_wf, foldr_wf, ite_st, ite_fst, ite_self, implies_true, h, hwf])
theorem State.kvRead_wf (s : State) (da : Nat) (n : Nat) (h : Memory.wf s.mem = true) : Memory.wf (State.kvRead s da n).1.mem = true := by
  unfold State.kvRead
  try dsimp only
  (repeat' split) <;> (try dsimp only) <;> first
    | rfl
    | (simp +contextual only [State.daRead_wf, State.event_keeps (φ := State.mem) (fun _ _ => rfl), State.raise_keeps (φ := State.mem) (fun _ _ => rfl), ite_wf, foldl_wf, foldlPair_wf, foldlJob_wf, foldlJobPair_wf, foldr_wf, ite_st, ite_fst, ite_self, implies_true, h]; done)
    | assumption
    | exact of_fst_wf (by assumption) (by simp only [State.daRead_wf, State.event_keeps (φ := State.mem) (fun _ _ => rfl), State.raise_keeps (φ := State.mem) (fun _ _ => rfl), ite_wf, foldl_wf, foldlPair_wf, foldlJob_wf, foldlJobPair_wf, foldr_wf, ite_st, ite_fst, ite_self, implies_true, h])
    | (have hwf : Memory.wf _ = true := of_fst_wf (by assumption) (by simp only [State.daRead_wf, State.event_keeps (φ := State.mem) (fun _ _ => rfl), State.raise_keeps (φ := State.mem) (fun _ _ => rfl), ite_wf, foldl_wf, foldlPair_wf, foldlJob_wf, foldlJobPair_wf, foldr_wf, ite_st, ite_fst, ite_self, implies_true, h])
       simp only [State.daRead_wf, State.event_keeps (φ := State.mem) (fun _ _ => rfl), State.raise_keeps (φ := State.mem) (fun _ _ => rfl), ite_wf, foldl_wf, foldlPair_wf, foldlJob_wf, foldlJobPair_wf, foldr_wf, ite_st, ite_fst, ite_self, implies_true, h, hwf])
theorem State.failCtx_wf (s : State) (c : Nat) (h : Memory.wf s.mem = true) : Memory.wf (State.failCtx s c).mem = true := by
  unfold State.failCtx
  try dsimp only
  (repeat' split) <;> (try dsimp only) <;> first
    | rfl
    | (simp +contextual only [State.daWrite_wf, State.kvRead_wf, ite_wf, foldl_wf, foldlPair_wf, foldlJob_wf, foldlJobPair_wf, foldr_wf, ite_st, ite_fst, ite_self, implies_true, h]; done)
    | assumption
    | exact of_fst_wf (by assumption) (by simp only [State.daWrite_wf, State.kvRead_wf, ite_wf, foldl_wf, foldlPair_wf, foldlJob_wf, foldlJobPair_wf, foldr_wf, ite_st, ite_fst, ite_self, implies_true, h])
    | (have hwf : Memory.wf _ = true := of_fst_wf (by assumption) (by simp only [State.daWrite_wf, State.kvRead_wf, ite_wf, foldl_wf, foldlPair_wf, foldlJob_wf, foldlJobPair_wf, foldr_wf, ite_st, ite_fst, ite_self, implies_true, h])
       simp only [State.daWrite_wf, State.kvRead_wf, ite_wf, foldl_wf, foldlPair_wf, foldlJob_wf, foldlJobPair_wf, foldr_wf, ite_st, ite_fst, ite_self, implies_true, h, hwf])
theorem State.failSessions_wf (s : State) (p : Nat → Bool) (h : Memory.wf s.mem = true) : Memory.wf (State.failSessions s p).mem = true := by
  unfold State.failSessions
  try dsimp only
  (repeat' split) <;> (try dsimp only) <;> first
    | rfl
    | (simp +contextual only [State.failCtx_wf, ite_wf, foldl_wf, foldlPair_wf, foldlJob_wf, foldlJobPair_wf, foldr_wf, ite_st, ite_fst, ite_self, implies_true, h]; done)
    | assumption
    | exact of_fst_wf (by assumption) (by simp only [State.failCtx_wf, ite_wf, foldl_wf, foldlPair_wf, foldlJob_wf, foldlJobPair_wf, foldr_wf, ite_st, ite_fst, ite_self, implies_true, h])
    | (have hwf : Memory.wf _ = true := of_fst_wf (by assumption) (by simp only [State.failCtx_wf, ite_wf, foldl_wf, foldlPair_wf, foldlJob_wf, foldlJobPair_wf, foldr_wf, ite_st, ite_fst, ite_self, implies_true, h])
       simp only [State.failCtx_wf, ite_wf, foldl_wf, foldlPair_wf, foldlJob_wf, foldlJobPair_wf, foldr_wf, ite_st, ite_fst, ite_self, implies_true, h, hwf])
theorem State.flr_wf (s : State) (p : Nat → Bool) (h : Memory.wf s.mem = true) : Memory.wf (State.flr s p).mem = true := by
  unfold State.flr
  try dsimp only
  (repeat' split) <;> (try dsimp only) <;> first
    | rfl
    | (simp +contextual only [State.cfgReset_keeps (φ := State.mem) (fun _ _ => rfl), State.closeSessions_keeps (φ := State.mem) (fun _ _ => rfl) (fun _ _ => rfl), State.failSessions_wf, State.killQps_keeps (φ := State.mem) (fun _ _ => rfl) (fun _ _ => rfl), ite_wf, foldl_wf, foldlPair_wf, foldlJob_wf, foldlJobPair_wf, foldr_wf, ite_st, ite_fst, ite_self, implies_true, h]; done)
    | assumption
    | exact of_fst_wf (by assumption) (by simp only [State.cfgReset_keeps (φ := State.mem) (fun _ _ => rfl), State.closeSessions_keeps (φ := State.mem) (fun _ _ => rfl) (fun _ _ => rfl), State.failSessions_wf, State.killQps_keeps (φ := State.mem) (fun _ _ => rfl) (fun _ _ => rfl), ite_wf, foldl_wf, foldlPair_wf, foldlJob_wf, foldlJobPair_wf, foldr_wf, ite_st, ite_fst, ite_self, implies_true, h])
    | (have hwf : Memory.wf _ = true := of_fst_wf (by assumption) (by simp only [State.cfgReset_keeps (φ := State.mem) (fun _ _ => rfl), State.closeSessions_keeps (φ := State.mem) (fun _ _ => rfl) (fun _ _ => rfl), State.failSessions_wf, State.killQps_keeps (φ := State.mem) (fun _ _ => rfl) (fun _ _ => rfl), ite_wf, foldl_wf, foldlPair_wf, foldlJob_wf, foldlJobPair_wf, foldr_wf, ite_st, ite_fst, ite_self, implies_true, h])
       simp only [State.cfgReset_keeps (φ := State.mem) (fun _ _ => rfl), State.closeSessions_keeps (φ := State.mem) (fun _ _ => rfl) (fun _ _ => rfl), State.failSessions_wf, State.killQps_keeps (φ := State.mem) (fun _ _ => rfl) (fun _ _ => rfl), ite_wf, foldl_wf, foldlPair_wf, foldlJob_wf, foldlJobPair_wf, foldr_wf, ite_st, ite_fst, ite_self, implies_true, h, hwf])
theorem State.vfClear_wf (s : State) (h : Memory.wf s.mem = true) : Memory.wf (State.vfClear s).mem = true := by
  unfold State.vfClear
  try dsimp only
  (repeat' split) <;> (try dsimp only) <;> first
    | rfl
    | (simp +contextual only [State.flr_wf, ite_wf, foldl_wf, foldlPair_wf, foldlJob_wf, foldlJobPair_wf, foldr_wf, ite_st, ite_fst, ite_self, implies_true, h]; done)
    | assumption
    | exact of_fst_wf (by assumption) (by simp only [State.flr_wf, ite_wf, foldl_wf, foldlPair_wf, foldlJob_wf, foldlJobPair_wf, foldr_wf, ite_st, ite_fst, ite_self, implies_true, h])
    | (have hwf : Memory.wf _ = true := of_fst_wf (by assumption) (by simp only [State.flr_wf, ite_wf, foldl_wf, foldlPair_wf, foldlJob_wf, foldlJobPair_wf, foldr_wf, ite_st, ite_fst, ite_self, implies_true, h])
       simp only [State.flr_wf, ite_wf, foldl_wf, foldlPair_wf, foldlJob_wf, foldlJobPair_wf, foldr_wf, ite_st, ite_fst, ite_self, implies_true, h, hwf])
theorem State.flrFunc_wf (s : State) (f : Nat) (h : Memory.wf s.mem = true) : Memory.wf (State.flrFunc s f).mem = true := by
  unfold State.flrFunc
  try dsimp only
  (repeat' split) <;> (try dsimp only) <;> first
    | rfl
    | (simp +contextual only [State.flr_wf, State.vfClear_wf, ite_wf, foldl_wf, foldlPair_wf, foldlJob_wf, foldlJobPair_wf, foldr_wf, ite_st, ite_fst, ite_self, implies_true, h]; done)
    | assumption
    | exact of_fst_wf (by assumption) (by simp only [State.flr_wf, State.vfClear_wf, ite_wf, foldl_wf, foldlPair_wf, foldlJob_wf, foldlJobPair_wf, foldr_wf, ite_st, ite_fst, ite_self, implies_true, h])
    | (have hwf : Memory.wf _ = true := of_fst_wf (by assumption) (by simp only [State.flr_wf, State.vfClear_wf, ite_wf, foldl_wf, foldlPair_wf, foldlJob_wf, foldlJobPair_wf, foldr_wf, ite_st, ite_fst, ite_self, implies_true, h])
       simp only [State.flr_wf, State.vfClear_wf, ite_wf, foldl_wf, foldlPair_wf, foldlJob_wf, foldlJobPair_wf, foldr_wf, ite_st, ite_fst, ite_self, implies_true, h, hwf])
theorem State.cfgWrite_wf (s : State) (f : Nat) (off : Nat) (w : Word) (h : Memory.wf s.mem = true) : Memory.wf (State.cfgWrite s f off w).mem = true := by
  unfold State.cfgWrite
  try dsimp only
  (repeat' split) <;> (try dsimp only) <;> first
    | rfl
    | (simp +contextual only [State.dState_keeps (φ := State.mem) (fun _ _ => rfl), State.flrFunc_wf, State.msixControl_keeps (φ := State.mem) (fun _ _ => rfl) (fun _ _ => rfl), State.vfClear_wf, ite_wf, foldl_wf, foldlPair_wf, foldlJob_wf, foldlJobPair_wf, foldr_wf, ite_st, ite_fst, ite_self, implies_true, h]; done)
    | assumption
    | exact of_fst_wf (by assumption) (by simp only [State.dState_keeps (φ := State.mem) (fun _ _ => rfl), State.flrFunc_wf, State.msixControl_keeps (φ := State.mem) (fun _ _ => rfl) (fun _ _ => rfl), State.vfClear_wf, ite_wf, foldl_wf, foldlPair_wf, foldlJob_wf, foldlJobPair_wf, foldr_wf, ite_st, ite_fst, ite_self, implies_true, h])
    | (have hwf : Memory.wf _ = true := of_fst_wf (by assumption) (by simp only [State.dState_keeps (φ := State.mem) (fun _ _ => rfl), State.flrFunc_wf, State.msixControl_keeps (φ := State.mem) (fun _ _ => rfl) (fun _ _ => rfl), State.vfClear_wf, ite_wf, foldl_wf, foldlPair_wf, foldlJob_wf, foldlJobPair_wf, foldr_wf, ite_st, ite_fst, ite_self, implies_true, h])
       simp only [State.dState_keeps (φ := State.mem) (fun _ _ => rfl), State.flrFunc_wf, State.msixControl_keeps (φ := State.mem) (fun _ _ => rfl) (fun _ _ => rfl), State.vfClear_wf, ite_wf, foldl_wf, foldlPair_wf, foldlJob_wf, foldlJobPair_wf, foldr_wf, ite_st, ite_fst, ite_self, implies_true, h, hwf])
theorem State.entryLost_wf (s : State) (c : Nat) (h : Memory.wf s.mem = true) : Memory.wf (State.entryLost s c).mem = true := by
  unfold State.entryLost
  try dsimp only
  (repeat' split) <;> (try dsimp only) <;> first
    | rfl
    | (simp +contextual only [State.daWrite_wf, State.rput_keeps (φ := State.mem) (fun _ _ => rfl), ite_wf, foldl_wf, foldlPair_wf, foldlJob_wf, foldlJobPair_wf, foldr_wf, ite_st, ite_fst, ite_self, implies_true, h]; done)
    | assumption
    | exact of_fst_wf (by assumption) (by simp only [State.daWrite_wf, State.rput_keeps (φ := State.mem) (fun _ _ => rfl), ite_wf, foldl_wf, foldlPair_wf, foldlJob_wf, foldlJobPair_wf, foldr_wf, ite_st, ite_fst, ite_self, implies_true, h])
    | (have hwf : Memory.wf _ = true := of_fst_wf (by assumption) (by simp only [State.daWrite_wf, State.rput_keeps (φ := State.mem) (fun _ _ => rfl), ite_wf, foldl_wf, foldlPair_wf, foldlJob_wf, foldlJobPair_wf, foldr_wf, ite_st, ite_fst, ite_self, implies_true, h])
       simp only [State.daWrite_wf, State.rput_keeps (φ := State.mem) (fun _ _ => rfl), ite_wf, foldl_wf, foldlPair_wf, foldlJob_wf, foldlJobPair_wf, foldr_wf, ite_st, ite_fst, ite_self, implies_true, h, hwf])
theorem State.itemEntry_wf (s : State) (c : Nat) (f : Nat) (h : Memory.wf s.mem = true) : Memory.wf (State.itemEntry s c f).1.mem = true := by
  unfold State.itemEntry
  try dsimp only
  (repeat' split) <;> (try dsimp only) <;> first
    | rfl
    | (simp +contextual only [State.entryLost_wf, State.kvRead_wf, ite_wf, foldl_wf, foldlPair_wf, foldlJob_wf, foldlJobPair_wf, foldr_wf, ite_st, ite_fst, ite_self, implies_true, h]; done)
    | assumption
    | exact of_fst_wf (by assumption) (by simp only [State.entryLost_wf, State.kvRead_wf, ite_wf, foldl_wf, foldlPair_wf, foldlJob_wf, foldlJobPair_wf, foldr_wf, ite_st, ite_fst, ite_self, implies_true, h])
    | (have hwf : Memory.wf _ = true := of_fst_wf (by assumption) (by simp only [State.entryLost_wf, State.kvRead_wf, ite_wf, foldl_wf, foldlPair_wf, foldlJob_wf, foldlJobPair_wf, foldr_wf, ite_st, ite_fst, ite_self, implies_true, h])
       simp only [State.entryLost_wf, State.kvRead_wf, ite_wf, foldl_wf, foldlPair_wf, foldlJob_wf, foldlJobPair_wf, foldr_wf, ite_st, ite_fst, ite_self, implies_true, h, hwf])
theorem State.fabRead_wf (s : State) (da : Nat) (n : Nat) (h : Memory.wf s.mem = true) : Memory.wf (State.fabRead s da n).1.mem = true := by
  unfold State.fabRead
  try dsimp only
  (repeat' split) <;> (try dsimp only) <;> first
    | rfl
    | (simp +contextual only [State.daRead_wf, State.free_keeps (φ := State.mem) (fun _ _ => rfl), ite_wf, foldl_wf, foldlPair_wf, foldlJob_wf, foldlJobPair_wf, foldr_wf, ite_st, ite_fst, ite_self, implies_true, h]; done)
    | assumption
    | exact of_fst_wf (by assumption) (by simp only [State.daRead_wf, State.free_keeps (φ := State.mem) (fun _ _ => rfl), ite_wf, foldl_wf, foldlPair_wf, foldlJob_wf, foldlJobPair_wf, foldr_wf, ite_st, ite_fst, ite_self, implies_true, h])
    | (have hwf : Memory.wf _ = true := of_fst_wf (by assumption) (by simp only [State.daRead_wf, State.free_keeps (φ := State.mem) (fun _ _ => rfl), ite_wf, foldl_wf, foldlPair_wf, foldlJob_wf, foldlJobPair_wf, foldr_wf, ite_st, ite_fst, ite_self, implies_true, h])
       simp only [State.daRead_wf, State.free_keeps (φ := State.mem) (fun _ _ => rfl), ite_wf, foldl_wf, foldlPair_wf, foldlJob_wf, foldlJobPair_wf, foldr_wf, ite_st, ite_fst, ite_self, implies_true, h, hwf])
theorem State.stagedImage_wf (s : State) (h : Memory.wf s.mem = true) : Memory.wf (State.stagedImage s).1.mem = true := by
  unfold State.stagedImage
  try dsimp only
  (repeat' split) <;> (try dsimp only) <;> first
    | rfl
    | (simp +contextual only [State.fabRead_wf, ite_wf, foldl_wf, foldlPair_wf, foldlJob_wf, foldlJobPair_wf, foldr_wf, ite_st, ite_fst, ite_self, implies_true, h]; done)
    | assumption
    | exact of_fst_wf (by assumption) (by simp only [State.fabRead_wf, ite_wf, foldl_wf, foldlPair_wf, foldlJob_wf, foldlJobPair_wf, foldr_wf, ite_st, ite_fst, ite_self, implies_true, h])
    | (have hwf : Memory.wf _ = true := of_fst_wf (by assumption) (by simp only [State.fabRead_wf, ite_wf, foldl_wf, foldlPair_wf, foldlJob_wf, foldlJobPair_wf, foldr_wf, ite_st, ite_fst, ite_self, implies_true, h])
       simp only [State.fabRead_wf, ite_wf, foldl_wf, foldlPair_wf, foldlJob_wf, foldlJobPair_wf, foldr_wf, ite_st, ite_fst, ite_self, implies_true, h, hwf])
theorem State.peerState_wf (s : State) (i : Nat) (h : Memory.wf s.mem = true) : Memory.wf (State.peerState s i).1.mem = true := by
  unfold State.peerState
  try dsimp only
  (repeat' split) <;> (try dsimp only) <;> first
    | rfl
    | (simp +contextual only [State.daRead_wf, ite_wf, foldl_wf, foldlPair_wf, foldlJob_wf, foldlJobPair_wf, foldr_wf, ite_st, ite_fst, ite_self, implies_true, h]; done)
    | assumption
    | exact of_fst_wf (by assumption) (by simp only [State.daRead_wf, ite_wf, foldl_wf, foldlPair_wf, foldlJob_wf, foldlJobPair_wf, foldr_wf, ite_st, ite_fst, ite_self, implies_true, h])
    | (have hwf : Memory.wf _ = true := of_fst_wf (by assumption) (by simp only [State.daRead_wf, ite_wf, foldl_wf, foldlPair_wf, foldlJob_wf, foldlJobPair_wf, foldr_wf, ite_st, ite_fst, ite_self, implies_true, h])
       simp only [State.daRead_wf, ite_wf, foldl_wf, foldlPair_wf, foldlJob_wf, foldlJobPair_wf, foldr_wf, ite_st, ite_fst, ite_self, implies_true, h, hwf])
theorem State.statusWord_wf (s : State) (x : Send) (status : Nat) (old : Nat) (h : Memory.wf s.mem = true) : Memory.wf (State.statusWord s x status old).mem = true := by
  unfold State.statusWord
  try dsimp only
  (repeat' split) <;> (try dsimp only) <;> first
    | rfl
    | (simp +contextual only [State.daWrite_wf, ite_wf, foldl_wf, foldlPair_wf, foldlJob_wf, foldlJobPair_wf, foldr_wf, ite_st, ite_fst, ite_self, implies_true, h]; done)
    | assumption
    | exact of_fst_wf (by assumption) (by simp only [State.daWrite_wf, ite_wf, foldl_wf, foldlPair_wf, foldlJob_wf, foldlJobPair_wf, foldr_wf, ite_st, ite_fst, ite_self, implies_true, h])
    | (have hwf : Memory.wf _ = true := of_fst_wf (by assumption) (by simp only [State.daWrite_wf, ite_wf, foldl_wf, foldlPair_wf, foldlJob_wf, foldlJobPair_wf, foldr_wf, ite_st, ite_fst, ite_self, implies_true, h])
       simp only [State.daWrite_wf, ite_wf, foldl_wf, foldlPair_wf, foldlJob_wf, foldlJobPair_wf, foldr_wf, ite_st, ite_fst, ite_self, implies_true, h, hwf])
theorem State.ownerEnd_wf (s : State) (i : Nat) (o : Owner) (status : Nat) (old : Nat) (h : Memory.wf s.mem = true) : Memory.wf (State.ownerEnd s i o status old).mem = true := by
  unfold State.ownerEnd
  try dsimp only
  (repeat' split) <;> (try dsimp only) <;> first
    | rfl
    | (simp +contextual only [State.mapAnswer_keeps (φ := State.mem) (fun _ _ => rfl) (fun _ _ => rfl) (fun _ _ => rfl) (fun _ _ => rfl) (fun _ _ => rfl) (fun _ _ => rfl) (fun _ _ => rfl), State.statusWord_wf, ite_wf, foldl_wf, foldlPair_wf, foldlJob_wf, foldlJobPair_wf, foldr_wf, ite_st, ite_fst, ite_self, implies_true, h]; done)
    | assumption
    | exact of_fst_wf (by assumption) (by simp only [State.mapAnswer_keeps (φ := State.mem) (fun _ _ => rfl) (fun _ _ => rfl) (fun _ _ => rfl) (fun _ _ => rfl) (fun _ _ => rfl) (fun _ _ => rfl) (fun _ _ => rfl), State.statusWord_wf, ite_wf, foldl_wf, foldlPair_wf, foldlJob_wf, foldlJobPair_wf, foldr_wf, ite_st, ite_fst, ite_self, implies_true, h])
    | (have hwf : Memory.wf _ = true := of_fst_wf (by assumption) (by simp only [State.mapAnswer_keeps (φ := State.mem) (fun _ _ => rfl) (fun _ _ => rfl) (fun _ _ => rfl) (fun _ _ => rfl) (fun _ _ => rfl) (fun _ _ => rfl) (fun _ _ => rfl), State.statusWord_wf, ite_wf, foldl_wf, foldlPair_wf, foldlJob_wf, foldlJobPair_wf, foldr_wf, ite_st, ite_fst, ite_self, implies_true, h])
       simp only [State.mapAnswer_keeps (φ := State.mem) (fun _ _ => rfl) (fun _ _ => rfl) (fun _ _ => rfl) (fun _ _ => rfl) (fun _ _ => rfl) (fun _ _ => rfl) (fun _ _ => rfl), State.statusWord_wf, ite_wf, foldl_wf, foldlPair_wf, foldlJob_wf, foldlJobPair_wf, foldr_wf, ite_st, ite_fst, ite_self, implies_true, h, hwf])
theorem State.post_wf (s : State) (i : Nat) (op : Nat) (fence : Bool) (tag : Nat) (arg0 : Nat) (arg1 : Nat) (len : Nat) (data : List Byte) (reply : Bool) (o : Owner) (h : Memory.wf s.mem = true) : Memory.wf (State.post s i op fence tag arg0 arg1 len data reply o).mem = true := by
  unfold State.post
  try dsimp only
  (repeat' split) <;> (try dsimp only) <;> first
    | rfl
    | (simp +contextual only [State.ownerEnd_wf, State.peerState_wf, State.pump_keeps (φ := State.mem) (fun _ _ => rfl) (fun _ _ => rfl) (fun _ _ => rfl), State.sendControl_keeps (φ := State.mem) (fun _ _ => rfl) (fun _ _ => rfl) (fun _ _ => rfl), State.setPeer_keeps (φ := State.mem) (fun _ _ => rfl), ite_wf, foldl_wf, foldlPair_wf, foldlJob_wf, foldlJobPair_wf, foldr_wf, ite_st, ite_fst, ite_self, implies_true, h]; done)
    | assumption
    | exact of_fst_wf (by assumption) (by simp only [State.ownerEnd_wf, State.peerState_wf, State.pump_keeps (φ := State.mem) (fun _ _ => rfl) (fun _ _ => rfl) (fun _ _ => rfl), State.sendControl_keeps (φ := State.mem) (fun _ _ => rfl) (fun _ _ => rfl) (fun _ _ => rfl), State.setPeer_keeps (φ := State.mem) (fun _ _ => rfl), ite_wf, foldl_wf, foldlPair_wf, foldlJob_wf, foldlJobPair_wf, foldr_wf, ite_st, ite_fst, ite_self, implies_true, h])
    | (have hwf : Memory.wf _ = true := of_fst_wf (by assumption) (by simp only [State.ownerEnd_wf, State.peerState_wf, State.pump_keeps (φ := State.mem) (fun _ _ => rfl) (fun _ _ => rfl) (fun _ _ => rfl), State.sendControl_keeps (φ := State.mem) (fun _ _ => rfl) (fun _ _ => rfl) (fun _ _ => rfl), State.setPeer_keeps (φ := State.mem) (fun _ _ => rfl), ite_wf, foldl_wf, foldlPair_wf, foldlJob_wf, foldlJobPair_wf, foldr_wf, ite_st, ite_fst, ite_self, implies_true, h])
       simp only [State.ownerEnd_wf, State.peerState_wf, State.pump_keeps (φ := State.mem) (fun _ _ => rfl) (fun _ _ => rfl) (fun _ _ => rfl), State.sendControl_keeps (φ := State.mem) (fun _ _ => rfl) (fun _ _ => rfl) (fun _ _ => rfl), State.setPeer_keeps (φ := State.mem) (fun _ _ => rfl), ite_wf, foldl_wf, foldlPair_wf, foldlJob_wf, foldlJobPair_wf, foldr_wf, ite_st, ite_fst, ite_self, implies_true, h, hwf])
theorem State.sendMark_wf (s : State) (i : Nat) (h : Memory.wf s.mem = true) : Memory.wf (State.sendMark s i).mem = true := by
  unfold State.sendMark
  try dsimp only
  (repeat' split) <;> (try dsimp only) <;> first
    | rfl
    | (simp +contextual only [State.post_wf, ite_wf, foldl_wf, foldlPair_wf, foldlJob_wf, foldlJobPair_wf, foldr_wf, ite_st, ite_fst, ite_self, implies_true, h]; done)
    | assumption
    | exact of_fst_wf (by assumption) (by simp only [State.post_wf, ite_wf, foldl_wf, foldlPair_wf, foldlJob_wf, foldlJobPair_wf, foldr_wf, ite_st, ite_fst, ite_self, implies_true, h])
    | (have hwf : Memory.wf _ = true := of_fst_wf (by assumption) (by simp only [State.post_wf, ite_wf, foldl_wf, foldlPair_wf, foldlJob_wf, foldlJobPair_wf, foldr_wf, ite_st, ite_fst, ite_self, implies_true, h])
       simp only [State.post_wf, ite_wf, foldl_wf, foldlPair_wf, foldlJob_wf, foldlJobPair_wf, foldr_wf, ite_st, ite_fst, ite_self, implies_true, h, hwf])
theorem State.fwDone_wf (s : State) (h : Memory.wf s.mem = true) : Memory.wf (State.fwDone s).mem = true := by
  unfold State.fwDone
  try dsimp only
  (repeat' split) <;> (try dsimp only) <;> first
    | rfl
    | (simp +contextual only [State.complete_keeps (φ := State.mem) (fun _ _ => rfl) (fun _ _ => rfl) (fun _ _ => rfl) (fun _ _ => rfl) (fun _ _ => rfl) (fun _ _ => rfl), State.event_keeps (φ := State.mem) (fun _ _ => rfl), State.fput_keeps (φ := State.mem) (fun _ _ => rfl), State.sendMark_wf, ite_wf, foldl_wf, foldlPair_wf, foldlJob_wf, foldlJobPair_wf, foldr_wf, ite_st, ite_fst, ite_self, implies_true, h]; done)
    | assumption
    | exact of_fst_wf (by assumption) (by simp only [State.complete_keeps (φ := State.mem) (fun _ _ => rfl) (fun _ _ => rfl) (fun _ _ => rfl) (fun _ _ => rfl) (fun _ _ => rfl) (fun _ _ => rfl), State.event_keeps (φ := State.mem) (fun _ _ => rfl), State.fput_keeps (φ := State.mem) (fun _ _ => rfl), State.sendMark_wf, ite_wf, foldl_wf, foldlPair_wf, foldlJob_wf, foldlJobPair_wf, foldr_wf, ite_st, ite_fst, ite_self, implies_true, h])
    | (have hwf : Memory.wf _ = true := of_fst_wf (by assumption) (by simp only [State.complete_keeps (φ := State.mem) (fun _ _ => rfl) (fun _ _ => rfl) (fun _ _ => rfl) (fun _ _ => rfl) (fun _ _ => rfl) (fun _ _ => rfl), State.event_keeps (φ := State.mem) (fun _ _ => rfl), State.fput_keeps (φ := State.mem) (fun _ _ => rfl), State.sendMark_wf, ite_wf, foldl_wf, foldlPair_wf, foldlJob_wf, foldlJobPair_wf, foldr_wf, ite_st, ite_fst, ite_self, implies_true, h])
       simp only [State.complete_keeps (φ := State.mem) (fun _ _ => rfl) (fun _ _ => rfl) (fun _ _ => rfl) (fun _ _ => rfl) (fun _ _ => rfl) (fun _ _ => rfl), State.event_keeps (φ := State.mem) (fun _ _ => rfl), State.fput_keeps (φ := State.mem) (fun _ _ => rfl), State.sendMark_wf, ite_wf, foldl_wf, foldlPair_wf, foldlJob_wf, foldlJobPair_wf, foldr_wf, ite_st, ite_fst, ite_self, implies_true, h, hwf])
theorem State.ucodeNext_wf (s : State) (h : Memory.wf s.mem = true) : Memory.wf (State.ucodeNext s).mem = true := by
  unfold State.ucodeNext
  try dsimp only
  (repeat' split) <;> (try dsimp only) <;> first
    | rfl
    | (simp +contextual only [State.fwDone_wf, State.measure_keeps (φ := State.mem) (fun _ _ => rfl) (fun _ _ => rfl), ite_wf, foldl_wf, foldlPair_wf, foldlJob_wf, foldlJobPair_wf, foldr_wf, ite_st, ite_fst, ite_self, implies_true, h]; done)
    | assumption
    | exact of_fst_wf (by assumption) (by simp only [State.fwDone_wf, State.measure_keeps (φ := State.mem) (fun _ _ => rfl) (fun _ _ => rfl), ite_wf, foldl_wf, foldlPair_wf, foldlJob_wf, foldlJobPair_wf, foldr_wf, ite_st, ite_fst, ite_self, implies_true, h])
    | (have hwf : Memory.wf _ = true := of_fst_wf (by assumption) (by simp only [State.fwDone_wf, State.measure_keeps (φ := State.mem) (fun _ _ => rfl) (fun _ _ => rfl), ite_wf, foldl_wf, foldlPair_wf, foldlJob_wf, foldlJobPair_wf, foldr_wf, ite_st, ite_fst, ite_self, implies_true, h])
       simp only [State.fwDone_wf, State.measure_keeps (φ := State.mem) (fun _ _ => rfl) (fun _ _ => rfl), ite_wf, foldl_wf, foldlPair_wf, foldlJob_wf, foldlJobPair_wf, foldr_wf, ite_st, ite_fst, ite_self, implies_true, h, hwf])
theorem State.fwActivate_wf (s : State) (act : Option (Nat × Nat)) (bcast : Bool) (h : Memory.wf s.mem = true) : Memory.wf (State.fwActivate s act bcast).1.mem = true := by
  unfold State.fwActivate
  try dsimp only
  (repeat' split) <;> (try dsimp only) <;> first
    | rfl
    | (simp +contextual only [State.event_keeps (φ := State.mem) (fun _ _ => rfl), State.fput_keeps (φ := State.mem) (fun _ _ => rfl), State.fwDone_wf, State.handOver_keeps (φ := State.mem) (fun _ _ => rfl) (fun _ _ => rfl) (fun _ _ => rfl), State.stagedImage_wf, State.ucodeNext_wf, ite_wf, foldl_wf, foldlPair_wf, foldlJob_wf, foldlJobPair_wf, foldr_wf, ite_st, ite_fst, ite_self, implies_true, h]; done)
    | assumption
    | exact of_fst_wf (by assumption) (by simp only [State.event_keeps (φ := State.mem) (fun _ _ => rfl), State.fput_keeps (φ := State.mem) (fun _ _ => rfl), State.fwDone_wf, State.handOver_keeps (φ := State.mem) (fun _ _ => rfl) (fun _ _ => rfl) (fun _ _ => rfl), State.stagedImage_wf, State.ucodeNext_wf, ite_wf, foldl_wf, foldlPair_wf, foldlJob_wf, foldlJobPair_wf, foldr_wf, ite_st, ite_fst, ite_self, implies_true, h])
    | (have hwf : Memory.wf _ = true := of_fst_wf (by assumption) (by simp only [State.event_keeps (φ := State.mem) (fun _ _ => rfl), State.fput_keeps (φ := State.mem) (fun _ _ => rfl), State.fwDone_wf, State.handOver_keeps (φ := State.mem) (fun _ _ => rfl) (fun _ _ => rfl) (fun _ _ => rfl), State.stagedImage_wf, State.ucodeNext_wf, ite_wf, foldl_wf, foldlPair_wf, foldlJob_wf, foldlJobPair_wf, foldr_wf, ite_st, ite_fst, ite_self, implies_true, h])
       simp only [State.event_keeps (φ := State.mem) (fun _ _ => rfl), State.fput_keeps (φ := State.mem) (fun _ _ => rfl), State.fwDone_wf, State.handOver_keeps (φ := State.mem) (fun _ _ => rfl) (fun _ _ => rfl) (fun _ _ => rfl), State.stagedImage_wf, State.ucodeNext_wf, ite_wf, foldl_wf, foldlPair_wf, foldlJob_wf, foldlJobPair_wf, foldr_wf, ite_st, ite_fst, ite_self, implies_true, h, hwf])
theorem State.fwTryMark_wf (s : State) (h : Memory.wf s.mem = true) : Memory.wf (State.fwTryMark s).mem = true := by
  unfold State.fwTryMark
  try dsimp only
  (repeat' split) <;> (try dsimp only) <;> first
    | rfl
    | (simp +contextual only [State.fwActivate_wf, ite_wf, foldl_wf, foldlPair_wf, foldlJob_wf, foldlJobPair_wf, foldr_wf, ite_st, ite_fst, ite_self, implies_true, h]; done)
    | assumption
    | exact of_fst_wf (by assumption) (by simp only [State.fwActivate_wf, ite_wf, foldl_wf, foldlPair_wf, foldlJob_wf, foldlJobPair_wf, foldr_wf, ite_st, ite_fst, ite_self, implies_true, h])
    | (have hwf : Memory.wf _ = true := of_fst_wf (by assumption) (by simp only [State.fwActivate_wf, ite_wf, foldl_wf, foldlPair_wf, foldlJob_wf, foldlJobPair_wf, foldr_wf, ite_st, ite_fst, ite_self, implies_true, h])
       simp only [State.fwActivate_wf, ite_wf, foldl_wf, foldlPair_wf, foldlJob_wf, foldlJobPair_wf, foldr_wf, ite_st, ite_fst, ite_self, implies_true, h, hwf])
theorem Job.read_wf (j : Job) (da : Nat) (n : Nat) (e : KvErr) (h : Memory.wf j.st.mem = true) : Memory.wf (Job.read j da n e).1.st.mem = true := by
  unfold Job.read
  try dsimp only
  (repeat' split) <;> (try dsimp only) <;> first
    | rfl
    | (simp +contextual only [State.kvRead_wf, ite_wf, foldl_wf, foldlPair_wf, foldlJob_wf, foldlJobPair_wf, foldr_wf, ite_st, ite_fst, ite_self, implies_true, h]; done)
    | assumption
    | exact of_fst_wf (by assumption) (by simp only [State.kvRead_wf, ite_wf, foldl_wf, foldlPair_wf, foldlJob_wf, foldlJobPair_wf, foldr_wf, ite_st, ite_fst, ite_self, implies_true, h])
    | (have hwf : Memory.wf _ = true := of_fst_wf (by assumption) (by simp only [State.kvRead_wf, ite_wf, foldl_wf, foldlPair_wf, foldlJob_wf, foldlJobPair_wf, foldr_wf, ite_st, ite_fst, ite_self, implies_true, h])
       simp only [State.kvRead_wf, ite_wf, foldl_wf, foldlPair_wf, foldlJob_wf, foldlJobPair_wf, foldr_wf, ite_st, ite_fst, ite_self, implies_true, h, hwf])
theorem Job.ptr_wf (j : Job) (c : Nat) (da : Nat) (h : Memory.wf j.st.mem = true) : Memory.wf (Job.ptr j c da).1.st.mem = true := by
  unfold Job.ptr
  try dsimp only
  (repeat' split) <;> (try dsimp only) <;> first
    | rfl
    | (simp +contextual only [Job.read_wf, ite_wf, foldl_wf, foldlPair_wf, foldlJob_wf, foldlJobPair_wf, foldr_wf, ite_st, ite_fst, ite_self, implies_true, h]; done)
    | assumption
    | exact of_fst_wf (by assumption) (by simp only [Job.read_wf, ite_wf, foldl_wf, foldlPair_wf, foldlJob_wf, foldlJobPair_wf, foldr_wf, ite_st, ite_fst, ite_self, implies_true, h])
    | (have hwf : Memory.wf _ = true := of_fst_wf (by assumption) (by simp only [Job.read_wf, ite_wf, foldl_wf, foldlPair_wf, foldlJob_wf, foldlJobPair_wf, foldr_wf, ite_st, ite_fst, ite_self, implies_true, h])
       simp only [Job.read_wf, ite_wf, foldl_wf, foldlPair_wf, foldlJob_wf, foldlJobPair_wf, foldr_wf, ite_st, ite_fst, ite_self, implies_true, h, hwf])
theorem Job.entry_wf (j : Job) (c : Nat) (h : Memory.wf j.st.mem = true) : Memory.wf (Job.entry j c).1.st.mem = true := by
  unfold Job.entry
  try dsimp only
  (repeat' split) <;> (try dsimp only) <;> first
    | rfl
    | (simp +contextual only [Job.read_wf, ite_wf, foldl_wf, foldlPair_wf, foldlJob_wf, foldlJobPair_wf, foldr_wf, ite_st, ite_fst, ite_self, implies_true, h]; done)
    | assumption
    | exact of_fst_wf (by assumption) (by simp only [Job.read_wf, ite_wf, foldl_wf, foldlPair_wf, foldlJob_wf, foldlJobPair_wf, foldr_wf, ite_st, ite_fst, ite_self, implies_true, h])
    | (have hwf : Memory.wf _ = true := of_fst_wf (by assumption) (by simp only [Job.read_wf, ite_wf, foldl_wf, foldlPair_wf, foldlJob_wf, foldlJobPair_wf, foldr_wf, ite_st, ite_fst, ite_self, implies_true, h])
       simp only [Job.read_wf, ite_wf, foldl_wf, foldlPair_wf, foldlJob_wf, foldlJobPair_wf, foldr_wf, ite_st, ite_fst, ite_self, implies_true, h, hwf])
theorem Job.leafOf_wf (j : Job) (c : Nat) (root : Nat) (e : Nat) (h : Memory.wf j.st.mem = true) : Memory.wf (Job.leafOf j c root e).1.st.mem = true := by
  unfold Job.leafOf
  try dsimp only
  (repeat' split) <;> (try dsimp only) <;> first
    | rfl
    | (simp +contextual only [Job.ptr_wf, ite_wf, foldl_wf, foldlPair_wf, foldlJob_wf, foldlJobPair_wf, foldr_wf, ite_st, ite_fst, ite_self, implies_true, h]; done)
    | assumption
    | exact of_fst_wf (by assumption) (by simp only [Job.ptr_wf, ite_wf, foldl_wf, foldlPair_wf, foldlJob_wf, foldlJobPair_wf, foldr_wf, ite_st, ite_fst, ite_self, implies_true, h])
    | (have hwf : Memory.wf _ = true := of_fst_wf (by assumption) (by simp only [Job.ptr_wf, ite_wf, foldl_wf, foldlPair_wf, foldlJob_wf, foldlJobPair_wf, foldr_wf, ite_st, ite_fst, ite_self, implies_true, h])
       simp only [Job.ptr_wf, ite_wf, foldl_wf, foldlPair_wf, foldlJob_wf, foldlJobPair_wf, foldr_wf, ite_st, ite_fst, ite_self, implies_true, h, hwf])
theorem Job.pte_wf (j : Job) (c : Nat) (root : Nat) (e : Nat) (h : Memory.wf j.st.mem = true) : Memory.wf (Job.pte j c root e).1.st.mem = true := by
  unfold Job.pte
  try dsimp only
  (repeat' split) <;> (try dsimp only) <;> first
    | rfl
    | (simp +contextual only [Job.leafOf_wf, Job.read_wf, ite_wf, foldl_wf, foldlPair_wf, foldlJob_wf, foldlJobPair_wf, foldr_wf, ite_st, ite_fst, ite_self, implies_true, h]; done)
    | assumption
    | exact of_fst_wf (by assumption) (by simp only [Job.leafOf_wf, Job.read_wf, ite_wf, foldl_wf, foldlPair_wf, foldlJob_wf, foldlJobPair_wf, foldr_wf, ite_st, ite_fst, ite_self, implies_true, h])
    | (have hwf : Memory.wf _ = true := of_fst_wf (by assumption) (by simp only [Job.leafOf_wf, Job.read_wf, ite_wf, foldl_wf, foldlPair_wf, foldlJob_wf, foldlJobPair_wf, foldr_wf, ite_st, ite_fst, ite_self, implies_true, h])
       simp only [Job.leafOf_wf, Job.read_wf, ite_wf, foldl_wf, foldlPair_wf, foldlJob_wf, foldlJobPair_wf, foldr_wf, ite_st, ite_fst, ite_self, implies_true, h, hwf])
theorem Job.pageWord_wf (j : Job) (pfn : Nat) (h : Memory.wf j.st.mem = true) : Memory.wf (Job.pageWord j pfn).1.st.mem = true := by
  unfold Job.pageWord
  try dsimp only
  (repeat' split) <;> (try dsimp only) <;> first
    | rfl
    | (simp +contextual only [Job.read_wf, ite_wf, foldl_wf, foldlPair_wf, foldlJob_wf, foldlJobPair_wf, foldr_wf, ite_st, ite_fst, ite_self, implies_true, h]; done)
    | assumption
    | exact of_fst_wf (by assumption) (by simp only [Job.read_wf, ite_wf, foldl_wf, foldlPair_wf, foldlJob_wf, foldlJobPair_wf, foldr_wf, ite_st, ite_fst, ite_self, implies_true, h])
    | (have hwf : Memory.wf _ = true := of_fst_wf (by assumption) (by simp only [Job.read_wf, ite_wf, foldl_wf, foldlPair_wf, foldlJob_wf, foldlJobPair_wf, foldr_wf, ite_st, ite_fst, ite_self, implies_true, h])
       simp only [Job.read_wf, ite_wf, foldl_wf, foldlPair_wf, foldlJob_wf, foldlJobPair_wf, foldr_wf, ite_st, ite_fst, ite_self, implies_true, h, hwf])
theorem Job.write_wf (j : Job) (da : Nat) (bs : List Byte) (h : Memory.wf j.st.mem = true) : Memory.wf (Job.write j da bs).st.mem = true := by
  unfold Job.write
  try dsimp only
  (repeat' split) <;> (try dsimp only) <;> first
    | rfl
    | (simp +contextual only [Job.map_wf, State.daWrite_wf, ite_wf, foldl_wf, foldlPair_wf, foldlJob_wf, foldlJobPair_wf, foldr_wf, ite_st, ite_fst, ite_self, implies_true, h]; done)
    | assumption
    | exact of_fst_wf (by assumption) (by simp only [Job.map_wf, State.daWrite_wf, ite_wf, foldl_wf, foldlPair_wf, foldlJob_wf, foldlJobPair_wf, foldr_wf, ite_st, ite_fst, ite_self, implies_true, h])
    | (have hwf : Memory.wf _ = true := of_fst_wf (by assumption) (by simp only [Job.map_wf, State.daWrite_wf, ite_wf, foldl_wf, foldlPair_wf, foldlJob_wf, foldlJobPair_wf, foldr_wf, ite_st, ite_fst, ite_self, implies_true, h])
       simp only [Job.map_wf, State.daWrite_wf, ite_wf, foldl_wf, foldlPair_wf, foldlJob_wf, foldlJobPair_wf, foldr_wf, ite_st, ite_fst, ite_self, implies_true, h, hwf])
theorem Job.putPage_wf (j : Job) (pfn : Nat) (w : Nat) (h : Memory.wf j.st.mem = true) : Memory.wf (Job.putPage j pfn w).st.mem = true := by
  unfold Job.putPage
  try dsimp only
  (repeat' split) <;> (try dsimp only) <;> first
    | rfl
    | (simp +contextual only [Job.write_wf, ite_wf, foldl_wf, foldlPair_wf, foldlJob_wf, foldlJobPair_wf, foldr_wf, ite_st, ite_fst, ite_self, implies_true, h]; done)
    | assumption
    | exact of_fst_wf (by assumption) (by simp only [Job.write_wf, ite_wf, foldl_wf, foldlPair_wf, foldlJob_wf, foldlJobPair_wf, foldr_wf, ite_st, ite_fst, ite_self, implies_true, h])
    | (have hwf : Memory.wf _ = true := of_fst_wf (by assumption) (by simp only [Job.write_wf, ite_wf, foldl_wf, foldlPair_wf, foldlJob_wf, foldlJobPair_wf, foldr_wf, ite_st, ite_fst, ite_self, implies_true, h])
       simp only [Job.write_wf, ite_wf, foldl_wf, foldlPair_wf, foldlJob_wf, foldlJobPair_wf, foldr_wf, ite_st, ite_fst, ite_self, implies_true, h, hwf])
theorem State.joinFree_wf (s : State) (p : Nat) (h : Memory.wf s.mem = true) : Memory.wf (State.joinFree s p).mem = true := by
  unfold State.joinFree
  try dsimp only
  (repeat' split) <;> (try dsimp only) <;> first
    | rfl
    | (simp +contextual only [State.daWrite_wf, State.free_keeps (φ := State.mem) (fun _ _ => rfl), ite_wf, foldl_wf, foldlPair_wf, foldlJob_wf, foldlJobPair_wf, foldr_wf, ite_st, ite_fst, ite_self, implies_true, h]; done)
    | assumption
    | exact of_fst_wf (by assumption) (by simp only [State.daWrite_wf, State.free_keeps (φ := State.mem) (fun _ _ => rfl), ite_wf, foldl_wf, foldlPair_wf, foldlJob_wf, foldlJobPair_wf, foldr_wf, ite_st, ite_fst, ite_self, implies_true, h])
    | (have hwf : Memory.wf _ = true := of_fst_wf (by assumption) (by simp only [State.daWrite_wf, State.free_keeps (φ := State.mem) (fun _ _ => rfl), ite_wf, foldl_wf, foldlPair_wf, foldlJob_wf, foldlJobPair_wf, foldr_wf, ite_st, ite_fst, ite_self, implies_true, h])
       simp only [State.daWrite_wf, State.free_keeps (φ := State.mem) (fun _ _ => rfl), ite_wf, foldl_wf, foldlPair_wf, foldlJob_wf, foldlJobPair_wf, foldr_wf, ite_st, ite_fst, ite_self, implies_true, h, hwf])
theorem Job.freePage_wf (j : Job) (p : Nat) (h : Memory.wf j.st.mem = true) : Memory.wf (Job.freePage j p).st.mem = true := by
  unfold Job.freePage
  try dsimp only
  (repeat' split) <;> (try dsimp only) <;> first
    | rfl
    | (simp +contextual only [Job.map_wf, Job.putPage_wf, State.joinFree_wf, ite_wf, foldl_wf, foldlPair_wf, foldlJob_wf, foldlJobPair_wf, foldr_wf, ite_st, ite_fst, ite_self, implies_true, h]; done)
    | assumption
    | exact of_fst_wf (by assumption) (by simp only [Job.map_wf, Job.putPage_wf, State.joinFree_wf, ite_wf, foldl_wf, foldlPair_wf, foldlJob_wf, foldlJobPair_wf, foldr_wf, ite_st, ite_fst, ite_self, implies_true, h])
    | (have hwf : Memory.wf _ = true := of_fst_wf (by assumption) (by simp only [Job.map_wf, Job.putPage_wf, State.joinFree_wf, ite_wf, foldl_wf, foldlPair_wf, foldlJob_wf, foldlJobPair_wf, foldr_wf, ite_st, ite_fst, ite_self, implies_true, h])
       simp only [Job.map_wf, Job.putPage_wf, State.joinFree_wf, ite_wf, foldl_wf, foldlPair_wf, foldlJob_wf, foldlJobPair_wf, foldr_wf, ite_st, ite_fst, ite_self, implies_true, h, hwf])
theorem State.pageLost_wf (s : State) (pfn : Nat) (h : Memory.wf s.mem = true) : Memory.wf (State.pageLost s pfn).mem = true := by
  unfold State.pageLost
  try dsimp only
  (repeat' split) <;> (try dsimp only) <;> first
    | rfl
    | (simp +contextual only [State.daWrite_wf, ite_wf, foldl_wf, foldlPair_wf, foldlJob_wf, foldlJobPair_wf, foldr_wf, ite_st, ite_fst, ite_self, implies_true, h]; done)
    | assumption
    | exact of_fst_wf (by assumption) (by simp only [State.daWrite_wf, ite_wf, foldl_wf, foldlPair_wf, foldlJob_wf, foldlJobPair_wf, foldr_wf, ite_st, ite_fst, ite_self, implies_true, h])
    | (have hwf : Memory.wf _ = true := of_fst_wf (by assumption) (by simp only [State.daWrite_wf, ite_wf, foldl_wf, foldlPair_wf, foldlJob_wf, foldlJobPair_wf, foldr_wf, ite_st, ite_fst, ite_self, implies_true, h])
       simp only [State.daWrite_wf, ite_wf, foldl_wf, foldlPair_wf, foldlJob_wf, foldlJobPair_wf, foldr_wf, ite_st, ite_fst, ite_self, implies_true, h, hwf])
theorem Job.finish_wf (j : Job) (s0 : State) (hkk : Memory.wf j.st.mem = true) (h : Memory.wf s0.mem = true) : Memory.wf (Job.finish j s0).1.mem = true := by
  unfold Job.finish
  try dsimp only
  (repeat' split) <;> (try dsimp only) <;> first
    | rfl
    | (simp +contextual only [State.entryLost_wf, State.failCtx_wf, State.kvRead_wf, State.pageLost_wf, hkk, ite_wf, foldl_wf, foldlPair_wf, foldlJob_wf, foldlJobPair_wf, foldr_wf, ite_st, ite_fst, ite_self, implies_true, h]; done)
    | assumption
    | exact of_fst_wf (by assumption) (by simp only [State.entryLost_wf, State.failCtx_wf, State.kvRead_wf, State.pageLost_wf, hkk, ite_wf, foldl_wf, foldlPair_wf, foldlJob_wf, foldlJobPair_wf, foldr_wf, ite_st, ite_fst, ite_self, implies_true, h])
    | (have hwf : Memory.wf _ = true := of_fst_wf (by assumption) (by simp only [State.entryLost_wf, State.failCtx_wf, State.kvRead_wf, State.pageLost_wf, hkk, ite_wf, foldl_wf, foldlPair_wf, foldlJob_wf, foldlJobPair_wf, foldr_wf, ite_st, ite_fst, ite_self, implies_true, h])
       simp only [State.entryLost_wf, State.failCtx_wf, State.kvRead_wf, State.pageLost_wf, hkk, ite_wf, foldl_wf, foldlPair_wf, foldlJob_wf, foldlJobPair_wf, foldr_wf, ite_st, ite_fst, ite_self, implies_true, h, hwf])
theorem Job.putEntry_wf (j : Job) (c : Nat) (b : List Byte) (h : Memory.wf j.st.mem = true) : Memory.wf (Job.putEntry j c b).st.mem = true := by
  unfold Job.putEntry
  try dsimp only
  (repeat' split) <;> (try dsimp only) <;> first
    | rfl
    | (simp +contextual only [Job.write_wf, ite_wf, foldl_wf, foldlPair_wf, foldlJob_wf, foldlJobPair_wf, foldr_wf, ite_st, ite_fst, ite_self, implies_true, h]; done)
    | assumption
    | exact of_fst_wf (by assumption) (by simp only [Job.write_wf, ite_wf, foldl_wf, foldlPair_wf, foldlJob_wf, foldlJobPair_wf, foldr_wf, ite_st, ite_fst, ite_self, implies_true, h])
    | (have hwf : Memory.wf _ = true := of_fst_wf (by assumption) (by simp only [Job.write_wf, ite_wf, foldl_wf, foldlPair_wf, foldlJob_wf, foldlJobPair_wf, foldr_wf, ite_st, ite_fst, ite_self, implies_true, h])
       simp only [Job.write_wf, ite_wf, foldl_wf, foldlPair_wf, foldlJob_wf, foldlJobPair_wf, foldr_wf, ite_st, ite_fst, ite_self, implies_true, h, hwf])
theorem Job.setState_wf (j : Job) (c : Nat) (v : Nat) (h : Memory.wf j.st.mem = true) : Memory.wf (Job.setState j c v).st.mem = true := by
  unfold Job.setState
  try dsimp only
  (repeat' split) <;> (try dsimp only) <;> first
    | rfl
    | (simp +contextual only [Job.entry_wf, Job.putEntry_wf, ite_wf, foldl_wf, foldlPair_wf, foldlJob_wf, foldlJobPair_wf, foldr_wf, ite_st, ite_fst, ite_self, implies_true, h]; done)
    | assumption
    | exact of_fst_wf (by assumption) (by simp only [Job.entry_wf, Job.putEntry_wf, ite_wf, foldl_wf, foldlPair_wf, foldlJob_wf, foldlJobPair_wf, foldr_wf, ite_st, ite_fst, ite_self, implies_true, h])
    | (have hwf : Memory.wf _ = true := of_fst_wf (by assumption) (by simp only [Job.entry_wf, Job.putEntry_wf, ite_wf, foldl_wf, foldlPair_wf, foldlJob_wf, foldlJobPair_wf, foldr_wf, ite_st, ite_fst, ite_self, implies_true, h])
       simp only [Job.entry_wf, Job.putEntry_wf, ite_wf, foldl_wf, foldlPair_wf, foldlJob_wf, foldlJobPair_wf, foldr_wf, ite_st, ite_fst, ite_self, implies_true, h, hwf])
theorem State.syncWord_wf (s : State) (da : Nat) (v : Nat) (h : Memory.wf s.mem = true) : Memory.wf (State.syncWord s da v).mem = true := by
  unfold State.syncWord
  try dsimp only
  (repeat' split) <;> (try dsimp only) <;> first
    | rfl
    | (simp +contextual only [State.putWord_wf, ite_wf, foldl_wf, foldlPair_wf, foldlJob_wf, foldlJobPair_wf, foldr_wf, ite_st, ite_fst, ite_self, implies_true, h]; done)
    | assumption
    | exact of_fst_wf (by assumption) (by simp only [State.putWord_wf, ite_wf, foldl_wf, foldlPair_wf, foldlJob_wf, foldlJobPair_wf, foldr_wf, ite_st, ite_fst, ite_self, implies_true, h])
    | (have hwf : Memory.wf _ = true := of_fst_wf (by assumption) (by simp only [State.putWord_wf, ite_wf, foldl_wf, foldlPair_wf, foldlJob_wf, foldlJobPair_wf, foldr_wf, ite_st, ite_fst, ite_self, implies_true, h])
       simp only [State.putWord_wf, ite_wf, foldl_wf, foldlPair_wf, foldlJob_wf, foldlJobPair_wf, foldr_wf, ite_st, ite_fst, ite_self, implies_true, h, hwf])
theorem State.syncCtx_wf (s : State) (c : Nat) (h : Memory.wf s.mem = true) : Memory.wf (State.syncCtx s c).mem = true := by
  unfold State.syncCtx
  try dsimp only
  (repeat' split) <;> (try dsimp only) <;> first
    | rfl
    | (simp +contextual only [State.syncWord_wf, ite_wf, foldl_wf, foldlPair_wf, foldlJob_wf, foldlJobPair_wf, foldr_wf, ite_st, ite_fst, ite_self, implies_true, h]; done)
    | assumption
    | exact of_fst_wf (by assumption) (by simp only [State.syncWord_wf, ite_wf, foldl_wf, foldlPair_wf, foldlJob_wf, foldlJobPair_wf, foldr_wf, ite_st, ite_fst, ite_self, implies_true, h])
    | (have hwf : Memory.wf _ = true := of_fst_wf (by assumption) (by simp only [State.syncWord_wf, ite_wf, foldl_wf, foldlPair_wf, foldlJob_wf, foldlJobPair_wf, foldr_wf, ite_st, ite_fst, ite_self, implies_true, h])
       simp only [State.syncWord_wf, ite_wf, foldl_wf, foldlPair_wf, foldlJob_wf, foldlJobPair_wf, foldr_wf, ite_st, ite_fst, ite_self, implies_true, h, hwf])
theorem State.kvSync_wf (s : State) (h : Memory.wf s.mem = true) : Memory.wf (State.kvSync s).mem = true := by
  unfold State.kvSync
  try dsimp only
  (repeat' split) <;> (try dsimp only) <;> first
    | rfl
    | (simp +contextual only [State.fput_keeps (φ := State.mem) (fun _ _ => rfl), State.syncCtx_wf, ite_wf, foldl_wf, foldlPair_wf, foldlJob_wf, foldlJobPair_wf, foldr_wf, ite_st, ite_fst, ite_self, implies_true, h]; done)
    | assumption
    | exact of_fst_wf (by assumption) (by simp only [State.fput_keeps (φ := State.mem) (fun _ _ => rfl), State.syncCtx_wf, ite_wf, foldl_wf, foldlPair_wf, foldlJob_wf, foldlJobPair_wf, foldr_wf, ite_st, ite_fst, ite_self, implies_true, h])
    | (have hwf : Memory.wf _ = true := of_fst_wf (by assumption) (by simp only [State.fput_keeps (φ := State.mem) (fun _ _ => rfl), State.syncCtx_wf, ite_wf, foldl_wf, foldlPair_wf, foldlJob_wf, foldlJobPair_wf, foldr_wf, ite_st, ite_fst, ite_self, implies_true, h])
       simp only [State.fput_keeps (φ := State.mem) (fun _ _ => rfl), State.syncCtx_wf, ite_wf, foldl_wf, foldlPair_wf, foldlJob_wf, foldlJobPair_wf, foldr_wf, ite_st, ite_fst, ite_self, implies_true, h, hwf])
theorem State.forkVerdict_wf (s : State) (p : Nat) (f : Nat) (d : Descr) (h : Memory.wf s.mem = true) : Memory.wf (State.forkVerdict s p f d).1.mem = true := by
  unfold State.forkVerdict
  try dsimp only
  (repeat' split) <;> (try dsimp only) <;> first
    | rfl
    | (simp +contextual only [State.entryLost_wf, State.kvRead_wf, ite_wf, foldl_wf, foldlPair_wf, foldlJob_wf, foldlJobPair_wf, foldr_wf, ite_st, ite_fst, ite_self, implies_true, h]; done)
    | assumption
    | exact of_fst_wf (by assumption) (by simp only [State.entryLost_wf, State.kvRead_wf, ite_wf, foldl_wf, foldlPair_wf, foldlJob_wf, foldlJobPair_wf, foldr_wf, ite_st, ite_fst, ite_self, implies_true, h])
    | (have hwf : Memory.wf _ = true := of_fst_wf (by assumption) (by simp only [State.entryLost_wf, State.kvRead_wf, ite_wf, foldl_wf, foldlPair_wf, foldlJob_wf, foldlJobPair_wf, foldr_wf, ite_st, ite_fst, ite_self, implies_true, h])
       simp only [State.entryLost_wf, State.kvRead_wf, ite_wf, foldl_wf, foldlPair_wf, foldlJob_wf, foldlJobPair_wf, foldr_wf, ite_st, ite_fst, ite_self, implies_true, h, hwf])
theorem Job.refUp_wf (j : Job) (p : Nat) (h : Memory.wf j.st.mem = true) : Memory.wf (Job.refUp j p).st.mem = true := by
  unfold Job.refUp
  try dsimp only
  (repeat' split) <;> (try dsimp only) <;> first
    | rfl
    | (simp +contextual only [Job.pageWord_wf, Job.putPage_wf, ite_wf, foldl_wf, foldlPair_wf, foldlJob_wf, foldlJobPair_wf, foldr_wf, ite_st, ite_fst, ite_self, implies_true, h]; done)
    | assumption
    | exact of_fst_wf (by assumption) (by simp only [Job.pageWord_wf, Job.putPage_wf, ite_wf, foldl_wf, foldlPair_wf, foldlJob_wf, foldlJobPair_wf, foldr_wf, ite_st, ite_fst, ite_self, implies_true, h])
    | (have hwf : Memory.wf _ = true := of_fst_wf (by assumption) (by simp only [Job.pageWord_wf, Job.putPage_wf, ite_wf, foldl_wf, foldlPair_wf, foldlJob_wf, foldlJobPair_wf, foldr_wf, ite_st, ite_fst, ite_self, implies_true, h])
       simp only [Job.pageWord_wf, Job.putPage_wf, ite_wf, foldl_wf, foldlPair_wf, foldlJob_wf, foldlJobPair_wf, foldr_wf, ite_st, ite_fst, ite_self, implies_true, h, hwf])
theorem State.openBlob_wf (s : State) (da : Nat) (len : Nat) (sid : Nat) (h : Memory.wf s.mem = true) : Memory.wf (State.openBlob s da len sid).1.mem = true := by
  unfold State.openBlob
  try dsimp only
  (repeat' split) <;> (try dsimp only) <;> first
    | rfl
    | (simp +contextual only [State.authFail_keeps (φ := State.mem) (fun _ _ => rfl) (fun _ _ => rfl), State.daRead_wf, State.daWrite_wf, State.unseal_keeps (φ := State.mem) (fun _ _ => rfl), ite_wf, foldl_wf, foldlPair_wf, foldlJob_wf, foldlJobPair_wf, foldr_wf, ite_st, ite_fst, ite_self, implies_true, h]; done)
    | assumption
    | exact of_fst_wf (by assumption) (by simp only [State.authFail_keeps (φ := State.mem) (fun _ _ => rfl) (fun _ _ => rfl), State.daRead_wf, State.daWrite_wf, State.unseal_keeps (φ := State.mem) (fun _ _ => rfl), ite_wf, foldl_wf, foldlPair_wf, foldlJob_wf, foldlJobPair_wf, foldr_wf, ite_st, ite_fst, ite_self, implies_true, h])
    | (have hwf : Memory.wf _ = true := of_fst_wf (by assumption) (by simp only [State.authFail_keeps (φ := State.mem) (fun _ _ => rfl) (fun _ _ => rfl), State.daRead_wf, State.daWrite_wf, State.unseal_keeps (φ := State.mem) (fun _ _ => rfl), ite_wf, foldl_wf, foldlPair_wf, foldlJob_wf, foldlJobPair_wf, foldr_wf, ite_st, ite_fst, ite_self, implies_true, h])
       simp only [State.authFail_keeps (φ := State.mem) (fun _ _ => rfl) (fun _ _ => rfl), State.daRead_wf, State.daWrite_wf, State.unseal_keeps (φ := State.mem) (fun _ _ => rfl), ite_wf, foldl_wf, foldlPair_wf, foldlJob_wf, foldlJobPair_wf, foldr_wf, ite_st, ite_fst, ite_self, implies_true, h, hwf])
theorem State.nodeRead_wf (s : State) (n : Nat) (h : Memory.wf s.mem = true) : Memory.wf (State.nodeRead s n).1.mem = true := by
  unfold State.nodeRead
  try dsimp only
  (repeat' split) <;> (try dsimp only) <;> first
    | rfl
    | (simp +contextual only [State.daWrite_wf, State.kvRead_wf, ite_wf, foldl_wf, foldlPair_wf, foldlJob_wf, foldlJobPair_wf, foldr_wf, ite_st, ite_fst, ite_self, implies_true, h]; done)
    | assumption
    | exact of_fst_wf (by assumption) (by simp only [State.daWrite_wf, State.kvRead_wf, ite_wf, foldl_wf, foldlPair_wf, foldlJob_wf, foldlJobPair_wf, foldr_wf, ite_st, ite_fst, ite_self, implies_true, h])
    | (have hwf : Memory.wf _ = true := of_fst_wf (by assumption) (by simp only [State.daWrite_wf, State.kvRead_wf, ite_wf, foldl_wf, foldlPair_wf, foldlJob_wf, foldlJobPair_wf, foldr_wf, ite_st, ite_fst, ite_self, implies_true, h])
       simp only [State.daWrite_wf, State.kvRead_wf, ite_wf, foldl_wf, foldlPair_wf, foldlJob_wf, foldlJobPair_wf, foldr_wf, ite_st, ite_fst, ite_self, implies_true, h, hwf])
theorem State.nodesRead_wf (s : State) (x1 : List Nat) (h : Memory.wf s.mem = true) : Memory.wf (State.nodesRead s x1).1.mem = true := by
  fun_induction State.nodesRead s x1 <;> first
    | (simp_all +zetaDelta only [State.nodeRead_wf, ite_wf, foldl_wf, foldlPair_wf, foldlJob_wf, foldlJobPair_wf, foldr_wf, ite_st, ite_fst, ite_self, implies_true, h]; done)
    | (simp +zetaDelta only [State.nodeRead_wf, ite_wf, foldl_wf, foldlPair_wf, foldlJob_wf, foldlJobPair_wf, foldr_wf, ite_st, ite_fst, ite_self, implies_true, h]; done)
    | (simp +zetaDelta only [State.nodeRead_wf, ite_wf, foldl_wf, foldlPair_wf, foldlJob_wf, foldlJobPair_wf, foldr_wf, ite_st, ite_fst, ite_self, implies_true, h]; split <;> simp_all +zetaDelta only [State.nodeRead_wf, ite_wf, foldl_wf, foldlPair_wf, foldlJob_wf, foldlJobPair_wf, foldr_wf, ite_st, ite_fst, ite_self, implies_true, h]; done)
    | (simp_all +zetaDelta [State.nodeRead_wf, ite_wf, foldl_wf, foldlPair_wf, foldlJob_wf, foldlJobPair_wf, foldr_wf, ite_st, ite_fst, ite_self, implies_true, h]; done)
theorem State.rowPfns_wf (s : State) (b : List Byte) (lh : Nat) (h : Memory.wf s.mem = true) : Memory.wf (State.rowPfns s b lh).1.mem = true := by
  unfold State.rowPfns
  try dsimp only
  (repeat' split) <;> (try dsimp only) <;> first
    | rfl
    | (simp +contextual only [State.kvRead_wf, ite_wf, foldl_wf, foldlPair_wf, foldlJob_wf, foldlJobPair_wf, foldr_wf, ite_st, ite_fst, ite_self, implies_true, h]; done)
    | assumption
    | exact of_fst_wf (by assumption) (by simp only [State.kvRead_wf, ite_wf, foldl_wf, foldlPair_wf, foldlJob_wf, foldlJobPair_wf, foldr_wf, ite_st, ite_fst, ite_self, implies_true, h])
    | (have hwf : Memory.wf _ = true := of_fst_wf (by assumption) (by simp only [State.kvRead_wf, ite_wf, foldl_wf, foldlPair_wf, foldlJob_wf, foldlJobPair_wf, foldr_wf, ite_st, ite_fst, ite_self, implies_true, h])
       simp only [State.kvRead_wf, ite_wf, foldl_wf, foldlPair_wf, foldlJob_wf, foldlJobPair_wf, foldr_wf, ite_st, ite_fst, ite_self, implies_true, h, hwf])
theorem State.domainsOff_wf (s : State) (h : Memory.wf s.mem = true) : Memory.wf (State.domainsOff s).mem = true := by
  unfold State.domainsOff
  try dsimp only
  (repeat' split) <;> (try dsimp only) <;> first
    | rfl
    | (simp +contextual only [State.engineOff_keeps (φ := State.mem) (fun _ _ => rfl) (fun _ _ => rfl) (fun _ _ => rfl) (fun _ _ => rfl) (fun _ _ => rfl) (fun _ _ => rfl), State.portOff_keeps (φ := State.mem) (fun _ _ => rfl) (fun _ _ => rfl), ite_wf, foldl_wf, foldlPair_wf, foldlJob_wf, foldlJobPair_wf, foldr_wf, ite_st, ite_fst, ite_self, implies_true, h]; done)
    | assumption
    | exact of_fst_wf (by assumption) (by simp only [State.engineOff_keeps (φ := State.mem) (fun _ _ => rfl) (fun _ _ => rfl) (fun _ _ => rfl) (fun _ _ => rfl) (fun _ _ => rfl) (fun _ _ => rfl), State.portOff_keeps (φ := State.mem) (fun _ _ => rfl) (fun _ _ => rfl), ite_wf, foldl_wf, foldlPair_wf, foldlJob_wf, foldlJobPair_wf, foldr_wf, ite_st, ite_fst, ite_self, implies_true, h])
    | (have hwf : Memory.wf _ = true := of_fst_wf (by assumption) (by simp only [State.engineOff_keeps (φ := State.mem) (fun _ _ => rfl) (fun _ _ => rfl) (fun _ _ => rfl) (fun _ _ => rfl) (fun _ _ => rfl) (fun _ _ => rfl), State.portOff_keeps (φ := State.mem) (fun _ _ => rfl) (fun _ _ => rfl), ite_wf, foldl_wf, foldlPair_wf, foldlJob_wf, foldlJobPair_wf, foldr_wf, ite_st, ite_fst, ite_self, implies_true, h])
       simp only [State.engineOff_keeps (φ := State.mem) (fun _ _ => rfl) (fun _ _ => rfl) (fun _ _ => rfl) (fun _ _ => rfl) (fun _ _ => rfl) (fun _ _ => rfl), State.portOff_keeps (φ := State.mem) (fun _ _ => rfl) (fun _ _ => rfl), ite_wf, foldl_wf, foldlPair_wf, foldlJob_wf, foldlJobPair_wf, foldr_wf, ite_st, ite_fst, ite_self, implies_true, h, hwf])
theorem State.accRead_wf (s : State) (c : Nat) (h : Memory.wf s.mem = true) : Memory.wf (State.accRead s c).1.mem = true := by
  unfold State.accRead
  try dsimp only
  (repeat' split) <;> (try dsimp only) <;> first
    | rfl
    | (simp +contextual only [State.daRead_wf, State.free_keeps (φ := State.mem) (fun _ _ => rfl), ite_wf, foldl_wf, foldlPair_wf, foldlJob_wf, foldlJobPair_wf, foldr_wf, ite_st, ite_fst, ite_self, implies_true, h]; done)
    | assumption
    | exact of_fst_wf (by assumption) (by simp only [State.daRead_wf, State.free_keeps (φ := State.mem) (fun _ _ => rfl), ite_wf, foldl_wf, foldlPair_wf, foldlJob_wf, foldlJobPair_wf, foldr_wf, ite_st, ite_fst, ite_self, implies_true, h])
    | (have hwf : Memory.wf _ = true := of_fst_wf (by assumption) (by simp only [State.daRead_wf, State.free_keeps (φ := State.mem) (fun _ _ => rfl), ite_wf, foldl_wf, foldlPair_wf, foldlJob_wf, foldlJobPair_wf, foldr_wf, ite_st, ite_fst, ite_self, implies_true, h])
       simp only [State.daRead_wf, State.free_keeps (φ := State.mem) (fun _ _ => rfl), ite_wf, foldl_wf, foldlPair_wf, foldlJob_wf, foldlJobPair_wf, foldr_wf, ite_st, ite_fst, ite_self, implies_true, h, hwf])
theorem State.accWrite_wf (s : State) (c : Nat) (l : List Nat) (est : Bool) (h : Memory.wf s.mem = true) : Memory.wf (State.accWrite s c l est).mem = true := by
  unfold State.accWrite
  try dsimp only
  (repeat' split) <;> (try dsimp only) <;> first
    | rfl
    | (simp +contextual only [State.daWrite_wf, ite_wf, foldl_wf, foldlPair_wf, foldlJob_wf, foldlJobPair_wf, foldr_wf, ite_st, ite_fst, ite_self, implies_true, h]; done)
    | assumption
    | exact of_fst_wf (by assumption) (by simp only [State.daWrite_wf, ite_wf, foldl_wf, foldlPair_wf, foldlJob_wf, foldlJobPair_wf, foldr_wf, ite_st, ite_fst, ite_self, implies_true, h])
    | (have hwf : Memory.wf _ = true := of_fst_wf (by assumption) (by simp only [State.daWrite_wf, ite_wf, foldl_wf, foldlPair_wf, foldlJob_wf, foldlJobPair_wf, foldr_wf, ite_st, ite_fst, ite_self, implies_true, h])
       simp only [State.daWrite_wf, ite_wf, foldl_wf, foldlPair_wf, foldlJob_wf, foldlJobPair_wf, foldr_wf, ite_st, ite_fst, ite_self, implies_true, h, hwf])
theorem State.accAdd_wf (s : State) (c : Nat) (l : List Accr) (h : Memory.wf s.mem = true) : Memory.wf (State.accAdd s c l).mem = true := by
  unfold State.accAdd
  try dsimp only
  (repeat' split) <;> (try dsimp only) <;> first
    | rfl
    | (simp +contextual only [State.accRead_wf, State.accWrite_wf, ite_wf, foldl_wf, foldlPair_wf, foldlJob_wf, foldlJobPair_wf, foldr_wf, ite_st, ite_fst, ite_self, implies_true, h]; done)
    | assumption
    | exact of_fst_wf (by assumption) (by simp only [State.accRead_wf, State.accWrite_wf, ite_wf, foldl_wf, foldlPair_wf, foldlJob_wf, foldlJobPair_wf, foldr_wf, ite_st, ite_fst, ite_self, implies_true, h])
    | (have hwf : Memory.wf _ = true := of_fst_wf (by assumption) (by simp only [State.accRead_wf, State.accWrite_wf, ite_wf, foldl_wf, foldlPair_wf, foldlJob_wf, foldlJobPair_wf, foldr_wf, ite_st, ite_fst, ite_self, implies_true, h])
       simp only [State.accRead_wf, State.accWrite_wf, ite_wf, foldl_wf, foldlPair_wf, foldlJob_wf, foldlJobPair_wf, foldr_wf, ite_st, ite_fst, ite_self, implies_true, h, hwf])
theorem State.ledgerOut_wf (s : State) (x : Ledger) (h : Memory.wf s.mem = true) : Memory.wf (State.ledgerOut s x).mem = true := by
  unfold State.ledgerOut
  try dsimp only
  (repeat' split) <;> (try dsimp only) <;> first
    | rfl
    | (simp +contextual only [State.enqueue_wf, ite_wf, foldl_wf, foldlPair_wf, foldlJob_wf, foldlJobPair_wf, foldr_wf, ite_st, ite_fst, ite_self, implies_true, h]; done)
    | assumption
    | exact of_fst_wf (by assumption) (by simp only [State.enqueue_wf, ite_wf, foldl_wf, foldlPair_wf, foldlJob_wf, foldlJobPair_wf, foldr_wf, ite_st, ite_fst, ite_self, implies_true, h])
    | (have hwf : Memory.wf _ = true := of_fst_wf (by assumption) (by simp only [State.enqueue_wf, ite_wf, foldl_wf, foldlPair_wf, foldlJob_wf, foldlJobPair_wf, foldr_wf, ite_st, ite_fst, ite_self, implies_true, h])
       simp only [State.enqueue_wf, ite_wf, foldl_wf, foldlPair_wf, foldlJob_wf, foldlJobPair_wf, foldr_wf, ite_st, ite_fst, ite_self, implies_true, h, hwf])
theorem State.ledgerAdd_wf (s : State) (origin : Nat) (octx : Nat) (time : Nat) (nj : List Nat) (est : Bool) (meas : List Byte) (h : Memory.wf s.mem = true) : Memory.wf (State.ledgerAdd s origin octx time nj est meas).mem = true := by
  unfold State.ledgerAdd
  try dsimp only
  (repeat' split) <;> (try dsimp only) <;> first
    | rfl
    | (simp +contextual only [State.ledgerOut_wf, ite_wf, foldl_wf, foldlPair_wf, foldlJob_wf, foldlJobPair_wf, foldr_wf, ite_st, ite_fst, ite_self, implies_true, h]; done)
    | assumption
    | exact of_fst_wf (by assumption) (by simp only [State.ledgerOut_wf, ite_wf, foldl_wf, foldlPair_wf, foldlJob_wf, foldlJobPair_wf, foldr_wf, ite_st, ite_fst, ite_self, implies_true, h])
    | (have hwf : Memory.wf _ = true := of_fst_wf (by assumption) (by simp only [State.ledgerOut_wf, ite_wf, foldl_wf, foldlPair_wf, foldlJob_wf, foldlJobPair_wf, foldr_wf, ite_st, ite_fst, ite_self, implies_true, h])
       simp only [State.ledgerOut_wf, ite_wf, foldl_wf, foldlPair_wf, foldlJob_wf, foldlJobPair_wf, foldr_wf, ite_st, ite_fst, ite_self, implies_true, h, hwf])
theorem State.closeRecord_wf (s : State) (x : Closing) (h : Memory.wf s.mem = true) : Memory.wf (State.closeRecord s x).mem = true := by
  unfold State.closeRecord
  try dsimp only
  (repeat' split) <;> (try dsimp only) <;> first
    | rfl
    | (simp +contextual only [State.accRead_wf, State.enqueue_wf, ite_wf, foldl_wf, foldlPair_wf, foldlJob_wf, foldlJobPair_wf, foldr_wf, ite_st, ite_fst, ite_self, implies_true, h]; done)
    | assumption
    | exact of_fst_wf (by assumption) (by simp only [State.accRead_wf, State.enqueue_wf, ite_wf, foldl_wf, foldlPair_wf, foldlJob_wf, foldlJobPair_wf, foldr_wf, ite_st, ite_fst, ite_self, implies_true, h])
    | (have hwf : Memory.wf _ = true := of_fst_wf (by assumption) (by simp only [State.accRead_wf, State.enqueue_wf, ite_wf, foldl_wf, foldlPair_wf, foldlJob_wf, foldlJobPair_wf, foldr_wf, ite_st, ite_fst, ite_self, implies_true, h])
       simp only [State.accRead_wf, State.enqueue_wf, ite_wf, foldl_wf, foldlPair_wf, foldlJob_wf, foldlJobPair_wf, foldr_wf, ite_st, ite_fst, ite_self, implies_true, h, hwf])
theorem State.place_wf (s : State) (rec_ : List Byte) (h : Memory.wf s.mem = true) : Memory.wf (State.place s rec_).1.mem = true := by
  unfold State.place
  try dsimp only
  (repeat' split) <;> (try dsimp only) <;> first
    | rfl
    | (simp +contextual only [State.daWrite_wf, ite_wf, foldl_wf, foldlPair_wf, foldlJob_wf, foldlJobPair_wf, foldr_wf, ite_st, ite_fst, ite_self, implies_true, h]; done)
    | assumption
    | exact of_fst_wf (by assumption) (by simp only [State.daWrite_wf, ite_wf, foldl_wf, foldlPair_wf, foldlJob_wf, foldlJobPair_wf, foldr_wf, ite_st, ite_fst, ite_self, implies_true, h])
    | (have hwf : Memory.wf _ = true := of_fst_wf (by assumption) (by simp only [State.daWrite_wf, ite_wf, foldl_wf, foldlPair_wf, foldlJob_wf, foldlJobPair_wf, foldr_wf, ite_st, ite_fst, ite_self, implies_true, h])
       simp only [State.daWrite_wf, ite_wf, foldl_wf, foldlPair_wf, foldlJob_wf, foldlJobPair_wf, foldr_wf, ite_st, ite_fst, ite_self, implies_true, h, hwf])
theorem State.recordRead_wf (s : State) (da : Nat) (h : Memory.wf s.mem = true) : Memory.wf (State.recordRead s da).1.mem = true := by
  unfold State.recordRead
  try dsimp only
  (repeat' split) <;> (try dsimp only) <;> first
    | rfl
    | (simp +contextual only [State.daRead_wf, State.free_keeps (φ := State.mem) (fun _ _ => rfl), ite_wf, foldl_wf, foldlPair_wf, foldlJob_wf, foldlJobPair_wf, foldr_wf, ite_st, ite_fst, ite_self, implies_true, h]; done)
    | assumption
    | exact of_fst_wf (by assumption) (by simp only [State.daRead_wf, State.free_keeps (φ := State.mem) (fun _ _ => rfl), ite_wf, foldl_wf, foldlPair_wf, foldlJob_wf, foldlJobPair_wf, foldr_wf, ite_st, ite_fst, ite_self, implies_true, h])
    | (have hwf : Memory.wf _ = true := of_fst_wf (by assumption) (by simp only [State.daRead_wf, State.free_keeps (φ := State.mem) (fun _ _ => rfl), ite_wf, foldl_wf, foldlPair_wf, foldlJob_wf, foldlJobPair_wf, foldr_wf, ite_st, ite_fst, ite_self, implies_true, h])
       simp only [State.daRead_wf, State.free_keeps (φ := State.mem) (fun _ _ => rfl), ite_wf, foldl_wf, foldlPair_wf, foldlJob_wf, foldlJobPair_wf, foldr_wf, ite_st, ite_fst, ite_self, implies_true, h, hwf])
theorem State.leaves_wf (s : State) (first : Nat) (n : Nat) (h : Memory.wf s.mem = true) : Memory.wf (State.leaves s first n).1.mem = true := by
  unfold State.leaves
  try dsimp only
  (repeat' split) <;> (try dsimp only) <;> first
    | rfl
    | (simp +contextual only [State.recordRead_wf, ite_wf, foldl_wf, foldlPair_wf, foldlJob_wf, foldlJobPair_wf, foldr_wf, ite_st, ite_fst, ite_self, implies_true, h]; done)
    | assumption
    | exact of_fst_wf (by assumption) (by simp only [State.recordRead_wf, ite_wf, foldl_wf, foldlPair_wf, foldlJob_wf, foldlJobPair_wf, foldr_wf, ite_st, ite_fst, ite_self, implies_true, h])
    | (have hwf : Memory.wf _ = true := of_fst_wf (by assumption) (by simp only [State.recordRead_wf, ite_wf, foldl_wf, foldlPair_wf, foldlJob_wf, foldlJobPair_wf, foldr_wf, ite_st, ite_fst, ite_self, implies_true, h])
       simp only [State.recordRead_wf, ite_wf, foldl_wf, foldlPair_wf, foldlJob_wf, foldlJobPair_wf, foldr_wf, ite_st, ite_fst, ite_self, implies_true, h, hwf])
theorem State.fetchNow_wf (s : State) (q : Nat) (d : Descr) (first : Nat) (n : Nat) (h : Memory.wf s.mem = true) : Memory.wf (State.fetchNow s q d first n).mem = true := by
  unfold State.fetchNow
  try dsimp only
  (repeat' split) <;> (try dsimp only) <;> first
    | rfl
    | (simp +contextual only [State.complete_keeps (φ := State.mem) (fun _ _ => rfl) (fun _ _ => rfl) (fun _ _ => rfl) (fun _ _ => rfl) (fun _ _ => rfl) (fun _ _ => rfl), State.daRead_wf, State.descrWrite_keeps (φ := State.mem) (fun _ _ => rfl) (fun _ _ => rfl) (fun _ _ => rfl), State.leaves_wf, ite_wf, foldl_wf, foldlPair_wf, foldlJob_wf, foldlJobPair_wf, foldr_wf, ite_st, ite_fst, ite_self, implies_true, h]; done)
    | assumption
    | exact of_fst_wf (by assumption) (by simp only [State.complete_keeps (φ := State.mem) (fun _ _ => rfl) (fun _ _ => rfl) (fun _ _ => rfl) (fun _ _ => rfl) (fun _ _ => rfl) (fun _ _ => rfl), State.daRead_wf, State.descrWrite_keeps (φ := State.mem) (fun _ _ => rfl) (fun _ _ => rfl) (fun _ _ => rfl), State.leaves_wf, ite_wf, foldl_wf, foldlPair_wf, foldlJob_wf, foldlJobPair_wf, foldr_wf, ite_st, ite_fst, ite_self, implies_true, h])
    | (have hwf : Memory.wf _ = true := of_fst_wf (by assumption) (by simp only [State.complete_keeps (φ := State.mem) (fun _ _ => rfl) (fun _ _ => rfl) (fun _ _ => rfl) (fun _ _ => rfl) (fun _ _ => rfl) (fun _ _ => rfl), State.daRead_wf, State.descrWrite_keeps (φ := State.mem) (fun _ _ => rfl) (fun _ _ => rfl) (fun _ _ => rfl), State.leaves_wf, ite_wf, foldl_wf, foldlPair_wf, foldlJob_wf, foldlJobPair_wf, foldr_wf, ite_st, ite_fst, ite_self, implies_true, h])
       simp only [State.complete_keeps (φ := State.mem) (fun _ _ => rfl) (fun _ _ => rfl) (fun _ _ => rfl) (fun _ _ => rfl) (fun _ _ => rfl) (fun _ _ => rfl), State.daRead_wf, State.descrWrite_keeps (φ := State.mem) (fun _ _ => rfl) (fun _ _ => rfl) (fun _ _ => rfl), State.leaves_wf, ite_wf, foldl_wf, foldlPair_wf, foldlJob_wf, foldlJobPair_wf, foldr_wf, ite_st, ite_fst, ite_self, implies_true, h, hwf])
theorem State.fetchTry_wf (s : State) (q : Nat) (d : Descr) (h : Memory.wf s.mem = true) : Memory.wf (State.fetchTry s q d).mem = true := by
  unfold State.fetchTry
  try dsimp only
  (repeat' split) <;> (try dsimp only) <;> first
    | rfl
    | (simp +contextual only [State.complete_keeps (φ := State.mem) (fun _ _ => rfl) (fun _ _ => rfl) (fun _ _ => rfl) (fun _ _ => rfl) (fun _ _ => rfl) (fun _ _ => rfl), State.fetchNow_wf, ite_wf, foldl_wf, foldlPair_wf, foldlJob_wf, foldlJobPair_wf, foldr_wf, ite_st, ite_fst, ite_self, implies_true, h]; done)
    | assumption
    | exact of_fst_wf (by assumption) (by simp only [State.complete_keeps (φ := State.mem) (fun _ _ => rfl) (fun _ _ => rfl) (fun _ _ => rfl) (fun _ _ => rfl) (fun _ _ => rfl) (fun _ _ => rfl), State.fetchNow_wf, ite_wf, foldl_wf, foldlPair_wf, foldlJob_wf, foldlJobPair_wf, foldr_wf, ite_st, ite_fst, ite_self, implies_true, h])
    | (have hwf : Memory.wf _ = true := of_fst_wf (by assumption) (by simp only [State.complete_keeps (φ := State.mem) (fun _ _ => rfl) (fun _ _ => rfl) (fun _ _ => rfl) (fun _ _ => rfl) (fun _ _ => rfl) (fun _ _ => rfl), State.fetchNow_wf, ite_wf, foldl_wf, foldlPair_wf, foldlJob_wf, foldlJobPair_wf, foldr_wf, ite_st, ite_fst, ite_self, implies_true, h])
       simp only [State.complete_keeps (φ := State.mem) (fun _ _ => rfl) (fun _ _ => rfl) (fun _ _ => rfl) (fun _ _ => rfl) (fun _ _ => rfl) (fun _ _ => rfl), State.fetchNow_wf, ite_wf, foldl_wf, foldlPair_wf, foldlJob_wf, foldlJobPair_wf, foldr_wf, ite_st, ite_fst, ite_self, implies_true, h, hwf])
theorem State.moduleReset_wf (s : State) (h : Memory.wf s.mem = true) : Memory.wf (State.moduleReset s).mem = true := by
  unfold State.moduleReset
  try dsimp only
  (repeat' split) <;> (try dsimp only) <;> first
    | rfl
    | (simp +contextual only [State.errRefresh_keeps (φ := State.mem) (fun _ _ => rfl) (fun _ _ => rfl), State.fput_keeps (φ := State.mem) (fun _ _ => rfl), State.free_keeps (φ := State.mem) (fun _ _ => rfl), State.put64_keeps (φ := State.mem) (fun _ _ => rfl), State.regsReset_keeps (φ := State.mem) (fun _ _ => rfl) (fun _ _ => rfl) (fun _ _ => rfl), ite_wf, foldl_wf, foldlPair_wf, foldlJob_wf, foldlJobPair_wf, foldr_wf, ite_st, ite_fst, ite_self, implies_true, h]; done)
    | assumption
    | exact of_fst_wf (by assumption) (by simp only [State.errRefresh_keeps (φ := State.mem) (fun _ _ => rfl) (fun _ _ => rfl), State.fput_keeps (φ := State.mem) (fun _ _ => rfl), State.free_keeps (φ := State.mem) (fun _ _ => rfl), State.put64_keeps (φ := State.mem) (fun _ _ => rfl), State.regsReset_keeps (φ := State.mem) (fun _ _ => rfl) (fun _ _ => rfl) (fun _ _ => rfl), ite_wf, foldl_wf, foldlPair_wf, foldlJob_wf, foldlJobPair_wf, foldr_wf, ite_st, ite_fst, ite_self, implies_true, h])
    | (have hwf : Memory.wf _ = true := of_fst_wf (by assumption) (by simp only [State.errRefresh_keeps (φ := State.mem) (fun _ _ => rfl) (fun _ _ => rfl), State.fput_keeps (φ := State.mem) (fun _ _ => rfl), State.free_keeps (φ := State.mem) (fun _ _ => rfl), State.put64_keeps (φ := State.mem) (fun _ _ => rfl), State.regsReset_keeps (φ := State.mem) (fun _ _ => rfl) (fun _ _ => rfl) (fun _ _ => rfl), ite_wf, foldl_wf, foldlPair_wf, foldlJob_wf, foldlJobPair_wf, foldr_wf, ite_st, ite_fst, ite_self, implies_true, h])
       simp only [State.errRefresh_keeps (φ := State.mem) (fun _ _ => rfl) (fun _ _ => rfl), State.fput_keeps (φ := State.mem) (fun _ _ => rfl), State.free_keeps (φ := State.mem) (fun _ _ => rfl), State.put64_keeps (φ := State.mem) (fun _ _ => rfl), State.regsReset_keeps (φ := State.mem) (fun _ _ => rfl) (fun _ _ => rfl) (fun _ _ => rfl), ite_wf, foldl_wf, foldlPair_wf, foldlJob_wf, foldlJobPair_wf, foldr_wf, ite_st, ite_fst, ite_self, implies_true, h, hwf])
theorem State.standby_wf (s : State) (h : Memory.wf s.mem = true) : Memory.wf (State.standby s).mem = true := by
  unfold State.standby
  try dsimp only
  (repeat' split) <;> (try dsimp only) <;> first
    | rfl
    | (simp +contextual only [State.errRefresh_keeps (φ := State.mem) (fun _ _ => rfl) (fun _ _ => rfl), State.moduleReset_wf, ite_wf, foldl_wf, foldlPair_wf, foldlJob_wf, foldlJobPair_wf, foldr_wf, ite_st, ite_fst, ite_self, implies_true, h]; done)
    | assumption
    | exact of_fst_wf (by assumption) (by simp only [State.errRefresh_keeps (φ := State.mem) (fun _ _ => rfl) (fun _ _ => rfl), State.moduleReset_wf, ite_wf, foldl_wf, foldlPair_wf, foldlJob_wf, foldlJobPair_wf, foldr_wf, ite_st, ite_fst, ite_self, implies_true, h])
    | (have hwf : Memory.wf _ = true := of_fst_wf (by assumption) (by simp only [State.errRefresh_keeps (φ := State.mem) (fun _ _ => rfl) (fun _ _ => rfl), State.moduleReset_wf, ite_wf, foldl_wf, foldlPair_wf, foldlJob_wf, foldlJobPair_wf, foldr_wf, ite_st, ite_fst, ite_self, implies_true, h])
       simp only [State.errRefresh_keeps (φ := State.mem) (fun _ _ => rfl) (fun _ _ => rfl), State.moduleReset_wf, ite_wf, foldl_wf, foldlPair_wf, foldlJob_wf, foldlJobPair_wf, foldr_wf, ite_st, ite_fst, ite_self, implies_true, h, hwf])
theorem State.powerOn_wf (s : State) (h : Memory.wf s.mem = true) : Memory.wf (State.powerOn s).mem = true := by
  unfold State.powerOn
  try dsimp only
  (repeat' split) <;> (try dsimp only) <;> first
    | rfl
    | (simp +contextual only [State.moduleReset_wf, ite_wf, foldl_wf, foldlPair_wf, foldlJob_wf, foldlJobPair_wf, foldr_wf, ite_st, ite_fst, ite_self, implies_true, h]; done)
    | assumption
    | exact of_fst_wf (by assumption) (by simp only [State.moduleReset_wf, ite_wf, foldl_wf, foldlPair_wf, foldlJob_wf, foldlJobPair_wf, foldr_wf, ite_st, ite_fst, ite_self, implies_true, h])
    | (have hwf : Memory.wf _ = true := of_fst_wf (by assumption) (by simp only [State.moduleReset_wf, ite_wf, foldl_wf, foldlPair_wf, foldlJob_wf, foldlJobPair_wf, foldr_wf, ite_st, ite_fst, ite_self, implies_true, h])
       simp only [State.moduleReset_wf, ite_wf, foldl_wf, foldlPair_wf, foldlJob_wf, foldlJobPair_wf, foldr_wf, ite_st, ite_fst, ite_self, implies_true, h, hwf])
theorem State.slotTook_wf (s : State) (n : Nat) (w : Option (List Byte)) (h : Memory.wf s.mem = true) : Memory.wf (State.slotTook s n w).1.mem = true := by
  unfold State.slotTook
  try dsimp only
  (repeat' split) <;> (try dsimp only) <;> first
    | rfl
    | (simp +contextual only [State.daWrite_wf, State.free_keeps (φ := State.mem) (fun _ _ => rfl), ite_wf, foldl_wf, foldlPair_wf, foldlJob_wf, foldlJobPair_wf, foldr_wf, ite_st, ite_fst, ite_self, implies_true, h]; done)
    | assumption
    | exact of_fst_wf (by assumption) (by simp only [State.daWrite_wf, State.free_keeps (φ := State.mem) (fun _ _ => rfl), ite_wf, foldl_wf, foldlPair_wf, foldlJob_wf, foldlJobPair_wf, foldr_wf, ite_st, ite_fst, ite_self, implies_true, h])
    | (have hwf : Memory.wf _ = true := of_fst_wf (by assumption) (by simp only [State.daWrite_wf, State.free_keeps (φ := State.mem) (fun _ _ => rfl), ite_wf, foldl_wf, foldlPair_wf, foldlJob_wf, foldlJobPair_wf, foldr_wf, ite_st, ite_fst, ite_self, implies_true, h])
       simp only [State.daWrite_wf, State.free_keeps (φ := State.mem) (fun _ _ => rfl), ite_wf, foldl_wf, foldlPair_wf, foldlJob_wf, foldlJobPair_wf, foldr_wf, ite_st, ite_fst, ite_self, implies_true, h, hwf])
theorem State.slotWord_wf (s : State) (n : Nat) (h : Memory.wf s.mem = true) : Memory.wf (State.slotWord s n).1.mem = true := by
  unfold State.slotWord
  try dsimp only
  (repeat' split) <;> (try dsimp only) <;> first
    | rfl
    | (simp +contextual only [State.kvRead_wf, State.slotTook_wf, ite_wf, foldl_wf, foldlPair_wf, foldlJob_wf, foldlJobPair_wf, foldr_wf, ite_st, ite_fst, ite_self, implies_true, h]; done)
    | assumption
    | exact of_fst_wf (by assumption) (by simp only [State.kvRead_wf, State.slotTook_wf, ite_wf, foldl_wf, foldlPair_wf, foldlJob_wf, foldlJobPair_wf, foldr_wf, ite_st, ite_fst, ite_self, implies_true, h])
    | (have hwf : Memory.wf _ = true := of_fst_wf (by assumption) (by simp only [State.kvRead_wf, State.slotTook_wf, ite_wf, foldl_wf, foldlPair_wf, foldlJob_wf, foldlJobPair_wf, foldr_wf, ite_st, ite_fst, ite_self, implies_true, h])
       simp only [State.kvRead_wf, State.slotTook_wf, ite_wf, foldl_wf, foldlPair_wf, foldlJob_wf, foldlJobPair_wf, foldr_wf, ite_st, ite_fst, ite_self, implies_true, h, hwf])
theorem State.slotFind_wf (x0 : Nat) (x1 : State) (x2 : Nat) (h : Memory.wf x1.mem = true) : Memory.wf (State.slotFind x0 x1 x2).1.mem = true := by
  fun_induction State.slotFind x0 x1 x2 <;> first
    | (simp_all +zetaDelta only [State.slotWord_wf, ite_wf, foldl_wf, foldlPair_wf, foldlJob_wf, foldlJobPair_wf, foldr_wf, ite_st, ite_fst, ite_self, implies_true, h]; done)
    | (simp +zetaDelta only [State.slotWord_wf, ite_wf, foldl_wf, foldlPair_wf, foldlJob_wf, foldlJobPair_wf, foldr_wf, ite_st, ite_fst, ite_self, implies_true, h]; done)
    | (simp +zetaDelta only [State.slotWord_wf, ite_wf, foldl_wf, foldlPair_wf, foldlJob_wf, foldlJobPair_wf, foldr_wf, ite_st, ite_fst, ite_self, implies_true, h]; split <;> simp_all +zetaDelta only [State.slotWord_wf, ite_wf, foldl_wf, foldlPair_wf, foldlJob_wf, foldlJobPair_wf, foldr_wf, ite_st, ite_fst, ite_self, implies_true, h]; done)
    | (simp_all +zetaDelta [State.slotWord_wf, ite_wf, foldl_wf, foldlPair_wf, foldlJob_wf, foldlJobPair_wf, foldr_wf, ite_st, ite_fst, ite_self, implies_true, h]; done)
theorem State.slotSet_wf (s : State) (n : Nat) (v : Bool) (h : Memory.wf s.mem = true) : Memory.wf (State.slotSet s n v).mem = true := by
  unfold State.slotSet
  try dsimp only
  (repeat' split) <;> (try dsimp only) <;> first
    | rfl
    | (simp +contextual only [State.daWrite_wf, State.slotWord_wf, ite_wf, foldl_wf, foldlPair_wf, foldlJob_wf, foldlJobPair_wf, foldr_wf, ite_st, ite_fst, ite_self, implies_true, h]; done)
    | assumption
    | exact of_fst_wf (by assumption) (by simp only [State.daWrite_wf, State.slotWord_wf, ite_wf, foldl_wf, foldlPair_wf, foldlJob_wf, foldlJobPair_wf, foldr_wf, ite_st, ite_fst, ite_self, implies_true, h])
    | (have hwf : Memory.wf _ = true := of_fst_wf (by assumption) (by simp only [State.daWrite_wf, State.slotWord_wf, ite_wf, foldl_wf, foldlPair_wf, foldlJob_wf, foldlJobPair_wf, foldr_wf, ite_st, ite_fst, ite_self, implies_true, h])
       simp only [State.daWrite_wf, State.slotWord_wf, ite_wf, foldl_wf, foldlPair_wf, foldlJob_wf, foldlJobPair_wf, foldr_wf, ite_st, ite_fst, ite_self, implies_true, h, hwf])
theorem State.vectorsRead_wf (x0 : Nat) (x1 : State) (x2 : Nat) (x3 : Nat) (h : Memory.wf x1.mem = true) : Memory.wf (State.vectorsRead x0 x1 x2 x3).1.mem = true := by
  fun_induction State.vectorsRead x0 x1 x2 x3 <;> first
    | (simp_all +zetaDelta only [State.kvRead_wf, ite_wf, foldl_wf, foldlPair_wf, foldlJob_wf, foldlJobPair_wf, foldr_wf, ite_st, ite_fst, ite_self, implies_true, h]; done)
    | (simp +zetaDelta only [State.kvRead_wf, ite_wf, foldl_wf, foldlPair_wf, foldlJob_wf, foldlJobPair_wf, foldr_wf, ite_st, ite_fst, ite_self, implies_true, h]; done)
    | (simp +zetaDelta only [State.kvRead_wf, ite_wf, foldl_wf, foldlPair_wf, foldlJob_wf, foldlJobPair_wf, foldr_wf, ite_st, ite_fst, ite_self, implies_true, h]; split <;> simp_all +zetaDelta only [State.kvRead_wf, ite_wf, foldl_wf, foldlPair_wf, foldlJob_wf, foldlJobPair_wf, foldr_wf, ite_st, ite_fst, ite_self, implies_true, h]; done)
    | (simp_all +zetaDelta [State.kvRead_wf, ite_wf, foldl_wf, foldlPair_wf, foldlJob_wf, foldlJobPair_wf, foldr_wf, ite_st, ite_fst, ite_self, implies_true, h]; done)
theorem State.placeOf_wf (s : State) (i : Nat) (h : Memory.wf s.mem = true) : Memory.wf (State.placeOf s i).1.mem = true := by
  unfold State.placeOf
  try dsimp only
  (repeat' split) <;> (try dsimp only) <;> first
    | rfl
    | (simp +contextual only [State.free_keeps (φ := State.mem) (fun _ _ => rfl), State.kvRead_wf, ite_wf, foldl_wf, foldlPair_wf, foldlJob_wf, foldlJobPair_wf, foldr_wf, ite_st, ite_fst, ite_self, implies_true, h]; done)
    | assumption
    | exact of_fst_wf (by assumption) (by simp only [State.free_keeps (φ := State.mem) (fun _ _ => rfl), State.kvRead_wf, ite_wf, foldl_wf, foldlPair_wf, foldlJob_wf, foldlJobPair_wf, foldr_wf, ite_st, ite_fst, ite_self, implies_true, h])
    | (have hwf : Memory.wf _ = true := of_fst_wf (by assumption) (by simp only [State.free_keeps (φ := State.mem) (fun _ _ => rfl), State.kvRead_wf, ite_wf, foldl_wf, foldlPair_wf, foldlJob_wf, foldlJobPair_wf, foldr_wf, ite_st, ite_fst, ite_self, implies_true, h])
       simp only [State.free_keeps (φ := State.mem) (fun _ _ => rfl), State.kvRead_wf, ite_wf, foldl_wf, foldlPair_wf, foldlJob_wf, foldlJobPair_wf, foldr_wf, ite_st, ite_fst, ite_self, implies_true, h, hwf])
theorem State.setPeerState_wf (s : State) (i : Nat) (v : Nat) (h : Memory.wf s.mem = true) : Memory.wf (State.setPeerState s i v).mem = true := by
  unfold State.setPeerState
  try dsimp only
  (repeat' split) <;> (try dsimp only) <;> first
    | rfl
    | (simp +contextual only [State.daRead_wf, State.daWrite_wf, ite_wf, foldl_wf, foldlPair_wf, foldlJob_wf, foldlJobPair_wf, foldr_wf, ite_st, ite_fst, ite_self, implies_true, h]; done)
    | assumption
    | exact of_fst_wf (by assumption) (by simp only [State.daRead_wf, State.daWrite_wf, ite_wf, foldl_wf, foldlPair_wf, foldlJob_wf, foldlJobPair_wf, foldr_wf, ite_st, ite_fst, ite_self, implies_true, h])
    | (have hwf : Memory.wf _ = true := of_fst_wf (by assumption) (by simp only [State.daRead_wf, State.daWrite_wf, ite_wf, foldl_wf, foldlPair_wf, foldlJob_wf, foldlJobPair_wf, foldr_wf, ite_st, ite_fst, ite_self, implies_true, h])
       simp only [State.daRead_wf, State.daWrite_wf, ite_wf, foldl_wf, foldlPair_wf, foldlJob_wf, foldlJobPair_wf, foldr_wf, ite_st, ite_fst, ite_self, implies_true, h, hwf])
theorem State.fwAsk_wf (x0 : Nat) (x1 : State) (x2 : Nat) (x3 : Nat) (h : Memory.wf x1.mem = true) : Memory.wf (State.fwAsk x0 x1 x2 x3).mem = true := by
  fun_induction State.fwAsk x0 x1 x2 x3 <;> first
    | (simp_all +zetaDelta only [State.event_keeps (φ := State.mem) (fun _ _ => rfl), State.peerState_wf, State.post_wf, ite_wf, foldl_wf, foldlPair_wf, foldlJob_wf, foldlJobPair_wf, foldr_wf, ite_st, ite_fst, ite_self, implies_true, h]; done)
    | (simp +zetaDelta only [State.event_keeps (φ := State.mem) (fun _ _ => rfl), State.peerState_wf, State.post_wf, ite_wf, foldl_wf, foldlPair_wf, foldlJob_wf, foldlJobPair_wf, foldr_wf, ite_st, ite_fst, ite_self, implies_true, h]; done)
    | (simp +zetaDelta only [State.event_keeps (φ := State.mem) (fun _ _ => rfl), State.peerState_wf, State.post_wf, ite_wf, foldl_wf, foldlPair_wf, foldlJob_wf, foldlJobPair_wf, foldr_wf, ite_st, ite_fst, ite_self, implies_true, h]; split <;> simp_all +zetaDelta only [State.event_keeps (φ := State.mem) (fun _ _ => rfl), State.peerState_wf, State.post_wf, ite_wf, foldl_wf, foldlPair_wf, foldlJob_wf, foldlJobPair_wf, foldr_wf, ite_st, ite_fst, ite_self, implies_true, h]; done)
    | (simp_all +zetaDelta [State.event_keeps (φ := State.mem) (fun _ _ => rfl), State.peerState_wf, State.post_wf, ite_wf, foldl_wf, foldlPair_wf, foldlJob_wf, foldlJobPair_wf, foldr_wf, ite_st, ite_fst, ite_self, implies_true, h]; done)
theorem State.fwAskFrom_wf (s : State) (n : Nat) (k : Nat) (h : Memory.wf s.mem = true) : Memory.wf (State.fwAskFrom s n k).mem = true := by
  unfold State.fwAskFrom
  try extract_lets
  (repeat' split) <;> first
    | (simp +zetaDelta only [State.fwAsk_wf, ite_wf, foldl_wf, foldlPair_wf, foldlJob_wf, foldlJobPair_wf, foldr_wf, ite_st, ite_fst, ite_self, implies_true, h]; done)
    | (simp +zetaDelta [State.fwAsk_wf, ite_wf, foldl_wf, foldlPair_wf, foldlJob_wf, foldlJobPair_wf, foldr_wf, ite_st, ite_fst, ite_self, implies_true, h]; done)
theorem State.progLoad_wf (s : State) (img : List Byte) (h : Memory.wf s.mem = true) : Memory.wf (State.progLoad s img).mem = true := by
  unfold State.progLoad
  try dsimp only
  (repeat' split) <;> (try dsimp only) <;> first
    | rfl
    | (simp +contextual only [State.daWrite_wf, State.mbxEnd_keeps (φ := State.mem) (fun _ _ => rfl) (fun _ _ => rfl) (fun _ _ => rfl) (fun _ _ => rfl), State.measure_keeps (φ := State.mem) (fun _ _ => rfl) (fun _ _ => rfl), ite_wf, foldl_wf, foldlPair_wf, foldlJob_wf, foldlJobPair_wf, foldr_wf, ite_st, ite_fst, ite_self, implies_true, h]; done)
    | assumption
    | exact of_fst_wf (by assumption) (by simp only [State.daWrite_wf, State.mbxEnd_keeps (φ := State.mem) (fun _ _ => rfl) (fun _ _ => rfl) (fun _ _ => rfl) (fun _ _ => rfl), State.measure_keeps (φ := State.mem) (fun _ _ => rfl) (fun _ _ => rfl), ite_wf, foldl_wf, foldlPair_wf, foldlJob_wf, foldlJobPair_wf, foldr_wf, ite_st, ite_fst, ite_self, implies_true, h])
    | (have hwf : Memory.wf _ = true := of_fst_wf (by assumption) (by simp only [State.daWrite_wf, State.mbxEnd_keeps (φ := State.mem) (fun _ _ => rfl) (fun _ _ => rfl) (fun _ _ => rfl) (fun _ _ => rfl), State.measure_keeps (φ := State.mem) (fun _ _ => rfl) (fun _ _ => rfl), ite_wf, foldl_wf, foldlPair_wf, foldlJob_wf, foldlJobPair_wf, foldr_wf, ite_st, ite_fst, ite_self, implies_true, h])
       simp only [State.daWrite_wf, State.mbxEnd_keeps (φ := State.mem) (fun _ _ => rfl) (fun _ _ => rfl) (fun _ _ => rfl) (fun _ _ => rfl), State.measure_keeps (φ := State.mem) (fun _ _ => rfl) (fun _ _ => rfl), ite_wf, foldl_wf, foldlPair_wf, foldlJob_wf, foldlJobPair_wf, foldr_wf, ite_st, ite_fst, ite_self, implies_true, h, hwf])
theorem State.mbxAct_wf (s : State) (m : Nat) (code : Nat) (req : List Byte) (h : Memory.wf s.mem = true) : Memory.wf (State.mbxAct s m code req).mem = true := by
  unfold State.mbxAct
  try dsimp only
  (repeat' split) <;> (try dsimp only) <;> first
    | rfl
    | (simp +contextual only [State.fput_keeps (φ := State.mem) (fun _ _ => rfl), State.lcChange_keeps (φ := State.mem) (fun _ _ => rfl) (fun _ _ => rfl) (fun _ _ => rfl) (fun _ _ => rfl) (fun _ _ => rfl) (fun _ _ => rfl) (fun _ _ => rfl) (fun _ _ => rfl) (fun _ _ => rfl) (fun _ _ => rfl), State.mbxEnd_keeps (φ := State.mem) (fun _ _ => rfl) (fun _ _ => rfl) (fun _ _ => rfl) (fun _ _ => rfl), State.progLoad_wf, State.sessionClose_keeps (φ := State.mem) (fun _ _ => rfl) (fun _ _ => rfl) (fun _ _ => rfl) (fun _ _ => rfl) (fun _ _ => rfl), State.sessionOpen_keeps (φ := State.mem) (fun _ _ => rfl) (fun _ _ => rfl) (fun _ _ => rfl) (fun _ _ => rfl) (fun _ _ => rfl) (fun _ _ => rfl), ite_wf, foldl_wf, foldlPair_wf, foldlJob_wf, foldlJobPair_wf, foldr_wf, ite_st, ite_fst, ite_self, implies_true, h]; done)
    | assumption
    | exact of_fst_wf (by assumption) (by simp only [State.fput_keeps (φ := State.mem) (fun _ _ => rfl), State.lcChange_keeps (φ := State.mem) (fun _ _ => rfl) (fun _ _ => rfl) (fun _ _ => rfl) (fun _ _ => rfl) (fun _ _ => rfl) (fun _ _ => rfl) (fun _ _ => rfl) (fun _ _ => rfl) (fun _ _ => rfl) (fun _ _ => rfl), State.mbxEnd_keeps (φ := State.mem) (fun _ _ => rfl) (fun _ _ => rfl) (fun _ _ => rfl) (fun _ _ => rfl), State.progLoad_wf, State.sessionClose_keeps (φ := State.mem) (fun _ _ => rfl) (fun _ _ => rfl) (fun _ _ => rfl) (fun _ _ => rfl) (fun _ _ => rfl), State.sessionOpen_keeps (φ := State.mem) (fun _ _ => rfl) (fun _ _ => rfl) (fun _ _ => rfl) (fun _ _ => rfl) (fun _ _ => rfl) (fun _ _ => rfl), ite_wf, foldl_wf, foldlPair_wf, foldlJob_wf, foldlJobPair_wf, foldr_wf, ite_st, ite_fst, ite_self, implies_true, h])
    | (have hwf : Memory.wf _ = true := of_fst_wf (by assumption) (by simp only [State.fput_keeps (φ := State.mem) (fun _ _ => rfl), State.lcChange_keeps (φ := State.mem) (fun _ _ => rfl) (fun _ _ => rfl) (fun _ _ => rfl) (fun _ _ => rfl) (fun _ _ => rfl) (fun _ _ => rfl) (fun _ _ => rfl) (fun _ _ => rfl) (fun _ _ => rfl) (fun _ _ => rfl), State.mbxEnd_keeps (φ := State.mem) (fun _ _ => rfl) (fun _ _ => rfl) (fun _ _ => rfl) (fun _ _ => rfl), State.progLoad_wf, State.sessionClose_keeps (φ := State.mem) (fun _ _ => rfl) (fun _ _ => rfl) (fun _ _ => rfl) (fun _ _ => rfl) (fun _ _ => rfl), State.sessionOpen_keeps (φ := State.mem) (fun _ _ => rfl) (fun _ _ => rfl) (fun _ _ => rfl) (fun _ _ => rfl) (fun _ _ => rfl) (fun _ _ => rfl), ite_wf, foldl_wf, foldlPair_wf, foldlJob_wf, foldlJobPair_wf, foldr_wf, ite_st, ite_fst, ite_self, implies_true, h])
       simp only [State.fput_keeps (φ := State.mem) (fun _ _ => rfl), State.lcChange_keeps (φ := State.mem) (fun _ _ => rfl) (fun _ _ => rfl) (fun _ _ => rfl) (fun _ _ => rfl) (fun _ _ => rfl) (fun _ _ => rfl) (fun _ _ => rfl) (fun _ _ => rfl) (fun _ _ => rfl) (fun _ _ => rfl), State.mbxEnd_keeps (φ := State.mem) (fun _ _ => rfl) (fun _ _ => rfl) (fun _ _ => rfl) (fun _ _ => rfl), State.progLoad_wf, State.sessionClose_keeps (φ := State.mem) (fun _ _ => rfl) (fun _ _ => rfl) (fun _ _ => rfl) (fun _ _ => rfl) (fun _ _ => rfl), State.sessionOpen_keeps (φ := State.mem) (fun _ _ => rfl) (fun _ _ => rfl) (fun _ _ => rfl) (fun _ _ => rfl) (fun _ _ => rfl) (fun _ _ => rfl), ite_wf, foldl_wf, foldlPair_wf, foldlJob_wf, foldlJobPair_wf, foldr_wf, ite_st, ite_fst, ite_self, implies_true, h, hwf])
theorem State.grantGo_wf (x0 : Nat) (x1 : State) (h : Memory.wf x1.mem = true) : Memory.wf (State.grantGo x0 x1).mem = true := by
  fun_induction State.grantGo x0 x1 <;> first
    | (simp_all +zetaDelta only [State.post_wf, State.setPeer_keeps (φ := State.mem) (fun _ _ => rfl), ite_wf, foldl_wf, foldlPair_wf, foldlJob_wf, foldlJobPair_wf, foldr_wf, ite_st, ite_fst, ite_self, implies_true, h]; done)
    | (simp +zetaDelta only [State.post_wf, State.setPeer_keeps (φ := State.mem) (fun _ _ => rfl), ite_wf, foldl_wf, foldlPair_wf, foldlJob_wf, foldlJobPair_wf, foldr_wf, ite_st, ite_fst, ite_self, implies_true, h]; done)
    | (simp +zetaDelta only [State.post_wf, State.setPeer_keeps (φ := State.mem) (fun _ _ => rfl), ite_wf, foldl_wf, foldlPair_wf, foldlJob_wf, foldlJobPair_wf, foldr_wf, ite_st, ite_fst, ite_self, implies_true, h]; split <;> simp_all +zetaDelta only [State.post_wf, State.setPeer_keeps (φ := State.mem) (fun _ _ => rfl), ite_wf, foldl_wf, foldlPair_wf, foldlJob_wf, foldlJobPair_wf, foldr_wf, ite_st, ite_fst, ite_self, implies_true, h]; done)
    | (simp_all +zetaDelta [State.post_wf, State.setPeer_keeps (φ := State.mem) (fun _ _ => rfl), ite_wf, foldl_wf, foldlPair_wf, foldlJob_wf, foldlJobPair_wf, foldr_wf, ite_st, ite_fst, ite_self, implies_true, h]; done)
theorem State.copyRead_wf (s : State) (c : CopyD) (r : Nat) (h : Memory.wf s.mem = true) : Memory.wf (State.copyRead s c r).1.mem = true := by
  unfold State.copyRead
  try dsimp only
  (repeat' split) <;> (try dsimp only) <;> first
    | rfl
    | (simp +contextual only [State.daRead_wf, State.segsRead_keeps (φ := State.mem) (fun _ _ => rfl) (fun _ _ => rfl) (fun _ _ => rfl) (fun _ _ => rfl), ite_wf, foldl_wf, foldlPair_wf, foldlJob_wf, foldlJobPair_wf, foldr_wf, ite_st, ite_fst, ite_self, implies_true, h]; done)
    | assumption
    | exact of_fst_wf (by assumption) (by simp only [State.daRead_wf, State.segsRead_keeps (φ := State.mem) (fun _ _ => rfl) (fun _ _ => rfl) (fun _ _ => rfl) (fun _ _ => rfl), ite_wf, foldl_wf, foldlPair_wf, foldlJob_wf, foldlJobPair_wf, foldr_wf, ite_st, ite_fst, ite_self, implies_true, h])
    | (have hwf : Memory.wf _ = true := of_fst_wf (by assumption) (by simp only [State.daRead_wf, State.segsRead_keeps (φ := State.mem) (fun _ _ => rfl) (fun _ _ => rfl) (fun _ _ => rfl) (fun _ _ => rfl), ite_wf, foldl_wf, foldlPair_wf, foldlJob_wf, foldlJobPair_wf, foldr_wf, ite_st, ite_fst, ite_self, implies_true, h])
       simp only [State.daRead_wf, State.segsRead_keeps (φ := State.mem) (fun _ _ => rfl) (fun _ _ => rfl) (fun _ _ => rfl) (fun _ _ => rfl), ite_wf, foldl_wf, foldlPair_wf, foldlJob_wf, foldlJobPair_wf, foldr_wf, ite_st, ite_fst, ite_self, implies_true, h, hwf])
theorem State.entryRead_wf (s : State) (ttab : Nat) (k : Nat) (dnum : Nat) (h : Memory.wf s.mem = true) : Memory.wf (State.entryRead s ttab k dnum).1.mem = true := by
  unfold State.entryRead
  try dsimp only
  (repeat' split) <;> (try dsimp only) <;> first
    | rfl
    | (simp +contextual only [State.daRead_wf, ite_wf, foldl_wf, foldlPair_wf, foldlJob_wf, foldlJobPair_wf, foldr_wf, ite_st, ite_fst, ite_self, implies_true, h]; done)
    | assumption
    | exact of_fst_wf (by assumption) (by simp only [State.daRead_wf, ite_wf, foldl_wf, foldlPair_wf, foldlJob_wf, foldlJobPair_wf, foldr_wf, ite_st, ite_fst, ite_self, implies_true, h])
    | (have hwf : Memory.wf _ = true := of_fst_wf (by assumption) (by simp only [State.daRead_wf, ite_wf, foldl_wf, foldlPair_wf, foldlJob_wf, foldlJobPair_wf, foldr_wf, ite_st, ite_fst, ite_self, implies_true, h])
       simp only [State.daRead_wf, ite_wf, foldl_wf, foldlPair_wf, foldlJob_wf, foldlJobPair_wf, foldr_wf, ite_st, ite_fst, ite_self, implies_true, h, hwf])
theorem State.tableCheck_wf (x0 : Nat) (x1 : State) (x2 : Nat) (x3 : Nat) (x4 : List Nat) (x5 : Nat) (x6 : List Nat) (h : Memory.wf x1.mem = true) : Memory.wf (State.tableCheck x0 x1 x2 x3 x4 x5 x6).1.mem = true := by
  fun_induction State.tableCheck x0 x1 x2 x3 x4 x5 x6 <;> first
    | (simp_all +zetaDelta only [State.entryRead_wf, State.free_keeps (φ := State.mem) (fun _ _ => rfl), ite_wf, foldl_wf, foldlPair_wf, foldlJob_wf, foldlJobPair_wf, foldr_wf, ite_st, ite_fst, ite_self, implies_true, h]; done)
    | (simp +zetaDelta only [State.entryRead_wf, State.free_keeps (φ := State.mem) (fun _ _ => rfl), ite_wf, foldl_wf, foldlPair_wf, foldlJob_wf, foldlJobPair_wf, foldr_wf, ite_st, ite_fst, ite_self, implies_true, h]; done)
    | (simp +zetaDelta only [State.entryRead_wf, State.free_keeps (φ := State.mem) (fun _ _ => rfl), ite_wf, foldl_wf, foldlPair_wf, foldlJob_wf, foldlJobPair_wf, foldr_wf, ite_st, ite_fst, ite_self, implies_true, h]; split <;> simp_all +zetaDelta only [State.entryRead_wf, State.free_keeps (φ := State.mem) (fun _ _ => rfl), ite_wf, foldl_wf, foldlPair_wf, foldlJob_wf, foldlJobPair_wf, foldr_wf, ite_st, ite_fst, ite_self, implies_true, h]; done)
    | (simp_all +zetaDelta [State.entryRead_wf, State.free_keeps (φ := State.mem) (fun _ _ => rfl), ite_wf, foldl_wf, foldlPair_wf, foldlJob_wf, foldlJobPair_wf, foldr_wf, ite_st, ite_fst, ite_self, implies_true, h]; done)
theorem State.exhRead_wf (s : State) (e : Nat) (h : Memory.wf s.mem = true) : Memory.wf (State.exhRead s e).1.mem = true := by
  unfold State.exhRead
  try dsimp only
  (repeat' split) <;> (try dsimp only) <;> first
    | rfl
    | (simp +contextual only [State.daRead_wf, State.raise_keeps (φ := State.mem) (fun _ _ => rfl), ite_wf, foldl_wf, foldlPair_wf, foldlJob_wf, foldlJobPair_wf, foldr_wf, ite_st, ite_fst, ite_self, implies_true, h]; done)
    | assumption
    | exact of_fst_wf (by assumption) (by simp only [State.daRead_wf, State.raise_keeps (φ := State.mem) (fun _ _ => rfl), ite_wf, foldl_wf, foldlPair_wf, foldlJob_wf, foldlJobPair_wf, foldr_wf, ite_st, ite_fst, ite_self, implies_true, h])
    | (have hwf : Memory.wf _ = true := of_fst_wf (by assumption) (by simp only [State.daRead_wf, State.raise_keeps (φ := State.mem) (fun _ _ => rfl), ite_wf, foldl_wf, foldlPair_wf, foldlJob_wf, foldlJobPair_wf, foldr_wf, ite_st, ite_fst, ite_self, implies_true, h])
       simp only [State.daRead_wf, State.raise_keeps (φ := State.mem) (fun _ _ => rfl), ite_wf, foldl_wf, foldlPair_wf, foldlJob_wf, foldlJobPair_wf, foldr_wf, ite_st, ite_fst, ite_self, implies_true, h, hwf])
theorem State.copyWrite_wf (s : State) (c : CopyD) (r : Nat) (bs : List Byte) (portA : List Nat) (h : Memory.wf s.mem = true) : Memory.wf (State.copyWrite s c r bs portA).1.mem = true := by
  unfold State.copyWrite
  try dsimp only
  (repeat' split) <;> (try dsimp only) <;> first
    | rfl
    | (simp +contextual only [State.daWrite_wf, State.hostWrite_keeps (φ := State.mem) (fun _ _ => rfl) (fun _ _ => rfl) (fun _ _ => rfl), State.segsWrite_keeps (φ := State.mem) (fun _ _ => rfl) (fun _ _ => rfl) (fun _ _ => rfl) (fun _ _ => rfl) (fun _ _ => rfl) (fun _ _ => rfl) (fun _ _ => rfl), ite_wf, foldl_wf, foldlPair_wf, foldlJob_wf, foldlJobPair_wf, foldr_wf, ite_st, ite_fst, ite_self, implies_true, h]; done)
    | assumption
    | exact of_fst_wf (by assumption) (by simp only [State.daWrite_wf, State.hostWrite_keeps (φ := State.mem) (fun _ _ => rfl) (fun _ _ => rfl) (fun _ _ => rfl), State.segsWrite_keeps (φ := State.mem) (fun _ _ => rfl) (fun _ _ => rfl) (fun _ _ => rfl) (fun _ _ => rfl) (fun _ _ => rfl) (fun _ _ => rfl) (fun _ _ => rfl), ite_wf, foldl_wf, foldlPair_wf, foldlJob_wf, foldlJobPair_wf, foldr_wf, ite_st, ite_fst, ite_self, implies_true, h])
    | (have hwf : Memory.wf _ = true := of_fst_wf (by assumption) (by simp only [State.daWrite_wf, State.hostWrite_keeps (φ := State.mem) (fun _ _ => rfl) (fun _ _ => rfl) (fun _ _ => rfl), State.segsWrite_keeps (φ := State.mem) (fun _ _ => rfl) (fun _ _ => rfl) (fun _ _ => rfl) (fun _ _ => rfl) (fun _ _ => rfl) (fun _ _ => rfl) (fun _ _ => rfl), ite_wf, foldl_wf, foldlPair_wf, foldlJob_wf, foldlJobPair_wf, foldr_wf, ite_st, ite_fst, ite_self, implies_true, h])
       simp only [State.daWrite_wf, State.hostWrite_keeps (φ := State.mem) (fun _ _ => rfl) (fun _ _ => rfl) (fun _ _ => rfl), State.segsWrite_keeps (φ := State.mem) (fun _ _ => rfl) (fun _ _ => rfl) (fun _ _ => rfl) (fun _ _ => rfl) (fun _ _ => rfl) (fun _ _ => rfl) (fun _ _ => rfl), ite_wf, foldl_wf, foldlPair_wf, foldlJob_wf, foldlJobPair_wf, foldr_wf, ite_st, ite_fst, ite_self, implies_true, h, hwf])
theorem State.copyIn_wf (x0 : Nat) (x1 : State) (x2 : CopyD) (x3 : Nat) (x4 : Nat) (x5 : List Byte) (x6 : List Nat) (h : Memory.wf x1.mem = true) : Memory.wf (State.copyIn x0 x1 x2 x3 x4 x5 x6).1.mem = true := by
  fun_induction State.copyIn x0 x1 x2 x3 x4 x5 x6 <;> first
    | (simp_all +zetaDelta only [State.copyWrite_wf, ite_wf, foldl_wf, foldlPair_wf, foldlJob_wf, foldlJobPair_wf, foldr_wf, ite_st, ite_fst, ite_self, implies_true, h]; done)
    | (simp +zetaDelta only [State.copyWrite_wf, ite_wf, foldl_wf, foldlPair_wf, foldlJob_wf, foldlJobPair_wf, foldr_wf, ite_st, ite_fst, ite_self, implies_true, h]; done)
    | (simp +zetaDelta only [State.copyWrite_wf, ite_wf, foldl_wf, foldlPair_wf, foldlJob_wf, foldlJobPair_wf, foldr_wf, ite_st, ite_fst, ite_self, implies_true, h]; split <;> simp_all +zetaDelta only [State.copyWrite_wf, ite_wf, foldl_wf, foldlPair_wf, foldlJob_wf, foldlJobPair_wf, foldr_wf, ite_st, ite_fst, ite_self, implies_true, h]; done)
    | (simp_all +zetaDelta [State.copyWrite_wf, ite_wf, foldl_wf, foldlPair_wf, foldlJob_wf, foldlJobPair_wf, foldr_wf, ite_st, ite_fst, ite_self, implies_true, h]; done)
theorem State.fillQueue_wf (x0 : Nat) (x1 : State) (x2 : Nat) (x3 : Nat) (x4 : Disp) (h : Memory.wf x1.mem = true) : Memory.wf (State.fillQueue x0 x1 x2 x3 x4).mem = true := by
  fun_induction State.fillQueue x0 x1 x2 x3 x4 <;> first
    | (simp_all +zetaDelta only [State.entryRead_wf, State.reportAt_keeps (φ := State.mem) (fun _ _ => rfl), State.setStop_keeps (φ := State.mem) (fun _ _ => rfl), State.stopGroup_keeps (φ := State.mem) (fun _ _ => rfl), ite_wf, foldl_wf, foldlPair_wf, foldlJob_wf, foldlJobPair_wf, foldr_wf, ite_st, ite_fst, ite_self, implies_true, h]; done)
    | (simp +zetaDelta only [State.entryRead_wf, State.reportAt_keeps (φ := State.mem) (fun _ _ => rfl), State.setStop_keeps (φ := State.mem) (fun _ _ => rfl), State.stopGroup_keeps (φ := State.mem) (fun _ _ => rfl), ite_wf, foldl_wf, foldlPair_wf, foldlJob_wf, foldlJobPair_wf, foldr_wf, ite_st, ite_fst, ite_self, implies_true, h]; done)
    | (simp +zetaDelta only [State.entryRead_wf, State.reportAt_keeps (φ := State.mem) (fun _ _ => rfl), State.setStop_keeps (φ := State.mem) (fun _ _ => rfl), State.stopGroup_keeps (φ := State.mem) (fun _ _ => rfl), ite_wf, foldl_wf, foldlPair_wf, foldlJob_wf, foldlJobPair_wf, foldr_wf, ite_st, ite_fst, ite_self, implies_true, h]; split <;> simp_all +zetaDelta only [State.entryRead_wf, State.reportAt_keeps (φ := State.mem) (fun _ _ => rfl), State.setStop_keeps (φ := State.mem) (fun _ _ => rfl), State.stopGroup_keeps (φ := State.mem) (fun _ _ => rfl), ite_wf, foldl_wf, foldlPair_wf, foldlJob_wf, foldlJobPair_wf, foldr_wf, ite_st, ite_fst, ite_self, implies_true, h]; done)
    | (simp_all +zetaDelta [State.entryRead_wf, State.reportAt_keeps (φ := State.mem) (fun _ _ => rfl), State.setStop_keeps (φ := State.mem) (fun _ _ => rfl), State.stopGroup_keeps (φ := State.mem) (fun _ _ => rfl), ite_wf, foldl_wf, foldlPair_wf, foldlJob_wf, foldlJobPair_wf, foldr_wf, ite_st, ite_fst, ite_self, implies_true, h]; done)
theorem State.tileStart_wf (s : State) (t : Nat) (k : Nat) (d : Disp) (prog : Nat) (tvec : Nat) (h : Memory.wf s.mem = true) : Memory.wf (State.tileStart s t k d prog tvec).mem = true := by
  unfold State.tileStart
  try dsimp only
  (repeat' split) <;> (try dsimp only) <;> first
    | rfl
    | (simp +contextual only [State.fillQueue_wf, State.rput_keeps (φ := State.mem) (fun _ _ => rfl), State.setEng_keeps (φ := State.mem) (fun _ _ => rfl), State.setStop_keeps (φ := State.mem) (fun _ _ => rfl), State.useTile_keeps (φ := State.mem) (fun _ _ => rfl), State.wantOn_keeps (φ := State.mem) (fun _ _ => rfl), ite_wf, foldl_wf, foldlPair_wf, foldlJob_wf, foldlJobPair_wf, foldr_wf, ite_st, ite_fst, ite_self, implies_true, h]; done)
    | assumption
    | exact of_fst_wf (by assumption) (by simp only [State.fillQueue_wf, State.rput_keeps (φ := State.mem) (fun _ _ => rfl), State.setEng_keeps (φ := State.mem) (fun _ _ => rfl), State.setStop_keeps (φ := State.mem) (fun _ _ => rfl), State.useTile_keeps (φ := State.mem) (fun _ _ => rfl), State.wantOn_keeps (φ := State.mem) (fun _ _ => rfl), ite_wf, foldl_wf, foldlPair_wf, foldlJob_wf, foldlJobPair_wf, foldr_wf, ite_st, ite_fst, ite_self, implies_true, h])
    | (have hwf : Memory.wf _ = true := of_fst_wf (by assumption) (by simp only [State.fillQueue_wf, State.rput_keeps (φ := State.mem) (fun _ _ => rfl), State.setEng_keeps (φ := State.mem) (fun _ _ => rfl), State.setStop_keeps (φ := State.mem) (fun _ _ => rfl), State.useTile_keeps (φ := State.mem) (fun _ _ => rfl), State.wantOn_keeps (φ := State.mem) (fun _ _ => rfl), ite_wf, foldl_wf, foldlPair_wf, foldlJob_wf, foldlJobPair_wf, foldr_wf, ite_st, ite_fst, ite_self, implies_true, h])
       simp only [State.fillQueue_wf, State.rput_keeps (φ := State.mem) (fun _ _ => rfl), State.setEng_keeps (φ := State.mem) (fun _ _ => rfl), State.setStop_keeps (φ := State.mem) (fun _ _ => rfl), State.useTile_keeps (φ := State.mem) (fun _ _ => rfl), State.wantOn_keeps (φ := State.mem) (fun _ _ => rfl), ite_wf, foldl_wf, foldlPair_wf, foldlJob_wf, foldlJobPair_wf, foldr_wf, ite_st, ite_fst, ite_self, implies_true, h, hwf])
theorem State.copyOpen_wf (s : State) (q : Nat) (d : Descr) (bs : List Byte) (h : Memory.wf s.mem = true) : Memory.wf (State.copyOpen s q d bs).mem = true := by
  unfold State.copyOpen
  try dsimp only
  (repeat' split) <;> (try dsimp only) <;> first
    | rfl
    | (simp +contextual only [State.authFail_keeps (φ := State.mem) (fun _ _ => rfl) (fun _ _ => rfl), State.complete_keeps (φ := State.mem) (fun _ _ => rfl) (fun _ _ => rfl) (fun _ _ => rfl) (fun _ _ => rfl) (fun _ _ => rfl) (fun _ _ => rfl), State.copyEnds_keeps (φ := State.mem) (fun _ _ => rfl) (fun _ _ => rfl) (fun _ _ => rfl) (fun _ _ => rfl) (fun _ _ => rfl) (fun _ _ => rfl), State.daWrite_wf, State.unseal_keeps (φ := State.mem) (fun _ _ => rfl), ite_wf, foldl_wf, foldlPair_wf, foldlJob_wf, foldlJobPair_wf, foldr_wf, ite_st, ite_fst, ite_self, implies_true, h]; done)
    | assumption
    | exact of_fst_wf (by assumption) (by simp only [State.authFail_keeps (φ := State.mem) (fun _ _ => rfl) (fun _ _ => rfl), State.complete_keeps (φ := State.mem) (fun _ _ => rfl) (fun _ _ => rfl) (fun _ _ => rfl) (fun _ _ => rfl) (fun _ _ => rfl) (fun _ _ => rfl), State.copyEnds_keeps (φ := State.mem) (fun _ _ => rfl) (fun _ _ => rfl) (fun _ _ => rfl) (fun _ _ => rfl) (fun _ _ => rfl) (fun _ _ => rfl), State.daWrite_wf, State.unseal_keeps (φ := State.mem) (fun _ _ => rfl), ite_wf, foldl_wf, foldlPair_wf, foldlJob_wf, foldlJobPair_wf, foldr_wf, ite_st, ite_fst, ite_self, implies_true, h])
    | (have hwf : Memory.wf _ = true := of_fst_wf (by assumption) (by simp only [State.authFail_keeps (φ := State.mem) (fun _ _ => rfl) (fun _ _ => rfl), State.complete_keeps (φ := State.mem) (fun _ _ => rfl) (fun _ _ => rfl) (fun _ _ => rfl) (fun _ _ => rfl) (fun _ _ => rfl) (fun _ _ => rfl), State.copyEnds_keeps (φ := State.mem) (fun _ _ => rfl) (fun _ _ => rfl) (fun _ _ => rfl) (fun _ _ => rfl) (fun _ _ => rfl) (fun _ _ => rfl), State.daWrite_wf, State.unseal_keeps (φ := State.mem) (fun _ _ => rfl), ite_wf, foldl_wf, foldlPair_wf, foldlJob_wf, foldlJobPair_wf, foldr_wf, ite_st, ite_fst, ite_self, implies_true, h])
       simp only [State.authFail_keeps (φ := State.mem) (fun _ _ => rfl) (fun _ _ => rfl), State.complete_keeps (φ := State.mem) (fun _ _ => rfl) (fun _ _ => rfl) (fun _ _ => rfl) (fun _ _ => rfl) (fun _ _ => rfl) (fun _ _ => rfl), State.copyEnds_keeps (φ := State.mem) (fun _ _ => rfl) (fun _ _ => rfl) (fun _ _ => rfl) (fun _ _ => rfl) (fun _ _ => rfl) (fun _ _ => rfl), State.daWrite_wf, State.unseal_keeps (φ := State.mem) (fun _ _ => rfl), ite_wf, foldl_wf, foldlPair_wf, foldlJob_wf, foldlJobPair_wf, foldr_wf, ite_st, ite_fst, ite_self, implies_true, h, hwf])
theorem State.rowWrite_wf (s : State) (t : Nat) (ch : Nat) (d : DmaDesc) (r : Nat) (bs : List Byte) (portA : List Nat) (h : Memory.wf s.mem = true) : Memory.wf (State.rowWrite s t ch d r bs portA).1.mem = true := by
  unfold State.rowWrite
  try dsimp only
  (repeat' split) <;> (try dsimp only) <;> first
    | rfl
    | (simp +contextual only [State.daWrite_wf, State.segsWrite_keeps (φ := State.mem) (fun _ _ => rfl) (fun _ _ => rfl) (fun _ _ => rfl) (fun _ _ => rfl) (fun _ _ => rfl) (fun _ _ => rfl) (fun _ _ => rfl), State.setEng_keeps (φ := State.mem) (fun _ _ => rfl), State.stageUpdate_keeps (φ := State.mem) (fun _ _ => rfl), ite_wf, foldl_wf, foldlPair_wf, foldlJob_wf, foldlJobPair_wf, foldr_wf, ite_st, ite_fst, ite_self, implies_true, h]; done)
    | assumption
    | exact of_fst_wf (by assumption) (by simp only [State.daWrite_wf, State.segsWrite_keeps (φ := State.mem) (fun _ _ => rfl) (fun _ _ => rfl) (fun _ _ => rfl) (fun _ _ => rfl) (fun _ _ => rfl) (fun _ _ => rfl) (fun _ _ => rfl), State.setEng_keeps (φ := State.mem) (fun _ _ => rfl), State.stageUpdate_keeps (φ := State.mem) (fun _ _ => rfl), ite_wf, foldl_wf, foldlPair_wf, foldlJob_wf, foldlJobPair_wf, foldr_wf, ite_st, ite_fst, ite_self, implies_true, h])
    | (have hwf : Memory.wf _ = true := of_fst_wf (by assumption) (by simp only [State.daWrite_wf, State.segsWrite_keeps (φ := State.mem) (fun _ _ => rfl) (fun _ _ => rfl) (fun _ _ => rfl) (fun _ _ => rfl) (fun _ _ => rfl) (fun _ _ => rfl) (fun _ _ => rfl), State.setEng_keeps (φ := State.mem) (fun _ _ => rfl), State.stageUpdate_keeps (φ := State.mem) (fun _ _ => rfl), ite_wf, foldl_wf, foldlPair_wf, foldlJob_wf, foldlJobPair_wf, foldr_wf, ite_st, ite_fst, ite_self, implies_true, h])
       simp only [State.daWrite_wf, State.segsWrite_keeps (φ := State.mem) (fun _ _ => rfl) (fun _ _ => rfl) (fun _ _ => rfl) (fun _ _ => rfl) (fun _ _ => rfl) (fun _ _ => rfl) (fun _ _ => rfl), State.setEng_keeps (φ := State.mem) (fun _ _ => rfl), State.stageUpdate_keeps (φ := State.mem) (fun _ _ => rfl), ite_wf, foldl_wf, foldlPair_wf, foldlJob_wf, foldlJobPair_wf, foldr_wf, ite_st, ite_fst, ite_self, implies_true, h, hwf])
theorem State.sendHello_wf (s : State) (i : Nat) (h : Memory.wf s.mem = true) : Memory.wf (State.sendHello s i).mem = true := by
  unfold State.sendHello
  try dsimp only
  (repeat' split) <;> (try dsimp only) <;> first
    | rfl
    | (simp +contextual only [State.free_keeps (φ := State.mem) (fun _ _ => rfl), State.post_wf, State.setPeer_keeps (φ := State.mem) (fun _ _ => rfl), ite_wf, foldl_wf, foldlPair_wf, foldlJob_wf, foldlJobPair_wf, foldr_wf, ite_st, ite_fst, ite_self, implies_true, h]; done)
    | assumption
    | exact of_fst_wf (by assumption) (by simp only [State.free_keeps (φ := State.mem) (fun _ _ => rfl), State.post_wf, State.setPeer_keeps (φ := State.mem) (fun _ _ => rfl), ite_wf, foldl_wf, foldlPair_wf, foldlJob_wf, foldlJobPair_wf, foldr_wf, ite_st, ite_fst, ite_self, implies_true, h])
    | (have hwf : Memory.wf _ = true := of_fst_wf (by assumption) (by simp only [State.free_keeps (φ := State.mem) (fun _ _ => rfl), State.post_wf, State.setPeer_keeps (φ := State.mem) (fun _ _ => rfl), ite_wf, foldl_wf, foldlPair_wf, foldlJob_wf, foldlJobPair_wf, foldr_wf, ite_st, ite_fst, ite_self, implies_true, h])
       simp only [State.free_keeps (φ := State.mem) (fun _ _ => rfl), State.post_wf, State.setPeer_keeps (φ := State.mem) (fun _ _ => rfl), ite_wf, foldl_wf, foldlPair_wf, foldlJob_wf, foldlJobPair_wf, foldr_wf, ite_st, ite_fst, ite_self, implies_true, h, hwf])
theorem State.sendKey_wf (s : State) (i : Nat) (p : Nat) (k : Nat) (h : Memory.wf s.mem = true) : Memory.wf (State.sendKey s i p k).mem = true := by
  unfold State.sendKey
  try dsimp only
  (repeat' split) <;> (try dsimp only) <;> first
    | rfl
    | (simp +contextual only [State.free_keeps (φ := State.mem) (fun _ _ => rfl), State.post_wf, ite_wf, foldl_wf, foldlPair_wf, foldlJob_wf, foldlJobPair_wf, foldr_wf, ite_st, ite_fst, ite_self, implies_true, h]; done)
    | assumption
    | exact of_fst_wf (by assumption) (by simp only [State.free_keeps (φ := State.mem) (fun _ _ => rfl), State.post_wf, ite_wf, foldl_wf, foldlPair_wf, foldlJob_wf, foldlJobPair_wf, foldr_wf, ite_st, ite_fst, ite_self, implies_true, h])
    | (have hwf : Memory.wf _ = true := of_fst_wf (by assumption) (by simp only [State.free_keeps (φ := State.mem) (fun _ _ => rfl), State.post_wf, ite_wf, foldl_wf, foldlPair_wf, foldlJob_wf, foldlJobPair_wf, foldr_wf, ite_st, ite_fst, ite_self, implies_true, h])
       simp only [State.free_keeps (φ := State.mem) (fun _ _ => rfl), State.post_wf, ite_wf, foldl_wf, foldlPair_wf, foldlJob_wf, foldlJobPair_wf, foldr_wf, ite_st, ite_fst, ite_self, implies_true, h, hwf])
theorem State.sendKeys_wf (s : State) (i : Nat) (h : Memory.wf s.mem = true) : Memory.wf (State.sendKeys s i).mem = true := by
  unfold State.sendKeys
  try dsimp only
  (repeat' split) <;> (try dsimp only) <;> first
    | rfl
    | (simp +contextual only [State.sendHello_wf, State.sendKey_wf, ite_wf, foldl_wf, foldlPair_wf, foldlJob_wf, foldlJobPair_wf, foldr_wf, ite_st, ite_fst, ite_self, implies_true, h]; done)
    | assumption
    | exact of_fst_wf (by assumption) (by simp only [State.sendHello_wf, State.sendKey_wf, ite_wf, foldl_wf, foldlPair_wf, foldlJob_wf, foldlJobPair_wf, foldr_wf, ite_st, ite_fst, ite_self, implies_true, h])
    | (have hwf : Memory.wf _ = true := of_fst_wf (by assumption) (by simp only [State.sendHello_wf, State.sendKey_wf, ite_wf, foldl_wf, foldlPair_wf, foldlJob_wf, foldlJobPair_wf, foldr_wf, ite_st, ite_fst, ite_self, implies_true, h])
       simp only [State.sendHello_wf, State.sendKey_wf, ite_wf, foldl_wf, foldlPair_wf, foldlJob_wf, foldlJobPair_wf, foldr_wf, ite_st, ite_fst, ite_self, implies_true, h, hwf])
theorem State.mbxStart_wf (s : State) (m : Nat) (h : Memory.wf s.mem = true) : Memory.wf (State.mbxStart s m).mem = true := by
  unfold State.mbxStart
  try dsimp only
  (repeat' split) <;> (try dsimp only) <;> first
    | rfl
    | (simp +contextual only [State.event_keeps (φ := State.mem) (fun _ _ => rfl), State.mbxAct_wf, State.mbxEnd_keeps (φ := State.mem) (fun _ _ => rfl) (fun _ _ => rfl) (fun _ _ => rfl) (fun _ _ => rfl), ite_wf, foldl_wf, foldlPair_wf, foldlJob_wf, foldlJobPair_wf, foldr_wf, ite_st, ite_fst, ite_self, implies_true, h]; done)
    | assumption
    | exact of_fst_wf (by assumption) (by simp only [State.event_keeps (φ := State.mem) (fun _ _ => rfl), State.mbxAct_wf, State.mbxEnd_keeps (φ := State.mem) (fun _ _ => rfl) (fun _ _ => rfl) (fun _ _ => rfl) (fun _ _ => rfl), ite_wf, foldl_wf, foldlPair_wf, foldlJob_wf, foldlJobPair_wf, foldr_wf, ite_st, ite_fst, ite_self, implies_true, h])
    | (have hwf : Memory.wf _ = true := of_fst_wf (by assumption) (by simp only [State.event_keeps (φ := State.mem) (fun _ _ => rfl), State.mbxAct_wf, State.mbxEnd_keeps (φ := State.mem) (fun _ _ => rfl) (fun _ _ => rfl) (fun _ _ => rfl) (fun _ _ => rfl), ite_wf, foldl_wf, foldlPair_wf, foldlJob_wf, foldlJobPair_wf, foldr_wf, ite_st, ite_fst, ite_self, implies_true, h])
       simp only [State.event_keeps (φ := State.mem) (fun _ _ => rfl), State.mbxAct_wf, State.mbxEnd_keeps (φ := State.mem) (fun _ _ => rfl) (fun _ _ => rfl) (fun _ _ => rfl) (fun _ _ => rfl), ite_wf, foldl_wf, foldlPair_wf, foldlJob_wf, foldlJobPair_wf, foldr_wf, ite_st, ite_fst, ite_self, implies_true, h, hwf])
theorem State.mbxGo_wf (s : State) (m : Nat) (code : Nat) (h : Memory.wf s.mem = true) : Memory.wf (State.mbxGo s m code).mem = true := by
  unfold State.mbxGo
  try dsimp only
  (repeat' split) <;> (try dsimp only) <;> first
    | rfl
    | (simp +contextual only [State.event_keeps (φ := State.mem) (fun _ _ => rfl), State.fput_keeps (φ := State.mem) (fun _ _ => rfl), State.mbxStart_wf, ite_wf, foldl_wf, foldlPair_wf, foldlJob_wf, foldlJobPair_wf, foldr_wf, ite_st, ite_fst, ite_self, implies_true, h]; done)
    | assumption
    | exact of_fst_wf (by assumption) (by simp only [State.event_keeps (φ := State.mem) (fun _ _ => rfl), State.fput_keeps (φ := State.mem) (fun _ _ => rfl), State.mbxStart_wf, ite_wf, foldl_wf, foldlPair_wf, foldlJob_wf, foldlJobPair_wf, foldr_wf, ite_st, ite_fst, ite_self, implies_true, h])
    | (have hwf : Memory.wf _ = true := of_fst_wf (by assumption) (by simp only [State.event_keeps (φ := State.mem) (fun _ _ => rfl), State.fput_keeps (φ := State.mem) (fun _ _ => rfl), State.mbxStart_wf, ite_wf, foldl_wf, foldlPair_wf, foldlJob_wf, foldlJobPair_wf, foldr_wf, ite_st, ite_fst, ite_self, implies_true, h])
       simp only [State.event_keeps (φ := State.mem) (fun _ _ => rfl), State.fput_keeps (φ := State.mem) (fun _ _ => rfl), State.mbxStart_wf, ite_wf, foldl_wf, foldlPair_wf, foldlJob_wf, foldlJobPair_wf, foldr_wf, ite_st, ite_fst, ite_self, implies_true, h, hwf])
theorem State.mbxResume_wf (s : State) (h : Memory.wf s.mem = true) : Memory.wf (State.mbxResume s).mem = true := by
  unfold State.mbxResume
  try dsimp only
  (repeat' split) <;> (try dsimp only) <;> first
    | rfl
    | (simp +contextual only [State.mbxStart_wf, ite_wf, foldl_wf, foldlPair_wf, foldlJob_wf, foldlJobPair_wf, foldr_wf, ite_st, ite_fst, ite_self, implies_true, h]; done)
    | assumption
    | exact of_fst_wf (by assumption) (by simp only [State.mbxStart_wf, ite_wf, foldl_wf, foldlPair_wf, foldlJob_wf, foldlJobPair_wf, foldr_wf, ite_st, ite_fst, ite_self, implies_true, h])
    | (have hwf : Memory.wf _ = true := of_fst_wf (by assumption) (by simp only [State.mbxStart_wf, ite_wf, foldl_wf, foldlPair_wf, foldlJob_wf, foldlJobPair_wf, foldr_wf, ite_st, ite_fst, ite_self, implies_true, h])
       simp only [State.mbxStart_wf, ite_wf, foldl_wf, foldlPair_wf, foldlJob_wf, foldlJobPair_wf, foldr_wf, ite_st, ite_fst, ite_self, implies_true, h, hwf])
theorem State.hostOpened_wf (s : State) (h : Memory.wf s.mem = true) : Memory.wf (State.hostOpened s).mem = true := by
  unfold State.hostOpened
  try dsimp only
  (repeat' split) <;> (try dsimp only) <;> first
    | rfl
    | (simp +contextual only [State.hostFlush_keeps (φ := State.mem) (fun _ _ => rfl) (fun _ _ => rfl) (fun _ _ => rfl), State.mbxResume_wf, ite_wf, foldl_wf, foldlPair_wf, foldlJob_wf, foldlJobPair_wf, foldr_wf, ite_st, ite_fst, ite_self, implies_true, h]; done)
    | assumption
    | exact of_fst_wf (by assumption) (by simp only [State.hostFlush_keeps (φ := State.mem) (fun _ _ => rfl) (fun _ _ => rfl) (fun _ _ => rfl), State.mbxResume_wf, ite_wf, foldl_wf, foldlPair_wf, foldlJob_wf, foldlJobPair_wf, foldr_wf, ite_st, ite_fst, ite_self, implies_true, h])
    | (have hwf : Memory.wf _ = true := of_fst_wf (by assumption) (by simp only [State.hostFlush_keeps (φ := State.mem) (fun _ _ => rfl) (fun _ _ => rfl) (fun _ _ => rfl), State.mbxResume_wf, ite_wf, foldl_wf, foldlPair_wf, foldlJob_wf, foldlJobPair_wf, foldr_wf, ite_st, ite_fst, ite_self, implies_true, h])
       simp only [State.hostFlush_keeps (φ := State.mem) (fun _ _ => rfl) (fun _ _ => rfl) (fun _ _ => rfl), State.mbxResume_wf, ite_wf, foldl_wf, foldlPair_wf, foldlJob_wf, foldlJobPair_wf, foldr_wf, ite_st, ite_fst, ite_self, implies_true, h, hwf])
theorem State.lckSend_wf (s : State) (num : Nat) (b : List Byte) (h : Memory.wf s.mem = true) : Memory.wf (State.lckSend s num b).mem = true := by
  unfold State.lckSend
  try dsimp only
  (repeat' split) <;> (try dsimp only) <;> first
    | rfl
    | (simp +contextual only [State.post_wf, ite_wf, foldl_wf, foldlPair_wf, foldlJob_wf, foldlJobPair_wf, foldr_wf, ite_st, ite_fst, ite_self, implies_true, h]; done)
    | assumption
    | exact of_fst_wf (by assumption) (by simp only [State.post_wf, ite_wf, foldl_wf, foldlPair_wf, foldlJob_wf, foldlJobPair_wf, foldr_wf, ite_st, ite_fst, ite_self, implies_true, h])
    | (have hwf : Memory.wf _ = true := of_fst_wf (by assumption) (by simp only [State.post_wf, ite_wf, foldl_wf, foldlPair_wf, foldlJob_wf, foldlJobPair_wf, foldr_wf, ite_st, ite_fst, ite_self, implies_true, h])
       simp only [State.post_wf, ite_wf, foldl_wf, foldlPair_wf, foldlJob_wf, foldlJobPair_wf, foldr_wf, ite_st, ite_fst, ite_self, implies_true, h, hwf])
theorem State.fwMoveOn_wf (s : State) (i : Nat) (h : Memory.wf s.mem = true) : Memory.wf (State.fwMoveOn s i).mem = true := by
  unfold State.fwMoveOn
  try dsimp only
  (repeat' split) <;> (try dsimp only) <;> first
    | rfl
    | (simp +contextual only [State.fwAskFrom_wf, ite_wf, foldl_wf, foldlPair_wf, foldlJob_wf, foldlJobPair_wf, foldr_wf, ite_st, ite_fst, ite_self, implies_true, h]; done)
    | assumption
    | exact of_fst_wf (by assumption) (by simp only [State.fwAskFrom_wf, ite_wf, foldl_wf, foldlPair_wf, foldlJob_wf, foldlJobPair_wf, foldr_wf, ite_st, ite_fst, ite_self, implies_true, h])
    | (have hwf : Memory.wf _ = true := of_fst_wf (by assumption) (by simp only [State.fwAskFrom_wf, ite_wf, foldl_wf, foldlPair_wf, foldlJob_wf, foldlJobPair_wf, foldr_wf, ite_st, ite_fst, ite_self, implies_true, h])
       simp only [State.fwAskFrom_wf, ite_wf, foldl_wf, foldlPair_wf, foldlJob_wf, foldlJobPair_wf, foldr_wf, ite_st, ite_fst, ite_self, implies_true, h, hwf])
theorem State.eligible_wf (s : State) (named : List Nat) (h : Memory.wf s.mem = true) : Memory.wf (State.eligible s named).1.mem = true := by
  unfold State.eligible
  try dsimp only
  refine foldlPair_wf _ (_, _) _ h (fun s a h => ?_)
  try dsimp only
  (repeat' split) <;> (try dsimp only) <;> first
    | rfl
    | (simp +contextual only [State.entryLost_wf, State.kvRead_wf, ite_wf, foldl_wf, foldlPair_wf, foldlJob_wf, foldlJobPair_wf, foldr_wf, ite_st, ite_fst, ite_self, implies_true, h]; done)
    | assumption
    | exact of_fst_wf (by assumption) (by simp only [State.entryLost_wf, State.kvRead_wf, ite_wf, foldl_wf, foldlPair_wf, foldlJob_wf, foldlJobPair_wf, foldr_wf, ite_st, ite_fst, ite_self, implies_true, h])
    | (have hwf : Memory.wf _ = true := of_fst_wf (by assumption) (by simp only [State.entryLost_wf, State.kvRead_wf, ite_wf, foldl_wf, foldlPair_wf, foldlJob_wf, foldlJobPair_wf, foldr_wf, ite_st, ite_fst, ite_self, implies_true, h])
       simp only [State.entryLost_wf, State.kvRead_wf, ite_wf, foldl_wf, foldlPair_wf, foldlJob_wf, foldlJobPair_wf, foldr_wf, ite_st, ite_fst, ite_self, implies_true, h, hwf])
theorem State.stageAtom_wf (s : State) (t : Nat) (da : Nat) (n : Nat) (h : Memory.wf s.mem = true) : Memory.wf (State.stageAtom s t da n).1.mem = true := by
  unfold State.stageAtom
  try dsimp only
  (repeat' split) <;> (try dsimp only) <;> first
    | rfl
    | (simp +contextual only [State.atomRead_wf, State.fadd_keeps (φ := State.mem) (fun _ _ => rfl), State.note_keeps (φ := State.mem) (fun _ _ => rfl) (fun _ _ => rfl), State.setStop_keeps (φ := State.mem) (fun _ _ => rfl), ite_wf, foldl_wf, foldlPair_wf, foldlJob_wf, foldlJobPair_wf, foldr_wf, ite_st, ite_fst, ite_self, implies_true, h]; done)
    | assumption
    | exact of_fst_wf (by assumption) (by simp only [State.atomRead_wf, State.fadd_keeps (φ := State.mem) (fun _ _ => rfl), State.note_keeps (φ := State.mem) (fun _ _ => rfl) (fun _ _ => rfl), State.setStop_keeps (φ := State.mem) (fun _ _ => rfl), ite_wf, foldl_wf, foldlPair_wf, foldlJob_wf, foldlJobPair_wf, foldr_wf, ite_st, ite_fst, ite_self, implies_true, h])
    | (have hwf : Memory.wf _ = true := of_fst_wf (by assumption) (by simp only [State.atomRead_wf, State.fadd_keeps (φ := State.mem) (fun _ _ => rfl), State.note_keeps (φ := State.mem) (fun _ _ => rfl) (fun _ _ => rfl), State.setStop_keeps (φ := State.mem) (fun _ _ => rfl), ite_wf, foldl_wf, foldlPair_wf, foldlJob_wf, foldlJobPair_wf, foldr_wf, ite_st, ite_fst, ite_self, implies_true, h])
       simp only [State.atomRead_wf, State.fadd_keeps (φ := State.mem) (fun _ _ => rfl), State.note_keeps (φ := State.mem) (fun _ _ => rfl) (fun _ _ => rfl), State.setStop_keeps (φ := State.mem) (fun _ _ => rfl), ite_wf, foldl_wf, foldlPair_wf, foldlJob_wf, foldlJobPair_wf, foldr_wf, ite_st, ite_fst, ite_self, implies_true, h, hwf])
theorem State.dmaReadGo_wf (x0 : Nat) (x1 : State) (x2 : Nat) (x3 : Nat) (x4 : Nat) (h : Memory.wf x1.mem = true) : Memory.wf (State.dmaReadGo x0 x1 x2 x3 x4).1.mem = true := by
  fun_induction State.dmaReadGo x0 x1 x2 x3 x4 <;> first
    | (simp_all +zetaDelta only [State.daRead_wf, State.stageAtom_wf, ite_wf, foldl_wf, foldlPair_wf, foldlJob_wf, foldlJobPair_wf, foldr_wf, ite_st, ite_fst, ite_self, implies_true, h]; done)
    | (simp +zetaDelta only [State.daRead_wf, State.stageAtom_wf, ite_wf, foldl_wf, foldlPair_wf, foldlJob_wf, foldlJobPair_wf, foldr_wf, ite_st, ite_fst, ite_self, implies_true, h]; done)
    | (simp +zetaDelta only [State.daRead_wf, State.stageAtom_wf, ite_wf, foldl_wf, foldlPair_wf, foldlJob_wf, foldlJobPair_wf, foldr_wf, ite_st, ite_fst, ite_self, implies_true, h]; split <;> simp_all +zetaDelta only [State.daRead_wf, State.stageAtom_wf, ite_wf, foldl_wf, foldlPair_wf, foldlJob_wf, foldlJobPair_wf, foldr_wf, ite_st, ite_fst, ite_self, implies_true, h]; done)
    | (simp_all +zetaDelta [State.daRead_wf, State.stageAtom_wf, ite_wf, foldl_wf, foldlPair_wf, foldlJob_wf, foldlJobPair_wf, foldr_wf, ite_st, ite_fst, ite_self, implies_true, h]; done)
theorem State.msgEnd_wf (s : State) (i : Nat) (m : TxMsg) (status : Nat) (old : Nat) (h : Memory.wf s.mem = true) : Memory.wf (State.msgEnd s i m status old).mem = true := by
  unfold State.msgEnd
  try dsimp only
  (repeat' split) <;> (try dsimp only) <;> first
    | rfl
    | (simp +contextual only [State.ownerEnd_wf, State.setPeer_keeps (φ := State.mem) (fun _ _ => rfl), ite_wf, foldl_wf, foldlPair_wf, foldlJob_wf, foldlJobPair_wf, foldr_wf, ite_st, ite_fst, ite_self, implies_true, h]; done)
    | assumption
    | exact of_fst_wf (by assumption) (by simp only [State.ownerEnd_wf, State.setPeer_keeps (φ := State.mem) (fun _ _ => rfl), ite_wf, foldl_wf, foldlPair_wf, foldlJob_wf, foldlJobPair_wf, foldr_wf, ite_st, ite_fst, ite_self, implies_true, h])
    | (have hwf : Memory.wf _ = true := of_fst_wf (by assumption) (by simp only [State.ownerEnd_wf, State.setPeer_keeps (φ := State.mem) (fun _ _ => rfl), ite_wf, foldl_wf, foldlPair_wf, foldlJob_wf, foldlJobPair_wf, foldr_wf, ite_st, ite_fst, ite_self, implies_true, h])
       simp only [State.ownerEnd_wf, State.setPeer_keeps (φ := State.mem) (fun _ _ => rfl), ite_wf, foldl_wf, foldlPair_wf, foldlJob_wf, foldlJobPair_wf, foldr_wf, ite_st, ite_fst, ite_self, implies_true, h, hwf])
theorem State.endAcked_wf (s : State) (i : Nat) (h : Memory.wf s.mem = true) : Memory.wf (State.endAcked s i).mem = true := by
  unfold State.endAcked
  try dsimp only
  (repeat' split) <;> (try dsimp only) <;> first
    | rfl
    | (simp +contextual only [State.msgEnd_wf, ite_wf, foldl_wf, foldlPair_wf, foldlJob_wf, foldlJobPair_wf, foldr_wf, ite_st, ite_fst, ite_self, implies_true, h]; done)
    | assumption
    | exact of_fst_wf (by assumption) (by simp only [State.msgEnd_wf, ite_wf, foldl_wf, foldlPair_wf, foldlJob_wf, foldlJobPair_wf, foldr_wf, ite_st, ite_fst, ite_self, implies_true, h])
    | (have hwf : Memory.wf _ = true := of_fst_wf (by assumption) (by simp only [State.msgEnd_wf, ite_wf, foldl_wf, foldlPair_wf, foldlJob_wf, foldlJobPair_wf, foldr_wf, ite_st, ite_fst, ite_self, implies_true, h])
       simp only [State.msgEnd_wf, ite_wf, foldl_wf, foldlPair_wf, foldlJob_wf, foldlJobPair_wf, foldr_wf, ite_st, ite_fst, ite_self, implies_true, h, hwf])
theorem State.fwStore_wf (s : State) (n : Nat) (igen : Nat) (data : List Byte) (nchunk : Option Nat) (root : Option Nat) (bcast : Bool) (h : Memory.wf s.mem = true) : Memory.wf (State.fwStore s n igen data nchunk root bcast).mem = true := by
  unfold State.fwStore
  try dsimp only
  (repeat' split) <;> (try dsimp only) <;> first
    | rfl
    | (simp +contextual only [State.daWrite_wf, State.event_keeps (φ := State.mem) (fun _ _ => rfl), State.fput_keeps (φ := State.mem) (fun _ _ => rfl), State.fwDiscard_keeps (φ := State.mem) (fun _ _ => rfl) (fun _ _ => rfl), ite_wf, foldl_wf, foldlPair_wf, foldlJob_wf, foldlJobPair_wf, foldr_wf, ite_st, ite_fst, ite_self, implies_true, h]; done)
    | assumption
    | exact of_fst_wf (by assumption) (by simp only [State.daWrite_wf, State.event_keeps (φ := State.mem) (fun _ _ => rfl), State.fput_keeps (φ := State.mem) (fun _ _ => rfl), State.fwDiscard_keeps (φ := State.mem) (fun _ _ => rfl) (fun _ _ => rfl), ite_wf, foldl_wf, foldlPair_wf, foldlJob_wf, foldlJobPair_wf, foldr_wf, ite_st, ite_fst, ite_self, implies_true, h])
    | (have hwf : Memory.wf _ = true := of_fst_wf (by assumption) (by simp only [State.daWrite_wf, State.event_keeps (φ := State.mem) (fun _ _ => rfl), State.fput_keeps (φ := State.mem) (fun _ _ => rfl), State.fwDiscard_keeps (φ := State.mem) (fun _ _ => rfl) (fun _ _ => rfl), ite_wf, foldl_wf, foldlPair_wf, foldlJob_wf, foldlJobPair_wf, foldr_wf, ite_st, ite_fst, ite_self, implies_true, h])
       simp only [State.daWrite_wf, State.event_keeps (φ := State.mem) (fun _ _ => rfl), State.fput_keeps (φ := State.mem) (fun _ _ => rfl), State.fwDiscard_keeps (φ := State.mem) (fun _ _ => rfl) (fun _ _ => rfl), ite_wf, foldl_wf, foldlPair_wf, foldlJob_wf, foldlJobPair_wf, foldr_wf, ite_st, ite_fst, ite_self, implies_true, h, hwf])
theorem State.sendChunk_wf (s : State) (i : Nat) (n : Nat) (data : List Byte) (h : Memory.wf s.mem = true) : Memory.wf (State.sendChunk s i n data).mem = true := by
  unfold State.sendChunk
  try dsimp only
  (repeat' split) <;> (try dsimp only) <;> first
    | rfl
    | (simp +contextual only [State.post_wf, ite_wf, foldl_wf, foldlPair_wf, foldlJob_wf, foldlJobPair_wf, foldr_wf, ite_st, ite_fst, ite_self, implies_true, h]; done)
    | assumption
    | exact of_fst_wf (by assumption) (by simp only [State.post_wf, ite_wf, foldl_wf, foldlPair_wf, foldlJob_wf, foldlJobPair_wf, foldr_wf, ite_st, ite_fst, ite_self, implies_true, h])
    | (have hwf : Memory.wf _ = true := of_fst_wf (by assumption) (by simp only [State.post_wf, ite_wf, foldl_wf, foldlPair_wf, foldlJob_wf, foldlJobPair_wf, foldr_wf, ite_st, ite_fst, ite_self, implies_true, h])
       simp only [State.post_wf, ite_wf, foldl_wf, foldlPair_wf, foldlJob_wf, foldlJobPair_wf, foldr_wf, ite_st, ite_fst, ite_self, implies_true, h, hwf])
theorem State.fwForward_wf (s : State) (n : Nat) (data : List Byte) (h : Memory.wf s.mem = true) : Memory.wf (State.fwForward s n data).mem = true := by
  unfold State.fwForward
  try dsimp only
  (repeat' split) <;> (try dsimp only) <;> first
    | rfl
    | (simp +contextual only [State.sendChunk_wf, ite_wf, foldl_wf, foldlPair_wf, foldlJob_wf, foldlJobPair_wf, foldr_wf, ite_st, ite_fst, ite_self, implies_true, h]; done)
    | assumption
    | exact of_fst_wf (by assumption) (by simp only [State.sendChunk_wf, ite_wf, foldl_wf, foldlPair_wf, foldlJob_wf, foldlJobPair_wf, foldr_wf, ite_st, ite_fst, ite_self, implies_true, h])
    | (have hwf : Memory.wf _ = true := of_fst_wf (by assumption) (by simp only [State.sendChunk_wf, ite_wf, foldl_wf, foldlPair_wf, foldlJob_wf, foldlJobPair_wf, foldr_wf, ite_st, ite_fst, ite_self, implies_true, h])
       simp only [State.sendChunk_wf, ite_wf, foldl_wf, foldlPair_wf, foldlJob_wf, foldlJobPair_wf, foldr_wf, ite_st, ite_fst, ite_self, implies_true, h, hwf])
theorem State.mbxReturn_wf (s : State) (m : Nat) (ok : Bool) (data : List Byte) (h : Memory.wf s.mem = true) : Memory.wf (State.mbxReturn s m ok data).mem = true := by
  unfold State.mbxReturn
  try dsimp only
  (repeat' split) <;> (try dsimp only) <;> first
    | rfl
    | (simp +contextual only [State.mbxAct_wf, State.mbxEnd_keeps (φ := State.mem) (fun _ _ => rfl) (fun _ _ => rfl) (fun _ _ => rfl) (fun _ _ => rfl), ite_wf, foldl_wf, foldlPair_wf, foldlJob_wf, foldlJobPair_wf, foldr_wf, ite_st, ite_fst, ite_self, implies_true, h]; done)
    | assumption
    | exact of_fst_wf (by assumption) (by simp only [State.mbxAct_wf, State.mbxEnd_keeps (φ := State.mem) (fun _ _ => rfl) (fun _ _ => rfl) (fun _ _ => rfl) (fun _ _ => rfl), ite_wf, foldl_wf, foldlPair_wf, foldlJob_wf, foldlJobPair_wf, foldr_wf, ite_st, ite_fst, ite_self, implies_true, h])
    | (have hwf : Memory.wf _ = true := of_fst_wf (by assumption) (by simp only [State.mbxAct_wf, State.mbxEnd_keeps (φ := State.mem) (fun _ _ => rfl) (fun _ _ => rfl) (fun _ _ => rfl) (fun _ _ => rfl), ite_wf, foldl_wf, foldlPair_wf, foldlJob_wf, foldlJobPair_wf, foldr_wf, ite_st, ite_fst, ite_self, implies_true, h])
       simp only [State.mbxAct_wf, State.mbxEnd_keeps (φ := State.mem) (fun _ _ => rfl) (fun _ _ => rfl) (fun _ _ => rfl) (fun _ _ => rfl), ite_wf, foldl_wf, foldlPair_wf, foldlJob_wf, foldlJobPair_wf, foldr_wf, ite_st, ite_fst, ite_self, implies_true, h, hwf])
theorem State.copyAtom_wf (s : State) (t : Nat) (v : Nat) (col : Nat) (h : Memory.wf s.mem = true) : Memory.wf (State.copyAtom s t v col).mem = true := by
  unfold State.copyAtom
  try dsimp only
  (repeat' split) <;> (try dsimp only) <;> first
    | rfl
    | (simp +contextual only [State.atomRead_wf, State.putPoison_wf, State.putWord_wf, ite_wf, foldl_wf, foldlPair_wf, foldlJob_wf, foldlJobPair_wf, foldr_wf, ite_st, ite_fst, ite_self, implies_true, h]; done)
    | assumption
    | exact of_fst_wf (by assumption) (by simp only [State.atomRead_wf, State.putPoison_wf, State.putWord_wf, ite_wf, foldl_wf, foldlPair_wf, foldlJob_wf, foldlJobPair_wf, foldr_wf, ite_st, ite_fst, ite_self, implies_true, h])
    | (have hwf : Memory.wf _ = true := of_fst_wf (by assumption) (by simp only [State.atomRead_wf, State.putPoison_wf, State.putWord_wf, ite_wf, foldl_wf, foldlPair_wf, foldlJob_wf, foldlJobPair_wf, foldr_wf, ite_st, ite_fst, ite_self, implies_true, h])
       simp only [State.atomRead_wf, State.putPoison_wf, State.putWord_wf, ite_wf, foldl_wf, foldlPair_wf, foldlJob_wf, foldlJobPair_wf, foldr_wf, ite_st, ite_fst, ite_self, implies_true, h, hwf])
theorem State.copyReturn_wf (s : State) (qp : Nat) (idx : Nat) (ok : Bool) (data : List Byte) (portA : List Nat) (h : Memory.wf s.mem = true) : Memory.wf (State.copyReturn s qp idx ok data portA).mem = true := by
  unfold State.copyReturn
  try dsimp only
  (repeat' split) <;> (try dsimp only) <;> first
    | rfl
    | (simp +contextual only [State.complete_keeps (φ := State.mem) (fun _ _ => rfl) (fun _ _ => rfl) (fun _ _ => rfl) (fun _ _ => rfl) (fun _ _ => rfl) (fun _ _ => rfl), State.copyEnds_keeps (φ := State.mem) (fun _ _ => rfl) (fun _ _ => rfl) (fun _ _ => rfl) (fun _ _ => rfl) (fun _ _ => rfl) (fun _ _ => rfl), State.copyIn_wf, State.copyOpen_wf, State.event_keeps (φ := State.mem) (fun _ _ => rfl), State.wakeEnds_keeps (φ := State.mem) (fun _ _ => rfl), ite_wf, foldl_wf, foldlPair_wf, foldlJob_wf, foldlJobPair_wf, foldr_wf, ite_st, ite_fst, ite_self, implies_true, h]; done)
    | assumption
    | exact of_fst_wf (by assumption) (by simp only [State.complete_keeps (φ := State.mem) (fun _ _ => rfl) (fun _ _ => rfl) (fun _ _ => rfl) (fun _ _ => rfl) (fun _ _ => rfl) (fun _ _ => rfl), State.copyEnds_keeps (φ := State.mem) (fun _ _ => rfl) (fun _ _ => rfl) (fun _ _ => rfl) (fun _ _ => rfl) (fun _ _ => rfl) (fun _ _ => rfl), State.copyIn_wf, State.copyOpen_wf, State.event_keeps (φ := State.mem) (fun _ _ => rfl), State.wakeEnds_keeps (φ := State.mem) (fun _ _ => rfl), ite_wf, foldl_wf, foldlPair_wf, foldlJob_wf, foldlJobPair_wf, foldr_wf, ite_st, ite_fst, ite_self, implies_true, h])
    | (have hwf : Memory.wf _ = true := of_fst_wf (by assumption) (by simp only [State.complete_keeps (φ := State.mem) (fun _ _ => rfl) (fun _ _ => rfl) (fun _ _ => rfl) (fun _ _ => rfl) (fun _ _ => rfl) (fun _ _ => rfl), State.copyEnds_keeps (φ := State.mem) (fun _ _ => rfl) (fun _ _ => rfl) (fun _ _ => rfl) (fun _ _ => rfl) (fun _ _ => rfl) (fun _ _ => rfl), State.copyIn_wf, State.copyOpen_wf, State.event_keeps (φ := State.mem) (fun _ _ => rfl), State.wakeEnds_keeps (φ := State.mem) (fun _ _ => rfl), ite_wf, foldl_wf, foldlPair_wf, foldlJob_wf, foldlJobPair_wf, foldr_wf, ite_st, ite_fst, ite_self, implies_true, h])
       simp only [State.complete_keeps (φ := State.mem) (fun _ _ => rfl) (fun _ _ => rfl) (fun _ _ => rfl) (fun _ _ => rfl) (fun _ _ => rfl) (fun _ _ => rfl), State.copyEnds_keeps (φ := State.mem) (fun _ _ => rfl) (fun _ _ => rfl) (fun _ _ => rfl) (fun _ _ => rfl) (fun _ _ => rfl) (fun _ _ => rfl), State.copyIn_wf, State.copyOpen_wf, State.event_keeps (φ := State.mem) (fun _ _ => rfl), State.wakeEnds_keeps (φ := State.mem) (fun _ _ => rfl), ite_wf, foldl_wf, foldlPair_wf, foldlJob_wf, foldlJobPair_wf, foldr_wf, ite_st, ite_fst, ite_self, implies_true, h, hwf])
theorem State.bootReturn_wf (s : State) (ok : Bool) (data : List Byte) (h : Memory.wf s.mem = true) : Memory.wf (State.bootReturn s ok data).mem = true := by
  unfold State.bootReturn
  try dsimp only
  (repeat' split) <;> (try dsimp only) <;> first
    | rfl
    | (simp +contextual only [State.bootReject_keeps (φ := State.mem) (fun _ _ => rfl) (fun _ _ => rfl) (fun _ _ => rfl), State.fput_keeps (φ := State.mem) (fun _ _ => rfl), State.mbxResume_wf, State.measure_keeps (φ := State.mem) (fun _ _ => rfl) (fun _ _ => rfl), State.rput_keeps (φ := State.mem) (fun _ _ => rfl), ite_wf, foldl_wf, foldlPair_wf, foldlJob_wf, foldlJobPair_wf, foldr_wf, ite_st, ite_fst, ite_self, implies_true, h]; done)
    | assumption
    | exact of_fst_wf (by assumption) (by simp only [State.bootReject_keeps (φ := State.mem) (fun _ _ => rfl) (fun _ _ => rfl) (fun _ _ => rfl), State.fput_keeps (φ := State.mem) (fun _ _ => rfl), State.mbxResume_wf, State.measure_keeps (φ := State.mem) (fun _ _ => rfl) (fun _ _ => rfl), State.rput_keeps (φ := State.mem) (fun _ _ => rfl), ite_wf, foldl_wf, foldlPair_wf, foldlJob_wf, foldlJobPair_wf, foldr_wf, ite_st, ite_fst, ite_self, implies_true, h])
    | (have hwf : Memory.wf _ = true := of_fst_wf (by assumption) (by simp only [State.bootReject_keeps (φ := State.mem) (fun _ _ => rfl) (fun _ _ => rfl) (fun _ _ => rfl), State.fput_keeps (φ := State.mem) (fun _ _ => rfl), State.mbxResume_wf, State.measure_keeps (φ := State.mem) (fun _ _ => rfl) (fun _ _ => rfl), State.rput_keeps (φ := State.mem) (fun _ _ => rfl), ite_wf, foldl_wf, foldlPair_wf, foldlJob_wf, foldlJobPair_wf, foldr_wf, ite_st, ite_fst, ite_self, implies_true, h])
       simp only [State.bootReject_keeps (φ := State.mem) (fun _ _ => rfl) (fun _ _ => rfl) (fun _ _ => rfl), State.fput_keeps (φ := State.mem) (fun _ _ => rfl), State.mbxResume_wf, State.measure_keeps (φ := State.mem) (fun _ _ => rfl) (fun _ _ => rfl), State.rput_keeps (φ := State.mem) (fun _ _ => rfl), ite_wf, foldl_wf, foldlPair_wf, foldlJob_wf, foldlJobPair_wf, foldr_wf, ite_st, ite_fst, ite_self, implies_true, h, hwf])
theorem State.lckCompare_wf (s : State) (a : Summ) (b : Summ) (h : Memory.wf s.mem = true) : Memory.wf (State.lckCompare s a b).mem = true := by
  unfold State.lckCompare
  try dsimp only
  (repeat' split) <;> (try dsimp only) <;> first
    | rfl
    | (simp +contextual only [State.diverge_keeps (φ := State.mem) (fun _ _ => rfl) (fun _ _ => rfl), State.lckDrop_keeps (φ := State.mem) (fun _ _ => rfl), State.lckLocate_keeps (φ := State.mem) (fun _ _ => rfl) (fun _ _ => rfl) (fun _ _ => rfl), State.lckSend_wf, ite_wf, foldl_wf, foldlPair_wf, foldlJob_wf, foldlJobPair_wf, foldr_wf, ite_st, ite_fst, ite_self, implies_true, h]; done)
    | assumption
    | exact of_fst_wf (by assumption) (by simp only [State.diverge_keeps (φ := State.mem) (fun _ _ => rfl) (fun _ _ => rfl), State.lckDrop_keeps (φ := State.mem) (fun _ _ => rfl), State.lckLocate_keeps (φ := State.mem) (fun _ _ => rfl) (fun _ _ => rfl) (fun _ _ => rfl), State.lckSend_wf, ite_wf, foldl_wf, foldlPair_wf, foldlJob_wf, foldlJobPair_wf, foldr_wf, ite_st, ite_fst, ite_self, implies_true, h])
    | (have hwf : Memory.wf _ = true := of_fst_wf (by assumption) (by simp only [State.diverge_keeps (φ := State.mem) (fun _ _ => rfl) (fun _ _ => rfl), State.lckDrop_keeps (φ := State.mem) (fun _ _ => rfl), State.lckLocate_keeps (φ := State.mem) (fun _ _ => rfl) (fun _ _ => rfl) (fun _ _ => rfl), State.lckSend_wf, ite_wf, foldl_wf, foldlPair_wf, foldlJob_wf, foldlJobPair_wf, foldr_wf, ite_st, ite_fst, ite_self, implies_true, h])
       simp only [State.diverge_keeps (φ := State.mem) (fun _ _ => rfl) (fun _ _ => rfl), State.lckDrop_keeps (φ := State.mem) (fun _ _ => rfl), State.lckLocate_keeps (φ := State.mem) (fun _ _ => rfl) (fun _ _ => rfl) (fun _ _ => rfl), State.lckSend_wf, ite_wf, foldl_wf, foldlPair_wf, foldlJob_wf, foldlJobPair_wf, foldr_wf, ite_st, ite_fst, ite_self, implies_true, h, hwf])
theorem State.powerLost_wf (s : State) (h : Memory.wf s.mem = true) : Memory.wf (State.powerLost s).mem = true := by
  unfold State.powerLost
  try dsimp only
  (repeat' split) <;> (try dsimp only) <;> first
    | rfl
    | (simp +contextual only [State.fput_keeps (φ := State.mem) (fun _ _ => rfl), State.regsReset_keeps (φ := State.mem) (fun _ _ => rfl) (fun _ _ => rfl) (fun _ _ => rfl), ite_wf, foldl_wf, foldlPair_wf, foldlJob_wf, foldlJobPair_wf, foldr_wf, ite_st, ite_fst, ite_self, implies_true, h]; done)
    | assumption
    | exact of_fst_wf (by assumption) (by simp only [State.fput_keeps (φ := State.mem) (fun _ _ => rfl), State.regsReset_keeps (φ := State.mem) (fun _ _ => rfl) (fun _ _ => rfl) (fun _ _ => rfl), ite_wf, foldl_wf, foldlPair_wf, foldlJob_wf, foldlJobPair_wf, foldr_wf, ite_st, ite_fst, ite_self, implies_true, h])
    | (have hwf : Memory.wf _ = true := of_fst_wf (by assumption) (by simp only [State.fput_keeps (φ := State.mem) (fun _ _ => rfl), State.regsReset_keeps (φ := State.mem) (fun _ _ => rfl) (fun _ _ => rfl) (fun _ _ => rfl), ite_wf, foldl_wf, foldlPair_wf, foldlJob_wf, foldlJobPair_wf, foldr_wf, ite_st, ite_fst, ite_self, implies_true, h])
       simp only [State.fput_keeps (φ := State.mem) (fun _ _ => rfl), State.regsReset_keeps (φ := State.mem) (fun _ _ => rfl) (fun _ _ => rfl) (fun _ _ => rfl), ite_wf, foldl_wf, foldlPair_wf, foldlJob_wf, foldlJobPair_wf, foldr_wf, ite_st, ite_fst, ite_self, implies_true, h, hwf])
theorem State.lckPart_wf (s : State) (da : Nat) (n : Nat) (h : Memory.wf s.mem = true) : Memory.wf (State.lckPart s da n).1.mem = true := by
  unfold State.lckPart
  try dsimp only
  (repeat' split) <;> (try dsimp only) <;> first
    | rfl
    | (simp +contextual only [State.fabRead_wf, State.free_keeps (φ := State.mem) (fun _ _ => rfl), ite_wf, foldl_wf, foldlPair_wf, foldlJob_wf, foldlJobPair_wf, foldr_wf, ite_st, ite_fst, ite_self, implies_true, h]; done)
    | assumption
    | exact of_fst_wf (by assumption) (by simp only [State.fabRead_wf, State.free_keeps (φ := State.mem) (fun _ _ => rfl), ite_wf, foldl_wf, foldlPair_wf, foldlJob_wf, foldlJobPair_wf, foldr_wf, ite_st, ite_fst, ite_self, implies_true, h])
    | (have hwf : Memory.wf _ = true := of_fst_wf (by assumption) (by simp only [State.fabRead_wf, State.free_keeps (φ := State.mem) (fun _ _ => rfl), ite_wf, foldl_wf, foldlPair_wf, foldlJob_wf, foldlJobPair_wf, foldr_wf, ite_st, ite_fst, ite_self, implies_true, h])
       simp only [State.fabRead_wf, State.free_keeps (φ := State.mem) (fun _ _ => rfl), ite_wf, foldl_wf, foldlPair_wf, foldlJob_wf, foldlJobPair_wf, foldr_wf, ite_st, ite_fst, ite_self, implies_true, h, hwf])
theorem State.lckParts_wf (s : State) (l : List (Nat × Nat)) (h : Memory.wf s.mem = true) : Memory.wf (State.lckParts s l).1.mem = true := by
  unfold State.lckParts
  try dsimp only
  (repeat' split) <;> (try dsimp only) <;> first
    | rfl
    | (simp +contextual only [State.lckPart_wf, ite_wf, foldl_wf, foldlPair_wf, foldlJob_wf, foldlJobPair_wf, foldr_wf, ite_st, ite_fst, ite_self, implies_true, h]; done)
    | assumption
    | exact of_fst_wf (by assumption) (by simp only [State.lckPart_wf, ite_wf, foldl_wf, foldlPair_wf, foldlJob_wf, foldlJobPair_wf, foldr_wf, ite_st, ite_fst, ite_self, implies_true, h])
    | (have hwf : Memory.wf _ = true := of_fst_wf (by assumption) (by simp only [State.lckPart_wf, ite_wf, foldl_wf, foldlPair_wf, foldlJob_wf, foldlJobPair_wf, foldr_wf, ite_st, ite_fst, ite_self, implies_true, h])
       simp only [State.lckPart_wf, ite_wf, foldl_wf, foldlPair_wf, foldlJob_wf, foldlJobPair_wf, foldr_wf, ite_st, ite_fst, ite_self, implies_true, h, hwf])
theorem State.lckEntry_wf (s : State) (key : Nat) (k : Nat) (h : Memory.wf s.mem = true) : Memory.wf (State.lckEntry s key k).1.mem = true := by
  unfold State.lckEntry
  try dsimp only
  (repeat' split) <;> (try dsimp only) <;> first
    | rfl
    | (simp +contextual only [State.daWrite_wf, State.lckParts_wf, ite_wf, foldl_wf, foldlPair_wf, foldlJob_wf, foldlJobPair_wf, foldr_wf, ite_st, ite_fst, ite_self, implies_true, h]; done)
    | assumption
    | exact of_fst_wf (by assumption) (by simp only [State.daWrite_wf, State.lckParts_wf, ite_wf, foldl_wf, foldlPair_wf, foldlJob_wf, foldlJobPair_wf, foldr_wf, ite_st, ite_fst, ite_self, implies_true, h])
    | (have hwf : Memory.wf _ = true := of_fst_wf (by assumption) (by simp only [State.daWrite_wf, State.lckParts_wf, ite_wf, foldl_wf, foldlPair_wf, foldlJob_wf, foldlJobPair_wf, foldr_wf, ite_st, ite_fst, ite_self, implies_true, h])
       simp only [State.daWrite_wf, State.lckParts_wf, ite_wf, foldl_wf, foldlPair_wf, foldlJob_wf, foldlJobPair_wf, foldr_wf, ite_st, ite_fst, ite_self, implies_true, h, hwf])
theorem Job.closeWord_wf (j : Job) (da : Nat) (n : Nat) (h : Memory.wf j.st.mem = true) : Memory.wf (Job.closeWord j da n).1.st.mem = true := by
  unfold Job.closeWord
  try dsimp only
  (repeat' split) <;> (try dsimp only) <;> first
    | rfl
    | (simp +contextual only [State.kvRead_wf, ite_wf, foldl_wf, foldlPair_wf, foldlJob_wf, foldlJobPair_wf, foldr_wf, ite_st, ite_fst, ite_self, implies_true, h]; done)
    | assumption
    | exact of_fst_wf (by assumption) (by simp only [State.kvRead_wf, ite_wf, foldl_wf, foldlPair_wf, foldlJob_wf, foldlJobPair_wf, foldr_wf, ite_st, ite_fst, ite_self, implies_true, h])
    | (have hwf : Memory.wf _ = true := of_fst_wf (by assumption) (by simp only [State.kvRead_wf, ite_wf, foldl_wf, foldlPair_wf, foldlJob_wf, foldlJobPair_wf, foldr_wf, ite_st, ite_fst, ite_self, implies_true, h])
       simp only [State.kvRead_wf, ite_wf, foldl_wf, foldlPair_wf, foldlJob_wf, foldlJobPair_wf, foldr_wf, ite_st, ite_fst, ite_self, implies_true, h, hwf])
theorem State.withRx_wf (s : State) (i : Nat) (msn : Nat) (ops : Nat → Nat → Bool) (k : State → RxMsg → State) (hkk : ∀ s0 s1, Memory.wf s0.mem = true → Memory.wf (k s0 s1).mem = true) (h : Memory.wf s.mem = true) : Memory.wf (State.withRx s i msn ops k).mem = true := by
  unfold State.withRx
  try dsimp only
  (repeat' split) <;> (try dsimp only) <;> first
    | rfl
    | (simp +contextual only [State.endAcked_wf, State.setPeer_keeps (φ := State.mem) (fun _ _ => rfl), hkk, ite_wf, foldl_wf, foldlPair_wf, foldlJob_wf, foldlJobPair_wf, foldr_wf, ite_st, ite_fst, ite_self, implies_true, h]; done)
    | assumption
    | exact of_fst_wf (by assumption) (by simp only [State.endAcked_wf, State.setPeer_keeps (φ := State.mem) (fun _ _ => rfl), hkk, ite_wf, foldl_wf, foldlPair_wf, foldlJob_wf, foldlJobPair_wf, foldr_wf, ite_st, ite_fst, ite_self, implies_true, h])
    | (have hwf : Memory.wf _ = true := of_fst_wf (by assumption) (by simp only [State.endAcked_wf, State.setPeer_keeps (φ := State.mem) (fun _ _ => rfl), hkk, ite_wf, foldl_wf, foldlPair_wf, foldlJob_wf, foldlJobPair_wf, foldr_wf, ite_st, ite_fst, ite_self, implies_true, h])
       simp only [State.endAcked_wf, State.setPeer_keeps (φ := State.mem) (fun _ _ => rfl), hkk, ite_wf, foldl_wf, foldlPair_wf, foldlJob_wf, foldlJobPair_wf, foldr_wf, ite_st, ite_fst, ite_self, implies_true, h, hwf])
theorem State.swapEntry_wf (s : State) (q : Nat) (d : Descr) (h : Memory.wf s.mem = true) : Memory.wf (State.swapEntry s q d).1.mem = true := by
  unfold State.swapEntry
  try dsimp only
  (repeat' split) <;> (try dsimp only) <;> first
    | rfl
    | (simp +contextual only [State.entryLost_wf, State.kvRead_wf, ite_wf, foldl_wf, foldlPair_wf, foldlJob_wf, foldlJobPair_wf, foldr_wf, ite_st, ite_fst, ite_self, implies_true, h]; done)
    | assumption
    | exact of_fst_wf (by assumption) (by simp only [State.entryLost_wf, State.kvRead_wf, ite_wf, foldl_wf, foldlPair_wf, foldlJob_wf, foldlJobPair_wf, foldr_wf, ite_st, ite_fst, ite_self, implies_true, h])
    | (have hwf : Memory.wf _ = true := of_fst_wf (by assumption) (by simp only [State.entryLost_wf, State.kvRead_wf, ite_wf, foldl_wf, foldlPair_wf, foldlJob_wf, foldlJobPair_wf, foldr_wf, ite_st, ite_fst, ite_self, implies_true, h])
       simp only [State.entryLost_wf, State.kvRead_wf, ite_wf, foldl_wf, foldlPair_wf, foldlJob_wf, foldlJobPair_wf, foldr_wf, ite_st, ite_fst, ite_self, implies_true, h, hwf])
theorem State.calTook_wf (s : State) (code : Nat) (h : Memory.wf s.mem = true) : Memory.wf (State.calTook s code).mem = true := by
  unfold State.calTook
  try dsimp only
  (repeat' split) <;> (try dsimp only) <;> first
    | rfl
    | (simp +contextual only [State.fwDone_wf, State.measure_keeps (φ := State.mem) (fun _ _ => rfl) (fun _ _ => rfl), ite_wf, foldl_wf, foldlPair_wf, foldlJob_wf, foldlJobPair_wf, foldr_wf, ite_st, ite_fst, ite_self, implies_true, h]; done)
    | assumption
    | exact of_fst_wf (by assumption) (by simp only [State.fwDone_wf, State.measure_keeps (φ := State.mem) (fun _ _ => rfl) (fun _ _ => rfl), ite_wf, foldl_wf, foldlPair_wf, foldlJob_wf, foldlJobPair_wf, foldr_wf, ite_st, ite_fst, ite_self, implies_true, h])
    | (have hwf : Memory.wf _ = true := of_fst_wf (by assumption) (by simp only [State.fwDone_wf, State.measure_keeps (φ := State.mem) (fun _ _ => rfl) (fun _ _ => rfl), ite_wf, foldl_wf, foldlPair_wf, foldlJob_wf, foldlJobPair_wf, foldr_wf, ite_st, ite_fst, ite_self, implies_true, h])
       simp only [State.fwDone_wf, State.measure_keeps (φ := State.mem) (fun _ _ => rfl) (fun _ _ => rfl), ite_wf, foldl_wf, foldlPair_wf, foldlJob_wf, foldlJobPair_wf, foldr_wf, ite_st, ite_fst, ite_self, implies_true, h, hwf])
theorem State.grantPump_wf (s : State) (h : Memory.wf s.mem = true) : Memory.wf (State.grantPump s).mem = true := by
  unfold State.grantPump
  try dsimp only
  (repeat' split) <;> (try dsimp only) <;> first
    | rfl
    | (simp +contextual only [State.grantGo_wf, ite_wf, foldl_wf, foldlPair_wf, foldlJob_wf, foldlJobPair_wf, foldr_wf, ite_st, ite_fst, ite_self, implies_true, h]; done)
    | assumption
    | exact of_fst_wf (by assumption) (by simp only [State.grantGo_wf, ite_wf, foldl_wf, foldlPair_wf, foldlJob_wf, foldlJobPair_wf, foldr_wf, ite_st, ite_fst, ite_self, implies_true, h])
    | (have hwf : Memory.wf _ = true := of_fst_wf (by assumption) (by simp only [State.grantGo_wf, ite_wf, foldl_wf, foldlPair_wf, foldlJob_wf, foldlJobPair_wf, foldr_wf, ite_st, ite_fst, ite_self, implies_true, h])
       simp only [State.grantGo_wf, ite_wf, foldl_wf, foldlPair_wf, foldlJob_wf, foldlJobPair_wf, foldr_wf, ite_st, ite_fst, ite_self, implies_true, h, hwf])
theorem State.slotBack_wf (s : State) (i : Nat) (standing : Bool) (h : Memory.wf s.mem = true) : Memory.wf (State.slotBack s i standing).mem = true := by
  unfold State.slotBack
  try dsimp only
  (repeat' split) <;> (try dsimp only) <;> first
    | rfl
    | (simp +contextual only [State.grantPump_wf, State.post_wf, State.setPeer_keeps (φ := State.mem) (fun _ _ => rfl), ite_wf, foldl_wf, foldlPair_wf, foldlJob_wf, foldlJobPair_wf, foldr_wf, ite_st, ite_fst, ite_self, implies_true, h]; done)
    | assumption
    | exact of_fst_wf (by assumption) (by simp only [State.grantPump_wf, State.post_wf, State.setPeer_keeps (φ := State.mem) (fun _ _ => rfl), ite_wf, foldl_wf, foldlPair_wf, foldlJob_wf, foldlJobPair_wf, foldr_wf, ite_st, ite_fst, ite_self, implies_true, h])
    | (have hwf : Memory.wf _ = true := of_fst_wf (by assumption) (by simp only [State.grantPump_wf, State.post_wf, State.setPeer_keeps (φ := State.mem) (fun _ _ => rfl), ite_wf, foldl_wf, foldlPair_wf, foldlJob_wf, foldlJobPair_wf, foldr_wf, ite_st, ite_fst, ite_self, implies_true, h])
       simp only [State.grantPump_wf, State.post_wf, State.setPeer_keeps (φ := State.mem) (fun _ _ => rfl), ite_wf, foldl_wf, foldlPair_wf, foldlJob_wf, foldlJobPair_wf, foldr_wf, ite_st, ite_fst, ite_self, implies_true, h, hwf])
theorem State.copySeal_wf (s : State) (q : Nat) (d : Descr) (h : Memory.wf s.mem = true) : Memory.wf (State.copySeal s q d).mem = true := by
  unfold State.copySeal
  try dsimp only
  (repeat' split) <;> (try dsimp only) <;> first
    | rfl
    | (simp +contextual only [State.copyEnds_keeps (φ := State.mem) (fun _ _ => rfl) (fun _ _ => rfl) (fun _ _ => rfl) (fun _ _ => rfl) (fun _ _ => rfl) (fun _ _ => rfl), State.daRead_wf, State.descrWrite_keeps (φ := State.mem) (fun _ _ => rfl) (fun _ _ => rfl) (fun _ _ => rfl), State.sealOut_keeps (φ := State.mem) (fun _ _ => rfl), ite_wf, foldl_wf, foldlPair_wf, foldlJob_wf, foldlJobPair_wf, foldr_wf, ite_st, ite_fst, ite_self, implies_true, h]; done)
    | assumption
    | exact of_fst_wf (by assumption) (by simp only [State.copyEnds_keeps (φ := State.mem) (fun _ _ => rfl) (fun _ _ => rfl) (fun _ _ => rfl) (fun _ _ => rfl) (fun _ _ => rfl) (fun _ _ => rfl), State.daRead_wf, State.descrWrite_keeps (φ := State.mem) (fun _ _ => rfl) (fun _ _ => rfl) (fun _ _ => rfl), State.sealOut_keeps (φ := State.mem) (fun _ _ => rfl), ite_wf, foldl_wf, foldlPair_wf, foldlJob_wf, foldlJobPair_wf, foldr_wf, ite_st, ite_fst, ite_self, implies_true, h])
    | (have hwf : Memory.wf _ = true := of_fst_wf (by assumption) (by simp only [State.copyEnds_keeps (φ := State.mem) (fun _ _ => rfl) (fun _ _ => rfl) (fun _ _ => rfl) (fun _ _ => rfl) (fun _ _ => rfl) (fun _ _ => rfl), State.daRead_wf, State.descrWrite_keeps (φ := State.mem) (fun _ _ => rfl) (fun _ _ => rfl) (fun _ _ => rfl), State.sealOut_keeps (φ := State.mem) (fun _ _ => rfl), ite_wf, foldl_wf, foldlPair_wf, foldlJob_wf, foldlJobPair_wf, foldr_wf, ite_st, ite_fst, ite_self, implies_true, h])
       simp only [State.copyEnds_keeps (φ := State.mem) (fun _ _ => rfl) (fun _ _ => rfl) (fun _ _ => rfl) (fun _ _ => rfl) (fun _ _ => rfl) (fun _ _ => rfl), State.daRead_wf, State.descrWrite_keeps (φ := State.mem) (fun _ _ => rfl) (fun _ _ => rfl) (fun _ _ => rfl), State.sealOut_keeps (φ := State.mem) (fun _ _ => rfl), ite_wf, foldl_wf, foldlPair_wf, foldlJob_wf, foldlJobPair_wf, foldr_wf, ite_st, ite_fst, ite_self, implies_true, h, hwf])
theorem State.vectorsWrite_wf (x0 : Nat) (x1 : State) (x2 : Nat) (x3 : Nat) (x4 : List Byte) (h : Memory.wf x1.mem = true) : Memory.wf (State.vectorsWrite x0 x1 x2 x3 x4).mem = true := by
  fun_induction State.vectorsWrite x0 x1 x2 x3 x4 <;> first
    | (simp_all +zetaDelta only [State.daWrite_wf, ite_wf, foldl_wf, foldlPair_wf, foldlJob_wf, foldlJobPair_wf, foldr_wf, ite_st, ite_fst, ite_self, implies_true, h]; done)
    | (simp +zetaDelta only [State.daWrite_wf, ite_wf, foldl_wf, foldlPair_wf, foldlJob_wf, foldlJobPair_wf, foldr_wf, ite_st, ite_fst, ite_self, implies_true, h]; done)
    | (simp +zetaDelta only [State.daWrite_wf, ite_wf, foldl_wf, foldlPair_wf, foldlJob_wf, foldlJobPair_wf, foldr_wf, ite_st, ite_fst, ite_self, implies_true, h]; split <;> simp_all +zetaDelta only [State.daWrite_wf, ite_wf, foldl_wf, foldlPair_wf, foldlJob_wf, foldlJobPair_wf, foldr_wf, ite_st, ite_fst, ite_self, implies_true, h]; done)
    | (simp_all +zetaDelta [State.daWrite_wf, ite_wf, foldl_wf, foldlPair_wf, foldlJob_wf, foldlJobPair_wf, foldr_wf, ite_st, ite_fst, ite_self, implies_true, h]; done)
theorem State.replyStatus_wf (s : State) (i : Nat) (m : RxMsg) (status : Nat) (h : Memory.wf s.mem = true) : Memory.wf (State.replyStatus s i m status).mem = true := by
  unfold State.replyStatus
  try dsimp only
  (repeat' split) <;> (try dsimp only) <;> first
    | rfl
    | (simp +contextual only [State.holdFor_keeps (φ := State.mem) (fun _ _ => rfl), State.post_wf, ite_wf, foldl_wf, foldlPair_wf, foldlJob_wf, foldlJobPair_wf, foldr_wf, ite_st, ite_fst, ite_self, implies_true, h]; done)
    | assumption
    | exact of_fst_wf (by assumption) (by simp only [State.holdFor_keeps (φ := State.mem) (fun _ _ => rfl), State.post_wf, ite_wf, foldl_wf, foldlPair_wf, foldlJob_wf, foldlJobPair_wf, foldr_wf, ite_st, ite_fst, ite_self, implies_true, h])
    | (have hwf : Memory.wf _ = true := of_fst_wf (by assumption) (by simp only [State.holdFor_keeps (φ := State.mem) (fun _ _ => rfl), State.post_wf, ite_wf, foldl_wf, foldlPair_wf, foldlJob_wf, foldlJobPair_wf, foldr_wf, ite_st, ite_fst, ite_self, implies_true, h])
       simp only [State.holdFor_keeps (φ := State.mem) (fun _ _ => rfl), State.post_wf, ite_wf, foldl_wf, foldlPair_wf, foldlJob_wf, foldlJobPair_wf, foldr_wf, ite_st, ite_fst, ite_self, implies_true, h, hwf])
theorem State.rowRead_wf (s : State) (t : Nat) (d : DmaDesc) (r : Nat) (h : Memory.wf s.mem = true) : Memory.wf (State.rowRead s t d r).1.mem = true := by
  unfold State.rowRead
  try dsimp only
  (repeat' split) <;> (try dsimp only) <;> first
    | rfl
    | (simp +contextual only [State.dmaReadGo_wf, State.segsRead_keeps (φ := State.mem) (fun _ _ => rfl) (fun _ _ => rfl) (fun _ _ => rfl) (fun _ _ => rfl), State.setEng_keeps (φ := State.mem) (fun _ _ => rfl), ite_wf, foldl_wf, foldlPair_wf, foldlJob_wf, foldlJobPair_wf, foldr_wf, ite_st, ite_fst, ite_self, implies_true, h]; done)
    | assumption
    | exact of_fst_wf (by assumption) (by simp only [State.dmaReadGo_wf, State.segsRead_keeps (φ := State.mem) (fun _ _ => rfl) (fun _ _ => rfl) (fun _ _ => rfl) (fun _ _ => rfl), State.setEng_keeps (φ := State.mem) (fun _ _ => rfl), ite_wf, foldl_wf, foldlPair_wf, foldlJob_wf, foldlJobPair_wf, foldr_wf, ite_st, ite_fst, ite_self, implies_true, h])
    | (have hwf : Memory.wf _ = true := of_fst_wf (by assumption) (by simp only [State.dmaReadGo_wf, State.segsRead_keeps (φ := State.mem) (fun _ _ => rfl) (fun _ _ => rfl) (fun _ _ => rfl) (fun _ _ => rfl), State.setEng_keeps (φ := State.mem) (fun _ _ => rfl), ite_wf, foldl_wf, foldlPair_wf, foldlJob_wf, foldlJobPair_wf, foldr_wf, ite_st, ite_fst, ite_self, implies_true, h])
       simp only [State.dmaReadGo_wf, State.segsRead_keeps (φ := State.mem) (fun _ _ => rfl) (fun _ _ => rfl) (fun _ _ => rfl) (fun _ _ => rfl), State.setEng_keeps (φ := State.mem) (fun _ _ => rfl), ite_wf, foldl_wf, foldlPair_wf, foldlJob_wf, foldlJobPair_wf, foldr_wf, ite_st, ite_fst, ite_self, implies_true, h, hwf])
theorem State.copyGo_wf (x0 : Nat) (x1 : State) (x2 : CopyD) (x3 : Nat) (x4 : Nat) (x5 : List Nat) (h : Memory.wf x1.mem = true) : Memory.wf (State.copyGo x0 x1 x2 x3 x4 x5).1.mem = true := by
  fun_induction State.copyGo x0 x1 x2 x3 x4 x5 <;> first
    | (simp_all +zetaDelta only [State.copyRead_wf, State.copyWrite_wf, ite_wf, foldl_wf, foldlPair_wf, foldlJob_wf, foldlJobPair_wf, foldr_wf, ite_st, ite_fst, ite_self, implies_true, h]; done)
    | (simp +zetaDelta only [State.copyRead_wf, State.copyWrite_wf, ite_wf, foldl_wf, foldlPair_wf, foldlJob_wf, foldlJobPair_wf, foldr_wf, ite_st, ite_fst, ite_self, implies_true, h]; done)
    | (simp +zetaDelta only [State.copyRead_wf, State.copyWrite_wf, ite_wf, foldl_wf, foldlPair_wf, foldlJob_wf, foldlJobPair_wf, foldr_wf, ite_st, ite_fst, ite_self, implies_true, h]; split <;> simp_all +zetaDelta only [State.copyRead_wf, State.copyWrite_wf, ite_wf, foldl_wf, foldlPair_wf, foldlJob_wf, foldlJobPair_wf, foldr_wf, ite_st, ite_fst, ite_self, implies_true, h]; done)
    | (simp_all +zetaDelta [State.copyRead_wf, State.copyWrite_wf, ite_wf, foldl_wf, foldlPair_wf, foldlJob_wf, foldlJobPair_wf, foldr_wf, ite_st, ite_fst, ite_self, implies_true, h]; done)
theorem State.tokRoute_wf (s : State) (x : Send) (h : Memory.wf s.mem = true) : Memory.wf (State.tokRoute s x).1.mem = true := by
  unfold State.tokRoute
  try dsimp only
  (repeat' split) <;> (try dsimp only) <;> first
    | rfl
    | (simp +contextual only [State.exhRead_wf, State.fabRead_wf, ite_wf, foldl_wf, foldlPair_wf, foldlJob_wf, foldlJobPair_wf, foldr_wf, ite_st, ite_fst, ite_self, implies_true, h]; done)
    | assumption
    | exact of_fst_wf (by assumption) (by simp only [State.exhRead_wf, State.fabRead_wf, ite_wf, foldl_wf, foldlPair_wf, foldlJob_wf, foldlJobPair_wf, foldr_wf, ite_st, ite_fst, ite_self, implies_true, h])
    | (have hwf : Memory.wf _ = true := of_fst_wf (by assumption) (by simp only [State.exhRead_wf, State.fabRead_wf, ite_wf, foldl_wf, foldlPair_wf, foldlJob_wf, foldlJobPair_wf, foldr_wf, ite_st, ite_fst, ite_self, implies_true, h])
       simp only [State.exhRead_wf, State.fabRead_wf, ite_wf, foldl_wf, foldlPair_wf, foldlJob_wf, foldlJobPair_wf, foldr_wf, ite_st, ite_fst, ite_self, implies_true, h, hwf])
theorem State.ringTake_wf (x0 : Nat) (x1 : State) (x2 : Nat) (x3 : Nat) (h : Memory.wf x1.mem = true) : Memory.wf (State.ringTake x0 x1 x2 x3).mem = true := by
  fun_induction State.ringTake x0 x1 x2 x3 <;> first
    | (simp_all +zetaDelta only [State.daRead_wf, State.daWrite_wf, ite_wf, foldl_wf, foldlPair_wf, foldlJob_wf, foldlJobPair_wf, foldr_wf, ite_st, ite_fst, ite_self, implies_true, h]; done)
    | (simp +zetaDelta only [State.daRead_wf, State.daWrite_wf, ite_wf, foldl_wf, foldlPair_wf, foldlJob_wf, foldlJobPair_wf, foldr_wf, ite_st, ite_fst, ite_self, implies_true, h]; done)
    | (simp +zetaDelta only [State.daRead_wf, State.daWrite_wf, ite_wf, foldl_wf, foldlPair_wf, foldlJob_wf, foldlJobPair_wf, foldr_wf, ite_st, ite_fst, ite_self, implies_true, h]; split <;> simp_all +zetaDelta only [State.daRead_wf, State.daWrite_wf, ite_wf, foldl_wf, foldlPair_wf, foldlJob_wf, foldlJobPair_wf, foldr_wf, ite_st, ite_fst, ite_self, implies_true, h]; done)
    | (simp_all +zetaDelta [State.daRead_wf, State.daWrite_wf, ite_wf, foldl_wf, foldlPair_wf, foldlJob_wf, foldlJobPair_wf, foldr_wf, ite_st, ite_fst, ite_self, implies_true, h]; done)
theorem State.access_wf (s : State) (i : Nat) (m : RxMsg) (h : Memory.wf s.mem = true) : Memory.wf (State.access s i m).mem = true := by
  unfold State.access
  try dsimp only
  (repeat' split) <;> (try dsimp only) <;> first
    | rfl
    | (simp +contextual only [State.event_keeps (φ := State.mem) (fun _ _ => rfl), State.replyStatus_wf, ite_wf, foldl_wf, foldlPair_wf, foldlJob_wf, foldlJobPair_wf, foldr_wf, ite_st, ite_fst, ite_self, implies_true, h]; done)
    | assumption
    | exact of_fst_wf (by assumption) (by simp only [State.event_keeps (φ := State.mem) (fun _ _ => rfl), State.replyStatus_wf, ite_wf, foldl_wf, foldlPair_wf, foldlJob_wf, foldlJobPair_wf, foldr_wf, ite_st, ite_fst, ite_self, implies_true, h])
    | (have hwf : Memory.wf _ = true := of_fst_wf (by assumption) (by simp only [State.event_keeps (φ := State.mem) (fun _ _ => rfl), State.replyStatus_wf, ite_wf, foldl_wf, foldlPair_wf, foldlJob_wf, foldlJobPair_wf, foldr_wf, ite_st, ite_fst, ite_self, implies_true, h])
       simp only [State.event_keeps (φ := State.mem) (fun _ _ => rfl), State.replyStatus_wf, ite_wf, foldl_wf, foldlPair_wf, foldlJob_wf, foldlJobPair_wf, foldr_wf, ite_st, ite_fst, ite_self, implies_true, h, hwf])
theorem State.buildList_wf (s : State) (t : Nat) (h : Memory.wf s.mem = true) : Memory.wf (State.buildList s t).mem = true := by
  unfold State.buildList
  try dsimp only
  (repeat' split) <;> (try dsimp only) <;> first
    | rfl
    | (simp +contextual only [State.joinFree_wf, ite_wf, foldl_wf, foldlPair_wf, foldlJob_wf, foldlJobPair_wf, foldr_wf, ite_st, ite_fst, ite_self, implies_true, h]; done)
    | assumption
    | exact of_fst_wf (by assumption) (by simp only [State.joinFree_wf, ite_wf, foldl_wf, foldlPair_wf, foldlJob_wf, foldlJobPair_wf, foldr_wf, ite_st, ite_fst, ite_self, implies_true, h])
    | (have hwf : Memory.wf _ = true := of_fst_wf (by assumption) (by simp only [State.joinFree_wf, ite_wf, foldl_wf, foldlPair_wf, foldlJob_wf, foldlJobPair_wf, foldr_wf, ite_st, ite_fst, ite_self, implies_true, h])
       simp only [State.joinFree_wf, ite_wf, foldl_wf, foldlPair_wf, foldlJob_wf, foldlJobPair_wf, foldr_wf, ite_st, ite_fst, ite_self, implies_true, h, hwf])
theorem State.dispStart_wf (s : State) (q : Nat) (x : Descr) (h : Memory.wf s.mem = true) : Memory.wf (State.dispStart s q x).mem = true := by
  unfold State.dispStart
  try dsimp only
  (repeat' split) <;> (try dsimp only) <;> first
    | rfl
    | (simp +contextual only [State.complete_keeps (φ := State.mem) (fun _ _ => rfl) (fun _ _ => rfl) (fun _ _ => rfl) (fun _ _ => rfl) (fun _ _ => rfl) (fun _ _ => rfl), State.fadd_keeps (φ := State.mem) (fun _ _ => rfl), State.fput_keeps (φ := State.mem) (fun _ _ => rfl), State.setDisp_keeps (φ := State.mem) (fun _ _ => rfl), State.tableCheck_wf, State.tileStart_wf, ite_wf, foldl_wf, foldlPair_wf, foldlJob_wf, foldlJobPair_wf, foldr_wf, ite_st, ite_fst, ite_self, implies_true, h]; done)
    | assumption
    | exact of_fst_wf (by assumption) (by simp only [State.complete_keeps (φ := State.mem) (fun _ _ => rfl) (fun _ _ => rfl) (fun _ _ => rfl) (fun _ _ => rfl) (fun _ _ => rfl) (fun _ _ => rfl), State.fadd_keeps (φ := State.mem) (fun _ _ => rfl), State.fput_keeps (φ := State.mem) (fun _ _ => rfl), State.setDisp_keeps (φ := State.mem) (fun _ _ => rfl), State.tableCheck_wf, State.tileStart_wf, ite_wf, foldl_wf, foldlPair_wf, foldlJob_wf, foldlJobPair_wf, foldr_wf, ite_st, ite_fst, ite_self, implies_true, h])
    | (have hwf : Memory.wf _ = true := of_fst_wf (by assumption) (by simp only [State.complete_keeps (φ := State.mem) (fun _ _ => rfl) (fun _ _ => rfl) (fun _ _ => rfl) (fun _ _ => rfl) (fun _ _ => rfl) (fun _ _ => rfl), State.fadd_keeps (φ := State.mem) (fun _ _ => rfl), State.fput_keeps (φ := State.mem) (fun _ _ => rfl), State.setDisp_keeps (φ := State.mem) (fun _ _ => rfl), State.tableCheck_wf, State.tileStart_wf, ite_wf, foldl_wf, foldlPair_wf, foldlJob_wf, foldlJobPair_wf, foldr_wf, ite_st, ite_fst, ite_self, implies_true, h])
       simp only [State.complete_keeps (φ := State.mem) (fun _ _ => rfl) (fun _ _ => rfl) (fun _ _ => rfl) (fun _ _ => rfl) (fun _ _ => rfl) (fun _ _ => rfl), State.fadd_keeps (φ := State.mem) (fun _ _ => rfl), State.fput_keeps (φ := State.mem) (fun _ _ => rfl), State.setDisp_keeps (φ := State.mem) (fun _ _ => rfl), State.tableCheck_wf, State.tileStart_wf, ite_wf, foldl_wf, foldlPair_wf, foldlJob_wf, foldlJobPair_wf, foldr_wf, ite_st, ite_fst, ite_self, implies_true, h, hwf])

end Sys2Proof.Machine
end

