-- ==== Sys2Proof/Tests/Slice0.lean ====
section
/-! SUPPORT. Small tests: ill-formed commands are refused, words written out from the spec's encodings, and for every statement with
hypotheses a state and operands that meet them. -/

namespace Sys2Proof.Tests
set_option linter.all false
set_option Elab.async false
open Sys2Proof.Machine

/-! ### States that the tests share -/

/-- `n` bytes of zeros with the given little-endian values (offset, width, value) laid over them. -/
def blob (n : Nat) (l : List (Nat × Nat × Nat)) : List Byte :=
  l.foldl (fun b x => b.take x.1 ++ leBytes x.2.1 x.2.2 ++ b.drop (x.1 + x.2.1)) (zeros n)
/-- A descriptor of a type with submission index 7 and its body. -/
def dsc (type : Nat) (l : List (Nat × Nat × Nat)) : Descr := ⟨7, blob 128 ((0, 1, type) :: l), false, [], 0, 0, 0⟩
/-- A module whose link is up and that is ready. -/
def sReady : State :=
  { (((((State.reset.fput F.PCI_LINK_SPEED 0 6).fput F.PCI_LINK_WIDTH 0 16).fput F.BOOT_STAT_STAGE 0 9).fput F.BOOT_STAT_READY 0 1).fput
      F.CMD_FQ_QCNT 0 16) with pcie := { Pcie.empty with ready := true } }
/-- The same with queue pair 3 of function 0 ACTIVE and a descriptor in it. -/
def sQp (d : Descr) : State :=
  ((((sReady.setQp 3 { Qp.empty with ring := [d] }).fput F.CMD_QP_STATE_STATE 3 qpACTIVE).fput F.CMD_QP_CFG_SQ_LOG2 3 8).fput
    F.CMD_QP_CFG_CQ_LOG2 3 6).fput F.CMD_QP_CFG_EN 3 1
/-- Both senders of register accesses pass the port. -/
theorem test_passes_witness : State.reset.passes 0 .svc ∧ sReady.passes 0 (.host none) :=
  ⟨trivial, show sReady.memOpen 0 none = true ∧ sReady.hostHeld = false by decide +kernel⟩

/-! ### Tile engines -/

/-- The engine of a tile that runs, with some scalar registers set. -/
def eRun : Eng := { Eng.off with power := .on, active := true, sreg := [(1, 5), (2, 7), (3, 0x1000), (4, 64), (5, 0x20000000000005), (6, 0x3000), (7, 0x00400040), (8, 0x0000000800000002)] }
/-- A state whose tile 5 has the engine `e`. -/
def withEng (e : Eng) : State := State.reset.setEng 5 e
/-- The instruction cache with the words `ws` from address 0 on. -/
def code (ws : List Nat) : SMap (List (Nat × List Byte)) := [(0, [(0, (List.range 32).flatMap (fun i => leBytes 4 (ws.getD i 0)))])]
/-- Tile 5 runs the engine `e` with the words `ws` at its PC, in the instruction cache. -/
def runs (e : Eng) (ws : List Nat) : State := withEng { e with lines := code ws }
def sRun (w : Nat) : State := runs eRun [w]
def sHandler (w : Nat) : State := runs { eRun with inHandler := true } [w]

/-- Words of R60, written out: ADD S1 = S2 + S3, SADDI, SLUI, BR, JAL, TRET and SYS 1. -/
theorem test_scalar_words :
    (wOpc 0x00221800, sD 0x00221800, sA 0x00221800, sB 0x00221800, sFN 0x00221800) = (0x00, 1, 2, 3, 0) ∧
    (wOpc 0x0422FFFF, sD 0x0422FFFF, sA 0x0422FFFF, iIMM 0x0422FFFF) = (0x01, 1, 2, -1) ∧
    (wOpc 0x408C7FFF, jCOND 0x408C7FFF, jA 0x408C7FFF, jB 0x408C7FFF, jOFF 0x408C7FFF) = (0x10, 1, 3, 3, -1) ∧
    (wOpc 0xE4800200, xFN 0xE4800200, xC 0xE4800200, xTAG 0xE4800200, xRsv 0xE4800200) = (0x39, 1, 2, 0, 0) := by decide +kernel
theorem test_scalar_witness :
    (sRun 0x00221800).issues 5 0x00221800 0x00 = true ∧ (saluOp 0 7 0x1000).isSome = true ∧ (sRun 0x0422FFFF).issues 5 0x0422FFFF 0x01 = true ∧
    (sRun 0x08200001).issues 5 0x08200001 0x02 = true ∧ (sRun 0x408C7FFF).issues 5 0x408C7FFF 0x10 = true ∧ (brCond 1 (eRun.s 3) (eRun.s 3)).isSome = true ∧
    (sRun 0x44102000).issues 5 0x44102000 0x11 = true ∧ jCOND 0x44102000 = 0 ∧ (sHandler 0x48000000).issues 5 0x48000000 0x12 = true ∧
    (sHandler 0xE4800200).issues 5 0xE4800200 0x39 = true := by decide +kernel

/-- Tile 5 with a handler; with a pending matrix-data trap. -/
def sVec (e : Eng) (w : Nat) : State := (runs e [w]).rput .TSEQ_TVEC 5 0x100
theorem test_trap_witness :
    (sVec eRun 0x4C000000).issues 5 0x4C000000 0x13 = true ∧ ((sVec eRun 0x4C000000).lineIn 5).fget F.TSEQ_TVEC_TVEC 5 = 0x100 ∧
    (((sVec eRun 0x4C000000).lineIn 5).eng 5).inHandler = false ∧ ({ eRun with pendMx := true } : Eng).mayIssue = true ∧
    (sRun 0).cached 5 = true := by decide +kernel

theorem test_scratchpad_witness :
    (sRun 0x0C240008).issues 5 0x0C240008 0x03 = true ∧ (sRun 0x10240008).issues 5 0x10240008 0x04 = true ∧ ((sRun 0x0C240008).lineIn 5).progOk 5 72 8 = true ∧
    ((sRun 0x10240008).lineIn 5).spmOk ∧ (sRun 0x80108300).issues 5 0x80108300 0x20 = true ∧ (sRun 0x84100001).issues 5 0x84100001 0x21 = true ∧
    (sRun 0x88100001).issues 5 0x88100001 0x22 = true ∧ ((sRun 0x88100001).lineIn 5).progOk 5 1024 1024 = true := by decide +kernel
theorem test_vop_witness :
    ((laneResult 0 false (laneIn false 0) (laneIn false 0) (f32 0)).isSome = true) := by decide +kernel

/-! ### DMA channels, the reduction, the matrix array -/

def dStream : DmaDesc := ⟨1, 0, 64, 0, 0, 0, 32, 3, 1, 2, 32, 32, false⟩
def dCopy : DmaDesc := { dStream with mode := 0, dspace := 1, daddr := 0x100000 }
def run0 (d : DmaDesc) (started : Bool) : DmaRun := ⟨d, 0, started, 0, [], [], 0, none⟩
def sChan (d : DmaDesc) (started : Bool) : State := withEng (eRun.setChan 1 ⟨[run0 d started], none⟩)
theorem test_dma_witness :
    (sRun 0xC0900000).issues 5 0xC0900000 0x30 = true ∧ xRsv 0xC0900000 = 0 ∧ ((sRun 0xC0900000).lineIn 5).chanHalted 5 1 = false ∧
    ((sRun 0xC0900000).lineIn 5).progOk 5 64 32 = true ∧ (sRun 0xC4800030).issues 5 0xC4800030 0x31 = true ∧ (sChan dStream false).chanLive 5 1 = true ∧
    dStream.good = 2 ∧ dCopy.good = 2 ∧ (sChan dStream true).chanLive 5 1 = true ∧ (sChan dStream true).mayMove 5 1 0 0 = true ∧
    (run0 dStream true).ends = none ∧ (sChan dStream true).progOk 5 (dStream.srcRow 0) 32 = true ∧ (sChan dCopy true).mayMove 5 1 0 0 = true ∧
    (run0 dCopy true).ends = none ∧ (sChan dCopy true).progOk 5 (dCopy.dstRow 0) 32 = true ∧ 2 ^ 20 ≤ dCopy.dstRow 0 ∧
    (sChan dCopy true).spmOk ∧ (sChan dCopy true).gate = Gate.clear := by decide +kernel
theorem test_rdx_witness :
    (sRun 0xDC110300).issues 5 0xDC110300 0x37 = true ∧ ((sRun 0xDC110300).lineIn 5).progOk 5 64 16 = true ∧
    ((sRun 0xDC110300).lineIn 5).progOk 5 0x1000 8 = true := by decide +kernel

/-- A WS pass of two rows of BF16, Kb = Nb = 2, with its block loaded and its front entered. -/
def wPass : List Nat := [0x60880000, 0x00000100, 0x0208C860, 0x38000000]
def oPass : Mxs := decodeMxs eRun 0x60880000 0x00000100 0x0208C860 0x38000000
def pPass (loaded started : Bool) : Pass := ⟨oPass, 0, 0, loaded, started⟩
def aFeed : Arr := { Arr.empty with queue := [pPass true true], active := some ⟨0, 1, 1, 1, 8, []⟩ }
def sArr (a : Arr) : State := withEng { eRun with arr := a }
/-- The ports have granted the lines of the step that is due. -/
def sFeed : State := sArr { aFeed with got := ((sArr aFeed).feedNeeds 5).map (·.2) }
theorem test_array_witness :
    (runs eRun wPass).issues 5 0x60880000 0x18 = true ∧ (State.followWords [0x00000100, 0x0208C860, 0x38000000] 4 ((runs eRun wPass).lineIn 5) 5).2 = .all ∧
    oPass.illegal none false = false ∧ (sRun 0x64000000).issues 5 0x64000000 0x19 = true ∧
    mxwWaits 0x64000000 Arr.empty = false ∧ ({ eRun with stall := some 0x64000000 } : Eng).mayIssue = true ∧
    2 ^ (sArr { aFeed with frozenFor := 2 ^ 20 }).fget F.MXA_CFG_FRZ_LIM 5 ≤ 2 ^ 20 ∧ ({ aFeed with queue := [pPass false false] } : Arr).loading = some 0 ∧
    (sArr aFeed).progOk 5 oPass.bbase oPass.blockLen = true ∧ (sArr aFeed).progOk 5 oPass.sbase oPass.westLen = true ∧
    oPass.rows = 2 ∧ oPass.mask = 0 ∧ oPass.src = 0 ∧ sFeed.feedNeeds 5 = [] := by decide +kernel

/-! ### Dispatches, tasklets, steals -/

def tsk (i : Nat) : Task := ⟨i, 5, false, false, zeros 24, 1⟩
def dsp : Disp := ⟨3, 7, 0, 96, 0, 0, 0x20000, 2, 0, false, none, (0, 0), [5, 6], 0, true, false, 0, 0, 0, none, .one 0⟩
/-- An engine that runs dispatch 1 with the word `w` at its PC. -/
def eTask (w : Nat) : Eng := { eRun with disp := some 1, lines := code [w] }
/-- Tiles 5 and 6 run dispatch 1; tile 5 has a queue. -/
def sTask (e : Eng) (d : Disp) (q : List Task) : State :=
  (((({ State.reset with clk := ⟨3, 2, 0⟩ }.setEng 5 e).setEng 6 { eTask 0 with sreg := [] }).setDisp 1 d).setStop 5 { Stop.empty with queue := q, scan := d.ntask }).aput
    .TSK_CFG 5 0
theorem test_tasklet_witness :
    (sTask (eTask 0xD0100900) dsp [tsk 0]).issues 5 0xD0100900 0x34 = true ∧ (sTask (eTask 0xD0100900) dsp [tsk 0]).progOk 5 64 24 = true ∧
    ((sTask (eTask 0) dsp [tsk 0]).tileDisp 5).isSome = true ∧ (sTask (eTask 0) dsp []).flag F.TSK_CFG_STEAL_EN 5 = false ∧
    (sTask (eTask 0xD4000000) dsp []).issues 5 0xD4000000 0x35 = true ∧ (sTask { eTask 0 with task := some (tsk 0) } dsp []).workLeft 5 false = false ∧
    (sTask (eTask 0xD8000000) dsp []).issues 5 0xD8000000 0x36 = true ∧ groupTiles dsp.group = [5, 6] ∧
    (sTask (eTask 0xE0000000) dsp []).issues 5 0xE0000000 0x38 = true ∧ (sTask (eTask 0) dsp []).haltedNow 5 = false ∧
    ((sTask (eTask 0) dsp []).streamCheck 5).2 = false ∧ (sTask (eTask 0) dsp []).workLeft 5 true = false := by decide +kernel
theorem test_last_halt_witness :
    (sTask (eTask 0xE0000000) { dsp with done := 64 } []).issues 5 0xE0000000 0x38 = true ∧ bitOf 64 6 = true ∧
    ((sTask (eTask 0) { dsp with done := 64 } []).eng 6).fenced = false ∧ SMap.sortedFrom none (sTask (eTask 0) dsp []).disps = true := by decide +kernel

def stl (r : Option (Option Task)) : Steal := ⟨[], some 6, r, 0⟩
/-- Tile 5 steals from tile 6. -/
def sSteal (r : Option (Option Task)) (stall : Option Word) (q : List Task) : State :=
  (sTask { eTask 0 with steal := some (stl r), stall := stall } dsp []).setStop 6 { Stop.empty with queue := q }
theorem test_steal_witness :
    ((sSteal none none [tsk 0, tsk 1]).eng 5).steal = some (stl none) ∧ ((sSteal none none [tsk 0, tsk 1]).stop 6).queue = [tsk 0] ++ [tsk 1] ∧
    (sSteal none none [tsk 0, tsk 1]).stealTurn 5 6 (stl none) = true ∧
    ((sSteal (some (some (tsk 1))) (some 0xD0100900) []).eng 5).tgetStall = some 0xD0100900 ∧
    ((sSteal (some (some (tsk 1))) none []).eng 5).tgetStall = none ∧ (tsk 1).args.length = 24 := by decide +kernel

def dDisp : Descr := dsc 1 [(16, 4, 96), (32, 8, 0x10000), (40, 8, 0x20000), (48, 4, 1)]
/-- Tiles 5 and 6 are powered; the only table entry has HOME 5. -/
def sDisp (busy : Bool) : State :=
  let s := ((sQp dDisp).setEng 5 { eRun with active := false, disp := if busy then some 1 else none }).setEng 6 { eRun with active := false }
  { s with mem := Memory.setBytes s.mem 0x20000 [5] }
def sStrict : State := (sTask { eTask 0 with active := false } { dsp with mode := 2, ntask := 1 } []).fput F.TPW_CFG_FILL_STRICT 5 0 |>.fput F.TPW_CFG_FILL_STRICT 6 0
def sRefill : State :=
  let s := (sTask (eTask 0) dsp []).setStop 5 { Stop.empty with scan := 1 }
  { s with mem := Memory.setBytes s.mem 0x20020 [5] }
theorem test_dispatch_witness :
    (sDisp false).mayStart 3 dDisp = true ∧ (sDisp false).dispVerdict 3 dDisp = none ∧ (groupTiles (dDisp.u 16 16)).any (sDisp false).tileBusy = false ∧
    (match (((sDisp false).markStarted 3 dDisp).tableCheck 1 0x20000 0 [5, 6] 0 []).2 with | .inl homes => homes == [5] | .inr _ => false) = true ∧
    (groupTiles (dDisp.u 16 16)).any (sDisp true).tileBusy = true ∧ (sDisp true).dispVerdict 3 dDisp = none ∧
    sStrict.disp 1 = some { dsp with mode := 2, ntask := 1 } ∧ ({ dsp with mode := 2, ntask := 1 } : Disp).strict = true ∧ (sStrict.eng 6).power = .on ∧
    sStrict.fillLevel 5 ≤ sStrict.fget F.TPW_I_I_NOW 5 ∧
    sStrict.fillLevel 6 ≤ sStrict.fget F.TPW_I_I_NOW 6 ∧ ({ sStrict with clk := ⟨0, 0, 0⟩ } : State).clk.mc % sStrict.alignMc 5 = 0 ∧
    (sRefill.entryRead 0x20000 1 1).2.ue = false ∧ (sRefill.entryRead 0x20000 1 1).2.home = some 5 := by decide +kernel

/-! ### Fences, the mesh, scratchpad banks -/

def sFence (m : Option Nat) (t : Option Task) (d : Disp) (mc : Nat) : State :=
  let s := sTask { eTask 0 with fence := m, task := t } d []
  { s with clk := { s.clk with mc := mc } }
theorem test_fence_witness :
    ((sFence none none dsp 0).eng 5).fence = none ∧ ((sFence (some 3) none dsp 0).eng 5).fence = some 3 ∧
    3 + (sFence (some 3) none dsp 100000).fget F.MESH_CFG_TMO 5 ≤ 100000 ∧ 0 < 3 + (sFence (some 3) none dsp 0).fget F.MESH_CFG_TMO 5 := by decide +kernel
def sRemote : State := (sRun 0).setOwner 5 2 OwnClass.remote.code
def sSvcBank : State := (sRun 0).setOwner 5 2 OwnClass.svc.code
theorem test_fenced_witness :
    ((sFence (some 3) (some (tsk 0)) dsp 0).tileDisp 5).isSome = true ∧ dsp.running = true ∧ bitOf dsp.done 6 = false ∧ dsp.strict = false ∧
    ((sFence (some 3) (some (tsk 0)) dsp 0).eng 6).fenced = false ∧ sRemote.admission 5 = .deliver ∧
    sRemote.spmGrant 5 0x100000 8 .remote = .yes ∧ sSvcBank.admission 5 = .deliver ∧ sSvcBank.spmGrant 5 0x100000 8 .svc = .yes ∧
    (withEng { eRun with power := .lull1 }).admission 5 = .hold ∧ ((withEng { eRun with power := .lull1 }).stop 5).ingress.length < 16 ∧
    (withEng { eRun with fenced := true }).admission 5 = .refuse := by decide +kernel

/-- A packet of one flit from tile 0 to `d`, waiting at the local input of stop `a`. -/
def pkt (a d : Nat) : Packet := ⟨1, 0, d, 0, d, false, fixedVia 0, 0, 1, 0, 0, [⟨a, 5, 0, [0], false⟩]⟩
def sMesh : State := { State.reset with packets := [pkt 0 9], clk := ⟨3, 2, 0⟩ }
theorem test_mesh_witness :
    towerOf 0 = towerOf 31 ∧ State.reset.flag F.MESH_CFG_SLOT_EN 0 = false ∧ sMesh.packets = [pkt 0 9] ∧ (pkt 0 9).flits = 1 ∧
    (pkt 0 9).segs = [⟨0, 5, 0, [0], false⟩] ∧ 0 + 3 ≤ sMesh.clk.mc ∧ SMap.find (sMesh.stop 0).portUse 2 = none := by decide +kernel
theorem test_route_witness : (31 : Nat) < 128 ∧ towerOf 0 = towerOf 31 ∧ (0 : Nat) ≠ 31 := by decide +kernel

/-- Bank 3 of tile 5 in hand-over from class PROG. -/
def sHand : State := withEng { eRun with hand := [(3, 1)] }
def sPatrol (err : SMap Nat) (wb : List Nat) : State := { (withEng { eRun with wback := wb }).fput F.SPM_CFG_PATROL_EN 5 1 with spmErr := err }
theorem test_bank_witness :
    (sRun 0).conf = false ∧ (4 : Nat) < 5 ∧ (sRun 0).owner 5 3 ≠ 4 ∧ SMap.find ((sRun 0).eng 5).hand 3 = none ∧
    SMap.find (sHand.eng 5).hand 3 = some 1 ∧ sHand.handBusy 5 3 1 = false ∧ SMap.sortedFrom none (sHand.eng 5).hand = true ∧
    ((sRun 0).rput .SPM_SECURE 5 8).secureBank 5 3 = true ∧ (((sRun 0).rput .SPM_SECURE 5 8).eng 5).unsecure.contains 3 = false ∧
    (sPatrol [] []).flag F.SPM_CFG_PATROL_EN 5 = true ∧ ((sPatrol [] []).eng 5).wiping.contains 15 = false ∧
    flips (SMap.get (sPatrol [((spmKey 5 (2 ^ 19 * 15 + 1024 * 511)) / 8 + 127, 4)] []).spmErr ((spmKey 5 (2 ^ 19 * 15 + 1024 * 511)) / 8 + 127) 0) = 1 ∧
    ((sPatrol [] [1048575]).eng 5).wback.contains 1048575 = true ∧
    flips (SMap.get (sPatrol [((spmKey 5 (2 ^ 19 * 15 + 1024 * 511)) / 8 + 127, 4)] [1048575]).spmErr (spmKey 5 (8 * 1048575) / 8) 0) = 1 := by decide +kernel

/-! ### The vertical channel -/

theorem test_code_witness : (2 ^ 64 - 1 : Nat) < 2 ^ 64 ∧ (2 ^ 39 - 1 : Nat) < 2 ^ 39 := by decide +kernel
/-- The stop of tile 5 with accepted reads and stored words with these syndromes. -/
def sVch (x : Stop) (reqs : List VReq) (synd : SMap Nat) : State :=
  { (State.reset.setStop 5 x).fput F.VCH_CFG_SCRUB_EN 5 1 with
    synd := synd, gate := { Gate.clear with reqs := reqs }, clk := ⟨10 ^ 7, 10 ^ 13, 0⟩ }
def rq (off len : Nat) : VReq := ⟨5 * 2 ^ 32 + off, len, 1⟩
theorem test_memory_witness :
    (sVch Stop.empty [] []).gate = Gate.clear ∧ (sVch Stop.empty [] []).resetTower = none ∧ (sVch Stop.empty [] []).slotTiles = [] ∧
    (sVch Stop.empty [] []).memOk ∧ (sVch Stop.empty [] []).atomClean ((sVch Stop.empty [] []).atomPlace (5 * 2 ^ 32 + 0x1F8)) = true ∧
    (sVch Stop.empty [rq 0x1F8 8] []).gate.reqs[0]? = some (rq 0x1F8 8) ∧ (sVch Stop.empty [rq 0x1F8 8] []).slotFree 5 = true ∧
    (rq 0x1F8 8).da / 2 ^ 32 = 5 ∧ (rq 0x1F8 8).da % 256 = 8 * 31 ∧
    (sVch Stop.empty [] []).flag F.VCH_CFG_SCRUB_EN 5 = true ∧
    0 + 1000 * (sVch Stop.empty [] []).fget F.VCH_SCRUB_INT 5 ≤ (sVch Stop.empty [] []).clk.ns := by decide +kernel
theorem test_word_check_witness :
    checkSyndrome (SMap.get [((5 * 2 ^ 32 + 0x1F8) / 8, e2eCode 1 0 ^^^ e2eCode 0 0)] ((5 * 2 ^ 32 + 0x1F8) / 8) 0) = .fixData 0 ∧
    checkSyndrome 3 = .bad ∧ (sVch Stop.empty [rq 0x1F8 8] []).atomPlace (5 * 2 ^ 32 + 0x1F8) = 5 * 2 ^ 32 + 0x100 := by decide +kernel
def rEmpty : Word := 0x02000011
def rCopy : Word := 0x01000011
/-- Layer 15 of tile 5 is held for training. -/
def sHeld (done : Nat) : State :=
  { (sVch { Stop.empty with sweep := [(15, (done, 2 ^ 40 - 1, 0))] } [] []).fput F.VCH_CFG_MARGIN_EN 5 1 with
    gate := { Gate.clear with layers := [16 * 5 + 15] } }
/-- A waiting request of bank 63 of tile 5. -/
def sAsked : State := { sVch Stop.empty [] [] with gate := { Gate.clear with held := [⟨64 * 5 + 63, .tile 5, 0⟩] } }
def sCopy : State := (sVch Stop.empty [] []).rput .VCH_REMAP (32 * 5 + 31) rCopy
theorem test_upkeep_witness :
    (sVch Stop.empty [] []).bankLent 5 63 = false ∧ (sVch Stop.empty [] []).bankAsked 5 63 = false ∧ sAsked.bankAsked 5 63 = true ∧
    (sVch Stop.empty [] []).flag F.MESH_CFG_SLOT_EN 5 = false ∧ (sVch Stop.empty [] []).refDue 5 63 ≤ (sVch Stop.empty [] []).clk.mc ∧
    0 + (sVch Stop.empty [] []).fget F.VCH_CFG_PAGE_TMO 5 ≤ (sVch Stop.empty [] []).clk.mc ∧ SMap.get (sAsked.stop 5).owed 63 0 + 1 < 4 ∧
    (sHeld 31).flag F.VCH_CFG_MARGIN_EN 5 = true ∧ (sHeld 31).gate.layers.contains (16 * 5 + 15) = true ∧
    (widestRun ((2 ^ 40 - 1) % 2 ^ 64)).2 = 40 ∧ (widestRun ((2 ^ 40 - 1) / 2 ^ 64)).2 = 0 ∧
    0 + 1000000 ≤ (sVch Stop.empty [] []).clk.ns ∧ 0 + 1000000 * (sVch Stop.empty [] []).fget F.VCH_BUCKET_LEAK 5 ≤ (sVch Stop.empty [] []).clk.ns := by
  decide +kernel
theorem test_remap_witness :
    remapState rEmpty.toNat = 2 ∧ remapState rCopy.toNat = 1 ∧
    remapMask rEmpty.toNat ≠ (State.reset.rget .VCH_REMAP (32 * 5 + 31)).toNat ∧ State.reset.remapRefused 5 31 rEmpty.toNat = false ∧
    remapMask rCopy.toNat ≠ (State.reset.rget .VCH_REMAP (32 * 5 + 31)).toNat ∧ State.reset.remapRefused 5 31 rCopy.toNat = false ∧
    remapState (sCopy.rget .VCH_REMAP (32 * 5 + 31)).toNat = 1 ∧ sCopy.bankLent 5 (remapBank rCopy.toNat) = false ∧
    sCopy.mayAct 5 (layerOf (remapBank rCopy.toNat)) = true ∧ sCopy.gate.reqs = [] ∧
    (∀ col, col < 16 → sCopy.atomClean (sCopy.atomPlace (2 ^ 32 * 5 +
      (2 ^ 18 * bits rCopy.toNat 13 0 + 2 ^ 14 * col + 2 ^ 10 * (remapBank rCopy.toNat / 4) + 2 ^ 8 * (remapBank rCopy.toNat % 4)))) = true) := by decide +kernel

/-! ### Bank-side cores -/

/-- A word of R146: opcode, D, A and the low 18 bits. -/
def kw (o d a x : Nat) : Word := BitVec.ofNat 32 (2 ^ 26 * o + 2 ^ 22 * d + 2 ^ 18 * a + x)
def kRun : Core := { Core.empty with breg := [(1, 3), (2, 0x40)], token := true }
/-- Core (5, 63) in a state, with one word in its store and its bank lent to it; its exchange bank is owned by BSX, and the engine has power. -/
def sCore (st : Nat) (k : Core) (w : Word) : State :=
  let s := (((((withEng eRun).setCore 5 63 { k with store := [(0, w)] }).setCState 5 63 st).setOwner 5 0 4).setOwner 5 1 4).aput .BSC_RING 5 0x6800
  { s with gate := { Gate.clear with lent := [64 * 5 + 63] } }
def kExp : Core := { kRun with expq := [(65535, 0x1122, false)] }
def kImp : Core := { kRun with pendImp := [(15, 65535, 0)] }
theorem test_core_words :
    (kOPC 0x04480005, kD 0x04480005, kA 0x04480005, kIMM 0x04480005) = (0x01, 1, 2, 5) ∧
    (kOPC 0x7C040000, kA 0x7C040000) = (0x1F, 1) ∧ kw 0x01 1 2 5 = 0x04480005 := by decide +kernel
theorem test_core_witness :
    (sCore csRUN kRun (kw 0 3 1 (2 ^ 14 * 2 + 8))).coreIssues 5 63 0x00 (kw 0 3 1 (2 ^ 14 * 2 + 8)) [1, 2, 3] = true ∧ (bscAluOp 8 3 0x40).isSome = true ∧
    (sCore csRUN kRun (kw 1 1 1 0x3FFFF)).coreIssues 5 63 0x01 (kw 1 1 1 0x3FFFF) [1, 1] = true ∧
    (sCore csRUN kRun (kw 2 1 0 9)).coreIssues 5 63 0x02 (kw 2 1 0 9) [1] = true ∧
    (sCore csRUN kRun (kw 3 1 1 (2 ^ 14 * 2 + 3))).coreIssues 5 63 0x03 (kw 3 1 1 (2 ^ 14 * 2 + 3)) [1, 2] = true ∧ (bscCond 1 3 0x40).isSome = true ∧
    (sCore csRUN kRun (kw 4 1 0 63)).coreIssues 5 63 0x04 (kw 4 1 0 63) [1] = true ∧
    (sCore csRUN kRun (kw 5 1 0 8)).coreIssues 5 63 0x05 (kw 5 1 0 8) [1] = true ∧
    (sCore csRUN kRun (kw 6 1 0 1)).coreIssues 5 63 0x06 (kw 6 1 0 1) [1] = true ∧
    (sCore csRUN { kRun with row := some 0 } (kw 9 0 0 0)).coreIssues 5 63 0x09 (kw 9 0 0 0) [] = true ∧
    (sCore csRUN kRun (kw 0x10 1 2 0)).coreIssues 5 63 0x10 (kw 0x10 1 2 0) [2, 1] = true ∧ (sCore csRUN kRun 0).exOwned 5 = true ∧
    ((sCore csRUN kRun 0).eng 5).spmOn = true ∧
    (sCore csRUN kRun (kw 0x11 1 2 0)).coreIssues 5 63 0x11 (kw 0x11 1 2 0) [2, 1] = true ∧
    (sCore csRUN kRun (kw 0x18 0 0 0)).coreIssues 5 63 0x18 (kw 0x18 0 0 0) [] = true := by decide +kernel
theorem test_row_witness :
    (sCore csRUN kRun (kw 8 0 0 16383)).coreIssues 5 63 0x08 (kw 8 0 0 16383) [0] = true ∧ kIMM (kw 8 0 0 16383) = 16383 ∧
    (sCore csRUN kRun 0).mayAct 5 (layerOf 63) = true ∧ (sCore csRUN kRun 0).gate.rows = [] ∧
    (sCore csRUN { kRun with row := some 16383 } (kw 10 1 0 511)).coreIssues 5 63 0x0A (kw 10 1 0 511) [0, 1] = true ∧ kIMM (kw 10 1 0 511) = 511 ∧
    (sCore csRUN { kRun with row := some 16383 } (kw 11 1 0 511)).coreIssues 5 63 0x0B (kw 11 1 0 511) [0, 1] = true ∧
    (sCore csRUN kRun 0).memOk ∧ (sCore csRUN kExp 0).spmOk ∧ (sCore csRUN kExp 0).exWiping 5 = false ∧
    ((sCore csRUN kImp 0).core 5 63).pendImp.find? (·.1 == 15) = some (15, 65535, 0) ∧ ((sCore csRUN kImp 0).core 5 63).expq = [] := by decide +kernel

/-- A ring record that launches core 63 (layer 15, bank 3) at entry 1023 with six arguments, at consumer index 0. -/
def ringRec : List Byte := blob 64 [(0, 2, 63), (2, 2, 1023), (4, 2, 6), (6, 2, 9), (8, 4, 77), (16, 8, 0xABCDEF)]
def sIdle : State := { sCore csIDLE Core.empty 0 with gate := Gate.clear }
def sRing (prod : Nat) : State :=
  let s := sIdle.setStop 5 { Stop.empty with ringProd := prod }
  s.spmPut 5 (s.ringBase 5 + 64) ringRec
def sLoad : State := (sIdle.rput .BSC_PMASK1 5 0x80000000).fput F.BSC_PCTL_BUSY 5 1
/-- Core (5, 63) waits; its bank is lent or not. -/
def sWait (k : Core) (lent : Bool) : State := { sCore csWAIT k 0 with gate := { Gate.clear with lent := if lent then [64 * 5 + 63] else [] }, clk := ⟨1000, 666, 0⟩ }
/-- Confidential mode, with a link. -/
def sConf : State := { (sReady.fput F.SEC_CONF_ACTIVE 0 1) with spm := [] }
theorem test_launch_witness :
    sLoad.gate = Gate.clear ∧ sLoad.hostDenied false = false ∧ (sLoad.progMask 5) = [63] ∧ (sLoad.progMask 5).any (sLoad.coreBusy 5) = false ∧
    (sLoad.daRead (2 ^ 32 * 5 + 4096 * sLoad.fget F.BSC_PSRC_OFFSET 5) 4096 5).2.2 = none ∧ sLoad.flag F.BSC_PCTL_BUSY 5 = true ∧
    sConf.hostDenied true = true ∧ sConf.memOpen 0 none = true ∧ sConf.hostHeld = false ∧ (sRing 1).ringOn 5 = true ∧ (sRing 1).exWiping 5 = false ∧
    ((sRing 1).stop 5).ringProd ≠ (sRing 1).fget F.BSC_RCONS_CONS 5 ∧ (sRing 1).flag F.GLB_FEATURES_BSC 0 = true ∧
    (sRing 1).spmRaw 5 ((sRing 1).ringBase 5 + 64) 64 = ringRec ∧ (sRing 1).coreBusy 5 63 = false ∧
    (sWait Core.empty false).tokensTaken 0 (layerOf 63) < 8 ∧ (sWait Core.empty false).tokenFirst 5 63 = true ∧
    (sWait { Core.empty with token := true } false).bankLent 5 63 = false ∧ (sWait { Core.empty with token := true } false).bankAsked 5 63 = false ∧
    (sWait Core.empty true).bankLent 5 63 = true ∧ (sWait Core.empty true).bankCopied 5 63 = false ∧
    ((sWait Core.empty true).stop 5).actFree (layerOf 63) (sWait Core.empty true).clk.mc = true := by decide +kernel
def sPaused (k : Core) : State := { sCore csPAUSE k 0 with clk := ⟨1000, 666, 0⟩ }
def sLimit : State := ((sCore csRUN kRun 0).fput F.BSC_CFG_RUN_LIM 5 0).rput .BSC_CYCLES_LO (coreIdx 5 63) 1
/-- A request has waited long for the bank of core (5, 63). -/
def sLease : State :=
  { (sCore csRUN kRun 0) with clk := ⟨10 ^ 9, 10 ^ 9, 0⟩, gate := { Gate.clear with lent := [64 * 5 + 63], held := [⟨64 * 5 + 63, .tile 5, 0⟩] } }
theorem test_end_witness :
    (sCore csRUN kRun (kw 31 0 1 0)).coreIssues 5 63 0x1F (kw 31 0 1 0) [1] = true ∧ (sCore csRUN kRun 0).coreBusy 5 63 = true ∧
    2 ^ sLimit.fget F.BSC_CFG_RUN_LIM 5 ≤ sLimit.cyclesNow 5 63 ∧ sLimit.cstate 5 63 = csRUN ∧
    ((sCore csRUN { kRun with pause := [pauseOf 2] } 0).core 5 63).pause.contains (pauseOf 2) = true ∧
    (sPaused { kRun with pause := [.copy] }).cstate 5 63 = csPAUSE ∧ (sPaused { kRun with pause := [.copy] }).bankCopied 5 63 = false ∧
    SMap.find ((sPaused { kRun with pause := [.copy] }).stop 5).lastRef 63 = none ∧
    ((sPaused { kRun with pause := [.copy] }).stop 5).actFree (layerOf 63) 1000 = true ∧
    0 + sLease.fget F.BSC_CFG_LEASE_MAX 5 ≤ sLease.clk.mc ∧ sLease.bankLent 5 63 = true ∧ sLease.cstate 5 63 = csRUN ∧ (sLease.core 5 63).pause = [] := by
  decide +kernel

/-! ### The KV manager -/

/-- Device memory with little-endian values (DA, width, value) in it. -/
def memOf (l : List (Nat × Nat × Nat)) : List Host.Cell := l.foldl (fun m x => Memory.setBytes m x.1 (leBytes x.2.1 x.2.2)) []
/-- The KV manager runs; its tables lie apart; context 3 has the entry `b`: its root is page 10, its leaf page 11, its only page page 12
with one holder; queue pair 3 holds the descriptor `d`. -/
def sKv (d : Descr) (b : List (Nat × Nat × Nat)) (pte : Nat) : State :=
  let s := (((((sQp d).fput F.KVM_CTL_RUN 0 1).fput F.KVM_CTL_READY 0 1).rput .KVM_META_LO 0 0x10000000).rput .KVM_PLACE_LO 0 0x20000000).rput .PFX_NODE_LO 0 0x30000000
  let s := (((s.rput .KVM_SEQ_LO 0 0x40000000).fput F.KVM_SEQ_HI_CTX_LOG2 0 10).fput F.KVM_SWAP_SLOTS_SLOTS 0 64)
  { s with
    mem := memOf ((0x50000, 8, 0x58000) :: (0x58000, 8, 0x59000) :: (0x59000, 4, pte) :: (0x10000000 + 8 * 12, 8, 2 ^ 22 + 1) ::
      b.map (fun x => (0x40000000 + 128 * 3 + x.1, x.2)))
    kv := { Kv.empty with inited := true, ctxs := if b = [] then [] else [3], free := [(0, [20, 21, 22, 23, 24])] } }
/-- An entry of one layer, head and vector element that holds 32 tokens in a state. -/
def ent (st : Nat) : List (Nat × Nat × Nat) := [(0, 1, st), (8, 4, 32), (16, 8, 0x50000), (36, 4, 1)]
def dKv (type : Nat) (l : List (Nat × Nat × Nat)) : Descr := dsc type ((4, 4, 3) :: l)
def dOpen : Descr := dsc 0x10 [(16, 4, 0xFFFFFFFF)]
def dClose : Descr := dKv 0x12 []
def dOut : Descr := dKv 0x13 []
def dIn : Descr := dKv 0x14 []
def dPin : Descr := dsc 0x15 []
theorem test_context_witness :
    (sKv dOpen [] 0).gate = Gate.clear ∧ (sKv dOpen [] 0).resetTower = none ∧ (sKv dOpen [] 0).slotTiles = [] ∧
    (sKv dOpen [] 0).descr 3 7 = some dOpen ∧ (sKv dOpen [] 0).kvMay 3 dOpen = true ∧
    (sKv dClose (ent cOPEN) 0).kvMay 3 dClose = true ∧ (sKv dClose (ent cOPEN) 0).leafFull = false ∧ (sKv dClose (ent cOPEN) 0).swapping 3 = false ∧
    (sKv dClose (ent cOPEN) 0).headVerdict 3 dClose (bodyZero dClose [(16, 8)]) false = none ∧
    (match (sKv dClose (ent cOPEN) 0).kvRead ((sKv dClose (ent cOPEN) 0).seqDa 3) 128 with
      | (s2, some b) => eState b == cOPEN && (((Job.closeCtx (Job.mk s2 none) 3 b).finish s2).2).isNone
      | _ => false) = true := by decide +kernel

/-- A SEQ_STEP of context 3 with four tokens: its list lies at DA 2^20. -/
def dStep (op : Nat) : Descr := dsc 0x11 [(16, 1, op), (20, 4, 1), (24, 8, 0x100000), (32, 8, if op = 0 then 0x110000 else 0), (40, 8, 0x120000)]
def sStep (op st : Nat) : State :=
  let s := sKv (dStep op) (ent st) (12 + 2 ^ 24)
  { s with mem := Memory.setBytes s.mem 0x100000 (leBytes 8 (3 + (if op = 0 then 4 * 2 ^ 20 else 0))) }
theorem test_step_witness :
    (sStep 0 cOPEN).kvMay 3 (dStep 0) = true ∧ (sStep 1 cSTEP).kvMay 3 (dStep 1) = true ∧ (sStep 0 cOPEN).gate = Gate.clear ∧
    (sStep 0 cOPEN).headVerdict 3 (dStep 0) (bodyZero (dStep 0) [(16, 1), (20, 28)]) true = none ∧
    (sStep 0 cOPEN).daVerdict 0 0x100000 8 = none ∧ (sStep 0 cOPEN).daVerdict 0 0x120000 96 = none ∧ (sStep 0 cOPEN).daVerdict 0 0x110000 16 = none ∧
    (sStep 0 cOPEN).qpFunc 3 = some 0 ∧ stepItems 1 (leBytes 8 (3 + 4 * 2 ^ 20)) = [(3, 4)] ∧ (sStep 0 cOPEN).ctxCount = 1024 := by decide +kernel
theorem test_entry_witness :
    ([cFREE, cFAILED, cSWAPPED, cSWAPIN, cSTEP, cOPEN].all fun st => match (sStep 0 st).kvRead ((sStep 0 st).seqDa 3) 128 with
      | (_, some b) => eState b == st && eFunc b == 0
      | _ => false) = true := by decide +kernel

/-- Page 30 is being zeroed. -/
def sZero : State := let s := sKv dOpen [] 0; { s with kv := { s.kv with zeroing := [30] } }
/-- A swap-out of context 3 whose only page is being written to slot 0. -/
def sOut : State := let s := sKv dOut (ent cSWAPOUT) (12 + 2 ^ 24); { s with kv := { s.kv with outs := [(3, ⟨some (3, 7), [(0, 12)], 0, [], some 0, [], 0⟩)] } }
/-- A swap-in of context 3 that waits for the bytes of slot 0; page 20 is placed for it. -/
def sIn : State :=
  let s := sKv dIn (ent cSWAPIN) (2 ^ 25)
  { s with kv := { s.kv with ins := [(3, ⟨some (3, 7), [(0, 0)], 0, [20], none, [], 0⟩)], free := [(0, [21, 22])] } }
/-- The bytes of slot 0 for page 0 of context 3: a ciphertext with its tag. -/
def slotData : List Byte :=
  slotHead 3 0 1 0 1 ++ gcmTag (aesKeys (sIn.swapKey 3 1).2) (slotIv 3 0 1 0) (zeros 128) (slotHead 3 0 1 0 1) ++ zeros 32 ++ zeros 128
theorem gcmTag_length (ks : List (List Byte)) (iv ct aad : List Byte) (h : (ks.getD 14 []).length = 16) : (gcmTag ks iv ct aad).length = 16 := by
  have hb : ∀ n v, (leBytes n v).length = n := by
    intro n; induction n with
    | zero => intro v; rfl
    | succ n ih => intro v; simp [leBytes, ih]
  simp only [gcmTag, xorBytes, aesBlock, aesShift, List.length_zipWith, List.length_map, List.length_range, beBytes, List.length_reverse, hb, h]
  rfl
/-- A ciphertext followed by its tag opens. -/
theorem gcmUnseal_tag (key iv ct aad : List Byte) (h : ((aesKeys key).getD 14 []).length = 16) :
    (gcmUnseal key iv (ct ++ gcmTag (aesKeys key) iv ct aad) aad).isSome = true := by
  simp [gcmUnseal, gcmTag_length (aesKeys key) iv ct aad h]
theorem test_swap_witness :
    sZero.kv.zeroing.contains 30 = true ∧ sZero.kvRuns = true ∧ (sKv dOut (ent cOPEN) (12 + 2 ^ 24)).kvMay 3 dOut = true ∧
    (sKv dIn (ent cSWAPPED) 0).kvMay 3 dIn = true ∧ (sKv dIn (ent cSWAPPED) 0).kv.short = [] ∧ sOut.kv.held = false ∧ sOut.hostOpen = true ∧
    sOut.kvRuns = true ∧ SMap.sortedFrom none sOut.kv.outs = true ∧ (sOut.descr 3 7).isSome = true ∧ sIn.slotAsked 3 = true ∧
    SMap.sortedFrom none sIn.kv.ins = true ∧ (sKv dPin [] 0).kvMay 3 dPin = true ∧
    (sKv dPin [] 0).headVerdict 3 dPin (bodyZero dPin [(16, 6), (24, 4), (32, 8)]) true = none := by decide +kernel
theorem test_swap_start_witness :
    (match (sKv dOut (ent cOPEN) (12 + 2 ^ 24)).swapEntry 3 dOut with
      | (s2, .ok b) => eState b == cOPEN && (s2.outStart 3 (some (3, 7))).2.isNone
      | _ => false) = true ∧
    (match (sKv dIn (ent cSWAPPED) 0).swapEntry 3 dIn with
      | (s2, .ok b) => eState b == cSWAPPED && (s2.inStart 3 (some (3, 7)) []).2.1 && (s2.inStart 3 (some (3, 7)) []).2.2.isNone
      | _ => false) = true := by decide +kernel
theorem slot_key_length : ((aesKeys (sIn.swapKey 3 1).2).getD 14 []).length = 16 := by decide +kernel
theorem test_swap_seal_witness :
    slotData.take 16 = slotHead 3 0 1 0 1 ∧
    (gcmUnseal (sIn.swapKey 3 1).2 (slotIv 3 0 1 0) ((slotData.drop 64).take 128 ++ (slotData.drop 16).take 16) (slotHead 3 0 1 0 1)).isSome = true := by
  have h := gcmTag_length (aesKeys (sIn.swapKey 3 1).2) (slotIv 3 0 1 0) (zeros 128) (slotHead 3 0 1 0 1) slot_key_length
  have e : (slotHead 3 0 1 0 1).length = 16 := rfl
  have a : slotData.take 16 = slotHead 3 0 1 0 1 := by unfold slotData; simp only [List.append_assoc]; exact List.take_left' e
  have b : (slotData.drop 64).take 128 = zeros 128 := by
    have x : slotData.drop 64 = zeros 128 := List.drop_left' (by simp only [List.length_append, e, h, show (zeros 32).length = 32 from rfl])
    rw [x]; rfl
  have c : (slotData.drop 16).take 16 = gcmTag (aesKeys (sIn.swapKey 3 1).2) (slotIv 3 0 1 0) (zeros 128) (slotHead 3 0 1 0 1) := by
    unfold slotData; simp only [List.append_assoc]; rw [List.drop_left' e, List.take_left' h]
  exact ⟨a, by rw [b, c]; exact gcmUnseal_tag _ _ _ _ slot_key_length⟩
/-- The KV manager has not started; its tables are good, or lie over one another. -/
def sCfg (good : Bool) : State :=
  let s := (((State.reset.rput .KVM_META_LO 0 0x10000000).rput .KVM_PLACE_LO 0 0x20000000).fput F.KVM_SEQ_HI_CTX_LOG2 0 10).fput F.PFX_CFG_NODE_LOG2 0 8
  (s.rput .PFX_NODE_LO 0 0x30000000).rput .KVM_SEQ_LO 0 (if good then 0x40000000 else 0x10000000)
theorem test_kvm_witness :
    (sCfg true).flag F.KVM_CTL_RUN 0 = false ∧ (sCfg true).kvConfigOk = true ∧ (sCfg false).kvConfigOk = false ∧ (sCfg true).gate = Gate.clear ∧
    (∀ t, t < 128 → (sCfg true).fget F.KVM_POOL_OFF_OFF 0 + (sCfg true).fget F.KVM_POOL_PAGES t ≤ 131072) := by decide +kernel

/-! ### Fabric ports -/

/-- Port 1 in a state, with this record. -/
def sPort (st : Nat) (keyed : Nat) (q : Port) : State := (((State.reset.setPort 1 q).fput F.FAB_STATE_STATE 1 st).fput F.FAB_STATE_KEYED 1 keyed)
/-- A peer that holds keys of both indices of port 1. -/
def sOldKey : State := (sPort fpUP 1 Port.empty).setPeer 9 { Peer.empty with keys := [(1, 0, []), (1, 1, [])] }
theorem test_port_witness :
    (sPort fpOFF 0 Port.empty).portThere 1 = true ∧ (sPort fpTRAIN 0 { Port.empty with attempt := some 0 }).portState 1 = fpTRAIN ∧
    (attempts ((sPort fpTRAIN 0 Port.empty).fget F.FAB_CFG_MAXW 1))[0]? = some (0, 0xF) ∧
    (sPort fpRETRAIN 0 { Port.empty with attempt := some 6 }).portState 1 = fpRETRAIN ∧
    ((attempts ((sPort fpTRAIN 0 Port.empty).fget F.FAB_CFG_MAXW 1)).length ≤ 6 + 1) ∧ (sPort fpRETRAIN 0 Port.empty).portState 1 = fpRETRAIN ∧
    ((sPort fpRETRAIN 0 Port.empty).port 1).attempt = none ∧ (sPort fpUP 0 Port.empty).portLive 1 = true ∧
    (sPort fpFENCED 0 Port.empty).portState 1 = fpFENCED ∧ (sPort fpUP 1 Port.empty).sprays 1 = true ∧ ((sPort fpUP 1 Port.empty).port 1).newKey = none ∧
    (sOldKey.peer 9).keys.any (fun k => k.1 == 1 && k.2.1 == 1) = true := by decide +kernel

/-! ### Varrax -/

/-- Port 1 is up and keyed, the transport runs, the module is peer 0, in the state DEPLOYED; peer 1 has the table state `st` and the record `x`. -/
def vrxOn (s : State) (st : Nat) (x : Peer) : State :=
  let s := (((s.setPort 1 { Port.empty with keys := [(0, zeros 32)] }).fput F.FAB_STATE_STATE 1 fpUP).fput F.FAB_STATE_KEYED 1 1).fput F.SEC_LC_STATE 0 lcDEPLOYED
  let s := ((((s.fput F.VRX_CTL_RUN 0 1).rput .VRX_PEER_LO 0 0x50000000).rput .EXH_BASE_LO 0 0x60000000).rput .VRX_RXPOOL_LO 0 0x70000000).fput
    F.VRX_RXPOOL_SLOTS 0 1048575
  let s := ((s.fput F.VRX_WIN_LO_SIZE_LOG2 0 30).fput F.VRX_WIN_LO_PERM 0 7).setPeer 1 x
  { s with mem := memOf [(0x50000000 + 64 + 16, 1, st)] }
def sVrx (st : Nat) (x : Peer) : State := vrxOn State.reset st x
/-- A peer on an open connection, whose key for its port 2 the module holds and which holds the module's. -/
def xOpen : Peer := { Peer.empty with conn := 2, pmask := some 4, keys := [(2, 0, zeros 32)], holds := [(1, 0)] }
/-- An encrypted packet of peer 1 without payload, with its tag. -/
def frameOf (op : Nat) : List Byte :=
  let h := blob 72 [(0, 1, 0x15), (1, 1, op), (2, 2, 1), (6, 1, 2), (7, 1, 4)]
  h ++ gcmTag (aesKeys (zeros 32)) (linkIv 1 2 0 0) [] h
/-- A message of peer 1 that has come whole. -/
def msg (op arg0 arg1 tag : Nat) (data : List Byte) : RxMsg :=
  ⟨0, op, false, 1, 2, tag, arg0, arg1, data.length, [(0, data)], some data.length, some 0, 500, true⟩
def sMsg (x : Peer) (m : RxMsg) : State := sVrx psVALID { x with rx := [m] }
def sCtl (x : Peer) (m : RxMsg) : State := sVrx psVALID { x with ctl := [m] }
theorem zero_key_length : ((aesKeys (zeros 32)).getD 14 []).length = 16 := by decide +kernel
theorem test_frame_witness :
    (sVrx psVALID xOpen).portLive 1 = true ∧ (sVrx psVALID xOpen).flag F.VRX_CTL_RUN 0 = true ∧ (sVrx psVALID xOpen).headOk (frameOf opWRITE) = true ∧
    (sVrx psVALID xOpen).headOk [] = false ∧ ((sVrx psVALID xOpen).peerState 1).2 = psVALID ∧ ((sVrx psREMOVING xOpen).peerState 1).2 = psREMOVING ∧
    (sVrx psVALID xOpen).flag F.FAB_STATE_KEYED 1 = true ∧ ((sVrx psVALID xOpen).peer 1).keys.find? (fun k => k.1 == 2 && k.2.1 == 0) = some (2, 0, zeros 32) ∧
    (sVrx psVALID xOpen).flag F.LUL_STATE_SENTRY 0 = false ∧
    (gcmUnseal (zeros 32) (linkIv 1 2 0 0) (zeros 3) ((frameOf opWRITE).take 72)).isNone = true := by decide +kernel
theorem test_frame_opens_witness (op : Nat) :
    (gcmUnseal (zeros 32) (linkIv 1 2 0 0) ((frameOf op).drop 72) ((frameOf op).take 72)).isSome = true := by
  have h : (blob 72 [(0, 1, 0x15), (1, 1, op), (2, 2, 1), (6, 1, 2), (7, 1, 4)]).length = 72 := rfl
  have a : (frameOf op).drop 72 = _ := List.drop_left' h
  have b : (frameOf op).take 72 = _ := List.take_left' h
  rw [a, b]; exact gcmUnseal_tag _ _ [] _ zero_key_length
theorem test_connection_witness :
    ((sCtl xOpen (msg opACK 0 5 0 [])).peer 1).ctl.find? (fun y => y.op == opACK && (opACK == opACK || y.arg0 % 2 == 0)) = some (msg opACK 0 5 0 []) ∧
    ((sVrx psVALID { xOpen with ackDue := 1 }).peer 1).ackDue = 1 ∧ (sVrx psVALID xOpen).portsFor 1 opACK = [1] ∧
    ((sCtl xOpen (msg opOPEN 0 0 0 [])).peer 1).ctl.find? (fun y => y.op == opOPEN && (opOPEN == opACK || y.arg0 % 2 == 0)) = some (msg opOPEN 0 0 0 []) ∧
    ((sCtl xOpen (msg opOPEN 0 0 0 [])).revive 1).2 = true ∧ ((sVrx psUNREACH xOpen).revive 1).2 = true ∧
    ((sCtl { xOpen with conn := 1 } (msg opOPEN 1 0 0 [])).peer 1).ctl.find? (fun y => y.op == opOPEN && (opOPEN == opACK || y.arg0 % 2 == 1)) = some (msg opOPEN 1 0 0 []) ∧
    ((sVrx psVALID { xOpen with conn := 1, opens := 1 }).peer 1).opens ≤ (sVrx psVALID xOpen).fget F.VRX_CFG2_RETRY 0 ∧
    (sVrx psVALID xOpen).fget F.VRX_CFG2_RETRY 0 < ((sVrx psVALID { xOpen with conn := 1, opens := 200 }).peer 1).opens ∧
    ((sVrx psUNREACH xOpen).peerState 1).2 = psUNREACH ∧ (sVrx psVALID { xOpen with holds := [] }).portsFor 1 opWRITE = [] ∧
    ((sVrx psREMOVING xOpen).peerState 1).2 = psREMOVING ∧ (sVrx psREMOVING xOpen).fw.asked = [] := by decide +kernel

/-- A message to peer 1 that awaits its reply. -/
def txm (op tag : Nat) (o : Owner) : TxMsg := ⟨0, op, false, tag, 0, 0, 8, [], 0, true, true, o⟩
def sReply (op : Nat) (m : RxMsg) : State := sMsg { xOpen with tx := [txm op 9 .plain] } m
/-- Whether the message is at its place and may take effect. -/
def waits (s : State) (ops : Nat → Nat → Bool) (m : RxMsg) : Bool := (s.peer 1).rx.find? (fun y => y.msn == 0 && ops y.op y.arg0 && (s.peer 1).mayEffect y) == some m
theorem waits_of (s : State) (ops : Nat → Nat → Bool) (m : RxMsg) (h : (s.peer 1).rx = [m])
    (p : (m.msn == 0 && ops m.op m.arg0 && (s.peer 1).mayEffect m) = true) : waits s ops m = true := by
  have e : (s.peer 1).rx.find? (fun y => y.msn == 0 && ops y.op y.arg0 && (s.peer 1).mayEffect y) = some m := by
    rw [h]; exact List.find?_cons_of_pos (l := []) p
  unfold waits; rw [e]; exact beq_self_eq_true _
theorem test_message_witness :
    waits (sMsg xOpen (msg opWRITE 0x1000 0x2000 0 (zeros 8))) (isOp opWRITE) (msg opWRITE 0x1000 0x2000 0 (zeros 8)) = true ∧
    (sMsg xOpen (msg opWRITE 0x1000 0x2000 0 (zeros 8))).winOk 0x1000 8 1 = true ∧ (sMsg xOpen (msg opWRITE 0x1000 0x2000 0 (zeros 8))).winOk 0x2000 8 1 = true ∧
    ((sMsg xOpen (msg opWRITE 0x1000 0x2000 0 (zeros 8))).daWrite 0x1000 (zeros 8)).2 = none ∧
    ((sMsg xOpen (msg opWRITE 0x1000 0x2000 0 (zeros 8))).fabRead 0x2000 8).2.2 = none ∧
    waits (sMsg xOpen (msg opREAD_REQ 0x1000 0 9 [])) (isOp opREAD_REQ) (msg opREAD_REQ 0x1000 0 9 []) = true ∧
    (sVrx psVALID xOpen).winOk 0x1000 0 0 = true ∧ (sVrx psVALID xOpen).winOk 0x1000 8 2 = true ∧
    waits (sMsg xOpen (msg opFETCH_ADD 0x1000 5 9 [])) (isOp opFETCH_ADD) (msg opFETCH_ADD 0x1000 5 9 []) = true ∧
    waits (sReply opREAD_REQ (msg opREAD_RSP 0x1000 0 9 (zeros 8))) (isOp opREAD_RSP) (msg opREAD_RSP 0x1000 0 9 (zeros 8)) = true ∧
    ((sReply opREAD_REQ (msg opREAD_RSP 0x1000 0 9 (zeros 8))).answered 1 9 [opREAD_REQ]).isSome = true ∧
    ((sReply opFETCH_ADD (msg opFETCH_RSP 7 0 9 [])).answered 1 9 [opFETCH_ADD]).isSome = true ∧
    waits (sMsg xOpen (msg opCREDIT 4 0 1 [])) (isOp opCREDIT) (msg opCREDIT 4 0 1 []) = true ∧
    waits (sMsg xOpen (msg opGEN 3 0 0 (leBytes 16 5))) (isOp opGEN) (msg opGEN 3 0 0 (leBytes 16 5)) = true ∧
    waits (sMsg xOpen (msg opMARK 3 0 0 [])) (isOp opMARK) (msg opMARK 3 0 0 []) = true ∧
    (sMsg xOpen (msg opCREDIT 4 0 1 [])).gate = Gate.clear ∧ (sMsg xOpen (msg opCREDIT 4 0 1 [])).resetTower = none ∧
    (sMsg xOpen (msg opCREDIT 4 0 1 [])).slotTiles = [] := by decide +kernel
/-- A PTP message of domain 0 in a module that follows peer 1, or is the grandmaster itself. -/
def sTime (gm : Nat) (m : RxMsg) : State :=
  let s := (sMsg xOpen m).fput F.TSY_CFG_GM 0 gm
  { s with fab := { s.fab with gm := some 1, t1 := 100, t2 := 130, t3 := 200 } }
theorem test_time_witness :
    waits (sTime 0 (msg opTIME 9 0 0 (zeros 44))) (isOp opTIME) (msg opTIME 9 0 0 (zeros 44)) = true ∧
    leAt (zeros 44) 4 1 = (sTime 0 (msg opTIME 9 0 0 (zeros 44))).fget F.TSY_CFG_DOMAIN 0 ∧ (sTime 0 (msg opTIME 9 0 0 (zeros 44))).flag F.TSY_CFG_GM 0 = false ∧
    (sTime 1 (msg opTIME 1 0 0 (zeros 44))).flag F.TSY_CFG_GM 0 = true := by decide +kernel

/-- An entry of the expert home table for slot 3: LIVE, HOME0 = 1, hosted here or not, its ring of 16 records at DA 0x100000. -/
def exh (hosted : Nat) : List (Nat × Nat × Nat) :=
  [(0x60000000 + 96, 2, 5), (0x60000000 + 98, 1, 1), (0x60000000 + 100, 2, 1), (0x60000000 + 112, 1, hosted), (0x60000000 + 113, 1, 4), (0x60000000 + 120, 8, 0x100000)]
def sExh (s : State) (l : List (Nat × Nat × Nat)) : State := { s with mem := memOf ((0x50000000 + 64 + 16, 1, psVALID) :: l) }
def tokRec : List Byte := blob 64 [(2, 2, 5), (4, 2, 1), (32, 4, 0x55)]
def mTok : RxMsg := msg opTOK (3 + 5 * 2 ^ 16) 0 9 tokRec
/-- A slot of expert 3 whose record waits, or stands at place 0 of the ring. -/
def sSlot (idx : Option Nat) (l : List (Nat × Nat × Nat)) : State :=
  let s := sExh (sVrx psVALID xOpen) (exh 1 ++ l)
  { s with fab := { s.fab with slots := [(2, ⟨1, true, 3, idx, 1, 0, 0x55, 5, 0, 64⟩)], waiting := if idx = none then [2] else [] } }
def snd (op : Nat) : Send := ⟨op, 0, 1, 64, 0x30000, 3, 0, 0, 9, false, 1, none⟩
theorem test_token_witness :
    waits (sExh (sMsg xOpen mTok) (exh 1)) (isOp opTOK) mTok = true ∧ SMap.find (sExh (sMsg xOpen mTok) (exh 1)).fab.slots 7 = none ∧
    7 < (sExh (sMsg xOpen mTok) (exh 1)).fget F.VRX_RXPOOL_SLOTS 0 ∧ xHosted ((sExh (sMsg xOpen mTok) (exh 1)).exhRead 3).2 = true ∧
    xHosted ((sExh (sMsg xOpen mTok) (exh 0)).exhRead 3).2 = false ∧
    waits (sMsg { xOpen with tx := [{ txm opTOK 9 (.ring 5 (snd opTOK)) with arg0 := 3 }] } (msg opNACK 3 0 9 (zeros 16))) (isOp opNACK) (msg opNACK 3 0 9 (zeros 16)) = true ∧
    (sSlot none []).fab.waiting = [2] ∧ (sSlot none []).exhLost 3 = false ∧ ((sSlot none []).daRead 0x100000 16 4).2.2 = none ∧
    ((sSlot (some 0) [(0x100008, 4, 1)]).daRead 0x100008 8 4).2.2 = none ∧ SMap.sortedFrom none (sSlot (some 0) []).fab.slots = true ∧
    dist32 1 0 = 1 := by decide +kernel

/-- Tile 5's send ring holds descriptor `x`; credit stands or has gone. -/
def sSend (x : Send) (st used : Nat) : State :=
  let s := sExh (sVrx st { xOpen with stUsed := used }) ((0x50000000 + 64 + 16, 1, st) :: exh 1)
  { s with fab := { s.fab with sends := [(5, [x])] } }
def sPoll : State := (sVrx psVALID xOpen).aput .FXR_CFG 5 0x16
theorem test_send_witness :
    sPoll.flag F.FXR_CFG_EN 5 = true ∧ sPoll.flag F.VRX_CTL_RUN 0 = true ∧ sPoll.pathShut 5 = false ∧ (sPoll.daRead (sPoll.fxrBase 5) 8 4).2.2 = none ∧
    (SMap.get (sSend (snd opWRITE) psVALID 0).fab.sends 5 [])[0]? = some (snd opWRITE) ∧ ((sSend (snd opWRITE) psVALID 0).fabRead 0x30000 64).2.2 = none ∧
    ((sSend (snd opTOK) psVALID 0).tokRoute (snd opTOK)).2.1 = some (1, 5) ∧ ((sSend (snd opTOK) psVALID 0).tokRoute (snd opTOK)).2.2.2 = false ∧
    ((sSend (snd opTOK) psUNREACH 0).peerState 1).2 = psUNREACH ∧ (sSend (snd opTOK) psVALID 0).creditAt 1 = 1 ∧
    (sSend (snd opTOK) psVALID 1).creditAt 1 = 0 ∧ ((sSend (snd opTOK) psVALID 1).peer 1).asked = false ∧
    (64 ≤ 2 ^ (13 + (sSend (snd opTOK) psVALID 1).fget F.VRX_RXPOOL_SLOT_LOG2 0)) ∧
    (({ sSend (snd opTOK) psVALID 0 with mem := [] } : State).tokRoute (snd opTOK)).2.1 = none := by decide +kernel
/-- An EXPERT_MAP of slot 3 whose global part has generation `gen`. -/
def dMap (fl gen : Nat) : Descr := dsc 0x20 [(16, 2, 3), (18, 1, fl), (20, 2, gen), (22, 1, 1), (24, 2, 1), (36, 1, 1), (37, 1, 4), (44, 8, 0x200000)]
def sMap (fl gen : Nat) : State := { vrxOn (sQp (dMap fl gen)) psVALID xOpen with mem := memOf (exh 1) }
theorem test_map_witness :
    (sMap 12 6).descr 3 7 = some (dMap 12 6) ∧ (sMap 12 6).mayStart 3 (dMap 12 6) = true ∧
    (sMap 12 6).headVerdict 3 (dMap 12 6) (bodyZero (dMap 12 6) [(16, 3), (20, 32)]) false = none ∧
    (let g := ((dMap 12 6).bytes.drop 20).take 16
     let l := ((dMap 12 6).bytes.drop 36).take 16
     leAt g 3 1 < 4 ∧ zeroAt g 12 4 = true ∧ leAt l 0 1 < 4 ∧ leAt g 2 1 ≤ 1 ∧ bitOf (leAt l 0 1) 0 = true ∧ 4 ≤ leAt l 1 1 ∧ leAt l 1 1 ≤ 16 ∧
     (sMap 12 6).daVerdict 0 (leAt l 8 8) (64 + 32 * 2 ^ leAt l 1 1) = none) ∧ (sMap 12 6).exhLost 3 = false ∧
    ((sMap 12 6).daRead ((sMap 12 6).exhDa 3) 32 4).2.2 = none ∧ newer 6 5 = true ∧ newer 4 5 = false := by decide +kernel

/-- A peer with a finished handshake. -/
def xKeyed : Peer := { xOpen with nonce := zeros 32, quote := some (zeros 64), ssOwn := zeros 32, ssPeer := zeros 32 }
/-- The link key of module 0 and that peer, and a KEYX_KEY message sealed under it. -/
def linkKey0 : List Byte := ((sVrx psVALID xKeyed).linkKey 1).getD []
def keyData : List Byte := zeros 12 ++ (zeros 34 ++ gcmTag (aesKeys linkKey0) (zeros 12) (zeros 34) [])
theorem link_key_length : ((aesKeys linkKey0).getD 14 []).length = 16 := by decide +kernel
theorem test_handshake_witness :
    waits (sMsg xOpen (msg opKEYX 1 0 0 (zeros 32))) (isKeyx 1) (msg opKEYX 1 0 0 (zeros 32)) = true ∧
    ((sMsg xOpen (msg opKEYX 1 0 0 (zeros 32))).ikSeed).isSome = true ∧
    waits (sMsg xOpen (msg opKEYX 2 0 0 (zeros 9))) (isKeyx 2) (msg opKEYX 2 0 0 (zeros 9)) = true ∧
    waits (sMsg xOpen (msg opKEYX 3 0 0 (zeros 9))) (isKeyx 3) (msg opKEYX 3 0 0 (zeros 9)) = true ∧
    ((sMsg xOpen (msg opKEYX 3 0 0 (zeros 9))).skemSeed).isSome = true ∧
    ((sVrx psVALID xKeyed).linkKey 1).isSome = true ∧
    waits (sMsg xOpen (msg opKEYX 5 0 0 [1, 0])) (isKeyx 5) (msg opKEYX 5 0 0 [1, 0]) = true := by decide +kernel
theorem test_key_waits_witness : waits (sMsg xKeyed (msg opKEYX 4 0 0 keyData)) (isKeyx 4) (msg opKEYX 4 0 0 keyData) = true :=
  waits_of _ _ _ rfl (by decide +kernel)
theorem test_key_witness : (gcmUnseal linkKey0 (keyData.take 12) (keyData.drop 12) []).isSome = true := by
  have h : (zeros 12).length = 12 := rfl
  have a : keyData.take 12 = zeros 12 := List.take_left' h
  have b : keyData.drop 12 = _ := List.drop_left' h
  rw [a, b]; exact gcmUnseal_tag _ _ _ _ link_key_length

/-! ### Command queues, fences and COPY -/

/-- A module that has read no summary yet, at 1 s. -/
def at1s (s : State) : State := { s with clk := ⟨10 ^ 9, 10 ^ 9, 0⟩ }
/-- Queue pair 3 waits for two descriptors. -/
def sFetch : State := at1s ((sQp dClose).setQp 3 { Qp.empty with ring := [dClose], sqProd := 2 })
/-- The poll reads `l` are out. -/
def sPolls (l : List PollRead) : State := { sFetch with cmd := { sFetch.cmd with polls := l } }
/-- A coalesced record of queue pair 3 waits for its interrupt. -/
def sCoal : State := (at1s ((sQp dClose).setQp 3 { Qp.empty with coal := 1 })).fput F.CMD_QP_CFG_IRQ 3 2
/-- Function 0 selects queue pair 3, which is disabled; its configuration is good, or it names a ring of two. -/
def sEnable (good : Bool) : State :=
  (((sReady.fput F.CMD_SUM_LO_ADDR 0 1).fput F.CMD_QPSEL_QP 0 (if good then 3 else 20)).fput F.CMD_QP_CFG_SQ_LOG2 3 8)
/-- EN = 1 with rings of 256 descriptors and records, and with a ring of 4. -/
def wGood : Word := 0x00000211
def wBad : Word := 0x00000205
theorem test_poll_witness :
    sFetch.mayPoll = true ∧ sFetch.cmd.lastPoll + sFetch.pollNs ≤ sFetch.clk.ns ∧ sFetch.pollFuncs = [0] ∧
    sFetch.cmd.lastFetch + 1000 * sFetch.fget F.CMD_POLL_IDLE_AFTER 0 ≤ sFetch.clk.ns ∧ sFetch.memOpen 0 none = true ∧ sFetch.hostHeld = false ∧
    (sPolls [.summary 0]).pollOut (.summary 0) = true ∧ (sPolls [.doorbell 3]).pollOut (.doorbell 3) = true ∧ sFetch.qpState 3 = qpACTIVE ∧
    sFetch.fetchTurn = some 3 ∧ 2 ≤ sFetch.waiting 3 ∧ sFetch.fetched + 2 ≤ 4096 ∧
    sFetch.hostFails (sFetch.get64 .CMD_QP_DB_LO .CMD_QP_DB_HI 3 + 8) 4 = false ∧
    sCoal.fget F.CMD_QP_CFG_IRQ 3 = 2 ∧ 0 < (sCoal.qp 3).coal ∧ (sCoal.qp 3).coalAt + 1000 * sCoal.fget F.CMD_QP_COAL_TIME 3 ≤ sCoal.clk.ns := by
  decide +kernel
theorem test_enable_witness :
    (sEnable true).funcLive 0 = true ∧ 2 ≤ (sEnable true).fget F.BOOT_STAT_STAGE 0 ∧ (sEnable true).selQp 0 = 3 ∧ (sEnable false).selQp 0 = 20 ∧
    (sEnable false).fget F.CMD_FQ_QCNT 0 ≤ (sEnable false).fget F.CMD_QPSEL_QP 0 ∧
    (sEnable true).fget F.CMD_QPSEL_QP 0 < (sEnable true).fget F.CMD_FQ_QCNT 0 ∧ (sEnable true).qpState 3 = qpDISABLED ∧
    ((sEnable true).rput .CMD_QP_CFG 3 (cfgWord wBad.toNat 0)).enableRefused 0 3 = true ∧
    ((sEnable true).rput .CMD_QP_CFG 3 (cfgWord wGood.toNat 0)).enableRefused 0 3 = false ∧
    ((sQp dClose).fput F.CMD_QPSEL_QP 0 3).selQp 0 = 3 ∧ (((sQp dClose).qp 3).ring.map (·.idx)).Nodup ∧
    ((((sQp dClose).qp 3).live.filter (fun d => !d.started)).length < (sQp dClose).cqRoom 3) ∧
    (16 + 2 ^ 14 * 8 : Nat) ≠ (sReady.rget .CMD_FQ 0).toNat ∧ sReady.rangeIdle 0 16 = true ∧ sReady.rangeIdle 16 8 = true := by decide +kernel

def dFence (l : List (Nat × Nat × Nat)) : Descr := dsc 0x30 l
def dFenceF : Descr := dFence [(16, 1, 1)]
def dWatch (host : Nat) : Descr := dFence [(16, 1, 2), (17, 1, host), (24, 8, 0x1000), (32, 8, 5), (40, 4, 100)]
theorem test_fence_command_witness :
    (sQp (dFence [])).mayStart 3 (dFence []) = true ∧ ((sQp (dFence [])).markStarted 3 (dFence [])).fenceVerdict 3 ((sQp (dFence [])).going (dFence [])) = none ∧
    ((sQp dFenceF).markStarted 3 dFenceF).fenceVerdict 3 ((sQp dFenceF).going dFenceF) = none ∧
    ((sQp (dWatch 0)).markStarted 3 (dWatch 0)).fenceVerdict 3 ((sQp (dWatch 0)).going (dWatch 0)) = none ∧ (dWatch 0).scope = 2 ∧ dFenceF.scope = 1 ∧
    (sQp (dWatch 0)).gate = Gate.clear ∧ (sQp (dWatch 0)).resetTower = none ∧ (sQp (dWatch 0)).slotTiles = [] ∧
    (((sQp (dWatch 0)).running (.fenceValuePoll 3 7)).daRead 0x1000 8 3).2.2 = none ∧ (dWatch 1).u 17 1 = 1 ∧ (sQp (dWatch 1)).mayRead = true ∧
    (dWatch 0).u 40 4 ≠ 0 ∧ 0 + 1000 * (dWatch 0).u 40 4 ≤ (at1s (sQp (dWatch 0))).clk.ns := by decide +kernel

/-- A COPY of two rows of 8 bytes between two spaces. -/
def dCopyX (ss ds : Nat) : Descr := dsc 2 [(16, 1, ss), (17, 1, ds), (20, 4, 8), (24, 8, 0x1000), (32, 8, 0x2000), (40, 4, 1), (44, 4, 64), (48, 4, 64)]
/-- A COPY of one output record of context 3 out of the output window, in confidential mode. -/
def dSeal : Descr := dKv 2 [(17, 1, 1), (20, 4, 4096), (24, 8, 0x50000000), (32, 8, 0x2000)]
def sSeal : State :=
  let s := ((((sKv dSeal (ent cOPEN ++ [(1, 1, 2)]) 0).rput .SEC_OWIN_LO 0 0x50000000).fput F.SEC_OWIN_LEN_LEN 0 1).fput F.SEC_CONF_ACTIVE 0 1)
  { s with mem := Memory.setBytes s.mem 0x50000000 (leBytes 8 (2 ^ 32 + 3)) }
theorem test_copy_witness :
    ([(0, 0), (1, 0), (0, 1), (2, 0)].all fun p => let d := dCopyX p.1 p.2
      let s := (sQp d).setEng 0 { Eng.off with power := .on }
      s.mayStart 3 d && ((s.running (.copyRows 3 7 [])).copyVerdict 3 d).isNone && decide (s.copyGrant d.copy = .ok) && s.hostOpen && !s.hostAbsorbed &&
        s.mayRead) = true ∧
    sSeal.conf = true ∧ sSeal.mayStart 3 dSeal = true ∧ (sSeal.running (.copyRows 3 7 [])).copyVerdict 3 dSeal = none := by decide +kernel

/-! ### Partial resets, the module reset, the board -/

/-- A partial reset of a scope and target is in a phase. -/
def sRst (ph scope target : Nat) (absorb : Bool) : State :=
  let s := at1s (((sReady.fput F.RST_STATE_PHASE 0 ph).fput F.RST_STATE_SCOPE 0 scope).fput F.RST_STATE_TARGET 0 target)
  { s with rst := { Rst.empty with absorb := absorb } }
def sModule : State := { sReady with rst := { Rst.empty with modDue := true } }
theorem test_reset_witness :
    sReady.flag F.BOOT_STAT_READY 0 = true ∧ sReady.phase = phIDLE ∧ State.reset.flag F.BOOT_STAT_READY 0 = false ∧ bits 0x101 2 0 = 1 ∧
    scopeHolds 1 1 2 0 = false ∧ scopeHolds 2 0 0 127 = false ∧ scopeHolds 0 127 2 0 = false ∧ (sRst phWORK 0 5 false).phase = phWORK ∧
    (sRst phWORK 0 5 false).rstIdle = true ∧
    0 + 1000000 * max 1 ((sRst phWORK 0 5 false).fget F.RST_DL1_WORK_MS 0) ≤ (sRst phWORK 0 5 false).clk.ns ∧
    (sRst phEMPTY 3 0 true).phase = phEMPTY ∧ (sRst phEMPTY 0 5 false).crossing = false ∧ (sRst phEMPTY 3 0 true).crossing = false ∧
    0 + 1000 * (sRst phEMPTY 0 5 false).rstDeadline ≤ (sRst phEMPTY 0 5 false).clk.ns ∧ (sRst phRESET 3 0 true).phase = phRESET ∧
    sModule.rst.modDue = true ∧ SMap.sortedFrom none sModule.regs = true := by decide +kernel

/-- The input has no voltage; it has it while PWR_EN is low; the converters run. -/
def sBoard (input pwrEn on : Bool) : State := { State.reset with brd := { State.reset.brd with input := input, pwrEn := pwrEn, on := on, cut := false } }
theorem test_input_witness :
    (sBoard false true false).brd.input = false ∧ (sBoard true false false).brd.pwrEn = false ∧ (sBoard true true true).brd.on = true ∧
    (sBoard true true true).thm.off = false ∧ (sBoard true true true).coolState = 0 ∧
    ((sBoard true true true).fput F.COOL_TCAP_STATE 0 1).coolState ≠ 0 := by decide +kernel

/-! ### PCIe, register conventions, faults and the log -/

def withPcie (s : State) (p : Pcie) : State := { s with pcie := p }
/-- Powered, with PWR_EN high. -/
def sOn (s : State) : State := { s with brd := { s.brd with input := true, pwrEn := true, on := true } }
/-- A COPY whose host read is out. -/
def sBack (d : Descr) : State := sQp { d with started := true, prog := 1 }
/-- The request of mailbox 1, of 8 bytes, is being read; the boot image, of 16 bytes. -/
def sMbxRead : State := let s := (sOn sReady).fput F.MBX_REQ_LEN_LEN 1 8; { s with sec := { s.sec with mbxRead := [1] } }
def sImage : State := ((sOn sReady).fput F.FWB_STAT_STATE 0 fbLOADING).fput F.FWB_LEN_LEN 0 16
theorem test_pcie_witness :
    (sOn sReady).brd.pwrEn = true ∧ (sOn sReady).pcie.perst = false ∧ (sOn sReady).linkUp = true ∧ (sOn sReady).brd.on = true ∧
    (sOn sReady).rst.modDue = false ∧ 6 ≤ (sOn sReady).stage ∧ (sOn sReady).funcLive 0 = true ∧
    (withPcie sReady { Pcie.empty with vfEnable := true, numVFs := 2 }).pcie.vfEnable = true ∧ sReady.pcie.ready = true ∧
    (withPcie sReady Pcie.empty).pcie.ready = false ∧ sReady.gate = Gate.clear ∧ sReady.resetTower = none ∧ sReady.slotTiles = [] ∧
    sReady.memOpen 0 none = true ∧ sReady.hostHeld = false ∧ sReady.conf = false ∧
    (((sReady.running (.bar4Read ⟨0x1000, none⟩ 8)).daRead (sReady.bar4Da 0x1000) 8 3).2.2 = none) ∧
    (((sReady.running (.bar4Write ⟨0x1001, none⟩ [5])).daWrite (sReady.bar4Da 0x1001) [5]).2 = none) ∧
    4 ∈ (withPcie sReady { Pcie.empty with ready := true, ide := [4] }).pcie.ide ∧
    (sBack (dCopyX 1 0)).descr 3 7 = some { dCopyX 1 0 with started := true, prog := 1 } ∧ (sBack (dCopyX 1 0)).hostAbsorbed = false ∧
    1 ∈ sMbxRead.sec.mbxRead ∧ sMbxRead.fget F.MBX_REQ_LEN_LEN 1 = 8 ∧ sImage.fget F.FWB_STAT_STATE 0 = fbLOADING ∧ sImage.fget F.FWB_LEN_LEN 0 = 16 := by
  decide +kernel

/-- A set of block 4 of tile 5 that waits, and the module. -/
def sStaged : State := let s := sOn sReady; { s with wset := [(8 * 5 + 4, [(Reg.TPW_TRIP.key 5, 0x1234)])] }
theorem test_register_witness :
    (sOn sReady).regAt 0 (regOffset .VCH_CFG 5) = some (.VCH_CFG, 5) ∧ (sOn sReady).regStarted .VCH_CFG 5 = true ∧ (sOn sReady).regShut .VCH_CFG 5 = false ∧
    Reg.VCH_CFG.isStatus = false ∧ regOffset .VCH_CFG 5 % 4 = 0 ∧ (sOn sReady).areaRefused (regOffset .VCH_CFG 5) .svc = none ∧
    (((sOn sReady).running (.registerWrite 0 (regOffset .VCH_CFG 5) 3 .svc)).writeReg 0 .VCH_CFG 5 3 3 .svc).gate.blk = [] ∧
    Reg.VCH_CFG.fields.any (fun x => x.acc = .rw) = true ∧
    (sOn sReady).regAt 0 (regOffset .PCI_CFG 0) = some (.PCI_CFG, 0) ∧ (sOn sReady).regStarted .PCI_CFG 0 = true ∧ regOffset .PCI_CFG 0 < 65536 ∧
    (Reg.PCI_CFG.fields.find? (fun y => decide (y.lo ≤ 0 ∧ 0 ≤ y.hi))).any (fun x => x.acc = .rw) = true ∧
    (sOn sReady).regStarted .STG_CTL 132 = true ∧ (sOn sReady).regShut .STG_CTL 132 = false ∧ (sOn sReady).stgVerdict 5 4 = none ∧
    (sOn sReady).stgVerdict 5 7 = some (2, 0) ∧ SMap.sortedFrom none sStaged.wset = true ∧ (SMap.find sStaged.wset (8 * 5 + 4)).isSome = true ∧
    sStaged.stgQuiet 5 4 = true := by decide +kernel
theorem test_field_witness :
    (sOn sReady).regStopped .TSEQ_TVEC 5 = true ∧
    ((sOn sReady).setEng 5 { eRun with disp := some 1 }).regStopped .TSEQ_TVEC 5 = false ∧
    Reg.TSEQ_TVEC.fields.any (fun x => x.acc = .rw && x.app = .frozen) = true := by decide +kernel

def rse (src : Nat) : Raise := ⟨src, 0, 0, 0, 1, false, 0⟩
def withFlt (s : State) (f : Flt) : State := { s with flt := f }
/-- The log is frozen at record 5. -/
def sFrozen : State := ((sOn sReady).fput F.EDY_STATE_FROZEN 0 1).fput F.EDY_FREEZE_INDEX 0 5
/-- A trap is being handled and another waits. -/
def sTrap : State := (withFlt (at1s (sOn sReady)) { Flt.empty with trapQ := [0x8200] }).fput F.FLT_TQ_VALID 0 1
theorem test_fault_witness :
    SMap.get (withFlt sReady { Flt.empty with coll := [(5, [rse 9])], unitWait := [(5, [rse 700])] }).flt.coll 5 [] = [rse 9] ∧
    (withFlt sReady { Flt.empty with arrive := [rse 0x8200] }).nested (rse 0x8200) = false ∧ (withFlt sReady Flt.empty).nested (rse (0x50 * 512)) = true ∧
    (sReady.src 0x8200).fault = false ∧ (withFlt sReady { Flt.empty with srcs := [(0x8200, ⟨true, 1, 0, false, false, 0⟩)] }).condHolds 0x8200 = false ∧
    ((withFlt sReady { Flt.empty with srcs := [(0x8200, ⟨true, 1, 0, false, false, 0⟩)] }).src 0x8200).fault = true ∧
    (withFlt (at1s sReady) { Flt.empty with conds := [0x8200] }).condHolds 0x8200 = true ∧
    0 + 10 ^ 7 * max 1 (sReady.fget F.FLT_RXN_QUIET (0x8200 / 512)) ≤ (at1s sReady).clk.ns ∧ sTrap.trapBusy = true ∧ sTrap.flt.trapQ = [0x8200] ∧
    0 + 10 ^ 6 * max 1 (sTrap.fget F.FLT_CFG_TRAP_TMO 0) ≤ sTrap.clk.ns ∧ sFrozen.flag F.EDY_STATE_FROZEN 0 = true := by decide +kernel
theorem test_sideband_witness :
    (sOn sReady).brd.input = true ∧ (sOn sReady).flt.clearing = false ∧ 0 + 1 ≤ ((sOn sReady).fput F.EDY_HEAD_INDEX 0 4097).fget F.EDY_HEAD_INDEX 0 ∧
    4097 ≤ 1 + 4096 ∧ 1 ∉ (sOn sReady).edy.bad ∧ (sOn sReady).fget F.EDY_HEAD_INDEX 0 < 0 + 1 := by decide +kernel

/-! ### Security and the mailboxes -/

/-- The module in a lifecycle state. -/
def sLc (st : Nat) : State := (sOn sReady).fput F.SEC_LC_STATE 0 st
/-- A session that a context uses, and one that none uses; the mailbox names one of them. -/
def ses (sid : Nat) : Session := ⟨sid, 0, [], [], none, 0⟩
def sSes (arg : Word) (used : Bool) : State :=
  let s := (sLc lcDEPLOYED).rput .MBX_ARG 8 arg
  { s with sec := { s.sec with sessions := [ses 1] }, kv := { s.kv with sid := if used then [(3, 1)] else [] } }
/-- The program region is 1 MiB at DA 0x60000000. -/
def sProg : State := ((sLc lcDEPLOYED).rput .SEC_PROG_LO 0 0x60000000).fput F.SEC_PROG_LEN_LEN 0 1
theorem test_mailbox_witness :
    (sLc lcDEPLOYED).mbxBusy 1 = false ∧ (sLc lcDEPLOYED).mbxBusy 0 = false ∧ (sLc lcDEPLOYED).hostOpen = true ∧
    ({ sLc lcDEPLOYED with fw := { Fw.empty with running := true } } : State).fw.running = true ∧ (sSes 1 true).fw.handover = false ∧
    (sSes 2 false).session ((sSes 2 false).mbxArg 1 0) = none ∧ ((sSes 1 true).session ((sSes 1 true).mbxArg 1 0)).isSome = true ∧
    (sSes 1 true).kv.sid.any (fun e => e.2 == 1) = true ∧ (sSes 1 false).kv.sid.any (fun e => e.2 == 1) = false ∧ sProg.progVerdict 8 = mbOK ∧
    (sProg.fput F.KVM_CTL_RUN 0 0).flag F.KVM_CTL_RUN 0 = false ∧ sProg.disps = [] ∧ (sLc lcPROVISIONED).keyEpoch < 63 ∧
    ((sLc lcPROVISIONED).fput F.SEC_LC_KEY_EPOCH 0 63).keyEpoch = 63 ∧ leAt (padTo 5268 [2]) 0 1 = lcDEPLOYED ∧
    leAt (padTo 5268 [2]) 0 1 ≠ lcPROVISIONED ∧ (sLc lcRETURNED).lcState = lcRETURNED := by decide +kernel

/-- Bank 15 of tile 5 is being wiped; a lifecycle change waits for it. -/
def sWiping (lc : Option (Nat × List Byte)) : State :=
  let s := (sOn sReady).setEng 5 { eRun with wiping := [15] }
  { s with sec := { s.sec with lcWait := lc } }
def dAtt (k : Nat) : Descr := dsc 0x41 [(48, 8, 0x1000), (56, 4, 65536), (60, 1, k)]
theorem test_security_witness :
    15 ∈ ((sWiping none).eng 5).wiping ∧ ((sWiping none).eng 5).power = .on ∧ ((sWiping none).stop 5).ingress = [] ∧
    (((sWiping (some (2, []))).wipeEnd 5 15).ingressDrain 5 []).wiped = true ∧
    ([0, 1, 2].all fun k => (sQp (dAtt k)).mayStart 3 (dAtt k) && decide ((dAtt k).attKind = k) &&
      decide ((sQp (dAtt k)).headVerdict 3 (dAtt k) (bodyZero (dAtt k) [(16, 45)]) false = none)) = true ∧ (sQp (dAtt 0)).hostOpen = true ∧
    (sQp (dAtt 0)).descrDead 3 7 = false ∧ (sQp (dAtt 0)).hostFails ((dAtt 0).u 48 8) 64 = false ∧ (sLc lcRETURNED).lcState = lcRETURNED ∧
    sReady.linkUp = true ∧ sReady.pcie.ready = true ∧ ({ sReady with sec := { Sec.empty with spdm := true } } : State).sec.spdm = true ∧
    ((sOn sReady).fput F.SPM_SECURE_SECURE 5 0x8000).secureBank 5 15 = true := by decide +kernel

/-! ### Firmware -/

def withFw (s : State) (x : Fw) : State := { s with fw := x }
def dStage (op chunk len igen : Nat) : Descr := dsc 0x42 [(16, 1, op), (20, 4, chunk), (24, 4, len), (28, 4, igen)]
/-- Microcode activates, tile 5 withdrawn. -/
def sUcode : State := (withFw ((sOn sReady).fput F.FWS_STATE_STATE 0 fwACTIVATING) { Fw.empty with withdrawn := [5] }).fput F.FWS_STATE_KIND 0 1
/-- The module takes part in broadcasts and holds part of image 5. -/
def sCast (s : State) (st : Nat) (x : Fw) : State := at1s (withFw (((s.fput F.FWS_CFG_BCAST_EN 0 1).fput F.FWS_STATE_STATE 0 st).fput F.FWS_IGEN_IGEN 0 5) x)
theorem test_stage_witness :
    ([0, 1, 2].all fun op => let d := dStage op 0 4096 5
      (sQp d).mayStart 3 d && decide (d.op = op) && decide ((sQp d).headVerdict 3 d (bodyZero d [(16, 1), (20, 52)]) false = none)) = true ∧
    (sQp (dStage 0 0 4096 5)).fwState ≠ fwACTIVATING ∧ (sQp (dStage 0 0 4096 5)).chunkRefused 0 4096 5 = false ∧
    (sQp (dStage 0 0 4096 5)).chunkRefused 0 8 5 = true ∧ (sQp (dStage 0 0 4096 5)).hostOpen = true ∧ (sQp (dStage 0 0 4096 5)).mayRead = true ∧
    (sQp (dStage 1 0 0 5)).gate = Gate.clear ∧ (sQp (dStage 1 0 0 5)).resetTower = none ∧ (sQp (dStage 1 0 0 5)).slotTiles = [] ∧
    (withFw (at1s sReady) { Fw.empty with handover := true }).fw.handover = true ∧ 0 + 20000000 ≤ (at1s sReady).clk.ns ∧
    sUcode.fwState = fwACTIVATING ∧ (sUcode.eng 5).disp = none ∧ sUcode.fget F.FWS_STATE_KIND 0 = 1 ∧
    (sCast sReady fwSTAGING { Fw.empty with nchunk := some 9 }).fwState = fwSTAGING ∧
    0 + (sCast sReady fwSTAGING Fw.empty).gapNs ≤ (sCast sReady fwSTAGING Fw.empty).clk.ns := by decide +kernel
/-- SHA3-256 of five zero bytes, from a library. -/
def zeroHash : List Byte :=
  [103, 112, 42, 14, 210, 90, 80, 196, 111, 192, 160, 251, 70, 166, 223, 191, 83, 51, 201, 220, 37, 69, 26, 189, 177, 238, 172, 147, 241, 233, 104, 213]
/-- Chunk 1 of image 5: five zero bytes with their hash, or with another. -/
def chunkData (good : Bool) : List Byte := (if good then zeroHash else zeros 32) ++ leBytes 4 9 ++ zeros 4 ++ leBytes 4 5 ++ leBytes 2 1 ++ zeros 18 ++ zeros 5
def mFw (k n igen : Nat) (data : List Byte) : RxMsg := msg opFW (2 ^ 62 * k + n) igen 0 data
def sFwMsg (m : RxMsg) (have_ : List Nat) : State := sCast (sMsg xOpen m) fwSTAGING { Fw.empty with have_ := have_ }
theorem test_chunk_witness :
    waits (sFwMsg (mFw 0 1 5 (chunkData true)) []) (isFw 0) (mFw 0 1 5 (chunkData true)) = true ∧
    ((chunkData true).drop 64).length = leAt ((chunkData true).take 64) 40 4 ∧ sha ((chunkData true).drop 64) = ((chunkData true).take 64).take 32 ∧
    sha ((chunkData false).drop 64) ≠ ((chunkData false).take 64).take 32 ∧ leAt ((chunkData false).take 64) 40 4 ≠ 0 ∧
    (sFwMsg (mFw 0 1 5 (chunkData true)) []).chunkRefused 1 5 5 = false ∧ (sFwMsg (mFw 0 1 5 (chunkData true)) []).chunkRefused 1 5 0 = true ∧
    waits (sFwMsg (mFw 1 1 5 []) [1]) (isFw 1) (mFw 1 1 5 []) = true ∧
    ((sFwMsg (mFw 1 1 5 []) [1]).fabRead ((sFwMsg (mFw 1 1 5 []) [1]).chunkDa 0) 4096).2.2 = none ∧
    waits (sFwMsg (mFw 2 0 5 []) []) (isFw 2) (mFw 2 0 5 []) = true ∧ newerGen 5 ((sFwMsg (mFw 2 0 5 []) []).fget F.FWS_RUN_IGEN 0) = true ∧
    (sFwMsg (mFw 1 1 5 []) [1]).gate = Gate.clear ∧ (sFwMsg (mFw 1 1 5 []) [1]).resetTower = none ∧ (sFwMsg (mFw 1 1 5 []) [1]).slotTiles = [] := by
  decide +kernel

/-- Module 3 holds image 5 whole; root 1 is UNREACH and peer 2 VALID. -/
def sMark : State :=
  let s := sCast (((State.reset.fput F.VRX_CFG_SELF 0 3).rput .VRX_PEER_LO 0 0x50000000)) fwCOMPLETE { Fw.empty with root := some 1 }
  { s with mem := [(0x50000000 + 80, 3), (0x50000000 + 144, 1)] }
theorem mark_place (da : Nat) (h : da < 2 ^ 32) : sMark.atomPlace da + da % 256 = da := by
  have a : ∀ n, n < 32 → bits (sMark.rget .VCH_REMAP n).toNat 25 24 ≠ 2 := by decide +kernel
  have t : da / 2 ^ 32 = 0 := Nat.div_eq_of_lt h
  have f : sMark.remapOf 0 (da % 2 ^ 32) 2 = none := by
    unfold State.remapOf
    rw [List.find?_eq_none]
    intro n hn
    have := a n (List.mem_range.mp hn)
    simp [this]
  unfold State.atomPlace
  simp only [t, f]
  show da - da % 256 + da % 256 = da
  omega
theorem mark_bytes (a : Nat) (h : a ≠ 0x50000000 + 80) (h' : a ≠ 0x50000000 + 144) : Memory.get sMark.mem a = 0 := by
  have e : sMark.mem = [(0x50000000 + 80, 3), (0x50000000 + 144, 1)] := rfl
  rw [e]
  simp only [Memory.get, SMap.get, SMap.find, h, h', if_false]
  split <;> (try split) <;> rfl
theorem mark_peek (i : Nat) (h : i < 16384) : sMark.peerPeek i = if i = 1 then 3 else if i = 2 then 1 else 0 := by
  have b : sMark.peerDa i = 0x50000000 + 64 * i := by
    show sMark.kvBase .VRX_PEER_LO .VRX_PEER_HI 20 + 64 * i = _
    have : sMark.kvBase .VRX_PEER_LO .VRX_PEER_HI 20 = 0x50000000 := by decide +kernel
    rw [this]
  have s : sMark.synd = [] := rfl
  have w : ∀ da, (sMark.wordLook da) = (Memory.getBytes sMark.mem da 8, .good) := by
    intro da; simp [State.wordLook, s, SMap.get, SMap.find, checkSyndrome]
  have l : sMark.lostAt (sMark.peerDa i) 3 = false := by simp [State.lostAt, w]
  unfold State.peerPeek
  rw [l, b]
  simp only [State.peek8, Bool.false_eq_true, if_false]
  rw [mark_place _ (by omega), w]
  by_cases h1 : i = 1
  · subst h1; decide +kernel
  by_cases h2 : i = 2
  · subst h2; decide +kernel
  have z : Memory.getBytes sMark.mem (0x50000000 + 64 * i + 16) 8 = zeros 8 := by
    unfold Memory.getBytes
    simp only [List.range, List.range.loop, List.map]
    rw [mark_bytes, mark_bytes, mark_bytes, mark_bytes, mark_bytes, mark_bytes, mark_bytes, mark_bytes] <;> first | rfl | omega
  simp only [z, h1, h2, if_false]
  decide
theorem mark_ranks : sMark.ranks = [1, 2, 3] := by
  have f : (List.range 16384).filter (fun i => i == sMark.self || (sMark.peerPeek i == psVALID || sMark.peerPeek i == psUNREACH))
      = (List.range 16384).filter (fun i => i == 1 || i == 2 || i == 3) := by
    apply List.filter_congr
    intro i hi
    have e : sMark.self = 3 := by decide +kernel
    rw [mark_peek i (List.mem_range.mp hi), e]
    by_cases h1 : i = 1
    · subst h1; rfl
    by_cases h2 : i = 2
    · subst h2; rfl
    simp [h1, h2, psVALID, psUNREACH]
  have r : sMark.fw.root.getD sMark.self = 1 := rfl
  simp only [State.ranks, r]
  rw [f]
  decide +kernel
theorem test_mark_witness :
    sMark.fwParent = some 1 ∧ (sMark.peerState 1).2 = psUNREACH ∧ sMark.fwOrder.find? (fun j => (sMark.peerState j).2 = psVALID) = some 2 ∧
    sMark.flag F.FWS_CFG_BCAST_EN 0 = true ∧ sMark.fwState = fwCOMPLETE ∧ sMark.fw.markAt + sMark.gapNs ≤ sMark.clk.ns := by
  have p : sMark.fwParent = some 1 := by
    unfold State.fwParent State.fwRank; rw [mark_ranks]; decide +kernel
  have o : sMark.fwOrder = [1, 2] := by
    unfold State.fwOrder State.fwRank State.childrenOf; rw [p, mark_ranks]; decide +kernel
  refine ⟨p, by decide +kernel, ?_, by decide +kernel⟩
  rw [o]; decide +kernel
theorem test_mark_request_witness : (2 ^ 62 * 1 + (2 ^ 31 + Config.markReq.toNat)) % 2 ^ 32 = 2 ^ 31 + Config.markReq.toNat ∧
    (1 : Nat) ≠ 2 ^ 31 + Config.markReq.toNat := by
  have := Config.markReq.isLt
  omega

/-! ### Power delivery -/

def withPwr (s : State) (p : Pwr) : State := { s with pwr := p }
/-- A HINT of profile 2 for tiles 5 and 6, of 30 µs after a lead of 5 µs, or the end of its phases. -/
def dHint (end_ : Nat) : Descr := dsc 0x31 [(16, 1, 2), (17, 1, end_), (20, 4, 5000), (24, 4, 30), (32, 8, 0x60)]
def rsv (begun : Bool) : Resv := ⟨2, 0, 0x60, 0, 30, [(5, 8)], begun, 0⟩
/-- Tile 5 on, at 1 s, with this record of power delivery. -/
def sPow (p : Pwr) : State := withPwr (at1s (withEng eRun)) p
/-- Tile 5 waits for its domain, near a neighbour that draws little or much. -/
def sSeq (i : Nat) : State := (sPow { Pwr.empty with waitOn := [(5, 7)] }).fput F.TPW_I_I_NOW 4 i
theorem test_hint_witness :
    ([0, 1, 2].all fun e => let d := dHint e
      (sQp d).mayStart 3 d && decide (((sQp d).markStarted 3 d).headVerdict 3 ((sQp d).going d) (bodyZero ((sQp d).going d) [(16, 2), (20, 8), (32, 16)]) false = none)) = true ∧
    (sPow { Pwr.empty with resv := [rsv false] }).pwr.resv[0]? = some (rsv false) ∧ (rsv false).begins ≤ (sPow Pwr.empty).clk.ns ∧
    (rsv true).begins + 1000 * (if (sPow Pwr.empty).flag F.PWR_PROF_DATA_VALID 2 then (sPow Pwr.empty).fget F.PWR_PROF_DATA_DUR 2 else (rsv true).dur) ≤ (sPow Pwr.empty).clk.ns ∧
    (rsv true).begins + 1000 * ((rsv true).dur + 100) ≤ (sPow Pwr.empty).clk.ns := by decide +kernel
theorem test_power_witness :
    ((sPow Pwr.empty).eng 5).power = .on ∧ SMap.sortedFrom none (sPow Pwr.empty).pwr.spent = true ∧ (sPow Pwr.empty).thmCeil 5 < 8 ∧
    (sPow Pwr.empty).fget F.TPW_PSTATE_CEIL 5 < 8 ∧ (sPow Pwr.empty).fget F.TPW_TRIP_GUST_TRIP 5 < 64 ∧ (sPow Pwr.empty).fget F.TPW_TRIP_DROOP_TRIP 5 < 64 ∧
    5 ∉ (sPow Pwr.empty).pwr.slow ∧ (sPow Pwr.empty).pwr.clamp = none ∧ (sPow Pwr.empty).fget F.PWR_CAP_PEAK_W 0 < 2000 + 50 ∧
    (sPow { Pwr.empty with clamp := some 0 }).pwr.clamp = some 0 ∧ 0 + 10000 ≤ (sPow Pwr.empty).clk.ns ∧ 0 < (sPow Pwr.empty).effCap ∧
    gustReserve ≤ SMap.get (sPow { Pwr.empty with spent := [(5, 128000)] }).pwr.spent 5 0 ∧ SMap.get (sPow Pwr.empty).pwr.spent 5 0 < gustReserve := by decide +kernel
theorem test_sequencer_witness :
    SMap.find (sSeq 0).pwr.waitOn 5 = some 7 ∧ (sSeq 0).thm.off = false ∧ (sSeq 0).quietNear 5 = true ∧ (∀ e, e ∈ (sSeq 0).pwr.waitOn → ¬ e.1 < 5) ∧
    100 * 1 ≤ 680 * (sSeq 0).fget F.WPW_CFG_SEQ_THR (towerOf 5) ∧
    ((sSeq 0).pwr.domOn.filter (fun u => towerOf u = towerOf 5)).length < max 1 ((sSeq 0).fget F.WPW_CFG_SEQ_PAR (towerOf 5)) ∧
    7 + 1000 * (sSeq 255).fget F.WPW_SEQ_WAIT_MAX (towerOf 5) ≤ (sSeq 255).clk.ns ∧ 5 ∉ (sSeq 255).pwr.asked ∧ (sSeq 255).quietNear 5 = false ∧
    ((withEng { eRun with power := .lull1, wake := true }).eng 5).wake = true ∧
    5 ∈ (withPwr (withEng { Eng.off with power := .off }) { Pwr.empty with domOn := [5] }).pwr.domOn := by decide +kernel

/-! ### Thermal sensing and coolant -/

def sThm (st : Nat) (x : Thm) : State := ({ at1s State.reset with thm := x } : State).fput F.COOL_TCAP_STATE 0 st
/-- Tile 5 idle in a power state. -/
def sIdleTile (p : Power) : State := withEng { Eng.off with power := p }
theorem test_thermal_witness :
    (sThm 0 Thm.empty).trust 0 5 ≠ 2 ∧
    (∀ w n, w < 4 → n < 576 → ¬((sThm 0 Thm.empty).level w n = 7 ∧ (sThm 0 Thm.empty).throttleAt w n < (sThm 0 Thm.empty).nodeF w n) ∧
      (n < 32 → (sThm 0 Thm.empty).level w n = 0)) := by
  refine ⟨by decide +kernel, ?_⟩
  have h : ∀ w, w < 4 → ∀ n, n < 576 → (sThm 0 Thm.empty).level w n = 0 := by decide +kernel
  intro w n hw hn
  simp [h w hw n hn]
theorem test_coolant_witness :
    (sThm 0 Thm.empty).thm.lastPulse + (sThm 0 Thm.empty).lossGap ≤ (sThm 0 Thm.empty).clk.ns ∧ (sThm 0 Thm.empty).coolState = 0 ∧
    (sThm 0 Thm.empty).thm.off = false ∧ (sThm 1 Thm.empty).coolState = 1 ∧ (sThm 1 Thm.empty).fget F.PWR_AVG_AVG_W 0 ≤ (sThm 1 Thm.empty).effCap ∧
    (sThm 2 Thm.empty).coolState = 2 ∧ (sThm 2 Thm.empty).qpKeys = [] ∧
    (withFlt (sThm 1 Thm.empty) { Flt.empty with conds := [0x23 * 512] }).anyOver = true ∧
    (sThm 0 { Thm.empty with flowFrom := some 0, lastPulse := 999999999 }).thm.flowFrom = some 0 ∧ 0 + 1000000000 ≤ (sThm 0 Thm.empty).clk.ns ∧
    (sThm 0 Thm.empty).clk.ns < 999999999 + (sThm 0 Thm.empty).lossGap ∧ (sThm 0 Thm.empty).thm.hot = [] ∧ (sThm 0 Thm.empty).thm.esc = 0 ∧
    0 + 10000000 ≤ (sThm 0 Thm.empty).clk.ns := by decide +kernel
theorem test_idle_witness :
    (sIdleTile .on).engineIdle 5 = true ∧ (sIdleTile .lull1).engineIdle 5 = true ∧ ((sIdleTile .on).eng 5).wake = false ∧ ((sIdleTile .on).eng 5).wiping = [] ∧
    ((sIdleTile .on).fput F.LUL_CFG_SEN_EN 0 1).moduleIdle = true ∧ ((sIdleTile .on).fput F.LUL_CFG_SEN_EN 0 1).flag F.LUL_STATE_SENTRY 0 = false ∧
    ((bitList 8 16384).length ≤ 64) ∧ ((sThm 0 { Thm.empty with senProd := [(3, 5)] }).fput F.LUL_STATE_SENTRY 0 1).flag F.LUL_STATE_SENTRY 0 = true ∧
    SMap.find (sThm 0 { Thm.empty with senProd := [(3, 5)] }).thm.senProd 3 = some 5 := by decide +kernel

/-! ### Energy -/

def withEnr (s : State) (x : Enr) : State := { s with enr := x }
/-- Metering runs, at 1 s. -/
def sEnr (x : Enr) : State := withEnr (at1s (sReady.fput F.ENR_CTL_RUN 0 1)) x
/-- Metering is off, its tables set or left over one another. -/
def sTab (good : Bool) : State :=
  ((((sCfg true).rput .ENR_ACC_LO 0 0x80000000).rput .ENR_QUEUE_LO 0 (if good then 0x90000000 else 0x80000000)).rput .ENR_STORE_LO 0 0xA0000000)
/-- The receipt of descriptor 7 of queue pair 3 waits. -/
def sRcpt : State := withEnr (at1s (sQp dClose)) { Enr.empty with wait := [⟨0, 3, 7, 0, [], false, 0⟩] }
def dFetch (leaf len : Nat) : Descr := dsc 0x40 [(16, 8, leaf), (24, 8, 0x1000), (32, 4, len)]
def sFetchR (leaf len : Nat) (x : Enr) : State := withEnr (sQp (dFetch leaf len)) x
def eBatches : Enr := { Enr.empty with batches := [(0, (0, 2)), (1, (2, 2))], toSign := [1], batch := 2, count := 1, stored := 5 }
theorem test_energy_witness :
    (sEnr Enr.empty).meterBad 5 = false ∧ (sEnr Enr.empty).gate = Gate.clear ∧ (sEnr Enr.empty).resetTower = none ∧ (sEnr Enr.empty).slotTiles = [] ∧
    (sEnr Enr.empty).clk.ns / (1000 * (sEnr Enr.empty).fget F.ENR_CFG_PERIOD_US 0) ≠ (sEnr Enr.empty).enr.pStart / (1000 * (sEnr Enr.empty).fget F.ENR_CFG_PERIOD_US 0) ∧
    (sEnr Enr.empty).enr.flushed + max 1 ((sEnr Enr.empty).fget F.ENR_CFG_RFLUSH_MS 0) * 1000000 ≤ (sEnr Enr.empty).clk.ns ∧
    (sEnr { Enr.empty with recQ := [zeros 128] }).storeRoom = true ∧ (sEnr { Enr.empty with queued := 1 }).enr.taken < 1 ∧
    sRcpt.enr.wait.find? (fun w => w.qp == 3 && w.didx == 7 && !w.posted) = some ⟨0, 3, 7, 0, [], false, 0⟩ ∧ (sRcpt.descr 3 7).isSome = true ∧
    0 + 1000 * sRcpt.fget F.ENR_CFG_WAIT_US 0 ≤ sRcpt.clk.ns ∧ (sEnr { eBatches with opened := 0 }).enr.count ≠ 0 ∧
    0 + 1000000 * (sEnr eBatches).fget F.ENR_CFG_BATCH_MS 0 ≤ (sEnr eBatches).clk.ns ∧ ((sEnr eBatches).fput F.SEC_LC_STATE 0 lcDEPLOYED).rcptSeed.isSome = true ∧
    (sEnr Enr.empty).enr.secStart / 1000000000 ≠ (sEnr Enr.empty).clk.ns / 1000000000 ∧ (sTab true).flag F.ENR_CTL_RUN 0 = false ∧
    (sTab true).enrConfigOk = true ∧ (sTab false).enrConfigOk = false := by decide +kernel
theorem test_receipt_witness :
    ([(0, 4079), (1, 4080), (2, 4080), (65536, 4080), (131072, 4080), (131073, 4080), (9, 4080)].all fun p => let d := dFetch p.1 p.2
      let s := sFetchR p.1 p.2 eBatches
      s.mayStart 3 d && s.hostOpen && decide (((s.running (.receiptFetch 3 7)).markStarted 3 d).headVerdict 3 (s.going d) (bodyZero (s.going d) [(16, 20)]) false = none)) = true ∧
    (dFetch 131073 4080).leaf / 65536 = 2 ∧ (dFetch 131072 4080).leaf % 65536 = 0 ∧
    ((sFetchR 0 4080 eBatches).daRead ((sFetchR 0 4080 eBatches).batchDa 0) 3440 4).2.2 = none := by decide +kernel

/-! ### Lock-step -/

def smm (n : Nat) : Summ := summOf n (zeros 64)
def withLck (s : State) (x : Lck) : State := { s with lck := x }
def mStep (num : Nat) (data : List Byte) : RxMsg := msg opLSTEP num 0 0 data
/-- Lock-step runs with peer 1, whose message `m` has come. -/
def sStepOf (m : RxMsg) (x : Lck) : State := withLck ((sMsg xOpen m).fput F.LCK_CFG_PEER 0 1) { x with live := true }
theorem test_lockstep_witness :
    waits (sStepOf (mStep (2 ^ 64 - 1) (zeros 32)) Lck.empty) (isOp opLSTEP) (mStep (2 ^ 64 - 1) (zeros 32)) = true ∧
    (sStepOf (mStep 5 (zeros 64)) Lck.empty).lckPeer = 1 ∧ waits (sStepOf (mStep 5 (zeros 64)) Lck.empty) (isOp opLSTEP) (mStep 5 (zeros 64)) = true ∧
    (sStepOf (mStep 5 (zeros 64)) Lck.empty).lckOpen 5 = true ∧ (sStepOf (mStep 5 (zeros 64)) Lck.empty).gate = Gate.clear ∧
    (sStepOf (mStep 5 (zeros 64)) Lck.empty).resetTower = none ∧ (sStepOf (mStep 5 (zeros 64)) Lck.empty).slotTiles = [] ∧
    (sStepOf (mStep 5 (zeros 64)) { Lck.empty with own := [smm 5] }).lck.own.find? (fun y => y.num == 5) = some (smm 5) ∧
    waits (sStepOf (mStep 5 (zeros 104)) { Lck.empty with own := [smm 5], peer := [smm 5] }) (isOp opLSTEP) (mStep 5 (zeros 104)) = true ∧
    (summOf 5 (zeros 104)).entries ≠ [] ∧
    (withLck sReady { Lck.empty with due := [(none, smm 5)] }).lck.due.find? (fun d => d.2.num == 5) = some (none, smm 5) ∧
    (withLck sReady { Lck.empty with live := true, own := [smm 5] }).lck.own.any (fun y => y.num == 5) = true := by decide +kernel

/-! ### Start-up -/

/-- A powered module in a stage. -/
def sStage (n : Nat) : State := (sOn ((sReady.fput F.BOOT_STAT_READY 0 0).fput F.BOOT_STAT_STAGE 0 n))
def withBoot (s : State) (x : Boot) : State := { s with boot := x }
theorem test_boot_witness :
    ([0, 1, 2, 3, 4, 5, 6, 7, 8, 9].all fun n => (sStage n).inStage n) = true ∧ (sStage 1).pcie.perst = false ∧ (sStage 1).linkUp = true ∧
    ((sStage 1).fput F.PCI_LINK_SPEED 0 0).linkUp = false ∧ (withFw (sStage 2) { Fw.empty with running := true }).fw.running = true ∧
    (sStage 2).fw.running = false ∧ (sStage 2).fw.recovery = false ∧ (sStage 2).fget F.FWB_STAT_STATE 0 = fbWAIT ∧ (sStage 2).hostOpen = true ∧
    SMap.get (sStage 2).boot.attempts 2 0 = 0 ∧ (sStage 2).boot.began + 10 ^ 10 ≤ ({ sStage 2 with clk := ⟨0, 10 ^ 10, 0⟩ } : State).clk.ns ∧
    (withBoot (sStage 3) { (sStage 3).boot with flowOk := true }).boot.flowOk = true ∧ (sStage 8).waits8 = false ∧
    (withBoot (sStage 8) { (sStage 8).boot with attempts := [(8, 1)] }).waits8 = true ∧
    (SMap.find (withBoot (sStage 5) { (sStage 5).boot with fullTest := true }).boot.saved 0).isNone = true := by decide +kernel

/-! ### Stated rules, steps, invariants -/

theorem test_status_witness :
    Reg.VCH_STAT.isStatus = true ∧ F.VCH_STAT_CE ∈ Reg.VCH_STAT.fields ∧ F.VCH_STAT_CE.lo < 16 ∧
    (sOn sReady).regAt 0 (regOffset .VCH_STAT 5) = some (.VCH_STAT, 5) ∧ (sOn sReady).regStarted .VCH_STAT 5 = true ∧
    (sOn sReady).regShut .VCH_STAT 5 = false ∧ bits (0 : Word).toNat 31 16 = bits ((sOn sReady).rget .VCH_STAT 5).toNat 31 16 ∧
    bits (0x10000 : Word).toNat 31 16 ≠ bits ((sOn sReady).rget .VCH_STAT 5).toNat 31 16 := by decide +kernel
theorem test_go_witness :
    sReady.passes 0 .svc ∧ sReady.hostDenied By.svc.isHost = false ∧ (sReady.fput F.GLB_FEATURES_BSC 0 1).flag F.GLB_FEATURES_BSC 0 = true ∧
    (sReady.fput F.GLB_FEATURES_BSC 0 0).flag F.GLB_FEATURES_BSC 0 = false ∧ (sReady.fput F.GLB_FEATURES_BSC 0 1).coreBusy 5 7 = false ∧
    ((sReady.fput F.GLB_FEATURES_BSC 0 1).fput F.BSC_CSTAT_LO_STATE (coreIdx 5 7) csRUN).coreBusy 5 7 = true :=
  ⟨trivial, by decide +kernel⟩
theorem test_step_takes_front_witness : ({ State.reset with pending := [.flowPulse] } : State).pending = .flowPulse :: [] := rfl
/-- The invariants hold at reset, where a step has a next state. -/
theorem test_invariant_witness :
    State.reset.memOk ∧ State.reset.spmOk ∧ State.reset.boardOk ∧ (match step State.reset with | .next _ => true | _ => false) = true := by decide +kernel
theorem test_part_witness : Part.mem ∉ partsOf .flowPulse := by decide +kernel

/-! ### Ill-formed commands -/

/-- One for each check: it is refused. -/
theorem test_ill_formed :
    ([.salu 5 0x04000000, .saddi 5 0, .slui 5 0, .sld 5 0, .sst 5 0, .br 5 0, .jal 5 0, .tret 5 0, .brk 5 0, .mxs 5 0 0 0 0, .mxw 5 0, .vop 5 0,
      .vld 5 0, .vst 5 0, .dmaq 5 0, .dmaw 5 0, .tget 5 0, .tdone 5 0, .tbar 5 0, .rdx 5 0, .halt 5 0, .sys 5 0] : List Instr).all (fun i => !i.wf) = true ∧
    ([.dispatch 16384 0, .seqOpen 16384 0, .copyRows 16384 0 [], .coalesceTimeout 16384, .vrxAck 16384, .peerReopen 16384, .stealRequest 5 5,
      .stealReply 5 5, .enginePacket 5 6 0 (2 ^ 23) ⟨0, []⟩ [], .meshPacketInject 5 5 0 1 false ⟨0, true, 0, true⟩, .meshPacketInject 5 6 0 2 false ⟨0, true, 0, true⟩,
      .meshPacketInject 5 6 1 34 false ⟨0, true, 0, true⟩, .vchRequest 5 0 false 1 0 [], .vchRequest 5 0xF9 false 1 8 [], .vchRequest 5 0 true 1 8 [0],
      .remapInstall 5 0 0x01000000, .remapCopy 5 0 0x02000000, .ropen 5 7 12, .rclose 5 7 0, .bscHalt 5 7 14] : List Instr).all (fun i => !i.wf) = true ∧
    ([.pageZeroDone (2 ^ 24), .swapPageWriteDone (2 ^ 20), .swapPageReadDone (2 ^ 20) [], .descriptorFetchDone 3 ⟨0, true⟩ (zeros 100),
      .descriptorFetchDone 3 ⟨0, true⟩ (zeros 1152), .linkUp 0 16 true, .linkUp 6 16 false, .linkUp 5 3 false, .configRequest 0 4096 none, .configRequest 0 2 none,
      .bar4Read ⟨(2 ^ 33), none⟩ 1, .bar4Read ⟨0, none⟩ 0, .bar4Write ⟨0, none⟩ [], .capStep 0 0 [] [] [] [], .thmModelUpdate 0 [] [], .conditionReraise 65536,
      .quietExpiry 65536, .sqcWrite 0 2 0, .parityCheck 0 (2 ^ 26), .registerWrite 0 1 0 .svc] : List Instr).all (fun i => !i.wf) = true ∧
    ([.salu 5 0, .sys 5 0xE4000000, .salu 5 0x14000000, .dispatch 16383 0, .meshPacketInject 5 6 1 33 false ⟨0, true, 0, true⟩, .vchRequest 5 0xF8 false 1 8 [],
      .remapInstall 5 0 0x02000000, .linkUp 6 16 true, .registerWrite 0 0x3FFFFFC 0 .svc] : List Instr).all Instr.wf = true := by decide +kernel

end Sys2Proof.Tests
end

section
/-! What the fuses give (O57). The register map `regs` is read by `SMap.find`, which stops at the first larger key; `State.idOk` says what
such reads give, and says nothing of the order of the keys. A partial reset drops entries of the map, so in a map that is not sorted it
can uncover an entry that no read saw before. -/

namespace Sys2Proof.Machine

/-- A register map out of order: an entry of the fuse map, behind a larger key of engine 1's window. -/
def shadowedRegs : SMap Word := [(Reg.RST_STATE.key 0, 0x102), (Reg.MXA_CFG.key 1, 0), (Reg.GLB_FUSEMAP.key 1, 1)]

/-- A tile reset of engine 1 stands in EMPTY with nothing in flight, over that register map. -/
def shadowedState : State := { State.reset with pending := [.resetBoundaryEmpty], regs := shadowedRegs }

/-- The last entry is behind a larger key, so only the first two can be read. -/
theorem find_shadowedRegs {k : Nat} (hrst : k ≠ Reg.RST_STATE.key 0) (hmxa : k ≠ Reg.MXA_CFG.key 1) : SMap.find shadowedRegs k = none := by
  have hlt : Reg.GLB_FUSEMAP.key 1 < Reg.MXA_CFG.key 1 := by decide
  unfold shadowedRegs
  simp only [SMap.find, if_neg hrst, if_neg hmxa]
  split
  · rfl
  · split
    · rfl
    · rw [if_neg (by omega), if_neg (by omega)]

theorem shadowedState_idOk : shadowedState.idOk := by
  intro r hr i
  have hne : r ≠ .RST_STATE ∧ r ≠ .MXA_CFG := by constructor <;> rintro rfl <;> simp at hr
  have hfind : SMap.find shadowedState.regs (r.key i) = none :=
    find_shadowedRegs (fun h => hne.1 (Reg.key_inj.mp h).1) (fun h => hne.2 (Reg.key_inj.mp h).1)
  rw [State.rget, hfind, Option.getD_none]

/-- The reset of the engine drops its entry, and the one behind it is read. -/
theorem step_shadowedState : ∃ u, step shadowedState = .next u ∧ u.rget .GLB_FUSEMAP 1 = 1 :=
  ⟨_, rfl, by decide +kernel⟩

/-- Refutes O57: in a state whose register map is out of order every read of a fused register gives what the fuses give, and the reset of an
engine uncovers another value of `GLB_FUSEMAP`. The statement lacks the hypothesis that the register map is sorted. -/
theorem not_stepKeepsIdentity : ¬ Obligations.StepKeepsIdentity := by
  unfold Obligations.StepKeepsIdentity
  intro h
  obtain ⟨u, hstep, hread⟩ := step_shadowedState
  have hfuse : u.rget .GLB_FUSEMAP 1 = BitVec.ofNat 32 (Reg.rst .GLB_FUSEMAP 1) :=
    h shadowedState u shadowedState_idOk hstep .GLB_FUSEMAP (by simp) 1
  rw [hread] at hfuse
  exact absurd hfuse (by decide)

end Sys2Proof.Machine
end

section
/-! Reads and writes of device memory in a state in which no bank holds a request: they leave the gate alone, and every register outside
`vchRegs`. `State.settle` therefore answers what the command's own meaning gives. -/

namespace Sys2Proof.Machine

/-! ### Registers that an operation leaves alone -/

theorem State.sameRegs_refl (s : State) (l : List Reg) : s.sameRegs s l := fun _ _ _ => rfl
theorem State.sameRegs.trans {s u v : State} {l : List Reg} (h : s.sameRegs u l) (h' : u.sameRegs v l) : s.sameRegs v l :=
  fun r i hr => (h' r i hr).trans (h r i hr)
theorem State.sameRegs.mono {s u : State} {l l' : List Reg} (h : s.sameRegs u l) (hl : l ⊆ l') : s.sameRegs u l' :=
  fun r i hr => h r i (fun hm => hr (hl hm))
theorem State.sameRegs_of_regs {s u : State} (l : List Reg) (h : u.regs = s.regs) : s.sameRegs u l :=
  fun r i _ => by rw [State.rget, h, State.rget]
theorem State.sameRegs.fget {s u : State} {l : List Reg} (h : s.sameRegs u l) (f : Field) (i : Nat) (hf : f.reg ∉ l) (ha : f.app ≠ .staged) :
    u.fget f i = s.fget f i := by
  rw [State.fget, State.fget, if_neg ha, if_neg ha, h _ _ hf]
theorem State.sameRegs.flag {s u : State} {l : List Reg} (h : s.sameRegs u l) (f : Field) (i : Nat) (hf : f.reg ∉ l) (ha : f.app ≠ .staged) :
    u.flag f i = s.flag f i := by
  rw [State.flag, State.flag, h.fget f i hf ha]
theorem State.sameRegs.ite {s a b : State} {l : List Reg} (c : Prop) [Decidable c] (ha : s.sameRegs a l) (hb : s.sameRegs b l) :
    s.sameRegs (if c then a else b) l := by
  split
  · exact ha
  · exact hb
theorem State.rput_sameRegs (s : State) {r : Reg} {l : List Reg} (hr : r ∈ l) (i : Nat) (w : Word) : s.sameRegs (s.rput r i w) l :=
  fun _ _ hq => State.rget_rput_other s w (fun h => hq (h.1 ▸ hr))
theorem State.fput_sameRegs (s : State) {f : Field} {l : List Reg} (hf : f.reg ∈ l) (i v : Nat) : s.sameRegs (s.fput f i v) l :=
  s.rput_sameRegs hf i _
theorem State.event_sameRegs (s : State) {f : Field} {l : List Reg} (hf : f.reg ∈ l) (i : Nat) : s.sameRegs (s.event f i) l :=
  s.rput_sameRegs hf i _
theorem State.raiseAs_sameRegs (s : State) (l : List Reg) (ty inst loc arg code : Nat) (svc : Bool) :
    s.sameRegs (s.raiseAs ty inst loc arg code svc) l :=
  sameRegs_of_regs l (raiseAs_keeps (φ := State.regs) (fun _ _ => rfl) s ty inst loc arg code svc)
theorem State.raise_sameRegs (s : State) (l : List Reg) (ty inst arg code : Nat) : s.sameRegs (s.raise ty inst arg code) l :=
  s.raiseAs_sameRegs l ty inst (srcLoc ty inst) arg code false
theorem State.foldl_sameRegs {α : Type} {l : List Reg} (g : State → α → State) (hg : ∀ (s : State) (a : α), s.sameRegs (g s a) l) :
    ∀ (as : List α) (s : State), s.sameRegs (as.foldl g s) l
  | [], s => s.sameRegs_refl l
  | a :: as, s => (hg s a).trans (State.foldl_sameRegs g hg as (g s a))

/-! ### The channels write `vchRegs` alone -/

theorem State.bucketAdd_sameRegs (s : State) (t : Nat) : s.sameRegs (s.bucketAdd t) vchRegs := by
  unfold State.bucketAdd
  dsimp only
  split
  · exact ((s.event_sameRegs (by decide) t).trans (State.raise_sameRegs _ _ _ _ _ _)).trans (State.fput_sameRegs _ (by decide) _ _)
  · exact s.fput_sameRegs (by decide) _ _
theorem State.candidate_sameRegs (s : State) (t key : Nat) (ue : Bool) : s.sameRegs (s.candidate t key ue) vchRegs := by
  unfold State.candidate
  dsimp only
  have hstop : ∀ p, s.sameRegs (s.setStop t p) vchRegs := fun _ => State.sameRegs_of_regs _ rfl
  split
  · exact (hstop _).trans (State.event_sameRegs _ (by decide) _)
  · exact (((hstop _).trans (State.rput_sameRegs _ (by decide) _ _)).trans (State.event_sameRegs _ (by decide) _)).trans
      (State.raiseAs_sameRegs _ _ _ _ _ _ _ _)
theorem State.trackAdd_sameRegs (s : State) (t key : Nat) : s.sameRegs (s.trackAdd t key) vchRegs := by
  unfold State.trackAdd
  dsimp only
  split
  · exact s.candidate_sameRegs t key false
  · exact State.sameRegs_of_regs _ rfl
theorem State.countCorrection_sameRegs (s : State) (t key : Nat) : s.sameRegs (s.countCorrection t key) vchRegs :=
  (((s.fput_sameRegs (by decide) t _).trans (State.event_sameRegs _ (by decide) t)).trans (State.bucketAdd_sameRegs _ t)).trans
    (State.trackAdd_sameRegs _ t key)
theorem State.recordUe_sameRegs (s : State) (t da src : Nat) : s.sameRegs (s.recordUe t da src) vchRegs :=
  ((((s.rput_sameRegs (by decide) t _).trans (State.rput_sameRegs _ (by decide) t _)).trans (State.event_sameRegs _ (by decide) t)).trans
    (State.raiseAs_sameRegs _ _ _ _ _ _ _ _)).trans (State.candidate_sameRegs _ t _ true)
theorem State.writeBack_sameRegs (s : State) (pl : Nat) (ws : List (List Byte × Check)) (l : List Reg) : s.sameRegs (s.writeBack pl ws) l :=
  sameRegs_of_regs l (writeBack_keeps (φ := State.regs) (fun _ _ => rfl) (fun _ _ => rfl) (fun _ _ => rfl) s pl ws)
theorem State.atomRead_sameRegs (s : State) (da src ondie : Nat) : s.sameRegs (s.atomRead da src ondie).1 vchRegs := by
  unfold State.atomRead
  dsimp only
  have hcount := fun c : Bool =>
    State.sameRegs.ite (c = true) (s.countCorrection_sameRegs (da / 2 ^ 32) (offRowKey (da % 2 ^ 32))) (s.sameRegs_refl _)
  refine State.sameRegs.trans (.ite _ ((hcount _).trans (State.writeBack_sameRegs _ _ _ _)) (hcount _)) (State.foldl_sameRegs _ (fun a p => ?_) _ _)
  exact .ite _ (a.recordUe_sameRegs _ _ _) (a.sameRegs_refl _)
theorem State.note_sameRegs (s : State) (da : Nat) (write : Bool) (l : List Reg) : s.sameRegs (s.note da write) l :=
  sameRegs_of_regs l (note_keeps (φ := State.regs) (fun _ _ => rfl) (fun _ _ => rfl) s da write)
theorem State.atomBytes_sameRegs (s : State) (da k src : Nat) : s.sameRegs (s.atomBytes da k src).1 vchRegs :=
  (s.note_sameRegs da false _).trans (State.atomRead_sameRegs _ da src 0)
theorem State.daReadGo_sameRegs (fuel : Nat) : ∀ (s : State) (da n src : Nat), s.sameRegs (State.daReadGo fuel s da n src).1 vchRegs := by
  induction fuel with
  | zero => exact fun s _ _ _ => s.sameRegs_refl _
  | succ fuel ih =>
    intro s da n src
    unfold State.daReadGo
    dsimp only
    split
    · exact s.sameRegs_refl _
    · split
      · exact s.atomBytes_sameRegs _ _ _
      · exact (s.atomBytes_sameRegs _ _ _).trans (ih _ _ _ _)
theorem State.daRead_sameRegs (s : State) (da n src : Nat) : s.sameRegs (s.daRead da n src).1 vchRegs := State.daReadGo_sameRegs _ s da n src
theorem State.putWord_sameRegs (s : State) (pl : Nat) (bs : List Byte) (l : List Reg) : s.sameRegs (s.putWord pl bs) l :=
  sameRegs_of_regs l rfl
theorem State.wordWrite_sameRegs (s : State) (da : Nat) (bs : List Byte) : s.sameRegs (s.wordWrite da bs).1 vchRegs := by
  have hnote := s.note_sameRegs da true vchRegs
  have hread := hnote.trans (State.atomRead_sameRegs (s.note da true) da 6 0)
  unfold State.wordWrite
  dsimp only
  split
  · exact hnote.trans (State.putWord_sameRegs _ _ _ _)
  · split
    · split
      · exact hread
      · exact hread.trans (State.putWord_sameRegs _ _ _ _)
    · exact hread
theorem State.daWriteGo_sameRegs (fuel : Nat) : ∀ (s : State) (da : Nat) (bs : List Byte), s.sameRegs (State.daWriteGo fuel s da bs).1 vchRegs := by
  induction fuel with
  | zero => exact fun s _ _ => s.sameRegs_refl _
  | succ fuel ih =>
    intro s da bs
    unfold State.daWriteGo
    dsimp only
    split
    · exact s.sameRegs_refl _
    · split
      · exact s.wordWrite_sameRegs _ _
      · exact (s.wordWrite_sameRegs _ _).trans (ih _ _ _)
theorem State.daWrite_sameRegs (s : State) (da : Nat) (bs : List Byte) : s.sameRegs (s.daWrite da bs).1 vchRegs :=
  State.daWriteGo_sameRegs _ s da bs

/-! ### A calm state: no bank holds a request -/

/-- Nothing is lent, held for training, copied or being read, no stop is in scheduled-slot mode and no tower is closed: whatever asks, no
bank holds it (R122, R126, R131, R141, R157, R158, R384). -/
def State.calm (s : State) : Prop := s.gate = { Gate.clear with who := s.gate.who } ∧ s.resetTower = none

theorem State.running_calm {s : State} (h : s.gateOpen) (c : Instr) : (s.running c).calm := by
  obtain ⟨hgate, htower, hslots⟩ := h
  refine ⟨?_, htower⟩
  simp only [State.running, hgate, hslots, Gate.clear]
theorem State.resetTower_of_sameRegs {s u : State} {l : List Reg} (h : s.sameRegs u l) (hl : .RST_STATE ∉ l) : u.resetTower = s.resetTower := by
  unfold State.resetTower
  rw [h.fget F.RST_STATE_PHASE 0 hl (by decide), h.fget F.RST_STATE_SCOPE 0 hl (by decide), h.fget F.RST_STATE_TARGET 0 hl (by decide)]
/-- Calm lasts as long as the gate and the state of the resets do. -/
theorem State.calm.of_same {s u : State} {l : List Reg} (h : s.calm) (hgate : u.gate = s.gate) (hregs : s.sameRegs u l) (hl : .RST_STATE ∉ l) :
    u.calm := ⟨by rw [hgate]; exact h.1, (State.resetTower_of_sameRegs hregs hl).trans h.2⟩
theorem State.calm.bankHeld {s : State} (h : s.calm) (t off : Nat) (write : Bool) : s.bankHeld t off write = false := by
  obtain ⟨hgate, htower⟩ := h
  rw [State.bankHeld, htower, hgate]
  simp [Gate.clear, SMap.find]
theorem State.calm.note_gate {s : State} (h : s.calm) (da : Nat) (write : Bool) : (s.note da write).gate = s.gate := by
  have hreqs : s.gate.reqs = [] := by rw [h.1]; rfl
  unfold State.note
  simp only [h.bankHeld, hreqs, List.any_nil, Bool.or_self, Bool.false_eq_true, if_false]
  exact State.openRow_keeps (φ := State.gate) (fun _ _ => rfl) s _ _
theorem State.calm.note {s : State} (h : s.calm) (da : Nat) (write : Bool) : (s.note da write).calm :=
  h.of_same (h.note_gate da write) (s.note_sameRegs da write vchRegs) (by decide)
theorem State.atomRead_gate (s : State) (da src ondie : Nat) : (s.atomRead da src ondie).1.gate = s.gate :=
  atomRead_keeps (φ := State.gate) (fun _ _ => rfl) (fun _ _ => rfl) (fun _ _ => rfl) (fun _ _ => rfl) (fun _ _ => rfl) (fun _ _ => rfl) s da src ondie
theorem State.calm.atomBytes_gate {s : State} (h : s.calm) (da k src : Nat) : (s.atomBytes da k src).1.gate = s.gate :=
  (State.atomRead_gate (s.note da false) da src 0).trans (h.note_gate da false)
theorem State.calm.atomBytes {s : State} (h : s.calm) (da k src : Nat) : (s.atomBytes da k src).1.calm :=
  h.of_same (h.atomBytes_gate da k src) (s.atomBytes_sameRegs da k src) (by decide)
theorem State.calm.daReadGo_gate (fuel : Nat) : ∀ {s : State}, s.calm → ∀ da n src, (State.daReadGo fuel s da n src).1.gate = s.gate := by
  induction fuel with
  | zero => exact fun _ _ _ _ => rfl
  | succ fuel ih =>
    intro s h da n src
    unfold State.daReadGo
    dsimp only
    split
    · rfl
    · split
      · exact h.atomBytes_gate _ _ _
      · exact (ih (h.atomBytes _ _ _) _ _ _).trans (h.atomBytes_gate _ _ _)
theorem State.calm.daRead_gate {s : State} (h : s.calm) (da n src : Nat) : (s.daRead da n src).1.gate = s.gate :=
  State.calm.daReadGo_gate _ h da n src
theorem State.calm.wordWrite_gate {s : State} (h : s.calm) (da : Nat) (bs : List Byte) : (s.wordWrite da bs).1.gate = s.gate := by
  have hread := (State.atomRead_gate (s.note da true) da 6 0).trans (h.note_gate da true)
  unfold State.wordWrite
  dsimp only
  split
  · exact h.note_gate da true
  · split
    · split <;> exact hread
    · exact hread
theorem State.calm.wordWrite {s : State} (h : s.calm) (da : Nat) (bs : List Byte) : (s.wordWrite da bs).1.calm :=
  h.of_same (h.wordWrite_gate da bs) (s.wordWrite_sameRegs da bs) (by decide)
theorem State.calm.daWriteGo_gate (fuel : Nat) : ∀ {s : State}, s.calm → ∀ da bs, (State.daWriteGo fuel s da bs).1.gate = s.gate := by
  induction fuel with
  | zero => exact fun _ _ _ => rfl
  | succ fuel ih =>
    intro s h da bs
    unfold State.daWriteGo
    dsimp only
    split
    · rfl
    · split
      · exact h.wordWrite_gate _ _
      · exact (ih (h.wordWrite _ _) _ _).trans (h.wordWrite_gate _ _)
theorem State.calm.daWrite_gate {s : State} (h : s.calm) (da : Nat) (bs : List Byte) : (s.daWrite da bs).1.gate = s.gate :=
  State.calm.daWriteGo_gate _ h da bs

/-! ### A command that no bank holds takes effect at once -/

/-- With the gate open, and left alone by the command's meaning, the command is not held. -/
theorem State.settle_of_gate {s : State} (h : s.gateOpen) (c : Instr) (k : State → State) (hk : (k (s.running c)).gate = (s.running c).gate) :
    s.settle c k = { k (s.running c) with gate := s.gate } := by
  obtain ⟨hgate, -, hslots⟩ := h
  have hk' : (k (s.running c)).gate = { Gate.clear with who := some (.cmd c) } := by
    rw [hk, State.running, hgate, hslots]
    rfl
  have hback : { (k (s.running c)).gate with
      who := s.gate.who, slots := s.gate.slots, blk := s.gate.blk
      held := (k (s.running c)).gate.held.filter (·.who ≠ .cmd c), serve := (k (s.running c)).gate.serve.filter (·.2 ≠ .cmd c) } = s.gate := by
    rw [hk', hgate]
    rfl
  have hfree : (k (s.running c)).gate.blk.isEmpty = true := by rw [hk']; rfl
  exact (congrArg Prod.fst (if_pos hfree)).trans (congrArg (fun g => { k (s.running c) with gate := g }) hback)

end Sys2Proof.Machine
end

section
/-! Completion records: what `State.complete` writes into host memory, and what it leaves alone. -/

namespace Sys2Proof.Machine

/-! ### Bytes put into host memory -/

theorem leBytes_length : ∀ n v, (leBytes n v).length = n
  | 0, _ => rfl
  | n + 1, v => by rw [leBytes, List.length_cons, leBytes_length n]
theorem padTo_length (n : Nat) (bs : List Byte) : (padTo n bs).length = n := by
  simp only [padTo, List.length_take, List.length_append, List.length_replicate]
  omega
/-- Bytes put from offset `k` on leave what lies before it. -/
theorem find_putBytes_below (addr i : Nat) : ∀ (bs : List Byte) (k : Nat) (m : SMap Byte), i < k →
    SMap.find ((bs.zipIdx k).foldl (fun h p => SMap.put h (addr + p.2) p.1) m) (addr + i) = SMap.find m (addr + i)
  | [], _, _, _ => rfl
  | b :: bs, k, m, h => by
    rw [List.zipIdx_cons, List.foldl_cons, find_putBytes_below addr i bs (k + 1) _ (by omega), SMap.find_put_other b (by omega)]
/-- Each of them is found at its place. -/
theorem find_putBytes (addr : Nat) : ∀ (bs : List Byte) (k : Nat) (m : SMap Byte) (i : Nat), i < bs.length →
    SMap.find ((bs.zipIdx k).foldl (fun h p => SMap.put h (addr + p.2) p.1) m) (addr + (k + i)) = some (bs.getD i 0)
  | b :: bs, k, m, 0, _ => by
    rw [List.zipIdx_cons, List.foldl_cons, find_putBytes_below addr (k + 0) bs (k + 1) _ (by omega)]
    exact SMap.find_put_same _ b m
  | b :: bs, k, m, i + 1, h => by
    have hi : k + (i + 1) = k + 1 + i := by omega
    rw [List.zipIdx_cons, List.foldl_cons, hi]
    exact find_putBytes addr bs (k + 1) _ i (by simpa using h)
/-- A host write that the link serves and the host accepts stands in host memory. -/
theorem State.find_hostWrite {s : State} {addr : Nat} {bs : List Byte} (hopen : s.hostOpen = true) (hfails : s.hostFails addr bs.length = false)
    {i : Nat} (hi : i < bs.length) : SMap.find (s.hostWrite addr bs).host (addr + i) = some (bs.getD i 0) := by
  have h := find_putBytes addr bs 0 s.host i hi
  rw [Nat.zero_add] at h
  simp only [State.hostWrite, hopen, if_true, State.hostPut, hfails, Bool.false_eq_true, if_false]
  exact h

/-! ### One record (R243, R252, R256) -/

/-- The record of completion index `n` of queue pair `q` (R256). -/
def State.cqRecord (s : State) (q n didx status type cflags : Nat) (tag result : List Byte) : List Byte :=
  leBytes 4 didx ++ leBytes 2 status ++ leBytes 1 type ++ leBytes 1 (cflags + (1 - n / s.cqSize q % 2)) ++ padTo 8 tag ++ padTo 16 result
theorem State.cqRecord_length (s : State) (q n didx status type cflags : Nat) (tag result : List Byte) :
    (s.cqRecord q n didx status type cflags tag result).length = 32 := by
  simp only [State.cqRecord, List.length_append, leBytes_length, padTo_length]
/-- The record stands at its place in the ring, when it is written and the host takes it. -/
theorem State.find_writeRecord {s : State} {q didx : Nat} (hopen : s.hostOpen = true) (hdead : s.descrDead q didx = false)
    (hmute : s.qpMute q = false) (hfails : s.hostFails (s.cqSlot q (s.qp q).cqProd) 32 = false) (status type cflags : Nat) (tag result : List Byte)
    (irq : Bool) {i : Nat} (hi : i < 32) :
    SMap.find (s.writeRecord q didx status type cflags tag result irq).host (s.cqSlot q (s.qp q).cqProd + i) =
      some ((s.cqRecord q (s.qp q).cqProd didx status type cflags tag result).getD i 0) := by
  have hlen := s.cqRecord_length q (s.qp q).cqProd didx status type cflags tag result
  unfold State.writeRecord
  simp only [hdead, hmute, hfails, Bool.or_self, Bool.and_false, Bool.false_eq_true, if_false]
  rw [State.completeIrq_keeps (φ := State.host) (fun _ _ => rfl) (fun _ _ => rfl) (fun _ _ => rfl) (fun _ _ => rfl)]
  exact State.find_hostWrite hopen (hlen ▸ hfails) (hlen ▸ hi)

/-! ### The end of a descriptor -/

/-- The descriptors of a queue pair are those set last. -/
theorem State.closed_descr (s : State) (q idx n : Nat) (x : Qp) :
    (((s.setQp q x).fput F.CMD_QP_STATE_INFLIGHT q n).headSync q).descr q idx = x.find idx :=
  congrArg (Qp.find · idx) (s.qp_setQp_same q x)
theorem find_filter_idx_ne (ring : List Descr) (idx : Nat) : (ring.filter (·.idx ≠ idx)).find? (·.idx == idx) = none := by
  rw [List.find?_eq_none]
  intro e he
  simpa using (List.mem_filter.mp he).2
/-- Once complete, the descriptor has left its queue pair. -/
theorem State.complete_descr (s : State) (q : Nat) (d : Descr) (status : Nat) (result : List Byte) :
    (s.complete q d status result).descr q d.idx = none :=
  (drainCheck_keeps (φ := fun u => u.descr q d.idx) (fun _ _ => rfl) _ q).trans
    ((State.closed_descr _ q d.idx _ _).trans (find_filter_idx_ne _ d.idx))
/-- What follows the record leaves host memory alone. -/
theorem State.complete_host {s : State} {d : Descr} {status : Nat} (hst : status ≠ stCONF_DENIED) (hrec : (d.quiet && decide (status = 0)) = false)
    (q : Nat) (result : List Byte) :
    (s.complete q d status result).host = (s.writeRecord q d.idx status d.type 0 d.tag result d.irq).host := by
  unfold State.complete State.completeKeep
  simp only [if_neg hst, hrec, Bool.false_eq_true, if_false]
  rw [State.drainCheck_keeps (φ := State.host) (fun _ _ => rfl), State.headSync_keeps (φ := State.host) (fun _ _ => rfl)]
  rfl
theorem State.complete_gate (s : State) (q : Nat) (d : Descr) (status : Nat) (result : List Byte) : (s.complete q d status result).gate = s.gate :=
  complete_keeps (φ := State.gate) (fun _ _ => rfl) (fun _ _ => rfl) (fun _ _ => rfl) (fun _ _ => rfl) (fun _ _ => rfl) (fun _ _ => rfl)
    s q d status result
theorem State.complete_fab (s : State) (q : Nat) (d : Descr) (status : Nat) (result : List Byte) : (s.complete q d status result).fab = s.fab :=
  complete_keeps (φ := State.fab) (fun _ _ => rfl) (fun _ _ => rfl) (fun _ _ => rfl) (fun _ _ => rfl) (fun _ _ => rfl) (fun _ _ => rfl)
    s q d status result

/-! ### Registers that a completion may write -/

/-- The status of the queue pair, and what a failed or waiting host write records. -/
def completeRegs : List Reg := [.CMD_QP_STATE, .CMD_STAT, .PCI_STAT, .SEC_STAT]

theorem State.headSync_sameRegs (s : State) (q : Nat) (l : List Reg) : s.sameRegs (s.headSync q) l := sameRegs_of_regs l rfl
theorem State.outWait_sameRegs (s : State) (o : HostOut) : s.sameRegs (s.outWait o) completeRegs :=
  (s.event_sameRegs (f := F.PCI_STAT_IDE_WAIT) (by decide) 0).trans (State.sameRegs_of_regs _ rfl)
theorem State.msi_sameRegs (s : State) (f vec : Nat) : s.sameRegs (s.msi f vec) completeRegs :=
  .ite _ (sameRegs_of_regs _ (msiSend_keeps (φ := State.regs) (fun _ _ => rfl) (fun _ _ => rfl) s f vec))
    (.ite _ (s.outWait_sameRegs _) (s.sameRegs_refl _))
theorem State.hostWrite_sameRegs (s : State) (addr : Nat) (bs : List Byte) : s.sameRegs (s.hostWrite addr bs) completeRegs :=
  .ite _ (sameRegs_of_regs _ (hostPut_keeps (φ := State.regs) (fun _ _ => rfl) s addr bs)) (.ite _ (s.outWait_sameRegs _) (s.sameRegs_refl _))
theorem State.setQp_sameRegs (s : State) (q : Nat) (x : Qp) (l : List Reg) : s.sameRegs (s.setQp q x) l := sameRegs_of_regs l rfl
theorem State.completeIrq_sameRegs (s : State) (q : Nat) (urgent : Bool) : s.sameRegs (s.completeIrq q urgent) completeRegs :=
  .ite _ (s.sameRegs_refl _) (.ite _ ((s.setQp_sameRegs q _ _).trans (State.msi_sameRegs _ _ _)) (s.setQp_sameRegs q _ _))
theorem State.qpError_sameRegs (s : State) (q code : Nat) : s.sameRegs (s.qpError q code) completeRegs :=
  ((((s.fput_sameRegs (f := F.CMD_QP_STATE_STATE) (by decide) q _).trans (State.fput_sameRegs _ (f := F.CMD_QP_STATE_ERR) (by decide) q _)).trans
    (State.event_sameRegs _ (f := F.CMD_STAT_QP_ERR) (by decide) _)).trans (State.raise_sameRegs _ _ _ _ _ _)).trans (State.headSync_sameRegs _ _ _)
theorem State.drainCheck_sameRegs (s : State) (q : Nat) : s.sameRegs (s.drainCheck q) completeRegs :=
  .ite _ (s.fput_sameRegs (f := F.CMD_QP_STATE_STATE) (by decide) q _) (s.sameRegs_refl _)
theorem State.writeRecord_sameRegs (s : State) (q didx status type cflags : Nat) (tag result : List Byte) (irq : Bool) :
    s.sameRegs (s.writeRecord q didx status type cflags tag result irq) completeRegs := by
  have herr := fun f => s.event_sameRegs (f := F.CMD_STAT_HOST_ERR) (l := completeRegs) (by decide) f
  refine .ite _ (s.sameRegs_refl _) (.ite _ (.ite _ ((herr _).trans (State.qpError_sameRegs _ _ _)) (herr _)) ?_)
  exact ((s.hostWrite_sameRegs _ _).trans (State.setQp_sameRegs _ _ _ _)).trans (State.completeIrq_sameRegs _ _ _)
theorem State.complete_sameRegs (s : State) (q : Nat) (d : Descr) (status : Nat) (result : List Byte) :
    s.sameRegs (s.complete q d status result) completeRegs := by
  have hdeny : s.sameRegs (if status = stCONF_DENIED then s.event F.SEC_STAT_CONF_DENY 0 else s) completeRegs :=
    .ite _ (s.event_sameRegs (by decide) 0) (s.sameRegs_refl _)
  have hrec := State.sameRegs.ite ((d.quiet && decide (status = 0)) = true) hdeny
    (hdeny.trans (State.writeRecord_sameRegs _ q d.idx status d.type 0 d.tag result d.irq))
  exact (((hrec.trans (State.setQp_sameRegs _ _ _ _)).trans (State.fput_sameRegs _ (f := F.CMD_QP_STATE_INFLIGHT) (by decide) _ _)).trans
    (State.headSync_sameRegs _ _ _)).trans (State.drainCheck_sameRegs _ _)

/-! ### A descriptor under way -/

/-- The registers that the writing of a record reads. -/
def recordRegs : List Reg := [.PCI_LINK, .PCI_CFG, .CMD_QP_CFG, .CMD_QP_CQ_LO, .CMD_QP_CQ_HI, .CMD_QP_STATE]

/-- In `a`, descriptor `d` of queue pair `q` has started since `s` and has not completed, and nothing that its record depends on has
changed. -/
structure State.underway (s a : State) (q : Nat) (d : Descr) : Prop where
  descr : a.descr q d.idx = some (s.going d)
  gen : (a.qp q).gen = (s.qp q).gen
  prod : (a.qp q).cqProd = (s.qp q).cqProd
  pcie : a.pcie = s.pcie
  regs : ∀ r, r ∈ recordRegs → ∀ i, a.rget r i = s.rget r i

theorem State.underway.fget {s a : State} {q : Nat} {d : Descr} (h : s.underway a q d) (f : Field) (i : Nat) (hf : f.reg ∈ recordRegs)
    (ha : f.app ≠ .staged) : a.fget f i = s.fget f i := by
  rw [State.fget, State.fget, if_neg ha, if_neg ha, h.regs _ hf]
theorem State.underway.hostOpen {s a : State} {q : Nat} {d : Descr} (h : s.underway a q d) : a.hostOpen = s.hostOpen := by
  unfold State.hostOpen State.linkUp State.flag
  rw [h.fget F.PCI_LINK_SPEED 0 (by decide) (by decide), h.fget F.PCI_CFG_IDE_REQ 0 (by decide) (by decide),
    h.fget F.PCI_LINK_IDE_SECURE 0 (by decide) (by decide)]
theorem State.underway.cqSize {s a : State} {q : Nat} {d : Descr} (h : s.underway a q d) : a.cqSize q = s.cqSize q := by
  rw [State.cqSize, State.cqSize, h.fget F.CMD_QP_CFG_CQ_LOG2 q (by decide) (by decide)]
theorem State.underway.cqSlot {s a : State} {q : Nat} {d : Descr} (h : s.underway a q d) (n : Nat) : a.cqSlot q n = s.cqSlot q n := by
  unfold State.cqSlot State.get64
  rw [h.cqSize, h.regs _ (by decide), h.regs _ (by decide)]
theorem State.underway.qpMute {s a : State} {q : Nat} {d : Descr} (h : s.underway a q d) : a.qpMute q = s.qpMute q := by
  rw [State.qpMute, State.qpMute, h.fget F.CMD_QP_STATE_ERR q (by decide) (by decide)]
theorem State.underway.hostFails {s a : State} {q : Nat} {d : Descr} (h : s.underway a q d) (addr n : Nat) : a.hostFails addr n = s.hostFails addr n := by
  rw [State.hostFails, State.hostFails, h.pcie]
theorem State.underway.descrDead {s a : State} {q : Nat} {d : Descr} (h : s.underway a q d) (i : Nat) : a.descrDead q i = s.descrDead q i := by
  rw [State.descrDead, State.descrDead, h.gen]

/-- A descriptor under way that completes has completed since `s`. -/
theorem State.underway.completed {s a : State} {q : Nat} {d : Descr} (h : s.underway a q d) {status : Nat} (hst : status ≠ stCONF_DENIED)
    (result : List Byte) : s.completed (a.complete q (s.going d) status result) q d status 0 result := by
  refine ⟨a.complete_descr q (s.going d) status result, ?_⟩
  intro n rec_ hopen hdead hmute hfails hquiet i hi
  have hrec := State.find_writeRecord (s := a) (q := q) (didx := d.idx) (h.hostOpen.trans hopen) ((h.descrDead _).trans hdead) (h.qpMute.trans hmute)
    (by rw [h.prod, h.cqSlot, h.hostFails]; exact hfails) status d.type 0 d.tag result d.irq hi
  rw [h.prod, h.cqSlot, State.cqRecord, h.cqSize] at hrec
  have hq : ((s.going d).quiet && decide (status = 0)) = false := hquiet
  rw [State.complete_host hst hq]
  exact hrec
theorem State.setDescr_qp (s : State) (q : Nat) (d : Descr) :
    (s.setDescr q d).qp q = { s.qp q with ring := (s.qp q).ring.map (fun e => if e.idx = d.idx then d else e) } := s.qp_setQp_same q _
theorem State.markStarted_qp (s : State) (q : Nat) (d : Descr) :
    (s.markStarted q d).qp q = { s.qp q with
      ring := (s.qp q).ring.map (fun e => if e.idx = d.idx then s.going d else e), reserved := (s.qp q).reserved + d.entries } :=
  (State.qp_setQp_same _ q _).trans (by rw [State.setDescr_qp]; rfl)
/-- A descriptor replaced by one of its index is found in its place. -/
theorem find_map_idx {ring : List Descr} {d d' : Descr} (hd' : d'.idx = d.idx) (h : ring.find? (·.idx == d.idx) = some d) :
    (ring.map (fun e => if e.idx = d.idx then d' else e)).find? (·.idx == d.idx) = some d' := by
  have hsame : (fun e : Descr => (if e.idx = d.idx then d' else e).idx == d.idx) = (·.idx == d.idx) := by
    funext e
    split <;> simp_all
  simp only [List.find?_map, Function.comp_def, hsame, h, Option.map_some, if_true]
/-- A descriptor that starts is under way. -/
theorem State.running_markStarted_underway {s : State} {q idx : Nat} {d : Descr} (c : Instr) (h : s.descr q idx = some d) :
    s.underway ((s.running c).markStarted q d) q d := by
  have hidx : d.idx = idx := by simpa using List.find?_some h
  have hqp := (s.running c).markStarted_qp q d
  have hfind : (s.qp q).ring.find? (·.idx == d.idx) = some d := by rw [hidx]; exact h
  refine ⟨?_, by rw [hqp]; rfl, by rw [hqp]; rfl, rfl, fun _ _ _ => rfl⟩
  rw [State.descr, hqp]
  exact find_map_idx (d' := s.going d) rfl hfind

end Sys2Proof.Machine
end

section
/-! The traffic of the fabric: messages that are posted and sent, and the reads and writes of device memory that they need. In a calm state it
leaves alone the gate, host memory, the queue pairs and every register but those of `fabRegs`. -/

namespace Sys2Proof.Machine

/-! ### What traffic leaves alone -/

/-- The registers that traffic may write: those of the channels, the counters of resends, the end of a drain. -/
def fabRegs : List Reg := vchRegs ++ [.DET_CAUSE, .EXH_DRAINED, .TSK_TDC, .VRX_STAT, .VRX_TDC]
/-- The parts that a completion depends on, and the EXPERT_MAPs that wait for answers. -/
def State.side (s : State) : Cmd × Pcie × SMap Byte × List MapWait := (s.cmd, s.pcie, s.host, s.fab.maps)

/-- `u` follows from `s` by traffic. -/
structure State.traffic (s u : State) : Prop where
  gate : u.gate = s.gate
  regs : s.sameRegs u fabRegs
  side : u.side = s.side

theorem State.traffic_refl (s : State) : s.traffic s := ⟨rfl, s.sameRegs_refl _, rfl⟩
theorem State.traffic.trans {s u v : State} (h : s.traffic u) (h' : u.traffic v) : s.traffic v :=
  ⟨h'.gate.trans h.gate, h.regs.trans h'.regs, h'.side.trans h.side⟩
theorem State.traffic.ite {s a b : State} (c : Prop) [Decidable c] (ha : s.traffic a) (hb : s.traffic b) : s.traffic (if c then a else b) := by
  split
  · exact ha
  · exact hb
theorem State.traffic.calm {s u : State} (h : s.traffic u) (hs : s.calm) : u.calm := hs.of_same h.gate h.regs (by decide)
theorem State.traffic.maps {s u : State} (h : s.traffic u) : u.fab.maps = s.fab.maps := congrArg (·.2.2.2) h.side
theorem State.traffic.cmd {s u : State} (h : s.traffic u) : u.cmd = s.cmd := congrArg (·.1) h.side
theorem State.traffic.pcie {s u : State} (h : s.traffic u) : u.pcie = s.pcie := congrArg (·.2.1) h.side
theorem State.traffic.host {s u : State} (h : s.traffic u) : u.host = s.host := congrArg (·.2.2.1) h.side
theorem State.traffic.underway {s a u : State} {q : Nat} {d : Descr} (h : s.underway a q d) (ht : a.traffic u) : s.underway u q d where
  descr := by rw [← h.descr, State.descr, State.descr, State.qp, State.qp, ht.cmd]
  gen := by rw [← h.gen, State.qp, State.qp, ht.cmd]
  prod := by rw [← h.prod, State.qp, State.qp, ht.cmd]
  pcie := ht.pcie.trans h.pcie
  regs r hr i := (ht.regs r i (fun hm => (by decide : ∀ q ∈ recordRegs, q ∉ fabRegs) r hr hm)).trans (h.regs r hr i)

/-! ### Memory -/

theorem vchRegs_subset_fabRegs : vchRegs ⊆ fabRegs := List.subset_append_left _ _
theorem State.calm.daRead_traffic {s : State} (h : s.calm) (da n src : Nat) : s.traffic (s.daRead da n src).1 :=
  ⟨h.daRead_gate da n src, (s.daRead_sameRegs da n src).mono vchRegs_subset_fabRegs,
    daRead_keeps (φ := State.side) (fun _ _ => rfl) (fun _ _ => rfl) (fun _ _ => rfl) (fun _ _ => rfl) (fun _ _ => rfl) (fun _ _ => rfl)
      (fun _ _ => rfl) s da n src⟩
theorem State.calm.daWrite_traffic {s : State} (h : s.calm) (da : Nat) (bs : List Byte) : s.traffic (s.daWrite da bs).1 :=
  ⟨h.daWrite_gate da bs, (s.daWrite_sameRegs da bs).mono vchRegs_subset_fabRegs,
    daWrite_keeps (φ := State.side) (fun _ _ => rfl) (fun _ _ => rfl) (fun _ _ => rfl) (fun _ _ => rfl) (fun _ _ => rfl) (fun _ _ => rfl)
      (fun _ _ => rfl) s da bs⟩
theorem State.free_traffic (s : State) (w : Nat) : s.traffic (s.free w).2 := ⟨rfl, fun _ _ _ => rfl, rfl⟩
theorem State.calm.fabRead_traffic {s : State} (h : s.calm) (da n : Nat) : s.traffic (s.fabRead da n).1 :=
  (s.free_traffic 3).trans (((s.free_traffic 3).calm h).daRead_traffic da n _)
theorem State.raise_traffic (s : State) (ty inst arg code : Nat) : s.traffic (s.raise ty inst arg code) :=
  ⟨raise_keeps (φ := State.gate) (fun _ _ => rfl) s ty inst arg code, s.raise_sameRegs _ ty inst arg code,
    raise_keeps (φ := State.side) (fun _ _ => rfl) s ty inst arg code⟩
theorem State.calm.peerState_traffic {s : State} (h : s.calm) (i : Nat) : s.traffic (s.peerState i).1 := by
  unfold State.peerState
  split
  · exact s.traffic_refl
  · dsimp only
    split <;> exact h.daRead_traffic _ _ _
theorem State.calm.exhRead_traffic {s : State} (h : s.calm) (e : Nat) : s.traffic (s.exhRead e).1 := by
  unfold State.exhRead
  dsimp only
  split
  · exact h.daRead_traffic _ _ _
  · exact (h.daRead_traffic _ _ _).trans (State.raise_traffic _ _ _ _ _)
theorem State.calm.statusWord_traffic {s : State} (h : s.calm) (x : Send) (status old : Nat) : s.traffic (s.statusWord x status old) :=
  .ite _ (h.daWrite_traffic _ _) s.traffic_refl
theorem State.calm.tokRoute_traffic {s : State} (h : s.calm) (x : Send) : s.traffic (s.tokRoute x).1 :=
  (h.exhRead_traffic _).trans (((h.exhRead_traffic _).calm h).fabRead_traffic _ _)

/-! ### Packets -/

theorem State.setPeer_traffic (s : State) (i : Nat) (x : Peer) : s.traffic (s.setPeer i x) := ⟨rfl, fun _ _ _ => rfl, rfl⟩
theorem State.useCredit_traffic (s : State) (i : Nat) : s.traffic (s.useCredit i) := .ite _ (s.setPeer_traffic i _) (s.setPeer_traffic i _)
theorem State.spray_traffic (s : State) (ps : List Nat) : s.traffic (s.spray ps).1 := by
  unfold State.spray
  dsimp only
  split
  · exact s.traffic_refl
  · exact ⟨rfl, fun _ _ _ => rfl, rfl⟩
theorem State.dportOf_traffic (s : State) (i : Nat) : s.traffic (s.dportOf i).1 := by
  unfold State.dportOf
  dsimp only
  split
  · exact s.setPeer_traffic i _
  · exact s.free_traffic 3
theorem State.sendPacket_traffic (s : State) (i p op psn msn off mlen tag arg0 arg1 : Nat) (fence last : Bool) (payload : List Byte) :
    s.traffic (s.sendPacket i p op psn msn off mlen tag arg0 arg1 fence last payload) :=
  (s.dportOf_traffic i).trans ⟨rfl, fun _ _ _ => rfl, rfl⟩
theorem State.sendControl_traffic (s : State) (i op arg0 : Nat) : s.traffic (s.sendControl i op arg0) := by
  unfold State.sendControl
  dsimp only
  split
  · exact s.spray_traffic _
  · exact (s.spray_traffic _).trans (State.sendPacket_traffic _ _ _ _ _ _ _ _ _ _ _ _ _ _)
theorem State.pumpGo_traffic (fuel : Nat) : ∀ (s : State) (i : Nat), s.traffic (State.pumpGo fuel s i) := by
  induction fuel with
  | zero => exact fun s _ => s.traffic_refl
  | succ fuel ih =>
    intro s i
    unfold State.pumpGo
    dsimp only
    split
    · exact s.traffic_refl
    · split
      · exact s.traffic_refl
      · split
        · exact s.traffic_refl
        · exact (((s.spray_traffic _).trans (State.setPeer_traffic _ i _)).trans (State.sendPacket_traffic _ _ _ _ _ _ _ _ _ _ _ _ _ _)).trans
            (ih _ i)
theorem State.pump_traffic (s : State) (i : Nat) : s.traffic (s.pump i) := State.pumpGo_traffic 128 s i

/-! ### Messages -/

/-- Posting a message is traffic, but for what its poster sees when the peer cannot be reached. -/
theorem State.calm.post_cases {s : State} (h : s.calm) (i op : Nat) (fence : Bool) (tag arg0 arg1 len : Nat) (data : List Byte) (reply : Bool)
    (o : Owner) : s.traffic (s.post i op fence tag arg0 arg1 len data reply o) ∨
      ∃ v status, s.traffic v ∧ s.post i op fence tag arg0 arg1 len data reply o = v.ownerEnd i o status 0 := by
  have hpeer := h.peerState_traffic i
  unfold State.post
  dsimp only
  split
  · exact .inl (hpeer.trans (State.setPeer_traffic _ i _))
  · split
    · exact .inr ⟨_, vsUNREACH, hpeer, rfl⟩
    · split
      · exact .inr ⟨_, vsREMOVED, hpeer, rfl⟩
      · refine .inl ((hpeer.trans (State.setPeer_traffic _ i _)).trans (.ite _ ?_ (State.pump_traffic _ i)))
        exact (State.setPeer_traffic _ i _).trans (State.sendControl_traffic _ _ _ _)
/-- The end of a message that no EXPERT_MAP posted is traffic. -/
theorem State.calm.ownerEnd_traffic {s : State} (h : s.calm) (i : Nat) {o : Owner} (ho : ∀ qp idx, o ≠ .map qp idx) (status old : Nat) :
    s.traffic (s.ownerEnd i o status old) := by
  cases o with
  | ring t x => exact h.statusWord_traffic x status old
  | cut t d => exact s.traffic_refl
  | map qp idx => exact absurd rfl (ho qp idx)
  | plain => exact s.traffic_refl
theorem plain_ne_map : ∀ qp idx, Owner.plain ≠ .map qp idx := by simp
theorem ring_ne_map (t : Nat) (x : Send) : ∀ qp idx, Owner.ring t x ≠ .map qp idx := by simp
theorem State.calm.post_traffic {s : State} (h : s.calm) (i op : Nat) (fence : Bool) (tag arg0 arg1 len : Nat) (data : List Byte) (reply : Bool)
    {o : Owner} (ho : ∀ qp idx, o ≠ .map qp idx) : s.traffic (s.post i op fence tag arg0 arg1 len data reply o) := by
  rcases h.post_cases i op fence tag arg0 arg1 len data reply o with hpost | ⟨v, status, hv, hpost⟩
  · exact hpost
  · rw [hpost]
    exact hv.trans ((hv.calm h).ownerEnd_traffic i ho status 0)
theorem State.detCause_traffic (s : State) (k b : Nat) : s.traffic (s.detCause k b) := by
  unfold State.detCause
  split
  · exact s.traffic_refl
  · exact State.traffic.trans (u := s.setDisp k _) ⟨rfl, fun _ _ _ => rfl, rfl⟩ ⟨rfl, State.fput_sameRegs _ (by decide) _ _, rfl⟩
theorem State.vrxTdc_traffic (s : State) (o : Owner) : s.traffic (s.vrxTdc o) := by
  have hcount : s.traffic (s.fadd F.VRX_TDC_COUNT 0 1) := ⟨rfl, s.fput_sameRegs (by decide) _ _, rfl⟩
  unfold State.vrxTdc
  dsimp only
  split
  · split
    · refine hcount.trans (.ite _ (State.traffic.trans (u := State.fadd _ F.TSK_TDC_TDC _ 1) ?_ (State.detCause_traffic _ _ _)) ⟨rfl, fun _ _ _ => rfl, rfl⟩)
      exact ⟨rfl, State.fput_sameRegs _ (by decide) _ _, rfl⟩
    · exact hcount
  · exact hcount

/-! ### The expert home table -/

theorem State.calm.foldl_traffic {α : Type} (g : State → α → State) (hg : ∀ (s : State) (a : α), s.calm → s.traffic (g s a)) :
    ∀ (as : List α) {s : State}, s.calm → s.traffic (as.foldl g s)
  | [], s, _ => s.traffic_refl
  | a :: as, s, h => (hg s a h).trans (State.calm.foldl_traffic g hg as ((hg s a h).calm h))
theorem State.calm.exhApply_traffic {s : State} (h : s.calm) (e : Nat) (g : List Byte) : s.traffic (s.exhApply e g).1 := by
  have hread := h.exhRead_traffic e
  unfold State.exhApply
  dsimp only
  split
  · exact hread
  · have hwrite := hread.trans ((hread.calm h).daWrite_traffic (State.exhDa (s.exhRead e).1 e) (padTo 16 g))
    exact hwrite.trans (State.calm.foldl_traffic _ (fun a i ha => ha.post_traffic _ _ _ _ _ _ _ _ _ plain_ne_map) _ (hwrite.calm h))
theorem State.calm.drainCheckExp_traffic {s : State} (h : s.calm) (e : Nat) : s.traffic (s.drainCheckExp e) := by
  have hread := h.exhRead_traffic e
  unfold State.drainCheckExp
  split
  · exact s.traffic_refl
  · next need got _ =>
    dsimp only
    split
    · exact hread
    · have hcount := hread.trans ((hread.calm h).daWrite_traffic (State.exhDa (s.exhRead e).1 e + 16)
        (putAt (((s.exhRead e).2.drop 16).take 8) 4 4 got.length))
      refine .ite _ ?_ hcount
      refine (hcount.trans ((hcount.calm h).daWrite_traffic _ _)).trans ⟨rfl, ?_, rfl⟩
      exact (State.rput_sameRegs _ (by decide) _ _).trans (State.event_sameRegs _ (by decide) _)

end Sys2Proof.Machine
end

section
/-! Send rings (R222, R223, R230). -/

namespace Sys2Proof.Machine

/-! ### Traffic in turn -/

/-- Traffic follows on traffic, in a state that is still calm. -/
theorem State.calm.then {s u v : State} (h : s.calm) (hu : s.traffic u) (hv : u.calm → u.traffic v) : s.traffic v := hu.trans (hv (hu.calm h))
theorem State.fab_traffic (s : State) (x : Fab) (hx : x.maps = s.fab.maps) : s.traffic { s with fab := x } :=
  ⟨rfl, fun _ _ _ => rfl, by simp only [State.side, hx]⟩
/-- A command whose meaning is traffic is not held. -/
theorem State.settle_of_traffic {s a : State} (h : s.gateOpen) (c : Instr) (k : State → State) (hk : k (s.running c) = a)
    (ht : (s.running c).traffic a) : s.settle c k = { a with gate := s.gate } := by
  rw [State.settle_of_gate h c k (hk ▸ ht.gate), hk]

/-! ### FXR_RING_POLL -/

/-- Taking descriptors from a ring is traffic. -/
theorem State.ringTake_traffic (fuel : Nat) : ∀ {s : State}, s.calm → ∀ t prod, s.traffic (State.ringTake fuel s t prod) := by
  induction fuel with
  | zero => exact fun {s} _ _ _ => s.traffic_refl
  | succ fuel ih =>
    intro s h t prod
    unfold State.ringTake
    dsimp only
    split
    · exact s.traffic_refl
    · exact h.then (h.daRead_traffic _ _ _) fun hread => hread.then (State.fab_traffic _ _ (by rfl)) fun htaken =>
        htaken.then (htaken.daWrite_traffic _ _) fun hwritten => ih hwritten t prod
/-- The fabric engine reads the producer word and takes descriptors up to it. -/
theorem exec_fxrRingPoll {s : State} (hopen : s.gateOpen) {t : Fin 128} (hen : s.flag F.FXR_CFG_EN t = true) (hrun : s.flag F.VRX_CTL_RUN 0 = true)
    (hshut : s.pathShut t = false) {s1 : State} {w : List Byte}
    (hread : (s.running (.fxrRingPoll t)).daRead (s.fxrBase t) 8 4 = (s1, w, none)) :
    exec (.fxrRingPoll t) s = .next { s1.ringTake 64 t (leAt w 0 4) with gate := s.gate } := by
  have hcalm := State.running_calm hopen (.fxrRingPoll t)
  have hs1 : (s.running (.fxrRingPoll t)).traffic s1 := by
    have h := hcalm.daRead_traffic (s.fxrBase t) 8 4
    rwa [hread] at h
  refine congrArg Host.Outcome.next (State.settle_of_traffic hopen _ _ ?_ (hcalm.then hs1 fun h => State.ringTake_traffic 64 h t _))
  have hen' : (s.running (.fxrRingPoll t)).flag F.FXR_CFG_EN t = true := hen
  have hrun' : (s.running (.fxrRingPoll t)).flag F.VRX_CTL_RUN 0 = true := hrun
  have hshut' : (s.running (.fxrRingPoll t)).pathShut t = false := hshut
  have hread' : (s.running (.fxrRingPoll t)).daRead ((s.running (.fxrRingPoll t)).fxrBase t) 8 4 = (s1, w, none) := hread
  simp only [hen', hrun', hshut', hread', Bool.not_true, Bool.or_self, Bool.false_eq_true, if_false, Option.isSome_none]

/-! ### SEND_MESSAGE -/

/-- The `k`-th waiting descriptor `x` of tile `t` may start its message: every earlier one waits for credit, and none stands before a fenced
one (R222). -/
structure State.sendReady (s : State) (t : Fin 128) (k : Nat) (x : Send) : Prop where
  shut : s.pathShut t = false
  found : (SMap.get s.fab.sends t [])[k]? = some x
  ahead : ((SMap.get s.fab.sends t []).take k).any (fun y => !s.waitsCredit y) = false
  fence : (decide (0 < k) && bitOf x.flags 0) = false

/-- The state without the `k`-th waiting descriptor of tile `t`. -/
def State.takeSend (s : State) (t k : Nat) : State :=
  { s with fab := { s.fab with sends := SMap.put s.fab.sends t ((SMap.get s.fab.sends t []).eraseIdx k) } }
theorem State.takeSend_traffic (s : State) (t k : Nat) : s.traffic (s.takeSend t k) := s.fab_traffic _ rfl

theorem running_sendReady {s : State} {t : Fin 128} {k : Nat} {x : Send} (hshut : s.pathShut t = false)
    (hfound : (SMap.get s.fab.sends t [])[k]? = some x)
    (hahead : ((SMap.get s.fab.sends t []).take k).all (s.running (.sendMessage t k)).waitsCredit = true)
    (hfence : k = 0 ∨ bitOf x.flags 0 = false) : (s.running (.sendMessage t k)).sendReady t k x where
  shut := hshut
  found := hfound
  ahead := by
    rw [← Bool.not_eq_true', ← List.all_eq_not_any_not]
    exact hahead
  fence := by
    rcases hfence with rfl | h
    · rfl
    · rw [h, Bool.and_false]

theorem running_tokFits {s : State} (c : Instr) {x : Send} (hop : x.op = opTOK) (hbad : x.bad = false)
    (hlen : x.len ≤ 2 ^ (13 + s.fget F.VRX_RXPOOL_SLOT_LOG2 0)) : (s.running c).tokFits x = true := by
  have hlen' : x.len ≤ 2 ^ (13 + (s.running c).fget F.VRX_RXPOOL_SLOT_LOG2 0) := hlen
  simp [State.tokFits, hop, hbad, hlen']

section
variable {s : State} {t : Fin 128} {k : Nat} {x : Send}

/-- A malformed descriptor ends BAD_DESC. -/
theorem exec_sendMessage_bad (hopen : s.gateOpen) (h : (s.running (.sendMessage t k)).sendReady t k x) (hbad : x.bad = true) :
    exec (.sendMessage t k) s =
      .next { ((s.running (.sendMessage t k)).takeSend t k).statusWord x vsBAD_DESC 0 with gate := s.gate } := by
  have hcalm := State.running_calm hopen (.sendMessage t k)
  refine congrArg Host.Outcome.next (State.settle_of_traffic hopen _ _ ?_
    (hcalm.then (State.takeSend_traffic _ t k) fun htaken => htaken.statusWord_traffic _ _ _))
  simp only [h.shut, h.found, h.ahead, h.fence, hbad, Bool.or_self, Bool.true_or, Bool.false_eq_true, if_false, if_true]
  rfl
/-- A WRITE whose source reads is posted with its bytes. -/
theorem exec_sendMessage_write (hopen : s.gateOpen) (h : (s.running (.sendMessage t k)).sendReady t k x) (hbad : x.bad = false) (hop : x.op = opWRITE)
    {s1 : State} {bs : List Byte} (hread : (s.running (.sendMessage t k)).fabRead x.src x.len = (s1, bs, none)) :
    exec (.sendMessage t k) s = .next { (s1.takeSend t k).post x.dest opWRITE (bitOf x.flags 0) x.tag x.arg0
      (if bitOf x.flags 2 then x.arg1 else 0) x.len bs false (.ring t x) with gate := s.gate } := by
  have hcalm := State.running_calm hopen (.sendMessage t k)
  have hs1 : (s.running (.sendMessage t k)).traffic s1 := by
    have ht := hcalm.fabRead_traffic x.src x.len
    rwa [hread] at ht
  refine congrArg Host.Outcome.next (State.settle_of_traffic hopen _ _ ?_ (hcalm.then hs1 fun hdata => hdata.then (s1.takeSend_traffic t k)
    fun htaken => htaken.post_traffic _ _ _ _ _ _ _ _ _ (ring_ne_map t x)))
  have hne : (opWRITE = opTOK) = False := eq_false (by decide)
  simp only [h.shut, h.found, h.ahead, h.fence, hbad, hop, hne, hread, decide_false, Bool.false_and, Bool.or_self, Bool.false_eq_true, if_false,
    if_true, Option.isSome_none]
  rfl
/-- A READ_REQ or a FETCH_ADD is posted without bytes and awaits its reply. -/
theorem exec_sendMessage_request (hopen : s.gateOpen) (h : (s.running (.sendMessage t k)).sendReady t k x) (hbad : x.bad = false)
    (hop : x.op = opREAD_REQ ∨ x.op = opFETCH_ADD) :
    exec (.sendMessage t k) s = .next { ((s.running (.sendMessage t k)).takeSend t k).post x.dest x.op (bitOf x.flags 0) x.tag x.arg0 x.arg1 x.len
      [] true (.ring t x) with gate := s.gate } := by
  have hcalm := State.running_calm hopen (.sendMessage t k)
  refine congrArg Host.Outcome.next (State.settle_of_traffic hopen _ _ ?_ (hcalm.then (State.takeSend_traffic _ t k)
    fun htaken => htaken.post_traffic _ _ _ _ _ _ _ _ _ (ring_ne_map t x)))
  have hops : x.op ≠ opTOK ∧ x.op ≠ opWRITE := by rcases hop with hop | hop <;> rw [hop] <;> decide
  simp only [h.shut, h.found, h.ahead, h.fence, hbad, hops.1, hops.2, decide_false, Bool.false_and, Bool.or_self, Bool.false_eq_true, if_false]
  rfl

/-! Token records (R226, R230). -/

/-- A record that fits a slot and whose expert is ABSENT ends NO_HOME. -/
theorem exec_sendMessage_noHome (hopen : s.gateOpen) (h : (s.running (.sendMessage t k)).sendReady t k x) (hbad : x.bad = false) (hop : x.op = opTOK)
    (hfits : (s.running (.sendMessage t k)).tokFits x = true) {s1 : State} {bs : List Byte} {lost : Bool}
    (hroute : (s.running (.sendMessage t k)).tokRoute x = (s1, none, bs, lost)) :
    exec (.sendMessage t k) s = .next { (s1.takeSend t k).statusWord x vsNO_HOME 0 with gate := s.gate } := by
  have hcalm := State.running_calm hopen (.sendMessage t k)
  have hs1 : (s.running (.sendMessage t k)).traffic s1 := by
    have ht := hcalm.tokRoute_traffic x
    rwa [hroute] at ht
  refine congrArg Host.Outcome.next (State.settle_of_traffic hopen _ _ ?_ (hcalm.then hs1 fun hrouted => hrouted.then (s1.takeSend_traffic t k)
    fun htaken => htaken.statusWord_traffic _ _ _))
  simp only [h.shut, h.found, h.ahead, h.fence, hbad, hop, hfits, hroute, Bool.not_true, Bool.and_false, Bool.or_self, Bool.false_eq_true, if_false,
    if_true]
  rfl

section
variable {s1 s2 : State} {home gen st : Nat} {bs : List Byte}

/-- A record whose home is unreachable ends UNREACH. -/
theorem exec_sendMessage_unreach (hopen : s.gateOpen) (h : (s.running (.sendMessage t k)).sendReady t k x) (hbad : x.bad = false) (hop : x.op = opTOK)
    (hfits : (s.running (.sendMessage t k)).tokFits x = true)
    (hroute : (s.running (.sendMessage t k)).tokRoute x = (s1, some (home, gen), bs, false)) (hpeer : s1.peerState home = (s2, psUNREACH)) :
    exec (.sendMessage t k) s = .next { (s2.takeSend t k).statusWord x vsUNREACH 0 with gate := s.gate } := by
  have hcalm := State.running_calm hopen (.sendMessage t k)
  have hs1 : (s.running (.sendMessage t k)).traffic s1 := by
    have ht := hcalm.tokRoute_traffic x
    rwa [hroute] at ht
  have hs2 : s1.traffic s2 := by
    have ht := (hs1.calm hcalm).peerState_traffic home
    rwa [hpeer] at ht
  refine congrArg Host.Outcome.next (State.settle_of_traffic hopen _ _ ?_ (hcalm.then (hs1.trans hs2) fun hrouted =>
    hrouted.then (s2.takeSend_traffic t k) fun htaken => htaken.statusWord_traffic _ _ _))
  have hne : psUNREACH ≠ psVALID := by decide
  simp only [h.shut, h.found, h.ahead, h.fence, hbad, hop, hfits, hroute, hpeer, hne, ne_eq, not_false_eq_true, Bool.not_true, Bool.and_false,
    Bool.or_self, Bool.false_eq_true, if_false, if_true]
  rfl
/-- Without credit at its home, credit is asked for once, for every record of the ring that a slot holds (R224). -/
theorem exec_sendMessage_askCredit (hopen : s.gateOpen) (h : (s.running (.sendMessage t k)).sendReady t k x) (hbad : x.bad = false)
    (hop : x.op = opTOK) (hfits : (s.running (.sendMessage t k)).tokFits x = true)
    (hroute : (s.running (.sendMessage t k)).tokRoute x = (s1, some (home, gen), bs, false)) (hpeer : s1.peerState home = (s2, psVALID))
    (hcredit : s1.creditAt home = 0) (hasked : (s1.peer home).asked = false) :
    exec (.sendMessage t k) s = .next { (s1.setPeer home { s1.peer home with asked := true }).post home opCREDIT false 1
      ((SMap.get s.fab.sends t []).filter (s.running (.sendMessage t k)).tokFits).length 0 0 [] false .plain with gate := s.gate } := by
  have hcalm := State.running_calm hopen (.sendMessage t k)
  have hs1 : (s.running (.sendMessage t k)).traffic s1 := by
    have ht := hcalm.tokRoute_traffic x
    rwa [hroute] at ht
  refine congrArg Host.Outcome.next (State.settle_of_traffic hopen _ _ ?_ (hcalm.then hs1 fun hrouted =>
    hrouted.then (s1.setPeer_traffic home _) fun hmarked => hmarked.post_traffic _ _ _ _ _ _ _ _ _ plain_ne_map))
  simp only [h.shut, h.found, h.ahead, h.fence, hbad, hop, hfits, hroute, hpeer, hcredit, hasked, ne_eq, not_true_eq_false, Bool.not_true,
    Bool.and_false, Bool.or_self, Bool.false_eq_true, if_false, if_true]
  rfl
/-- With credit at its home, the record is posted and the credit used; a resend counts (R237). -/
theorem exec_sendMessage_token (hopen : s.gateOpen) (h : (s.running (.sendMessage t k)).sendReady t k x) (hbad : x.bad = false)
    (hop : x.op = opTOK) (hfits : (s.running (.sendMessage t k)).tokFits x = true)
    (hroute : (s.running (.sendMessage t k)).tokRoute x = (s1, some (home, gen), bs, false)) (hpeer : s1.peerState home = (s2, psVALID))
    (hcredit : 0 < s1.creditAt home) {s3 : State}
    (hs3 : s3 = if 0 < x.tries then ((s1.takeSend t k).useCredit home).vrxTdc (.ring t x) else (s1.takeSend t k).useCredit home) :
    exec (.sendMessage t k) s = .next { s3.post home opTOK (bitOf x.flags 0) x.tag (x.arg0 % 2 ^ 16 + 2 ^ 16 * gen) 0 x.len bs false (.ring t x)
      with gate := s.gate } := by
  have hcalm := State.running_calm hopen (.sendMessage t k)
  have hs1 : (s.running (.sendMessage t k)).traffic s1 := by
    have ht := hcalm.tokRoute_traffic x
    rwa [hroute] at ht
  have huse := (s1.takeSend_traffic t k).trans (State.useCredit_traffic _ home)
  have hcount : s1.traffic s3 := hs3 ▸ .ite _ (huse.trans (State.vrxTdc_traffic _ _)) huse
  refine congrArg Host.Outcome.next (State.settle_of_traffic hopen _ _ ?_ (hcalm.then (hs1.trans hcount) fun hcounted =>
    hcounted.post_traffic _ _ _ _ _ _ _ _ _ (ring_ne_map t x)))
  have hne : s1.creditAt home ≠ 0 := by omega
  simp only [h.shut, h.found, h.ahead, h.fence, hbad, hop, hfits, hroute, hpeer, hne, hs3, ne_eq, not_true_eq_false, Bool.not_true,
    Bool.and_false, Bool.or_self, Bool.false_eq_true, if_false, if_true]
  rfl

end
end

end Sys2Proof.Machine
end

section
/-! EXPERT_MAP (R229, R232): the entry it stores, and the answers it awaits when it broadcasts. -/

namespace Sys2Proof.Machine

/-! ### The answers to a broadcast -/

/-- An EXPERT_MAP with this key waits for answers. -/
def State.mapWaits (s : State) (qp idx : Nat) : Prop := ∃ w, w ∈ s.fab.maps ∧ w.qp = qp ∧ w.idx = idx
/-- The broadcast of `d`, begun in `b`, is under way in `a`: the EXPERT_MAP waits and its descriptor has not completed, or it waits no
more and the descriptor has completed with status OK. -/
structure State.mapping (s b a : State) (qp : Nat) (d : Descr) : Prop where
  gate : a.gate = b.gate
  calm : a.calm
  ends : (a.mapWaits qp d.idx ∧ s.underway a qp d) ∨ (¬ a.mapWaits qp d.idx ∧ ∃ res, s.completed a qp d stOK 0 res)

/-- What has completed stays so while queue pairs and host memory stay as they are. -/
theorem State.completed_of_same {s u v : State} {q : Nat} {d : Descr} {st fl : Nat} {res : List Byte} (h : s.completed u q d st fl res)
    (hcmd : v.cmd = u.cmd) (hhost : v.host = u.host) : s.completed v q d st fl res := by
  refine ⟨?_, fun hopen hdead hmute hfails hquiet i hi => ?_⟩
  · rw [← h.1, State.descr, State.descr, State.qp, State.qp, hcmd]
  · rw [hhost]
    exact h.2 hopen hdead hmute hfails hquiet i hi
theorem State.mapping.traffic {s b a v : State} {qp : Nat} {d : Descr} (h : s.mapping b a qp d) (ht : a.traffic v) : s.mapping b v qp d where
  gate := ht.gate.trans h.gate
  calm := ht.calm h.calm
  ends := by
    have hwaits : v.mapWaits qp d.idx ↔ a.mapWaits qp d.idx := by rw [State.mapWaits, State.mapWaits, ht.maps]
    rw [hwaits]
    rcases h.ends with ⟨hw, hu⟩ | ⟨hw, res, hc⟩
    · exact .inl ⟨hw, ht.underway hu⟩
    · exact .inr ⟨hw, res, State.completed_of_same hc ht.cmd ht.host⟩
/-- The state with other EXPERT_MAPs waiting. -/
def State.setMaps (s : State) (l : List MapWait) : State := { s with fab := { s.fab with maps := l } }
theorem State.setMaps_sameRegs (s : State) (l : List MapWait) (rs : List Reg) : s.sameRegs (s.setMaps l) rs := fun _ _ _ => rfl
theorem State.setMaps_calm {s : State} (h : s.calm) (l : List MapWait) : (s.setMaps l).calm :=
  h.of_same rfl (s.setMaps_sameRegs l []) (by decide)
theorem State.underway.setMaps {s a : State} {q : Nat} {d : Descr} (h : s.underway a q d) (l : List MapWait) : s.underway (a.setMaps l) q d where
  descr := h.descr
  gen := h.gen
  prod := h.prod
  pcie := h.pcie
  regs := h.regs
/-- Completing a descriptor keeps the state calm. -/
theorem State.calm.complete {s : State} (h : s.calm) (q : Nat) (d : Descr) (status : Nat) (result : List Byte) : (s.complete q d status result).calm :=
  h.of_same (s.complete_gate q d status result) (s.complete_sameRegs q d status result) (by decide)
theorem find_map_none_iff (l : List MapWait) (qp idx : Nat) :
    l.find? (fun m => m.qp == qp && m.idx == idx) = none ↔ ¬ ∃ w, w ∈ l ∧ w.qp = qp ∧ w.idx = idx := by
  simp [List.find?_eq_none]
/-- One answer: the EXPERT_MAP waits on, or its last answer completes it. -/
theorem State.mapping.mapAnswer {s b a : State} {qp : Nat} {d : Descr} (h : s.mapping b a qp d) (i : Nat) (ok : Bool) :
    s.mapping b (a.mapAnswer qp d.idx i ok) qp d := by
  unfold State.mapAnswer
  split
  · exact h
  · next m hm =>
    obtain ⟨hmem, hqp, hidx⟩ : m ∈ a.fab.maps ∧ m.qp = qp ∧ m.idx = d.idx :=
      ⟨List.mem_of_find?_eq_some hm, by simpa using List.find?_some hm⟩
    have hunder : s.underway a qp d := by
      rcases h.ends with ⟨_, hu⟩ | ⟨hw, _⟩
      · exact hu
      · exact absurd ⟨m, hmem, hqp, hidx⟩ hw
    dsimp only
    split
    · refine ⟨h.gate, State.setMaps_calm h.calm _, .inl ⟨?_, hunder.setMaps _⟩⟩
      exact ⟨_, List.mem_map_of_mem hmem, by simp [hqp, hidx]⟩
    · have hfree := hunder.setMaps (a.fab.maps.filter (fun y => !(y.qp == qp && y.idx == d.idx)))
      unfold State.kvComplete
      split
      · next hnone => exact absurd (hnone.symm.trans hfree.descr) (by simp)
      · next e he =>
        obtain rfl : e = s.going d := Option.some.inj (he.symm.trans hfree.descr)
        refine ⟨(State.complete_gate _ _ _ _ _).trans h.gate, (State.setMaps_calm h.calm _).complete _ _ _ _,
          .inr ⟨?_, _, hfree.completed (by decide) _⟩⟩
        rw [State.mapWaits, State.complete_fab]
        rintro ⟨w, hw, hwqp, hwidx⟩
        simp [hwqp, hwidx] at hw
/-- A message of the broadcast is on its way, or ends at once. -/
theorem State.mapping.post {s b a : State} {qp : Nat} {d : Descr} (h : s.mapping b a qp d) (i op : Nat) (fence : Bool) (tag arg0 arg1 len : Nat)
    (data : List Byte) (reply : Bool) : s.mapping b (a.post i op fence tag arg0 arg1 len data reply (.map qp d.idx)) qp d := by
  rcases h.calm.post_cases i op fence tag arg0 arg1 len data reply (.map qp d.idx) with hpost | ⟨v, status, hv, hpost⟩
  · exact h.traffic hpost
  · rw [hpost]
    exact (h.traffic hv).mapAnswer i (status == vsOK)

/-- The broadcast of R229: the EXPERT_MAP waits for an answer of each peer, to which a GEN message with the global part goes. -/
def State.broadcast (s : State) (qp idx e : Nat) (g : List Byte) (ps : List Nat) : State :=
  ps.foldl (fun a i => a.post i opGEN false 0 e 0 16 g false (.map qp idx)) (s.setMaps (s.fab.maps ++ [⟨qp, idx, e, ps, 0, 0⟩]))
theorem State.mapping.posts {s b : State} {qp : Nat} {d : Descr} (e : Nat) (g : List Byte) :
    ∀ (ps : List Nat) {a : State}, s.mapping b a qp d →
      s.mapping b (ps.foldl (fun a i => a.post i opGEN false 0 e 0 16 g false (.map qp d.idx)) a) qp d
  | [], _, h => h
  | _ :: ps, _, h => State.mapping.posts e g ps (h.post _ _ _ _ _ _ _ _ _)
theorem State.underway.broadcast {s a : State} {qp : Nat} {d : Descr} (h : s.underway a qp d) (hcalm : a.calm) (e : Nat) (g : List Byte)
    (ps : List Nat) : s.mapping a (a.broadcast qp d.idx e g ps) qp d :=
  State.mapping.posts e g ps ⟨rfl, State.setMaps_calm hcalm _, .inl ⟨⟨_, List.mem_append_right _ List.mem_cons_self, rfl, rfl⟩, h.setMaps _⟩⟩

/-! ### The entry that EXPERT_MAP stores -/

/-- The global and the local part of the entry that the descriptor gives. -/
def Descr.expGlobal (d : Descr) : List Byte := (d.bytes.drop 20).take 16
def Descr.expLocal (d : Descr) : List Byte := (d.bytes.drop 36).take 16
/-- The module hosts the slot, and the new global part names it no more (R232). -/
def State.expLeaves (s : State) (d : Descr) (old : List Byte) : Bool :=
  bitOf (d.u 18 1) 2 && xHosted old && !xDraining old && !(xHomes (padTo 32 d.expGlobal)).contains s.self
/-- The local part that the entry holds afterwards: as given or as it was, and draining or no longer hosted when the module leaves. -/
def State.expLocal (s : State) (d : Descr) (old : List Byte) : List Byte :=
  let loc := if bitOf (d.u 18 1) 3 then
      leBytes 1 (leAt d.expLocal 0 1) ++ leBytes 1 (leAt d.expLocal 1 1) ++ (old.drop 18).take 6 ++ (d.expLocal.drop 8).take 8
    else (old.drop 16).take 16
  if !s.expLeaves d old then loc
  else if bitOf (d.u 18 1) 1 then leBytes 1 3 ++ (loc.drop 1).take 1 ++ leBytes 2 (xGen d.expGlobal) ++ zeros 4 ++ loc.drop 8
  else leBytes 1 0 ++ loc.drop 1
/-- The state with other drains. -/
def State.setDrains (s : State) (l : SMap (List Nat × List Nat)) : State := { s with fab := { s.fab with drains := l } }
theorem State.setDrains_traffic (s : State) (l : SMap (List Nat × List Nat)) : s.traffic (s.setDrains l) := s.fab_traffic _ rfl
/-- The drain of a slot is given up when a local part that drains no more is given (`del`), and begins when the module leaves (`put`). -/
def State.expDrain (s : State) (e : Nat) (del put : Bool) : State :=
  let s2 := if del then s.setDrains (SMap.del s.fab.drains e) else s
  if put then (s2.setDrains (SMap.put s2.fab.drains e (s2.validPeers, []))).drainCheckExp e else s2
/-- The entry stored, `old` being what it held. -/
def State.expStore (s : State) (d : Descr) (old : List Byte) : State :=
  let e := d.u 16 2
  let s1 := if bitOf (d.u 18 1) 2 then (s.exhApply e d.expGlobal).1 else s
  let loc := s1.expLocal d old
  (s1.daWrite (s1.exhDa e + 16) loc).1.expDrain e (bitOf (d.u 18 1) 3 && !xDraining (zeros 16 ++ loc)) (s1.expLeaves d old && bitOf (d.u 18 1) 1)
theorem State.calm.expDrain_traffic {s : State} (h : s.calm) (e : Nat) (del put : Bool) : s.traffic (s.expDrain e del put) := by
  have hdel := State.traffic.ite (del = true) (s.setDrains_traffic (SMap.del s.fab.drains e)) s.traffic_refl
  exact .ite _ (h.then (hdel.trans (State.setDrains_traffic _ _)) fun hput => hput.drainCheckExp_traffic e) hdel
theorem State.calm.expStore_traffic {s : State} (h : s.calm) (d : Descr) (old : List Byte) : s.traffic (s.expStore d old) :=
  h.then (.ite _ (h.exhApply_traffic _ _) s.traffic_refl) fun happlied => happlied.then (happlied.daWrite_traffic _ _)
    fun hstored => hstored.expDrain_traffic _ _ _

/-! ### EXPERT_MAP -/

/-- The peers to which the global part is broadcast. -/
def State.expPeers (s : State) (d : Descr) : List Nat := if bitOf (d.u 18 1) 2 && bitOf (d.u 18 1) 0 then s.validPeers else []
/-- What follows the stored entry: the completion, or the broadcast that it awaits. -/
def State.expEnd (s : State) (qp : Nat) (d : Descr) (old : List Byte) : State :=
  if s.expPeers d = [] then s.complete qp d stOK (leBytes 2 (if bitOf (d.u 18 1) 2 then xGen d.expGlobal else xGen old))
  else s.broadcast qp d.idx (d.u 16 2) d.expGlobal (s.expPeers d)

/-- The operands that R229 and R253 accept. -/
structure Descr.expOk (d : Descr) : Prop where
  flags : d.u 18 1 < 16
  nrep : leAt d.expGlobal 3 1 < 4
  zero : zeroAt d.expGlobal 12 4 = true
  homes : ∀ i, i < 4 → leAt d.expGlobal (4 + 2 * i) 2 < 2 ^ 14
  hosted : leAt d.expLocal 0 1 < 4
  global : bitOf (d.u 18 1) 2 = true → leAt d.expGlobal 2 1 ≤ 1 ∧ ∀ i, i < 4 → leAt d.expGlobal 3 1 < i → leAt d.expGlobal (4 + 2 * i) 2 = 0
  ring : bitOf (d.u 18 1) 3 = true → bitOf (leAt d.expLocal 0 1) 0 = true → 4 ≤ leAt d.expLocal 1 1 ∧ leAt d.expLocal 1 1 ≤ 16

/-- The checks of the body that EXPERT_MAP adds to those of the reserved bytes. -/
theorem Descr.expOk.body {d : Descr} (h : d.expOk) (b : Bool) :
    (b && decide (d.u 18 1 < 16) &&
      (decide (leAt d.expGlobal 3 1 < 4) && zeroAt d.expGlobal 12 4 && (List.range 4).all (fun i => decide (leAt d.expGlobal (4 + 2 * i) 2 < 2 ^ 14))
        && decide (leAt d.expLocal 0 1 < 4)) &&
      (!bitOf (d.u 18 1) 2 || (decide (leAt d.expGlobal 2 1 ≤ 1) &&
        (List.range 4).all (fun i => decide (i ≤ leAt d.expGlobal 3 1 % 4) || leAt d.expGlobal (4 + 2 * i) 2 == 0))) &&
      (!bitOf (d.u 18 1) 3 || (!bitOf (leAt d.expLocal 0 1) 0 || (decide (4 ≤ leAt d.expLocal 1 1) && decide (leAt d.expLocal 1 1 ≤ 16))))) = b := by
  have hhomes : (List.range 4).all (fun i => decide (leAt d.expGlobal (4 + 2 * i) 2 < 2 ^ 14)) = true := by
    simpa using h.homes
  have hglobal : (!bitOf (d.u 18 1) 2 || (decide (leAt d.expGlobal 2 1 ≤ 1) &&
      (List.range 4).all (fun i => decide (i ≤ leAt d.expGlobal 3 1 % 4) || leAt d.expGlobal (4 + 2 * i) 2 == 0))) = true := by
    cases hb : bitOf (d.u 18 1) 2 with
    | false => rfl
    | true =>
      obtain ⟨hlive, hrest⟩ := h.global hb
      simp only [Bool.not_true, Bool.false_or, Bool.and_eq_true, decide_eq_true_eq, List.all_eq_true, List.mem_range, Bool.or_eq_true, beq_iff_eq]
      refine ⟨hlive, fun i hi => ?_⟩
      rw [Nat.mod_eq_of_lt h.nrep]
      exact (Nat.lt_or_ge (leAt d.expGlobal 3 1) i).symm.imp id (hrest i hi)
  have hring : (!bitOf (d.u 18 1) 3 || (!bitOf (leAt d.expLocal 0 1) 0 || (decide (4 ≤ leAt d.expLocal 1 1) && decide (leAt d.expLocal 1 1 ≤ 16)))) = true := by
    cases hb : bitOf (d.u 18 1) 3 with
    | false => rfl
    | true =>
      cases hh : bitOf (leAt d.expLocal 0 1) 0 with
      | false => rfl
      | true => simpa using h.ring hb hh
  simp only [hhomes, hglobal, hring, h.flags, h.nrep, h.zero, h.hosted, decide_true, Bool.and_true]

/-- What EXPERT_MAP does once its entry, `old`, has been read: a generation that is not newer is stale, another is stored. -/
def State.expResult (s : State) (qp : Nat) (d : Descr) (old : List Byte) : State :=
  if bitOf (d.u 18 1) 2 && !newer (xGen d.expGlobal) (xGen old) then s.complete qp d stSTALE_GEN (leBytes 2 (xGen old))
  else (s.expStore d old).expEnd qp d old
/-- Whether a word of an entry is lost does not depend on which descriptors have started. -/
theorem State.running_markStarted_exhLost (s : State) (c : Instr) (q : Nat) (d : Descr) (e : Nat) :
    ((s.running c).markStarted q d).exhLost e = s.exhLost e := by
  have hrun : (s.running c).exhLost e = s.exhLost e := rfl
  exact (State.markStarted_keeps (φ := fun u => u.exhLost e) (fun _ _ => rfl) (s.running c) q d).trans hrun
section
variable {s : State} {qp : Nat} {d : Descr} {old : List Byte}

theorem State.expResult_stale (hglb : bitOf (d.u 18 1) 2 = true) (hnew : newer (xGen d.expGlobal) (xGen old) = false) :
    s.expResult qp d old = s.complete qp d stSTALE_GEN (leBytes 2 (xGen old)) := if_pos (by rw [hglb, hnew]; rfl)
theorem State.expResult_stored (h : bitOf (d.u 18 1) 2 = false ∨ newer (xGen d.expGlobal) (xGen old) = true) :
    s.expResult qp d old = (s.expStore d old).expEnd qp d old := if_neg (by rcases h with h | h <;> simp [h])
theorem State.expEnd_local (hglb : bitOf (d.u 18 1) 2 = false) : s.expEnd qp d old = s.complete qp d stOK (leBytes 2 (xGen old)) := by
  simp [State.expEnd, State.expPeers, hglb]
theorem State.expEnd_quiet (hglb : bitOf (d.u 18 1) 2 = true) (hall : bitOf (d.u 18 1) 0 = false) :
    s.expEnd qp d old = s.complete qp d stOK (leBytes 2 (xGen d.expGlobal)) := by
  simp [State.expEnd, State.expPeers, hglb, hall]
/-- The end of a descriptor under way leaves the gate alone, and answers are awaited or it has completed. -/
theorem State.underway.expEnd {a : State} (h : s.underway a qp d) (hcalm : a.calm) (old : List Byte) :
    (a.expEnd qp (s.going d) old).gate = a.gate ∧
      ((a.expEnd qp (s.going d) old).mapWaits qp d.idx ∨ ∃ res, s.completed (a.expEnd qp (s.going d) old) qp d stOK 0 res) := by
  unfold State.expEnd
  split
  · exact ⟨State.complete_gate _ _ _ _ _, .inr ⟨_, h.completed (by decide) _⟩⟩
  · have hcast := h.broadcast hcalm (d.u 16 2) d.expGlobal (a.expPeers (s.going d))
    exact ⟨hcast.gate, hcast.ends.imp And.left And.right⟩
theorem State.underway.expResult_gate {a : State} (h : s.underway a qp d) (hcalm : a.calm) (old : List Byte) :
    (a.expResult qp (s.going d) old).gate = a.gate := by
  have hstore := hcalm.expStore_traffic (s.going d) old
  unfold State.expResult
  split
  · exact State.complete_gate _ _ _ _ _
  · exact (((hstore.underway h).expEnd (hstore.calm hcalm) old).1).trans hstore.gate
/-- What the end of EXPERT_MAP promises in `u`: a stale generation completes so with the one stored, a local part or a global part that is not
broadcast completes OK with the generation then stored, and a broadcast awaits its answers or has completed. -/
structure State.expPromise (s u : State) (qp : Nat) (d : Descr) (old : List Byte) : Prop where
  stale : bitOf (d.u 18 1) 2 = true → newer (xGen d.expGlobal) (xGen old) = false → s.completed u qp d stSTALE_GEN 0 (leBytes 2 (xGen old))
  plain : bitOf (d.u 18 1) 2 = false → s.completed u qp d stOK 0 (leBytes 2 (xGen old))
  quiet : bitOf (d.u 18 1) 2 = true → newer (xGen d.expGlobal) (xGen old) = true → bitOf (d.u 18 1) 0 = false →
    s.completed u qp d stOK 0 (leBytes 2 (xGen d.expGlobal))
  cast : bitOf (d.u 18 1) 2 = true → newer (xGen d.expGlobal) (xGen old) = true → u.mapWaits qp d.idx ∨ ∃ res, s.completed u qp d stOK 0 res
theorem State.expPromise.of_same {s u v : State} (h : s.expPromise u qp d old) (hcmd : v.cmd = u.cmd) (hhost : v.host = u.host)
    (hmaps : v.fab.maps = u.fab.maps) : s.expPromise v qp d old where
  stale hglb hnew := State.completed_of_same (h.stale hglb hnew) hcmd hhost
  plain hglb := State.completed_of_same (h.plain hglb) hcmd hhost
  quiet hglb hnew hall := State.completed_of_same (h.quiet hglb hnew hall) hcmd hhost
  cast hglb hnew := by
    rw [State.mapWaits, hmaps]
    exact (h.cast hglb hnew).imp id fun ⟨res, hc⟩ => ⟨res, State.completed_of_same hc hcmd hhost⟩
theorem State.underway.expResult {a : State} (h : s.underway a qp d) (hcalm : a.calm) (old : List Byte) :
    s.expPromise (a.expResult qp (s.going d) old) qp d old := by
  have hstore := hcalm.expStore_traffic (s.going d) old
  have hstored := hstore.underway h
  refine ⟨fun hglb hnew => ?_, fun hglb => ?_, fun hglb hnew hall => ?_, fun hglb hnew => ?_⟩
  · rw [State.expResult_stale (d := s.going d) hglb hnew]
    exact h.completed (by decide) _
  · rw [State.expResult_stored (d := s.going d) (.inl hglb), State.expEnd_local (d := s.going d) hglb]
    exact hstored.completed (by decide) _
  · rw [State.expResult_stored (d := s.going d) (.inr hnew), State.expEnd_quiet (d := s.going d) hglb hall]
    exact hstored.completed (by decide) _
  · rw [State.expResult_stored (d := s.going d) (.inr hnew)]
    exact (hstored.expEnd (hstore.calm hcalm) old).2

end

/-- A descriptor of the wanted type that may start is handed on, started. -/
theorem State.withDescr_of_mayStart {s : State} {q idx : Nat} {d : Descr} {types : List Nat} (hdescr : s.descr q idx = some d)
    (hmay : s.mayStart q d = true) (htype : types.contains d.type = true) (k : State → Descr → State) :
    s.withDescr q idx types k = k (s.markStarted q d) (s.going d) := by
  simp only [State.withDescr, hdescr, hmay, htype, Bool.not_true, Bool.false_eq_true, if_false, if_true]
  rfl
/-- With the gate open, and left alone by what the command comes to, the command is not held. -/
theorem State.settle_of_eq {s a : State} (h : s.gateOpen) (c : Instr) (k : State → State) (hk : k (s.running c) = a)
    (hgate : a.gate = (s.running c).gate) : s.settle c k = { a with gate := s.gate } := by
  rw [State.settle_of_gate h c k (hk ▸ hgate), hk]

/-- The state in which EXPERT_MAP runs, its descriptor started. -/
abbrev State.expStart (s : State) (qp : Nat) (d : Descr) : State := (s.running (.expertMap qp d.idx)).markStarted qp d
/-- A started EXPERT_MAP whose operands pass and whose entry reads takes effect at once. -/
theorem exec_expertMap {s : State} {qp : Nat} {d : Descr} (hopen : s.gateOpen) (hstart : s.starts qp d.idx 0x20 d) (hok : d.expOk)
    (hhead : (s.expStart qp d).headVerdict qp (s.going d) (bodyZero (s.going d) [(16, 3), (20, 32)]) false = none)
    (hda : (bitOf (d.u 18 1) 3 && bitOf (leAt d.expLocal 0 1) 0) = true →
      (s.expStart qp d).daVerdict ((s.qpFunc qp).getD 0) (leAt d.expLocal 8 8) (64 + 32 * 2 ^ leAt d.expLocal 1 1) = none)
    (hlost : s.exhLost (d.u 16 2) = false) {s2 : State} {old : List Byte}
    (hread : (s.expStart qp d).daRead ((s.expStart qp d).exhDa (d.u 16 2)) 32 4 = (s2, old, none)) :
    ∃ u, exec (.expertMap qp d.idx) s = .next u ∧ s.expPromise u qp d old := by
  obtain ⟨hdescr, htype, hmay⟩ := hstart
  have htypes : [0x20].contains d.type = true := by rw [htype]; rfl
  have hcalm : (s.expStart qp d).calm := (State.running_calm hopen (.expertMap qp d.idx)).of_same (l := []) rfl (fun _ _ _ => rfl) (by decide)
  have hs2 : (s.expStart qp d).traffic s2 := by
    have ht := hcalm.daRead_traffic ((s.expStart qp d).exhDa (d.u 16 2)) 32 4
    rwa [hread] at ht
  have hunder := hs2.underway (State.running_markStarted_underway (.expertMap qp d.idx) hdescr)
  have hgate := (hunder.expResult_gate (hs2.calm hcalm) old).trans hs2.gate
  refine ⟨_, congrArg Host.Outcome.next (State.settle_of_eq hopen _ _ ?_ hgate), hunder.expResult (hs2.calm hcalm) old |>.of_same rfl rfl rfl⟩
  refine (State.withDescr_of_mayStart (s := s.running (.expertMap qp d.idx)) hdescr hmay htypes _).trans ?_
  have hgo : (s.running (.expertMap qp d.idx)).going d = s.going d := rfl
  have hu : ∀ i n, (s.going d).u i n = d.u i n := fun _ _ => rfl
  have hg : ((s.going d).bytes.drop 20).take 16 = d.expGlobal := rfl
  have hl : ((s.going d).bytes.drop 36).take 16 = d.expLocal := rfl
  have hf : (s.expStart qp d).qpFunc qp = s.qpFunc qp := rfl
  have hring := ite_eq_right_iff.mpr hda
  have hlook : (s.expStart qp d).exhLost (d.u 16 2) = false := (s.running_markStarted_exhLost _ qp d _).trans hlost
  have hexh : (s.expStart qp d).exhRead (d.u 16 2) = (s2, old) := by simp only [State.exhRead, hread]
  simp only [hgo, hu, hg, hl, hf, hok.body, hhead, hring, hlook, hexh, Bool.not_false, Bool.and_true, Bool.false_eq_true, if_false]
  exact if_congr Iff.rfl rfl rfl

end Sys2Proof.Machine
end

section
/-! Send rings and EXPERT_MAP: the obligation. -/

namespace Sys2Proof.Machine

/-- The operands of EXPERT_MAP that the obligation lists are those that `Descr.expOk` names. -/
theorem Descr.expOk_of_operands {d : Descr} (hfl : d.u 18 1 < 16)
    (hres : leAt d.expGlobal 3 1 < 4 ∧ zeroAt d.expGlobal 12 4 = true ∧ (∀ i, i < 4 → leAt d.expGlobal (4 + 2 * i) 2 < 2 ^ 14) ∧
      leAt d.expLocal 0 1 < 4)
    (hglobal : bitOf (d.u 18 1) 2 = true → leAt d.expGlobal 2 1 ≤ 1 ∧
      ∀ i, i < 4 → leAt d.expGlobal 3 1 < i → leAt d.expGlobal (4 + 2 * i) 2 = 0)
    (hring : bitOf (d.u 18 1) 3 = true → bitOf (leAt d.expLocal 0 1) 0 = true → 4 ≤ leAt d.expLocal 1 1 ∧ leAt d.expLocal 1 1 ≤ 16) : d.expOk :=
  ⟨hfl, hres.1, hres.2.1, hres.2.2.1, hres.2.2.2, hglobal, hring⟩

/-- Settles O32 (R9, R222, R223, R225, R229, R230, R232; log entries 23 and 87): a ring poll takes the waiting descriptors, the first that may
start starts its message or ends with a status, and EXPERT_MAP stores its entry and completes or awaits the answers to its broadcast. -/
theorem sendResults : Obligations.SendResults := by
  unfold Obligations.SendResults
  intro s hopen
  refine ⟨?_, ?_, ?_⟩
  · intro t hen hrun hshut s1 w hread
    exact exec_fxrRingPoll hopen hen hrun hshut hread
  · intro t k x hshut hfound r hahead hfence fin take fence
    have h := running_sendReady hshut hfound hahead hfence
    refine ⟨?_, ?_, ?_, ?_⟩
    · exact exec_sendMessage_bad hopen h
    · intro hbad hop s1 bs hread
      exact exec_sendMessage_write hopen h hbad hop hread
    · exact exec_sendMessage_request hopen h
    · intro hbad hop hlen
      have hfits := running_tokFits (.sendMessage t k) hop hbad hlen
      refine ⟨fun s1 bs lost hroute => exec_sendMessage_noHome hopen h hbad hop hfits hroute, ?_⟩
      intro s1 home gen bs hroute s2 st hpeer
      refine ⟨?_, ?_, ?_⟩
      · rintro rfl
        exact exec_sendMessage_unreach hopen h hbad hop hfits hroute hpeer
      · rintro rfl
        exact exec_sendMessage_askCredit hopen h hbad hop hfits hroute hpeer
      · rintro rfl hcredit s3
        exact exec_sendMessage_token hopen h hbad hop hfits hroute hpeer hcredit
  · intro qp idx d hstart s1 fl g l hfl hhead hres hglobal hlocal hlost s2 old hread
    obtain rfl : d.idx = idx := by simpa using List.find?_some hstart.1
    have hok := Descr.expOk_of_operands hfl hres hglobal fun hlcl hhost =>
      ⟨(hlocal hlcl hhost).1, (hlocal hlcl hhost).2.1⟩
    obtain ⟨u, hexec, hu⟩ := exec_expertMap hopen hstart hok hhead
      (fun h => (hlocal (Bool.and_eq_true_iff.mp h).1 (Bool.and_eq_true_iff.mp h).2).2.2) hlost hread
    exact ⟨u, hexec, hu.stale, hu.plain, hu.quiet, fun hglb hnew _ => hu.cast hglb hnew⟩

end Sys2Proof.Machine
end

section
/-! Registers that return to reset, and the module reset (R24, R386): what each register reads afterwards. -/

namespace Sys2Proof.Machine

/-! ### Registers back to reset -/

theorem SMap.find_filter_of_not {α : Type} (q : Nat × α → Bool) (k : Nat) (h : ∀ a, q (k, a) = false) : ∀ m : SMap α,
    SMap.find (m.filter q) k = none
  | [] => rfl
  | (k', a) :: m => by
    have ih := SMap.find_filter_of_not q k h m
    rw [List.filter_cons]
    split
    · next hq =>
      have hne : k ≠ k' := by
        rintro rfl
        exact absurd hq (by simp [h])
      simp only [SMap.find, if_neg hne, ih, ite_self]
    · exact ih
/-- A dropped key is not found. -/
theorem SMap.find_drop_of_mem {α : Type} (m : SMap α) {p : Nat → Bool} {k : Nat} (h : p k = true) : SMap.find (SMap.drop m p) k = none :=
  SMap.find_filter_of_not _ k (fun _ => by simp [h]) m
theorem SMap.find_drop_sortedFrom {α : Type} {p : Nat → Bool} {k : Nat} (h : p k = false) : ∀ (lo : Option Nat) (m : SMap α),
    SMap.sortedFrom lo m = true → SMap.find (SMap.drop m p) k = SMap.find m k
  | _, [], _ => rfl
  | lo, (k', a) :: m, hm => by
    have hm' : SMap.sortedFrom (some k') m = true := by
      cases lo with
      | none => exact hm
      | some lo => exact (Bool.and_eq_true_iff.mp hm).2
    have ih := SMap.find_drop_sortedFrom h (some k') m hm'
    unfold SMap.drop at ih ⊢
    rw [List.filter_cons]
    split
    · simp only [SMap.find, ih]
    · next hp =>
      have hne : k ≠ k' := by
        rintro rfl
        exact hp (by simp [h])
      rw [ih]
      simp only [SMap.find, if_neg hne]
      split
      · exact SMap.find_of_lt (by omega) hm'
      · rfl
/-- In a sorted map every other key is found as before. -/
theorem SMap.find_drop_of_not_mem {α : Type} {m : SMap α} (hm : SMap.sortedFrom none m = true) {p : Nat → Bool} {k : Nat} (h : p k = false) :
    SMap.find (SMap.drop m p) k = SMap.find m k := SMap.find_drop_sortedFrom h none m hm

/-- `Reg.all` lists the registers by their numbers. -/
theorem Reg.all_ctorIdx (r : Reg) : Reg.all[r.ctorIdx]? = some r := by cases r <;> rfl

/-- Whether a key belongs to a register that satisfies `p`. -/
def keyOut (p : Reg → Nat → Bool) (k : Nat) : Bool := match Reg.all[k % 512]? with
  | some r => p r (k / 512)
  | none => false
theorem State.regsReset_regs (s : State) (p : Reg → Nat → Bool) : (s.regsReset p).regs = SMap.drop s.regs (keyOut p) := rfl
theorem keyOut_key (p : Reg → Nat → Bool) (r : Reg) (i : Nat) : keyOut p (r.key i) = p r i := by
  have hlt := Reg.ctorIdx_lt r
  have hmod : r.key i % 512 = r.ctorIdx := by unfold Reg.key; omega
  have hdiv : r.key i / 512 = i := by unfold Reg.key; omega
  simp only [keyOut, hmod, hdiv, Reg.all_ctorIdx]
/-- A register that satisfies `p` reads its reset value. -/
theorem State.rget_regsReset_out (s : State) {p : Reg → Nat → Bool} {r : Reg} {i : Nat} (h : p r i = true) :
    (s.regsReset p).rget r i = BitVec.ofNat 32 (r.rst i) := by
  rw [State.rget, State.regsReset_regs, SMap.find_drop_of_mem _ ((keyOut_key p r i).trans h), Option.getD_none]
/-- Every other one is left alone, in a sorted register map. -/
theorem State.rget_regsReset_kept {s : State} (hs : SMap.sortedFrom none s.regs = true) {p : Reg → Nat → Bool} {r : Reg} {i : Nat}
    (h : p r i = false) : (s.regsReset p).rget r i = s.rget r i := by
  rw [State.rget, State.rget, State.regsReset_regs, SMap.find_drop_of_not_mem hs ((keyOut_key p r i).trans h)]

/-! ### The module reset -/

/-- The registers that a module reset does not return to their reset values although it does not keep them: NEXT and the lifecycle nonce. -/
def nextRegs : List Reg := [.SEC_CONF, .SEC_LCNONCE_LO, .SEC_LCNONCE_HI]
/-- Every register outside `kept` and `nextRegs` reads its reset value. -/
def State.freshBut (u : State) (kept : Reg → Bool) : Prop :=
  ∀ r i, kept r = false → r ∉ nextRegs → u.rget r i = BitVec.ofNat 32 (r.rst i)

theorem State.freshBut.of_sameRegs {s u : State} {kept : Reg → Bool} (h : s.freshBut kept) (hs : s.sameRegs u nextRegs) : u.freshBut kept :=
  fun r i hr hnext => (hs r i hnext).trans (h r i hr hnext)
theorem State.regsReset_freshBut (s : State) (kept : Reg → Bool) : (s.regsReset (fun r _ => !kept r)).freshBut kept :=
  fun r i hr _ => s.rget_regsReset_out (by simp [hr])
theorem State.put64_sameRegs (s : State) {lo hi : Reg} {l : List Reg} (hlo : lo ∈ l) (hhi : hi ∈ l) (i v : Nat) : s.sameRegs (s.put64 lo hi i v) l :=
  (s.rput_sameRegs hlo i _).trans (State.rput_sameRegs _ hhi i _)
/-- Of the registers left after the reset of the register map, the module reset writes NEXT and the nonce alone. -/
theorem State.moduleReset_sameRegs (s : State) : (s.regsReset (fun r _ => !regKept r)).sameRegs s.moduleReset nextRegs := by
  unfold State.moduleReset
  dsimp only
  refine State.sameRegs.trans (State.sameRegs.trans (State.sameRegs.trans (State.sameRegs_of_regs _ ?_) (State.fput_sameRegs _ ?_ _ _))
    (State.put64_sameRegs _ ?_ ?_ _ _)) (State.sameRegs_of_regs _ rfl)
  · rfl
  all_goals decide
theorem State.moduleReset_freshBut (s : State) : s.moduleReset.freshBut regKept :=
  (s.regsReset_freshBut regKept).of_sameRegs s.moduleReset_sameRegs
/-- The registers of the retained domain, of fuses and of flash are kept. -/
theorem State.moduleReset_rget_kept {s : State} (hs : SMap.sortedFrom none s.regs = true) {r : Reg} (hr : regKept r = true) (i : Nat) :
    s.moduleReset.rget r i = s.rget r i := by
  have hnext : r ∉ nextRegs := by
    intro hm
    exact absurd ((by decide : ∀ q ∈ nextRegs, regKept q = false) r hm) (by simp [hr])
  exact (s.moduleReset_sameRegs r i hnext).trans (State.rget_regsReset_kept hs (by simp [hr]))

end Sys2Proof.Machine
end

section
/-! The 54 V input and PWR_EN (R24, R328, R443 to R449). -/

namespace Sys2Proof.Machine

/-! ### Converters on, standby, and a loss of power -/

theorem State.powerOn_freshBut (s : State) : s.powerOn.freshBut regKept :=
  (State.moduleReset_freshBut { s with thm := { s.thm with off := false } }).of_sameRegs (State.sameRegs_of_regs _ rfl)
theorem State.standby_freshBut (s : State) : s.standby.freshBut regKept :=
  s.moduleReset_freshBut.of_sameRegs (State.sameRegs_of_regs _ rfl)
theorem State.powerLost_freshBut (s : State) : s.powerLost.freshBut regFused := by
  refine (s.regsReset_freshBut regFused).of_sameRegs ?_
  exact (State.sameRegs_of_regs _ rfl).trans (State.fput_sameRegs _ (f := F.SEC_CONF_NEXT) (by decide) 0 _)

/-- What the fall of PWR_EN does before standby leaves the input and PWR_EN alone. -/
theorem State.qpDrain_brd (s : State) (q : Nat) : (s.qpDrain q).brd = s.brd :=
  qpDrain_keeps (φ := State.brd) (fun _ _ => rfl) (fun _ _ => rfl) (fun _ _ => rfl) (fun _ _ => rfl) (fun _ _ => rfl) (fun _ _ => rfl) s q
theorem State.fenceNow_brd (s : State) (t : Nat) : (s.fenceNow t).brd = s.brd :=
  fenceNow_keeps (φ := State.brd) (fun _ _ => rfl) (fun _ _ => rfl) (fun _ _ => rfl) (fun _ _ => rfl) (fun _ _ => rfl) (fun _ _ => rfl)
    (fun _ _ => rfl) (fun _ _ => rfl) (fun _ _ => rfl) (fun _ _ => rfl) (fun _ _ => rfl) (fun _ _ => rfl) s t
theorem State.seal_brd (s : State) (m : Meters) (k : Nat) : (s.seal m k).brd = s.brd :=
  seal_keeps (φ := State.brd) (fun _ _ => rfl) (fun _ _ => rfl) (fun _ _ => rfl) (fun _ _ => rfl) (fun _ _ => rfl) (fun _ _ => rfl)
    (fun _ _ => rfl) (fun _ _ => rfl) (fun _ _ => rfl) (fun _ _ => rfl) (fun _ _ => rfl) (fun _ _ => rfl) (fun _ _ => rfl)
    (fun _ _ => rfl) (fun _ _ => rfl) s m k
theorem State.domainsOff_brd (s : State) : s.domainsOff.brd = s.brd :=
  domainsOff_keeps (φ := State.brd) (fun _ _ => rfl) (fun _ _ => rfl) (fun _ _ => rfl) (fun _ _ => rfl) (fun _ _ => rfl) (fun _ _ => rfl)
    (fun _ _ => rfl) (fun _ _ => rfl) (fun _ _ => rfl) (fun _ _ => rfl) s

/-! ### PWR_EN falls -/

/-- PWR_EN is low; nothing else has changed. -/
def State.pwrEnLow (s : State) : State := { s with brd := { s.brd with pwrEn := false } }
/-- What drains before standby, outside a coolant sequence: the queue pairs, unless a partial reset is abandoned; the engines; the receipt
tree; the domains (R447). -/
def State.drained (s : State) (m : Meters) (k : Nat) : State :=
  let s1 := if s.phase = phIDLE then s.qpKeys.foldl (fun a q => a.qpDrain q) s
    else ({ s with rst := Rst.empty } : State).rput .RST_STATE 0 0
  (((List.range 128).foldl (fun a t => a.fenceNow t) s1).seal m k).domainsOff
theorem execPwrEnFall_eq (m : Meters) (k : Nat) (s : State) : execPwrEnFall m k s = .next (
    if !s.brd.pwrEn || !s.brd.on then s.pwrEnLow
    else if s.thm.off then s.pwrEnLow.standby
    else if s.coolState ≠ 0 then s.pwrEnLow
    else (s.pwrEnLow.drained m k).standby) := rfl
theorem State.drained_brd (s : State) (m : Meters) (k : Nat) : (s.drained m k).brd = s.brd := by
  unfold State.drained
  dsimp only
  rw [State.domainsOff_brd, State.seal_brd, foldl_keeps State.brd _ _ _ State.fenceNow_brd]
  split
  · exact foldl_keeps State.brd _ _ _ State.qpDrain_brd
  · rfl
/-- Outside a coolant sequence, or after one, the fall of PWR_EN ends in standby of a state whose PWR_EN is low. -/
theorem execPwrEnFall_standby {s : State} (m : Meters) (k : Nat) (hen : s.brd.pwrEn = true) (hon : s.brd.on = true)
    (h : s.thm.off = true ∨ s.coolState = 0) : ∃ v : State, v.brd.pwrEn = false ∧ execPwrEnFall m k s = .next v.standby := by
  rw [execPwrEnFall_eq, if_neg (by simp [hen, hon])]
  by_cases hoff : s.thm.off = true
  · exact ⟨s.pwrEnLow, rfl, by rw [if_pos hoff]⟩
  · have hcool : s.coolState = 0 := h.resolve_left hoff
    refine ⟨s.pwrEnLow.drained m k, ?_, by rw [if_neg hoff, if_neg (by simp [hcool])]⟩
    rw [State.drained_brd]
    rfl
/-- In a coolant sequence PWR_EN falls, and nothing else changes. -/
theorem execPwrEnFall_coolant {s : State} (m : Meters) (k : Nat) (hen : s.brd.pwrEn = true) (hon : s.brd.on = true)
    (hoff : s.thm.off = false) (hcool : s.coolState ≠ 0) : execPwrEnFall m k s = .next s.pwrEnLow := by
  rw [execPwrEnFall_eq, if_neg (by simp [hen, hon]), if_neg (by simp [hoff]), if_pos hcool]

/-! ### The obligation -/

/-- Settles O38 (R24, R328, R443 to R449; log entries 35 and 70): power-up starts the retained domain, and the converters where PWR_EN is high;
a loss of power keeps fuses and flash alone; PWR_EN starts the converters and ends in standby. -/
theorem inputPowerResults : Obligations.InputPowerResults := by
  unfold Obligations.InputPowerResults
  intro s
  refine ⟨?_, ?_, ?_, ⟨_, rfl, rfl⟩, ?_, ?_⟩
  · intro hinput hcut
    cases hen : s.brd.pwrEn with
    | true =>
      refine ⟨_, congrArg Host.Outcome.next ((if_neg (by simp [hinput, hcut])).trans (if_pos hen)), rfl, rfl, rfl, rfl, ?_, nofun⟩
      exact fun _ => ⟨rfl, State.powerOn_freshBut _⟩
    | false =>
      refine ⟨_, congrArg Host.Outcome.next ((if_neg (by simp [hinput, hcut])).trans (if_neg (by simp [hen]))), rfl, rfl, rfl, rfl, nofun, ?_⟩
      exact fun _ => ⟨rfl, rfl⟩
  · intro hinput
    exact ⟨_, congrArg Host.Outcome.next (if_pos hinput), s.powerLost_freshBut, rfl, rfl, rfl, rfl, rfl, rfl, rfl, rfl, rfl⟩
  · intro hinput
    refine ⟨{ s.powerLost with brd := { s.powerLost.brd with cut := true } }, ?_, s.powerLost_freshBut.of_sameRegs (State.sameRegs_of_regs _ rfl),
      rfl, rfl, rfl, rfl, rfl, rfl, rfl, rfl, rfl⟩
    change execInputOvervoltage s = _
    simp only [execInputOvervoltage, hinput, if_true]
  · intro hen
    by_cases hgo : s.brd.input = true ∧ s.brd.on = false
    · refine ⟨_, congrArg Host.Outcome.next ((if_neg (by simp [hen])).trans (if_pos (by simp [hgo]))), rfl, ?_⟩
      rw [if_pos hgo]
      exact ⟨rfl, State.powerOn_freshBut _⟩
    · refine ⟨_, congrArg Host.Outcome.next ((if_neg (by simp [hen])).trans (if_neg (by simpa using hgo))), rfl, ?_⟩
      rw [if_neg hgo]
  · intro m k hen hon
    by_cases h : s.thm.off = true ∨ s.coolState = 0
    · obtain ⟨v, hv, hexec⟩ := execPwrEnFall_standby m k hen hon h
      refine ⟨_, hexec, hv, ?_, fun _ => ⟨rfl, rfl, v.standby_freshBut⟩⟩
      intro hoff hcool
      exact absurd h (by simp [hoff, hcool])
    · have hoff : s.thm.off = false := by simpa using fun h' => h (.inl h')
      exact ⟨_, execPwrEnFall_coolant m k hen hon hoff fun h' => h (.inr h'), rfl, fun _ _ => rfl, fun h' => absurd h' h⟩

end Sys2Proof.Machine
end

section
/-! Fencing an engine at once (R76, R77, R464): the registers that it may write. -/

namespace Sys2Proof.Machine

/-- What may change with the fence of an engine: completions and ends of dispatches, GLB_DISMAP, the engine's status and counts. -/
def fenceRegs : List Reg := completeRegs ++ detRegs ++ [.GLB_DISMAP, .TSEQ_STAT, .MXA_STAT, .TSK_TDC, .TSK_ORPHAN]
theorem completeRegs_subset_fenceRegs : completeRegs ⊆ fenceRegs := List.subset_append_of_subset_left _ (List.subset_append_left _ _)

theorem State.setEng_sameRegs (s : State) (t : Nat) (e : Eng) (l : List Reg) : s.sameRegs (s.setEng t e) l := sameRegs_of_regs l rfl
theorem State.setStop_sameRegs (s : State) (t : Nat) (p : Stop) (l : List Reg) : s.sameRegs (s.setStop t p) l := sameRegs_of_regs l rfl
theorem State.setDisp_sameRegs (s : State) (k : Nat) (d : Disp) (l : List Reg) : s.sameRegs (s.setDisp k d) l := sameRegs_of_regs l rfl
theorem State.abortArray_sameRegs (s : State) (t : Nat) {l : List Reg} (hl : .MXA_STAT ∈ l) : s.sameRegs (s.abortArray t) l :=
  ((s.setEng_sameRegs t _ l).trans (sameRegs_of_regs l (arrSettled_keeps (φ := State.regs) (fun _ _ => rfl) (fun _ _ => rfl) _ t))).trans
    (State.event_sameRegs _ (f := F.MXA_STAT_ABORT) hl t)
theorem State.fenceStart_sameRegs (s : State) (t : Nat) : s.sameRegs (s.fenceStart t) fenceRegs :=
  .ite _ (s.sameRegs_refl _) (((s.abortArray_sameRegs t (by decide)).trans (State.setEng_sameRegs _ _ _ _)).trans (State.setStop_sameRegs _ _ _ _))
theorem State.report_sameRegs (s : State) (k status tile idx cause : Nat) (l : List Reg) : s.sameRegs (s.report k status tile idx cause) l :=
  sameRegs_of_regs l (report_keeps (φ := State.regs) (fun _ _ => rfl) s k status tile idx cause)
theorem State.stopGroup_sameRegs (s : State) (k : Nat) (l : List Reg) : s.sameRegs (s.stopGroup k) l :=
  sameRegs_of_regs l (stopGroup_keeps (φ := State.regs) (fun _ _ => rfl) s k)
theorem State.orphan_sameRegs (s : State) (t : Nat) : s.sameRegs (s.orphan t) fenceRegs := by
  unfold State.orphan
  dsimp only
  split
  · refine .ite _ ?_ ?_
    · exact (((s.setEng_sameRegs t _ _).trans (State.setStop_sameRegs _ _ _ _)).trans (State.fput_sameRegs _ (f := F.TSK_TDC_TDC) (by decide) _ _)).trans
        (State.fput_sameRegs _ (f := F.TSK_ORPHAN_ORPHAN) (by decide) _ _)
    · exact ((s.setEng_sameRegs t _ _).trans (State.report_sameRegs _ _ _ _ _ _ _)).trans (State.stopGroup_sameRegs _ _ _)
  · exact s.sameRegs_refl _
theorem State.completeKeep_sameRegs (s : State) (q : Nat) (d : Descr) (status cflags keep : Nat) (result : List Byte) :
    s.sameRegs (s.completeKeep q d status cflags keep result) completeRegs := by
  have hdeny : s.sameRegs (if status = stCONF_DENIED then s.event F.SEC_STAT_CONF_DENY 0 else s) completeRegs :=
    .ite _ (s.event_sameRegs (by decide) 0) (s.sameRegs_refl _)
  have hrec := State.sameRegs.ite ((d.quiet && decide (status = 0)) = true) hdeny
    (hdeny.trans (State.writeRecord_sameRegs _ q d.idx status d.type cflags d.tag result d.irq))
  exact ((hrec.trans (State.setQp_sameRegs _ _ _ _)).trans (State.fput_sameRegs _ (f := F.CMD_QP_STATE_INFLIGHT) (by decide) _ _)).trans
    ((State.headSync_sameRegs _ _ _).trans (State.drainCheck_sameRegs _ _))
theorem State.dispFinish_sameRegs (s : State) (k : Nat) : s.sameRegs (s.dispFinish k) fenceRegs := by
  unfold State.dispFinish
  split
  · exact s.sameRegs_refl _
  · refine State.sameRegs.trans (u := match s.descr _ _ with | none => s | some x => _) ?_ (State.sameRegs_of_regs _ rfl)
    split
    · exact s.sameRegs_refl _
    · exact (s.completeKeep_sameRegs _ _ _ _ _ _).mono completeRegs_subset_fenceRegs
/-- The cycles and causes of a strict dispatch (R362). -/
theorem State.detEnd_sameRegs (s : State) (ld gid cyc cause : Nat) :
    s.sameRegs (((s.fput F.DET_GID_GID ld gid).put64 .DET_CYC_LO .DET_CYC_HI ld cyc).fput F.DET_CAUSE_CAUSE ld cause) fenceRegs :=
  ((s.fput_sameRegs (f := F.DET_GID_GID) (by decide) _ _).trans (State.put64_sameRegs _ (by decide) (by decide) _ _)).trans
    (State.fput_sameRegs _ (f := F.DET_CAUSE_CAUSE) (by decide) _ _)
/-- The tiles of a dispatch that ends without its last HALT are freed; a fenced tile with entries gives its status (R76, R464). -/
def State.tilesFreed (s : State) (k : Nat) (d : Disp) : State :=
  let ld := groupLeader d.group
  let s0 := match s.fencedEntries d with
    | some (t, idx) => s.report k stENGINE_FENCED t idx 0
    | none => s
  let s1 := if d.strict then
      ((s0.fput F.DET_GID_GID ld d.gid).put64 .DET_CYC_LO .DET_CYC_HI ld (s.clk.mc - d.startMc)).fput F.DET_CAUSE_CAUSE ld d.cause
    else s0
  (groupTiles d.group).foldl (fun a t =>
    let e := a.eng t
    let p := a.stop t
    (a.setEng t { e with disp := none, active := false, task := none, stall := none, noTask := false, steal := none
                         atBarrier := false, waitTask := none }).setStop t { p with queue := [], scan := 0 }) s1
/-- Such a dispatch completes, or waits for its digest (R366). -/
def State.dispEnded (s : State) (k : Nat) (d : Disp) (cycles : Nat) : State :=
  let s3 := s.setDisp k { d with running := false, fabTdc := s.dispTdc d }
  match d.num with
  | none => s3.dispFinish k
  | some n =>
    let m : Summ := ⟨n, d.mode, s.dispMarked d, d.ntask, if d.strict then cycles else 0, false, [], []⟩
    let s4 : State := { s3 with lck := { s3.lck with due := s3.lck.due ++ [(if d.mode = 0 then none else some k, m)] } }
    if d.mode = 0 then s4.dispFinish k else s4
theorem State.tilesFreed_sameRegs (s : State) (k : Nat) (d : Disp) : s.sameRegs (s.tilesFreed k d) fenceRegs := by
  unfold State.tilesFreed
  dsimp only
  refine State.sameRegs.trans ?_ (State.foldl_sameRegs _ (fun a t => (a.setEng_sameRegs t _ _).trans (State.setStop_sameRegs _ t _ _)) _ _)
  have hreport : s.sameRegs (match s.fencedEntries d with
      | some (t, idx) => s.report k stENGINE_FENCED t idx 0
      | none => s) fenceRegs := by
    split
    · exact s.report_sameRegs _ _ _ _ _ _
    · exact s.sameRegs_refl _
  exact .ite _ (hreport.trans (State.detEnd_sameRegs _ _ _ _ _)) hreport
theorem State.dispEnded_sameRegs (s : State) (k : Nat) (d : Disp) (cycles : Nat) : s.sameRegs (s.dispEnded k d cycles) fenceRegs := by
  unfold State.dispEnded
  dsimp only
  split
  · exact (s.setDisp_sameRegs k _ _).trans (State.dispFinish_sameRegs _ k)
  · exact .ite _ (State.sameRegs.trans (State.sameRegs_of_regs _ rfl) (State.dispFinish_sameRegs _ k)) (State.sameRegs_of_regs _ rfl)
theorem State.dispCheck_sameRegs (s : State) (k : Nat) : s.sameRegs (s.dispCheck k) fenceRegs := by
  unfold State.dispCheck
  split
  · exact s.sameRegs_refl _
  next d _ =>
    refine .ite _ ?_ (s.sameRegs_refl _)
    have hfreed := s.tilesFreed_sameRegs k d
    dsimp only
    split
    · exact hfreed
    next d' _ => exact hfreed.trans (State.dispEnded_sameRegs _ k d' _)
theorem State.disable_sameRegs (s : State) (t : Nat) {l : List Reg} (hl : .GLB_DISMAP ∈ l) : s.sameRegs (s.disable t) l := s.rput_sameRegs hl _ _
theorem State.fenceStuck_sameRegs (s : State) (k : Nat) (l : List Reg) : s.sameRegs (s.fenceStuck k) l :=
  sameRegs_of_regs l (fenceStuck_keeps (φ := State.regs) (fun _ _ => rfl) s k)
theorem State.fenceEnd_sameRegs (s : State) (t : Nat) : s.sameRegs (s.fenceEnd t) fenceRegs := by
  unfold State.fenceEnd
  dsimp only
  have hopen : ∀ e, s.sameRegs (((s.setEng t e).forget t).useClose t) fenceRegs := fun _ => State.sameRegs_of_regs _ rfl
  have horphan := fun e => (((hopen e).trans (State.disable_sameRegs _ t (by decide))).trans
    (State.event_sameRegs _ (f := F.TSEQ_STAT_FENCED) (by decide) t)).trans (State.orphan_sameRegs _ t)
  split
  · exact horphan _
  · exact ((horphan _).trans (State.fenceStuck_sameRegs _ _ _)).trans (State.dispCheck_sameRegs _ _)
theorem State.fenceNow_sameRegs (s : State) (t : Nat) : s.sameRegs (s.fenceNow t) fenceRegs :=
  .ite _ (s.sameRegs_refl _) ((s.fenceStart_sameRegs t).trans (State.fenceEnd_sameRegs _ t))

end Sys2Proof.Machine
end

section
/-! The reset block (R381 to R386): its registers and state through the operations of a partial reset, and the engines that a reset
takes. -/

namespace Sys2Proof.Machine

/-! ### What leaves the resets alone -/

/-- The registers of the reset block that its own operations write. -/
def rstRegs : List Reg := [.RST_STAT, .RST_STATE, .RST_CNT, .RST_LAST]

/-- `u` shows the resets as `s` does, at the same time. -/
structure State.sameResets (s u : State) : Prop where
  rst : u.rst = s.rst
  clk : u.clk = s.clk
  regs : ∀ r ∈ rstRegs, ∀ i, u.rget r i = s.rget r i

/-- The registers of `l` are none of the reset block's. -/
abbrev noRst (l : List Reg) : Prop := ∀ r ∈ rstRegs, r ∉ l

theorem State.sameResets_refl (s : State) : s.sameResets s := ⟨rfl, rfl, fun _ _ _ => rfl⟩
theorem State.sameResets.trans {s u v : State} (h : s.sameResets u) (h' : u.sameResets v) : s.sameResets v :=
  ⟨h'.rst.trans h.rst, h'.clk.trans h.clk, fun r hr i => (h'.regs r hr i).trans (h.regs r hr i)⟩
theorem State.sameResets.ite {s a b : State} (c : Prop) [Decidable c] (ha : s.sameResets a) (hb : s.sameResets b) :
    s.sameResets (if c then a else b) := by
  split
  · exact ha
  · exact hb
theorem State.sameRegs.sameResets {s u : State} {l : List Reg} (h : s.sameRegs u l) (hl : noRst l) (hrst : u.rst = s.rst) (hclk : u.clk = s.clk) :
    s.sameResets u := ⟨hrst, hclk, fun r hr i => h r i (hl r hr)⟩
theorem State.sameResets_of_regs {s u : State} (h : u.regs = s.regs) (hrst : u.rst = s.rst) (hclk : u.clk = s.clk) : s.sameResets u :=
  (State.sameRegs_of_regs [] h).sameResets (by simp [noRst]) hrst hclk
theorem State.foldl_sameResets {α : Type} (g : State → α → State) (hg : ∀ (s : State) (a : α), s.sameResets (g s a)) :
    ∀ (as : List α) (s : State), s.sameResets (as.foldl g s)
  | [], s => s.sameResets_refl
  | a :: as, s => (hg s a).trans (State.foldl_sameResets g hg as (g s a))

theorem State.sameResets.fget {s u : State} (h : s.sameResets u) (f : Field) (i : Nat) (hf : f.reg ∈ rstRegs) (ha : f.app ≠ .staged) :
    u.fget f i = s.fget f i := by
  rw [State.fget, State.fget, if_neg ha, if_neg ha, h.regs _ hf]
theorem State.sameResets.flag {s u : State} (h : s.sameResets u) (f : Field) (i : Nat) (hf : f.reg ∈ rstRegs) (ha : f.app ≠ .staged) :
    u.flag f i = s.flag f i := by rw [State.flag, State.flag, h.fget f i hf ha]
theorem State.sameResets.phase {s u : State} (h : s.sameResets u) : u.phase = s.phase := h.fget F.RST_STATE_PHASE 0 (by decide) (by decide)
theorem State.sameResets.rstScope {s u : State} (h : s.sameResets u) : u.rstScope = s.rstScope :=
  h.fget F.RST_STATE_SCOPE 0 (by decide) (by decide)
theorem State.sameResets.rstTarget {s u : State} (h : s.sameResets u) : u.rstTarget = s.rstTarget :=
  h.fget F.RST_STATE_TARGET 0 (by decide) (by decide)
theorem State.sameResets.rstTiles {s u : State} (h : s.sameResets u) : u.rstTiles = s.rstTiles := by
  rw [State.rstTiles, State.rstTiles, h.rstScope, h.rstTarget]

theorem State.setEng_sameResets (s : State) (t : Nat) (e : Eng) : s.sameResets (s.setEng t e) := State.sameResets_of_regs rfl rfl rfl
theorem State.fput_sameResets (s : State) (f : Field) (i v : Nat) (hf : noRst [f.reg]) : s.sameResets (s.fput f i v) :=
  (s.fput_sameRegs (List.mem_singleton_self _) i v).sameResets hf rfl rfl
theorem State.fenceNow_sameResets (s : State) (t : Nat) : s.sameResets (s.fenceNow t) :=
  (s.fenceNow_sameRegs t).sameResets (by decide)
    (fenceNow_keeps (φ := State.rst) (fun _ _ => rfl) (fun _ _ => rfl) (fun _ _ => rfl) (fun _ _ => rfl) (fun _ _ => rfl) (fun _ _ => rfl)
      (fun _ _ => rfl) (fun _ _ => rfl) (fun _ _ => rfl) (fun _ _ => rfl) (fun _ _ => rfl) (fun _ _ => rfl) s t)
    (fenceNow_keeps (φ := State.clk) (fun _ _ => rfl) (fun _ _ => rfl) (fun _ _ => rfl) (fun _ _ => rfl) (fun _ _ => rfl) (fun _ _ => rfl)
      (fun _ _ => rfl) (fun _ _ => rfl) (fun _ _ => rfl) (fun _ _ => rfl) (fun _ _ => rfl) (fun _ _ => rfl) s t)

/-! ### The ports of a base die -/

theorem State.setPort_sameRegs (s : State) (p : Nat) (x : Port) (l : List Reg) : s.sameRegs (s.setPort p x) l := sameRegs_of_regs l rfl
theorem State.portDark_sameRegs (s : State) (p : Nat) : s.sameRegs (s.portDark p) [.FAB_STATE] :=
  (((s.fput_sameRegs (f := F.FAB_STATE_KEYED) (by decide) p _).trans (State.fput_sameRegs _ (f := F.FAB_STATE_LANES) (by decide) p _)).trans
    (State.fput_sameRegs _ (f := F.FAB_STATE_WIDTH) (by decide) p _)).trans (State.setPort_sameRegs _ p _ _)
theorem State.portDark_sameResets (s : State) (p : Nat) : s.sameResets (s.portDark p) :=
  (s.portDark_sameRegs p).sameResets (by decide) rfl rfl
theorem State.setPortState_sameResets (s : State) (p v : Nat) : s.sameResets (s.setPortState p v) := s.fput_sameResets _ p v (by decide)
theorem State.trainFrom_sameResets (s : State) (p v : Nat) : s.sameResets (s.trainFrom p v) :=
  (s.setPortState_sameResets p v).trans (State.sameResets_of_regs rfl rfl rfl)
theorem State.pathClose_sameResets (s : State) (w : Nat) : s.sameResets (s.pathClose w) :=
  State.foldl_sameResets _ (fun a p => .ite _ a.sameResets_refl ((a.portDark_sameResets p).trans (State.setPortState_sameResets _ p _))) _ s

theorem State.portState_setPortState_same (s : State) (p v : Nat) : (s.setPortState p v).portState p = v % 8 :=
  s.fget_fput_same F.FAB_STATE_STATE p v (by decide) (by decide) (by decide)
theorem State.portState_setPortState_other (s : State) {p q : Nat} (v : Nat) (h : q ≠ p) : (s.setPortState p v).portState q = s.portState q :=
  s.fget_fput_other F.FAB_STATE_STATE F.FAB_STATE_STATE p q v (by decide) (by decide) (.inr (.inr (.inl h)))
theorem State.portState_portDark (s : State) (p q : Nat) : (s.portDark p).portState q = s.portState q := by
  have hset : ∀ (a : State) (x : Port), (a.setPort p x).portState q = a.portState q := fun _ _ => rfl
  have hput : ∀ (a : State) (f : Field) (v : Nat), f.lo ≤ f.hi → f.hi < 32 → 2 < f.lo → (a.fput f p v).portState q = a.portState q :=
    fun a f v h1 h2 h3 => a.fget_fput_other f F.FAB_STATE_STATE p q v h1 h2 (.inr (.inr (.inr (.inl h3))))
  rw [State.portDark, hset, hput _ _ _ (by decide) (by decide) (by decide), hput _ _ _ (by decide) (by decide) (by decide),
    hput _ _ _ (by decide) (by decide) (by decide)]
theorem State.portLive_of_portState {s : State} {p : Nat} (h : s.portState p ≠ fpUP) (h' : s.portState p ≠ fpDEGRADED) : s.portLive p = false := by
  simp [State.portLive, h, h']

/-- One port of the base die leaves the spray set (R382). -/
def State.portClose (s : State) (p : Nat) : State :=
  if s.portState p = fpOFF || s.portState p = fpFENCED then s else (s.portDark p).setPortState p fpTRAIN
theorem State.pathClose_eq (s : State) (w : Nat) : s.pathClose w = (s.portClose (2 * w)).portClose (2 * w + 1) := rfl
theorem State.portLive_portClose_same (s : State) (p : Nat) : (s.portClose p).portLive p = false := by
  unfold State.portClose
  split
  · next h =>
    rcases (by simpa using h : s.portState p = fpOFF ∨ s.portState p = fpFENCED) with h | h <;>
      exact State.portLive_of_portState (by rw [h]; decide) (by rw [h]; decide)
  · have htrain := (s.portDark p).portState_setPortState_same p fpTRAIN
    exact State.portLive_of_portState (by rw [htrain]; decide) (by rw [htrain]; decide)
theorem State.portLive_portClose_other (s : State) {p q : Nat} (h : q ≠ p) : (s.portClose p).portLive q = s.portLive q := by
  unfold State.portClose
  split
  · rfl
  · rw [State.portLive, State.portState_setPortState_other _ _ h, State.portState_portDark, State.portLive]
/-- No port of the base die is live when its boundary has closed. -/
theorem State.portLive_pathClose (s : State) (w : Nat) {p : Nat} (hp : p = 2 * w ∨ p = 2 * w + 1) : (s.pathClose w).portLive p = false := by
  rw [State.pathClose_eq]
  rcases hp with rfl | rfl
  · rw [State.portLive_portClose_other _ (by omega), State.portLive_portClose_same]
  · exact State.portLive_portClose_same _ _

/-! ### The state of the running reset -/

@[simp] theorem State.phase_fput_phase (s : State) (v : Nat) : (s.fput F.RST_STATE_PHASE 0 v).phase = v % 8 :=
  s.fget_fput_same F.RST_STATE_PHASE 0 v (by decide) (by decide) (by decide)
@[simp] theorem State.rstScope_fput_scope (s : State) (v : Nat) : (s.fput F.RST_STATE_SCOPE 0 v).rstScope = v % 8 :=
  s.fget_fput_same F.RST_STATE_SCOPE 0 v (by decide) (by decide) (by decide)
@[simp] theorem State.rstTarget_fput_target (s : State) (v : Nat) : (s.fput F.RST_STATE_TARGET 0 v).rstTarget = v % 128 :=
  s.fget_fput_same F.RST_STATE_TARGET 0 v (by decide) (by decide) (by decide)
/-- Fields of `RST_STATE` are written apart. -/
theorem State.fget_fput_rstState (s : State) (f g : Field) (v : Nat) (h : f.lo ≤ f.hi) (hh : f.hi < 32) (hd : g.hi < f.lo ∨ f.hi < g.lo) :
    (s.fput f 0 v).fget g 0 = s.fget g 0 := s.fget_fput_other f g 0 0 v h hh (.inr (.inr (.inr hd)))
@[simp] theorem State.phase_fput_scope (s : State) (v : Nat) : (s.fput F.RST_STATE_SCOPE 0 v).phase = s.phase :=
  s.fget_fput_rstState _ _ v (by decide) (by decide) (by decide)
@[simp] theorem State.phase_fput_target (s : State) (v : Nat) : (s.fput F.RST_STATE_TARGET 0 v).phase = s.phase :=
  s.fget_fput_rstState _ _ v (by decide) (by decide) (by decide)
@[simp] theorem State.rstScope_fput_phase (s : State) (v : Nat) : (s.fput F.RST_STATE_PHASE 0 v).rstScope = s.rstScope :=
  s.fget_fput_rstState _ _ v (by decide) (by decide) (by decide)
@[simp] theorem State.rstScope_fput_target (s : State) (v : Nat) : (s.fput F.RST_STATE_TARGET 0 v).rstScope = s.rstScope :=
  s.fget_fput_rstState _ _ v (by decide) (by decide) (by decide)
@[simp] theorem State.rstTarget_fput_phase (s : State) (v : Nat) : (s.fput F.RST_STATE_PHASE 0 v).rstTarget = s.rstTarget :=
  s.fget_fput_rstState _ _ v (by decide) (by decide) (by decide)

/-! ### Engines -/

theorem State.eng_of_tiles {s u : State} (h : u.tiles = s.tiles) (t : Nat) : u.eng t = s.eng t := by rw [State.eng, State.eng, h]
/-- Engines changed one by one, each by itself: a change that brings about `P` from `I`, which `P` implies, brings it about for every engine
of the list. -/
theorem State.foldl_eng_of_mem {I P : Eng → Prop} (g : State → Nat → State) {t : Nat} (hsame : ∀ s, I (s.eng t) → P ((g s t).eng t))
    (hother : ∀ s a, t ≠ a → (g s a).eng t = s.eng t) (hpi : ∀ e, P e → I e) : ∀ (ts : List Nat) (s : State), I (s.eng t) →
      t ∈ ts ∨ P (s.eng t) → P ((ts.foldl g s).eng t)
  | [], s, _, h => h.resolve_left (by simp)
  | a :: ts, s, hi, h => by
    rw [List.foldl_cons]
    by_cases ht : t = a
    · subst ht
      have hp := hsame s hi
      exact State.foldl_eng_of_mem g hsame hother hpi ts _ (hpi _ hp) (.inr hp)
    · rw [List.mem_cons, or_iff_right ht] at h
      have hkeep := hother s a ht
      exact State.foldl_eng_of_mem g hsame hother hpi ts _ (by rwa [hkeep]) (by rwa [hkeep])

/-- Set or clear what shows an engine in reset. -/
def State.markReset (s : State) (ts : List Nat) (b : Bool) : State := ts.foldl (fun a t => a.setEng t { a.eng t with inReset := b }) s
/-- It changes nothing else of the engines of the list. -/
theorem State.markReset_eng (s : State) {ts : List Nat} (b : Bool) {t : Nat} (ht : t ∈ ts) :
    (s.markReset ts b).eng t = { s.eng t with inReset := b } := by
  refine State.foldl_eng_of_mem (I := fun e => { e with inReset := b } = { s.eng t with inReset := b })
    (P := fun e => e = { s.eng t with inReset := b }) _ ?_ ?_ ?_ ts s rfl (.inl ht)
  · intro u hu
    rw [State.eng_setEng_same, hu]
  · intro u a ha
    exact u.eng_setEng_other _ ha
  · rintro e rfl
    rfl
theorem State.markReset_sameResets (s : State) (ts : List Nat) (b : Bool) : s.sameResets (s.markReset ts b) :=
  State.foldl_sameResets _ (fun a t => a.setEng_sameResets t _) ts s

end Sys2Proof.Machine
end

section
/-! The phases of a partial reset (R381 to R385): a request that is accepted, EMPTY, RESET, and the scope that is ready again. -/

namespace Sys2Proof.Machine

/-! ### EMPTY (R383) -/

/-- EMPTY is entered, and the engines of the scope are not yet shown in reset. -/
def State.emptyPhase (s : State) : State :=
  { s.fput F.RST_STATE_PHASE 0 phEMPTY with rst := { s.rst with emptyAt := if s.phase = phEMPTY then s.rst.emptyAt else s.clk.ns } }
theorem State.emptyPhase_phase (s : State) : s.emptyPhase.phase = phEMPTY := s.phase_fput_phase phEMPTY
theorem State.emptyPhase_rstScope (s : State) : s.emptyPhase.rstScope = s.rstScope := s.rstScope_fput_phase phEMPTY
theorem State.emptyPhase_rstTarget (s : State) : s.emptyPhase.rstTarget = s.rstTarget := s.rstTarget_fput_phase phEMPTY
theorem State.rstEmpty_eq (s : State) : s.rstEmpty = s.emptyPhase.markReset s.rstTiles true := by
  rw [State.rstTiles, ← s.emptyPhase_rstScope, ← s.emptyPhase_rstTarget]
  rfl
theorem State.rstEmpty_sameResets (s : State) : s.emptyPhase.sameResets s.rstEmpty := by
  rw [State.rstEmpty_eq]
  exact State.markReset_sameResets _ _ _
theorem State.rstEmpty_phase (s : State) : s.rstEmpty.phase = phEMPTY := s.rstEmpty_sameResets.phase.trans s.emptyPhase_phase
theorem State.rstEmpty_rst (s : State) :
    s.rstEmpty.rst = { s.rst with emptyAt := if s.phase = phEMPTY then s.rst.emptyAt else s.clk.ns } := s.rstEmpty_sameResets.rst
theorem State.rstEmpty_rst_of_work {s : State} (h : s.phase = phWORK) : s.rstEmpty.rst = { s.rst with emptyAt := s.clk.ns } := by
  rw [State.rstEmpty_rst, if_neg (by rw [h]; decide)]
theorem State.rstEmpty_eng (s : State) {t : Nat} (ht : t ∈ s.rstTiles) : s.rstEmpty.eng t = { s.eng t with inReset := true } := by
  rw [State.rstEmpty_eq]
  exact State.markReset_eng _ true ht
theorem State.rstEmpty_sameRegs (s : State) {l : List Reg} (hl : .RST_STATE ∈ l) : s.sameRegs s.rstEmpty l := by
  rw [State.rstEmpty_eq]
  exact ((s.fput_sameRegs (f := F.RST_STATE_PHASE) hl 0 _).trans (State.sameRegs_of_regs _ rfl)).trans
    (State.foldl_sameRegs _ (fun a t => a.setEng_sameRegs t _ _) _ _)

/-! ### Absorbing (R381) -/

/-- The engines of the running reset are fenced. -/
def State.scopeFenced (s : State) : State := s.rstTiles.foldl (fun a t => a.fenceNow t) s
theorem State.scopeFenced_sameResets (s : State) : s.sameResets s.scopeFenced := State.foldl_sameResets _ State.fenceNow_sameResets _ s
theorem State.rstAbsorb_sameRegs (s : State) : s.sameRegs s.rstAbsorb (fenceRegs ++ [.RST_STATE]) :=
  .ite _ (((State.foldl_sameRegs _ State.fenceNow_sameRegs _ s).mono (List.subset_append_left _ _)).trans (State.rstEmpty_sameRegs _ (by decide)))
    (s.sameRegs_refl _)
theorem State.rstAbsorb_cases (s : State) : s.rstAbsorb = s ∨ s.rstAbsorb = s.scopeFenced.rstEmpty := by
  unfold State.rstAbsorb
  split
  · exact .inr rfl
  · exact .inl rfl
theorem State.rstAbsorb_of_drain {s : State} (h : s.rst.absorb = false) : s.rstAbsorb = s := if_neg (by simp [h])
theorem State.rstAbsorb_of_absorb {s : State} (h : s.rst.absorb = true) (hp : s.phase = phWORK) : s.rstAbsorb = s.scopeFenced.rstEmpty :=
  if_pos (by simp [h, hp])
theorem State.rstAbsorb_rstScope (s : State) : s.rstAbsorb.rstScope = s.rstScope := by
  rcases s.rstAbsorb_cases with h | h
  · rw [h]
  · rw [h]
    exact (s.scopeFenced.rstEmpty_sameResets.rstScope.trans s.scopeFenced.emptyPhase_rstScope).trans s.scopeFenced_sameResets.rstScope
theorem State.rstAbsorb_rstTarget (s : State) : s.rstAbsorb.rstTarget = s.rstTarget := by
  rcases s.rstAbsorb_cases with h | h
  · rw [h]
  · rw [h]
    exact (s.scopeFenced.rstEmpty_sameResets.rstTarget.trans s.scopeFenced.emptyPhase_rstTarget).trans s.scopeFenced_sameResets.rstTarget
theorem State.rstAbsorb_rst (s : State) : ∃ at_, s.rstAbsorb.rst = { s.rst with emptyAt := at_ } := by
  rcases s.rstAbsorb_cases with h | h
  · exact ⟨s.rst.emptyAt, by rw [h]⟩
  · exact ⟨_, by rw [h, State.rstEmpty_rst, s.scopeFenced_sameResets.rst]⟩
theorem State.rstAbsorb_phase {s : State} (hp : s.phase = phWORK) : s.rstAbsorb.phase = if s.rst.absorb = true then phEMPTY else phWORK := by
  by_cases h : s.rst.absorb = true
  · rw [if_pos h, State.rstAbsorb_of_absorb h hp, State.rstEmpty_phase]
  · rw [if_neg h, State.rstAbsorb_of_drain (by simpa using h), hp]
/-- An engine that is absorbed shows in reset at once. -/
theorem State.rstAbsorb_inReset {s : State} (h : s.rst.absorb = true) (hp : s.phase = phWORK) {t : Nat} (ht : t ∈ s.rstTiles) :
    (s.rstAbsorb.eng t).inReset = true := by
  rw [State.rstAbsorb_of_absorb h hp, State.rstEmpty_eng _ (by rwa [s.scopeFenced_sameResets.rstTiles])]

/-! ### A request that is accepted (R381, R382) -/

/-- WORK begins for a scope. -/
def State.rstBegun (s : State) (scope target : Nat) (absorb : Bool) (src : Option Nat) : State :=
  { ((s.fput F.RST_STATE_PHASE 0 phWORK).fput F.RST_STATE_SCOPE 0 scope).fput F.RST_STATE_TARGET 0 target with
    rst := { s.rst with absorb := absorb, src := src, reqAt := s.clk.ns, workAt := s.clk.ns, forced := false } }
/-- The boundary has closed as well. -/
def State.rstClosed (s : State) (scope target : Nat) (absorb : Bool) (src : Option Nat) : State :=
  if scope = rsPATH then (s.rstBegun scope target absorb src).pathClose target else s.rstBegun scope target absorb src
theorem State.rstAccept_eq (s : State) (scope target : Nat) (absorb : Bool) (src : Option Nat) :
    s.rstAccept scope target absorb src = (s.rstClosed scope target absorb src).rstAbsorb := rfl

section Accepted
variable (s : State) (scope target : Nat) (absorb : Bool) (src : Option Nat)

theorem State.rstClosed_sameResets : (s.rstBegun scope target absorb src).sameResets (s.rstClosed scope target absorb src) :=
  .ite _ (State.pathClose_sameResets _ _) (State.sameResets_refl _)
theorem State.rstClosed_rst : (s.rstClosed scope target absorb src).rst =
    { s.rst with absorb := absorb, src := src, reqAt := s.clk.ns, workAt := s.clk.ns, forced := false } :=
  (s.rstClosed_sameResets scope target absorb src).rst
theorem State.rstClosed_phase : (s.rstClosed scope target absorb src).phase = phWORK :=
  (s.rstClosed_sameResets scope target absorb src).phase.trans
    ((State.phase_fput_target _ _).trans ((State.phase_fput_scope _ _).trans (State.phase_fput_phase _ _)))
theorem State.rstClosed_rstScope (h : scope < 8) : (s.rstClosed scope target absorb src).rstScope = scope :=
  (s.rstClosed_sameResets scope target absorb src).rstScope.trans
    ((State.rstScope_fput_target _ _).trans ((State.rstScope_fput_scope _ _).trans (Nat.mod_eq_of_lt h)))
theorem State.rstClosed_rstTarget (h : target < 128) : (s.rstClosed scope target absorb src).rstTarget = target :=
  (s.rstClosed_sameResets scope target absorb src).rstTarget.trans ((State.rstTarget_fput_target _ _).trans (Nat.mod_eq_of_lt h))
theorem State.rstClosed_sameRegs : s.sameRegs (s.rstClosed scope target absorb src) [.FAB_STATE, .RST_STATE] := by
  have hbegun : s.sameRegs (s.rstBegun scope target absorb src) [.FAB_STATE, .RST_STATE] :=
    (((s.fput_sameRegs (f := F.RST_STATE_PHASE) (by decide) 0 _).trans (State.fput_sameRegs _ (f := F.RST_STATE_SCOPE) (by decide) 0 _)).trans
      (State.fput_sameRegs _ (f := F.RST_STATE_TARGET) (by decide) 0 _)).trans (State.sameRegs_of_regs _ rfl)
  refine .ite _ (hbegun.trans (State.foldl_sameRegs _ (fun a p => .ite _ (a.sameRegs_refl _) ?_) _ _)) hbegun
  exact ((a.portDark_sameRegs p).mono (by decide)).trans (State.fput_sameRegs _ (f := F.FAB_STATE_STATE) (by decide) p _)
theorem State.rstAccept_sameRegs :
    s.sameRegs (s.rstAccept scope target absorb src) ([.FAB_STATE, .RST_STATE] ++ (fenceRegs ++ [.RST_STATE])) :=
  ((s.rstClosed_sameRegs scope target absorb src).mono (List.subset_append_left _ _)).trans
    ((State.rstAbsorb_sameRegs _).mono (List.subset_append_right _ _))
/-- The accepted reset begins in WORK, or in EMPTY when it absorbs. -/
theorem State.rstAccept_phase : (s.rstAccept scope target absorb src).phase = if absorb = true then phEMPTY else phWORK := by
  rw [State.rstAccept_eq, State.rstAbsorb_phase (s.rstClosed_phase scope target absorb src), State.rstClosed_rst]
theorem State.rstAccept_rstScope (h : scope < 8) : (s.rstAccept scope target absorb src).rstScope = scope :=
  (State.rstAbsorb_rstScope _).trans (s.rstClosed_rstScope scope target absorb src h)
theorem State.rstAccept_rstTarget (h : target < 128) : (s.rstAccept scope target absorb src).rstTarget = target :=
  (State.rstAbsorb_rstTarget _).trans (s.rstClosed_rstTarget scope target absorb src h)
/-- The state of the reset follows from the request. -/
theorem State.rstAccept_rst : ∃ at_, (s.rstAccept scope target absorb src).rst =
    { s.rst with absorb := absorb, src := src, reqAt := s.clk.ns, workAt := s.clk.ns, forced := false, emptyAt := at_ } := by
  obtain ⟨at_, h⟩ := (s.rstClosed scope target absorb src).rstAbsorb_rst
  rw [State.rstClosed_rst] at h
  exact ⟨at_, h⟩
theorem State.rstAccept_inReset (habsorb : absorb = true) (hscope : scope < 8) (htarget : target < 128) {t : Nat}
    (ht : t ∈ scopeTiles scope target) : ((s.rstAccept scope target absorb src).eng t).inReset = true := by
  refine State.rstAbsorb_inReset ?_ (s.rstClosed_phase scope target absorb src) ?_
  · rw [State.rstClosed_rst]
    exact habsorb
  · rwa [State.rstTiles, State.rstClosed_rstScope _ _ _ _ _ hscope, State.rstClosed_rstTarget _ _ _ _ _ htarget]
theorem State.rstAccept_portLive (hscope : scope = rsPATH) {p : Nat} (hp : p = 2 * target ∨ p = 2 * target + 1) :
    (s.rstAccept scope target absorb src).portLive p = false := by
  have hclosed : (s.rstClosed scope target absorb src).portLive p = false := by
    rw [State.rstClosed, if_pos hscope]
    exact State.portLive_pathClose _ target hp
  rw [← hclosed, State.rstAccept_eq, State.portLive, State.portLive, State.portState, State.portState,
    (State.rstAbsorb_sameRegs _).fget F.FAB_STATE_STATE p (by decide) (by decide)]

end Accepted

/-! ### RESET (R384, R385) -/

theorem State.abortArray_eng_other (s : State) {t u : Nat} (h : u ≠ t) : (s.abortArray t).eng u = s.eng u := by
  have hset : (s.setEng t (s.eng t).discard).eng u = s.eng u := s.eng_setEng_other _ h
  change ((s.setEng t (s.eng t).discard).arrSettled t).eng u = _
  unfold State.arrSettled
  dsimp only
  split
  · exact hset
  · split
    · exact hset
    · exact (State.eng_setEng_other _ _ h).trans hset
/-- An engine as its reset leaves it. -/
def Eng.isReset (e : Eng) : Prop := e.disp = none ∧ e.pc = 0 ∧ e.inReset = true ∧ ∀ n, e.s n = 0
theorem State.engineReset_eng_same (s : State) (t : Nat) : ((s.engineReset t).eng t).isReset := by
  have htiles : ∀ (a : State) (e : Eng), (((a.setEng t e).forget t).setStop t { (a.setEng t e).stop t with stage := [] }).eng t = e :=
    fun a e => a.eng_setEng_same t e
  have heng : (s.engineReset t).eng t = _ := htiles _ _
  rw [heng]
  exact ⟨rfl, rfl, rfl, fun _ => rfl⟩
theorem State.engineReset_eng_other (s : State) {t u : Nat} (h : u ≠ t) : (s.engineReset t).eng u = s.eng u :=
  (State.eng_setEng_other ((s.abortArray t).regsReset _) _ h).trans (s.abortArray_eng_other h)
theorem State.foldl_engineReset_eng (s : State) {ts : List Nat} {t : Nat} (ht : t ∈ ts) :
    ((ts.foldl (fun a t => a.engineReset t) s).eng t).isReset :=
  State.foldl_eng_of_mem (I := fun _ => True) (P := Eng.isReset) (fun a t => a.engineReset t) (fun a _ => a.engineReset_eng_same t)
    (fun a _ h => a.engineReset_eng_other h) (fun _ _ => trivial) ts s trivial (.inl ht)
theorem State.towerReset_eng (s : State) {w t : Nat} (ht : t ∈ scopeTiles rsTOWER w) : ((s.towerReset w).eng t).isReset :=
  State.foldl_engineReset_eng _ ht
theorem State.scopeReset_phase (s : State) : s.scopeReset.phase = phRESET := State.phase_fput_phase _ phRESET
/-- Every engine of the scope is reset, unless the scope is the two ports of a base die. -/
theorem State.scopeReset_eng {s : State} (h : s.rstScope ≠ rsPATH) {t : Nat} (ht : t ∈ s.rstTiles) : (s.scopeReset.eng t).isReset := by
  have hmatch : ((match s.rstScope with
    | 2 => s.towerReset s.rstTarget
    | 3 => s
    | _ => s.rstTiles.foldl (fun a t => a.engineReset t) s).eng t).isReset := by
    split
    · next hscope =>
      rw [State.rstTiles, hscope] at ht
      exact s.towerReset_eng ht
    · next hscope => exact absurd hscope h
    · exact s.foldl_engineReset_eng ht
  exact hmatch

end Sys2Proof.Machine
end

section
/-! Reset requests, the end of a partial reset, and the obligation on resets (R24, R381 to R386). -/

namespace Sys2Proof.Machine

/-! ### The scope is ready again (R385, R399) -/

theorem State.fget_fadd_same (s : State) (f : Field) (i n : Nat) (h : f.lo ≤ f.hi) (hh : f.hi < 32) (ha : f.app ≠ .staged) :
    (s.fadd f i n).fget f i = (s.fget f i + n) % 2 ^ f.width :=
  (s.fget_fput_same f i _ h hh ha).trans (Nat.mod_mod _ _)
theorem State.flag_event_same (s : State) (f : Field) (i : Nat) (h : f.lo < 16) (hf : f.hi = f.lo) (ha : f.app ≠ .staged) :
    (s.event f i).flag f i = true := by
  rw [State.flag, s.fget_event_same f i h hf ha]
  rfl
theorem State.logWrite_sameRegs (s : State) (r : LogRec) (freezes : Bool) : s.sameRegs (s.logWrite r freezes) edyRegs := by
  have hhead : ∀ v, s.sameRegs (s.fput F.EDY_HEAD_INDEX 0 v) edyRegs := s.fput_sameRegs (by decide) 0
  unfold State.logWrite
  dsimp only
  refine .ite _ ?_ (.ite _ ?_ ?_)
  · exact (s.fput_sameRegs (f := F.EDY_MISSED_MISSED) (by decide) 0 _).trans (State.event_sameRegs _ (f := F.EDY_STAT_MISSED) (by decide) 0)
  · refine .trans (.trans (.trans ?_ (State.fput_sameRegs _ ?_ 0 _)) (State.fput_sameRegs _ ?_ 0 _)) (State.event_sameRegs _ ?_ 0)
    · exact fun q i hq => hhead _ q i hq
    all_goals decide
  · exact fun q i hq => hhead _ q i hq
theorem State.rstRecord_sameRegs (s : State) (fallback : Bool) : s.sameRegs (s.rstRecord fallback) edyRegs := s.logWrite_sameRegs _ _
theorem State.setSrc_sameRegs (s : State) (k : Nat) (x : Src) : s.sameRegs (s.setSrc k x) faultRegs :=
  ((State.sameRegs.trans (State.sameRegs_of_regs _ rfl) (State.fput_sameRegs _ (f := F.FLT_IDATA_RECOV) (by decide) k _)).trans
    (State.fput_sameRegs _ (f := F.FLT_IDATA2_OCC) (by decide) k _)).trans
    ((State.fput_sameRegs _ (f := F.FLT_IDATA2_FAULT) (by decide) k _).trans (State.fput_sameRegs _ (f := F.FLT_ACTIVE_COUNT) (by decide) 0 _))

/-- The engines and ports of the scope come back. -/
def State.scopeBack (s : State) : State :=
  let w := s.rstTarget
  let s1 := s.markReset s.rstTiles false
  if s.rstScope = rsTOWER then s.rstTiles.foldl (fun a t => a.fput F.VCH_CFG_CMODE t 0) s1
  else if s.rstScope = rsPATH then [2 * w, 2 * w + 1].foldl (fun a p => if a.portState p = fpTRAIN then a.trainFrom p fpTRAIN else a) s1
  else s1
/-- The reset is counted, and its time shown. -/
def State.rstCounted (s : State) : State :=
  ((s.scopeBack.fadd (if s.rstScope = rsPATH then F.RST_CNT_PATH else F.RST_CNT_PARTIAL) 0 1).event F.RST_STAT_DONE 0).rput .RST_LAST 0
    (BitVec.ofNat 32 ((s.clk.ns - s.rst.reqAt) / 1000))
/-- The fault source whose reaction the reset was may order another. -/
def State.srcIdle (s : State) (src : Option Nat) : State := match src with
  | some k => s.setSrc k { s.src k with brIdle := true }
  | none => s
/-- The reset is over; a queued request has not yet begun. -/
def State.rstDone (s : State) : State := ((s.rstCounted.rstRecord false).srcIdle s.rst.src).fput F.RST_STATE_PHASE 0 phIDLE
/-- The front request leaves the queue. -/
def State.dequeued (s : State) (rest : List RstReq) : State :=
  ({ s with rst := { s.rst with queue := rest } } : State).fput F.RST_STATE_QLEN 0 rest.length
/-- A queued request begins, in ABSORB mode. -/
def State.rstNext (s : State) (q : RstReq) (rest : List RstReq) : State := (s.dequeued rest).rstAccept q.scope q.target true q.src
theorem State.rstFinish_eq (s : State) : s.rstFinish = match s.rstDone.rst.queue with
    | [] => s.rstDone
    | q :: rest => s.rstDone.rstNext q rest := rfl

theorem State.scopeBack_sameResets (s : State) : s.sameResets s.scopeBack := by
  have hmark := s.markReset_sameResets s.rstTiles false
  refine .ite _ (hmark.trans (State.foldl_sameResets _ (fun a t => a.fput_sameResets F.VCH_CFG_CMODE t 0 (by decide)) _ _)) (.ite _ ?_ hmark)
  exact hmark.trans (State.foldl_sameResets _ (fun a p => .ite _ (a.trainFrom_sameResets p fpTRAIN) a.sameResets_refl) _ _)
theorem State.scopeBack_tiles (s : State) : s.scopeBack.tiles = (s.markReset s.rstTiles false).tiles := by
  unfold State.scopeBack
  dsimp only
  split
  · exact foldl_keeps State.tiles _ _ _ fun _ _ => rfl
  · split
    · exact foldl_keeps State.tiles _ _ _ fun a p => (ite_keeps State.tiles _ _ _).trans (ite_self _)
    · rfl
theorem State.rstCounted_done (s : State) : s.rstCounted.flag F.RST_STAT_DONE 0 = true :=
  ((State.rput_sameRegs _ (List.mem_singleton_self Reg.RST_LAST) 0 _).flag F.RST_STAT_DONE 0 (by decide) (by decide)).trans
    (State.flag_event_same _ F.RST_STAT_DONE 0 (by decide) (by decide) (by decide))
theorem State.rstCounted_last (s : State) : s.rstCounted.rget .RST_LAST 0 = BitVec.ofNat 32 ((s.clk.ns - s.rst.reqAt) / 1000) :=
  State.rget_rput_same _ _ _ _
/-- The counter of the scope's kind counts one more. -/
theorem State.rstCounted_count (s : State) {f : Field} (hf : (if s.rstScope = rsPATH then F.RST_CNT_PATH else F.RST_CNT_PARTIAL) = f)
    (hreg : f.reg = .RST_CNT) (hlo : f.lo ≤ f.hi) (hhi : f.hi < 32) (happ : f.app ≠ .staged) :
    s.rstCounted.fget f 0 = (s.fget f 0 + 1) % 2 ^ f.width := by
  have hlater : ((s.scopeBack.fadd f 0 1).sameRegs s.rstCounted [.RST_STAT, .RST_LAST]) := by
    rw [State.rstCounted, hf]
    exact (State.event_sameRegs _ (f := F.RST_STAT_DONE) (by decide) 0).trans (State.rput_sameRegs _ (by decide) 0 _)
  rw [hlater.fget f 0 (by rw [hreg]; decide) happ, State.fget_fadd_same _ f 0 1 hlo hhi happ,
    s.scopeBack_sameResets.fget f 0 (by rw [hreg]; decide) happ]
theorem State.srcIdle_sameRegs (s : State) (src : Option Nat) : s.sameRegs (s.srcIdle src) faultRegs := by
  cases src with
  | none => exact s.sameRegs_refl _
  | some k => exact s.setSrc_sameRegs k _
/-- What counting, recording and the end of the phase leave alone. -/
theorem State.rstDone_keeps {β : Type} {φ : State → β} (hregs : Ign.regs φ) (hflt : Ign.flt φ) (hedy : Ign.edy φ) (s : State) :
    φ s.rstDone = φ s.scopeBack := by
  have hcount : φ s.rstCounted = φ s.scopeBack :=
    (State.rput_keeps hregs _ _ _ _).trans ((State.event_keeps hregs _ _ _).trans (State.fadd_keeps hregs _ _ _ _))
  have hrecord : φ (s.rstCounted.rstRecord false) = φ s.scopeBack := (State.rstRecord_keeps hregs hedy _ _).trans hcount
  refine (State.fput_keeps hregs _ _ _ _).trans ?_
  cases hsrc : s.rst.src with
  | none => exact hrecord
  | some k => exact (State.setSrc_keeps hregs hflt _ k _).trans hrecord
theorem State.rstDone_rst (s : State) : s.rstDone.rst = s.rst :=
  (State.rstDone_keeps (φ := State.rst) (fun _ _ => rfl) (fun _ _ => rfl) (fun _ _ => rfl) s).trans s.scopeBack_sameResets.rst
theorem State.rstDone_phase (s : State) : s.rstDone.phase = phIDLE := State.phase_fput_phase _ phIDLE
theorem State.rstDone_eng (s : State) {t : Nat} (ht : t ∈ s.rstTiles) : (s.rstDone.eng t).inReset = false := by
  have htiles := (State.rstDone_keeps (φ := State.tiles) (fun _ _ => rfl) (fun _ _ => rfl) (fun _ _ => rfl) s).trans s.scopeBack_tiles
  rw [State.eng_of_tiles htiles, State.markReset_eng _ false ht]
/-- What may change after the reset has been counted. -/
def rstEndRegs : List Reg := edyRegs ++ faultRegs ++ ([.FAB_STATE, .RST_STATE] ++ (fenceRegs ++ [.RST_STATE]))
theorem State.rstDone_sameRegs (s : State) : s.rstCounted.sameRegs s.rstDone rstEndRegs :=
  (((State.rstRecord_sameRegs _ false).mono (List.subset_append_of_subset_left _ (List.subset_append_left _ _))).trans
    ((State.srcIdle_sameRegs _ _).mono (List.subset_append_of_subset_left _ (List.subset_append_right _ _)))).trans
    (State.fput_sameRegs _ (f := F.RST_STATE_PHASE) (by decide) 0 _)
theorem State.dequeued_sameRegs (s : State) (rest : List RstReq) {l : List Reg} (hl : .RST_STATE ∈ l) : s.sameRegs (s.dequeued rest) l :=
  fun r i hr => s.fput_sameRegs (f := F.RST_STATE_QLEN) hl 0 rest.length r i hr
theorem State.rstNext_sameRegs (s : State) (q : RstReq) (rest : List RstReq) : s.sameRegs (s.rstNext q rest) rstEndRegs :=
  (s.dequeued_sameRegs rest (by decide)).trans ((State.rstAccept_sameRegs _ _ _ _ _).mono (List.subset_append_right _ _))
theorem State.rstNext_rst (s : State) (q : RstReq) (rest : List RstReq) :
    (s.rstNext q rest).rst.queue = rest ∧ (s.rstNext q rest).rst.absorb = true ∧ (s.rstNext q rest).rst.src = q.src := by
  obtain ⟨at_, hrst⟩ := (s.dequeued rest).rstAccept_rst q.scope q.target true q.src
  rw [State.rstNext, hrst]
  exact ⟨rfl, rfl, rfl⟩
theorem State.rstFinish_of_nil {s : State} (h : s.rst.queue = []) : s.rstFinish = s.rstDone := by
  rw [State.rstFinish_eq, State.rstDone_rst, h]
theorem State.rstFinish_of_cons {s : State} {q : RstReq} {l : List RstReq} (h : s.rst.queue = q :: l) : s.rstFinish = s.rstDone.rstNext q l := by
  rw [State.rstFinish_eq, State.rstDone_rst, h]
theorem State.rstFinish_sameRegs (s : State) : s.rstCounted.sameRegs s.rstFinish rstEndRegs := by
  cases h : s.rst.queue with
  | nil =>
    rw [State.rstFinish_of_nil h]
    exact s.rstDone_sameRegs
  | cons q l =>
    rw [State.rstFinish_of_cons h]
    exact s.rstDone_sameRegs.trans (State.rstNext_sameRegs _ q l)

/-! ### Requests (R381) -/

theorem scopeTarget_lt (scope t : Nat) : scopeTarget scope t < 128 := by
  unfold scopeTarget
  split <;> omega
/-- `RST_CTL` shows what was asked for. -/
def State.rstAsked (s : State) (v : Nat) : State :=
  ((s.fput F.RST_CTL_SCOPE 0 (min 4 (bits v 2 0))).fput F.RST_CTL_TARGET 0 (bits v 14 8)).fput F.RST_CTL_MODE 0 (bits v 16 16)
theorem State.rstAsked_sameRegs (s : State) (v : Nat) : s.sameRegs (s.rstAsked v) [.RST_CTL] :=
  ((s.fput_sameRegs (f := F.RST_CTL_SCOPE) (by decide) 0 _).trans (State.fput_sameRegs _ (f := F.RST_CTL_TARGET) (by decide) 0 _)).trans
    (State.fput_sameRegs _ (f := F.RST_CTL_MODE) (by decide) 0 _)
theorem State.rstAsked_sameResets (s : State) (v : Nat) : s.sameResets (s.rstAsked v) := (s.rstAsked_sameRegs v).sameResets (by decide) rfl rfl
theorem execResetRequest_eq (w : Word) (s : State) : execResetRequest w s = .next ((s.rstAsked w.toNat).rstRequest (min 4 (bits w.toNat 2 0))
    (scopeTarget (min 4 (bits w.toNat 2 0)) (bits w.toNat 14 8)) (bitOf w.toNat 16) none) := rfl

section Requests
variable {s : State} {scope target : Nat} {absorb : Bool}

theorem State.rstRequest_module (h : 4 ≤ scope) : s.rstRequest scope target absorb none = s.modWant false := if_pos h
theorem State.rstRequest_refused (h : scope < 4) (hready : s.flag F.BOOT_STAT_READY 0 = false) :
    s.rstRequest scope target absorb none = s.event F.RST_STAT_REFUSED 0 := by
  rw [State.rstRequest, if_neg (by omega), if_pos (by simp [hready])]
theorem State.rstRequest_idle (h : scope < 4) (hready : s.flag F.BOOT_STAT_READY 0 = true) (hidle : s.phase = phIDLE) :
    s.rstRequest scope target absorb none = s.rstAccept scope target absorb none := by
  rw [State.rstRequest, if_neg (by omega), if_neg (by simp [hready]), if_pos hidle]
theorem State.rstRequest_busy (h : scope < 4) (hready : s.flag F.BOOT_STAT_READY 0 = true) (hbusy : s.phase ≠ phIDLE)
    (hwider : scopeHolds scope target s.rstScope s.rstTarget = false) (hnarrower : scopeHolds s.rstScope s.rstTarget scope target = false) :
    s.rstRequest scope target absorb none = s.event F.RST_STAT_BUSY 0 := by
  rw [State.rstRequest, if_neg (by omega), if_neg (by simp [hready]), if_neg hbusy, if_neg (by simp [hwider]), if_neg (by simp [hnarrower]),
    if_pos Option.isNone_none]

end Requests

/-- An event of `RST_STAT` leaves the phase alone. -/
theorem State.phase_event_rstStat (s : State) {f : Field} (hf : f.reg = .RST_STAT) : (s.event f 0).phase = s.phase :=
  (s.event_sameRegs (l := [.RST_STAT]) (by simp [hf]) 0).fget F.RST_STATE_PHASE 0 (by decide) (by decide)

/-! ### The end of WORK by time (R383) -/

/-- The engines that still hold a dispatch are fenced, and the reset is forced. -/
def State.workForced (s : State) : State :=
  let s1 := (s.rstTiles.filter (fun t => (s.eng t).disp.isSome)).foldl (fun a t => a.fenceNow t) s
  ({ s1 with rst := { s1.rst with forced := true } } : State).event F.RST_STAT_FORCED 0
/-- Of what the reset block shows, `RST_STAT` alone changes. -/
theorem State.workForced_regs (s : State) {r : Reg} (hr : r ∈ rstRegs) (hne : r ≠ .RST_STAT) (i : Nat) : s.workForced.rget r i = s.rget r i :=
  (State.rget_event_other _ F.RST_STAT_FORCED 0 (fun h => hne h.1)).trans
    ((State.foldl_sameResets _ State.fenceNow_sameResets _ s).regs r hr i)
theorem State.workForced_fget (s : State) {f : Field} (hf : f.reg = .RST_STATE) (ha : f.app ≠ .staged) : s.workForced.fget f 0 = s.fget f 0 := by
  rw [State.fget, State.fget, if_neg ha, if_neg ha, s.workForced_regs (by rw [hf]; decide) (by rw [hf]; decide)]
theorem State.workForced_phase (s : State) : s.workForced.phase = s.phase := s.workForced_fget (f := F.RST_STATE_PHASE) rfl (by decide)
theorem State.workForced_rstTiles (s : State) : s.workForced.rstTiles = s.rstTiles := by
  rw [State.rstTiles, State.rstScope, State.rstTarget, s.workForced_fget (f := F.RST_STATE_SCOPE) rfl (by decide),
    s.workForced_fget (f := F.RST_STATE_TARGET) rfl (by decide)]
  rfl
theorem State.workForced_rst (s : State) : s.workForced.rst = { s.rst with forced := true } :=
  congrArg (fun x => ({ x with forced := true } : Rst)) (State.foldl_sameResets _ State.fenceNow_sameResets _ s).rst
theorem State.workForced_clk (s : State) : s.workForced.clk = s.clk := (State.foldl_sameResets _ State.fenceNow_sameResets _ s).clk

/-! ### The commands -/

/-- A request in IDLE is accepted. -/
theorem State.rstRequest_accepted {s : State} {scope target : Nat} (absorb : Bool) (v : Nat) (h : scope < 4) (htarget : target < 128)
    (hready : s.flag F.BOOT_STAT_READY 0 = true) (hidle : s.phase = phIDLE) :
    let u := (s.rstAsked v).rstRequest scope target absorb none
    u.rstScope = scope ∧ u.rstTarget = target ∧ u.rst.absorb = absorb ∧ u.rst.reqAt = s.clk.ns ∧
      u.phase = (if absorb then phEMPTY else phWORK) ∧ (absorb = true → ∀ t, t ∈ scopeTiles scope target → (u.eng t).inReset = true) ∧
      (scope = rsPATH → ∀ p, p = 2 * target ∨ p = 2 * target + 1 → u.portLive p = false) := by
  have hflag := ((s.rstAsked_sameRegs v).flag F.BOOT_STAT_READY 0 (by decide) (by decide)).trans hready
  rw [State.rstRequest_idle h hflag ((s.rstAsked_sameResets v).phase.trans hidle)]
  obtain ⟨at_, hrst⟩ := (s.rstAsked v).rstAccept_rst scope target absorb none
  refine ⟨State.rstAccept_rstScope _ _ _ _ _ (by omega), State.rstAccept_rstTarget _ _ _ _ _ htarget, by rw [hrst], by rw [hrst]; rfl,
    State.rstAccept_phase _ _ _ _ _, ?_, ?_⟩
  · intro habsorb t ht
    exact State.rstAccept_inReset _ _ _ _ _ habsorb (by omega) htarget ht
  · intro hpath p hp
    exact State.rstAccept_portLive _ _ _ _ _ hpath hp
/-- RESET_WORK_TIMEOUT forces the reset on to EMPTY. -/
theorem execResetWorkTimeout_due {s : State} (hwork : s.phase = phWORK) (hdrain : s.rst.absorb = false)
    (hdue : s.rst.workAt + 1000000 * max 1 (s.fget F.RST_DL1_WORK_MS 0) ≤ s.clk.ns) : execResetWorkTimeout s = .next s.workForced.rstEmpty :=
  congrArg Host.Outcome.next (if_pos (by simp [hwork, hdrain, hdue]))
theorem State.workForced_rstEmpty {s : State} (hwork : s.phase = phWORK) : s.workForced.rstEmpty.phase = phEMPTY ∧
    s.workForced.rstEmpty.rst = { s.rst with emptyAt := s.clk.ns, forced := true } ∧ s.workForced.rstEmpty.flag F.RST_STAT_FORCED 0 = true ∧
    ∀ t, t ∈ s.rstTiles → (s.workForced.rstEmpty.eng t).inReset = true := by
  refine ⟨State.rstEmpty_phase _, ?_, ?_, ?_⟩
  · rw [State.rstEmpty_rst_of_work (s.workForced_phase.trans hwork), State.workForced_rst, State.workForced_clk]
  · rw [(State.rstEmpty_sameRegs s.workForced (List.mem_singleton_self _)).flag F.RST_STAT_FORCED 0 (by decide) (by decide)]
    exact State.flag_event_same _ F.RST_STAT_FORCED 0 (by decide) (by decide) (by decide)
  · intro t ht
    rw [State.rstEmpty_eng _ (by rwa [State.workForced_rstTiles])]
/-- RESET_SCOPE_READY: the reset is counted and its scope comes back; a queued request begins. -/
theorem State.rstFinish_results (s : State) : s.rstFinish.flag F.RST_STAT_DONE 0 = true ∧
    s.rstFinish.rget .RST_LAST 0 = BitVec.ofNat 32 ((s.clk.ns - s.rst.reqAt) / 1000) ∧
    (s.rstScope = rsPATH → s.rstFinish.fget F.RST_CNT_PATH 0 = (s.fget F.RST_CNT_PATH 0 + 1) % 2 ^ 16) ∧
    (s.rstScope ≠ rsPATH → s.rstFinish.fget F.RST_CNT_PARTIAL 0 = (s.fget F.RST_CNT_PARTIAL 0 + 1) % 2 ^ 16) ∧
    (s.rst.queue = [] → s.rstFinish.phase = phIDLE ∧ ∀ t, t ∈ s.rstTiles → (s.rstFinish.eng t).inReset = false) ∧
    ∀ q l, s.rst.queue = q :: l → s.rstFinish.rst.queue = l ∧ s.rstFinish.rst.absorb = true ∧ s.rstFinish.rst.src = q.src := by
  have hlater := s.rstFinish_sameRegs
  refine ⟨?_, ?_, ?_, ?_, ?_, ?_⟩
  · rw [hlater.flag F.RST_STAT_DONE 0 (by decide) (by decide), State.rstCounted_done]
  · rw [hlater _ _ (by decide), State.rstCounted_last]
  · intro hpath
    rw [hlater.fget F.RST_CNT_PATH 0 (by decide) (by decide)]
    exact s.rstCounted_count (if_pos hpath) rfl (by decide) (by decide) (by decide)
  · intro hpath
    rw [hlater.fget F.RST_CNT_PARTIAL 0 (by decide) (by decide)]
    exact s.rstCounted_count (if_neg hpath) rfl (by decide) (by decide) (by decide)
  · intro hqueue
    rw [State.rstFinish_of_nil hqueue]
    exact ⟨s.rstDone_phase, fun t ht => s.rstDone_eng ht⟩
  · intro q l hqueue
    rw [State.rstFinish_of_cons hqueue]
    exact State.rstNext_rst _ q l
theorem State.scopeReset_spm (s : State) : s.scopeReset.spm = s.spm :=
  scopeReset_keeps (φ := State.spm) (fun _ _ => rfl) (fun _ _ => rfl) (fun _ _ => rfl) (fun _ _ => rfl) (fun _ _ => rfl) (fun _ _ => rfl)
    (fun _ _ => rfl) (fun _ _ => rfl) (fun _ _ => rfl) (fun _ _ => rfl) (fun _ _ => rfl) (fun _ _ => rfl) s
theorem State.scopeReset_mem (s : State) : s.scopeReset.mem = s.mem :=
  scopeReset_keeps (φ := State.mem) (fun _ _ => rfl) (fun _ _ => rfl) (fun _ _ => rfl) (fun _ _ => rfl) (fun _ _ => rfl) (fun _ _ => rfl)
    (fun _ _ => rfl) (fun _ _ => rfl) (fun _ _ => rfl) (fun _ _ => rfl) (fun _ _ => rfl) (fun _ _ => rfl) s

/-- Settles O37 (R24, R381 to R386; log entries 34, 35, 69 and 73): a request is accepted, refused or orders a module reset; the phases of a
partial reset follow each other; a module reset returns everything outside the retained domain to reset. -/
theorem resetResults : Obligations.ResetResults := by
  unfold Obligations.ResetResults
  refine ⟨fun s => ⟨?_, ?_, ?_, ?_, ?_, ?_⟩, ?_⟩
  · intro w scope target absorb
    have hasked := s.rstAsked_sameResets w.toNat
    have hready := (s.rstAsked_sameRegs w.toNat).flag F.BOOT_STAT_READY 0 (by decide) (by decide)
    refine ⟨(s.rstAsked w.toNat).rstRequest scope target absorb none, execResetRequest_eq w s, ?_, ?_, ?_, ?_⟩
    · intro hscope
      rw [State.rstRequest_module hscope.ge]
      rfl
    · intro hscope hnot
      rw [State.rstRequest_refused hscope (hready.trans hnot)]
      exact ⟨State.flag_event_same _ F.RST_STAT_REFUSED 0 (by decide) (by decide) (by decide), rfl,
        (State.phase_event_rstStat _ rfl).trans hasked.phase⟩
    · exact fun hscope hyes hidle => State.rstRequest_accepted absorb _ hscope (scopeTarget_lt _ _) hyes hidle
    · intro hscope hyes hbusy hwider hnarrower
      rw [State.rstRequest_busy hscope (hready.trans hyes) (by rwa [hasked.phase]) (by rwa [hasked.rstScope, hasked.rstTarget])
        (by rwa [hasked.rstScope, hasked.rstTarget])]
      exact ⟨State.flag_event_same _ F.RST_STAT_BUSY 0 (by decide) (by decide) (by decide), rfl,
        (State.phase_event_rstStat _ rfl).trans hasked.phase⟩
  · intro hwork hdrain hidle
    exact ⟨_, congrArg Host.Outcome.next (if_pos (by simp [hwork, hdrain, hidle])), s.rstEmpty_phase, State.rstEmpty_rst_of_work hwork,
      fun t ht => s.rstEmpty_eng ht⟩
  · intro hwork hdrain hdue
    exact ⟨_, execResetWorkTimeout_due hwork hdrain hdue, State.workForced_rstEmpty hwork⟩
  · intro hempty hclear
    refine ⟨_, congrArg Host.Outcome.next (if_pos (by simp [hempty, hclear])), s.scopeReset_phase, s.scopeReset_spm, s.scopeReset_mem, ?_⟩
    exact fun hscope t ht => State.scopeReset_eng hscope ht
  · intro hempty hdue
    refine ⟨_, congrArg Host.Outcome.next (if_pos (by simp [hempty, hdue])), rfl, ?_⟩
    have hflag := (State.rstRecord_sameRegs (s.event F.RST_STAT_FALLBACK 0) true).flag F.RST_STAT_FALLBACK 0 (by decide) (by decide)
    exact hflag.trans (State.flag_event_same _ F.RST_STAT_FALLBACK 0 (by decide) (by decide) (by decide))
  · intro hreset
    exact ⟨_, congrArg Host.Outcome.next (if_pos hreset), s.rstFinish_results⟩
  · intro s hdue
    refine ⟨_, congrArg Host.Outcome.next (if_pos hdue), s.moduleReset_freshBut, fun hs r i hr => State.moduleReset_rget_kept hs hr i, rfl, rfl,
      rfl, rfl, rfl, rfl, rfl, rfl, rfl, ?_, rfl, rfl, rfl⟩
    intro hconf
    change (s.sec.zeroFlag || s.conf) = true
    rw [hconf, Bool.or_true]

end Sys2Proof.Machine
end

section
/-! Instructions that issue, and what changes one engine alone (R58, R60). -/

namespace Sys2Proof.Machine

/-! ### One engine changes -/

theorem State.onlyEng_setEng (s : State) (t : Nat) (e : Eng) : s.onlyEng (s.setEng t e) t e :=
  ⟨s.eng_setEng_same t e, fun _ hv => s.eng_setEng_other e hv, rfl⟩
theorem State.onlyEng.setEng {s u : State} {t : Nat} {e : Eng} (h : s.onlyEng u t e) (e' : Eng) : s.onlyEng (u.setEng t e') t e' := by
  obtain ⟨-, hother, hrest⟩ := h
  exact ⟨u.eng_setEng_same t e', fun v hv => (u.eng_setEng_other e' hv).trans (hother v hv), hrest⟩
theorem State.onlyEng.advance {s u : State} {t : Nat} {e : Eng} (h : s.onlyEng u t e) (n : Nat) : s.onlyEng (u.advance t n) t (e.past n) := by
  have hu : u.advance t n = u.setEng t (e.past n) := by
    rw [← h.1]
    rfl
  exact hu ▸ h.setEng _
theorem State.onlyEng_refl (s : State) (t : Nat) : s.onlyEng s t (s.eng t) := ⟨rfl, fun _ _ => rfl, rfl⟩
theorem State.onlyEng_advance (s : State) (t n : Nat) : s.onlyEng (s.advance t n) t ((s.eng t).past n) := (s.onlyEng_refl t).advance n

/-! ### Issue -/

/-- An instruction that issues has its meaning in the state with its line in the cache. -/
theorem State.issueWith_of_issues {s : State} {t : Nat} {w : Word} {opc : Nat} (h : s.issues t w opc = true) (k : State → State) :
    s.issueWith t w opc k = k (s.lineIn t) := by
  simp only [State.issues, Bool.and_eq_true, Bool.not_eq_true', beq_iff_eq] at h
  obtain ⟨⟨⟨hmay, hmx⟩, hword⟩, hopc⟩ := h
  simp only [State.issueWith, hmay, hmx, hword, hopc, Bool.not_true, Bool.false_eq_true, if_false, ne_eq, not_true_eq_false]
  rfl

end Sys2Proof.Machine
end

section
/-! Control of the matrix array: MXS, MXW, the freeze limit and the counters (R29 to R31, R45, R57). -/

namespace Sys2Proof.Machine

/-! ### MXS and MXW -/

theorem State.onlyEng_setArr (s : State) (t : Nat) (a : Arr) : s.onlyEng (s.setArr t a) t { s.eng t with arr := a } := s.onlyEng_setEng t _

/-- The pass that an MXS `o` queues behind array `a`; OS passes and passes that keep their block need no shadow load (R30, R50). -/
def Arr.queued (a : Arr) (o : Mxs) : Arr :=
  { a with queue := a.queue ++ [(⟨o, a.nextId, 0, o.keep || o.mode == 1, false⟩ : Pass)], nextId := a.nextId + 1
           held := if o.keep || o.mode = 1 then a.held else some o.settings }
theorem execMxs_queued {t : Fin 128} {w w1 w2 w3 : Word} {s l : State} {e : Eng} {o : Mxs} (hissue : s.issues t w 0x18 = true)
    (hwords : State.followWords [w1, w2, w3] 4 (s.lineIn t) t = (l, .all)) (he : l.eng t = e) (ho : decodeMxs e w w1 w2 w3 = o)
    (hlegal : o.illegal e.arr.held (bits w3.toNat 26 22 == 31) = false)
    (h1 : bits w1.toNat 1 0 = 0) (h2 : bits w2.toNat 3 0 = 0) (h3 : bits w3.toNat 21 0 = 0) (hroom : e.arr.queue.length < 4) :
    execMxs t w w1 w2 w3 s = .next ((l.setArr t (e.arr.queued o)).advance t 4) := by
  have hroom' : ¬ 4 ≤ e.arr.queue.length := by omega
  rw [execMxs, State.issueWith_of_issues hissue]
  simp only [hwords, he, ho, hlegal, h1, h2, h3, hroom', Bool.false_eq_true, if_false, ne_eq, not_true_eq_false, decide_false, Bool.or_self]
  rfl
theorem execMxw_passes {t : Fin 128} {w : Word} {s : State} (hissue : s.issues t w 0x19 = true) (hzero : bits w.toNat 24 4 = 0)
    (hfree : mxwWaits w ((s.lineIn t).eng t).arr = false) : execMxw t w s = .next ((s.lineIn t).advance t 1) := by
  have hfree' : mxwWaits w ((s.lineIn t).arr t) = false := hfree
  rw [execMxw, State.issueWith_of_issues hissue]
  simp only [hzero, hfree', ne_eq, not_true_eq_false, Bool.false_eq_true, if_false]
theorem execMxwRelease_passes {t : Fin 128} {w : Word} {s : State} (hstall : (s.eng t).stall = some w) (hmay : (s.eng t).mayIssue = true)
    (hmx : (s.eng t).pendMx = false) (hopc : wOpc w = 0x19) (hfree : mxwWaits w (s.eng t).arr = false) :
    execMxwRelease t s = .next (s.advance t 1) := by
  simp only [execMxwRelease, hstall, hmay, hmx, hopc, hfree, Bool.not_false, decide_true, Bool.and_self, if_true]

/-! ### Raises -/

theorem SMap.get_put_same {α : Type} (m : SMap α) (k : Nat) (a d : α) : SMap.get (SMap.put m k a) k d = a := by
  rw [SMap.get, SMap.find_put_same, Option.getD_some]
/-- Counting a raise as merged keeps its source. -/
theorem any_src_map (src : Nat) (f : Raise → Raise) (hf : ∀ r, (f r).src = r.src) (l : List Raise) :
    (l.map f).any (·.src == src) = l.any (·.src == src) := by
  simp [List.any_map, Function.comp_def, hf]
/-- A raise stands in the collector of its unit, or waits for room in it (R390). -/
theorem State.raisedIn_raise (s : State) (ty inst arg code : Nat) :
    (s.raise ty inst arg code).raisedIn (srcUnit (512 * ty + inst)) ty inst = true := by
  have hmerge : ∀ l : List Raise, (l.map (fun r => if r.src = 512 * ty + inst then { r with merged := r.merged + 1 } else r)).any
      (·.src == 512 * ty + inst) = l.any (·.src == 512 * ty + inst) := any_src_map _ _ (fun r => by split <;> rfl)
  unfold State.raise State.raiseAs State.raisedIn
  dsimp only
  rw [List.any_append, Bool.or_eq_true]
  generalize (if srcCond ty = true then _ else s : State) = v
  split
  · next h => exact .inl (by simpa only [SMap.get_put_same, hmerge] using h)
  · split
    · next h => exact .inr (by simpa only [SMap.get_put_same, hmerge] using h)
    · split
      · exact .inl (by simp [SMap.get_put_same])
      · exact .inr (by simp [SMap.get_put_same])
theorem srcUnit_tile {ty t : Nat} (hty : ty < 0x20) (ht : t < 128) : srcUnit (512 * ty + t) = t := by
  have hdiv : (512 * ty + t) / 512 = ty := by omega
  have hmod : (512 * ty + t) % 512 = t := by omega
  simp only [srcUnit, hdiv, hmod, hty, if_true]

/-! ### The freeze limit (R45) -/

/-- The array stands still until a step that is not frozen. -/
def State.arrStalled (s : State) (t : Nat) : State := s.setArr t { s.arr t with stalled := true }
/-- The array has met its freeze limit: STALL is set and MXA_STALL raised. -/
def State.mxaStall (s : State) (t : Nat) : State := ((s.arrStalled t).event F.MXA_STAT_STALL t).raise 0x01 t 0 0
theorem execArrayFreezeLimit_due {t : Fin 128} {s : State} (hdue : 2 ^ s.fget F.MXA_CFG_FRZ_LIM t ≤ (s.eng t).arr.frozenFor)
    (hrun : (s.eng t).arr.stalled = false) : execArrayFreezeLimit t s = .next (s.mxaStall t) :=
  congrArg Host.Outcome.next (if_pos (by simp [State.arr, hdue, hrun]))
theorem State.mxaStall_tiles (s : State) (t : Nat) : (s.mxaStall t).tiles = (s.arrStalled t).tiles := by
  rw [State.mxaStall, State.raise, raiseAs_keeps (φ := State.tiles) (fun _ _ => rfl), State.event_tiles]
theorem State.mxaStall_frame (s : State) (t : Nat) : { s.mxaStall t with tiles := s.tiles, regs := s.regs, flt := s.flt } = s :=
  raiseAs_keeps (φ := fun u : State => { u with tiles := s.tiles, regs := s.regs, flt := s.flt }) (fun _ _ => rfl)
    ((s.arrStalled t).event F.MXA_STAT_STALL t) 0x01 t (srcLoc 0x01 t) 0 0 false
theorem State.mxaStall_flag (s : State) (t : Nat) : (s.mxaStall t).flag F.MXA_STAT_STALL t = true :=
  ((State.raise_sameRegs _ [] 0x01 t 0 0).flag F.MXA_STAT_STALL t (by simp) (by decide)).trans
    (State.flag_event_same _ F.MXA_STAT_STALL t (by decide) (by decide) (by decide))
theorem State.mxaStall_sameRegs (s : State) (t : Nat) : s.sameRegs (s.mxaStall t) [.MXA_STAT] :=
  ((s.setEng_sameRegs t _ _).trans (State.event_sameRegs _ (f := F.MXA_STAT_STALL) (by decide) t)).trans (State.raise_sameRegs _ _ 0x01 t 0 0)
theorem State.mxaStall_eng_same (s : State) (t : Nat) : (s.mxaStall t).eng t = { s.eng t with arr := { (s.eng t).arr with stalled := true } } :=
  (State.eng_of_tiles (s.mxaStall_tiles t) t).trans (s.eng_setEng_same t _)
theorem State.mxaStall_eng_other (s : State) {t v : Nat} (h : v ≠ t) : (s.mxaStall t).eng v = s.eng v :=
  (State.eng_of_tiles (s.mxaStall_tiles t) v).trans (s.eng_setEng_other _ h)
theorem State.mxaStall_raisedIn (s : State) {t : Nat} (ht : t < 128) : (s.mxaStall t).raisedIn t 0x01 t = true := by
  have hraise := State.raisedIn_raise ((s.arrStalled t).event F.MXA_STAT_STALL t) 0x01 t 0 0
  rwa [srcUnit_tile (by decide) ht] at hraise

/-! ### The counters (R57) -/

/-- Registers written with one word each. -/
theorem State.rget_foldl_rput (i : Nat) (w : Word) (r : Reg) (j : Nat) : ∀ (rs : List Reg) (s : State),
    (rs.foldl (fun a q => a.rput q i w) s).rget r j = if r ∈ rs ∧ j = i then w else s.rget r j
  | [], s => by simp
  | q :: rs, s => by
    rw [List.foldl_cons, State.rget_foldl_rput i w r j rs, State.rget_rput]
    by_cases hj : j = i <;> by_cases hr : r ∈ rs <;> simp [hj, hr]
/-- The counters that MXA_CTL.CLR_CNT clears. -/
def mxaCounters : List Reg := [.MXA_FED_LO, .MXA_FED_HI, .MXA_DROPPED, .MXA_SKIPGRP, .MXA_FRZ_DRY, .MXA_FRZ_BACK, .MXA_BUBBLE]
theorem State.clearCounters_eq (s : State) (t : Nat) :
    s.clearCounters t = mxaCounters.foldl (fun a r => a.rput r t 0) (s.setEng t { s.eng t with fed := 0 }) := rfl
theorem State.clearCounters_rget (s : State) (t : Nat) {r : Reg} (hr : r ∈ mxaCounters) : (s.clearCounters t).rget r t = 0 := by
  rw [State.clearCounters_eq, State.rget_foldl_rput, if_pos ⟨hr, rfl⟩]
theorem State.clearCounters_sameRegs (s : State) (t : Nat) : s.sameRegs (s.clearCounters t) mxaCounters := fun r i hr => by
  rw [State.clearCounters_eq, State.rget_foldl_rput, if_neg fun h => hr h.1, State.rget_setEng]
theorem State.clearCounters_tiles (s : State) (t : Nat) : (s.clearCounters t).tiles = (s.setEng t { s.eng t with fed := 0 }).tiles :=
  foldl_keeps State.tiles (fun a r => a.rput r t 0) (s.setEng t { s.eng t with fed := 0 }) mxaCounters (fun _ _ => rfl)
theorem State.clearCounters_eng_same (s : State) (t : Nat) : (s.clearCounters t).eng t = { s.eng t with fed := 0 } :=
  (State.eng_of_tiles (s.clearCounters_tiles t) t).trans (s.eng_setEng_same t _)
theorem State.clearCounters_eng_other (s : State) {t v : Nat} (h : v ≠ t) : (s.clearCounters t).eng v = s.eng v :=
  (State.eng_of_tiles (s.clearCounters_tiles t) v).trans (s.eng_setEng_other _ h)
theorem State.clearCounters_frame (s : State) (t : Nat) : { s.clearCounters t with tiles := s.tiles, regs := s.regs } = s :=
  foldl_keeps (fun u : State => { u with tiles := s.tiles, regs := s.regs }) (fun a r => a.rput r t 0)
    (s.setEng t { s.eng t with fed := 0 }) mxaCounters (fun _ _ => rfl)
/-- A read of the low half latches the upper one. -/
def State.fedLatched (s : State) (t : Nat) : State := s.rput .MXA_FED_HI t (BitVec.ofNat 32 ((s.eng t).fed / 2 ^ 32))
theorem execMxaFedLoRead_eq (t : Fin 128) (s : State) : execMxaFedLoRead t s = .next ((s.fedLatched t).answer ((s.eng t).fed % 2 ^ 32)) := rfl
theorem State.fedLatched_sameRegs (s : State) (t v : Nat) : s.sameRegs ((s.fedLatched t).answer v) [.MXA_FED_HI] :=
  fun r i hr => s.rput_sameRegs (List.mem_singleton_self _) t _ r i hr

/-! ### The obligation -/

/-- Settles O7 (R29 to R31, R45, R57; log entry 13): MXS queues its pass, MXW passes at once or when it is released, a freeze run that meets the limit
stalls the array, and the counters clear and read. -/
theorem arrayControlResults : Obligations.ArrayControlResults := by
  unfold Obligations.ArrayControlResults
  intro t s
  refine ⟨?_, ?_, ?_, ?_, ?_, ?_⟩
  · intro w w1 w2 w3 f l e o hissue hall h1 h2 h3 hlegal hroom
    have hwords : State.followWords [w1, w2, w3] 4 (s.lineIn t) t = (l, .all) := Prod.ext rfl hall
    exact ⟨(l.setArr t (e.arr.queued o)).advance t 4, execMxs_queued hissue hwords rfl rfl hlegal h1 h2 h3 hroom,
      (l.onlyEng_setArr t (e.arr.queued o)).advance 4⟩
  · intro w l hissue hzero hfree
    exact ⟨_, execMxw_passes hissue hzero hfree, l.onlyEng_advance t 1⟩
  · intro w hstall hmay hmx hopc hfree
    exact ⟨_, execMxwRelease_passes hstall hmay hmx hopc hfree, s.onlyEng_advance t 1⟩
  · intro hdue hrun
    exact ⟨s.mxaStall t, execArrayFreezeLimit_due hdue hrun, s.mxaStall_flag t, s.mxaStall_eng_same t, fun v hv => s.mxaStall_eng_other hv,
      s.mxaStall_raisedIn t.isLt, s.mxaStall_sameRegs t, s.mxaStall_frame t⟩
  · exact ⟨s.clearCounters t, rfl, s.clearCounters_eng_same t, fun r hr => s.clearCounters_rget t hr,
      fun v hv => s.clearCounters_eng_other hv, s.clearCounters_sameRegs t, s.clearCounters_frame t⟩
  · exact ⟨_, execMxaFedLoRead_eq t s, rfl, s.rget_rput_same .MXA_FED_HI t _, s.fedLatched_sameRegs t _, rfl⟩

end Sys2Proof.Machine
end

section
/-! The fence of an engine: its start, and its end in the map of disabled units (R4, R55, R56, R76, R77). -/

namespace Sys2Proof.Machine

/-! ### The start (R55, R56, R77) -/

theorem Eng.behind_none {e : Eng} (h : e.behind = none) : { e with behind := none } = e := by rw [← h]
/-- Nothing is left in a discarded array, so no pass is charged to an earlier part any more (R49). -/
theorem State.abortArray_eng_same (s : State) (t : Nat) : (s.abortArray t).eng t = { (s.eng t).discard with behind := none } := by
  have hset : (s.setEng t (s.eng t).discard).eng t = (s.eng t).discard := s.eng_setEng_same t _
  change ((s.setEng t (s.eng t).discard).arrSettled t).eng t = _
  unfold State.arrSettled
  dsimp only
  split
  · next hnone =>
    rw [hset] at hnone ⊢
    exact (Eng.behind_none hnone).symm
  · next n hn =>
    rw [hset]
    exact State.eng_setEng_same _ t _
theorem State.abortArray_enr {s : State} {t : Nat} (h : (s.eng t).behind = none) : (s.abortArray t).enr = s.enr := by
  have hbehind : ((s.setEng t (s.eng t).discard).eng t).behind = none := (congrArg Eng.behind (s.eng_setEng_same t _)).trans h
  change ((s.setEng t (s.eng t).discard).arrSettled t).enr = _
  simp only [State.arrSettled, hbehind]
  rfl
theorem State.abortArray_flag (s : State) (t : Nat) : (s.abortArray t).flag F.MXA_STAT_ABORT t = true :=
  State.flag_event_same _ F.MXA_STAT_ABORT t (by decide) (by decide) (by decide)

/-- The engine stops, its array is discarded, and the staging buffer of its stop is invalid. -/
def State.fenceBegun (s : State) (t : Nat) : State :=
  let s1 := s.abortArray t
  (s1.setEng t { s1.eng t with fence := some s.clk.mc, stall := none }).setStop t { s1.stop t with stage := [] }
theorem State.fenceStart_begun {s : State} {t : Nat} (hfenced : (s.eng t).fenced = false) (hfence : (s.eng t).fence = none)
    (hpower : (s.eng t).power ≠ .fusedOff) : s.fenceStart t = s.fenceBegun t :=
  if_neg (by simp [hfenced, hfence, hpower])
theorem State.fenceBegun_eng_same (s : State) (t : Nat) :
    (s.fenceBegun t).eng t = { (s.eng t).discard with behind := none, fence := some s.clk.mc, stall := none } := by
  have hset : (s.fenceBegun t).eng t = { (s.abortArray t).eng t with fence := some s.clk.mc, stall := none } := State.eng_setEng_same _ t _
  rw [hset, State.abortArray_eng_same]
theorem State.fenceBegun_eng_other (s : State) {t v : Nat} (h : v ≠ t) : (s.fenceBegun t).eng v = s.eng v :=
  (State.eng_setEng_other _ _ h).trans (s.abortArray_eng_other h)
theorem State.fenceBegun_stop (s : State) (t : Nat) : (s.fenceBegun t).stop t = { s.stop t with stage := [] } := by
  have hstops : (s.abortArray t).stops = s.stops := abortArray_keeps (φ := State.stops) (fun _ _ => rfl) (fun _ _ => rfl) (fun _ _ => rfl) s t
  have hstop : (s.abortArray t).stop t = s.stop t := by rw [State.stop, State.stop, hstops]
  rw [← hstop]
  exact State.stop_setStop_same _ t _

/-! ### The end (R76, R77) -/

theorem setBit_lt {n k w : Nat} (hn : n < 2 ^ w) (hk : k < w) : setBit n k < 2 ^ w :=
  Nat.or_lt_two_pow hn (Nat.pow_lt_pow_right (by omega) hk)
theorem bitOf_setBit_same (n k : Nat) : bitOf (setBit n k) k = true := by
  have htest : bitOf (setBit n k) k = (setBit n k).testBit k := by
    rw [bitOf, Nat.testBit_eq_decide_div_mod_eq]
    rfl
  rw [htest, setBit, Nat.testBit_or, Nat.testBit_two_pow_self, Bool.or_true]
theorem State.disabled_disable (s : State) (t : Nat) : (s.disable t).disabled t = true := by
  have hlt := setBit_lt (s.rget .GLB_DISMAP (t / 32)).isLt (Nat.mod_lt t (by decide : 0 < 32))
  rw [State.disabled, State.disable, State.rget_rput_same, BitVec.toNat_ofNat, Nat.mod_eq_of_lt hlt, bitOf_setBit_same]

/-- The engine stands fenced: it runs nothing and its channels are empty. -/
def Eng.isFenced (e : Eng) : Prop := e.fenced = true ∧ e.fence = none ∧ e.active = false ∧ e.chans = []
/-- What may change while dispatches end. -/
def dispEndRegs : List Reg := completeRegs ++ detRegs
/-- Engine `t` stays fenced from `s` to `u`, and only the ends of dispatches write registers. -/
structure State.keepsFence (s u : State) (t : Nat) : Prop where
  regs : s.sameRegs u dispEndRegs
  eng : (s.eng t).isFenced → (u.eng t).isFenced

theorem State.keepsFence_refl (s : State) (t : Nat) : s.keepsFence s t := ⟨s.sameRegs_refl _, id⟩
theorem State.keepsFence.trans {s u v : State} {t : Nat} (h : s.keepsFence u t) (h' : u.keepsFence v t) : s.keepsFence v t :=
  ⟨h.regs.trans h'.regs, fun hs => h'.eng (h.eng hs)⟩
theorem State.keepsFence.ite {s a b : State} {t : Nat} (c : Prop) [Decidable c] (ha : s.keepsFence a t) (hb : s.keepsFence b t) :
    s.keepsFence (if c then a else b) t := by
  split
  · exact ha
  · exact hb
theorem State.keepsFence.of_tiles {s u : State} (t : Nat) (hregs : s.sameRegs u dispEndRegs) (htiles : u.tiles = s.tiles) : s.keepsFence u t :=
  ⟨hregs, fun hs => by rwa [State.eng_of_tiles htiles]⟩
theorem State.foldl_keepsFence {α : Type} {t : Nat} (g : State → α → State) (hg : ∀ (s : State) (a : α), s.keepsFence (g s a) t) :
    ∀ (as : List α) (s : State), s.keepsFence (as.foldl g s) t
  | [], s => s.keepsFence_refl t
  | a :: as, s => (hg s a).trans (State.foldl_keepsFence g hg as (g s a))

theorem State.report_keepsFence (s : State) (k status tile idx cause t : Nat) : s.keepsFence (s.report k status tile idx cause) t :=
  .of_tiles t (s.report_sameRegs _ _ _ _ _ _) (report_keeps (φ := State.tiles) (fun _ _ => rfl) s k status tile idx cause)
/-- A tile of a dispatch that ends is freed: a fenced one stays fenced. -/
theorem State.freed_keepsFence (s : State) (v t : Nat) :
    s.keepsFence ((s.setEng v { s.eng v with disp := none, active := false, task := none, stall := none, noTask := false, steal := none
                                             atBarrier := false, waitTask := none }).setStop v { s.stop v with queue := [], scan := 0 }) t where
  regs := (s.setEng_sameRegs v _ _).trans (State.setStop_sameRegs _ v _ _)
  eng := by
    rintro ⟨hfenced, hfence, hactive, hchans⟩
    rw [State.eng_setStop]
    by_cases h : t = v
    · subst h
      rw [State.eng_setEng_same]
      exact ⟨hfenced, hfence, rfl, hchans⟩
    · rw [s.eng_setEng_other _ h]
      exact ⟨hfenced, hfence, hactive, hchans⟩
theorem State.tilesFreed_keepsFence (s : State) (k : Nat) (d : Disp) (t : Nat) : s.keepsFence (s.tilesFreed k d) t := by
  have hdet (a : State) (ld cyc : Nat) :
      a.keepsFence (((a.fput F.DET_GID_GID ld d.gid).put64 .DET_CYC_LO .DET_CYC_HI ld cyc).fput F.DET_CAUSE_CAUSE ld d.cause) t :=
    .of_tiles t (((a.fput_sameRegs (f := F.DET_GID_GID) (by decide) _ _).trans (State.put64_sameRegs _ (by decide) (by decide) _ _)).trans
      (State.fput_sameRegs _ (f := F.DET_CAUSE_CAUSE) (by decide) _ _)) rfl
  have hreport : s.keepsFence (match s.fencedEntries d with
      | some (v, idx) => s.report k stENGINE_FENCED v idx 0
      | none => s) t := by
    split
    · exact s.report_keepsFence _ _ _ _ _ t
    · exact s.keepsFence_refl t
  exact (State.keepsFence.ite _ (hreport.trans (hdet _ _ _)) hreport).trans (State.foldl_keepsFence _ (fun a v => a.freed_keepsFence v t) _ _)
theorem State.dispFinish_keepsFence (s : State) (k t : Nat) : s.keepsFence (s.dispFinish k) t := by
  refine .of_tiles t ?_ (dispFinish_keeps (φ := State.tiles) (fun _ _ => rfl) (fun _ _ => rfl) (fun _ _ => rfl) (fun _ _ => rfl)
    (fun _ _ => rfl) (fun _ _ => rfl) (fun _ _ => rfl) s k)
  unfold State.dispFinish
  split
  · exact s.sameRegs_refl _
  · refine State.sameRegs.trans (u := match s.descr _ _ with | none => s | some x => _) ?_ (State.sameRegs_of_regs _ rfl)
    split
    · exact s.sameRegs_refl _
    · exact (s.completeKeep_sameRegs _ _ _ _ _ _).mono (List.subset_append_left _ _)
theorem State.dispEnded_keepsFence (s : State) (k : Nat) (d : Disp) (cycles t : Nat) : s.keepsFence (s.dispEnded k d cycles) t := by
  have hsame : ∀ {u : State}, u.regs = s.regs → u.tiles = s.tiles → s.keepsFence u t := fun h => .of_tiles t (State.sameRegs_of_regs _ h)
  have hfinish : ∀ {u : State}, u.regs = s.regs → u.tiles = s.tiles → s.keepsFence (u.dispFinish k) t :=
    fun h h' => (hsame h h').trans (State.dispFinish_keepsFence _ k t)
  unfold State.dispEnded
  dsimp only
  split
  · exact hfinish rfl rfl
  · exact .ite _ (hfinish rfl rfl) (hsame rfl rfl)
theorem State.dispCheck_keepsFence (s : State) (k t : Nat) : s.keepsFence (s.dispCheck k) t := by
  unfold State.dispCheck
  split
  · exact s.keepsFence_refl t
  next d _ =>
    refine .ite _ ?_ (s.keepsFence_refl t)
    have hfreed := s.tilesFreed_keepsFence k d t
    dsimp only
    split
    · exact hfreed
    next d' _ => exact hfreed.trans (State.dispEnded_keepsFence _ k d' _ t)
theorem State.fenceStuck_keepsFence (s : State) (k t : Nat) : s.keepsFence (s.fenceStuck k) t :=
  .of_tiles t (s.fenceStuck_sameRegs k _) (fenceStuck_keeps (φ := State.tiles) (fun _ _ => rfl) s k)

/-- Step 4 of R77, before the tasklet and the dispatch of the engine are seen to. -/
def State.fenceShut (s : State) (t : Nat) : State :=
  let s1 := s.setEng t { s.eng t with fence := none, fenced := true, active := false, chans := [], stall := none, pendMx := false }
  (((s1.forget t).useClose t).disable t).event F.TSEQ_STAT_FENCED t
theorem State.fenceShut_eng (s : State) (t : Nat) : (s.fenceShut t).eng t =
    { s.eng t with fence := none, fenced := true, active := false, chans := [], stall := none, pendMx := false } := s.eng_setEng_same t _
theorem State.fenceShut_disabled (s : State) (t : Nat) : (s.fenceShut t).disabled t = true := by
  rw [State.disabled, State.fenceShut, State.rget_event_other _ F.TSEQ_STAT_FENCED t (by simp [F.TSEQ_STAT_FENCED])]
  exact State.disabled_disable _ t
theorem State.fenceShut_flag (s : State) (t : Nat) : (s.fenceShut t).flag F.TSEQ_STAT_FENCED t = true :=
  State.flag_event_same _ F.TSEQ_STAT_FENCED t (by decide) (by decide) (by decide)
theorem State.orphan_of_idle {s : State} {t : Nat} (h : (s.eng t).task = none) : s.orphan t = s := by
  simp only [State.orphan, h]
/-- An engine that holds no tasklet: what follows is the end of its dispatch alone. -/
theorem State.fenceEnd_keepsFence {s : State} {t : Nat} (h : (s.eng t).task = none) : (s.fenceShut t).keepsFence (s.fenceEnd t) t := by
  have horphan : (s.fenceShut t).orphan t = s.fenceShut t := State.orphan_of_idle ((congrArg Eng.task (s.fenceShut_eng t)).trans h)
  have hend : s.fenceEnd t = match (s.eng t).disp with
    | none => (s.fenceShut t).orphan t
    | some k => (((s.fenceShut t).orphan t).fenceStuck k).dispCheck k := rfl
  rw [hend, horphan]
  split
  · exact State.keepsFence_refl _ t
  · exact (State.fenceStuck_keepsFence _ _ t).trans (State.dispCheck_keepsFence _ _ t)

/-! ### The commands -/

theorem execFenceComplete_fenced {s : State} {t : Fin 128} {m : Nat} (h : (s.eng t).fence = some m) :
    execFenceComplete t s = .next (s.fenceEnd t) := congrArg Host.Outcome.next (if_pos (by rw [h]; rfl))
theorem execFenceTimeout_fenced {s : State} {t : Fin 128} {m : Nat} (h : (s.eng t).fence = some m) :
    execFenceTimeout t s = .next (if m + s.fget F.MESH_CFG_TMO t ≤ s.clk.mc then s.fenceEnd t else s) := by
  simp only [execFenceTimeout, h]

/-- Settles O13 (R4, R55, R56, R76, R77): a fence discards the array and stops the sequencer; its end, at the last response or at
`MESH_CFG.TMO`, leaves the engine fenced and in the map of disabled units. -/
theorem fenceResults : Obligations.FenceResults := by
  unfold Obligations.FenceResults
  intro t s
  refine ⟨?_, ?_⟩
  · intro hfenced hfence hpower
    have hstart := State.fenceStart_begun hfenced hfence hpower
    refine ⟨s.fenceBegun t, congrArg Host.Outcome.next hstart, s.fenceBegun_eng_same t, s.fenceBegun_stop t, s.abortArray_flag t,
      fun v hv => s.fenceBegun_eng_other hv, ?_, fun hbehind => State.abortArray_enr hbehind, ?_⟩
    · exact ((s.abortArray_sameRegs t (by decide)).trans (State.setEng_sameRegs _ _ _ _)).trans (State.setStop_sameRegs _ _ _ _)
    · rw [← hstart]
      exact State.fenceStart_keeps (φ := fun u : State => { u with tiles := s.tiles, stops := s.stops, regs := s.regs, enr := s.enr })
        (fun _ _ => rfl) (fun _ _ => rfl) (fun _ _ => rfl) (fun _ _ => rfl) s t
  · intro m hm htask
    refine ⟨⟨s.fenceEnd t, execFenceComplete_fenced hm, ?_⟩, ?_, ?_⟩
    · have hkeep := State.fenceEnd_keepsFence htask
      obtain ⟨hfenced, hfence, hactive, hchans⟩ := hkeep.eng (by rw [s.fenceShut_eng t]; exact ⟨rfl, rfl, rfl, rfl⟩)
      refine ⟨hfenced, hfence, hactive, hchans, ?_, ?_⟩
      · rw [State.disabled, hkeep.regs _ _ (by decide)]
        exact s.fenceShut_disabled t
      · rw [hkeep.regs.flag F.TSEQ_STAT_FENCED t (by decide) (by decide)]
        exact s.fenceShut_flag t
    · intro hdue
      change execFenceTimeout t s = execFenceComplete t s
      rw [execFenceTimeout_fenced hm, execFenceComplete_fenced hm, if_pos hdue]
    · intro hearly
      change execFenceTimeout t s = _
      rw [execFenceTimeout_fenced hm, if_neg (by omega)]

end Sys2Proof.Machine
end

section
/-! Reads of good scratchpad words, and reads of the array that overlap no destination (R36, R104, R107, R118). -/

namespace Sys2Proof.Machine

/-! ### Bytes of a scratchpad -/

@[simp] theorem State.spmRaw_length (s : State) (t a n : Nat) : (s.spmRaw t a n).length = n := by simp [State.spmRaw]
theorem State.spmRaw_getElem (s : State) (t a n i : Nat) (h : i < (s.spmRaw t a n).length) : (s.spmRaw t a n)[i] = SMap.get s.spm (spmKey t a + i) 0 := by
  simp [State.spmRaw]
theorem spmKey_add (t a i : Nat) : spmKey t a + i = spmKey t (a + i) := Nat.add_assoc _ _ _
theorem State.spmRaw_slice (s : State) (t a m : Nat) {i k : Nat} (h : i + k ≤ m) : ((s.spmRaw t a m).drop i).take k = s.spmRaw t (a + i) k := by
  refine List.ext_getElem (by simp; omega) fun j hj hj' => ?_
  rw [List.getElem_take, List.getElem_drop, State.spmRaw_getElem, State.spmRaw_getElem, spmKey_add, spmKey_add, Nat.add_assoc]
theorem State.spmRaw_append (s : State) (t a m n : Nat) : s.spmRaw t a m ++ s.spmRaw t (a + m) n = s.spmRaw t a (m + n) := by
  simp only [State.spmRaw, List.range_add, List.map_append, List.map_map, Function.comp_def, spmKey_add, Nat.add_assoc]

/-! ### Good words (R118) -/

theorem State.spmWord_good {s : State} {t a : Nat} (h : SMap.get s.spmErr (spmKey t a / 8) 0 = 0) : s.spmWord t a = (s, some (s.spmRaw t a 8)) :=
  if_pos h
theorem State.spmReadGo_good {s : State} {t : Nat} : ∀ (fuel a n : Nat), (n ≠ 0 → a + n ≤ 8 * (a / 8 + fuel)) →
    (∀ w, a / 8 ≤ w → 8 * w < a + n → SMap.get s.spmErr (spmKey t 0 / 8 + w) 0 = 0) → State.spmReadGo fuel s t a n = (s, some (s.spmRaw t a n))
  | 0, a, n, hfuel, _ => by
    obtain rfl : n = 0 := by omega
    rfl
  | fuel + 1, a, n, hfuel, hgood => by
    unfold State.spmReadGo
    dsimp only
    split
    · next hn =>
      subst hn
      rfl
    · next hn =>
      have hkey : spmKey t (a - a % 8) / 8 = spmKey t 0 / 8 + a / 8 := by
        unfold spmKey
        omega
      have hword : s.spmWord t (a - a % 8) = _ := State.spmWord_good (by rw [hkey]; exact hgood _ (Nat.le_refl _) (by omega))
      have hslice : ((s.spmRaw t (a - a % 8) 8).drop (a % 8)).take (min n (8 - a % 8)) = s.spmRaw t a (min n (8 - a % 8)) := by
        rw [State.spmRaw_slice _ _ _ _ (by omega), Nat.sub_add_cancel (Nat.mod_le a 8)]
      have hrest := State.spmReadGo_good fuel (a + min n (8 - a % 8)) (n - min n (8 - a % 8)) (by omega)
        fun w hw hw' => hgood w (by omega) (by omega)
      rw [hword, hrest]
      dsimp only
      rw [hslice, State.spmRaw_append, Nat.add_sub_cancel' (Nat.min_le_left _ _)]
/-- What the program may read: the place lies in the scratchpad, its banks serve PROG, and its words are good. -/
theorem State.progOk_iff (s : State) (t a n : Nat) : s.progOk t a n = true ↔ a + n ≤ 2 ^ 23 ∧ s.spmGrant t a n .prog = .yes ∧
    ∀ k, k < (a + n + 7) / 8 - a / 8 → SMap.get s.spmErr (spmKey t 0 / 8 + a / 8 + k) 0 = 0 := by
  simp [State.progOk, and_assoc]
theorem State.spmRead_progOk {s : State} {t a n : Nat} (h : s.progOk t a n = true) : s.spmRead t a n = (s, some (s.spmRaw t a n)) := by
  obtain ⟨-, -, hgood⟩ := (s.progOk_iff t a n).mp h
  refine State.spmReadGo_good _ a n (by omega) fun w hw hw' => ?_
  have hk := hgood (w - a / 8) (by omega)
  rwa [Nat.add_assoc, Nat.add_sub_cancel' hw] at hk

/-! ### Reads of the array (R36) -/

theorem State.blurGo_clear (ops : List Mxs) : ∀ (l : List (Byte × Nat)) (s : State), (∀ p ∈ l, ops.any (·.destHas p.2) = false) →
    State.blurGo ops l s = (s, l.map (·.1))
  | [], _, _ => rfl
  | (b, a) :: l, s, h => by
    have hhead : ops.any (·.destHas a) = false := h (b, a) List.mem_cons_self
    have htail := State.blurGo_clear ops l s fun p hp => h p (List.mem_cons_of_mem _ hp)
    simp only [State.blurGo, hhead, htail, Bool.false_eq_true, if_false, List.map_cons]
/-- The array may read [a, a + n) as it stands: the program may, and no destination of its passes overlaps it. -/
def State.arrFree (s : State) (t a n : Nat) : Bool := s.progOk t a n && (List.range n).all (fun i => !(s.eng t).arr.ops.any (·.destHas (a + i)))
theorem State.arrRead_free {s : State} {t a n : Nat} (h : s.arrFree t a n = true) : s.arrRead t a n = (s, .ok (s.spmRaw t a n)) := by
  rw [State.arrFree, Bool.and_eq_true] at h
  obtain ⟨hok, hclear⟩ := h
  obtain ⟨hend, hgrant, -⟩ := (s.progOk_iff t a n).mp hok
  have hblur : State.blurGo (s.arr t).ops ((s.spmRaw t a n).zipIdx.map (fun p => (p.1, a + p.2))) s = (s, s.spmRaw t a n) := by
    rw [State.blurGo_clear]
    · rw [List.map_map]
      exact congrArg (Prod.mk s) (List.zipIdx_map_fst 0 _)
    · intro p hp
      obtain ⟨q, hq, rfl⟩ := List.mem_map.mp hp
      have hlt : q.2 < n := by
        have := List.snd_lt_of_mem_zipIdx hq
        simpa using this
      simpa [State.arr] using (List.all_eq_true.mp hclear) q.2 (List.mem_range.mpr hlt)
  simp only [State.arrRead, if_neg (Nat.not_lt.mpr hend), hgrant, State.spmRead_progOk hok, hblur]

end Sys2Proof.Machine
end

section
/-! The shadow load and the feeding of an unmasked pass (R33, R34, R36 to R38, R46, R103 to R105). -/

namespace Sys2Proof.Machine

/-! ### The shadow load (R38) -/

/-- The `i`-th pass `p` of the queue is loaded, and its block stands in the shadow registers. -/
def Arr.shadowed (a : Arr) (i : Nat) (p : Pass) (bs : List Byte) : Arr :=
  { a with shadow := some ⟨p.op.mode, p.op.fold, p.op.kb - 1, p.op.nb - 1, p.op.bf', p.op.blockVals bs⟩, queue := a.queue.set i { p with loaded := true } }
theorem execShadowLoadComplete_free {t : Fin 128} {s : State} {i : Nat} {p : Pass} (hload : (s.eng t).arr.loading = some i)
    (hpass : (s.eng t).arr.queue[i]? = some p) (hfree : s.arrFree t p.op.bbase p.op.blockLen = true) :
    execShadowLoadComplete t s = .next (s.setArr t ((s.eng t).arr.shadowed i p (s.spmRaw t p.op.bbase p.op.blockLen))) := by
  simp only [execShadowLoadComplete, State.arr, hload, hpass, State.arrRead_free hfree]
  rfl

/-! ### The ports serve the array: only their own records change -/

theorem State.onlyEng.eq_tiles {s u : State} {t : Nat} {e : Eng} (h : s.onlyEng u t e) : u = { s with tiles := u.tiles } := by
  obtain ⟨-, -, hrest⟩ := h
  exact congrArg (fun v : State => { v with tiles := u.tiles }) hrest
/-- `u` is `s` but for the waits of the port requesters and the channels that the ports served last (R105). -/
def State.portsServed (s u : State) (t : Nat) : Prop := ∃ w l, s.onlyEng u t { s.eng t with portWait := w, portLast := l }

theorem State.portsServed_refl (s : State) (t : Nat) : s.portsServed s t := ⟨_, _, s.onlyEng_refl t⟩
theorem State.portsServed.trans {s u v : State} {t : Nat} (h : s.portsServed u t) (h' : u.portsServed v t) : s.portsServed v t := by
  obtain ⟨w, l, heng, hother, hrest⟩ := h
  obtain ⟨w', l', heng', hother', hrest'⟩ := h'
  refine ⟨w', l', by rw [heng', heng], fun i hi => (hother' i hi).trans (hother i hi), ?_⟩
  exact (congrArg (fun x : State => { x with tiles := s.tiles }) hrest').trans hrest
/-- Setting the array to what it is. -/
theorem State.setArr_portsServed {s : State} {t : Nat} {a : Arr} (h : a = s.arr t) : s.portsServed (s.setArr t a) t := by
  subst h
  exact ⟨_, _, s.onlyEng_setArr t _⟩

section
variable {s u : State} {t : Nat} (h : s.portsServed u t)
include h

theorem State.portsServed.arr : u.arr t = s.arr t := by
  obtain ⟨w, l, heng, -⟩ := h
  rw [State.arr, heng]
  rfl
theorem State.portsServed.bankGrant (b : Nat) (c : OwnClass) : u.bankGrant t b c = s.bankGrant t b c := by
  obtain ⟨w, l, honly⟩ := h
  rw [State.bankGrant, State.bankGrant, honly.1, honly.eq_tiles]
  rfl
theorem State.portsServed.arrFree (a n : Nat) : u.arrFree t a n = s.arrFree t a n := by
  have hgrant : u.spmGrant t a n .prog = s.spmGrant t a n .prog := by
    rw [State.spmGrant, State.spmGrant]
    simp only [h.bankGrant]
  have harr : (u.eng t).arr = (s.eng t).arr := h.arr
  obtain ⟨w, l, -, -, hrest⟩ := h
  have herr : u.spmErr = s.spmErr := (congrArg State.spmErr hrest :)
  rw [State.arrFree, State.arrFree, State.progOk, State.progOk, hgrant, herr, harr]
theorem State.portsServed.spmRaw (a n : Nat) : u.spmRaw t a n = s.spmRaw t a n := by
  obtain ⟨w, l, -, -, hrest⟩ := h
  have hspm : u.spm = s.spm := (congrArg State.spm hrest :)
  rw [State.spmRaw, State.spmRaw, hspm]

end

/-! ### An unmasked pass skips no group (R46) -/

/-- The first rows of an unmasked group are live. -/
theorem mask255_mod_two_pow_ne_zero {n : Nat} (h : 0 < n) : 255 % 2 ^ n ≠ 0 := fun h0 => by
  have hdvd : 2 ∣ 255 := (dvd_pow_self 2 h.ne').trans (Nat.dvd_of_mod_eq_zero h0)
  omega
theorem State.skipGroups_unmasked {p : Pass} (hmask : p.op.mask = 0) (hrow : p.row < p.op.rows) (fuel : Nat) (s : State) (t : Nat) :
    State.skipGroups (fuel + 1) s t p = (s, p, .inl 255) := by
  have hgroup : s.groupMask t p.op (p.row / 8) = (s, .inl 255) := if_pos hmask
  have hlive : 255 % 2 ^ min 8 (p.op.rows - p.row) ≠ 0 := mask255_mod_two_pow_ne_zero (by omega)
  unfold State.skipGroups
  simp only [hgroup, if_pos hlive]
  split
  · split <;> rfl
  · rfl

/-! ### A pass that feeds -/

/-- Pass `p` is alone in the array, loaded, its front entered; it feeds from the scratchpad without a mask, it has rows left, and the ports
have granted the lines of the step that is due. -/
structure State.feeding (s : State) (t : Nat) (p : Pass) : Prop where
  queue : (s.arr t).queue = [p]
  flight : (s.arr t).flight = []
  buf : (s.arr t).buf = []
  osPend : (s.arr t).osPend = none
  loaded : p.loaded = true
  started : p.started = true
  mode : p.op.mode ≠ 1
  mask : p.op.mask = 0
  src : p.op.src = 0
  row : p.row < p.op.rows
  needs : s.feedNeeds t = []

theorem State.feeding.served {s u : State} {t : Nat} {p : Pass} (hf : s.feeding t p) (h : s.portsServed u t) : u.feeding t p where
  queue := h.arr ▸ hf.queue
  flight := h.arr ▸ hf.flight
  buf := h.arr ▸ hf.buf
  osPend := h.arr ▸ hf.osPend
  loaded := hf.loaded
  started := hf.started
  mode := hf.mode
  mask := hf.mask
  src := hf.src
  row := hf.row
  needs := by
    rw [← hf.needs, State.feedNeeds, State.feedNeeds]
    simp only [h.arr, hf.queue, hf.loaded, State.skipGroups_unmasked hf.mask hf.row, h.bankGrant]

theorem State.drainTick_empty {s : State} {t : Nat} (h : (s.arr t).buf = []) (served : List Nat) : s.portsServed (s.drainTick t served) t := by
  have hbuf : ({ s.arr t with buf := [] } : Arr) = s.arr t := by rw [← h]
  simp only [State.drainTick, h, drainGo, List.foldl_nil, hbuf]
  exact State.setArr_portsServed rfl
/-- With no line to read and no row to drain, a tc of the ports changes their records alone. -/
theorem State.feeding.portTick {s : State} {t : Nat} {p : Pass} (hf : s.feeding t p) (others : List (Nat × Nat)) :
    s.portsServed (s.portTick t others) t := by
  have hbanks : (s.arr t).drainBanks = [] := by rw [Arr.drainBanks, hf.buf]; rfl
  unfold State.portTick
  simp only [hf.needs, hbanks, firstLines, List.filter_nil, List.map_nil, List.nil_append, List.append_nil]
  have hset : s.portsServed (s.setEng t ((s.eng t).portTc (s.fget F.SPM_CFG_STARVE t) others).1) t := ⟨_, _, s.onlyEng_setEng t _⟩
  exact hset.trans (State.drainTick_empty (hf.served hset).buf _)
theorem State.feeding.portTicks (others : List (Nat × Nat)) {t : Nat} {p : Pass} : ∀ (n : Nat) {s : State}, s.feeding t p →
    s.portsServed (State.portTicks n s t others) t
  | 0, s, _ => s.portsServed_refl t
  | n + 1, s, hf => by
    have htick := hf.portTick others
    exact htick.trans (State.feeding.portTicks others n (hf.served htick))
theorem State.feeding.dropMasked {s : State} {t : Nat} {p : Pass} (hf : s.feeding t p) (n : Nat) : State.dropMasked n s t = s := by
  cases n with
  | zero => rfl
  | succ n => simp only [State.dropMasked, hf.queue, hf.mask, decide_true, Bool.or_true, if_true]

/-! ### The rows that a step feeds (R33, R34) -/

/-- Rows that the next step of `p` feeds. -/
def Pass.feeds (p : Pass) : Nat := min (min p.op.f (8 - p.row % 8)) (p.op.rows - p.row)
/-- The bytes of stream row `i` of the step. -/
def State.feedRow (s : State) (t : Nat) (p : Pass) (i : Nat) : List Byte := s.spmRaw t (p.op.sbase + (p.row + i) * p.op.sstride) p.op.westLen
/-- The result row of stream row `i` of the step, on its way to the drain buffer. -/
def State.feedOut (s : State) (t : Nat) (p : Pass) (i : Nat) : OutRow :=
  p.op.outRow p.id (p.row + i) p.op.latencyLeft .write
    (rowResults p.op (((s.arr t).active.map (·.dat)).getD []) (p.op.rowVals (s.feedRow t p i)))
/-- The array may read every row of the step. -/
def State.rowsFree (s : State) (t : Nat) (p : Pass) : Prop :=
  ∀ i, i < p.feeds → s.arrFree t (p.op.sbase + (p.row + i) * p.op.sstride) p.op.westLen = true

theorem State.westRows_free {s : State} {t : Nat} {o : Mxs} (hsrc : o.src = 0) : ∀ (n r : Nat) (acc : List (List Byte)),
    (∀ i, i < n → s.arrFree t (o.sbase + (r + i) * o.sstride) o.westLen = true) →
    State.westRows n s t o r acc = (s, .inl (acc.reverse ++ (List.range n).map (fun i => s.spmRaw t (o.sbase + (r + i) * o.sstride) o.westLen)))
  | 0, r, acc, _ => by simp [State.westRows]
  | n + 1, r, acc, h => by
    have hread : s.arrRead t (o.sbase + r * o.sstride) o.westLen = _ := State.arrRead_free (h 0 (Nat.succ_pos n))
    have hrow : s.westRow t o r = (s, .row (s.spmRaw t (o.sbase + r * o.sstride) o.westLen)) := by
      simp only [State.westRow, hsrc, zero_ne_one, if_false, hread]
    have hnext := State.westRows_free hsrc n (r + 1) (s.spmRaw t (o.sbase + r * o.sstride) o.westLen :: acc) fun i hi => by
      rw [Nat.add_right_comm, Nat.add_assoc]
      exact h (i + 1) (by omega)
    simp only [State.westRows, hrow, hnext, List.reverse_cons, List.append_assoc, List.singleton_append, List.range_succ_eq_map, List.map_cons,
      List.map_map, Function.comp_def, Nat.succ_eq_add_one, Nat.add_right_comm r 1, Nat.add_assoc, Nat.add_zero]

/-- Numbered results of a list of indices. -/
theorem zipIdx_map_range {α : Type} (f : Nat → α) (n : Nat) : ((List.range n).map f).zipIdx = (List.range n).map (fun i => (f i, i)) :=
  List.ext_getElem (by simp) fun i hi hi' => by simp
/-- Every row of an unmasked group is live. -/
theorem bitOf_255 (r : Nat) : bitOf 255 (r % 8) = true := by
  have hall : ∀ k, k < 8 → bitOf 255 k = true := by decide
  exact hall _ (Nat.mod_lt r (by decide))

/-! ### The step (R33, R34) -/

/-- The array once a step of `tc` has fed its rows. -/
def State.arrFed (s : State) (t : Nat) (p : Pass) (tc : Nat) : Arr :=
  let a := (s.arr t).advanceRows tc
  { a with flight := a.flight ++ (List.range p.feeds).map (s.feedOut t p) }.endIfDone { p with row := p.row + p.feeds, started := true }
/-- The state once the array, now `a`, has fed `n` rows and dropped some: the counters show it, and the array is not frozen. -/
def State.stepEnd (s : State) (t : Nat) (a : Arr) (n dropped : Nat) : State :=
  let s1 := s.setArr t a
  let s2 := s1.setEng t { s1.eng t with fed := (s1.eng t).fed + n }
  ((s2.rput .MXA_FED_LO t (BitVec.ofNat 32 (s2.eng t).fed)).fadd F.MXA_DROPPED_DROPPED t dropped).thaw t

theorem State.feeding.feedRows {s : State} {t : Nat} {p : Pass} (hf : s.feeding t p) (hfree : s.rowsFree t p) (tc : Nat) :
    s.feedRows t p 255 tc = s.stepEnd t (s.arrFed t p tc) p.feeds 0 := by
  have hn : min (min p.op.f (8 - p.row % 8)) (p.op.rows - p.row) = p.feeds := rfl
  have hrows : State.westRows p.feeds s t p.op p.row [] = (s, .inl ((List.range p.feeds).map (s.feedRow t p))) :=
    State.westRows_free hf.src p.feeds p.row [] hfree
  have hdropped : (((List.range p.feeds).map (s.feedOut t p)).filter (fun r => r.act ≠ .write)).length = 0 := by
    simp [State.feedOut, Mxs.outRow]
  rw [← hdropped]
  unfold State.feedRows
  simp only [hn, hrows, zipIdx_map_range, hf.started, bitOf_255, Bool.not_true, Bool.false_and, Bool.false_eq_true, if_false, if_true, List.map_map,
    Function.comp_def]
  rfl

/-! What the end of the step shows. -/

section
variable (s : State) (t : Nat) (a : Arr) (n : Nat)

theorem State.stepEnd_eng_same : (s.stepEnd t a n 0).eng t =
    { s.eng t with arr := { a with frozenNow := false, frozenFor := 0, stalled := false, got := [] }, fed := (s.eng t).fed + n } := by
  simp only [State.stepEnd, State.thaw, State.setArr, State.arr, State.fadd_eq, State.eng_fput, State.eng_rput, State.eng_setEng_same]
theorem State.stepEnd_eng_other {v : Nat} (h : v ≠ t) : (s.stepEnd t a n 0).eng v = s.eng v := by
  simp only [State.stepEnd, State.thaw, State.setArr, State.fadd_eq, State.eng_setEng_other _ _ h, State.eng_fput, State.eng_rput]
theorem State.stepEnd_fedLo : (s.stepEnd t a n 0).rget .MXA_FED_LO t = BitVec.ofNat 32 ((s.eng t).fed + n) := by
  simp only [State.stepEnd, State.thaw, State.setArr, State.fadd_eq, State.rget_setEng, State.eng_setEng_same]
  rw [State.rget_fput_other _ F.MXA_DROPPED_DROPPED t _ (fun h => absurd h.1 (by decide)), State.rget_rput_same]
theorem State.stepEnd_sameRegs : s.sameRegs (s.stepEnd t a n 0) [.MXA_FED_LO, .MXA_DROPPED] :=
  ((((s.setEng_sameRegs t _ _).trans (State.setEng_sameRegs _ t _ _)).trans (State.rput_sameRegs _ (by decide) t _)).trans
    (State.fput_sameRegs _ (f := F.MXA_DROPPED_DROPPED) (by decide) t _)).trans (State.setEng_sameRegs _ t _ _)
theorem State.stepEnd_keeps {β : Type} {φ : State → β} (hregs : Ign.regs φ) (htiles : Ign.tiles φ) : φ (s.stepEnd t a n 0) = φ s :=
  (State.thaw_keeps htiles _ t).trans ((State.fadd_keeps hregs _ _ t 0).trans ((State.rput_keeps hregs _ _ t _).trans
    ((State.setEng_keeps htiles _ t _).trans (State.setArr_keeps htiles s t a))))

end

/-! ### ARRAY_STEP -/

theorem Arr.setHead_self {a : Arr} {p : Pass} {ps : List Pass} (h : a.queue = p :: ps) : a.setHead p = a := by
  rw [Arr.setHead, h]
  exact congrArg (fun q => ({ a with queue := q } : Arr)) h.symm
theorem State.feeding.stepBody {s : State} {t : Nat} {p : Pass} (hf : s.feeding t p) (hfree : s.rowsFree t p) :
    ∃ v, s.portsServed v t ∧ s.stepBody t = v.stepEnd t (v.arrFed t p p.op.cls.tc) p.feeds 0 := by
  have hserved : s.portsServed (s.setArr t (s.arr t)) t := State.setArr_portsServed rfl
  have hf' := hf.served hserved
  have hfree' : (s.setArr t (s.arr t)).rowsFree t p := fun i hi => (hserved.arrFree _ _).trans (hfree i hi)
  have hback : ((s.setArr t (s.arr t)).arr t).backedUp p.op.cls.tc = false := by
    simp [Arr.backedUp, Arr.dueRows, Arr.lateRows, hf'.flight, hf'.buf]
  refine ⟨_, hserved, ?_⟩
  rw [← hf'.feedRows hfree']
  simp only [State.stepBody, hf.queue, hf.needs, hf.loaded, State.skipGroups_unmasked hf.mask hf.row, Arr.setHead_self hf.queue, hback, hf.started,
    hf.mode, List.any_nil, Bool.not_true, Bool.false_and, Bool.false_eq_true, ne_eq, not_true_eq_false, if_false]
/-- A step of a pass that feeds: the ports' records change, and the rows of the step are on their way. -/
theorem execArrayStep_feeding {s : State} {t : Fin 128} {p : Pass} (hpower : (s.eng t).power = .on) (hreset : (s.eng t).inReset = false)
    (hmx : (s.eng t).pendMx = false) (hbehind : (s.eng t).behind = none) (hf : s.feeding t p) (hfree : s.rowsFree t p)
    (lane : List (Fin 18)) (others : List (Fin 18 × Fin 32)) :
    ∃ v, s.portsServed v t ∧ execArrayStep t lane others s = .next (v.stepEnd t (v.arrFed t p p.op.cls.tc) p.feeds 0) := by
  have hticks := hf.portTicks (lane.map (fun p => (p.val, 3)) ++ otherWants others) (s.arr t).stepTc
  generalize hu : State.portTicks (s.arr t).stepTc s t (lane.map (fun p => (p.val, 3)) ++ otherWants others) = u at hticks
  obtain ⟨v, hv, hstep⟩ := (hf.served hticks).stepBody fun i hi => (hticks.arrFree _ _).trans (hfree i hi)
  have hservedv := hticks.trans hv
  have hmxu : (u.eng t).pendMx = false := by
    obtain ⟨w, l, heng, -⟩ := hticks
    rw [heng]
    exact hmx
  have hbehindv : ((v.stepEnd t (v.arrFed t p p.op.cls.tc) p.feeds 0).eng t).behind = none := by
    obtain ⟨w, l, heng, -⟩ := hservedv
    rw [State.stepEnd_eng_same, heng]
    exact hbehind
  refine ⟨v, hservedv, ?_⟩
  simp only [execArrayStep, hpower, hreset, hmx, hf.dropMasked, hu, hmxu, hstep, State.arrSettled, hbehindv, ne_eq, not_true_eq_false, decide_false,
    Bool.or_self, Bool.false_eq_true, if_false]

/-! ### The array after the step -/

theorem Arr.endIfDone_queue {a : Arr} {q : Pass} (h : a.queue = [q]) (p : Pass) :
    (a.endIfDone p).queue = if p.row < p.op.rows then [p] else [] := by
  unfold Arr.endIfDone
  split
  · rw [Arr.setHead, h]
  · exact congrArg (List.drop 1) h
theorem Arr.endIfDone_flight (a : Arr) (p : Pass) : (a.endIfDone p).flight = a.flight := by
  unfold Arr.endIfDone
  split <;> rfl
theorem State.feeding.arrFed_queue {s : State} {t : Nat} {p : Pass} (hf : s.feeding t p) (tc : Nat) :
    (s.arrFed t p tc).queue = if p.row + p.feeds < p.op.rows then [{ p with row := p.row + p.feeds }] else [] := by
  have hstarted : ({ p with row := p.row + p.feeds, started := true } : Pass) = { p with row := p.row + p.feeds } := by rw [← hf.started]
  have hqueue : ∀ l, ({ (s.arr t).advanceRows tc with flight := l } : Arr).queue = [p] := fun _ => hf.queue
  rw [State.arrFed, hstarted]
  exact Arr.endIfDone_queue (hqueue _) _
theorem State.feeding.arrFed_flight {s : State} {t : Nat} {p : Pass} (hf : s.feeding t p) (tc : Nat) :
    (s.arrFed t p tc).flight = (List.range p.feeds).map (s.feedOut t p) := by
  have hgone : ((s.arr t).advanceRows tc).flight = [] := by
    rw [Arr.advanceRows, hf.flight]
    rfl
  rw [State.arrFed, Arr.endIfDone_flight]
  exact congrArg (· ++ _) hgone
theorem State.portsServed.arrFed {s u : State} {t : Nat} (h : s.portsServed u t) (p : Pass) (tc : Nat) : u.arrFed t p tc = s.arrFed t p tc := by
  have hout : u.feedOut t p = s.feedOut t p := funext fun i => by
    rw [State.feedOut, State.feedOut, State.feedRow, State.feedRow, h.arr, h.spmRaw]
  rw [State.arrFed, State.arrFed, h.arr, hout]

/-- Settles O8 (R33, R34, R36 to R38, R46): a shadow load takes its block from the scratchpad, and a step whose lines are granted feeds the
next rows of an unmasked pass, one result row each. -/
theorem arrayDataResults : Obligations.ArrayDataResults := by
  unfold Obligations.ArrayDataResults
  intro t lane others s e free
  refine ⟨?_, ?_⟩
  · intro i p hload hpass hfree
    exact ⟨_, execShadowLoadComplete_free hload hpass hfree, s.onlyEng_setArr t (e.arr.shadowed i p (s.spmRaw t p.op.bbase p.op.blockLen))⟩
  · intro p hpower hreset hmx hqueue hflight hbuf hpend hloaded hstarted hmode hmask hsrc hrow hbehind hneeds n row hfree
    have hf : s.feeding t p := ⟨hqueue, hflight, hbuf, hpend, hloaded, hstarted, hmode, hmask, hsrc, hrow, hneeds⟩
    have hrows : s.rowsFree t p := fun i hi => List.all_eq_true.mp hfree i (List.mem_range.mpr hi)
    obtain ⟨v, hserved, hstep⟩ := execArrayStep_feeding hpower hreset hmx hbehind hf hrows lane others
    rw [hserved.arrFed] at hstep
    obtain ⟨w, l, heng, hother, hrest⟩ := hserved
    have hsame := v.stepEnd_eng_same t (s.arrFed t p p.op.cls.tc) p.feeds
    rw [heng] at hsame
    have hfed : (v.eng t).fed = e.fed := (congrArg Eng.fed heng :)
    refine ⟨_, hstep, (congrArg Eng.fed hsame :), ?_, (congrArg (·.arr.queue) hsame).trans (hf.arrFed_queue _),
      (congrArg (·.arr.flight) hsame).trans (hf.arrFed_flight _), (congrArg Eng.sreg hsame :), (congrArg Eng.vreg hsame :), (congrArg Eng.pc hsame :),
      fun i hi => (v.stepEnd_eng_other t _ _ hi).trans (hother i hi), ?_, ?_⟩
    · exact (v.stepEnd_fedLo t _ _).trans (congrArg (fun m => BitVec.ofNat 32 (m + p.feeds)) hfed)
    · exact (State.sameRegs_of_regs _ (congrArg State.regs hrest :)).trans (v.stepEnd_sameRegs t _ _)
    · exact (v.stepEnd_keeps t _ _ (φ := fun u : State => { u with tiles := s.tiles, regs := s.regs }) (fun _ _ => rfl) (fun _ _ => rfl)).trans
        (congrArg (fun u : State => { u with regs := s.regs }) hrest)

end Sys2Proof.Machine
end

section
/-! The scalar, branch, SYS and cache instructions (R58, R60). -/

namespace Sys2Proof.Machine

/-! ### SALU (R60) -/

theorem bitOf_eq_testBit (n i : Nat) : bitOf n i = n.testBit i := by
  rw [bitOf, Nat.testBit_eq_decide_div_mod_eq]
  rfl
/-- The bits of a double word, listed. -/
theorem bitList_dword (a : DWord) : bitList a.toNat 64 = (List.range 64).filter (fun i => a.getLsbD i) :=
  congrArg (fun p : Nat → Bool => (List.range 64).filter p) (funext fun i => bitOf_eq_testBit a.toNat i)
/-- The two halves of a product. -/
theorem mul_halves (a b : DWord) : 2 ^ 64 * (BitVec.ofNat 64 (a.toNat * b.toNat / 2 ^ 64)).toNat + (a * b).toNat = a.toNat * b.toNat := by
  have hlt : a.toNat * b.toNat / 2 ^ 64 < 2 ^ 64 := by
    have hmul : a.toNat * b.toNat < 2 ^ 64 * 2 ^ 64 := Nat.mul_lt_mul'' a.isLt b.isLt
    exact Nat.div_lt_of_lt_mul hmul
  rw [BitVec.toNat_ofNat, Nat.mod_eq_of_lt hlt, BitVec.toNat_mul]
  exact Nat.div_add_mod _ _
theorem toInt_ite_min (a b : DWord) : (if a.toInt < b.toInt then a else b).toInt = min a.toInt b.toInt := by
  split <;> omega
theorem toInt_ite_max (a b : DWord) : (if a.toInt < b.toInt then b else a).toInt = max a.toInt b.toInt := by
  split <;> omega
theorem toNat_ite_one (c : Prop) [Decidable c] : (if c then 1 else 0 : DWord).toNat = if c then 1 else 0 := by
  split <;> rfl
/-- What SALU gives for the operation `fn`; 0 for an operation that is not assigned. -/
def saluValue (a b : DWord) (fn : Nat) : DWord := (saluOp fn a b).getD 0

/-- Settles O2 (R60): the sixteen SALU operations as numbers. -/
theorem saluOperations : Obligations.SaluOperations := by
  unfold Obligations.SaluOperations
  intro a b
  refine ⟨?_, saluValue a b, ?_, ?_, ?_, ?_, ?_, ?_, ?_, ?_, ?_, ?_, ?_, ?_, ?_, ?_, ?_, ?_⟩
  · intro fn hfn
    obtain ⟨k, rfl⟩ := Nat.exists_eq_add_of_le hfn
    rw [Nat.add_comm]
    rfl
  · intro fn hfn
    have hsome : (saluOp fn a b).isSome = true := by interval_cases fn <;> rfl
    obtain ⟨v, hv⟩ := Option.isSome_iff_exists.mp hsome
    rw [saluValue, hv, Option.getD_some]
  · exact BitVec.toNat_add a b
  · have hsub := BitVec.toNat_sub a b
    have hb := b.isLt
    exact hsub.trans (congrArg (· % 2 ^ 64) (by omega))
  · exact fun i => BitVec.getLsbD_and
  · exact fun i => BitVec.getLsbD_or
  · exact fun i => BitVec.getLsbD_xor
  · exact (BitVec.toNat_shiftLeft).trans (congrArg (· % 2 ^ 64) (Nat.shiftLeft_eq _ _))
  · exact (BitVec.toNat_ushiftRight a _).trans (Nat.shiftRight_eq_div_pow _ _)
  · exact (BitVec.toInt_sshiftRight).trans (Int.shiftRight_eq_div_pow _ _)
  · exact mul_halves a b
  · exact toInt_ite_min a b
  · exact toInt_ite_max a b
  · exact toNat_ite_one _
  · exact toNat_ite_one _
  · exact toNat_ite_one _
  · have hle : (bitList a.toNat 64).length ≤ 64 := (List.length_filter_le _ _).trans (by simp)
    have hval : (saluValue a b 15).toNat = (bitList a.toNat 64).length := by
      change (BitVec.ofNat 64 (bitList a.toNat 64).length).toNat = _
      rw [BitVec.toNat_ofNat, Nat.mod_eq_of_lt (by omega)]
    rw [hval, bitList_dword]

/-! ### Instructions that change one engine (R58, R60) -/

theorem State.onlyEng_retireS (s : State) (t d v : Nat) :
    s.onlyEng (s.retireS t d v) t (((s.eng t).setS d (BitVec.ofNat 64 v)).past 1) := (s.onlyEng_setEng t _).advance 1
theorem State.onlyEng_retireS_word (s : State) (t d : Nat) (v : DWord) :
    s.onlyEng (s.retireS t d v.toNat) t (((s.eng t).setS d v).past 1) := by
  have h := s.onlyEng_retireS t d v.toNat
  rwa [BitVec.ofNat_toNat, BitVec.setWidth_eq] at h

section
variable {t : Fin 128} {w : Word} {s : State}

theorem execSalu_issued {v : DWord} (h : s.issues t w 0x00 = true)
    (hv : saluOp (sFN w) (((s.lineIn t).eng t).s (sA w)) (((s.lineIn t).eng t).s (sB w)) = some v) :
    execSalu t w s = .next ((s.lineIn t).retireS t (sD w) v.toNat) := by
  rw [execSalu, State.issueWith_of_issues h]
  simp only [hv]
theorem execSaddi_issued (h : s.issues t w 0x01 = true) :
    execSaddi t w s = .next ((s.lineIn t).retireS t (sD w) (((s.lineIn t).eng t).s (sA w) + BitVec.ofInt 64 (iIMM w)).toNat) := by
  rw [execSaddi, State.issueWith_of_issues h]
theorem execSlui_issued (h : s.issues t w 0x02 = true) (hA : sA w = 0) :
    execSlui t w s = .next ((s.lineIn t).retireS t (sD w) (BitVec.ofInt 64 (65536 * iIMM w)).toNat) := by
  rw [execSlui, State.issueWith_of_issues h, if_neg (not_not_intro hA)]
/-- The engine after a branch that is taken, or not (R60). -/
def Eng.branched (e : Eng) (taken : Bool) (w : Word) : Eng :=
  if taken then { e with pc := wrap 32 (e.pc + 4 * jOFF w), stall := none } else e.past 1
theorem execBr_issued {b : Bool} (h : s.issues t w 0x10 = true)
    (hb : brCond (jCOND w) (((s.lineIn t).eng t).s (jA w)) (((s.lineIn t).eng t).s (jB w)) = some b) :
    execBr t w s = .next ((s.lineIn t).setEng t (((s.lineIn t).eng t).branched b w)) := by
  rw [execBr, State.issueWith_of_issues h]
  simp only [hb]
  cases b <;> rfl
theorem execJal_issued {a : Nat} (h : s.issues t w 0x11 = true) (hC : jCOND w = 0)
    (ha : a = wrap 64 ((((s.lineIn t).eng t).s (jA w)).toNat + 4 * jOFF w)) (halign : a % 4 = 0) :
    execJal t w s = .next ((s.lineIn t).setEng t
      { ((s.lineIn t).eng t).setS (jB w) (BitVec.ofNat 64 ((((s.lineIn t).eng t).pc + 4) % 2 ^ 32)) with pc := a % 2 ^ 32, stall := none }) := by
  subst ha
  rw [execJal, State.issueWith_of_issues h]
  simp only [hC, halign, ne_eq, not_true_eq_false, if_false]
theorem execTret_issued (h : s.issues t w 0x12 = true) (hin : ((s.lineIn t).eng t).inHandler = true) :
    execTret t w s = .next ((s.lineIn t).setEng t { (s.lineIn t).eng t with
      pc := ((s.lineIn t).fget F.TSEQ_TPC_TPC t +
        if (s.lineIn t).flag F.TSEQ_TRAP_ASYNC t then 0 else if ((s.lineIn t).eng t).trapMxs then 16 else 4) % 2 ^ 32
      inHandler := false, trapMxs := false, stall := none }) := by
  rw [execTret, State.issueWith_of_issues h]
  simp only [hin, Bool.not_true, Bool.false_eq_true, if_false]
/-- What SYS reads for an `fn` below 4: device time, tile, group id, tasklet index (R60). -/
def State.sysValue (s : State) (t fn : Nat) : Nat :=
  if fn = 0 then s.clk.ns else if fn = 1 then t else if fn = 2 then ((s.tileDisp t).map (·.2.gid)).getD 0
  else ((s.eng t).task.map (·.idx)).getD (2 ^ 64 - 1)
theorem execSys_issued (h : s.issues t w 0x39 = true) (hR : xRsv w = 0) (hF : xFN w < 4) :
    execSys t w s = .next ((s.lineIn t).retireS t (xC w) ((s.lineIn t).sysValue t (xFN w))) := by
  rw [execSys, State.issueWith_of_issues h]
  simp only [hR, ne_eq, not_true_eq_false, if_false]
  generalize xFN w = fn at hF
  interval_cases fn <;> rfl

end

/-- Settles O1 (R58, R60; log entry 38): the scalar, branch and SYS instructions, and the invalidation of the instruction cache. -/
theorem scalarResults : Obligations.ScalarResults := by
  unfold Obligations.ScalarResults
  intro t w s l e
  refine ⟨?_, ?_, ?_, ?_, ?_, ?_, ?_, ?_⟩
  · exact fun h v hv => ⟨_, execSalu_issued h hv, l.onlyEng_retireS_word t _ v⟩
  · exact fun h => ⟨_, execSaddi_issued h, l.onlyEng_retireS_word t _ _⟩
  · exact fun h hA => ⟨_, execSlui_issued h hA, l.onlyEng_retireS_word t _ _⟩
  · exact fun h b hb => ⟨_, execBr_issued h hb, l.onlyEng_setEng t (e.branched b w)⟩
  · exact fun h hC a ha halign => ⟨_, execJal_issued h hC ha halign, l.onlyEng_setEng t _⟩
  · exact fun h hin => ⟨_, execTret_issued h hin, l.onlyEng_setEng t _⟩
  · exact fun h hR hF => ⟨_, execSys_issued h hR hF, l.onlyEng_retireS t _ (l.sysValue t (xFN w))⟩
  · exact ⟨_, rfl, s.onlyEng_setEng t _⟩

end Sys2Proof.Machine
end

section
/-! Stores into good words of a scratchpad, and reads by the program (R104, R107, R116, R118). -/

namespace Sys2Proof.Machine

/-! ### Bytes put into a scratchpad -/

/-- A map with bytes stored from a key on. -/
def SMap.setBytes (m : SMap Byte) (k : Nat) (bs : List Byte) : SMap Byte := (bs.zipIdx).foldl (fun m p => SMap.set m (k + p.2) p.1 0) m

theorem SMap.setBytes_cons (m : SMap Byte) (k : Nat) (b : Byte) (bs : List Byte) :
    SMap.setBytes m k (b :: bs) = SMap.setBytes (SMap.set m k b 0) (k + 1) bs := by
  have hshift : (bs.zipIdx 1).foldl (fun m p => SMap.set m (k + p.2) p.1 (0 : Byte)) (SMap.set m k b 0) =
      (bs.zipIdx).foldl (fun m p => SMap.set m (k + 1 + p.2) p.1 0) (SMap.set m k b 0) := by
    rw [List.zipIdx_succ, List.foldl_map]
    simp only [Nat.add_comm 1, Nat.add_assoc]
  exact hshift
theorem SMap.sorted_setBytes : ∀ (bs : List Byte) (m : SMap Byte) (k : Nat), SMap.sortedFrom none m = true →
    SMap.sortedFrom none (SMap.setBytes m k bs) = true
  | [], _, _, h => h
  | b :: bs, m, k, h => by
    rw [SMap.setBytes_cons]
    exact SMap.sorted_setBytes bs _ (k + 1) (SMap.sorted_set k b 0 m h)
/-- A stored byte reads as it was stored, every other one as it was. -/
theorem SMap.get_setBytes : ∀ (bs : List Byte) (m : SMap Byte) (k j : Nat), SMap.sortedFrom none m = true →
    SMap.get (SMap.setBytes m k bs) j 0 = if k ≤ j ∧ j < k + bs.length then bs.getD (j - k) 0 else SMap.get m j 0
  | [], m, k, j, _ => (if_neg (by simp)).symm
  | b :: bs, m, k, j, h => by
    rw [SMap.setBytes_cons, SMap.get_setBytes bs _ (k + 1) j (SMap.sorted_set k b 0 m h), List.length_cons]
    by_cases hj : j = k
    · subst hj
      rw [if_neg (by omega), if_pos (by omega), SMap.get_set_same j b 0 m h, Nat.sub_self, List.getD_cons_zero]
    · rw [SMap.get_set_other b 0 hj m h]
      by_cases hin : k + 1 ≤ j ∧ j < k + 1 + bs.length
      · obtain ⟨i, rfl⟩ := Nat.exists_eq_add_of_le hin.1
        rw [if_pos hin, if_pos (by omega), Nat.add_sub_cancel_left, show k + 1 + i - k = i + 1 by omega, List.getD_cons_succ]
      · rw [if_neg hin, if_neg (by omega)]
/-- A read above a key that was taken out. -/
theorem SMap.find_del_above {α : Type} {k j : Nat} (h : k < j) : ∀ m : SMap α, SMap.find (SMap.del m k) j = SMap.find m j
  | [] => rfl
  | (k', a) :: m => by
    have htail := SMap.find_del_above h m
    simp only [SMap.del]
    split
    · next hk => simp only [SMap.find, show j ≠ k' by omega, show ¬ j < k' by omega, if_false]
    · split
      · rfl
      · simp only [SMap.find, htail]

/-! ### What a store leaves behind -/

/-- Every word that [a, a + n) of scratchpad `t` meets has a good code (R118). -/
def State.wordsGood (s : State) (t a n : Nat) : Prop := ∀ w, a / 8 ≤ w → 8 * w < a + n → SMap.get s.spmErr (spmKey t 0 / 8 + w) 0 = 0

/-- `u` is `s` with the bytes `bs` stored at offset `a` of scratchpad `t`; the codes of the words above them are as they were. -/
structure State.stored (s u : State) (t a : Nat) (bs : List Byte) : Prop where
  sorted : u.spmOk
  get : ∀ j, SMap.get u.spm j 0 = if spmKey t a ≤ j ∧ j < spmKey t a + bs.length then bs.getD (j - spmKey t a) 0 else SMap.get s.spm j 0
  err : ∀ w, spmKey t a + bs.length ≤ 8 * w → SMap.get u.spmErr w 0 = SMap.get s.spmErr w 0
  rest : { u with spm := s.spm, spmErr := s.spmErr } = s

theorem State.stored_nil {s : State} (h : s.spmOk) (t a : Nat) : s.stored s t a [] :=
  ⟨h, fun j => (if_neg (by simp)).symm, fun _ _ => rfl, rfl⟩
theorem State.stored.trans {s u v : State} {t a : Nat} {bs cs : List Byte} (h : s.stored u t a bs) (h' : u.stored v t (a + bs.length) cs) :
    s.stored v t a (bs ++ cs) where
  sorted := h'.sorted
  get j := by
    rw [h'.get, h.get, List.length_append, ← spmKey_add]
    by_cases hlow : j < spmKey t a + bs.length
    · rw [if_neg (by omega)]
      by_cases hin : spmKey t a ≤ j
      · rw [if_pos ⟨hin, hlow⟩, if_pos (by omega), List.getD_append _ _ _ _ (by omega)]
      · rw [if_neg (by omega), if_neg (by omega)]
    · by_cases hin : j < spmKey t a + bs.length + cs.length
      · rw [if_pos (by omega), if_pos (by omega), List.getD_append_right _ _ _ _ (by omega), Nat.sub_sub]
      · rw [if_neg (by omega), if_neg (by omega), if_neg (by omega)]
  err w hw := by
    rw [List.length_append] at hw
    rw [h'.err w (by rw [← spmKey_add]; omega), h.err w (by omega)]
  rest := (congrArg (fun x : State => { x with spm := s.spm, spmErr := s.spmErr }) h'.rest).trans h.rest
theorem State.stored.tiles {s u : State} {t a : Nat} {bs : List Byte} (h : s.stored u t a bs) : u.tiles = s.tiles := (congrArg State.tiles h.rest :)
theorem State.stored.regs {s u : State} {t a : Nat} {bs : List Byte} (h : s.stored u t a bs) : u.regs = s.regs := (congrArg State.regs h.rest :)
theorem State.stored.eng {s u : State} {t a : Nat} {bs : List Byte} (h : s.stored u t a bs) (v : Nat) : u.eng v = s.eng v :=
  State.eng_of_tiles h.tiles v

theorem State.spmRaw_one (s : State) (t o : Nat) : s.spmRaw t o 1 = [SMap.get s.spm (spmKey t o) 0] := rfl
/-- The stored bytes read back, and every other byte of the scratchpads is as it was. -/
theorem State.stored.storedAt {s u : State} {t a : Nat} {bs : List Byte} (h : s.stored u t a bs) (ha : a + bs.length ≤ 2 ^ 23) :
    s.storedAt u t a bs := by
  have hkey : ∀ v o, spmKey v o = 2 ^ 23 * v + o := fun _ _ => rfl
  constructor
  · intro i hi
    rw [State.spmRaw_one, h.get, ← spmKey_add, if_pos (by omega), Nat.add_sub_cancel_left]
  · intro v o hv ho hout
    rw [State.spmRaw_one, State.spmRaw_one, h.get, if_neg]
    rw [hkey, hkey]
    omega
theorem State.storedAt.of_spm {s u v : State} {t a : Nat} {bs : List Byte} (h : s.storedAt u t a bs) (hspm : v.spm = u.spm) : s.storedAt v t a bs := by
  have hraw : ∀ x o n, v.spmRaw x o n = u.spmRaw x o n := fun x o n => by rw [State.spmRaw, State.spmRaw, hspm]
  exact ⟨fun i hi => (hraw _ _ _).trans (h.1 i hi), fun x o hx ho hout => (hraw _ _ _).trans (h.2 x o hx ho hout)⟩
/-- Codes of words above a store are as good as they were. -/
theorem State.stored.wordsGood {s u : State} {t a b n : Nat} {bs : List Byte} (h : s.stored u t a bs) (hb : a + bs.length ≤ 8 * (b / 8))
    (hgood : s.wordsGood t b n) : u.wordsGood t b n := by
  intro w hw hlt
  rw [h.err _ (by unfold spmKey; omega)]
  exact hgood w hw hlt

/-! ### One word -/

theorem State.spmRaw_getD (s : State) (t a : Nat) {n i : Nat} (h : i < n) : (s.spmRaw t a n).getD i 0 = SMap.get s.spm (spmKey t a + i) 0 := by
  have hi : i < (s.spmRaw t a n).length := by rwa [State.spmRaw_length]
  rw [List.getD_eq_getElem _ _ hi, State.spmRaw_getElem]
/-- Putting bytes into the word of a key takes that key's code out, and leaves those above it. -/
theorem State.spmPut_err (s : State) {t a v : Nat} (bs : List Byte) (h : spmKey t a / 8 < v) :
    SMap.get (s.spmPut t a bs).spmErr v 0 = SMap.get s.spmErr v 0 := congrArg (Option.getD · 0) (SMap.find_del_above h s.spmErr)
theorem State.spmPut_stored {s : State} (h : s.spmOk) (t a : Nat) {bs : List Byte} (hbs : bs ≠ []) : s.stored (s.spmPut t a bs) t a bs where
  sorted := SMap.sorted_setBytes bs s.spm (spmKey t a) h
  get j := SMap.get_setBytes bs s.spm (spmKey t a) j h
  err w hw := by
    have hlen := List.length_pos_of_ne_nil hbs
    exact s.spmPut_err bs (by omega)
  rest := rfl
/-- A word with a part of it replaced. -/
theorem State.spmPut_merged_stored {s : State} (h : s.spmOk) (t w m : Nat) {bs : List Byte} (hbs : bs ≠ []) (hm : m + bs.length ≤ 8) :
    s.stored (s.spmPut t w ((s.spmRaw t w 8).take m ++ bs ++ (s.spmRaw t w 8).drop (m + bs.length))) t (w + m) bs := by
  have hhead : (s.spmRaw t w 8).take m = s.spmRaw t w m := by
    simpa using s.spmRaw_slice t w 8 (i := 0) (k := m) (by omega)
  have htail : (s.spmRaw t w 8).drop (m + bs.length) = s.spmRaw t (w + (m + bs.length)) (8 - (m + bs.length)) := by
    rw [← s.spmRaw_slice t w 8 (by omega), List.take_of_length_le (by simp)]
  have hlen := List.length_pos_of_ne_nil hbs
  have hput := State.spmPut_stored h t w (bs := s.spmRaw t w m ++ bs ++ s.spmRaw t (w + (m + bs.length)) (8 - (m + bs.length))) (by simp [hbs])
  have hall : (s.spmRaw t w m ++ bs ++ s.spmRaw t (w + (m + bs.length)) (8 - (m + bs.length))).length = 8 := by
    simp only [List.length_append, State.spmRaw_length]
    omega
  rw [hhead, htail]
  refine ⟨hput.sorted, fun j => ?_, fun v hv => s.spmPut_err _ (by rw [← spmKey_add] at hv; omega), rfl⟩
  rw [hput.get, hall, ← spmKey_add]
  by_cases hin : spmKey t w ≤ j ∧ j < spmKey t w + 8
  · obtain ⟨i, rfl⟩ := Nat.exists_eq_add_of_le hin.1
    rw [if_pos hin, Nat.add_sub_cancel_left]
    by_cases hlow : i < m
    · rw [if_neg (by omega), List.append_assoc, List.getD_append _ _ _ _ (by simpa using hlow), s.spmRaw_getD t w hlow]
    · by_cases hmid : i < m + bs.length
      · rw [if_pos (by omega), List.getD_append _ _ _ _ (by simpa using hmid), List.getD_append_right _ _ _ _ (by simp; omega), State.spmRaw_length,
          Nat.add_sub_add_left]
      · rw [if_neg (by omega), List.getD_append_right _ _ _ _ (by simp; omega), List.length_append, State.spmRaw_length, s.spmRaw_getD t _ (by omega),
          ← spmKey_add, Nat.add_assoc, Nat.add_sub_cancel' (by omega)]
  · rw [if_neg hin, if_neg (by omega)]

/-! ### A run of bytes -/

/-- Into good words a run of bytes is stored whole (R118). -/
theorem State.spmWriteGo_good (t : Nat) : ∀ (fuel : Nat) {s : State} (a : Nat) (bs : List Byte), s.spmOk →
    (bs ≠ [] → a + bs.length ≤ 8 * (a / 8 + fuel)) → (bs ≠ [] → s.wordsGood t a bs.length) →
    ∃ u, State.spmWriteGo fuel s t a bs [] false = (u, false) ∧ s.stored u t a bs
  | 0, s, a, bs, h, hfuel, _ => by
    have hnil : bs = [] := by
      by_contra hne
      have := List.length_pos_of_ne_nil hne
      have := hfuel hne
      omega
    subst hnil
    exact ⟨s, rfl, State.stored_nil h t a⟩
  | fuel + 1, s, a, bs, h, hfuel, hgood => by
    by_cases hnil : bs = []
    · subst hnil
      exact ⟨s, rfl, State.stored_nil h t a⟩
    have hlen := List.length_pos_of_ne_nil hnil
    have hfuel' := hfuel hnil
    have hgood' := hgood hnil
    obtain ⟨k, hk⟩ : ∃ k, k = min bs.length (8 - a % 8) := ⟨_, rfl⟩
    have htake : (bs.take k).length = k := by
      rw [List.length_take]
      omega
    have hne : bs.take k ≠ [] := List.ne_nil_of_length_pos (by omega)
    -- the part that lies in the first word
    obtain ⟨v, hgo, hput⟩ : ∃ v, State.spmWriteGo (fuel + 1) s t a bs [] false = State.spmWriteGo fuel v t (a + k) (bs.drop k) [] false ∧
        s.stored v t a (bs.take k) := by
      by_cases hwhole : k = 8
      · refine ⟨s.spmPut t a (bs.take k), ?_, State.spmPut_stored h t a hne⟩
        simp only [State.spmWriteGo, if_neg hnil, ← hk, if_pos hwhole, List.contains_nil, Bool.false_eq_true, if_false]
      · have hkey : spmKey t (a - a % 8) / 8 = spmKey t 0 / 8 + a / 8 := by
          unfold spmKey
          omega
        have hword : s.spmWord t (a - a % 8) = _ := State.spmWord_good (by rw [hkey]; exact hgood' _ (Nat.le_refl _) (by omega))
        have hput := State.spmPut_merged_stored h t (a - a % 8) (a % 8) hne (by omega)
        rw [Nat.sub_add_cancel (Nat.mod_le a 8), htake] at hput
        refine ⟨_, ?_, hput⟩
        simp only [State.spmWriteGo, if_neg hnil, ← hk, if_neg hwhole, List.contains_nil, Bool.false_eq_true, if_false, hword]
    -- the words after it
    have hmore : bs.drop k ≠ [] → k < bs.length := fun hne' => by
      have := List.length_pos_of_ne_nil hne'
      rw [List.length_drop] at this
      omega
    obtain ⟨u, hu, hstored⟩ := State.spmWriteGo_good t fuel (a + k) (bs.drop k) hput.sorted
      (fun hne' => by
        have := hmore hne'
        rw [List.length_drop]
        omega)
      (fun hne' => by
        have := hmore hne'
        refine hput.wordsGood (by omega) fun w hw hlt => hgood' w (by omega) ?_
        rw [List.length_drop] at hlt
        omega)
    refine ⟨u, hgo.trans hu, ?_⟩
    have hall := hput.trans (by rwa [htake])
    rwa [List.take_append_drop] at hall
theorem State.spmWrite_good {s : State} {t a : Nat} {bs : List Byte} (h : s.spmOk) (hgood : s.wordsGood t a bs.length) :
    ∃ u, s.spmWrite t a bs = (u, false) ∧ s.stored u t a bs :=
  State.spmWriteGo_good t _ a bs h (fun _ => by omega) (fun _ => hgood)
theorem State.spmRead_good {s : State} {t a n : Nat} (hgood : s.wordsGood t a n) : s.spmRead t a n = (s, some (s.spmRaw t a n)) :=
  State.spmReadGo_good _ a n (fun _ => by omega) hgood

/-! ### What the program may access (R104, R107) -/

theorem State.wordsGood_of_progOk {s : State} {t a n : Nat} (h : s.progOk t a n = true) : s.wordsGood t a n := by
  intro w hw hlt
  obtain ⟨-, -, hgood⟩ := (s.progOk_iff t a n).mp h
  have hk := hgood (w - a / 8) (by omega)
  rwa [Nat.add_assoc, Nat.add_sub_cancel' hw] at hk
theorem mem_banksOf {b off n : Nat} : b ∈ banksOf off n ↔ b < 16 ∧ off < 2 ^ 19 * (b + 1) ∧ 2 ^ 19 * b < off + n := by
  simp [banksOf]
theorem grants_yes_iff (l : List Grant) :
    (if l.contains .refused then Grant.refused else if l.contains .wait then .wait else .yes) = .yes ↔ ∀ g, g ∈ l → g = .yes := by
  simp only [List.contains_iff_mem]
  constructor
  · intro h g hg
    cases g with
    | yes => rfl
    | refused => simp [hg] at h
    | wait =>
      rw [if_pos hg] at h
      split at h <;> cases h
  · intro h
    have hno : ∀ g : Grant, g ≠ .yes → g ∉ l := fun g hg hm => hg (h g hm)
    rw [if_neg (hno _ (by decide)), if_neg (hno _ (by decide))]
/-- An access is granted when every bank that it meets serves it. -/
theorem State.spmGrant_yes_iff (s : State) (t off n : Nat) (c : OwnClass) :
    s.spmGrant t off n c = .yes ↔ ∀ b, b ∈ banksOf off n → s.bankGrant t b c = .yes :=
  (grants_yes_iff _).trans List.forall_mem_map
/-- A part of what the program may access. -/
theorem State.progOk_part {s : State} {t a n b m : Nat} (h : s.progOk t a n = true) (hlow : a ≤ b) (hhigh : b + m ≤ a + n) :
    s.progOk t b m = true := by
  obtain ⟨hend, hgrant, -⟩ := (s.progOk_iff t a n).mp h
  refine (s.progOk_iff t b m).mpr ⟨by omega, ?_, ?_⟩
  · rw [State.spmGrant_yes_iff] at hgrant ⊢
    intro x hx
    rw [mem_banksOf] at hx
    exact hgrant x (mem_banksOf.mpr (by omega))
  · intro k hk
    rw [Nat.add_assoc]
    exact State.wordsGood_of_progOk h (b / 8 + k) (by omega) (by omega)
theorem State.progRead_ok {s : State} {t a n : Nat} (h : s.progOk t a n = true) (w : Word) (k : State → List Byte → State) :
    s.progRead t w a n k = k s (s.spmRaw t a n) := by
  obtain ⟨hend, hgrant, -⟩ := (s.progOk_iff t a n).mp h
  simp only [State.progRead, if_neg (Nat.not_lt.mpr hend), hgrant, State.spmRead_progOk h]
theorem State.progWrite_ok {s : State} {t a : Nat} {bs : List Byte} (h : s.progOk t a bs.length = true) (hsorted : s.spmOk) (w : Word) :
    ∃ u, s.stored u t a bs ∧ ∀ k : State → State, s.progWrite t w a bs k = k u := by
  obtain ⟨hend, hgrant, -⟩ := (s.progOk_iff t a bs.length).mp h
  obtain ⟨u, hu, hstored⟩ := State.spmWrite_good hsorted (State.wordsGood_of_progOk h)
  refine ⟨u, hstored, fun k => ?_⟩
  simp only [State.progWrite, if_neg (Nat.not_lt.mpr hend), hgrant, hu, Bool.false_eq_true, if_false]

end Sys2Proof.Machine
end

section
/-! Vector instructions, scratchpad loads and stores, and RDX (R60, R72, R97 to R101, R104, R205). -/

namespace Sys2Proof.Machine

/-! ### An instruction that stores -/

/-- `u` is `l` with the bytes `bs` stored at `a` by an instruction of engine `t`, which stands at `e` after it. -/
def State.storeDone (l u : State) (t a : Nat) (bs : List Byte) (e : Eng) : Prop :=
  l.storedAt u t a bs ∧ u.eng t = e ∧ (∀ v, v ≠ t → u.eng v = l.eng v) ∧ { u with tiles := l.tiles, spm := l.spm, spmErr := l.spmErr } = l
theorem State.stored.advance {l u : State} {t a : Nat} {bs : List Byte} (h : l.stored u t a bs) (ha : a + bs.length ≤ 2 ^ 23) :
    l.storeDone (u.advance t 1) t a bs ((l.eng t).past 1) := by
  refine ⟨(h.storedAt ha).of_spm rfl, ?_, fun v hv => ?_, ?_⟩
  · exact (u.onlyEng_advance t 1).1.trans (congrArg (Eng.past · 1) (h.eng t))
  · exact ((u.onlyEng_advance t 1).2.1 v hv).trans (h.eng v)
  · exact (congrArg (fun x : State => { x with tiles := l.tiles }) h.rest :)

/-! ### Scratchpad loads and stores (R60, R104) -/

theorem length_flatMap_const {α β : Type} {n : Nat} {f : α → List β} (hf : ∀ x, (f x).length = n) (l : List α) :
    (l.flatMap f).length = l.length * n := by
  rw [List.length_flatMap, List.map_congr_left fun x _ => hf x, List.map_const', List.sum_replicate, smul_eq_mul]
/-- The 1,024 bytes of a vector register. -/
def Eng.laneBytes (e : Eng) (v : Nat) : List Byte := (List.range 256).flatMap (fun i => leBytes 4 (e.lane v i).toNat)
theorem Eng.laneBytes_length (e : Eng) (v : Nat) : (e.laneBytes v).length = 1024 := by
  rw [Eng.laneBytes, length_flatMap_const (n := 4) (fun i => leBytes_length 4 _), List.length_range]

section
variable {t : Fin 128} {w : Word} {s : State}

theorem execSld_issued {a : Nat} (h : s.issues t w 0x03 = true) (ha : a = spAddr (((s.lineIn t).eng t).s (sA w)) (iIMM w)) (halign : a % 8 = 0)
    (hok : (s.lineIn t).progOk t a 8 = true) :
    execSld t w s = .next ((s.lineIn t).retireS t (sD w) (leNat ((s.lineIn t).spmRaw t a 8))) := by
  subst ha
  rw [execSld, State.issueWith_of_issues h]
  simp only [halign, ne_eq, not_true_eq_false, if_false, State.progRead_ok hok]
theorem execSst_issued {a : Nat} (h : s.issues t w 0x04 = true) (hsorted : (s.lineIn t).spmOk)
    (ha : a = spAddr (((s.lineIn t).eng t).s (sA w)) (iIMM w)) (halign : a % 8 = 0) (hok : (s.lineIn t).progOk t a 8 = true) :
    ∃ u, execSst t w s = .next (u.advance t 1) ∧ (s.lineIn t).stored u t a (leBytes 8 (((s.lineIn t).eng t).s (sD w)).toNat) := by
  subst ha
  obtain ⟨u, hu, hwrite⟩ := State.progWrite_ok (bs := leBytes 8 (((s.lineIn t).eng t).s (sD w)).toNat) (by rwa [leBytes_length]) hsorted w
  refine ⟨u, ?_, hu⟩
  rw [execSst, State.issueWith_of_issues h]
  simp only [halign, ne_eq, not_true_eq_false, if_false, hwrite]
theorem execVst_issued {a : Nat} (h : s.issues t w 0x22 = true) (hsorted : (s.lineIn t).spmOk)
    (ha : a = spAddr (((s.lineIn t).eng t).s (mA w)) (1024 * mIMM w)) (hok : (s.lineIn t).progOk t a 1024 = true) :
    ∃ u, execVst t w s = .next (u.advance t 1) ∧ (s.lineIn t).stored u t a (((s.lineIn t).eng t).laneBytes (vD w)) := by
  subst ha
  obtain ⟨u, hu, hwrite⟩ := State.progWrite_ok (bs := ((s.lineIn t).eng t).laneBytes (vD w)) (by rwa [Eng.laneBytes_length]) hsorted w
  refine ⟨u, ?_, hu⟩
  rw [execVst, State.issueWith_of_issues h]
  exact congrArg Host.Outcome.next (hwrite _)
/-- Writing a vector register looks at its 256 lanes alone. -/
theorem Eng.setV_congr (e : Eng) (v : Nat) {f g : Nat → Word} (h : ∀ i, i < 256 → f i = g i) : e.setV v f = e.setV v g := by
  have hfold : ∀ (ls : List Nat) (m : SMap Word), (∀ i ∈ ls, f i = g i) →
      ls.foldl (fun m l => SMap.put m (256 * v + l) (f l)) m = ls.foldl (fun m l => SMap.put m (256 * v + l) (g l)) m := by
    intro ls m hls
    exact List.foldl_ext _ _ _ fun m l hl => by rw [hls l hl]
  rw [Eng.setV, Eng.setV, hfold _ _ fun i hi => h i (List.mem_range.mp hi)]
theorem execVld_issued {a : Nat} (h : s.issues t w 0x21 = true) (ha : a = spAddr (((s.lineIn t).eng t).s (mA w)) (1024 * mIMM w))
    (hok : (s.lineIn t).progOk t a 1024 = true) :
    execVld t w s = .next (((s.lineIn t).setEng t (((s.lineIn t).eng t).setV (vD w) (fun i =>
      BitVec.ofNat 32 (leNat ((s.lineIn t).spmRaw t (a + 4 * i) 4))))).advance t 1) := by
  subst ha
  rw [execVld, State.issueWith_of_issues h]
  simp only [State.progRead_ok hok]
  rw [Eng.setV_congr]
  intro i hi
  rw [leAt, State.spmRaw_slice _ _ _ _ (by omega)]

end

/-! ### VOP (R97 to R101) -/

/-- An event leaves the other bits of its register below SEQ alone. -/
theorem State.flag_event_beside (s : State) {f g : Field} (i : Nat) (hreg : g.reg = f.reg) (hf : f.lo < 16) (hg : g.lo < 16) (hhi : g.hi = g.lo)
    (hne : g.lo ≠ f.lo) (ha : g.app ≠ .staged) : (s.event f i).flag g i = s.flag g i := by
  have hlt : setBit (s.rget f.reg i).toNat f.lo < 2 ^ 32 := setBit_lt (s.rget f.reg i).isLt (by omega)
  have hbits : bits (setBit (s.rget f.reg i).toNat f.lo) g.lo g.lo = bits (s.rget f.reg i).toNat g.lo g.lo := by
    refine Nat.eq_of_testBit_eq fun k => ?_
    rw [bits_testBit, bits_testBit, setBit, Nat.testBit_or, Nat.testBit_two_pow]
    by_cases hk : k = 0
    · simp [hk, hne.symm]
    · simp [hk]
  have hget : (s.event f i).fget g i = s.fget g i := by
    rw [State.fget, State.fget, if_neg ha, if_neg ha, hreg, State.event, State.rget_rput_same, BitVec.toNat_ofNat,
      Nat.mod_eq_of_lt (setBits_lt _ _ _ _ (by omega) (by omega) hlt), hhi, bits_setBits_other _ _ _ _ _ _ (by omega) (.inl hg), hbits]
  rw [State.flag, State.flag, hget]
/-- An event that happens or not. -/
def State.eventIf (s : State) (c : Bool) (f : Field) (i : Nat) : State := if c then s.event f i else s
theorem State.eventIf_flag_same (s : State) (c : Bool) {f : Field} (i : Nat) (hf : f.lo < 16) (hhi : f.hi = f.lo) (ha : f.app ≠ .staged) :
    (s.eventIf c f i).flag f i = (s.flag f i || c) := by
  cases c with
  | false => exact (Bool.or_false _).symm
  | true => exact (s.flag_event_same f i hf hhi ha).trans (Bool.or_true _).symm
theorem State.eventIf_flag_beside (s : State) (c : Bool) {f g : Field} (i : Nat) (hreg : g.reg = f.reg) (hf : f.lo < 16) (hg : g.lo < 16)
    (hhi : g.hi = g.lo) (hne : g.lo ≠ f.lo) (ha : g.app ≠ .staged) : (s.eventIf c f i).flag g i = s.flag g i := by
  cases c with
  | false => rfl
  | true => exact s.flag_event_beside i hreg hf hg hhi hne ha
theorem State.eventIf_sameRegs (s : State) (c : Bool) {f : Field} {l : List Reg} (hf : f.reg ∈ l) (i : Nat) : s.sameRegs (s.eventIf c f i) l :=
  .ite _ (s.event_sameRegs hf i) (s.sameRegs_refl l)
theorem State.eventIf_keeps {β : Type} {φ : State → β} (hregs : Ign.regs φ) (s : State) (c : Bool) (f : Field) (i : Nat) :
    φ (s.eventIf c f i) = φ s := by
  cases c with
  | false => rfl
  | true => exact State.event_keeps hregs s f i

/-- The state after a VOP: its lanes written, the two events recorded, the PC moved on. -/
def State.vopDone (l : State) (t : Nat) (e : Eng) (hit inv : Bool) : State :=
  (((l.setEng t e).eventIf hit F.VEC_STAT_SAT_HIT t).eventIf inv F.VEC_STAT_INV t).advance t 1
theorem State.vopDone_onlyEng (l : State) (t : Nat) (e : Eng) (hit inv : Bool) :
    (l.vopDone t e hit inv).eng t = e.past 1 ∧ ∀ v, v ≠ t → (l.vopDone t e hit inv).eng v = l.eng v := by
  have htiles : (((l.setEng t e).eventIf hit F.VEC_STAT_SAT_HIT t).eventIf inv F.VEC_STAT_INV t).tiles = (l.setEng t e).tiles := by
    rw [State.eventIf_keeps (φ := State.tiles) fun _ _ => rfl, State.eventIf_keeps (φ := State.tiles) fun _ _ => rfl]
  have hadv := State.onlyEng_advance (((l.setEng t e).eventIf hit F.VEC_STAT_SAT_HIT t).eventIf inv F.VEC_STAT_INV t) t 1
  refine ⟨hadv.1.trans ?_, fun v hv => (hadv.2.1 v hv).trans ?_⟩
  · rw [State.eng_of_tiles htiles, State.eng_setEng_same]
  · rw [State.eng_of_tiles htiles, State.eng_setEng_other _ _ hv]
theorem State.vopDone_flags (l : State) (t : Nat) (e : Eng) (hit inv : Bool) :
    (l.vopDone t e hit inv).flag F.VEC_STAT_SAT_HIT t = (l.flag F.VEC_STAT_SAT_HIT t || hit) ∧
    (l.vopDone t e hit inv).flag F.VEC_STAT_INV t = (l.flag F.VEC_STAT_INV t || inv) := by
  constructor
  · exact (State.eventIf_flag_beside _ inv (f := F.VEC_STAT_INV) (g := F.VEC_STAT_SAT_HIT) t rfl (by decide) (by decide) rfl (by decide)
      (by decide)).trans (State.eventIf_flag_same (l.setEng t e) hit (f := F.VEC_STAT_SAT_HIT) t (by decide) rfl (by decide))
  · refine (State.eventIf_flag_same _ inv (f := F.VEC_STAT_INV) t (by decide) rfl (by decide)).trans (congrArg (· || inv) ?_)
    exact State.eventIf_flag_beside (l.setEng t e) hit (f := F.VEC_STAT_SAT_HIT) (g := F.VEC_STAT_INV) t rfl (by decide) (by decide) rfl
      (by decide) (by decide)
theorem State.vopDone_sameRegs (l : State) (t : Nat) (e : Eng) (hit inv : Bool) : l.sameRegs (l.vopDone t e hit inv) [.VEC_STAT] :=
  (((l.setEng_sameRegs t e _).trans (State.eventIf_sameRegs _ _ (by decide) _)).trans (State.eventIf_sameRegs _ _ (by decide) _)).trans
    (State.setEng_sameRegs _ _ _ _)
theorem State.vopDone_frame (l : State) (t : Nat) (e : Eng) (hit inv : Bool) :
    { l.vopDone t e hit inv with tiles := l.tiles, regs := l.regs } = l := by
  have hkeep := fun (u : State) c f => State.eventIf_keeps (φ := fun u : State => { u with tiles := l.tiles, regs := l.regs })
    (fun _ _ => rfl) u c f t
  exact (hkeep _ inv _).trans (hkeep (l.setEng t e) hit _)
/-- What VOP computes in lane `i` (R97 to R101). -/
def Eng.vopLane (e : Eng) (w : Word) (i : Nat) : Option (Nat × Bool × Bool) :=
  laneResult (vFN w % 64) (bitOf (vFN w) 7) (laneIn (bitOf (vFN w) 6) (e.lane (vA w) i)) (laneIn (bitOf (vFN w) 6) (e.lane (vB w) i))
    (f32 (e.lane (vD w) i).toNat)
theorem execVop_issued {t : Fin 128} {w : Word} {s : State} (h : s.issues t w 0x20 = true)
    (hsome : (((s.lineIn t).eng t).vopLane w 0).isSome = true) :
    execVop t w s = .next ((s.lineIn t).vopDone t
      (((s.lineIn t).eng t).setV (vD w) (fun i => BitVec.ofNat 32 (((((s.lineIn t).eng t).vopLane w i).map (·.1)).getD 0)))
      ((List.range 256).any (fun i => ((((s.lineIn t).eng t).vopLane w i).map (·.2.1)).getD false))
      ((List.range 256).any (fun i => ((((s.lineIn t).eng t).vopLane w i).map (·.2.2)).getD false))) := by
  obtain ⟨r, hr⟩ := Option.isSome_iff_exists.mp hsome
  rw [execVop, State.issueWith_of_issues h]
  simp only [List.any_map]
  change Host.Outcome.next (match ((s.lineIn t).eng t).vopLane w 0 with | none => _ | some _ => _) = _
  rw [hr]
  rfl

/-- Settles O4 (R60, R97 to R101, R104): vector instructions, scratchpad loads and stores. -/
theorem vectorAndScratchpadResults : Obligations.VectorAndScratchpadResults := by
  unfold Obligations.VectorAndScratchpadResults
  intro t w s l e
  refine ⟨?_, ?_, ?_, ?_, ?_⟩
  · exact fun h a ha halign hok => ⟨_, execSld_issued h ha halign hok, l.onlyEng_retireS t _ _⟩
  · intro h hsorted a ha halign hok
    obtain ⟨u, hexec, hstored⟩ := execSst_issued h hsorted ha halign hok
    have hend := ((l.progOk_iff t a 8).mp hok).1
    exact ⟨_, hexec, hstored.advance (by rwa [leBytes_length])⟩
  · intro h f hf hsome
    obtain rfl : f = e.vopLane w := funext hf
    obtain ⟨hsame, hother⟩ := l.vopDone_onlyEng t (e.setV (vD w) fun i => BitVec.ofNat 32 (((e.vopLane w i).map (·.1)).getD 0))
      ((List.range 256).any fun i => ((e.vopLane w i).map (·.2.1)).getD false) ((List.range 256).any fun i => ((e.vopLane w i).map (·.2.2)).getD false)
    obtain ⟨hhit, hinv⟩ := l.vopDone_flags t (e.setV (vD w) fun i => BitVec.ofNat 32 (((e.vopLane w i).map (·.1)).getD 0))
      ((List.range 256).any fun i => ((e.vopLane w i).map (·.2.1)).getD false) ((List.range 256).any fun i => ((e.vopLane w i).map (·.2.2)).getD false)
    exact ⟨_, execVop_issued h hsome, hsame, hhit, hinv, hother, l.vopDone_sameRegs t _ _ _, l.vopDone_frame t _ _ _⟩
  · exact fun h a ha hok => ⟨_, execVld_issued h ha hok, (l.onlyEng_setEng t _).advance 1⟩
  · intro h hsorted a ha hok
    obtain ⟨u, hexec, hstored⟩ := execVst_issued h hsorted ha hok
    have hend := ((l.progOk_iff t a 1024).mp hok).1
    exact ⟨_, hexec, hstored.advance (by rwa [Eng.laneBytes_length])⟩

/-! ### RDX (R72, R205) -/

/-- Two slots combined (R72, R205). -/
def rdxStep (fn : Nat) (x y : List Byte) : List Byte := if fn = 3 then lseCombine x y else rdxSlots fn x y
/-- What FN and the slot length of an RDX may be (R72). -/
def rdxShape (fn len : Nat) : Prop := fn < 3 ∧ len % 4 = 0 ∨ fn = 3 ∧ len % 4 = 0 ∧ 12 ≤ len ∧ len ≤ 1032

theorem lseCombine_length {len : Nat} {x y : List Byte} (h4 : len % 4 = 0) (h8 : 8 ≤ len) (hx : x.length = len) (hy : y.length = len) :
    (lseCombine x y).length = len := by
  unfold lseCombine
  split
  · exact hx
  · split
    · exact hy
    · simp only [List.length_append, leBytes_length, length_flatMap_const (fun i => leBytes_length 4 _), List.length_range, hx]
      omega
theorem rdxStep_length {fn len : Nat} {x y : List Byte} (hshape : rdxShape fn len) (hx : x.length = len) (hy : y.length = len) :
    (rdxStep fn x y).length = len := by
  unfold rdxStep
  split
  · exact lseCombine_length (by rcases hshape with h | h <;> omega) (by rcases hshape with h | h <;> omega) hx hy
  · rw [rdxSlots, length_flatMap_const (n := 4) (fun i => leBytes_length 4 _), List.length_range, hx]
    rcases hshape with h | h <;> omega
theorem foldl_rdxStep_length {fn len : Nat} (hshape : rdxShape fn len) (f : Nat → List Byte) (hf : ∀ i, (f i).length = len) :
    ∀ (is : List Nat) (x : List Byte), x.length = len → (is.foldl (fun x i => rdxStep fn x (f i)) x).length = len
  | [], _, hx => hx
  | i :: is, _, hx => foldl_rdxStep_length hshape f hf is _ (rdxStep_length hshape hx (hf i))

/-- The slots that follow are read and combined in ascending index. -/
theorem State.rdxGo_ok {s : State} {t : Nat} (w : Word) (fn len : Nat) (k : State → List Byte → State) : ∀ (n a : Nat) (x : List Byte),
    s.progOk t a (len * n) = true →
    State.rdxGo n s t w fn a len x k = k s ((List.range n).foldl (fun x i => rdxStep fn x (s.spmRaw t (a + len * i) len)) x)
  | 0, _, _, _ => rfl
  | n + 1, a, x, h => by
    have hall : len * (n + 1) = len + len * n := by ring
    have hread := State.progRead_ok (State.progOk_part h (Nat.le_refl a) (m := len) (by omega)) w
    have hnext := State.rdxGo_ok w fn len k n (a + len) (rdxStep fn x (s.spmRaw t a len)) (State.progOk_part h (by omega) (by omega))
    rw [State.rdxGo, hread]
    refine hnext.trans (congrArg (k s) ?_)
    rw [List.range_succ_eq_map, List.foldl_cons, List.foldl_map]
    simp only [Nat.mul_zero, Nat.add_zero, Nat.mul_succ, Nat.add_assoc, Nat.add_comm len]

/-- What RDX stores when its slots have combined to `acc`: an empty record is written as R204 has it. -/
def rdxOut (fn len : Nat) (acc : List Byte) : List Byte :=
  if fn = 3 ∧ lseEmpty acc = true then leBytes 4 0xFF800000 ++ leBytes 4 1 ++ zeros (len - 8) else acc
theorem rdxOut_eq {fn len : Nat} (hshape : rdxShape fn len) (acc : List Byte) :
    (if fn = 3 && lseEmpty acc then lseEmptyRec ((len - 8) / 4) else acc) = rdxOut fn len acc := by
  unfold rdxOut
  by_cases h : fn = 3 ∧ lseEmpty acc = true
  · have hlen : 4 * ((len - 8) / 4) = len - 8 := by rcases hshape with h' | h' <;> omega
    rw [if_pos h, if_pos (by simpa using h), lseEmptyRec, hlen]
  · rw [if_neg h, if_neg (by simpa using h)]
theorem rdxOut_length {fn len : Nat} {acc : List Byte} (hshape : rdxShape fn len) (hacc : acc.length = len) : (rdxOut fn len acc).length = len := by
  unfold rdxOut
  split
  · next h =>
    simp only [List.length_append, leBytes_length, zeros, List.length_replicate]
    rcases hshape with h' | h' <;> omega
  · exact hacc
/-- The combination of the `count` slots from `a` on. -/
def State.rdxAcc (s : State) (t fn len a count : Nat) : List Byte :=
  (List.range (count - 1)).foldl (fun x i => rdxStep fn x (s.spmRaw t (a + len * (i + 1)) len)) (s.spmRaw t (a + len * 0) len)
theorem State.rdxAcc_length (s : State) {fn len : Nat} (hshape : rdxShape fn len) (t a count : Nat) : (s.rdxAcc t fn len a count).length = len :=
  foldl_rdxStep_length hshape _ (fun _ => State.spmRaw_length _ _ _ _) _ _ (State.spmRaw_length _ _ _ _)

theorem execRdx_issued {t : Fin 128} {w : Word} {s : State} {fn count len a d : Nat} (h : s.issues t w 0x37 = true) (hrsv : xRsv w = 0)
    (hfn : xFN w = fn) (hcount : bits (((s.lineIn t).eng t).s (xB w)).toNat 23 0 = count) (hlen : bits (((s.lineIn t).eng t).s (xB w)).toNat 55 32 = len)
    (ha : (((s.lineIn t).eng t).s (xA w)).toNat = a) (hd : (((s.lineIn t).eng t).s (xC w)).toNat = d)
    (hcount0 : 0 < count) (hlen0 : 0 < len) (hshape : rdxShape fn len) (hsrc : (s.lineIn t).progOk t a (len * count) = true)
    (hdst : (s.lineIn t).progOk t d len = true) (hsorted : (s.lineIn t).spmOk) :
    ∃ u, execRdx t w s = .next (u.advance t 1) ∧
      (s.lineIn t).stored u t d (rdxOut fn len ((s.lineIn t).rdxAcc t fn len a count)) := by
  have hout := rdxOut_length hshape ((s.lineIn t).rdxAcc_length hshape t a count)
  obtain ⟨u, hu, hwrite⟩ := State.progWrite_ok (bs := rdxOut fn len ((s.lineIn t).rdxAcc t fn len a count)) (by rwa [hout]) hsorted w
  refine ⟨u, ?_, hu⟩
  have hmul : len * count = len + len * (count - 1) := by
    obtain ⟨n, rfl⟩ := Nat.exists_eq_add_of_le' hcount0
    rw [Nat.add_sub_cancel]
    ring
  have hfirst := State.progRead_ok (State.progOk_part hsrc (Nat.le_refl a) (m := len) (by omega)) w
  have hgo := fun x k => State.rdxGo_ok w fn len k (count - 1) (a + len) x (State.progOk_part hsrc (by omega) (by omega))
  have hlegal : ¬ ((((xRsv w ≠ 0 || 3 < fn || count = 0 || len = 0 || (fn < 3 && len % 4 ≠ 0)
        || (fn = 3 && !(decide (len = 8 + 4 * ((len - 8) / 4) ∧ 1 ≤ (len - 8) / 4 ∧ (len - 8) / 4 ≤ 256)))))) = true) := by
    simp only [Bool.or_eq_true, Bool.and_eq_true, decide_eq_true_eq, Bool.not_eq_true', decide_eq_false_iff_not]
    rcases hshape with h' | h' <;> omega
  have hacc : (List.range (count - 1)).foldl (fun x i => rdxStep fn x ((s.lineIn t).spmRaw t (a + len + len * i) len)) ((s.lineIn t).spmRaw t a len) =
      (s.lineIn t).rdxAcc t fn len a count := by
    simp only [State.rdxAcc, Nat.mul_zero, Nat.add_zero, Nat.mul_succ, Nat.add_assoc, Nat.add_comm len]
  rw [execRdx, State.issueWith_of_issues h]
  simp only [hfn, hcount, hlen, ha, hd, if_neg hlegal, hfirst, hgo, rdxOut_eq hshape, hacc, hwrite]

/-- Settles O6 (R72, R205): RDX combines its slots in ascending index and stores one slot. -/
theorem rdxResult : Obligations.RdxResult := by
  unfold Obligations.RdxResult
  intro t w s l e fn b count len a d slot acc h hrsv hcount hlen hshape hsrc hdst hsorted
  obtain ⟨u, hexec, hstored⟩ := execRdx_issued h hrsv rfl rfl rfl rfl rfl hcount hlen hshape hsrc hdst hsorted
  have hend := ((l.progOk_iff t d len).mp hdst).1
  exact ⟨_, hexec, hstored.advance (by rwa [rdxOut_length hshape (l.rdxAcc_length hshape t a count)])⟩

end Sys2Proof.Machine
end

section
/-! Traps that enter a tile program's handler, and the line of the PC in the instruction cache (R58, R61). -/

namespace Sys2Proof.Machine

/-! ### Entry into the handler (R61) -/

/-- The registers of a trap that the handler takes: its cause, the PC, and the status bit. -/
def State.trapMarked (s : State) (t cause pc : Nat) (async : Bool) : State :=
  ((s.rput .TSEQ_TRAP t (BitVec.ofNat 32 (cause + 2 ^ 8 + 2 ^ 9 * b2n async))).rput .TSEQ_TPC t (BitVec.ofNat 32 pc)).event F.TSEQ_STAT_TRAP t
/-- The engine in its handler. -/
def State.trapEng (s : State) (t : Nat) (async : Bool) : Eng :=
  { s.eng t with pc := s.fget F.TSEQ_TVEC_TVEC t / 4 * 4, inHandler := true, trapMxs := false, stall := none
                 pendMx := (s.eng t).pendMx && !async }
theorem State.trap_handled {s : State} {t : Nat} (hvec : 4 ≤ s.fget F.TSEQ_TVEC_TVEC t) (hin : (s.eng t).inHandler = false) (cause pc : Nat)
    (async : Bool) : s.trap t cause pc async = (s.trapMarked t cause pc async).setEng t (s.trapEng t async) := by
  have hne : s.fget F.TSEQ_TVEC_TVEC t / 4 * 4 ≠ 0 := by omega
  simp only [State.trap, hne, hin, ne_eq, not_false_eq_true, decide_true, Bool.not_false, Bool.and_self, if_true]
  rfl
/-- What TSEQ_TRAP holds of a handled trap. -/
theorem bits_trap {cause : Nat} (h : cause < 256) (async : Bool) :
    bits (BitVec.ofNat 32 (cause + 2 ^ 8 + 2 ^ 9 * b2n async)).toNat 7 0 = cause ∧
    bits (BitVec.ofNat 32 (cause + 2 ^ 8 + 2 ^ 9 * b2n async)).toNat 8 8 = 1 ∧
    bits (BitVec.ofNat 32 (cause + 2 ^ 8 + 2 ^ 9 * b2n async)).toNat 9 9 = b2n async := by
  have hb : b2n async ≤ 1 := by cases async <;> decide
  rw [BitVec.toNat_ofNat]
  unfold bits
  omega
theorem State.trapMarked_fget (s : State) (t cause pc : Nat) (async : Bool) {f : Field} (hreg : f.reg = .TSEQ_TRAP) (ha : f.app ≠ .staged) :
    (s.trapMarked t cause pc async).fget f t = bits (BitVec.ofNat 32 (cause + 2 ^ 8 + 2 ^ 9 * b2n async)).toNat f.hi f.lo := by
  rw [State.trapMarked, State.fget_event_other _ _ _ _ _ (by simp [hreg, F.TSEQ_STAT_TRAP]), State.fget_rput _ _ _ _ _ _ ha,
    if_neg (by simp [hreg]), State.fget_rput _ _ _ _ _ _ ha, if_pos ⟨hreg, rfl⟩]
theorem State.trapMarked_sameRegs (s : State) (t cause pc : Nat) (async : Bool) :
    s.sameRegs (s.trapMarked t cause pc async) [.TSEQ_TRAP, .TSEQ_TPC, .TSEQ_STAT] :=
  ((s.rput_sameRegs (by decide) t _).trans (State.rput_sameRegs _ (by decide) t _)).trans (State.event_sameRegs _ (by decide) t)
/-- `u` is `s` with engine `t` in its handler: the trap's cause, kind and PC are recorded, and nothing else has changed. -/
def State.enters (s u : State) (t cause : Nat) (async : Bool) : Prop :=
  u.fget F.TSEQ_TRAP_CAUSE t = cause ∧ u.flag F.TSEQ_TRAP_HANDLED t = true ∧ u.flag F.TSEQ_TRAP_ASYNC t = async ∧
  u.rget .TSEQ_TPC t = BitVec.ofNat 32 (s.eng t).pc ∧ u.flag F.TSEQ_STAT_TRAP t = true ∧ u.eng t = s.trapEng t async ∧
  (∀ v, v ≠ t → u.eng v = s.eng v) ∧ s.sameRegs u [.TSEQ_TRAP, .TSEQ_TPC, .TSEQ_STAT] ∧ { u with tiles := s.tiles, regs := s.regs } = s
theorem State.trap_enters {s : State} {t cause : Nat} (hvec : 4 ≤ s.fget F.TSEQ_TVEC_TVEC t) (hin : (s.eng t).inHandler = false)
    (hcause : cause < 256) (async : Bool) : s.enters (s.trap t cause (s.eng t).pc async) t cause async := by
  rw [State.trap_handled hvec hin]
  obtain ⟨hlow, hhandled, hasync⟩ := bits_trap hcause async
  have hget := fun (f : Field) => s.trapMarked_fget t cause (s.eng t).pc async (f := f)
  refine ⟨(hget F.TSEQ_TRAP_CAUSE rfl (by decide)).trans hlow, ?_, ?_, ?_, ?_, State.eng_setEng_same _ t _,
    fun v hv => State.eng_setEng_other _ _ hv, (s.trapMarked_sameRegs t cause _ async).trans (State.setEng_sameRegs _ t _ _), rfl⟩
  · exact congrArg (· == 1) ((hget F.TSEQ_TRAP_HANDLED rfl (by decide)).trans hhandled)
  · refine (congrArg (· == 1) ((hget F.TSEQ_TRAP_ASYNC rfl (by decide)).trans hasync)).trans ?_
    cases async <;> rfl
  · exact (State.rget_event_other _ F.TSEQ_STAT_TRAP t (by simp [F.TSEQ_STAT_TRAP])).trans (State.rget_rput_same _ .TSEQ_TPC t _)
  · exact State.flag_event_same _ F.TSEQ_STAT_TRAP t (by decide) rfl (by decide)
theorem execBrk_issued {t : Fin 128} {w : Word} {s : State} (h : s.issues t w 0x13 = true) :
    execBrk t w s = .next ((s.lineIn t).trap t 0x08 ((s.lineIn t).eng t).pc false) := by
  rw [execBrk, State.issueWith_of_issues h]
  rfl
theorem execMatrixDataTrap_pending {t : Fin 128} {s : State} (hmay : (s.eng t).mayIssue = true) (hpend : (s.eng t).pendMx = true) :
    execMatrixDataTrap t s = .next (s.trap t 0x02 (s.eng t).pc true) :=
  congrArg Host.Outcome.next (if_pos (by rw [hmay, hpend]; rfl))

/-! ### Reads of device memory leave the gate alone but for the banks that hold the command -/

theorem State.note_gate_blk (s : State) (da : Nat) (write : Bool) (x : List Nat) :
    { (s.note da write).gate with blk := x } = { s.gate with blk := x } := by
  have hrow : ∀ t off, (s.openRow t off).gate = s.gate := State.openRow_keeps (φ := State.gate) (fun _ _ => rfl) s
  unfold State.note
  dsimp only
  split
  · unfold State.block
    split
    · rw [hrow]
    · rfl
  · rw [hrow]
theorem State.daReadGo_gate_blk (x : List Nat) (fuel : Nat) : ∀ (s : State) (da n src : Nat),
    { (State.daReadGo fuel s da n src).1.gate with blk := x } = { s.gate with blk := x } := by
  induction fuel with
  | zero => exact fun _ _ _ _ => rfl
  | succ fuel ih =>
    intro s da n src
    have hatom : ∀ k, { (s.atomBytes da k src).1.gate with blk := x } = { s.gate with blk := x } := fun k =>
      (congrArg (fun g : Gate => { g with blk := x }) (State.atomRead_gate (s.note da false) da src 0)).trans (s.note_gate_blk da false x)
    unfold State.daReadGo
    dsimp only
    split
    · rfl
    · split
      · exact hatom _
      · exact (ih _ _ _ _).trans (hatom _)

/-! ### A line of the instruction cache (R58) -/

/-- `u` is `s` but for the cache of engine `t` and what a read of device memory changes. -/
structure State.fetchSame (s u : State) (t : Nat) : Prop where
  eng : { u.eng t with lines := (s.eng t).lines } = s.eng t
  other : ∀ v, v ≠ t → u.eng v = s.eng v
  regs : s.sameRegs u vchRegs
  gate : { u.gate with held := s.gate.held, serve := s.gate.serve } = s.gate

theorem State.fetchSame_refl (s : State) (t : Nat) : s.fetchSame s t := ⟨rfl, fun _ _ => rfl, s.sameRegs_refl _, rfl⟩
theorem State.fetchSame.trans {s u v : State} {t : Nat} (h : s.fetchSame u t) (h' : u.fetchSame v t) : s.fetchSame v t where
  eng := (congrArg (fun e : Eng => { e with lines := (s.eng t).lines }) h'.eng).trans h.eng
  other i hi := (h'.other i hi).trans (h.other i hi)
  regs := h.regs.trans h'.regs
  gate := (congrArg (fun g : Gate => { g with held := s.gate.held, serve := s.gate.serve }) h'.gate).trans h.gate
theorem State.fetchSame.setLines {s u : State} {t : Nat} (h : s.fetchSame u t) (lines : SMap (List (Nat × List Byte))) :
    s.fetchSame (u.setEng t { u.eng t with lines := lines }) t where
  eng := by
    rw [State.eng_setEng_same]
    exact h.eng
  other v hv := (u.eng_setEng_other _ hv).trans (h.other v hv)
  regs := h.regs.trans (u.setEng_sameRegs t _ _)
  gate := h.gate
/-- A read that is held changes the held requests alone; one that is not changes what a read may. -/
theorem State.settleRead_fetchSame (s : State) (t : Nat) (w : Who) (da n src : Nat) : s.fetchSame (s.settleFor w (fun s => s.daRead da n src)).1 t := by
  have hread : ∀ g : Gate, ({ s with gate := g }.daRead da n src).1.tiles = s.tiles := fun g =>
    State.daRead_keeps (φ := State.tiles) (fun _ _ => rfl) (fun _ _ => rfl) (fun _ _ => rfl) (fun _ _ => rfl) (fun _ _ => rfl) (fun _ _ => rfl)
      (fun _ _ => rfl) { s with gate := g } da n src
  unfold State.settleFor
  dsimp only
  split
  · refine ⟨?_, fun v _ => State.eng_of_tiles (hread _) v, ?_, ?_⟩
    · exact congrArg (fun e : Eng => { e with lines := (s.eng t).lines }) (State.eng_of_tiles (hread _) t)
    · exact fun r i hr => State.daRead_sameRegs { s with gate := _ } da n src r i hr
    · exact congrArg (fun g : Gate => { s.gate with lent := g.lent, layers := g.layers, rows := g.rows, reqs := g.reqs, quiet := g.quiet })
        (State.daReadGo_gate_blk [] _ { s with gate := _ } da n src)
  · exact ⟨rfl, fun _ _ => rfl, State.sameRegs_of_regs _ rfl, rfl⟩
theorem State.icLine_fetchSame (s : State) (t line : Nat) : s.fetchSame (s.icLine t line).1 t := by
  have hread := s.settleRead_fetchSame t (.tile t) (128 * line) 128 0
  unfold State.icLine
  split
  · exact s.fetchSame_refl t
  · dsimp only
    split
    · exact hread
    · exact hread
    · exact hread.setLines _
theorem State.fetchWord_fetchSame (s : State) (t pc : Nat) : s.fetchSame (s.fetchWord t pc).1 t := by
  have hline := fun n => s.icLine_fetchSame t n
  unfold State.fetchWord
  dsimp only
  split
  · exact s.fetchSame_refl t
  · split
    · exact hline _
    · exact hline _
    · exact hline _
    · split
      · exact hline _
      · have hboth := fun n m => (hline n).trans (State.icLine_fetchSame (s.icLine t n).1 t m)
        split <;> exact hboth _ _
theorem State.lineIn_frame (s : State) (t : Nat) :
    { s.lineIn t with regs := s.regs, mem := s.mem, synd := s.synd, soft := s.soft, tiles := s.tiles, stops := s.stops, gate := s.gate,
                      flt := s.flt } = s :=
  State.fetchWord_keeps (φ := fun u : State => { u with regs := s.regs, mem := s.mem, synd := s.synd, soft := s.soft, tiles := s.tiles
                                                        stops := s.stops, gate := s.gate, flt := s.flt })
    (fun _ _ => rfl) (fun _ _ => rfl) (fun _ _ => rfl) (fun _ _ => rfl) (fun _ _ => rfl) (fun _ _ => rfl) (fun _ _ => rfl) (fun _ _ => rfl)
    s t (s.eng t).pc

/-! ### A line that is cached already -/

/-- Line `line` of device memory stands in the instruction cache. -/
def State.hasLine (s : State) (t line : Nat) : Bool := (SMap.get (s.eng t).lines (line % 128) []).any (·.1 == line)
theorem State.icLine_cached {s : State} {t line : Nat} (h : s.hasLine t line = true) : ∃ bs, s.icLine t line = (s, .word bs) := by
  obtain ⟨x, hx⟩ := Option.isSome_iff_exists.mp ((List.find?_isSome (p := fun y : Nat × List Byte => y.1 == line)).mpr (List.any_eq_true.mp h))
  exact ⟨x.2, by rw [State.icLine, hx]⟩
theorem State.lineIn_cached {s : State} {t : Nat} (h : s.cached t = true) : s.lineIn t = s := by
  have hboth : s.hasLine t ((s.get64 .TSEQ_PBASE_LO .TSEQ_PBASE_HI t + (s.eng t).pc) / 128) = true ∧
      ((s.get64 .TSEQ_PBASE_LO .TSEQ_PBASE_HI t + (s.eng t).pc) % 128 ≤ 124 ∨
        s.hasLine t ((s.get64 .TSEQ_PBASE_LO .TSEQ_PBASE_HI t + (s.eng t).pc) / 128 + 1) = true) := by
    simpa [State.cached, State.hasLine] using h
  obtain ⟨hfirst, hsecond⟩ := hboth
  obtain ⟨bs, hline⟩ := State.icLine_cached hfirst
  unfold State.lineIn State.fetchWord
  dsimp only
  split
  · rfl
  · rw [hline]
    dsimp only
    split
    · rfl
    · next hspan =>
      obtain ⟨cs, hnext⟩ := State.icLine_cached (hsecond.resolve_left hspan)
      rw [hnext]

/-- Settles O3 (R58, R61; log entry 38): BRK and the matrix-data trap enter the handler; bringing a line into the cache changes the cache and
what a read of device memory changes. -/
theorem trapAndFetchResults : Obligations.TrapAndFetchResults := by
  unfold Obligations.TrapAndFetchResults
  refine ⟨?_, ?_⟩
  · intro t w s l enters
    refine ⟨?_, ?_⟩
    · exact fun h hvec hin => ⟨_, execBrk_issued h, State.trap_enters hvec hin (by decide) false⟩
    · exact fun hmay hpend hvec hin => ⟨_, execMatrixDataTrap_pending hmay hpend, State.trap_enters hvec hin (by decide) true⟩
  · intro t s l
    obtain ⟨heng, hother, hregs, hgate⟩ := s.fetchWord_fetchSame t (s.eng t).pc
    exact ⟨heng, hother, hregs, s.lineIn_frame t, hgate, State.lineIn_cached⟩

end Sys2Proof.Machine
end

section
/-! Rows and packets in a scratchpad, bank by bank (R107, R108, R113, R118). -/

namespace Sys2Proof.Machine

/-! ### Reads -/

/-- The banks that [a, a + n) of scratchpad `t` meets serve a class, and its words are good. -/
structure State.serves (s : State) (t a n : Nat) (c : OwnClass) : Prop where
  inside : a + n ≤ 2 ^ 23
  banks : ∀ b, b ∈ banksOf a n → s.bankGrant t b c = .yes
  words : s.wordsGood t a n

theorem State.serves_of_progOk {s : State} {t a n : Nat} (h : s.progOk t a n = true) : s.serves t a n .prog where
  inside := ((s.progOk_iff t a n).mp h).1
  banks := (s.spmGrant_yes_iff t a n .prog).mp ((s.progOk_iff t a n).mp h).2.1
  words := State.wordsGood_of_progOk h
theorem State.serves.part {s : State} {t a n b m : Nat} {c : OwnClass} (h : s.serves t a n c) (hlow : a ≤ b) (hhigh : b + m ≤ a + n) :
    s.serves t b m c where
  inside := by
    have := h.inside
    omega
  banks x hx := by
    rw [mem_banksOf] at hx
    exact h.banks x (mem_banksOf.mpr (by omega))
  words w hw hlt := h.words w (by omega) (by omega)
theorem State.serves.first {s : State} {t a n : Nat} {c : OwnClass} (h : s.serves t a n c) (hn : n ≠ 0) : s.bankGrant t (a / 2 ^ 19) c = .yes := by
  have hin := h.inside
  exact h.banks _ (mem_banksOf.mpr (by omega))
/-- A bank that serves is not wiping (R113). -/
theorem State.bankGrant_wiping {s : State} {t b : Nat} {c : OwnClass} (h : s.bankGrant t b c = .yes) : (s.eng t).wiping.contains b = false := by
  by_contra hw
  simp only [State.bankGrant, Bool.eq_true_of_not_eq_false hw, if_true] at h
  cases h
theorem State.serves.wipeWait {s : State} {t a n : Nat} {c : OwnClass} (h : s.serves t a n c) : s.wipeWait t a n = false := by
  rw [State.wipeWait, List.any_eq_false]
  intro b hb
  rw [State.bankGrant_wiping (h.banks b hb)]
  decide

/-- What `fuel` segments reach of [a, a + n). -/
def segsReach (fuel a n : Nat) : Nat := min n (2 ^ 19 * (a / 2 ^ 19 + fuel) - a)
/-- Segments that the class may read give their bytes. -/
theorem State.segsRead_ok {s : State} {t : Nat} {c : OwnClass} : ∀ (fuel a n : Nat) (acc : List Byte), s.serves t a n c →
    State.segsRead s t c (bankSegs fuel a n) acc = (s, acc ++ s.spmRaw t a (segsReach fuel a n), .ok)
  | 0, a, n, acc, _ => by
    have hnone : segsReach 0 a n = 0 := by
      unfold segsReach
      omega
    rw [hnone]
    exact congrArg (fun l => (s, l, RowRes.ok)) (List.append_nil acc).symm
  | fuel + 1, a, n, acc, h => by
    by_cases hn : n = 0
    · subst hn
      have hnone : segsReach (fuel + 1) a 0 = 0 := Nat.zero_min _
      rw [hnone]
      exact congrArg (fun l => (s, l, RowRes.ok)) (List.append_nil acc).symm
    · obtain ⟨k, hk⟩ : ∃ k, k = min n (2 ^ 19 * (a / 2 ^ 19 + 1) - a) := ⟨_, rfl⟩
      have hread : s.spmRead t a k = _ := State.spmRead_good (h.part (Nat.le_refl a) (m := k) (by omega)).words
      have hrest := State.segsRead_ok fuel (a + k) (n - k) (acc ++ s.spmRaw t a k) (h.part (by omega) (by omega))
      have hreach : segsReach (fuel + 1) a n = k + segsReach fuel (a + k) (n - k) := by
        unfold segsReach
        by_cases hlast : n ≤ k
        · omega
        · have hnext : (a + k) / 2 ^ 19 = a / 2 ^ 19 + 1 := by omega
          rw [hnext]
          omega
      have hgrant := h.first hn
      simp only [bankSegs, if_neg hn, ← hk, State.segsRead, hgrant, ne_eq, not_true_eq_false, if_false, hread, hrest, hreach,
        List.append_assoc, State.spmRaw_append]

/-! ### Writes -/

theorem State.stored.bankGrant {s u : State} {t a : Nat} {bs : List Byte} (h : s.stored u t a bs) (v b : Nat) (c : OwnClass) :
    u.bankGrant v b c = s.bankGrant v b c := by
  have hreg : ∀ r, u.rget r v = s.rget r v := fun r => by rw [State.rget, h.regs, State.rget]
  rw [State.bankGrant, State.bankGrant, h.eng, State.owner, State.owner, hreg, hreg]
theorem State.stored.serves {s u : State} {t a b n : Nat} {c : OwnClass} {bs : List Byte} (h : s.stored u t a bs) (hb : a + bs.length ≤ 8 * (b / 8))
    (hserves : s.serves t b n c) : u.serves t b n c where
  inside := hserves.inside
  banks x hx := (h.bankGrant t x c).trans (hserves.banks x hx)
  words := h.wordsGood hb hserves.words

/-- Outside the exchange banks segments are written through one port, one after the other (R107, R108). -/
theorem State.segsWrite_ok {t : Nat} (x : Sender) (portA : List Nat) : ∀ (fuel : Nat) {s : State} (a : Nat) (bs : List Byte), s.spmOk →
    2 ^ 20 ≤ a → (bs ≠ [] → a + bs.length ≤ 2 ^ 19 * (a / 2 ^ 19 + fuel)) → (bs ≠ [] → s.serves t a bs.length x.cls) →
    ∃ u, State.segsWrite [] (bankSegs fuel a bs.length) s t x bs portA = (u, .ok) ∧ s.stored u t a bs
  | 0, s, a, bs, hsorted, ha, hfuel, _ => by
    have hnil : bs = [] := by
      by_contra hne
      have := hfuel hne
      have := List.length_pos_of_ne_nil hne
      omega
    subst hnil
    exact ⟨s, rfl, State.stored_nil hsorted t a⟩
  | fuel + 1, s, a, bs, hsorted, ha, hfuel, hserves => by
    by_cases hnil : bs = []
    · subst hnil
      exact ⟨s, rfl, State.stored_nil hsorted t a⟩
    have hlen := List.length_pos_of_ne_nil hnil
    have hfuel' := hfuel hnil
    have hserves' := hserves hnil
    obtain ⟨k, hk⟩ : ∃ k, k = min bs.length (2 ^ 19 * (a / 2 ^ 19 + 1) - a) := ⟨_, rfl⟩
    have htake : (bs.take k).length = k := by
      rw [List.length_take]
      omega
    -- the part that lies in the first bank
    obtain ⟨v, hv, hput⟩ := State.spmWrite_good (a := a) (bs := bs.take k) hsorted
      (htake ▸ (hserves'.part (Nat.le_refl a) (m := k) (by omega)).words)
    have hseg : s.segWrite t x a (bs.take k) portA = (v, false) := by
      have hbank : ¬ a / 2 ^ 19 < 2 := by omega
      simp only [State.segWrite, hbank, decide_false, Bool.false_and, Bool.false_eq_true, if_false, hv]
    -- the banks after it
    have hmore : bs.drop k ≠ [] → k < bs.length ∧ (a + k) / 2 ^ 19 = a / 2 ^ 19 + 1 ∧ (a + k) % 8 = 0 := fun hne => by
      have := List.length_pos_of_ne_nil hne
      rw [List.length_drop] at this
      omega
    obtain ⟨u, hu, hstored⟩ := State.segsWrite_ok x portA fuel (a + k) (bs.drop k) hput.sorted (by omega)
      (fun hne => by
        obtain ⟨hk', hbank, -⟩ := hmore hne
        rw [List.length_drop, hbank]
        omega)
      (fun hne => by
        obtain ⟨hk', -, halign⟩ := hmore hne
        rw [List.length_drop]
        exact hput.serves (by omega) (hserves'.part (by omega) (by omega)))
    have hgrant := hserves'.first hlen.ne'
    refine ⟨u, ?_, ?_⟩
    · simp only [bankSegs, if_neg hlen.ne', ← hk, State.segsWrite, List.contains_nil, hgrant, ne_eq, not_true_eq_false, decide_false, Bool.and_false,
        Bool.false_eq_true, if_false, hseg]
      rwa [List.length_drop] at hu
    · have hall := hput.trans (by rwa [htake])
      rwa [List.take_append_drop] at hall

end Sys2Proof.Machine
end

section
/-! DMA channels (R60, R63 to R65, R107). A descriptor of R63 has a row length of 20 bits, so a row meets three scratchpad banks at most, and the
segments of a row are cut with room for four. A state whose queued descriptor names a longer row, which no descriptor in memory can, breaks the
statement about the rows of a channel. -/

namespace Sys2Proof.Machine

/-! ### A command that asks for no device memory -/

/-- A command whose meaning leaves the gate alone is not held while nothing is. -/
theorem State.settle_of_clear {s : State} (h : s.gate = Gate.clear) (c : Instr) (k : State → State)
    (hk : (k (s.running c)).gate = (s.running c).gate) : s.settle c k = { k (s.running c) with gate := s.gate } := by
  have hk' : (k (s.running c)).gate = { Gate.clear with who := some (.cmd c), slots := s.slotTiles } := by
    rw [hk, State.running, h]
    rfl
  have hback : { (k (s.running c)).gate with
      who := s.gate.who, slots := s.gate.slots, blk := s.gate.blk
      held := (k (s.running c)).gate.held.filter (·.who ≠ .cmd c), serve := (k (s.running c)).gate.serve.filter (·.2 ≠ .cmd c) } = s.gate := by
    rw [hk', h]
    rfl
  have hfree : (k (s.running c)).gate.blk.isEmpty = true := by rw [hk']; rfl
  exact (congrArg Prod.fst (if_pos hfree)).trans (congrArg (fun g => { k (s.running c) with gate := g }) hback)

/-! ### The rows of a channel without errors -/

theorem mem_of_mem_popDone {y : DmaRun} : ∀ {q : List DmaRun}, y ∈ popDone q → y ∈ q
  | [], h => h
  | r :: rs, h => by
    have hcase : popDone (r :: rs) = popDone rs ∨ popDone (r :: rs) = r :: rs := ite_eq_or_eq _ _ _
    rcases hcase with hpop | hstay
    · exact List.mem_cons_of_mem r (mem_of_mem_popDone (hpop ▸ h))
    · exact hstay ▸ h
/-- A channel none of whose descriptors ends in error does not halt. -/
theorem State.chanSettle_of_ends {s : State} {t ch : Nat} (h : ∀ y, y ∈ ((s.eng t).chan ch).queue → y.ends = none) : s.chanSettle t ch = s := by
  unfold State.chanSettle
  split
  · rfl
  · next r rs hq => rw [h r (hq ▸ List.mem_cons_self)]
/-- The channel with the descriptor at `pos` standing at `y`, those that are complete gone. -/
def Chan.moved (c : Chan) (pos : Nat) (y : DmaRun) : Chan := { c with queue := popDone (c.queue.set pos y) }
theorem Chan.moved_ends {c : Chan} {pos : Nat} {y : DmaRun} (h : ∀ z, z ∈ c.queue → z.ends = none) (hy : y.ends = none) :
    ∀ z, z ∈ (c.moved pos y).queue → z.ends = none := by
  intro z hz
  rcases List.mem_or_eq_of_mem_set (mem_of_mem_popDone hz) with hz | rfl
  · exact h z hz
  · exact hy
theorem Eng.chan_setChan_same (e : Eng) (ch : Nat) (c : Chan) : (e.setChan ch c).chan ch = c := SMap.get_put_same _ ch c _

theorem State.rowRead_own {s : State} {t r : Nat} {d : DmaDesc} (hspace : d.sspace = 1) (hserves : s.serves t (d.srcRow r) d.rowLen .prog) :
    s.rowRead t d r = (s, s.spmRaw t (d.srcRow r) (segsReach 4 (d.srcRow r) d.rowLen), .ok) := by
  have hread := State.segsRead_ok 4 (d.srcRow r) d.rowLen [] hserves
  simp only [State.rowRead, hspace, one_ne_zero, decide_false, Bool.false_and, Bool.false_eq_true, if_false, if_true, hserves.wipeWait,
    hread, List.nil_append]
/-- A stream row from the own scratchpad is delivered: of its bytes, those that its segments reach. -/
theorem execDmaReadResponse_stream {t : Fin 128} {ch : Fin 8} {pos row : Nat} {portA : List Nat} {x : DmaRun} {s : State}
    (hgate : s.gate = Gate.clear) (hlive : s.chanLive t ch = true) (hx : ((s.eng t).chan ch).queue[pos]? = some x)
    (hmay : s.mayMove t ch pos row = true) (hends : ∀ y, y ∈ ((s.eng t).chan ch).queue → y.ends = none) (hspace : x.d.sspace = 1)
    (hok : s.progOk t (x.d.srcRow row) x.d.rowLen = true) (hmode : x.d.mode = 1) :
    execDmaReadResponse t ch pos row portA s = .next (s.setEng t ((s.eng t).setChan ch (((s.eng t).chan ch).moved pos
      { x with low := row + 1, rows := SMap.put x.rows row (s.spmRaw t (x.d.srcRow row) (segsReach 4 (x.d.srcRow row) x.d.rowLen)) }))) := by
  obtain ⟨y, hy⟩ : ∃ y : DmaRun, y =
    { x with low := row + 1, rows := SMap.put x.rows row (s.spmRaw t (x.d.srcRow row) (segsReach 4 (x.d.srcRow row) x.d.rowLen)) } := ⟨_, rfl⟩
  have hyends : y.ends = none := by
    rw [hy]
    exact hends x (List.mem_of_getElem? hx)
  have hserves := State.serves_of_progOk hok
  have hsettle : ∀ r : State, r.eng t = s.eng t → (r.setQueue t ch (popDone (((r.eng t).chan ch).queue.set pos y))).chanSettle t ch =
      r.setEng t ((s.eng t).setChan ch (((s.eng t).chan ch).moved pos y)) := by
    intro r hr
    have hset : r.setQueue t ch (popDone (((r.eng t).chan ch).queue.set pos y)) =
        r.setEng t ((s.eng t).setChan ch (((s.eng t).chan ch).moved pos y)) := by
      rw [State.setQueue, hr]
      rfl
    rw [hset]
    refine State.chanSettle_of_ends ?_
    rw [State.eng_setEng_same, Eng.chan_setChan_same]
    exact Chan.moved_ends hends hyends
  let c : Instr := .dmaReadResponse t ch pos row portA
  have hrun : ∀ k : State → State, k (s.running c) = (s.running c).setEng t ((s.eng t).setChan ch (((s.eng t).chan ch).moved pos y)) →
      s.settle c k = s.setEng t ((s.eng t).setChan ch (((s.eng t).chan ch).moved pos y)) := by
    intro k hk
    rw [State.settle_of_clear hgate c k (by rw [hk]; rfl), hk]
    rfl
  rw [← hy]
  refine congrArg Host.Outcome.next (hrun _ ?_)
  have hlive' : (s.running c).chanLive t ch = true := hlive
  have hmay' : (s.running c).mayMove t ch pos row = true := hmay
  have hx' : (((s.running c).eng t).chan ch).queue[pos]? = some x := hx
  have hread : (s.running c).rowRead t x.d row = (s.running c, _, .ok) :=
    State.rowRead_own hspace ⟨hserves.inside, hserves.banks, hserves.words⟩
  simp only [hlive', hmay', hx', hread, hmode, Bool.not_true, Bool.or_self, Bool.false_eq_true, if_false, if_true]
  refine (congrArg (fun z => ((s.running c).setQueue t ch (popDone ((((s.running c).eng t).chan ch).queue.set pos z))).chanSettle t ch) ?_).trans
    (hsettle _ rfl)
  exact hy.symm

/-! ### A queued row of more than four banks -/

/-- A stream of one row of 2^21 + 1 bytes from the start of the own scratchpad. -/
def longDesc : DmaDesc :=
  { sspace := 1, stile := 0, saddr := 0, dspace := 0, dtile := 0, daddr := 0, rowLen := 2 ^ 21 + 1, tag := 0, mode := 1, rows := 1
    sstride := 0, dstride := 0, bad := false }
/-- It has started, and its row has not moved. -/
def longRun : DmaRun := { d := longDesc, epoch := 0, started := true, low := 0, extra := [], rows := [], taken := 0, ueRow := none }
/-- Engine 0 after reset, powered, with that descriptor in channel 0. -/
def longState : State := State.reset.setEng 0 (({ Eng.off with power := .on } : Eng).setChan 0 ⟨[longRun], none⟩)

theorem longState_eng : longState.eng 0 = ({ Eng.off with power := .on } : Eng).setChan 0 ⟨[longRun], none⟩ := State.eng_setEng_same _ 0 _
theorem longState_chan : (longState.eng 0).chan 0 = ⟨[longRun], none⟩ := by rw [longState_eng]; rfl
theorem longState_live : longState.chanLive 0 0 = true := by decide +kernel
theorem longState_mayMove : longState.mayMove 0 0 0 0 = true := by decide +kernel
/-- After reset every bank belongs to the program, and no word is bad. -/
theorem longState_progOk : longState.progOk 0 (longDesc.srcRow 0) longDesc.rowLen = true := by
  refine (State.progOk_iff _ _ _ _).mpr ⟨by decide, by decide +kernel, fun _ _ => rfl⟩

/-- The bytes of row 0 that stand at the array's side of the first descriptor of channel 0. -/
def Eng.firstRowLen (e : Eng) : Nat := ((e.chan 0).queue.head?.map (fun y => (SMap.get y.rows 0 []).length)).getD 0
theorem longRun_delivered {c : Chan} (hc : c = ⟨[longRun], none⟩) (e : Eng) (bs : List Byte) :
    (e.setChan 0 (c.moved 0 { longRun with low := 0 + 1, rows := SMap.put longRun.rows 0 bs })).firstRowLen = bs.length := by
  subst hc
  rw [Eng.firstRowLen, Eng.chan_setChan_same]
  rfl

/-- Refutes O5: the row of `longState` is 2^21 + 1 bytes long, and its four segments reach 2^21 of them, so that is what the array's side gets. -/
theorem not_dmaResults : ¬ Obligations.DmaResults := by
  unfold Obligations.DmaResults
  rintro ⟨-, hrows⟩
  have hends : ∀ y, y ∈ ((longState.eng 0).chan 0).queue → y.ends = none := by
    rw [longState_chan]
    intro y hy
    obtain rfl := List.mem_singleton.mp hy
    rfl
  have hx : ((longState.eng 0).chan 0).queue[0]? = some longRun := by rw [longState_chan]; rfl
  obtain ⟨u, hexec, hu, -⟩ := (hrows 0 0 0 0 [] longRun longState rfl longState_live hx longState_mayMove hends rfl longState_progOk).1 rfl
  have hstream := execDmaReadResponse_stream (t := 0) (ch := 0) (portA := []) rfl longState_live hx longState_mayMove hends rfl longState_progOk rfl
  have hstate := Host.Outcome.next.inj (hexec.symm.trans hstream)
  rw [hstate] at hu
  have hlen := congrArg Eng.firstRowLen ((State.eng_setEng_same _ _ _).symm.trans hu)
  have hreach := (longRun_delivered longState_chan _ _).symm.trans (hlen.trans (longRun_delivered longState_chan _ _))
  rw [State.spmRaw_length, State.spmRaw_length] at hreach
  exact absurd hreach (by decide)

end Sys2Proof.Machine
end

section
/-! The tasklet of a fenced engine, and packets for an engine (R75, R76, R106 to R109). -/

namespace Sys2Proof.Machine

/-! ### The dispatch of a tile -/

theorem State.tileDisp_some_iff (s : State) (t k : Nat) (d : Disp) : s.tileDisp t = some (k, d) ↔ (s.eng t).disp = some k ∧ s.disp k = some d := by
  unfold State.tileDisp
  cases (s.eng t).disp with
  | none => simp
  | some n =>
    cases hd : s.disp n with
    | none => simp [hd]; rintro rfl; simp [hd]
    | some x => simp [hd]; rintro rfl; simp [hd]
/-- A dispatch does not end while a tile of its group has neither ended its part nor is fenced (R464). -/
theorem State.dispCheck_of_working {s : State} {k v : Nat} {d : Disp} (hd : s.disp k = some d) (hv : v ∈ groupTiles d.group)
    (hdone : bitOf d.done v = false) (hfenced : (s.eng v).fenced = false) : s.dispCheck k = s := by
  have hall : (groupTiles d.group).all (fun t => bitOf d.done t || (s.eng t).fenced) = false :=
    List.all_eq_false.mpr ⟨v, hv, by simp [hdone, hfenced]⟩
  simp only [State.dispCheck, hd, hall, Bool.and_false, Bool.false_eq_true, if_false]
/-- An event gives the dispatch a status, if it has none; its group and the parts that have ended are as they were. -/
theorem State.report_disp {s : State} {k : Nat} {d : Disp} (h : s.disp k = some d) (status tile idx cause : Nat) :
    ∃ st at_, (s.report k status tile idx cause).disp k = some { d with status := st, statusAt := at_ } := by
  simp only [State.report, State.reportAt, h]
  split
  · exact ⟨_, _, s.disp_setDisp_same k _⟩
  · exact ⟨_, _, h⟩
theorem State.report_disp_first {s : State} {k : Nat} {d : Disp} (h : s.disp k = some d) (hnone : d.status = none) (status tile idx cause : Nat) :
    (s.report k status tile idx cause).disp k = some { d with status := some (status, tile, idx, cause), statusAt := (s.clk.mc, tile) } := by
  simp only [State.report, State.reportAt, h, hnone, Option.isNone_none, Bool.true_or, if_true]
  exact s.disp_setDisp_same k _
theorem State.stopGroup_disp {s : State} {k : Nat} {d : Disp} (h : s.disp k = some d) : (s.stopGroup k).disp k = some { d with stopped := true } := by
  simp only [State.stopGroup, h]
  exact s.disp_setDisp_same k _
theorem State.fenceStuck_of_stopped {s : State} {k : Nat} {d : Disp} (h : s.disp k = some d) (hstop : d.stopped = true) : s.fenceStuck k = s := by
  simp only [State.fenceStuck, h, hstop, Bool.not_true, Bool.and_false, Bool.false_and, Bool.false_eq_true, if_false]
  split <;> rfl
theorem State.fenceStuck_disp {s : State} {k : Nat} {d : Disp} (h : s.disp k = some d) :
    ∃ st at_ stop, (s.fenceStuck k).disp k = some { d with status := st, statusAt := at_, stopped := stop } := by
  simp only [State.fenceStuck, h]
  split
  · exact ⟨_, _, _, h⟩
  · next tile idx _ =>
    split
    · obtain ⟨st, at_, hrep⟩ := State.report_disp h stENGINE_FENCED tile idx 0
      exact ⟨st, at_, true, State.stopGroup_disp hrep⟩
    · exact ⟨_, _, _, h⟩
theorem State.fenceStuck_tiles (s : State) (k : Nat) : (s.fenceStuck k).tiles = s.tiles :=
  fenceStuck_keeps (φ := State.tiles) (fun _ _ => rfl) s k
theorem State.fenceStuck_stops (s : State) (k : Nat) : (s.fenceStuck k).stops = s.stops :=
  fenceStuck_keeps (φ := State.stops) (fun _ _ => rfl) s k
theorem State.stop_of_stops {s u : State} (h : u.stops = s.stops) (t : Nat) : u.stop t = s.stop t := by rw [State.stop, State.stop, h]

/-! ### The tasklet of a fenced engine (R76) -/

section
variable {s : State} {t k : Nat} {x : Task} {d : Disp}

theorem State.fenceEnd_of_disp (h : (s.eng t).disp = some k) : s.fenceEnd t = (((s.fenceShut t).orphan t).fenceStuck k).dispCheck k := by
  have hend : s.fenceEnd t = match (s.eng t).disp with
    | none => (s.fenceShut t).orphan t
    | some k => (((s.fenceShut t).orphan t).fenceStuck k).dispCheck k := rfl
  rw [hend, h]
theorem State.fenceShut_tileDisp (h : s.tileDisp t = some (k, d)) : (s.fenceShut t).tileDisp t = some (k, d) := by
  rw [State.tileDisp_some_iff] at h ⊢
  exact ⟨(congrArg Eng.disp (s.fenceShut_eng t)).trans h.1, h.2⟩
theorem State.fenceShut_eng_other (s : State) {t v : Nat} (h : v ≠ t) : (s.fenceShut t).eng v = s.eng v := s.eng_setEng_other _ h

/-- An entry that may run again goes back to its queue. -/
def State.requeued (s : State) (t : Nat) (x : Task) : State :=
  (((s.setEng t { s.eng t with task := none }).setStop t { s.stop t with queue := (s.stop t).queue ++ [x] }).fadd F.TSK_TDC_TDC t 1).fadd
    F.TSK_ORPHAN_ORPHAN t 1
theorem State.requeued_disp (s : State) (t : Nat) (x : Task) (k : Nat) : (s.requeued t x).disp k = s.disp k := by
  simp only [State.requeued, State.fadd_eq, State.disp_fput, State.disp_setStop, State.disp_setEng]
theorem State.requeued_stop (s : State) (t : Nat) (x : Task) :
    (s.requeued t x).stop t = { s.stop t with queue := (s.stop t).queue ++ [x] } := by
  simp only [State.requeued, State.fadd_eq, State.stop_fput, State.stop_setStop_same]
theorem State.requeued_eng (s : State) (t : Nat) (x : Task) (v : Nat) :
    (s.requeued t x).eng v = (s.setEng t { s.eng t with task := none }).eng v := by
  simp only [State.requeued, State.fadd_eq, State.eng_fput, State.eng_setStop]
theorem State.fenceShut_disp (s : State) (t k : Nat) : (s.fenceShut t).disp k = s.disp k := by
  rw [State.fenceShut, State.disp_event]
  rfl
theorem State.fenceShut_stop (s : State) (t v : Nat) : (s.fenceShut t).stop v = s.stop v := by
  rw [State.fenceShut, State.stop_event]
  rfl
theorem State.orphan_rerun (htask : (s.eng t).task = some x) (hdisp : s.tileDisp t = some (k, d)) (hrerun : x.rerun = true)
    (hstrict : d.strict = false) : s.orphan t = s.requeued t x := by
  simp only [State.orphan, htask, hdisp, hrerun, hstrict, Bool.not_false, Bool.and_self, if_true]
  rfl
/-- One that may not stops its group. -/
theorem State.orphan_stops (htask : (s.eng t).task = some x) (hdisp : s.tileDisp t = some (k, d)) (hbar : x.rerun = false ∨ d.strict = true) :
    s.orphan t = ((s.setEng t { s.eng t with task := none }).report k stENGINE_FENCED t x.idx 0).stopGroup k := by
  have hno : (x.rerun && !d.strict) = false := by rcases hbar with h | h <;> simp [h]
  simp only [State.orphan, htask, hdisp, hno, Bool.false_eq_true, if_false]

variable {v : Nat} (htask : (s.eng t).task = some x) (hdisp : s.tileDisp t = some (k, d)) (hv : v ∈ groupTiles d.group) (hne : v ≠ t)
  (hdone : bitOf d.done v = false) (hfenced : (s.eng v).fenced = false)
include htask hdisp hv hne hdone hfenced

theorem State.fenceEnd_rerun (hrerun : x.rerun = true) (hstrict : d.strict = false) :
    ((s.fenceEnd t).stop t).queue = (s.stop t).queue ++ [x] ∧ ((s.fenceEnd t).eng t).task = none := by
  have hshut := State.fenceShut_tileDisp hdisp
  obtain ⟨hk, hd⟩ := (s.tileDisp_some_iff t k d).mp hdisp
  have horphan := State.orphan_rerun ((congrArg Eng.task (s.fenceShut_eng t)).trans htask) hshut hrerun hstrict
  have hd' : ((s.fenceShut t).requeued t x).disp k = some d := by rw [State.requeued_disp, State.fenceShut_disp, hd]
  obtain ⟨st, at_, stop, hstuck⟩ := State.fenceStuck_disp hd'
  have hwork : ((((s.fenceShut t).requeued t x).fenceStuck k).eng v).fenced = false := by
    rw [State.eng_of_tiles (State.fenceStuck_tiles _ k), State.requeued_eng, State.eng_setEng_other _ _ hne, s.fenceShut_eng_other hne, hfenced]
  rw [State.fenceEnd_of_disp hk, horphan, State.dispCheck_of_working hstuck hv hdone hwork]
  constructor
  · rw [State.stop_of_stops (State.fenceStuck_stops _ k), State.requeued_stop, State.fenceShut_stop]
  · rw [State.eng_of_tiles (State.fenceStuck_tiles _ k), State.requeued_eng, State.eng_setEng_same]
theorem State.fenceEnd_stops (hbar : x.rerun = false ∨ d.strict = true) (hnone : d.status = none) :
    ∃ y, (s.fenceEnd t).disp k = some y ∧ y.stopped = true ∧ y.status = some (stENGINE_FENCED, t, x.idx, 0) := by
  have hshut := State.fenceShut_tileDisp hdisp
  obtain ⟨hk, hd⟩ := (s.tileDisp_some_iff t k d).mp hdisp
  have horphan := State.orphan_stops ((congrArg Eng.task (s.fenceShut_eng t)).trans htask) hshut hbar
  have hd' : ((s.fenceShut t).setEng t { (s.fenceShut t).eng t with task := none }).disp k = some d := by
    rw [State.disp_setEng, State.fenceShut_disp, hd]
  have hstop := State.stopGroup_disp (State.report_disp_first hd' hnone stENGINE_FENCED t x.idx 0)
  have hwork : (((((s.fenceShut t).setEng t { (s.fenceShut t).eng t with task := none }).report k stENGINE_FENCED t x.idx 0).stopGroup k).eng
      v).fenced = false := by
    rw [State.eng_of_tiles ((State.stopGroup_keeps (φ := State.tiles) (fun _ _ => rfl) _ k).trans
      (State.report_keeps (φ := State.tiles) (fun _ _ => rfl) _ k stENGINE_FENCED t x.idx 0)), State.eng_setEng_other _ _ hne,
      s.fenceShut_eng_other hne, hfenced]
  rw [State.fenceEnd_of_disp hk, horphan, State.fenceStuck_of_stopped hstop rfl, State.dispCheck_of_working hstop hv hdone hwork]
  exact ⟨_, hstop, rfl, rfl⟩

end

/-! ### A channel that halts (R64) -/

theorem State.haltChan_chanHalted (s : State) (t : Nat) {ch : Nat} (hch : ch < 8) (epoch : Nat) (err : ChanErr) :
    (s.haltChan t ch epoch err).chanHalted t ch = true := by
  have hlt := setBit_lt (s.rget .TSEQ_DMA t).isLt (k := ch) (w := 32) (by omega)
  have hget : (s.haltChan t ch epoch err).rget .TSEQ_DMA t = BitVec.ofNat 32 (setBit (s.rget .TSEQ_DMA t).toNat ch) :=
    (State.rget_event_other _ F.TSEQ_STAT_DMA_ERR t (by simp [F.TSEQ_STAT_DMA_ERR])).trans (State.rget_rput_same _ .TSEQ_DMA t _)
  rw [State.chanHalted, hget, BitVec.toNat_ofNat, Nat.mod_eq_of_lt hlt, bitOf_setBit_same]
theorem State.haltChan_err (s : State) (t ch epoch : Nat) (err : ChanErr) : (((s.haltChan t ch epoch err).eng t).chan ch).err = some err := by
  unfold State.haltChan
  dsimp only
  rw [State.eng_setEng_same, Eng.chan_setChan_same]
theorem State.haltChan_flag (s : State) (t ch epoch : Nat) (err : ChanErr) : (s.haltChan t ch epoch err).flag F.TSEQ_STAT_DMA_ERR t = true :=
  State.flag_event_same _ F.TSEQ_STAT_DMA_ERR t (by decide) rfl (by decide)
theorem State.haltChan_sameRegs (s : State) (t ch epoch : Nat) (err : ChanErr) :
    s.sameRegs (s.haltChan t ch epoch err) [.TSEQ_DMA, .TSEQ_STAT] :=
  ((s.rput_sameRegs (by decide) t _).trans (State.event_sameRegs _ (by decide) t)).trans (State.setEng_sameRegs _ t _ _)

/-! ### Packets (R75, R106 to R109) -/

theorem segsReach_all {a n : Nat} (h : a + n ≤ 2 ^ 23) : segsReach 17 a n = n := by
  unfold segsReach
  omega
/-- What a packet may meet: its banks serve its class, and its words are good. -/
theorem State.serves_of_grant {s : State} {t a n : Nat} {c : OwnClass} (hend : a + n ≤ 2 ^ 23) (hgrant : s.spmGrant t a n c = .yes)
    (hgood : (List.range ((a + n + 7) / 8 - a / 8)).all (fun k => SMap.get s.spmErr (spmKey t 0 / 8 + a / 8 + k) 0 == 0) = true) :
    s.serves t a n c where
  inside := hend
  banks := (s.spmGrant_yes_iff t a n c).mp hgrant
  words w hw hlt := by
    have hk := List.all_eq_true.mp hgood (w - a / 8) (List.mem_range.mpr (by omega))
    rw [beq_iff_eq, Nat.add_assoc, Nat.add_sub_cancel' hw] at hk
    exact hk

section
variable {t : Fin 128} {src : Fin 129} {ch : Fin 8} {addr read : Nat} {data : List Byte} {portA : List Nat} {s : State}

theorem execEnginePacket_writes (hsrc : src.val < 128) (hadmit : s.admission t = .deliver) (hsorted : s.spmOk) (haddr : 2 ^ 20 ≤ addr)
    (hserves : s.serves t addr data.length .remote) :
    ∃ u, execEnginePacket t src ch addr ⟨read, data⟩ portA s = .next u ∧ s.stored u t addr data := by
  have hend := hserves.inside
  obtain ⟨u, hu, hstored⟩ := State.segsWrite_ok (.remote src ch) portA 17 addr data hsorted haddr (fun _ => by omega) (fun _ => hserves)
  have hsvc : src.val ≠ 128 := by omega
  have hlen : Held.len ⟨src, ch, addr, read, data, []⟩ = data.length := by
    rw [Held.len, if_neg hsvc]
    exact Nat.max_zero _
  refine ⟨u, congrArg Host.Outcome.next ?_, hstored⟩
  have hfits : ¬ 2 ^ 23 < addr + data.length := by omega
  simp only [hadmit, hlen, hserves.wipeWait, Bool.false_eq_true, if_false, State.packetWrite, hsvc, hfits, decide_false, Bool.false_and,
    Bool.or_self, hu]
theorem State.packetWrite_reads {h : Held} (hsrc : h.from_ = 128) (hread : h.read ≠ 0) (hnil : h.data = []) (hserves : s.serves t h.addr h.read .svc) :
    s.packetWrite t h portA = { s with outs := { s.outs with busErr := false, collided := false, rbytes := s.spmRaw t h.addr h.read } } := by
  have hend := hserves.inside
  have hfits : ¬ 2 ^ 23 < h.addr + h.read := by omega
  have haddr : ¬ 2 ^ 23 < h.addr + 0 := by omega
  have hsegs : State.segsRead { s with outs := { s.outs with busErr := false, collided := false, rbytes := [] } } t .svc (bankSegs 17 h.addr h.read) [] = _ :=
    State.segsRead_ok 17 h.addr h.read [] ⟨hserves.inside, hserves.banks, hserves.words⟩
  simp only [State.packetWrite, hsrc, hnil, List.length_nil, haddr, hfits, hread, ne_eq, not_false_eq_true, decide_true, decide_false, Bool.and_self,
    Bool.and_false, Bool.or_self, Bool.false_eq_true, if_false, if_true, hsegs, segsReach_all hend, List.nil_append]
  rfl
theorem execEnginePacket_reads (hsrc : src.val = 128) (hread : read ≠ 0) (hadmit : s.admission t = .deliver)
    (hserves : s.serves t addr read .svc) :
    execEnginePacket t src ch addr ⟨read, []⟩ portA s =
      .next { s with outs := { s.outs with busErr := false, collided := false, rbytes := s.spmRaw t addr read } } := by
  have hlen : Held.len ⟨src, ch, addr, read, [], []⟩ = read := by
    rw [Held.len, if_pos hsrc]
    exact Nat.zero_max _
  simp only [execEnginePacket, hadmit, hlen, hserves.wipeWait, Bool.false_eq_true, if_false]
  exact congrArg Host.Outcome.next (State.packetWrite_reads hsrc hread rfl hserves)
/-- A refused packet halts the channel that sent it. -/
theorem execEnginePacket_refused (hsrc : src.val < 128) (hadmit : s.admission t = .refuse) :
    ∃ epoch, execEnginePacket t src ch addr ⟨read, data⟩ portA s = .next (s.haltChan src ch epoch (s.refusal t)) := by
  have hsvc : src.val ≠ 128 := by omega
  simp only [execEnginePacket, hadmit, State.senderError, if_neg hsvc]
  exact ⟨_, rfl⟩

end

/-- Settles O14 (R75, R76, R106 to R109): what becomes of the tasklet of a fenced engine, and of a packet for an engine. -/
theorem fencedAndPacketResults : Obligations.FencedAndPacketResults := by
  unfold Obligations.FencedAndPacketResults
  refine ⟨?_, ?_⟩
  · intro t s m x k d v hfence htask hdisp hrun hv hne hdone hfenced
    have hexec := execFenceComplete_fenced hfence
    refine ⟨fun hrerun hstrict => ?_, fun hbar hnone => ?_⟩
    · obtain ⟨hqueue, hidle⟩ := State.fenceEnd_rerun htask hdisp hv hne hdone hfenced hrerun hstrict
      exact ⟨_, hexec, hqueue, hidle⟩
    · obtain ⟨y, hy⟩ := State.fenceEnd_stops htask hdisp hv hne hdone hfenced hbar hnone
      exact ⟨_, y, hexec, hy⟩
  · intro t src ch addr read data portA s good
    refine ⟨?_, ?_, ?_, ?_⟩
    · intro hsrc hadmit hsorted haddr hend hgrant hgood
      obtain ⟨u, hexec, hstored⟩ := execEnginePacket_writes (src := src) (ch := ch) (read := read) (portA := portA) hsrc hadmit hsorted haddr
        (State.serves_of_grant hend hgrant hgood)
      exact ⟨u, hexec, hstored.storedAt hend, hstored.rest⟩
    · intro hsrc hread hnil hadmit hend hgrant hgood
      subst hnil
      exact ⟨_, execEnginePacket_reads hsrc hread hadmit (State.serves_of_grant hend hgrant hgood), rfl, rfl, rfl⟩
    · intro hadmit hroom
      refine ⟨(s.setStop t { s.stop t with ingress := (s.stop t).ingress ++ [⟨src, ch, addr, read, data, []⟩] }).setEng t { s.eng t with wake := true },
        congrArg Host.Outcome.next ?_, State.stop_setStop_same s t _, State.eng_setEng_same _ t _, rfl⟩
      simp only [hadmit, if_neg (Nat.not_le.mpr hroom)]
    · intro hsrc hadmit
      obtain ⟨epoch, hexec⟩ := execEnginePacket_refused (ch := ch) (addr := addr) (read := read) (data := data) (portA := portA) hsrc hadmit
      exact ⟨_, hexec, State.haltChan_chanHalted s src ch.isLt _ _, State.haltChan_err s src ch _ _, State.haltChan_flag s src ch _ _,
        State.haltChan_sameRegs s src ch _ _, rfl⟩

end Sys2Proof.Machine
end

section
/-! The mesh: routes, packets under way, link errors (R70, R78 to R82). -/

namespace Sys2Proof.Machine

/-! ### Routes -/

theorem tower_diff {a d : Nat} (h : towerOf a = towerOf d) : (towerOf d + 4 - towerOf a) % 4 = 0 := by omega
/-- Row, column and tower tell stops apart. -/
theorem stop_ext {a d : Nat} (ht : towerOf a = towerOf d) (hx : tileX a = tileX d) (hy : tileY a = tileY d) : a = d := by
  simp only [towerOf, tileX, tileY] at ht hx hy
  omega
/-- Within a tower a hop leads east or west in the row of the destination, then south or north. -/
theorem meshStep_cases {a d : Nat} (via : Nat) (h : towerOf a = towerOf d) (hne : a ≠ d) :
    (tileX a < tileX d ∧ meshStep a d via = (2, a + 1)) ∨ (tileX d < tileX a ∧ meshStep a d via = (3, a - 1)) ∨
    (tileX a = tileX d ∧ tileY a < tileY d ∧ meshStep a d via = (1, a + 8)) ∨
    (tileX a = tileX d ∧ tileY d < tileY a ∧ meshStep a d via = (0, a - 8)) := by
  have hstep : meshStep a d via = if tileX a < tileX d then (2, a + 1) else if tileX d < tileX a then (3, a - 1)
      else if tileY a < tileY d then (1, a + 8) else (0, a - 8) := by
    simp only [meshStep, tower_diff h, if_true]
  rw [hstep]
  rcases Nat.lt_trichotomy (tileX a) (tileX d) with hx | hx | hx
  · exact .inl ⟨hx, if_pos hx⟩
  · rw [if_neg (by omega), if_neg (by omega)]
    rcases Nat.lt_trichotomy (tileY a) (tileY d) with hy | hy | hy
    · exact .inr (.inr (.inl ⟨hx, hy, if_pos hy⟩))
    · exact absurd (stop_ext h hx hy) hne
    · exact .inr (.inr (.inr ⟨hx, hy, if_neg (by omega)⟩))
  · exact .inr (.inl ⟨hx, by rw [if_neg (by omega), if_pos hx]⟩)
theorem meshStep_port {a d : Nat} (via : Nat) (h : towerOf a = towerOf d) (hne : a ≠ d) : (meshStep a d via).1 ≠ 4 := by
  rcases meshStep_cases via h hne with ⟨_, hs⟩ | ⟨_, hs⟩ | ⟨_, _, hs⟩ | ⟨_, _, hs⟩ <;> simp [hs]
theorem meshStep_moves {a d : Nat} (via : Nat) (h : towerOf a = towerOf d) (hne : a ≠ d) : (meshStep a d via).2 ≠ a := by
  have hrow : tileX d < tileX a → 1 ≤ a := fun hx => by simp only [tileX] at hx; omega
  have hcol : tileY d < tileY a → 8 ≤ a := fun hy => by simp only [tileY] at hy; omega
  rcases meshStep_cases via h hne with ⟨_, hs⟩ | ⟨hx, hs⟩ | ⟨_, _, hs⟩ | ⟨_, hy, hs⟩ <;> rw [hs] <;> dsimp only
  · omega
  · have := hrow hx
    omega
  · omega
  · have := hcol hy
    omega
theorem meshDist_tower {a d : Nat} (h : towerOf a = towerOf d) : meshDist a d = absDiff (tileX a) (tileX d) + absDiff (tileY a) (tileY d) := by
  simp only [meshDist, tower_diff h]

/-- The neighbours of a stop in its row and in its column. -/
theorem stop_east {a : Nat} (h : tileX a < 7) : towerOf (a + 1) = towerOf a ∧ tileX (a + 1) = tileX a + 1 ∧ tileY (a + 1) = tileY a := by
  simp only [towerOf, tileX, tileY] at *
  omega
theorem stop_west {a : Nat} (h : 0 < tileX a) : towerOf (a - 1) = towerOf a ∧ tileX (a - 1) = tileX a - 1 ∧ tileY (a - 1) = tileY a := by
  simp only [towerOf, tileX, tileY] at *
  omega
theorem stop_south {a : Nat} (h : tileY a < 3) : towerOf (a + 8) = towerOf a ∧ tileX (a + 8) = tileX a ∧ tileY (a + 8) = tileY a + 1 := by
  simp only [towerOf, tileX, tileY] at *
  omega
theorem stop_north {a : Nat} (h : 0 < tileY a) : towerOf (a - 8) = towerOf a ∧ tileX (a - 8) = tileX a ∧ tileY (a - 8) = tileY a - 1 := by
  simp only [towerOf, tileX, tileY] at *
  omega
theorem tileX_lt (a : Nat) : tileX a < 8 := Nat.mod_lt a (by decide)
theorem tileY_lt (a : Nat) : tileY a < 4 := Nat.mod_lt (a / 8) (by decide)
theorem lt_of_tower {n d : Nat} (h : towerOf n = towerOf d) (hd : d < 128) : n < 128 := by
  unfold towerOf at h
  omega

/-- Settles O16 (R70, R78): a route within a tower takes the row first, and each of its hops is one nearer to the destination. -/
theorem routeIsShortest : Obligations.RouteIsShortest := by
  unfold Obligations.RouteIsShortest
  intro a d via _ hd htower hne
  have hxd := tileX_lt d
  have hyd := tileY_lt d
  suffices h : towerOf (meshStep a d via).2 = towerOf a ∧ (tileX a ≠ tileX d → tileY (meshStep a d via).2 = tileY a) ∧
      absDiff (tileX (meshStep a d via).2) (tileX d) + absDiff (tileY (meshStep a d via).2) (tileY d) + 1 =
        absDiff (tileX a) (tileX d) + absDiff (tileY a) (tileY d) by
    obtain ⟨ht, hrow, hdist⟩ := h
    have ht := ht.trans htower
    exact ⟨lt_of_tower ht hd, ht, by rw [meshDist_tower ht, meshDist_tower htower, hdist], hrow⟩
  rcases meshStep_cases via htower hne with ⟨hx, hs⟩ | ⟨hx, hs⟩ | ⟨hx, hy, hs⟩ | ⟨hx, hy, hs⟩ <;> rw [hs] <;> unfold absDiff
  · obtain ⟨ht, hx', hy'⟩ := stop_east (a := a) (by omega)
    exact ⟨ht, fun _ => hy', by rw [hx', hy']; omega⟩
  · obtain ⟨ht, hx', hy'⟩ := stop_west (a := a) (by omega)
    exact ⟨ht, fun _ => hy', by rw [hx', hy']; omega⟩
  · obtain ⟨ht, hx', hy'⟩ := stop_south (a := a) (by omega)
    exact ⟨ht, fun h => absurd hx h, by rw [hx', hy']; omega⟩
  · obtain ⟨ht, hx', hy'⟩ := stop_north (a := a) (by omega)
    exact ⟨ht, fun h => absurd hx h, by rw [hx', hy']; omega⟩

/-! ### A packet enters the mesh -/

/-- A stop written back as it was. -/
theorem State.stop_setStop_self (s : State) (t v : Nat) : (s.setStop t (s.stop t)).stop v = s.stop v := by
  by_cases h : v = t
  · subst h
    exact s.stop_setStop_same v _
  · exact s.stop_setStop_other _ h
theorem meshEnd_tile {e : Nat} (lane : Nat) (h : e < 128) : meshEnd e lane = e := if_pos h

section
variable {s : State} {src dst : Fin 132} {vc : Fin 4} {flits : Nat} {strict : Bool} {way : Way}

/-- Within a tower and without slots a packet of VC1 to VC3 takes nothing at its stop. -/
theorem execMeshPacketInject_tower (hsrc : src.val < 128) (hdst : dst.val < 128) (htower : towerOf src = towerOf dst) (hvc : vc.val ≠ 0)
    (hslots : s.flag F.MESH_CFG_SLOT_EN src = false) :
    execMeshPacketInject src dst vc flits strict way s =
      .next (if src.val = dst.val then s.setStop src (s.stop src)
        else { s.setStop src (s.stop src) with packets := s.packets ++ [⟨vc, src, dst, src, dst, strict, fixedVia src, s.clk.mc, flits,
          flits - min flits (vcDepth vc), 0, [⟨src, 5, 0, List.replicate (min flits (vcDepth vc)) s.clk.mc, false⟩]⟩] }) := by
  simp [execMeshPacketInject, meshEnd_tile _ hsrc, meshEnd_tile _ hdst, hvc, hslots, htower, hsrc]

end

/-! ### A packet of one flit that is alone in the mesh -/

section
variable {s : State} {p : Packet} {g : Seg} {m : Nat} (hpackets : s.packets = [p]) (hsegs : p.segs = [g]) (harr : g.arr = [m])
  (htower : towerOf g.at_ = towerOf p.stop_) (hne : g.at_ ≠ p.stop_)

theorem Packet.ready_of_hop (harr : g.arr = [m]) (hport : (p.step g).1 ≠ 4) : p.ready g = some (m + 3) := by
  simp [Packet.ready, harr, hport]
theorem Packet.nextCls_of_hop (hport : (p.step g).1 ≠ 4) : p.nextCls g = g.cls := by
  simp [Packet.nextCls, hport]
theorem vcDepth_pos (vc : Nat) : 0 < vcDepth vc := by
  unfold vcDepth
  split <;> decide
include hpackets hsegs
/-- The buffers of other stops are empty. -/
theorem State.bufUsed_alone {v : Nat} (hv : g.at_ ≠ v) (inp vc cls : Nat) : s.bufUsed v inp vc cls = 0 := by
  simp [State.bufUsed, hpackets, hsegs, hv]
include harr htower hne
theorem State.flitCan_alone (hready : m + 3 ≤ s.clk.mc) (hslots : s.flag F.MESH_CFG_SLOT_EN g.at_ = false) : s.flitCan 0 0 = true := by
  have hport : (p.step g).1 ≠ 4 := meshStep_port p.via htower hne
  have hroom : s.bufUsed (p.step g).2 (inputOf (p.step g).1) p.vc (p.nextCls g) = 0 :=
    State.bufUsed_alone hpackets hsegs (meshStep_moves p.via htower hne).symm _ _ _
  simp [State.flitCan, hpackets, hsegs, Packet.ready_of_hop harr hport, hready, hroom, vcDepth_pos, hslots]
theorem State.flitGrant_alone (hready : m + 3 ≤ s.clk.mc) (hslots : s.flag F.MESH_CFG_SLOT_EN g.at_ = false)
    (hport : SMap.find (s.stop g.at_).portUse (p.step g).1 ≠ some s.clk.mc) : s.flitGrant 0 0 = true := by
  have hcan := State.flitCan_alone hpackets hsegs harr htower hne hready hslots
  simp [State.flitGrant, hpackets, hsegs, hcan, hport]
omit hpackets
/-- The flit leaves the mesh at the packet's last stop, or stands alone in the next buffer. -/
theorem Packet.moved_alone (hrest : p.rest = 0) (mc : Nat) :
    p.moved 0 mc = if (p.step g).2 = p.stop_ then { p with out := p.out + 1, segs := [] }
      else { p with segs := [⟨(p.step g).2, inputOf (p.step g).1, g.cls, [mc], false⟩] } := by
  have hport : (p.step g).1 ≠ 4 := meshStep_port p.via htower hne
  by_cases hlast : (p.step g).2 = p.stop_ <;>
    simp [Packet.moved, hsegs, harr, hrest, hlast, Packet.nextCls_of_hop hport]

end

section
variable {s : State} {p : Packet} {g : Seg}

theorem execMeshPacketHop_granted (hpackets : s.packets = [p]) (hsegs : p.segs = [g]) (hgrant : s.flitGrant 0 0 = true) :
    execMeshPacketHop ⟨0, 0⟩ s = .next (
      let s1 := s.setStop g.at_ { s.stop g.at_ with portUse := SMap.put (s.stop g.at_).portUse (p.step g).1 s.clk.mc }
      let q := p.moved 0 s.clk.mc
      if q.out < p.flits then { s1 with packets := [q] }
      else if p.vc = 0 && s.fget F.MESH_LAT_MAX_LAT_MAX p.stop_ < min (s.clk.mc - p.born) 65535 then
        { s1 with packets := [] }.fput F.MESH_LAT_MAX_LAT_MAX p.stop_ (min (s.clk.mc - p.born) 65535)
      else { s1 with packets := [] }) := by
  have hset : ∀ st : Stop, (s.setStop g.at_ st).packets = [p] := fun _ => hpackets
  simp only [execMeshPacketHop, hpackets, hsegs, hgrant, List.getElem?_cons_zero, Bool.not_true, Bool.false_eq_true, if_false, hset, List.set_cons_zero,
    List.eraseIdx_cons_zero]
end

/-- The output port of a stop is taken in this mesh cycle. -/
def State.portTaken (s : State) (t port : Nat) : State :=
  s.setStop t { s.stop t with portUse := SMap.put (s.stop t).portUse port s.clk.mc }
/-- A packet of VC0 that leaves at a stop records its latency there, if none was longer. -/
def State.latRecorded (s : State) (vc t lat : Nat) : State :=
  if vc = 0 && s.fget F.MESH_LAT_MAX_LAT_MAX t < lat then s.fput F.MESH_LAT_MAX_LAT_MAX t lat else s
theorem State.latRecorded_cases (s : State) (vc t lat : Nat) : s.latRecorded vc t lat = s ∨ s.latRecorded vc t lat = s.fput F.MESH_LAT_MAX_LAT_MAX t lat := by
  unfold State.latRecorded
  split
  · exact .inr rfl
  · exact .inl rfl
theorem State.latRecorded_keeps {α : Type} {φ : State → α} (hφ : ∀ s b, φ { s with regs := b } = φ s) (s : State) (vc t lat : Nat) :
    φ (s.latRecorded vc t lat) = φ s := by
  rcases s.latRecorded_cases vc t lat with h | h <;> rw [h]
  exact hφ _ _
theorem State.latRecorded_sameRegs (s : State) (vc t lat : Nat) : s.sameRegs (s.latRecorded vc t lat) [.MESH_LAT_MAX] := by
  rcases s.latRecorded_cases vc t lat with h | h <;> rw [h]
  · exact s.sameRegs_refl _
  · exact s.fput_sameRegs (by decide) t lat
theorem State.latRecorded_fget (s : State) (t : Nat) {lat : Nat} (hlat : lat ≤ 65535) :
    (s.latRecorded 0 t lat).fget F.MESH_LAT_MAX_LAT_MAX t = max (s.fget F.MESH_LAT_MAX_LAT_MAX t) lat := by
  simp only [State.latRecorded, decide_true, Bool.true_and, decide_eq_true_eq]
  split
  · next h =>
    rw [State.fget_fput_same _ _ _ _ (by decide) (by decide) (by decide), Nat.max_eq_right (Nat.le_of_lt h)]
    exact Nat.mod_eq_of_lt (Nat.lt_of_le_of_lt hlat (by decide))
  · next h => exact (Nat.max_eq_left (Nat.le_of_not_lt h)).symm

section
variable {s : State} {p : Packet} {g : Seg} {m : Nat}

/-- A packet of one flit that is alone in the mesh leaves it at its last stop, and moves to the next stop elsewhere. -/
theorem execMeshPacketHop_alone (hpackets : s.packets = [p]) (hflits : p.flits = 1) (hrest : p.rest = 0) (hout : p.out = 0) (hsegs : p.segs = [g])
    (harr : g.arr = [m]) (htower : towerOf g.at_ = towerOf p.stop_) (hne : g.at_ ≠ p.stop_) (hgrant : s.flitGrant 0 0 = true) :
    execMeshPacketHop ⟨0, 0⟩ s = .next (
      if (p.step g).2 = p.stop_ then
        { s.portTaken g.at_ (p.step g).1 with packets := [] }.latRecorded p.vc p.stop_ (min (s.clk.mc - p.born) 65535)
      else { s.portTaken g.at_ (p.step g).1 with
        packets := [{ p with segs := [⟨(p.step g).2, inputOf (p.step g).1, g.cls, [s.clk.mc], false⟩] }] }) := by
  rw [execMeshPacketHop_granted hpackets hsegs hgrant, Packet.moved_alone hsegs harr htower hne hrest]
  by_cases hlast : (p.step g).2 = p.stop_
  · simp only [hlast, if_true, hout, hflits, Nat.lt_irrefl, Nat.zero_add, if_false]
    rfl
  · simp only [hlast, if_false, hout, hflits, Nat.zero_lt_one, if_true]
    rfl

end

/-- Settles O15 (R78 to R82): packets enter, cross and leave the mesh, and a link error is flagged and raised. -/
theorem meshResults : Obligations.MeshResults := by
  unfold Obligations.MeshResults
  intro s
  refine ⟨?_, ?_, ?_⟩
  · intro src dst vc flits strict way hsrc hdst htower hvc hslots n
    have hexec := execMeshPacketInject_tower (flits := flits) (strict := strict) (way := way) hsrc hdst htower hvc hslots
    refine ⟨_, hexec, ?_⟩
    by_cases heq : src = dst
    · rw [if_pos (congrArg Fin.val heq), if_pos heq]
      exact ⟨(List.append_nil _).symm, fun v => s.stop_setStop_self src v, rfl⟩
    · rw [if_neg (fun h => heq (Fin.ext h)), if_neg heq]
      exact ⟨rfl, fun v => s.stop_setStop_self src v, rfl⟩
  · intro p g m hpackets hflits hrest hout hsegs harr htower hne hready hslots st hport
    have hgrant := State.flitGrant_alone hpackets hsegs harr htower hne hready hslots hport
    have hexec := execMeshPacketHop_alone hpackets hflits hrest hout hsegs harr htower hne hgrant
    have hsame : ∀ ps, { s.portTaken g.at_ st.1 with packets := ps }.stop g.at_ =
        { s.stop g.at_ with portUse := SMap.put (s.stop g.at_).portUse st.1 s.clk.mc } := fun _ => s.stop_setStop_same g.at_ _
    have hother : ∀ ps v, v ≠ g.at_ → { s.portTaken g.at_ st.1 with packets := ps }.stop v = s.stop v := fun _ _ hv => s.stop_setStop_other _ hv
    refine ⟨_, hexec, ?_⟩
    by_cases hlast : st.2 = p.stop_
    · rw [if_pos hlast, if_pos hlast]
      have hstops := State.latRecorded_keeps (φ := State.stop) (fun _ _ => rfl) { s.portTaken g.at_ st.1 with packets := [] } p.vc p.stop_
        (min (s.clk.mc - p.born) 65535)
      refine ⟨State.latRecorded_keeps (φ := State.packets) (fun _ _ => rfl) _ _ _ _, fun hvc _ => ?_, (congrFun hstops _).trans (hsame _),
        fun v hv => (congrFun hstops v).trans (hother _ v hv), State.latRecorded_sameRegs _ _ _ _,
        State.latRecorded_keeps (φ := fun u : State => { u with packets := s.packets, regs := s.regs, stops := s.stops }) (fun _ _ => rfl) _ _ _ _⟩
      rw [hvc]
      exact State.latRecorded_fget _ _ (Nat.min_le_right _ _)
    · rw [if_neg hlast, if_neg hlast]
      exact ⟨rfl, fun _ h => absurd h hlast, hsame _, hother _, s.sameRegs_refl _, rfl⟩
  · intro t dir
    have hraised := State.raisedIn_raise (s.event F.MESH_STAT_LINK_ERR t) 0x15 t 0 0
    rw [srcUnit_tile (by decide) t.isLt] at hraised
    exact ⟨_, rfl, ((State.raise_sameRegs _ [] 0x15 t 0 0).flag F.MESH_STAT_LINK_ERR t (by simp) (by decide)).trans
        (State.flag_event_same _ F.MESH_STAT_LINK_ERR t (by decide) (by decide) (by decide)), hraised,
      (State.event_sameRegs _ (by decide) t).trans (State.raise_sameRegs _ _ 0x15 t 0 0),
      State.raiseAs_keeps (φ := fun u : State => { u with regs := s.regs, flt := s.flt }) (fun _ _ => rfl) _ _ _ _ _ _ _⟩

end Sys2Proof.Machine
end

section
/-! TGET, TDONE, TBAR and HALT, the end of a dispatch, and steals (R60, R67 to R71, R463, R464; log entries 38, 39 and 78). -/

namespace Sys2Proof.Machine

/-! ### A tasklet is handed to the program (R68, R69) -/

/-- The engine whose TGET ends with a tasklet, or with none. -/
def Eng.taking (e : Eng) (x : Option Task) : Eng :=
  { e with task := x, epoch := e.epoch + 1, mark := e.arr.nextId, noTask := x.isNone, steal := none }
/-- What lock-step mode has noted once tile `t` takes an entry: who took each entry of a numbered dispatch (R367). -/
def State.tookBy (s : State) (t : Nat) (x : Task) : List (Nat × Nat × Nat) :=
  match s.tileDisp t with
  | some (k, d) => if d.num.isSome then s.lck.took ++ [(k, x.idx, t)] else s.lck.took
  | none => s.lck.took
theorem State.tookBy_unnumbered {s : State} {t k : Nat} {d : Disp} (hdisp : s.tileDisp t = some (k, d)) (hnum : d.num = none) (x : Task) :
    s.tookBy t x = s.lck.took := by
  simp only [State.tookBy, hdisp, hnum, Option.isSome_none, Bool.false_eq_true, if_false]
/-- The engine holds the tasklet, and its arguments are not yet in the scratchpad. -/
def State.taking (s : State) (t : Nat) (x : Task) : State :=
  { s with lck := { s.lck with took := s.tookBy t x } }.setEng t ((s.eng t).taking (some x))
theorem State.deliverTask_ok {s : State} {t : Nat} {w : Word} {x : Task} (hok : s.progOk t ((s.eng t).s (xA w)).toNat 24 = true)
    (hsorted : s.spmOk) (hargs : x.args.length = 24) :
    ∃ u, s.deliverTask t w x = u.retireS t (xC w) x.idx ∧ (s.taking t x).stored u t ((s.eng t).s (xA w)).toNat x.args := by
  have hgood := State.wordsGood_of_progOk hok
  rw [← hargs] at hgood
  obtain ⟨u, hu, hstored⟩ := State.spmWrite_good (s := s.taking t x) hsorted hgood
  have hdeliver : s.deliverTask t w x = let r := (s.taking t x).spmWrite t ((s.eng t).s (xA w)).toNat x.args
      if r.2 then r.1.trapHere t 0x04 else r.1.retireS t (xC w) x.idx := rfl
  rw [hu] at hdeliver
  exact ⟨u, hdeliver, hstored⟩
/-- The engine after a tasklet was handed over. -/
theorem State.stored.retired_eng {s u : State} {t a : Nat} {w : Word} {x : Task} {bs : List Byte} (h : (s.taking t x).stored u t a bs) :
    (u.retireS t (xC w) x.idx).eng t = (((s.eng t).taking (some x)).setS (xC w) (BitVec.ofNat 64 x.idx)).past 1 := by
  rw [(u.onlyEng_retireS t (xC w) x.idx).1, h.eng, State.taking, State.eng_setEng_same]

section
variable {l : State} {t k : Nat} {w : Word} {d : Disp}

/-- The head entry has left the queue of a stop. -/
def State.popped (l : State) (t : Nat) (rest : List Task) : State := l.setStop t { l.stop t with queue := rest, lastOp := some l.clk.mc }
theorem State.popped_progOk (l : State) (t : Nat) (rest : List Task) (a n : Nat) : (l.popped t rest).progOk t a n = l.progOk t a n := rfl
theorem State.popped_eng (l : State) (t : Nat) (rest : List Task) (v : Nat) : (l.popped t rest).eng v = l.eng v := rfl
theorem State.popped_tileDisp (l : State) (t : Nat) (rest : List Task) (v : Nat) : (l.popped t rest).tileDisp v = l.tileDisp v := rfl
theorem State.popped_delivered {x : Task} (rest : List Task) (hdisp : l.tileDisp t = some (k, d)) (hnum : d.num = none)
    (hok : l.progOk t ((l.eng t).s (xA w)).toNat 24 = true) (hsorted : l.spmOk) (hargs : x.args.length = 24) :
    ∃ u, (l.popped t rest).deliverTask t w x = u ∧ u.eng t = (((l.eng t).taking (some x)).setS (xC w) (BitVec.ofNat 64 x.idx)).past 1 ∧
      l.storedAt u t ((l.eng t).s (xA w)).toNat x.args ∧ u.stop t = { l.stop t with queue := rest, lastOp := some l.clk.mc } ∧
      { u with tiles := l.tiles, stops := l.stops, spm := l.spm, spmErr := l.spmErr } = l := by
  obtain ⟨u, hdeliver, hstored⟩ := State.deliverTask_ok (s := l.popped t rest) (x := x) (w := w) (by rwa [State.popped_eng, State.popped_progOk])
    hsorted hargs
  rw [State.popped_eng] at hstored
  have hend := ((State.progOk_iff _ _ _ _).mp hok).1
  have hstops : u.stops = (l.popped t rest).stops := (congrArg State.stops hstored.rest :)
  have htook : (l.popped t rest).tookBy t x = l.lck.took := State.tookBy_unnumbered ((l.popped_tileDisp t rest t).trans hdisp) hnum x
  have hrest : { u with tiles := l.tiles, stops := l.stops, spm := l.spm, spmErr := l.spmErr } =
      { l with lck := { l.lck with took := (l.popped t rest).tookBy t x } } :=
    (congrArg (fun v : State => { v with tiles := l.tiles, stops := l.stops }) hstored.rest :)
  rw [htook] at hrest
  exact ⟨_, hdeliver, hstored.retired_eng, (hstored.storedAt (by omega)).of_spm rfl,
    (State.stop_of_stops (u := u.retireS t (xC w) x.idx) hstops t).trans (State.stop_setStop_same l t _), hrest⟩
/-- TGET finds no tasklet. -/
theorem State.noTasklet_eq (hdisp : l.tileDisp t = some (k, d)) :
    l.noTasklet t w = ((l.setEng t ((l.eng t).taking none)).retireS t (xC w) (2 ^ 64 - 1)).fenceStuck k := by
  have hno : l.noTasklet t w = match (l.eng t).disp with
    | none => (l.setEng t ((l.eng t).taking none)).retireS t (xC w) (2 ^ 64 - 1)
    | some k => ((l.setEng t ((l.eng t).taking none)).retireS t (xC w) (2 ^ 64 - 1)).fenceStuck k := rfl
  rw [hno, ((l.tileDisp_some_iff t k d).mp hdisp).1]
theorem State.noTasklet_eng (hdisp : l.tileDisp t = some (k, d)) :
    (l.noTasklet t w).eng t = (((l.eng t).taking none).setS (xC w) (BitVec.ofNat 64 (2 ^ 64 - 1))).past 1 := by
  rw [State.noTasklet_eq hdisp, State.eng_of_tiles (State.fenceStuck_tiles _ k), (State.onlyEng_retireS _ t (xC w) _).1, State.eng_setEng_same]
theorem State.noTasklet_frame (hdisp : l.tileDisp t = some (k, d)) : { l.noTasklet t w with tiles := l.tiles, disps := l.disps } = l := by
  rw [State.noTasklet_eq hdisp]
  exact fenceStuck_keeps (φ := fun v : State => { v with tiles := l.tiles, disps := l.disps }) (fun _ _ => rfl) _ k

end

/-! ### Issue (R60) -/

section
variable {t : Fin 128} {w : Word} {s : State} {k : Nat} {d : Disp}

theorem execTget_queued {x : Task} {rest : List Task} (h : s.issues t w 0x34 = true) (hrsv : xRsv w = 0)
    (hok : (s.lineIn t).progOk t (((s.lineIn t).eng t).s (xA w)).toNat 24 = true) (hsteal : ((s.lineIn t).eng t).steal = none)
    (hin : (s.lineIn t).fw.withdrawn.contains t.val = false) (hdisp : (s.lineIn t).tileDisp t = some (k, d)) (hstop : d.stopped = false)
    (hqueue : ((s.lineIn t).stop t).queue = x :: rest) (hlast : ((s.lineIn t).stop t).lastOp ≠ some (s.lineIn t).clk.mc) :
    execTget t w s = .next (((s.lineIn t).popped t rest).deliverTask t w x) := by
  obtain ⟨hend, hgrant, -⟩ := (State.progOk_iff _ _ _ _).mp hok
  rw [execTget, State.issueWith_of_issues h]
  simp only [hrsv, ne_eq, not_true_eq_false, if_false, Nat.not_lt.mpr hend, hgrant, hdisp, hsteal, Option.isSome_none, Bool.false_eq_true, hstop, hin,
    Bool.or_self, hqueue, hlast]
  rfl
theorem execTget_dry (h : s.issues t w 0x34 = true) (hrsv : xRsv w = 0)
    (hok : (s.lineIn t).progOk t (((s.lineIn t).eng t).s (xA w)).toNat 24 = true) (hsteal : ((s.lineIn t).eng t).steal = none)
    (hin : (s.lineIn t).fw.withdrawn.contains t.val = false) (hdisp : (s.lineIn t).tileDisp t = some (k, d)) (hstop : d.stopped = false)
    (hqueue : ((s.lineIn t).stop t).queue = []) (hscan : d.ntask ≤ ((s.lineIn t).stop t).scan) (hoff : (s.lineIn t).flag F.TSK_CFG_STEAL_EN t = false) :
    execTget t w s = .next ((s.lineIn t).noTasklet t w) := by
  obtain ⟨hend, hgrant, -⟩ := (State.progOk_iff _ _ _ _).mp hok
  rw [execTget, State.issueWith_of_issues h]
  simp only [hrsv, ne_eq, not_true_eq_false, if_false, Nat.not_lt.mpr hend, hgrant, hdisp, hsteal, Option.isSome_none, Bool.false_eq_true, hstop, hin,
    Bool.or_self, hqueue, Nat.not_lt.mpr hscan, hoff, Bool.false_and]
theorem State.endCheck_pass {l : State} {all : Bool} (hhalted : l.haltedNow t = false) (hstream : (l.streamCheck t).2 = false)
    (hwork : l.workLeft t all = false) (f : State → State) : l.endCheck t w all f = f l := by
  simp only [State.endCheck, hhalted, hstream, hwork, Bool.false_eq_true, if_false]
theorem execTbar_passes (h : s.issues t w 0x36 = true) (hrsv : xRsv w = 0) (hdisp : (s.lineIn t).tileDisp t = some (k, d))
    (hdone : d.commits = d.ntask ∨ d.stopped = true ∧ ∀ v, v ∈ groupTiles d.group → ((s.lineIn t).eng v).task = none) :
    execTbar t w s = .next ((s.lineIn t).advance t 1) := by
  have hpass : (d.commits == d.ntask || d.stopped && (groupTiles d.group).all (fun u => ((s.lineIn t).eng u).task.isNone)) = true := by
    rcases hdone with heq | ⟨hstop, hall⟩
    · simp [heq]
    · simp [hstop, List.all_eq_true.mpr fun v hv => show ((s.lineIn t).eng v).task.isNone = true by rw [hall v hv]; rfl]
  rw [execTbar, State.issueWith_of_issues h, if_neg (not_not_intro hrsv)]
  simp only [hdisp, hpass, if_true]
theorem execHalt_ends (h : s.issues t w 0x38 = true) (hrsv : xRsv w = 0) (hhalted : (s.lineIn t).haltedNow t = false)
    (hstream : ((s.lineIn t).streamCheck t).2 = false) (hwork : (s.lineIn t).workLeft t true = false) :
    execHalt t w s = .next (((s.lineIn t).advance t 1).partDone t) := by
  rw [execHalt, State.issueWith_of_issues h, if_neg (not_not_intro hrsv), State.endCheck_pass hhalted hstream hwork]

end

/-- A state with the engines and dispatches of another. -/
def State.besideDisps (s u : State) : State := { u with tiles := s.tiles, disps := s.disps }
/-- TDONE counts the tasklet. -/
def State.committed (s : State) (t k : Nat) (d : Disp) : State :=
  ((s.setDisp k { d with commits := d.commits + 1 }).setEng t { s.eng t with task := none }).advance t 1
theorem State.committed_eng (s : State) (t k : Nat) (d : Disp) : (s.committed t k d).eng t = { s.eng t with task := none }.past 1 :=
  (State.onlyEng_advance _ t 1).1.trans (congrArg (Eng.past · 1) (State.eng_setEng_same _ t _))
theorem State.committed_disp (s : State) (t k : Nat) (d : Disp) : (s.committed t k d).disp k = some { d with commits := d.commits + 1 } :=
  s.disp_setDisp_same k _
theorem State.committed_frame (s : State) (t k : Nat) (d : Disp) : s.besideDisps (s.committed t k d) = s :=
  (State.advance_keeps (φ := State.besideDisps s) (fun _ _ => rfl) _ t 1).trans
    ((State.setEng_keeps (φ := State.besideDisps s) (fun _ _ => rfl) _ t _).trans (State.setDisp_keeps (φ := State.besideDisps s) (fun _ _ => rfl) s k _))

section
variable {t : Fin 128} {w : Word} {s : State} {k : Nat} {d : Disp}

theorem execTdone_commits (h : s.issues t w 0x35 = true) (hrsv : xRsv w = 0) (htask : ((s.lineIn t).eng t).task.isSome = true)
    (hdisp : (s.lineIn t).tileDisp t = some (k, d)) (hhalted : (s.lineIn t).haltedNow t = false)
    (hstream : ((s.lineIn t).streamCheck t).2 = false) (hwork : (s.lineIn t).workLeft t false = false) :
    execTdone t w s = .next ((s.lineIn t).committed t k d) := by
  rw [execTdone, State.issueWith_of_issues h, if_neg (not_not_intro hrsv), if_neg (by simpa [Option.isSome_iff_ne_none] using htask), State.endCheck_pass hhalted hstream hwork]
  simp only [hdisp]
  rfl

end

/-! ### The tile's part of a dispatch ends (R464) -/

theorem bitOf_setBit_other (n : Nat) {k v : Nat} (h : v ≠ k) : bitOf (setBit n k) v = bitOf n v := by
  rw [bitOf_eq_testBit, bitOf_eq_testBit, setBit, Nat.testBit_or, Nat.testBit_two_pow_of_ne (Ne.symm h), Bool.or_false]

section
variable {s : State} {t k : Nat} {d : Disp}

/-- The array holds no pass when none of the tile's work is left. -/
theorem State.passIds_of_no_work (h : s.workLeft t true = false) : (s.eng t).arr.passIds = [] := by
  rw [State.workLeft, Bool.or_eq_false_iff] at h
  obtain ⟨-, hpasses⟩ := h
  exact List.eq_nil_iff_forall_not_mem.mpr fun i hi => by simpa using List.any_eq_false.mp hpasses i hi
/-- The tile has ended its part. -/
def State.partOver (s : State) (t : Nat) : State := (s.setEng t { s.eng t with active := false, task := none, stall := none }).useClose t
/-- Its dispatch counts it. -/
def State.parted (s : State) (t k : Nat) (d : Disp) : State := (s.partOver t).setDisp k { d with done := setBit d.done t }
theorem State.partDone_eq (hdisp : s.tileDisp t = some (k, d)) (hidle : (s.eng t).arr.passIds = []) : s.partDone t = (s.parted t k d).dispCheck k := by
  obtain ⟨hk, hd⟩ := (s.tileDisp_some_iff t k d).mp hdisp
  have hd' : (s.partOver t).disp k = some d := hd
  have hpart : s.partDone t = match (s.eng t).disp with
    | none => s.partOver t
    | some k => match (s.partOver t).disp k with
      | none => s.partOver t
      | some d => ((if (s.eng t).arr.passIds = [] then s.partOver t else ((s.partOver t).setEng t
          { (s.partOver t).eng t with behind := some (s.eng t).arr.nextId }).useOpen (arrUnit t) d.charge).setDisp k
          { d with done := setBit d.done t }).dispCheck k := rfl
  rw [hpart, hk]
  dsimp only
  rw [hd']
  dsimp only
  rw [if_pos hidle]
  rfl
theorem State.parted_keeps {β : Type} {φ : State → β} (htiles : Ign.tiles φ) (hdisps : Ign.disps φ) (henr : Ign.enr φ) (s : State) (t k : Nat) (d : Disp) :
    φ (s.parted t k d) = φ s :=
  (State.setDisp_keeps hdisps _ _ _).trans ((State.useClose_keeps henr _ _).trans (State.setEng_keeps htiles _ _ _))
/-- A state with the engines, dispatches and charges of another. -/
def State.besideParts (s u : State) : State := { u with tiles := s.tiles, disps := s.disps, enr := s.enr }
theorem State.parted_frame (s : State) (t n k : Nat) (d : Disp) : s.besideParts ((s.advance t n).parted t k d) = s :=
  (State.parted_keeps (φ := s.besideParts) (fun _ _ => rfl) (fun _ _ => rfl) (fun _ _ => rfl) _ t k d).trans
    (State.advance_keeps (φ := s.besideParts) (fun _ _ => rfl) s t n)
theorem State.parted_sorted (h : SMap.sortedFrom none s.disps = true) : SMap.sortedFrom none (s.parted t k d).disps = true := by
  have hput : (s.parted t k d).disps = SMap.put s.disps k { d with done := setBit d.done t } := rfl
  rw [hput]
  exact SMap.sorted_put k _ _ h
theorem State.parted_eng_same (s : State) (t k : Nat) (d : Disp) :
    (s.parted t k d).eng t = { s.eng t with active := false, task := none, stall := none } := s.eng_setEng_same t _
theorem State.parted_eng_other (s : State) {t v : Nat} (k : Nat) (d : Disp) (h : v ≠ t) : (s.parted t k d).eng v = s.eng v := s.eng_setEng_other _ h
theorem State.parted_disp (s : State) (t k : Nat) (d : Disp) : (s.parted t k d).disp k = some { d with done := setBit d.done t } :=
  State.disp_setDisp_same _ k _
theorem State.tileDisp_advance {n : Nat} (hdisp : s.tileDisp t = some (k, d)) : (s.advance t n).tileDisp t = some (k, d) := by
  rw [State.tileDisp_some_iff] at hdisp ⊢
  obtain ⟨hk, hd⟩ := hdisp
  exact ⟨(congrArg Eng.disp (s.onlyEng_advance t n).1).trans hk, hd⟩

/-- The dispatch goes on while tile `v` still works. -/
theorem State.partDone_working {v : Nat} (hdisp : s.tileDisp t = some (k, d)) (hidle : (s.eng t).arr.passIds = []) (hv : v ∈ groupTiles d.group)
    (hne : v ≠ t) (hdone : bitOf d.done v = false) (hfenced : (s.eng v).fenced = false) :
    (s.advance t 1).partDone t = (s.advance t 1).parted t k d ∧ ((s.advance t 1).parted t k d).disp k = some { d with done := setBit d.done t } ∧
      ((s.advance t 1).parted t k d).eng t = { (s.eng t).past 1 with active := false, task := none } ∧
      (∀ x, x ≠ t → ((s.advance t 1).parted t k d).eng x = s.eng x) ∧
      s.besideParts ((s.advance t 1).parted t k d) = s := by
  have hparted := (s.advance t 1).parted_disp t k d
  obtain ⟨hsame, hother, -⟩ := s.onlyEng_advance t 1
  have hkeep : ∀ x, x ≠ t → ((s.advance t 1).parted t k d).eng x = s.eng x := fun x hx =>
    ((s.advance t 1).parted_eng_other k d hx).trans (hother x hx)
  refine ⟨?_, hparted, ?_, hkeep, s.parted_frame t 1 k d⟩
  · rw [State.partDone_eq (State.tileDisp_advance hdisp) (by rw [hsame]; exact hidle)]
    exact State.dispCheck_of_working hparted hv ((bitOf_setBit_other d.done hne).trans hdone) (by rw [hkeep v hne, hfenced])
  · rw [State.parted_eng_same, hsame]
    rfl

end

/-- Settles O9 (R60, R68, R69, R464; log entry 38): TGET, TDONE, TBAR and HALT. -/
theorem taskletInstructionResults : Obligations.TaskletInstructionResults := by
  unfold Obligations.TaskletInstructionResults
  intro t w s l e a taken
  refine ⟨?_, ?_, ?_, ?_⟩
  · intro h hrsv hok hsorted hsteal hin k d hdisp hstop hnum
    refine ⟨fun x rest hqueue hargs hlast => ?_, fun hqueue hscan hoff => ?_⟩
    · obtain ⟨u, hu, hresult⟩ := State.popped_delivered (w := w) (x := x) rest hdisp hnum hok hsorted hargs
      exact ⟨u, (execTget_queued h hrsv hok hsteal hin hdisp hstop hqueue hlast).trans (congrArg Host.Outcome.next hu), hresult⟩
    · exact ⟨_, execTget_dry h hrsv hok hsteal hin hdisp hstop hqueue hscan hoff, State.noTasklet_eng hdisp, State.noTasklet_frame hdisp⟩
  · intro h hrsv
    refine ⟨fun htask => ?_, fun k d htask hdisp hhalted hstream hwork => ?_⟩
    · refine ⟨_, ?_, l.onlyEng_advance t 1⟩
      show execTdone t w s = _
      rw [execTdone, State.issueWith_of_issues h, if_neg (not_not_intro hrsv), if_pos (Option.isNone_iff_eq_none.mpr htask)]
    · exact ⟨_, execTdone_commits h hrsv htask hdisp hhalted hstream hwork, l.committed_disp t k d, l.committed_eng t k d, l.committed_frame t k d⟩
  · intro h hrsv k d hdisp hdone
    exact ⟨_, execTbar_passes h hrsv hdisp hdone, l.onlyEng_advance t 1⟩
  · intro h hrsv hhalted hstream hwork k d v hdisp hv hne hdone hfenced
    obtain ⟨hend, hresult⟩ := State.partDone_working hdisp (State.passIds_of_no_work hwork) hv hne hdone hfenced
    exact ⟨_, (execHalt_ends h hrsv hhalted hstream hwork).trans (congrArg Host.Outcome.next hend), hresult⟩

/-! ### A dispatch ends (R463, R464) -/

/-- What the step of one element sets up, and every step keeps, holds after the fold. -/
theorem foldl_of_mem {σ α : Type} {P : σ → Prop} {g : σ → α → σ} {a : α} (hset : ∀ s, P (g s a)) (hkeep : ∀ s b, P s → P (g s b)) :
    ∀ (l : List α) (s : σ), a ∈ l → P (l.foldl g s) := by
  have hall : ∀ (l : List α) (s : σ), P s → P (l.foldl g s) := fun l => by
    induction l with
    | nil => exact fun s h => h
    | cons b l ih => exact fun s h => ih _ (hkeep s b h)
  intro l s ha
  obtain ⟨l₁, l₂, rfl⟩ := List.append_of_mem ha
  rw [List.foldl_append, List.foldl_cons]
  exact hall l₂ _ (hset _)

section
variable {s : State} {k : Nat} {d : Disp}

theorem State.fencedEntries_none (h : ∀ v, v ∈ groupTiles d.group → (s.eng v).fenced = false) : s.fencedEntries d = none := by
  rw [State.fencedEntries, List.findSome?_eq_none_iff]
  intro v hv
  simp [h v hv]
theorem State.tilesFreed_disps (h : s.fencedEntries d = none) (k : Nat) : (s.tilesFreed k d).disps = s.disps := by
  simp only [State.tilesFreed, h]
  rw [foldl_keeps State.disps]
  · split <;> rfl
  · exact fun _ _ => rfl
theorem State.tilesFreed_free (s : State) (k : Nat) {v : Nat} (hv : v ∈ groupTiles d.group) :
    ((s.tilesFreed k d).eng v).disp = none ∧ ((s.tilesFreed k d).eng v).active = false ∧ ((s.tilesFreed k d).stop v).queue = [] := by
  refine foldl_of_mem (P := fun u : State => (u.eng v).disp = none ∧ (u.eng v).active = false ∧ (u.stop v).queue = []) (fun u => ?_) (fun u b hu => ?_)
    _ _ hv
  · rw [State.eng_setStop, State.eng_setEng_same, State.stop_setStop_same]
    exact ⟨rfl, rfl, rfl⟩
  · by_cases h : v = b
    · subst h
      rw [State.eng_setStop, State.eng_setEng_same, State.stop_setStop_same]
      exact ⟨rfl, rfl, rfl⟩
    · rw [State.eng_setStop, u.eng_setEng_other _ h, State.stop_setStop_other _ _ h]
      exact hu
theorem State.dispFinish_disp (hsorted : SMap.sortedFrom none s.disps = true) : (s.dispFinish k).disp k = none := by
  cases hd : s.disp k with
  | none => simp only [State.dispFinish, hd]
  | some d =>
    simp only [State.dispFinish, hd]
    cases s.descr d.qp d.didx with
    | none => exact SMap.find_del_same k _ hsorted
    | some x =>
      refine SMap.find_del_same k _ ?_
      rwa [State.completeKeep_keeps (φ := State.disps) (fun _ _ => rfl) (fun _ _ => rfl) (fun _ _ => rfl) (fun _ _ => rfl) (fun _ _ => rfl)
        (fun _ _ => rfl)]
theorem State.dispFinish_tiles (s : State) (k : Nat) : (s.dispFinish k).tiles = s.tiles :=
  dispFinish_keeps (φ := State.tiles) (fun _ _ => rfl) (fun _ _ => rfl) (fun _ _ => rfl) (fun _ _ => rfl) (fun _ _ => rfl) (fun _ _ => rfl)
    (fun _ _ => rfl) s k
theorem State.dispFinish_stops (s : State) (k : Nat) : (s.dispFinish k).stops = s.stops :=
  dispFinish_keeps (φ := State.stops) (fun _ _ => rfl) (fun _ _ => rfl) (fun _ _ => rfl) (fun _ _ => rfl) (fun _ _ => rfl) (fun _ _ => rfl)
    (fun _ _ => rfl) s k
/-- Every part of a dispatch that lock-step mode does not number has ended, and none of its tiles is fenced. -/
theorem State.dispCheck_ends (hd : s.disp k = some d) (hrun : d.running = true) (hnum : d.num = none)
    (hdone : ∀ v, v ∈ groupTiles d.group → bitOf d.done v = true) (hclear : ∀ v, v ∈ groupTiles d.group → (s.eng v).fenced = false) :
    s.dispCheck k =
      ((s.tilesFreed k d).setDisp k { d with running := false, fabTdc := (s.tilesFreed k d).dispTdc d }).dispFinish k := by
  have hall : (groupTiles d.group).all (fun t => bitOf d.done t || (s.eng t).fenced) = true :=
    List.all_eq_true.mpr fun v hv => by rw [hdone v hv, Bool.true_or]
  have hcheck : s.dispCheck k = match s.disp k with
    | none => s
    | some d => if d.running && (groupTiles d.group).all (fun t => bitOf d.done t || (s.eng t).fenced) then
        match (s.tilesFreed k d).disp k with
        | none => s.tilesFreed k d
        | some d' => (s.tilesFreed k d).dispEnded k d' (s.clk.mc - d'.startMc)
      else s := rfl
  have hfreed : (s.tilesFreed k d).disp k = some d := by
    rw [State.disp, State.tilesFreed_disps (State.fencedEntries_none hclear)]
    exact hd
  rw [hcheck, hd]
  dsimp only
  rw [hrun, hall, Bool.and_self, if_pos rfl, hfreed]
  simp only [State.dispEnded, hnum]

end

/-- Settles O10 (R69, R463, R464; log entry 38): the last HALT ends the dispatch and frees its tiles. -/
theorem lastHaltEndsDispatch : Obligations.LastHaltEndsDispatch := by
  unfold Obligations.LastHaltEndsDispatch
  intro t w s l h hrsv hhalted hstream hwork k d hdisp ht hrun hnum hsorted hdone hclear
  have hadv := l.onlyEng_advance t 1
  have hidle : ((l.advance t 1).eng t).arr.passIds = [] := by
    rw [hadv.1]
    exact State.passIds_of_no_work hwork
  have hall : ∀ v, v ∈ groupTiles d.group → bitOf (setBit d.done t) v = true := fun v hv => by
    by_cases hvt : v = t
    · rw [hvt, bitOf_setBit_same]
    · rw [bitOf_setBit_other _ hvt, hdone v hv hvt]
  have hclear' : ∀ v, v ∈ groupTiles d.group → (((l.advance t 1).parted t k d).eng v).fenced = false := fun v hv => by
    by_cases hvt : v = t
    · rw [hvt, State.parted_eng_same, hadv.1]
      exact hclear t ht
    · rw [State.parted_eng_other _ k d hvt, hadv.2.1 v hvt, hclear v hv]
  have hexec := execHalt_ends h hrsv hhalted hstream hwork
  rw [State.partDone_eq (State.tileDisp_advance hdisp) hidle, State.dispCheck_ends ((l.advance t 1).parted_disp t k d) hrun hnum hall hclear'] at hexec
  refine ⟨_, hexec, State.dispFinish_disp (SMap.sorted_put k _ _ ?_), fun v hv => ?_⟩
  · rw [State.tilesFreed_disps (d := { d with done := setBit d.done t }) (State.fencedEntries_none hclear')]
    exact State.parted_sorted hsorted
  · rw [State.eng_of_tiles (State.dispFinish_tiles _ k), State.stop_of_stops (State.dispFinish_stops _ k)]
    exact State.tilesFreed_free _ k hv

/-! ### Steals (R67, R70, R71) -/

section
variable {thief victim : Fin 128} {s : State} {st : Steal}

/-- At its turn a request takes the tail entry of the stop that it asked, unless the entry is pinned. -/
theorem execStealRequest_turn {q : List Task} {x : Task} (hsteal : (s.eng thief).steal = some st) (hasked : st.asked = some victim.val)
    (hreply : st.reply = none) (hturn : s.stealTurn thief victim st = true) (hqueue : (s.stop victim).queue = q ++ [x]) :
    execStealRequest thief victim s = .next ((s.setStop victim { s.stop victim with
      lastOp := some s.clk.mc, queue := if x.pinned then (s.stop victim).queue else q }).setEng thief
        { s.eng thief with steal := some { st with reply := some (if x.pinned then none else some x) } }) := by
  have hlast : (s.stop victim).queue.getLast? = some x := by rw [hqueue, List.getLast?_concat]
  have hdrop : (s.stop victim).queue.dropLast = q := by rw [hqueue, List.dropLast_concat]
  cases hpin : x.pinned <;>
    simp [execStealRequest, hsteal, hasked, hreply, hturn, hlast, hdrop, hpin]

/-- The reply has been used. -/
def State.stolen (s : State) (t : Nat) : State := (s.setEng t { s.eng t with steal := none }).fadd F.TSK_TDC_TDC t 1
theorem State.stolen_eng (s : State) (t : Nat) : (s.stolen t).eng t = { s.eng t with steal := none } := by
  rw [State.stolen, State.fadd_eq, State.eng_fput, State.eng_setEng_same]
theorem State.stolen_tdc (s : State) (t : Nat) : (s.stolen t).fget F.TSK_TDC_TDC t = (s.fget F.TSK_TDC_TDC t + 1) % 2 ^ 32 :=
  State.fget_fadd_same _ F.TSK_TDC_TDC t 1 (by decide) (by decide) (by decide)
theorem State.stolen_rget (s : State) (t : Nat) {r : Reg} (hr : r ≠ .TSK_TDC) (i : Nat) : (s.stolen t).rget r i = s.rget r i :=
  (State.rget_rput_other _ _ fun h => hr h.1).trans (s.rget_setEng t _ r i)
theorem State.stolen_progOk (s : State) (t a n : Nat) : (s.stolen t).progOk t a n = s.progOk t a n := by
  have howner : ∀ b, (s.stolen t).owner t b = s.owner t b := fun b => by
    rw [State.owner, State.owner, s.stolen_rget t (r := .SPM_OWN0) (by decide), s.stolen_rget t (r := .SPM_OWN1) (by decide)]
  have hwiping : ((s.stolen t).eng t).wiping = (s.eng t).wiping := by rw [State.stolen_eng]
  have hhand : ((s.stolen t).eng t).hand = (s.eng t).hand := by rw [State.stolen_eng]
  have hbank : ∀ b, (s.stolen t).bankGrant t b .prog = s.bankGrant t b .prog := fun b => by
    unfold State.bankGrant
    dsimp only
    rw [howner, hwiping, hhand]
  have hgrant : (s.stolen t).spmGrant t a n .prog = s.spmGrant t a n .prog := by simp only [State.spmGrant, hbank]
  rw [State.progOk, hgrant]
  rfl
theorem State.stolen_delivered {t : Nat} {w : Word} {x : Task} (hok : s.progOk t ((s.eng t).s (xA w)).toNat 24 = true) (hsorted : s.spmOk)
    (hargs : x.args.length = 24) :
    ∃ u, (s.stolen t).deliverTask t w x = u ∧ (u.eng t).task = some x ∧ (u.eng t).steal = none ∧ (u.eng t).s (xC w) = BitVec.ofNat 64 x.idx ∧
      s.storedAt u t ((s.eng t).s (xA w)).toNat x.args ∧ u.fget F.TSK_TDC_TDC t = (s.fget F.TSK_TDC_TDC t + 1) % 2 ^ 32 := by
  have ha : ((s.stolen t).eng t).s (xA w) = (s.eng t).s (xA w) := by
    rw [State.stolen_eng]
    rfl
  obtain ⟨u, hdeliver, hstored⟩ := State.deliverTask_ok (s := s.stolen t) (x := x) (w := w) (by rwa [ha, State.stolen_progOk]) hsorted hargs
  rw [ha] at hstored
  have hend := ((State.progOk_iff _ _ _ _).mp hok).1
  have heng := hstored.retired_eng (w := w)
  refine ⟨_, hdeliver, congrArg Eng.task heng, congrArg Eng.steal heng, ?_, (hstored.storedAt (by omega)).of_spm rfl, ?_⟩
  · rw [heng]
    simp only [Eng.past, Eng.setS, Eng.s, SMap.get, SMap.find_put_same, Option.getD_some]
  · have hregs : (u.retireS t (xC w) x.idx).regs = (s.stolen t).regs := hstored.regs
    exact ((State.sameRegs_of_regs [] hregs).fget F.TSK_TDC_TDC t (by simp) (by decide)).trans (s.stolen_tdc t)
/-- An entry that reaches a thief of a group that still takes tasklets. -/
theorem execStealReply_entry {x : Task} {k : Nat} {d : Disp} (hsteal : (s.eng thief).steal = some st) (hasked : st.asked = some victim.val)
    (hreply : st.reply = some (some x)) (hdisp : s.tileDisp thief = some (k, d)) (hrun : d.running = true) (hstop : d.stopped = false) :
    execStealReply thief victim s = .next (match (s.eng thief).tgetStall with
      | some w => (s.stolen thief).deliverTask thief w x
      | none => (s.stolen thief).setStop thief { (s.stolen thief).stop thief with queue := ((s.stolen thief).stop thief).queue ++ [x] }) := by
  simp only [execStealReply, hsteal, hreply, hasked, hdisp, Option.any_some, hrun, hstop, ne_eq, not_true_eq_false, if_false, Bool.not_false, Bool.and_self,
    Bool.not_true, Bool.false_eq_true]
  rfl

end

/-- Settles O11 (R67, R70, R71; log entries 39 and 78): a steal takes the tail entry at its turn, and the entry runs or joins the thief's queue. -/
theorem stealResults : Obligations.StealResults := by
  unfold Obligations.StealResults
  intro thief victim s st hsteal hasked
  refine ⟨fun hreply hturn q x hqueue => ?_, fun x k d hreply hdisp hrun hstop => ?_⟩
  · have hexec := execStealRequest_turn hsteal hasked hreply hturn hqueue
    refine ⟨fun hpin => ?_, fun hpin => ?_⟩ <;> simp only [hpin] at hexec <;>
      exact ⟨_, hexec, State.stop_setStop_same s victim _, State.eng_setEng_same _ thief _, rfl⟩
  · have hexec := execStealReply_entry hsteal hasked hreply hdisp hrun hstop
    refine ⟨fun w hstall hok hsorted hargs => ?_, fun hstall => ?_⟩
    · rw [hstall] at hexec
      obtain ⟨u, hu, hresult⟩ := State.stolen_delivered hok hsorted hargs
      exact ⟨u, hexec.trans (congrArg Host.Outcome.next hu), hresult⟩
    · rw [hstall] at hexec
      refine ⟨_, hexec, ?_, ?_, ?_⟩
      · exact congrArg Eng.steal (s.stolen_eng thief)
      · exact State.stop_setStop_same _ thief _
      · exact s.stolen_tdc thief

end Sys2Proof.Machine
end

section
/-! Reads of device memory: what they answer depends on the stored bytes alone, and they leave the queues of the stops as they were
(R66, R134 to R142, R462). -/

namespace Sys2Proof.Machine

/-! ### States that hold the same bytes -/

/-- Two states hold the same bytes with the same codes, under the same remap entries and in the same mode: a read answers alike in them. -/
structure State.sameData (s u : State) : Prop where
  mem : u.mem = s.mem
  synd : u.synd = s.synd
  soft : u.soft = s.soft
  regs : ∀ r, r = .VCH_REMAP ∨ r = .VCH_CFG → ∀ i, u.rget r i = s.rget r i

theorem State.sameData.symm {s u : State} (h : s.sameData u) : u.sameData s :=
  ⟨h.mem.symm, h.synd.symm, h.soft.symm, fun r hr i => (h.regs r hr i).symm⟩
theorem State.sameData.trans {s u v : State} (h : s.sameData u) (h' : u.sameData v) : s.sameData v :=
  ⟨h'.mem.trans h.mem, h'.synd.trans h.synd, h'.soft.trans h.soft, fun r hr i => (h'.regs r hr i).trans (h.regs r hr i)⟩
theorem State.sameRegs.sameData {s u : State} (h : s.sameRegs u vchRegs) (hmem : u.mem = s.mem) (hsynd : u.synd = s.synd) (hsoft : u.soft = s.soft) :
    s.sameData u := ⟨hmem, hsynd, hsoft, fun r hr i => h r i (by rcases hr with rfl | rfl <;> decide)⟩
/-- Steps that touch alike on both sides keep states alike. -/
theorem State.sameData.foldl {α : Type} {f : State → α → State} (hf : ∀ (s u : State) (a : α), s.sameData u → (f s a).sameData (f u a)) :
    ∀ (l : List α) {s u : State}, s.sameData u → (l.foldl f s).sameData (l.foldl f u)
  | [], _, _, h => h
  | a :: l, _, _, h => State.sameData.foldl hf l (hf _ _ a h)
theorem State.sameData.ite {s u s' u' : State} (c : Prop) [Decidable c] (h : s.sameData u) (h' : s'.sameData u') :
    (if c then s else s').sameData (if c then u else u') := by
  split
  · exact h
  · exact h'
/-- What leaves the bytes alone may stand on either side. -/
theorem State.sameData.beside {s u s' u' : State} (h : s.sameData u) (hs : s.sameData s') (hu : u.sameData u') : s'.sameData u' :=
  hs.symm.trans (h.trans hu)

theorem State.note_sameData (s : State) (da : Nat) (write : Bool) : s.sameData (s.note da write) :=
  (s.note_sameRegs da write vchRegs).sameData (State.note_keeps (φ := State.mem) (fun _ _ => rfl) (fun _ _ => rfl) s da write)
    (State.note_keeps (φ := State.synd) (fun _ _ => rfl) (fun _ _ => rfl) s da write)
    (State.note_keeps (φ := State.soft) (fun _ _ => rfl) (fun _ _ => rfl) s da write)
theorem State.countCorrection_sameData (s : State) (t key : Nat) : s.sameData (s.countCorrection t key) :=
  (s.countCorrection_sameRegs t key).sameData
    (State.countCorrection_keeps (φ := State.mem) (fun _ _ => rfl) (fun _ _ => rfl) (fun _ _ => rfl) s t key)
    (State.countCorrection_keeps (φ := State.synd) (fun _ _ => rfl) (fun _ _ => rfl) (fun _ _ => rfl) s t key)
    (State.countCorrection_keeps (φ := State.soft) (fun _ _ => rfl) (fun _ _ => rfl) (fun _ _ => rfl) s t key)
theorem State.recordUe_sameData (s : State) (t da src : Nat) : s.sameData (s.recordUe t da src) :=
  (s.recordUe_sameRegs t da src).sameData
    (State.recordUe_keeps (φ := State.mem) (fun _ _ => rfl) (fun _ _ => rfl) (fun _ _ => rfl) s t da src)
    (State.recordUe_keeps (φ := State.synd) (fun _ _ => rfl) (fun _ _ => rfl) (fun _ _ => rfl) s t da src)
    (State.recordUe_keeps (φ := State.soft) (fun _ _ => rfl) (fun _ _ => rfl) (fun _ _ => rfl) s t da src)

section
variable {s u : State} (h : s.sameData u)
include h

theorem State.sameData.putWord (pl : Nat) (bs : List Byte) : (s.putWord pl bs).sameData (u.putWord pl bs) :=
  ⟨congrArg (Memory.setBytes · pl bs) h.mem, congrArg (SMap.del · (pl / 8)) h.synd, congrArg (softClear · pl) h.soft, h.regs⟩
theorem State.sameData.writeBack (pl : Nat) (ws : List (List Byte × Check)) : (s.writeBack pl ws).sameData (u.writeBack pl ws) := by
  refine State.sameData.foldl (fun s u p h => ?_) _ ⟨h.mem, h.synd, congrArg (SMap.del · (pl / 256)) h.soft, h.regs⟩
  cases p.1.2 with
  | fixData _ => exact h.putWord _ _
  | fixCheck => exact h.putWord _ _
  | good => exact h
  | bad => exact h
theorem State.sameData.atomPlace (da : Nat) : u.atomPlace da = s.atomPlace da := by
  have hremap : ∀ i, u.rget .VCH_REMAP i = s.rget .VCH_REMAP i := h.regs _ (.inl rfl)
  simp only [State.atomPlace, State.remapOf, hremap]
theorem State.sameData.atomLook (pl : Nat) : u.atomLook pl = s.atomLook pl := by
  simp only [State.atomLook, State.wordLook, h.mem, h.synd]
theorem State.sameData.service (t : Nat) : u.service t = s.service t := by
  have hcfg : u.rget .VCH_CFG t = s.rget .VCH_CFG t := h.regs _ (.inr rfl) t
  have hfget : u.fget F.VCH_CFG_CMODE t = s.fget F.VCH_CFG_CMODE t := congrArg (fun w : Word => bits w.toNat 0 0) hcfg
  rw [State.service, hfget, State.service]

/-! ### Reads answer alike -/

theorem State.sameData.atomRead (da src ondie : Nat) :
    (s.atomRead da src ondie).1.sameData (u.atomRead da src ondie).1 ∧ (u.atomRead da src ondie).2 = (s.atomRead da src ondie).2 := by
  unfold State.atomRead
  dsimp only
  rw [h.atomPlace, h.atomLook, h.soft, h.service]
  have hcount := fun c : Bool => State.sameData.ite (c = true) (h.beside (s.countCorrection_sameData (da / 2 ^ 32) (offRowKey (da % 2 ^ 32)))
    (u.countCorrection_sameData (da / 2 ^ 32) (offRowKey (da % 2 ^ 32)))) h
  refine ⟨State.sameData.foldl (fun s u p h => ?_) _ (.ite _ ((hcount _).writeBack _ _) (hcount _)), rfl⟩
  exact .ite _ (h.beside (s.recordUe_sameData _ _ _) (u.recordUe_sameData _ _ _)) h
theorem State.sameData.atomBytes (da k src : Nat) :
    (s.atomBytes da k src).1.sameData (u.atomBytes da k src).1 ∧ (u.atomBytes da k src).2 = (s.atomBytes da k src).2 := by
  obtain ⟨hdata, hread⟩ := (h.beside (s.note_sameData da false) (u.note_sameData da false)).atomRead da src 0
  refine ⟨hdata, ?_⟩
  unfold State.atomBytes
  dsimp only
  rw [hread]
omit h
theorem State.sameData.daReadGo (fuel : Nat) : ∀ {s u : State}, s.sameData u → ∀ da n src,
    (State.daReadGo fuel s da n src).1.sameData (State.daReadGo fuel u da n src).1 ∧
      (State.daReadGo fuel u da n src).2 = (State.daReadGo fuel s da n src).2 := by
  induction fuel with
  | zero => exact fun h _ _ _ => ⟨h, rfl⟩
  | succ fuel ih =>
    intro s u h da n src
    unfold State.daReadGo
    dsimp only
    split
    · exact ⟨h, rfl⟩
    · obtain ⟨hdata, hread⟩ := h.atomBytes da (min n (256 - da % 256)) src
      rw [hread]
      split
      · exact ⟨hdata, hread⟩
      · obtain ⟨hdata', hread'⟩ := ih hdata (da + min n (256 - da % 256)) (n - min n (256 - da % 256)) src
        exact ⟨hdata', by rw [hread']⟩
include h
theorem State.sameData.entryRead (ttab k dnum : Nat) :
    (s.entryRead ttab k dnum).1.sameData (u.entryRead ttab k dnum).1 ∧ (u.entryRead ttab k dnum).2 = (s.entryRead ttab k dnum).2 := by
  obtain ⟨hdata, hread⟩ := State.sameData.daReadGo ((ttab + 32 * k + 8) / 256 + 1 - (ttab + 32 * k) / 256) h (ttab + 32 * k) 8 4
  obtain ⟨hdata', hread'⟩ := State.sameData.daReadGo ((ttab + 32 * k + 8 + 24) / 256 + 1 - (ttab + 32 * k + 8) / 256) hdata (ttab + 32 * k + 8) 24 4
  refine ⟨hdata', ?_⟩
  unfold State.entryRead State.daRead
  dsimp only
  rw [hread, hread']
omit h
/-- A table that passes in one state passes in a state that holds the same bytes, with the same homes. -/
theorem State.sameData.tableCheck (n : Nat) : ∀ {s u : State}, s.sameData u → ∀ ttab k tiles dnum homes out,
    (State.tableCheck n s ttab k tiles dnum homes).2 = .inl out → (State.tableCheck n u ttab k tiles dnum homes).2 = .inl out := by
  induction n with
  | zero => exact fun _ _ _ _ _ _ _ hs => hs
  | succ n ih =>
    intro s u h ttab k tiles dnum homes out hs
    obtain ⟨hdata, hread⟩ := h.entryRead ttab k dnum
    unfold State.tableCheck at hs ⊢
    dsimp only at hs ⊢
    rw [hread]
    split at hs
    · cases hs
    · cases hs
    · next hbad => exact ih hdata _ _ _ _ _ _ hs

end

/-! ### The queues of the stops -/

/-- Every stop holds the same queue of tasklets. -/
def State.sameQueues (s u : State) : Prop := ∀ t, (u.stop t).queue = (s.stop t).queue
theorem State.sameQueues.trans {s u v : State} (h : s.sameQueues u) (h' : u.sameQueues v) : s.sameQueues v := fun t => (h' t).trans (h t)
theorem State.sameQueues_of_stops {s u : State} (h : u.stops = s.stops) : s.sameQueues u := fun t => by rw [State.stop_of_stops h]
theorem State.sameQueues_refl (s : State) : s.sameQueues s := fun _ => rfl
theorem State.setStop_sameQueues (s : State) {t : Nat} {p : Stop} (hp : p.queue = (s.stop t).queue) : s.sameQueues (s.setStop t p) := fun v => by
  by_cases h : v = t
  · rw [h, State.stop_setStop_same, hp]
  · rw [s.stop_setStop_other p h]
theorem State.foldl_sameQueues {α : Type} {f : State → α → State} (hf : ∀ (s : State) (a : α), s.sameQueues (f s a)) : ∀ (l : List α) (s : State), s.sameQueues (l.foldl f s)
  | [], s => s.sameQueues_refl
  | a :: l, s => (hf s a).trans (State.foldl_sameQueues hf l _)

theorem State.sameQueues.ite {s a b : State} (c : Prop) [Decidable c] (ha : s.sameQueues a) (hb : s.sameQueues b) : s.sameQueues (if c then a else b) := by
  split
  · exact ha
  · exact hb

theorem State.openRow_sameQueues (s : State) (t off : Nat) : s.sameQueues (s.openRow t off) := by
  refine s.setStop_sameQueues ?_
  split <;> rfl
theorem State.note_sameQueues (s : State) (da : Nat) (write : Bool) : s.sameQueues (s.note da write) := by
  unfold State.note State.block
  dsimp only
  split
  · split
    · exact s.openRow_sameQueues _ _
    · exact State.sameQueues_of_stops rfl
  · exact s.openRow_sameQueues _ _
theorem State.candidate_sameQueues (s : State) (t key : Nat) (ue : Bool) : s.sameQueues (s.candidate t key ue) := by
  have hset := s.setStop_sameQueues (t := t) (p := { s.stop t with track := (s.stop t).track.filter (·.1 ≠ key) }) rfl
  unfold State.candidate
  dsimp only
  split
  · exact hset.trans (State.sameQueues_of_stops rfl)
  · exact hset.trans (State.sameQueues_of_stops (State.raiseAs_keeps (φ := State.stops) (fun _ _ => rfl) _ _ _ _ _ _ _))
theorem State.trackAdd_sameQueues (s : State) (t key : Nat) : s.sameQueues (s.trackAdd t key) :=
  .ite _ (s.candidate_sameQueues t key false) (s.setStop_sameQueues rfl)
theorem State.countCorrection_sameQueues (s : State) (t key : Nat) : s.sameQueues (s.countCorrection t key) := by
  have hcount : s.sameQueues (((s.fadd F.VCH_CE_CNT_CE_CNT t 1).event F.VCH_STAT_CE t).bucketAdd t) :=
    State.sameQueues_of_stops (State.bucketAdd_keeps (φ := State.stops) (fun _ _ => rfl) (fun _ _ => rfl) _ t)
  exact hcount.trans (State.trackAdd_sameQueues _ t key)
theorem State.recordUe_sameQueues (s : State) (t da src : Nat) : s.sameQueues (s.recordUe t da src) := by
  unfold State.recordUe
  dsimp only
  refine State.sameQueues.trans (State.sameQueues_of_stops ?_) (State.candidate_sameQueues _ t _ true)
  rw [State.raiseAs_keeps (φ := State.stops) fun _ _ => rfl]
  rfl
theorem State.atomRead_sameQueues (s : State) (da src ondie : Nat) : s.sameQueues (s.atomRead da src ondie).1 := by
  have hback : ∀ (a : State) pl ws, a.sameQueues (a.writeBack pl ws) := fun a pl ws =>
    State.sameQueues_of_stops (State.writeBack_keeps (φ := State.stops) (fun _ _ => rfl) (fun _ _ => rfl) (fun _ _ => rfl) a pl ws)
  have hcount := fun c : Bool =>
    State.sameQueues.ite (c = true) (s.countCorrection_sameQueues (da / 2 ^ 32) (offRowKey (da % 2 ^ 32))) s.sameQueues_refl
  unfold State.atomRead
  dsimp only
  refine State.sameQueues.trans (.ite _ ((hcount _).trans (hback _ _ _)) (hcount _)) (State.foldl_sameQueues (fun a p => ?_) _ _)
  exact .ite _ (a.recordUe_sameQueues _ _ _) a.sameQueues_refl
theorem State.daReadGo_sameQueues (fuel : Nat) : ∀ (s : State) (da n src : Nat), s.sameQueues (State.daReadGo fuel s da n src).1 := by
  induction fuel with
  | zero => exact fun s _ _ _ => s.sameQueues_refl
  | succ fuel ih =>
    intro s da n src
    have hbytes : ∀ k, s.sameQueues (s.atomBytes da k src).1 := fun k =>
      (s.note_sameQueues da false).trans (State.atomRead_sameQueues _ da src 0)
    unfold State.daReadGo
    dsimp only
    split
    · exact s.sameQueues_refl
    · split
      · exact hbytes _
      · exact (hbytes _).trans (ih _ _ _ _)
theorem State.entryRead_sameQueues (s : State) (ttab k dnum : Nat) : s.sameQueues (s.entryRead ttab k dnum).1 :=
  (State.daReadGo_sameQueues _ s _ _ _).trans (State.daReadGo_sameQueues _ _ _ _ _)

end Sys2Proof.Machine
end

section
/-! DISPATCH, the release of a strict dispatch, and the refill of a tasklet queue (R66, R251, R253, R360, R462; log entry 38). -/

namespace Sys2Proof.Machine

/-! ### What a DISPATCH keeps -/

/-- The registers that a DISPATCH may write as it starts. -/
def startRegs : List Reg := vchRegs ++ [.LCK_NUM, .DET_CAUSE, .TSEQ_PBASE_LO, .TSEQ_PBASE_HI, .TSEQ_TVEC]
/-- A step of a DISPATCH that starts: the gates of the stops stay as they are, and few registers change. -/
structure State.begins (s u : State) : Prop where
  gate : u.gate = s.gate
  regs : s.sameRegs u startRegs

theorem State.begins_refl (s : State) : s.begins s := ⟨rfl, s.sameRegs_refl _⟩
theorem State.begins.trans {s u v : State} (h : s.begins u) (h' : u.begins v) : s.begins v := ⟨h'.gate.trans h.gate, h.regs.trans h'.regs⟩
theorem State.begins.calm {s u : State} (h : s.begins u) (hs : s.calm) : u.calm := hs.of_same h.gate h.regs (by decide)
theorem State.begins_of {s u : State} (hgate : u.gate = s.gate) (hregs : u.regs = s.regs) : s.begins u := ⟨hgate, State.sameRegs_of_regs _ hregs⟩
theorem State.begins_of_vch {s u : State} (hgate : u.gate = s.gate) (hregs : s.sameRegs u vchRegs) : s.begins u :=
  ⟨hgate, hregs.mono (List.subset_append_left _ _)⟩
theorem State.setStop_begins (s : State) (t : Nat) (p : Stop) : s.begins (s.setStop t p) := State.begins_of rfl rfl
theorem State.fput_begins (s : State) {f : Field} (hf : f.reg ∈ startRegs) (i v : Nat) : s.begins (s.fput f i v) := ⟨rfl, s.fput_sameRegs hf i v⟩
theorem State.fadd_begins (s : State) {f : Field} (hf : f.reg ∈ startRegs) (i n : Nat) : s.begins (s.fadd f i n) := ⟨rfl, s.fput_sameRegs hf i _⟩
theorem State.begins.ite {s a b : State} (c : Prop) [Decidable c] (ha : s.begins a) (hb : s.begins b) : s.begins (if c then a else b) := by
  split
  · exact ha
  · exact hb
/-- In a calm state a step follows on a step. -/
theorem State.calm.begins_then {s u v : State} (h : s.calm) (hu : s.begins u) (hv : u.calm → u.begins v) : s.begins v := hu.trans (hv (hu.calm h))

theorem State.entryRead_sameRegs (s : State) (ttab k dnum : Nat) : s.sameRegs (s.entryRead ttab k dnum).1 vchRegs :=
  (s.daRead_sameRegs _ _ _).trans (State.daRead_sameRegs _ _ _ _)
theorem State.calm.entryRead {s : State} (h : s.calm) (ttab k dnum : Nat) : s.begins (s.entryRead ttab k dnum).1 :=
  h.begins_then (State.begins_of_vch (h.daRead_gate _ _ _) (s.daRead_sameRegs _ _ _)) fun h' =>
    State.begins_of_vch (h'.daRead_gate _ _ _) (State.daRead_sameRegs _ _ _ _)
theorem State.calm.tableCheck (n : Nat) : ∀ {s : State}, s.calm → ∀ ttab k tiles dnum homes, s.begins (State.tableCheck n s ttab k tiles dnum homes).1 := by
  induction n with
  | zero => exact fun {s} _ _ _ _ _ _ => s.begins_refl
  | succ n ih =>
    intro s h ttab k tiles dnum homes
    have hread := h.entryRead ttab k dnum
    unfold State.tableCheck
    dsimp only
    split
    · exact hread
    · exact hread.trans (State.begins_of rfl rfl)
    · exact hread.trans (ih (hread.calm h) _ _ _ _ _)
/-- A table entry that reads uncorrectable stops the group. -/
theorem State.ueStop_begins (s : State) (t k status tile idx : Nat) : s.begins ((s.reportAt t k status tile idx 0).stopGroup k) :=
  State.begins_of
    ((State.stopGroup_keeps (φ := State.gate) (fun _ _ => rfl) _ k).trans (State.reportAt_keeps (φ := State.gate) (fun _ _ => rfl) s t k status tile idx 0))
    ((State.stopGroup_keeps (φ := State.regs) (fun _ _ => rfl) _ k).trans (State.reportAt_keeps (φ := State.regs) (fun _ _ => rfl) s t k status tile idx 0))
theorem State.calm.fillQueue (n : Nat) : ∀ {s : State}, s.calm → ∀ t k d, s.begins (State.fillQueue n s t k d) := by
  induction n with
  | zero => exact fun {s} _ _ _ _ => s.begins_refl
  | succ n ih =>
    intro s h t k d
    unfold State.fillQueue
    dsimp only
    split
    · exact s.begins_refl
    · have hread := h.entryRead d.ttab (s.stop t).scan k
      split
      · exact (hread.trans (State.setStop_begins _ t _)).trans (State.ueStop_begins _ _ _ _ _ _)
      · split
        · exact h.begins_then ((hread.trans (State.setStop_begins _ t _)).trans (State.setStop_begins _ t _)) fun h' => ih h' t k d
        · exact h.begins_then (hread.trans (State.setStop_begins _ t _)) fun h' => ih h' t k d
theorem State.fillQueue_sameRegs (n : Nat) : ∀ (s : State) t k d, s.sameRegs (State.fillQueue n s t k d) vchRegs := by
  induction n with
  | zero => exact fun s _ _ _ => s.sameRegs_refl _
  | succ n ih =>
    intro s t k d
    unfold State.fillQueue
    dsimp only
    split
    · exact s.sameRegs_refl _
    · have hread := s.entryRead_sameRegs d.ttab (s.stop t).scan k
      have hscan := hread.trans (State.setStop_sameRegs _ t { (s.entryRead d.ttab (s.stop t).scan k).1.stop t with scan := (s.stop t).scan + 1 } vchRegs)
      split
      · refine hscan.trans (State.sameRegs_of_regs _ ?_)
        rw [State.stopGroup_keeps (φ := State.regs) (fun _ _ => rfl), State.reportAt_keeps (φ := State.regs) (fun _ _ => rfl)]
      · split
        · exact (hscan.trans (State.setStop_sameRegs _ t _ vchRegs)).trans (ih _ t k d)
        · exact hscan.trans (ih _ t k d)

/-! ### A tile starts (R253) -/

/-- The tile stands at offset 0 of program `prog` in dispatch `k`, with an empty instruction cache and no tasklet. -/
structure State.tileReady (u : State) (t k : Nat) (released : Bool) (prog tvec : Nat) : Prop where
  disp : (u.eng t).disp = some k
  pc : (u.eng t).pc = 0
  lines : (u.eng t).lines = []
  task : (u.eng t).task = none
  active : (u.eng t).active = released
  base : u.rget .TSEQ_PBASE_LO t = BitVec.ofNat 32 prog
  tvec : u.rget .TSEQ_TVEC t = BitVec.ofNat 32 (tvec / 4 * 4)

/-- The program and the engine of a tile, set for a dispatch. -/
def State.tileSet (s : State) (t k : Nat) (d : Disp) (prog tvec : Nat) : State :=
  let s1 := (((s.rput .TSEQ_PBASE_LO t (BitVec.ofNat 32 prog)).rput .TSEQ_PBASE_HI t (BitVec.ofNat 32 (prog / 2 ^ 32))).rput
    .TSEQ_TVEC t (BitVec.ofNat 32 (tvec / 4 * 4)))
  s1.setEng t { s1.eng t with disp := some k, pc := 0, inHandler := false, trapMxs := false, task := none, epoch := (s1.eng t).epoch + 1
                              mark := (s1.eng t).arr.nextId, stall := none, noTask := false, steal := none, lines := []
                              active := d.released, wake := (s1.eng t).wake || (s1.eng t).power != .on }

section
variable {s : State} {t k : Nat} {d : Disp} {prog tvec : Nat}

theorem State.tileStart_eq (s : State) (t k : Nat) (d : Disp) (prog tvec : Nat) :
    s.tileStart t k d prog tvec =
      State.fillQueue d.ntask ((((s.tileSet t k d prog tvec).wantOn t).useTile t).setStop t
        { (s.tileSet t k d prog tvec).stop t with
          queue := [], scan := 0, tdc0 := (((s.tileSet t k d prog tvec).wantOn t).useTile t).fget F.TSK_TDC_TDC t, stage := [] }) t k d := rfl
theorem State.tileStart_tiles (s : State) (t k : Nat) (d : Disp) (prog tvec : Nat) :
    (s.tileStart t k d prog tvec).tiles = (s.tileSet t k d prog tvec).tiles := by
  rw [State.tileStart_eq, State.fillQueue_keeps (φ := State.tiles) (fun _ _ => rfl) (fun _ _ => rfl) (fun _ _ => rfl) (fun _ _ => rfl) (fun _ _ => rfl)
    (fun _ _ => rfl) (fun _ _ => rfl) (fun _ _ => rfl), State.setStop_keeps (φ := State.tiles) (fun _ _ => rfl),
    State.useTile_keeps (φ := State.tiles) (fun _ _ => rfl), State.wantOn_keeps (φ := State.tiles) (fun _ _ => rfl)]
theorem State.tileStart_sameRegs (s : State) (t k : Nat) (d : Disp) (prog tvec : Nat) :
    (s.tileSet t k d prog tvec).sameRegs (s.tileStart t k d prog tvec) vchRegs := by
  rw [State.tileStart_eq]
  refine State.sameRegs.trans (State.sameRegs_of_regs _ ?_) (State.fillQueue_sameRegs _ _ _ _ _)
  rw [State.setStop_keeps (φ := State.regs) (fun _ _ => rfl), State.useTile_keeps (φ := State.regs) (fun _ _ => rfl),
    State.wantOn_keeps (φ := State.regs) (fun _ _ => rfl)]
theorem State.tileSet_begins (s : State) (t k : Nat) (d : Disp) (prog tvec : Nat) : s.begins (s.tileSet t k d prog tvec) :=
  ⟨rfl, (((s.rput_sameRegs (by decide) t _).trans (State.rput_sameRegs _ (by decide) t _)).trans (State.rput_sameRegs _ (by decide) t _)).trans
    (State.setEng_sameRegs _ t _ _)⟩
theorem State.calm.tileStart (h : s.calm) (t k : Nat) (d : Disp) (prog tvec : Nat) : s.begins (s.tileStart t k d prog tvec) := by
  rw [State.tileStart_eq]
  refine h.begins_then ((s.tileSet_begins t k d prog tvec).trans (State.begins_of ?_ ?_)) fun h' => h'.fillQueue _ t k d
  · rw [State.setStop_keeps (φ := State.gate) (fun _ _ => rfl), State.useTile_keeps (φ := State.gate) (fun _ _ => rfl),
      State.wantOn_keeps (φ := State.gate) (fun _ _ => rfl)]
  · rw [State.setStop_keeps (φ := State.regs) (fun _ _ => rfl), State.useTile_keeps (φ := State.regs) (fun _ _ => rfl),
      State.wantOn_keeps (φ := State.regs) (fun _ _ => rfl)]

theorem State.tileReady.of_same {u v : State} {b : Bool} (h : u.tileReady t k b prog tvec) (heng : v.eng t = u.eng t)
    (hbase : v.rget .TSEQ_PBASE_LO t = u.rget .TSEQ_PBASE_LO t) (htvec : v.rget .TSEQ_TVEC t = u.rget .TSEQ_TVEC t) : v.tileReady t k b prog tvec := by
  obtain ⟨hdisp, hpc, hlines, htask, hactive, hb, ht⟩ := h
  exact ⟨by rw [heng, hdisp], by rw [heng, hpc], by rw [heng, hlines], by rw [heng, htask], by rw [heng, hactive], hbase.trans hb, htvec.trans ht⟩
theorem State.tileSet_ready (s : State) (t k : Nat) (d : Disp) (prog tvec : Nat) : (s.tileSet t k d prog tvec).tileReady t k d.released prog tvec := by
  have heng : (s.tileSet t k d prog tvec).eng t = _ := State.eng_setEng_same _ t _
  refine ⟨?_, ?_, ?_, ?_, ?_, ?_, State.rget_rput_same _ _ t _⟩
  · rw [heng]
  · rw [heng]
  · rw [heng]
  · rw [heng]
  · rw [heng]
  · exact (State.rget_rput_other _ _ (by simp)).trans ((State.rget_rput_other _ _ (by simp)).trans (State.rget_rput_same _ _ t _))
theorem State.tileReady.tileSet {v k' : Nat} {d' : Disp} {prog' tvec' : Nat} {b : Bool} (h : s.tileReady v k b prog tvec) (hv : v ≠ t) :
    (s.tileSet t k' d' prog' tvec').tileReady v k b prog tvec := by
  have hreg : ∀ r, (s.tileSet t k' d' prog' tvec').rget r v = s.rget r v := fun r =>
    (State.rget_rput_other _ _ fun hr => hv hr.2).trans ((State.rget_rput_other _ _ fun hr => hv hr.2).trans (State.rget_rput_other _ _ fun hr => hv hr.2))
  exact h.of_same (State.eng_setEng_other _ _ hv) (hreg _) (hreg _)
theorem State.tileReady.filled {u v : State} {b : Bool} {x : Nat} (h : u.tileReady x k b prog tvec) (htiles : v.tiles = u.tiles)
    (hregs : u.sameRegs v vchRegs) : v.tileReady x k b prog tvec :=
  h.of_same (State.eng_of_tiles htiles x) (hregs _ _ (by decide)) (hregs _ _ (by decide))
/-- Every tile of a list starts. -/
theorem State.foldl_tileStart_ready (k : Nat) (d : Disp) (prog tvec : Nat) {ts : List Nat} {v : Nat} (hv : v ∈ ts) (s : State) :
    (ts.foldl (fun a t => a.tileStart t k d prog tvec) s).tileReady v k d.released prog tvec := by
  have hset : ∀ (u : State), (u.tileStart v k d prog tvec).tileReady v k d.released prog tvec := fun u =>
    (u.tileSet_ready v k d prog tvec).filled (u.tileStart_tiles v k d prog tvec) (u.tileStart_sameRegs v k d prog tvec)
  refine foldl_of_mem (a := v) (P := fun u : State => u.tileReady v k d.released prog tvec) (fun u => hset u) (fun u b hu => ?_) ts s hv
  by_cases h : v = b
  · exact h ▸ hset u
  · exact (hu.tileSet h).filled (u.tileStart_tiles b k d prog tvec) (u.tileStart_sameRegs b k d prog tvec)
theorem State.calm.foldl_tileStart (k : Nat) (d : Disp) (prog tvec : Nat) : ∀ (ts : List Nat) {s : State}, s.calm →
    s.begins (ts.foldl (fun a t => a.tileStart t k d prog tvec) s)
  | [], s, _ => s.begins_refl
  | t :: ts, _, h => h.begins_then (h.tileStart t k d prog tvec) fun h' => State.calm.foldl_tileStart k d prog tvec ts h'
theorem State.foldl_tileStart_nextDisp (k : Nat) (d : Disp) (prog tvec : Nat) (ts : List Nat) (s : State) :
    (ts.foldl (fun a t => a.tileStart t k d prog tvec) s).nextDisp = s.nextDisp :=
  foldl_keeps State.nextDisp _ s ts fun a t =>
    State.tileStart_keeps (φ := State.nextDisp) (fun _ _ => rfl) (fun _ _ => rfl) (fun _ _ => rfl) (fun _ _ => rfl) (fun _ _ => rfl) (fun _ _ => rfl)
      (fun _ _ => rfl) (fun _ _ => rfl) (fun _ _ => rfl) (fun _ _ => rfl) (fun _ _ => rfl) a t k d prog tvec

end

/-! ### DISPATCH (R251, R253, R462) -/

section
variable {s : State} {q : Nat} {x : Descr}

/-- The table of a DISPATCH is checked. -/
abbrev State.tableOf (s : State) (x : Descr) : State × (List Nat ⊕ (Nat × Nat × Nat)) :=
  s.tableCheck (x.u 48 4) (x.u 40 8) 0 (groupTiles (x.u 16 16)) s.nextDisp []
/-- The dispatch `k` stands in the state. -/
def State.dispNamed (s : State) (k : Nat) (d : Disp) : State := { (s.setDisp k d) with nextDisp := k + 1 }
theorem State.dispNamed_begins (s : State) (k : Nat) (d : Disp) : s.begins (s.dispNamed k d) := State.begins_of rfl rfl
/-- It is numbered when lock-step mode numbers it. -/
def State.dispBegun (s : State) (k : Nat) (d : Disp) (lock : Bool) (mode : Nat) : State :=
  let s2 := if lock then (s.dispNamed k d).fadd F.LCK_NUM_NUM 0 1 else s.dispNamed k d
  if mode = 2 then s2.fput F.DET_CAUSE_CAUSE (groupLeader d.group) d.cause else s2
theorem State.dispBegun_begins (s : State) (k : Nat) (d : Disp) (lock : Bool) (mode : Nat) : s.begins (s.dispBegun k d lock mode) := by
  have hnum := State.begins.ite (lock = true) ((s.dispNamed_begins k d).trans (State.fadd_begins _ (f := F.LCK_NUM_NUM) (by decide) 0 1))
    (s.dispNamed_begins k d)
  exact .ite _ (hnum.trans (State.fput_begins _ (f := F.DET_CAUSE_CAUSE) (by decide) _ _)) hnum
theorem State.dispBegun_nextDisp (s : State) (k : Nat) (d : Disp) (lock : Bool) (mode : Nat) : (s.dispBegun k d lock mode).nextDisp = k + 1 := by
  unfold State.dispBegun
  dsimp only
  rw [ite_keeps State.nextDisp, State.fput_keeps (φ := State.nextDisp) fun _ _ => rfl, ite_self]
  cases lock <;> rfl
/-- A dispatch whose table passes starts each tile of its group. -/
theorem State.dispStart_eq {homes : List Nat} (htable : (s.tableOf x).2 = .inl homes) :
    ∃ d u, d.released = (x.u 52 1 != 2) ∧ (s.tableOf x).1.begins u ∧ u.nextDisp = s.nextDisp + 1 ∧
      s.dispStart q x = (groupTiles (x.u 16 16)).foldl (fun a t => a.tileStart t s.nextDisp d (x.u 32 8) (x.u 56 4)) u := by
  have hnext : (s.tableOf x).1.nextDisp = s.nextDisp := State.tableCheck_keeps (φ := State.nextDisp) (fun _ _ => rfl) (fun _ _ => rfl) (fun _ _ => rfl)
    (fun _ _ => rfl) (fun _ _ => rfl) (fun _ _ => rfl) (fun _ _ => rfl) (fun _ _ => rfl) _ _ _ _ _ _ _
  unfold State.dispStart
  dsimp only
  rw [htable]
  dsimp only
  rw [hnext]
  exact ⟨_, _, rfl, State.dispBegun_begins _ _ _ ((s.tableOf x).1.lck.live && (s.tableOf x).1.fget F.LCK_CFG_QP 0 == q) _,
    State.dispBegun_nextDisp _ _ _ _ _, rfl⟩

end

theorem State.markStarted_begins (s : State) (q : Nat) (d : Descr) : s.begins (s.markStarted q d) :=
  State.begins_of (State.markStarted_keeps (φ := State.gate) (fun _ _ => rfl) s q d) (State.markStarted_keeps (φ := State.regs) (fun _ _ => rfl) s q d)
theorem State.markStarted_sameData (s : State) (q : Nat) (d : Descr) : s.sameData (s.markStarted q d) where
  mem := State.markStarted_keeps (φ := State.mem) (fun _ _ => rfl) s q d
  synd := State.markStarted_keeps (φ := State.synd) (fun _ _ => rfl) s q d
  soft := State.markStarted_keeps (φ := State.soft) (fun _ _ => rfl) s q d
  regs r _ i := congrFun (congrFun (State.markStarted_keeps (φ := State.rget) (fun _ _ => rfl) s q d) r) i
theorem State.running_sameData (s : State) (c : Instr) : s.sameData (s.running c) := ⟨rfl, rfl, rfl, fun _ _ _ => rfl⟩
/-- What a DISPATCH means once it is sent (R251). -/
def State.dispatchGo (s : State) (qp idx : Nat) : State :=
  match s.descr qp idx with
  | none => s
  | some d =>
    if d.type ≠ 1 then s.withDescr qp idx [1] (fun s _ => s)
    else if !s.mayStart qp d then s
    else
      match s.dispVerdict qp d with
      | some e => if e = stBAD_GROUP && (groupTiles (d.u 16 16)).any s.inRstScope then s
        else (s.markStarted qp d).complete qp (s.going d) e d.noResult
      | none =>
        let earlier := (s.cmd.waitDisp.takeWhile (· ≠ (qp, idx))).any (fun w =>
          ((s.descr w.1 w.2).map (fun x => decide (x.u 16 16 &&& d.u 16 16 ≠ 0))).getD false)
        if earlier || (groupTiles (d.u 16 16)).any s.tileBusy then s else (s.markStarted qp d).dispStart qp (s.going d)

section
variable {s : State} {qp idx : Nat} {d : Descr} (hdescr : s.descr qp idx = some d) (htype : d.type = 1) (hmay : s.mayStart qp d = true)
  (hverdict : s.dispVerdict qp d = none)
include hdescr htype hmay hverdict

theorem State.dispatchGo_busy (hbusy : (groupTiles (d.u 16 16)).any s.tileBusy = true) : s.dispatchGo qp idx = s := by
  simp only [State.dispatchGo, hdescr, htype, hmay, hverdict, hbusy, ne_eq, not_true_eq_false, if_false, Bool.not_true, Bool.false_eq_true,
    Bool.or_true, if_true]
theorem State.dispatchGo_starts (hbusy : (groupTiles (d.u 16 16)).any s.tileBusy = false) (hwait : s.cmd.waitDisp = []) :
    s.dispatchGo qp idx = (s.markStarted qp d).dispStart qp (s.going d) := by
  simp only [State.dispatchGo, hdescr, htype, hmay, hverdict, hbusy, hwait, ne_eq, not_true_eq_false, if_false, Bool.not_true, Bool.false_eq_true,
    List.takeWhile_nil, List.any_nil, Bool.or_self]

end

/-! ### The release of a strict dispatch (R360) -/

/-- The first issue is released at a tile that still works. -/
def State.releaseTile (x : Disp) (a : State) (t : Nat) : State :=
  if (a.eng t).fenced || (a.eng t).fence.isSome || bitOf x.done t then a else (a.setEng t { a.eng t with active := true }).useTile t
theorem State.releaseTile_eng_same {x : Disp} {a : State} {t : Nat} (hfenced : (a.eng t).fenced = false) (hfence : (a.eng t).fence = none)
    (hdone : bitOf x.done t = false) : (a.releaseTile x t).eng t = { a.eng t with active := true } := by
  rw [State.releaseTile, hfenced, hfence, hdone, Option.isSome_none, Bool.or_self, Bool.or_self, if_neg Bool.false_ne_true,
    State.eng_of_tiles (State.useTile_keeps (φ := State.tiles) (fun _ _ => rfl) _ t), State.eng_setEng_same]
theorem State.releaseTile_eng_other (x : Disp) (a : State) {t v : Nat} (h : v ≠ t) : (a.releaseTile x t).eng v = a.eng v := by
  unfold State.releaseTile
  split
  · rfl
  · rw [State.eng_of_tiles (State.useTile_keeps (φ := State.tiles) (fun _ _ => rfl) _ t), a.eng_setEng_other _ h]
theorem State.releaseTile_disps (x : Disp) (a : State) (t : Nat) : (a.releaseTile x t).disps = a.disps := by
  unfold State.releaseTile
  split
  · rfl
  · rw [State.useTile_keeps (φ := State.disps) (fun _ _ => rfl), State.setEng_keeps (φ := State.disps) fun _ _ => rfl]
/-- A tile of the group that works is active after the release. -/
theorem State.foldl_releaseTile_eng {x : Disp} {s : State} {t : Nat} (hfenced : (s.eng t).fenced = false) (hfence : (s.eng t).fence = none)
    (hdone : bitOf x.done t = false) {ts : List Nat} (ht : t ∈ ts) : (ts.foldl (State.releaseTile x) s).eng t = { s.eng t with active := true } := by
  refine State.foldl_eng_of_mem (I := fun e => e = s.eng t ∨ e = { s.eng t with active := true }) (P := fun e => e = { s.eng t with active := true })
    _ ?_ (fun u a h => u.releaseTile_eng_other x h) (fun _ => .inr) ts s (.inl rfl) (.inl ht)
  rintro u (hu | hu)
  · rw [State.releaseTile_eng_same (by rw [hu, hfenced]) (by rw [hu, hfence]) hdone, hu]
  · rw [State.releaseTile_eng_same (by rw [hu]; exact hfenced) (by rw [hu]; exact hfence) hdone, hu]
theorem State.detCause_disp {s : State} {k : Nat} {d : Disp} (h : s.disp k = some d) (b : Nat) :
    (s.detCause k b).disp k = some { d with cause := setBit d.cause b } := by
  simp only [State.detCause, h, State.disp_fput, State.disp_setDisp_same]
/-- The dispatch is marked as released; tiles in different P-states leave a cause. -/
def State.releaseMarked (s : State) (k : Nat) (x : Disp) : State :=
  let s1 := s.setDisp k { x with released := true, startMc := s.clk.mc }
  if (groupTiles x.group).all (fun t => s.fget F.TPW_PSTATE_CUR t = s.fget F.TPW_PSTATE_CUR (groupLeader x.group)) then s1 else s1.detCause k 6
theorem State.releaseMarked_disp (s : State) (k : Nat) (x : Disp) :
    ∃ y, (s.releaseMarked k x).disp k = some y ∧ y.released = true ∧ y.startMc = s.clk.mc := by
  have hset := s.disp_setDisp_same k { x with released := true, startMc := s.clk.mc }
  unfold State.releaseMarked
  dsimp only
  split
  · exact ⟨_, hset, rfl, rfl⟩
  · exact ⟨_, State.detCause_disp hset 6, rfl, rfl⟩
theorem State.releaseMarked_tiles (s : State) (k : Nat) (x : Disp) : (s.releaseMarked k x).tiles = s.tiles := by
  unfold State.releaseMarked
  dsimp only
  split
  · rfl
  · exact State.detCause_keeps (φ := State.tiles) (fun _ _ => rfl) (fun _ _ => rfl) _ k 6
theorem execStrictRelease_ready {s : State} {k : Nat} {x : Disp} (hdisp : s.disp k = some x) (hrun : x.running = true) (hstrict : x.strict = true)
    (hrel : x.released = false) (hready : ∀ t, t ∈ groupTiles x.group → (s.eng t).power = .on ∧ s.fillLevel t ≤ s.fget F.TPW_I_I_NOW t)
    (haligned : s.flag F.DET_CFG_ALIGN (groupLeader x.group) = true → s.clk.mc % s.alignMc (groupLeader x.group) = 0) :
    execStrictRelease k s = .next ((groupTiles x.group).foldl (State.releaseTile x) (s.releaseMarked k x)) := by
  have hall : (groupTiles x.group).all (fun t => (s.eng t).power == .on && decide (s.fillLevel t ≤ s.fget F.TPW_I_I_NOW t)) = true :=
    List.all_eq_true.mpr fun t ht => by simp [hready t ht]
  have hgrid : (!s.flag F.DET_CFG_ALIGN (groupLeader x.group) || s.clk.mc % s.alignMc (groupLeader x.group) == 0) = true := by
    cases hflag : s.flag F.DET_CFG_ALIGN (groupLeader x.group) with
    | false => rfl
    | true => simp [haligned hflag]
  have hpass : (x.running && x.strict && !x.released &&
      (groupTiles x.group).all (fun t => (s.eng t).power == .on && decide (s.fillLevel t ≤ s.fget F.TPW_I_I_NOW t)) &&
      (!s.flag F.DET_CFG_ALIGN (groupLeader x.group) || s.clk.mc % s.alignMc (groupLeader x.group) == 0)) = true := by
    rw [hrun, hstrict, hrel, hall, hgrid]
    rfl
  unfold execStrictRelease
  rw [hdisp]
  dsimp only
  rw [hpass]
  rfl

/-! ### The refill of a queue (R66) -/

section
variable {s : State} {t k : Nat} {d : Disp}

/-- The next entry of the table has been read and counted. -/
def State.scanned (s : State) (t k : Nat) (d : Disp) : State :=
  let r := (s.entryRead d.ttab (s.stop t).scan k).1
  r.setStop t { r.stop t with scan := (s.stop t).scan + 1 }
/-- And it stands in the queue. -/
def State.refilled (s : State) (t k : Nat) (d : Disp) (x : Task) : State :=
  (s.scanned t k d).setStop t { (s.scanned t k d).stop t with queue := ((s.entryRead d.ttab (s.stop t).scan k).1.stop t).queue ++ [x] }
theorem State.fillQueue_one {en : Entry} (hroom : (s.stop t).queue.length < 1024) (hscan : d.ntask = (s.stop t).scan + 1)
    (hread : (s.entryRead d.ttab (s.stop t).scan k).2 = en) (hue : en.ue = false) (hhome : en.home = some t) :
    State.fillQueue 1 s t k d = s.refilled t k d en.task := by
  have hmore : (decide (1024 ≤ (s.stop t).queue.length) || decide (d.ntask ≤ (s.stop t).scan)) = false := by
    simp only [Bool.or_eq_false_iff, decide_eq_false_iff_not]
    omega
  simp only [State.fillQueue, hmore, hread, hue, hhome, Bool.false_eq_true, if_false, if_true]
  rfl
theorem State.refilled_stop (s : State) (t k : Nat) (d : Disp) (x : Task) :
    ((s.refilled t k d x).stop t).queue = (s.stop t).queue ++ [x] ∧ ((s.refilled t k d x).stop t).scan = (s.stop t).scan + 1 := by
  have hqueue := s.entryRead_sameQueues d.ttab (s.stop t).scan k t
  constructor
  · rw [State.refilled, State.stop_setStop_same, hqueue]
  · rw [State.refilled, State.stop_setStop_same, State.scanned, State.stop_setStop_same]
theorem State.refilled_keeps {β : Type} {φ : State → β} (hregs : Ign.regs φ) (hmem : Ign.mem φ) (hsynd : Ign.synd φ) (hsoft : Ign.soft φ)
    (hstops : Ign.stops φ) (hgate : Ign.gate φ) (hflt : Ign.flt φ) (s : State) (t k : Nat) (d : Disp) (x : Task) : φ (s.refilled t k d x) = φ s := by
  rw [State.refilled, State.setStop_keeps hstops, State.scanned, State.setStop_keeps hstops, State.entryRead_keeps hregs hmem hsynd hsoft hstops hgate hflt]
theorem State.refilled_disp (s : State) (t k : Nat) (d : Disp) (x : Task) : (s.refilled t k d x).disp k = s.disp k :=
  State.refilled_keeps (φ := fun u : State => u.disp k) (fun _ _ => rfl) (fun _ _ => rfl) (fun _ _ => rfl) (fun _ _ => rfl) (fun _ _ => rfl)
    (fun _ _ => rfl) (fun _ _ => rfl) s t k d x
theorem State.refilled_eng (s : State) (t k : Nat) (d : Disp) (x : Task) : (s.refilled t k d x).eng t = s.eng t :=
  State.refilled_keeps (φ := fun u : State => u.eng t) (fun _ _ => rfl) (fun _ _ => rfl) (fun _ _ => rfl) (fun _ _ => rfl) (fun _ _ => rfl)
    (fun _ _ => rfl) (fun _ _ => rfl) s t k d x
theorem State.calm.refilled (h : s.calm) (t k : Nat) (d : Disp) (x : Task) : s.begins (s.refilled t k d x) :=
  ((h.entryRead d.ttab (s.stop t).scan k).trans (State.setStop_begins _ t _)).trans (State.setStop_begins _ t _)

/-- What a refill means once it is sent. -/
def State.refillGo (s : State) (t : Nat) : State :=
  match s.tileDisp t with
  | none => s
  | some (k, d) => if d.running && !d.stopped then (State.fillQueue (d.ntask - (s.stop t).scan) s t k d).dispCheck k else s
theorem State.refillGo_one {en : Entry} (hdisp : s.tileDisp t = some (k, d)) (hrun : d.running = true) (hstop : d.stopped = false)
    (hroom : (s.stop t).queue.length < 1024) (hscan : d.ntask = (s.stop t).scan + 1) (ht : t ∈ groupTiles d.group) (hdone : bitOf d.done t = false)
    (hfenced : (s.eng t).fenced = false) (hread : (s.entryRead d.ttab (s.stop t).scan k).2 = en) (hue : en.ue = false) (hhome : en.home = some t) :
    s.refillGo t = s.refilled t k d en.task := by
  have hone : d.ntask - (s.stop t).scan = 1 := by omega
  have hd : (s.refilled t k d en.task).disp k = some d := (s.refilled_disp t k d en.task).trans ((s.tileDisp_some_iff t k d).mp hdisp).2
  have hwork : ((s.refilled t k d en.task).eng t).fenced = false := by rw [State.refilled_eng, hfenced]
  simp only [State.refillGo, hdisp, hrun, hstop, Bool.not_false, Bool.and_self, if_true, hone]
  rw [State.fillQueue_one hroom hscan hread hue hhome, State.dispCheck_of_working hd ht hdone hwork]

end

/-- Settles O12 (R66, R251, R253, R360; log entry 38): DISPATCH, the release of a strict dispatch, the refill of a queue. -/
theorem dispatchResults : Obligations.DispatchResults := by
  unfold Obligations.DispatchResults
  intro s hopen
  refine ⟨?_, ?_, ?_⟩
  · intro qp idx d hdescr htype hmay hwait
    refine ⟨fun hverdict hbusy => ?_, fun hverdict hbusy homes htable => ?_⟩
    · have hexec : exec (.dispatch qp idx) s = .next (s.settle (.dispatch qp idx) (·.dispatchGo qp idx)) := rfl
      have hgo := State.dispatchGo_busy (s := s.running (.dispatch qp idx)) hdescr htype hmay hverdict hbusy
      rw [hexec, State.settle_of_eq hopen _ _ hgo rfl]
      rfl
    · have hexec : exec (.dispatch qp idx) s = .next (s.settle (.dispatch qp idx) (·.dispatchGo qp idx)) := rfl
      have hcalm := (State.markStarted_begins (s.running (.dispatch qp idx)) qp d).calm (State.running_calm hopen (.dispatch qp idx))
      have hpass : (((s.running (.dispatch qp idx)).markStarted qp d).tableOf (s.going d)).2 = .inl homes :=
        State.sameData.tableCheck _ ((s.running_sameData _).beside (s.markStarted_sameData qp d) (State.markStarted_sameData _ qp d)) _ _ _ _ _ _ htable
      obtain ⟨x, u, hrel, hbegins, hnext, hstart⟩ := State.dispStart_eq (q := qp) hpass
      have hgo := State.dispatchGo_starts (s := s.running (.dispatch qp idx)) hdescr htype hmay hverdict hbusy hwait
      have hu := (hcalm.tableCheck _ _ _ _ _ _).trans hbegins
      have hend := hu.trans (State.calm.foldl_tileStart (((s.running (.dispatch qp idx)).markStarted qp d).nextDisp) x (d.u 32 8) (d.u 56 4)
        (groupTiles (d.u 16 16)) (hu.calm hcalm))
      have hmark : ((s.running (.dispatch qp idx)).markStarted qp d).nextDisp = s.nextDisp :=
        State.markStarted_keeps (φ := State.nextDisp) (fun _ _ => rfl) _ qp d
      rw [hmark] at hstart hnext hend
      refine ⟨_, hexec.trans (congrArg Host.Outcome.next (State.settle_of_eq hopen _ _ (hgo.trans hstart) ?_)), ?_, fun t ht => ?_⟩
      · exact hend.gate.trans (State.markStarted_begins _ qp d).gate
      · exact (State.foldl_tileStart_nextDisp _ _ _ _ _ _).trans hnext
      · obtain ⟨hdisp, hpc, hlines, htask, hactive, hbase, htvec⟩ := State.foldl_tileStart_ready s.nextDisp x (d.u 32 8) (d.u 56 4) ht u
        exact ⟨hdisp, hpc, hlines, htask, hactive.trans hrel, hbase, htvec⟩
  · intro k x hdisp hrun hstrict hrel hready haligned
    refine ⟨_, execStrictRelease_ready hdisp hrun hstrict hrel hready haligned, ?_, fun t ht hfenced hfence hdone => ?_⟩
    · rw [State.disp, foldl_keeps State.disps _ _ _ (State.releaseTile_disps x)]
      exact s.releaseMarked_disp k x
    · have heng : (s.releaseMarked k x).eng t = s.eng t := State.eng_of_tiles (s.releaseMarked_tiles k x) t
      rw [State.foldl_releaseTile_eng (by rw [heng, hfenced]) (by rw [heng, hfence]) hdone ht, heng]
  · intro t k d hdisp hrun hstop hroom hscan ht hdone hfenced en hen hue hhome
    have hexec : exec (.taskletQueueRefill t) s = .next (s.settle (.taskletQueueRefill t) (·.refillGo t)) := rfl
    have hread := ((s.running_sameData (.taskletQueueRefill t)).entryRead d.ttab (s.stop t).scan k).2.trans hen
    have hgo := State.refillGo_one (s := s.running (.taskletQueueRefill t)) hdisp hrun hstop hroom hscan ht hdone hfenced hread hue hhome
    have hcalm := State.running_calm hopen (.taskletQueueRefill t)
    obtain ⟨hqueue, hcount⟩ := (s.running (.taskletQueueRefill t)).refilled_stop t k d en.task
    exact ⟨_, hexec.trans (congrArg Host.Outcome.next (State.settle_of_eq hopen _ _ hgo (hcalm.refilled t k d en.task).gate)), hqueue,
      hcount.trans hscan.symm⟩

end Sys2Proof.Machine
end

section
/-! Banks of a scratchpad: their owners, their SECURE bits, hand-over and wipes, one bank beside the others (R106, R111 to R114). -/

namespace Sys2Proof.Machine

/-! ### Bits of a register word -/

theorem bitOf_setBit (n k b : Nat) : bitOf (setBit n k) b = (bitOf n b || b == k) := by
  by_cases h : b = k
  · rw [h, bitOf_setBit_same, beq_self_eq_true, Bool.or_true]
  · rw [bitOf_setBit_other n h, beq_false_of_ne h, Bool.or_false]
theorem clrBit_eq_setBits (n k : Nat) : clrBit n k = setBits n k k 0 := by
  have hmod : n / 2 ^ k % 2 = 0 ∨ n / 2 ^ k % 2 = 1 := by omega
  rcases hmod with h | h <;> simp [clrBit, setBits, bits, bitOf, h]
theorem bitOf_clrBit (n k b : Nat) : bitOf (clrBit n k) b = (bitOf n b && b != k) := by
  rw [bitOf_eq_testBit, bitOf_eq_testBit, clrBit_eq_setBits, setBits_testBit n k k 0 b le_rfl]
  by_cases h : b = k
  · rw [if_pos (by omega), h, bne_self_eq_false, Bool.and_false, Nat.zero_testBit]
  · rw [if_neg (by omega), bne_iff_ne.mpr h, Bool.and_true]
theorem clrBit_le (n k : Nat) : clrBit n k ≤ n := by
  unfold clrBit
  split
  · exact Nat.sub_le _ _
  · exact le_rfl
/-- A word with one bit set, read back. -/
theorem bitOf_word_setBit (w : Word) {k : Nat} (hk : k < 32) (b : Nat) :
    bitOf (BitVec.ofNat 32 (setBit w.toNat k)).toNat b = (bitOf w.toNat b || b == k) := by
  rw [BitVec.toNat_ofNat, Nat.mod_eq_of_lt (setBit_lt w.isLt hk), bitOf_setBit]
/-- A word with one bit cleared, read back. -/
theorem bitOf_word_clrBit (w : Word) (k b : Nat) : bitOf (BitVec.ofNat 32 (clrBit w.toNat k)).toNat b = (bitOf w.toNat b && b != k) := by
  rw [BitVec.toNat_ofNat, Nat.mod_eq_of_lt (Nat.lt_of_le_of_lt (clrBit_le _ k) w.isLt), bitOf_clrBit]

/-! ### Events -/

/-- An event of a register sets no flag below SEQ back. -/
theorem State.flag_event_mono (s : State) (f g : Field) (i j : Nat) (hf : f.lo < 16) (hg : g.lo < 16) (hhi : g.hi = g.lo) (hfhi : f.hi = f.lo)
    (hfa : f.app ≠ .staged) (ha : g.app ≠ .staged) (h : s.flag g j = true) : (s.event f i).flag g j = true := by
  by_cases hreg : g.reg = f.reg ∧ j = i
  · obtain ⟨hreg, rfl⟩ := hreg
    by_cases hlo : g.lo = f.lo
    · have hgf : (s.event f j).fget g j = (s.event f j).fget f j := by
        rw [State.fget, State.fget, if_neg ha, if_neg hfa, hreg, hhi, hfhi, hlo]
      rw [State.flag, hgf, State.fget_event_same s f j hf hfhi hfa]
      rfl
    · rw [State.flag_event_beside s j hreg hf hg hhi hlo ha, h]
  · rw [State.flag, State.fget_event_other s f g i j hreg]
    exact h

/-! ### A pass over banks or words -/

/-- A range names `i` once. -/
theorem range_split {i n : Nat} (hi : i < n) : ∃ l₁ l₂, List.range n = l₁ ++ i :: l₂ ∧ ∀ j, j ∈ l₁ ∨ j ∈ l₂ → j < n ∧ j ≠ i := by
  obtain ⟨l₁, l₂, hsplit⟩ := List.append_of_mem (List.mem_range.mpr hi)
  have hnodup := hsplit ▸ List.nodup_range (n := n)
  rw [List.nodup_append, List.nodup_cons] at hnodup
  obtain ⟨-, ⟨hi₂, -⟩, hdisj⟩ := hnodup
  refine ⟨l₁, l₂, hsplit, fun j hj => ⟨List.mem_range.mp ?_, ?_⟩⟩
  · rw [hsplit, List.mem_append, List.mem_cons]
    exact hj.imp_right .inr
  · exact hj.elim (fun h₁ => hdisj j h₁ i List.mem_cons_self) (fun h₂ heq => hi₂ (heq ▸ h₂))
/-- A fold over a range visits `i` once: what every other step keeps is kept before and after it. -/
theorem foldl_range_visits {σ : Type} {K : σ → σ → Prop} {g : σ → Nat → σ} {n i : Nat} (hrefl : ∀ s, K s s)
    (htrans : ∀ s u v, K s u → K u v → K s v) (hi : i < n) (hg : ∀ s j, j < n → j ≠ i → K s (g s j)) (s : σ) :
    ∃ a, K s a ∧ K (g a i) ((List.range n).foldl g s) := by
  have hkeep : ∀ (l : List Nat) (s : σ), (∀ j ∈ l, j < n ∧ j ≠ i) → K s (l.foldl g s) := fun l => by
    induction l with
    | nil => exact fun s _ => hrefl s
    | cons j l ih =>
      intro s h
      obtain ⟨⟨hlt, hne⟩, hl⟩ := List.forall_mem_cons.mp h
      exact htrans _ _ _ (hg s j hlt hne) (ih _ hl)
  obtain ⟨l₁, l₂, hsplit, hother⟩ := range_split hi
  refine ⟨l₁.foldl g s, hkeep l₁ s fun j hj => hother j (.inl hj), ?_⟩
  rw [hsplit, List.foldl_append, List.foldl_cons]
  exact hkeep l₂ _ fun j hj => hother j (.inr hj)

/-! ### What concerns one bank -/

/-- Bank `b` of tile `t` stands in `u` as in `s`: its owner, its SECURE bit, its hand-over and its wipe; a refused owner write stays recorded, and
a staging buffer that is invalid stays so. -/
structure State.sameBank (s u : State) (t b : Nat) : Prop where
  owner : u.owner t b = s.owner t b
  secure : u.secureBank t b = s.secureBank t b
  busy : bitOf (u.rget .SPM_HOSTATE t).toNat b = bitOf (s.rget .SPM_HOSTATE t).toNat b
  hand : SMap.find (u.eng t).hand b = SMap.find (s.eng t).hand b
  wiping : (u.eng t).wiping.contains b = (s.eng t).wiping.contains b
  unsecure : (u.eng t).unsecure.contains b = (s.eng t).unsecure.contains b
  power : (u.eng t).power = (s.eng t).power
  conf : u.conf = s.conf
  denied : s.flag F.SPM_STAT_DENIED t = true → u.flag F.SPM_STAT_DENIED t = true
  stage : (s.stop t).stage = [] → (u.stop t).stage = []

theorem State.sameBank_refl (s : State) (t b : Nat) : s.sameBank s t b := ⟨rfl, rfl, rfl, rfl, rfl, rfl, rfl, rfl, id, id⟩
theorem State.sameBank.trans {s u v : State} {t b : Nat} (h : s.sameBank u t b) (h' : u.sameBank v t b) : s.sameBank v t b :=
  ⟨h'.owner.trans h.owner, h'.secure.trans h.secure, h'.busy.trans h.busy, h'.hand.trans h.hand, h'.wiping.trans h.wiping,
    h'.unsecure.trans h.unsecure, h'.power.trans h.power, h'.conf.trans h.conf, h'.denied ∘ h.denied, h'.stage ∘ h.stage⟩
theorem State.sameBank.ite {s a b : State} {t k : Nat} (c : Prop) [Decidable c] (ha : s.sameBank a t k) (hb : s.sameBank b t k) :
    s.sameBank (if c then a else b) t k := by
  split
  · exact ha
  · exact hb

/-! What the registers, the engine and the stop of a tile say of its banks. -/

theorem State.sameRegs.owner {s u : State} {l : List Reg} (h : s.sameRegs u l) (h0 : .SPM_OWN0 ∉ l) (h1 : .SPM_OWN1 ∉ l) (t b : Nat) :
    u.owner t b = s.owner t b := by
  rw [State.owner, State.owner, h _ _ h0, h _ _ h1]
theorem State.sameRegs.secureBank {s u : State} {l : List Reg} (h : s.sameRegs u l) (hl : .SPM_SECURE ∉ l) (t b : Nat) :
    u.secureBank t b = s.secureBank t b := by
  rw [State.secureBank, State.secureBank, h _ _ hl]
theorem State.sameRegs.conf {s u : State} {l : List Reg} (h : s.sameRegs u l) (hl : .SEC_CONF ∉ l) : u.conf = s.conf := by
  rw [State.conf, State.conf, h.fget F.SEC_CONF_ACTIVE 0 hl (by decide)]
/-- A change of the registers outside `l` and of nothing else. -/
theorem State.sameRegs.sameBank {s u : State} {l : List Reg} (h : s.sameRegs u l)
    (hl : ∀ r, r ∈ [Reg.SPM_OWN0, .SPM_OWN1, .SPM_SECURE, .SPM_HOSTATE, .SPM_STAT, .SEC_CONF] → r ∉ l) (htiles : u.tiles = s.tiles)
    (hstops : u.stops = s.stops) (t b : Nat) : s.sameBank u t b := by
  have heng := State.eng_of_tiles htiles t
  exact ⟨h.owner (hl _ (by decide)) (hl _ (by decide)) t b, h.secureBank (hl _ (by decide)) t b, by rw [h _ _ (hl _ (by decide))], by rw [heng],
    by rw [heng], by rw [heng], by rw [heng], h.conf (hl _ (by decide)),
    fun hd => (h.flag F.SPM_STAT_DENIED t (hl _ (by decide)) (by decide)).trans hd, fun hs => (congrArg Stop.stage (State.stop_of_stops hstops t)).trans hs⟩
/-- An engine that says the same of the bank, or another engine. -/
theorem State.setEng_sameBank (s : State) {v t b : Nat} {e : Eng} (h : t = v → SMap.find e.hand b = SMap.find (s.eng v).hand b ∧
      e.wiping.contains b = (s.eng v).wiping.contains b ∧ e.unsecure.contains b = (s.eng v).unsecure.contains b ∧ e.power = (s.eng v).power) :
    s.sameBank (s.setEng v e) t b := by
  by_cases hv : t = v
  · obtain ⟨hhand, hwiping, hunsecure, hpower⟩ := h hv
    subst hv
    exact ⟨rfl, rfl, rfl, by rw [State.eng_setEng_same, hhand], by rw [State.eng_setEng_same, hwiping], by rw [State.eng_setEng_same, hunsecure],
      by rw [State.eng_setEng_same, hpower], rfl, id, id⟩
  · have heng := s.eng_setEng_other e hv
    exact ⟨rfl, rfl, rfl, by rw [heng], by rw [heng], by rw [heng], by rw [heng], rfl, id, id⟩
/-- A stop whose staging buffer is invalid, or as it was. -/
theorem State.setStop_sameBank (s : State) {v : Nat} {p : Stop} (h : (s.stop v).stage = [] → p.stage = []) (t b : Nat) :
    s.sameBank (s.setStop v p) t b := by
  refine ⟨rfl, rfl, rfl, rfl, rfl, rfl, rfl, rfl, id, fun hs => ?_⟩
  by_cases hv : t = v
  · subst hv
    rw [State.stop_setStop_same]
    exact h hs
  · rw [State.stop_setStop_other s p hv, hs]
theorem State.denied_sameBank (s : State) (v t b : Nat) : s.sameBank (s.event F.SPM_STAT_DENIED v) t b := by
  have hregs : s.sameRegs (s.event F.SPM_STAT_DENIED v) [.SPM_STAT] := s.event_sameRegs (by decide) v
  exact ⟨hregs.owner (by decide) (by decide) t b, hregs.secureBank (by decide) t b, by rw [hregs _ _ (by decide)], rfl, rfl, rfl, rfl, hregs.conf (by decide),
    s.flag_event_mono _ _ _ _ (by decide) (by decide) (by decide) (by decide) (by decide) (by decide), id⟩
theorem State.zeroBank_sameBank (s : State) (v k t b : Nat) : s.sameBank (s.zeroBank v k) t b :=
  ⟨rfl, rfl, rfl, rfl, rfl, rfl, rfl, rfl, id, id⟩

/-! ### Owners (R106) -/

/-- The register that holds the owner of a bank, and the place of its field. -/
def ownReg (b : Nat) : Reg := if b < 8 then .SPM_OWN0 else .SPM_OWN1
theorem State.owner_eq {b : Nat} (s : State) (t : Nat) (hb : b < 16) : s.owner t b = bits (s.rget (ownReg b) t).toNat (4 * (b % 8) + 2) (4 * (b % 8)) := by
  unfold State.owner ownReg
  by_cases h : b < 8
  · rw [if_pos h, if_pos h, Nat.mod_eq_of_lt h]
  · rw [if_neg h, if_neg h, show b % 8 = b - 8 by omega]
theorem State.setOwner_eq {b : Nat} (s : State) (t : Nat) (hb : b < 16) (v : Nat) : s.setOwner t b v =
    s.rput (ownReg b) t (BitVec.ofNat 32 (setBits (s.rget (ownReg b) t).toNat (4 * (b % 8) + 2) (4 * (b % 8)) v)) := by
  unfold State.setOwner ownReg
  by_cases h : b < 8
  · rw [if_pos h, if_pos h, Nat.mod_eq_of_lt h]
  · rw [if_neg h, if_neg h, show b % 8 = b - 8 by omega]
theorem ownReg_mem (b : Nat) : ownReg b ∈ [Reg.SPM_OWN0, .SPM_OWN1] := by
  unfold ownReg
  split <;> decide
theorem State.setOwner_sameRegs (s : State) (t b v : Nat) : s.sameRegs (s.setOwner t b v) [.SPM_OWN0, .SPM_OWN1] :=
  .ite _ (s.rput_sameRegs (by decide) _ _) (s.rput_sameRegs (by decide) _ _)
theorem State.setOwner_tiles (s : State) (t b v : Nat) : (s.setOwner t b v).tiles = s.tiles :=
  setOwner_keeps (φ := State.tiles) (fun _ _ => rfl) s t b v
theorem State.setOwner_stops (s : State) (t b v : Nat) : (s.setOwner t b v).stops = s.stops :=
  setOwner_keeps (φ := State.stops) (fun _ _ => rfl) s t b v
theorem State.owner_setOwner_same (s : State) (t : Nat) {b : Nat} (hb : b < 16) (v : Nat) : (s.setOwner t b v).owner t b = v % 8 := by
  have hlt := setBits_lt (s.rget (ownReg b) t).toNat (4 * (b % 8) + 2) (4 * (b % 8)) v (by omega) (by omega) (BitVec.isLt _)
  rw [State.owner_eq _ t hb, State.setOwner_eq s t hb, State.rget_rput_same, BitVec.toNat_ofNat, Nat.mod_eq_of_lt hlt, bits_setBits_same _ _ _ _ (by omega),
    show 4 * (b % 8) + 2 + 1 - 4 * (b % 8) = 3 by omega]
  rfl
theorem State.owner_setOwner_other (s : State) {t v b k : Nat} (hb : b < 16) (hk : k < 16) (h : t ≠ v ∨ b ≠ k) (x : Nat) :
    (s.setOwner v k x).owner t b = s.owner t b := by
  have hlt := setBits_lt (s.rget (ownReg k) v).toNat (4 * (k % 8) + 2) (4 * (k % 8)) x (by omega) (by omega) (BitVec.isLt _)
  rw [State.owner_eq _ t hb, State.setOwner_eq s v hk, State.owner_eq _ t hb, State.rget_rput]
  split
  · next heq =>
    obtain ⟨hreg, rfl⟩ := heq
    have hhalf : b < 8 ↔ k < 8 := by
      have hiff : ∀ x, ownReg x = .SPM_OWN0 ↔ x < 8 := fun x => by simp [ownReg]
      rw [← hiff, ← hiff, hreg]
    rw [hreg, BitVec.toNat_ofNat, Nat.mod_eq_of_lt hlt, bits_setBits_other _ _ _ _ _ _ (by omega) (by omega)]
  · rfl
theorem State.setOwner_sameBank (s : State) {t v b k : Nat} (hb : b < 16) (hk : k < 16) (h : t ≠ v ∨ b ≠ k) (x : Nat) :
    s.sameBank (s.setOwner v k x) t b := by
  have hregs := s.setOwner_sameRegs v k x
  have heng := State.eng_of_tiles (s.setOwner_tiles v k x) t
  exact ⟨s.owner_setOwner_other hb hk h x, hregs.secureBank (by decide) t b, by rw [hregs _ _ (by decide)], by rw [heng], by rw [heng], by rw [heng],
    by rw [heng], hregs.conf (by decide), fun hd => (hregs.flag F.SPM_STAT_DENIED t (by decide) (by decide)).trans hd,
    fun hs => (congrArg Stop.stage (State.stop_of_stops (s.setOwner_stops v k x) t)).trans hs⟩

/-! ### `SPM_HOSTATE` (R111, R113) -/

theorem State.hostate_sameRegs (s : State) (t b : Nat) : s.sameRegs (s.hostate t b) [.SPM_HOSTATE] := s.rput_sameRegs (by decide) t _
/-- The bit of a bank shows its hand-over and its wipe; the others are left alone. -/
theorem State.hostate_bit (s : State) (t : Nat) {k : Nat} (hk : k < 32) (b : Nat) : bitOf ((s.hostate t k).rget .SPM_HOSTATE t).toNat b =
    if b = k then (SMap.find (s.eng t).hand k).isSome || (s.eng t).wiping.contains k else bitOf (s.rget .SPM_HOSTATE t).toNat b := by
  rw [State.hostate, State.rget_rput_same]
  split
  · next h =>
    rw [bitOf_word_setBit _ hk]
    split
    · next heq => rw [heq, h, beq_self_eq_true, Bool.or_true]
    · next hne => rw [beq_false_of_ne hne, Bool.or_false]
  · next h =>
    rw [bitOf_word_clrBit]
    split
    · next heq => rw [heq, bne_self_eq_false, Bool.and_false, Bool.eq_false_iff.mpr h]
    · next hne => rw [bne_iff_ne.mpr hne, Bool.and_true]
theorem State.hostate_sameBank (s : State) {t v b k : Nat} (hk : k < 32) (h : t ≠ v ∨ b ≠ k) : s.sameBank (s.hostate v k) t b := by
  have hregs := s.hostate_sameRegs v k
  refine ⟨hregs.owner (by decide) (by decide) t b, hregs.secureBank (by decide) t b, ?_, rfl, rfl, rfl, rfl, hregs.conf (by decide),
    fun hd => (hregs.flag F.SPM_STAT_DENIED t (by decide) (by decide)).trans hd, id⟩
  by_cases hv : t = v
  · subst hv
    rw [State.hostate_bit s t hk, if_neg (h.resolve_left (fun hne => hne rfl))]
  · rw [State.hostate, State.rget_rput_other _ _ (fun heq => hv heq.2)]

/-! ### Wipes (R113) -/

/-- The engine with the wipe of a bank begun. -/
def Eng.wipes (e : Eng) (b : Nat) : Eng := { e with wiping := if e.wiping.contains b then e.wiping else e.wiping ++ [b] }
theorem Eng.wipes_same (e : Eng) (b : Nat) : (e.wipes b).wiping.contains b = true := by
  unfold Eng.wipes
  split
  · assumption
  · simp
theorem Eng.wipes_other (e : Eng) {b k : Nat} (h : b ≠ k) : (e.wipes k).wiping.contains b = e.wiping.contains b := by
  unfold Eng.wipes
  split
  · rfl
  · simp [h]
/-- A wipe begins: an engine without contents clears its bank at once, one that has been gated clears it too (R113 to R115). -/
theorem State.wipeStart_cases (s : State) (t b : Nat) :
    ((s.eng t).power = .off ∨ (s.eng t).power = .fusedOff) ∧ s.wipeStart t b = s.zeroBank t b ∨
    ((s.eng t).power ≠ .off ∧ (s.eng t).power ≠ .fusedOff) ∧
      (s.wipeStart t b = (s.setEng t ((s.eng t).wipes b)).hostate t b ∨ s.wipeStart t b = ((s.setEng t ((s.eng t).wipes b)).hostate t b).zeroBank t b) := by
  by_cases hoff : (s.eng t).power = .off ∨ (s.eng t).power = .fusedOff
  · exact .inl ⟨hoff, if_pos hoff⟩
  · refine .inr ⟨not_or.mp hoff, ?_⟩
    by_cases hgated : (s.eng t).power = .lull2
    · exact .inr ((if_neg hoff).trans (if_pos hgated))
    · exact .inl ((if_neg hoff).trans (if_neg hgated))
/-- Another bank is left alone. -/
theorem State.wipeStart_sameBank (s : State) {t v b k : Nat} (hk : k < 32) (h : t ≠ v ∨ b ≠ k) : s.sameBank (s.wipeStart v k) t b := by
  have hwipes : s.sameBank (s.setEng v ((s.eng v).wipes k)) t b :=
    s.setEng_sameBank fun hv => ⟨rfl, (s.eng v).wipes_other (h.resolve_left (fun hne => hne hv)), rfl, rfl⟩
  have hbegun := hwipes.trans (State.hostate_sameBank _ hk h)
  rcases s.wipeStart_cases v k with ⟨-, heq⟩ | ⟨-, heq | heq⟩
  · rw [heq]
    exact s.zeroBank_sameBank v k t b
  · rw [heq]
    exact hbegun
  · rw [heq]
    exact hbegun.trans (State.zeroBank_sameBank _ v k t b)
/-- Of its own bank, a wipe that begins leaves the owner, the SECURE bit and what waits for the wipe. -/
theorem State.wipeStart_sameRegs (s : State) (t b : Nat) : s.sameRegs (s.wipeStart t b) [.SPM_HOSTATE] := by
  rcases s.wipeStart_cases t b with ⟨-, heq⟩ | ⟨-, heq | heq⟩ <;> rw [heq]
  · exact State.sameRegs_of_regs _ rfl
  · exact State.hostate_sameRegs _ t b
  · exact State.hostate_sameRegs _ t b
theorem State.wipeStart_unsecure (s : State) (t b : Nat) : ((s.wipeStart t b).eng t).unsecure = (s.eng t).unsecure := by
  have hwipes : ((s.setEng t ((s.eng t).wipes b)).eng t).unsecure = (s.eng t).unsecure := by rw [State.eng_setEng_same]; rfl
  rcases s.wipeStart_cases t b with ⟨-, heq⟩ | ⟨-, heq | heq⟩ <;> rw [heq]
  · rfl
  · exact hwipes
  · exact hwipes
theorem State.wipeStart_stop (s : State) (t b v : Nat) : (s.wipeStart t b).stop v = s.stop v :=
  wipeStart_keeps (φ := fun u => u.stop v) (fun _ _ => rfl) (fun _ _ => rfl) (fun _ _ => rfl) (fun _ _ => rfl) s t b
theorem State.wipeStart_wiping (s : State) {t : Nat} (b : Nat) (hoff : (s.eng t).power ≠ .off) (hfused : (s.eng t).power ≠ .fusedOff) :
    ((s.wipeStart t b).eng t).wiping.contains b = true := by
  have hwipes : ((s.setEng t ((s.eng t).wipes b)).eng t).wiping.contains b = true := by rw [State.eng_setEng_same, Eng.wipes_same]
  rcases s.wipeStart_cases t b with ⟨hpower, -⟩ | ⟨-, heq | heq⟩
  · exact absurd hpower (not_or.mpr ⟨hoff, hfused⟩)
  · rw [heq]
    exact hwipes
  · rw [heq]
    exact hwipes

end Sys2Proof.Machine
end

section
/-! The commands of the scratchpad banks (R106, R109, R111 to R117). -/

namespace Sys2Proof.Machine

theorem State.viaPort_passes {s : State} {f : Nat} {src : By} (h : s.passes f src) (k : State) : s.viaPort f src k = k := by
  cases src with
  | svc => rfl
  | host st =>
    obtain ⟨hopen, hheld⟩ := h
    simp [State.viaPort, hopen, hheld]

/-! ### SPM_OWNER_WRITE (R106, R111, R112) -/

/-- Requests of the class `old` that the stop holds stay admitted by bank `b` (R111). -/
def State.admitsHeld (s : State) (t b old : Nat) : State :=
  let mark (h : Held) : Held :=
    if old = (if h.from_ = 128 then OwnClass.svc else OwnClass.remote).code && !h.granted.contains b then { h with granted := b :: h.granted } else h
  s.setStop t { s.stop t with ingress := (s.stop t).ingress.map mark }
/-- A bank with a new owner, in hand-over from the class `old`. -/
def State.bankHandOver (s : State) (t b v old : Nat) : State :=
  let s1 := s.setOwner t b v
  ((s1.admitsHeld t b old).setEng t { s1.eng t with hand := SMap.put (s1.eng t).hand b old }).hostate t b
/-- What a write of one OWNER field does. -/
theorem State.ownerWrite_cases (s : State) (t b v : Nat) (host : Bool) :
    s.ownerWrite t b v host = s.event F.SPM_STAT_DENIED t ∧ (5 ≤ v ∨ (host && s.conf) = true) ∨ v < 5 ∧ s.owner t b = v ∧ s.ownerWrite t b v host = s ∨
    v < 5 ∧ s.owner t b ≠ v ∧ ((SMap.find (s.eng t).hand b).isSome = true ∧ s.ownerWrite t b v host = s.setOwner t b v ∨
      SMap.find (s.eng t).hand b = none ∧ s.ownerWrite t b v host = s.bankHandOver t b v (s.owner t b)) := by
  by_cases h5 : 5 ≤ v
  · exact .inl ⟨if_pos h5, .inl h5⟩
  by_cases hsame : s.owner t b = v
  · exact .inr (.inl ⟨by omega, hsame, (if_neg h5).trans (if_pos hsame)⟩)
  by_cases hdeny : (host && s.conf && s.secureBank t b) = true
  · exact .inl ⟨(if_neg h5).trans ((if_neg hsame).trans (if_pos hdeny)), .inr (Bool.and_eq_true _ _ ▸ hdeny).1⟩
  have hwrite : s.ownerWrite t b v host = if (SMap.find ((s.setOwner t b v).eng t).hand b).isSome = true then s.setOwner t b v
      else s.bankHandOver t b v (s.owner t b) := (if_neg h5).trans ((if_neg hsame).trans (if_neg hdeny))
  have heng : (s.setOwner t b v).eng t = s.eng t := State.eng_of_tiles (s.setOwner_tiles t b v) t
  refine .inr (.inr ⟨by omega, hsame, ?_⟩)
  by_cases hhand : (SMap.find (s.eng t).hand b).isSome = true
  · exact .inl ⟨hhand, hwrite.trans (if_pos (heng.symm ▸ hhand))⟩
  · exact .inr ⟨Option.not_isSome_iff_eq_none.mp hhand, hwrite.trans (if_neg (heng.symm ▸ hhand))⟩

section
variable {t b k : Nat} (hk : k < 16)

theorem State.bankHandOver_hand (s : State) (v old : Nat) : SMap.find ((s.bankHandOver t k v old).eng t).hand k = some old := by
  unfold State.bankHandOver State.hostate
  rw [State.eng_of_tiles (State.rput_tiles _ _ _ _), State.eng_setEng_same]
  exact SMap.find_put_same k old _

include hk

theorem State.bankHandOver_sameBank (s : State) (hb : b < 16) (h : b ≠ k) (v old : Nat) : s.sameBank (s.bankHandOver t k v old) t b := by
  have howner : s.sameBank (s.setOwner t k v) t b := s.setOwner_sameBank hb hk (.inr h) v
  have hheld : (s.setOwner t k v).sameBank ((s.setOwner t k v).admitsHeld t k old) t b := by
    refine State.setStop_sameBank _ ?_ t b
    exact id
  have hhand : ((s.setOwner t k v).admitsHeld t k old).sameBank (((s.setOwner t k v).admitsHeld t k old).setEng t
      { (s.setOwner t k v).eng t with hand := SMap.put ((s.setOwner t k v).eng t).hand k old }) t b :=
    State.setEng_sameBank _ fun _ => ⟨SMap.find_put_other old h _, rfl, rfl, rfl⟩
  exact ((howner.trans hheld).trans hhand).trans (State.hostate_sameBank _ (by omega) (.inr h))
/-- The write of one field leaves the other banks alone. -/
theorem State.ownerWrite_sameBank (s : State) (hb : b < 16) (h : b ≠ k) (v : Nat) (host : Bool) : s.sameBank (s.ownerWrite t k v host) t b := by
  rcases s.ownerWrite_cases t k v host with ⟨heq, -⟩ | ⟨-, -, heq⟩ | ⟨-, -, ⟨-, heq⟩ | ⟨-, heq⟩⟩ <;> rw [heq]
  · exact s.denied_sameBank t t b
  · exact s.sameBank_refl t b
  · exact s.setOwner_sameBank hb hk (.inr h) v
  · exact s.bankHandOver_sameBank hk hb h v _

theorem State.bankHandOver_owner (s : State) (v old : Nat) : (s.bankHandOver t k v old).owner t k = v % 8 :=
  ((State.hostate_sameRegs _ t k).owner (by decide) (by decide) t k).trans (s.owner_setOwner_same t hk v)
theorem State.bankHandOver_busy (s : State) (v old : Nat) : bitOf ((s.bankHandOver t k v old).rget .SPM_HOSTATE t).toNat k = true := by
  unfold State.bankHandOver
  rw [State.hostate_bit _ t (by omega), if_pos rfl, State.eng_setEng_same, SMap.find_put_same, Option.isSome_some, Bool.true_or]

/-- The bank of a written field: its new owner and its hand-over, or the refusal. -/
theorem State.ownerWrite_results (s : State) {v : Nat} {host : Bool} (hconf : (host && s.conf) = false) :
    let u := s.ownerWrite t k v host
    (v < 5 → v ≠ s.owner t k → u.owner t k = v ∧ (SMap.find (u.eng t).hand k).isSome = true ∧ (SMap.find (s.eng t).hand k = none →
      SMap.find (u.eng t).hand k = some (s.owner t k) ∧ bitOf (u.rget .SPM_HOSTATE t).toNat k = true)) ∧
    (5 ≤ v → u.owner t k = s.owner t k ∧ u.flag F.SPM_STAT_DENIED t = true) := by
  intro u
  refine ⟨fun hv hne => ?_, fun hv => ?_⟩
  · rcases s.ownerWrite_cases t k v host with ⟨-, h5 | hdeny⟩ | ⟨-, hsame, -⟩ | ⟨-, -, ⟨hhand, heq⟩ | ⟨hnone, heq⟩⟩
    · omega
    · exact absurd hdeny (by rw [hconf]; decide)
    · exact absurd hsame.symm hne
    · have heng : u.eng t = s.eng t := State.eng_of_tiles ((congrArg State.tiles heq).trans (s.setOwner_tiles t k v)) t
      refine ⟨?_, heng.symm ▸ hhand, fun hnone => absurd hhand (by rw [hnone]; decide)⟩
      rw [show u = s.setOwner t k v from heq, s.owner_setOwner_same t hk, Nat.mod_eq_of_lt (by omega)]
    · rw [show u = s.bankHandOver t k v (s.owner t k) from heq, s.bankHandOver_owner hk, s.bankHandOver_hand, s.bankHandOver_busy hk, Nat.mod_eq_of_lt (by omega)]
      exact ⟨rfl, rfl, fun _ => ⟨rfl, rfl⟩⟩
  · have heq : u = s.event F.SPM_STAT_DENIED t := if_pos hv
    rw [heq]
    exact ⟨(s.event_sameRegs (l := [.SPM_STAT]) (by decide) t).owner (by decide) (by decide) t k, s.flag_event_same _ t (by decide) (by decide) (by decide)⟩

end

/-- The eight fields of `SPM_OWN0` or `SPM_OWN1`, written one after the other. -/
def State.ownersWritten (s : State) (t : Nat) (hi host : Bool) (v : Nat) : State :=
  (List.range 8).foldl (fun a i => a.ownerWrite t (if hi then 8 + i else i) (bits v (4 * i + 2) (4 * i)) host) s
theorem State.ownersWritten_results (s : State) (t : Nat) (hi : Bool) {host : Bool} (v : Nat) (hconf : (host && s.conf) = false) {i : Nat} (hi8 : i < 8) :
    let u := s.ownersWritten t hi host v
    let b := if hi then 8 + i else i
    let n := bits v (4 * i + 2) (4 * i)
    (n < 5 → n ≠ s.owner t b → u.owner t b = n ∧ (SMap.find (u.eng t).hand b).isSome = true ∧ (SMap.find (s.eng t).hand b = none →
      SMap.find (u.eng t).hand b = some (s.owner t b) ∧ bitOf (u.rget .SPM_HOSTATE t).toNat b = true)) ∧
    (5 ≤ n → u.owner t b = s.owner t b ∧ u.flag F.SPM_STAT_DENIED t = true) := by
  intro u b n
  have hbank : ∀ j, j < 8 → (if hi then 8 + j else j) < 16 := fun j hj => by split <;> omega
  have hne : ∀ j, j ≠ i → b ≠ if hi then 8 + j else j := fun j hj => by
    cases hi
    · exact hj.symm
    · exact fun h => hj (Nat.add_left_cancel h).symm
  obtain ⟨a, hsa, hau⟩ := foldl_range_visits (K := fun s u => s.sameBank u t b)
    (g := fun a i => a.ownerWrite t (if hi then 8 + i else i) (bits v (4 * i + 2) (4 * i)) host) (fun s => s.sameBank_refl t b)
    (fun _ _ _ h h' => h.trans h') hi8 (fun s j hj hji => s.ownerWrite_sameBank (hbank j hj) (hbank i hi8) (hne j hji) _ host) s
  obtain ⟨hset, hrefuse⟩ := a.ownerWrite_results (t := t) (v := n) (hbank i hi8) (hsa.conf.symm ▸ hconf)
  rw [hsa.owner, hsa.hand] at hset
  rw [hsa.owner] at hrefuse
  refine ⟨fun hn hold => ?_, fun hn => ?_⟩
  · obtain ⟨howner, hhand, hnew⟩ := hset hn hold
    exact ⟨hau.owner.trans howner, hau.hand.symm ▸ hhand, fun hnone => ⟨hau.hand.trans (hnew hnone).1, hau.busy.trans (hnew hnone).2⟩⟩
  · exact ⟨hau.owner.trans (hrefuse hn).1, hau.denied (hrefuse hn).2⟩

/-! ### SPM_SECURE_WRITE (R112, R114, R207) -/

/-- The SECURE bit of a bank set at once: no wipe will clear it. -/
def State.secured (s : State) (t b : Nat) : State :=
  (s.setEng t { s.eng t with unsecure := (s.eng t).unsecure.filter (· ≠ b) }).rput .SPM_SECURE t
    (BitVec.ofNat 32 (setBit (s.rget .SPM_SECURE t).toNat b))
/-- The SECURE bit of a bank waits for its wipe, and the staging buffer is invalid. -/
def State.unsecuring (s : State) (t b : Nat) : State :=
  (s.setEng t { s.eng t with unsecure := (s.eng t).unsecure ++ [b] }).setStop t { s.stop t with stage := [] }
/-- One bit of a write of `SPM_SECURE`. -/
def State.secureWrite (s : State) (t v b : Nat) : State :=
  if bitOf v b then s.secured t b else if s.secureBank t b && !(s.eng t).unsecure.contains b then (s.unsecuring t b).wipeStart t b else s

theorem contains_filter_ne (l : List Nat) {b k : Nat} (h : b ≠ k) : (l.filter (· ≠ k)).contains b = l.contains b := by
  rw [Bool.eq_iff_iff]
  simp [h]
theorem contains_filter_same (l : List Nat) (b : Nat) : (l.filter (· ≠ b)).contains b = false := by simp
theorem contains_append_ne (l : List Nat) {b k : Nat} (h : b ≠ k) : (l ++ [k]).contains b = l.contains b := by
  rw [Bool.eq_iff_iff]
  simp [h]

section
variable {t b k : Nat} (hk : k < 32)

theorem State.unsecuring_sameBank (s : State) (h : b ≠ k) : s.sameBank (s.unsecuring t k) t b :=
  have heng : s.sameBank (s.setEng t { s.eng t with unsecure := (s.eng t).unsecure ++ [k] }) t b :=
    s.setEng_sameBank fun _ => ⟨rfl, rfl, contains_append_ne _ h, rfl⟩
  heng.trans (State.setStop_sameBank _ (fun _ => rfl) t b)

include hk

theorem State.secured_secureBank (s : State) : (s.secured t k).secureBank t b = (s.secureBank t b || b == k) := by
  rw [State.secureBank, State.secured, State.rget_rput_same, bitOf_word_setBit _ hk]
  rfl
theorem State.secured_sameBank (s : State) (h : b ≠ k) : s.sameBank (s.secured t k) t b := by
  have hregs : (s.setEng t { s.eng t with unsecure := (s.eng t).unsecure.filter (· ≠ k) }).sameRegs (s.secured t k) [.SPM_SECURE] :=
    State.rput_sameRegs _ (by decide) _ _
  have heng : s.sameBank (s.setEng t { s.eng t with unsecure := (s.eng t).unsecure.filter (· ≠ k) }) t b :=
    s.setEng_sameBank fun _ => ⟨rfl, rfl, contains_filter_ne _ h, rfl⟩
  exact { heng with
    owner := hregs.owner (by decide) (by decide) t b
    secure := by rw [s.secured_secureBank hk, beq_false_of_ne h, Bool.or_false]
    busy := by rw [hregs _ _ (by decide)]; rfl
    conf := hregs.conf (by decide)
    denied := fun hd => (hregs.flag F.SPM_STAT_DENIED t (by decide) (by decide)).trans hd }
/-- One bit leaves the other banks alone. -/
theorem State.secureWrite_sameBank (s : State) (v : Nat) (h : b ≠ k) : s.sameBank (s.secureWrite t v k) t b :=
  .ite _ (s.secured_sameBank hk h) (.ite _ ((s.unsecuring_sameBank h).trans (State.wipeStart_sameBank _ hk (.inr h))) (s.sameBank_refl t b))

end

section
variable {t b v : Nat} (s : State)

theorem State.secureWrite_set (hb : b < 32) (h : bitOf v b = true) :
    (s.secureWrite t v b).secureBank t b = true ∧ ((s.secureWrite t v b).eng t).unsecure.contains b = false := by
  rw [State.secureWrite, if_pos h, s.secured_secureBank hb, beq_self_eq_true, Bool.or_true]
  refine ⟨rfl, ?_⟩
  rw [State.secured, State.eng_of_tiles (State.rput_tiles _ _ _ _), State.eng_setEng_same]
  exact contains_filter_same _ b
theorem State.secureWrite_clear (h : bitOf v b = false) (hsecure : s.secureBank t b = true) (hnew : (s.eng t).unsecure.contains b = false) :
    let u := s.secureWrite t v b
    u.secureBank t b = true ∧ (u.eng t).unsecure.contains b = true ∧ (u.stop t).stage = [] ∧
      ((s.eng t).power ≠ .off → (s.eng t).power ≠ .fusedOff → (u.eng t).wiping.contains b = true) := by
  intro u
  have hu : u = (s.unsecuring t b).wipeStart t b := by
    show s.secureWrite t v b = _
    rw [State.secureWrite, if_neg (by rw [h]; decide), if_pos (by rw [hsecure, hnew]; decide)]
  have heng : (s.unsecuring t b).eng t = { s.eng t with unsecure := (s.eng t).unsecure ++ [b] } := State.eng_setEng_same _ t _
  rw [hu]
  refine ⟨?_, ?_, ?_, fun hoff hfused => State.wipeStart_wiping _ b (by rwa [heng]) (by rwa [heng])⟩
  · rw [(State.wipeStart_sameRegs _ t b).secureBank (by decide)]
    exact hsecure
  · rw [State.wipeStart_unsecure, heng]
    simp
  · rw [State.wipeStart_stop, State.unsecuring, State.stop_setStop_same]

end

theorem execSpmSecureWrite_passes {t : Fin 128} {src : By} {s : State} (hpass : s.passes 0 src) (hconf : (src.isHost && s.conf) = false) (v : Word) :
    execSpmSecureWrite t src v s = .next ((List.range 16).foldl (fun a b => a.secureWrite t v.toNat b) s) :=
  congrArg Host.Outcome.next ((State.viaPort_passes hpass _).trans (if_neg (by rw [hconf]; decide)))

/-! ### Hand-over ends (R111) -/

theorem execHandoverComplete_free {t : Fin 128} {bank : Fin 16} {s : State} {out : Nat} (hhand : SMap.find (s.eng t).hand bank = some out)
    (hfree : s.handBusy t bank out = false) :
    execHandoverComplete t bank s = .next ((s.setEng t { s.eng t with hand := SMap.del (s.eng t).hand bank }).hostate t bank) := by
  simp only [execHandoverComplete, hhand, hfree, Bool.false_eq_true, if_false]

/-! ### Patrol reads (R116, R117) -/

/-- A corrected word is counted, flagged, and in SERVICE mode its write-back is owed (R116, R136). -/
theorem State.spmCe_cases (s : State) (t w : Nat) :
    let u := ((s.fadd F.SPM_CE_CNT_CE_CNT t 1).event F.SPM_STAT_CE t).bucketAdd t
    s.spmCe t w = u ∨ ∃ l, s.spmCe t w = u.setEng t { u.eng t with wback := l } := by
  unfold State.spmCe
  dsimp only
  split
  · exact .inr ⟨_, rfl⟩
  · exact .inl rfl
theorem State.spmCe_regs (s : State) (t w : Nat) : ((s.fadd F.SPM_CE_CNT_CE_CNT t 1).event F.SPM_STAT_CE t).sameRegs (s.spmCe t w) vchRegs := by
  rcases s.spmCe_cases t w with h | ⟨l, h⟩ <;> rw [h]
  · exact State.bucketAdd_sameRegs _ t
  · exact (State.bucketAdd_sameRegs _ t).trans (State.sameRegs_of_regs _ rfl)
/-- A corrected word is flagged and counted. -/
theorem State.spmCe_counts (s : State) (t w : Nat) : (s.spmCe t w).flag F.SPM_STAT_CE t = true ∧
    (s.spmCe t w).fget F.SPM_CE_CNT_CE_CNT t = (s.fget F.SPM_CE_CNT_CE_CNT t + 1) % 2 ^ F.SPM_CE_CNT_CE_CNT.width := by
  have hregs := s.spmCe_regs t w
  refine ⟨(hregs.flag _ t (by decide) (by decide)).trans (State.flag_event_same _ _ t (by decide) (by decide) (by decide)), ?_⟩
  rw [hregs.fget _ t (by decide) (by decide), State.fget_event_other _ _ _ _ _ (fun h => absurd h.1 (by decide)), State.fadd,
    State.fget_fput_same _ _ _ _ (by decide) (by decide) (by decide),
    Nat.mod_mod]
theorem State.spmWord_corrected {s : State} {t off : Nat} (h : flips (SMap.get s.spmErr (spmKey t off / 8) 0) = 1) :
    s.spmWord t off = (s.spmCe t (off / 8), some (s.spmRaw t off 8)) := by
  have hbad : SMap.get s.spmErr (spmKey t off / 8) 0 ≠ 0 := fun h0 => by
    rw [h0] at h
    exact absurd h (by decide)
  exact (if_neg hbad).trans (if_pos h)

/-- The words of a line, read one after the other. -/
def State.patrolled (s : State) (t base : Nat) (l : List Nat) : State := l.foldl (fun a i => (a.spmWord t (base + 8 * i)).1) s
/-- Good words are read without effect. -/
theorem State.patrolled_good {s : State} {t base : Nat} : ∀ {l : List Nat}, (∀ i ∈ l, SMap.get s.spmErr (spmKey t (base + 8 * i) / 8) 0 = 0) →
    s.patrolled t base l = s
  | [], _ => rfl
  | i :: l, h => by
    obtain ⟨hi, hl⟩ := List.forall_mem_cons.mp h
    rw [State.patrolled, List.foldl_cons, State.spmWord_good hi]
    exact State.patrolled_good hl
/-- One word with one flip among good ones is corrected. -/
theorem State.patrolled_one {s : State} {t base i : Nat} (hi : i < 128) (hflip : flips (SMap.get s.spmErr (spmKey t (base + 8 * i) / 8) 0) = 1)
    (hgood : ∀ j, j < 128 → j ≠ i → SMap.get s.spmErr (spmKey t (base + 8 * j) / 8) 0 = 0) :
    s.patrolled t base (List.range 128) = s.spmCe t ((base + 8 * i) / 8) := by
  obtain ⟨l₁, l₂, hsplit, hother⟩ := range_split hi
  have hbefore : s.patrolled t base l₁ = s := State.patrolled_good fun j hj => hgood j (hother j (.inl hj)).1 (hother j (.inl hj)).2
  have herr : (s.spmCe t ((base + 8 * i) / 8)).spmErr = s.spmErr :=
    spmCe_keeps (φ := State.spmErr) (fun _ _ => rfl) (fun _ _ => rfl) (fun _ _ => rfl) s t _
  have hafter : (s.spmCe t ((base + 8 * i) / 8)).patrolled t base l₂ = s.spmCe t ((base + 8 * i) / 8) :=
    State.patrolled_good fun j hj => by
      rw [herr]
      exact hgood j (hother j (.inr hj)).1 (hother j (.inr hj)).2
  rw [State.patrolled, hsplit, List.foldl_append, show List.foldl _ s l₁ = s from hbefore, List.foldl_cons, State.spmWord_corrected hflip]
  exact hafter
/-- The words of a line lie one after the other. -/
theorem spmKey_line (t : Nat) (bank : Fin 16) (line : Fin 512) (i : Nat) :
    spmKey t (2 ^ 19 * bank.val + 1024 * line.val + 8 * i) / 8 = spmKey t (2 ^ 19 * bank.val + 1024 * line.val) / 8 + i := by
  unfold spmKey
  omega
theorem execSpmPatrolRead_on {t : Fin 128} {bank : Fin 16} {line : Fin 512} {s : State} (hen : s.flag F.SPM_CFG_PATROL_EN t = true)
    (hwipe : (s.eng t).wiping.contains bank.val = false) (hpower : (s.eng t).power = .on) :
    execSpmPatrolRead t bank line s = .next (s.patrolled t (2 ^ 19 * bank.val + 1024 * line.val) (List.range 128)) := by
  simp only [execSpmPatrolRead, hen, hwipe, hpower]
  rfl

/-! ### Corrected words are written back (R116) -/

theorem execSpmCorrectedWriteback_one {t : Fin 128} {word : Fin 1048576} {s : State} (howed : (s.eng t).wback.contains word.val = true)
    (hflip : flips (SMap.get s.spmErr (spmKey t (8 * word.val) / 8) 0) = 1) :
    execSpmCorrectedWriteback t word s = .next { (s.setEng t { s.eng t with wback := (s.eng t).wback.filter (· ≠ word.val) }) with
      spmErr := SMap.del s.spmErr (spmKey t (8 * word.val) / 8) } := by
  simp only [execSpmCorrectedWriteback, howed, hflip, Bool.not_true, Bool.false_eq_true, if_false, le_refl, if_true]
  rfl

/-! ### `SPM_DMACOLL` (R109) -/

/-- Bits cleared one by one. -/
theorem bitOf_foldl_clrBit (n : Nat) : ∀ (l : List Nat) (w : Nat), bitOf (l.foldl clrBit w) n = (bitOf w n && !l.contains n)
  | [], w => by simp
  | k :: l, w => by
    rw [List.foldl_cons, bitOf_foldl_clrBit n l, bitOf_clrBit, List.contains_cons, Bool.not_or, Bool.and_assoc]
    rfl
theorem foldl_clrBit_le : ∀ (l : List Nat) (w : Nat), l.foldl clrBit w ≤ w
  | [], _ => le_rfl
  | k :: l, w => (foldl_clrBit_le l _).trans (clrBit_le w k)
theorem contains_bitList (v : Nat) {n k : Nat} (h : k < n) : (bitList v n).contains k = bitOf v k := by
  rw [Bool.eq_iff_iff]
  simp [bitList, h]

/-! ### The obligation -/

/-- Settles O17 (R106, R109, R111 to R117; log entry 41): owner changes and hand-over, SECURE bits, patrol, write-back, `SPM_DMACOLL`. -/
theorem scratchpadBankResults : Obligations.ScratchpadBankResults := by
  unfold Obligations.ScratchpadBankResults
  intro t s
  have hmask : ∀ src : By, (src.isHost = true → s.conf = false) → (src.isHost && s.conf) = false := fun src h => by
    cases hsrc : src.isHost
    · rfl
    · exact h hsrc
  refine ⟨fun src hi v hpass hconf => ?_, fun bank out hhand hfree hsorted => ?_, fun src v hpass hconf => ?_,
    fun bank line hen hwipe hpower => ⟨fun hgood => ?_, fun i hi hflip hgood => ?_⟩, fun word howed hflip hsorted => ?_, fun chans => ?_⟩
  · have hexec : exec (.spmOwnerWrite t src hi v) s = .next (s.ownersWritten t hi src.isHost v.toNat) :=
      congrArg Host.Outcome.next (State.viaPort_passes hpass _)
    exact ⟨_, hexec, fun i hi8 => s.ownersWritten_results t hi v.toNat (hmask src hconf) hi8⟩
  · have heng : ((s.setEng t { s.eng t with hand := SMap.del (s.eng t).hand bank }).hostate t bank).eng t =
        { s.eng t with hand := SMap.del (s.eng t).hand bank } := State.eng_setEng_same s t _
    have hnone := SMap.find_del_same bank.val (s.eng t).hand hsorted
    refine ⟨_, execHandoverComplete_free hhand hfree, by rw [heng]; exact hnone, fun hwipe => ?_, State.hostate_sameRegs _ t bank, rfl⟩
    rw [State.hostate_bit _ t (by omega), if_pos rfl, State.eng_setEng_same, hnone]
    exact hwipe
  · refine ⟨_, execSpmSecureWrite_passes hpass (hmask src hconf) v, fun b hb => ?_⟩
    obtain ⟨a, hsa, hau⟩ := foldl_range_visits (K := fun s u => s.sameBank u t b) (g := fun a b => a.secureWrite t v.toNat b)
      (fun s => s.sameBank_refl t b) (fun _ _ _ h h' => h.trans h') hb (fun s j hj hji => s.secureWrite_sameBank (by omega) v.toNat hji.symm) s
    have hbit : bitOf v.toNat b = v.getLsbD b := bitOf_eq_testBit _ b
    refine ⟨fun hset => ?_, fun hclear hsecure hnew => ?_⟩
    · obtain ⟨hsec, huns⟩ := a.secureWrite_set (t := t) (show b < 32 by omega) (hbit.trans hset)
      exact ⟨hau.secure.trans hsec, hau.unsecure.trans huns⟩
    · obtain ⟨hsec, huns, hstage, hwipe⟩ := a.secureWrite_clear (hbit.trans hclear) (hsa.secure.trans hsecure) (hsa.unsecure.trans hnew)
      exact ⟨hau.secure.trans hsec, hau.unsecure.trans huns, hau.stage hstage,
        fun hoff hfused => hau.wiping.trans (hwipe (hsa.power ▸ hoff) (hsa.power ▸ hfused))⟩
  · have hkey := spmKey_line t bank line
    exact (execSpmPatrolRead_on hen hwipe hpower).trans (congrArg Host.Outcome.next
      (State.patrolled_good fun i hi => by rw [hkey]; exact hgood i (List.mem_range.mp hi)))
  · have hkey := spmKey_line t bank line
    refine ⟨_, execSpmPatrolRead_on hen hwipe hpower, ?_⟩
    rw [State.patrolled_one hi (by rw [hkey]; exact hflip) fun j hj hne => by rw [hkey]; exact hgood j hj hne]
    exact s.spmCe_counts t _
  · refine ⟨_, execSpmCorrectedWriteback_one howed hflip, ?_, ?_, rfl⟩
    · rw [SMap.get, SMap.find_del_same _ _ hsorted, Option.getD_none]
    · have heng : (s.setEng t { s.eng t with wback := (s.eng t).wback.filter (· ≠ word.val) }).eng t =
        { s.eng t with wback := (s.eng t).wback.filter (· ≠ word.val) } := State.eng_setEng_same s t _
      exact (congrArg (fun e : Eng => e.wback.contains word.val) heng).trans (contains_filter_same _ _)
  · refine ⟨_, rfl, fun n hn => ?_, s.rput_sameRegs (by decide) t _, rfl⟩
    rw [State.rget_rput_same, BitVec.toNat_ofNat, Nat.mod_eq_of_lt (Nat.lt_of_le_of_lt (foldl_clrBit_le _ _) (BitVec.isLt _)), bitOf_foldl_clrBit,
      contains_bitList _ hn, bitOf_eq_testBit chans.toNat]
    rfl

end Sys2Proof.Machine
end

section
/-! The end of a wipe, and the packets that waited for it (R75, R113, R114). -/

namespace Sys2Proof.Machine

/-! ### What a delivered packet leaves alone -/

/-- No wipe begins or ends between `s` and `u`, and WIPED of tile `t` stays set. -/
structure State.keepsWipes (s u : State) (t : Nat) : Prop where
  wiping : ∀ v, (u.eng v).wiping = (s.eng v).wiping
  wiped : s.flag F.SPM_STAT_WIPED t = true → u.flag F.SPM_STAT_WIPED t = true

section
variable {s : State} {t : Nat}

theorem State.keepsWipes_refl (s : State) (t : Nat) : s.keepsWipes s t := ⟨fun _ => rfl, id⟩
theorem State.keepsWipes.trans {u v : State} (h : s.keepsWipes u t) (h' : u.keepsWipes v t) : s.keepsWipes v t :=
  ⟨fun x => (h'.wiping x).trans (h.wiping x), h'.wiped ∘ h.wiped⟩
theorem State.keepsWipes.ite {a b : State} (c : Prop) [Decidable c] (ha : s.keepsWipes a t) (hb : s.keepsWipes b t) :
    s.keepsWipes (if c then a else b) t := by
  split
  · exact ha
  · exact hb
theorem State.sameRegs.keepsWipes {u : State} {l : List Reg} (h : s.sameRegs u l) (hl : .SPM_STAT ∉ l) (htiles : u.tiles = s.tiles) :
    s.keepsWipes u t :=
  ⟨fun v => congrArg Eng.wiping (State.eng_of_tiles htiles v), fun hw => (h.flag F.SPM_STAT_WIPED t hl (by decide)).trans hw⟩
theorem State.keepsWipes_of_same {u : State} (hregs : u.regs = s.regs) (htiles : u.tiles = s.tiles) : s.keepsWipes u t :=
  (State.sameRegs_of_regs [] hregs).keepsWipes (by decide) htiles
theorem State.event_keepsWipes (s : State) (t : Nat) {f : Field} (hlo : f.lo < 16) (hhi : f.hi = f.lo) (ha : f.app ≠ .staged) (i : Nat) :
    s.keepsWipes (s.event f i) t :=
  ⟨fun _ => rfl, s.flag_event_mono f F.SPM_STAT_WIPED i t hlo (by decide) (by decide) hhi ha (by decide)⟩
theorem State.setEng_keepsWipes (s : State) (t : Nat) {v : Nat} {e : Eng} (h : e.wiping = (s.eng v).wiping) : s.keepsWipes (s.setEng v e) t := by
  refine ⟨fun x => ?_, id⟩
  by_cases hx : x = v
  · rw [hx, State.eng_setEng_same, h]
  · rw [State.eng_setEng_other s e hx]
theorem State.foldl_keepsWipes {α : Type} {g : State → α → State} (hg : ∀ (s : State) (a : α), s.keepsWipes (g s a) t) :
    ∀ (l : List α) (s : State), s.keepsWipes (l.foldl g s) t
  | [], s => s.keepsWipes_refl t
  | a :: l, s => (hg s a).trans (State.foldl_keepsWipes hg l (g s a))

end

section
variable (s : State) (t : Nat)

theorem State.raise_keepsWipes (ty inst arg code : Nat) : s.keepsWipes (s.raise ty inst arg code) t :=
  (s.raise_sameRegs [] ty inst arg code).keepsWipes (by decide) (raiseAs_keeps (φ := State.tiles) (fun _ _ => rfl) s _ _ _ _ _ _)
theorem State.spmCe_keepsWipes (v w : Nat) : s.keepsWipes (s.spmCe v w) t := by
  have hcount : s.keepsWipes (s.fadd F.SPM_CE_CNT_CE_CNT v 1) t :=
    State.sameRegs.keepsWipes (s.fput_sameRegs (l := [.SPM_CE_CNT]) (by decide) v _) (by decide) rfl
  have hevent := hcount.trans (State.event_keepsWipes _ t (f := F.SPM_STAT_CE) (by decide) (by decide) (by decide) v)
  have hbucket := hevent.trans ((State.bucketAdd_sameRegs _ v).keepsWipes (by decide) (bucketAdd_keeps (φ := State.tiles) (fun _ _ => rfl) (fun _ _ => rfl) _ v))
  rcases s.spmCe_cases v w with heq | ⟨l, heq⟩ <;> rw [heq]
  · exact hbucket
  · exact hbucket.trans (State.setEng_keepsWipes _ t rfl)
theorem State.spmUe_keepsWipes (v off : Nat) : s.keepsWipes (s.spmUe v off) t :=
  ((State.sameRegs.keepsWipes (s.rput_sameRegs (l := [.SPM_UE_LAST]) (by decide) v _) (by decide) rfl).trans
    (State.event_keepsWipes _ t (f := F.SPM_STAT_UE) (by decide) (by decide) (by decide) v)).trans (State.raise_keepsWipes _ t _ _ _ _)
theorem State.spmWord_keepsWipes (v off : Nat) : s.keepsWipes (s.spmWord v off).1 t := by
  have hfree : s.keepsWipes ((s.free 2).2.free 64).2 t := State.keepsWipes_of_same rfl rfl
  unfold State.spmWord
  dsimp only
  split
  · exact s.keepsWipes_refl t
  split
  · exact s.spmCe_keepsWipes t v _
  split
  · exact s.spmUe_keepsWipes t v off
  split
  · exact hfree.trans (State.spmUe_keepsWipes _ t v off)
  split
  · exact hfree.trans (State.spmCe_keepsWipes _ t v _)
  · exact hfree
theorem State.spmPut_keepsWipes (v off : Nat) (bs : List Byte) : s.keepsWipes (s.spmPut v off bs) t := State.keepsWipes_of_same rfl rfl
theorem State.spmDrop_keepsWipes (v cls w : Nat) : s.keepsWipes (s.spmDrop v cls w) t :=
  ((State.sameRegs.keepsWipes (s.fput_sameRegs (f := F.SPM_COLL_COLL) (l := [.SPM_COLL]) (by decide) v _) (by decide) rfl).trans
    (State.sameRegs.keepsWipes (State.rput_sameRegs _ (l := [.SPM_COLL_LAST]) (by decide) v _) (by decide) rfl)).trans
    (State.event_keepsWipes _ t (f := F.SPM_STAT_COLLIDE) (by decide) (by decide) (by decide) v)
theorem State.spmViol_keepsWipes (v : Nat) : s.keepsWipes (s.spmViol v) t :=
  s.event_keepsWipes t (f := F.SPM_STAT_OWN_VIOL) (by decide) (by decide) (by decide) v
theorem State.haltChan_keepsWipes (v ch epoch : Nat) (err : ChanErr) : s.keepsWipes (s.haltChan v ch epoch err) t := by
  have hregs : s.keepsWipes (s.rput .TSEQ_DMA v (BitVec.ofNat 32 (setBit (s.rget .TSEQ_DMA v).toNat ch))) t :=
    State.sameRegs.keepsWipes (s.rput_sameRegs (l := [.TSEQ_DMA]) (by decide) v _) (by decide) rfl
  exact (hregs.trans (State.event_keepsWipes _ t (f := F.TSEQ_STAT_DMA_ERR) (by decide) (by decide) (by decide) v)).trans (State.setEng_keepsWipes _ t rfl)

end

/-! ### Rows of a scratchpad -/

theorem State.spmReadGo_keepsWipes (t v : Nat) (fuel : Nat) : ∀ (s : State) (off n : Nat), s.keepsWipes (State.spmReadGo fuel s v off n).1 t := by
  induction fuel with
  | zero => exact fun s _ _ => s.keepsWipes_refl t
  | succ fuel ih =>
    intro s off n
    rw [State.spmReadGo]
    split
    · exact s.keepsWipes_refl t
    · have hrest := (s.spmWord_keepsWipes t v (off - off % 8)).trans (ih _ (off + min n (8 - off % 8)) (n - min n (8 - off % 8)))
      dsimp only
      split <;> exact hrest
theorem State.spmWriteGo_keepsWipes (t v : Nat) (fuel : Nat) : ∀ (s : State) (off : Nat) (bs : List Byte) (skip : List Nat) (bad : Bool),
    s.keepsWipes (State.spmWriteGo fuel s v off bs skip bad).1 t := by
  induction fuel with
  | zero => exact fun s _ _ _ _ => s.keepsWipes_refl t
  | succ fuel ih =>
    intro s off bs skip bad
    rw [State.spmWriteGo]
    dsimp only
    split
    · exact s.keepsWipes_refl t
    split
    · exact ih s _ _ _ _
    split
    · exact (s.spmPut_keepsWipes t v off _).trans (ih _ _ _ _ _)
    · have hword := s.spmWord_keepsWipes t v (off - off % 8)
      split
      · exact hword.trans (ih _ _ _ _ _)
      · exact (hword.trans (State.spmPut_keepsWipes _ t v _ _)).trans (ih _ _ _ _ _)
theorem State.collided_keepsWipes (s : State) (t v : Nat) (x : Sender) : s.keepsWipes (s.collided v x) t := by
  have hdma : ∀ i w, s.keepsWipes (s.rput .SPM_DMACOLL i w) t := fun i w =>
    State.sameRegs.keepsWipes (s.rput_sameRegs (l := [.SPM_DMACOLL]) (by decide) i w) (by decide) rfl
  cases x with
  | own ch => exact hdma _ _
  | remote u ch => exact hdma _ _
  | copy => exact s.keepsWipes_refl t
  | svc => exact State.keepsWipes_of_same rfl rfl
theorem State.segWrite_keepsWipes (s : State) (t v : Nat) (x : Sender) (off : Nat) (bs : List Byte) (portA : List Nat) :
    s.keepsWipes (s.segWrite v x off bs portA).1 t := by
  unfold State.segWrite
  dsimp only
  split
  · have hwrite : s.keepsWipes (s.spmWriteB v off bs x.cls.code portA).1 t :=
      (State.foldl_keepsWipes (fun s w => s.spmDrop_keepsWipes t v _ w) _ s).trans (State.spmWriteGo_keepsWipes t v _ _ _ _ _ _)
    dsimp only
    split
    · exact hwrite.trans (State.collided_keepsWipes _ t v x)
    · exact hwrite
  · exact State.spmWriteGo_keepsWipes t v _ s off bs [] false
theorem State.segsWrite_keepsWipes (t v : Nat) (pass : List Nat) (x : Sender) (portA : List Nat) : ∀ (segs : List (Nat × Nat)) (s : State) (bs : List Byte),
    s.keepsWipes (State.segsWrite pass segs s v x bs portA).1 t
  | [], s, _ => s.keepsWipes_refl t
  | (off, k) :: rest, s, bs => by
    have hseg := s.segWrite_keepsWipes t v x off (bs.take k) portA
    rw [State.segsWrite]
    split
    · exact s.spmViol_keepsWipes t v
    · dsimp only
      split
      · exact hseg
      · exact hseg.trans (State.segsWrite_keepsWipes t v pass x portA rest _ _)
theorem State.segsRead_keepsWipes (t v : Nat) (c : OwnClass) : ∀ (segs : List (Nat × Nat)) (s : State) (acc : List Byte),
    s.keepsWipes (s.segsRead v c segs acc).1 t
  | [], s, _ => s.keepsWipes_refl t
  | (off, k) :: rest, s, acc => by
    have hread : s.keepsWipes (s.spmRead v off k).1 t := State.spmReadGo_keepsWipes t v _ s off k
    rw [State.segsRead]
    split
    · exact s.spmViol_keepsWipes t v
    · dsimp only
      split
      · exact hread
      · exact hread.trans (State.segsRead_keepsWipes t v c rest _ _)

/-! ### Held packets (R75) -/

theorem State.senderError_keepsWipes (s : State) (t src ch : Nat) (err : ChanErr) : s.keepsWipes (s.senderError src ch err) t :=
  .ite _ (State.keepsWipes_of_same rfl rfl) (s.haltChan_keepsWipes t src ch _ err)
theorem State.packetWrite_keepsWipes (s : State) (t v : Nat) (h : Held) (portA : List Nat) : s.keepsWipes (s.packetWrite v h portA) t := by
  have hbus : s.keepsWipes (if h.from_ = 128 then { s with outs := { s.outs with busErr := false, collided := false, rbytes := [] } } else s) t :=
    .ite _ (State.keepsWipes_of_same rfl rfl) (s.keepsWipes_refl t)
  unfold State.packetWrite
  dsimp only
  generalize (if h.from_ = 128 then _ else s : State) = a at hbus ⊢
  refine hbus.trans ?_
  split
  · exact a.senderError_keepsWipes t _ _ _
  split
  · have hread := State.segsRead_keepsWipes t v .svc (bankSegs 17 h.addr h.read) a []
    split
    · exact hread.trans (State.senderError_keepsWipes _ t _ _ _)
    · exact hread.trans (State.keepsWipes_of_same rfl rfl)
  · have hwrite := State.segsWrite_keepsWipes t v h.granted (if h.from_ = 128 then .svc else .remote h.from_ h.chan) portA
      (bankSegs 17 h.addr h.data.length) a h.data
    split
    · exact hwrite.trans (State.senderError_keepsWipes _ t _ _ _)
    · exact hwrite
theorem State.ingressGo_keepsWipes (t v : Nat) (portA : List Nat) : ∀ (l : List Held) (s : State), s.keepsWipes (State.ingressGo portA l s v) t
  | [], s => s.keepsWipes_refl t
  | h :: rest, s => by
    rw [State.ingressGo]
    split
    · exact s.keepsWipes_refl t
    · have hstop : s.keepsWipes (s.setStop v { s.stop v with ingress := rest }) t := State.keepsWipes_of_same rfl rfl
      exact (hstop.trans (State.packetWrite_keepsWipes _ t v h portA)).trans (State.ingressGo_keepsWipes t v portA rest _)

/-! ### The end of a wipe (R113, R114) -/

section
variable (s : State) (t b : Nat)

theorem State.wipeEnd_flag : (s.wipeEnd t b).flag F.SPM_STAT_WIPED t = true := State.flag_event_same _ _ t (by decide) (by decide) (by decide)
theorem State.wipeEnd_wiping : b ∉ ((s.wipeEnd t b).eng t).wiping := by
  have htiles : (s.wipeEnd t b).tiles = ((s.zeroBank t b).setEng t { s.eng t with
      wiping := (s.eng t).wiping.filter (· ≠ b), unsecure := (s.eng t).unsecure.filter (· ≠ b)
      wback := (s.eng t).wback.filter (fun w => decide (w / 2 ^ 16 ≠ b)) }).tiles := by
    unfold State.wipeEnd
    dsimp only
    split <;> rfl
  rw [State.eng_of_tiles htiles, State.eng_setEng_same]
  simp
theorem State.wipeEnd_spm : (s.wipeEnd t b).spm = (s.zeroBank t b).spm := by
  unfold State.wipeEnd
  dsimp only
  split <;> rfl
/-- A wiped bank reads zeros. -/
theorem State.wipeEnd_reads {o : Nat} (hlow : 2 ^ 19 * b ≤ o) (hhigh : o < 2 ^ 19 * (b + 1)) : (s.wipeEnd t b).spmRaw t o 1 = [0] := by
  have hkey : spmKey t (2 ^ 19 * b) ≤ spmKey t o ∧ spmKey t o < spmKey t (2 ^ 19 * b) + 2 ^ 19 := by
    unfold spmKey
    omega
  have hnone : SMap.find (s.wipeEnd t b).spm (spmKey t o) = none := by
    rw [s.wipeEnd_spm]
    exact SMap.find_drop_of_mem s.spm (p := fun k => decide (spmKey t (2 ^ 19 * b) ≤ k ∧ k < spmKey t (2 ^ 19 * b) + 2 ^ 19)) (decide_eq_true hkey)
  rw [State.spmRaw_one, SMap.get, hnone, Option.getD_none]

/-- The state once a wipe has ended and the packets that waited for it are delivered. -/
def State.wipeOver : State := (s.wipeEnd t b).ingressDrain t []
theorem State.wipeOver_wiping : b ∉ ((s.wipeOver t b).eng t).wiping := by
  rw [State.wipeOver, State.ingressDrain, (State.ingressGo_keepsWipes t t [] _ _).wiping]
  exact s.wipeEnd_wiping t b
theorem State.wipeOver_flag : (s.wipeOver t b).flag F.SPM_STAT_WIPED t = true :=
  (State.ingressGo_keepsWipes t t [] _ _).wiped (s.wipeEnd_flag t b)
theorem State.wipeOver_sec : (s.wipeOver t b).sec = s.sec :=
  (ingressDrain_keeps (φ := State.sec) (fun _ _ => rfl) (fun _ _ => rfl) (fun _ _ => rfl) (fun _ _ => rfl) (fun _ _ => rfl) (fun _ _ => rfl)
    (fun _ _ => rfl) (fun _ _ => rfl) _ t []).trans (wipeEnd_keeps (φ := State.sec) (fun _ _ => rfl) (fun _ _ => rfl) (fun _ _ => rfl) (fun _ _ => rfl) s t b)
theorem State.wipeOver_idle (h : (s.stop t).ingress = []) : s.wipeOver t b = s.wipeEnd t b := by
  have hstop : (s.wipeEnd t b).stop t = s.stop t :=
    wipeEnd_keeps (φ := fun u => u.stop t) (fun _ _ => rfl) (fun _ _ => rfl) (fun _ _ => rfl) (fun _ _ => rfl) s t b
  rw [State.wipeOver, State.ingressDrain, hstop, h, State.ingressGo]

end

theorem execWipeComplete_powered {t : Fin 128} {b : Fin 16} {s : State} (hwipe : b.val ∈ (s.eng t).wiping)
    (hpower : (s.eng t).power = .on ∨ (s.eng t).power = .lull1) : execWipeComplete t b s = .next (s.wipeOver t b).lcTry := by
  have hcond : ((s.eng t).wiping.contains b.val && ((s.eng t).power == .on || (s.eng t).power == .lull1)) = true := by
    rw [List.contains_iff_mem.mpr hwipe, Bool.true_and]
    rcases hpower with h | h <;> rw [h] <;> decide
  exact congrArg Host.Outcome.next (if_pos hcond)

end Sys2Proof.Machine
end

section
/-! What the mailboxes leave alone, and the end of a command of a mailbox (R113, R114, R341, R439). -/

namespace Sys2Proof.Machine

/-! ### Registers of a wipe of the secure banks -/

/-- The banks of one tile that are secure are wiped and owned by no class, and its staging buffer is invalid. -/
def State.wipeSecureBank (s : State) (t b : Nat) : State := if s.secureBank t b then (s.setOwner t b 0).wipeStart t b else s
def State.wipeSecureTile (s : State) (t : Nat) : State :=
  let s1 := (List.range 16).foldl (fun a b => a.wipeSecureBank t b) s
  s1.setStop t { s1.stop t with stage := [] }
theorem State.wipeSecure_eq (s : State) : s.wipeSecure = (List.range 128).foldl State.wipeSecureTile s := rfl

theorem State.wipeSecureBank_sameRegs (s : State) (t b : Nat) : s.sameRegs (s.wipeSecureBank t b) ownRegs :=
  .ite _ (((s.setOwner_sameRegs t b 0).mono (by decide)).trans ((State.wipeStart_sameRegs _ t b).mono (by decide))) (s.sameRegs_refl _)
theorem State.wipeSecure_sameRegs (s : State) : s.sameRegs s.wipeSecure ownRegs :=
  State.foldl_sameRegs State.wipeSecureTile (fun s t =>
    (State.foldl_sameRegs _ (fun s b => s.wipeSecureBank_sameRegs t b) _ s).trans (State.setStop_sameRegs _ t _ _)) _ s
theorem State.wipeSecureBank_sameBank (s : State) {t v b k : Nat} (hb : b < 16) (hk : k < 16) (h : t ≠ v ∨ b ≠ k) :
    s.sameBank (s.wipeSecureBank v k) t b :=
  .ite _ ((s.setOwner_sameBank hb hk h 0).trans (State.wipeStart_sameBank _ (by omega) h)) (s.sameBank_refl t b)
theorem State.invalidStage_sameBank (s : State) (v t b : Nat) : s.sameBank (s.setStop v { s.stop v with stage := [] }) t b :=
  s.setStop_sameBank (fun _ => rfl) t b
/-- A secure bank is owned by no class afterwards. -/
theorem State.wipeSecureBank_owner (s : State) {t b : Nat} (hb : b < 16) (h : s.secureBank t b = true) : (s.wipeSecureBank t b).owner t b = 0 := by
  rw [State.wipeSecureBank, if_pos h, (State.wipeStart_sameRegs _ t b).owner (by decide) (by decide), State.owner_setOwner_same _ _ hb]
theorem State.wipeSecureTile_sameBank (s : State) {t v b : Nat} (hb : b < 16) (h : t ≠ v) : s.sameBank (s.wipeSecureTile v) t b := by
  have hbanks : ∀ (l : List Nat) (s : State), (∀ k ∈ l, k < 16) → s.sameBank (l.foldl (fun a k => a.wipeSecureBank v k) s) t b := fun l => by
    induction l with
    | nil => exact fun s _ => s.sameBank_refl t b
    | cons k l ih =>
      intro s hl
      obtain ⟨hk, hl⟩ := List.forall_mem_cons.mp hl
      exact (s.wipeSecureBank_sameBank hb hk (.inl h)).trans (ih _ hl)
  exact (hbanks _ s fun k hk => List.mem_range.mp hk).trans (State.invalidStage_sameBank _ v t b)
theorem State.wipeSecureTile_owner (s : State) {t b : Nat} (hb : b < 16) (h : s.secureBank t b = true) : (s.wipeSecureTile t).owner t b = 0 := by
  obtain ⟨a, hsa, hau⟩ := foldl_range_visits (K := fun s u => s.sameBank u t b) (g := fun a k => a.wipeSecureBank t k) (fun s => s.sameBank_refl t b)
    (fun _ _ _ h h' => h.trans h') hb (fun s k hk hne => s.wipeSecureBank_sameBank hb hk (.inr hne.symm)) s
  exact (State.invalidStage_sameBank _ t t b).owner.trans (hau.owner.trans (a.wipeSecureBank_owner hb (hsa.secure.trans h)))
theorem State.wipeSecure_owner (s : State) {t b : Nat} (ht : t < 128) (hb : b < 16) (h : s.secureBank t b = true) : s.wipeSecure.owner t b = 0 := by
  obtain ⟨a, hsa, hau⟩ := foldl_range_visits (K := fun s u => s.sameBank u t b) (g := State.wipeSecureTile) (fun s => s.sameBank_refl t b)
    (fun _ _ _ h h' => h.trans h') ht (fun s v _ hne => s.wipeSecureTile_sameBank hb hne.symm) s
  exact hau.owner.trans (a.wipeSecureTile_owner hb (hsa.secure.trans h))

theorem State.closeSessions_sameRegs (s : State) (p : Session → Bool) : s.sameRegs (s.closeSessions p) [.SEC_CONF] :=
  (State.sameRegs_of_regs (u := { s with sec := { s.sec with sessions := s.sec.sessions.filter (fun x => !p x) } }) _ rfl).trans
    (State.fput_sameRegs _ (by decide) 0 _)

/-! ### A mailbox command ends (R439) -/

/-- Registers that the end of a command writes. -/
def mbxEndRegs : List Reg := completeRegs ++ mbxRegs

/-- The response stands in host memory when it fits (R439). -/
def State.mbxSmall (s : State) (m status : Nat) (resp : List Byte) : Bool := status = mbOK && decide (s.rspLen m < resp.length)
def State.mbxResponded (s : State) (m status : Nat) (resp : List Byte) : State :=
  if status = mbOK && !s.mbxSmall m status resp then s.hostWrite (s.get64 .MBX_RSP_LO .MBX_RSP_HI m) resp else s
/-- The status and the length stand in their registers, and the mailbox is free. -/
def State.mbxMarked (s : State) (m status n : Nat) : State :=
  (((s.fput F.MBX_RESULT_STATUS m status).rput .MBX_RLEN m (BitVec.ofNat 32 n)).fput F.MBX_STATE_BUSY m 0).event F.MBX_STAT_DONE m
/-- The interrupt, where the mailbox asks for it. -/
def State.mbxIrq (s : State) (m : Nat) : State := if s.flag F.MBX_CFG_IRQ m then s.msi 0 (s.fget F.MBX_CFG_VEC m) else s
theorem State.mbxEnd_eq (s : State) (m status : Nat) (resp : List Byte) : s.mbxEnd m status resp =
    ((s.mbxResponded m status resp).mbxMarked m (if s.mbxSmall m status resp then mbBUF_SMALL else status)
      (if status = mbOK then resp.length else 0)).mbxIrq m := rfl

theorem State.mbxResponded_sameRegs (s : State) (m status : Nat) (resp : List Byte) : s.sameRegs (s.mbxResponded m status resp) completeRegs :=
  .ite _ (s.hostWrite_sameRegs _ _) (s.sameRegs_refl _)
theorem State.mbxMarked_sameRegs (s : State) (m status n : Nat) : s.sameRegs (s.mbxMarked m status n) mbxRegs :=
  (((s.fput_sameRegs (by decide) m _).trans (State.rput_sameRegs _ (by decide) m _)).trans (State.fput_sameRegs _ (by decide) m _)).trans
    (State.event_sameRegs _ (by decide) m)
theorem State.mbxIrq_sameRegs (s : State) (m : Nat) : s.sameRegs (s.mbxIrq m) completeRegs := .ite _ (s.msi_sameRegs _ _) (s.sameRegs_refl _)
theorem State.mbxEnd_sameRegs (s : State) (m status : Nat) (resp : List Byte) : s.sameRegs (s.mbxEnd m status resp) mbxEndRegs :=
  (((s.mbxResponded_sameRegs m status resp).mono (List.subset_append_left _ _)).trans
    ((State.mbxMarked_sameRegs _ m _ _).mono (List.subset_append_right _ _))).trans ((State.mbxIrq_sameRegs _ m).mono (List.subset_append_left _ _))

/-- What the mailbox shows of a command that has ended. -/
theorem State.mbxMarked_shows (s : State) (m n : Nat) {status : Nat} (h : status < 65536) :
    let u := s.mbxMarked m status n
    u.mbxBusy m = false ∧ u.flag F.MBX_STAT_DONE m = true ∧ u.fget F.MBX_RESULT_STATUS m = status ∧ u.rget .MBX_RLEN m = BitVec.ofNat 32 n := by
  intro u
  have hbusy : u.fget F.MBX_STATE_BUSY m = 0 :=
    ((State.event_sameRegs _ (l := [.MBX_STAT]) (by decide) m).fget F.MBX_STATE_BUSY m (by decide) (by decide)).trans
      (State.fget_fput_same _ _ _ _ (by decide) (by decide) (by decide))
  refine ⟨?_, State.flag_event_same _ _ m (by decide) (by decide) (by decide), ?_, ?_⟩
  · rw [State.mbxBusy, State.flag, hbusy]
    rfl
  · have hafter : (s.fput F.MBX_RESULT_STATUS m status).sameRegs u [.MBX_RLEN, .MBX_STATE, .MBX_STAT] :=
      ((State.rput_sameRegs _ (by decide) m _).trans (State.fput_sameRegs _ (by decide) m _)).trans (State.event_sameRegs _ (by decide) m)
    rw [hafter.fget _ m (by decide) (by decide), State.fget_fput_same _ _ _ _ (by decide) (by decide) (by decide)]
    exact Nat.mod_eq_of_lt h
  · have hafter : ((s.fput F.MBX_RESULT_STATUS m status).rput .MBX_RLEN m (BitVec.ofNat 32 n)).sameRegs u [.MBX_STATE, .MBX_STAT] :=
      (State.fput_sameRegs _ (by decide) m _).trans (State.event_sameRegs _ (by decide) m)
    rw [hafter _ m (by decide), State.rget_rput_same]
/-- A command without a response ends. -/
theorem State.mbxEnd_done (a s : State) (m : Nat) {status : Nat} (h : status < 65536) : s.mbxDone (a.mbxEnd m status []) m status [] := by
  have hsmall : a.mbxSmall m status [] = false := by simp [State.mbxSmall]
  obtain ⟨hbusy, hdone, hstatus, hlen⟩ := (a.mbxResponded m status []).mbxMarked_shows m (if status = mbOK then ([] : List Byte).length else 0) h
  have hirq := State.mbxIrq_sameRegs ((a.mbxResponded m status []).mbxMarked m status (if status = mbOK then ([] : List Byte).length else 0)) m
  have hfits : ¬ (status = mbOK ∧ s.rspLen m < ([] : List Byte).length) := fun hlt => Nat.not_lt_zero _ hlt.2
  rw [State.mbxEnd_eq, hsmall]
  refine ⟨(hirq.flag F.MBX_STATE_BUSY m (by decide) (by decide)).trans hbusy, (hirq.flag F.MBX_STAT_DONE m (by decide) (by decide)).trans hdone,
    ((hirq.fget F.MBX_RESULT_STATUS m (by decide) (by decide)).trans hstatus).trans (if_neg hfits).symm,
    (hirq _ m (by decide)).trans hlen, fun _ _ _ _ i hi => absurd hi (Nat.not_lt_zero i)⟩

/-! ### A lifecycle change ends behind its wipes (R341) -/

theorem State.lcTry_none {s : State} (h : s.sec.lcWait = none) : s.lcTry = s := by
  rw [State.lcTry, h]
/-- The change to a lifecycle state as the fuses and the key store keep it. -/
def State.lcChanged (s : State) (target : Nat) (key : List Byte) : State :=
  let deploy := s.lcState = lcPROVISIONED && target = lcDEPLOYED
  let s1 := if deploy then s.fadd F.SEC_LC_KEY_EPOCH 0 1 else s
  { s1 with sec := { s1.sec with lcWait := none
                                 owner := if deploy then SMap.put s1.sec.owner s1.keyEpoch key else s1.sec.owner
                                 rkOff := s1.sec.rkOff || target == lcRETURNED } }
theorem State.lcTry_wiped {s : State} {target : Nat} {key : List Byte} (hwait : s.sec.lcWait = some (target, key)) (hwiped : s.wiped = true) :
    s.lcTry = ((s.lcChanged target key).fput F.SEC_LC_STATE 0 target).mbxEnd 1 mbOK [] := by
  simp only [State.lcTry, hwait, hwiped, Bool.not_true, Bool.false_eq_true, if_false]
  rfl
theorem State.lcTry_changes {s : State} {target : Nat} {key : List Byte} (hwait : s.sec.lcWait = some (target, key)) (hwiped : s.wiped = true) :
    s.lcTry.lcState = target % 4 ∧ s.lcTry.sec.lcWait = none := by
  rw [State.lcTry_wiped hwait hwiped]
  constructor
  · rw [State.lcState, (State.mbxEnd_sameRegs _ 1 mbOK []).fget F.SEC_LC_STATE 0 (by decide) (by decide),
      State.fget_fput_same _ _ _ _ (by decide) (by decide) (by decide)]
    rfl
  · rw [State.mbxEnd_keeps (φ := State.sec) (fun _ _ => rfl) (fun _ _ => rfl) (fun _ _ => rfl) (fun _ _ => rfl)]
    rfl

end Sys2Proof.Machine
end

section
/-! The IDE streams through what a mailbox does (R272, R346): no command of a mailbox and no request that leaves changes one. -/

namespace Sys2Proof.Machine

/-- The IDE streams and the link register stand in `u` as in `s`. -/
structure State.sameIde (s u : State) : Prop where
  ide : u.pcie.ide = s.pcie.ide
  link : u.rget .PCI_LINK 0 = s.rget .PCI_LINK 0

section
variable {s : State}

theorem State.sameIde_refl (s : State) : s.sameIde s := ⟨rfl, rfl⟩
theorem State.sameIde.trans {u v : State} (h : s.sameIde u) (h' : u.sameIde v) : s.sameIde v := ⟨h'.ide.trans h.ide, h'.link.trans h.link⟩
theorem State.sameIde.ite {a b : State} (c : Prop) [Decidable c] (ha : s.sameIde a) (hb : s.sameIde b) : s.sameIde (if c then a else b) := by
  split
  · exact ha
  · exact hb
theorem State.sameRegs.sameIde {u : State} {l : List Reg} (h : s.sameRegs u l) (hl : .PCI_LINK ∉ l) (hide : u.pcie.ide = s.pcie.ide) : s.sameIde u :=
  ⟨hide, h _ 0 hl⟩
theorem State.sameIde_of_same {u : State} (hregs : u.regs = s.regs) (hide : u.pcie.ide = s.pcie.ide) : s.sameIde u :=
  (State.sameRegs_of_regs [] hregs).sameIde (by decide) hide
theorem State.foldl_sameIde {α : Type} {g : State → α → State} (hg : ∀ (s : State) (a : α), s.sameIde (g s a)) :
    ∀ (l : List α) (s : State), s.sameIde (l.foldl g s)
  | [], s => s.sameIde_refl
  | a :: l, s => (hg s a).trans (State.foldl_sameIde hg l (g s a))
theorem State.sameIde.secure {u : State} (h : s.sameIde u) : u.flag F.PCI_LINK_IDE_SECURE 0 = s.flag F.PCI_LINK_IDE_SECURE 0 := by
  rw [State.flag, State.flag, State.fget, State.fget, if_neg (by decide), if_neg (by decide)]
  exact congrArg (fun w : Word => bits w.toNat 9 9 == 1) h.link

end

/-! ### Requests to the host (R252, R269, R272) -/

theorem State.fput_sameIde (s : State) {f : Field} (hf : f.reg ≠ .PCI_LINK) (i v : Nat) : s.sameIde (s.fput f i v) :=
  (s.fput_sameRegs (l := [f.reg]) List.mem_cons_self i v).sameIde (fun h => hf (List.mem_singleton.mp h).symm) rfl
theorem State.event_sameIde (s : State) {f : Field} (hf : f.reg ≠ .PCI_LINK) (i : Nat) : s.sameIde (s.event f i) :=
  (s.event_sameRegs (l := [f.reg]) List.mem_cons_self i).sameIde (fun h => hf (List.mem_singleton.mp h).symm) rfl
theorem State.hostPut_sameIde (s : State) (addr : Nat) (bs : List Byte) : s.sameIde (s.hostPut addr bs) :=
  State.sameIde_of_same (hostPut_keeps (φ := State.regs) (fun _ _ => rfl) s addr bs)
    (congrArg Pcie.ide (hostPut_keeps (φ := State.pcie) (fun _ _ => rfl) s addr bs))
theorem State.msiSend_sameIde (s : State) (f vec : Nat) : s.sameIde (s.msiSend f vec) :=
  .ite _ (State.sameIde_of_same rfl rfl) (.ite _ s.sameIde_refl (State.sameIde_of_same rfl rfl))
theorem State.outWait_sameIde (s : State) (o : HostOut) : s.sameIde (s.outWait o) := (s.outWait_sameRegs o).sameIde (by decide) rfl
theorem State.hostWrite_sameIde (s : State) (addr : Nat) (bs : List Byte) : s.sameIde (s.hostWrite addr bs) :=
  .ite _ (s.hostPut_sameIde addr bs) (.ite _ (s.outWait_sameIde _) s.sameIde_refl)
theorem State.msi_sameIde (s : State) (f vec : Nat) : s.sameIde (s.msi f vec) :=
  .ite _ (s.msiSend_sameIde f vec) (.ite _ (s.outWait_sameIde _) s.sameIde_refl)
theorem State.hostFlush_sameIde (s : State) : s.sameIde s.hostFlush := by
  have hsend : ∀ (s : State) (o : HostOut), s.sameIde (match o with
      | .write addr bs => s.hostPut addr bs
      | .msix f vec => s.msiSend f vec) := fun s o => by
    cases o with
    | write addr bs => exact s.hostPut_sameIde addr bs
    | msix f vec => exact s.msiSend_sameIde f vec
  have hempty : s.sameIde { s with pcie := { s.pcie with outq := [] } } := State.sameIde_of_same rfl rfl
  exact .ite _ (hempty.trans (State.foldl_sameIde hsend _ _)) s.sameIde_refl

/-! ### The commands of the mailboxes (R439 to R441) -/

section
variable (s : State)

theorem State.mbxEnd_sameIde (m status : Nat) (resp : List Byte) : s.sameIde (s.mbxEnd m status resp) := by
  have hresp : s.sameIde (s.mbxResponded m status resp) := .ite _ (s.hostWrite_sameIde _ _) s.sameIde_refl
  have hmarked : ∀ (a : State) (st n : Nat), a.sameIde (a.mbxMarked m st n) := fun a st n => (a.mbxMarked_sameRegs m st n).sameIde (by decide) rfl
  have hirq : ∀ a : State, a.sameIde (a.mbxIrq m) := fun a => .ite _ (a.msi_sameIde _ _) a.sameIde_refl
  rw [State.mbxEnd_eq]
  exact (hresp.trans (hmarked _ _ _)).trans (hirq _)
theorem State.setSec_sameIde (x : Sec) : s.sameIde { s with sec := x } := State.sameIde_of_same rfl rfl
theorem State.closeSessions_sameIde (p : Session → Bool) : s.sameIde (s.closeSessions p) :=
  (s.closeSessions_sameRegs p).sameIde (by decide) rfl
theorem State.lcTry_sameIde : s.sameIde s.lcTry := by
  cases hwait : s.sec.lcWait with
  | none =>
    rw [State.lcTry_none hwait]
    exact s.sameIde_refl
  | some x =>
    obtain ⟨target, key⟩ := x
    by_cases hwiped : s.wiped = true
    · have hchange : s.sameIde (s.lcChanged target key) :=
        (State.sameIde.ite _ (s.fput_sameIde (f := F.SEC_LC_KEY_EPOCH) (by decide) 0 _) s.sameIde_refl).trans (State.setSec_sameIde _ _)
      rw [State.lcTry_wiped hwait hwiped]
      exact (hchange.trans (State.fput_sameIde _ (by decide) 0 _)).trans (State.mbxEnd_sameIde _ _ _ _)
    · have hwaits : s.lcTry = s := by
        simp only [State.lcTry, hwait, Bool.eq_false_iff.mpr hwiped, Bool.not_false, if_true]
      rw [hwaits]
      exact s.sameIde_refl
theorem State.wipeSecure_sameIde : s.sameIde s.wipeSecure :=
  s.wipeSecure_sameRegs.sameIde (by decide) (congrArg Pcie.ide (wipeSecure_keeps (φ := State.pcie) (fun _ _ => rfl) (fun _ _ => rfl) (fun _ _ => rfl)
    (fun _ _ => rfl) (fun _ _ => rfl) s))
theorem State.lcChange_sameIde (req : List Byte) : s.sameIde (s.lcChange req) := by
  have hfree : s.sameIde (s.free 64).2 := State.sameIde_of_same rfl rfl
  have hregs : (s.free 64).2.sameRegs ((s.free 64).2.put64 .SEC_LCNONCE_LO .SEC_LCNONCE_HI 0 (s.free 64).1) [.SEC_LCNONCE_LO, .SEC_LCNONCE_HI] :=
    State.put64_sameRegs _ (by decide) (by decide) 0 _
  have hnonce := hfree.trans (hregs.sameIde (by decide) rfl)
  have hwiped := (hnonce.trans (State.closeSessions_sameIde _ (fun _ => true))).trans (State.wipeSecure_sameIde _)
  exact .ite _ (hnonce.trans (State.mbxEnd_sameIde _ _ _ _)) ((hwiped.trans (State.setSec_sameIde _ _)).trans (State.lcTry_sameIde _))
theorem State.measure_sameIde (type svn : Nat) (digest info : List Byte) : s.sameIde (s.measure type svn digest info) := by
  have hput : ∀ (a : State) (i : Nat) (w : Word), a.sameIde (a.rput .SEC_MR i w) := fun a i w =>
    (a.rput_sameRegs (l := [.SEC_MR]) (by decide) i w).sameIde (by decide) rfl
  have hmr : ∀ mr, s.sameIde (s.setMr mr) := fun mr => (s.setSec_sameIde _).trans (State.foldl_sameIde (fun a i => hput a i _) _ _)
  exact .ite _ s.sameIde_refl (((hmr _).trans (State.setSec_sameIde _ _)).trans (State.fput_sameIde _ (by decide) 0 _))
theorem State.daWrite_sameIde (da : Nat) (bs : List Byte) : s.sameIde (s.daWrite da bs).1 :=
  (s.daWrite_sameRegs da bs).sameIde (by decide) (congrArg Pcie.ide (daWrite_keeps (φ := State.pcie) (fun _ _ => rfl) (fun _ _ => rfl) (fun _ _ => rfl)
    (fun _ _ => rfl) (fun _ _ => rfl) (fun _ _ => rfl) (fun _ _ => rfl) s da bs))
theorem State.progLoad_sameIde (img : List Byte) : s.sameIde (s.progLoad img) := by
  have hlog := (s.daWrite_sameIde s.progDa img).trans (State.measure_sameIde _ 3 0 (sha img) (leBytes 8 s.progDa))
  exact .ite _ (s.mbxEnd_sameIde _ _ _) ((hlog.trans (State.setSec_sameIde _ _)).trans (State.mbxEnd_sameIde _ _ _ _))
theorem State.authFail_sameIde : s.sameIde s.authFail :=
  (s.event_sameIde (f := F.SEC_STAT_SESS_FAIL) (by decide) 0).trans
    ((State.raise_sameRegs _ [] _ _ _ _).sameIde (by decide) (congrArg Pcie.ide (raiseAs_keeps (φ := State.pcie) (fun _ _ => rfl) _ _ _ _ _ _ _)))
theorem State.sessionOpen_sameIde (req : List Byte) : s.sameIde (s.sessionOpen req) := by
  have hend := s.mbxEnd_sameIde 1
  unfold State.sessionOpen
  refine .ite _ (hend _ _) ?_
  cases s.skemSeed with
  | none => exact hend _ _
  | some seed =>
    refine .ite _ (s.authFail_sameIde.trans (State.mbxEnd_sameIde _ _ _ _)) ?_
    cases s.freeSid with
    | none => exact hend _ _
    | some sid => exact .ite _ (hend _ _) (((s.setSec_sameIde _).trans (State.fput_sameIde _ (by decide) 0 _)).trans (State.mbxEnd_sameIde _ _ _ _))
theorem State.sessionClose_sameIde (sid : Nat) : s.sameIde (s.sessionClose sid) :=
  .ite _ (s.mbxEnd_sameIde _ _ _) (.ite _ (s.mbxEnd_sameIde _ _ _) ((s.closeSessions_sameIde _).trans (State.mbxEnd_sameIde _ _ _ _)))
theorem State.mbxAct_sameIde (m code : Nat) (req : List Byte) : s.sameIde (s.mbxAct m code req) := by
  have hend := s.mbxEnd_sameIde
  unfold State.mbxAct
  split
  · split <;> exact hend _ _ _
  split
  · exact s.lcChange_sameIde req
  · exact (s.fput_sameIde (by decide) 0 _).trans (State.mbxEnd_sameIde _ _ _ _)
  · exact .ite _ (hend _ _ _) (((s.setSec_sameIde _).trans (State.fput_sameIde _ (by decide) 0 _)).trans (State.mbxEnd_sameIde _ _ _ _))
  · exact s.progLoad_sameIde req
  · exact s.sessionOpen_sameIde req
  · exact s.sessionClose_sameIde _
  · split <;> exact hend _ _ _
  · exact hend _ _ _
theorem State.mbxStart_sameIde (m : Nat) : s.sameIde (s.mbxStart m) :=
  .ite _ (s.setSec_sameIde _) (.ite _ (s.mbxEnd_sameIde _ _ _) (.ite _ ((s.event_sameIde (by decide) 0).trans (State.setSec_sameIde _ _))
    (.ite _ (.ite _ (s.mbxEnd_sameIde _ _ _) (s.setSec_sameIde _)) (s.mbxAct_sameIde _ _ _))))
theorem State.hostOpened_sameIde : s.sameIde s.hostOpened :=
  (s.hostFlush_sameIde.trans (State.setSec_sameIde _ _)).trans (State.foldl_sameIde State.mbxStart_sameIde _ _)

end

/-! ### Streams start and stop (R272, R346) -/

theorem State.setIde_ide (s : State) (l : List Nat) : (s.setIde l).pcie.ide = l := rfl
theorem State.setIde_secure (s : State) (l : List Nat) : (s.setIde l).flag F.PCI_LINK_IDE_SECURE 0 = !l.isEmpty := by
  rw [State.flag, State.setIde, State.fget_fput_same _ _ _ _ (by decide) (by decide) (by decide)]
  cases l <;> rfl

end Sys2Proof.Machine
end

section
/-! ATTEST (R255, R345): what answers one, and where its answer goes. -/

namespace Sys2Proof.Machine

/-! ### A descriptor that starts and writes to its host -/

section
variable {s a : State} {q idx : Nat} {d : Descr}

theorem State.descr_idx (h : s.descr q idx = some d) : d.idx = idx := by simpa using List.find?_some h
theorem State.markStarted_underway (h : s.descr q idx = some d) : s.underway (s.markStarted q d) q d := by
  obtain ⟨hdescr, hgen, hprod, hpcie, hregs⟩ := State.running_markStarted_underway (.attestLog q idx) h
  exact ⟨hdescr, hgen, hprod, hpcie, hregs⟩
theorem State.underway.event (h : s.underway a q d) {f : Field} (hf : f.reg ∉ recordRegs) (i : Nat) : s.underway (a.event f i) q d where
  descr := h.descr
  gen := h.gen
  prod := h.prod
  pcie := h.pcie
  regs := fun r hr j => (a.event_sameRegs (l := [f.reg]) List.mem_cons_self i r j (fun hm => hf (List.mem_singleton.mp hm ▸ hr))).trans (h.regs r hr j)
theorem State.underway.hostPut (h : s.underway a q d) (addr : Nat) (bs : List Byte) : s.underway (a.hostPut addr bs) q d := by
  unfold State.hostPut
  split
  · exact h
  · exact ⟨h.descr, h.gen, h.prod, h.pcie, h.regs⟩
/-- While host memory is open, a write of a descriptor waits for nothing. -/
theorem State.underway.descrWrite (h : s.underway a q d) (hopen : s.hostOpen = true) (i addr : Nat) (bs : List Byte) :
    s.underway (a.descrWrite q i addr bs) q d := by
  unfold State.descrWrite State.hostWriteFor State.hostWrite
  rw [if_pos (h.hostOpen.trans hopen)]
  split
  · exact h
  split
  · exact h.event (by decide) _
  · exact h.hostPut addr bs
theorem State.underway.find_descrWrite (h : s.underway a q d) (hopen : s.hostOpen = true) {addr : Nat} {bs : List Byte} (hlive : s.descrDead q idx = false)
    (hfails : s.hostFails addr bs.length = false) {i : Nat} (hi : i < bs.length) :
    SMap.find (a.descrWrite q idx addr bs).host (addr + i) = bs[i]? := by
  have hf : a.hostFails addr bs.length = false := (h.hostFails _ _).trans hfails
  rw [State.descrWrite, h.descrDead, hlive, State.hostWriteFor, hf, Bool.and_false, if_neg Bool.false_ne_true, if_neg Bool.false_ne_true,
    State.find_hostWrite (h.hostOpen.trans hopen) hf hi, List.getD_eq_getElem?_getD, List.getElem?_eq_getElem hi, Option.getD_some]
/-- A quiet descriptor that ends well writes no record. -/
theorem State.complete_host_quiet (h : d.quiet = true) (result : List Byte) : (s.complete q d stOK result).host = s.host := by
  have hrec : (d.quiet && decide (stOK = 0)) = true := by rw [h]; rfl
  unfold State.complete State.completeKeep
  simp only [hrec, if_true, if_neg (show stOK ≠ stCONF_DENIED by decide)]
  rw [State.drainCheck_keeps (φ := State.host) (fun _ _ => rfl), State.headSync_keeps (φ := State.host) (fun _ _ => rfl)]
  rfl

end

/-! ### The answer -/

section
variable {s : State} {q idx : Nat} {d : Descr}

/-- What an ATTEST answers: nothing once the module is RETURNED or its keys are gone (R357, log entry 66). -/
def State.attOut (s : State) (b : Option (List Byte)) : Option (List Byte) := if s.lcState = lcRETURNED ∨ s.sec.zeroed = true then none else b
/-- The end of an ATTEST that has nothing to answer, and of one that answers `b`. -/
def State.attEnd (s : State) (q : Nat) (d : Descr) : Option (List Byte) → State
  | none => (s.markStarted q d).complete q (s.going d) stSTATE []
  | some b => if d.u 56 4 < b.length then (s.markStarted q d).complete q (s.going d) stBUF_SMALL (leBytes 4 b.length)
    else ((s.markStarted q d).descrWrite q d.idx (d.u 48 8) b).complete q (s.going d) stOK (leBytes 4 b.length)
theorem State.withAttest_eq {kind : Nat} (hstart : s.starts q idx 0x41 d) (hkind : d.attKind = kind) (hle : kind ≤ 2)
    (hhead : s.headVerdict q d (bodyZero d [(16, 45)]) false = none) (hopen : s.hostOpen = true) (out : State → Descr → Option (List Byte)) :
    s.withAttest q idx kind out = s.attEnd q d (s.attOut (out s d)) := by
  obtain ⟨hdescr, htype, hmay⟩ := hstart
  subst hkind
  have hout : (if (decide (s.lcState = lcRETURNED) || s.sec.zeroed) = true then none else out s d) = s.attOut (out s d) := by
    simp only [State.attOut, Bool.or_eq_true, decide_eq_true_eq]
  simp only [State.withAttest, hdescr, htype, hmay, hhead, hopen, hout, bne_self_eq_false, Bool.not_true, Bool.false_and, Bool.or_self,
    Bool.false_eq_true, ne_eq, not_true_eq_false, if_false, if_neg (Nat.not_lt.mpr hle)]
  cases s.attOut (out s d) <;> rfl

theorem State.attEnd_none (h : s.descr q idx = some d) : s.completed (s.attEnd q d none) q d stSTATE 0 [] :=
  (State.markStarted_underway h).completed (by decide) []
theorem State.attEnd_small (h : s.descr q idx = some d) {b : List Byte} (hsmall : d.u 56 4 < b.length) :
    s.completed (s.attEnd q d (some b)) q d stBUF_SMALL 0 (leBytes 4 b.length) := by
  rw [State.attEnd, if_pos hsmall]
  exact (State.markStarted_underway h).completed (by decide) _
theorem State.attEnd_fits (h : s.descr q idx = some d) (hopen : s.hostOpen = true) {b : List Byte} (hfits : ¬ d.u 56 4 < b.length) :
    s.completed (s.attEnd q d (some b)) q d stOK 0 (leBytes 4 b.length) ∧
      (d.quiet = true → s.descrDead q idx = false → s.hostFails (d.u 48 8) b.length = false →
        ∀ i, i < b.length → SMap.find (s.attEnd q d (some b)).host (d.u 48 8 + i) = b[i]?) := by
  have hgoing := State.markStarted_underway h
  rw [State.attEnd, if_neg hfits]
  refine ⟨(hgoing.descrWrite hopen _ _ _).completed (by decide) _, fun hquiet hlive hfails i hi => ?_⟩
  rw [State.complete_host_quiet (d := s.going d) hquiet, State.descr_idx h]
  exact hgoing.find_descrWrite hopen hlive hfails hi

end

end Sys2Proof.Machine
end

section
/-! SPDM exchanges (R272, R346) and tamper (R357). -/

namespace Sys2Proof.Machine

/-! ### SPDM -/

section
variable {s : State}

/-- The bytes that answer an SPDM message. -/
def State.say (s : State) (b : List Byte) : State := { s with outs := { s.outs with rbytes := b } }
theorem execSpdmMessage_establish (hlink : s.linkUp = true) (hready : s.pcie.ready = true) : execSpdmMessage .establish s =
    .next (if s.ikSeed.isSome && s.sec.algOk then ({ s with sec := { s.sec with spdm := true } } : State).say [1] else s.say [0]) := by
  simp only [execSpdmMessage, hlink, hready, Bool.not_true, Bool.or_self, Bool.false_eq_true, if_false]
  rfl
theorem execSpdmMessage_ideStart (hlink : s.linkUp = true) (hready : s.pcie.ready = true) (hspdm : s.sec.spdm = true) (k : Fin 5) :
    execSpdmMessage (.ideStart k) s =
      .next (((s.setIde (if s.pcie.ide.contains k.val then s.pcie.ide else s.pcie.ide ++ [k.val])).hostOpened).say [1]) := by
  simp only [execSpdmMessage, hlink, hready, hspdm, Bool.not_true, Bool.or_self, Bool.false_eq_true, if_false, if_true]
  rfl
theorem execSpdmMessage_ideStop (hlink : s.linkUp = true) (hready : s.pcie.ready = true) (hspdm : s.sec.spdm = true) (k : Fin 5) :
    execSpdmMessage (.ideStop k) s = .next ((s.setIde (s.pcie.ide.filter (· ≠ k.val))).say [1]) := by
  simp only [execSpdmMessage, hlink, hready, hspdm, Bool.not_true, Bool.or_self, Bool.false_eq_true, if_false, if_true]
  rfl

theorem mem_ide_started (l : List Nat) (k : Nat) : k ∈ if l.contains k then l else l ++ [k] := by
  split
  next h => exact List.contains_iff_mem.mp h
  next => exact List.mem_append_right l List.mem_cons_self
/-- Started, the stream is secure, and what waited for it has left. -/
theorem State.ideStart_results (s : State) {l : List Nat} {k : Nat} (h : k ∈ l) :
    k ∈ ((s.setIde l).hostOpened).pcie.ide ∧ ((s.setIde l).hostOpened).flag F.PCI_LINK_IDE_SECURE 0 = true := by
  have hkept := (s.setIde l).hostOpened_sameIde
  constructor
  · rw [hkept.ide, State.setIde_ide]
    exact h
  · rw [hkept.secure, State.setIde_secure, List.isEmpty_eq_false_iff.mpr (List.ne_nil_of_mem h), Bool.not_false]

end

/-! ### Tamper -/

/-- What a context that fails may write. -/
def failRegs : List Reg := .KVM_STAT :: vchRegs

section
variable (s : State)

theorem State.kvRead_sameRegs (da n : Nat) : s.sameRegs (s.kvRead da n).1 failRegs := by
  have hread : s.sameRegs (s.daRead da n 4).1 failRegs := (s.daRead_sameRegs da n 4).mono (List.subset_cons_self _ _)
  unfold State.kvRead
  dsimp only
  split
  · exact hread
  · exact (hread.trans (State.event_sameRegs _ (f := F.KVM_STAT_UE) (by decide) 0)).trans (State.raise_sameRegs _ _ _ _ _ _)
theorem State.failCtx_sameRegs (c : Nat) : s.sameRegs (s.failCtx c) failRegs := by
  have hread := s.kvRead_sameRegs (s.seqDa c) 8
  have hwrite : ∀ (a : State) (da : Nat) (bs : List Byte), a.sameRegs (a.daWrite da bs).1 failRegs := fun a da bs =>
    (a.daWrite_sameRegs da bs).mono (List.subset_cons_self _ _)
  unfold State.failCtx
  split
  next s1 b h => rw [h] at hread; exact hread.trans (hwrite s1 _ _)
  next s1 h => rw [h] at hread; exact hread.trans (hwrite s1 _ _)
theorem State.failSessions_sameRegs (p : Nat → Bool) : s.sameRegs (s.failSessions p) failRegs :=
  State.foldl_sameRegs _ (fun a (e : Nat × Nat) => a.failCtx_sameRegs e.1) _ s

/-- The keys are gone, the sessions end, and every secure bank is wiped. -/
def State.zeroize : State := ((({ s with sec := { s.sec with zeroed := true } } : State).failSessions (fun _ => true)).closeSessions (fun _ => true)).wipeSecure
/-- A tamper event is counted, its source recorded, and TAMPER raised. -/
def State.tamperCounted : State := s.fsat F.SEC_LC_TAMPERS 0 1
def State.tamperSourced (src : Nat) : State := s.fput F.SEC_TAMPER_SRC 0 (setBit (s.fget F.SEC_TAMPER_SRC 0) src)
def State.tamperRaised : State := (s.event F.SEC_STAT_TAMPER 0).raise 0x4C 0 0 0
def State.tamperNoted (src : Nat) : State := (s.tamperCounted.tamperSourced src).tamperRaised
theorem execTamper_eq (src : Fin 4) : execTamper src s = .next (s.zeroize.tamperNoted src) := rfl

/-- What zeroizing may write. -/
def zeroizeRegs : List Reg := .SEC_CONF :: (failRegs ++ ownRegs)
theorem State.zeroize_sameRegs : s.sameRegs s.zeroize zeroizeRegs := by
  have hfail : s.sameRegs (({ s with sec := { s.sec with zeroed := true } } : State).failSessions (fun _ => true)) zeroizeRegs :=
    (State.failSessions_sameRegs _ _).mono (by decide)
  exact (hfail.trans ((State.closeSessions_sameRegs _ _).mono (by decide))).trans ((State.wipeSecure_sameRegs _).mono (by decide))
theorem State.closeSessions_sec (p : Session → Bool) : (s.closeSessions p).sec = { s.sec with sessions := s.sec.sessions.filter (fun x => !p x) } := rfl
theorem State.zeroize_sec : s.zeroize.sec = { s.sec with zeroed := true, sessions := [] } := by
  have hfail : (State.failSessions { s with sec := { s.sec with zeroed := true } } (fun _ => true)).sec = { s.sec with zeroed := true } :=
    failSessions_keeps (φ := State.sec) (fun _ _ => rfl) (fun _ _ => rfl) (fun _ _ => rfl) (fun _ _ => rfl) (fun _ _ => rfl)
      (fun _ _ => rfl) (fun _ _ => rfl) _ _
  rw [State.zeroize, wipeSecure_keeps (φ := State.sec) (fun _ _ => rfl) (fun _ _ => rfl) (fun _ _ => rfl) (fun _ _ => rfl) (fun _ _ => rfl),
    State.closeSessions_sec, hfail]
  simp only [Bool.not_true, List.filter_false]
theorem State.zeroize_owner {t b : Nat} (ht : t < 128) (hb : b < 16) (h : s.secureBank t b = true) : s.zeroize.owner t b = 0 := by
  refine State.wipeSecure_owner _ ht hb ?_
  rw [(State.closeSessions_sameRegs _ _).secureBank (by decide), (State.failSessions_sameRegs _ _).secureBank (by decide)]
  exact h

theorem State.tamperCounted_sameRegs : s.sameRegs s.tamperCounted [.SEC_LC] := s.fput_sameRegs (f := F.SEC_LC_TAMPERS) (by decide) 0 _
theorem State.tamperSourced_sameRegs (src : Nat) : s.sameRegs (s.tamperSourced src) [.SEC_TAMPER] :=
  s.fput_sameRegs (f := F.SEC_TAMPER_SRC) (by decide) 0 _
theorem State.tamperRaised_sameRegs : s.sameRegs s.tamperRaised [.SEC_STAT] :=
  (s.event_sameRegs (f := F.SEC_STAT_TAMPER) (by decide) 0).trans (State.raise_sameRegs _ _ _ _ _ _)
theorem State.tamperNoted_sameRegs (src : Nat) : s.sameRegs (s.tamperNoted src) [.SEC_LC, .SEC_TAMPER, .SEC_STAT] :=
  ((s.tamperCounted_sameRegs.mono (by decide)).trans ((State.tamperSourced_sameRegs _ src).mono (by decide))).trans
    ((State.tamperRaised_sameRegs _).mono (by decide))
theorem State.tamperNoted_sec (src : Nat) : (s.tamperNoted src).sec = s.sec := raise_keeps (φ := State.sec) (fun _ _ => rfl) _ _ _ _ _
theorem State.tamperCounted_tampers : s.tamperCounted.fget F.SEC_LC_TAMPERS 0 = min (s.fget F.SEC_LC_TAMPERS 0 + 1) 15 := by
  have hcount : s.tamperCounted.fget F.SEC_LC_TAMPERS 0 = min (s.fget F.SEC_LC_TAMPERS 0 + 1) 15 % 2 ^ 4 :=
    s.fget_fput_same F.SEC_LC_TAMPERS 0 _ (by decide) (by decide) (by decide)
  rw [hcount, Nat.mod_eq_of_lt (by omega)]
theorem State.tamperSourced_bit {src : Nat} (hsrc : src < 4) : bitOf ((s.tamperSourced src).fget F.SEC_TAMPER_SRC 0) src = true := by
  have hold : s.fget F.SEC_TAMPER_SRC 0 < 2 ^ 4 := bits_lt _ 3 0
  have hput : (s.tamperSourced src).fget F.SEC_TAMPER_SRC 0 = setBit (s.fget F.SEC_TAMPER_SRC 0) src % 2 ^ 4 :=
    s.fget_fput_same F.SEC_TAMPER_SRC 0 _ (by decide) (by decide) (by decide)
  rw [hput, Nat.mod_eq_of_lt (setBit_lt hold hsrc), bitOf_setBit_same]
theorem State.tamperRaised_flag : s.tamperRaised.flag F.SEC_STAT_TAMPER 0 = true :=
  ((State.raise_sameRegs _ [] _ _ _ _).flag F.SEC_STAT_TAMPER 0 (by decide) (by decide)).trans
    (s.flag_event_same F.SEC_STAT_TAMPER 0 (by decide) (by decide) (by decide))
/-- No later step of the three writes what an earlier one wrote. -/
theorem State.tamperNoted_results {src : Nat} (hsrc : src < 4) : (s.tamperNoted src).flag F.SEC_STAT_TAMPER 0 = true ∧
    (s.tamperNoted src).fget F.SEC_LC_TAMPERS 0 = min (s.fget F.SEC_LC_TAMPERS 0 + 1) 15 ∧
    bitOf ((s.tamperNoted src).fget F.SEC_TAMPER_SRC 0) src = true := by
  have hraised := State.tamperRaised_sameRegs (s.tamperCounted.tamperSourced src)
  refine ⟨State.tamperRaised_flag _, ?_, ?_⟩
  · rw [State.tamperNoted, hraised.fget F.SEC_LC_TAMPERS 0 (by decide) (by decide),
      (State.tamperSourced_sameRegs _ src).fget F.SEC_LC_TAMPERS 0 (by decide) (by decide), State.tamperCounted_tampers]
  · rw [State.tamperNoted, hraised.fget F.SEC_TAMPER_SRC 0 (by decide) (by decide)]
    exact State.tamperSourced_bit _ hsrc

end

/-- Without keys there is no quote (R357). -/
theorem State.quote_zeroed {s : State} (h : s.sec.zeroed = true) (nonce : List Byte) : s.quote nonce = none := by
  have hseed : s.ikSeed = none := by
    rw [State.ikSeed, State.keysLive, h, Bool.not_true, Bool.false_and, Bool.false_and, if_neg Bool.false_ne_true]
  rw [State.quote, hseed]

end Sys2Proof.Machine
end

section
/-! The end of a wipe, ATTEST, SPDM and tamper (O44). -/

namespace Sys2Proof.Machine

section
variable (s : State)

theorem State.wipeOver_calm {t : Fin 128} {b : Fin 16} (hwait : s.sec.lcWait = none) : (s.wipeOver t b).lcTry = s.wipeOver t b :=
  State.lcTry_none (by rw [State.wipeOver_sec, hwait])
theorem State.wipeOver_reads {t : Fin 128} {b : Fin 16} (hidle : (s.stop t).ingress = []) {o : Nat} (hlow : 2 ^ 19 * b.val ≤ o)
    (hhigh : o < 2 ^ 19 * (b.val + 1)) : (s.wipeOver t b).spmRaw t o 1 = [0] := by
  rw [s.wipeOver_idle t b hidle]
  exact s.wipeEnd_reads t b hlow hhigh

end

/-- Settles O44 (R113, R114, R255, R272, R341, R345, R346, R357; the statuses of ATTEST are log entry 66, the certificate chain log entry 90,
opaque signatures log entry 29): the end of a wipe leaves the bank zero and lets a waiting lifecycle change go on; an ATTEST completes with what
it answers; the streams of IDE start and stop; tamper leaves no key. -/
theorem securityResults : Obligations.SecurityResults := by
  intro s
  refine ⟨?wipe, ?attest, ?spdm, ?tamper⟩
  case wipe =>
    intro t b hwipe hpower w
    refine ⟨fun hwait => ⟨s.wipeOver t b, ?_, s.wipeOver_wiping t b, s.wipeOver_flag t b, fun hidle o hlow hhigh => s.wipeOver_reads hidle hlow hhigh⟩,
      fun target key hwait hwiped => ⟨_, execWipeComplete_powered hwipe hpower, ?_⟩⟩
    · exact (execWipeComplete_powered hwipe hpower).trans (by rw [s.wipeOver_calm hwait])
    · have hw : (s.wipeOver t b).sec.lcWait = some (target, key) := by rw [State.wipeOver_sec, hwait]
      obtain ⟨hstate, hnone⟩ := State.lcTry_changes hw hwiped
      refine ⟨hstate, hnone, ?_⟩
      rw [State.lcTry_wiped hw hwiped]
      exact State.mbxEnd_done _ s 1 (by decide)
  case attest =>
    intro k qp idx d hstart hkind hhead hopen out answered
    have hend : answered (s.attEnd qp d out) := by
      show match out with
        | none => _
        | some b => _
      cases out with
      | none => exact State.attEnd_none hstart.1
      | some b =>
        by_cases hsmall : d.u 56 4 < b.length
        · exact (if_pos hsmall).mpr (State.attEnd_small hstart.1 hsmall)
        · exact (if_neg hsmall).mpr (State.attEnd_fits hstart.1 hopen hsmall)
    have hends : ∀ kind x, k.val = kind → out = s.attOut (x s d) → answered (s.withAttest qp idx kind x) := fun kind x hk hout => by
      rw [State.withAttest_eq hstart (hkind.trans hk) (by omega) hhead hopen x, ← hout]
      exact hend
    exact ⟨fun hk => ⟨_, rfl, hends 0 _ hk (by simp only [out, hk, State.attOut])⟩,
      fun hk => ⟨_, rfl, hends 1 _ hk (by simp only [out, hk, State.attOut])⟩,
      fun hk => ⟨_, rfl, hends 2 _ hk (by simp only [out, hk, State.attOut])⟩⟩
  case spdm =>
    intro hlink hready say
    have hon : (!s.linkUp || !s.pcie.ready) = false := by rw [hlink, hready]; rfl
    have hruns : ∀ a : State, (if (!s.linkUp || !s.pcie.ready) = true then s else a) = a := fun a => if_neg (by rw [hon]; decide)
    refine ⟨fun v => congrArg _ (hruns _), congrArg _ (hruns _), ?_, congrArg _ (hruns _), fun i => congrArg _ (hruns _), fun k hspdm => ⟨?_, ?_⟩⟩
    · refine ⟨_, execSpdmMessage_establish hlink hready, ?_⟩
      cases s.ikSeed.isSome && s.sec.algOk
      · exact ⟨rfl, (Bool.or_false _).symm⟩
      · exact ⟨rfl, (Bool.or_true _).symm⟩
    · exact ⟨_, execSpdmMessage_ideStart hlink hready hspdm k, s.ideStart_results (mem_ide_started _ _)⟩
    · exact ⟨_, execSpdmMessage_ideStop hlink hready hspdm k, rfl, State.setIde_secure s _⟩
  case tamper =>
    intro src
    have hsec : (s.zeroize.tamperNoted src).sec = { s.sec with zeroed := true, sessions := [] } := (State.tamperNoted_sec _ _).trans s.zeroize_sec
    obtain ⟨hflag, hcount, hsrc⟩ := s.zeroize.tamperNoted_results src.isLt
    rw [s.zeroize_sameRegs.fget F.SEC_LC_TAMPERS 0 (by decide) (by decide)] at hcount
    refine ⟨_, execTamper_eq s src, by rw [hsec], by rw [hsec], hflag, hcount, hsrc, fun q => State.quote_zeroed (by rw [hsec]) q, fun t b ht hb h => ?_⟩
    rw [(s.zeroize.tamperNoted_sameRegs src).owner (by decide) (by decide)]
    exact s.zeroize_owner ht hb h

end Sys2Proof.Machine
end

section
/-! A write through a stop whose map of bad codes is out of order (O19). -/

namespace Sys2Proof.Machine

/-! ### A hidden syndrome -/

/-- A map of syndromes out of order: word 0 of device memory is listed twice, and the first entry, a good code, is the one that is read. -/
def hiddenSynd : SMap Nat := [(0, 0), (0, 7)]
/-- After reset, with that map. -/
def hiddenState : State := { State.reset with synd := hiddenSynd }

theorem hiddenState_gateOpen : hiddenState.gateOpen := ⟨rfl, by decide +kernel, by decide +kernel⟩
/-- No word of the first atom reads as bad. -/
theorem hiddenState_atomClean : hiddenState.atomClean (hiddenState.atomPlace (2 ^ 32 * (0 : Fin 128).val + (0 : Word).toNat)) = true := by
  decide +kernel
/-- A write of nine bytes stores word 0 whole, which drops the first entry; the read that merges the ninth byte into word 1 meets the second
entry and counts a correction. -/
theorem exec_hiddenState : ∃ u, exec (.vchRequest 0 0 true 0 9 (zeros 9)) hiddenState = .next u ∧ u.rget .VCH_CE_CNT 0 = 1 :=
  ⟨_, rfl, by decide +kernel⟩

/-- Refutes O19: in a state whose map of syndromes is out of order an atom can read as good and still hide a flipped bit, which a write to
the atom uncovers and counts, so that `VCH_CE_CNT` changes. The statement lacks the hypothesis that the maps of bad codes are sorted. -/
theorem not_memoryRequestResults : ¬ Obligations.MemoryRequestResults := by
  unfold Obligations.MemoryRequestResults
  intro h
  obtain ⟨u, hexec, hcount⟩ := exec_hiddenState
  obtain ⟨hrequest, -, -⟩ := h 0 hiddenState
  obtain ⟨u', hexec', -, -, hregs, -, -⟩ := (hrequest 0 true 0 9 (zeros 9) hiddenState_gateOpen).1 rfl rfl hiddenState_atomClean (by decide)
  obtain rfl : u = u' := Host.Outcome.next.inj (hexec.symm.trans hexec')
  have hkept : u.rget .VCH_CE_CNT 0 = hiddenState.rget .VCH_CE_CNT 0 := hregs .VCH_CE_CNT 0 (by simp)
  rw [hcount] at hkept
  exact absurd hkept (by decide +kernel)

end Sys2Proof.Machine
end

section
/-! What a read of an atom answers and records (R122, R134, R138, R142, R460). -/

namespace Sys2Proof.Machine

/-! ### The words of an atom (R134, R460) -/

theorem Memory.getBytes_length (m : List Host.Cell) (a n : Nat) : (Memory.getBytes m a n).length = n := by
  rw [Memory.getBytes, List.length_map, List.length_range]
/-- A chunk of equally long chunks. -/
theorem flatMap_range_chunk {α : Type} {n : Nat} : ∀ {i m : Nat} {f : Nat → List α}, (∀ j, (f j).length = n) → i < m →
    (((List.range m).flatMap f).drop (n * i)).take n = f i
  | i, 0, _, _, hi => absurd hi (Nat.not_lt_zero i)
  | 0, m + 1, f, hf, _ => by rw [List.range_succ_eq_map, List.flatMap_cons, Nat.mul_zero, List.drop_zero, List.take_left' (hf 0)]
  | i + 1, m + 1, f, hf, hi => by
    have hskip : n * (i + 1) = (f 0).length + n * i := by rw [hf 0, Nat.mul_succ, Nat.add_comm]
    rw [List.range_succ_eq_map, List.flatMap_cons, List.flatMap_map, hskip, List.drop_length_add_append]
    exact flatMap_range_chunk (f := fun j => f (j + 1)) (fun j => hf (j + 1)) (Nat.lt_of_succ_lt_succ hi)
/-- The one index below `n` that a predicate picks. -/
theorem filter_range_eq_singleton {p : Nat → Bool} {i n : Nat} (hi : i < n) (h : ∀ j, j < n → (p j = true ↔ j = i)) :
    (List.range n).filter p = [i] := by
  have hcongr : (List.range n).filter p = (List.range n).filter (· == i) := List.filter_congr fun j hj => by
    rw [Bool.eq_iff_iff, h j (List.mem_range.mp hj), beq_iff_eq]
  rw [hcongr, List.filter_beq, List.count_eq_one_of_mem List.nodup_range (List.mem_range.mpr hi), List.replicate_one]

section
variable {s : State} {pl b : Nat}

theorem State.wordLook_verdict (s : State) (pl : Nat) : (s.wordLook pl).2 = checkSyndrome (SMap.get s.synd (pl / 8) 0) := by
  unfold State.wordLook
  dsimp only
  split
  · next h => exact h.symm
  · rfl
theorem State.wordLook_fixData (h : checkSyndrome (SMap.get s.synd (pl / 8) 0) = .fixData b) :
    (s.wordLook pl).1 = leBytes 8 (leNat (Memory.getBytes s.mem pl 8) ^^^ 2 ^ b) := by
  simp only [State.wordLook, h]
theorem State.wordLook_length (s : State) (pl : Nat) : (s.wordLook pl).1.length = 8 := by
  unfold State.wordLook
  dsimp only
  split
  · exact leBytes_length 8 _
  · exact Memory.getBytes_length _ _ _
/-- Word `j` of the atom at a place. -/
theorem State.wordLook_at (s : State) (pl j : Nat) :
    (s.wordLook (pl + 8 * j)).2 = checkSyndrome (SMap.get s.synd (pl / 8 + j) 0) := by
  rw [State.wordLook_verdict, Nat.add_mul_div_left _ _ (by decide)]

/-- The word that is asked for, and its DA when it is uncorrectable. -/
theorem State.atomPart_word (s : State) (pl base : Nat) {i : Nat} (hi : i < 32) :
    atomPart (s.atomLook pl) base (8 * i) 8 =
      ((s.wordLook (pl + 8 * i)).1, if (s.wordLook (pl + 8 * i)).2 = .bad then some (base + 8 * i) else none) := by
  have hword : ∀ j, j < 32 → (s.atomLook pl)[j]?.map (·.2) = some (s.wordLook (pl + 8 * j)).2 := fun j hj => by
    rw [State.atomLook, List.getElem?_map, List.getElem?_range hj]
    rfl
  refine Prod.ext ?_ ?_
  · have hflat : (s.atomLook pl).flatMap (·.1) = (List.range 32).flatMap fun j => (s.wordLook (pl + 8 * j)).1 := List.flatMap_map _ _ _
    rw [atomPart, hflat]
    exact flatMap_range_chunk (fun j => s.wordLook_length _) hi
  · rw [atomPart]
    dsimp only
    split
    · next hbad =>
      rw [← List.head?_filter, filter_range_eq_singleton hi]
      · rfl
      · intro j hj
        simp only [hword j hj, Option.some.injEq, Bool.and_eq_true, decide_eq_true_eq]
        constructor
        · omega
        · rintro rfl
          exact ⟨hbad, by omega, by omega⟩
    · next hgood =>
      rw [List.find?_eq_none.mpr]
      · rfl
      · intro j hj
        simp only [hword j (List.mem_range.mp hj), Option.some.injEq, Bool.and_eq_true, decide_eq_true_eq]
        rintro ⟨hbad, hlo, hhi⟩
        obtain rfl : j = i := by omega
        exact hgood hbad

end

/-! ### What is counted stays counted -/

/-- A raise that stands in one of the units' lists stays there when a list of one unit only grows or counts merged raises. -/
theorem any_get_put {m : SMap (List Raise)} {p : Raise → Bool} {k : Nat} {l : List Raise} (hl : (SMap.get m k []).any p = true → l.any p = true)
    {j : Nat} (h : (SMap.get m j []).any p = true) : (SMap.get (SMap.put m k l) j []).any p = true := by
  by_cases hj : j = k
  · subst hj
    rw [SMap.get_put_same]
    exact hl h
  · rwa [SMap.get, SMap.find_put_other l hj]
/-- A raise stands in the collector of its unit, or waits for room in it, and takes no other raise away (R390). -/
theorem State.raisedIn_raiseAs {s : State} {unit ty i ty' inst : Nat}
    (h : s.raisedIn unit ty i = true ∨ unit = srcUnit (512 * ty' + inst) ∧ ty = ty' ∧ i = inst) (loc arg code : Nat) (svc : Bool) :
    (s.raiseAs ty' inst loc arg code svc).raisedIn unit ty i = true := by
  have hmerge : ∀ l : List Raise, l.any (·.src == 512 * ty + i) = true →
      (l.map (fun r => if r.src = 512 * ty' + inst then { r with merged := r.merged + 1 } else r)).any (·.src == 512 * ty + i) = true := fun l hl => by
    rwa [any_src_map _ _ (fun r => by split <;> rfl)]
  have hmore : ∀ (l : List Raise) r, l.any (·.src == 512 * ty + i) = true → (l ++ [r]).any (·.src == 512 * ty + i) = true := fun l r hl => by
    rw [List.any_append, hl, Bool.true_or]
  have hcond : (if srcCond ty' = true then
      { s with flt := { s.flt with condAt := SMap.put s.flt.condAt (512 * ty' + inst) s.clk.ns } } else s : State).raisedIn unit ty i = true ∨
        unit = srcUnit (512 * ty' + inst) ∧ ty = ty' ∧ i = inst := by
    split <;> exact h
  unfold State.raiseAs
  dsimp only
  generalize (if srcCond ty' = true then _ else s : State) = v at hcond ⊢
  simp only [State.raisedIn, List.any_append, Bool.or_eq_true] at hcond ⊢
  rcases hcond with hold | ⟨rfl, rfl, rfl⟩
  · split
    · exact hold.imp_left (any_get_put (hmerge _))
    · split
      · exact hold.imp_right (any_get_put (hmerge _))
      · split
        · exact hold.imp_left (any_get_put (hmore _ _))
        · exact hold.imp_right (any_get_put (hmore _ _))
  · split
    · next hcoll => exact .inl (any_get_put (hmerge _) hcoll)
    · split
      · next hwait => exact .inr (any_get_put (hmerge _) hwait)
      · split
        · exact .inl (by simp [SMap.get_put_same])
        · exact .inr (by simp [SMap.get_put_same])

/-- The registers that the bucket, the tracker and a remap candidate write. -/
def tallyRegs : List Reg := [.VCH_BUCKET, .VCH_CAND, .VCH_STAT]
/-- `u` is `s` after events of the bucket, the tracker or a candidate: other registers are as they were, and no flag of `VCH_STAT` and no raise is
gone. -/
structure State.tallied (s u : State) : Prop where
  regs : s.sameRegs u tallyRegs
  stat : ∀ g : Field, g.reg = .VCH_STAT → g.lo < 16 → g.hi = g.lo → g.app ≠ .staged → ∀ i, s.flag g i = true → u.flag g i = true
  raised : ∀ unit ty i, s.raisedIn unit ty i = true → u.raisedIn unit ty i = true

section
variable {s u v : State}

theorem State.tallied.trans (h : s.tallied u) (h' : u.tallied v) : s.tallied v where
  regs := h.regs.trans h'.regs
  stat g hreg hlo hhi ha i hg := h'.stat g hreg hlo hhi ha i (h.stat g hreg hlo hhi ha i hg)
  raised unit ty i hr := h'.raised unit ty i (h.raised unit ty i hr)
theorem State.tallied.ite {a b : State} (c : Prop) [Decidable c] (ha : s.tallied a) (hb : s.tallied b) : s.tallied (if c then a else b) := by
  split
  · exact ha
  · exact hb
/-- A step that leaves `VCH_STAT` and the raises alone. -/
theorem State.sameRegs.tallied {l : List Reg} (h : s.sameRegs u l) (hl : l ⊆ [.VCH_BUCKET, .VCH_CAND]) (hflt : u.flt = s.flt) : s.tallied u where
  regs := h.mono (List.Subset.trans hl (by decide))
  stat g hreg _ _ ha i hg := by rwa [h.flag g i (fun hm => absurd (hreg ▸ hl hm) (by decide)) ha]
  raised _ _ _ hr := by rwa [State.raisedIn, hflt]
theorem State.event_tallied (s : State) {f : Field} (hf : f.reg = .VCH_STAT) (hlo : f.lo < 16) (hhi : f.hi = f.lo) (ha : f.app ≠ .staged) (t : Nat) :
    s.tallied (s.event f t) where
  regs := s.event_sameRegs (by rw [hf]; decide) t
  stat g _ hglo hghi hga i hg := s.flag_event_mono f g t i hlo hglo hghi hhi ha hga hg
  raised _ _ _ hr := hr
theorem State.raiseAs_tallied (s : State) (ty inst loc arg code : Nat) (svc : Bool) : s.tallied (s.raiseAs ty inst loc arg code svc) where
  regs := s.raiseAs_sameRegs _ ty inst loc arg code svc
  stat g _ _ _ ha i hg := by rwa [(s.raiseAs_sameRegs [] ty inst loc arg code svc).flag g i (by simp) ha]
  raised _ _ _ hr := State.raisedIn_raiseAs (.inl hr) loc arg code svc
theorem State.setStop_tallied (s : State) (t : Nat) (p : Stop) : s.tallied (s.setStop t p) :=
  State.sameRegs.tallied (State.sameRegs_of_regs [] rfl) (by simp) rfl

theorem State.bucketAdd_tallied (s : State) (t : Nat) : s.tallied (s.bucketAdd t) := by
  have hlevel : ∀ (a : State) v, a.tallied (a.fput F.VCH_BUCKET_LEVEL t v) := fun a v =>
    (a.fput_sameRegs (l := [.VCH_BUCKET]) (by decide) t v).tallied (by decide) rfl
  have hovf := s.event_tallied (f := F.VCH_STAT_BKT_OVF) rfl (by decide) rfl (by decide) t
  exact .ite _ ((hovf.trans (State.raiseAs_tallied _ _ _ _ _ _ _)).trans (hlevel _ _)) (hlevel _ _)
theorem State.candidate_tallied (s : State) (t key : Nat) (ue : Bool) : s.tallied (s.candidate t key ue) := by
  have hword : ∀ (a : State) w, a.tallied (a.rput .VCH_CAND t w) := fun a w => (a.rput_sameRegs (l := [.VCH_CAND]) (by decide) t w).tallied (by decide) rfl
  unfold State.candidate
  dsimp only
  split
  · exact (s.setStop_tallied t _).trans (State.event_tallied _ rfl (by decide) rfl (by decide) t)
  · exact (((s.setStop_tallied t _).trans (hword _ _)).trans (State.event_tallied _ rfl (by decide) rfl (by decide) t)).trans
      (State.raiseAs_tallied _ _ _ _ _ _ _)
theorem State.trackAdd_tallied (s : State) (t key : Nat) : s.tallied (s.trackAdd t key) :=
  .ite _ (s.candidate_tallied t key false) (s.setStop_tallied t _)

end

/-! ### A correction and an uncorrectable word (R138, R142) -/

/-- A correction is counted and flagged. -/
theorem State.countCorrection_counts (s : State) (t key : Nat) : (s.countCorrection t key).flag F.VCH_STAT_CE t = true ∧
    (s.countCorrection t key).fget F.VCH_CE_CNT_CE_CNT t = (s.fget F.VCH_CE_CNT_CE_CNT t + 1) % 2 ^ 32 := by
  have htally : ((s.fadd F.VCH_CE_CNT_CE_CNT t 1).event F.VCH_STAT_CE t).tallied (s.countCorrection t key) :=
    (State.bucketAdd_tallied _ t).trans (State.trackAdd_tallied _ t key)
  refine ⟨htally.stat _ rfl (by decide) rfl (by decide) t (State.flag_event_same _ _ t (by decide) rfl (by decide)), ?_⟩
  rw [htally.regs.fget _ t (by decide) (by decide), State.fget_event_other _ _ _ _ _ (fun h => absurd h.1 (by decide)),
    s.fget_fadd_same _ t 1 (by decide) (by decide) (by decide)]
  rfl

/-- An uncorrectable word is recorded with its DA and class, and flagged. -/
def State.ueNoted (s : State) (t da src : Nat) : State :=
  ((s.rput .VCH_UE_LO t (BitVec.ofNat 32 da)).rput .VCH_UE_HI t (BitVec.ofNat 32 (da / 2 ^ 32 % 128 + 2 ^ 8 * src + 2 ^ 31))).event F.VCH_STAT_UE t
theorem State.ueNoted_lo (s : State) (t da src : Nat) : (s.ueNoted t da src).rget .VCH_UE_LO t = BitVec.ofNat 32 da := by
  rw [State.ueNoted, State.rget_event_other _ _ _ (by simp [F.VCH_STAT_UE]), State.rget_rput_other _ _ (by simp), State.rget_rput_same]
theorem State.ueNoted_hi (s : State) (t da : Nat) {src : Nat} (hsrc : src < 16) {g : Field} (hreg : g.reg = .VCH_UE_HI) (ha : g.app ≠ .staged) :
    (s.ueNoted t da src).fget g t = bits (da / 2 ^ 32 % 128 + 2 ^ 8 * src + 2 ^ 31) g.hi g.lo := by
  rw [State.ueNoted, State.fget_event_other _ _ _ _ _ (by simp [hreg, F.VCH_STAT_UE]), State.fget_rput _ _ _ _ _ _ ha, if_pos ⟨hreg, rfl⟩,
    BitVec.toNat_ofNat, Nat.mod_eq_of_lt (by omega)]
theorem State.recordUe_tallied (s : State) (t da src : Nat) : (s.ueNoted t da src).tallied (s.recordUe t da src) :=
  (State.raiseAs_tallied _ _ _ _ _ _ _).trans (State.candidate_tallied _ t _ true)
theorem State.recordUe_raisedIn (s : State) {t : Nat} (ht : t < 128) (da src : Nat) : (s.recordUe t da src).raisedIn t 0x10 t = true :=
  (State.candidate_tallied _ t _ true).raised t 0x10 t (State.raisedIn_raiseAs (.inr ⟨(srcUnit_tile (by decide) ht).symm, rfl, rfl⟩) _ _ _ _)
theorem State.recordUe_flag (s : State) (t da src : Nat) : (s.recordUe t da src).flag F.VCH_STAT_UE t = true :=
  (s.recordUe_tallied t da src).stat _ rfl (by decide) rfl (by decide) t (State.flag_event_same _ _ t (by decide) rfl (by decide))
theorem State.recordUe_lo (s : State) (t da src : Nat) : (s.recordUe t da src).rget .VCH_UE_LO t = BitVec.ofNat 32 da :=
  ((s.recordUe_tallied t da src).regs _ t (by decide)).trans (s.ueNoted_lo t da src)
theorem State.recordUe_valid (s : State) (t da : Nat) {src : Nat} (hsrc : src < 16) : (s.recordUe t da src).flag F.VCH_UE_HI_VALID t = true := by
  rw [State.flag, (s.recordUe_tallied t da src).regs.fget _ t (by decide) (by decide), s.ueNoted_hi t da hsrc rfl (by decide), beq_iff_eq]
  simp only [bits, F.VCH_UE_HI_VALID]
  omega
theorem State.recordUe_hi (s : State) (t da : Nat) {src : Nat} (hsrc : src < 16) :
    (s.recordUe t da src).fget F.VCH_UE_HI_DA_HI t = da / 2 ^ 32 % 128 := by
  rw [(s.recordUe_tallied t da src).regs.fget _ t (by decide) (by decide), s.ueNoted_hi t da hsrc rfl (by decide)]
  simp only [bits, F.VCH_UE_HI_DA_HI]
  omega

/-! ### A read of an atom (R132, R134, R136) -/

/-- The requester class that an uncorrectable word is recorded with. -/
def ueClass (t src₀ : Nat) : Nat := if 16 ≤ src₀ then (if t = src₀ - 16 then 1 else 2) else src₀
theorem ueClass_lt (t src₀ : Nat) : ueClass t src₀ < 16 := by
  unfold ueClass
  split
  · split <;> decide
  · omega
/-- A read once it has counted its corrections and written them back. -/
def State.atomFixed (s : State) (da src₀ ondie : Nat) : State :=
  let t := da / 2 ^ 32
  let pl := s.atomPlace da
  let ws := s.atomLook pl
  let fixed := ws.any (·.2.fixed) || decide (ondie ≠ 0) || decide (SMap.get s.soft (pl / 256) 0 ≠ 0)
  let s1 := if fixed then s.countCorrection t (offRowKey (da % 2 ^ 32)) else s
  if fixed && s.service t && (ueClass t src₀ ≠ 7 || ws.all (·.2 ≠ .bad)) then s1.writeBack pl ws else s1
/-- The indices of the uncorrectable words of the atom at a place. -/
def State.badWords (s : State) (pl : Nat) : List Nat := (List.range 32).filter (fun j => (s.wordLook (pl + 8 * j)).2 = .bad)
/-- Every uncorrectable word of the atom is recorded. -/
theorem State.atomRead_records (s : State) (da src₀ ondie : Nat) : (s.atomRead da src₀ ondie).1 =
    (s.badWords (s.atomPlace da)).foldl (fun a j => a.recordUe (da / 2 ^ 32) (da - da % 256 + 8 * j) (ueClass (da / 2 ^ 32) src₀))
      (s.atomFixed da src₀ ondie) := by
  have hfold : (s.atomRead da src₀ ondie).1 = ((s.atomLook (s.atomPlace da)).zipIdx).foldl (fun a p =>
      if p.1.2 = .bad then a.recordUe (da / 2 ^ 32) (da - da % 256 + 8 * p.2) (ueClass (da / 2 ^ 32) src₀) else a) (s.atomFixed da src₀ ondie) := rfl
  rw [hfold, State.atomLook, zipIdx_map_range, List.foldl_map, State.badWords, List.foldl_filter]
  simp only [decide_eq_true_eq]
/-- An atom with a corrected word is counted once, and its registers change no further. -/
theorem State.atomFixed_counts {s : State} {da : Nat} (h : (s.atomLook (s.atomPlace da)).any (·.2.fixed) = true) (src₀ ondie : Nat) :
    (s.countCorrection (da / 2 ^ 32) (offRowKey (da % 2 ^ 32))).sameRegs (s.atomFixed da src₀ ondie) [] := by
  unfold State.atomFixed
  simp only [h, Bool.true_or, if_true]
  exact .ite _ (State.writeBack_sameRegs _ _ _ _) (State.sameRegs_refl _ _)

section
variable {s : State} {pl i : Nat} (hi : i < 32) (hrest : ∀ j, j < 32 → j ≠ i → SMap.get s.synd (pl / 8 + j) 0 = 0)
include hi hrest

/-- Of an atom whose other words are good, the word itself can be uncorrectable. -/
theorem State.badWords_of_rest : s.badWords pl = if checkSyndrome (SMap.get s.synd (pl / 8 + i) 0) = .bad then [i] else [] := by
  have hgood : ∀ j, j < 32 → j ≠ i → (s.wordLook (pl + 8 * j)).2 ≠ .bad := fun j hj hne => by
    rw [State.wordLook_at, hrest j hj hne]
    decide
  unfold State.badWords
  split
  · next hbad =>
    refine filter_range_eq_singleton hi fun j hj => ?_
    rw [decide_eq_true_eq]
    refine ⟨fun h => by_contra fun hne => hgood j hj hne h, ?_⟩
    rintro rfl
    rw [State.wordLook_at, hbad]
  · next hok =>
    refine List.filter_eq_nil_iff.mpr fun j hj => ?_
    rw [decide_eq_true_eq]
    by_cases hne : j = i
    · rwa [hne, State.wordLook_at]
    · exact hgood j (List.mem_range.mp hj) hne

end

section
variable {s : State} {da i : Nat} (hi : i < 32) (hrest : ∀ j, j < 32 → j ≠ i → SMap.get s.synd (s.atomPlace da / 8 + j) 0 = 0)
include hi hrest

/-- An atom with one flipped data bit is counted once, and nothing is recorded. -/
theorem State.atomRead_corrects {b : Nat} (h : checkSyndrome (SMap.get s.synd (s.atomPlace da / 8 + i) 0) = .fixData b) (src₀ ondie : Nat) :
    (s.countCorrection (da / 2 ^ 32) (offRowKey (da % 2 ^ 32))).sameRegs (s.atomRead da src₀ ondie).1 [] := by
  have hword : s.wordLook (s.atomPlace da + 8 * i) ∈ s.atomLook (s.atomPlace da) := List.mem_map.mpr ⟨i, List.mem_range.mpr hi, rfl⟩
  rw [State.atomRead_records, State.badWords_of_rest hi hrest, h, if_neg nofun]
  exact State.atomFixed_counts (List.any_eq_true.mpr ⟨_, hword, by rw [State.wordLook_at, h]; rfl⟩) src₀ ondie
/-- Of an atom with one uncorrectable word that word is recorded. -/
theorem State.atomRead_uncorrectable (h : checkSyndrome (SMap.get s.synd (s.atomPlace da / 8 + i) 0) = .bad) (src₀ ondie : Nat) :
    (s.atomRead da src₀ ondie).1 =
      (s.atomFixed da src₀ ondie).recordUe (da / 2 ^ 32) (da - da % 256 + 8 * i) (ueClass (da / 2 ^ 32) src₀) := by
  rw [State.atomRead_records, State.badWords_of_rest hi hrest, if_pos h]
  rfl

end

/-! ### The data of an accepted read (R122) -/

/-- Read `k` has left the queue of accepted reads, in a data slot. -/
def State.readTaken (s : State) (t k : Nat) : State :=
  ({ s with gate := { s.gate with reqs := s.gate.reqs.eraseIdx k } } : State).setStop t
    { s.stop t with slotUse := (s.clk.mc :: (s.stop t).slotUse).take 8 }
/-- What comes back to the requester. -/
def State.readBack (s : State) (part : List Byte × Option Nat) : State :=
  { s with outs := { s.outs with rbytes := if part.2.isSome then [] else part.1, busErr := part.2.isSome } }
theorem execVchReadData_served {t : Fin 128} {k : Nat} {s : State} {r : VReq} (hreq : s.gate.reqs[k]? = some r)
    (hfirst : (s.gate.reqs.take k).any (fun q => q.da / 256 = r.da / 256) = false) (hda : r.da / 2 ^ 32 = t.val) (hslot : s.slotFree t = true)
    (ondie : BitVec 16) : execVchReadData t k ondie s = .next (((s.readTaken t k).atomRead r.da r.src ondie.toNat).1.readBack
      (atomPart (s.atomLook (s.atomPlace r.da)) (r.da - r.da % 256) (r.da % 256) r.len)) := by
  unfold execVchReadData
  simp only [hreq, hfirst, hda, hslot, ne_eq, not_true_eq_false, decide_false, Bool.not_true, Bool.or_self, Bool.false_eq_true, if_false]
  rfl

/-- Settles O20: of an atom with one bad word, a read counts the correction once or records that word alone. -/
theorem readChecksWords : Obligations.ReadChecksWords := by
  unfold Obligations.ReadChecksWords
  intro t k s r i pl hreq hfirst hi hslot hda hoff hlen hrest
  have hexec : exec (.vchReadData t k 0) s = _ := execVchReadData_served hreq hfirst hda hslot 0
  rw [hoff, hlen, State.atomPart_word s pl _ hi, State.wordLook_at] at hexec
  refine ⟨fun b hfix => ?_, fun hue => ?_⟩
  · rw [hfix, if_neg nofun, State.wordLook_fixData (by rwa [Nat.add_mul_div_left _ _ (by decide)])] at hexec
    have hregs := State.atomRead_corrects (s := s.readTaken t k) hi hrest hfix r.src 0
    rw [hda] at hregs
    obtain ⟨hflag, hcount⟩ := (s.readTaken t k).countCorrection_counts t (offRowKey (r.da % 2 ^ 32))
    exact ⟨_, hexec, rfl, rfl, (hregs.fget F.VCH_CE_CNT_CE_CNT t (by simp) (by decide)).trans hcount,
      (hregs.flag F.VCH_STAT_CE t (by simp) (by decide)).trans hflag⟩
  · have hword : r.da - r.da % 256 + 8 * i = r.da := by omega
    have hread := State.atomRead_uncorrectable (s := s.readTaken t k) hi hrest hue r.src 0
    rw [hword, hda] at hread
    rw [hue, if_pos rfl, show (0 : BitVec 16).toNat = 0 from rfl, hread] at hexec
    have hclass := ueClass_lt t r.src
    refine ⟨_, hexec, rfl, State.recordUe_flag _ _ _ _, State.recordUe_lo _ _ _ _, State.recordUe_valid _ _ _ hclass, ?_,
      State.recordUe_raisedIn _ t.isLt _ _⟩
    exact (State.recordUe_hi _ _ _ hclass).trans (by rw [hda, Nat.mod_eq_of_lt t.isLt])

end Sys2Proof.Machine
end

section
/-! Bank-side cores: reads after writes of one core and of its counters, and an instruction that issues and completes (R144 to R150). -/

namespace Sys2Proof.Machine

/-! ### Counters in two registers -/

theorem State.get64_put64_same (s : State) {lo hi : Reg} (hne : lo ≠ hi) (i v : Nat) : (s.put64 lo hi i v).get64 lo hi i = v % 2 ^ 64 := by
  rw [State.get64, State.put64, State.rget_rput_other _ _ (fun h => hne h.1), State.rget_rput_same, State.rget_rput_same, BitVec.toNat_ofNat,
    BitVec.toNat_ofNat]
  omega
theorem State.get64_put64_other (s : State) (lo hi : Reg) {i j : Nat} (hne : j ≠ i) (v : Nat) : (s.put64 lo hi i v).get64 lo hi j = s.get64 lo hi j := by
  have hkeep : ∀ r, (s.put64 lo hi i v).rget r j = s.rget r j := fun r =>
    (State.rget_rput_other _ _ fun h => hne h.2).trans (State.rget_rput_other _ _ fun h => hne h.2)
  rw [State.get64, State.get64, hkeep, hkeep]
theorem State.sameRegs.get64 {s u : State} {l : List Reg} (h : s.sameRegs u l) {lo hi : Reg} (hlo : lo ∉ l) (hhi : hi ∉ l) (i : Nat) :
    u.get64 lo hi i = s.get64 lo hi i := by
  rw [State.get64, State.get64, h _ _ hlo, h _ _ hhi]
theorem State.addCount_sameRegs (s : State) {lo hi : Reg} {l : List Reg} (hlo : lo ∈ l) (hhi : hi ∈ l) (i n : Nat) :
    s.sameRegs (s.addCount lo hi i n) l := s.put64_sameRegs hlo hhi i _

/-! ### One core -/

theorem State.core_of_cores {s u : State} (h : u.cores = s.cores) (t c : Nat) : u.core t c = s.core t c := by rw [State.core, State.core, h]
theorem State.setCore_sameRegs (s : State) (t c : Nat) (k : Core) (l : List Reg) : s.sameRegs (s.setCore t c k) l := sameRegs_of_regs l rfl
theorem State.onlyCore_refl (s : State) (t c : Nat) : s.onlyCore s t c (s.core t c) := ⟨rfl, fun _ _ _ _ => rfl⟩
theorem State.onlyCore.of_cores {s u v : State} {t c : Nat} {k : Core} (h : s.onlyCore u t c k) (hcores : v.cores = u.cores) : s.onlyCore v t c k :=
  ⟨(State.core_of_cores hcores t c).trans h.1, fun v d hd hne => (State.core_of_cores hcores v d).trans (h.2 v d hd hne)⟩
theorem State.onlyCore.from_cores {s s' u : State} {t c : Nat} {k : Core} (h : s'.onlyCore u t c k) (hcores : s'.cores = s.cores) : s.onlyCore u t c k :=
  ⟨h.1, fun v d hd hne => (h.2 v d hd hne).trans (State.core_of_cores hcores v d)⟩
theorem State.onlyCore.setCore {s u : State} {t c : Nat} {k : Core} (h : s.onlyCore u t c k) (hc : c < 64) (k' : Core) :
    s.onlyCore (u.setCore t c k') t c k' :=
  ⟨u.core_setCore_same t c k', fun v d hd hne => (u.core_setCore_other k' (by omega)).trans (h.2 v d hd hne)⟩
theorem State.onlyCore_setCore (s : State) (t : Nat) {c : Nat} (hc : c < 64) (k : Core) : s.onlyCore (s.setCore t c k) t c k :=
  (s.onlyCore_refl t c).setCore hc k

/-! ### An instruction completes (R147, R150) -/

/-- The counter of the bc in which a core runs. -/
def cycleRegs : List Reg := [.BSC_CYCLES_LO, .BSC_CYCLES_HI]
/-- `u` is `s` after an instruction of core (t, c) that took `n` bc and leaves the core standing at `k`: the bc and those that it waited are counted. -/
structure State.ran (s u : State) (t c : Nat) (k : Core) (n : Nat) : Prop where
  core : s.onlyCore u t c { k with waitFrom := none }
  cycles : u.get64 .BSC_CYCLES_LO .BSC_CYCLES_HI (coreIdx t c) = (s.cyclesNow t c + n) % 2 ^ 64
  regs : s.sameRegs u cycleRegs
  rest : { u with cores := s.cores, regs := s.regs } = s

section
variable {s u : State} {t c : Nat} {k : Core}

theorem State.ran.cstate {n : Nat} (h : s.ran u t c k n) (v d : Nat) : u.cstate v d = s.cstate v d :=
  h.regs.fget F.BSC_CSTAT_LO_STATE _ (by decide) (by decide)
theorem State.ran.gate {n : Nat} (h : s.ran u t c k n) : u.gate = s.gate := (congrArg State.gate h.rest :)
theorem State.ran.tiles {n : Nat} (h : s.ran u t c k n) : u.tiles = s.tiles := (congrArg State.tiles h.rest :)
theorem State.ran.act {n : Nat} (h : s.ran u t c k n) : u.act = s.act := (congrArg State.act h.rest :)

/-- A later change of the core alone. -/
theorem State.ran.setCore {n : Nat} (h : s.ran u t c k n) (hc : c < 64) (k' : Core) : s.ran (u.setCore t c { k' with waitFrom := none }) t c k' n where
  core := h.core.setCore hc _
  cycles := h.cycles
  regs := h.regs
  rest := h.rest

variable (hc : c < 64)
include hc

/-- The bc are counted. -/
theorem State.onlyCore.coreRan (h : s.onlyCore u t c k) (hrest : { u with cores := s.cores } = s) (hwait : k.waitFrom = (s.core t c).waitFrom) (n : Nat) :
    s.ran (u.coreRan t c n) t c k n where
  core := by
    have hset := h.setCore hc { k with waitFrom := none }
    rw [← h.1] at hset ⊢
    exact hset.of_cores rfl
  cycles := by
    have hregs : u.regs = s.regs := (congrArg State.regs hrest :)
    have hclk : u.clk = s.clk := (congrArg State.clk hrest :)
    have hsince : u.bcSince = s.bcSince := funext fun m => by rw [State.bcSince, State.bcSince, hclk]
    have hget : ∀ v, (u.setCore t c v).get64 .BSC_CYCLES_LO .BSC_CYCLES_HI (coreIdx t c) = s.get64 .BSC_CYCLES_LO .BSC_CYCLES_HI (coreIdx t c) :=
      fun v => (State.sameRegs_of_regs (s := s) [] hregs).get64 (by decide) (by decide) _
    unfold State.coreRan
    dsimp only
    rw [State.addCount, State.get64_put64_same _ (by decide), hget, h.1, hwait, hsince, State.cyclesNow]
    omega
  regs := (State.sameRegs_of_regs (s := s) _ ((congrArg State.regs hrest :))).trans
    ((u.setCore_sameRegs t c _ _).trans (State.addCount_sameRegs _ (by decide) (by decide) _ _))
  rest := by
    have hkeep := State.coreRan_keeps (φ := fun v : State => { v with cores := s.cores, regs := s.regs }) (fun _ _ => rfl) (fun _ _ => rfl) u t c n
    have hregs := congrArg (fun v : State => { v with regs := s.regs }) hrest
    exact hkeep.trans hregs
/-- The next instruction stands at `pc`. -/
theorem State.onlyCore.bscJump (h : s.onlyCore u t c k) (hrest : { u with cores := s.cores } = s) (hwait : k.waitFrom = (s.core t c).waitFrom) (n pc : Nat) :
    s.ran (u.bscJump t c n pc) t c { k with pc := pc } n := by
  have hran := h.coreRan hc hrest hwait n
  have hset := hran.setCore hc { k with pc := pc }
  have hcore := hran.core.1
  unfold State.bscJump
  dsimp only
  rwa [hcore]
theorem State.onlyCore.bscRetire (h : s.onlyCore u t c k) (hrest : { u with cores := s.cores } = s) (hwait : k.waitFrom = (s.core t c).waitFrom) (n : Nat) :
    s.ran (u.bscRetire t c n) t c { k with pc := k.pc + 1 } n := by
  have hran := h.bscJump hc hrest hwait n (k.pc + 1)
  rwa [← h.1] at hran ⊢

end

/-- An instruction that leaves its core alone but for the PC. -/
theorem State.bscJump_ran (s : State) (t : Nat) {c : Nat} (hc : c < 64) (n pc : Nat) : s.ran (s.bscJump t c n pc) t c { s.core t c with pc := pc } n :=
  (s.onlyCore_refl t c).bscJump hc rfl rfl n pc
theorem State.bscRetire_ran (s : State) (t : Nat) {c : Nat} (hc : c < 64) (n : Nat) :
    s.ran (s.bscRetire t c n) t c { s.core t c with pc := (s.core t c).pc + 1 } n := (s.onlyCore_refl t c).bscRetire hc rfl rfl n
/-- An instruction that changes its core, but not since when it waits. -/
theorem State.setCore_bscRetire_ran (s : State) (t : Nat) {c : Nat} (hc : c < 64) {k : Core} (hwait : k.waitFrom = (s.core t c).waitFrom) (n : Nat) :
    s.ran ((s.setCore t c k).bscRetire t c n) t c { k with pc := k.pc + 1 } n := (s.onlyCore_setCore t hc k).bscRetire hc rfl hwait n
/-- The core past an instruction that writes B(d). -/
def Core.wrote (k : Core) (d : Nat) (v : DWord) : Core := { k with breg := SMap.put k.breg d v, pc := k.pc + 1 }
theorem State.bscSet_ran (s : State) (t : Nat) {c : Nat} (hc : c < 64) (d : Nat) (v : DWord) (n : Nat) :
    s.ran (s.bscSet t c d v n) t c ((s.core t c).wrote d v) n :=
  s.setCore_bscRetire_ran t hc (k := { s.core t c with breg := SMap.put (s.core t c).breg d v }) rfl n

/-! ### An instruction issues (R144, R146, R147, R160) -/

theorem State.coreIssues_iff (s : State) (t c opc : Nat) (w : Word) (rs : List Nat) : s.coreIssues t c opc w rs = true ↔
    s.cstate t c = csRUN ∧ (s.core t c).pause = [] ∧ (s.core t c).pc < 1024 ∧ (s.core t c).badPar.contains (s.core t c).pc = false ∧
    SMap.get (s.core t c).store (s.core t c).pc 0 = w ∧ kOPC w = opc ∧ rs.any (s.regPending t c) = false := by
  simp only [State.coreIssues, Bool.and_eq_true, beq_iff_eq, decide_eq_true_eq, Bool.not_eq_true', List.isEmpty_iff, and_assoc]

section
variable {s : State} {t c opc : Nat} {w : Word} {rs : List Nat} (h : s.coreIssues t c opc w rs = true)
include h

theorem State.bscIssue_of_coreIssues (k : State → Word → State) : s.bscIssue t c opc k = k s w := by
  obtain ⟨hrun, hpause, hpc, hpar, hword, hopc, -⟩ := (s.coreIssues_iff t c opc w rs).mp h
  unfold State.bscIssue
  dsimp only
  rw [if_neg (by simp [hrun, hpause]), if_neg (Nat.not_le.mpr hpc), if_neg (by simp only [hpar, Bool.false_eq_true, not_false_eq_true]), hword, if_pos hopc]
theorem State.whenReady_of_coreIssues (k : State) : s.whenReady t c rs k = k := by
  obtain ⟨-, -, -, -, -, -, hready⟩ := (s.coreIssues_iff t c opc w rs).mp h
  rw [State.whenReady, hready]
  rfl

end

end Sys2Proof.Machine
end

section
/-! The instructions of a bank-side core that use neither its row nor the exchange bank's bytes (R146, R147). -/

namespace Sys2Proof.Machine

/-! ### What each comes to once it issues -/

/-- The checks of EXP and IMP pass. -/
theorem State.exchange_of_coreIssues {s : State} {t c opc : Nat} {w : Word} (h : s.coreIssues t c opc w [kA w, kD w] = true) (hb : kB w = 0)
    (hfn : kFN w = 0) (haddr : ((s.core t c).b (kA w)).toNat < 65536) (hpower : (s.eng t).spmOn = true) (hown : s.exOwned t = true) (k : Nat → State) :
    s.exchange t c w k = k ((s.core t c).b (kA w)).toNat := by
  unfold State.exchange
  dsimp only
  rw [if_neg (by simp [hb, hfn]), State.whenReady_of_coreIssues h, if_neg (by omega), if_neg (by simp [hpower]), if_neg (by simp [hown])]

section
variable {t : Fin 128} {c : Fin 64} {w : Word} {s : State}

theorem execBscAlu_issued (h : s.coreIssues t c 0x00 w [kA w, kB w, kD w] = true) {v : DWord}
    (hv : bscAluOp (kFN w) ((s.core t c).b (kA w)) ((s.core t c).b (kB w)) = some v) :
    execBscAlu t c s = .next (s.bscSet t c (kD w) v (if kFN w = 8 then 2 else 1)) := by
  rw [execBscAlu, State.bscIssue_of_coreIssues h]
  dsimp only
  rw [hv]
  exact congrArg _ (State.whenReady_of_coreIssues h _)
theorem execBscAddi_issued (h : s.coreIssues t c 0x01 w [kA w, kD w] = true) :
    execBscAddi t c s = .next (s.bscSet t c (kD w) ((s.core t c).b (kA w) + BitVec.ofInt 64 (kIMM w)) 1) := by
  rw [execBscAddi, State.bscIssue_of_coreIssues h, State.whenReady_of_coreIssues h]
theorem execBscShi_issued (h : s.coreIssues t c 0x02 w [kD w] = true) (ha : kA w = 0) :
    execBscShi t c s = .next (s.bscSet t c (kD w) (((s.core t c).b (kD w) <<< 18) ||| BitVec.ofNat 64 (kUIMM w)) 1) := by
  rw [execBscShi, State.bscIssue_of_coreIssues h, if_neg (not_not.mpr ha), State.whenReady_of_coreIssues h]
theorem execBscBr_issued (h : s.coreIssues t c 0x03 w [kA w, kB w] = true) {b : Bool}
    (hb : bscCond (kD w) ((s.core t c).b (kA w)) ((s.core t c).b (kB w)) = some b) :
    execBscBr t c s = .next (s.bscJump t c (if b then 2 else 1) (if b then wrap 14 ((s.core t c).pc + kOFF w) else (s.core t c).pc + 1)) := by
  rw [execBscBr, State.bscIssue_of_coreIssues h]
  dsimp only
  rw [hb]
  cases b <;> exact congrArg _ (State.whenReady_of_coreIssues h _)
theorem execLdc_issued (h : s.coreIssues t c 0x04 w [kD w] = true) (ha : kA w = 0) (hu : kUIMM w < 64) :
    execLdc t c s = .next (s.bscSet t c (kD w) (BitVec.ofNat 64 (s.caGet t c (kUIMM w))) 1) := by
  rw [execLdc, State.bscIssue_of_coreIssues h, if_neg (not_not.mpr ha), if_neg (Nat.not_le.mpr hu), State.whenReady_of_coreIssues h]
/-- The state in which word `n` of the data of a command area is written. -/
def State.caPut (s : State) (t c n : Nat) (v : DWord) : State := s.put64 .BSC_DATA_LO .BSC_DATA_HI (56 * coreIdx t c + n) v.toNat
theorem execStc_issued (h : s.coreIssues t c 0x05 w [kD w] = true) (ha : kA w = 0) (hlow : 8 ≤ kUIMM w) (hhigh : kUIMM w < 64) :
    execStc t c s = .next ((s.caPut t c (kUIMM w - 8) ((s.core t c).b (kD w))).bscRetire t c 1) := by
  rw [execStc, State.bscIssue_of_coreIssues h, if_neg (not_not.mpr ha), if_neg (by simp; omega), State.whenReady_of_coreIssues h]
  rfl
theorem execBscSys_issued (h : s.coreIssues t c 0x06 w [kD w] = true) (ha : kA w = 0) (hu : kUIMM w < 2) :
    execBscSys t c s = .next (s.bscSet t c (kD w) (BitVec.ofNat 64 (if kUIMM w = 0 then s.cyclesNow t c else 64 * t.val + c.val)) 1) := by
  rw [execBscSys, State.bscIssue_of_coreIssues h, if_neg (not_not.mpr ha)]
  obtain hzero | hone : kUIMM w = 0 ∨ kUIMM w = 1 := by omega
  · rw [hzero]
    exact congrArg _ (State.whenReady_of_coreIssues h _)
  · rw [hone]
    exact congrArg _ (State.whenReady_of_coreIssues h _)
theorem execRclose_issued (h : s.coreIssues t c 0x09 w [] = true) (hrow : (s.core t c).row.isSome = true) (bc : Nat) :
    execRclose t c bc s = .next ((s.setCore t c { s.core t c with row := none }).bscRetire t c bc) := by
  rw [execRclose, State.bscIssue_of_coreIssues h]
  dsimp only
  rw [if_neg (by simpa [Option.isSome_iff_ne_none] using hrow)]
theorem execExp_issued (h : s.coreIssues t c 0x10 w [kA w, kD w] = true) (hb : kB w = 0) (hfn : kFN w = 0)
    (haddr : ((s.core t c).b (kA w)).toNat < 65536) (hpower : (s.eng t).spmOn = true) (hown : s.exOwned t = true)
    (hroom : (s.core t c).expq.length < 8) : execExp t c s = .next ((s.setCore t c { s.core t c with
      expq := (s.core t c).expq ++ [(((s.core t c).b (kA w)).toNat, (s.core t c).b (kD w), false)] }).bscRetire t c 1) := by
  rw [execExp, State.bscIssue_of_coreIssues h, State.exchange_of_coreIssues h hb hfn haddr hpower hown]
  dsimp only
  rw [if_neg (Nat.not_le.mpr hroom)]
theorem execImp_issued (h : s.coreIssues t c 0x11 w [kA w, kD w] = true) (hb : kB w = 0) (hfn : kFN w = 0)
    (haddr : ((s.core t c).b (kA w)).toNat < 65536) (hpower : (s.eng t).spmOn = true) (hown : s.exOwned t = true) :
    execImp t c s = .next ((s.setCore t c { s.core t c with
      pendImp := (s.core t c).pendImp ++ [(kD w, ((s.core t c).b (kA w)).toNat, (s.core t c).pc)] }).bscRetire t c 1) := by
  rw [execImp, State.bscIssue_of_coreIssues h, State.exchange_of_coreIssues h hb hfn haddr hpower hown]

/-- Requests for the bank of the core wait (R159). -/
def State.bankWanted (s : State) (t c : Nat) : Bool := s.gate.held.any (fun x => x.bank == 64 * t + c)
theorem execYld_issued (h : s.coreIssues t c 0x18 w [] = true) (hzero : bits w.toNat 25 0 = 0) :
    execYld t c s = .next (if s.bankWanted t c then (s.bscRetire t c 1).notice t c .lease else s.bscRetire t c 1) := by
  rw [execYld, State.bscIssue_of_coreIssues h, if_neg (not_not.mpr hzero)]
  rfl

/-! ### Notices (R160, R163) -/

theorem State.notice_eq {s : State} {t c : Nat} {why : PauseWhy} (hstate : s.cstate t c = csRUN ∨ s.cstate t c = csPAUSE)
    (hnew : (s.core t c).pause.contains why = false) :
    s.notice t c why = s.setCore t c { s.core t c with pause := (s.core t c).pause ++ [why] } := by
  unfold State.notice
  dsimp only
  rw [hnew, if_pos (by simpa using hstate)]
/-- A core that yields pauses when requests for its bank wait. -/
theorem State.yielded_ran (hrun : s.cstate t c = csRUN) (hpause : (s.core t c).pause = []) :
    s.ran (if s.bankWanted t c then (s.bscRetire t c 1).notice t c .lease else s.bscRetire t c 1) t c
      { s.core t c with pause := if s.bankWanted t c then [.lease] else [], pc := (s.core t c).pc + 1 } 1 := by
  have hran := s.bscRetire_ran t c.isLt 1
  cases s.bankWanted t c with
  | false => simpa only [Bool.false_eq_true, if_false, ← hpause] using hran
  | true =>
    have hnone : ((s.bscRetire t c 1).core t c).pause = [] := by rw [hran.core.1, hpause]
    rw [if_pos rfl, if_pos rfl, State.notice_eq (.inl ((hran.cstate t c).trans hrun)) (by rw [hnone]; rfl), hnone, hran.core.1]
    exact hran.setCore c.isLt { s.core t c with pause := [.lease], pc := (s.core t c).pc + 1 }

/-! ### STC (R148, R150) -/

theorem State.caGet_data (s : State) (t c n : Nat) : s.caGet t c (8 + n) = s.get64 .BSC_DATA_LO .BSC_DATA_HI (56 * coreIdx t c + n) := by
  rw [Nat.add_comm 8 n]
  rfl
theorem State.caGet_caPut_same (s : State) (t c n : Nat) (v : DWord) : (s.caPut t c n v).caGet t c (8 + n) = v.toNat := by
  rw [State.caGet_data, State.caPut, State.get64_put64_same _ (by decide), Nat.mod_eq_of_lt v.isLt]
theorem State.caGet_caPut_other (s : State) (t c : Nat) {n m : Nat} (hne : m ≠ n) (v : DWord) : (s.caPut t c n v).caGet t c (8 + m) = s.caGet t c (8 + m) := by
  rw [State.caGet_data, State.caGet_data, State.caPut, State.get64_put64_other _ _ _ (by omega)]
theorem State.caPut_sameRegs (s : State) (t c n : Nat) (v : DWord) : s.sameRegs (s.caPut t c n v) [.BSC_DATA_LO, .BSC_DATA_HI] :=
  s.put64_sameRegs (by decide) (by decide) _ _
theorem State.sameRegs.caData {s u : State} {l : List Reg} (h : s.sameRegs u l) (hlo : .BSC_DATA_LO ∉ l) (hhi : .BSC_DATA_HI ∉ l) (t c n : Nat) :
    u.caGet t c (8 + n) = s.caGet t c (8 + n) := by
  rw [State.caGet_data, State.caGet_data, h.get64 hlo hhi]

end

theorem State.ran.all {s u : State} {t c : Nat} {k : Core} {n : Nat} (h : s.ran u t c k n) : s.onlyCore u t c { k with waitFrom := none } ∧
    u.get64 .BSC_CYCLES_LO .BSC_CYCLES_HI (coreIdx t c) = (s.cyclesNow t c + n) % 2 ^ 64 ∧ s.sameRegs u [.BSC_CYCLES_LO, .BSC_CYCLES_HI] ∧
    { u with cores := s.cores, regs := s.regs } = s := ⟨h.core, h.cycles, h.regs, h.rest⟩

/-- Settles O22 (R146, R147): each instruction completes in its bc, and changes its core and the counter of bc alone; STC also one word of the
command area. -/
theorem coreInstructionResults : Obligations.CoreInstructionResults := by
  unfold Obligations.CoreInstructionResults
  intro t c w s k i past set
  refine ⟨fun h v hv => ⟨_, execBscAlu_issued h hv, (s.bscSet_ran t c.isLt _ _ _).all⟩,
    fun h => ⟨_, execBscAddi_issued h, (s.bscSet_ran t c.isLt _ _ _).all⟩,
    fun h ha => ⟨_, execBscShi_issued h ha, (s.bscSet_ran t c.isLt _ _ _).all⟩, fun h b hb => ?_,
    fun h ha hu => ⟨_, execLdc_issued h ha hu, (s.bscSet_ran t c.isLt _ _ _).all⟩, fun h ha hlow hhigh => ?_,
    fun h ha hu => ⟨_, execBscSys_issued h ha hu, (s.bscSet_ran t c.isLt _ _ _).all⟩,
    fun bc h hrow => ⟨_, execRclose_issued h hrow bc, (s.setCore_bscRetire_ran t c.isLt (k := { k with row := none }) rfl bc).all⟩,
    fun h hb hfn haddr hpower hown hroom => ⟨_, execExp_issued h hb hfn haddr hpower hown hroom, (s.setCore_bscRetire_ran t c.isLt
      (k := { k with expq := k.expq ++ [((k.b (kA w)).toNat, k.b (kD w), false)] }) rfl 1).all⟩,
    fun h hb hfn haddr hpower hown => ⟨_, execImp_issued h hb hfn haddr hpower hown, (s.setCore_bscRetire_ran t c.isLt
      (k := { k with pendImp := k.pendImp ++ [(kD w, (k.b (kA w)).toNat, k.pc)] }) rfl 1).all⟩,
    fun h hzero => ?_⟩
  · have hran := (s.bscJump_ran t c.isLt (if b then 2 else 1) (if b then wrap 14 (k.pc + kOFF w) else k.pc + 1)).all
    exact ⟨_, execBscBr_issued h hb, hran⟩
  · obtain ⟨n, hn⟩ := Nat.exists_eq_add_of_le hlow
    have hran := (s.caPut t c n (k.b (kD w))).bscRetire_ran t c.isLt 1
    have hexec := execStc_issued h ha hlow hhigh
    rw [hn, Nat.add_sub_cancel_left] at hexec ⊢
    refine ⟨_, hexec, ?_, hran.core.from_cores rfl, fun m _ hm => ?_,
      ((s.caPut_sameRegs t c n _).mono (by decide)).trans (hran.regs.mono (by decide)), ?_⟩
    · exact (hran.regs.caData (by decide) (by decide) t c n).trans (s.caGet_caPut_same t c n _)
    · exact (hran.regs.caData (by decide) (by decide) t c m).trans (s.caGet_caPut_other t c hm _)
    · exact (congrArg (fun v : State => { v with regs := s.regs }) hran.rest :)
  · obtain ⟨hrun, hpause, -⟩ := (s.coreIssues_iff t c _ w _).mp h
    exact ⟨_, execYld_issued h hzero, (State.yielded_ran hrun hpause).all⟩

end Sys2Proof.Machine
end

section
/-! The row buffer and the exchange bank of a bank-side core (R145 to R147, R164, R165, R168). -/

namespace Sys2Proof.Machine

/-! ### Words of device memory (R132, R133) -/

theorem State.wordLook_good {s : State} {pl : Nat} (h : SMap.get s.synd (pl / 8) 0 = 0) : s.wordLook pl = (Memory.getBytes s.mem pl 8, .good) := by
  unfold State.wordLook
  dsimp only
  rw [h]
  rfl
/-- Stored bytes read back. -/
theorem Memory.get_setBytes_same : ∀ (bs : List Byte) (m : List Host.Cell) (a i : Nat), i < bs.length → Memory.wf m = true →
    Memory.get (Memory.setBytes m a bs) (a + i) = bs.getD i 0
  | [], _, _, i, hi, _ => absurd hi (Nat.not_lt_zero i)
  | b :: bs, m, a, 0, _, h => by
    rw [Nat.add_zero, Memory.setBytes, Memory.get_setBytes_other bs _ (a + 1) a (.inl (Nat.lt_succ_self a)) (Memory.wf_set m a b h),
      Memory.get_set_same m a b h]
    rfl
  | b :: bs, m, a, i + 1, hi, h => by
    rw [Memory.setBytes, Nat.add_comm i 1, ← Nat.add_assoc,
      Memory.get_setBytes_same bs _ (a + 1) i (Nat.lt_of_succ_lt_succ hi) (Memory.wf_set m a b h), Nat.add_comm 1 i]
    rfl
theorem State.putWord_memStored {s : State} (h : s.memOk) (pl : Nat) (bs : List Byte) : s.memStored (s.putWord pl bs) pl bs :=
  ⟨fun i hi => Memory.get_setBytes_same bs s.mem pl i hi h, fun p hp => Memory.get_setBytes_other bs s.mem pl p hp h⟩
theorem State.memStored.of_mem {s u v : State} {a : Nat} {bs : List Byte} (h : s.memStored u a bs) (hmem : v.mem = u.mem) : s.memStored v a bs := by
  unfold State.memStored at h ⊢
  rwa [hmem]

/-! ### The row buffer -/

theorem State.actNow_acts (s : State) (t b : Nat) : SMap.find ((s.actNow t b).stop t).acts (layerOf b) = some s.clk.mc := by
  rw [State.actNow, State.stop_setStop_same, SMap.find_put_same]

section
variable {t : Fin 128} {c : Fin 64} {w : Word} {s : State}

theorem execRopen_issued (h : s.coreIssues t c 0x08 w [kA w] = true) (hrow : (s.core t c).row = none) (hlow : 0 ≤ rowArg (s.core t c) w)
    (hhigh : rowArg (s.core t c) w ≤ 16383) (hmay : s.mayAct t (layerOf c) = true)
    (hcopy : s.gate.rows.contains (2 ^ 14 * (64 * t.val + c.val) + (rowArg (s.core t c) w).toNat) = false) (bc : Nat) :
    execRopen t c bc s = .next (((s.actNow t c).setCore t c { s.core t c with row := some (rowArg (s.core t c) w).toNat }).bscRetire t c bc) := by
  rw [execRopen, State.bscIssue_of_coreIssues h]
  dsimp only
  rw [State.whenReady_of_coreIssues h, hrow, if_neg (by simp), if_neg (by omega), hmay, hcopy]
  rfl
/-- A row-buffer instruction reaches its word. -/
theorem State.rowAccess_of_coreIssues {opc r : Nat} (h : s.coreIssues t c opc w [kA w, kD w] = true) (hrow : (s.core t c).row = some r)
    (hlow : 0 ≤ rowArg (s.core t c) w) (hhigh : rowArg (s.core t c) w ≤ 511) (k : Nat → Nat → State) :
    let da := coreDa t c r (rowArg (s.core t c) w).toNat
    s.rowAccess t c w k = k da (s.atomPlace da + da % 256) := by
  intro da
  unfold State.rowAccess
  dsimp only
  rw [State.whenReady_of_coreIssues h, hrow]
  exact if_neg (by omega)

section
variable {r : Nat} (hrow : (s.core t c).row = some r) (hlow : 0 ≤ rowArg (s.core t c) w) (hhigh : rowArg (s.core t c) w ≤ 511) {da pl : Nat}
  (hda : da = coreDa t c r (rowArg (s.core t c) w).toNat) (hpl : pl = s.atomPlace da + da % 256)
include hrow hlow hhigh hda hpl

/-- A word without an error is read, and nothing is counted. -/
theorem execRld_issued (h : s.coreIssues t c 0x0A w [kA w, kD w] = true) (hsynd : SMap.get s.synd (pl / 8) 0 = 0)
    (hsoft : bitOf (SMap.get s.soft (pl / 256) 0) (pl % 256 / 16) = false) :
    execRld t c 0 s = .next (s.bscSet t c (kD w) (BitVec.ofNat 64 (leNat (Memory.getBytes s.mem pl 8))) 2) := by
  have hclean : (Check.good.fixed || decide ((0 : BitVec 16).toNat ≠ 0) || bitOf (SMap.get s.soft (pl / 256) 0) (pl % 256 / 16)) = false := by
    rw [hsoft]
    rfl
  rw [execRld, State.bscIssue_of_coreIssues h, State.rowAccess_of_coreIssues h hrow hlow hhigh, ← hda, ← hpl]
  dsimp only
  rw [State.wordLook_good hsynd, if_neg nofun, hclean]
  rfl
theorem execRst_issued (h : s.coreIssues t c 0x0B w [kA w, kD w] = true) :
    execRst t c s = .next ((s.putWord pl (leBytes 8 ((s.core t c).b (kD w)).toNat)).bscRetire t c 2) := by
  rw [execRst, State.bscIssue_of_coreIssues h, State.rowAccess_of_coreIssues h hrow hlow hhigh, ← hda, ← hpl]

end

/-! ### The exchange bank -/

/-- Aligned words with good codes read as they stand. -/
theorem State.spmRead_words {s : State} {t a n : Nat} (ha : a % 8 = 0)
    (hgood : ∀ k, k < n → SMap.get s.spmErr (spmKey t a / 8 + k) 0 = 0) : s.spmRead t a (8 * n) = (s, some (s.spmRaw t a (8 * n))) := by
  refine State.spmRead_good fun v hlow hhigh => ?_
  have hkey : spmKey t 0 / 8 + v = spmKey t a / 8 + (v - a / 8) := by
    unfold spmKey
    omega
  rw [hkey]
  exact hgood _ (by omega)
/-- An exchange word lies in its bank. -/
theorem State.exOff_le (s : State) (t : Nat) {x : Nat} (h : x < 65536) : s.exOff t x + 8 ≤ 2 ^ 23 := by
  have hbank : s.exBank t < 2 := bits_lt (s.aget .BSC_RING t).toNat 13 13
  unfold State.exOff
  omega
/-- The core with another export queue. -/
def Core.withExports (k : Core) (q : List (Nat × DWord × Bool)) : Core := { k with expq := q }
theorem execBscExpWrite_writes {x : Nat × DWord × Bool} {rest : List (Nat × DWord × Bool)} (hqueue : (s.core t c).expq = x :: rest)
    (hwipe : s.exWiping t = false) (hpower : (s.eng t).spmOn = true) : execBscExpWrite t c false s =
      .next ((s.setCore t c ((s.core t c).withExports rest)).spmPut t (s.exOff t x.1) (leBytes 8 x.2.1.toNat)) := by
  rw [execBscExpWrite]
  dsimp only
  rw [hqueue]
  dsimp only
  rw [hwipe, hpower]
  rfl
theorem State.exported_stored (hsorted : s.spmOk) (t : Nat) (k : Core) {x : Nat} (hx : x < 65536) (v : DWord) :
    s.storedAt ((s.setCore t c k).spmPut t (s.exOff t x) (leBytes 8 v.toNat)) t (s.exOff t x) (leBytes 8 v.toNat) :=
  (State.spmPut_stored (s := s.setCore t c k) hsorted t _ (bs := leBytes 8 v.toNat) (List.cons_ne_nil _ _)).storedAt (by
    rw [leBytes_length]
    exact s.exOff_le t hx)
/-- The core into which an IMP returned a word. -/
def Core.imported (k : Core) (x : Nat × Nat × Nat) (reg : Nat) (v : DWord) : Core :=
  { k with pendImp := k.pendImp.erase x, breg := SMap.put k.breg reg v }
theorem execBscImpData_returns {reg : Fin 16} {x : Nat × Nat × Nat} (hpend : (s.core t c).pendImp.find? (·.1 == reg.val) = some x)
    (hfirst : (s.core t c).expq.any (·.1 == x.2.1) = false) (hwipe : s.exWiping t = false)
    (hgood : SMap.get s.spmErr (spmKey t (s.exOff t x.2.1) / 8) 0 = 0) : execBscImpData t c reg s =
      .next (s.setCore t c ((s.core t c).imported x reg (BitVec.ofNat 64 (leNat (s.spmRaw t (s.exOff t x.2.1) 8))))) := by
  have hread := State.spmRead_words (n := 1) (show s.exOff t x.2.1 % 8 = 0 by unfold State.exOff; omega) fun k hk => by
    obtain rfl : k = 0 := by omega
    exact hgood
  rw [execBscImpData]
  dsimp only
  rw [hpend]
  dsimp only
  rw [hfirst, hwipe, hread]
  rfl

end

/-- Settles O23 (R145 to R147, R164, R165, R168): a row is opened, read and stored word by word, and words go to the exchange bank and come back. -/
theorem rowAndExchangeResults : Obligations.RowAndExchangeResults := by
  unfold Obligations.RowAndExchangeResults
  refine ⟨fun t c w s => ?_, fun t c s => ?_⟩
  · intro k a
    refine ⟨fun bc h hrow hlow hhigh hmay hcopy => ?_, fun r hrow hlow hhigh => ?_⟩
    · have hran := (s.actNow t c).setCore_bscRetire_ran t c.isLt (k := { k with row := some a.toNat }) rfl bc
      have hstops := (congrArg State.stops hran.rest :)
      exact ⟨_, execRopen_issued h hrow hlow hhigh hmay hcopy bc, hran.core.from_cores rfl,
        (congrArg (fun p => SMap.find (Stop.acts p) (layerOf c)) (State.stop_of_stops hstops t)).trans (s.actNow_acts t c),
        (s.setStop_sameRegs t _ _).trans hran.regs, (congrArg (fun v : State => { v with stops := s.stops }) hran.rest :)⟩
    · intro da pl
      refine ⟨fun h hsynd hsoft => ?_, fun h hmem => ?_⟩
      · have hran := s.bscSet_ran t c.isLt (kD w) (BitVec.ofNat 64 (leNat (Memory.getBytes s.mem pl 8))) 2
        exact ⟨_, execRld_issued hrow hlow hhigh rfl rfl h hsynd hsoft, hran.core, hran.regs, hran.rest⟩
      · have hran := (s.putWord pl (leBytes 8 (k.b (kD w)).toNat)).bscRetire_ran t c.isLt 2
        exact ⟨_, execRst_issued hrow hlow hhigh rfl rfl h, (State.putWord_memStored hmem pl _).of_mem ((congrArg State.mem hran.rest :)),
          hran.core.from_cores rfl, (State.putWord_sameRegs s pl _ _).trans hran.regs,
          (congrArg (fun v : State => { v with mem := s.mem, synd := s.synd, soft := s.soft }) hran.rest :)⟩
  · intro k
    refine ⟨fun x rest hqueue hwipe hpower hsorted hx => ?_, fun reg x hpend hfirst hwipe hgood => ?_⟩
    · exact ⟨_, execBscExpWrite_writes hqueue hwipe hpower, State.exported_stored hsorted t _ hx _,
        (s.onlyCore_setCore t c.isLt _).of_cores rfl, rfl⟩
    · exact ⟨_, execBscImpData_returns hpend hfirst hwipe hgood, s.onlyCore_setCore t c.isLt _, rfl⟩

end Sys2Proof.Machine
end

section
/-! How a launch of a bank-side core begins and ends (R152 to R155, R158, R167). -/

namespace Sys2Proof.Machine

/-! ### The state of a core -/

theorem State.sameRegs.cstate {s u : State} {l : List Reg} (h : s.sameRegs u l) (hl : .BSC_CSTAT_LO ∉ l) (t c : Nat) : u.cstate t c = s.cstate t c :=
  h.fget F.BSC_CSTAT_LO_STATE _ hl (by decide)
/-- The register that holds the DONE bit of a core. -/
def doneReg (c : Nat) : Reg := if c < 32 then .BSC_DONE0 else .BSC_DONE1
theorem doneReg_cases (c : Nat) : doneReg c = .BSC_DONE0 ∨ doneReg c = .BSC_DONE1 := (ite_eq_or_eq _ _ _)
/-- What a change of the state of a core writes. -/
def stateRegs : List Reg := [.BSC_CSTAT_LO, .BSC_DONE0, .BSC_DONE1]
theorem doneReg_mem (c : Nat) {l : List Reg} (h0 : .BSC_DONE0 ∈ l) (h1 : .BSC_DONE1 ∈ l) : doneReg c ∈ l := by
  rcases doneReg_cases c with h | h <;> rwa [h]
theorem doneReg_ne (c : Nat) {r : Reg} (h0 : r ≠ .BSC_DONE0) (h1 : r ≠ .BSC_DONE1) : r ≠ doneReg c := by
  rcases doneReg_cases c with h | h <;> rwa [h]

section
variable (s : State) (t : Nat) {c : Nat} {v : Nat}

theorem State.setCState_sameRegs (c v : Nat) : s.sameRegs (s.setCState t c v) stateRegs :=
  (s.fput_sameRegs (f := F.BSC_CSTAT_LO_STATE) (by decide) _ v).trans (State.rput_sameRegs _ (doneReg_mem c (by decide) (by decide)) t _)
theorem State.setCState_fget (v : Nat) {f : Field} (hreg : f.reg = .BSC_CSTAT_LO) (ha : f.app ≠ .staged) (i : Nat) :
    (s.setCState t c v).fget f i = (s.fput F.BSC_CSTAT_LO_STATE (coreIdx t c) v).fget f i :=
  (State.fget_rput _ (doneReg c) f t i _ ha).trans (if_neg fun h => doneReg_ne c (by decide) (by decide) (hreg ▸ h.1))
theorem State.setCState_cstate (hv : v < 8) : (s.setCState t c v).cstate t c = v :=
  (s.setCState_fget t v rfl (by decide) _).trans ((s.fget_fput_same F.BSC_CSTAT_LO_STATE _ v (by decide) (by decide) (by decide)).trans
    (Nat.mod_eq_of_lt hv))
/-- The fields above STATE are left alone. -/
theorem State.setCState_fget_above (v : Nat) {f : Field} (hreg : f.reg = .BSC_CSTAT_LO) (ha : f.app ≠ .staged) (hlo : 2 < f.lo) (i : Nat) :
    (s.setCState t c v).fget f i = s.fget f i :=
  (s.setCState_fget t v hreg ha i).trans (s.fget_fput_other F.BSC_CSTAT_LO_STATE f _ i v (by decide) (by decide)
    (.inr (.inr (.inr (.inr hlo)))))
/-- The DONE bit follows the state (R154). -/
theorem State.setCState_done (hv : v = csDONE ∨ v = csERROR) : bitOf ((s.setCState t c v).rget (doneReg c) t).toNat (c % 32) = true := by
  have hword : (s.setCState t c v).rget (doneReg c) t = _ := State.rget_rput_same _ _ _ _
  rw [hword, if_pos hv, bitOf_word_setBit _ (Nat.mod_lt c (by decide)), beq_self_eq_true, Bool.or_true]

end

/-! ### A launch begins (R152, R153) -/

/-- What a launch writes. -/
def launchRegs : List Reg := [.BSC_CYCLES_LO, .BSC_CYCLES_HI, .BSC_STALLS_LO, .BSC_STALLS_HI, .BSC_PAUSES_REF, .BSC_PAUSES_LEASE, .BSC_XCOLL,
  .BSC_CSTAT_LO, .BSC_DONE0, .BSC_DONE1]
/-- The counters of a command area at 0. -/
def State.countersCleared (s : State) (i : Nat) : State :=
  ((((s.put64 .BSC_CYCLES_LO .BSC_CYCLES_HI i 0).put64 .BSC_STALLS_LO .BSC_STALLS_HI i 0).rput .BSC_PAUSES_REF i 0).rput
    .BSC_PAUSES_LEASE i 0).rput .BSC_XCOLL i 0
/-- A core in WAIT: of the launch before it the words still to be written stay queued. -/
def Core.launched (k : Core) (doneOff strict : Option Nat) (charge : Option Charge) (since : Nat) : Core :=
  { k with doneOff := doneOff, strict := strict, waited := false, token := false, pause := [], since := since, waitFrom := none, row := none
           pendImp := [], charge := charge }

section
variable (s : State) (t c : Nat) (doneOff strict : Option Nat) (charge : Option Charge)

theorem State.countersCleared_keeps {β : Type} {φ : State → β} (hregs : Ign.regs φ) (i : Nat) : φ (s.countersCleared i) = φ s := by
  rw [State.countersCleared, State.rput_keeps hregs, State.rput_keeps hregs, State.rput_keeps hregs, State.put64_keeps hregs, State.put64_keeps hregs]
theorem State.countersCleared_cores (i : Nat) : (s.countersCleared i).cores = s.cores := s.countersCleared_keeps (φ := State.cores) (fun _ _ => rfl) i
theorem State.launch_eq : s.launch t c doneOff strict charge = ((s.countersCleared (coreIdx t c)).setCore t c
    ((s.core t c).launched doneOff strict charge s.clk.mc)).setCState t c csWAIT := by
  rw [← State.core_of_cores (s.countersCleared_cores (coreIdx t c)) t c]
  rfl
theorem State.launch_cstate : (s.launch t c doneOff strict charge).cstate t c = csWAIT := State.setCState_cstate _ t (by decide)
theorem State.launch_onlyCore (hc : c < 64) :
    s.onlyCore (s.launch t c doneOff strict charge) t c ((s.core t c).launched doneOff strict charge s.clk.mc) := by
  rw [State.launch_eq]
  exact ((State.onlyCore_setCore _ t hc _).from_cores (s.countersCleared_cores _)).of_cores
    (State.setCState_keeps (φ := State.cores) (fun _ _ => rfl) _ t c csWAIT)
theorem State.launch_gate : (s.launch t c doneOff strict charge).gate = s.gate := by
  rw [State.launch_eq, State.setCState_keeps (φ := State.gate) fun _ _ => rfl, State.setCore_keeps (φ := State.gate) fun _ _ => rfl,
    State.countersCleared_keeps (φ := State.gate) s fun _ _ => rfl]
theorem State.countersCleared_sameRegs (i : Nat) : s.sameRegs (s.countersCleared i) launchRegs :=
  ((((s.put64_sameRegs (by decide) (by decide) i 0).trans (State.put64_sameRegs _ (by decide) (by decide) i 0)).trans
    (State.rput_sameRegs _ (by decide) i 0)).trans (State.rput_sameRegs _ (by decide) i 0)).trans (State.rput_sameRegs _ (by decide) i 0)
theorem State.launch_sameRegs : s.sameRegs (s.launch t c doneOff strict charge) launchRegs :=
  ((s.countersCleared_sameRegs (coreIdx t c)).trans (State.setCore_sameRegs _ t c _ _)).trans
    ((State.setCState_sameRegs _ t c csWAIT).mono (by decide))
/-- The launch clears the counters of the command area. -/
theorem State.launch_counters : let u := s.launch t c doneOff strict charge
    u.get64 .BSC_CYCLES_LO .BSC_CYCLES_HI (coreIdx t c) = 0 ∧ u.get64 .BSC_STALLS_LO .BSC_STALLS_HI (coreIdx t c) = 0 ∧
    u.rget .BSC_PAUSES_REF (coreIdx t c) = 0 ∧ u.rget .BSC_PAUSES_LEASE (coreIdx t c) = 0 ∧ u.rget .BSC_XCOLL (coreIdx t c) = 0 := by
  have hregs : (s.countersCleared (coreIdx t c)).sameRegs (s.launch t c doneOff strict charge) stateRegs := State.setCState_sameRegs _ t c csWAIT
  refine ⟨(hregs.get64 (by decide) (by decide) _).trans ?_, (hregs.get64 (by decide) (by decide) _).trans ?_, (hregs _ _ (by decide)).trans ?_,
    (hregs _ _ (by decide)).trans ?_, (hregs _ _ (by decide)).trans ?_⟩ <;>
  simp [State.countersCleared, State.get64, State.put64, State.rget_rput]

end

/-- Settles O52 (R152): GO launches a core that is not in WAIT, RUN or PAUSE, is flagged for one that is, and on a part without cores. -/
theorem goResults : Obligations.GoResults := by
  unfold Obligations.GoResults
  intro t c src s hpass hdeny i
  have hport : exec (.bscGo t c src) s = .next (if s.hostDenied src.isHost then s.event F.BSC_STAT_CA_DENY t
      else if !s.flag F.GLB_FEATURES_BSC 0 then s.event F.BSC_STAT_UNSUP t
      else if s.coreBusy t c then s.event F.BSC_STAT_BUSY_GO t else s.launch t c none none none) :=
    congrArg Host.Outcome.next (State.viaPort_passes hpass _)
  rw [hport, hdeny]
  refine ⟨fun hpart hidle => ?_, fun hpart hbusy => ?_, fun hpart => ?_⟩
  · rw [hpart, hidle]
    obtain ⟨hcycles, hstalls, href, hlease, hcoll⟩ := s.launch_counters t c none none none
    obtain ⟨hcore, hothers⟩ := s.launch_onlyCore t c none none none c.isLt
    exact ⟨_, rfl, s.launch_cstate t c none none none, hcycles, hstalls, href, hlease, hcoll, congrArg Core.token hcore, congrArg Core.row hcore,
      s.launch_gate t c none none none, congrArg Core.since hcore, hothers⟩
  · rw [hpart, hbusy]
    rfl
  · rw [hpart]
    rfl

/-! ### A launch ends (R154, R155, R158, R167) -/

/-- Its time in RUN, WAIT or PAUSE is counted. -/
def State.launchCounted (s : State) (t c : Nat) : State := if s.cstate t c = csRUN then s.coreRan t c 0 else s.endStall t c
/-- A core after its launch: row, token and IMPs are gone. -/
def Core.ended (k : Core) : Core := { k with row := none, pendImp := [], token := false, pause := [], doneOff := none }
/-- The lease of the bank has ended as well. -/
def State.launchShut (s : State) (t c : Nat) : State :=
  ((s.launchCounted t c).setCore t c ((s.launchCounted t c).core t c).ended).unlend t c
/-- The token of the core is released at a mesh cycle when it holds one. -/
def State.tokenFreed (s : State) (t c mc : Nat) (held : Bool) : State :=
  if held then { (s.useClose (128 + coreIdx t c)) with
    tokRel := (16 * towerOf t + layerOf c, mc) :: s.tokRel.filter (fun r => decide (mc < r.2 + 44)) } else s
/-- The end code and the exit code in the command area. -/
def State.exitShown (s : State) (i code exit : Nat) : State := (s.fput F.BSC_CSTAT_LO_CODE i code).fput F.BSC_CSTAT_HI_EXIT i exit
/-- An end in error shows its PC. -/
def State.errorShown (s : State) (t c pc : Nat) : State := (s.fput F.BSC_CSTAT_LO_ERR_PC (coreIdx t c) (pc % 1024)).setCState t c csERROR
/-- It is flagged, counted and raised. -/
def State.errorRaised (s : State) (t c code : Nat) : State := ((s.event F.BSC_STAT_ERR t).fadd F.BSC_ERRCNT_ERRCNT t 1).raise 0x14 t (coreIdx t c) code
/-- The command area after a launch. -/
def State.endShown (s : State) (t c code exit pc : Nat) : State :=
  if code = 0 then (s.exitShown (coreIdx t c) code exit).setCState t c csDONE
  else (((s.exitShown (coreIdx t c) code exit).errorShown t c pc)).errorRaised t c code
/-- The done word of a ring launch joins the queue of the core. -/
def State.doneSent (s : State) (t c : Nat) (off : Option Nat) (code exit : Nat) : State :=
  match off with
  | none => s
  | some o => s.doneWord t c o code exit (s.rget .BSC_CTRL_HI (coreIdx t c)).toNat
theorem State.endLaunch_eq (s : State) (t c code exit pc : Nat) : s.endLaunch t c code exit pc =
    (((s.launchShut t c).tokenFreed t c s.clk.mc ((s.launchCounted t c).core t c).token).endShown t c code exit pc).doneSent t c
      ((s.launchCounted t c).core t c).doneOff code exit := rfl

/-! What each part keeps and what it writes. -/

theorem State.launchCounted_keeps {β : Type} {φ : State → β} (hregs : Ign.regs φ) (hcores : Ign.cores φ) (s : State) (t c : Nat) :
    φ (s.launchCounted t c) = φ s := by
  rw [State.launchCounted, ite_keeps φ, State.coreRan_keeps hregs hcores, State.endStall_keeps hregs, ite_self]
theorem State.launchShut_keeps {β : Type} {φ : State → β} (hregs : Ign.regs φ) (hcores : Ign.cores φ) (hgate : Ign.gate φ) (s : State) (t c : Nat) :
    φ (s.launchShut t c) = φ s := by
  rw [State.launchShut, State.unlend_keeps hgate, State.setCore_keeps hcores, State.launchCounted_keeps hregs hcores]
theorem State.tokenFreed_keeps {β : Type} {φ : State → β} (henr : Ign.enr φ) (htok : Ign.tokRel φ) (s : State) (t c mc : Nat) (held : Bool) :
    φ (s.tokenFreed t c mc held) = φ s := by
  rw [State.tokenFreed, ite_keeps φ, htok, State.useClose_keeps henr, ite_self]
theorem State.endShown_keeps {β : Type} {φ : State → β} (hregs : Ign.regs φ) (hflt : Ign.flt φ) (s : State) (t c code exit pc : Nat) :
    φ (s.endShown t c code exit pc) = φ s := by
  simp only [State.endShown, State.errorRaised, State.errorShown, State.exitShown, ite_keeps φ, State.raise_keeps hflt, State.fadd_keeps hregs,
    State.event_keeps hregs, State.setCState_keeps hregs, State.fput_keeps hregs, ite_self]

/-- What the counts of a core at the end of its launch write. -/
def countRegs : List Reg := [.BSC_CYCLES_LO, .BSC_CYCLES_HI, .BSC_STALLS_LO, .BSC_STALLS_HI]
theorem State.coreRan_sameRegs (s : State) (t c n : Nat) : s.sameRegs (s.coreRan t c n) cycleRegs :=
  (s.setCore_sameRegs t c _ _).trans (State.addCount_sameRegs _ (by decide) (by decide) _ _)
theorem State.endStall_sameRegs (s : State) (t c : Nat) : s.sameRegs (s.endStall t c) [.BSC_STALLS_LO, .BSC_STALLS_HI] :=
  s.addCount_sameRegs (by decide) (by decide) _ _
theorem State.launchCounted_sameRegs (s : State) (t c : Nat) : s.sameRegs (s.launchCounted t c) countRegs :=
  .ite _ ((s.coreRan_sameRegs t c 0).mono (by decide)) ((s.endStall_sameRegs t c).mono (by decide))
theorem State.launchCounted_core (s : State) (t c : Nat) : ∃ wait, (s.launchCounted t c).core t c = { s.core t c with waitFrom := wait } := by
  unfold State.launchCounted
  split
  · exact ⟨none, State.core_setCore_same s t c _⟩
  · exact ⟨_, rfl⟩

/-! ### The command area after the end -/

theorem State.exitShown_reads (s : State) (i : Nat) {code exit : Nat} (hcode : code < 256) (hexit : exit < 65536) :
    (s.exitShown i code exit).fget F.BSC_CSTAT_LO_CODE i = code ∧ (s.exitShown i code exit).fget F.BSC_CSTAT_HI_EXIT i = exit :=
  ⟨(State.fget_fput_other _ F.BSC_CSTAT_HI_EXIT F.BSC_CSTAT_LO_CODE i i exit (by decide) (by decide) (.inr (.inl (by decide)))).trans
    ((s.fget_fput_same F.BSC_CSTAT_LO_CODE i code (by decide) (by decide) (by decide)).trans (Nat.mod_eq_of_lt hcode)),
   (State.fget_fput_same _ F.BSC_CSTAT_HI_EXIT i exit (by decide) (by decide) (by decide)).trans (Nat.mod_eq_of_lt hexit)⟩
/-- The command area of a core whose launch has ended with a code. -/
structure State.shows (u : State) (t c code exit pc : Nat) : Prop where
  state : u.cstate t c = if code = 0 then csDONE else csERROR
  codeField : u.fget F.BSC_CSTAT_LO_CODE (coreIdx t c) = code
  exitField : u.fget F.BSC_CSTAT_HI_EXIT (coreIdx t c) = exit
  done : bitOf (u.rget (doneReg c) t).toNat (c % 32) = true
  error : code ≠ 0 → u.fget F.BSC_CSTAT_LO_ERR_PC (coreIdx t c) = pc % 1024 ∧ u.flag F.BSC_STAT_ERR t = true
theorem State.shows.beside {u v : State} {t c code exit pc : Nat} (h : u.shows t c code exit pc) (hregs : u.sameRegs v [.BSC_STAT])
    (hflag : u.flag F.BSC_STAT_ERR t = true → v.flag F.BSC_STAT_ERR t = true) : v.shows t c code exit pc where
  state := (hregs.cstate (by decide) t c).trans h.state
  codeField := (hregs.fget _ _ (by decide) (by decide)).trans h.codeField
  exitField := (hregs.fget _ _ (by decide) (by decide)).trans h.exitField
  done := by
    rw [hregs _ t (List.mem_singleton.not.mpr (doneReg_ne c (by decide) (by decide)).symm)]
    exact h.done
  error hne := ⟨(hregs.fget _ _ (by decide) (by decide)).trans (h.error hne).1, hflag (h.error hne).2⟩
theorem State.errorShown_sameRegs (s : State) (t c pc : Nat) : s.sameRegs (s.errorShown t c pc) stateRegs :=
  (s.fput_sameRegs (f := F.BSC_CSTAT_LO_ERR_PC) (by decide) _ _).trans (State.setCState_sameRegs _ t c csERROR)
theorem State.errorShown_reads (s : State) (t c pc : Nat) :
    (s.errorShown t c pc).fget F.BSC_CSTAT_LO_CODE (coreIdx t c) = s.fget F.BSC_CSTAT_LO_CODE (coreIdx t c) ∧
    (s.errorShown t c pc).fget F.BSC_CSTAT_LO_ERR_PC (coreIdx t c) = pc % 1024 :=
  ⟨(State.setCState_fget_above _ t _ rfl (by decide) (by decide) _).trans
    (s.fget_fput_other F.BSC_CSTAT_LO_ERR_PC F.BSC_CSTAT_LO_CODE _ _ _ (by decide) (by decide) (.inr (.inr (.inr (.inl (by decide)))))),
   (State.setCState_fget_above _ t _ rfl (by decide) (by decide) _).trans
    ((s.fget_fput_same F.BSC_CSTAT_LO_ERR_PC _ _ (by decide) (by decide) (by decide)).trans (Nat.mod_mod _ _))⟩
theorem State.errorRaised_sameRegs (s : State) (t c code : Nat) : s.sameRegs (s.errorRaised t c code) [.BSC_STAT, .BSC_ERRCNT] :=
  ((s.event_sameRegs (f := F.BSC_STAT_ERR) (by decide) t).trans (State.fput_sameRegs _ (f := F.BSC_ERRCNT_ERRCNT) (by decide) t _)).trans
    (State.raise_sameRegs _ _ _ _ _ _)
theorem State.errorRaised_flag (s : State) (t c code : Nat) : (s.errorRaised t c code).flag F.BSC_STAT_ERR t = true := by
  have hregs : (s.event F.BSC_STAT_ERR t).sameRegs (s.errorRaised t c code) [.BSC_ERRCNT] :=
    (State.fput_sameRegs (s.event F.BSC_STAT_ERR t) (f := F.BSC_ERRCNT_ERRCNT) (by decide) t
      (((s.event F.BSC_STAT_ERR t).fget F.BSC_ERRCNT_ERRCNT t + 1) % 2 ^ F.BSC_ERRCNT_ERRCNT.width)).trans (State.raise_sameRegs _ _ _ _ _ _)
  exact (hregs.flag _ t (by decide) (by decide)).trans (s.flag_event_same F.BSC_STAT_ERR t (by decide) (by decide) (by decide))
/-- What the end writes besides the counts: the command area, and the events of an error. -/
def endRegs : List Reg := [.BSC_CSTAT_LO, .BSC_CSTAT_HI, .BSC_DONE0, .BSC_DONE1, .BSC_STAT, .BSC_ERRCNT]
theorem State.endShown_sameRegs (s : State) (t c code exit pc : Nat) :
    s.sameRegs (s.endShown t c code exit pc) endRegs := by
  have hexit : s.sameRegs (s.exitShown (coreIdx t c) code exit) [.BSC_CSTAT_LO, .BSC_CSTAT_HI] :=
    (s.fput_sameRegs (f := F.BSC_CSTAT_LO_CODE) (by decide) _ _).trans (State.fput_sameRegs _ (f := F.BSC_CSTAT_HI_EXIT) (by decide) _ _)
  refine (hexit.mono (by decide)).trans ?_
  unfold State.endShown
  split
  · exact (State.setCState_sameRegs _ t c csDONE).mono (by decide)
  · exact ((State.errorShown_sameRegs _ t c pc).mono (by decide)).trans ((State.errorRaised_sameRegs _ t c code).mono (by decide))
theorem State.endShown_shows (s : State) (t c : Nat) {code exit : Nat} (hcode : code < 256) (hexit : exit < 65536) (pc : Nat) :
    (s.endShown t c code exit pc).shows t c code exit pc := by
  obtain ⟨hshown, hexited⟩ := s.exitShown_reads (coreIdx t c) hcode hexit
  unfold State.endShown
  generalize s.exitShown (coreIdx t c) code exit = a at hshown hexited ⊢
  split
  · next hzero => exact {
      state := (a.setCState_cstate t (by decide)).trans (if_pos hzero).symm
      codeField := (a.setCState_fget_above t _ rfl (by decide) (by decide) _).trans hshown
      exitField := ((a.setCState_sameRegs t c csDONE).fget _ _ (by decide) (by decide)).trans hexited
      done := a.setCState_done t (.inl rfl)
      error := fun hne => absurd hzero hne }
  · next hne =>
    obtain ⟨hcodes, hpc⟩ := a.errorShown_reads t c pc
    have hraised := (a.errorShown t c pc).errorRaised_sameRegs t c code
    exact {
      state := (hraised.cstate (by decide) t c).trans ((State.setCState_cstate _ t (by decide)).trans (if_neg hne).symm)
      codeField := (hraised.fget _ _ (by decide) (by decide)).trans (hcodes.trans hshown)
      exitField := (hraised.fget _ _ (by decide) (by decide)).trans
        (((a.errorShown_sameRegs t c pc).fget _ _ (by decide) (by decide)).trans hexited)
      done := by
        rw [hraised _ t (by rcases doneReg_cases c with h | h <;> rw [h] <;> decide)]
        exact State.setCState_done _ t (.inr rfl)
      error := fun _ => ⟨(hraised.fget _ _ (by decide) (by decide)).trans hpc, State.errorRaised_flag _ t c code⟩ }

/-! ### The done word (R154) -/

/-- A Staged field reads as its active copy. -/
theorem State.fget_of_act {s u : State} (h : u.act = s.act) {f : Field} (ha : f.app = .staged) (i : Nat) : u.fget f i = s.fget f i := by
  rw [State.fget, State.fget, if_pos ha, if_pos ha, State.aget, State.aget, h]
theorem State.exOwned_of_sameRegs {s u : State} {l : List Reg} (h : s.sameRegs u l) (h0 : .SPM_OWN0 ∉ l) (h1 : .SPM_OWN1 ∉ l)
    (hact : u.act = s.act) (htiles : u.tiles = s.tiles) (t : Nat) : u.exOwned t = s.exOwned t := by
  have hbank : u.exBank t = s.exBank t := State.fget_of_act hact rfl t
  rw [State.exOwned, State.exOwned, hbank, h.owner h0 h1, State.eng_of_tiles htiles]
theorem State.doneSent_core (s : State) (t c : Nat) (off : Option Nat) (code exit : Nat) :
    ∃ q, (s.doneSent t c off code exit).core t c = (s.core t c).withExports q := by
  unfold State.doneSent
  split
  · exact ⟨_, rfl⟩
  · unfold State.doneWord
    split
    · exact ⟨_, s.core_setCore_same t c _⟩
    · exact ⟨_, rfl⟩
theorem State.doneSent_shows {s : State} {t c code exit pc : Nat} (h : s.shows t c code exit pc) (off : Option Nat) :
    (s.doneSent t c off code exit).shows t c code exit pc := by
  unfold State.doneSent
  split
  · exact h
  · unfold State.doneWord
    split
    · exact h.beside (s.setCore_sameRegs t c _ _) id
    · exact h.beside (s.event_sameRegs (f := F.BSC_STAT_DONE_LOST) (by decide) t) fun hflag =>
        s.flag_event_mono F.BSC_STAT_DONE_LOST F.BSC_STAT_ERR t t (by decide) (by decide) rfl rfl (by decide) (by decide) hflag
theorem State.doneSent_gate (s : State) (t c : Nat) (off : Option Nat) (code exit : Nat) : (s.doneSent t c off code exit).gate = s.gate := by
  unfold State.doneSent
  split
  · rfl
  · exact State.doneWord_keeps (φ := State.gate) (fun _ _ => rfl) (fun _ _ => rfl) s t c _ code exit _
theorem State.doneSent_owned {s : State} {t c : Nat} (hown : s.exOwned t = true) (hpower : (s.eng t).spmOn = true) (off code exit : Nat) :
    ((s.doneSent t c (some off) code exit).core t c).expq = (s.core t c).expq ++
      [(off, BitVec.ofNat 64 (doneBits c code exit (s.rget .BSC_CTRL_HI (coreIdx t c)).toNat), true)] := by
  rw [State.doneSent, State.doneWord, hown, hpower]
  exact congrArg Core.expq (s.core_setCore_same t c _)

/-! ### The whole end -/

/-- Between `s` and `u` the launch of core (t, c) has ended with a code, at a PC when in error. -/
def State.launchEnded (s u : State) (t c code exit pc : Nat) : Prop :=
  u.cstate t c = (if code = 0 then csDONE else csERROR) ∧ u.fget F.BSC_CSTAT_LO_CODE (coreIdx t c) = code ∧
  u.fget F.BSC_CSTAT_HI_EXIT (coreIdx t c) = exit ∧ bitOf (u.rget (doneReg c) t).toNat (c % 32) = true ∧
  (u.core t c).token = false ∧ u.bankLent t c = false ∧ (u.core t c).row = none ∧ (u.core t c).pendImp = [] ∧
  (∀ off, (s.core t c).doneOff = some off → s.exOwned t = true → (s.eng t).spmOn = true → (u.core t c).expq = (s.core t c).expq ++
    [(off, BitVec.ofNat 64 (doneBits c code exit (s.rget .BSC_CTRL_HI (coreIdx t c)).toNat), true)]) ∧
  (code ≠ 0 → u.fget F.BSC_CSTAT_LO_ERR_PC (coreIdx t c) = pc % 1024 ∧ u.flag F.BSC_STAT_ERR t = true)

/-- The state of an ended launch before its done word. -/
def State.launchOver (s : State) (t c code exit pc : Nat) : State :=
  ((s.launchShut t c).tokenFreed t c s.clk.mc ((s.launchCounted t c).core t c).token).endShown t c code exit pc
section
variable (s : State) (t c code exit pc : Nat)

theorem State.launchOver_keeps {β : Type} {φ : State → β} (hregs : Ign.regs φ) (hcores : Ign.cores φ) (hgate : Ign.gate φ) (henr : Ign.enr φ)
    (htok : Ign.tokRel φ) (hflt : Ign.flt φ) : φ (s.launchOver t c code exit pc) = φ s := by
  rw [State.launchOver, State.endShown_keeps hregs hflt, State.tokenFreed_keeps henr htok, State.launchShut_keeps hregs hcores hgate]
theorem State.launchOver_core : ∃ wait, (s.launchOver t c code exit pc).core t c = { (s.core t c).ended with waitFrom := wait } := by
  obtain ⟨wait, hcore⟩ := s.launchCounted_core t c
  have hcores : (s.launchOver t c code exit pc).cores = (s.launchShut t c).cores := by
    rw [State.launchOver, State.endShown_keeps (φ := State.cores) (fun _ _ => rfl) (fun _ _ => rfl),
      State.tokenFreed_keeps (φ := State.cores) (fun _ _ => rfl) (fun _ _ => rfl)]
  refine ⟨wait, (State.core_of_cores hcores t c).trans ((State.core_setCore_same _ t c _).trans ?_)⟩
  rw [hcore]
  rfl
theorem State.launchOver_bankLent : (s.launchOver t c code exit pc).bankLent t c = false := by
  have hgate : (s.launchOver t c code exit pc).gate = (s.launchShut t c).gate := by
    rw [State.launchOver, State.endShown_keeps (φ := State.gate) (fun _ _ => rfl) (fun _ _ => rfl),
      State.tokenFreed_keeps (φ := State.gate) (fun _ _ => rfl) (fun _ _ => rfl)]
  rw [State.bankLent, hgate]
  simp [State.launchShut, State.unlend]
theorem State.launchOver_sameRegs : s.sameRegs (s.launchOver t c code exit pc) (countRegs ++ endRegs) := by
  have hshut : s.sameRegs ((s.launchShut t c).tokenFreed t c s.clk.mc ((s.launchCounted t c).core t c).token) countRegs :=
    (s.launchCounted_sameRegs t c).trans (State.sameRegs_of_regs _ (by
      rw [State.tokenFreed_keeps (φ := State.regs) (fun _ _ => rfl) (fun _ _ => rfl)]
      rfl))
  exact (hshut.mono (by decide)).trans ((State.endShown_sameRegs _ t c code exit pc).mono (by decide))

end

/-- Every end of a launch (R154, R155, R158, R167). -/
theorem State.endLaunch_ended (s : State) (t c : Nat) {code exit : Nat} (hcode : code < 256) (hexit : exit < 65536) (pc : Nat) :
    s.launchEnded (s.endLaunch t c code exit pc) t c code exit pc := by
  obtain ⟨wait, hcounted⟩ := s.launchCounted_core t c
  obtain ⟨wait', hcore⟩ := s.launchOver_core t c code exit pc
  have hoff : ((s.launchCounted t c).core t c).doneOff = (s.core t c).doneOff := (congrArg Core.doneOff hcounted :)
  have heq : s.endLaunch t c code exit pc = (s.launchOver t c code exit pc).doneSent t c (s.core t c).doneOff code exit := by
    rw [State.endLaunch_eq, hoff]
    rfl
  have hshows : (s.launchOver t c code exit pc).shows t c code exit pc := State.endShown_shows _ t c hcode hexit pc
  obtain ⟨hstate, hcodes, hexits, hdone, herror⟩ := State.doneSent_shows hshows (s.core t c).doneOff
  obtain ⟨q, hsent⟩ := (s.launchOver t c code exit pc).doneSent_core t c (s.core t c).doneOff code exit
  rw [hcore] at hsent
  rw [heq]
  refine ⟨hstate, hcodes, hexits, hdone, congrArg Core.token hsent, ?_, congrArg Core.row hsent, congrArg Core.pendImp hsent,
    fun off hsome hown hpower => ?_, herror⟩
  · rw [State.bankLent, State.doneSent_gate]
    exact s.launchOver_bankLent t c code exit pc
  · have hregs := s.launchOver_sameRegs t c code exit pc
    have htiles : (s.launchOver t c code exit pc).tiles = s.tiles :=
      State.launchOver_keeps (φ := State.tiles) s t c code exit pc (fun _ _ => rfl) (fun _ _ => rfl) (fun _ _ => rfl) (fun _ _ => rfl) (fun _ _ => rfl) (fun _ _ => rfl)
    have hact : (s.launchOver t c code exit pc).act = s.act :=
      State.launchOver_keeps (φ := State.act) s t c code exit pc (fun _ _ => rfl) (fun _ _ => rfl) (fun _ _ => rfl) (fun _ _ => rfl) (fun _ _ => rfl) (fun _ _ => rfl)
    rw [hsome, State.doneSent_owned ((State.exOwned_of_sameRegs hregs (by decide) (by decide) hact htiles t).trans hown)
      (by rwa [State.eng_of_tiles htiles]), hcore, hregs _ _ (by decide)]
    rfl
/-- An instruction that left the done word and the queue alone may come before the end. -/
theorem State.launchEnded.after_ran {s s' u : State} {t c n code exit pc : Nat} {k : Core} (h : s'.launchEnded u t c code exit pc) (hran : s.ran s' t c k n)
    (hoff : k.doneOff = (s.core t c).doneOff) (hqueue : k.expq = (s.core t c).expq) : s.launchEnded u t c code exit pc := by
  obtain ⟨hstate, hcodes, hexits, hdone, htoken, hlent, hrow, hpend, hword, herror⟩ := h
  refine ⟨hstate, hcodes, hexits, hdone, htoken, hlent, hrow, hpend, fun off hsome hown hpower => ?_, herror⟩
  have hcore := hran.core.1
  rw [hword off (by rw [hcore, ← hsome, ← hoff]) ((State.exOwned_of_sameRegs hran.regs (by decide) (by decide) hran.act hran.tiles t).trans hown)
    (by rwa [State.eng_of_tiles hran.tiles]), hcore, hran.regs _ _ (by decide), ← hqueue]

end Sys2Proof.Machine
end

section
/-! Program loads and launch records of the bank-side cores (R149, R151, R153). -/

namespace Sys2Proof.Machine

/-! ### Program loads (R149, R151) -/

/-- The program store that an image gives. -/
def imageStore (img : List Byte) : SMap Word := (List.range 1024).map (fun i => (i, BitVec.ofNat 32 (leAt img (4 * i) 4)))
theorem SMap.find_map_range' {α : Type} (f : Nat → α) {n : Nat} : ∀ (m a : Nat), a ≤ n → n < a + m →
    SMap.find ((List.range' a m).map (fun i => (i, f i))) n = some (f n)
  | 0, a, hlow, hhigh => absurd hhigh (Nat.not_lt.mpr hlow)
  | m + 1, a, hlow, hhigh => by
    rw [List.range'_succ, List.map_cons, SMap.find]
    by_cases heq : n = a
    · rw [if_pos heq, heq]
    · rw [if_neg heq, if_neg (Nat.not_lt.mpr hlow), SMap.find_map_range' f m (a + 1) (by omega) (by omega)]
theorem imageStore_get (img : List Byte) {n : Nat} (h : n < 1024) : SMap.get (imageStore img) n 0 = BitVec.ofNat 32 (leAt img (4 * n) 4) := by
  rw [SMap.get, imageStore, List.range_eq_range', SMap.find_map_range' _ 1024 0 (Nat.zero_le n) (by omega)]
  rfl

/-- The program of one core is loaded. -/
def State.loadCore (t : Nat) (img : List Byte) (s : State) (c : Nat) : State :=
  s.setCore t c { s.core t c with store := imageStore img, badPar := [] }
theorem State.foldl_loadCore_mem (t : Nat) (img : List Byte) {c : Nat} {cs : List Nat} (s : State) (h : c ∈ cs) :
    ((cs.foldl (State.loadCore t img) s).core t c).store = imageStore img := by
  refine foldl_of_mem (P := fun s => (s.core t c).store = imageStore img) (fun s => ?_) (fun s b hs => ?_) cs s h
  · rw [State.loadCore, State.core_setCore_same]
  · by_cases hb : c = b
    · rw [State.loadCore, hb, State.core_setCore_same]
    · rwa [State.loadCore, State.core_setCore_other _ _ (by omega)]
theorem State.foldl_loadCore_notMem (t : Nat) (img : List Byte) {c : Nat} : ∀ {cs : List Nat} (s : State), c ∉ cs →
    (cs.foldl (State.loadCore t img) s).core t c = s.core t c
  | [], _, _ => rfl
  | b :: cs, s, h => by
    obtain ⟨hb, hcs⟩ := List.ne_and_not_mem_of_not_mem_cons h
    rw [List.foldl_cons, State.foldl_loadCore_notMem t img _ hcs, State.loadCore, State.core_setCore_other _ _ (by omega)]
theorem State.foldl_loadCore_keeps {β : Type} {φ : State → β} (hcores : Ign.cores φ) (t : Nat) (img : List Byte) (cs : List Nat) (s : State) :
    φ (cs.foldl (State.loadCore t img) s) = φ s :=
  foldl_keeps φ _ s cs fun _ _ => State.setCore_keeps hcores _ _ _ _

/-- The read of the image, by the state in which the load runs. -/
def State.imageRead (s : State) (t : Nat) : State × List Byte × Option Nat := s.daRead (2 ^ 32 * t + 4096 * s.fget F.BSC_PSRC_OFFSET t) 4096 5
/-- BUSY stands, FAIL does not, and the selected cores hold the image. -/
def State.imageLoaded (s : State) (t : Nat) (cs : List Nat) (img : List Byte) : State :=
  ((cs.foldl (State.loadCore t img) s).fput F.BSC_PCTL_FAIL t 0).fput F.BSC_PCTL_BUSY t 1
theorem State.imageLoaded_core (s : State) (t : Nat) (cs : List Nat) (img : List Byte) (c : Nat) :
    (s.imageLoaded t cs img).core t c = (cs.foldl (State.loadCore t img) s).core t c := rfl
theorem State.imageLoaded_flags (s : State) (t : Nat) (cs : List Nat) (img : List Byte) :
    (s.imageLoaded t cs img).flag F.BSC_PCTL_BUSY t = true ∧ (s.imageLoaded t cs img).flag F.BSC_PCTL_FAIL t = false := by
  have hbusy : (s.imageLoaded t cs img).fget F.BSC_PCTL_BUSY t = 1 := State.fget_fput_same _ _ _ _ (by decide) (by decide) (by decide)
  have hfail : (s.imageLoaded t cs img).fget F.BSC_PCTL_FAIL t = 0 :=
    (State.fget_fput_other _ F.BSC_PCTL_BUSY F.BSC_PCTL_FAIL t t 1 (by decide) (by decide) (.inr (.inr (.inr (.inr (by decide)))))).trans
      (State.fget_fput_same _ _ _ _ (by decide) (by decide) (by decide))
  rw [State.flag, State.flag, hbusy, hfail]
  exact ⟨rfl, rfl⟩
/-- A read answers the same in the state in which a command runs. -/
theorem State.daRead_running (s : State) (c : Instr) (da n src : Nat) : ((s.running c).daRead da n src).2 = (s.daRead da n src).2 := by
  have hdata : s.sameData (s.running c) := ⟨rfl, rfl, rfl, fun _ _ _ => rfl⟩
  exact (hdata.daReadGo _ da n src).2

section
variable {t : Fin 128} {src : By} {s : State}

theorem execBscProgramLoad_loads {img : List Byte} (hopen : s.gateOpen) (hpass : s.passes 0 src) (hdeny : s.hostDenied src.isHost = false)
    (hidle : (s.progMask t).any (s.coreBusy t) = false) (hread : (s.imageRead t).2 = (img, none)) : execBscProgramLoad t src s =
      .next { ((s.running (.bscProgramLoad t src)).imageRead t).1.imageLoaded t (s.progMask t) img with gate := s.gate } := by
  have hanswer : ((s.running (.bscProgramLoad t src)).imageRead t).2 = (img, none) := (s.daRead_running _ _ _ _).trans hread
  refine congrArg Host.Outcome.next (State.settle_of_eq hopen _ _ ((State.viaPort_passes (s := s.running (.bscProgramLoad t src)) hpass _).trans ?_) ?_)
  · have hdeny' : (s.running (.bscProgramLoad t src)).hostDenied src.isHost = false := hdeny
    have hidle' : ((s.running (.bscProgramLoad t src)).progMask t).any ((s.running (.bscProgramLoad t src)).coreBusy t) = false := hidle
    unfold State.imageRead at hanswer ⊢
    rw [hdeny', hidle', if_neg Bool.false_ne_true, if_neg Bool.false_ne_true]
    dsimp only
    rw [hanswer]
    rfl
  · rw [State.imageLoaded, State.fput_keeps (φ := State.gate) fun _ _ => rfl, State.fput_keeps (φ := State.gate) fun _ _ => rfl,
      State.foldl_loadCore_keeps (φ := State.gate) fun _ _ => rfl]
    exact (State.running_calm hopen _).daRead_gate _ _ _
theorem State.imageRead_running_core (s : State) (i : Instr) (t v c : Nat) : (((s.running i).imageRead t).1).core v c = s.core v c :=
  State.daRead_keeps (φ := fun u => u.core v c) (fun _ _ => rfl) (fun _ _ => rfl) (fun _ _ => rfl) (fun _ _ => rfl) (fun _ _ => rfl) (fun _ _ => rfl)
    (fun _ _ => rfl) (s.running i) _ _ _

/-! ### What confidential mode keeps from the host (R149) -/

section
variable (hdeny : s.hostDenied src.isHost = true)
include hdeny

theorem execBscGo_denied (hpass : s.passes 0 src) (c : Fin 64) : execBscGo t c src s = .next (s.event F.BSC_STAT_CA_DENY t) :=
  congrArg Host.Outcome.next ((State.viaPort_passes hpass _).trans (if_pos hdeny))
theorem execBscStop_denied (hpass : s.passes 0 src) (c : Fin 64) : execBscStop t c src s = .next (s.event F.BSC_STAT_CA_DENY t) :=
  congrArg Host.Outcome.next ((State.viaPort_passes hpass _).trans (if_pos hdeny))
theorem execBscProgramLoad_denied (hpass : s.passes 0 src) (hgate : s.gate = Gate.clear) :
    execBscProgramLoad t src s = .next (s.event F.BSC_STAT_CA_DENY t) := by
  have hdeny' : (s.running (.bscProgramLoad t src)).hostDenied src.isHost = true := hdeny
  rw [execBscProgramLoad, State.settle_of_clear hgate, State.viaPort_passes (s := s.running (.bscProgramLoad t src)) hpass, if_pos hdeny']
  · rfl
  · rw [State.viaPort_passes (s := s.running (.bscProgramLoad t src)) hpass, if_pos hdeny']
    rfl

end

end

/-! ### Little-endian numbers -/

theorem leNat_lt : ∀ l : List Byte, leNat l < 256 ^ l.length
  | [] => Nat.one_pos
  | b :: l => by
    have hb := b.isLt
    have hl := leNat_lt l
    rw [List.length_cons, Nat.pow_succ, leNat]
    omega
theorem leNat_mod : ∀ (n : Nat) (l : List Byte), leNat l % 256 ^ n = leNat (l.take n)
  | 0, l => Nat.mod_one _
  | _ + 1, [] => Nat.zero_mod _
  | n + 1, b :: l => by
    have hb : b.toNat < 256 := b.isLt
    rw [List.take_succ_cons, leNat, leNat, ← leNat_mod n l, Nat.pow_succ, Nat.mul_comm (256 ^ n), Nat.mod_mul,
      Nat.add_mul_mod_self_left, Nat.mod_eq_of_lt hb, Nat.add_mul_div_left _ _ (by decide), Nat.div_eq_of_lt hb, Nat.zero_add]
theorem leAt_lt (l : List Byte) (i n : Nat) : leAt l i n < 256 ^ n :=
  Nat.lt_of_lt_of_le (leNat_lt _) (Nat.pow_le_pow_right (by decide) (List.length_take_le _ _))

/-! ### The ring (R153) -/

section
variable {t : Fin 128} {s : State}

theorem State.ringBase_aligned (s : State) (t : Nat) : s.ringBase t % 8 = 0 := by
  unfold State.ringBase
  omega
theorem execBscRingPoll_reads (hon : s.ringOn t = true) (hwipe : s.exWiping t = false)
    (hgood : SMap.get s.spmErr (spmKey t (s.ringBase t) / 8) 0 = 0) :
    execBscRingPoll t s = .next (s.setStop t { s.stop t with ringProd := leNat (s.spmRaw t (s.ringBase t) 2) }) := by
  have hread := State.spmRead_words (n := 1) (s.ringBase_aligned t) fun k hk => by
    obtain rfl : k = 0 := by omega
    exact hgood
  have hlow : leNat (s.spmRaw t (s.ringBase t) 8) % 65536 = leNat (s.spmRaw t (s.ringBase t) 2) :=
    (leNat_mod 2 _).trans (congrArg leNat (s.spmRaw_slice t (s.ringBase t) 8 (i := 0) (k := 2) (by decide)))
  rw [execBscRingPoll, hon, hwipe, ← hlow]
  dsimp only
  rw [hread]
  rfl

/-! ### A launch record -/

/-- The place of the record at the head of the ring. -/
def State.ringHead (s : State) (t : Nat) : Nat := s.ringBase t + 64 + 64 * (s.fget F.BSC_RCONS_CONS t % 2 ^ s.fget F.BSC_RING_LOG2 t)
/-- The core that a record names. -/
def recordCore (b : List Byte) : Nat := 4 * bits (leAt b 0 2) 3 0 + bits (leAt b 0 2) 5 4
theorem recordCore_lt (b : List Byte) : recordCore b < 64 := by
  have hrow : bits (leAt b 0 2) 3 0 < 16 := bits_lt _ _ _
  have hcol : bits (leAt b 0 2) 5 4 < 4 := bits_lt _ _ _
  unfold recordCore
  omega
/-- The first arguments of a record in the data words of a command area. -/
def State.recordArgs (s : State) (i : Nat) (b : List Byte) (n : Nat) : State :=
  (List.range n).foldl (fun a n => a.put64 .BSC_DATA_LO .BSC_DATA_HI (56 * i + n) (leAt b (16 + 8 * n) 8)) s
/-- The entry, tag, context and arguments of a record in the command area. -/
def State.recordTaken (s : State) (t c : Nat) (b : List Byte) : State :=
  (((s.fput F.BSC_CTRL_LO_ENTRY (coreIdx t c) (leAt b 2 2)).rput .BSC_CTRL_HI (coreIdx t c) (BitVec.ofNat 32 (leAt b 8 4))).rput .BSC_CTX
    (coreIdx t c) (BitVec.ofNat 32 (s.tileCtx t))).recordArgs (coreIdx t c) b (leAt b 4 2)

theorem State.recordArgs_succ (s : State) (i : Nat) (b : List Byte) (n : Nat) : s.recordArgs i b (n + 1) =
    (s.recordArgs i b n).put64 .BSC_DATA_LO .BSC_DATA_HI (56 * i + n) (leAt b (16 + 8 * n) 8) := by
  rw [State.recordArgs, List.range_succ, List.foldl_append]
  rfl
theorem State.recordArgs_get (s : State) (i : Nat) (b : List Byte) {n : Nat} : ∀ {m : Nat}, n < m →
    (s.recordArgs i b m).get64 .BSC_DATA_LO .BSC_DATA_HI (56 * i + n) = leAt b (16 + 8 * n) 8
  | m + 1, h => by
    rw [State.recordArgs_succ]
    by_cases heq : n = m
    · rw [heq, State.get64_put64_same _ (by decide), Nat.mod_eq_of_lt (show leAt b (16 + 8 * m) 8 < 2 ^ 64 from leAt_lt b _ 8)]
    · rw [State.get64_put64_other _ _ _ (by omega), State.recordArgs_get s i b (by omega)]
theorem State.recordArgs_sameRegs (s : State) (i : Nat) (b : List Byte) (n : Nat) : s.sameRegs (s.recordArgs i b n) [.BSC_DATA_LO, .BSC_DATA_HI] :=
  State.foldl_sameRegs _ (fun a _ => a.put64_sameRegs (by decide) (by decide) _ _) _ s
theorem State.recordArgs_cores (s : State) (i : Nat) (b : List Byte) (n : Nat) : (s.recordArgs i b n).cores = s.cores :=
  foldl_keeps State.cores _ s _ fun _ _ => rfl

/-- What a record that is taken writes before the launch. -/
def recordTakenRegs : List Reg := [.BSC_CTRL_LO, .BSC_CTRL_HI, .BSC_CTX, .BSC_DATA_LO, .BSC_DATA_HI]
theorem State.recordTaken_sameRegs (s : State) (t c : Nat) (b : List Byte) : s.sameRegs (s.recordTaken t c b) recordTakenRegs :=
  (((s.fput_sameRegs (f := F.BSC_CTRL_LO_ENTRY) (by decide) _ _).trans (State.rput_sameRegs _ (by decide) _ _)).trans
    (State.rput_sameRegs _ (by decide) _ _)).trans ((State.recordArgs_sameRegs _ _ b _).mono (by decide))
theorem State.recordTaken_reads (s : State) (t c : Nat) {b : List Byte} (hentry : leAt b 2 2 < 1024) :
    (s.recordTaken t c b).fget F.BSC_CTRL_LO_ENTRY (coreIdx t c) = leAt b 2 2 ∧
    ((s.recordTaken t c b).rget .BSC_CTRL_HI (coreIdx t c)).toNat = leAt b 8 4 ∧
    ∀ n, n < leAt b 4 2 → (s.recordTaken t c b).caGet t c (8 + n) = leAt b (16 + 8 * n) 8 := by
  refine ⟨?_, ?_, fun n hn => ?_⟩
  · refine ((State.recordArgs_sameRegs _ _ b _).fget _ _ (by decide) (by decide)).trans ?_
    rw [State.fget_rput _ _ _ _ _ _ (by decide), if_neg (fun h => absurd h.1 (by decide)), State.fget_rput _ _ _ _ _ _ (by decide),
      if_neg (fun h => absurd h.1 (by decide)), State.fget_fput_same _ _ _ _ (by decide) (by decide) (by decide)]
    exact Nat.mod_eq_of_lt hentry
  · rw [State.recordTaken, State.recordArgs_sameRegs _ _ b _ _ _ (by decide), State.rget_rput_other _ _ (fun h => absurd h.1 (by decide)),
      State.rget_rput_same, BitVec.toNat_ofNat]
    exact Nat.mod_eq_of_lt (leAt_lt b 8 4)
  · rw [State.caGet_data]
    exact State.recordArgs_get _ _ b hn
/-- The strict dispatch that runs on a tile, and the charge of the one that holds it: what a launch from the tile's ring belongs to (R318, R362). -/
def State.strictDisp (s : State) (t : Nat) : Option Nat := (s.tileDisp t).bind (fun d => if d.2.strict && d.2.running then some d.1 else none)
def State.chargeDisp (s : State) (t : Nat) : Option Charge := (s.tileDisp t).map (·.2.charge)
/-- A good record for an idle core launches it, and the consumer moves on. -/
theorem execBscRingRecord_launches {b : List Byte} (portA : List Nat) (hb : b = s.spmRaw t (s.ringHead t) 64) (hon : s.ringOn t = true)
    (hwipe : s.exWiping t = false) (hmore : (s.stop t).ringProd ≠ s.fget F.BSC_RCONS_CONS t)
    (hgood : (List.range 8).all (fun k => SMap.get s.spmErr (spmKey t (s.ringHead t) / 8 + k) 0 == 0) = true)
    (htarget : leAt b 0 2 < 64) (hentry : leAt b 2 2 < 1024) (hargs : leAt b 4 2 < 7) (hzero : leAt b 12 4 = 0)
    (hpart : s.flag F.GLB_FEATURES_BSC 0 = true) (hidle : s.coreBusy t (recordCore b) = false) :
    let a := s.recordTaken t (recordCore b) b
    execBscRingRecord ⟨t, portA⟩ s =
      .next ((a.launch t (recordCore b) (some (leAt b 6 2)) (a.strictDisp t) (a.chargeDisp t)).ringNext t portA) := by
  intro a
  have haligned : s.ringHead t % 8 = 0 := by
    have hbase := s.ringBase_aligned t
    unfold State.ringHead
    omega
  have hread : s.spmRead t (s.ringHead t) 64 = (s, some b) := by
    rw [hb]
    exact State.spmRead_words (n := 8) haligned fun k hk => beq_iff_eq.mp (List.all_eq_true.mp hgood k (List.mem_range.mpr hk))
  have hok : (decide (leAt b 0 2 / 64 ≠ 0) || decide (leAt b 2 2 / 1024 ≠ 0) || decide (7 ≤ leAt b 4 2) || decide (leAt b 12 4 ≠ 0)) = false := by
    simp only [Bool.or_eq_false_iff, decide_eq_false_iff_not]
    omega
  have hrun : (!s.ringOn t || s.exWiping t || decide ((s.stop t).ringProd = s.fget F.BSC_RCONS_CONS t)) = false := by
    rw [hon, hwipe, decide_eq_false hmore]
    rfl
  unfold execBscRingRecord
  dsimp only
  rw [if_neg (by rw [hrun]; exact Bool.false_ne_true)]
  unfold State.ringHead at hread
  rw [hread]
  dsimp only
  rw [if_neg (by rw [hok]; exact Bool.false_ne_true), hpart]
  exact congrArg Host.Outcome.next (if_neg (fun h => Bool.false_ne_true (hidle.symm.trans h)))

end

/-! ### The consumer word (R109, R153) -/

/-- What a read or write of the scratchpad of a stop may write. -/
def spmUseRegs : List Reg := vchRegs ++ spmRegs ++ collRegs
theorem State.spmCe_sameRegs (s : State) (t w : Nat) : s.sameRegs (s.spmCe t w) spmUseRegs :=
  ((s.fput_sameRegs (f := F.SPM_CE_CNT_CE_CNT) (by decide) t _).trans (State.event_sameRegs _ (f := F.SPM_STAT_CE) (by decide) t)).trans
    ((s.spmCe_regs t w).mono (by decide))
theorem State.spmUe_sameRegs (s : State) (t off : Nat) : s.sameRegs (s.spmUe t off) spmUseRegs :=
  ((s.rput_sameRegs (r := .SPM_UE_LAST) (by decide) t _).trans (State.event_sameRegs _ (f := F.SPM_STAT_UE) (by decide) t)).trans
    (State.raise_sameRegs _ _ _ _ _ _)
theorem State.spmWord_sameRegs (s : State) (t off : Nat) : s.sameRegs (s.spmWord t off).1 spmUseRegs := by
  have hfree : s.sameRegs ((s.free 2).2.free 64).2 spmUseRegs := State.sameRegs_of_regs _ rfl
  unfold State.spmWord
  dsimp only
  split
  · exact s.sameRegs_refl _
  split
  · exact s.spmCe_sameRegs t _
  split
  · exact s.spmUe_sameRegs t off
  split
  · exact hfree.trans (State.spmUe_sameRegs _ t off)
  split
  · exact hfree.trans (State.spmCe_sameRegs _ t _)
  · exact hfree
theorem State.spmDrop_sameRegs (s : State) (t cls w : Nat) : s.sameRegs (s.spmDrop t cls w) spmUseRegs :=
  ((s.fput_sameRegs (f := F.SPM_COLL_COLL) (by decide) t _).trans (State.rput_sameRegs _ (r := .SPM_COLL_LAST) (by decide) t _)).trans
    (State.event_sameRegs _ (f := F.SPM_STAT_COLLIDE) (by decide) t)
theorem State.spmWriteGo_sameRegs (t : Nat) (fuel : Nat) : ∀ (s : State) (off : Nat) (bs : List Byte) (skip : List Nat) (bad : Bool),
    s.sameRegs (State.spmWriteGo fuel s t off bs skip bad).1 spmUseRegs := by
  induction fuel with
  | zero => exact fun s _ _ _ _ => s.sameRegs_refl _
  | succ fuel ih =>
    intro s off bs skip bad
    have hput : ∀ (a : State) (o : Nat) (l : List Byte), a.sameRegs (a.spmPut t o l) spmUseRegs := fun a _ _ => State.sameRegs_of_regs _ rfl
    rw [State.spmWriteGo]
    dsimp only
    split
    · exact s.sameRegs_refl _
    split
    · exact ih s _ _ _ _
    split
    · exact (hput s off _).trans (ih _ _ _ _ _)
    · have hword := s.spmWord_sameRegs t (off - off % 8)
      split
      · exact hword.trans (ih _ _ _ _ _)
      · exact (hword.trans (hput _ _ _)).trans (ih _ _ _ _ _)
theorem State.spmWriteB_sameRegs (s : State) (t off : Nat) (bs : List Byte) (cls : Nat) (portA : List Nat) :
    s.sameRegs (s.spmWriteB t off bs cls portA).1 spmUseRegs :=
  (State.foldl_sameRegs _ (fun a w => a.spmDrop_sameRegs t cls w) _ s).trans (State.spmWriteGo_sameRegs t _ _ off bs _ false)
theorem State.ringNext_sameRegs (s : State) (t : Nat) (portA : List Nat) : s.sameRegs (s.ringNext t portA) (.BSC_RCONS :: spmUseRegs) :=
  (s.fput_sameRegs (f := F.BSC_RCONS_CONS) (by decide) t _).trans ((State.spmWriteB_sameRegs _ t _ _ 4 portA).mono (List.subset_cons_self _ _))
theorem State.ringNext_cons (s : State) (t : Nat) (portA : List Nat) :
    (s.ringNext t portA).fget F.BSC_RCONS_CONS t = (s.fget F.BSC_RCONS_CONS t + 1) % 65536 :=
  ((State.spmWriteB_sameRegs _ t _ _ 4 portA).fget _ _ (by decide) (by decide)).trans
    ((State.fget_fput_same _ _ _ _ (by decide) (by decide) (by decide)).trans (Nat.mod_mod _ _))
theorem State.ringNext_cores (s : State) (t : Nat) (portA : List Nat) : (s.ringNext t portA).cores = s.cores :=
  State.spmWriteB_keeps (φ := State.cores) (fun _ _ => rfl) (fun _ _ => rfl) (fun _ _ => rfl) (fun _ _ => rfl) (fun _ _ => rfl) (fun _ _ => rfl) _ t _ _ 4
    portA
/-- What a record that was taken leaves behind: its core waits, the command area holds what it says, and the consumer has moved on. -/
theorem State.recordLaunched_reads (s : State) (t c : Nat) {b : List Byte} (hc : c < 64) (hentry : leAt b 2 2 < 1024) (strict : Option Nat)
    (charge : Option Charge) (portA : List Nat) :
    let u := ((s.recordTaken t c b).launch t c (some (leAt b 6 2)) strict charge).ringNext t portA
    u.cstate t c = csWAIT ∧ (u.core t c).doneOff = some (leAt b 6 2) ∧ u.fget F.BSC_CTRL_LO_ENTRY (coreIdx t c) = leAt b 2 2 ∧
    (u.rget .BSC_CTRL_HI (coreIdx t c)).toNat = leAt b 8 4 ∧ (∀ n, n < leAt b 4 2 → u.caGet t c (8 + n) = leAt b (16 + 8 * n) 8) ∧
    u.fget F.BSC_RCONS_CONS t = (s.fget F.BSC_RCONS_CONS t + 1) % 65536 := by
  obtain ⟨hentries, htag, hargs⟩ := s.recordTaken_reads t c hentry
  have htaken := s.recordTaken_sameRegs t c b
  have hlaunch := (s.recordTaken t c b).launch_sameRegs t c (some (leAt b 6 2)) strict charge
  have hnext := ((s.recordTaken t c b).launch t c (some (leAt b 6 2)) strict charge).ringNext_sameRegs t portA
  obtain ⟨hcore, -⟩ := (s.recordTaken t c b).launch_onlyCore t c (some (leAt b 6 2)) strict charge hc
  refine ⟨(hnext.cstate (by decide) t c).trans (State.launch_cstate _ t c _ strict charge), ?_,
    (hnext.fget _ _ (by decide) (by decide)).trans ((hlaunch.fget _ _ (by decide) (by decide)).trans hentries), ?_, fun n hn => ?_, ?_⟩
  · rw [State.core_of_cores (State.ringNext_cores _ t portA), hcore]
    rfl
  · rw [hnext _ _ (by decide), hlaunch _ _ (by decide), htag]
  · exact (hnext.caData (by decide) (by decide) t c n).trans ((hlaunch.caData (by decide) (by decide) t c n).trans (hargs n hn))
  · rw [State.ringNext_cons, hlaunch.fget F.BSC_RCONS_CONS t (by decide) (by decide), htaken.fget F.BSC_RCONS_CONS t (by decide) (by decide)]

end Sys2Proof.Machine
end

section
/-! Token, lease, start, pauses and ends of the bank-side cores (R155 to R163, R167). -/

namespace Sys2Proof.Machine

/-! ### Token, lease and start (R144, R155 to R158) -/

/-- The core that holds a token. -/
def Core.tokened (k : Core) : Core := { k with token := true, waited := false }
/-- The core at its first instruction. -/
def Core.started (k : Core) (entry : Nat) : Core := { k with breg := [], pc := entry, row := none, pause := [], waited := false, waitFrom := none }
/-- The bank of the core is lent, its row closed. -/
def State.lend (s : State) (t c : Nat) : State :=
  ({ s with gate := { s.gate with lent := s.gate.lent ++ [64 * t + c] } } : State).setStop t { s.stop t with rowOf := SMap.del (s.stop t).rowOf c }
/-- The core runs from its entry. -/
def State.startCore (s : State) (t c : Nat) : State :=
  let a := (s.endStall t c).quietNow t c
  (a.setCore t c ((a.core t c).started (s.fget F.BSC_CTRL_LO_ENTRY (coreIdx t c)))).setCState t c csRUN

theorem State.endStall_cores (s : State) (t c : Nat) : (s.endStall t c).cores = s.cores :=
  State.endStall_keeps (φ := State.cores) (fun _ _ => rfl) s t c
theorem State.endStall_clk (s : State) (t c : Nat) : (s.endStall t c).clk = s.clk := State.endStall_keeps (φ := State.clk) (fun _ _ => rfl) s t c
theorem State.quietNow_quiet (s : State) (t c : Nat) : SMap.find (s.quietNow t c).gate.quiet (16 * t + layerOf c) = some s.clk.mc :=
  SMap.find_put_same _ _ _
theorem State.startCore_onlyCore (s : State) (t : Nat) {c : Nat} (hc : c < 64) :
    s.onlyCore (s.startCore t c) t c ((s.core t c).started (s.fget F.BSC_CTRL_LO_ENTRY (coreIdx t c))) := by
  have hcore : ((s.endStall t c).quietNow t c).core t c = s.core t c := State.core_of_cores (s.endStall_cores t c) t c
  rw [← hcore]
  exact ((State.onlyCore_setCore ((s.endStall t c).quietNow t c) t hc _).from_cores (s.endStall_cores t c)).of_cores
    (State.setCState_keeps (φ := State.cores) (fun _ _ => rfl) _ t c csRUN)
theorem State.startCore_quiet (s : State) (t c : Nat) : SMap.find (s.startCore t c).gate.quiet (16 * t + layerOf c) = some s.clk.mc := by
  rw [State.startCore, State.setCState_keeps (φ := State.gate) fun _ _ => rfl, State.setCore_keeps (φ := State.gate) fun _ _ => rfl,
    State.quietNow_quiet, State.endStall_clk]

section
variable {t : Fin 128} {c : Fin 64} {s : State}

theorem execBscTokenGrant_grants (hwait : s.cstate t c = csWAIT) (hnone : (s.core t c).token = false)
    (hfew : s.tokensTaken (towerOf t) (layerOf c) < 8) (hfirst : s.tokenFirst t c = true) : execBscTokenGrant t c s =
      .next ((s.setCore t c (s.core t c).tokened).useOpen (128 + coreIdx t c)
        ((s.core t c).charge.getD (.one (s.fget F.BSC_CTX_CTX (coreIdx t c))))) := by
  rw [execBscTokenGrant]
  dsimp only
  rw [if_neg (by simp [hwait, hnone]), if_pos (by simp [hfew, hfirst])]
  rfl
theorem execBscLeaseBegin_lends (hwait : s.cstate t c = csWAIT) (htoken : (s.core t c).token = true) (hlent : s.bankLent t c = false)
    (hasked : s.bankAsked t c = false) : execBscLeaseBegin t c s = .next (s.lend t c) := by
  rw [execBscLeaseBegin, if_neg (by simp [hwait, htoken, hlent, hasked])]
  rfl
theorem execBscCoreStart_starts (hwait : s.cstate t c = csWAIT) (hlent : s.bankLent t c = true) (hcopied : s.bankCopied t c = false)
    (hfree : (s.stop t).actFree (layerOf c) s.clk.mc = true) : execBscCoreStart t c s = .next (s.startCore t c) := by
  rw [execBscCoreStart, if_neg (by simp [hwait, hlent, hcopied]), hfree]
  rfl

/-! ### HALT, STOP and the run limit (R155, R167) -/

theorem execBscHalt_issued {w : Word} (h : s.coreIssues t c 0x1F w [kA w] = true) (bc : Nat) :
    execBscHalt t c bc s = .next ((s.bscRetire t c bc).endLaunch t c 0 (((s.core t c).b (kA w)).toNat % 65536) 0) := by
  rw [execBscHalt, State.bscIssue_of_coreIssues h, State.whenReady_of_coreIssues h]
/-- The end by HALT names no PC. -/
theorem State.launchEnded.at_any_pc {s u : State} {t c exit pc : Nat} (h : s.launchEnded u t c 0 exit pc) (pc' : Nat) : s.launchEnded u t c 0 exit pc' := by
  obtain ⟨hstate, hcode, hexit, hdone, htoken, hlent, hrow, hpend, hword, -⟩ := h
  exact ⟨hstate, hcode, hexit, hdone, htoken, hlent, hrow, hpend, hword, fun hne => absurd rfl hne⟩
theorem State.halted_ended (s : State) (t : Nat) {c : Nat} (hc : c < 64) (bc : Nat) {exit : Nat} (hexit : exit < 65536) (pc : Nat) :
    s.launchEnded ((s.bscRetire t c bc).endLaunch t c 0 exit 0) t c 0 exit pc :=
  (((s.bscRetire t c bc).endLaunch_ended t c (by decide) hexit 0).after_ran (s.bscRetire_ran t hc bc) rfl rfl).at_any_pc pc
theorem State.bscErr_ended (s : State) (t c : Nat) {code : Nat} (hcode : code < 256) :
    s.launchEnded (s.bscErr t c code) t c code 0 (s.core t c).pc := s.endLaunch_ended t c hcode (by decide) _
theorem execBscStop_stops {src : By} (hpass : s.passes 0 src) (hdeny : s.hostDenied src.isHost = false) (hbusy : s.coreBusy t c = true) :
    execBscStop t c src s = .next (s.bscErr t c 0x0B) := by
  rw [execBscStop, State.viaPort_passes hpass, hdeny, hbusy]
  rfl
theorem execBscRunLimit_ends (hrun : s.cstate t c = csRUN) (hlimit : 2 ^ s.fget F.BSC_CFG_RUN_LIM t ≤ s.cyclesNow t c) :
    execBscRunLimit t c s = .next (s.bscErr t c 0x0A) := by
  rw [execBscRunLimit, if_pos (by simp [hrun, hlimit])]
theorem execBscLeaseLimit_notices {h : Wait} (hheld : h ∈ s.gate.held) (hbank : h.bank = 64 * t.val + c.val)
    (hlate : h.since + s.fget F.BSC_CFG_LEASE_MAX t ≤ s.clk.mc) (hlent : s.bankLent t c = true) :
    execBscLeaseLimit t c s = .next (s.notice t c .lease) := by
  have hany : s.gate.held.any (fun w => w.bank == 64 * t.val + c.val && decide (w.since + s.fget F.BSC_CFG_LEASE_MAX t ≤ s.clk.mc)) = true :=
    List.any_eq_true.mpr ⟨h, hheld, by simp [hbank, hlate]⟩
  rw [execBscLeaseLimit, hlent, hany]
  rfl

/-! ### Pauses (R159 to R161, log entry 81) -/

/-- A core that pauses keeps the notices of its bank's refresh in scheduled-slot mode. -/
def Core.paused (k : Core) (slot : Bool) (since : Nat) : Core :=
  { k with since := since, waitFrom := none, pause := k.pause.filter (fun w => slot && w == .refresh) }
/-- The core stands in PAUSE. -/
def State.pauseCore (s : State) (t c : Nat) : State :=
  ((s.coreRan t c 0).setCore t c ((s.core t c).paused (s.flag F.MESH_CFG_SLOT_EN t) s.clk.mc)).setCState t c csPAUSE
/-- A pause is counted for refresh and for the lease; the refresh is issued, and the lease serves the requests held now. -/
def State.pauseServed (s : State) (t c : Nat) (refresh slot lease : Bool) : State :=
  let s2 := if refresh then s.fadd F.BSC_PAUSES_REF_REF (coreIdx t c) 1 else s
  let s3 := if refresh && !slot then s2.refNow t c else s2
  if lease then
    let s4 := s3.fadd F.BSC_PAUSES_LEASE_LEASE (coreIdx t c) 1
    { s4 with gate := { s4.gate with serve := s4.gate.serve ++ (s4.gate.held.filter (·.bank == 64 * t + c)).map (fun w => (64 * t + c, w.who)) } }
  else s3
theorem execBscPause_pauses {why : Fin 3} (hrun : s.cstate t c = csRUN) (hnotice : (s.core t c).pause.contains (pauseOf why) = true) :
    execBscPause t c why s = .next ((s.pauseCore t c).pauseServed t c ((s.core t c).pause.contains .refresh) (s.flag F.MESH_CFG_SLOT_EN t)
      ((s.core t c).pause.contains .lease)) := by
  have hcore : (s.coreRan t c 0).core t c = { s.core t c with waitFrom := none } := ((s.onlyCore_refl t c).coreRan c.isLt rfl rfl 0).core.1
  unfold execBscPause
  dsimp only
  rw [if_neg (by rw [hrun, hnotice]; decide), hcore]
  rfl

end

section
variable (s : State) (t c : Nat)

theorem State.pauseCore_onlyCore (hc : c < 64) :
    s.onlyCore (s.pauseCore t c) t c ((s.core t c).paused (s.flag F.MESH_CFG_SLOT_EN t) s.clk.mc) :=
  ((((s.onlyCore_refl t c).coreRan hc rfl rfl 0).core).setCore hc _).of_cores (State.setCState_keeps (φ := State.cores) (fun _ _ => rfl) _ t c csPAUSE)
theorem State.pauseCore_sameRegs : s.sameRegs (s.pauseCore t c) (cycleRegs ++ stateRegs) :=
  (((s.coreRan_sameRegs t c 0).trans (State.setCore_sameRegs _ t c _ _)).mono (by decide)).trans ((State.setCState_sameRegs _ t c csPAUSE).mono (by decide))
theorem State.refNow_sameRegs (b : Nat) (l : List Reg) : s.sameRegs (s.refNow t b) l := State.sameRegs_of_regs l rfl
/-- The count of a pause, which wraps. -/
theorem State.fget_fadd_if {f : Field} (h : f.lo ≤ f.hi) (hh : f.hi < 32) (ha : f.app ≠ .staged) (i : Nat) (b : Bool) :
    (if b then s.fadd f i 1 else s).fget f i = (s.fget f i + if b then 1 else 0) % 2 ^ f.width := by
  have hlt : s.fget f i < 2 ^ f.width := by
    rw [State.fget, if_neg ha]
    exact bits_lt _ _ _
  cases b with
  | false => exact (Nat.mod_eq_of_lt hlt).symm
  | true => exact s.fget_fadd_same f i 1 h hh ha

variable (refresh slot lease : Bool)

/-- The state in which a pause has been counted for refresh, and the refresh issued. -/
def State.refreshServed : State :=
  if refresh && !slot then (if refresh then s.fadd F.BSC_PAUSES_REF_REF (coreIdx t c) 1 else s).refNow t c
  else if refresh then s.fadd F.BSC_PAUSES_REF_REF (coreIdx t c) 1 else s
theorem State.refreshServed_sameRegs :
    (if refresh then s.fadd F.BSC_PAUSES_REF_REF (coreIdx t c) 1 else s).sameRegs (s.refreshServed t c refresh slot) [] :=
  .ite _ (State.refNow_sameRegs _ t c _) (State.sameRegs_refl _ _)
theorem State.pauseServed_sameRegs : (if lease then (s.refreshServed t c refresh slot).fadd F.BSC_PAUSES_LEASE_LEASE (coreIdx t c) 1
    else s.refreshServed t c refresh slot).sameRegs (s.pauseServed t c refresh slot lease) [] := by
  cases lease with
  | false => exact State.sameRegs_of_regs _ rfl
  | true => exact State.sameRegs_of_regs _ rfl
theorem State.fadd_if_sameRegs (f : Field) (i : Nat) (b : Bool) : s.sameRegs (if b then s.fadd f i 1 else s) [f.reg] :=
  .ite _ (s.fput_sameRegs (List.mem_singleton.mpr rfl) i _) (s.sameRegs_refl _)
/-- A pause writes its two counts alone. -/
theorem State.pauseServed_reads : s.sameRegs (s.pauseServed t c refresh slot lease) [.BSC_PAUSES_REF, .BSC_PAUSES_LEASE] ∧
    (s.pauseServed t c refresh slot lease).fget F.BSC_PAUSES_REF_REF (coreIdx t c) =
      (s.fget F.BSC_PAUSES_REF_REF (coreIdx t c) + if refresh then 1 else 0) % 2 ^ 32 ∧
    (s.pauseServed t c refresh slot lease).fget F.BSC_PAUSES_LEASE_LEASE (coreIdx t c) =
      (s.fget F.BSC_PAUSES_LEASE_LEASE (coreIdx t c) + if lease then 1 else 0) % 2 ^ 32 := by
  have hcount := s.fadd_if_sameRegs F.BSC_PAUSES_REF_REF (coreIdx t c) refresh
  have hrefresh := s.refreshServed_sameRegs t c refresh slot
  have hlease := (s.refreshServed t c refresh slot).fadd_if_sameRegs F.BSC_PAUSES_LEASE_LEASE (coreIdx t c) lease
  have hserved := s.pauseServed_sameRegs t c refresh slot lease
  refine ⟨(((hcount.mono (by decide)).trans (hrefresh.mono (by decide))).trans (hlease.mono (by decide))).trans (hserved.mono (by decide)), ?_, ?_⟩
  · rw [hserved.fget _ _ (by decide) (by decide), hlease.fget _ _ (by decide) (by decide), hrefresh.fget _ _ (by decide) (by decide)]
    exact s.fget_fadd_if (by decide) (by decide) (by decide) _ refresh
  · rw [hserved.fget _ _ (by decide) (by decide), State.fget_fadd_if _ (by decide) (by decide) (by decide) _ lease,
      hrefresh.fget _ _ (by decide) (by decide), hcount.fget _ _ (by decide) (by decide)]
    rfl
theorem State.pauseServed_cores : (s.pauseServed t c refresh slot lease).cores = s.cores := by
  have hrefresh : (s.refreshServed t c refresh slot).cores = s.cores := by
    cases refresh <;> cases slot <;> rfl
  refine Eq.trans ?_ hrefresh
  cases lease <;> rfl

/-! ### A core resumes (R155, R157, R159, R162) -/

/-- A core that resumes, waiting for nothing. -/
def Core.resumed (k : Core) (since : Nat) : Core := { k with pause := [], since := since, waited := false }
/-- The time of the pause is counted, and an open row is reopened. -/
def State.reopened (s : State) (t c : Nat) : State :=
  let s1 := (s.endStall t c).quietNow t c
  if (s.core t c).row.isSome then s1.actNow t c else s1
/-- The core runs on. -/
def State.resumeCore (s : State) (t c : Nat) : State :=
  let a := s.reopened t c
  ((a.setStop t { a.stop t with rowOf := SMap.del (a.stop t).rowOf c }).setCore t c ((a.core t c).resumed s.clk.mc)).setCState t c csRUN
theorem State.reopened_cores : (s.reopened t c).cores = s.cores := by
  refine Eq.trans ?_ (s.endStall_cores t c)
  unfold State.reopened
  dsimp only
  split <;> rfl
theorem State.resumeCore_onlyCore (hc : c < 64) : s.onlyCore (s.resumeCore t c) t c ((s.core t c).resumed s.clk.mc) := by
  rw [← State.core_of_cores (s.reopened_cores t c) t c]
  exact ((State.onlyCore_setCore ((s.reopened t c).setStop t _) t hc _).from_cores (s.reopened_cores t c)).of_cores
    (State.setCState_keeps (φ := State.cores) (fun _ _ => rfl) _ t c csRUN)

end

section
variable {t : Fin 128} {c : Fin 64} {s : State}

theorem execBscResume_resumes (hpause : s.cstate t c = csPAUSE) (hrefresh : (s.core t c).pause.contains .refresh = false)
    (hserve : s.gate.serve.any (fun x => x.1 == 64 * t.val + c.val) = false) (hcopied : s.bankCopied t c = false)
    (hreqs : s.gate.reqs.any (fun r => r.da / 2 ^ 32 == t.val && offBank64 (r.da % 2 ^ 32) == c.val) = false)
    (href : ∀ m, SMap.find (s.stop t).lastRef c = some m → m + 90 ≤ s.clk.mc) (hfree : (s.stop t).actFree (layerOf c) s.clk.mc = true)
    (hmay : (s.core t c).row.isSome = true → s.mayAct t (layerOf c) = true) : execBscResume t c s = .next (s.resumeCore t c) := by
  have hlast : (SMap.find (s.stop t).lastRef c).any (fun m => decide (s.clk.mc < m + 90)) = false := by
    rw [Option.any_eq_false]
    intro m hm
    simpa using href m hm
  have hopen : ((s.core t c).row.isSome && !s.mayAct t (layerOf c)) = false := by
    cases hrow : (s.core t c).row.isSome with
    | false => rfl
    | true => rw [hmay hrow]; rfl
  unfold execBscResume
  dsimp only
  rw [hpause, hrefresh, hserve, hcopied, hreqs, hlast, hfree, hopen, if_neg (by decide), if_neg (by decide)]
  rfl

end

/-- Settles O24 (R149, R151, R153 to R163, R167; log entry 81): a program is loaded, a record launches a core, the core gets its token and its
bank and starts, pauses and resumes, and its launch ends with a code. -/
theorem launchResults : Obligations.LaunchResults := by
  unfold Obligations.LaunchResults
  refine ⟨fun t s => ⟨fun src img hopen hpass hdeny hidle hread => ?_, fun hbusy => ?_, fun c src hpass hdeny => ?_, fun hon hwipe hgood => ?_,
    fun b portA => ?_, fun c hwait hnone hfew hfirst => ?_, fun c hwait htoken hlent hasked => ?_, fun c hwait hlent hcopied hfree => ?_⟩,
    fun t c s => ?_⟩
  · obtain ⟨hloaded, hfail⟩ := (((s.running (.bscProgramLoad t src)).imageRead t).1).imageLoaded_flags t (s.progMask t) img
    refine ⟨_, execBscProgramLoad_loads hopen hpass hdeny hidle hread, hloaded, hfail, fun c n hc hn => ?_, fun c _ hc => ?_⟩
    · exact (congrArg (fun m => SMap.get m n 0) (State.foldl_loadCore_mem t img _ hc)).trans (imageStore_get img hn)
    · exact (State.foldl_loadCore_notMem t img _ hc).trans (s.imageRead_running_core _ t t c)
  · refine ⟨(s.fput F.BSC_PCTL_BUSY t 0).event F.BSC_STAT_LOAD_DONE t, congrArg Host.Outcome.next (if_pos hbusy), ?_,
      State.flag_event_same _ _ _ (by decide) (by decide) (by decide),
      (s.fput_sameRegs (f := F.BSC_PCTL_BUSY) (by decide) _ _).trans (State.event_sameRegs _ (f := F.BSC_STAT_LOAD_DONE) (by decide) _), rfl⟩
    rw [State.flag, State.fget_event_other _ _ _ _ _ (fun h => absurd h.1 (by decide)), State.fget_fput_same _ _ _ _ (by decide) (by decide) (by decide)]
    rfl
  · exact ⟨execBscGo_denied hdeny hpass c, execBscStop_denied hdeny hpass c, execBscProgramLoad_denied hdeny hpass⟩
  · exact ⟨_, execBscRingPoll_reads hon hwipe hgood, State.stop_setStop_same _ _ _, rfl⟩
  · intro cons a c hb hon hwipe hmore hgood htarget hentry hargs hzero hpart hidle
    exact ⟨_, execBscRingRecord_launches portA hb hon hwipe hmore hgood htarget hentry hargs hzero hpart hidle,
      s.recordLaunched_reads t c (recordCore_lt b) hentry _ _ portA⟩
  · exact ⟨_, execBscTokenGrant_grants hwait hnone hfew hfirst, (s.onlyCore_setCore t c.isLt _).of_cores rfl, rfl⟩
  · exact ⟨_, execBscLeaseBegin_lends hwait htoken hlent hasked, rfl, State.stop_setStop_same _ _ _, rfl⟩
  · exact ⟨_, execBscCoreStart_starts hwait hlent hcopied hfree, State.setCState_cstate _ t (by decide), s.startCore_onlyCore t c.isLt,
      s.startCore_quiet t c⟩
  · intro k i ended
    refine ⟨fun bc w h => ?_, fun src hpass hdeny hbusy => ?_, fun hrun hlimit => ?_, fun why hrun hnotice => ?_,
      fun hpause hrefresh hserve hcopied hreqs href hfree hmay => ?_, fun h hheld hbank hlate hlent hnone hrun => ?_⟩
    · exact ⟨_, execBscHalt_issued h bc, s.halted_ended t c.isLt bc (Nat.mod_lt _ (by decide)) k.pc⟩
    · exact ⟨_, execBscStop_stops hpass hdeny hbusy, s.bscErr_ended t c (by decide)⟩
    · exact ⟨_, execBscRunLimit_ends hrun hlimit, s.bscErr_ended t c (by decide)⟩
    · obtain ⟨hregs, href, hlease⟩ := (s.pauseCore t c).pauseServed_reads t c (k.pause.contains .refresh) (s.flag F.MESH_CFG_SLOT_EN t)
        (k.pause.contains .lease)
      have hcore := s.pauseCore_sameRegs t c
      rw [hcore.fget _ _ (by decide) (by decide)] at href hlease
      exact ⟨_, execBscPause_pauses hrun hnotice, (hregs.cstate (by decide) t c).trans (State.setCState_cstate _ t (by decide)),
        (s.pauseCore_onlyCore t c c.isLt).of_cores (State.pauseServed_cores _ t c _ _ _), href, hlease⟩
    · exact ⟨_, execBscResume_resumes hpause hrefresh hserve hcopied hreqs href hfree hmay, State.setCState_cstate _ t (by decide),
        s.resumeCore_onlyCore t c c.isLt⟩
    · have hnotice : s.notice t c .lease = s.setCore t c { k with pause := k.pause ++ [.lease] } :=
        State.notice_eq (.inl hrun) (show k.pause.contains .lease = false by rw [hnone]; rfl)
      rw [hnone, List.nil_append] at hnotice
      exact ⟨_, (execBscLeaseLimit_notices hheld hbank hlate hlent).trans (congrArg Host.Outcome.next hnotice), s.onlyCore_setCore t c.isLt _, rfl⟩

end Sys2Proof.Machine
end

section
/-! The KV manager's work on its tables (R173 to R180, R190 to R195, R208): what it leaves alone. In a calm state it leaves the gate alone, and
always every register but those of `tableRegs`, the queue pairs, host memory, metering and the swaps under way. -/

namespace Sys2Proof.Machine

/-! ### The relation -/

/-- The registers that work on the tables may write: those of the channels, of the KV manager, the counters of the directory of nodes, and the
status of the security block where a sealed prompt fails. -/
def tableRegs : List Reg := vchRegs ++ kvRegs ++ [.PFX_HIT, .PFX_MISS, .PFX_EVICT, .PFX_SKIP, .SEC_STAT]
/-- What completions depend on, metering, and the swaps under way. -/
def State.aside (s : State) : Cmd × Pcie × SMap Byte × Enr × SMap Swap × SMap Swap := (s.cmd, s.pcie, s.host, s.enr, s.kv.outs, s.kv.ins)

/-- `u` follows from `s` by work on the tables; SWAP_AUTH, once set, stays set. -/
structure State.tableWork (s u : State) : Prop where
  gate : s.calm → u.gate = s.gate
  regs : s.sameRegs u tableRegs
  auth : s.flag F.KVM_STAT_SWAP_AUTH 0 = true → u.flag F.KVM_STAT_SWAP_AUTH 0 = true
  aside : u.aside = s.aside

theorem State.tableWork_refl (s : State) : s.tableWork s := ⟨fun _ => rfl, s.sameRegs_refl _, id, rfl⟩
theorem State.tableWork.calm {s u : State} (h : s.tableWork u) (hs : s.calm) : u.calm := hs.of_same (h.gate hs) h.regs (by decide)
theorem State.tableWork.trans {s u v : State} (h : s.tableWork u) (h' : u.tableWork v) : s.tableWork v :=
  ⟨fun hs => (h'.gate (h.calm hs)).trans (h.gate hs), h.regs.trans h'.regs, h'.auth ∘ h.auth, h'.aside.trans h.aside⟩
theorem State.tableWork.ite {s a b : State} (c : Prop) [Decidable c] (ha : s.tableWork a) (hb : s.tableWork b) :
    s.tableWork (if c then a else b) := by
  split
  · exact ha
  · exact hb
theorem State.tableWork.cmd {s u : State} (h : s.tableWork u) : u.cmd = s.cmd := congrArg (·.1) h.aside
theorem State.tableWork.pcie {s u : State} (h : s.tableWork u) : u.pcie = s.pcie := congrArg (·.2.1) h.aside
theorem State.tableWork.enr {s u : State} (h : s.tableWork u) : u.enr = s.enr := congrArg (·.2.2.2.1) h.aside
theorem State.tableWork.outs {s u : State} (h : s.tableWork u) : u.kv.outs = s.kv.outs := congrArg (·.2.2.2.2.1) h.aside
theorem State.tableWork.ins {s u : State} (h : s.tableWork u) : u.kv.ins = s.kv.ins := congrArg (·.2.2.2.2.2) h.aside
theorem State.tableWork.fget {s u : State} (h : s.tableWork u) (f : Field) (i : Nat) (hf : f.reg ∉ tableRegs) (ha : f.app ≠ .staged) :
    u.fget f i = s.fget f i := h.regs.fget f i hf ha
theorem State.tableWork.flag {s u : State} (h : s.tableWork u) (f : Field) (i : Nat) (hf : f.reg ∉ tableRegs) (ha : f.app ≠ .staged) :
    u.flag f i = s.flag f i := h.regs.flag f i hf ha
theorem State.tableWork.ctxCount {s u : State} (h : s.tableWork u) : u.ctxCount = s.ctxCount :=
  congrArg (2 ^ ·) (h.fget F.KVM_SEQ_HI_CTX_LOG2 0 (by decide) (by decide))
theorem State.tableWork.swapping {s u : State} (h : s.tableWork u) (c : Nat) : u.swapping c = s.swapping c := by
  rw [State.swapping, State.swapping, h.outs, h.ins]
/-- A pass over a list whose steps are work on the tables; `π` is the state that it carries. -/
theorem foldl_tableWork {α γ : Type} (π : γ → State) {g : γ → α → γ} (hg : ∀ x a, (π x).tableWork (π (g x a))) :
    ∀ (l : List α) (x : γ), (π x).tableWork (π (l.foldl g x))
  | [], x => (π x).tableWork_refl
  | a :: l, x => (hg x a).trans (foldl_tableWork π hg l (g x a))
/-- A pass over a list that carries the state alone. -/
theorem State.tableWork_foldl {α : Type} {g : State → α → State} (hg : ∀ (s : State) a, s.tableWork (g s a)) (l : List α) (s : State) :
    s.tableWork (l.foldl g s) := Machine.foldl_tableWork id hg l s

/-! ### Registers, raises, memory -/

/-- A change of parts that the relation does not speak of. -/
theorem State.tableWork_of {s u : State} (hgate : u.gate = s.gate) (hregs : u.regs = s.regs) (haside : u.aside = s.aside) : s.tableWork u :=
  ⟨fun _ => hgate, State.sameRegs_of_regs _ hregs, fun h => ((State.sameRegs_of_regs [] hregs).flag _ _ (by decide) (by decide)).trans h, haside⟩
section
variable {s : State}

theorem State.event_tableWork (s : State) {f : Field} (hf : f.reg ∈ tableRegs) (hlo : f.lo < 16) (hhi : f.hi = f.lo) (ha : f.app ≠ .staged) (i : Nat) :
    s.tableWork (s.event f i) :=
  ⟨fun _ => rfl, s.event_sameRegs hf i, s.flag_event_mono f F.KVM_STAT_SWAP_AUTH i 0 hlo (by decide) rfl hhi ha (by decide), rfl⟩
theorem State.rput_tableWork (s : State) {r : Reg} (hr : r ∈ tableRegs) (hne : r ≠ .KVM_STAT) (i : Nat) (w : Word) : s.tableWork (s.rput r i w) :=
  ⟨fun _ => rfl, s.rput_sameRegs hr i w, fun h => ((s.rput_sameRegs (l := [r]) List.mem_cons_self i w).flag _ _
    (fun hm => hne (List.mem_singleton.mp hm).symm) (by decide)).trans h, rfl⟩
theorem State.fput_tableWork (s : State) {f : Field} (hf : f.reg ∈ tableRegs) (hne : f.reg ≠ .KVM_STAT) (i v : Nat) : s.tableWork (s.fput f i v) :=
  s.rput_tableWork hf hne i _
theorem State.fadd_tableWork (s : State) {f : Field} (hf : f.reg ∈ tableRegs) (hne : f.reg ≠ .KVM_STAT) (i n : Nat) : s.tableWork (s.fadd f i n) :=
  s.rput_tableWork hf hne i _
theorem State.raise_tableWork (s : State) (ty inst arg code : Nat) : s.tableWork (s.raise ty inst arg code) :=
  State.tableWork_of (raise_keeps (φ := State.gate) (fun _ _ => rfl) s ty inst arg code) (raise_keeps (φ := State.regs) (fun _ _ => rfl) s ty inst arg code)
    (raise_keeps (φ := State.aside) (fun _ _ => rfl) s ty inst arg code)
theorem State.free_tableWork (s : State) (w : Nat) : s.tableWork (s.free w).2 := State.tableWork_of rfl rfl rfl
theorem State.tableWork_of_vch {u : State} (hgate : s.calm → u.gate = s.gate) (hregs : s.sameRegs u vchRegs) (haside : u.aside = s.aside) :
    s.tableWork u :=
  ⟨hgate, hregs.mono (by decide), fun h => (hregs.flag _ _ (by decide) (by decide)).trans h, haside⟩
theorem State.daRead_tableWork (s : State) (da n src : Nat) : s.tableWork (s.daRead da n src).1 :=
  State.tableWork_of_vch (fun hs => hs.daRead_gate da n src) (s.daRead_sameRegs da n src)
    (daRead_keeps (φ := State.aside) (fun _ _ => rfl) (fun _ _ => rfl) (fun _ _ => rfl) (fun _ _ => rfl) (fun _ _ => rfl) (fun _ _ => rfl)
      (fun _ _ => rfl) s da n src)
theorem State.daWrite_tableWork (s : State) (da : Nat) (bs : List Byte) : s.tableWork (s.daWrite da bs).1 :=
  State.tableWork_of_vch (fun hs => hs.daWrite_gate da bs) (s.daWrite_sameRegs da bs)
    (daWrite_keeps (φ := State.aside) (fun _ _ => rfl) (fun _ _ => rfl) (fun _ _ => rfl) (fun _ _ => rfl) (fun _ _ => rfl) (fun _ _ => rfl)
      (fun _ _ => rfl) s da bs)
/-- A change of the KV manager's own lists other than the swaps. -/
theorem State.setKv_tableWork (s : State) {x : Kv} (houts : x.outs = s.kv.outs) (hins : x.ins = s.kv.ins) : s.tableWork { s with kv := x } :=
  State.tableWork_of rfl rfl (by simp only [State.aside, houts, hins])

/-! ### Reads of the KV manager and lost words (R208) -/

theorem State.kvRead_tableWork (s : State) (da n : Nat) : s.tableWork (s.kvRead da n).1 := by
  unfold State.kvRead
  dsimp only
  split
  · exact s.daRead_tableWork da n 4
  · exact ((s.daRead_tableWork da n 4).trans (State.event_tableWork _ (f := F.KVM_STAT_UE) (by decide) (by decide) rfl (by decide) 0)).trans
      (State.raise_tableWork _ _ _ _ _)
theorem State.kvRead_tableWork_of {s1 : State} {da n : Nat} {b : Option (List Byte)} (h : s.kvRead da n = (s1, b)) : s.tableWork s1 := by
  have hread := s.kvRead_tableWork da n
  rwa [h] at hread
theorem State.failCtx_tableWork (s : State) (c : Nat) : s.tableWork (s.failCtx c) := by
  unfold State.failCtx
  split <;> exact (State.kvRead_tableWork_of ‹_›).trans (State.daWrite_tableWork _ _ _)
theorem State.entryLost_tableWork (s : State) (c : Nat) : s.tableWork (s.entryLost c) := by
  have h := (s.daWrite_tableWork (s.seqDa c) (putAt (zeros 128) 0 1 6)).trans
    (State.rput_tableWork _ (r := .KVM_UE_CTX) (by decide) (by decide) 0 (BitVec.ofNat 32 (c + 2 ^ 31)))
  exact .ite _ h (h.trans (State.setKv_tableWork _ rfl rfl))
theorem State.pageLost_tableWork (s : State) (p : Nat) : s.tableWork (s.pageLost p) :=
  (s.daWrite_tableWork _ _).trans (State.setKv_tableWork _ rfl rfl)

/-! ### Jobs -/

section
variable {j : Job}

theorem Job.map_tableWork {f : State → State} (h : j.st.tableWork (f j.st)) : j.st.tableWork (j.map f).st := by
  unfold Job.map
  split
  · exact j.st.tableWork_refl
  · exact h
theorem Job.read_tableWork (j : Job) (da n : Nat) (e : KvErr) : j.st.tableWork (j.read da n e).1.st := by
  unfold Job.read
  split
  · exact j.st.tableWork_refl
  · split <;> exact State.kvRead_tableWork_of ‹_›
theorem Job.write_tableWork (j : Job) (da : Nat) (bs : List Byte) : j.st.tableWork (j.write da bs).st := Job.map_tableWork (j.st.daWrite_tableWork da bs)
/-- A job that ends well keeps its effects; one that does not keeps those of the lost word alone. -/
theorem Job.finish_tableWork (h : s.tableWork j.st) : s.tableWork (j.finish s).1 := by
  unfold Job.finish
  split
  · exact h
  · exact (s.kvRead_tableWork _ _).trans (State.entryLost_tableWork _ _)
  · exact (s.kvRead_tableWork _ _).trans (State.failCtx_tableWork _ _)
  · exact (s.kvRead_tableWork _ _).trans (State.pageLost_tableWork _ _)
theorem Job.entry_tableWork (j : Job) (c : Nat) : j.st.tableWork (j.entry c).1.st := j.read_tableWork _ _ _
theorem Job.putEntry_tableWork (j : Job) (c : Nat) (b : List Byte) : j.st.tableWork (j.putEntry c b).st := j.write_tableWork _ _
theorem Job.setState_tableWork (j : Job) (c v : Nat) : j.st.tableWork (j.setState c v).st :=
  (j.entry_tableWork c).trans (Job.putEntry_tableWork _ _ _)

end

/-! ### Pages (R174 to R177) -/

theorem State.placeOf_tableWork (s : State) (i : Nat) : s.tableWork (s.placeOf i).1 := by
  unfold State.placeOf
  split
  · exact State.kvRead_tableWork_of ‹_›
  · exact (State.kvRead_tableWork_of ‹_›).trans (State.free_tableWork _ 7)
theorem Job.pageWord_tableWork (j : Job) (p : Nat) : j.st.tableWork (j.pageWord p).1.st := j.read_tableWork _ _ _
theorem Job.putPage_tableWork (j : Job) (p w : Nat) : j.st.tableWork (j.putPage p w).st := j.write_tableWork _ _
theorem Job.pop_tableWork (j : Job) (t st : Nat) : j.st.tableWork (j.pop t st).1.st := by
  unfold Job.pop
  split
  · exact j.st.tableWork_refl
  · exact ((j.pageWord_tableWork _).trans (Job.putPage_tableWork _ _ _)).trans (Job.map_tableWork (State.setKv_tableWork _ rfl rfl))
theorem State.joinFree_tableWork (s : State) (p : Nat) : s.tableWork (s.joinFree p) := by
  unfold State.joinFree
  dsimp only
  split
  · exact ((s.free_tableWork 24).trans (State.daWrite_tableWork _ _ _)).trans (State.setKv_tableWork _ rfl rfl)
  · exact (s.daWrite_tableWork _ _).trans (State.setKv_tableWork _ rfl rfl)
theorem Job.freePage_tableWork (j : Job) (p : Nat) : j.st.tableWork (j.freePage p).st := by
  unfold Job.freePage
  split
  · exact (j.putPage_tableWork p 0).trans (Job.map_tableWork (State.setKv_tableWork _ rfl rfl))
  · exact Job.map_tableWork (j.st.joinFree_tableWork p)
theorem Job.refUp_tableWork (j : Job) (p : Nat) : j.st.tableWork (j.refUp p).st := (j.pageWord_tableWork p).trans (Job.putPage_tableWork _ _ _)
theorem Job.refDown_tableWork (j : Job) (p : Nat) (conf : Option Bool) : j.st.tableWork (j.refDown p conf).st := by
  have hread := j.pageWord_tableWork p
  have hdrop : ∀ k : Job, j.st.tableWork k.st → j.st.tableWork
      (if metaRef (j.pageWord p).2 = 1 then k.freePage p else k.putPage p (setBits (j.pageWord p).2 20 0 (metaRef (j.pageWord p).2 - 1))).st := by
    intro k hk
    split
    · exact hk.trans (k.freePage_tableWork p)
    · exact hk.trans (k.putPage_tableWork p _)
  unfold Job.refDown
  dsimp only
  split
  · exact hread
  · cases conf with
    | none => exact hdrop _ hread
    | some c => exact hdrop _ (hread.trans (Job.map_tableWork (State.setKv_tableWork _ rfl rfl)))

/-! ### Page tables (R180) -/

theorem Job.ptr_tableWork (j : Job) (c da : Nat) : j.st.tableWork (j.ptr c da).1.st := j.read_tableWork _ _ _
theorem Job.leafOf_tableWork (j : Job) (c root e : Nat) : j.st.tableWork (j.leafOf c root e).1.st := by
  have hmid := j.ptr_tableWork c (root + 8 * (e / 2 ^ 25))
  unfold Job.leafOf
  dsimp only
  split
  · exact hmid
  · exact hmid.trans (Job.ptr_tableWork _ _ _)
theorem Job.pte_tableWork (j : Job) (c root e : Nat) : j.st.tableWork (j.pte c root e).1.st := by
  have hleaf := j.leafOf_tableWork c root e
  unfold Job.pte
  dsimp only
  split
  · exact hleaf
  · exact hleaf.trans (Job.read_tableWork _ _ _ _)
theorem Job.newTable_tableWork (j : Job) : j.st.tableWork j.newTable.1.st := (j.pop_tableWork _ _).trans (Job.write_tableWork _ _ _)
theorem Job.newTable_write_tableWork (j : Job) (da : Nat) : j.st.tableWork (j.newTable.1.write da (leBytes 8 j.newTable.2)).st :=
  j.newTable_tableWork.trans (Job.write_tableWork _ _ _)
theorem Job.ensure_tableWork (j : Job) (c root e : Nat) : j.st.tableWork (j.ensure c root e).st := by
  have hleaf : ∀ (k : Job) (da : Nat), k.st.tableWork (if (k.ptr c da).2 = 0 then
      (k.ptr c da).1.newTable.1.write da (leBytes 8 (k.ptr c da).1.newTable.2) else (k.ptr c da).1).st := by
    intro k da
    split
    · exact (k.ptr_tableWork c da).trans (Job.newTable_write_tableWork _ _)
    · exact k.ptr_tableWork c da
  have hmid := j.ptr_tableWork c (root + 8 * (e / 2 ^ 25))
  unfold Job.ensure
  dsimp only
  split
  · exact (hmid.trans (Job.newTable_write_tableWork _ _)).trans (hleaf _ _)
  · exact hmid.trans (hleaf _ _)
theorem Job.setPte_tableWork (j : Job) (c root e v : Nat) : j.st.tableWork (j.setPte c root e v).st :=
  (((j.ensure_tableWork c root e).trans (Job.leafOf_tableWork _ _ _ _)).trans (Job.read_tableWork _ _ _ _)).trans (Job.write_tableWork _ _ _)
theorem Job.tablesNeeded_tableWork (j : Job) (c root : Nat) (es : List Nat) : j.st.tableWork (j.tablesNeeded c root es).1.st := by
  refine foldl_tableWork (π := fun a : Job × Nat × List Nat => a.1.st) (fun a k => ?_) _ (j, 0, [])
  have hmid := a.1.ptr_tableWork c (root + 8 * (k / 4096))
  dsimp only
  split
  · exact hmid
  · exact hmid.trans (Job.ptr_tableWork _ _ _)

/-! ### The end of an operation -/

theorem State.syncWord_tableWork (s : State) (da v : Nat) : s.tableWork (s.syncWord da v) := .ite _ s.tableWork_refl (State.tableWork_of rfl rfl rfl)
theorem State.syncCtx_tableWork (s : State) (c : Nat) : s.tableWork (s.syncCtx c) :=
  .ite _ s.tableWork_refl ((s.syncWord_tableWork _ _).trans (State.syncWord_tableWork _ _ _))
theorem State.kvSync_tableWork (s : State) : s.tableWork s.kvSync :=
  ((State.tableWork_foldl (fun a c => a.syncCtx_tableWork c) s.kv.ctxs s).trans
    (State.fput_tableWork _ (f := F.KVM_FREE_FREE) (by decide) (by decide) 0 _)).trans
    (State.fput_tableWork _ (f := F.KVM_CTXS_OPEN) (by decide) (by decide) 0 _)

/-! ### Prefix nodes (R190 to R195) -/

theorem State.nsKey_tableWork (s : State) (ns sid : Nat) : s.tableWork (s.nsKey ns sid).1 := by
  unfold State.nsKey
  split
  · exact s.free_tableWork 128
  · exact s.tableWork_refl
theorem State.nodeRead_tableWork (s : State) (n : Nat) : s.tableWork (s.nodeRead n).1 := by
  unfold State.nodeRead
  split
  · exact State.kvRead_tableWork_of ‹_›
  · exact (State.kvRead_tableWork_of ‹_›).trans (State.daWrite_tableWork _ _ _)
theorem State.dirUse_tableWork (s : State) (e : DirEntry) : s.tableWork (s.dirUse e) := s.setKv_tableWork rfl rfl
theorem State.dirDrop_tableWork (s : State) (h n : Nat) : s.tableWork (s.dirDrop h n) := s.setKv_tableWork rfl rfl
theorem State.nodesRead_tableWork : ∀ (ns : List Nat) (s : State), s.tableWork (s.nodesRead ns).1
  | [], s => s.tableWork_refl
  | n :: ns, s => (s.nodeRead_tableWork n).trans (State.nodesRead_tableWork ns _)
theorem State.findNode_tableWork (s : State) (h ns blk shape : Nat) : s.tableWork (s.findNode h ns blk shape).1 := by
  have hhit := State.nodesRead_tableWork (((SMap.get s.kv.dir (h % 4096) []).filter fun e => e.hash == h && e.ns == ns && e.block == blk).map (·.node)) s
  unfold State.findNode
  dsimp only
  split
  · exact hhit
  · dsimp only
    exact hhit.trans (State.nodesRead_tableWork _ _)
theorem State.rowPfns_tableWork (s : State) (b : List Byte) (lh : Nat) : s.tableWork (s.rowPfns b lh).1 := by
  unfold State.rowPfns
  split <;> exact State.kvRead_tableWork_of ‹_›
theorem Job.evict_tableWork (j : Job) (n : Nat) (b : List Byte) (lh : Nat) : j.st.tableWork (j.evict n b lh).st := by
  have hrow : j.st.tableWork (if j.err.isSome then j else { j with st := (j.st.rowPfns b lh).1 } : Job).st := by
    split
    · exact j.st.tableWork_refl
    · exact j.st.rowPfns_tableWork b lh
  refine ((hrow.trans (foldl_tableWork Job.st (fun a p => a.refDown_tableWork p none) _ _)).trans (Job.refDown_tableWork _ _ _)).trans
    ((Job.write_tableWork _ _ _).trans (Job.map_tableWork ?_))
  exact (State.fadd_tableWork _ (f := F.PFX_EVICT_EVICT) (by decide) (by decide) 0 1).trans (State.dirDrop_tableWork _ _ _)

/-! ### Swap slots (R196 to R198) -/

theorem State.slotTook_tableWork (s : State) (n : Nat) (w : Option (List Byte)) : s.tableWork (s.slotTook n w).1 := by
  cases w with
  | none => exact (s.free_tableWork 64).trans (State.daWrite_tableWork _ _ _)
  | some b => exact s.tableWork_refl
theorem State.slotWord_tableWork (s : State) (n : Nat) : s.tableWork (s.slotWord n).1 :=
  (s.kvRead_tableWork _ _).trans (State.slotTook_tableWork _ _ _)
theorem State.slotFind_tableWork : ∀ (fuel : Nat) (s : State) (k : Nat), s.tableWork (State.slotFind fuel s k).1
  | 0, s, _ => s.tableWork_refl
  | fuel + 1, s, k => by
    have hword := s.slotWord_tableWork (64 * k)
    unfold State.slotFind
    dsimp only
    split
    · exact s.tableWork_refl
    · split
      · exact hword
      · exact hword.trans (State.slotFind_tableWork fuel _ _)
theorem State.slotSet_tableWork (s : State) (n : Nat) (v : Bool) : s.tableWork (s.slotSet n v) :=
  (s.slotWord_tableWork n).trans (State.daWrite_tableWork _ _ _)
theorem State.swapKey_tableWork (s : State) (c gen : Nat) : s.tableWork (s.swapKey c gen).1 := by
  unfold State.swapKey
  split
  · exact s.free_tableWork 256
  · exact s.tableWork_refl
theorem State.vectorsRead_tableWork : ∀ (k : Nat) (s : State) (da d : Nat), s.tableWork (State.vectorsRead k s da d).1
  | 0, s, _, _ => s.tableWork_refl
  | k + 1, s, da, d => by
    have hread := s.kvRead_tableWork da (2 * d)
    unfold State.vectorsRead
    dsimp only
    split
    · exact hread
    · exact hread.trans (State.vectorsRead_tableWork k _ _ _)
theorem State.vectorsWrite_tableWork : ∀ (k : Nat) (s : State) (da d : Nat) (bs : List Byte), s.tableWork (State.vectorsWrite k s da d bs)
  | 0, s, _, _, _ => s.tableWork_refl
  | k + 1, s, _, _, _ => (s.daWrite_tableWork _ _).trans (State.vectorsWrite_tableWork k _ _ _ _)

end

/-! ### Descriptors under way -/

theorem State.tableWork.underway {s a u : State} {q : Nat} {d : Descr} (ht : a.tableWork u) (h : s.underway a q d) : s.underway u q d where
  descr := by rw [← h.descr, State.descr, State.descr, State.qp, State.qp, ht.cmd]
  gen := by rw [← h.gen, State.qp, State.qp, ht.cmd]
  prod := by rw [← h.prod, State.qp, State.qp, ht.cmd]
  pcie := ht.pcie.trans h.pcie
  regs r hr i := (ht.regs r i (fun hm => (by decide : ∀ q ∈ recordRegs, q ∉ tableRegs) r hr hm)).trans (h.regs r hr i)

end Sys2Proof.Machine
end

section
/-! Swaps (R196 to R199): what they leave alone. They write to host memory and complete descriptors, so that beside the gate in a calm state they
leave alone every register but those of `swapRegs`, and no descriptor comes to a queue pair. -/

namespace Sys2Proof.Machine

/-! ### A completion brings no descriptor -/

theorem State.setQp_descr {s : State} {q : Nat} {x : Qp} (h : x.ring = (s.qp q).ring) (r i : Nat) : (s.setQp q x).descr r i = s.descr r i := by
  by_cases hr : r = q
  · subst hr
    rw [State.descr, State.qp_setQp_same, Qp.find, h, State.descr, Qp.find]
  · rw [State.descr, State.qp_setQp_other s x hr, State.descr]
theorem State.completeIrq_descr (s : State) (q : Nat) (urgent : Bool) (r i : Nat) : (s.completeIrq q urgent).descr r i = s.descr r i := by
  unfold State.completeIrq
  dsimp only
  split
  · rfl
  · split
    · exact (msi_keeps (φ := fun u => u.descr r i) (fun _ _ => rfl) (fun _ _ => rfl) (fun _ _ => rfl) _ _ _).trans (State.setQp_descr (by rfl) r i)
    · exact State.setQp_descr (by rfl) r i
theorem State.writeRecord_descr (s : State) (q didx status type cflags : Nat) (tag result : List Byte) (irq : Bool) (r i : Nat) :
    (s.writeRecord q didx status type cflags tag result irq).descr r i = s.descr r i := by
  unfold State.writeRecord
  dsimp only
  split
  · rfl
  · split
    · split
      · refine (show _ = (((s.event F.CMD_STAT_HOST_ERR ((s.qpFunc q).getD 0)).fput F.CMD_QP_STATE_STATE q qpERROR).fput F.CMD_QP_STATE_ERR q qeWRITE).descr
          r i from ?_)
        exact raise_keeps (φ := fun u => u.descr r i) (fun _ _ => rfl) _ _ _ _ _
      · rfl
    · refine (State.completeIrq_descr _ q _ r i).trans ((State.setQp_descr ?_ r i).trans ?_)
      · show (s.qp q).ring = _
        exact congrArg Qp.ring (hostWrite_keeps (φ := fun u => u.qp q) (fun _ _ => rfl) (fun _ _ => rfl) (fun _ _ => rfl) s _ _).symm
      · exact hostWrite_keeps (φ := fun u => u.descr r i) (fun _ _ => rfl) (fun _ _ => rfl) (fun _ _ => rfl) s _ _
/-- What is gone from a queue pair stays gone when a descriptor completes. -/
theorem State.complete_gone {s : State} {r i : Nat} (h : s.descr r i = none) (q : Nat) (d : Descr) (status : Nat) (result : List Byte) :
    (s.complete q d status result).descr r i = none := by
  have hrec : ∀ a : State, a.descr r i = none → ∀ n m, (((a.setQp q { a.qp q with ring := (a.qp q).ring.filter (·.idx ≠ d.idx), reserved := n }).fput
      F.CMD_QP_STATE_INFLIGHT q m).headSync q).descr r i = none := by
    intro a ha n m
    by_cases hr : r = q
    · subst hr
      rw [State.closed_descr]
      rw [State.descr, Qp.find, List.find?_eq_none] at ha
      rw [Qp.find, List.find?_eq_none]
      exact fun e he => ha e (List.mem_filter.mp he).1
    · refine Eq.trans ?_ ha
      exact congrArg (Qp.find · i) (State.qp_setQp_other a _ hr)
  refine (drainCheck_keeps (φ := fun u => u.descr r i) (fun _ _ => rfl) _ q).trans (hrec _ ?_ _ _)
  have hdeny : (if status = stCONF_DENIED then s.event F.SEC_STAT_CONF_DENY 0 else s).descr r i = none := by split <;> exact h
  split
  · exact hdeny
  · exact (State.writeRecord_descr _ _ _ _ _ _ _ _ _ r i).trans hdeny

/-! ### The relation -/

/-- The registers that swaps may write. -/
def swapRegs : List Reg := tableRegs ++ completeRegs ++ [.KVM_PREEMPTS]
/-- `u` follows from `s` by work on the tables, swaps and completions. -/
structure State.swapWork (s u : State) : Prop where
  gate : s.calm → u.gate = s.gate
  regs : s.sameRegs u swapRegs
  auth : s.flag F.KVM_STAT_SWAP_AUTH 0 = true → u.flag F.KVM_STAT_SWAP_AUTH 0 = true
  gone : ∀ q i, s.descr q i = none → u.descr q i = none

theorem State.swapWork_refl (s : State) : s.swapWork s := ⟨fun _ => rfl, s.sameRegs_refl _, id, fun _ _ => id⟩
theorem State.swapWork.calm {s u : State} (h : s.swapWork u) (hs : s.calm) : u.calm := hs.of_same (h.gate hs) h.regs (by decide)
theorem State.swapWork.trans {s u v : State} (h : s.swapWork u) (h' : u.swapWork v) : s.swapWork v :=
  ⟨fun hs => (h'.gate (h.calm hs)).trans (h.gate hs), h.regs.trans h'.regs, h'.auth ∘ h.auth, fun q i => h'.gone q i ∘ h.gone q i⟩
theorem State.swapWork.ite {s a b : State} (c : Prop) [Decidable c] (ha : s.swapWork a) (hb : s.swapWork b) : s.swapWork (if c then a else b) := by
  split
  · exact ha
  · exact hb
theorem State.tableWork.swapWork {s u : State} (h : s.tableWork u) : s.swapWork u :=
  ⟨h.gate, h.regs.mono (by decide), h.auth, fun q i => Eq.trans (by rw [State.descr, State.descr, State.qp, State.qp, h.cmd])⟩
theorem foldl_swapWork {α γ : Type} (π : γ → State) {g : γ → α → γ} (hg : ∀ x a, (π x).swapWork (π (g x a))) :
    ∀ (l : List α) (x : γ), (π x).swapWork (π (l.foldl g x))
  | [], x => (π x).swapWork_refl
  | a :: l, x => (hg x a).trans (foldl_swapWork π hg l (g x a))
/-- A pass over a list that carries the state alone. -/
theorem State.swapWork_foldl {α : Type} {g : State → α → State} (hg : ∀ (s : State) a, s.swapWork (g s a)) (l : List α) (s : State) :
    s.swapWork (l.foldl g s) := Machine.foldl_swapWork id hg l s

/-- A change that leaves gate, registers and queue pairs alone. -/
theorem State.swapWork_of {s u : State} (hgate : u.gate = s.gate) (hregs : u.regs = s.regs) (hcmd : u.cmd = s.cmd) : s.swapWork u :=
  ⟨fun _ => hgate, State.sameRegs_of_regs _ hregs, fun h => ((State.sameRegs_of_regs [] hregs).flag _ _ (by decide) (by decide)).trans h,
    fun q i => Eq.trans (by rw [State.descr, State.descr, State.qp, State.qp, hcmd])⟩
theorem State.hostWrite_swapWork (s : State) (addr : Nat) (bs : List Byte) : s.swapWork (s.hostWrite addr bs) :=
  ⟨fun _ => hostWrite_keeps (φ := State.gate) (fun _ _ => rfl) (fun _ _ => rfl) (fun _ _ => rfl) s addr bs, (s.hostWrite_sameRegs addr bs).mono (by decide),
    fun h => ((s.hostWrite_sameRegs addr bs).flag _ _ (by decide) (by decide)).trans h,
    fun q i => Eq.trans (hostWrite_keeps (φ := fun u => u.descr q i) (fun _ _ => rfl) (fun _ _ => rfl) (fun _ _ => rfl) s addr bs)⟩
theorem State.complete_swapWork (s : State) (q : Nat) (d : Descr) (st : Nat) (res : List Byte) : s.swapWork (s.complete q d st res) :=
  ⟨fun _ => s.complete_gate q d st res, (s.complete_sameRegs q d st res).mono (by decide),
    fun h => ((s.complete_sameRegs q d st res).flag _ _ (by decide) (by decide)).trans h, fun _ _ h => State.complete_gone h q d st res⟩
theorem State.faddPreempts_swapWork (s : State) : s.swapWork (s.fadd F.KVM_PREEMPTS_PREEMPTS 0 1) :=
  ⟨fun _ => rfl, s.fput_sameRegs (f := F.KVM_PREEMPTS_PREEMPTS) (by decide) 0 _,
    fun h => ((s.fput_sameRegs (f := F.KVM_PREEMPTS_PREEMPTS) (l := [.KVM_PREEMPTS]) (by decide) 0 _).flag _ _ (by decide) (by decide)).trans h,
    fun _ _ => id⟩
theorem State.setOut_swapWork (s : State) (c : Nat) (x : Option Swap) : s.swapWork (s.setOut c x) := State.swapWork_of rfl rfl rfl
theorem State.setIn_swapWork (s : State) (c : Nat) (x : Option Swap) : s.swapWork (s.setIn c x) := State.swapWork_of rfl rfl rfl
theorem State.kvComplete_swapWork (s : State) (qi : Nat × Nat) (st : Nat) (res : List Byte) : s.swapWork (s.kvComplete qi st res) := by
  unfold State.kvComplete
  split
  · exact s.swapWork_refl
  · exact s.complete_swapWork _ _ _ _
/-- What completes is gone. -/
theorem State.kvComplete_descr (s : State) (qi : Nat × Nat) (st : Nat) (res : List Byte) : (s.kvComplete qi st res).descr qi.1 qi.2 = none := by
  unfold State.kvComplete
  split
  · assumption
  · have hgone := s.complete_descr qi.1 ‹_› st res
    rwa [State.descr_idx ‹_›] at hgone

/-! ### Swap-out (R197) -/

/-- The state in which a swap-out or a swap-in leaves its context's entry: the next state of the context when the entry reads and the swap
still holds it. -/
theorem Job.settled_tableWork (s : State) (c : Nat) (b : Bool) (v : Nat) :
    s.tableWork (if b then ((((Job.mk s none).entry c).1.setState c v).finish s).1 else (((Job.mk s none).entry c).1.finish s).1) := by
  have hentry := (Job.mk s none).entry_tableWork c
  exact .ite _ (Job.finish_tableWork (hentry.trans (Job.setState_tableWork _ _ _))) (Job.finish_tableWork hentry)
/-- A swap-out of context `c` has ended but for its completion. -/
def State.outClosed (s : State) (c : Nat) : State :=
  let r := (Job.mk s none).entry c
  (((if r.1.err.isNone && eState r.2 = cSWAPOUT then ((r.1.setState c cSWAPPED).finish s).1 else (r.1.finish s).1).setOut c none).kvSync)
theorem State.outEnds_eq (s : State) (c : Nat) (x : Swap) (st : Nat) : s.outEnds c x st =
    match x.desc with
    | none => s.outClosed c
    | some qi => (s.outClosed c).kvComplete qi st ((s.outClosed c).swapResult c x.moved) := rfl
theorem State.outClosed_swapWork (s : State) (c : Nat) : s.swapWork (s.outClosed c) :=
  ((Job.settled_tableWork s c _ _).swapWork.trans (State.setOut_swapWork _ c none)).trans (State.kvSync_tableWork _).swapWork
theorem State.outEnds_swapWork (s : State) (c : Nat) (x : Swap) (st : Nat) : s.swapWork (s.outEnds c x st) := by
  rw [State.outEnds_eq]
  split
  · exact s.outClosed_swapWork c
  · exact (s.outClosed_swapWork c).trans (State.kvComplete_swapWork _ _ _ _)
/-- What one turn of a swap-out comes to: it ends; the slot of its next page is written, or its write waits; or that page stays and the next
one has its turn. -/
inductive State.outTurn (s : State) (fuel c : Nat) (x : Swap) : State → Prop
  | ends {t : State} (st : Nat) : s.tableWork t → s.outTurn fuel c x (t.outEnds c x st)
  | waits {t : State} (n : Nat) : s.tableWork t → s.outTurn fuel c x (t.setOut c (some { x with slot := some n }))
  | writes {t : State} (n addr : Nat) (bs : List Byte) : s.tableWork t →
      s.outTurn fuel c x ((t.setOut c (some { x with slot := some n })).hostWrite addr bs)
  | stays {t : State} {page : Nat × Nat} {rest : List (Nat × Nat)} : x.todo = page :: rest → s.tableWork t →
      s.outTurn fuel c x (State.outNext fuel (t.setOut c (some { x with todo := rest, slot := none })) c)
theorem State.outNext_turn {s : State} {c : Nat} {x : Swap} (hx : SMap.find s.kv.outs c = some x) (fuel : Nat) :
    s.outTurn fuel c x (State.outNext (fuel + 1) s c) := by
  unfold State.outNext
  rw [hx]
  dsimp only
  split
  · exact .ends _ s.tableWork_refl
  rename_i htodo
  cases x.slot
  case' some n =>
    have ht := s.tableWork_refl
    simp only
  case' none =>
    have ht := State.slotFind_tableWork 262145 s 0
    generalize State.slotFind 262145 s 0 = f at ht ⊢
    simp only
    split
    · exact .ends _ ht
  all_goals
    have hentry := ht.trans (Job.entry_tableWork (Job.mk _ none) c)
    have hread := fun p d => hentry.trans ((State.vectorsRead_tableWork 32 _ (2 ^ 15 * p) d).trans (State.vectorsRead_tableWork 32 _ (2 ^ 15 * p + 16384) d))
    split
    · exact .ends _ (ht.trans ((Job.finish_tableWork (Job.entry_tableWork (Job.mk _ none) c)).trans (State.slotSet_tableWork _ _ _)))
    have hseal := fun p d gen n => ((hread p d).trans (State.swapKey_tableWork _ c gen)).trans (State.slotSet_tableWork _ n true)
    split
    · split
      · exact .waits _ (hseal _ _ _ _)
      · exact .writes _ _ _ (hseal _ _ _ _)
    · exact .stays htodo ((hread _ _).trans (State.slotSet_tableWork _ _ false))
/-- A swap-out of a context goes on, or none is under way. -/
theorem State.outNext_swapWork : ∀ (fuel : Nat) (s : State) (c : Nat), s.swapWork (State.outNext fuel s c)
  | 0, s, _ => s.swapWork_refl
  | fuel + 1, s, c => by
    cases hx : SMap.find s.kv.outs c with
    | none =>
      unfold State.outNext
      rw [hx]
      exact s.swapWork_refl
    | some x =>
      have hturn := State.outNext_turn hx fuel
      generalize State.outNext (fuel + 1) s c = u at hturn
      cases hturn with
      | ends st ht => exact ht.swapWork.trans (State.outEnds_swapWork _ c x st)
      | waits n ht => exact ht.swapWork.trans (State.setOut_swapWork _ c _)
      | writes n addr bs ht => exact (ht.swapWork.trans (State.setOut_swapWork _ c _)).trans (State.hostWrite_swapWork _ addr bs)
      | stays _ ht => exact (ht.swapWork.trans (State.setOut_swapWork _ c _)).trans (State.outNext_swapWork fuel _ c)

end Sys2Proof.Machine
end

section
/-! Starts and ends of swaps (R196 to R199): what they leave alone, and which swaps are under way afterwards. -/

namespace Sys2Proof.Machine

/-! ### The end of a swap-out (R197) -/

theorem State.complete_kv (s : State) (q : Nat) (d : Descr) (st : Nat) (res : List Byte) : (s.complete q d st res).kv = s.kv :=
  complete_keeps (φ := State.kv) (fun _ _ => rfl) (fun _ _ => rfl) (fun _ _ => rfl) (fun _ _ => rfl) (fun _ _ => rfl) (fun _ _ => rfl) s q d st res
theorem State.kvComplete_kv (s : State) (qi : Nat × Nat) (st : Nat) (res : List Byte) : (s.kvComplete qi st res).kv = s.kv :=
  kvComplete_keeps (φ := State.kv) (fun _ _ => rfl) (fun _ _ => rfl) (fun _ _ => rfl) (fun _ _ => rfl) (fun _ _ => rfl) (fun _ _ => rfl) s qi st res
section
variable {s : State} {c : Nat} {x : Swap} {qi : Nat × Nat}

/-- A swap-out that has ended is under way no more, and its descriptor is gone. -/
theorem State.outEnds_outs (s : State) (c : Nat) (x : Swap) (st : Nat) : (s.outEnds c x st).kv.outs = SMap.del s.kv.outs c := by
  have hclosed : (s.outClosed c).kv.outs = SMap.del s.kv.outs c :=
    (State.kvSync_tableWork _).outs.trans (congrArg (SMap.del · c) (Job.settled_tableWork s c _ _).outs)
  rw [State.outEnds_eq]
  split
  · exact hclosed
  · rw [State.kvComplete_kv, hclosed]
theorem State.outEnds_descr (s : State) (c : Nat) (hx : x.desc = some qi) (st : Nat) : (s.outEnds c x st).descr qi.1 qi.2 = none := by
  rw [State.outEnds_eq, hx]
  exact State.kvComplete_descr _ qi st _

/-! ### A swap-out goes on (R197) -/

theorem State.outNext_nil (hx : SMap.find s.kv.outs c = some x) (htodo : x.todo = []) (fuel : Nat) :
    State.outNext (fuel + 1) s c = s.outEnds c x x.st := by
  unfold State.outNext
  rw [hx]
  dsimp only
  rw [htodo]
theorem State.find_setOut (s : State) (c : Nat) (x : Swap) : SMap.find (s.setOut c (some x)).kv.outs c = some x := SMap.find_put_same c x _
/-- With fuel for its pages, a swap-out is still under way, or its descriptor has completed. -/
theorem State.outNext_outs_or_descr : ∀ (fuel : Nat) {s : State} {x : Swap}, SMap.find s.kv.outs c = some x → x.desc = some qi → x.todo.length < fuel →
    (SMap.find (State.outNext fuel s c).kv.outs c).isSome = true ∨ (State.outNext fuel s c).descr qi.1 qi.2 = none
  | 0, _, _, _, _, hlt => absurd hlt (Nat.not_lt_zero _)
  | fuel + 1, s, x, hx, hdesc, hlt => by
    have hturn := State.outNext_turn hx fuel
    generalize State.outNext (fuel + 1) s c = u at hturn
    cases hturn with
    | ends st ht => exact .inr (State.outEnds_descr _ c hdesc st)
    | waits n ht => exact .inl (by rw [State.find_setOut]; rfl)
    | writes n addr bs ht =>
      refine .inl ?_
      rw [hostWrite_keeps (φ := State.kv) (fun _ _ => rfl) (fun _ _ => rfl) (fun _ _ => rfl), State.find_setOut]
      rfl
    | stays htodo ht =>
      rw [htodo, List.length_cons] at hlt
      exact State.outNext_outs_or_descr fuel (State.find_setOut _ c _) hdesc (Nat.lt_of_succ_lt_succ hlt)

/-! ### A swap-out starts (R197) -/

/-- A swap-out that starts leaves its pages to `outNext`; a lost word ends it with a status. -/
theorem State.outStart_cases (s : State) (c : Nat) (desc : Option (Nat × Nat)) :
    (∃ t st, s.tableWork t ∧ s.outStart c desc = (t, some st)) ∨
      ∃ t todo, s.tableWork t ∧ s.outStart c desc = (State.outNext (todo.length + 1) (t.setOut c (some ⟨desc, todo, 0, [], none, [], stOK⟩)) c, none) := by
  unfold State.outStart
  dsimp only
  generalize hl : (List.foldl _ (_, []) _ : Job × List (Nat × Nat)) = l
  have hpages : s.tableWork l.1.st := by
    rw [← hl]
    refine .trans ?_ (foldl_tableWork (π := fun a : Job × List (Nat × Nat) => a.1.st) (fun a e => ?_) _ _)
    · exact (Job.mk s none).entry_tableWork c
    split
    · exact a.1.pte_tableWork c _ e
    · exact (a.1.pte_tableWork c _ e).trans (Job.pageWord_tableWork _ _)
  generalize hf : Job.finish _ s = f
  have hfin : s.tableWork f.1 := hf ▸ Job.finish_tableWork (hpages.trans (Job.putEntry_tableWork _ c _))
  obtain ⟨t, st⟩ := f
  cases st with
  | some st => exact .inl ⟨t, st, hfin, rfl⟩
  | none => exact .inr ⟨t, l.2, hfin, rfl⟩
theorem State.outStart_swapWork (s : State) (c : Nat) (desc : Option (Nat × Nat)) : s.swapWork (s.outStart c desc).1 := by
  rcases s.outStart_cases c desc with ⟨t, st, ht, h⟩ | ⟨t, todo, ht, h⟩
  · rw [h]
    exact ht.swapWork
  · rw [h]
    exact (ht.swapWork.trans (State.setOut_swapWork _ c _)).trans (State.outNext_swapWork _ _ c)
/-- A swap-out that has started for a descriptor is under way, or the descriptor has completed. -/
theorem State.outStart_outs_or_descr {u : State} (h : s.outStart c (some qi) = (u, none)) :
    (SMap.find u.kv.outs c).isSome = true ∨ u.descr qi.1 qi.2 = none := by
  rcases s.outStart_cases c (some qi) with ⟨t, st, ht, h'⟩ | ⟨t, todo, ht, h'⟩
  · rw [h] at h'
    cases h'
  · rw [h, Prod.mk.injEq] at h'
    rw [h'.1]
    exact State.outNext_outs_or_descr _ (State.find_setOut t c _) rfl (Nat.lt_succ_self _)

/-! ### Preemption (R196) -/

theorem State.eligible_tableWork (s : State) (named : List Nat) : s.tableWork (s.eligible named).1 := by
  refine foldl_tableWork (π := fun a : State × List (Nat × Nat × Nat × Nat) => a.1) (fun a c => ?_) s.kv.ctxs (s, [])
  split
  · exact (State.kvRead_tableWork_of ‹_›).trans (State.entryLost_tableWork _ c)
  · split <;> exact State.kvRead_tableWork_of ‹_›
theorem State.preempt_swapWork (s : State) (short : Nat) (named : List Nat) : s.swapWork (s.preempt short named) := by
  have hfull := (s.event_tableWork (f := F.KVM_STAT_NO_KV) (by decide) (by decide) rfl (by decide) 0).swapWork
  unfold State.preempt
  dsimp only
  split
  · exact hfull
  · refine .trans ?_ (foldl_swapWork (π := fun a : State × Nat => a.1) (fun a v => ?_) _ _)
    · exact hfull.trans (State.eligible_tableWork _ named).swapWork
    have hvictim := a.1.outStart_swapWork v.2.2.1 none
    split
    · exact a.1.swapWork_refl
    · split
      · exact hvictim
      · exact (hvictim.trans (State.faddPreempts_swapWork _)).trans
          (State.event_tableWork _ (f := F.KVM_STAT_PREEMPT) (by decide) (by decide) rfl (by decide) 0).swapWork

/-! ### The end of a swap-in (R199) -/

/-- A swap-in of context `c` has ended with a status but for the completions. -/
def State.inClosed (s : State) (c st : Nat) : State :=
  let r := (Job.mk s none).entry c
  ((if r.1.err.isNone && eState r.2 = cSWAPIN then ((r.1.setState c (if st = stOK then cOPEN else cFAILED)).finish s).1 else (r.1.finish s).1).setIn c
    none).kvSync
/-- The descriptors that wait for a context without a page. -/
def State.inWaiting (s : State) (c : Nat) : List (Nat × Nat) := s.kv.short.filter (fun qi => ((s.descr qi.1 qi.2).map (·.ctx)) == some c)
theorem State.inEnds_eq (s : State) (c : Nat) (x : Swap) (st : Nat) : s.inEnds c x st =
    (x.desc.toList ++ (s.inClosed c st).inWaiting c).foldl (fun a qi => a.kvComplete qi st ((s.inClosed c st).swapResult c x.moved))
      { s.inClosed c st with kv := { (s.inClosed c st).kv with
          short := (s.inClosed c st).kv.short.filter (fun qi => !((s.inClosed c st).inWaiting c).contains qi) } } := rfl
theorem State.inClosed_swapWork (s : State) (c st : Nat) : s.swapWork (s.inClosed c st) :=
  ((Job.settled_tableWork s c _ _).swapWork.trans (State.setIn_swapWork _ c none)).trans (State.kvSync_tableWork _).swapWork
theorem State.inEnds_swapWork (s : State) (c : Nat) (x : Swap) (st : Nat) : s.swapWork (s.inEnds c x st) := by
  rw [State.inEnds_eq]
  refine .trans ?_ (State.swapWork_foldl (fun a qi => a.kvComplete_swapWork qi st _) _ _)
  exact (s.inClosed_swapWork c st).trans (State.swapWork_of rfl rfl rfl)
/-- A swap-in that has ended is under way no more, and its descriptor is gone. -/
theorem State.inEnds_ins (s : State) (c : Nat) (x : Swap) (st : Nat) : (s.inEnds c x st).kv.ins = SMap.del s.kv.ins c := by
  rw [State.inEnds_eq, foldl_keeps State.kv _ _ _ fun a qi => a.kvComplete_kv qi st _]
  exact (State.kvSync_tableWork _).ins.trans (congrArg (SMap.del · c) (Job.settled_tableWork s c _ _).ins)
theorem State.inEnds_descr (s : State) (c : Nat) (hx : x.desc = some qi) (st : Nat) : (s.inEnds c x st).descr qi.1 qi.2 = none := by
  rw [State.inEnds_eq, hx, Option.toList_some, List.cons_append, List.foldl_cons]
  exact (State.swapWork_foldl (fun a qi => a.kvComplete_swapWork qi st _) _ _).gone _ _ (State.kvComplete_descr _ qi st _)

/-! ### A swap-in starts (R199) -/

theorem Job.kvPage_tableWork (j : Job) (e lh st : Nat) : j.st.tableWork (j.kvPage e lh st).1.st :=
  (Job.map_tableWork (j.st.placeOf_tableWork _)).trans (Job.pop_tableWork _ _ _)
/-- A swap-in starts, ended at once when it has no page to move; or the pool is short, or a word is lost. -/
theorem State.inStart_cases (s : State) (c : Nat) (desc : Option (Nat × Nat)) (named : List Nat) :
    (∃ t st, s.tableWork t ∧ s.inStart c desc named = (t, false, some st)) ∨
    (∃ t n, s.tableWork t ∧ s.inStart c desc named = (t.preempt n named, false, none)) ∨
    ∃ t x, s.tableWork t ∧ x.desc = desc ∧
      (s.inStart c desc named = (t.inEnds c x stOK, true, none) ∨ s.inStart c desc named = (t.setIn c (some x), true, none)) := by
  unfold State.inStart
  dsimp only
  generalize hl : (List.foldl _ (_, []) (List.range _) : Job × List (Nat × Nat)) = l
  have hpages : s.tableWork l.1.st := by
    rw [← hl]
    refine .trans ?_ (foldl_tableWork (π := fun a : Job × List (Nat × Nat) => a.1.st) (fun a e => a.1.pte_tableWork c _ e) _ _)
    exact (Job.mk s none).entry_tableWork c
  generalize hf : Job.finish l.1 s = f
  have hfin : s.tableWork f.1 := hf ▸ Job.finish_tableWork hpages
  obtain ⟨t, st⟩ := f
  cases st with
  | some st => exact .inl ⟨t, st, hfin, rfl⟩
  | none =>
    generalize hp : (List.foldl _ (l.1, []) l.2 : Job × List Nat) = p
    have hplaced : s.tableWork p.1.st := by
      rw [← hp]
      refine .trans ?_ (foldl_tableWork (π := fun a : Job × List Nat => a.1.st) (fun a e => ?_) _ _)
      · exact hpages
      · exact a.1.kvPage_tableWork e.1 _ _
    generalize hg : Job.finish _ s = g
    have hend : s.tableWork g.1 := hg ▸ Job.finish_tableWork (hplaced.trans (Job.putEntry_tableWork _ c _))
    obtain ⟨v, st⟩ := g
    dsimp only [Option.isSome_none]
    rw [if_neg Bool.false_ne_true]
    split
    · exact .inr (.inl ⟨t, _, hfin, rfl⟩)
    · cases st with
      | some st => exact .inl ⟨v, st, hend, rfl⟩
      | none =>
        refine .inr (.inr ⟨v, ⟨desc, l.2, 0, p.2, none, [], stOK⟩, hend, rfl, ?_⟩)
        dsimp only [Option.isSome_none]
        rw [if_neg Bool.false_ne_true]
        split
        · exact .inl rfl
        · exact .inr rfl
theorem State.inStart_swapWork (s : State) (c : Nat) (desc : Option (Nat × Nat)) (named : List Nat) : s.swapWork (s.inStart c desc named).1 := by
  rcases s.inStart_cases c desc named with ⟨t, st, ht, h⟩ | ⟨t, n, ht, h⟩ | ⟨t, x, ht, -, h | h⟩
  · rw [h]
    exact ht.swapWork
  · rw [h]
    exact ht.swapWork.trans (State.preempt_swapWork _ _ _)
  · rw [h]
    exact ht.swapWork.trans (State.inEnds_swapWork _ _ _ _)
  · rw [h]
    exact ht.swapWork.trans (t.setIn_swapWork c (some x))
/-- A swap-in that has started for a descriptor is under way, or the descriptor has completed. -/
theorem State.inStart_ins_or_descr {u : State} {named : List Nat} (h : s.inStart c (some qi) named = (u, true, none)) :
    (SMap.find u.kv.ins c).isSome = true ∨ u.descr qi.1 qi.2 = none := by
  rcases s.inStart_cases c (some qi) named with ⟨t, st, ht, h'⟩ | ⟨t, n, ht, h'⟩ | ⟨t, x, ht, hdesc, h' | h'⟩
  · rw [h] at h'
    cases h'
  · rw [h] at h'
    cases h'
  · rw [h, Prod.mk.injEq] at h'
    exact .inr (h'.1 ▸ State.inEnds_descr t c hdesc stOK)
  · rw [h, Prod.mk.injEq] at h'
    exact .inl (h'.1 ▸ congrArg Option.isSome (SMap.find_put_same c x t.kv.ins))

/-! ### A swap-in is given up (R199, R208) -/

/-- A swap-in that fails ends with SWAP_AUTH set. -/
theorem State.inFails_ends (s : State) (c : Nat) (x : Swap) :
    ∃ t, s.tableWork t ∧ t.flag F.KVM_STAT_SWAP_AUTH 0 = true ∧ s.inFails c x = t.inEnds c x stSWAP_AUTH := by
  unfold State.inFails
  dsimp only
  generalize hf : Job.finish _ s = f
  have hfin : s.tableWork f.1 := by
    rw [← hf]
    refine Job.finish_tableWork (.trans ?_ (foldl_tableWork Job.st (fun a p => a.refDown_tableWork p _) _ _))
    refine .trans ?_ (foldl_tableWork Job.st (fun a e => ?_) _ _)
    · exact (Job.mk s none).entry_tableWork c
    · exact ((a.pte_tableWork c _ e).trans (Job.setPte_tableWork _ c _ e 0)).trans (Job.refDown_tableWork _ _ _)
  exact ⟨f.1.event F.KVM_STAT_SWAP_AUTH 0, hfin.trans (State.event_tableWork _ (by decide) (by decide) rfl (by decide) 0),
    State.flag_event_same _ _ 0 (by decide) rfl (by decide), rfl⟩
/-- A swap-in whose word is lost ends with the status that it takes. -/
theorem State.inLost_ends (s : State) (c : Nat) (x : Swap) (conf : Bool) (st : Nat) : ∃ t, s.tableWork t ∧ s.inLost c x conf st = t.inEnds c x st :=
  ⟨_, State.tableWork_foldl (fun a p => Job.finish_tableWork (Job.refDown_tableWork (Job.mk a none) p (some conf))) x.placed s, rfl⟩

end

end Sys2Proof.Machine
end

section
/-! A command of the KV manager that starts, and the commands of page zeroing, swaps and PREFIX_PIN (R172, R177, R195, R197, R199). -/

namespace Sys2Proof.Machine

/-! ### A command that starts -/

section
variable {s : State} {q idx type : Nat} {d : Descr}

/-- A descriptor of the KV manager that may start is handed on, started. -/
theorem State.withKv_of_kvStarts (h : s.kvStarts q idx type d) {ok : Descr → Bool} (hok : ok d = true) (k : State → Descr → State) :
    s.withKv q idx type ok k = k (s.markStarted q d) (s.going d) := by
  obtain ⟨hdescr, rfl, hmay⟩ := h
  have hstart : s.mayStart q d = true := by
    simp only [State.kvMay, State.kvEligible, Bool.and_eq_true] at hmay
    exact hmay.1.1.1
  have htype : [d.type].contains d.type = true := by simp
  simp only [State.withKv, hdescr, hmay, hok, Bool.not_true, Bool.or_self, Bool.and_false, Bool.false_eq_true, if_false]
  exact State.withDescr_of_mayStart hdescr hstart htype k
/-- A command whose meaning comes to `a` by swaps and work on the tables is not held by an open gate. -/
theorem exec_of_settle {c : Instr} {k : State → State} {a : State} (hexec : exec c s = .next (s.settle c k)) (hopen : s.gateOpen)
    (hk : k (s.running c) = a) (hwork : (s.running c).swapWork a) : exec c s = .next { a with gate := s.gate } :=
  hexec.trans (congrArg Host.Outcome.next (State.settle_of_eq hopen c k hk (hwork.gate (State.running_calm hopen c))))
theorem State.markStarted_swapWork (h : s.descr q idx = some d) : s.swapWork (s.markStarted q d) where
  gate _ := rfl
  regs := State.sameRegs_of_regs _ rfl
  auth := id
  gone r i hr := by
    by_cases hq : r = q
    · subst hq
      rw [State.descr, Qp.find, List.find?_eq_none] at hr
      rw [State.descr, State.markStarted_qp, Qp.find, List.find?_eq_none]
      intro e he
      obtain ⟨e', he', rfl⟩ := List.mem_map.mp he
      split
      · rename_i hidx
        exact hidx ▸ hr e' he'
      · exact hr e' he'
    · exact (congrArg (Qp.find · i) ((State.qp_setQp_other _ _ hq).trans (State.qp_setQp_other s _ hq))).trans hr
/-- The entry of a job, once its words have read well. -/
theorem Job.entry_of_kvRead {s t : State} {c : Nat} {b : List Byte} (h : s.kvRead (s.seqDa c) 128 = (t, some b)) :
    (Job.mk s none).entry c = (⟨t, none⟩, b) := by
  simp only [Job.entry, Job.read, Option.isSome_none, Bool.false_eq_true, if_false, h]

end

/-! ### PAGE_ZERO_DONE (R177) -/

section
variable {s : State}

theorem State.daWrite_kv (s : State) (da : Nat) (bs : List Byte) : (s.daWrite da bs).1.kv = s.kv := daWrite_keeps (φ := State.kv) (fun _ _ => rfl)
  (fun _ _ => rfl) (fun _ _ => rfl) (fun _ _ => rfl) (fun _ _ => rfl) (fun _ _ => rfl) (fun _ _ => rfl) s da bs
theorem State.joinFree_kv (s : State) (p : Nat) :
    (s.joinFree p).kv = { s.kv with free := SMap.put s.kv.free (p / 2 ^ 17) (p :: s.freeList (p / 2 ^ 17)) } := by
  unfold State.joinFree
  dsimp only
  split <;> simp only [State.freeList, State.daWrite_kv, State.free_kv]
theorem State.kvSync_kv (s : State) : s.kvSync.kv = s.kv :=
  kvSync_keeps (φ := State.kv) (fun _ _ => rfl) (fun _ _ => rfl) (fun _ _ => rfl) (fun _ _ => rfl) s
/-- Page `p` waits no more to be zeroed. -/
def State.zeroEnds (s : State) (p : Nat) : State :=
  { s with kv := { s.kv with zeroing := s.kv.zeroing.filter (· ≠ p), confPages := s.kv.confPages.filter (· ≠ p) } }
theorem State.zeroEnds_tableWork (s : State) (p : Nat) : s.tableWork (s.zeroEnds p) := s.setKv_tableWork rfl rfl
/-- Page `p` has been zeroed. -/
def State.zeroDone (s : State) (p : Nat) : State := (((s.daWrite (2 ^ 15 * p) (zeros 32768)).1.zeroEnds p).joinFree p).kvSync
theorem State.zeroDone_tableWork (s : State) (p : Nat) : s.tableWork (s.zeroDone p) :=
  ((s.daWrite_tableWork _ _).trans (State.zeroEnds_tableWork _ p)).trans ((State.joinFree_tableWork _ p).trans (State.kvSync_tableWork _))
theorem State.zeroDone_kv (s : State) (p : Nat) : (s.zeroDone p).kv = { s.kv with
    free := SMap.put s.kv.free (p / 2 ^ 17) (p :: s.freeList (p / 2 ^ 17))
    zeroing := s.kv.zeroing.filter (· ≠ p), confPages := s.kv.confPages.filter (· ≠ p) } := by
  rw [State.zeroDone, State.kvSync_kv, State.joinFree_kv, State.freeList, State.zeroEnds, State.daWrite_kv]
  rfl
theorem exec_pageZeroDone {p : Nat} (hopen : s.gateOpen) (hp : s.kv.zeroing.contains p = true) (hruns : s.kvRuns = true) :
    ∃ u, exec (.pageZeroDone p) s = .next u ∧ u.freeList (p / 2 ^ 17) = p :: s.freeList (p / 2 ^ 17) ∧ p ∉ u.kv.zeroing ∧ p ∉ u.kv.confPages := by
  have hif : ((s.running (.pageZeroDone p)).kv.zeroing.contains p && (s.running (.pageZeroDone p)).kvRuns) = true := Bool.and_eq_true_iff.mpr ⟨hp, hruns⟩
  refine ⟨_, exec_of_settle (a := (s.running (.pageZeroDone p)).zeroDone p) rfl hopen (if_pos hif) (State.zeroDone_tableWork _ p).swapWork, ?_⟩
  dsimp only [State.freeList]
  rw [State.zeroDone_kv]
  exact ⟨SMap.get_put_same _ _ _ _, by simp, by simp⟩

/-! ### KV_SWAP_OUT and KV_SWAP_IN start (R197, R199) -/

variable {qp idx : Nat} {d : Descr} {s2 s3 : State} {b : List Byte}

theorem State.swapEntry_tableWork (s : State) (q : Nat) (d : Descr) : s.tableWork (s.swapEntry q d).1 := by
  unfold State.swapEntry
  split
  · exact s.tableWork_refl
  dsimp only
  split
  · exact s.tableWork_refl
  split
  · exact (State.kvRead_tableWork_of ‹_›).trans (State.entryLost_tableWork _ _)
  · have hread := State.kvRead_tableWork_of ‹_›
    split
    · exact hread
    split
    · exact hread
    split <;> exact hread
theorem State.swapWork.of_fst {α : Type} {s u : State} {x : State × α} {a : α} (h : s.swapWork x.1) (hx : x = (u, a)) : s.swapWork u := by
  rwa [hx] at h
theorem exec_kvSwapOut (hopen : s.gateOpen) (hstart : s.kvStarts qp idx 0x13 d)
    (hentry : ((s.running (.kvSwapOut qp idx)).markStarted qp d).swapEntry qp (s.going d) = (s2, .ok b)) (hstate : eState b = cOPEN)
    (hswaps : eSwaps b ≠ 65535) (hout : s2.outStart d.ctx (some (qp, idx)) = (s3, none)) :
    exec (.kvSwapOut qp idx) s = .next { s3.kvSync with gate := s.gate } ∧
      ((SMap.find s3.kvSync.kv.outs d.ctx).isSome = true ∨ s3.kvSync.descr qp idx = none) := by
  have hmark : (s.running (.kvSwapOut qp idx)).swapWork _ := State.markStarted_swapWork hstart.1
  have hwork := (hmark.trans ((State.swapEntry_tableWork _ qp (s.going d)).swapWork.of_fst hentry)).trans ((s2.outStart_swapWork _ _).of_fst hout)
  have hsync := s3.kvSync_tableWork
  refine ⟨exec_of_settle rfl hopen ?_ (hwork.trans hsync.swapWork), ?_⟩
  · refine (State.withKv_of_kvStarts (s := s.running (.kvSwapOut qp idx)) hstart rfl _).trans ?_
    have hgo : (s.running (.kvSwapOut qp idx)).going d = s.going d := rfl
    have hctx : (s.going d).ctx = d.ctx := rfl
    simp only [hgo, hctx, hentry, hstate, hswaps, hout, ne_eq, not_true_eq_false, decide_false, Bool.or_self, Bool.false_eq_true, if_false]
  · rw [hsync.outs]
    exact (State.outStart_outs_or_descr hout).imp id (hsync.swapWork.gone qp idx)
theorem exec_kvSwapIn (hopen : s.gateOpen) (hstart : s.kvStarts qp idx 0x14 d) (hshort : s.kv.short.contains (qp, idx) = false)
    (hentry : ((s.running (.kvSwapIn qp idx)).markStarted qp d).swapEntry qp (s.going d) = (s2, .ok b)) (hstate : eState b = cSWAPPED)
    (hin : s2.inStart d.ctx (some (qp, idx)) [] = (s3, true, none)) :
    exec (.kvSwapIn qp idx) s = .next { s3.kvSync with gate := s.gate } ∧
      ((SMap.find s3.kvSync.kv.ins d.ctx).isSome = true ∨ s3.kvSync.descr qp idx = none) := by
  have hmark : (s.running (.kvSwapIn qp idx)).swapWork _ := State.markStarted_swapWork hstart.1
  have hwork := (hmark.trans ((State.swapEntry_tableWork _ qp (s.going d)).swapWork.of_fst hentry)).trans ((s2.inStart_swapWork _ _ _).of_fst hin)
  have hsync := s3.kvSync_tableWork
  refine ⟨exec_of_settle rfl hopen ?_ (hwork.trans hsync.swapWork), ?_⟩
  · refine (if_neg (show ¬ (s.running (.kvSwapIn qp idx)).kv.short.contains (qp, idx) = true from Bool.eq_false_iff.mp hshort)).trans
      ((State.withKv_of_kvStarts (s := s.running (.kvSwapIn qp idx)) hstart rfl _).trans ?_)
    have hgo : (s.running (.kvSwapIn qp idx)).going d = s.going d := rfl
    have hctx : (s.going d).ctx = d.ctx := rfl
    simp only [hgo, hctx, hentry, hstate, hin, ne_eq, not_true_eq_false, if_false, if_true]
  · rw [hsync.ins]
    exact (State.inStart_ins_or_descr hin).imp id (hsync.swapWork.gone qp idx)

end

end Sys2Proof.Machine
end

section
/-! A page of a swap has moved (R197, R199, R208), and PREFIX_PIN (R195). -/

namespace Sys2Proof.Machine

section
variable {s : State} {c : Nat} {x : Swap}

/-- A command whose meaning works on the tables and swaps is not held by an open gate, and what it comes to holds. -/
theorem exec_settles {i : Instr} {k : State → State} {Q : State → Prop} (hexec : exec i s = .next (s.settle i k)) (hopen : s.gateOpen)
    (h : ∃ a, k (s.running i) = a ∧ (s.running i).swapWork a ∧ Q a) : ∃ a : State, exec i s = .next { a with gate := s.gate } ∧ Q a := by
  obtain ⟨a, hk, hwork, ha⟩ := h
  exact ⟨a, exec_of_settle hexec hopen hk hwork, ha⟩
/-- A command of the KV manager that completes its descriptor after work on the tables and swaps. -/
theorem exec_completes {i : Instr} {k : State → State} {a : State} {q st : Nat} {d : Descr} {res : List Byte}
    (hexec : exec i s = .next (s.settle i k)) (hopen : s.gateOpen) (hst : st ≠ stCONF_DENIED)
    (hk : k (s.running i) = a.complete q (s.going d) st res) (hwork : (s.running i).swapWork a) (hunder : s.underway a q d) :
    ∃ u, exec i s = .next u ∧ s.completed u q d st 0 res :=
  ⟨_, exec_of_settle hexec hopen hk (hwork.trans (a.complete_swapWork _ _ _ _)), State.completed_of_same (hunder.completed hst res) rfl rfl⟩
theorem State.entry_tableWork (s : State) (c : Nat) : s.tableWork ((Job.mk s none).entry c).1.st := (Job.mk s none).entry_tableWork c

/-! ### SWAP_PAGE_WRITE_DONE (R197, R208) -/

/-- The swap-out of context `c`, asked by `desc`, is over. -/
def State.outOver (c : Nat) (desc : Option (Nat × Nat)) (a : State) : Prop :=
  ∃ t x st, (State.outEnds t c x st).tableWork a ∧ SMap.sortedFrom none t.kv.outs = true ∧ x.desc = desc
theorem State.outOver.outs {desc : Option (Nat × Nat)} {a : State} (h : State.outOver c desc a) : SMap.find a.kv.outs c = none := by
  obtain ⟨t, x, st, ha, hsort, -⟩ := h
  rw [ha.outs, State.outEnds_outs]
  exact SMap.find_del_same c _ hsort
theorem State.outOver.descr {qi : Nat × Nat} {a : State} (h : State.outOver c (some qi) a) : a.descr qi.1 qi.2 = none := by
  obtain ⟨t, x, st, ha, -, hdesc⟩ := h
  exact ha.swapWork.gone _ _ (State.outEnds_descr t c hdesc st)

/-- The last page of a swap-out has been written: whatever is lost on the way, the swap-out ends. -/
theorem exec_swapPageWriteDone {n e p : Nat} (hopen : s.gateOpen) (hheld : s.kv.held = false) (hhost : s.hostOpen = true) (hruns : s.kvRuns = true)
    (hx : SMap.find s.kv.outs c = some x) (hslot : x.slot = some n) (htodo : x.todo = [(e, p)]) (hsort : SMap.sortedFrom none s.kv.outs = true) :
    ∃ a : State, exec (.swapPageWriteDone c) s = .next { a with gate := s.gate } ∧ State.outOver c x.desc a := by
  have hgo : ¬ ((s.running (.swapPageWriteDone c)).kv.held || !(s.running (.swapPageWriteDone c)).hostOpen ||
      !(s.running (.swapPageWriteDone c)).kvRuns) = true := by
    rw [show (s.running (.swapPageWriteDone c)).kv.held = false from hheld, show (s.running (.swapPageWriteDone c)).hostOpen = true from hhost,
      show (s.running (.swapPageWriteDone c)).kvRuns = true from hruns]
    decide
  replace hx : SMap.find (s.running (.swapPageWriteDone c)).kv.outs c = some x := hx
  replace hsort : SMap.sortedFrom none (s.running (.swapPageWriteDone c)).kv.outs = true := hsort
  refine exec_settles rfl hopen ?_
  generalize s.running (.swapPageWriteDone c) = r at *
  dsimp only
  rw [if_neg hgo, hx]
  dsimp only
  rw [hslot, htodo]
  dsimp only
  generalize hf : Job.finish _ r = f
  have hfin : r.tableWork f.1 := by
    rw [← hf]
    exact Job.finish_tableWork (((r.entry_tableWork c).trans (Job.setPte_tableWork _ c _ _ _)).trans (Job.refDown_tableWork _ _ _))
  obtain ⟨t, st⟩ := f
  have houts : SMap.sortedFrom none t.kv.outs = true := hfin.outs ▸ hsort
  have hover : ∀ (v : State) (x' : Swap), r.tableWork v → SMap.sortedFrom none v.kv.outs = true → x'.todo = [] → x'.desc = x.desc →
      r.swapWork (State.outNext 1 (v.setOut c (some x')) c).kvSync ∧ State.outOver c x.desc (State.outNext 1 (v.setOut c (some x')) c).kvSync := by
    intro v x' hv hs htodo' hdesc
    rw [State.outNext_nil (v.find_setOut c x') htodo' 0]
    exact ⟨((hv.swapWork.trans (v.setOut_swapWork c (some x'))).trans (State.outEnds_swapWork _ c x' _)).trans (State.kvSync_tableWork _).swapWork,
      _, x', _, State.kvSync_tableWork _, SMap.sorted_put c _ _ hs, hdesc⟩
  cases st with
  | none => exact ⟨_, rfl, hover t _ hfin houts rfl rfl⟩
  | some st =>
    have hset := t.slotSet_tableWork n false
    have hsort' : SMap.sortedFrom none (t.slotSet n false).kv.outs = true := hset.outs ▸ houts
    dsimp only
    split
    · exact ⟨_, rfl, hover _ _ (hfin.trans hset) hsort' rfl rfl⟩
    · exact ⟨_, rfl, (hfin.trans hset).swapWork.trans (State.outEnds_swapWork _ c _ st), _, _, st, State.tableWork_refl _, hsort', rfl⟩

/-! ### SWAP_PAGE_READ_DONE (R199) -/

/-- What a slot's bytes opened as: `none` where the slot does not name its page, context and swap, or does not open under the key. -/
def slotOpened (c e : Nat) (b data key : List Byte) : Option (List Byte) :=
  if data.take 16 = slotHead c e (eGen b) (eSwaps b) (eD b) then
    gcmUnseal key (slotIv c e (eGen b) (eSwaps b)) ((data.drop 64).take (128 * eD b) ++ (data.drop 16).take 16) (slotHead c e (eGen b) (eSwaps b) (eD b))
  else none
/-- The state with the vectors of a page's slot written. -/
def State.pageFilled (s : State) (p d : Nat) (pt : List Byte) : State :=
  State.vectorsWrite 32 (State.vectorsWrite 32 s (2 ^ 15 * p) d (pt.take (64 * d))) (2 ^ 15 * p + 16384) d (pt.drop (64 * d))
theorem State.pageFilled_tableWork (s : State) (p d : Nat) (pt : List Byte) : s.tableWork (s.pageFilled p d pt) :=
  (State.vectorsWrite_tableWork 32 s _ d _).trans (State.vectorsWrite_tableWork 32 _ _ d _)

/-- The bytes of a slot are refused, which ends the swap-in, or move a page, which ends it when no page is left. -/
theorem exec_swapPageReadDone {e n p : Nat} {data b key : List Byte} {rest : List (Nat × Nat)} {ps : List Nat} {s2 s3 : State}
    (hopen : s.gateOpen) (hheld : s.kv.held = false) (hask : s.slotAsked c = true) (hruns : s.kvRuns = true)
    (hx : SMap.find s.kv.ins c = some x) (htodo : x.todo = (e, n) :: rest) (hplaced : x.placed = p :: ps)
    (hsort : SMap.sortedFrom none s.kv.ins = true)
    (hread : (s.running (.swapPageReadDone c data)).kvRead ((s.running (.swapPageReadDone c data)).seqDa c) 128 = (s2, some b))
    (hkey : s2.swapKey c (eGen b) = (s3, key)) :
    ∃ a : State, exec (.swapPageReadDone c data) s = .next { a with gate := s.gate } ∧
      (slotOpened c e b data key = none → SMap.find a.kv.ins c = none ∧ a.flag F.KVM_STAT_SWAP_AUTH 0 = true) ∧
      ∀ pt, slotOpened c e b data key = some pt → ∀ s5,
        ((Job.mk (s3.pageFilled p (eD b) pt) none).setPte c (eRoot b) e (p + 2 ^ 24)).finish (s3.pageFilled p (eD b) pt) = (s5, none) →
        (rest = [] → SMap.find a.kv.ins c = none) ∧
        (rest ≠ [] → SMap.find a.kv.ins c = some { x with todo := rest, placed := ps, moved := x.moved + 1, restored := x.restored ++ [e] }) := by
  have hgo : ¬ ((s.running (.swapPageReadDone c data)).kv.held || !(s.running (.swapPageReadDone c data)).slotAsked c ||
      !(s.running (.swapPageReadDone c data)).kvRuns) = true := by
    rw [show (s.running (.swapPageReadDone c data)).kv.held = false from hheld,
      show (s.running (.swapPageReadDone c data)).slotAsked c = true from hask,
      show (s.running (.swapPageReadDone c data)).kvRuns = true from hruns]
    decide
  replace hx : SMap.find (s.running (.swapPageReadDone c data)).kv.ins c = some x := hx
  replace hsort : SMap.sortedFrom none (s.running (.swapPageReadDone c data)).kv.ins = true := hsort
  refine exec_settles rfl hopen ?_
  generalize s.running (.swapPageReadDone c data) = r at *
  have hr3 : r.tableWork s3 := by
    have hswap := s2.swapKey_tableWork c (eGen b)
    rw [hkey] at hswap
    exact (State.kvRead_tableWork_of hread).trans hswap
  dsimp only
  rw [if_neg hgo, hx]
  dsimp only
  rw [htodo, hplaced]
  dsimp only
  rw [Job.entry_of_kvRead hread]
  dsimp only [Option.isSome_none]
  rw [if_neg Bool.false_ne_true, hkey]
  dsimp only
  rw [← slotOpened]
  cases slotOpened c e b data key with
  | none =>
    obtain ⟨t, ht, hauth, hends⟩ := s3.inFails_ends c x
    refine ⟨_, hends, (hr3.trans ht).swapWork.trans (t.inEnds_swapWork c x _), fun _ => ⟨?_, (t.inEnds_swapWork c x _).auth hauth⟩,
      fun _ h => (nomatch h)⟩
    rw [State.inEnds_ins, (hr3.trans ht).ins]
    exact SMap.find_del_same c _ hsort
  | some pt =>
    dsimp only
    have hfill := hr3.trans (s3.pageFilled_tableWork p (eD b) pt)
    generalize hf : Job.finish _ _ = f
    have hfin : r.tableWork f.1 := by
      rw [← hf]
      exact hfill.trans (Job.finish_tableWork (Job.setPte_tableWork ⟨_, none⟩ c _ e _))
    obtain ⟨t, st⟩ := f
    dsimp only
    cases st with
    | some st =>
      obtain ⟨v, hv, hends⟩ := t.inLost_ends c x (bitOf (eFlags b) 1) st
      refine ⟨_, hends, (hfin.trans hv).swapWork.trans (v.inEnds_swapWork c x _), fun h => (nomatch h), fun _ h s5 h5 => ?_⟩
      cases h
      exact absurd (hf.symm.trans h5) (by simp)
    | none =>
      have hset := hfin.trans (t.slotSet_tableWork n false)
      dsimp only
      split
      · rename_i hnil
        refine ⟨_, rfl, hset.swapWork.trans (State.inEnds_swapWork _ c _ _), fun h => (nomatch h), fun _ _ _ _ => ⟨fun _ => ?_, (absurd hnil ·)⟩⟩
        rw [State.inEnds_ins, hset.ins]
        exact SMap.find_del_same c _ hsort
      · rename_i hcons
        refine ⟨_, rfl, (hset.swapWork.trans (State.setIn_swapWork _ c (some _))).trans (State.kvSync_tableWork _).swapWork, fun h => (nomatch h),
          fun _ _ _ _ => ⟨(absurd · hcons), fun _ => ?_⟩⟩
        rw [(State.kvSync_tableWork _).ins]
        exact SMap.find_put_same c _ _

/-! ### PREFIX_PIN (R195) -/

theorem State.pinGo_tableWork : ∀ (fuel : Nat) (s : State) (key : List Byte) (h b ns shape : Nat) (pin : Bool) (toks : List Nat) (n : Nat),
    s.tableWork (State.pinGo fuel s key h b ns shape pin toks n).1
  | 0, s, _, _, _, _, _, _, _, _ => s.tableWork_refl
  | fuel + 1, s, key, h, b, ns, shape, pin, toks, n => by
    have hfind := s.findNode_tableWork (blockHash key h (toks.take 32)) ns b shape
    unfold State.pinGo
    dsimp only
    split
    · exact hfind
    split
    · exact hfind
    · exact ((hfind.trans (State.daWrite_tableWork _ _ _)).trans (State.dirUse_tableWork _ _)).trans (State.pinGo_tableWork fuel _ _ _ _ _ _ _ _ _)

theorem exec_prefixPin {qp idx : Nat} {d : Descr} {s2 : State} {bs : List Byte} (hopen : s.gateOpen) (hstart : s.kvStarts qp idx 0x15 d)
    (hhead : ((s.running (.prefixPin qp idx)).markStarted qp d).headVerdict qp (s.going d)
      (bodyZero (s.going d) [(16, 6), (24, 4), (32, 8)] && d.u 16 1 ≤ 1 && d.u 24 4 < 2 ^ 20) true = none)
    (hda : d.u 24 4 ≠ 0 → ((s.running (.prefixPin qp idx)).markStarted qp d).daVerdict ((s.qpFunc qp).getD 0) (d.u 32 8) (4 * d.u 24 4) = none)
    (hread : ((s.running (.prefixPin qp idx)).markStarted qp d).daRead (d.u 32 8) (4 * d.u 24 4) 4 = (s2, bs, none)) :
    ∃ u, exec (.prefixPin qp idx) s = .next u ∧ s.completed u qp d stOK 0 (leBytes 4
      (if (s2.nsKey (d.u 20 2) 0).1.flag F.PFX_CFG_EN 0 then
        (State.pinGo (d.u 24 4 / 32) (s2.nsKey (d.u 20 2) 0).1 (s2.nsKey (d.u 20 2) 0).2 0 0 (d.u 20 2) (d.u 17 3) (d.u 16 1 = 0)
          (words4 (d.u 24 4) bs) 0).2 else 0)) := by
  have hda' : (if d.u 24 4 = 0 then none else
      ((s.running (.prefixPin qp idx)).markStarted qp d).daVerdict ((s.qpFunc qp).getD 0) (d.u 32 8) (4 * d.u 24 4)) = none := by
    split
    · rfl
    · exact hda ‹_›
  have hwork := ((s.running (.prefixPin qp idx)).markStarted qp d).daRead_tableWork (d.u 32 8) (4 * d.u 24 4) 4
  rw [hread] at hwork
  replace hwork := hwork.trans (s2.nsKey_tableWork (d.u 20 2) 0)
  have hpin : ∀ key, (s2.nsKey (d.u 20 2) 0).1.tableWork (if (s2.nsKey (d.u 20 2) 0).1.flag F.PFX_CFG_EN 0 then
      State.pinGo (d.u 24 4 / 32) (s2.nsKey (d.u 20 2) 0).1 key 0 0 (d.u 20 2) (d.u 17 3) (d.u 16 1 = 0) (words4 (d.u 24 4) bs) 0
      else ((s2.nsKey (d.u 20 2) 0).1, 0)).1 := by
    intro key
    split
    · exact State.pinGo_tableWork _ _ key _ _ _ _ _ _ _
    · exact State.tableWork_refl _
  have hall := (hwork.trans (hpin (s2.nsKey (d.u 20 2) 0).2)).trans (State.kvSync_tableWork _)
  refine exec_completes rfl hopen (by decide) ?_ ((State.markStarted_swapWork (s := s.running (.prefixPin qp idx)) hstart.1).trans hall.swapWork)
    (hall.underway (State.running_markStarted_underway (.prefixPin qp idx) hstart.1))
  refine (State.withKv_of_kvStarts (s := s.running (.prefixPin qp idx)) hstart rfl _).trans ?_
  have hgo : (s.running (.prefixPin qp idx)).going d = s.going d := rfl
  have hu : ∀ i n, (s.going d).u i n = d.u i n := fun _ _ => rfl
  have hqf : ((s.running (.prefixPin qp idx)).markStarted qp d).qpFunc qp = s.qpFunc qp := rfl
  simp only [hgo, hu, hqf, hhead, hda', hread]
  congr 2
  split <;> rfl

end

end Sys2Proof.Machine
end

section
/-! Start and stop of the KV manager (R209). -/

namespace Sys2Proof.Machine

section
variable {s : State}

/-! ### RUN and STOP -/

theorem State.kvmRun_sameRegs (s : State) (v : Nat) : s.sameRegs (s.fput F.KVM_CTL_RUN 0 v) [.KVM_CTL] := s.fput_sameRegs (by decide) 0 v
theorem State.flag_kvmRun (s : State) (v : Nat) : (s.fput F.KVM_CTL_RUN 0 v).flag F.KVM_CTL_RUN 0 = (v % 2 == 1) := by
  rw [State.flag, s.fget_fput_same F.KVM_CTL_RUN 0 v (by decide) (by decide) (by decide)]
  rfl
theorem exec_kvmRun_good (hrun : s.flag F.KVM_CTL_RUN 0 = false) (hok : s.kvConfigOk = true) :
    ∃ u, exec .kvmRun s = .next u ∧ u.flag F.KVM_CTL_RUN 0 = true ∧ u.kv.inited = true ∧ u.kv.initing = (s.kv.initing || !s.kv.inited) ∧
      s.sameRegs u [.KVM_CTL] ∧ { u with regs := s.regs, kv := s.kv } = s := by
  have hexec : exec .kvmRun s = .next (if s.kv.inited then s.fput F.KVM_CTL_RUN 0 1 else
      { s.fput F.KVM_CTL_RUN 0 1 with kv := { s.kv with inited := true, initing := true } }) := by
    show execKvmRun s = _
    simp only [execKvmRun, hrun, hok, Bool.not_true, Bool.false_eq_true, if_false]
    rfl
  refine ⟨_, hexec, ?_⟩
  cases hinited : s.kv.inited with
  | true => exact ⟨s.flag_kvmRun 1, hinited, (Bool.or_false _).symm, s.kvmRun_sameRegs 1, rfl⟩
  | false => exact ⟨s.flag_kvmRun 1, rfl, (Bool.or_true _).symm, s.kvmRun_sameRegs 1, rfl⟩
theorem exec_kvmRun_bad (hrun : s.flag F.KVM_CTL_RUN 0 = false) (hbad : s.kvConfigOk = false) :
    ∃ u, exec .kvmRun s = .next u ∧ u.flag F.KVM_STAT_CFG_ERR 0 = true ∧ s.sameRegs u [.KVM_STAT] ∧ { u with regs := s.regs } = s := by
  have hexec : exec .kvmRun s = .next (s.event F.KVM_STAT_CFG_ERR 0) := by
    show execKvmRun s = _
    simp only [execKvmRun, hrun, hbad, Bool.not_false, Bool.false_eq_true, if_false, if_true]
  exact ⟨_, hexec, s.flag_event_same _ 0 (by decide) rfl (by decide), s.event_sameRegs (by decide) 0, rfl⟩
theorem exec_kvmStop (s : State) : ∃ u, exec .kvmStop s = .next u ∧ u.flag F.KVM_CTL_RUN 0 = false ∧ s.sameRegs u [.KVM_CTL] ∧
    { u with regs := s.regs } = s := ⟨_, rfl, s.flag_kvmRun 0, s.kvmRun_sameRegs 0, rfl⟩

/-! ### The free lists of the pools -/

/-- The free lists with page `p` at the head of its slice's. -/
def freeAdd (p : Nat) (f : SMap (List Nat)) : SMap (List Nat) := SMap.put f (p / 2 ^ 17) (p :: SMap.get f (p / 2 ^ 17) [])
theorem State.foldr_joinFree_kv (s : State) : ∀ l : List Nat, (l.foldr (fun p a => a.joinFree p) s).kv = { s.kv with free := l.foldr freeAdd s.kv.free }
  | [] => rfl
  | p :: l => by
    rw [List.foldr_cons, State.joinFree_kv, State.freeList, State.foldr_joinFree_kv s l]
    rfl
theorem State.foldr_joinFree_tableWork (s : State) : ∀ l : List Nat, s.tableWork (l.foldr (fun p a => a.joinFree p) s)
  | [] => s.tableWork_refl
  | p :: l => (State.foldr_joinFree_tableWork s l).trans (State.joinFree_tableWork _ p)
theorem get_foldr_freeAdd (f : SMap (List Nat)) {t u : Nat} : ∀ l : List Nat, (∀ p ∈ l, p / 2 ^ 17 = t) →
    SMap.get (l.foldr freeAdd f) u [] = if u = t then l ++ SMap.get f u [] else SMap.get f u []
  | [], _ => (ite_self _).symm
  | p :: l, hl => by
    have hrest := get_foldr_freeAdd f (u := u) l fun q hq => hl q (List.mem_cons_of_mem _ hq)
    rw [List.foldr_cons, freeAdd, hl p List.mem_cons_self]
    split at hrest
    · subst ‹u = t›
      rw [SMap.get_put_same, hrest, if_pos rfl, List.cons_append]
    · rw [SMap.get, SMap.find_put_other _ ‹_›, if_neg ‹_›, ← SMap.get, hrest]
theorem State.swapWork.poolOrder {u : State} (h : s.swapWork u) (t : Nat) : u.poolOrder t = s.poolOrder t := by
  rw [State.poolOrder, State.poolOrder, h.regs.fget F.KVM_POOL_OFF_OFF 0 (by decide) (by decide),
    h.regs.fget F.KVM_POOL_PAGES t (by decide) (by decide)]
/-- The pool pages of a slice, inside the slice's pages, are pages of the slice. -/
theorem State.slice_of_mem_poolOrder {t p : Nat} (h : s.fget F.KVM_POOL_OFF_OFF 0 + s.fget F.KVM_POOL_PAGES t ≤ 131072) (hp : p ∈ s.poolOrder t) :
    p / 2 ^ 17 = t := by
  simp only [State.poolOrder, List.mem_mergeSort, List.mem_map, List.mem_range] at hp
  omega
theorem State.buildList_tableWork (s : State) (t : Nat) : s.tableWork (s.buildList t) := s.foldr_joinFree_tableWork _
theorem State.buildList_kv (s : State) (t : Nat) : (s.buildList t).kv = { s.kv with free := (s.poolOrder t).foldr freeAdd s.kv.free } :=
  s.foldr_joinFree_kv _
/-- Building the free lists of slices changes only those, and puts every pool page of the slices on its list. -/
theorem State.buildLists_kv : ∀ (ts : List Nat) (s : State), ∃ f, (ts.foldl (fun a t => a.buildList t) s).kv = { s.kv with free := f }
  | [], s => ⟨s.kv.free, rfl⟩
  | t :: ts, s => by
    obtain ⟨f, hf⟩ := State.buildLists_kv ts (s.buildList t)
    exact ⟨f, by rw [List.foldl_cons, hf, State.buildList_kv]⟩
theorem State.buildLists_freeList : ∀ (ts : List Nat) (s : State), ts.Nodup →
    (∀ t ∈ ts, s.fget F.KVM_POOL_OFF_OFF 0 + s.fget F.KVM_POOL_PAGES t ≤ 131072) → ∀ t,
    (ts.foldl (fun a t => a.buildList t) s).freeList t = if t ∈ ts then s.poolOrder t ++ s.freeList t else s.freeList t
  | [], s, _, _, t => by simp
  | t' :: ts, s, hnodup, hfit, t => by
    have hwork := (s.buildList_tableWork t').swapWork
    have hfree : (s.buildList t').freeList t = if t = t' then s.poolOrder t' ++ s.freeList t else s.freeList t := by
      rw [State.freeList, State.buildList_kv]
      exact get_foldr_freeAdd _ _ fun p hp => State.slice_of_mem_poolOrder (hfit t' List.mem_cons_self) hp
    rw [List.nodup_cons] at hnodup
    rw [List.foldl_cons, State.buildLists_freeList ts _ hnodup.2 (fun v hv => ?_), hwork.poolOrder, hfree]
    · by_cases htt : t = t'
      · subst htt
        simp [hnodup.1]
      · simp [htt]
    · rw [hwork.regs.fget F.KVM_POOL_OFF_OFF 0 (by decide) (by decide), hwork.regs.fget F.KVM_POOL_PAGES v (by decide) (by decide)]
      exact hfit v (List.mem_cons_of_mem _ hv)

/-! ### The end of the first start -/

/-- KVM_CTXS counts the contexts at the end of an operation. -/
theorem State.kvSync_ctxs_nil (h : s.kv.ctxs = []) : s.kvSync.fget F.KVM_CTXS_OPEN 0 = 0 := by
  unfold State.kvSync
  rw [h, List.foldl_nil]
  dsimp only
  rw [State.fget_fput_same _ _ _ _ (by decide) (by decide) (by decide), h, List.length_nil, Nat.zero_mod]
/-- The end of the first start, the bitmap of swap slots being `n` bytes. -/
def State.kvStarted (s : State) (n : Nat) : State :=
  let s1 := (List.range s.ctxCount).foldl (fun a c => (a.daWrite (a.seqDa c) (zeros 8)).1) s
  let s2 : State := { s1 with kv := { Kv.empty with inited := true, order := s1.kv.order } }
  let s3 := (List.range 128).foldl (fun a t => a.buildList t) s2
  let s4 := (s3.daWrite (s3.slotDa 0) (zeros n)).1
  let s5 := (s4.daWrite (s4.nodeDa 0) (zeros (64 * 2 ^ s4.fget F.PFX_CFG_NODE_LOG2 0))).1
  (s5.fput F.KVM_CTL_READY 0 1).kvSync
theorem exec_kvmInitDone_eq (s : State) : exec .kvmInitDone s =
    .next (s.settle .kvmInitDone fun s => if !s.kv.initing then s else s.kvStarted (2 ^ 21)) := by
  show execKvmInitDone s = _
  unfold execKvmInitDone State.kvStarted
  rfl
/-- The first start goes through the tables to a state `t` in which the free lists stand, and ends with READY. -/
theorem State.kvStarted_built (s : State) (n : Nat)
    (hfit : ∀ t, t < 128 → s.fget F.KVM_POOL_OFF_OFF 0 + s.fget F.KVM_POOL_PAGES t ≤ 131072) :
    ∃ t : State, s.kvStarted n = (t.fput F.KVM_CTL_READY 0 1).kvSync ∧ s.swapWork t ∧ t.kv.inited = true ∧ t.kv.initing = false ∧ t.kv.ctxs = [] ∧
      ∀ i, i < 128 → t.freeList i = s.poolOrder i := by
  unfold State.kvStarted
  extract_lets s1 kv0 s2 s3 s4 s5
  refine ⟨s5, rfl, ?_⟩
  have h1 : s.tableWork s1 := State.tableWork_foldl (fun a _ => a.daWrite_tableWork _ _) _ s
  have h2 : s.swapWork s2 := h1.swapWork.trans (State.swapWork_of rfl rfl rfl)
  have hkv2 : s2.kv = { Kv.empty with inited := true, order := s1.kv.order } := rfl
  clear_value s2
  have h3 : s2.tableWork s3 := State.tableWork_foldl (fun a t => a.buildList_tableWork t) _ s2
  obtain ⟨f, hkv3⟩ : ∃ f, s3.kv = { s2.kv with free := f } := State.buildLists_kv _ s2
  have hfree := State.buildLists_freeList (List.range 128) s2 List.nodup_range (fun v hv => by
    rw [h2.regs.fget F.KVM_POOL_OFF_OFF 0 (by decide) (by decide), h2.regs.fget F.KVM_POOL_PAGES v (by decide) (by decide)]
    exact hfit v (List.mem_range.mp hv))
  have hfree3 : ∀ i, i < 128 → s3.freeList i = s.poolOrder i := by
    intro i hi
    rw [← h2.poolOrder, ← List.append_nil (s2.poolOrder i)]
    refine (hfree i).trans ((if_pos (List.mem_range.mpr hi)).trans ?_)
    rw [State.freeList, hkv2]
    rfl
  clear_value s3
  have h4 : s3.tableWork s4 := s3.daWrite_tableWork _ _
  have hkv4 : s4.kv = s3.kv := s3.daWrite_kv _ _
  clear_value s4
  have h5 : s4.tableWork s5 := s4.daWrite_tableWork _ _
  have hkv5 : s5.kv = { Kv.empty with inited := true, order := s1.kv.order, free := f } :=
    (s4.daWrite_kv _ _).trans (hkv4.trans (hkv3.trans (by rw [hkv2])))
  have hkv53 : s5.kv = s3.kv := (s4.daWrite_kv _ _).trans hkv4
  clear_value s5
  refine ⟨h2.trans (h3.trans (h4.trans h5)).swapWork, ?_, ?_, ?_, fun i hi => ?_⟩
  · rw [hkv5]
  · rw [hkv5]
    rfl
  · rw [hkv5]
    rfl
  · rw [State.freeList, hkv53]
    exact hfree3 i hi

theorem exec_kvmInitDone (hopen : s.gateOpen) (hinit : s.kv.initing = true)
    (hfit : ∀ t, t < 128 → s.fget F.KVM_POOL_OFF_OFF 0 + s.fget F.KVM_POOL_PAGES t ≤ 131072) :
    ∃ u, exec .kvmInitDone s = .next u ∧ u.flag F.KVM_CTL_READY 0 = true ∧ u.kv.inited = true ∧ u.kv.initing = false ∧ u.kv.ctxs = [] ∧
      (∀ t, t < 128 → u.freeList t = s.poolOrder t) ∧ u.fget F.KVM_CTXS_OPEN 0 = 0 := by
  obtain ⟨t, ht, hwork, hinited, hiniting, hctxs, hfree⟩ := (s.running .kvmInitDone).kvStarted_built (2 ^ 21) hfit
  have hk : (if !(s.running .kvmInitDone).kv.initing then s.running .kvmInitDone else (s.running .kvmInitDone).kvStarted (2 ^ 21)) =
      (t.fput F.KVM_CTL_READY 0 1).kvSync := by
    rw [ht, show (s.running .kvmInitDone).kv.initing = true from hinit]
    rfl
  have hcalm := State.running_calm hopen .kvmInitDone
  have hready : t.sameRegs (t.fput F.KVM_CTL_READY 0 1) [.KVM_CTL] := t.fput_sameRegs (by decide) 0 1
  have hsync := (t.fput F.KVM_CTL_READY 0 1).kvSync_tableWork
  have hgate := (hsync.gate ((hwork.calm hcalm).of_same rfl hready (by decide))).trans (hwork.gate hcalm)
  have hkv : (t.fput F.KVM_CTL_READY 0 1).kvSync.kv = t.kv := State.kvSync_kv _
  have hexec := exec_kvmInitDone_eq s
  rw [State.settle_of_eq hopen .kvmInitDone _ hk hgate] at hexec
  refine ⟨_, hexec, ?_, (congrArg Kv.inited hkv).trans hinited, (congrArg Kv.initing hkv).trans hiniting, (congrArg Kv.ctxs hkv).trans hctxs,
    fun i hi => (congrArg (fun k : Kv => SMap.get k.free i []) hkv).trans (hfree i hi), State.kvSync_ctxs_nil hctxs⟩
  refine (hsync.flag F.KVM_CTL_READY 0 (by decide) (by decide)).trans ?_
  rw [State.flag, State.fget_fput_same _ _ _ _ (by decide) (by decide) (by decide)]
  rfl

end

/-- Settles O27 (R174 to R177, R195, R197, R199, R209; the order of a free list, the first free slot and the placed pages are the model's
choices, log entries 14 and 48): every command's meaning is worked through the rules about the tables and swaps, one theorem for each. -/
theorem kvUpkeepResults : Obligations.KvUpkeepResults := by
  unfold Obligations.KvUpkeepResults
  refine ⟨fun s hopen => ⟨fun p hp hruns => exec_pageZeroDone hopen hp hruns,
    fun qp idx d s2 b s3 hstart hentry hstate hswaps hout => exec_kvSwapOut hopen hstart hentry hstate hswaps hout,
    fun qp idx d s2 b s3 hstart hshort hentry hstate hin => exec_kvSwapIn hopen hstart hshort hentry hstate hin,
    fun c x n e p hheld hhost hruns hx hslot htodo hsort => ?_,
    fun c data x e n rest p ps hheld hask hruns hx htodo hplaced hsort => ?_,
    fun qp idx d hstart => ?_⟩,
    fun s => ⟨exec_kvmRun_good, exec_kvmRun_bad, exec_kvmStop s, fun hinit hopen hfit => exec_kvmInitDone hopen hinit hfit⟩⟩
  · obtain ⟨a, hexec, hover⟩ := exec_swapPageWriteDone hopen hheld hhost hruns hx hslot htodo hsort
    exact ⟨_, hexec, hover.outs, fun qi hqi _ => (hqi ▸ hover).descr⟩
  · intro s1 s2 b hread
    refine ⟨fun hbad => ?_, fun hgood pt key s3 hkey hpt s4 s5 hs4 hpte => ?_⟩
    · obtain ⟨a, hexec, hno, -⟩ := exec_swapPageReadDone (key := (s2.swapKey c (eGen b)).2) hopen hheld hask hruns hx htodo hplaced hsort hread rfl
      exact ⟨_, hexec, hno (if_neg hbad)⟩
    · obtain ⟨a, hexec, -, hyes⟩ := exec_swapPageReadDone hopen hheld hask hruns hx htodo hplaced hsort hread hkey
      subst hs4
      exact ⟨_, hexec, hyes pt ((if_pos hgood).trans hpt) s5 hpte⟩
  · intro s1 p hhead hda s2 bs hread
    exact exec_prefixPin hopen hstart hhead hda hread

end Sys2Proof.Machine
end

section
/-! Completions after work on the tables (R253, R256), and SEQ_OPEN (R181, R192, R353). -/

namespace Sys2Proof.Machine

/-! ### What the writing of a record reads -/

/-- What the writing of a record of queue pair `q` reads is the same in `s` and `a`. -/
structure State.recordSame (s a : State) (q : Nat) : Prop where
  gen : (a.qp q).gen = (s.qp q).gen
  prod : (a.qp q).cqProd = (s.qp q).cqProd
  pcie : a.pcie = s.pcie
  regs : ∀ r, r ∈ recordRegs → ∀ i, a.rget r i = s.rget r i

section
variable {s a u : State} {q : Nat} {d : Descr}

theorem State.underway.recordSame (h : s.underway a q d) : s.recordSame a q := ⟨h.gen, h.prod, h.pcie, h.regs⟩
theorem State.tableWork.recordSame (h : s.tableWork a) (q : Nat) : s.recordSame a q where
  gen := by rw [State.qp, State.qp, h.cmd]
  prod := by rw [State.qp, State.qp, h.cmd]
  pcie := h.pcie
  regs r hr i := h.regs r i fun hm => (by decide : ∀ x ∈ recordRegs, x ∉ tableRegs) r hr hm
theorem State.recordSame.event (h : s.recordSame a q) {f : Field} (hf : f.reg ∉ recordRegs) (i : Nat) : s.recordSame (a.event f i) q :=
  ⟨h.gen, h.prod, h.pcie, fun r hr j =>
    (a.event_sameRegs (l := [f.reg]) List.mem_cons_self i r j (fun hm => hf (List.mem_singleton.mp hm ▸ hr))).trans (h.regs r hr j)⟩
/-- No record depends on the ring, so that the rules about descriptors under way apply to a state whose ring holds `d` alone. -/
theorem State.recordSame.underway (h : s.recordSame a q) (d : Descr) :
    s.underway (a.setQp q { a.qp q with ring := [s.going d] }) q d where
  descr := by
    rw [State.descr, State.qp_setQp_same]
    exact List.find?_cons_of_pos (by simp [State.going])
  gen := by rw [State.qp_setQp_same]; exact h.gen
  prod := by rw [State.qp_setQp_same]; exact h.prod
  pcie := h.pcie
  regs := h.regs
theorem State.recordSame.find_writeRecord (h : s.recordSame a q) (hopen : s.hostOpen = true) (hdead : s.descrDead q d.idx = false)
    (hmute : s.qpMute q = false) (hfails : s.hostFails (s.cqSlot q (s.qp q).cqProd) 32 = false) (status : Nat) (result : List Byte) {i : Nat} (hi : i < 32) :
    SMap.find (a.writeRecord q d.idx status d.type 0 d.tag result d.irq).host (s.cqSlot q (s.qp q).cqProd + i) =
      some ((s.cqRecord q (s.qp q).cqProd d.idx status d.type 0 d.tag result).getD i 0) := by
  have hu := h.underway d
  have hslot : a.cqSlot q (s.qp q).cqProd = s.cqSlot q (s.qp q).cqProd := hu.cqSlot _
  have hsize : a.cqSize q = s.cqSize q := hu.cqSize
  have hdead' : a.descrDead q d.idx = s.descrDead q d.idx := by rw [State.descrDead, State.descrDead, h.gen]
  have hrec := State.find_writeRecord (s := a) (q := q) (didx := d.idx) (hu.hostOpen.trans hopen) (hdead'.trans hdead) (hu.qpMute.trans hmute)
    (by rw [h.prod, hslot]; exact (hu.hostFails _ _).trans hfails) status d.type 0 d.tag result d.irq hi
  rw [h.prod, hslot, State.cqRecord, hsize] at hrec
  exact hrec
/-- The host memory after a completion, whatever its status. -/
theorem State.complete_host_any {st : Nat} (hrec : (d.quiet && decide (st = 0)) = false) (q : Nat) (res : List Byte) : (s.complete q d st res).host =
    ((if st = stCONF_DENIED then s.event F.SEC_STAT_CONF_DENY 0 else s).writeRecord q d.idx st d.type 0 d.tag res d.irq).host := by
  unfold State.complete State.completeKeep
  simp only [hrec, Bool.false_eq_true, if_false]
  rw [State.drainCheck_keeps (φ := State.host) (fun _ _ => rfl), State.headSync_keeps (φ := State.host) (fun _ _ => rfl)]
  rfl
/-- A descriptor that completes, with any status, in a state that agrees with `s` has completed since `s`. -/
theorem State.recordSame.completed (h : s.recordSame a q) (t : State) (st : Nat) (res : List Byte) :
    s.completed (a.complete q (t.going d) st res) q d st 0 res := by
  refine ⟨a.complete_descr q (t.going d) st res, fun hopen hdead hmute hfails hquiet i hi => ?_⟩
  have hq : ((t.going d).quiet && decide (st = 0)) = false := hquiet
  have hdeny : s.recordSame (if st = stCONF_DENIED then a.event F.SEC_STAT_CONF_DENY 0 else a) q := by
    split
    · exact h.event (by decide) 0
    · exact h
  rw [State.complete_host_any hq]
  exact hdeny.find_writeRecord hopen hdead hmute hfails st res hi

end

/-! ### Numbers in records -/

theorem leNat_leBytes : ∀ n v : Nat, leNat (leBytes n v) = v % 256 ^ n
  | 0, v => (Nat.mod_one v).symm
  | n + 1, v => by
    rw [leBytes, leNat, leNat_leBytes n, BitVec.toNat_ofNat, pow_succ' 256 n, Nat.mod_mul]
/-- The first number of a record. -/
theorem leAt_leBytes_append (n : Nat) {v : Nat} (h : v < 256 ^ n) (bs : List Byte) : leAt (leBytes n v ++ bs) 0 n = v := by
  rw [leAt, List.drop_zero, List.take_append_of_le_length (leBytes_length n v).ge, List.take_of_length_le (leBytes_length n v).le, leNat_leBytes,
    Nat.mod_eq_of_lt h]

/-! ### A new context's entry and table (R179, R181) -/

section
variable {s : State}

theorem Job.share_tableWork (j : Job) (c : Nat) (es : List (Nat × Nat)) : j.st.tableWork (j.share c es).1.st :=
  j.newTable_tableWork.trans (foldl_tableWork Job.st (fun a _ => (a.setPte_tableWork c _ _ _).trans (Job.refUp_tableWork _ _)) es _)
/-- A new context joins the contexts that are not FREE; its accumulator is cleared while metering runs. -/
def State.enrolled (s : State) (c : Nat) (toks : List Nat) : State :=
  let s1 := { s with kv := { s.kv with ctxs := s.kv.ctxs ++ [c], toks := SMap.put s.kv.toks c toks } }
  if s1.flag F.ENR_CTL_RUN 0 then (s1.daWrite (s1.kvBase .ENR_ACC_LO .ENR_ACC_HI 26 + 64 * c) (zeros 64)).1 else s1
theorem State.enrolled_tableWork (s : State) (c : Nat) (toks : List Nat) : s.tableWork (s.enrolled c toks) := by
  have hlist : s.tableWork { s with kv := { s.kv with ctxs := s.kv.ctxs ++ [c], toks := SMap.put s.kv.toks c toks } } := s.setKv_tableWork rfl rfl
  exact .ite _ (hlist.trans (State.daWrite_tableWork _ _ _)) hlist
theorem State.enrolled_ctxs (s : State) (c : Nat) (toks : List Nat) : (s.enrolled c toks).kv.ctxs = s.kv.ctxs ++ [c] := by
  unfold State.enrolled
  dsimp only
  split
  · exact congrArg Kv.ctxs (State.daWrite_kv _ _ _)
  · rfl
theorem Job.openEntry_eq (j : Job) (c : Nat) (d : Descr) (f len root parent chain : Nat) (toks : List Nat) :
    ∃ k : Job, j.st.tableWork k.st ∧ j.openEntry c d f len root parent chain toks = k.map (fun s => s.enrolled c toks) :=
  ⟨_, ((j.entry_tableWork c).trans (Job.map_tableWork (f := fun _ => _) (State.free_tableWork _ 64))).trans (Job.putEntry_tableWork _ c _), rfl⟩
theorem Job.openEntry_tableWork (j : Job) (c : Nat) (d : Descr) (f len root parent chain : Nat) (toks : List Nat) :
    j.st.tableWork (j.openEntry c d f len root parent chain toks).st := by
  obtain ⟨k, hk, heq⟩ := j.openEntry_eq c d f len root parent chain toks
  rw [heq]
  exact hk.trans (Job.map_tableWork (State.enrolled_tableWork _ c toks))
/-- A job that ends well has lost no word, and one that does not ends with a status. -/
theorem Job.finish_of_none {j : Job} {s t : State} (h : j.finish s = (t, none)) : j.err = none ∧ t = j.st := by
  unfold Job.finish at h
  split at h
  · cases h
    exact ⟨by assumption, rfl⟩
  all_goals cases h
theorem Job.finish_status {j : Job} {s t : State} {st : Nat} (h : j.finish s = (t, some st)) : st = stCTX_FAILED ∨ st = stKV_UE := by
  unfold Job.finish at h
  split at h
  · cases h
  · cases h
    exact .inl rfl
  · cases h
    exact .inl rfl
  · cases h
    exact .inr rfl
theorem Job.map_st_of_err {j : Job} {g : State → State} (h : (j.map g).err = none) : (j.map g).st = g j.st := by
  unfold Job.map at h ⊢
  split at h
  · rename_i hsome
    rw [h] at hsome
    cases hsome
  · rw [if_neg ‹_›]
theorem Job.openEntry_ctxs {j : Job} {c : Nat} {d : Descr} {f len root parent chain : Nat} {toks : List Nat} {t : State}
    (h : (j.openEntry c d f len root parent chain toks).finish s = (t, none)) : c ∈ t.kv.ctxs := by
  obtain ⟨k, -, heq⟩ := j.openEntry_eq c d f len root parent chain toks
  obtain ⟨herr, rfl⟩ := Job.finish_of_none h
  rw [heq] at herr ⊢
  rw [Job.map_st_of_err herr, State.enrolled_ctxs]
  exact List.mem_append_right _ List.mem_cons_self

/-! ### SEQ_OPEN (R181, R192, R353) -/

theorem State.matchGo_tableWork : ∀ (fuel : Nat) (s : State) (key : List Byte) (h b ns shape lh : Nat) (toks : List Nat)
    (out : List (Nat × List Byte × Nat × List Nat)), s.tableWork (State.matchGo fuel s key h b ns shape lh toks out).1
  | 0, s, _, _, _, _, _, _, _, _ => s.tableWork_refl
  | fuel + 1, s, key, h, b, ns, shape, lh, toks, out => by
    have hfind := s.findNode_tableWork (blockHash key h (toks.take 32)) ns b shape
    unfold State.matchGo
    dsimp only
    split
    · exact hfind
    split
    · exact hfind
    have hrow := fun nb => hfind.trans (State.rowPfns_tableWork _ nb lh)
    split
    · exact (hrow _).trans (State.daWrite_tableWork _ _ _)
    · exact (hrow _).trans (State.matchGo_tableWork fuel _ _ _ _ _ _ _ _ _)

/-- What an open of context `c` comes to: work on the tables, and, when it ends well, a context that is not FREE and a RESULT that names it. -/
def State.opens (s : State) (c : Nat) (v : State × Nat × List Byte) : Prop :=
  s.tableWork v.1 ∧ (v.2.1 = stOK → leAt v.2.2 0 4 = c ∧ c ∈ v.1.kv.ctxs)
theorem State.opens_failed {s t : State} {st : Nat} {res : List Byte} (c : Nat) (ht : s.tableWork t) (hst : st ≠ stOK) : s.opens c (t, st, res) :=
  ⟨ht, fun h => absurd h hst⟩
theorem Job.finish_status_ne {j : Job} {t : State} {st : Nat} (h : j.finish s = (t, some st)) : st ≠ stOK := by
  rcases Job.finish_status h with rfl | rfl <;> decide
section
variable {s t : State} {k : Job} {c : Nat} {d : Descr} {f len root parent chain : Nat} {toks : List Nat}

theorem State.opens_lost {st : Nat} (hk : s.tableWork k.st) (h : (k.openEntry c d f len root parent chain toks).finish s = (t, some st)) :
    s.opens c (t, st, []) := by
  have hwork := Job.finish_tableWork (hk.trans (k.openEntry_tableWork c d f len root parent chain toks))
  rw [h] at hwork
  exact State.opens_failed c hwork (Job.finish_status_ne h)
theorem State.opens_entered (hk : s.tableWork k.st) (hc : c < 2 ^ 32)
    (h : (k.openEntry c d f len root parent chain toks).finish s = (t, none)) (res : List Byte) : s.opens c (t, stOK, leBytes 4 c ++ res) := by
  have hwork := Job.finish_tableWork (hk.trans (k.openEntry_tableWork c d f len root parent chain toks))
  rw [h] at hwork
  exact ⟨hwork, fun _ => ⟨leAt_leBytes_append 4 hc res, Job.openEntry_ctxs h⟩⟩
theorem State.opens.of_tableWork {v : State × Nat × List Byte} (ht : s.tableWork t) (h : t.opens c v) : s.opens c v := ⟨ht.trans h.1, h.2⟩
/-- The session of a confidential context is noted. -/
theorem State.opens.noteSid {u : State} {st : Nat} {res : List Byte} (h : s.opens c (u, st, res)) (m : SMap Nat) :
    s.opens c ({ u with kv := { u.kv with sid := m } }, st, res) := ⟨h.1.trans (u.setKv_tableWork rfl rfl), h.2⟩

end

theorem State.openFork_opens (s : State) {c : Nat} (hc : c < 2 ^ 32) (p f : Nat) (d : Descr) : s.opens c (s.openFork c p f d) := by
  unfold State.openFork
  dsimp only
  generalize hl : (List.foldl _ (_, []) _ : Job × List (Nat × Nat)) = l
  have hptes : s.tableWork l.1.st := by
    rw [← hl]
    refine .trans ?_ (foldl_tableWork (π := fun a : Job × List (Nat × Nat) => a.1.st) (fun a e => a.1.pte_tableWork p _ e) _ _)
    exact (Job.mk s none).entry_tableWork p
  split
  · exact State.opens_failed c s.tableWork_refl (by decide)
  have hshare := hptes.trans (l.1.share_tableWork c l.2)
  split
  · exact State.opens_lost hshare (Prod.ext rfl ‹_›)
  · exact State.opens_entered hshare hc (Prod.ext rfl ‹_›) _
theorem State.openPrompt_opens (s : State) {c : Nat} (hc : c < 2 ^ 32) (f : Nat) (d : Descr) (toks : List Nat) :
    s.opens c (s.openPrompt c f d toks) := by
  unfold State.openPrompt
  dsimp only
  have hkey := s.nsKey_tableWork (d.u 26 2) (if bitOf (d.u 23 1) 1 then d.u 48 4 else 0)
  generalize (if bitOf (d.u 23 1) 1 then d.u 48 4 else 0) = sid at hkey ⊢
  generalize hm : (if s.flag F.PFX_CFG_EN 0 then _ else _ : State × List (Nat × List Byte × Nat × List Nat) × Bool) = m
  have hmatch : s.tableWork m.1 := by
    rw [← hm]
    split
    · exact hkey.trans (State.matchGo_tableWork _ _ _ _ _ _ _ _ _ _)
    · exact hkey
  have hcount := (hmatch.trans (State.fadd_tableWork _ (f := F.PFX_HIT_HIT) (by decide) (by decide) 0 m.2.1.length)).trans
    (State.fadd_tableWork _ (f := F.PFX_MISS_MISS) (by decide) (by decide) 0 (b2n m.2.2))
  generalize (m.1.fadd F.PFX_HIT_HIT 0 m.2.1.length).fadd F.PFX_MISS_MISS 0 (b2n m.2.2) = s1 at hcount ⊢
  split
  · exact State.opens_failed c hcount (by decide)
  have hshare := fun es => (Job.mk s1 none).share_tableWork c es
  generalize hn : (List.foldl _ _ m.2.1 : Job) = j
  have hused : s1.tableWork j.st := by
    rw [← hn]
    refine .trans ?_ (foldl_tableWork Job.st (fun a x => (a.write_tableWork _ _).trans (Job.map_tableWork (State.dirUse_tableWork _ _))) _ _)
    exact hshare _
  split
  · exact (State.opens_lost hused (Prod.ext rfl ‹_›)).of_tableWork hcount
  · have hopen := (State.opens_entered hused hc (Prod.ext rfl ‹_›) (leBytes 4 (32 * m.2.1.length))).of_tableWork hcount
    split
    · exact hopen
    · exact hopen.noteSid _

/-! ### Sealed prompts (R350, R353) -/

theorem State.unseal_tableWork (s : State) (h ct : List Byte) (len sid : Nat) : s.tableWork (s.unseal h ct len sid).1 := by
  unfold State.unseal
  split
  · exact s.tableWork_refl
  dsimp only
  rw [apply_ite Prod.fst]
  refine State.tableWork.ite _ s.tableWork_refl ?_
  split
  · exact s.tableWork_refl
  · exact State.tableWork_of rfl rfl rfl
theorem State.authFail_tableWork (s : State) : s.tableWork s.authFail :=
  (s.event_tableWork (f := F.SEC_STAT_SESS_FAIL) (by decide) (by decide) rfl (by decide) 0).trans (State.raise_tableWork _ _ _ _ _)
theorem State.openBlob_tableWork (s : State) (da len sid : Nat) : s.tableWork (s.openBlob da len sid).1 := by
  have hread := s.daRead_tableWork da (64 + len) 4
  unfold State.openBlob
  dsimp only
  split
  · exact hread
  have hopen := fun h ct => hread.trans (State.unseal_tableWork _ h ct len sid)
  split
  · exact (hopen _ _).trans (State.daWrite_tableWork _ _ _)
  · exact ((hopen _ _).trans (State.daWrite_tableWork _ _ _)).trans (State.authFail_tableWork _)
theorem State.openBlob_status {da len sid : Nat} {t : State} {e : Nat} (h : s.openBlob da len sid = (t, some e)) : e ≠ stOK := by
  unfold State.openBlob at h
  dsimp only at h
  split at h
  · cases h
    decide
  split at h
  · rw [Prod.mk.injEq, Option.map_eq_some_iff] at h
    obtain ⟨-, -, -, rfl⟩ := h
    decide
  · cases h
    decide

/-! ### The checks of SEQ_OPEN (R181, R182, R187) -/

theorem State.headVerdict_ne {q : Nat} {d : Descr} {body ctxZero : Bool} {e : Nat} (h : s.headVerdict q d body ctxZero = some e) : e ≠ stOK := by
  unfold State.headVerdict at h
  dsimp only at h
  split at h
  · cases h
    decide
  split at h
  · cases h
    decide
  split at h
  · cases h
    decide
  · cases h
theorem State.daVerdict_ne {f da n e : Nat} (h : s.daVerdict f da n = some e) : e ≠ stOK := by
  unfold State.daVerdict at h
  split at h
  · cases h
    decide
  split at h
  · cases h
    decide
  · cases h
theorem State.kvRead_kv (s : State) (da n : Nat) : (s.kvRead da n).1.kv = s.kv := kvRead_keeps (φ := State.kv) (fun _ _ => rfl)
  (fun _ _ => rfl) (fun _ _ => rfl) (fun _ _ => rfl) (fun _ _ => rfl) (fun _ _ => rfl) (fun _ _ => rfl) s da n
/-- The parent of a fork is refused, or stands as it was. -/
theorem State.forkVerdict_cases (s : State) (p f : Nat) (d : Descr) : ∃ t, s.tableWork t ∧
    ((∃ e, s.forkVerdict p f d = (t, some e) ∧ e ≠ stOK) ∨ s.forkVerdict p f d = (t, none) ∧ t.kv = s.kv) := by
  unfold State.forkVerdict
  split
  · exact ⟨s, s.tableWork_refl, .inl ⟨_, rfl, by decide⟩⟩
  split
  · exact ⟨_, (State.kvRead_tableWork_of ‹_›).trans (State.entryLost_tableWork _ p), .inl ⟨_, rfl, by decide⟩⟩
  rename_i t b hread
  refine ⟨t, State.kvRead_tableWork_of hread, ?_⟩
  split
  · exact .inl ⟨_, rfl, by decide⟩
  split
  · exact .inl ⟨_, rfl, by decide⟩
  split
  · exact .inl ⟨_, rfl, by decide⟩
  split
  · exact .inl ⟨_, rfl, by decide⟩
  · exact .inr ⟨rfl, by rw [← s.kvRead_kv (s.seqDa p) 128, hread]⟩
/-- The lowest FREE context is FREE, and is one of the module's contexts. -/
theorem State.lowestFree_spec {c : Nat} (h : s.lowestFree = some c) : c ∉ s.kv.ctxs ∧ c < s.ctxCount := by
  rw [State.lowestFree, Option.filter_eq_some_iff] at h
  obtain ⟨hfind, hlt⟩ := h
  have hfree := List.find?_some hfind
  simp only [Bool.and_eq_true, Bool.not_eq_true', List.contains_eq_mem, decide_eq_false_iff_not] at hfree
  exact ⟨hfree.1, of_decide_eq_true hlt⟩
theorem State.ctxCount_lt (s : State) : s.ctxCount < 2 ^ 32 := by
  rw [State.ctxCount, State.fget, if_neg (by decide)]
  exact Nat.pow_lt_pow_right (by decide) (bits_lt _ 12 8)
/-- A SEQ_OPEN has come to `v`: when the status is OK, RESULT names a context that was FREE. -/
def State.opened (s : State) (v : State × Nat × List Byte) : Prop :=
  s.tableWork v.1 ∧ (v.2.1 = stOK → leAt v.2.2 0 4 ∈ v.1.kv.ctxs ∧ leAt v.2.2 0 4 ∉ s.kv.ctxs ∧ leAt v.2.2 0 4 < s.ctxCount)
theorem State.opened_failed {t : State} {st : Nat} {res : List Byte} (ht : s.tableWork t) (hst : st ≠ stOK) : s.opened (t, st, res) :=
  ⟨ht, fun h => absurd h hst⟩
theorem State.opens.opened {t u : State} {c : Nat} {v : State × Nat × List Byte} (ht : s.tableWork t) (hkv : t.kv = s.kv)
    (hc : t.lowestFree = some c) (hu : t.tableWork u) (h : u.opens c v) : s.opened v := by
  obtain ⟨hfree, hlt⟩ := State.lowestFree_spec hc
  refine ⟨ht.trans (hu.trans h.1), fun hok => ?_⟩
  obtain ⟨hname, hmem⟩ := h.2 hok
  rw [hname]
  exact ⟨hmem, hkv ▸ hfree, ht.ctxCount ▸ hlt⟩
theorem State.seqOpen_opened (s : State) (q : Nat) (d : Descr) : s.opened (s.seqOpen q d) := by
  unfold State.seqOpen
  extract_lets f conf parent fork p body v n o w
  clear_value f conf parent p body n
  split
  · exact State.opened_failed s.tableWork_refl (State.headVerdict_ne ‹_›)
  split
  · exact State.opened_failed s.tableWork_refl (by decide)
  split
  · exact State.opened_failed s.tableWork_refl (by decide)
  obtain ⟨t, ht, hcases⟩ : ∃ t, s.tableWork t ∧ ((∃ e, v = (t, some e) ∧ e ≠ stOK) ∨ v = (t, none) ∧ t.kv = s.kv) := by
    dsimp only [v]
    split
    · exact s.forkVerdict_cases parent f d
    · exact ⟨s, s.tableWork_refl, .inr ⟨rfl, rfl⟩⟩
  have hblob : v.1.tableWork o.1 ∧ ∀ e, o.2 = some e → e ≠ stOK := by
    dsimp only [o]
    split
    · exact ⟨v.1.openBlob_tableWork _ _ _, fun e he => State.openBlob_status (Prod.ext rfl he)⟩
    · exact ⟨v.1.tableWork_refl, fun e he => nomatch he⟩
  have hread : v.1.tableWork w.1 := hblob.1.trans (o.1.daRead_tableWork _ _ 4)
  clear_value v w o
  rcases hcases with ⟨e, rfl, he⟩ | ⟨rfl, hkv⟩
  · exact State.opened_failed ht he
  dsimp only
  split
  · rename_i e hda
    refine State.opened_failed ht ?_
    split at hda
    · cases hda
    · exact State.daVerdict_ne hda
  split
  · exact State.opened_failed ht (by decide)
  rename_i c hc
  have hc32 : c < 2 ^ 32 := Nat.lt_trans (State.lowestFree_spec hc).2 t.ctxCount_lt
  split
  · have hfork := t.openFork_opens hc32 parent f d
    refine State.opens.opened ht hkv hc t.tableWork_refl ?_
    extract_lets
    split
    · exact State.opens.noteSid hfork _
    · exact hfork
  split
  · exact State.opened_failed (ht.trans hblob.1) (hblob.2 _ ‹_›)
  split
  · exact State.opened_failed (ht.trans hread) (by decide)
  · exact State.opens.opened ht hkv hc hread (State.openPrompt_opens _ hc32 f d _)

/-- SEQ_OPEN completes with the status and RESULT of its open. -/
theorem exec_seqOpen {qp idx : Nat} {d : Descr} (hopen : s.gateOpen) (hstart : s.kvStarts qp idx 0x10 d) :
    let r := ((s.running (.seqOpen qp idx)).markStarted qp d).seqOpen qp (s.going d)
    ∃ u, exec (.seqOpen qp idx) s = .next u ∧ s.completed u qp d r.2.1 0 r.2.2 ∧
      (r.2.1 = stOK → leAt r.2.2 0 4 ∈ u.kv.ctxs ∧ leAt r.2.2 0 4 ∉ s.kv.ctxs ∧ leAt r.2.2 0 4 < s.ctxCount) := by
  intro r
  obtain ⟨hwork, hnames⟩ := ((s.running (.seqOpen qp idx)).markStarted qp d).seqOpen_opened qp (s.going d)
  have hsync := hwork.trans (State.kvSync_tableWork _)
  have hrec := (hsync.underway (State.running_markStarted_underway (.seqOpen qp idx) hstart.1)).recordSame
  have hall := ((State.markStarted_swapWork (s := s.running (.seqOpen qp idx)) hstart.1).trans hsync.swapWork).trans
    (State.complete_swapWork _ qp (s.going d) r.2.1 r.2.2)
  refine ⟨_, exec_of_settle rfl hopen (State.withKv_of_kvStarts (s := s.running (.seqOpen qp idx)) hstart rfl _) hall,
    State.completed_of_same (hrec.completed s r.2.1 r.2.2) rfl rfl, fun hok => ?_⟩
  have hctxs : (r.1.kvSync.complete qp (s.going d) r.2.1 r.2.2).kv = r.1.kv := (State.complete_kv _ _ _ _ _).trans (State.kvSync_kv _)
  exact ⟨(congrArg Kv.ctxs hctxs).symm ▸ (hnames hok).1, (hnames hok).2⟩

end

end Sys2Proof.Machine
end

section
/-! SEQ_CLOSE (R186, R323 to R329), and the two commands that open and close contexts. -/

namespace Sys2Proof.Machine

/-! ### What a context held is released (R186, R208) -/

section
variable {s t : State} {j : Job} {c : Nat} {b : List Byte}

theorem Job.closeWord_tableWork (j : Job) (da n : Nat) : j.st.tableWork (j.closeWord da n).1.st := by
  unfold Job.closeWord
  split
  · exact j.st.tableWork_refl
  split <;> exact State.kvRead_tableWork_of ‹_›
theorem Job.closePte_tableWork (j : Job) (root e : Nat) (conf : Bool) : j.st.tableWork (j.closePte root e conf).st := by
  have hmid := j.closeWord_tableWork (root + 8 * (e / 2 ^ 25)) 8
  unfold Job.closePte
  dsimp only
  split
  · exact hmid
  have hleaf := hmid.trans (Job.closeWord_tableWork _ ((j.closeWord (root + 8 * (e / 2 ^ 25)) 8).2 + 8 * (e / 2 ^ 13 % 4096)) 8)
  split
  · exact hleaf
  have hpte := fun da => hleaf.trans (Job.closeWord_tableWork _ da 4)
  split
  · exact (hpte _).trans (Job.refDown_tableWork _ _ _)
  split
  · exact (hpte _).trans (Job.map_tableWork (State.slotSet_tableWork _ _ false))
  · exact hpte _
theorem Job.closePage_tableWork (j : Job) (da : Nat) (conf : Bool) : j.st.tableWork (j.closePage da conf).st := by
  unfold Job.closePage
  split
  · exact j.st.tableWork_refl
  · exact j.refDown_tableWork _ _
theorem Job.closeTables_tableWork (j : Job) (root n : Nat) (conf : Bool) : j.st.tableWork (j.closeTables root n conf).st := by
  unfold Job.closeTables
  extract_lets leaves j1 j2
  have h1 : j.st.tableWork j1.st := by
    refine foldl_tableWork Job.st (fun a k => ?_) _ j
    have hmid := a.closeWord_tableWork (root + 8 * (k / 4096)) 8
    dsimp only
    split
    · exact hmid
    · exact (hmid.trans (Job.closeWord_tableWork _ _ _)).trans (Job.closePage_tableWork _ _ conf)
  have h2 : j1.st.tableWork j2.st :=
    foldl_tableWork Job.st (fun a k => (a.closeWord_tableWork (root + 8 * k) 8).trans (Job.closePage_tableWork _ _ conf)) _ j1
  exact (h1.trans h2).trans (j2.closePage_tableWork root conf)
/-- A closed context is FREE. -/
def State.delisted (s : State) (c : Nat) : State :=
  { s with kv := { s.kv with ctxs := s.kv.ctxs.filter (· ≠ c), nodes := SMap.del s.kv.nodes c, toks := SMap.del s.kv.toks c
                             sid := SMap.del s.kv.sid c
                             closed := if s.flag F.ENR_CTL_RUN 0 then s.kv.closed ++ [c] else s.kv.closed } }
theorem State.delisted_tableWork (s : State) (c : Nat) : s.tableWork (s.delisted c) := s.setKv_tableWork rfl rfl
theorem Job.closeCtx_eq (j : Job) (c : Nat) (b : List Byte) :
    ∃ k : Job, j.st.tableWork k.st ∧ j.closeCtx c b = k.map (fun s => s.delisted c) := by
  unfold Job.closeCtx
  extract_lets conf j1 n j2
  have h1 : j.st.tableWork j1.st := by
    refine foldl_tableWork Job.st (fun a x => ?_) _ j
    have hnode : a.st.tableWork (a.map (fun _ => (a.st.nodeRead x.1).1)).st := Job.map_tableWork (a.st.nodeRead_tableWork x.1)
    dsimp only
    split
    · exact hnode
    · exact (hnode.trans (Job.refDown_tableWork _ _ _)).trans (Job.write_tableWork _ _ _)
  have h2 : j1.st.tableWork j2.st := by
    dsimp only [j2]
    split
    · exact j1.st.tableWork_refl
    · exact .trans (foldl_tableWork Job.st (fun a e => a.closePte_tableWork (eRoot b) e conf) _ j1) (Job.closeTables_tableWork _ _ _ _)
  exact ⟨_, (h1.trans h2).trans (j2.putEntry_tableWork c _), rfl⟩
theorem Job.closeCtx_tableWork (j : Job) (c : Nat) (b : List Byte) : j.st.tableWork (j.closeCtx c b).st := by
  obtain ⟨k, hk, heq⟩ := j.closeCtx_eq c b
  rw [heq]
  exact hk.trans (Job.map_tableWork (State.delisted_tableWork _ c))
/-- A context whose close ends well is FREE. -/
theorem Job.closeCtx_ctxs (h : (j.closeCtx c b).finish s = (t, none)) : c ∉ t.kv.ctxs := by
  obtain ⟨k, -, heq⟩ := j.closeCtx_eq c b
  obtain ⟨herr, rfl⟩ := Job.finish_of_none h
  rw [heq] at herr ⊢
  rw [Job.map_st_of_err herr]
  simp [State.delisted]

end

/-! ### SEQ_CLOSE -/

section
variable {s : State} {qp idx : Nat} {d : Descr}

/-- A SEQ_CLOSE whose context is released: it completes while metering is stopped, and for context 0; else its receipt is queued. -/
def State.closeEnds (s : State) (qp idx : Nat) (d : Descr) (b : List Byte) : State :=
  if !s.flag F.ENR_CTL_RUN 0 || d.ctx = 0 then s.complete qp d stOK []
  else { s with enr := { s.enr with closing := s.enr.closing ++
    [⟨qp, idx, d.ctx, eGen b, d.u 16 8, leAt b 112 8, s.clk.ns, bitOf (eFlags b) 1, s.stamp⟩] } }
theorem State.closeGo_eq {s s2 s3 : State} {b : List Byte} (hctx : d.ctx < s.ctxCount) (hread : s.kvRead (s.seqDa d.ctx) 128 = (s2, some b))
    (hstate : eState b ≠ cFREE) (hfunc : eFunc b = (s.qpFunc qp).getD 0) (hswap : s.swapping d.ctx = false)
    (hclose : (Job.closeCtx (Job.mk s2 none) d.ctx b).finish s2 = (s3, none)) :
    s.closeGo qp idx d = s3.kvSync.closeEnds qp idx d b := by
  have hswap2 : s2.swapping d.ctx = false := ((State.kvRead_tableWork_of hread).swapping d.ctx).trans hswap
  unfold State.closeGo
  dsimp only
  rw [if_neg (Nat.not_le.mpr hctx), hread]
  simp only [hstate, hfunc, hswap2, hclose, ne_eq, not_true_eq_false, decide_false, Bool.or_self, Bool.false_eq_true, if_false]
  rfl
theorem State.closeEnds_swapWork (s : State) (qp idx : Nat) (d : Descr) (b : List Byte) : s.swapWork (s.closeEnds qp idx d b) :=
  .ite _ (s.complete_swapWork _ _ _ _) (State.swapWork_of rfl rfl rfl)
theorem State.closeEnds_kv (s : State) (qp idx : Nat) (d : Descr) (b : List Byte) : (s.closeEnds qp idx d b).kv = s.kv := by
  unfold State.closeEnds
  split
  · exact s.complete_kv _ _ _ _
  · rfl
/-- A SEQ_CLOSE with room for its receipt starts. -/
theorem exec_seqClose_starts {a : State} (hopen : s.gateOpen) (hstart : s.kvStarts qp idx 0x12 d) (hfull : s.leafFull = false)
    (hwait : s.kv.closeWait.contains (qp, idx) = false)
    (hhead : ((s.running (.seqClose qp idx)).markStarted qp d).headVerdict qp (s.going d) (bodyZero (s.going d) [(16, 8)]) false = none)
    (hgo : ((s.running (.seqClose qp idx)).markStarted qp d).closeGo qp idx (s.going d) = a)
    (hwork : ((s.running (.seqClose qp idx)).markStarted qp d).swapWork a) :
    exec (.seqClose qp idx) s = .next { a with gate := s.gate } := by
  refine exec_of_settle rfl hopen ?_ ((State.markStarted_swapWork (s := s.running (.seqClose qp idx)) hstart.1).trans hwork)
  have hdescr : (s.running (.seqClose qp idx)).descr qp idx = some d := hstart.1
  have hfull' : (s.running (.seqClose qp idx)).leafFull = false := hfull
  have hwait' : (s.running (.seqClose qp idx)).kv.closeWait.contains (qp, idx) = false := hwait
  have hok : (!(s.running (.seqClose qp idx)).closeWaits d) = true := by rw [State.closeWaits, hfull', Bool.and_false]; rfl
  have hkv := State.withKv_of_kvStarts (s := s.running (.seqClose qp idx)) hstart
    (ok := fun d => !(s.running (.seqClose qp idx)).closeWaits d) hok (fun s d =>
      match s.headVerdict qp d (bodyZero d [(16, 8)]) false with
      | some e => s.complete qp d e []
      | none => s.closeGo qp idx d)
  have hgoing : (s.running (.seqClose qp idx)).going d = s.going d := rfl
  rw [hgoing, hhead] at hkv
  simp only [hdescr, hwait', hfull', Bool.and_false, Bool.false_eq_true, if_false]
  exact hkv.trans hgo
theorem State.sameRegs.qpFunc {s u : State} {l : List Reg} (h : s.sameRegs u l) (hbase : F.CMD_FQ_QBASE.reg ∉ l) (hcnt : F.CMD_FQ_QCNT.reg ∉ l) (q : Nat) :
    u.qpFunc q = s.qpFunc q := by
  simp only [State.qpFunc, h.fget F.CMD_FQ_QBASE _ hbase (by decide), h.fget F.CMD_FQ_QCNT _ hcnt (by decide)]
theorem exec_seqClose {s2 s3 : State} {b : List Byte} (hopen : s.gateOpen) (hstart : s.kvStarts qp idx 0x12 d) (hfull : s.leafFull = false)
    (hwait : s.kv.closeWait.contains (qp, idx) = false) (hswap : s.swapping d.ctx = false)
    (hhead : ((s.running (.seqClose qp idx)).markStarted qp d).headVerdict qp (s.going d) (bodyZero (s.going d) [(16, 8)]) false = none)
    (hctx : d.ctx < s.ctxCount)
    (hread : ((s.running (.seqClose qp idx)).markStarted qp d).kvRead (((s.running (.seqClose qp idx)).markStarted qp d).seqDa d.ctx) 128 = (s2, some b))
    (hstate : eState b ≠ cFREE) (hfunc : eFunc b = (s.qpFunc qp).getD 0)
    (hclose : (Job.closeCtx (Job.mk s2 none) d.ctx b).finish s2 = (s3, none)) :
    ∃ u, exec (.seqClose qp idx) s = .next u ∧ d.ctx ∉ u.kv.ctxs ∧
      (s.flag F.ENR_CTL_RUN 0 = false ∨ d.ctx = 0 → s.completed u qp d stOK 0 []) ∧
      (s.flag F.ENR_CTL_RUN 0 = true → d.ctx ≠ 0 → ∃ x, u.enr.closing = s.enr.closing ++ [x] ∧ x.qp = qp ∧ x.didx = idx ∧ x.ctx = d.ctx ∧
        x.gen = eGen b ∧ x.req = d.u 16 8) := by
  have hregs : s.sameRegs ((s.running (.seqClose qp idx)).markStarted qp d) [] := State.sameRegs_of_regs [] rfl
  have henr : ((s.running (.seqClose qp idx)).markStarted qp d).enr = s.enr := rfl
  have hkv : ((s.running (.seqClose qp idx)).markStarted qp d).kv = s.kv := rfl
  have hunder := State.running_markStarted_underway (.seqClose qp idx) hstart.1
  have hstarts := fun a => exec_seqClose_starts (a := a) hopen hstart hfull hwait hhead
  clear hhead
  generalize (s.running (.seqClose qp idx)).markStarted qp d = m at *
  have hclosed := Job.finish_tableWork ((Job.mk s2 none).closeCtx_tableWork d.ctx b)
  rw [hclose] at hclosed
  have hwork := ((State.kvRead_tableWork_of hread).trans hclosed).trans s3.kvSync_tableWork
  have hends := State.closeGo_eq (d := s.going d) (qp := qp) (idx := idx) 
    (hctx.trans_eq (congrArg (2 ^ ·) (hregs.fget F.KVM_SEQ_HI_CTX_LOG2 0 (by decide) (by decide))).symm) hread hstate
    (hfunc.trans (congrArg (·.getD 0) (hregs.qpFunc (by decide) (by decide) qp)).symm)
    (by rw [State.swapping, hkv, ← State.swapping]; exact hswap) hclose
  have hrun : s3.kvSync.flag F.ENR_CTL_RUN 0 = s.flag F.ENR_CTL_RUN 0 := (hwork.flag F.ENR_CTL_RUN 0 (by decide) (by decide)).trans
    (hregs.flag F.ENR_CTL_RUN 0 (by decide) (by decide))
  refine ⟨_, hstarts _ hends (hwork.swapWork.trans (State.closeEnds_swapWork _ _ _ _ _)), ?_, fun hstop => ?_,
    fun hmeter hne => ?_⟩
  · have hkv : (s3.kvSync.closeEnds qp idx (s.going d) b).kv = s3.kv := (State.closeEnds_kv _ _ _ _ _).trans (State.kvSync_kv s3)
    exact (congrArg Kv.ctxs hkv).symm ▸ Job.closeCtx_ctxs hclose
  · have hif : (!s3.kvSync.flag F.ENR_CTL_RUN 0 || decide ((s.going d).ctx = 0)) = true := by
      rw [hrun]
      rcases hstop with h | h
      · rw [h]
        rfl
      · rw [show (s.going d).ctx = 0 from h, decide_eq_true rfl, Bool.or_true]
    rw [State.closeEnds, if_pos hif]
    exact State.completed_of_same ((hwork.underway hunder).completed (by decide) []) rfl rfl
  · have hif : ¬ (!s3.kvSync.flag F.ENR_CTL_RUN 0 || decide ((s.going d).ctx = 0)) = true := by
      rw [hrun, hmeter, decide_eq_false (show ¬ (s.going d).ctx = 0 from hne)]
      decide
    rw [State.closeEnds, if_neg hif, hwork.enr, henr]
    exact ⟨_, rfl, rfl, rfl, rfl, rfl, rfl⟩

end

/-- Settles O25 (R181, R182, R186; SEQ_CLOSE without metering is the model's choice, log entry 48): SEQ_OPEN's work on the tables ends with a
status, SEQ_CLOSE's with the context delisted. -/
theorem contextResults : Obligations.ContextResults := by
  unfold Obligations.ContextResults
  intro qp idx d s hopen
  refine ⟨exec_seqOpen hopen, ?_⟩
  intro s1 hstart hfull hwait hswap hhead hctx s2 b s3 hread hstate hfunc hclose
  exact exec_seqClose hopen hstart hfull hwait hswap hhead hctx hread hstate hfunc hclose

end Sys2Proof.Machine
end

section
/-! The items of SEQ_STEP (R183 to R185, R187, R193, R208): what they leave alone, and the entry status of an item that cannot begin or end. -/

namespace Sys2Proof.Machine

section
variable {s : State} {j : Job}

/-! ### Entries of the output record -/

theorem State.failEntry_tableWork (s : State) (c st : Nat) (b : Option (List Byte)) : s.tableWork (s.failEntry c st b).1 :=
  ((s.free_tableWork 48).trans (State.free_tableWork _ 64)).trans (State.free_tableWork _ 96)
theorem State.itemEntry_tableWork (s : State) (c f : Nat) : s.tableWork (s.itemEntry c f).1 := by
  unfold State.itemEntry
  split
  · exact s.tableWork_refl
  split
  · exact (State.kvRead_tableWork_of ‹_›).trans (State.entryLost_tableWork _ c)
  have hread := State.kvRead_tableWork_of ‹_›
  split
  · exact hread
  split <;> exact hread

/-! ### Pages of a step (R184) -/

theorem State.putPoison_tableWork (s : State) (pl : Nat) (bs : List Byte) : s.tableWork (s.putPoison pl bs) := State.tableWork_of rfl rfl rfl
theorem State.copyPage_tableWork (s : State) (src dst : Nat) : s.tableWork (s.copyPage src dst) := by
  unfold State.copyPage
  generalize List.range 4096 = l
  refine State.tableWork_foldl (fun a i => ?_) l s
  have hread := a.kvRead_tableWork (2 ^ 15 * src + 8 * i) 8
  dsimp only
  split
  · exact hread.trans (State.daWrite_tableWork _ _ _)
  · exact hread.trans (State.putPoison_tableWork _ _ _)
theorem Job.newPage_tableWork (j : Job) (c root lh e : Nat) : j.st.tableWork (j.newPage c root lh e).st :=
  ((j.ensure_tableWork c root e).trans (Job.kvPage_tableWork _ e lh 1)).trans (Job.setPte_tableWork _ c root e _)
theorem Job.copyPage_tableWork (j : Job) (src dst : Nat) : j.st.tableWork (j.map (fun s => s.copyPage src dst)).st :=
  Job.map_tableWork (f := fun s => s.copyPage src dst) (j.st.copyPage_tableWork src dst)
theorem Job.ownPage_tableWork (j : Job) (c root lh e old : Nat) (conf : Bool) : j.st.tableWork (j.ownPage c root lh e old conf).st := by
  unfold Job.ownPage
  extract_lets p
  have hpage : j.st.tableWork p.1.st := j.kvPage_tableWork e lh 1
  clear_value p
  have hcopy := p.1.copyPage_tableWork old p.2
  generalize p.1.map (fun s => s.copyPage old p.2) = k at hcopy ⊢
  exact ((hpage.trans hcopy).trans (k.setPte_tableWork c root e _)).trans (Job.refDown_tableWork _ old _)

theorem Job.newPages_tableWork (j : Job) (c root lh : Nat) (l : List Nat) :
    j.st.tableWork (l.foldl (fun (a : Job) e => a.newPage c root lh e) j).st := foldl_tableWork Job.st (fun a e => a.newPage_tableWork c root lh e) l j
theorem Job.ownPages_tableWork (j : Job) (c root lh : Nat) (conf : Bool) (l : List (Nat × Nat)) :
    j.st.tableWork (l.foldl (fun (a : Job) x => a.ownPage c root lh x.1 x.2 conf) j).st := by
  induction l generalizing j with
  | nil => exact j.st.tableWork_refl
  | cons x l ih => exact (j.ownPage_tableWork c root lh x.1 x.2 conf).trans (ih _)

/-! ### Nodes of a step (R193, R194) -/

theorem State.planNodes_tableWork (ns shape : Nat) (hs : List (Nat × Nat)) (s : State) (out : List (Nat × Nat × Nat × List Byte)) (skip : Nat) :
    s.tableWork (State.planNodes s ns shape hs out skip).1 := by
  induction hs generalizing s out skip with
  | nil => exact s.tableWork_refl
  | cons x rest ih =>
    obtain ⟨h, b⟩ := x
    have hfind := s.findNode_tableWork h ns b shape
    unfold State.planNodes
    dsimp only
    split
    · exact hfind.trans (ih _ _ _)
    generalize hq : State.nodesRead _ _ = q
    have hbucket : s.tableWork q.1 := hfind.trans (hq ▸ State.nodesRead_tableWork _ _)
    split
    · exact hbucket.trans (ih _ _ _)
    split <;> exact hbucket.trans (ih _ _ _)
theorem Job.newNode_tableWork (j : Job) (c lh : Nat) (b : List Byte) (x : Nat × Nat × Nat × List Byte) : j.st.tableWork (j.newNode c lh b x).st := by
  have hevict : j.st.tableWork (if x.2.2.2 = [] then j else j.evict x.2.2.1 x.2.2.2 lh).st := by
    split
    · exact j.st.tableWork_refl
    · exact j.evict_tableWork _ _ _
  exact (((hevict.trans (Job.pop_tableWork _ _ 4)).trans (Job.map_tableWork (f := fun _ => _) (State.free_tableWork _ 64))).trans
    (Job.write_tableWork _ _ _)).trans (Job.map_tableWork (State.setKv_tableWork _ rfl rfl))
theorem Job.newNodes_tableWork (j : Job) (c lh : Nat) (b : List Byte) (l : List (Nat × Nat × Nat × List Byte)) :
    j.st.tableWork (l.foldl (fun (a : Job) x => a.newNode c lh b x) j).st := foldl_tableWork Job.st (fun a x => a.newNode_tableWork c lh b x) l j

/-! ### BEGIN (R184) -/

theorem State.tokensKept_tableWork (s : State) (n c : Nat) (toks : List Nat) :
    s.tableWork { s.fadd F.PFX_SKIP_SKIP 0 n with kv := { s.kv with toks := SMap.put s.kv.toks c toks } } :=
  (s.fadd_tableWork (f := F.PFX_SKIP_SKIP) (by decide) (by decide) 0 n).trans (State.setKv_tableWork _ rfl rfl)
theorem State.beginOpen_swapWork (s : State) (c n : Nat) (b : List Byte) (toks named : List Nat) : s.swapWork (s.beginOpen c n b toks named).1 := by
  unfold State.beginOpen
  extract_lets lh root len b0 b1 key fold share plan s1 es cnt tabs need bad x0 s2 f j1 j2 j3 b' j4 x
  have hbad : ∀ y st, s.swapWork y.1 → s.swapWork (bad y st).1 := 
    fun y st hy => hy.trans (y.1.failEntry_tableWork c (entryStatus st) (some b)).swapWork
  have h1 : s.tableWork s1 := by
    dsimp only [s1, plan]
    split
    · exact (s.nsKey_tableWork _ _).trans (State.planNodes_tableWork _ _ _ _ _ _)
    · exact s.nsKey_tableWork _ _
  have hcnt : s1.tableWork cnt.1.st := by
    refine foldl_tableWork (π := fun a : Job × List Nat × List (Nat × Nat) => a.1.st) (fun a e => ?_) es (Job.mk s1 none, [], [])
    dsimp only
    split
    · exact a.1.pte_tableWork c root e
    · exact (a.1.pte_tableWork c root e).trans (Job.pageWord_tableWork _ _)
  have htabs : s1.tableWork tabs.1.st := hcnt.trans (Job.tablesNeeded_tableWork _ c root _)
  have hj1 : s2.tableWork j1.st := (Job.mk s2 none).newPages_tableWork c root lh cnt.2.1
  have hj2 : j1.st.tableWork j2.st := j1.ownPages_tableWork c root lh (bitOf (eFlags b) 1) cnt.2.2
  have hj3 : j2.st.tableWork j3.st := j2.newNodes_tableWork c lh b plan.2.1
  have hj4 : j3.st.tableWork j4.st := by
    clear_value j3 b' fold plan
    exact (j3.putEntry_tableWork c b').trans (Job.map_tableWork (State.tokensKept_tableWork _ plan.2.2 c fold.2.2))
  have hs2 : s.tableWork s2 := h1.trans htabs
  have hx : s.tableWork x.1 := hs2.trans (Job.finish_tableWork (hj1.trans (hj2.trans (hj3.trans hj4))))
  split
  · exact hbad _ _ (h1.trans (Job.finish_tableWork htabs)).swapWork
  split
  · exact (hs2.swapWork.trans (State.preempt_swapWork _ _ named)).trans (State.failEntry_tableWork _ c 1 (some b)).swapWork
  split
  · exact hbad _ _ hx.swapWork
  · exact hx.swapWork

/-! ### Items (R183 to R185, R187) -/

/-- The answer to an item that fails. -/
def State.itemFails (s : State) (c st : Nat) (b : Option (List Byte)) : State × Nat × List Byte := ((s.failEntry c st b).1, st, (s.failEntry c st b).2)
theorem State.itemFails_tableWork (s : State) (c st : Nat) (b : Option (List Byte)) : s.tableWork (s.itemFails c st b).1 := s.failEntry_tableWork c st b
theorem State.beginItem_swapWork (s : State) (f c n tokDa : Nat) (named : List Nat) : s.swapWork (s.beginItem f c n tokDa named).1 := by
  have hentry := s.itemEntry_tableWork c f
  unfold State.beginItem
  extract_lets fail_
  have hfail : ∀ (a : State) (st : Nat) (b : Option (List Byte)), s.swapWork a → s.swapWork (fail_ a st b).1 :=
    fun a st b ha => ha.trans (a.itemFails_tableWork c st b).swapWork
  clear_value fail_
  split
  · rename_i heq
    rw [heq] at hentry
    exact hfail _ _ _ hentry.swapWork
  rename_i s1 b heq
  rw [heq] at hentry
  extract_lets fail t
  have hread : s.swapWork t.1 := (hentry.trans (State.daRead_tableWork s1 tokDa (4 * n) 4)).swapWork
  split
  · exact hfail _ _ _ (hentry.swapWork.trans (State.inStart_swapWork s1 c none named))
  split
  · exact hfail _ _ _ hentry.swapWork
  split
  · exact hfail _ _ _ hentry.swapWork
  split
  · exact hfail _ _ _ hentry.swapWork
  split
  · exact hfail _ _ _ hread
  · exact hread.trans (State.beginOpen_swapWork _ c n b _ named)
theorem State.endItem_tableWork (s : State) (f c : Nat) : s.tableWork (s.endItem f c).1 := by
  have hentry := s.itemEntry_tableWork c f
  unfold State.endItem
  extract_lets fail_
  have hfail : ∀ (a : State) (st : Nat) (b : Option (List Byte)), s.tableWork a → s.tableWork (fail_ a st b).1 :=
    fun a st b ha => ha.trans (a.itemFails_tableWork c st b)
  clear_value fail_
  split
  · rename_i heq
    rw [heq] at hentry
    exact hfail _ _ _ hentry
  rename_i s1 b heq
  rw [heq] at hentry
  extract_lets fail lh len len' es j1 j2 b' j3 x
  have h1 : s1.tableWork j1.st := by
    refine foldl_tableWork Job.st (fun a e => ?_) es (Job.mk s1 none)
    have hpte := a.pte_tableWork c (eRoot b) e
    dsimp only
    split
    · exact (hpte.trans (Job.pageWord_tableWork _ _)).trans (Job.putPage_tableWork _ _ _)
    · exact hpte
  have h2 : j1.st.tableWork j2.st := by
    refine foldl_tableWork Job.st (fun a y => ?_) _ j1
    extract_lets nr row ps
    have hnode : a.st.tableWork (a.map (fun _ => nr.1)).st := Job.map_tableWork (a.st.nodeRead_tableWork y.1)
    have hps : a.st.tableWork ps.1.st := by
      refine hnode.trans (foldl_tableWork (π := fun r : Job × List Nat => r.1.st) (fun r i => ?_) _ (a.map (fun _ => nr.1), []))
      exact (r.1.pte_tableWork c _ _).trans (Job.refUp_tableWork _ _)
    split
    · exact hnode
    · exact ((hps.trans (Job.write_tableWork _ _ _)).trans (Job.write_tableWork _ _ _)).trans (Job.map_tableWork (State.dirUse_tableWork _ _))
  have h3 : j2.st.tableWork j3.st := (j2.putEntry_tableWork c b').trans (Job.map_tableWork (State.setKv_tableWork _ rfl rfl))
  have hx : s.tableWork x.1 := hentry.trans (Job.finish_tableWork (h1.trans (h2.trans h3)))
  split
  · exact hfail _ _ _ hentry
  split
  · exact hfail _ _ _ hx
  · exact hx

/-- The items of a list, each as one operation. -/
theorem State.stepGo_swapWork (begin_ : Bool) (f : Nat) (named : List Nat) (items : List (Nat × Nat)) (s : State) (tok : Nat) (out : List Byte) (bad : Nat)
    (ok : List (Nat × Nat)) : s.swapWork (State.stepGo s begin_ f named tok items out bad ok).1 := by
  induction items generalizing s tok out bad ok with
  | nil => exact s.swapWork_refl
  | cons x rest ih =>
    obtain ⟨c, n⟩ := x
    have hitem : s.swapWork (if begin_ then s.beginItem f c n tok named else s.endItem f c).1 := by
      split
      · exact s.beginItem_swapWork f c n tok named
      · exact (s.endItem_tableWork f c).swapWork
    exact (hitem.trans (State.kvSync_tableWork _).swapWork).trans (ih _ _ _ _ _)

/-! ### Entry statuses (R182, R187) -/

section
variable {c f n tok : Nat} {named : List Nat} {b : List Byte} {s1 : State}

theorem State.itemEntry_beyond (h : s.ctxCount ≤ c) : s.itemEntry c f = (s, .error (5, none)) := if_pos h
theorem State.itemEntry_of_read (hc : c < s.ctxCount) (hread : s.kvRead (s.seqDa c) 128 = (s1, some b)) : s.itemEntry c f =
    if eState b = cFREE || eFunc b ≠ f then (s1, .error (5, none)) else if eState b = cFAILED then (s1, .error (6, some b)) else (s1, .ok b) := by
  rw [State.itemEntry, if_neg (Nat.not_le.mpr hc), hread]
theorem State.item_of_error {st : Nat} {e : Option (List Byte)} (h : s.itemEntry c f = (s1, .error (st, e))) :
    (s.beginItem f c n tok named).2.1 = st ∧ (s.endItem f c).2.1 = st := by
  rw [State.beginItem, State.endItem, h]
  exact ⟨rfl, rfl⟩
theorem State.endItem_of_state (h : s.itemEntry c f = (s1, .ok b)) (hstate : eState b ≠ cSTEP) : (s.endItem f c).2.1 = 3 := by
  rw [State.endItem, h]
  dsimp only
  rw [if_pos hstate]
theorem State.beginItem_swapped (h : s.itemEntry c f = (s1, .ok b)) (hstate : eState b = cSWAPPED) : (s.beginItem f c n tok named).2.1 = 2 := by
  rw [State.beginItem, h]
  dsimp only
  rw [if_pos hstate]
theorem State.beginItem_swapping (h : s.itemEntry c f = (s1, .ok b)) (hstate : eState b = cSWAPOUT ∨ eState b = cSWAPIN) :
    (s.beginItem f c n tok named).2.1 = 2 := by
  rw [State.beginItem, h]
  dsimp only
  rcases hstate with hs | hs <;> rw [hs] <;> rfl
theorem State.beginItem_inStep (h : s.itemEntry c f = (s1, .ok b)) (hstate : eState b = cSTEP) : (s.beginItem f c n tok named).2.1 = 3 := by
  rw [State.beginItem, h]
  dsimp only
  rw [hstate]
  rfl
theorem State.beginItem_long (h : s.itemEntry c f = (s1, .ok b)) (hstate : eState b = cOPEN) (hlong : 2 ^ 20 ≤ eLen b + n) :
    (s.beginItem f c n tok named).2.1 = 4 := by
  have hlim : 1048575 < eLen b + n := hlong
  rw [State.beginItem, h]
  dsimp only
  rw [hstate, if_neg (by decide), if_neg (by decide), if_neg (by decide), if_pos hlim]

end

end

end Sys2Proof.Machine
end

section
/-! SEQ_STEP (R183, R208): a step whose descriptor and list are good completes after its items. -/

namespace Sys2Proof.Machine

section
variable {s s2 : State} {qp idx : Nat} {d : Descr} {bs : List Byte}

/-- What a SEQ_STEP records after its items: the output record and, at BEGIN, the items begun. -/
def State.stepRecorded (r : State × List Byte × Nat × List (Nat × Nat)) (q : Nat) (d : Descr) : State :=
  let s1 := (r.1.daWrite (d.u 40 8) (leBytes 4 (d.u 20 4) ++ leBytes 4 r.2.2.1 ++ leBytes 8 r.1.clk.ns ++ zeros 48 ++ r.2.1)).1
  if d.u 16 1 = 0 then { s1 with kv := { s1.kv with steps := SMap.put s1.kv.steps q r.2.2.2 } } else s1
theorem State.stepRecorded_tableWork (r : State × List Byte × Nat × List (Nat × Nat)) (q : Nat) (d : Descr) : r.1.tableWork (State.stepRecorded r q d) := by
  have hwrite := fun bs => r.1.daWrite_tableWork (d.u 40 8) bs
  exact .ite _ ((hwrite _).trans (State.setKv_tableWork _ rfl rfl)) (hwrite _)
theorem State.stepRecorded_steps (r : State × List Byte × Nat × List (Nat × Nat)) (q : Nat) (hop : d.u 16 1 = 0) :
    SMap.find (State.stepRecorded r q d).kv.steps q = some r.2.2.2 := by
  rw [State.stepRecorded]
  dsimp only
  rw [if_pos hop]
  exact SMap.find_put_same q _ _
/-- The result of the items of a SEQ_STEP whose list `bs` has been read. -/
def State.stepItemsDone (s : State) (d : Descr) (f : Nat) (bs : List Byte) : State × List Byte × Nat × List (Nat × Nat) :=
  State.stepGo s (d.u 16 1 = 0) f ((stepItems (d.u 20 4) bs).map (·.1)) (d.u 32 8) (stepItems (d.u 20 4) bs) [] 0 []

/-- The descriptor and the list of a SEQ_STEP are good. -/
structure State.stepGood (s : State) (q : Nat) (d : Descr) (s2 : State) (bs : List Byte) : Prop where
  op : d.u 16 1 ≤ 1
  head : s.headVerdict q d (bodyZero d [(16, 1), (20, 28)]) true = none
  least : 1 ≤ d.u 20 4
  most : d.u 20 4 ≤ 256
  tokens : d.u 16 1 = 1 → d.u 32 8 = 0
  list : s.daVerdict ((s.qpFunc q).getD 0) (d.u 24 8) (8 * d.u 20 4) = none
  record : s.daVerdict ((s.qpFunc q).getD 0) (d.u 40 8) (64 + 32 * d.u 20 4) = none
  read : s.daRead (d.u 24 8) (8 * d.u 20 4) 4 = (s2, bs, none)
  words : ∀ i, i < d.u 20 4 → leAt bs (8 * i) 8 < 2 ^ 36
  items : ∀ x, x ∈ stepItems (d.u 20 4) bs → if d.u 16 1 = 0 then 1 ≤ x.2 else x.2 = 0
  toks : d.u 16 1 = 0 →
    s2.daVerdict ((s.qpFunc q).getD 0) (d.u 32 8) (4 * ((stepItems (d.u 20 4) bs).map (·.2)).foldl (· + ·) 0) = none

theorem State.stepGood.body (h : s.stepGood qp d s2 bs) : (bodyZero d [(16, 1), (20, 28)] && d.u 16 1 ≤ 1 && 1 ≤ d.u 20 4 && d.u 20 4 ≤ 256 &&
    (d.u 16 1 = 0 || d.u 32 8 = 0)) = bodyZero d [(16, 1), (20, 28)] := by
  have htok : (decide (d.u 16 1 = 0) || decide (d.u 32 8 = 0)) = true := by
    by_cases h0 : d.u 16 1 = 0
    · rw [decide_eq_true h0, Bool.true_or]
    · rw [decide_eq_true (h.tokens (Nat.le_antisymm h.op (Nat.one_le_iff_ne_zero.mpr h0))), Bool.or_true]
  rw [htok, decide_eq_true h.op, decide_eq_true h.least, decide_eq_true h.most]
  simp only [Bool.and_true]
theorem State.stepGood.allOk (h : s.stepGood qp d s2 bs) :
    (((List.range (d.u 20 4)).map (fun i => leAt bs (8 * i) 8)).all (fun v => v < 2 ^ 36) &&
      (stepItems (d.u 20 4) bs).all (fun x => if d.u 16 1 = 0 then 1 ≤ x.2 else x.2 = 0)) = true := by
  rw [Bool.and_eq_true, List.all_eq_true, List.all_eq_true]
  constructor
  · intro v hv
    obtain ⟨i, hi, rfl⟩ := List.mem_map.mp hv
    exact decide_eq_true (h.words i (List.mem_range.mp hi))
  · exact fun x hx => by simpa using h.items x hx
/-- Such a step works through its items and completes with the number of those that failed. -/
theorem State.stepGood.seqStep (h : s.stepGood qp d s2 bs) : s.seqStep qp d =
    (State.stepRecorded (s2.stepItemsDone d ((s.qpFunc qp).getD 0) bs) qp d).complete qp d stOK
      (leBytes 4 (s2.stepItemsDone d ((s.qpFunc qp).getD 0) bs).2.2.1) := by
  have htoks : (if d.u 16 1 = 0 then s2.daVerdict ((s.qpFunc qp).getD 0) (d.u 32 8)
      (4 * ((stepItems (d.u 20 4) bs).map (·.2)).foldl (· + ·) 0) else none) = none := by
    split
    · exact h.toks ‹_›
    · rfl
  unfold State.seqStep
  dsimp only
  rw [h.body, h.head]
  dsimp only
  rw [h.list, h.record]
  dsimp only [Option.or]
  rw [h.read]
  dsimp only
  rw [h.allOk, htoks]
  rfl

theorem State.running_markStarted_qpFunc (s : State) (i : Instr) (qp : Nat) (d : Descr) :
    ((s.running i).markStarted qp d).qpFunc qp = s.qpFunc qp := by
  have hregs : s.sameRegs ((s.running i).markStarted qp d) [] := State.sameRegs_of_regs [] rfl
  exact hregs.qpFunc (by decide) (by decide) qp
/-- Either row of SEQ_STEP completes such a step; the queue pair remembers the items begun. -/
theorem exec_seqStep {i : Instr} {ok : Descr → Bool} {f : Nat}
    (hexec : exec i s = .next (s.settle i fun s => s.withKv qp idx 0x11 ok (fun s d => s.seqStep qp d)))
    (hok : ok d = true) (hopen : s.gateOpen) (hstart : s.kvStarts qp idx 0x11 d) (hf : f = (s.qpFunc qp).getD 0)
    (hgood : ((s.running i).markStarted qp d).stepGood qp (s.going d) s2 bs) :
    ∃ u, exec i s = .next u ∧ (s2.stepItemsDone (s.going d) f bs).1.completed u qp d stOK 0 (leBytes 4 (s2.stepItemsDone (s.going d) f bs).2.2.1) ∧
      (d.u 16 1 = 0 → SMap.find u.kv.steps qp = some (s2.stepItemsDone (s.going d) f bs).2.2.2) := by
  have hfunc : (((s.running i).markStarted qp d).qpFunc qp).getD 0 = f := (congrArg (fun o => o.getD 0) (s.running_markStarted_qpFunc i qp d)).trans hf.symm
  have hstep := hgood.seqStep
  rw [hfunc] at hstep
  have hread := ((s.running i).markStarted qp d).daRead_tableWork ((s.going d).u 24 8) (8 * (s.going d).u 20 4) 4
  rw [hgood.read] at hread
  have hitems : s2.swapWork (s2.stepItemsDone (s.going d) f bs).1 := State.stepGo_swapWork _ f _ _ s2 _ _ _ _
  generalize s2.stepItemsDone (s.going d) f bs = r at hstep hitems ⊢
  have hrec := State.stepRecorded_tableWork r qp (s.going d)
  have hwork := ((State.markStarted_swapWork (s := s.running i) hstart.1).trans (hread.swapWork.trans hitems)).trans
    (hrec.swapWork.trans (State.complete_swapWork _ qp (s.going d) stOK (leBytes 4 r.2.2.1)))
  refine ⟨_, exec_of_settle hexec hopen ((State.withKv_of_kvStarts (s := s.running i) hstart hok _).trans hstep) hwork,
    State.completed_of_same ((hrec.recordSame qp).completed s stOK _) rfl rfl, fun hop => ?_⟩
  have hkv : ((State.stepRecorded r qp (s.going d)).complete qp (s.going d) stOK (leBytes 4 r.2.2.1)).kv = (State.stepRecorded r qp (s.going d)).kv :=
    State.complete_kv _ _ _ _ _
  exact (congrArg (fun k : Kv => SMap.find k.steps qp) hkv).trans (State.stepRecorded_steps r qp hop)

end

/-- Settles O26 (R182 to R184, R187, R208): the items are work on the tables and swaps, after which the step's record completes it; the entry
statuses follow from the entry that an item names. -/
theorem stepResults : Obligations.StepResults := by
  unfold Obligations.StepResults
  constructor
  · intro qp idx d s op hop hle hstart hopen c s1 f cnt hhead hleast hmost htokens hlist hrecord s2 bs hread items hwords hitems htoks r
    subst hop
    have hfunc : (s1.qpFunc qp).getD 0 = f := congrArg (fun o => o.getD 0) (s.running_markStarted_qpFunc c qp d)
    have hgood : s1.stepGood qp (s.going d) s2 bs :=
      ⟨hle, hhead, hleast, hmost, htokens, hfunc ▸ hlist, hfunc ▸ hrecord, hread, hwords, hitems, hfunc ▸ htoks⟩
    refine ⟨fun h0 => ?_, fun h1 => ?_⟩
    · have hc : c = .seqStepBegin qp idx := if_pos h0
      obtain ⟨u, hexec, hdone, hsteps⟩ := exec_seqStep (i := c) (ok := fun d => d.u 16 1 ≠ 1) (by rw [hc]; rfl)
        (decide_eq_true (by rw [h0]; decide)) hopen hstart rfl hgood
      exact ⟨u, hc ▸ hexec, hdone, hsteps h0⟩
    · have hc : c = .seqStepEnd qp idx := if_neg (by rw [h1]; decide)
      obtain ⟨u, hexec, hdone, -⟩ := exec_seqStep (i := c) (ok := fun d => d.u 16 1 ≠ 0) (by rw [hc]; rfl)
        (decide_eq_true (by rw [h1]; decide)) hopen hstart rfl hgood
      exact ⟨u, hc ▸ hexec, hdone⟩
  · intro f c n tok named s s1 b
    refine ⟨fun hbeyond => State.item_of_error (State.itemEntry_beyond hbeyond), fun hc hread => ?_⟩
    have hentry := State.itemEntry_of_read (f := f) hc hread
    have hsound : eFunc b = f → eState b ≠ cFREE → eState b ≠ cFAILED → s.itemEntry c f = (s1, .ok b) := by
      intro hfn hfree hfailed
      rw [hentry, if_neg (by simp [hfn, hfree]), if_neg hfailed]
    have hin : ∀ v, eState b = v → v ≠ cFREE → v ≠ cFAILED → eFunc b = f → s.itemEntry c f = (s1, .ok b) :=
      fun v hv hfree hfailed hfn => hsound hfn (hv ▸ hfree) (hv ▸ hfailed)
    refine ⟨fun h => ?_, fun hfn h => ?_, fun hfn h => ?_, fun hfn h => ?_, fun hfn h => ?_, fun hfn h hlong => ?_⟩
    · exact State.item_of_error (hentry.trans (if_pos (by simpa using h)))
    · refine State.item_of_error (hentry.trans ((if_neg ?_).trans (if_pos h)))
      rw [h, hfn]
      simp [cFAILED, cFREE]
    · have hok := hin _ h (by decide) (by decide) hfn
      exact ⟨State.beginItem_swapped hok h, State.endItem_of_state hok (h ▸ by decide)⟩
    · have hok : s.itemEntry c f = (s1, .ok b) := by
        rcases h with h | h <;> exact hin _ h (by decide) (by decide) hfn
      refine ⟨State.beginItem_swapping hok h, State.endItem_of_state hok ?_⟩
      rcases h with h | h <;> rw [h] <;> decide
    · exact State.beginItem_inStep (hin _ h (by decide) (by decide) hfn) h
    · have hok := hin _ h (by decide) (by decide) hfn
      exact ⟨State.beginItem_long hok h hlong, State.endItem_of_state hok (h ▸ by decide)⟩

end Sys2Proof.Machine
end
